-- ==== Sys2Proof/Word.lean ====
section
/-! DEFINITION. The words of the device: bytes, 64-bit registers and words (R6, R7), and the
shape of a sparse table. -/

namespace Sys2Proof

/-- One byte. -/
abbrev Byte := BitVec 8

/-- One register, or one word of a carrier header: 64 bits. -/
abbrev Word := BitVec 64

/-- A sparse table: keys strictly rising, no entry equal to what an unlisted key reads as.
What an unlisted key reads as is given to the functions of Machine/Sparse.lean. -/
abbrev Sparse (α : Type) := List (Nat × α)

end Sys2Proof
end

