-- ==== Sys2Proof/Machine/Types.lean ====
section
/-! DEFINITION. Data that commands carry and the state holds: carrier packets and flits (R64, R74). -/

namespace Sys2Proof

/-- A carrier header with its payload (R64, R74): the eight words, the payload bytes, and whether some
flit's sideband carries POISON (R87). -/
structure Packet where
  words : List Word
  payload : List Byte
  poison : Bool
  deriving DecidableEq, Repr

/-- A flit that tenant logic offers at a pavilion port: its sideband fields (Table 3-1), the header
words when it is a HEAD, and its payload bytes. `vc` is `TX_VC`; `vbytes` is the number of valid bytes,
1 to 128. -/
structure OfferedFlit where
  vc : Nat
  head : Bool
  tail : Bool
  poison : Bool
  vbytes : Nat
  words : List Word
  data : List Byte
  deriving DecidableEq, Repr

/-- What the ECC check of a configuration word or of a memory granule finds (R121, R439). -/
inductive EccResult
  | clean | corrected | uncorrectable
  deriving DecidableEq, Repr

/-- Does an ECC check find what it cannot correct? -/
def EccResult.bad (e : EccResult) : Bool := e == .uncorrectable

/-- What the ECC check of a flit finds in its four segments: how many hold a single-bit error, which is corrected, and
whether one holds an uncorrectable error (R87). -/
structure FlitEcc where
  fixed : Nat
  bad : Bool
  deriving DecidableEq, Repr

/-- The single-bit errors that are counted: at most one in each of the segments without an uncorrectable error. -/
def FlitEcc.count (e : FlitEcc) : Nat := min e.fixed (if e.bad then 3 else 4)

/-- A flit without an error. -/
def FlitEcc.clean : FlitEcc := ⟨0, false⟩

/-- The buffer whose front header a station reads at its destination, by its key, and what the ECC check of that flit
finds (R80, R87). -/
structure HeaderRead where
  key : Nat
  ecc : FlitEcc
  deriving DecidableEq, Repr

/-- What a MAC finds of a received frame: its FCS is right, its FEC has marked a codeword of it uncorrectable (R244),
and whether it is still arriving, the row then giving the bytes that have come so far (R17). -/
structure FrameMarks where
  good : Bool
  marked : Bool
  arriving : Bool
  deriving DecidableEq, Repr

/-- The tag of a host's access to a register window, and the level of `REG_READY` that it meets (R116). -/
structure WindowTag where
  tag : Nat
  ready : Bool
  deriving DecidableEq, Repr

/-- What tenant logic drives at the end of a register read: the data, and the level of `REG_READY` (R116). -/
structure RegAnswer where
  data : Word
  ready : Bool
  deriving DecidableEq, Repr

/-- The source whose next packet a commit sequencer passes, and whether the way of the flow cache that the packet's
lookup finds holds an uncorrectable error (R143, R211). -/
structure SequencerPass where
  src : Nat
  wayUe : Bool
  deriving DecidableEq, Repr

/-- An uncorrectable error met by an arbour instruction or a dispatch (R156): of the cluster's
instruction or data memory, or of the thread's context. -/
inductive ArbError
  | none | memory | context
  deriving DecidableEq, Repr

/-- How a read of host memory ends: with data, with poisoned data, with status UR or CA, or by its
completion timeout (R413 to R416). -/
inductive DmaEnd
  | ok | poison | refused | timeout
  deriving DecidableEq, Repr

/-- How the read of an operator's source ends: in device memory by its ECC check, in host memory by its completion. -/
structure SrcRead where
  ecc : EccResult
  dma : DmaEnd
  deriving DecidableEq, Repr

/-- What a microcode fetch of an event meets (R318, R330): nothing, a corrected error, a fault, an error that
is not repaired. -/
inductive UcEnd
  | ok | corrected | fault | unrepaired
  deriving DecidableEq, Repr

/-- What the environment answers to a transport engine in one step: the queue or control entry read and how
that read ends, further data and how its reads end, uncorrectable errors of the context and of the
memory-region entry, and the microcode event. -/
structure TeHost where
  wqe : List Byte
  we : DmaEnd
  data : List Byte
  e : DmaEnd
  ctxUe : Bool
  mrUe : Bool
  uc : UcEnd
  deriving DecidableEq, Repr

/-- A RoCEv2 packet as parsed (R278): is its ICRC right, the BTH's transport version, destination address, ECN = CE, BTH opcode, DestQP,
PSN, P_Key, AckReq, solicited, the bytes after the BTH without padding, the GRH bytes of a UD receive. -/
structure RoceIn where
  good : Bool
  ver : Nat
  dst : Nat
  ce : Bool
  op : Nat
  qpn : Nat
  psn : Nat
  pkey : Nat
  ack : Bool
  se : Bool
  body : List Byte
  grh : List Byte
  deriving DecidableEq, Repr

/-- A TCP segment as parsed (R344): addresses, ports, numbers, flags, window, timestamps, SACK blocks,
data, and whether it is marked CE. -/
structure TcpIn where
  src : Nat
  dst : Nat
  sport : Nat
  dport : Nat
  seq : Nat
  ack : Nat
  flags : Nat
  wnd : Nat
  ts : Option (Nat × Nat)
  sacks : List (Nat × Nat)
  data : List Byte
  ce : Bool
  deriving DecidableEq, Repr

/-- What a host answers to a storage engine that follows PRPs: the PRP list entries read, the data read, and
how the reads end. -/
structure NveHost where
  list : List Byte
  data : List Byte
  e : DmaEnd
  deriving DecidableEq, Repr

/-- The fields of an address-translation window (Table 15-13). -/
structure AtwFields where
  en : Bool
  rd : Bool
  wr : Bool
  sizeLog2 : Nat
  td : Nat
  base : Nat
  target : Nat
  deriving DecidableEq, Repr

/-- What the surroundings answer within a register write: the bytes that host memory returns to a read it
causes, how that read or the memory access of a stepped instruction ends, whether the external clock
is present, whether a port being disabled is receiving a frame, and the stations' ports over a new limit. -/
structure CsrEnv where
  bytes : List Byte
  src : SrcRead
  refPresent : Bool
  receiving : Bool
  overIn : List Nat
  overEject : List Nat
  deriving DecidableEq, Repr

/-- An SPDM request on a DOE mailbox (R535): the secured session it came in, if any, the version byte, the two
parameters, and what follows the four bytes of the header. -/
structure SpdmReq where
  session : Option Nat
  version : Nat
  p1 : Nat
  p2 : Nat
  body : List Byte
  deriving DecidableEq, Repr

/-- The privilege mode in which a hart makes an access (R430). -/
inductive HartMode
  | m | hs | u | vs | vu
  deriving DecidableEq, Repr

/-- What the caches give for the fetch of the instruction that makes an access (R429): good bytes, good bytes fetched again
after bad parity, bytes corrected by a cache's SECDED, or poisoned bytes. -/
inductive HartFetch
  | good | refetched | corrected | poisoned
  deriving DecidableEq, Repr

/-- What the checks find at an access of a hart, or of the system bus: those of the caches, and those of memory where it is
read (R429, R438). -/
structure HartMem where
  cache : EccResult
  mem : EccResult
  deriving DecidableEq, Repr

/-- An access of a hart: its number, its mode, and how its instruction was fetched (R429, R430). -/
structure HartAccess where
  hart : Nat
  mode : HartMode
  fetch : HartFetch
  deriving DecidableEq, Repr

/-- A core's read of `size` bytes at an offset of the control space. -/
structure CoreRead where
  who : HartAccess
  offset : Nat
  size : Nat
  deriving DecidableEq, Repr

/-- Who makes a control-space access: a host, or a core (R7, R34, R35). -/
inductive Accessor
  | host
  | core (x : HartAccess)
  deriving DecidableEq, Repr

/-- The function that a TLP concerns, the IDE stream that it arrives on, and whether its integrity check is good (R420). -/
structure TlpRoute where
  fn : Nat
  stream : Option Nat
  good : Bool
  deriving DecidableEq, Repr

/-- An ATS Invalidation Request: its tag, and the range of 2^`log2` bytes at `addr`, of a PASID or of none (R412). -/
structure AtsRange where
  tag : Nat
  pasid : Option Nat
  addr : Nat
  log2 : Nat
  deriving DecidableEq, Repr

/-- What is settled when a link comes up: whether it works in FLIT mode, and whether its host has Device Readiness Status
enabled (R392, R405). -/
structure LinkMode where
  flit : Bool
  drs : Bool
  deriving DecidableEq, Repr

/-- A queue whose state a host queue engine reads, with the result of the ECC check of what it reads (R383). -/
structure QueueRead where
  queue : Nat
  ecc : EccResult
  deriving DecidableEq, Repr

/-- The data of a DMI operation, and what the caches and memory meet if a hart or the bus accesses them for it (R543). -/
structure DmiData where
  data : Nat
  mem : HartMem
  deriving DecidableEq, Repr

/-- What comes to a function from its host: a TLP, the write that resets it or takes an enable away, or an object on its
DOE mailbox, with the operands of its command; SPDM and TDISP requests by their code. -/
inductive Tlp
  | config (route : TlpRoute) (offset : Nat) (write : Bool) (be value : Nat)
  | read (fn bar offset len tag : Nat) (stream : Option Nat) (good : Bool) (ecc : EccResult)
  | write (fn bar offset : Nat) (data : List Byte) (poison : Bool) (stream : Option Nat) (good : Bool) (env : CsrEnv)
      (answer : TeHost)
  | atomicIo (route : TlpRoute) (tag : Nat)
  | completion (port link tag : Nat) (route : TlpRoute) (ok poison : Bool) (data : List Byte)
  | message (route : TlpRoute) (code data : Nat)
  | atsInvalidation (route : TlpRoute) (range : AtsRange)
  | flr (fn : Nat)
  | busMasterOff (fn : Nat)
  | vfEnableOff (pf : Nat)
  | doe (pf index : Nat)
  | ideKm (pf session : Nat) (message : List Byte)
  | spdm (pf code : Nat) (request : SpdmReq)
  | tdisp (pf code session fn version : Nat) (payload : List Byte)
  deriving DecidableEq, Repr

/-- The function that it comes to; a mailbox is that of the PF. -/
def Tlp.fn : Tlp → Nat
  | .config x .. | .atomicIo x .. | .completion _ _ _ x .. | .message x .. | .atsInvalidation x .. => x.fn
  | .read fn .. | .write fn .. | .flr fn | .busMasterOff fn => fn
  | .vfEnableOff pf | .doe pf _ | .ideKm pf .. | .spdm pf .. | .tdisp pf .. => 1024 * pf

end Sys2Proof
end

