-- ==== Sys2Proof/Syntax.lean ====
section
/-! DEFINITION. The commands of the block: one constructor per row of the opcode table, with the
row's operands. An identifier is a plain number; WellFormed.lean says which numbers exist. -/

namespace Sys2Proof

/-- The commands (spec/opcode_table.json). -/
inductive Instr
  /-- REGISTER_WRITE: A write to a register that has no row of its own: the field update follows the access type of the register. (R11) -/
  | registerWrite (who : Accessor) (offset size : Nat) (value : Word) (env : CsrEnv)
  /-- RC_REGISTER_READ: A read of an RC field returns its value and clears it. (R11) -/
  | rcRegisterRead (access : CoreRead)
  /-- COMMIT_CANCEL: A CANCEL written to a commit register withdraws a pending commit that has not yet been applied. (R25) -/
  | commitCancel (offset : Nat)
  /-- FRAME_RECEIVE: A MAC receives a frame, timestamps it and stores it in the ingress buffer byte by byte. (R17) -/
  | frameReceive (port : Nat) (data : List Byte) (marks : FrameMarks)
  /-- PFC_REPEAT: After half the pause time the MAC repeats the PFC frame while either XOFF condition holds. (R89) -/
  | pfcRepeat (port prio : Nat)
  /-- ETH_PFC_EN_CLEAR: Clearing PFC enable while repeating sends one zero-time PFC frame and stops further frames. (R89) -/
  | ethPfcEnClear (port prio : Nat)
  /-- PFC_FRAME_RECEIVED: A received PFC frame pauses, re-times or ends the pause of the classes it enables. (R240) -/
  | pfcFrameReceived (port enable : Nat) (times : List Nat)
  /-- PFC_PAUSE_EXPIRY: The pause time of a class runs out and the class may send again. (R240) -/
  | pfcPauseExpiry (port prio : Nat)
  /-- LINK_LOSS: Loss of signal, lock or alignment on a lane takes the link down and aborts a frame in reception. (R245) -/
  | linkLoss (port : Nat) (receiving : Bool)
  /-- LINK_TRAINING_COMPLETE: Link training of a port ends and lane latency measurement begins. (R461) -/
  | linkTrainingComplete (port : Nat)
  /-- LANE_CALIBRATION_COMPLETE: The MAC writes the measured lane latencies and raises link UP. (R461) -/
  | laneCalibrationComplete (port : Nat) (latencies : List (Nat × Nat))
  /-- PACKET_INJECT: A station takes a head flit, stamps STAMPED sources and checks the header for injection. (R78) -/
  | packetInject (ep : Nat) (offer : Option OfferedFlit)
  /-- FLIT_INJECT: A station takes a later flit of a packet and checks the length against LEN. (R84) -/
  | flitInject (ep : Nat) (offer : Option OfferedFlit)
  /-- FLIT_HOP: A flit moves over one link when a credit for its virtual channel is held. (R66) -/
  | flitHop (key : Nat) (ecc : FlitEcc)
  /-- HEADER_DELIVERY: A destination station delivers a header, checking TD at a STAMPED endpoint. (R80) -/
  | headerDelivery (head : HeaderRead)
  /-- STALL_TIMEOUT: A port's stall count exceeds the limit, and the station aborts the packet and injects a void. (R83) -/
  | stallTimeout (ep : Nat)
  /-- EJECTION_WATCHDOG: Flits wait at a STAMPED ejection port beyond the limit, and the station aborts and blocks the port. (R85) -/
  | ejectionWatchdog (ep : Nat)
  /-- PRM_STALL_LIMIT_WRITE: A new stall limit applies to every timer from the next cycle. (R88) -/
  | prmStallLimitWrite (limit : Nat) (overIn overEject : List Nat)
  /-- SITE_COMMIT_GO: GO to SITE_COMMIT starts a site-plan load in the COPY phase. (R47) -/
  | siteCommitGo
  /-- SITE_COPY_END: The copy of the container into the staging region ends and VERIFY begins. (R48) -/
  | siteCopyEnd (hostBytes : List Byte) (x : SrcRead)
  /-- SITE_VERIFY_END: Verification ends, rejecting the container or starting QUIESCE. (R47) -/
  | siteVerifyEnd (receiving : List Nat)
  /-- SITE_QUIESCE_END: Every differing element has reached its quiescent boundary and APPLY begins. (R52) -/
  | siteQuiesceEnd
  /-- SITE_QUIESCE_TIMEOUT: An element has not quiesced within the quiesce limit and the amendment is rejected. (R56) -/
  | siteQuiesceTimeout
  /-- SITE_DRAIN_LIMIT_EXPIRY: Egress drain time ends and the remaining queued frames of the port are discarded. (R57) -/
  | siteDrainLimitExpiry
  /-- SITE_APPLY_END: APPLY has written the structure, reset differing content and updated the live-plan registers. (R52) -/
  | siteApplyEnd
  /-- SITE_RESUME_END: Quiesced scopes are released and the load ends. (R47) -/
  | siteResumeEnd
  /-- SITE_LOAD_CANCEL: CANCEL on SITE_COMMIT during COPY, VERIFY or QUIESCE rejects the load with condition 0x14. (R58) -/
  | siteLoadCancel
  /-- PAV_LOAD: A LOAD command checks the group and source and starts loading a pavilion stream. (R104) -/
  | pavLoad (group : Nat) (host : Bool)
  /-- PAV_HEADER_CHECK_END: The stream header has been read and checked, and power-up and scrub start. (R104) -/
  | pavHeaderCheckEnd (group : Nat) (hostBytes : List Byte) (src : SrcRead)
  /-- PAV_SCRUB_END: A scrub of the members ends and is checked, repeated or failed. (R107) -/
  | pavScrubEnd (group : Nat) (zero : Bool)
  /-- PAV_FRAME_END: An engine has written a member's frame and checked its tag. (R104) -/
  | pavFrameEnd (member : Nat) (hostBytes : List Byte) (src : SrcRead)
  /-- USER_RESET_END: User reset ends after 64 port-clock cycles and the ports attach with credits reset. (R104) -/
  | userResetEnd (group : Nat)
  /-- PAV_UNLOAD: An UNLOAD command asserts QUIESCE_REQ or detaches and unloads the group. (R105) -/
  | pavUnload (group grace : Nat)
  /-- QUIESCE_ACK: Tenant logic raises QUIESCE_ACK and unloading proceeds. (R105) -/
  | quiesceAck (group : Nat)
  /-- GRACE_EXPIRY: The unload grace period runs out and unloading proceeds. (R105) -/
  | graceExpiry (group : Nat)
  /-- PAV_HBM_WRITES_DONE: Accepted HBM writes of an unloading group have completed and scrubbing starts. (R105) -/
  | pavHbmWritesDone (group : Nat)
  /-- PAV_RELEASE: The operator's RELEASE leaves FENCED with a user reset. (R123) -/
  | pavRelease (group : Nat)
  /-- PAV_CANCEL: CANCEL on a LOADING group stops its engines, scrubs and ends the load. (R106) -/
  | pavCancel (group : Nat)
  /-- PAVC_RELEASE: The tenant's RELEASE through the control page leaves FENCED when policy allows. (R123) -/
  | pavcRelease (group : Nat)
  /-- USER_RESET: USER_RESET on a RUNNING group applies user reset without detaching. (R123) -/
  | userReset (group : Nat)
  /-- PAVC_CLK_WRITE: A write sets a user clock of the group, capped at MAX_MHZ. (R118) -/
  | pavcClkWrite (group clock khz : Nat)
  /-- CLKCAP_WRITE: Lowering MAX_MHZ below a running clock lowers that clock. (R118) -/
  | clkcapWrite (group mhz : Nat)
  /-- CONFIG_SCAN: The unit reads configuration memory, corrects single-bit errors and fences on others. (R121) -/
  | configScan (member : Nat) (ecc : EccResult)
  /-- PAV_HBM_REQUEST: A member's HBM port takes a read or write request into the group's window. (R113) -/
  | pavHbmRequest (member : Nat) (write : Bool) (addr tag : Nat) (data : List Byte) (mask : Word)
  /-- PAV_HBM_RESPONSE: An HBM request completes and its response with tag and status returns. (R113) -/
  | pavHbmResponse (index : Nat) (ecc : EccResult)
  /-- REG_WINDOW_ACCESS: A host access to a pavilion register window is answered by PAVC, the tenant bus or the fixed pattern. (R115) -/
  | regWindowAccess (group : Nat) (write : Bool) (offset : Nat) (value : Word) (tag : WindowTag)
  /-- REG_READ_RETURN: Tenant logic returns read data on the register bus. (R116) -/
  | regReadReturn (group : Nat) (answer : RegAnswer)
  /-- PAV_REG_TIMEOUT_EXPIRY: A register read times out and completes with all ones. (R117) -/
  | pavRegTimeoutExpiry (group : Nat)
  /-- RX_CREDIT_RETURN: Tenant logic returns a receive credit, which is a violation beyond 64. (R111) -/
  | rxCreditReturn (ep vc : Nat)
  /-- SLEEP_REQ_RISE: Tenant logic raises SLEEP_REQ and the group may enter Haze. (R119) -/
  | sleepReqRise (group : Nat)
  /-- SLEEP_REQ_FALL: SLEEP_REQ falls and the group returns to Clear. (R119) -/
  | sleepReqFall (group : Nat)
  /-- ARBOUR_DISPATCH: A stored packet is dispatched to an IDLE thread of a RELEASED cluster. (R139) -/
  | arbourDispatch (src : Nat) (err : ArbError)
  /-- COMMIT_SEQUENCER_PASS: A committed packet passes to classification in arrival order. (R143) -/
  | commitSequencerPass (pass : SequencerPass)
  /-- ARB_INIT_LIMIT_EXPIRY: RELEASE has not come within the limit and the cluster stays CLOSED. (R138) -/
  | arbInitLimitExpiry (cluster : Nat)
  /-- ARB_RUN_LIMIT_EXPIRY: A packet exceeds the run limit and is dropped. (R144) -/
  | arbRunLimitExpiry (cluster thread : Nat)
  /-- DEADLOCK: A set has been deadlocked for 4,096 cycles and every wait in it ends with DEADLOCK. (R149) -/
  | deadlock (cluster set : Nat)
  /-- HALT_HOLD: A set blocked only by halted threads is reported after 4,096 cycles. (R150) -/
  | haltHold (cluster set : Nat)
  /-- PARK_TIMEOUT: A parked thread's timeout expires and PARK ends with TIMEOUT. (R175) -/
  | parkTimeout (cluster thread : Nat)
  /-- BREAKPOINT_HALT: A thread reaching an enabled breakpoint halts before the instruction issues. (R151) -/
  | arbBreakpointHalt (cluster thread : Nat)
  /-- HALT: Debug HALT stops a thread at its next issue slot or holds the halt pending. (R151) -/
  | arbHalt (cluster thread : Nat)
  /-- RESUME: Debug RESUME returns a halted thread to its prior state at the same PC. (R153) -/
  | arbResume (cluster thread : Nat)
  /-- STEP: Debug STEP issues one instruction and halts again. (R153) -/
  | arbStep (cluster thread : Nat) (err : ArbError)
  /-- ABANDON: Debug ABANDON drops a halted thread's packet and frees its locks and waits. (R153) -/
  | arbAbandon (cluster thread : Nat)
  /-- HALT_ALL: Debug HALT_ALL halts every thread of the cluster. (R151) -/
  | arbHaltAll (cluster : Nat)
  /-- RESUME_ALL: Debug RESUME_ALL resumes every halted thread of the cluster. (R153) -/
  | arbResumeAll (cluster : Nat)
  /-- NOP: Arbour NOP has no effect. (R176) -/
  | arbNop (cluster thread : Nat) (err : ArbError)
  /-- ADD: Arbour ADD writes RA + RB to RD. (R177) -/
  | arbAdd (cluster thread : Nat) (err : ArbError)
  /-- SUB: Arbour SUB writes RA − RB to RD. (R177) -/
  | arbSub (cluster thread : Nat) (err : ArbError)
  /-- AND: Arbour AND writes the bitwise AND. (R177) -/
  | arbAnd (cluster thread : Nat) (err : ArbError)
  /-- OR: Arbour OR writes the bitwise OR. (R177) -/
  | arbOr (cluster thread : Nat) (err : ArbError)
  /-- XOR: Arbour XOR writes the bitwise XOR. (R177) -/
  | arbXor (cluster thread : Nat) (err : ArbError)
  /-- ANDN: Arbour ANDN writes RA AND NOT RB. (R177) -/
  | arbAndn (cluster thread : Nat) (err : ArbError)
  /-- SHL: Arbour SHL shifts left by RB[5:0]. (R162) -/
  | arbShl (cluster thread : Nat) (err : ArbError)
  /-- SHR: Arbour SHR shifts right logically. (R162) -/
  | arbShr (cluster thread : Nat) (err : ArbError)
  /-- SAR: Arbour SAR shifts right arithmetically. (R162) -/
  | arbSar (cluster thread : Nat) (err : ArbError)
  /-- MINU: Arbour MINU writes the unsigned minimum. (R177) -/
  | arbMinu (cluster thread : Nat) (err : ArbError)
  /-- MAXU: Arbour MAXU writes the unsigned maximum. (R177) -/
  | arbMaxu (cluster thread : Nat) (err : ArbError)
  /-- MUL: Arbour MUL writes the low 64 bits of the product in two slots. (R162) -/
  | arbMul (cluster thread : Nat) (err : ArbError)
  /-- SLTU: Arbour SLTU writes 1 when RA is below RB unsigned. (R162) -/
  | arbSltu (cluster thread : Nat) (err : ArbError)
  /-- ADDI: Arbour ADDI adds the sign-extended immediate. (R162) -/
  | arbAddi (cluster thread : Nat) (err : ArbError)
  /-- ANDI: Arbour ANDI ANDs the sign-extended immediate. (R162) -/
  | arbAndi (cluster thread : Nat) (err : ArbError)
  /-- ORI: Arbour ORI ORs the sign-extended immediate. (R162) -/
  | arbOri (cluster thread : Nat) (err : ArbError)
  /-- XORI: Arbour XORI XORs the sign-extended immediate. (R162) -/
  | arbXori (cluster thread : Nat) (err : ArbError)
  /-- SHLI: Arbour SHLI shifts left by an immediate. (R162) -/
  | arbShli (cluster thread : Nat) (err : ArbError)
  /-- SHRI: Arbour SHRI shifts right logically by an immediate. (R162) -/
  | arbShri (cluster thread : Nat) (err : ArbError)
  /-- SARI: Arbour SARI shifts right arithmetically by an immediate. (R162) -/
  | arbSari (cluster thread : Nat) (err : ArbError)
  /-- SLTUI: Arbour SLTUI compares RA unsigned with the sign-extended immediate. (R162) -/
  | arbSltui (cluster thread : Nat) (err : ArbError)
  /-- MOVI: Arbour MOVI writes the sign-extended immediate. (R162) -/
  | arbMovi (cluster thread : Nat) (err : ArbError)
  /-- MOVHI: Arbour MOVHI writes the immediate to RD[63:32] and keeps RD[31:0]. (R162) -/
  | arbMovhi (cluster thread : Nat) (err : ArbError)
  /-- BFX: Arbour BFX extracts a bit field zero-extended. (R162) -/
  | arbBfx (cluster thread : Nat) (err : ArbError)
  /-- BFI: Arbour BFI inserts a bit field into RD. (R162) -/
  | arbBfi (cluster thread : Nat) (err : ArbError)
  /-- EXT: Arbour EXT reads a field of the packet window into RD. (R164) -/
  | arbExt (cluster thread : Nat) (err : ArbError)
  /-- INS: Arbour INS writes RB into a field of the packet window. (R164) -/
  | arbIns (cluster thread : Nat) (err : ArbError)
  /-- KCPY: Arbour KCPY copies window bytes into the key builder. (R170) -/
  | arbKcpy (cluster thread : Nat) (err : ArbError)
  /-- CRCWIN: Arbour CRCWIN updates a raw CRC32C over window bytes. (R168) -/
  | arbCrcwin (cluster thread : Nat) (err : ArbError)
  /-- KPUT: Arbour KPUT writes low bytes of RA into the key builder. (R170) -/
  | arbKput (cluster thread : Nat) (err : ArbError)
  /-- KCLR: Arbour KCLR clears the key builder and profile. (R170) -/
  | arbKclr (cluster thread : Nat) (err : ArbError)
  /-- KPROF: Arbour KPROF sets the key profile. (R170) -/
  | arbKprof (cluster thread : Nat) (err : ArbError)
  /-- CRC: Arbour CRC updates a raw CRC32C over low bytes of RB. (R168) -/
  | arbCrc (cluster thread : Nat) (err : ArbError)
  /-- TPZ: Arbour TPZ performs one 32-bit Toeplitz step. (R169) -/
  | arbTpz (cluster thread : Nat) (err : ArbError)
  /-- LD: Arbour LD reads data memory into RD. (R166) -/
  | arbLd (cluster thread : Nat) (err : ArbError)
  /-- ST: Arbour ST writes RB to data memory. (R166) -/
  | arbSt (cluster thread : Nat) (err : ArbError)
  /-- BR: Arbour BR branches when RA and RB meet the condition. (R165) -/
  | arbBr (cluster thread : Nat) (err : ArbError)
  /-- BRI: Arbour BRI branches when RA and the immediate meet the condition. (R165) -/
  | arbBri (cluster thread : Nat) (err : ArbError)
  /-- JAL: Arbour JAL saves PC + 1 and jumps. (R165) -/
  | arbJal (cluster thread : Nat) (err : ArbError)
  /-- JR: Arbour JR jumps to RA[13:0]. (R165) -/
  | arbJr (cluster thread : Nat) (err : ArbError)
  /-- RDS: Arbour RDS reads a special value into RD. (R172) -/
  | arbRds (cluster thread : Nat) (err : ArbError)
  /-- EMITF: Arbour EMITF writes a field of an emit-channel word and marks it written. (R171) -/
  | arbEmitf (cluster thread : Nat) (err : ArbError)
  /-- COMMIT: Arbour COMMIT hands the emit channel, key and window to the commit path, waiting for a buffer entry. (R142) -/
  | arbCommit (cluster thread : Nat) (err : ArbError)
  /-- END: Arbour END frees the thread, dropping an uncommitted packet. (R176) -/
  | arbEnd (cluster thread : Nat) (err : ArbError)
  /-- LOCK: Arbour LOCK takes or waits for a gatehouse lock. (R146) -/
  | arbLock (cluster thread : Nat) (err : ArbError)
  /-- UNLOCK: Arbour UNLOCK frees a held lock. (R146) -/
  | arbUnlock (cluster thread : Nat) (err : ArbError)
  /-- SIGNAL: Arbour SIGNAL adds an amount to an event counter. (R173) -/
  | arbSignal (cluster thread : Nat) (err : ArbError)
  /-- WAIT: Arbour WAIT waits until an event counter meets its value. (R173) -/
  | arbWait (cluster thread : Nat) (err : ArbError)
  /-- ORDER: Arbour ORDER waits until every earlier packet of the cluster has passed the sequencer. (R173) -/
  | arbOrder (cluster thread : Nat) (err : ArbError)
  /-- PARK: Arbour PARK suspends the thread until its wake condition or timeout. (R175) -/
  | arbPark (cluster thread : Nat) (err : ArbError)
  /-- TSET: Arbour TSET assigns threads to a thread set during INIT. (R137) -/
  | arbTset (cluster thread : Nat) (err : ArbError)
  /-- RELEASE: Arbour RELEASE ends INIT and opens the cluster to dispatch. (R137) -/
  | arbRelease (cluster thread : Nat) (err : ArbError)
  /-- CLASSIFY_HANDOVER: Classification takes a committed packet and starts search, lookup, policing and hashing. (R181) -/
  | classifyHandover
  /-- ACM_SEARCH_ADMIT: A search waiting for activation budget is admitted at a new window. (R188) -/
  | acmSearchAdmit
  /-- EMT_BUCKET_READ_RETURN: Candidate bucket reads return and the lookup hits or misses. (R211) -/
  | emtBucketReadReturn (index : Nat) (eccA eccB : EccResult)
  /-- CLASSIFY_INJECT: Classification injects the copies and original after earlier packets of the same source and hash. (R182) -/
  | classifyInject (index : Nat) (ue : Bool)
  /-- MIRROR_COPY: The replication engine sends a mirror copy to its session destination. (R200) -/
  | mirrorCopy
  /-- ACM_VER_COMMIT_GO: GO requests the next rule version and stalls while four versions are live. (R190) -/
  | acmVerCommitGo
  /-- ACM_VER_APPLY: The pending version commit is applied once fewer than four are live and no sweep runs. (R190) -/
  | acmVerApply
  /-- VERSION_RETIRE: A drained version retires, OLDEST advances and a sweep starts. (R191) -/
  | versionRetire
  /-- SWEEP_END: The sweep of every allocated bank ends. (R192) -/
  | sweepEnd
  /-- ACM_ENT_WRITE: WRITE replaces an entry from the buffer in three steps. (R194) -/
  | acmEntWrite
  /-- ACM_ENT_WRITE_CTRL: WRITE_CTRL replaces an entry's control word in one step. (R194) -/
  | acmEntWriteCtrl
  /-- ACM_ENT_READ: READ copies an entry into the entry buffer. (R194) -/
  | acmEntRead
  /-- ACM_ENT_INVALIDATE: INVALIDATE clears an entry's VALID. (R194) -/
  | acmEntInvalidate
  /-- ACM_ENT_CMD_DONE: An entry command completes and BUSY clears. (R194) -/
  | acmEntCmdDone
  /-- ACM_SHIFT: A shift command moves a range of entries of a bank by one place. (R195) -/
  | acmShift (down : Bool) (bank first last : Nat)
  /-- ACM_SHIFT_DONE: A shift completes and its BUSY clears. (R195) -/
  | acmShiftDone
  /-- ACM_PARITY_SCAN: The parity scan invalidates a failing entry. (R196) -/
  | acmParityScan (bank entry : Nat)
  /-- ACM_ACT_WRITE: An action entry is written whole from the buffer. (R197) -/
  | acmActWrite
  /-- ACM_ACT_READ: An action entry is read into the buffer. (R197) -/
  | acmActRead
  /-- ACM_POL_WRITE: A policer's settings are replaced and its buckets filled. (R202) -/
  | acmPolWrite
  /-- ACM_POL_READ: A policer's settings and counts are loaded into the registers. (R202) -/
  | acmPolRead
  /-- INDIRECTION_TABLE_WRITE: A register write replaces two indirection entries in one step. (R204) -/
  | indirectionTableWrite (index : Nat) (value : Word)
  /-- INSERT: INSERT places a key in an exact-match table. (R214) -/
  | emtInsert (table : Nat)
  /-- UPSERT: UPSERT places a key or replaces its action, context and STATIC. (R214) -/
  | emtUpsert (table : Nat)
  /-- DELETE: DELETE clears VALID of the matching entry. (R214) -/
  | emtDelete (table : Nat)
  /-- FIND: FIND reports a key's location, word 0 and hit time. (R214) -/
  | emtFind (table : Nat)
  /-- READ_AT: READ_AT copies the entry at a location into the command registers. (R214) -/
  | emtReadAt (table : Nat)
  /-- DELETE_AT: DELETE_AT clears VALID at a location whatever its parity. (R214) -/
  | emtDeleteAt (table : Nat)
  /-- EMT_CMD_DONE: The placement engine completes an entry command. (R213) -/
  | emtCmdDone
  /-- DISPLACEMENT_MOVE: One entry moves along a displacement path. (R214) -/
  | displacementMove
  /-- LEARN_APPLY: The placement engine takes a queued learn and places the entry. (R215) -/
  | learnApply
  /-- AGE_SCAN: The ageing scan reads a bucket, writes back hit times and queues removals. (R216) -/
  | ageScan
  /-- AGE_REMOVAL: The engine rechecks and removes an aged entry. (R216) -/
  | ageRemoval
  /-- EMT_DMA_READ: DMA READ copies buckets to a buffer. (R218) -/
  | emtDmaRead (host : Bool)
  /-- READ_LOCK: READ_LOCK copies buckets and locks them. (R218) -/
  | readLock (host : Bool)
  /-- EMT_DMA_WRITE: DMA WRITE replaces buckets from a buffer. (R218) -/
  | emtDmaWrite (host : Bool)
  /-- WRITE_UNLOCK: WRITE_UNLOCK replaces buckets and clears their locks. (R218) -/
  | writeUnlock (host : Bool)
  /-- EMT_DMA_UNLOCK: UNLOCK clears the locks of a bucket range. (R218) -/
  | emtDmaUnlock (host : Bool)
  /-- EMT_DMA_DONE: A DMA command completes or stops on a memory error. (R218) -/
  | emtDmaDone (hostBytes : List Byte) (x : SrcRead)
  /-- EMT_REDIR_COMMIT_GO: GO requests a new lookup target for a table. (R220) -/
  | emtRedirCommitGo (table : Nat)
  /-- SCH_ENQUEUE: An egress port enqueues an arriving packet on its leaf or discards it. (R226) -/
  | schEnqueue (port : Nat)
  /-- FRAME_SELECT: The port selects the next frame through its tree and starts it. (R230) -/
  | frameSelect (port markers : Nat) (ecc : EccResult)
  /-- FRAME_TRANSMIT_END: Transmission of a frame ends. (R227) -/
  | frameTransmitEnd (port sent : Nat) (ecc : EccResult)
  /-- SHAPER_REFILL: A node's shaper credit grows at its refill instant. (R232) -/
  | shaperRefill (level index : Nat)
  /-- SCH_NODE_COMMIT_GO: GO requests staged node content for the selected node. (R234) -/
  | schNodeCommitGo
  /-- SCH_GCL_COMMIT_GO: GO checks the administrative list and computes the change time. (R237) -/
  | schGclCommitGo (port : Nat)
  /-- GCL_CHANGE: At the change time the new gate list starts with entry 0. (R237) -/
  | gclChange (port : Nat)
  /-- GATE_ENTRY_CHANGE: A gate-list entry interval ends and the next entry's states take force. (R236) -/
  | gateEntryChange (port : Nat)
  /-- GCL_CYCLE_START: An old-list cycle begins or is held before the change time. (R237) -/
  | gclCycleStart (port : Nat)
  /-- CPH_ADMISSION: A pair's front end checks an arriving request and admits or refuses it. (R254) -/
  | cphAdmission (pair index : Nat) (ecc : EccResult)
  /-- KEY_SLOT_FETCH: A key-cache miss reads and unwraps a slot record. (R263) -/
  | keySlotFetch (slot : Nat) (ecc : EccResult)
  /-- CPH_COMPARE: Both pipelines finish and the comparator checks them. (R266) -/
  | cphCompare (index : Nat) (agree : Bool)
  /-- CPH_RETRY_COMPARE: A retry after a mismatch finishes and releases or quarantines. (R267) -/
  | cphRetryCompare (index : Nat) (agree : Bool)
  /-- CPH_RESULT_RELEASE: A result is released in admission order as a completion or packet. (R255) -/
  | cphResultRelease (index : Nat)
  /-- QUARANTINE: The operator moves a pair to QUARANTINED. (R269) -/
  | cphQuarantine (pair : Nat)
  /-- TEST: TEST starts a known-answer run on a quarantined pair. (R269) -/
  | cphTest (pair : Nat)
  /-- TEST_END: The known-answer run ends and TEST_PASS is set or cleared. (R269) -/
  | cphTestEnd (pair : Nat) (pass : Bool)
  /-- REINSTATE: REINSTATE returns a tested pair to SERVICE. (R269) -/
  | cphReinstate (pair : Nat)
  /-- REINSTATE_MOVE: A queue with nothing outstanding at the alternate moves back to its pair. (R269) -/
  | reinstateMove (queue : Nat)
  /-- LOAD_CLEAR: A key slot is loaded from staged cleartext. (R264) -/
  | cphLoadClear
  /-- LOAD_BLOB: A key slot is loaded from a tenant key blob. (R538) -/
  | cphLoadBlob (hostBytes : List Byte) (x : SrcRead)
  /-- INVALIDATE: A key slot is emptied and unpinned. (R264) -/
  | cphInvalidate
  /-- SET_SEQ: A slot's SEQ is set and its window cleared. (R264) -/
  | cphSetSeq
  /-- TWK_INSTALL: A tenant wrapping key is opened from a TWK blob and installed. (R537) -/
  | twkInstall (hostBytes : List Byte) (x : SrcRead)
  /-- TWK_REMOVE: A TD's tenant wrapping key is cleared. (R537) -/
  | twkRemove
  /-- SET_PIN: A slot's pin is set or cleared. (R265) -/
  | cphSetPin
  /-- CPH_KEY_OP_DONE: A key operation completes, incrementing the generation or recording its failure. (R264) -/
  | cphKeyOpDone
  /-- TE_PACKET_RECEIVE: A transport engine takes an arriving RoCEv2 packet and checks its context. (R279) -/
  | tePacketReceive (engine : Nat) (h : TeHost)
  /-- TE_FN_DOORBELL: A doorbell advances an SQ, RQ, SRQ or CQ index of a function. (R286) -/
  | teFnDoorbell (fn : Nat) (value : Word) (h : TeHost)
  /-- TE_FN_CTRL_PI_WRITE: The control-ring producer index is advanced and entries are taken in order. (R287) -/
  | teFnCtrlPiWrite (fn pi : Nat)
  /-- CREATE_QP: A control entry creates a QP context. (R287) -/
  | teCreateQp (fn : Nat) (h : TeHost)
  /-- MODIFY_QP: A control entry modifies a QP and moves its state. (R281) -/
  | teModifyQp (fn : Nat) (h : TeHost)
  /-- QUERY_QP: A control entry writes a QP context to host memory. (R287) -/
  | teQueryQp (fn : Nat) (h : TeHost)
  /-- DESTROY_QP: A control entry destroys a QP. (R287) -/
  | teDestroyQp (fn : Nat) (h : TeHost)
  /-- CREATE_SRQ: A control entry creates an SRQ. (R287) -/
  | teCreateSrq (fn : Nat) (h : TeHost)
  /-- MODIFY_SRQ: A control entry modifies an SRQ. (R287) -/
  | teModifySrq (fn : Nat) (h : TeHost)
  /-- DESTROY_SRQ: A control entry destroys an SRQ. (R287) -/
  | teDestroySrq (fn : Nat) (h : TeHost)
  /-- CREATE_CQ: A control entry creates a CQ. (R287) -/
  | teCreateCq (fn : Nat) (h : TeHost)
  /-- DESTROY_CQ: A control entry destroys a CQ. (R287) -/
  | teDestroyCq (fn : Nat) (h : TeHost)
  /-- REG_MR: A control entry registers a memory region. (R284) -/
  | teRegMr (fn : Nat) (h : TeHost)
  /-- DEREG_MR: A control entry deregisters a memory region. (R284) -/
  | teDeregMr (fn : Nat) (h : TeHost)
  /-- ALLOC_MW: A control entry reserves a memory window. (R285) -/
  | teAllocMw (fn : Nat) (h : TeHost)
  /-- SEND: A send WQE sends a message. (R288) -/
  | teSend (qp : Nat) (h : TeHost)
  /-- SEND_IMM: A send WQE sends a message with immediate data. (R288) -/
  | teSendImm (qp : Nat) (h : TeHost)
  /-- SEND_INV: A send WQE sends a message that invalidates a remote key. (R284) -/
  | teSendInv (qp : Nat) (h : TeHost)
  /-- WRITE: A send WQE performs an RDMA WRITE. (R288) -/
  | teWrite (qp : Nat) (h : TeHost)
  /-- WRITE_IMM: A send WQE performs a WRITE with immediate. (R288) -/
  | teWriteImm (qp : Nat) (h : TeHost)
  /-- READ: A send WQE performs an RDMA READ. (R288) -/
  | teRead (qp : Nat) (h : TeHost)
  /-- ATOMIC_CAS: A send WQE performs compare-and-swap. (R288) -/
  | teAtomicCas (qp : Nat) (h : TeHost)
  /-- ATOMIC_FAA: A send WQE performs fetch-and-add. (R288) -/
  | teAtomicFaa (qp : Nat) (h : TeHost)
  /-- LOCAL_INV: A send WQE invalidates a local key. (R284) -/
  | teLocalInv (qp : Nat) (h : TeHost)
  /-- BIND_MW: A send WQE binds a type-2 window. (R285) -/
  | teBindMw (qp : Nat) (h : TeHost)
  /-- WQE_WAIT: A WAIT WQE holds the send queue until a CQ count is met. (R293) -/
  | teWqeWait (qp : Nat) (h : TeHost)
  /-- WQE_NOP: A NOP WQE does nothing but may complete. (R288) -/
  | teWqeNop (qp : Nat) (h : TeHost)
  /-- TAGGED_RECEIVE: A posted tagged receive is matched against the unexpected list or posted. (R296) -/
  | teTaggedReceive (srq : Nat) (h : TeHost)
  /-- CANCEL_RECEIVE: A cancel receive removes a posted tagged receive. (R296) -/
  | teCancelReceive (srq : Nat) (h : TeHost)
  /-- INVALIDATION_COMPLETE: A key invalidation completes once old-generation accesses are issued. (R284) -/
  | invalidationComplete (index : Nat)
  /-- ACK_TIMEOUT: The ACK timeout expires and the requester retransmits. (R299) -/
  | ackTimeout (qp : Nat)
  /-- RNR_TIMER: The RNR wait ends and the requester retries. (R299) -/
  | rnrTimer (qp : Nat)
  /-- REORDER_TIMER: The reorder timer reaches REORDER_US and the receiver sends an MP_ACK. (R304) -/
  | reorderTimer (qp : Nat)
  /-- CC_TIMER: TIMER_US passes without a CNP and the rate recovers. (R308) -/
  | ccTimer (qp : Nat)
  /-- TE_QP_FORCE: A write forces the selected QP into ERROR. (R313) -/
  | teQpForce
  /-- TE_CC_COMMIT_GO: GO checks and requests a staged congestion profile. (R309) -/
  | teCcCommitGo
  /-- TE_UC_LOAD: LOAD starts copying and checking a microcode patch set. (R324) -/
  | teUcLoad (host : Bool)
  /-- TE_UC_LOAD_END: A patch load writes all engines or fails and clears the patch. (R324) -/
  | teUcLoadEnd (hostBytes : List Byte) (x : SrcRead)
  /-- TE_UC_SEAL: SEAL locks the control store and releases the engines. (R325) -/
  | teUcSeal
  /-- EVENT_WORD_LIMIT: An event issues 65,536 words without END, which is a microcode fault. (R318) -/
  | eventWordLimit (connection : Bool) (index : Nat)
  /-- PATCH_REPAIR: A patch RAM word is repaired from another engine's copy. (R330) -/
  | patchRepair (engine index : Nat)
  /-- NVME_DOORBELL: A host writes an NVMe submission or completion queue doorbell. (R339) -/
  | nvmeDoorbell (fn offset value : Nat)
  /-- NVME_ADMISSION: A storage engine takes a submission entry in round-robin order. (R339) -/
  | nvmeAdmission (fn : Nat) (sqe : List Byte) (e : DmaEnd)
  /-- DELETE_IO_SQ: Admin command deletes an I/O submission queue. (R338) -/
  | nvmeDeleteIoSq (cmd : Nat)
  /-- DELETE_IO_CQ: Admin command deletes an I/O completion queue. (R338) -/
  | nvmeDeleteIoCq (cmd : Nat)
  /-- CREATE_IO_SQ: Admin command creates an I/O submission queue. (R338) -/
  | nvmeCreateIoSq (cmd : Nat)
  /-- CREATE_IO_CQ: Admin command creates an I/O completion queue. (R338) -/
  | nvmeCreateIoCq (cmd : Nat)
  /-- GET_LOG_PAGE: Admin command returns a log page. (R338) -/
  | nvmeGetLogPage (cmd : Nat) (h : NveHost)
  /-- IDENTIFY: Admin command returns identify data. (R337) -/
  | nvmeIdentify (cmd : Nat) (h : NveHost)
  /-- NVME_ABORT: Admin Abort aborts a command not yet sent to the target. (R350) -/
  | nvmeAbort (cmd : Nat)
  /-- SET_FEATURES: Admin command sets a supported feature. (R339) -/
  | nvmeSetFeatures (cmd : Nat)
  /-- GET_FEATURES: Admin command returns a feature value. (R355) -/
  | nvmeGetFeatures (cmd : Nat)
  /-- ASYNCHRONOUS_EVENT_REQUEST: Admin command posts a request for an asynchronous event. (R342) -/
  | nvmeAsynchronousEventRequest (cmd : Nat)
  /-- NVME_FLUSH: I/O Flush drains the buffer and flushes the targets. (R351) -/
  | nvmeFlush (cmd : Nat)
  /-- NVME_WRITE: I/O Write is sent to the target or buffered by mode. (R352) -/
  | nvmeWrite (cmd : Nat) (h : NveHost)
  /-- NVME_READ: I/O Read is served from the buffer or the target. (R339) -/
  | nvmeRead (cmd : Nat) (ecc : EccResult) (h : NveHost)
  /-- WRITE_ZEROES: I/O Write Zeroes is sent to the target. (R338) -/
  | nvmeWriteZeroes (cmd : Nat)
  /-- DATASET_MANAGEMENT: I/O Dataset Management sends deallocate ranges to the target. (R338) -/
  | nvmeDatasetManagement (cmd : Nat) (h : NveHost)
  /-- NVE_CIPHER_COMPLETION: A cipher completion for storage data arrives at the storage engine. (R357) -/
  | nveCipherCompletion (engine : Nat)
  /-- CAPSULE_RESP: A target CapsuleResp completes a command. (R347) -/
  | nveCapsuleResp (conn : Nat)
  /-- C2H_DATA: Target C2HData is placed into host memory. (R345) -/
  | nveC2hData (conn : Nat)
  /-- PDU_R2T: A target R2T is answered with H2CData PDUs. (R345) -/
  | nvePduR2t (conn : Nat)
  /-- C2H_TERM_REQ: A received C2HTermReq fails the connection. (R346) -/
  | nveC2hTermReq (conn : Nat)
  /-- TCP_SEGMENT_RECEIVE: A TCP segment of an offloaded connection is received. (R344) -/
  | nveTcpSegmentReceive (engine : Nat)
  /-- TCP_RTO: A retransmission timer expires on an offloaded connection. (R344) -/
  | nveTcpRto (conn : Nat)
  /-- TARGET_TIMEOUT: A command outstanding beyond TIMEOUT_MS fails its connection. (R348) -/
  | nveTargetTimeout (conn : Nat)
  /-- OFFLOAD: OFFLOAD installs a connection image. (R343) -/
  | nveOffload
  /-- CONNECTION_UP: An offloaded connection reaches UP. (R343) -/
  | nveConnectionUp (conn : Nat)
  /-- CLOSE: CLOSE stops a connection, gracefully or with RST. (R343) -/
  | nveClose (force : Bool)
  /-- CLOSE_FIN: Outstanding commands have completed and FIN is sent. (R343) -/
  | nveCloseFin (conn : Nat)
  /-- QUERY: QUERY copies a live connection image into the registers. (R343) -/
  | nveQuery
  /-- CC_SHN: Shutdown notification drains the buffer and flushes the targets. (R356) -/
  | nveCcShn (fn value : Nat)
  /-- CC_EN_CLEAR: Clearing CC.EN aborts unsent commands and drains before RDY clears. (R356) -/
  | nveCcEnClear (fn value : Nat)
  /-- NVE_NS_COMMIT_GO: GO checks and requests a staged namespace mapping. (R340) -/
  | nveNsCommitGo
  /-- NVE_MODE_COMMIT_GO: GO requests a controller write mode. (R354) -/
  | nveModeCommitGo
  /-- QUEUE_ENABLE: ENABLE moves a DISABLED host queue to ENABLED. (R367) -/
  | queueEnable (queue : Nat)
  /-- QUEUE_DISABLE: DISABLE moves a queue to STOPPING. (R384) -/
  | queueDisable (queue : Nat)
  /-- QUEUE_STOPPED: All DMA of a stopping queue has ended and it becomes DISABLED. (R384) -/
  | queueStopped (queue : Nat)
  /-- HIF_DB_SQ: A send-ring doorbell advances SQ_PI. (R368) -/
  | hifDbSq (queue : Nat) (value : Word)
  /-- HIF_DB_RQ: A receive-ring doorbell advances RQ_PI. (R368) -/
  | hifDbRq (queue : Nat) (value : Word)
  /-- HIF_DB_CQ: A completion doorbell consumes entries and may arm the queue. (R381) -/
  | hifDbCq (queue : Nat) (value : Word)
  /-- SEND_FRAME_FETCH: The engine fetches a send descriptor and frame when its buffer has room. (R372) -/
  | sendFrameFetch (read : QueueRead)
  /-- DESC_SEND: A SEND descriptor's frame is offloaded and presented to the arbour. (R371) -/
  | descSend (queue : Nat)
  /-- DESC_SEND_INLINE: A SEND_INLINE descriptor's frame is offloaded and presented to the arbour. (R371) -/
  | descSendInline (queue : Nat)
  /-- SEND_CARRIER: A SEND_CARRIER descriptor injects a message to a pavilion port. (R373) -/
  | sendCarrier (queue : Nat)
  /-- DESC_NOP: A NOP descriptor sends nothing and may complete. (R370) -/
  | descNop (queue : Nat)
  /-- HIF_RECEIVE: A host queue engine checks an arriving header and places the payload. (R375) -/
  | hifReceive (engine : Nat) (descs : List Byte) (x : SrcRead)
  /-- TX_REPORT_RECEIVE: A transmit report completes a TS_REQ descriptor. (R374) -/
  | txReportReceive (engine : Nat)
  /-- TIMESTAMP_TIMEOUT: No transmit within 10 ms completes the descriptor with status 0x02. (R374) -/
  | timestampTimeout (engine tag : Nat)
  /-- MODERATION_TIMER: MOD_USEC passes and an armed queue raises its interrupt. (R381) -/
  | moderationTimer (queue : Nat)
  /-- HOST_READ: A command reads host memory through the IOMMU. (R382) -/
  | hostRead (engine : Nat) (data : List Byte) (e : DmaEnd)
  /-- HOST_WRITE: A command writes host memory through the IOMMU. (R382) -/
  | hostWrite (engine : Nat)
  /-- HOST_INTR: A command raises an MSI-X vector of a function. (R382) -/
  | hostIntr (engine : Nat)
  /-- HIF_FN_RSS_WRITE: A function writes two entries of its indirection table. (R380) -/
  | hifFnRssWrite (fn k : Nat) (value : Word)
  /-- HIF_Q_FORCE: A write forces the selected queue into ERROR. (R383) -/
  | hifQForce
  /-- FUNCTION_LEVEL_RESET: FLR takes every queue of the function to DISABLED and resets its table. (R385) -/
  | functionLevelReset (fn : Nat)
  /-- BUS_MASTER_DISABLE: Clearing Bus Master Enable puts the function's queues into ERROR. (R385) -/
  | busMasterDisable (fn : Nat)
  /-- VF_ENABLE_CLEAR: Clearing VF Enable resets the VFs' queues. (R385) -/
  | vfEnableClear (pf : Nat)
  /-- CONFIG_REQUEST: An inbound configuration request is completed or answered with RRS. (R404) -/
  | configRequest (route : TlpRoute) (offset : Nat) (write : Bool) (be value : Nat)
  /-- MEMORY_READ_REQUEST: An inbound memory read is completed or refused. (R404) -/
  | memoryReadRequest (fn bar offset len tag : Nat) (stream : Option Nat) (good : Bool) (ecc : EccResult)
  /-- POSTED_WRITE_REQUEST: An inbound posted write is applied or dropped. (R404) -/
  | postedWriteRequest (fn bar offset : Nat) (data : List Byte) (poison : Bool) (stream : Option Nat) (good : Bool) (env : CsrEnv) (answer : TeHost)
  /-- INBOUND_COMPLETION: An arriving completion is delivered or discarded as unexpected. (R415) -/
  | inboundCompletion (port link tag : Nat) (route : TlpRoute) (ok poison : Bool) (data : List Byte)
  /-- COMPLETION_TIMEOUT: A request's completion timeout fires and its tag is quarantined. (R414) -/
  | completionTimeout (port tag : Nat)
  /-- TAG_QUARANTINE_END: A quarantined tag is freed. (R414) -/
  | tagQuarantineEnd (port tag : Nat)
  /-- PCIE_LINK_DOWN: A link goes down or is reset and its outstanding requests fail. (R417) -/
  | pcieLinkDown (port link : Nat)
  /-- PCIE_LINK_UP: A PCIe link completes training. (R392) -/
  | pcieLinkUp (port link rate width : Nat) (mode : LinkMode)
  /-- L1_IDLE_ENTRY: Link idleness reaches L1_IDLE_US and the device initiates L1. (R418) -/
  | l1IdleEntry (port link : Nat)
  /-- L0P_WINDOW: A utilisation window ends and L0p width is requested. (R419) -/
  | l0pWindow (port link tx rx cap : Nat) (grant : Bool)
  /-- ATS_INVALIDATION_REQUEST: An ATS invalidation completes after issued TLPs are sent. (R412) -/
  | atsInvalidationRequest (route : TlpRoute) (range : AtsRange)
  /-- HIF_ATW_COMMIT_GO: GO checks a PF's staged windows. (R411) -/
  | hifAtwCommitGo (pf : Nat)
  /-- ATW_APPLY: The staged window set becomes live at the next TLP or after 100 ns. (R411) -/
  | atwApply (pf : Nat)
  /-- DOE_DISCOVERY: The DOE mailbox answers a discovery request. (R420) -/
  | doeDiscovery (pf index : Nat)
  /-- IDE_KM_REQUEST: An IDE_KM message programs stream keys in a secured session. (R420) -/
  | ideKmRequest (pf session : Nat) (message : List Byte)
  /-- SPDM_GET_VERSION: SPDM GET_VERSION is answered. (R535) -/
  | spdmGetVersion (pf : Nat) (request : SpdmReq)
  /-- SPDM_GET_CAPABILITIES: SPDM GET_CAPABILITIES is answered. (R535) -/
  | spdmGetCapabilities (pf : Nat) (request : SpdmReq)
  /-- NEGOTIATE_ALGORITHMS: SPDM NEGOTIATE_ALGORITHMS is answered. (R535) -/
  | spdmNegotiateAlgorithms (pf : Nat) (request : SpdmReq)
  /-- GET_DIGESTS: SPDM GET_DIGESTS is answered. (R535) -/
  | spdmGetDigests (pf : Nat) (request : SpdmReq)
  /-- GET_CERTIFICATE: SPDM GET_CERTIFICATE returns a certificate chain. (R535) -/
  | spdmGetCertificate (pf : Nat) (request : SpdmReq)
  /-- CHALLENGE: SPDM CHALLENGE is answered with a signature. (R535) -/
  | spdmChallenge (pf : Nat) (request : SpdmReq)
  /-- GET_MEASUREMENTS: SPDM GET_MEASUREMENTS returns the measurement blocks. (R536) -/
  | spdmGetMeasurements (pf : Nat) (request : SpdmReq)
  /-- KEY_EXCHANGE: SPDM KEY_EXCHANGE starts a secured session. (R535) -/
  | spdmKeyExchange (pf : Nat) (request : SpdmReq)
  /-- FINISH: SPDM FINISH completes session establishment. (R535) -/
  | spdmFinish (pf : Nat) (request : SpdmReq)
  /-- HEARTBEAT: SPDM HEARTBEAT keeps a session alive. (R535) -/
  | spdmHeartbeat (pf : Nat) (request : SpdmReq)
  /-- KEY_UPDATE: SPDM KEY_UPDATE updates session keys. (R535) -/
  | spdmKeyUpdate (pf : Nat) (request : SpdmReq)
  /-- END_SESSION: SPDM END_SESSION ends a session. (R535) -/
  | spdmEndSession (pf : Nat) (request : SpdmReq)
  /-- VENDOR_MLDSA_SIGNATURE: The vendor request returns an ML-DSA signature over the measurement transcript. (R535) -/
  | spdmVendorMldsaSignature (pf : Nat) (request : SpdmReq)
  /-- TDISP_GET_VERSION: TDISP GET_VERSION is answered. (R421) -/
  | tdispGetVersion (pf session fn version : Nat)
  /-- TDISP_GET_CAPABILITIES: TDISP GET_CAPABILITIES is answered. (R421) -/
  | tdispGetCapabilities (pf session fn version : Nat)
  /-- LOCK_INTERFACE: TDISP LOCK_INTERFACE moves a TDI to CONFIG_LOCKED. (R421) -/
  | tdispLockInterface (pf session fn version : Nat) (payload : List Byte)
  /-- GET_DEVICE_INTERFACE_REPORT: TDISP returns the interface report. (R421) -/
  | tdispGetDeviceInterfaceReport (pf session fn version : Nat) (payload : List Byte)
  /-- GET_DEVICE_INTERFACE_STATE: TDISP returns the TDI state. (R421) -/
  | tdispGetDeviceInterfaceState (pf session fn version : Nat)
  /-- START_INTERFACE: TDISP START_INTERFACE moves a TDI to RUN. (R421) -/
  | tdispStartInterface (pf session fn version : Nat) (payload : List Byte)
  /-- STOP_INTERFACE: TDISP STOP_INTERFACE stops a TDI and leaves ERROR. (R422) -/
  | tdispStopInterface (pf session fn version : Nat)
  /-- BW_GO: A host push GO starts verification of the image store. (R517) -/
  | bwGo (port : Nat)
  /-- PUSH_VERIFY_END: Verification of a pushed image ends, continuing the boot or staying in HOST_WAIT. (R517) -/
  | pushVerifyEnd
  /-- RING_ENABLE: Writing EN enables a terrace ring and zeroes its indices. (R442) -/
  | ringEnable (terrace ring : Nat) (send : Bool) (value : Word)
  /-- TERRACE_RECEIVE: A terrace writes an arriving header into a receive ring slot. (R443) -/
  | terraceReceive (terrace : Nat)
  /-- TERRACE_SEND: A terrace injects slots of a send ring after its PI advances. (R444) -/
  | terraceSend (terrace ring : Nat) (ecc : EccResult)
  /-- PATROL_SCRUB: The patrol scrubber reads and corrects memory locations. (R439) -/
  | patrolScrub (addr : Nat) (ecc : EccResult)
  /-- ZERO_MAP_CLEAR: The background engine writes zeros to a marked granule. (R440) -/
  | zeroMapClear (granule : Nat)
  /-- IOFENCE_C: An IOMMU fence completes after prior translations are issued. (R446) -/
  | iofenceC
  /-- TB_REF_SELECT: A write of REF_SEL moves the time PLL to a reference. (R452) -/
  | tbRefSelect (ref : Nat) (present : Bool)
  /-- TIME_REF_LOST: TIME_REF_IN loses two edges and the PLL moves to NET_REFCLK. (R452) -/
  | timeRefLost
  /-- PLL_LOCK_LOSS: The time PLL loses lock. (R452) -/
  | pllLockLoss
  /-- TB_RATE_ONLY: Adjustment NONE changes only the rate at the boundary. (R457) -/
  | tbRateOnly
  /-- TB_SET: Adjustment SET sets a timebase value at the boundary. (R457) -/
  | tbSet
  /-- TB_STEP: Adjustment STEP adds an offset to a timebase at the boundary. (R457) -/
  | tbStep
  /-- TB_SLEW: Adjustment SLEW runs a timebase faster or slower until the offset is added. (R457) -/
  | tbSlew
  /-- TB_ADJUST_BOUNDARY: The staged adjustment applies when the timebase reaches its target instant. (R457) -/
  | tbAdjustBoundary
  /-- SLEW_END: A slew has added its whole offset. (R457) -/
  | slewEnd (timebase : Nat)
  /-- TB_SNAPSHOT: A snapshot captures all timebases and the time counter. (R459) -/
  | tbSnapshot
  /-- PPS_IN_EDGE: A PPS_IN rising edge is captured in all timebases. (R467) -/
  | ppsInEdge
  /-- PPS_OUT_EDGE: PPS_OUT rises at the configured instant. (R468) -/
  | ppsOutEdge
  /-- PPS_OUT_WIDTH_END: PPS_OUT falls after WIDTH_US. (R468) -/
  | ppsOutWidthEnd
  /-- TB_PORT_CFG_WRITE: A write assigns a port timebase unless a gate list is in use. (R463) -/
  | tbPortCfgWrite (port : Nat) (value : Word)
  /-- TILE_HAZE_ENTRY: An idle tile enters Haze after HAZE_IDLE. (R479) -/
  | tileHazeEntry (tile : Nat)
  /-- TILE_SLEEP_DECISION: The lodge puts idle tiles into Overcast or Night. (R479) -/
  | tileSleepDecision (tile sky : Nat)
  /-- TILE_WAKE_COMPLETE: A waking tile reaches Clear and its held work proceeds. (R480) -/
  | tileWakeComplete (tile : Nat)
  /-- HART_WFI: A hart in WFI enters Haze or Overcast after its idle time. (R482) -/
  | hartWfi (hart sky : Nat)
  /-- HART_START: START powers a hart in Night and starts it at PWR_HART_ENTRY. (R482) -/
  | hartStart (hart : Nat)
  /-- HART_STOP: STOP writes back a WFI hart's caches and puts it into Night. (R482) -/
  | hartStop (hart : Nat)
  /-- NIGHT_ENTER: ENTER starts device Night entry. (R483) -/
  | nightEnter
  /-- NIGHT_DRAIN_END: Unload and drain end and Night entry continues. (R483) -/
  | nightDrainEnd
  /-- NIGHT_LIMIT_EXPIRY: Drain has not ended within PWR_NIGHT_LIMIT and entry is abandoned. (R483) -/
  | nightLimitExpiry
  /-- NIGHT_ENTRY_COMPLETE: Every tile is in Night and only the lodge runs. (R483) -/
  | nightEntryComplete
  /-- NIGHT_ALARM: TB0 reaches the alarm and a WARM wake starts. (R484) -/
  | nightAlarm
  /-- PERST_ASSERT: PERST falls, resetting the port's links or waking from Night. (R417) -/
  | perstAssert (port : Nat)
  /-- PERST_DEASSERT: PERST rises and the port's link training may begin. (R505) -/
  | perstDeassert (port : Nat)
  /-- SYS_RST_ASSERT: SYS_RST_N falls for at least 1 µs. (R571) -/
  | sysRstAssert
  /-- SYS_RST_DEASSERT: SYS_RST_N rises, straps are sampled and a full boot starts. (R503) -/
  | sysRstDeassert (bif0 bif1 bootSrc : Nat) (healthy : Bool)
  /-- LODGE_PG_FALL: LODGE_PG falls and resets the whole device. (R571) -/
  | lodgePgFall
  /-- LODGE_PG_RISE: LODGE_PG rises, keys are derived and a full boot follows. (R503) -/
  | lodgePgRise (healthy : Bool)
  /-- SUPPLY_WARNING: A rail falls below its warning threshold and its tiles enter Hold. (R486) -/
  | supplyWarning (domain : Nat) (sent : List Nat)
  /-- HOLD_DWELL_END: The rail has stayed above recovery for 2 µs and the quick check starts. (R488) -/
  | holdDwellEnd (domain : Nat)
  /-- QUICK_CHECK_END: The quick check passes and clocks restart, or fails into a controlled reset. (R488) -/
  | quickCheckEnd (domain : Nat) (readings : List (Option (Nat × Nat × Nat)))
  /-- HOLD_LIMIT_EXPIRY: Hold lasts 1 ms without recovery and a controlled reset follows. (R489) -/
  | holdLimitExpiry (domain : Nat)
  /-- UNDERVOLTAGE: A rail below 0.50 V resets every domain but the lodge at once. (R491) -/
  | undervoltage (domain : Nat)
  /-- TEMPERATURE_SAMPLE: The lodge reads the junction sensors and reports a crossing of WARN_C. (R492) -/
  | temperatureSample (readings : List Nat)
  /-- THERMAL_TRIP: A reading of 115 °C asserts THERMTRIP_N and removes power. (R493) -/
  | thermalTrip
  /-- THERMAL_RESTART: Readings stay at or below 100 °C for 1 s and the device boots. (R493) -/
  | thermalRestart
  /-- SUNDIAL_SAMPLE: The lodge samples every sundial sensor. (R494) -/
  | sundialSample (readings : List (Option (Nat × Nat × Nat)))
  /-- PWR_OP_COMMIT_GO: GO starts qualification of a new operating point. (R495) -/
  | pwrOpCommitGo
  /-- QUALIFY_STEP_END: A qualification step settles and its quick check runs. (R495) -/
  | qualifyStepEnd (readings : List (Option (Nat × Nat × Nat)))
  /-- RAIL_SETTLE_TIMEOUT: A rail has not settled within 500 µs. (R495) -/
  | railSettleTimeout
  /-- OPERATING_HOUR: An operating hour passes and a re-plan may fall due or overdue. (R497) -/
  | operatingHour
  /-- SDL_REPLAN_DONE: A write marks the re-plan done and sets the next due hour. (R497) -/
  | sdlReplanDone
  /-- REPLAN_INTERVAL_WRITE: A write of INTERVAL_H moves the due hour. (R497) -/
  | replanIntervalWrite (value : Nat)
  /-- ROM_START: All harts leave reset in the boot ROM and hart 0 starts the ROM stage. (R506) -/
  | romStart
  /-- DDR_TRAINING_END: DDR training ends and HBM marking starts. (R509) -/
  | ddrTrainingEnd (sizes failed : List Nat)
  /-- HBM_INIT_END: HBM is initialised and marked and image selection begins. (R509) -/
  | hbmInitEnd
  /-- IMAGE_COPY_END: An image has been copied and digested into the image store. (R511) -/
  | imageCopyEnd (readable : Bool)
  /-- SIGNATURE_VERIFY_END: An image verifies or fails, trying the next candidate or entering HOST_WAIT. (R514) -/
  | signatureVerifyEnd
  /-- WARM_CHECK_END: WARM checks of the retained image and plan end. (R523) -/
  | warmCheckEnd
  /-- READY: READY ends bring-up refusal when its conditions hold. (R519) -/
  | ready
  /-- FAIL_IMAGE: FAIL_IMAGE excludes the image in force and restarts phase 1. (R521) -/
  | failImage
  /-- VERIFY_SLOT: VERIFY_SLOT starts checking a flash slot. (R515) -/
  | verifySlot (slot : Nat)
  /-- VERIFY_SLOT_END: VERIFY_SLOT reports its result. (R515) -/
  | verifySlotEnd (readable : Bool)
  /-- RESTORE_PLAN: RESTORE_PLAN applies the warm plan copy through APPLY. (R523) -/
  | restorePlan
  /-- BOOT_STAGE2_LIMIT_EXPIRY: The stage-2 limit expires and the image is failed. (R520) -/
  | bootStage2LimitExpiry
  /-- XSPI_READ: A flash READ copies flash bytes to memory. (R527) -/
  | xspiRead
  /-- XSPI_PROGRAM: A flash PROGRAM clears flash bits from memory. (R527) -/
  | xspiProgram
  /-- XSPI_ERASE: A flash ERASE erases whole 64 KiB blocks. (R527) -/
  | xspiErase
  /-- XSPI_CMD_END: A flash command completes. (R527) -/
  | xspiCmdEnd (readable : Bool) (ecc : EccResult)
  /-- WKT_CHAL_GEN: GEN draws a new 48-byte challenge. (R541) -/
  | wktChalGen
  /-- CHALLENGE_EXPIRY: A challenge expires after 10 s. (R541) -/
  | challengeExpiry
  /-- WKT_TOKEN_SUBMIT: SUBMIT reads a token and starts its checks. (R541) -/
  | wktTokenSubmit (host : Bool) (hostBytes : List Byte) (x : SrcRead)
  /-- TOKEN_CHECK_END: Token checks end, passing an UNLOCK or REVOKE or reporting a condition. (R541) -/
  | tokenCheckEnd
  /-- WICKET_ERASURE: After any site load ends, erasure of tenant state begins. (R542) -/
  | wicketErasure
  /-- WICKET_OPEN_COMPLETE: Erasure ends, the root key is latched, the lifecycle is Open and debug connects. (R542) -/
  | wicketOpenComplete
  /-- RAISE: RAISE programs the next anti-rollback floor entry. (R532) -/
  | raise (kind : Nat)
  /-- EXTEST: TAP EXTEST drives boundary-scan outputs. (R543) -/
  | tapExtest (sampled shifted : List Byte)
  /-- IDCODE: TAP IDCODE selects the identification register. (R543) -/
  | tapIdcode
  /-- SAMPLE_PRELOAD: TAP SAMPLE/PRELOAD samples or loads the boundary register. (R543) -/
  | tapSamplePreload (sampled shifted : List Byte)
  /-- CLAMP: TAP CLAMP holds outputs and selects bypass. (R543) -/
  | tapClamp
  /-- HIGHZ: TAP HIGHZ puts outputs in high impedance. (R543) -/
  | tapHighz
  /-- DTMCS: TAP DTMCS reaches the debug transport control. (R543) -/
  | tapDtmcs
  /-- DMI: TAP DMI reaches the Debug Module, inert while Closed. (R543) -/
  | tapDmi (op addr : Nat) (x : DmiData)
  /-- WKT_CHAL: TAP WKT_CHAL captures a new challenge. (R541) -/
  | tapWktChal
  /-- WKT_TOKEN: TAP WKT_TOKEN shifts in and submits a token. (R541) -/
  | tapWktToken (token : List Byte)
  /-- WKT_STATUS: TAP WKT_STATUS captures token status and lifecycle. (R543) -/
  | tapWktStatus
  /-- BYPASS: TAP BYPASS selects the bypass register. (R543) -/
  | tapBypass
  /-- COMPLETION_LOST: A command's timer expires and the issuer delivers itself a 0xF3 completion. (R553) -/
  | completionLost (ep : Nat) (cmd : List Word)
  /-- CRITICAL_STATE_RESTORE: A bad copy of critical state is restored from the other copy. (R550) -/
  | criticalStateRestore (tile : Nat) (both : Bool)
  /-- CC_EN_SET: The host sets CC.EN in an NVMe controller's registers, and the controller becomes ready with CSTS.RDY set. (R336) -/
  | ccEnSet (fn value : Nat)
  /-- TIME_PLL_LOCK: The time PLL regains lock and PLL_LOCK returns to 1, so the precision figures bind again. (R452) -/
  | timePllLock
  /-- LANE_LOCK_ALIGNMENT: A port without link training, such as a DR port, regains signal, lock and alignment on its lanes, and lane measurement begins before UP rises. (R245) -/
  | laneLockAlignment (port : Nat)
  /-- ATOMICOP_IO_REQUEST: An inbound AtomicOp or I/O request TLP is answered with UR and recorded as FC 0x180E. (R404) -/
  | atomicopIoRequest (route : TlpRoute) (tag : Nat)
  /-- PCIE_MESSAGE: An inbound PCIe message is handled as the Base Specification states, and a Type 1 vendor-defined message is discarded silently. (R404) -/
  | pcieMessage (route : TlpRoute) (code data : Nat)
  /-- L0P_HOST_REQUEST: The host requests an L0p width change on a FLIT-mode link, and the device honours it. (R419) -/
  | l0pHostRequest (port link width : Nat)
  /-- RBG_HEALTH_PASS: After a health-test failure, the random bit generator passes its test, the epoch is drawn, and the waiting start continues. (R530) -/
  | rbgHealthPass
  deriving DecidableEq, Repr

end Sys2Proof
end

