-- ==== Sys2Proof/Config.lean ====
section
/-! DEFINITION. What an implementation fixes, what the spec takes from other standards, and the free
values: opaque constants, of which no proof can see a value. -/

namespace Sys2Proof.Config

/-- The free values: value number `n` that the spec leaves open. `State.free` counts them. -/
opaque freeValue : Nat → Word

/-- SHA-384 (FIPS 180-4, by reference: R39). -/
opaque sha384 : List Byte → List Byte

/-- ECDSA P-384 with SHA-384 (FIPS 186-5): does the signature verify over the message, against the
public key with this digest (R40)? -/
opaque ecdsaVerify (keyDigest msg sig : List Byte) : Bool

/-- ML-DSA-87, pure form, empty context (FIPS 204): does the signature verify (R40)? -/
opaque mldsaVerify (keyDigest msg sig : List Byte) : Bool

/-- The digests fused in the key banks (R531): kind 0 SITE, 1 BOOT, 2 DEBUG, 3 UCODE; bank 0 to 3; of the
ECDSA key, or of the ML-DSA key where `pq`. -/
opaque fusedDigest (kind bank : Nat) (pq : Bool) : List Byte

/-- The fused microcode patch key (R322, R531). -/
opaque patchKey : List Byte

/-- The SECDED check bits of a flit (Table 3-1), 10 for each 256-bit segment, over its 128 bytes and the other
sideband fields as one number; the spec gives their widths and not the code. -/
opaque flitEcc (bytes : List Byte) (sideband : Nat) : BitVec 40

/-- The bytes of a host engine's fetch buffer beyond one frame of the greatest size: the spec requires a fetch buffer
(R19) and does not give its size. -/
opaque fetchBuffer (engine : Nat) : Nat

/-- The microword at a ROM address, and the ROM's default of a dispatch entry: the ROM's contents are not part of the
manual (R316, R317, R319). -/
opaque ucRom (addr : Nat) : Nat
opaque ucDispatch (table index : Nat) : Nat

/-- Do the configuration words of frame `i` stay inside their member and the group's fence? Their
layout is given elsewhere (R101). -/
opaque pavConfigOk (member groupFirst sizeLog2 : Nat) (words : List Byte) : Bool

/-- What the configuration words of a pavilion give its LUT cells, its flip-flops and its block RAM (R101, R123): their
layout is given elsewhere. -/
opaque pavLuts (words : List Byte) : List (Nat × Word)
opaque pavFlipFlops (words : List Byte) : List (Nat × Word)
opaque pavBlockRam (words : List Byte) : List (Nat × Word)

/-- What tenant logic has made of a storage element of a pavilion (0 flip-flops, 1 DSP registers, 2 block RAM). -/
opaque pavLogic (kind member : Nat) (v : Word) : List (Nat × Word)

/-- HKDF-SHA-384 with a zero salt over the device root key (R529). -/
opaque rootHkdf (info : List Byte) : List Byte

/-- HKDF-SHA-384 with a zero salt over the input, for the info shown (R537). -/
opaque hkdf (input info : List Byte) : List Byte

/-- The secret that the device's ML-KEM-1024 decapsulation key recovers from a ciphertext (R99). -/
opaque kemSecret (ct : List Byte) : List Byte

/-- The secret that the device's ECDH P-384 private key forms with a public point; none where the
point is not valid (R99). -/
opaque ecdhSecret (pub : List Byte) : Option (List Byte)

/-- The key stream of an authenticated cipher (AES-GCM or ChaCha20, by the key-slot `MODE`) for a key
and a nonce (Table 10-5 and its standards by reference). -/
opaque aeadStream (mode : Nat) (key nonce : List Byte) : List Byte

/-- The tag of an authenticated cipher over additional data and ciphertext. -/
opaque aeadTag (mode : Nat) (key nonce aad ct : List Byte) : List Byte

/-- AES-XTS over one data unit (IEEE 1619), with its tweak. -/
opaque xtsEncrypt (key tweak text : List Byte) : List Byte
opaque xtsDecrypt (key tweak text : List Byte) : List Byte

/-- What the Debug Module and its transport report of their own make-up where the External Debug Support
specification leaves it to the implementation: DMI register by address, and the ABITS and IDLE fields of
DTMCS under number 0x1000 (R543); and what a hart's read-only CSR `n` says of its make-up, under 0x2000 + `n` (R428). -/
opaque debugInfo : Nat → Word

/-- A signature by the alias key of attestation (ECDSA P-384, or ML-DSA-87 where `pq`); `seed` is what the
key was derived or drawn from (R533, R544). -/
opaque aliasSign (pq : Bool) (seed msg : List Byte) : List Byte

/-- The certificate chain of slot 0, or of slot 1 where `pq`, in the SPDM chain format: for an alias key, and in
Open for an open attestation key (R535, R544). -/
opaque certChain (pq : Bool) (seed openSeed : List Byte) : List Byte

/-- ROM version and SHA-384 of the boot ROM (Table 20-2, block 1). -/
opaque romMeasure : List Byte

/-- The public keys of pavilion streams (Table 20-2, block 8). -/
opaque pavPublicKeys : List Byte

/-- Does the requester's FINISH verify against the transcript of its session (SPDM 1.3)? -/
opaque spdmFinishOk (transcript msg : List Byte) : Bool

/-- The responder's verification data of KEY_EXCHANGE_RSP (SPDM 1.3). -/
opaque spdmVerifyData (transcript : List Byte) : List Byte

end Sys2Proof.Config
end

