-- ==== Sys2Proof/Machine/Bits.lean ====
section
/-! DEFINITION. Bit fields, byte order and sign extension (R6). -/

namespace Sys2Proof.Machine

/-- Bits `hi` to `lo` of a word, as a number. -/
def bitsAt (w : Word) (hi lo : Nat) : Nat := (w.toNat / 2 ^ lo) % 2 ^ (hi + 1 - lo)

/-- A word with bits `hi` to `lo` set to `v` (taken modulo the width). -/
def setBits (w : Word) (hi lo v : Nat) : Word :=
  BitVec.ofNat 64 (w.toNat - bitsAt w hi lo * 2 ^ lo + (v % 2 ^ (hi + 1 - lo)) * 2 ^ lo)

/-- Bit `i` of a word. -/
def bitAt (w : Word) (i : Nat) : Bool := w.getLsbD i

/-- A word with bit `i` set to `b`. -/
def setBit (w : Word) (i : Nat) (b : Bool) : Word := setBits w i i (if b then 1 else 0)

/-- The bits `hi` to `lo` of a number. -/
def natBits (n hi lo : Nat) : Nat := (n / 2 ^ lo) % 2 ^ (hi + 1 - lo)

/-- Bytes read as a little-endian number. -/
def leNat : List Byte → Nat
  | [] => 0
  | b :: t => b.toNat + 256 * leNat t

/-- Bytes read as a big-endian number (network order). -/
def beNat (l : List Byte) : Nat := leNat l.reverse

/-- The low `n` bytes of a number, least significant first. -/
def natLE : Nat → Nat → List Byte
  | 0, _ => []
  | n + 1, v => BitVec.ofNat 8 (v % 256) :: natLE n (v / 256)

/-- The low `n` bytes of a number, most significant first. -/
def natBE (n v : Nat) : List Byte := (natLE n v).reverse

/-- `n` bytes from offset `o`; bytes beyond the end read as zero. -/
def bytesAt (l : List Byte) (o n : Nat) : List Byte :=
  let t := (l.drop o).take n
  t ++ List.replicate (n - t.length) 0

/-- The little-endian number of `n` bytes at offset `o`. -/
def leAt (l : List Byte) (o n : Nat) : Nat := leNat (bytesAt l o n)

/-- The network-order number of `n` bytes at offset `o`. -/
def beAt (l : List Byte) (o n : Nat) : Nat := beNat (bytesAt l o n)

/-- The bytes `l` with `new` written at offset `o` (bytes past the end are dropped). -/
def bytesPut (l : List Byte) (o : Nat) (new : List Byte) : List Byte :=
  (l.take o ++ new ++ l.drop (o + new.length)).take l.length

/-- A number of `n` bits read as two's complement. -/
def signedOf (n v : Nat) : Int :=
  let m := v % 2 ^ n
  if m < 2 ^ (n - 1) then (m : Int) else (m : Int) - 2 ^ n

/-- An integer as an unsigned number of `n` bits. -/
def unsignedOf (n : Nat) (v : Int) : Nat := (v % 2 ^ n).toNat

/-- The number rounded up to the next multiple of `a`. -/
def roundUp (v a : Nat) : Nat := (v + a - 1) / a * a

/-- Increment of a counter that stops at `top`. -/
def satInc (top v : Nat) : Nat := if v < top then v + 1 else top

/-- The list with element `i` replaced. -/
def listSet {α : Type} (l : List α) (i : Nat) (v : α) : List α := l.set i v

/-- One input byte of the raw CRC32C (R168). -/
def crcByte (c : BitVec 32) (b : Byte) : BitVec 32 :=
  (List.range 8).foldl (fun (c : BitVec 32) _ => if c.getLsbD 0 then (c >>> 1) ^^^ 0x82F63B78#32 else c >>> 1)
    (c ^^^ b.zeroExtend 32)
def crc32c (st : Word) (l : List Byte) : Word := (l.foldl crcByte (st.truncate 32)).zeroExtend 64

/-- The standard CRC32C of a byte string (R168, R203). -/
def crc32cStd (l : List Byte) : Nat := 2 ^ 32 - 1 - (crc32c 0xFFFFFFFF l).toNat

/-- The Toeplitz hash of a byte string under a 40-byte key (R203). -/
def toeplitzHash (key x : List Byte) : Nat :=
  (List.range (8 * x.length)).foldl (fun h i =>
    if (beNat x).testBit (8 * x.length - 1 - i) then h ^^^ (beNat key / 2 ^ (288 - i) % 2 ^ 32) else h) 0

end Sys2Proof.Machine
end

