-- ==== Sys2Proof/Machine/PlanTypes.lean ====
section
/-! DEFINITION. The site plan as data: a section of a plan (R37), the fields of a container (Tables
2-1 and 2-3) and a condition found in one. -/

namespace Sys2Proof.Machine

/-- One section of a plan (Table 2-2): type, instance, layout version, the RETIRE bit and the body. -/
structure Section where
  type : Nat
  inst : Nat
  layoutVer : Nat
  retire : Bool
  header : List Byte
  body : List Byte
  deriving DecidableEq, Repr

/-- The plan header and the trailer of a container (Tables 2-1, 2-3). -/
structure PlanInfo where
  kind : Nat
  seq : Nat
  arb : Nat
  count : Nat
  totalLen : Nat
  baseDigest : List Byte
  chainTail : List Byte
  ecKeyId : List Byte
  mldsaKeyId : List Byte
  ecSig : List Byte
  mldsaSig : List Byte
  signed : List Byte
  deriving DecidableEq, Repr

/-- A condition of Table 2-8 with the place `SITE_ERR_FIRST` reports (Table 2-14). -/
structure PlanErr where
  cond : Nat
  type : Nat
  inst : Nat
  offset : Nat
  deriving DecidableEq, Repr

end Sys2Proof.Machine
end

