-- ==== Sys2Proof/Machine/Plan.lean ====
section
/-! DEFINITION. The site plan: where a section's records and fields lie, what each layout marks zero
and which values it encodes (R38, R44, R45 and the layout tables of the unit chapters), the checks
across sections (R46, R578 and the chapters' own), and which elements differ (R51). -/

namespace Sys2Proof.Machine

abbrev secPortLayout : Nat := 0x01
abbrev secPrmEndpoints : Nat := 0x02
abbrev secPrmShares : Nat := 0x03
abbrev secMemPartition : Nat := 0x04
abbrev secHbmShares : Nat := 0x05
abbrev secFunctions : Nat := 0x06
abbrev secArbImage : Nat := 0x07
abbrev secArbMap : Nat := 0x08
abbrev secPavGroups : Nat := 0x09
abbrev secAcmBanks : Nat := 0x0A
abbrev secEmtGeometry : Nat := 0x0B
abbrev secSchTree : Nat := 0x0C
abbrev secCphAlloc : Nat := 0x0D
abbrev secTeAlloc : Nat := 0x0E
abbrev secNveAlloc : Nat := 0x0F
abbrev secPwrPolicy : Nat := 0x10
abbrev secAnnotation : Nat := 0x20

/-- A plan: its sections in the order of R38. -/
abbrev Plan := List Section

def findSec (p : Plan) (ty inst : Nat) : Option Section :=
  p.find? fun s => s.type == ty && s.inst == inst

/-- The body of a section, empty where the plan has none. -/
def secBody (p : Plan) (ty inst : Nat) : List Byte :=
  match findSec p ty inst with
  | some s => s.body
  | none => []

/-- The `n`-byte little-endian number at byte `o` of a section's body. -/
def secLE (p : Plan) (ty inst o n : Nat) : Nat := leAt (secBody p ty inst) o n

/-- Byte `o` of a section's body. -/
def secByte (p : Plan) (ty inst o : Nat) : Nat := secLE p ty inst o 1

/-- The instances that Table 2-4 gives a type; none for an unknown type. -/
def secInstances (ty : Nat) : Nat :=
  if ty = secFunctions then 4
  else if ty = secArbImage then 20
  else if ty = secSchTree then 16
  else if ty = secAnnotation then 256
  else if 1 ≤ ty ∧ ty ≤ 0x10 then 1
  else 0

/-- Record size and record count of the types whose body is one table of records. -/
def secRecords (ty : Nat) : Option (Nat × Nat) :=
  if ty = secPortLayout then some (16, 16)
  else if ty = secPrmEndpoints then some (24, 512)
  else if ty = secPrmShares then some (16, 1024)
  else if ty = secMemPartition then some (16, 16384)
  else if ty = secHbmShares then some (16, 1)
  else if ty = secArbMap then some (32, 20)
  else if ty = secPavGroups then some (32, 64)
  else if ty = secEmtGeometry then some (32, 64)
  else if ty = secSchTree then some (4, 4096)
  else if ty = secCphAlloc then some (16, 256)
  else if ty = secNveAlloc then some (16, 4096)
  else if ty = secPwrPolicy then some (8, 1024)
  else none

/-- The body length that a type's layout gives (R38); `none` where any length is allowed. -/
def secLayoutLen (ty : Nat) (body : List Byte) : Option Nat :=
  match secRecords ty with
  | some (sz, n) => some (sz * n)
  | none =>
    if ty = secFunctions then some 16448
    else if ty = secAcmBanks then some 3072
    else if ty = secTeAlloc then some 131328
    else if ty = secArbImage then some (256 + 8 * leAt body 0 4 + leAt body 4 4)
    else none

/-- Where byte `o` of a body lies: start of the record, size of the record, and record number, the
parts of a body of several tables numbered on from one another. -/
def recordOf (ty o : Nat) : Nat × Nat × Nat :=
  match secRecords ty with
  | some (sz, _) => (o / sz * sz, sz, o / sz)
  | none =>
    if ty = secFunctions then
      if o < 64 then (0, 64, 0) else (64 + (o - 64) / 16 * 16, 16, 1 + (o - 64) / 16)
    else if ty = secAcmBanks then (o / 8 * 8, 8, o / 8)
    else if ty = secTeAlloc then
      if o < 256 then (o / 16 * 16, 16, o / 16) else (256 + (o - 256) / 32 * 32, 32, 16 + (o - 256) / 32)
    else (0, o + 1, 0)

/-- The destination class of an endpoint ID (Table 3-3); `none` where the ID names no endpoint. -/
def epClass (e : Nat) : Option Nat :=
  if e ≤ 0x000F then some 0
  else if 0x0010 ≤ e ∧ e ≤ 0x0013 then some 1
  else if 0x0020 ≤ e ∧ e ≤ 0x003F then some 2
  else if 0x0040 ≤ e ∧ e ≤ 0x004F then some 3
  else if 0x0050 ≤ e ∧ e ≤ 0x0057 then some 4
  else if 0x0060 ≤ e ∧ e ≤ 0x0067 then some 5
  else if 0x0080 ≤ e ∧ e ≤ 0x00FF then some 6
  else if 0x0100 ≤ e ∧ e ≤ 0x019F then some 7
  else if e = 0x01A0 then some 8
  else if e = 0x01A1 then some 9
  else if 0x01B0 ≤ e ∧ e ≤ 0x01BF then some 10
  else if e = 0x01C0 then some 11
  else none

/-- The tile that holds an endpoint (Table 18-2, R476). -/
def epTile (e : Nat) : Nat :=
  if e ≤ 0x000F then 813 + e
  else if e ≤ 0x0013 then 404 + (e - 0x10)
  else if e ≤ 0x003F then 348 + (e - 0x20)
  else if e ≤ 0x004F then 380 + (e - 0x40)
  else if e ≤ 0x0057 then 396 + (e - 0x50)
  else if e ≤ 0x0067 then 276 + (e - 0x60)
  else if e ≤ 0x00FF then 284 + (e - 0x80) / 2
  else if e ≤ 0x019F then e - 0x100
  else if e = 0x01A0 then 426
  else if e = 0x01A1 then 427
  else if e ≤ 0x01BF then 410 + (e - 0x1B0)
  else 556

/-- The sky states below Clear that Table 18-2 lists for a tile: bit 0 Haze, 1 Overcast, 2 Night. -/
def tileAllows (t : Nat) : Nat :=
  if t ≤ 159 then 3
  else if t ≤ 179 then 1
  else if t ≤ 275 then 7
  else if t ≤ 283 then 3
  else if t ≤ 347 then 7
  else if t ≤ 409 then 3
  else if t ≤ 425 then 7
  else if t = 426 then 1
  else if t = 427 then 3
  else if t ≤ 555 then 7
  else if t = 556 then 3
  else if t ≤ 812 then 1
  else if t ≤ 828 then 4
  else if t ≤ 833 then 0
  else if t ≤ 837 then 4
  else 0

/-- Does the mesh have a link that leaves station `s` in direction `d` (R63, R71)? -/
def linkExists (s d : Nat) : Bool :=
  if d = 0 then decide (s % 16 < 15)
  else if d = 1 then decide (0 < s % 16)
  else if d = 2 then decide (s / 16 < 15)
  else decide (0 < s / 16)

/-- The bits of byte `j` of record `i` that the layout marks zero (R38), as a mask. -/
def zeroMask (ty i : Nat) (r : List Byte) (j : Nat) : Nat :=
  let b0 := leAt r 0 1
  if ty = secPortLayout then
    if b0 = 0 then (if j = 0 then 0 else 255) else if 7 ≤ j then 255 else 0
  else if ty = secPrmEndpoints then
    if b0 = 0 then (if j = 0 then 0 else 255)
    else if j = 4 ∨ j = 5 ∨ 11 ≤ j then 255 else if j = 9 then 0xF0 else 0
  else if ty = secPrmShares then (if linkExists (i / 4) (i % 4) then 0 else 255)
  else if ty = secMemPartition then
    if b0 = 0 then (if j = 0 then 0 else 255)
    else if j = 2 then 0xF8 else if j = 3 ∨ j = 6 ∨ j = 7 then 255
    else if j = 5 ∧ b0 = 2 then 0xF0 else 0
  else if ty = secHbmShares then (if 4 ≤ j then 255 else 0)
  else if ty = secFunctions then
    if i = 0 then (if 5 ≤ j then 255 else 0)
    else if b0 = 0 then (if j = 0 then 0 else 255)
    else if j = 3 then 0xF0 else if 9 ≤ j then 255 else 0
  else if ty = secArbImage then
    if (0x0C ≤ j ∧ j < 0x10) ∨ (0x90 ≤ j ∧ j < 0x100) then 255 else 0
  else if ty = secArbMap then
    if j = 2 then 0xF0 else if j = 3 ∨ 12 ≤ j then 255 else 0
  else if ty = secPavGroups then
    if b0 = 0 then (if j = 0 then 0 else 255)
    else if j = 3 then 0xF0 else if (5 ≤ j ∧ j ≤ 7) ∨ 24 ≤ j then 255 else 0
  else if ty = secAcmBanks then
    if b0 = 0 then (if j = 0 then 0 else 255) else if 3 ≤ j then 255 else 0
  else if ty = secEmtGeometry then
    if b0 = 0 then (if j = 0 then 0 else 255)
    else if j = 3 ∨ (12 ≤ j ∧ j ≤ 15) ∨ 24 ≤ j then 255 else 0
  else if ty = secSchTree then
    if b0 = 0 then (if j = 0 then 0 else 255) else if 2 ≤ j then 255 else 0
  else if ty = secCphAlloc then
    if b0 = 0 then (if j = 0 then 0 else 255)
    else if j = 5 then 0x70 else if j = 6 ∨ j = 7 then 255 else 0
  else if ty = secTeAlloc then
    if i < 16 then 0
    else if b0 = 0xFF then (if j = 0 then 0 else 255)
    else if (5 ≤ j ∧ j ≤ 7) ∨ 26 ≤ j then 255 else 0
  else if ty = secNveAlloc then
    if b0 = 0xFF then (if j = 0 then 0 else 255) else 0
  else if ty = secPwrPolicy then
    if 838 ≤ i then 255 else if j = 0 then 0xF8 else if 6 ≤ j then 255 else 0
  else 0

/-- The first byte of a body that must be zero, wholly or in some bits, and is not (R38, 0x06). Bytes beyond the
length of the layout are no field of it: a body that has them breaks `BODY_LEN` (0x0F). -/
def firstNonZero (ty : Nat) (body : List Byte) : Option Nat :=
  (List.range (min body.length ((secLayoutLen ty body).getD body.length))).find? fun o =>
    let (b, sz, i) := recordOf ty o
    let r := if ty = secArbImage then [] else bytesAt body b sz
    let j := if ty = secArbImage then o else o - b
    (leAt body o 1) &&& (zeroMask ty i r j) != 0

/-- Are the lanes of present port `p` those of R45, within a PORT_LAYOUT body? -/
def portLanesOk (body : List Byte) (p : Nat) : Bool :=
  let lanes := fun q => leAt body (16 * q + 3) 1
  let present := fun q => leAt body (16 * q) 1 == 1
  let speed := fun q => leAt body (16 * q + 1) 1
  !present p ||
    (p % lanes p == 0 && decide (p + lanes p ≤ 16) &&
      (List.range 16).all fun q => q == p || !present q ||
        ((decide (q + lanes q ≤ p) || decide (p + lanes p ≤ q)) &&
          (q / 4 != p / 4 || speed q == speed p)))

/-- Does lane `l` belong to a present port (R45)? -/
def laneCovered (body : List Byte) (l : Nat) : Bool :=
  (List.range 16).any fun q => leAt body (16 * q) 1 == 1 && decide (q ≤ l) && decide (l < q + leAt body (16 * q + 3) 1)

/-- The fields of one record with whether each holds a value of its encoding, as offsets from the
start of the record. `kind` is the part of a body of several tables. -/
def recFields (ty inst i : Nat) (body r : List Byte) : List (Nat × Bool) :=
  let g := fun o n => leAt r o n
  let b0 := g 0 1
  if ty = secPortLayout then
    if b0 = 1 then
      [(1, decide (g 1 1 ≤ 3)), (1, !(g 6 1 == 2 && g 1 1 == 1)), (2, g 2 1 == i),
       (3, g 3 1 == 2 ^ g 1 1), (4, g 4 1 == 1 || g 4 1 == 2), (5, decide (g 5 1 ≤ 1)),
       (6, decide (g 6 1 ≤ 2)), (3, portLanesOk body i)]
    else [(0, b0 == 0 && laneCovered body i)]
  else if ty = secPrmEndpoints then
    if b0 = 1 then
      [(0, (epClass i).isSome), (2, decide (g 2 1 ≤ 3)),
       (3, g 3 1 == (if epClass i = some 6 then 1 else 0)), (6, decide (g 6 2 ≤ 1023)),
       (10, decide (g 10 1 ≤ 15)),
       (2, (List.range i).all fun e => leAt body (24 * e) 1 != 1 ||
            leAt body (24 * e + 1) 1 != g 1 1 || leAt body (24 * e + 2) 1 != g 2 1)]
    else [(0, b0 == 0)]
  else if ty = secMemPartition then
    if b0 = 0 then []
    else [(0, decide (b0 ≤ 2)), (1, decide (g 1 1 ≤ 1)),
      (4, b0 != 1 || [0x13, 0x14, 0x15, 0x16].contains (g 4 2)), (12, decide (1 ≤ g 12 4))]
  else if ty = secFunctions then
    if i = 0 then
      [(0, decide (b0 ≤ 3) && (inst != 0 || b0 == 0 || b0 == 3)),
       (1, g 1 1 == 0 || (decide (30 ≤ g 1 1) && decide (g 1 1 ≤ 40))),
       (2, decide (g 2 2 ≤ 1023)),
       (4, if b0 = 1 then decide (22 ≤ g 4 1) && decide (g 4 1 ≤ 28) else g 4 1 == 0)]
    else
      let pers := leAt body 0 1
      let n := i - 1
      if b0 = 1 then
        [(0, decide (n ≤ leAt body 2 2)), (1, decide (g 1 1 ≤ 1)),
         (2, !(inst == 0 && n == 0) || g 2 2 == 0),
         (4, if pers ≤ 1 then decide (1 ≤ g 4 2) && decide (g 4 2 ≤ 256) else g 4 2 == 0),
         (6, decide (1 ≤ g 6 2) && decide (g 6 2 ≤ 2048)),
         (8, if pers = 1 then decide (g 8 1 ≤ 63) else g 8 1 == 0xFF)]
      else [(0, b0 == 0 && decide (leAt body 2 2 < n))]
  else if ty = secArbMap then (List.range 8).map fun q => (4 + q, decide (g (4 + q) 1 ≤ 63))
  else if ty = secPavGroups then
    if b0 = 1 then
      [(1, decide (g 1 1 ≤ 6)), (4, decide (g 4 1 ≤ 1)), (8, g 8 8 % 67108864 == 0),
       (16, g 16 8 % 67108864 == 0 && decide (g 16 8 ≤ 25769803776))]
    else [(0, b0 == 0)]
  else if ty = secAcmBanks then
    if i < 256 then
      if b0 = 1 then [(1, decide (g 1 1 ≤ 63) || g 1 1 == 0xFF), (2, decide (g 2 1 ≤ 1))]
      else [(0, b0 == 0)]
    else
      if b0 = 1 then [(1, leAt body (8 * g 1 1) 1 == 1), (2, decide (g 2 1 ≤ 127))]
      else [(0, b0 == 0)]
  else if ty = secEmtGeometry then
    if b0 = 1 then
      [(1, decide (2 ≤ g 1 1) && decide (g 1 1 ≤ 24)), (2, decide (1 ≤ g 2 1) && decide (g 2 1 ≤ 48)),
       (8, g 8 4 != g 4 4), (16, g 16 8 % (256 * 2 ^ g 1 1) == 0)]
    else [(0, b0 == 0)]
  else if ty = secSchTree then
    if b0 = 1 then [(1, decide (g 1 1 ≤ 7))] else [(0, b0 == 0)]
  else if ty = secCphAlloc then
    if b0 = 1 then
      [(1, decide (g 1 1 ≤ 31)), (2, (decide (g 2 1 ≤ 31) && g 2 1 != g 1 1) || g 2 1 == 0xFF),
       (3, decide (g 3 1 ≤ 1)), (12, decide (1 ≤ g 12 4) && decide (g 12 4 ≤ 1048576) &&
          decide (g 8 4 + g 12 4 ≤ 1048576))]
    else [(0, b0 == 0)]
  else if ty = secTeAlloc then
    if i < 16 then
      [(0, g 0 4 % 4096 == 0), (4, decide (g 4 4 ≤ 4194304) && g 4 4 % 4096 == 0),
       (8, decide (g 8 4 ≤ 65536)), (12, decide (g 12 4 ≤ 262144))]
    else if b0 = 0xFF then []
    else
      [(0, decide (b0 ≤ 15)), (1, decide (2 ≤ g 1 1) && decide (g 1 1 ≤ 22)),
       (2, decide (g 2 1 ≤ 24)), (3, decide (g 3 1 ≤ 20)), (4, decide (g 4 1 ≤ 16)),
       (8, g 8 4 % 2 ^ g 1 1 == 0 && decide (leAt body (16 * b0) 4 ≤ g 8 4) &&
          decide (g 8 4 + 2 ^ g 1 1 ≤ leAt body (16 * b0) 4 + leAt body (16 * b0 + 4) 4)),
       (12, g 12 4 % 2 ^ g 2 1 == 0 && decide (g 12 4 < 16777216)),
       (16, g 16 4 % 2 ^ g 3 1 == 0 && decide (g 16 4 < 1048576)),
       (20, g 20 4 % 2 ^ g 4 1 == 0 && decide (g 20 4 < 65536))]
  else if ty = secNveAlloc then
    if b0 = 0xFF then []
    else
      [(0, decide (b0 ≤ 7)), (1, decide (1 ≤ g 1 1) && decide (g 1 1 ≤ 32)),
       (2, decide (1 ≤ g 2 2)), (4, decide (g 4 4 ≤ 16384)), (8, g 8 8 % 1048576 == 0)]
  else if ty = secPwrPolicy then
    if 838 ≤ i then []
    else
      [(0, b0 &&& tileAllows i == b0), (1, decide (1 ≤ g 1 1)), (2, decide (1 ≤ g 2 2)),
       (4, decide (1 ≤ g 4 2))]
  else []

/-- The number of records of a body. -/
def recCount (ty : Nat) : Nat :=
  match secRecords ty with
  | some (_, n) => n
  | none =>
    if ty = secFunctions then 1025 else if ty = secAcmBanks then 384
    else if ty = secTeAlloc then 4112 else 0

/-- The start and size of record `i` of a body. -/
def recPlace (ty i : Nat) : Nat × Nat :=
  match secRecords ty with
  | some (sz, _) => (i * sz, sz)
  | none =>
    if ty = secFunctions then (if i = 0 then (0, 64) else (64 + 16 * (i - 1), 16))
    else if ty = secAcmBanks then (8 * i, 8)
    else if ty = secTeAlloc then (if i < 16 then (16 * i, 16) else (256 + 32 * (i - 16), 32))
    else (0, 0)

/-- The fields of an ARB_IMAGE body with whether each holds a value of its encoding (Table 5-3). -/
def imageFields (body : List Byte) : List (Nat × Bool) :=
  let n := leAt body 0 4
  [(0, decide (1 ≤ n) && decide (n ≤ 16384)), (4, decide (leAt body 4 4 ≤ 65536) && leAt body 4 4 % 8 == 0),
   (8, decide (leAt body 8 2 < n)), (10, decide (leAt body 10 2 < n))] ++
  (List.range 64).map fun i =>
    let e := leAt body (16 + 2 * i) 2
    (16 + 2 * i, decide (e < n) || e == 0xFFFF)

/-- The first field of a body outside its encoding (0x0F), with the length rule of R38. A body that no layout bounds is
held to the encoding of `BODY_LEN`, at most 16,777,216; that field lies in the header, so the offset is 0. -/
def firstBadField (ty inst : Nat) (body : List Byte) : Option Nat :=
  let all :=
    if ty = secArbImage then imageFields body
    else (List.range (recCount ty)).flatMap fun i =>
      let (o, sz) := recPlace ty i
      (recFields ty inst i body (bytesAt body o sz)).map fun (f, ok) => (o + f, ok)
  match secLayoutLen ty body with
  | some n =>
    if body.length = n then (all.find? fun x => !x.2).map Prod.fst
    else some (min body.length n)
  | none => if 16777216 < body.length then some 0 else none

/-! ### Records of a plan, under the spec's names -/

def portField (p : Plan) (port o : Nat) : Nat := secByte p secPortLayout 0 (16 * port + o)
def portPresent (p : Plan) (port : Nat) : Bool := decide (port < 16) && portField p port 0 == 1
def portSpeed (p : Plan) (port : Nat) : Nat := portField p port 1
def portLanes (p : Plan) (port : Nat) : Nat := portField p port 3
def portFec (p : Plan) (port : Nat) : Nat := portField p port 4
def portCutThrough (p : Plan) (port : Nat) : Bool := portField p port 5 == 1
def portPhy (p : Plan) (port : Nat) : Nat := portField p port 6

def epPresent (p : Plan) (e : Nat) : Bool := decide (e < 512) && secByte p secPrmEndpoints 0 (24 * e) == 1
def epStation (p : Plan) (e : Nat) : Nat := secByte p secPrmEndpoints 0 (24 * e + 1)
def epPort (p : Plan) (e : Nat) : Nat := secByte p secPrmEndpoints 0 (24 * e + 2)
def epStamped (p : Plan) (e : Nat) : Bool := secByte p secPrmEndpoints 0 (24 * e + 3) == 1
def epReach (p : Plan) (e : Nat) : Nat := secLE p secPrmEndpoints 0 (24 * e + 8) 2
def epShareClass (p : Plan) (e : Nat) : Nat := secByte p secPrmEndpoints 0 (24 * e + 10)

def linkShare (p : Plan) (s d k : Nat) : Nat := secByte p secPrmShares 0 (16 * (4 * s + d) + k)

/-- One record of MEM_PARTITION (Table 16-2). -/
def partRec (p : Plan) (i : Nat) : List Byte := bytesAt (secBody p secMemPartition 0) (16 * i) 16

/-- The partitions of a plan: (kind, memory, flags, owner, base, size), base and size in bytes of the
device physical space (R431, R432). -/
def partitions (p : Plan) : List (Nat × Nat × Nat × Nat × Nat × Nat) :=
  (List.range 16384).filterMap fun i =>
    let r := partRec p i
    if leAt r 0 1 = 0 then none
    else
      let base := (if leAt r 1 1 = 1 then 0x010000000000 else 0) + leAt r 8 4 * 67108864
      some (leAt r 0 1, leAt r 1 1, leAt r 2 1, leAt r 4 2, base, leAt r 12 4 * 67108864)

/-- The partition of a TD in HBM (`mem` 0) or DDR (`mem` 1): base and size. -/
def tdPartition (p : Plan) (mem td : Nat) : Option (Nat × Nat) :=
  ((partitions p).find? fun (k, m, _, o, _, _) => k == 2 && m == mem && o == td).map
    fun (_, _, _, _, b, n) => (b, n)

/-- The HBM partition of a unit: base and size. -/
def unitPartition (p : Plan) (unit : Nat) : Option (Nat × Nat) :=
  ((partitions p).find? fun (k, _, _, o, _, _) => k == 1 && o == unit).map
    fun (_, _, _, _, b, n) => (b, n)

/-- Byte `x` of the HBM partition of a unit. -/
def unitByteAddr (p : Plan) (unit x : Nat) : Nat :=
  match unitPartition p unit with
  | some (b, _) => b + x
  | none => x

/-- Does the whole range lie in some partition that a TD owns (Table 16-3)? -/
def tdOwnsRange (p : Plan) (td a n : Nat) : Bool :=
  (partitions p).any fun (k, _, _, o, b, sz) =>
    k == 2 && o == td && decide (b ≤ a) && decide (a + n ≤ b + sz)

/-- Byte offset of the record of global function `f` in the FUNCTIONS body of its PF (R394). -/
def fnOff (f : Nat) : Nat := 64 + 16 * (f % 1024)
def fnField (p : Plan) (f o n : Nat) : Nat := secLE p secFunctions (f / 1024) (fnOff f + o) n
def fnPresent (p : Plan) (f : Nat) : Bool := decide (f < 4096) && fnField p f 0 1 == 1
def fnStrict (p : Plan) (f : Nat) : Bool := fnField p f 1 1 == 1
def fnTd (p : Plan) (f : Nat) : Nat := fnField p f 2 2 % 4096
def fnQpLimit (p : Plan) (f : Nat) : Nat := fnField p f 4 2
def fnMsixSize (p : Plan) (f : Nat) : Nat := fnField p f 6 2
def fnPavGroup (p : Plan) (f : Nat) : Nat := fnField p f 8 1
def pfPersonality (p : Plan) (pf : Nat) : Nat := secByte p secFunctions pf 0
def pfAtwLog2 (p : Plan) (pf : Nat) : Nat := secByte p secFunctions pf 1
def pfTotalVfs (p : Plan) (pf : Nat) : Nat := secLE p secFunctions pf 2 2
def pfPavWinLog2 (p : Plan) (pf : Nat) : Nat := secByte p secFunctions pf 4
def fnPersonality (p : Plan) (f : Nat) : Nat := pfPersonality p (f / 1024)

def mapClusters (p : Plan) (src : Nat) : Nat := secLE p secArbMap 0 (32 * src) 4
def mapNames (p : Plan) (src c : Nat) : Bool := (mapClusters p src).testBit c
def mapProg (p : Plan) (src q : Nat) : Nat := secByte p secArbMap 0 (32 * src + 4 + q)
def imgEntry (p : Plan) (c i : Nat) : Nat := secLE p secArbImage c (16 + 2 * i) 2
def imgCount (p : Plan) (c : Nat) : Nat := secLE p secArbImage c 0 4
def imgDataLen (p : Plan) (c : Nat) : Nat := secLE p secArbImage c 4 4
def imgInit (p : Plan) (c : Nat) : Nat := secLE p secArbImage c 8 2
def imgService (p : Plan) (c : Nat) : Nat := secLE p secArbImage c 10 2

def grpField (p : Plan) (g o n : Nat) : Nat := secLE p secPavGroups 0 (32 * g + o) n
def grpFirst (p : Plan) (g : Nat) : Bool := decide (g < 64) && grpField p g 0 1 == 1
def grpSizeLog2 (p : Plan) (g : Nat) : Nat := grpField p g 1 1
def grpLoadTd (p : Plan) (g : Nat) : Nat := grpField p g 2 2 % 4096
def grpLoadable (p : Plan) (g : Nat) : Bool := grpField p g 4 1 == 1
def grpHbmBase (p : Plan) (g : Nat) : Nat := grpField p g 8 8
def grpHbmSize (p : Plan) (g : Nat) : Nat := grpField p g 16 8

/-- The members of the group whose first member is `g` (R94). -/
def grpMembers (p : Plan) (g : Nat) : List Nat := (List.range (2 ^ grpSizeLog2 p g)).map (g + ·)

/-- The first member of the group that pavilion `n` belongs to (R94). -/
def grpOf (p : Plan) (n : Nat) : Option Nat :=
  (List.range 64).find? fun g => grpFirst p g && decide (g ≤ n) && decide (n < g + 2 ^ grpSizeLog2 p g)

def profPresent (p : Plan) (i : Nat) : Bool := decide (i < 256) && secByte p secAcmBanks 0 (8 * i) == 1
def profEmtTable (p : Plan) (i : Nat) : Nat := secByte p secAcmBanks 0 (8 * i + 1)
def profPrec (p : Plan) (i : Nat) : Nat := secByte p secAcmBanks 0 (8 * i + 2)
def bankAlloc (p : Plan) (b : Nat) : Bool := decide (b < 128) && secByte p secAcmBanks 0 (2048 + 8 * b) == 1
def bankProfile (p : Plan) (b : Nat) : Nat := secByte p secAcmBanks 0 (2048 + 8 * b + 1)
def bankOrder (p : Plan) (b : Nat) : Nat := secByte p secAcmBanks 0 (2048 + 8 * b + 2)

/-- The banks of a profile in ascending ORDER (R185, R187). -/
def profBanks (p : Plan) (i : Nat) : List Nat :=
  (List.range 128).filterMap fun o =>
    (List.range 128).find? fun b => bankAlloc p b && bankProfile p b == i && bankOrder p b == o

def emtPresent (p : Plan) (t : Nat) : Bool := decide (t < 64) && secByte p secEmtGeometry 0 (32 * t) == 1
def emtBucketsLog2 (p : Plan) (t : Nat) : Nat := secByte p secEmtGeometry 0 (32 * t + 1)
def emtKeyLen (p : Plan) (t : Nat) : Nat := secByte p secEmtGeometry 0 (32 * t + 2)
def emtSeedA (p : Plan) (t : Nat) : Nat := secLE p secEmtGeometry 0 (32 * t + 4) 4
def emtSeedB (p : Plan) (t : Nat) : Nat := secLE p secEmtGeometry 0 (32 * t + 8) 4
def emtBase (p : Plan) (t : Nat) : Nat := secLE p secEmtGeometry 0 (32 * t + 16) 8

def treeOwns (p : Plan) (port g : Nat) : Bool := decide (g < 4096) && secByte p secSchTree port (4 * g) == 1
def treeClass (p : Plan) (port g : Nat) : Nat := secByte p secSchTree port (4 * g + 1)

/-- The present port whose tree owns group `g` (R229). -/
def groupPort (p : Plan) (g : Nat) : Option Nat :=
  (List.range 16).find? fun q => portPresent p q && treeOwns p q g

def cphField (p : Plan) (q o n : Nat) : Nat := secLE p secCphAlloc 0 (16 * q + o) n
def cphQPresent (p : Plan) (q : Nat) : Bool := decide (q < 256) && cphField p q 0 1 == 1
def cphQPair (p : Plan) (q : Nat) : Nat := cphField p q 1 1
def cphQAlt (p : Plan) (q : Nat) : Nat := cphField p q 2 1
def cphQCompat (p : Plan) (q : Nat) : Bool := cphField p q 3 1 == 1
def cphQTd (p : Plan) (q : Nat) : Nat := cphField p q 4 2 % 4096
def cphQShared (p : Plan) (q : Nat) : Bool := cphField p q 4 2 ≥ 32768
def cphQSlotBase (p : Plan) (q : Nat) : Nat := cphField p q 8 4
def cphQSlotCount (p : Plan) (q : Nat) : Nat := cphField p q 12 4

def teEngField (p : Plan) (e o : Nat) : Nat := secLE p secTeAlloc 0 (16 * e + o) 4
def teFnField (p : Plan) (f o n : Nat) : Nat := secLE p secTeAlloc 0 (256 + 32 * f + o) n
def teFnHas (p : Plan) (f : Nat) : Bool := decide (f < 4096) && (findSec p secTeAlloc 0).isSome && teFnField p f 0 1 != 0xFF
def teFnEngine (p : Plan) (f : Nat) : Nat := teFnField p f 0 1
def teFnQpLog2 (p : Plan) (f : Nat) : Nat := teFnField p f 1 1
def teFnMrLog2 (p : Plan) (f : Nat) : Nat := teFnField p f 2 1
def teFnCqLog2 (p : Plan) (f : Nat) : Nat := teFnField p f 3 1
def teFnSrqLog2 (p : Plan) (f : Nat) : Nat := teFnField p f 4 1
def teFnQpBase (p : Plan) (f : Nat) : Nat := teFnField p f 8 4
def teFnMrBase (p : Plan) (f : Nat) : Nat := teFnField p f 12 4
def teFnCqBase (p : Plan) (f : Nat) : Nat := teFnField p f 16 4
def teFnSrqBase (p : Plan) (f : Nat) : Nat := teFnField p f 20 4
def teFnMpQps (p : Plan) (f : Nat) : Nat := teFnField p f 24 2

def nveField (p : Plan) (f o n : Nat) : Nat := secLE p secNveAlloc 0 (16 * f + o) n
def nveHas (p : Plan) (f : Nat) : Bool := decide (f < 4096) && (findSec p secNveAlloc 0).isSome && nveField p f 0 1 != 0xFF
def nveEngine (p : Plan) (f : Nat) : Nat := nveField p f 0 1
def nveNsMax (p : Plan) (f : Nat) : Nat := nveField p f 1 1
def nveIoqMax (p : Plan) (f : Nat) : Nat := nveField p f 2 2
def nveBufMib (p : Plan) (f : Nat) : Nat := nveField p f 4 4
def nveBufBase (p : Plan) (f : Nat) : Nat := nveField p f 8 8

def tileAllow (p : Plan) (t : Nat) : Nat := secByte p secPwrPolicy 0 (8 * t)
def tileHazeIdle (p : Plan) (t : Nat) : Nat := secByte p secPwrPolicy 0 (8 * t + 1)
def tileOvcIdleUs (p : Plan) (t : Nat) : Nat := secLE p secPwrPolicy 0 (8 * t + 2) 2
def tileNightIdleMs (p : Plan) (t : Nat) : Nat := secLE p secPwrPolicy 0 (8 * t + 4) 2

/-! ### Cross-section checks -/

/-- Do two ranges share nothing? An empty range shares nothing with any other. -/
def disjoint (a n b m : Nat) : Bool := n == 0 || m == 0 || decide (a + n ≤ b) || decide (b + m ≤ a)

/-- Is the predicate true of every pair of different elements of a list? -/
def allPairs {α : Type} (f : α → α → Bool) : List α → Bool
  | [] => true
  | a :: t => t.all (f a) && allPairs f t

/-- The global functions of a plan that are present. -/
def presentFns (p : Plan) : List Nat := (List.range 4096).filter (fnPresent p)

/-- The endpoints that the sections of a plan name (R578). -/
def namedEndpoints (p : Plan) : List Nat :=
  let ports := (List.range 16).filter (portPresent p)
  let fns := presentFns p
  ports ++ ports.map (0x1B0 + ·) ++
  ((List.range 16).filter fun q => (findSec p secSchTree q).isSome).map (0x1B0 + ·) ++
  ((List.range 20).filter fun c => (List.range 20).any fun src => mapNames p src c).flatMap
    (fun c => (List.range 8).map fun k => 0x100 + 8 * c + k) ++
  [0x10, 0x11, 0x12, 0x13] ++
  (fns.filter fun f => decide (fnPersonality p f ≤ 1)).map (fun f => 0x10 + f / 1024) ++
  (if (List.range 256).any (profPresent p) then [0x1A0] else []) ++
  (if (List.range 256).any (fun i => profPresent p i && profEmtTable p i != 0xFF) then [0x1A1] else []) ++
  ((List.range 256).filter (cphQPresent p)).flatMap (fun q =>
    (0x20 + cphQPair p q) :: (if cphQAlt p q = 0xFF then [] else [0x20 + cphQAlt p q])) ++
  ((List.range 4096).filter (teFnHas p)).map (fun f => 0x40 + teFnEngine p f) ++
  ((List.range 4096).filter (nveHas p)).map (fun f => 0x50 + nveEngine p f) ++
  ((List.range 64).filter fun g => grpFirst p g && grpLoadable p g).flatMap fun g =>
    (grpMembers p g).flatMap fun m => [0x80 + 2 * m, 0x80 + 2 * m + 1]

/-- The TDs that the sections of a plan name (Table 2-6). -/
def namedTds (p : Plan) : List Nat :=
  (presentFns p).map (fnTd p) ++
  ((List.range 64).filter (grpFirst p)).map (grpLoadTd p) ++
  ((List.range 256).filter (cphQPresent p)).map (cphQTd p)

/-- The checks of Table 2-6 and the chapters' own cross-section checks (0x10), each true when it
holds. `ddr` is the number of installed DDR bytes. -/
def crossChecks (p : Plan) (ddr : Nat) : List Bool :=
  let ports := (List.range 16).filter (portPresent p)
  let parts := partitions p
  let fns := presentFns p
  let tables := (List.range 64).filter (emtPresent p)
  let queues := (List.range 256).filter (cphQPresent p)
  let teFns := (List.range 4096).filter (teFnHas p)
  let nvFns := (List.range 4096).filter (nveHas p)
  let groups := (List.range 64).filter (grpFirst p)
  let sizeOf := fun u => match unitPartition p u with | some (_, n) => n | none => 0
  [ -- HBM shares
    ((List.range 4).map (secByte p secHbmShares 0)).sum == 256,
    -- promenade shares
    (List.range 1024).all fun r => decide (((List.range 16).map fun k => secByte p secPrmShares 0 (16 * r + k)).sum ≤ 256),
    -- trees and clusters of ports
    (List.range 16).all fun q => (findSec p secSchTree q).isSome == portPresent p q,
    ports.all fun q => mapClusters p q != 0,
    -- named endpoints
    (namedEndpoints p).all (epPresent p),
    -- partitions
    allPairs (fun (_, _, _, _, b, n) (_, _, _, _, b', n') => disjoint b n b' n') parts,
    parts.all fun (_, m, _, _, b, n) =>
      if m = 1 then decide (b + n ≤ 0x010000000000 + ddr) else decide (b + n ≤ 0x17F8000000),
    -- engines of functions
    fns.all fun f => (fnPersonality p f != 3 || teFnHas p f) && (fnPersonality p f != 2 || nveHas p f),
    -- exact-match size
    decide ((tables.map fun t => 4 * 2 ^ emtBucketsLog2 p t).sum ≤ 67108864),
    -- pavilion grouping (R94)
    groups.all (fun g => g % 2 ^ grpSizeLog2 p g == 0 && decide (g + 2 ^ grpSizeLog2 p g ≤ 64) &&
      (grpMembers p g).all fun m => m == g || !grpFirst p m),
    (List.range 64).all fun n => (grpOf p n).isSome,
    -- TDs own a partition
    (namedTds p).all fun td => parts.any fun (k, _, _, o, _, _) => k == 2 && o == td,
    -- R433
    allPairs (fun (k, m, _, o, _, _) (k', m', _, o', _, _) => !(k == k' && o == o' && (k == 1 || m == m'))) parts,
    parts.all fun (k, m, _, _, _, _) => k != 1 || m == 0,
    [0x13, 0x14, 0x15, 0x16].all fun u => (unitPartition p u).isSome,
    (tdPartition p 0 0).isSome,
    -- R476
    (List.range 512).all fun e => !epPresent p e || secLE p secPrmEndpoints 0 (24 * e + 6) 2 == epTile e,
    -- R135
    (List.range 20).all fun src =>
      if src < 16 ∧ !portPresent p src then (bytesAt (secBody p secArbMap 0) (32 * src) 32).all (· == 0)
      else mapClusters p src != 0 && (List.range 20).all fun c => !mapNames p src c ||
        (List.range 8).all fun q => imgEntry p c (mapProg p src q) != 0xFFFF,
    -- R185
    (List.range 256).all fun i =>
      let os := ((List.range 128).filter fun b => bankAlloc p b && bankProfile p b == i).map (bankOrder p)
      os.all (fun o => decide (o < os.length)) && allPairs (fun a b => a != b) os,
    (List.range 256).all fun i => !profPresent p i || profEmtTable p i == 0xFF || emtPresent p (profEmtTable p i),
    -- R207
    allPairs (fun t u => disjoint (emtBase p t) (256 * 2 ^ emtBucketsLog2 p t) (emtBase p u) (256 * 2 ^ emtBucketsLog2 p u)) tables,
    tables.all fun t => decide (emtBase p t + 256 * 2 ^ emtBucketsLog2 p t ≤ sizeOf 0x13),
    -- R229
    (List.range 4096).all fun g => decide ((ports.filter fun q => treeOwns p q g).length ≤ 1),
    -- R253
    allPairs (fun q r => cphQShared p q || cphQShared p r || cphQTd p q == cphQTd p r ||
      disjoint (cphQSlotBase p q) (cphQSlotCount p q) (cphQSlotBase p r) (cphQSlotCount p r)) queues,
    decide (167772160 ≤ sizeOf 0x15),
    -- R276
    allPairs (fun e f => disjoint (teEngField p e 0) (teEngField p e 4) (teEngField p f 0) (teEngField p f 4)) (List.range 16),
    decide (((List.range 16).map fun e => teEngField p e 8).sum ≤ 65536),
    decide (((List.range 16).map fun e => teEngField p e 12).sum ≤ 262144),
    allPairs (fun f g =>
      disjoint (teFnQpBase p f) (2 ^ teFnQpLog2 p f) (teFnQpBase p g) (2 ^ teFnQpLog2 p g) &&
      disjoint (teFnMrBase p f) (2 ^ teFnMrLog2 p f) (teFnMrBase p g) (2 ^ teFnMrLog2 p g) &&
      disjoint (teFnCqBase p f) (2 ^ teFnCqLog2 p f) (teFnCqBase p g) (2 ^ teFnCqLog2 p g) &&
      disjoint (teFnSrqBase p f) (2 ^ teFnSrqLog2 p f) (teFnSrqBase p g) (2 ^ teFnSrqLog2 p g)) teFns,
    (List.range 4096).all fun f => teFnHas p f == (fnPresent p f && fnPersonality p f == 3),
    decide (3095396352 ≤ sizeOf 0x16),
    -- R335
    (List.range 4096).all fun f => nveHas p f == (fnPresent p f && fnPersonality p f == 2),
    decide ((nvFns.map (nveIoqMax p)).sum ≤ 65536),
    decide ((nvFns.map (nveBufMib p)).sum ≤ 16384),
    nvFns.all fun f => match tdPartition p 0 (fnTd p f) with
      | some (_, n) => decide (nveBufBase p f + nveBufMib p f * 1048576 ≤ n)
      | none => nveBufMib p f == 0,
    allPairs (fun f g => fnTd p f != fnTd p g ||
      disjoint (nveBufBase p f) (nveBufMib p f * 1048576) (nveBufBase p g) (nveBufMib p g * 1048576)) nvFns,
    -- R395
    fns.all fun f => fnPersonality p f != 1 ||
      (grpFirst p (fnPavGroup p f) && grpLoadTd p (fnPavGroup p f) == fnTd p f &&
        decide (4194304 * 2 ^ grpSizeLog2 p (fnPavGroup p f) ≤ 2 ^ pfPavWinLog2 p (f / 1024))),
    (List.range 4).all fun k => decide (((fns.filter fun f => f / 1024 == k).map (fnMsixSize p)).sum ≤ 131072),
    -- the HBM window of a group lies inside the partition of its LOAD_TD (Table 4-2)
    groups.all fun g => grpHbmSize p g == 0 || match tdPartition p 0 (grpLoadTd p g) with
      | some (_, n) => decide (grpHbmBase p g + grpHbmSize p g ≤ n)
      | none => false ]

/-! ### Digests and parsing -/

/-- A section's digest (R39). -/
def secDigest (s : Section) : List Byte := Config.sha384 (s.header ++ s.body)

/-- The chain value of a plan (R39). -/
def chainOf (p : Plan) : List Byte :=
  p.foldl (fun c s => Config.sha384 (c ++ secDigest s)) (List.replicate 48 0)

/-- The sections between the plan header and the trailer: from byte `o`, at most `fuel` of them, up
to byte `stop`; `none` when they overrun it (R37). A `BODY_LEN` beyond its encoding is left to `firstBadField` (R38). -/
def parseSections (c : List Byte) : Nat → Nat → Nat → Option (List Section)
  | 0, o, stop => if o = stop then some [] else none
  | fuel + 1, o, stop =>
    if o = stop then some []
    else if stop < o + 64 then none
    else
      let h := bytesAt c o 64
      let len := leAt h 0 4
      let next := o + 64 + roundUp len 64
      if stop < next then none
      else
        let s : Section :=
          { type := leAt h 7 1, inst := leAt h 6 1, layoutVer := leAt h 8 2,
            retire := (leAt h 5 1).testBit 0, header := h, body := bytesAt c (o + 64) len }
        (parseSections c fuel next stop).map (s :: ·)

/-- The plan header and trailer of a container of `len` bytes. -/
def parseInfo (c : List Byte) (len : Nat) : PlanInfo :=
  let t := len - 4928
  { kind := leAt c 0x0A 1, seq := leAt c 0x10 8, arb := leAt c 0x18 4, count := leAt c 0x1C 2,
    totalLen := leAt c 0x20 8, baseDigest := bytesAt c 0x30 48, chainTail := bytesAt c (t + 8) 48,
    ecKeyId := bytesAt c (t + 0x38) 48, mldsaKeyId := bytesAt c (t + 0x68) 48,
    ecSig := bytesAt c (t + 0x98) 96, mldsaSig := bytesAt c (t + 0xF8) 4627,
    signed := bytesAt c 0 128 ++ bytesAt c t 0x98 }

/-- The resulting plan of an amendment (R50): sections substituted, added or removed, in the order
of R38. -/
def resultingPlan (live am : Plan) : Plan :=
  (List.range 0x21).flatMap fun ty => (List.range 256).filterMap fun i =>
    match findSec am ty i with
    | some s => if s.retire then none else some s
    | none => findSec live ty i

/-- The elements of a section (R51): element number and the bytes that encode it. -/
def secElements (p : Plan) (ty inst : Nat) : List (Nat × List Byte) :=
  match findSec p ty inst with
  | none => []
  | some s =>
    if ty = secArbImage ∨ ty = secSchTree ∨ ty = secHbmShares ∨ ty = secAnnotation then [(0, s.body)]
    else if ty = secPavGroups then
      ((List.range 64).filter (grpFirst p)).map fun g => (g, bytesAt s.body (32 * g) (32 * 2 ^ grpSizeLog2 p g))
    else if ty = secArbMap then
      (List.range 20).map fun c => (c, (List.range 20).flatMap fun src =>
        if mapNames p src c then (1 : Byte) :: bytesAt s.body (32 * src + 4) 8 else [0])
    else (List.range (recCount ty)).map fun i =>
      let (o, sz) := recPlace ty i
      (i, bytesAt s.body o sz)

/-- The elements of one section that differ between two plans (R51). -/
def differing (old new : Plan) (ty inst : Nat) : List Nat :=
  let a := secElements old ty inst
  let b := secElements new ty inst
  (a.filter fun x => !(b.contains x)).map Prod.fst ++
    ((b.filter fun x => !(a.contains x) && !(a.any fun y => y.1 == x.1))).map Prod.fst

/-- Every differing element of two plans: type, instance, element. -/
def differingAll (old new : Plan) : List (Nat × Nat × Nat) :=
  (List.range 0x11).flatMap fun ty => (List.range (secInstances ty)).flatMap fun i =>
    (differing old new ty i).map fun e => (ty, i, e)

end Sys2Proof.Machine
end

