-- ==== Sys2Proof/Machine/CfgSpace.lean ====
section
/-! DEFINITION. PCIe configuration space (R391 to R400): which registers a function holds, their reset
values, and which bits a write changes. What the PCIe Base Specification defines is taken from it. -/

namespace Sys2Proof.Machine

/-- Is global function `f` a virtual function? -/
def fnIsVf (f : Nat) : Bool := f % 1024 != 0

/-- The port, and the link of the port, of a function (Table 15-1). -/
def fnPort (f : Nat) : Nat := f / 2048
def fnLink (strap f : Nat) : Nat := if strap = 0 then 0 else f / 1024 % 2

/-- Class code (Table 15-4). -/
def classOf (personality : Nat) : Nat :=
  if personality = 2 then 0x010802 else if personality = 1 then 0x120000 else 0x020000

/-- The extended capabilities in order: offset, ID, version, PF only (Table 15-5). -/
def extCaps : List (Nat × Nat × Nat × Bool) :=
  [(0x100, 0x0001, 2, false), (0x180, 0x000E, 1, false), (0x190, 0x0019, 1, true), (0x1D0, 0x0025, 1, true),
   (0x1E0, 0x0026, 1, true), (0x230, 0x002A, 1, true), (0x260, 0x0031, 1, true), (0x280, 0x0027, 1, true),
   (0x2C0, 0x002F, 1, false), (0x2D0, 0x001E, 1, true), (0x2E0, 0x0018, 1, true), (0x2F0, 0x000F, 1, false),
   (0x300, 0x001B, 1, false), (0x310, 0x002E, 1, true), (0x330, 0x0010, 1, true), (0x370, 0x0030, 1, true),
   (0x400, 0x0023, 1, false)]

/-- The header of the extended capability at an offset, if the function holds it. -/
def extCapHeader (f off : Nat) : Option Nat :=
  let held := extCaps.filter fun (_, _, _, pf) => !(pf && fnIsVf f)
  match held.find? fun (o, _, _, _) => o == off with
  | none => none
  | some (_, id, ver, _) =>
    let next := match held.find? fun (o, _, _, _) => decide (off < o) with
      | some (o, _, _, _) => o
      | none => 0
    some (next * 2 ^ 20 + ver * 2 ^ 16 + id)

/-- Size, as a power of two, of the 64-bit BAR that starts at BAR number `b`; 0 where none (Table 15-7). -/
def barLog2 (p : Plan) (f b : Nat) : Nat :=
  let pf := f / 1024
  if b = 0 then (if f = 0 then 29 else 21)
  else if b = 2 then (if f = 0 then 21 else if pfPersonality p pf = 1 then pfPavWinLog2 p pf else 0)
  else if b = 4 then (if fnIsVf f then 0 else pfAtwLog2 p pf)
  else 0

/-- The bits of a BAR register that the host writes: register `r` of six. -/
def barMask (p : Plan) (f r : Nat) : Nat :=
  let n := barLog2 p f (r / 2 * 2)
  if n = 0 then 0
  else if r % 2 = 0 then (if n < 32 then 2 ^ 32 - 2 ^ n else 0)
  else if n ≤ 32 then 2 ^ 32 - 1 else 2 ^ 32 - 2 ^ (n - 32)

/-- Width of a function's link, as a power of two (Table 15-1). -/
def linkWidthLog2 (strap : Nat) : Nat := if strap = 0 then 4 else if strap = 1 then 3 else 2

/-- Offset of the personality region's BAR of a function, as a BAR number. -/
def personalityBar (f : Nat) : Nat := if f = 0 then 2 else 0

/-- The register of a lane's margining control and status, of lanes 0 to 13: those of lanes 14 and 15 would stand where
Table 15-5 puts Device 3 (log entry 154). -/
def isMarginLane (strap o : Nat) : Bool :=
  decide (0x288 ≤ o) && decide (o < 0x2C0) && o % 4 == 0 && decide ((o - 0x288) / 4 < 2 ^ linkWidthLog2 strap)

/-- Reset values within the extended capabilities, of which the PCIe Base Specification gives the layout: ARI, lane
margining, Device 3 with 14-bit tags and L0p, L1 PM Substates, PASID, IDE (R392, R396, R397, R412, R418 to R420). -/
def extCapReset (strap f o : Nat) : Option Nat :=
  let vf := fnIsVf f
  if o = 0x184 then some (if strap = 0 ∧ (f = 0 ∨ f = 2048) then 0x0100 else 0)
  else if !vf ∧ o = 0x284 then some 0x00010000
  else if !vf ∧ isMarginLane strap o then some 0x9C38
  else if o = 0x2C4 then some (if vf then 0x06 else 0x0E)
  else if !vf ∧ o = 0x2D4 then some 0x00390A1F
  else if !vf ∧ o = 0x2DC then some 0x28
  else if o = 0x304 then some 0x1400
  else if !vf ∧ o = 0x374 then some 0x00070063
  else none

/-- The reset value of the 32-bit register at offset `o` of function `f`. -/
def cfgReset (p : Plan) (strap f o : Nat) : Nat :=
  let vf := fnIsVf f
  let pf := f / 1024
  let pers := pfPersonality p pf
  let w := linkWidthLog2 strap
  if o = 0x00 then 0x5120 * 2 ^ 16 + (if vf then 0xFFFF else 0xCE6A)
  else if o = 0x04 then 0x00100000
  else if o = 0x08 then classOf pers * 256 + 0xB1
  else if o = 0x0C then if strap = 0 then 0x00800000 else 0
  else if 0x10 ≤ o ∧ o < 0x28 ∧ o % 4 = 0 then
    if !vf ∧ barLog2 p f ((o - 0x10) / 8 * 2) ≠ 0 ∧ (o - 0x10) % 8 = 0 then 4 else 0
  else if o = 0x2C then (0x0100 + pers) * 2 ^ 16 + 0xCE6A
  else if o = 0x34 then 0x40
  else if o = 0x40 then 0x00035001
  else if o = 0x50 then (fnMsixSize p f - 1) * 2 ^ 16 + 0x6011
  else if o = 0x54 then 0x1C0000 + personalityBar f
  else if o = 0x58 then 0x1E0000 + personalityBar f
  else if o = 0x60 then 0x00020010
  else if o = 0x64 then 0x10008022
  else if o = 0x68 then 0x2810
  else if o = 0x6C then 0x00010800 + 2 ^ w * 16 + 6
  else if o = 0x84 then 0x0003080F
  else if o = 0x8C then 0x8000007E
  else if o = 0x90 then 6
  else if o = 0x108 then 0x00400000
  else if o = 0x10C then 0x00462030
  else if o = 0x114 then 0x00006000
  else if o = 0x33C ∧ !vf then pfTotalVfs p pf * (2 ^ 16 + 1)
  else if o = 0x344 ∧ !vf then if strap = 0 then 0x00020002 else 0x00010001
  else if o = 0x348 ∧ !vf then 0x51200000
  else if o = 0x34C ∧ !vf then 0x00000553
  else if o = 0x350 ∧ !vf then 1
  else if 0x354 ≤ o ∧ o < 0x36C ∧ o % 4 = 0 ∧ !vf then
    if barLog2 p (f + 1) ((o - 0x354) / 8 * 2) ≠ 0 ∧ (o - 0x354) % 8 = 0 then 4 else 0
  else if o = 0x404 then 0x0801CE6A
  else if o = 0x408 then 0x0001
  else (extCapReset strap f o).getD ((extCapHeader f o).getD 0)

/-- Receiver number of the device, as an upstream port, in lane margining. -/
abbrev marginRx : Nat := 6

/-- The status of a lane after a margining command: nothing for another receiver; what `Access Receiver Margin
Capabilities` returns says voltage margining, independent up and down, left and right (R392); `v` what the spec leaves
open, among them the outcome of a margining step. -/
def marginStatus (ctl old v : Nat) : Nat :=
  let rx := ctl % 8
  if ctl % 2 ^ 16 = 0x9C38 then 0x9C38
  else if rx ≠ marginRx ∧ rx ≠ 0 then old
  else ctl % 2 ^ 7 + (if ctl / 8 % 8 = 1 ∧ ctl / 256 % 256 = 0x88 then 0x07 else v % 256) * 256

/-- A latency as LTR writes it (PRESUMED, the PCIe Base Specification), in ns. -/
def ltrNs (v : Nat) : Nat := v % 1024 * 32 ^ (v / 1024 % 8)

/-- The bits that a write replaces. -/
def cfgRwMask (p : Plan) (f o : Nat) : Nat :=
  let vf := fnIsVf f
  if o = 0x04 then if vf then 0x0004 else 0x0546
  else if 0x10 ≤ o ∧ o < 0x28 ∧ o % 4 = 0 then if vf then 0 else barMask p f ((o - 0x10) / 4)
  else if o = 0x30 then if vf then 0 else 0xFFF00001
  else if o = 0x44 then 0x3
  else if o = 0x50 then 0xC0000000
  else if o = 0x68 then 0x79FF
  else if o = 0x70 then 0x00C3
  else if o = 0x88 then 0x174F
  else if o = 0x90 then 0x000F
  else if o = 0x108 ∨ o = 0x10C then 0x7FFFFFF0
  else if o = 0x114 then 0x0000F1C1
  else if o = 0x2C8 then 0x0F
  else if 0x288 ≤ o ∧ o < 0x2C0 ∧ o % 4 = 0 ∧ !vf then 0xFF7F
  else if o = 0x2D8 ∧ !vf then 0xE3FF000F
  else if o = 0x2DC ∧ !vf then 0xFB
  else if o = 0x2E4 ∧ !vf then 0xFFFFFFFF
  else if o = 0x2F4 then 0x801F0000
  else if o = 0x304 then 0x00010000
  else if o = 0x318 ∧ !vf then 0x2
  else if o = 0x338 ∧ !vf then 0x0019
  else if o = 0x340 ∧ !vf then 0xFFFF
  else if o = 0x350 ∧ !vf then 0x0553
  else if 0x354 ≤ o ∧ o < 0x36C ∧ o % 4 = 0 ∧ !vf then barMask p (f + 1) ((o - 0x354) / 4)
  else if 0x378 ≤ o ∧ o < 0x400 ∧ o % 4 = 0 ∧ !vf then 0xFF000001
  else 0

/-- The bits that a write of 1 clears. -/
def cfgW1cMask (o : Nat) : Nat :=
  if o = 0x04 then 0xF9000000
  else if o = 0x68 then 0x000F0000
  else if o = 0x104 then 0x7FFFFFF0
  else if o = 0x110 then 0x0000F1C1
  else 0

/-- The bits of the bytes that a write enables. -/
def beLanes (be : Nat) : Nat := (List.range 4).foldl (fun m i => if be.testBit i then m + 255 * 2 ^ (8 * i) else m) 0

/-- A register after a write of the bytes that `be` (four bits) enables. -/
def cfgWritten (p : Plan) (f o old be v : Nat) : Nat :=
  let lanes := beLanes be
  let rw := cfgRwMask p f o &&& lanes
  let clr := v &&& cfgW1cMask o &&& lanes
  ((old - (old &&& rw)) ||| (v &&& rw)) - (((old - (old &&& rw)) ||| (v &&& rw)) &&& clr)

/-- The completion timeout that a Completion Timeout Value selects, in ns (Table 15-14). -/
def cplTimeoutNs (v : Nat) : Nat :=
  if v = 1 then 80000 else if v = 2 then 8000000 else if v = 5 then 40000000 else if v = 6 then 160000000
  else if v = 9 then 640000000 else if v = 10 then 2560000000 else if v = 13 then 10240000000
  else if v = 14 then 40960000000 else 32000000

/-! ### The device resource table (R402, R403) -/

/-- The smallest `n` with 2^`n` at least `v`. -/
def log2Up (v : Nat) : Nat := ((List.range 64).find? fun n => decide (v ≤ 2 ^ n)).getD 64

/-- One region entry. -/
def drtRegion (ty bar sz off : Nat) : List Byte := natLE 1 ty ++ natLE 1 bar ++ natLE 1 sz ++ natLE 1 0 ++ natLE 4 off

/-- The DRT record of global function `f`. -/
def drtRecord (p : Plan) (f : Nat) : List Byte :=
  if !fnPresent p f then List.replicate 64 0
  else
    let pers := fnPersonality p f
    let bar := personalityBar f
    let grp := fnPavGroup p f
    let regions :=
      (if pers ≤ 1 then [drtRegion 1 bar 21 0, drtRegion 2 bar 12 0x10000] else
       if pers = 2 then [drtRegion 3 bar 20 0] else [drtRegion 4 bar 12 0]) ++
      (if pers = 1 then [drtRegion 5 2 (22 + grpSizeLog2 p grp) 0] else []) ++
      [drtRegion 6 bar (log2Up (16 * fnMsixSize p f)) 0x1C0000,
       drtRegion 7 bar (max 3 (log2Up ((fnMsixSize p f + 7) / 8))) 0x1E0000] ++
      (if !fnIsVf f ∧ pfAtwLog2 p (f / 1024) ≠ 0 then [drtRegion 8 4 (pfAtwLog2 p (f / 1024)) 0] else []) ++
      (if f = 0 then [drtRegion 9 0 29 0] else [])
    bytesAt (natLE 2 (f % 1024) ++ natLE 1 pers ++ natLE 1 (if fnStrict p f then 1 else 0) ++ natLE 2 (fnTd p f) ++
      natLE 2 (fnQpLimit p f) ++ natLE 2 (fnMsixSize p f) ++ natLE 1 grp ++
      natLE 1 (if pers = 1 then grpSizeLog2 p grp else 0xFF) ++ natLE 4 0 ++ regions.flatten) 0 64

/-- The whole DRT of a PF, built with a plan sequence number and generation. -/
def drtOf (p : Plan) (pf seq gen : Nat) : List Byte :=
  let n := 1 + pfTotalVfs p pf
  let records := (List.range n).flatMap fun i => drtRecord p (1024 * pf + i)
  ascii8 ++ natLE 2 1 ++ natLE 1 pf ++ natLE 1 0 ++ natLE 2 n ++ natLE 2 64 ++ natLE 8 seq ++ natLE 4 gen ++
    natLE 4 (crc32cStd records) ++ List.replicate 32 0 ++ records
where
  /-- ASCII "OWDRT001". -/
  ascii8 : List Byte := [0x4F, 0x57, 0x44, 0x52, 0x54, 0x30, 0x30, 0x31]

end Sys2Proof.Machine
end

