-- ==== Sys2Proof/Machine/Header.lean ====
section
/-! DEFINITION. The carrier header (Tables 3-5 to 3-7): its fields, and the headers the device builds. -/

namespace Sys2Proof.Machine

/-- A field of the carrier header: word and bit range. -/
structure ChField where
  word : Nat
  hi : Nat
  lo : Nat
  deriving DecidableEq, Repr

namespace CH
abbrev ver : ChField := ⟨0, 63, 60⟩
abbrev kind : ChField := ⟨0, 59, 56⟩
abbrev td : ChField := ⟨0, 55, 44⟩
abbrev ruleVer : ChField := ⟨0, 43, 40⟩
abbrev flags : ChField := ⟨0, 39, 32⟩
abbrev poison : ChField := ⟨0, 39, 39⟩
abbrev frag : ChField := ⟨0, 38, 38⟩
abbrev trunc : ChField := ⟨0, 37, 37⟩
abbrev mirror : ChField := ⟨0, 36, 36⟩
abbrev copy : ChField := ⟨0, 35, 35⟩
abbrev wake : ChField := ⟨0, 34, 34⟩
abbrev prov : ChField := ⟨0, 33, 33⟩
abbrev dbg : ChField := ⟨0, 32, 32⟩
abbrev len : ChField := ⟨0, 31, 16⟩
abbrev srcEp : ChField := ⟨0, 15, 0⟩
abbrev dstEp : ChField := ⟨1, 63, 48⟩
abbrev dstQueue : ChField := ⟨1, 47, 24⟩
abbrev ctx : ChField := ⟨1, 23, 0⟩
abbrev timeNs : ChField := ⟨2, 63, 16⟩
abbrev timeFrac : ChField := ⟨2, 15, 0⟩
abbrev flowHash : ChField := ⟨3, 63, 32⟩
abbrev actionRef : ChField := ⟨3, 31, 0⟩
abbrev keySlot : ChField := ⟨4, 43, 24⟩
abbrev meter : ChField := ⟨4, 23, 0⟩
abbrev offsets : ChField := ⟨5, 63, 16⟩
abbrev pktType : ChField := ⟨5, 15, 0⟩
abbrev opcode : ChField := ⟨6, 63, 48⟩
abbrev operand : ChField := ⟨6, 47, 0⟩
abbrev status : ChField := ⟨6, 47, 40⟩
abbrev operandLow : ChField := ⟨6, 39, 0⟩
abbrev user : ChField := ⟨7, 63, 0⟩
end CH

/-- The kinds of Table 3-7. -/
abbrev kPacket : Nat := 0
abbrev kMessage : Nat := 1
abbrev kCommand : Nat := 2
abbrev kCompletion : Nat := 3
abbrev kEvent : Nat := 4
abbrev kVoid : Nat := 5

def hGet (w : List Word) (f : ChField) : Nat := bitsAt (w.getD f.word 0) f.hi f.lo
def hSet (w : List Word) (f : ChField) (v : Nat) : List Word :=
  w.set f.word (setBits (w.getD f.word 0) f.hi f.lo v)

/-- A header of eight zero words but for `CH_VER` = 2. -/
def hZero : List Word := hSet (List.replicate 8 (0 : Word)) CH.ver 2

/-- Several fields set in turn. -/
def hSets (w : List Word) (l : List (ChField × Nat)) : List Word := l.foldl (fun w x => hSet w x.1 x.2) w

/-- The virtual channel of a kind (R65): 0 control, 1 request, 2 response, 3 bulk. A void that
closes nothing uses control. -/
def kindVc (k : Nat) : Nat :=
  if k = kEvent ∨ k = kVoid then 0 else if k = kCommand then 1 else if k = kCompletion then 2 else 3

/-- The flits of a packet (R64). -/
def flitCount (len : Nat) : Nat := (64 + len + 127) / 128

/-- The void that closes an aborted packet (R81, Table 3-9). The fields that R81 does not name are zero (DESIGN CHOICE,
log entry 14). -/
def voidOf (w : List Word) (opcode bytes : Nat) : List Word :=
  hSets hZero [(CH.kind, kVoid), (CH.td, hGet w CH.td), (CH.srcEp, hGet w CH.srcEp),
    (CH.dstEp, hGet w CH.dstEp), (CH.dstQueue, hGet w CH.dstQueue), (CH.ctx, hGet w CH.ctx),
    (CH.opcode, opcode), (CH.operand, bytes % 2 ^ 32)]

/-- A completion the device builds on behalf of a command (R580); `ns` and `frac` are the TB0 time. -/
def deviceCompletion (w : List Word) (status ns frac : Nat) : List Word :=
  hSets hZero [(CH.kind, kCompletion), (CH.td, hGet w CH.td), (CH.ctx, hGet w CH.ctx),
    (CH.srcEp, hGet w CH.dstEp), (CH.dstEp, hGet w CH.srcEp), (CH.timeNs, ns), (CH.timeFrac, frac),
    (CH.offsets, 2 ^ 48 - 1), (CH.opcode, hGet w CH.opcode), (CH.status, status)]

/-- The completion a unit returns for a command (R14, R77): addressed to the command's `SRC_EP`, with
its `CTX`, `TD` and `OPCODE`, a status, an operand and a payload length. -/
def unitCompletion (w : List Word) (ep status operand len ns frac : Nat) : List Word :=
  hSets hZero [(CH.kind, kCompletion), (CH.td, hGet w CH.td), (CH.ctx, hGet w CH.ctx),
    (CH.srcEp, ep), (CH.dstEp, hGet w CH.srcEp), (CH.len, len), (CH.timeNs, ns), (CH.timeFrac, frac),
    (CH.offsets, 2 ^ 48 - 1), (CH.opcode, hGet w CH.opcode),
    (CH.status, status), (CH.operandLow, operand)]

/-- The trace event of a delivered header (R86). -/
def traceEvent (w : List Word) (ep : Nat) : List Word :=
  hSets w [(CH.kind, kEvent), (CH.len, 0), (CH.dbg, 0), (CH.dstEp, ep), (CH.dstQueue, 0),
    (CH.opcode, 0x0100),
    (CH.operand, hGet w CH.kind * 2 ^ 44 + hGet w CH.dstEp * 2 ^ 28 + hGet w CH.len * 2 ^ 12)]

end Sys2Proof.Machine
end

