-- ==== Sys2Proof/Machine/RegNames.lean ====
section
/-! DEFINITION. The registers' control-space offsets (unit code times 16 MiB plus the
offset in the unit's block, R32) and their fields, under the spec's own names. -/

namespace Sys2Proof.Machine

/-- A field of a register: the register's control-space offset and the bit range. -/
structure Fld where
  off : Nat
  hi : Nat
  lo : Nat
  deriving DecidableEq, Repr

namespace R

/-! SITE: 02_site_plan.md R62 -/
abbrev SITE_SRC_ADDR_STG : Nat := 0x08000000
abbrev SITE_SRC_LEN_STG : Nat := 0x08000008
abbrev SITE_SRC_CFG_STG : Nat := 0x08000010
abbrev SITE_COMMIT : Nat := 0x08000018
abbrev SITE_GEN : Nat := 0x08000020
abbrev SITE_STATUS : Nat := 0x08000028
abbrev SITE_LIVE_SEQ : Nat := 0x08000030
abbrev SITE_LIVE_ARB : Nat := 0x08000038
abbrev SITE_ARB_FLOOR : Nat := 0x08000040
abbrev SITE_LIVE_DIGEST (i : Nat) : Nat := 0x08000048 + 8 * i
abbrev SITE_QUIESCE_LIMIT : Nat := 0x08000078
abbrev SITE_DRAIN_LIMIT : Nat := 0x08000080
abbrev SITE_DRAIN_DISCARD : Nat := 0x08000088
abbrev SITE_SEC_SEL : Nat := 0x08000090
abbrev SITE_SEC_INFO : Nat := 0x08000098
abbrev SITE_SEC_DIGEST (i : Nat) : Nat := 0x080000A0 + 8 * i
abbrev SITE_ERR_STATUS : Nat := 0x08000100
abbrev SITE_ERR_MASK : Nat := 0x08000108
abbrev SITE_ERR_FIRST : Nat := 0x08000110
abbrev SITE_ERR_COUNT : Nat := 0x08000118

/-! PRM: 03_promenade.md R91 -/
abbrev PRM_STALL_LIMIT : Nat := 0x09000000
abbrev PRM_TRACE_CFG : Nat := 0x09000008
abbrev PRM_INJ_REFUSE : Nat := 0x09000010
abbrev PRM_TD_REFUSE : Nat := 0x09000018
abbrev PRM_ABORT_COUNT : Nat := 0x09000020
abbrev PRM_WAKE_COUNT : Nat := 0x09000028
abbrev PRM_TRACE_DROP : Nat := 0x09000030
abbrev PRM_ECC_CORR : Nat := 0x09000038
abbrev PRM_LINK_SEL : Nat := 0x09000040
abbrev PRM_LINK_FLITS : Nat := 0x09000048
abbrev PRM_IBUF_OCC : Nat := 0x09000050
abbrev PRM_ERR_STATUS : Nat := 0x09000100
abbrev PRM_ERR_MASK : Nat := 0x09000108
abbrev PRM_ERR_FIRST : Nat := 0x09000110
abbrev PRM_ERR_COUNT : Nat := 0x09000118

/-! ETH: 03_promenade.md R91, 09_scheduling.md R250 -/
abbrev ETH_ERR_STATUS : Nat := 0x10000100
abbrev ETH_ERR_MASK : Nat := 0x10000108
abbrev ETH_ERR_FIRST : Nat := 0x10000110
abbrev ETH_ERR_COUNT : Nat := 0x10000118
abbrev ETH_PFC_CFG : Nat := 0x10002000
abbrev ETH_PFC_THR (i : Nat) : Nat := 0x10002100 + 8 * i
abbrev ETH_LINK_CTRL (i : Nat) : Nat := 0x10003000 + 256 * i
abbrev ETH_RX_CFG (i : Nat) : Nat := 0x10003008 + 256 * i
abbrev ETH_MAC_ADDR (i : Nat) : Nat := 0x10003010 + 256 * i
abbrev ETH_LINK_STATUS (i : Nat) : Nat := 0x10003018 + 256 * i
abbrev ETH_RX_ABORT (i : Nat) : Nat := 0x10003020 + 256 * i
abbrev ETH_RX_BAD (i : Nat) : Nat := 0x10003028 + 256 * i
abbrev ETH_RX_OVERSIZE (i : Nat) : Nat := 0x10003030 + 256 * i
abbrev ETH_RX_FILTERED (i : Nat) : Nat := 0x10003038 + 256 * i
abbrev ETH_RX_NOBUF (i : Nat) : Nat := 0x10003040 + 256 * i
abbrev ETH_TX_ABORT (i : Nat) : Nat := 0x10003048 + 256 * i

/-! PAV: 04_pavilions.md R128 -/
abbrev PAV_CMD_ARG0 : Nat := 0x0A000000
abbrev PAV_CMD_ARG1 : Nat := 0x0A000008
abbrev PAV_CMD : Nat := 0x0A000010
abbrev PAV_CMD_STATUS : Nat := 0x0A000018
abbrev PAV_FENCE_POLICY : Nat := 0x0A000020
abbrev PAV_REG_TIMEOUT : Nat := 0x0A000028
abbrev PAV_DONE : Nat := 0x0A000030
abbrev PAV_DONE_MASK : Nat := 0x0A000038
abbrev PAV_LOAD_COUNT : Nat := 0x0A000040
abbrev PAV_VIOL_COUNT : Nat := 0x0A000048
abbrev PAV_WIN_DROP : Nat := 0x0A000050
abbrev PAV_ERR_STATUS : Nat := 0x0A000100
abbrev PAV_ERR_MASK : Nat := 0x0A000108
abbrev PAV_ERR_FIRST : Nat := 0x0A000110
abbrev PAV_ERR_COUNT : Nat := 0x0A000118
abbrev PAV_GRP_STATE (i : Nat) : Nat := 0x0A001000 + 128 * i
abbrev PAV_GRP_CLKCAP (i : Nat) : Nat := 0x0A001008 + 128 * i
abbrev PAV_GRP_STREAM_ID (i : Nat) : Nat := 0x0A001010 + 128 * i
abbrev PAV_GRP_MEAS (i j : Nat) : Nat := 0x0A001018 + 128 * i + 8 * j

/-! ARB: 05_arbour_cores.md R157 -/
abbrev ARB_INIT_LIMIT : Nat := 0x11000000
abbrev ARB_RUN_LIMIT : Nat := 0x11000008
abbrev ARB_DISPATCH_COUNT : Nat := 0x11000010
abbrev ARB_DROP_COUNT : Nat := 0x11000018
abbrev ARB_EXC_COUNT : Nat := 0x11000020
abbrev ARB_ABANDON_COUNT : Nat := 0x11000028
abbrev ARB_DEADLOCK_COUNT : Nat := 0x11000030
abbrev ARB_ERR_STATUS : Nat := 0x11000100
abbrev ARB_ERR_MASK : Nat := 0x11000108
abbrev ARB_ERR_FIRST : Nat := 0x11000110
abbrev ARB_ERR_COUNT : Nat := 0x11000118
abbrev ARB_CLU_STATE (i : Nat) : Nat := 0x11001000 + 256 * i
abbrev ARB_DL_STATUS (i : Nat) : Nat := 0x11001008 + 256 * i
abbrev ARB_CLU_ISSUES (i : Nat) : Nat := 0x11001010 + 256 * i
abbrev ARB_CLU_WAIT_SLOTS (i : Nat) : Nat := 0x11001018 + 256 * i
abbrev ARB_DBG_CTRL (i : Nat) : Nat := 0x11001020 + 256 * i
abbrev ARB_DBG_SEL (i : Nat) : Nat := 0x11001028 + 256 * i
abbrev ARB_DBG_PC (i : Nat) : Nat := 0x11001030 + 256 * i
abbrev ARB_DBG_GREG (i : Nat) : Nat := 0x11001038 + 256 * i
abbrev ARB_DBG_EMIT (i : Nat) : Nat := 0x11001040 + 256 * i
abbrev ARB_DBG_HALTED (i : Nat) : Nat := 0x11001048 + 256 * i
abbrev ARB_BRK (i j : Nat) : Nat := 0x11001050 + 256 * i + 8 * j
abbrev ARB_GH_SEL (i : Nat) : Nat := 0x11001070 + 256 * i
abbrev ARB_GH_DATA (i : Nat) : Nat := 0x11001078 + 256 * i
abbrev ARB_EXC_LAST (i : Nat) : Nat := 0x11001080 + 256 * i

/-! ACM: 07_classification.md R205 -/
abbrev ACM_VER_STG : Nat := 0x12000000
abbrev ACM_VER_COMMIT : Nat := 0x12000008
abbrev ACM_VER_GEN : Nat := 0x12000010
abbrev ACM_VER_STATUS : Nat := 0x12000018
abbrev ACM_VER_LIVE_TAG : Nat := 0x12000020
abbrev ACM_VER_INFLIGHT (i : Nat) : Nat := 0x12000080 + 8 * i
abbrev ACM_ERR_STATUS : Nat := 0x12000100
abbrev ACM_ERR_MASK : Nat := 0x12000108
abbrev ACM_ERR_FIRST : Nat := 0x12000110
abbrev ACM_ERR_COUNT : Nat := 0x12000118
abbrev ACM_ACT_BUDGET : Nat := 0x12000120
abbrev ACM_SEARCH_COUNT : Nat := 0x12000128
abbrev ACM_MISS_COUNT : Nat := 0x12000130
abbrev ACM_DROP_COUNT : Nat := 0x12000138
abbrev ACM_ODD_DROP : Nat := 0x12000140
abbrev ACM_BUDGET_WAIT : Nat := 0x12000148
abbrev ACM_ENT_ADDR : Nat := 0x12000200
abbrev ACM_ENT_CMD : Nat := 0x12000208
abbrev ACM_ENT_STATUS : Nat := 0x12000210
abbrev ACM_EBUF_VAL (i : Nat) : Nat := 0x12000218 + 8 * i
abbrev ACM_EBUF_MASK (i : Nat) : Nat := 0x12000268 + 8 * i
abbrev ACM_EBUF_CTRL : Nat := 0x120002B8
abbrev ACM_SHIFT_CMD : Nat := 0x12000300
abbrev ACM_SHIFT_STATUS : Nat := 0x12000308
abbrev ACM_ACT_IDX : Nat := 0x12000400
abbrev ACM_ACT_BUF0 : Nat := 0x12000408
abbrev ACM_ACT_BUF1 : Nat := 0x12000410
abbrev ACM_ACT_BUF2 : Nat := 0x12000418
abbrev ACM_ACT_BUF3 : Nat := 0x12000420
abbrev ACM_ACT_CMD : Nat := 0x12000428
abbrev ACM_ACT_PKTS : Nat := 0x12000430
abbrev ACM_ACT_BYTES : Nat := 0x12000438
abbrev ACM_POL_IDX : Nat := 0x12000500
abbrev ACM_POL_CIR : Nat := 0x12000508
abbrev ACM_POL_PIR : Nat := 0x12000510
abbrev ACM_POL_BURST : Nat := 0x12000518
abbrev ACM_POL_MODE : Nat := 0x12000520
abbrev ACM_POL_CMD : Nat := 0x12000528
abbrev ACM_POL_CNT (i : Nat) : Nat := 0x12000530 + 8 * i
abbrev ACM_MIR_SESS (i : Nat) : Nat := 0x12000600 + 8 * i
abbrev ACM_HKEY (i : Nat) : Nat := 0x12000800 + 8 * i
abbrev ACM_PROF_CFG (i : Nat) : Nat := 0x12001000 + 8 * i
abbrev ACM_IND (i : Nat) : Nat := 0x12400000 + 8 * i

/-! EMT: 08_exact_match.md R224 -/
abbrev EMT_DISP_LIMIT : Nat := 0x13000000
abbrev EMT_SCAN_RATE : Nat := 0x13000008
abbrev EMT_NOTIFY_CFG : Nat := 0x13000010
abbrev EMT_REHASH_CFG : Nat := 0x13000018
abbrev EMT_REHASH_REQ : Nat := 0x13000020
abbrev EMT_CACHE_HITS : Nat := 0x13000028
abbrev EMT_CACHE_MISSES : Nat := 0x13000030
abbrev EMT_LEARN_DROP : Nat := 0x13000038
abbrev EMT_TS_DROP : Nat := 0x13000040
abbrev EMT_LOCKED_COUNT : Nat := 0x13000048
abbrev EMT_PARITY_COUNT : Nat := 0x13000050
abbrev EMT_NOTIFY_DROP : Nat := 0x13000058
abbrev EMT_ERR_STATUS : Nat := 0x13000100
abbrev EMT_ERR_MASK : Nat := 0x13000108
abbrev EMT_ERR_FIRST : Nat := 0x13000110
abbrev EMT_ERR_COUNT : Nat := 0x13000118
abbrev EMT_KBUF (i : Nat) : Nat := 0x13000200 + 8 * i
abbrev EMT_CMD_DATA : Nat := 0x13000230
abbrev EMT_CMD : Nat := 0x13000238
abbrev EMT_CMD_LOC : Nat := 0x13000240
abbrev EMT_CMD_STATUS : Nat := 0x13000248
abbrev EMT_CMD_RESULT : Nat := 0x13000250
abbrev EMT_CMD_TIME : Nat := 0x13000258
abbrev EMT_DMA_ADDR : Nat := 0x13000300
abbrev EMT_DMA_FIRST : Nat := 0x13000308
abbrev EMT_DMA_COUNT : Nat := 0x13000310
abbrev EMT_DMA_CMD : Nat := 0x13000318
abbrev EMT_DMA_STATUS : Nat := 0x13000320
abbrev EMT_TBL_CFG (i : Nat) : Nat := 0x13001000 + 128 * i
abbrev EMT_TBL_LEARN (i : Nat) : Nat := 0x13001008 + 128 * i
abbrev EMT_TBL_AGE (i : Nat) : Nat := 0x13001010 + 128 * i
abbrev EMT_TBL_COUNT (i : Nat) : Nat := 0x13001018 + 128 * i
abbrev EMT_TBL_HITS (i : Nat) : Nat := 0x13001020 + 128 * i
abbrev EMT_TBL_MISSES (i : Nat) : Nat := 0x13001028 + 128 * i
abbrev EMT_TBL_FAIL (i : Nat) : Nat := 0x13001030 + 128 * i
abbrev EMT_TBL_GEOM (i : Nat) : Nat := 0x13001038 + 128 * i
abbrev EMT_TBL_REDIR_STG (i : Nat) : Nat := 0x13001040 + 128 * i
abbrev EMT_TBL_REDIR_COMMIT (i : Nat) : Nat := 0x13001048 + 128 * i
abbrev EMT_TBL_REDIR_GEN (i : Nat) : Nat := 0x13001050 + 128 * i
abbrev EMT_TBL_ACTIVE (i : Nat) : Nat := 0x13001058 + 128 * i

/-! SCH: 09_scheduling.md R249 -/
abbrev SCH_NODE_SEL_STG : Nat := 0x14000000
abbrev SCH_NODE_RATE_STG : Nat := 0x14000008
abbrev SCH_NODE_BURST_STG : Nat := 0x14000010
abbrev SCH_NODE_CFG_STG : Nat := 0x14000018
abbrev SCH_NODE_CBS_STG : Nat := 0x14000020
abbrev SCH_NODE_COMMIT : Nat := 0x14000028
abbrev SCH_NODE_GEN : Nat := 0x14000030
abbrev SCH_NODE_VIEW_SEL : Nat := 0x14000038
abbrev SCH_NODE_VIEW_RATE : Nat := 0x14000040
abbrev SCH_NODE_VIEW_BURST : Nat := 0x14000048
abbrev SCH_NODE_VIEW_CFG : Nat := 0x14000050
abbrev SCH_NODE_VIEW_CBS : Nat := 0x14000058
abbrev SCH_NODE_VIEW_CREDIT : Nat := 0x14000060
abbrev SCH_NODE_VIEW_DEPTH : Nat := 0x14000068
abbrev SCH_ERR_STATUS : Nat := 0x14000100
abbrev SCH_ERR_MASK : Nat := 0x14000108
abbrev SCH_ERR_FIRST : Nat := 0x14000110
abbrev SCH_ERR_COUNT : Nat := 0x14000118
abbrev SCH_DST_DROP : Nat := 0x14000120
abbrev SCH_BUF_DROP : Nat := 0x14000128
abbrev SCH_PORT_CFG (i : Nat) : Nat := 0x14001000 + 256 * i
abbrev SCH_PORT_STATUS (i : Nat) : Nat := 0x14001008 + 256 * i
abbrev SCH_GCL_LEN_STG (i : Nat) : Nat := 0x14001010 + 256 * i
abbrev SCH_GCL_BASE_SEC_STG (i : Nat) : Nat := 0x14001018 + 256 * i
abbrev SCH_GCL_BASE_NS_STG (i : Nat) : Nat := 0x14001020 + 256 * i
abbrev SCH_GCL_CYCLE_STG (i : Nat) : Nat := 0x14001028 + 256 * i
abbrev SCH_GCL_EXT_STG (i : Nat) : Nat := 0x14001030 + 256 * i
abbrev SCH_GCL_COMMIT (i : Nat) : Nat := 0x14001038 + 256 * i
abbrev SCH_GCL_GEN (i : Nat) : Nat := 0x14001040 + 256 * i
abbrev SCH_GCL_STATUS (i : Nat) : Nat := 0x14001048 + 256 * i
abbrev SCH_GCL_CHANGE_SEC (i : Nat) : Nat := 0x14001050 + 256 * i
abbrev SCH_GCL_CHANGE_NS (i : Nat) : Nat := 0x14001058 + 256 * i
abbrev SCH_CLS_MAXSDU (i j : Nat) : Nat := 0x14001060 + 256 * i + 8 * j
abbrev SCH_PORT_TX_FRAMES (i : Nat) : Nat := 0x140010A0 + 256 * i
abbrev SCH_PORT_TX_BYTES (i : Nat) : Nat := 0x140010A8 + 256 * i
abbrev SCH_PORT_STOMP (i : Nat) : Nat := 0x140010B0 + 256 * i
abbrev SCH_PORT_UNDERRUN (i : Nat) : Nat := 0x140010B8 + 256 * i
abbrev SCH_PORT_SDU_DROP (i : Nat) : Nat := 0x140010C0 + 256 * i
abbrev SCH_PORT_FLUSH_DROP (i : Nat) : Nat := 0x140010C8 + 256 * i
abbrev SCH_LEAF_LIMIT (i : Nat) : Nat := 0x14100000 + 8 * i
abbrev SCH_LEAF_DROP (i : Nat) : Nat := 0x14180000 + 8 * i
abbrev SCH_GCL_STG (i j : Nat) : Nat := 0x14200000 + 8192 * i + 8 * j
abbrev SCH_GCL_OPER (i j : Nat) : Nat := 0x14300000 + 8192 * i + 8 * j

/-! CPH: 10_cipher.md R273 -/
abbrev CPH_KEY_SEL_STG : Nat := 0x15000000
abbrev CPH_KEY_OP_STG : Nat := 0x15000008
abbrev CPH_KEY_SRC_STG : Nat := 0x15000010
abbrev CPH_KEY_ATTR_STG : Nat := 0x15000018
abbrev CPH_KEY_DATA_STG (i : Nat) : Nat := 0x15000020 + 8 * i
abbrev CPH_KEY_COMMIT : Nat := 0x150000A0
abbrev CPH_KEY_GEN : Nat := 0x150000A8
abbrev CPH_KEY_STATUS : Nat := 0x150000B0
abbrev CPH_ERR_STATUS : Nat := 0x15000100
abbrev CPH_ERR_MASK : Nat := 0x15000108
abbrev CPH_ERR_FIRST : Nat := 0x15000110
abbrev CPH_ERR_COUNT : Nat := 0x15000118
abbrev CPH_AUTH_FAIL : Nat := 0x15000120
abbrev CPH_REPLAY : Nat := 0x15000128
abbrev CPH_PKT_DROP : Nat := 0x15000130
abbrev CPH_MM_CORRECTED : Nat := 0x15000138
abbrev CPH_CACHE_HITS : Nat := 0x15000140
abbrev CPH_CACHE_MISSES : Nat := 0x15000148
abbrev CPH_PINNED : Nat := 0x15000150
abbrev CPH_Q_CFG (i : Nat) : Nat := 0x15001000 + 64 * i
abbrev CPH_Q_NEXT (i : Nat) : Nat := 0x15001008 + 64 * i
abbrev CPH_Q_STATE (i : Nat) : Nat := 0x15001010 + 64 * i
abbrev CPH_Q_REQS (i : Nat) : Nat := 0x15001018 + 64 * i
abbrev CPH_Q_REFUSED (i : Nat) : Nat := 0x15001020 + 64 * i
abbrev CPH_PAIR_STATE (i : Nat) : Nat := 0x15005000 + 64 * i
abbrev CPH_PAIR_CTRL (i : Nat) : Nat := 0x15005008 + 64 * i
abbrev CPH_PAIR_BYTES (i : Nat) : Nat := 0x15005010 + 64 * i
abbrev CPH_PAIR_MM_LAST (i : Nat) : Nat := 0x15005018 + 64 * i

/-! TE: 11_rdma.md R313 -/
abbrev TE_CC_SEL_STG : Nat := 0x16000000
abbrev TE_CC_RATE_STG : Nat := 0x16000008
abbrev TE_CC_TIMER_STG : Nat := 0x16000010
abbrev TE_CC_BYTES_STG : Nat := 0x16000018
abbrev TE_CC_COMMIT : Nat := 0x16000020
abbrev TE_CC_GEN : Nat := 0x16000028
abbrev TE_ERR_STATUS : Nat := 0x16000100
abbrev TE_ERR_MASK : Nat := 0x16000108
abbrev TE_ERR_FIRST : Nat := 0x16000110
abbrev TE_ERR_COUNT : Nat := 0x16000118
abbrev TE_RX_DISCARD : Nat := 0x16000140
abbrev TE_DUP_RX : Nat := 0x16000148
abbrev TE_MP_BEYOND : Nat := 0x16000150
abbrev TE_MP_SNAK_TX : Nat := 0x16000158
abbrev TE_STALE_NAK : Nat := 0x16000160
abbrev TE_KEY_FAIL : Nat := 0x16000168
abbrev TE_CNP_TX : Nat := 0x16000170
abbrev TE_CNP_RX : Nat := 0x16000178
abbrev TE_DB_DISCARD : Nat := 0x16000180
abbrev TE_QP_SEL : Nat := 0x16000200
abbrev TE_QP_VIEW (i : Nat) : Nat := 0x16000208 + 8 * i
abbrev TE_QP_FORCE : Nat := 0x16000308
abbrev TE_ENG_STATE (i : Nat) : Nat := 0x16001000 + 64 * i
abbrev TE_ENG_CACHE_HITS (i : Nat) : Nat := 0x16001008 + 64 * i
abbrev TE_ENG_CACHE_MISSES (i : Nat) : Nat := 0x16001010 + 64 * i
abbrev TE_UC_SRC_ADDR : Nat := 0x16002000
abbrev TE_UC_SRC_LEN : Nat := 0x16002008
abbrev TE_UC_CMD : Nat := 0x16002010
abbrev TE_UC_STATUS : Nat := 0x16002018
abbrev TE_UC_VERSION : Nat := 0x16002020
abbrev TE_UC_ARB : Nat := 0x16002028
abbrev TE_UC_ARB_FLOOR : Nat := 0x16002030
abbrev TE_UC_MEAS (i : Nat) : Nat := 0x16002038 + 8 * i
abbrev TE_UC_ERR_STATUS : Nat := 0x16002068
abbrev TE_UC_ERR_MASK : Nat := 0x16002070
abbrev TE_UC_FAULT_COUNT : Nat := 0x16002078
abbrev TE_UC_CE_COUNT : Nat := 0x16002080

/-! NVE: 13_storage.md R360 -/
abbrev NVE_NS_SEL_STG : Nat := 0x17000000
abbrev NVE_NS_TGT_STG : Nat := 0x17000008
abbrev NVE_NS_BASE_STG : Nat := 0x17000010
abbrev NVE_NS_SIZE_STG : Nat := 0x17000018
abbrev NVE_NS_CFG_STG : Nat := 0x17000020
abbrev NVE_NS_COMMIT : Nat := 0x17000028
abbrev NVE_NS_GEN : Nat := 0x17000030
abbrev NVE_NS_VIEW_SEL : Nat := 0x17000038
abbrev NVE_NS_VIEW_TGT : Nat := 0x17000040
abbrev NVE_NS_VIEW_BASE : Nat := 0x17000048
abbrev NVE_NS_VIEW_SIZE : Nat := 0x17000050
abbrev NVE_NS_VIEW_CFG : Nat := 0x17000058
abbrev NVE_MODE_SEL_STG : Nat := 0x17000060
abbrev NVE_MODE_STG : Nat := 0x17000068
abbrev NVE_MODE_COMMIT : Nat := 0x17000070
abbrev NVE_MODE_GEN : Nat := 0x17000078
abbrev NVE_MODE_VIEW : Nat := 0x17000080
abbrev NVE_BUF_HIWAT : Nat := 0x17000088
abbrev NVE_NOTIFY_CFG : Nat := 0x17000090
abbrev NVE_ERR_STATUS : Nat := 0x17000100
abbrev NVE_ERR_MASK : Nat := 0x17000108
abbrev NVE_ERR_FIRST : Nat := 0x17000110
abbrev NVE_ERR_COUNT : Nat := 0x17000118
abbrev NVE_BUF_FULL : Nat := 0x17000120
abbrev NVE_TGT_ERRORS : Nat := 0x17000128
abbrev NVE_CONN_SEL : Nat := 0x17000200
abbrev NVE_CONN_IMG (i : Nat) : Nat := 0x17000208 + 8 * i
abbrev NVE_CONN_CMD : Nat := 0x17000288
abbrev NVE_CONN_STATUS : Nat := 0x17000290

/-! HIF: 14_host_queues.md+15_pcie_endpoint.md R389/R426 -/
abbrev HIF_ERR_STATUS : Nat := 0x18000100
abbrev HIF_ERR_MASK : Nat := 0x18000108
abbrev HIF_ERR_FIRST : Nat := 0x18000110
abbrev HIF_ERR_COUNT : Nat := 0x18000118
abbrev HIF_PRE_READY_DROP : Nat := 0x18000200
abbrev HIF_UR_COUNT : Nat := 0x18000208
abbrev HIF_CPL_TIMEOUT_COUNT : Nat := 0x18000210
abbrev HIF_UNEXP_CPL_COUNT : Nat := 0x18000218
abbrev HIF_ATW_MISS_COUNT : Nat := 0x18000220
abbrev HIF_POISON_RX_COUNT : Nat := 0x18000228
abbrev HIF_IDE_FAIL_COUNT : Nat := 0x18000230
abbrev HIF_Q_SEL : Nat := 0x18000400
abbrev HIF_Q_VIEW (i : Nat) : Nat := 0x18000408 + 8 * i
abbrev HIF_Q_FORCE : Nat := 0x18000448
abbrev HIF_Q_ENABLED : Nat := 0x18000450
abbrev HIF_RX_DISCARD : Nat := 0x18000458
abbrev HIF_CMD_REFUSED : Nat := 0x18000460
abbrev HIF_ARB_FRAMES : Nat := 0x18000468
abbrev HIF_PORT_STATUS (i : Nat) : Nat := 0x18000800 + 256 * i
abbrev HIF_PORT_PM (i : Nat) : Nat := 0x18000808 + 256 * i
abbrev HIF_PORT_L0P (i : Nat) : Nat := 0x18000810 + 256 * i
abbrev HIF_PORT_QUAR_TAGS (i : Nat) : Nat := 0x18000818 + 256 * i
abbrev HIF_PORT_LINK_DOWN (i : Nat) : Nat := 0x18000820 + 256 * i
abbrev HIF_ATW_COMMIT (i : Nat) : Nat := 0x18001000 + 64 * i
abbrev HIF_ATW_GEN (i : Nat) : Nat := 0x18001008 + 64 * i
abbrev HIF_ATW_STATUS (i : Nat) : Nat := 0x18001010 + 64 * i
abbrev HIF_ATW_STG_A (i j : Nat) : Nat := 0x18100000 + 4096 * i + 16 * j
abbrev HIF_ATW_STG_B (i j : Nat) : Nat := 0x18100008 + 4096 * i + 16 * j
abbrev HIF_ATW_LIVE_A (i j : Nat) : Nat := 0x18140000 + 4096 * i + 16 * j
abbrev HIF_ATW_LIVE_B (i j : Nat) : Nat := 0x18140008 + 4096 * i + 16 * j

/-! APC: 16_cores_memory.md R450 -/
abbrev APC_HART_ONLINE0 : Nat := 0x1A000000
abbrev APC_HART_ONLINE1 : Nat := 0x1A000008
abbrev APC_CE_COUNT : Nat := 0x1A000010
abbrev APC_ERR_STATUS : Nat := 0x1A000100
abbrev APC_ERR_MASK : Nat := 0x1A000108
abbrev APC_ERR_FIRST : Nat := 0x1A000110
abbrev APC_ERR_COUNT : Nat := 0x1A000118
abbrev APC_TQ_DROP (i : Nat) : Nat := 0x1A000200 + 8 * i
abbrev APC_RX_BASE (i j : Nat) : Nat := 0x1A001000 + 4096 * i + 32 * j
abbrev APC_RX_CFG (i j : Nat) : Nat := 0x1A001008 + 4096 * i + 32 * j
abbrev APC_RX_PI (i j : Nat) : Nat := 0x1A001010 + 4096 * i + 32 * j
abbrev APC_RX_CI (i j : Nat) : Nat := 0x1A001018 + 4096 * i + 32 * j
abbrev APC_TX_BASE (i j : Nat) : Nat := 0x1A001800 + 4096 * i + 32 * j
abbrev APC_TX_CFG (i j : Nat) : Nat := 0x1A001808 + 4096 * i + 32 * j
abbrev APC_TX_PI (i j : Nat) : Nat := 0x1A001810 + 4096 * i + 32 * j
abbrev APC_TX_CI (i j : Nat) : Nat := 0x1A001818 + 4096 * i + 32 * j

/-! MEM: 16_cores_memory.md R451 -/
abbrev MEM_SCRUB_CFG : Nat := 0x19000000
abbrev MEM_CE_THRESH : Nat := 0x19000008
abbrev MEM_DDR_INFO : Nat := 0x19000010
abbrev MEM_ZERO_PENDING : Nat := 0x19000018
abbrev MEM_PART_VIOL : Nat := 0x19000020
abbrev MEM_UE_COUNT : Nat := 0x19000028
abbrev MEM_CH_SEL : Nat := 0x19000030
abbrev MEM_CH_CE : Nat := 0x19000038
abbrev MEM_PART_SEL : Nat := 0x19000040
abbrev MEM_PART_VIEW (i : Nat) : Nat := 0x19000048 + 8 * i
abbrev MEM_ERR_STATUS : Nat := 0x19000100
abbrev MEM_ERR_MASK : Nat := 0x19000108
abbrev MEM_ERR_FIRST : Nat := 0x19000110
abbrev MEM_ERR_COUNT : Nat := 0x19000118
abbrev MEM_IOMMU_CAPS : Nat := 0x19010000
abbrev MEM_IOMMU_FCTL : Nat := 0x19010008
abbrev MEM_IOMMU_DDTP : Nat := 0x19010010
abbrev MEM_IOMMU_CQB : Nat := 0x19010018
abbrev MEM_IOMMU_CQP : Nat := 0x19010020
abbrev MEM_IOMMU_FQB : Nat := 0x19010028
abbrev MEM_IOMMU_FQP : Nat := 0x19010030
abbrev MEM_IOMMU_CSR : Nat := 0x19010048
abbrev MEM_IOMMU_IPSR : Nat := 0x19010050
abbrev MEM_IOMMU_ICVEC : Nat := 0x190102F8
abbrev MEM_IOMMU_MSI_ADDR (i : Nat) : Nat := 0x19010300 + 16 * i
abbrev MEM_IOMMU_MSI_DATA (i : Nat) : Nat := 0x19010308 + 16 * i

/-! TB: 17_timebase.md R473 -/
abbrev TB_CLK_CFG : Nat := 0x03000000
abbrev TB_CLK_STATUS : Nat := 0x03000008
abbrev TB_ADJ_SEL_STG : Nat := 0x03000010
abbrev TB_ADJ_OP_STG : Nat := 0x03000018
abbrev TB_ADJ_SEC_STG : Nat := 0x03000020
abbrev TB_ADJ_NS_STG : Nat := 0x03000028
abbrev TB_ADJ_OFFSET_STG : Nat := 0x03000030
abbrev TB_ADJ_RATE_STG : Nat := 0x03000038
abbrev TB_ADJ_SLEW_STG : Nat := 0x03000040
abbrev TB_COMMIT : Nat := 0x03000048
abbrev TB_GEN : Nat := 0x03000050
abbrev TB_SNAP_CMD : Nat := 0x03000058
abbrev TB_SNAP_MTIME : Nat := 0x03000060
abbrev TB_PPSIN_STATUS : Nat := 0x03000068
abbrev TB_PPSIN_DELAY : Nat := 0x03000070
abbrev TB_PPSOUT_CFG : Nat := 0x03000078
abbrev TB_PPSOUT_DELAY : Nat := 0x03000080
abbrev TB_TXTS_COUNT : Nat := 0x03000088
abbrev TB_TXTS_DROP : Nat := 0x03000090
abbrev TB_ONESTEP_COUNT : Nat := 0x03000098
abbrev TB_ERR_STATUS : Nat := 0x03000100
abbrev TB_ERR_MASK : Nat := 0x03000108
abbrev TB_ERR_FIRST : Nat := 0x03000110
abbrev TB_ERR_COUNT : Nat := 0x03000118
abbrev TB_STATUS (i : Nat) : Nat := 0x03000200 + 64 * i
abbrev TB_RATE (i : Nat) : Nat := 0x03000208 + 64 * i
abbrev TB_SLEW_LEFT (i : Nat) : Nat := 0x03000210 + 64 * i
abbrev TB_SNAP_SEC (i : Nat) : Nat := 0x03000218 + 64 * i
abbrev TB_SNAP_NS (i : Nat) : Nat := 0x03000220 + 64 * i
abbrev TB_PPSIN_SEC (i : Nat) : Nat := 0x03000228 + 64 * i
abbrev TB_PPSIN_NS (i : Nat) : Nat := 0x03000230 + 64 * i
abbrev TB_PORT_CFG (i : Nat) : Nat := 0x03000400 + 32 * i
abbrev TB_LANE_RX_TRIM (i : Nat) : Nat := 0x03000800 + 32 * i
abbrev TB_LANE_TX_TRIM (i : Nat) : Nat := 0x03000808 + 32 * i
abbrev TB_LANE_CAL (i : Nat) : Nat := 0x03000810 + 32 * i

/-! PWR: 18_power_ageing.md R500 -/
abbrev PWR_OP_SEL_STG : Nat := 0x01000000
abbrev PWR_OP_MV_STG : Nat := 0x01000008
abbrev PWR_OP_MHZ_STG : Nat := 0x01000010
abbrev PWR_OP_COMMIT : Nat := 0x01000018
abbrev PWR_OP_GEN : Nat := 0x01000020
abbrev PWR_OP_STATUS : Nat := 0x01000028
abbrev PWR_NIGHT_CMD : Nat := 0x01000030
abbrev PWR_NIGHT_CFG : Nat := 0x01000038
abbrev PWR_NIGHT_ALARM : Nat := 0x01000040
abbrev PWR_NIGHT_LIMIT : Nat := 0x01000048
abbrev PWR_THERM_CFG : Nat := 0x01000050
abbrev PWR_TEMP : Nat := 0x01000058
abbrev PWR_RESET_CAUSE : Nat := 0x01000060
abbrev PWR_HOLD_COUNT : Nat := 0x01000068
abbrev PWR_HOLD_MAX_US : Nat := 0x01000070
abbrev PWR_HART_CTRL : Nat := 0x01000078
abbrev PWR_HART_ENTRY : Nat := 0x01000080
abbrev PWR_TILE_SEL : Nat := 0x01000088
abbrev PWR_TILE_STATE : Nat := 0x01000090
abbrev PWR_ERR_STATUS : Nat := 0x01000100
abbrev PWR_ERR_MASK : Nat := 0x01000108
abbrev PWR_ERR_FIRST : Nat := 0x01000110
abbrev PWR_ERR_COUNT : Nat := 0x01000118
abbrev PWR_DOM_STATUS (i : Nat) : Nat := 0x01000200 + 32 * i

/-! SDL: 18_power_ageing.md R501 -/
abbrev SDL_REPLAN_CFG : Nat := 0x02000000
abbrev SDL_OP_HOURS : Nat := 0x02000008
abbrev SDL_REPLAN_DUE_AT : Nat := 0x02000010
abbrev SDL_REPLAN_DONE : Nat := 0x02000018
abbrev SDL_SAMPLE_CFG : Nat := 0x02000020
abbrev SDL_THRESH : Nat := 0x02000028
abbrev SDL_SENS_SEL : Nat := 0x02000030
abbrev SDL_SENS_DATA : Nat := 0x02000038
abbrev SDL_DOM_SUMMARY (i : Nat) : Nat := 0x02000040 + 8 * i
abbrev SDL_ERR_STATUS : Nat := 0x02000100
abbrev SDL_ERR_MASK : Nat := 0x02000108
abbrev SDL_ERR_FIRST : Nat := 0x02000110
abbrev SDL_ERR_COUNT : Nat := 0x02000118

/-! BOOT: 19_boot.md R527 -/
abbrev BOOT_STATUS : Nat := 0x00000000
abbrev BOOT_CMD : Nat := 0x00000008
abbrev BOOT_CMD_STATUS : Nat := 0x00000010
abbrev BOOT_IMG_BASE : Nat := 0x00000018
abbrev BOOT_IMG_LEN : Nat := 0x00000020
abbrev BOOT_SEQ : Nat := 0x00000028
abbrev BOOT_IMG_ARB : Nat := 0x00000030
abbrev BOOT_ARB_FLOOR : Nat := 0x00000038
abbrev BOOT_MEAS (i : Nat) : Nat := 0x00000040 + 8 * i
abbrev BOOT_STAGE2_LIMIT : Nat := 0x00000070
abbrev BOOT_SLOT_STATE : Nat := 0x00000078
abbrev BOOT_SLOTA_SEQ : Nat := 0x00000080
abbrev BOOT_SLOTB_SEQ : Nat := 0x00000088
abbrev BOOT_ERR_STATUS : Nat := 0x00000100
abbrev BOOT_ERR_MASK : Nat := 0x00000108
abbrev BOOT_ERR_FIRST : Nat := 0x00000110
abbrev BOOT_ERR_COUNT : Nat := 0x00000118
abbrev BOOT_XSPI_ADDR : Nat := 0x00000200
abbrev BOOT_XSPI_LEN : Nat := 0x00000208
abbrev BOOT_XSPI_BUF : Nat := 0x00000210
abbrev BOOT_XSPI_CMD : Nat := 0x00000218
abbrev BOOT_XSPI_STATUS : Nat := 0x00000220

/-! WKT: 20_security.md R546 -/
abbrev WKT_LIFECYCLE : Nat := 0x04000000
abbrev WKT_UID (i : Nat) : Nat := 0x04000008 + 8 * i
abbrev WKT_EPOCH (i : Nat) : Nat := 0x04000018 + 8 * i
abbrev WKT_CHAL_CMD : Nat := 0x04000028
abbrev WKT_CHAL (i : Nat) : Nat := 0x04000030 + 8 * i
abbrev WKT_TOKEN_SRC : Nat := 0x04000060
abbrev WKT_TOKEN_CMD : Nat := 0x04000068
abbrev WKT_TOKEN_STATUS : Nat := 0x04000070
abbrev WKT_ARB_CMD : Nat := 0x04000078
abbrev WKT_ARB_USED : Nat := 0x04000080
abbrev WKT_BANK_STATUS : Nat := 0x04000088
abbrev WKT_S2_MEAS (i : Nat) : Nat := 0x04000090 + 8 * i
abbrev WKT_ERR_STATUS : Nat := 0x04000100
abbrev WKT_ERR_MASK : Nat := 0x04000108
abbrev WKT_ERR_FIRST : Nat := 0x04000110
abbrev WKT_ERR_COUNT : Nat := 0x04000118

/-! FLT: 21_reliability.md R559 -/
abbrev FLT_SUMMARY : Nat := 0x05000000
abbrev FLT_MSIX : Nat := 0x05000008
abbrev FLT_APLIC_EN : Nat := 0x05000010
abbrev FLT_CMD_TIMEOUT : Nat := 0x05000018
abbrev FLT_RETIRE_CFG : Nat := 0x05000020
abbrev FLT_INTR_MAX_US : Nat := 0x05000028
abbrev FLT_INTR_TOTAL_US : Nat := 0x05000030
abbrev FLT_INTR_EVENTS : Nat := 0x05000038
abbrev FLT_LATE_CPL : Nat := 0x05000040
abbrev FLT_COPY_REPAIR : Nat := 0x05000048
abbrev FLT_TILE_SEL : Nat := 0x05000050
abbrev FLT_TILE_INFO : Nat := 0x05000058
abbrev FLT_ERR_STATUS : Nat := 0x05000100
abbrev FLT_ERR_MASK : Nat := 0x05000108
abbrev FLT_ERR_FIRST : Nat := 0x05000110
abbrev FLT_ERR_COUNT : Nat := 0x05000118

end R

namespace F
abbrev SITE_SRC_ADDR_STG_ADDR : Fld := ⟨R.SITE_SRC_ADDR_STG, 63, 0⟩
abbrev SITE_SRC_LEN_STG_LEN : Fld := ⟨R.SITE_SRC_LEN_STG, 31, 0⟩
abbrev SITE_SRC_CFG_STG_HOST : Fld := ⟨R.SITE_SRC_CFG_STG, 0, 0⟩
abbrev SITE_COMMIT_PENDING : Fld := ⟨R.SITE_COMMIT, 2, 2⟩
abbrev SITE_COMMIT_CANCEL : Fld := ⟨R.SITE_COMMIT, 1, 1⟩
abbrev SITE_COMMIT_GO : Fld := ⟨R.SITE_COMMIT, 0, 0⟩
abbrev SITE_GEN_GEN : Fld := ⟨R.SITE_GEN, 31, 0⟩
abbrev SITE_STATUS_RESULT : Fld := ⟨R.SITE_STATUS, 23, 16⟩
abbrev SITE_STATUS_MLDSA_FAIL : Fld := ⟨R.SITE_STATUS, 15, 15⟩
abbrev SITE_STATUS_EC_FAIL : Fld := ⟨R.SITE_STATUS, 14, 14⟩
abbrev SITE_STATUS_PHASE : Fld := ⟨R.SITE_STATUS, 3, 0⟩
abbrev SITE_LIVE_SEQ_SEQ : Fld := ⟨R.SITE_LIVE_SEQ, 63, 0⟩
abbrev SITE_LIVE_ARB_ARB : Fld := ⟨R.SITE_LIVE_ARB, 31, 0⟩
abbrev SITE_ARB_FLOOR_FLOOR : Fld := ⟨R.SITE_ARB_FLOOR, 31, 0⟩
abbrev SITE_LIVE_DIGEST_DIGEST (i : Nat) : Fld := ⟨R.SITE_LIVE_DIGEST i, 63, 0⟩
abbrev SITE_QUIESCE_LIMIT_LIMIT_US : Fld := ⟨R.SITE_QUIESCE_LIMIT, 31, 0⟩
abbrev SITE_DRAIN_LIMIT_LIMIT_US : Fld := ⟨R.SITE_DRAIN_LIMIT, 31, 0⟩
abbrev SITE_DRAIN_DISCARD_COUNT : Fld := ⟨R.SITE_DRAIN_DISCARD, 31, 0⟩
abbrev SITE_SEC_SEL_TYPE : Fld := ⟨R.SITE_SEC_SEL, 15, 8⟩
abbrev SITE_SEC_SEL_INSTANCE : Fld := ⟨R.SITE_SEC_SEL, 7, 0⟩
abbrev SITE_SEC_INFO_PRESENT : Fld := ⟨R.SITE_SEC_INFO, 63, 63⟩
abbrev SITE_SEC_INFO_LAYOUT_VER : Fld := ⟨R.SITE_SEC_INFO, 47, 32⟩
abbrev SITE_SEC_INFO_BODY_LEN : Fld := ⟨R.SITE_SEC_INFO, 31, 0⟩
abbrev SITE_SEC_DIGEST_DIGEST (i : Nat) : Fld := ⟨R.SITE_SEC_DIGEST i, 63, 0⟩
abbrev SITE_ERR_STATUS_CANCELLED : Fld := ⟨R.SITE_ERR_STATUS, 3, 3⟩
abbrev SITE_ERR_STATUS_DISCARD : Fld := ⟨R.SITE_ERR_STATUS, 2, 2⟩
abbrev SITE_ERR_STATUS_TIMEOUT : Fld := ⟨R.SITE_ERR_STATUS, 1, 1⟩
abbrev SITE_ERR_STATUS_REJECT : Fld := ⟨R.SITE_ERR_STATUS, 0, 0⟩
abbrev SITE_ERR_MASK_MASK : Fld := ⟨R.SITE_ERR_MASK, 3, 0⟩
abbrev SITE_ERR_FIRST_VALID : Fld := ⟨R.SITE_ERR_FIRST, 63, 63⟩
abbrev SITE_ERR_FIRST_FC : Fld := ⟨R.SITE_ERR_FIRST, 55, 40⟩
abbrev SITE_ERR_FIRST_TYPE : Fld := ⟨R.SITE_ERR_FIRST, 39, 32⟩
abbrev SITE_ERR_FIRST_INSTANCE : Fld := ⟨R.SITE_ERR_FIRST, 31, 24⟩
abbrev SITE_ERR_FIRST_OFFSET : Fld := ⟨R.SITE_ERR_FIRST, 23, 0⟩
abbrev SITE_ERR_COUNT_COUNT : Fld := ⟨R.SITE_ERR_COUNT, 31, 0⟩
abbrev PRM_STALL_LIMIT_LIMIT_US : Fld := ⟨R.PRM_STALL_LIMIT, 23, 0⟩
abbrev PRM_TRACE_CFG_EN : Fld := ⟨R.PRM_TRACE_CFG, 16, 16⟩
abbrev PRM_TRACE_CFG_EP : Fld := ⟨R.PRM_TRACE_CFG, 15, 0⟩
abbrev PRM_INJ_REFUSE_COUNT : Fld := ⟨R.PRM_INJ_REFUSE, 31, 0⟩
abbrev PRM_TD_REFUSE_COUNT : Fld := ⟨R.PRM_TD_REFUSE, 31, 0⟩
abbrev PRM_ABORT_COUNT_COUNT : Fld := ⟨R.PRM_ABORT_COUNT, 31, 0⟩
abbrev PRM_WAKE_COUNT_COUNT : Fld := ⟨R.PRM_WAKE_COUNT, 31, 0⟩
abbrev PRM_TRACE_DROP_COUNT : Fld := ⟨R.PRM_TRACE_DROP, 31, 0⟩
abbrev PRM_ECC_CORR_COUNT : Fld := ⟨R.PRM_ECC_CORR, 31, 0⟩
abbrev PRM_LINK_SEL_STATION : Fld := ⟨R.PRM_LINK_SEL, 11, 2⟩
abbrev PRM_LINK_SEL_DIR : Fld := ⟨R.PRM_LINK_SEL, 1, 0⟩
abbrev PRM_LINK_FLITS_FLITS : Fld := ⟨R.PRM_LINK_FLITS, 63, 0⟩
abbrev PRM_IBUF_OCC_PEAK : Fld := ⟨R.PRM_IBUF_OCC, 48, 32⟩
abbrev PRM_IBUF_OCC_CUR : Fld := ⟨R.PRM_IBUF_OCC, 16, 0⟩
abbrev PRM_ERR_STATUS_HEAD_UE : Fld := ⟨R.PRM_ERR_STATUS, 6, 6⟩
abbrev PRM_ERR_STATUS_EJECT : Fld := ⟨R.PRM_ERR_STATUS, 5, 5⟩
abbrev PRM_ERR_STATUS_LENGTH : Fld := ⟨R.PRM_ERR_STATUS, 4, 4⟩
abbrev PRM_ERR_STATUS_STALL : Fld := ⟨R.PRM_ERR_STATUS, 3, 3⟩
abbrev PRM_ERR_STATUS_TD : Fld := ⟨R.PRM_ERR_STATUS, 2, 2⟩
abbrev PRM_ERR_STATUS_NOEP : Fld := ⟨R.PRM_ERR_STATUS, 1, 1⟩
abbrev PRM_ERR_STATUS_FORMAT : Fld := ⟨R.PRM_ERR_STATUS, 0, 0⟩
abbrev PRM_ERR_MASK_MASK : Fld := ⟨R.PRM_ERR_MASK, 6, 0⟩
abbrev PRM_ERR_FIRST_VALID : Fld := ⟨R.PRM_ERR_FIRST, 63, 63⟩
abbrev PRM_ERR_FIRST_FC : Fld := ⟨R.PRM_ERR_FIRST, 47, 32⟩
abbrev PRM_ERR_FIRST_SRC_EP : Fld := ⟨R.PRM_ERR_FIRST, 31, 16⟩
abbrev PRM_ERR_FIRST_DST_EP : Fld := ⟨R.PRM_ERR_FIRST, 15, 0⟩
abbrev PRM_ERR_COUNT_COUNT : Fld := ⟨R.PRM_ERR_COUNT, 31, 0⟩
abbrev ETH_ERR_FIRST_VALID : Fld := ⟨R.ETH_ERR_FIRST, 63, 63⟩
abbrev ETH_ERR_FIRST_FC : Fld := ⟨R.ETH_ERR_FIRST, 55, 40⟩
abbrev ETH_ERR_COUNT_COUNT : Fld := ⟨R.ETH_ERR_COUNT, 31, 0⟩
abbrev ETH_PFC_CFG_GLOBAL_XOFF_KIB : Fld := ⟨R.ETH_PFC_CFG, 48, 32⟩
abbrev ETH_PFC_CFG_DEFAULT_PCP : Fld := ⟨R.ETH_PFC_CFG, 18, 16⟩
abbrev ETH_PFC_CFG_PAUSE_QUANTA : Fld := ⟨R.ETH_PFC_CFG, 15, 0⟩
abbrev ETH_PFC_THR_EN (i : Nat) : Fld := ⟨R.ETH_PFC_THR i, 63, 63⟩
abbrev ETH_PFC_THR_XOFF_KIB (i : Nat) : Fld := ⟨R.ETH_PFC_THR i, 48, 32⟩
abbrev ETH_PFC_THR_XON_KIB (i : Nat) : Fld := ⟨R.ETH_PFC_THR i, 16, 0⟩
abbrev ETH_LINK_CTRL_EN (i : Nat) : Fld := ⟨R.ETH_LINK_CTRL i, 0, 0⟩
abbrev ETH_RX_CFG_MAX_FRAME (i : Nat) : Fld := ⟨R.ETH_RX_CFG i, 29, 16⟩
abbrev ETH_RX_CFG_UC_FILTER (i : Nat) : Fld := ⟨R.ETH_RX_CFG i, 0, 0⟩
abbrev ETH_MAC_ADDR_ADDR (i : Nat) : Fld := ⟨R.ETH_MAC_ADDR i, 47, 0⟩
abbrev ETH_LINK_STATUS_TRAINING (i : Nat) : Fld := ⟨R.ETH_LINK_STATUS i, 1, 1⟩
abbrev ETH_LINK_STATUS_UP (i : Nat) : Fld := ⟨R.ETH_LINK_STATUS i, 0, 0⟩
abbrev ETH_RX_ABORT_COUNT (i : Nat) : Fld := ⟨R.ETH_RX_ABORT i, 31, 0⟩
abbrev ETH_RX_BAD_COUNT (i : Nat) : Fld := ⟨R.ETH_RX_BAD i, 31, 0⟩
abbrev ETH_RX_OVERSIZE_COUNT (i : Nat) : Fld := ⟨R.ETH_RX_OVERSIZE i, 31, 0⟩
abbrev ETH_RX_FILTERED_COUNT (i : Nat) : Fld := ⟨R.ETH_RX_FILTERED i, 31, 0⟩
abbrev ETH_RX_NOBUF_COUNT (i : Nat) : Fld := ⟨R.ETH_RX_NOBUF i, 31, 0⟩
abbrev ETH_TX_ABORT_COUNT (i : Nat) : Fld := ⟨R.ETH_TX_ABORT i, 31, 0⟩
abbrev PAV_CMD_ARG0_ADDR : Fld := ⟨R.PAV_CMD_ARG0, 63, 0⟩
abbrev PAV_CMD_ARG1_LEN : Fld := ⟨R.PAV_CMD_ARG1, 31, 0⟩
abbrev PAV_CMD_GRACE_US : Fld := ⟨R.PAV_CMD, 47, 32⟩
abbrev PAV_CMD_GROUP : Fld := ⟨R.PAV_CMD, 13, 8⟩
abbrev PAV_CMD_SRC : Fld := ⟨R.PAV_CMD, 4, 4⟩
abbrev PAV_CMD_OP : Fld := ⟨R.PAV_CMD, 3, 0⟩
abbrev PAV_CMD_STATUS_LAST_RESULT : Fld := ⟨R.PAV_CMD_STATUS, 23, 16⟩
abbrev PAV_CMD_STATUS_LAST_GROUP : Fld := ⟨R.PAV_CMD_STATUS, 13, 8⟩
abbrev PAV_CMD_STATUS_LAST_OP : Fld := ⟨R.PAV_CMD_STATUS, 3, 0⟩
abbrev PAV_FENCE_POLICY_TENANT_RELEASE : Fld := ⟨R.PAV_FENCE_POLICY, 8, 8⟩
abbrev PAV_FENCE_POLICY_REG : Fld := ⟨R.PAV_FENCE_POLICY, 4, 4⟩
abbrev PAV_FENCE_POLICY_HBM : Fld := ⟨R.PAV_FENCE_POLICY, 3, 3⟩
abbrev PAV_FENCE_POLICY_LEN : Fld := ⟨R.PAV_FENCE_POLICY, 2, 2⟩
abbrev PAV_FENCE_POLICY_STALL : Fld := ⟨R.PAV_FENCE_POLICY, 1, 1⟩
abbrev PAV_FENCE_POLICY_INJ : Fld := ⟨R.PAV_FENCE_POLICY, 0, 0⟩
abbrev PAV_REG_TIMEOUT_TIMEOUT_US : Fld := ⟨R.PAV_REG_TIMEOUT, 9, 0⟩
abbrev PAV_DONE_DONE : Fld := ⟨R.PAV_DONE, 63, 0⟩
abbrev PAV_DONE_MASK_MASK : Fld := ⟨R.PAV_DONE_MASK, 63, 0⟩
abbrev PAV_LOAD_COUNT_COUNT : Fld := ⟨R.PAV_LOAD_COUNT, 31, 0⟩
abbrev PAV_VIOL_COUNT_COUNT : Fld := ⟨R.PAV_VIOL_COUNT, 31, 0⟩
abbrev PAV_WIN_DROP_COUNT : Fld := ⟨R.PAV_WIN_DROP, 31, 0⟩
abbrev PAV_ERR_STATUS_SCRUB_FAIL : Fld := ⟨R.PAV_ERR_STATUS, 5, 5⟩
abbrev PAV_ERR_STATUS_UPSET_CE : Fld := ⟨R.PAV_ERR_STATUS, 4, 4⟩
abbrev PAV_ERR_STATUS_UPSET_UE : Fld := ⟨R.PAV_ERR_STATUS, 3, 3⟩
abbrev PAV_ERR_STATUS_FENCE : Fld := ⟨R.PAV_ERR_STATUS, 2, 2⟩
abbrev PAV_ERR_STATUS_VIOL : Fld := ⟨R.PAV_ERR_STATUS, 1, 1⟩
abbrev PAV_ERR_STATUS_LOAD_FAIL : Fld := ⟨R.PAV_ERR_STATUS, 0, 0⟩
abbrev PAV_ERR_MASK_MASK : Fld := ⟨R.PAV_ERR_MASK, 5, 0⟩
abbrev PAV_ERR_FIRST_VALID : Fld := ⟨R.PAV_ERR_FIRST, 63, 63⟩
abbrev PAV_ERR_FIRST_FC : Fld := ⟨R.PAV_ERR_FIRST, 55, 40⟩
abbrev PAV_ERR_FIRST_GROUP : Fld := ⟨R.PAV_ERR_FIRST, 5, 0⟩
abbrev PAV_ERR_COUNT_COUNT : Fld := ⟨R.PAV_ERR_COUNT, 31, 0⟩
abbrev PAV_GRP_STATE_VIOL (i : Nat) : Fld := ⟨R.PAV_GRP_STATE i, 47, 40⟩
abbrev PAV_GRP_STATE_RESULT (i : Nat) : Fld := ⟨R.PAV_GRP_STATE i, 39, 32⟩
abbrev PAV_GRP_STATE_LOAD_TD (i : Nat) : Fld := ⟨R.PAV_GRP_STATE i, 27, 16⟩
abbrev PAV_GRP_STATE_SIZE_LOG2 (i : Nat) : Fld := ⟨R.PAV_GRP_STATE i, 10, 8⟩
abbrev PAV_GRP_STATE_SLEEP (i : Nat) : Fld := ⟨R.PAV_GRP_STATE i, 3, 3⟩
abbrev PAV_GRP_STATE_STATE (i : Nat) : Fld := ⟨R.PAV_GRP_STATE i, 2, 0⟩
abbrev PAV_GRP_CLKCAP_MAX_MHZ (i : Nat) : Fld := ⟨R.PAV_GRP_CLKCAP i, 9, 0⟩
abbrev PAV_GRP_STREAM_ID_STREAM_ID (i : Nat) : Fld := ⟨R.PAV_GRP_STREAM_ID i, 63, 0⟩
abbrev PAV_GRP_MEAS_MEAS (i j : Nat) : Fld := ⟨R.PAV_GRP_MEAS i j, 63, 0⟩
abbrev ARB_INIT_LIMIT_LIMIT_US : Fld := ⟨R.ARB_INIT_LIMIT, 19, 0⟩
abbrev ARB_RUN_LIMIT_SLOTS : Fld := ⟨R.ARB_RUN_LIMIT, 23, 0⟩
abbrev ARB_DISPATCH_COUNT_COUNT : Fld := ⟨R.ARB_DISPATCH_COUNT, 63, 0⟩
abbrev ARB_DROP_COUNT_COUNT : Fld := ⟨R.ARB_DROP_COUNT, 31, 0⟩
abbrev ARB_EXC_COUNT_COUNT : Fld := ⟨R.ARB_EXC_COUNT, 31, 0⟩
abbrev ARB_ABANDON_COUNT_COUNT : Fld := ⟨R.ARB_ABANDON_COUNT, 31, 0⟩
abbrev ARB_DEADLOCK_COUNT_COUNT : Fld := ⟨R.ARB_DEADLOCK_COUNT, 31, 0⟩
abbrev ARB_ERR_STATUS_DBG_OP : Fld := ⟨R.ARB_ERR_STATUS, 9, 9⟩
abbrev ARB_ERR_STATUS_ABANDON : Fld := ⟨R.ARB_ERR_STATUS, 8, 8⟩
abbrev ARB_ERR_STATUS_RUN_LIMIT : Fld := ⟨R.ARB_ERR_STATUS, 7, 7⟩
abbrev ARB_ERR_STATUS_MEM_UE : Fld := ⟨R.ARB_ERR_STATUS, 6, 6⟩
abbrev ARB_ERR_STATUS_INIT : Fld := ⟨R.ARB_ERR_STATUS, 5, 5⟩
abbrev ARB_ERR_STATUS_EXC : Fld := ⟨R.ARB_ERR_STATUS, 4, 4⟩
abbrev ARB_ERR_STATUS_UNLOCK : Fld := ⟨R.ARB_ERR_STATUS, 3, 3⟩
abbrev ARB_ERR_STATUS_LOCK_AT_END : Fld := ⟨R.ARB_ERR_STATUS, 2, 2⟩
abbrev ARB_ERR_STATUS_HALT_HOLD : Fld := ⟨R.ARB_ERR_STATUS, 1, 1⟩
abbrev ARB_ERR_STATUS_DEADLOCK : Fld := ⟨R.ARB_ERR_STATUS, 0, 0⟩
abbrev ARB_ERR_MASK_MASK : Fld := ⟨R.ARB_ERR_MASK, 9, 0⟩
abbrev ARB_ERR_FIRST_VALID : Fld := ⟨R.ARB_ERR_FIRST, 63, 63⟩
abbrev ARB_ERR_FIRST_FC : Fld := ⟨R.ARB_ERR_FIRST, 55, 40⟩
abbrev ARB_ERR_FIRST_CLUSTER : Fld := ⟨R.ARB_ERR_FIRST, 36, 32⟩
abbrev ARB_ERR_FIRST_THREAD : Fld := ⟨R.ARB_ERR_FIRST, 29, 24⟩
abbrev ARB_ERR_FIRST_SET : Fld := ⟨R.ARB_ERR_FIRST, 21, 14⟩
abbrev ARB_ERR_FIRST_PC : Fld := ⟨R.ARB_ERR_FIRST, 13, 0⟩
abbrev ARB_ERR_COUNT_COUNT : Fld := ⟨R.ARB_ERR_COUNT, 31, 0⟩
abbrev ARB_CLU_STATE_PARKED (i : Nat) : Fld := ⟨R.ARB_CLU_STATE i, 30, 24⟩
abbrev ARB_CLU_STATE_HALTED (i : Nat) : Fld := ⟨R.ARB_CLU_STATE i, 22, 16⟩
abbrev ARB_CLU_STATE_BUSY (i : Nat) : Fld := ⟨R.ARB_CLU_STATE i, 14, 8⟩
abbrev ARB_CLU_STATE_STATE (i : Nat) : Fld := ⟨R.ARB_CLU_STATE i, 1, 0⟩
abbrev ARB_DL_STATUS_HALT_HOLD (i : Nat) : Fld := ⟨R.ARB_DL_STATUS i, 15, 8⟩
abbrev ARB_DL_STATUS_DEADLOCK (i : Nat) : Fld := ⟨R.ARB_DL_STATUS i, 7, 0⟩
abbrev ARB_CLU_ISSUES_COUNT (i : Nat) : Fld := ⟨R.ARB_CLU_ISSUES i, 63, 0⟩
abbrev ARB_CLU_WAIT_SLOTS_COUNT (i : Nat) : Fld := ⟨R.ARB_CLU_WAIT_SLOTS i, 63, 0⟩
abbrev ARB_DBG_CTRL_THREAD (i : Nat) : Fld := ⟨R.ARB_DBG_CTRL i, 11, 6⟩
abbrev ARB_DBG_CTRL_OP (i : Nat) : Fld := ⟨R.ARB_DBG_CTRL i, 2, 0⟩
abbrev ARB_DBG_SEL_EW (i : Nat) : Fld := ⟨R.ARB_DBG_SEL i, 18, 16⟩
abbrev ARB_DBG_SEL_GREG (i : Nat) : Fld := ⟨R.ARB_DBG_SEL i, 12, 8⟩
abbrev ARB_DBG_SEL_THREAD (i : Nat) : Fld := ⟨R.ARB_DBG_SEL i, 5, 0⟩
abbrev ARB_DBG_PC_STATE (i : Nat) : Fld := ⟨R.ARB_DBG_PC i, 63, 60⟩
abbrev ARB_DBG_PC_EMIT_WRITTEN (i : Nat) : Fld := ⟨R.ARB_DBG_PC i, 59, 52⟩
abbrev ARB_DBG_PC_WAIT_TYPE (i : Nat) : Fld := ⟨R.ARB_DBG_PC i, 51, 50⟩
abbrev ARB_DBG_PC_WAIT_INDEX (i : Nat) : Fld := ⟨R.ARB_DBG_PC i, 49, 40⟩
abbrev ARB_DBG_PC_LOCKS_HELD (i : Nat) : Fld := ⟨R.ARB_DBG_PC i, 36, 32⟩
abbrev ARB_DBG_PC_PC (i : Nat) : Fld := ⟨R.ARB_DBG_PC i, 13, 0⟩
abbrev ARB_DBG_GREG_VALUE (i : Nat) : Fld := ⟨R.ARB_DBG_GREG i, 63, 0⟩
abbrev ARB_DBG_EMIT_VALUE (i : Nat) : Fld := ⟨R.ARB_DBG_EMIT i, 63, 0⟩
abbrev ARB_DBG_HALTED_MASK (i : Nat) : Fld := ⟨R.ARB_DBG_HALTED i, 63, 0⟩
abbrev ARB_BRK_EN (i j : Nat) : Fld := ⟨R.ARB_BRK i j, 63, 63⟩
abbrev ARB_BRK_SETS (i j : Nat) : Fld := ⟨R.ARB_BRK i j, 55, 48⟩
abbrev ARB_BRK_ADDR (i j : Nat) : Fld := ⟨R.ARB_BRK i j, 13, 0⟩
abbrev ARB_GH_SEL_TYPE (i : Nat) : Fld := ⟨R.ARB_GH_SEL i, 13, 12⟩
abbrev ARB_GH_SEL_INDEX (i : Nat) : Fld := ⟨R.ARB_GH_SEL i, 9, 0⟩
abbrev ARB_GH_DATA_DATA (i : Nat) : Fld := ⟨R.ARB_GH_DATA i, 63, 0⟩
abbrev ARB_EXC_LAST_VALID (i : Nat) : Fld := ⟨R.ARB_EXC_LAST i, 63, 63⟩
abbrev ARB_EXC_LAST_CAUSE (i : Nat) : Fld := ⟨R.ARB_EXC_LAST i, 39, 32⟩
abbrev ARB_EXC_LAST_THREAD (i : Nat) : Fld := ⟨R.ARB_EXC_LAST i, 29, 24⟩
abbrev ARB_EXC_LAST_OPCODE (i : Nat) : Fld := ⟨R.ARB_EXC_LAST i, 21, 14⟩
abbrev ARB_EXC_LAST_PC (i : Nat) : Fld := ⟨R.ARB_EXC_LAST i, 13, 0⟩
abbrev ACM_VER_STG_TAG : Fld := ⟨R.ACM_VER_STG, 31, 0⟩
abbrev ACM_VER_COMMIT_PENDING : Fld := ⟨R.ACM_VER_COMMIT, 2, 2⟩
abbrev ACM_VER_COMMIT_CANCEL : Fld := ⟨R.ACM_VER_COMMIT, 1, 1⟩
abbrev ACM_VER_COMMIT_GO : Fld := ⟨R.ACM_VER_COMMIT, 0, 0⟩
abbrev ACM_VER_GEN_GEN : Fld := ⟨R.ACM_VER_GEN, 31, 0⟩
abbrev ACM_VER_STATUS_STALL : Fld := ⟨R.ACM_VER_STATUS, 31, 31⟩
abbrev ACM_VER_STATUS_SWEEP : Fld := ⟨R.ACM_VER_STATUS, 30, 30⟩
abbrev ACM_VER_STATUS_LIVE : Fld := ⟨R.ACM_VER_STATUS, 18, 16⟩
abbrev ACM_VER_STATUS_OLDEST : Fld := ⟨R.ACM_VER_STATUS, 11, 8⟩
abbrev ACM_VER_STATUS_COMMITTED : Fld := ⟨R.ACM_VER_STATUS, 3, 0⟩
abbrev ACM_VER_LIVE_TAG_TAG : Fld := ⟨R.ACM_VER_LIVE_TAG, 31, 0⟩
abbrev ACM_VER_INFLIGHT_COUNT (i : Nat) : Fld := ⟨R.ACM_VER_INFLIGHT i, 31, 0⟩
abbrev ACM_ERR_STATUS_SHIFT : Fld := ⟨R.ACM_ERR_STATUS, 7, 7⟩
abbrev ACM_ERR_STATUS_UE : Fld := ⟨R.ACM_ERR_STATUS, 6, 6⟩
abbrev ACM_ERR_STATUS_POISON : Fld := ⟨R.ACM_ERR_STATUS, 5, 5⟩
abbrev ACM_ERR_STATUS_NOPROF : Fld := ⟨R.ACM_ERR_STATUS, 4, 4⟩
abbrev ACM_ERR_STATUS_PARITY : Fld := ⟨R.ACM_ERR_STATUS, 3, 3⟩
abbrev ACM_ERR_STATUS_BUSY : Fld := ⟨R.ACM_ERR_STATUS, 2, 2⟩
abbrev ACM_ERR_STATUS_VER_BOUND : Fld := ⟨R.ACM_ERR_STATUS, 1, 1⟩
abbrev ACM_ERR_STATUS_STALL : Fld := ⟨R.ACM_ERR_STATUS, 0, 0⟩
abbrev ACM_ERR_MASK_MASK : Fld := ⟨R.ACM_ERR_MASK, 7, 0⟩
abbrev ACM_ERR_FIRST_VALID : Fld := ⟨R.ACM_ERR_FIRST, 63, 63⟩
abbrev ACM_ERR_FIRST_FC : Fld := ⟨R.ACM_ERR_FIRST, 55, 40⟩
abbrev ACM_ERR_FIRST_PROFILE : Fld := ⟨R.ACM_ERR_FIRST, 39, 32⟩
abbrev ACM_ERR_FIRST_BANK : Fld := ⟨R.ACM_ERR_FIRST, 17, 11⟩
abbrev ACM_ERR_FIRST_ENTRY : Fld := ⟨R.ACM_ERR_FIRST, 10, 0⟩
abbrev ACM_ERR_COUNT_COUNT : Fld := ⟨R.ACM_ERR_COUNT, 31, 0⟩
abbrev ACM_ACT_BUDGET_LIMIT : Fld := ⟨R.ACM_ACT_BUDGET, 16, 0⟩
abbrev ACM_SEARCH_COUNT_COUNT : Fld := ⟨R.ACM_SEARCH_COUNT, 63, 0⟩
abbrev ACM_MISS_COUNT_COUNT : Fld := ⟨R.ACM_MISS_COUNT, 31, 0⟩
abbrev ACM_DROP_COUNT_COUNT : Fld := ⟨R.ACM_DROP_COUNT, 31, 0⟩
abbrev ACM_ODD_DROP_COUNT : Fld := ⟨R.ACM_ODD_DROP, 31, 0⟩
abbrev ACM_BUDGET_WAIT_COUNT : Fld := ⟨R.ACM_BUDGET_WAIT, 31, 0⟩
abbrev ACM_ENT_ADDR_BANK : Fld := ⟨R.ACM_ENT_ADDR, 17, 11⟩
abbrev ACM_ENT_ADDR_ENTRY : Fld := ⟨R.ACM_ENT_ADDR, 10, 0⟩
abbrev ACM_ENT_CMD_OP : Fld := ⟨R.ACM_ENT_CMD, 2, 0⟩
abbrev ACM_ENT_STATUS_BUSY : Fld := ⟨R.ACM_ENT_STATUS, 63, 63⟩
abbrev ACM_ENT_STATUS_LAST_FC : Fld := ⟨R.ACM_ENT_STATUS, 15, 0⟩
abbrev ACM_EBUF_VAL_VAL (i : Nat) : Fld := ⟨R.ACM_EBUF_VAL i, 63, 0⟩
abbrev ACM_EBUF_MASK_MASK (i : Nat) : Fld := ⟨R.ACM_EBUF_MASK i, 63, 0⟩
abbrev ACM_EBUF_CTRL_VALID : Fld := ⟨R.ACM_EBUF_CTRL, 63, 63⟩
abbrev ACM_EBUF_CTRL_FIRST_EN : Fld := ⟨R.ACM_EBUF_CTRL, 62, 62⟩
abbrev ACM_EBUF_CTRL_LAST_EN : Fld := ⟨R.ACM_EBUF_CTRL, 61, 61⟩
abbrev ACM_EBUF_CTRL_FIRST : Fld := ⟨R.ACM_EBUF_CTRL, 55, 52⟩
abbrev ACM_EBUF_CTRL_LAST : Fld := ⟨R.ACM_EBUF_CTRL, 51, 48⟩
abbrev ACM_EBUF_CTRL_ACT : Fld := ⟨R.ACM_EBUF_CTRL, 15, 0⟩
abbrev ACM_SHIFT_CMD_DIR : Fld := ⟨R.ACM_SHIFT_CMD, 39, 39⟩
abbrev ACM_SHIFT_CMD_BANK : Fld := ⟨R.ACM_SHIFT_CMD, 38, 32⟩
abbrev ACM_SHIFT_CMD_LAST : Fld := ⟨R.ACM_SHIFT_CMD, 26, 16⟩
abbrev ACM_SHIFT_CMD_FIRST : Fld := ⟨R.ACM_SHIFT_CMD, 10, 0⟩
abbrev ACM_SHIFT_STATUS_BUSY : Fld := ⟨R.ACM_SHIFT_STATUS, 63, 63⟩
abbrev ACM_SHIFT_STATUS_LAST_FC : Fld := ⟨R.ACM_SHIFT_STATUS, 15, 0⟩
abbrev ACM_ACT_IDX_IDX : Fld := ⟨R.ACM_ACT_IDX, 15, 0⟩
abbrev ACM_ACT_BUF0_DST_EP : Fld := ⟨R.ACM_ACT_BUF0, 63, 48⟩
abbrev ACM_ACT_BUF0_DST_QUEUE : Fld := ⟨R.ACM_ACT_BUF0, 47, 24⟩
abbrev ACM_ACT_BUF0_IND_TABLE : Fld := ⟨R.ACM_ACT_BUF0, 23, 12⟩
abbrev ACM_ACT_BUF0_FWD : Fld := ⟨R.ACM_ACT_BUF0, 7, 7⟩
abbrev ACM_ACT_BUF0_DROP : Fld := ⟨R.ACM_ACT_BUF0, 6, 6⟩
abbrev ACM_ACT_BUF0_CPU : Fld := ⟨R.ACM_ACT_BUF0, 5, 5⟩
abbrev ACM_ACT_BUF0_MIRROR : Fld := ⟨R.ACM_ACT_BUF0, 4, 4⟩
abbrev ACM_ACT_BUF0_QSEL : Fld := ⟨R.ACM_ACT_BUF0, 3, 2⟩
abbrev ACM_ACT_BUF0_CTX_MODE : Fld := ⟨R.ACM_ACT_BUF0, 1, 0⟩
abbrev ACM_ACT_BUF1_CPU_EP : Fld := ⟨R.ACM_ACT_BUF1, 63, 48⟩
abbrev ACM_ACT_BUF1_CPU_QUEUE : Fld := ⟨R.ACM_ACT_BUF1, 47, 24⟩
abbrev ACM_ACT_BUF1_CTX : Fld := ⟨R.ACM_ACT_BUF1, 23, 0⟩
abbrev ACM_ACT_BUF2_METER_EN : Fld := ⟨R.ACM_ACT_BUF2, 63, 63⟩
abbrev ACM_ACT_BUF2_RED_DROP : Fld := ⟨R.ACM_ACT_BUF2, 62, 62⟩
abbrev ACM_ACT_BUF2_KEY_EN : Fld := ⟨R.ACM_ACT_BUF2, 61, 61⟩
abbrev ACM_ACT_BUF2_TD_EN : Fld := ⟨R.ACM_ACT_BUF2, 60, 60⟩
abbrev ACM_ACT_BUF2_TD : Fld := ⟨R.ACM_ACT_BUF2, 59, 48⟩
abbrev ACM_ACT_BUF2_MIRROR_SESSION : Fld := ⟨R.ACM_ACT_BUF2, 47, 42⟩
abbrev ACM_ACT_BUF2_METER : Fld := ⟨R.ACM_ACT_BUF2, 37, 20⟩
abbrev ACM_ACT_BUF2_KEY_SLOT : Fld := ⟨R.ACM_ACT_BUF2, 19, 0⟩
abbrev ACM_ACT_BUF3_RSVD : Fld := ⟨R.ACM_ACT_BUF3, 63, 0⟩
abbrev ACM_ACT_CMD_OP : Fld := ⟨R.ACM_ACT_CMD, 1, 0⟩
abbrev ACM_ACT_PKTS_COUNT : Fld := ⟨R.ACM_ACT_PKTS, 63, 0⟩
abbrev ACM_ACT_BYTES_COUNT : Fld := ⟨R.ACM_ACT_BYTES, 63, 0⟩
abbrev ACM_POL_IDX_IDX : Fld := ⟨R.ACM_POL_IDX, 17, 0⟩
abbrev ACM_POL_CIR_CIR : Fld := ⟨R.ACM_POL_CIR, 40, 0⟩
abbrev ACM_POL_PIR_PIR : Fld := ⟨R.ACM_POL_PIR, 40, 0⟩
abbrev ACM_POL_BURST_PBS : Fld := ⟨R.ACM_POL_BURST, 63, 32⟩
abbrev ACM_POL_BURST_CBS : Fld := ⟨R.ACM_POL_BURST, 31, 0⟩
abbrev ACM_POL_MODE_OVERHEAD : Fld := ⟨R.ACM_POL_MODE, 15, 8⟩
abbrev ACM_POL_MODE_AWARE : Fld := ⟨R.ACM_POL_MODE, 1, 1⟩
abbrev ACM_POL_MODE_ALG : Fld := ⟨R.ACM_POL_MODE, 0, 0⟩
abbrev ACM_POL_CMD_OP : Fld := ⟨R.ACM_POL_CMD, 1, 0⟩
abbrev ACM_POL_CNT_COUNT (i : Nat) : Fld := ⟨R.ACM_POL_CNT i, 63, 0⟩
abbrev ACM_MIR_SESS_DST_EP (i : Nat) : Fld := ⟨R.ACM_MIR_SESS i, 63, 48⟩
abbrev ACM_MIR_SESS_DST_QUEUE (i : Nat) : Fld := ⟨R.ACM_MIR_SESS i, 47, 24⟩
abbrev ACM_MIR_SESS_TRUNC_LEN (i : Nat) : Fld := ⟨R.ACM_MIR_SESS i, 15, 0⟩
abbrev ACM_HKEY_KEY (i : Nat) : Fld := ⟨R.ACM_HKEY i, 63, 0⟩
abbrev ACM_PROF_CFG_MISS_ACT (i : Nat) : Fld := ⟨R.ACM_PROF_CFG i, 63, 48⟩
abbrev ACM_PROF_CFG_HASH_MODE (i : Nat) : Fld := ⟨R.ACM_PROF_CFG i, 47, 46⟩
abbrev ACM_PROF_CFG_HASH_KEY (i : Nat) : Fld := ⟨R.ACM_PROF_CFG i, 45, 43⟩
abbrev ACM_PROF_CFG_HASH_OFF (i : Nat) : Fld := ⟨R.ACM_PROF_CFG i, 42, 36⟩
abbrev ACM_PROF_CFG_HASH_LEN (i : Nat) : Fld := ⟨R.ACM_PROF_CFG i, 35, 28⟩
abbrev ACM_PROF_CFG_FRAG_LEN (i : Nat) : Fld := ⟨R.ACM_PROF_CFG i, 27, 20⟩
abbrev ACM_IND_ODD (i : Nat) : Fld := ⟨R.ACM_IND i, 55, 32⟩
abbrev ACM_IND_EVEN (i : Nat) : Fld := ⟨R.ACM_IND i, 23, 0⟩
abbrev EMT_DISP_LIMIT_LIMIT : Fld := ⟨R.EMT_DISP_LIMIT, 4, 0⟩
abbrev EMT_SCAN_RATE_RATE : Fld := ⟨R.EMT_SCAN_RATE, 10, 0⟩
abbrev EMT_NOTIFY_CFG_QUEUE : Fld := ⟨R.EMT_NOTIFY_CFG, 47, 24⟩
abbrev EMT_NOTIFY_CFG_EP : Fld := ⟨R.EMT_NOTIFY_CFG, 15, 0⟩
abbrev EMT_REHASH_CFG_FAIL_THRESH : Fld := ⟨R.EMT_REHASH_CFG, 31, 16⟩
abbrev EMT_REHASH_CFG_FILL_PCT : Fld := ⟨R.EMT_REHASH_CFG, 6, 0⟩
abbrev EMT_REHASH_REQ_REQ : Fld := ⟨R.EMT_REHASH_REQ, 63, 0⟩
abbrev EMT_CACHE_HITS_COUNT : Fld := ⟨R.EMT_CACHE_HITS, 63, 0⟩
abbrev EMT_CACHE_MISSES_COUNT : Fld := ⟨R.EMT_CACHE_MISSES, 63, 0⟩
abbrev EMT_LEARN_DROP_COUNT : Fld := ⟨R.EMT_LEARN_DROP, 31, 0⟩
abbrev EMT_TS_DROP_COUNT : Fld := ⟨R.EMT_TS_DROP, 31, 0⟩
abbrev EMT_LOCKED_COUNT_COUNT : Fld := ⟨R.EMT_LOCKED_COUNT, 24, 0⟩
abbrev EMT_PARITY_COUNT_COUNT : Fld := ⟨R.EMT_PARITY_COUNT, 31, 0⟩
abbrev EMT_NOTIFY_DROP_COUNT : Fld := ⟨R.EMT_NOTIFY_DROP, 31, 0⟩
abbrev EMT_ERR_STATUS_DMA_RANGE : Fld := ⟨R.EMT_ERR_STATUS, 9, 9⟩
abbrev EMT_ERR_STATUS_DMA_MEM : Fld := ⟨R.EMT_ERR_STATUS, 8, 8⟩
abbrev EMT_ERR_STATUS_BUSY : Fld := ⟨R.EMT_ERR_STATUS, 7, 7⟩
abbrev EMT_ERR_STATUS_REHASH : Fld := ⟨R.EMT_ERR_STATUS, 6, 6⟩
abbrev EMT_ERR_STATUS_HBM_UE : Fld := ⟨R.EMT_ERR_STATUS, 5, 5⟩
abbrev EMT_ERR_STATUS_PARITY : Fld := ⟨R.EMT_ERR_STATUS, 4, 4⟩
abbrev EMT_ERR_STATUS_LOCKED : Fld := ⟨R.EMT_ERR_STATUS, 3, 3⟩
abbrev EMT_ERR_STATUS_ABSENT : Fld := ⟨R.EMT_ERR_STATUS, 2, 2⟩
abbrev EMT_ERR_STATUS_FULL : Fld := ⟨R.EMT_ERR_STATUS, 1, 1⟩
abbrev EMT_ERR_STATUS_EXISTS : Fld := ⟨R.EMT_ERR_STATUS, 0, 0⟩
abbrev EMT_ERR_MASK_MASK : Fld := ⟨R.EMT_ERR_MASK, 9, 0⟩
abbrev EMT_ERR_FIRST_VALID : Fld := ⟨R.EMT_ERR_FIRST, 63, 63⟩
abbrev EMT_ERR_FIRST_FC : Fld := ⟨R.EMT_ERR_FIRST, 55, 40⟩
abbrev EMT_ERR_FIRST_TABLE : Fld := ⟨R.EMT_ERR_FIRST, 37, 32⟩
abbrev EMT_ERR_FIRST_BUCKET : Fld := ⟨R.EMT_ERR_FIRST, 25, 2⟩
abbrev EMT_ERR_FIRST_SLOT : Fld := ⟨R.EMT_ERR_FIRST, 1, 0⟩
abbrev EMT_ERR_COUNT_COUNT : Fld := ⟨R.EMT_ERR_COUNT, 31, 0⟩
abbrev EMT_KBUF_KEY (i : Nat) : Fld := ⟨R.EMT_KBUF i, 63, 0⟩
abbrev EMT_CMD_DATA_STATIC : Fld := ⟨R.EMT_CMD_DATA, 63, 63⟩
abbrev EMT_CMD_DATA_ACT : Fld := ⟨R.EMT_CMD_DATA, 47, 32⟩
abbrev EMT_CMD_DATA_CTX : Fld := ⟨R.EMT_CMD_DATA, 23, 0⟩
abbrev EMT_CMD_TABLE : Fld := ⟨R.EMT_CMD, 13, 8⟩
abbrev EMT_CMD_OP : Fld := ⟨R.EMT_CMD, 3, 0⟩
abbrev EMT_CMD_LOC_BUCKET : Fld := ⟨R.EMT_CMD_LOC, 25, 2⟩
abbrev EMT_CMD_LOC_SLOT : Fld := ⟨R.EMT_CMD_LOC, 1, 0⟩
abbrev EMT_CMD_STATUS_BUSY : Fld := ⟨R.EMT_CMD_STATUS, 63, 63⟩
abbrev EMT_CMD_STATUS_FOUND : Fld := ⟨R.EMT_CMD_STATUS, 62, 62⟩
abbrev EMT_CMD_STATUS_MOVES : Fld := ⟨R.EMT_CMD_STATUS, 55, 48⟩
abbrev EMT_CMD_STATUS_LAST_FC : Fld := ⟨R.EMT_CMD_STATUS, 47, 32⟩
abbrev EMT_CMD_STATUS_BUCKET : Fld := ⟨R.EMT_CMD_STATUS, 25, 2⟩
abbrev EMT_CMD_STATUS_SLOT : Fld := ⟨R.EMT_CMD_STATUS, 1, 0⟩
abbrev EMT_CMD_RESULT_WORD0 : Fld := ⟨R.EMT_CMD_RESULT, 63, 0⟩
abbrev EMT_CMD_TIME_HIT_TIME : Fld := ⟨R.EMT_CMD_TIME, 31, 0⟩
abbrev EMT_DMA_ADDR_ADDR : Fld := ⟨R.EMT_DMA_ADDR, 63, 0⟩
abbrev EMT_DMA_FIRST_TABLE : Fld := ⟨R.EMT_DMA_FIRST, 29, 24⟩
abbrev EMT_DMA_FIRST_BUCKET : Fld := ⟨R.EMT_DMA_FIRST, 23, 0⟩
abbrev EMT_DMA_COUNT_COUNT : Fld := ⟨R.EMT_DMA_COUNT, 16, 0⟩
abbrev EMT_DMA_CMD_SRC : Fld := ⟨R.EMT_DMA_CMD, 4, 4⟩
abbrev EMT_DMA_CMD_OP : Fld := ⟨R.EMT_DMA_CMD, 2, 0⟩
abbrev EMT_DMA_STATUS_BUSY : Fld := ⟨R.EMT_DMA_STATUS, 63, 63⟩
abbrev EMT_DMA_STATUS_LAST_FC : Fld := ⟨R.EMT_DMA_STATUS, 47, 32⟩
abbrev EMT_DMA_STATUS_DONE : Fld := ⟨R.EMT_DMA_STATUS, 16, 0⟩
abbrev EMT_TBL_CFG_AGE_NOTIFY (i : Nat) : Fld := ⟨R.EMT_TBL_CFG i, 3, 3⟩
abbrev EMT_TBL_CFG_LEARN_NOTIFY (i : Nat) : Fld := ⟨R.EMT_TBL_CFG i, 2, 2⟩
abbrev EMT_TBL_CFG_AGE_EN (i : Nat) : Fld := ⟨R.EMT_TBL_CFG i, 1, 1⟩
abbrev EMT_TBL_CFG_LEARN_EN (i : Nat) : Fld := ⟨R.EMT_TBL_CFG i, 0, 0⟩
abbrev EMT_TBL_LEARN_LEARN_ACT (i : Nat) : Fld := ⟨R.EMT_TBL_LEARN i, 63, 48⟩
abbrev EMT_TBL_LEARN_LEARN_CTX (i : Nat) : Fld := ⟨R.EMT_TBL_LEARN i, 23, 0⟩
abbrev EMT_TBL_AGE_LIMIT (i : Nat) : Fld := ⟨R.EMT_TBL_AGE i, 30, 0⟩
abbrev EMT_TBL_COUNT_COUNT (i : Nat) : Fld := ⟨R.EMT_TBL_COUNT i, 26, 0⟩
abbrev EMT_TBL_HITS_COUNT (i : Nat) : Fld := ⟨R.EMT_TBL_HITS i, 63, 0⟩
abbrev EMT_TBL_MISSES_COUNT (i : Nat) : Fld := ⟨R.EMT_TBL_MISSES i, 63, 0⟩
abbrev EMT_TBL_FAIL_COUNT (i : Nat) : Fld := ⟨R.EMT_TBL_FAIL i, 31, 0⟩
abbrev EMT_TBL_GEOM_PRESENT (i : Nat) : Fld := ⟨R.EMT_TBL_GEOM i, 63, 63⟩
abbrev EMT_TBL_GEOM_BUCKETS_LOG2 (i : Nat) : Fld := ⟨R.EMT_TBL_GEOM i, 20, 16⟩
abbrev EMT_TBL_GEOM_KEY_LEN (i : Nat) : Fld := ⟨R.EMT_TBL_GEOM i, 5, 0⟩
abbrev EMT_TBL_REDIR_STG_TARGET (i : Nat) : Fld := ⟨R.EMT_TBL_REDIR_STG i, 5, 0⟩
abbrev EMT_TBL_REDIR_COMMIT_PENDING (i : Nat) : Fld := ⟨R.EMT_TBL_REDIR_COMMIT i, 2, 2⟩
abbrev EMT_TBL_REDIR_COMMIT_CANCEL (i : Nat) : Fld := ⟨R.EMT_TBL_REDIR_COMMIT i, 1, 1⟩
abbrev EMT_TBL_REDIR_COMMIT_GO (i : Nat) : Fld := ⟨R.EMT_TBL_REDIR_COMMIT i, 0, 0⟩
abbrev EMT_TBL_REDIR_GEN_GEN (i : Nat) : Fld := ⟨R.EMT_TBL_REDIR_GEN i, 31, 0⟩
abbrev EMT_TBL_ACTIVE_TARGET (i : Nat) : Fld := ⟨R.EMT_TBL_ACTIVE i, 5, 0⟩
abbrev SCH_NODE_SEL_STG_LEVEL : Fld := ⟨R.SCH_NODE_SEL_STG, 17, 16⟩
abbrev SCH_NODE_SEL_STG_INDEX : Fld := ⟨R.SCH_NODE_SEL_STG, 15, 0⟩
abbrev SCH_NODE_RATE_STG_RATE : Fld := ⟨R.SCH_NODE_RATE_STG, 40, 0⟩
abbrev SCH_NODE_BURST_STG_BURST : Fld := ⟨R.SCH_NODE_BURST_STG, 30, 0⟩
abbrev SCH_NODE_CFG_STG_OVERHEAD : Fld := ⟨R.SCH_NODE_CFG_STG, 63, 56⟩
abbrev SCH_NODE_CFG_STG_PRIO : Fld := ⟨R.SCH_NODE_CFG_STG, 50, 48⟩
abbrev SCH_NODE_CFG_STG_WEIGHT : Fld := ⟨R.SCH_NODE_CFG_STG, 43, 32⟩
abbrev SCH_NODE_CFG_STG_REFILL_LOG2 : Fld := ⟨R.SCH_NODE_CFG_STG, 3, 0⟩
abbrev SCH_NODE_CBS_STG_CBS_EN : Fld := ⟨R.SCH_NODE_CBS_STG, 63, 63⟩
abbrev SCH_NODE_CBS_STG_IDLE_SLOPE : Fld := ⟨R.SCH_NODE_CBS_STG, 40, 0⟩
abbrev SCH_NODE_COMMIT_PENDING : Fld := ⟨R.SCH_NODE_COMMIT, 2, 2⟩
abbrev SCH_NODE_COMMIT_CANCEL : Fld := ⟨R.SCH_NODE_COMMIT, 1, 1⟩
abbrev SCH_NODE_COMMIT_GO : Fld := ⟨R.SCH_NODE_COMMIT, 0, 0⟩
abbrev SCH_NODE_GEN_GEN : Fld := ⟨R.SCH_NODE_GEN, 31, 0⟩
abbrev SCH_NODE_VIEW_SEL_LEVEL : Fld := ⟨R.SCH_NODE_VIEW_SEL, 17, 16⟩
abbrev SCH_NODE_VIEW_SEL_INDEX : Fld := ⟨R.SCH_NODE_VIEW_SEL, 15, 0⟩
abbrev SCH_NODE_VIEW_RATE_RATE : Fld := ⟨R.SCH_NODE_VIEW_RATE, 40, 0⟩
abbrev SCH_NODE_VIEW_BURST_BURST : Fld := ⟨R.SCH_NODE_VIEW_BURST, 30, 0⟩
abbrev SCH_NODE_VIEW_CFG_OVERHEAD : Fld := ⟨R.SCH_NODE_VIEW_CFG, 63, 56⟩
abbrev SCH_NODE_VIEW_CFG_PRIO : Fld := ⟨R.SCH_NODE_VIEW_CFG, 50, 48⟩
abbrev SCH_NODE_VIEW_CFG_WEIGHT : Fld := ⟨R.SCH_NODE_VIEW_CFG, 43, 32⟩
abbrev SCH_NODE_VIEW_CFG_REFILL_LOG2 : Fld := ⟨R.SCH_NODE_VIEW_CFG, 3, 0⟩
abbrev SCH_NODE_VIEW_CBS_CBS_EN : Fld := ⟨R.SCH_NODE_VIEW_CBS, 63, 63⟩
abbrev SCH_NODE_VIEW_CBS_IDLE_SLOPE : Fld := ⟨R.SCH_NODE_VIEW_CBS, 40, 0⟩
abbrev SCH_NODE_VIEW_CREDIT_BYTES : Fld := ⟨R.SCH_NODE_VIEW_CREDIT, 63, 32⟩
abbrev SCH_NODE_VIEW_CREDIT_FRAC : Fld := ⟨R.SCH_NODE_VIEW_CREDIT, 31, 0⟩
abbrev SCH_NODE_VIEW_DEPTH_FRAMES : Fld := ⟨R.SCH_NODE_VIEW_DEPTH, 63, 40⟩
abbrev SCH_NODE_VIEW_DEPTH_BYTES : Fld := ⟨R.SCH_NODE_VIEW_DEPTH, 39, 0⟩
abbrev SCH_ERR_STATUS_SDU : Fld := ⟨R.SCH_ERR_STATUS, 7, 7⟩
abbrev SCH_ERR_STATUS_HBM_UE : Fld := ⟨R.SCH_ERR_STATUS, 6, 6⟩
abbrev SCH_ERR_STATUS_UNDERRUN : Fld := ⟨R.SCH_ERR_STATUS, 5, 5⟩
abbrev SCH_ERR_STATUS_STOMP : Fld := ⟨R.SCH_ERR_STATUS, 4, 4⟩
abbrev SCH_ERR_STATUS_BASE_PAST : Fld := ⟨R.SCH_ERR_STATUS, 3, 3⟩
abbrev SCH_ERR_STATUS_GCL : Fld := ⟨R.SCH_ERR_STATUS, 2, 2⟩
abbrev SCH_ERR_STATUS_KIND : Fld := ⟨R.SCH_ERR_STATUS, 1, 1⟩
abbrev SCH_ERR_STATUS_DST : Fld := ⟨R.SCH_ERR_STATUS, 0, 0⟩
abbrev SCH_ERR_MASK_MASK : Fld := ⟨R.SCH_ERR_MASK, 7, 0⟩
abbrev SCH_ERR_FIRST_VALID : Fld := ⟨R.SCH_ERR_FIRST, 63, 63⟩
abbrev SCH_ERR_FIRST_FC : Fld := ⟨R.SCH_ERR_FIRST, 55, 40⟩
abbrev SCH_ERR_FIRST_PORT : Fld := ⟨R.SCH_ERR_FIRST, 35, 32⟩
abbrev SCH_ERR_FIRST_LEAF : Fld := ⟨R.SCH_ERR_FIRST, 15, 0⟩
abbrev SCH_ERR_COUNT_COUNT : Fld := ⟨R.SCH_ERR_COUNT, 31, 0⟩
abbrev SCH_DST_DROP_COUNT : Fld := ⟨R.SCH_DST_DROP, 31, 0⟩
abbrev SCH_BUF_DROP_COUNT : Fld := ⟨R.SCH_BUF_DROP, 31, 0⟩
abbrev SCH_PORT_CFG_CT_START (i : Nat) : Fld := ⟨R.SCH_PORT_CFG i, 29, 16⟩
abbrev SCH_PORT_CFG_FLUSH_ON_DOWN (i : Nat) : Fld := ⟨R.SCH_PORT_CFG i, 1, 1⟩
abbrev SCH_PORT_STATUS_GATES (i : Nat) : Fld := ⟨R.SCH_PORT_STATUS i, 31, 24⟩
abbrev SCH_PORT_STATUS_PAUSED (i : Nat) : Fld := ⟨R.SCH_PORT_STATUS i, 23, 16⟩
abbrev SCH_PORT_STATUS_LINK (i : Nat) : Fld := ⟨R.SCH_PORT_STATUS i, 0, 0⟩
abbrev SCH_GCL_LEN_STG_LEN (i : Nat) : Fld := ⟨R.SCH_GCL_LEN_STG i, 10, 0⟩
abbrev SCH_GCL_BASE_SEC_STG_SEC (i : Nat) : Fld := ⟨R.SCH_GCL_BASE_SEC_STG i, 47, 0⟩
abbrev SCH_GCL_BASE_NS_STG_NS (i : Nat) : Fld := ⟨R.SCH_GCL_BASE_NS_STG i, 47, 16⟩
abbrev SCH_GCL_BASE_NS_STG_FRAC (i : Nat) : Fld := ⟨R.SCH_GCL_BASE_NS_STG i, 15, 0⟩
abbrev SCH_GCL_CYCLE_STG_NS (i : Nat) : Fld := ⟨R.SCH_GCL_CYCLE_STG i, 47, 16⟩
abbrev SCH_GCL_CYCLE_STG_FRAC (i : Nat) : Fld := ⟨R.SCH_GCL_CYCLE_STG i, 15, 0⟩
abbrev SCH_GCL_EXT_STG_EXT (i : Nat) : Fld := ⟨R.SCH_GCL_EXT_STG i, 31, 0⟩
abbrev SCH_GCL_COMMIT_PENDING (i : Nat) : Fld := ⟨R.SCH_GCL_COMMIT i, 2, 2⟩
abbrev SCH_GCL_COMMIT_CANCEL (i : Nat) : Fld := ⟨R.SCH_GCL_COMMIT i, 1, 1⟩
abbrev SCH_GCL_COMMIT_GO (i : Nat) : Fld := ⟨R.SCH_GCL_COMMIT i, 0, 0⟩
abbrev SCH_GCL_GEN_GEN (i : Nat) : Fld := ⟨R.SCH_GCL_GEN i, 31, 0⟩
abbrev SCH_GCL_STATUS_OPER_LEN (i : Nat) : Fld := ⟨R.SCH_GCL_STATUS i, 42, 32⟩
abbrev SCH_GCL_STATUS_OPER_ENTRY (i : Nat) : Fld := ⟨R.SCH_GCL_STATUS i, 10, 0⟩
abbrev SCH_GCL_CHANGE_SEC_SEC (i : Nat) : Fld := ⟨R.SCH_GCL_CHANGE_SEC i, 47, 0⟩
abbrev SCH_GCL_CHANGE_NS_NS (i : Nat) : Fld := ⟨R.SCH_GCL_CHANGE_NS i, 47, 16⟩
abbrev SCH_GCL_CHANGE_NS_FRAC (i : Nat) : Fld := ⟨R.SCH_GCL_CHANGE_NS i, 15, 0⟩
abbrev SCH_CLS_MAXSDU_MAX (i j : Nat) : Fld := ⟨R.SCH_CLS_MAXSDU i j, 15, 0⟩
abbrev SCH_PORT_TX_FRAMES_COUNT (i : Nat) : Fld := ⟨R.SCH_PORT_TX_FRAMES i, 63, 0⟩
abbrev SCH_PORT_TX_BYTES_COUNT (i : Nat) : Fld := ⟨R.SCH_PORT_TX_BYTES i, 63, 0⟩
abbrev SCH_PORT_STOMP_COUNT (i : Nat) : Fld := ⟨R.SCH_PORT_STOMP i, 31, 0⟩
abbrev SCH_PORT_UNDERRUN_COUNT (i : Nat) : Fld := ⟨R.SCH_PORT_UNDERRUN i, 31, 0⟩
abbrev SCH_PORT_SDU_DROP_COUNT (i : Nat) : Fld := ⟨R.SCH_PORT_SDU_DROP i, 31, 0⟩
abbrev SCH_PORT_FLUSH_DROP_COUNT (i : Nat) : Fld := ⟨R.SCH_PORT_FLUSH_DROP i, 31, 0⟩
abbrev SCH_LEAF_LIMIT_KIB (i : Nat) : Fld := ⟨R.SCH_LEAF_LIMIT i, 23, 0⟩
abbrev SCH_LEAF_DROP_COUNT (i : Nat) : Fld := ⟨R.SCH_LEAF_DROP i, 31, 0⟩
abbrev SCH_GCL_STG_GATES (i j : Nat) : Fld := ⟨R.SCH_GCL_STG i j, 55, 48⟩
abbrev SCH_GCL_STG_NS (i j : Nat) : Fld := ⟨R.SCH_GCL_STG i j, 47, 16⟩
abbrev SCH_GCL_STG_FRAC (i j : Nat) : Fld := ⟨R.SCH_GCL_STG i j, 15, 0⟩
abbrev SCH_GCL_OPER_GATES (i j : Nat) : Fld := ⟨R.SCH_GCL_OPER i j, 55, 48⟩
abbrev SCH_GCL_OPER_NS (i j : Nat) : Fld := ⟨R.SCH_GCL_OPER i j, 47, 16⟩
abbrev SCH_GCL_OPER_FRAC (i j : Nat) : Fld := ⟨R.SCH_GCL_OPER i j, 15, 0⟩
abbrev CPH_KEY_SEL_STG_TD : Fld := ⟨R.CPH_KEY_SEL_STG, 51, 40⟩
abbrev CPH_KEY_SEL_STG_SLOT : Fld := ⟨R.CPH_KEY_SEL_STG, 19, 0⟩
abbrev CPH_KEY_OP_STG_PIN : Fld := ⟨R.CPH_KEY_OP_STG, 8, 8⟩
abbrev CPH_KEY_OP_STG_SRC : Fld := ⟨R.CPH_KEY_OP_STG, 4, 4⟩
abbrev CPH_KEY_OP_STG_OP : Fld := ⟨R.CPH_KEY_OP_STG, 2, 0⟩
abbrev CPH_KEY_SRC_STG_ADDR : Fld := ⟨R.CPH_KEY_SRC_STG, 63, 0⟩
abbrev CPH_KEY_ATTR_STG_AN : Fld := ⟨R.CPH_KEY_ATTR_STG, 25, 24⟩
abbrev CPH_KEY_ATTR_STG_MODE : Fld := ⟨R.CPH_KEY_ATTR_STG, 18, 16⟩
abbrev CPH_KEY_ATTR_STG_FRAMING : Fld := ⟨R.CPH_KEY_ATTR_STG, 10, 8⟩
abbrev CPH_KEY_ATTR_STG_EXT : Fld := ⟨R.CPH_KEY_ATTR_STG, 1, 1⟩
abbrev CPH_KEY_ATTR_STG_DIR : Fld := ⟨R.CPH_KEY_ATTR_STG, 0, 0⟩
abbrev CPH_KEY_DATA_STG_DATA (i : Nat) : Fld := ⟨R.CPH_KEY_DATA_STG i, 63, 0⟩
abbrev CPH_KEY_COMMIT_PENDING : Fld := ⟨R.CPH_KEY_COMMIT, 2, 2⟩
abbrev CPH_KEY_COMMIT_CANCEL : Fld := ⟨R.CPH_KEY_COMMIT, 1, 1⟩
abbrev CPH_KEY_COMMIT_GO : Fld := ⟨R.CPH_KEY_COMMIT, 0, 0⟩
abbrev CPH_KEY_GEN_GEN : Fld := ⟨R.CPH_KEY_GEN, 31, 0⟩
abbrev CPH_KEY_STATUS_BUSY : Fld := ⟨R.CPH_KEY_STATUS, 63, 63⟩
abbrev CPH_KEY_STATUS_LAST_FC : Fld := ⟨R.CPH_KEY_STATUS, 15, 0⟩
abbrev CPH_ERR_STATUS_PAIR_OP : Fld := ⟨R.CPH_ERR_STATUS, 11, 11⟩
abbrev CPH_ERR_STATUS_TEST_FAIL : Fld := ⟨R.CPH_ERR_STATUS, 10, 10⟩
abbrev CPH_ERR_STATUS_KEY_OP : Fld := ⟨R.CPH_ERR_STATUS, 9, 9⟩
abbrev CPH_ERR_STATUS_QUARANTINE : Fld := ⟨R.CPH_ERR_STATUS, 8, 8⟩
abbrev CPH_ERR_STATUS_MM_CE : Fld := ⟨R.CPH_ERR_STATUS, 7, 7⟩
abbrev CPH_ERR_STATUS_SEQ : Fld := ⟨R.CPH_ERR_STATUS, 6, 6⟩
abbrev CPH_ERR_STATUS_SLOT_UE : Fld := ⟨R.CPH_ERR_STATUS, 5, 5⟩
abbrev CPH_ERR_STATUS_ADDR : Fld := ⟨R.CPH_ERR_STATUS, 4, 4⟩
abbrev CPH_ERR_STATUS_QUEUE : Fld := ⟨R.CPH_ERR_STATUS, 3, 3⟩
abbrev CPH_ERR_STATUS_KEY : Fld := ⟨R.CPH_ERR_STATUS, 2, 2⟩
abbrev CPH_ERR_STATUS_LEN : Fld := ⟨R.CPH_ERR_STATUS, 1, 1⟩
abbrev CPH_ERR_STATUS_FORMAT : Fld := ⟨R.CPH_ERR_STATUS, 0, 0⟩
abbrev CPH_ERR_MASK_MASK : Fld := ⟨R.CPH_ERR_MASK, 11, 0⟩
abbrev CPH_ERR_FIRST_VALID : Fld := ⟨R.CPH_ERR_FIRST, 63, 63⟩
abbrev CPH_ERR_FIRST_FC : Fld := ⟨R.CPH_ERR_FIRST, 55, 40⟩
abbrev CPH_ERR_FIRST_PAIR : Fld := ⟨R.CPH_ERR_FIRST, 36, 32⟩
abbrev CPH_ERR_FIRST_QUEUE : Fld := ⟨R.CPH_ERR_FIRST, 31, 24⟩
abbrev CPH_ERR_FIRST_SLOT : Fld := ⟨R.CPH_ERR_FIRST, 19, 0⟩
abbrev CPH_ERR_COUNT_COUNT : Fld := ⟨R.CPH_ERR_COUNT, 31, 0⟩
abbrev CPH_AUTH_FAIL_COUNT : Fld := ⟨R.CPH_AUTH_FAIL, 31, 0⟩
abbrev CPH_REPLAY_COUNT : Fld := ⟨R.CPH_REPLAY, 31, 0⟩
abbrev CPH_PKT_DROP_COUNT : Fld := ⟨R.CPH_PKT_DROP, 31, 0⟩
abbrev CPH_MM_CORRECTED_COUNT : Fld := ⟨R.CPH_MM_CORRECTED, 31, 0⟩
abbrev CPH_CACHE_HITS_COUNT : Fld := ⟨R.CPH_CACHE_HITS, 63, 0⟩
abbrev CPH_CACHE_MISSES_COUNT : Fld := ⟨R.CPH_CACHE_MISSES, 63, 0⟩
abbrev CPH_PINNED_COUNT : Fld := ⟨R.CPH_PINNED, 14, 0⟩
abbrev CPH_Q_CFG_EN (i : Nat) : Fld := ⟨R.CPH_Q_CFG i, 63, 63⟩
abbrev CPH_Q_CFG_INLINE_OP (i : Nat) : Fld := ⟨R.CPH_Q_CFG i, 47, 32⟩
abbrev CPH_Q_NEXT_NEXT_EP (i : Nat) : Fld := ⟨R.CPH_Q_NEXT i, 63, 48⟩
abbrev CPH_Q_NEXT_NEXT_QUEUE (i : Nat) : Fld := ⟨R.CPH_Q_NEXT i, 47, 24⟩
abbrev CPH_Q_STATE_ON_ALT (i : Nat) : Fld := ⟨R.CPH_Q_STATE i, 63, 63⟩
abbrev CPH_Q_STATE_PAIR (i : Nat) : Fld := ⟨R.CPH_Q_STATE i, 36, 32⟩
abbrev CPH_Q_STATE_INFLIGHT (i : Nat) : Fld := ⟨R.CPH_Q_STATE i, 15, 0⟩
abbrev CPH_Q_REQS_COUNT (i : Nat) : Fld := ⟨R.CPH_Q_REQS i, 63, 0⟩
abbrev CPH_Q_REFUSED_COUNT (i : Nat) : Fld := ⟨R.CPH_Q_REFUSED i, 31, 0⟩
abbrev CPH_PAIR_STATE_MM_COUNT (i : Nat) : Fld := ⟨R.CPH_PAIR_STATE i, 47, 32⟩
abbrev CPH_PAIR_STATE_TEST_PASS (i : Nat) : Fld := ⟨R.CPH_PAIR_STATE i, 8, 8⟩
abbrev CPH_PAIR_STATE_STATE (i : Nat) : Fld := ⟨R.CPH_PAIR_STATE i, 1, 0⟩
abbrev CPH_PAIR_CTRL_OP (i : Nat) : Fld := ⟨R.CPH_PAIR_CTRL i, 1, 0⟩
abbrev CPH_PAIR_BYTES_COUNT (i : Nat) : Fld := ⟨R.CPH_PAIR_BYTES i, 63, 0⟩
abbrev CPH_PAIR_MM_LAST_VALID (i : Nat) : Fld := ⟨R.CPH_PAIR_MM_LAST i, 63, 63⟩
abbrev CPH_PAIR_MM_LAST_QUEUE (i : Nat) : Fld := ⟨R.CPH_PAIR_MM_LAST i, 51, 44⟩
abbrev CPH_PAIR_MM_LAST_SLOT (i : Nat) : Fld := ⟨R.CPH_PAIR_MM_LAST i, 19, 0⟩
abbrev TE_CC_SEL_STG_PROFILE : Fld := ⟨R.TE_CC_SEL_STG, 2, 0⟩
abbrev TE_CC_RATE_STG_RATE_MIN : Fld := ⟨R.TE_CC_RATE_STG, 63, 32⟩
abbrev TE_CC_RATE_STG_RATE_AI : Fld := ⟨R.TE_CC_RATE_STG, 31, 0⟩
abbrev TE_CC_TIMER_STG_EN : Fld := ⟨R.TE_CC_TIMER_STG, 63, 63⟩
abbrev TE_CC_TIMER_STG_G : Fld := ⟨R.TE_CC_TIMER_STG, 47, 32⟩
abbrev TE_CC_TIMER_STG_TIMER_US : Fld := ⟨R.TE_CC_TIMER_STG, 31, 16⟩
abbrev TE_CC_TIMER_STG_CNP_INTERVAL_US : Fld := ⟨R.TE_CC_TIMER_STG, 15, 0⟩
abbrev TE_CC_BYTES_STG_BYTE_KIB : Fld := ⟨R.TE_CC_BYTES_STG, 31, 0⟩
abbrev TE_CC_COMMIT_PENDING : Fld := ⟨R.TE_CC_COMMIT, 2, 2⟩
abbrev TE_CC_COMMIT_CANCEL : Fld := ⟨R.TE_CC_COMMIT, 1, 1⟩
abbrev TE_CC_COMMIT_GO : Fld := ⟨R.TE_CC_COMMIT, 0, 0⟩
abbrev TE_CC_GEN_GEN : Fld := ⟨R.TE_CC_GEN, 31, 0⟩
abbrev TE_ERR_STATUS_CQ_OVF : Fld := ⟨R.TE_ERR_STATUS, 10, 10⟩
abbrev TE_ERR_STATUS_CC_PROFILE : Fld := ⟨R.TE_ERR_STATUS, 9, 9⟩
abbrev TE_ERR_STATUS_HOST_DMA : Fld := ⟨R.TE_ERR_STATUS, 8, 8⟩
abbrev TE_ERR_STATUS_REORDER_FULL : Fld := ⟨R.TE_ERR_STATUS, 7, 7⟩
abbrev TE_ERR_STATUS_MP_EXHAUST : Fld := ⟨R.TE_ERR_STATUS, 6, 6⟩
abbrev TE_ERR_STATUS_CTRL : Fld := ⟨R.TE_ERR_STATUS, 5, 5⟩
abbrev TE_ERR_STATUS_QP_FATAL : Fld := ⟨R.TE_ERR_STATUS, 4, 4⟩
abbrev TE_ERR_STATUS_MR_UE : Fld := ⟨R.TE_ERR_STATUS, 3, 3⟩
abbrev TE_ERR_STATUS_CTX_UE : Fld := ⟨R.TE_ERR_STATUS, 2, 2⟩
abbrev TE_ERR_STATUS_CTX_RANGE : Fld := ⟨R.TE_ERR_STATUS, 1, 1⟩
abbrev TE_ERR_STATUS_KIND : Fld := ⟨R.TE_ERR_STATUS, 0, 0⟩
abbrev TE_ERR_MASK_MASK : Fld := ⟨R.TE_ERR_MASK, 10, 0⟩
abbrev TE_ERR_FIRST_VALID : Fld := ⟨R.TE_ERR_FIRST, 63, 63⟩
abbrev TE_ERR_FIRST_FC : Fld := ⟨R.TE_ERR_FIRST, 55, 40⟩
abbrev TE_ERR_FIRST_ENGINE : Fld := ⟨R.TE_ERR_FIRST, 39, 36⟩
abbrev TE_ERR_FIRST_FUNCTION : Fld := ⟨R.TE_ERR_FIRST, 35, 24⟩
abbrev TE_ERR_FIRST_QP : Fld := ⟨R.TE_ERR_FIRST, 21, 0⟩
abbrev TE_ERR_COUNT_COUNT : Fld := ⟨R.TE_ERR_COUNT, 31, 0⟩
abbrev TE_RX_DISCARD_COUNT : Fld := ⟨R.TE_RX_DISCARD, 31, 0⟩
abbrev TE_DUP_RX_COUNT : Fld := ⟨R.TE_DUP_RX, 31, 0⟩
abbrev TE_MP_BEYOND_COUNT : Fld := ⟨R.TE_MP_BEYOND, 31, 0⟩
abbrev TE_MP_SNAK_TX_COUNT : Fld := ⟨R.TE_MP_SNAK_TX, 31, 0⟩
abbrev TE_STALE_NAK_COUNT : Fld := ⟨R.TE_STALE_NAK, 31, 0⟩
abbrev TE_KEY_FAIL_COUNT : Fld := ⟨R.TE_KEY_FAIL, 31, 0⟩
abbrev TE_CNP_TX_COUNT : Fld := ⟨R.TE_CNP_TX, 31, 0⟩
abbrev TE_CNP_RX_COUNT : Fld := ⟨R.TE_CNP_RX, 31, 0⟩
abbrev TE_DB_DISCARD_COUNT : Fld := ⟨R.TE_DB_DISCARD, 31, 0⟩
abbrev TE_QP_SEL_QP : Fld := ⟨R.TE_QP_SEL, 21, 0⟩
abbrev TE_QP_VIEW_WORD (i : Nat) : Fld := ⟨R.TE_QP_VIEW i, 63, 0⟩
abbrev TE_QP_FORCE_FORCE : Fld := ⟨R.TE_QP_FORCE, 0, 0⟩
abbrev TE_ENG_STATE_IN_USE (i : Nat) : Fld := ⟨R.TE_ENG_STATE i, 63, 40⟩
abbrev TE_ENG_STATE_MP_FREE (i : Nat) : Fld := ⟨R.TE_ENG_STATE i, 38, 20⟩
abbrev TE_ENG_STATE_REORDER_KIB (i : Nat) : Fld := ⟨R.TE_ENG_STATE i, 15, 0⟩
abbrev TE_ENG_CACHE_HITS_COUNT (i : Nat) : Fld := ⟨R.TE_ENG_CACHE_HITS i, 63, 0⟩
abbrev TE_ENG_CACHE_MISSES_COUNT (i : Nat) : Fld := ⟨R.TE_ENG_CACHE_MISSES i, 63, 0⟩
abbrev TE_UC_SRC_ADDR_ADDR : Fld := ⟨R.TE_UC_SRC_ADDR, 63, 0⟩
abbrev TE_UC_SRC_LEN_LEN : Fld := ⟨R.TE_UC_SRC_LEN, 31, 0⟩
abbrev TE_UC_CMD_SRC : Fld := ⟨R.TE_UC_CMD, 4, 4⟩
abbrev TE_UC_CMD_OP : Fld := ⟨R.TE_UC_CMD, 1, 0⟩
abbrev TE_UC_STATUS_RESULT : Fld := ⟨R.TE_UC_STATUS, 63, 48⟩
abbrev TE_UC_STATUS_PATCH_WORDS : Fld := ⟨R.TE_UC_STATUS, 42, 32⟩
abbrev TE_UC_STATUS_MATCH_COUNT : Fld := ⟨R.TE_UC_STATUS, 29, 24⟩
abbrev TE_UC_STATUS_DISP_COUNT : Fld := ⟨R.TE_UC_STATUS, 23, 16⟩
abbrev TE_UC_STATUS_PATCHED : Fld := ⟨R.TE_UC_STATUS, 3, 3⟩
abbrev TE_UC_STATUS_STATE : Fld := ⟨R.TE_UC_STATUS, 1, 0⟩
abbrev TE_UC_VERSION_ROM_ID : Fld := ⟨R.TE_UC_VERSION, 63, 32⟩
abbrev TE_UC_VERSION_PATCH_VER : Fld := ⟨R.TE_UC_VERSION, 31, 0⟩
abbrev TE_UC_ARB_ARB : Fld := ⟨R.TE_UC_ARB, 31, 0⟩
abbrev TE_UC_ARB_FLOOR_FLOOR : Fld := ⟨R.TE_UC_ARB_FLOOR, 31, 0⟩
abbrev TE_UC_MEAS_MEAS (i : Nat) : Fld := ⟨R.TE_UC_MEAS i, 63, 0⟩
abbrev TE_UC_ERR_STATUS_CS_UE : Fld := ⟨R.TE_UC_ERR_STATUS, 3, 3⟩
abbrev TE_UC_ERR_STATUS_UC_FAULT : Fld := ⟨R.TE_UC_ERR_STATUS, 2, 2⟩
abbrev TE_UC_ERR_STATUS_CMD : Fld := ⟨R.TE_UC_ERR_STATUS, 1, 1⟩
abbrev TE_UC_ERR_STATUS_LOAD_FAIL : Fld := ⟨R.TE_UC_ERR_STATUS, 0, 0⟩
abbrev TE_UC_ERR_MASK_MASK : Fld := ⟨R.TE_UC_ERR_MASK, 3, 0⟩
abbrev TE_UC_FAULT_COUNT_COUNT : Fld := ⟨R.TE_UC_FAULT_COUNT, 31, 0⟩
abbrev TE_UC_CE_COUNT_COUNT : Fld := ⟨R.TE_UC_CE_COUNT, 31, 0⟩
abbrev NVE_NS_SEL_STG_FUNCTION : Fld := ⟨R.NVE_NS_SEL_STG, 27, 16⟩
abbrev NVE_NS_SEL_STG_NSID : Fld := ⟨R.NVE_NS_SEL_STG, 5, 0⟩
abbrev NVE_NS_TGT_STG_CONN : Fld := ⟨R.NVE_NS_TGT_STG, 63, 48⟩
abbrev NVE_NS_TGT_STG_REMOTE_NSID : Fld := ⟨R.NVE_NS_TGT_STG, 31, 0⟩
abbrev NVE_NS_BASE_STG_REMOTE_SLBA : Fld := ⟨R.NVE_NS_BASE_STG, 63, 0⟩
abbrev NVE_NS_SIZE_STG_NSZE : Fld := ⟨R.NVE_NS_SIZE_STG, 47, 0⟩
abbrev NVE_NS_CFG_STG_RO : Fld := ⟨R.NVE_NS_CFG_STG, 45, 45⟩
abbrev NVE_NS_CFG_STG_TGT_VWC : Fld := ⟨R.NVE_NS_CFG_STG, 44, 44⟩
abbrev NVE_NS_CFG_STG_LBADS : Fld := ⟨R.NVE_NS_CFG_STG, 43, 40⟩
abbrev NVE_NS_CFG_STG_XTS_EN : Fld := ⟨R.NVE_NS_CFG_STG, 32, 32⟩
abbrev NVE_NS_CFG_STG_CPH_QUEUE : Fld := ⟨R.NVE_NS_CFG_STG, 31, 24⟩
abbrev NVE_NS_CFG_STG_KEY_SLOT : Fld := ⟨R.NVE_NS_CFG_STG, 19, 0⟩
abbrev NVE_NS_COMMIT_PENDING : Fld := ⟨R.NVE_NS_COMMIT, 2, 2⟩
abbrev NVE_NS_COMMIT_CANCEL : Fld := ⟨R.NVE_NS_COMMIT, 1, 1⟩
abbrev NVE_NS_COMMIT_GO : Fld := ⟨R.NVE_NS_COMMIT, 0, 0⟩
abbrev NVE_NS_GEN_GEN : Fld := ⟨R.NVE_NS_GEN, 31, 0⟩
abbrev NVE_NS_VIEW_SEL_FUNCTION : Fld := ⟨R.NVE_NS_VIEW_SEL, 27, 16⟩
abbrev NVE_NS_VIEW_SEL_NSID : Fld := ⟨R.NVE_NS_VIEW_SEL, 5, 0⟩
abbrev NVE_NS_VIEW_TGT_CONN : Fld := ⟨R.NVE_NS_VIEW_TGT, 63, 48⟩
abbrev NVE_NS_VIEW_TGT_REMOTE_NSID : Fld := ⟨R.NVE_NS_VIEW_TGT, 31, 0⟩
abbrev NVE_NS_VIEW_BASE_REMOTE_SLBA : Fld := ⟨R.NVE_NS_VIEW_BASE, 63, 0⟩
abbrev NVE_NS_VIEW_SIZE_NSZE : Fld := ⟨R.NVE_NS_VIEW_SIZE, 47, 0⟩
abbrev NVE_NS_VIEW_CFG_RO : Fld := ⟨R.NVE_NS_VIEW_CFG, 45, 45⟩
abbrev NVE_NS_VIEW_CFG_TGT_VWC : Fld := ⟨R.NVE_NS_VIEW_CFG, 44, 44⟩
abbrev NVE_NS_VIEW_CFG_LBADS : Fld := ⟨R.NVE_NS_VIEW_CFG, 43, 40⟩
abbrev NVE_NS_VIEW_CFG_XTS_EN : Fld := ⟨R.NVE_NS_VIEW_CFG, 32, 32⟩
abbrev NVE_NS_VIEW_CFG_CPH_QUEUE : Fld := ⟨R.NVE_NS_VIEW_CFG, 31, 24⟩
abbrev NVE_NS_VIEW_CFG_KEY_SLOT : Fld := ⟨R.NVE_NS_VIEW_CFG, 19, 0⟩
abbrev NVE_MODE_SEL_STG_FUNCTION : Fld := ⟨R.NVE_MODE_SEL_STG, 27, 16⟩
abbrev NVE_MODE_STG_MODE : Fld := ⟨R.NVE_MODE_STG, 0, 0⟩
abbrev NVE_MODE_COMMIT_PENDING : Fld := ⟨R.NVE_MODE_COMMIT, 2, 2⟩
abbrev NVE_MODE_COMMIT_CANCEL : Fld := ⟨R.NVE_MODE_COMMIT, 1, 1⟩
abbrev NVE_MODE_COMMIT_GO : Fld := ⟨R.NVE_MODE_COMMIT, 0, 0⟩
abbrev NVE_MODE_GEN_GEN : Fld := ⟨R.NVE_MODE_GEN, 31, 0⟩
abbrev NVE_MODE_VIEW_BUF_MIB : Fld := ⟨R.NVE_MODE_VIEW, 63, 32⟩
abbrev NVE_MODE_VIEW_FUNCTION : Fld := ⟨R.NVE_MODE_VIEW, 27, 16⟩
abbrev NVE_MODE_VIEW_MODE : Fld := ⟨R.NVE_MODE_VIEW, 1, 0⟩
abbrev NVE_BUF_HIWAT_PCT : Fld := ⟨R.NVE_BUF_HIWAT, 6, 0⟩
abbrev NVE_NOTIFY_CFG_QUEUE : Fld := ⟨R.NVE_NOTIFY_CFG, 47, 24⟩
abbrev NVE_NOTIFY_CFG_EP : Fld := ⟨R.NVE_NOTIFY_CFG, 15, 0⟩
abbrev NVE_ERR_STATUS_CONFIG : Fld := ⟨R.NVE_ERR_STATUS, 11, 11⟩
abbrev NVE_ERR_STATUS_HOST_DMA : Fld := ⟨R.NVE_ERR_STATUS, 10, 10⟩
abbrev NVE_ERR_STATUS_CIPHER : Fld := ⟨R.NVE_ERR_STATUS, 9, 9⟩
abbrev NVE_ERR_STATUS_BUF_UE : Fld := ⟨R.NVE_ERR_STATUS, 6, 6⟩
abbrev NVE_ERR_STATUS_PROTOCOL : Fld := ⟨R.NVE_ERR_STATUS, 5, 5⟩
abbrev NVE_ERR_STATUS_CONN_FAIL : Fld := ⟨R.NVE_ERR_STATUS, 4, 4⟩
abbrev NVE_ERR_STATUS_TIMEOUT : Fld := ⟨R.NVE_ERR_STATUS, 3, 3⟩
abbrev NVE_ERR_STATUS_DDGST : Fld := ⟨R.NVE_ERR_STATUS, 2, 2⟩
abbrev NVE_ERR_STATUS_HDGST : Fld := ⟨R.NVE_ERR_STATUS, 1, 1⟩
abbrev NVE_ERR_STATUS_KIND : Fld := ⟨R.NVE_ERR_STATUS, 0, 0⟩
abbrev NVE_ERR_MASK_MASK_HI : Fld := ⟨R.NVE_ERR_MASK, 11, 9⟩
abbrev NVE_ERR_MASK_MASK_LO : Fld := ⟨R.NVE_ERR_MASK, 6, 0⟩
abbrev NVE_ERR_FIRST_VALID : Fld := ⟨R.NVE_ERR_FIRST, 63, 63⟩
abbrev NVE_ERR_FIRST_FC : Fld := ⟨R.NVE_ERR_FIRST, 55, 40⟩
abbrev NVE_ERR_FIRST_FUNCTION : Fld := ⟨R.NVE_ERR_FIRST, 39, 28⟩
abbrev NVE_ERR_FIRST_CONN : Fld := ⟨R.NVE_ERR_FIRST, 15, 0⟩
abbrev NVE_ERR_COUNT_COUNT : Fld := ⟨R.NVE_ERR_COUNT, 31, 0⟩
abbrev NVE_BUF_FULL_COUNT : Fld := ⟨R.NVE_BUF_FULL, 31, 0⟩
abbrev NVE_TGT_ERRORS_COUNT : Fld := ⟨R.NVE_TGT_ERRORS, 31, 0⟩
abbrev NVE_CONN_SEL_CONN : Fld := ⟨R.NVE_CONN_SEL, 15, 0⟩
abbrev NVE_CONN_IMG_WORD (i : Nat) : Fld := ⟨R.NVE_CONN_IMG i, 63, 0⟩
abbrev NVE_CONN_CMD_FORCE : Fld := ⟨R.NVE_CONN_CMD, 8, 8⟩
abbrev NVE_CONN_CMD_OP : Fld := ⟨R.NVE_CONN_CMD, 1, 0⟩
abbrev NVE_CONN_STATUS_BUSY : Fld := ⟨R.NVE_CONN_STATUS, 63, 63⟩
abbrev NVE_CONN_STATUS_LAST_FC : Fld := ⟨R.NVE_CONN_STATUS, 15, 0⟩
abbrev HIF_ERR_STATUS_ACCESS : Fld := ⟨R.HIF_ERR_STATUS, 13, 13⟩
abbrev HIF_ERR_STATUS_TDI_ERROR : Fld := ⟨R.HIF_ERR_STATUS, 12, 12⟩
abbrev HIF_ERR_STATUS_IDE : Fld := ⟨R.HIF_ERR_STATUS, 11, 11⟩
abbrev HIF_ERR_STATUS_LINK_DOWN : Fld := ⟨R.HIF_ERR_STATUS, 10, 10⟩
abbrev HIF_ERR_STATUS_POISON_RX : Fld := ⟨R.HIF_ERR_STATUS, 9, 9⟩
abbrev HIF_ERR_STATUS_ATW_COMMIT : Fld := ⟨R.HIF_ERR_STATUS, 8, 8⟩
abbrev HIF_ERR_STATUS_ATW_MISS : Fld := ⟨R.HIF_ERR_STATUS, 7, 7⟩
abbrev HIF_ERR_STATUS_CPL_TIMEOUT : Fld := ⟨R.HIF_ERR_STATUS, 6, 6⟩
abbrev HIF_ERR_STATUS_UNEXP_CPL : Fld := ⟨R.HIF_ERR_STATUS, 5, 5⟩
abbrev HIF_ERR_STATUS_PRE_READY : Fld := ⟨R.HIF_ERR_STATUS, 4, 4⟩
abbrev HIF_ERR_STATUS_ENGINE_UE : Fld := ⟨R.HIF_ERR_STATUS, 3, 3⟩
abbrev HIF_ERR_STATUS_CMD : Fld := ⟨R.HIF_ERR_STATUS, 2, 2⟩
abbrev HIF_ERR_STATUS_QUEUE : Fld := ⟨R.HIF_ERR_STATUS, 1, 1⟩
abbrev HIF_ERR_STATUS_KIND : Fld := ⟨R.HIF_ERR_STATUS, 0, 0⟩
abbrev HIF_ERR_MASK_MASK : Fld := ⟨R.HIF_ERR_MASK, 13, 0⟩
abbrev HIF_ERR_FIRST_VALID : Fld := ⟨R.HIF_ERR_FIRST, 63, 63⟩
abbrev HIF_ERR_FIRST_FC : Fld := ⟨R.HIF_ERR_FIRST, 55, 40⟩
abbrev HIF_ERR_FIRST_CODE : Fld := ⟨R.HIF_ERR_FIRST, 39, 32⟩
abbrev HIF_ERR_FIRST_CONTEXT : Fld := ⟨R.HIF_ERR_FIRST, 31, 0⟩
abbrev HIF_ERR_COUNT_COUNT : Fld := ⟨R.HIF_ERR_COUNT, 31, 0⟩
abbrev HIF_PRE_READY_DROP_COUNT : Fld := ⟨R.HIF_PRE_READY_DROP, 31, 0⟩
abbrev HIF_UR_COUNT_COUNT : Fld := ⟨R.HIF_UR_COUNT, 31, 0⟩
abbrev HIF_CPL_TIMEOUT_COUNT_COUNT : Fld := ⟨R.HIF_CPL_TIMEOUT_COUNT, 31, 0⟩
abbrev HIF_UNEXP_CPL_COUNT_COUNT : Fld := ⟨R.HIF_UNEXP_CPL_COUNT, 31, 0⟩
abbrev HIF_ATW_MISS_COUNT_COUNT : Fld := ⟨R.HIF_ATW_MISS_COUNT, 31, 0⟩
abbrev HIF_POISON_RX_COUNT_COUNT : Fld := ⟨R.HIF_POISON_RX_COUNT, 31, 0⟩
abbrev HIF_IDE_FAIL_COUNT_COUNT : Fld := ⟨R.HIF_IDE_FAIL_COUNT, 31, 0⟩
abbrev HIF_Q_SEL_Q : Fld := ⟨R.HIF_Q_SEL, 19, 0⟩
abbrev HIF_Q_VIEW_VALUE (i : Nat) : Fld := ⟨R.HIF_Q_VIEW i, 63, 0⟩
abbrev HIF_Q_FORCE_FORCE : Fld := ⟨R.HIF_Q_FORCE, 0, 0⟩
abbrev HIF_Q_ENABLED_COUNT : Fld := ⟨R.HIF_Q_ENABLED, 20, 0⟩
abbrev HIF_RX_DISCARD_COUNT : Fld := ⟨R.HIF_RX_DISCARD, 31, 0⟩
abbrev HIF_CMD_REFUSED_COUNT : Fld := ⟨R.HIF_CMD_REFUSED, 31, 0⟩
abbrev HIF_ARB_FRAMES_COUNT : Fld := ⟨R.HIF_ARB_FRAMES, 63, 0⟩
abbrev HIF_PORT_STATUS_BIF (i : Nat) : Fld := ⟨R.HIF_PORT_STATUS i, 33, 32⟩
abbrev HIF_PORT_STATUS_LINK3 (i : Nat) : Fld := ⟨R.HIF_PORT_STATUS i, 31, 24⟩
abbrev HIF_PORT_STATUS_LINK2 (i : Nat) : Fld := ⟨R.HIF_PORT_STATUS i, 23, 16⟩
abbrev HIF_PORT_STATUS_LINK1 (i : Nat) : Fld := ⟨R.HIF_PORT_STATUS i, 15, 8⟩
abbrev HIF_PORT_STATUS_LINK0 (i : Nat) : Fld := ⟨R.HIF_PORT_STATUS i, 7, 0⟩
abbrev HIF_PORT_PM_L1_IDLE_US (i : Nat) : Fld := ⟨R.HIF_PORT_PM i, 15, 0⟩
abbrev HIF_PORT_L0P_EN (i : Nat) : Fld := ⟨R.HIF_PORT_L0P i, 63, 63⟩
abbrev HIF_PORT_L0P_WINDOW_US (i : Nat) : Fld := ⟨R.HIF_PORT_L0P i, 47, 32⟩
abbrev HIF_PORT_L0P_HIGH_PCT (i : Nat) : Fld := ⟨R.HIF_PORT_L0P i, 15, 8⟩
abbrev HIF_PORT_L0P_LOW_PCT (i : Nat) : Fld := ⟨R.HIF_PORT_L0P i, 7, 0⟩
abbrev HIF_PORT_QUAR_TAGS_COUNT (i : Nat) : Fld := ⟨R.HIF_PORT_QUAR_TAGS i, 13, 0⟩
abbrev HIF_PORT_LINK_DOWN_COUNT (i : Nat) : Fld := ⟨R.HIF_PORT_LINK_DOWN i, 31, 0⟩
abbrev HIF_ATW_COMMIT_PENDING (i : Nat) : Fld := ⟨R.HIF_ATW_COMMIT i, 2, 2⟩
abbrev HIF_ATW_COMMIT_CANCEL (i : Nat) : Fld := ⟨R.HIF_ATW_COMMIT i, 1, 1⟩
abbrev HIF_ATW_COMMIT_GO (i : Nat) : Fld := ⟨R.HIF_ATW_COMMIT i, 0, 0⟩
abbrev HIF_ATW_GEN_GEN (i : Nat) : Fld := ⟨R.HIF_ATW_GEN i, 31, 0⟩
abbrev HIF_ATW_STATUS_WINDOW (i : Nat) : Fld := ⟨R.HIF_ATW_STATUS i, 23, 16⟩
abbrev HIF_ATW_STATUS_LAST_FC (i : Nat) : Fld := ⟨R.HIF_ATW_STATUS i, 15, 0⟩
abbrev HIF_ATW_STG_A_EN (i j : Nat) : Fld := ⟨R.HIF_ATW_STG_A i j, 63, 63⟩
abbrev HIF_ATW_STG_A_RD (i j : Nat) : Fld := ⟨R.HIF_ATW_STG_A i j, 62, 62⟩
abbrev HIF_ATW_STG_A_WR (i j : Nat) : Fld := ⟨R.HIF_ATW_STG_A i j, 61, 61⟩
abbrev HIF_ATW_STG_A_SIZE_LOG2 (i j : Nat) : Fld := ⟨R.HIF_ATW_STG_A i j, 55, 48⟩
abbrev HIF_ATW_STG_A_TD (i j : Nat) : Fld := ⟨R.HIF_ATW_STG_A i j, 43, 32⟩
abbrev HIF_ATW_STG_A_BASE_4K (i j : Nat) : Fld := ⟨R.HIF_ATW_STG_A i j, 27, 0⟩
abbrev HIF_ATW_STG_B_TARGET (i j : Nat) : Fld := ⟨R.HIF_ATW_STG_B i j, 63, 0⟩
abbrev HIF_ATW_LIVE_A_EN (i j : Nat) : Fld := ⟨R.HIF_ATW_LIVE_A i j, 63, 63⟩
abbrev HIF_ATW_LIVE_A_RD (i j : Nat) : Fld := ⟨R.HIF_ATW_LIVE_A i j, 62, 62⟩
abbrev HIF_ATW_LIVE_A_WR (i j : Nat) : Fld := ⟨R.HIF_ATW_LIVE_A i j, 61, 61⟩
abbrev HIF_ATW_LIVE_A_SIZE_LOG2 (i j : Nat) : Fld := ⟨R.HIF_ATW_LIVE_A i j, 55, 48⟩
abbrev HIF_ATW_LIVE_A_TD (i j : Nat) : Fld := ⟨R.HIF_ATW_LIVE_A i j, 43, 32⟩
abbrev HIF_ATW_LIVE_A_BASE_4K (i j : Nat) : Fld := ⟨R.HIF_ATW_LIVE_A i j, 27, 0⟩
abbrev HIF_ATW_LIVE_B_TARGET (i j : Nat) : Fld := ⟨R.HIF_ATW_LIVE_B i j, 63, 0⟩
abbrev APC_HART_ONLINE0_MASK : Fld := ⟨R.APC_HART_ONLINE0, 63, 0⟩
abbrev APC_HART_ONLINE1_MASK : Fld := ⟨R.APC_HART_ONLINE1, 31, 0⟩
abbrev APC_CE_COUNT_COUNT : Fld := ⟨R.APC_CE_COUNT, 31, 0⟩
abbrev APC_ERR_STATUS_RING_CFG : Fld := ⟨R.APC_ERR_STATUS, 2, 2⟩
abbrev APC_ERR_STATUS_RING : Fld := ⟨R.APC_ERR_STATUS, 1, 1⟩
abbrev APC_ERR_STATUS_POISON : Fld := ⟨R.APC_ERR_STATUS, 0, 0⟩
abbrev APC_ERR_MASK_MASK : Fld := ⟨R.APC_ERR_MASK, 2, 0⟩
abbrev APC_ERR_FIRST_VALID : Fld := ⟨R.APC_ERR_FIRST, 63, 63⟩
abbrev APC_ERR_FIRST_FC : Fld := ⟨R.APC_ERR_FIRST, 55, 40⟩
abbrev APC_ERR_FIRST_HART : Fld := ⟨R.APC_ERR_FIRST, 38, 32⟩
abbrev APC_ERR_FIRST_TERRACE : Fld := ⟨R.APC_ERR_FIRST, 10, 8⟩
abbrev APC_ERR_FIRST_RING : Fld := ⟨R.APC_ERR_FIRST, 5, 0⟩
abbrev APC_ERR_COUNT_COUNT : Fld := ⟨R.APC_ERR_COUNT, 31, 0⟩
abbrev APC_TQ_DROP_COUNT (i : Nat) : Fld := ⟨R.APC_TQ_DROP i, 31, 0⟩
abbrev APC_RX_BASE_BASE (i j : Nat) : Fld := ⟨R.APC_RX_BASE i j, 63, 0⟩
abbrev APC_RX_CFG_EN (i j : Nat) : Fld := ⟨R.APC_RX_CFG i j, 63, 63⟩
abbrev APC_RX_CFG_INT_EN (i j : Nat) : Fld := ⟨R.APC_RX_CFG i j, 62, 62⟩
abbrev APC_RX_CFG_FILE (i j : Nat) : Fld := ⟨R.APC_RX_CFG i j, 59, 56⟩
abbrev APC_RX_CFG_HART (i j : Nat) : Fld := ⟨R.APC_RX_CFG i j, 46, 40⟩
abbrev APC_RX_CFG_EIID (i j : Nat) : Fld := ⟨R.APC_RX_CFG i j, 39, 32⟩
abbrev APC_RX_CFG_COUNT_LOG2 (i j : Nat) : Fld := ⟨R.APC_RX_CFG i j, 12, 8⟩
abbrev APC_RX_CFG_SLOT_LOG2 (i j : Nat) : Fld := ⟨R.APC_RX_CFG i j, 4, 0⟩
abbrev APC_RX_PI_PI (i j : Nat) : Fld := ⟨R.APC_RX_PI i j, 31, 0⟩
abbrev APC_RX_CI_CI (i j : Nat) : Fld := ⟨R.APC_RX_CI i j, 31, 0⟩
abbrev APC_TX_BASE_BASE (i j : Nat) : Fld := ⟨R.APC_TX_BASE i j, 63, 0⟩
abbrev APC_TX_CFG_EN (i j : Nat) : Fld := ⟨R.APC_TX_CFG i j, 63, 63⟩
abbrev APC_TX_CFG_INT_EN (i j : Nat) : Fld := ⟨R.APC_TX_CFG i j, 62, 62⟩
abbrev APC_TX_CFG_FILE (i j : Nat) : Fld := ⟨R.APC_TX_CFG i j, 59, 56⟩
abbrev APC_TX_CFG_HART (i j : Nat) : Fld := ⟨R.APC_TX_CFG i j, 46, 40⟩
abbrev APC_TX_CFG_EIID (i j : Nat) : Fld := ⟨R.APC_TX_CFG i j, 39, 32⟩
abbrev APC_TX_CFG_COUNT_LOG2 (i j : Nat) : Fld := ⟨R.APC_TX_CFG i j, 12, 8⟩
abbrev APC_TX_CFG_SLOT_LOG2 (i j : Nat) : Fld := ⟨R.APC_TX_CFG i j, 4, 0⟩
abbrev APC_TX_PI_PI (i j : Nat) : Fld := ⟨R.APC_TX_PI i j, 31, 0⟩
abbrev APC_TX_CI_CI (i j : Nat) : Fld := ⟨R.APC_TX_CI i j, 31, 0⟩
abbrev MEM_SCRUB_CFG_PASS_HOURS : Fld := ⟨R.MEM_SCRUB_CFG, 9, 0⟩
abbrev MEM_CE_THRESH_THRESH : Fld := ⟨R.MEM_CE_THRESH, 15, 0⟩
abbrev MEM_DDR_INFO_CHANNELS : Fld := ⟨R.MEM_DDR_INFO, 35, 32⟩
abbrev MEM_DDR_INFO_SIZE_64M : Fld := ⟨R.MEM_DDR_INFO, 13, 0⟩
abbrev MEM_ZERO_PENDING_COUNT : Fld := ⟨R.MEM_ZERO_PENDING, 23, 0⟩
abbrev MEM_PART_VIOL_COUNT : Fld := ⟨R.MEM_PART_VIOL, 31, 0⟩
abbrev MEM_UE_COUNT_COUNT : Fld := ⟨R.MEM_UE_COUNT, 31, 0⟩
abbrev MEM_CH_SEL_CH : Fld := ⟨R.MEM_CH_SEL, 7, 0⟩
abbrev MEM_CH_CE_COUNT : Fld := ⟨R.MEM_CH_CE, 31, 0⟩
abbrev MEM_PART_SEL_REC : Fld := ⟨R.MEM_PART_SEL, 13, 0⟩
abbrev MEM_PART_VIEW_BYTES (i : Nat) : Fld := ⟨R.MEM_PART_VIEW i, 63, 0⟩
abbrev MEM_ERR_STATUS_BITS : Fld := ⟨R.MEM_ERR_STATUS, 6, 0⟩
abbrev MEM_ERR_MASK_MASK : Fld := ⟨R.MEM_ERR_MASK, 6, 0⟩
abbrev MEM_ERR_FIRST_VALID : Fld := ⟨R.MEM_ERR_FIRST, 63, 63⟩
abbrev MEM_ERR_FIRST_FC : Fld := ⟨R.MEM_ERR_FIRST, 55, 40⟩
abbrev MEM_ERR_FIRST_CH : Fld := ⟨R.MEM_ERR_FIRST, 39, 32⟩
abbrev MEM_ERR_FIRST_ADDR : Fld := ⟨R.MEM_ERR_FIRST, 31, 0⟩
abbrev MEM_ERR_COUNT_COUNT : Fld := ⟨R.MEM_ERR_COUNT, 31, 0⟩
abbrev MEM_IOMMU_CAPS_CAPS : Fld := ⟨R.MEM_IOMMU_CAPS, 63, 0⟩
abbrev MEM_IOMMU_FCTL_FCTL : Fld := ⟨R.MEM_IOMMU_FCTL, 2, 0⟩
abbrev MEM_IOMMU_DDTP_PPN : Fld := ⟨R.MEM_IOMMU_DDTP, 53, 10⟩
abbrev MEM_IOMMU_DDTP_BUSY : Fld := ⟨R.MEM_IOMMU_DDTP, 4, 4⟩
abbrev MEM_IOMMU_DDTP_MODE : Fld := ⟨R.MEM_IOMMU_DDTP, 3, 0⟩
abbrev MEM_IOMMU_CQB_PPN : Fld := ⟨R.MEM_IOMMU_CQB, 53, 10⟩
abbrev MEM_IOMMU_CQB_LOG2SZ : Fld := ⟨R.MEM_IOMMU_CQB, 4, 0⟩
abbrev MEM_IOMMU_CQP_CQT : Fld := ⟨R.MEM_IOMMU_CQP, 63, 32⟩
abbrev MEM_IOMMU_CQP_CQH : Fld := ⟨R.MEM_IOMMU_CQP, 31, 0⟩
abbrev MEM_IOMMU_FQB_PPN : Fld := ⟨R.MEM_IOMMU_FQB, 53, 10⟩
abbrev MEM_IOMMU_FQB_LOG2SZ : Fld := ⟨R.MEM_IOMMU_FQB, 4, 0⟩
abbrev MEM_IOMMU_FQP_FQT : Fld := ⟨R.MEM_IOMMU_FQP, 63, 32⟩
abbrev MEM_IOMMU_FQP_FQH : Fld := ⟨R.MEM_IOMMU_FQP, 31, 0⟩
abbrev MEM_IOMMU_CSR_FQON : Fld := ⟨R.MEM_IOMMU_CSR, 48, 48⟩
abbrev MEM_IOMMU_CSR_FQOF : Fld := ⟨R.MEM_IOMMU_CSR, 41, 41⟩
abbrev MEM_IOMMU_CSR_FQMF : Fld := ⟨R.MEM_IOMMU_CSR, 40, 40⟩
abbrev MEM_IOMMU_CSR_FIE : Fld := ⟨R.MEM_IOMMU_CSR, 33, 33⟩
abbrev MEM_IOMMU_CSR_FQEN : Fld := ⟨R.MEM_IOMMU_CSR, 32, 32⟩
abbrev MEM_IOMMU_CSR_CQON : Fld := ⟨R.MEM_IOMMU_CSR, 16, 16⟩
abbrev MEM_IOMMU_CSR_FENCE_IP : Fld := ⟨R.MEM_IOMMU_CSR, 11, 11⟩
abbrev MEM_IOMMU_CSR_CMD_ILL : Fld := ⟨R.MEM_IOMMU_CSR, 10, 10⟩
abbrev MEM_IOMMU_CSR_CMD_TO : Fld := ⟨R.MEM_IOMMU_CSR, 9, 9⟩
abbrev MEM_IOMMU_CSR_CQMF : Fld := ⟨R.MEM_IOMMU_CSR, 8, 8⟩
abbrev MEM_IOMMU_CSR_CIE : Fld := ⟨R.MEM_IOMMU_CSR, 1, 1⟩
abbrev MEM_IOMMU_CSR_CQEN : Fld := ⟨R.MEM_IOMMU_CSR, 0, 0⟩
abbrev MEM_IOMMU_IPSR_FIP : Fld := ⟨R.MEM_IOMMU_IPSR, 33, 33⟩
abbrev MEM_IOMMU_IPSR_CIP : Fld := ⟨R.MEM_IOMMU_IPSR, 32, 32⟩
abbrev MEM_IOMMU_ICVEC_FIV : Fld := ⟨R.MEM_IOMMU_ICVEC, 7, 4⟩
abbrev MEM_IOMMU_ICVEC_CIV : Fld := ⟨R.MEM_IOMMU_ICVEC, 3, 0⟩
abbrev MEM_IOMMU_MSI_ADDR_ADDR (i : Nat) : Fld := ⟨R.MEM_IOMMU_MSI_ADDR i, 55, 2⟩
abbrev MEM_IOMMU_MSI_DATA_MASK (i : Nat) : Fld := ⟨R.MEM_IOMMU_MSI_DATA i, 32, 32⟩
abbrev MEM_IOMMU_MSI_DATA_DATA (i : Nat) : Fld := ⟨R.MEM_IOMMU_MSI_DATA i, 31, 0⟩
abbrev TB_CLK_CFG_REF_SEL : Fld := ⟨R.TB_CLK_CFG, 0, 0⟩
abbrev TB_CLK_STATUS_REF_LOST : Fld := ⟨R.TB_CLK_STATUS, 2, 2⟩
abbrev TB_CLK_STATUS_PLL_LOCK : Fld := ⟨R.TB_CLK_STATUS, 1, 1⟩
abbrev TB_CLK_STATUS_REF_IN_USE : Fld := ⟨R.TB_CLK_STATUS, 0, 0⟩
abbrev TB_ADJ_SEL_STG_TB : Fld := ⟨R.TB_ADJ_SEL_STG, 1, 0⟩
abbrev TB_ADJ_OP_STG_RATE_EN : Fld := ⟨R.TB_ADJ_OP_STG, 4, 4⟩
abbrev TB_ADJ_OP_STG_OP : Fld := ⟨R.TB_ADJ_OP_STG, 1, 0⟩
abbrev TB_ADJ_SEC_STG_SEC : Fld := ⟨R.TB_ADJ_SEC_STG, 47, 0⟩
abbrev TB_ADJ_NS_STG_NS : Fld := ⟨R.TB_ADJ_NS_STG, 47, 16⟩
abbrev TB_ADJ_NS_STG_FRAC : Fld := ⟨R.TB_ADJ_NS_STG, 15, 0⟩
abbrev TB_ADJ_OFFSET_STG_OFFSET : Fld := ⟨R.TB_ADJ_OFFSET_STG, 63, 0⟩
abbrev TB_ADJ_RATE_STG_RATE : Fld := ⟨R.TB_ADJ_RATE_STG, 31, 0⟩
abbrev TB_ADJ_SLEW_STG_SLEW_PPM : Fld := ⟨R.TB_ADJ_SLEW_STG, 9, 0⟩
abbrev TB_COMMIT_PENDING : Fld := ⟨R.TB_COMMIT, 2, 2⟩
abbrev TB_COMMIT_CANCEL : Fld := ⟨R.TB_COMMIT, 1, 1⟩
abbrev TB_COMMIT_GO : Fld := ⟨R.TB_COMMIT, 0, 0⟩
abbrev TB_GEN_GEN : Fld := ⟨R.TB_GEN, 31, 0⟩
abbrev TB_SNAP_CMD_SNAP : Fld := ⟨R.TB_SNAP_CMD, 0, 0⟩
abbrev TB_SNAP_MTIME_MTIME : Fld := ⟨R.TB_SNAP_MTIME, 63, 0⟩
abbrev TB_PPSIN_STATUS_OVERRUN : Fld := ⟨R.TB_PPSIN_STATUS, 63, 63⟩
abbrev TB_PPSIN_STATUS_EDGES : Fld := ⟨R.TB_PPSIN_STATUS, 31, 0⟩
abbrev TB_PPSIN_DELAY_DELAY : Fld := ⟨R.TB_PPSIN_DELAY, 23, 0⟩
abbrev TB_PPSOUT_CFG_EN : Fld := ⟨R.TB_PPSOUT_CFG, 63, 63⟩
abbrev TB_PPSOUT_CFG_TB : Fld := ⟨R.TB_PPSOUT_CFG, 61, 60⟩
abbrev TB_PPSOUT_CFG_WIDTH_US : Fld := ⟨R.TB_PPSOUT_CFG, 51, 32⟩
abbrev TB_PPSOUT_CFG_OFFSET_NS : Fld := ⟨R.TB_PPSOUT_CFG, 29, 0⟩
abbrev TB_PPSOUT_DELAY_DELAY : Fld := ⟨R.TB_PPSOUT_DELAY, 23, 0⟩
abbrev TB_TXTS_COUNT_COUNT : Fld := ⟨R.TB_TXTS_COUNT, 63, 0⟩
abbrev TB_TXTS_DROP_COUNT : Fld := ⟨R.TB_TXTS_DROP, 31, 0⟩
abbrev TB_ONESTEP_COUNT_COUNT : Fld := ⟨R.TB_ONESTEP_COUNT, 63, 0⟩
abbrev TB_ERR_STATUS_PORT_TB : Fld := ⟨R.TB_ERR_STATUS, 4, 4⟩
abbrev TB_ERR_STATUS_PPSIN_OVR : Fld := ⟨R.TB_ERR_STATUS, 3, 3⟩
abbrev TB_ERR_STATUS_ADJ : Fld := ⟨R.TB_ERR_STATUS, 2, 2⟩
abbrev TB_ERR_STATUS_UNLOCK : Fld := ⟨R.TB_ERR_STATUS, 1, 1⟩
abbrev TB_ERR_STATUS_REF_LOST : Fld := ⟨R.TB_ERR_STATUS, 0, 0⟩
abbrev TB_ERR_MASK_MASK : Fld := ⟨R.TB_ERR_MASK, 4, 0⟩
abbrev TB_ERR_FIRST_VALID : Fld := ⟨R.TB_ERR_FIRST, 63, 63⟩
abbrev TB_ERR_FIRST_FC : Fld := ⟨R.TB_ERR_FIRST, 55, 40⟩
abbrev TB_ERR_FIRST_PORT : Fld := ⟨R.TB_ERR_FIRST, 35, 32⟩
abbrev TB_ERR_FIRST_TB : Fld := ⟨R.TB_ERR_FIRST, 1, 0⟩
abbrev TB_ERR_COUNT_COUNT : Fld := ⟨R.TB_ERR_COUNT, 31, 0⟩
abbrev TB_STATUS_HOLDOVER (i : Nat) : Fld := ⟨R.TB_STATUS i, 63, 63⟩
abbrev TB_STATUS_SLEWING (i : Nat) : Fld := ⟨R.TB_STATUS i, 62, 62⟩
abbrev TB_RATE_RATE (i : Nat) : Fld := ⟨R.TB_RATE i, 31, 0⟩
abbrev TB_SLEW_LEFT_LEFT (i : Nat) : Fld := ⟨R.TB_SLEW_LEFT i, 63, 0⟩
abbrev TB_SNAP_SEC_SEC (i : Nat) : Fld := ⟨R.TB_SNAP_SEC i, 47, 0⟩
abbrev TB_SNAP_NS_NS (i : Nat) : Fld := ⟨R.TB_SNAP_NS i, 47, 16⟩
abbrev TB_SNAP_NS_FRAC (i : Nat) : Fld := ⟨R.TB_SNAP_NS i, 15, 0⟩
abbrev TB_PPSIN_SEC_SEC (i : Nat) : Fld := ⟨R.TB_PPSIN_SEC i, 47, 0⟩
abbrev TB_PPSIN_NS_NS (i : Nat) : Fld := ⟨R.TB_PPSIN_NS i, 47, 16⟩
abbrev TB_PPSIN_NS_FRAC (i : Nat) : Fld := ⟨R.TB_PPSIN_NS i, 15, 0⟩
abbrev TB_PORT_CFG_ONE_STEP (i : Nat) : Fld := ⟨R.TB_PORT_CFG i, 9, 8⟩
abbrev TB_PORT_CFG_TB (i : Nat) : Fld := ⟨R.TB_PORT_CFG i, 1, 0⟩
abbrev TB_LANE_RX_TRIM_TRIM (i : Nat) : Fld := ⟨R.TB_LANE_RX_TRIM i, 23, 0⟩
abbrev TB_LANE_TX_TRIM_TRIM (i : Nat) : Fld := ⟨R.TB_LANE_TX_TRIM i, 23, 0⟩
abbrev TB_LANE_CAL_TX_LAT (i : Nat) : Fld := ⟨R.TB_LANE_CAL i, 63, 32⟩
abbrev TB_LANE_CAL_RX_LAT (i : Nat) : Fld := ⟨R.TB_LANE_CAL i, 31, 0⟩
abbrev PWR_OP_SEL_STG_DOMAIN : Fld := ⟨R.PWR_OP_SEL_STG, 2, 0⟩
abbrev PWR_OP_MV_STG_MV : Fld := ⟨R.PWR_OP_MV_STG, 9, 0⟩
abbrev PWR_OP_MHZ_STG_MHZ : Fld := ⟨R.PWR_OP_MHZ_STG, 11, 0⟩
abbrev PWR_OP_COMMIT_PENDING : Fld := ⟨R.PWR_OP_COMMIT, 2, 2⟩
abbrev PWR_OP_COMMIT_CANCEL : Fld := ⟨R.PWR_OP_COMMIT, 1, 1⟩
abbrev PWR_OP_COMMIT_GO : Fld := ⟨R.PWR_OP_COMMIT, 0, 0⟩
abbrev PWR_OP_GEN_GEN : Fld := ⟨R.PWR_OP_GEN, 31, 0⟩
abbrev PWR_OP_STATUS_BUSY : Fld := ⟨R.PWR_OP_STATUS, 63, 63⟩
abbrev PWR_OP_STATUS_LAST_FC : Fld := ⟨R.PWR_OP_STATUS, 15, 0⟩
abbrev PWR_NIGHT_CMD_ENTER : Fld := ⟨R.PWR_NIGHT_CMD, 0, 0⟩
abbrev PWR_NIGHT_CFG_EN : Fld := ⟨R.PWR_NIGHT_CFG, 0, 0⟩
abbrev PWR_NIGHT_ALARM_EN : Fld := ⟨R.PWR_NIGHT_ALARM, 63, 63⟩
abbrev PWR_NIGHT_ALARM_SEC : Fld := ⟨R.PWR_NIGHT_ALARM, 47, 0⟩
abbrev PWR_NIGHT_LIMIT_MS : Fld := ⟨R.PWR_NIGHT_LIMIT, 15, 0⟩
abbrev PWR_THERM_CFG_AUTO_RESTART : Fld := ⟨R.PWR_THERM_CFG, 8, 8⟩
abbrev PWR_THERM_CFG_WARN_C : Fld := ⟨R.PWR_THERM_CFG, 6, 0⟩
abbrev PWR_TEMP_PEAK : Fld := ⟨R.PWR_TEMP, 23, 16⟩
abbrev PWR_TEMP_NOW : Fld := ⟨R.PWR_TEMP, 7, 0⟩
abbrev PWR_RESET_CAUSE_RESETS : Fld := ⟨R.PWR_RESET_CAUSE, 63, 32⟩
abbrev PWR_RESET_CAUSE_CAUSE : Fld := ⟨R.PWR_RESET_CAUSE, 7, 0⟩
abbrev PWR_HOLD_COUNT_COUNT : Fld := ⟨R.PWR_HOLD_COUNT, 31, 0⟩
abbrev PWR_HOLD_MAX_US_MAX : Fld := ⟨R.PWR_HOLD_MAX_US, 19, 0⟩
abbrev PWR_HART_CTRL_START : Fld := ⟨R.PWR_HART_CTRL, 63, 63⟩
abbrev PWR_HART_CTRL_STOP : Fld := ⟨R.PWR_HART_CTRL, 62, 62⟩
abbrev PWR_HART_CTRL_HART : Fld := ⟨R.PWR_HART_CTRL, 6, 0⟩
abbrev PWR_HART_ENTRY_ADDR : Fld := ⟨R.PWR_HART_ENTRY, 63, 0⟩
abbrev PWR_TILE_SEL_TILE : Fld := ⟨R.PWR_TILE_SEL, 9, 0⟩
abbrev PWR_TILE_STATE_WAKES : Fld := ⟨R.PWR_TILE_STATE, 63, 32⟩
abbrev PWR_TILE_STATE_STATE : Fld := ⟨R.PWR_TILE_STATE, 2, 0⟩
abbrev PWR_ERR_STATUS_OP : Fld := ⟨R.PWR_ERR_STATUS, 8, 8⟩
abbrev PWR_ERR_STATUS_AVSBUS : Fld := ⟨R.PWR_ERR_STATUS, 7, 7⟩
abbrev PWR_ERR_STATUS_NIGHT : Fld := ⟨R.PWR_ERR_STATUS, 6, 6⟩
abbrev PWR_ERR_STATUS_TRIP : Fld := ⟨R.PWR_ERR_STATUS, 5, 5⟩
abbrev PWR_ERR_STATUS_THERM : Fld := ⟨R.PWR_ERR_STATUS, 4, 4⟩
abbrev PWR_ERR_STATUS_UNDERVOLT : Fld := ⟨R.PWR_ERR_STATUS, 3, 3⟩
abbrev PWR_ERR_STATUS_QC_FAIL : Fld := ⟨R.PWR_ERR_STATUS, 2, 2⟩
abbrev PWR_ERR_STATUS_HOLD_LIMIT : Fld := ⟨R.PWR_ERR_STATUS, 1, 1⟩
abbrev PWR_ERR_STATUS_WARN : Fld := ⟨R.PWR_ERR_STATUS, 0, 0⟩
abbrev PWR_ERR_MASK_MASK : Fld := ⟨R.PWR_ERR_MASK, 8, 0⟩
abbrev PWR_ERR_FIRST_VALID : Fld := ⟨R.PWR_ERR_FIRST, 63, 63⟩
abbrev PWR_ERR_FIRST_FC : Fld := ⟨R.PWR_ERR_FIRST, 55, 40⟩
abbrev PWR_ERR_FIRST_TILE : Fld := ⟨R.PWR_ERR_FIRST, 33, 24⟩
abbrev PWR_ERR_FIRST_DOMAIN : Fld := ⟨R.PWR_ERR_FIRST, 2, 0⟩
abbrev PWR_ERR_COUNT_COUNT : Fld := ⟨R.PWR_ERR_COUNT, 31, 0⟩
abbrev PWR_DOM_STATUS_HOLD (i : Nat) : Fld := ⟨R.PWR_DOM_STATUS i, 63, 63⟩
abbrev PWR_DOM_STATUS_QUALIFYING (i : Nat) : Fld := ⟨R.PWR_DOM_STATUS i, 62, 62⟩
abbrev PWR_DOM_STATUS_MHZ (i : Nat) : Fld := ⟨R.PWR_DOM_STATUS i, 53, 42⟩
abbrev PWR_DOM_STATUS_MEASURED_MV (i : Nat) : Fld := ⟨R.PWR_DOM_STATUS i, 41, 32⟩
abbrev PWR_DOM_STATUS_WARN_MV (i : Nat) : Fld := ⟨R.PWR_DOM_STATUS i, 25, 16⟩
abbrev PWR_DOM_STATUS_SETPOINT_MV (i : Nat) : Fld := ⟨R.PWR_DOM_STATUS i, 9, 0⟩
abbrev SDL_REPLAN_CFG_INTERVAL_H : Fld := ⟨R.SDL_REPLAN_CFG, 9, 0⟩
abbrev SDL_OP_HOURS_HOURS : Fld := ⟨R.SDL_OP_HOURS, 31, 0⟩
abbrev SDL_REPLAN_DUE_AT_DUE : Fld := ⟨R.SDL_REPLAN_DUE_AT, 31, 0⟩
abbrev SDL_REPLAN_DONE_DONE : Fld := ⟨R.SDL_REPLAN_DONE, 0, 0⟩
abbrev SDL_SAMPLE_CFG_SAMPLE_MS : Fld := ⟨R.SDL_SAMPLE_CFG, 9, 0⟩
abbrev SDL_THRESH_WARN_PS : Fld := ⟨R.SDL_THRESH, 31, 16⟩
abbrev SDL_THRESH_QC_MIN_PS : Fld := ⟨R.SDL_THRESH, 15, 0⟩
abbrev SDL_SENS_SEL_SENSOR : Fld := ⟨R.SDL_SENS_SEL, 8, 0⟩
abbrev SDL_SENS_DATA_EXCLUDED : Fld := ⟨R.SDL_SENS_DATA, 63, 63⟩
abbrev SDL_SENS_DATA_DOMAIN : Fld := ⟨R.SDL_SENS_DATA, 58, 56⟩
abbrev SDL_SENS_DATA_TEMP : Fld := ⟨R.SDL_SENS_DATA, 55, 48⟩
abbrev SDL_SENS_DATA_SHIFT : Fld := ⟨R.SDL_SENS_DATA, 47, 32⟩
abbrev SDL_SENS_DATA_MARGIN : Fld := ⟨R.SDL_SENS_DATA, 15, 0⟩
abbrev SDL_DOM_SUMMARY_SHIFT (i : Nat) : Fld := ⟨R.SDL_DOM_SUMMARY i, 47, 32⟩
abbrev SDL_DOM_SUMMARY_MARGIN (i : Nat) : Fld := ⟨R.SDL_DOM_SUMMARY i, 15, 0⟩
abbrev SDL_ERR_STATUS_MARGIN_LOW : Fld := ⟨R.SDL_ERR_STATUS, 4, 4⟩
abbrev SDL_ERR_STATUS_SENSOR : Fld := ⟨R.SDL_ERR_STATUS, 3, 3⟩
abbrev SDL_ERR_STATUS_QUALIFY : Fld := ⟨R.SDL_ERR_STATUS, 2, 2⟩
abbrev SDL_ERR_STATUS_OVERDUE : Fld := ⟨R.SDL_ERR_STATUS, 1, 1⟩
abbrev SDL_ERR_STATUS_DUE : Fld := ⟨R.SDL_ERR_STATUS, 0, 0⟩
abbrev SDL_ERR_MASK_MASK : Fld := ⟨R.SDL_ERR_MASK, 4, 0⟩
abbrev SDL_ERR_FIRST_VALID : Fld := ⟨R.SDL_ERR_FIRST, 63, 63⟩
abbrev SDL_ERR_FIRST_FC : Fld := ⟨R.SDL_ERR_FIRST, 55, 40⟩
abbrev SDL_ERR_FIRST_DOMAIN : Fld := ⟨R.SDL_ERR_FIRST, 18, 16⟩
abbrev SDL_ERR_FIRST_SENSOR : Fld := ⟨R.SDL_ERR_FIRST, 8, 0⟩
abbrev SDL_ERR_COUNT_COUNT : Fld := ⟨R.SDL_ERR_COUNT, 31, 0⟩
abbrev BOOT_STATUS_FAIL_FC : Fld := ⟨R.BOOT_STATUS, 63, 48⟩
abbrev BOOT_STATUS_ATTEMPTS : Fld := ⟨R.BOOT_STATUS, 39, 32⟩
abbrev BOOT_STATUS_DUAL_VALID : Fld := ⟨R.BOOT_STATUS, 31, 31⟩
abbrev BOOT_STATUS_TIE : Fld := ⟨R.BOOT_STATUS, 30, 30⟩
abbrev BOOT_STATUS_TORN : Fld := ⟨R.BOOT_STATUS, 29, 29⟩
abbrev BOOT_STATUS_WARM_FALLBACK : Fld := ⟨R.BOOT_STATUS, 28, 28⟩
abbrev BOOT_STATUS_SRC_STRAP : Fld := ⟨R.BOOT_STATUS, 21, 20⟩
abbrev BOOT_STATUS_SOURCE : Fld := ⟨R.BOOT_STATUS, 11, 8⟩
abbrev BOOT_STATUS_PHASE : Fld := ⟨R.BOOT_STATUS, 3, 0⟩
abbrev BOOT_CMD_SLOT : Fld := ⟨R.BOOT_CMD, 8, 8⟩
abbrev BOOT_CMD_OP : Fld := ⟨R.BOOT_CMD, 3, 0⟩
abbrev BOOT_CMD_STATUS_BUSY : Fld := ⟨R.BOOT_CMD_STATUS, 63, 63⟩
abbrev BOOT_CMD_STATUS_LAST_FC : Fld := ⟨R.BOOT_CMD_STATUS, 15, 0⟩
abbrev BOOT_IMG_BASE_BASE : Fld := ⟨R.BOOT_IMG_BASE, 63, 0⟩
abbrev BOOT_IMG_LEN_LEN : Fld := ⟨R.BOOT_IMG_LEN, 31, 0⟩
abbrev BOOT_SEQ_SEQ : Fld := ⟨R.BOOT_SEQ, 63, 0⟩
abbrev BOOT_IMG_ARB_ARB : Fld := ⟨R.BOOT_IMG_ARB, 31, 0⟩
abbrev BOOT_ARB_FLOOR_FLOOR : Fld := ⟨R.BOOT_ARB_FLOOR, 31, 0⟩
abbrev BOOT_MEAS_MEAS (i : Nat) : Fld := ⟨R.BOOT_MEAS i, 63, 0⟩
abbrev BOOT_STAGE2_LIMIT_MS : Fld := ⟨R.BOOT_STAGE2_LIMIT, 15, 0⟩
abbrev BOOT_SLOT_STATE_B_RESULT : Fld := ⟨R.BOOT_SLOT_STATE, 15, 12⟩
abbrev BOOT_SLOT_STATE_B_STATE : Fld := ⟨R.BOOT_SLOT_STATE, 11, 8⟩
abbrev BOOT_SLOT_STATE_A_RESULT : Fld := ⟨R.BOOT_SLOT_STATE, 7, 4⟩
abbrev BOOT_SLOT_STATE_A_STATE : Fld := ⟨R.BOOT_SLOT_STATE, 3, 0⟩
abbrev BOOT_SLOTA_SEQ_SEQ : Fld := ⟨R.BOOT_SLOTA_SEQ, 63, 0⟩
abbrev BOOT_SLOTB_SEQ_SEQ : Fld := ⟨R.BOOT_SLOTB_SEQ, 63, 0⟩
abbrev BOOT_ERR_STATUS_STATUS : Fld := ⟨R.BOOT_ERR_STATUS, 12, 0⟩
abbrev BOOT_ERR_MASK_MASK : Fld := ⟨R.BOOT_ERR_MASK, 12, 0⟩
abbrev BOOT_ERR_FIRST_VALID : Fld := ⟨R.BOOT_ERR_FIRST, 63, 63⟩
abbrev BOOT_ERR_FIRST_FC : Fld := ⟨R.BOOT_ERR_FIRST, 55, 40⟩
abbrev BOOT_ERR_FIRST_SOURCE : Fld := ⟨R.BOOT_ERR_FIRST, 39, 32⟩
abbrev BOOT_ERR_FIRST_OFFSET : Fld := ⟨R.BOOT_ERR_FIRST, 31, 0⟩
abbrev BOOT_ERR_COUNT_COUNT : Fld := ⟨R.BOOT_ERR_COUNT, 31, 0⟩
abbrev BOOT_XSPI_ADDR_ADDR : Fld := ⟨R.BOOT_XSPI_ADDR, 29, 0⟩
abbrev BOOT_XSPI_LEN_LEN : Fld := ⟨R.BOOT_XSPI_LEN, 28, 0⟩
abbrev BOOT_XSPI_BUF_ADDR : Fld := ⟨R.BOOT_XSPI_BUF, 63, 0⟩
abbrev BOOT_XSPI_CMD_OP : Fld := ⟨R.BOOT_XSPI_CMD, 1, 0⟩
abbrev BOOT_XSPI_STATUS_BUSY : Fld := ⟨R.BOOT_XSPI_STATUS, 63, 63⟩
abbrev BOOT_XSPI_STATUS_LAST_FC : Fld := ⟨R.BOOT_XSPI_STATUS, 15, 0⟩
abbrev WKT_LIFECYCLE_LATCHED : Fld := ⟨R.WKT_LIFECYCLE, 2, 2⟩
abbrev WKT_LIFECYCLE_ERASING : Fld := ⟨R.WKT_LIFECYCLE, 1, 1⟩
abbrev WKT_LIFECYCLE_OPEN : Fld := ⟨R.WKT_LIFECYCLE, 0, 0⟩
abbrev WKT_UID_UID (i : Nat) : Fld := ⟨R.WKT_UID i, 63, 0⟩
abbrev WKT_EPOCH_EPOCH (i : Nat) : Fld := ⟨R.WKT_EPOCH i, 63, 0⟩
abbrev WKT_CHAL_CMD_GEN : Fld := ⟨R.WKT_CHAL_CMD, 0, 0⟩
abbrev WKT_CHAL_CHAL (i : Nat) : Fld := ⟨R.WKT_CHAL i, 63, 0⟩
abbrev WKT_TOKEN_SRC_ADDR : Fld := ⟨R.WKT_TOKEN_SRC, 63, 0⟩
abbrev WKT_TOKEN_CMD_SRC : Fld := ⟨R.WKT_TOKEN_CMD, 4, 4⟩
abbrev WKT_TOKEN_CMD_SUBMIT : Fld := ⟨R.WKT_TOKEN_CMD, 0, 0⟩
abbrev WKT_TOKEN_STATUS_BUSY : Fld := ⟨R.WKT_TOKEN_STATUS, 63, 63⟩
abbrev WKT_TOKEN_STATUS_LAST_FC : Fld := ⟨R.WKT_TOKEN_STATUS, 15, 0⟩
abbrev WKT_ARB_CMD_RAISE : Fld := ⟨R.WKT_ARB_CMD, 4, 4⟩
abbrev WKT_ARB_CMD_KIND : Fld := ⟨R.WKT_ARB_CMD, 1, 0⟩
abbrev WKT_ARB_USED_UCODE : Fld := ⟨R.WKT_ARB_USED, 21, 16⟩
abbrev WKT_ARB_USED_BOOT : Fld := ⟨R.WKT_ARB_USED, 13, 8⟩
abbrev WKT_ARB_USED_SITE : Fld := ⟨R.WKT_ARB_USED, 5, 0⟩
abbrev WKT_BANK_STATUS_UCODE : Fld := ⟨R.WKT_BANK_STATUS, 13, 12⟩
abbrev WKT_BANK_STATUS_DEBUG : Fld := ⟨R.WKT_BANK_STATUS, 9, 8⟩
abbrev WKT_BANK_STATUS_BOOT : Fld := ⟨R.WKT_BANK_STATUS, 5, 4⟩
abbrev WKT_BANK_STATUS_SITE : Fld := ⟨R.WKT_BANK_STATUS, 1, 0⟩
abbrev WKT_S2_MEAS_MEAS (i : Nat) : Fld := ⟨R.WKT_S2_MEAS i, 63, 0⟩
abbrev WKT_ERR_STATUS_OPENED : Fld := ⟨R.WKT_ERR_STATUS, 9, 9⟩
abbrev WKT_ERR_STATUS_TRNG : Fld := ⟨R.WKT_ERR_STATUS, 8, 8⟩
abbrev WKT_ERR_STATUS_REVOKE : Fld := ⟨R.WKT_ERR_STATUS, 7, 7⟩
abbrev WKT_ERR_STATUS_ARB : Fld := ⟨R.WKT_ERR_STATUS, 6, 6⟩
abbrev WKT_ERR_STATUS_STATE : Fld := ⟨R.WKT_ERR_STATUS, 5, 5⟩
abbrev WKT_ERR_STATUS_CHAL : Fld := ⟨R.WKT_ERR_STATUS, 4, 4⟩
abbrev WKT_ERR_STATUS_KEY_ID : Fld := ⟨R.WKT_ERR_STATUS, 3, 3⟩
abbrev WKT_ERR_STATUS_MLDSA : Fld := ⟨R.WKT_ERR_STATUS, 2, 2⟩
abbrev WKT_ERR_STATUS_ECDSA : Fld := ⟨R.WKT_ERR_STATUS, 1, 1⟩
abbrev WKT_ERR_STATUS_FORMAT : Fld := ⟨R.WKT_ERR_STATUS, 0, 0⟩
abbrev WKT_ERR_MASK_MASK : Fld := ⟨R.WKT_ERR_MASK, 9, 0⟩
abbrev WKT_ERR_FIRST_VALID : Fld := ⟨R.WKT_ERR_FIRST, 63, 63⟩
abbrev WKT_ERR_FIRST_FC : Fld := ⟨R.WKT_ERR_FIRST, 55, 40⟩
abbrev WKT_ERR_FIRST_PURPOSE : Fld := ⟨R.WKT_ERR_FIRST, 9, 8⟩
abbrev WKT_ERR_FIRST_KIND : Fld := ⟨R.WKT_ERR_FIRST, 1, 0⟩
abbrev WKT_ERR_COUNT_COUNT : Fld := ⟨R.WKT_ERR_COUNT, 31, 0⟩
abbrev FLT_SUMMARY_SUMMARY : Fld := ⟨R.FLT_SUMMARY, 26, 0⟩
abbrev FLT_MSIX_EN : Fld := ⟨R.FLT_MSIX, 63, 63⟩
abbrev FLT_MSIX_VECTOR : Fld := ⟨R.FLT_MSIX, 10, 0⟩
abbrev FLT_APLIC_EN_EN : Fld := ⟨R.FLT_APLIC_EN, 26, 0⟩
abbrev FLT_CMD_TIMEOUT_EXT_MS : Fld := ⟨R.FLT_CMD_TIMEOUT, 47, 24⟩
abbrev FLT_CMD_TIMEOUT_LIMIT_US : Fld := ⟨R.FLT_CMD_TIMEOUT, 15, 0⟩
abbrev FLT_RETIRE_CFG_EN : Fld := ⟨R.FLT_RETIRE_CFG, 63, 63⟩
abbrev FLT_RETIRE_CFG_COUNT : Fld := ⟨R.FLT_RETIRE_CFG, 15, 8⟩
abbrev FLT_RETIRE_CFG_WINDOW_H : Fld := ⟨R.FLT_RETIRE_CFG, 7, 0⟩
abbrev FLT_INTR_MAX_US_MAX : Fld := ⟨R.FLT_INTR_MAX_US, 19, 0⟩
abbrev FLT_INTR_TOTAL_US_TOTAL : Fld := ⟨R.FLT_INTR_TOTAL_US, 63, 0⟩
abbrev FLT_INTR_EVENTS_COUNT : Fld := ⟨R.FLT_INTR_EVENTS, 31, 0⟩
abbrev FLT_LATE_CPL_COUNT : Fld := ⟨R.FLT_LATE_CPL, 31, 0⟩
abbrev FLT_COPY_REPAIR_COUNT : Fld := ⟨R.FLT_COPY_REPAIR, 31, 0⟩
abbrev FLT_TILE_SEL_TILE : Fld := ⟨R.FLT_TILE_SEL, 9, 0⟩
abbrev FLT_TILE_INFO_RETIRED : Fld := ⟨R.FLT_TILE_INFO, 63, 63⟩
abbrev FLT_TILE_INFO_UE : Fld := ⟨R.FLT_TILE_INFO, 47, 32⟩
abbrev FLT_TILE_INFO_CE : Fld := ⟨R.FLT_TILE_INFO, 15, 0⟩
abbrev FLT_ERR_STATUS_BUDGET : Fld := ⟨R.FLT_ERR_STATUS, 3, 3⟩
abbrev FLT_ERR_STATUS_RETIRED : Fld := ⟨R.FLT_ERR_STATUS, 2, 2⟩
abbrev FLT_ERR_STATUS_COPY : Fld := ⟨R.FLT_ERR_STATUS, 1, 1⟩
abbrev FLT_ERR_STATUS_CPL_LOST : Fld := ⟨R.FLT_ERR_STATUS, 0, 0⟩
abbrev FLT_ERR_MASK_MASK : Fld := ⟨R.FLT_ERR_MASK, 3, 0⟩
abbrev FLT_ERR_FIRST_VALID : Fld := ⟨R.FLT_ERR_FIRST, 63, 63⟩
abbrev FLT_ERR_FIRST_FC : Fld := ⟨R.FLT_ERR_FIRST, 55, 40⟩
abbrev FLT_ERR_FIRST_TILE : Fld := ⟨R.FLT_ERR_FIRST, 25, 16⟩
abbrev FLT_ERR_FIRST_EP : Fld := ⟨R.FLT_ERR_FIRST, 15, 0⟩
abbrev FLT_ERR_COUNT_COUNT : Fld := ⟨R.FLT_ERR_COUNT, 31, 0⟩

end F

end Sys2Proof.Machine
end

