-- ==== Sys2Proof/Machine/RegSpec.lean ====
section
/-! DEFINITION. How a register is described: access types (Table 0-2), encodings (R9, R579), reset
values, repetition, and the generic effect of a write and a read. -/

namespace Sys2Proof.Machine

/-- The register access types of Table 0-2 (R11). -/
inductive Acc
  | ro | rw | rw1c | w1s | wo | rc | rwl
  deriving DecidableEq, Repr

/-- The values a field's encoding allows; every other value is a reserved encoding (R9, R579). -/
inductive Enc
  | any
  | range (lo hi : Nat)
  | among (l : List Nat)
  | aligned (n : Nat)
  deriving DecidableEq, Repr

/-- A field's reset value: one number, the register's index, 256 × the index of its group of 128 registers, or 7 minus
its second index. -/
inductive Rst
  | const (n : Nat)
  | index
  | queue0
  | revIndex2
  deriving DecidableEq, Repr

structure FieldSpec where
  hi : Nat
  lo : Nat
  acc : Acc
  reset : Rst
  enc : Enc
  deriving DecidableEq, Repr

/-- One register, or an array of `count` registers `stride` bytes apart, each of them repeated
`count2` times `stride2` bytes apart. -/
structure RegSpec where
  off : Nat
  stride : Nat
  count : Nat
  stride2 : Nat
  count2 : Nat
  fields : List FieldSpec
  deriving DecidableEq, Repr

/-- The indices of the register at offset `o`, if this row describes it. -/
def RegSpec.index? (r : RegSpec) (o : Nat) : Option (Nat × Nat) :=
  if o < r.off then none
  else
    let i := (o - r.off) / r.stride
    let m := (o - r.off) % r.stride
    if i < r.count ∧ m % r.stride2 = 0 ∧ m / r.stride2 < r.count2 then some (i, m / r.stride2)
    else none

/-- The row that describes offset `o`, with the register's indices. -/
def findReg : List RegSpec → Nat → Option (RegSpec × Nat × Nat)
  | [], _ => none
  | r :: t, o =>
    match r.index? o with
    | some (i, j) => some (r, i, j)
    | none => findReg t o

/-- A field's reset value in the register with the given indices. -/
def rstVal (i j : Nat) : Rst → Nat
  | .const n => n
  | .index => i
  | .queue0 => 256 * (i / 128)
  | .revIndex2 => 7 - j

/-- A register's reset value: its fields' reset values, reserved bits zero (R8). -/
def specReset (r : RegSpec) (i j : Nat) : Word :=
  r.fields.foldl (fun w f => setBits w f.hi f.lo (rstVal i j f.reset)) 0

/-- Does the encoding allow the value? -/
def Enc.allows (e : Enc) (v : Nat) : Bool :=
  match e with
  | .any => true
  | .range a b => decide (a ≤ v) && decide (v ≤ b)
  | .among l => l.contains v
  | .aligned n => v % n == 0

/-- Is a field written by software, so that its encoding is checked? -/
def Acc.writable : Acc → Bool
  | .rw | .wo | .rwl | .w1s | .rw1c => true
  | .ro | .rc => false

/-- Does the value written hold a reserved encoding in some field that software writes (R9)? -/
def specEncOk (r : RegSpec) (w : Word) : Bool :=
  r.fields.all fun f => !f.acc.writable || f.enc.allows (bitsAt w f.hi f.lo)

/-- One field after a write (Table 0-2). -/
def writeField (locked : Bool) (new : Word) (old : Word) (f : FieldSpec) : Word :=
  let n := bitsAt new f.hi f.lo
  let o := bitsAt old f.hi f.lo
  match f.acc with
  | .rw => setBits old f.hi f.lo n
  | .rwl => if locked then old else setBits old f.hi f.lo n
  | .rw1c => setBits old f.hi f.lo (o - (o &&& n))
  | .w1s => setBits old f.hi f.lo (o ||| n)
  | .ro | .rc | .wo => old

/-- A register after a write: every field by its access type, reserved bits ignored (R8, R11). -/
def specWrite (r : RegSpec) (locked : Bool) (old new : Word) : Word :=
  r.fields.foldl (writeField locked new) old

/-- A register after a read: RC fields cleared (R11). -/
def specAfterRead (r : RegSpec) (old : Word) : Word :=
  r.fields.foldl (fun w f => if f.acc = .rc then setBits w f.hi f.lo 0 else w) old

/-- Are the fields those of every `_COMMIT` register (Table 1-4)? -/
def RegSpec.isCommit (r : RegSpec) : Bool :=
  r.fields.map (fun f => (f.hi, f.lo, f.acc)) == [(2, 2, .ro), (1, 1, .wo), (0, 0, .wo)]

end Sys2Proof.Machine
end

