-- ==== Sys2Proof/Machine/RegTable.lean ====
section
/-! DEFINITION. The register maps of every unit, one row per register of the spec's
register tables: offset in the block, repetition, fields with access type, reset value and encoding. -/

namespace Sys2Proof.Machine

/-- SITE registers, piece 0. -/
def regsSite0 : List RegSpec := [
  -- SITE_SRC_ADDR_STG (R62)
  ⟨0x0, 8, 1, 1, 1, [⟨63, 0, .rw, .const 0, .aligned 64⟩]⟩,
  -- SITE_SRC_LEN_STG (R62)
  ⟨0x8, 8, 1, 1, 1, [⟨31, 0, .rw, .const 0, .any⟩]⟩,
  -- SITE_SRC_CFG_STG (R62)
  ⟨0x10, 8, 1, 1, 1, [⟨0, 0, .rw, .const 0, .any⟩]⟩,
  -- SITE_COMMIT (R62)
  ⟨0x18, 8, 1, 1, 1, [⟨2, 2, .ro, .const 0, .any⟩, ⟨1, 1, .wo, .const 0, .any⟩, ⟨0, 0, .wo, .const 0, .any⟩]⟩,
  -- SITE_GEN (R62)
  ⟨0x20, 8, 1, 1, 1, [⟨31, 0, .ro, .const 0, .any⟩]⟩,
  -- SITE_STATUS (R62)
  ⟨0x28, 8, 1, 1, 1, [⟨23, 16, .ro, .const 0, .any⟩, ⟨15, 15, .ro, .const 0, .any⟩, ⟨14, 14, .ro, .const 0, .any⟩, ⟨3, 0, .ro, .const 0, .any⟩]⟩,
  -- SITE_LIVE_SEQ (R62)
  ⟨0x30, 8, 1, 1, 1, [⟨63, 0, .ro, .const 0, .any⟩]⟩,
  -- SITE_LIVE_ARB (R62)
  ⟨0x38, 8, 1, 1, 1, [⟨31, 0, .ro, .const 0, .any⟩]⟩,
  -- SITE_ARB_FLOOR (R62)
  ⟨0x40, 8, 1, 1, 1, [⟨31, 0, .ro, .const 0, .any⟩]⟩,
  -- SITE_LIVE_DIGEST (R62)
  ⟨0x48, 8, 6, 1, 1, [⟨63, 0, .ro, .const 0, .any⟩]⟩,
  -- SITE_QUIESCE_LIMIT (R62)
  ⟨0x78, 8, 1, 1, 1, [⟨31, 0, .rw, .const 100000, .range 1000 60000000⟩]⟩,
  -- SITE_DRAIN_LIMIT (R62)
  ⟨0x80, 8, 1, 1, 1, [⟨31, 0, .rw, .const 1000, .range 0 100000⟩]⟩,
  -- SITE_DRAIN_DISCARD (R62)
  ⟨0x88, 8, 1, 1, 1, [⟨31, 0, .rc, .const 0, .any⟩]⟩,
  -- SITE_SEC_SEL (R62)
  ⟨0x90, 8, 1, 1, 1, [⟨15, 8, .rw, .const 0, .any⟩, ⟨7, 0, .rw, .const 0, .any⟩]⟩,
  -- SITE_SEC_INFO (R62)
  ⟨0x98, 8, 1, 1, 1, [⟨63, 63, .ro, .const 0, .any⟩, ⟨47, 32, .ro, .const 0, .any⟩, ⟨31, 0, .ro, .const 0, .any⟩]⟩,
  -- SITE_SEC_DIGEST (R62)
  ⟨0xA0, 8, 6, 1, 1, [⟨63, 0, .ro, .const 0, .any⟩]⟩]

/-- SITE registers, piece 1. -/
def regsSite1 : List RegSpec := [
  -- SITE_ERR_STATUS (R62)
  ⟨0x100, 8, 1, 1, 1, [⟨3, 3, .rw1c, .const 0, .any⟩, ⟨2, 2, .rw1c, .const 0, .any⟩, ⟨1, 1, .rw1c, .const 0, .any⟩, ⟨0, 0, .rw1c, .const 0, .any⟩]⟩,
  -- SITE_ERR_MASK (R62)
  ⟨0x108, 8, 1, 1, 1, [⟨3, 0, .rw, .const 0, .any⟩]⟩,
  -- SITE_ERR_FIRST (R62)
  ⟨0x110, 8, 1, 1, 1, [⟨63, 63, .rw1c, .const 0, .any⟩, ⟨55, 40, .ro, .const 0, .any⟩, ⟨39, 32, .ro, .const 0, .any⟩, ⟨31, 24, .ro, .const 0, .any⟩, ⟨23, 0, .ro, .const 0, .any⟩]⟩,
  -- SITE_ERR_COUNT (R62)
  ⟨0x118, 8, 1, 1, 1, [⟨31, 0, .rc, .const 0, .any⟩]⟩]

/-- The register map of SITE (02_site_plan.md R62). -/
def regsSite : List RegSpec := regsSite0 ++ regsSite1

/-- PRM registers, piece 0. -/
def regsPrm0 : List RegSpec := [
  -- PRM_STALL_LIMIT (R91)
  ⟨0x0, 8, 1, 1, 1, [⟨23, 0, .rw, .const 100, .range 1 16000⟩]⟩,
  -- PRM_TRACE_CFG (R91)
  ⟨0x8, 8, 1, 1, 1, [⟨16, 16, .rw, .const 0, .any⟩, ⟨15, 0, .rw, .const 96, .any⟩]⟩,
  -- PRM_INJ_REFUSE (R91)
  ⟨0x10, 8, 1, 1, 1, [⟨31, 0, .rc, .const 0, .any⟩]⟩,
  -- PRM_TD_REFUSE (R91)
  ⟨0x18, 8, 1, 1, 1, [⟨31, 0, .rc, .const 0, .any⟩]⟩,
  -- PRM_ABORT_COUNT (R91)
  ⟨0x20, 8, 1, 1, 1, [⟨31, 0, .rc, .const 0, .any⟩]⟩,
  -- PRM_WAKE_COUNT (R91)
  ⟨0x28, 8, 1, 1, 1, [⟨31, 0, .rc, .const 0, .any⟩]⟩,
  -- PRM_TRACE_DROP (R91)
  ⟨0x30, 8, 1, 1, 1, [⟨31, 0, .rc, .const 0, .any⟩]⟩,
  -- PRM_ECC_CORR (R91)
  ⟨0x38, 8, 1, 1, 1, [⟨31, 0, .rc, .const 0, .any⟩]⟩,
  -- PRM_LINK_SEL (R91)
  ⟨0x40, 8, 1, 1, 1, [⟨11, 2, .rw, .const 0, .any⟩, ⟨1, 0, .rw, .const 0, .any⟩]⟩,
  -- PRM_LINK_FLITS (R91)
  ⟨0x48, 8, 1, 1, 1, [⟨63, 0, .ro, .const 0, .any⟩]⟩,
  -- PRM_IBUF_OCC (R91)
  ⟨0x50, 8, 1, 1, 1, [⟨48, 32, .ro, .const 0, .any⟩, ⟨16, 0, .ro, .const 0, .any⟩]⟩,
  -- PRM_ERR_STATUS (R91)
  ⟨0x100, 8, 1, 1, 1, [⟨6, 6, .rw1c, .const 0, .any⟩, ⟨5, 5, .rw1c, .const 0, .any⟩, ⟨4, 4, .rw1c, .const 0, .any⟩, ⟨3, 3, .rw1c, .const 0, .any⟩, ⟨2, 2, .rw1c, .const 0, .any⟩, ⟨1, 1, .rw1c, .const 0, .any⟩, ⟨0, 0, .rw1c, .const 0, .any⟩]⟩,
  -- PRM_ERR_MASK (R91)
  ⟨0x108, 8, 1, 1, 1, [⟨6, 0, .rw, .const 0, .any⟩]⟩,
  -- PRM_ERR_FIRST (R91)
  ⟨0x110, 8, 1, 1, 1, [⟨63, 63, .rw1c, .const 0, .any⟩, ⟨47, 32, .ro, .const 0, .any⟩, ⟨31, 16, .ro, .const 0, .any⟩, ⟨15, 0, .ro, .const 0, .any⟩]⟩,
  -- PRM_ERR_COUNT (R91)
  ⟨0x118, 8, 1, 1, 1, [⟨31, 0, .rc, .const 0, .any⟩]⟩]

/-- The register map of PRM (03_promenade.md R91). -/
def regsPrm : List RegSpec := regsPrm0

/-- ETH registers, piece 0. -/
def regsEth0 : List RegSpec := [
  -- ETH_ERR_STATUS (R91)
  ⟨0x100, 8, 1, 1, 1, []⟩,
  -- ETH_ERR_MASK (R91)
  ⟨0x108, 8, 1, 1, 1, []⟩,
  -- ETH_ERR_FIRST (R91)
  ⟨0x110, 8, 1, 1, 1, [⟨63, 63, .rw1c, .const 0, .any⟩, ⟨55, 40, .ro, .const 0, .any⟩]⟩,
  -- ETH_ERR_COUNT (R91)
  ⟨0x118, 8, 1, 1, 1, [⟨31, 0, .rc, .const 0, .any⟩]⟩,
  -- ETH_PFC_CFG (R91)
  ⟨0x2000, 8, 1, 1, 1, [⟨48, 32, .rw, .const 57344, .range 1024 65536⟩, ⟨18, 16, .rw, .const 0, .any⟩, ⟨15, 0, .rw, .const 65535, .range 1 65535⟩]⟩,
  -- ETH_PFC_THR (R91)
  ⟨0x2100, 8, 128, 1, 1, [⟨63, 63, .rw, .const 0, .any⟩, ⟨48, 32, .rw, .const 512, .range 1 65536⟩, ⟨16, 0, .rw, .const 256, .any⟩]⟩,
  -- ETH_LINK_CTRL (R250)
  ⟨0x3000, 256, 16, 1, 1, [⟨0, 0, .rw, .const 1, .any⟩]⟩,
  -- ETH_RX_CFG (R250)
  ⟨0x3008, 256, 16, 1, 1, [⟨29, 16, .rw, .const 9600, .range 64 16383⟩, ⟨0, 0, .rw, .const 0, .any⟩]⟩,
  -- ETH_MAC_ADDR (R250)
  ⟨0x3010, 256, 16, 1, 1, [⟨47, 0, .rw, .const 0, .any⟩]⟩,
  -- ETH_LINK_STATUS (R250)
  ⟨0x3018, 256, 16, 1, 1, [⟨1, 1, .ro, .const 0, .any⟩, ⟨0, 0, .ro, .const 0, .any⟩]⟩,
  -- ETH_RX_ABORT (R250)
  ⟨0x3020, 256, 16, 1, 1, [⟨31, 0, .rc, .const 0, .any⟩]⟩,
  -- ETH_RX_BAD (R250)
  ⟨0x3028, 256, 16, 1, 1, [⟨31, 0, .rc, .const 0, .any⟩]⟩,
  -- ETH_RX_OVERSIZE (R250)
  ⟨0x3030, 256, 16, 1, 1, [⟨31, 0, .rc, .const 0, .any⟩]⟩,
  -- ETH_RX_FILTERED (R250)
  ⟨0x3038, 256, 16, 1, 1, [⟨31, 0, .rc, .const 0, .any⟩]⟩,
  -- ETH_RX_NOBUF (R250)
  ⟨0x3040, 256, 16, 1, 1, [⟨31, 0, .rc, .const 0, .any⟩]⟩,
  -- ETH_TX_ABORT (R250)
  ⟨0x3048, 256, 16, 1, 1, [⟨31, 0, .rc, .const 0, .any⟩]⟩]

/-- The register map of ETH (03_promenade.md R91, 09_scheduling.md R250). -/
def regsEth : List RegSpec := regsEth0

/-- PAV registers, piece 0. -/
def regsPav0 : List RegSpec := [
  -- PAV_CMD_ARG0 (R128)
  ⟨0x0, 8, 1, 1, 1, [⟨63, 0, .rw, .const 0, .any⟩]⟩,
  -- PAV_CMD_ARG1 (R128)
  ⟨0x8, 8, 1, 1, 1, [⟨31, 0, .rw, .const 0, .any⟩]⟩,
  -- PAV_CMD (R128)
  ⟨0x10, 8, 1, 1, 1, [⟨47, 32, .wo, .const 0, .any⟩, ⟨13, 8, .wo, .const 0, .any⟩, ⟨4, 4, .wo, .const 0, .any⟩, ⟨3, 0, .wo, .const 0, .range 1 4⟩]⟩,
  -- PAV_CMD_STATUS (R128)
  ⟨0x18, 8, 1, 1, 1, [⟨23, 16, .ro, .const 0, .any⟩, ⟨13, 8, .ro, .const 0, .any⟩, ⟨3, 0, .ro, .const 0, .any⟩]⟩,
  -- PAV_FENCE_POLICY (R128)
  ⟨0x20, 8, 1, 1, 1, [⟨8, 8, .rw, .const 1, .any⟩, ⟨4, 4, .rw, .const 1, .any⟩, ⟨3, 3, .rw, .const 1, .any⟩, ⟨2, 2, .rw, .const 1, .any⟩, ⟨1, 1, .rw, .const 1, .any⟩, ⟨0, 0, .rw, .const 1, .any⟩]⟩,
  -- PAV_REG_TIMEOUT (R128)
  ⟨0x28, 8, 1, 1, 1, [⟨9, 0, .rw, .const 40, .range 1 1000⟩]⟩,
  -- PAV_DONE (R128)
  ⟨0x30, 8, 1, 1, 1, [⟨63, 0, .rw1c, .const 0, .any⟩]⟩,
  -- PAV_DONE_MASK (R128)
  ⟨0x38, 8, 1, 1, 1, [⟨63, 0, .rw, .const 0, .any⟩]⟩,
  -- PAV_LOAD_COUNT (R128)
  ⟨0x40, 8, 1, 1, 1, [⟨31, 0, .rc, .const 0, .any⟩]⟩,
  -- PAV_VIOL_COUNT (R128)
  ⟨0x48, 8, 1, 1, 1, [⟨31, 0, .rc, .const 0, .any⟩]⟩,
  -- PAV_WIN_DROP (R128)
  ⟨0x50, 8, 1, 1, 1, [⟨31, 0, .rc, .const 0, .any⟩]⟩,
  -- PAV_ERR_STATUS (R128)
  ⟨0x100, 8, 1, 1, 1, [⟨5, 5, .rw1c, .const 0, .any⟩, ⟨4, 4, .rw1c, .const 0, .any⟩, ⟨3, 3, .rw1c, .const 0, .any⟩, ⟨2, 2, .rw1c, .const 0, .any⟩, ⟨1, 1, .rw1c, .const 0, .any⟩, ⟨0, 0, .rw1c, .const 0, .any⟩]⟩,
  -- PAV_ERR_MASK (R128)
  ⟨0x108, 8, 1, 1, 1, [⟨5, 0, .rw, .const 0, .any⟩]⟩,
  -- PAV_ERR_FIRST (R128)
  ⟨0x110, 8, 1, 1, 1, [⟨63, 63, .rw1c, .const 0, .any⟩, ⟨55, 40, .ro, .const 0, .any⟩, ⟨5, 0, .ro, .const 0, .any⟩]⟩,
  -- PAV_ERR_COUNT (R128)
  ⟨0x118, 8, 1, 1, 1, [⟨31, 0, .rc, .const 0, .any⟩]⟩,
  -- PAV_GRP_STATE (R128)
  ⟨0x1000, 128, 64, 1, 1, [⟨47, 40, .ro, .const 0, .any⟩, ⟨39, 32, .ro, .const 0, .any⟩, ⟨27, 16, .ro, .const 0, .any⟩, ⟨10, 8, .ro, .const 0, .any⟩, ⟨3, 3, .ro, .const 0, .any⟩, ⟨2, 0, .ro, .const 0, .any⟩]⟩]

/-- PAV registers, piece 1. -/
def regsPav1 : List RegSpec := [
  -- PAV_GRP_CLKCAP (R128)
  ⟨0x1008, 128, 64, 1, 1, [⟨9, 0, .rw, .const 800, .range 10 800⟩]⟩,
  -- PAV_GRP_STREAM_ID (R128)
  ⟨0x1010, 128, 64, 1, 1, [⟨63, 0, .ro, .const 0, .any⟩]⟩,
  -- PAV_GRP_MEAS (R128)
  ⟨0x1018, 128, 64, 8, 6, [⟨63, 0, .ro, .const 0, .any⟩]⟩]

/-- The register map of PAV (04_pavilions.md R128). -/
def regsPav : List RegSpec := regsPav0 ++ regsPav1

/-- ARB registers, piece 0. -/
def regsArb0 : List RegSpec := [
  -- ARB_INIT_LIMIT (R157)
  ⟨0x0, 8, 1, 1, 1, [⟨19, 0, .rw, .const 1000, .range 10 1000000⟩]⟩,
  -- ARB_RUN_LIMIT (R157)
  ⟨0x8, 8, 1, 1, 1, [⟨23, 0, .rw, .const 65536, .range 512 16777215⟩]⟩,
  -- ARB_DISPATCH_COUNT (R157)
  ⟨0x10, 8, 1, 1, 1, [⟨63, 0, .ro, .const 0, .any⟩]⟩,
  -- ARB_DROP_COUNT (R157)
  ⟨0x18, 8, 1, 1, 1, [⟨31, 0, .rc, .const 0, .any⟩]⟩,
  -- ARB_EXC_COUNT (R157)
  ⟨0x20, 8, 1, 1, 1, [⟨31, 0, .rc, .const 0, .any⟩]⟩,
  -- ARB_ABANDON_COUNT (R157)
  ⟨0x28, 8, 1, 1, 1, [⟨31, 0, .rc, .const 0, .any⟩]⟩,
  -- ARB_DEADLOCK_COUNT (R157)
  ⟨0x30, 8, 1, 1, 1, [⟨31, 0, .rc, .const 0, .any⟩]⟩,
  -- ARB_ERR_STATUS (R157)
  ⟨0x100, 8, 1, 1, 1, [⟨9, 9, .rw1c, .const 0, .any⟩, ⟨8, 8, .rw1c, .const 0, .any⟩, ⟨7, 7, .rw1c, .const 0, .any⟩, ⟨6, 6, .rw1c, .const 0, .any⟩, ⟨5, 5, .rw1c, .const 0, .any⟩, ⟨4, 4, .rw1c, .const 0, .any⟩, ⟨3, 3, .rw1c, .const 0, .any⟩, ⟨2, 2, .rw1c, .const 0, .any⟩, ⟨1, 1, .rw1c, .const 0, .any⟩, ⟨0, 0, .rw1c, .const 0, .any⟩]⟩,
  -- ARB_ERR_MASK (R157)
  ⟨0x108, 8, 1, 1, 1, [⟨9, 0, .rw, .const 0, .any⟩]⟩,
  -- ARB_ERR_FIRST (R157)
  ⟨0x110, 8, 1, 1, 1, [⟨63, 63, .rw1c, .const 0, .any⟩, ⟨55, 40, .ro, .const 0, .any⟩, ⟨36, 32, .ro, .const 0, .any⟩, ⟨29, 24, .ro, .const 0, .any⟩, ⟨21, 14, .ro, .const 0, .any⟩, ⟨13, 0, .ro, .const 0, .any⟩]⟩,
  -- ARB_ERR_COUNT (R157)
  ⟨0x118, 8, 1, 1, 1, [⟨31, 0, .rc, .const 0, .any⟩]⟩,
  -- ARB_CLU_STATE (R157)
  ⟨0x1000, 256, 20, 1, 1, [⟨30, 24, .ro, .const 0, .any⟩, ⟨22, 16, .ro, .const 0, .any⟩, ⟨14, 8, .ro, .const 0, .any⟩, ⟨1, 0, .ro, .const 0, .any⟩]⟩,
  -- ARB_DL_STATUS (R157)
  ⟨0x1008, 256, 20, 1, 1, [⟨15, 8, .rw1c, .const 0, .any⟩, ⟨7, 0, .rw1c, .const 0, .any⟩]⟩,
  -- ARB_CLU_ISSUES (R157)
  ⟨0x1010, 256, 20, 1, 1, [⟨63, 0, .ro, .const 0, .any⟩]⟩,
  -- ARB_CLU_WAIT_SLOTS (R157)
  ⟨0x1018, 256, 20, 1, 1, [⟨63, 0, .ro, .const 0, .any⟩]⟩,
  -- ARB_DBG_CTRL (R157)
  ⟨0x1020, 256, 20, 1, 1, [⟨11, 6, .wo, .const 0, .any⟩, ⟨2, 0, .wo, .const 0, .range 1 6⟩]⟩]

/-- ARB registers, piece 1. -/
def regsArb1 : List RegSpec := [
  -- ARB_DBG_SEL (R157)
  ⟨0x1028, 256, 20, 1, 1, [⟨18, 16, .rw, .const 0, .any⟩, ⟨12, 8, .rw, .const 0, .any⟩, ⟨5, 0, .rw, .const 0, .any⟩]⟩,
  -- ARB_DBG_PC (R157)
  ⟨0x1030, 256, 20, 1, 1, [⟨63, 60, .ro, .const 0, .any⟩, ⟨59, 52, .ro, .const 0, .any⟩, ⟨51, 50, .ro, .const 0, .any⟩, ⟨49, 40, .ro, .const 0, .any⟩, ⟨36, 32, .ro, .const 0, .any⟩, ⟨13, 0, .ro, .const 0, .any⟩]⟩,
  -- ARB_DBG_GREG (R157)
  ⟨0x1038, 256, 20, 1, 1, [⟨63, 0, .ro, .const 0, .any⟩]⟩,
  -- ARB_DBG_EMIT (R157)
  ⟨0x1040, 256, 20, 1, 1, [⟨63, 0, .ro, .const 0, .any⟩]⟩,
  -- ARB_DBG_HALTED (R157)
  ⟨0x1048, 256, 20, 1, 1, [⟨63, 0, .ro, .const 0, .any⟩]⟩,
  -- ARB_BRK (R157)
  ⟨0x1050, 256, 20, 8, 4, [⟨63, 63, .rw, .const 0, .any⟩, ⟨55, 48, .rw, .const 255, .any⟩, ⟨13, 0, .rw, .const 0, .any⟩]⟩,
  -- ARB_GH_SEL (R157)
  ⟨0x1070, 256, 20, 1, 1, [⟨13, 12, .rw, .const 0, .any⟩, ⟨9, 0, .rw, .const 0, .any⟩]⟩,
  -- ARB_GH_DATA (R157)
  ⟨0x1078, 256, 20, 1, 1, [⟨63, 0, .ro, .const 0, .any⟩]⟩,
  -- ARB_EXC_LAST (R157)
  ⟨0x1080, 256, 20, 1, 1, [⟨63, 63, .rw1c, .const 0, .any⟩, ⟨39, 32, .ro, .const 0, .any⟩, ⟨29, 24, .ro, .const 0, .any⟩, ⟨21, 14, .ro, .const 0, .any⟩, ⟨13, 0, .ro, .const 0, .any⟩]⟩]

/-- The register map of ARB (05_arbour_cores.md R157). -/
def regsArb : List RegSpec := regsArb0 ++ regsArb1

/-- ACM registers, piece 0. -/
def regsAcm0 : List RegSpec := [
  -- ACM_VER_STG (R205)
  ⟨0x0, 8, 1, 1, 1, [⟨31, 0, .rw, .const 0, .any⟩]⟩,
  -- ACM_VER_COMMIT (R205)
  ⟨0x8, 8, 1, 1, 1, [⟨2, 2, .ro, .const 0, .any⟩, ⟨1, 1, .wo, .const 0, .any⟩, ⟨0, 0, .wo, .const 0, .any⟩]⟩,
  -- ACM_VER_GEN (R205)
  ⟨0x10, 8, 1, 1, 1, [⟨31, 0, .ro, .const 0, .any⟩]⟩,
  -- ACM_VER_STATUS (R205)
  ⟨0x18, 8, 1, 1, 1, [⟨31, 31, .ro, .const 0, .any⟩, ⟨30, 30, .ro, .const 0, .any⟩, ⟨18, 16, .ro, .const 1, .any⟩, ⟨11, 8, .ro, .const 0, .any⟩, ⟨3, 0, .ro, .const 0, .any⟩]⟩,
  -- ACM_VER_LIVE_TAG (R205)
  ⟨0x20, 8, 1, 1, 1, [⟨31, 0, .ro, .const 0, .any⟩]⟩,
  -- ACM_VER_INFLIGHT (R205)
  ⟨0x80, 8, 16, 1, 1, [⟨31, 0, .ro, .const 0, .any⟩]⟩,
  -- ACM_ERR_STATUS (R205)
  ⟨0x100, 8, 1, 1, 1, [⟨7, 7, .rw1c, .const 0, .any⟩, ⟨6, 6, .rw1c, .const 0, .any⟩, ⟨5, 5, .rw1c, .const 0, .any⟩, ⟨4, 4, .rw1c, .const 0, .any⟩, ⟨3, 3, .rw1c, .const 0, .any⟩, ⟨2, 2, .rw1c, .const 0, .any⟩, ⟨1, 1, .rw1c, .const 0, .any⟩, ⟨0, 0, .rw1c, .const 0, .any⟩]⟩,
  -- ACM_ERR_MASK (R205)
  ⟨0x108, 8, 1, 1, 1, [⟨7, 0, .rw, .const 0, .any⟩]⟩,
  -- ACM_ERR_FIRST (R205)
  ⟨0x110, 8, 1, 1, 1, [⟨63, 63, .rw1c, .const 0, .any⟩, ⟨55, 40, .ro, .const 0, .any⟩, ⟨39, 32, .ro, .const 0, .any⟩, ⟨17, 11, .ro, .const 0, .any⟩, ⟨10, 0, .ro, .const 0, .any⟩]⟩,
  -- ACM_ERR_COUNT (R205)
  ⟨0x118, 8, 1, 1, 1, [⟨31, 0, .rc, .const 0, .any⟩]⟩,
  -- ACM_ACT_BUDGET (R205)
  ⟨0x120, 8, 1, 1, 1, [⟨16, 0, .rw, .const 65536, .range 256 65536⟩]⟩,
  -- ACM_SEARCH_COUNT (R205)
  ⟨0x128, 8, 1, 1, 1, [⟨63, 0, .ro, .const 0, .any⟩]⟩,
  -- ACM_MISS_COUNT (R205)
  ⟨0x130, 8, 1, 1, 1, [⟨31, 0, .rc, .const 0, .any⟩]⟩,
  -- ACM_DROP_COUNT (R205)
  ⟨0x138, 8, 1, 1, 1, [⟨31, 0, .rc, .const 0, .any⟩]⟩,
  -- ACM_ODD_DROP (R205)
  ⟨0x140, 8, 1, 1, 1, [⟨31, 0, .rc, .const 0, .any⟩]⟩,
  -- ACM_BUDGET_WAIT (R205)
  ⟨0x148, 8, 1, 1, 1, [⟨31, 0, .rc, .const 0, .any⟩]⟩]

/-- ACM registers, piece 1. -/
def regsAcm1 : List RegSpec := [
  -- ACM_ENT_ADDR (R205)
  ⟨0x200, 8, 1, 1, 1, [⟨17, 11, .rw, .const 0, .any⟩, ⟨10, 0, .rw, .const 0, .any⟩]⟩,
  -- ACM_ENT_CMD (R205)
  ⟨0x208, 8, 1, 1, 1, [⟨2, 0, .wo, .const 0, .range 1 4⟩]⟩,
  -- ACM_ENT_STATUS (R205)
  ⟨0x210, 8, 1, 1, 1, [⟨63, 63, .ro, .const 0, .any⟩, ⟨15, 0, .ro, .const 0, .any⟩]⟩,
  -- ACM_EBUF_VAL (R205)
  ⟨0x218, 8, 10, 1, 1, [⟨63, 0, .rw, .const 0, .any⟩]⟩,
  -- ACM_EBUF_MASK (R205)
  ⟨0x268, 8, 10, 1, 1, [⟨63, 0, .rw, .const 0, .any⟩]⟩,
  -- ACM_EBUF_CTRL (R205)
  ⟨0x2B8, 8, 1, 1, 1, [⟨63, 63, .rw, .const 0, .any⟩, ⟨62, 62, .rw, .const 0, .any⟩, ⟨61, 61, .rw, .const 0, .any⟩, ⟨55, 52, .rw, .const 0, .any⟩, ⟨51, 48, .rw, .const 0, .any⟩, ⟨15, 0, .rw, .const 0, .any⟩]⟩,
  -- ACM_SHIFT_CMD (R205)
  ⟨0x300, 8, 1, 1, 1, [⟨39, 39, .wo, .const 0, .any⟩, ⟨38, 32, .wo, .const 0, .any⟩, ⟨26, 16, .wo, .const 0, .any⟩, ⟨10, 0, .wo, .const 0, .any⟩]⟩,
  -- ACM_SHIFT_STATUS (R205)
  ⟨0x308, 8, 1, 1, 1, [⟨63, 63, .ro, .const 0, .any⟩, ⟨15, 0, .ro, .const 0, .any⟩]⟩,
  -- ACM_ACT_IDX (R205)
  ⟨0x400, 8, 1, 1, 1, [⟨15, 0, .rw, .const 0, .any⟩]⟩,
  -- ACM_ACT_BUF0 (R205)
  ⟨0x408, 8, 1, 1, 1, [⟨63, 48, .rw, .const 0, .any⟩, ⟨47, 24, .rw, .const 0, .any⟩, ⟨23, 12, .rw, .const 0, .any⟩, ⟨7, 7, .rw, .const 0, .any⟩, ⟨6, 6, .rw, .const 0, .any⟩, ⟨5, 5, .rw, .const 0, .any⟩, ⟨4, 4, .rw, .const 0, .any⟩, ⟨3, 2, .rw, .const 0, .range 0 1⟩, ⟨1, 0, .rw, .const 0, .range 0 2⟩]⟩,
  -- ACM_ACT_BUF1 (R205)
  ⟨0x410, 8, 1, 1, 1, [⟨63, 48, .rw, .const 0, .any⟩, ⟨47, 24, .rw, .const 0, .any⟩, ⟨23, 0, .rw, .const 0, .any⟩]⟩,
  -- ACM_ACT_BUF2 (R205)
  ⟨0x418, 8, 1, 1, 1, [⟨63, 63, .rw, .const 0, .any⟩, ⟨62, 62, .rw, .const 0, .any⟩, ⟨61, 61, .rw, .const 0, .any⟩, ⟨60, 60, .rw, .const 0, .any⟩, ⟨59, 48, .rw, .const 0, .any⟩, ⟨47, 42, .rw, .const 0, .any⟩, ⟨37, 20, .rw, .const 0, .any⟩, ⟨19, 0, .rw, .const 0, .any⟩]⟩,
  -- ACM_ACT_BUF3 (R205)
  ⟨0x420, 8, 1, 1, 1, [⟨63, 0, .ro, .const 0, .any⟩]⟩,
  -- ACM_ACT_CMD (R205)
  ⟨0x428, 8, 1, 1, 1, [⟨1, 0, .wo, .const 0, .range 1 2⟩]⟩,
  -- ACM_ACT_PKTS (R205)
  ⟨0x430, 8, 1, 1, 1, [⟨63, 0, .ro, .const 0, .any⟩]⟩,
  -- ACM_ACT_BYTES (R205)
  ⟨0x438, 8, 1, 1, 1, [⟨63, 0, .ro, .const 0, .any⟩]⟩]

/-- ACM registers, piece 2. -/
def regsAcm2 : List RegSpec := [
  -- ACM_POL_IDX (R205)
  ⟨0x500, 8, 1, 1, 1, [⟨17, 0, .rw, .const 0, .any⟩]⟩,
  -- ACM_POL_CIR (R205)
  ⟨0x508, 8, 1, 1, 1, [⟨40, 0, .rw, .const 0, .range 0 1600000000000⟩]⟩,
  -- ACM_POL_PIR (R205)
  ⟨0x510, 8, 1, 1, 1, [⟨40, 0, .rw, .const 0, .range 0 1600000000000⟩]⟩,
  -- ACM_POL_BURST (R205)
  ⟨0x518, 8, 1, 1, 1, [⟨63, 32, .rw, .const 0, .any⟩, ⟨31, 0, .rw, .const 0, .any⟩]⟩,
  -- ACM_POL_MODE (R205)
  ⟨0x520, 8, 1, 1, 1, [⟨15, 8, .rw, .const 0, .any⟩, ⟨1, 1, .rw, .const 0, .any⟩, ⟨0, 0, .rw, .const 0, .any⟩]⟩,
  -- ACM_POL_CMD (R205)
  ⟨0x528, 8, 1, 1, 1, [⟨1, 0, .wo, .const 0, .range 1 2⟩]⟩,
  -- ACM_POL_CNT (R205)
  ⟨0x530, 8, 3, 1, 1, [⟨63, 0, .ro, .const 0, .any⟩]⟩,
  -- ACM_MIR_SESS (R205)
  ⟨0x600, 8, 64, 1, 1, [⟨63, 48, .rw, .const 0, .any⟩, ⟨47, 24, .rw, .const 0, .any⟩, ⟨15, 0, .rw, .const 0, .any⟩]⟩,
  -- ACM_HKEY (R205)
  ⟨0x800, 8, 40, 1, 1, [⟨63, 0, .rw, .const 0, .any⟩]⟩,
  -- ACM_PROF_CFG (R205)
  ⟨0x1000, 8, 256, 1, 1, [⟨63, 48, .rw, .const 0, .any⟩, ⟨47, 46, .rw, .const 0, .range 0 2⟩, ⟨45, 43, .rw, .const 0, .any⟩, ⟨42, 36, .rw, .const 0, .any⟩, ⟨35, 28, .rw, .const 36, .range 1 128⟩, ⟨27, 20, .rw, .const 32, .range 1 128⟩]⟩,
  -- ACM_IND (R205, R387)
  ⟨0x400000, 8, 524288, 1, 1, [⟨55, 32, .rw, .queue0, .any⟩, ⟨23, 0, .rw, .queue0, .any⟩]⟩]

/-- The register map of ACM (07_classification.md R205). -/
def regsAcm : List RegSpec := regsAcm0 ++ regsAcm1 ++ regsAcm2

/-- EMT registers, piece 0. -/
def regsEmt0 : List RegSpec := [
  -- EMT_DISP_LIMIT (R224)
  ⟨0x0, 8, 1, 1, 1, [⟨4, 0, .rw, .const 8, .range 1 16⟩]⟩,
  -- EMT_SCAN_RATE (R224)
  ⟨0x8, 8, 1, 1, 1, [⟨10, 0, .rw, .const 64, .range 1 1024⟩]⟩,
  -- EMT_NOTIFY_CFG (R224)
  ⟨0x10, 8, 1, 1, 1, [⟨47, 24, .rw, .const 0, .any⟩, ⟨15, 0, .rw, .const 96, .any⟩]⟩,
  -- EMT_REHASH_CFG (R224)
  ⟨0x18, 8, 1, 1, 1, [⟨31, 16, .rw, .const 16, .range 1 65535⟩, ⟨6, 0, .rw, .const 90, .range 50 100⟩]⟩,
  -- EMT_REHASH_REQ (R224)
  ⟨0x20, 8, 1, 1, 1, [⟨63, 0, .rw1c, .const 0, .any⟩]⟩,
  -- EMT_CACHE_HITS (R224)
  ⟨0x28, 8, 1, 1, 1, [⟨63, 0, .ro, .const 0, .any⟩]⟩,
  -- EMT_CACHE_MISSES (R224)
  ⟨0x30, 8, 1, 1, 1, [⟨63, 0, .ro, .const 0, .any⟩]⟩,
  -- EMT_LEARN_DROP (R224)
  ⟨0x38, 8, 1, 1, 1, [⟨31, 0, .rc, .const 0, .any⟩]⟩,
  -- EMT_TS_DROP (R224)
  ⟨0x40, 8, 1, 1, 1, [⟨31, 0, .rc, .const 0, .any⟩]⟩,
  -- EMT_LOCKED_COUNT (R224)
  ⟨0x48, 8, 1, 1, 1, [⟨24, 0, .ro, .const 0, .any⟩]⟩,
  -- EMT_PARITY_COUNT (R224)
  ⟨0x50, 8, 1, 1, 1, [⟨31, 0, .rc, .const 0, .any⟩]⟩,
  -- EMT_NOTIFY_DROP (R224)
  ⟨0x58, 8, 1, 1, 1, [⟨31, 0, .rc, .const 0, .any⟩]⟩,
  -- EMT_ERR_STATUS (R224)
  ⟨0x100, 8, 1, 1, 1, [⟨9, 9, .rw1c, .const 0, .any⟩, ⟨8, 8, .rw1c, .const 0, .any⟩, ⟨7, 7, .rw1c, .const 0, .any⟩, ⟨6, 6, .rw1c, .const 0, .any⟩, ⟨5, 5, .rw1c, .const 0, .any⟩, ⟨4, 4, .rw1c, .const 0, .any⟩, ⟨3, 3, .rw1c, .const 0, .any⟩, ⟨2, 2, .rw1c, .const 0, .any⟩, ⟨1, 1, .rw1c, .const 0, .any⟩, ⟨0, 0, .rw1c, .const 0, .any⟩]⟩,
  -- EMT_ERR_MASK (R224)
  ⟨0x108, 8, 1, 1, 1, [⟨9, 0, .rw, .const 0, .any⟩]⟩,
  -- EMT_ERR_FIRST (R224)
  ⟨0x110, 8, 1, 1, 1, [⟨63, 63, .rw1c, .const 0, .any⟩, ⟨55, 40, .ro, .const 0, .any⟩, ⟨37, 32, .ro, .const 0, .any⟩, ⟨25, 2, .ro, .const 0, .any⟩, ⟨1, 0, .ro, .const 0, .any⟩]⟩,
  -- EMT_ERR_COUNT (R224)
  ⟨0x118, 8, 1, 1, 1, [⟨31, 0, .rc, .const 0, .any⟩]⟩]

/-- EMT registers, piece 1. -/
def regsEmt1 : List RegSpec := [
  -- EMT_KBUF (R224)
  ⟨0x200, 8, 6, 1, 1, [⟨63, 0, .rw, .const 0, .any⟩]⟩,
  -- EMT_CMD_DATA (R224)
  ⟨0x230, 8, 1, 1, 1, [⟨63, 63, .rw, .const 0, .any⟩, ⟨47, 32, .rw, .const 0, .any⟩, ⟨23, 0, .rw, .const 0, .any⟩]⟩,
  -- EMT_CMD (R224)
  ⟨0x238, 8, 1, 1, 1, [⟨13, 8, .wo, .const 0, .any⟩, ⟨3, 0, .wo, .const 0, .range 1 6⟩]⟩,
  -- EMT_CMD_LOC (R224)
  ⟨0x240, 8, 1, 1, 1, [⟨25, 2, .rw, .const 0, .any⟩, ⟨1, 0, .rw, .const 0, .any⟩]⟩,
  -- EMT_CMD_STATUS (R224)
  ⟨0x248, 8, 1, 1, 1, [⟨63, 63, .ro, .const 0, .any⟩, ⟨62, 62, .ro, .const 0, .any⟩, ⟨55, 48, .ro, .const 0, .any⟩, ⟨47, 32, .ro, .const 0, .any⟩, ⟨25, 2, .ro, .const 0, .any⟩, ⟨1, 0, .ro, .const 0, .any⟩]⟩,
  -- EMT_CMD_RESULT (R224)
  ⟨0x250, 8, 1, 1, 1, [⟨63, 0, .ro, .const 0, .any⟩]⟩,
  -- EMT_CMD_TIME (R224)
  ⟨0x258, 8, 1, 1, 1, [⟨31, 0, .ro, .const 0, .any⟩]⟩,
  -- EMT_DMA_ADDR (R224)
  ⟨0x300, 8, 1, 1, 1, [⟨63, 0, .rw, .const 0, .aligned 256⟩]⟩,
  -- EMT_DMA_FIRST (R224)
  ⟨0x308, 8, 1, 1, 1, [⟨29, 24, .rw, .const 0, .any⟩, ⟨23, 0, .rw, .const 0, .any⟩]⟩,
  -- EMT_DMA_COUNT (R224)
  ⟨0x310, 8, 1, 1, 1, [⟨16, 0, .rw, .const 1, .range 1 65536⟩]⟩,
  -- EMT_DMA_CMD (R224)
  ⟨0x318, 8, 1, 1, 1, [⟨4, 4, .wo, .const 0, .any⟩, ⟨2, 0, .wo, .const 0, .range 1 5⟩]⟩,
  -- EMT_DMA_STATUS (R224)
  ⟨0x320, 8, 1, 1, 1, [⟨63, 63, .ro, .const 0, .any⟩, ⟨47, 32, .ro, .const 0, .any⟩, ⟨16, 0, .ro, .const 0, .any⟩]⟩,
  -- EMT_TBL_CFG (R224)
  ⟨0x1000, 128, 64, 1, 1, [⟨3, 3, .rw, .const 0, .any⟩, ⟨2, 2, .rw, .const 0, .any⟩, ⟨1, 1, .rw, .const 0, .any⟩, ⟨0, 0, .rw, .const 0, .any⟩]⟩,
  -- EMT_TBL_LEARN (R224)
  ⟨0x1008, 128, 64, 1, 1, [⟨63, 48, .rw, .const 0, .any⟩, ⟨23, 0, .rw, .const 0, .any⟩]⟩,
  -- EMT_TBL_AGE (R224)
  ⟨0x1010, 128, 64, 1, 1, [⟨30, 0, .rw, .const 57220, .range 1 2147483647⟩]⟩,
  -- EMT_TBL_COUNT (R224)
  ⟨0x1018, 128, 64, 1, 1, [⟨26, 0, .ro, .const 0, .any⟩]⟩]

/-- EMT registers, piece 2. -/
def regsEmt2 : List RegSpec := [
  -- EMT_TBL_HITS (R224)
  ⟨0x1020, 128, 64, 1, 1, [⟨63, 0, .ro, .const 0, .any⟩]⟩,
  -- EMT_TBL_MISSES (R224)
  ⟨0x1028, 128, 64, 1, 1, [⟨63, 0, .ro, .const 0, .any⟩]⟩,
  -- EMT_TBL_FAIL (R224)
  ⟨0x1030, 128, 64, 1, 1, [⟨31, 0, .rc, .const 0, .any⟩]⟩,
  -- EMT_TBL_GEOM (R224)
  ⟨0x1038, 128, 64, 1, 1, [⟨63, 63, .ro, .const 0, .any⟩, ⟨20, 16, .ro, .const 0, .any⟩, ⟨5, 0, .ro, .const 0, .any⟩]⟩,
  -- EMT_TBL_REDIR_STG (R224)
  ⟨0x1040, 128, 64, 1, 1, [⟨5, 0, .rw, .index, .any⟩]⟩,
  -- EMT_TBL_REDIR_COMMIT (R224)
  ⟨0x1048, 128, 64, 1, 1, [⟨2, 2, .ro, .const 0, .any⟩, ⟨1, 1, .wo, .const 0, .any⟩, ⟨0, 0, .wo, .const 0, .any⟩]⟩,
  -- EMT_TBL_REDIR_GEN (R224)
  ⟨0x1050, 128, 64, 1, 1, [⟨31, 0, .ro, .const 0, .any⟩]⟩,
  -- EMT_TBL_ACTIVE (R224)
  ⟨0x1058, 128, 64, 1, 1, [⟨5, 0, .ro, .index, .any⟩]⟩]

/-- The register map of EMT (08_exact_match.md R224). -/
def regsEmt : List RegSpec := regsEmt0 ++ regsEmt1 ++ regsEmt2

/-- SCH registers, piece 0. -/
def regsSch0 : List RegSpec := [
  -- SCH_NODE_SEL_STG (R249)
  ⟨0x0, 8, 1, 1, 1, [⟨17, 16, .rw, .const 0, .any⟩, ⟨15, 0, .rw, .const 0, .any⟩]⟩,
  -- SCH_NODE_RATE_STG (R249)
  ⟨0x8, 8, 1, 1, 1, [⟨40, 0, .rw, .const 0, .any⟩]⟩,
  -- SCH_NODE_BURST_STG (R249)
  ⟨0x10, 8, 1, 1, 1, [⟨30, 0, .rw, .const 16384, .range 64 1073741824⟩]⟩,
  -- SCH_NODE_CFG_STG (R249)
  ⟨0x18, 8, 1, 1, 1, [⟨63, 56, .rw, .const 20, .any⟩, ⟨50, 48, .rw, .const 0, .any⟩, ⟨43, 32, .rw, .const 1, .range 1 4095⟩, ⟨3, 0, .rw, .const 3, .range 0 10⟩]⟩,
  -- SCH_NODE_CBS_STG (R249)
  ⟨0x20, 8, 1, 1, 1, [⟨63, 63, .rw, .const 0, .any⟩, ⟨40, 0, .rw, .const 0, .any⟩]⟩,
  -- SCH_NODE_COMMIT (R249)
  ⟨0x28, 8, 1, 1, 1, [⟨2, 2, .ro, .const 0, .any⟩, ⟨1, 1, .wo, .const 0, .any⟩, ⟨0, 0, .wo, .const 0, .any⟩]⟩,
  -- SCH_NODE_GEN (R249)
  ⟨0x30, 8, 1, 1, 1, [⟨31, 0, .ro, .const 0, .any⟩]⟩,
  -- SCH_NODE_VIEW_SEL (R249)
  ⟨0x38, 8, 1, 1, 1, [⟨17, 16, .rw, .const 0, .any⟩, ⟨15, 0, .rw, .const 0, .any⟩]⟩,
  -- SCH_NODE_VIEW_RATE (R249)
  ⟨0x40, 8, 1, 1, 1, [⟨40, 0, .ro, .const 0, .any⟩]⟩,
  -- SCH_NODE_VIEW_BURST (R249)
  ⟨0x48, 8, 1, 1, 1, [⟨30, 0, .ro, .const 16384, .any⟩]⟩,
  -- SCH_NODE_VIEW_CFG (R249)
  ⟨0x50, 8, 1, 1, 1, [⟨63, 56, .ro, .const 20, .any⟩, ⟨50, 48, .ro, .const 0, .any⟩, ⟨43, 32, .ro, .const 1, .any⟩, ⟨3, 0, .ro, .const 3, .any⟩]⟩,
  -- SCH_NODE_VIEW_CBS (R249)
  ⟨0x58, 8, 1, 1, 1, [⟨63, 63, .ro, .const 0, .any⟩, ⟨40, 0, .ro, .const 0, .any⟩]⟩,
  -- SCH_NODE_VIEW_CREDIT (R249)
  ⟨0x60, 8, 1, 1, 1, [⟨63, 32, .ro, .const 0, .any⟩, ⟨31, 0, .ro, .const 0, .any⟩]⟩,
  -- SCH_NODE_VIEW_DEPTH (R249)
  ⟨0x68, 8, 1, 1, 1, [⟨63, 40, .ro, .const 0, .any⟩, ⟨39, 0, .ro, .const 0, .any⟩]⟩,
  -- SCH_ERR_STATUS (R249)
  ⟨0x100, 8, 1, 1, 1, [⟨7, 7, .rw1c, .const 0, .any⟩, ⟨6, 6, .rw1c, .const 0, .any⟩, ⟨5, 5, .rw1c, .const 0, .any⟩, ⟨4, 4, .rw1c, .const 0, .any⟩, ⟨3, 3, .rw1c, .const 0, .any⟩, ⟨2, 2, .rw1c, .const 0, .any⟩, ⟨1, 1, .rw1c, .const 0, .any⟩, ⟨0, 0, .rw1c, .const 0, .any⟩]⟩,
  -- SCH_ERR_MASK (R249)
  ⟨0x108, 8, 1, 1, 1, [⟨7, 0, .rw, .const 0, .any⟩]⟩]

/-- SCH registers, piece 1. -/
def regsSch1 : List RegSpec := [
  -- SCH_ERR_FIRST (R249)
  ⟨0x110, 8, 1, 1, 1, [⟨63, 63, .rw1c, .const 0, .any⟩, ⟨55, 40, .ro, .const 0, .any⟩, ⟨35, 32, .ro, .const 0, .any⟩, ⟨15, 0, .ro, .const 0, .any⟩]⟩,
  -- SCH_ERR_COUNT (R249)
  ⟨0x118, 8, 1, 1, 1, [⟨31, 0, .rc, .const 0, .any⟩]⟩,
  -- SCH_DST_DROP (R249)
  ⟨0x120, 8, 1, 1, 1, [⟨31, 0, .rc, .const 0, .any⟩]⟩,
  -- SCH_BUF_DROP (R249)
  ⟨0x128, 8, 1, 1, 1, [⟨31, 0, .rc, .const 0, .any⟩]⟩,
  -- SCH_PORT_CFG (R249)
  ⟨0x1000, 256, 16, 1, 1, [⟨29, 16, .rw, .const 512, .range 64 16383⟩, ⟨1, 1, .rw, .const 0, .any⟩]⟩,
  -- SCH_PORT_STATUS (R249)
  ⟨0x1008, 256, 16, 1, 1, [⟨31, 24, .ro, .const 255, .any⟩, ⟨23, 16, .ro, .const 0, .any⟩, ⟨0, 0, .ro, .const 0, .any⟩]⟩,
  -- SCH_GCL_LEN_STG (R249)
  ⟨0x1010, 256, 16, 1, 1, [⟨10, 0, .rw, .const 0, .range 0 1024⟩]⟩,
  -- SCH_GCL_BASE_SEC_STG (R249)
  ⟨0x1018, 256, 16, 1, 1, [⟨47, 0, .rw, .const 0, .any⟩]⟩,
  -- SCH_GCL_BASE_NS_STG (R249)
  ⟨0x1020, 256, 16, 1, 1, [⟨47, 16, .rw, .const 0, .any⟩, ⟨15, 0, .rw, .const 0, .any⟩]⟩,
  -- SCH_GCL_CYCLE_STG (R249)
  ⟨0x1028, 256, 16, 1, 1, [⟨47, 16, .rw, .const 0, .any⟩, ⟨15, 0, .rw, .const 0, .any⟩]⟩,
  -- SCH_GCL_EXT_STG (R249)
  ⟨0x1030, 256, 16, 1, 1, [⟨31, 0, .rw, .const 0, .range 0 1000000000⟩]⟩,
  -- SCH_GCL_COMMIT (R249)
  ⟨0x1038, 256, 16, 1, 1, [⟨2, 2, .ro, .const 0, .any⟩, ⟨1, 1, .wo, .const 0, .any⟩, ⟨0, 0, .wo, .const 0, .any⟩]⟩,
  -- SCH_GCL_GEN (R249)
  ⟨0x1040, 256, 16, 1, 1, [⟨31, 0, .ro, .const 0, .any⟩]⟩,
  -- SCH_GCL_STATUS (R249)
  ⟨0x1048, 256, 16, 1, 1, [⟨42, 32, .ro, .const 0, .any⟩, ⟨10, 0, .ro, .const 0, .any⟩]⟩,
  -- SCH_GCL_CHANGE_SEC (R249)
  ⟨0x1050, 256, 16, 1, 1, [⟨47, 0, .ro, .const 0, .any⟩]⟩,
  -- SCH_GCL_CHANGE_NS (R249)
  ⟨0x1058, 256, 16, 1, 1, [⟨47, 16, .ro, .const 0, .any⟩, ⟨15, 0, .ro, .const 0, .any⟩]⟩]

/-- SCH registers, piece 2. -/
def regsSch2 : List RegSpec := [
  -- SCH_CLS_MAXSDU (R249)
  ⟨0x1060, 256, 16, 8, 8, [⟨15, 0, .rw, .const 0, .any⟩]⟩,
  -- SCH_PORT_TX_FRAMES (R249)
  ⟨0x10A0, 256, 16, 1, 1, [⟨63, 0, .ro, .const 0, .any⟩]⟩,
  -- SCH_PORT_TX_BYTES (R249)
  ⟨0x10A8, 256, 16, 1, 1, [⟨63, 0, .ro, .const 0, .any⟩]⟩,
  -- SCH_PORT_STOMP (R249)
  ⟨0x10B0, 256, 16, 1, 1, [⟨31, 0, .rc, .const 0, .any⟩]⟩,
  -- SCH_PORT_UNDERRUN (R249)
  ⟨0x10B8, 256, 16, 1, 1, [⟨31, 0, .rc, .const 0, .any⟩]⟩,
  -- SCH_PORT_SDU_DROP (R249)
  ⟨0x10C0, 256, 16, 1, 1, [⟨31, 0, .rc, .const 0, .any⟩]⟩,
  -- SCH_PORT_FLUSH_DROP (R249)
  ⟨0x10C8, 256, 16, 1, 1, [⟨31, 0, .rc, .const 0, .any⟩]⟩,
  -- SCH_LEAF_LIMIT (R249)
  ⟨0x100000, 8, 65536, 1, 1, [⟨23, 0, .rw, .const 1024, .any⟩]⟩,
  -- SCH_LEAF_DROP (R249)
  ⟨0x180000, 8, 65536, 1, 1, [⟨31, 0, .rc, .const 0, .any⟩]⟩,
  -- SCH_GCL_STG (R249)
  ⟨0x200000, 8192, 16, 8, 1024, [⟨55, 48, .rw, .const 0, .any⟩, ⟨47, 16, .rw, .const 0, .any⟩, ⟨15, 0, .rw, .const 0, .any⟩]⟩,
  -- SCH_GCL_OPER (R249)
  ⟨0x300000, 8192, 16, 8, 1024, [⟨55, 48, .ro, .const 0, .any⟩, ⟨47, 16, .ro, .const 0, .any⟩, ⟨15, 0, .ro, .const 0, .any⟩]⟩]

/-- The register map of SCH (09_scheduling.md R249). -/
def regsSch : List RegSpec := regsSch0 ++ regsSch1 ++ regsSch2

/-- CPH registers, piece 0. -/
def regsCph0 : List RegSpec := [
  -- CPH_KEY_SEL_STG (R273)
  ⟨0x0, 8, 1, 1, 1, [⟨51, 40, .rw, .const 0, .any⟩, ⟨19, 0, .rw, .const 0, .any⟩]⟩,
  -- CPH_KEY_OP_STG (R273)
  ⟨0x8, 8, 1, 1, 1, [⟨8, 8, .rw, .const 0, .any⟩, ⟨4, 4, .rw, .const 0, .any⟩, ⟨2, 0, .rw, .const 0, .range 1 7⟩]⟩,
  -- CPH_KEY_SRC_STG (R273)
  ⟨0x10, 8, 1, 1, 1, [⟨63, 0, .rw, .const 0, .aligned 64⟩]⟩,
  -- CPH_KEY_ATTR_STG (R273)
  ⟨0x18, 8, 1, 1, 1, [⟨25, 24, .rw, .const 0, .any⟩, ⟨18, 16, .rw, .const 0, .range 1 7⟩, ⟨10, 8, .rw, .const 0, .range 0 4⟩, ⟨1, 1, .rw, .const 0, .any⟩, ⟨0, 0, .rw, .const 0, .any⟩]⟩,
  -- CPH_KEY_DATA_STG (R273)
  ⟨0x20, 8, 16, 1, 1, [⟨63, 0, .wo, .const 0, .any⟩]⟩,
  -- CPH_KEY_COMMIT (R273)
  ⟨0xA0, 8, 1, 1, 1, [⟨2, 2, .ro, .const 0, .any⟩, ⟨1, 1, .wo, .const 0, .any⟩, ⟨0, 0, .wo, .const 0, .any⟩]⟩,
  -- CPH_KEY_GEN (R273)
  ⟨0xA8, 8, 1, 1, 1, [⟨31, 0, .ro, .const 0, .any⟩]⟩,
  -- CPH_KEY_STATUS (R273)
  ⟨0xB0, 8, 1, 1, 1, [⟨63, 63, .ro, .const 0, .any⟩, ⟨15, 0, .ro, .const 0, .any⟩]⟩,
  -- CPH_ERR_STATUS (R273)
  ⟨0x100, 8, 1, 1, 1, [⟨11, 11, .rw1c, .const 0, .any⟩, ⟨10, 10, .rw1c, .const 0, .any⟩, ⟨9, 9, .rw1c, .const 0, .any⟩, ⟨8, 8, .rw1c, .const 0, .any⟩, ⟨7, 7, .rw1c, .const 0, .any⟩, ⟨6, 6, .rw1c, .const 0, .any⟩, ⟨5, 5, .rw1c, .const 0, .any⟩, ⟨4, 4, .rw1c, .const 0, .any⟩, ⟨3, 3, .rw1c, .const 0, .any⟩, ⟨2, 2, .rw1c, .const 0, .any⟩, ⟨1, 1, .rw1c, .const 0, .any⟩, ⟨0, 0, .rw1c, .const 0, .any⟩]⟩,
  -- CPH_ERR_MASK (R273)
  ⟨0x108, 8, 1, 1, 1, [⟨11, 0, .rw, .const 0, .any⟩]⟩,
  -- CPH_ERR_FIRST (R273)
  ⟨0x110, 8, 1, 1, 1, [⟨63, 63, .rw1c, .const 0, .any⟩, ⟨55, 40, .ro, .const 0, .any⟩, ⟨36, 32, .ro, .const 0, .any⟩, ⟨31, 24, .ro, .const 0, .any⟩, ⟨19, 0, .ro, .const 0, .any⟩]⟩,
  -- CPH_ERR_COUNT (R273)
  ⟨0x118, 8, 1, 1, 1, [⟨31, 0, .rc, .const 0, .any⟩]⟩,
  -- CPH_AUTH_FAIL (R273)
  ⟨0x120, 8, 1, 1, 1, [⟨31, 0, .rc, .const 0, .any⟩]⟩,
  -- CPH_REPLAY (R273)
  ⟨0x128, 8, 1, 1, 1, [⟨31, 0, .rc, .const 0, .any⟩]⟩,
  -- CPH_PKT_DROP (R273)
  ⟨0x130, 8, 1, 1, 1, [⟨31, 0, .rc, .const 0, .any⟩]⟩,
  -- CPH_MM_CORRECTED (R273)
  ⟨0x138, 8, 1, 1, 1, [⟨31, 0, .rc, .const 0, .any⟩]⟩]

/-- CPH registers, piece 1. -/
def regsCph1 : List RegSpec := [
  -- CPH_CACHE_HITS (R273)
  ⟨0x140, 8, 1, 1, 1, [⟨63, 0, .ro, .const 0, .any⟩]⟩,
  -- CPH_CACHE_MISSES (R273)
  ⟨0x148, 8, 1, 1, 1, [⟨63, 0, .ro, .const 0, .any⟩]⟩,
  -- CPH_PINNED (R273)
  ⟨0x150, 8, 1, 1, 1, [⟨14, 0, .ro, .const 0, .any⟩]⟩,
  -- CPH_Q_CFG (R273)
  ⟨0x1000, 64, 256, 1, 1, [⟨63, 63, .rw, .const 0, .any⟩, ⟨47, 32, .rw, .const 0, .among [0, 514, 1025, 1026]⟩]⟩,
  -- CPH_Q_NEXT (R273)
  ⟨0x1008, 64, 256, 1, 1, [⟨63, 48, .rw, .const 0, .any⟩, ⟨47, 24, .rw, .const 0, .any⟩]⟩,
  -- CPH_Q_STATE (R273)
  ⟨0x1010, 64, 256, 1, 1, [⟨63, 63, .ro, .const 0, .any⟩, ⟨36, 32, .ro, .const 0, .any⟩, ⟨15, 0, .ro, .const 0, .any⟩]⟩,
  -- CPH_Q_REQS (R273)
  ⟨0x1018, 64, 256, 1, 1, [⟨63, 0, .ro, .const 0, .any⟩]⟩,
  -- CPH_Q_REFUSED (R273)
  ⟨0x1020, 64, 256, 1, 1, [⟨31, 0, .rc, .const 0, .any⟩]⟩,
  -- CPH_PAIR_STATE (R273)
  ⟨0x5000, 64, 32, 1, 1, [⟨47, 32, .ro, .const 0, .any⟩, ⟨8, 8, .ro, .const 0, .any⟩, ⟨1, 0, .ro, .const 0, .any⟩]⟩,
  -- CPH_PAIR_CTRL (R273)
  ⟨0x5008, 64, 32, 1, 1, [⟨1, 0, .wo, .const 0, .range 1 3⟩]⟩,
  -- CPH_PAIR_BYTES (R273)
  ⟨0x5010, 64, 32, 1, 1, [⟨63, 0, .ro, .const 0, .any⟩]⟩,
  -- CPH_PAIR_MM_LAST (R273)
  ⟨0x5018, 64, 32, 1, 1, [⟨63, 63, .rw1c, .const 0, .any⟩, ⟨51, 44, .ro, .const 0, .any⟩, ⟨19, 0, .ro, .const 0, .any⟩]⟩]

/-- The register map of CPH (10_cipher.md R273). -/
def regsCph : List RegSpec := regsCph0 ++ regsCph1

/-- TE registers, piece 0. -/
def regsTe0 : List RegSpec := [
  -- TE_CC_SEL_STG (R313)
  ⟨0x0, 8, 1, 1, 1, [⟨2, 0, .rw, .const 0, .any⟩]⟩,
  -- TE_CC_RATE_STG (R313)
  ⟨0x8, 8, 1, 1, 1, [⟨63, 32, .rw, .const 1000, .any⟩, ⟨31, 0, .rw, .const 400, .any⟩]⟩,
  -- TE_CC_TIMER_STG (R313)
  ⟨0x10, 8, 1, 1, 1, [⟨63, 63, .rw, .const 1, .any⟩, ⟨47, 32, .rw, .const 256, .any⟩, ⟨31, 16, .rw, .const 55, .any⟩, ⟨15, 0, .rw, .const 4, .any⟩]⟩,
  -- TE_CC_BYTES_STG (R313)
  ⟨0x18, 8, 1, 1, 1, [⟨31, 0, .rw, .const 10240, .any⟩]⟩,
  -- TE_CC_COMMIT (R313)
  ⟨0x20, 8, 1, 1, 1, [⟨2, 2, .ro, .const 0, .any⟩, ⟨1, 1, .wo, .const 0, .any⟩, ⟨0, 0, .wo, .const 0, .any⟩]⟩,
  -- TE_CC_GEN (R313)
  ⟨0x28, 8, 1, 1, 1, [⟨31, 0, .ro, .const 0, .any⟩]⟩,
  -- TE_ERR_STATUS (R313)
  ⟨0x100, 8, 1, 1, 1, [⟨10, 10, .rw1c, .const 0, .any⟩, ⟨9, 9, .rw1c, .const 0, .any⟩, ⟨8, 8, .rw1c, .const 0, .any⟩, ⟨7, 7, .rw1c, .const 0, .any⟩, ⟨6, 6, .rw1c, .const 0, .any⟩, ⟨5, 5, .rw1c, .const 0, .any⟩, ⟨4, 4, .rw1c, .const 0, .any⟩, ⟨3, 3, .rw1c, .const 0, .any⟩, ⟨2, 2, .rw1c, .const 0, .any⟩, ⟨1, 1, .rw1c, .const 0, .any⟩, ⟨0, 0, .rw1c, .const 0, .any⟩]⟩,
  -- TE_ERR_MASK (R313)
  ⟨0x108, 8, 1, 1, 1, [⟨10, 0, .rw, .const 0, .any⟩]⟩,
  -- TE_ERR_FIRST (R313)
  ⟨0x110, 8, 1, 1, 1, [⟨63, 63, .rw1c, .const 0, .any⟩, ⟨55, 40, .ro, .const 0, .any⟩, ⟨39, 36, .ro, .const 0, .any⟩, ⟨35, 24, .ro, .const 0, .any⟩, ⟨21, 0, .ro, .const 0, .any⟩]⟩,
  -- TE_ERR_COUNT (R313)
  ⟨0x118, 8, 1, 1, 1, [⟨31, 0, .rc, .const 0, .any⟩]⟩,
  -- TE_RX_DISCARD (R313)
  ⟨0x140, 8, 1, 1, 1, [⟨31, 0, .rc, .const 0, .any⟩]⟩,
  -- TE_DUP_RX (R313)
  ⟨0x148, 8, 1, 1, 1, [⟨31, 0, .rc, .const 0, .any⟩]⟩,
  -- TE_MP_BEYOND (R313)
  ⟨0x150, 8, 1, 1, 1, [⟨31, 0, .rc, .const 0, .any⟩]⟩,
  -- TE_MP_SNAK_TX (R313)
  ⟨0x158, 8, 1, 1, 1, [⟨31, 0, .rc, .const 0, .any⟩]⟩,
  -- TE_STALE_NAK (R313)
  ⟨0x160, 8, 1, 1, 1, [⟨31, 0, .rc, .const 0, .any⟩]⟩,
  -- TE_KEY_FAIL (R313)
  ⟨0x168, 8, 1, 1, 1, [⟨31, 0, .rc, .const 0, .any⟩]⟩]

/-- TE registers, piece 1. -/
def regsTe1 : List RegSpec := [
  -- TE_CNP_TX (R313)
  ⟨0x170, 8, 1, 1, 1, [⟨31, 0, .rc, .const 0, .any⟩]⟩,
  -- TE_CNP_RX (R313)
  ⟨0x178, 8, 1, 1, 1, [⟨31, 0, .rc, .const 0, .any⟩]⟩,
  -- TE_DB_DISCARD (R313)
  ⟨0x180, 8, 1, 1, 1, [⟨31, 0, .rc, .const 0, .any⟩]⟩,
  -- TE_QP_SEL (R313)
  ⟨0x200, 8, 1, 1, 1, [⟨21, 0, .rw, .const 2, .any⟩]⟩,
  -- TE_QP_VIEW (R313)
  ⟨0x208, 8, 32, 1, 1, [⟨63, 0, .ro, .const 0, .any⟩]⟩,
  -- TE_QP_FORCE (R313)
  ⟨0x308, 8, 1, 1, 1, [⟨0, 0, .wo, .const 0, .any⟩]⟩,
  -- TE_ENG_STATE (R313)
  ⟨0x1000, 64, 16, 1, 1, [⟨63, 40, .ro, .const 0, .any⟩, ⟨38, 20, .ro, .const 0, .any⟩, ⟨15, 0, .ro, .const 0, .any⟩]⟩,
  -- TE_ENG_CACHE_HITS (R313)
  ⟨0x1008, 64, 16, 1, 1, [⟨63, 0, .ro, .const 0, .any⟩]⟩,
  -- TE_ENG_CACHE_MISSES (R313)
  ⟨0x1010, 64, 16, 1, 1, [⟨63, 0, .ro, .const 0, .any⟩]⟩,
  -- TE_UC_SRC_ADDR (R313)
  ⟨0x2000, 8, 1, 1, 1, [⟨63, 0, .rw, .const 0, .aligned 64⟩]⟩,
  -- TE_UC_SRC_LEN (R313)
  ⟨0x2008, 8, 1, 1, 1, [⟨31, 0, .rw, .const 0, .any⟩]⟩,
  -- TE_UC_CMD (R313)
  ⟨0x2010, 8, 1, 1, 1, [⟨4, 4, .wo, .const 0, .any⟩, ⟨1, 0, .wo, .const 0, .range 1 2⟩]⟩,
  -- TE_UC_STATUS (R313)
  ⟨0x2018, 8, 1, 1, 1, [⟨63, 48, .ro, .const 0, .any⟩, ⟨42, 32, .ro, .const 0, .any⟩, ⟨29, 24, .ro, .const 0, .any⟩, ⟨23, 16, .ro, .const 0, .any⟩, ⟨3, 3, .ro, .const 0, .any⟩, ⟨1, 0, .ro, .const 0, .any⟩]⟩,
  -- TE_UC_VERSION (R313)
  ⟨0x2020, 8, 1, 1, 1, [⟨63, 32, .ro, .const 45313, .any⟩, ⟨31, 0, .ro, .const 0, .any⟩]⟩,
  -- TE_UC_ARB (R313)
  ⟨0x2028, 8, 1, 1, 1, [⟨31, 0, .ro, .const 0, .any⟩]⟩,
  -- TE_UC_ARB_FLOOR (R313)
  ⟨0x2030, 8, 1, 1, 1, [⟨31, 0, .ro, .const 0, .any⟩]⟩]

/-- TE registers, piece 2. -/
def regsTe2 : List RegSpec := [
  -- TE_UC_MEAS (R313)
  ⟨0x2038, 8, 6, 1, 1, [⟨63, 0, .ro, .const 0, .any⟩]⟩,
  -- TE_UC_ERR_STATUS (R313)
  ⟨0x2068, 8, 1, 1, 1, [⟨3, 3, .rw1c, .const 0, .any⟩, ⟨2, 2, .rw1c, .const 0, .any⟩, ⟨1, 1, .rw1c, .const 0, .any⟩, ⟨0, 0, .rw1c, .const 0, .any⟩]⟩,
  -- TE_UC_ERR_MASK (R313)
  ⟨0x2070, 8, 1, 1, 1, [⟨3, 0, .rw, .const 0, .any⟩]⟩,
  -- TE_UC_FAULT_COUNT (R313)
  ⟨0x2078, 8, 1, 1, 1, [⟨31, 0, .rc, .const 0, .any⟩]⟩,
  -- TE_UC_CE_COUNT (R313)
  ⟨0x2080, 8, 1, 1, 1, [⟨31, 0, .rc, .const 0, .any⟩]⟩]

/-- The register map of TE (11_rdma.md R313). -/
def regsTe : List RegSpec := regsTe0 ++ regsTe1 ++ regsTe2

/-- NVE registers, piece 0. -/
def regsNve0 : List RegSpec := [
  -- NVE_NS_SEL_STG (R360)
  ⟨0x0, 8, 1, 1, 1, [⟨27, 16, .rw, .const 0, .any⟩, ⟨5, 0, .rw, .const 0, .range 1 32⟩]⟩,
  -- NVE_NS_TGT_STG (R360)
  ⟨0x8, 8, 1, 1, 1, [⟨63, 48, .rw, .const 0, .any⟩, ⟨31, 0, .rw, .const 0, .any⟩]⟩,
  -- NVE_NS_BASE_STG (R360)
  ⟨0x10, 8, 1, 1, 1, [⟨63, 0, .rw, .const 0, .any⟩]⟩,
  -- NVE_NS_SIZE_STG (R360)
  ⟨0x18, 8, 1, 1, 1, [⟨47, 0, .rw, .const 0, .any⟩]⟩,
  -- NVE_NS_CFG_STG (R360)
  ⟨0x20, 8, 1, 1, 1, [⟨45, 45, .rw, .const 0, .any⟩, ⟨44, 44, .rw, .const 0, .any⟩, ⟨43, 40, .rw, .const 12, .any⟩, ⟨32, 32, .rw, .const 0, .any⟩, ⟨31, 24, .rw, .const 0, .any⟩, ⟨19, 0, .rw, .const 0, .any⟩]⟩,
  -- NVE_NS_COMMIT (R360)
  ⟨0x28, 8, 1, 1, 1, [⟨2, 2, .ro, .const 0, .any⟩, ⟨1, 1, .wo, .const 0, .any⟩, ⟨0, 0, .wo, .const 0, .any⟩]⟩,
  -- NVE_NS_GEN (R360)
  ⟨0x30, 8, 1, 1, 1, [⟨31, 0, .ro, .const 0, .any⟩]⟩,
  -- NVE_NS_VIEW_SEL (R360)
  ⟨0x38, 8, 1, 1, 1, [⟨27, 16, .rw, .const 0, .any⟩, ⟨5, 0, .rw, .const 0, .range 1 32⟩]⟩,
  -- NVE_NS_VIEW_TGT (R360)
  ⟨0x40, 8, 1, 1, 1, [⟨63, 48, .ro, .const 0, .any⟩, ⟨31, 0, .ro, .const 0, .any⟩]⟩,
  -- NVE_NS_VIEW_BASE (R360)
  ⟨0x48, 8, 1, 1, 1, [⟨63, 0, .ro, .const 0, .any⟩]⟩,
  -- NVE_NS_VIEW_SIZE (R360)
  ⟨0x50, 8, 1, 1, 1, [⟨47, 0, .ro, .const 0, .any⟩]⟩,
  -- NVE_NS_VIEW_CFG (R360)
  ⟨0x58, 8, 1, 1, 1, [⟨45, 45, .ro, .const 0, .any⟩, ⟨44, 44, .ro, .const 0, .any⟩, ⟨43, 40, .ro, .const 0, .any⟩, ⟨32, 32, .ro, .const 0, .any⟩, ⟨31, 24, .ro, .const 0, .any⟩, ⟨19, 0, .ro, .const 0, .any⟩]⟩,
  -- NVE_MODE_SEL_STG (R360)
  ⟨0x60, 8, 1, 1, 1, [⟨27, 16, .rw, .const 0, .any⟩]⟩,
  -- NVE_MODE_STG (R360)
  ⟨0x68, 8, 1, 1, 1, [⟨0, 0, .rw, .const 0, .any⟩]⟩,
  -- NVE_MODE_COMMIT (R360)
  ⟨0x70, 8, 1, 1, 1, [⟨2, 2, .ro, .const 0, .any⟩, ⟨1, 1, .wo, .const 0, .any⟩, ⟨0, 0, .wo, .const 0, .any⟩]⟩,
  -- NVE_MODE_GEN (R360)
  ⟨0x78, 8, 1, 1, 1, [⟨31, 0, .ro, .const 0, .any⟩]⟩]

/-- NVE registers, piece 1. -/
def regsNve1 : List RegSpec := [
  -- NVE_MODE_VIEW (R360)
  ⟨0x80, 8, 1, 1, 1, [⟨63, 32, .ro, .const 0, .any⟩, ⟨27, 16, .rw, .const 0, .any⟩, ⟨1, 0, .ro, .const 0, .any⟩]⟩,
  -- NVE_BUF_HIWAT (R360)
  ⟨0x88, 8, 1, 1, 1, [⟨6, 0, .rw, .const 75, .range 50 100⟩]⟩,
  -- NVE_NOTIFY_CFG (R360)
  ⟨0x90, 8, 1, 1, 1, [⟨47, 24, .rw, .const 0, .any⟩, ⟨15, 0, .rw, .const 96, .any⟩]⟩,
  -- NVE_ERR_STATUS (R360)
  ⟨0x100, 8, 1, 1, 1, [⟨11, 11, .rw1c, .const 0, .any⟩, ⟨10, 10, .rw1c, .const 0, .any⟩, ⟨9, 9, .rw1c, .const 0, .any⟩, ⟨6, 6, .rw1c, .const 0, .any⟩, ⟨5, 5, .rw1c, .const 0, .any⟩, ⟨4, 4, .rw1c, .const 0, .any⟩, ⟨3, 3, .rw1c, .const 0, .any⟩, ⟨2, 2, .rw1c, .const 0, .any⟩, ⟨1, 1, .rw1c, .const 0, .any⟩, ⟨0, 0, .rw1c, .const 0, .any⟩]⟩,
  -- NVE_ERR_MASK (R360)
  ⟨0x108, 8, 1, 1, 1, [⟨11, 9, .rw, .const 0, .any⟩, ⟨6, 0, .rw, .const 0, .any⟩]⟩,
  -- NVE_ERR_FIRST (R360)
  ⟨0x110, 8, 1, 1, 1, [⟨63, 63, .rw1c, .const 0, .any⟩, ⟨55, 40, .ro, .const 0, .any⟩, ⟨39, 28, .ro, .const 0, .any⟩, ⟨15, 0, .ro, .const 0, .any⟩]⟩,
  -- NVE_ERR_COUNT (R360)
  ⟨0x118, 8, 1, 1, 1, [⟨31, 0, .rc, .const 0, .any⟩]⟩,
  -- NVE_BUF_FULL (R360)
  ⟨0x120, 8, 1, 1, 1, [⟨31, 0, .rc, .const 0, .any⟩]⟩,
  -- NVE_TGT_ERRORS (R360)
  ⟨0x128, 8, 1, 1, 1, [⟨31, 0, .rc, .const 0, .any⟩]⟩,
  -- NVE_CONN_SEL (R360)
  ⟨0x200, 8, 1, 1, 1, [⟨15, 0, .rw, .const 0, .any⟩]⟩,
  -- NVE_CONN_IMG (R360)
  ⟨0x208, 8, 16, 1, 1, [⟨63, 0, .rw, .const 0, .any⟩]⟩,
  -- NVE_CONN_CMD (R360)
  ⟨0x288, 8, 1, 1, 1, [⟨8, 8, .wo, .const 0, .any⟩, ⟨1, 0, .wo, .const 0, .range 1 3⟩]⟩,
  -- NVE_CONN_STATUS (R360)
  ⟨0x290, 8, 1, 1, 1, [⟨63, 63, .ro, .const 0, .any⟩, ⟨15, 0, .ro, .const 0, .any⟩]⟩]

/-- The register map of NVE (13_storage.md R360). -/
def regsNve : List RegSpec := regsNve0 ++ regsNve1

/-- HIF registers, piece 0. -/
def regsHif0 : List RegSpec := [
  -- HIF_ERR_STATUS (R389/R426)
  ⟨0x100, 8, 1, 1, 1, [⟨13, 13, .rw1c, .const 0, .any⟩, ⟨12, 12, .rw1c, .const 0, .any⟩, ⟨11, 11, .rw1c, .const 0, .any⟩, ⟨10, 10, .rw1c, .const 0, .any⟩, ⟨9, 9, .rw1c, .const 0, .any⟩, ⟨8, 8, .rw1c, .const 0, .any⟩, ⟨7, 7, .rw1c, .const 0, .any⟩, ⟨6, 6, .rw1c, .const 0, .any⟩, ⟨5, 5, .rw1c, .const 0, .any⟩, ⟨4, 4, .rw1c, .const 0, .any⟩, ⟨3, 3, .rw1c, .const 0, .any⟩, ⟨2, 2, .rw1c, .const 0, .any⟩, ⟨1, 1, .rw1c, .const 0, .any⟩, ⟨0, 0, .rw1c, .const 0, .any⟩]⟩,
  -- HIF_ERR_MASK (R389/R426)
  ⟨0x108, 8, 1, 1, 1, [⟨13, 0, .rw, .const 0, .any⟩]⟩,
  -- HIF_ERR_FIRST (R389/R426)
  ⟨0x110, 8, 1, 1, 1, [⟨63, 63, .rw1c, .const 0, .any⟩, ⟨55, 40, .ro, .const 0, .any⟩, ⟨39, 32, .ro, .const 0, .any⟩, ⟨31, 0, .ro, .const 0, .any⟩]⟩,
  -- HIF_ERR_COUNT (R389/R426)
  ⟨0x118, 8, 1, 1, 1, [⟨31, 0, .rc, .const 0, .any⟩]⟩,
  -- HIF_PRE_READY_DROP (R389/R426)
  ⟨0x200, 8, 1, 1, 1, [⟨31, 0, .rc, .const 0, .any⟩]⟩,
  -- HIF_UR_COUNT (R389/R426)
  ⟨0x208, 8, 1, 1, 1, [⟨31, 0, .rc, .const 0, .any⟩]⟩,
  -- HIF_CPL_TIMEOUT_COUNT (R389/R426)
  ⟨0x210, 8, 1, 1, 1, [⟨31, 0, .rc, .const 0, .any⟩]⟩,
  -- HIF_UNEXP_CPL_COUNT (R389/R426)
  ⟨0x218, 8, 1, 1, 1, [⟨31, 0, .rc, .const 0, .any⟩]⟩,
  -- HIF_ATW_MISS_COUNT (R389/R426)
  ⟨0x220, 8, 1, 1, 1, [⟨31, 0, .rc, .const 0, .any⟩]⟩,
  -- HIF_POISON_RX_COUNT (R389/R426)
  ⟨0x228, 8, 1, 1, 1, [⟨31, 0, .rc, .const 0, .any⟩]⟩,
  -- HIF_IDE_FAIL_COUNT (R389/R426)
  ⟨0x230, 8, 1, 1, 1, [⟨31, 0, .rc, .const 0, .any⟩]⟩,
  -- HIF_Q_SEL (R389/R426)
  ⟨0x400, 8, 1, 1, 1, [⟨19, 0, .rw, .const 0, .any⟩]⟩,
  -- HIF_Q_VIEW (R389/R426)
  ⟨0x408, 8, 8, 1, 1, [⟨63, 0, .ro, .const 0, .any⟩]⟩,
  -- HIF_Q_FORCE (R389/R426)
  ⟨0x448, 8, 1, 1, 1, [⟨0, 0, .wo, .const 0, .any⟩]⟩,
  -- HIF_Q_ENABLED (R389/R426)
  ⟨0x450, 8, 1, 1, 1, [⟨20, 0, .ro, .const 0, .any⟩]⟩,
  -- HIF_RX_DISCARD (R389/R426)
  ⟨0x458, 8, 1, 1, 1, [⟨31, 0, .rc, .const 0, .any⟩]⟩]

/-- HIF registers, piece 1. -/
def regsHif1 : List RegSpec := [
  -- HIF_CMD_REFUSED (R389/R426)
  ⟨0x460, 8, 1, 1, 1, [⟨31, 0, .rc, .const 0, .any⟩]⟩,
  -- HIF_ARB_FRAMES (R389/R426)
  ⟨0x468, 8, 1, 1, 1, [⟨63, 0, .ro, .const 0, .any⟩]⟩,
  -- HIF_PORT_STATUS (R389/R426)
  ⟨0x800, 256, 2, 1, 1, [⟨33, 32, .ro, .const 0, .any⟩, ⟨31, 24, .ro, .const 0, .any⟩, ⟨23, 16, .ro, .const 0, .any⟩, ⟨15, 8, .ro, .const 0, .any⟩, ⟨7, 0, .ro, .const 0, .any⟩]⟩,
  -- HIF_PORT_PM (R389/R426)
  ⟨0x808, 256, 2, 1, 1, [⟨15, 0, .rw, .const 10, .range 1 65535⟩]⟩,
  -- HIF_PORT_L0P (R389/R426)
  ⟨0x810, 256, 2, 1, 1, [⟨63, 63, .rw, .const 0, .any⟩, ⟨47, 32, .rw, .const 100, .range 1 65535⟩, ⟨15, 8, .rw, .const 75, .range 1 99⟩, ⟨7, 0, .rw, .const 25, .range 1 99⟩]⟩,
  -- HIF_PORT_QUAR_TAGS (R389/R426)
  ⟨0x818, 256, 2, 1, 1, [⟨13, 0, .ro, .const 0, .any⟩]⟩,
  -- HIF_PORT_LINK_DOWN (R389/R426)
  ⟨0x820, 256, 2, 1, 1, [⟨31, 0, .rc, .const 0, .any⟩]⟩,
  -- HIF_ATW_COMMIT (R389/R426)
  ⟨0x1000, 64, 4, 1, 1, [⟨2, 2, .ro, .const 0, .any⟩, ⟨1, 1, .wo, .const 0, .any⟩, ⟨0, 0, .wo, .const 0, .any⟩]⟩,
  -- HIF_ATW_GEN (R389/R426)
  ⟨0x1008, 64, 4, 1, 1, [⟨31, 0, .ro, .const 0, .any⟩]⟩,
  -- HIF_ATW_STATUS (R389/R426)
  ⟨0x1010, 64, 4, 1, 1, [⟨23, 16, .ro, .const 0, .any⟩, ⟨15, 0, .ro, .const 0, .any⟩]⟩,
  -- HIF_ATW_STG_A (R389/R426)
  ⟨0x100000, 4096, 4, 16, 256, [⟨63, 63, .rw, .const 0, .any⟩, ⟨62, 62, .rw, .const 0, .any⟩, ⟨61, 61, .rw, .const 0, .any⟩, ⟨55, 48, .rw, .const 0, .any⟩, ⟨43, 32, .rw, .const 0, .any⟩, ⟨27, 0, .rw, .const 0, .any⟩]⟩,
  -- HIF_ATW_STG_B (R389/R426)
  ⟨0x100008, 4096, 4, 16, 256, [⟨63, 0, .rw, .const 0, .any⟩]⟩,
  -- HIF_ATW_LIVE_A (R389/R426)
  ⟨0x140000, 4096, 4, 16, 256, [⟨63, 63, .ro, .const 0, .any⟩, ⟨62, 62, .ro, .const 0, .any⟩, ⟨61, 61, .ro, .const 0, .any⟩, ⟨55, 48, .ro, .const 0, .any⟩, ⟨43, 32, .ro, .const 0, .any⟩, ⟨27, 0, .ro, .const 0, .any⟩]⟩,
  -- HIF_ATW_LIVE_B (R389/R426)
  ⟨0x140008, 4096, 4, 16, 256, [⟨63, 0, .ro, .const 0, .any⟩]⟩]

/-- The register map of HIF (14_host_queues.md+15_pcie_endpoint.md R389/R426). -/
def regsHif : List RegSpec := regsHif0 ++ regsHif1

/-- APC registers, piece 0. -/
def regsApc0 : List RegSpec := [
  -- APC_HART_ONLINE0 (R450)
  ⟨0x0, 8, 1, 1, 1, [⟨63, 0, .ro, .const 0, .any⟩]⟩,
  -- APC_HART_ONLINE1 (R450)
  ⟨0x8, 8, 1, 1, 1, [⟨31, 0, .ro, .const 0, .any⟩]⟩,
  -- APC_CE_COUNT (R450)
  ⟨0x10, 8, 1, 1, 1, [⟨31, 0, .rc, .const 0, .any⟩]⟩,
  -- APC_ERR_STATUS (R450)
  ⟨0x100, 8, 1, 1, 1, [⟨2, 2, .rw1c, .const 0, .any⟩, ⟨1, 1, .rw1c, .const 0, .any⟩, ⟨0, 0, .rw1c, .const 0, .any⟩]⟩,
  -- APC_ERR_MASK (R450)
  ⟨0x108, 8, 1, 1, 1, [⟨2, 0, .rw, .const 0, .any⟩]⟩,
  -- APC_ERR_FIRST (R450)
  ⟨0x110, 8, 1, 1, 1, [⟨63, 63, .rw1c, .const 0, .any⟩, ⟨55, 40, .ro, .const 0, .any⟩, ⟨38, 32, .ro, .const 0, .any⟩, ⟨10, 8, .ro, .const 0, .any⟩, ⟨5, 0, .ro, .const 0, .any⟩]⟩,
  -- APC_ERR_COUNT (R450)
  ⟨0x118, 8, 1, 1, 1, [⟨31, 0, .rc, .const 0, .any⟩]⟩,
  -- APC_TQ_DROP (R450)
  ⟨0x200, 8, 8, 1, 1, [⟨31, 0, .rc, .const 0, .any⟩]⟩,
  -- APC_RX_BASE (R450)
  ⟨0x1000, 4096, 8, 32, 64, [⟨63, 0, .rw, .const 0, .any⟩]⟩,
  -- APC_RX_CFG (R450)
  ⟨0x1008, 4096, 8, 32, 64, [⟨63, 63, .rw, .const 0, .any⟩, ⟨62, 62, .rw, .const 0, .any⟩, ⟨59, 56, .rw, .const 0, .range 0 8⟩, ⟨46, 40, .rw, .const 0, .range 0 95⟩, ⟨39, 32, .rw, .const 0, .any⟩, ⟨12, 8, .rw, .const 4, .any⟩, ⟨4, 0, .rw, .const 11, .any⟩]⟩,
  -- APC_RX_PI (R450)
  ⟨0x1010, 4096, 8, 32, 64, [⟨31, 0, .ro, .const 0, .any⟩]⟩,
  -- APC_RX_CI (R450)
  ⟨0x1018, 4096, 8, 32, 64, [⟨31, 0, .rw, .const 0, .any⟩]⟩,
  -- APC_TX_BASE (R450)
  ⟨0x1800, 4096, 8, 32, 64, [⟨63, 0, .rw, .const 0, .any⟩]⟩,
  -- APC_TX_CFG (R450)
  ⟨0x1808, 4096, 8, 32, 64, [⟨63, 63, .rw, .const 0, .any⟩, ⟨62, 62, .rw, .const 0, .any⟩, ⟨59, 56, .rw, .const 0, .range 0 8⟩, ⟨46, 40, .rw, .const 0, .range 0 95⟩, ⟨39, 32, .rw, .const 0, .any⟩, ⟨12, 8, .rw, .const 4, .any⟩, ⟨4, 0, .rw, .const 11, .any⟩]⟩,
  -- APC_TX_PI (R450)
  ⟨0x1810, 4096, 8, 32, 64, [⟨31, 0, .rw, .const 0, .any⟩]⟩,
  -- APC_TX_CI (R450)
  ⟨0x1818, 4096, 8, 32, 64, [⟨31, 0, .ro, .const 0, .any⟩]⟩]

/-- The register map of APC (16_cores_memory.md R450). -/
def regsApc : List RegSpec := regsApc0

/-- MEM registers, piece 0. -/
def regsMem0 : List RegSpec := [
  -- MEM_SCRUB_CFG (R451)
  ⟨0x0, 8, 1, 1, 1, [⟨9, 0, .rw, .const 24, .range 1 720⟩]⟩,
  -- MEM_CE_THRESH (R451)
  ⟨0x8, 8, 1, 1, 1, [⟨15, 0, .rw, .const 64, .range 1 65535⟩]⟩,
  -- MEM_DDR_INFO (R451)
  ⟨0x10, 8, 1, 1, 1, [⟨35, 32, .ro, .const 0, .any⟩, ⟨13, 0, .ro, .const 0, .any⟩]⟩,
  -- MEM_ZERO_PENDING (R451)
  ⟨0x18, 8, 1, 1, 1, [⟨23, 0, .ro, .const 0, .any⟩]⟩,
  -- MEM_PART_VIOL (R451)
  ⟨0x20, 8, 1, 1, 1, [⟨31, 0, .rc, .const 0, .any⟩]⟩,
  -- MEM_UE_COUNT (R451)
  ⟨0x28, 8, 1, 1, 1, [⟨31, 0, .rc, .const 0, .any⟩]⟩,
  -- MEM_CH_SEL (R451)
  ⟨0x30, 8, 1, 1, 1, [⟨7, 0, .rw, .const 0, .range 0 131⟩]⟩,
  -- MEM_CH_CE (R451)
  ⟨0x38, 8, 1, 1, 1, [⟨31, 0, .ro, .const 0, .any⟩]⟩,
  -- MEM_PART_SEL (R451)
  ⟨0x40, 8, 1, 1, 1, [⟨13, 0, .rw, .const 0, .any⟩]⟩,
  -- MEM_PART_VIEW (R451)
  ⟨0x48, 8, 2, 1, 1, [⟨63, 0, .ro, .const 0, .any⟩]⟩,
  -- MEM_ERR_STATUS (R451)
  ⟨0x100, 8, 1, 1, 1, [⟨6, 0, .rw1c, .const 0, .any⟩]⟩,
  -- MEM_ERR_MASK (R451)
  ⟨0x108, 8, 1, 1, 1, [⟨6, 0, .rw, .const 0, .any⟩]⟩,
  -- MEM_ERR_FIRST (R451)
  ⟨0x110, 8, 1, 1, 1, [⟨63, 63, .rw1c, .const 0, .any⟩, ⟨55, 40, .ro, .const 0, .any⟩, ⟨39, 32, .ro, .const 0, .any⟩, ⟨31, 0, .ro, .const 0, .any⟩]⟩,
  -- MEM_ERR_COUNT (R451)
  ⟨0x118, 8, 1, 1, 1, [⟨31, 0, .rc, .const 0, .any⟩]⟩,
  -- MEM_IOMMU_CAPS (R451)
  ⟨0x10000, 8, 1, 1, 1, [⟨63, 0, .ro, .const 2113141607952, .any⟩]⟩,
  -- MEM_IOMMU_FCTL (R451)
  ⟨0x10008, 8, 1, 1, 1, [⟨2, 0, .ro, .const 0, .any⟩]⟩]

/-- MEM registers, piece 1. -/
def regsMem1 : List RegSpec := [
  -- MEM_IOMMU_DDTP (R451)
  ⟨0x10010, 8, 1, 1, 1, [⟨53, 10, .rw, .const 0, .any⟩, ⟨4, 4, .ro, .const 0, .any⟩, ⟨3, 0, .rw, .const 1, .among [0, 1, 3, 4]⟩]⟩,
  -- MEM_IOMMU_CQB (R451)
  ⟨0x10018, 8, 1, 1, 1, [⟨53, 10, .rw, .const 0, .any⟩, ⟨4, 0, .rw, .const 0, .any⟩]⟩,
  -- MEM_IOMMU_CQP (R451)
  ⟨0x10020, 8, 1, 1, 1, [⟨63, 32, .rw, .const 0, .any⟩, ⟨31, 0, .ro, .const 0, .any⟩]⟩,
  -- MEM_IOMMU_FQB (R451)
  ⟨0x10028, 8, 1, 1, 1, [⟨53, 10, .rw, .const 0, .any⟩, ⟨4, 0, .rw, .const 0, .any⟩]⟩,
  -- MEM_IOMMU_FQP (R451)
  ⟨0x10030, 8, 1, 1, 1, [⟨63, 32, .ro, .const 0, .any⟩, ⟨31, 0, .rw, .const 0, .any⟩]⟩,
  -- MEM_IOMMU_CSR (R451)
  ⟨0x10048, 8, 1, 1, 1, [⟨48, 48, .ro, .const 0, .any⟩, ⟨41, 41, .rw1c, .const 0, .any⟩, ⟨40, 40, .rw1c, .const 0, .any⟩, ⟨33, 33, .rw, .const 0, .any⟩, ⟨32, 32, .rw, .const 0, .any⟩, ⟨16, 16, .ro, .const 0, .any⟩, ⟨11, 11, .rw1c, .const 0, .any⟩, ⟨10, 10, .rw1c, .const 0, .any⟩, ⟨9, 9, .rw1c, .const 0, .any⟩, ⟨8, 8, .rw1c, .const 0, .any⟩, ⟨1, 1, .rw, .const 0, .any⟩, ⟨0, 0, .rw, .const 0, .any⟩]⟩,
  -- MEM_IOMMU_IPSR (R451)
  ⟨0x10050, 8, 1, 1, 1, [⟨33, 33, .rw1c, .const 0, .any⟩, ⟨32, 32, .rw1c, .const 0, .any⟩]⟩,
  -- MEM_IOMMU_ICVEC (R451)
  ⟨0x102F8, 8, 1, 1, 1, [⟨7, 4, .rw, .const 0, .any⟩, ⟨3, 0, .rw, .const 0, .any⟩]⟩,
  -- MEM_IOMMU_MSI_ADDR (R451)
  ⟨0x10300, 16, 16, 1, 1, [⟨55, 2, .rw, .const 0, .any⟩]⟩,
  -- MEM_IOMMU_MSI_DATA (R451)
  ⟨0x10308, 16, 16, 1, 1, [⟨32, 32, .rw, .const 1, .any⟩, ⟨31, 0, .rw, .const 0, .any⟩]⟩]

/-- The register map of MEM (16_cores_memory.md R451). -/
def regsMem : List RegSpec := regsMem0 ++ regsMem1

/-- TB registers, piece 0. -/
def regsTb0 : List RegSpec := [
  -- TB_CLK_CFG (R473)
  ⟨0x0, 8, 1, 1, 1, [⟨0, 0, .rw, .const 0, .any⟩]⟩,
  -- TB_CLK_STATUS (R473)
  ⟨0x8, 8, 1, 1, 1, [⟨2, 2, .ro, .const 0, .any⟩, ⟨1, 1, .ro, .const 0, .any⟩, ⟨0, 0, .ro, .const 0, .any⟩]⟩,
  -- TB_ADJ_SEL_STG (R473)
  ⟨0x10, 8, 1, 1, 1, [⟨1, 0, .rw, .const 0, .any⟩]⟩,
  -- TB_ADJ_OP_STG (R473)
  ⟨0x18, 8, 1, 1, 1, [⟨4, 4, .rw, .const 0, .any⟩, ⟨1, 0, .rw, .const 0, .any⟩]⟩,
  -- TB_ADJ_SEC_STG (R473)
  ⟨0x20, 8, 1, 1, 1, [⟨47, 0, .rw, .const 0, .any⟩]⟩,
  -- TB_ADJ_NS_STG (R473)
  ⟨0x28, 8, 1, 1, 1, [⟨47, 16, .rw, .const 0, .any⟩, ⟨15, 0, .rw, .const 0, .any⟩]⟩,
  -- TB_ADJ_OFFSET_STG (R473)
  ⟨0x30, 8, 1, 1, 1, [⟨63, 0, .rw, .const 0, .any⟩]⟩,
  -- TB_ADJ_RATE_STG (R473)
  ⟨0x38, 8, 1, 1, 1, [⟨31, 0, .rw, .const 0, .any⟩]⟩,
  -- TB_ADJ_SLEW_STG (R473)
  ⟨0x40, 8, 1, 1, 1, [⟨9, 0, .rw, .const 100, .range 1 1000⟩]⟩,
  -- TB_COMMIT (R473)
  ⟨0x48, 8, 1, 1, 1, [⟨2, 2, .ro, .const 0, .any⟩, ⟨1, 1, .wo, .const 0, .any⟩, ⟨0, 0, .wo, .const 0, .any⟩]⟩,
  -- TB_GEN (R473)
  ⟨0x50, 8, 1, 1, 1, [⟨31, 0, .ro, .const 0, .any⟩]⟩,
  -- TB_SNAP_CMD (R473)
  ⟨0x58, 8, 1, 1, 1, [⟨0, 0, .wo, .const 0, .any⟩]⟩,
  -- TB_SNAP_MTIME (R473)
  ⟨0x60, 8, 1, 1, 1, [⟨63, 0, .ro, .const 0, .any⟩]⟩,
  -- TB_PPSIN_STATUS (R473)
  ⟨0x68, 8, 1, 1, 1, [⟨63, 63, .rw1c, .const 0, .any⟩, ⟨31, 0, .ro, .const 0, .any⟩]⟩,
  -- TB_PPSIN_DELAY (R473)
  ⟨0x70, 8, 1, 1, 1, [⟨23, 0, .rw, .const 0, .any⟩]⟩,
  -- TB_PPSOUT_CFG (R473)
  ⟨0x78, 8, 1, 1, 1, [⟨63, 63, .rw, .const 0, .any⟩, ⟨61, 60, .rw, .const 0, .any⟩, ⟨51, 32, .rw, .const 100000, .range 1 999999⟩, ⟨29, 0, .rw, .const 0, .range 0 999999999⟩]⟩]

/-- TB registers, piece 1. -/
def regsTb1 : List RegSpec := [
  -- TB_PPSOUT_DELAY (R473)
  ⟨0x80, 8, 1, 1, 1, [⟨23, 0, .rw, .const 0, .any⟩]⟩,
  -- TB_TXTS_COUNT (R473)
  ⟨0x88, 8, 1, 1, 1, [⟨63, 0, .ro, .const 0, .any⟩]⟩,
  -- TB_TXTS_DROP (R473)
  ⟨0x90, 8, 1, 1, 1, [⟨31, 0, .rc, .const 0, .any⟩]⟩,
  -- TB_ONESTEP_COUNT (R473)
  ⟨0x98, 8, 1, 1, 1, [⟨63, 0, .ro, .const 0, .any⟩]⟩,
  -- TB_ERR_STATUS (R473)
  ⟨0x100, 8, 1, 1, 1, [⟨4, 4, .rw1c, .const 0, .any⟩, ⟨3, 3, .rw1c, .const 0, .any⟩, ⟨2, 2, .rw1c, .const 0, .any⟩, ⟨1, 1, .rw1c, .const 0, .any⟩, ⟨0, 0, .rw1c, .const 0, .any⟩]⟩,
  -- TB_ERR_MASK (R473)
  ⟨0x108, 8, 1, 1, 1, [⟨4, 0, .rw, .const 0, .any⟩]⟩,
  -- TB_ERR_FIRST (R473)
  ⟨0x110, 8, 1, 1, 1, [⟨63, 63, .rw1c, .const 0, .any⟩, ⟨55, 40, .ro, .const 0, .any⟩, ⟨35, 32, .ro, .const 0, .any⟩, ⟨1, 0, .ro, .const 0, .any⟩]⟩,
  -- TB_ERR_COUNT (R473)
  ⟨0x118, 8, 1, 1, 1, [⟨31, 0, .rc, .const 0, .any⟩]⟩,
  -- TB_STATUS (R473)
  ⟨0x200, 64, 4, 1, 1, [⟨63, 63, .ro, .const 1, .any⟩, ⟨62, 62, .ro, .const 0, .any⟩]⟩,
  -- TB_RATE (R473)
  ⟨0x208, 64, 4, 1, 1, [⟨31, 0, .ro, .const 0, .any⟩]⟩,
  -- TB_SLEW_LEFT (R473)
  ⟨0x210, 64, 4, 1, 1, [⟨63, 0, .ro, .const 0, .any⟩]⟩,
  -- TB_SNAP_SEC (R473)
  ⟨0x218, 64, 4, 1, 1, [⟨47, 0, .ro, .const 0, .any⟩]⟩,
  -- TB_SNAP_NS (R473)
  ⟨0x220, 64, 4, 1, 1, [⟨47, 16, .ro, .const 0, .any⟩, ⟨15, 0, .ro, .const 0, .any⟩]⟩,
  -- TB_PPSIN_SEC (R473)
  ⟨0x228, 64, 4, 1, 1, [⟨47, 0, .ro, .const 0, .any⟩]⟩,
  -- TB_PPSIN_NS (R473)
  ⟨0x230, 64, 4, 1, 1, [⟨47, 16, .ro, .const 0, .any⟩, ⟨15, 0, .ro, .const 0, .any⟩]⟩,
  -- TB_PORT_CFG (R473)
  ⟨0x400, 32, 16, 1, 1, [⟨9, 8, .rw, .const 0, .range 0 2⟩, ⟨1, 0, .rw, .const 0, .any⟩]⟩]

/-- TB registers, piece 2. -/
def regsTb2 : List RegSpec := [
  -- TB_LANE_RX_TRIM (R473)
  ⟨0x800, 32, 16, 1, 1, [⟨23, 0, .rw, .const 0, .any⟩]⟩,
  -- TB_LANE_TX_TRIM (R473)
  ⟨0x808, 32, 16, 1, 1, [⟨23, 0, .rw, .const 0, .any⟩]⟩,
  -- TB_LANE_CAL (R473)
  ⟨0x810, 32, 16, 1, 1, [⟨63, 32, .ro, .const 0, .any⟩, ⟨31, 0, .ro, .const 0, .any⟩]⟩]

/-- The register map of TB (17_timebase.md R473). -/
def regsTb : List RegSpec := regsTb0 ++ regsTb1 ++ regsTb2

/-- PWR registers, piece 0. -/
def regsPwr0 : List RegSpec := [
  -- PWR_OP_SEL_STG (R500)
  ⟨0x0, 8, 1, 1, 1, [⟨2, 0, .rw, .const 0, .any⟩]⟩,
  -- PWR_OP_MV_STG (R500)
  ⟨0x8, 8, 1, 1, 1, [⟨9, 0, .rw, .const 0, .any⟩]⟩,
  -- PWR_OP_MHZ_STG (R500)
  ⟨0x10, 8, 1, 1, 1, [⟨11, 0, .rw, .const 0, .any⟩]⟩,
  -- PWR_OP_COMMIT (R500)
  ⟨0x18, 8, 1, 1, 1, [⟨2, 2, .ro, .const 0, .any⟩, ⟨1, 1, .wo, .const 0, .any⟩, ⟨0, 0, .wo, .const 0, .any⟩]⟩,
  -- PWR_OP_GEN (R500)
  ⟨0x20, 8, 1, 1, 1, [⟨31, 0, .ro, .const 0, .any⟩]⟩,
  -- PWR_OP_STATUS (R500)
  ⟨0x28, 8, 1, 1, 1, [⟨63, 63, .ro, .const 0, .any⟩, ⟨15, 0, .ro, .const 0, .any⟩]⟩,
  -- PWR_NIGHT_CMD (R500)
  ⟨0x30, 8, 1, 1, 1, [⟨0, 0, .wo, .const 0, .any⟩]⟩,
  -- PWR_NIGHT_CFG (R500)
  ⟨0x38, 8, 1, 1, 1, [⟨0, 0, .rw, .const 0, .any⟩]⟩,
  -- PWR_NIGHT_ALARM (R500)
  ⟨0x40, 8, 1, 1, 1, [⟨63, 63, .rw, .const 0, .any⟩, ⟨47, 0, .rw, .const 0, .any⟩]⟩,
  -- PWR_NIGHT_LIMIT (R500)
  ⟨0x48, 8, 1, 1, 1, [⟨15, 0, .rw, .const 2000, .range 1 60000⟩]⟩,
  -- PWR_THERM_CFG (R500)
  ⟨0x50, 8, 1, 1, 1, [⟨8, 8, .rw, .const 1, .any⟩, ⟨6, 0, .rw, .const 100, .range 70 105⟩]⟩,
  -- PWR_TEMP (R500)
  ⟨0x58, 8, 1, 1, 1, [⟨23, 16, .ro, .const 0, .any⟩, ⟨7, 0, .ro, .const 0, .any⟩]⟩,
  -- PWR_RESET_CAUSE (R500)
  ⟨0x60, 8, 1, 1, 1, [⟨63, 32, .ro, .const 0, .any⟩, ⟨7, 0, .ro, .const 0, .any⟩]⟩,
  -- PWR_HOLD_COUNT (R500)
  ⟨0x68, 8, 1, 1, 1, [⟨31, 0, .rc, .const 0, .any⟩]⟩,
  -- PWR_HOLD_MAX_US (R500)
  ⟨0x70, 8, 1, 1, 1, [⟨19, 0, .ro, .const 0, .any⟩]⟩,
  -- PWR_HART_CTRL (R500)
  ⟨0x78, 8, 1, 1, 1, [⟨63, 63, .wo, .const 0, .any⟩, ⟨62, 62, .wo, .const 0, .any⟩, ⟨6, 0, .wo, .const 0, .any⟩]⟩]

/-- PWR registers, piece 1. -/
def regsPwr1 : List RegSpec := [
  -- PWR_HART_ENTRY (R500)
  ⟨0x80, 8, 1, 1, 1, [⟨63, 0, .rw, .const 15397457756160, .any⟩]⟩,
  -- PWR_TILE_SEL (R500)
  ⟨0x88, 8, 1, 1, 1, [⟨9, 0, .rw, .const 0, .any⟩]⟩,
  -- PWR_TILE_STATE (R500)
  ⟨0x90, 8, 1, 1, 1, [⟨63, 32, .ro, .const 0, .any⟩, ⟨2, 0, .ro, .const 0, .any⟩]⟩,
  -- PWR_ERR_STATUS (R500)
  ⟨0x100, 8, 1, 1, 1, [⟨8, 8, .rw1c, .const 0, .any⟩, ⟨7, 7, .rw1c, .const 0, .any⟩, ⟨6, 6, .rw1c, .const 0, .any⟩, ⟨5, 5, .rw1c, .const 0, .any⟩, ⟨4, 4, .rw1c, .const 0, .any⟩, ⟨3, 3, .rw1c, .const 0, .any⟩, ⟨2, 2, .rw1c, .const 0, .any⟩, ⟨1, 1, .rw1c, .const 0, .any⟩, ⟨0, 0, .rw1c, .const 0, .any⟩]⟩,
  -- PWR_ERR_MASK (R500)
  ⟨0x108, 8, 1, 1, 1, [⟨8, 0, .rw, .const 0, .any⟩]⟩,
  -- PWR_ERR_FIRST (R500)
  ⟨0x110, 8, 1, 1, 1, [⟨63, 63, .rw1c, .const 0, .any⟩, ⟨55, 40, .ro, .const 0, .any⟩, ⟨33, 24, .ro, .const 0, .any⟩, ⟨2, 0, .ro, .const 0, .any⟩]⟩,
  -- PWR_ERR_COUNT (R500)
  ⟨0x118, 8, 1, 1, 1, [⟨31, 0, .rc, .const 0, .any⟩]⟩,
  -- PWR_DOM_STATUS (R500)
  ⟨0x200, 32, 8, 1, 1, [⟨63, 63, .ro, .const 0, .any⟩, ⟨62, 62, .ro, .const 0, .any⟩, ⟨53, 42, .ro, .const 0, .any⟩, ⟨41, 32, .ro, .const 750, .any⟩, ⟨25, 16, .ro, .const 705, .any⟩, ⟨9, 0, .ro, .const 750, .any⟩]⟩]

/-- The register map of PWR (18_power_ageing.md R500). -/
def regsPwr : List RegSpec := regsPwr0 ++ regsPwr1

/-- SDL registers, piece 0. -/
def regsSdl0 : List RegSpec := [
  -- SDL_REPLAN_CFG (R501)
  ⟨0x0, 8, 1, 1, 1, [⟨9, 0, .rw, .const 168, .range 1 720⟩]⟩,
  -- SDL_OP_HOURS (R501)
  ⟨0x8, 8, 1, 1, 1, [⟨31, 0, .ro, .const 0, .any⟩]⟩,
  -- SDL_REPLAN_DUE_AT (R501)
  ⟨0x10, 8, 1, 1, 1, [⟨31, 0, .ro, .const 0, .any⟩]⟩,
  -- SDL_REPLAN_DONE (R501)
  ⟨0x18, 8, 1, 1, 1, [⟨0, 0, .wo, .const 0, .any⟩]⟩,
  -- SDL_SAMPLE_CFG (R501)
  ⟨0x20, 8, 1, 1, 1, [⟨9, 0, .rw, .const 100, .range 1 1000⟩]⟩,
  -- SDL_THRESH (R501)
  ⟨0x28, 8, 1, 1, 1, [⟨31, 16, .rw, .const 25, .range 5 500⟩, ⟨15, 0, .rw, .const 15, .range 5 500⟩]⟩,
  -- SDL_SENS_SEL (R501)
  ⟨0x30, 8, 1, 1, 1, [⟨8, 0, .rw, .const 0, .any⟩]⟩,
  -- SDL_SENS_DATA (R501)
  ⟨0x38, 8, 1, 1, 1, [⟨63, 63, .ro, .const 0, .any⟩, ⟨58, 56, .ro, .const 0, .any⟩, ⟨55, 48, .ro, .const 0, .any⟩, ⟨47, 32, .ro, .const 0, .any⟩, ⟨15, 0, .ro, .const 0, .any⟩]⟩,
  -- SDL_DOM_SUMMARY (R501)
  ⟨0x40, 8, 8, 1, 1, [⟨47, 32, .ro, .const 0, .any⟩, ⟨15, 0, .ro, .const 0, .any⟩]⟩,
  -- SDL_ERR_STATUS (R501)
  ⟨0x100, 8, 1, 1, 1, [⟨4, 4, .rw1c, .const 0, .any⟩, ⟨3, 3, .rw1c, .const 0, .any⟩, ⟨2, 2, .rw1c, .const 0, .any⟩, ⟨1, 1, .rw1c, .const 0, .any⟩, ⟨0, 0, .rw1c, .const 0, .any⟩]⟩,
  -- SDL_ERR_MASK (R501)
  ⟨0x108, 8, 1, 1, 1, [⟨4, 0, .rw, .const 0, .any⟩]⟩,
  -- SDL_ERR_FIRST (R501)
  ⟨0x110, 8, 1, 1, 1, [⟨63, 63, .rw1c, .const 0, .any⟩, ⟨55, 40, .ro, .const 0, .any⟩, ⟨18, 16, .ro, .const 0, .any⟩, ⟨8, 0, .ro, .const 0, .any⟩]⟩,
  -- SDL_ERR_COUNT (R501)
  ⟨0x118, 8, 1, 1, 1, [⟨31, 0, .rc, .const 0, .any⟩]⟩]

/-- The register map of SDL (18_power_ageing.md R501). -/
def regsSdl : List RegSpec := regsSdl0

/-- BOOT registers, piece 0. -/
def regsBoot0 : List RegSpec := [
  -- BOOT_STATUS (R527)
  ⟨0x0, 8, 1, 1, 1, [⟨63, 48, .ro, .const 0, .any⟩, ⟨39, 32, .ro, .const 0, .any⟩, ⟨31, 31, .ro, .const 0, .any⟩, ⟨30, 30, .ro, .const 0, .any⟩, ⟨29, 29, .ro, .const 0, .any⟩, ⟨28, 28, .ro, .const 0, .any⟩, ⟨21, 20, .ro, .const 0, .any⟩, ⟨11, 8, .ro, .const 15, .any⟩, ⟨3, 0, .ro, .const 0, .any⟩]⟩,
  -- BOOT_CMD (R527)
  ⟨0x8, 8, 1, 1, 1, [⟨8, 8, .wo, .const 0, .any⟩, ⟨3, 0, .wo, .const 0, .range 1 4⟩]⟩,
  -- BOOT_CMD_STATUS (R527)
  ⟨0x10, 8, 1, 1, 1, [⟨63, 63, .ro, .const 0, .any⟩, ⟨15, 0, .ro, .const 0, .any⟩]⟩,
  -- BOOT_IMG_BASE (R527)
  ⟨0x18, 8, 1, 1, 1, [⟨63, 0, .ro, .const 1099511627776, .any⟩]⟩,
  -- BOOT_IMG_LEN (R527)
  ⟨0x20, 8, 1, 1, 1, [⟨31, 0, .ro, .const 0, .any⟩]⟩,
  -- BOOT_SEQ (R527)
  ⟨0x28, 8, 1, 1, 1, [⟨63, 0, .ro, .const 0, .any⟩]⟩,
  -- BOOT_IMG_ARB (R527)
  ⟨0x30, 8, 1, 1, 1, [⟨31, 0, .ro, .const 0, .any⟩]⟩,
  -- BOOT_ARB_FLOOR (R527)
  ⟨0x38, 8, 1, 1, 1, [⟨31, 0, .ro, .const 0, .any⟩]⟩,
  -- BOOT_MEAS (R527)
  ⟨0x40, 8, 6, 1, 1, [⟨63, 0, .ro, .const 0, .any⟩]⟩,
  -- BOOT_STAGE2_LIMIT (R527)
  ⟨0x70, 8, 1, 1, 1, [⟨15, 0, .rw, .const 900, .range 10 60000⟩]⟩,
  -- BOOT_SLOT_STATE (R527)
  ⟨0x78, 8, 1, 1, 1, [⟨15, 12, .ro, .const 0, .any⟩, ⟨11, 8, .ro, .const 0, .any⟩, ⟨7, 4, .ro, .const 0, .any⟩, ⟨3, 0, .ro, .const 0, .any⟩]⟩,
  -- BOOT_SLOTA_SEQ (R527)
  ⟨0x80, 8, 1, 1, 1, [⟨63, 0, .ro, .const 0, .any⟩]⟩,
  -- BOOT_SLOTB_SEQ (R527)
  ⟨0x88, 8, 1, 1, 1, [⟨63, 0, .ro, .const 0, .any⟩]⟩,
  -- BOOT_ERR_STATUS (R527)
  ⟨0x100, 8, 1, 1, 1, [⟨12, 0, .rw1c, .const 0, .any⟩]⟩,
  -- BOOT_ERR_MASK (R527)
  ⟨0x108, 8, 1, 1, 1, [⟨12, 0, .rw, .const 0, .any⟩]⟩,
  -- BOOT_ERR_FIRST (R527)
  ⟨0x110, 8, 1, 1, 1, [⟨63, 63, .rw1c, .const 0, .any⟩, ⟨55, 40, .ro, .const 0, .any⟩, ⟨39, 32, .ro, .const 0, .any⟩, ⟨31, 0, .ro, .const 0, .any⟩]⟩]

/-- BOOT registers, piece 1. -/
def regsBoot1 : List RegSpec := [
  -- BOOT_ERR_COUNT (R527)
  ⟨0x118, 8, 1, 1, 1, [⟨31, 0, .rc, .const 0, .any⟩]⟩,
  -- BOOT_XSPI_ADDR (R527)
  ⟨0x200, 8, 1, 1, 1, [⟨29, 0, .rw, .const 0, .any⟩]⟩,
  -- BOOT_XSPI_LEN (R527)
  ⟨0x208, 8, 1, 1, 1, [⟨28, 0, .rw, .const 0, .range 1 268435456⟩]⟩,
  -- BOOT_XSPI_BUF (R527)
  ⟨0x210, 8, 1, 1, 1, [⟨63, 0, .rw, .const 0, .aligned 64⟩]⟩,
  -- BOOT_XSPI_CMD (R527)
  ⟨0x218, 8, 1, 1, 1, [⟨1, 0, .wo, .const 0, .range 1 3⟩]⟩,
  -- BOOT_XSPI_STATUS (R527)
  ⟨0x220, 8, 1, 1, 1, [⟨63, 63, .ro, .const 0, .any⟩, ⟨15, 0, .ro, .const 0, .any⟩]⟩]

/-- The register map of BOOT (19_boot.md R527). -/
def regsBoot : List RegSpec := regsBoot0 ++ regsBoot1

/-- WKT registers, piece 0. -/
def regsWkt0 : List RegSpec := [
  -- WKT_LIFECYCLE (R546)
  ⟨0x0, 8, 1, 1, 1, [⟨2, 2, .ro, .const 0, .any⟩, ⟨1, 1, .ro, .const 0, .any⟩, ⟨0, 0, .ro, .const 0, .any⟩]⟩,
  -- WKT_UID (R546)
  ⟨0x8, 8, 2, 1, 1, [⟨63, 0, .ro, .const 0, .any⟩]⟩,
  -- WKT_EPOCH (R546)
  ⟨0x18, 8, 2, 1, 1, [⟨63, 0, .ro, .const 0, .any⟩]⟩,
  -- WKT_CHAL_CMD (R546)
  ⟨0x28, 8, 1, 1, 1, [⟨0, 0, .wo, .const 0, .any⟩]⟩,
  -- WKT_CHAL (R546)
  ⟨0x30, 8, 6, 1, 1, [⟨63, 0, .ro, .const 0, .any⟩]⟩,
  -- WKT_TOKEN_SRC (R546)
  ⟨0x60, 8, 1, 1, 1, [⟨63, 0, .rw, .const 0, .aligned 64⟩]⟩,
  -- WKT_TOKEN_CMD (R546)
  ⟨0x68, 8, 1, 1, 1, [⟨4, 4, .wo, .const 0, .any⟩, ⟨0, 0, .wo, .const 0, .any⟩]⟩,
  -- WKT_TOKEN_STATUS (R546)
  ⟨0x70, 8, 1, 1, 1, [⟨63, 63, .ro, .const 0, .any⟩, ⟨15, 0, .ro, .const 0, .any⟩]⟩,
  -- WKT_ARB_CMD (R546)
  ⟨0x78, 8, 1, 1, 1, [⟨4, 4, .wo, .const 0, .any⟩, ⟨1, 0, .wo, .const 0, .range 0 2⟩]⟩,
  -- WKT_ARB_USED (R546)
  ⟨0x80, 8, 1, 1, 1, [⟨21, 16, .ro, .const 0, .any⟩, ⟨13, 8, .ro, .const 0, .any⟩, ⟨5, 0, .ro, .const 0, .any⟩]⟩,
  -- WKT_BANK_STATUS (R546)
  ⟨0x88, 8, 1, 1, 1, [⟨13, 12, .ro, .const 0, .any⟩, ⟨9, 8, .ro, .const 0, .any⟩, ⟨5, 4, .ro, .const 0, .any⟩, ⟨1, 0, .ro, .const 0, .any⟩]⟩,
  -- WKT_S2_MEAS (R546)
  ⟨0x90, 8, 6, 1, 1, [⟨63, 0, .rwl, .const 0, .any⟩]⟩,
  -- WKT_ERR_STATUS (R546)
  ⟨0x100, 8, 1, 1, 1, [⟨9, 9, .rw1c, .const 0, .any⟩, ⟨8, 8, .rw1c, .const 0, .any⟩, ⟨7, 7, .rw1c, .const 0, .any⟩, ⟨6, 6, .rw1c, .const 0, .any⟩, ⟨5, 5, .rw1c, .const 0, .any⟩, ⟨4, 4, .rw1c, .const 0, .any⟩, ⟨3, 3, .rw1c, .const 0, .any⟩, ⟨2, 2, .rw1c, .const 0, .any⟩, ⟨1, 1, .rw1c, .const 0, .any⟩, ⟨0, 0, .rw1c, .const 0, .any⟩]⟩,
  -- WKT_ERR_MASK (R546)
  ⟨0x108, 8, 1, 1, 1, [⟨9, 0, .rw, .const 0, .any⟩]⟩,
  -- WKT_ERR_FIRST (R546)
  ⟨0x110, 8, 1, 1, 1, [⟨63, 63, .rw1c, .const 0, .any⟩, ⟨55, 40, .ro, .const 0, .any⟩, ⟨9, 8, .ro, .const 0, .any⟩, ⟨1, 0, .ro, .const 0, .any⟩]⟩,
  -- WKT_ERR_COUNT (R546)
  ⟨0x118, 8, 1, 1, 1, [⟨31, 0, .rc, .const 0, .any⟩]⟩]

/-- The register map of WKT (20_security.md R546). -/
def regsWkt : List RegSpec := regsWkt0

/-- FLT registers, piece 0. -/
def regsFlt0 : List RegSpec := [
  -- FLT_SUMMARY (R559)
  ⟨0x0, 8, 1, 1, 1, [⟨26, 0, .ro, .const 0, .any⟩]⟩,
  -- FLT_MSIX (R559)
  ⟨0x8, 8, 1, 1, 1, [⟨63, 63, .rw, .const 0, .any⟩, ⟨10, 0, .rw, .const 0, .any⟩]⟩,
  -- FLT_APLIC_EN (R559)
  ⟨0x10, 8, 1, 1, 1, [⟨26, 0, .rw, .const 0, .any⟩]⟩,
  -- FLT_CMD_TIMEOUT (R559)
  ⟨0x18, 8, 1, 1, 1, [⟨47, 24, .rw, .const 660000, .range 1 16777215⟩, ⟨15, 0, .rw, .const 200, .range 10 400⟩]⟩,
  -- FLT_RETIRE_CFG (R559)
  ⟨0x20, 8, 1, 1, 1, [⟨63, 63, .rw, .const 1, .any⟩, ⟨15, 8, .rw, .const 3, .range 1 255⟩, ⟨7, 0, .rw, .const 1, .range 1 168⟩]⟩,
  -- FLT_INTR_MAX_US (R559)
  ⟨0x28, 8, 1, 1, 1, [⟨19, 0, .ro, .const 0, .any⟩]⟩,
  -- FLT_INTR_TOTAL_US (R559)
  ⟨0x30, 8, 1, 1, 1, [⟨63, 0, .ro, .const 0, .any⟩]⟩,
  -- FLT_INTR_EVENTS (R559)
  ⟨0x38, 8, 1, 1, 1, [⟨31, 0, .rc, .const 0, .any⟩]⟩,
  -- FLT_LATE_CPL (R559)
  ⟨0x40, 8, 1, 1, 1, [⟨31, 0, .rc, .const 0, .any⟩]⟩,
  -- FLT_COPY_REPAIR (R559)
  ⟨0x48, 8, 1, 1, 1, [⟨31, 0, .rc, .const 0, .any⟩]⟩,
  -- FLT_TILE_SEL (R559)
  ⟨0x50, 8, 1, 1, 1, [⟨9, 0, .rw, .const 0, .any⟩]⟩,
  -- FLT_TILE_INFO (R559)
  ⟨0x58, 8, 1, 1, 1, [⟨63, 63, .ro, .const 0, .any⟩, ⟨47, 32, .ro, .const 0, .any⟩, ⟨15, 0, .ro, .const 0, .any⟩]⟩,
  -- FLT_ERR_STATUS (R559)
  ⟨0x100, 8, 1, 1, 1, [⟨3, 3, .rw1c, .const 0, .any⟩, ⟨2, 2, .rw1c, .const 0, .any⟩, ⟨1, 1, .rw1c, .const 0, .any⟩, ⟨0, 0, .rw1c, .const 0, .any⟩]⟩,
  -- FLT_ERR_MASK (R559)
  ⟨0x108, 8, 1, 1, 1, [⟨3, 0, .rw, .const 0, .any⟩]⟩,
  -- FLT_ERR_FIRST (R559)
  ⟨0x110, 8, 1, 1, 1, [⟨63, 63, .rw1c, .const 0, .any⟩, ⟨55, 40, .ro, .const 0, .any⟩, ⟨25, 16, .ro, .const 0, .any⟩, ⟨15, 0, .ro, .const 0, .any⟩]⟩,
  -- FLT_ERR_COUNT (R559)
  ⟨0x118, 8, 1, 1, 1, [⟨31, 0, .rc, .const 0, .any⟩]⟩]

/-- The register map of FLT (21_reliability.md R559). -/
def regsFlt : List RegSpec := regsFlt0

/-- The register map of a unit code (Table 1-9); an absent code has none (R33). -/
def unitRegs : Nat → List RegSpec
  | 0x08 => regsSite
  | 0x09 => regsPrm
  | 0x10 => regsEth
  | 0x0A => regsPav
  | 0x11 => regsArb
  | 0x12 => regsAcm
  | 0x13 => regsEmt
  | 0x14 => regsSch
  | 0x15 => regsCph
  | 0x16 => regsTe
  | 0x17 => regsNve
  | 0x18 => regsHif
  | 0x1A => regsApc
  | 0x19 => regsMem
  | 0x03 => regsTb
  | 0x01 => regsPwr
  | 0x02 => regsSdl
  | 0x00 => regsBoot
  | 0x04 => regsWkt
  | 0x05 => regsFlt
  | _ => []

end Sys2Proof.Machine
end

