-- ==== Sys2Proof/Machine/Sparse.lean ====
section
/-! DEFINITION. Sparse tables in one canonical form: a lookup, an update that keeps the form, and
the form itself. -/

namespace Sys2Proof.Machine

/-- The entry at key `k`, and `d k` where none is listed. -/
def spGet {α : Type} (d : Nat → α) : Sparse α → Nat → α
  | [], k => d k
  | (k', v) :: t, k => if k = k' then v else spGet d t k

/-- `m` without an entry at key `k`. -/
def spErase {α : Type} : Sparse α → Nat → Sparse α
  | [], _ => []
  | (k', v) :: t, k => if k = k' then spErase t k else (k', v) :: spErase t k

/-- `m` with `v` listed at key `k`, the keys rising. -/
def spInsert {α : Type} : Sparse α → Nat → α → Sparse α
  | [], k, v => [(k, v)]
  | (k', v') :: t, k, v =>
    if k < k' then (k, v) :: (k', v') :: t
    else if k = k' then (k, v) :: t
    else (k', v') :: spInsert t k v

/-- `m` with key `k` reading as `v`: listed unless it is what an unlisted key reads as. -/
def spSet {α : Type} [DecidableEq α] (d : Nat → α) (m : Sparse α) (k : Nat) (v : α) : Sparse α :=
  if v = d k then spErase m k else spInsert m k v

/-- The keys rise, starting above `lo`, and no entry is what an unlisted key reads as. -/
def spWfFrom {α : Type} [DecidableEq α] (d : Nat → α) : Option Nat → Sparse α → Bool
  | _, [] => true
  | lo, (k, v) :: t =>
    (match lo with
     | none => true
     | some l => decide (l < k)) && decide (v ≠ d k) && spWfFrom d (some k) t

/-- The canonical form of a sparse table. -/
def spWf {α : Type} [DecidableEq α] (d : Nat → α) (m : Sparse α) : Bool := spWfFrom d none m

/-- The keys that are listed. -/
def spKeys {α : Type} (m : Sparse α) : List Nat := m.map Prod.fst

/-! Sets of numbers as rising, disjoint runs: first number and length. -/

/-- A set without the `n` numbers from `a` on. -/
def runCut : List (Nat × Nat) → Nat → Nat → List (Nat × Nat)
  | [], _, _ => []
  | (b, m) :: t, a, n =>
    (if b < min a (b + m) then [(b, min a (b + m) - b)] else []) ++
      (if max b (a + n) < b + m then [(max b (a + n), b + m - max b (a + n))] else []) ++ runCut t a n

/-- A run put in its place, joined with a run that it touches. -/
def runPut : List (Nat × Nat) → Nat → Nat → List (Nat × Nat)
  | [], a, n => [(a, n)]
  | (b, m) :: t, a, n =>
    if a + n < b then (a, n) :: (b, m) :: t
    else if a + n = b then (a, n + m) :: t
    else if b + m = a then runPut t b (m + n)
    else (b, m) :: runPut t a n

/-- A set with the `n` numbers from `a` on. -/
def runAdd (l : List (Nat × Nat)) (a n : Nat) : List (Nat × Nat) := if n = 0 then l else runPut (runCut l a n) a n

/-- How many numbers a set holds. -/
def runCount (l : List (Nat × Nat)) : Nat := (l.map Prod.snd).sum

end Sys2Proof.Machine
end

