-- ==== Sys2Proof/Machine/State.lean ====
section
/-! DEFINITION. The state of the block as plain data, and the state right after reset. Every
software-visible register lives in `State.regs` (its map is Machine/RegTable.lean); what the spec
gives the units beside their registers lives in the unit structures below. -/

namespace Sys2Proof.Machine

/-- Why the machine stops with a fault: never. Every access that the spec forbids is answered as the spec says
(an error response, a status bit, a count), so no command stops the block. -/
inductive Fault
  deriving DecidableEq, Repr

/-- Why a command is refused. -/
inductive Refusal
  /-- A command whose meaning is not modelled yet, by mnemonic. Safe: nothing is claimed of it. -/
  | notModelled (mnemonic : String)
  deriving DecidableEq, Repr

/-! ### What leaves the block -/

/-- The attributes of a request to the host (R408, R412, R422): its PASID prefix, whether its address is translated,
Relaxed Ordering, ID-Based Ordering, and the selective IDE stream on which it travels with the T bit. No Snoop is never
set. -/
structure TlpAttr where
  pasid : Option Nat
  translated : Bool
  relaxed : Bool
  idOrder : Bool
  stream : Option Nat
  deriving DecidableEq, Repr

/-- What the block sends to its surroundings: the model's own record of its effects on them. -/
inductive Output
  /-- A frame on the wire of a port, without FCS; whether its FCS is good (R227, R242). -/
  | frame (port : Nat) (bytes : List Byte) (fcsGood : Bool)
  /-- A PFC frame for one priority with a pause time (R89). -/
  | pfc (port prio quanta : Nat)
  /-- One MSI to an APLIC source (R558). -/
  | aplicMsi (source : Nat)
  /-- One MSI to an identity of a hart's interrupt file: file 0 S-level, 1 to 7 guest, 8 M-level (R441). -/
  | imsic (hart file eiid : Nat)
  /-- One MSI-X message of a function's vector (R400). -/
  | msix (fn vector : Nat)
  /-- A signal to the tenant logic of a pavilion group. -/
  | tenant (group : Nat) (what : String) (value : Nat)
  /-- A flit delivered to tenant logic at an endpoint: virtual channel, head, tail, abort, poison, valid bytes,
  header words of a head flit, payload bytes (Table 4-6). -/
  | rxFlit (ep vc : Nat) (head tail abort poison : Bool) (vbytes : Nat) (words : List Word) (data : List Byte)
  /-- A response at a pavilion's HBM port: member, tag, status 0 OK, 1 BOUND, 2 POISON, data (R113). -/
  | hbmResponse (member tag status : Nat) (data : List Byte)
  /-- Bytes written to host memory through a function, at the address of the request. -/
  | hostWrite (fn addr : Nat) (data : List Byte) (attr : TlpAttr)
  /-- A read request to host memory: port, tag, function, address, length (R413). -/
  | hostReadRequest (port tag fn addr len : Nat) (attr : TlpAttr)
  /-- An ATS Translation Request for the page at an address (R412). -/
  | translationRequest (port tag fn addr : Nat) (attr : TlpAttr)
  /-- An error message of a function: 0 correctable, 1 non-fatal, 2 fatal (R423). -/
  | errMessage (fn severity : Nat)
  /-- The answer to a configuration request: the register read, or RRS where `rrs`. -/
  | configAnswer (fn : Nat) (value : Nat) (rrs : Bool)
  /-- A change on a PCIe link: entry to or exit from a power state, a width request, retraining, a DRS
  message; with a number. -/
  | pcieLink (port link : Nat) (what : String) (value : Nat)
  /-- A data object answered on the DOE mailbox of a PF (R420, R535). -/
  | doe (pf : Nat) (object : List Byte)
  /-- A value captured in a TAP register and shifted out (Table 20-8). -/
  | tap (what : String) (value : List Byte)
  /-- A level driven on an output pin. -/
  | pin (name : String) (level : Nat)
  /-- The answer to a host's memory read, by the request's tag: data, or UR (R404). -/
  | hostRead (tag : Nat) (data : List Byte) (ur : Bool)
  /-- The answer to a host's memory read whose data is marked poisoned (R438). -/
  | hostReadPoison (tag : Nat) (data : List Byte)
  /-- The value that a read of the control space returns, by offset (R11). -/
  | regRead (offset : Nat) (value : Word)
  /-- A core's access to the control space ends in an access fault (R7). -/
  | accessFault (offset : Nat)
  /-- A hart's fetch ends in an instruction access fault (R429). -/
  | fetchFault (hart : Nat)
  /-- An ATS Invalidation Completion of a function, by its tag (R412). -/
  | atsDone (fn tag : Nat)
  /-- A voltage command on AVSBus: rail, mV (R568). -/
  | avs (rail mv : Nat)
  deriving DecidableEq, Repr

/-! ### Promenade -/

/-- A flit in the mesh: its packet, sideband and bytes (R64, Table 3-1). `vbytes` is the number of valid
bytes, 1 to 128, `ecc` the check bits over bytes and sideband, and `paid` the channel whose transmit credit the
flit took, of a flit that tenant logic offered (R111). -/
structure Flit where
  pkt : Nat
  head : Bool
  tail : Bool
  abort : Bool
  poison : Bool
  vbytes : Nat
  ecc : BitVec 40
  paid : Option Nat
  data : List Byte
  deriving DecidableEq, Repr

/-- A packet in the mesh: the header it carries, the endpoint that injected it, its channel, whether its arrival
woke the destination tile (R82), the station at which what is left of it is discarded (R85, R87), and whether it is a
trace event, which never waits for credit (R86). -/
structure Flight where
  words : List Word
  src : Nat
  vc : Nat
  woke : Bool
  dropAt : Option Nat
  trace : Bool
  deriving DecidableEq, Repr

/-- The injecting station's view of one local port (R83, R84): the packet in progress, the bytes
taken of it, the bytes it must have, the payload a device unit has still to offer, whether flits
are discarded until a HEAD, and the last abort: its void's packet, if it has been injected, the void's `OPCODE` and
the instant (R88). -/
structure Injector where
  active : Bool
  pkt : Nat
  got : Nat
  need : Nat
  rest : List Byte
  discarding : Bool
  last : Option (Option Nat × Nat × Nat)
  deriving DecidableEq, Repr

/-- A packet being ejected at an endpoint on one channel: its number, its header, the payload so far, whether
some flit was bad, and whether the rest is discarded. -/
structure RxPacket where
  pkt : Nat
  words : List Word
  payload : List Byte
  poison : Bool
  discard : Bool
  deriving DecidableEq, Repr

/-- The arbitration of one link (R70, R71): its round of 256 flit cycles, flits sent in it, the shares of each
class as they stood when it began, the flits each class has sent within its guarantee and beyond it, and the
channel each class was last served on. -/
structure LinkArb where
  round : Nat
  slots : Nat
  shares : List Nat
  used : List Nat
  extra : List Nat
  last : List Nat
  deriving DecidableEq, Repr

structure PrmState where
  /-- Packets that device units wait to inject, by endpoint. -/
  out : Sparse (List Packet)
  inj : Sparse Injector
  /-- Flit FIFOs: the input buffer of a link at its far station (key 4(4s+d)+vc) and the injection
  buffer of an endpoint (key 4096+4ep+vc). -/
  bufs : Sparse (List Flit)
  /-- Credits held for a link's far buffer, by the same keys (R65). -/
  credits : Sparse Nat
  /-- The packet that holds a channel of a link, plus one; 0 none (R66). -/
  owner : Sparse Nat
  flights : Sparse Flight
  nextPkt : Nat
  /-- The packet in ejection at key 4ep+vc. -/
  rx : Sparse (Option RxPacket)
  /-- Packets delivered whole and not yet taken by the unit, by endpoint. -/
  inbox : Sparse (List Packet)
  /-- Ejection ports blocked under R85. -/
  blocked : List Nat
  /-- Flits sent on each link (PRM_LINK_FLITS). -/
  linkFlits : Sparse Nat
  /-- Arbitration of each link, by 4s + d. -/
  arb : Sparse LinkArb
  /-- Headers that a station has built and may not inject yet, by endpoint: channel and words (R66, R90). -/
  wait : Sparse (List (Nat × List Word))
  /-- Packets of a device unit whose injection has ended, by endpoint, counted since the start. -/
  sent : Sparse Nat
  deriving DecidableEq, Repr

/-! ### Pavilions -/

/-- A request at a pavilion's HBM port that has not been answered (R113). -/
structure HbmReq where
  member : Nat
  write : Bool
  addr : Nat
  tag : Nat
  data : List Byte
  mask : Word
  discard : Bool
  deriving DecidableEq, Repr

/-- What a group is in the middle of (R104, R105, R107). -/
inductive PavPhase
  | idle | header | scrub | frames | attach | grace | hbmDrain | release
  deriving DecidableEq, Repr

/-- One pavilion group, beside its registers. -/
structure PavGroup where
  phase : PavPhase
  /-- The LOAD in progress: source, length, host memory, the header read, and the frames read. -/
  src : Nat
  len : Nat
  host : Bool
  hdr : List Byte
  frames : Sparse (List Byte)
  /-- Scrubs tried (R107), and whether the scrub in progress leads to a load. -/
  scrubs : Nat
  scrubForLoad : Bool
  /-- QUIESCE_REQ and QUIESCE_ACK, SLEEP_REQ (R105, R119). -/
  quiesceReq : Bool
  quiesceAck : Bool
  sleepReq : Bool
  /-- Fenced for an uncorrectable upset: RELEASE refused (R121). -/
  upset : Bool
  clocksOn : Bool
  portsUp : Bool
  userReset : Bool
  /-- KHZ and ACT_KHZ of the four user clocks (Table 4-9). -/
  khz : List Nat
  actKhz : List Nat
  /-- PAVC_DROP and PAVC_VIOL_COUNT. -/
  drop : Nat
  viols : Nat
  /-- Register reads outstanding, oldest first, by request tag (R116); late returns to discard (R117). -/
  reads : List Nat
  late : Nat
  /-- Accesses that the register bus offers and tenant logic has not taken, oldest first: write, offset, value,
  tag (R116). -/
  bus : List (Bool × Nat × Word × Nat)
  /-- Does tenant logic hold `REG_READY` low, so that it takes no access? -/
  busBusy : Bool
  /-- Instants of the last violation, of the entry to FENCED and of the operator's RELEASE (R124), on the clock
  of `ClockState.elapsed`. -/
  violAt : Option Nat
  fencedAt : Option Nat
  relAt : Option Nat
  deriving DecidableEq, Repr

/-- The fabric of one pavilion (Table 4-1): its configuration memory as the words written, the truth tables of its
49,152 LUT6 cells, its 98,304 flip-flops in words of 64, the registers of its 192 DSP blocks, and its 12 Mib of block
RAM in words of 64 bits; unlisted: zero. No path returns any of it (R108). -/
structure Fabric where
  config : List Byte
  luts : Sparse Word
  ffs : Sparse Word
  dsp : Sparse Word
  bram : Sparse Word
  deriving DecidableEq, Repr

structure PavState where
  groups : Sparse PavGroup
  /-- Members waiting at each configuration engine, in order (R103). -/
  engines : Sparse (List Nat)
  /-- Transmit credits tenant logic holds and receive credits the device holds, by 4ep+vc (R111). -/
  txCredits : Sparse Nat
  rxCredits : Sparse Nat
  hbm : List HbmReq
  /-- The fabric of each pavilion; unlisted: all zero. -/
  fabric : Sparse Fabric
  /-- Pavilions of groups whose scrub has failed twice since the device reset (R107). -/
  failed : List Nat
  deriving DecidableEq, Repr

/-! ### Packets on their way to classification -/

/-- A packet stored in the ingress buffer (source 0 to 15) or a host engine's fetch buffer (source
0x10 to 0x13), without FCS (R17, R139): arrival number, priority, TD, timestamp, and whether it has
been dispatched to an arbour thread. -/
structure SrcFrame where
  src : Nat
  arrival : Nat
  prio : Nat
  td : Nat
  data : List Byte
  ns : Nat
  frac : Nat
  poison : Bool
  dispatched : Bool
  deriving DecidableEq, Repr

/-- A committed packet (R142): its source and arrival number, the header, the frame, the key builder
and profile, whether it is poisoned, and whether the flow-cache way of its lookup holds an uncorrectable error. -/
structure Committed where
  src : Nat
  arrival : Nat
  words : List Word
  data : List Byte
  key : List Byte
  profile : Nat
  prio : Nat
  poison : Bool
  wayUe : Bool
  deriving DecidableEq, Repr

/-! ### Arbour -/

/-- What a thread waits for (Table 5-6, R143, R175), with the register its status goes to. -/
inductive ArbWait
  | lock (i rd : Nat)
  | counter (j v rd : Nat)
  | order (q rd : Nat)
  | commit (rd : Nat)
  | park (j v rd timeout : Nat)
  deriving DecidableEq, Repr

/-- The packet a thread holds (R140, Table 5-1). -/
structure ArbPacket where
  src : Nat
  arrival : Nat
  len : Nat
  data : List Byte
  ruleVer : Nat
  prio : Nat
  td : Nat
  ns : Nat
  frac : Nat
  poison : Bool
  deriving DecidableEq, Repr

/-- A thread's context and state (Tables 5-1, 5-2). -/
structure ArbThread where
  st : Nat
  regs : List Word
  pc : Nat
  window : List Byte
  changed : List Nat
  key : List Byte
  profile : Nat
  ew : List Word
  written : Nat
  pkt : Option ArbPacket
  /-- Place in the cluster's dispatch order. -/
  order : Nat
  committed : Bool
  locks : List Nat
  passed : List Nat
  wait : Option ArbWait
  /-- The state a wait or a halt returns to. -/
  base : Nat
  prior : Nat
  /-- The outcome of a wait that ended while the thread was halted (R151). -/
  outcome : Option Nat
  haltPending : Bool
  /-- The breakpoint at the PC is not taken for the instruction at which the thread resumes (R153). -/
  skipBreak : Bool
  /-- STEP was written while the thread still waited: it halts after its next instruction (R153). -/
  stepPending : Bool
  slots : Nat
  set : Nat
  deriving DecidableEq, Repr

structure ArbLock where
  holder : Option Nat
  waiters : List Nat
  deriving DecidableEq, Repr

/-- A store of one cycle to a cluster's data memory: the thread, the address and the bytes (R167). -/
structure ArbStore where
  thread : Nat
  addr : Nat
  data : List Byte
  deriving DecidableEq, Repr

structure ArbCluster where
  imem : List Word
  /-- Data memory before the stores of the cycle `storeAt`, and those stores (R167). -/
  dmem : Sparse Byte
  stores : List ArbStore
  storeAt : Nat
  threads : Sparse ArbThread
  locks : Sparse ArbLock
  counters : Sparse Nat
  /-- Packets dispatched to the cluster that have passed each sequencer or ended. -/
  seqCounts : Sparse Nat
  nextOrder : Nat
  commits : List Committed
  /-- Entries reserved for halted threads, and threads waiting for one, oldest first. -/
  reserved : Nat
  commitWait : List Nat
  svcReq : Bool
  svcCause : Nat
  cycle : Nat
  /-- Sets whose HALT_HOLD episode has been reported (R150). -/
  episodes : Nat
  /-- Instant of the last dispatch that the cluster has accepted, on the clock of `ClockState.elapsed` (R139). -/
  dispatchAt : Option Nat
  deriving DecidableEq, Repr

/-- What the commit sequencer knows of one source (R143): the next arrival number to give, the next
to pass, and the numbers that ended without commit. -/
structure ArbSource where
  nextArrival : Nat
  nextPass : Nat
  ended : List Nat
  deriving DecidableEq, Repr

structure ArbState where
  clusters : Sparse ArbCluster
  sources : Sparse ArbSource
  deriving DecidableEq, Repr

/-! ### Classification -/

/-- An ACM entry (R187, Table 7-6): value and mask words, control word. -/
structure AcmEntry where
  val : List Word
  mask : List Word
  ctrl : Word
  deriving DecidableEq, Repr

/-- A policer (R202): its settings, its buckets in units of 2⁻⁴⁴/(8 × 10⁹) byte, the TB0 value at
its last refill, and its counts of green, yellow and red packets. -/
structure Policer where
  cir : Nat
  pir : Nat
  cbs : Nat
  pbs : Nat
  mode : Nat
  tokC : Nat
  tokP : Nat
  time : Nat
  green : Nat
  yellow : Nat
  red : Nat
  deriving DecidableEq, Repr

/-- An exact-match lookup that waits for its bucket reads (R210, R211): the target table, the hash
of candidate A, the candidates, and their contents at hand-over. -/
structure EmtLookup where
  named : Nat
  table : Nat
  ha : Nat
  bucketA : Nat
  bucketB : Nat
  snapA : List Byte
  snapB : List Byte
  deriving DecidableEq, Repr

/-- A packet in classification: its hand-over, whether its search has been admitted, the ACM hit, the
lookup that waits and the exact-match hit, its flow hash, its outputs once decided, whether the original is among them,
and, once they have been handed to the promenade, how many packets of classification must have been injected for the last of them to be (R199). -/
structure ClsPacket where
  src : Nat
  arrival : Nat
  words : List Word
  data : List Byte
  key : List Byte
  profile : Nat
  hash : Nat
  searched : Bool
  acmHit : Option Nat
  lookup : Option EmtLookup
  emtHit : Option (Nat × Nat)
  outs : Option (List Packet)
  orig : Bool
  ticket : Option Nat
  deriving DecidableEq, Repr

/-- An entry command in progress (R194): operation, place, and the buffer as it stood. -/
structure AcmCmd where
  op : Nat
  bank : Nat
  entry : Nat
  buf : AcmEntry
  deriving DecidableEq, Repr

structure AcmShift where
  down : Bool
  bank : Nat
  first : Nat
  last : Nat
  deriving DecidableEq, Repr

structure AcmState where
  /-- Entries, by 2048 × bank + index. -/
  entries : Sparse AcmEntry
  /-- Action entries (R197), and the packets and bytes that selected each. -/
  actions : Sparse (List Word)
  actPkts : Sparse Nat
  actBytes : Sparse Nat
  policers : Sparse Policer
  /-- Packets handed over and not yet injected or dropped, in hand-over order. -/
  queue : List ClsPacket
  /-- Activations left in the window of 256 cycles, and whether a search has waited in it (R188). -/
  left : Nat
  waited : Bool
  /-- The base and the advance of the sweep that runs (R192). -/
  sweep : Option (Nat × Nat)
  cmd : Option AcmCmd
  shift : Option AcmShift
  deriving DecidableEq, Repr

/-! ### Exact-match tables -/

/-- A cached entry (R211). -/
structure EmtWay where
  table : Nat
  key : List Byte
  bucket : Nat
  slot : Nat
  act : Nat
  ctx : Nat
  hit : Nat
  deriving DecidableEq, Repr

/-- Work that has reached the placement engine (R213): an entry command, a learn (the table named,
its target and the key), an ageing removal (the table named and the entry's place), the bucket operations of a DMA
command that are still to come, with the number done. -/
inductive EmtOp
  | cmd (op table : Nat) (key : List Byte) (data : Word) (bucket slot : Nat)
  | learn (named table : Nat) (key : List Byte)
  | removal (named table bucket slot : Nat)
  | dma (op : Nat) (host : Bool) (addr table first count done : Nat)
  deriving DecidableEq, Repr

structure EmtState where
  /-- The flow cache: the ways of each set, most recently hit first. -/
  cache : Sparse (List EmtWay)
  /-- The engine's work in the order it reached it. -/
  engine : List EmtOp
  /-- Displacement moves still to make for the front operation, last move first, and moves made. -/
  path : Option (List (Nat × Nat × Nat))
  moves : Nat
  /-- Failed placements since the request bit was cleared (R219). -/
  fails : Sparse Nat
  /-- Place of the ageing scan: table and bucket. -/
  scanTable : Nat
  scanBucket : Nat
  deriving DecidableEq, Repr

/-! ### Site plan -/

structure SiteState where
  /-- The sections of the live plan, in the order of R38; none before the first FULL plan. -/
  live : List Section
  /-- The staging region: the container copied (R48). -/
  staged : List Byte
  /-- The plan that results from the load in progress, and its header and trailer. -/
  next : List Section
  info : Option PlanInfo
  /-- Differing elements of the load in progress: type, instance, element (R51). -/
  diff : List (Nat × Nat × Nat)
  /-- Digests retained over Night of `ANNOTATION` sections whose bodies are not (R522, R523), by instance. -/
  ann : List (Nat × List Byte)
  /-- Is the load a RESTORE_PLAN (R523)? -/
  restore : Bool
  deriving DecidableEq, Repr

/-! ### Timebases -/

/-- One timebase (R454, R457): its value in units of 2⁻⁴⁴ ns, and the slew in progress: the whole
offset in the same units, its speed, and the TCLK cycles it has run. -/
structure Timebase where
  value : Nat
  slew : Int
  ppm : Nat
  ran : Nat
  deriving DecidableEq, Repr

structure ClockState where
  /-- The counter that a hart reads as `time` (R453). -/
  mtime : Nat
  /-- Time that TB0 has run, in 2⁻⁴⁴ ns, steps left out (R472). -/
  elapsed : Nat
  /-- The target instant of the pending adjustment (R457). -/
  target : Nat
  /-- Has software not yet read the last PPS_IN capture (R467)? -/
  ppsUnread : Bool
  /-- PPS_OUT: its level, and the next edge not yet produced, as a second (R468). -/
  ppsOut : Bool
  ppsNext : Nat
  /-- The PPS_OUT settings before the last write, and the second from which the new ones apply. -/
  ppsOld : Word
  ppsFrom : Nat
  /-- The count of `mtime` at which PPS_OUT has been high for `WIDTH_US` (R468). -/
  ppsFall : Nat
  /-- Nanoseconds of the present step of 40 ns that the lodge counts in Night (R470). -/
  lodge : Nat
  deriving DecidableEq, Repr

/-! ### Ethernet and scheduling -/

/-- A frame that a MAC is storing: its priority, the bytes stored of it, and whether it has been dropped because the
buffer was full (R17, R89). -/
structure Arriving where
  prio : Nat
  bytes : Nat
  dropped : Bool
  deriving DecidableEq, Repr

structure EthState where
  /-- (Port, priority) pairs, as 8p + c, for which PFC frames repeat (R89). -/
  repeating : List Nat
  /-- Greatest ingress occupancy since the last read, in bytes (PRM_IBUF_OCC). -/
  peak : Nat
  /-- The frame that a port is storing (R17, R89). -/
  arriving : Sparse Arriving
  /-- Ports whose lanes are being measured (R461). -/
  measuring : List Nat
  /-- Pause times received, by 8p + c, in quanta of 512 bit times (R240). -/
  pause : Sparse Nat
  /-- PFC frames that wait for the end of a port's frame in transmission, oldest first: port, priority, pause
  time (R89). -/
  pfcWait : List (Nat × Nat × Nat)
  deriving DecidableEq, Repr

/-- A scheduler node (R231 to R235): its content, its credit in 2⁻³² byte with the remainder of the
refills and the instant of the last, its deficit, and its CBS credit in 2⁻³² byte with its remainder and the instant to
which it is up to date. Instants are on the clock of `ClockState.elapsed`. -/
structure SchNode where
  rate : Nat
  burst : Nat
  cfg : Word
  cbs : Word
  credit : Int
  rem : Nat
  last : Nat
  deficit : Nat
  cbsCredit : Int
  cbsRem : Nat
  cbsAt : Nat
  deriving DecidableEq, Repr

/-- A frame queued on a leaf: header, payload, length `LEN`, whether some flit was poisoned, and
whether its flits are still arriving (cut-through, R242). -/
structure EgFrame where
  words : List Word
  data : List Byte
  poison : Bool
  arriving : Bool
  deriving DecidableEq, Repr

/-- The frame in transmission: its leaf, the instant of its timestamp point in the port's timebase, when it
started on the clock of `ClockState.elapsed`, and whether its packet was aborted meanwhile. -/
structure TxFrame where
  leaf : Nat
  frame : EgFrame
  stamp : Nat
  start : Nat
  aborted : Bool
  deriving DecidableEq, Repr

/-- The operating gate list of a port (R236, R237): base and cycle in 2⁻¹⁶ ns, the start of the cycle
in force, whether states are held until a pending change, and the pending change time with its
extension. -/
structure Gcl where
  base : Nat
  cycle : Nat
  start : Nat
  held : Bool
  change : Option Nat
  ext : Nat
  deriving DecidableEq, Repr

structure SchState where
  /-- Nodes by 65536 × level + index. -/
  nodes : Sparse SchNode
  leaves : Sparse (List EgFrame)
  /-- The child that the round robin of a parent's children of one `PRIO` stands at, plus one. -/
  turn : Sparse Nat
  tx : Sparse (Option TxFrame)
  gcl : Sparse Gcl
  /-- When the GO of the pending node commit was written; and whether its refill instant has come, so that it is
  applied as time moves on (R234, R247). -/
  goAt : Nat
  due : Bool
  /-- When the grid of the refills was last anchored anew, by a step of TB0 (R232). -/
  anchor : Nat
  deriving DecidableEq, Repr

/-! ### Cipher -/

/-- A cached key slot: its record in clear (bytes 0 to 143 of Table 10-7), whether its `SEQ` or
`WINDOW` has changed since it was read (R263), and whether the request that missed it is still to look it up. -/
structure KeyWay where
  slot : Nat
  record : List Byte
  dirty : Bool
  fetched : Bool
  deriving DecidableEq, Repr

/-- A request from admission to release, or a refused command that waits its turn (R254, R255): its
queue, the pair that computes it, the operation with its parameter block, input and the bytes that
pass through, the slot and its content at admission, its number, and, once `phase` is 2, the outcome. -/
structure CphReq where
  queue : Nat
  pair : Nat
  packet : Bool
  admitted : Bool
  words : List Word
  op : Nat
  par : List Byte
  pre : List Byte
  input : List Byte
  slot : Nat
  record : List Byte
  seq : Nat
  /-- 0 first computation, 1 retry, 2 done, 3 crossing the promenade to the alternate (R268). -/
  phase : Nat
  status : Nat
  next : Nat
  output : List Byte
  /-- `LEN_MODE` COMPAT and `CPH_Q_NEXT` of its queue in the cycle of its admission (R254). -/
  compat : Bool
  nextEp : Nat
  nextQueue : Nat
  /-- The content of its slot before a key commit since its admission, with the commit's number (R264). -/
  old : Option (Nat × List Byte)
  /-- The pair and the instant at which an operator's QUARANTINE took it out of its retry (Table 10-10). -/
  retryAt : Option (Nat × Nat)
  deriving DecidableEq, Repr

structure CphState where
  reqs : List CphReq
  /-- The ways of each set of the key cache, most recently used first. -/
  cache : Sparse (List KeyWay)
  pins : Sparse Bool
  /-- `CPH_KEY_DATA0` to `15_STG`, which never read back. -/
  data : List Word
  /-- The outcome of the staged operation once performed: 0 or a fault code. -/
  done : Option Nat
  /-- Tenant wrapping keys, and the highest counters accepted since the start, by TD (R537, R538). -/
  twks : Sparse (List Byte)
  twkCtr : Sparse Nat
  blobCtr : Sparse Nat
  /-- Key commits that found requests of their slot in flight. -/
  olds : Nat
  /-- The pair and the instant of the last second mismatch that has quarantined a pair (Table 10-10). -/
  mmQuar : Option (Nat × Nat)
  deriving DecidableEq, Repr

/-! ### Host interface -/

/-- A read request to host memory that is outstanding (R413 to R415): port, tag, function, address and
length, the global queue whose fetch it serves, the bytes received, and its PASID. -/
structure HostReq where
  port : Nat
  tag : Nat
  fn : Nat
  addr : Nat
  len : Nat
  queue : Nat
  got : List Byte
  pasid : Option Nat
  deriving DecidableEq, Repr

/-- A send descriptor being fetched (R369, R372): the slots read, the frame or message bytes read, the
next segment and the bytes of it that have been read, whether all has been read, whether its destination was refused (R373), the TB0 value at
which its last byte entered the fetch buffer, and the bytes of the fetch buffer that it holds (R19). -/
structure HifFetch where
  slots : List Byte
  data : List Byte
  seg : Nat
  off : Nat
  whole : Bool
  refused : Bool
  time : Nat
  room : Nat
  deriving DecidableEq, Repr

/-- A host queue pair (Tables 14-3, 14-4): state, error code, receives dropped, its configuration
registers, its indices, its arming with the index from which entries are pending, and its fetch. -/
structure HifQueue where
  st : Nat
  err : Nat
  rxDrop : Nat
  sqBase : Word
  rqBase : Word
  cqBase : Word
  sizes : Word
  cfg : Word
  mod : Word
  sqPi : Nat
  sqCi : Nat
  rqPi : Nat
  rqCi : Nat
  cqPi : Nat
  cqCi : Nat
  armed : Bool
  armAt : Nat
  fetch : Option HifFetch
  /-- The instant at which the queue entered ERROR: of two causes at one instant the lower is kept (R383). -/
  errAt : Option Nat
  deriving DecidableEq, Repr

/-- `HIF_FN_ERR` and `HIF_FN_ERR_COUNT` of a function. -/
structure HifFnErr where
  valid : Bool
  code : Nat
  queue : Nat
  count : Nat
  deriving DecidableEq, Repr

/-- A `TS_REQ` descriptor that waits for its transmit timestamp (R374, R464): engine, tag, global
queue, first slot and cookie. -/
structure TsWait where
  engine : Nat
  tag : Nat
  queue : Nat
  index : Nat
  cookie : Word
  /-- 3 where the descriptor's offloads could not be applied (R371), else 0. -/
  status : Nat
  deriving DecidableEq, Repr

structure HifState where
  queues : Sparse HifQueue
  fnErr : Sparse HifFnErr
  waits : List TsWait
  /-- Doorbells that arrived in Hold: queue, which (0 send, 1 receive, 2 completion), value (R387). -/
  held : List (Nat × Nat × Word)
  /-- Per engine, the queue from which its next turn of the round robin starts (R372). -/
  turn : Sparse Nat
  deriving DecidableEq, Repr

/-! ### RDMA transport -/

/-- A scatter or gather element (R288): key, length, address. -/
structure TeSge where
  key : Nat
  len : Nat
  addr : Nat
  deriving DecidableEq, Repr

/-- A receive taken from a ring (R289): its index and work request, its elements, and for tag matching
whether it is a tagged one, with the tag, application value and sender's opcode of the message. -/
structure TeRecv where
  index : Nat
  wrId : Word
  sges : List TeSge
  tagged : Bool
  tag : Nat
  app : Nat
  op : Nat
  deriving DecidableEq, Repr

/-- A started work request (R288, R299): its number among those started, ring index and slots (none for a READ of tag matching), opcode,
flags, first PSN and count, bytes, its elements, remote range, response bytes received, the
status once it is decided, and the receive of a rendezvous with its SRQ. -/
structure TeTx where
  id : Nat
  index : Nat
  slots : Nat
  op : Nat
  flags : Nat
  wrId : Word
  psn : Nat
  n : Nat
  len : Nat
  /-- Packets sent, of the `n` of the message. -/
  sent : Nat
  sges : List TeSge
  va : Nat
  rkey : Nat
  imm : Nat
  msn : Nat
  got : Nat
  status : Option Nat
  rdv : Option (Nat × TeRecv)
  deriving DecidableEq, Repr

/-- A packet sent and not acknowledged: PSN, opcode, the headers after the BTH, payload, AckReq and
solicited bits, and the path last used. -/
structure TePkt where
  psn : Nat
  op : Nat
  ext : List Byte
  data : List Byte
  ack : Bool
  se : Bool
  path : Nat
  /-- The started request it belongs to; none for a response. -/
  owner : Option Nat
  deriving DecidableEq, Repr

/-- A message being received (R298, R303): its number, sender's opcode, flags of Table 11-11, immediate data
or key, bytes it must have, packets it must have and has, bytes, its receive and the entry of the
unexpected list, remote range, payloads that wait for a receive, bytes of header not placed, status, GRH
and source of a datagram. -/
structure TeRx where
  msn : Nat
  op : Nat
  flags : Nat
  imm : Nat
  need : Nat
  pkts : Nat
  got : Nat
  bytes : Nat
  recv : Option TeRecv
  unexp : Option Nat
  quiet : Bool
  va : Nat
  rkey : Nat
  /-- Offset, PSN and bytes of each payload. -/
  held : List (Nat × Nat × List Byte)
  skip : Nat
  status : Nat
  grh : List Byte
  src : Nat
  /-- The SRQ its receive comes from. -/
  srq : Option Nat
  /-- The number of its first packet among the arrivals of the unit (R297), and what the host answers at its latest. -/
  born : Nat
  host : TeHost
  deriving DecidableEq, Repr

/-- A READ being answered on a multipath QP: message, remote address, key, length, bytes sent. -/
structure TeResp where
  msn : Nat
  va : Nat
  rkey : Nat
  len : Nat
  sent : Nat
  deriving DecidableEq, Repr

/-- Engine state of a QP beside its context in memory (words 18 to 31 of Table 11-4, and the multipath
block): the next send slot to start, started requests, packets to be acknowledged, an RNR wait, messages in
reception, whether the NAK of a gap has been sent, replay records, the next message number and the next number of a started request, PSNs received
above `EPSN`, packets since the last acknowledgement, the last CNP sent, alpha, stage and bytes of the
rate control, paths under back-off with their end, headers of packets at the cipher pair, READs being
answered, a LOCAL_INV that holds the send queue, and events already sent. -/
structure TeQp where
  sqStart : Nat
  tx : List TeTx
  pkts : List TePkt
  rnr : Bool
  rx : List TeRx
  nak : Bool
  replay : List (Nat × List Byte)
  txMsn : Nat
  nextId : Nat
  seen : List Nat
  unacked : Nat
  cnpAt : Option Nat
  alpha : Nat
  stage : Nat
  bytes : Nat
  off : List (Nat × Nat)
  esp : List (List Byte)
  resp : List TeResp
  holding : Bool
  drained : Bool
  est : Bool
  /-- ORDERED messages wholly placed, whose completion waits for an invalidation before them (R284, R291). -/
  late : List TeRx
  deriving DecidableEq, Repr

/-- An arrival on the unexpected list (R296): its number, QP, tag, application value, the plain receive that
holds an eager message, whether it is whole and how long, and the descriptor of a rendezvous. -/
structure TeUnexp where
  id : Nat
  qp : Nat
  tag : Nat
  app : Nat
  recv : Option TeRecv
  whole : Bool
  len : Nat
  va : Nat
  rkey : Nat
  /-- The sender's opcode, and the tagged receive matched to it before it was whole. -/
  op : Nat
  claim : Option TeRecv
  deriving DecidableEq, Repr

/-- An SRQ beside its context: function, producer index, next slot to take, plain receives taken aside, the posted list
with masks, the unexpected list, and the next number of that list. -/
structure TeSrq where
  fn : Nat
  pi : Nat
  ci : Nat
  plain : List TeRecv
  posted : List (TeRecv × Nat)
  unexp : List TeUnexp
  nextId : Nat
  deriving DecidableEq, Repr

/-- A CQ beside its context: function, indices, error, completions since the last interrupt, and when the first of
them was written. -/
structure TeCq where
  fn : Nat
  pi : Nat
  ci : Nat
  err : Bool
  pend : Nat
  since : Nat
  deriving DecidableEq, Repr

/-- A post to a control page that waits its turn (R286): a doorbell, with what the host returns for the receives
then taken, or a producer index of the control ring. -/
inductive TePost
  | bell (v : Word) (h : TeHost)
  | index (pi : Nat)
  deriving DecidableEq, Repr

/-- The control page of a function (Table 11-7), and the posts that wait their turn. -/
structure TeFn where
  base : Word
  cfg : Word
  pi : Nat
  ci : Nat
  eventCq : Word
  busy : Bool
  waiting : List TePost
  deriving DecidableEq, Repr

/-- An invalidation that has started (R284): region index, and the QP whose LOCAL_INV it is, or the function
whose control entry. -/
structure TeInv where
  index : Nat
  qp : Option Nat
  fn : Nat
  deriving DecidableEq, Repr

/-- What an event of a transport engine concerns (R315): a QP, a connection, an SRQ, a CQ, or a function by its control
ring. -/
inductive UcObj
  | qp (c : Nat)
  | conn (c : Nat)
  | srq (j : Nat)
  | cq (j : Nat)
  | fn (f : Nat)
  deriving DecidableEq, Repr

/-- An event context of a sequencer (R315): the opcode byte of its event, the object concerned, the address
of the next word, the call stack with the last address first, the words issued, and whether its fetch waits for a repair
of patch RAM (R330). -/
structure UcCtx where
  opcode : Nat
  object : UcObj
  pc : Nat
  stack : List Nat
  issued : Nat
  repair : Bool
  deriving DecidableEq, Repr

structure TeState where
  qps : Sparse TeQp
  /-- Contexts, SRQs and CQs that exist, and multipath blocks in use, by index. -/
  used : Sparse Bool
  srqs : Sparse TeSrq
  srqUsed : Sparse Bool
  cqs : Sparse TeCq
  cqUsed : Sparse Bool
  mpUsed : Sparse Bool
  fns : Sparse TeFn
  invs : List TeInv
  /-- Region indices freed, longest ago first, and indices reserved as windows. -/
  freed : List Nat
  windows : Sparse Bool
  /-- CQs that could not take an entry and whose error is still to be handled. -/
  failing : List Nat
  /-- Live congestion profiles: rate, timer and bytes words (R309). -/
  profiles : Sparse (Word × Word × Word)
  /-- Asynchronous events lost, and bytes in each engine's reorder store. -/
  lost : Nat
  store : Sparse Nat
  /-- Multipath messages begun so far, by which their first packets are ordered (R297). -/
  arrivals : Nat
  /-- The patch in force (R320, R322): words, match records, dispatch records, as loaded; and the source of the load in
  progress: whether it is host memory, its address and its length. -/
  patch : List Byte
  ucHost : Bool
  ucSrc : Nat × Nat
  /-- The bits in which an engine's stored control-store word differs from the code word written there, by 16384 times the
  engine plus the address (R316, R330). -/
  upsets : Sparse Nat
  /-- The event contexts in use of each engine, oldest first (R315). -/
  seqs : Sparse (List UcCtx)
  deriving DecidableEq, Repr

/-! ### Storage -/

/-- A namespace mapping: the words of `NVE_NS_TGT_STG`, `_BASE`, `_SIZE`, `_CFG` (R340). -/
structure NveNs where
  tgt : Word
  base : Word
  size : Word
  cfg : Word
  deriving DecidableEq, Repr

/-- A submission queue; queue 0 is the admin queue. -/
structure NveSq where
  qid : Nat
  base : Nat
  size : Nat
  cq : Nat
  head : Nat
  tail : Nat
  deriving DecidableEq, Repr

structure NveCq where
  qid : Nat
  base : Nat
  size : Nat
  vec : Nat
  ien : Bool
  phase : Bool
  head : Nat
  tail : Nat
  deriving DecidableEq, Repr

/-- A command from admission to completion (R339): its controller, queue and identifier, the mapping and
whether the mode was PROVISIONAL at admission, its phase (0 admitted, 1 encrypting, 2 waiting for earlier
work, 3 at the target, 4 decrypting), its data, the host ranges of its PRPs, the status decided, and whether
anything of it has been sent to the target. -/
structure NveCmd where
  id : Nat
  fn : Nat
  sq : Nat
  cid : Nat
  op : Nat
  sqe : List Byte
  ns : NveNs
  prov : Bool
  phase : Nat
  data : List Byte
  prps : List (Nat × Nat)
  status : Nat
  sent : Bool
  deriving DecidableEq, Repr

/-- A command toward the target: of a host command, or of a drain or a shutdown (no owner). `cid` is its
identifier on the connection once it is sent; `blocks` names the buffered blocks that a drain sends, by LBA
and version; `off` is where its data lies in the owner's. -/
structure NveJob where
  id : Nat
  owner : Option Nat
  fn : Nat
  nsid : Nat
  conn : Nat
  op : Nat
  remote : Nat
  cdw : List Byte
  data : List Byte
  len : Nat
  off : Nat
  cid : Option Nat
  got : Nat
  dead : Bool
  blocks : List (Nat × Nat)
  deriving DecidableEq, Repr

/-- A cipher command outstanding (R357): its `CTX`, the command, the place and length of its text, and the
function and connection of the command. -/
structure NveCiph where
  ctx : Nat
  cmd : Nat
  off : Nat
  len : Nat
  fn : Nat
  conn : Nat
  deriving DecidableEq, Repr

/-- A buffered block (R352): namespace, LBA, version (the Write that stored it) and the Write that buffered it
first, address, size, time it was stored, whether it is ciphertext, whether a drain wants it, and the job that
drains it. -/
structure NveBlock where
  ns : Nat
  lba : Nat
  ver : Nat
  first : Nat
  addr : Nat
  size : Nat
  since : Nat
  xts : Bool
  want : Bool
  job : Option Nat
  deriving DecidableEq, Repr

/-- A controller: registers of R336, queues, features by identifier, the counts granted, requests for
asynchronous events, events waiting and event types masked until their log page is read, the Changed
Namespace List, the error log, the queue last served in the turn, write mode, buffer, whether the high-water
drain runs, whether every block drains, bytes lost and drains completed, the stage of a shutdown or of Night
(1 draining, 2 flushing, 3 done), whether the host asked for the shutdown, whether a disable waits, completions that wait for room in their CQ (queue, and entry), and
counters: bytes read, bytes written, read commands, error log entries, errors in buffered data, write commands. -/
structure NveCtl where
  cc : Nat
  csts : Nat
  intm : Nat
  aqa : Nat
  asq : Nat
  acq : Nat
  sqs : List NveSq
  cqs : List NveCq
  feats : Sparse Nat
  nsq : Option Nat
  ncq : Option Nat
  aers : List Nat
  events : List (Nat × Nat × Nat)
  masked : List Nat
  changed : List Nat
  errLog : List (List Byte)
  turn : Nat
  mode : Nat
  blocks : List NveBlock
  hi : Bool
  drainAll : Bool
  lost : Nat
  drains : Nat
  shut : Nat
  shn : Bool
  dis : Bool
  held : List (Nat × Nat × Nat × Nat × Nat × Nat)
  stats : List Nat
  deriving DecidableEq, Repr

/-- A segment sent and not acknowledged. -/
structure NveSeg where
  seq : Nat
  data : List Byte
  tries : Nat
  sacked : Bool
  deriving DecidableEq, Repr

/-- An offloaded connection (Table 13-4) with its TCP state (R344): the live image; whether it waits to come
up; oldest unacknowledged number; bytes to send; segments in flight; congestion window, threshold, duplicate
acknowledgements, recovery point; bytes received in order, and out of order; the peer's last timestamp; ECN:
echo, reduction to announce, and the number up to which one reduction counts; the peer's FIN, and whether the
PDUs before it are still to be taken; the target's SQ head; the segment and acknowledgement that last set the
peer's window (RFC 9293); and the pieces of the stream that carry PROVISIONAL data (R352). -/
structure NveConn where
  img : List Word
  inst : Bool
  una : Nat
  buf : List Byte
  segs : List NveSeg
  cwnd : Nat
  ssthresh : Nat
  dup : Nat
  recover : Option Nat
  rcv : List Byte
  ooo : List (Nat × List Byte)
  tsRecent : Option Nat
  echo : Bool
  cwr : Bool
  ecnEnd : Option Nat
  finAt : Option Nat
  peerFin : Bool
  finDue : Bool
  sqHead : Nat
  wl1 : Nat
  wl2 : Nat
  prov : List (Nat × Nat)
  deriving DecidableEq, Repr

structure NveState where
  /-- Live mappings, by 64 × function + NSID. -/
  ns : Sparse NveNs
  ctls : Sparse NveCtl
  conns : Sparse NveConn
  cmds : List NveCmd
  jobs : List NveJob
  ciphs : List NveCiph
  nextId : Nat
  deriving DecidableEq, Repr

/-- A cached ATS translation (R412): function, PASID, start and size of the untranslated range, the translated
address, and whether it may be read and written. -/
structure AtsEntry where
  fn : Nat
  pasid : Option Nat
  base : Nat
  log2 : Nat
  addr : Nat
  r : Bool
  w : Bool
  deriving DecidableEq, Repr

/-- An entry of the IOTLB (R445): the `iohgatp`, first-stage root and PSCID it belongs to, an address with its guest
physical and output addresses, the sizes of the pages of both stages (64: the stage is Bare), and whether it may be read
and written and is global. -/
structure IotlbEntry where
  gatp : Nat
  fsc : Nat
  pscid : Nat
  va : Nat
  gpa : Nat
  out : Nat
  vLog2 : Nat
  gLog2 : Nat
  r : Bool
  w : Bool
  glob : Bool
  deriving DecidableEq, Repr

structure PcieState where
  /-- Configuration space: the 32-bit register at byte 4 `d` of function `f`, by 1024 `f` + `d`. -/
  cfg : Sparse Nat
  /-- MSI-X tables: address, then data and vector control, by 4096 `f` + 2 × entry + half. -/
  msix : Sparse Word
  /-- Pending bits, by 2048 `f` + entry. -/
  pba : Sparse Bool
  reqs : List HostReq
  /-- Tags in quarantine, with their port. -/
  quarantine : List (Nat × Nat)
  /-- TDI states: 0 CONFIG_UNLOCKED, 1 CONFIG_LOCKED, 2 RUN, 3 ERROR (R421, R422). -/
  tdi : Sparse Nat
  /-- IDE streams, by 16 × link + stream (link 4 × port + link, stream 0 the link stream, 1 to 8
  selective): 0 Insecure, 1 Secure; and their keys. -/
  ide : Sparse Nat
  ideKeys : Sparse (List Byte)
  /-- The expansion ROM image that the boot image supplies (R401). -/
  rom : List Byte
  /-- Links in L1 (R418), by 4 × port + link: 1 L1, 2 L1.1, 3 L1.2; and the latency of the last LTR message, in ns. -/
  l1 : Sparse Nat
  ltr : Sparse Nat
  /-- Links whose host has Device Readiness Status enabled (R405). -/
  drs : List Nat
  /-- The negotiated width of a link as a power of two, by 4 × port + link (R419). -/
  linkMax : Sparse Nat
  /-- The selective IDE stream that LOCK_INTERFACE bound to a TDI, plus one; 0 none. -/
  tdiStream : Sparse Nat
  /-- The nonce that LOCK_INTERFACE returned, and the MMIO reporting offset it gave (R421). -/
  tdiNonce : Sparse (List Byte)
  tdiOffset : Sparse Nat
  /-- PFs whose boot window is open (R406, R516), with the fields of Table 19-7: `BW_LEN` by port,
  `BW_RESULT` and `BW_ATTEMPTS`. -/
  bwLen : Sparse Nat
  bwResult : Nat
  bwAttempts : Nat
  /-- The ATS caches of both ports (R412). -/
  ats : List AtsEntry
  /-- The IOTLB, at most 16,384 entries (R445). -/
  iotlb : List IotlbEntry
  /-- TLPs that arrived in Hold, and requests that units handed over in Hold, with their function; oldest first (R425). -/
  held : List Tlp
  toSend : List (Nat × Output)
  deriving DecidableEq, Repr

/-! ### Power, boot, security and pins -/

/-- An interrupt file of an IMSIC (R441): `eidelivery`, `eithreshold`, and the identities pending and enabled. -/
structure ImsicFile where
  delivery : Bool
  threshold : Nat
  eip : BitVec 256
  eie : BitVec 256
  deriving DecidableEq, Repr

/-- A domain of the APLIC (R441): `domaincfg.IE`, `sourcecfg` and `target` by source, and the sources pending and
enabled. -/
structure AplicDomain where
  ie : Bool
  sources : Sparse Nat
  targets : Sparse Nat
  ip : BitVec 1024
  en : BitVec 1024
  deriving DecidableEq, Repr

/-- The APLIC's domains, 0 M and 1 S, and MSIs on their way to interrupt files: hart, file, identity. -/
structure AiaState where
  domains : Sparse AplicDomain
  msis : List (Nat × Nat × Nat)
  deriving DecidableEq, Repr

/-- A line of the hart caches (R429, R435): whether it is dirty or poisoned, and its own copy of the 64 bytes where its
partition is not coherent; a coherent line holds what memory holds. -/
structure CacheLine where
  dirty : Bool
  poison : Bool
  own : Option (List Byte)
  deriving DecidableEq, Repr

/-- A hart as the start, the power rules and a debugger set it (R428, R482, R506, R507): where it starts, its two arguments,
whether it waits in WFI, its 64 PMP entries from entry 0 on (configuration byte, address register), of which those
beyond the list are off, the registers that a debugger has seen or written since the halt (x by number, f by 32 + number),
the CSRs that do not hold their reset value, and its interrupt files (0 S-level, 1 to 7 guest, 8 M-level). -/
structure Hart where
  pc : Nat
  a0 : Nat
  a1 : Nat
  wfi : Bool
  pmp : List (Nat × Nat)
  xs : Sparse Word
  csrs : Sparse Word
  files : Sparse ImsicFile
  deriving DecidableEq, Repr

/-- A change of operating point in progress (R495): domain, points still to reach (mV, MHz), points left,
newest first, and whether it runs back after a failed step. -/
structure PwrQual where
  dom : Nat
  todo : List (Nat × Nat)
  done : List (Nat × Nat)
  back : Bool
  deriving DecidableEq, Repr

/-- A sundial sensor as last sampled (R494). -/
structure Sensor where
  margin : Int
  shift : Int
  temp : Nat
  excluded : Bool
  deriving DecidableEq, Repr

structure PwrState where
  /-- When each AVS domain entered Hold, on the clock of `ClockState.elapsed`; and the domains whose rail
  has stayed above recovery for 2 µs (R488). -/
  holdAt : Sparse Nat
  dwelt : List Nat
  qual : Option PwrQual
  /-- Night entry in progress: 0 none, 2 step 2, 4 step 4; and whether a wake event came meanwhile (R499). -/
  night : Nat
  wake : Bool
  /-- Thermal trip in force (R493); the last reading was above `WARN_C`. -/
  trip : Bool
  hot : Bool
  sensors : Sparse Sensor
  /-- Hour of the last re-plan since power-on, and whether the due and the overdue condition of the next one
  have been recorded (R497). -/
  doneAt : Option Nat
  due : Bool
  overdue : Bool
  /-- Does the start that follows the rise of LODGE_PG still wait for `SYS_RST_N` (R569)? -/
  powerOn : Bool
  deriving DecidableEq, Repr

/-- What BOOT retains over Night in the boot secret page (R522). -/
structure BootWarm where
  digest : List Byte
  len : Nat
  meas : List Byte
  source : Nat
  seq : Nat
  imgArb : Nat
  siteSeq : Nat
  siteArb : Nat
  siteDigest : List Byte
  ann : List (Nat × List Byte)
  deriving DecidableEq, Repr

structure BootState where
  /-- The board flash; erased bytes are 0xFF. -/
  flash : Sparse Byte
  /-- Slots excluded since the start (R521): 0 A, 1 B. -/
  excluded : List Nat
  /-- Candidates still to try, the slot being tried, and whether its image has been copied (R514). -/
  todo : List Nat
  slot : Option Nat
  copied : Bool
  /-- The length given for a host push whose verification runs (R517). -/
  pushing : Option Nat
  /-- Is an image in force (R521)? -/
  inForce : Bool
  /-- `IMG_VER` of the image in force (Table 19-3), which attestation reports (Table 20-2). -/
  imgVer : Nat
  warm : Option BootWarm
  /-- The slot of a VERIFY_SLOT in progress (R515). -/
  verify : Option Nat
  /-- A flash command in progress: operation, address, length, buffer (R527). -/
  xspi : Option (Nat × Nat × Nat × Nat)
  /-- Does the start wait for the random bit generator (R530)? -/
  rbgWait : Bool
  deriving DecidableEq, Repr

/-- The SPDM connection of a PF (R535): how far its negotiation has come (0 none, 1 version, 2 capabilities,
3 algorithms), the messages that negotiated it, those about certificates, the messages of the measurement
transcript, and the transcript of its last signed MEASUREMENTS response. -/
structure SpdmConn where
  stage : Nat
  vca : List Byte
  certs : List Byte
  log : List Byte
  signed : List Byte
  deriving DecidableEq, Repr

/-- A secured session (R535): PF, identifier, whether FINISH has completed it, generations of the
requester's and the responder's keys, its measurement transcript and the last signed one. -/
structure SpdmSession where
  pf : Nat
  id : Nat
  open' : Bool
  reqGen : Nat
  rspGen : Nat
  log : List Byte
  signed : List Byte
  deriving DecidableEq, Repr

structure WktState where
  /-- Is the challenge valid (R541)? -/
  chal : Bool
  /-- The token under check, with the challenge that was valid at its submission. -/
  token : Option (List Byte × Option (List Byte))
  /-- Entries programmed of each floor (R532): 0 SITE, 1 BOOT, 2 UCODE. -/
  floors : Sparse (List Nat)
  /-- Banks revoked, by 4 × kind + bank (R541). -/
  revoked : Sparse Bool
  /-- An unlock that passed: 0 none, 1 waits for a site load, 2 erasing (R542). -/
  unlock : Nat
  /-- Have the private keys of Table 20-1 been erased (Table 20-7, step 5)? -/
  erased : Bool
  /-- Random alias and open attestation keys of Open (R544), as the draws that made them. -/
  aliasKeys : Option Word
  openKeys : Option Word
  /-- The WKT lock bit (R534). -/
  lock : Bool
  conns : Sparse SpdmConn
  sessions : List SpdmSession
  /-- TAP: the instruction in force, the boundary register, and Debug Module registers (R543). -/
  tapIr : Nat
  boundary : List Byte
  dm : Sparse Nat
  deriving DecidableEq, Repr

/-- Pins: levels of the inputs that act, straps as the board drives them, and `THERMTRIP_N`. -/
structure Pins where
  lodgePg : Bool
  sysRst : Bool
  perst0 : Bool
  perst1 : Bool
  bif0 : Nat
  bif1 : Nat
  bootSrc : Nat
  thermtrip : Bool
  deriving DecidableEq, Repr

/-! ### Tiles -/

/-- A tile: its sky state (0 Clear, 1 Haze, 2 Overcast, 3 Night; Table 18-1), whether it is waking,
whether it is in Hold, and its wakes (PWR_TILE_STATE). -/
structure Tile where
  sky : Nat
  waking : Bool
  hold : Bool
  wakes : Nat
  /-- Retired under R556, and the errors recorded since the start (FLT_TILE_INFO). -/
  retired : Bool
  ue : Nat
  ce : Nat
  /-- Times of the uncorrectable errors, on the clock of `ClockState.elapsed`. -/
  times : List Nat
  deriving DecidableEq, Repr

/-! ### The whole machine -/

structure State where
  /-- Registers, by control-space offset; unlisted: the reset value. -/
  regs : Sparse Word
  /-- Device memory, by device physical address; unlisted: zero. -/
  mem : List Host.Cell
  /-- Bytes marked poisoned (R438), by address. -/
  poison : Sparse Bool
  /-- Marked granules of 64 KiB (R440): disjoint runs, rising, as first granule and number. -/
  zeroMap : List (Nat × Nat)
  /-- Capacity of the four DDR channels in units of 64 MiB; 0 out of service (R437). -/
  ddr : List Nat
  /-- Corrected errors of each channel since reset, the times of those within the hour, and the time after
  which the next excess is reported (R438, R439). -/
  chCe : Sparse Nat
  chTimes : Sparse (List Nat)
  chTold : Sparse Nat
  tiles : Sparse Tile
  prm : PrmState
  pav : PavState
  /-- Frames in the ingress buffer and in the host engines' fetch buffers (R17, R19). -/
  frames : List SrcFrame
  arb : ArbState
  /-- Packets the commit sequencers have passed and classification has not taken, by source order. -/
  passed : List Committed
  acm : AcmState
  emt : EmtState
  site : SiteState
  tb : Sparse Timebase
  clk : ClockState
  eth : EthState
  sch : SchState
  cph : CphState
  te : TeState
  nve : NveState
  hif : HifState
  pcie : PcieState
  harts : Sparse Hart
  aia : AiaState
  /-- The hart caches, by address ÷ 64: the lines that are dirty, poisoned or hold a copy of their own. -/
  cache : Sparse CacheLine
  pwr : PwrState
  boot : BootState
  wkt : WktState
  pins : Pins
  /-- Commands declared lost whose completion may still arrive: issuing endpoint and `CTX` (R553). -/
  lost : List (Nat × Nat)
  /-- What the block has sent, oldest first. -/
  out : List Output
  /-- How many free values have been taken (Config.freeValue). -/
  free : Nat
  /-- Commands waiting, first in first out. -/
  pending : List Instr
  deriving DecidableEq, Repr

/-- The machine right after reset, at the rise of LODGE_PG (R503, R505, R569 step 2): phase LODGE, every
register at its reset value (`PWR_DOM_STATUS` of TERR with its fused hart frequency), `SYS_RST_N` and both `PERST_Hx_N` still low, no memory listed, the lodge's
counters at zero, no command waiting. -/
def State.reset : State :=
  { regs := [(0x1000200, BitVec.ofNat 64 (3000 * 2 ^ 42 + 750 * 2 ^ 32 + 705 * 2 ^ 16 + 750))], mem := [], poison := [], zeroMap := [], ddr := [0, 0, 0, 0],
    chCe := [], chTimes := [], chTold := [], tiles := [],
    prm := { out := [], inj := [], bufs := [], credits := [], owner := [], flights := [], nextPkt := 0, rx := [],
             inbox := [], blocked := [], linkFlits := [], arb := [], wait := [], sent := [] },
    pav := { groups := [], engines := [], txCredits := [], rxCredits := [], hbm := [], fabric := [], failed := [] },
    frames := [],
    arb := { clusters := [], sources := [] },
    passed := [],
    acm := { entries := [], actions := [], actPkts := [], actBytes := [], policers := [], queue := [], left := 65536,
             waited := false, sweep := none, cmd := none, shift := none },
    emt := { cache := [], engine := [], path := none, moves := 0, fails := [], scanTable := 0, scanBucket := 0 },
    site := { live := [], staged := [], next := [], info := none, diff := [], ann := [], restore := false },
    tb := [],
    clk := { mtime := 0, elapsed := 0, target := 0, ppsUnread := false, ppsOut := false, ppsNext := 0, ppsOld := 0,
             ppsFrom := 0, ppsFall := 0, lodge := 0 },
    eth := { repeating := [], peak := 0, arriving := [], measuring := [], pause := [], pfcWait := [] },
    sch := { nodes := [], leaves := [], turn := [], tx := [], gcl := [], goAt := 0, due := false, anchor := 0 },
    cph := { reqs := [], cache := [], pins := [], data := List.replicate 16 0, done := none, twks := [], twkCtr := [],
             blobCtr := [], olds := 0, mmQuar := none },
    te := { qps := [], used := [], srqs := [], srqUsed := [], cqs := [], cqUsed := [], mpUsed := [], fns := [],
            invs := [], freed := [], windows := [], failing := [], profiles := [], lost := 0, store := [], arrivals := 0, patch := [],
            ucHost := false, ucSrc := (0, 0), upsets := [], seqs := [] },
    nve := { ns := [], ctls := [], conns := [], cmds := [], jobs := [], ciphs := [], nextId := 0 },
    hif := { queues := [], fnErr := [], waits := [], held := [], turn := [] },
    pcie := { cfg := [], msix := [], pba := [], reqs := [], quarantine := [], tdi := [], ide := [], ideKeys := [],
              rom := [], l1 := [], ltr := [], drs := [], linkMax := [], tdiStream := [], tdiNonce := [], tdiOffset := [],
              bwLen := [], bwResult := 0, bwAttempts := 0, ats := [], iotlb := [], held := [], toSend := [] },
    harts := [],
    aia := { domains := [], msis := [] }, cache := [],
    pwr := { holdAt := [], dwelt := [], qual := none, night := 0, wake := false, trip := false, hot := false,
             sensors := [], doneAt := none, due := false, overdue := false, powerOn := true },
    boot := { flash := [], excluded := [], todo := [], slot := none, copied := false, pushing := none,
              inForce := false, imgVer := 0, warm := none, verify := none, xspi := none, rbgWait := false },
    wkt := { chal := false, token := none, floors := [], revoked := [], unlock := 0, erased := false,
             aliasKeys := none, openKeys := none, lock := false, conns := [], sessions := [], tapIr := 1, boundary := [],
             dm := [] },
    pins := { lodgePg := true, sysRst := false, perst0 := false, perst1 := false, bif0 := 0, bif1 := 0, bootSrc := 0,
              thermtrip := false },
    lost := [], out := [], free := 0, pending := [] }

end Sys2Proof.Machine
end

