-- ==== Sys2Proof/Machine/With.lean ====
section
/-! DEFINITION. The state with one of its parts replaced: every change that a command makes goes through one of
these. -/

namespace Sys2Proof.Machine

def State.withRegs (s : State) (x : Sparse Word) : State := { s with regs := x }
def State.withMem (s : State) (x : List Host.Cell) : State := { s with mem := x }
def State.withPoison (s : State) (x : Sparse Bool) : State := { s with poison := x }
def State.withZeroMap (s : State) (x : List (Nat × Nat)) : State := { s with zeroMap := x }
def State.withDdr (s : State) (x : List Nat) : State := { s with ddr := x }
def State.withChCe (s : State) (x : Sparse Nat) : State := { s with chCe := x }
def State.withChTimes (s : State) (x : Sparse (List Nat)) : State := { s with chTimes := x }
def State.withChTold (s : State) (x : Sparse Nat) : State := { s with chTold := x }
def State.withTiles (s : State) (x : Sparse Tile) : State := { s with tiles := x }
def State.withPrm (s : State) (x : PrmState) : State := { s with prm := x }
def State.withPav (s : State) (x : PavState) : State := { s with pav := x }
def State.withFrames (s : State) (x : List SrcFrame) : State := { s with frames := x }
def State.withArb (s : State) (x : ArbState) : State := { s with arb := x }
def State.withPassed (s : State) (x : List Committed) : State := { s with passed := x }
def State.withAcm (s : State) (x : AcmState) : State := { s with acm := x }
def State.withEmt (s : State) (x : EmtState) : State := { s with emt := x }
def State.withSite (s : State) (x : SiteState) : State := { s with site := x }
def State.withTb (s : State) (x : Sparse Timebase) : State := { s with tb := x }
def State.withClk (s : State) (x : ClockState) : State := { s with clk := x }
def State.withEth (s : State) (x : EthState) : State := { s with eth := x }
def State.withSch (s : State) (x : SchState) : State := { s with sch := x }
def State.withCph (s : State) (x : CphState) : State := { s with cph := x }
def State.withTe (s : State) (x : TeState) : State := { s with te := x }
def State.withNve (s : State) (x : NveState) : State := { s with nve := x }
def State.withHif (s : State) (x : HifState) : State := { s with hif := x }
def State.withPcie (s : State) (x : PcieState) : State := { s with pcie := x }
def State.withHarts (s : State) (x : Sparse Hart) : State := { s with harts := x }
def State.withAia (s : State) (x : AiaState) : State := { s with aia := x }
def State.withCache (s : State) (x : Sparse CacheLine) : State := { s with cache := x }
def State.withPwr (s : State) (x : PwrState) : State := { s with pwr := x }
def State.withBoot (s : State) (x : BootState) : State := { s with boot := x }
def State.withWkt (s : State) (x : WktState) : State := { s with wkt := x }
def State.withPins (s : State) (x : Pins) : State := { s with pins := x }
def State.withLost (s : State) (x : List (Nat × Nat)) : State := { s with lost := x }
def State.withOut (s : State) (x : List Output) : State := { s with out := x }
def State.withFree (s : State) (x : Nat) : State := { s with free := x }
def State.withPending (s : State) (x : List Instr) : State := { s with pending := x }

end Sys2Proof.Machine
end

