-- ==== Sys2Proof/Machine/Ops.lean ====
section
/-! DEFINITION. The named operations over registers, memory, outputs and the error registers that
every unit's commands share. -/

namespace Sys2Proof.Machine

/-- What a command answers: always a next state. -/
abbrev Res := Host.Outcome State Fault Refusal

/-! ### Registers -/

/-- The reset value of the register at a control-space offset; zero where no map defines one (R10). -/
def regReset (o : Nat) : Word :=
  match findReg (unitRegs (o / 0x1000000)) (o % 0x1000000) with
  | some (r, i, j) => specReset r i j
  | none => 0

def State.rd (s : State) (o : Nat) : Word := spGet regReset s.regs o
def State.wr (s : State) (o : Nat) (w : Word) : State := s.withRegs (spSet regReset s.regs o w)
def State.get (s : State) (f : Fld) : Nat := bitsAt (s.rd f.off) f.hi f.lo
def State.set (s : State) (f : Fld) (v : Nat) : State := s.wr f.off (setBits (s.rd f.off) f.hi f.lo v)

/-- Several fields set in turn. -/
def State.sets (s : State) (l : List (Fld × Nat)) : State := l.foldl (fun s x => s.set x.1 x.2) s

/-- A counter of 32 bits plus one, stopping at its top. -/
def State.count (s : State) (f : Fld) : State := s.set f (satInc 0xFFFFFFFF (s.get f))

/-- A counter of 32 bits plus `n`, stopping at its top. -/
def State.countBy (s : State) (f : Fld) (n : Nat) : State :=
  if n = 0 then s else s.set f (min 0xFFFFFFFF (s.get f + n))

/-- A counter that wraps at the width of its field, plus `n`. -/
def State.wrapBy (s : State) (f : Fld) (n : Nat) : State := s.set f (s.get f + n)

/-! ### Outputs and free values -/

def State.emit (s : State) (o : Output) : State := s.withOut (s.out ++ [o])
def State.emits (s : State) (l : List Output) : State := s.withOut (s.out ++ l)

/-- A value the spec leaves open: the next free value, and the state with it taken. -/
def State.takeFree (s : State) : Word × State := (Config.freeValue s.free, (s.withFree (s.free + 1)))

/-! ### Device memory -/

/-- What a byte nothing has written reads as: zero, the marked state of memory after a boot (R449). -/
def memDefault (_ : Nat) : Byte := 0

def State.byte (s : State) (a : Nat) : Byte := spGet memDefault s.mem a

/-- One byte written: good data, so a poison mark is cleared and the granule is no longer marked
(R438, R440). -/
def State.putByte (s : State) (a : Nat) (b : Byte) : State :=
  ((s.withMem (spSet memDefault s.mem a b)).withPoison (spErase s.poison a)).withZeroMap (runCut s.zeroMap (a / 65536) 1)

/-- Is some byte of the range marked poisoned (R438)? -/
def State.poisoned (s : State) (a n : Nat) : Bool :=
  s.poison.any fun x => decide (a ≤ x.1) && decide (x.1 < a + n)

/-- A range of bytes marked poisoned (R438). -/
def State.markPoison (s : State) (a : Nat) : Nat → State
  | 0 => s
  | n + 1 => ((s.markPoison a n).withPoison (spSet (fun _ => false) (s.markPoison a n).poison (a + n) true))

/-- `n` bytes of device memory from address `a`. -/
def State.bytes (s : State) (a : Nat) : Nat → List Byte
  | 0 => []
  | n + 1 => s.byte a :: s.bytes (a + 1) n

/-- The bytes written from address `a` on. -/
def State.putBytes (s : State) (a : Nat) : List Byte → State
  | [] => s
  | b :: t => (s.putByte a b).putBytes (a + 1) t

/-- A range of whole granules marked in the zero map: every byte of it reads as zero, and its old contents can never be
read again, from a cache either (R440). -/
def State.zeroRange (s : State) (a n : Nat) : State :=
  let keep := fun (k : Nat) => !(decide (a ≤ k) && decide (k < a + n))
  (((s.withMem (s.mem.filter fun c => keep c.1)).withPoison (s.poison.filter fun c => keep c.1)).withZeroMap
    (runAdd s.zeroMap (a / 65536) (n / 65536))).withCache (s.cache.filter fun x => keep (64 * x.1))

/-- The canonical form of memory. -/
def memWf (m : List Host.Cell) : Bool := spWf memDefault m

/-! ### Time -/

def tbReset (_ : Nat) : Timebase := ⟨0, 0, 0, 0⟩
def State.tbase (s : State) (k : Nat) : Timebase := spGet tbReset s.tb k
def State.setTbase (s : State) (k : Nat) (t : Timebase) : State := s.withTb (spSet tbReset s.tb k t)

/-- The value of timebase `k`, in 2⁻⁴⁴ ns. -/
def State.tbVal (s : State) (k : Nat) : Nat := (s.tbase k).value

/-- One nanosecond, and one second, in the units of a timebase. -/
abbrev nsUnit : Nat := 2 ^ 44
abbrev secUnit : Nat := 1000000000 * 2 ^ 44

/-- A captured timestamp: rounded to the nearest 0.125 ns, the later one on a tie (R455). -/
def quantise (v : Nat) : Nat := (v + 2 ^ 40) / 2 ^ 41 * 2 ^ 41

/-- The short time of a value (R454). -/
def shortNs (v : Nat) : Nat := v / nsUnit % 2 ^ 48
def shortFrac (v : Nat) : Nat := v / 2 ^ 28 % 2 ^ 16

/-- The time of timebase `k` as the carrier header holds it: nanoseconds modulo 2⁴⁸ and 2⁻¹⁶ ns. -/
def State.timeNs (s : State) (k : Nat) : Nat := shortNs (quantise (s.tbVal k))
def State.timeFrac (s : State) (k : Nat) : Nat := shortFrac (quantise (s.tbVal k))

/-! ### The life of the device -/

abbrev phLodge : Nat := 0
abbrev phRom : Nat := 1
abbrev phSelect : Nat := 2
abbrev phHostWait : Nat := 3
abbrev phStage2 : Nat := 4
abbrev phReady : Nat := 5
abbrev phHalted : Nat := 6
abbrev phWarm : Nat := 7
abbrev phNight : Nat := 8

def State.phase (s : State) : Nat := s.get F.BOOT_STATUS_PHASE
def State.ready (s : State) : Bool := s.phase == phReady

/-- Do the units accept new work: READY, and not on the way to Night (R16, R483)? -/
def State.taking (s : State) : Bool := s.ready && s.pwr.night == 0

/-- Is the lifecycle Open (Table 20-11)? -/
def State.isOpen (s : State) : Bool := s.get F.WKT_LIFECYCLE_OPEN == 1

/-- The live plan. -/
abbrev State.plan (s : State) : Plan := s.site.live

/-! ### Faults -/

abbrev uBoot : Nat := 0x00
abbrev uPwr : Nat := 0x01
abbrev uSdl : Nat := 0x02
abbrev uTb : Nat := 0x03
abbrev uWkt : Nat := 0x04
abbrev uFlt : Nat := 0x05
abbrev uSite : Nat := 0x08
abbrev uPrm : Nat := 0x09
abbrev uPav : Nat := 0x0A
abbrev uEth : Nat := 0x10
abbrev uArb : Nat := 0x11
abbrev uAcm : Nat := 0x12
abbrev uEmt : Nat := 0x13
abbrev uSch : Nat := 0x14
abbrev uCph : Nat := 0x15
abbrev uTe : Nat := 0x16
abbrev uNve : Nat := 0x17
abbrev uHif : Nat := 0x18
abbrev uMem : Nat := 0x19
abbrev uApc : Nat := 0x1A

/-- Offset of a unit's register in the control space (R32). -/
def unitOff (u o : Nat) : Nat := u * 0x1000000 + o

def errStatus (u : Nat) : Nat := unitOff u 0x100
def errMask (u : Nat) : Nat := unitOff u 0x108
def errFirst (u : Nat) : Nat := unitOff u 0x110
def errCount (u : Nat) : Nat := unitOff u 0x118

/-- Is some status bit set whose mask bit is 0 (R558)? TE's microcode status and the `PAV_DONE` bits count, each with
its own mask. -/
def State.unmasked (s : State) (u : Nat) : Bool :=
  (s.rd (errStatus u)) &&& ~~~(s.rd (errMask u)) != 0 ||
  (u == uTe && (s.rd R.TE_UC_ERR_STATUS) &&& ~~~(s.rd R.TE_UC_ERR_MASK) != 0) ||
  (u == uPav && (s.rd R.PAV_DONE) &&& ~~~(s.rd R.PAV_DONE_MASK) != 0)

/-! ### Tiles -/

/-- A tile after a reset: Clear, but for the ACM banks, which are powered off while no plan allocates them (R185). -/
def tileReset (t : Nat) : Tile := ⟨if 428 ≤ t ∧ t ≤ 555 then 3 else 0, false, false, 0, false, 0, 0, []⟩
def State.tile (s : State) (t : Nat) : Tile := spGet tileReset s.tiles t
def State.setTile (s : State) (t : Nat) (x : Tile) : State :=
  s.withTiles (spSet tileReset s.tiles t x)

/-- Is the tile running: Clear and not in Hold? -/
def State.tileClear (s : State) (t : Nat) : Bool := (s.tile t).sky == 0 && !(s.tile t).hold

/-- Does the domain of an endpoint's tile stand in Hold? -/
def State.epHeld (s : State) (ep : Nat) : Bool := (s.tile (epTile ep)).hold

/-- The endpoint of the engine that serves a function. -/
def hifEp (f : Nat) : Nat := 0x10 + f / 1024

/-! ### Configuration space and MSI-X (R396, R400) -/

/-- What a configuration register that nothing has written reads as. -/
def State.cfgDefault (s : State) (k : Nat) : Nat :=
  cfgReset s.plan (s.get (F.HIF_PORT_STATUS_BIF (fnPort (k / 1024)))) (k / 1024) (4 * (k % 1024))

/-- The 32-bit configuration register of function `f` at offset `o`. -/
def State.cfg (s : State) (f o : Nat) : Nat := spGet s.cfgDefault s.pcie.cfg (1024 * f + o / 4)
def State.setCfg (s : State) (f o v : Nat) : State :=
  s.withPcie { s.pcie with cfg := spSet s.cfgDefault s.pcie.cfg (1024 * f + o / 4) v }

/-- Bits of a configuration register set. -/
def State.orCfg (s : State) (f o v : Nat) : State := s.setCfg f o (s.cfg f o ||| v)

def State.busMaster (s : State) (f : Nat) : Bool := (s.cfg f 0x04).testBit 2

/-- Vector control and data of an MSI-X entry: masked at reset. -/
def msixReset (k : Nat) : Word := if k % 2 = 1 then 2 ^ 32 else 0
def State.msixWord (s : State) (f v half : Nat) : Word := spGet msixReset s.pcie.msix (4096 * f + 2 * v + half)
def State.setMsixWord (s : State) (f v half : Nat) (w : Word) : State :=
  s.withPcie { s.pcie with msix := spSet msixReset s.pcie.msix (4096 * f + 2 * v + half) w }

def State.msixPending (s : State) (f v : Nat) : Bool := spGet (fun _ => false) s.pcie.pba (2048 * f + v)
def State.setMsixPending (s : State) (f v : Nat) (b : Bool) : State :=
  s.withPcie { s.pcie with pba := spSet (fun _ => false) s.pcie.pba (2048 * f + v) b }

/-- Is a vector masked, alone or with the function's whole table? -/
def State.msixMasked (s : State) (f v : Nat) : Bool :=
  (s.cfg f 0x50).testBit 30 || bitAt (s.msixWord f v 1) 32

/-- A request of function `f` brings its link out of L1 (R418). -/
def State.l1Exit (s : State) (f : Nat) : State :=
  let link := fnLink (s.get (F.HIF_PORT_STATUS_BIF (fnPort f))) f
  if spGet (fun _ => 0) s.pcie.l1 (4 * fnPort f + link) ≠ 0 then
    (s.withPcie { s.pcie with l1 := spErase s.pcie.l1 (4 * fnPort f + link) }).emit (.pcieLink (fnPort f) link "L0" 0)
  else s

/-- The host interface sends a request of function `f`; in Hold it keeps it, and sends it after recovery (R425). -/
def State.hostSend (s : State) (f : Nat) (o : Output) : State :=
  if s.epHeld (hifEp f) then s.withPcie { s.pcie with toSend := s.pcie.toSend ++ [(f, o)] } else s.emit o

/-- One MSI-X message of a function: sent, or held as pending while the vector is masked; none while
MSI-X is not enabled. -/
def State.raiseMsix (s : State) (f v : Nat) : State :=
  if !(s.cfg f 0x50).testBit 31 then s
  else if s.msixMasked f v then s.setMsixPending f v true
  else (s.l1Exit f).hostSend f (.msix f v)

/-- A vector that is no longer masked sends its pending message (R558). -/
def State.msixRelease (s : State) (f v : Nat) : State :=
  if s.msixPending f v && !s.msixMasked f v && (s.cfg f 0x50).testBit 31 then
    ((s.setMsixPending f v false).l1Exit f).hostSend f (.msix f v)
  else s

/-! ### The APLIC's sources (R441) -/

def aplicReset (_ : Nat) : AplicDomain := ⟨false, [], [], 0, 0⟩
def State.aplic (s : State) (d : Nat) : AplicDomain := spGet aplicReset s.aia.domains d
def State.setAplic (s : State) (d : Nat) (x : AplicDomain) : State :=
  s.withAia { s.aia with domains := spSet aplicReset s.aia.domains d x }

/-- The configuration of a source: delegated, and its mode (AIA 1.0: 0 inactive, 1 detached, 4 and 5 edges, 6 and 7
levels). -/
def AplicDomain.config (x : AplicDomain) (i : Nat) : Nat := spGet (fun _ => 0) x.sources i
def AplicDomain.delegates (x : AplicDomain) (i : Nat) : Bool := (x.config i).testBit 10
def AplicDomain.active (x : AplicDomain) (i : Nat) : Bool := !x.delegates i && x.config i % 8 != 0

/-- A source becomes pending; one that follows a level does so while its wire is high, and no source has a wire. -/
def AplicDomain.pend (x : AplicDomain) (i : Nat) : AplicDomain :=
  if x.active i && decide (x.config i % 8 < 6) && decide (i < 1024) then { x with ip := x.ip ||| BitVec.ofNat 1024 (2 ^ i) } else x

/-- One MSI to a source, in the domain to which it is delegated. -/
def State.aplicSource (s : State) (i : Nat) : State :=
  let d := if (s.aplic 0).delegates i then 1 else 0
  (s.emit (.aplicMsi i)).setAplic d ((s.aplic d).pend i)

/-- FLT's summary bit of a unit brought up to date, with the messages of a rise (R558). -/
def State.fltRefresh (s : State) (u : Nat) : State :=
  let old := (s.get F.FLT_SUMMARY_SUMMARY).testBit u
  let new := s.unmasked u
  let s1 := s.wr R.FLT_SUMMARY (setBit (s.rd R.FLT_SUMMARY) u new)
  if new && !old then
    let s2 := if (s.get F.FLT_APLIC_EN_EN).testBit u then s1.aplicSource (1 + u) else s1
    if s.get F.FLT_MSIX_EN = 1 ∧ s.ready ∧ s.plan ≠ [] ∧ s.get F.FLT_MSIX_VECTOR < fnMsixSize s.plan 0 then
      s2.raiseMsix 0 (s.get F.FLT_MSIX_VECTOR)
    else s2
  else s1

/-- The place of the fault code in a unit's `_ERR_FIRST`. -/
def fcShift (u : Nat) : Nat := if u = uPrm then 32 else 40

/-- The first-error capture and the count of a recorded condition (R577). -/
def State.capture (s : State) (u cond extra : Nat) : State :=
  let s1 := if bitAt (s.rd (errFirst u)) 63 then s
    else s.wr (errFirst u) (BitVec.ofNat 64 (2 ^ 63 + (u * 256 + cond) * 2 ^ fcShift u + extra))
  s1.count ⟨errCount u, 31, 0⟩

/-- A unit sets a status bit; FLT follows (R577, R558). -/
def State.setStatus (s : State) (u bit : Nat) : State :=
  (s.wr (errStatus u) (setBit (s.rd (errStatus u)) bit true)).fltRefresh u

/-- A unit records one of its own conditions: status bit, capture, count (R577). `extra` holds the
unit's own fields of `_ERR_FIRST`. -/
def State.fault (s : State) (u cond bit extra : Nat) : State :=
  (s.capture u cond extra).setStatus u bit

/-- A unit records a common condition 0xFC to 0xFF: capture and count only (R577). -/
def State.common (s : State) (u cond : Nat) : State := s.capture u cond 0

/-! ### Reads of device memory by a unit -/

/-- The channel that holds an address, numbered as `MEM_CH_SEL` (R431, Table 16-9): interleaved over 128
pseudo-channels, over DDR channels of equal capacity, or concatenated. -/
def State.channelOf (s : State) (a : Nat) : Nat :=
  if a < 0x010000000000 then a / 256 % 128
  else
    let off := a - 0x010000000000
    let chs := (List.range 4).filter fun c => s.ddr.getD c 0 != 0
    let sizes := chs.map fun c => s.ddr.getD c 0
    if sizes.all (· == sizes.headD 0) then 128 + chs.getD (off / 256 % max 1 chs.length) 0
    else
      128 + ((chs.find? fun c => decide (off < ((List.range (c + 1)).map fun d => s.ddr.getD d 0 * 67108864).sum)).getD 0)

/-- A corrected error of a channel: counted, and reported once an hour beyond the threshold (R438, R439). -/
def State.channelCe (s : State) (c : Nat) : State :=
  let hour := 3600 * secUnit
  let recent := s.clk.elapsed ::
    ((spGet (fun _ => []) s.chTimes c).filter fun (t : Nat) => decide (s.clk.elapsed < t + hour))
  let s1 := ((s.withChCe (spSet (fun _ => 0) s.chCe c (satInc 0xFFFFFFFF (spGet (fun _ => 0) s.chCe c)))).withChTimes (spSet (fun _ => []) s.chTimes c recent))
  if s.get F.MEM_CE_THRESH_THRESH < recent.length ∧ spGet (fun _ => 0) s.chTold c ≤ s.clk.elapsed then
    (s1.withChTold (spSet (fun _ => 0) s1.chTold c (s.clk.elapsed + hour))).fault uMem 4 3 (c * 2 ^ 32)
  else s1

/-- An uncorrectable error of memory at an address (R438). -/
def State.memUe (s : State) (a : Nat) : State :=
  let hbm := decide (a < 0x010000000000)
  (s.count F.MEM_UE_COUNT_COUNT).fault uMem (if hbm then 0x02 else 0x03) (if hbm then 1 else 2)
    (s.channelOf a * 2 ^ 32 + a / 65536 % 2 ^ 32)

/-- A read of device memory at an address, as its ECC check finds it: a corrected error is counted for its channel, an
uncorrectable one recorded (R438). -/
def State.memRead (s : State) (ecc : EccResult) (a : Nat) : State :=
  match ecc with
  | .clean => s
  | .corrected => s.channelCe (s.channelOf a)
  | .uncorrectable => s.memUe a

/-- A read somewhere in the HBM partition of a unit: the spec does not say where the unit keeps the structure read, so
the address of an error is free within the partition. -/
def State.memReadIn (s : State) (ecc : EccResult) (unit : Nat) : State :=
  if ecc = .clean then s
  else
    let (v, s1) := s.takeFree
    match unitPartition s1.plan unit with
    | some (b, n) => s1.memRead ecc (b + v.toNat % n)
    | none => s1

/-- MEM refuses a request outside the requester's rights (R431). -/
def State.partViolation (s : State) (a : Nat) : State :=
  (s.count F.MEM_PART_VIOL_COUNT).fault uMem 0x01 0 (a / 65536 % 2 ^ 32)

/-- Is the whole range in partitions of TD 0, the rights of an operator-commanded source or buffer
(Table 16-3)? Before a plan is live, all HBM and DDR but for the private and staging regions (R508). -/
def State.operatorReaches (s : State) (a n : Nat) : Bool :=
  tdOwnsRange s.plan 0 a n ||
  (s.plan.isEmpty && (decide (a + n ≤ 0x17F8000000) ||
    (decide (0x010000000000 ≤ a) && decide (a + n ≤ 0x010000000000 + 67108864 * s.ddr.sum))))

/-! ### Errors of tiles -/

/-- Is the tile an arbour core, a cipher pair or a hart (Table 18-2)? -/
def tileRetires (t : Nat) : Bool :=
  decide (t ≤ 159) || (decide (180 ≤ t) && decide (t ≤ 275)) || (decide (348 ≤ t) && decide (t ≤ 379))

/-- A tile records an uncorrectable error; FLT retires it after `COUNT` of them within `WINDOW_H`
hours (R556). -/
def State.tileUe (s : State) (t : Nat) : State :=
  let x := s.tile t
  let recent := x.times.filter fun e =>
    decide (s.clk.elapsed < e + s.get F.FLT_RETIRE_CFG_WINDOW_H * (3600 * secUnit))
  let y := { x with ue := satInc 0xFFFF x.ue, times := s.clk.elapsed :: recent }
  if s.get F.FLT_RETIRE_CFG_EN = 1 ∧ tileRetires t ∧ !x.retired ∧
      s.get F.FLT_RETIRE_CFG_COUNT ≤ y.times.length then
    (s.setTile t { y with retired := true }).fault uFlt 0x03 2 (t * 65536)
  else s.setTile t y

/-! ### Packets of device units -/

/-- A unit hands a packet to the station of its endpoint, to be injected in order. -/
def State.send (s : State) (ep : Nat) (p : Packet) : State :=
  (s.withPrm { s.prm with
      out := spSet (fun _ => []) s.prm.out ep (spGet (fun _ => []) s.prm.out ep ++ [p]) })

/-- How many packets of an endpoint will have been injected, counted since the start, once all that it has handed over
are. -/
def State.sendTicket (s : State) (ep : Nat) : Nat :=
  spGet (fun _ => 0) s.prm.sent ep + (spGet (fun _ => []) s.prm.out ep).length +
    (match s.prm.inj.find? fun x => x.1 == ep with | some x => x.2.active.toNat | none => 0)

def State.inboxOf (s : State) (ep : Nat) : List Packet := spGet (fun _ => []) s.prm.inbox ep

/-- The inbox of an endpoint replaced. -/
def State.setInbox (s : State) (ep : Nat) (l : List Packet) : State :=
  s.withPrm { s.prm with inbox := spSet (fun _ => []) s.prm.inbox ep l }

/-- A unit answers a command with one completion (R14, R77). -/
def State.complete (s : State) (ep : Nat) (cmd : List Word) (status operand : Nat) (payload : List Byte) : State :=
  s.send ep ⟨unitCompletion cmd ep status operand payload.length (s.timeNs 0) (s.timeFrac 0), payload, false⟩

/-- A command that reaches a unit which takes none: refused, with one completion (R14). The spec names no status
for it, so the status is free among those a unit may give (R77; DESIGN CHOICE, log entry 133). -/
def State.refuseCommand (s : State) (ep : Nat) (w : List Word) : State :=
  let (v, s1) := s.takeFree
  s1.complete ep w (1 + v.toNat % 0xEF) 0 []

/-! ### Sections under amendment -/

/-- Is the load in QUIESCE, APPLY or RESUME (R55)? -/
def State.amending (s : State) : Bool :=
  decide (3 ≤ s.get F.SITE_STATUS_PHASE) && decide (s.get F.SITE_STATUS_PHASE ≤ 5)

/-- Is the element under amendment (R55)? -/
def State.underAmendment (s : State) (ty inst e : Nat) : Bool :=
  s.amending && s.site.diff.contains (ty, inst, e)

/-- Is an element that belongs to a function under amendment: its PF's record, its own, its transport or its storage
record? -/
def State.fnAmended (s : State) (f : Nat) : Bool :=
  s.underAmendment secFunctions (f / 1024) 0 || s.underAmendment secFunctions (f / 1024) (f % 1024 + 1) ||
  s.underAmendment secTeAlloc 0 (16 + f) || s.underAmendment secNveAlloc 0 f

/-- A write to a register of a function: refused by its unit while an amendment holds the function (R55). -/
def State.fnWrite (s : State) (u f : Nat) (act : State) : State :=
  if s.fnAmended f then s.common u 0xFC else act

/-- Is some element of a section type under amendment? -/
def State.typeAmending (s : State) (ty : Nat) : Bool :=
  s.amending && s.site.diff.any fun (t, _, _) => t == ty

/-! ### Staged content (R23 to R26) -/

/-- GO: `PENDING` is set. -/
def State.commitGo (s : State) (pending : Fld) : State := s.set pending 1

/-- The commit is applied: `PENDING` clears and `GEN` counts it. -/
def State.commitApplied (s : State) (pending gen : Fld) : State := (s.set pending 0).wrapBy gen 1

/-! ### Events -/

/-- Does the station of an endpoint have a credit for an event: nothing waits there, and the control
buffer holds fewer than its sixteen flits? -/
def State.eventCredit (s : State) (ep : Nat) : Bool :=
  (spGet (fun _ => []) s.prm.out ep).isEmpty &&
  decide ((spGet (fun _ => []) s.prm.bufs (4096 + 4 * ep)).length < 16)

end Sys2Proof.Machine
end

