-- ==== Sys2Proof/Machine/Ingress.lean ====
section
/-! DEFINITION. The ingress buffer: occupancy, PFC thresholds, and the frames it holds (R17, R89). -/

namespace Sys2Proof.Machine

def arrivingNone (_ : Nat) : Arriving := ⟨0, 0, false⟩

/-- The frame that a port is storing (R17). -/
def State.arrivingAt (s : State) (p : Nat) : Arriving := spGet arrivingNone s.eth.arriving p
def State.setArriving (s : State) (p : Nat) (a : Arriving) : State :=
  s.withEth { s.eth with arriving := spSet arrivingNone s.eth.arriving p a }

/-- Bytes stored for a port and priority, FCS included, those of a frame still arriving among them (R89). -/
def State.occupancy (s : State) (p c : Nat) : Nat :=
  ((s.frames.filter fun f => f.src == p && f.prio == c).map fun f => f.data.length + 4).sum +
    (if (s.arrivingAt p).prio = c then (s.arrivingAt p).bytes else 0)

/-- Bytes stored in all. -/
def State.ibufBytes (s : State) : Nat :=
  ((s.frames.filter fun f => decide (f.src < 16)).map fun f => f.data.length + 4).sum +
    (s.eth.arriving.map fun x => x.2.bytes).sum

/-- Does an XOFF condition hold for a port and priority? -/
def State.pfcOver (s : State) (p c : Nat) : Bool :=
  decide (s.get (F.ETH_PFC_THR_XOFF_KIB (8 * p + c)) * 1024 < s.occupancy p c) ||
  decide (s.get F.ETH_PFC_CFG_GLOBAL_XOFF_KIB * 1024 < s.ibufBytes)

def State.setRepeating (s : State) (l : List Nat) : State := s.withEth { s.eth with repeating := l }

/-- A PFC frame leaves at the port's first frame boundary (R89): at once, or after the frame in transmission. -/
def State.sendPfc (s : State) (p c quanta : Nat) : State :=
  if (spGet (fun _ => none) s.sch.tx p).isSome then s.withEth { s.eth with pfcWait := s.eth.pfcWait ++ [(p, c, quanta)] }
  else s.emit (.pfc p c quanta)

/-- The port's frame has ended: the PFC frames that waited for it go, ahead of every frame not yet started. -/
def State.pfcBoundary (s : State) (p : Nat) : State :=
  if (spGet (fun _ => none) s.sch.tx p).isSome then s
  else
    (s.emits ((s.eth.pfcWait.filter fun x => x.1 == p).map fun x => .pfc x.1 x.2.1 x.2.2)).withEth
      { s.eth with pfcWait := s.eth.pfcWait.filter fun x => x.1 != p }

/-- The PFC frame of a port and priority after a change of occupancy or of its settings (R89). -/
def State.pfcUpdate (s : State) (n : Nat) : State :=
  let p := n / 8
  let c := n % 8
  if s.eth.repeating.contains n then
    if !s.pfcOver p c && decide (s.occupancy p c ≤ s.get (F.ETH_PFC_THR_XON_KIB n) * 1024) then
      (s.setRepeating (s.eth.repeating.erase n)).sendPfc p c 0
    else s
  else if s.get (F.ETH_PFC_THR_EN n) = 1 ∧ s.pfcOver p c then
    (s.setRepeating (n :: s.eth.repeating)).sendPfc p c (s.get F.ETH_PFC_CFG_PAUSE_QUANTA)
  else s

/-- Every port and priority brought up to date; the greatest occupancy noted. -/
def State.pfcSettle (s : State) : State :=
  let s1 := s.withEth { s.eth with peak := max s.eth.peak s.ibufBytes }
  (List.range 128).foldl (fun s n => s.pfcUpdate n) s1

/-- A packet's frame leaves the buffer that holds it. -/
def State.freeFrame (s : State) (src arrival : Nat) : State :=
  (s.withFrames (s.frames.filter fun f => !(f.src == src && f.arrival == arrival))).pfcSettle

/-- Packets whose last output has been injected leave classification, and the ingress buffer is free of them (R89,
R199). -/
def State.clsSent (s : State) : State :=
  let sent := fun (q : ClsPacket) =>
    match q.ticket with | some t => decide (t ≤ spGet (fun _ => 0) s.prm.sent q.src) | none => false
  (s.acm.queue.filter sent).foldl (fun (s : State) q => s.freeFrame q.src q.arrival)
    (s.withAcm { s.acm with queue := s.acm.queue.filter fun q => !sent q })

end Sys2Proof.Machine
end

