-- ==== Sys2Proof/Machine/Arbour.lean ====
section
/-! DEFINITION. Arbour clusters and the gatehouse (05_arbour_cores.md): dispatch, commit, waits,
deadlock, debug. -/

namespace Sys2Proof.Machine

/-- The thread states of Table 5-2. -/
abbrev tIdle : Nat := 0
abbrev tRun : Nat := 1
abbrev tWait : Nat := 2
abbrev tPark : Nat := 3
abbrev tHalt : Nat := 4
abbrev tInit : Nat := 5
abbrev tService : Nat := 6

/-- The cluster states of Table 5-9. -/
abbrev cClosed : Nat := 0
abbrev cInit : Nat := 1
abbrev cReleased : Nat := 2
abbrev cQuiescing : Nat := 3

def threadReset (_ : Nat) : ArbThread :=
  { st := tIdle, regs := List.replicate 32 0, pc := 0, window := List.replicate 512 0, changed := [],
    key := List.replicate 128 0, profile := 0, ew := List.replicate 8 0, written := 0, pkt := none,
    order := 0, committed := false, locks := [], passed := [], wait := none, base := tIdle,
    prior := tIdle, outcome := none, haltPending := false, skipBreak := false,
    stepPending := false, slots := 0, set := 0 }

def clusterReset (_ : Nat) : ArbCluster :=
  { imem := [], dmem := [], stores := [], storeAt := 0, threads := [], locks := [], counters := [], seqCounts := [], nextOrder := 0,
    commits := [], reserved := 0, commitWait := [], svcReq := false, svcCause := 0, cycle := 0, episodes := 0, dispatchAt := none }

def State.clu (s : State) (c : Nat) : ArbCluster := spGet clusterReset s.arb.clusters c
def State.setClu (s : State) (c : Nat) (x : ArbCluster) : State :=
  s.withArb { s.arb with clusters := spSet clusterReset s.arb.clusters c x }

def State.thr (s : State) (c t : Nat) : ArbThread := spGet threadReset (s.clu c).threads t

/-- Is a thread in RUN, INIT, SERVICE or PARK (R148)? -/
def runnable (x : ArbThread) : Bool := x.st == tRun || x.st == tInit || x.st == tService || x.st == tPark

/-- Does a cluster stand in Hold: its cores' clocks, its gatehouse and its counts (R155)? -/
def State.cluHeld (s : State) (c : Nat) : Bool := (List.range 8).any fun k => (s.tile (8 * c + k)).hold

/-- A thread replaced. A thread that is runnable ends the HALT_HOLD episode of its set (R150). -/
def State.setThr (s : State) (c t : Nat) (x : ArbThread) : State :=
  let k := s.clu c
  s.setClu c { k with
    threads := spSet threadReset k.threads t x
    episodes := if runnable x && k.episodes.testBit x.set then k.episodes - 2 ^ x.set else k.episodes }

def sourceReset (_ : Nat) : ArbSource := ⟨0, 0, []⟩
def State.source (s : State) (src : Nat) : ArbSource := spGet sourceReset s.arb.sources src
def State.setSource (s : State) (src : Nat) (x : ArbSource) : State :=
  s.withArb { s.arb with sources := spSet sourceReset s.arb.sources src x }

def State.cluState (s : State) (c : Nat) : Nat := s.get (F.ARB_CLU_STATE_STATE c)
def State.setCluState (s : State) (c v : Nat) : State := s.set (F.ARB_CLU_STATE_STATE c) v

/-- The fields of `ARB_ERR_FIRST` (Table 5-11). -/
def arbExtra (c t sets pc : Nat) : Nat := c * 2 ^ 32 + t * 2 ^ 24 + sets * 2 ^ 14 + pc

/-! ### Start-up -/

/-- A cluster is reset and enters INIT at `INIT_ENTRY` of the image in the live plan (R136). A HALT pending on an
IDLE thread goes with the thread's context (DESIGN CHOICE, log entry 114), as do a service request posted and the
causes in `SVC_CAUSE` (DESIGN CHOICE, log entry 147). -/
def State.loadCluster (s : State) (c : Nat) : State :=
  let n := imgCount s.plan c
  let body := secBody s.plan secArbImage c
  let data := (List.range (imgDataLen s.plan c)).foldl
    (fun m i => spSet (fun _ => (0 : Byte)) m i (body.getD (256 + 8 * n + i) 0)) []
  let k : ArbCluster := { clusterReset c with
    imem := (List.range n).map fun i => BitVec.ofNat 64 (leAt body (256 + 8 * i) 8)
    dmem := data }
  let s1 := (s.setClu c k).setThr c 0 { threadReset 0 with st := tInit, base := tInit, pc := imgInit s.plan c }
  s1.setCluState c cInit

/-- A cluster is loaded again; packets already committed stay in its commit buffer (R136, R144). -/
def State.reloadCluster (s : State) (c : Nat) : State :=
  let held := (s.clu c).commits
  let s1 := s.loadCluster c
  s1.setClu c { s1.clu c with commits := held }

/-- The start-up program fails: the master thread is stopped, the cluster stays CLOSED (R138). The master shows IDLE
with a reset context, and the locks it held stay held until the next reload (DESIGN CHOICE, log entry 112). -/
def State.initFailed (s : State) (c : Nat) : State :=
  let x := s.thr c 0
  let s1 := (s.setThr c 0 { threadReset 0 with set := x.set }).setCluState c cClosed
  s1.fault uArb 0x06 5 (arbExtra c 0 0 x.pc)

/-! ### Ends of packets -/

/-- Numbers that ended without commit, at the front, are behind the sequencer (R143). -/
def advancePass : Nat → ArbSource → ArbSource
  | 0, x => x
  | n + 1, x =>
    if x.ended.contains x.nextPass then
      advancePass n { x with nextPass := (x.nextPass + 1) % 2 ^ 32, ended := x.ended.erase x.nextPass }
    else x

/-- A packet ends without commit (R143, R144). -/
def State.endUncommitted (s : State) (p : ArbPacket) : State :=
  let x := s.source p.src
  let y := { x with ended := p.arrival :: x.ended }
  (s.freeFrame p.src p.arrival).setSource p.src (advancePass y.ended.length y)

/-- The outcome of a wait reaches its thread: the status is written to `RD` and the thread goes on; a
halted thread takes it when it resumes (R151, R174). -/
def State.endWait (s : State) (c t status : Nat) : State :=
  let x := s.thr c t
  let rd := match x.wait with
    | some (.lock _ r) => r
    | some (.counter _ _ r) => r
    | some (.order _ r) => r
    | some (.commit r) => r
    | some (.park _ _ r _) => r
    | none => 0
  if x.st = tHalt then s.setThr c t { x with outcome := some status }
  else
    s.setThr c t { x with
      st := x.base, wait := none
      regs := if rd = 0 then x.regs else x.regs.set rd (BitVec.ofNat 64 status) }

/-- A free lock passes to its oldest waiter (R146, R147). -/
def State.grantLock (s : State) (c i : Nat) : State :=
  let k := s.clu c
  let l := spGet (fun _ => ⟨none, []⟩) k.locks i
  match l.waiters with
  | [] => s.setClu c { k with locks := spSet (fun _ => ⟨none, []⟩) k.locks i ⟨none, []⟩ }
  | w :: rest =>
    let s1 := s.setClu c { k with locks := spSet (fun _ => ⟨none, []⟩) k.locks i ⟨some w, rest⟩ }
    let s2 := s1.setThr c w { s1.thr c w with locks := i :: (s1.thr c w).locks }
    s2.endWait c w 0

/-- A thread lets a lock go. -/
def State.dropLock (s : State) (c t i : Nat) : State :=
  (s.setThr c t { s.thr c t with locks := (s.thr c t).locks.filter (· != i) }).grantLock c i

/-- A thread lets every lock go (R144, R153). -/
def State.dropLocks (s : State) (c t : Nat) : State :=
  (s.thr c t).locks.foldl (fun s i => s.dropLock c t i) s

/-! ### Commit -/

/-- The header at COMMIT (R142, Table 5-5). -/
def commitWords (x : ArbThread) (p : ArbPacket) : List Word :=
  let pw := hGet x.ew CH.poison == 1 || p.poison
  hSets x.ew [(CH.ver, 2), (CH.kind, kPacket), (CH.td, p.td), (CH.ruleVer, p.ruleVer),
    (CH.poison, if pw then 1 else 0), (CH.wake, 0), (CH.dbg, 0), (CH.len, p.len), (CH.srcEp, p.src),
    (CH.timeNs, p.ns), (CH.timeFrac, p.frac), (CH.opcode, 0), (CH.operand, 0)]

/-- The frame with the window bytes that INS changed (R142, R164). -/
def commitData (x : ArbThread) (p : ArbPacket) : List Byte :=
  (List.range p.data.length).map fun i => if x.changed.contains i then x.window.getD i 0 else p.data.getD i 0

/-- The hand-over of a thread's packet to the commit buffer of its cluster (R142, R143). -/
def State.handOver (s : State) (c t : Nat) : State :=
  let x := s.thr c t
  match x.pkt with
  | none => s
  | some p =>
    let e : Committed := ⟨p.src, p.arrival, commitWords x p, commitData x p, x.key, x.profile, p.prio,
      p.poison || hGet x.ew CH.poison == 1, false⟩
    let s1 := s.setThr c t { x with committed := true }
    let k := s1.clu c
    s1.setClu c { k with commits := k.commits ++ [e] }

/-- Does the commit buffer of 128 entries have one free (R143)? -/
def commitFree (k : ArbCluster) : Bool := decide (k.commits.length + k.reserved < 128)

/-- An entry that has freed goes to the COMMIT that has waited longest: R143 does not say which of several gets it
(DESIGN CHOICE, log entry 148); a halted thread's entry is reserved until it resumes (R151). -/
def State.grantCommit (s : State) (c : Nat) : State :=
  let k := s.clu c
  match k.commitWait with
  | [] => s
  | t :: rest =>
    if !commitFree k then s
    else
      let s1 := s.setClu c { k with commitWait := rest }
      if (s1.thr c t).st = tHalt then
        let s2 := s1.endWait c t 0
        s2.setClu c { s2.clu c with reserved := (s2.clu c).reserved + 1 }
      else (s1.handOver c t).endWait c t 0

/-! ### Waits and ends -/

/-- The thread's wait is withdrawn from the gatehouse; a commit-buffer entry reserved for it frees. -/
def State.withdrawWait (s : State) (c t : Nat) : State :=
  let k := s.clu c
  let x := s.thr c t
  let k1 := match x.wait with
    | some (.lock i _) =>
      let l := spGet (fun _ => ⟨none, []⟩) k.locks i
      { k with locks := spSet (fun _ => ⟨none, []⟩) k.locks i ⟨l.holder, l.waiters.filter (· != t)⟩ }
    | some (.commit _) =>
      { k with
        commitWait := k.commitWait.filter (· != t)
        reserved := if x.outcome = some 0 then k.reserved - 1 else k.reserved }
    | _ => k
  ((s.setClu c k1).setThr c t { (s.thr c t) with wait := none, outcome := none }).grantCommit c

/-- The cluster threads in dispatch order, by thread number where they hold no packet. -/
def State.threadsOf (_s : State) (_c : Nat) : List Nat := List.range 64

/-- May thread `t` pass sequencer `q`: every packet dispatched to the cluster earlier has passed it or
ended (Table 5-6, R173)? A thread without a packet waits for all those dispatched before it issued. -/
def State.orderMet (s : State) (c t q : Nat) : Bool :=
  let x := s.thr c t
  (List.range 64).all fun u =>
    let y := s.thr c u
    u == t || y.pkt.isNone || decide (x.order ≤ y.order) || y.passed.contains q

/-- A packet's thread counts as passed on a sequencer, once (R144, R173). -/
def State.passSeq (s : State) (c t q : Nat) : State :=
  let x := s.thr c t
  if x.pkt.isNone ∨ x.passed.contains q then s
  else
    let s1 := s.setThr c t { x with passed := q :: x.passed }
    let k := s1.clu c
    s1.setClu c { k with seqCounts := spSet (fun _ => 0) k.seqCounts q ((spGet (fun _ => 0) k.seqCounts q + 1) % 2 ^ 32) }

/-- The ORDER waits that can end, end, in turn. -/
def State.settleOrders (s : State) (c : Nat) : Nat → State
  | 0 => s
  | n + 1 =>
    let ready := (List.range 64).find? fun t =>
      match (s.thr c t).wait with
      | some (.order q _) => (s.thr c t).outcome.isNone && s.orderMet c t q
      | _ => false
    match ready with
    | none => s
    | some t =>
      match (s.thr c t).wait with
      | some (.order q _) => ((s.passSeq c t q).endWait c t 0).settleOrders c n
      | _ => s

/-- Is the counter condition met: (counter − v) mod 2³² < 2³¹ (Table 5-6, R175)? -/
def counterMet (ctr v : Nat) : Bool := decide ((ctr + 2 ^ 32 - v % 2 ^ 32) % 2 ^ 32 < 2 ^ 31)

/-- The WAITs and PARKs on a counter that are met, end (R145, R175). -/
def State.settleCounter (s : State) (c j : Nat) : State :=
  let v := spGet (fun _ => 0) (s.clu c).counters j
  (List.range 64).foldl (fun s t =>
    match (s.thr c t).wait with
    | some (.counter i w _) => if i = j ∧ counterMet v w ∧ (s.thr c t).outcome.isNone then s.endWait c t 0 else s
    | some (.park i w _ _) => if i = j ∧ counterMet v w ∧ (s.thr c t).outcome.isNone then s.endWait c t 0 else s
    | _ => s) s

/-- The master runs the service program (R149): zero registers and staging areas, PC at `SERVICE_ENTRY`. -/
def State.enterService (s : State) (c : Nat) : State :=
  let x := s.thr c 0
  let k := s.clu c
  let st := if x.haltPending then tHalt else tService
  (s.setClu c { k with svcReq := false }).setThr c 0
    { threadReset 0 with st := st, base := tService, prior := tService, pc := imgService s.plan c, set := x.set }

/-- A thread becomes IDLE: its set and a pending halt stay; the master takes a pending service. -/
def State.threadIdle (s : State) (c t : Nat) : State :=
  let x := s.thr c t
  let s1 := s.setThr c t { threadReset t with set := x.set, haltPending := x.haltPending }
  let s2 := s1.settleOrders c 64
  if t = 0 ∧ (s2.clu c).svcReq then s2.enterService c else s2

/-- A thread stops with its packet: locks released, every sequencer passed, wait withdrawn; a packet
not committed ends (R144, R153). -/
def State.retireThread (s : State) (c t : Nat) : State :=
  let s1 := (s.withdrawWait c t).dropLocks c t
  let s2 := (List.range 16).foldl (fun s q => s.passSeq c t q) s1
  let x := s2.thr c t
  let s3 := match x.pkt with
    | some p => if x.committed then s2 else s2.endUncommitted p
    | none => s2
  s3.threadIdle c t

/-! ### Exceptions -/

/-- The record of an exception in the cluster (R180). -/
def State.excLast (s : State) (c t cause op pc : Nat) : State :=
  s.wr (R.ARB_EXC_LAST c) (BitVec.ofNat 64 (2 ^ 63 + cause * 2 ^ 32 + t * 2 ^ 24 + op * 2 ^ 14 + pc))

/-- An instruction meets an exception (R179): recorded; a thread with a packet ends, a master in INIT
fails the start-up, a master in SERVICE returns to IDLE. `ARB_EXC_COUNT` counts the exceptions that drop a packet
(DESIGN CHOICE, log entry 113). -/
def State.arbException (s : State) (c t cause op : Nat) : State :=
  let x := s.thr c t
  let s1 := (s.fault uArb 0x05 4 (arbExtra c t 0 x.pc)).excLast c t cause op x.pc
  if x.base = tInit then s1.initFailed c
  else
    let s2 := if x.pkt.isSome && !x.committed then s1.count F.ARB_EXC_COUNT_COUNT else s1
    s2.retireThread c t

/-- An uncorrectable error in a cluster's instruction or data memory (R156): recorded once, every packet that the
cluster's threads hold dropped and counted, the cluster reloaded. A packet already committed continues (R144). -/
def State.clusterMemoryUe (s : State) (c t : Nat) : State :=
  let s1 := ((s.fault uArb 0x07 6 (arbExtra c t 0 (s.thr c t).pc)).tileUe (8 * c + t / 8)).setCluState c cClosed
  let s2 := (List.range 64).foldl (fun s u =>
    match (s.thr c u).pkt with
    | some p => if (s.thr c u).committed then s else (s.endUncommitted p).count F.ARB_EXC_COUNT_COUNT
    | none => s) s1
  s2.reloadCluster c

/-! ### Dispatch -/

/-- The rule version committed now: the start of parse of a packet dispatched in this cycle (R26, R140). -/
def State.currentVersion (s : State) : Nat := s.get F.ACM_VER_STATUS_COMMITTED

def State.idleThreads (s : State) (c : Nat) : List Nat :=
  (List.range 64).filter fun t => (s.thr c t).st == tIdle && !(t == 0 && (s.clu c).svcReq)

/-- Threads of a core that are not IDLE. -/
def State.coreBusy (s : State) (c k : Nat) : Nat :=
  ((List.range 8).filter fun t => (s.thr c (8 * k + t)).st != tIdle).length

/-- A retired arbour core takes no dispatch (R556). -/
def State.coreRetired (s : State) (c k : Nat) : Bool := (s.tile (8 * c + k)).retired

/-- Does the cluster accept a dispatch now: it has accepted none in this cycle and stands in no Hold (R139, R155)? -/
def State.acceptsDispatch (s : State) (c : Nat) : Bool :=
  (s.clu c).dispatchAt != some s.clk.elapsed && !s.cluHeld c &&
  (s.idleThreads c).any fun t => !s.coreRetired c (t / 8)

/-- The RELEASED clusters a source names, most IDLE threads first, lowest number on a tie; one that has accepted a
dispatch in the cycle leaves the packet to the next (R139). -/
def State.dispatchClusters (s : State) (src : Nat) : List Nat :=
  let cs := (List.range 20).filter fun c =>
    s.cluState c == cReleased && mapNames s.plan src c && s.acceptsDispatch c
  (List.range 65).reverse.flatMap fun n => cs.filter fun c => (s.idleThreads c).length == n

/-- The thread of a cluster that takes a dispatch (R139): the core with the fewest threads in use,
preferring one in Clear, lowest core, lowest thread. -/
def State.dispatchThread (s : State) (c : Nat) : Option Nat :=
  let idle := s.idleThreads c
  let ks := (List.range 8).filter fun k => idle.any (fun t => t / 8 == k) && !s.coreRetired c k
  let order := (List.range 9).flatMap fun n =>
    (ks.filter fun k => s.coreBusy c k == n && (s.tile (8 * c + k)).sky == 0) ++
    (ks.filter fun k => s.coreBusy c k == n && (s.tile (8 * c + k)).sky != 0)
  match order with
  | [] => none
  | k :: _ => idle.find? fun t => t / 8 == k

/-- The context of a thread at dispatch (R140, R161). -/
def dispatchedThread (x : ArbThread) (f : SrcFrame) (ver pc order : Nat) : ArbThread :=
  let p : ArbPacket := ⟨f.src, f.arrival, f.data.length, f.data, ver, f.prio, f.td, f.ns, f.frac, f.poison⟩
  { threadReset 0 with
    st := if x.haltPending then tHalt else tRun
    base := tRun, prior := tRun, pc := pc, window := bytesAt f.data 0 512 |>.take 512
    pkt := some p, order := order, set := x.set }

/-- The number in ARB_MAP of a source (R134): MAC ports 0 to 15, host engines 16 to 19. -/
def mapIndex (src : Nat) : Nat := src

/-- A stored packet of a source is dispatched to an IDLE thread (R139, R140), the oldest first. An uncorrectable error of
the context met here concerns no instruction: `ARB_EXC_LAST` shows opcode 0 (DESIGN CHOICE, log entry 149). -/
def execArbourDispatch (src : Nat) (err : ArbError) (s : State) : Res :=
  match s.frames.find? fun (f : SrcFrame) => f.src == src && !f.dispatched with
  | none => .next s
  | some f =>
    match s.dispatchClusters src with
    | [] => .next s
    | c :: _ =>
      if err = .memory then .next (s.clusterMemoryUe c 0)
      else
        match s.dispatchThread c with
        | none => .next s
        | some t =>
          let k := s.clu c
          let x := dispatchedThread (s.thr c t) f s.currentVersion (imgEntry s.plan c (mapProg s.plan src f.prio)) k.nextOrder
          let s1 := s.setClu c { k with nextOrder := k.nextOrder + 1, dispatchAt := some s.clk.elapsed }
          let core := 8 * c + t / 8
          let s2 := s1.setTile core { s1.tile core with sky := 0, wakes := if (s1.tile core).sky = 0 then (s1.tile core).wakes else (s1.tile core).wakes + 1 }
          let s3 := s2.withFrames (s2.frames.map fun (g : SrcFrame) => if g.src == f.src && g.arrival == f.arrival then { g with dispatched := true } else g)
          let s4 := (s3.setThr c t x).wrapBy F.ARB_DISPATCH_COUNT_COUNT 1
          if err = .context then .next (s4.arbException c t 0x09 0) else .next s4

/-! ### The commit sequencer -/

/-- Does an amendment hold the elements that packets of a profile use, until RESUME has ended (R52)? -/
def State.profileHeld (s : State) (p : Nat) : Bool :=
  s.underAmendment secAcmBanks 0 p || (profBanks s.plan p).any fun b => s.underAmendment secAcmBanks 0 (256 + b)

/-- From QUIESCE to RESUME of an amendment with a differing `ACM_BANKS` element classification begins no packet, and
packets stay in the commit buffers (R186). -/
def State.classifyHeld (s : State) : Bool := s.typeAmending secAcmBanks && s.get F.SITE_STATUS_PHASE != 5

/-- The commit sequencer passes the next packet of a source (R143): the packet of the next arrival
number, once it is committed. -/
def execCommitSequencerPass (pass : SequencerPass) (s : State) : Res :=
  let src := pass.src
  let x := s.source src
  if s.classifyHeld then .next s
  else
  match (List.range 20).find? fun c => !s.cluHeld c && (s.clu c).commits.any fun e => e.src == src && e.arrival == x.nextPass with
  | none => .next s
  | some c =>
    let k := s.clu c
    match k.commits.find? fun e => e.src == src && e.arrival == x.nextPass with
    | none => .next s
    | some e =>
      let y := { x with nextPass := (x.nextPass + 1) % 2 ^ 32 }
      let s1 := s.setSource src (advancePass y.ended.length y)
      let s2 := s1.setClu c { k with commits := k.commits.filter fun d => !(d.src == src && d.arrival == e.arrival) }
      .next ((s2.withPassed (s2.passed ++ [{ e with wayUe := pass.wayUe }])).grantCommit c)

/-! ### Limits -/

/-- RELEASE has not come within the limit (R138). -/
def execArbInitLimitExpiry (cluster : Nat) (s : State) : Res :=
  if s.cluState cluster = cInit ∧ !s.cluHeld cluster then .next (s.initFailed cluster) else .next s

/-- A packet has taken more issue slots than ARB_RUN_LIMIT (R144). -/
def execArbRunLimitExpiry (cluster thread : Nat) (s : State) : Res :=
  let x := s.thr cluster thread
  if x.pkt.isNone ∨ x.st = tHalt ∨ s.cluHeld cluster ∨ x.slots ≤ s.get F.ARB_RUN_LIMIT_SLOTS then .next s
  else
    let s1 := s.fault uArb 0x08 7 (arbExtra cluster thread 0 x.pc)
    let s2 := if x.committed then s1 else s1.count F.ARB_EXC_COUNT_COUNT
    .next (s2.retireThread cluster thread)

/-! ### Deadlock -/

def State.members (s : State) (c set : Nat) : List Nat :=
  (List.range 64).filter fun t => (s.thr c t).set == set && (s.thr c t).st != tIdle

/-- Can some commit-buffer entry of the cluster free (R148)? -/
def State.commitCanFree (s : State) (c : Nat) : Bool :=
  (s.clu c).commits.any fun e =>
    let first := (s.source e.src).nextPass
    let holder := (List.range 20).find? fun d => (List.range 64).any fun t =>
      match (s.thr d t).pkt with
      | some p => p.src == e.src && p.arrival == first && !(s.thr d t).committed
      | none => false
    e.arrival == first ||
    (match holder with
     | none => true
     | some d => d != c || (List.range 64).any fun t =>
        match (s.thr c t).pkt with
        | some p => p.src == e.src && p.arrival == first && runnable (s.thr c t)
        | none => false)

/-- Can some runnable thread end the wait of a member of a set (R148)? -/
def State.waitCanEnd (s : State) (c set t : Nat) : Bool :=
  match (s.thr c t).wait with
  | some (.lock i _) =>
    match (spGet (fun _ => ⟨none, []⟩) (s.clu c).locks i).holder with
    | some h => runnable (s.thr c h)
    | none => true
  | some (.counter _ _ _) => (List.range 64).any fun u => (s.thr c u).set != set && runnable (s.thr c u)
  | some (.order q _) => (List.range 64).any fun u =>
      (s.thr c u).pkt.isSome && decide ((s.thr c u).order < (s.thr c t).order) &&
        !(s.thr c u).passed.contains q && runnable (s.thr c u)
  | some (.commit _) => s.commitCanFree c
  | _ => true

/-- Do the conditions of R148 hold for a set, with `halted` members allowed (R150)? The wait that a halted member keeps
is not asked whether it can end: only the members not halted are (DESIGN CHOICE, log entry 146). -/
def State.setStuck (s : State) (c set : Nat) (halted : Bool) : Bool :=
  let ms := s.members c set
  !ms.isEmpty && ms.all (fun t => ((s.thr c t).st == tWait || (halted && (s.thr c t).st == tHalt))) &&
  ms.any (fun t => (s.thr c t).st == tHalt) == halted &&
  ms.all (fun t => (s.thr c t).st == tHalt || !s.waitCanEnd c set t)

/-- One wait is broken: its place in the gatehouse is given up, and it ends with DEADLOCK (R149). -/
def State.breakWait (s : State) (c t : Nat) : State :=
  let w := (s.thr c t).wait
  let s1 := s.withdrawWait c t
  (s1.setThr c t { s1.thr c t with wait := w }).endWait c t 1

/-- A set has been deadlocked for 4,096 cycles (R148, R149). -/
def execDeadlock (cluster set : Nat) (s : State) : Res :=
  if s.cluHeld cluster ∨ !s.setStuck cluster set false then .next s
  else
    let ms := s.members cluster set
    let s1 := ms.foldl (fun s t => s.breakWait cluster t) s
    let s2 := s1.wr (R.ARB_DL_STATUS cluster) (setBit (s1.rd (R.ARB_DL_STATUS cluster)) set true)
    let s3 := (s2.count F.ARB_DEADLOCK_COUNT_COUNT).fault uArb 0x01 0
      (arbExtra cluster 0 (2 ^ set) (s.thr cluster 0).pc)
    let k := s3.clu cluster
    let s4 := s3.setClu cluster { k with svcReq := true, svcCause := k.svcCause ||| 2 ^ set }
    if (s4.thr cluster 0).st = tIdle then .next (s4.enterService cluster) else .next s4

/-- A set blocked only by halted threads is reported, once for each episode (R150). -/
def execHaltHold (cluster set : Nat) (s : State) : Res :=
  if s.cluHeld cluster ∨ !s.setStuck cluster set true ∨ (s.clu cluster).episodes.testBit set then .next s
  else
    let k := s.clu cluster
    let s1 := s.setClu cluster { k with episodes := k.episodes ||| 2 ^ set }
    let s2 := s1.wr (R.ARB_DL_STATUS cluster) (setBit (s1.rd (R.ARB_DL_STATUS cluster)) (8 + set) true)
    .next (s2.fault uArb 0x02 1 (arbExtra cluster 0 (2 ^ set) (s.thr cluster 0).pc))

/-- A parked thread's timeout expires (R175); it does not run while the thread is halted or in Hold. -/
def execParkTimeout (cluster thread : Nat) (s : State) : Res :=
  let x := s.thr cluster thread
  match x.wait with
  | some (.park _ _ _ timeout) =>
    if x.st = tPark ∧ timeout ≠ 0 ∧ !s.cluHeld cluster then .next (s.endWait cluster thread 2) else .next s
  | _ => .next s

/-! ### Debug -/

/-- May a debug command that stops or steps threads take effect: not on a cluster under amendment (R158)? -/
def State.dbgHeld (s : State) (c : Nat) : Bool :=
  s.amending && (s.site.diff.any fun (ty, i, e) => (ty == secArbImage && i == c) || (ty == secArbMap && e == c))

/-- RESUME and ABANDON are accepted during QUIESCE, and ignored during APPLY and RESUME (R158). -/
def State.dbgHeldLate (s : State) (c : Nat) : Bool := s.dbgHeld c && s.get F.SITE_STATUS_PHASE != 3

/-- HALT on one thread (R151): held pending for an IDLE thread. -/
def State.haltThread (s : State) (c t : Nat) : State :=
  let x := s.thr c t
  if x.st = tIdle then s.setThr c t { x with haltPending := true }
  else if x.st = tHalt then s
  else s.setThr c t { x with st := tHalt, prior := x.st }

/-- A halted thread goes back to the state it halted from; a wait that ended meanwhile is applied, and
a commit-buffer entry reserved for it is used (R151, R153). -/
def State.resumeThread (s : State) (c t : Nat) : State :=
  let x := s.thr c t
  let x1 := { x with st := x.prior, skipBreak := true, haltPending := false, outcome := none }
  match x.outcome with
  | none => s.setThr c t x1
  | some status =>
    let s1 := s.setThr c t x1
    match x.wait, status with
    | some (.commit _), 0 =>
      let s2 := s1.setClu c { s1.clu c with reserved := (s1.clu c).reserved - 1 }
      (s2.handOver c t).endWait c t 0
    | _, _ => s1.endWait c t status

/-- A command on a thread that is not halted is ignored and recorded (R153). -/
def State.notHalted (s : State) (c t : Nat) : State := s.fault uArb 0x0A 9 (arbExtra c t 0 (s.thr c t).pc)

/-- RESUME (R153). -/
def State.dbgResume (s : State) (c t : Nat) : State :=
  if s.dbgHeldLate c then s.capture uArb 0xFC (arbExtra c 0 0 0)
  else if (s.thr c t).st = tHalt then s.resumeThread c t
  else s.notHalted c t

/-- ABANDON (R153). -/
def State.dbgAbandon (s : State) (c t : Nat) : State :=
  let x := s.thr c t
  if s.dbgHeldLate c then s.capture uArb 0xFC (arbExtra c 0 0 0)
  else if x.st ≠ tHalt then s.notHalted c t
  else if x.base = tInit then s.initFailed c
  else
    let s1 := if x.pkt.isSome && !x.committed then
        (s.count F.ARB_ABANDON_COUNT_COUNT).fault uArb 0x09 8 (arbExtra c t 0 x.pc)
      else s
    s1.retireThread c t

/-- HALT (R151, R158). -/
def State.dbgHalt (s : State) (c t : Nat) : State :=
  if s.dbgHeld c then s.capture uArb 0xFC (arbExtra c 0 0 0) else s.haltThread c t

def State.dbgHaltAll (s : State) (c : Nat) : State :=
  if s.dbgHeld c then s.capture uArb 0xFC (arbExtra c 0 0 0) else (List.range 64).foldl (fun s t => s.haltThread c t) s

def State.dbgResumeAll (s : State) (c : Nat) : State :=
  if s.dbgHeldLate c then s.capture uArb 0xFC (arbExtra c 0 0 0)
  else (List.range 64).foldl (fun s t => if (s.thr c t).st = tHalt then s.resumeThread c t else s) s

def execArbHalt (cluster thread : Nat) (s : State) : Res := .next (s.dbgHalt cluster thread)
def execArbResume (cluster thread : Nat) (s : State) : Res := .next (s.dbgResume cluster thread)
def execArbAbandon (cluster thread : Nat) (s : State) : Res := .next (s.dbgAbandon cluster thread)
def execArbHaltAll (cluster : Nat) (s : State) : Res := .next (s.dbgHaltAll cluster)
def execArbResumeAll (cluster : Nat) (s : State) : Res := .next (s.dbgResumeAll cluster)

/-- The breakpoint that stops a thread at its PC, if any (R151, R153). -/
def State.breakpointHit (s : State) (c t : Nat) : Option Nat :=
  let x := s.thr c t
  if x.skipBreak then none
  else (List.range 4).find? fun k =>
    s.get (F.ARB_BRK_EN c k) == 1 && s.get (F.ARB_BRK_ADDR c k) == x.pc &&
      (s.get (F.ARB_BRK_SETS c k)).testBit x.set

/-- A thread in an issuing state halts before the instruction at an enabled breakpoint (R151). -/
def execArbBreakpointHalt (cluster thread : Nat) (s : State) : Res :=
  let x := s.thr cluster thread
  if (x.st = tRun ∨ x.st = tInit ∨ x.st = tService) ∧ !s.cluHeld cluster ∧ (s.breakpointHit cluster thread).isSome then
    .next (s.haltThread cluster thread)
  else .next s

end Sys2Proof.Machine
end

