-- ==== Sys2Proof/Machine/Iommu.lean ====
section
/-! DEFINITION. The IOMMU's translation (R445, R446, R448): device and process directories, first-stage and G-stage page
tables in memory of TD 0, A/D update, and the IOTLB. The formats, checks and causes are those of the RISC-V IOMMU
Architecture Specification 1.0, to which R445 refers (PRESUMED, log entry 49). -/

namespace Sys2Proof.Machine

/-- Why an access is not translated: the cause and `iotval2` of the fault record. -/
abbrev IoErr := Nat × Nat

/-- What a page table gives for an address: the output address, the size of the page, whether the page may be read and
written now, and whether it is global. -/
structure IoLeaf where
  out : Nat
  log2 : Nat
  r : Bool
  w : Bool
  glob : Bool
  deriving DecidableEq, Repr

/-! ### Tables in memory -/

/-- `n` bytes of a table: cause `acc` where they lie outside the partitions of TD 0 (R431, R445), `bad` where they are
corrupt. -/
def State.tableRead (s : State) (a n acc bad : Nat) : Except IoErr (List Byte) × State :=
  if !s.operatorReaches a n then (.error (acc, 0), s.partViolation a)
  else if s.poisoned a n then (.error (bad, 0), s)
  else (.ok (s.bytes a n), s)

/-- The address of the page that a table entry names. -/
def ioPage (p : Nat) : Nat := p / 2 ^ 10 % 2 ^ 44 * 4096

/-- Are reserved bits of a directory entry set? -/
def dirBad (p : Nat) : Bool := p / 2 % 2 ^ 9 != 0 || p / 2 ^ 54 % 2 ^ 10 != 0

/-- A directory entry above the leaf, whose place `at_` gives: the page it names. Causes: `acc` an access fault, the next two an entry that is not
valid or misconfigured, `bad` corrupt data. -/
def State.dirEntry (acc bad : Nat) (at_ : State → Except IoErr Nat × State) (s : State) : Except IoErr Nat × State :=
  match at_ s with
  | (.error e, s1) => (.error e, s1)
  | (.ok a, s1) =>
    match s1.tableRead a 8 acc bad with
    | (.error e, s2) => (.error e, s2)
    | (.ok b, s2) =>
      if !(leAt b 0 8).testBit 0 then (.error (acc + 1, 0), s2)
      else if dirBad (leAt b 0 8) then (.error (acc + 2, 0), s2)
      else (.ok (ioPage (leAt b 0 8)), s2)

/-- A directory through `n` levels above the leaf: the page of the leaf. `idx` gives the index at a level, `at_` the
address in memory of an entry. -/
def State.dirWalk (acc bad : Nat) (idx : Nat → Nat) (at_ : State → Nat → Except IoErr Nat × State) :
    Nat → State → Nat → Except IoErr Nat × State
  | 0, s, a => (.ok a, s)
  | n + 1, s, a =>
    match State.dirEntry acc bad (fun t => at_ t (a + idx n * 8)) s with
    | (.error e, s1) => (.error e, s1)
    | (.ok p, s1) => State.dirWalk acc bad idx at_ n s1 p

/-! ### Page tables -/

/-- The page table entry is invalid, or has reserved bits set (page-based memory types are not offered). -/
def pteBad (p : Nat) : Bool := !p.testBit 0 || (!p.testBit 1 && p.testBit 2) || p / 2 ^ 54 % 2 ^ 9 != 0

/-- A pointer to the next table has none of D, A, U and N. -/
def ptePointerBad (p : Nat) : Bool := p.testBit 4 || p.testBit 6 || p.testBit 7 || p.testBit 63

/-- The size of the page of a leaf at level `i`, or none where the leaf is misaligned: a contiguous range of 64 KiB has
N set and the low bits of its page number 8. -/
def pteSize (p i : Nat) : Option Nat :=
  if p.testBit 63 then (if i = 0 ∧ p / 2 ^ 10 % 16 = 8 then some 16 else none)
  else if p / 2 ^ 10 % 2 ^ (9 * i) = 0 then some (12 + 9 * i) else none

/-- A walk of one stage: its page fault, its access fault, whether A and D are updated, whether the access writes, and
the address. -/
structure IoStage where
  pf : IoErr
  acc : Nat
  ade : Bool
  write : Bool
  va : Nat

/-- The leaf of a walk: permission as a user access, A and D (updated in memory where the context says so). `at` gives
the address of the entry for a write. -/
def State.ptLeaf (x : IoStage) (at_ : State → Except IoErr Nat × State) (s : State) (p i : Nat) :
    Except IoErr IoLeaf × State :=
  let dirty := p.testBit 7 || x.write
  let old := p.testBit 6 && (p.testBit 7 || !x.write)
  let leaf := fun (n : Nat) => (⟨ioPage p / 2 ^ n * 2 ^ n + x.va % 2 ^ n, n, p.testBit 1, p.testBit 2 && dirty, p.testBit 5⟩ : IoLeaf)
  match pteSize p i with
  | none => (.error x.pf, s)
  | some n =>
    if !p.testBit 4 || !(if x.write then p.testBit 2 else p.testBit 1) then (.error x.pf, s)
    else if old then (.ok (leaf n), s)
    else if !x.ade then (.error x.pf, s)
    else
      match at_ s with
      | (.error e, s1) => (.error e, s1)
      | (.ok a, s1) => (.ok (leaf n), s1.putBytes a (natLE 8 (p ||| 2 ^ 6 ||| (if x.write then 2 ^ 7 else 0))))

/-- The entry of a walk, whose place `at_` gives for a read: valid, and a pointer (`true`) or a leaf. -/
def State.ptEntry (x : IoStage) (at_ : State → Except IoErr Nat × State) (s : State) : Except IoErr (Nat × Bool) × State :=
  match at_ s with
  | (.error f, s1) => (.error f, s1)
  | (.ok a, s1) =>
    match s1.tableRead a 8 x.acc 274 with
    | (.error f, s2) => (.error f, s2)
    | (.ok b, s2) =>
      let p := leAt b 0 8
      let pointer := p / 2 % 8 == 0
      if pteBad p || (pointer && ptePointerBad p) then (.error x.pf, s2) else (.ok (p, pointer), s2)

/-- A walk from level `i`: `idx` gives the index at a level, `at_` the address in memory of an entry, for a read or a
write of it. -/
def State.ptWalk (x : IoStage) (idx : Nat → Nat) (at_ : State → Nat → Bool → Except IoErr Nat × State) :
    Nat → State → Nat → Except IoErr IoLeaf × State
  | 0, s, _ => (.error x.pf, s)
  | i + 1, s, base =>
    match State.ptEntry x (fun t => at_ t (base + idx i * 8) false) s with
    | (.error f, s1) => (.error f, s1)
    | (.ok (p, true), s1) => State.ptWalk x idx at_ i s1 (ioPage p)
    | (.ok (p, false), s1) => State.ptLeaf x (fun t => at_ t (base + idx i * 8) true) s1 p i

/-- The levels of a page table mode: three to five (Sv39 to Sv57, and their x4 forms). -/
def ioLevels (mode : Nat) : Nat := mode - 5

/-- The G-stage of a guest physical address; Bare passes it. `pf`: the guest page fault of the access. -/
def State.gStage (s : State) (gatp : Nat) (ade write : Bool) (acc : Nat) (pf : IoErr) (gpa : Nat) :
    Except IoErr IoLeaf × State :=
  let mode := gatp / 2 ^ 60
  let n := ioLevels mode
  if mode = 0 then (.ok ⟨gpa, 64, true, true, false⟩, s)
  else if 2 ^ (14 + 9 * n) ≤ gpa then (.error pf, s)
  else State.ptWalk ⟨pf, acc, ade, write, gpa⟩ (fun i => gpa / 2 ^ (12 + 9 * i) % 2 ^ (if i + 1 = n then 11 else 9))
    (fun t a _ => (.ok a, t)) n s (gatp % 2 ^ 44 * 4096)

/-- What a function's device context says (in base format): translation control, `iohgatp`, the `ta` and `fsc` words. -/
structure IoCtx where
  tc : Nat
  gatp : Nat
  ta : Nat
  fsc : Nat

/-- An access as the IOMMU sees it. -/
structure IoAccess where
  pasid : Option Nat
  iova : Nat
  write : Bool

def IoAccess.acc (x : IoAccess) : Nat := if x.write then 7 else 5
def IoAccess.pageFault (x : IoAccess) : Nat := if x.write then 15 else 13
def IoAccess.guestFault (x : IoAccess) : Nat := if x.write then 23 else 21

/-- A guest physical address that the translation itself uses, of a process directory or of a first-stage table; a fault
names it in `iotval2`, with bit 0 for an implicit access and bit 1 for a write. -/
def State.gImplicit (c : IoCtx) (x : IoAccess) (s : State) (gpa : Nat) (write : Bool) : Except IoErr Nat × State :=
  match s.gStage c.gatp (c.tc.testBit 7) write x.acc (x.guestFault, gpa / 4 * 4 + 1 + (if write then 2 else 0)) gpa with
  | (.error e, s1) => (.error e, s1)
  | (.ok l, s1) => (.ok l.out, s1)

/-- Is a first-stage mode one that the device has? -/
def stageModeOk (fsc : Nat) : Bool := [0, 8, 9, 10].contains (fsc / 2 ^ 60) && fsc / 2 ^ 44 % 2 ^ 16 == 0

/-- Is a device context configured as the features of R445 allow? -/
def IoCtx.ok (c : IoCtx) : Bool :=
  c.tc / 2 ^ 12 == 0 && !c.tc.testBit 1 && !c.tc.testBit 2 && !c.tc.testBit 3 && !c.tc.testBit 6 && !c.tc.testBit 10 &&
  !c.tc.testBit 11 && (c.tc.testBit 5 || !c.tc.testBit 9) &&
  [0, 8, 9, 10].contains (c.gatp / 2 ^ 60) && (c.gatp / 2 ^ 60 == 0 || c.gatp % 4 == 0) &&
  c.ta % 2 ^ 12 == 0 && c.ta / 2 ^ 32 == 0 &&
  (if c.tc.testBit 5 then decide (c.fsc / 2 ^ 60 ≤ 3) && c.fsc / 2 ^ 44 % 2 ^ 16 == 0 else stageModeOk c.fsc)

/-- The first-stage root and PSCID of an access: those of its device context, or of the context of its process; an access
that names no process has no first stage where the device has processes and no default one. -/
def State.ioProcess (c : IoCtx) (x : IoAccess) (s : State) : Except IoErr (Nat × Nat) × State :=
  let mode := c.fsc / 2 ^ 60
  if !c.tc.testBit 5 then
    if x.pasid.isSome then (.error (260, 0), s) else (.ok (c.fsc, c.ta / 2 ^ 12 % 2 ^ 20), s)
  else
    match x.pasid.or (if c.tc.testBit 9 then some 0 else none) with
    | none => (.ok (0, 0), s)
    | some pid =>
      if mode = 0 then (.ok (0, 0), s)
      else if 2 ^ (if mode = 1 then 8 else if mode = 2 then 17 else 20) ≤ pid then (.error (260, 0), s)
      else
        match State.dirWalk 265 269 (fun n => pid / 2 ^ (8 + 9 * n) % 2 ^ 9) (fun t a => State.gImplicit c x t a false)
            (mode - 1) s (c.fsc % 2 ^ 44 * 4096) with
        | (.error e, s1) => (.error e, s1)
        | (.ok a, s1) =>
          match State.gImplicit c x s1 (a + pid % 2 ^ 8 * 16) false with
          | (.error e, s2) => (.error e, s2)
          | (.ok pa, s2) =>
            match s2.tableRead pa 16 265 269 with
            | (.error e, s3) => (.error e, s3)
            | (.ok b, s3) =>
              let ta := leAt b 0 8
              let fsc := leAt b 8 8
              if !ta.testBit 0 then (.error (266, 0), s3)
              else if ta / 2 ^ 3 % 2 ^ 9 ≠ 0 ∨ ta / 2 ^ 32 ≠ 0 ∨ !stageModeOk fsc then (.error (267, 0), s3)
              else (.ok (fsc, ta / 2 ^ 12 % 2 ^ 20), s3)

/-- The first stage of an access; Bare passes the address. Bits above the mode's width must equal the highest bit. -/
def State.firstStage (c : IoCtx) (x : IoAccess) (fsc : Nat) (s : State) : Except IoErr IoLeaf × State :=
  let n := ioLevels (fsc / 2 ^ 60)
  let top := x.iova / 2 ^ (11 + 9 * n)
  if fsc / 2 ^ 60 = 0 then (.ok ⟨x.iova, 64, true, true, false⟩, s)
  else if top ≠ 0 ∧ top ≠ 2 ^ (53 - 9 * n) - 1 then (.error (x.pageFault, 0), s)
  else State.ptWalk ⟨(x.pageFault, 0), x.acc, c.tc.testBit 8, x.write, x.iova⟩ (fun i => x.iova / 2 ^ (12 + 9 * i) % 2 ^ 9)
    (State.gImplicit c x) n s (fsc % 2 ^ 44 * 4096)

/-! ### The IOTLB (R445) -/

abbrev iotlbSize : Nat := 16384

/-- The entries that translate an access: those of its tables and address spaces which cover its address and permit it. -/
def State.iotlbHits (s : State) (c : IoCtx) (root : Nat × Nat) (x : IoAccess) : List IotlbEntry :=
  s.pcie.iotlb.filter fun (e : IotlbEntry) => e.gatp == c.gatp && e.fsc == root.1 && e.pscid == root.2 &&
    x.iova / 2 ^ min e.vLog2 e.gLog2 == e.va / 2 ^ min e.vLog2 e.gLog2 && (if x.write then e.w else e.r)

/-- A translation enters the IOTLB; a full one gives up an entry, and the manual does not say which. -/
def State.iotlbFill (s : State) (e : IotlbEntry) : State :=
  if s.pcie.iotlb.contains e then s
  else if s.pcie.iotlb.length < iotlbSize then s.withPcie { s.pcie with iotlb := s.pcie.iotlb ++ [e] }
  else
    let (v, s1) := s.takeFree
    s1.withPcie { s1.pcie with iotlb := s1.pcie.iotlb.eraseIdx (v.toNat % iotlbSize) ++ [e] }

/-- The two stages of an access whose contexts are found, from the tables. -/
def State.ioStages (c : IoCtx) (root : Nat × Nat) (x : IoAccess) (s : State) : Except IoErr Nat × State :=
  match State.firstStage c x root.1 s with
  | (.error e, s1) => (.error e, s1)
  | (.ok v, s1) =>
    match s1.gStage c.gatp (c.tc.testBit 7) x.write x.acc (x.guestFault, v.out / 4 * 4) v.out with
    | (.error e, s2) => (.error e, s2)
    | (.ok g, s2) =>
      (.ok g.out, s2.iotlbFill ⟨c.gatp, root.1, root.2, x.iova, v.out, g.out, v.log2, g.log2, v.r && g.r, v.w && g.w, v.glob⟩)

/-- An access whose device context is found: through the IOTLB or the tables. Whether the IOTLB still holds an entry, and
which of several it uses, the manual does not say: a free choice. -/
def State.ioTranslate (c : IoCtx) (x : IoAccess) (s : State) : Except IoErr Nat × State :=
  match State.ioProcess c x s with
  | (.error e, s1) => (.error e, s1)
  | (.ok root, s1) =>
    if root.1 / 2 ^ 60 = 0 ∧ c.gatp / 2 ^ 60 = 0 then (.ok x.iova, s1)
    else
      let hits := s1.iotlbHits c root x
      if hits.isEmpty then State.ioStages c root x s1
      else
        let (v, s2) := s1.takeFree
        match hits[v.toNat / 2 % hits.length]? with
        | some e =>
          let n := min e.vLog2 e.gLog2
          if bitAt v 0 then (.ok (e.out / 2 ^ n * 2 ^ n + x.iova % 2 ^ n), s2)
          else State.ioStages c root x s2
        | none => State.ioStages c root x s2

/-- The causes whose record `DTF` does not withhold. -/
def ioAlways (cause : Nat) : Bool := [256, 257, 258, 259, 268].contains cause

/-- The bus address of an access of device `f`, unchanged in Bare; or the cause and `iotval2` of its fault, and whether
the fault queue gets a record. -/
def State.iommuOut (s : State) (f : Nat) (pasid : Option Nat) (iova : Nat) (write : Bool) :
    Except (IoErr × Bool) Nat × State :=
  let mode := s.get F.MEM_IOMMU_DDTP_MODE
  if mode = 1 then (.ok iova, s)
  else if mode = 0 then (.error ((256, 0), true), s)
  else if 2 ^ (if mode = 3 then 16 else 24) ≤ f then (.error ((260, 0), true), s)
  else
    match State.dirWalk 257 268 (fun n => f / 2 ^ (7 + 9 * n) % 2 ^ 9) (fun t a => (.ok a, t)) (mode - 2) s
        (s.get F.MEM_IOMMU_DDTP_PPN * 4096) with
    | (.error e, s1) => (.error (e, true), s1)
    | (.ok a, s1) =>
      match s1.tableRead (a + f % 2 ^ 7 * 32) 32 257 268 with
      | (.error e, s2) => (.error (e, true), s2)
      | (.ok b, s2) =>
        let c : IoCtx := ⟨leAt b 0 8, leAt b 8 8, leAt b 16 8, leAt b 24 8⟩
        if !c.tc.testBit 0 then (.error ((258, 0), true), s2)
        else if !c.ok then (.error ((259, 0), true), s2)
        else
          match State.ioTranslate c ⟨pasid, iova, write⟩ s2 with
          | (.error e, s3) => (.error (e, !c.tc.testBit 4 || ioAlways e.1), s3)
          | (.ok o, s3) => (.ok o, s3)

/-! ### Invalidation (R446, R448) -/

/-- `IOTINVAL.VMA`: the entries with a first stage that the command names, by its address space, process and address; a
global one stays where a process is named. -/
def State.iotlbDropVma (s : State) (gscid : Option Nat) (pscid va : Option Nat) : State :=
  s.withPcie { s.pcie with iotlb := s.pcie.iotlb.filter fun (e : IotlbEntry) =>
    !(e.fsc / 2 ^ 60 != 0 && (match gscid with
        | some g => e.gatp / 2 ^ 60 != 0 && e.gatp / 2 ^ 44 % 2 ^ 16 == g
        | none => e.gatp / 2 ^ 60 == 0) &&
      (match pscid with | some p => e.pscid == p && !e.glob | none => true) &&
      (match va with | some a => a / 2 ^ e.vLog2 == e.va / 2 ^ e.vLog2 | none => true)) }

/-- `IOTINVAL.GVMA`: the entries with a G-stage that the command names, by its address space and guest address. -/
def State.iotlbDropGvma (s : State) (gscid gpa : Option Nat) : State :=
  s.withPcie { s.pcie with iotlb := s.pcie.iotlb.filter fun (e : IotlbEntry) =>
    !(e.gatp / 2 ^ 60 != 0 && (match gscid with
        | some g => e.gatp / 2 ^ 44 % 2 ^ 16 == g &&
          (match gpa with | some a => a / 2 ^ e.gLog2 == e.gpa / 2 ^ e.gLog2 | none => true)
        | none => true)) }

end Sys2Proof.Machine
end

