-- ==== Sys2Proof/Machine/Dma.lean ====
section
/-! DEFINITION. DMA toward host memory: errors reported through AER, the IOMMU, tags and completion
timeouts (R412 to R416, R423, R445, R446). -/

namespace Sys2Proof.Machine

/-! ### AER (R423, Table 15-16) -/

abbrev aerPoisoned : Nat := 12
abbrev aerTimeout : Nat := 14
abbrev aerUnexpected : Nat := 16
abbrev aerUnsupported : Nat := 20
abbrev aerInternal : Nat := 22
abbrev aerIde : Nat := 28

/-- The registers of the Header Log, which in FLIT mode has fourteen words (PRESUMED, the PCIe Base Specification). -/
def headerLog : List Nat := [0x11C, 0x120, 0x124, 0x128, 0x138, 0x13C, 0x140, 0x144, 0x148, 0x14C, 0x150, 0x154, 0x158, 0x15C]

/-- The conditions that concern a TLP that came in, whose header is logged. -/
def aerLogged (bit : Nat) : Bool := bit == aerPoisoned || bit == aerUnexpected || bit == aerUnsupported || bit == aerIde

/-- The header of a TLP is logged in the FLIT-mode format: its words, which no row carries, are free, and so is its size;
bit 18 says FLIT mode (R423; PRESUMED, log entry 154). -/
def State.logHeader (s : State) (f : Nat) : State :=
  let (n, s1) := s.takeFree
  let s2 := headerLog.foldl (fun (s : State) o =>
    let (v, t) := s.takeFree
    t.setCfg f o (v.toNat % 2 ^ 32)) s1
  s2.setCfg f 0x118 (s2.cfg f 0x118 % 2 ^ 18 + 2 ^ 18 + n.toNat % 15 * 2 ^ 19)

/-- A function reports an uncorrectable error, by bit: at its severity, or as an advisory non-fatal
error signalled as correctable. The First Error Pointer names the first unmasked one, whose header is logged. -/
def State.aer (s : State) (f bit : Nat) (advisory : Bool) : State :=
  let fatal := (s.cfg f 0x10C).testBit bit
  let masked := (s.cfg f 0x108).testBit bit
  let first := s.cfg f 0x104 &&& (2 ^ 32 - 1 - s.cfg f 0x108) == 0
  let s0 := if first && !masked && aerLogged bit then s.logHeader f else s
  let s1 := if first && !masked then s0.setCfg f 0x118 (s0.cfg f 0x118 / 32 * 32 + bit) else s0
  let s2 := (s1.orCfg f 0x104 (2 ^ bit)).orCfg f 0x68 (if bit = aerUnsupported then 2 ^ 19 else 0)
  if advisory && !fatal then
    let s3 := (s2.orCfg f 0x110 (2 ^ 13)).orCfg f 0x68 (2 ^ 16)
    if !(s.cfg f 0x114).testBit 13 && (s.cfg f 0x68).testBit 0 then s3.emit (.errMessage f 0) else s3
  else
    let s3 := s2.orCfg f 0x68 (if fatal then 2 ^ 18 else 2 ^ 17)
    if !masked && (s.cfg f 0x68).testBit (if fatal then 2 else 1) then s3.emit (.errMessage f (if fatal then 2 else 1)) else s3

/-- A corrected error of the host interface's own state, reported as Corrected Internal Error (Table 15-16). -/
def State.aerCorrected (s : State) (f : Nat) : State :=
  let s1 := (s.orCfg f 0x110 (2 ^ 14)).orCfg f 0x68 (2 ^ 16)
  if !(s.cfg f 0x114).testBit 14 && (s.cfg f 0x68).testBit 0 then s1.emit (.errMessage f 0) else s1

/-- A condition of the host endpoint, by code 0x05 to 0x0E, with its context (Table 15-20). -/
def State.hifFault (s : State) (cond fn detail : Nat) : State :=
  s.fault uHif cond (cond - 1) (fnPort fn * 2 ^ 31 + fnLink (s.get (F.HIF_PORT_STATUS_BIF (fnPort fn))) fn * 2 ^ 28 +
    fn * 2 ^ 16 + detail % 2 ^ 16)

/-! ### TDIs (R421, R422) -/

def State.tdi (s : State) (f : Nat) : Nat := spGet (fun _ => 0) s.pcie.tdi f
def State.setTdi (s : State) (f v : Nat) : State :=
  s.withPcie { s.pcie with tdi := spSet (fun _ => 0) s.pcie.tdi f v }

/-- In CONFIG_LOCKED or RUN? -/
def State.tdiLocked (s : State) (f : Nat) : Bool := s.tdi f == 1 || s.tdi f == 2

/-- An event of R422: a locked TDI enters ERROR, and its DMA stops (`dmaAllowed`). -/
def State.tdiError (s : State) (f : Nat) : State :=
  if s.tdiLocked f then (s.setTdi f 3).hifFault 0x0D f 0 else s

/-- The pavilion group of a TDI left RUNNING. -/
def State.tdiGroupLeft (s : State) (g : Nat) : State :=
  ((spKeys s.pcie.tdi).filter fun f => fnPersonality s.plan f == 1 && fnPavGroup s.plan f == g).foldl State.tdiError s

/-! ### Tags (R392, R414) -/

/-- The PF whose registers control how a function issues requests: its own, or a VF's PF (PRESUMED, the PCIe Base
Specification). -/
def pfOf (f : Nat) : Nat := f / 1024 * 1024

/-- The tags that a function may use, as the host has enabled them: 14 bits, 10 bits, 8 bits, or the 5 bits that need
no enabling (R392; PRESUMED, the PCIe Base Specification). -/
def State.tagCount (s : State) (f : Nat) : Nat :=
  if (s.cfg (pfOf f) 0x2C8).testBit 2 then 8192
  else if (s.cfg (pfOf f) 0x88).testBit 12 then 768
  else if (s.cfg (pfOf f) 0x68).testBit 8 then 256 else 32

def State.tagBusy (s : State) (port tag : Nat) : Bool :=
  s.pcie.reqs.any (fun (r : HostReq) => r.port == port && r.tag == tag) || s.pcie.quarantine.contains (port, tag)

/-- A free tag for a function, if there is one: the spec does not say which; the search starts at a free value. -/
def State.pickTag (s : State) (f : Nat) : Option Nat × State :=
  let (v, s1) := s.takeFree
  let n := s.tagCount f
  (((List.range n).map fun i => (v.toNat + i) % n).find? fun t => !s.tagBusy (fnPort f) t, s1)

/-- Must a host read of a function wait: the host interface is in Hold (R425), no tag is free (R414), or the function is
STRICT and an older read of it is outstanding (R408)? -/
def State.dmaWaits (s : State) (f : Nat) : Bool :=
  s.epHeld (hifEp f) || (s.pcie.reqs != [] || s.pcie.quarantine != []) && (List.range (s.tagCount f)).all (s.tagBusy (fnPort f)) ||
  fnStrict s.plan f && s.pcie.reqs.any fun (r : HostReq) => r.fn == f

def State.setQuarantine (s : State) (l : List (Nat × Nat)) : State :=
  let s1 := s.withPcie { s.pcie with quarantine := l }
  (List.range 2).foldl (fun (s : State) k =>
    s.set (F.HIF_PORT_QUAR_TAGS_COUNT k) ((l.filter fun x => x.1 == k).length)) s1

/-- A request of function `f` with tag `tag` times out (R414). -/
def State.requestTimeout (s : State) (f tag : Nat) : State :=
  let s1 := s.setQuarantine (s.pcie.quarantine ++ [(fnPort f, tag)])
  ((s1.count F.HIF_CPL_TIMEOUT_COUNT_COUNT).hifFault 0x07 f tag).aer f aerTimeout false

/-- A completion delivers poisoned data to function `f` (R416). -/
def State.poisonedCompletion (s : State) (f : Nat) : State :=
  ((s.count F.HIF_POISON_RX_COUNT_COUNT).hifFault 0x0A f 0).aer f aerPoisoned true

/-- The effects of the end of a read on the host interface. -/
def State.dmaEnded (s : State) (f : Nat) (e : DmaEnd) : State :=
  match e with
  | .ok => s
  | .refused => s
  | .poison => s.poisonedCompletion f
  | .timeout =>
    let (t, s1) := s.pickTag f
    s1.requestTimeout f (t.getD 0)

/-! ### The IOMMU (R445, R446) -/

/-- The 32 bytes of a fault record: an untranslated access of device `f`. -/
def faultRecord (e : IoErr) (f : Nat) (pasid : Option Nat) (iova : Nat) (write : Bool) : List Byte :=
  natLE 8 (e.1 % 4096 + (match pasid with | some p => p % 2 ^ 20 * 2 ^ 12 + 2 ^ 32 | none => 0) +
    (if write then 3 else 2) * 2 ^ 34 + f * 2 ^ 40) ++ natLE 8 0 ++ natLE 8 iova ++ natLE 8 e.2

/-- Hart and file of an address in the IMSIC files: file 8 M-level, 0 S-level, 1 to 7 guest. -/
def imsicPlace (a : Nat) : Option (Nat × Nat) :=
  if 0x0E0010000000 ≤ a ∧ a < 0x0E0010000000 + 0x1000 * 96 then some ((a - 0x0E0010000000) / 0x1000, 8)
  else if 0x0E0020000000 ≤ a ∧ a < 0x0E0020000000 + 0x8000 * 96 then
    some ((a - 0x0E0020000000) / 0x8000, (a - 0x0E0020000000) / 0x1000 % 8)
  else none

/-- One MSI of the IOMMU through its MSI configuration table: to an interrupt file, or four bytes to memory of TD 0; any
other address is refused (R431). -/
def State.iommuMsi (s : State) (vec : Nat) : State :=
  let a := s.get (F.MEM_IOMMU_MSI_ADDR_ADDR vec) * 4
  let v := s.get (F.MEM_IOMMU_MSI_DATA_DATA vec)
  if s.get (F.MEM_IOMMU_MSI_DATA_MASK vec) = 1 then s
  else
    match imsicPlace a with
    | some (h, f) => if a % 0x1000 = 0 then s.withAia { s.aia with msis := s.aia.msis ++ [(h, f, v)] } else s
    | none => if s.operatorReaches a 4 then s.putBytes a (natLE 4 v) else s.partViolation a

/-- A condition of the fault queue, by its status bit, with its interrupt. -/
def State.iommuFqFlag (s : State) (bit : Fld) : State :=
  let s1 := s.set bit 1
  if s1.get F.MEM_IOMMU_CSR_FIE = 1 ∧ s1.get F.MEM_IOMMU_IPSR_FIP = 0 then
    (s1.set F.MEM_IOMMU_IPSR_FIP 1).iommuMsi (s1.get F.MEM_IOMMU_ICVEC_FIV)
  else s1

/-- A fault: its record is written to the fault queue, or discarded when it is full or lies outside TD 0 (R431, R434,
R446); `e.2`: the context asks for a record. -/
def State.iommuFault (s : State) (f : Nat) (pasid : Option Nat) (iova : Nat) (write : Bool) (e : IoErr × Bool) : State :=
  let s1 := s.fault uMem 0x05 4 (f % 2 ^ 32)
  let n := 2 ^ (s.get F.MEM_IOMMU_FQB_LOG2SZ + 1)
  let t := s.get F.MEM_IOMMU_FQP_FQT
  let a := s.get F.MEM_IOMMU_FQB_PPN * 4096 + 32 * t
  if !e.2 ∨ s.get F.MEM_IOMMU_CSR_FQON = 0 ∨ s.get F.MEM_IOMMU_CSR_FQMF = 1 then s1
  else if (t + 1) % n = s.get F.MEM_IOMMU_FQP_FQH then (s1.iommuFqFlag F.MEM_IOMMU_CSR_FQOF).fault uMem 0x06 5 0
  else if !s.operatorReaches a 32 then (s1.partViolation a).iommuFqFlag F.MEM_IOMMU_CSR_FQMF
  else
    let s2 := (s1.putBytes a (faultRecord e.1 f pasid iova write)).set F.MEM_IOMMU_FQP_FQT ((t + 1) % n)
    if s.get F.MEM_IOMMU_CSR_FIE = 1 ∧ s.get F.MEM_IOMMU_IPSR_FIP = 0 then
      (s2.set F.MEM_IOMMU_IPSR_FIP 1).iommuMsi (s.get F.MEM_IOMMU_ICVEC_FIV)
    else s2

/-- May a function's units issue DMA: Bus Master Enable set, and its TDI not in ERROR (R422)? -/
def State.dmaAllowed (s : State) (f : Nat) : Bool :=
  s.busMaster f && s.tdi f != 3

/-! ### Attributes of requests (R408, R412, R422) -/

/-- The attributes of a request of function `f`: `data` where Relaxed Ordering may be set. In RUN it travels on the
TDI's stream with the T bit. -/
def State.tlpAttr (s : State) (f : Nat) (pasid : Option Nat) (data translated : Bool) : TlpAttr :=
  let free := !fnStrict s.plan f
  { pasid := pasid, translated := translated, relaxed := free && data && (s.cfg (pfOf f) 0x68).testBit 4,
    idOrder := free && (s.cfg (pfOf f) 0x88).testBit 8,
    stream := if s.tdi f = 2 then some (spGet (fun _ => 0) s.pcie.tdiStream f - 1) else none }

/-! ### ATS (R412) -/

/-- Has the host enabled ATS for a function? -/
def State.atsOn (s : State) (f : Nat) : Bool := (s.cfg f 0x2F4).testBit 31

/-- The cached translation of an address for a function and PASID. -/
def State.atsFind (s : State) (f : Nat) (pasid : Option Nat) (a : Nat) : Option AtsEntry :=
  if s.atsOn f then
    s.pcie.ats.find? fun (e : AtsEntry) => e.fn == f && e.pasid == pasid && a / 2 ^ e.log2 == e.base / 2 ^ e.log2
  else none

/-- The address that goes out for a bus address, and whether it is translated: a cached translation that does not grant
the access is not used. -/
def State.atsOut (s : State) (f : Nat) (pasid : Option Nat) (write : Bool) (a : Nat) : Nat × Bool :=
  match s.atsFind f pasid a with
  | none => (a, false)
  | some e => if (if write then e.w else e.r) then (e.addr + a % 2 ^ e.log2, true) else (a, false)

/-- The queue number of a Translation Request. -/
abbrev atsQueue : Nat := 0x100001

/-- A Translation Request may be issued for an access whose translation is not cached, while a tag is free and the
cache of the port has room. The manual does not say when: a free choice. DESIGN CHOICE, log entry 103. -/
def State.atsAsk (s : State) (f : Nat) (pasid : Option Nat) (a : Nat) : State :=
  if !s.atsOn f ∨ (s.atsFind f pasid a).isSome ∨ s.dmaWaits f ∨
      8192 ≤ (s.pcie.ats.filter fun (e : AtsEntry) => fnPort e.fn == fnPort f).length then s
  else
    let (v, s1) := s.takeFree
    if !bitAt v 0 then s1
    else
      match s1.pickTag f with
      | (none, s2) => s2
      | (some t, s2) =>
        let page := a / 4096 * 4096
        let s3 := s2.l1Exit f
        (s3.withPcie { s3.pcie with
          reqs := s3.pcie.reqs ++ [(⟨fnPort f, t, f, page, 8, atsQueue, [], pasid⟩ : HostReq)] }).emit
            (.translationRequest (fnPort f) t f page (s3.tlpAttr f pasid false false))

/-- A translation as its completion carries it (PRESUMED, the PCIe Base Specification): the translated address from bit
12 on, the size S in bit 11 with the address bits below the first zero, U, W and R in bits 2 to 0. One for untranslated
accesses only is not cached. -/
def State.atsFill (s : State) (r : HostReq) : State :=
  let v := beAt r.got 0 8
  let ones := ((List.range 40).find? fun i => !v.testBit (12 + i)).getD 40
  let n := if v.testBit 11 then 13 + ones else 12
  if v.testBit 2 then s
  else
    s.withPcie { s.pcie with
      ats := s.pcie.ats ++ [(⟨r.fn, r.pasid, r.addr / 2 ^ n * 2 ^ n, n, v / 2 ^ n * 2 ^ n, v.testBit 0, v.testBit 1⟩ : AtsEntry)] }

/-- An Invalidation Request: every cached translation of the function and PASID that meets the range is dropped. -/
def State.atsDrop (s : State) (f : Nat) (pasid : Option Nat) (a log2 : Nat) : State :=
  s.withPcie { s.pcie with ats := s.pcie.ats.filter fun (e : AtsEntry) =>
    !(e.fn == f && e.pasid == pasid && decide (e.base < a + 2 ^ log2) && decide (a < e.base + 2 ^ e.log2)) }

/-- Every cached translation of a function is dropped. -/
def State.atsClear (s : State) (f : Nat) : State :=
  s.withPcie { s.pcie with ats := s.pcie.ats.filter fun (e : AtsEntry) => e.fn != f }

/-! ### DMA -/

/-- The pieces of a range that lie each in one page: address and length. -/
def dmaPieces (whole : Bool) : Nat → Nat → Nat → List (Nat × Nat)
  | 0, _, _ => []
  | fuel + 1, a, n =>
    let m := if whole then n else min n (4096 - a % 4096)
    if n = 0 then [] else (a, m) :: dmaPieces whole fuel (a + m) (n - m)

/-- The pieces of an access of `n` bytes of a function: one, where neither the IOMMU nor ATS translates. -/
def State.pieces (s : State) (f iova n : Nat) : List (Nat × Nat) :=
  dmaPieces (s.get F.MEM_IOMMU_DDTP_MODE == 1 && !s.atsOn f) (n / 4096 + 2) iova n

/-- The address of an access that goes out, through the IOMMU and the ATS cache, and whether it is translated by the
host; none after a fault, which is recorded (R412, R446). -/
def State.dmaOut (s : State) (f : Nat) (pasid : Option Nat) (iova : Nat) (write : Bool) : Option (Nat × Bool) × State :=
  match s.iommuOut f pasid iova write with
  | (.error e, s1) => (none, s1.iommuFault f pasid iova write e)
  | (.ok a, s1) =>
    let s2 := s1.atsAsk f pasid a
    (some (s2.atsOut f pasid write a), s2)

/-- Pieces of a read translated in turn: the addresses that go out, or none where one faults. -/
def State.dmaOuts (s : State) (f : Nat) (pasid : Option Nat) : List (Nat × Nat) → Option (List (Nat × Bool)) × State
  | [] => (some [], s)
  | (a, _) :: t =>
    match s.dmaOut f pasid a false with
    | (none, s1) => (none, s1)
    | (some o, s1) =>
      let (l, s2) := s1.dmaOuts f pasid t
      (l.map (o :: ·), s2)

/-- Pieces written in turn; the first that faults ends the write, those before it stand. `signal`: the write signals
completion of earlier ones (R408). -/
def State.writePieces (s : State) (f : Nat) (pasid : Option Nat) (signal : Bool) (data : List Byte) :
    List (Nat × Nat) → Bool × State
  | [] => (true, s)
  | (a, n) :: t =>
    match s.dmaOut f pasid a true with
    | (none, s1) => (false, s1)
    | (some (o, tr), s1) =>
      (s1.hostSend f (.hostWrite f o (data.take n) (s1.tlpAttr f pasid (!signal) tr))).writePieces f pasid signal (data.drop n) t

/-- A DMA write on behalf of function `f`: whether it has been issued. -/
def State.dmaWrite (s : State) (f : Nat) (pasid : Option Nat) (signal : Bool) (iova : Nat) (data : List Byte) : Bool × State :=
  if !s.dmaAllowed f then (false, s)
  else (s.l1Exit f).writePieces f pasid signal data (s.pieces f iova data.length)

/-- The translation of a read of `n` bytes: does it pass, and the state after it. -/
def State.readPass (s : State) (f : Nat) (pasid : Option Nat) (iova n : Nat) : Bool × State :=
  let (l, s1) := s.dmaOuts f pasid (s.pieces f iova n)
  (l.isSome, s1)

/-- A DMA read of `n` bytes on behalf of function `f`; `data` and `e` are what the host returns. The
answer: 0 with the bytes, 3 a DMA error, with the bytes of a poisoned completion (R416), 4 an IOMMU fault (R382). -/
def State.dmaRead (s : State) (f : Nat) (pasid : Option Nat) (iova n : Nat) (data : List Byte) (e : DmaEnd) :
    Nat × List Byte × State :=
  if !s.dmaAllowed f then (3, [], s)
  else
    let (pass, s0) := s.readPass f pasid iova n
    if !pass then (4, [], s0)
    else
      let s1 := s0.l1Exit f
      if e = .ok then (0, bytesAt data 0 n, s1)
      else (3, if e = .poison then bytesAt data 0 n else [], s1.dmaEnded f e)

/-! ### Operator-commanded reads (Table 16-3) -/

/-- Must an operator-commanded read wait for a tag of PF0's port? -/
def State.operatorWaits (s : State) (host : Bool) : Bool := host && s.dmaWaits 0

/-- An operator-commanded read of `n` bytes: of device memory, or of host memory through PF0, its IOMMU context and
its Bus Master Enable (R445). `none` on a memory error: an uncorrectable error, poisoned bytes, a refused range, or a
host read that fails. -/
def State.operatorRead (s : State) (a n : Nat) (host : Bool) (hostBytes : List Byte) (x : SrcRead) :
    Option (List Byte) × State :=
  if host then
    let (st, d, s1) := s.dmaRead 0 none a n hostBytes x.dma
    (if st = 0 then some d else none, s1)
  else if !s.operatorReaches a n then (none, s.partViolation a)
  else if x.ecc.bad || s.poisoned a n then (none, s.memRead x.ecc a)
  else (some (s.bytes a n), s.memRead x.ecc a)

end Sys2Proof.Machine
end

