-- ==== Sys2Proof/Machine/Emt.lean ====
section
/-! DEFINITION. Exact-match tables (08_exact_match.md): entries, the flow cache, the placement engine,
learning, ageing, DMA and redirects. -/

namespace Sys2Proof.Machine

/-! ### Entries (R208) -/

def emtAddr (p : Plan) (t b sl : Nat) : Nat := unitByteAddr p uEmt (emtBase p t + 256 * b + 64 * sl)
def State.emtEntry (s : State) (t b sl : Nat) : List Byte := s.bytes (emtAddr s.plan t b sl) 64
def State.emtBucket (s : State) (t b : Nat) : List Byte := s.bytes (emtAddr s.plan t b 0) 256

def eWord0 (e : List Byte) : Word := BitVec.ofNat 64 (leAt e 0 8)
def eValid (e : List Byte) : Bool := bitAt (eWord0 e) 63
def eLock (e : List Byte) : Bool := bitAt (eWord0 e) 62
def eStatic (e : List Byte) : Bool := bitAt (eWord0 e) 61
def eAct (e : List Byte) : Nat := bitsAt (eWord0 e) 47 32
def eCtx (e : List Byte) : Nat := bitsAt (eWord0 e) 23 0
def eKey (e : List Byte) : List Byte := bytesAt e 8 48
def eHit (e : List Byte) : Nat := leAt e 56 4

/-- The XOR of entry bytes 0 to 62 (Table 8-2). -/
def ePar (e : List Byte) : Byte := (e.take 63).foldl (fun a b => a ^^^ b) 0
def eParOk (e : List Byte) : Bool := ePar e == e.getD 63 0

/-- The entry with `PAR` computed. -/
def eSeal (e : List Byte) : List Byte := e.take 63 ++ [ePar e]

/-- The entry with bytes replaced and `PAR` moved by the same change, so that a parity error stays one. -/
def ePatch (e : List Byte) (o : Nat) (new : List Byte) : List Byte :=
  let f := bytesPut e o new
  f.take 63 ++ [e.getD 63 0 ^^^ ePar e ^^^ ePar f]

/-- An entry from its fields. -/
def eMake (valid static learned : Bool) (act ctx : Nat) (key : List Byte) (hit : Nat) : List Byte :=
  let w := (if valid then 2 ^ 63 else 0) + (if static then 2 ^ 61 else 0) + (if learned then 2 ^ 60 else 0) +
    act % 2 ^ 16 * 2 ^ 32 + ctx % 2 ^ 24
  eSeal (natLE 8 w ++ bytesAt key 0 48 ++ natLE 4 hit ++ natLE 4 0)

/-- TB0 ticks of 2²⁰ ns, modulo 2³² (Table 8-2). -/
def State.emtNow (s : State) : Nat := s.tbVal 0 / 2 ^ 64 % 2 ^ 32

/-- The key of a table: bytes from `KEY_LEN` on are zero. -/
def State.emtKey (s : State) (t : Nat) (key : List Byte) : List Byte :=
  bytesAt (key.take (emtKeyLen s.plan t)) 0 48

def emtHash (seed : Nat) (key : List Byte) : Nat := (crc32c (BitVec.ofNat 64 seed) key).toNat

/-- The hash of candidate A and the two candidate buckets of a key (R209). -/
def emtCands (p : Plan) (t : Nat) (key : List Byte) : Nat × Nat × Nat :=
  let k := key.take (emtKeyLen p t)
  let m := 2 ^ emtBucketsLog2 p t
  let ha := emtHash (emtSeedA p t) k
  let a := ha % m
  let b := emtHash (emtSeedB p t) k % m
  (ha, a, if a = b then a ^^^ 1 else b)

def State.emtLocked (s : State) (t b : Nat) : Bool := eLock (s.emtEntry t b 0)

/-! ### The flow cache (R211, R212) -/

def emtSet (ha t : Nat) : Nat := (ha + 521 * t) % 32768
def State.emtWays (s : State) (i : Nat) : List EmtWay := spGet (fun _ => []) s.emt.cache i
def State.setWays (s : State) (i : Nat) (l : List EmtWay) : State :=
  s.withEmt { s.emt with cache := spSet (fun _ => []) s.emt.cache i l }

/-- The cached copy of an entry, if there is one. -/
def State.emtCached (s : State) (t b sl : Nat) : Option EmtWay :=
  (s.emt.cache.flatMap Prod.snd).find? fun w => w.table == t && w.bucket == b && w.slot == sl

/-- The cached copies of an entry are invalidated: its bucket has changed (R211). -/
def State.emtUncache (s : State) (t b sl : Nat) : State :=
  match s.emt.cache.find? fun x => x.2.any fun w => w.table == t && w.bucket == b && w.slot == sl with
  | some (i, l) => s.setWays i (l.filter fun w => !(w.table == t && w.bucket == b && w.slot == sl))
  | none => s

/-- The newest time of the last hit of an entry, from cache or memory. -/
def State.emtNewest (s : State) (t b sl : Nat) : Nat :=
  match s.emtCached t b sl with
  | some w => w.hit
  | none => eHit (s.emtEntry t b sl)

/-- The cached time of an entry goes back to memory; a locked bucket discards it (R212). -/
def State.emtTimeBack (s : State) (t b sl hit : Nat) : State :=
  if s.emtLocked t b then s.count F.EMT_TS_DROP_COUNT
  else s.putBytes (emtAddr s.plan t b sl) (ePatch (s.emtEntry t b sl) 56 (natLE 4 hit))

def State.emtSyncTime (s : State) (t b sl : Nat) : State :=
  match s.emtCached t b sl with
  | some w => if w.hit = eHit (s.emtEntry t b sl) then s else s.emtTimeBack t b sl w.hit
  | none => s

/-- The cache takes an entry, replacing the least recently hit way of a full set (R211, R212). -/
def State.emtFill (s : State) (ha : Nat) (w : EmtWay) : State :=
  let i := emtSet ha w.table
  let l := s.emtWays i
  match decide (16 ≤ l.length), l.getLast? with
  | true, some old => (s.emtTimeBack old.table old.bucket old.slot old.hit).setWays i (w :: l.dropLast)
  | _, _ => s.setWays i (w :: l)

/-! ### Changes of table memory (R213) -/

/-- One entry replaced: `LOCK` of slot 0 kept and `LOCK` elsewhere zero, `PAR` computed, cached
copies invalidated, the count of valid entries kept. -/
def State.emtPut (s : State) (t b sl : Nat) (e : List Byte) : State :=
  let old := s.emtEntry t b sl
  let w := setBit (eWord0 e) 62 (sl == 0 && eLock old)
  let e1 := eSeal (bytesPut e 0 (natLE 8 w.toNat))
  let s1 := (s.emtUncache t b sl).putBytes (emtAddr s.plan t b sl) e1
  if eValid e && !eValid old then s1.set (F.EMT_TBL_COUNT_COUNT t) (s1.get (F.EMT_TBL_COUNT_COUNT t) + 1)
  else if !eValid e && eValid old then s1.set (F.EMT_TBL_COUNT_COUNT t) (s1.get (F.EMT_TBL_COUNT_COUNT t) - 1)
  else s1

/-- `VALID` of an entry cleared; the newest time stays with it. -/
def State.emtRemove (s : State) (t b sl : Nat) : State :=
  let hit := s.emtNewest t b sl
  let e := s.emtEntry t b sl
  s.emtPut t b sl (bytesPut (bytesPut e 0 (natLE 8 (setBit (eWord0 e) 63 false).toNat)) 56 (natLE 4 hit))

/-- `LOCK` of a bucket set or cleared, and the count of locked buckets (R218). -/
def State.emtSetLock (s : State) (t b : Nat) (lock : Bool) : State :=
  let e := s.emtEntry t b 0
  if eLock e = lock then s
  else
    let s1 := s.putBytes (emtAddr s.plan t b 0) (ePatch e 0 (natLE 8 (setBit (eWord0 e) 62 lock).toNat))
    s1.set F.EMT_LOCKED_COUNT_COUNT
      (if lock then s1.get F.EMT_LOCKED_COUNT_COUNT + 1 else s1.get F.EMT_LOCKED_COUNT_COUNT - 1)

/-- The slots of a bucket that may be written with a new entry: not valid, parity right (R214). -/
def State.emtFree (s : State) (t b : Nat) : List Nat :=
  (List.range 4).filter fun sl => !eValid (s.emtEntry t b sl) && eParOk (s.emtEntry t b sl)

/-! ### Faults, notifications, rehash -/

/-- The fields of `EMT_ERR_FIRST` (Table 8-9). -/
def emtExtra (t b sl : Nat) : Nat := t * 2 ^ 32 + b * 4 + sl

/-- An event to `EMT_NOTIFY_CFG` (R217); without a credit it is discarded and counted. -/
def State.emtNotify (s : State) (op t b sl ha ctx : Nat) : State :=
  if s.eventCredit 0x1A1 then
    s.send 0x1A1 ⟨hSets hZero [(CH.kind, kEvent), (CH.srcEp, 0x1A1), (CH.dstEp, s.get F.EMT_NOTIFY_CFG_EP),
      (CH.dstQueue, s.get F.EMT_NOTIFY_CFG_QUEUE), (CH.ctx, ctx), (CH.flowHash, ha),
      (CH.timeNs, s.timeNs 0), (CH.timeFrac, s.timeFrac 0), (CH.opcode, op),
      (CH.operand, t * 2 ^ 32 + b * 4 + sl)], [], false⟩
  else s.count F.EMT_NOTIFY_DROP_COUNT

def State.emtFails (s : State) (t : Nat) : Nat := spGet (fun _ => 0) s.emt.fails t
def State.setEmtFails (s : State) (t n : Nat) : State :=
  s.withEmt { s.emt with fails := spSet (fun _ => 0) s.emt.fails t n }

/-- The rehash request of a table (R219), once until its bit is cleared. It is looked for where a count rises, a placement
fails or a threshold is written: a bit cleared while the table stays full is set again at the next of these
(DESIGN CHOICE, log entry 120). -/
def State.emtRehash (s : State) (t : Nat) : State :=
  if (s.get F.EMT_REHASH_REQ_REQ).testBit t then s
  else if decide (s.get F.EMT_REHASH_CFG_FILL_PCT * (4 * 2 ^ emtBucketsLog2 s.plan t) <
      100 * s.get (F.EMT_TBL_COUNT_COUNT t)) || decide (s.get F.EMT_REHASH_CFG_FAIL_THRESH ≤ s.emtFails t) then
    let s1 := (s.wr R.EMT_REHASH_REQ (setBit (s.rd R.EMT_REHASH_REQ) t true)).fault uEmt 0x07 6 (emtExtra t 0 0)
    if s1.get (F.EMT_TBL_CFG_LEARN_NOTIFY t) = 1 then s1.emtNotify 0x0203 t 0 0 0 0 else s1
  else s

/-- The thresholds have been written: every present table is looked at (R219). -/
def State.emtRehashAll (s : State) : State :=
  (List.range 64).foldl (fun (s : State) t => if emtPresent s.plan t then s.emtRehash t else s) s

/-! ### Lookup (R210, R211) -/

/-- The target of lookups of a table (R220). -/
def State.emtActive (s : State) (t : Nat) : Nat := s.get (F.EMT_TBL_ACTIVE_TARGET t)

/-- A learn is queued for a miss, if the table learns (R215). -/
def State.emtQueueLearn (s : State) (named t : Nat) (key : List Byte) : State :=
  if s.get (F.EMT_TBL_CFG_LEARN_EN named) = 0 then s
  else if 1024 ≤ (s.emt.engine.filter fun o => match o with | .learn _ _ _ => true | _ => false).length then
    s.count F.EMT_LEARN_DROP_COUNT
  else s.withEmt { s.emt with engine := s.emt.engine ++ [.learn named t key] }

/-- A way that has been hit stands first in its set, with the time of the hit (R211, R212). -/
def State.emtTouch (s : State) (i : Nat) (w : EmtWay) : State :=
  s.setWays i ({ w with hit := s.emtNow } :: (s.emtWays i).filter fun v => !(v.table == w.table && v.key == w.key))

/-- The lookup of a packet's key: a cache hit answers at once; otherwise both buckets are read, as they
stand now. `ue`: the way that would answer has an uncorrectable error, so it is invalidated and the lookup goes on as
a miss (R211). -/
def State.emtLookup (s : State) (named : Nat) (key : List Byte) (ue : Bool) :
    State × Option (Nat × Nat) × Option EmtLookup :=
  let t := s.emtActive named
  let (ha, a, b) := emtCands s.plan t key
  let i := emtSet ha t
  let k := s.emtKey t key
  let miss := fun (s : State) => (s.wrapBy F.EMT_CACHE_MISSES_COUNT 1, none,
    some (⟨named, t, ha, a, b, s.emtBucket t a, s.emtBucket t b⟩ : EmtLookup))
  match (s.emtWays i).find? fun w => w.table == t && w.key == k with
  | some w =>
    if ue then miss (s.setWays i ((s.emtWays i).filter fun v => !(v.table == t && v.key == k)))
    else (((s.emtTouch i w).wrapBy F.EMT_CACHE_HITS_COUNT 1).wrapBy (F.EMT_TBL_HITS_COUNT t) 1, some (w.act, w.ctx), none)
  | none => miss s

/-- Does an entry of a table hold this key: are its first `KEY_LEN` bytes the key's (R210)? -/
def State.emtSame (s : State) (t : Nat) (e key : List Byte) : Bool :=
  (eKey e).take (emtKeyLen s.plan t) == key.take (emtKeyLen s.plan t)

/-- Does a slot hold a valid entry with right parity and this key now? -/
def State.emtHolds (s : State) (t b sl : Nat) (key : List Byte) : Bool :=
  let e := s.emtEntry t b sl
  eValid e && eParOk e && s.emtSame t e key

/-- The first valid entry with right parity and this key in the candidates (R210). -/
def State.emtFind (s : State) (t : Nat) (key : List Byte) (a b : Nat) : Option (Nat × Nat) :=
  ((List.range 4).map fun sl => (a, sl)) ++ ((List.range 4).map fun sl => (b, sl)) |>.find? fun (x, sl) =>
    s.emtHolds t x sl key

/-- The slots of a bucket as it was read: valid entries with wrong parity are counted and recorded, up
to the first match (R210). -/
def State.emtScanSlots (s : State) (t b : Nat) (key snap : List Byte) : List Nat → State × Option (Nat × List Byte)
  | [] => (s, none)
  | sl :: rest =>
    let e := bytesAt snap (64 * sl) 64
    if !eValid e then s.emtScanSlots t b key snap rest
    else if !eParOk e then
      ((s.count F.EMT_PARITY_COUNT_COUNT).fault uEmt 0x05 4 (emtExtra t b sl)).emtScanSlots t b key snap rest
    else if s.emtSame t e key then (s, some (sl, e))
    else s.emtScanSlots t b key snap rest

/-- Does the read of a bucket meet an uncorrectable error: now, or bytes marked by one before? -/
def State.emtReadBad (s : State) (t b : Nat) (ecc : EccResult) : Bool := ecc.bad || s.poisoned (emtAddr s.plan t b 0) 256

/-- A bucket read that meets one is recorded (R210). -/
def State.emtReadEnd (s : State) (t b : Nat) (ecc : EccResult) : State :=
  let s1 := s.memRead ecc (emtAddr s.plan t b 0)
  if s.emtReadBad t b ecc then s1.fault uEmt 0x06 5 (emtExtra t b 0) else s1

/-- The match in a bucket that was read; one read with an error contributes none (R210). -/
def State.emtMatch (s : State) (t b : Nat) (key snap : List Byte) (bad : Bool) : State × Option (Nat × List Byte) :=
  if bad then (s, none) else s.emtScanSlots t b key snap (List.range 4)

/-- A hit in memory: the entry, where it stands now, is cached with the time of the hit; an entry that is cached
already has its time set there and in memory (R211, R212). -/
def State.emtHbmHit (s : State) (l : EmtLookup) (key : List Byte) (b sl : Nat) : State :=
  match (if s.emtHolds l.table b sl key then some (b, sl) else s.emtFind l.table key l.bucketA l.bucketB) with
  | none => s
  | some (x, y) =>
    match s.emtCached l.table x y with
    | some w => (s.emtTouch (emtSet l.ha l.table) w).emtTimeBack l.table x y s.emtNow
    | none =>
      let e := s.emtEntry l.table x y
      s.emtFill l.ha ⟨l.table, key, x, y, eAct e, eCtx e, s.emtNow⟩

/-- Both bucket reads have returned: a hit fills the cache, a miss may queue a learn. -/
def State.emtReturn (s : State) (l : EmtLookup) (key : List Byte) (eccA eccB : EccResult) :
    State × Option (Nat × Nat) :=
  let k := s.emtKey l.table key
  let s0 := (s.emtReadEnd l.table l.bucketA eccA).emtReadEnd l.table l.bucketB eccB
  let (s1, ra) := s0.emtMatch l.table l.bucketA k l.snapA (s.emtReadBad l.table l.bucketA eccA)
  let (s2, r) := match ra with
    | some (sl, e) => (s1, some (l.bucketA, sl, e))
    | none =>
      let (s2, rb) := s1.emtMatch l.table l.bucketB k l.snapB (s.emtReadBad l.table l.bucketB eccB)
      (s2, rb.map fun (sl, e) => (l.bucketB, sl, e))
  match r with
  | some (b, sl, e) =>
    ((s2.wrapBy (F.EMT_TBL_HITS_COUNT l.table) 1).emtHbmHit l k b sl, some (eAct e, eCtx e))
  | none => ((s2.wrapBy (F.EMT_TBL_MISSES_COUNT l.table) 1).emtQueueLearn l.named l.table k, none)

/-! ### Placement (R214) -/

/-- The bucket and slot for a new key when a candidate has a free slot: more free slots, A on a tie,
lowest slot first. -/
def State.emtSpot (s : State) (t a b : Nat) : Option (Nat × Nat) :=
  let x := if (s.emtFree t b).length ≤ (s.emtFree t a).length then a else b
  (s.emtFree t x).head?.map fun sl => (x, sl)

/-- The other candidate of the entry in a slot. -/
def State.emtOther (s : State) (t b sl : Nat) : Nat :=
  let (_, a, c) := emtCands s.plan t (eKey (s.emtEntry t b sl))
  if b = a then c else a

/-- The displacement path from a bucket: moves (bucket, slot, other bucket), last move first. -/
def State.emtPath (s : State) (t : Nat) : Nat → Nat → List Nat → List (Nat × Nat × Nat) → Option (List (Nat × Nat × Nat))
  | 0, _, _, _ => none
  | n + 1, cur, seen, acc =>
    match (List.range 4).find? fun sl =>
      let e := s.emtEntry t cur sl
      let o := s.emtOther t cur sl
      eValid e && eParOk e && !s.emtLocked t o && !seen.contains o with
    | none => none
    | some sl =>
      let o := s.emtOther t cur sl
      if (s.emtFree t o).isEmpty then s.emtPath t n o (o :: seen) ((cur, sl, o) :: acc)
      else some ((cur, sl, o) :: acc)

/-- What placing a key can do now: a spot, a refusal for a locked bucket, moves first, or failure. -/
inductive EmtPlace
  | spot (b sl : Nat)
  | locked (b : Nat)
  | moves (l : List (Nat × Nat × Nat))
  | full
  deriving DecidableEq, Repr

def State.emtPlace (s : State) (t a b : Nat) : EmtPlace :=
  match s.emtSpot t a b with
  | some (x, sl) => if s.emtLocked t x then .locked x else .spot x sl
  | none =>
    if s.emtLocked t a then .locked a
    else match s.emtPath t (s.get F.EMT_DISP_LIMIT_LIMIT) a [a] [] with
      | some l => .moves l
      | none => .full

/-- What placing the key of the front operation can do now: what `emtPlace` finds, or, once its displacement has begun,
the moves still to come and then the slot that they have freed in candidate A (R214). -/
def State.emtPlaceNow (s : State) (t a b : Nat) : EmtPlace :=
  match s.emt.path with
  | none => s.emtPlace t a b
  | some [] => match s.emtFree t a with
    | sl :: _ => .spot a sl
    | [] => s.emtPlace t a b
  | some l => .moves l

/-- The front of the engine's work; in Hold the engine stands still (R223). -/
def State.emtFront (s : State) : Option EmtOp := if s.epHeld 0x1A1 then none else s.emt.engine.head?

/-- The front of the engine's work is done. -/
def State.emtPop (s : State) : State :=
  s.withEmt { s.emt with engine := s.emt.engine.tail, path := none, moves := 0 }

/-- A placement fails for want of a path: counted, and a rehash request may follow. -/
def State.emtPlaceFail (s : State) (t : Nat) : State :=
  ((s.count (F.EMT_TBL_FAIL_COUNT t)).setEmtFails t (s.emtFails t + 1)).emtRehash t

/-- The key and table that the front operation places, if it places one. -/
def State.emtPlacing (s : State) : Option (Nat × List Byte) :=
  match s.emtFront with
  | some (.cmd op t key _ _ _) => if op = 1 ∨ op = 2 then some (t, key) else none
  | some (.learn _ t key) => some (t, key)
  | _ => none

/-- One entry moves along the displacement path of the front operation, copied whole into its new slot
and then invalidated in its old one (R213, R214). -/
def execDisplacementMove (s : State) : Res :=
  match s.emtPlacing with
  | none => .next s
  | some (t, key) =>
    let (_, a, b) := emtCands s.plan t key
    if (s.emtFind t key a b).isSome then .next s
    else
      let path := match s.emtPlaceNow t a b with
        | .moves l => l
        | _ => []
      match path with
      | [] => .next s
      | (x, sl, o) :: rest =>
        match s.emtFree t o with
        | [] => .next s
        | f :: _ =>
          let e := bytesPut (s.emtEntry t x sl) 56 (natLE 4 (s.emtNewest t x sl))
          let s1 := (s.emtPut t o f e).emtRemove t x sl
          .next (s1.withEmt { s1.emt with path := some rest, moves := s1.emt.moves + 1 })

/-! ### Entry commands (Table 8-3) -/

/-- A command is written: refused while one runs, for an absent table or place, or under amendment;
otherwise it reaches the engine with the registers as they stand. A command that names an absent table while another
runs records the busy condition 0x1308 alone: the spec does not order it against 0xFE (DESIGN CHOICE, log entry 117). -/
def State.emtCommand (s : State) (op t : Nat) : State :=
  let b := s.get F.EMT_CMD_LOC_BUCKET
  if s.get F.EMT_CMD_STATUS_BUSY = 1 then s.fault uEmt 0x08 7 (emtExtra t 0 0)
  else if !emtPresent s.plan t || ((op == 5 || op == 6) && decide (2 ^ emtBucketsLog2 s.plan t ≤ b)) then
    s.capture uEmt 0xFE (emtExtra t 0 0)
  else if s.underAmendment secEmtGeometry 0 t then s.capture uEmt 0xFC (emtExtra t 0 0)
  else
    let key := (List.range 6).flatMap fun i => natLE 8 (s.rd (R.EMT_KBUF i)).toNat
    let s1 := s.set F.EMT_CMD_STATUS_BUSY 1
    (s1.withEmt { s1.emt with
      engine := s1.emt.engine ++
        [.cmd op t (s.emtKey t key) (s.rd R.EMT_CMD_DATA) b (s.get F.EMT_CMD_LOC_SLOT)] })

def execEmtInsert (table : Nat) (s : State) : Res := .next (s.emtCommand 1 table)
def execEmtUpsert (table : Nat) (s : State) : Res := .next (s.emtCommand 2 table)
def execEmtDelete (table : Nat) (s : State) : Res := .next (s.emtCommand 3 table)
def execEmtFind (table : Nat) (s : State) : Res := .next (s.emtCommand 4 table)
def execEmtReadAt (table : Nat) (s : State) : Res := .next (s.emtCommand 5 table)
def execEmtDeleteAt (table : Nat) (s : State) : Res := .next (s.emtCommand 6 table)

/-- The outcome of an entry command (Table 8-8): status, word 0 and time of the entry concerned, and a
fault when it failed. -/
def State.emtCmdEnd (s : State) (t cond b sl : Nat) (found entry : Bool) : State :=
  let fc := if cond = 0 then 0 else uEmt * 256 + cond
  let s1 := s.sets [(F.EMT_CMD_STATUS_BUSY, 0), (F.EMT_CMD_STATUS_FOUND, if found then 1 else 0),
    (F.EMT_CMD_STATUS_MOVES, min 255 s.emt.moves), (F.EMT_CMD_STATUS_LAST_FC, fc),
    (F.EMT_CMD_STATUS_BUCKET, b), (F.EMT_CMD_STATUS_SLOT, sl)]
  let s2 := if entry then
      (s1.wr R.EMT_CMD_RESULT (eWord0 (s1.emtEntry t b sl))).set F.EMT_CMD_TIME_HIT_TIME (s1.emtNewest t b sl)
    else s1
  let s3 := if cond = 0 then s2 else s2.fault uEmt cond (cond - 1) (emtExtra t b sl)
  s3.emtPop

/-- READ_AT copies an entry into the command registers; a parity error shows in `LAST_FC`. -/
def State.emtReadAt (s : State) (t b sl : Nat) : State :=
  let e := s.emtEntry t b sl
  let s1 := (List.range 6).foldl (fun (s : State) i =>
    s.wr (R.EMT_KBUF i) (BitVec.ofNat 64 (leAt e (8 + 8 * i) 8))) s
  let s2 := s1.sets [(F.EMT_CMD_DATA_STATIC, if eStatic e then 1 else 0), (F.EMT_CMD_DATA_ACT, eAct e),
    (F.EMT_CMD_DATA_CTX, eCtx e)]
  let s3 := s2.emtCmdEnd t 0 b sl false true
  if eParOk e then s3 else s3.set F.EMT_CMD_STATUS_LAST_FC 0x1305

/-- INSERT, and UPSERT of a key that is not present. -/
def State.emtInsert (s : State) (t : Nat) (key : List Byte) (data : Word) (a b : Nat) : Res :=
  match s.emtPlaceNow t a b with
  | .spot x sl =>
    let e := eMake true (bitAt data 63) false (bitsAt data 47 32) (bitsAt data 23 0) key s.emtNow
    .next (((s.emtPut t x sl e).emtCmdEnd t 0 x sl false true).emtRehash t)
  | .locked x => .next (s.emtCmdEnd t 0x04 x 0 false false)
  | .moves _ => .next s
  | .full => .next ((s.emtPlaceFail t).emtCmdEnd t 0x02 a 0 false false)

/-- The engine completes the entry command at the front of its work (R213, R214). A placement whose
displacement moves are still to come does not complete yet. -/
def execEmtCmdDone (s : State) : Res :=
  match s.emtFront with
  | some (.cmd op t key data lb ls) =>
    let (_, a, b) := emtCands s.plan t key
    let at? := s.emtFind t key a b
    match op, at? with
    | 1, some (x, sl) => .next (s.emtCmdEnd t 0x01 x sl true true)
    | 1, none => s.emtInsert t key data a b
    | 2, some (x, sl) =>
      if s.emtLocked t x then .next (s.emtCmdEnd t 0x04 x sl true false)
      else
        let e := s.emtEntry t x sl
        let f := eMake true (bitAt data 63) (bitAt (eWord0 e) 60) (bitsAt data 47 32) (bitsAt data 23 0) (eKey e)
          (s.emtNewest t x sl)
        .next ((s.emtPut t x sl f).emtCmdEnd t 0 x sl true true)
    | 2, none => s.emtInsert t key data a b
    | 3, some (x, sl) =>
      if s.emtLocked t x then .next (s.emtCmdEnd t 0x04 x sl false false)
      else .next ((s.emtRemove t x sl).emtCmdEnd t 0 x sl false true)
    | 3, none => .next (s.emtCmdEnd t 0x03 a 0 false false)
    | 4, some (x, sl) => .next (s.emtCmdEnd t 0 x sl true true)
    | 4, none => .next (s.emtCmdEnd t 0x03 a 0 false false)
    | 5, _ => .next (s.emtReadAt t lb ls)
    | _, _ =>
      if s.emtLocked t lb then .next (s.emtCmdEnd t 0x04 lb ls false false)
      else .next ((s.emtRemove t lb ls).emtCmdEnd t 0 lb ls false true)
  | _ => .next s

/-! ### Learning and ageing (R215, R216) -/

/-- The engine takes the learn at the front of its work and rechecks both candidates. -/
def execLearnApply (s : State) : Res :=
  match s.emtFront with
  | some (.learn named t key) =>
    let (ha, a, b) := emtCands s.plan t key
    if (s.emtFind t key a b).isSome then .next s.emtPop
    else
      match s.emtPlaceNow t a b with
      | .spot x sl =>
        let act := s.get (F.EMT_TBL_LEARN_LEARN_ACT named)
        let ctx := s.get (F.EMT_TBL_LEARN_LEARN_CTX named)
        let s1 := s.emtPut t x sl (eMake true false true act ctx key s.emtNow)
        let s2 := s1.emtFill ha ⟨t, key, x, sl, act, ctx, s1.emtNow⟩
        let s3 := if s2.get (F.EMT_TBL_CFG_LEARN_NOTIFY named) = 1 then s2.emtNotify 0x0201 t x sl ha ctx else s2
        .next (s3.emtPop.emtRehash t)
      | .locked _ => .next (s.count F.EMT_LEARN_DROP_COUNT).emtPop
      | .moves _ => .next s
      | .full => .next (s.emtPlaceFail t).emtPop
  | _ => .next s

/-- Does the table age? -/
def State.emtAges (s : State) (t : Nat) : Bool :=
  emtPresent s.plan t && s.get (F.EMT_TBL_CFG_AGE_EN t) == 1 && !s.underAmendment secEmtGeometry 0 (s.emtActive t)

/-- Does an entry meet the test of R216, with the settings of the table named? -/
def State.emtAged (s : State) (named t b sl : Nat) : Bool :=
  let e := s.emtEntry t b sl
  eValid e && !eStatic e && !s.emtLocked t b &&
    decide (s.get (F.EMT_TBL_AGE_LIMIT named) ≤ (s.emtNow + 2 ^ 32 - s.emtNewest t b sl) % 2 ^ 32)

/-- The scan reads the next bucket of the ageing tables: cached times go back, aged entries are queued
for removal. -/
def execAgeScan (s : State) : Res :=
  let tables := if s.epHeld 0x1A1 then [] else (List.range 64).filter s.emtAges
  match tables.find? (fun t => decide (s.emt.scanTable ≤ t)) <|> tables.head? with
  | none => .next s
  | some named =>
    let t := s.emtActive named
    let b := if named = s.emt.scanTable then s.emt.scanBucket % 2 ^ emtBucketsLog2 s.plan t else 0
    let s1 := (List.range 4).foldl (fun s sl => s.emtSyncTime t b sl) s
    let aged := (List.range 4).filter fun sl => s1.emtAged named t b sl &&
      !s1.emt.engine.contains (.removal named t b sl)
    let last := decide (2 ^ emtBucketsLog2 s.plan t ≤ b + 1)
    .next (s1.withEmt { s1.emt with
      engine := s1.emt.engine ++ aged.map fun sl => .removal named t b sl
      scanTable := if last then named + 1 else named
      scanBucket := if last then 0 else b + 1 })

/-- The engine repeats the test for the removal at the front of its work and removes the entry. -/
def execAgeRemoval (s : State) : Res :=
  match s.emtFront with
  | some (.removal named t b sl) =>
    if s.emtAged named t b sl then
      let e := s.emtEntry t b sl
      let s1 := (s.emtRemove t b sl).emtPop
      if s1.get (F.EMT_TBL_CFG_AGE_NOTIFY named) = 1 then
        .next (s1.emtNotify 0x0202 t b sl (emtCands s.plan t (eKey e)).1 (eCtx e))
      else .next s1
    else .next s.emtPop
  | _ => .next s

/-! ### DMA (R218) -/

/-- A DMA command is written. -/
def State.emtDma (s : State) (op : Nat) (host : Bool) : State :=
  let t := s.get F.EMT_DMA_FIRST_TABLE
  let b := s.get F.EMT_DMA_FIRST_BUCKET
  let n := s.get F.EMT_DMA_COUNT_COUNT
  if s.get F.EMT_DMA_STATUS_BUSY = 1 then s.fault uEmt 0x08 7 (emtExtra t b 0)
  else if !emtPresent s.plan t then s.capture uEmt 0xFE (emtExtra t 0 0)
  else if s.underAmendment secEmtGeometry 0 t then s.capture uEmt 0xFC (emtExtra t 0 0)
  else if 2 ^ emtBucketsLog2 s.plan t < b + n then
    (s.sets [(F.EMT_DMA_STATUS_LAST_FC, 0x130A), (F.EMT_DMA_STATUS_DONE, 0)]).fault uEmt 0x0A 9 (emtExtra t b 0)
  else
    let s1 := s.sets [(F.EMT_DMA_STATUS_BUSY, 1), (F.EMT_DMA_STATUS_DONE, 0), (F.EMT_DMA_STATUS_LAST_FC, 0)]
    (s1.withEmt { s1.emt with
      engine := s1.emt.engine ++ [.dma op host (s.get F.EMT_DMA_ADDR_ADDR) t b n 0] })

def execEmtDmaRead (host : Bool) (s : State) : Res := .next (s.emtDma 1 host)
def execReadLock (host : Bool) (s : State) : Res := .next (s.emtDma 2 host)
def execEmtDmaWrite (host : Bool) (s : State) : Res := .next (s.emtDma 3 host)
def execWriteUnlock (host : Bool) (s : State) : Res := .next (s.emtDma 4 host)
def execEmtDmaUnlock (host : Bool) (s : State) : Res := .next (s.emtDma 5 host)

/-- A bucket copied to the buffer, with the newest times merged and written back; whether the buffer took it. -/
def State.emtBucketOut (s : State) (host : Bool) (addr t b : Nat) (x : SrcRead) : Bool × State :=
  let s1 := (List.range 4).foldl (fun s sl => s.emtSyncTime t b sl) s
  let img := (List.range 4).flatMap fun sl =>
    let e := s1.emtEntry t b sl
    ePatch e 56 (natLE 4 (s1.emtNewest t b sl))
  if host then s1.dmaWrite 0 none false addr img
  else if !s1.operatorReaches addr 256 then (false, s1.partViolation addr)
  else if x.ecc.bad then (false, s1.memRead x.ecc addr)
  else (true, s1.putBytes addr img)

/-- A bucket replaced from the buffer. -/
def State.emtBucketIn (s : State) (t b : Nat) (img : List Byte) : State :=
  (List.range 4).foldl (fun s sl => s.emtPut t b sl (bytesAt img (64 * sl) 64)) s

/-- One bucket of a DMA command (Table 8-4): whether it is done. `hostBytes` is what host memory returns, `x` how
the buffer's access ends. -/
def State.emtDmaBucket (s : State) (op : Nat) (host : Bool) (addr t b : Nat) (hostBytes : List Byte) (x : SrcRead) :
    Bool × State :=
  if op = 5 then (true, s.emtSetLock t b false)
  else if op = 1 ∨ op = 2 then
    let (ok, s1) := s.emtBucketOut host addr t b x
    (ok, if ok && op == 2 then s1.emtSetLock t b true else s1)
  else
    let (img, s1) := s.operatorRead addr 256 host hostBytes x
    match img with
    | none => (false, s1)
    | some l =>
      let s2 := s1.emtBucketIn t b l
      (true, (if op = 4 then s2.emtSetLock t b false else s2).emtRehash t)

/-- The front of the engine's work is replaced. -/
def State.emtAgain (s : State) (o : EmtOp) : State := s.withEmt { s.emt with engine := o :: s.emt.engine.tail }

/-- The engine does the bucket operation of a DMA command at the front of its work (R213); with the last one, or
with a memory error, the command ends (R218). -/
def execEmtDmaDone (hostBytes : List Byte) (x : SrcRead) (s : State) : Res :=
  match s.emtFront with
  | some (.dma op host addr t first n i) =>
    if s.operatorWaits host then .next s
    else if i = 0 ∧ op = 2 ∧ ((List.range n).any fun k => s.emtLocked t (first + k)) then
      .next (((s.sets [(F.EMT_DMA_STATUS_BUSY, 0), (F.EMT_DMA_STATUS_LAST_FC, 0x1304)]).fault uEmt 0x04 3
        (emtExtra t first 0)).emtPop)
    else
      let (ok, s1) := s.emtDmaBucket op host (addr + 256 * i) t (first + i) hostBytes x
      if !ok then
        .next (((s1.sets [(F.EMT_DMA_STATUS_BUSY, 0), (F.EMT_DMA_STATUS_LAST_FC, 0x1309)]).fault uEmt 0x09 8
          (emtExtra t (first + i) 0)).emtPop)
      else
        let s2 := s1.set F.EMT_DMA_STATUS_DONE (i + 1)
        if i + 1 < n then .next (s2.emtAgain (.dma op host addr t first n (i + 1)))
        else .next (s2.set F.EMT_DMA_STATUS_BUSY 0).emtPop
  | _ => .next s

/-! ### Redirect (R220) -/

/-- GO: the staged target is checked, and the redirect waits for the next hand-over. -/
def State.emtRedirGo (s : State) (t : Nat) : State :=
  let target := s.get (F.EMT_TBL_REDIR_STG_TARGET t)
  if !emtPresent s.plan t || !emtPresent s.plan target then s.capture uEmt 0xFE (emtExtra t 0 0)
  else if s.underAmendment secEmtGeometry 0 t then s.capture uEmt 0xFC (emtExtra t 0 0)
  else if s.get (F.EMT_TBL_REDIR_COMMIT_PENDING t) = 1 then s
  else s.commitGo (F.EMT_TBL_REDIR_COMMIT_PENDING t)

def execEmtRedirCommitGo (table : Nat) (s : State) : Res := .next (s.emtRedirGo table)

/-- The pending redirects take effect: a packet is handed over. -/
def State.emtRedirect (s : State) : State :=
  (List.range 64).foldl (fun s t =>
    if s.get (F.EMT_TBL_REDIR_COMMIT_PENDING t) = 1 then
      (s.set (F.EMT_TBL_ACTIVE_TARGET t) (s.get (F.EMT_TBL_REDIR_STG_TARGET t))).commitApplied
        (F.EMT_TBL_REDIR_COMMIT_PENDING t) (F.EMT_TBL_REDIR_GEN_GEN t)
    else s) s

end Sys2Proof.Machine
end

