-- ==== Sys2Proof/Machine/Acm.lean ====
section
/-! DEFINITION. Classification (07_classification.md): search, rule versions, entry commands, actions,
policers, hashes, injection and mirror copies. -/

namespace Sys2Proof.Machine

/-! ### Entries and search (R187) -/

def acmNone (_ : Nat) : AcmEntry := ⟨List.replicate 10 0, List.replicate 10 0, 0⟩
def State.acmEntry (s : State) (bank i : Nat) : AcmEntry := spGet acmNone s.acm.entries (2048 * bank + i)
def State.setAcmEntry (s : State) (bank i : Nat) (e : AcmEntry) : State :=
  s.withAcm { s.acm with entries := spSet acmNone s.acm.entries (2048 * bank + i) e }

def cValid (c : Word) : Bool := bitAt c 63
def cFirstEn (c : Word) : Bool := bitAt c 62
def cLastEn (c : Word) : Bool := bitAt c 61
def cFirst (c : Word) : Nat := bitsAt c 55 52
def cLast (c : Word) : Nat := bitsAt c 51 48
def cAct (c : Word) : Nat := bitsAt c 15 0

def State.oldest (s : State) : Nat := s.get F.ACM_VER_STATUS_OLDEST
def State.committed (s : State) : Nat := s.get F.ACM_VER_STATUS_COMMITTED

/-- The base of positions: `OLDEST`, or the base of the sweep that runs (R187). -/
def State.verBase (s : State) : Nat :=
  match s.acm.sweep with
  | some (h, _) => h
  | none => s.oldest

/-- The position of a version. -/
def verPos (base x : Nat) : Nat := (x + 16 - base) % 16

def keyWord (key : List Byte) (w : Nat) : Word := BitVec.ofNat 64 (leAt key (8 * w) 8)

def acmMatches (base : Nat) (key : List Byte) (v : Nat) (e : AcmEntry) : Bool :=
  cValid e.ctrl &&
  (List.range 10).all (fun w => (keyWord key w ^^^ e.val.getD w 0) &&& e.mask.getD w 0 == 0) &&
  (!cFirstEn e.ctrl || decide (verPos base (cFirst e.ctrl) ≤ verPos base v)) &&
  (!cLastEn e.ctrl || decide (verPos base v ≤ verPos base (cLast e.ctrl)))

/-- The action of the first match in the banks of a profile (R187). -/
def State.acmSearch (s : State) (profile : Nat) (key : List Byte) (v : Nat) : Option Nat :=
  ((profBanks s.plan profile).flatMap fun b =>
    s.acm.entries.filter fun x => x.1 / 2048 == b && acmMatches s.verBase key v x.2).head?.map
      fun x => cAct x.2.ctrl

/-! ### Rule versions (R190 to R193) -/

/-- Packets in flight under a version: dispatched, and neither ended nor through classification (R140). -/
def State.inFlight (s : State) (v : Nat) : Nat :=
  (s.arb.clusters.map fun c =>
    (c.2.threads.filter fun t => match t.2.pkt with
      | some p => p.ruleVer == v && !t.2.committed
      | none => false).length +
    (c.2.commits.filter fun e => hGet e.words CH.ruleVer == v).length).sum +
  (s.passed.filter fun e => hGet e.words CH.ruleVer == v).length +
  (s.acm.queue.filter fun q => hGet q.words CH.ruleVer == v).length

/-- GO of a rule-version commit (R190). -/
def State.acmVerGo (s : State) : State :=
  if s.get F.ACM_VER_COMMIT_PENDING = 1 then s
  else
    let s1 := s.commitGo F.ACM_VER_COMMIT_PENDING
    if s1.get F.ACM_VER_STATUS_LIVE = 4 then (s1.set F.ACM_VER_STATUS_STALL 1).fault uAcm 0x01 0 0 else s1

def execAcmVerCommitGo (s : State) : Res := .next s.acmVerGo

/-- The pending commit is applied once fewer than four versions are live and no sweep runs. -/
def execAcmVerApply (s : State) : Res :=
  if s.get F.ACM_VER_COMMIT_PENDING = 0 ∨ s.get F.ACM_VER_STATUS_LIVE = 4 ∨ s.acm.sweep.isSome ∨ s.epHeld 0x1A0 then
    .next s
  else
    let s1 := s.sets [(F.ACM_VER_STATUS_COMMITTED, (s.committed + 1) % 16), (F.ACM_VER_STATUS_STALL, 0),
      (F.ACM_VER_STATUS_LIVE, s.get F.ACM_VER_STATUS_LIVE + 1), (F.ACM_VER_LIVE_TAG_TAG, s.get F.ACM_VER_STG_TAG)]
    .next (s1.commitApplied F.ACM_VER_COMMIT_PENDING F.ACM_VER_GEN_GEN)

/-- The oldest version still live, from `v` on. -/
def State.oldestLive (s : State) : Nat → Nat → Nat
  | 0, v => v
  | n + 1, v => if v = s.committed ∨ s.inFlight v ≠ 0 then v else s.oldestLive n ((v + 1) % 16)

/-- Drained versions retire: `OLDEST` advances and a sweep starts (R191, R192). -/
def execVersionRetire (s : State) : Res :=
  let h := s.oldest
  let h' := s.oldestLive 16 h
  if s.acm.sweep.isSome ∨ h' = h ∨ s.epHeld 0x1A0 then .next s
  else
    let s1 := s.sets [(F.ACM_VER_STATUS_OLDEST, h'), (F.ACM_VER_STATUS_LIVE, verPos h' s.committed + 1),
      (F.ACM_VER_STATUS_SWEEP, 1), (F.ACM_VER_STATUS_STALL, 0)]
    .next (s1.withAcm { s1.acm with sweep := some (h, verPos h h') })

/-- What a sweep does to a control word (R192). -/
def sweepCtrl (h d : Nat) (c : Word) : Word :=
  let c1 := if cLastEn c && decide (verPos h (cLast c) < d) then setBit c 63 false else c
  if cFirstEn c && decide (verPos h (cFirst c) ≤ d) then setBit c1 62 false else c1

/-- The sweep of every entry ends. -/
def execSweepEnd (s : State) : Res :=
  match s.acm.sweep with
  | none => .next s
  | some (h, d) =>
    if s.epHeld 0x1A0 then .next s
    else
      let s1 := s.acm.entries.foldl (fun (s : State) x =>
        if bankAlloc s.plan (x.1 / 2048) then
          s.setAcmEntry (x.1 / 2048) (x.1 % 2048) { x.2 with ctrl := sweepCtrl h d x.2.ctrl }
        else s) s
      .next ((s1.set F.ACM_VER_STATUS_SWEEP 0).withAcm { s1.acm with sweep := none })

/-- Do the bounds that a control word enables lie where R193 allows them? -/
def State.acmBoundsOk (s : State) (c : Word) : Bool :=
  let b := s.verBase
  let p := verPos b s.committed
  (!cFirstEn c || decide (verPos b (cFirst c) ≤ p + 1)) && (!cLastEn c || decide (verPos b (cLast c) ≤ p))

/-! ### Entry commands and shifts (R194 to R196) -/

/-- The fields of `ACM_ERR_FIRST` (Table 7-9). -/
def State.acmExtra (s : State) (bank entry : Nat) : Nat :=
  (if bankAlloc s.plan bank then bankProfile s.plan bank else 0) * 2 ^ 32 + bank * 2 ^ 11 + entry

/-- Is the entry in the range being shifted, its free slot included? -/
def State.acmShifted (s : State) (bank entry : Nat) : Bool :=
  match s.acm.shift with
  | none => false
  | some h => h.bank == bank && decide ((if h.down then h.first - 1 else h.first) ≤ entry) &&
      decide (entry ≤ (if h.down then h.last else h.last + 1))

/-- An entry command is written; it reads the address and the buffer now. One that names an unallocated bank while another
runs records 0x1203 alone: the spec does not order it against 0xFE (DESIGN CHOICE, log entry 117). -/
def State.acmEntCmd (s : State) (op : Nat) : State :=
  let b := s.get F.ACM_ENT_ADDR_BANK
  let i := s.get F.ACM_ENT_ADDR_ENTRY
  if s.acm.cmd.isSome || s.acmShifted b i then s.fault uAcm 0x03 2 (s.acmExtra b i)
  else if !bankAlloc s.plan b then (s.set F.ACM_ENT_STATUS_LAST_FC 0x12FE).capture uAcm 0xFE (s.acmExtra b i)
  else if s.underAmendment secAcmBanks 0 (256 + b) then s.capture uAcm 0xFC (s.acmExtra b i)
  else
    let buf : AcmEntry := ⟨(List.range 10).map fun w => s.rd (R.ACM_EBUF_VAL w),
      (List.range 10).map fun w => s.rd (R.ACM_EBUF_MASK w), s.rd R.ACM_EBUF_CTRL⟩
    let s1 := s.set F.ACM_ENT_STATUS_BUSY 1
    s1.withAcm { s1.acm with cmd := some ⟨op, b, i, buf⟩ }

def execAcmEntWrite (s : State) : Res := .next (s.acmEntCmd 1)
def execAcmEntWriteCtrl (s : State) : Res := .next (s.acmEntCmd 2)
def execAcmEntRead (s : State) : Res := .next (s.acmEntCmd 3)
def execAcmEntInvalidate (s : State) : Res := .next (s.acmEntCmd 4)

/-- The entry command takes effect and completes (R193, R194). -/
def execAcmEntCmdDone (s : State) : Res :=
  match s.acm.cmd with
  | none => .next s
  | some k =>
    let e := s.acmEntry k.bank k.entry
    let s0 : State := ((s.sets [(F.ACM_ENT_STATUS_BUSY, 0), (F.ACM_ENT_STATUS_LAST_FC, 0)]).withAcm { s.acm with cmd := none })
    if (k.op = 1 ∨ k.op = 2) ∧ !s.acmBoundsOk k.buf.ctrl then
      .next ((s0.set F.ACM_ENT_STATUS_LAST_FC 0x1202).fault uAcm 0x02 1 (s.acmExtra k.bank k.entry))
    else if k.op = 1 then .next (s0.setAcmEntry k.bank k.entry k.buf)
    else if k.op = 2 then .next (s0.setAcmEntry k.bank k.entry { e with ctrl := k.buf.ctrl })
    else if k.op = 3 then
      let s1 := (List.range 10).foldl (fun (s : State) w =>
        (s.wr (R.ACM_EBUF_VAL w) (e.val.getD w 0)).wr (R.ACM_EBUF_MASK w) (e.mask.getD w 0)) s0
      .next (s1.wr R.ACM_EBUF_CTRL e.ctrl)
    else .next (s0.setAcmEntry k.bank k.entry { e with ctrl := setBit e.ctrl 63 false })

/-- A shift command is written (R195). One that names an unallocated bank while a shift runs records 0x1203 alone: the spec
does not order it against 0xFE (DESIGN CHOICE, log entry 117). -/
def State.acmShiftCmd (s : State) (down : Bool) (bank first last : Nat) : State :=
  let ex := s.acmExtra bank first
  if last < first then s.capture uAcm 0xFF ex
  else if s.acm.shift.isSome then (s.set F.ACM_SHIFT_STATUS_LAST_FC 0x1203).fault uAcm 0x03 2 ex
  else if !bankAlloc s.plan bank then (s.set F.ACM_SHIFT_STATUS_LAST_FC 0x12FE).capture uAcm 0xFE ex
  else if s.underAmendment secAcmBanks 0 (256 + bank) then s.capture uAcm 0xFC ex
  else if (if down then first = 0 ∨ cValid (s.acmEntry bank (first - 1)).ctrl
      else 2047 < last + 1 ∨ cValid (s.acmEntry bank (last + 1)).ctrl) then
    (s.set F.ACM_SHIFT_STATUS_LAST_FC 0x1208).fault uAcm 0x08 7 ex
  else
    let s1 := s.sets [(F.ACM_SHIFT_STATUS_BUSY, 1), (F.ACM_SHIFT_STATUS_LAST_FC, 0)]
    s1.withAcm { s1.acm with shift := some ⟨down, bank, first, last⟩ }

def execAcmShift (down : Bool) (bank first last : Nat) (s : State) : Res := .next (s.acmShiftCmd down bank first last)

/-- The shift completes: every entry of the range stands one place on, the vacated slot is invalid. -/
def execAcmShiftDone (s : State) : Res :=
  match s.acm.shift with
  | none => .next s
  | some h =>
    if s.epHeld 0x1A0 then .next s
    else
      let n := h.last + 1 - h.first
      let idx := (List.range n).map fun i => if h.down then h.first + i else h.last - i
      let s1 := idx.foldl (fun (s : State) i =>
        let e := s.acmEntry h.bank i
        (s.setAcmEntry h.bank (if h.down then i - 1 else i + 1) e).setAcmEntry h.bank i
          { e with ctrl := setBit e.ctrl 63 false }) s
      .next ((s1.set F.ACM_SHIFT_STATUS_BUSY 0).withAcm { s1.acm with shift := none })

/-- The parity scan finds a failing entry: invalidated and recorded (R196). -/
def execAcmParityScan (bank entry : Nat) (s : State) : Res :=
  if !bankAlloc s.plan bank then .next s
  else
    let e := s.acmEntry bank entry
    .next ((s.setAcmEntry bank entry { e with ctrl := setBit e.ctrl 63 false }).fault uAcm 0x04 3 (s.acmExtra bank entry))

/-! ### Actions (R197) -/

def actReset (_ : Nat) : List Word := [0x40, 0, 0, 0]
def State.action (s : State) (i : Nat) : List Word := spGet actReset s.acm.actions i

/-- A whole action entry is written in one step. -/
def State.actWrite (s : State) : State :=
  (s.withAcm { s.acm with
    actions := spSet actReset s.acm.actions (s.get F.ACM_ACT_IDX_IDX)
      [s.rd R.ACM_ACT_BUF0, s.rd R.ACM_ACT_BUF1, s.rd R.ACM_ACT_BUF2, 0] })
def State.actRead (s : State) : State :=
  let a := s.action (s.get F.ACM_ACT_IDX_IDX)
  ((s.wr R.ACM_ACT_BUF0 (a.getD 0 0)).wr R.ACM_ACT_BUF1 (a.getD 1 0)).wr R.ACM_ACT_BUF2 (a.getD 2 0)

def execAcmActWrite (s : State) : Res := .next s.actWrite
def execAcmActRead (s : State) : Res := .next s.actRead

/-! ### Policers (R202) -/

def polReset (_ : Nat) : Policer := ⟨0, 0, 0, 0, 0, 0, 0, 0, 0, 0, 0⟩
def State.policer (s : State) (i : Nat) : Policer := spGet polReset s.acm.policers i
def State.setPolicer (s : State) (i : Nat) (p : Policer) : State :=
  s.withAcm { s.acm with policers := spSet polReset s.acm.policers i p }

/-- One byte in the units of a policer's buckets. -/
def polByte : Nat := 8000000000 * 2 ^ 44

/-- Refills count elapsed TB0 time, without its steps (R202, R472). -/
def State.tb0 (s : State) : Nat := s.clk.elapsed

/-- WRITE: all settings replaced, both buckets filled, counts kept; `ALG` = 0 requires `PIR` ≥ `CIR`. -/
def State.polWrite (s : State) : State :=
  if s.get F.ACM_POL_MODE_ALG = 0 ∧ s.get F.ACM_POL_PIR_PIR < s.get F.ACM_POL_CIR_CIR then s.common uAcm 0xFF
  else
    let i := s.get F.ACM_POL_IDX_IDX
    let p := s.policer i
    s.setPolicer i { p with
      cir := s.get F.ACM_POL_CIR_CIR, pir := s.get F.ACM_POL_PIR_PIR, cbs := s.get F.ACM_POL_BURST_CBS
      pbs := s.get F.ACM_POL_BURST_PBS, mode := (s.rd R.ACM_POL_MODE).toNat
      tokC := s.get F.ACM_POL_BURST_CBS * polByte, tokP := s.get F.ACM_POL_BURST_PBS * polByte, time := s.tb0 }

/-- READ: settings and counts loaded into the registers. -/
def State.polRead (s : State) : State :=
  let p := s.policer (s.get F.ACM_POL_IDX_IDX)
  let s1 := s.sets [(F.ACM_POL_CIR_CIR, p.cir), (F.ACM_POL_PIR_PIR, p.pir), (F.ACM_POL_BURST_CBS, p.cbs),
    (F.ACM_POL_BURST_PBS, p.pbs), (F.ACM_POL_CNT_COUNT 0, p.green), (F.ACM_POL_CNT_COUNT 1, p.yellow),
    (F.ACM_POL_CNT_COUNT 2, p.red)]
  s1.wr R.ACM_POL_MODE (BitVec.ofNat 64 p.mode)

def execAcmPolWrite (s : State) : Res := .next s.polWrite
def execAcmPolRead (s : State) : Res := .next s.polRead

/-- Buckets refilled from TB0, up to their bursts. -/
def polRefill (p : Policer) (now : Nat) : Policer :=
  { p with
    tokC := min (p.cbs * polByte) (p.tokC + p.cir * (now - p.time))
    tokP := min (p.pbs * polByte) (p.tokP + p.pir * (now - p.time)), time := now }

/-- The colour of a packet of `len` bytes (0 green, 1 yellow, 2 red): RFC 2698 with `ALG` 0, RFC 4115
with `ALG` 1, the input colour used when colour-aware. -/
def polColour (p : Policer) (len colour : Nat) : Nat × Policer :=
  let m : Word := BitVec.ofNat 64 p.mode
  let ovh := signedOf 8 (bitsAt m 15 8)
  let b := (max 1 ((len : Int) + 4 + ovh)).toNat * polByte
  let pre := if bitAt m 1 ∧ colour < 3 then colour else 0
  if !bitAt m 0 then
    if pre = 2 ∨ p.tokP < b then (2, { p with red := (p.red + 1) % 2 ^ 64 })
    else if pre = 1 ∨ p.tokC < b then (1, { p with tokP := p.tokP - b, yellow := (p.yellow + 1) % 2 ^ 64 })
    else (0, { p with tokP := p.tokP - b, tokC := p.tokC - b, green := (p.green + 1) % 2 ^ 64 })
  else if pre = 0 ∧ b ≤ p.tokC then (0, { p with tokC := p.tokC - b, green := (p.green + 1) % 2 ^ 64 })
  else if pre ≠ 2 ∧ b ≤ p.tokP then (1, { p with tokP := p.tokP - b, yellow := (p.yellow + 1) % 2 ^ 64 })
  else (2, { p with red := (p.red + 1) % 2 ^ 64 })

/-- A packet meets a policer. -/
def State.meter (s : State) (i len colour : Nat) : Nat × State :=
  let (c, p) := polColour (polRefill (s.policer i) s.tb0) len colour
  (c, s.setPolicer i p)

/-! ### Flow hash and indirection (R203, R204) -/

/-- The 40 bytes of Toeplitz key `k`. -/
def State.hashKey (s : State) (k : Nat) : List Byte :=
  (List.range 5).flatMap fun j => natLE 8 (s.rd (R.ACM_HKEY (5 * k + j))).toNat

def State.flowHash (s : State) (w : List Word) (key : List Byte) (profile : Nat) : Nat :=
  let n0 := s.get (F.ACM_PROF_CFG_HASH_LEN profile)
  let n := if hGet w CH.frag = 1 then min n0 (s.get (F.ACM_PROF_CFG_FRAG_LEN profile)) else n0
  let x := bytesAt key (s.get (F.ACM_PROF_CFG_HASH_OFF profile)) n
  match s.get (F.ACM_PROF_CFG_HASH_MODE profile) with
  | 0 => hGet w CH.flowHash
  | 1 => toeplitzHash (s.hashKey (s.get (F.ACM_PROF_CFG_HASH_KEY profile))) x
  | _ => crc32cStd x

/-- Entry `e` of indirection table `t`. -/
def State.indirect (s : State) (t e : Nat) : Nat :=
  if e % 2 = 0 then s.get (F.ACM_IND_EVEN (128 * t + e / 2)) else s.get (F.ACM_IND_ODD (128 * t + e / 2))

/-- A register write replaces two indirection entries in one step. -/
def execIndirectionTableWrite (index : Nat) (value : Word) (s : State) : Res :=
  .next (s.sets [(F.ACM_IND_EVEN index, bitsAt value 23 0), (F.ACM_IND_ODD index, bitsAt value 55 32)])

/-! ### Decision (R189, R197 to R199) -/

/-- The action chosen: source (0 ACM, 1 exact match, 2 miss) and index. -/
def chooseAction (prec : Nat) (acm : Option Nat) (emt : Option (Nat × Nat)) (miss : Nat) : Nat × Nat :=
  match prec, acm, emt with
  | 0, some a, _ => (0, a)
  | 0, none, some (a, _) => (1, a)
  | _ + 1, _, some (a, _) => (1, a)
  | _ + 1, some a, none => (0, a)
  | _, none, none => (2, miss)

/-- The header fields that classification writes, but for the colour (Table 7-3). -/
def State.classWords (s : State) (q : ClsPacket) (src idx : Nat) (a : List Word) : List Word :=
  let a0 := a.getD 0 0
  let a1 := a.getD 1 0
  let a2 := a.getD 2 0
  let w := hSets q.words [(CH.flowHash, q.hash), (CH.actionRef, src * 2 ^ 30 + 3 * 2 ^ 28 + idx),
    (CH.dstEp, bitsAt a0 63 48),
    (CH.dstQueue, if bitsAt a0 3 2 = 1 then s.indirect (bitsAt a0 23 12) (q.hash % 256) else bitsAt a0 47 24),
    (CH.meter, if bitAt a2 63 then bitsAt a2 37 20 else 0)]
  let w1 := match bitsAt a0 1 0, q.emtHit with
    | 1, _ => hSet w CH.ctx (bitsAt a1 23 0)
    | 2, some (_, c) => hSet w CH.ctx c
    | _, _ => w
  let w2 := if bitAt a2 61 then hSet w1 CH.keySlot (bitsAt a2 19 0) else w1
  if bitAt a2 60 && decide (q.src < 16) then hSet w2 CH.td (bitsAt a2 59 48) else w2

/-- The packet's search and lookup are complete: action, copies, colour, original (R199).
Copies ask for no transmit report (R464). -/
def State.clsDecide (s : State) (q : ClsPacket) : ClsPacket × State :=
  let p := q.profile
  let (src, idx) := chooseAction (profPrec s.plan p) q.acmHit q.emtHit (s.get (F.ACM_PROF_CFG_MISS_ACT p))
  let a := s.action idx
  let a0 := a.getD 0 0
  let a1 := a.getD 1 0
  let a2 := a.getD 2 0
  let s0 := if src = 2 then s.count F.ACM_MISS_COUNT_COUNT else s
  let s1 : State := (s0.withAcm { s0.acm with
    actPkts := spSet (fun _ => 0) s0.acm.actPkts idx ((spGet (fun _ => 0) s0.acm.actPkts idx + 1) % 2 ^ 64)
    actBytes := spSet (fun _ => 0) s0.acm.actBytes idx
      ((spGet (fun _ => 0) s0.acm.actBytes idx + hGet q.words CH.len) % 2 ^ 64) })
  let w := s1.classWords q src idx a
  let c := hSet w CH.timeFrac (hGet w CH.timeFrac / 8192 * 8192)
  let cpu : List Packet := if bitAt a0 5 then
      [⟨hSets c [(CH.dstEp, bitsAt a1 63 48), (CH.dstQueue, bitsAt a1 47 24), (CH.copy, 1)], q.data, false⟩] else []
  let mir : List Packet := if bitAt a0 4 && hGet w CH.mirror == 0 then
      [⟨hSets c [(CH.dstEp, 0x1C0), (CH.dstQueue, bitsAt a2 47 42)], q.data, false⟩] else []
  let staged := hGet q.words CH.actionRef / 2 ^ 28 % 4
  let (colour, s2) := if bitAt a2 63 then s1.meter (bitsAt a2 37 20) (hGet w CH.len) staged else (3, s1)
  let sent := bitAt a0 7 && !(bitAt a2 62 && colour == 2)
  let orig : List Packet := if sent then
      [⟨hSet w CH.actionRef (src * 2 ^ 30 + colour * 2 ^ 28 + idx), q.data, false⟩] else []
  ({ q with outs := some (cpu ++ mir ++ orig), orig := sent }, if sent then s2 else s2.count F.ACM_DROP_COUNT_COUNT)

def State.setCls (s : State) (l : List ClsPacket) : State := s.withAcm { s.acm with queue := l }

/-- Packets whose search and lookup are complete are decided, in arrival order of each source (R202). -/
def State.clsSettle (s : State) : List ClsPacket → List ClsPacket → State
  | done, [] => s.setCls done
  | done, q :: rest =>
    if q.outs.isNone && q.searched && q.lookup.isNone &&
        done.all (fun d => d.src != q.src || d.outs.isSome) then
      let (q', s1) := s.clsDecide q
      s1.clsSettle (done ++ [q']) rest
    else s.clsSettle (done ++ [q]) rest

def State.clsSettled (s : State) : State := s.clsSettle [] s.acm.queue

/-! ### Hand-over and search (R181, R186, R188, R201) -/

/-- The search of a packet, admitted with its `k` activations: the first match is found now. -/
def State.clsSearch (s : State) (q : ClsPacket) (left : Nat) : ClsPacket × State :=
  let hit := s.acmSearch q.profile q.key (hGet q.words CH.ruleVer)
  let s1 := s.wrapBy F.ACM_SEARCH_COUNT_COUNT 1
  ({ q with searched := true, acmHit := hit }, (s1.withAcm { s1.acm with left := left }))

/-- A packet that is dropped at hand-over (Table 7-4). -/
def State.clsOdd (s : State) (e : Committed) (cond bit : Nat) : State :=
  ((s.freeFrame e.src e.arrival).count F.ACM_ODD_DROP_COUNT).fault uAcm cond bit (e.profile * 2 ^ 32)

/-- Classification takes the next committed packet: odd packets are dropped; the search starts when the
window has activations left for it and no earlier search waits; the exact-match lookup and the hash
start with it. While a differing ACM or table element is amended, no packet is begun. -/
def execClassifyHandover (s : State) : Res :=
  match s.passed with
  | [] => .next s
  | e :: rest =>
    if s.classifyHeld || s.profileHeld e.profile || s.typeAmending secEmtGeometry || s.epHeld 0x1A0 then .next s
    else
      let s0 := (s.withPassed rest).emtRedirect
      if e.poison then .next (s0.clsOdd e 0x06 5)
      else if !profPresent s.plan e.profile then .next (s0.clsOdd e 0x05 4)
      else
        let table := profEmtTable s.plan e.profile
        let (s1, hit, look) :=
          if table = 0xFF ∨ hGet e.words CH.frag = 1 then (s0, none, none)
          else s0.emtLookup table (bytesAt e.key 80 48) e.wayUe
        let q : ClsPacket := ⟨e.src, e.arrival, e.words, e.data, e.key, e.profile,
          s1.flowHash e.words e.key e.profile, false, none, look, hit, none, false, none⟩
        let k := (profBanks s.plan e.profile).length
        let waits := s1.acm.queue.any fun q => !q.searched
        if !waits && decide (k ≤ s1.acm.left) then
          let (q', s2) := s1.clsSearch q (s1.acm.left - k)
          .next ((s2.setCls (s2.acm.queue ++ [q'])).clsSettled)
        else
          let s2 := if s1.acm.waited then s1 else s1.count F.ACM_BUDGET_WAIT_COUNT
          .next ((s2.withAcm { s2.acm with waited := true }).setCls (s2.acm.queue ++ [q]))

/-- Waiting searches admitted in hand-over order while the window has activations for them; one that
needs more than the whole window is admitted alone at its start. -/
def State.clsAdmit (s : State) (limit : Nat) : List ClsPacket → List ClsPacket → State
  | done, [] => s.setCls done
  | done, q :: rest =>
    if q.searched then s.clsAdmit limit (done ++ [q]) rest
    else
      let k := (profBanks s.plan q.profile).length
      if k ≤ s.acm.left then
        let (q', s1) := s.clsSearch q (s.acm.left - k)
        s1.clsAdmit limit (done ++ [q']) rest
      else if limit < k ∧ s.acm.left = limit then
        let (q', s1) := s.clsSearch q 0
        s1.clsAdmit limit (done ++ [q']) rest
      else
        let s1 := s.count F.ACM_BUDGET_WAIT_COUNT
        (s1.withAcm { s1.acm with waited := true }).setCls (done ++ q :: rest)

/-- A new window of 256 cycles begins (R188). -/
def execAcmSearchAdmit (s : State) : Res :=
  if s.epHeld 0x1A0 then .next s
  else
    let limit := s.get F.ACM_ACT_BUDGET_LIMIT
    let s1 : State := s.withAcm { s.acm with left := limit, waited := false }
    .next (s1.clsAdmit limit [] s1.acm.queue).clsSettled

/-- The bucket reads of the lookup of the packet at a place in classification return; in Hold nothing completes (R223,
R487). -/
def execEmtBucketReadReturn (index : Nat) (eccA eccB : EccResult) (s : State) : Res :=
  if s.epHeld 0x1A1 then .next s else
  match s.acm.queue[index]? with
  | none => .next s
  | some q =>
    match q.lookup with
    | none => .next s
    | some l =>
      let (s1, hit) := s.emtReturn l (bytesAt q.key 80 48) eccA eccB
      .next (s1.setCls (s1.acm.queue.set index { q with lookup := none, emtHit := hit })).clsSettled

/-- Is an earlier packet of the same source and the same low hash bits still in classification (R182)? -/
def clsBehind (l : List ClsPacket) (index : Nat) (q : ClsPacket) : Bool :=
  (l.take index).any fun d => d.ticket.isNone && hGet d.words CH.srcEp == hGet q.words CH.srcEp && d.hash % 4096 == q.hash % 4096

/-- The outputs of a decided packet are injected in order at the MAC or host queue engine at which it entered (R69,
R79), and its buffer space is freed; an
uncorrectable error in its action or policer drops it, which counts an original that was to be sent (R182, R196, R199). -/
def execClassifyInject (index : Nat) (ue : Bool) (s : State) : Res :=
  match s.acm.queue[index]? with
  | none => .next s
  | some q =>
    match q.outs with
    | none => .next s
    | some outs =>
      if q.ticket.isSome ∨ clsBehind s.acm.queue index q then .next s
      else if ue ∨ outs = [] then
        let s1 := (s.setCls (s.acm.queue.eraseIdx index)).freeFrame q.src q.arrival
        let s2 := if ue && q.orig then s1.count F.ACM_DROP_COUNT_COUNT else s1
        .next (if ue then s2.fault uAcm 0x07 6 (q.profile * 2 ^ 32) else s2)
      else
        let s1 := outs.foldl (fun (s : State) o => s.send q.src o) s
        .next (s1.setCls (s.acm.queue.set index { q with outs := some [], ticket := some (s1.sendTicket q.src) }))

/-- The replication engine sends the next mirror copy to its session's destination (R200); a command it answers (R14). -/
def execMirrorCopy (s : State) : Res :=
  match s.inboxOf 0x1C0 with
  | [] => .next s
  | p :: rest =>
    if hGet p.words CH.kind = kCommand then .next ((s.setInbox 0x1C0 rest).refuseCommand 0x1C0 p.words) else
    let i := hGet p.words CH.dstQueue % 64
    let t := s.get (F.ACM_MIR_SESS_TRUNC_LEN i)
    let cut := t != 0 && decide (t < hGet p.words CH.len)
    let w := hSets p.words [(CH.dstEp, s.get (F.ACM_MIR_SESS_DST_EP i)),
      (CH.dstQueue, s.get (F.ACM_MIR_SESS_DST_QUEUE i)), (CH.mirror, 1)]
    let w' := if cut then hSets w [(CH.trunc, 1), (CH.len, t)] else w
    .next ((s.setInbox 0x1C0 rest).send 0x1C0 ⟨w', if cut then p.payload.take t else p.payload, p.poison⟩)

end Sys2Proof.Machine
end

