-- ==== Sys2Proof/Machine/Cipher.lean ====
section
/-! DEFINITION. What a cipher operation computes from a key record, a parameter block and an input
(Tables 10-4 to 10-7), on bytes alone. The ciphers themselves are those of the cited standards. -/

namespace Sys2Proof.Machine

/-- The ASCII bytes of a string. -/
def ascii (s : String) : List Byte := s.toList.map fun c => BitVec.ofNat 8 c.toNat

/-- Two byte strings combined by exclusive or, as long as the first. -/
def xorBytes (a b : List Byte) : List Byte :=
  (List.range a.length).map fun i => a.getD i 0 ^^^ b.getD i 0

/-! ### Authenticated ciphers -/

def streamXor (mode : Nat) (key nonce text : List Byte) : List Byte :=
  xorBytes text (Config.aeadStream mode key nonce)

/-- The 16-byte tag. -/
def aeadTag16 (mode : Nat) (key nonce aad ct : List Byte) : List Byte :=
  bytesAt (Config.aeadTag mode key nonce aad ct) 0 16

/-- Ciphertext and tag. -/
def aeadSeal (mode : Nat) (key nonce aad text : List Byte) : List Byte :=
  let ct := streamXor mode key nonce text
  ct ++ aeadTag16 mode key nonce aad ct

/-- The plaintext, where the tag (of which `tag` holds the leading bytes) verifies. -/
def aeadOpen (mode : Nat) (key nonce aad ct tag : List Byte) : Option (List Byte) :=
  if (aeadTag16 mode key nonce aad ct).take tag.length = tag then some (streamXor mode key nonce ct) else none

/-! ### Key records (Table 10-7) -/

abbrev krState (r : List Byte) : Nat := leAt r 0 1
abbrev krMode (r : List Byte) : Nat := leAt r 1 1
abbrev krFraming (r : List Byte) : Nat := leAt r 2 1
def krDir (r : List Byte) : Nat := leAt r 3 1 % 2
def krExt (r : List Byte) : Bool := (leAt r 3 1).testBit 1
def krOwner (r : List Byte) : Nat := leAt r 4 2 % 4096
abbrev krAn (r : List Byte) : Nat := leAt r 6 1
abbrev krCtr (r : List Byte) : Nat := leAt r 8 8
abbrev krSeq (r : List Byte) : Nat := leAt r 96 8
abbrev krWindow (r : List Byte) : Nat := leAt r 104 8
abbrev krId (r : List Byte) : Nat := leAt r 92 4
abbrev krSci (r : List Byte) : Nat := leAt r 112 8

def krSetSeq (r : List Byte) (v : Nat) : List Byte := bytesPut r 96 (natLE 8 v)
def krSetWindow (r : List Byte) (v : Nat) : List Byte := bytesPut r 104 (natLE 8 v)
def krSetCtr (r : List Byte) (v : Nat) : List Byte := bytesPut r 8 (natLE 8 v)

/-- The key bytes that a mode uses. -/
def krKey (r : List Byte) : List Byte :=
  bytesAt r 16 (if krMode r = 1 ∨ krMode r = 3 then 16 else if krMode r = 6 then 64 else 32)

/-- An empty record. -/
def krEmpty : List Byte := List.replicate 144 0

/-- Do the fields hold values of their encodings, with the zeros of Table 10-7? -/
def krWellFormed (r : List Byte) : Bool :=
  decide (1 ≤ krMode r) && decide (krMode r ≤ 7) && decide (krFraming r ≤ 4) &&
  decide (leAt r 3 1 < 4) && decide (leAt r 5 1 < 16) &&
  (if krFraming r = 3 then decide (krAn r ≤ 3) else krAn r == 0) && leAt r 7 1 == 0 &&
  (bytesAt r 120 24).all (· == 0)

/-- The largest sequence number (R259). -/
def seqMax (r : List Byte) : Nat := if krExt r then 2 ^ 64 - 1 else 2 ^ 32 - 1

/-! ### Operations (Table 10-5) -/

abbrev opEncrypt : Nat := 0x0101
abbrev opDecrypt : Nat := 0x0102
abbrev opEspEncap : Nat := 0x0201
abbrev opEspDecap : Nat := 0x0202
abbrev opTlsSeal : Nat := 0x0301
abbrev opTlsOpen : Nat := 0x0302
abbrev opMacProtect : Nat := 0x0401
abbrev opMacValidate : Nat := 0x0402
abbrev opNvmeEncrypt : Nat := 0x0501
abbrev opNvmeDecrypt : Nat := 0x0502

def opExists (op : Nat) : Bool :=
  [opEncrypt, opDecrypt, opEspEncap, opEspDecap, opTlsSeal, opTlsOpen, opMacProtect, opMacValidate,
    opNvmeEncrypt, opNvmeDecrypt].contains op

def opFraming (op : Nat) : Nat := op / 256 - 1
def opFramed (op : Nat) : Bool := decide (1 ≤ opFraming op) && decide (opFraming op ≤ 3)
def opInbound (op : Nat) : Bool := op % 256 == 2

/-- Do the slot's framing, mode and direction fit the operation? -/
def opFits (op : Nat) (r : List Byte) : Bool :=
  krFraming r == opFraming op &&
  (if opFraming op = 0 then true
   else if opFraming op = 4 then krMode r == 5 || krMode r == 6
   else if opFraming op = 2 then krMode r == 1 || krMode r == 2 || krMode r == 7
   else krMode r == 1 || krMode r == 2) &&
  (!opFramed op || krDir r == (if opInbound op then 1 else 0))

/-! ### Parameter block (Table 10-4) -/

abbrev pbAad (b : List Byte) : Nat := leAt b 16 4
abbrev pbText (b : List Byte) : Nat := leAt b 20 4
abbrev pbTag (b : List Byte) : Nat := leAt b 24 1
abbrev pbRef (b : List Byte) : Bool := leAt b 25 1 == 1
abbrev pbNext (b : List Byte) : Nat := leAt b 26 1
abbrev pbPad (b : List Byte) : Nat := leAt b 27 1
abbrev pbSrc (b : List Byte) : Nat := leAt b 32 8
abbrev pbDst (b : List Byte) : Nat := leAt b 40 8

/-- A parameter block with only a text length, as a packet's operation uses. -/
def pbOfPacket (n : Nat) : List Byte := bytesPut (List.replicate 64 0) 20 (natLE 4 n)

/-- Is the block well formed for an operation, apart from what depends on the slot's mode? -/
def pbWellFormed (op : Nat) (b : List Byte) : Bool :=
  let fr := opFraming op
  (if fr = 0 then decide (pbAad b ≤ 65535) else pbAad b == 0) &&
  decide (pbText b ≤ 65536) && (pbTag b == 0 || (fr == 0 && (pbTag b == 12 || pbTag b == 16))) && decide (leAt b 25 1 ≤ 1) &&
  (op == opEspEncap || op == opTlsSeal || pbNext b == 0) &&
  (if op = opTlsSeal then decide (pbPad b ≤ 14)
   else if fr = 4 then pbPad b == 9 || pbPad b == 12 else pbPad b == 0) &&
  leAt b 28 4 == 0 && (bytesAt b 48 16).all (· == 0) &&
  (if fr = 4 then leAt b 8 8 == 0 else fr == 0 || (bytesAt b 0 16).all (· == 0))

/-- What depends on the mode of a valid RAW slot: the nonce's length and the tag length. -/
def pbModeOk (op : Nat) (b r : List Byte) : Bool :=
  opFraming op != 0 || krFraming r != 0 ||
  (if krMode r = 5 ∨ krMode r = 6 then pbTag b == 0
   else leAt b 12 4 == 0 && (pbTag b == 16 || (pbTag b == 12 && decide (krMode r ≤ 2))))

/-- The bytes of tag in the input (R257). -/
def tagIn (op : Nat) (b : List Byte) : Nat := if op = opDecrypt then pbTag b else 0

/-- The length of the input (R257). -/
def inputLen (op : Nat) (b : List Byte) : Nat := pbAad b + pbText b + tagIn op b

/-- The secure data of a protected MACsec frame of `n` bytes: the short length of its SecTAG, or all that the frame
holds (IEEE 802.1AE). -/
def macSecure (frame : List Byte) (n : Nat) : Nat :=
  let sl := beAt frame 15 1 % 64
  if sl ≠ 0 then sl else n - 44

/-- The most output bytes an operation gives (Table 10-5, R258). An inbound operation's output is shorter than its
text by at least what the framing takes: 32 bytes of ESP and its trailer of 2, 21 of a TLS record and its type, 32 of
MACsec. DESIGN CHOICE (log entry 123): the output range of R257 is checked for these bounds, since a trailer or padding
shows only once the text is open. -/
def outputMax (op : Nat) (compat : Bool) (b : List Byte) : Nat :=
  let n := pbText b
  if op = opEncrypt then n + pbTag b
  else if op = opEspEncap then (if compat then n + 32 else 16 + (n + 2 + 3) / 4 * 4 + 16)
  else if op = opTlsSeal then
    if compat then 5 + n + 16 else 5 + min (roundUp (n + 1) (2 ^ pbPad b)) 16385 + 16
  else if op = opMacProtect then n + 32
  else if op = opEspDecap then n - (if compat then 32 else 34)
  else if op = opTlsOpen then n - (if compat then 21 else 22)
  else if op = opMacValidate then n - 32
  else n

/-- The length rules of Table 10-6. -/
def lengthOk (op : Nat) (compat : Bool) (b r input : List Byte) : Bool :=
  let n := pbText b
  let xts := krMode r == 5 || krMode r == 6
  if op = opEncrypt ∨ op = opDecrypt then
    if xts then decide (16 ≤ n) && (!compat || n % 16 == 0)
    else !compat || (decide (16 ≤ n) && n % (if krMode r = 7 then 64 else 16) == 0)
  else if op = opEspEncap then !compat || n % 16 == 0
  else if op = opEspDecap then decide (32 ≤ n) && (!compat || n % 16 == 0)
  else if op = opTlsSeal then if compat then n % 16 == 0 && decide (n ≤ 16624) else decide (n ≤ 16384)
  else if op = opTlsOpen then decide (21 ≤ n)
  else if op = opMacProtect then decide (13 ≤ n) && (!compat || (n - 12) % 16 == 0)
  else if op = opMacValidate then decide (45 ≤ n) && (!compat || macSecure input n % 16 == 0)
  else n % 2 ^ pbPad b == 0

/-! ### Sequence numbers of inbound operations (R259) -/

/-- The 64-bit number of an ESP packet whose low half is `lo`, from the highest seen (RFC 4303,
Appendix A, with a window of 64, its high half of 32 bits). -/
def esnInfer (highest lo : Nat) : Nat :=
  let tl := highest % 2 ^ 32
  let th := highest / 2 ^ 32
  if 63 ≤ tl then (if tl - 63 ≤ lo then th else (th + 1) % 2 ^ 32) * 2 ^ 32 + lo
  else if 2 ^ 32 + tl - 63 ≤ lo then ((th + 2 ^ 32 - 1) % 2 ^ 32) * 2 ^ 32 + lo
  else th * 2 ^ 32 + lo

/-- The 64-bit packet number of a MACsec frame (IEEE 802.1AE, XPN). -/
def xpnInfer (highest lo : Nat) : Nat :=
  let lowest := highest + 1 - 64
  if lowest % 2 ^ 32 ≥ 2 ^ 31 ∧ lo < 2 ^ 31 then (lowest / 2 ^ 32 + 1) * 2 ^ 32 + lo
  else lowest / 2 ^ 32 * 2 ^ 32 + lo

/-- The number of an inbound request; `ahead`: TLS records of the slot admitted before it and not
released. A TLS record carries no number: it is the next one. -/
def inboundSeq (op : Nat) (r text : List Byte) (ahead : Nat) : Nat :=
  if op = opEspDecap then
    if krExt r then esnInfer (krSeq r) (beAt text 4 4) else beAt text 4 4
  else if op = opMacValidate then
    if krExt r then xpnInfer (krSeq r) (beAt text 16 4) else beAt text 16 4
  else if krSeq r = 0 ∧ krWindow r = 0 then ahead else krSeq r + 1 + ahead

/-- Is the number already seen, or below the window? -/
def seqSeen (r : List Byte) (n : Nat) : Bool :=
  decide (n ≤ krSeq r) && (decide (64 ≤ krSeq r - n) || (krWindow r).testBit (krSeq r - n))

/-- The record after an authenticated request with number `n`: highest number and window. -/
def windowUpdate (r : List Byte) (n : Nat) : List Byte :=
  if krSeq r < n then
    krSetSeq (krSetWindow r ((krWindow r * 2 ^ (n - krSeq r)) % 2 ^ 64 ||| 1)) n
  else krSetWindow r (krWindow r ||| 2 ^ (krSeq r - n))

/-! ### The computation -/

/-- Data units in turn, unit `i` under the tweak LBA + `i`. -/
def xtsUnits (f : List Byte → List Byte → List Byte) (size : Nat) : Nat → Nat → List Byte → List Byte
  | 0, _, _ => []
  | n + 1, lba, text =>
    bytesAt (f (natLE 16 lba) (text.take size)) 0 size ++ xtsUnits f size n (lba + 1) (text.drop size)

/-- Trailing zeros removed. -/
def stripZeros (l : List Byte) : List Byte := (l.reverse.dropWhile (· == 0)).reverse

/-- The 16-byte SecTAG of a slot and a packet number, for `n` bytes of secure data. -/
def secTag (r : List Byte) (pn n : Nat) : List Byte :=
  natBE 2 0x88E5 ++ natBE 1 (0x2C + krAn r) ++ natBE 1 (if n < 48 then n else 0) ++ natBE 4 pn ++ natBE 8 (krSci r)

/-- The MACsec nonce. -/
def macNonce (r : List Byte) (pn : Nat) : List Byte :=
  if krExt r then xorBytes (natBE 4 (krId r) ++ natBE 8 pn) (bytesAt r 80 12) else natBE 8 (krSci r) ++ natBE 4 pn

/-- The additional data of ESP. -/
def espAad (r : List Byte) (spi seq : Nat) : List Byte :=
  natBE 4 spi ++ (if krExt r then natBE 8 seq else natBE 4 seq)

/-- The result: output and recovered `NEXT`; `none` where authentication fails. `par` is the block,
`input` the bytes of R257, `seq` the number of the request. -/
def cipherCompute (op : Nat) (compat : Bool) (par r input : List Byte) (seq : Nat) : Option (List Byte × Nat) :=
  let m := krMode r
  let key := krKey r
  let n := pbText par
  if op = opEncrypt ∨ op = opDecrypt then
    let nonce := bytesAt par 0 12
    let aad := bytesAt input 0 (pbAad par)
    let text := bytesAt input (pbAad par) n
    let tag := bytesAt input (pbAad par + n) (tagIn op par)
    if m = 5 ∨ m = 6 then
      some (bytesAt ((if op = opEncrypt then Config.xtsEncrypt else Config.xtsDecrypt) key (bytesAt par 0 16) text) 0 n, 0)
    else if m = 3 ∨ m = 4 then
      if op = opEncrypt then some (text ++ aeadTag16 m key nonce (aad ++ text) [], 0)
      else if (aeadTag16 m key nonce (aad ++ text) []).take tag.length = tag then some (text, 0) else none
    else if op = opEncrypt then some ((aeadSeal m key nonce aad text).take (n + pbTag par), 0)
    else (aeadOpen m key nonce aad text tag).map fun t => (t, 0)
  else if op = opEspEncap then
    let head := natBE 4 (krId r) ++ natBE 4 seq ++ natBE 8 seq
    let pad := (4 - (n + 2) % 4) % 4
    let inner := if compat then input
      else input ++ (List.range pad).map (fun i => BitVec.ofNat 8 (i + 1)) ++ natBE 1 pad ++ natBE 1 (pbNext par)
    some (head ++ aeadSeal m key (bytesAt r 80 4 ++ natBE 8 seq) (espAad r (krId r) seq) inner, 0)
  else if op = opEspDecap then
    let ct := bytesAt input 16 (n - 32)
    if beAt input 0 4 ≠ krId r then none
    else
      match aeadOpen m key (bytesAt r 80 4 ++ bytesAt input 8 8) (espAad r (krId r) seq) ct (bytesAt input (n - 16) 16) with
      | none => none
      | some t =>
        let pad := leAt t (t.length - 2) 1
        if compat then some (t, 0)
        else if t.length < pad + 2 then none
        else some (t.take (t.length - 2 - pad), leAt t (t.length - 1) 1)
  else if op = opTlsSeal then
    let inner := if compat then input
      else bytesAt (input ++ natBE 1 (pbNext par)) 0 (min (roundUp (n + 1) (2 ^ pbPad par)) 16385)
    let head := natBE 1 0x17 ++ natBE 2 0x0303 ++ natBE 2 (inner.length + 16)
    some (head ++ aeadSeal m key (xorBytes (bytesAt r 80 12) (natBE 12 seq)) head inner, 0)
  else if op = opTlsOpen then
    match aeadOpen m key (xorBytes (bytesAt r 80 12) (natBE 12 seq)) (bytesAt input 0 5)
        (bytesAt input 5 (n - 21)) (bytesAt input (n - 16) 16) with
    | none => none
    | some t =>
      if compat then some (t, 0)
      else if stripZeros t = [] then none
      else some ((stripZeros t).take ((stripZeros t).length - 1), leAt (stripZeros t) ((stripZeros t).length - 1) 1)
  else if op = opMacProtect then
    let head := bytesAt input 0 12 ++ secTag r seq (n - 12)
    some (head ++ aeadSeal m key (macNonce r seq) head (bytesAt input 12 (n - 12)), 0)
  else if op = opMacValidate then
    let k := macSecure input n
    if beAt input 20 8 ≠ krSci r ∨ beAt input 14 1 % 4 ≠ krAn r ∨ n < 44 + k then none
    else
      (aeadOpen m key (macNonce r seq) (bytesAt input 0 28) (bytesAt input 28 k) (bytesAt input (28 + k) 16)).map
        fun t => (bytesAt input 0 12 ++ t, 0)
  else
    let size := 2 ^ pbPad par
    let f := if op = opNvmeEncrypt then Config.xtsEncrypt key else Config.xtsDecrypt key
    some (xtsUnits f size (n / size) (leAt par 0 8) input, 0)

end Sys2Proof.Machine
end

