-- ==== Sys2Proof/Machine/PrmOps.lean ====
section
/-! DEFINITION. The mesh: routes, buffers, arbitration of links, and the ending of a packet by an abort tail and
a void (R63 to R71, R81, R88). -/

namespace Sys2Proof.Machine

/-- Key of the input buffer that link (station `s`, direction `d`) feeds, for a channel. -/
def linkKey (st d vc : Nat) : Nat := 4 * (4 * st + d) + vc

/-- Key of the injection buffer of an endpoint, for a channel. -/
def injKey (ep vc : Nat) : Nat := 4096 + 4 * ep + vc

/-- The station that link (station, direction) leads to (R63). -/
def linkTo (st d : Nat) : Nat :=
  if d = 0 then st + 1 else if d = 1 then st - 1 else if d = 2 then st + 16 else st - 16

/-- The direction of the next link: along the row to the destination column, then along the column
(R68); `none` at the destination station. -/
def nextDir (st dst : Nat) : Option Nat :=
  if st % 16 < dst % 16 then some 0
  else if dst % 16 < st % 16 then some 1
  else if st / 16 < dst / 16 then some 2
  else if dst / 16 < st / 16 then some 3
  else none

/-- The station at which the flits of a buffer stand. -/
def bufStation (p : Plan) (key : Nat) : Nat :=
  if key < 4096 then linkTo (key / 16) (key / 4 % 4) else epStation p ((key - 4096) / 4)

/-- Does a station run: is its tile out of Hold (Table 18-2)? -/
def State.stationRuns (s : State) (st : Nat) : Bool := !(s.tile (557 + st)).hold

def State.buf (s : State) (key : Nat) : List Flit := spGet (fun _ => []) s.prm.bufs key
def State.setBuf (s : State) (key : Nat) (l : List Flit) : State :=
  s.withPrm { s.prm with bufs := spSet (fun _ => []) s.prm.bufs key l }

def flightNone (_ : Nat) : Flight := ⟨[], 0, 0, false, none, false⟩
def State.flight (s : State) (k : Nat) : Flight := spGet flightNone s.prm.flights k
def State.setFlight (s : State) (k : Nat) (f : Flight) : State :=
  s.withPrm { s.prm with flights := spSet flightNone s.prm.flights k f }

/-- A packet leaves the mesh. -/
def State.dropFlight (s : State) (k : Nat) : State :=
  s.withPrm { s.prm with flights := spErase s.prm.flights k }

/-- The credits that the far buffer of a link has at reset, for one channel: the spec gives no
number; sixteen flits, as an injection buffer holds (R111; DESIGN CHOICE, log entry 13). -/
def creditReset (_ : Nat) : Nat := 16
def State.credit (s : State) (key : Nat) : Nat := spGet creditReset s.prm.credits key
def State.setCredit (s : State) (key n : Nat) : State :=
  s.withPrm { s.prm with credits := spSet creditReset s.prm.credits key n }

def State.owner (s : State) (key : Nat) : Nat := spGet (fun _ => 0) s.prm.owner key
def State.setOwner (s : State) (key n : Nat) : State :=
  s.withPrm { s.prm with owner := spSet (fun _ => 0) s.prm.owner key n }

def injNone (_ : Nat) : Injector := ⟨false, 0, 0, 0, [], false, none⟩
def State.injector (s : State) (ep : Nat) : Injector := spGet injNone s.prm.inj ep
def State.setInjector (s : State) (ep : Nat) (i : Injector) : State :=
  s.withPrm { s.prm with inj := spSet injNone s.prm.inj ep i }

def State.rxOf (s : State) (ep vc : Nat) : Option RxPacket := spGet (fun _ => none) s.prm.rx (4 * ep + vc)
def State.setRx (s : State) (ep vc : Nat) (r : Option RxPacket) : State :=
  s.withPrm { s.prm with rx := spSet (fun _ => none) s.prm.rx (4 * ep + vc) r }

/-! ### Flits -/

/-- The bytes of a header. -/
def wordBytes (w : List Word) : List Byte := w.flatMap fun x => natLE 8 x.toNat

/-- A flit with its sideband (Table 3-1): the header words stand in a head flit only, and 128 valid bytes are
encoded as 0. -/
def mkFlit (vc pkt : Nat) (head tail abort poison : Bool) (vbytes : Nat) (words : List Word) (data : List Byte) : Flit :=
  { pkt := pkt, head := head, tail := tail, abort := abort, poison := poison, vbytes := vbytes, paid := none, data := data,
    ecc := Config.flitEcc ((if head then wordBytes words else []) ++ data)
      (vc + 4 * head.toNat + 8 * tail.toNat + 16 * (vbytes % 128) + 2048 * abort.toNat + 4096 * poison.toNat) }

/-- A flit forwarded as known bad (R87). -/
def Flit.bad (f : Flit) (fl : Flight) : Flit :=
  { mkFlit fl.vc f.pkt f.head f.tail f.abort true f.vbytes fl.words f.data with paid := f.paid }

/-- A header enters the mesh as a new packet, on the given channel; its flits follow. -/
def State.newFlight (s : State) (w : List Word) (src vc : Nat) : Nat × State :=
  (s.prm.nextPkt,
   ((s.setFlight s.prm.nextPkt ⟨w, src, vc, false, none, false⟩).withPrm
     { (s.setFlight s.prm.nextPkt ⟨w, src, vc, false, none, false⟩).prm with nextPkt := s.prm.nextPkt + 1 }))

/-- A flit stands at the end of the injection buffer of an endpoint. -/
def State.pushFlit (s : State) (ep vc : Nat) (f : Flit) : State :=
  s.setBuf (injKey ep vc) (s.buf (injKey ep vc) ++ [f])

/-- Has the injection buffer of an endpoint a place for a flit of a channel (R65, R111)? -/
def State.injRoom (s : State) (ep vc : Nat) : Bool := decide ((s.buf (injKey ep vc)).length < 16)

/-! ### Ejection -/

/-- Flits of a channel that wait whole at a device unit. A void takes no place: it only closes or wakes (R81). -/
def State.inboxFlits (s : State) (ep vc : Nat) : Nat :=
  (((s.inboxOf ep).filter fun p => hGet p.words CH.kind != kVoid && kindVc (hGet p.words CH.kind) == vc).map fun p =>
    flitCount (hGet p.words CH.len)).sum

/-! ### Arbitration of a link (R70, R71) -/

def linkArbNone (_ : Nat) : LinkArb := ⟨0, 0, [], [], [], []⟩

/-- The arbitration of a link for a flit sent now: a new round begins with the shares of the live plan after 256
flits, or after the 128 ns that 256 flit cycles take. -/
def State.linkArb (s : State) (st d : Nat) : LinkArb :=
  let a := spGet linkArbNone s.prm.arb (4 * st + d)
  let now := s.clk.elapsed / (128 * nsUnit)
  if a.slots = 0 ∨ a.slots = 256 ∨ a.round ≠ now then
    ⟨now, 0, (List.range 16).map (linkShare s.plan st d), [], [], a.last⟩
  else a

/-- A flit that waits for a link: its buffer, its class and its channel. -/
structure LinkAsk where
  key : Nat
  cls : Nat
  vc : Nat
  deriving DecidableEq, Repr

/-- The flits that may cross a link now: at the front of a buffer at its station, on their route, with a credit
and the channel (R65, R66). A flit is of the share class of the endpoint that injected it. -/
def State.linkAsks (s : State) (st d : Nat) : List LinkAsk :=
  s.prm.bufs.filterMap fun (key, l) =>
    match l with
    | [] => none
    | f :: _ =>
      let fl := s.flight f.pkt
      let nk := linkKey st d fl.vc
      if bufStation s.plan key = st ∧ fl.dropAt ≠ some st ∧
          nextDir st (epStation s.plan (hGet fl.words CH.dstEp)) = some d ∧
          0 < s.credit nk ∧ s.owner nk = (if f.head then 0 else f.pkt + 1) then
        some ⟨key, epShareClass s.plan fl.src, fl.vc⟩
      else none

/-- A count of a class. -/
def ofClass (l : List Nat) (k : Nat) : Nat := l.getD k 0

/-- Has the class not used up its guarantee in the round? -/
def LinkArb.owed (a : LinkArb) (k : Nat) : Bool := decide (ofClass a.used k < ofClass a.shares k)

/-- How far a channel is from its turn in a class's round robin over the channels 1 to 3. -/
def LinkArb.turn (a : LinkArb) (x : LinkAsk) : Nat := (x.vc + 2 - ofClass a.last x.cls % 3) % 3

/-- Within each class the control channel goes first and the others in turn. -/
def LinkArb.byChannel (a : LinkArb) (l : List LinkAsk) : List LinkAsk :=
  l.filter fun x => l.all fun y => y.cls != x.cls || x.vc == 0 || (y.vc != 0 && decide (a.turn x ≤ a.turn y))

/-- The flits of which one crosses next (R70): of classes that have not used up their guarantee, control first;
else of the classes with shares, in proportion to them; else of the rest. Where several remain the spec leaves
the choice open, and the row names one (DESIGN CHOICE, log entry 126). -/
def LinkArb.winners (a : LinkArb) (asks : List LinkAsk) : List LinkAsk :=
  let owed := asks.filter fun x => a.owed x.cls
  let ctl := owed.filter fun x => x.vc == 0
  let shared := asks.filter fun x => decide (0 < ofClass a.shares x.cls)
  if ctl ≠ [] then ctl
  else if owed ≠ [] then a.byChannel owed
  else if shared ≠ [] then
    a.byChannel (shared.filter fun x => shared.all fun y =>
      decide (ofClass a.extra x.cls * ofClass a.shares y.cls ≤ ofClass a.extra y.cls * ofClass a.shares x.cls))
  else a.byChannel asks

/-- A list of counts by class with one of them replaced. -/
def setClass (l : List Nat) (k v : Nat) : List Nat :=
  (l ++ List.replicate (16 - l.length) 0).set k v

/-- The arbitration after a flit of a class and channel has been sent. -/
def LinkArb.served (a : LinkArb) (cls vc : Nat) : LinkArb :=
  let b : LinkArb := { a with slots := a.slots + 1, last := if vc = 0 then a.last else setClass a.last cls vc }
  if a.owed cls then { b with used := setClass a.used cls (ofClass a.used cls + 1) }
  else { b with extra := setClass a.extra cls (ofClass a.extra cls + 1) }

/-- Does the buffer's front flit win the link? -/
def State.winsLink (s : State) (st d key : Nat) : Bool :=
  ((s.linkArb st d).winners (s.linkAsks st d)).any fun x => x.key == key

/-- A flit crosses a link: it takes a credit of the far buffer, holds the channel up to its tail, and is counted. -/
def State.crossLink (s : State) (st d vc cls : Nat) (f : Flit) : State :=
  let nk := linkKey st d vc
  let s1 := (s.setCredit nk (s.credit nk - 1)).setBuf nk (s.buf nk ++ [{ f with paid := none }])
  let s2 := s1.setOwner nk (if f.tail then 0 else f.pkt + 1)
  s2.withPrm { s2.prm with
    linkFlits := spSet (fun _ => 0) s2.prm.linkFlits (4 * st + d)
      ((spGet (fun _ => 0) s2.prm.linkFlits (4 * st + d) + 1) % 2 ^ 64),
    arb := spSet linkArbNone s2.prm.arb (4 * st + d) ((s.linkArb st d).served cls vc) }

/-! ### Headers that stations build -/

/-- Is a header for an endpoint whose record is under amendment held at injection (R90)? -/
def State.heldAtInjection (s : State) (w : List Word) : Bool :=
  s.underAmendment secPrmEndpoints 0 (hGet w CH.dstEp)

/-- Headers that wait at a station, by endpoint. -/
def State.waiting (s : State) (ep : Nat) : List (Nat × List Word) := spGet (fun _ => []) s.prm.wait ep
def State.setWaiting (s : State) (ep : Nat) (l : List (Nat × List Word)) : State :=
  s.withPrm { s.prm with wait := spSet (fun _ => []) s.prm.wait ep l }

/-- May a header enter a channel of an endpoint's injection buffer: a place is free there (R65), no packet of that
channel is in injection (R66), and its destination is not under amendment (R90)? -/
def State.mayEnter (s : State) (ep vc : Nat) (w : List Word) : Bool :=
  s.injRoom ep vc && !((s.injector ep).active && (s.flight (s.injector ep).pkt).vc == vc) && !s.heldAtInjection w

/-- A packet of one flit enters the injection buffer of an endpoint. -/
def State.putHeader (s : State) (ep vc : Nat) (w : List Word) : State :=
  let (k, s1) := s.newFlight w ep vc
  s1.pushFlit ep vc (mkFlit vc k true true false false 64 w [])

/-- May a header that a station has built go at once: does none of its channel wait before it? -/
def State.mayGo (s : State) (ep vc : Nat) (w : List Word) : Bool :=
  s.mayEnter ep vc w && ((s.waiting ep).all fun x => x.1 != vc)

/-- A header that a station has built is injected, or waits until it may be. -/
def State.stationHeader (s : State) (ep vc : Nat) (w : List Word) : State :=
  if s.mayGo ep vc w then s.putHeader ep vc w else s.setWaiting ep (s.waiting ep ++ [(vc, w)])

/-- A waiting header leaves its station: checked under the record now live, refused where its endpoint is absent
(R90). -/
def State.waitLeaves (s : State) (ep : Nat) (x : Nat × List Word) : State :=
  let s1 := s.setWaiting ep ((s.waiting ep).erase x)
  if epPresent s.plan (hGet x.2 CH.dstEp) then s1.putHeader ep x.1 x.2
  else (s1.count F.PRM_INJ_REFUSE_COUNT).fault uPrm 0x02 1 (hGet x.2 CH.srcEp * 65536 + hGet x.2 CH.dstEp)

/-- The void that closes an aborted packet follows its abort tail (R65, R81); the port remembers it (R88). -/
def State.closeAborted (s : State) (ep vc : Nat) (w : List Word) (opcode bytes : Nat) : State :=
  let v := voidOf w opcode bytes
  let s1 := s.stationHeader ep vc v
  s1.setInjector ep { s1.injector ep with
    last := some (if s.mayGo ep vc v then some s.prm.nextPkt else none, opcode, s.clk.elapsed) }

/-- Has the port's packet been aborted at this very instant? -/
def State.abortedNow (s : State) (ep : Nat) : Bool :=
  match (s.injector ep).last with
  | some (_, _, t) => t == s.clk.elapsed
  | none => false

/-- The last of the headers that wait, where it is a void, with another `OPCODE`. -/
def lowerLast (opcode : Nat) (l : List (Nat × List Word)) : List (Nat × List Word) :=
  match l.reverse with
  | (vc, w) :: t => if hGet w CH.kind = kVoid then (t.reverse ++ [(vc, hSet w CH.opcode opcode)]) else l
  | [] => l

/-- A further cause of an abort in one cycle: the void carries the lowest `OPCODE` (R88), also one that waits at the
station. -/
def State.lowerVoid (s : State) (ep opcode : Nat) : State :=
  match (s.injector ep).last with
  | none => s
  | some (k?, op, t) =>
    if t = s.clk.elapsed ∧ opcode < op then
      let s1 := match k? with
        | none => s.setWaiting ep (lowerLast opcode (s.waiting ep))
        | some k =>
          if hGet (s.flight k).words CH.kind = kVoid then
            s.setFlight k { s.flight k with words := hSet (s.flight k).words CH.opcode opcode }
          else s
      s1.setInjector ep { s1.injector ep with last := some (k?, opcode, t) }
    else s

/-- The last flit of a buffer made the abort tail of its packet. -/
def cutLast (vc : Nat) (w : List Word) (l : List Flit) : List Flit :=
  match l.reverse with
  | f :: t => t.reverse ++ [{ mkFlit vc f.pkt f.head true true f.poison f.vbytes w f.data with paid := f.paid }]
  | [] => []

/-- The abort tail of the packet in injection: a flit of its own where the buffer has a place, else the packet's last
flit there becomes it (DESIGN CHOICE, log entry 13). -/
def State.pushAbort (s : State) (ep : Nat) : State :=
  let k := (s.injector ep).pkt
  let f := s.flight k
  if s.injRoom ep f.vc then s.pushFlit ep f.vc (mkFlit f.vc k false true true false 1 [] [0])
  else s.setBuf (injKey ep f.vc) (cutLast f.vc f.words (s.buf (injKey ep f.vc)))

/-- The packet in injection at an endpoint ends with an abort tail and the void of R81; the abort is
counted. `discard`: the following flits are discarded until a HEAD. -/
def State.abortInjection (s : State) (ep opcode : Nat) (discard : Bool) : State :=
  let i := s.injector ep
  if i.active then
    let f := s.flight i.pkt
    let s2 := ((s.pushAbort ep).setInjector ep { i with active := false, rest := [], discarding := discard }).count F.PRM_ABORT_COUNT_COUNT
    s2.closeAborted ep f.vc f.words opcode (i.got - 64)
  else s.lowerVoid ep opcode

/-- A completion that the station of endpoint `ep` returns for a command it refused or discarded
(R78, R80, R580). -/
def State.stationAnswer (s : State) (ep : Nat) (w : List Word) (status : Nat) : State :=
  if hGet w CH.kind = kCommand then s.stationHeader ep 2 (deviceCompletion w status (s.timeNs 0) (s.timeFrac 0))
  else s

/-- The error fields of a header: source and destination endpoint (Table 3-12). -/
def srcDst (w : List Word) : Nat := hGet w CH.srcEp * 65536 + hGet w CH.dstEp

/-- A header refused at a detached or foreign STAMPED endpoint: counted, and a command answered with
0xF1 (R80, R105). -/
def State.tdRefuse (s : State) (w : List Word) : State :=
  ((s.count F.PRM_TD_REFUSE_COUNT).fault uPrm 0x03 2 (srcDst w)).stationAnswer (hGet w CH.dstEp) w 0xF1

end Sys2Proof.Machine
end

