-- ==== Sys2Proof/Machine/Pav.lean ====
section
/-! DEFINITION. Pavilions (04_pavilions.md): loading, unloading, ports, windows, clocks, violations. -/

namespace Sys2Proof.Machine

def groupReset (_ : Nat) : PavGroup :=
  { phase := .idle, src := 0, len := 0, host := false, hdr := [], frames := [], scrubs := 0,
    scrubForLoad := false, quiesceReq := false, quiesceAck := false,
    sleepReq := false, upset := false, clocksOn := false, portsUp := false, userReset := false,
    khz := [0, 0, 0, 0], actKhz := [0, 0, 0, 0], drop := 0, viols := 0, reads := [], late := 0, bus := [],
    busBusy := false, violAt := none, fencedAt := none, relAt := none }

def State.grp (s : State) (g : Nat) : PavGroup := spGet groupReset s.pav.groups g
def State.setGrp (s : State) (g : Nat) (x : PavGroup) : State :=
  s.withPav { s.pav with groups := spSet groupReset s.pav.groups g x }

/-- The group states of Table 4-3. -/
abbrev gEmpty : Nat := 0
abbrev gLoading : Nat := 1
abbrev gRunning : Nat := 2
abbrev gFenced : Nat := 3
abbrev gUnloading : Nat := 4

def State.grpState (s : State) (g : Nat) : Nat := s.get (F.PAV_GRP_STATE_STATE g)
/-- A group's state; TDIs over a group that leaves RUNNING enter ERROR (R422). -/
def State.setGrpState (s : State) (g st : Nat) : State :=
  (if s.grpState g = gRunning ∧ st ≠ gRunning then s.tdiGroupLeft g else s).set (F.PAV_GRP_STATE_STATE g) st

/-- The endpoints of a group's ports (R96). -/
def grpPorts (p : Plan) (g : Nat) : List Nat :=
  (grpMembers p g).flatMap fun m => [0x80 + 2 * m, 0x80 + 2 * m + 1]

/-- The group of a pavilion port, by endpoint. -/
def epGroup (p : Plan) (ep : Nat) : Option Nat :=
  if epClass ep = some 6 then grpOf p ((ep - 0x80) / 2) else none

/-- The TD of the stream loaded behind an attached pavilion port (R79, R80). -/
def State.loadedTd (s : State) (ep : Nat) : Option Nat :=
  match epGroup s.plan ep with
  | some g => if (s.grp g).portsUp then some (grpLoadTd s.plan g) else none
  | none => none

/-- Stands the group in Hold: its clocks, engines and timers have stopped (R125)? Hold is of the pavilions' whole
domain, index 6 (R487), tiles in Night among them. -/
def State.grpHeld (s : State) (g : Nat) : Bool :=
  s.get (F.PWR_DOM_STATUS_HOLD 6) == 1 || (grpMembers s.plan g).any fun m => (s.tile (284 + m)).hold

/-- Does the Hold of its group stop tenant logic behind a port? -/
def State.portHeld (s : State) (ep : Nat) : Bool :=
  match epGroup s.plan ep with
  | some g => s.grpHeld g
  | none => false

/-- Did the group enter FENCED, or meet a violation, at this very instant (R124)? -/
def State.fencedNow (s : State) (g : Nat) : Bool := (s.grp g).fencedAt == some s.clk.elapsed
def State.violNow (s : State) (g : Nat) : Bool := (s.grp g).violAt == some s.clk.elapsed

/-- The power of a tile brought up at once: Clear, the wake counted. -/
def State.powerUp (s : State) (t : Nat) : State :=
  let x := s.tile t
  if x.sky = 0 ∧ !x.waking then s else s.setTile t { x with sky := 0, waking := false, wakes := (x.wakes + 1) % 2 ^ 32 }

/-- The group is in Clear: its tiles run and it sleeps no more (R104, R119, R122). -/
def State.grpAwake (s : State) (g : Nat) : State :=
  (grpMembers s.plan g).foldl (fun s m => s.powerUp (284 + m)) (s.set (F.PAV_GRP_STATE_SLEEP g) 0)

/-- The sky state of the tiles of an EMPTY group (R119): Night, or Overcast where `PWR_POLICY` forbids Night; a
tile that may enter neither stays as it is. -/
def emptySky (p : Plan) (t : Nat) : Option Nat :=
  if (tileAllow p t).testBit 2 then some 3 else if (tileAllow p t).testBit 1 then some 2 else none

/-- Pavilions of an EMPTY group lose their power, by the policy of plan `p`. -/
def State.powerDown (s : State) (p : Plan) (members : List Nat) : State :=
  members.foldl (fun s m =>
    match emptySky p (284 + m) with
    | some k => s.setTile (284 + m) { s.tile (284 + m) with sky := k, waking := false }
    | none => s) s

def State.grpPowerDown (s : State) (g : Nat) : State := s.powerDown s.plan (grpMembers s.plan g)

/-! ### Fabric (Table 4-1) -/

/-- The LUT6 cells, words of flip-flops, DSP blocks and words of block RAM of one pavilion. -/
abbrev fabricLuts : Nat := 49152
abbrev fabricFfWords : Nat := 1536
abbrev fabricDsps : Nat := 192
abbrev fabricRamWords : Nat := 196608

/-- The bits of a DSP block's register: the product of 27 by 24 bits. Table 4-1 gives the multiplier, not the register
(DESIGN CHOICE, log entry 143). -/
abbrev fabricDspBits : Nat := 51

/-- The contents of a part of the fabric of `n` places. -/
def fabricPart (n : Nat) (l : List (Nat × Word)) : Sparse Word :=
  (List.range n).filterMap fun i => (l.find? fun x => x.1 == i && x.2 != 0)

def fabricZero (_ : Nat) : Fabric := ⟨[], [], [], [], []⟩
def State.fabric (s : State) (m : Nat) : Fabric := spGet fabricZero s.pav.fabric m
def State.setFabric (s : State) (m : Nat) (x : Fabric) : State :=
  s.withPav { s.pav with fabric := spSet fabricZero s.pav.fabric m x }

/-- A change of the fabric of every member of a group. -/
def State.mapFabric (s : State) (g : Nat) (f : Fabric → Fabric) : State :=
  (grpMembers s.plan g).foldl (fun s m => s.setFabric m (f (s.fabric m))) s

/-- User reset (R123): flip-flops return to their stream initial values, DSP registers are cleared, block RAM
keeps its contents. -/
def Fabric.userReset (x : Fabric) : Fabric :=
  { x with ffs := fabricPart fabricFfWords (Config.pavFlipFlops x.config), dsp := [] }

/-- The fabric of a pavilion after its frame is written: what the stream gives it (R101, R104). -/
def fabricOf (words : List Byte) : Fabric :=
  ⟨words, fabricPart fabricLuts (Config.pavLuts words), fabricPart fabricFfWords (Config.pavFlipFlops words), [],
    fabricPart fabricRamWords (Config.pavBlockRam words)⟩

/-- What tenant logic has made of a pavilion's storage elements by now, which no rule states: free. -/
def Fabric.ran (x : Fabric) (m : Nat) (v : Word) : Fabric :=
  { x with
    ffs := fabricPart fabricFfWords (Config.pavLogic 0 m v)
    dsp := (fabricPart fabricDsps (Config.pavLogic 1 m v)).map fun y => (y.1, y.2 &&& BitVec.ofNat 64 (2 ^ fabricDspBits - 1))
    bram := fabricPart fabricRamWords (Config.pavLogic 2 m v) }

/-- The user clocks of a group have run: what its fabric holds is tenant logic's. The state is brought up to date
where the clocks start, where they stop, and where user reset strikes; nothing reads it in between (R108). -/
def State.logicRan (s : State) (g : Nat) : State :=
  let (v, s1) := s.takeFree
  (grpMembers s.plan g).foldl (fun s m => s.setFabric m ((s.fabric m).ran m v)) s1

/-! ### Ports -/

def State.txCredit (s : State) (ep vc : Nat) : Nat := spGet (fun _ => 0) s.pav.txCredits (4 * ep + vc)
def State.rxCredit (s : State) (ep vc : Nat) : Nat := spGet (fun _ => 0) s.pav.rxCredits (4 * ep + vc)
def State.setTxCredit (s : State) (ep vc n : Nat) : State :=
  s.withPav { s.pav with txCredits := spSet (fun _ => 0) s.pav.txCredits (4 * ep + vc) n }
def State.setRxCredit (s : State) (ep vc n : Nat) : State :=
  s.withPav { s.pav with rxCredits := spSet (fun _ => 0) s.pav.rxCredits (4 * ep + vc) n }

/-- One port attaches: 16 transmit credits at the tenant and no receive credit at the device, on
every channel; R85's block on it ends (R111, R123). -/
def attachPort (s : State) (ep : Nat) : State :=
  let s1 := (List.range 4).foldl (fun s vc => (s.setTxCredit ep vc 16).setRxCredit ep vc 0) s
  (s1.withPrm { s1.prm with blocked := s1.prm.blocked.filter (· != ep) }).emit (.tenant ep "PORT_UP" 1)

/-- One port detaches (R105 step 2): the packet in injection ends with the void 0x0003, and a packet
held at the ejection port, not wholly delivered, is refused. -/
def detachPort (s : State) (ep : Nat) : State :=
  let s1 := s.abortInjection ep 0x0003 true
  ((List.range 4).foldl (fun s vc =>
    match s.rxOf ep vc with
    | some r => if r.discard then s else (s.setRx ep vc (some { r with discard := true })).tdRefuse r.words
    | none => s) s1).emit (.tenant ep "PORT_UP" 0)

def State.attachPorts (s : State) (g : Nat) : State :=
  let s1 := (grpPorts s.plan g).foldl attachPort s
  s1.setGrp g { s1.grp g with portsUp := true }

def State.detachPorts (s : State) (g : Nat) : State :=
  if (s.grp g).portsUp then
    let s1 := (grpPorts s.plan g).foldl detachPort s
    s1.setGrp g { s1.grp g with portsUp := false }
  else s

/-- Responses to the group's outstanding HBM reads are discarded; accepted writes complete (R105, R122). -/
def State.discardHbmReads (s : State) (g : Nat) : State :=
  let ms := grpMembers s.plan g
  (s.withPav { s.pav with
      hbm := s.pav.hbm.map fun r => if ms.contains r.member && !r.write then { r with discard := true } else r })

/-- An access beyond the control page of a group that is not RUNNING (R115): counted; a read answers all ones. -/
def State.windowDrop (s : State) (g : Nat) (write : Bool) (tag : Nat) : State :=
  let x := s.grp g
  let s1 := (s.setGrp g { x with drop := satInc 0xFFFFFFFF x.drop }).count F.PAV_WIN_DROP_COUNT
  if write then s1 else s1.emit (.hostRead tag (List.replicate 8 0xFF) false)

/-- Outstanding register reads answer all ones; data that returns for them is discarded (R117, R122). Accesses
that the bus still offered never reach tenant logic (R115). -/
def State.failReads (s : State) (g : Nat) : State :=
  let x := s.grp g
  let s1 := ((s.emits (x.reads.map fun t => .hostRead t (List.replicate 8 0xFF) false)).setGrp g
    { x with reads := [], late := 0, bus := [] })
  x.bus.foldl (fun s a => s.windowDrop g a.1 a.2.2.2) s1

/-- A command's outcome (Table 4-10). -/
def State.pavStatus (s : State) (result g op : Nat) : State :=
  s.sets [(F.PAV_CMD_STATUS_LAST_RESULT, result), (F.PAV_CMD_STATUS_LAST_GROUP, g),
    (F.PAV_CMD_STATUS_LAST_OP, op)]

/-- A command is refused with a condition, which is recorded (R104, R129). A condition of a LOAD also sets
`LOAD_FAIL` (Table 4-12); that of another command has no status bit. -/
def State.pavRefuse (s : State) (cond g op : Nat) : State :=
  (if op = 1 then s.fault uPav cond 0 g else s.capture uPav cond g).pavStatus cond g op

def State.pavDone (s : State) (g : Nat) : State :=
  (s.wr R.PAV_DONE (setBit (s.rd R.PAV_DONE) g true)).fltRefresh uPav

/-- The members of a group leave every engine's queue. -/
def State.purgeEngines (s : State) (g : Nat) : State :=
  let ms := grpMembers s.plan g
  (s.withPav { s.pav with
      engines := (List.range 8).foldl (fun e k =>
        spSet (fun _ => []) e k ((spGet (fun _ => []) e k).filter fun n => !ms.contains n)) s.pav.engines })

/-- The group is EMPTY: no stream, no clocks; a command on it has ended (R104, R105). `PAV_GRP_STREAM_ID` and
`PAV_GRP_MEAS` read 0 while no stream is loaded (DESIGN CHOICE, log entry 145). -/
def State.groupEmpty (s : State) (g : Nat) : State :=
  let x := s.grp g
  let s1 := s.setGrp g { groupReset g with drop := x.drop, viols := x.viols }
  let s2 := (List.range 6).foldl (fun s i => s.wr (R.PAV_GRP_MEAS g i) 0) (s1.wr (R.PAV_GRP_STREAM_ID g) 0)
  (((s2.setGrpState g gEmpty).set (F.PAV_GRP_STATE_SLEEP g) 0).pavDone g).grpPowerDown g

/-- The group's members are scrubbed, toward a load or toward EMPTY (R107). -/
def State.startScrub (s : State) (g : Nat) (forLoad : Bool) : State :=
  s.setGrp g { s.grp g with phase := .scrub, scrubs := 0, scrubForLoad := forLoad }

/-- A load ends with a condition: `RESULT`, scrub, then EMPTY (R104, R106). -/
def State.loadFail (s : State) (g cond : Nat) : State :=
  ((((s.set (F.PAV_GRP_STATE_RESULT g) cond).fault uPav cond 0 g).purgeEngines g).setGrp g
    { s.grp g with userReset := false, clocksOn := false }).startScrub g false

/-- Unloading proceeds: steps 1 and 2 of R105; the scrub follows when the accepted writes are done. A FENCED group, whose
unloading starts at step 2, shows UNLOADING too (DESIGN CHOICE, log entry 145). -/
def State.unloading (s : State) (g : Nat) : State :=
  let s1 := (s.setGrpState g gUnloading).setGrp g { s.grp g with clocksOn := false, quiesceReq := false, userReset := false }
  let s2 := ((s1.detachPorts g).discardHbmReads g).failReads g
  (s2.setGrp g { s2.grp g with phase := .hbmDrain }).emit (.tenant g "QUIESCE_REQ" 0)

/-- Entry to FENCED (R122). A pending UNLOAD proceeds (R124). -/
def State.fence (s : State) (g : Nat) : State :=
  let pendingUnload := (s.grp g).phase == .grace
  let s1 := (s.setGrpState g gFenced).setGrp g
    { s.grp g with clocksOn := false, phase := .idle, userReset := false, fencedAt := some s.clk.elapsed }
  let s2 := ((((s1.logicRan g).detachPorts g).discardHbmReads g).failReads g).setStatus uPav 2
  let s3 := s2.grpAwake g
  if pendingUnload then s3.unloading g else s3

/-- Does the policy fence on a violation (Table 4-7)? -/
def State.policyFences (s : State) (cond : Nat) : Bool :=
  if cond = 0x10 then s.get F.PAV_FENCE_POLICY_INJ == 1
  else if cond = 0x11 then s.get F.PAV_FENCE_POLICY_STALL == 1
  else if cond = 0x12 then s.get F.PAV_FENCE_POLICY_LEN == 1
  else if cond = 0x14 then s.get F.PAV_FENCE_POLICY_HBM == 1
  else if cond = 0x15 then s.get F.PAV_FENCE_POLICY_REG == 1
  else true

/-- A violation's record: the counts, `VIOL`, the error registers, and what a RELEASE of the same instant has begun
is refused (R120, R121, Table 4-8). -/
def State.violRecord (s : State) (g cond : Nat) : State :=
  let x := s.grp g
  let low := if s.violNow g then min cond (s.get (F.PAV_GRP_STATE_VIOL g)) else cond
  let s0 := if x.phase = .release ∧ x.relAt = some s.clk.elapsed then s.pavRefuse 0x0A g 3 else s
  let s1 := s0.setGrp g { x with
    viols := satInc 0xFFFFFFFF x.viols
    upset := x.upset || (cond == 0x16 && (s.grpState g == gRunning || s.grpState g == gFenced))
    violAt := some s.clk.elapsed }
  let s2 := (s1.set (F.PAV_GRP_STATE_VIOL g) low).count F.PAV_VIOL_COUNT_COUNT
  if cond = 0x16 then (s2.fault uPav cond 3 g).setStatus uPav 1 else s2.fault uPav cond 1 g

/-- A violation that fences: a RUNNING group is fenced, a release that a FENCED group has begun ends. -/
def State.violFence (s : State) (g : Nat) : State :=
  if s.grpState g = gRunning then s.fence g
  else if s.grpState g = gFenced then
    s.setGrp g { s.grp g with phase := if (s.grp g).phase = .release then .idle else (s.grp g).phase, userReset := false }
  else s

/-- A violation of a group (R120): counted, recorded, and fencing a RUNNING group by the policy. An
uncorrectable upset also refuses RELEASE, and one already begun (R121, R124). Of two at one instant `VIOL` holds
the lower, and an operator's RELEASE of that instant is refused (Table 4-8). -/
def State.violation (s : State) (g cond : Nat) : State :=
  let s1 := s.violRecord g cond
  if s1.policyFences cond then s1.violFence g else s1

/-- A violation of the group behind an endpoint, if the endpoint is a pavilion port. -/
def State.epViolation (s : State) (ep cond : Nat) : State :=
  match epGroup s.plan ep with
  | some g => s.violation g cond
  | none => s

/-! ### Commands -/

/-- Has a scrub of the group's pavilions failed twice since the device reset (R107)? An amendment that regroups the
pavilions does not end it (DEDUCED, log entry 142). -/
def State.scrubFailed (s : State) (g : Nat) : Bool := (grpMembers s.plan g).any s.pav.failed.contains

/-- LOAD (R104): the refusals in the order of its table, then step 1 begins. No LOAD is taken before READY, nor
while Night entry is in progress (R16, R127; ignored, DESIGN CHOICE, log entry 132), nor, with 0x0C, once the wicket has begun to open (R126). -/
def State.pavLoadCmd (s : State) (g : Nat) (host : Bool) : State :=
  let a := s.get F.PAV_CMD_ARG0_ADDR
  let n := s.get F.PAV_CMD_ARG1_LEN
  if !grpFirst s.plan g then (s.capture uPav 0xFE g).pavStatus 0xFE g 1
  else if !s.taking then s
  else if s.grpState g ≠ gEmpty then s.pavRefuse 0x0A g 1
  else if !grpLoadable s.plan g || s.scrubFailed g then s.pavRefuse 0x0E g 1
  else if s.isOpen ∨ s.get F.WKT_LIFECYCLE_ERASING = 1 then s.pavRefuse 0x0C g 1
  else if a % 64 ≠ 0 ∨ n % 64 ≠ 0 ∨ 4096 + 2 ^ grpSizeLog2 s.plan g * 25165824 < n then s.pavRefuse 0x06 g 1
  else if s.underAmendment secPavGroups 0 g then (s.capture uPav 0xFC g).pavStatus 0xFC g 1
  else
    let s1 := (s.setGrpState g gLoading).set (F.PAV_GRP_STATE_VIOL g) 0
    let x := groupReset g
    let s2 := s1.setGrp g { x with
      phase := .header, src := a, len := n, host := host, drop := (s.grp g).drop, viols := (s.grp g).viols }
    let s3 : State := (s2.withPav { s2.pav with
      engines := (grpMembers s.plan g).foldl (fun e m =>
        spSet (fun _ => []) e (m % 8) (spGet (fun _ => []) e (m % 8) ++ [m])) s2.pav.engines })
    s3.pavStatus 0 g 1

/-- CANCEL (R106): refused unless a load is in progress. A load that has failed is over: a CANCEL while its ending
scrub runs is refused with 0x0A (DESIGN CHOICE, log entry 119). -/
def State.pavCancelCmd (s : State) (g op : Nat) : State :=
  if s.grpState g = gLoading ∧ !((s.grp g).phase == .scrub && !(s.grp g).scrubForLoad) then
    (s.loadFail g 0x0D).pavStatus 0 g op
  else s.pavRefuse 0x0A g op

/-- UNLOAD (R105), with the checks of R21 and R55. -/
def State.pavUnloadCmd (s : State) (g grace : Nat) : State :=
  if !grpFirst s.plan g then (s.capture uPav 0xFE g).pavStatus 0xFE g 2
  else if s.underAmendment secPavGroups 0 g then (s.capture uPav 0xFC g).pavStatus 0xFC g 2
  else if s.grpState g = gLoading then s.pavCancelCmd g 2
  else if s.grpState g = gRunning then
    let s1 := (s.setGrp g { s.grp g with phase := .grace, quiesceReq := true }).emit (.tenant g "QUIESCE_REQ" 1)
    let s2 := s1.pavStatus 0 g 2
    if (s.grp g).quiesceAck || grace == 0 then s2.unloading g else s2
  else if s.grpState g = gFenced then (s.unloading g).pavStatus 0 g 2
  else s.pavRefuse 0x0A g 2

/-- The user reset of a release begins: flip-flops return to their initial values (R123). -/
def State.beginRelease (s : State) (g : Nat) (at' : Option Nat) : State :=
  ((s.setGrp g { s.grp g with phase := .release, userReset := true, relAt := at' }).mapFabric g Fabric.userReset).emit
    (.tenant g "USER_RESET" 1)

/-- RELEASE by the operator (R123). -/
def State.pavReleaseCmd (s : State) (g : Nat) : State :=
  if !grpFirst s.plan g then (s.capture uPav 0xFE g).pavStatus 0xFE g 3
  else if s.underAmendment secPavGroups 0 g then (s.capture uPav 0xFC g).pavStatus 0xFC g 3
  else if s.grpState g = gFenced ∧ !(s.grp g).upset ∧ !s.violNow g then
    (s.beginRelease g (some s.clk.elapsed)).pavStatus 0 g 3
  else s.pavRefuse 0x0A g 3

/-- A write to `PAV_CMD`: one of its four operations. -/
def State.pavCmd (s : State) (op g : Nat) (host : Bool) (grace : Nat) : State :=
  if op = 1 then s.pavLoadCmd g host
  else if op = 2 then s.pavUnloadCmd g grace
  else if op = 3 then s.pavReleaseCmd g
  else if !grpFirst s.plan g then (s.capture uPav 0xFE g).pavStatus 0xFE g 4
  else if s.underAmendment secPavGroups 0 g then (s.capture uPav 0xFC g).pavStatus 0xFC g 4
  else s.pavCancelCmd g 4

/-! ### Loading -/

/-- Length of frame `i` in a stream header (Table 4-4). -/
def frameLen (h : List Byte) (i : Nat) : Nat := leAt h (0x6C8 + 24 * i) 4

/-- Where frame `i` begins in the source (R98). -/
def frameStart (h : List Byte) (i : Nat) : Nat := 4096 + ((List.range i).map (frameLen h)).sum

/-- Mode of AES-256-GCM (Table 10-5). -/
abbrev modeGcm256 : Nat := 2

/-- The stream key *K* (R99, steps 1 to 3); none where the ECDH product fails. -/
def pavStreamKey (h : List Byte) : Option (List Byte) :=
  (Config.ecdhSecret (bytesAt h 0x660 97)).map fun ss2 =>
    bytesAt (Config.hkdf (Config.kemSecret (bytesAt h 0x40 1568) ++ ss2) (ascii "OW5120 PAVS" ++ bytesAt h 0 0x6C8)) 0 32

/-- Does the header open: `HDR_TAG` over bytes 0x000 to 0xFEF under a zero nonce (R99, step 4)? -/
def pavHeaderOpens (h : List Byte) : Bool :=
  match pavStreamKey h with
  | none => false
  | some k => aeadTag16 modeGcm256 k (List.replicate 12 0) (bytesAt h 0 0xFF0) [] == bytesAt h 0xFF0 16

/-- The nonce of frame `i`. -/
def pavFrameNonce (i : Nat) : List Byte := List.replicate 4 0 ++ natBE 8 (i + 1)

/-- The plaintext of frame `i`, before its tag is known to verify (R104, step 3). -/
def pavFramePlain (h : List Byte) (i : Nat) (frame : List Byte) : List Byte :=
  streamXor modeGcm256 ((pavStreamKey h).getD []) (pavFrameNonce i) frame

/-- Does `FRAME_TAG` of frame `i` verify, over its number and `HDR_TAG` as additional data (R99)? -/
def pavFrameTagOk (h : List Byte) (i : Nat) (frame : List Byte) : Bool :=
  aeadTag16 modeGcm256 ((pavStreamKey h).getD []) (pavFrameNonce i) (natLE 4 i ++ bytesAt h 0xFF0 16) frame ==
    bytesAt h (0x6C8 + 24 * i + 8) 16

/-- The checks of step 1 of R104 as (condition, holds), lowest condition first. Where `GROUP_LOG2` differs from
`SIZE_LOG2` the spec does not say which of them bounds the entries of `FRAME_TABLE` that are not zero: `SIZE_LOG2`
here (DESIGN CHOICE, log entry 109). -/
def pavHeaderChecks (h : List Byte) (sz td : Nat) : List (Nat × Bool) :=
  let zero := fun o n => (bytesAt h o n).all (· == 0)
  [ (0x01, leAt h 0 8 == 0x313053564150574F && leAt h 8 2 == 1 && decide (leAt h 0x0F 1 < 16) &&
      zero 0x28 24 && zero 0x6C1 7 && zero 0xCC8 808 &&
      (List.range 64).all fun i =>
        if i < 2 ^ sz then zero (0x6C8 + 24 * i + 4) 4 else zero (0x6C8 + 24 * i) 24),
    (0x02, leAt h 0x0A 2 == 0x5120 && leAt h 0x0C 1 == 0xB1),
    (0x03, leAt h 0x0D 1 == sz),
    (0x04, leAt h 0x0E 2 % 4096 == td),
    (0x05, pavHeaderOpens h),
    (0x06, (List.range (2 ^ sz)).all fun i =>
      frameLen h i % 64 == 0 && decide (128 ≤ frameLen h i) && decide (frameLen h i ≤ 25165824)),
    (0x09, (List.range 4).all fun k =>
      decide (10000 ≤ leAt h (0x18 + 4 * k) 4) && decide (leAt h (0x18 + 4 * k) 4 ≤ 800000)) ]

/-- The condition of the first check that fails. -/
def firstFailing (l : List (Nat × Bool)) : Option Nat := (l.find? fun x => !x.2).map Prod.fst

/-- The checks of a frame (R101, R99) as (condition, holds), in the order they are met. -/
def pavFrameChecks (h : List Byte) (g sz m : Nat) (frame : List Byte) : List (Nat × Bool) :=
  let i := m - g
  let p := pavFramePlain h i frame
  [ (0x01, leAt p 0 8 == 0x313046564150574F && leAt p 8 1 == i && leAt p 9 1 == sz && leAt p 10 2 == 0 &&
      leAt p 12 4 == (frameLen h i - 64) / 64 && (bytesAt p 16 48).all (· == 0)),
    (0x08, Config.pavConfigOk m g sz (p.drop 64)),
    (0x07, pavFrameTagOk h i frame) ]

/-- Step 5 of R104 begins: user clocks at `CLK_INIT`, each limited to `MAX_MHZ`, and user reset. -/
def State.beginAttach (s : State) (g : Nat) : State :=
  let x := s.grp g
  let init := (List.range 4).map fun k => leAt x.hdr (0x18 + 4 * k) 4
  let cap := s.get (F.PAV_GRP_CLKCAP_MAX_MHZ g) * 1000
  ((s.setGrp g { x with
    phase := .attach, userReset := true, clocksOn := true, khz := init,
    actKhz := init.map (min · cap) }).mapFabric g Fabric.userReset).emit (.tenant g "USER_RESET" 1)

/-- The measurement of the stream loaded (R102), in `PAV_GRP_MEAS0`–`5`. -/
def State.writeMeasurement (s : State) (g : Nat) : State :=
  let x := s.grp g
  let m := Config.sha384 (x.hdr ++ (x.frames.flatMap Prod.snd))
  (List.range 6).foldl (fun s i => s.wr (R.PAV_GRP_MEAS g i) (BitVec.ofNat 64 (leAt m (8 * i) 8))) s

/-! ### Meanings -/

def execPavLoad (group : Nat) (host : Bool) (s : State) : Res := .next (s.pavLoadCmd group host)

def execPavUnload (group grace : Nat) (s : State) : Res := .next (s.pavUnloadCmd group grace)

def execPavRelease (group : Nat) (s : State) : Res := .next (s.pavReleaseCmd group)

def execPavCancel (group : Nat) (s : State) : Res := .next (s.pavCmd 4 group false 0)

/-- The header has been read and checked (R104 steps 1 and 2): the load fails, or the members are powered up and
scrubbed. -/
def execPavHeaderCheckEnd (group : Nat) (hostBytes : List Byte) (src : SrcRead) (s : State) : Res :=
  let x := s.grp group
  if x.phase ≠ .header ∨ s.grpHeld group ∨ s.operatorWaits x.host then .next s
  else
    match s.operatorRead x.src 4096 x.host hostBytes src with
    | (none, s1) => .next (s1.loadFail group 0x0B)
    | (some h, s1) =>
      match firstFailing (pavHeaderChecks h (grpSizeLog2 s.plan group) (grpLoadTd s.plan group)) with
      | some c => .next (s1.loadFail group c)
      | none => .next (((s1.grpAwake group).setGrp group { x with hdr := h }).startScrub group true)

/-- A scrub ends (R107): everything is zero, or the configuration memory is not, and the scrub is repeated once
before condition 0x18. -/
def execPavScrubEnd (group : Nat) (zero : Bool) (s : State) : Res :=
  let x := s.grp group
  let s0 := s.mapFabric group fun y => { fabricZero 0 with config := if zero then [] else y.config }
  if x.phase ≠ .scrub ∨ s.grpHeld group then .next s
  else if zero then
    if x.scrubForLoad then .next (s0.setGrp group { x with phase := .frames })
    else .next (s0.groupEmpty group)
  else if x.scrubs = 0 then .next (s0.setGrp group { x with scrubs := 1 })
  else
    let s1 := ((s0.purgeEngines group).set (F.PAV_GRP_STATE_RESULT group) (if x.scrubForLoad then 0x18 else s.get (F.PAV_GRP_STATE_RESULT group))).fault uPav 0x18 5 group
    let ms := grpMembers s.plan group
    .next ((s1.withPav { s1.pav with failed := ms ++ (s1.pav.failed.filter (!ms.contains ·)) }).groupEmpty group)

/-- An engine has written a member's frame (R104 step 3): the engine serves its members in order. -/
def execPavFrameEnd (member : Nat) (hostBytes : List Byte) (src : SrcRead) (s : State) : Res :=
  match grpOf s.plan member with
  | none => .next s
  | some g =>
    let x := s.grp g
    let q := spGet (fun _ => []) s.pav.engines (member % 8)
    if x.phase ≠ .frames ∨ q.head? ≠ some member ∨ s.grpHeld g ∨ s.operatorWaits x.host then .next s
    else
      let i := member - g
      let served := fun (t : State) => t.withPav { t.pav with engines := spSet (fun _ => []) t.pav.engines (member % 8) q.tail }
      match s.operatorRead (x.src + frameStart x.hdr i) (frameLen x.hdr i) x.host hostBytes src with
      | (none, s1) => .next ((served s1).loadFail g 0x0B)
      | (some fr, s1) =>
        match firstFailing (pavFrameChecks x.hdr g (grpSizeLog2 s.plan g) member fr) with
        | some c => .next ((served s1).loadFail g c)
        | none =>
          let fs := spInsert x.frames i fr
          let s2 := ((served s1).setGrp g { x with frames := fs }).setFabric member
            (fabricOf ((pavFramePlain x.hdr i fr).drop 64))
          if fs.length < 2 ^ grpSizeLog2 s.plan g then .next s2
          else if frameStart x.hdr (2 ^ grpSizeLog2 s.plan g) ≠ x.len then .next (s2.loadFail g 0x06)
          else .next (s2.beginAttach g)

/-- Is the group RUNNING, with `SLEEP_REQ` high, no HBM request outstanding, and Haze allowed for its tiles (R119)? -/
def State.mayHaze (s : State) (g : Nat) : Bool :=
  let ms := grpMembers s.plan g
  s.grpState g == gRunning && (s.grp g).sleepReq && !(s.pav.hbm.any fun r => ms.contains r.member) &&
  ms.all fun m => (tileAllow s.plan (284 + m)).testBit 0

/-- The group enters Haze where it may. -/
def State.tryHaze (s : State) (g : Nat) : State :=
  if s.mayHaze g then
    (grpMembers s.plan g).foldl (fun s m => s.setTile (284 + m) { s.tile (284 + m) with sky := 1, waking := false })
      (s.set (F.PAV_GRP_STATE_SLEEP g) 1)
  else s

/-- User reset ends (R104 step 5, R123): the logic runs, and the ports of a load or a release attach with credits
reset. The end of a release sets the group's `PAV_DONE` bit, also of one that the tenant issued (DESIGN CHOICE, log
entry 110). -/
def execUserResetEnd (group : Nat) (s : State) : Res :=
  let x := s.grp group
  if !x.userReset ∨ s.grpHeld group then .next s
  else
    let s1 := ((s.setGrp group { x with userReset := false }).logicRan group).emit (.tenant group "USER_RESET" 0)
    if x.phase = .attach then
      let s2 := (s1.setGrp group { s1.grp group with phase := .idle }).attachPorts group
      let s3 := (s2.setGrpState group gRunning).set (F.PAV_GRP_STATE_RESULT group) 0
      let s4 := (s3.wr (R.PAV_GRP_STREAM_ID group) (BitVec.ofNat 64 (leAt x.hdr 0x10 8))).writeMeasurement group
      .next (((s4.pavDone group).count F.PAV_LOAD_COUNT_COUNT).tryHaze group)
    else if x.phase = .release then
      let s2 := (s1.setGrp group { s1.grp group with phase := .idle, clocksOn := true }).attachPorts group
      .next (((s2.setGrpState group gRunning).pavDone group).tryHaze group)
    else .next (s1.tryHaze group)

/-- Tenant logic raises QUIESCE_ACK: an UNLOAD that waits proceeds (R105). A QUIESCE_ACK raised before the UNLOAD
is remembered (DESIGN CHOICE, log entry 111). -/
def execQuiesceAck (group : Nat) (s : State) : Res :=
  let s1 := s.setGrp group { s.grp group with quiesceAck := true }
  if s.grpHeld group then .next s
  else if (s.grp group).phase = .grace then .next (s1.unloading group) else .next s1

/-- The grace period has passed (R105). -/
def execGraceExpiry (group : Nat) (s : State) : Res :=
  if (s.grp group).phase = .grace ∧ !s.grpHeld group then .next (s.unloading group) else .next s

/-- The accepted HBM writes of an unloading group are done (R105 step 3): scrubbing starts. -/
def execPavHbmWritesDone (group : Nat) (s : State) : Res :=
  let ms := grpMembers s.plan group
  if (s.grp group).phase = .hbmDrain ∧ !s.grpHeld group ∧ !(s.pav.hbm.any fun r => ms.contains r.member && r.write) then
    .next (s.startScrub group false)
  else .next s

/-- A write to a control page whose group's element is under amendment is ignored (R55). -/
def State.pavcGated (s : State) (g : Nat) (act : State) : State :=
  if s.underAmendment secPavGroups 0 g then s.capture uPav 0xFC g else act

/-- The tenant's RELEASE through `PAVC_CTRL` (R123). One that is not allowed is ignored, and nothing is recorded
(DESIGN CHOICE, log entry 110). -/
def State.pavcReleaseWrite (s : State) (g : Nat) : State :=
  if s.grpState g = gFenced ∧ s.get F.PAV_FENCE_POLICY_TENANT_RELEASE = 1 ∧ !(s.grp g).upset ∧ !s.violNow g then
    s.beginRelease g none
  else s

def execPavcRelease (group : Nat) (s : State) : Res := .next (s.pavcGated group (s.pavcReleaseWrite group))

/-- USER_RESET on a RUNNING group: the same reset, the ports staying attached (R123). -/
def State.userResetWrite (s : State) (g : Nat) : State :=
  if s.grpState g = gRunning then
    (((s.logicRan g).setGrp g { s.grp g with userReset := true }).mapFabric g Fabric.userReset).emit
      (.tenant g "USER_RESET" 1)
  else s

def execUserReset (group : Nat) (s : State) : Res := .next (s.pavcGated group (s.userResetWrite group))

/-- A write of user clock `k` (R118): reserved outside 10,000 to 800,000 kHz. -/
def State.pavcClkWrite (s : State) (g k f : Nat) : State :=
  if f < 10000 ∨ 800000 < f then s.capture uPav 0xFF g
  else if s.underAmendment secPavGroups 0 g then s.capture uPav 0xFC g
  else
    let x := s.grp g
    s.setGrp g { x with khz := x.khz.set k f, actKhz := x.actKhz.set k (min f (s.get (F.PAV_GRP_CLKCAP_MAX_MHZ g) * 1000)) }

def execPavcClkWrite (group clock khz : Nat) (s : State) : Res := .next (s.pavcClkWrite group clock khz)

/-- A write of `MAX_MHZ` (R118): a running clock above it is lowered. -/
def State.clkcapWrite (s : State) (g mhz : Nat) : State :=
  if mhz < 10 ∨ 800 < mhz then s.capture uPav 0xFF g
  else if !grpFirst s.plan g then s.capture uPav 0xFE g
  else if s.underAmendment secPavGroups 0 g then s.capture uPav 0xFC g
  else
    let x := s.grp g
    (s.set (F.PAV_GRP_CLKCAP_MAX_MHZ g) mhz).setGrp g { x with actKhz := x.actKhz.map (min · (mhz * 1000)) }

def execClkcapWrite (group mhz : Nat) (s : State) : Res := .next (s.clkcapWrite group mhz)

/-- One configuration word of a member of a group that is not EMPTY, and so has power, as the scan finds it (R121). A
single error is corrected in place. -/
def execConfigScan (member : Nat) (ecc : EccResult) (s : State) : Res :=
  match grpOf s.plan member with
  | none => .next s
  | some g =>
    if s.grpHeld g then .next s
    else if s.grpState g ≠ gEmpty then
      match ecc with
      | .clean => .next s
      | .corrected => .next (s.fault uPav 0x17 4 g)
      | .uncorrectable => .next (s.violation g 0x16)
    else .next s

/-- A member's HBM port takes a request (R113): BOUND and a violation at or beyond `HBM_SIZE`, which is counted
also at the instant at which another violation has fenced the group (R124). -/
def execPavHbmRequest (member : Nat) (write : Bool) (addr tag : Nat) (data : List Byte) (mask : Word)
    (s : State) : Res :=
  match grpOf s.plan member with
  | none => .next s
  | some g =>
    if s.grpHeld g then .next s
    else if s.grpState g ≠ gRunning then
      .next (if s.fencedNow g ∧ grpHbmSize s.plan g ≤ addr then s.violation g 0x14 else s)
    else if 256 ≤ (s.pav.hbm.filter fun r => r.member == member).length then .next s
    else if grpHbmSize s.plan g ≤ addr then
      .next ((s.emit (.hbmResponse member tag 1 [])).violation g 0x14)
    else
      .next (s.withPav { s.pav with
        hbm := s.pav.hbm ++ [⟨member, write, addr / 64 * 64, tag, data, mask, false⟩] })

/-- Device address of byte `a` of a group's window (R434). -/
def grpWindowAddr (p : Plan) (g a : Nat) : Nat :=
  match tdPartition p 0 (grpLoadTd p g) with
  | some (b, _) => b + grpHbmBase p g + a
  | none => grpHbmBase p g + a

/-- The bytes of a granule that the mask selects are written, the first `n` of them considered (R113). -/
def State.putMasked (s : State) (a : Nat) (mask : Word) (data : List Byte) : Nat → State
  | 0 => s
  | n + 1 =>
    if bitAt mask n then (s.putMasked a mask data n).putByte (a + n) (data.getD n 0) else s.putMasked a mask data n

/-- An accepted write takes effect. -/
def State.hbmWrite (s : State) (r : HbmReq) : State :=
  s.putMasked (grpWindowAddr s.plan ((grpOf s.plan r.member).getD 0) r.addr) r.mask r.data 64

/-- The `index`-th outstanding request completes (R113, R114): requests of one port to one granule in
order; a read of bad data answers POISON without the data. With the last one done the group may enter Haze. -/
def execPavHbmResponse (index : Nat) (ecc : EccResult) (s : State) : Res :=
  match s.pav.hbm[index]? with
  | none => .next s
  | some r =>
    let g := (grpOf s.plan r.member).getD 0
    if s.grpHeld g ∨ (s.pav.hbm.take index).any (fun q => q.member == r.member && q.addr == r.addr) then .next s
    else
      let a := grpWindowAddr s.plan g r.addr
      let s1 : State := s.withPav { s.pav with hbm := s.pav.hbm.eraseIdx index }
      let s2 :=
        if r.write then (s1.hbmWrite r).emit (.hbmResponse r.member r.tag 0 [])
        else if r.discard then s1
        else if ecc.bad || s.poisoned a 64 then (s1.memRead ecc a).emit (.hbmResponse r.member r.tag 2 [])
        else (s1.memRead ecc a).emit (.hbmResponse r.member r.tag 0 (s.bytes a 64))
      .next (s2.tryHaze g)

/-- A read of the PAVC control page (Table 4-9), with the counters that it clears. -/
def State.pavcRead (s : State) (g off : Nat) : Word × State :=
  let x := s.grp g
  if off = 0x000 then (s.rd (R.PAV_GRP_STATE g), s)
  else if off = 0x008 then (s.rd (R.PAV_GRP_STREAM_ID g), s)
  else if 0x010 ≤ off ∧ off ≤ 0x038 then (s.rd (R.PAV_GRP_MEAS g ((off - 0x10) / 8)), s)
  else if 0x040 ≤ off ∧ off ≤ 0x058 then
    let k := (off - 0x40) / 8
    (BitVec.ofNat 64 (x.actKhz.getD k 0 * 2 ^ 32 + x.khz.getD k 0), s)
  else if off = 0x068 then (BitVec.ofNat 64 x.drop, s.setGrp g { x with drop := 0 })
  else if off = 0x070 then (BitVec.ofNat 64 x.viols, s.setGrp g { x with viols := 0 })
  else (0, s)

/-- A write to the PAVC control page. -/
def State.pavcWrite (s : State) (g off : Nat) (v : Word) : State :=
  if 0x040 ≤ off ∧ off ≤ 0x058 then s.pavcClkWrite g ((off - 0x40) / 8) (bitsAt v 19 0)
  else if off = 0x060 then
    if bitAt v 0 && bitAt v 1 then s.capture uPav 0xFF g
    else s.pavcGated g (if bitAt v 1 then s.pavcReleaseWrite g else if bitAt v 0 then s.userResetWrite g else s)
  else s

/-- The accesses that leave the front of the register bus when `n` more reads may be outstanding, and those that
stay (R116). -/
def busSplit : Nat → List (Bool × Nat × Word × Nat) → List (Bool × Nat × Word × Nat) × List (Bool × Nat × Word × Nat)
  | _, [] => ([], [])
  | n, a :: t =>
    if a.1 then (a :: (busSplit n t).1, (busSplit n t).2)
    else if n = 0 then ([], a :: t)
    else (a :: (busSplit (n - 1) t).1, (busSplit (n - 1) t).2)

/-- What tenant logic sees of an access that it takes. -/
def busOutput (g : Nat) (a : Bool × Nat × Word × Nat) : Output :=
  if a.1 then .tenant g ("REG_WRITE " ++ toString a.2.1) a.2.2.1.toNat else .tenant g "REG_READ" a.2.1

/-- The register bus moves while tenant logic holds `REG_READY` high: accesses are taken in arrival order, at most
16 reads outstanding (R116). -/
def State.busRun (s : State) (g : Nat) : State :=
  let x := s.grp g
  if x.busBusy ∨ s.grpHeld g ∨ s.grpState g ≠ gRunning then s
  else
    let r := busSplit (16 - x.reads.length) x.bus
    (s.setGrp g { x with bus := r.2, reads := x.reads ++ (r.1.filter fun a => !a.1).map fun a => a.2.2.2 }).emits
      (r.1.map (busOutput g))

/-- The level of `REG_READY`. -/
def State.busReady (s : State) (g : Nat) (ready : Bool) : State := s.setGrp g { s.grp g with busBusy := !ready }

/-- An access to a group's register window (R115, R116): the control page, the tenant bus while
RUNNING, the fixed pattern otherwise. -/
def State.windowAccess (s : State) (g : Nat) (write : Bool) (off : Nat) (v : Word) (tag : Nat) : State :=
  if off % 8 ≠ 0 then (if write then s else s.emit (.hostRead tag [] true))
  else if off < 0x1000 then
    if write then s.pavcWrite g off v
    else
      let (d, s1) := s.pavcRead g off
      s1.emit (.hostRead tag (natLE 8 d.toNat) false)
  else if s.grpState g = gRunning then
    let s1 := if s.get (F.PAV_GRP_STATE_SLEEP g) = 1 ∧ !s.grpHeld g then s.grpAwake g else s
    (s1.setGrp g { s1.grp g with bus := (s1.grp g).bus ++ [(write, off, v, tag)] }).busRun g
  else s.windowDrop g write tag

/-- A host access to a register window (R116). -/
def execRegWindowAccess (group : Nat) (write : Bool) (offset : Nat) (value : Word) (tag : WindowTag) (s : State) : Res :=
  .next ((s.busReady group tag.ready).windowAccess group write offset value tag.tag)

/-- Tenant logic returns read data in request order; late data is discarded (R116, R117). -/
def execRegReadReturn (group : Nat) (answer : RegAnswer) (s : State) : Res :=
  if s.grpHeld group then .next s
  else
    let s0 := s.busReady group answer.ready
    let x := s0.grp group
    if 0 < x.late then .next ((s0.setGrp group { x with late := x.late - 1 }).busRun group)
    else
      match x.reads with
      | [] => .next (s0.busRun group)
      | t :: rest =>
        .next (((s0.setGrp group { x with reads := rest }).emit (.hostRead t (natLE 8 answer.data.toNat) false)).busRun group)

/-- The oldest outstanding register read times out (R117): all ones to the host, condition 0x15, which is counted
also at the instant at which another violation has fenced the group (R124). A read that has timed out is outstanding no
more, though its data is still due (DESIGN CHOICE, log entry 145). -/
def execPavRegTimeoutExpiry (group : Nat) (s : State) : Res :=
  let x := s.grp group
  if s.grpHeld group then .next s
  else
    match x.reads with
    | [] => .next (if s.fencedNow group then s.violation group 0x15 else s)
    | t :: rest =>
      .next ((((s.setGrp group { x with reads := rest, late := x.late + 1 }).emit
        (.hostRead t (List.replicate 8 0xFF) false)).violation group 0x15).busRun group)

/-- Tenant logic returns a receive credit (R111): one beyond 64 is a violation. -/
def execRxCreditReturn (ep vc : Nat) (s : State) : Res :=
  if s.portHeld ep then .next s
  else
    match s.loadedTd ep with
    | none =>
      .next (if ((epGroup s.plan ep).any fun g => s.fencedNow g) && decide (64 ≤ s.rxCredit ep vc) then
        s.epViolation ep 0x12 else s)
    | some _ =>
      if 64 ≤ s.rxCredit ep vc then .next (s.epViolation ep 0x12)
      else .next (s.setRxCredit ep vc (s.rxCredit ep vc + 1))

/-- Tenant logic raises SLEEP_REQ (R119). -/
def execSleepReqRise (group : Nat) (s : State) : Res :=
  if s.grpHeld group then .next s
  else .next ((s.setGrp group { s.grp group with sleepReq := true }).tryHaze group)

/-- SLEEP_REQ falls (R119): the group returns to Clear. -/
def execSleepReqFall (group : Nat) (s : State) : Res :=
  let s1 := s.setGrp group { s.grp group with sleepReq := false }
  if s.grpHeld group then .next s
  else if s.get (F.PAV_GRP_STATE_SLEEP group) = 1 then .next (s1.grpAwake group) else .next s1

/-- The accepted HBM writes of a group are performed and its requests are gone. -/
def State.finishHbm (s : State) (g : Nat) : State :=
  let ms := grpMembers s.plan g
  let s1 := (s.pav.hbm.filter fun r => ms.contains r.member && r.write).foldl State.hbmWrite s
  s1.withPav { s1.pav with hbm := s1.pav.hbm.filter fun r => !ms.contains r.member }

/-- Every group ends EMPTY at once, without grace, a LOAD as if cancelled, and every pavilion is scrubbed (R126). -/
def State.emptyAllGroups (s : State) : State :=
  ((List.range 64).filter (grpFirst s.plan)).foldl (fun s g =>
    if s.grpState g = gEmpty then s.mapFabric g fun _ => fabricZero 0
    else
      let s1 := if s.grpState g = gLoading then
          ((s.set (F.PAV_GRP_STATE_RESULT g) 0x0D).fault uPav 0x0D 0 g).purgeEngines g
        else (((s.detachPorts g).discardHbmReads g).failReads g).finishHbm g
      (s1.mapFabric g fun _ => fabricZero 0).groupEmpty g) s

end Sys2Proof.Machine
end

