-- ==== Sys2Proof/Machine/Gates.lean ====
section
/-! DEFINITION. Gate lists of an egress port (R236 to R238): entries, the schedule, and the change to
a new list. -/

namespace Sys2Proof.Machine

def portTb (s : State) (p : Nat) : Nat := s.get (F.TB_PORT_CFG_TB p)

/-- The time of a port, in 2⁻⁴⁴ ns of its timebase. -/
def State.portNow (s : State) (p : Nat) : Nat := s.tbVal (portTb s p)

def gclReset (_ : Nat) : Gcl := ⟨0, 0, 0, false, none, 0⟩
def State.gcl (s : State) (p : Nat) : Gcl := spGet gclReset s.sch.gcl p
def State.setGcl (s : State) (p : Nat) (g : Gcl) : State :=
  s.withSch { s.sch with gcl := spSet gclReset s.sch.gcl p g }

/-- A gate list entry: states and interval in 2⁻⁴⁴ ns. -/
def gclEntry (w : Word) : Nat × Nat := (bitsAt w 55 48, bitsAt w 47 0 * 2 ^ 28)

/-- The operating entries, and those of the administrative list. -/
def State.operEntries (s : State) (p : Nat) : List (Nat × Nat) :=
  (List.range (s.get (F.SCH_GCL_STATUS_OPER_LEN p))).map fun e => gclEntry (s.rd (R.SCH_GCL_OPER p e))
def State.adminEntries (s : State) (p : Nat) : List (Nat × Nat) :=
  (List.range (s.get (F.SCH_GCL_LEN_STG_LEN p))).map fun e => gclEntry (s.rd (R.SCH_GCL_STG p e))

/-- Entries cut to a duration; the states of the last one hold to its end (R236). -/
def gclSegs : List (Nat × Nat) → Nat → List (Nat × Nat)
  | [], d => [(0xFF, d)]
  | [(g, _)], d => [(g, d)]
  | (g, n) :: t, d => if d ≤ n then [(g, d)] else (g, n) :: gclSegs t (d - n)

/-- The index of the entry in force at an offset into the cycle, and its states. -/
def gclAt : List (Nat × Nat) → Nat → Nat → Nat × Nat
  | [], _, i => (i, 0xFF)
  | [(g, _)], _, i => (i, g)
  | (g, n) :: t, d, i => if d < n then (i, g) else gclAt t (d - n) (i + 1)

/-- What remains of a list of intervals after a time. -/
def dropTime : List (Nat × Nat) → Nat → List (Nat × Nat)
  | [], _ => []
  | (g, n) :: t, d => if d < n then (g, n - d) :: t else dropTime t (d - n)

/-- The intervals ahead from the start of a cycle, up to a pending change. -/
def gclAhead (segs : List (Nat × Nat)) (last cycle ext : Nat) (change : Option Nat) : Nat → Nat → Bool → List (Nat × Nat)
  | 0, _, _ => []
  | n + 1, start, begun =>
    match change with
    | none => segs ++ gclAhead segs last cycle ext change n (start + cycle) false
    | some c =>
      if c ≤ start then []
      else if c < start + cycle then
        if decide (c - start < ext) && !begun then [(last, c - start)] else gclSegs segs (c - start)
      else segs ++ gclAhead segs last cycle ext change n (start + cycle) false

/-- The time for which a class stays open along intervals, and whether it then closes. -/
def openRun (c : Nat) : List (Nat × Nat) → Nat × Bool
  | [] => (0, false)
  | (g, n) :: t => if g.testBit c then ((openRun c t).1 + n, (openRun c t).2) else (0, true)

/-- The intervals ahead of now in the operating list. -/
def State.gclFuture (s : State) (p : Nat) : List (Nat × Nat) :=
  let g := s.gcl p
  let cyc := g.cycle * 2 ^ 28
  if s.get (F.SCH_GCL_STATUS_OPER_LEN p) = 0 then [(0xFF, 2 ^ 80)]
  else
    let segs := gclSegs (s.operEntries p) cyc
    let last := (segs.getLast?.map Prod.fst).getD 0xFF
    dropTime (gclAhead segs last cyc (g.ext * nsUnit) g.change 3 g.start (!g.held)) (s.portNow p - g.start)

/-- How long class `c` stays open from now; none when it never closes (R238). -/
def State.openFor (s : State) (p c : Nat) : Option Nat :=
  let g := s.gcl p
  let (d, closes) := openRun c (s.gclFuture p)
  let toChange := g.change.map fun x => x - s.portNow p
  match closes, toChange with
  | true, none => some d
  | true, some x => if d < x then some d else some x
  | false, none => none
  | false, some x =>
    let segs := gclSegs (s.adminEntries p)
      ((s.get (F.SCH_GCL_CYCLE_STG_NS p) * 2 ^ 16 + s.get (F.SCH_GCL_CYCLE_STG_FRAC p)) * 2 ^ 28)
    match openRun c segs with
    | (_, false) => none
    | (d', true) => some (x + d')

/-- The longest open interval of a class in the operating list; none when it never closes (R239). -/
def State.longestOpen (s : State) (p c : Nat) : Option Nat :=
  if s.get (F.SCH_GCL_STATUS_OPER_LEN p) = 0 then none
  else
    let segs := gclSegs (s.operEntries p) ((s.gcl p).cycle * 2 ^ 28)
    if segs.all fun x => x.1.testBit c then none
    else some (((List.range segs.length).map fun i => (openRun c (segs.drop i ++ segs)).1).foldl max 0)

/-- The gate states of a port's operating list brought up to the present: the start of the cycle in
force, whether a cycle before a pending change is held (R237), the entry and its states. -/
def State.gclPlace (s : State) (p : Nat) : State :=
  let g := s.gcl p
  if s.get (F.SCH_GCL_STATUS_OPER_LEN p) = 0 ∨ g.cycle = 0 then
    s.sets [(F.SCH_PORT_STATUS_GATES p, 0xFF), (F.SCH_GCL_STATUS_OPER_ENTRY p, 0)]
  else
    let cyc : Nat := g.cycle * 2 ^ 28
    let base : Nat := g.base * 2 ^ 28
    let now := s.portNow p
    let start := now - (((now : Int) - (base : Int)) % (cyc : Int)).toNat
    let held := if start = g.start then g.held else
      match g.change with
      | some c => decide (start < c) && decide (c < start + cyc) && decide (c - start < g.ext * nsUnit)
      | none => false
    let (e, gates) := gclAt (s.operEntries p) (if held then cyc - 1 else now - start) 0
    (s.setGcl p { g with start := start, held := held }).sets
      [(F.SCH_PORT_STATUS_GATES p, gates), (F.SCH_GCL_STATUS_OPER_ENTRY p, e)]

/-- The administrative list becomes the operating list, starting with entry 0 at `start` (R237). -/
def State.gclApply (s : State) (p start : Nat) : State :=
  let s1 := (List.range 1024).foldl (fun (s : State) e =>
    s.wr (R.SCH_GCL_OPER p e) (if e < s.get (F.SCH_GCL_LEN_STG_LEN p) then s.rd (R.SCH_GCL_STG p e) else 0)) s
  let s2 := s1.set (F.SCH_GCL_STATUS_OPER_LEN p) (s.get (F.SCH_GCL_LEN_STG_LEN p))
  let s3 := s2.setGcl p ⟨start / 2 ^ 28, s.get (F.SCH_GCL_CYCLE_STG_NS p) * 2 ^ 16 + s.get (F.SCH_GCL_CYCLE_STG_FRAC p),
    start, false, none, 0⟩
  (s3.commitApplied (F.SCH_GCL_COMMIT_PENDING p) (F.SCH_GCL_GEN_GEN p)).gclPlace p

/-- A port's gates brought up to the present: a due change takes place, then the schedule gives the
states. -/
def State.gclSync (s : State) (p : Nat) : State :=
  match (s.gcl p).change with
  | some c => if c ≤ s.portNow p then s.gclApply p c else s.gclPlace p
  | none => s.gclPlace p

/-- After a step of the timebase (Table 17-5): a change time stepped past starts the new list at the
stepped instant. -/
def State.gclStepped (s : State) (p : Nat) : State :=
  match (s.gcl p).change with
  | some c => if c ≤ s.portNow p then s.gclApply p (s.portNow p) else s.gclPlace p
  | none => s.gclPlace p

/-- Are the staged list's settings inside R236? -/
def State.gclStagedOk (s : State) (p : Nat) : Bool :=
  let cyc := s.get (F.SCH_GCL_CYCLE_STG_NS p) * 2 ^ 16 + s.get (F.SCH_GCL_CYCLE_STG_FRAC p)
  decide (s.get (F.SCH_GCL_LEN_STG_LEN p) ≤ 1024) && decide (1000 * 2 ^ 16 ≤ cyc) &&
  decide (cyc ≤ 1000000000 * 2 ^ 16) && decide (s.get (F.SCH_GCL_BASE_NS_STG_NS p) < 1000000000) &&
  decide (s.get (F.SCH_GCL_EXT_STG_EXT p) ≤ 1000000000) &&
  (s.adminEntries p).all fun x => decide (8 * nsUnit ≤ x.2)

/-- GO of a gate list (R237). -/
def State.gclGo (s : State) (p : Nat) : State :=
  if !portPresent s.plan p then s.common uSch 0xFE
  else if s.underAmendment secSchTree p 0 || s.underAmendment secPortLayout 0 p then s.common uSch 0xFC
  else if s.get (F.SCH_GCL_COMMIT_PENDING p) = 1 then s
  else if !s.gclStagedOk p then s.fault uSch 0x03 2 (p * 2 ^ 32)
  else
    let base := ((s.get (F.SCH_GCL_BASE_SEC_STG_SEC p) * 1000000000 + s.get (F.SCH_GCL_BASE_NS_STG_NS p)) * 2 ^ 16 +
      s.get (F.SCH_GCL_BASE_NS_STG_FRAC p)) * 2 ^ 28
    let cyc := (s.get (F.SCH_GCL_CYCLE_STG_NS p) * 2 ^ 16 + s.get (F.SCH_GCL_CYCLE_STG_FRAC p)) * 2 ^ 28
    let least := s.portNow p + 10000 * nsUnit
    let n := (least - base + cyc - 1) / cyc
    let c := base + n * cyc
    let s1 := (s.commitGo (F.SCH_GCL_COMMIT_PENDING p)).sets [(F.SCH_GCL_CHANGE_SEC_SEC p, c / secUnit),
      (F.SCH_GCL_CHANGE_NS_NS p, c % secUnit / nsUnit), (F.SCH_GCL_CHANGE_NS_FRAC p, c / 2 ^ 28 % 2 ^ 16)]
    let s2 := s1.setGcl p { s1.gcl p with change := some c, ext := s.get (F.SCH_GCL_EXT_STG_EXT p) }
    if 0 < n then s2.fault uSch 0x04 3 (p * 2 ^ 32) else s2

/-- The pending list is withdrawn (R25), unless its change time has come: then it is applied (R247). -/
def State.gclCancel (s : State) (p : Nat) : State :=
  if s.get (F.SCH_GCL_COMMIT_PENDING p) = 1 then
    if (s.gcl p).change.any fun c => decide (c ≤ s.portNow p) then s.gclSync p
    else (s.set (F.SCH_GCL_COMMIT_PENDING p) 0).setGcl p { s.gcl p with change := none, held := false }
  else s

def execSchGclCommitGo (port : Nat) (s : State) : Res := .next (s.gclGo port)

end Sys2Proof.Machine
end

