-- ==== Sys2Proof/Machine/SchOps.lean ====
section
/-! DEFINITION. The scheduler's nodes, leaf queues, selection and shapers (R226 to R243). -/

namespace Sys2Proof.Machine

/-! ### Nodes (R228, R231 to R235) -/

def nodeKey (level index : Nat) : Nat := 65536 * level + index

/-- A node's reset content (Table 9-6). -/
def schNodeReset (k : Nat) : SchNode :=
  let prio := if k / 65536 = 1 then 7 - k % 8 else 0
  ⟨0, 16384, BitVec.ofNat 64 (20 * 2 ^ 56 + prio * 2 ^ 48 + 2 ^ 32 + 3), 0, 0, 0, 0, 0, 0, 0, 0⟩

def State.node (s : State) (k : Nat) : SchNode := spGet schNodeReset s.sch.nodes k
def State.setNode (s : State) (k : Nat) (n : SchNode) : State :=
  s.withSch { s.sch with nodes := spSet schNodeReset s.sch.nodes k n }

def nOverhead (n : SchNode) : Int := signedOf 8 (bitsAt n.cfg 63 56)
def nPrio (n : SchNode) : Nat := bitsAt n.cfg 50 48
def nWeight (n : SchNode) : Nat := bitsAt n.cfg 43 32
def nRefill (n : SchNode) : Nat := bitsAt n.cfg 3 0
def nCbsEn (n : SchNode) : Bool := bitAt n.cbs 63
def nSlope (n : SchNode) : Nat := bitsAt n.cbs 40 0

/-- The charged length of a frame at a node (R233). -/
def nCharge (n : SchNode) (l : Nat) : Nat := (max 1 ((l : Int) + nOverhead n)).toNat

/-- Is the node's credit at or above zero, or the node unshaped (R230, R231)? -/
def nCreditOk (n : SchNode) : Bool := n.rate == 0 || decide (0 ≤ n.credit)

/-- The MAC rate of a port in bits per second (R235). -/
def macRate (p : Plan) (port : Nat) : Nat := 100000000000 * 2 ^ portSpeed p port

/-! ### Leaves -/

def State.leafQ (s : State) (l : Nat) : List EgFrame := spGet (fun _ => []) s.sch.leaves l
def State.setLeafQ (s : State) (l : Nat) (q : List EgFrame) : State :=
  s.withSch { s.sch with leaves := spSet (fun _ => []) s.sch.leaves l q }

/-- The frame length `L` (R227). -/
def egLen (f : EgFrame) : Nat := max (hGet f.words CH.len) 60 + 4

/-- The class of a leaf in the tree of a port. -/
def leafClass (p : Plan) (port l : Nat) : Nat := treeClass p port (l / 16)

def State.leafBytes (s : State) (l : Nat) : Nat := ((s.leafQ l).map egLen).sum

/-- Bytes queued in the SCH partition. -/
def State.schBytes (s : State) : Nat := (s.sch.leaves.map fun x => (x.2.map egLen).sum).sum

/-- The fields of `SCH_ERR_FIRST` (Table 9-8). -/
def schExtra (port leaf : Nat) : Nat := port * 2 ^ 32 + leaf

/-- The leaves of a port's tree that hold frames. -/
def State.busyLeaves (s : State) (port : Nat) : List Nat :=
  (spKeys s.sch.leaves).filter fun l => treeOwns s.plan port (l / 16) && !(s.leafQ l).isEmpty

def dedup : List Nat → List Nat
  | [] => []
  | x :: t => if t.contains x then dedup t else x :: dedup t

def State.busyGroups (s : State) (port : Nat) : List Nat := dedup ((s.busyLeaves port).map (· / 16))

/-! ### Round robin (R230) -/

/-- Children of one parent that may be chosen: (node, length of the frame at its head). -/
abbrev Kids := List (Nat × Nat)

def State.setTurn (s : State) (k v : Nat) : State :=
  s.withSch { s.sch with turn := spSet (fun _ => 0) s.sch.turn k v }

/-- The round goes on to the next child: its deficit grows, and it is chosen once the deficit covers its
head frame's charged length. -/
def State.drrRun (s : State) (turnKey : Nat) : Nat → Kids → Option (Nat × State)
  | 0, _ => none
  | _, [] => none
  | n + 1, (k, l) :: rest =>
    let c := s.node k
    let d := c.deficit + nWeight c * 64
    if nCharge c l ≤ d then
      some (k, (s.setNode k { c with deficit := d - nCharge c l }).setTurn turnKey (k + 1))
    else (s.setNode k { c with deficit := d }).drrRun turnKey n (rest ++ [(k, l)])

/-- One child chosen among those of equal `PRIO`: the one the round stands at while its deficit covers
its head frame, else the round moves on. -/
def State.drrPick (s : State) (turnKey : Nat) (kids : Kids) : Option (Nat × State) :=
  let cur := spGet (fun _ => 0) s.sch.turn turnKey
  let again := kids.filter fun x => x.1 + 1 == cur
  let after := kids.filter fun x => decide (cur ≤ x.1)
  let upto := kids.filter fun x => decide (x.1 < cur)
  match again with
  | (k, l) :: _ =>
    let c := s.node k
    if nCharge c l ≤ c.deficit then some (k, s.setNode k { c with deficit := c.deficit - nCharge c l })
    else s.drrRun turnKey (1100 * kids.length) (after ++ upto)
  | [] => s.drrRun turnKey (1100 * kids.length) (after ++ upto)

/-- The child chosen below a parent: lowest `PRIO`, then round robin. -/
def State.pickKid (s : State) (parent : Nat) (kids : Kids) : Option (Nat × State) :=
  match (List.range 8).find? fun p => kids.any fun x => nPrio (s.node x.1) == p with
  | none => none
  | some p => s.drrPick (8 * parent + p) (kids.filter fun x => nPrio (s.node x.1) == p)

/-! ### Selection (R230) -/

/-- The length of the frame at the head of a leaf. -/
def State.headLen (s : State) (l : Nat) : Nat := ((s.leafQ l).head?.map egLen).getD 0

/-- The leaf a group would select now. -/
def State.groupPick (s : State) (g : Nat) : Option (Nat × State) :=
  let leaves := (List.range 16).map (16 * g + ·)
  let kids : Kids := (leaves.filter fun l => !(s.leafQ l).isEmpty && nCreditOk (s.node (nodeKey 3 l))).map fun l =>
    (nodeKey 3 l, s.headLen l)
  (s.pickKid (nodeKey 2 g) kids).map fun (k, t) => (k - nodeKey 3 0, t)

/-- The leaf a class would select now: its candidate. -/
def State.classPick (s : State) (port c : Nat) : Option (Nat × State) :=
  let gs := (s.busyGroups port).filter fun g => treeClass s.plan port g == c && nCreditOk (s.node (nodeKey 2 g))
  let kids : Kids := gs.filterMap fun g => (s.groupPick g).map fun (l, _) => (nodeKey 2 g, s.headLen l)
  match s.pickKid (nodeKey 1 (8 * port + c)) kids with
  | none => none
  | some (k, s1) => s1.groupPick (k - nodeKey 2 0)

/-- The time a frame takes on the wire, in 2⁻⁴⁴ ns, with the alignment markers inside it (R238). -/
def wireTime (p : Plan) (port l markers : Nat) : Nat := (l + 8) * 8 * secUnit / macRate p port + markers

/-- Does the candidate of a class fit before its gate next closes? -/
def State.gateFits (s : State) (port c l markers : Nat) : Bool :=
  (s.get (F.SCH_PORT_STATUS_GATES port)).testBit c &&
  match s.openFor port c with
  | none => true
  | some d => decide (wireTime s.plan port l markers ≤ d)

/-- The candidate of a class, when the class is eligible. -/
def State.classCand (s : State) (port c markers : Nat) : Option Nat :=
  let n := s.node (nodeKey 1 (8 * port + c))
  if !nCreditOk n || (s.get (F.SCH_PORT_STATUS_PAUSED port)).testBit c || (nCbsEn n && decide (n.cbsCredit < 0)) then none
  else
    match s.classPick port c with
    | none => none
    | some (l, _) => if s.gateFits port c (s.headLen l) markers then some l else none

/-- The leaf whose frame the port sends next, with the deficits and turns of the choice. -/
def State.portPick (s : State) (port markers : Nat) : Option (Nat × State) :=
  if !nCreditOk (s.node (nodeKey 0 port)) then none
  else
    let kids : Kids := (List.range 8).filterMap fun c =>
      (s.classCand port c markers).map fun l => (nodeKey 1 (8 * port + c), s.headLen l)
    match s.pickKid (nodeKey 0 port) kids with
    | none => none
    | some (k, s1) => s1.classPick port ((k - nodeKey 1 0) % 8)

/-- The nodes on the path of a leaf (Table 9-1). -/
def leafPath (p : Plan) (port l : Nat) : List Nat :=
  [nodeKey 0 port, nodeKey 1 (8 * port + leafClass p port l), nodeKey 2 (l / 16), nodeKey 3 l]

/-- The credit of every shaped node on the path falls by its charge (R231). -/
def State.chargePath (s : State) (port l len : Nat) : State :=
  (leafPath s.plan port l).foldl (fun s k =>
    let n := s.node k
    if n.rate = 0 then s else s.setNode k { n with credit := n.credit - (nCharge n len : Int) * 2 ^ 32 }) s

/-- A node that has no frames loses its deficit (R230). -/
def State.loseDeficits (s : State) (port l : Nat) : State :=
  let s1 := if (s.leafQ l).isEmpty then s.setNode (nodeKey 3 l) { s.node (nodeKey 3 l) with deficit := 0 } else s
  let s2 := if (s1.busyGroups port).contains (l / 16) then s1
    else s1.setNode (nodeKey 2 (l / 16)) { s1.node (nodeKey 2 (l / 16)) with deficit := 0 }
  let c := leafClass s.plan port l
  if (s2.busyGroups port).any fun g => treeClass s.plan port g == c then s2
  else s2.setNode (nodeKey 1 (8 * port + c)) { s2.node (nodeKey 1 (8 * port + c)) with deficit := 0 }

/-- The frame at the head of a leaf leaves the queue. -/
def State.popLeaf (s : State) (port l : Nat) : State := (s.setLeafQ l (s.leafQ l).tail).loseDeficits port l

/-! ### The frame in transmission -/

/-- Does the class hold frames? -/
def State.classBusy (s : State) (port c : Nat) : Bool :=
  (s.busyGroups port).any fun g => treeClass s.plan port g == c

def State.txOf (s : State) (port : Nat) : Option TxFrame := spGet (fun _ => none) s.sch.tx port
def State.setTx (s : State) (port : Nat) (t : Option TxFrame) : State :=
  s.withSch { s.sch with tx := spSet (fun _ => none) s.sch.tx port t }

/-- The port sends no frame any more: PFC frames that waited for its end go (R89). -/
def State.endTx (s : State) (port : Nat) : State := (s.setTx port none).pfcBoundary port

/-! ### Refills (R232) -/

/-- `m` refills of a shaper, the last at an instant: `RATE` × interval / 8 × 10⁹ bytes each, with the remainder
carried, up to `BURST`. -/
def refilled (n : SchNode) (m inst : Nat) : SchNode :=
  let x := m * (n.rate * 2 ^ nRefill n * 2 ^ 32) + n.rem
  if n.rate = 0 then { n with last := inst }
  else
    { n with credit := min ((n.burst : Int) * 2 ^ 32) (n.credit + ((x / 1000000000 : Nat) : Int)), rem := x % 1000000000,
             last := inst }

/-- The refill interval of a node, in 2⁻⁴⁴ ns. -/
def nInterval (n : SchNode) : Nat := 8 * nsUnit * 2 ^ nRefill n

/-- Is a commit pending for the node? -/
def State.nodeGoHere (s : State) (k : Nat) : Bool :=
  s.get F.SCH_NODE_COMMIT_PENDING == 1 && nodeKey (s.get F.SCH_NODE_SEL_STG_LEVEL) (s.get F.SCH_NODE_SEL_STG_INDEX) == k

/-- The staged content becomes the node's: credit and deficit kept, credit clamped to the new burst,
CBS credit zero when `CBS_EN` changes (R234). -/
def State.nodeApply (s : State) (k : Nat) : State :=
  let n := s.node k
  let burst := s.get F.SCH_NODE_BURST_STG_BURST
  let cbs := s.rd R.SCH_NODE_CBS_STG
  let same := bitAt cbs 63 == nCbsEn n
  let m : SchNode := { n with
    rate := s.get F.SCH_NODE_RATE_STG_RATE, burst := burst, cfg := s.rd R.SCH_NODE_CFG_STG, cbs := cbs
    credit := min n.credit ((burst : Int) * 2 ^ 32)
    cbsCredit := if same then n.cbsCredit else 0
    cbsRem := if same then n.cbsRem else 0
    cbsAt := s.clk.elapsed }
  (s.setNode k m).commitApplied F.SCH_NODE_COMMIT_PENDING F.SCH_NODE_GEN_GEN

/-- The refill instants of a node after its last refill and up to now: how many there are, and the instant of the
`j`-th on the clock of `ClockState.elapsed` (R232). They are the TB0 instants that are multiples of its interval, since
its last refill or since the grid was anchored anew. -/
def State.refillDue (s : State) (n : SchNode) : Nat × (Nat → Nat) :=
  let v := s.tbVal 0
  let now := s.clk.elapsed
  let iv := nInterval n
  let from' := v - (now - max n.last s.sch.anchor)
  (v / iv - from' / iv, fun j => now - (v - (from' / iv + j) * iv))

/-- The number of the first of a node's refill instants at or after the GO of its commit (R234). -/
def State.refillOfGo (s : State) (n : SchNode) : Nat :=
  let v := s.tbVal 0
  let now := s.clk.elapsed
  let iv := nInterval n
  max 1 ((v - (now - s.sch.goAt) + iv - 1) / iv - (v - (now - max n.last s.sch.anchor)) / iv)

/-- All refills of a node up to now, by its settings. -/
def State.refillAll (s : State) (k : Nat) : State :=
  let d := s.refillDue (s.node k)
  if d.1 = 0 then s else s.setNode k (refilled (s.node k) d.1 (d.2 d.1))

/-- A node's refills up to now. A commit of the node applies at the first refill instant at or after its GO, after the
refill and the selections of that instant (R234, R247): it falls due where that instant is now, and it is applied, with
the refills since by the new settings, where that instant has passed. -/
def State.nodeRefill (s : State) (k : Nat) : State :=
  let n := s.node k
  let d := s.refillDue n
  let j := s.refillOfGo n
  if s.sch.due ∧ s.nodeGoHere k then s
  else if s.nodeGoHere k ∧ j ≤ d.1 then
    let s1 := s.setNode k (refilled n j (d.2 j))
    if d.2 j = s.clk.elapsed then s1.withSch { s1.sch with due := true }
    else (s1.nodeApply k).refillAll k
  else s.refillAll k

/-- The port whose tree holds a node. -/
def nodePort (p : Plan) (level index : Nat) : Nat :=
  match level with
  | 0 => index
  | 1 => index / 8
  | 2 => (groupPort p index).getD 0
  | _ => (groupPort p (index / 16)).getD 0

/-- Shaped nodes that `f` accepts have the refills that are due. -/
def State.refillNodes (s : State) (f : Nat → Bool) : State :=
  (s.sch.nodes.filter fun x => x.2.rate != 0 && f x.1).foldl (fun (s : State) x => s.nodeRefill x.1) s

/-- A port's refills of the present instant come before its selection (R247), those of a node whose commit is pending
among them, whatever its rate. -/
def State.refillPort (s : State) (port : Nat) : State :=
  let s1 := s.refillNodes fun k => nodePort s.plan (k / 65536) (k % 65536) == port
  let level := s.get F.SCH_NODE_SEL_STG_LEVEL
  let index := s.get F.SCH_NODE_SEL_STG_INDEX
  if s1.nodeGoHere (nodeKey level index) ∧ nodePort s.plan level index = port then s1.nodeRefill (nodeKey level index) else s1

/-- Time moves on: a node commit whose refill instant it was is applied, after the selections of that instant (R234,
R247). -/
def State.nodeDue (s : State) : State :=
  if s.sch.due then
    ((s.withSch { s.sch with due := false }).nodeApply
      (nodeKey (s.get F.SCH_NODE_SEL_STG_LEVEL) (s.get F.SCH_NODE_SEL_STG_INDEX)))
  else s

/-! ### The credit-based shaper (R235) -/

/-- Parts of 2⁻³² byte in which a CBS credit is kept: every slope, for every time and frame, is a whole number of
them. -/
def cbsDen : Nat := 3276800000000000

def cbsAdd (n : SchNode) (x : Int) : SchNode :=
  let y := n.cbsCredit * cbsDen + n.cbsRem + x
  { n with cbsCredit := y / (cbsDen : Int), cbsRem := (y % (cbsDen : Int)).toNat }

/-- Is the CBS credit of a class held: its gate closed, the class paused, or the port in Hold (R235)? -/
def State.cbsStopped (s : State) (port c : Nat) : Bool :=
  !(s.get (F.SCH_PORT_STATUS_GATES port)).testBit c || (s.get (F.SCH_PORT_STATUS_PAUSED port)).testBit c ||
    s.epHeld (0x1B0 + port)

/-- The frame in transmission at a port, when it is of the class. -/
def State.classTx (s : State) (port c : Nat) : Option TxFrame :=
  (s.txOf port).filter fun t => leafClass s.plan port t.leaf == c

/-- How much of the time in which a frame is charged sendSlope has passed at an instant, in hundredths of the unit of
`ClockState.elapsed`: (*L* + `OVERHEAD`) × 8 / MAC rate from its start (R235). -/
def cbsPassed (p : Plan) (port : Nat) (n : SchNode) (t : TxFrame) (at' : Nat) : Nat :=
  min (nCharge n (egLen t.frame) * 2 ^ 32 * 32768 / 2 ^ portSpeed p port) (100 * (at' - t.start))

/-- A class node's CBS credit brought up to now: it changes at sendSlope while a frame of the class is sent, rises at
idleSlope while one waits and none is in transmission, returns toward zero without frames, and is held while gate, pause
or Hold stop the class. -/
def State.cbsStep (s : State) (k : Nat) : State :=
  let port := (k - nodeKey 1 0) / 8
  let c := (k - nodeKey 1 0) % 8
  let n := s.node k
  let base : SchNode := { n with cbsAt := s.clk.elapsed }
  let up := cbsAdd base ((nSlope n * (s.clk.elapsed - n.cbsAt) * 100 : Nat) : Int)
  if k / 65536 ≠ 1 ∨ !nCbsEn n then s
  else if s.cbsStopped port c then s.setNode k base
  else
    match s.classTx port c with
    | some t =>
      let d := cbsPassed s.plan port n t s.clk.elapsed - cbsPassed s.plan port n t n.cbsAt
      s.setNode k (cbsAdd base (((nSlope n : Int) - macRate s.plan port) * (d : Nat)))
    | none =>
      if s.classBusy port c then s.setNode k up
      else s.setNode k (if 0 < n.cbsCredit ∨ 0 ≤ up.cbsCredit then { base with cbsCredit := 0, cbsRem := 0 } else up)

/-- The CBS credits of a port brought up to now, before something changes on which they depend. -/
def State.cbsSync (s : State) (port : Nat) : State :=
  (List.range 8).foldl (fun (s : State) c => s.cbsStep (nodeKey 1 (8 * port + c))) s

/-- The end of a frame of a class, whose credit is up to date: it has changed by `x` more, in the parts of `cbsDen`, and a
class without frames keeps no positive credit; a class that is stopped keeps its credit. -/
def State.cbsEnd (s : State) (port c : Nat) (x : Int) : State :=
  let k := nodeKey 1 (8 * port + c)
  let n := s.node k
  let m := cbsAdd { n with cbsAt := s.clk.elapsed } x
  if !nCbsEn n ∨ s.cbsStopped port c then s
  else s.setNode k (if !s.classBusy port c && decide (0 < m.cbsCredit) then { m with cbsCredit := 0, cbsRem := 0 } else m)

/-- A frame sent whole: sendSlope for what is left of its charged time (R233, R235). -/
def State.cbsSent (s : State) (port c : Nat) (t : TxFrame) : State :=
  let n := s.node (nodeKey 1 (8 * port + c))
  let left := nCharge n (egLen t.frame) * 2 ^ 32 * 32768 / 2 ^ portSpeed s.plan port - cbsPassed s.plan port n t s.clk.elapsed
  s.cbsEnd port c (((nSlope n : Int) - macRate s.plan port) * (left : Nat))

/-- A frame cut off: sendSlope has been charged for the time that it was sent. -/
def State.cbsCut (s : State) (port c : Nat) : State := s.cbsEnd port c 0

/-- The gates of a port brought up to the present, its CBS credits first. -/
def State.gatesNow (s : State) (port : Nat) : State := (s.cbsSync port).gclSync port

/-! ### Frames that arrive while queued (cut-through, R242) -/

/-- The port has a frame whose flits still arrive: on a leaf or in transmission. -/
def State.schArriving (s : State) (port : Nat) : Bool :=
  (match s.txOf port with | some t => t.frame.arriving | none => false) ||
  (s.busyLeaves port).any fun l => (s.leafQ l).any fun f => f.arriving

/-- The packet in ejection on the bulk channel of a port. -/
def State.egRx (s : State) (port : Nat) : Option RxPacket := spGet (fun _ => none) s.prm.rx (4 * (0x1B0 + port) + 3)

/-- What is still to come of the packet in ejection at a port is discarded. -/
def State.rxDiscard (s : State) (port : Nat) : State :=
  match s.egRx port with
  | some r => s.withPrm { s.prm with
      rx := spSet (fun _ => none) s.prm.rx (4 * (0x1B0 + port) + 3) (some { r with discard := true }) }
  | none => s

/-- Has a flit of the packet in ejection at a port, or its header, been poisoned? -/
def State.rxPoison (s : State) (port : Nat) : Bool :=
  match s.egRx port with
  | some r => r.poison || hGet r.words CH.poison == 1
  | none => false

/-- The frame at the head of a leaf is discarded, and with it what still arrives of its packet. -/
def State.dropHead (s : State) (port l : Nat) : State :=
  match (s.leafQ l).head? with
  | some f => if f.arriving then (s.popLeaf port l).rxDiscard port else s.popLeaf port l
  | none => s

/-- Queued frames of a port discarded, each counted by `count`, and what still arrives of one. -/
def State.flushPort (s : State) (p : Nat) (count : State → State) : State :=
  (s.busyLeaves p).foldl (fun (s : State) l =>
    let q := s.leafQ l
    let s1 := ((List.range q.length).foldl (fun (s : State) _ => count s) (s.setLeafQ l [])).loseDeficits p l
    if q.any fun f => f.arriving then s1.rxDiscard p else s1) s

/-- The arriving frame of a leaf queue gets its bytes; `none` discards it. -/
def State.schFill (s : State) (port : Nat) (data : Option (List Byte)) : State :=
  (s.busyLeaves port).foldl (fun s l =>
    let q := (s.leafQ l).filterMap fun (f : EgFrame) =>
      if f.arriving then data.map fun d => { f with data := d, arriving := false } else some f
    (s.setLeafQ l q).loseDeficits port l) s

/-- Is the frame in transmission still arriving? -/
def State.txArriving (s : State) (port : Nat) : Option TxFrame := (s.txOf port).filter fun t => t.frame.arriving

/-- The arriving frame of a port is complete: its bytes join it; poisoned before its start, it is
discarded. -/
def State.schComplete (s : State) (port : Nat) (data : List Byte) (poison : Bool) : State :=
  match s.txArriving port with
  | some t => s.setTx port (some { t with frame := { t.frame with data := data, poison := poison, arriving := false } })
  | none => s.schFill port (if poison then none else some data)

/-- The arriving frame of a port is aborted: stomped if it has started, its bytes so far `data` kept, else discarded. -/
def State.schAborted (s : State) (port : Nat) (data : List Byte) : State :=
  match s.txArriving port with
  | some t => s.setTx port (some { t with aborted := true, frame := { t.frame with data := data, arriving := false } })
  | none => s.schFill port none

end Sys2Proof.Machine
end

