-- ==== Sys2Proof/Machine/Promenade.lean ====
section
/-! DEFINITION. The promenade's commands (03_promenade.md): injection, hops, delivery, stalls. -/

namespace Sys2Proof.Machine

/-- A length mismatch at an injecting port (R84): FC 0x0905 and, of a pavilion, violation 0x12. Where no packet
was begun the source is the port itself. -/
def State.lengthMismatch (s : State) (ep : Nat) (w : List Word) : State :=
  (s.fault uPrm 0x05 4 (if w = [] then ep * 65536 else srcDst w)).epViolation ep 0x12

/-- The injection checks of Table 3-8: the first that fails, as (condition, status bit). -/
def injectCheck (p : Plan) (ep : Nat) (w : List Word) : Option (Nat × Nat) :=
  let dst := hGet w CH.dstEp
  if hGet w CH.ver ≠ 2 ∨ 5 < hGet w CH.kind then some (0x01, 0)
  else if !epPresent p dst then some (0x02, 1)
  else if !(epReach p ep).testBit ((epClass dst).getD 15) then some (0x02, 1)
  else if (hGet w CH.kind = kEvent ∨ hGet w CH.kind = kVoid) ∧ hGet w CH.len ≠ 0 then some (0x05, 4)
  else none

/-- A transmit credit goes back to tenant logic (R111). -/
def State.returnTxCredit (s : State) (ep vc : Nat) : State :=
  (s.setTxCredit ep vc (min 16 (s.txCredit ep vc + 1))).emit (.tenant ep "TX_CREDIT" vc)

/-- The credit that a flit took of tenant logic goes back as the flit leaves the injection buffer or is discarded. -/
def State.repay (s : State) (ep : Nat) (paid : Option Nat) : State :=
  match paid with
  | some vc => s.returnTxCredit ep vc
  | none => s

/-- A refused header (R78): counted, recorded, a command answered with 0xF2, reported to the pavilion
unit; the flits up to the tail are discarded. -/
def State.refuseInjection (s : State) (ep : Nat) (w : List Word) (cond bit : Nat) (tail : Bool) (paid : Option Nat) : State :=
  let s1 := (s.count F.PRM_INJ_REFUSE_COUNT).fault uPrm cond bit (srcDst w)
  let s2 := s1.setInjector ep { s1.injector ep with active := false, rest := [], discarding := !tail }
  ((s2.stationAnswer ep w 0xF2).repay ep paid).epViolation ep 0x10

/-- A flit of the packet in injection: accepted, or ended by the length rules of R84. -/
def State.takeFlit (s : State) (ep : Nat) (head tail poison : Bool) (vbytes : Nat) (data rest : List Byte)
    (paid : Option Nat) : State :=
  let i := s.injector ep
  let f := s.flight i.pkt
  let got := i.got + vbytes
  let push := fun (t a : Bool) =>
    s.pushFlit ep f.vc { mkFlit f.vc i.pkt head t a poison vbytes f.words data with paid := paid }
  if (tail && got == i.need) then (push true false).setInjector ep { i with active := false, got := got, rest := [] }
  else if tail || decide (i.need ≤ got) then
    let s1 := ((push true true).setInjector ep { i with active := false, rest := [], discarding := !tail }).count
      F.PRM_ABORT_COUNT_COUNT
    (s1.closeAborted ep f.vc f.words 0x0002 (got - 64)).lengthMismatch ep f.words
  else (push false false).setInjector ep { i with got := got, rest := rest }

/-- A head flit at a station (R78, R79, R84). A pavilion port that the end of the packet before it has detached
injects nothing. -/
def State.takeHead (s : State) (ep : Nat) (w0 : List Word) (tail poison : Bool) (vbytes : Nat)
    (data rest : List Byte) (paid : Option Nat) : State :=
  let w := match s.loadedTd ep with
    | some td => hSets w0 [(CH.td, td), (CH.srcEp, ep)]
    | none => w0
  let s0 := if (s.injector ep).active then
      (s.abortInjection ep 0x0002 false).lengthMismatch ep (s.flight (s.injector ep).pkt).words
    else s
  if epClass ep = some 6 ∧ s0.loadedTd ep = none then s0
  else
    match injectCheck s.plan ep w with
    | some (c, b) => s0.refuseInjection ep w c b tail paid
    | none =>
      let (k, s1) := s0.newFlight w ep (kindVc (hGet w CH.kind))
      let s2 := s1.setInjector ep ⟨true, k, 0, 64 + hGet w CH.len, rest, false, none⟩
      s2.takeFlit ep true tail poison vbytes data rest paid

/-- A flit that tenant logic offers without a credit (R111): discarded, a length mismatch. -/
def State.noCredit (s : State) (ep : Nat) : State :=
  let w := (s.flight (s.injector ep).pkt).words
  let s1 := if (s.injector ep).active then s.abortInjection ep 0x0002 true
    else s.setInjector ep { s.injector ep with discarding := true }
  s1.lengthMismatch ep (if (s.injector ep).active then w else [])

/-- The valid bytes of an offered flit, 1 to 128, and its payload bytes. -/
def offerValid (f : OfferedFlit) : Nat := if f.vbytes % 128 = 0 then 128 else f.vbytes % 128
def offerBytes (f : OfferedFlit) : List Byte :=
  bytesAt f.data 0 (if f.head then (offerValid f) - 64 else (offerValid f))

/-- Does the flit break the length rules of R84 for the packet that was in injection at the port: a HEAD before its
end, or an end at another count of bytes? -/
def State.breaksLength (s : State) (ep : Nat) (f : OfferedFlit) : Bool :=
  let i := s.injector ep
  f.head || (if f.tail then i.got + offerValid f != i.need else decide (i.need ≤ i.got + offerValid f))

/-- The header of a flit offered in the cycle in which another violation has fenced the group fails a check of its own
(R124). -/
def State.lateHead (s : State) (ep td : Nat) (f : OfferedFlit) : State :=
  let w := hSets f.words [(CH.td, td), (CH.srcEp, ep)]
  match injectCheck s.plan ep w with
  | some (c, b) => ((s.count F.PRM_INJ_REFUSE_COUNT).fault uPrm c b (srcDst w)).epViolation ep 0x10
  | none => s

/-- A flit offered in the cycle in which the port has detached. A length mismatch of the packet that the detach has
ended is recorded and lowers its void (R88); of a fence by another violation, what the flit violates is counted too, and
nothing else happens (R124). -/
def State.lateOffer (s : State) (ep : Nat) (f : OfferedFlit) : State :=
  match epGroup s.plan ep with
  | none => s
  | some g =>
    let w := (s.flight (s.injector ep).pkt).words
    if !s.fencedNow g ∧ !s.abortedNow ep then s
    else if s.txCredit ep f.vc = 0 then (s.lowerVoid ep 0x0002).lengthMismatch ep (if s.abortedNow ep then w else [])
    else
      let s1 := if s.abortedNow ep && s.breaksLength ep f then (s.lowerVoid ep 0x0002).lengthMismatch ep w else s
      if f.head && s.fencedNow g then s1.lateHead ep (grpLoadTd s.plan g) f else s1

/-- The injection of a device unit's packet has ended: counted, and what waited for it goes on. -/
def State.injectionEnds (s : State) (ep : Nat) : State :=
  if (s.injector ep).active then s
  else
    let n := spGet (fun _ => 0) s.prm.sent ep + 1
    (s.withPrm { s.prm with sent := spSet (fun _ => 0) s.prm.sent ep n }).clsSent

/-- A header that a station has built and held goes first where it now may; else the next packet of the device
unit. -/
def State.injectNext (s : State) (ep : Nat) : State :=
  match (s.waiting ep).find? fun x => s.mayEnter ep x.1 x.2 with
  | some x => s.waitLeaves ep x
  | none =>
    match spGet (fun _ => []) s.prm.out ep with
    | [] => s
    | p :: rest =>
      let vc := kindVc (hGet p.words CH.kind)
      if epClass ep = some 6 ∨ (s.injector ep).active ∨ s.heldAtInjection p.words ∨ !s.injRoom ep vc then s
      else
        let s1 : State := s.withPrm { s.prm with out := spSet (fun _ => []) s.prm.out ep rest }
        let need := 64 + hGet p.words CH.len
        let n := min 128 need
        (s1.takeHead ep p.words (decide (need ≤ 128)) p.poison n (bytesAt p.payload 0 (n - 64))
          (p.payload.drop 64) none).injectionEnds ep

/-- A head flit is offered at an endpoint: the next packet of a device unit (`offer` none), or the
flit of tenant logic at a pavilion port. -/
def execPacketInject (ep : Nat) (offer : Option OfferedFlit) (s : State) : Res :=
  if !s.stationRuns (epStation s.plan ep) then .next s
  else
    match offer with
    | none => .next (s.injectNext ep)
    | some f =>
      if s.portHeld ep ∨ !f.head ∨ s.heldAtInjection f.words then .next s
      else if (s.loadedTd ep).isNone then .next (s.lateOffer ep f)
      else if s.txCredit ep f.vc = 0 then .next (s.noCredit ep)
      else
        .next ((s.setTxCredit ep f.vc (s.txCredit ep f.vc - 1)).takeHead ep f.words f.tail f.poison (offerValid f) (offerBytes f) []
          (some f.vc))

/-- A later flit of a packet: the next 128 payload bytes of a device unit's packet, or the flit of
tenant logic (R84). -/
def execFlitInject (ep : Nat) (offer : Option OfferedFlit) (s : State) : Res :=
  let i := s.injector ep
  if !s.stationRuns (epStation s.plan ep) then .next s
  else
    match offer with
    | none =>
      if i.active ∧ epClass ep ≠ some 6 ∧ s.injRoom ep (s.flight i.pkt).vc then
        let n := min 128 (i.need - i.got)
        .next ((s.takeFlit ep false (decide (i.need - i.got ≤ 128)) false n (bytesAt i.rest 0 n) (i.rest.drop 128)
          none).injectionEnds ep)
      else .next s
    | some f =>
      if s.portHeld ep ∨ f.head then .next s
      else if (s.loadedTd ep).isNone then .next (s.lateOffer ep f)
      else if s.txCredit ep f.vc = 0 then .next (s.noCredit ep)
      else if i.active then
        .next ((s.setTxCredit ep f.vc (s.txCredit ep f.vc - 1)).takeFlit ep false f.tail f.poison (offerValid f) (offerBytes f) []
          (some f.vc))
      else .next ((s.setTxCredit ep f.vc (s.txCredit ep f.vc - 1)).returnTxCredit ep f.vc)

/-- A credit for the place a flit leaves: of a link's far buffer, or of the tenant's injection buffer. -/
def State.freePlace (s : State) (key : Nat) (paid : Option Nat) : State :=
  if key < 4096 then s.setCredit key (s.credit key + 1) else s.repay ((key - 4096) / 4) paid

/-- The front flit leaves its buffer. -/
def State.popFlit (s : State) (key : Nat) (rest : List Flit) (f : Flit) : State :=
  (s.setBuf key rest).freePlace key f.paid

/-- A flit of a packet that ends at a station is discarded there; the packet is gone with its tail. -/
def State.endFlit (s : State) (f : Flit) : State := if f.tail then s.dropFlight f.pkt else s

/-- A head flit with an uncorrectable error (R87): it and the rest of its packet are discarded at the station. -/
def State.loseHead (s : State) (st : Nat) (f : Flit) : State :=
  let fl := s.flight f.pkt
  let s1 := s.fault uPrm 0x07 6 (hGet fl.words CH.srcEp * 65536 + 0xFFFF)
  if f.tail then s1.dropFlight f.pkt else s1.setFlight f.pkt { fl with dropAt := some st }

/-- Units whose chapters take no header at their endpoint: MACs, arbour cores, classification, exact match. -/
def takesNothing (ep : Nat) : Bool :=
  match epClass ep with
  | some c => c == 0 || c == 7 || c == 8 || c == 9
  | none => true

/-- Units whose chapters say of an arriving header of any `KIND` what happens to it, so that a void that is no wake
probe is one too: transport and storage engines, terraces, egress ports (R226, R331, R361, R443; DEDUCED, log entry
121). -/
def takesVoid (ep : Nat) : Bool := [3, 4, 5, 10].contains ((epClass ep).getD 15)

/-- The packet at an ejection port ends: handed to a device unit whole, or discarded when aborted; an
aborted command is answered with 0xF4 (R81, R580). Tenant logic has had its flits already. A packet
that an egress port queued while it arrived joins its frame there (R242). A completion of a
command declared lost is discarded and counted (R553). -/
def State.finishRx (s : State) (ep vc : Nat) (r : RxPacket) (abort : Bool) : State :=
  let s1 := (s.setRx ep vc none).dropFlight r.pkt
  if r.discard ∨ epClass ep = some 6 then s1
  else if 0x1B0 ≤ ep ∧ ep < 0x1C0 ∧ vc = 3 ∧ s1.schArriving (ep - 0x1B0) then
    if abort then s1.schAborted (ep - 0x1B0) r.payload
    else s1.schComplete (ep - 0x1B0) r.payload (r.poison || hGet r.words CH.poison == 1)
  else if abort then s1.stationAnswer ep r.words 0xF4
  else if hGet r.words CH.kind = kVoid ∧ !takesVoid ep then s1
  else if hGet r.words CH.kind = kCompletion ∧ s1.lost.contains (ep, hGet r.words CH.ctx) then
    (s1.withLost (s1.lost.erase (ep, hGet r.words CH.ctx))).count F.FLT_LATE_CPL_COUNT
  else if takesNothing ep then
    if hGet r.words CH.kind = kCommand then s1.refuseCommand ep r.words else s1
  else
    let poison := r.poison || hGet r.words CH.poison == 1
    s1.setInbox ep (s1.inboxOf ep ++ [⟨r.words, r.payload, poison⟩])

/-- One flit enters an endpoint whose packet is in ejection. -/
def State.eject (s : State) (ep vc : Nat) (r : RxPacket) (f : Flit) : State :=
  let r1 := { r with payload := r.payload ++ f.data, poison := r.poison || f.poison }
  let s1 := if epClass ep = some 6 && !r.discard then
      (s.setRxCredit ep vc (s.rxCredit ep vc - 1)).emit
        (.rxFlit ep vc f.head f.tail f.abort f.poison f.vbytes (if f.head then r.words else []) f.data)
    else s
  if f.tail then s1.finishRx ep vc r1 f.abort else s1.setRx ep vc (some r1)

/-- Has the station a credit of the ejection port of an endpoint (R65)? Of a pavilion port a receive credit (R111). A
device unit holds the space of each completion it awaits (R67), and an egress port takes flits at all times (R226); else
it has places for sixteen flits beside the packets that wait there whole (DESIGN CHOICE, log entry 127). -/
def State.ejectRoom (s : State) (ep vc : Nat) : Bool :=
  if epClass ep = some 6 then decide (0 < s.rxCredit ep vc)
  else vc == 2 || epClass ep == some 10 || decide (s.inboxFlits ep vc < 16)

/-- May a flit enter the endpoint: what is discarded needs no credit. -/
def State.mayEject (s : State) (ep vc : Nat) (r : RxPacket) : Bool := r.discard || s.ejectRoom ep vc

/-- A trace event that finds no credit is discarded and counted (R86). -/
def State.dropTrace (s : State) (f : Flit) : State := (s.endFlit f).count F.PRM_TRACE_DROP_COUNT

/-- May a trace event enter the injection buffer of the station's endpoint: nothing of its channel before it, its
destination present and not under amendment, and a credit where it goes first (DESIGN CHOICE, log entry 131)? -/
def State.traceRoom (s : State) (ep dst : Nat) : Bool :=
  let st := epStation s.plan ep
  epPresent s.plan dst && (s.buf (injKey ep 0)).isEmpty && s.mayGo ep 0 (hSet hZero CH.dstEp dst) &&
  (match nextDir st (epStation s.plan dst) with
   | some d => decide (0 < s.credit (linkKey st d 0))
   | none => s.ejectRoom dst 0)

/-- A trace event is injected at the destination station, or discarded when no credit is held (R86). -/
def State.trace (s : State) (ep : Nat) (w : List Word) : State :=
  if hGet w CH.dbg = 1 ∧ s.get F.PRM_TRACE_CFG_EN = 1 then
    let dst := s.get F.PRM_TRACE_CFG_EP
    if s.traceRoom ep dst then
      let k := s.prm.nextPkt
      let s1 := s.putHeader ep 0 (traceEvent w dst)
      s1.setFlight k { s1.flight k with trace := true }
    else s.count F.PRM_TRACE_DROP_COUNT
  else s

/-- The flit at the front of a buffer moves over its next link, or, at the destination station, a
later flit enters the endpoint (R65 to R68, R70, R87). -/
def execFlitHop (key : Nat) (ecc : FlitEcc) (s : State) : Res :=
  match s.buf key with
  | [] => .next s
  | f :: rest =>
    let fl := s.flight f.pkt
    let st := bufStation s.plan key
    let dst := hGet fl.words CH.dstEp
    let popped := (s.countBy F.PRM_ECC_CORR_COUNT ecc.count).popFlit key rest f
    let f1 := if ecc.bad then f.bad fl else f
    if !s.stationRuns st then .next s
    else if fl.dropAt = some st then .next (popped.endFlit f)
    else
      match nextDir st (epStation s.plan dst) with
      | some d =>
        if f.head ∧ ecc.bad then .next (popped.loseHead st f)
        else if fl.trace ∧ s.credit (linkKey st d fl.vc) = 0 then .next (popped.dropTrace f)
        else if s.winsLink st d key then .next (popped.crossLink st d fl.vc (epShareClass s.plan fl.src) f1)
        else .next s
      | none =>
        match s.rxOf dst fl.vc with
        | none => .next s
        | some r =>
          if f.head ∨ (s.tile (epTile dst)).hold ∨ r.pkt ≠ f.pkt ∨ !s.mayEject dst fl.vc r then .next s
          else .next (popped.eject dst fl.vc r f1)

/-- The wake of a tile begins (R15, R82). -/
def State.startWake (s : State) (t : Nat) : State :=
  s.setTile t { s.tile t with waking := true }

/-- A wake probe (R81): a void whose `OPCODE` a source has left 0. -/
def wakeProbe (w : List Word) : Bool := hGet w CH.kind == kVoid && hGet w CH.opcode == 0

/-- The header at the front of a buffer at its destination station: delivered, refused, or held while
the tile wakes (R80 to R82, R86, R87). -/
def execHeaderDelivery (head : HeaderRead) (s : State) : Res :=
  let key := head.key
  let ecc := head.ecc
  match s.buf key with
  | [] => .next s
  | f :: rest =>
    let fl := s.flight f.pkt
    let st := bufStation s.plan key
    let dst := hGet fl.words CH.dstEp
    let t := epTile dst
    if !f.head ∨ fl.dropAt = some st ∨ nextDir st (epStation s.plan dst) ≠ none ∨ (s.rxOf dst fl.vc).isSome ∨
        !s.stationRuns st then .next s
    else
      let popped := (s.countBy F.PRM_ECC_CORR_COUNT ecc.count).popFlit key rest f
      if ecc.bad then .next (popped.loseHead st f)
      else if (s.tile t).hold then .next s
      else if (s.tile t).sky ≠ 0 then
        if (s.tile t).waking then .next s
        else .next (((s.startWake t).setFlight f.pkt { fl with woke := true }).count F.PRM_WAKE_COUNT_COUNT)
      else
        let w := hSet fl.words CH.wake (if fl.woke then 1 else 0)
        let refuse : RxPacket := ⟨f.pkt, w, [], false, true⟩
        let r : RxPacket := ⟨f.pkt, w, [], false, false⟩
        if epClass dst = some 6 ∧ s.loadedTd dst ≠ some (hGet w CH.td) then
          .next ((popped.tdRefuse w).eject dst fl.vc refuse f)
        else if wakeProbe w ∨ (epClass dst = some 6 ∧ s.prm.blocked.contains dst) then
          .next (popped.eject dst fl.vc refuse f)
        else if s.mayEject dst fl.vc r then .next ((popped.trace dst w).eject dst fl.vc r f)
        else if fl.trace then .next (popped.dropTrace f)
        else .next s

/-- Does the station hold a credit for the next flit of the packet in injection at a port: of the next buffer on
its route, or of the ejection port at the same station, and a place in the injection buffer (R83)? -/
def State.stallCredit (s : State) (ep : Nat) : Bool :=
  let fl := s.flight (s.injector ep).pkt
  let st := epStation s.plan ep
  s.injRoom ep fl.vc &&
  (match nextDir st (epStation s.plan (hGet fl.words CH.dstEp)) with
   | some d => decide (0 < s.credit (linkKey st d fl.vc))
   | none => s.ejectRoom (hGet fl.words CH.dstEp) fl.vc)

/-- A port's stall count exceeds the limit (R83): abort, void 0x0001, FC 0x0904, violation 0x11. In the cycle in
which another cause has ended the packet, the one void carries the lowest `OPCODE` (R88). -/
def State.stallAbort (s : State) (ep : Nat) : State :=
  let w := (s.flight (s.injector ep).pkt).words
  if s.stationRuns (epStation s.plan ep) ∧ (((s.injector ep).active ∧ s.stallCredit ep) ∨ s.abortedNow ep) then
    let s1 := s.abortInjection ep 0x0001 true
    let s2 := if (s.injector ep).active ∧ epClass ep ≠ some 6 then s1.injectionEnds ep else s1
    (s2.fault uPrm 0x04 3 (srcDst w)).epViolation ep 0x11
  else s

def execStallTimeout (ep : Nat) (s : State) : Res := .next (s.stallAbort ep)

/-- Stands a flit of a packet in a buffer at the station of an endpoint? -/
def State.waitsAt (s : State) (ep k : Nat) : Bool :=
  s.prm.bufs.any fun (key, l) => bufStation s.plan key == epStation s.plan ep && l.any fun f => f.pkt == k

/-- The TD of the stream behind a pavilion port: loaded, or loaded until a violation fenced the group at this very
instant (R85, R124). -/
def State.watchedTd (s : State) (ep : Nat) : Option Nat :=
  match epGroup s.plan ep with
  | some g => if (s.grp g).portsUp || s.fencedNow g then some (grpLoadTd s.plan g) else none
  | none => none

/-- The packets that an ejection port holds: in ejection, or of the port's TD (R80) with a flit at its station. -/
def State.heldPackets (s : State) (ep : Nat) : List Nat :=
  (s.prm.flights.filter fun (k, fl) => fl.dropAt == none && hGet fl.words CH.dstEp == ep &&
    (match s.rxOf ep fl.vc with
     | some r => if r.pkt = k then !r.discard else s.waitsAt ep k && s.watchedTd ep == some (hGet fl.words CH.td)
     | none => s.waitsAt ep k && s.watchedTd ep == some (hGet fl.words CH.td))).map Prod.fst

/-- Does a flit wait at an ejection port of a Clear tile on a channel with no credit (R85)? -/
def State.ejectStalled (s : State) (ep : Nat) : Bool :=
  s.tileClear (epTile ep) && s.stationRuns (epStation s.plan ep) && !s.prm.blocked.contains ep &&
  (s.heldPackets ep).any fun k => s.waitsAt ep k && s.rxCredit ep (s.flight k).vc == 0

/-- A packet held for a blocked port is aborted: its flits are discarded at the station, and tenant logic gets the
abort tail of what it has begun to receive, and the void (R81, R85), without a credit (DESIGN CHOICE, log entry 129). -/
def State.abortHeld (s : State) (ep k : Nat) : State :=
  let fl := s.flight k
  let v := voidOf fl.words 0x0005
  let begun := match s.rxOf ep fl.vc with
    | some r => if r.pkt = k then some r.payload.length else none
    | none => none
  let s1 := (s.setFlight k { fl with dropAt := some (epStation s.plan ep) })
  match begun with
  | some n => (s1.setRx ep fl.vc none).emits
      [.rxFlit ep fl.vc false true true false 1 [] [0], .rxFlit ep fl.vc true true false false 64 (v n) []]
  | none => s1.emit (.rxFlit ep fl.vc true true false false 64 (v 0) [])

/-- The ejection watchdog (R85): the packets held for the port are aborted, the port is blocked until
released, FC 0x0906, violation 0x13, which is counted also at the instant at which another violation has fenced the
group (R124). -/
def State.watchdog (s : State) (ep : Nat) : State :=
  let held := s.heldPackets ep
  if (s.watchedTd ep).isSome ∧ s.ejectStalled ep then
    let src := hGet (s.flight (held.headD 0)).words CH.srcEp
    if (s.loadedTd ep).isNone then (s.fault uPrm 0x06 5 (src * 65536 + ep)).epViolation ep 0x13
    else
      let s1 := held.foldl (fun s k => s.abortHeld ep k) s
      let s3 := (s1.countBy F.PRM_ABORT_COUNT_COUNT held.length).fault uPrm 0x06 5 (src * 65536 + ep)
      (s3.withPrm { s3.prm with blocked := ep :: s3.prm.blocked.filter (· != ep) }).epViolation ep 0x13
  else s

def execEjectionWatchdog (ep : Nat) (s : State) : Res := .next (s.watchdog ep)

/-- A new stall limit (R88): reserved outside 1 to 16,000 µs; the timers whose count already exceeds
it fire: those of injecting ports in `overIn`, of ejection ports in `overEject`. -/
def State.stallLimitWrite (s : State) (limit : Nat) (overIn overEject : List Nat) : State :=
  if limit < 1 ∨ 16000 < limit then s.common uPrm 0xFF
  else
    let s1 := s.set F.PRM_STALL_LIMIT_LIMIT_US limit
    overEject.foldl State.watchdog (overIn.foldl State.stallAbort s1)

def execPrmStallLimitWrite (limit : Nat) (overIn overEject : List Nat) (s : State) : Res :=
  .next (s.stallLimitWrite limit overIn overEject)

end Sys2Proof.Machine
end

