-- ==== Sys2Proof/Machine/Apc.lean ====
section
/-! DEFINITION. Terraces and memory: ring enable, receive and send (R442 to R444), patrol scrub, zero map and
the IOMMU's fence (R438 to R440, R446). -/

namespace Sys2Proof.Machine

/-! ### Harts (R441, R482) -/

/-- The tile of a hart (Table 18-2). -/
def hartTile (h : Nat) : Nat := 180 + h

/-- A hart as every start leaves it: at the boot ROM, every entry of its PMP off and unlocked. -/
def hartReset (_ : Nat) : Hart :=
  { pc := 0x0E0100000000, a0 := 0, a1 := 0, wfi := false, pmp := [], xs := [], csrs := [], files := [] }
def State.hart (s : State) (h : Nat) : Hart := spGet hartReset s.harts h
def State.setHart (s : State) (h : Nat) (x : Hart) : State := s.withHarts (spSet hartReset s.harts h x)

def fileReset (_ : Nat) : ImsicFile := ⟨false, 0, 0, 0⟩
def Hart.file (x : Hart) (f : Nat) : ImsicFile := spGet fileReset x.files f
def Hart.setFile (x : Hart) (f : Nat) (y : ImsicFile) : Hart := { x with files := spSet fileReset x.files f y }

/-- An identity of a file becomes pending; there are 255 (R441). -/
def ImsicFile.pend (y : ImsicFile) (eiid : Nat) : ImsicFile :=
  if eiid = 0 ∨ 255 < eiid then y else { y with eip := y.eip ||| BitVec.ofNat 256 (2 ^ eiid) }

/-- One MSI to an interrupt file of a hart, which wakes it from WFI. -/
def State.imsicMsi (s : State) (hart file eiid : Nat) : State :=
  let x := s.hart hart
  let s1 := (s.emit (.imsic hart file eiid)).setHart hart { x.setFile file ((x.file file).pend eiid) with wfi := false }
  let x := s1.tile (hartTile hart)
  if (x.sky = 1 ∨ x.sky = 2) ∧ !x.waking then s1.startWake (hartTile hart) else s1

/-! ### Terrace rings (R442) -/

def terraceEp (t : Nat) : Nat := 0x60 + t

/-- The address of a ring's block: its `_BASE` register. -/
def ringReg (t r : Nat) (send : Bool) : Nat := if send then R.APC_TX_BASE t r else R.APC_RX_BASE t r

/-- Fields of a ring's registers, by its block. -/
def rgBase (b : Nat) : Fld := ⟨b, 63, 0⟩
def rgEn (b : Nat) : Fld := ⟨b + 8, 63, 63⟩
def rgIntEn (b : Nat) : Fld := ⟨b + 8, 62, 62⟩
def rgFile (b : Nat) : Fld := ⟨b + 8, 59, 56⟩
def rgHart (b : Nat) : Fld := ⟨b + 8, 46, 40⟩
def rgEiid (b : Nat) : Fld := ⟨b + 8, 39, 32⟩
def rgCount (b : Nat) : Fld := ⟨b + 8, 12, 8⟩
def rgSlot (b : Nat) : Fld := ⟨b + 8, 4, 0⟩
def rgPi (b : Nat) : Fld := ⟨b + 16, 31, 0⟩
def rgCi (b : Nat) : Fld := ⟨b + 24, 31, 0⟩

/-- A condition of APC with terrace and ring. -/
def State.apcFault (s : State) (cond t r : Nat) : State := s.fault uApc cond (cond - 1) (t % 8 * 256 + r % 64)

/-- May a ring with this base and configuration be enabled? -/
def State.ringOk (s : State) (base : Nat) (cfg : Word) : Bool :=
  base % 4096 == 0 && decide (4 ≤ bitsAt cfg 12 8) && decide (bitsAt cfg 12 8 ≤ 16) && decide (7 ≤ bitsAt cfg 4 0) &&
  decide (bitsAt cfg 4 0 ≤ 17) && tdOwnsRange s.plan 0 base (2 ^ (bitsAt cfg 12 8 + bitsAt cfg 4 0))

/-- Do the other fields hold encodings of Table 16-8? An identity of 0 stands while no interrupt is enabled. -/
def ringCfgEncOk (send : Bool) (v : Word) : Bool :=
  decide (bitsAt v 59 56 ≤ 8) && decide (bitsAt v 46 40 ≤ 95) && (!bitAt v 62 || (!send && bitsAt v 39 32 != 0))

/-- The fields of `_CFG`. -/
def ringCfgMask : Word := 0xCF007FFF00001F1F

/-- A write to a ring's `_CFG`: the ring is enabled, refused, disabled, or configured. -/
def State.ringCfgWrite (s : State) (t r : Nat) (send : Bool) (v : Word) : State :=
  let b := ringReg t r send
  let was := s.get (rgEn b) = 1
  let w := if was then setBit (s.rd (b + 8)) 63 (bitAt v 63) else v &&& ringCfgMask
  if !was ∧ !ringCfgEncOk send v then s.common uApc 0xFF
  else if bitAt v 63 then
    if s.ringOk (s.get (rgBase b)) w then ((s.wr (b + 8) w).set (rgPi b) 0).set (rgCi b) 0
    else s.apcFault 3 t r
  else if !was ∧ !(decide (4 ≤ bitsAt v 12 8) && decide (bitsAt v 12 8 ≤ 16) && decide (7 ≤ bitsAt v 4 0) &&
      decide (bitsAt v 4 0 ≤ 17)) then s.common uApc 0xFF
  else s.wr (b + 8) w

/-- A write to a ring's `_BASE`: ignored while the ring is enabled. -/
def State.ringBaseWrite (s : State) (t r : Nat) (send : Bool) (v : Word) : State :=
  let b := ringReg t r send
  if s.get (rgEn b) = 1 then s else s.wr b v

def execRingEnable (terrace ring : Nat) (send : Bool) (value : Word) (s : State) : Res :=
  .next (if bitAt value 63 then s.ringCfgWrite terrace ring send value else s)

/-- Entries between two free-running indices. -/
def ringFill (p c : Nat) : Nat := (p + 2 ^ 32 - c) % 2 ^ 32

/-- The slot address at an index. -/
def State.ringSlot (s : State) (b i : Nat) : Nat :=
  s.get (rgBase b) + i % 2 ^ s.get (rgCount b) * 2 ^ s.get (rgSlot b)

/-- A header's words as bytes. -/
def headerBytes (w : List Word) : List Byte := w.flatMap fun x => natLE 8 x.toNat

/-- A packet written to a slot, poisoned payload staying poisoned (R438, R552). -/
def State.putSlot (s : State) (a : Nat) (w : List Word) (data : List Byte) (poison : Bool) : State :=
  let s1 := s.putBytes a (headerBytes w ++ data)
  if poison then s1.markPoison (a + 64) data.length else s1

/-- A discarded header of a terrace: counted, and a command answered (R443). -/
def State.ringDiscard (s : State) (t : Nat) (m : Packet) : State :=
  let s1 := s.count (F.APC_TQ_DROP_COUNT t)
  if hGet m.words CH.kind = kCommand then s1.complete (terraceEp t) m.words 1 0 [] else s1

/-- The interrupt of a receive ring whose indices have become unequal. -/
def State.ringInterrupt (s : State) (b : Nat) : State :=
  let file := s.get (rgFile b)
  if s.get (rgIntEn b) = 1 then
    s.imsicMsi (s.get (rgHart b)) (if file = 0 then 8 else file - 1) (s.get (rgEiid b))
  else s

def execTerraceReceive (terrace : Nat) (s : State) : Res :=
  let ep := terraceEp terrace
  match s.inboxOf ep with
  | [] => .next s
  | m :: t =>
    if !s.ready ∨ s.epHeld ep then .next s
    else
      let s1 := s.setInbox ep t
      let r := hGet m.words CH.dstQueue
      let b := ringReg terrace r false
      let slot := s.ringSlot b (s.get (rgPi b))
      if 64 ≤ r ∨ s.get (rgEn b) = 0 then .next ((s1.apcFault 2 terrace r).ringDiscard terrace m)
      else if ringFill (s.get (rgPi b)) (s.get (rgCi b)) = 2 ^ s.get (rgCount b) then .next (s1.ringDiscard terrace m)
      else if !s.operatorReaches slot (2 ^ s.get (rgSlot b)) then .next ((s1.partViolation slot).ringDiscard terrace m)
      else
        let room := 2 ^ s.get (rgSlot b) - 64
        let data := m.payload.take room
        let cut := if room < m.payload.length then hSets m.words [(CH.len, data.length), (CH.trunc, 1)] else m.words
        let w := if m.poison then hSet cut CH.poison 1 else cut
        let s2 := (s1.putSlot slot w data m.poison).set (rgPi b) (s.get (rgPi b) + 1)
        .next (if s.get (rgPi b) = s.get (rgCi b) then s2.ringInterrupt b else s2)

def execTerraceSend (terrace ring : Nat) (ecc : EccResult) (s : State) : Res :=
  let ep := terraceEp terrace
  let b := ringReg terrace ring true
  let ci := s.get (rgCi b)
  if !s.ready ∨ s.epHeld ep ∨ s.get (rgEn b) = 0 ∨ s.get (rgPi b) = ci then .next s
  else
    let a := s.ringSlot b ci
    if !s.operatorReaches a (2 ^ s.get (rgSlot b)) then .next ((s.partViolation a).set (rgCi b) (ci + 1)) else
    let s1 := (s.memRead ecc a).set (rgCi b) (ci + 1)
    let w := hSet ((List.range 8).map fun i => BitVec.ofNat 64 (leAt (s.bytes a 64) (8 * i) 8)) CH.srcEp ep
    let len := hGet w CH.len
    if 2 ^ s.get (rgSlot b) - 64 < len then .next (s1.apcFault 2 terrace ring)
    else
      let poison := ecc.bad || s.poisoned a (64 + len)
      .next (s1.send ep ⟨if poison then hSet w CH.poison 1 else w, s.bytes (a + 64) len, poison⟩)

/-! ### Memory (R438 to R440) -/

/-- Is an address HBM, or DDR in service (Table 16-1)? -/
def State.isDram (s : State) (a : Nat) : Bool :=
  decide (a < 0x001800000000) || (decide (0x010000000000 ≤ a) && decide (a < 0x010000000000 + s.ddr.sum * 67108864))

/-- The patrol scrubber reads one location: MEMIO never stands in Hold, but the scrub stops while the
domains do (R449). -/
def execPatrolScrub (addr : Nat) (ecc : EccResult) (s : State) : Res :=
  if !s.isDram addr ∨ s.pwr.holdAt ≠ [] then .next s
  else
    .next (s.memRead ecc addr)

/-- The background engine writes a marked granule: it reads as zero before and after (R440). -/
def execZeroMapClear (granule : Nat) (s : State) : Res :=
  if s.pwr.holdAt ≠ [] then .next s else .next (s.withZeroMap (runCut s.zeroMap granule 1))

/-! ### The IOMMU's command queue (R446) -/

/-- A condition of the command queue, by the status bit it sets, with its interrupt. -/
def State.iommuCqFlag (s : State) (bit : Fld) : State :=
  let s1 := s.set bit 1
  if s1.get F.MEM_IOMMU_CSR_CIE = 1 ∧ s1.get F.MEM_IOMMU_IPSR_CIP = 0 then
    (s1.set F.MEM_IOMMU_IPSR_CIP 1).iommuMsi (s1.get F.MEM_IOMMU_ICVEC_CIV)
  else s1

/-- May the command queue run? -/
def State.iommuCqRuns (s : State) : Bool :=
  s.get F.MEM_IOMMU_CSR_CQON == 1 && s.get F.MEM_IOMMU_CSR_CQMF == 0 && s.get F.MEM_IOMMU_CSR_CMD_ILL == 0 &&
  s.get F.MEM_IOMMU_CSR_CMD_TO == 0 && s.get F.MEM_IOMMU_CQP_CQH != s.get F.MEM_IOMMU_CQP_CQT

/-- `IOTINVAL.VMA` and `IOTINVAL.GVMA`, and `IODIR.INVAL_DDT` and `IODIR.INVAL_PDT`, which find no directory cache: the
state after the command, or none where it is not well formed. -/
def State.iommuInval (s : State) (w a : Nat) : Option State :=
  let va := if w.testBit 10 then some (a / 2 ^ 10 % 2 ^ 52 * 4096) else none
  let gscid := if w.testBit 33 then some (w / 2 ^ 40 % 2 ^ 16) else none
  let bare := w / 2 ^ 34 % 2 ^ 6 == 0 && w / 2 ^ 56 == 0 && a % 2 ^ 10 == 0 && a / 2 ^ 62 == 0
  match w % 128, w / 128 % 8 with
  | 1, 0 => if bare && !w.testBit 11 then some (s.iotlbDropVma gscid (if w.testBit 32 then some (w / 2 ^ 12 % 2 ^ 20) else none) va) else none
  | 1, 1 => if bare && !w.testBit 11 && !w.testBit 32 then some (s.iotlbDropGvma gscid va) else none
  | 3, 0 => if a = 0 ∧ w / 2 ^ 10 % 2 ^ 22 = 0 ∧ w / 2 ^ 32 % 2 = 0 ∧ w / 2 ^ 34 % 2 ^ 6 = 0 then some s else none
  | 3, 1 => if a = 0 ∧ w / 2 ^ 10 % 2 ^ 2 = 0 ∧ w / 2 ^ 32 % 2 = 0 ∧ w / 2 ^ 34 % 2 ^ 6 = 0 ∧ w.testBit 33 then some s else none
  | _, _ => none

/-- The command at the head of the queue, and whether the one after it runs too: a fence ends the run, and so does a
command that stops the queue. Every DMA of this model is issued in the step that translates it, so a fence has nothing to
wait for. -/
def State.iommuCommand (s : State) : Bool × State :=
  let size := 2 ^ (s.get F.MEM_IOMMU_CQB_LOG2SZ + 1)
  let h := s.get F.MEM_IOMMU_CQP_CQH
  let a := s.get F.MEM_IOMMU_CQB_PPN * 4096 + 16 * h
  let c := s.bytes a 16
  let w := leAt c 0 8
  let s1 := s.set F.MEM_IOMMU_CQP_CQH ((h + 1) % size)
  if !s.operatorReaches a 16 then (false, (s.partViolation a).iommuCqFlag F.MEM_IOMMU_CSR_CQMF)
  else if s.poisoned a 16 then (false, s.iommuCqFlag F.MEM_IOMMU_CSR_CQMF)
  else if w % 128 = 2 ∧ w / 128 % 8 = 0 then
    let dst := leAt c 8 8 * 4
    let s2 := if !w.testBit 10 then s1
      else if s.operatorReaches dst 4 then s1.putBytes dst (natLE 4 (w / 2 ^ 32))
      else (s1.partViolation dst).iommuCqFlag F.MEM_IOMMU_CSR_CQMF
    (false, if w.testBit 11 then s2.iommuCqFlag F.MEM_IOMMU_CSR_FENCE_IP else s2)
  else
    match s1.iommuInval w (leAt c 8 8) with
    | some s2 => (true, s2)
    | none => (false, s.iommuCqFlag F.MEM_IOMMU_CSR_CMD_ILL)

/-- Commands up to and with the next fence. -/
def State.iommuCommands : Nat → State → State
  | 0, s => s
  | n + 1, s =>
    if !s.iommuCqRuns then s
    else if s.iommuCommand.1 then State.iommuCommands n s.iommuCommand.2 else s.iommuCommand.2

def execIofenceC (s : State) : Res := .next (s.iommuCommands (2 ^ (s.get F.MEM_IOMMU_CQB_LOG2SZ + 1)))

end Sys2Proof.Machine
end

