-- ==== Sys2Proof/Machine/ArbTypes.lean ====
section
/-! DEFINITION. How an arbour instruction is described (06_arbour_isa.md). -/

namespace Sys2Proof.Machine

/-- The formats of Table 6-2. -/
inductive ArbFmt
  | r | i | f | w | k | m | b | g
  deriving DecidableEq, Repr

/-- What an instruction sees: the state, its thread, and its word. -/
structure ArbCtx where
  s : State
  c : Nat
  t : Nat
  x : ArbThread
  w : Word

/-- One row of Table 6-7: format and registers used, its causes of exception (Table 6-8), the next PC,
its slots, and its effect once no cause applies. -/
structure ArbIns where
  fmt : ArbFmt
  useD : Bool
  useA : Bool
  useB : Bool
  illegal : ArbCtx → Bool
  window : ArbCtx → Bool
  key : ArbCtx → Bool
  dmem : ArbCtx → Bool
  /-- The next PC; none for `END` and `RELEASE`. -/
  next : ArbCtx → Option Nat
  /-- Window, key, emit and commit instructions: a CONTEXT exception in INIT and SERVICE. -/
  packetOnly : Bool
  initOnly : Bool
  notInit : Bool
  /-- A COMMITTED exception after `COMMIT`. -/
  beforeCommit : Bool
  lockBad : ArbCtx → Bool
  /-- Does a LOCK exception also record 0x1104? -/
  recordsUnlock : Bool
  slots : Word → Nat
  effect : ArbCtx → State → State

end Sys2Proof.Machine
end

