-- ==== Sys2Proof/Machine/ArbIsa.lean ====
section
/-! DEFINITION. The arbour instruction set (06_arbour_isa.md): formats, exceptions, and one instruction
after another in the order of Table 6-7. -/

namespace Sys2Proof.Machine

/-! ### Fields of the instruction word (Tables 6-1, 6-2) -/

def iOp (w : Word) : Nat := bitsAt w 63 56
def iRd (w : Word) : Nat := bitsAt w 55 51
def iRa (w : Word) : Nat := bitsAt w 50 46
def iRb (w : Word) : Nat := bitsAt w 45 41
def iImm32 (w : Word) : Nat := bitsAt w 31 0
def iImm16 (w : Word) : Nat := bitsAt w 15 0
/-- `IMM32` sign-extended (R162). -/
def iSext32 (w : Word) : Word := (w.truncate 32).signExtend 64
/-- `IMM16` of `LD` and `ST` sign-extended (R162). -/
def iSext16 (w : Word) : Word := (w.truncate 16).signExtend 64
def fEw (w : Word) : Nat := bitsAt w 40 38
def fLsb (w : Word) : Nat := bitsAt w 37 32
def fW (w : Word) : Nat := bitsAt w 31 26 + 1
def wOff (w : Word) : Nat := bitsAt w 40 32
def wBoff (w : Word) : Nat := bitsAt w 31 29
def wW (w : Word) : Nat := bitsAt w 28 23 + 1
def wKoff (w : Word) : Nat := bitsAt w 22 16
def wN (w : Word) : Nat := bitsAt w 15 10 + 1
def kKoff (w : Word) : Nat := bitsAt w 40 34
def kN (w : Word) : Nat := bitsAt w 33 31 + 1
def mSize (w : Word) : Nat := bitsAt w 40 39
def bCond (w : Word) : Nat := bitsAt w 40 37
def bImm (w : Word) : Nat := bitsAt w 31 16
def bTarget (w : Word) : Nat := bitsAt w 13 0
def gIdx (w : Word) : Nat := bitsAt w 25 16

/-- The bits that each format marks zero (Table 6-2). -/
def fmtZero (fmt : ArbFmt) (w : Word) : Bool :=
  match fmt with
  | .r => bitsAt w 40 0 == 0
  | .i => bitsAt w 40 32 == 0
  | .f => bitsAt w 25 0 == 0
  | .w => bitsAt w 9 0 == 0
  | .k => bitsAt w 30 0 == 0
  | .m => bitsAt w 38 16 == 0
  | .b => bitsAt w 36 32 == 0 && bitsAt w 15 14 == 0
  | .g => bitsAt w 40 26 == 0

/-- Register fields that the instruction does not use are zero (R159). -/
def unusedZero (n : ArbIns) (w : Word) : Bool :=
  (n.useD || iRd w == 0) && (n.useA || iRa w == 0) && (n.useB || iRb w == 0)

/-! ### Operands -/

/-- A register read: g0 reads zero (R161). -/
def gReg (x : ArbThread) (r : Nat) : Word := if r = 0 then 0 else x.regs.getD r 0
def ArbCtx.ra (k : ArbCtx) : Word := gReg k.x (iRa k.w)
def ArbCtx.rb (k : ArbCtx) : Word := gReg k.x (iRb k.w)
def ArbCtx.rdOld (k : ArbCtx) : Word := gReg k.x (iRd k.w)
/-- The thread's view after the issue: what the effect updates. -/
def ArbCtx.upd (k : ArbCtx) (s : State) (f : ArbThread → ArbThread) : State := s.setThr k.c k.t (f (s.thr k.c k.t))
/-- A result written to `RD`; a write to g0 is discarded (R161). -/
def ArbCtx.put (k : ArbCtx) (s : State) (v : Word) : State :=
  k.upd s fun y => { y with regs := if iRd k.w = 0 then y.regs else y.regs.set (iRd k.w) v }

/-- The byte address of a window instruction (R163). -/
def ArbCtx.winA (k : ArbCtx) : Nat := (k.ra + BitVec.ofNat 64 (wOff k.w)).toNat
/-- Outside the field bounds of `EXT` and `INS`, and the byte bounds of `KCPY` and `CRCWIN` (R163). -/
def ArbCtx.winFieldOut (k : ArbCtx) : Bool := decide (4096 < 8 * k.winA + wBoff k.w + wW k.w)
def ArbCtx.winBytesOut (k : ArbCtx) : Bool := decide (512 < k.winA + wN k.w)

/-- The window bytes that hold a field of `W` bits beginning `BOFF` bits into byte `A`. -/
def fieldBytes (boff w : Nat) : Nat := (boff + w + 7) / 8
def winField (win : List Byte) (a boff w : Nat) : Nat :=
  let n := fieldBytes boff w
  beAt win a n / 2 ^ (8 * n - boff - w) % 2 ^ w
def winFieldPut (win : List Byte) (a boff w v : Nat) : List Byte :=
  let n := fieldBytes boff w
  let sh := 2 ^ (8 * n - boff - w)
  let old := beAt win a n
  bytesPut win a (natBE n (old - old / sh % 2 ^ w * sh + v % 2 ^ w * sh))

/-- One Toeplitz step (R169) with the 64-bit key piece `key`. -/
def toeplitz (key : Nat) (ra rb : Word) : Word :=
  BitVec.ofNat 64 ((List.range 32).foldl
    (fun r i => if rb.getLsbD (31 - i) then r ^^^ (key / 2 ^ (32 - i) % 2 ^ 32) else r) (bitsAt ra 31 0))

/-- Table 6-3. -/
def condHolds (c : Nat) (a b : Word) : Bool :=
  match c with
  | 0 => a == b
  | 1 => a != b
  | 2 => a.ult b
  | 3 => !a.ult b
  | 4 => a.slt b
  | 5 => !a.slt b
  | 6 => a &&& b != 0
  | 7 => a &&& b == 0
  | _ => true

/-! ### Data memory (R166) -/

/-- Bytes written to data memory. -/
def dmemBytes (m : Sparse Byte) (a : Nat) (l : List Byte) : Sparse Byte :=
  (l.zipIdx).foldl (fun m x => spSet (fun _ => (0 : Byte)) m (a + x.2) x.1) m

/-- Are the stores that a cluster holds of an earlier cycle than an access of thread `t` made now: the cycle has passed,
or the thread's core, which makes one access in a cycle, has made one of them (R167)? -/
def storesPast (k : ArbCluster) (t : Nat) : Bool := k.storeAt != k.cycle || k.stores.any fun x => x.thread / 8 == t / 8

/-- Data memory with the stores of the last cycle applied, in ascending order of cluster thread number (R167). -/
def dmemAfter (k : ArbCluster) : Sparse Byte :=
  (List.range 64).foldl (fun m t => match k.stores.find? fun x => x.thread == t with
    | some x => dmemBytes m x.addr x.data
    | none => m) k.dmem

/-- Data memory as an access of thread `t` finds it now: without the stores of the present cycle. -/
def dmemSeen (k : ArbCluster) (t : Nat) : Sparse Byte := if storesPast k t then dmemAfter k else k.dmem

def State.dmem (s : State) (c t a n : Nat) : List Byte :=
  (List.range n).map fun i => spGet (fun _ => (0 : Byte)) (dmemSeen (s.clu c) t) (a + i)

/-- A store of a thread: visible from the next cycle on. -/
def State.dmemPut (s : State) (c t a : Nat) (l : List Byte) : State :=
  let k := s.clu c
  s.setClu c { k with
    dmem := dmemSeen k t
    stores := (if storesPast k t then [] else k.stores) ++ [⟨t, a, l⟩]
    storeAt := k.cycle }
def ArbCtx.memA (k : ArbCtx) : Nat := (k.ra + iSext16 k.w).toNat
def ArbCtx.memOut (k : ArbCtx) : Bool :=
  k.memA % 2 ^ mSize k.w != 0 || decide (65536 < k.memA + 2 ^ mSize k.w)

/-! ### Gatehouse objects (R173) -/

def ArbCtx.obj (k : ArbCtx) (count : Nat) : Nat := (k.ra + BitVec.ofNat 64 (gIdx k.w)).toNat % count
def State.counter (s : State) (c j : Nat) : Nat := spGet (fun _ => 0) (s.clu c).counters j

/-- The thread waits; the status comes when the wait ends. -/
def ArbCtx.waitFor (k : ArbCtx) (s : State) (st : Nat) (w : ArbWait) : State :=
  k.upd s fun y => { y with st := st, wait := some w }

/-! ### Exceptions and issue -/

/-- The lowest cause of Table 6-8 that an instruction meets. -/
def ArbIns.cause (n : ArbIns) (k : ArbCtx) (err : ArbError) : Option Nat :=
  let inPacket := k.x.base == tRun
  if !fmtZero n.fmt k.w || !unusedZero n k.w || n.illegal k then some 0x01
  else if n.window k then some 0x02
  else if n.key k then some 0x03
  else if n.dmem k then some 0x04
  else if (match n.next k with | some p => decide ((k.s.clu k.c).imem.length ≤ p) | none => false) then some 0x05
  else if (n.packetOnly && !inPacket) || (n.initOnly && k.x.base != tInit) || (n.notInit && k.x.base == tInit)
    then some 0x06
  else if n.beforeCommit && k.x.committed then some 0x07
  else if n.lockBad k then some 0x08
  else if err = .context then some 0x09
  else none

/-- An instruction issues: its cause of exception, or its effect with the PC moved on and its slots
counted (R165, R177 to R179). `UNLOCK` of a lock not held also records 0x1104 (R146); of its
two records 0x1104 comes first, where the spec gives no order (DESIGN CHOICE, log entry 116). -/
def State.arbRun (s : State) (n : ArbIns) (c t : Nat) (w : Word) (err : ArbError) : State :=
  let x := s.thr c t
  let k : ArbCtx := ⟨s, c, t, x, w⟩
  match n.cause k err with
  | some cause =>
    let s0 := s.wrapBy (F.ARB_CLU_ISSUES_COUNT c) 1
    let s1 := if cause = 0x08 ∧ n.recordsUnlock then s0.fault uArb 0x04 3 (arbExtra c t 0 x.pc) else s0
    s1.arbException c t cause (iOp w)
  | none =>
    let y := { x with
      pc := (n.next k).getD x.pc, slots := x.slots + n.slots w, skipBreak := false, stepPending := false }
    let s1 := n.effect k ((s.setThr c t y).wrapBy (F.ARB_CLU_ISSUES_COUNT c) 1)
    if x.stepPending ∧ (s1.thr c t).st ≠ tIdle then s1.haltThread c t else s1

/-- May the thread issue now: RUN, INIT or SERVICE, its core not in Hold, no breakpoint at its PC? -/
def State.arbIssues (s : State) (c t : Nat) : Bool :=
  let x := s.thr c t
  (x.st == tRun || x.st == tInit || x.st == tService) && !(s.tile (8 * c + t / 8)).hold &&
    (s.breakpointHit c t).isNone

/-- The word at the thread's PC; zero beyond the image (R160). -/
def State.arbWord (s : State) (c t : Nat) : Word := (s.clu c).imem.getD (s.thr c t).pc 0

/-- The command of one instruction: it takes place when the thread may issue and the word at its PC
is that instruction. -/
def State.arbRow (s : State) (n : ArbIns) (op c t : Nat) (err : ArbError) : Res :=
  if !s.arbIssues c t ∨ iOp (s.arbWord c t) ≠ op then .next s
  else if err = .memory then .next (s.clusterMemoryUe c t)
  else .next (s.arbRun n c t (s.arbWord c t) err)

def plainNext (k : ArbCtx) : Option Nat := some (k.x.pc + 1)
def noneOf (_ : ArbCtx) : Bool := false
def oneSlot (_ : Word) : Nat := 1
def noEffect (_ : ArbCtx) (s : State) : State := s

/-- An instruction without exceptions of its own. -/
def insBase : ArbIns :=
  { fmt := .r, useD := false, useA := false, useB := false, illegal := noneOf, window := noneOf, key := noneOf,
    dmem := noneOf, next := plainNext, packetOnly := false, initOnly := false, notInit := false,
    beforeCommit := false, lockBad := noneOf, recordsUnlock := false, slots := oneSlot, effect := noEffect }

/-- `RD` := a function of `RA` and `RB`. -/
def insAlu (f : Word → Word → Word) : ArbIns :=
  { insBase with useD := true, useA := true, useB := true, effect := fun k s => k.put s (f k.ra k.rb) }
/-- `RD` := a function of `RA` and `IMM32` sign-extended. -/
def insImm (f : Word → Word → Word) : ArbIns :=
  { insBase with fmt := .i, useD := true, useA := true, effect := fun k s => k.put s (f k.ra (iSext32 k.w)) }
/-- `RD` := `RA` shifted by `IMM32`[5:0]; `IMM32`[31:6] is zero. -/
def insShiftImm (f : Word → Word → Word) : ArbIns :=
  { insImm f with illegal := fun k => decide (64 ≤ iImm32 k.w) }

def wAdd (a b : Word) : Word := a + b
def wSub (a b : Word) : Word := a - b
def wAnd (a b : Word) : Word := a &&& b
def wOr (a b : Word) : Word := a ||| b
def wXor (a b : Word) : Word := a ^^^ b
def wAndn (a b : Word) : Word := a &&& ~~~b
def wShl (a b : Word) : Word := a <<< bitsAt b 5 0
def wShr (a b : Word) : Word := a >>> bitsAt b 5 0
def wSar (a b : Word) : Word := a.sshiftRight (bitsAt b 5 0)
def wMinu (a b : Word) : Word := if a.ult b then a else b
def wMaxu (a b : Word) : Word := if a.ult b then b else a
def wMul (a b : Word) : Word := a * b
def wSltu (a b : Word) : Word := if a.ult b then 1 else 0

def fieldTooWide (k : ArbCtx) : Bool := decide (64 < fLsb k.w + fW k.w)

/-- The values of Table 6-4; sources 0 to 4 and 7 read zero in INIT and SERVICE (R172). -/
def ArbCtx.special (k : ArbCtx) (n : Nat) : Nat :=
  match n, k.x.pkt with
  | 0, some p => p.len
  | 1, some p => p.src
  | 2, some p => p.arrival
  | 3, some p => p.ruleVer
  | 4, some p => p.prio
  | 7, some p => p.ns * 2 ^ 16 + p.frac
  | 5, _ => k.c * 256 + k.t
  | 6, _ => (k.s.clu k.c).cycle
  | 8, _ => k.x.st
  | 9, _ => (k.s.clu k.c).svcCause
  | _, _ => 0

/-- END: a packet not committed is dropped and counted, locks still held are let go and recorded
(R144), and the thread becomes IDLE. -/
def State.endThread (s : State) (c t : Nat) : State :=
  let x := s.thr c t
  let s1 := if x.locks.isEmpty then s else s.fault uArb 0x03 2 (arbExtra c t 0 x.pc)
  let s2 := if x.pkt.isSome && !x.committed then s1.count F.ARB_DROP_COUNT_COUNT else s1
  s2.retireThread c t

/-! ### The instructions -/

/-- No effect (R176). -/
def insNop : ArbIns := insBase
/-- `RD` from `RA` and `RB` (R162, Table 6-7). -/
def insAdd : ArbIns := insAlu wAdd
/-- `RD` from `RA` and `RB` (R162, Table 6-7). -/
def insSub : ArbIns := insAlu wSub
/-- `RD` from `RA` and `RB` (R162, Table 6-7). -/
def insAnd : ArbIns := insAlu wAnd
/-- `RD` from `RA` and `RB` (R162, Table 6-7). -/
def insOr : ArbIns := insAlu wOr
/-- `RD` from `RA` and `RB` (R162, Table 6-7). -/
def insXor : ArbIns := insAlu wXor
/-- `RD` from `RA` and `RB` (R162, Table 6-7). -/
def insAndn : ArbIns := insAlu wAndn
/-- `RD` from `RA` and `RB` (R162, Table 6-7). -/
def insShl : ArbIns := insAlu wShl
/-- `RD` from `RA` and `RB` (R162, Table 6-7). -/
def insShr : ArbIns := insAlu wShr
/-- `RD` from `RA` and `RB` (R162, Table 6-7). -/
def insSar : ArbIns := insAlu wSar
/-- `RD` from `RA` and `RB` (R162, Table 6-7). -/
def insMinu : ArbIns := insAlu wMinu
/-- `RD` from `RA` and `RB` (R162, Table 6-7). -/
def insMaxu : ArbIns := insAlu wMaxu
/-- Low 64 bits of the product, two slots (R162). -/
def insMul : ArbIns := { insAlu wMul with slots := fun _ => 2 }
/-- 1 when `RA` is below `RB`, unsigned (R162). -/
def insSltu : ArbIns := insAlu wSltu
/-- `RD` from `RA` and sext(`IMM32`) (R162, Table 6-7). -/
def insAddi : ArbIns := insImm wAdd
/-- `RD` from `RA` and sext(`IMM32`) (R162, Table 6-7). -/
def insAndi : ArbIns := insImm wAnd
/-- `RD` from `RA` and sext(`IMM32`) (R162, Table 6-7). -/
def insOri : ArbIns := insImm wOr
/-- `RD` from `RA` and sext(`IMM32`) (R162, Table 6-7). -/
def insXori : ArbIns := insImm wXor
/-- Shift by `IMM32`[5:0] (Table 6-7). -/
def insShli : ArbIns := insShiftImm wShl
/-- Shift by `IMM32`[5:0] (Table 6-7). -/
def insShri : ArbIns := insShiftImm wShr
/-- Shift by `IMM32`[5:0] (Table 6-7). -/
def insSari : ArbIns := insShiftImm wSar
/-- 1 when `RA` is below sext(`IMM32`), unsigned (R162). -/
def insSltui : ArbIns := insImm wSltu
/-- `RD` := sext(`IMM32`). -/
def insMovi : ArbIns := { insImm (fun _ b => b) with useA := false }
/-- `RD`[63:32] := `IMM32`, the low half kept. -/
def insMovhi : ArbIns :=
  { insBase with
    fmt := .i, useD := true
    effect := fun k s => k.put s (setBits k.rdOld 63 32 (iImm32 k.w)) }
/-- A field of `RA`, zero-extended (R162). -/
def insBfx : ArbIns :=
  { insBase with
    fmt := .f, useD := true, useA := true
    illegal := fun k => fieldTooWide k || fEw k.w != 0
    effect := fun k s => k.put s (BitVec.ofNat 64 (bitsAt k.ra (fLsb k.w + fW k.w - 1) (fLsb k.w))) }
/-- A field of `RD` set from `RA` (R162). -/
def insBfi : ArbIns :=
  { insBase with
    fmt := .f, useD := true, useA := true
    illegal := fun k => fieldTooWide k || fEw k.w != 0
    effect := fun k s => k.put s (setBits k.rdOld (fLsb k.w + fW k.w - 1) (fLsb k.w) k.ra.toNat) }
/-- A field of the packet window (R163, R164). -/
def insExt : ArbIns :=
  { insBase with
    fmt := .w, useD := true, useA := true, packetOnly := true
    illegal := fun k => wKoff k.w != 0 || wN k.w != 1
    window := ArbCtx.winFieldOut
    effect := fun k s => k.put s (BitVec.ofNat 64 (winField k.x.window k.winA (wBoff k.w) (wW k.w))) }
/-- `RB` inserted into a field of the packet window (R164). -/
def insIns : ArbIns :=
  { insBase with
    fmt := .w, useA := true, useB := true, packetOnly := true, beforeCommit := true
    illegal := fun k => wKoff k.w != 0 || wN k.w != 1
    window := ArbCtx.winFieldOut
    effect := fun k s => k.upd s fun y =>
      { y with
        window := winFieldPut y.window k.winA (wBoff k.w) (wW k.w) k.rb.toNat
        changed := y.changed ++ (List.range (fieldBytes (wBoff k.w) (wW k.w))).map (k.winA + ·) } }
/-- Window bytes copied to the key builder (R170). -/
def insKcpy : ArbIns :=
  { insBase with
    fmt := .w, useA := true, packetOnly := true, beforeCommit := true
    illegal := fun k => wBoff k.w != 0 || wW k.w != 1 || decide (16 < wN k.w)
    window := ArbCtx.winBytesOut
    key := fun k => decide (128 < wKoff k.w + wN k.w)
    effect := fun k s => k.upd s fun y =>
      { y with key := bytesPut y.key (wKoff k.w) (bytesAt y.window k.winA (wN k.w)) } }
/-- CRC32C over window bytes, from and to `RD` (R168). -/
def insCrcwin : ArbIns :=
  { insBase with
    fmt := .w, useD := true, useA := true, packetOnly := true
    illegal := fun k => wBoff k.w != 0 || wW k.w != 1 || wKoff k.w != 0
    window := ArbCtx.winBytesOut
    slots := fun w => (wN w + 15) / 16
    effect := fun k s => k.put s (crc32c k.rdOld (bytesAt k.x.window k.winA (wN k.w))) }
/-- Low bytes of `RA` to the key builder, most significant first (R170). -/
def insKput : ArbIns :=
  { insBase with
    fmt := .k, useA := true, packetOnly := true, beforeCommit := true
    key := fun k => decide (128 < kKoff k.w + kN k.w)
    effect := fun k s => k.upd s fun y =>
      { y with key := bytesPut y.key (kKoff k.w) (natBE (kN k.w) k.ra.toNat) } }
/-- The key builder and the profile cleared (R170). -/
def insKclr : ArbIns :=
  { insBase with
    packetOnly := true, beforeCommit := true
    effect := fun k s => k.upd s fun y => { y with key := List.replicate 128 0, profile := 0 } }
/-- The profile set (R170). -/
def insKprof : ArbIns :=
  { insBase with
    fmt := .i, packetOnly := true, beforeCommit := true
    illegal := fun k => decide (256 ≤ iImm32 k.w)
    effect := fun k s => k.upd s fun y => { y with profile := iImm32 k.w } }
/-- CRC32C over low bytes of `RB` (R168). -/
def insCrc : ArbIns :=
  { insBase with
    fmt := .k, useD := true, useA := true, useB := true
    illegal := fun k => kKoff k.w != 0
    effect := fun k s => k.put s (crc32c k.ra (natBE (kN k.w) k.rb.toNat)) }
/-- One Toeplitz step (R169). -/
def insTpz : ArbIns :=
  { insBase with
    fmt := .m, useD := true, useA := true, useB := true
    illegal := fun k => mSize k.w != 0
    dmem := fun k => iImm16 k.w % 4 != 0 || decide (65528 < iImm16 k.w)
    effect := fun k s => k.put s (toeplitz (beNat (k.s.dmem k.c k.t (iImm16 k.w) 8)) k.ra k.rb) }
/-- Data memory read, zero-extended (R166). -/
def insLd : ArbIns :=
  { insBase with
    fmt := .m, useD := true, useA := true, dmem := ArbCtx.memOut
    effect := fun k s => k.put s (BitVec.ofNat 64 (leNat (k.s.dmem k.c k.t k.memA (2 ^ mSize k.w)))) }
/-- Low bytes of `RB` to data memory (R166). -/
def insSt : ArbIns :=
  { insBase with
    fmt := .m, useA := true, useB := true, dmem := ArbCtx.memOut
    effect := fun k s => s.dmemPut k.c k.t k.memA (natLE (2 ^ mSize k.w) k.rb.toNat) }
/-- Branch on `RA` and `RB` (R165). -/
def insBr : ArbIns :=
  { insBase with
    fmt := .b, useA := true, useB := true
    illegal := fun k => decide (8 < bCond k.w) || bImm k.w != 0
    next := fun k => some (if condHolds (bCond k.w) k.ra k.rb then bTarget k.w else k.x.pc + 1) }
/-- Branch on `RA` and `IMM16` zero-extended (R165). -/
def insBri : ArbIns :=
  { insBase with
    fmt := .b, useA := true
    illegal := fun k => decide (8 < bCond k.w)
    next := fun k => some (if condHolds (bCond k.w) k.ra (BitVec.ofNat 64 (bImm k.w)) then bTarget k.w
      else k.x.pc + 1) }
/-- Jump and link (R165). -/
def insJal : ArbIns :=
  { insBase with
    fmt := .b, useD := true
    illegal := fun k => bCond k.w != 0 || bImm k.w != 0
    next := fun k => some (bTarget k.w)
    effect := fun k s => k.put s (BitVec.ofNat 64 (k.x.pc + 1)) }
/-- Jump to `RA`[13:0] (R165). -/
def insJr : ArbIns :=
  { insBase with
    fmt := .b, useA := true
    illegal := fun k => bCond k.w != 0 || bImm k.w != 0 || bTarget k.w != 0 || decide (2 ^ 14 ≤ k.ra.toNat)
    next := fun k => some (bitsAt k.ra 13 0) }
/-- A special value (R172); reading `SVC_CAUSE` clears it. -/
def insRds : ArbIns :=
  { insBase with
    fmt := .i, useD := true
    illegal := fun k => decide (10 ≤ iImm32 k.w)
    effect := fun k s =>
      let y := k.put s (BitVec.ofNat 64 (k.special (iImm32 k.w)))
      if iImm32 k.w = 9 then y.setClu k.c { y.clu k.c with svcCause := 0 } else y }
/-- A field of a staged word (R171). -/
def insEmitf : ArbIns :=
  { insBase with
    fmt := .f, useA := true, packetOnly := true, beforeCommit := true
    illegal := fieldTooWide
    effect := fun k s => k.upd s fun y =>
      { y with
        ew := y.ew.set (fEw k.w) (setBits (y.ew.getD (fEw k.w) 0) (fLsb k.w + fW k.w - 1) (fLsb k.w) k.ra.toNat)
        written := y.written ||| 2 ^ fEw k.w } }
/-- The packet handed over, or a wait for a commit-buffer entry (R143, R171, R174). -/
def insCommit : ArbIns :=
  { insBase with
    fmt := .g, useD := true, packetOnly := true, beforeCommit := true
    illegal := fun k => gIdx k.w != 0 || iImm16 k.w != 0
    effect := fun k s =>
      if commitFree (s.clu k.c) && (s.clu k.c).commitWait.isEmpty then (k.put s 0).handOver k.c k.t
      else
        let y := k.waitFor s tWait (.commit (iRd k.w))
        y.setClu k.c { y.clu k.c with commitWait := (y.clu k.c).commitWait ++ [k.t] } }
/-- The thread ends (R144, R176). -/
def insEnd : ArbIns :=
  { insBase with
    notInit := true, next := fun _ => none
    effect := fun k s => s.endThread k.c k.t }
/-- A lock taken, or a wait behind its earlier waiters (R146, R173, R174). -/
def insLock : ArbIns :=
  { insBase with
    fmt := .g, useD := true, useA := true
    illegal := fun k => iImm16 k.w != 0
    lockBad := fun k => k.x.locks.contains (k.obj 1024) || decide (16 ≤ k.x.locks.length)
    effect := fun k s =>
      let i := k.obj 1024
      let l := spGet (fun _ => ⟨none, []⟩) (s.clu k.c).locks i
      match l.holder with
      | none =>
        let y := s.setClu k.c { s.clu k.c with
          locks := spSet (fun _ => ⟨none, []⟩) (s.clu k.c).locks i ⟨some k.t, l.waiters⟩ }
        k.put (k.upd y fun z => { z with locks := i :: z.locks }) 0
      | some h =>
        let y := s.setClu k.c { s.clu k.c with
          locks := spSet (fun _ => ⟨none, []⟩) (s.clu k.c).locks i ⟨some h, l.waiters ++ [k.t]⟩ }
        k.waitFor y tWait (.lock i (iRd k.w)) }
/-- A lock let go; its oldest waiter is granted (R146). -/
def insUnlock : ArbIns :=
  { insBase with
    fmt := .g, useA := true, recordsUnlock := true
    illegal := fun k => iImm16 k.w != 0
    lockBad := fun k => !k.x.locks.contains (k.obj 1024)
    effect := fun k s => s.dropLock k.c k.t (k.obj 1024) }
/-- An amount added to a counter; waits that it meets end (R145, R173). -/
def insSignal : ArbIns :=
  { insBase with
    fmt := .g, useA := true
    illegal := fun k => decide (256 ≤ gIdx k.w) || iImm16 k.w == 0 || decide (256 ≤ iImm16 k.w)
    effect := fun k s =>
      let j := k.obj 256
      let y := s.setClu k.c { s.clu k.c with
        counters := spSet (fun _ => 0) (s.clu k.c).counters j ((s.counter k.c j + iImm16 k.w) % 2 ^ 32) }
      y.settleCounter k.c j }
/-- A wait on a counter (R145, R173, R174). -/
def insWait : ArbIns :=
  { insBase with
    fmt := .g, useD := true, useA := true, useB := true
    illegal := fun k => decide (256 ≤ gIdx k.w) || iImm16 k.w != 0
    effect := fun k s =>
      if counterMet (s.counter k.c (k.obj 256)) (bitsAt k.rb 31 0) then k.put s 0
      else k.waitFor s tWait (.counter (k.obj 256) (bitsAt k.rb 31 0) (iRd k.w)) }
/-- A sequencer passed, or a wait for earlier packets (R145, R173, R174). -/
def insOrder : ArbIns :=
  { insBase with
    fmt := .g, useD := true, useA := true
    illegal := fun k => decide (16 ≤ gIdx k.w) || iImm16 k.w != 0
    effect := fun k s =>
      let q := k.obj 16
      let s1 := if k.x.pkt.isNone then k.upd s fun y => { y with order := (s.clu k.c).nextOrder } else s
      if s1.orderMet k.c k.t q then ((k.put s1 0).passSeq k.c k.t q).settleOrders k.c 64
      else k.waitFor s1 tWait (.order q (iRd k.w)) }
/-- The thread suspended until its wake condition or its timeout (R175). -/
def insPark : ArbIns :=
  { insBase with
    fmt := .g, useD := true, useA := true, useB := true
    illegal := fun k => decide (256 ≤ gIdx k.w)
    effect := fun k s =>
      if counterMet (s.counter k.c (k.obj 256)) (bitsAt k.rb 31 0) then k.put s 0
      else k.waitFor s tPark (.park (k.obj 256) (bitsAt k.rb 31 0) (iRd k.w) (iImm16 k.w)) }
/-- Cluster threads moved to a thread set (R137, R173). -/
def insTset : ArbIns :=
  { insBase with
    fmt := .g, useA := true, initOnly := true
    illegal := fun k => decide (8 ≤ gIdx k.w) || iImm16 k.w != 0
    effect := fun k s => (List.range 64).foldl
      (fun s u => if bitAt k.ra u then s.setThr k.c u { s.thr k.c u with set := gIdx k.w } else s) s }
/-- INIT ends: the cluster is open to dispatch (R137). -/
def insRelease : ArbIns :=
  { insBase with
    initOnly := true, next := fun _ => none
    effect := fun k s => (s.setCluState k.c cReleased).endThread k.c k.t }

/-- A word whose opcode Table 6-7 does not list, the all-zero word among them: always ILLEGAL (R160, R177). -/
def insReserved : ArbIns := { insBase with illegal := fun _ => true }

/-- The instruction of an opcode (Table 6-7). -/
def arbIns (op : Nat) : ArbIns :=
  match op with
  | 0x01 => insNop
  | 0x10 => insAdd
  | 0x11 => insSub
  | 0x12 => insAnd
  | 0x13 => insOr
  | 0x14 => insXor
  | 0x15 => insAndn
  | 0x16 => insShl
  | 0x17 => insShr
  | 0x18 => insSar
  | 0x19 => insMinu
  | 0x1A => insMaxu
  | 0x1B => insMul
  | 0x1C => insSltu
  | 0x20 => insAddi
  | 0x22 => insAndi
  | 0x23 => insOri
  | 0x24 => insXori
  | 0x26 => insShli
  | 0x27 => insShri
  | 0x28 => insSari
  | 0x2C => insSltui
  | 0x2E => insMovi
  | 0x2F => insMovhi
  | 0x30 => insBfx
  | 0x31 => insBfi
  | 0x40 => insExt
  | 0x41 => insIns
  | 0x42 => insKcpy
  | 0x43 => insCrcwin
  | 0x48 => insKput
  | 0x49 => insKclr
  | 0x4A => insKprof
  | 0x50 => insCrc
  | 0x51 => insTpz
  | 0x58 => insLd
  | 0x59 => insSt
  | 0x60 => insBr
  | 0x61 => insBri
  | 0x62 => insJal
  | 0x63 => insJr
  | 0x68 => insRds
  | 0x70 => insEmitf
  | 0x71 => insCommit
  | 0x76 => insEnd
  | 0x78 => insLock
  | 0x79 => insUnlock
  | 0x7A => insSignal
  | 0x7B => insWait
  | 0x7C => insOrder
  | 0x7D => insPark
  | 0x7E => insTset
  | 0x7F => insRelease
  | _ => insReserved

/-- The opcodes of Table 6-7. -/
def arbOpcodes : List Nat :=
  [0x01, 0x10, 0x11, 0x12, 0x13, 0x14, 0x15, 0x16, 0x17, 0x18, 0x19, 0x1A, 0x1B, 0x1C,
   0x20, 0x22, 0x23, 0x24, 0x26, 0x27, 0x28, 0x2C, 0x2E, 0x2F, 0x30, 0x31, 0x40, 0x41,
   0x42, 0x43, 0x48, 0x49, 0x4A, 0x50, 0x51, 0x58, 0x59, 0x60, 0x61, 0x62, 0x63, 0x68,
   0x70, 0x71, 0x76, 0x78, 0x79, 0x7A, 0x7B, 0x7C, 0x7D, 0x7E, 0x7F]

/-- `NOP`. A word with a reserved opcode has no row of its own: this row issues it too, and it takes
its ILLEGAL exception (R160; a log entry says so). -/
def execArbNop (cluster thread : Nat) (err : ArbError) (s : State) : Res :=
  let op := iOp (s.arbWord cluster thread)
  if arbOpcodes.contains op then s.arbRow insNop 0x01 cluster thread err
  else s.arbRow insReserved op cluster thread err
def execArbAdd (cluster thread : Nat) (err : ArbError) (s : State) : Res := s.arbRow insAdd 0x10 cluster thread err
def execArbSub (cluster thread : Nat) (err : ArbError) (s : State) : Res := s.arbRow insSub 0x11 cluster thread err
def execArbAnd (cluster thread : Nat) (err : ArbError) (s : State) : Res := s.arbRow insAnd 0x12 cluster thread err
def execArbOr (cluster thread : Nat) (err : ArbError) (s : State) : Res := s.arbRow insOr 0x13 cluster thread err
def execArbXor (cluster thread : Nat) (err : ArbError) (s : State) : Res := s.arbRow insXor 0x14 cluster thread err
def execArbAndn (cluster thread : Nat) (err : ArbError) (s : State) : Res := s.arbRow insAndn 0x15 cluster thread err
def execArbShl (cluster thread : Nat) (err : ArbError) (s : State) : Res := s.arbRow insShl 0x16 cluster thread err
def execArbShr (cluster thread : Nat) (err : ArbError) (s : State) : Res := s.arbRow insShr 0x17 cluster thread err
def execArbSar (cluster thread : Nat) (err : ArbError) (s : State) : Res := s.arbRow insSar 0x18 cluster thread err
def execArbMinu (cluster thread : Nat) (err : ArbError) (s : State) : Res := s.arbRow insMinu 0x19 cluster thread err
def execArbMaxu (cluster thread : Nat) (err : ArbError) (s : State) : Res := s.arbRow insMaxu 0x1A cluster thread err
def execArbMul (cluster thread : Nat) (err : ArbError) (s : State) : Res := s.arbRow insMul 0x1B cluster thread err
def execArbSltu (cluster thread : Nat) (err : ArbError) (s : State) : Res := s.arbRow insSltu 0x1C cluster thread err
def execArbAddi (cluster thread : Nat) (err : ArbError) (s : State) : Res := s.arbRow insAddi 0x20 cluster thread err
def execArbAndi (cluster thread : Nat) (err : ArbError) (s : State) : Res := s.arbRow insAndi 0x22 cluster thread err
def execArbOri (cluster thread : Nat) (err : ArbError) (s : State) : Res := s.arbRow insOri 0x23 cluster thread err
def execArbXori (cluster thread : Nat) (err : ArbError) (s : State) : Res := s.arbRow insXori 0x24 cluster thread err
def execArbShli (cluster thread : Nat) (err : ArbError) (s : State) : Res := s.arbRow insShli 0x26 cluster thread err
def execArbShri (cluster thread : Nat) (err : ArbError) (s : State) : Res := s.arbRow insShri 0x27 cluster thread err
def execArbSari (cluster thread : Nat) (err : ArbError) (s : State) : Res := s.arbRow insSari 0x28 cluster thread err
def execArbSltui (cluster thread : Nat) (err : ArbError) (s : State) : Res := s.arbRow insSltui 0x2C cluster thread err
def execArbMovi (cluster thread : Nat) (err : ArbError) (s : State) : Res := s.arbRow insMovi 0x2E cluster thread err
def execArbMovhi (cluster thread : Nat) (err : ArbError) (s : State) : Res := s.arbRow insMovhi 0x2F cluster thread err
def execArbBfx (cluster thread : Nat) (err : ArbError) (s : State) : Res := s.arbRow insBfx 0x30 cluster thread err
def execArbBfi (cluster thread : Nat) (err : ArbError) (s : State) : Res := s.arbRow insBfi 0x31 cluster thread err
def execArbExt (cluster thread : Nat) (err : ArbError) (s : State) : Res := s.arbRow insExt 0x40 cluster thread err
def execArbIns (cluster thread : Nat) (err : ArbError) (s : State) : Res := s.arbRow insIns 0x41 cluster thread err
def execArbKcpy (cluster thread : Nat) (err : ArbError) (s : State) : Res := s.arbRow insKcpy 0x42 cluster thread err
def execArbCrcwin (cluster thread : Nat) (err : ArbError) (s : State) : Res := s.arbRow insCrcwin 0x43 cluster thread err
def execArbKput (cluster thread : Nat) (err : ArbError) (s : State) : Res := s.arbRow insKput 0x48 cluster thread err
def execArbKclr (cluster thread : Nat) (err : ArbError) (s : State) : Res := s.arbRow insKclr 0x49 cluster thread err
def execArbKprof (cluster thread : Nat) (err : ArbError) (s : State) : Res := s.arbRow insKprof 0x4A cluster thread err
def execArbCrc (cluster thread : Nat) (err : ArbError) (s : State) : Res := s.arbRow insCrc 0x50 cluster thread err
def execArbTpz (cluster thread : Nat) (err : ArbError) (s : State) : Res := s.arbRow insTpz 0x51 cluster thread err
def execArbLd (cluster thread : Nat) (err : ArbError) (s : State) : Res := s.arbRow insLd 0x58 cluster thread err
def execArbSt (cluster thread : Nat) (err : ArbError) (s : State) : Res := s.arbRow insSt 0x59 cluster thread err
def execArbBr (cluster thread : Nat) (err : ArbError) (s : State) : Res := s.arbRow insBr 0x60 cluster thread err
def execArbBri (cluster thread : Nat) (err : ArbError) (s : State) : Res := s.arbRow insBri 0x61 cluster thread err
def execArbJal (cluster thread : Nat) (err : ArbError) (s : State) : Res := s.arbRow insJal 0x62 cluster thread err
def execArbJr (cluster thread : Nat) (err : ArbError) (s : State) : Res := s.arbRow insJr 0x63 cluster thread err
def execArbRds (cluster thread : Nat) (err : ArbError) (s : State) : Res := s.arbRow insRds 0x68 cluster thread err
def execArbEmitf (cluster thread : Nat) (err : ArbError) (s : State) : Res := s.arbRow insEmitf 0x70 cluster thread err
def execArbCommit (cluster thread : Nat) (err : ArbError) (s : State) : Res := s.arbRow insCommit 0x71 cluster thread err
def execArbEnd (cluster thread : Nat) (err : ArbError) (s : State) : Res := s.arbRow insEnd 0x76 cluster thread err
def execArbLock (cluster thread : Nat) (err : ArbError) (s : State) : Res := s.arbRow insLock 0x78 cluster thread err
def execArbUnlock (cluster thread : Nat) (err : ArbError) (s : State) : Res := s.arbRow insUnlock 0x79 cluster thread err
def execArbSignal (cluster thread : Nat) (err : ArbError) (s : State) : Res := s.arbRow insSignal 0x7A cluster thread err
def execArbWait (cluster thread : Nat) (err : ArbError) (s : State) : Res := s.arbRow insWait 0x7B cluster thread err
def execArbOrder (cluster thread : Nat) (err : ArbError) (s : State) : Res := s.arbRow insOrder 0x7C cluster thread err
def execArbPark (cluster thread : Nat) (err : ArbError) (s : State) : Res := s.arbRow insPark 0x7D cluster thread err
def execArbTset (cluster thread : Nat) (err : ArbError) (s : State) : Res := s.arbRow insTset 0x7E cluster thread err
def execArbRelease (cluster thread : Nat) (err : ArbError) (s : State) : Res := s.arbRow insRelease 0x7F cluster thread err

/-- STEP (R153): a halted thread issues one instruction and halts again; one that still waits halts
after the next instruction it issues. -/
def State.dbgStep (s : State) (c t : Nat) (err : ArbError) : State :=
  if s.dbgHeld c then s.capture uArb 0xFC (arbExtra c 0 0 0)
  else if (s.thr c t).st ≠ tHalt then s.notHalted c t
  else
    let s1 := s.resumeThread c t
    let s2 := s1.setThr c t { s1.thr c t with stepPending := true }
    if !s2.arbIssues c t then s2
    else if err = .memory then s2.clusterMemoryUe c t
    else s2.arbRun (arbIns (iOp (s2.arbWord c t))) c t (s2.arbWord c t) err

def execArbStep (cluster thread : Nat) (err : ArbError) (s : State) : Res := .next (s.dbgStep cluster thread err)

/-- One core clock cycle of a cluster: `CYCLE` counts, and in the cycle's slot of each core a thread
in WAIT or PARK spends a slot (R131, R172, R178). A cluster in Hold stands still, and `CYCLE` with it. -/
def State.arbCycle (s : State) (c : Nat) : State :=
  let k := s.clu c
  let t8 := k.cycle % 8
  let s1 := s.setClu c { k with cycle := (k.cycle + 1) % 2 ^ 64 }
  if s.cluHeld c then s
  else
    (List.range 8).foldl (fun s core =>
      let t := 8 * core + t8
      let x := s.thr c t
      if x.st = tWait ∨ x.st = tPark then
        let s2 := s.setThr c t { x with slots := x.slots + 1 }
        if x.st = tWait then s2.wrapBy (F.ARB_CLU_WAIT_SLOTS_COUNT c) 1 else s2
      else s) s1

end Sys2Proof.Machine
end

