-- ==== Sys2Proof/Machine/Harts.lean ====
section
/-! DEFINITION. What a hart's access to the control space meets: the fetch of its instruction, its mode and its PMP
(R429, R430); and the hart caches (R429, R435). -/

namespace Sys2Proof.Machine

/-! ### Physical memory protection (R428, R430) -/

/-- The least significant ones of a NAPOT address register, at most 54 of them. -/
def napotOnes : Nat → Nat → Nat
  | 0, _ => 0
  | n + 1, a => if a % 2 = 1 then napotOnes n (a / 2) + 1 else 0

/-- The bytes that a PMP entry names, from the first to below the second: off, top of range from the entry before it
(`prev`), four bytes, or a naturally aligned power of two. -/
def pmpRange (prev : Nat) (e : Nat × Nat) : Nat × Nat :=
  match natBits e.1 4 3 with
  | 0 => (0, 0)
  | 1 => (4 * prev, 4 * e.2)
  | 2 => (4 * e.2, 4 * e.2 + 4)
  | _ =>
    let k := napotOnes 54 e.2
    let base := 4 * (e.2 / 2 ^ (k + 1) * 2 ^ (k + 1))
    (base, base + 2 ^ (k + 3))

/-- Does the PMP grant an access to `n` bytes at `a`? The lowest entry that meets any of them decides: it must name all
of them, and grant a read (bit 0) or a write (bit 1) unless it is unlocked and the mode is M. Where none meets them
only M-mode goes on. -/
def pmpGrants (m : Bool) (a n : Nat) (write : Bool) : Nat → List (Nat × Nat) → Bool
  | _, [] => m
  | prev, e :: t =>
    let (lo, hi) := pmpRange prev e
    if a < hi ∧ lo < a + n then
      decide (lo ≤ a) && decide (a + n ≤ hi) && ((m && !e.1.testBit 7) || (if write then e.1.testBit 1 else e.1.testBit 0))
    else pmpGrants m a n write e.2 t

/-- PMP entries 0 and 1 as R507 locks them. -/
def pmpSecret : Nat × Nat := (0x98, (0x0E0000000000 + 0x7FFF) / 4)
def pmpRom : Nat × Nat := (0x9C, (0x0E0100000000 + 0x3FFFF) / 4)

/-- Does a hart reach `n` bytes at an offset of the control space? -/
def State.coreReaches (s : State) (x : HartAccess) (o n : Nat) (write : Bool) : Bool :=
  decide (o + n ≤ 0x20000000) && (x.mode == .m || x.mode == .hs) &&
  pmpGrants (x.mode == .m) (0x0F0000000000 + o) n write 0 (s.hart x.hart).pmp

/-! ### Rights (R434, Table 16-3) -/

/-- May an M-mode hart reach the bytes of memory: DRAM in a partition of TD 0, of a unit, or open to the operator? -/
def State.hartReaches (s : State) (a n : Nat) : Bool :=
  s.operatorReaches a n ||
  (partitions s.plan).any fun (k, _, fl, _, b, m) =>
    (k == 1 || (k == 2 && fl.testBit 1)) && decide (b ≤ a) && decide (a + n ≤ b + m)

def inRetained (a n : Nat) : Bool := decide (0x0E0000000000 ≤ a) && decide (a + n ≤ 0x0E0000400000)

/-! ### Caches (R429, R435) -/

def lineReset (_ : Nat) : CacheLine := ⟨false, false, none⟩
def State.line (s : State) (l : Nat) : CacheLine := spGet lineReset s.cache l
def State.setLine (s : State) (l : Nat) (x : CacheLine) : State := s.withCache (spSet lineReset s.cache l x)

/-- Is a line kept coherent with the units: where its partition says so, and where no partition holds it? DESIGN CHOICE
(log entry 125): R435 speaks of partitions only. -/
def State.coherent (s : State) (l : Nat) : Bool :=
  (partitions s.plan).all fun (_, _, fl, _, b, m) => fl.testBit 0 || !(decide (b ≤ 64 * l) && decide (64 * l < b + m))

/-- The bytes of a line as the harts see them, and whether they are poisoned. -/
def State.lineBytes (s : State) (l : Nat) : List Byte := ((s.line l).own).getD (s.bytes (64 * l) 64)
def State.linePoison (s : State) (l : Nat) : Bool :=
  (s.line l).poison || ((s.line l).own.isNone && s.poisoned (64 * l) 64)

/-- A dirty line is written to memory, poisoned where it is; what a coherent line holds is there. -/
def State.lineBack (s : State) (l : Nat) : State :=
  let x := s.line l
  if !x.dirty then s
  else
    match x.own with
    | none => (if x.poison then s.markPoison (64 * l) 64 else s).setLine l { x with dirty := false }
    | some d =>
      let s1 := s.putBytes (64 * l) d
      (if x.poison then s1.markPoison (64 * l) 64 else s1).setLine l { x with dirty := false }

/-- A line leaves the caches. -/
def State.lineDrop (s : State) (l : Nat) : State := s.setLine l (lineReset l)

/-- The caches' check of a line. An uncorrectable error of a clean line has it fetched again; a dirty one is written to
memory as poisoned. -/
def State.lineCheck (s : State) (l : Nat) (ecc : EccResult) : State :=
  match ecc with
  | .clean => s
  | .corrected => s.count F.APC_CE_COUNT_COUNT
  | .uncorrectable =>
    if (s.line l).dirty then ((s.setLine l { s.line l with poison := true }).lineBack l).lineDrop l
    else s.lineDrop l

/-- A line that is to be accessed. A cache may have given it up meanwhile, written back where it was dirty: the spec does not
say when, so that is free. What the caches do not hold is read from memory. -/
def State.lineOpen (s : State) (l : Nat) (x : HartMem) : State :=
  let (v, s0) := s.takeFree
  let s1 := if bitAt v 0 then (s0.lineBack l).lineDrop l else s0
  let s2 := s1.lineCheck l x.cache
  if (s2.line l).own.isSome then s2
  else
    let s3 := s2.memRead x.mem (64 * l)
    if s3.coherent l then (if x.mem.bad then s3.setLine l { s3.line l with poison := true } else s3)
    else s3.setLine l { s3.line l with own := some (s3.bytes (64 * l) 64), poison := x.mem.bad || s3.poisoned (64 * l) 64 }

/-- The lines that an access meets. -/
def linesOf (a n : Nat) : List Nat := if a / 64 = (a + n - 1) / 64 then [a / 64] else [a / 64, (a + n - 1) / 64]

/-- A load of cacheable memory: the bytes, or a load access fault where it consumes poisoned ones. -/
def State.cacheLoad (s : State) (h a n : Nat) (x : HartMem) : Option (List Byte) × State :=
  let s1 := (linesOf a n).foldl (fun (s : State) l => s.lineOpen l x) s
  if (linesOf a n).any s1.linePoison then (none, s1.fault uApc 1 0 (h % 128 * 2 ^ 32))
  else (some (bytesAt ((linesOf a n).flatMap s1.lineBytes) (a % 64) n), s1)

/-- Bytes of one line written: to memory too where it is coherent. -/
def State.lineStore (s : State) (a : Nat) (d : List Byte) : State :=
  let l := a / 64
  let poison := (s.line l).poison && decide (d.length < 64)
  match (s.line l).own with
  | some b => s.setLine l { dirty := true, poison := poison, own := some (bytesPut b (a % 64) d) }
  | none => (s.putBytes a d).setLine l { dirty := true, poison := poison, own := none }

/-- A store to cacheable memory. -/
def State.cacheStore (s : State) (a : Nat) (d : List Byte) (x : HartMem) : State :=
  let s1 := (linesOf a d.length).foldl (fun (s : State) l => s.lineOpen l x) s
  let k := 64 - a % 64
  let s2 := s1.lineStore a (d.take k)
  if d.length ≤ k then s2 else s2.lineStore (a + k) (d.drop k)

/-- A Zicbom or Zicboz operation on the line of an address: 0 `cbo.inval`, 1 `cbo.clean`, 2 `cbo.flush`, 4 `cbo.zero`. -/
def State.cacheOp (s : State) (op a : Nat) (x : HartMem) : State :=
  let l := a / 64
  if op = 0 then s.lineDrop l
  else if op = 4 then (s.lineOpen l x).lineStore (64 * l) (List.replicate 64 0)
  else
    let s1 := (s.lineCheck l x.cache).lineBack l
    if op = 2 then s1.lineDrop l else s1

/-! ### Fetch (R429) -/

/-- The fetch of the instruction that makes an access: a corrected error is counted, poisoned bytes are an instruction
access fault. -/
def State.hartFetch (s : State) (x : HartAccess) : State :=
  match x.fetch with
  | .good | .refetched => s
  | .corrected => s.count F.APC_CE_COUNT_COUNT
  | .poisoned => (s.fault uApc 1 0 (x.hart % 128 * 2 ^ 32)).emit (.fetchFault x.hart)

end Sys2Proof.Machine
end

