-- ==== Sys2Proof/Machine/OneStep.lean ====
section
/-! DEFINITION. One-step insertion and residence correction at an egress port (R466, Table 17-3). The
places of the PTP fields are those of IEEE 1588 and of the IP and UDP standards. -/

namespace Sys2Proof.Machine

/-- Where the PTP message of a frame starts, with the start of its UDP header and its IP version (0
when it is carried in Ethernet directly). -/
def ptpPlace (d : List Byte) : Option (Nat × Nat × Nat) :=
  let tagged := beAt d 12 2 == 0x8100 || beAt d 12 2 == 0x88A8
  let o := if tagged then 18 else 14
  let ty := beAt d (o - 2) 2
  if ty = 0x88F7 then some (o, 0, 0)
  else if ty = 0x0800 ∧ beAt d o 1 = 0x45 ∧ beAt d (o + 9) 1 = 17 ∧ beAt d (o + 22) 2 = 319 then some (o + 28, o + 20, 4)
  else if ty = 0x86DD ∧ beAt d o 1 / 16 = 6 ∧ beAt d (o + 6) 1 = 17 ∧ beAt d (o + 42) 2 = 319 then some (o + 48, o + 40, 6)
  else none

/-- The Internet checksum after the bytes from `o` on have changed (RFC 1624). -/
def checksumUpdate (old new : List Byte) (o sum : Nat) : Nat :=
  let fold := fun x => x % 65536 + x / 65536
  let n := (old.length - o + 1) / 2
  let total := (List.range n).foldl (fun a i =>
    fold (a + (65535 - beAt old (o + 2 * i) 2) + beAt new (o + 2 * i) 2)) (65535 - sum)
  65535 - fold (fold total)

/-- The frame with the IPv4 UDP checksum zeroed or the IPv6 one updated (R466). -/
def ptpChecksum (old new : List Byte) (udp ver : Nat) : List Byte :=
  if ver = 4 then bytesPut new (udp + 6) (natBE 2 0)
  else if ver = 6 then
    bytesPut new (udp + 6) (natBE 2 (checksumUpdate old new (udp + 8) (beAt old (udp + 6) 2)))
  else new

/-- An event message of PTP version 2: its message type, 0 to 3, and `twoStepFlag`. -/
def ptpEvent (d : List Byte) (o : Nat) : Option (Nat × Bool) :=
  if beAt d (o + 1) 1 % 16 = 2 ∧ beAt d o 1 % 16 < 4 then some (beAt d o 1 % 16, (beAt d (o + 6) 1).testBit 1)
  else none

/-- The frame as sent with one-step mode `mode` (Table 17-3), if it is modified. `sec`, `ns`, `frac`:
the transmit timestamp; `residence`: its short time less word 2; `fromMac`: the source is a MAC on the
port's timebase. -/
def oneStep (d : List Byte) (mode sec ns frac residence : Nat) (fromMac : Bool) : Option (List Byte) :=
  match ptpPlace d with
  | none => none
  | some (o, udp, ver) =>
    match ptpEvent d o with
    | none => none
    | some (ty, two) =>
      let corr := beAt d (o + 8) 8
      if mode = 1 ∧ ty < 3 ∧ !two then
        let n1 := bytesPut d (o + 34) (natBE 6 sec ++ natBE 4 ns)
        let n2 := bytesPut n1 (o + 8) (natBE 8 ((corr + frac) % 2 ^ 64))
        some (ptpChecksum d n2 udp ver)
      else if mode = 2 ∧ fromMac then
        some (ptpChecksum d (bytesPut d (o + 8) (natBE 8 ((corr + residence) % 2 ^ 64))) udp ver)
      else none

end Sys2Proof.Machine
end

