-- ==== Sys2Proof/Machine/Sch.lean ====
section
/-! DEFINITION. The scheduler's commands (09_scheduling.md): enqueue, selection, transmission, refills
and commits. -/

namespace Sys2Proof.Machine

/-! ### Enqueue (R226, R239, R241, R243) -/

/-- Is the port's egress quiesced (R57)? -/
def State.egressHeld (s : State) (port : Nat) : Bool :=
  s.underAmendment secSchTree port 0 || s.underAmendment secPortLayout 0 port

/-- A packet arrives at a port: queued on its leaf, or discarded under the first rule that applies.
`arriving`: its flits still come (cut-through). -/
def State.enqueue (s : State) (port : Nat) (p : Packet) (arriving : Bool) : State :=
  let w := p.words
  let q := hGet w CH.dstQueue
  let l := q % 65536
  let f : EgFrame := ⟨w, p.payload, p.poison, arriving⟩
  if hGet w CH.kind ≠ kPacket then
    let s1 := (s.count F.SCH_DST_DROP_COUNT).fault uSch 0x02 1 (schExtra port l)
    if hGet w CH.kind = kCommand then s1.complete (0x1B0 + port) w 0x01 0 [] else s1
  else if 65536 ≤ q ∨ !treeOwns s.plan port (l / 16) then
    (s.count F.SCH_DST_DROP_COUNT).fault uSch 0x01 0 (schExtra port l)
  else if s.egressHeld port then (s.count F.SITE_DRAIN_DISCARD_COUNT).setStatus uSite 2
  else if p.poison then s
  else if s.get (F.SCH_PORT_STATUS_LINK port) = 0 ∧ s.get (F.SCH_PORT_CFG_FLUSH_ON_DOWN port) = 1 then
    s.count (F.SCH_PORT_FLUSH_DROP_COUNT port)
  else
    let sdu := s.get (F.SCH_CLS_MAXSDU_MAX port (leafClass s.plan port l))
    if sdu ≠ 0 ∧ sdu < egLen f then
      (s.count (F.SCH_PORT_SDU_DROP_COUNT port)).fault uSch 0x08 7 (schExtra port l)
    else if s.get (F.SCH_LEAF_LIMIT_KIB l) * 1024 < s.leafBytes l + egLen f then s.count (F.SCH_LEAF_DROP_COUNT l)
    else if ((unitPartition s.plan uSch).map Prod.snd).getD 0 < s.schBytes + egLen f then s.count F.SCH_BUF_DROP_COUNT
    else s.setLeafQ l (s.leafQ l ++ [f])

/-- The packet in ejection on the bulk channel of a port, when cut-through lets the port queue it:
`CT_START` bytes of it have come (R242). -/
def State.cutReady (s : State) (port : Nat) : Option RxPacket :=
  match s.egRx port with
  | some r =>
    if !r.discard && portCutThrough s.plan port && !s.schArriving port && hGet r.words CH.kind == kPacket &&
        decide (s.get (F.SCH_PORT_CFG_CT_START port) ≤ r.payload.length) then some r
    else none
  | none => none

/-- The port takes the next packet delivered to it, or, cut-through, the one still arriving. -/
def execSchEnqueue (port : Nat) (s : State) : Res :=
  match s.inboxOf (0x1B0 + port) with
  | p :: rest => .next (((s.cbsSync port).setInbox (0x1B0 + port) rest).enqueue port p false)
  | [] =>
    match s.cutReady port with
    | some r =>
      let s1 := (s.cbsSync port).enqueue port ⟨r.words, [], s.rxPoison port⟩ true
      .next (if s1.schArriving port then s1 else s1.rxDiscard port)
    | none => .next s

/-! ### Selection and transmission (R227, R230, R239, R242) -/

/-- Candidates that fit no open interval of their class are discarded as they are formed (R239). -/
def State.dropUnfit (s : State) (port markers : Nat) : Nat → State
  | 0 => s
  | n + 1 =>
    let unfit := (List.range 8).filterMap fun c =>
      match s.classPick port c, s.longestOpen port c with
      | some (l, _), some d => if d < wireTime s.plan port (s.headLen l) markers then some l else none
      | _, _ => none
    match unfit with
    | [] => s
    | l :: _ =>
      (((s.dropHead port l).count (F.SCH_PORT_SDU_DROP_COUNT port)).fault uSch 0x08 7 (schExtra port l)).dropUnfit
        port markers n

/-- The instant of the timestamp point of a frame that starts now (R462). -/
def State.txStamp (s : State) (port : Nat) : Nat :=
  quantise (s.portNow port + (s.get (F.TB_LANE_CAL_TX_LAT port) + s.get (F.TB_LANE_TX_TRIM_TRIM port)) * 2 ^ 28)

/-- May the port start a frame: present, link up, not sending, tile not in Hold? -/
def State.portFree (s : State) (port : Nat) : Bool :=
  portPresent s.plan port && s.get (F.SCH_PORT_STATUS_LINK port) == 1 && (s.txOf port).isNone &&
    !s.epHeld (0x1B0 + port)

/-- The port selects its next frame and starts it. `markers`: the time of alignment markers inside it;
`ecc`: what the ECC check of its bytes in HBM finds; with an uncorrectable error it is discarded instead (R241), as one
is whose arriving packet has been poisoned (R242). -/
def execFrameSelect (port markers : Nat) (ecc : EccResult) (s : State) : Res :=
  if !s.portFree port then .next s
  else
    let s1 := ((s.gatesNow port).refillPort port).dropUnfit port markers
      ((s.busyLeaves port).map fun l => (s.leafQ l).length).sum
    match s1.portPick port markers with
    | none => .next s1
    | some (l, s2) =>
      match s2.leafQ l with
      | [] => .next s1
      | f :: _ =>
        if ecc.bad then .next (((s1.dropHead port l).memReadIn ecc uSch).fault uSch 0x07 6 (schExtra port l))
        else if f.arriving && s1.rxPoison port then .next (s1.dropHead port l)
        else
          let s3 := ((s2.memReadIn ecc uSch).chargePath port l (egLen f)).popLeaf port l
          .next (s3.setTx port (some ⟨l, f, s3.txStamp port, s3.clk.elapsed, false⟩))

/-- The transmit report of a frame that asked for one (R464, R465). -/
def State.txReport (s : State) (port : Nat) (t : TxFrame) (status : Nat) : State :=
  let w := t.frame.words
  let frac := hGet w CH.timeFrac
  if frac % 2 = 0 then s
  else if !s.eventCredit (0x1B0 + port) then s.count F.TB_TXTS_DROP_COUNT
  else
    let h := hSets hZero [(CH.kind, kEvent), (CH.td, hGet w CH.td), (CH.srcEp, 0x1B0 + port),
      (CH.dstEp, hGet w CH.srcEp), (CH.dstQueue, hGet w CH.dstQueue), (CH.ctx, hGet w CH.ctx),
      (CH.timeNs, shortNs t.stamp), (CH.timeFrac, shortFrac t.stamp), (CH.offsets, 2 ^ 48 - 1), (CH.opcode, 0x310),
      (CH.operand, status * 2 ^ 40 + portTb s port * 2 ^ 36 + port * 2 ^ 32 + frac / 2 % 4096),
      (CH.user, hGet w CH.user)]
    (s.send (0x1B0 + port) ⟨h, [], false⟩).wrapBy F.TB_TXTS_COUNT_COUNT 1

/-- The bytes of a frame as sent, without FCS: padded to 60, one-step fields inserted (R227, R466). -/
def State.sentBytes (s : State) (port : Nat) (t : TxFrame) : List Byte × Bool :=
  let w := t.frame.words
  let body := match t.frame.arriving, s.egRx port with
    | true, some r => r.payload
    | _, _ => t.frame.data
  let d := bytesAt body 0 (max 60 (hGet w CH.len))
  let src := hGet w CH.srcEp
  let word2 := hGet w CH.timeNs * 2 ^ 16 + hGet w CH.timeFrac
  let short := shortNs t.stamp * 2 ^ 16 + shortFrac t.stamp
  match oneStep d (s.get (F.TB_PORT_CFG_ONE_STEP port)) (t.stamp / secUnit) (t.stamp % secUnit / nsUnit)
      (shortFrac t.stamp) ((short + 2 ^ 64 - word2) % 2 ^ 64) (decide (src < 16) && portTb s src == portTb s port) with
  | some e => (e, true)
  | none => (d, false)

/-- A frame that has started ends at once with an inverted FCS, and the rest of its packet is discarded (R242):
`sent` bytes had left. -/
def State.stomp (s : State) (port sent : Nat) (t : TxFrame) : State :=
  let s1 := (s.count (F.SCH_PORT_STOMP_COUNT port)).emit (.frame port ((s.sentBytes port t).1.take sent) false)
  let s2 := (if t.frame.arriving then s1.rxDiscard port else s1).endTx port
  (s2.txReport port t 1).cbsCut port (leafClass s.plan port t.leaf)

/-- Transmission of the frame of a port ends: whole, or stomped for an abort, poison, an
uncorrectable error found meanwhile (`ecc`), or an underrun. `sent`: the bytes that had left when it was stomped. -/
def execFrameTransmitEnd (port sent : Nat) (ecc : EccResult) (s : State) : Res :=
  match s.txOf port with
  | none => .next s
  | some t =>
    let ex := schExtra port t.leaf
    let s0 := (if ecc.bad then s else s.memReadIn ecc uSch).cbsSync port
    if ecc.bad then .next ((((s0.stomp port sent t).memReadIn ecc uSch).fault uSch 0x05 4 ex).fault uSch 0x07 6 ex)
    else if t.aborted || t.frame.poison || (t.frame.arriving && s.rxPoison port) then
      .next ((s0.stomp port sent t).fault uSch 0x05 4 ex)
    else if t.frame.arriving then
      .next (((s0.stomp port sent t).count (F.SCH_PORT_UNDERRUN_COUNT port)).fault uSch 0x06 5 ex)
    else
      let (d, changed) := s.sentBytes port t
      let s1 := (s0.emit (.frame port d true)).endTx port
      let s2 := (s1.wrapBy (F.SCH_PORT_TX_FRAMES_COUNT port) 1).wrapBy (F.SCH_PORT_TX_BYTES_COUNT port) (egLen t.frame)
      let s3 := if changed then s2.wrapBy F.TB_ONESTEP_COUNT_COUNT 1 else s2
      .next ((s3.txReport port t 0).cbsSent port (leafClass s.plan port t.leaf) t)

/-! ### Gates (R236, R237) -/

/-- At the change time the new list starts with its entry 0. -/
def execGclChange (port : Nat) (s : State) : Res :=
  match (s.gcl port).change with
  | some c => if c ≤ s.portNow port then .next ((s.cbsSync port).gclApply port c) else .next s
  | none => .next s

/-- The next entry of the cycle in force takes force. -/
def execGateEntryChange (port : Nat) (s : State) : Res :=
  let t := s.gatesNow port
  if (t.gcl port).start = (s.gcl port).start then .next t else .next s

/-- A cycle of the operating list begins, or is held before a pending change. -/
def execGclCycleStart (port : Nat) (s : State) : Res :=
  let t := s.gatesNow port
  if (t.gcl port).start = (s.gcl port).start then .next s else .next t

/-! ### Refills and node commits (R231, R232, R234) -/

/-- Does the plan provide the node (R229)? -/
def nodePresent (p : Plan) (level index : Nat) : Bool :=
  match level with
  | 0 => portPresent p index
  | 1 => decide (index < 128) && portPresent p (index / 8)
  | 2 => decide (index < 4096) && (groupPort p index).isSome
  | _ => (groupPort p (index / 16)).isSome

/-- Refill instants of a node that have come (R232, R234, R235). -/
def execShaperRefill (level index : Nat) (s : State) : Res :=
  if !nodePresent s.plan level index then .next s
  else .next ((s.cbsStep (nodeKey level index)).nodeRefill (nodeKey level index))

/-- Are the staged CBS fields allowed for the node (R235): zero but at L1, the slope from 1 to the MAC
rate? -/
def State.cbsStagedOk (s : State) (level index : Nat) : Bool :=
  let en := s.get F.SCH_NODE_CBS_STG_CBS_EN
  let slope := s.get F.SCH_NODE_CBS_STG_IDLE_SLOPE
  if level = 1 then en == 0 || (decide (1 ≤ slope) && decide (slope ≤ macRate s.plan (index / 8)))
  else en == 0 && slope == 0

/-- GO of a node commit (R234). -/
def State.schNodeGo (s : State) : State :=
  let level := s.get F.SCH_NODE_SEL_STG_LEVEL
  let index := s.get F.SCH_NODE_SEL_STG_INDEX
  if !nodePresent s.plan level index then s.common uSch 0xFE
  else if s.egressHeld (nodePort s.plan level index) then s.common uSch 0xFC
  else if s.get F.SCH_NODE_COMMIT_PENDING = 1 then s
  else if !s.cbsStagedOk level index then s.common uSch 0xFF
  else (s.commitGo F.SCH_NODE_COMMIT_PENDING).withSch { s.sch with goAt := s.clk.elapsed }

def execSchNodeCommitGo (s : State) : Res := .next s.schNodeGo

end Sys2Proof.Machine
end

