-- ==== Sys2Proof/Machine/Eth.lean ====
section
/-! DEFINITION. The Ethernet ports: reception, PFC, links (R17, R89, R240 to R246, R461). -/

namespace Sys2Proof.Machine

/-! ### Links (R243, R245, R461) -/

def linkUp (s : State) (p : Nat) : Bool := s.get (F.ETH_LINK_STATUS_UP p) == 1

/-- Does the port's PHY type use link training: CR and KR? -/
def portTrains (p : Plan) (port : Nat) : Bool := decide (portPhy p port < 2)

def State.setMeasuring (s : State) (l : List Nat) : State := s.withEth { s.eth with measuring := l }

/-- A port that may come up begins to: training, where its PHY type uses it. -/
def State.linkStart (s : State) (p : Nat) : State :=
  if portPresent s.plan p && s.taking && !s.underAmendment secPortLayout 0 p && s.get (F.ETH_LINK_CTRL_EN p) == 1 &&
      !linkUp s p && portTrains s.plan p then
    s.set (F.ETH_LINK_STATUS_TRAINING p) 1
  else s

/-- A link goes down: a frame in reception ends as aborted, one in transmission incomplete; with
`FLUSH_ON_DOWN` the queues are discarded. -/
def State.linkDown (s : State) (p : Nat) (receiving : Bool) : State :=
  if !linkUp s p then s.set (F.ETH_LINK_STATUS_TRAINING p) 0
  else
    let s1 := (s.cbsSync p).sets [(F.ETH_LINK_STATUS_UP p, 0), (F.SCH_PORT_STATUS_LINK p, 0)]
    let s2 := if receiving then ((s1.count (F.ETH_RX_ABORT_COUNT p)).setArriving p (arrivingNone 0)).pfcSettle else s1
    let s3 := match s2.txOf p with
      | some t => (((if t.frame.arriving then s2.rxDiscard p else s2).endTx p).count (F.ETH_TX_ABORT_COUNT p)).cbsCut p
          (leafClass s.plan p t.leaf)
      | none => s2
    let s4 := s3.setMeasuring (s3.eth.measuring.erase p)
    if s4.get (F.SCH_PORT_CFG_FLUSH_ON_DOWN p) = 1 then s4.flushPort p fun s => s.count (F.SCH_PORT_FLUSH_DROP_COUNT p)
    else s4

/-- `FLUSH_ON_DOWN` has been written: with the link down already, the queues are discarded now (R243). -/
def State.flushIfDown (s : State) (p : Nat) : State :=
  if s.get (F.SCH_PORT_CFG_FLUSH_ON_DOWN p) = 1 ∧ s.get (F.SCH_PORT_STATUS_LINK p) = 0 then
    (s.cbsSync p).flushPort p fun s => s.count (F.SCH_PORT_FLUSH_DROP_COUNT p)
  else s

/-- Loss of signal, lock or alignment on a lane of a port: the link goes down and trains again. -/
def execLinkLoss (port : Nat) (receiving : Bool) (s : State) : Res :=
  if linkUp s port ∨ s.eth.measuring.contains port then
    .next (((s.setMeasuring (s.eth.measuring.erase port)).linkDown port receiving).linkStart port)
  else .next s

/-- Training ends and the measurement of the lanes begins. -/
def execLinkTrainingComplete (port : Nat) (s : State) : Res :=
  if s.get (F.ETH_LINK_STATUS_TRAINING port) = 0 then .next s
  else .next ((s.set (F.ETH_LINK_STATUS_TRAINING port) 0).setMeasuring (port :: s.eth.measuring.erase port))

/-- A port without training has signal, lock and alignment on its lanes: the measurement begins. -/
def execLaneLockAlignment (port : Nat) (s : State) : Res :=
  if portPresent s.plan port && s.taking && !s.underAmendment secPortLayout 0 port &&
      s.get (F.ETH_LINK_CTRL_EN port) == 1 && !linkUp s port && !portTrains s.plan port then
    .next (s.setMeasuring (port :: s.eth.measuring.erase port))
  else .next s

/-- The measured latencies of the port's lanes, in 2⁻¹⁶ ns, are written and `UP` rises (R461). -/
def execLaneCalibrationComplete (port : Nat) (latencies : List (Nat × Nat)) (s : State) : Res :=
  if !s.eth.measuring.contains port ∨ s.get (F.ETH_LINK_CTRL_EN port) = 0 then .next s
  else
    let s1 := (List.range (portLanes s.plan port)).foldl (fun (s : State) i =>
      let x := latencies.getD i (0, 0)
      s.sets [(F.TB_LANE_CAL_RX_LAT (port + i), x.1), (F.TB_LANE_CAL_TX_LAT (port + i), x.2)]) s
    .next ((s1.setMeasuring (s1.eth.measuring.erase port)).sets
      [(F.ETH_LINK_STATUS_UP port, 1), (F.SCH_PORT_STATUS_LINK port, 1)])

/-! ### Reception (R17, R89, R240, R246) -/

/-- The priority of a frame: the PCP of a tag that stands first after the source address (R89). -/
def framePrio (d : List Byte) (default : Nat) : Nat :=
  if beAt d 12 2 = 0x8100 ∨ beAt d 12 2 = 0x88A8 then beAt d 14 1 / 32 else default

/-- The receive timestamp of a frame of a port whose start delimiter is captured now (R462). -/
def State.rxStamp (s : State) (port : Nat) : Nat :=
  quantise (s.tbVal (s.get (F.TB_PORT_CFG_TB port)) -
    (s.get (F.TB_LANE_CAL_RX_LAT port) + s.get (F.TB_LANE_RX_TRIM_TRIM port)) * 2 ^ 28)

/-- The capacity of the ingress buffer: 64 MiB (R17). -/
def ibufSize : Nat := 67108864

/-- A frame stored, with the next arrival number of its source. -/
def State.storeFrame (s : State) (src prio td : Nat) (data : List Byte) (ns frac : Nat) (poison : Bool) : State :=
  let x := s.source src
  let f : SrcFrame := ⟨src, x.nextArrival, prio, td, data, ns, frac, poison, false⟩
  ((s.withFrames (s.frames ++ [f])).setSource src { x with nextArrival := (x.nextArrival + 1) % 2 ^ 32 }).pfcSettle

/-- Does the header of a frame show that the MAC keeps it from the buffer: a MAC control frame, or one that the filter
drops (R240, R246)? -/
def State.frameFiltered (s : State) (port : Nat) (data : List Byte) : Bool :=
  decide (beAt data 12 2 = 0x8808) ||
  (decide (s.get (F.ETH_RX_CFG_UC_FILTER port) = 1) && !(beAt data 0 1).testBit 0 &&
    decide (beAt data 0 6 ≠ s.get (F.ETH_MAC_ADDR_ADDR port)))

/-- The bytes of a frame that have come so far stand in the buffer, once its priority is known; a frame that finds the
buffer full is dropped and every byte of it freed (R17, R89). -/
def State.storeBytes (s : State) (port : Nat) (data : List Byte) : State :=
  let a := s.arrivingAt port
  if a.dropped || decide (data.length < 16) || s.frameFiltered port data then s
  else
    let prio := framePrio data (s.get F.ETH_PFC_CFG_DEFAULT_PCP)
    if ibufSize < s.ibufBytes - a.bytes + data.length then
      ((s.setArriving port ⟨prio, ibufSize - (s.ibufBytes - a.bytes), false⟩).pfcSettle.setArriving port
        ⟨prio, 0, true⟩).pfcSettle
    else (s.setArriving port ⟨prio, data.length, false⟩).pfcSettle

/-- The last byte of a frame has come (`data` without FCS; a codeword that the FEC has marked uncorrectable counts
with `FEC` = 2, R244): dropped and counted under the first case that applies, or stored. `full`: it met a full buffer
while it arrived. -/
def State.frameEnd (s : State) (port : Nat) (data : List Byte) (marks : FrameMarks) (full : Bool) : State :=
  let len := data.length + 4
  if len < 64 ∨ !marks.good ∨ (marks.marked ∧ portFec s.plan port = 2) then s.count (F.ETH_RX_BAD_COUNT port)
  else if s.get (F.ETH_RX_CFG_MAX_FRAME port) < len then s.count (F.ETH_RX_OVERSIZE_COUNT port)
  else if beAt data 12 2 = 0x8808 ∧ beAt data 14 2 = 0x0101 then s
  else if s.frameFiltered port data then s.count (F.ETH_RX_FILTERED_COUNT port)
  else if full ∨ ibufSize < s.ibufBytes + len then s.count (F.ETH_RX_NOBUF_COUNT port)
  else
    let t := s.rxStamp port
    s.storeFrame port (framePrio data (s.get F.ETH_PFC_CFG_DEFAULT_PCP)) 0 data (shortNs t) (shortFrac t) false

/-- A MAC receives a frame, byte by byte: the row gives the bytes that have come so far, or the whole frame (R17,
R246). What was stored of a frame that is dropped at its end is freed. -/
def execFrameReceive (port : Nat) (data : List Byte) (marks : FrameMarks) (s : State) : Res :=
  if !linkUp s port then .next s
  else if marks.arriving then .next (s.storeBytes port data)
  else
    let full := (s.arrivingAt port).dropped
    let s1 := if s.arrivingAt port = arrivingNone 0 then s else (s.storeBytes port data).setArriving port (arrivingNone 0)
    let s2 := s1.frameEnd port data marks full
    .next (if s.arrivingAt port = arrivingNone 0 then s2 else s2.pfcSettle)

/-! ### PFC (R89, R240) -/

/-- After half the pause time the PFC frame is repeated while an XOFF condition holds. -/
def execPfcRepeat (port prio : Nat) (s : State) : Res :=
  if s.eth.repeating.contains (8 * port + prio) ∧ s.pfcOver port prio then
    .next (s.sendPfc port prio (s.get F.ETH_PFC_CFG_PAUSE_QUANTA))
  else .next s

/-- `EN` cleared: while frames repeat, one with pause time 0 and no further (R89). -/
def State.pfcEnClear (s : State) (n : Nat) : State :=
  let s1 := s.set (F.ETH_PFC_THR_EN n) 0
  if s1.eth.repeating.contains n then (s1.setRepeating (s1.eth.repeating.erase n)).sendPfc (n / 8) (n % 8) 0 else s1

/-- The write that clears the enable of a port and priority. -/
def State.pfcEnClearWrite (s : State) (n : Nat) : State :=
  if !portPresent s.plan (n / 8) then s.common uEth 0xFE
  else if s.underAmendment secPortLayout 0 (n / 8) then s.common uEth 0xFC
  else s.pfcEnClear n

def execEthPfcEnClear (port prio : Nat) (s : State) : Res := .next (s.pfcEnClearWrite (8 * port + prio))

/-- The pause of a class set to a time in quanta, or ended by 0 (R240). -/
def State.pauseClass (s : State) (p c quanta : Nat) : State :=
  let old := s.get (F.SCH_PORT_STATUS_PAUSED p)
  let new := if quanta = 0 then old - (old &&& 2 ^ c) else old ||| 2 ^ c
  (((s.cbsSync p).set (F.SCH_PORT_STATUS_PAUSED p) new).withEth { s.eth with pause := spSet (fun _ => 0) s.eth.pause (8 * p + c) quanta })

/-- A PFC frame received on a port: each class it enables is paused, re-timed or released. -/
def execPfcFrameReceived (port enable : Nat) (times : List Nat) (s : State) : Res :=
  if !linkUp s port then .next s
  else .next ((List.range 8).foldl (fun s c =>
    if enable.testBit c then s.pauseClass port c (times.getD c 0) else s) s)

/-- The pause time of a class runs out; in Hold it stands still (R248). -/
def execPfcPauseExpiry (port prio : Nat) (s : State) : Res :=
  if s.epHeld (0x1B0 + port) then .next s
  else if (s.get (F.SCH_PORT_STATUS_PAUSED port)).testBit prio then .next (s.pauseClass port prio 0) else .next s

end Sys2Proof.Machine
end

