-- ==== Sys2Proof/Machine/HifOps.lean ====
section
/-! DEFINITION. Host queues: queue state, completion entries, interrupts, errors, and the fetch of a send
descriptor (R362 to R386). -/

namespace Sys2Proof.Machine

/-! ### Queues -/

def hifReset (_ : Nat) : HifQueue :=
  { st := 0, err := 0, rxDrop := 0, sqBase := 0, rqBase := 0, cqBase := 0, sizes := 6 * 2 ^ 16, cfg := 0, mod := 1,
    sqPi := 0, sqCi := 0, rqPi := 0, rqCi := 0, cqPi := 0, cqCi := 0, armed := false, armAt := 0, fetch := none, errAt := none }

abbrev qDisabled : Nat := 0
abbrev qEnabled : Nat := 1
abbrev qError : Nat := 2
abbrev qStopping : Nat := 3

def State.hq (s : State) (g : Nat) : HifQueue := spGet hifReset s.hif.queues g
def State.setHq (s : State) (g : Nat) (q : HifQueue) : State :=
  s.withHif { s.hif with queues := spSet hifReset s.hif.queues g q }

def hqFn (g : Nat) : Nat := g / 256
def hqLocal (g : Nat) : Nat := g % 256
def HifQueue.sqLog2 (q : HifQueue) : Nat := bitsAt q.sizes 4 0
def HifQueue.rqLog2 (q : HifQueue) : Nat := bitsAt q.sizes 12 8
def HifQueue.cqLog2 (q : HifQueue) : Nat := bitsAt q.sizes 20 16
def HifQueue.pasid (q : HifQueue) : Option Nat := if bitAt q.cfg 63 then some (bitsAt q.cfg 51 32) else none

/-- The difference of two free-running 32-bit counts (R368). -/
def diff32 (a b : Nat) : Nat := (a + 2 ^ 32 - b % 2 ^ 32) % 2 ^ 32

/-- Does the site plan provide the queue? -/
def hqExists (p : Plan) (g : Nat) : Bool :=
  fnPresent p (hqFn g) && decide (fnPersonality p (hqFn g) ≤ 1) && decide (hqLocal g < fnQpLimit p (hqFn g))

/-- Is a function enabled: its Memory Space Enable, its Bus Master Enable, or for a VF the VF Enable of its PF (R54)? -/
def State.fnEnabled (s : State) (f : Nat) : Bool :=
  (s.cfg f 0x04).testBit 1 || (s.cfg f 0x04).testBit 2 ||
  (fnIsVf f && (s.cfg (f / 1024 * 1024) 0x338).testBit 0)

/-- A function error (Table 14-13): the first is captured, each is counted. -/
def State.fnError (s : State) (f code queue : Nat) : State :=
  let e := spGet (fun _ => (⟨false, 0, 0, 0⟩ : HifFnErr)) s.hif.fnErr f
  let e1 := if e.valid then e else { e with valid := true, code := code, queue := queue }
  (s.withHif { s.hif with
      fnErr := spSet (fun _ => ⟨false, 0, 0, 0⟩) s.hif.fnErr f { e1 with count := satInc 0xFFFFFFFF e1.count } })

/-! ### Completion entries and interrupts (R377 to R381) -/

/-- The queue raises its vector. -/
def State.hqInterrupt (s : State) (g : Nat) : State :=
  let q := s.hq g
  if bitAt q.cfg 12 then s.raiseMsix (hqFn g) (bitsAt q.cfg 10 0) else s

def HifQueue.pendingCount (q : HifQueue) : Nat := diff32 q.cqPi q.armAt

/-- An armed queue with enough pending entries raises its interrupt and disarms (R381). -/
def State.hqModerate (s : State) (g : Nat) : State :=
  let q := s.hq g
  if q.armed ∧ 1 ≤ q.pendingCount ∧ max 1 (bitsAt q.mod 15 0) ≤ q.pendingCount then
    (s.setHq g { q with armed := false }).hqInterrupt g
  else s

/-- The 64 bytes of a completion entry, with its owner bit. -/
def cqeBytes (q : HifQueue) (words : List Word) : List Byte :=
  (words.flatMap fun w => natLE 8 w.toNat) ++ natLE 8 (if q.cqPi / 2 ^ q.cqLog2 % 2 = 0 then 1 else 0)

/-- A completion entry of seven words written: 0, or the queue error code that stops it. -/
def State.cqWrite (s : State) (g : Nat) (words : List Word) : Nat × State :=
  let q := s.hq g
  if 2 ^ q.cqLog2 ≤ diff32 q.cqPi q.cqCi then (5, s)
  else
    let (ok, s1) := s.dmaWrite (hqFn g) q.pasid true (q.cqBase.toNat + 64 * (q.cqPi % 2 ^ q.cqLog2)) (cqeBytes q words)
    if ok then (0, s1.setHq g { s1.hq g with cqPi := (q.cqPi + 1) % 2 ^ 32 }) else (4, s1)

/-- Word 0 of a completion entry (Table 14-6). -/
def cqeWord0 (type status flags tb ndesc index : Nat) : Word :=
  BitVec.ofNat 64 (type * 2 ^ 56 + status % 256 * 2 ^ 48 + flags % 256 * 2 ^ 40 + tb % 4 * 2 ^ 38 + ndesc % 16 * 2 ^ 32 +
    index % 2 ^ 32)

/-- A queue enters ERROR (R383): fetching stops, the error entry is written where the cause allows it,
the interrupt is raised at once. Of two causes at one instant the lower code is kept. -/
def State.hqErrorBase (s : State) (g code : Nat) (entry : Bool) : State :=
  let q := s.hq g
  if q.st = qError ∧ q.errAt = some s.clk.elapsed then s.setHq g { q with err := min q.err code }
  else if q.st ≠ qEnabled then s
  else
    let s1 := (s.setHq g { q with st := qError, err := code, fetch := none, errAt := some s.clk.elapsed }).fault uHif 0x02 1 (code * 2 ^ 32 + g)
    if !entry then s1
    else
      let (r, s2) := s1.cqWrite g [cqeWord0 3 code 0 0 0 q.sqCi, 0, 0, 0, 0, 0, 0]
      if r = 0 then s2.hqInterrupt g else s2

/-- A completion entry: written, counted for moderation; one that cannot be written is lost, with the
error of R379 or of the fault. -/
def State.hqComplete (s : State) (g : Nat) (words : List Word) : State :=
  let (r, s1) := s.cqWrite g words
  if r = 0 then s1.hqModerate g else s1.hqErrorBase g r false

/-! ### Send descriptors (R369, R370) -/

def dWord (b : List Byte) (i : Nat) : Word := BitVec.ofNat 64 (leAt b (8 * i) 8)
def dOpcode (b : List Byte) : Nat := leAt b 7 1
def dFlags (b : List Byte) : Nat := leAt b 6 1
def dSegs (b : List Byte) : Nat := bitsAt (dWord b 0) 47 44 + 1
def dLen (b : List Byte) : Nat := leAt b 0 2
def dSignaled (b : List Byte) : Bool := (dFlags b).testBit 0
def dTsReq (b : List Byte) : Bool := (dFlags b).testBit 1

abbrev opSend : Nat := 1
abbrev opSendInline : Nat := 2
abbrev opSendCarrier : Nat := 3
abbrev opNop : Nat := 0x0F

/-- Slots of a descriptor. -/
def dSlots (b : List Byte) : Nat :=
  if dOpcode b = opSend ∨ dOpcode b = opSendCarrier then 1 + (dSegs b - 2 + 3) / 4
  else if dOpcode b = opSendInline then 1 + (dLen b - 32 + 63) / 64
  else 1

/-- Segment `k`: IOVA, and its length word. -/
def dSegment (b : List Byte) (k : Nat) : Nat × Nat :=
  let o := if k < 2 then 32 + 16 * k else 64 + 16 * (k - 2)
  (leAt b o 8, leAt b (o + 8) 8)

/-- Is the descriptor malformed, by its first slot (R370)? `avail`: slots written from its first one. -/
def dBadFirst (personality : Nat) (b : List Byte) (avail : Nat) : Bool :=
  let op := dOpcode b
  let inline := op == opSendInline
  let carrier := op == opSendCarrier
  let tciBad := !(dFlags b).testBit 4 && leAt b 2 2 != 0
  !(op == opSend || inline || carrier || op == opNop) ||
  bitsAt (dWord b 0) 43 32 != 0 || decide (32 ≤ dFlags b) || tciBad ||
  ((op == opSend || inline) && personality != 0) || (carrier && personality != 1) ||
  (op == opSend && !(decide (14 ≤ dLen b) && decide (dLen b ≤ 16379))) ||
  (inline && !(decide (14 ≤ dLen b) && decide (dLen b ≤ 480))) ||
  (!carrier && (bitsAt (dWord b 2) 39 0 != 0 || dWord b 3 != 0)) ||
  (dTsReq b && !dSignaled b) || (carrier && decide (4 ≤ dFlags b)) ||
  ((op == opSend || carrier) && dSegs b == 1 && (dWord b 6 != 0 || dWord b 7 != 0)) ||
  decide (avail < dSlots b)

/-- Is it malformed by its segments, all slots read? -/
def dBadSegments (b : List Byte) : Bool :=
  let op := dOpcode b
  (op == opSend || op == opSendCarrier) &&
  ((List.range (dSegs b)).any (fun k => decide (2 ^ 32 ≤ (dSegment b k).2)) ||
   ((List.range (dSegs b)).map fun k => (dSegment b k).2 % 2 ^ 32).sum != dLen b)

/-- The inline data of a descriptor. -/
def dInline (b : List Byte) : List Byte := bytesAt (b.drop 32) 0 (dLen b)

/-- May a carrier message go to its destination: a pavilion port whose group is RUNNING for the
function's TD (R373)? -/
def State.carrierAllowed (s : State) (f : Nat) (b : List Byte) : Bool :=
  let ep := bitsAt (dWord b 2) 63 48
  epClass ep == some 6 && (match grpOf s.plan ((ep - 0x80) / 2) with
    | some g => s.grpState g == gRunning && grpLoadTd s.plan g == fnTd s.plan f
    | none => false)

/-! ### Fetch (R372, R412) -/

/-- Outstanding timestamps of an engine (R464). -/
def State.tsOutstanding (s : State) (e : Nat) : Nat := (s.hif.waits.filter fun (w : TsWait) => w.engine == e).length

/-- A read of up to `n` bytes is issued for a queue: through the IOMMU, with a free tag, as far as one translation goes.
A fault puts the queue into ERROR; without a free tag the read waits. -/
def State.hqRead (s : State) (g iova n : Nat) : State :=
  let f := hqFn g
  let q := s.hq g
  if !s.dmaAllowed f then s.hqErrorBase g 3 true
  else
    let m := ((s.pieces f iova n).headD (iova, n)).2
    match s.dmaOut f q.pasid iova false with
    | (none, s0) => s0.hqErrorBase g 4 true
    | (some (a, tr), s0) =>
      match s0.pickTag f with
      | (none, s1) => s1
      | (some t, s1) =>
        ((s1.l1Exit f).withPcie { (s1.l1Exit f).pcie with
            reqs := s1.pcie.reqs ++ [(⟨fnPort f, t, f, a, m, g, [], q.pasid⟩ : HostReq)] }).emit
          (.hostReadRequest (fnPort f) t f a m (s1.tlpAttr f q.pasid true tr))

/-- The bytes of an engine's fetch buffer in use: frames presented that the arbour has not released, and frames
being fetched (R19). -/
def State.fetchUsed (s : State) (e : Nat) : Nat :=
  ((s.frames.filter fun (f : SrcFrame) => f.src == 16 + e).map fun f => f.data.length).sum +
  ((spKeys s.hif.queues).map fun g => if hqFn g / 1024 = e then ((s.hq g).fetch.map HifFetch.room).getD 0 else 0).sum

/-- The bytes that the frame of a descriptor takes in the fetch buffer, an inserted tag included. -/
def dRoom (b : List Byte) : Nat := dLen b + (if (dFlags b).testBit 4 then 4 else 0)

/-- Must the fetch wait for space for the whole frame? A buffer always has space for one frame (16,383 bytes with a
tag). DESIGN CHOICE (log entry 122). -/
def State.fetchWaits (s : State) (g : Nat) (x : HifFetch) : Bool :=
  (dOpcode x.slots == opSend || dOpcode x.slots == opSendInline) && x.room == 0 &&
  decide (16384 + Config.fetchBuffer (hqFn g / 1024) < s.fetchUsed (hqFn g / 1024) + dRoom x.slots)

/-- A fetch is over: all is read, and the last byte entered the fetch buffer now. -/
def State.hqFinish (s : State) (g : Nat) (y : HifFetch) : State :=
  s.setHq g { s.hq g with fetch := some { y with whole := true, time := s.tbVal 0 } }

/-- The next segment of length other than 0 is read, from where its last read ended, or the fetch is over. -/
def State.hqSegment (s : State) (g : Nat) (x : HifFetch) : State :=
  match (List.range (dSegs x.slots)).find? fun k => decide (x.seg ≤ k) && (dSegment x.slots k).2 != 0 with
  | none => s.hqFinish g x
  | some k =>
    let o := if x.seg = k then x.off else 0
    (s.setHq g { s.hq g with fetch := some { x with seg := k, off := o } }).hqRead g
      ((dSegment x.slots k).1 + o) ((dSegment x.slots k).2 - o)

/-- The fetch of a well-formed descriptor goes on: its slots, its segments' checks, its data. -/
def State.hqBody (s : State) (g : Nat) (x : HifFetch) : State :=
  let b := x.slots
  if b.length / 64 < dSlots b then
    s.hqRead g ((s.hq g).sqBase.toNat + 64 * (((s.hq g).sqCi + b.length / 64) % 2 ^ (s.hq g).sqLog2)) 64
  else if dBadSegments b then s.hqErrorBase g 2 true
  else if dTsReq b ∧ 4096 ≤ s.tsOutstanding (hqFn g / 1024) then s
  else if dOpcode b = opNop then s.hqFinish g x
  else if dOpcode b = opSendInline then s.hqFinish g { x with data := dInline b }
  else if dOpcode b = opSendCarrier ∧ !s.carrierAllowed (hqFn g) b then s.hqFinish g { x with refused := true }
  else s.hqSegment g x

/-- The fetch of a queue goes on as far as it can without a further answer of the host: the first slot, its checks,
space for the whole frame, and the rest. -/
def State.hqAdvance (s : State) (g : Nat) : State :=
  let q := s.hq g
  match q.fetch with
  | none => s
  | some x =>
    if x.whole then s
    else if x.slots.length / 64 = 0 then s.hqRead g (q.sqBase.toNat + 64 * (q.sqCi % 2 ^ q.sqLog2)) 64
    else if dBadFirst (fnPersonality s.plan (hqFn g)) x.slots (diff32 q.sqPi q.sqCi) then s.hqErrorBase g 2 true
    else if s.fetchWaits g x then s
    else
      let y := if dOpcode x.slots = opSend ∨ dOpcode x.slots = opSendInline then { x with room := dRoom x.slots } else x
      (s.setHq g { q with fetch := some y }).hqBody g y

/-- Data read whole for a queue joins its fetch; a queue that no longer fetches discards it. -/
def State.hqDelivered (s : State) (g : Nat) (data : List Byte) : State :=
  let q := s.hq g
  match q.st, q.fetch with
  | 1, some x =>
    let b := x.slots
    let y := if b.length = 0 ∨ b.length / 64 < dSlots b then { x with slots := b ++ data }
      else if x.off + data.length < (dSegment b x.seg).2 then { x with data := x.data ++ data, off := x.off + data.length }
      else { x with data := x.data ++ data, seg := x.seg + 1, off := 0 }
    (s.setHq g { q with fetch := some y }).hqAdvance g
  | _, _ => s

/-! ### Offloads (R371) -/

/-- The ones' complement sum of 16-bit words, a last odd byte padded with zero. -/
def onesSum : List Byte → Nat → Nat
  | a :: b :: t, acc => onesSum t (acc + a.toNat * 256 + b.toNat)
  | [a], acc => acc + a.toNat * 256
  | [], acc => acc

def fold16 (n : Nat) : Nat := (n % 65536 + n / 65536) % 65536 + (n % 65536 + n / 65536) / 65536

/-- The Internet checksum of bytes. -/
def inetChecksum (l : List Byte) : Nat := 65535 - fold16 (fold16 (onesSum l 0))

/-- The frame with its offloads applied; `none` where an offset lies outside the frame or names neither
IPv4 nor IPv6. -/
def offload (b : List Byte) (data : List Byte) : Option (List Byte) :=
  let fl := dFlags b
  let d0 := if fl.testBit 4 then data.take 12 ++ natBE 2 0x8100 ++ natBE 2 (leAt b 2 2) ++ data.drop 12 else data
  let l3 := bitsAt (dWord b 2) 63 56
  let l4 := bitsAt (dWord b 2) 55 48
  let pos := l4 + bitsAt (dWord b 2) 47 40
  let ver := beAt d0 l3 1 / 16
  let ihl := beAt d0 l3 1 % 16 * 4
  if !fl.testBit 2 ∧ !fl.testBit 3 then some d0
  else if d0.length < l3 + 20 ∨ (ver ≠ 4 ∧ ver ≠ 6) ∨ (ver = 6 ∧ d0.length < l3 + 40) then none
  else
    let d1 := if fl.testBit 2 then
        if ver = 4 ∧ 20 ≤ ihl ∧ l3 + ihl ≤ d0.length then
          let h := bytesPut (bytesAt d0 l3 ihl) 10 [0, 0]
          some (bytesPut d0 (l3 + 10) (natBE 2 (inetChecksum h)))
        else none
      else some d0
    match d1 with
    | none => none
    | some d =>
      if !fl.testBit 3 then some d
      else
        let stop := if ver = 4 then l3 + beAt d (l3 + 2) 2 else l3 + 40 + beAt d (l3 + 4) 2
        if d.length < stop ∨ stop < pos + 2 ∨ stop < l4 then none
        else
          let n := stop - l4
          let pseudo := if ver = 4 then bytesAt d (l3 + 12) 8 ++ natBE 2 (beAt d (l3 + 9) 1) ++ natBE 2 n
            else bytesAt d (l3 + 8) 32 ++ natBE 4 n ++ natBE 4 (beAt d (l3 + 6) 1)
          let clear := bytesPut d pos [0, 0]
          some (bytesPut d pos (natBE 2 (inetChecksum (pseudo ++ bytesAt clear l4 n))))

/-! ### Completion of descriptors (R374, R378) -/

/-- A send completion of the descriptor at slot `index`: `time` as word 2, where there is one. -/
def State.sendComplete (s : State) (g index status flags tb : Nat) (cookie time : Word) : State :=
  s.hqComplete g [cqeWord0 1 status flags tb 0 index, cookie, time, 0, 0, 0, 0]

/-- The descriptor in the fetch leaves the ring: its slots are consumed. -/
def State.consumeSlots (s : State) (g : Nat) (b : List Byte) : State :=
  let q := s.hq g
  s.setHq g { q with sqCi := (q.sqCi + dSlots b) % 2 ^ 32, fetch := none }

/-- The queue number of a wait whose queue is gone: its tag stays outstanding. -/
abbrev noQueue : Nat := 0x100000

/-- Word 2 for a TB0 value. -/
def timeWord (v : Nat) : Word := BitVec.ofNat 64 (shortNs (quantise v) * 2 ^ 16 + shortFrac (quantise v))

/-- The transmit tag of a `TS_REQ` descriptor: one that is not outstanding; the spec does not say which,
so the search starts at a free value. -/
def State.pickTsTag (s : State) (e : Nat) : Nat × State :=
  let (v, s1) := s.takeFree
  ((((List.range 4096).map fun i => (v.toNat + i) % 4096).find? fun t =>
    !(s.hif.waits.any fun (w : TsWait) => w.engine == e && w.tag == t)).getD 0, s1)

/-- A `TS_REQ` descriptor of a queue begins its wait for the timestamp, with a tag of its own (R374). -/
def State.beginTsWait (s : State) (g index status : Nat) (cookie : Word) : Nat × State :=
  let (tag, s1) := s.pickTsTag (hqFn g / 1024)
  (tag, s1.withHif { s1.hif with waits := s1.hif.waits ++ [(⟨hqFn g / 1024, tag, g, index, cookie, status⟩ : TsWait)] })

/-- The waits of a queue that is gone: their tags stay outstanding, their completions are dropped. -/
def State.dropWaits (s : State) (g : Nat) : State :=
  s.withHif { s.hif with waits := s.hif.waits.map fun (w : TsWait) => if w.queue = g then { w with queue := noQueue } else w }

/-- A frame read whole is offloaded and presented to the arbour, and its descriptor completes, or waits
for its timestamp (R371, R372, R374). -/
def State.presentFrame (s : State) (g : Nat) (x : HifFetch) : State :=
  let b := x.slots
  let f := hqFn g
  let e := f / 1024
  let index := (s.hq g).sqCi
  let cookie := dWord b 1
  let (frame, status) := match offload b x.data with
    | some d => (d, 0)
    | none => (x.data, 3)
  let t := quantise x.time
  let s0 := (s.consumeSlots g b).wrapBy F.HIF_ARB_FRAMES_COUNT 1
  if dTsReq b then
    let (tag, s1) := s0.beginTsWait g index status cookie
    s1.storeFrame (16 + e) (framePrio frame 0) (fnTd s.plan f) frame (shortNs t) (shortFrac t + tag * 2 + 1) false
  else
    let s1 := s0.storeFrame (16 + e) (framePrio frame 0) (fnTd s.plan f) frame (shortNs t) (shortFrac t) false
    if dSignaled b then s1.sendComplete g index status 0 0 cookie (timeWord x.time) else s1

/-- The header of a carrier message (R373). -/
def carrierHeader (p : Plan) (f : Nat) (b : List Byte) (time : Nat) : List Word :=
  hSets hZero [(CH.kind, kMessage), (CH.td, fnTd p f), (CH.len, dLen b), (CH.srcEp, hifEp f),
    (CH.dstEp, bitsAt (dWord b 2) 63 48), (CH.dstQueue, bitsAt (dWord b 2) 47 24), (CH.ctx, bitsAt (dWord b 2) 23 0),
    (CH.timeNs, shortNs (quantise time)), (CH.timeFrac, shortFrac (quantise time)), (CH.offsets, 2 ^ 48 - 1),
    (CH.user, (dWord b 3).toNat)]

/-- The completion of a descriptor that no MAC reports for: with `TS_REQ` it waits for a transmit timestamp, which it
does not get (R374). DEDUCED (log entry 53). -/
def State.plainDone (s : State) (g index status : Nat) (x : HifFetch) : State :=
  if dTsReq x.slots ∧ status = 0 then (s.beginTsWait g index 0 (dWord x.slots 1)).2
  else if dSignaled x.slots then s.sendComplete g index status 0 0 (dWord x.slots 1) (timeWord x.time)
  else s

/-- A carrier message is injected, or its descriptor completes as refused (R373). -/
def State.sendMessage (s : State) (g : Nat) (x : HifFetch) : State :=
  let f := hqFn g
  let s1 := s.consumeSlots g x.slots
  let s2 := if x.refused then s1 else s1.send (hifEp f) ⟨carrierHeader s.plan f x.slots x.time, x.data, false⟩
  s2.plainDone g (s.hq g).sqCi (if x.refused then 1 else 0) x

/-- A NOP sends nothing and completes (R370). -/
def State.nopDone (s : State) (g : Nat) (x : HifFetch) : State := (s.consumeSlots g x.slots).plainDone g (s.hq g).sqCi 0 x

/-- What a descriptor does that has been read whole. -/
def State.wholeDone (s : State) (g : Nat) (x : HifFetch) : State :=
  if dOpcode x.slots = opSend ∨ dOpcode x.slots = opSendInline then s.presentFrame g x
  else if dOpcode x.slots = opSendCarrier then s.sendMessage g x
  else s.nopDone g x

/-- The descriptor that an ENABLED queue has read whole, if there is one, takes its effect. -/
def State.flushWhole (s : State) (g : Nat) : State :=
  match (s.hq g).st, (s.hq g).fetch with
  | 1, some x => if x.whole then s.wholeDone g x else s
  | _, _ => s

/-- A queue enters ERROR; a descriptor already read takes its effect and completes first (R383). -/
def State.hqErr (s : State) (g code : Nat) (entry : Bool) : State := (s.flushWhole g).hqErrorBase g code entry

/-- What the ECC check of a queue's state in its engine finds: a corrected error is reported through AER; an
uncorrectable one is recorded, and the queue enters ERROR with code 0x09 (R383, R390, Table 15-16). -/
def State.hqStateEcc (s : State) (g : Nat) (ecc : EccResult) : State :=
  match ecc with
  | .clean => s
  | .corrected => s.aerCorrected (hqFn g)
  | .uncorrectable => ((s.fault uHif 0x04 3 g).aer (hqFn g) aerInternal false).hqErr g 9 false

/-! ### Stops (R384, R385) -/

/-- Is a read of the queue outstanding? -/
def State.hqBusy (s : State) (g : Nat) : Bool := s.pcie.reqs.any fun (r : HostReq) => r.queue == g

/-- A queue is taken through STOPPING to DISABLED with its registers at reset values. -/
def State.hqResetQueue (s : State) (g : Nat) : State :=
  (s.dropWaits g).setHq g (if s.hqBusy g && (s.hq g).st != qDisabled then { hifReset g with st := qStopping } else hifReset g)

/-- The queues of a function that hold something. -/
def State.hqsOf (s : State) (f : Nat) : List Nat := (spKeys s.hif.queues).filter fun g => hqFn g == f

/-- Every entry of a function's indirection table returns to its queue 0. -/
def State.rssReset (s : State) (f : Nat) : State :=
  (List.range 128).foldl (fun (s : State) k =>
    s.sets [(F.ACM_IND_EVEN (128 * f + k), 256 * f), (F.ACM_IND_ODD (128 * f + k), 256 * f)]) s

/-- The queues of a function under a function level reset. -/
def State.hifFnReset (s : State) (f : Nat) : State := ((s.hqsOf f).foldl State.hqResetQueue s).rssReset f

/-- Clearing Bus Master Enable: each ENABLED queue enters ERROR with code 6. -/
def State.hifBusMasterOff (s : State) (f : Nat) : State := (s.hqsOf f).foldl (fun (s : State) g => s.hqErr g 6 false) s

/-- A wicket opening: each ENABLED queue of a function of another TD than 0 enters ERROR with code 8. -/
def State.hifWicket (s : State) : State :=
  (spKeys s.hif.queues).foldl (fun (s : State) g => if fnTd s.plan (hqFn g) ≠ 0 then s.hqErr g 8 true else s) s

end Sys2Proof.Machine
end

