-- ==== Sys2Proof/Machine/Hif.lean ====
section
/-! DEFINITION. The commands of the host queues (R362 to R390). -/

namespace Sys2Proof.Machine

/-! ### Queue control and doorbells (R366 to R368, R381, R384) -/

/-- Does the function hold queue blocks at all? -/
def fnHoldsQueues (p : Plan) (f : Nat) : Bool := fnPresent p f && decide (fnPersonality p f ≤ 1)

/-- A write to a queue's registers: `act` where the queue exists and its function is not under amendment (R55), function
error 2 where it is at or above the limit. -/
def State.hqAccess (s : State) (g : Nat) (act : State) : State :=
  if hqExists s.plan g then s.fnWrite uHif (hqFn g) act
  else if fnHoldsQueues s.plan (hqFn g) then s.fnError (hqFn g) 2 (hqLocal g)
  else s

/-- Is a ring size a legal one? -/
def ringLog2Ok (v : Nat) : Bool := v == 0 || (decide (6 ≤ v) && decide (v ≤ 16))

/-- ENABLE written to `HIF_Q_CTRL` (R367). -/
def State.hqEnable (s : State) (g : Nat) : State :=
  let f := hqFn g
  let q := s.hq g
  s.hqAccess g <|
    if q.st ≠ qDisabled then s.fnError f 6 (hqLocal g)
    else if (q.sqLog2 != 0 || q.rqLog2 != 0) && ringLog2Ok q.sqLog2 && ringLog2Ok q.rqLog2 &&
        q.cqLog2 != 0 && ringLog2Ok q.cqLog2 &&
        (decide (bitsAt q.cfg 10 0 < fnMsixSize s.plan f) || !bitAt q.cfg 12) && s.busMaster f then
      s.setHq g { q with
        st := qEnabled, sqPi := 0, sqCi := 0, rqPi := 0, rqCi := 0, cqPi := 0, cqCi := 0, armed := false, armAt := 0 }
    else s.fnError f 5 (hqLocal g)

/-- DISABLE (R384): a descriptor already read takes its effect; the queue becomes STOPPING. -/
def State.hqDisable (s : State) (g : Nat) : State :=
  s.hqAccess g <|
    if (s.hq g).st = qEnabled ∨ (s.hq g).st = qError then
      let s1 := s.flushWhole g
      s1.setHq g { s1.hq g with st := qStopping, fetch := none }
    else s.fnError (hqFn g) 6 (hqLocal g)

/-- STOPPING ends once no DMA of the queue is outstanding. -/
def State.hqStopped (s : State) (g : Nat) : State :=
  let q := s.hq g
  if q.st = qStopping ∧ !s.hqBusy g then
    (s.setHq g { q with st := qDisabled, err := 0 }).dropWaits g
  else s

def execQueueEnable (queue : Nat) (s : State) : Res := .next (s.hqEnable queue)
def execQueueDisable (queue : Nat) (s : State) : Res := .next (s.hqDisable queue)
def execQueueStopped (queue : Nat) (s : State) : Res := .next (s.hqStopped queue)

/-- Entries of a ring: none where it has size 0. -/
def ringSize (log2 : Nat) : Nat := if log2 = 0 then 0 else 2 ^ log2

/-- A doorbell of an ENABLED queue: the index, and the overrun check. -/
def State.hqRing (s : State) (g which : Nat) (v : Word) : State :=
  let q := s.hq g
  let x := bitsAt v 31 0
  if which = 0 then
    if ringSize q.sqLog2 < diff32 x q.sqCi then s.hqErr g 1 true else s.setHq g { q with sqPi := x }
  else if which = 1 then
    if ringSize q.rqLog2 < diff32 x q.rqCi then s.hqErr g 1 true else s.setHq g { q with rqPi := x }
  else if ringSize q.cqLog2 < diff32 q.cqPi x then s.hqErr g 1 true
  else if bitAt v 63 then (s.setHq g { q with cqCi := x, armed := true, armAt := x }).hqModerate g
  else s.setHq g { q with cqCi := x }

/-- A sleeping tile that is asked for work begins to wake (R15, R82, R387). -/
def State.wakeFor (s : State) (ep : Nat) : State :=
  let t := epTile ep
  if (s.tile t).sky ≠ 0 ∧ !(s.tile t).waking then s.startWake t else s

/-- A doorbell written (R368): held in Hold, ignored as function error 4 unless the queue is ENABLED. -/
def State.hqDoorbell (s : State) (g which : Nat) (v : Word) : State :=
  s.hqAccess g <|
    if s.epHeld (hifEp (hqFn g)) then s.withHif { s.hif with held := s.hif.held ++ [(g, which, v)] }
    else if (s.hq g).st ≠ qEnabled then s.fnError (hqFn g) 4 (hqLocal g)
    else (s.wakeFor (hifEp (hqFn g))).hqRing g which v

/-- Doorbells held are applied in arrival order once their engine has left Hold (R387). -/
def State.hqHeldApply (s : State) : State :=
  s.hif.held.foldl (fun (s : State) x => s.hqDoorbell x.1 x.2.1 x.2.2) (s.withHif { s.hif with held := [] })

def execHifDbSq (queue : Nat) (value : Word) (s : State) : Res := .next (s.hqDoorbell queue 0 value)
def execHifDbRq (queue : Nat) (value : Word) (s : State) : Res := .next (s.hqDoorbell queue 1 value)
def execHifDbCq (queue : Nat) (value : Word) (s : State) : Res := .next (s.hqDoorbell queue 2 value)

/-! ### The send path (R372 to R374) -/

/-- May the engine of a queue work? -/
def State.hqRuns (s : State) (g : Nat) : Bool :=
  s.ready && !s.epHeld (hifEp (hqFn g)) && (s.hq g).st == qEnabled

/-- Does a send ring ask for service: its engine may work, a descriptor is written, none is being fetched? -/
def State.hqWants (s : State) (g : Nat) : Bool :=
  s.hqRuns g && !s.hqBusy g && (s.hq g).fetch.isNone && (s.hq g).sqPi != (s.hq g).sqCi

/-- The send ring of an engine whose turn it is: of the rings that ask for service, the first from the turn's
start on, or else the first of all (R372). -/
def State.hqTurn (s : State) (e : Nat) : Option Nat :=
  let l := (spKeys s.hif.queues).filter fun g => hqFn g / 1024 == e && s.hqWants g
  match l.find? fun g => decide (spGet (fun _ => 0) s.hif.turn e ≤ g) with
  | some g => some g
  | none => l.head?

/-- The fetch of a ring's next descriptor begins, and the engine's turn passes on (R372). -/
def State.beginFetch (s : State) (g : Nat) : State :=
  ((s.withHif { s.hif with turn := spSet (fun _ => 0) s.hif.turn (hqFn g / 1024) (g + 1) }).setHq g
    { s.hq g with fetch := some ⟨[], [], 0, 0, false, false, 0, 0⟩ }).hqAdvance g

/-- The engine serves a send ring: a fetch begins where it is the ring's turn, or goes on where it had to wait for
a tag. `ecc`: what the check of the queue's state finds (R390). -/
def execSendFrameFetch (read : QueueRead) (s0 : State) : Res :=
  let s := if s0.hqRuns read.queue then s0.hqStateEcc read.queue read.ecc else s0
  let q := s.hq read.queue
  if !s.hqRuns read.queue ∨ s.hqBusy read.queue then .next s
  else
    match q.fetch with
    | some _ => .next (s.hqAdvance read.queue)
    | none =>
      if s.taking ∧ s.hqTurn (hqFn read.queue / 1024) = some read.queue then .next (s.beginFetch read.queue) else .next s

/-- The descriptor of an opcode that a queue has read whole. -/
def State.hqWhole (s : State) (g op : Nat) : Option HifFetch :=
  if s.hqRuns g then
    match (s.hq g).fetch with
    | some x => if x.whole && dOpcode x.slots == op then some x else none
    | none => none
  else none

def execDescSend (queue : Nat) (s : State) : Res :=
  match s.hqWhole queue opSend with
  | some x => .next (s.presentFrame queue x)
  | none => .next s

def execDescSendInline (queue : Nat) (s : State) : Res :=
  match s.hqWhole queue opSendInline with
  | some x => .next (s.presentFrame queue x)
  | none => .next s

def execSendCarrier (queue : Nat) (s : State) : Res :=
  match s.hqWhole queue opSendCarrier with
  | some x => .next (s.sendMessage queue x)
  | none => .next s

def execDescNop (queue : Nat) (s : State) : Res :=
  match s.hqWhole queue opNop with
  | some x => .next (s.nopDone queue x)
  | none => .next s

/-- The wait of a tag at an engine. -/
def State.tsWait (s : State) (engine tag : Nat) : Option TsWait :=
  s.hif.waits.find? fun (w : TsWait) => w.engine == engine && w.tag == tag

def State.dropWait (s : State) (engine tag : Nat) : State :=
  s.withHif { s.hif with waits := s.hif.waits.filter fun (w : TsWait) => !(w.engine == engine && w.tag == tag) }

/-- A wait ends with a completion, unless its queue has been disabled meanwhile. -/
def State.endTsWait (s : State) (w : TsWait) (status flags tb : Nat) (time : Word) : State :=
  let s1 := s.dropWait w.engine w.tag
  if w.queue = noQueue ∨ (s.hq w.queue).st = qDisabled then s1
  else s1.sendComplete w.queue w.index status flags tb w.cookie time

/-- Is the packet a transmit report? -/
def isTxReport (m : Packet) : Bool := hGet m.words CH.kind == kEvent && hGet m.words CH.opcode == 0x310

def execTxReportReceive (engine : Nat) (s : State) : Res :=
  let ep := 0x10 + engine
  match s.inboxOf ep with
  | m :: t =>
    if s.epHeld ep ∨ !isTxReport m then .next s
    else
      let s1 := s.setInbox ep t
      let op := hGet m.words CH.operand
      match s1.tsWait engine (op % 4096) with
      | some w => .next (s1.endTsWait w w.status 0x10 (natBits op 37 36) (m.words.getD 2 0))
      | none => .next s1
  | [] => .next s

/-- 10 ms have passed since the fetch; a report that has arrived is taken first (R386). -/
def execTimestampTimeout (engine tag : Nat) (s : State) : Res :=
  let ep := 0x10 + engine
  if s.epHeld ep ∨ (s.inboxOf ep).any (fun (m : Packet) => isTxReport m && hGet m.words CH.operand % 4096 == tag) then
    .next s
  else
    match s.tsWait engine tag with
    | some w => .next (s.endTsWait w 2 0 0 0)
    | none => .next s

/-- `MOD_USEC` has passed since the first pending entry of an armed queue (R381). -/
def execModerationTimer (queue : Nat) (s : State) : Res :=
  let q := s.hq queue
  if !s.epHeld (hifEp (hqFn queue)) ∧ q.armed ∧ 1 ≤ q.pendingCount ∧ bitsAt q.mod 31 16 ≠ 0 then
    .next ((s.setHq queue { q with armed := false }).hqInterrupt queue)
  else .next s

/-! ### Receiving (R375 to R377) -/

/-- The payload placed from the `k`-th descriptor on, each read from the bytes the host returns: an error
code or 0, descriptors used, bytes placed. -/
def State.placeReceive (s : State) (g : Nat) (descs : List Byte) (e : DmaEnd) (avail : Nat) :
    Nat → Nat → Nat → List Byte → Nat × Nat × Nat × State
  | 0, k, placed, _ => (0, k, placed, s)
  | fuel + 1, k, placed, data =>
    if avail ≤ k ∨ (data = [] ∧ k ≠ 0) then (0, k, placed, s)
    else
      let q := s.hq g
      let f := hqFn g
      let slot := q.rqBase.toNat + 16 * ((q.rqCi + k) % 2 ^ q.rqLog2)
      let (r, d, s1) := s.dmaRead f q.pasid slot 16 (descs.drop (16 * k)) e
      if r ≠ 0 then (r, k, placed, s1)
      else
        let n := leAt d 8 8
        if n = 0 ∨ 65536 ≤ n then (2, k, placed, s1)
        else
          let (ok, s2) := s1.dmaWrite f q.pasid false (leAt d 0 8) (data.take n)
          if !ok then (if s1.dmaAllowed f then 4 else 3, k, placed, s2)
          else s2.placeReceive g descs e avail fuel (k + 1) (placed + (data.take n).length) (data.drop n)

/-- What follows the placing of a packet in `used` receive descriptors: its completion, or error `r`. -/
def State.hqPlaced (s : State) (g : Nat) (m : Packet) (rqCi tb r used placed : Nat) : State :=
  let w := m.words
  if r ≠ 0 then s.hqErr g r true
  else
    let flag := fun (b : Bool) (n : Nat) => if b then n else 0
    let flags := flag (hGet w CH.kind == kPacket) 1 + flag (hGet w CH.trunc == 1 || decide (placed < m.payload.length)) 2 +
      flag (hGet w CH.copy == 1) 4 + flag (hGet w CH.mirror == 1) 8 + 16 + flag (hGet w CH.kind == kMessage) 32
    (s.setHq g { s.hq g with rqCi := (rqCi + used) % 2 ^ 32 }).hqComplete g
      [cqeWord0 2 0 flags tb (used - 1) rqCi, w.getD 3 0, w.getD 2 0,
       BitVec.ofNat 64 (hGet w CH.len * 2 ^ 48 + hGet w CH.srcEp * 2 ^ 32 + placed), w.getD 5 0, w.getD 7 0, 0]

/-- A packet that passes the receive checks is placed and its completion written. -/
def State.hqReceive (s : State) (g : Nat) (m : Packet) (descs : List Byte) (e : DmaEnd) : State :=
  let src := hGet m.words CH.srcEp
  let avail := min 16 (diff32 (s.hq g).rqPi (s.hq g).rqCi)
  let p := s.placeReceive g descs e avail avail 0 0 m.payload
  p.2.2.2.hqPlaced g m (s.hq g).rqCi (if src < 16 then portTb s src else 0) p.1 p.2.1 p.2.2.1

/-- A command of Table 14-8, which the rows HOST_READ, HOST_WRITE and HOST_INTR execute. -/
def isHostCommand (m : Packet) : Bool :=
  hGet m.words CH.kind == kCommand && decide (0x501 ≤ hGet m.words CH.opcode) && decide (hGet m.words CH.opcode ≤ 0x503)

/-- A refused host memory command: counted, recorded, completed with its status (R382). -/
def State.hostRefuse (s : State) (ep : Nat) (w : List Word) (status : Nat) : State :=
  ((s.count F.HIF_CMD_REFUSED_COUNT).fault uHif 0x03 2 (status * 2 ^ 32 + hGet w CH.dstQueue % 4096)).complete ep w status 0 []

/-- The checks of Table 14-6a on the header at the front, in order (R375). `ecc`: what the check of the named queue's
state finds (R390). -/
def execHifReceive (engine : Nat) (descs : List Byte) (x : SrcRead) (s : State) : Res :=
  let ep := 0x10 + engine
  match s.inboxOf ep with
  | [] => .next s
  | m :: t =>
    let w := m.words
    let kind := hGet w CH.kind
    let g := hGet w CH.dstQueue
    let f := g / 256
    if !s.ready ∨ s.epHeld ep ∨ isTxReport m ∨ isHostCommand m then .next s
    else if s.dmaWaits f then .next s
    else
      let s1 := s.setInbox ep t
      if kind = kVoid then .next s1
      else if kind ≠ kPacket ∧ kind ≠ kMessage ∧ kind ≠ kCommand then
        .next ((s1.count F.HIF_RX_DISCARD_COUNT).fault uHif 0x01 0 (g % 2 ^ 20))
      else if kind = kCommand then .next (s1.hostRefuse ep w 2)
      else if 2 ^ 20 ≤ g ∨ f / 1024 ≠ engine ∨ !hqExists s.plan g ∨ !s.fnEnabled f then
        .next (s1.count F.HIF_RX_DISCARD_COUNT)
      else if hGet w CH.td ≠ 0 ∧ hGet w CH.td ≠ fnTd s.plan f then .next (s1.count F.HIF_RX_DISCARD_COUNT)
      else
        let s2 := s1.hqStateEcc g x.ecc
        let q := s2.hq g
        if q.st ≠ qEnabled ∨ q.rqLog2 = 0 ∨ hGet w CH.poison = 1 ∨ m.poison ∨ q.rqPi = q.rqCi then
          .next (s2.setHq g { q with rxDrop := (q.rxDrop + 1) % 2 ^ 32 })
        else .next (s2.hqReceive g m descs x.dma)

/-! ### Host memory commands (R382) -/

/-- The command of an opcode at the front of an engine's inbox, with the rest. -/
def State.hostCommand (s : State) (engine op : Nat) : Option (Packet × State) :=
  let ep := 0x10 + engine
  match s.inboxOf ep with
  | m :: t =>
    if s.ready ∧ !s.epHeld ep ∧ isHostCommand m ∧ hGet m.words CH.opcode = op then some (m, s.setInbox ep t) else none
  | [] => none

/-- The refusal of a command, if any: not owned, or a bad format. `n` and the payload's length are checked by
`fits`. -/
def State.hostCheck (s : State) (engine : Nat) (m : Packet) (fits : Nat → Bool) : Nat :=
  let w := m.words
  let f := hGet w CH.dstQueue % 4096
  let b := m.payload
  if f / 1024 ≠ engine ∨ !fnPresent s.plan f ∨ !s.busMaster f ∨ hGet w CH.td ≠ fnTd s.plan f then 1
  else if hGet w CH.dstQueue ≥ 4096 ∨ b.length < 16 ∨ natBits (leAt b 12 4) 30 20 ≠ 0 ∨ !fits (leAt b 8 4) then 2
  else 0

/-- The PASID that a command's block names. -/
def blockPasid (b : List Byte) : Option Nat :=
  if (leAt b 12 4).testBit 31 then some (leAt b 12 4 % 2 ^ 20) else none

def execHostRead (engine : Nat) (data : List Byte) (e : DmaEnd) (s : State) : Res :=
  match s.hostCommand engine 0x501 with
  | none => .next s
  | some (m, s1) =>
    let ep := 0x10 + engine
    let b := m.payload
    let n := leAt b 8 4
    let st := s1.hostCheck engine m fun n => b.length == 16 && decide (1 ≤ n) && decide (n ≤ 65535)
    if st ≠ 0 then .next (s1.hostRefuse ep m.words st)
    else if m.poison ∨ hGet m.words CH.poison = 1 then .next (s1.complete ep m.words 3 0 [])
    else if s.dmaWaits (hGet m.words CH.dstQueue) then .next s
    else
      let (r, d, s2) := s1.dmaRead (hGet m.words CH.dstQueue) (blockPasid b) (leAt b 0 8) n data e
      .next (if r = 0 then s2.complete ep m.words 0 0 d else s2.complete ep m.words r 0 [])

def execHostWrite (engine : Nat) (s : State) : Res :=
  match s.hostCommand engine 0x502 with
  | none => .next s
  | some (m, s1) =>
    let ep := 0x10 + engine
    let b := m.payload
    let f := hGet m.words CH.dstQueue
    let st := s1.hostCheck engine m fun n => b.length == 16 + n && decide (1 ≤ n) && decide (n ≤ 65519)
    if st ≠ 0 then .next (s1.hostRefuse ep m.words st)
    else if m.poison ∨ hGet m.words CH.poison = 1 then .next (s1.complete ep m.words 3 0 [])
    else
      let (ok, s2) := s1.dmaWrite f (blockPasid b) true (leAt b 0 8) (b.drop 16)
      .next (s2.complete ep m.words (if ok then 0 else if s1.dmaAllowed f then 4 else 3) 0 [])

def execHostIntr (engine : Nat) (s : State) : Res :=
  match s.hostCommand engine 0x503 with
  | none => .next s
  | some (m, s1) =>
    let ep := 0x10 + engine
    let f := hGet m.words CH.dstQueue
    let v := hGet m.words CH.operand % 2048
    let st := s1.hostCheck engine m fun n => m.payload.length == 16 && n == 0 && decide (v < fnMsixSize s.plan (f % 4096))
    if st ≠ 0 then .next (s1.hostRefuse ep m.words st)
    else if m.poison ∨ hGet m.words CH.poison = 1 then .next (s1.complete ep m.words 3 0 [])
    else .next ((s1.raiseMsix f v).complete ep m.words 0 0 [])

/-! ### Load spreading, forced errors (R380, R383) -/

/-- `HIF_FN_RSS`k written: both entries in one step, or ignored whole with function error 3. -/
def State.fnRssWrite (s : State) (f k : Nat) (v : Word) : State :=
  let even := bitsAt v 7 0
  let odd := bitsAt v 39 32
  let n := fnQpLimit s.plan f
  if !fnHoldsQueues s.plan f then s
  else if s.fnAmended f then s.common uHif 0xFC
  else if n ≤ even then s.fnError f 3 even
  else if n ≤ odd then s.fnError f 3 odd
  else s.sets [(F.ACM_IND_EVEN (128 * f + k), 256 * f + even), (F.ACM_IND_ODD (128 * f + k), 256 * f + odd)]

def execHifFnRssWrite (fn k : Nat) (value : Word) (s : State) : Res := .next (s.fnRssWrite fn k value)

/-- `HIF_Q_FORCE` written: the selected queue enters ERROR with code 0x07; a queue that the plan does not provide is
refused (R21), and one under amendment (R55). -/
def execHifQForce (s : State) : Res :=
  let g := s.get F.HIF_Q_SEL_Q
  .next (if hqExists s.plan g then s.fnWrite uHif (hqFn g) (s.hqErr g 7 true) else s.common uHif 0xFE)

end Sys2Proof.Machine
end

