-- ==== Sys2Proof/Machine/HifPage.lean ====
section
/-! DEFINITION. The queue region of a function as its host sees it (R364 to R368). -/

namespace Sys2Proof.Machine

/-! ### Function control page (R365) -/

def State.fnInfo (s : State) (f : Nat) : Word :=
  BitVec.ofNat 64 (fnPersonality s.plan f * 2 ^ 48 + fnTd s.plan f * 2 ^ 32 + f * 2 ^ 16 + fnQpLimit s.plan f)

def State.fnErrOf (s : State) (f : Nat) : HifFnErr := spGet (fun _ => (⟨false, 0, 0, 0⟩ : HifFnErr)) s.hif.fnErr f
def State.setFnErr (s : State) (f : Nat) (e : HifFnErr) : State :=
  s.withHif { s.hif with fnErr := spSet (fun _ => ⟨false, 0, 0, 0⟩) s.hif.fnErr f e }

def State.fnPageRead (s : State) (f o : Nat) : Word × State :=
  let e := s.fnErrOf f
  if o = 0x000 then (s.fnInfo f, s)
  else if o = 0x008 then (BitVec.ofNat 64 ((if e.valid then 2 ^ 63 else 0) + e.code * 2 ^ 16 + e.queue), s)
  else if o = 0x010 then (BitVec.ofNat 64 e.count, s.setFnErr f { e with count := 0 })
  else if 0x800 ≤ o ∧ o < 0xC00 then
    let k := (o - 0x800) / 8
    (BitVec.ofNat 64 (s.get (F.ACM_IND_ODD (128 * f + k)) % 256 * 2 ^ 32 + s.get (F.ACM_IND_EVEN (128 * f + k)) % 256), s)
  else (0, s)

def State.fnPageWrite (s : State) (f o : Nat) (v : Word) : State :=
  let e := s.fnErrOf f
  if o = 0x008 then s.fnWrite uHif f (if bitAt v 63 then s.setFnErr f { e with valid := false } else s)
  else if 0x800 ≤ o ∧ o < 0xC00 then s.fnRssWrite f ((o - 0x800) / 8) v
  else s

/-! ### Queue blocks (R366) -/

/-- A register of a queue block as it reads. -/
def State.hqRegRead (s : State) (g o : Nat) : Word :=
  let q := s.hq g
  if o = 0x00 then BitVec.ofNat 64 (q.st * 2 ^ 60 + q.err * 2 ^ 48 + q.rxDrop * 2 ^ 16)
  else if o = 0x08 then q.sqBase
  else if o = 0x10 then q.rqBase
  else if o = 0x18 then q.cqBase
  else if o = 0x20 then q.sizes
  else if o = 0x28 then q.cfg
  else if o = 0x30 then q.mod
  else BitVec.ofNat 64 (q.sqCi * 2 ^ 32 + q.cqPi)

/-- Does a value hold only encodings of Table 14-3 and R579? -/
def hqRegOk (o : Nat) (v : Word) : Bool :=
  if o = 0x08 ∨ o = 0x10 ∨ o = 0x18 then v.toNat % 4096 == 0
  else if o = 0x20 then
    decide (6 ≤ bitsAt v 20 16) && decide (bitsAt v 20 16 ≤ 16) && ringLog2Ok (bitsAt v 12 8) && ringLog2Ok (bitsAt v 4 0)
  else true

/-- A write to one of the configuration registers, in DISABLED. -/
def State.hqRegSet (s : State) (g o : Nat) (v : Word) : State :=
  let q := s.hq g
  if o = 0x08 then s.setHq g { q with sqBase := v }
  else if o = 0x10 then s.setHq g { q with rqBase := v }
  else if o = 0x18 then s.setHq g { q with cqBase := v }
  else if o = 0x20 then s.setHq g { q with sizes := v &&& 0x1F1F1F }
  else s.setHq g { q with cfg := v &&& 0x800FFFFF000017FF }

def State.hqRegWrite (s : State) (g o : Nat) (v : Word) : State :=
  if o = 0x00 then
    if bitsAt v 1 0 = 1 then s.hqEnable g else if bitsAt v 1 0 = 2 then s.hqDisable g else s.common uHif 0xFF
  else if o = 0x30 then s.setHq g { s.hq g with mod := v &&& 0xFFFFFFFF }
  else if o = 0x38 then s
  else if (s.hq g).st ≠ qDisabled then s.fnError (hqFn g) 1 (hqLocal g)
  else if !hqRegOk o v then s.common uHif 0xFF
  else s.hqRegSet g o v

/-! ### The region (R364) -/

/-- The queue and the offset in its block or page that an offset of the region names. -/
def hqPlace (o : Nat) : Option (Nat × Nat × Bool) :=
  if 0x1000 ≤ o ∧ o < 0x5000 then some ((o - 0x1000) / 0x40, o % 0x40, false)
  else if 0x10000 ≤ o ∧ o < 0x110000 then some ((o - 0x10000) / 0x1000, o % 0x1000, true)
  else none

/-- A read of the queue region, at an offset that is a multiple of 8. -/
def State.hifPageRead (s : State) (f o : Nat) : Word × State :=
  if o < 0x1000 then s.fnPageRead f o
  else
    match hqPlace o with
    | some (i, r, false) => (if i < fnQpLimit s.plan f then s.hqRegRead (256 * f + i) r else 0, s)
    | _ => (0, s)

def State.hifPageWrite (s : State) (f o : Nat) (v : Word) : State :=
  if o < 0x1000 then s.fnPageWrite f o v
  else
    match hqPlace o with
    | some (i, r, false) => s.hqAccess (256 * f + i) (s.hqRegWrite (256 * f + i) r v)
    | some (i, r, true) =>
      if r ≤ 0x10 then s.hqAccess (256 * f + i) (s.hqDoorbell (256 * f + i) (r / 8) v)
      else if fnQpLimit s.plan f ≤ i then s.fnError f 2 i
      else s
    | none => s

end Sys2Proof.Machine
end

