-- ==== Sys2Proof/Machine/CphOps.lean ====
section
/-! DEFINITION. Cipher pairs: key slots and their cache, the requests in flight, their release and
their forwarding (R254 to R272, R537, R538). -/

namespace Sys2Proof.Machine

/-- The endpoint of a pair, and its tile. -/
def cphEp (p : Nat) : Nat := 0x20 + p
def cphTile (p : Nat) : Nat := epTile (cphEp p)

/-- A condition of CPH with the pair, queue and slot concerned (Table 10-13). -/
def State.cphFault (s : State) (cond pair queue slot : Nat) : State :=
  s.fault uCph cond (cond - 1) (pair % 32 * 2 ^ 32 + queue % 256 * 2 ^ 24 + slot % 2 ^ 20)

/-- Is the cipher domain in Hold, so that the key cache and the key operations stop (R272)? -/
def State.cphHeld (s : State) : Bool := (List.range 32).any fun p => s.epHeld (cphEp p)

def State.pairState (s : State) (p : Nat) : Nat := s.get (F.CPH_PAIR_STATE_STATE p)

/-! ### Key slots (R262, R263, R265) -/

def State.keyWays (s : State) (set : Nat) : List KeyWay := spGet (fun _ => []) s.cph.cache set
def State.setKeyWays (s : State) (set : Nat) (l : List KeyWay) : State :=
  s.withCph { s.cph with cache := spSet (fun _ => []) s.cph.cache set l }

def State.pinned (s : State) (slot : Nat) : Bool := spGet (fun _ => false) s.cph.pins slot

/-- The pin of a slot, and `CPH_PINNED`. -/
def State.setPin (s : State) (slot : Nat) (b : Bool) : State :=
  let pins := spSet (fun _ => false) s.cph.pins slot b
  (s.withCph { s.cph with pins := pins }).set F.CPH_PINNED_COUNT pins.length

/-- Pinned slots of a set. -/
def State.pinsOfSet (s : State) (set : Nat) : Nat := (s.cph.pins.filter fun x => x.1 % 1024 == set).length

/-- The epoch of the start. -/
def State.epoch (s : State) : List Byte :=
  natLE 8 (s.rd (R.WKT_EPOCH 0)).toNat ++ natLE 8 (s.rd (R.WKT_EPOCH 1)).toNat

/-- The slot-wrapping key (Table 20-1). -/
def State.slotKey (s : State) : List Byte := bytesAt (Config.rootHkdf (ascii "OW5120 SLOT WRAP" ++ s.epoch)) 0 32

/-- Device address of slot `n` (R262). -/
def State.slotAddr (s : State) (n : Nat) : Nat := unitByteAddr s.plan uCph (160 * n)

/-- A record as HBM holds it: header in clear, body and tag wrapped. -/
def State.wrapRecord (s : State) (n : Nat) (r : List Byte) : List Byte :=
  bytesAt r 0 16 ++ aeadSeal 2 s.slotKey (natLE 4 n ++ bytesAt r 8 8) (bytesAt r 0 16 ++ natLE 4 n) (bytesAt r 16 128)

/-- An empty record with the `WRAP_CTR` of the record read, which stands in clear. -/
def krEmptied (b : List Byte) : List Byte := krSetCtr krEmpty (krCtr b)

/-- A record read from HBM: empty; unwrapped; or `none` where its tag fails. -/
def State.unwrapRecord (s : State) (n : Nat) (b : List Byte) : Option (List Byte) :=
  if krState b = 0 then some (krEmptied b)
  else
    (aeadOpen 2 s.slotKey (natLE 4 n ++ bytesAt b 8 8) (bytesAt b 0 16 ++ natLE 4 n) (bytesAt b 16 128)
      (bytesAt b 144 16)).map fun body => bytesAt b 0 16 ++ body

/-- A record written to HBM, with `WRAP_CTR` + 1. -/
def State.storeRecord (s : State) (n : Nat) (r : List Byte) : State :=
  s.putBytes (s.slotAddr n) (s.wrapRecord n (krSetCtr r ((krCtr r + 1) % 2 ^ 64)))

/-- The cached way of a slot. -/
def State.cachedSlot (s : State) (n : Nat) : Option KeyWay := (s.keyWays (n % 1024)).find? fun w => w.slot == n

/-- The cached record of a slot replaced; the way becomes the most recently used. -/
def State.touchSlot (s : State) (n : Nat) (r : List Byte) (dirty : Bool) : State :=
  s.setKeyWays (n % 1024) (⟨n, r, dirty, false⟩ :: (s.keyWays (n % 1024)).filter fun w => w.slot != n)

/-- The least recently used way of a full set that is not pinned leaves, written back when its number
or window has changed. -/
def State.evictWay (s : State) (set : Nat) : State :=
  if (s.keyWays set).length < 16 then s
  else
    match (s.keyWays set).reverse.find? fun w => !s.pinned w.slot with
    | none => s
    | some w =>
      let s1 := s.setKeyWays set ((s.keyWays set).filter fun v => v.slot != w.slot)
      if w.dirty then s1.storeRecord w.slot w.record else s1

def State.setReqs (s : State) (l : List CphReq) : State := s.withCph { s.cph with reqs := l }

/-- The content of a slot: of the cache, or of HBM. -/
def State.slotRecord (s : State) (n : Nat) : List Byte :=
  match s.cachedSlot n with
  | some w => w.record
  | none => (s.unwrapRecord n (s.bytes (s.slotAddr n) 160)).getD (krEmptied (s.bytes (s.slotAddr n) 160))

/-- Requests in flight on a slot keep the content it has now, whatever a key commit makes of it (R264). -/
def State.keepOld (s : State) (n : Nat) : State :=
  let replaced := fun (r : CphReq) => r.admitted && r.slot == n && r.old == none
  if s.cph.reqs.any replaced then
    s.withCph { s.cph with
      reqs := s.cph.reqs.map fun (r : CphReq) => if replaced r then { r with old := some (s.cph.olds, s.slotRecord n) } else r
      olds := s.cph.olds + 1 }
  else s

/-- A slot changed by a key operation, in HBM and in the cache in one step (R264). -/
def State.writeSlot (s : State) (n : Nat) (r : List Byte) : State :=
  let s1 := (s.keepOld n).storeRecord n r
  match s.cachedSlot n with
  | some _ => s1.touchSlot n (krSetCtr r ((krCtr r + 1) % 2 ^ 64)) false
  | none => s1

/-- A key operation reads its slot: the record, and what it leaves recorded; one whose tag fails, or that is
poisoned, counts as not valid (R262). -/
def State.keyRead (s : State) (n : Nat) : List Byte × State :=
  match s.cachedSlot n with
  | some w => (w.record, s)
  | none =>
    let b := s.bytes (s.slotAddr n) 160
    match (if s.poisoned (s.slotAddr n) 160 then none else s.unwrapRecord n b) with
    | some r => (r, s)
    | none => (krEmptied b, s.cphFault 0x06 0 0 n)

/-! ### Release (R255, R258, R261) -/

/-- The completion of a command request (R258), released by `pair` and computed by `by_`. -/
def State.cphAnswer (s : State) (pair : Nat) (w : List Word) (status computed next outLen : Nat)
    (payload : List Byte) : State :=
  let h := unitCompletion w (cphEp pair) status 0 payload.length (s.timeNs 0) (s.timeFrac 0)
  let h1 := hSets h [(CH.dstQueue, hGet w CH.operand / 2 ^ 24), (CH.flowHash, hGet w CH.flowHash),
    (CH.actionRef, hGet w CH.actionRef), (CH.user, hGet w CH.user),
    (CH.operandLow, computed % 256 * 2 ^ 32 + next % 256 * 2 ^ 24 + outLen % 2 ^ 24)]
  s.send (cphEp pair) ⟨h1.set 4 (w.getD 4 0), payload, false⟩

/-- A refused or failed request: a command is answered, a packet dropped. -/
def State.cphRefuse (s : State) (pair : Nat) (packet : Bool) (w : List Word) (status : Nat) : State :=
  if packet then s.count F.CPH_PKT_DROP_COUNT else s.cphAnswer pair w status pair 0 0 []

/-- Is the request by its order the next of its queue to be released? -/
def firstOfQueue (l : List CphReq) (i : Nat) (q : Nat) : Bool := !(l.take i).any fun r => r.queue == q

/-- A refusal that waits its turn behind earlier requests of its queue, or is answered at once. -/
def State.cphRefuseInOrder (s : State) (pair queue : Nat) (packet : Bool) (w : List Word) (status : Nat) : State :=
  if packet ∨ !(s.cph.reqs.any fun r => r.queue == queue) then s.cphRefuse pair packet w status
  else s.setReqs (s.cph.reqs ++ [⟨queue, pair, false, false, w, 0, [], [], [], 0, [], 0, 2, status, 0, [], false, 0, 0, none, none⟩])

/-- A reference outside the partitions of the request's TD: MEM refuses it, and the pair fails the request with 0x06
(R257, R431, R434). -/
def State.cphAddrFault (s : State) (pair queue slot addr : Nat) : State :=
  (s.partViolation addr).cphFault 0x05 pair queue slot

/-- Is the output range of a request that stores its result still of its TD (R434)? -/
def State.cphDstOk (s : State) (r : CphReq) : Bool :=
  r.packet || !pbRef r.par || tdOwnsRange s.plan (hGet r.words CH.td) (pbDst r.par) r.output.length

/-- A request's result goes out: the output is written at `DST_ADDR`, carried by the completion, or
injected as a packet. -/
def State.cphEmit (s : State) (r : CphReq) : State :=
  if r.status ≠ 0 then s.cphRefuse r.pair r.packet r.words r.status
  else if !s.cphDstOk r then
    (s.cphAddrFault r.pair r.queue r.slot (pbDst r.par)).cphRefuse r.pair r.packet r.words 0x06
  else
    let s1 := s.wrapBy (F.CPH_PAIR_BYTES_COUNT r.pair) (pbText r.par)
    if r.packet then
      let data := r.pre ++ r.output
      s1.send (cphEp r.pair) ⟨hSets r.words [(CH.len, data.length),
        (CH.dstEp, r.nextEp), (CH.dstQueue, r.nextQueue),
        (CH.offsets, 2 ^ 40 - 1)], data, false⟩
    else if pbRef r.par then
      (s1.putBytes (pbDst r.par) r.output).cphAnswer r.pair r.words 0 r.pair r.next r.output.length []
    else s1.cphAnswer r.pair r.words 0 r.pair r.next r.output.length r.output

/-- The requests of the slot content that commit `k` replaced, after a number has been accepted there. -/
def oldUpdate (k : Nat) (rec1 : List Byte) (l : List CphReq) : List CphReq :=
  l.map fun r => match r.old with
    | some x => if x.1 = k then { r with old := some (k, rec1) } else r
    | none => r

/-- Does the slot's record in HBM fail: its tag, or poison in it (R262)? A cached slot is not read there. -/
def State.slotBad (s : State) (n : Nat) : Bool :=
  (s.cachedSlot n).isNone &&
  (s.poisoned (s.slotAddr n) 160 || (s.unwrapRecord n (s.bytes (s.slotAddr n) 160)).isNone)

/-- The check of an inbound number at release, and the update of the window, as one step, on the slot or on its old
content (R259, R264). A slot that has left the cache is read again; where that read fails, so does the request (R262). -/
def State.cphWindow (s : State) (r : CphReq) : CphReq × State :=
  if r.status ≠ 0 ∨ !opFramed r.op ∨ !opInbound r.op then (r, s)
  else if r.old = none ∧ s.slotBad r.slot then
    ({ r with status := 0x03 }, s.cphFault 0x06 r.pair r.queue r.slot)
  else
    let rec0 := match r.old with | some x => x.2 | none => s.slotRecord r.slot
    if seqSeen rec0 r.seq then
      ({ r with status := 0x0A }, s.count F.CPH_REPLAY_COUNT)
    else
      let rec1 := windowUpdate rec0 r.seq
      (r, match r.old with
        | some x => s.setReqs (oldUpdate x.1 rec1 s.cph.reqs)
        | none => match s.cachedSlot r.slot with
          | some _ => s.touchSlot r.slot rec1 true
          | none => s.storeRecord r.slot rec1)

/-! ### Forwarding (R268) -/

/-- The pair that serves a queue: its alternate while the queue is on it. -/
def State.servingPair (s : State) (q : Nat) : Nat :=
  if s.get (F.CPH_Q_STATE_ON_ALT q) = 1 then cphQAlt s.plan q else cphQPair s.plan q

/-- The payload with which a request arrived. -/
def CphReq.payload (r : CphReq) : List Byte :=
  if r.packet then r.pre ++ r.input else if r.admitted && pbRef r.par then r.par else r.par ++ r.input

/-- Does pair `p` forward the requests of queue `q` to its alternate: one that is not QUARANTINED too? At an alternate in
TESTING they wait at its front end. -/
def State.cphForwards (s : State) (p q : Nat) : Bool :=
  cphQPair s.plan q == p && cphQAlt s.plan q != 0xFF && s.pairState (cphQAlt s.plan q) != 1

/-- An unfinished request at pair `p`, which left SERVICE: it crosses to the alternate of its queue, or ends with
0x07. -/
def State.cphForwardReq (s : State) (p : Nat) (r : CphReq) : CphReq :=
  if r.pair ≠ p ∨ 2 ≤ r.phase then r
  else if s.cphForwards p r.queue then { r with pair := cphQAlt s.plan r.queue, phase := 3 }
  else { r with phase := 2, status := 0x07 }

/-- The header of a forwarded request, sent by pair `p` with its `SRC_EP` kept. -/
def State.cphSendAcross (s : State) (p : Nat) (r : CphReq) : State :=
  s.send (cphEp p) ⟨hSets r.words [(CH.dstEp, cphEp (cphQAlt s.plan r.queue))], r.payload, false⟩

/-- A pair enters QUARANTINED from SERVICE: its queues go to their alternates, with its requests in admission
order. -/
def State.quarantine (s : State) (p : Nat) : State :=
  let s1 := s.sets [(F.CPH_PAIR_STATE_STATE p, 1), (F.CPH_PAIR_STATE_TEST_PASS p, 0)]
  let s2 := (List.range 256).foldl (fun (s : State) q =>
    if cphQPresent s.plan q ∧ cphQPair s.plan q = p ∧ cphQAlt s.plan q ≠ 0xFF then s.set (F.CPH_Q_STATE_ON_ALT q) 1 else s) s1
  let leaving := s2.cph.reqs.filter fun (r : CphReq) => r.pair == p && decide (r.phase < 2) && s2.cphForwards p r.queue
  leaving.foldl (fun (s : State) r => s.cphSendAcross p r) (s2.setReqs (s2.cph.reqs.map (s2.cphForwardReq p)))

/-- A cipher tile that has been retired leaves service (R556). -/
def State.quarantineIfRetired (s : State) (p : Nat) : State :=
  if (s.tile (cphTile p)).retired ∧ s.pairState p = 0 then s.quarantine p else s

/-! ### Ends of other modes (R272) -/

/-- Is the arriving header that of a request on its way to its alternate? Delivery writes `WAKE` anew (R76). -/
def crossingHeader (p : Nat) (m : Packet) (r : CphReq) : Bool :=
  r.phase == 3 && r.pair == p && r.payload == m.payload &&
  hSets r.words [(CH.dstEp, 0), (CH.wake, 0)] == hSets m.words [(CH.dstEp, 0), (CH.wake, 0)]

/-- Has a crossing request arrived at its alternate's front end? -/
def State.cphArrived (s : State) (r : CphReq) : Bool := (s.inboxOf (cphEp r.pair)).any fun m => crossingHeader r.pair m r

/-- A wicket opening ends a request: at once; one whose header is still on its way, and every later one of its queue,
when its turn comes after that header's arrival (R255, R268). -/
def State.cphEndReq (before s : State) (r : CphReq) : State :=
  let fails := { r with admitted := true, record := [], old := none, status := 0x03 }
  if r.phase = 3 ∧ !before.cphArrived r then s.setReqs (s.cph.reqs ++ [fails])
  else if s.cph.reqs.any fun x => x.queue == r.queue then s.setReqs (s.cph.reqs ++ [{ fails with phase := 2 }])
  else s.cphRefuse r.pair r.packet r.words 0x03

/-- A wicket opening ends a request that waits at a front end; one that crossed has been ended among the admitted. -/
def State.cphEndWaiting (before : State) (p : Nat) (s : State) (m : Packet) : State :=
  let kind := hGet m.words CH.kind
  if (kind ≠ kCommand ∧ kind ≠ kPacket) ∨ before.cph.reqs.any (crossingHeader p m) then s
  else s.cphRefuseInOrder p (hGet m.words CH.dstQueue) (kind == kPacket) m.words 0x03

/-- The slot store's bytes in HBM: every slot's record, to the end of its last granule. -/
abbrev slotStoreBytes : Nat := 167772160

/-- A wicket opening: every admitted and queued request completes with 0x03, or is dropped; then the
slot store, the cache and every tenant wrapping key are zeroed, the store in the zero map (R440). -/
def State.cphErase (s : State) : State :=
  let s1 := s.cph.reqs.foldl (State.cphEndReq s) (s.setReqs [])
  let s2 := (List.range 32).foldl (fun (s1 : State) p =>
    ((s.inboxOf (cphEp p)).foldl (State.cphEndWaiting s p) s1).setInbox (cphEp p) []) s1
  let s3 : State := s2.withCph { s2.cph with cache := [], pins := [], twks := [] }
  (match unitPartition s3.plan uCph with
   | some x => s3.zeroRange x.1 slotStoreBytes
   | none => s3).set F.CPH_PINNED_COUNT 0

end Sys2Proof.Machine
end

