-- ==== Sys2Proof/Machine/TeWire.lean ====
section
/-! DEFINITION. RoCEv2 packets on the wire (R278, R300, R301): building, ICRC, parsing. The formats come
from the InfiniBand Architecture Specification, which the manual cites. -/

namespace Sys2Proof.Machine

/-! ### CRC32 and ICRC -/

def crc32Byte (c : BitVec 32) (b : Byte) : BitVec 32 :=
  (List.range 8).foldl (fun (c : BitVec 32) _ => if c.getLsbD 0 then (c >>> 1) ^^^ 0xEDB88320#32 else c >>> 1)
    (c ^^^ b.zeroExtend 32)

/-- The Ethernet CRC32 of a byte string. -/
def crc32 (l : List Byte) : Nat := 2 ^ 32 - 1 - (l.foldl crc32Byte 0xFFFFFFFF#32).toNat

def bFF : Byte := 0xFF

/-- The Internet checksum over 16-bit words. -/
def sum16 : List Byte → Nat → Nat
  | a :: b :: t, acc => sum16 t (acc + a.toNat * 256 + b.toNat)
  | [a], acc => acc + a.toNat * 256
  | [], acc => acc
def ipChecksum (l : List Byte) : Nat :=
  let f := fun (n : Nat) => n % 65536 + n / 65536
  65535 - f (f (sum16 l 0))

/-- The IP header with the fields masked that the ICRC leaves out. -/
def icrcIp (ip : List Byte) : List Byte :=
  if (beAt ip 0 1) / 16 = 4 then bytesPut (bytesPut (bytesPut ip 1 [bFF]) 8 [bFF]) 10 [bFF, bFF]
  else bytesPut (bytesPut ip 0 [0x6F, bFF, bFF, bFF]) 7 [bFF]

/-- The ICRC over IP and UDP headers and all that follows, `rest` starting with the BTH. -/
def icrcOf (ip udp rest : List Byte) : Nat :=
  crc32 (List.replicate 8 bFF ++ icrcIp ip ++ bytesPut udp 6 [bFF, bFF] ++ bytesPut rest 4 [bFF])

/-! ### Addresses -/

/-- Is an address an IPv4 one, ::ffff:a.b.c.d? -/
def isV4 (a : Nat) : Bool := a / 2 ^ 32 == 0xFFFF

/-- An IP header for a payload of `n` bytes of protocol `proto`: ECN is ECT(0). -/
def ipHeader (src dst dscp hop proto n : Nat) : List Byte :=
  if isV4 dst then
    let h := natBE 1 0x45 ++ natBE 1 (dscp * 4 + 2) ++ natBE 2 (20 + n) ++ natBE 2 0 ++ natBE 2 0x4000 ++ natBE 1 hop ++
      natBE 1 proto ++ natBE 2 0 ++ natBE 4 (src % 2 ^ 32) ++ natBE 4 (dst % 2 ^ 32)
    bytesPut h 10 (natBE 2 (ipChecksum h))
  else
    natBE 4 (6 * 2 ^ 28 + (dscp * 4 + 2) * 2 ^ 20) ++ natBE 2 n ++ natBE 1 proto ++ natBE 1 hop ++ natBE 16 src ++ natBE 16 dst

def ethHeader (dmac smac dst : Nat) : List Byte :=
  natBE 6 dmac ++ natBE 6 smac ++ natBE 2 (if isV4 dst then 0x0800 else 0x86DD)

/-- The six offsets of word 5 for a frame that a unit builds with an Ethernet and an IP header (R75): `OFF_L4` is the
header after IP, `OFF_PAY` what follows that header; no inner headers (DEDUCED, log entry 141). -/
def frameOffsets (frame : List Byte) : Nat :=
  let v4 := beAt frame 12 2 = 0x0800
  let l4 := if v4 then 34 else 54
  let proto := beAt frame (if v4 then 23 else 20) 1
  let pay := l4 + (if proto = 6 then beAt frame (l4 + 12) 1 / 16 * 4 else 8)
  7 * 2 ^ 32 + l4 / 2 * 2 ^ 24 + 0xFFFF * 2 ^ 8 + pay / 2

/-- A BTH with the migrated state, the padding count, and the P_Key. -/
def bth (op : Nat) (se : Bool) (pad pkey qpn : Nat) (ack : Bool) (psn : Nat) : List Byte :=
  natBE 1 op ++ natBE 1 ((if se then 128 else 0) + 64 + pad * 16) ++ natBE 2 pkey ++ natBE 1 0 ++ natBE 3 qpn ++
    natBE 1 (if ack then 128 else 0) ++ natBE 3 psn

def padOf (n : Nat) : Nat := (4 - n % 4) % 4

/-- The UDP datagram of a packet, with its ICRC. -/
def roceUdp (ipOf : Nat → List Byte) (sport : Nat) (rest : List Byte) : List Byte :=
  let n := 8 + rest.length + 4
  let udp := natBE 2 sport ++ natBE 2 4791 ++ natBE 2 n ++ natBE 2 0
  udp ++ rest ++ natLE 4 (icrcOf (ipOf n) udp rest)

/-! ### Extension headers -/

def reth (va key len : Nat) : List Byte := natBE 8 va ++ natBE 4 key ++ natBE 4 len
def aeth (syndrome msn : Nat) : List Byte := natBE 1 syndrome ++ natBE 3 (msn % 2 ^ 24)
def atomicEth (va key swap cmp : Nat) : List Byte := natBE 8 va ++ natBE 4 key ++ natBE 8 swap ++ natBE 8 cmp

/-- The placement header (Table 11-11). -/
def placement (msn flags len off imm va key path : Nat) : List Byte :=
  natBE 3 (msn % 2 ^ 24) ++ natBE 1 flags ++ natBE 4 len ++ natBE 4 off ++ natBE 4 imm ++ natBE 8 va ++ natBE 4 key ++
    natBE 2 path ++ natBE 2 0

/-! ### Parsing -/

/-- Offset of the EtherType, VLAN tags skipped. -/
def etherTypeAt (f : List Byte) : Nat :=
  let tagged := fun (o : Nat) => beAt f o 2 == 0x8100 || beAt f o 2 == 0x88A8
  if tagged 12 then (if tagged 16 then 20 else 16) else 12

/-- Start of the IP header, its length, its protocol, and its version; 0 where it is no IP packet. -/
def ipAt (f : List Byte) : Nat × Nat × Nat × Nat :=
  let t := etherTypeAt f
  let o := t + 2
  if beAt f t 2 = 0x0800 ∧ beAt f o 1 / 16 = 4 then (o, beAt f o 1 % 16 * 4, beAt f (o + 9) 1, 4)
  else if beAt f t 2 = 0x86DD ∧ beAt f o 1 / 16 = 6 then (o, 40, beAt f (o + 6) 1, 6)
  else (o, 0, 0, 0)

/-- Source and destination address. -/
def ipAddrs (f : List Byte) : Nat × Nat :=
  let (o, _, _, v) := ipAt f
  if v = 4 then (0xFFFF * 2 ^ 32 + beAt f (o + 12) 4, 0xFFFF * 2 ^ 32 + beAt f (o + 16) 4)
  else (beAt f (o + 8) 16, beAt f (o + 24) 16)

/-- The ECN field. -/
def ipEcn (f : List Byte) : Nat :=
  let (o, _, _, v) := ipAt f
  if v = 4 then beAt f (o + 1) 1 % 4 else beAt f o 2 / 16 % 4

/-- The IP header as sent, where ESP has been removed: protocol UDP, length of what follows (R280). -/
def ipBare (ip : List Byte) (v proto n : Nat) : List Byte :=
  if proto = 17 then ip
  else if v = 4 then bytesPut (bytesPut ip 2 (natBE 2 (ip.length + n))) 9 [17]
  else bytesPut (bytesPut ip 4 (natBE 2 n)) 6 [17]

/-- A frame read as a RoCEv2 packet; `none` where it is none. -/
def parseRoce (f : List Byte) : Option RoceIn :=
  let (o, ihl, proto, v) := ipAt f
  let l4 := o + ihl
  let n := beAt f (l4 + 4) 2
  if v = 0 ∨ ihl < 20 ∨ (proto ≠ 17 ∧ proto ≠ 50) ∨ beAt f (l4 + 2) 2 ≠ 4791 ∨ n < 24 ∨ f.length < l4 + n then none
  else
    let b := l4 + 8
    let rest := bytesAt f b (n - 12)
    let ip := bytesAt f o ihl
    let pad := beAt f (b + 1) 1 / 16 % 4
    some {
      good := icrcOf (ipBare ip v proto n) (bytesAt f l4 8) rest == leAt f (l4 + n - 4) 4 && decide (12 + pad ≤ rest.length)
      ver := beAt f (b + 1) 1 % 16
      dst := (ipAddrs f).2
      ce := ipEcn f == 3
      op := beAt f b 1
      qpn := beAt f (b + 5) 3
      psn := beAt f (b + 9) 3
      pkey := beAt f (b + 2) 2
      ack := (beAt f (b + 8) 1).testBit 7
      se := (beAt f (b + 1) 1).testBit 7
      body := bytesAt rest 12 (rest.length - 12 - pad)
      grh := if v = 4 then List.replicate 20 0 ++ bytesAt ip 0 20 else bytesAt ip 0 40 }

/-! ### Sequence numbers -/

abbrev psnMod : Nat := 2 ^ 24
/-- (a − b) mod 2²⁴. -/
def psnDiff (a b : Nat) : Nat := (a + psnMod - b % psnMod) % psnMod
def psnAdd (a n : Nat) : Nat := (a + n) % psnMod

/-! ### Opcodes -/

/-- Payload bytes of path MTU code `c`. -/
def pmtuBytes (c : Nat) : Nat := 128 * 2 ^ c

/-- Packets of a message. -/
def packetsOf (len mtu : Nat) : Nat := max 1 ((len + mtu - 1) / mtu)

/-- Transport bits of the BTH opcode for a QP type. -/
def transportBits (ty : Nat) : Nat := if ty = 0 then 0 else if ty = 1 then 0x20 else if ty = 2 then 0x60 else 0xA0

/-- The low five bits of the opcode of packet number `i` of `n` of a SEND (1), SEND_IMM (2), SEND_INV (3),
WRITE (4) or WRITE_IMM (5). -/
def sendOpcode (op i n : Nat) : Nat :=
  let first := i == 0
  let last := i + 1 == n
  if op ≤ 3 then
    if first && last then (if op = 1 then 4 else if op = 2 then 5 else 23)
    else if first then 0 else if !last then 1 else if op = 1 then 2 else if op = 2 then 3 else 22
  else if first && last then (if op = 4 then 10 else 11)
  else if first then 6 else if !last then 7 else if op = 4 then 8 else 9

abbrev loIsFirst (l : Nat) : Bool := [0, 4, 5, 6, 10, 11, 23].contains l
abbrev loIsLast (l : Nat) : Bool := [2, 3, 4, 5, 8, 9, 10, 11, 22, 23].contains l
abbrev loIsSend (l : Nat) : Bool := decide (l ≤ 5) || l == 22 || l == 23
abbrev loIsWrite (l : Nat) : Bool := decide (6 ≤ l) && decide (l ≤ 11)
abbrev loHasImm (l : Nat) : Bool := [3, 5, 9, 11].contains l
abbrev loHasInv (l : Nat) : Bool := l == 22 || l == 23
abbrev loHasReth (l : Nat) : Bool := [6, 10, 11, 12].contains l

/-- The sender's opcode (Table 11-9) that a last packet completes. -/
def loOp (l : Nat) : Nat :=
  if loHasInv l then 3 else if l = 3 ∨ l = 5 then 2 else if l = 9 ∨ l = 11 then 5 else if loIsWrite l then 4 else 1

end Sys2Proof.Machine
end

