-- ==== Sys2Proof/Machine/TeOps.lean ====
section
/-! DEFINITION. Transport engines: contexts, keys, completions, acknowledgement and the ERROR state of a QP
(R275 to R292, R299, R307, R308). -/

namespace Sys2Proof.Machine

/-! ### Contexts in the TE partition (Tables 11-2, 11-4, 11-6) -/

def State.teW (s : State) (base w : Nat) : Word :=
  BitVec.ofNat 64 (leNat (s.bytes (unitByteAddr s.plan uTe (base + 8 * w)) 8))
def State.teF (s : State) (base : Nat) (f : ChField) : Nat := bitsAt (s.teW base f.word) f.hi f.lo
def State.teSetW (s : State) (base w : Nat) (v : Word) : State :=
  s.putBytes (unitByteAddr s.plan uTe (base + 8 * w)) (natLE 8 v.toNat)
def State.teSetF (s : State) (base : Nat) (f : ChField) (v : Nat) : State :=
  s.teSetW base f.word (setBits (s.teW base f.word) f.hi f.lo v)

def qpBase (c : Nat) : Nat := 256 * c
def mrBase (i : Nat) : Nat := 0x40000000 + 64 * i
def srqBase (i : Nat) : Nat := 0xA0000000 + 128 * i
def cqBase (i : Nat) : Nat := 0xA0800000 + 64 * i

namespace QC
abbrev state : ChField := ⟨0, 63, 60⟩
abbrev type : ChField := ⟨0, 59, 57⟩
abbrev delivery : ChField := ⟨0, 56, 56⟩
abbrev pmtu : ChField := ⟨0, 55, 52⟩
abbrev td : ChField := ⟨0, 51, 40⟩
abbrev fn : ChField := ⟨0, 39, 28⟩
abbrev localQpn : ChField := ⟨0, 23, 0⟩
abbrev destQpn : ChField := ⟨1, 63, 40⟩
abbrev pd : ChField := ⟨1, 39, 16⟩
abbrev pkey : ChField := ⟨1, 15, 0⟩
abbrev nextPsn : ChField := ⟨2, 63, 40⟩
abbrev unaPsn : ChField := ⟨2, 39, 16⟩
abbrev retryCnt : ChField := ⟨2, 15, 12⟩
abbrev retryLeft : ChField := ⟨2, 11, 8⟩
abbrev rnrRetry : ChField := ⟨2, 7, 4⟩
abbrev rnrLeft : ChField := ⟨2, 3, 0⟩
abbrev epsn : ChField := ⟨3, 63, 40⟩
abbrev msn : ChField := ⟨3, 39, 16⟩
abbrev timeout : ChField := ⟨3, 15, 11⟩
abbrev minRnr : ChField := ⟨3, 7, 0⟩
abbrev sqBase : ChField := ⟨4, 63, 0⟩
abbrev rqBase : ChField := ⟨5, 63, 0⟩
abbrev sqPi : ChField := ⟨6, 63, 48⟩
abbrev sqCi : ChField := ⟨6, 47, 32⟩
abbrev rqPi : ChField := ⟨6, 31, 16⟩
abbrev rqCi : ChField := ⟨6, 15, 0⟩
abbrev sqLog2 : ChField := ⟨7, 63, 59⟩
abbrev rqLog2 : ChField := ⟨7, 58, 54⟩
abbrev sqCq : ChField := ⟨7, 47, 24⟩
abbrev rqCq : ChField := ⟨7, 23, 0⟩
abbrev srqEn : ChField := ⟨8, 63, 63⟩
abbrev srq : ChField := ⟨8, 55, 40⟩
abbrev xrcd : ChField := ⟨8, 39, 16⟩
abbrev mpBlock : ChField := ⟨9, 63, 46⟩
abbrev pathsM1 : ChField := ⟨9, 45, 40⟩
abbrev sportBase : ChField := ⟨9, 39, 24⟩
abbrev ccProfile : ChField := ⟨9, 23, 21⟩
abbrev egressPort : ChField := ⟨9, 19, 16⟩
abbrev leaf : ChField := ⟨9, 15, 0⟩
abbrev dscp : ChField := ⟨14, 63, 58⟩
abbrev hopLimit : ChField := ⟨14, 55, 48⟩
abbrev destMac : ChField := ⟨14, 47, 0⟩
abbrev rdAtomic : ChField := ⟨15, 63, 60⟩
abbrev destRdAtomic : ChField := ⟨15, 59, 56⟩
abbrev reorderUs : ChField := ⟨15, 55, 40⟩
abbrev qkey : ChField := ⟨15, 31, 0⟩
abbrev rateCur : ChField := ⟨16, 63, 32⟩
abbrev rateTgt : ChField := ⟨16, 31, 0⟩
abbrev espEn : ChField := ⟨17, 63, 63⟩
abbrev cphQueue : ChField := ⟨17, 55, 48⟩
abbrev espSlot : ChField := ⟨17, 43, 24⟩
end QC

namespace MR
abbrev valid : ChField := ⟨0, 63, 63⟩
abbrev kind : ChField := ⟨0, 62, 60⟩
abbrev gen : ChField := ⟨0, 59, 52⟩
abbrev td : ChField := ⟨0, 51, 40⟩
abbrev pd : ChField := ⟨0, 39, 16⟩
abbrev access : ChField := ⟨0, 15, 8⟩
abbrev loc : ChField := ⟨0, 7, 7⟩
abbrev fn : ChField := ⟨1, 63, 52⟩
abbrev pasid : ChField := ⟨1, 51, 32⟩
abbrev pasidEn : ChField := ⟨1, 31, 31⟩
abbrev boundQp : ChField := ⟨1, 23, 0⟩
abbrev vaBase : ChField := ⟨2, 63, 0⟩
abbrev length : ChField := ⟨3, 63, 0⟩
abbrev iova : ChField := ⟨4, 63, 0⟩
abbrev parent : ChField := ⟨5, 23, 0⟩
end MR

namespace SR
abbrev state : ChField := ⟨0, 63, 60⟩
abbrev tmEn : ChField := ⟨0, 59, 59⟩
abbrev pd : ChField := ⟨0, 39, 16⟩
abbrev limit : ChField := ⟨0, 15, 0⟩
abbrev base : ChField := ⟨1, 63, 0⟩
abbrev log2 : ChField := ⟨2, 63, 59⟩
abbrev tagCq : ChField := ⟨2, 47, 24⟩
abbrev postedMax : ChField := ⟨3, 31, 16⟩
abbrev unexpMax : ChField := ⟨3, 15, 0⟩
abbrev xrcd : ChField := ⟨4, 23, 0⟩
end SR

namespace CQ
abbrev log2 : ChField := ⟨0, 59, 55⟩
abbrev vector : ChField := ⟨0, 10, 0⟩
abbrev base : ChField := ⟨1, 63, 0⟩
abbrev count : ChField := ⟨2, 31, 0⟩
abbrev armed : ChField := ⟨3, 63, 63⟩
abbrev solicitedOnly : ChField := ⟨3, 62, 62⟩
abbrev modCount : ChField := ⟨3, 31, 16⟩
abbrev modUs : ChField := ⟨3, 15, 0⟩
end CQ

/-- A field of QP context `c`. -/
def State.qc (s : State) (c : Nat) (f : ChField) : Nat := s.teF (qpBase c) f
def State.setQc (s : State) (c : Nat) (f : ChField) (v : Nat) : State := s.teSetF (qpBase c) f v
def State.mr (s : State) (i : Nat) (f : ChField) : Nat := s.teF (mrBase i) f
def State.setMr (s : State) (i : Nat) (f : ChField) (v : Nat) : State := s.teSetF (mrBase i) f v
def State.srqF (s : State) (i : Nat) (f : ChField) : Nat := s.teF (srqBase i) f
def State.cqF (s : State) (i : Nat) (f : ChField) : Nat := s.teF (cqBase i) f

def State.destIp (s : State) (c : Nat) : Nat := (s.teW (qpBase c) 11).toNat * 2 ^ 64 + (s.teW (qpBase c) 10).toNat
def State.srcIp (s : State) (c : Nat) : Nat := (s.teW (qpBase c) 13).toNat * 2 ^ 64 + (s.teW (qpBase c) 12).toNat

/-! ### Engine state -/

def teQpReset (_ : Nat) : TeQp :=
  { sqStart := 0, tx := [], pkts := [], rnr := false, rx := [], nak := false, replay := [], txMsn := 0, nextId := 0, seen := [],
    unacked := 0, cnpAt := none, alpha := 65535, stage := 0, bytes := 0, off := [], esp := [], resp := [],
    holding := false, drained := false, est := false, late := [] }
def State.teQp (s : State) (c : Nat) : TeQp := spGet teQpReset s.te.qps c
def State.setTeQp (s : State) (c : Nat) (q : TeQp) : State :=
  s.withTe { s.te with qps := spSet teQpReset s.te.qps c q }

def teCqReset (_ : Nat) : TeCq := { fn := 0, pi := 0, ci := 0, err := false, pend := 0, since := 0 }
def State.teCq (s : State) (i : Nat) : TeCq := spGet teCqReset s.te.cqs i
def State.setTeCq (s : State) (i : Nat) (q : TeCq) : State := s.withTe { s.te with cqs := spSet teCqReset s.te.cqs i q }

def teSrqReset (_ : Nat) : TeSrq := { fn := 0, pi := 0, ci := 0, plain := [], posted := [], unexp := [], nextId := 0 }
def State.teSrq (s : State) (i : Nat) : TeSrq := spGet teSrqReset s.te.srqs i
def State.setTeSrq (s : State) (i : Nat) (q : TeSrq) : State := s.withTe { s.te with srqs := spSet teSrqReset s.te.srqs i q }

def teFnReset (_ : Nat) : TeFn := { base := 0, cfg := 4, pi := 0, ci := 0, eventCq := 0, busy := false, waiting := [] }
def State.teFn (s : State) (f : Nat) : TeFn := spGet teFnReset s.te.fns f
def State.setTeFn (s : State) (f : Nat) (x : TeFn) : State := s.withTe { s.te with fns := spSet teFnReset s.te.fns f x }

def noBool (_ : Nat) : Bool := false
def State.qpUsed (s : State) (c : Nat) : Bool := spGet noBool s.te.used c
def State.cqUsed (s : State) (c : Nat) : Bool := spGet noBool s.te.cqUsed c
def State.srqUsed (s : State) (c : Nat) : Bool := spGet noBool s.te.srqUsed c

/-- The endpoint of an engine. -/
def teEp (e : Nat) : Nat := 0x40 + e

/-- The engine whose range holds a context. -/
def teCtxEngine (p : Plan) (c : Nat) : Option Nat :=
  (List.range 16).find? fun e => decide (teEngField p e 0 ≤ c) && decide (c < teEngField p e 0 + teEngField p e 4)

/-- Does an engine accept events: sealed, ready, not in Hold (R325, R312)? -/
def State.teRuns (s : State) (e : Nat) : Bool :=
  s.ready && s.get F.TE_UC_STATUS_STATE == 2 && !s.epHeld (teEp e)

def State.qpEngine (s : State) (c : Nat) : Nat := (teCtxEngine s.plan c).getD 0

/-- A condition of TE with the context concerned (Tables 11-15, 11-16). -/
def State.teFault (s : State) (cond bit c : Nat) : State :=
  s.fault uTe cond bit (s.qpEngine c * 2 ^ 36 + s.qc c QC.fn * 2 ^ 24 + c % 2 ^ 22)

/-- A condition of TE with a function concerned. -/
def State.teFnFault (s : State) (cond bit f : Nat) : State :=
  s.fault uTe cond bit (teFnEngine s.plan f % 16 * 2 ^ 36 + f * 2 ^ 24)

/-- A microcode condition: its status bit lies in `TE_UC_ERR_STATUS` (R331). -/
def State.ucFault (s : State) (cond bit extra : Nat) : State :=
  let s1 := s.capture uTe cond extra
  (s1.wr R.TE_UC_ERR_STATUS (setBit (s1.rd R.TE_UC_ERR_STATUS) bit true)).fltRefresh uTe

/-! ### Completion queues and events (R290 to R292) -/

/-- The difference of two 16-bit counts. -/
def diff16 (a b : Nat) : Nat := (a + 65536 - b % 65536) % 65536

/-- The time word of a CQE. -/
def State.timeWord2 (s : State) : Word := BitVec.ofNat 64 (s.timeNs 0 * 2 ^ 16 + s.timeFrac 0)

/-- A completion entry of seven words written to a CQ, its count and its interrupt; false where it cannot be
written. The index is kept with one bit above its 16, so that `OWNER` toggles on each pass of every ring (R290). -/
def State.tePut (s : State) (cq : Nat) (sol : Bool) (words : List Word) : Bool × State :=
  let q := s.teCq cq
  let n := 2 ^ s.cqF cq CQ.log2
  if q.err ∨ !s.cqUsed cq ∨ n - 1 ≤ diff16 q.pi q.ci then (false, s)
  else
    let bytes := (words.flatMap fun w => natLE 8 w.toNat) ++ natLE 8 (if q.pi / n % 2 = 0 then 1 else 0)
    let (ok, s1) := s.dmaWrite q.fn none true (s.cqF cq CQ.base + 64 * (q.pi % n)) bytes
    if !ok then (false, s1)
    else
      let s2 := s1.teSetF (cqBase cq) CQ.count (s1.cqF cq CQ.count + 1)
      let q1 := { q with pi := (q.pi + 1) % 131072 }
      if s2.cqF cq CQ.armed = 1 ∧ (s2.cqF cq CQ.solicitedOnly = 0 ∨ sol) then
        let q2 := { q1 with pend := q.pend + 1, since := if q.pend = 0 then s.clk.elapsed else q.since }
        if max 1 (s2.cqF cq CQ.modCount) ≤ q2.pend then
          (true, (s2.setTeCq cq { q2 with pend := 0 }).raiseMsix q.fn (s2.cqF cq CQ.vector))
        else (true, s2.setTeCq cq q2)
      else (true, s2.setTeCq cq q1)

/-- A completion entry; a CQ that cannot take it is put on the list of failing ones (R292). -/
def State.teCqe (s : State) (cq : Nat) (sol : Bool) (words : List Word) : State :=
  let (ok, s1) := s.tePut cq sol words
  if ok ∨ (s.teCq cq).err then s1 else s1.withTe { s1.te with failing := s1.te.failing ++ [cq] }

/-- An asynchronous event to a function's event CQ; lost where it cannot be written. -/
def State.teEvent (s : State) (f code object : Nat) : State :=
  let x := s.teFn f
  if !bitAt x.eventCq 63 then s
  else
    let (ok, s1) := s.tePut (bitsAt x.eventCq 23 0) true
      [0, BitVec.ofNat 64 (0xFF * 2 ^ 48 + object % 2 ^ 24 * 2 ^ 16), BitVec.ofNat 64 code, 0, s.timeWord2, 0, 0]
    if ok then s1 else s1.withTe { s1.te with lost := s1.te.lost + 1 }

/-- Word 1 of a CQE. -/
def cqeWord1 (op status flags qpn index : Nat) : Word :=
  BitVec.ofNat 64 (op * 2 ^ 56 + status * 2 ^ 48 + flags * 2 ^ 40 + qpn * 2 ^ 16 + index % 65536)

def State.isMp (s : State) (c : Nat) : Bool := s.qc c QC.delivery == 1

abbrev ceImm : Nat := 1
abbrev ceInv : Nat := 2
abbrev ceTag : Nat := 4
abbrev ceUnexp : Nat := 8
abbrev ceSol : Nat := 16
abbrev ceGrh : Nat := 32
abbrev ceMp : Nat := 64

/-- A receive completes on a CQ. -/
def State.teRecvCqe (s : State) (c cq : Nat) (r : TeRecv) (op status flags bytes imm src tag : Nat) : State :=
  s.teCqe cq (flags / ceSol % 2 == 1)
    [r.wrId, cqeWord1 op status (flags + if s.isMp c then ceMp else 0) (s.qc c QC.localQpn) r.index,
     BitVec.ofNat 64 (bytes * 2 ^ 32 + imm), BitVec.ofNat 64 (src * 2 ^ 40), s.timeWord2, BitVec.ofNat 64 tag, 0]

/-- A started request completes with a status: its CQE where it is due (for WAIT only when SIGNALED, R293), its slots
freed. -/
def State.teTxDone (s : State) (c : Nat) (t : TeTx) (status : Nat) : State :=
  match t.rdv with
  | some (srq, r) =>
    let room := (r.sges.map TeSge.len).sum
    s.teRecvCqe c (s.srqF srq SR.tagCq) r r.op (if status = 0 ∧ room < t.len then 9 else status) ceTag (min t.len room) r.app 0 r.tag
  | none =>
    let s1 := s.setQc c QC.sqCi ((t.index + t.slots) % 65536)
    if t.flags % 2 = 1 ∨ (status ≠ 0 ∧ t.op ≠ 0x20) then
      s1.teCqe (s.qc c QC.sqCq) (t.flags / 4 % 2 == 1)
        [t.wrId, cqeWord1 t.op status (if s.isMp c then ceMp else 0) (s.qc c QC.localQpn) t.index,
         BitVec.ofNat 64 (t.len % 2 ^ 32 * 2 ^ 32), 0, s.timeWord2, 0, 0]
    else s1

/-- Is a started request finished: all its packets sent and acknowledged, all its response received? -/
def State.teTxFinished (s : State) (c : Nat) (t : TeTx) : Option Nat :=
  match t.status with
  | some st => some st
  | none =>
    if t.sent = t.n ∧ !((s.teQp c).pkts.any fun (p : TePkt) => p.owner == some t.id) ∧
        (t.op < 6 ∨ 8 < t.op ∨ t.got = t.len) then some 0 else none

/-- A READ of a rendezvous that has not been sent: it holds back no send request, and a QP in SQD is drained with it. -/
def rdvWaits (t : TeTx) : Bool := t.rdv.isSome && t.sent == 0 && t.status.isNone

/-- Requests at the front that are finished complete in order; a drained send queue reports it (R291, Table
11-5). -/
def State.teTxSettle (s : State) (c : Nat) : Nat → State
  | 0 => s
  | n + 1 =>
    match (s.teQp c).tx.filter fun t => !rdvWaits t with
    | [] =>
      if s.qc c QC.state = 4 ∧ !(s.teQp c).drained then
        (s.setTeQp c { s.teQp c with drained := true }).teEvent (s.qc c QC.fn) 5 c
      else s
    | t :: _ =>
      match s.teTxFinished c t with
      | none => s
      | some st =>
        ((s.setTeQp c { s.teQp c with tx := (s.teQp c).tx.filter fun x => x.id != t.id }).teTxDone c t st).teTxSettle c n

def State.teSettleTx (s : State) (c : Nat) : State := s.teTxSettle c ((s.teQp c).tx.length + 1)

/-! ### The ERROR state (R281, R291) -/

/-- Bytes of the reorder store that a QP's messages hold. -/
def heldBytes (l : List TeRx) : Nat := (l.map fun (m : TeRx) => (m.held.map fun x => x.2.2.length).sum).sum

def State.teStore (s : State) (e : Nat) : Nat := spGet (fun _ => 0) s.te.store e
def State.setTeStore (s : State) (e n : Nat) : State := s.withTe { s.te with store := spSet (fun _ => 0) s.te.store e n }

/-- `n` receives of a QP's own ring are flushed: each WQE is read for its `WR_ID`. `host` holds the WQEs that the row
carries; where it carries none, the word that host memory holds there is a free value. -/
def State.teFlushRq (s : State) (c : Nat) : List Byte → Nat → State
  | _, 0 => s
  | host, n + 1 =>
    let i := s.qc c QC.rqCi
    let (v, s1) := s.takeFree
    let w := if host.length < 64 then v else BitVec.ofNat 64 (leAt host 0 8)
    let (_, _, s2) := s1.dmaRead (s.qc c QC.fn) none (s.qc c QC.rqBase + 64 * (i % 2 ^ s.qc c QC.rqLog2)) 64
      (natLE 8 w.toNat ++ List.replicate 56 0) .ok
    ((s2.setQc c QC.rqCi ((i + 1) % 65536)).teRecvCqe c (s.qc c QC.rqCq) ⟨i, w, [], false, 0, 0, 1⟩ 1 3 0 0 0 0 0).teFlushRq c
      (host.drop 64) n

/-- The CQ on which a message's receive completes: the `TAG_CQ` of its SRQ for a tagged receive (R294). -/
def State.teRecvCq (s : State) (c : Nat) (m : TeRx) (r : TeRecv) : Nat :=
  match r.tagged, m.srq with
  | true, some j => s.srqF j SR.tagCq
  | _, _ => s.qc c QC.rqCq

/-- A message in reception is given up: its entry of an unexpected list goes, and a tagged receive already matched to it
is flushed (R296). -/
def State.teUnexpDrop (c : Nat) (s : State) (m : TeRx) : State :=
  match m.unexp, m.srq with
  | some id, some j =>
    let q := s.teSrq j
    let s1 := s.setTeSrq j { q with unexp := q.unexp.filter fun (u : TeUnexp) => u.id != id }
    match (q.unexp.find? fun (u : TeUnexp) => u.id == id).bind TeUnexp.claim with
    | some r => s1.teRecvCqe c (s1.srqF j SR.tagCq) r r.op 3 ceTag 0 0 0 r.tag
    | none => s1
  | _, _ => s

/-- A QP enters ERROR: started requests complete with their status or flushed, receives in use and posted
ones are flushed; `event` is the asynchronous event sent, 0 for none. Slots not started are flushed by the
rows that read them. -/
def State.teQpError (s : State) (c event : Nat) : State :=
  if s.qc c QC.state = 6 ∨ !s.qpUsed c then s
  else
    let q := s.teQp c
    let s1 := (s.setQc c QC.state 6).setTeQp c
      { q with tx := [], pkts := [], rnr := false, rx := [], nak := false, seen := [], resp := [], esp := [], late := [] }
    let s2 := s1.setTeStore (s.qpEngine c) (s.teStore (s.qpEngine c) - heldBytes q.rx)
    let s3 := q.tx.foldl (fun (s : State) (t : TeTx) => s.teTxDone c t (t.status.getD 3)) s2
    let s4 := (q.late ++ q.rx).foldl (fun (s : State) (m : TeRx) =>
      State.teUnexpDrop c (match m.recv with
      | some r => s.teRecvCqe c (s.teRecvCq c m r) r m.op 3 (if r.tagged then ceTag else 0) 0 0 0 (if r.tagged then r.tag else 0)
      | none => s) m) s3
    let s5 := if s.qc c QC.srqEn = 1 then s4 else s4.teFlushRq c [] (diff16 (s4.qc c QC.rqPi) (s4.qc c QC.rqCi))
    if event = 0 then s5 else s5.teEvent (s.qc c QC.fn) event c

/-- May the packets of an XRC QP name an SRQ: one of its function and XRC domain? -/
def State.xrcNames (s : State) (c j : Nat) : Bool :=
  (s.qc c QC.type == 3 || s.qc c QC.type == 4) && s.srqUsed j && (s.teSrq j).fn == s.qc c QC.fn &&
  s.srqF j SR.xrcd == s.qc c QC.xrcd

/-- Does a QP complete into a CQ: by its send or receive queue, or by the `TAG_CQ` of its SRQ, or of one that its packets
may name? -/
def State.completesInto (s : State) (c cq : Nat) : Bool :=
  let tags := fun j => s.srqF j SR.tmEn == 1 && s.srqF j SR.tagCq == cq
  s.qc c QC.sqCq == cq || s.qc c QC.rqCq == cq || (s.qc c QC.srqEn == 1 && tags (s.qc c QC.srq)) ||
  (spKeys s.te.srqUsed).any fun j => s.xrcNames c j && tags j

/-- One failing CQ is handled: it enters error, the QPs that complete into it enter ERROR, then event 3 is sent and FC
0x160A recorded (R292). -/
def State.teFailCq (s : State) (cq : Nat) : State :=
  if (s.teCq cq).err then s
  else
    let s1 := s.setTeCq cq { s.teCq cq with err := true }
    let s2 := ((spKeys s.te.used).filter fun c => s.completesInto c cq).foldl (fun (s : State) c => s.teQpError c 0) s1
    (s2.teEvent (s.teCq cq).fn 3 cq).fault uTe 0x0A 10 (teFnEngine s.plan (s.teCq cq).fn % 16 * 2 ^ 36 + (s.teCq cq).fn * 2 ^ 24)

/-- Failing CQs are handled until none is left. -/
def State.teSettleCqs (s : State) : Nat → State
  | 0 => s
  | n + 1 =>
    match s.te.failing with
    | [] => s
    | cq :: rest => ((s.withTe { s.te with failing := rest }).teFailCq cq).teSettleCqs n

/-- The end of every event of an engine. -/
def State.teSettle (s : State) : State := s.teSettleCqs ((spKeys s.te.used).length * 4 + s.te.failing.length + 4)

/-! ### Keys (R282 to R284) -/

/-- The key check of R283 for QP `c`: the address of the first byte. `need` is the set of `ACCESS` bits the
operation needs; `anyValid` leaves `VALID` out (a received SEND with invalidate). -/
def State.teKey (s : State) (c key va n need : Nat) (anyValid : Bool) : Option Nat :=
  let i := key / 256
  if i < 2 ^ 24 ∧ (anyValid ∨ s.mr i MR.valid = 1) ∧ s.mr i MR.gen = key % 256 ∧ s.mr i MR.td = s.qc c QC.td ∧
      s.mr i MR.pd = s.qc c QC.pd ∧ (s.mr i MR.kind ≠ 1 ∨ s.mr i MR.boundQp = c) ∧ s.mr i MR.access &&& need = need ∧
      s.mr i MR.vaBase ≤ va ∧ va + n ≤ s.mr i MR.vaBase + s.mr i MR.length then
    some (s.mr i MR.iova + (va - s.mr i MR.vaBase))
  else none

abbrev acLocalWrite : Nat := 1
abbrev acRemoteRead : Nat := 2
abbrev acRemoteWrite : Nat := 4
abbrev acRemoteAtomic : Nat := 8
abbrev acBind : Nat := 16

def State.mrPasid (s : State) (i : Nat) : Option Nat :=
  if s.mr i MR.pasidEn = 1 then some (s.mr i MR.pasid) else none

/-- Bytes read through a region: code 0 with the bytes, or a DMA error. -/
def State.teRead (s : State) (key addr n : Nat) (data : List Byte) (e : DmaEnd) : Nat × List Byte × State :=
  let i := key / 256
  if n = 0 then (0, [], s)
  else if s.mr i MR.loc = 1 then
    if !tdOwnsRange s.plan (s.mr i MR.td) addr n then (3, [], s.partViolation addr)
    else if s.poisoned addr n then (3, [], s)
    else (0, s.bytes addr n, s)
  else s.dmaRead (s.mr i MR.fn) (s.mrPasid i) addr n data e

/-- Bytes written through a region: whether they have been issued. -/
def State.teWrite (s : State) (key addr : Nat) (data : List Byte) : Bool × State :=
  let i := key / 256
  if data = [] then (true, s)
  else if s.mr i MR.loc = 1 then
    if !tdOwnsRange s.plan (s.mr i MR.td) addr data.length then (false, s.partViolation addr)
    else (true, s.putBytes addr data)
  else s.dmaWrite (s.mr i MR.fn) (s.mrPasid i) false addr data

/-- Is every element readable, or writable, under its key? -/
def State.teSgesOk (s : State) (c : Nat) (l : List TeSge) (need : Nat) : Bool :=
  l.all fun (g : TeSge) => (s.teKey c g.key g.addr g.len need false).isSome

/-- `n` bytes gathered from elements, `skip` bytes left out first; host bytes are taken from `data` in
order. -/
def State.teGather (s : State) (c : Nat) (e : DmaEnd) : List TeSge → Nat → Nat → List Byte → Nat × List Byte × State
  | [], _, _, _ => (0, [], s)
  | g :: t, skip, n, data =>
    if n = 0 then (0, [], s)
    else if g.len ≤ skip then s.teGather c e t (skip - g.len) n data
    else
      let m := min n (g.len - skip)
      match s.teKey c g.key (g.addr + skip) m 0 false with
      | none => (2, [], s)
      | some a =>
        let (r, b, s1) := s.teRead g.key a m data e
        if r ≠ 0 then (0x0C, [], s1)
        else
          let used := if s.mr (g.key / 256) MR.loc = 1 then 0 else m
          let (r2, b2, s2) := s1.teGather c e t 0 (n - m) (data.drop used)
          (r2, b ++ b2, s2)

/-- Bytes scattered over elements from byte `pos` on: 0, 1 where they do not fit, 2 a key error, 0x0C a DMA
error. -/
def State.teScatter (s : State) (c : Nat) : List TeSge → Nat → List Byte → Nat × State
  | _, _, [] => (0, s)
  | [], _, _ => (1, s)
  | g :: t, pos, d =>
    if g.len ≤ pos then s.teScatter c t (pos - g.len) d
    else
      let m := min d.length (g.len - pos)
      match s.teKey c g.key (g.addr + pos) m acLocalWrite false with
      | none => (2, s)
      | some a =>
        let (ok, s1) := s.teWrite g.key a (d.take m)
        if !ok then (0x0C, s1) else s1.teScatter c t 0 (d.drop m)

/-- An invalidation takes effect (R284): `VALID` cleared, the generation advanced; a region's index is free
again, a window stays reserved. -/
def State.teInvalidate (s : State) (i : Nat) : State :=
  let s1 := (s.setMr i MR.valid 0).setMr i MR.gen (s.mr i MR.gen + 1)
  if spGet noBool s.te.windows i then s1 else s1.withTe { s1.te with freed := s1.te.freed.filter (· != i) ++ [i] }

/-- Is a READ still being answered that was admitted under a key of a region (R284)? -/
def State.keyReads (s : State) (i : Nat) : Bool :=
  (spKeys s.te.qps).any fun c => (s.teQp c).resp.any fun (x : TeResp) => x.rkey / 256 == i

/-- Is a placement or a read under a key still to come: a READ or atomic whose elements use it, or a READ being answered
(R284)? -/
def State.keyPlacements (s : State) (i : Nat) : Bool :=
  s.keyReads i || (spKeys s.te.qps).any fun c => (s.teQp c).tx.any fun (t : TeTx) =>
    decide (6 ≤ t.op) && decide (t.op ≤ 8) && t.got != t.len && t.sges.any fun (g : TeSge) => g.key / 256 == i

/-- Is an invalidation of a region in progress (R284)? -/
def State.invalidating (s : State) (i : Nat) : Bool := s.te.invs.any fun (x : TeInv) => x.index == i

/-! ### Event contexts (R315, R319) -/

def State.seqOf (s : State) (e : Nat) : List UcCtx := spGet (fun _ => []) s.te.seqs e
def State.setSeq (s : State) (e : Nat) (l : List UcCtx) : State := s.withTe { s.te with seqs := spSet (fun _ => []) s.te.seqs e l }

/-- Are all 32 event contexts of an engine in use, so that its next event waits? -/
def State.seqFull (s : State) (e : Nat) : Bool := decide (32 ≤ (s.seqOf e).length)

/-- Patch words, match records and dispatch records in force. -/
def State.ucPatch (s : State) : Nat × Nat × Nat :=
  (s.get F.TE_UC_STATUS_PATCH_WORDS, s.get F.TE_UC_STATUS_MATCH_COUNT, s.get F.TE_UC_STATUS_DISP_COUNT)

/-- An entry of a dispatch table: the last override of the patch that names it, else the ROM's default (R319, R322). -/
def State.ucEntry (s : State) (table index : Nat) : Nat :=
  let (n, m, k) := s.ucPatch
  let rec32 := fun (i : Nat) => leAt s.te.patch (16 * n + 4 * m + 4 * i) 4
  match (List.range k).reverse.find? fun i => natBits (rec32 i) 25 24 == table && natBits (rec32 i) 23 16 == index with
  | some i => rec32 i % 2 ^ 14
  | none => Config.ucDispatch table index % 2 ^ 14

/-- An event takes a context of its engine, the youngest, from its dispatch until its END; its words begin at the entry
that a dispatch table gives its opcode byte. DEDUCED (log entry 124). -/
def State.seqDispatch (s : State) (e table opcode : Nat) (object : UcObj) : State :=
  s.setSeq e (s.seqOf e ++ [⟨opcode, object, s.ucEntry table opcode, [], 0, false⟩])

/-- The event of an object ends: its oldest context is freed. -/
def State.seqEnd (s : State) (e : Nat) (object : UcObj) : State :=
  s.setSeq e (match (s.seqOf e).find? fun (x : UcCtx) => x.object == object with
    | some x => (s.seqOf e).erase x
    | none => s.seqOf e)

/-- The event dispatched last ends at once: the youngest context is freed. -/
def State.seqAbandon (s : State) (e : Nat) : State := s.setSeq e (s.seqOf e).dropLast

/-- The dispatch tables by the events they serve (R319). -/
abbrev tblPacket : Nat := 0
abbrev tblSend : Nat := 1
abbrev tblControl : Nat := 2
abbrev tblInternal : Nat := 3

/-- The opcode byte of an internal event, which the spec leaves open. -/
def State.seqInternal (s : State) (e : Nat) (object : UcObj) : State :=
  let (v, s1) := s.takeFree
  s1.seqDispatch e tblInternal (v.toNat % 256) object

/-! ### Sending packets -/

/-- The header of a frame to the wire. -/
def State.teWireHeader (s : State) (c : Nat) (frame : List Byte) : List Word :=
  hSets hZero [(CH.kind, kPacket), (CH.td, s.qc c QC.td), (CH.len, frame.length), (CH.srcEp, teEp (s.qpEngine c)),
    (CH.dstEp, 0x1B0 + s.qc c QC.egressPort), (CH.dstQueue, s.qc c QC.leaf), (CH.ctx, c),
    (CH.timeNs, s.timeNs 0), (CH.timeFrac, s.timeFrac 0 / 2 * 2), (CH.offsets, frameOffsets frame)]

/-- A frame to the egress port of a QP. -/
def State.teToWire (s : State) (c : Nat) (frame : List Byte) : State :=
  s.send (teEp (s.qpEngine c)) ⟨s.teWireHeader c frame, frame, false⟩

/-- An IP header for an ESP payload of `n` bytes. -/
def ipForEsp (ip : List Byte) (n : Nat) : List Byte :=
  if beAt ip 0 1 / 16 = 4 then
    let h := bytesPut (bytesPut (bytesPut ip 2 (natBE 2 (20 + n))) 9 [50]) 10 [0, 0]
    bytesPut h 10 (natBE 2 (ipChecksum h))
  else bytesPut (bytesPut ip 4 (natBE 2 n)) 6 [50]

/-- The ESP_ENCAP command for a UDP datagram (R280). -/
def State.espCommand (s : State) (c : Nat) (udp : List Byte) : State :=
  let q := s.qc c QC.cphQueue
  let b := bytesPut (pbOfPacket udp.length) 26 [17]
  let w := hSets hZero [(CH.kind, kCommand), (CH.td, s.qc c QC.td), (CH.len, 64 + udp.length), (CH.srcEp, teEp (s.qpEngine c)),
    (CH.dstEp, 0x20 + cphQPair s.plan q), (CH.dstQueue, q), (CH.ctx, c), (CH.timeNs, s.timeNs 0), (CH.timeFrac, s.timeFrac 0),
    (CH.offsets, 2 ^ 48 - 1), (CH.keySlot, s.qc c QC.espSlot), (CH.opcode, opEspEncap)]
  s.send (teEp (s.qpEngine c)) ⟨w, b ++ udp, false⟩

/-- A packet of a QP: to the wire, or first through the cipher pair. `av` is a datagram's address vector. -/
def State.teSendPacket (s : State) (c op psn qpn path : Nat) (se ack : Bool) (body : List Byte) (av : List Byte) : State :=
  let dst := if av = [] then s.destIp c else beAt av 0 16
  let dmac := if av = [] then s.qc c QC.destMac else beAt av 16 6
  let dscp := if av = [] then s.qc c QC.dscp else leAt av 32 1 % 64
  let hop := if av = [] then s.qc c QC.hopLimit else leAt av 33 1
  let pad := padOf body.length
  let rest := bth op se pad (s.qc c QC.pkey) qpn ack psn ++ body ++ List.replicate pad 0
  let ipOf := ipHeader (s.srcIp c) dst dscp hop 17
  let udp := roceUdp ipOf (s.qc c QC.sportBase + path) rest
  let eth := ethHeader dmac (s.get (F.ETH_MAC_ADDR_ADDR (s.qc c QC.egressPort))) dst
  if s.qc c QC.espEn = 1 then
    (s.setTeQp c { s.teQp c with esp := (s.teQp c).esp ++ [eth ++ ipOf udp.length] }).espCommand c udp
  else s.teToWire c (eth ++ ipOf udp.length ++ udp)

/-- A packet that is kept until it is acknowledged is sent, or sent again. -/
def State.teSendPkt (s : State) (c : Nat) (p : TePkt) : State :=
  s.teSendPacket c p.op p.psn (s.qc c QC.destQpn) p.path p.se p.ack (p.ext ++ p.data) []

/-! ### Congestion (R307, R308) -/

/-- The live profile of a QP. -/
def profileReset (_ : Nat) : Word × Word × Word :=
  (BitVec.ofNat 64 (1000 * 2 ^ 32 + 400), BitVec.ofNat 64 (2 ^ 63 + 256 * 2 ^ 32 + 55 * 2 ^ 16 + 4), 10240)
def State.teProfile (s : State) (c : Nat) : Word × Word × Word := spGet profileReset s.te.profiles (s.qc c QC.ccProfile)

/-- The MAC rate of a QP's egress port in Mb/s. -/
def State.lineMbps (s : State) (c : Nat) : Nat := 100000 * 2 ^ portSpeed s.plan (s.qc c QC.egressPort)

/-- The rate rises: on the timer, or after `BYTE_KIB` sent. -/
def State.ccRise (s : State) (c : Nat) : State :=
  let (rate, _, _) := s.teProfile c
  let line := s.lineMbps c
  let tgt := if 5 < (s.teQp c).stage then min line (s.qc c QC.rateTgt + bitsAt rate 31 0) else s.qc c QC.rateTgt
  (s.setQc c QC.rateTgt tgt).setQc c QC.rateCur (min line ((s.qc c QC.rateCur + tgt) / 2))

/-- The rate rises several times. -/
def State.ccRises (s : State) (c : Nat) : Nat → State
  | 0 => s
  | n + 1 => (s.ccRise c).ccRises c n

/-- Payload bytes sent count toward `BYTE_KIB`: one rise for each that is full. -/
def State.ccBytes (s : State) (c n : Nat) : State :=
  let (_, timer, bytes) := s.teProfile c
  let q := s.teQp c
  let limit := bitsAt bytes 31 0 * 1024
  if !bitAt timer 63 then s
  else (s.setTeQp c { q with bytes := (q.bytes + n) % limit }).ccRises c ((q.bytes + n) / limit)

/-- A CNP, with the path for a multipath QP. -/
def State.ccDecrease (s : State) (c : Nat) (path : Option Nat) : State :=
  let (rate, timer, _) := s.teProfile c
  let s0 := s.count F.TE_CNP_RX_COUNT
  if !bitAt timer 63 then s0
  else
    let q := s.teQp c
    let g := bitsAt timer 47 32
    let cur := s.qc c QC.rateCur
    let off := match path with
      | some p => (p, s.clk.elapsed + bitsAt timer 15 0 * 1000 * nsUnit) :: q.off.filter fun x => x.1 != p
      | none => q.off
    ((s0.setQc c QC.rateTgt cur).setQc c QC.rateCur (max (bitsAt rate 63 32) (cur * (131072 - q.alpha) / 131072))).setTeQp c
      { q with alpha := (65536 - g) * q.alpha / 65536 + g, stage := 0, off := off }

/-- A packet marked CE is answered with a CNP, at most one in each interval of the profile (R307). -/
def State.cnpSend (s : State) (c : Nat) (path : Nat) : State :=
  let (_, timer, _) := s.teProfile c
  let q := s.teQp c
  let gap := bitsAt timer 15 0 * 1000 * nsUnit
  if (match q.cnpAt with
    | some t => decide (s.clk.elapsed < t + gap)
    | none => false) then s
  else
    let s1 := (s.setTeQp c { q with cnpAt := some s.clk.elapsed }).count F.TE_CNP_TX_COUNT
    s1.teSendPacket c (if s.isMp c then 0xC5 else 0x81) 0 (s.qc c QC.destQpn) 0 false false
      ((if s.isMp c then natBE 2 path else natBE 2 0) ++ List.replicate 14 0) []

end Sys2Proof.Machine
end

