-- ==== Sys2Proof/Machine/NveTcp.lean ====
section
/-! DEFINITION. Storage connections: the connection image, TCP segments on the wire and TCP's own state
(R343, R344). TCP follows the RFCs that R344 cites; its options are timestamps and SACK. -/

namespace Sys2Proof.Machine

/-! ### The image (Table 13-4) -/

namespace CI
abbrev state : ChField := ⟨0, 63, 60⟩
abbrev ownerTd : ChField := ⟨0, 51, 40⟩
abbrev engine : ChField := ⟨0, 35, 32⟩
abbrev tgtSqSize : ChField := ⟨0, 15, 0⟩
abbrev hdgst : ChField := ⟨1, 63, 63⟩
abbrev ddgst : ChField := ⟨1, 62, 62⟩
abbrev cpda : ChField := ⟨1, 60, 56⟩
abbrev mss : ChField := ⟨1, 47, 32⟩
abbrev maxH2c : ChField := ⟨1, 31, 0⟩
abbrev ioccsz : ChField := ⟨2, 63, 32⟩
abbrev sndNxt : ChField := ⟨3, 63, 32⟩
abbrev rcvNxt : ChField := ⟨3, 31, 0⟩
abbrev sndWnd : ChField := ⟨4, 63, 32⟩
abbrev sndScale : ChField := ⟨4, 31, 24⟩
abbrev rcvScale : ChField := ⟨4, 23, 16⟩
abbrev sqTail : ChField := ⟨4, 15, 0⟩
abbrev sport : ChField := ⟨5, 63, 48⟩
abbrev dport : ChField := ⟨5, 47, 32⟩
abbrev egressPort : ChField := ⟨5, 19, 16⟩
abbrev leaf : ChField := ⟨5, 15, 0⟩
abbrev dscp : ChField := ⟨10, 63, 58⟩
abbrev hopLimit : ChField := ⟨10, 55, 48⟩
abbrev destMac : ChField := ⟨10, 47, 0⟩
abbrev retries : ChField := ⟨11, 39, 32⟩
end CI

abbrev connFree : Nat := 0
abbrev connUp : Nat := 1
abbrev connClosing : Nat := 2
abbrev connFailed : Nat := 3

def nveConnReset (_ : Nat) : NveConn :=
  { img := List.replicate 16 0, inst := false, una := 0, buf := [], segs := [], cwnd := 0, ssthresh := 0, dup := 0,
    recover := none, rcv := [], ooo := [], tsRecent := none, echo := false, cwr := false, ecnEnd := none, finAt := none,
    peerFin := false, finDue := false, sqHead := 0, wl1 := 0, wl2 := 0, prov := [] }
def State.conn (s : State) (c : Nat) : NveConn := spGet nveConnReset s.nve.conns c
def State.setConn (s : State) (c : Nat) (k : NveConn) : State :=
  s.withNve { s.nve with conns := spSet nveConnReset s.nve.conns c k }

def NveConn.f (k : NveConn) (x : ChField) : Nat := hGet k.img x
def NveConn.put (k : NveConn) (x : ChField) (v : Nat) : NveConn := { k with img := hSet k.img x v }
def NveConn.dest (k : NveConn) : Nat := (k.img.getD 7 0).toNat * 2 ^ 64 + (k.img.getD 6 0).toNat
def NveConn.source (k : NveConn) : Nat := (k.img.getD 9 0).toNat * 2 ^ 64 + (k.img.getD 8 0).toNat

/-! ### Sequence numbers -/

abbrev seqMod : Nat := 2 ^ 32
/-- (a − b) mod 2³². -/
def seqDiff (a b : Nat) : Nat := (a + seqMod - b % seqMod) % seqMod
def seqAdd (a n : Nat) : Nat := (a + n) % seqMod

/-! ### Segments on the wire -/

abbrev fFin : Nat := 1
abbrev fSyn : Nat := 2
abbrev fRst : Nat := 4
abbrev fPsh : Nat := 8
abbrev fAck : Nat := 16
abbrev fEce : Nat := 64
abbrev fCwr : Nat := 128

/-- Timestamps, and SACK blocks for what has arrived out of order, at most three. -/
def tcpOptions (k : NveConn) (tsval : Nat) : List Byte :=
  let blocks := k.ooo.take 3
  [1, 1, 8, 10] ++ natBE 4 tsval ++ natBE 4 (k.tsRecent.getD 0) ++
    (if blocks = [] then [] else
      [1, 1, 5] ++ natBE 1 (2 + 8 * blocks.length) ++
        blocks.flatMap fun x => natBE 4 x.1 ++ natBE 4 (seqAdd x.1 x.2.length))

/-- The checksum input in front of a segment of `n` bytes. -/
def tcpPseudo (src dst n : Nat) : List Byte :=
  if isV4 dst then natBE 4 (src % 2 ^ 32) ++ natBE 4 (dst % 2 ^ 32) ++ natBE 2 6 ++ natBE 2 n
  else natBE 16 src ++ natBE 16 dst ++ natBE 4 n ++ natBE 4 6

/-- A TCP segment of a connection with its checksum; `tsval` and `wnd` are the device's timestamp and window
field. -/
def tcpSegment (k : NveConn) (seq flags tsval wnd : Nat) (data : List Byte) : List Byte :=
  let opt := tcpOptions k tsval
  let h := natBE 2 (k.f CI.sport) ++ natBE 2 (k.f CI.dport) ++ natBE 4 seq ++ natBE 4 (k.f CI.rcvNxt) ++
    natBE 1 ((20 + opt.length) / 4 * 16) ++ natBE 1 flags ++ natBE 2 wnd ++ natBE 2 0 ++ natBE 2 0
  let t := h ++ opt ++ data
  bytesPut t 16 (natBE 2 (ipChecksum (tcpPseudo k.source k.dest t.length ++ t)))

/-- The IP header, ECT(0) only where new data is carried (RFC 3168). -/
def tcpIp (k : NveConn) (ect : Bool) (n : Nat) : List Byte :=
  let h := ipHeader k.source k.dest (k.f CI.dscp) (k.f CI.hopLimit) 6 n
  if ect then h
  else if isV4 k.dest then
    let h1 := bytesPut (bytesPut h 1 (natBE 1 (k.f CI.dscp * 4))) 10 [0, 0]
    bytesPut h1 10 (natBE 2 (ipChecksum h1))
  else bytesPut h 0 (natBE 4 (6 * 2 ^ 28 + k.f CI.dscp * 4 * 2 ^ 20))

/-- Do `n` bytes of the stream from `seq` on carry PROVISIONAL data? -/
def NveConn.provAt (k : NveConn) (seq n : Nat) : Bool :=
  decide (0 < n) && k.prov.any fun r => decide (seqDiff r.1 seq < n) || decide (seqDiff seq r.1 < r.2)

/-- One segment of connection `c` leaves its transport engine. The timestamp clock and the window the device
offers are free: the manual gives neither. -/
def State.tcpSend (s : State) (c seq flags : Nat) (new : Bool) (data : List Byte) : State :=
  let (v, s1) := s.takeFree
  let k := s.conn c
  let seg := tcpSegment k seq (flags + (if k.echo then fEce else 0)) (bitsAt v 31 0) (bitsAt v 47 32) data
  let frame := ethHeader (k.f CI.destMac) (s.get (F.ETH_MAC_ADDR_ADDR (k.f CI.egressPort))) k.dest ++
    tcpIp k (new && data != []) seg.length ++ seg
  s1.send (teEp (k.f CI.engine)) ⟨hSets hZero [(CH.kind, kPacket), (CH.td, k.f CI.ownerTd), (CH.prov, if k.provAt seq data.length then 1 else 0),
    (CH.len, frame.length), (CH.srcEp, teEp (k.f CI.engine)), (CH.dstEp, 0x1B0 + k.f CI.egressPort), (CH.dstQueue, k.f CI.leaf), (CH.ctx, c),
    (CH.timeNs, s.timeNs 0), (CH.timeFrac, s.timeFrac 0 / 2 * 2), (CH.offsets, frameOffsets frame)], frame, false⟩

/-- An acknowledgement alone. -/
def State.tcpAck (s : State) (c : Nat) : State := s.tcpSend c ((s.conn c).f CI.sndNxt) fAck false []

/-! ### Sending (RFC 9293, 5681, 6582, 3168) -/

/-- Data bytes of a full segment: the MSS less the timestamp option. -/
def NveConn.smss (k : NveConn) : Nat := max 1 (k.f CI.mss - 12)

/-- Bytes in flight. -/
def NveConn.flight (k : NveConn) : Nat := seqDiff (k.f CI.sndNxt) k.una

/-- The initial window (RFC 5681). -/
def initialWindow (m : Nat) : Nat := if 2190 < m then 2 * m else if 1095 < m then 3 * m else 4 * m

/-- New segments as far as the windows allow. -/
def State.tcpOutput (s : State) (c : Nat) : Nat → State
  | 0 => s
  | fuel + 1 =>
    let k := s.conn c
    let room := min k.cwnd (k.f CI.sndWnd) - k.flight
    let n := min k.buf.length k.smss
    let m := if n ≤ room then n else if k.flight = 0 then room else 0
    if m = 0 ∨ (k.f CI.state ≠ connUp ∧ k.f CI.state ≠ connClosing) ∨ !s.teRuns (k.f CI.engine) then s
    else
      let seq := k.f CI.sndNxt
      let data := k.buf.take m
      let flags := fAck + (if m = k.buf.length then fPsh else 0) + if k.cwr then fCwr else 0
      let k1 := { k.put CI.sndNxt (seqAdd seq m) with
        buf := k.buf.drop m, segs := k.segs ++ [(⟨seq, data, 0, false⟩ : NveSeg)], cwr := false }
      ((s.setConn c k1).tcpSend c seq flags true data).tcpOutput c fuel

def State.tcpPush (s : State) (c : Nat) : State := s.tcpOutput c ((s.conn c).buf.length + 1)

/-- Bytes join the stream of a connection; `prov`: PROVISIONAL data of a drain (R352). -/
def State.tcpWrite (s : State) (c : Nat) (prov : Bool) (data : List Byte) : State :=
  let k := s.conn c
  (s.setConn c { k with
    buf := k.buf ++ data
    prov := if prov && data != [] then k.prov ++ [(seqAdd (k.f CI.sndNxt) k.buf.length, data.length)] else k.prov }).tcpPush c

/-- The first segment that the peer has not reported is sent again. -/
def State.tcpResend (s : State) (c : Nat) : State :=
  let k := s.conn c
  match k.segs.find? fun (g : NveSeg) => !g.sacked with
  | none => s
  | some g =>
    (s.setConn c { k with segs := k.segs.map fun (x : NveSeg) => if x.seq = g.seq then { x with tries := x.tries + 1 } else x }).tcpSend
      c g.seq (fAck + fPsh) false g.data

def halfFlight (k : NveConn) : Nat := max (k.flight / 2) (2 * k.smss)

/-- An acknowledgement that advances: segments leave, the window grows or a recovery goes on. -/
def State.tcpNewAck (s : State) (c ack : Nat) : State :=
  let k := s.conn c
  let n := seqDiff ack k.una
  let segs := k.segs.filterMap fun (g : NveSeg) =>
    let d := seqDiff ack g.seq
    if g.data.length ≤ d ∧ d < 2 ^ 31 then none
    else if 0 < d ∧ d < g.data.length then some { g with seq := ack, data := g.data.drop d }
    else some g
  let prov := k.prov.filter fun r => !(decide (r.2 ≤ seqDiff ack r.1) && decide (seqDiff ack r.1 < 2 ^ 31))
  let k1 := { k with una := ack, segs := segs, dup := 0, prov := prov }
  match k.recover with
  | some r =>
    if seqDiff ack r < 2 ^ 31 then s.setConn c { k1 with cwnd := k.ssthresh, recover := none }
    else
      (s.setConn c { k1 with cwnd := max k.smss (k.cwnd - n + if k.smss ≤ n then k.smss else 0) }).tcpResend c
  | none =>
    let cwnd := if k.cwnd < k.ssthresh then k.cwnd + min n k.smss else k.cwnd + max 1 (k.smss * k.smss / max 1 k.cwnd)
    s.setConn c { k1 with cwnd := cwnd }

/-- A duplicate acknowledgement: the third starts a fast retransmission, later ones inflate the window. -/
def State.tcpDupAck (s : State) (c : Nat) : State :=
  let k := s.conn c
  if k.segs = [] then s
  else
    let k1 := { k with dup := k.dup + 1 }
    if k.recover.isSome then s.setConn c { k1 with cwnd := k.cwnd + k.smss }
    else if k1.dup = 3 then
      (s.setConn c { k1 with ssthresh := halfFlight k, cwnd := halfFlight k + 3 * k.smss, recover := some (k.f CI.sndNxt) }).tcpResend c
    else s.setConn c k1

/-- Segments that a SACK block covers are marked. -/
def markSacked (segs : List NveSeg) (blocks : List (Nat × Nat)) : List NveSeg :=
  segs.map fun (g : NveSeg) =>
    if blocks.any fun b => decide (seqDiff g.seq b.1 < 2 ^ 31) && decide (seqDiff b.2 (seqAdd g.seq g.data.length) < 2 ^ 31) then
      { g with sacked := true } else g

/-- The peer's echo of congestion halves the window, once for the data in flight. -/
def NveConn.ecn (k : NveConn) (flags ack : Nat) : NveConn :=
  let past := match k.ecnEnd with
    | some e => decide (seqDiff ack e < 2 ^ 31)
    | none => true
  if flags / fEce % 2 == 1 && past && k.recover.isNone then
    { k with ssthresh := halfFlight k, cwnd := halfFlight k, cwr := true, ecnEnd := some (k.f CI.sndNxt) }
  else k

/-- May a segment set the peer's window: it is no older than the one that did (RFC 9293)? -/
def NveConn.windowNew (k : NveConn) (t : TcpIn) : Bool :=
  t.seq == k.wl1 && decide (seqDiff t.ack k.wl2 < 2 ^ 31) || t.seq != k.wl1 && decide (seqDiff t.seq k.wl1 < 2 ^ 31)

/-- The acknowledgement, window and SACK blocks of a segment. -/
def State.tcpAckIn (s : State) (c : Nat) (t : TcpIn) : State :=
  let k := s.conn c
  if k.flight < seqDiff t.ack k.una then s
  else
    let wnd := if k.windowNew t then t.wnd * 2 ^ min 14 (k.f CI.sndScale) else k.f CI.sndWnd
    let dup := t.ack = k.una ∧ t.data = [] ∧ wnd = k.f CI.sndWnd
    let k1 := if k.windowNew t then { k with wl1 := t.seq, wl2 := t.ack } else k
    let s1 := s.setConn c ({ k1.put CI.sndWnd wnd with segs := markSacked k.segs t.sacks }.ecn t.flags t.ack)
    let s2 := if t.ack ≠ k.una then s1.tcpNewAck c t.ack else if dup then s1.tcpDupAck c else s1
    s2.tcpPush c

/-! ### Receiving -/

/-- Two pieces that touch, joined. -/
def joinPieces (a b : Nat × List Byte) : Option (Nat × List Byte) :=
  let d := seqDiff b.1 a.1
  let e := seqDiff a.1 b.1
  if d ≤ a.2.length then some (a.1, a.2 ++ b.2.drop (a.2.length - d))
  else if e ≤ b.2.length then some (b.1, b.2 ++ a.2.drop (b.2.length - e))
  else none

/-- A piece joins those stored, the latest first. -/
def addPiece (l : List (Nat × List Byte)) (x : Nat × List Byte) : List (Nat × List Byte) :=
  let (m, rest) := l.foldl (fun (acc : (Nat × List Byte) × List (Nat × List Byte)) y =>
    match joinPieces acc.1 y with
    | some z => (z, acc.2)
    | none => (acc.1, acc.2 ++ [y])) (x, [])
  m :: rest

/-- Data of a segment: what follows in order joins the stream, the rest is stored (SACK); bytes that have
arrived before are dropped. -/
def NveConn.take (k : NveConn) (seq : Nat) (data : List Byte) : NveConn :=
  let next := k.f CI.rcvNxt
  let old := seqDiff next seq
  let (seq1, data1) := if old < 2 ^ 31 then (next, data.drop old) else (seq, data)
  if data1 = [] ∨ 65535 * 2 ^ min 14 (k.f CI.rcvScale) < seqDiff seq1 next + data1.length then k
  else
    let l := addPiece k.ooo (seq1, data1)
    match l.find? fun x => x.1 == next with
    | some x => { k.put CI.rcvNxt (seqAdd next x.2.length) with rcv := k.rcv ++ x.2, ooo := l.filter fun y => y.1 != next }
    | none => { k with ooo := l }

/-- Walk the options of a header: timestamps and SACK blocks. -/
def tcpReadOptions : Nat → List Byte → Option (Nat × Nat) × List (Nat × Nat)
  | 0, _ => (none, [])
  | _, [] => (none, [])
  | fuel + 1, x :: t =>
    if x = 0 then (none, [])
    else if x = 1 then tcpReadOptions fuel t
    else
      let n := beAt t 0 1
      if n < 2 then (none, [])
      else
        let (ts, sk) := tcpReadOptions fuel (t.drop (n - 1))
        let body := t.drop 1
        if x = 8 ∧ n = 10 then (some (beAt body 0 4, beAt body 4 4), sk)
        else if x = 5 then (ts, ((List.range ((n - 2) / 8)).map fun i => (beAt body (8 * i) 4, beAt body (8 * i + 4) 4)) ++ sk)
        else (ts, sk)

/-- A frame read as a TCP segment; `none` where it is none or its checksum is wrong. -/
def parseTcp (f : List Byte) : Option TcpIn :=
  let (o, ihl, proto, v) := ipAt f
  let l4 := o + ihl
  let n := if v = 4 then beAt f (o + 2) 2 - ihl else beAt f (o + 4) 2
  let (src, dst) := ipAddrs f
  let h := beAt f (l4 + 12) 1 / 16 * 4
  let seg := bytesAt f l4 n
  if v = 0 ∨ proto ≠ 6 ∨ n < 20 ∨ f.length < l4 + n ∨ h < 20 ∨ n < h ∨ ipChecksum (tcpPseudo src dst n ++ seg) ≠ 0 then none
  else
    let (ts, sk) := tcpReadOptions 40 (bytesAt seg 20 (h - 20))
    some { src := src, dst := dst, sport := beAt seg 0 2, dport := beAt seg 2 2, seq := beAt seg 4 4, ack := beAt seg 8 4,
           flags := beAt seg 13 1, wnd := beAt seg 14 2, ts := ts, sacks := sk, data := seg.drop h, ce := ipEcn f == 3 }

/-- The offloaded connection of an engine that a segment matches. -/
def State.tcpMatch (s : State) (e : Nat) (t : TcpIn) : Option Nat :=
  (spKeys s.nve.conns).find? fun c =>
    let k := s.conn c
    (k.inst || k.f CI.state == connUp || k.f CI.state == connClosing) && k.f CI.engine == e && k.f CI.sport == t.dport &&
    k.f CI.dport == t.sport && k.dest == t.src && k.source == t.dst

/-- A timestamp older than the last one (RFC 7323)? -/
def NveConn.stale (k : NveConn) (t : TcpIn) : Bool :=
  match k.tsRecent, t.ts with
  | some r, some (v, _) => decide (0 < seqDiff r v) && decide (seqDiff r v < 2 ^ 31)
  | _, _ => false

/-- Bytes of the stream and FIN that a segment holds. -/
def tcpSpan (t : TcpIn) : Nat := t.data.length + t.flags % 2

/-- Does a sequence number lie in the receive window, at its widest: what the device offers is free? -/
def NveConn.inWindow (k : NveConn) (seq : Nat) : Bool :=
  decide (seqDiff seq (k.f CI.rcvNxt) < 65535 * 2 ^ min 14 (k.f CI.rcvScale))

/-- Is a segment acceptable (RFC 9293): its first or its last number in the window? -/
def NveConn.accepts (k : NveConn) (t : TcpIn) : Bool :=
  k.inWindow t.seq || decide (0 < tcpSpan t) && k.inWindow (seqAdd t.seq (tcpSpan t - 1))

/-- Does a segment acknowledge what has not been sent? -/
def NveConn.ackAhead (k : NveConn) (t : TcpIn) : Bool :=
  decide (0 < seqDiff t.ack (k.f CI.sndNxt)) && decide (seqDiff t.ack (k.f CI.sndNxt) < 2 ^ 31)

/-- The timestamp to echo: of a segment that does not start beyond what is awaited. -/
def NveConn.stamp (k : NveConn) (t : TcpIn) : Option Nat :=
  if seqDiff (k.f CI.rcvNxt) t.seq < 2 ^ 31 then (t.ts.map Prod.fst).or k.tsRecent else k.tsRecent

/-- The peer's FIN is taken in order. -/
def NveConn.finIn (k : NveConn) : NveConn :=
  if k.finAt == some (k.f CI.rcvNxt) && !k.peerFin then { k.put CI.rcvNxt (seqAdd (k.f CI.rcvNxt) 1) with peerFin := true, finDue := true } else k

/-- The data, ECN mark, timestamp and FIN of a segment; the data is acknowledged. -/
def State.tcpDataIn (s : State) (c : Nat) (t : TcpIn) : State :=
  let k := s.conn c
  let fin := t.flags % 2 == 1
  if t.data == [] && !fin then s
  else
    let k2 := k.take t.seq t.data
    let k3 : NveConn := { k2 with echo := (k2.echo && !(t.flags / fCwr % 2 == 1)) || t.ce }
    let k4 : NveConn := if fin then { k3 with finAt := some (seqAdd t.seq t.data.length) } else k3
    (s.setConn c k4.finIn).tcpAck c

end Sys2Proof.Machine
end

