-- ==== Sys2Proof/Machine/NveOps.lean ====
section
/-! DEFINITION. Storage engines: controllers, completions and events, commands toward the target, the storage
buffer and its drains, and the failure of a connection (R333 to R359). -/

namespace Sys2Proof.Machine

/-! ### Controllers -/

def nveCtlReset (_ : Nat) : NveCtl :=
  { cc := 0, csts := 0, intm := 0, aqa := 0, asq := 0, acq := 0, sqs := [], cqs := [], feats := [], nsq := none, ncq := none,
    aers := [], events := [], masked := [], changed := [], errLog := [], turn := 0, mode := 0, blocks := [], hi := false,
    drainAll := false, lost := 0, drains := 0, shut := 0, shn := false, dis := false, held := [], stats := [0, 0, 0, 0, 0, 0] }
def State.ctl (s : State) (f : Nat) : NveCtl := spGet nveCtlReset s.nve.ctls f
def State.setCtl (s : State) (f : Nat) (c : NveCtl) : State :=
  s.withNve { s.nve with ctls := spSet nveCtlReset s.nve.ctls f c }

abbrev mDurable : Nat := 0
abbrev mProvisional : Nat := 1
abbrev mDraining : Nat := 2

def nsReset (_ : Nat) : NveNs := { tgt := 0, base := 0, size := 0, cfg := BitVec.ofNat 64 (12 * 2 ^ 40) }
def State.nveNs (s : State) (f n : Nat) : NveNs := spGet nsReset s.nve.ns (64 * f + n)
def NveNs.conn (n : NveNs) : Nat := bitsAt n.tgt 63 48
def NveNs.remote (n : NveNs) : Nat := bitsAt n.tgt 31 0
def NveNs.nsze (n : NveNs) : Nat := bitsAt n.size 47 0
def NveNs.lbads (n : NveNs) : Nat := bitsAt n.cfg 43 40
def NveNs.ro (n : NveNs) : Bool := bitAt n.cfg 45
def NveNs.vwc (n : NveNs) : Bool := bitAt n.cfg 44
def NveNs.xts (n : NveNs) : Bool := bitAt n.cfg 32
def NveNs.queue (n : NveNs) : Nat := bitsAt n.cfg 31 24
def NveNs.slot (n : NveNs) : Nat := bitsAt n.cfg 19 0

/-- The NSIDs of a function's active namespaces. -/
def State.activeNs (s : State) (f : Nat) : List Nat :=
  (List.range (nveNsMax s.plan f + 1)).filter fun n => decide (1 ≤ n) && decide (0 < (s.nveNs f n).nsze)

/-- Has some active namespace a target with a volatile cache? -/
def State.anyVwc (s : State) (f : Nat) : Bool := (s.activeNs f).any fun n => (s.nveNs f n).vwc

/-- The volatile write cache that R355 reports. -/
def State.hostVwc (s : State) (f : Nat) : Bool := (s.ctl f).mode != mDurable || s.anyVwc f

def nveEp (n : Nat) : Nat := 0x50 + n
def State.fnNve (s : State) (f : Nat) : Nat := nveEngine s.plan f

/-- Does the engine of a function run: ready, not in Hold (R359)? -/
def State.nveRuns (s : State) (f : Nat) : Bool := s.ready && nveHas s.plan f && !s.epHeld (nveEp (s.fnNve f))

/-- A condition of NVE with the function and the connection concerned (Table 13-9). -/
def State.nveFault (s : State) (cond bit f c : Nat) : State := s.fault uNve cond bit (f * 2 ^ 28 + c)

def NveCtl.feat (c : NveCtl) (fid : Nat) : Nat := spGet (fun _ => 0) c.feats fid

/-! ### Statuses: SC in bits 7:0, SCT in 10:8, DNR bit 14 -/

abbrev stDnr : Nat := 0x4000
abbrev stTransient : Nat := 0x22
abbrev stData : Nat := 0x04
abbrev stInternal : Nat := 0x06
abbrev stAborted : Nat := 0x07
abbrev stSqDeleted : Nat := 0x08
abbrev stOpcode : Nat := 0x01 + 0x4000
abbrev stField : Nat := 0x02 + 0x4000
abbrev stNamespace : Nat := 0x0B + 0x4000
abbrev stRange : Nat := 0x80 + 0x4000
abbrev stReadOnly : Nat := 0x182 + 0x4000
abbrev stUnrecovered : Nat := 0x281 + 0x4000
abbrev stPrp : Nat := 0x13 + 0x4000

/-! ### Completion entries -/

/-- A write of the device toward host memory; one that fails is a host DMA error (R361). -/
def State.nveDma (s : State) (f iova : Nat) (signal : Bool) (data : List Byte) : Bool × State :=
  let (ok, s1) := s.dmaWrite f none signal iova data
  (ok, if ok then s1 else s1.nveFault 0x0B 10 f 0)

/-- A completion entry goes to its queue, or waits there for room. -/
def State.nveCqe (s : State) (f : Nat) (e : Nat × Nat × Nat × Nat × Nat × Nat) : State :=
  let (cq, sq, cid, head, status, dw0) := e
  let c := s.ctl f
  match c.cqs.find? fun (q : NveCq) => q.qid == cq with
  | none => s
  | some q =>
    if (q.tail + 1) % q.size = q.head then s.setCtl f { c with held := c.held ++ [e] }
    else
      let w := natLE 4 dw0 ++ natLE 4 0 ++ natLE 2 head ++ natLE 2 sq ++ natLE 2 cid ++
        natLE 2 (status * 2 + if q.phase then 1 else 0)
      let q1 := { q with tail := (q.tail + 1) % q.size, phase := if q.tail + 1 = q.size then !q.phase else q.phase }
      let s1 := s.setCtl f { c with cqs := c.cqs.map fun (x : NveCq) => if x.qid = cq then q1 else x }
      let s2 := (s1.nveDma f (q.base + 16 * q.tail) true w).2
      if q.ien then s2.raiseMsix f q.vec else s2

/-- Entries that waited for room are written in order. -/
def State.nveHeld (s : State) (f cq : Nat) : State :=
  let c := s.ctl f
  (c.held.filter fun e => e.1 == cq).foldl (fun (s : State) e => s.nveCqe f e)
    (s.setCtl f { c with held := c.held.filter fun e => e.1 != cq })

/-- A command of queue `sq` completes. -/
def State.nveComplete (s : State) (f sq cid status dw0 : Nat) : State :=
  let q := (s.ctl f).sqs.find? fun (x : NveSq) => x.qid == sq
  s.nveCqe f ((q.map NveSq.cq).getD 0, sq, cid, (q.map NveSq.head).getD 0, status, dw0)

/-! ### Asynchronous events (R342, R355) -/

/-- Requests outstanding take the events whose type is not masked. -/
def State.nveAer (s : State) (f : Nat) : Nat → State
  | 0 => s
  | n + 1 =>
    let c := s.ctl f
    match c.aers, c.events.find? fun e => !c.masked.contains e.1 with
    | cid :: rest, some e =>
      let (ty, info, page) := e
      ((s.setCtl f { c with aers := rest, events := c.events.filter (· != e), masked := ty :: c.masked }).nveComplete
        f 0 cid 0 (ty + info * 256 + page * 65536)).nveAer f n
    | _, _ => s

/-- An event of type, information and log page. -/
def State.nveEvent (s : State) (f ty info page : Nat) : State :=
  let c := s.ctl f
  (s.setCtl f { c with events := c.events.filter (· != (ty, info, page)) ++ [(ty, info, page)] }).nveAer f 4

/-- A change of mode (R355). -/
def State.setMode (s : State) (f m : Nat) : State :=
  let s1 := s.setCtl f { s.ctl f with mode := m }
  if ((s.ctl f).feat 0x0B).testBit 31 then s1.nveEvent f 7 0 0xC0 else s1

/-! ### Commands and target commands -/

def State.nveCmd (s : State) (id : Nat) : Option NveCmd := s.nve.cmds.find? fun (x : NveCmd) => x.id == id
def State.setCmd (s : State) (x : NveCmd) : State :=
  s.withNve { s.nve with cmds := s.nve.cmds.map fun (y : NveCmd) => if y.id = x.id then x else y }
def State.setJobs (s : State) (l : List NveJob) : State := s.withNve { s.nve with jobs := l }
def State.setJob (s : State) (x : NveJob) : State :=
  s.setJobs (s.nve.jobs.map fun (y : NveJob) => if y.id = x.id then x else y)

/-- A command ends: its completion entry, its place in the lists of commands and of what is not sent yet. Cipher
commands and target commands outstanding end on their own. -/
def State.nveFinish (s : State) (x : NveCmd) (status dw0 : Nat) : State :=
  let s1 := (s.withNve { s.nve with
    cmds := s.nve.cmds.filter fun (y : NveCmd) => y.id != x.id
    jobs := (s.nve.jobs.filter fun (j : NveJob) => !(j.owner == some x.id && j.cid.isNone)).map fun (j : NveJob) =>
      if j.owner = some x.id then { j with dead := true } else j })
  s1.nveComplete x.fn x.sq x.cid status dw0

/-- The field of a submission entry at a byte. -/
def NveCmd.at (x : NveCmd) (o n : Nat) : Nat := leAt x.sqe o n
def NveCmd.slba (x : NveCmd) : Nat := x.at 40 8
def NveCmd.nlb (x : NveCmd) : Nat := x.at 48 2 + 1
def NveCmd.nsid (x : NveCmd) : Nat := x.at 4 4

abbrev opFlush : Nat := 0
abbrev opWrite : Nat := 1
abbrev opRead : Nat := 2
abbrev opZeroes : Nat := 8
abbrev opDsm : Nat := 9

def NveCmd.isIo (x : NveCmd) (op : Nat) : Bool := x.sq != 0 && x.op == op

/-- The LBA ranges a command writes. -/
def NveCmd.ranges (x : NveCmd) : List (Nat × Nat) :=
  if x.isIo opWrite || x.isIo opZeroes then [(x.slba, x.nlb)]
  else if x.isIo opDsm then
    (List.range (x.at 40 1 + 1)).map fun i => (leAt x.data (16 * i + 8) 8, leAt x.data (16 * i + 4) 4)
  else []

def rangesMeet (a b : List (Nat × Nat)) : Bool :=
  a.any fun x => b.any fun y => decide (x.1 < y.1 + y.2) && decide (y.1 < x.1 + x.2)

/-- Does an earlier command of the same namespace still write what `x` touches (R339)? -/
def State.nveBehind (s : State) (x : NveCmd) (touch : List (Nat × Nat)) : Bool :=
  s.nve.cmds.any fun (y : NveCmd) => decide (y.id < x.id) && y.fn == x.fn && y.nsid == x.nsid && rangesMeet y.ranges touch

/-- A target command joins those of its connection. -/
def State.nveJob (s : State) (owner : Option Nat) (f nsid conn op remote : Nat) (cdw data : List Byte) (len off : Nat)
    (blocks : List (Nat × Nat)) : State :=
  (s.withNve { s.nve with
    nextId := s.nve.nextId + 1
    jobs := s.nve.jobs ++ [(⟨s.nve.nextId, owner, f, nsid, conn, op, remote, cdw, data, len, off, none, 0, false, blocks⟩ : NveJob)] })

/-- CDW10 to CDW15 of a command on `nlb` blocks from host block `lba`. -/
def cdwRw (n : NveNs) (lba nlb : Nat) : List Byte :=
  natLE 8 ((n.base.toNat + lba) % 2 ^ 64) ++ natLE 4 (nlb - 1) ++ List.replicate 12 0

/-! ### PDUs (R345) -/

def padTo (k : NveConn) (n : Nat) : Nat := roundUp n (4 * (k.f CI.cpda + 1))
def digestOf (on : Nat) (l : List Byte) : List Byte := if on = 1 then natLE 4 (crc32cStd l) else []

/-- A PDU: type, further flags, the header after the common one, and data. -/
def pdu (k : NveConn) (type flags : Nat) (head data : List Byte) : List Byte :=
  let hl := 8 + head.length
  let hd := k.f CI.hdgst
  let pdo := if data = [] then 0 else padTo k (hl + 4 * hd)
  let plen := if data = [] then hl + 4 * hd else pdo + data.length + 4 * k.f CI.ddgst
  let h := natLE 1 type ++ natLE 1 (flags + hd + if data = [] then 0 else 2 * k.f CI.ddgst) ++ natLE 1 hl ++ natLE 1 pdo ++
    natLE 4 plen ++ head
  let front := h ++ digestOf hd h
  if data = [] then front
  else front ++ List.replicate (pdo - front.length) 0 ++ data ++ digestOf (k.f CI.ddgst) data

/-- The CapsuleCmd of a target command. -/
def capsule (k : NveConn) (j : NveJob) (cid : Nat) : List Byte :=
  let inline := decide (0 < j.data.length) && decide (j.data.length ≤ k.f CI.ioccsz)
  let sgl := natLE 8 0 ++ natLE 4 j.len ++ natLE 3 0 ++ natLE 1 (if inline then 0x01 else 0x5A)
  let sqe := natLE 1 j.op ++ natLE 1 0x40 ++ natLE 2 cid ++ natLE 4 j.remote ++ List.replicate 16 0 ++ sgl ++ j.cdw
  pdu k 0x04 0 sqe (if inline then j.data else [])

/-- A command identifier not in use on a connection: the manual does not say which. -/
def State.pickCid (s : State) (c : Nat) : Nat × State :=
  let (v, s1) := s.takeFree
  let used := s.nve.jobs.filterMap fun (j : NveJob) => if j.conn = c then j.cid else none
  ((((List.range (used.length + 1)).map fun i => (v.toNat + i) % 65536).find? fun x => !used.contains x).getD 0, s1)

/-- A drained Write has been completed by the target: its blocks are freed; one replaced meanwhile stays
(R353). -/
def State.drainDone (s : State) (j : NveJob) (ok : Bool) : State :=
  let c := s.ctl j.fn
  let mine := fun (y : NveBlock) => y.job == some j.id
  let blocks := c.blocks.filterMap fun (y : NveBlock) =>
    if !mine y then some y
    else if ok ∧ j.blocks.contains (y.lba, y.ver) then none
    else some { y with job := none, want := y.want && !ok, first := if ok then y.ver else y.first }
  let done := c.blocks.any (fun (y : NveBlock) => y.want) && !(blocks.any fun (y : NveBlock) => y.want)
  s.setCtl j.fn { c with blocks := blocks, drains := c.drains + if ok && done then 1 else 0 }

/-- A target command ends with a 15-bit status, of the target (`answered`) or of the device. -/
def State.nveJobEnd (s : State) (j : NveJob) (status : Nat) (answered : Bool) : State :=
  let s1 := s.setJobs (s.nve.jobs.filter fun (x : NveJob) => x.id != j.id)
  let s2 := if answered ∧ status ≠ 0 ∧ !j.dead then s1.count F.NVE_TGT_ERRORS_COUNT else s1
  match j.owner with
  | none => if j.op = opWrite then s2.drainDone j (status == 0) else s2
  | some id =>
    match s2.nveCmd id with
    | some x => if j.dead ∨ x.status ≠ 0 then s2 else s2.setCmd { x with status := status }
    | none => s2

/-- The command of a target command has been sent to the target, in part at least. -/
def State.nveSent (s : State) (j : NveJob) : State :=
  match j.owner.bind s.nveCmd with
  | some x => s.setCmd { x with sent := true }
  | none => s

/-- Does a target command carry PROVISIONAL data: a drain (R352)? -/
def NveJob.prov (j : NveJob) : Bool := j.owner.isNone && j.op == opWrite

/-- Target commands waiting for connection `c` are sent in order while it is up and the target's queue has
room; on a failed connection they end with 0x22 (R349). -/
def State.nvePump (s : State) (c : Nat) : Nat → State
  | 0 => s
  | n + 1 =>
    let k := s.conn c
    let sent := (s.nve.jobs.filter fun (j : NveJob) => j.conn == c && j.cid.isSome).length
    match s.nve.jobs.find? fun (j : NveJob) => j.conn == c && j.cid.isNone with
    | none => s
    | some j =>
      if k.f CI.state = connFailed then (s.nveJobEnd j stTransient false).nvePump c n
      else if k.f CI.state ≠ connUp ∨ k.f CI.tgtSqSize ≤ sent + 1 ∨ !s.nveRuns j.fn then s
      else
        let (cid, s1) := s.pickCid c
        let k1 := k.put CI.sqTail ((k.f CI.sqTail + 1) % k.f CI.tgtSqSize)
        ((((s1.setConn c k1).setJob { j with cid := some cid }).nveSent j).tcpWrite c j.prov (capsule k j cid)).nvePump c n

/-! ### At-rest encryption (R357) -/

/-- The pieces of at most 32,768 bytes of `n` bytes. -/
def ciphPieces : Nat → Nat → Nat → List (Nat × Nat)
  | 0, _, _ => []
  | fuel + 1, o, n => if n ≤ o then [] else (o, min 32768 (n - o)) :: ciphPieces fuel (o + 32768) n

/-- One cipher command. -/
def State.nveCipher1 (s : State) (x : NveCmd) (op : Nat) (p : Nat × Nat) : State :=
  let (v, s1) := s.takeFree
  let used := s.nve.ciphs.map NveCiph.ctx
  let ctx := (((List.range (used.length + 1)).map fun i => (v.toNat + i) % 2 ^ 24).find? fun c => !used.contains c).getD 0
  let text := bytesAt x.data p.1 p.2
  let pb0 := bytesPut (List.replicate 64 0) 0 (natLE 8 (x.slba + p.1 / 2 ^ x.ns.lbads))
  let pb := bytesPut (bytesPut pb0 20 (natLE 4 p.2)) 27 (natLE 1 x.ns.lbads)
  let ep := nveEp (s.fnNve x.fn)
  let w := hSets hZero [(CH.kind, kCommand), (CH.td, fnTd s.plan x.fn), (CH.prov, if x.prov && op == opNvmeEncrypt then 1 else 0),
    (CH.len, 64 + p.2), (CH.srcEp, ep), (CH.dstEp, 0x20 + cphQPair s.plan x.ns.queue), (CH.dstQueue, x.ns.queue), (CH.ctx, ctx),
    (CH.timeNs, s.timeNs 0), (CH.timeFrac, s.timeFrac 0), (CH.offsets, 2 ^ 48 - 1), (CH.keySlot, x.ns.slot), (CH.opcode, op)]
  ((s1.withNve { s1.nve with ciphs := s1.nve.ciphs ++ [(⟨ctx, x.id, p.1, p.2, x.fn, x.ns.conn⟩ : NveCiph)] })).send ep ⟨w, pb ++ text, false⟩

/-- The data of a command goes through the cipher; without its queue the command fails. -/
def State.nveCipher (s : State) (x : NveCmd) (op : Nat) : State :=
  if !cphQPresent s.plan x.ns.queue then s.setCmd { x with status := stInternal + stDnr }
  else (ciphPieces (x.data.length / 32768 + 1) 0 x.data.length).foldl (fun (s : State) p => s.nveCipher1 x op p) s

/-! ### Host ranges (PRPs) -/

/-- The memory page of a controller. -/
def NveCtl.page (c : NveCtl) : Nat := 4096 * 2 ^ bitsAt (BitVec.ofNat 64 c.cc) 10 7

/-- The list entries of `n` pages, from the entries read in order; a full list page ends in a pointer. -/
def prpEntries (page : Nat) : Nat → Nat → Nat → List Byte → List Nat
  | 0, _, _, _ => []
  | fuel + 1, at_, n, l =>
    let k := (page - at_ % page) / 8
    if n ≤ k then (List.range n).map fun i => leAt l (8 * i) 8
    else ((List.range (k - 1)).map fun i => leAt l (8 * i) 8) ++
      prpEntries page fuel (leAt l (8 * (k - 1)) 8) (n - (k - 1)) (l.drop (8 * k))

/-- The host ranges of `len` bytes; `none` where an offset is invalid. -/
def prpRanges (page p1 p2 len : Nat) (list : List Byte) : Option (List (Nat × Nat)) :=
  let first := min len (page - p1 % page)
  let rest := len - first
  if p1 % 4 ≠ 0 then none
  else if rest = 0 then some [(p1, first)]
  else if rest ≤ page then if p2 % page ≠ 0 then none else some [(p1, first), (p2, rest)]
  else if p2 % 8 ≠ 0 then none
  else
    let es := prpEntries page 64 p2 ((rest + page - 1) / page) list
    if es.any fun a => a % page != 0 then none
    else some ((p1, first) :: (List.range es.length).map fun i => (es.getD i 0, min page (rest - i * page)))

/-- The list page that a transfer reads, if it reads one: its address and the bytes needed of it. -/
def prpListAt (page p1 p2 len : Nat) : Option (Nat × Nat) :=
  let rest := len - min len (page - p1 % page)
  if rest ≤ page then none else some (p2, min (8 * ((rest + page - 1) / page)) (page - p2 % page))

/-- Bytes `off` on of a command's data go to the host ranges. -/
def State.nveToHost (s : State) (f : Nat) : List (Nat × Nat) → Nat → List Byte → Bool × State
  | _, _, [] => (true, s)
  | [], _, _ => (true, s)
  | (a, n) :: t, off, d =>
    if n ≤ off then s.nveToHost f t (off - n) d
    else
      let m := min d.length (n - off)
      let (ok, s1) := s.nveDma f (a + off) false (d.take m)
      if !ok then (false, s1) else s1.nveToHost f t 0 (d.drop m)

/-- Host ranges translated in turn for a read, up to the first that faults. -/
def State.readRanges (s : State) (f : Nat) : List (Nat × Nat) → Bool × State
  | [] => (true, s)
  | r :: t =>
    let (pass, s1) := s.readPass f none r.1 r.2
    if pass then s1.readRanges f t else (false, s1)

/-- A read of host ranges: the bytes, or the status with which the command ends. -/
def State.nveFromHost (s : State) (f : Nat) (ranges : List (Nat × Nat)) (h : NveHost) (len : Nat) :
    (Nat × List Byte) × State :=
  if !s.dmaAllowed f then ((stData, []), s.nveFault 0x0B 10 f 0)
  else
    let (pass, s1) := s.readRanges f ranges
    if !pass then ((stData, []), s1.nveFault 0x0B 10 f 0)
    else
      if h.e = .ok then ((0, bytesAt h.data 0 len), s1)
      else ((stData, []), (s1.dmaEnded f h.e).nveFault 0x0B 10 f 0)

/-- The host ranges of a command's `len` bytes, with the read of its PRP list: a status where that fails. -/
def State.nvePrps (s : State) (x : NveCmd) (len : Nat) (h : NveHost) : (Nat × List (Nat × Nat)) × State :=
  let page := (s.ctl x.fn).page
  let p1 := x.at 24 8
  let p2 := x.at 32 8
  let go := fun (s : State) =>
    match prpRanges page p1 p2 len h.list with
    | some l => ((0, l), s)
    | none => ((stPrp, []), s)
  match prpListAt page p1 p2 len with
  | none => go s
  | some (a, n) =>
    if !s.dmaAllowed x.fn then ((stData, []), s.nveFault 0x0B 10 x.fn 0)
    else
      let (pass, s1) := s.readPass x.fn none a n
      if pass then go s1 else ((stData, []), s1.nveFault 0x0B 10 x.fn 0)

/-! ### The storage buffer (R352, R353) -/

/-- Base address and size in bytes of a controller's buffer. -/
def State.nveBuf (s : State) (f : Nat) : Nat × Nat :=
  match tdPartition s.plan 0 (fnTd s.plan f) with
  | some (b, _) => (b + nveBufBase s.plan f, nveBufMib s.plan f * 1048576)
  | none => (0, 0)

def NveCtl.used (c : NveCtl) : Nat := (c.blocks.map NveBlock.size).sum

/-- A place for a block of `n` bytes: the manual does not say which, so the search starts at a free value. -/
def State.pickBlock (s : State) (f n : Nat) : Option Nat × State :=
  let (v, s1) := s.takeFree
  let (b, size) := s.nveBuf f
  let slots := size / n
  let taken := (s.ctl f).blocks.map fun (x : NveBlock) => (x.addr, x.size)
  (((List.range (min slots (8 * taken.length + 1))).map fun i => b + (v.toNat + i) % slots * n).find? fun a =>
    !(taken.any fun t => decide (a < t.1 + t.2) && decide (t.1 < a + n)), s1)

/-- One block of a Write stored; a block of the same LBA is replaced. -/
def State.nveStore1 (s : State) (x : NveCmd) (i : Nat) : Bool × State :=
  let n := 2 ^ x.ns.lbads
  let c := s.ctl x.fn
  let data := bytesAt x.data (n * i) n
  let block := fun (a first : Nat) (want : Bool) (job : Option Nat) =>
    (⟨x.nsid, x.slba + i, x.id, first, a, n, s.clk.elapsed, x.ns.xts, want, job⟩ : NveBlock)
  match c.blocks.find? fun (y : NveBlock) => y.ns == x.nsid && y.lba == x.slba + i with
  | some y =>
    (true, (s.setCtl x.fn { c with blocks := (c.blocks.filter fun (z : NveBlock) => z.addr != y.addr) ++ [block y.addr y.first y.want y.job] }).putBytes
      y.addr data)
  | none =>
    match s.pickBlock x.fn n with
    | (none, s1) => (false, s1)
    | (some a, s1) => (true, (s1.setCtl x.fn { c with blocks := c.blocks ++ [block a x.id false none] }).putBytes a data)

def State.nveStoreAll (s : State) (x : NveCmd) : Nat → Bool × State
  | 0 => (true, s)
  | n + 1 =>
    let (ok, s1) := s.nveStoreAll x n
    if !ok then (false, s1) else s1.nveStore1 x n

/-- A Write goes into the buffer if all of it finds space (R352). -/
def State.nveStore (s : State) (x : NveCmd) : Bool × State :=
  let c := s.ctl x.fn
  let new := ((List.range x.nlb).filter fun i => !(c.blocks.any fun (y : NveBlock) => y.ns == x.nsid && y.lba == x.slba + i)).length
  if (s.nveBuf x.fn).2 < c.used + new * 2 ^ x.ns.lbads then (false, s)
  else
    let (ok, s1) := s.nveStoreAll x x.nlb
    if !ok then (false, s)
    else
      let c1 := s1.ctl x.fn
      (true, s1.setCtl x.fn { c1 with
        hi := c1.hi || decide (s1.get F.NVE_BUF_HIWAT_PCT * (s1.nveBuf x.fn).2 < 100 * c1.used) })

/-- Blocks of the predicate are wanted by a drain. -/
def State.wantBlocks (s : State) (f : Nat) (p : NveBlock → Bool) : State :=
  let c := s.ctl f
  s.setCtl f { c with blocks := c.blocks.map fun (y : NveBlock) => if p y then { y with want := true } else y }

/-- The oldest blocks that the high-water drain still wants, until half the level remains (R353). -/
def hiWant : List NveBlock → Nat → Nat → List NveBlock
  | [], _, _ => []
  | y :: t, used, level => if used ≤ level then y :: t else { y with want := true } :: hiWant t (used - y.size) level

/-- What every drain in force wants. -/
def State.nveWant (s : State) (f : Nat) : State :=
  let c := s.ctl f
  let level := s.get F.NVE_BUF_HIWAT_PCT * (s.nveBuf f).2 / 200
  if c.mode == mDraining || c.drainAll || c.shut != 0 || c.dis then s.wantBlocks f fun _ => true
  else if c.hi then
    if c.used ≤ level then s.setCtl f { c with hi := false }
    else s.setCtl f { c with blocks := hiWant c.blocks c.used level }
  else s

/-- The block that may start a run of a drain: wanted, not being drained, its namespace's connection up. -/
def State.drainable (s : State) (f : Nat) (y : NveBlock) : Bool :=
  y.want && y.job.isNone && (s.conn (s.nveNs f y.ns).conn).f CI.state == connUp && decide (0 < (s.nveNs f y.ns).nsze)

/-- The run of consecutive blocks from `y` on, at most 256 KiB. -/
def drainRun (l : List NveBlock) (y : NveBlock) : Nat → List NveBlock
  | 0 => []
  | n + 1 => y :: (match l.find? fun (z : NveBlock) => z.ns == y.ns && z.lba == y.lba + 1 && z.size == y.size && z.xts == y.xts with
    | some z => drainRun l z n
    | none => [])

/-- A buffered block is lost to an uncorrectable error (R359). -/
def State.dropBlock (s : State) (f : Nat) (y : NveBlock) : State :=
  let c := s.ctl f
  (s.setCtl f { c with
    blocks := c.blocks.filter fun (z : NveBlock) => z.addr != y.addr
    lost := c.lost + y.size
    stats := c.stats.set 4 (c.stats.getD 4 0 + 1) }).nveFault 0x07 6 f (s.nveNs f y.ns).conn

/-- One drain Write is made, of the blocks that are readable. -/
def State.nveDrain1 (s : State) (f : Nat) : State :=
  let c := s.ctl f
  let ready := c.blocks.filter (s.drainable f)
  -- start at a block whose predecessor is not in the list
  match ready.find? fun (y : NveBlock) => !(ready.any fun (z : NveBlock) => z.ns == y.ns && z.lba + 1 == y.lba && z.size == y.size && z.xts == y.xts) with
  | none => s
  | some y =>
    let bad := drainRun ready y (262144 / max 1 y.size) |>.find? fun (z : NveBlock) => s.poisoned z.addr z.size
    match bad with
    | some z => s.dropBlock f z
    | none =>
      let run := drainRun ready y (262144 / max 1 y.size)
      let n := s.nveNs f y.ns
      let data := run.flatMap fun (z : NveBlock) => s.bytes z.addr z.size
      let id := s.nve.nextId
      let s1 := s.nveJob none f y.ns n.conn opWrite n.remote (cdwRw n y.lba run.length) data data.length 0
        (run.map fun (z : NveBlock) => (z.lba, z.ver))
      let c1 := s1.ctl f
      s1.setCtl f { c1 with blocks := c1.blocks.map fun (z : NveBlock) => if run.any (fun (w : NveBlock) => w.addr == z.addr) then { z with job := some id } else z }

/-- Drain Writes for everything wanted. -/
def State.nveDrains (s : State) (f : Nat) : Nat → State
  | 0 => s
  | n + 1 => if (s.ctl f).blocks.any (s.drainable f) then (s.nveDrain1 f).nveDrains f n else s

/-! ### The progress of commands -/

/-- Are target commands or cipher commands of a command outstanding? -/
def State.hasJobs (s : State) (id : Nat) : Bool := s.nve.jobs.any fun (j : NveJob) => j.owner == some id && !j.dead
def State.hasCiphs (s : State) (id : Nat) : Bool := s.nve.ciphs.any fun (c : NveCiph) => c.cmd == id

/-- Blocks that a command's ranges meet, buffered before it. -/
def NveCmd.meets (x : NveCmd) (y : NveBlock) : Bool :=
  y.ns == x.nsid && decide (y.ver < x.id) && rangesMeet [(y.lba, 1)] x.ranges

/-- Has a connection failed? -/
def State.connDown (s : State) (c : Nat) : Bool := (s.conn c).f CI.state == connFailed

/-- A Write, Write Zeroes or deallocate goes to the target, after the drain of the blocks it overlaps. -/
def State.nveToTarget (s : State) (x : NveCmd) : State :=
  let c := s.ctl x.fn
  let n := x.ns
  if s.connDown n.conn then s.nveFinish x stTransient 0
  else if c.blocks.any x.meets then s.wantBlocks x.fn x.meets
  else
    let y := { x with phase := 3 }
    if x.op = opDsm then
      let d := x.ranges.flatMap fun r => natLE 4 0 ++ natLE 4 r.2 ++ natLE 8 ((n.base.toNat + r.1) % 2 ^ 64)
      (s.setCmd y).nveJob (some x.id) x.fn x.nsid n.conn opDsm n.remote (natLE 4 (x.at 40 1) ++ natLE 4 4 ++ List.replicate 16 0)
        d d.length 0 []
    else
      (s.setCmd y).nveJob (some x.id) x.fn x.nsid n.conn x.op n.remote (cdwRw n x.slba x.nlb) x.data x.data.length 0 []

/-- Does a Flush wait for a block that drains on connection `c`? -/
def State.flushWaits (s : State) (c : Nat) (x : NveCmd) : Bool :=
  x.isIo opFlush && (s.ctl x.fn).blocks.any fun (y : NveBlock) => decide (y.first < x.id) && (s.nveNs x.fn y.ns).conn == c

/-- Is a Read, at its admission, served from the buffer alone? -/
def State.allBuffered (s : State) (x : NveCmd) : Bool :=
  x.isIo opRead && (List.range x.nlb).all fun i =>
    (s.ctl x.fn).blocks.any fun (y : NveBlock) => y.ns == x.nsid && y.lba == x.slba + i

/-- Has a command been admitted for connection `c`, not answered and not sent: it or the drain it awaits needs the
connection (R349)? -/
def State.waitsFor (s : State) (c : Nat) (x : NveCmd) : Bool :=
  x.sq != 0 && !x.sent && (s.flushWaits c x ||
    x.ns.conn == c && (if x.op == opFlush then s.anyVwc x.fn
      else decide (x.phase < 3) && !(x.op == opWrite && x.prov) && !s.allBuffered x))

/-- A Flush (R351, R352): after every earlier command that writes, and after the drain of every block buffered
before it; to the target where some target has a volatile cache. -/
def State.nveFlushStep (s : State) (x : NveCmd) : State :=
  let c := s.ctl x.fn
  let earlier := s.nve.cmds.any fun (y : NveCmd) => decide (y.id < x.id) && y.fn == x.fn && y.ranges != []
  let old := fun (y : NveBlock) => decide (y.first < x.id)
  let s1 := if c.blocks.any old then s.wantBlocks x.fn old else s
  if c.blocks.any fun (y : NveBlock) => old y && s.connDown (s.nveNs x.fn y.ns).conn then s.nveFinish x stTransient 0
  else if earlier || c.blocks.any old then s1
  else if !s.anyVwc x.fn then s1.nveFinish x x.status 0
  else
    (s1.setCmd { x with phase := 3 }).nveJob (some x.id) x.fn x.nsid x.ns.conn opFlush x.ns.remote (List.replicate 24 0) [] 0 0 []

/-- One command goes on as far as it can. -/
def State.nveAdvance (s : State) (x : NveCmd) : State :=
  if x.phase = 0 then s
  else if x.sq = 0 then
    -- Delete I/O SQ
    if s.nve.cmds.any fun (y : NveCmd) => y.fn == x.fn && y.sq == x.at 40 2 && y.id != x.id then s
    else
      let c := s.ctl x.fn
      (s.setCtl x.fn { c with sqs := c.sqs.filter fun (q : NveSq) => q.qid != x.at 40 2 }).nveFinish x 0 0
  else if x.phase = 1 then
    if s.hasCiphs x.id then s
    else if x.status ≠ 0 then s.nveFinish x x.status 0
    else s.setCmd { x with phase := 2 }
  else if x.phase = 2 then
    if x.status ≠ 0 then s.nveFinish x x.status 0
    else if x.op = opFlush then s.nveFlushStep x
    else if x.op = opWrite ∧ x.prov then
      let (ok, s1) := s.nveStore x
      if ok then s1.nveFinish x 0 0
      else (s.setCmd { x with prov := false }).count F.NVE_BUF_FULL_COUNT
    else s.nveToTarget x
  else if x.phase = 3 then
    if s.hasJobs x.id then s
    else if x.status = 0 ∧ x.op = opRead ∧ x.ns.xts then (s.setCmd { x with phase := 4 }).nveCipher { x with phase := 4 } opNvmeDecrypt
    else s.nveFinish x x.status 0
  else if s.hasCiphs x.id then s
  else if x.status ≠ 0 then s.nveFinish x x.status 0
  else
    let (ok, s1) := s.nveToHost x.fn x.prps 0 x.data
    s1.nveFinish x (if ok then 0 else stData) 0

/-- Can the drain of the whole buffer, or the flush after it, not complete because a connection failed (R356)? -/
def State.drainFailed (s : State) (f : Nat) : Bool :=
  let c := s.ctl f
  let down := fun n => s.connDown (s.nveNs f n).conn
  (c.drainAll || c.dis || c.shut == 1 || c.shut == 2) && c.blocks.any (fun (y : NveBlock) => down y.ns) ||
    (c.shut == 1 || c.shut == 2) && (s.activeNs f).any fun n => (s.nveNs f n).vwc && down n

/-- The end of a drain that a mode change or a shutdown waits for (R354, R356). -/
def State.ctlAdvance (s00 : State) (f : Nat) : State :=
  let s := if s00.drainFailed f ∧ (s00.ctl f).csts / 2 % 2 = 0 then
      s00.setCtl f { s00.ctl f with csts := (s00.ctl f).csts + 2 } else s00
  let c := s.ctl f
  let cmds := s.nve.cmds.any fun (x : NveCmd) => x.fn == f && x.sq != 0
  let flushing := s.nve.jobs.any fun (j : NveJob) => j.fn == f && j.owner.isNone && j.op == opFlush
  let targets := (s.activeNs f).filter fun n => (s.nveNs f n).vwc
  let s0 := if c.drainAll && c.blocks == [] then s.setCtl f { c with drainAll := false } else s
  let s1 := if c.mode = mDraining ∧ c.blocks = [] then s0.setMode f mDurable else s0
  let c1 := s1.ctl f
  if c1.shut = 1 ∧ c.blocks = [] ∧ !cmds then
    if targets.any fun n => (s.conn (s.nveNs f n).conn).f CI.state != connUp then s1
    else
      targets.foldl (fun (s : State) n =>
        s.nveJob none f n (s.nveNs f n).conn opFlush (s.nveNs f n).remote (List.replicate 24 0) [] 0 0 [])
        (s1.setCtl f { c1 with shut := 2 })
  else if c1.shut = 2 ∧ !flushing then
    s1.setCtl f { c1 with shut := 3, csts := if c1.shn then c1.csts / 16 * 16 + c1.csts % 4 + 8 else c1.csts }
  else if c1.dis ∧ c.blocks = [] ∧ !(s.nve.cmds.any fun (x : NveCmd) => x.fn == f) then
    -- controller reset: the registers that survive it, and the buffer's record
    let r : NveCtl := { nveCtlReset f with
      cc := c1.cc, intm := c1.intm, aqa := c1.aqa, asq := c1.asq, acq := c1.acq, mode := c1.mode, lost := c1.lost, drains := c1.drains,
      stats := c1.stats }
    s1.setCtl f r
  else s1

/-- Everything that can go on goes on: commands in the order of their admission, drains, controllers,
connections. -/
def State.nveSettle (s : State) : Nat → State
  | 0 => s
  | n + 1 =>
    let s1 := s.nve.cmds.foldl (fun (s : State) (x : NveCmd) =>
      match s.nveCmd x.id with
      | some y => if s.nveRuns y.fn then s.nveAdvance y else s
      | none => s) s
    let fns := (spKeys s1.nve.ctls).filter s1.nveRuns
    let s2 := fns.foldl (fun (s : State) f => (((s.nveWant f).nveDrains f ((s.ctl f).blocks.length + 1)).ctlAdvance f)) s1
    let s3 := (spKeys s2.nve.conns).foldl (fun (s : State) c => s.nvePump c (s.nve.jobs.length + 1)) s2
    if s3.nve == s.nve then s3 else s3.nveSettle n

def State.nveGo (s : State) : State := s.nveSettle (4 * s.nve.cmds.length + (spKeys s.nve.ctls).length + 8)

/-! ### Failure of a connection (R349) -/

/-- The event header of a failed connection. The manual does not say which engine sends it. -/
def State.connEvent (s : State) (c : Nat) : State :=
  let (v, s1) := s.takeFree
  let ep := nveEp (v.toNat % 8)
  s1.send ep ⟨hSets hZero [(CH.kind, kEvent), (CH.srcEp, ep), (CH.dstEp, s.get F.NVE_NOTIFY_CFG_EP),
    (CH.dstQueue, s.get F.NVE_NOTIFY_CFG_QUEUE), (CH.timeNs, s.timeNs 0), (CH.timeFrac, s.timeFrac 0),
    (CH.offsets, 2 ^ 48 - 1), (CH.opcode, 0x0301), (CH.operand, c)], [], false⟩

/-! ### The front of the stream -/

/-- The header length of a PDU type that a target sends. -/
def pduHead (type : Nat) : Nat := if type = 0x05 ∨ type = 0x07 ∨ type = 0x09 ∨ type = 0x03 then 24 else 0

/-- The PDU at the front of a connection's stream, if it is whole: the type and all its bytes. -/
def NveConn.front (k : NveConn) : Option (Nat × List Byte) :=
  let n := leAt k.rcv 4 4
  if k.rcv.length < 8 ∨ k.rcv.length < n then none else some (leAt k.rcv 0 1, bytesAt k.rcv 0 n)

/-- Is the header of the front PDU present, and what is wrong with it: 1 its header digest, 2 its type or
length. -/
def NveConn.frontBad (k : NveConn) : Nat :=
  let type := leAt k.rcv 0 1
  let hd := k.f CI.hdgst
  let n := leAt k.rcv 4 4
  let hl := pduHead type
  if k.rcv.length < 8 then 0
  else if hl = 0 then 2
  else if type = 0x03 then (if leAt k.rcv 2 1 ≠ 24 ∨ n < 24 ∨ 152 < n then 2 else 0)
  else if leAt k.rcv 2 1 ≠ hl then 2
  else if k.rcv.length < hl + 4 * hd then 0
  else if hd = 1 ∧ leAt k.rcv hl 4 ≠ crc32cStd (bytesAt k.rcv 0 hl) then 1
  else if type = 0x07 then
    let pdo := leAt k.rcv 3 1
    if pdo < hl + 4 * hd ∨ n ≠ pdo + leAt k.rcv 16 4 + 4 * k.f CI.ddgst then 2 else 0
  else if n ≠ hl + 4 * hd then 2
  else 0

/-- Has a whole PDU of the target arrived that is still to be taken? -/
def NveConn.answers (k : NveConn) : Bool := k.front.isSome && k.frontBad == 0

/-- Everything that waits on a failed connection ends: commands sent on it with 0x22, drains and flushes; the
blocks of a drain stay (R349). -/
def State.connLost (s : State) (c : Nat) : State :=
  let s0 := s.setConn c { s.conn c with rcv := [], finDue := false }
  let hit := s0.nve.cmds.filter fun (x : NveCmd) => s0.nve.jobs.any fun (j : NveJob) => j.conn == c && j.owner == some x.id
  let s1 := hit.foldl (fun (s : State) (x : NveCmd) => s.nveFinish x stTransient 0) s0
  (s1.nve.jobs.filter fun (j : NveJob) => j.conn == c).foldl (fun (s : State) (j : NveJob) =>
    let s1 := s.nveJobEnd j stTransient false
    let t := s1.ctl j.fn
    if j.owner.isNone && t.shut == 2 then s1.setCtl j.fn { t with shut := 1 } else s1) s1

/-- A connection fails; `cond` and `bit` are the condition to record. What waits to be sent on it ends with 0x22; an
answer of the target that has arrived is taken first, and then ends what was sent (R349, R358). -/
def State.connFail (s : State) (c cond bit : Nat) : State :=
  let k := s.conn c
  if k.f CI.state ≠ connUp ∧ k.f CI.state ≠ connClosing ∧ !k.inst then
    (if k.f CI.state = connFailed ∧ k.rcv ≠ [] then (s.connLost c).nveGo else s)
  else
    let k1 := { k.put CI.state connFailed with inst := false, buf := [], segs := [], ooo := [], prov := [] }
    let s1 := (s.setConn c k1).nveFault cond bit 0 c
    let s2 := (s1.nve.cmds.filter (s1.waitsFor c)).foldl (fun (s : State) (x : NveCmd) => s.nveFinish x stTransient 0) s1
    let s3 := if k1.answers then s2 else s2.connLost c
    ((s3.set F.NVE_CONN_STATUS_BUSY (if s3.get F.NVE_CONN_SEL_CONN = c then 0 else s3.get F.NVE_CONN_STATUS_BUSY)).connEvent c).nveGo

/-- A connection that breaks the protocol: H2CTermReq with its FES, then failure (R346). The field number in
the PDU is free. A failed connection sends nothing. -/
def State.connTerm (s : State) (c fes cond bit : Nat) : State :=
  let (v, s1) := s.takeFree
  let k := s1.conn c
  let bad := bytesAt k.rcv 0 (min 24 k.rcv.length)
  let head := natLE 1 0x02 ++ natLE 1 0 ++ natLE 1 24 ++ natLE 1 0 ++ natLE 4 (24 + bad.length) ++ natLE 2 fes ++ natLE 4 v.toNat ++
    List.replicate 10 0
  if s.connDown c then s.connFail c cond bit else (s1.tcpWrite c false (head ++ bad)).connFail c cond bit

end Sys2Proof.Machine
end

