-- ==== Sys2Proof/Machine/TeSend.lean ====
section
/-! DEFINITION. Transport engines: the send queue, retransmission and timers (R288, R293, R299, R305,
R308). -/

namespace Sys2Proof.Machine

/-! ### Send work requests (R288) -/

/-- Does a QP type allow an opcode (Table 11-9)? -/
def teOpAllowed (op ty : Nat) (mp : Bool) : Bool :=
  if op ≤ 2 then true
  else if op = 3 ∨ op = 6 ∨ op = 0x11 then ty == 0 || ty == 3 || ty == 4
  else if op = 4 ∨ op = 5 then ty != 2
  else if op = 7 ∨ op = 8 then (ty == 0 || ty == 3 || ty == 4) && !mp
  else true

/-- Is it an opcode of Table 11-9? -/
def teOpKnown (op : Nat) : Bool := (decide (1 ≤ op) && decide (op ≤ 8)) || [0x10, 0x11, 0x20, 0x21].contains op

def wqeOp (b : List Byte) : Nat := leAt b 7 1
def wqeFlags (b : List Byte) : Nat := leAt b 6 1
def wqeInline (b : List Byte) : Bool := (wqeFlags b).testBit 3
def wqeNsge (b : List Byte) : Nat := leAt b 5 1 / 16 + 1
def wqeWord (b : List Byte) (w : Nat) : Nat := leAt b (8 * w) 8

/-- Slots of a WQE: a datagram has its address vector in the second. -/
def wqeSlots (b : List Byte) (ty : Nat) : Nat :=
  1 + (if ty = 2 then 1 else 0) +
    (if wqeInline b then (leAt b 48 4 + 63) / 64 else if wqeOp b ≤ 8 then (wqeNsge b - 1 + 3) / 4 else 0)

/-- The elements of a WQE. -/
def wqeSges (b : List Byte) (ty : Nat) : List TeSge :=
  if wqeInline b then []
  else
    let o := if ty = 2 then 128 else 64
    ⟨wqeWord b 6 / 2 ^ 32, wqeWord b 6 % 2 ^ 32, wqeWord b 7⟩ ::
      (List.range (wqeNsge b - 1)).map fun k => ⟨leAt b (o + 16 * k) 4, leAt b (o + 16 * k + 4) 4, leAt b (o + 16 * k + 8) 8⟩

def sgeBytes (l : List TeSge) : Nat := (l.map TeSge.len).sum

/-- PSNs that may still be sent. -/
def State.teWindow (s : State) (c : Nat) : Nat :=
  (if s.isMp c then 4096 else 2 ^ 23 - 1) - psnDiff (s.qc c QC.nextPsn) (s.qc c QC.unaPsn)

/-- A started request put in its place: replaced, or added at the end. -/
def State.setTeTx (s : State) (c : Nat) (t : TeTx) : State :=
  let q := s.teQp c
  let l := if q.tx.any fun (x : TeTx) => x.id == t.id then q.tx.map fun (x : TeTx) => if x.id = t.id then t else x
    else q.tx ++ [t]
  s.setTeQp c { q with tx := l }

/-- Does a send error of this status take a QP of this type from RTS to SQE, as IBTA has it for UC and UD (R281)?
R288 takes the statuses 0x02 and 0x0A to ERROR for every type. -/
def State.toSqe (s : State) (c status : Nat) : Bool :=
  (s.qc c QC.type == 1 || s.qc c QC.type == 2) && s.qc c QC.state == 3 && (status == 1 || status == 0x0C)

/-- A request ends with a status other than success: it completes after those before it, and the QP enters
ERROR, or SQE, where `err`. -/
def State.teTxBad (s : State) (c : Nat) (t : TeTx) (status : Nat) (err : Bool) : State :=
  let s1 := if status = 0x0C then s.teFault 0x09 8 c else s
  let s2 := (s1.setTeTx c { t with status := some status }).teSettleTx c
  if !err then s2 else if s.toSqe c status then s2.setQc c QC.state 5 else s2.teQpError c 0

/-- Do packets of a QP type wait for acknowledgement? -/
def teReliable (ty : Nat) : Bool := ty == 0 || ty == 3 || ty == 4

/-- A packet is sent for the first time: its PSN counted, the packet kept while it waits for its
acknowledgement. -/
def State.teFirstSend (s : State) (c psns qpn : Nat) (p : TePkt) (av : List Byte) : State :=
  let s1 := s.setQc c QC.nextPsn (psnAdd (s.qc c QC.nextPsn) psns)
  let s2 := if teReliable (s.qc c QC.type) then s1.setTeQp c { s1.teQp c with pkts := (s1.teQp c).pkts ++ [p] }
    else s1.setQc c QC.unaPsn (s1.qc c QC.nextPsn)
  (s2.teSendPacket c p.op p.psn qpn p.path p.se p.ack (p.ext ++ p.data) av).ccBytes c p.data.length

/-- The packet number `i` of a message with its payload. -/
def State.teMessagePacket (s : State) (c : Nat) (t : TeTx) (i : Nat) (chunk : List Byte) (xrc : List Byte) (av : List Byte) : TePkt :=
  let ty := s.qc c QC.type
  let mtu := pmtuBytes (s.qc c QC.pmtu)
  let psn := s.qc c QC.nextPsn
  let last := i + 1 == t.n
  let se := last && t.flags / 4 % 2 == 1
  if s.isMp c then
    let path := psn % (s.qc c QC.pathsM1 + 1)
    let fl := (if t.op = 2 ∨ t.op = 5 then 0x80 else 0) + (if t.op = 3 then 0x40 else 0) +
      (if t.flags / 4 % 2 = 1 then 0x20 else 0) + (if last then 0x10 else 0)
    let write := decide (4 ≤ t.op)
    ⟨psn, if write then 0xC1 else 0xC0,
      placement t.msn fl t.len (i * mtu) t.imm (if write then t.va else 0) (if write then t.rkey else 0) path,
      chunk, last, se, path, some t.id⟩
  else
    let lo := sendOpcode t.op i t.n
    let qkey := if (leAt av 28 4).testBit 31 then s.qc c QC.qkey else leAt av 28 4
    let ext := (if ty = 2 then natBE 4 qkey ++ natBE 1 0 ++ natBE 3 (s.qc c QC.localQpn) else xrc) ++
      (if loHasReth lo then reth t.va t.rkey t.len else []) ++
      (if loHasImm lo ∨ loHasInv lo then natBE 4 t.imm else [])
    ⟨psn, transportBits ty + lo, ext, chunk, last, se, 0, some t.id⟩

/-- The packets from `i` on, of payload `data`. -/
def State.teSendPackets (s : State) (c : Nat) (t : TeTx) (av : List Byte) : Nat → Nat → List Byte → State
  | 0, _, _ => s
  | k + 1, i, data =>
    let mtu := pmtuBytes (s.qc c QC.pmtu)
    let (v, s0) := s.takeFree
    let xrc := if s.qc c QC.type = 3 ∨ s.qc c QC.type = 4 then natBE 1 0 ++ natBE 3 (v.toNat % 2 ^ 24) else []
    let p := s0.teMessagePacket c t i (data.take mtu) xrc av
    let qpn := if av = [] then s.qc c QC.destQpn else leAt av 24 3
    (s0.teFirstSend c 1 qpn p av).teSendPackets c t av k (i + 1) (data.drop mtu)

/-- As much of a message as the window allows is sent. -/
def State.teBurst (s : State) (c : Nat) (t : TeTx) (inl : Option (List Byte)) (av : List Byte) (h : TeHost) : State :=
  let mtu := pmtuBytes (s.qc c QC.pmtu)
  let k := min (t.n - t.sent) (s.teWindow c)
  let off := t.sent * mtu
  let m := min (t.len - off) (k * mtu)
  let (r, data, s1) := match inl with
    | some d => (0, d, s)
    | none => if h.mrUe ∧ 0 < m then (2, [], s.teFault 0x04 3 c) else s.teGather c h.e t.sges off m h.data
  if r ≠ 0 then s1.teTxBad c t r true
  else
    let done := t.sent + k == t.n
    let t1 := { t with sent := t.sent + k, status := if done && !teReliable (s.qc c QC.type) then some 0 else none }
    let s2 := (s1.setTeTx c t1).teSendPackets c t av k t.sent data
    let s3 := if done then s2.setTeQp c { s2.teQp c with sqStart := (t.index + t.slots) % 65536 } else s2
    s3.teSettleTx c

/-- A new request from a WQE: an event whose opcode byte is the WQE's (R319); one that goes to the wire takes a message
number. -/
def State.teNewTx (s : State) (c : Nat) (b : List Byte) (n len : Nat) (wire : Bool) : TeTx × State :=
  let q := s.teQp c
  let ty := s.qc c QC.type
  (⟨q.nextId, q.sqStart, wqeSlots b ty, wqeOp b, wqeFlags b, BitVec.ofNat 64 (wqeWord b 1), s.qc c QC.nextPsn, n, len, 0, wqeSges b ty,
    wqeWord b 2, wqeWord b 3 / 2 ^ 32, wqeWord b 0 % 2 ^ 32, q.txMsn, 0, none, none⟩,
    (s.setTeQp c { q with nextId := q.nextId + 1, txMsn := if wire then q.txMsn + 1 else q.txMsn }).seqDispatch
      (s.qpEngine c) tblSend (wqeOp b) (.qp c))

/-- A request that is over as soon as it has started: its slot is passed. -/
def State.teLocalTx (s : State) (c : Nat) (b : List Byte) (status : Nat) (err : Bool) : State :=
  let (t, s1) := s.teNewTx c b 0 0 false
  let s2 := s1.setTeQp c { s1.teQp c with sqStart := (t.index + t.slots) % 65536 }
  s2.teTxBad c t status err

/-- Does FENCE hold the request back: a READ or atomic is outstanding? -/
def State.teReadsOut (s : State) (c : Nat) : Nat :=
  ((s.teQp c).tx.filter fun (t : TeTx) => decide (6 ≤ t.op) && decide (t.op ≤ 8) && t.sent == t.n).length

/-- Is the message at the next slot partly sent? It goes on also in SQD, which drains what has started (R281). -/
def State.tePartSent (s : State) (c : Nat) : Bool :=
  (s.teQp c).tx.any fun (t : TeTx) => t.status.isNone && t.index == (s.teQp c).sqStart && decide (t.sent < t.n) && t.rdv.isNone

/-- A row of the send queue: the WQE at the next slot to start, read from the host, with the row's opcode
(or one the engine does not know), while the QP sends; flushed in SQE and ERROR. -/
def State.teSq (s : State) (c op : Nat) (h : TeHost) (act : State → List Byte → State) : State :=
  let q := s.teQp c
  let st := s.qc c QC.state
  let ty := s.qc c QC.type
  if !s.qpUsed c ∨ !s.teRuns (s.qpEngine c) ∨ q.sqStart = s.qc c QC.sqPi ∨ q.rnr ∨ q.holding ∨ s.seqFull (s.qpEngine c) ∨
      s.dmaWaits (s.qc c QC.fn) then s
  else if st ≠ 3 ∧ st ≠ 5 ∧ st ≠ 6 ∧ !(st = 4 ∧ s.tePartSent c) then s
  else if h.ctxUe then ((s.teFault 0x03 2 c).teQpError c 1).teSettle
  else
    let slot := s.qc c QC.sqBase + 64 * (q.sqStart % 2 ^ s.qc c QC.sqLog2)
    let b := h.wqe
    if teOpKnown (wqeOp b) ∧ wqeOp b ≠ op ∧ h.we = .ok then s
    else
      let (r, _, s1) := s.dmaRead (s.qc c QC.fn) none slot (64 * wqeSlots b ty) b h.we
      if r ≠ 0 then ((s1.teFault 0x09 8 c).teQpError c 1).teSettle
      else if st ≠ 3 ∧ st ≠ 4 then (s1.teLocalTx c b 3 false).teSettle
      else if !teOpKnown (wqeOp b) ∨ !teOpAllowed op ty (s.isMp c) then (s1.teLocalTx c b 0x0A true).teSettle
      else if (wqeFlags b).testBit 1 ∧ s1.teReadsOut c ≠ 0 then s1
      else (act s1 b).teSettle

/-- SEND and WRITE (Table 11-9): a message that is already part sent goes on. -/
def State.teMessage (s : State) (c : Nat) (b : List Byte) (h : TeHost) : State :=
  let ty := s.qc c QC.type
  let mtu := pmtuBytes (s.qc c QC.pmtu)
  let av := if ty = 2 then bytesAt b 64 64 else []
  let inlLen := leAt b 48 4
  let inl := if wqeInline b then some (bytesAt b (if ty = 2 then 128 else 64) inlLen) else none
  let len := if wqeInline b then inlLen else sgeBytes (wqeSges b ty)
  match (s.teQp c).tx.find? fun (t : TeTx) => t.status.isNone && t.index == (s.teQp c).sqStart && decide (t.sent < t.n) && t.rdv.isNone with
  | some t => s.teBurst c t inl av h
  | none =>
    if (wqeInline b ∧ 256 < inlLen) ∨ 2 ^ 31 < len ∨ (ty = 2 ∧ mtu < len) then s.teLocalTx c b 1 true
    else if !s.teSgesOk c (wqeSges b ty) 0 then s.teLocalTx c b 2 true
    else
      let (t, s1) := s.teNewTx c b (packetsOf len mtu) len true
      s1.teBurst c t inl av h

/-- The request packet of a READ or atomic: `a` the compare or add value, `b` the swap value. -/
def State.teSendFetch (s : State) (c : Nat) (t : TeTx) (a b : Nat) : State :=
  let ty := s.qc c QC.type
  let mp := s.isMp c
  let (v, s1) := s.takeFree
  let xrc := if ty = 3 ∨ ty = 4 then natBE 1 0 ++ natBE 3 (v.toNat % 2 ^ 24) else []
  let path := if mp then t.psn % (s.qc c QC.pathsM1 + 1) else 0
  let ext := if mp then placement t.msn 0x10 t.len 0 0 t.va t.rkey path
    else xrc ++ (if t.op = 6 then reth t.va t.rkey t.len
      else if t.op = 7 then atomicEth t.va t.rkey b a
      else atomicEth t.va t.rkey a 0)
  let code := if mp then 0xC2 else transportBits ty + (if t.op = 6 then 12 else if t.op = 7 then 19 else 20)
  let s2 := s1.setTeTx c { t with sent := t.n }
  (s2.teFirstSend c t.n (s.qc c QC.destQpn) ⟨t.psn, code, ext, [], true, false, path, some t.id⟩ []).teSettleTx c

/-- May the READ of a rendezvous be sent: the QP sends, the window takes its PSNs, a READ may be outstanding, and no
ordered message is partly sent (R281, R302)? -/
def State.teRdvMay (s : State) (c n : Nat) : Bool :=
  s.qc c QC.state == 3 && decide (n ≤ s.teWindow c) && decide (s.teReadsOut c < 2 ^ s.qc c QC.rdAtomic) &&
  (s.isMp c || !((s.teQp c).tx.any fun (t : TeTx) => decide (0 < t.sent) && decide (t.sent < t.n)))

/-- READs of rendezvous that waited are sent, as far as they may. -/
def State.teRdvGo (s : State) (c : Nat) : Nat → State
  | 0 => s
  | k + 1 =>
    match (s.teQp c).tx.find? rdvWaits with
    | none => s
    | some t =>
      if s.teRdvMay c t.n then
        let t1 := { t with psn := s.qc c QC.nextPsn, msn := (s.teQp c).txMsn }
        (((s.setTeQp c { s.teQp c with txMsn := (s.teQp c).txMsn + 1 })).teSendFetch c t1 0 0).teRdvGo c k
      else s

/-- READ and atomics: the request packet, whose response fills the elements. -/
def State.teFetch (s : State) (c : Nat) (b : List Byte) (h : TeHost) : State :=
  let ty := s.qc c QC.type
  let op := wqeOp b
  let mtu := pmtuBytes (s.qc c QC.pmtu)
  let len := if op = 6 then wqeWord b 3 % 2 ^ 32 else 8
  let mp := s.isMp c
  let psns := if op = 6 ∧ !mp then packetsOf len mtu else 1
  if 2 ^ s.qc c QC.rdAtomic ≤ s.teReadsOut c ∨ s.teWindow c < psns then s
  else if 2 ^ 31 < len ∨ sgeBytes (wqeSges b ty) < len then s.teLocalTx c b 1 true
  else if h.mrUe then (s.teFault 0x04 3 c).teLocalTx c b 2 true
  else if !s.teSgesOk c (wqeSges b ty) acLocalWrite then s.teLocalTx c b 2 true
  else
    let (t, s1) := s.teNewTx c b psns len true
    let s2 := s1.setTeQp c { s1.teQp c with sqStart := (t.index + t.slots) % 65536 }
    s2.teSendFetch c t (wqeWord b 4) (wqeWord b 5)

/-- LOCAL_INV: the invalidation starts and holds the send queue until it completes (R284). -/
def State.teLocalInv (s : State) (c : Nat) (b : List Byte) : State :=
  let key := wqeWord b 0 % 2 ^ 32
  let i := key / 256
  if s.mr i MR.valid = 1 ∧ s.mr i MR.gen = key % 256 ∧ s.mr i MR.td = s.qc c QC.td ∧ s.mr i MR.pd = s.qc c QC.pd then
    let (t, s1) := s.teNewTx c b 1 0 false
    let s2 := s1.setTeTx c t
    let s3 := s2.setTeQp c { s2.teQp c with sqStart := (t.index + t.slots) % 65536, holding := true }
    s3.withTe { s3.te with invs := s3.te.invs ++ [(⟨i, some c, s.qc c QC.fn⟩ : TeInv)] }
  else s.teLocalTx c b 2 true

/-- BIND_MW (R285): the parent's key is that of the first element. An invalidation of the window or of its parent that has
begun refuses it. -/
def State.teBind (s : State) (c : Nat) (b : List Byte) (h : TeHost) : State :=
  let w := wqeWord b 4 % 2 ^ 32
  let i := w / 256
  let pk := wqeWord b 6 / 2 ^ 32
  let p := pk / 256
  let va := wqeWord b 2
  let len := wqeWord b 3
  let acc := leAt b 40 1
  let window := spGet noBool s.te.windows i && s.mr i MR.kind == 1 && s.mr i MR.gen == w % 256 && s.mr i MR.td == s.qc c QC.td &&
    s.mr i MR.pd == s.qc c QC.pd
  let parent := s.mr p MR.kind == 0 && s.mr p MR.access &&& acBind == acBind && (s.teKey c pk va len 0 false).isSome
  if h.mrUe then (s.teFault 0x04 3 c).teLocalTx c b 0x0B false
  else if window && parent && s.mr p MR.access &&& acc == acc && !s.invalidating i && !s.invalidating p then
    let addr := (s.teKey c pk va len 0 false).getD 0
    let s1 := [(MR.parent, p), (MR.boundQp, c), (MR.vaBase, va), (MR.length, len), (MR.iova, addr), (MR.access, acc),
      (MR.loc, s.mr p MR.loc), (MR.fn, s.mr p MR.fn), (MR.pasid, s.mr p MR.pasid), (MR.pasidEn, s.mr p MR.pasidEn),
      (MR.valid, 1), (MR.gen, s.mr i MR.gen + 1)].foldl (fun (s : State) x => s.setMr i x.1 x.2) s
    s1.teLocalTx c b 0 false
  else s.teLocalTx c b 0x0B false

/-- WAIT (R293): the send queue goes on once the CQ's count has reached the value. -/
def State.teWait (s : State) (c : Nat) (b : List Byte) : State :=
  let cq := wqeWord b 2 / 2 ^ 40
  let n := wqeWord b 2 % 2 ^ 32
  if !s.cqUsed cq ∨ (s.teCq cq).fn ≠ s.qc c QC.fn then s.teLocalTx c b 0x0A false
  else if (s.cqF cq CQ.count + 2 ^ 32 - n) % 2 ^ 32 < 2 ^ 31 then s.teLocalTx c b 0 false
  else s

/-! ### Acknowledgement and retransmission (R299, R305) -/

/-- The path after the one last used, paths under back-off skipped. -/
def State.teNextPath (s : State) (c path : Nat) : Nat :=
  let n := s.qc c QC.pathsM1 + 1
  let off := (s.teQp c).off
  (((List.range n).map fun j => (path + 1 + j) % n).find? fun p =>
    !(off.any fun x => x.1 == p && decide (s.clk.elapsed < x.2))).getD ((path + 1) % n)

/-- A packet sent again: on the next path for a multipath QP; an ORDERED READ asks for what is missing. -/
def State.teResend (s : State) (c : Nat) (p : TePkt) : State :=
  if s.isMp c then
    let path := s.teNextPath c p.path
    let p1 := { p with path := path, ext := bytesPut p.ext 28 (natBE 2 path) }
    let q := s.teQp c
    (s.setTeQp c { q with pkts := q.pkts.map fun (x : TePkt) => if x.psn = p.psn then p1 else x }).teSendPkt c p1
  else if p.op % 32 = 12 then
    match (s.teQp c).tx.find? fun (t : TeTx) => some t.id == p.owner with
    | some t =>
      let mtu := pmtuBytes (s.qc c QC.pmtu)
      let x := p.ext.length - 16
      s.teSendPkt c { p with
        psn := psnAdd t.psn (t.got / mtu), ext := p.ext.take x ++ reth (t.va + t.got) t.rkey (t.len - t.got) }
    | none => s.teSendPkt c p
  else s.teSendPkt c p

def State.teRetransmit (s : State) (c : Nat) : State := (s.teQp c).pkts.foldl (fun (s : State) p => s.teResend c p) s

/-- Both retry counters restored. -/
def State.teRestore (s : State) (c : Nat) : State :=
  (s.setQc c QC.retryLeft (s.qc c QC.retryCnt)).setQc c QC.rnrLeft (s.qc c QC.rnrRetry)

/-- Every PSN before `una` is acknowledged; a READ or atomic keeps its request until its response is whole. -/
def State.teAckTo (s : State) (c una : Nat) : State :=
  if una = s.qc c QC.unaPsn then s
  else
    let q := s.teQp c
    let waits := fun (p : TePkt) => q.tx.any fun (t : TeTx) =>
      some t.id == p.owner && decide (6 ≤ t.op) && decide (t.op ≤ 8) && t.got != t.len
    let keep := q.pkts.filter fun (p : TePkt) => decide (psnDiff p.psn una < 2 ^ 23) || waits p
    (((s.setQc c QC.unaPsn una).teRestore c).setTeQp c { q with pkts := keep }).teSettleTx c

/-- An acknowledgement up to and with PSN `p`; one that passes a READ or atomic whose response is not whole
means that the response is lost. -/
def State.teAckPsn (s : State) (c p : Nat) : State :=
  let mtu := pmtuBytes (s.qc c QC.pmtu)
  let want := psnAdd p 1
  let una := s.qc c QC.unaPsn
  match (s.teQp c).tx.find? fun (t : TeTx) => decide (6 ≤ t.op) && decide (t.op ≤ 8) && t.got != t.len && t.sent == t.n && t.status.isNone with
  | some t =>
    let lim := psnAdd t.psn (t.got / mtu)
    if psnDiff lim una < psnDiff want una then (s.teAckTo c lim).teRetransmit c else s.teAckTo c want
  | none => s.teAckTo c want

/-- What a request that fails after it has started leaves recorded: FC 0x1609 for a host DMA error of its response, FC
0x1605 for the statuses of R299 and R305 (R314). -/
def State.teTxFault (s : State) (c status : Nat) : State :=
  if status = 0x0C then s.teFault 0x09 8 c else if 4 ≤ status ∧ status ≤ 8 then s.teFault 0x05 4 c else s

/-- The request that holds PSN `p` fails with a status, and the QP enters ERROR. -/
def State.teTxFail (s : State) (c status : Nat) (pick : TeTx → Bool) : State :=
  match (s.teQp c).tx.find? pick with
  | some t => (((s.setTeTx c { t with status := some status }).teSettleTx c).teTxFault c status).teQpError c 0
  | none => (s.teTxFault c status).teQpError c 0

/-- Does a started request hold a PSN: a packet of its own has it, or the response of its READ takes it? -/
def State.teHolds (s : State) (c psn : Nat) (t : TeTx) : Bool :=
  (s.teQp c).pkts.any fun (p : TePkt) => p.owner == some t.id &&
    (p.psn == psn || (t.op == 6 && decide (psnDiff psn t.psn < max 1 t.n)))

/-- An AETH at an ORDERED requester (R299). -/
def State.teAethReceive (s : State) (c psn syndrome : Nat) : State :=
  let una := s.qc c QC.unaPsn
  if psnDiff (s.qc c QC.nextPsn) una ≤ psnDiff psn una then s.count F.TE_STALE_NAK_COUNT
  else if syndrome / 32 = 0 then s.teAckPsn c psn
  else
    let s1 := s.teAckTo c psn
    if syndrome = 0x60 then s1.teRetransmit c
    else if syndrome / 32 = 1 then
      if s1.qc c QC.rnrLeft = 0 then s1.teTxFail c 8 (s1.teHolds c psn)
      else
        let s2 := if s1.qc c QC.rnrLeft = 7 then s1 else s1.setQc c QC.rnrLeft (s1.qc c QC.rnrLeft - 1)
        s2.setTeQp c { s2.teQp c with rnr := true }
    else if syndrome = 0x61 ∨ syndrome = 0x62 ∨ syndrome = 0x63 then
      s1.teTxFail c (if syndrome = 0x61 then 5 else if syndrome = 0x62 then 4 else 6) (s1.teHolds c psn)
    else s1

/-- Do a QP's send timers run? -/
def State.teTimers (s : State) (c : Nat) : Bool :=
  s.qpUsed c && s.teRuns (s.qpEngine c) && (s.qc c QC.state == 3 || s.qc c QC.state == 4)

/-- Can the expiry of a timer of a QP be taken now: an event context is free (R315)? -/
def State.teExpires (s : State) (c : Nat) : Bool := s.teTimers c && !s.seqFull (s.qpEngine c)

/-- The expiry of a timer of a QP takes its event context. -/
def State.teExpiry (s : State) (c : Nat) : State := s.seqInternal (s.qpEngine c) (.qp c)

def execAckTimeout (qp : Nat) (s : State) : Res :=
  let q := s.teQp qp
  if !s.teExpires qp ∨ s.qc qp QC.timeout = 0 ∨ q.pkts = [] ∨ q.rnr then .next s
  else if s.qc qp QC.retryLeft = 0 then
    .next ((s.teExpiry qp).teTxFail qp 7 fun t => q.pkts.head?.any fun (p : TePkt) => p.owner == some t.id).teSettle
  else .next (((s.teExpiry qp).setQc qp QC.retryLeft (s.qc qp QC.retryLeft - 1)).teRetransmit qp)

def execRnrTimer (qp : Nat) (s : State) : Res :=
  let q := s.teQp qp
  if s.teExpires qp ∧ q.rnr then .next (((s.teExpiry qp).setTeQp qp { q with rnr := false }).teRetransmit qp) else .next s

/-- `TIMER_US` without a CNP (R308). -/
def execCcTimer (qp : Nat) (s : State) : Res :=
  let (_, timer, _) := s.teProfile qp
  let q := s.teQp qp
  if s.teExpires qp ∧ bitAt timer 63 then
    .next (((s.teExpiry qp).setTeQp qp
      { q with alpha := (65536 - bitsAt timer 47 32) * q.alpha / 65536, stage := q.stage + 1 }).ccRise qp)
  else .next s

end Sys2Proof.Machine
end

