-- ==== Sys2Proof/Machine/TeRecv.lean ====
section
/-! DEFINITION. Transport engines: arriving packets (R279, R289, R294 to R307). -/

namespace Sys2Proof.Machine

/-! ### Receives and tag matching (R289, R294 to R297) -/

/-- A receive WQE as read. -/
def recvOf (index : Nat) (b : List Byte) : TeRecv :=
  let sge := fun (w : Nat) => (⟨leAt b (8 * w + 4) 4, leAt b (8 * w) 4, leAt b (8 * w + 8) 8⟩ : TeSge)
  ⟨index, BitVec.ofNat 64 (leAt b 0 8), if leAt b 14 1 / 16 = 0 then [sge 4] else [sge 4, sge 6], false, leAt b 16 8, 0, 1⟩

/-- The SRQ that a QP's message takes its receive from: its own, or the one an XRC packet names. -/
def State.teSrqOf (s : State) (c : Nat) (xrcSrq : Option Nat) : Option Nat :=
  match xrcSrq with
  | some j => some j
  | none => if s.qc c QC.srqEn = 1 then some (s.qc c QC.srq) else none

def State.isTm (s : State) (srq : Option Nat) : Bool :=
  match srq with
  | some j => s.srqF j SR.tmEn == 1
  | none => false

/-- The next receive of a ring, read from the host as its `k`-th bytes: 0 with it, 1 none, 2 a DMA error. An
SRQ that falls below its limit reports it once. -/
def State.teTakeRecv (s : State) (c : Nat) (srq : Option Nat) (h : TeHost) (k : Nat) : Nat × Option TeRecv × State :=
  let f := s.qc c QC.fn
  let b := bytesAt (h.wqe.drop (64 * k)) 0 64
  match srq with
  | some j =>
    let q := s.teSrq j
    if q.pi = q.ci then (1, none, s)
    else
      let (r, _, s1) := s.dmaRead f none (s.srqF j SR.base + 64 * (q.ci % 2 ^ s.srqF j SR.log2)) 64 b h.we
      if r ≠ 0 then (2, none, s1)
      else
        let s2 := s1.setTeSrq j { q with ci := (q.ci + 1) % 65536 }
        let s3 := if diff16 q.pi (q.ci + 1) < s.srqF j SR.limit then
            (s2.teSetF (srqBase j) SR.limit 0).teEvent f 2 j
          else s2
        (0, some (recvOf q.ci b), s3)
  | none =>
    let i := s.qc c QC.rqCi
    if i = s.qc c QC.rqPi then (1, none, s)
    else
      let (r, _, s1) := s.dmaRead f none (s.qc c QC.rqBase + 64 * (i % 2 ^ s.qc c QC.rqLog2)) 64 b h.we
      if r ≠ 0 then (2, none, s1) else (0, some (recvOf i b), s1.setQc c QC.rqCi ((i + 1) % 65536))

/-- A rendezvous: the peer's buffer is read with READ on the same QP into a tagged receive (R295), as soon as the
window takes it. -/
def State.teRendezvous (s : State) (c srq : Nat) (r : TeRecv) (va key len : Nat) : State :=
  let q := s.teQp c
  let n := if s.isMp c then 1 else packetsOf len (pmtuBytes (s.qc c QC.pmtu))
  let t : TeTx := ⟨q.nextId, 0, 0, 6, 0, 0, 0, n, len, 0, r.sges, va, key, 0, 0, 0, none, some (srq, r)⟩
  ((s.setTeQp c { q with nextId := q.nextId + 1 }).setTeTx c t).teRdvGo c (q.tx.length + 1)

/-- Does a posted receive match a tag: a mask bit of 1 compares? -/
def tagMatches (x : TeRecv × Nat) (tag : Nat) : Bool := (x.1.tag ^^^ tag) &&& x.2 == 0

/-- A message at a tag-matching SRQ (R295, R296), by its first bytes: 0 with the message, 1 refused for want
of room, 4 an invalid header. -/
def State.teTagMatch (s : State) (c j : Nat) (m : TeRx) (first : List Byte) : Nat × TeRx × State :=
  let q := s.teSrq j
  let tag := leAt first 8 8
  let app := leAt first 4 4
  let eager := leAt first 0 1 == 1
  if (!eager ∧ leAt first 0 1 ≠ 2) ∨ first.length < (if eager then 16 else 32) then (4, m, s)
  else
    match q.posted.find? fun x => tagMatches x tag with
    | some x =>
      let r := { x.1 with tag := tag, app := app, tagged := true, op := m.op }
      let s1 := s.setTeSrq j { q with posted := q.posted.erase x }
      if eager then (0, { m with recv := some r, skip := 16 }, s1)
      else (0, { m with quiet := true }, s1.teRendezvous c j r (leAt first 16 8) (leAt first 24 4) (leAt first 28 4))
    | none =>
      if s.srqF j SR.unexpMax ≤ q.unexp.length then (1, m, s)
      else if eager then
        match q.plain with
        | [] => (1, m, s)
        | r :: rest =>
          (0, { m with recv := some r, unexp := some q.nextId },
            s.setTeSrq j { q with
              plain := rest, unexp := q.unexp ++ [⟨q.nextId, c, tag, app, some r, false, 0, 0, 0, m.op, none⟩]
              nextId := q.nextId + 1 })
      else
        (0, { m with quiet := true },
          s.setTeSrq j { q with
            unexp := q.unexp ++ [⟨q.nextId, c, tag, app, none, true, leAt first 28 4, leAt first 16 8, leAt first 24 4, m.op, none⟩]
            nextId := q.nextId + 1 })

/-- A message gets its receive: 0, 1 none, 2 a DMA error, 4 an invalid tag header. At a tag-matching SRQ a WRITE with
immediate takes a plain receive that the posts have set aside. -/
def State.teAssign (s : State) (c : Nat) (srq : Option Nat) (m : TeRx) (first : List Byte) (h : TeHost) (k : Nat) :
    Nat × TeRx × State :=
  match srq, s.isTm srq, decide (m.op ≤ 3) with
  | some j, true, true => s.teTagMatch c j { m with srq := srq } first
  | some j, true, false =>
    match (s.teSrq j).plain with
    | [] => (1, m, s)
    | r :: rest => (0, { m with recv := some r, srq := srq }, s.setTeSrq j { s.teSrq j with plain := rest })
  | _, _, _ =>
    let (r, x, s1) := s.teTakeRecv c srq h k
    (r, { m with recv := x, srq := srq }, s1)

/-- Payload bytes of a SEND placed from message offset `off` on: 0, 9 truncated, or an error. An uncorrectable error of
the region entry fails the key check of the receive's elements (R314). -/
def State.tePlaceSend (s : State) (c : Nat) (m : TeRx) (off : Nat) (data : List Byte) (h : TeHost) : Nat × State :=
  match m.recv with
  | none => (0, s)
  | some r =>
    if h.mrUe ∧ data ≠ [] then (2, s.teFault 0x04 3 c)
    else
    let (st, s1) := s.teScatter c r.sges (off - m.skip) (data.drop (m.skip - off))
    (if st = 1 ∧ r.tagged then 9 else st, s1)

/-- The data of an unexpected eager message copied from its plain receive into the tagged receive that it matched, with
the completion entries of both (R296). -/
def State.teTagCopy (s : State) (j : Nat) (u : TeUnexp) (p r : TeRecv) (h : TeHost) : State :=
  let n := u.len - 16
  let room := sgeBytes r.sges
  let (code, d, s1) := s.teGather u.qp h.e p.sges 16 n h.data
  let (st, s2) := if code = 0 then s1.teScatter u.qp r.sges 0 d else (code, s1)
  let s3 := if st = 0x0C then s2.teFault 0x09 8 u.qp else s2
  (s3.teRecvCqe u.qp (s.srqF j SR.tagCq) { r with tag := u.tag, app := u.app } u.op (if st = 1 then 9 else st) ceTag (min n room)
    u.app 0 u.tag).teRecvCqe u.qp (s.qc u.qp QC.rqCq) p u.op 0 ceUnexp u.len 0 0 0

/-- Must the invalidation of a message wait for placements and reads admitted under its key (R284)? -/
def State.rxInvWaits (s : State) (m : TeRx) : Bool := m.op == 3 && s.keyPlacements (m.imm / 256)

/-- A message completes: its invalidation, then its completion entry (R291, R295, R296). -/
def State.teRxFinish (s : State) (c : Nat) (srq : Option Nat) (m : TeRx) : State :=
  let s2 := if m.op = 3 then s.teInvalidate (m.imm / 256) else s
  match m.recv, m.unexp, srq with
  | some _, some id, some j =>
    let q := s2.teSrq j
    match q.unexp.find? fun (x : TeUnexp) => x.id == id with
    | none => s2
    | some x =>
      let u := { x with whole := true, len := m.bytes, op := m.op }
      match x.claim, x.recv with
      | some r, some p => (s2.setTeSrq j { q with unexp := q.unexp.filter fun (y : TeUnexp) => y.id != id }).teTagCopy j u p r m.host
      | _, _ => s2.setTeSrq j { q with unexp := q.unexp.map fun (y : TeUnexp) => if y.id = id then u else y }
  | some r, _, _ =>
    let cq := match r.tagged, srq with
      | true, some j => s2.srqF j SR.tagCq
      | _, _ => s2.qc c QC.rqCq
    let flags := (if m.op = 2 ∨ m.op = 5 then ceImm else 0) + (if m.op = 3 then ceInv else 0) + (if r.tagged then ceTag else 0) +
      (if m.flags / 0x20 % 2 = 1 then ceSol else 0) + (if m.grh = [] then 0 else ceGrh)
    let bytes := if r.tagged then min (m.bytes - 16) (sgeBytes r.sges) else m.bytes + m.grh.length
    s2.teRecvCqe c cq r m.op m.status flags bytes (if r.tagged then r.app else m.imm) m.src (if r.tagged then r.tag else 0)
  | none, _, _ => s2

/-- A message completes, and `MSN` advances. -/
def State.teRxDone (s : State) (c : Nat) (srq : Option Nat) (m : TeRx) : State :=
  (s.setQc c QC.msn (psnAdd (s.qc c QC.msn) 1)).teRxFinish c srq m

/-- An ORDERED message has been placed whole: it completes, or waits behind an invalidation (R284). -/
def State.teRxWhole (s : State) (c : Nat) (srq : Option Nat) (m : TeRx) : State :=
  if (s.teQp c).late ≠ [] ∨ s.rxInvWaits m then
    let s1 := s.setQc c QC.msn (psnAdd (s.qc c QC.msn) 1)
    s1.setTeQp c { s1.teQp c with late := (s1.teQp c).late ++ [{ m with srq := srq }] }
  else s.teRxDone c srq m

/-- Messages of an ORDERED QP that waited behind an invalidation complete in order, as far as they may. -/
def State.teLateGo (s : State) (c : Nat) : Nat → State
  | 0 => s
  | n + 1 =>
    match (s.teQp c).late with
    | [] => s
    | m :: rest =>
      if s.rxInvWaits m then s
      else ((s.setTeQp c { s.teQp c with late := rest }).teRxFinish c m.srq m).teLateGo c n

/-! ### Acknowledgements of a responder -/

/-- An ACK or NAK of an ORDERED responder. -/
def State.teAckSend (s : State) (c psn syndrome : Nat) : State :=
  s.teSendPacket c (transportBits (s.qc c QC.type) + 17) psn (s.qc c QC.destQpn) 0 false false (aeth syndrome (s.qc c QC.msn)) []

/-- ACK without credits. -/
abbrev synAck : Nat := 0x1F
def State.synRnr (s : State) (c : Nat) : Nat := 0x20 + s.qc c QC.minRnr % 32

/-- An MP_ACK (R301). -/
def State.mpAckSend (s : State) (c psn syndrome : Nat) : State :=
  let q := s.teQp c
  let received := fun p => q.seen.contains p || decide (2 ^ 23 ≤ psnDiff p (s.qc c QC.epsn))
  let bits := (List.range 64).foldl (fun n i => if received (psnAdd psn (1 + i)) then n + 2 ^ i else n) 0
  (s.setTeQp c { q with unacked := 0 }).teSendPacket c 0xC4 psn (s.qc c QC.destQpn) 0 false false
    (natBE 8 bits ++ natBE 3 (psnDiff (s.qc c QC.msn) 1) ++ natBE 1 syndrome ++ natBE 4 0) []

/-- The key check of an access with the outcome of the entry's read: an uncorrectable error fails it. -/
def State.teKeyH (s : State) (h : TeHost) (c key va n need : Nat) : Option Nat × State :=
  if h.mrUe then (none, s.teFault 0x04 3 c)
  else (s.teKey c key va n need false, s)

/-! ### The ORDERED responder (R298) -/

/-- A request that cannot be executed: NAK for a reliable QP, the message dropped for the others. -/
def State.teNak (s : State) (c psn syndrome : Nat) : State :=
  if teReliable (s.qc c QC.type) then s.teAckSend c psn syndrome
  else
    let s1 := s.setTeQp c { s.teQp c with rx := [] }
    if s.qc c QC.type = 1 then s1.setQc c QC.epsn (psnAdd psn 1) else s1

/-- A receive ends with an error status; a reliable QP answers and enters ERROR. -/
def State.teRecvBad (s : State) (c psn : Nat) (m : TeRx) (status : Nat) : State :=
  let s0 := if status = 0x0C then s.teFault 0x09 8 c else s
  let s1 := match m.recv with
    | some r => s0.teRecvCqe c (s.teRecvCq c m r) r m.op status (if r.tagged then ceTag else 0) m.bytes 0 m.src
        (if r.tagged then r.tag else 0)
    | none => s0
  let s1 := State.teUnexpDrop c s1 m
  let s2 := s1.setTeQp c { s1.teQp c with rx := [] }
  if teReliable (s.qc c QC.type) then
    (if s.isMp c then s2.mpAckSend c psn 0x61 else s2.teAckSend c psn (if status = 1 then 0x61 else 0x63)).teQpError c 0
  else if s.qc c QC.type = 1 then s2.setQc c QC.epsn (psnAdd psn 1)
  else s2

/-- A request packet has been executed: `EPSN` advances by `n`, the acknowledgement is sent when asked. -/
def State.teExecuted (s : State) (c n : Nat) (r : RoceIn) (ackIt : Bool) : State :=
  let s1 := (s.setQc c QC.epsn (psnAdd r.psn n)).setTeQp c { (s.setQc c QC.epsn (psnAdd r.psn n)).teQp c with nak := false }
  if ackIt && r.ack && teReliable (s.qc c QC.type) then s1.teAckSend c r.psn synAck else s1

/-- The responses of an ORDERED READ. -/
def State.teReadResponses (s : State) (c psn n : Nat) : Nat → Nat → List Byte → State
  | 0, _, _ => s
  | k + 1, i, d =>
    let mtu := pmtuBytes (s.qc c QC.pmtu)
    let lo := if n = 1 then 16 else if i = 0 then 13 else if i + 1 = n then 15 else 14
    let body := (if lo = 14 then [] else aeth synAck (s.qc c QC.msn)) ++ d.take mtu
    (s.teSendPacket c (transportBits (s.qc c QC.type) + lo) (psnAdd psn i) (s.qc c QC.destQpn) 0 false false body []).teReadResponses
      c psn n k (i + 1) (d.drop mtu)

/-- The longest message (Table 11-3). -/
abbrev maxMessage : Nat := 2 ^ 31

/-- A READ request executed, first or again; one of more than 2³¹ bytes is invalid. -/
def State.teReadExec (s : State) (c : Nat) (r : RoceIn) (b : List Byte) (h : TeHost) (again : Bool) : State :=
  let va := beAt b 0 8
  let key := beAt b 8 4
  let len := beAt b 12 4
  let (k, s1) := s.teKeyH h c key va len acRemoteRead
  match (if maxMessage < len then none else k) with
  | none =>
    if maxMessage < len then s.teAckSend c r.psn 0x61 else (s1.count F.TE_KEY_FAIL_COUNT).teAckSend c r.psn 0x62
  | some a =>
    let (code, d, s2) := s1.teRead key a len h.data h.e
    if code ≠ 0 then (s2.teFault 0x09 8 c).teAckSend c r.psn 0x63
    else
      let n := packetsOf len (pmtuBytes (s.qc c QC.pmtu))
      let s3 := if again then s2 else (s2.setQc c QC.msn (psnAdd (s2.qc c QC.msn) 1)).teExecuted c n r false
      s3.teReadResponses c r.psn n n 0 d

def State.atomicAck (s : State) (c psn : Nat) (old : List Byte) : State :=
  s.teSendPacket c (transportBits (s.qc c QC.type) + 18) psn (s.qc c QC.destQpn) 0 false false
    (aeth synAck (s.qc c QC.msn) ++ natBE 8 (leNat old)) []

/-- An atomic executed; its result is kept as a replay record. -/
def State.teAtomicExec (s : State) (c : Nat) (r : RoceIn) (b : List Byte) (cas : Bool) (h : TeHost) : State :=
  let va := beAt b 0 8
  let key := beAt b 8 4
  let x := beAt b 12 8
  let cmp := beAt b 20 8
  if va % 8 ≠ 0 then s.teNak c r.psn 0x61
  else
    let (k, s1) := s.teKeyH h c key va 8 acRemoteAtomic
    match k with
    | none => (s1.count F.TE_KEY_FAIL_COUNT).teAckSend c r.psn 0x62
    | some a =>
      let (code, old, s2) := s1.teRead key a 8 h.data h.e
      if code ≠ 0 then (s2.teFault 0x09 8 c).teAckSend c r.psn 0x63
      else
        let v := leNat old
        let new := if cas then (if v = cmp then x else v) else (v + x) % 2 ^ 64
        let (ok, s3) := s2.teWrite key a (natLE 8 new)
        if !ok then (s3.teFault 0x09 8 c).teAckSend c r.psn 0x63
        else
          let q := s3.teQp c
          let s4 := s3.setTeQp c { q with replay := ((r.psn, old) :: q.replay).take (2 ^ s.qc c QC.destRdAtomic) }
          ((s4.setQc c QC.msn (psnAdd (s4.qc c QC.msn) 1)).teExecuted c 1 r false).atomicAck c r.psn old

/-- A host that has nothing to answer. -/
def noHost : TeHost := ⟨[], .ok, [], .ok, false, false, .ok⟩

/-- A new message in reception. -/
def newRx (msn op : Nat) : TeRx :=
  { msn := msn, op := op, flags := 0, imm := 0, need := 0, pkts := 0, got := 0, bytes := 0, recv := none, unexp := none,
    quiet := false, va := 0, rkey := 0, held := [], skip := 0, status := 0, grh := [], src := 0, srq := none, born := 0
    host := noHost }

/-- May a received SEND with invalidate invalidate its key (R284)? -/
def State.teInvOk (s : State) (c key : Nat) : Bool :=
  s.mr (key / 256) MR.gen == key % 256 && s.mr (key / 256) MR.td == s.qc c QC.td && s.mr (key / 256) MR.pd == s.qc c QC.pd &&
  (s.mr (key / 256) MR.kind != 1 || s.mr (key / 256) MR.boundQp == c)

/-- A SEND packet in sequence. -/
def State.teSendExec (s : State) (c lo : Nat) (srq : Option Nat) (r : RoceIn) (b : List Byte) (h : TeHost) : State :=
  let q := s.teQp c
  let mtu := pmtuBytes (s.qc c QC.pmtu)
  let hdr := if loHasImm lo || loHasInv lo then 4 else 0
  let data := b.drop hdr
  let last := loIsLast lo
  let fits := if last then decide (data.length ≤ mtu) else data.length == mtu
  let begun := !q.rx.isEmpty
  if !fits ∨ loIsFirst lo = begun ∨ (begun ∧ (q.rx.headD (newRx 0 1)).op ≠ 1) ∨
      maxMessage < (q.rx.headD (newRx 0 1)).bytes + data.length then s.teNak c r.psn 0x61
  else if loHasInv lo ∧ !s.teInvOk c (beAt b 0 4) then (s.count F.TE_KEY_FAIL_COUNT).teNak c r.psn 0x62
  else
    let m0 := q.rx.headD (newRx (s.qc c QC.msn) (if last then loOp lo else 1))
    let (code, m1, s1) := if begun then (0, m0, s) else s.teAssign c srq m0 data h 0
    if code = 1 then s1.teNak c r.psn (s.synRnr c)
    else if code = 2 then (s1.teFault 0x09 8 c).teQpError c 1
    else if code = 4 then s1.teNak c r.psn 0x61
    else
      let m2 := { m1 with op := if last then loOp lo else 1, host := h }
      let (st, s2) := s1.tePlaceSend c m2 m2.bytes data h
      if st ≠ 0 ∧ st ≠ 9 then s2.teRecvBad c r.psn m2 st
      else
        let m3 := { m2 with
          bytes := m2.bytes + data.length, status := if st = 9 then 9 else m2.status, imm := if hdr = 4 then beAt b 0 4 else 0
          flags := if r.se then 0x20 else 0 }
        if last then ((s2.setTeQp c { s2.teQp c with rx := [] }).teRxWhole c srq m3).teExecuted c 1 r true
        else (s2.setTeQp c { s2.teQp c with rx := [m3] }).teExecuted c 1 r true

/-- A WRITE packet in sequence. -/
def State.teWriteExec (s : State) (c lo : Nat) (srq : Option Nat) (r : RoceIn) (b : List Byte) (h : TeHost) : State :=
  let q := s.teQp c
  let mtu := pmtuBytes (s.qc c QC.pmtu)
  let rh := if loHasReth lo then 16 else 0
  let data := b.drop (rh + if loHasImm lo then 4 else 0)
  let last := loIsLast lo
  let begun := !q.rx.isEmpty
  let m0 := if begun then q.rx.headD (newRx 0 4)
    else { newRx (s.qc c QC.msn) 4 with va := beAt b 0 8, rkey := beAt b 8 4, need := beAt b 12 4 }
  let total := m0.bytes + data.length
  let fits := if last then decide (data.length ≤ mtu) && total == m0.need else data.length == mtu && decide (total < m0.need)
  if loIsFirst lo = begun ∨ (begun ∧ m0.op ≠ 4) ∨ !fits ∨ maxMessage < m0.need then s.teNak c r.psn 0x61
  else
    let (k0, s0) := if begun ∨ m0.need = 0 then (some 0, s) else s.teKeyH h c m0.rkey m0.va m0.need acRemoteWrite
    let (k, s1) := if k0.isNone ∨ data = [] then (k0, s0) else s0.teKeyH h c m0.rkey (m0.va + m0.bytes) data.length acRemoteWrite
    match k with
    | none => (s1.count F.TE_KEY_FAIL_COUNT).teNak c r.psn 0x62
    | some a =>
      let (code, m1, s2) := if loHasImm lo then s1.teAssign c srq { m0 with op := 5 } [] h 0 else (0, m0, s1)
      if code = 1 then s2.teNak c r.psn (s.synRnr c)
      else if code ≠ 0 then (s2.teFault 0x09 8 c).teQpError c 1
      else
        let (ok, s3) := if data = [] then (true, s2) else s2.teWrite m0.rkey a data
        if !ok then (s3.teFault 0x09 8 c).teNak c r.psn 0x63
        else
          let m2 := { m1 with bytes := total, imm := if loHasImm lo then beAt b rh 4 else 0, flags := if r.se then 0x20 else 0 }
          if last then ((s3.setTeQp c { s3.teQp c with rx := [] }).teRxWhole c srq m2).teExecuted c 1 r true
          else (s3.setTeQp c { s3.teQp c with rx := [m2] }).teExecuted c 1 r true

/-- A request in sequence. -/
def State.teInSequence (s : State) (c lo : Nat) (srq : Option Nat) (r : RoceIn) (b : List Byte) (h : TeHost) : State :=
  if loIsSend lo then s.teSendExec c lo srq r b h
  else if loIsWrite lo then s.teWriteExec c lo srq r b h
  else if !(s.teQp c).rx.isEmpty then s.teNak c r.psn 0x61
  else if lo = 12 then s.teReadExec c r b h false
  else s.teAtomicExec c r b (lo == 19) h

/-- A request packet at an ORDERED responder (R298). -/
def State.teOrdered (s : State) (c lo : Nat) (srq : Option Nat) (r : RoceIn) (b : List Byte) (h : TeHost) : State :=
  let ty := s.qc c QC.type
  let d := psnDiff r.psn (s.qc c QC.epsn)
  if d = 0 then s.teInSequence c lo srq r b h
  else if ty = 1 then
    let s1 := (s.setTeQp c { s.teQp c with rx := [] }).setQc c QC.epsn (if loIsFirst lo then r.psn else psnAdd r.psn 1)
    if loIsFirst lo then s1.teInSequence c lo srq r b h else s1
  else if d < 2 ^ 23 then
    if (s.teQp c).nak then s else (s.setTeQp c { s.teQp c with nak := true }).teAckSend c (s.qc c QC.epsn) 0x60
  else
    let s1 := s.count F.TE_DUP_RX_COUNT
    if lo = 12 then s1.teReadExec c r b h true
    else if lo = 19 ∨ lo = 20 then
      match (s.teQp c).replay.find? fun x => x.1 == r.psn with
      | some x => s1.atomicAck c r.psn x.2
      | none => s1
    else s1.teAckSend c (psnDiff (s.qc c QC.epsn) 1) synAck

/-- A datagram (R288, R290): the GRH is placed first. -/
def State.teDatagram (s : State) (c lo : Nat) (r : RoceIn) (h : TeHost) : State :=
  let imm := lo == 5
  let b := r.body
  let data := b.drop (8 + if imm then 4 else 0)
  if (lo ≠ 4 ∧ !imm) ∨ beAt b 0 4 ≠ s.qc c QC.qkey then s.count F.TE_RX_DISCARD_COUNT
  else
    let srq := s.teSrqOf c none
    let m := { newRx (s.qc c QC.msn) (if imm then 2 else 1) with
      grh := r.grh, src := beAt b 5 3, imm := if imm then beAt b 8 4 else 0, flags := if r.se then 0x20 else 0 }
    let (code, m1, s1) := s.teAssign c srq m data h 0
    if code = 1 then s1
    else if code ≠ 0 then (s1.teFault 0x09 8 c).teQpError c 1
    else
      let (st, s2) := s1.tePlaceSend c m1 0 (r.grh ++ data) h
      if st ≠ 0 then s2.teRecvBad c r.psn m1 st
      else s2.teRxDone c srq { m1 with bytes := data.length }

/-! ### The ORDERED requester (R299) -/

/-- Response bytes placed for a started READ. -/
def State.teGot (s : State) (c : Nat) (t : TeTx) (off : Nat) (data : List Byte) (h : TeHost) : Nat × State :=
  let (st, s1) := if h.mrUe ∧ data ≠ [] then (2, s.teFault 0x04 3 c) else s.teScatter c t.sges off (data.take (t.len - off))
  (if st = 1 ∧ t.rdv.isSome then 0 else st, s1.setTeTx c { t with got := min t.len (t.got + data.length) })

/-- A READ whose response is whole needs its request no more. -/
def State.teDropRequest (s : State) (c : Nat) (t : TeTx) : State :=
  let q := s.teQp c
  if (q.tx.find? fun (x : TeTx) => x.id == t.id).any fun (x : TeTx) => x.got == x.len then
    s.setTeQp c { q with pkts := q.pkts.filter fun (p : TePkt) => p.owner != some t.id }
  else s

/-- A READ response at an ORDERED requester: the next one expected is placed; a later one means loss. -/
def State.teReadResponse (s : State) (c lo : Nat) (r : RoceIn) (h : TeHost) : State :=
  let mtu := pmtuBytes (s.qc c QC.pmtu)
  let data := r.body.drop (if lo = 14 then 0 else 4)
  match (s.teQp c).tx.find? fun (t : TeTx) => t.op == 6 && t.sent == t.n && t.status.isNone && decide (psnDiff r.psn t.psn < t.n) with
  | none => s
  | some t =>
    if r.psn = psnAdd t.psn (t.got / mtu) ∧ (t.got ≠ t.len ∨ t.len = 0) then
      let (st, s1) := s.teGot c t t.got data h
      if st ≠ 0 then (s1.teTxFail c st fun x => x.id == t.id)
      else ((s1.teDropRequest c t).teAckTo c (psnAdd r.psn 1)).teSettleTx c
    else if psnDiff r.psn (psnAdd t.psn (t.got / mtu)) < 2 ^ 23 then s.teRetransmit c
    else s

/-- The answer of an atomic. -/
def State.teAtomicResponse (s : State) (c : Nat) (r : RoceIn) (h : TeHost) : State :=
  match (s.teQp c).tx.find? fun (t : TeTx) => (t.op == 7 || t.op == 8) && t.psn == r.psn && t.got == 0 && t.status.isNone with
  | none => s
  | some t =>
    let (st, s1) := s.teGot c t 0 (natLE 8 (beAt r.body 4 8)) h
    if st ≠ 0 then s1.teTxFail c st fun x => x.id == t.id
    else ((s1.teDropRequest c t).teAckTo c (psnAdd r.psn 1)).teSettleTx c

/-! ### Multipath (R300 to R305) -/

abbrev reorderBytes : Nat := 16 * 1024 * 1024

/-- `EPSN` advances over PSNs already received. -/
def State.mpAdvance (s : State) (c : Nat) : Nat → State
  | 0 => s
  | n + 1 =>
    let e := s.qc c QC.epsn
    let q := s.teQp c
    if q.seen.contains e then
      ((s.setTeQp c { q with seen := q.seen.filter (· != e) }).setQc c QC.epsn (psnAdd e 1)).mpAdvance c n
    else s

def State.rxOfMsn (s : State) (c msn : Nat) : Option TeRx := (s.teQp c).rx.find? fun (m : TeRx) => m.msn == msn

def State.setRxMsn (s : State) (c : Nat) (m : TeRx) : State :=
  let q := s.teQp c
  let l := if q.rx.any fun (x : TeRx) => x.msn == m.msn then q.rx.map fun (x : TeRx) => if x.msn = m.msn then m else x
    else q.rx ++ [m]
  s.setTeQp c { q with rx := l }

/-- Does a message consume a receive: a SEND, or a WRITE with immediate? -/
def rxNeedsRecv (m : TeRx) : Bool := decide (m.op ≤ 3) || m.op == 5

/-- A message's waiting payloads placed; its share of the reorder store is freed. The answer: the status, and the PSN
of the first packet that could not be placed. -/
def State.mpPlaceHeld (s : State) (c : Nat) (m : TeRx) (h : TeHost) : Nat × Nat × State :=
  let e := s.qpEngine c
  let s0 := s.setTeStore e (s.teStore e - (m.held.map fun x => x.2.2.length).sum)
  m.held.foldl (fun (x : Nat × Nat × State) p =>
    let (st, s1) := x.2.2.tePlaceSend c m p.1 p.2.2 h
    if (x.1 = 0 ∨ x.1 = 9) ∧ st ≠ 0 then (st, p.2.1, s1) else (x.1, x.2.1, s1)) (0, 0, s0)

/-- The first message of a multipath QP, in message order, that waits for a receive (R303). -/
def State.mpWaiting (s : State) (c : Nat) : Nat → Nat → Option TeRx
  | 0, _ => none
  | n + 1, msn =>
    match s.rxOfMsn c msn with
    | none => none
    | some m => if !rxNeedsRecv m ∨ m.recv.isSome ∨ m.quiet then s.mpWaiting c n (psnAdd msn 1) else some m

/-- The packet of a message with its first bytes: its PSN and payload. -/
def rxFirst (m : TeRx) : Option (Nat × List Byte) := (m.held.find? fun x => x.1 == 0).map Prod.snd

/-- The message that may take a receive now; for tag matching its first packet must be present (R303). -/
def State.mpNext (s : State) (c : Nat) : Option TeRx :=
  (s.mpWaiting c 64 (s.qc c QC.msn)).filter fun m =>
    !(s.isTm (s.teSrqOf c none) && decide (m.op ≤ 3)) || (rxFirst m).isSome

/-- A message takes its receive, read as the host's `k`-th, and its waiting payloads are placed; whether the next may
take one. A refusal names the PSN of the packet refused (R301). -/
def State.mpAssignOne (s : State) (c : Nat) (h : TeHost) (k : Nat) (m : TeRx) : Bool × State :=
  let psn := ((rxFirst m).map Prod.fst).getD (s.qc c QC.epsn)
  let (code, m1, s1) := s.teAssign c (s.teSrqOf c none) m (((rxFirst m).map Prod.snd).getD []) h k
  if code = 1 then (false, s1)
  else if code = 2 then (false, (s1.teFault 0x09 8 c).teQpError c 1)
  else if code = 4 then (false, s1.teRecvBad c psn m1 5)
  else
    let (st, bad, s2) := s1.mpPlaceHeld c m1 h
    if st ≠ 0 ∧ st ≠ 9 then (false, s2.teRecvBad c bad m1 st)
    else (true, s2.setRxMsn c { m1 with held := [], status := if st = 9 then 9 else m1.status })

/-- Receives are assigned in message order, as far as they go (R303); `k` of the host's have been read. -/
def State.mpAssign (s : State) (c : Nat) (h : TeHost) : Nat → Nat → State
  | 0, _ => s
  | n + 1, k =>
    match s.mpNext c with
    | none => s
    | some m =>
      let (more, s1) := s.mpAssignOne c h k m
      if more then s1.mpAssign c h n (k + 1) else s1

/-- Messages complete in order once every packet is placed (R303); an invalidation waits for the placements and reads
admitted under its key (R284). -/
def State.mpComplete (s : State) (c : Nat) : Nat → State
  | 0 => s
  | n + 1 =>
    match s.rxOfMsn c (s.qc c QC.msn) with
    | none => s
    | some m =>
      if m.got = m.pkts ∧ (!rxNeedsRecv m ∨ m.recv.isSome ∨ m.quiet) ∧ !s.rxInvWaits m then
        let q := s.teQp c
        ((s.setTeQp c { q with rx := q.rx.filter fun (x : TeRx) => x.msn != m.msn }).teRxDone c (s.teSrqOf c none) m).mpComplete c n
      else s

/-- READs being answered go on as far as the window allows; each answer is a packet of the responder's own
sequence. -/
def State.mpRespond (s : State) (c : Nat) (h : TeHost) : Nat → List Byte → State
  | 0, _ => s
  | n + 1, data =>
    match (s.teQp c).resp with
    | [] => s
    | x :: rest =>
      let mtu := pmtuBytes (s.qc c QC.pmtu)
      let m := min mtu (x.len - x.sent)
      if s.teWindow c = 0 then s
      else
        match s.teKey c x.rkey (x.va + x.sent) m acRemoteRead false with
        | none => (s.setTeQp c { s.teQp c with resp := rest }).mpRespond c h n data
        | some a =>
          let (code, d, s1) := s.teRead x.rkey a m data h.e
          if code ≠ 0 then (s1.teFault 0x09 8 c).teQpError c 1
          else
            let psn := s1.qc c QC.nextPsn
            let path := psn % (s.qc c QC.pathsM1 + 1)
            let last := x.sent + m == x.len
            let p : TePkt := ⟨psn, 0xC3, placement x.msn (if last then 0x10 else 0) x.len x.sent 0 0 0 path, d, last, false, path, none⟩
            let s2 := s1.setTeQp c { s1.teQp c with resp := if last then rest else { x with sent := x.sent + m } :: rest }
            (s2.teFirstSend c 1 (s.qc c QC.destQpn) p []).mpRespond c h n (data.drop m)

/-- The sender's opcode of a multipath packet. -/
def mpOp (code flags : Nat) : Nat :=
  if code = 0xC2 then 6
  else if code = 0xC1 then (if flags / 0x80 % 2 = 1 then 5 else 4)
  else if flags / 0x80 % 2 = 1 then 2 else if flags / 0x40 % 2 = 1 then 3 else 1

/-- A PSN is taken: its bit set, `EPSN` advanced, messages assigned and completed, the acknowledgement sent
when asked for or after 64 packets (R302 to R304). -/
def State.mpTaken (s : State) (c : Nat) (r : RoceIn) (h : TeHost) : State :=
  let q := s.teQp c
  let s1 := (s.setTeQp c { q with seen := r.psn :: q.seen, unacked := q.unacked + 1 }).mpAdvance c 4096
  let s2 := (s1.mpAssign c h 64 0).mpComplete c 64
  if s2.qc c QC.state = 6 then s2
  else if r.ack ∨ 64 ≤ (s2.teQp c).unacked then s2.mpAckSend c (s2.qc c QC.epsn) 0 else s2

/-- A packet of a multipath QP, R302. A payload without a receive takes space of the reorder store, unless its message
gets its receive with it; without space it is discarded (R303). -/
def State.mpRequest (s : State) (c : Nat) (r : RoceIn) (h : TeHost) : State :=
  let b := r.body
  let q := s.teQp c
  let d := psnDiff r.psn (s.qc c QC.epsn)
  let mtu := pmtuBytes (s.qc c QC.pmtu)
  let msn := beAt b 0 3
  let flags := beAt b 3 1
  let len := beAt b 4 4
  let off := beAt b 8 4
  let key := beAt b 24 4
  let va := beAt b 16 8
  let data := b.drop 32
  if b.length < 32 then s
  else if 2 ^ 23 ≤ d ∨ (d < 4096 ∧ q.seen.contains r.psn) then
    (s.count F.TE_DUP_RX_COUNT).mpAckSend c (s.qc c QC.epsn) 0
  else if 4096 ≤ d then s.count F.TE_MP_BEYOND_COUNT
  else if r.op = 0xC3 then
    match q.tx.find? fun (t : TeTx) => t.op == 6 && t.sent == t.n && t.status.isNone && t.msn % psnMod == msn with
    | none => s.mpTaken c r h
    | some t =>
      let (st, s1) := s.teGot c t off data h
      if st ≠ 0 then s1.teTxFail c st fun x => x.id == t.id else (s1.mpTaken c r h).teSettleTx c
  else if 64 ≤ psnDiff msn (s.qc c QC.msn) then s
  else
    let op := mpOp r.op flags
    let m0 := (s.rxOfMsn c msn).getD { newRx msn op with
      flags := flags, imm := beAt b 12 4, need := len, pkts := if op = 6 then 1 else packetsOf len mtu, va := va, rkey := key, bytes := len
      born := s.te.arrivals }
    let m1 := { m0 with got := m0.got + 1, flags := m0.flags ||| flags, host := h }
    let s : State := s.withTe { s.te with arrivals := s.te.arrivals + 1 }
    if maxMessage < len then s.mpAckSend c r.psn 0x61
    else if op = 3 ∧ !s.teInvOk c m0.imm then (s.count F.TE_KEY_FAIL_COUNT).mpAckSend c r.psn 0x62
    else if r.op = 0xC0 then
      if m0.recv.isSome then
        let (st, s1) := s.tePlaceSend c m0 off data h
        if st ≠ 0 ∧ st ≠ 9 then s1.teRecvBad c r.psn m0 st
        else (s1.setRxMsn c { m1 with status := if st = 9 then 9 else m0.status }).mpTaken c r h
      else if m0.quiet then (s.setRxMsn c m1).mpTaken c r h
      else
        let e := s.qpEngine c
        let m2 := { m1 with held := m1.held ++ [(off, r.psn, data)] }
        let s1 := ((s.setTeStore e (s.teStore e + data.length)).setRxMsn c m2).mpTaken c r h
        if reorderBytes < s1.teStore e then s.teFault 0x08 7 c else s1
    else if r.op = 0xC1 then
      let (k, s1) := s.teKeyH h c key (va + off) data.length acRemoteWrite
      match k with
      | none => (s1.count F.TE_KEY_FAIL_COUNT).mpAckSend c r.psn 0x62
      | some a =>
        let (ok, s2) := s1.teWrite key a data
        if !ok then (s2.teFault 0x09 8 c).teQpError c 1 else (s2.setRxMsn c m1).mpTaken c r h
    else
      let (k, s1) := s.teKeyH h c key va len acRemoteRead
      match k with
      | none => (s1.count F.TE_KEY_FAIL_COUNT).mpAckSend c r.psn 0x62
      | some _ =>
        let s2 := s1.setRxMsn c m1
        let s3 := s2.setTeQp c { s2.teQp c with resp := (s2.teQp c).resp ++ [(⟨msn, va, key, len, 0⟩ : TeResp)] }
        ((s3.mpTaken c r h).mpRespond c h (packetsOf len mtu + 1) h.data).mpComplete c 64

/-- An MP_ACK at a multipath sender (R305). -/
def State.mpAckReceive (s : State) (c : Nat) (r : RoceIn) (h : TeHost) : State :=
  let q := s.teQp c
  let una := s.qc c QC.unaPsn
  let syn := beAt r.body 11 1
  let bits := beAt r.body 0 8
  if syn ≠ 0 then
    match q.pkts.find? fun (p : TePkt) => p.psn == r.psn with
    | some p => s.teTxFail c (if syn = 0x61 then 5 else 4) fun t => p.owner == some t.id
    | none => s.count F.TE_STALE_NAK_COUNT
  else if psnDiff (s.qc c QC.nextPsn) una < psnDiff r.psn una then s.count F.TE_STALE_NAK_COUNT
  else
    let marked := fun (p : Nat) => let i := psnDiff p (psnAdd r.psn 1); decide (i < 64) && bits.testBit i
    let keep := q.pkts.filter fun (p : TePkt) => decide (psnDiff p.psn r.psn < 2 ^ 23) && !marked p.psn
    let una1 := (keep.head?.map TePkt.psn).getD (s.qc c QC.nextPsn)
    let s1 := (s.setTeQp c { q with pkts := keep }).setQc c QC.unaPsn una1
    let s2 := if una1 = una then s1 else s1.teRestore c
    let top := (List.range 64).foldl (fun n i => if bits.testBit i then i + 1 else n) 0
    let lost := if bits = 0 then [] else keep.filter fun (p : TePkt) => decide (psnDiff p.psn r.psn < top)
    (((lost.foldl (fun (s : State) p => s.teResend c p) s2).mpRespond c h 4096 h.data).mpComplete c 64).teSettleTx c

/-! ### An arriving header (R279) -/

/-- The SRQ that a packet of an XRC QP names: one that takes a receive. -/
def State.xrcNamed (s : State) (c : Nat) (r : RoceIn) : Option Nat :=
  if (s.qc c QC.type = 3 ∨ s.qc c QC.type = 4) ∧ (loIsSend (r.op % 32) ∨ loHasImm (r.op % 32)) then some (beAt r.body 1 3) else none

/-- A RoCEv2 packet at its QP, all checks of R279 passed. -/
def State.teAtQp (s : State) (c : Nat) (r : RoceIn) (h : TeHost) : State :=
  let ty := s.qc c QC.type
  let st := s.qc c QC.state
  let s0 := if st = 2 ∧ !(s.teQp c).est then (s.setTeQp c { s.teQp c with est := true }).teEvent (s.qc c QC.fn) 4 c else s
  let sends := st == 3 || st == 4
  let path := if 0xC0 ≤ r.op ∧ r.op ≤ 0xC3 then beAt r.body 28 2 else 0
  let s1 := if r.ce then s0.cnpSend c path else s0
  let lo := r.op % 32
  if r.op = 0x81 then (if sends then s1.ccDecrease c none else s1.count F.TE_CNP_RX_COUNT)
  else if 0xC0 ≤ r.op then
    if !s.isMp c ∨ 0xC5 < r.op then s1
    else if r.op = 0xC5 then (if sends then s1.ccDecrease c (some (beAt r.body 0 2)) else s1.count F.TE_CNP_RX_COUNT)
    else if r.op = 0xC4 then (if sends then s1.mpAckReceive c r h else s1)
    else s1.mpRequest c r h
  else if s.isMp c ∨ r.op / 32 * 32 ≠ transportBits ty then s1
  else if ty = 2 then s1.teDatagram c lo r h
  else if lo = 17 then (if sends then s1.teAethReceive c r.psn (beAt r.body 0 1) else s1)
  else if 13 ≤ lo ∧ lo ≤ 16 then (if sends then s1.teReadResponse c lo r h else s1)
  else if lo = 18 then (if sends then s1.teAtomicResponse c r h else s1)
  else if 24 ≤ lo ∨ lo = 21 ∨ (ty = 1 ∧ !(decide (lo ≤ 11))) then s1
  else
    let named := s.xrcNamed c r
    let srq := s1.teSrqOf c named
    let b := if ty = 3 ∨ ty = 4 then r.body.drop 4 else r.body
    if named.any fun j => !s.xrcNames c j then
      s1.teNak c r.psn 0x61
    else s1.teOrdered c lo srq r b h

/-- Must posts of the tag-matching SRQ of an arrival be taken before it (R297): the QP's own, or the one it names? -/
def State.tePostsWait (s : State) (c : Nat) (r : RoceIn) : Bool :=
  match s.teSrqOf c (s.xrcNamed c r) with
  | some j => s.srqUsed j && s.srqF j SR.tmEn == 1 && (s.teSrq j).pi != (s.teSrq j).ci
  | none => false

/-- Does a QP process arriving packets (Table 11-5)? -/
def State.teReceives (s : State) (c : Nat) : Bool :=
  s.qpUsed c && s.teRuns (s.qpEngine c) && decide (2 ≤ s.qc c QC.state) && decide (s.qc c QC.state ≤ 5)

/-- Messages held back by an invalidation complete, as far as they may (R284). -/
def State.teLate (s : State) : State :=
  (spKeys s.te.qps).foldl (fun (s : State) c =>
    let q := s.teQp c
    if q.late ≠ [] then s.teLateGo c q.late.length
    else if q.rx ≠ [] ∧ s.isMp c ∧ s.teReceives c then s.mpComplete c 64 else s) s

/-- The end of an event after which a message held back may complete. -/
def State.teEnd (s : State) : State := s.teLate.teSettle

/-- The cipher pair has encapsulated a packet: it goes to the wire (R280). -/
def State.teEspDone (s : State) (c : Nat) (m : Packet) : State :=
  let q := s.teQp c
  match q.esp with
  | [] => s
  | hdr :: rest =>
    let s1 := s.setTeQp c { q with esp := rest }
    if hGet m.words CH.status ≠ 0 then s1
    else s1.teToWire c (hdr.take 14 ++ ipForEsp (hdr.drop 14) m.payload.length ++ m.payload)

/-- A context access hits or misses the cache of contexts, whose replacement the spec leaves open. -/
def State.teCacheAccess (s : State) (e : Nat) : State :=
  let (v, s1) := s.takeFree
  if bitAt v 0 then s1.wrapBy (F.TE_ENG_CACHE_HITS_COUNT e) 1 else s1.wrapBy (F.TE_ENG_CACHE_MISSES_COUNT e) 1

/-- The microcode event ends in a fault, or meets an error that is not repaired (R329, R330). -/
def State.teMicrocode (s : State) (c : Nat) (u : UcEnd) : State :=
  match u with
  | .fault => ((s.count F.TE_UC_FAULT_COUNT_COUNT).ucFault 0x1B 2 (s.qpEngine c * 2 ^ 36 + c % 2 ^ 22)).teQpError c 1
  | .unrepaired => (s.ucFault 0x1C 3 (s.qpEngine c * 2 ^ 36 + c % 2 ^ 22)).teQpError c 1
  | .corrected => s.count F.TE_UC_CE_COUNT_COUNT
  | .ok => s

/-- The header at the front of an engine's inbox. A packet or completion that passes the checks of R279, which fixed
logic makes (R328), is an event and takes a context; with none free it waits (R315). -/
def execTePacketReceive (engine : Nat) (h : TeHost) (s : State) : Res :=
  let ep := teEp engine
  match s.inboxOf ep with
  | [] => .next s
  | m :: t =>
    let w := m.words
    let kind := hGet w CH.kind
    let c := hGet w CH.ctx
    let inRange := teCtxEngine s.plan c == some engine
    if !s.teRuns engine then .next s
    else
      let s1 := s.setInbox ep t
      if kind ≠ kPacket ∧ kind ≠ kCommand ∧ kind ≠ kCompletion then
        .next (s1.fault uTe 0x01 0 (engine * 2 ^ 36 + c % 2 ^ 22))
      else if kind = kCommand then
        .next ((if inRange then s1 else s1.fault uTe 0x02 1 (engine * 2 ^ 36 + c % 2 ^ 22)).complete ep w 0x01 0 [])
      else if kind = kCompletion then
        .next (if !inRange then s1.fault uTe 0x02 1 (engine * 2 ^ 36 + c % 2 ^ 22)
          else if s.seqFull engine then s
          else (s1.seqInternal engine (.qp c)).teEspDone c m)
      else
        match parseRoce m.payload with
        | none => .next s
        | some r =>
          let drop : Res := .next (s1.count F.TE_RX_DISCARD_COUNT)
          if !inRange then drop
          else if h.ctxUe then .next (((s1.teFault 0x03 2 c).teQpError c 1).teSettle)
          else if !s.qpUsed c ∨ s.qc c QC.state = 0 ∨ r.qpn ≠ s.qc c QC.localQpn ∨ r.dst ≠ s.srcIp c ∨ !r.good ∨ m.poison ∨
              hGet w CH.poison = 1 ∨ r.pkey ≠ s.qc c QC.pkey then drop
          else if r.ver ≠ 0 then .next s1
          else if s.qc c QC.state = 1 ∨ s.qc c QC.state = 6 then .next s1
          else if s.tePostsWait c r ∨ s.seqFull engine ∨ s.dmaWaits (s.qc c QC.fn) then .next s
          else
            let s2 := ((s1.seqDispatch engine tblPacket r.op (.qp c)).teCacheAccess engine).teMicrocode c h.uc
            if h.uc = .fault ∨ h.uc = .unrepaired then .next (s2.seqAbandon engine).teSettle
            else .next ((s2.teAtQp c r h).teRdvGo c ((s2.teQp c).tx.length + 1)).teEnd

/-! ### Posts to a tag-matching SRQ, the reorder timer, invalidation (R284, R296, R304) -/

/-- The engine's own gate for work of an SRQ. -/
def State.teFnRuns (s : State) (f : Nat) : Bool := teFnHas s.plan f && s.teRuns (teFnEngine s.plan f)

/-- Messages of a multipath QP that wait for a receive go on after a post (R303). -/
def State.mpResume (s : State) (c : Nat) (h : TeHost) : State :=
  if s.isMp c ∧ s.teReceives c then (s.mpAssign c h 64 0).mpComplete c 64 else s

/-- The multipath QPs of an SRQ that receive. -/
def State.srqQps (s : State) (j : Nat) : List Nat :=
  (spKeys s.te.used).filter fun c => s.qc c QC.srqEn == 1 && s.qc c QC.srq == j && s.isMp c && s.teReceives c

/-- The message of several QPs whose first packet arrived first. -/
def firstBorn : List (Nat × TeRx) → Option (Nat × TeRx)
  | [] => none
  | x :: t => match firstBorn t with
    | none => some x
    | some y => if y.2.born < x.2.born then some y else some x

/-- Messages that wait for a receive of an SRQ take theirs in the order in which their first packets arrived, in message
order on one QP (R297, R303); `done` holds the QPs that can take no more. -/
def State.srqAssign (s : State) (j : Nat) (h : TeHost) : Nat → Nat → List Nat → State
  | 0, _, _ => s
  | n + 1, k, done =>
    match firstBorn (((s.srqQps j).filter fun c => !done.contains c).filterMap fun c => (s.mpNext c).map fun m => (c, m)) with
    | none => s
    | some (c, m) =>
      let (more, s1) := s.mpAssignOne c h k m
      if more then s1.srqAssign j h n (k + 1) done else s1.srqAssign j h n k (c :: done)

/-- Messages that wait for a receive of an SRQ go on. -/
def State.srqResume (s : State) (j : Nat) (h : TeHost) : State :=
  (s.srqQps j).foldl (fun (s : State) c => s.mpComplete c 64) (s.srqAssign j h (65 * (s.srqQps j).length) 0 [])

/-- The next WQE posted to a tag-matching SRQ; a plain one is set aside. Messages that waited for it go on. -/
def State.tePost (s : State) (j : Nat) (h : TeHost) (act : State → TeSrq → State) (kind : Nat) : State :=
  let q := s.teSrq j
  let b := bytesAt h.wqe 0 64
  if !s.srqUsed j ∨ !s.teFnRuns q.fn ∨ s.srqF j SR.tmEn = 0 ∨ q.pi = q.ci ∨ s.dmaWaits q.fn then s
  else if leAt b 15 1 ≠ kind ∧ leAt b 15 1 ≠ 0 then s
  else
    let (r, _, s1) := s.dmaRead q.fn none (s.srqF j SR.base + 64 * (q.ci % 2 ^ s.srqF j SR.log2)) 64 b h.we
    if r ≠ 0 then ((s1.teSetF (srqBase j) SR.state 2).teFnFault 0x09 8 q.fn)
    else
      let q1 := { q with ci := (q.ci + 1) % 65536 }
      if leAt b 15 1 = 0 then ((s1.setTeSrq j { q1 with plain := q1.plain ++ [recvOf q.ci b] }).srqResume j h).teEnd
      else ((act (s1.setTeSrq j q1) q1).srqResume j h).teEnd

/-- A tagged receive is matched against the unexpected list, oldest first, or posted (R296). One that matches an eager
message still arriving is filled once that is whole. -/
def State.teTaggedPost (s : State) (j : Nat) (q : TeSrq) (r : TeRecv) (mask : Nat) (h : TeHost) : State :=
  match q.unexp.find? fun (u : TeUnexp) => u.claim.isNone && (r.tag ^^^ u.tag) &&& mask == 0 with
  | none =>
    if s.srqF j SR.postedMax ≤ q.posted.length then
      s.teCqe (s.srqF j SR.tagCq) false [r.wrId, cqeWord1 1 3 ceTag 0 r.index, 0, 0, s.timeWord2, 0, 0]
    else s.setTeSrq j { q with posted := q.posted ++ [(r, mask)] }
  | some u =>
    let r1 := { r with tag := u.tag, app := u.app, op := u.op }
    let s1 := s.setTeSrq j { q with unexp := q.unexp.filter fun (x : TeUnexp) => x.id != u.id }
    match u.recv, u.whole with
    | none, _ => s1.teRendezvous u.qp j r1 u.va u.rkey u.len
    | some p, true => s1.teTagCopy j u p r1 h
    | some _, false =>
      s.setTeSrq j { q with unexp := q.unexp.map fun (x : TeUnexp) => if x.id = u.id then { x with claim := some r1 } else x }

def execTeTaggedReceive (srq : Nat) (h : TeHost) (s : State) : Res :=
  let b := bytesAt h.wqe 0 64
  let r : TeRecv := { recvOf (s.teSrq srq).ci b with tagged := true }
  .next (s.tePost srq h (fun s q => s.teTaggedPost srq q r (leAt b 24 8) h) 1)

/-- A cancel receive (R296). -/
def execTeCancelReceive (srq : Nat) (h : TeHost) (s : State) : Res :=
  let b := bytesAt h.wqe 0 64
  let wr : Word := BitVec.ofNat 64 (leAt b 0 8)
  .next (s.tePost srq h (fun s q =>
    let cqe := fun (s : State) (status index : Nat) =>
      s.teCqe (s.srqF srq SR.tagCq) false [wr, cqeWord1 1 status ceTag 0 index, 0, 0, s.timeWord2, 0, 0]
    match q.posted.find? fun x => x.1.wrId == wr with
    | some x => cqe (s.setTeSrq srq { q with posted := q.posted.erase x }) 3 x.1.index
    | none => cqe s 1 ((q.ci + 65535) % 65536)) 2)

/-- The reorder timer reaches `REORDER_US` with a gap: an MP_ACK (R304). -/
def execReorderTimer (qp : Nat) (s : State) : Res :=
  if s.teReceives qp ∧ s.isMp qp ∧ (s.teQp qp).seen ≠ [] ∧ !s.seqFull (s.qpEngine qp) then
    .next (((s.teExpiry qp).count F.TE_MP_SNAK_TX_COUNT).mpAckSend qp (s.qc qp QC.epsn) 0)
  else .next s

end Sys2Proof.Machine
end

