-- ==== Sys2Proof/Machine/Nve.lean ====
section
/-! DEFINITION. The commands of the storage engines: controllers, NVMe commands, PDUs, TCP, connections and
commits (R333 to R361). -/

namespace Sys2Proof.Machine

def free16 (s : State) : List Byte × State :=
  let (a, s1) := s.takeFree
  let (b, s2) := s1.takeFree
  (natLE 8 a.toNat ++ natLE 8 b.toNat, s2)

/-! ### Controller registers (R336, R337) -/

/-- `CAP` (Table 13-2). -/
def nveCap : Nat := 0xFFFF + 2 ^ 16 + 60 * 2 ^ 24 + 2 ^ 37 + 4 * 2 ^ 52

def NveCtl.rdy (c : NveCtl) : Bool := c.csts % 2 == 1
def NveCtl.en (c : NveCtl) : Bool := c.cc % 2 == 1

/-- A controller becomes ready with its admin queue; an unsupported configuration is fatal. -/
def State.nveEnable (s : State) (f : Nat) : State :=
  let c := s.ctl f
  let field := fun (hi lo : Nat) => natBits c.cc hi lo
  if field 6 4 ≠ 0 ∨ field 13 11 ≠ 0 ∨ 4 < field 10 7 then s.setCtl f { c with csts := 2 }
  else
    let sq : NveSq := { qid := 0, base := c.asq / 4096 * 4096, size := natBits c.aqa 11 0 + 1, cq := 0, head := 0, tail := 0 }
    let cq : NveCq := { qid := 0, base := c.acq / 4096 * 4096, size := natBits c.aqa 27 16 + 1, vec := 0, ien := true, phase := true, head := 0, tail := 0 }
    s.setCtl f { c with csts := 1, sqs := [sq], cqs := [cq], turn := 0 }

/-- Commands of a queue (or of every queue) that have not been sent to the target complete with a status. -/
def State.nveAbortUnsent (s : State) (f : Nat) (sq : Option Nat) (status : Nat) : State :=
  (s.nve.cmds.filter fun (x : NveCmd) => x.fn == f && (sq == some x.sq || sq.isNone) &&
    !x.sent).foldl
    (fun (s : State) (x : NveCmd) => s.nveFinish x status 0) s

/-- A write of `CC`: enable, disable and shutdown (R356); bits 31:25 and 3:1 are reserved and stay 0 (R8). -/
def State.nveCcWrite (s : State) (f v : Nat) : State :=
  s.fnWrite uNve f <|
  let c := s.ctl f
  let s1 := s.setCtl f { c with cc := v &&& 0x01FFFFF1 }
  let s2 := if v % 2 = 1 ∧ !c.en then (if c.dis then s1 else s1.nveEnable f)
    else if v % 2 = 0 ∧ c.en then
      let s2 := s1.nveAbortUnsent f none stSqDeleted
      s2.setCtl f { s2.ctl f with dis := true, aers := [] }
    else s1
  let s3 := if natBits v 15 14 ≠ 0 ∧ natBits c.cc 15 14 = 0 then
      let c3 := s2.ctl f
      s2.setCtl f { c3 with shut := 1, shn := true, csts := c3.csts / 16 * 16 + c3.csts % 4 + 4 }
    else s2
  s3.nveGo

/-- A disable that has completed while `CC.EN` was set again enables the controller. -/
def State.nveReenable (s : State) (f : Nat) : State :=
  let c := s.ctl f
  if c.en && !c.dis && c.csts % 4 == 0 then s.nveEnable f else s

/-- Four bytes of the controller registers as they read; doorbells read a free value. -/
def State.nveReg4 (s : State) (f o : Nat) : Nat × State :=
  let c := s.ctl f
  if 0x1000 ≤ o then
    let (v, s1) := s.takeFree
    (bitsAt v 31 0, s1)
  else
    (if o = 0x00 then nveCap % 2 ^ 32 else if o = 0x04 then nveCap / 2 ^ 32 else if o = 0x08 then 0x20000
      else if o = 0x0C ∨ o = 0x10 then c.intm else if o = 0x14 then c.cc else if o = 0x1C then c.csts else if o = 0x24 then c.aqa
      else if o = 0x28 then c.asq % 2 ^ 32 else if o = 0x2C then c.asq / 2 ^ 32
      else if o = 0x30 then c.acq % 2 ^ 32 else if o = 0x34 then c.acq / 2 ^ 32 else 0, s)

/-- A read of the controller registers; `none` is UR: only naturally aligned accesses of 4 and 8 bytes exist. -/
def State.nveRegRead (s : State) (f o n : Nat) : Option Nat × State :=
  if n = 4 ∧ o % 4 = 0 then
    let (v, s1) := s.nveReg4 f o
    (some v, s1)
  else if n = 8 ∧ o % 8 = 0 then
    let (a, s1) := s.nveReg4 f o
    let (b, s2) := s1.nveReg4 f (o + 4)
    (some (a + b * 2 ^ 32), s2)
  else (none, s)

/-! ### Doorbells (R339) -/

/-- An error event of a doorbell, with its entry of the error log. -/
def State.nveBadDoorbell (s : State) (f info : Nat) : State :=
  let c := s.ctl f
  let n := c.stats.getD 3 0 + 1
  let entry := natLE 8 n ++ natLE 2 0xFFFF ++ natLE 2 0xFFFF ++ List.replicate 52 0
  (s.setCtl f { c with errLog := (entry :: c.errLog).take 64, stats := c.stats.set 3 n }).nveEvent f 0 info 0x01

/-- A doorbell at `0x1000` + 4 × (2 × queue + completion). -/
def State.nveDoorbell (s : State) (f o v : Nat) : State :=
  let c := s.ctl f
  let qid := (o - 0x1000) / 8
  let v := v % 65536
  if !nveHas s.plan f ∨ !c.rdy ∨ o < 0x1000 ∨ o % 4 ≠ 0 then s
  else if s.fnAmended f then s.common uNve 0xFC
  else if o % 8 = 0 then
    match c.sqs.find? fun (q : NveSq) => q.qid == qid with
    | none => s.nveBadDoorbell f 0
    | some q =>
      if q.size ≤ v then s.nveBadDoorbell f 1
      else s.setCtl f { c with sqs := c.sqs.map fun (x : NveSq) => if x.qid = qid then { x with tail := v } else x }
  else
    match c.cqs.find? fun (q : NveCq) => q.qid == qid with
    | none => s.nveBadDoorbell f 0
    | some q =>
      if q.size ≤ v ∨ (q.tail + q.size - q.head) % q.size < (v + q.size - q.head) % q.size then s.nveBadDoorbell f 1
      else (s.setCtl f { c with cqs := c.cqs.map fun (x : NveCq) => if x.qid = qid then { x with head := v } else x }).nveHeld f qid

def execNvmeDoorbell (fn offset value : Nat) (s : State) : Res := .next (s.nveDoorbell fn offset value)

/-- Four bytes written; reserved bits keep 0 (R8): 31:28 and 15:12 of `AQA`, 11:0 of `ASQ` and `ACQ`, those that
`nveCcWrite` drops of `CC`. -/
def State.nveWrite4 (s : State) (f o v : Nat) : State :=
  let c := s.ctl f
  if 0x1000 ≤ o then s.nveDoorbell f o v
  else if s.fnAmended f then s.common uNve 0xFC
  else if o = 0x0C then s.setCtl f { c with intm := c.intm ||| v }
  else if o = 0x10 then s.setCtl f { c with intm := c.intm - (c.intm &&& v) }
  else if o = 0x14 then s.nveCcWrite f v
  else if o = 0x24 then s.setCtl f { c with aqa := v &&& 0x0FFF0FFF }
  else if o = 0x28 then s.setCtl f { c with asq := c.asq / 2 ^ 32 * 2 ^ 32 + v / 4096 * 4096 }
  else if o = 0x2C then s.setCtl f { c with asq := v * 2 ^ 32 + c.asq % 2 ^ 32 }
  else if o = 0x30 then s.setCtl f { c with acq := c.acq / 2 ^ 32 * 2 ^ 32 + v / 4096 * 4096 }
  else if o = 0x34 then s.setCtl f { c with acq := v * 2 ^ 32 + c.acq % 2 ^ 32 }
  else s

/-- A write of the controller registers; false is UR. -/
def State.nveRegWrite (s : State) (f o n v : Nat) : Bool × State :=
  if n = 4 ∧ o % 4 = 0 then (true, s.nveWrite4 f o (v % 2 ^ 32))
  else if n = 8 ∧ o % 8 = 0 then (true, (s.nveWrite4 f o (v % 2 ^ 32)).nveWrite4 f (o + 4) (v / 2 ^ 32 % 2 ^ 32))
  else (false, s)

def execCcEnSet (fn value : Nat) (s : State) : Res :=
  .next (if nveHas s.plan fn && !(s.ctl fn).en && value % 2 == 1 then s.nveCcWrite fn value else s)
def execNveCcEnClear (fn value : Nat) (s : State) : Res :=
  .next (if nveHas s.plan fn && (s.ctl fn).en && value % 2 == 0 then (s.nveCcWrite fn value).nveReenable fn else s)
def execNveCcShn (fn value : Nat) (s : State) : Res :=
  .next (if nveHas s.plan fn && natBits value 15 14 != 0 then s.nveCcWrite fn value else s)

/-! ### Admission (R338, R339) -/

def adminOps : List Nat := [0x00, 0x01, 0x02, 0x04, 0x05, 0x06, 0x08, 0x09, 0x0A, 0x0C]
def ioOps : List Nat := [opFlush, opWrite, opRead, opZeroes, opDsm]

/-- The queue served next: after the one served last, the lowest-numbered with an entry; the admin queue
starts each turn. -/
def NveCtl.nextSq (c : NveCtl) : Option NveSq :=
  let ready := c.sqs.filter fun (q : NveSq) => q.head != q.tail
  let lowest := fun (l : List NveSq) => l.foldl (fun (a : Option NveSq) (q : NveSq) =>
    match a with
    | some b => if q.qid < b.qid then some q else a
    | none => some q) none
  match lowest (ready.filter fun (q : NveSq) => decide (c.turn ≤ q.qid)) with
  | some q => some q
  | none => lowest ready

/-- Does a command use what is not supported (R338): fused operations (`FUSE`), SGLs (`PSDT`), metadata (`MPTR`), or
protection information (`PRINFO` and storage tag check of Read, Write and Write Zeroes)? -/
def NveCmd.unsupported (x : NveCmd) : Bool :=
  x.at 1 1 % 4 != 0 || x.at 1 1 / 64 != 0 || x.at 16 8 != 0 ||
    (x.isIo opWrite || x.isIo opRead || x.isIo opZeroes) && x.at 51 1 &&& 0x3D != 0

/-- The engine takes the next entry of a controller, `sqe` as host memory holds it. Where a command both uses what is
not supported and names no active namespace, the namespace is what it is told of. DESIGN CHOICE, log entry 152. -/
def execNvmeAdmission (fn : Nat) (sqe : List Byte) (e : DmaEnd) (s : State) : Res :=
  let c := s.ctl fn
  match c.nextSq with
  | none => .next s
  | some q =>
    if !s.nveRuns fn ∨ !s.taking ∨ !c.rdy ∨ c.dis ∨ s.dmaWaits fn then .next s
    else
      let (r, s1) := s.nveFromHost fn [(q.base + 64 * q.head, 64)] ⟨[], sqe, e⟩ 64
      if r.1 ≠ 0 then .next (s1.setCtl fn { s1.ctl fn with csts := 3 + c.csts / 4 * 4 })
      else
        let b := r.2
        let op := leAt b 0 1
        let q1 := { q with head := (q.head + 1) % q.size }
        let c1 := s1.ctl fn
        let s2 := s1.setCtl fn { c1 with sqs := c1.sqs.map fun (x : NveSq) => if x.qid = q.qid then q1 else x, turn := q.qid + 1 }
        let nsid := leAt b 4 4
        let x : NveCmd := { id := s2.nve.nextId, fn := fn, sq := q.qid, cid := leAt b 2 2, op := op, sqe := b,
                            ns := if 1 ≤ nsid ∧ nsid ≤ nveNsMax s.plan fn then s2.nveNs fn nsid else nsReset 0,
                            prov := c.mode == mProvisional, phase := 0, data := [], prps := [], status := 0,
                            sent := false }
        if !(if q.qid = 0 then adminOps else ioOps).contains op then .next (s2.nveComplete fn q.qid x.cid stOpcode 0)
        else if x.unsupported then
          .next (s2.nveComplete fn q.qid x.cid (if q.qid ≠ 0 ∧ x.ns.nsze = 0 then stNamespace else stField) 0)
        else .next (s2.withNve { s2.nve with cmds := s2.nve.cmds ++ [x], nextId := s2.nve.nextId + 1 })

/-- The meaning of a command row: of an admitted command with its opcode, while its engine runs and a host read would
not have to wait for a tag. -/
def State.nveRow (s : State) (id op : Nat) (admin : Bool) (act : State → NveCmd → State) : State :=
  match s.nveCmd id with
  | some x =>
    if x.phase = 0 ∧ x.op = op ∧ (x.sq == 0) = admin ∧ s.nveRuns x.fn ∧ !s.dmaWaits x.fn then (act s x).nveGo else s
  | none => s

/-! ### Admin commands -/

/-- Returned data goes to the PRPs of a command, which completes. -/
def State.nveReturn (s : State) (x : NveCmd) (data : List Byte) (h : NveHost) : State :=
  let (r, s1) := s.nvePrps x data.length h
  if r.1 ≠ 0 then s1.nveFinish x r.1 0
  else
    let (ok, s2) := s1.nveToHost x.fn r.2 0 data
    s2.nveFinish x (if ok then 0 else stData) 0

def State.adminDeleteSq (s : State) (x : NveCmd) : State :=
  let qid := x.at 40 2
  if qid = 0 ∨ !((s.ctl x.fn).sqs.any fun (q : NveSq) => q.qid == qid) then s.nveFinish x (0x101 + stDnr) 0
  else (s.nveAbortUnsent x.fn (some qid) stSqDeleted).setCmd { x with phase := 2 }

def State.adminDeleteCq (s : State) (x : NveCmd) : State :=
  let qid := x.at 40 2
  let c := s.ctl x.fn
  if qid = 0 ∨ !(c.cqs.any fun (q : NveCq) => q.qid == qid) then s.nveFinish x (0x101 + stDnr) 0
  else if c.sqs.any fun (q : NveSq) => q.cq == qid then s.nveFinish x (0x10C + stDnr) 0
  else (s.setCtl x.fn { c with cqs := c.cqs.filter fun (q : NveCq) => q.qid != qid }).nveFinish x 0 0

/-- The count of queues granted: before Set Features names one, the allocation's. -/
def State.granted (s : State) (f : Nat) (g : Option Nat) : Nat := g.getD (nveIoqMax s.plan f)

def State.adminCreateSq (s : State) (x : NveCmd) : State :=
  let c := s.ctl x.fn
  let qid := x.at 40 2
  let size := x.at 42 2
  let cq := x.at 46 2
  if x.at 44 1 % 2 = 0 then s.nveFinish x stField 0
  else if cq = 0 ∨ !(c.cqs.any fun (q : NveCq) => q.qid == cq) then s.nveFinish x (0x100 + stDnr) 0
  else if qid = 0 ∨ s.granted x.fn c.nsq < qid ∨ c.sqs.any fun (q : NveSq) => q.qid == qid then s.nveFinish x (0x101 + stDnr) 0
  else if size = 0 then s.nveFinish x (0x102 + stDnr) 0
  else if x.at 24 8 % c.page ≠ 0 then s.nveFinish x stPrp 0
  else (s.setCtl x.fn { c with sqs := c.sqs ++ [(⟨qid, x.at 24 8, size + 1, cq, 0, 0⟩ : NveSq)] }).nveFinish x 0 0

def State.adminCreateCq (s : State) (x : NveCmd) : State :=
  let c := s.ctl x.fn
  let qid := x.at 40 2
  let size := x.at 42 2
  if x.at 44 1 % 2 = 0 then s.nveFinish x stField 0
  else if qid = 0 ∨ s.granted x.fn c.ncq < qid ∨ c.cqs.any fun (q : NveCq) => q.qid == qid then s.nveFinish x (0x101 + stDnr) 0
  else if size = 0 then s.nveFinish x (0x102 + stDnr) 0
  else if x.at 44 1 / 2 % 2 = 1 ∧ fnMsixSize s.plan x.fn ≤ x.at 46 2 then s.nveFinish x (0x108 + stDnr) 0
  else if x.at 24 8 % c.page ≠ 0 then s.nveFinish x stPrp 0
  else
    (s.setCtl x.fn { c with cqs := c.cqs ++
      [(⟨qid, x.at 24 8, size + 1, x.at 46 2, x.at 44 1 / 2 % 2 == 1, true, 0, 0⟩ : NveCq)] }).nveFinish x 0 0

/-- Bytes buffered, age of the oldest, and the rest of log page 0xC0 (R355). -/
def State.logState (s : State) (f : Nat) : List Byte :=
  let c := s.ctl f
  let oldest := c.blocks.foldl (fun (a : Nat) (y : NveBlock) => min a y.since) s.clk.elapsed
  let age := (s.clk.elapsed - oldest) / (1000 * nsUnit)
  natLE 8 c.mode ++ natLE 8 c.used ++ natLE 8 age ++ natLE 8 c.lost ++ natLE 8 c.drains ++ List.replicate 472 0

/-- The SMART / Health log: what the device counts; the fields that the manual says nothing of are free. -/
def State.logSmart (s : State) (f : Nat) : List Byte × State :=
  let st := fun (i : Nat) => (s.ctl f).stats.getD i 0
  let (temp, s1) := s.takeFree
  let (busy, s2) := free16 s1
  let (cycles, s3) := free16 s2
  let (hours, s4) := free16 s3
  let (unsafe_, s5) := free16 s4
  (natLE 1 0 ++ natLE 2 temp.toNat ++ natLE 1 100 ++ natLE 1 0 ++ natLE 1 0 ++ List.replicate 26 0 ++
    natLE 16 ((st 0 + 511999) / 512000) ++ natLE 16 ((st 1 + 511999) / 512000) ++ natLE 16 (st 2) ++ natLE 16 (st 5) ++
    busy ++ cycles ++ hours ++ unsafe_ ++ natLE 16 (st 4) ++ natLE 16 (st 3) ++ List.replicate 320 0, s5)

/-- The content of a log page; `none` where there is no such page. -/
def State.logPage (s : State) (f page : Nat) : Option (List Byte × State) :=
  let c := s.ctl f
  if page = 0x01 then some (bytesAt c.errLog.flatten 0 4096, s)
  else if page = 0x02 then some (s.logSmart f)
  else if page = 0x04 then some (bytesAt (c.changed.flatMap (natLE 4)) 0 4096, s)
  else if page = 0xC0 then some (s.logState f, s)
  else none

/-- Get Log Page: without Retain Asynchronous Event, the events of the page may be sent again. -/
def State.adminGetLog (s : State) (x : NveCmd) (h : NveHost) : State :=
  let page := x.at 40 1
  let n := 4 * (x.at 42 2 + x.at 44 2 * 65536 + 1)
  let off := x.at 48 8
  match s.logPage x.fn page with
  | none => s.nveFinish x (0x109 + stDnr) 0
  | some (b, s1) =>
    if b.length < off ∨ off % 4 ≠ 0 ∨ 262144 < n then s.nveFinish x stField 0
    else
      let s2 := s1.nveReturn x (bytesAt b off n) h
      if x.at 41 1 / 128 = 1 then s2
      else
        let c := s2.ctl x.fn
        let types := if page = 0x01 then [0] else if page = 0x02 then [1] else if page = 0x04 then [2] else [7]
        (s2.setCtl x.fn { c with masked := c.masked.filter fun t => !types.contains t,
                                 changed := if page = 0x04 then [] else c.changed }).nveAer x.fn 4

/-- Identify Controller (Table 13-2). Identifiers that the manual does not give are free. -/
def State.identifyController (s : State) (f : Nat) : List Byte × State :=
  let id := s.cfg f 0x00
  let (a, s1) := free16 s
  let (b, s2) := free16 s1
  let (d, s3) := free16 s2
  let (e, s4) := free16 s3
  let (g, s5) := free16 s4
  let z := List.replicate 4096 (0 : Byte)
  let put := fun (l : List Byte) (o : Nat) (v : List Byte) => bytesPut l o v
  let l := put (put (put (put z 0 (natLE 2 (id % 65536))) 2 (natLE 2 (s.cfg f 0x2C % 65536))) 4 (a ++ bytesAt b 0 4)) 24 (d ++ e ++ bytesAt b 4 8)
  let l := put (put (put l 64 (bytesAt g 0 8)) 73 (bytesAt b 12 3)) 77 (natLE 1 6)
  let l := put (put (put l 78 (bytesAt g 8 2)) 80 (natLE 4 0x20000)) 92 (natLE 4 0x80000100)
  let l := put (put (put l 111 (natLE 1 1)) 258 (bytesAt g 10 1)) 259 (natLE 1 3)
  let l := put (put (put l 262 (natLE 1 63)) 512 (natLE 1 0x66)) 513 (natLE 1 0x44)
  let l := put (put (put l 516 (natLE 4 (nveNsMax s.plan f))) 520 (natLE 2 0x0C)) 525 (natLE 1 (if s.hostVwc f then 1 else 0))
  (put l 768 (ascii "nqn." ++ a ++ b), s5)

/-- Identify Namespace (R342). -/
def NveNs.identify (n : NveNs) : List Byte :=
  let z := List.replicate 4096 (0 : Byte)
  if n.nsze = 0 then z
  else bytesPut (bytesPut z 0 (natLE 8 n.nsze ++ natLE 8 n.nsze ++ natLE 8 n.nsze)) 130 (natLE 1 n.lbads)

def State.adminIdentify (s : State) (x : NveCmd) (h : NveHost) : State :=
  let cns := x.at 40 1
  let known := 1 ≤ x.nsid ∧ x.nsid ≤ nveNsMax s.plan x.fn
  if cns = 0x00 then (if known then s.nveReturn x x.ns.identify h else s.nveFinish x stNamespace 0)
  else if cns = 0x01 then
    let (b, s1) := s.identifyController x.fn
    s1.nveReturn x b h
  else if cns = 0x02 then
    if 0xFFFFFFFE ≤ x.nsid then s.nveFinish x stNamespace 0
    else s.nveReturn x (bytesAt (((s.activeNs x.fn).filter fun n => decide (x.nsid < n)).flatMap (natLE 4)) 0 4096) h
  else if cns = 0x03 then
    if known ∧ 0 < x.ns.nsze then
      let (u, s1) := free16 s
      s1.nveReturn x (bytesAt ([3, 16, 0, 0] ++ u ++ [4, 1, 0, 0, 0]) 0 4096) h
    else s.nveFinish x stNamespace 0
  else s.nveFinish x stField 0

/-- Abort (R350). -/
def State.adminAbort (s : State) (x : NveCmd) : State :=
  let sq := x.at 40 2
  let cid := x.at 42 2
  let c := s.ctl x.fn
  if sq = 0 ∧ c.aers.contains cid then
    ((s.setCtl x.fn { c with aers := c.aers.filter (· != cid) }).nveComplete x.fn 0 cid stAborted 0).nveFinish x 0 0
  else
    match s.nve.cmds.find? fun (y : NveCmd) => y.fn == x.fn && y.sq == sq && y.cid == cid && y.id != x.id with
    | none => s.nveFinish x 0 1
    | some y =>
      if y.sent then s.nveFinish x 0 1
      else (s.nveFinish y stAborted 0).nveFinish x 0 0

def featureIds : List Nat := [0x01, 0x06, 0x07, 0x08, 0x09, 0x0B]

def State.adminSetFeatures (s : State) (x : NveCmd) : State :=
  let fid := x.at 40 1
  let v := x.at 44 4
  let c := s.ctl x.fn
  let key := if fid = 0x09 then 0x10000 + v % 65536 else fid
  if !featureIds.contains fid then s.nveFinish x stField 0
  else if x.at 43 1 / 128 = 1 then s.nveFinish x (0x10D + stDnr) 0
  else if fid = 0x06 ∧ v % 2 = 0 ∧ c.mode ≠ mDurable then s.nveFinish x (0x10E + stDnr) 0
  else if fid = 0x07 then
    let nsq := min (v % 65536 + 1) (nveIoqMax s.plan x.fn)
    let ncq := min (v / 65536 + 1) (nveIoqMax s.plan x.fn)
    if v % 65536 = 65535 ∨ v / 65536 = 65535 then s.nveFinish x stField 0
    else if c.sqs.any (fun (q : NveSq) => q.qid != 0) || c.cqs.any fun (q : NveCq) => q.qid != 0 then s.nveFinish x (0x0C + stDnr) 0
    else (s.setCtl x.fn { c with nsq := some nsq, ncq := some ncq }).nveFinish x 0 (nsq - 1 + (ncq - 1) * 65536)
  else if fid = 0x09 ∧ fnMsixSize s.plan x.fn ≤ v % 65536 then s.nveFinish x stField 0
  else (s.setCtl x.fn { c with feats := spSet (fun _ => 0) c.feats key v }).nveFinish x 0 0

/-- A feature's current value. -/
def State.featureValue (s : State) (x : NveCmd) (fid : Nat) : Nat :=
  let c := s.ctl x.fn
  if fid = 0x06 then (if s.hostVwc x.fn then 1 else 0)
  else if fid = 0x07 then s.granted x.fn c.nsq - 1 + (s.granted x.fn c.ncq - 1) * 65536
  else if fid = 0x09 then (let k := x.at 44 2; let v := c.feat (0x10000 + k); if v = 0 then k else v)
  else c.feat fid

/-- Get Features: the current value; the default of what can be set; what may be changed. -/
def State.adminGetFeatures (s : State) (x : NveCmd) : State :=
  let fid := x.at 40 1
  let sel := x.at 41 1 % 8
  if !featureIds.contains fid then s.nveFinish x stField 0
  else if sel = 0 then s.nveFinish x 0 (s.featureValue x fid)
  else if sel = 3 then s.nveFinish x 0 4
  else if sel ≤ 2 then
    s.nveFinish x 0 (if fid = 0x06 then (if s.hostVwc x.fn then 1 else 0)
      else if fid = 0x07 then (nveIoqMax s.plan x.fn - 1) * 65537 else if fid = 0x09 then x.at 44 2 else 0)
  else s.nveFinish x stField 0

/-- Asynchronous Event Request: four may be outstanding. -/
def State.adminAer (s : State) (x : NveCmd) : State :=
  let c := s.ctl x.fn
  if 4 ≤ c.aers.length then s.nveFinish x (0x105 + stDnr) 0
  else
    let s1 := s.setCtl x.fn { c with aers := c.aers ++ [x.cid] }
    ((s1.withNve { s1.nve with cmds := s1.nve.cmds.filter fun (y : NveCmd) => y.id != x.id })).nveAer x.fn 4

def execNvmeDeleteIoSq (cmd : Nat) (s : State) : Res := .next (s.nveRow cmd 0x00 true State.adminDeleteSq)
def execNvmeDeleteIoCq (cmd : Nat) (s : State) : Res := .next (s.nveRow cmd 0x04 true State.adminDeleteCq)
def execNvmeCreateIoSq (cmd : Nat) (s : State) : Res := .next (s.nveRow cmd 0x01 true State.adminCreateSq)
def execNvmeCreateIoCq (cmd : Nat) (s : State) : Res := .next (s.nveRow cmd 0x05 true State.adminCreateCq)
def execNvmeGetLogPage (cmd : Nat) (h : NveHost) (s : State) : Res := .next (s.nveRow cmd 0x02 true fun s x => s.adminGetLog x h)
def execNvmeIdentify (cmd : Nat) (h : NveHost) (s : State) : Res := .next (s.nveRow cmd 0x06 true fun s x => s.adminIdentify x h)
def execNvmeAbort (cmd : Nat) (s : State) : Res := .next (s.nveRow cmd 0x08 true State.adminAbort)
def execNvmeSetFeatures (cmd : Nat) (s : State) : Res := .next (s.nveRow cmd 0x09 true State.adminSetFeatures)
def execNvmeGetFeatures (cmd : Nat) (s : State) : Res := .next (s.nveRow cmd 0x0A true State.adminGetFeatures)
def execNvmeAsynchronousEventRequest (cmd : Nat) (s : State) : Res := .next (s.nveRow cmd 0x0C true State.adminAer)

/-! ### I/O commands (R340, R341, R351 to R353) -/

/-- What a command's namespace and length say against it, in the order namespace, length, range, read only. -/
def NveCmd.refused (x : NveCmd) (writes rw : Bool) : Nat :=
  if x.ns.nsze = 0 then stNamespace
  else if rw && x.op != opZeroes && decide (262144 < x.nlb * 2 ^ x.ns.lbads) then stField
  else if rw && decide (x.ns.nsze < x.slba + x.nlb) then stRange
  else if writes && x.ns.ro then stReadOnly
  else 0

/-- Commands and bytes that the SMART log counts. -/
def State.nveCount (s : State) (x : NveCmd) (bytes : Nat) : State :=
  let c := s.ctl x.fn
  let (i, j) := if x.op = opRead then (0, 2) else (1, 5)
  s.setCtl x.fn { c with stats := (c.stats.set i (c.stats.getD i 0 + bytes)).set j (c.stats.getD j 0 + 1) }

def State.ioFlush (s : State) (x : NveCmd) : State :=
  if x.ns.nsze = 0 then s.nveFinish x stNamespace 0 else s.setCmd { x with phase := 2 }

/-- A Write reads its data, and encrypts it where the namespace says so. -/
def State.ioWrite (s : State) (x : NveCmd) (h : NveHost) : State :=
  let n := x.nlb * 2 ^ x.ns.lbads
  let st := x.refused true true
  if st ≠ 0 then s.nveFinish x st 0
  else if s.nveBehind x x.ranges then s
  else
    let (r, s1) := s.nvePrps x n h
    if r.1 ≠ 0 then s1.nveFinish x r.1 0
    else
      let (d, s2) := s1.nveFromHost x.fn r.2 h n
      if d.1 ≠ 0 then s2.nveFinish x d.1 0
      else
        let y := { x with data := d.2, phase := if x.ns.xts then 1 else 2 }
        let s3 := (s2.setCmd y).nveCount x n
        if x.ns.xts then s3.nveCipher y opNvmeEncrypt else s3

/-- The blocks of a Read that the buffer holds, as LBA offsets with the block. -/
def State.buffered (s : State) (x : NveCmd) : List (Nat × NveBlock) :=
  (List.range x.nlb).filterMap fun i =>
    ((s.ctl x.fn).blocks.find? fun (y : NveBlock) => y.ns == x.nsid && y.lba == x.slba + i).map fun y => (i, y)

/-- The runs of LBA offsets below `n` that are not in `have_`. -/
def missingRuns (held : List Nat) (n : Nat) : List (Nat × Nat) :=
  (List.range n).foldl (fun (l : List (Nat × Nat)) i =>
    if held.contains i then l
    else
      match l.getLast? with
      | some (a, k) => if a + k = i then l.dropLast ++ [(a, k + 1)] else l ++ [(i, 1)]
      | none => [(i, 1)]) []

/-- A Read: buffered blocks come from the buffer, the others from the target (R352). `ecc`: what the ECC check
of the buffer's first block finds. -/
def State.ioRead (s : State) (x : NveCmd) (ecc : EccResult) (h : NveHost) : State :=
  let size := 2 ^ x.ns.lbads
  let st := x.refused false true
  if st ≠ 0 then s.nveFinish x st 0
  else if s.nveBehind x [(x.slba, x.nlb)] then s
  else
    let (r, s1) := s.nvePrps x (x.nlb * size) h
    if r.1 ≠ 0 then s1.nveFinish x r.1 0
    else
      let held := s1.buffered x
      match held.find? fun y => ecc.bad || s1.poisoned y.2.addr y.2.size with
      | some (_, y) => ((s1.memRead ecc y.addr).dropBlock x.fn y).nveFinish x stUnrecovered 0
      | none =>
        let zero := List.replicate (x.nlb * size) (0 : Byte)
        let data := held.foldl (fun (l : List Byte) y => bytesPut l (y.1 * size) (s1.bytes y.2.addr size)) zero
        let y := { x with data := if x.ns.xts then data else [], prps := r.2, phase := 3 }
        let s2 := ((match held.head? with
          | some z => s1.memRead ecc z.2.addr
          | none => s1).setCmd y).nveCount x (x.nlb * size)
        let (ok, s3) := if x.ns.xts then (true, s2) else
          held.foldl (fun (a : Bool × State) z =>
            let (ok, s) := a.2.nveToHost x.fn r.2 (z.1 * size) (bytesAt data (z.1 * size) size)
            (a.1 && ok, s)) (true, s2)
        if !ok then s3.nveFinish y stData 0
        else
          (missingRuns (held.map Prod.fst) x.nlb).foldl (fun (s : State) (g : Nat × Nat) =>
            s.nveJob (some x.id) x.fn x.nsid x.ns.conn opRead x.ns.remote (cdwRw x.ns (x.slba + g.1) g.2) [] (g.2 * size)
              (g.1 * size) []) s3

def State.ioZeroes (s : State) (x : NveCmd) : State :=
  let st := x.refused true true
  if st ≠ 0 then s.nveFinish x st 0
  else if s.nveBehind x x.ranges then s
  else (s.setCmd { x with phase := 2 }).nveCount x 0

/-- Dataset Management: its ranges are read; deallocations go to the target, the rest is without effect. -/
def State.ioDsm (s : State) (x : NveCmd) (h : NveHost) : State :=
  let n := 16 * (x.at 40 1 + 1)
  let deallocate := x.at 44 1 / 4 % 2 = 1
  if x.ns.nsze = 0 then s.nveFinish x stNamespace 0
  else if deallocate ∧ x.ns.ro then s.nveFinish x stReadOnly 0
  else
    let (r, s1) := s.nvePrps x n h
    if r.1 ≠ 0 then s1.nveFinish x r.1 0
    else
      let (d, s2) := s1.nveFromHost x.fn r.2 h n
      let y := { x with data := d.2, phase := 2 }
      if d.1 ≠ 0 then s2.nveFinish x d.1 0
      else if y.ranges.any fun g => decide (x.ns.nsze < g.1 + g.2) then s2.nveFinish x stRange 0
      else if !deallocate then s2.nveFinish x 0 0
      else if s.nveBehind x y.ranges then s
      else s2.setCmd y

def execNvmeFlush (cmd : Nat) (s : State) : Res := .next (s.nveRow cmd opFlush false State.ioFlush)
def execNvmeWrite (cmd : Nat) (h : NveHost) (s : State) : Res := .next (s.nveRow cmd opWrite false fun s x => s.ioWrite x h)
def execNvmeRead (cmd : Nat) (ecc : EccResult) (h : NveHost) (s : State) : Res :=
  .next (s.nveRow cmd opRead false fun s x => s.ioRead x ecc h)
def execNvmeWriteZeroes (cmd : Nat) (s : State) : Res := .next (s.nveRow cmd opZeroes false State.ioZeroes)
def execNvmeDatasetManagement (cmd : Nat) (h : NveHost) (s : State) : Res :=
  .next (s.nveRow cmd opDsm false fun s x => s.ioDsm x h)

/-! ### Cipher completions (R357) -/

/-- The status that a failed cipher command gives its command (Table 13-5); for a cipher status that the
table does not list it is free. -/
def cipherStatus (st : Nat) (free : Word) : Nat :=
  if st = 0x03 ∨ st = 0x05 then stInternal + stDnr
  else if st = 0x07 ∨ st = 0xF4 then stTransient
  else free.toNat % 32767 + 1

/-- A cipher command of a storage engine ends. -/
def State.nveCipherDone (s : State) (k : NveCiph) (st : Nat) (poison : Bool) (out : List Byte) : State :=
  let s1 := s.withNve { s.nve with ciphs := s.nve.ciphs.filter fun (y : NveCiph) => y.ctx != k.ctx }
  match s.nveCmd k.cmd with
  | none => if st ≠ 0 then s1.nveFault 0x0A 9 k.fn k.conn else s1
  | some x =>
    if st ≠ 0 then
      let (v, s2) := s1.takeFree
      ((s2.nveFault 0x0A 9 x.fn x.ns.conn).setCmd (if x.status = 0 then { x with status := cipherStatus st v } else x)).nveGo
    else if poison then (s1.setCmd (if x.status = 0 then { x with status := stUnrecovered } else x)).nveGo
    else (s1.setCmd { x with data := bytesPut x.data k.off (bytesAt out 0 k.len) }).nveGo

/-- The header at the front of a storage engine's inbox. -/
def execNveCipherCompletion (engine : Nat) (s : State) : Res :=
  let ep := nveEp engine
  match s.inboxOf ep with
  | [] => .next s
  | m :: t =>
    if !s.ready ∨ s.epHeld ep then .next s
    else
      let kind := hGet m.words CH.kind
      let s1 := s.setInbox ep t
      if kind = kPacket ∨ 5 ≤ kind then .next (s1.nveFault 0x01 0 0 0)
      else if kind = kCommand then .next (s1.complete ep m.words 0x01 0 [])
      else if kind = kCompletion then
        match s1.nve.ciphs.find? fun (k : NveCiph) => k.ctx == hGet m.words CH.ctx with
        | some k => .next (s1.nveCipherDone k (hGet m.words CH.status) (m.poison || hGet m.words CH.poison == 1) m.payload)
        | none => .next (s1.count F.FLT_LATE_CPL_COUNT)
      else .next s1

/-! ### PDUs of the target (R345 to R347) -/

/-- Is some command outstanding on a connection? -/
def State.connBusy (s : State) (c : Nat) : Bool := s.nve.jobs.any fun (j : NveJob) => j.conn == c && j.cid.isSome

/-- A bad PDU header at the front fails the connection as soon as it is there; where the PDUs that came before the
peer's FIN have been taken, commands still outstanding fail it too (R344), and on a failed connection they end. -/
def State.pduCheck (s : State) (c : Nat) : State :=
  let k := s.conn c
  if k.frontBad = 1 then s.connTerm c 2 0x02 1
  else if k.frontBad = 2 then s.connTerm c 1 0x06 5
  else if k.answers then s
  else if k.f CI.state = connFailed then (if k.rcv = [] then s else (s.connLost c).nveGo)
  else if !k.finDue then s
  else
    let s1 := s.setConn c { k with finDue := false }
    if s1.connBusy c then s1.connFail c 0x05 4 else s1

/-- The target command that a PDU names on a connection. -/
def State.jobOf (s : State) (c cid : Nat) : Option NveJob :=
  s.nve.jobs.find? fun (j : NveJob) => j.conn == c && j.cid == some cid

/-- A PDU of a given type at the front is taken and acted upon, while the connection carries PDUs or, failed, still
holds what arrived before (R358). -/
def State.pduRow (s : State) (c type : Nat) (act : State → List Byte → State) : State :=
  let k := s.conn c
  match k.front with
  | some (ty, b) =>
    if ty ≠ type ∨ k.frontBad ≠ 0 ∨ k.f CI.state = connFree ∨ !s.teRuns (k.f CI.engine) then s
    else ((act (s.setConn c { k with rcv := k.rcv.drop b.length }) b).nveGo).pduCheck c
  | none => s

def State.protoFail (s : State) (c : Nat) (b : List Byte) : State :=
  (s.setConn c { s.conn c with rcv := b ++ (s.conn c).rcv }).connTerm c 1 0x06 5

/-- CapsuleResp: the target's status ends its command (R347). A Read without all of its data breaks the
protocol. -/
def State.pduResp (s : State) (c : Nat) (b : List Byte) : State :=
  let s1 := s.setConn c { s.conn c with sqHead := leAt b 16 2 }
  let status := leAt b 22 2 / 2
  match s1.jobOf c (leAt b 20 2) with
  | none => s.protoFail c b
  | some j =>
    if j.op = opRead ∧ status = 0 ∧ !j.dead ∧ j.got < j.len then s.protoFail c b
    else s1.nveJobEnd j status true

/-- C2HData: placed into host memory at arrival, or kept for decryption; a bad data digest ends its command. -/
def State.pduC2h (s : State) (c : Nat) (b : List Byte) : State :=
  let k := s.conn c
  let off := leAt b 12 4
  let n := leAt b 16 4
  let data := bytesAt b (leAt b 3 1) n
  let last := (leAt b 1 1).testBit 2
  let success := (leAt b 1 1).testBit 3
  match s.jobOf c (leAt b 8 2) with
  | none => s.protoFail c b
  | some j =>
    if j.op ≠ opRead ∨ j.len < off + n then s.protoFail c b
    else
      let bad := k.f CI.ddgst = 1 ∧ leAt b (leAt b 3 1 + n) 4 ≠ crc32cStd data
      let finish := fun (s : State) (j : NveJob) => if last ∧ success then s.nveJobEnd j 0 true else s
      if j.dead then finish s j
      else
        match j.owner.bind s.nveCmd with
        | none => finish s j
        | some x =>
          if bad then
            let s1 := ((s.nveFault 0x03 2 x.fn c).setJob { j with dead := true }).nveFinish x stTransient 0
            finish s1 { j with dead := true }
          else
            let j1 := { j with got := j.got + n }
            let s1 := s.setJob j1
            if last ∧ success ∧ j1.got < j1.len then s.protoFail c b
            else if x.ns.xts then finish (s1.setCmd { x with data := bytesPut x.data (j.off + off) data }) j1
            else
              let (ok, s2) := s1.nveToHost x.fn x.prps (j.off + off) data
              finish (if ok ∨ x.status ≠ 0 then s2 else s2.setCmd { x with status := stData }) j1

/-- H2CData PDUs for a range of a command's data. -/
def h2cPdus (k : NveConn) (cid ttag : Nat) (data : List Byte) : Nat → Nat → Nat → List Byte
  | 0, _, _ => []
  | fuel + 1, off, n =>
    let m := min n (max 4 (k.f CI.maxH2c))
    let head := natLE 2 cid ++ natLE 2 ttag ++ natLE 4 off ++ natLE 4 m ++ natLE 4 0
    pdu k 0x06 (if m = n then 4 else 0) head (bytesAt data off m) ++
      (if n ≤ m then [] else h2cPdus k cid ttag data fuel (off + m) (n - m))

/-- R2T: answered with H2CData. -/
def State.pduR2t (s : State) (c : Nat) (b : List Byte) : State :=
  let off := leAt b 12 4
  let n := leAt b 16 4
  match s.jobOf c (leAt b 8 2) with
  | none => s.protoFail c b
  | some j =>
    if j.data.length < off + n ∨ n = 0 then s.protoFail c b
    else if s.connDown c then s
    else s.tcpWrite c j.prov (h2cPdus (s.conn c) (leAt b 8 2) (leAt b 10 2) j.data (n / 4 + 1) off n)

def execNveCapsuleResp (conn : Nat) (s : State) : Res := .next (s.pduRow conn 0x05 fun s b => s.pduResp conn b)
def execNveC2hData (conn : Nat) (s : State) : Res := .next (s.pduRow conn 0x07 fun s b => s.pduC2h conn b)
def execNvePduR2t (conn : Nat) (s : State) : Res := .next (s.pduRow conn 0x09 fun s b => s.pduR2t conn b)
def execNveC2hTermReq (conn : Nat) (s : State) : Res := .next (s.pduRow conn 0x03 fun s _ => s.connFail conn 0x06 5)

/-! ### TCP (R344) -/

/-- A segment at its connection, checked in the order of RFC 9293 and 7323: RST, timestamp, window, SYN, the
acknowledgement, the data and FIN. -/
def State.tcpArrive (s : State) (c : Nat) (t : TcpIn) : State :=
  let k := s.conn c
  if t.flags / fRst % 2 = 1 then
    if t.seq = k.f CI.rcvNxt then s.connFail c 0x05 4 else if k.inWindow t.seq then s.tcpAck c else s
  else if k.stale t ∨ !k.accepts t ∨ t.flags / fSyn % 2 = 1 then s.tcpAck c
  else
    let s0 := s.setConn c { k with tsRecent := k.stamp t }
    if t.flags / fAck % 2 = 0 then s0
    else if k.ackAhead t then s0.tcpAck c
    else ((s0.tcpAckIn c t).tcpDataIn c t).pduCheck c

/-- The frame at the front of a transport engine's inbox, where it is no RoCEv2 packet: a segment of an
offloaded connection, or discarded. -/
def execNveTcpSegmentReceive (engine : Nat) (s : State) : Res :=
  let ep := teEp engine
  match s.inboxOf ep with
  | [] => .next s
  | m :: t =>
    if hGet m.words CH.kind ≠ kPacket ∨ !s.teRuns engine ∨ (parseRoce m.payload).isSome then .next s
    else
      let s1 := s.setInbox ep t
      match parseTcp m.payload with
      | none => .next (s1.count F.TE_RX_DISCARD_COUNT)
      | some g =>
        match s1.tcpMatch engine g with
        | none => .next (s1.count F.TE_RX_DISCARD_COUNT)
        | some c =>
          if m.poison ∨ hGet m.words CH.poison = 1 then .next s1
          else if s.seqFull engine then .next s
          else .next ((s1.seqInternal engine (.conn c)).tcpArrive c g)

/-- The retransmission timer expires: the oldest segment is sent again whatever was reported of it (RFC 2018), or the
connection fails; with nothing in flight and the peer's window closed, one byte probes it. -/
def execNveTcpRto (conn : Nat) (s : State) : Res :=
  let k := s.conn conn
  if (k.f CI.state ≠ connUp ∧ k.f CI.state ≠ connClosing) ∨ !s.teRuns (k.f CI.engine) ∨ s.seqFull (k.f CI.engine) then .next s
  else
    let s0 := s.seqInternal (k.f CI.engine) (.conn conn)
    match k.segs.head? with
    | some g =>
      if k.f CI.retries ≤ g.tries then .next (s0.connFail conn 0x05 4)
      else
        .next ((s0.setConn conn { k with
          ssthresh := halfFlight k, cwnd := k.smss, dup := 0, recover := none
          segs := k.segs.map fun (g : NveSeg) => { g with sacked := false } }).tcpResend conn)
    | none =>
      if k.buf = [] ∨ k.segs ≠ [] ∨ 0 < k.f CI.sndWnd then .next s
      else
        let seq := k.f CI.sndNxt
        let d := k.buf.take 1
        .next ((s0.setConn conn { k.put CI.sndNxt (seqAdd seq 1) with
          buf := k.buf.drop 1, segs := [(⟨seq, d, 0, false⟩ : NveSeg)] }).tcpSend conn seq (fAck + fPsh) true d)

/-- A command has been outstanding at the target for `TIMEOUT_MS` (R348). -/
def execNveTargetTimeout (conn : Nat) (s : State) : Res :=
  let e := (s.conn conn).f CI.engine
  .next (if s.connBusy conn && s.teRuns e then s.connFail conn 0x04 3 else s)

/-! ### Connection commands (R343) -/

def State.connFc (s : State) (fc : Nat) : State := s.set F.NVE_CONN_STATUS_LAST_FC fc

/-- Connections that an engine holds. -/
def State.connsOf (s : State) (e : Nat) : Nat :=
  ((spKeys s.nve.conns).filter fun c =>
    let k := s.conn c
    (k.inst || k.f CI.state != connFree) && k.f CI.engine == e).length

def State.connRefuse (s : State) (c : Nat) : State := (s.nveFault 0x0C 11 0 c).connFc 0x170C

/-- OFFLOAD. -/
def State.connOffload (s : State) : State :=
  let c := s.get F.NVE_CONN_SEL_CONN
  let k := s.conn c
  let img := (List.range 16).map fun w => s.rd (R.NVE_CONN_IMG w)
  let new : NveConn := { nveConnReset c with img := hSet img CI.state connFree, inst := true }
  let new1 := { new with una := new.f CI.sndNxt, cwnd := initialWindow new.smss, ssthresh := 2 ^ 30 }
  if k.inst ∨ k.f CI.state ≠ connFree ∨ teEngField s.plan (new.f CI.engine) 8 ≤ s.connsOf (new.f CI.engine) then s.connRefuse c
  else ((s.setConn c new1).set F.NVE_CONN_STATUS_BUSY 1).connFc 0

def execNveOffload (s : State) : Res := .next s.connOffload

/-- The connection reaches UP. -/
def execNveConnectionUp (conn : Nat) (s : State) : Res :=
  let k := s.conn conn
  if !k.inst ∨ s.epHeld (teEp (k.f CI.engine)) then .next s
  else .next (((s.setConn conn { k.put CI.state connUp with inst := false }).set F.NVE_CONN_STATUS_BUSY 0).pduCheck conn).nveGo

/-- CLOSE: with `FORCE`, RST at once and a failure; else no new commands, and FIN when those sent have
completed. -/
def State.connClose (s : State) (force : Bool) : State :=
  let c := s.get F.NVE_CONN_SEL_CONN
  let k := s.conn c
  if k.f CI.state ≠ connUp ∧ k.f CI.state ≠ connClosing ∧ k.f CI.state ≠ connFailed ∧ !k.inst then s.connRefuse c
  else if k.f CI.state = connFailed then ((s.connLost c).nveGo.setConn c (nveConnReset c)).connFc 0
  else if force then
    ((s.tcpSend c (k.f CI.sndNxt) (fRst + fAck) false []).connFail c 0x05 4).connFc 0
  else ((s.setConn c { k.put CI.state connClosing with inst := false }).set F.NVE_CONN_STATUS_BUSY 1).connFc 0

def execNveClose (force : Bool) (s : State) : Res := .next (s.connClose force)

/-- The commands sent have completed: FIN, and the connection is free. -/
def execNveCloseFin (conn : Nat) (s : State) : Res :=
  let k := s.conn conn
  if k.f CI.state ≠ connClosing ∨ s.connBusy conn ∨ s.epHeld (teEp (k.f CI.engine)) then .next s
  else
    .next (((s.tcpSend conn (k.f CI.sndNxt) (fFin + fAck) false []).setConn conn (nveConnReset conn)).set F.NVE_CONN_STATUS_BUSY 0)

/-- QUERY: the live image; the engine state of words 12 to 15 is not described, and free. -/
def State.connQuery (s : State) : State :=
  let k := s.conn (s.get F.NVE_CONN_SEL_CONN)
  let s1 := (List.range 12).foldl (fun (s : State) w => s.wr (R.NVE_CONN_IMG w) (k.img.getD w 0)) s
  let s2 := (List.range 4).foldl (fun (s : State) i =>
    let (v, s1) := s.takeFree
    s1.wr (R.NVE_CONN_IMG (12 + i)) (if k.img = List.replicate 16 0 then 0 else v)) s1
  s2.connFc 0

def execNveQuery (s : State) : Res := .next s.connQuery

/-! ### Commits (R340, R354) -/

/-- GO on a namespace: 0xFE where the plan does not provide the function, the namespace or the cipher queue it names
(R21, R360), 0xFC where the function is under amendment (R55), 0x170C in the cases of R340. -/
def State.nveNsGo (s : State) : State :=
  let f := s.get F.NVE_NS_SEL_STG_FUNCTION
  let n := s.get F.NVE_NS_SEL_STG_NSID
  let new : NveNs := ⟨s.rd R.NVE_NS_TGT_STG, s.rd R.NVE_NS_BASE_STG, s.rd R.NVE_NS_SIZE_STG, s.rd R.NVE_NS_CFG_STG⟩
  let k := s.conn new.conn
  let lo := cphQSlotBase s.plan new.queue
  if !nveHas s.plan f ∨ n = 0 ∨ nveNsMax s.plan f < n ∨ (new.xts ∧ !cphQPresent s.plan new.queue) then
    s.capture uNve 0xFE (f * 2 ^ 28 + new.conn)
  else if s.underAmendment secNveAlloc 0 f then s.capture uNve 0xFC (f * 2 ^ 28 + new.conn)
  else if k.f CI.state ≠ connUp ∨ (k.f CI.ownerTd ≠ 0 ∧ k.f CI.ownerTd ≠ fnTd s.plan f) ∨
      (new.xts ∧ !(decide (lo ≤ new.slot) && decide (new.slot < lo + cphQSlotCount s.plan new.queue))) ∨
      (new.lbads ≠ 9 ∧ new.lbads ≠ 12) then
    (s.nveFault 0x0C 11 f new.conn).set F.NVE_NS_COMMIT_PENDING 0
  else
    let old := s.nveNs f n
    let s1 := (s.withNve { s.nve with ns := spSet nsReset s.nve.ns (64 * f + n) new }).commitApplied F.NVE_NS_COMMIT_PENDING F.NVE_NS_GEN_GEN
    let s2 := if old.nsze = new.nsze ∧ old.lbads = new.lbads ∧ old.ro = new.ro then s1
      else
        let c := s1.ctl f
        let s2 := s1.setCtl f { c with changed := c.changed.filter (· != n) ++ [n] }
        if (c.feat 0x0B).testBit 8 then s2.nveEvent f 2 0 0x04 else s2
    s2.nveGo

def execNveNsCommitGo (s : State) : Res := .next s.nveNsGo

/-- DRAINING is left for PROVISIONAL: the blocks remain buffered, and drain Writes not sent yet are withdrawn; a Flush, a
shutdown or the high-water mark asks for its drain anew (R353, R354). -/
def State.drainStop (s : State) (f : Nat) : State :=
  let mine := fun (j : NveJob) => j.fn == f && j.prov && j.cid.isNone
  let ids := (s.nve.jobs.filter mine).map fun (j : NveJob) => j.id
  let c := s.ctl f
  (s.setCtl f { c with blocks := c.blocks.map fun (y : NveBlock) =>
      { y with want := false, job := if (y.job.map ids.contains).getD false then none else y.job } }).setJobs
    (s.nve.jobs.filter fun (j : NveJob) => !mine j)

/-- GO on a write mode: 0xFE for a function that is no controller (R360), 0xFC for one under amendment (R55). -/
def State.nveModeGo (s : State) : State :=
  let f := s.get F.NVE_MODE_SEL_STG_FUNCTION
  let m := s.get F.NVE_MODE_STG_MODE
  if !nveHas s.plan f then s.capture uNve 0xFE (f * 2 ^ 28)
  else if s.underAmendment secNveAlloc 0 f then s.capture uNve 0xFC (f * 2 ^ 28)
  else
    let s1 := s.commitApplied F.NVE_MODE_COMMIT_PENDING F.NVE_MODE_GEN_GEN
    let c := s.ctl f
    let s2 := if m = 1 ∧ c.mode ≠ mProvisional then (s1.drainStop f).setMode f mProvisional
      else if m = 0 ∧ c.mode = mProvisional then s1.setMode f mDraining
      else s1
    s2.nveGo

def execNveModeCommitGo (s : State) : Res := .next s.nveModeGo

/-! ### Microcode limit (R318, R329) -/

/-- An event issues 65,536 words without END: of a QP, or of a connection, which is reset. The oldest context of its
engine that serves it is freed. -/
def execEventWordLimit (connection : Bool) (index : Nat) (s : State) : Res :=
  if connection then
    let k := s.conn index
    let e := k.f CI.engine
    if !s.teRuns e ∨ (k.f CI.state ≠ connUp ∧ k.f CI.state ≠ connClosing) then .next s
    else
      let s1 := ((s.seqEnd e (.conn index)).count F.TE_UC_FAULT_COUNT_COUNT).ucFault 0x1B 2 (e * 2 ^ 36 + index % 2 ^ 22)
      .next ((s1.tcpSend index (k.f CI.sndNxt) (fRst + fAck) false []).connFail index 0x05 4)
  else if !s.teRuns (s.qpEngine index) ∨ !s.qpUsed index then .next s
  else .next ((s.seqEnd (s.qpEngine index) (.qp index)).teMicrocode index .fault).teSettle

/-! ### Read hooks and other modes (R359, R360) -/

/-- `NVE_NS_VIEW_TGT` and its companions as they read, by number. -/
def State.nveNsView (s : State) (i : Nat) : Word :=
  let n := s.nveNs (s.get F.NVE_NS_VIEW_SEL_FUNCTION) (s.get F.NVE_NS_VIEW_SEL_NSID)
  if i = 0 then n.tgt else if i = 1 then n.base else if i = 2 then n.size else n.cfg

/-- `NVE_MODE_VIEW` as it reads: MiB rounded up. -/
def State.nveModeView (s : State) : Word :=
  let f := s.get F.NVE_MODE_VIEW_FUNCTION
  BitVec.ofNat 64 (((s.ctl f).used + 1048575) / 1048576 * 2 ^ 32 + f * 2 ^ 16 + (s.ctl f).mode)

/-- Every controller drains and flushes its targets (Night); its registers report no shutdown of it. -/
def State.nveNight (s : State) : State :=
  ((spKeys s.nve.ctls).foldl (fun (s : State) f =>
    s.setCtl f { s.ctl f with shut := if (s.ctl f).shut = 0 then 1 else (s.ctl f).shut }) s).nveGo

/-- Night is not entered: drains and flushes that only it asked for are over. -/
def State.nveNightOff (s : State) : State :=
  (spKeys s.nve.ctls).foldl (fun (s : State) f =>
    let c := s.ctl f
    s.setCtl f { c with shut := if c.shn then c.shut else 0 }) s

/-- Is every buffer empty and every target flushed? -/
def State.nveNightReady (s : State) : Bool :=
  ((spKeys s.nve.ctls).all fun f => (s.ctl f).blocks == [] && (s.ctl f).shut == 3) && s.nve.jobs == []

/-- Every connection is closed. -/
def State.nveCloseAll (s : State) : State :=
  (spKeys s.nve.conns).foldl (fun (s : State) c =>
    let k := s.conn c
    let s1 := if k.f CI.state = connUp ∨ k.f CI.state = connClosing then s.tcpSend c (k.f CI.sndNxt) (fFin + fAck) false [] else s
    s1.setConn c (nveConnReset c)) s

/-- A wicket opening: commands and buffers of TDs other than 0 end; controllers of TD 0 drain. -/
def State.nveWicket (s : State) : State :=
  let s1 := (s.nve.cmds.filter fun (x : NveCmd) => fnTd s.plan x.fn != 0).foldl
    (fun (s : State) (x : NveCmd) => s.nveFinish x (stInternal + stDnr) 0) s
  let fns := (spKeys s1.nve.ctls).filter (fun f => fnTd s.plan f == 0) ++
    (List.range 4096).filter fun f => nveHas s.plan f && fnTd s.plan f != 0
  let s2 := fns.foldl (fun (s : State) f =>
    let c := s.ctl f
    if fnTd s.plan f ≠ 0 then
      c.aers.foldl (fun (s : State) cid => s.nveComplete f 0 cid (stInternal + stDnr) 0)
        (s.setCtl f { c with csts := c.csts / 4 * 4 + c.csts % 2 + 2, lost := c.lost + c.used, blocks := [], hi := false, aers := [] })
    else s.setCtl f { c with drainAll := true }) s1
  (s2.setJobs ((s2.nve.jobs.filter fun (j : NveJob) => fnTd s.plan j.fn == 0 || j.cid.isSome).map fun (j : NveJob) =>
    if fnTd s.plan j.fn ≠ 0 then { j with dead := true, owner := some s2.nve.nextId } else j)).nveGo

/-- A function level reset: the controller's queues, commands and registers go; its buffered blocks stay to
drain. -/
def State.nveFunctionReset (s : State) (f : Nat) : State :=
  if !nveHas s.plan f then s
  else
    let s1 := (s.withNve { s.nve with
      cmds := s.nve.cmds.filter fun (x : NveCmd) => x.fn != f
      jobs := (s.nve.jobs.filter fun (j : NveJob) => j.fn != f || j.owner.isNone || j.cid.isSome).map fun (j : NveJob) =>
        if j.fn = f ∧ j.owner.isSome then { j with dead := true } else j })
    let c := s1.ctl f
    (s1.setCtl f { nveCtlReset f with mode := c.mode, blocks := c.blocks, lost := c.lost, drains := c.drains, hi := c.hi, drainAll := true }).nveGo

/-- A storage record that an amendment changes: what registers gave the function goes too, its namespaces, write mode and
buffered blocks (R53, Table 1-3). -/
def State.nveElementReset (s : State) (f : Nat) : State :=
  s.withNve { s.nve with
    ns := s.nve.ns.filter fun x => x.1 / 64 != f
    ctls := spErase s.nve.ctls f
    cmds := s.nve.cmds.filter fun (x : NveCmd) => x.fn != f
    jobs := (s.nve.jobs.filter fun (j : NveJob) => j.fn != f || j.cid.isSome).map fun (j : NveJob) =>
      if j.fn = f then { j with dead := true, owner := some s.nve.nextId } else j }

def nveReset : NveState := { ns := [], ctls := [], conns := [], cmds := [], jobs := [], ciphs := [], nextId := 0 }

end Sys2Proof.Machine
end

