-- ==== Sys2Proof/Machine/Sign.lean ====
section
/-! DEFINITION. Signatures and key banks (R40, R323, R510, R531, R540). -/

namespace Sys2Proof.Machine

abbrev keySite : Nat := 0
abbrev keyBoot : Nat := 1
abbrev keyDebug : Nat := 2
abbrev keyUcode : Nat := 3

/-- The active bank of a kind. -/
def State.activeBank (s : State) (kind : Nat) : Nat :=
  if kind = keySite then s.get F.WKT_BANK_STATUS_SITE
  else if kind = keyBoot then s.get F.WKT_BANK_STATUS_BOOT
  else if kind = keyDebug then s.get F.WKT_BANK_STATUS_DEBUG
  else s.get F.WKT_BANK_STATUS_UCODE

/-- The checks of a trailer of the layout of Table 2-3 over a signed message: ECDSA, ML-DSA, key IDs. -/
def State.signChecks (s : State) (kind : Nat) (trailer signed : List Byte) : Bool × Bool × Bool :=
  let ec := Config.fusedDigest kind (s.activeBank kind) false
  let pq := Config.fusedDigest kind (s.activeBank kind) true
  (Config.ecdsaVerify ec signed (bytesAt trailer 0x98 96), Config.mldsaVerify pq signed (bytesAt trailer 0xF8 4627),
   bytesAt trailer 0x38 48 == ec && bytesAt trailer 0x68 48 == pq)

/-- The lowest condition whose check fails. -/
def lowestFailing (l : List (Nat × Bool)) : Option Nat := (l.find? fun x => !x.2).map Prod.fst

/-- The reserved bytes that end a trailer are zero. -/
def trailerZero (trailer : List Byte) : Bool := (bytesAt trailer 0x130B 53).all (· == 0)

/-- Six registers that hold a SHA-384 digest, bytes 0 to 7 in the first. -/
def State.setDigest (s : State) (reg : Nat → Nat) (d : List Byte) : State :=
  (List.range 6).foldl (fun (s : State) i => s.wr (reg i) (BitVec.ofNat 64 (leAt d (8 * i) 8))) s

end Sys2Proof.Machine
end

