-- ==== Sys2Proof/Machine/TeCtrl.lean ====
section
/-! DEFINITION. Transport engines: the control page, control commands, doorbells and congestion profiles
(R281, R284 to R287, R309, R313). -/

namespace Sys2Proof.Machine

/-! ### What belongs to a function (Table 11-1) -/

def inRangeOf (base log2 i : Nat) : Bool := decide (base ≤ i) && decide (i < base + 2 ^ log2)
def fnOwnsQp (p : Plan) (f c : Nat) : Bool := inRangeOf (teFnQpBase p f) (teFnQpLog2 p f) c && decide (2 ≤ c)
def fnOwnsMr (p : Plan) (f i : Nat) : Bool := inRangeOf (teFnMrBase p f) (teFnMrLog2 p f) i
def fnOwnsCq (p : Plan) (f i : Nat) : Bool := inRangeOf (teFnCqBase p f) (teFnCqLog2 p f) i
def fnOwnsSrq (p : Plan) (f i : Nat) : Bool := inRangeOf (teFnSrqBase p f) (teFnSrqLog2 p f) i

/-- A free index of a range: the spec does not say which; the search starts at a free value. -/
def State.pickIndex (s : State) (base n : Nat) (free : Nat → Bool) : Option Nat × State :=
  let (v, s1) := s.takeFree
  (((List.range n).map fun i => base + (v.toNat + i) % n).find? free, s1)

/-! ### Doorbells and control entries in arrival order (R286, R291) -/

/-- A doorbell of a function is taken. `h` holds what the host returns for receives then taken. The event of a send
doorbell is that of each WQE it posts (R319). -/
def State.teBell (s : State) (f : Nat) (v : Word) (h : TeHost) : State :=
  let ring := bitsAt v 63 62
  let o := bitsAt v 55 32
  let i := bitsAt v 15 0
  let owned := if ring = 2 then fnOwnsSrq s.plan f o && s.srqUsed o
    else if ring = 3 then fnOwnsCq s.plan f o && s.cqUsed o
    else fnOwnsQp s.plan f o && s.qpUsed o
  if !owned then s.count F.TE_DB_DISCARD_COUNT
  else
    let sc := if ring ≤ 1 ∧ h.ctxUe then (s.teFault 0x03 2 o).teQpError o 1 else s
    let s0 := if ring = 0 then sc
      else sc.seqInternal (teFnEngine s.plan f) (if ring = 1 then .qp o else if ring = 2 then .srq o else .cq o)
    if ring = 0 then s0.setQc o QC.sqPi i
    else if ring = 1 then
      let s1 := s0.setQc o QC.rqPi i
      if s1.qc o QC.state = 6 then s1.teFlushRq o h.wqe (diff16 i (s1.qc o QC.rqCi)) else s1.mpResume o h
    else if ring = 2 then (s0.setTeSrq o { s.teSrq o with pi := i }).srqResume o h
    else s0.setTeCq o { s.teCq o with ci := i }

/-- Is the QP of a doorbell in SQE or ERROR with send requests still to be flushed (R291)? -/
def State.teFlushing (s : State) (v : Word) : Bool :=
  let o := bitsAt v 55 32
  decide (bitsAt v 63 62 ≤ 1) && s.qpUsed o && decide (5 ≤ s.qc o QC.state) && (s.teQp o).sqStart != s.qc o QC.sqPi

/-- Must a doorbell of a function wait: for a control entry posted before it, for the flush of its QP, for its engine,
for an event context (DESIGN CHOICE, log entry 137), or, where it brings receives to read, for a tag (R414)? -/
def State.teBellWaits (s : State) (f : Nat) (v : Word) : Bool :=
  let x := s.teFn f
  x.busy || (bitAt x.cfg 63 && x.ci != x.pi) || s.teFlushing v || !s.teFnRuns f || s.seqFull (teFnEngine s.plan f) ||
  (bitsAt v 63 62 == 1 || bitsAt v 63 62 == 2) && s.dmaWaits f

/-- The posts of a function that wait are taken in arrival order, as far as they may. -/
def State.tePosts (s : State) (f : Nat) : Nat → State
  | 0 => s
  | n + 1 =>
    match (s.teFn f).waiting with
    | [] => s
    | .index pi :: t => (s.setTeFn f { s.teFn f with waiting := t, pi := pi % 65536 }).tePosts f n
    | .bell v h :: t =>
      if s.teBellWaits f v then s else ((s.setTeFn f { s.teFn f with waiting := t }).teBell f v h).tePosts f n

def State.teTakePosts (s : State) (f : Nat) : State := s.tePosts f (s.teFn f).waiting.length

/-- A post joins those that wait. -/
def State.tePostLast (s : State) (f : Nat) (p : TePost) : State :=
  (s.setTeFn f { s.teFn f with waiting := (s.teFn f).waiting ++ [p] }).teTakePosts f

/-- A doorbell of a function arrives. -/
def State.teDoorbell (s : State) (f : Nat) (v : Word) (h : TeHost) : State :=
  if teFnHas s.plan f then s.fnWrite uTe f (s.tePostLast f (.bell v h)) else s

/-- The producer index of a function's control ring arrives. -/
def State.teCtrlPi (s : State) (f pi : Nat) : State := s.fnWrite uTe f (s.tePostLast f (.index pi))

/-! ### Control entries (R287) -/

abbrev csOk : Nat := 0
abbrev csInvalid : Nat := 1
abbrev csNone : Nat := 2
abbrev csNotOwned : Nat := 3
abbrev csInUse : Nat := 4

/-- The answer of a control command: status, result, state. -/
abbrev CtrlAnswer := Nat × Nat × State

/-- The entry at the consumer index completes: word 6 written, then the index advanced; a failure is
recorded; the posts that waited for it are taken. -/
def State.teCtrlDone (s : State) (f status result : Nat) : State :=
  let x := s.teFn f
  let slot := x.base.toNat + 64 * (x.ci % 2 ^ bitsAt x.cfg 3 0)
  let (_, s1) := s.dmaWrite f none true (slot + 48) (natLE 8 (status * 2 ^ 56 + result))
  let s2 := s1.setTeFn f { s1.teFn f with ci := (x.ci + 1) % 65536, busy := false }
  (if status = 0 then s2 else s2.teFnFault 0x06 5 f).teTakePosts f

/-- What a control entry concerns: the QP that MODIFY_QP, QUERY_QP or DESTROY_QP names, else the function. -/
def State.ctrlObject (s : State) (f : Nat) (b : List Byte) : UcObj :=
  if 2 ≤ leAt b 7 1 ∧ leAt b 7 1 ≤ 4 ∧ fnOwnsQp s.plan f (leAt b 0 3) ∧ s.qpUsed (leAt b 0 3) then .qp (leAt b 0 3) else .fn f

/-- A row of the control ring: the entry at the consumer index with the row's opcode, or one the engine does
not know; an event that takes a context (R315). `none` where the command does not complete at once. -/
def State.teCtrl (s : State) (f op : Nat) (h : TeHost) (act : State → List Byte → Option CtrlAnswer) : State :=
  let x := s.teFn f
  let b := bytesAt h.wqe 0 64
  let known := decide (1 ≤ leAt b 7 1) && decide (leAt b 7 1 ≤ 0x0C)
  if !s.teFnRuns f ∨ !bitAt x.cfg 63 ∨ x.ci = x.pi ∨ x.busy ∨ s.seqFull (teFnEngine s.plan f) ∨ s.dmaWaits f then s
  else if known ∧ leAt b 7 1 ≠ op ∧ h.we = .ok then s
  else
    let slot := x.base.toNat + 64 * (x.ci % 2 ^ bitsAt x.cfg 3 0)
    let (r, _, s1) := (s.seqDispatch (teFnEngine s.plan f) tblControl (leAt b 7 1) (s.ctrlObject f b)).dmaRead f none slot 64 b h.we
    if r ≠ 0 then ((s1.teFnFault 0x09 8 f).teCtrlDone f csInvalid 0).teSettle
    else if !known ∨ (bytesAt b 24 24).any (· != 0) then (s1.teCtrlDone f csInvalid 0).teSettle
    else
      match act s1 b with
      | some (st, result, s2) => (s2.teCtrlDone f st result).teSettle
      | none => s1.setTeFn f { x with busy := true }

def ceObject (b : List Byte) : Nat := leAt b 0 3
def ceArg (b : List Byte) : Nat := leAt b 8 8

/-- The image of an entry, read from the host. -/
def State.teImage (s : State) (f n : Nat) (b : List Byte) (h : TeHost) : Option (List Byte) × State :=
  let (r, d, s1) := s.dmaRead f none (leAt b 16 8) n h.data h.e
  if r = 0 then (some d, s1) else (none, s1.teFnFault 0x09 8 f)

/-- A field of an image. -/
def imF (im : List Byte) (f : ChField) : Nat := natBits (leAt im (8 * f.word) 8) f.hi f.lo

/-- Bits of image words 0 to 17 that Table 11-4 names. -/
def qpNamed : List Nat :=
  [0xFFFFFFFFF0FFFFFF, 0xFFFFFFFFFFFFFFFF, 0xFFFFFFFFFFFFFFFF, 0xFFFFFFFFFFFFF8FF, 2 ^ 64 - 1, 2 ^ 64 - 1, 2 ^ 64 - 1, 0xFFC0FFFFFFFFFFFF,
   0x80FFFFFFFFFF0000, 0xFFFFFFFFFFEFFFFF, 2 ^ 64 - 1, 2 ^ 64 - 1, 2 ^ 64 - 1, 2 ^ 64 - 1, 0xFCFFFFFFFFFFFFFF, 0xFFFFFF00FFFFFFFF,
   2 ^ 64 - 1, 0x80FF0FFFFF000000]

/-- Are the fields of a QP image in their ranges? -/
def qpImageOk (im : List Byte) : Bool :=
  ((List.range 18).all fun w => (leAt im (8 * w) 8) &&& (2 ^ 64 - 1 - qpNamed.getD w 0) == 0) &&
  decide (imF im QC.type ≤ 4) && decide (1 ≤ imF im QC.pmtu) && decide (imF im QC.pmtu ≤ 5) &&
  decide (imF im QC.retryCnt ≤ 7) && decide (imF im QC.retryLeft ≤ 7) && decide (imF im QC.rnrRetry ≤ 7) &&
  decide (imF im QC.rnrLeft ≤ 7) && decide (imF im QC.sqLog2 ≤ 16) && decide (imF im QC.rqLog2 ≤ 16) &&
  imF im QC.sqBase % 4096 == 0 && decide (imF im QC.rdAtomic ≤ 4) && decide (imF im QC.destRdAtomic ≤ 4) &&
  decide (1 ≤ imF im QC.reorderUs)

/-- Does an image name only what the function holds? -/
def State.qpImageOwned (s : State) (f : Nat) (im : List Byte) : Bool :=
  let p := s.plan
  fnOwnsCq p f (imF im QC.sqCq) && s.cqUsed (imF im QC.sqCq) && fnOwnsCq p f (imF im QC.rqCq) && s.cqUsed (imF im QC.rqCq) &&
  (imF im QC.srqEn == 0 || (fnOwnsSrq p f (imF im QC.srq) && s.srqUsed (imF im QC.srq))) &&
  treeOwns p (imF im QC.egressPort) (imF im QC.leaf / 16)

/-- A tag-matching SRQ serves RC and XRC only (R294). -/
def State.qpTmOk (s : State) (im : List Byte) : Bool :=
  imF im QC.srqEn == 0 || s.srqF (imF im QC.srq) SR.tmEn == 0 || [0, 3, 4].contains (imF im QC.type)

/-- Context words written from an image, with what the engine writes itself. -/
def State.writeQpImage (s : State) (c f qpn : Nat) (im : List Byte) (words : Nat → Bool) : State :=
  let s1 := (List.range 18).foldl (fun (s : State) w =>
    if words w then s.teSetW (qpBase c) w (BitVec.ofNat 64 (leAt im (8 * w) 8)) else s) s
  ((s1.setQc c QC.td (fnTd s.plan f)).setQc c QC.fn f).setQc c QC.localQpn qpn

/-- The contexts of a function that exist. -/
def State.fnQps (s : State) (f : Nat) : List Nat := (spKeys s.te.used).filter fun c => s.qc c QC.fn == f

def State.setQpUsed (s : State) (c : Nat) (b : Bool) : State := s.withTe { s.te with used := spSet noBool s.te.used c b }
def State.setCqUsed (s : State) (c : Nat) (b : Bool) : State := s.withTe { s.te with cqUsed := spSet noBool s.te.cqUsed c b }
def State.setSrqUsed (s : State) (c : Nat) (b : Bool) : State := s.withTe { s.te with srqUsed := spSet noBool s.te.srqUsed c b }
def State.setMpUsed (s : State) (c : Nat) (b : Bool) : State := s.withTe { s.te with mpUsed := spSet noBool s.te.mpUsed c b }

def State.createQp (s : State) (f : Nat) (b : List Byte) (h : TeHost) : CtrlAnswer :=
  let gsi := ceArg b % 2 == 1
  match s.teImage f 144 b h with
  | (none, s1) => (csInvalid, 0, s1)
  | (some im, s1) =>
    if imF im QC.state ≠ 0 ∨ !qpImageOk im ∨ 2 ≤ ceArg b ∨ !s.qpTmOk im then (csInvalid, 0, s1)
    else if !s.qpImageOwned f im then (csNotOwned, 0, s1)
    else if gsi ∧ (s.fnQps f).any (fun c => s.qc c QC.localQpn == 1) then (csNone, 0, s1)
    else
      match s1.pickIndex (teFnQpBase s.plan f) (2 ^ teFnQpLog2 s.plan f) fun c => decide (2 ≤ c) && !s.qpUsed c with
      | (none, s2) => (csNone, 0, s2)
      | (some c, s2) =>
        let s3 := (s2.putBytes (unitByteAddr s.plan uTe (qpBase c)) (List.replicate 256 0)).writeQpImage c f (if gsi then 1 else c) im
          fun _ => true
        let s4 := ((s3.setQc c QC.delivery 0).setQc c QC.mpBlock 0).setTeQp c { teQpReset c with sqStart := imF im QC.sqCi }
        let line := s4.lineMbps c
        (csOk, c, ((s4.setQc c QC.rateCur line).setQc c QC.rateTgt line).setQpUsed c true)

/-- The transitions of IBTA (R281). -/
def qpTransition (a b : Nat) : Bool :=
  b == 0 || b == 6 || [(0, 1), (1, 1), (1, 2), (2, 3), (3, 3), (3, 4), (4, 4), (4, 3), (5, 3)].contains (a, b)

/-- First multipath block of an engine. -/
def mpFirst (p : Plan) (e : Nat) : Nat := ((List.range e).map fun k => teEngField p k 12).sum

/-- The engine state of a QP is cleared: it returns to RESET. -/
def State.qpToReset (s : State) (c : Nat) : State :=
  let s1 := if s.isMp c then s.setMpUsed (s.qc c QC.mpBlock) false else s
  let s2 := (s.teQp c).rx.foldl (State.teUnexpDrop c)
    (s1.setTeStore (s.qpEngine c) (s.teStore (s.qpEngine c) - heldBytes (s.teQp c).rx))
  (((s2.setQc c QC.delivery 0).setQc c QC.mpBlock 0).setQc c QC.state 0).setTeQp c { teQpReset c with sqStart := s2.qc c QC.sqCi }

def State.modifyQp (s : State) (f : Nat) (b : List Byte) (h : TeHost) : CtrlAnswer :=
  let c := ceObject b
  let mask := ceArg b
  if !fnOwnsQp s.plan f c ∨ !s.qpUsed c then (csNotOwned, 0, s)
  else
    match s.teImage f 144 b h with
    | (none, s1) => (csInvalid, 0, s1)
    | (some im0, s1) =>
      let old := s.bytes (unitByteAddr s.plan uTe (qpBase c)) 144
      let im := (List.range 18).flatMap fun w => bytesAt (if mask.testBit w then im0 else old) (8 * w) 8
      let a := s.qc c QC.state
      let n := imF im QC.state
      let moves := mask.testBit 0
      let mp := moves && a == 1 && n == 2 && imF im0 QC.delivery == 1
      if 2 ^ 18 ≤ mask ∨ (moves ∧ !qpTransition a n) ∨ imF im QC.type ≠ s.qc c QC.type ∨ !qpImageOk im ∨ !s.qpTmOk im then
        (csInvalid, 0, s1)
      else if !s.qpImageOwned f im then (csNotOwned, 0, s1)
      else
        let mine := ((s.fnQps f).filter fun q => s.isMp q).length
        let e := s.qpEngine c
        if mp ∧ (s.qc c QC.type ≠ 0 ∨ teFnMpQps s.plan f ≤ mine) then (csNone, 0, s1)
        else
          let (blk, s2) := if mp then s1.pickIndex (mpFirst s.plan e) (teEngField s.plan e 12) fun i => !spGet noBool s.te.mpUsed i
            else (none, s1)
          if mp ∧ blk.isNone then (csNone, 0, s2.teFault 0x07 6 c)
          else
            let kept := s.qc c QC.mpBlock
            let s3 := s2.writeQpImage c f (s.qc c QC.localQpn) im fun w => mask.testBit w
            let s4 := ((s3.setQc c QC.delivery (if mp then 1 else s.qc c QC.delivery)).setQc c QC.mpBlock (blk.getD kept)).setQc c QC.state a
            let s5 := match blk with
              | some i => s4.setMpUsed i true
              | none => s4
            let s6 := if !moves then s5
              else if n = 0 then s5.qpToReset c
              else if n = 6 then s5.teQpError c 0
              else if n = 3 then ((s5.setQc c QC.state 3).teRestore c).teRdvGo c ((s5.teQp c).tx.length + 1)
              else if n = 4 then ((s5.setQc c QC.state 4).setTeQp c { s5.teQp c with drained := false }).teSettleTx c
              else s5.setQc c QC.state n
            (csOk, 0, s6)

/-- Free values for the engine words 18 to 31. -/
def State.freeBytes (s : State) : Nat → List Byte × State
  | 0 => ([], s)
  | n + 1 =>
    let (w, s1) := s.takeFree
    let (l, s2) := s1.freeBytes n
    (natLE 8 w.toNat ++ l, s2)

def State.queryQp (s : State) (f : Nat) (b : List Byte) : CtrlAnswer :=
  let c := ceObject b
  if !fnOwnsQp s.plan f c ∨ !s.qpUsed c then (csNotOwned, 0, s)
  else
    let (l, s1) := s.freeBytes 14
    let (ok, s2) := s1.dmaWrite f none false (leAt b 16 8) (s.bytes (unitByteAddr s.plan uTe (qpBase c)) 144 ++ l)
    (if ok then csOk else csInvalid, 0, s2)

def State.destroyQp (s : State) (f : Nat) (b : List Byte) : CtrlAnswer :=
  let c := ceObject b
  if !fnOwnsQp s.plan f c ∨ !s.qpUsed c then (csNotOwned, 0, s)
  else
    let s1 := s.qpToReset c
    (csOk, 0, ((s1.putBytes (unitByteAddr s.plan uTe (qpBase c)) (List.replicate 256 0)).setTeQp c (teQpReset c)).setQpUsed c false)

/-! ### SRQs and CQs -/

/-- Bits of an SRQ image that are named, words 0 to 4; the rest is zero. -/
def srqImageOk (im : List Byte) : Bool :=
  ((List.range 16).all fun w =>
    (leAt im (8 * w) 8) &&& (2 ^ 64 - 1 - [0xF80000FFFFFFFFFF - 0, 2 ^ 64 - 1, 0xF800FFFFFF000000, 0x00000000FFFFFFFF, 0x0000000000FFFFFF].getD w 0) == 0) &&
  decide (imF im SR.state ≤ 2) && decide (imF im SR.log2 ≤ 16)

/-- Tag entries that SRQs have reserved, one left out. -/
def State.tagsReserved (s : State) (but : Nat) : Nat :=
  (((spKeys s.te.srqUsed).filter (· != but)).map fun j => s.srqF j SR.postedMax + s.srqF j SR.unexpMax).sum

def State.writeSrq (s : State) (j : Nat) (im : List Byte) : State :=
  (s.putBytes (unitByteAddr s.plan uTe (srqBase j)) im).teSetF (srqBase j) SR.state (if imF im SR.state = 2 then 2 else 1)

def State.createSrq (s : State) (f : Nat) (b : List Byte) (h : TeHost) : CtrlAnswer :=
  match s.teImage f 128 b h with
  | (none, s1) => (csInvalid, 0, s1)
  | (some im, s1) =>
    if !srqImageOk im then (csInvalid, 0, s1)
    else if imF im SR.tmEn = 1 ∧ !(fnOwnsCq s.plan f (imF im SR.tagCq) && s.cqUsed (imF im SR.tagCq)) then (csNotOwned, 0, s1)
    else if 2097152 < s.tagsReserved 65536 + imF im SR.postedMax + imF im SR.unexpMax then (csNone, 0, s1)
    else
      match s1.pickIndex (teFnSrqBase s.plan f) (2 ^ teFnSrqLog2 s.plan f) fun j => !s.srqUsed j with
      | (none, s2) => (csNone, 0, s2)
      | (some j, s2) => (csOk, j, ((s2.writeSrq j im).setTeSrq j { teSrqReset j with fn := f }).setSrqUsed j true)

/-- Does an SRQ serve a QP of a type that a tag-matching SRQ does not serve (R294)? -/
def State.srqTmBarred (s : State) (f j : Nat) : Bool :=
  (s.fnQps f).any fun c => s.qc c QC.srqEn == 1 && s.qc c QC.srq == j && !([0, 3, 4].contains (s.qc c QC.type))

def State.modifySrq (s : State) (f : Nat) (b : List Byte) (h : TeHost) : CtrlAnswer :=
  let j := ceObject b
  if !fnOwnsSrq s.plan f j ∨ !s.srqUsed j then (csNotOwned, 0, s)
  else
    match s.teImage f 128 b h with
    | (none, s1) => (csInvalid, 0, s1)
    | (some im, s1) =>
      if !srqImageOk im ∨ (imF im SR.tmEn = 1 ∧ s.srqTmBarred f j) then (csInvalid, 0, s1)
      else if imF im SR.tmEn = 1 ∧ !(fnOwnsCq s.plan f (imF im SR.tagCq) && s.cqUsed (imF im SR.tagCq)) then (csNotOwned, 0, s1)
      else if 2097152 < s.tagsReserved j + imF im SR.postedMax + imF im SR.unexpMax then (csNone, 0, s1)
      else (csOk, 0, s1.writeSrq j im)

def State.destroySrq (s : State) (f : Nat) (b : List Byte) : CtrlAnswer :=
  let j := ceObject b
  if !fnOwnsSrq s.plan f j ∨ !s.srqUsed j then (csNotOwned, 0, s)
  else if (s.fnQps f).any (fun c => s.qc c QC.srqEn == 1 && s.qc c QC.srq == j) then (csInUse, 0, s)
  else (csOk, 0, ((s.putBytes (unitByteAddr s.plan uTe (srqBase j)) (List.replicate 128 0)).setTeSrq j (teSrqReset j)).setSrqUsed j false)

def cqImageOk (im : List Byte) : Bool :=
  ((List.range 8).all fun w =>
    (leAt im (8 * w) 8) &&& (2 ^ 64 - 1 - [0x0F800000000007FF, 2 ^ 64 - 1, 0x00000000FFFFFFFF, 0xC0000000FFFFFFFF].getD w 0) == 0) &&
  decide (1 ≤ imF im CQ.log2) && decide (imF im CQ.log2 ≤ 16)

def State.createCq (s : State) (f : Nat) (b : List Byte) (h : TeHost) : CtrlAnswer :=
  match s.teImage f 64 b h with
  | (none, s1) => (csInvalid, 0, s1)
  | (some im, s1) =>
    if !cqImageOk im ∨ fnMsixSize s.plan f ≤ imF im CQ.vector then (csInvalid, 0, s1)
    else
      match s1.pickIndex (teFnCqBase s.plan f) (2 ^ teFnCqLog2 s.plan f) fun j => !s.cqUsed j with
      | (none, s2) => (csNone, 0, s2)
      | (some j, s2) =>
        (csOk, j, (((s2.putBytes (unitByteAddr s.plan uTe (cqBase j)) im).teSetF (cqBase j) CQ.count 0).setTeCq j
          { teCqReset j with fn := f }).setCqUsed j true)

def State.destroyCq (s : State) (f : Nat) (b : List Byte) : CtrlAnswer :=
  let j := ceObject b
  if !fnOwnsCq s.plan f j ∨ !s.cqUsed j then (csNotOwned, 0, s)
  else if (s.fnQps f).any (fun c => s.qc c QC.sqCq == j || s.qc c QC.rqCq == j) ||
      (spKeys s.te.srqUsed).any (fun q => s.srqF q SR.tmEn == 1 && s.srqF q SR.tagCq == j) then (csInUse, 0, s)
  else (csOk, 0, ((s.putBytes (unitByteAddr s.plan uTe (cqBase j)) (List.replicate 64 0)).setTeCq j (teCqReset j)).setCqUsed j false)

/-! ### Memory regions and windows (R284, R285) -/

/-- Is a region index free: no valid key, no window reserved, no invalidation in progress? -/
def State.mrFree (s : State) (i : Nat) : Bool :=
  s.mr i MR.valid == 0 && !spGet noBool s.te.windows i && !(s.te.invs.any fun (x : TeInv) => x.index == i)

/-- The free index of a function that was freed longest ago; those never used come first, in an order the
spec leaves open. -/
def State.allocMr (s : State) (f : Nat) : Option Nat × State :=
  let (v, s1) := s.pickIndex (teFnMrBase s.plan f) (2 ^ teFnMrLog2 s.plan f) fun i => s.mrFree i && !s.te.freed.contains i
  let pick := match v with
    | some i => some i
    | none => s.te.freed.find? fun i => fnOwnsMr s.plan f i && s.mrFree i
  match pick with
  | some i => (some i, (s1.withTe { s1.te with freed := s1.te.freed.filter (· != i) }))
  | none => (none, s1)

def mrImageOk (im : List Byte) : Bool :=
  ((List.range 8).all fun w =>
    (leAt im (8 * w) 8) &&& (2 ^ 64 - 1 - [0xFFFFFFFFFFFFFF80, 0xFFFFFFFF80FFFFFF, 2 ^ 64 - 1, 2 ^ 64 - 1, 2 ^ 64 - 1].getD w 0) == 0) &&
  imF im MR.kind == 0 && decide (imF im MR.access < 32) && decide (imF im MR.length ≤ 2 ^ 63) && imF im MR.boundQp == 0

def State.regMr (s : State) (f : Nat) (b : List Byte) (h : TeHost) : CtrlAnswer :=
  match s.teImage f 64 b h with
  | (none, s1) => (csInvalid, 0, s1)
  | (some im, s1) =>
    if !mrImageOk im then (csInvalid, 0, s1)
    else if imF im MR.loc = 1 ∧ !tdOwnsRange s.plan (fnTd s.plan f) (imF im MR.iova) (imF im MR.length) then (csNotOwned, 0, s1)
    else
      match s1.allocMr f with
      | (none, s2) => (csNone, 0, s2)
      | (some i, s2) =>
        let gen := s.mr i MR.gen
        let s3 := s2.putBytes (unitByteAddr s.plan uTe (mrBase i)) im
        let s4 := [(MR.valid, 1), (MR.gen, gen), (MR.td, fnTd s.plan f), (MR.fn, f)].foldl
          (fun (s : State) x => s.setMr i x.1 x.2) s3
        (csOk, i * 256 + gen, s4)

/-- DEREG_MR: the invalidation starts; the entry completes with it. -/
def State.deregMr (s : State) (f : Nat) (b : List Byte) : Option CtrlAnswer :=
  let key := ceArg b
  let i := key / 256
  let window := spGet noBool s.te.windows i
  if 2 ^ 32 ≤ key ∨ !fnOwnsMr s.plan f i then some (csNotOwned, 0, s)
  else if (s.mr i MR.valid = 0 ∧ !window) ∨ s.mr i MR.gen ≠ key % 256 then some (csInvalid, 0, s)
  else if !window ∧ (spKeys s.te.windows).any (fun w => s.mr w MR.valid == 1 && s.mr w MR.parent == i) then some (csInUse, 0, s)
  else none

def State.allocMw (s : State) (f : Nat) (b : List Byte) : CtrlAnswer :=
  if 2 ^ 24 ≤ ceArg b then (csInvalid, 0, s)
  else
    match s.allocMr f with
    | (none, s1) => (csNone, 0, s1)
    | (some i, s1) =>
      let gen := s.mr i MR.gen
      let s2 := s1.putBytes (unitByteAddr s.plan uTe (mrBase i)) (List.replicate 64 0)
      let s3 := [(MR.kind, 1), (MR.gen, gen), (MR.td, fnTd s.plan f), (MR.pd, ceArg b), (MR.fn, f)].foldl
        (fun (s : State) x => s.setMr i x.1 x.2) s2
      (csOk, i * 256 + gen, (s3.withTe { s3.te with windows := spSet noBool s3.te.windows i true }))

def execTeCreateQp (fn : Nat) (h : TeHost) (s : State) : Res := .next (s.teCtrl fn 0x01 h fun s b => some (s.createQp fn b h))
def execTeModifyQp (fn : Nat) (h : TeHost) (s : State) : Res := .next (s.teCtrl fn 0x02 h fun s b => some (s.modifyQp fn b h))
def execTeQueryQp (fn : Nat) (h : TeHost) (s : State) : Res := .next (s.teCtrl fn 0x03 h fun s b => some (s.queryQp fn b))
def execTeDestroyQp (fn : Nat) (h : TeHost) (s : State) : Res := .next (s.teCtrl fn 0x04 h fun s b => some (s.destroyQp fn b))
def execTeCreateSrq (fn : Nat) (h : TeHost) (s : State) : Res := .next (s.teCtrl fn 0x05 h fun s b => some (s.createSrq fn b h))
def execTeModifySrq (fn : Nat) (h : TeHost) (s : State) : Res := .next (s.teCtrl fn 0x06 h fun s b => some (s.modifySrq fn b h))
def execTeDestroySrq (fn : Nat) (h : TeHost) (s : State) : Res := .next (s.teCtrl fn 0x07 h fun s b => some (s.destroySrq fn b))
def execTeCreateCq (fn : Nat) (h : TeHost) (s : State) : Res := .next (s.teCtrl fn 0x08 h fun s b => some (s.createCq fn b h))
def execTeDestroyCq (fn : Nat) (h : TeHost) (s : State) : Res := .next (s.teCtrl fn 0x09 h fun s b => some (s.destroyCq fn b))
def execTeRegMr (fn : Nat) (h : TeHost) (s : State) : Res := .next (s.teCtrl fn 0x0A h fun s b => some (s.regMr fn b h))
def execTeAllocMw (fn : Nat) (h : TeHost) (s : State) : Res := .next (s.teCtrl fn 0x0C h fun s b => some (s.allocMw fn b))

/-- DEREG_MR: refused at once, or its invalidation starts. -/
def execTeDeregMr (fn : Nat) (h : TeHost) (s : State) : Res :=
  let i := ceArg (bytesAt h.wqe 0 64) / 256
  let s1 := s.teCtrl fn 0x0B h fun s b => s.deregMr fn b
  .next (if (s1.teFn fn).busy ∧ !(s.teFn fn).busy then
      s1.withTe { s1.te with invs := s1.te.invs ++ [(⟨i, none, fn⟩ : TeInv)] }
    else s1)

/-! ### Send rows (Table 11-9) -/

/-- A row of the send queue; the doorbells that waited for a flush are taken after it (R291). -/
def State.teSqRow (s : State) (qp op : Nat) (h : TeHost) (act : State → List Byte → State) : Res :=
  .next ((s.teSq qp op h act).teTakePosts (s.qc qp QC.fn)).teEnd

def execTeSend (qp : Nat) (h : TeHost) (s : State) : Res := s.teSqRow qp 1 h fun s b => s.teMessage qp b h
def execTeSendImm (qp : Nat) (h : TeHost) (s : State) : Res := s.teSqRow qp 2 h fun s b => s.teMessage qp b h
def execTeSendInv (qp : Nat) (h : TeHost) (s : State) : Res := s.teSqRow qp 3 h fun s b => s.teMessage qp b h
def execTeWrite (qp : Nat) (h : TeHost) (s : State) : Res := s.teSqRow qp 4 h fun s b => s.teMessage qp b h
def execTeWriteImm (qp : Nat) (h : TeHost) (s : State) : Res := s.teSqRow qp 5 h fun s b => s.teMessage qp b h
def execTeRead (qp : Nat) (h : TeHost) (s : State) : Res := s.teSqRow qp 6 h fun s b => s.teFetch qp b h
def execTeAtomicCas (qp : Nat) (h : TeHost) (s : State) : Res := s.teSqRow qp 7 h fun s b => s.teFetch qp b h
def execTeAtomicFaa (qp : Nat) (h : TeHost) (s : State) : Res := s.teSqRow qp 8 h fun s b => s.teFetch qp b h
def execTeLocalInv (qp : Nat) (h : TeHost) (s : State) : Res := s.teSqRow qp 0x10 h fun s b => s.teLocalInv qp b
def execTeBindMw (qp : Nat) (h : TeHost) (s : State) : Res := s.teSqRow qp 0x11 h fun s b => s.teBind qp b h
def execTeWqeWait (qp : Nat) (h : TeHost) (s : State) : Res := s.teSqRow qp 0x20 h fun s b => s.teWait qp b
def execTeWqeNop (qp : Nat) (h : TeHost) (s : State) : Res := s.teSqRow qp 0x21 h fun s b => s.teLocalTx qp b 0 false

/-- The `index`-th invalidation in progress completes, with the work request or entry that asked for it. -/
def execInvalidationComplete (index : Nat) (s : State) : Res :=
  match s.te.invs[index]? with
  | none => .next s
  | some x =>
    if s.keyPlacements x.index ∨ !s.teFnRuns x.fn then .next s
    else
      let s1 : State := s.withTe { s.te with invs := s.te.invs.eraseIdx index }
      match x.qp with
      | some c =>
        let q := s1.teQp c
        let tx := match q.tx.find? fun (t : TeTx) => t.op == 0x10 && t.status.isNone with
          | some t => q.tx.map fun (y : TeTx) => if y.id = t.id then { y with status := some 0 } else y
          | none => q.tx
        .next ((((s1.teInvalidate x.index).setTeQp c { q with holding := false, tx := tx }).teSettleTx c).teEnd)
      | none =>
        let s2 : State := s1.withTe { s1.te with windows := spSet noBool s1.te.windows x.index false }
        .next ((s2.teInvalidate x.index).teCtrlDone x.fn 0 0).teEnd

/-! ### The control page (R286) -/

def execTeFnCtrlPiWrite (fn pi : Nat) (s : State) : Res := .next (if teFnHas s.plan fn then s.teCtrlPi fn pi else s)

def execTeFnDoorbell (fn : Nat) (value : Word) (h : TeHost) (s : State) : Res := .next (s.teDoorbell fn value h).teSettle

/-- A read of the control page; undefined offsets read as zero. -/
def State.tePageRead (s : State) (f off : Nat) : Word :=
  let x := s.teFn f
  if off = 0x000 then x.base
  else if off = 0x008 then x.cfg
  else if off = 0x018 then BitVec.ofNat 64 x.ci
  else if off = 0x020 then x.eventCq
  else 0

/-- A write to the control page. -/
def State.tePageWrite (s : State) (f off : Nat) (v : Word) (h : TeHost) : State :=
  let x := s.teFn f
  if off = 0x000 then
    if v.toNat % 4096 = 0 then s.fnWrite uTe f (s.setTeFn f { x with base := v }) else s.common uTe 0xFF
  else if off = 0x008 then
    if 4 ≤ bitsAt v 3 0 ∧ bitsAt v 3 0 ≤ 12 then
      s.fnWrite uTe f ((s.setTeFn f { x with cfg := v &&& BitVec.ofNat 64 (2 ^ 63 + 15) }).teTakePosts f)
    else s.common uTe 0xFF
  else if off = 0x010 then s.teCtrlPi f (bitsAt v 15 0)
  else if off = 0x020 then s.fnWrite uTe f (s.setTeFn f { x with eventCq := v &&& BitVec.ofNat 64 (2 ^ 63 + 0xFFFFFF) })
  else if off = 0x040 then (s.teDoorbell f v h).teSettle
  else s

/-! ### Registers (R309, R313) -/

/-- `TE_QP_FORCE` written. -/
def State.teQpForce (s : State) : State :=
  let c := s.get F.TE_QP_SEL_QP
  if s.qpUsed c then (s.teQpError c 1).teSettle else s

/-- Does an amendment hold the queue pair that `TE_QP_SEL` names: its engine's record or its function (R55)? -/
def State.qpAmended (s : State) (c : Nat) : Bool :=
  s.underAmendment secTeAlloc 0 (s.qpEngine c) || (s.qpUsed c && s.fnAmended (s.qc c QC.fn))

def execTeQpForce (s : State) : Res :=
  let c := s.get F.TE_QP_SEL_QP
  .next (if (teCtxEngine s.plan c).isNone then s.common uTe 0xFE
    else if s.qpAmended c then s.common uTe 0xFC
    else s.teQpForce)

/-- GO on the congestion profile: refused outside its ranges, else in force at each QP's next update. -/
def State.ccGo (s : State) : State :=
  let rate := s.rd R.TE_CC_RATE_STG
  let timer := s.rd R.TE_CC_TIMER_STG
  let bytes := s.rd R.TE_CC_BYTES_STG
  let mbps := fun (n : Nat) => decide (1 ≤ n) && decide (n ≤ 800000)
  if mbps (bitsAt rate 63 32) && mbps (bitsAt rate 31 0) && decide (1 ≤ bitsAt timer 47 32) && decide (1 ≤ bitsAt timer 31 16) &&
      decide (1 ≤ bitsAt bytes 31 0) && decide (bitsAt bytes 31 0 ≤ 4194304) then
    ((s.withTe { s.te with
        profiles := spSet profileReset s.te.profiles (s.get F.TE_CC_SEL_STG_PROFILE) (rate, timer, bytes) })).commitApplied
      F.TE_CC_COMMIT_PENDING F.TE_CC_GEN_GEN
  else s.fault uTe 0x0B 9 0

def execTeCcCommitGo (s : State) : Res := .next s.ccGo

/-- `TE_ENG_STATE` as it reads: contexts in use, multipath blocks free, reorder store in use. -/
def State.teEngState (s : State) (e : Nat) : Word :=
  let used := ((spKeys s.te.used).filter fun c => teCtxEngine s.plan c == some e).length
  let b := mpFirst s.plan e
  let mp := ((spKeys s.te.mpUsed).filter fun i => decide (b ≤ i) && decide (i < b + teEngField s.plan e 12)).length
  BitVec.ofNat 64 (used * 2 ^ 40 + (teEngField s.plan e 12 - mp) * 2 ^ 20 + (s.teStore e + 1023) / 1024 % 65536)

/-- The time part of the moderation of CQs: an interrupt once `modUs` has passed since the first pending
entry; none while the engine stands in Hold (R312). -/
def State.teCqTick (s : State) : State :=
  (spKeys s.te.cqs).foldl (fun (s : State) j =>
    let q := s.teCq j
    if 0 < q.pend ∧ s.cqF j CQ.modUs ≠ 0 ∧ s.teFnRuns q.fn ∧ q.since + s.cqF j CQ.modUs * 1000 * nsUnit ≤ s.clk.elapsed then
      (s.setTeCq j { q with pend := 0 }).raiseMsix q.fn (s.cqF j CQ.vector)
    else s) s

/-! ### Function level reset and wicket opening (R312, R385) -/

/-- A function is reset: its QPs, queues and keys are gone. -/
def State.teFunctionReset (s : State) (f : Nat) : State :=
  if !teFnHas s.plan f then s
  else
    let s1 := (s.fnQps f).foldl (fun (s : State) c =>
      (((s.qpToReset c).putBytes (unitByteAddr s.plan uTe (qpBase c)) (List.replicate 256 0)).setTeQp c (teQpReset c)).setQpUsed c false) s
    let s2 := ((spKeys s1.te.cqUsed).filter fun j => (s1.teCq j).fn == f).foldl (fun (s : State) j =>
      ((s.putBytes (unitByteAddr s.plan uTe (cqBase j)) (List.replicate 64 0)).setTeCq j (teCqReset j)).setCqUsed j false) s1
    let s3 := ((spKeys s2.te.srqUsed).filter fun j => (s2.teSrq j).fn == f).foldl (fun (s : State) j =>
      ((s.putBytes (unitByteAddr s.plan uTe (srqBase j)) (List.replicate 128 0)).setTeSrq j (teSrqReset j)).setSrqUsed j false) s2
    s3.setTeFn f (teFnReset f)

/-- A wicket opening: every QP of a TD other than 0 enters ERROR; the region entries of those TDs are
cleared. Entries are found through the functions that own them. -/
def State.teWicket (s : State) : State :=
  let s1 := ((spKeys s.te.used).filter fun c => s.qc c QC.td != 0).foldl (fun (s : State) c => s.teQpError c 0) s
  let base := unitByteAddr s.plan uTe (mrBase 0)
  let idx := (s1.mem.filterMap fun x =>
    if base ≤ x.1 ∧ x.1 < base + 64 * 2 ^ 24 then some ((x.1 - base) / 64) else none).eraseDups
  ((idx.filter fun i => s1.mr i MR.td != 0).foldl (fun (s : State) i =>
    let s2 := s.putBytes (unitByteAddr s.plan uTe (mrBase i)) (List.replicate 64 0)
    (s2.withTe { s2.te with windows := spSet noBool s2.te.windows i false, freed := s2.te.freed.filter (· != i) })) s1).teSettle

end Sys2Proof.Machine
end

