-- ==== Sys2Proof/Machine/TeUc.lean ====
section
/-! DEFINITION. Transport engine microcode: patch sets and the control store (12_transport_microcode.md). -/

namespace Sys2Proof.Machine

abbrev ucOpen : Nat := 0
abbrev ucLoading : Nat := 1
abbrev ucSealed : Nat := 2

/-- A command that the state does not allow (R326). -/
def State.ucRefuse (s : State) : State := s.ucFault 0x19 1 0

/-- LOAD written to `TE_UC_CMD`: the set copied is the one that the source registers name now (R324). -/
def State.ucLoad (s : State) (host : Bool) : State :=
  if s.ready ∨ s.get F.TE_UC_STATUS_STATE ≠ ucOpen then s.ucRefuse
  else (s.set F.TE_UC_STATUS_STATE ucLoading).withTe
    { s.te with ucHost := host, ucSrc := (s.get F.TE_UC_SRC_ADDR_ADDR, s.get F.TE_UC_SRC_LEN_LEN) }

def execTeUcLoad (host : Bool) (s : State) : Res := .next (s.ucLoad host)

/-- May a control-store address be named with `n` patch words loaded (R322)? -/
def ucAddrOk (n a : Nat) : Bool := decide (a < 0x3000) || (decide (0x3000 ≤ a) && decide (a < 0x3000 + n))

/-- Is a microword well formed: reserved bits zero, and a target its mode uses in range? -/
def ucWordOk (n w : Nat) : Bool :=
  let seq := w / 2 ^ 124 % 16
  let next := w / 2 ^ 110 % 2 ^ 14
  natBits w 102 102 == 0 && natBits w 99 96 == 0 &&
  (!([1, 2, 4, 6].contains seq) || ucAddrOk n next)

/-- The patch words, match records, and dispatch records of a plaintext body. -/
def ucWords (d : List Byte) (n : Nat) : List Nat := (List.range n).map fun i => leAt d (16 * i) 16
def ucMatches (d : List Byte) (n m : Nat) : List Nat := (List.range m).map fun i => leAt d (16 * n + 4 * i) 4
def ucDispatch (d : List Byte) (n m k : Nat) : List Nat := (List.range k).map fun i => leAt d (16 * n + 4 * m + 4 * i) 4

/-- The content rules of R322 and R320. -/
def ucBodyOk (d : List Byte) (n m k : Nat) : Bool :=
  let ms := ucMatches d n m
  let used := 16 * n + 4 * m + 4 * k
  (ucWords d n).all (ucWordOk n) &&
  ms.all (fun r => r / 2 ^ 30 == 0 && natBits r 15 14 == 0 && decide (0x3000 ≤ natBits r 29 16) && ucAddrOk n (natBits r 29 16) &&
    decide (r % 2 ^ 14 < 0x3000)) &&
  (ms.map (· % 2 ^ 14)).eraseDups.length == ms.length &&
  (ucDispatch d n m k).all (fun r => r / 2 ^ 26 == 0 && natBits r 15 14 == 0 && ucAddrOk n (r % 2 ^ 14)) &&
  (d.drop used).all (· == 0)

/-- The checks of a patch set, in the order of their codes (R324, R332); the plaintext where it opens. -/
def State.ucChecks (s : State) (c : List Byte) (len : Nat) : List (Nat × Bool) × List Byte :=
  let body := leAt c 0x1C 4
  let n := leAt c 0x20 2
  let m := leAt c 0x22 1
  let k := leAt c 0x23 1
  let total := leAt c 0x24 4
  let t := bytesAt c (256 + body) 4928
  let ct := bytesAt c 256 body
  let (ec, pq, id) := s.signChecks keyUcode t (bytesAt c 0 256 ++ bytesAt t 0 0x98)
  let plain := aeadOpen 2 Config.patchKey (bytesAt c 0x28 12) (bytesAt c 0 256) ct (bytesAt c 0x40 16)
  let zero := (bytesAt c 0x0D 3 ++ bytesAt c 0x34 12 ++ bytesAt c 0x50 176).all (· == 0)
  ([(0x10, bytesAt c 0 8 == ascii "OWUCPT01" && bytesAt t 0 8 == ascii "OWUCSG01" && leAt c 0x08 2 == 1 && zero && trailerZero t),
    (0x11, leAt c 0x0A 2 == 0x5120 && leAt c 0x0C 1 == 0xB1 && leAt c 0x10 4 == s.get F.TE_UC_VERSION_ROM_ID),
    (0x12, total == len && total == 256 + body + 4928 && body % 64 == 0 && decide (64 ≤ body) && decide (body ≤ 17536) &&
      decide (n ≤ 1024) && decide (m ≤ 32) && decide (k ≤ 255) && decide (16 * n + 4 * m + 4 * k ≤ body)),
    (0x13, ec), (0x14, pq), (0x15, id),
    (0x16, bytesAt t 8 48 == Config.sha384 ct && plain.isSome),
    (0x17, decide (s.get F.TE_UC_ARB_FLOOR_FLOOR ≤ leAt c 0x18 4)),
    (0x18, ucBodyOk (plain.getD []) n m k)], plain.getD [])

/-- No patch in force. -/
def State.ucClear (s : State) : State :=
  let s1 := s.sets [(F.TE_UC_STATUS_PATCH_WORDS, 0), (F.TE_UC_STATUS_MATCH_COUNT, 0), (F.TE_UC_STATUS_DISP_COUNT, 0),
    (F.TE_UC_STATUS_PATCHED, 0), (F.TE_UC_VERSION_PATCH_VER, 0), (F.TE_UC_ARB_ARB, 0)]
  (s1.setDigest R.TE_UC_MEAS []).withTe { s1.te with patch := [], upsets := s1.te.upsets.filter fun x => decide (x.1 % 16384 < 0x3000) }

/-- A LOAD that fails (R324). -/
def State.ucFail (s : State) (cond : Nat) : State :=
  ((s.ucClear.set F.TE_UC_STATUS_RESULT (uTe * 256 + cond)).set F.TE_UC_STATUS_STATE ucOpen).ucFault cond 0 0

/-- The end of a LOAD: all engines written, or the patch cleared. -/
def execTeUcLoadEnd (hostBytes : List Byte) (x : SrcRead) (s : State) : Res :=
  if s.get F.TE_UC_STATUS_STATE ≠ ucLoading ∨ s.operatorWaits s.te.ucHost then .next s
  else
    let len := s.te.ucSrc.2
    match s.operatorRead s.te.ucSrc.1 len s.te.ucHost hostBytes x with
    | (none, s1) => .next (s1.ucFail 0x1A)
    | (some c, s1) =>
      let (checks, d) := s1.ucChecks c len
      match lowestFailing checks with
      | some cond => .next (s1.ucFail cond)
      | none =>
        let n := leAt c 0x20 2
        let m := leAt c 0x22 1
        let k := leAt c 0x23 1
        let s2 := s1.sets [(F.TE_UC_STATUS_PATCH_WORDS, n), (F.TE_UC_STATUS_MATCH_COUNT, m), (F.TE_UC_STATUS_DISP_COUNT, k),
          (F.TE_UC_STATUS_PATCHED, 1), (F.TE_UC_VERSION_PATCH_VER, leAt c 0x14 4), (F.TE_UC_ARB_ARB, leAt c 0x18 4),
          (F.TE_UC_STATUS_RESULT, 0), (F.TE_UC_STATUS_STATE, ucOpen)]
        let s3 := s2.setDigest R.TE_UC_MEAS (Config.sha384 c)
        .next (s3.withTe { s3.te with patch := d, upsets := s3.te.upsets.filter fun x => decide (x.1 % 16384 < 0x3000) })

/-- SEAL (R325, R326). -/
def State.ucSeal (s : State) : State :=
  if s.ready ∨ s.get F.TE_UC_STATUS_STATE = ucLoading then s.ucRefuse
  else s.set F.TE_UC_STATUS_STATE ucSealed

def execTeUcSeal (s : State) : Res := .next s.ucSeal

end Sys2Proof.Machine
end

