-- ==== Sys2Proof/Machine/PcieOps.lean ====
section
/-! DEFINITION. The PCIe endpoint's shared operations: TDIs, resets of functions and links, configuration
space as the host sees it, the expansion ROM, and the address-translation windows (R391 to R422). -/

namespace Sys2Proof.Machine

/-! ### Bring-up (R405, R406) -/

/-- Is the device's bring-up refusal in force: before READY, and from Night entry on? -/
def State.refusing (s : State) : Bool := s.phase != phReady || s.pwr.night != 0

/-- Is a function PF a of its port? -/
def isPfA (f : Nat) : Bool := f == 0 || f == 2048

/-- Does function `f` present the boot window (R406)? -/
def State.bootWindow (s : State) (f : Nat) : Bool := s.phase == phHostWait && isPfA f

def State.strap (s : State) (port : Nat) : Nat := s.get (F.HIF_PORT_STATUS_BIF port)

/-- Status byte of a link: UP, FLIT, rate, width (Table 15-19). -/
def linkFld (port link : Nat) : Fld := ⟨R.HIF_PORT_STATUS port, 8 * link + 7, 8 * link⟩
def State.linkByte (s : State) (port link : Nat) : Nat := s.get (linkFld port link)

/-- Links that a strap lays out (Table 15-1); links 2 and 3 stay in Detect.Quiet. -/
def linkCount (strap : Nat) : Nat := if strap = 0 then 1 else 2

/-- The PFs on a link, lowest first. -/
def linkPfs (strap port link : Nat) : List Nat :=
  if strap = 0 then (if link = 0 then [2 * port, 2 * port + 1] else [])
  else if link < 2 then [2 * port + link] else []

/-- Has the host numbered the function: a present PF, or a VF of a PF with VF Enable set (R393)? -/
def State.fnThere (s : State) (f : Nat) : Bool :=
  fnPresent s.plan f &&
  (!fnIsVf f || (s.cfg (f / 1024 * 1024) 0x338).testBit 0 && decide (f % 1024 ≤ s.cfg (f / 1024 * 1024) 0x340 % 2 ^ 16))

/-- Does the function take memory requests: Memory Space Enable set, of a VF that of its PF, and not in D3hot? -/
def State.memEnabled (s : State) (f : Nat) : Bool :=
  s.cfg f 0x44 % 4 != 3 &&
  (if fnIsVf f then (s.cfg (f / 1024 * 1024) 0x338).testBit 3 else (s.cfg f 0x04).testBit 1)

/-! ### Resets (R385, R417) -/

/-- The tables of MSI-X back at reset: all masked, none pending. -/
def State.msixReset (s : State) (f : Nat) : State :=
  (s.withPcie { s.pcie with
      msix := s.pcie.msix.filter fun x => x.1 / 4096 != f
      pba := s.pcie.pba.filter fun x => x.1 / 2048 != f })

/-- Configuration space back at reset values; a function level reset keeps the sticky registers of AER. -/
def State.cfgClear (s : State) (f : Nat) (keepSticky : Bool) : State :=
  (s.withPcie { s.pcie with
      cfg := s.pcie.cfg.filter fun x =>
        x.1 / 1024 != f || keepSticky && decide (0x41 ≤ x.1 % 1024) && decide (x.1 % 1024 ≤ 0x57) })

/-- The units' part of a function level reset, with the TDI's event. -/
def State.fnUnitsReset (s : State) (f : Nat) : State :=
  (((s.tdiError f).hifFnReset f).teFunctionReset f).nveFunctionReset f

/-- One function reset: queues, contexts, controllers, MSI-X and configuration. -/
def State.oneFnReset (s : State) (keepSticky : Bool) (f : Nat) : State :=
  (((s.fnUnitsReset f).msixReset f).atsClear f).cfgClear f keepSticky

/-- The VFs of a PF that are enabled. -/
def State.activeVfs (s : State) (pf : Nat) : List Nat :=
  if (s.cfg (1024 * pf) 0x338).testBit 0 then
    (List.range (min (s.cfg (1024 * pf) 0x340 % 2 ^ 16) (pfTotalVfs s.plan pf))).map fun i => 1024 * pf + i + 1
  else []

/-- A function level reset; one of a PF also ends its VFs. -/
def State.fnReset (s : State) (f : Nat) : State :=
  ((if fnIsVf f then [] else s.activeVfs (f / 1024)) ++ [f]).foldl (State.oneFnReset · true) s

/-- VF Enable of a PF cleared: its VFs are reset. -/
def State.vfsReset (s : State) (pf : Nat) : State := (s.activeVfs pf).foldl (State.oneFnReset · false) s

/-- What arrives at a function is handled; in Hold it is kept, and handled after recovery (R425). -/
def State.onTlp (s : State) (i : Tlp) (act : Res) : Res :=
  if s.epHeld (hifEp i.fn) then .next (s.withPcie { s.pcie with held := s.pcie.held ++ [i] }) else act

/-- A link goes down or is reset: requests fail, their tags are quarantined, functions are reset (R417). -/
def State.linkDownEvent (s : State) (port link : Nat) : State :=
  let pfs := linkPfs (s.strap port) port link
  let mine := fun (r : HostReq) => r.port == port && pfs.contains (r.fn / 1024)
  let tags := (s.pcie.reqs.filter mine).map fun (r : HostReq) => (port, r.tag)
  let s1 := (s.withPcie { s.pcie with
      reqs := s.pcie.reqs.filter fun (r : HostReq) => !mine r
      l1 := spErase s.pcie.l1 (4 * port + link)
      ltr := spErase s.pcie.ltr (4 * port + link)
      held := s.pcie.held.filter fun i => !pfs.contains (i.fn / 1024)
      toSend := s.pcie.toSend.filter fun x => !pfs.contains (x.1 / 1024)
      ide := s.pcie.ide.filter fun x => x.1 / 16 != 4 * port + link
      ideKeys := s.pcie.ideKeys.filter fun x => x.1 / 1024 != 4 * port + link })
  let s2 := s1.setQuarantine (s1.pcie.quarantine ++ tags)
  let s3 := pfs.foldl (fun (s : State) pf =>
    (s.activeVfs pf ++ [1024 * pf]).foldl (State.oneFnReset · false) s) s2
  let s4 := (s3.withWkt { s3.wkt with
      conns := s3.wkt.conns.filter fun x => !pfs.contains x.1
      sessions := s3.wkt.sessions.filter fun (x : SpdmSession) => !pfs.contains x.pf })
  ((s4.set (linkFld port link) 0).count (F.HIF_PORT_LINK_DOWN_COUNT port)).hifFault 0x0B (1024 * pfs.headD (2 * port)) 0

/-! ### Configuration space as it reads (R396 to R398, R406) -/

/-- Registers of the DVSEC that follow the device (Table 15-6, Table 19-7). -/
def State.dvsecRead (s : State) (f o : Nat) : Nat :=
  let vf := fnIsVf f
  if o = 0x40C then
    s.get F.SITE_GEN_GEN % 2 ^ 16 * 2 ^ 16 + (if s.isOpen then 2 else 0) + (if s.refusing then 0 else 1)
  else if o = 0x410 then if vf then 0 else 0xE0000
  else if o = 0x414 then if vf then 0 else 64 + 64 * (1 + pfTotalVfs s.plan (f / 1024))
  else if o = 0x418 then fnTd s.plan f * 2 ^ 16 + f
  else if 0x440 ≤ o ∧ o < 0x480 then leAt (drtRecord s.plan f) (o - 0x440) 4
  else if s.bootWindow f then
    if o = 0x41C then s.pcie.bwResult * 2 ^ 16 + s.phase * 2 ^ 8 + s.pcie.bwAttempts
    else if o = 0x420 then spGet (fun _ => 0) s.pcie.bwLen (fnPort f)
    else 0
  else 0

/-- Link Control with Link Status: speed and width of the link, for a PF. -/
def State.linkStatus (s : State) (f : Nat) : Nat :=
  let b := s.linkByte (fnPort f) (fnLink (s.strap (fnPort f)) f)
  if fnIsVf f ∨ b < 128 then 0 else (b / 8 % 8 + 16 * 2 ^ (b % 8)) * 2 ^ 16

/-- The value of a configuration register of an enumerated function. -/
def State.cfgRead (s : State) (f o : Nat) : Nat :=
  if 0x40C ≤ o ∧ o < 0x480 then s.dvsecRead f o
  else if o = 0x70 then s.cfg f o + s.linkStatus f
  else s.cfg f o

/-- A register of the boot-window header (R406): three capabilities, one BAR of 512 MiB. -/
def State.bwCfgRead (s : State) (f o : Nat) : Nat :=
  if o = 0x00 then 0x5120CE6A
  else if o = 0x08 then 0x088000B1
  else if o = 0x34 then 0x60
  else if o = 0x60 then 0x00020010
  else if o = 0x100 then 0x400 * 2 ^ 20 + 0x20001
  else if o = 0x400 then 0x10023
  else if o = 0x0C then 0
  else if o = 0x04 ∨ o = 0x10 ∨ o = 0x14 then s.cfg f o
  else if (0x60 ≤ o ∧ o < 0x9C) ∨ (0x100 ≤ o ∧ o < 0x148) ∨ (0x400 ≤ o ∧ o < 0x480) then s.cfgRead f o
  else 0

/-- The bits of a register that a write replaces in the boot window. -/
def bwRwMask (f o : Nat) : Nat :=
  if o = 0x10 then 2 ^ 32 - 2 ^ 29
  else if o = 0x14 then 2 ^ 32 - 1
  else if o = 0x04 ∨ (0x60 ≤ o ∧ o < 0x9C) ∨ (0x100 ≤ o ∧ o < 0x148) then cfgRwMask [] f o
  else 0

/-! ### MSI-X release -/

/-- Every vector of a function that is no longer masked sends its pending message. -/
def State.msixReleaseAll (s : State) (f : Nat) : State :=
  ((spKeys s.pcie.pba).filter fun k => k / 2048 == f).foldl (fun (s : State) k => s.msixRelease f (k % 2048)) s

/-- A vector-table register written: 4 or 8 bytes at an offset of the table. -/
def State.msixTableWrite (s : State) (f o n v : Nat) : State :=
  let vec := o / 16
  let half := o / 8 % 2
  let old := s.msixWord f vec half
  let w := if n = 8 then BitVec.ofNat 64 v
    else if o % 8 = 0 then setBits old 31 0 v else setBits old 63 32 v
  let w1 := if half = 1 then setBits w 63 33 0 else setBits w 1 0 0
  (s.setMsixWord f vec half w1).msixRelease f vec

/-- A byte range of the Pending Bit Array. -/
def State.pbaRead (s : State) (f o n : Nat) : Nat :=
  (List.range (8 * n)).foldl (fun v i => v + if s.msixPending f (8 * o + i) then 2 ^ i else 0) 0

/-! ### Expansion ROM (R401 to R403) -/

/-- `n` bytes of the ROM window: the standard image, then the device resource table. -/
def State.romRead (s : State) (pf o n : Nat) : List Byte :=
  (List.range n).map fun i =>
    let a := o + i
    if a < 0xE0000 then (if s.pcie.rom = [] then 0 else s.pcie.rom.getD a 0)
    else (drtOf s.plan pf (s.get F.SITE_LIVE_SEQ_SEQ) (s.get F.SITE_GEN_GEN)).getD (a - 0xE0000) 0

/-! ### Address-translation windows (R409 to R411) -/

def atwFields (a b : Word) : AtwFields :=
  { en := bitAt a 63, rd := bitAt a 62, wr := bitAt a 61, sizeLog2 := bitsAt a 55 48, td := bitsAt a 43 32,
    base := bitsAt a 27 0 * 4096, target := b.toNat }

/-- Does a staged window refuse a GO? -/
def State.atwBad (s : State) (pf w : Nat) : Bool :=
  let x := atwFields (s.rd (R.HIF_ATW_STG_A pf w)) (s.rd (R.HIF_ATW_STG_B pf w))
  x.en &&
  !(decide (12 ≤ x.sizeLog2) && decide (x.sizeLog2 ≤ 40) && x.base % 2 ^ x.sizeLog2 == 0 && x.target % 4096 == 0 &&
    decide (x.base + 2 ^ x.sizeLog2 ≤ 2 ^ pfAtwLog2 s.plan pf) && tdOwnsRange s.plan x.td x.target (2 ^ x.sizeLog2))

/-- The window for which a GO is refused: the lowest that fails, or window 0 where the PF is locked and no window fails.
DESIGN CHOICE (log entry 155): the spec names no window there. -/
def State.atwRefused (s : State) (pf : Nat) : Option Nat :=
  match (List.range 256).find? (s.atwBad pf) with
  | some w => some w
  | none => if s.tdiLocked (1024 * pf) then some 0 else none

/-- GO on a PF's windows. -/
def State.atwGo (s : State) (pf : Nat) : State :=
  if pfAtwLog2 s.plan pf = 0 then s.common uHif 0xFE
  else if s.get (F.HIF_ATW_COMMIT_PENDING pf) = 1 then s
  else
    match s.atwRefused pf with
    | some w =>
      (s.sets [(F.HIF_ATW_STATUS_WINDOW pf, w), (F.HIF_ATW_STATUS_LAST_FC pf, 0x1809)]).hifFault 0x09 (1024 * pf) w
    | none => (s.sets [(F.HIF_ATW_STATUS_WINDOW pf, 0), (F.HIF_ATW_STATUS_LAST_FC pf, 0)]).commitGo (F.HIF_ATW_COMMIT_PENDING pf)

/-- A pending commit becomes live: at the first TLP, or after 100 ns. -/
def State.atwLive (s : State) (pf : Nat) : State :=
  if s.get (F.HIF_ATW_COMMIT_PENDING pf) = 1 then
    ((List.range 256).foldl (fun (s : State) w =>
      (s.wr (R.HIF_ATW_LIVE_A pf w) (s.rd (R.HIF_ATW_STG_A pf w))).wr (R.HIF_ATW_LIVE_B pf w) (s.rd (R.HIF_ATW_STG_B pf w))) s).commitApplied
      (F.HIF_ATW_COMMIT_PENDING pf) (F.HIF_ATW_GEN_GEN pf)
  else s

/-- Windows of a PF, staged and live, back at reset (R425). -/
def State.atwReset (s : State) (pf : Nat) : State :=
  (List.range 256).foldl (fun (s : State) w =>
    (((s.wr (R.HIF_ATW_STG_A pf w) 0).wr (R.HIF_ATW_STG_B pf w) 0).wr (R.HIF_ATW_LIVE_A pf w) 0).wr (R.HIF_ATW_LIVE_B pf w) 0) s

/-- The device address that an access of `n` bytes at an aperture offset reaches: the lowest window that
matches it whole, and the TD it reaches. While Open, no window that reaches a tenant is used (R425). -/
def State.atwMatch (s : State) (pf a n : Nat) (write : Bool) : Option (Nat × Nat) :=
  ((List.range 256).map fun w => atwFields (s.rd (R.HIF_ATW_LIVE_A pf w)) (s.rd (R.HIF_ATW_LIVE_B pf w))).findSome? fun x =>
    if x.en && decide (x.base ≤ a) && decide (a + n ≤ x.base + 2 ^ x.sizeLog2) && (if write then x.wr else x.rd) &&
      !(s.isOpen && x.td != 0) then some (x.target + (a - x.base), x.td) else none

end Sys2Proof.Machine
end

