-- ==== Sys2Proof/Machine/Start.lean ====
section
/-! DEFINITION. Starts and resets (R489, R490, R503, R530, R546, R550, R559, R571): what each keeps, and what
the start that follows sets. -/

namespace Sys2Proof.Machine

/-- The causes of `PWR_RESET_CAUSE` (R500). -/
abbrev causePower : Nat := 0
abbrev causeSysRst : Nat := 1
abbrev causeHold : Nat := 2
abbrev causeQuick : Nat := 3
abbrev causeUnder : Nat := 4
abbrev causeTrip : Nat := 5
abbrev causeNight : Nat := 6
abbrev causeLost : Nat := 7

/-- Does the register at a control-space offset keep its value while the lodge stays powered? `start`: a
start of Table 19-1; otherwise FAIL_IMAGE. -/
def keptReg (start : Bool) (o : Nat) : Bool :=
  let u := o / 0x1000000
  let r := o % 0x1000000
  u == uPwr || u == uSdl ||
  (u == uTb && (decide (r < 0x10) || (decide (0x200 ≤ r) && decide (r < 0x300)))) ||
  (u == uWkt && !(start && ((decide (0x18 ≤ r) && decide (r < 0x28)) || (decide (0x30 ≤ r) && decide (r < 0x60)) ||
    (decide (0x90 ≤ r) && decide (r < 0xC0))))) ||
  (u == uFlt && r == 0x30) ||
  (u == uBoot && !start)

/-- The value of an anti-rollback floor (R532). -/
def State.floorOf (s : State) (kind : Nat) : Nat := (spGet (fun _ => []) s.wkt.floors kind).foldl max 0

/-- The straps and the fused floors, in registers that show them. -/
def State.showStraps (s old : State) : State :=
  s.sets [(F.BOOT_STATUS_SRC_STRAP, old.get F.BOOT_STATUS_SRC_STRAP),
    (F.HIF_PORT_STATUS_BIF 0, old.strap 0), (F.HIF_PORT_STATUS_BIF 1, old.strap 1),
    (F.SITE_ARB_FLOOR_FLOOR, old.floorOf 0), (F.BOOT_ARB_FLOOR_FLOOR, old.floorOf 1),
    (F.TE_UC_ARB_FLOOR_FLOOR, old.floorOf 2)]

/-- Tiles as a reset leaves them: Clear, their error counts kept; retirement lasts until a start. -/
def keptTiles (start : Bool) (l : Sparse Tile) : Sparse Tile :=
  l.filterMap fun (t, x) =>
    let y : Tile := { tileReset t with retired := x.retired && !start, ue := x.ue, ce := x.ce, times := x.times }
    if y = tileReset t then none else some (t, y)

/-- Controllers that lose buffered blocks report them first after the boot (Table 21-7, No. 10). -/
def State.lostBlocks (s : State) : Sparse NveCtl :=
  s.nve.ctls.filterMap fun (f, c) => if c.used = 0 then none else some (f, { nveCtlReset f with lost := c.used })

/-- Everything but the lodge is reset. DDR and the retained SRAM keep their contents, and DDR its training; HBM is lost. -/
def State.coreReset (s : State) (start : Bool) : State :=
  let high := fun (a : Nat) => decide (0x010000000000 ≤ a)
  let r1 := ((State.reset.withRegs (s.regs.filter fun x => keptReg start x.1)).withMem
    (s.mem.filter fun x => high x.1)).withPoison (s.poison.filter fun x => high x.1)
  let r2 := (((r1.withZeroMap (runCut s.zeroMap 0 0x180000)).withDdr s.ddr).withTiles (keptTiles start s.tiles)).withTb s.tb
  let r3 := r2.withClk
    { s.clk with
      ppsUnread := false, ppsOut := false, ppsNext := 0, ppsOld := 0, ppsFrom := 0, target := 0, ppsFall := 0, lodge := 0 }
  let r4 := r3.withPwr { s.pwr with holdAt := [], dwelt := [], night := 0, wake := false }
  let r5 := r4.withBoot { State.reset.boot with
    flash := s.boot.flash, excluded := if start then [] else s.boot.excluded, warm := s.boot.warm }
  let r6 := r5.withWkt (if start then
      { s.wkt with chal := false, token := none, unlock := 0, lock := false, conns := [], sessions := [] }
    else s.wkt)
  let s1 := (((r6.withPins s.pins).withOut s.out).withFree s.free).withPending s.pending
  let s2 := (List.range 8).foldl (fun (s : State) d => s.set (F.PWR_DOM_STATUS_HOLD d) 0) (s1.showStraps s)
  [uPwr, uSdl, uWkt, uTb].foldl State.fltRefresh s2

/-- The epoch of a start is drawn, or the start waits for the generator (R530). In Open, alias keys are drawn
too (R544). -/
def State.drawEpoch (s : State) (healthy : Bool) : State :=
  if !healthy then (s.withBoot { s.boot with rbgWait := true }).fault uWkt 0x09 8 0
  else
    let (a, s1) := s.takeFree
    let (b, s2) := s1.takeFree
    let s3 := ((s2.withBoot { s2.boot with rbgWait := false }).wr (R.WKT_EPOCH 0) a).wr (R.WKT_EPOCH 1) b
    if s3.isOpen then
      let (k, s4) := s3.takeFree
      s4.withWkt { s4.wkt with aliasKeys := some k }
    else s3

/-- A start of Table 19-1 with its cause: phase LODGE, nothing retained for WARM but after Night. -/
def State.startReset (s : State) (cause : Nat) (healthy : Bool) : State :=
  let s1 := s.coreReset true
  let s2 := (s1.set F.PWR_RESET_CAUSE_CAUSE cause).sets [(F.WKT_LIFECYCLE_ERASING, 0), (F.WKT_TOKEN_STATUS_BUSY, 0)]
  let s3 := if cause = causeHold ∨ cause = causeQuick ∨ cause = causeUnder ∨ cause = causeLost then
      s2.wrapBy F.PWR_RESET_CAUSE_RESETS 1
    else s2
  let s4 := if cause = causeNight then s3 else s3.withBoot { s3.boot with warm := none }
  let s5 := if 2 ≤ cause ∧ cause ≠ causeNight then (s4.withNve { s4.nve with ctls := s.lostBlocks }) else s4
  s5.drawEpoch healthy

/-- A controlled reset (R489): the ports refuse, every domain but the lodge is reset, and a full boot
follows. -/
def State.controlledReset (s : State) (cause : Nat) : State := s.startReset cause true

/-- Every slew ends (R470). -/
def State.slewsEnd (s : State) : State :=
  (List.range 4).foldl (fun (s : State) k =>
    (s.setTbase k { s.tbase k with slew := 0, ran := 0 }).sets [(F.TB_STATUS_SLEWING k, 0), (F.TB_SLEW_LEFT_LEFT k, 0)]) s

/-- Night ends by a wake event (R484): the timebases go on from the lodge's values, fractions at zero, in
holdover, slews ended (R470). -/
def State.nightWake (s : State) : State :=
  let s1 := s.startReset causeNight true
  (List.range 4).foldl (fun (s : State) k =>
    (s.setTbase k { s.tbase k with value := s.tbVal k / nsUnit * nsUnit, slew := 0, ran := 0 }).sets
      [(F.TB_STATUS_HOLDOVER k, 1), (F.TB_STATUS_SLEWING k, 0), (F.TB_SLEW_LEFT_LEFT k, 0)]) s1

/-- The lodge itself is reset (R571): only what is fused or outside the device stays. -/
def State.lodgeReset (s : State) : State :=
  let s1 : State :=
    ((((((State.reset.withBoot { State.reset.boot with flash := s.boot.flash }).withWkt { State.reset.wkt with floors := s.wkt.floors, revoked := s.wkt.revoked }).withPins s.pins).withOut s.out).withFree s.free).withPending s.pending)
  (s1.showStraps s).sets
    [(F.WKT_ARB_USED_SITE, s.get F.WKT_ARB_USED_SITE), (F.WKT_ARB_USED_BOOT, s.get F.WKT_ARB_USED_BOOT),
     (F.WKT_ARB_USED_UCODE, s.get F.WKT_ARB_USED_UCODE), (F.WKT_BANK_STATUS_SITE, s.get F.WKT_BANK_STATUS_SITE),
     (F.WKT_BANK_STATUS_BOOT, s.get F.WKT_BANK_STATUS_BOOT), (F.WKT_BANK_STATUS_DEBUG, s.get F.WKT_BANK_STATUS_DEBUG),
     (F.WKT_BANK_STATUS_UCODE, s.get F.WKT_BANK_STATUS_UCODE), (F.WKT_UID_UID 0, s.get (F.WKT_UID_UID 0)),
     (F.WKT_UID_UID 1, s.get (F.WKT_UID_UID 1))]

end Sys2Proof.Machine
end

