-- ==== Sys2Proof/Machine/Power.lean ====
section
/-! DEFINITION. The commands of power, supplies, temperature and ageing (R475 to R502). -/

namespace Sys2Proof.Machine

/-! ### Tiles and domains (Tables 18-2, 18-3) -/

abbrev tileCount : Nat := 838

/-- The AVS domain of a tile. -/
def tileDomain (t : Nat) : Option Nat :=
  if t ≤ 179 then some 1
  else if t ≤ 283 then some 0
  else if t ≤ 347 then some 6
  else if t ≤ 379 then some 4
  else if t ≤ 409 then some 5
  else if t ≤ 425 then some 3
  else if t ≤ 556 then some 2
  else if t ≤ 812 then some 7
  else none

def domainTiles (d : Nat) : List Nat := (List.range tileCount).filter fun t => tileDomain t == some d

/-- What the fast PLL of an AVS domain does: it runs, it has been started again and has not locked yet, or it is stopped
(R481). -/
inductive FastPll
  | running | locking | stopped
  deriving DecidableEq, Repr

/-- The fast PLL of a domain: it runs while some tile of the domain is in a state other than Night, which Hold does not
change; with every tile in Night it is stopped until one of them wakes, whose wake includes the lock (R481). The tiles
determine it, and they alone are stored. -/
def State.fastPll (s : State) (d : Nat) : FastPll :=
  if (domainTiles d).any fun t => (s.tile t).sky != 3 then .running
  else if (domainTiles d).any fun t => (s.tile t).waking then .locking
  else .stopped

/-- Sundial sensors of a domain: first and number. -/
def domainSensors (d : Nat) : Nat × Nat :=
  let n := [96, 96, 64, 32, 48, 48, 96, 32]
  ((n.take d).sum, n.getD d 0)

/-- The domain of a sensor. -/
def sensorDomain (i : Nat) : Nat :=
  ((List.range 8).find? fun d => decide (i < (domainSensors d).1 + (domainSensors d).2)).getD 0

/-- A condition of PWR with the domain, or the tile for 0x0109 of a hart. -/
def State.pwrFault (s : State) (cond dom : Nat) : State := s.fault uPwr cond (cond - 1) (dom % 8)
def State.pwrTileFault (s : State) (tile : Nat) : State := s.fault uPwr 9 8 (tile * 2 ^ 24)

/-- A condition of SDL with domain and sensor. -/
def State.sdlFault (s : State) (cond dom sensor : Nat) : State := s.fault uSdl cond (cond - 1) (dom * 2 ^ 16 + sensor)

/-! ### Sky states (R475 to R482) -/

/-- Does the condition hold under which Table 18-2 lists a state for the tile? The tiles of a pavilion group sleep while it
is EMPTY or, RUNNING, while it sleeps as a whole (R119, R122). -/
def State.skyCondition (s : State) (t sky : Nat) : Bool :=
  if sky = 3 ∧ 180 ≤ t ∧ t ≤ 275 then false
  else if 284 ≤ t ∧ t ≤ 347 then
    match grpOf s.plan (t - 284) with
    | some g => s.grpState g == gEmpty || (sky != 3 && s.grpState g == gRunning && s.get (F.PAV_GRP_STATE_SLEEP g) == 1)
    | none => true
  else if sky = 2 ∧ (t = 408 ∨ t = 409) then
    (List.range (linkCount (s.strap (t - 408)))).all fun l =>
      spGet (fun _ => 0) s.pcie.l1 (4 * (t - 408) + l) == 3
  else if sky = 3 ∧ 410 ≤ t ∧ t ≤ 425 then !portPresent s.plan (t - 410)
  else if sky = 3 ∧ 428 ≤ t ∧ t ≤ 555 then !bankAlloc s.plan (t - 428)
  else if sky = 3 ∧ 813 ≤ t ∧ t ≤ 828 then !portPresent s.plan (t - 813)
  else if sky = 3 ∧ 834 ≤ t ∧ t ≤ 837 then s.ddr.getD (t - 834) 0 == 0
  else true

/-- May the tile be in the state, by `ALLOW` and by Table 18-2? -/
def State.skyAllowed (s : State) (t sky : Nat) : Bool :=
  sky == 0 || ((tileAllow s.plan t).testBit (sky - 1) && (tileAllows t).testBit (sky - 1) && s.skyCondition t sky)

/-- Has the unit of a tile finished the work it has accepted, and are the requests it has issued answered (R479, R155)?
By the tiles of Table 18-2; a tile whose unit holds no work of its own is finished. -/
def State.unitIdle (s : State) (t : Nat) : Bool :=
  if t < 160 then (List.range 8).all fun k => (s.thr (t / 8) (8 * (t % 8) + k)).st == tIdle
  else if t < 180 then ((List.range 64).all fun k => (s.thr (t - 160) k).st == tIdle) && (s.clu (t - 160)).commits.isEmpty
  else if 276 ≤ t ∧ t < 284 then
    (List.range 64).all fun r =>
      let b := ringReg (t - 276) r true
      s.get (rgEn b) == 0 || s.get (rgPi b) == s.get (rgCi b)
  else if 284 ≤ t ∧ t < 348 then !(s.pav.hbm.any fun (x : HbmReq) => x.member == t - 284)
  else if 348 ≤ t ∧ t < 380 then !(s.cph.reqs.any fun (x : CphReq) => x.pair == t - 348)
  else if 380 ≤ t ∧ t < 396 then (s.seqOf (t - 380)).isEmpty
  else if 396 ≤ t ∧ t < 404 then !(s.nve.cmds.any fun (x : NveCmd) => s.fnNve x.fn == t - 396)
  else if 404 ≤ t ∧ t < 408 then
    ((spKeys s.hif.queues).all fun g => hqFn g / 1024 != t - 404 || ((s.hq g).fetch.isNone && !s.hqBusy g)) &&
      s.tsOutstanding (t - 404) == 0
  else if t = 408 ∨ t = 409 then !(s.pcie.reqs.any fun (r : HostReq) => r.port == t - 408)
  else if 410 ≤ t ∧ t < 426 then (s.busyLeaves (t - 410)).isEmpty && (s.txOf (t - 410)).isNone
  else if t = 426 then s.acm.queue.isEmpty
  else if t = 427 then s.emt.engine.isEmpty
  else if 428 ≤ t ∧ t < 556 then s.acm.queue.all fun q => q.searched
  else if t = 556 then s.acm.queue.all fun q => q.outs.isNone
  else if 557 ≤ t ∧ t < 813 then s.prm.bufs.all fun x => bufStation s.plan x.1 != t - 557 || x.2.isEmpty
  else true

/-- Is the tile idle (R479): its unit's work finished, no header waiting for it and none to inject? The timers of its
unit are the sender's, who asks for no sleep while one falls due (log entry 4). -/
def State.tileQuiet (s : State) (t : Nat) : Bool :=
  s.unitIdle t &&
  (List.range 0x1C1).all fun ep => epTile ep != t ||
    ((s.inboxOf ep).isEmpty && (spGet (fun _ => []) s.prm.out ep).isEmpty)

/-- An idle tile enters a deeper state. -/
def State.skyEnter (s : State) (t sky : Nat) : State :=
  let x := s.tile t
  if x.hold ∨ x.waking ∨ sky ≤ x.sky ∨ !s.skyAllowed t sky ∨ !s.tileQuiet t then s
  else s.setTile t { x with sky := sky }

/-- An idle group with `SLEEP_REQ` high sleeps anew (R119). -/
def State.grpHazeEntry (s : State) (g : Nat) : State :=
  if s.grpHeld g ∨ (s.get (F.PAV_GRP_STATE_SLEEP g) = 1) ∨ !(grpMembers s.plan g).all fun m => s.tileQuiet (284 + m) then s
  else s.tryHaze g

/-- A tile that has been idle for its time enters Haze: not a hart's, which R482 governs; a RUNNING group's with all the
tiles of the group, under R119. -/
def execTileHazeEntry (tile : Nat) (s : State) : Res :=
  .next (if 180 ≤ tile ∧ tile ≤ 275 then s
    else match if 284 ≤ tile ∧ tile ≤ 347 then grpOf s.plan (tile - 284) else none with
      | some g => if s.grpState g = gRunning then s.grpHazeEntry g else s.skyEnter tile 1
      | none => s.skyEnter tile 1)

/-- The lodge's decision on a tile that has been idle for the time of `sky`; a state no longer allowed is
left. An unallocated ACM bank stays powered off (R185). -/
def execTileSleepDecision (tile sky : Nat) (s : State) : Res :=
  let x := s.tile tile
  if 428 ≤ tile ∧ tile ≤ 555 ∧ !bankAlloc s.plan (tile - 428) then .next s
  else if x.sky ≠ 0 ∧ !s.skyAllowed tile x.sky ∧ !(180 ≤ tile ∧ tile ≤ 275 ∧ x.sky = 3) then
    .next (if x.waking ∨ x.hold then s else s.startWake tile)
  else if sky < 2 ∨ (180 ≤ tile ∧ tile ≤ 275) then .next s
  else .next (s.skyEnter tile sky)

/-- The bit of a hart in `APC_HART_ONLINE`. -/
def State.setOnline (s : State) (h : Nat) (b : Bool) : State :=
  let o := if h < 64 then R.APC_HART_ONLINE0 else R.APC_HART_ONLINE1
  s.wr o (setBit (s.rd o) (h % 64) b)
def State.online (s : State) (h : Nat) : Bool :=
  bitAt (s.rd (if h < 64 then R.APC_HART_ONLINE0 else R.APC_HART_ONLINE1)) (h % 64)

/-- A tile reaches Clear; a sleeping pavilion group leaves Haze with all its tiles (R119). -/
def execTileWakeComplete (tile : Nat) (s : State) : Res :=
  let x := s.tile tile
  if !x.waking ∨ x.hold then .next s
  else
    let s1 := s.setTile tile { x with sky := 0, waking := false, wakes := (x.wakes + 1) % 2 ^ 32 }
    let s2 := if x.sky = 3 ∧ 180 ≤ tile ∧ tile ≤ 275 then s1.setOnline (tile - 180) true else s1
    .next (match if 284 ≤ tile ∧ tile ≤ 347 then grpOf s.plan (tile - 284) else none with
      | some g => if s.get (F.PAV_GRP_STATE_SLEEP g) = 1 then s2.grpAwake g else s2
      | none => s2)

/-! ### Harts (R482) -/

/-- A hart stands in WFI, and after its idle time enters Haze (1) or Overcast (2). -/
def execHartWfi (hart sky : Nat) (s : State) : Res :=
  let t := hartTile hart
  let x := s.tile t
  if !s.online hart ∨ x.sky = 3 then .next s
  else
    let s1 := s.setHart hart { s.hart hart with wfi := true }
    if (sky = 1 ∨ sky = 2) ∧ x.sky < sky ∧ !x.hold ∧ !x.waking ∧ s.skyAllowed t sky then .next (s1.setTile t { x with sky := sky })
    else .next s1

def State.hartStart (s : State) (h : Nat) : State :=
  let t := hartTile h
  if 96 ≤ h ∨ (s.tile t).sky ≠ 3 ∨ (s.tile t).waking then s.pwrTileFault (hartTile h)
  else
    (s.setHart h { hartReset h with
      pc := s.get F.PWR_HART_ENTRY_ADDR, pmp := if s.ready then [pmpSecret, pmpRom] else [] }).startWake t

def State.hartStop (s : State) (h : Nat) : State :=
  let t := hartTile h
  if 96 ≤ h ∨ !(s.hart h).wfi ∨ (s.tile t).sky = 3 then s.pwrTileFault (hartTile h)
  else
    ((s.setHart h { s.hart h with wfi := false }).setOnline h false).setTile t { s.tile t with sky := 3, waking := false }

def execHartStart (hart : Nat) (s : State) : Res := .next (s.hartStart hart)
def execHartStop (hart : Nat) (s : State) : Res := .next (s.hartStop hart)

/-! ### Device Night (R483, R484, R522) -/

/-- Ports of the Ethernet that are present. -/
def State.ports (s : State) : List Nat := (List.range 16).filter (portPresent s.plan)

/-- ENTER (R483): steps 1 and 2 begin. -/
def State.nightEnter (s : State) : State :=
  if s.get F.PWR_NIGHT_CFG_EN = 0 ∨ s.phase ≠ phReady ∨ s.pwr.night ≠ 0 then s.pwrFault 7 0
  else
    let s1 := s.withPwr { s.pwr with night := 2, wake := false }
    let s2 := s1.ports.foldl (fun (s : State) p => s.linkDown p false) s1
    let s3 := ((List.range 64).filter (grpFirst s2.plan)).foldl (fun (s : State) g =>
      if s.grpState g = gEmpty then s
      else if s.grpState g = gLoading then s.loadFail g 0x0D
      else if s.grpState g = gUnloading then s
      else s.unloading g) s2
    s3.nveNight

def execNightEnter (s : State) : Res := .next s.nightEnter

/-- Night entry is abandoned: the device stays READY with its groups unloaded, and its links come back. -/
def State.nightAbandon (s : State) : State :=
  let s1 := (s.withPwr { s.pwr with night := 0, wake := false }).pwrFault 7 0
  let s2 := s1.nveNightOff
  s2.ports.foldl State.linkStart s2

/-- A section of the warm plan copy: header and body, without the body of an ANNOTATION. -/
def warmSection (x : Section) : List Byte := x.header ++ if x.type = secAnnotation then [] else x.body

/-- The digest of a section, retained over Night where its body is not (R523). -/
def State.sectionDigest (s : State) (x : Section) : List Byte :=
  if x.type = secAnnotation then
    match s.site.ann.find? fun y => y.1 == x.inst with
    | some y => y.2
    | none => secDigest x
  else secDigest x

/-- `BOOT_MEAS0` to `5`, and the live chain tail, as bytes. -/
def State.regBytes (s : State) (o n : Nat) : List Byte := (List.range n).flatMap fun i => natLE 8 (s.rd (o + 8 * i)).toNat

abbrev warmCopyAddr : Nat := 0x010010000000

/-- Step 3: the warm plan copy and what BOOT retains (R522); none where the copy exceeds 64 MiB. -/
def State.warmSave (s : State) : Option State :=
  let copy := s.plan.flatMap warmSection
  if 67108864 < copy.length then none
  else
    let w : BootWarm :=
      { digest := Config.sha384 copy, len := copy.length, meas := s.regBytes (R.BOOT_MEAS 0) 6,
        source := s.get F.BOOT_STATUS_SOURCE, seq := s.get F.BOOT_SEQ_SEQ, imgArb := s.get F.BOOT_IMG_ARB_ARB,
        siteSeq := s.get F.SITE_LIVE_SEQ_SEQ, siteArb := s.get F.SITE_LIVE_ARB_ARB,
        siteDigest := s.regBytes (R.SITE_LIVE_DIGEST 0) 6,
        ann := (s.plan.filter fun x => x.type == secAnnotation).map fun x => (x.inst, s.sectionDigest x) }
    some ((s.putBytes warmCopyAddr copy).withBoot { s.boot with warm := some w })

/-- Are steps 1 and 2 done: groups EMPTY, buffers drained and flushed, and the work that the other units have accepted
completed? Queued frames are not: they are discarded. -/
def State.nightDrained (s : State) : Bool :=
  ((List.range 64).filter (grpFirst s.plan)).all (fun g => s.grpState g == gEmpty) && s.nveNightReady &&
  (List.range tileCount).all fun t => if 410 ≤ t ∧ t ≤ 425 then (s.txOf (t - 410)).isNone else s.unitIdle t

def execNightDrainEnd (s : State) : Res :=
  if s.pwr.night ≠ 2 ∨ !s.nightDrained ∨ s.pwr.holdAt ≠ [] then .next s
  else
    let s1 := s.nveCloseAll
    let s2 := ((s1.withFrames []).withSch { s1.sch with leaves := [] })
    match s2.warmSave with
    | none => .next ((s2.fault uBoot 0x07 6 (s.get F.BOOT_STATUS_SOURCE * 2 ^ 32)).nightAbandon)
    | some s3 => .next (s3.withPwr { s3.pwr with night := 4 })

/-- `PWR_NIGHT_LIMIT` expires, which stops in Hold (R499). -/
def execNightLimitExpiry (s : State) : Res := .next (if s.pwr.night = 2 ∧ s.pwr.holdAt = [] then s.nightAbandon else s)

/-- Step 4: only the lodge runs. A wake event that came meanwhile takes effect at once (R499). -/
def execNightEntryComplete (s : State) : Res :=
  if s.pwr.night ≠ 4 ∨ s.pwr.holdAt ≠ [] then .next s
  else
    let s1 := (List.range tileCount).foldl (fun (s : State) t => s.setTile t { s.tile t with sky := 3, waking := false }) s
    let s2 := ((s1.withPwr { s1.pwr with night := 0, wake := false }).withHarts [])
    let s3 := (((s2.set F.BOOT_STATUS_PHASE phNight).wr R.APC_HART_ONLINE0 0).wr R.APC_HART_ONLINE1 0)
    let s4 := (List.range 2).foldl (fun (s : State) p => (List.range (linkCount (s.strap p))).foldl
      (fun (s : State) l => s.emit (.pcieLink p l "L2" 0)) s) s3.slewsEnd
    .next (if s.pwr.wake then s4.nightWake else s4)

/-- A wake event: in Night it wakes the device, on the way to Night it waits for the entry to complete. -/
def State.wakeEvent (s : State) : State :=
  if s.phase = phNight then s.nightWake
  else if s.pwr.night ≠ 0 then s.withPwr { s.pwr with wake := true }
  else s

/-- TB0 has reached `PWR_NIGHT_ALARM`. -/
def execNightAlarm (s : State) : Res :=
  .next (if s.get F.PWR_NIGHT_ALARM_EN = 1 ∧ s.get F.PWR_NIGHT_ALARM_SEC ≤ s.tbVal 0 / secUnit then s.wakeEvent else s)

/-! ### Supplies and Hold (R486 to R491) -/

def State.held (s : State) (d : Nat) : Bool := s.get (F.PWR_DOM_STATUS_HOLD d) == 1

/-- Ports whose egress tile enters Hold stomp the frame in transmission (R248). -/
def State.holdStomp (s : State) (d : Nat) (sent : List Nat) : State :=
  if d ≠ 3 then s
  else (List.range 16).foldl (fun (s : State) p =>
    match s.txOf p with
    | some t => (s.cbsSync p).stomp p (sent.getD p 0) t
    | none => s.cbsSync p) s

/-- A domain's rail falls below its warning threshold; `sent`: bytes that had left of the frame in
transmission of each port. -/
def execSupplyWarning (domain : Nat) (sent : List Nat) (s : State) : Res :=
  if s.pwr.trip ∨ s.phase = phNight then .next s
  else if s.held domain then .next (s.withPwr { s.pwr with dwelt := s.pwr.dwelt.erase domain })
  else
    let s1 := s.holdStomp domain sent
    let s2 := (domainTiles domain).foldl (fun (s : State) t =>
      if (s.tile t).sky = 3 then s else s.setTile t { s.tile t with hold := true }) s1
    let s3 := s2.withPwr { s2.pwr with holdAt := spInsert s2.pwr.holdAt domain s.clk.elapsed }
    .next (((s3.set (F.PWR_DOM_STATUS_HOLD domain) 1).count F.PWR_HOLD_COUNT_COUNT).pwrFault 1 domain)

/-- The rail has stayed above the recovery threshold for 2 µs: the quick check starts. -/
def execHoldDwellEnd (domain : Nat) (s : State) : Res :=
  if s.held domain ∧ !s.pwr.dwelt.contains domain then
    .next (s.withPwr { s.pwr with dwelt := domain :: s.pwr.dwelt })
  else .next s

/-- Sensors of a domain as a check samples them: those out of range are left out from then on (R494). A
reading is a margin, a shift (16 bits each, signed) and a temperature. -/
def sensorReset (_ : Nat) : Sensor := ⟨0, 0, 0, false⟩
def State.sensor (s : State) (i : Nat) : Sensor := spGet sensorReset s.pwr.sensors i
def State.setSensor (s : State) (i : Nat) (x : Sensor) : State :=
  s.withPwr { s.pwr with sensors := spSet sensorReset s.pwr.sensors i x }

def State.sampleSensor (s : State) (i : Nat) (r : Option (Nat × Nat × Nat)) : State :=
  if (s.sensor i).excluded then s
  else
    match r with
    | none => (s.setSensor i { s.sensor i with excluded := true }).sdlFault 4 (sensorDomain i) i
    | some (m, sh, t) => s.setSensor i ⟨signedOf 16 m, signedOf 16 sh, t % 256, false⟩

def State.sampleFrom (s : State) (i : Nat) : List (Option (Nat × Nat × Nat)) → State
  | [] => s
  | r :: t => (s.sampleSensor i r).sampleFrom (i + 1) t

/-- The sensors of a domain that count. -/
def State.domainReadings (s : State) (d : Nat) : List (Nat × Sensor) :=
  ((List.range (domainSensors d).2).map fun k => ((domainSensors d).1 + k, s.sensor ((domainSensors d).1 + k))).filter
    fun x => !x.2.excluded

/-- `SDL_DOM_SUMMARY`: the largest shift and the smallest margin. -/
def State.summarise (s : State) (d : Nat) : State :=
  match s.domainReadings d with
  | [] => s
  | (_, x) :: t =>
    let m := t.foldl (fun (a : Int) y => min a y.2.margin) x.margin
    let sh := t.foldl (fun (a : Int) y => max a y.2.shift) x.shift
    s.wr (R.SDL_DOM_SUMMARY d) (BitVec.ofNat 64 (unsignedOf 16 sh * 2 ^ 32 + unsignedOf 16 m))

/-- A quick check of a domain (R494): the state after it, and whether it passes. -/
def State.quickCheck (s : State) (d : Nat) (readings : List (Option (Nat × Nat × Nat))) : Bool × State :=
  let s1 := (s.sampleFrom (domainSensors d).1 (readings.take (domainSensors d).2)).summarise d
  ((s1.domainReadings d).all fun x => decide ((s1.get F.SDL_THRESH_QC_MIN_PS : Int) ≤ x.2.margin), s1)

/-- Hold ends: the tiles go on, and work held outside them is applied. -/
def State.holdEnd (s : State) (d : Nat) : State :=
  let us := (s.clk.elapsed - spGet (fun _ => 0) s.pwr.holdAt d) / (1000 * nsUnit)
  let s0 := if d = 3 then (List.range 16).foldl State.cbsSync s else s
  let s1 := (domainTiles d).foldl (fun (s : State) t =>
    if (s.tile t).hold then s.setTile t { s.tile t with hold := false } else s) s0
  let s2 := s1.withPwr { s1.pwr with holdAt := spErase s1.pwr.holdAt d, dwelt := s1.pwr.dwelt.erase d }
  let s3 := (s2.set (F.PWR_DOM_STATUS_HOLD d) 0).set F.PWR_HOLD_MAX_US_MAX (min 0xFFFFF (max us (s.get F.PWR_HOLD_MAX_US_MAX)))
  let s4 := s3.nveGo
  if d = 5 then s4.hqHeldApply else s4

def execHoldLimitExpiry (domain : Nat) (s : State) : Res :=
  .next (if s.held domain then (s.pwrFault 2 domain).controlledReset causeHold else s)

/-- A rail falls below 0.50 V: of an AVS domain (0 to 7) or of a fixed one, to which no number is given. -/
def execUndervoltage (domain : Nat) (s : State) : Res :=
  if s.pwr.trip then .next s
  else if domain < 8 then .next ((s.pwrFault 4 domain).startReset causeUnder true)
  else
    let (v, s1) := s.takeFree
    .next ((s1.pwrFault 4 (v.toNat % 8)).startReset causeUnder true)

/-! ### Temperature (R492, R493) -/

/-- The sixty-four junction sensors are read. -/
def execTemperatureSample (readings : List Nat) (s : State) : Res :=
  let now := (readings.take 64).foldl (fun a r => max a (r % 256)) 0
  let s1 := s.sets [(F.PWR_TEMP_NOW, now), (F.PWR_TEMP_PEAK, max now (s.get F.PWR_TEMP_PEAK))]
  let hot := decide (s.get F.PWR_THERM_CFG_WARN_C < now)
  let s2 := s1.withPwr { s1.pwr with hot := hot }
  .next (if hot && !s.pwr.hot then s2.pwrFault 5 0 else s2)

/-- A reading of 115 °C: power goes, DDR contents are lost (R493, R574). -/
def execThermalTrip (s : State) : Res :=
  if s.get F.PWR_TEMP_NOW < 115 ∨ s.pwr.trip then .next s
  else
    let lost := s.lostBlocks
    let s1 := ((s.pwrFault 6 0).coreReset true).set F.PWR_RESET_CAUSE_CAUSE causeTrip
    let keep := fun (a : Nat) => decide (0x0E0000000000 ≤ a)
    let m := ((s1.withMem (s1.mem.filter fun x => keep x.1)).withPoison (s1.poison.filter fun x => keep x.1)).withZeroMap []
    let s2 := (((m.withBoot { s1.boot with warm := none }).withNve { s1.nve with ctls := lost }).withPwr
      { s1.pwr with trip := true }).withPins { s1.pins with thermtrip := true }
    .next (s2.emit (.pin "THERMTRIP_N" 0))

/-- THERMTRIP_N is released. -/
def State.tripRelease (s : State) : State :=
  ((s.withPwr { s.pwr with trip := false }).withPins { s.pins with thermtrip := false }).emit (.pin "THERMTRIP_N" 1)

/-- Every reading has stayed at or below 100 °C for 1 s: with AUTO_RESTART the device boots. -/
def execThermalRestart (s : State) : Res :=
  if !s.pwr.trip ∨ s.get F.PWR_THERM_CFG_AUTO_RESTART = 0 ∨ 100 < s.get F.PWR_TEMP_NOW then .next s
  else
    let lost := s.nve.ctls
    let s1 := s.tripRelease
    if !s1.pins.sysRst then .next s1
    else
      let s2 := s1.startReset causeTrip true
      .next (s2.withNve { s2.nve with ctls := lost })

/-! ### Sundial and operating points (R485, R494 to R497) -/

/-- 0.94 of a setpoint, in whole mV (R486). -/
def warnMv (mv : Nat) : Nat := mv * 94 / 100

/-- A domain's setpoint commanded: `low` is the lower of the points whose thresholds are in force. -/
def State.setpoint (s : State) (d mv low : Nat) : State :=
  (s.sets [(F.PWR_DOM_STATUS_SETPOINT_MV d, mv), (F.PWR_DOM_STATUS_WARN_MV d, warnMv low)]).emit (.avs d mv)

/-- Voltages from one to another in steps of at most 10 mV, the first left out. -/
def mvSteps : Nat → Nat → Nat → List Nat
  | 0, _, _ => []
  | n + 1, a, b =>
    if a < b then min b (a + 10) :: mvSteps n (min b (a + 10)) b
    else if b < a then max b (a - 10) :: mvSteps n (max b (a - 10)) b
    else []

/-- The points on the way (R495): voltage before frequency where it rises, after it where it falls. -/
def opSteps (mv mhz mv' mhz' : Nat) : List (Nat × Nat) :=
  let f := if mhz = mhz' then [] else [mhz']
  let v := mvSteps 40 mv mv'
  if mhz < mhz' then (v.map fun x => (x, mhz)) ++ f.map fun y => (mv', y)
  else (f.map fun y => (mv, y)) ++ v.map fun x => (x, mhz')

/-- Point in force of a domain. -/
def State.point (s : State) (d : Nat) : Nat × Nat :=
  (s.get (F.PWR_DOM_STATUS_SETPOINT_MV d), s.get (F.PWR_DOM_STATUS_MHZ d))

/-- The next step of a change is commanded, or the change is done. -/
def State.qualNext (s : State) (q : PwrQual) : State :=
  match q.todo with
  | (mv, mhz) :: _ =>
    let target := (q.todo.getLastD (mv, mhz)).1
    let s1 := if mv = (s.point q.dom).1 then s else s.setpoint q.dom mv (min (s.point q.dom).1 (min mv target))
    let s2 := if q.dom = 0 then s1.set (F.PWR_DOM_STATUS_MHZ 0) mhz else s1
    s2.withPwr { s2.pwr with qual := some q }
  | [] =>
    let s1 := (s.withPwr { s.pwr with qual := none }).sets
      [(F.PWR_DOM_STATUS_QUALIFYING q.dom, 0), (F.PWR_OP_STATUS_BUSY, 0),
       (F.PWR_DOM_STATUS_WARN_MV q.dom, warnMv (s.point q.dom).1)]
    if !q.back then (s1.set F.PWR_OP_STATUS_LAST_FC 0).commitApplied F.PWR_OP_COMMIT_PENDING F.PWR_OP_GEN_GEN
    else if s1.get F.PWR_OP_COMMIT_PENDING = 1 then
      ((s1.set F.PWR_OP_COMMIT_PENDING 0).set F.PWR_OP_STATUS_LAST_FC 0x0203).sdlFault 3 q.dom 0
    else s1

/-- A raise of the setpoint comes first: a change in progress in the domain starts from the raised point (R499). -/
def State.requalify (s : State) (d : Nat) : State :=
  match s.pwr.qual with
  | some q =>
    if q.dom = d ∧ !q.back then
      let target := q.todo.getLastD (s.point d)
      s.qualNext { q with todo := opSteps (s.point d).1 (s.point d).2 target.1 target.2, done := s.point d :: q.done }
    else s
  | none => s

/-- The sensor with the smallest margin below `WARN_PS`, if any: the setpoint rises by 10 mV (R496). -/
def State.marginRaise (s : State) (d : Nat) : State :=
  let low := (s.domainReadings d).foldl (fun (a : Option (Nat × Sensor)) x =>
    match a with
    | some y => if x.2.margin < y.2.margin then some x else a
    | none => some x) none
  match low with
  | some (i, x) =>
    if x.margin < (s.get F.SDL_THRESH_WARN_PS : Int) then
      let mv := min 950 (s.get (F.PWR_DOM_STATUS_SETPOINT_MV d) + 10)
      (if mv = s.get (F.PWR_DOM_STATUS_SETPOINT_MV d) then s else (s.setpoint d mv mv).requalify d).sdlFault 5 d i
    else s
  | none => s

def execSundialSample (readings : List (Option (Nat × Nat × Nat))) (s : State) : Res :=
  let s1 := s.sampleFrom 0 (readings.take 512)
  .next ((List.range 8).foldl (fun (s : State) d => (s.summarise d).marginRaise d) s1)

/-- The change turns back, through the points it has left (R495). -/
def State.qualBack (s : State) (q : PwrQual) : State :=
  if q.back then s.qualNext { q with todo := q.todo.drop 1 }
  else s.qualNext { q with todo := q.done, done := [], back := true }

/-- GO on the operating point: refused outside Table 18-6, else qualification starts. -/
def State.opGo (s : State) : State :=
  let d := s.get F.PWR_OP_SEL_STG_DOMAIN
  let mv := s.get F.PWR_OP_MV_STG_MV
  let mhz := s.get F.PWR_OP_MHZ_STG_MHZ
  let mhzOk := if d = 0 then decide (400 ≤ mhz) && decide (mhz ≤ 3000) && mhz % 100 == 0 else mhz == 0
  if s.get F.PWR_OP_COMMIT_PENDING = 1 ∨ s.get F.PWR_OP_STATUS_BUSY = 1 then s
  else if mv < 600 ∨ 950 < mv ∨ !mhzOk then (s.set F.PWR_OP_STATUS_LAST_FC 0x0109).pwrFault 9 d
  else
    let s1 := (s.commitGo F.PWR_OP_COMMIT_PENDING).sets [(F.PWR_OP_STATUS_BUSY, 1), (F.PWR_DOM_STATUS_QUALIFYING d, 1)]
    s1.qualNext { dom := d, todo := opSteps (s.point d).1 (s.point d).2 mv mhz, done := [s.point d], back := false }

def execPwrOpCommitGo (s : State) : Res := .next s.opGo

/-- CANCEL of a change in progress: it goes back, without a condition. -/
def State.opCancel (s : State) : State :=
  match s.pwr.qual with
  | some q => if s.get F.PWR_OP_COMMIT_PENDING = 1 then (s.set F.PWR_OP_COMMIT_PENDING 0).qualBack q else s
  | none => s

/-- A step has settled and its quick check has run. -/
def execQualifyStepEnd (readings : List (Option (Nat × Nat × Nat))) (s : State) : Res :=
  match s.pwr.qual with
  | none => .next s
  | some q =>
    if s.held q.dom then .next s
    else
      let (pass, s1) := s.quickCheck q.dom readings
      match q.todo with
      | [] => .next (s1.qualNext q)
      | p :: t =>
        if pass ∨ q.back then .next (s1.qualNext { q with todo := t, done := if q.back then q.done else p :: q.done })
        else .next (s1.qualBack { q with done := q.done })

/-- The rail has not reached its setpoint within 500 µs of the command: the step has failed. -/
def execRailSettleTimeout (s : State) : Res :=
  match s.pwr.qual with
  | none => .next s
  | some q => if s.held q.dom then .next s else .next ((s.pwrFault 8 q.dom).qualBack q)

/-- The conditions of a re-plan that is due or overdue, each recorded once (R497). -/
def State.replanCheck (s : State) : State :=
  let h := s.get F.SDL_OP_HOURS_HOURS
  let at' := s.get F.SDL_REPLAN_DUE_AT_DUE
  let s1 := if at' ≤ h ∧ !s.pwr.due then (s.withPwr { s.pwr with due := true }).sdlFault 1 0 0 else s
  if at' + s.get F.SDL_REPLAN_CFG_INTERVAL_H ≤ h ∧ !s.pwr.overdue then
    (s1.withPwr { s1.pwr with overdue := true }).sdlFault 2 0 0
  else s1

/-- An operating hour has passed, outside device Night and thermal trip. -/
def execOperatingHour (s : State) : Res :=
  if s.phase = phNight ∨ s.pwr.trip then .next s
  else .next (s.wrapBy F.SDL_OP_HOURS_HOURS 1).replanCheck

def State.replanDone (s : State) : State :=
  let h := s.get F.SDL_OP_HOURS_HOURS
  (s.withPwr { s.pwr with doneAt := some h, due := false, overdue := false }).set F.SDL_REPLAN_DUE_AT_DUE
    (h + s.get F.SDL_REPLAN_CFG_INTERVAL_H)

def execSdlReplanDone (s : State) : Res := .next s.replanDone

/-- A write of INTERVAL_H. Before the first re-plan since power-on the due hour stays. -/
def State.replanInterval (s : State) (v : Nat) : State :=
  if v = 0 ∨ 720 < v then s.common uSdl 0xFF
  else
    let s1 := s.set F.SDL_REPLAN_CFG_INTERVAL_H v
    match s.pwr.doneAt with
    | none => s1
    | some h =>
      let s2 := s1.set F.SDL_REPLAN_DUE_AT_DUE (h + v)
      (s2.withPwr { s2.pwr with
          due := s.pwr.due && decide (h + v ≤ s.get F.SDL_OP_HOURS_HOURS)
          overdue := s.pwr.overdue && decide (h + v + v ≤ s.get F.SDL_OP_HOURS_HOURS) }).replanCheck

def execReplanIntervalWrite (value : Nat) (s : State) : Res := .next (s.replanInterval value)

/-! ### Reset pins (R417, R503, R571, R572, R575) -/

/-- PERST of a port falls. -/
def execPerstAssert (port : Nat) (s : State) : Res :=
  let s1 := s.withPins (if port = 0 then { s.pins with perst0 := false } else { s.pins with perst1 := false })
  let was := if port = 0 then s.pins.perst0 else s.pins.perst1
  if !s.pins.sysRst ∨ !was then .next s1
  else if s.phase = phNight then .next s1.wakeEvent
  else .next ((List.range (linkCount (s.strap port))).foldl (fun (s : State) l => s.linkDownEvent port l) s1.wakeEvent)

/-- PERST of a port rises: training of its links may begin. -/
def execPerstDeassert (port : Nat) (s : State) : Res :=
  let s1 := s.withPins (if port = 0 then { s.pins with perst0 := true } else { s.pins with perst1 := true })
  if !s.pins.sysRst then .next s1
  else .next ((List.range (linkCount (s.strap port))).foldl (fun (s : State) l => s.emit (.pcieLink port l "training" 0)) s1)

/-- SYS_RST_N falls: the device is held in reset; a trip that waits for it is released. -/
def execSysRstAssert (s : State) : Res :=
  if !s.pins.lodgePg then .next (s.withPins { s.pins with sysRst := false })
  else
    let s1 := (if s.pwr.trip ∧ s.get F.PWR_THERM_CFG_AUTO_RESTART = 0 then s.tripRelease else s).coreReset true
    .next ((s1.withPins { s1.pins with sysRst := false }).withBoot { s1.boot with warm := none })

/-- SYS_RST_N rises: straps are sampled, setpoints commanded, and a full boot starts. -/
def execSysRstDeassert (bif0 bif1 bootSrc : Nat) (healthy : Bool) (s : State) : Res :=
  let s0 := s.withPins { s.pins with sysRst := true, bif0 := bif0 % 4, bif1 := bif1 % 4, bootSrc := bootSrc % 4 }
  let s1 := s0.sets [(F.HIF_PORT_STATUS_BIF 0, bif0 % 4 % 3), (F.HIF_PORT_STATUS_BIF 1, bif1 % 4 % 3),
    (F.BOOT_STATUS_SRC_STRAP, bootSrc % 4)]
  if !s.pins.lodgePg ∨ s.pins.sysRst then .next (s.withPins { s.pins with sysRst := true })
  else if s.pins.thermtrip then .next s1
  else
    let s2 := s1.startReset (if s.pwr.powerOn then causePower else causeSysRst) healthy
    let s3 := s2.withPwr { s2.pwr with powerOn := false }
    .next ((List.range 8).foldl (fun (s : State) d => s.emit (.avs d (s.point d).1)) s3)

/-- LODGE_PG falls: everything, the lodge included, is reset. -/
def execLodgePgFall (s : State) : Res :=
  .next (s.lodgeReset.withPins { s.pins with lodgePg := false, thermtrip := false })

/-- LODGE_PG rises: keys are derived, and a full boot follows once SYS_RST_N is high. -/
def execLodgePgRise (healthy : Bool) (s : State) : Res :=
  if s.pins.lodgePg then .next s
  else
    let s1 := s.withPins { s.pins with lodgePg := true }
    .next (if s.pins.sysRst then
        let s2 := s1.startReset causePower healthy
        s2.withPwr { s2.pwr with powerOn := false }
      else s1.drawEpoch healthy)

end Sys2Proof.Machine
end

