-- ==== Sys2Proof/Machine/Boot.lean ====
section
/-! DEFINITION. Boot: the ROM stage, images and slots, host push, stage 2, WARM, and flash commands
(19_boot.md). -/

namespace Sys2Proof.Machine

/-- The image store, and the length it holds (R511). -/
abbrev imgStore : Nat := 0x010000000000
abbrev imgMax : Nat := 268369920

/-- BOOT records a condition, with the source of the image concerned (Table 19-10). -/
def State.bootFault (s : State) (cond : Nat) : State :=
  s.fault uBoot cond (cond - 1) (s.get F.BOOT_STATUS_SOURCE * 2 ^ 32)

/-- A command is refused (Table 19-12): its status register and FC 0x000A. -/
def State.bootRefuse (s : State) (lastFc : Fld) : State := (s.set lastFc 0x0A).bootFault 0x0A

/-! ### Images (R510, R511) -/

/-- A component entry of a header (Table 19-4). -/
def compEntry (h : List Byte) (i : Nat) : List Byte := bytesAt h (0x100 + 96 * i) 96
def compType (e : List Byte) : Nat := leAt e 0 1
def compOff (e : List Byte) : Nat := leAt e 8 8
def compLen (e : List Byte) : Nat := leAt e 16 8
def compLoad (e : List Byte) : Nat := leAt e 24 8
def compDigest (e : List Byte) : List Byte := bytesAt e 32 48

abbrev compStage2 : Nat := 1
abbrev compPlan : Nat := 2
abbrev compUcode : Nat := 3
abbrev compRom : Nat := 4

/-- The entries in use. -/
def components (h : List Byte) : List (List Byte) := (List.range (min 16 (leAt h 0x0D 1))).map (compEntry h)
def compOf (h : List Byte) (ty : Nat) : Option (List Byte) := (components h).find? fun e => compType e == ty
def imgTotal (h : List Byte) : Nat := leAt h 0x20 8
def imgArbOf (h : List Byte) : Nat := leAt h 0x10 4

/-- One component entry by itself; `ddrEnd` is the end of installed DDR. -/
def compOk (total ddrEnd : Nat) (e : List Byte) : Bool :=
  let ty := compType e
  let n := compLen e
  (bytesAt e 1 7 ++ bytesAt e 80 16).all (· == 0) &&
  ([1, 2, 3, 4].contains ty || (decide (0x10 ≤ ty) && decide (ty ≤ 0x1F))) &&
  compOff e % 4096 == 0 && decide (0x3000 ≤ compOff e) && decide (compOff e + n ≤ total) &&
  (ty != compStage2 || (decide (4096 ≤ n) && decide (n ≤ 33554432))) &&
  (ty != compPlan || decide (n ≤ 67108864)) && (ty != compRom || decide (n ≤ 917504)) &&
  (if ty = compStage2 then compLoad e % 4096 == 0 && decide (0x010014000000 ≤ compLoad e) &&
      decide (compLoad e + n ≤ ddrEnd)
    else compLoad e == 0)

/-- Header, trailer and gap meet Tables 19-3 and 19-4 and R510. -/
def imageForm (h t gap : List Byte) (ddrEnd : Nat) : Bool :=
  let n := leAt h 0x0D 1
  let cs := components h
  let total := imgTotal h
  let one := fun ty => (cs.filter fun e => compType e == ty).length
  bytesAt h 0 8 == ascii "OWBOOT01" && leAt h 8 2 == 1 && leAt h 0x0A 2 == 0x5120 && leAt h 0x0C 1 == 0xB1 &&
  decide (2 ≤ n) && decide (n ≤ 16) && decide (total ≤ imgMax) &&
  (bytesAt h 0x0E 2 ++ bytesAt h 0x14 4 ++ bytesAt h 0x30 208 ++ bytesAt h (0x100 + 96 * n) (96 * (16 - n)) ++
    bytesAt h 0x700 2304 ++ gap).all (· == 0) &&
  bytesAt t 0 8 == ascii "OWBTSG01" && trailerZero t &&
  cs.all (compOk total ddrEnd) && allPairs (fun a b => disjoint (compOff a) (compLen a) (compOff b) (compLen b)) cs &&
  one compStage2 == 1 && one compPlan == 1 && decide (one compUcode ≤ 1) && decide (one compRom ≤ 1) &&
  (match compOf h compStage2 with
   | some e => decide (leAt h 0x28 8 < compLen e)
   | none => false)

/-- The end of installed DDR. -/
def State.ddrEnd (s : State) : Nat := 0x010000000000 + 67108864 * s.ddr.sum

/-- Does an image verify (R511)? `rd` reads it: offset and length. -/
def State.imageVerifies (s : State) (rd : Nat → Nat → List Byte) : Bool :=
  let h := rd 0 4096
  let t := rd 0x1000 4928
  let (ec, pq, id) := s.signChecks keyBoot t (h ++ bytesAt t 0 0x98)
  imageForm h t (rd 0x2340 0xCC0) s.ddrEnd &&
  bytesAt t 8 48 == Config.sha384 (bytesAt h 0x100 1536) && ec && pq && id &&
  decide (s.get F.BOOT_ARB_FLOOR_FLOOR ≤ imgArbOf h) &&
  (components h).all fun e => Config.sha384 (rd (compOff e) (compLen e)) == compDigest e

/-- Reading the image store. -/
def State.storeRead (s : State) (o n : Nat) : List Byte := s.bytes (imgStore + o) n

/-! ### Flash (R512 to R514) -/

def flashDefault (_ : Nat) : Byte := 0xFF
def State.flashBytes (s : State) (a n : Nat) : List Byte :=
  (List.range n).map fun i => spGet flashDefault s.boot.flash (a + i)

/-- Reading the image body of a slot. -/
def State.slotRead (s : State) (k o n : Nat) : List Byte := s.flashBytes (0x10000000 * k + o) n

/-- The commit record of a slot. -/
def State.record (s : State) (k : Nat) : List Byte := s.slotRead k 0x0FFF0000 0x5C

def markSet (r : List Byte) (o : Nat) : Bool := leAt r o 4 == 0
def markTorn (r : List Byte) (o : Nat) : Bool := leAt r o 4 != 0 && leAt r o 4 != 0xFFFFFFFF
def recTorn (r : List Byte) : Bool := markTorn r 0x50 || markTorn r 0x54 || markTorn r 0x58

/-- The state of a record (R513): 0 EMPTY, 1 WRITTEN, 2 VALID, 3 RETIRED. -/
def recState (r : List Byte) : Nat :=
  if bytesAt r 0 8 ≠ ascii "OWCREC01" ∨ !markSet r 0x50 then 0
  else if markSet r 0x58 then 3
  else if markSet r 0x54 then 2
  else 1

def recSeq (r : List Byte) : Nat := leAt r 8 8
def recArb (r : List Byte) : Nat := leAt r 0x10 4

def slotStateFld (k : Nat) : Fld := ⟨R.BOOT_SLOT_STATE, 8 * k + 3, 8 * k⟩
def slotResultFld (k : Nat) : Fld := ⟨R.BOOT_SLOT_STATE, 8 * k + 7, 8 * k + 4⟩

/-- Torn marks of a record reported (R513). -/
def State.tornCheck (s : State) (k : Nat) : State :=
  if recTorn (s.record k) then (s.set F.BOOT_STATUS_TORN 1).bootFault 4 else s

/-- The commit records are read and the candidates ordered (R513, R514). -/
def State.readRecords (s : State) : State :=
  let a := s.record 0
  let b := s.record 1
  let s1 := ((s.tornCheck 0).tornCheck 1).sets
    [(slotStateFld 0, recState a), (slotStateFld 1, recState b), (F.BOOT_SLOTA_SEQ_SEQ, recSeq a),
     (F.BOOT_SLOTB_SEQ_SEQ, recSeq b),
     (F.BOOT_STATUS_DUAL_VALID, if recState a = 2 ∧ recState b = 2 then 1 else 0)]
  let cand := fun k r => recState r == 2 && decide (s.get F.BOOT_ARB_FLOOR_FLOOR ≤ recArb r) && !s.boot.excluded.contains k
  let out := fun (s : State) (k : Nat) => if s.boot.excluded.contains k then s.set (slotResultFld k) 3 else s
  let s2 := out (out s1 0) 1
  if cand 0 a && cand 1 b then
    let tied := recSeq a == recSeq b || (decide (recSeq b < recSeq a) && decide (recArb a < recArb b)) ||
      (decide (recSeq a < recSeq b) && decide (recArb b < recArb a))
    let first := if tied then decide (recArb b ≤ recArb a) else decide (recSeq b < recSeq a)
    let s3 := if tied then (s2.set F.BOOT_STATUS_TIE 1).bootFault 3 else s2
    s3.withBoot { s3.boot with todo := if first then [0, 1] else [1, 0] }
  else
    (s2.withBoot { s2.boot with
        todo := (if cand 0 a then [0] else []) ++ if cand 1 b then [1] else [] })

/-- Does a slot meet its record and R511? `rd` reads the image to be verified. -/
def State.slotVerifies (s : State) (k : Nat) (rd : Nat → Nat → List Byte) : Bool :=
  let r := s.record k
  decide (leAt r 0x18 8 ≤ imgMax) && leAt r 0x18 8 == imgTotal (rd 0 4096) && s.imageVerifies rd &&
  bytesAt r 0x20 48 == Config.sha384 (rd 0 (leAt r 0x18 8))

/-! ### Phases -/

/-- One more image tried since the start. -/
def State.attempt (s : State) : State :=
  s.set F.BOOT_STATUS_ATTEMPTS (satInc 255 (s.get F.BOOT_STATUS_ATTEMPTS))

def State.setPhase (s : State) (p : Nat) : State := s.set F.BOOT_STATUS_PHASE p

/-- Every HBM granule is marked (R440, R509). -/
def State.markHbm (s : State) : State := s.zeroRange 0 0x1800000000

/-- All harts leave reset in the boot ROM (R506); all but hart 0 lock their PMP entries, enable identity 1 of their M-level
interrupt file, and wait. -/
def State.romHarts (s : State) : State :=
  let s1 := (s.wr R.APC_HART_ONLINE0 (2 ^ 64 - 1)).wr R.APC_HART_ONLINE1 (2 ^ 32 - 1)
  (List.range 96).foldl (fun (s : State) h =>
    s.setHart h { hartReset h with
      pc := s.get F.PWR_HART_ENTRY_ADDR, wfi := h != 0, pmp := if h = 0 then [] else [pmpSecret, pmpRom]
      files := if h = 0 then [] else [(8, ⟨true, 0, 0, 2⟩)] }) s1

/-- What training found, in `MEM_DDR_INFO`; a channel out of service is in Night. -/
def State.ddrInfo (s : State) : State :=
  let s1 := s.sets [(F.MEM_DDR_INFO_SIZE_64M, s.ddr.sum),
    (F.MEM_DDR_INFO_CHANNELS, (List.range 4).foldl (fun v c => v + if s.ddr.getD c 0 = 0 then 0 else 2 ^ c) 0)]
  (List.range 4).foldl (fun (s : State) c =>
    if s.ddr.getD c 0 = 0 then s.setTile (834 + c) { s.tile (834 + c) with sky := 3 } else s) s1

/-- The boot hart, which takes every step of phases 1 to 3, stands in Hold (R487, R506, R526). -/
def State.bootHeld (s : State) : Bool := (s.tile (hartTile 0)).hold

/-- Phase 1 starts, which trains DDR; at a Night wake with an image retained, WARM does, which does not (R437, R523). -/
def execRomStart (s : State) : Res :=
  if s.phase ≠ phLodge ∨ !s.pins.lodgePg ∨ !s.pins.sysRst ∨ s.boot.rbgWait ∨ s.pwr.trip then .next s
  else
    let s1 := s.romHarts
    .next (if s.boot.warm.isSome then (s1.markHbm.ddrInfo).setPhase phWarm
      else (s1.withDdr [0, 0, 0, 0]).setPhase phRom)

/-- DDR training ends (R437, R509): the capacity of each channel in units of 64 MiB, 0 where it is not in
service, and the channels that failed. -/
def execDdrTrainingEnd (sizes failed : List Nat) (s : State) : Res :=
  if s.phase ≠ phRom ∨ s.bootHeld then .next s
  else
    let size := fun c => if failed.contains c then 0 else sizes.getD c 0
    let s1 := ((s.withDdr ((List.range 4).map size))).ddrInfo
    let s2 := ((List.range 4).filter failed.contains).foldl (fun (s : State) c => s.fault uMem 7 6 ((128 + c) * 2 ^ 32)) s1
    .next (if s2.ddr.sum < 256 then (s2.bootFault 9).setPhase phHalted else s2)

/-- HBM is initialised and marked; selection of an image begins (R504, R509). -/
def execHbmInitEnd (s : State) : Res :=
  if s.phase ≠ phRom ∨ s.bootHeld ∨ s.get F.MEM_DDR_INFO_SIZE_64M < 256 then .next s
  else
    let s1 := s.markHbm
    .next (if s.get F.BOOT_STATUS_SRC_STRAP = 1 ∨ s.get F.BOOT_STATUS_SOURCE = 0 then s1.setPhase phHostWait
      else s1.setPhase phSelect)

/-- No candidate is left (R514). -/
def State.noSlot (s : State) : State := (s.bootFault 5).setPhase phHostWait

/-- The next candidate has been copied to the image store; first, the records are read. `readable`: does
the flash answer? -/
def execImageCopyEnd (readable : Bool) (s : State) : Res :=
  if s.phase ≠ phSelect ∨ s.bootHeld ∨ s.boot.copied then .next s
  else if !readable then .next (s.bootFault 0x0C).noSlot
  else
    let s1 := if s.boot.slot = none then s.readRecords else s
    match s1.boot.todo with
    | [] => .next s1.noSlot
    | k :: t =>
      let body := s1.slotRead k 0 (min imgMax (leAt (s1.record k) 0x18 8))
      let s2 := (s1.putBytes imgStore body).attempt
      .next (s2.withBoot { s2.boot with todo := t, slot := some k, copied := true })

/-- Every other hart gets identity 1, and the harts jump to stage 2 (R506, R507, R534) of the image in the image store. -/
def State.stage2 (s : State) (source seq : Nat) : State :=
  let h := s.storeRead 0 4096
  let t := s.storeRead 0x1000 4928
  let e := (compOf h compStage2).getD []
  let s1 := s.putBytes (compLoad e) (s.storeRead (compOff e) (compLen e))
  let s2 := (s1.setDigest R.BOOT_MEAS (Config.sha384 (h ++ t))).setDigest R.WKT_S2_MEAS (compDigest e)
  let s3 := s2.sets [(F.BOOT_STATUS_SOURCE, source), (F.BOOT_SEQ_SEQ, seq), (F.BOOT_IMG_LEN_LEN, imgTotal h),
    (F.BOOT_IMG_ARB_ARB, imgArbOf h), (F.BOOT_STATUS_PHASE, phStage2)]
  let s4 := ((s3.withBoot { s3.boot with inForce := true, imgVer := leAt h 0x18 8, copied := false }).withWkt { s3.wkt with lock := true })
  ((List.range 96).filter s4.online).foldl (fun (s : State) k =>
    s.setHart k { (if k = 0 then s.hart k else (s.hart k).setFile 8 (((s.hart k).file 8).pend 1)) with
      pc := compLoad e + leAt h 0x28 8, a0 := k, a1 := imgStore, wfi := false, pmp := [pmpSecret, pmpRom] }) s4

/-- The checks of the image copied end (R511, R514). -/
def execSignatureVerifyEnd (s : State) : Res :=
  match s.boot.slot with
  | some k =>
    if s.phase ≠ phSelect ∨ s.bootHeld ∨ !s.boot.copied then .next s
    else if s.slotVerifies k s.storeRead then
      .next ((s.set (slotResultFld k) 1).stage2 (1 + k) (recSeq (s.record k)))
    else
      let s1 := ((s.set (slotResultFld k) 2).set F.BOOT_STATUS_FAIL_FC (1 + k)).fault uBoot (1 + k) k ((1 + k) * 2 ^ 32)
      let s2 := s1.withBoot { s1.boot with copied := false }
      .next (if s.boot.todo = [] then s2.noSlot else s2)
  | none => .next s

/-! ### WARM (R523, R524) -/

/-- WARM ends in a full boot. -/
def State.warmFallback (s : State) : State :=
  ((s.withBoot { s.boot with warm := none }).sets
    [(F.BOOT_STATUS_WARM_FALLBACK, 1), (F.BOOT_STATUS_FAIL_FC, 8)]).bootFault 8

def execWarmCheckEnd (s : State) : Res :=
  match s.boot.warm with
  | none => .next s
  | some w =>
    if s.phase ≠ phWarm ∨ s.bootHeld then .next s
    else
      let h := s.storeRead 0 4096
      let t := s.storeRead 0x1000 4928
      let good := Config.sha384 (h ++ t) == w.meas &&
        (components h).all (fun e => !([compStage2, compUcode, compRom].contains (compType e)) ||
          Config.sha384 (s.storeRead (compOff e) (compLen e)) == compDigest e) &&
        Config.sha384 (s.bytes warmCopyAddr w.len) == w.digest &&
        decide (s.get F.BOOT_ARB_FLOOR_FLOOR ≤ imgArbOf h) && decide (s.get F.SITE_ARB_FLOOR_FLOOR ≤ w.siteArb)
      .next (if good then s.attempt.stage2 3 w.seq else s.attempt.warmFallback.setPhase phRom)

/-- The sections of a warm plan copy: each header, and its body but for an ANNOTATION's. -/
def warmSections (c : List Byte) : Nat → Nat → List Section
  | 0, _ => []
  | fuel + 1, o =>
    if c.length < o + 64 then []
    else
      let h := bytesAt c o 64
      let ty := leAt h 7 1
      let len := if ty = secAnnotation then 0 else leAt h 0 4
      { type := ty, inst := leAt h 6 1, layoutVer := leAt h 8 2, retire := false, header := h,
        body := bytesAt c (o + 64) len } :: warmSections c fuel (o + 64 + len)

/-- RESTORE_PLAN: SITE's APPLY of the warm plan copy begins. -/
def State.restorePlan (s : State) : State :=
  match s.boot.warm with
  | none => s.bootRefuse F.BOOT_CMD_STATUS_LAST_FC
  | some w =>
    if s.phase ≠ phStage2 ∨ s.get F.BOOT_STATUS_SOURCE ≠ 3 ∨ s.get F.SITE_STATUS_PHASE ≠ 0 then
      s.bootRefuse F.BOOT_CMD_STATUS_LAST_FC
    else
      let p := warmSections (s.bytes warmCopyAddr w.len) 4096 0
      let s1 := s.sets [(F.BOOT_CMD_STATUS_BUSY, 1), (F.BOOT_CMD_STATUS_LAST_FC, 0), (F.SITE_STATUS_PHASE, 4),
        (F.SITE_COMMIT_PENDING, 1)]
      s1.withSite { s1.site with staged := [], next := p, info := none, diff := differingAll s.plan p, restore := true }

def execRestorePlan (s : State) : Res := .next s.restorePlan

/-! ### FAIL_IMAGE, the stage-2 limit and READY (R519 to R521) -/

/-- The image in force fails with a condition: its slot is excluded, everything but the lodge is reset, and
phase 1 restarts. -/
def State.endImage (s : State) (cond : Nat) : State :=
  let src := s.get F.BOOT_STATUS_SOURCE
  let s1 := (s.set F.BOOT_STATUS_FAIL_FC cond).bootFault cond
  let s2 := if src = 1 ∨ src = 2 then
      let s := s1.set (slotResultFld (src - 1)) 3
      s.withBoot { s.boot with excluded := s.boot.excluded ++ [src - 1] }
    else if src = 3 then s1.warmFallback
    else s1
  ((s2.coreReset false).fltRefresh uBoot).romHarts.markHbm.setPhase phRom

def State.failImage (s : State) : State :=
  if s.phase ≠ phStage2 then s.bootRefuse F.BOOT_CMD_STATUS_LAST_FC
  else (s.sets [(F.BOOT_CMD_STATUS_LAST_FC, 0), (F.BOOT_CMD_STATUS_BUSY, 0)]).endImage 0x0B

def execFailImage (s : State) : Res := .next s.failImage

def execBootStage2LimitExpiry (s : State) : Res :=
  .next (if s.phase = phStage2 ∧ s.pwr.holdAt = [] then (s.set F.BOOT_CMD_STATUS_BUSY 0).endImage 0x0D else s)

/-- The expansion ROM that READY fills from the image in force. -/
def State.optionRom (s : State) : List Byte :=
  match compOf (s.storeRead 0 4096) compRom with
  | some e => s.storeRead (compOff e) (compLen e)
  | none => []

/-- The links that are up, as port and link. -/
def State.upLinks (s : State) : List (Nat × Nat) :=
  ((List.range 2).flatMap fun p => (List.range 4).map fun l => (p, l)).filter fun x => decide (128 ≤ s.linkByte x.1 x.2)

/-- READY (R519): refused, or the sequence that ends bring-up refusal. -/
def State.bootReady (s : State) : State :=
  if s.plan = [] ∨ s.get F.TE_UC_STATUS_STATE ≠ ucSealed ∨
      !((List.range 20).all fun c => s.cluState c == cReleased) ∨ s.get F.SITE_STATUS_PHASE ≠ 0 then
    s.bootRefuse F.BOOT_CMD_STATUS_LAST_FC
  else if s.phase = phReady then s.set F.BOOT_CMD_STATUS_LAST_FC 0
  else
    let rom := s.optionRom
    let s1 := s.withPcie { s.pcie with rom := if rom.all (· == 0) then [] else rom }
    let s2 := (s1.setPhase phReady).set F.BOOT_CMD_STATUS_LAST_FC 0
    let window := if s.get F.BOOT_STATUS_SOURCE = 0 then s.upLinks.filter fun x => x.2 == 0 else []
    let s3 := (s.upLinks.filter fun x => !window.contains x && s.pcie.drs.contains (4 * x.1 + x.2)).foldl (fun (s : State) x => s.emit (.pcieLink x.1 x.2 "DRS" 0)) s2
    let s4 := window.foldl (fun (s : State) x => (s.linkDownEvent x.1 x.2).emit (.pcieLink x.1 x.2 "training" 0)) s3
    let s5 := s4.ports.foldl State.linkStart s4
    (s5.fltRefresh uFlt).replanCheck

def execReady (s : State) : Res := .next s.bootReady

/-! ### Host push (R516, R517) -/

/-- BW_GO written through the DVSEC of PF a of a port. -/
def State.bwGo (s : State) (port : Nat) : State :=
  if s.phase ≠ phHostWait ∨ s.boot.pushing.isSome then s
  else s.withBoot { s.boot with pushing := some (spGet (fun _ => 0) s.pcie.bwLen port) }

def execBwGo (port : Nat) (s : State) : Res := .next (s.bwGo port)

def execPushVerifyEnd (s : State) : Res :=
  match s.boot.pushing with
  | none => .next s
  | some len =>
    let s1 := (s.withBoot { s.boot with pushing := none }).attempt
    if s.bootHeld then .next s
    else if imgTotal (s.storeRead 0 4096) = len ∧ s.imageVerifies s.storeRead then
      .next ((s1.withPcie { s1.pcie with bwResult := 0 }).stage2 0 0)
    else
      let s2 := (s1.set F.BOOT_STATUS_FAIL_FC 6).bootFault 6
      .next (s2.withPcie { s2.pcie with bwResult := 6, bwAttempts := satInc 255 s.pcie.bwAttempts })

/-! ### Slots and flash commands (R515, R527) -/

/-- VERIFY_SLOT: the slot is read. -/
def State.verifySlot (s : State) (slot : Nat) : State :=
  if s.get F.BOOT_CMD_STATUS_BUSY = 1 ∨ (s.phase ≠ phStage2 ∧ s.phase ≠ phReady) then
    s.bootRefuse F.BOOT_CMD_STATUS_LAST_FC
  else ((s.set F.BOOT_CMD_STATUS_BUSY 1).withBoot { (s.set F.BOOT_CMD_STATUS_BUSY 1).boot with verify := some (slot % 2) })

def execVerifySlot (slot : Nat) (s : State) : Res := .next (s.verifySlot slot)

/-- VERIFY_SLOT ends with the first failing condition. -/
def execVerifySlotEnd (readable : Bool) (s : State) : Res :=
  match s.boot.verify with
  | none => .next s
  | some k =>
    let s1 := ((s.set F.BOOT_CMD_STATUS_BUSY 0).withBoot { (s.set F.BOOT_CMD_STATUS_BUSY 0).boot with verify := none })
    if !readable then .next ((s1.bootFault 0x0C).set F.BOOT_CMD_STATUS_LAST_FC 0x0C)
    else
      let r := s.record k
      let good := (recState r == 1 || recState r == 2) && decide (s.get F.BOOT_ARB_FLOOR_FLOOR ≤ recArb r) &&
        s.slotVerifies k (s.slotRead k)
      .next ((s1.tornCheck k).set F.BOOT_CMD_STATUS_LAST_FC (if good then 0 else 1 + k))

/-- A flash command starts (1 READ, 2 PROGRAM, 3 ERASE), or is refused. -/
def State.xspiCmd (s : State) (op : Nat) : State :=
  let a := s.get F.BOOT_XSPI_ADDR_ADDR
  let n := s.get F.BOOT_XSPI_LEN_LEN
  if s.phase ≠ phReady ∨ s.boot.verify.isSome ∨ s.boot.xspi.isSome ∨ n = 0 ∨ 2 ^ 30 < a + n ∨
      (op = 3 ∧ (a % 65536 ≠ 0 ∨ n % 65536 ≠ 0)) then s.bootRefuse F.BOOT_XSPI_STATUS_LAST_FC
  else
    let s1 := s.set F.BOOT_XSPI_STATUS_BUSY 1
    s1.withBoot { s1.boot with xspi := some (op, a, n, s.get F.BOOT_XSPI_BUF_ADDR) }

def execXspiRead (s : State) : Res := .next (s.xspiCmd 1)
def execXspiProgram (s : State) : Res := .next (s.xspiCmd 2)
def execXspiErase (s : State) : Res := .next (s.xspiCmd 3)

/-- Flash bytes programmed (bits are only cleared). -/
def State.program (s : State) (a : Nat) (l : List Byte) : State :=
  (s.withBoot { s.boot with flash := (l.foldl (fun (x : Nat × Sparse Byte) b =>
      (x.1 + 1, spSet flashDefault x.2 x.1 (spGet flashDefault x.2 x.1 &&& b))) (a, s.boot.flash)).2 })

/-- Flash bytes erased. -/
def State.eraseFlash (s : State) (a n : Nat) : State :=
  s.withBoot { s.boot with flash := s.boot.flash.filter fun x => !(decide (a ≤ x.1) && decide (x.1 < a + n)) }

/-- A flash command completes: `readable` where the flash answers, `ecc`: what the ECC check of the
buffer finds. -/
def execXspiCmdEnd (readable : Bool) (ecc : EccResult) (s : State) : Res :=
  match s.boot.xspi with
  | none => .next s
  | some (op, a, n, buf) =>
    let s1 := ((s.set F.BOOT_XSPI_STATUS_BUSY 0).withBoot { (s.set F.BOOT_XSPI_STATUS_BUSY 0).boot with xspi := none })
    let stop := fun (s : State) fc => Host.Outcome.next (s.set F.BOOT_XSPI_STATUS_LAST_FC fc)
    if !readable then stop (s1.bootFault 0x0C) 0x0C
    else if op = 3 then stop (s1.eraseFlash a n) 0
    else if op = 1 then
      if s1.operatorReaches buf n then stop (s1.putBytes buf (s1.flashBytes a n)) 0
      else stop (s1.partViolation buf) 0x1901
    else
      match s1.operatorRead buf n false [] ⟨ecc, .ok⟩ with
      | (some d, s2) => stop (s2.program a d) 0
      | (none, s2) =>
        stop s2 (if !s1.operatorReaches buf n then 0x1901 else if buf < 0x010000000000 then 0x1902 else 0x1903)

/-! ### The random bit generator (R530) -/

/-- The generator passes its test: the epoch is drawn, and the waiting start goes on. -/
def execRbgHealthPass (s : State) : Res := .next (if s.boot.rbgWait then s.drawEpoch true else s)

end Sys2Proof.Machine
end

