-- ==== Sys2Proof/Machine/Cph.lean ====
section
/-! DEFINITION. Cipher pairs: admission, computation, release, pair states and key operations (R254
to R272, R537, R538). -/

namespace Sys2Proof.Machine

/-! ### Admission (R254, R257, R259) -/

/-- Does the queue move back to its pair, so that its requests wait at the front end (R269)? -/
def State.cphMoving (s : State) (q : Nat) : Bool :=
  s.get (F.CPH_Q_STATE_ON_ALT q) == 1 && s.pairState (cphQPair s.plan q) == 0

/-- May the queue be used at this pair: check 1 of Table 10-2? A queue that is still to move back (R269) ends at its
alternate what has been forwarded there. -/
def State.cphQueueOk (s : State) (p : Nat) (m : Packet) : Bool :=
  let q := hGet m.words CH.dstQueue
  decide (q < 256) && cphQPresent s.plan q && !s.underAmendment secCphAlloc 0 q &&
  (cphQPair s.plan q == p || (cphQAlt s.plan q == p && (s.pairState (cphQPair s.plan q) == 1 || s.cphMoving q))) &&
  s.get (F.CPH_Q_CFG_EN q) == 1 &&
  (hGet m.words CH.kind == kCommand || s.get (F.CPH_Q_CFG_INLINE_OP q) != 0)

/-- A request as it arrives at pair `p`, read by its form: operation, parameter block, bytes that pass
through and inline input; `none` where check 4 refuses it whatever the slot. -/
def cphParse (inlineOp : Nat) (m : Packet) : Option (Nat × List Byte × List Byte × List Byte) :=
  let len := m.payload.length
  if hGet m.words CH.kind = kCommand then
    let op := hGet m.words CH.opcode
    let b := bytesAt m.payload 0 64
    if opExists op ∧ 64 ≤ len ∧ hGet m.words CH.operand % 2 ^ 24 = 0 ∧ pbWellFormed op b ∧
        len = (if pbRef b then 64 else 64 + inputLen op b) then
      some (op, b, [], m.payload.drop 64)
    else none
  else
    let l4 := natBits (hGet m.words CH.offsets) 31 24
    let start := if inlineOp = opEspDecap then 2 * l4 else 0
    if (inlineOp = opEspDecap ∧ l4 = 0xFF) ∨ len < start ∨ 65536 < len - start then none
    else some (inlineOp, pbOfPacket (len - start), m.payload.take start, m.payload.drop start)

/-- Check 5: the slot is in the queue's range. -/
def cphSlotInRange (p : Plan) (q slot : Nat) : Bool :=
  decide (cphQSlotBase p q ≤ slot) && decide (slot < cphQSlotBase p q + cphQSlotCount p q)

/-- Refusal of a request of queue `q` with a status and the fault code of its check (0: none). -/
def State.cphFail (s : State) (p q slot : Nat) (m : Packet) (status cond : Nat) : State :=
  let s1 := if cond = 0 then s else s.cphFault cond p q slot
  let s2 := if q < 256 ∧ cphQPresent s.plan q then s1.count (F.CPH_Q_REFUSED_COUNT q) else s1
  s2.cphRefuseInOrder p q (hGet m.words CH.kind == kPacket) m.words status

/-- Checks 4 to 8 on a request whose slot is in the cache when it is in the queue's range. `rec0` is the
slot's content; `ecc` what the ECC check of referenced input finds. -/
def State.cphAdmit (s : State) (p q slot : Nat) (m : Packet) (op : Nat) (b pre inl rec0 : List Byte)
    (ecc : EccResult) : State :=
  let w := m.words
  let td := hGet w CH.td
  let packet := hGet w CH.kind == kPacket
  let compat := cphQCompat s.plan q
  let inRange := cphSlotInRange s.plan q slot
  let valid := inRange && krState rec0 == 1
  let out := outputMax op compat b
  if (valid ∧ !pbModeOk op b rec0) ∨ (!pbRef b ∧ 65535 < out) then s.cphFail p q slot m 0x05 0x01
  else if !valid ∨ krOwner rec0 ≠ td ∨ !opFits op rec0 then s.cphFail p q slot m 0x03 0x03
  else if !lengthOk op compat b rec0 (if pbRef b then s.bytes (pbSrc b) (inputLen op b) else inl) then s.cphFail p q slot m 0x01 0x02
  else if pbRef b ∧ (!tdOwnsRange s.plan td (pbSrc b) (inputLen op b) ∨ !tdOwnsRange s.plan td (pbDst b) out) then
    let bad := if tdOwnsRange s.plan td (pbSrc b) (inputLen op b) then pbDst b else pbSrc b
    (s.partViolation bad).cphFail p q slot m 0x06 0x05
  else
    let bad := pbRef b && (ecc.bad || s.poisoned (pbSrc b) (inputLen op b))
    let input := if pbRef b then s.bytes (pbSrc b) (inputLen op b) else inl
    let ahead := (s.cph.reqs.filter fun (r : CphReq) =>
      r.slot == slot && r.op == opTlsOpen && r.admitted && r.old.isNone).length
    let outbound := opFramed op && !opInbound op
    let seq := if outbound then krSeq rec0 else if opFramed op then inboundSeq op rec0 input ahead else 0
    if outbound ∧ seqMax rec0 ≤ krSeq rec0 then s.cphFail p q slot m 0x09 0x07
    else if opFramed op ∧ opInbound op ∧ !bad ∧ seqSeen rec0 seq then
      (s.count F.CPH_REPLAY_COUNT).cphFail p q slot m 0x0A 0
    else
      let s0 := if pbRef b then s.memRead ecc (pbSrc b) else s
      let s1 := if outbound then s0.touchSlot slot (krSetSeq rec0 (seq + 1)) true else s0.touchSlot slot rec0
        ((s.cachedSlot slot).map KeyWay.dirty |>.getD false)
      let s2 := s1.wrapBy (F.CPH_Q_REQS_COUNT q) 1
      let r : CphReq := ⟨q, p, packet, true, w, op, b, pre, input, slot, rec0, seq, 0, 0, 0, [], compat,
        s.get (F.CPH_Q_NEXT_NEXT_EP q), s.get (F.CPH_Q_NEXT_NEXT_QUEUE q), none, none⟩
      let r1 := if bad then { r with phase := 2, status := 0x08 } else r
      s2.setReqs (s2.cph.reqs ++ [if s.pairState p = 0 then r1 else s2.cphForwardReq p r1])

/-- The request of a forwarded header that arrives at its alternate: its place among the requests. -/
def State.cphCrossed (s : State) (p : Nat) (m : Packet) : Option Nat :=
  s.cph.reqs.findIdx? (crossingHeader p m)

/-- An admitted request has crossed to the alternate: it is computed there, or ends with 0x07 where the alternate
has left SERVICE meanwhile (R268). One that a wicket opening has ended keeps its status. -/
def State.cphArrives (s : State) (p : Nat) (r : CphReq) (poison : Bool) : CphReq :=
  if r.status ≠ 0 then { r with phase := 2 }
  else if poison then { r with phase := 2, status := 0x08 }
  else if s.pairState p = 0 then { r with phase := 0 } else { r with phase := 2, status := 0x07 }

/-- An arriving request of a queue whose pair is QUARANTINED goes on to the alternate, unadmitted (R268). -/
def State.cphForwardArriving (s : State) (p q : Nat) (m : Packet) : State :=
  let r : CphReq := ⟨q, cphQAlt s.plan q, hGet m.words CH.kind == kPacket, false, m.words, 0, [], [], m.payload, 0, [], 0, 3,
    0, 0, [], false, 0, 0, none, none⟩
  (s.setReqs (s.cph.reqs ++ [r])).cphSendAcross p r

/-- A lookup finds the slot in the cache: a hit, unless the request is the one that missed it. -/
def State.cphLookup (s : State) (slot : Nat) (way : KeyWay) : State :=
  if way.fetched then
    s.setKeyWays (slot % 1024) ((s.keyWays (slot % 1024)).map fun w => if w.slot = slot then { w with fetched := false } else w)
  else s.wrapBy F.CPH_CACHE_HITS_COUNT 1

/-- The checks of Table 10-2 on a header at its pair; one whose slot is not in the cache waits for its fetch, one of a
pair in TESTING or of a queue that is to move back waits at the front end (R254, R269). `s`: before it is taken. -/
def State.cphCheck (s taken : State) (pair : Nat) (m : Packet) (ecc : EccResult) : State :=
  let q := hGet m.words CH.dstQueue
  let kind := hGet m.words CH.kind
  let slot := hGet m.words CH.keySlot
  if kind ≠ kCommand ∧ kind ≠ kPacket then
    (taken.count F.CPH_PKT_DROP_COUNT).cphFault 0x01 pair q slot
  else if q < 256 ∧ cphQPresent s.plan q ∧ (cphQPair s.plan q = pair ∨ cphQAlt s.plan q = pair) ∧ s.pairState pair = 2 then s
  else if q < 256 ∧ cphQPresent s.plan q ∧ s.pairState pair = 1 ∧ s.cphForwards pair q then taken.cphForwardArriving pair q m
  else if !s.cphQueueOk pair m then taken.cphFail pair q slot m 0x04 0x04
  else if s.cphMoving q ∧ cphQPair s.plan q = pair then s
  else if !cphQShared s.plan q ∧ hGet m.words CH.td ≠ cphQTd s.plan q then taken.cphFail pair q slot m 0x04 0x04
  else if m.poison ∨ hGet m.words CH.poison = 1 then taken.cphFail pair q slot m 0x08 0
  else
    match cphParse (s.get (F.CPH_Q_CFG_INLINE_OP q)) m with
    | none => taken.cphFail pair q slot m 0x05 0x01
    | some (op, b, pre, inl) =>
      if !cphSlotInRange s.plan q slot then taken.cphAdmit pair q slot m op b pre inl krEmpty ecc
      else
        match s.cachedSlot slot with
        | some way => (taken.cphLookup slot way).cphAdmit pair q slot m op b pre inl way.record ecc
        | none => s

/-- The front end of a pair takes the arriving request at place `index` of those that wait, the first of its queue
(R255): one that crossed to this alternate goes on, every other is checked. -/
def execCphAdmission (pair index : Nat) (ecc : EccResult) (s : State) : Res :=
  let box := s.inboxOf (cphEp pair)
  match box[index]? with
  | none => .next s
  | some m =>
    let q := hGet m.words CH.dstQueue
    let taken := s.setInbox (cphEp pair) (box.eraseIdx index)
    if !s.ready ∨ s.epHeld (cphEp pair) ∨ (box.take index).any (fun (x : Packet) => hGet x.words CH.dstQueue == q) then .next s
    else
      match s.cphCrossed pair m with
      | none => .next (s.cphCheck taken pair m ecc)
      | some i =>
        match s.cph.reqs[i]? with
        | none => .next s
        | some r =>
          if s.pairState pair = 2 ∧ r.status = 0 then .next s
          else if r.admitted then .next (taken.setReqs (s.cph.reqs.set i (s.cphArrives pair r m.poison)))
          else .next (s.cphCheck (taken.setReqs (s.cph.reqs.eraseIdx i)) pair m ecc)

/-- A waiting request that looks for a slot: its pair and queue. -/
def State.slotWanted (s : State) (slot : Nat) : Option (Nat × Nat) :=
  ((List.range 32).filterMap fun p =>
    ((s.inboxOf (cphEp p)).find? fun (m : Packet) => hGet m.words CH.keySlot == slot).map fun m =>
      (p, hGet m.words CH.dstQueue)).head?

/-- Is there no place for a further slot in a set: sixteen ways, all pinned? -/
def State.setFull (s : State) (set : Nat) : Bool :=
  (s.keyWays set).all (fun (w : KeyWay) => s.pinned w.slot) && decide (16 ≤ (s.keyWays set).length)

/-- A fetched slot joins its set. -/
def State.slotArrives (s : State) (n : Nat) (r : List Byte) : State :=
  s.setKeyWays (n % 1024) (⟨n, r, false, true⟩ :: (s.keyWays (n % 1024)).filter fun w => w.slot != n)

/-- A key-cache miss of a waiting request: the record is read and unwrapped; one that cannot be counts
as not valid (R262, R263). In Hold the cache stops (R272). -/
def execKeySlotFetch (slot : Nat) (ecc : EccResult) (s : State) : Res :=
  match s.cachedSlot slot, s.slotWanted slot with
  | none, some (p, q) =>
    if s.cphHeld ∨ s.setFull (slot % 1024) then .next s
    else
      let s1 := ((s.memRead ecc (s.slotAddr slot)).evictWay (slot % 1024)).wrapBy F.CPH_CACHE_MISSES_COUNT 1
      let b := s1.bytes (s1.slotAddr slot) 160
      match (if ecc.bad || s.poisoned (s.slotAddr slot) 160 then none else s1.unwrapRecord slot b) with
      | some r => .next (s1.slotArrives slot r)
      | none => .next ((s1.slotArrives slot (krEmptied b)).cphFault 0x06 p q slot)
  | _, _ => .next s

/-! ### Computation (R266, R267) -/

/-- A request with its result; an authentication failure releases no byte: its status is not zero, and
the spec gives no number, so it is free, outside 0xF0 to 0xFF, which R77 keeps for the promenade. -/
def State.cphFinish (s : State) (r : CphReq) : CphReq × State :=
  match cipherCompute r.op r.compat r.par r.record r.input r.seq with
  | some (o, nx) => ({ r with phase := 2, output := o, next := nx }, s)
  | none =>
    let (v, s1) := s.takeFree
    ({ r with phase := 2, status := v.toNat % 239 + 1 }, s1.count F.CPH_AUTH_FAIL_COUNT)

/-- A mismatch counted at a pair. -/
def State.mismatch (s : State) (p : Nat) : State :=
  s.set (F.CPH_PAIR_STATE_MM_COUNT p) (satInc 0xFFFF (s.get (F.CPH_PAIR_STATE_MM_COUNT p)))

/-- Both pipelines finish request `index`; the comparator finds that they agree or not. -/
def execCphCompare (index : Nat) (agree : Bool) (s : State) : Res :=
  match s.cph.reqs[index]? with
  | none => .next s
  | some r =>
    if r.phase ≠ 0 ∨ s.pairState r.pair ≠ 0 ∨ s.epHeld (cphEp r.pair) then .next s
    else if agree then
      let (r1, s1) := s.cphFinish r
      .next (s1.setReqs (s1.cph.reqs.set index r1))
    else .next ((s.mismatch r.pair).setReqs (s.cph.reqs.set index { r with phase := 1 }))

/-- The instant that events of one cycle share. -/
def State.instant (s : State) : Nat := s.clk.elapsed

/-- A second mismatch at a pair: counted, recorded, and a fault of its tile. -/
def State.secondMismatch (s : State) (p queue slot : Nat) : State :=
  ((s.mismatch p).cphFault 0x09 p queue slot).tileUe (cphTile p)

/-- The second computation of request `index` finishes. One that disagrees in the cycle in which the operator has
quarantined the pair is recorded all the same (Table 10-10). -/
def execCphRetryCompare (index : Nat) (agree : Bool) (s : State) : Res :=
  match s.cph.reqs[index]? with
  | none => .next s
  | some r =>
    if !agree ∧ (r.retryAt.map Prod.snd) = some s.instant then
      .next ((s.secondMismatch ((r.retryAt.map Prod.fst).getD 0) r.queue r.slot).setReqs
        (s.cph.reqs.set index { r with retryAt := none }))
    else if r.phase ≠ 1 ∨ s.pairState r.pair ≠ 0 ∨ s.epHeld (cphEp r.pair) then .next s
    else if agree then
      let (r1, s1) := s.cphFinish r
      let s2 := (s1.count F.CPH_MM_CORRECTED_COUNT).cphFault 0x08 r.pair r.queue r.slot
      .next ((s2.sets [(F.CPH_PAIR_MM_LAST_VALID r.pair, 1), (F.CPH_PAIR_MM_LAST_QUEUE r.pair, r.queue),
        (F.CPH_PAIR_MM_LAST_SLOT r.pair, r.slot)]).setReqs (s2.cph.reqs.set index r1))
    else
      let s1 := s.secondMismatch r.pair r.queue r.slot
      .next ((s1.withCph { s1.cph with mmQuar := some (r.pair, s.instant) }).quarantine r.pair)

/-- The result of request `index`, the oldest of its queue, is released (R255, R258, R259, R261). -/
def execCphResultRelease (index : Nat) (s : State) : Res :=
  match s.cph.reqs[index]? with
  | none => .next s
  | some r =>
    if r.phase ≠ 2 ∨ !firstOfQueue s.cph.reqs index r.queue ∨ s.epHeld (cphEp r.pair) then .next s
    else
      let (r1, s1) := (s.setReqs (s.cph.reqs.eraseIdx index)).cphWindow r
      .next (s1.cphEmit r1)

/-! ### Pair states (R269) -/

/-- A command in `CPH_PAIR_CTRL` that the state does not allow. -/
def State.cphPairRefuse (s : State) (p : Nat) : State := s.cphFault 0x0C p 0 0

/-- The requests of a pair that its retry has in hand are marked with the instant (Table 10-10). -/
def State.markRetries (s : State) (p : Nat) : State :=
  s.setReqs (s.cph.reqs.map fun (r : CphReq) =>
    if r.pair = p ∧ r.phase = 1 then { r with retryAt := some (p, s.instant) } else r)

/-- QUARANTINE; one that meets a second mismatch of the pair in the same cycle makes one entry with it
(Table 10-10). -/
def State.cphQuarantineCmd (s : State) (p : Nat) : State :=
  if s.pairState p = 0 then (s.markRetries p).quarantine p
  else if s.cph.mmQuar = some (p, s.instant) then s.withCph { s.cph with mmQuar := none }
  else s.cphPairRefuse p

/-- TEST, refused on a retired pair (R556). -/
def State.cphTestCmd (s : State) (p : Nat) : State :=
  if s.pairState p = 1 ∧ !(s.tile (cphTile p)).retired then
    s.sets [(F.CPH_PAIR_STATE_STATE p, 2), (F.CPH_PAIR_STATE_TEST_PASS p, 0)]
  else s.cphPairRefuse p

/-- A queue with nothing outstanding at its alternate goes back to its pair; the front ends stop in Hold (R272). -/
def State.reinstateMove (s : State) (q : Nat) : State :=
  if s.cphMoving q ∧ !(s.cph.reqs.any fun (r : CphReq) => r.queue == q && r.pair == cphQAlt s.plan q) ∧
      !((s.inboxOf (cphEp (cphQAlt s.plan q))).any fun (m : Packet) => hGet m.words CH.dstQueue == q) then
    s.set (F.CPH_Q_STATE_ON_ALT q) 0
  else s

def State.cphReinstateCmd (s : State) (p : Nat) : State :=
  if s.pairState p = 1 ∧ s.get (F.CPH_PAIR_STATE_TEST_PASS p) = 1 then
    (List.range 256).foldl (fun (s : State) q => if cphQPair s.plan q = p then s.reinstateMove q else s)
      (s.set (F.CPH_PAIR_STATE_STATE p) 0)
  else s.cphPairRefuse p

def execCphQuarantine (pair : Nat) (s : State) : Res := .next (s.cphQuarantineCmd pair)
def execCphTest (pair : Nat) (s : State) : Res := .next (s.cphTestCmd pair)
def execCphReinstate (pair : Nat) (s : State) : Res := .next (s.cphReinstateCmd pair)
def execReinstateMove (queue : Nat) (s : State) : Res :=
  if s.epHeld (cphEp (cphQPair s.plan queue)) then .next s else .next (s.reinstateMove queue)

/-- The known-answer run of a pair ends. -/
def execCphTestEnd (pair : Nat) (pass : Bool) (s : State) : Res :=
  if s.pairState pair ≠ 2 ∨ s.epHeld (cphEp pair) then .next s
  else
    let s1 := s.sets [(F.CPH_PAIR_STATE_STATE pair, 1), (F.CPH_PAIR_STATE_TEST_PASS pair, if pass then 1 else 0)]
    if pass then .next s1 else .next ((s1.cphFault 0x0B pair 0 0).tileUe (cphTile pair))

/-! ### Key operations (R264, R265, R537, R538) -/

/-- GO in `CPH_KEY_COMMIT`: the staged operation begins. -/
def State.keyGo (s : State) : State :=
  ((s.sets [(F.CPH_KEY_COMMIT_PENDING, 1), (F.CPH_KEY_STATUS_BUSY, 1)]).withCph { s.cph with done := none })

/-- Is operation `op` staged, requested and not yet performed, outside Hold (R272)? -/
def State.keyOpWaits (s : State) (op : Nat) : Bool :=
  s.get F.CPH_KEY_COMMIT_PENDING == 1 && s.cph.done == none && s.get F.CPH_KEY_OP_STG_OP == op && !s.cphHeld

/-- The operation has been performed, or has failed and changed nothing. -/
def State.keyOutcome (s : State) (fc : Nat) : State := s.withCph { s.cph with done := some fc }
def State.keyFails (s : State) : State := s.keyOutcome 0x150A

def State.keySlotSel (s : State) : Nat := s.get F.CPH_KEY_SEL_STG_SLOT
def State.keyTdSel (s : State) : Nat := s.get F.CPH_KEY_SEL_STG_TD

/-- Would the pin leave 13 pinned slots in the set? -/
def State.pinTooMany (s : State) (slot pin : Nat) : Bool :=
  pin == 1 && !s.pinned slot && decide (12 ≤ s.pinsOfSet (slot % 1024))

/-- A slot loaded with a record, and its pin set from `PIN`. -/
def State.keyLoad (s : State) (slot : Nat) (r : List Byte) : State :=
  let pin := s.get F.CPH_KEY_OP_STG_PIN
  if s.pinTooMany slot pin then s.keyFails
  else ((s.writeSlot slot r).setPin slot (pin == 1)).keyOutcome 0

def execCphLoadClear (s : State) : Res :=
  if !s.keyOpWaits 1 then .next s
  else
    let slot := s.keySlotSel
    let a := s.rd R.CPH_KEY_ATTR_STG
    let head := natLE 1 1 ++ natLE 1 (bitsAt a 18 16) ++ natLE 1 (bitsAt a 10 8) ++
      natLE 1 (bitsAt a 0 0 + 2 * bitsAt a 1 1) ++ natLE 2 0 ++ natLE 1 (bitsAt a 25 24) ++ natLE 1 0 ++
      natLE 8 (krCtr (s.keyRead slot).1)
    let r := head ++ (List.range 16).flatMap fun i => natLE 8 (s.cph.data.getD i 0).toNat
    if krWellFormed r then .next ((s.keyRead slot).2.keyLoad slot r) else .next s.keyFails

/-- Is a key blob accepted, apart from its cryptography (Table 20-4, R538)? -/
def State.keyBlobOk (s : State) (b : List Byte) : Bool :=
  let td := s.keyTdSel
  bytesAt b 0 8 == ascii "OWKBLB01" && leAt b 8 2 == 1 && leAt b 10 2 == td && leAt b 12 4 == s.keySlotSel &&
  bytesAt b 16 16 == s.epoch && decide (spGet (fun _ => 0) s.cph.blobCtr td < leAt b 32 8) &&
  (bytesAt b 0x34 12).all (· == 0) && (bytesAt b 0xE0 32).all (· == 0)

/-- A key slot loaded from a tenant key blob, read from its source. -/
def execCphLoadBlob (hostBytes : List Byte) (x : SrcRead) (s : State) : Res :=
  if !s.keyOpWaits 2 ∨ s.operatorWaits (s.get F.CPH_KEY_OP_STG_SRC == 1) then .next s
  else
    let td := s.keyTdSel
    let slot := s.keySlotSel
    let (src, s1) := s.operatorRead (s.get F.CPH_KEY_SRC_STG_ADDR) 256 (s.get F.CPH_KEY_OP_STG_SRC == 1) hostBytes x
    let twk := spGet (fun _ => ([] : List Byte)) s1.cph.twks td
    match src with
    | none => .next s1.keyFails
    | some b =>
      if s1.isOpen ∨ s1.get F.WKT_LIFECYCLE_ERASING = 1 ∨ twk = [] ∨ !s1.keyBlobOk b then .next s1.keyFails
      else
        match aeadOpen 2 twk (bytesAt b 0x28 12) (bytesAt b 0 64) (bytesAt b 0x40 144) (bytesAt b 0xD0 16) with
        | none => .next s1.keyFails
        | some r =>
          let (old, s3) := s1.keyRead slot
          if krState r ≠ 1 ∨ leAt r 4 2 ≠ td ∨ krCtr r ≠ 0 ∨ !krWellFormed r ∨ (krState old = 1 ∧ krOwner old ≠ td) then
            .next s3.keyFails
          else
            let s2 := s3.keyLoad slot (krSetCtr r (krCtr old))
            .next (if s2.cph.done = some 0 then
              (s2.withCph { s2.cph with blobCtr := spSet (fun _ => 0) s2.cph.blobCtr td (leAt b 32 8) }) else s2)

def execCphInvalidate (s : State) : Res :=
  if !s.keyOpWaits 3 then .next s
  else
    let slot := s.keySlotSel
    .next ((((s.keyRead slot).2.writeSlot slot (krEmptied (s.keyRead slot).1)).setPin slot false).keyOutcome 0)

/-- `SEQ` := `DATA10`, the window cleared; an empty slot has none. -/
def execCphSetSeq (s : State) : Res :=
  if !s.keyOpWaits 4 then .next s
  else
    let slot := s.keySlotSel
    let (r, s1) := s.keyRead slot
    if krState r = 1 then
      .next ((s1.writeSlot slot (krSetWindow (krSetSeq r (s.cph.data.getD 10 0).toNat) 0)).keyOutcome 0)
    else .next (s1.keyOutcome 0)

def execCphSetPin (s : State) : Res :=
  if !s.keyOpWaits 7 then .next s
  else
    let slot := s.keySlotSel
    let pin := s.get F.CPH_KEY_OP_STG_PIN
    let (r, s1) := s.keyRead slot
    if s.pinTooMany slot pin ∨ (pin = 1 ∧ krState r ≠ 1) then .next s1.keyFails
    else .next ((s1.setPin slot (pin == 1)).keyOutcome 0)

/-- The tenant wrapping key of a blob of 1,792 bytes, where its fields and tag pass (R537). -/
def State.twkOpen (s : State) (b : List Byte) : Option (List Byte) :=
  let td := s.keyTdSel
  let zero := fun o n => (bytesAt b o n).all (· == 0)
  if bytesAt b 0 8 = ascii "OWTWKB01" ∧ leAt b 8 2 = 1 ∧ leAt b 10 2 = 0x5120 ∧ leAt b 12 1 = 0xB1 ∧ zero 13 1 ∧
      leAt b 14 2 = td ∧ bytesAt b 16 16 = s.epoch ∧ spGet (fun _ => 0) s.cph.twkCtr td < leAt b 32 8 ∧
      zero 0x28 24 ∧ zero 0x6C1 7 ∧ zero 0x6F8 8 then
    match Config.ecdhSecret (bytesAt b 0x660 97) with
    | none => none
    | some ss2 =>
      let k := bytesAt (Config.hkdf (Config.kemSecret (bytesAt b 0x40 1568) ++ ss2)
        (ascii "OW5120 TWK" ++ bytesAt b 0 0x6C8)) 0 32
      aeadOpen 2 k (List.replicate 12 0) (bytesAt b 0 0x6C8) (bytesAt b 0x6C8 32) (bytesAt b 0x6E8 16)
  else none

def State.setTwk (s : State) (td : Nat) (k : List Byte) : State :=
  s.withCph { s.cph with twks := spSet (fun _ => []) s.cph.twks td k }

def execTwkInstall (hostBytes : List Byte) (x : SrcRead) (s : State) : Res :=
  if !s.keyOpWaits 5 ∨ s.operatorWaits (s.get F.CPH_KEY_OP_STG_SRC == 1) then .next s
  else
    let td := s.keyTdSel
    let (src, s1) := s.operatorRead (s.get F.CPH_KEY_SRC_STG_ADDR) 1792 (s.get F.CPH_KEY_OP_STG_SRC == 1) hostBytes x
    match src with
    | none => .next s1.keyFails
    | some b =>
      if s1.isOpen ∨ s1.get F.WKT_LIFECYCLE_ERASING = 1 then .next s1.keyFails
      else
        match s1.twkOpen b with
        | none => .next s1.keyFails
        | some k =>
          let s2 := s1.setTwk td k
          .next ((s2.withCph { s2.cph with twkCtr := spSet (fun _ => 0) s2.cph.twkCtr td (leAt b 32 8) }).keyOutcome 0)

/-- The key is cleared; the counter stays. -/
def execTwkRemove (s : State) : Res :=
  if !s.keyOpWaits 6 then .next s else .next ((s.setTwk s.keyTdSel []).keyOutcome 0)

/-- The operation completes: `PENDING` clears, and the generation counts it or its failure is shown. -/
def execCphKeyOpDone (s : State) : Res :=
  match s.cph.done with
  | none => .next s
  | some fc =>
    if s.cphHeld then .next s
    else
    let s1 := ((s.sets [(F.CPH_KEY_COMMIT_PENDING, 0), (F.CPH_KEY_STATUS_BUSY, 0), (F.CPH_KEY_STATUS_LAST_FC, fc)]).withCph { s.cph with done := none })
    if fc = 0 then .next (s1.wrapBy F.CPH_KEY_GEN_GEN 1) else .next (s1.cphFault 0x0A 0 0 s.keySlotSel)

end Sys2Proof.Machine
end

