-- ==== Sys2Proof/Machine/CsrRead.lean ====
section
/-! DEFINITION. What a register of the control space reads as, and what a read does (R10 to R12, R33): most
registers hold their value; those that show other state compute it. -/

namespace Sys2Proof.Machine

/-- The index of offset `o` in an array of `count` registers from `base` on, `stride` bytes apart. -/
def idxOf (o base stride count : Nat) : Option Nat :=
  if base ≤ o ∧ o < base + stride * count ∧ (o - base) % stride = 0 then some ((o - base) / stride) else none

/-! ### Values computed from other state -/

/-- The live section that `SITE_SEC_SEL` names. -/
def State.secSelected (s : State) : Option Section :=
  findSec s.plan (s.get F.SITE_SEC_SEL_TYPE) (s.get F.SITE_SEC_SEL_INSTANCE)

def State.siteView (s : State) (o : Nat) : Option Word :=
  if o = R.SITE_SEC_INFO then
    some (match s.secSelected with
      | some x => BitVec.ofNat 64 (2 ^ 63 + x.layoutVer % 2 ^ 16 * 2 ^ 32 + leAt x.header 0 4)
      | none => 0)
  else
    (idxOf o (R.SITE_SEC_DIGEST 0) 8 6).map fun i =>
      match s.secSelected with
      | some x => BitVec.ofNat 64 (leAt (s.sectionDigest x) (8 * i) 8)
      | none => 0

/-- What PRM's registers show of other state. `PRM_LINK_FLITS` is 0 while `PRM_LINK_SEL` names a station beyond 255 or a
link that the edge of the mesh does not have: such a link sends nothing (DESIGN CHOICE, log entry 144). -/
def State.prmView (s : State) (o : Nat) : Option Word :=
  if o = R.PRM_LINK_FLITS then
    some (BitVec.ofNat 64 (spGet (fun _ => 0) s.prm.linkFlits (s.get F.PRM_LINK_SEL_STATION * 4 + s.get F.PRM_LINK_SEL_DIR)))
  else if o = R.PRM_IBUF_OCC then
    some (BitVec.ofNat 64 ((max s.eth.peak s.ibufBytes + 1023) / 1024 * 2 ^ 32 + (s.ibufBytes + 1023) / 1024))
  else none

/-- The wait of a thread as `ARB_DBG_PC` shows it: type and index. -/
def arbWaitView (w : Option ArbWait) (free : Nat) : Nat × Nat :=
  match w with
  | none => (0, 0)
  | some (.lock i _) => (1, i)
  | some (.counter j _ _) => (2, j)
  | some (.park j _ _ _) => (2, j)
  | some (.order q _) => (3, q)
  | some (.commit _) => (3, free % 1024)

/-- `ARB_GH_DATA` of cluster `c`; a set's mask holds all its members, IDLE ones too. -/
def State.ghView (s : State) (c : Nat) : Word :=
  let k := s.clu c
  let i := s.get (F.ARB_GH_SEL_INDEX c)
  match s.get (F.ARB_GH_SEL_TYPE c) with
  | 0 =>
    let l := spGet (fun _ => (⟨none, []⟩ : ArbLock)) k.locks i
    BitVec.ofNat 64 ((match l.holder with
      | some h => 2 ^ 63 + h * 2 ^ 56
      | none => 0) + l.waiters.length * 2 ^ 32)
  | 1 => BitVec.ofNat 64 (spGet (fun _ => 0) k.counters i % 2 ^ 32)
  | 2 => BitVec.ofNat 64 (spGet (fun _ => 0) k.seqCounts i % 2 ^ 32)
  | _ => BitVec.ofNat 64 ((((List.range 64).filter fun t => (s.thr c t).set == i).map (2 ^ ·)).sum)

/-- How many threads of a cluster are in a state that `f` accepts. -/
def State.threadCount (s : State) (c : Nat) (f : Nat → Bool) : Nat :=
  ((List.range 64).filter fun t => f (s.thr c t).st).length

/-- What the arbour's read-only registers show (R157). `WAIT_TYPE` and `WAIT_INDEX` of a halted thread whose wait has
ended go on showing that wait until the thread resumes (DESIGN CHOICE, log entry 115). -/
def State.arbView (s : State) (o : Nat) (free : Nat) : Option Word :=
  (idxOf (o / 256 * 256) (R.ARB_CLU_STATE 0) 256 20).bind fun c =>
    let x := s.thr c (s.get (F.ARB_DBG_SEL_THREAD c))
    if o = R.ARB_CLU_STATE c then
      some (BitVec.ofNat 64 (s.threadCount c (· == tPark) * 2 ^ 24 + s.threadCount c (· == tHalt) * 2 ^ 16 +
        s.threadCount c (· != tIdle) * 2 ^ 8 + s.cluState c))
    else if o = R.ARB_DBG_PC c then
      let w := arbWaitView x.wait free
      some (BitVec.ofNat 64 (x.st * 2 ^ 60 + x.written % 256 * 2 ^ 52 + w.1 * 2 ^ 50 + w.2 % 1024 * 2 ^ 40 +
        x.locks.length * 2 ^ 32 + x.pc % 2 ^ 14))
    else if o = R.ARB_DBG_GREG c then some (if x.st = tHalt then x.regs.getD (s.get (F.ARB_DBG_SEL_GREG c)) 0 else 0)
    else if o = R.ARB_DBG_EMIT c then some (if x.st = tHalt then x.ew.getD (s.get (F.ARB_DBG_SEL_EW c)) 0 else 0)
    else if o = R.ARB_DBG_HALTED c then
      some (BitVec.ofNat 64 ((((List.range 64).filter fun t => (s.thr c t).st == tHalt).map (2 ^ ·)).sum))
    else if o = R.ARB_GH_DATA c then some (s.ghView c)
    else none

def State.acmView (s : State) (o : Nat) : Option Word :=
  if o = R.ACM_ACT_PKTS then some (BitVec.ofNat 64 (spGet (fun _ => 0) s.acm.actPkts (s.get F.ACM_ACT_IDX_IDX)))
  else if o = R.ACM_ACT_BYTES then some (BitVec.ofNat 64 (spGet (fun _ => 0) s.acm.actBytes (s.get F.ACM_ACT_IDX_IDX)))
  else (idxOf o (R.ACM_VER_INFLIGHT 0) 8 16).map fun v => BitVec.ofNat 64 (s.inFlight v)

def State.emtView (s : State) (o : Nat) : Option Word :=
  (idxOf o (R.EMT_TBL_GEOM 0) 128 64).map fun t =>
    if emtPresent s.plan t then BitVec.ofNat 64 (2 ^ 63 + emtBucketsLog2 s.plan t * 2 ^ 16 + emtKeyLen s.plan t) else 0

/-- Frames and bytes queued on a leaf; zero for a node of another level (Table 9-5). -/
def State.nodeDepth (s : State) (level index : Nat) : Nat × Nat :=
  if level = 3 then ((s.leafQ index).length, s.leafBytes index) else (0, 0)

def State.schView (s : State) (o : Nat) : Option Word :=
  let level := s.get F.SCH_NODE_VIEW_SEL_LEVEL
  let index := s.get F.SCH_NODE_VIEW_SEL_INDEX
  let n := s.node (nodeKey level index)
  let d := s.nodeDepth level index
  if o = R.SCH_NODE_VIEW_RATE then some (BitVec.ofNat 64 n.rate)
  else if o = R.SCH_NODE_VIEW_BURST then some (BitVec.ofNat 64 n.burst)
  else if o = R.SCH_NODE_VIEW_CFG then some n.cfg
  else if o = R.SCH_NODE_VIEW_CBS then some n.cbs
  else if o = R.SCH_NODE_VIEW_CREDIT then some (BitVec.ofInt 64 n.credit)
  else if o = R.SCH_NODE_VIEW_DEPTH then some (BitVec.ofNat 64 (d.1 % 2 ^ 24 * 2 ^ 40 + d.2 % 2 ^ 40))
  else none

def State.cphView (s : State) (o : Nat) : Option Word :=
  (idxOf o (R.CPH_Q_STATE 0) 64 256).map fun q =>
    BitVec.ofNat 64 (s.get (F.CPH_Q_STATE_ON_ALT q) * 2 ^ 63 + (if cphQPresent s.plan q then s.servingPair q % 32 * 2 ^ 32 else 0) +
      (s.cph.reqs.filter fun (r : CphReq) => r.queue == q && r.admitted).length % 2 ^ 16)

/-- Words 18 to 31 of a context are the engine's: what they hold is free (Table 11-4). -/
def State.teView (s : State) (o : Nat) (free : Word) : Option Word :=
  match idxOf o (R.TE_QP_VIEW 0) 8 32 with
  | some w =>
    let c := s.get F.TE_QP_SEL_QP
    some (if !s.qpUsed c then 0 else if 18 ≤ w then free else s.teW (qpBase c) w)
  | none => (idxOf o (R.TE_ENG_STATE 0) 64 16).map s.teEngState

def State.nveView (s : State) (o : Nat) : Option Word :=
  if o = R.NVE_MODE_VIEW then some s.nveModeView
  else (idxOf o R.NVE_NS_VIEW_TGT 8 4).map s.nveNsView

def State.hifView (s : State) (o : Nat) : Option Word :=
  if o = R.HIF_Q_ENABLED then
    some (BitVec.ofNat 64 ((s.hif.queues.filter fun x => x.2.st == qEnabled).length))
  else (idxOf o (R.HIF_Q_VIEW 0) 8 8).map fun i => s.hqRegRead (s.get F.HIF_Q_SEL_Q) (8 * i)

def State.memView (s : State) (o : Nat) : Option Word :=
  if o = R.MEM_CH_CE then some (BitVec.ofNat 64 (spGet (fun _ => 0) s.chCe (s.get F.MEM_CH_SEL_CH)))
  else if o = R.MEM_ZERO_PENDING then some (BitVec.ofNat 64 (runCount s.zeroMap))
  else (idxOf o (R.MEM_PART_VIEW 0) 8 2).map fun i => BitVec.ofNat 64 (leAt (partRec s.plan (s.get F.MEM_PART_SEL_REC)) (8 * i) 8)

def State.pwrView (s : State) (o : Nat) : Option Word :=
  if o = R.PWR_TILE_STATE then
    let x := s.tile (s.get F.PWR_TILE_SEL_TILE)
    some (BitVec.ofNat 64 (x.wakes * 2 ^ 32 + if x.hold then 4 else x.sky))
  else none

def State.sdlView (s : State) (o : Nat) : Option Word :=
  if o = R.SDL_SENS_DATA then
    let i := s.get F.SDL_SENS_SEL_SENSOR
    let x := s.sensor i
    some (BitVec.ofNat 64 ((if x.excluded then 2 ^ 63 else 0) + sensorDomain i * 2 ^ 56 + x.temp % 256 * 2 ^ 48 +
      unsignedOf 16 x.shift * 2 ^ 32 + unsignedOf 16 x.margin))
  else none

def State.fltView (s : State) (o : Nat) : Option Word :=
  if o = R.FLT_TILE_INFO then
    let x := s.tile (s.get F.FLT_TILE_SEL_TILE)
    some (BitVec.ofNat 64 ((if x.retired then 2 ^ 63 else 0) + x.ue * 2 ^ 32 + x.ce))
  else none

/-- The value computed for a register that shows other state. -/
def State.csrView (s : State) (o : Nat) (free : Word) : Option Word :=
  let u := o / 0x1000000
  if u = uSite then s.siteView o
  else if u = uPrm then s.prmView o
  else if u = uArb then s.arbView o free.toNat
  else if u = uAcm then s.acmView o
  else if u = uEmt then s.emtView o
  else if u = uSch then s.schView o
  else if u = uCph then s.cphView o
  else if u = uTe then s.teView o free
  else if u = uNve then s.nveView o
  else if u = uHif then s.hifView o
  else if u = uMem then s.memView o
  else if u = uPwr then s.pwrView o
  else if u = uSdl then s.sdlView o
  else if u = uFlt then s.fltView o
  else none

/-! ### Reads -/

/-- A read of the block of a pavilion that is not the first member of a group is condition 0xFE too (R128). -/
def State.grpBlockRead (s : State) (b i : Nat) : State :=
  if R.PAV_GRP_STATE 0 ≤ b ∧ b ≤ R.PAV_GRP_MEAS 0 0 ∧ !grpFirst s.plan i then s.capture uPav 0xFE i else s

/-- What a read does beside returning the value: RC fields clear (R11), peaks start again, a capture counts as
read (R467). -/
def State.csrAfterRead (s : State) (o : Nat) : State :=
  if o = R.PRM_IBUF_OCC then s.withEth { s.eth with peak := s.ibufBytes }
  else if o = R.PWR_TEMP then s.set F.PWR_TEMP_PEAK (s.get F.PWR_TEMP_NOW)
  else if o = R.PWR_HOLD_MAX_US ∨ o = R.FLT_INTR_MAX_US then s.wr o 0
  else if (idxOf o (R.TB_PPSIN_NS 0) 64 4).isSome then s.withClk { s.clk with ppsUnread := false }
  else
    match findReg (unitRegs (o / 0x1000000)) (o % 0x1000000) with
    | some (r, i, _) => (s.wr o (specAfterRead r (s.rd o))).grpBlockRead (unitOff (o / 0x1000000) r.off) i
    | none => s

/-- Does a read of the register return a value the spec leaves open in part? -/
def readsFree (o : Nat) : Bool :=
  (idxOf o (R.TE_QP_VIEW 18) 8 14).isSome || (idxOf o (R.ARB_DBG_PC 0) 256 20).isSome

/-- An aligned 64-bit read of the control space: the value, and the state after it. An offset that no map
defines, and the block of a code that names no unit, read as zero. -/
def State.csrRead (s : State) (o : Nat) : Word × State :=
  let (free, s0) := if readsFree o then s.takeFree else (0, s)
  (match findReg (unitRegs (o / 0x1000000)) (o % 0x1000000), s0.csrView o free with
    | none, _ => 0
    | some _, some w => w
    | some _, none => s0.rd o, s0.csrAfterRead o)

end Sys2Proof.Machine
end

