-- ==== Sys2Proof/Machine/Site.lean ====
section
/-! DEFINITION. Site plans: copy, verification, quiesce, apply and resume (02_site_plan.md). -/

namespace Sys2Proof.Machine

abbrev sIdle : Nat := 0
abbrev sCopy : Nat := 1
abbrev sVerify : Nat := 2
abbrev sQuiesce : Nat := 3
abbrev sApply : Nat := 4
abbrev sResume : Nat := 5

def State.sitePhase (s : State) : Nat := s.get F.SITE_STATUS_PHASE

/-- `TOTAL_LEN` is at most this, the size of the staging region. -/
abbrev planMax : Nat := 67108864

/-! ### Start and copy (R47, R48) -/

/-- GO written to `SITE_COMMIT`. -/
def State.siteGo (s : State) : State :=
  if s.get F.SITE_COMMIT_PENDING = 1 then s
  else (s.commitGo F.SITE_COMMIT_PENDING).set F.SITE_STATUS_PHASE sCopy

def execSiteCommitGo (s : State) : Res := .next s.siteGo

/-! ### Quiesced scopes (R52, R56, R57) -/

/-- The differing elements of one section type. -/
def State.diffOf (s : State) (ty : Nat) : List (Nat × Nat) :=
  (s.site.diff.filter fun x => x.1 == ty).map fun x => x.2

/-- Ports whose ingress and egress are quiesced, and ports whose egress alone is. -/
def State.diffPorts (s : State) : List Nat := (s.diffOf secPortLayout).map Prod.snd
def State.diffTrees (s : State) : List Nat := (s.diffOf secSchTree).map Prod.fst

/-- Clusters whose image or assignment differs. -/
def State.diffClusters (s : State) : List Nat :=
  dedup ((s.diffOf secArbImage).map Prod.fst ++ (s.diffOf secArbMap).map Prod.snd)

/-- QUIESCE begins: clusters take no packet, links of differing ports go down. `receiving`: ports with a
frame in reception. -/
def State.quiesceStart (s : State) (receiving : List Nat) : State :=
  let s1 := s.diffClusters.foldl (fun (s : State) c =>
    if s.cluState c = cReleased then s.setCluState c cQuiescing else s) s
  s1.diffPorts.foldl (fun (s : State) p =>
    (s.setMeasuring (s.eth.measuring.erase p)).linkDown p (receiving.contains p)) s1

/-- Quiesced scopes go on: clusters that still hold their image take packets, links may come up. -/
def State.quiesceEnd (s : State) (ports clusters : List Nat) : State :=
  let s1 := clusters.foldl (fun (s : State) c =>
    if s.cluState c = cQuiescing then s.setCluState c cReleased else s) s
  ports.foldl State.linkStart s1

/-- Is a port's egress drained? -/
def State.drained (s : State) (p : Nat) : Bool := (s.busyLeaves p).isEmpty && (s.txOf p).isNone

/-- Does work of the placement engine concern a table? -/
def emtOpOn (t : Nat) : EmtOp → Bool
  | .cmd _ u _ _ _ _ => u == t
  | .learn n u _ => n == t || u == t
  | .removal n u _ _ => n == t || u == t
  | .dma _ _ _ u _ _ _ => u == t

/-- Has a differing element reached its quiescent boundary (Table 2-4)? -/
def State.quiescent (s : State) (x : Nat × Nat × Nat) : Bool :=
  let (ty, inst, e) := x
  if ty = secPortLayout then
    !linkUp s e && !(s.frames.any fun f => f.src == e && !f.dispatched) && s.drained e
  else if ty = secPrmEndpoints then
    !(s.prm.flights.any fun f => f.2.dropAt == none && hGet f.2.words CH.dstEp == e) &&
      (List.range 4).all fun vc => (s.rxOf e vc).isNone
  else if ty = secArbImage then (List.range 64).all fun t => (s.thr inst t).st == tIdle
  else if ty = secArbMap then (List.range 64).all fun t => (s.thr e t).st == tIdle
  else if ty = secAcmBanks then
    s.acm.queue.isEmpty && !(s.acm.cmd.any fun c => 256 + c.bank == e) && !(s.acm.shift.any fun c => 256 + c.bank == e)
  else if ty = secEmtGeometry then s.acm.queue.isEmpty && !(s.emt.engine.any (emtOpOn e))
  else if ty = secSchTree then s.drained inst
  else if ty = secCphAlloc then !(s.cph.reqs.any fun r => r.queue == e)
  else true

/-! ### End of a load (R49, R58) -/

def siteExtra (ty inst off : Nat) : Nat := ty * 2 ^ 32 + inst * 2 ^ 24 + off % 2 ^ 24

/-- A load is over: nothing staged, no scope held. -/
def State.siteIdle (s : State) : State :=
  let s1 := s.sets [(F.SITE_STATUS_PHASE, sIdle), (F.SITE_COMMIT_PENDING, 0)]
  s1.withSite { s1.site with staged := [], next := [], info := none, diff := [], restore := false }

/-- A container is rejected with a condition; the live plan stays. -/
def State.siteReject (s : State) (e : PlanErr) (ecFail mlFail : Bool) : State :=
  let ports := if s.amending then s.diffPorts else []
  let clusters := if s.amending then s.diffClusters else []
  let s1 := s.siteIdle.sets [(F.SITE_STATUS_RESULT, e.cond), (F.SITE_STATUS_EC_FAIL, if ecFail then 1 else 0),
    (F.SITE_STATUS_MLDSA_FAIL, if mlFail then 1 else 0)]
  (s1.fault uSite e.cond (if e.cond = 0x11 then 1 else if e.cond = 0x14 then 3 else 0)
    (siteExtra e.type e.inst e.offset)).quiesceEnd ports clusters

/-- CANCEL (R58): a load in COPY, VERIFY or QUIESCE ends. -/
def State.siteCancel (s : State) : State :=
  if sCopy ≤ s.sitePhase ∧ s.sitePhase ≤ sQuiesce then s.siteReject ⟨0x14, 0, 0, 0⟩ false false else s

def execSiteLoadCancel (s : State) : Res := .next s.siteCancel

/-- COPY ends: the bytes read, or a memory error. The whole source is read at this one instant; the spec leaves open
when within COPY each byte is read (DESIGN CHOICE, log entry 118). -/
def execSiteCopyEnd (hostBytes : List Byte) (x : SrcRead) (s : State) : Res :=
  if s.sitePhase ≠ sCopy ∨ s.operatorWaits (s.get F.SITE_SRC_CFG_STG_HOST == 1) then .next s
  else
    match s.operatorRead (s.get F.SITE_SRC_ADDR_STG_ADDR) (min planMax (s.get F.SITE_SRC_LEN_STG_LEN))
        (s.get F.SITE_SRC_CFG_STG_HOST == 1) hostBytes x with
    | (none, s1) => .next (s1.siteReject ⟨0x13, 0, 0, 0⟩ false false)
    | (some c, s1) =>
      .next ((s1.set F.SITE_STATUS_PHASE sVerify).withSite { s1.site with staged := c })

/-! ### VERIFY (R36 to R46, R54, R61, R518) -/

/-- Do the reserved fields of a section header hold zero (Table 2-2)? -/
def secHeaderZero (h : List Byte) : Bool :=
  leAt h 4 1 == 0 && decide (leAt h 5 1 ≤ 1) && (bytesAt h 10 54).all (· == 0)

/-- The first section, from container byte `o` on, with a byte that must be zero and is not (R38): in its
header or padding, or in its body, with the offset there. -/
def firstBadZero (c : List Byte) : List Section → Nat → Option PlanErr
  | [], _ => none
  | x :: t, o =>
    let n := x.body.length
    if !secHeaderZero x.header then some ⟨0x06, x.type, x.inst, 0⟩
    else
      match firstNonZero x.type x.body with
      | some b => some ⟨0x06, x.type, x.inst, b⟩
      | none =>
        if (bytesAt c (o + 64 + n) (roundUp n 64 - n)).all (· == 0) then firstBadZero c t (o + 64 + roundUp n 64)
        else some ⟨0x06, x.type, x.inst, 0⟩

/-- Strictly ascending order of type and instance (R38); the first section out of order. -/
def firstUnordered : List Section → Option Section
  | x :: y :: t =>
    if x.type * 256 + x.inst < y.type * 256 + y.inst then firstUnordered (y :: t) else some y
  | _ => none

/-- Sections that a FULL container must hold (Table 2-4, R42). -/
def requiredSections (p : Plan) : List (Nat × Nat) :=
  ([secPortLayout, secPrmEndpoints, secPrmShares, secMemPartition, secHbmShares, secArbMap, secPavGroups, secAcmBanks,
    secEmtGeometry, secCphAlloc, secTeAlloc, secNveAlloc, secPwrPolicy].map fun t => (t, 0)) ++
  ((List.range 4).map fun i => (secFunctions, i)) ++ ((List.range 20).map fun i => (secArbImage, i)) ++
  ((List.range 16).filter (portPresent p)).map fun i => (secSchTree, i)

/-- May a section be retired (R43)? -/
def retireOk (kind : Nat) (result : Plan) (x : Section) : Bool :=
  kind == 1 && x.body.isEmpty && (x.type == secAnnotation || (x.type == secSchTree && !portPresent result x.inst))

/-- The digest of a section of the resulting plan: from the container, or retained of the live plan. -/
def State.resultDigest (s : State) (am : Plan) (x : Section) : List Byte :=
  if (findSec am x.type x.inst).isSome then secDigest x else s.sectionDigest x

/-- The chain value of a plan by a digest of its sections (R39). -/
def chainBy (digest : Section → List Byte) (p : Plan) : List Byte :=
  p.foldl (fun c x => Config.sha384 (c ++ digest x)) (List.replicate 48 0)

/-- The image store, the warm plan copy and the STAGE2 range lie in the DDR partition of TD 0 (R518). -/
def State.bootRanges (s : State) (p : Plan) : Bool :=
  let e := (compOf (s.storeRead 0 4096) compStage2).getD []
  match tdPartition p 1 0 with
  | some (b, n) => b == imgStore && decide (0x010014000000 ≤ b + n) && decide (compLoad e + compLen e ≤ b + n)
  | none => false

/-- Does a TD hold an enabled function or a loaded pavilion? -/
def State.tdActive (s : State) (td : Nat) : Bool :=
  ((presentFns s.plan).any fun f => fnTd s.plan f == td && s.fnEnabled f) ||
  (List.range 64).any fun g => grpFirst s.plan g && grpLoadTd s.plan g == td && s.grpState g != gEmpty

/-- The functions that a differing element names (R54). -/
def State.elementFns (s : State) (x : Nat × Nat × Nat) : List Nat :=
  let (ty, inst, e) := x
  if ty = secFunctions then
    if e = 0 then (List.range 1024).map (1024 * inst + ·) else [1024 * inst + (e - 1)]
  else if ty = secTeAlloc then
    if 16 ≤ e then [e - 16]
    else (List.range 4096).filter fun f => teFnHas s.plan f && teFnEngine s.plan f == e
  else if ty = secNveAlloc then [e]
  else []

/-- Is a differing element in use (R54, R433)? -/
def State.inUse (s : State) (result : Plan) (x : Nat × Nat × Nat) : Bool :=
  let (ty, _, e) := x
  (s.elementFns x).any (fun f => fnPresent s.plan f && s.fnEnabled f) ||
  (ty == secPavGroups && grpFirst s.plan e && s.grpState e != gEmpty) ||
  (ty == secMemPartition && [partRec s.plan e, partRec result e].any fun r =>
    leAt r 0 1 == 1 || (leAt r 0 1 == 2 && s.tdActive (leAt r 4 2)))

/-- A condition that concerns no section. -/
def errAt (cond : Nat) (bad : Bool) : Option PlanErr := if bad then some ⟨cond, 0, 0, 0⟩ else none

/-- A condition that concerns the first section found. -/
def errSec (cond : Nat) (x : Option Section) : Option PlanErr := x.map fun y => ⟨cond, y.type, y.inst, 0⟩

/-- A condition at the first offset that some section's body has. -/
def errBody (cond : Nat) (l : List Section) (f : Section → Option Nat) : Option PlanErr :=
  l.findSome? fun x => (f x).map fun o => ⟨cond, x.type, x.inst, o⟩

/-- Fields of the plan header, and its reserved bytes. -/
def planHeaderZero (c : List Byte) (kind : Nat) : Bool :=
  (bytesAt c 0x0B 1 ++ bytesAt c 0x0F 1 ++ bytesAt c 0x1E 2 ++ bytesAt c 0x68 24 ++
    (if kind = 0 then bytesAt c 0x30 48 else [])).all (· == 0)

/-- The conditions found in the staged container of `len` bytes, lowest first: first of all those of its
form, then those that need its sections. Where bytes of the plan header or trailer and of a section break 0x06 both,
the header or trailer is the one reported (DESIGN CHOICE, log entry 140). -/
def State.planErrors (s : State) (c : List Byte) (len : Nat) (i : PlanInfo) (secs : Option (List Section))
    (sig : Bool × Bool × Bool) : List (Option PlanErr) :=
  let t := bytesAt c (len - 4928) 4928
  let am := secs.getD []
  let result := if i.kind = 0 then am else resultingPlan s.plan am
  let live := s.regBytes (R.SITE_LIVE_DIGEST 0) 6
  let bodies := am.filter fun x => !x.retire
  let keep := am.filter Section.retire
  [errAt 0x01 (bytesAt c 0 8 != ascii "OWSITE02" || bytesAt t 0 8 != ascii "OWSIGN01" || leAt c 8 2 != 2 ||
      decide (1 < i.kind)),
   errAt 0x02 (leAt c 0x0C 2 != 0x5120 || leAt c 0x0E 1 != 0xB1),
   errAt 0x03 (i.totalLen != len || decide (planMax < len) || len % 64 != 0 || secs.isNone || i.count == 0 ||
      decide (1024 < i.count) || i.count != am.length),
   errSec 0x04 (firstUnordered am),
   errSec 0x05 (am.find? fun x => decide (secInstances x.type ≤ x.inst) || x.layoutVer != 1),
   (errAt 0x06 (!planHeaderZero c i.kind || !trailerZero t)).orElse fun _ =>
     firstBadZero c am 128,
   errAt 0x07 (!sig.1), errAt 0x08 (!sig.2.1), errAt 0x09 (!sig.2.2),
   errAt 0x0A (i.chainTail != chainBy (s.resultDigest am) result),
   errAt 0x0B (i.kind == 1 && decide (i.seq ≤ s.get F.SITE_LIVE_SEQ_SEQ)),
   errAt 0x0C (decide (i.arb < s.get F.SITE_ARB_FLOOR_FLOOR)),
   errAt 0x0D (i.kind == 1 && i.baseDigest != live),
   (errSec 0x0E (keep.find? fun x => !retireOk i.kind result x)).orElse fun _ =>
     if i.kind = 1 then none
     else ((requiredSections result).find? fun x => (findSec result x.1 x.2).isNone).map fun x => ⟨0x0E, x.1, x.2, 0⟩,
   errBody 0x0F bodies fun x => firstBadField x.type x.inst x.body,
   errAt 0x10 (!((crossChecks result (67108864 * s.ddr.sum)).all id) || !s.bootRanges result),
   errAt 0x12 (if i.kind = 0 then s.ready else !s.ready),
   if i.kind = 1 then
     ((differingAll s.plan result).find? (s.inUse result)).map fun x => ⟨0x15, x.1, x.2.1, 0⟩
   else none]

/-- VERIFY ends: the lowest condition rejects the container, or QUIESCE begins. `receiving`: ports with a
frame in reception. -/
def execSiteVerifyEnd (receiving : List Nat) (s : State) : Res :=
  if s.sitePhase ≠ sVerify then .next s
  else
    let c := s.site.staged
    let len := s.get F.SITE_SRC_LEN_STG_LEN
    let i := parseInfo c len
    let secs := if 5056 ≤ len ∧ len ≤ planMax then parseSections c 1025 128 (len - 4928) else none
    let (ec, pq, id) := s.signChecks keySite (bytesAt c (len - 4928) 4928) i.signed
    match (s.planErrors c len i secs (ec, pq, id)).findSome? (fun x => x) with
    | some e => .next (s.siteReject e (!ec) (!pq))
    | none =>
      let am := secs.getD []
      let result := if i.kind = 0 then am else resultingPlan s.plan am
      let s1 := s.set F.SITE_STATUS_PHASE sQuiesce
      .next ((s1.withSite { s1.site with next := result, info := some i, diff := differingAll s.plan result }).quiesceStart
        receiving)

/-! ### QUIESCE (R52, R56, R57) -/

/-- Every differing element is quiescent: APPLY begins. -/
def execSiteQuiesceEnd (s : State) : Res :=
  if s.sitePhase = sQuiesce ∧ s.site.diff.all s.quiescent ∧ s.pwr.holdAt = [] then .next (s.set F.SITE_STATUS_PHASE sApply)
  else .next s

/-- `SITE_QUIESCE_LIMIT` has passed. -/
def execSiteQuiesceTimeout (s : State) : Res :=
  if s.sitePhase ≠ sQuiesce then .next s
  else
    match s.site.diff.find? fun x => !s.quiescent x with
    | none => .next s
    | some x => .next (s.siteReject ⟨0x11, x.1, x.2.1, 0⟩ false false)

/-- `SITE_DRAIN_LIMIT` has passed: frames still queued at quiesced ports are discarded. -/
def execSiteDrainLimitExpiry (s : State) : Res :=
  if s.sitePhase ≠ sQuiesce then .next s
  else
    let ports := (dedup (s.diffPorts ++ s.diffTrees)).filter fun p => !(s.busyLeaves p).isEmpty
    let s1 := ports.foldl (fun (s : State) p => s.flushPort p fun s => s.count F.SITE_DRAIN_DISCARD_COUNT) s
    .next (if ports = [] then s1 else s1.setStatus uSite 2)

/-! ### APPLY (R51 to R53) -/

/-- Registers back at their reset values. -/
def State.dropRegs (s : State) (a n : Nat) : State :=
  s.withRegs (s.regs.filter fun x => !(decide (a ≤ x.1) && decide (x.1 < a + n)))

/-- Ranges of bytes marked in the zero map. -/
def State.zeroRanges (s : State) (l : List (Nat × Nat)) : State := l.foldl (fun (s : State) x => s.zeroRange x.1 x.2) s

/-- Memory that leaves a TD's partition (R53), as ranges. -/
def leavingRanges (old new : Plan) : List (Nat × Nat) :=
  ((partitions old).filter fun (k, _, _, _, _, _) => k == 2).flatMap fun (_, m, _, o, b, n) =>
    match tdPartition new m o with
    | some (b', n') => runCut [(b, n)] b' n'
    | none => [(b, n)]

/-- What a plan applied before READY has zeroed: the HBM partitions of the units, and with the first one
since the start, DDR outside the partition of TD 0 (R440, R449). -/
def State.bootZeroes (s : State) (new : Plan) : List (Nat × Nat) :=
  if s.ready then []
  else
    (((partitions new).filter fun (k, _, _, _, _, _) => k == 1).map fun (_, _, _, _, b, n) => (b, n)) ++
    if s.plan ≠ [] then []
    else
      match tdPartition new 1 0 with
      | some (b, n) => runCut [(0x010000000000, 67108864 * s.ddr.sum)] b n
      | none => [(0x010000000000, 67108864 * s.ddr.sum)]

/-- Functions that differing elements name, where the live plan has them. -/
def State.diffFns (s : State) : List Nat := dedup ((s.site.diff.flatMap s.elementFns).filter (fnPresent s.plan))

/-- Locked buckets of a table. -/
def State.emtLockCount (s : State) (t : Nat) : Nat :=
  let b := emtAddr s.plan t 0 0
  (s.mem.filter fun x => decide (b ≤ x.1) && decide (x.1 < b + 256 * 2 ^ emtBucketsLog2 s.plan t) &&
    (x.1 - b) % 256 == 7 && x.2.getLsbD 6).length

/-- Exact-match tables that differ: region zeroed, locks and cache cleared, registers and redirects reset. -/
def State.applyEmt (s : State) (new : Plan) : State :=
  let ts := (s.diffOf secEmtGeometry).map Prod.snd
  let region : Plan → Nat → List (Nat × Nat) := fun p t =>
    if emtPresent p t then [(emtAddr p t 0 0, 256 * 2 ^ emtBucketsLog2 p t)] else []
  let s1 := ts.foldl (fun (s : State) t =>
    let s2 := if emtPresent s.plan t then
        s.set F.EMT_LOCKED_COUNT_COUNT (s.get F.EMT_LOCKED_COUNT_COUNT - s.emtLockCount t) else s
    (s2.zeroRanges (region s.plan t ++ region new t)).setEmtFails t 0 |>.dropRegs (R.EMT_TBL_CFG t) 128) s
  let s2 := (List.range 64).foldl (fun (s : State) t =>
    if ts.contains (s.emtActive t) then s.set (F.EMT_TBL_ACTIVE_TARGET t) t else s) s1
  (s2.withEmt { s2.emt with cache := s2.emt.cache.filterMap fun x =>
      let l := x.2.filter fun w => !ts.contains w.table
      if l.isEmpty then none else some (x.1, l) })

/-- A port whose tree differs: nodes, gate lists, `SCH_CLS_MAXSDU` and leaves back at reset (R248). -/
def State.applyTree (s : State) (new : Plan) (p : Nat) : State :=
  let owns := fun g => treeOwns s.plan p g || treeOwns new p g
  let mine := fun k =>
    let level := k / 65536
    let index := k % 65536
    if level = 0 then index == p else if level = 1 then index / 8 == p
    else if level = 2 then owns index else owns (index / 16)
  let s1 := (s.withSch { s.sch with
      nodes := s.sch.nodes.filter fun x => !mine x.1
      turn := s.sch.turn.filter fun x => !mine (x.1 / 8)
      gcl := spErase s.sch.gcl p })
  let s2 := (((s1.dropRegs (R.SCH_GCL_LEN_STG p) 0x90).dropRegs (R.SCH_GCL_STG p 0) 8192).dropRegs
    (R.SCH_GCL_OPER p 0) 8192).set (F.SCH_PORT_STATUS_GATES p) 0xFF
  (s2.withRegs (s2.regs.filter fun x =>
      let leaf := fun o => decide (o ≤ x.1) && decide (x.1 < o + 0x80000) && owns ((x.1 - o) / 128)
      !(leaf (R.SCH_LEAF_LIMIT 0) || leaf (R.SCH_LEAF_DROP 0))))

/-- A port whose layout differs: its settings and counters back at reset, pauses ended (R53, R463). -/
def State.applyPort (s : State) (p : Nat) : State :=
  let s1 := ((((s.dropRegs (R.ETH_LINK_CTRL p) 80).dropRegs (R.ETH_PFC_THR (8 * p)) 64).dropRegs (R.SCH_PORT_CFG p) 8).dropRegs
    (R.SCH_PORT_TX_FRAMES p) 48).dropRegs (R.TB_PORT_CFG p) 8
  ((s1.set (F.SCH_PORT_STATUS_PAUSED p) 0).withEth { s1.eth with
      pause := s1.eth.pause.filter fun x => x.1 / 8 != p
      repeating := s1.eth.repeating.filter fun x => x / 8 != p })

/-- Classification: profiles back at reset, entries of differing banks gone (R186). -/
def State.applyAcm (s : State) : State :=
  (s.diffOf secAcmBanks).foldl (fun (s : State) x =>
    if x.2 < 256 then s.dropRegs (R.ACM_PROF_CFG x.2) 8
    else (s.withAcm { s.acm with entries := s.acm.entries.filter fun e => e.1 / 2048 != x.2 - 256 })) s

/-- Cipher queues: settings back at reset, the serving pair by the new record. -/
def State.applyCph (s : State) (new : Plan) : State :=
  (s.diffOf secCphAlloc).foldl (fun (s : State) x =>
    let q := x.2
    (s.dropRegs (R.CPH_Q_CFG q) 16).set (F.CPH_Q_STATE_ON_ALT q)
      (if cphQPresent new q && s.pairState (cphQPair new q) != 0 && cphQAlt new q != 0xFF then 1 else 0)) s

/-- Pavilion groups: registers of every member back at reset, `LOAD_TD` and size by the new record; a group that differs
is EMPTY, and its tiles stand where R119 has them. -/
def State.applyPav (s : State) (new : Plan) : State :=
  (s.diffOf secPavGroups).foldl (fun (s : State) x =>
    let g := x.2
    let n := max (2 ^ grpSizeLog2 s.plan g) (2 ^ grpSizeLog2 new g)
    let s1 := ((s.dropRegs (R.PAV_GRP_STATE g) (128 * n)).withPav { s.pav with groups := s.pav.groups.filter fun y => !(decide (g ≤ y.1) && decide (y.1 < g + n)) })
    if grpFirst new g then
      (s1.sets [(F.PAV_GRP_STATE_LOAD_TD g, grpLoadTd new g), (F.PAV_GRP_STATE_SIZE_LOG2 g, grpSizeLog2 new g)]).powerDown new
        (grpMembers new g)
    else s1) s

/-- Clusters whose image or assignment differs have their registers back at reset, the state of the cluster apart
(R53, R135); those whose image differs are loaded, and packets already committed stay in their commit buffers (R136). -/
def State.applyClusters (s : State) : State :=
  ((s.diffOf secArbImage).map Prod.fst).foldl State.reloadCluster
    (s.diffClusters.foldl (fun (s : State) c => s.dropRegs (R.ARB_DL_STATUS c) 128) s)

/-- The tile of an ACM bank by the new plan: powered off while the bank is unallocated, whatever `PWR_POLICY` allows, and
brought up when it is allocated (R185). -/
def State.powerBank (s : State) (new : Plan) (b : Nat) : State :=
  let t := 428 + b
  if !bankAlloc new b then s.setTile t { s.tile t with sky := 3, waking := false }
  else if (s.tile t).sky = 3 then s.powerUp t
  else s

/-- All sections of the resulting plan applied. -/
def State.applyPlan (s : State) : State :=
  let new := s.site.next
  let s1 := s.diffFns.foldl (State.oneFnReset · false) s
  let s2 := ((s1.diffOf secFunctions).filter fun x => x.2 == 0).foldl (fun (s : State) x => s.atwReset x.1) s1
  let s2 := ((s2.diffOf secNveAlloc).map Prod.snd).foldl State.nveElementReset s2
  let s3 := s2.zeroRanges (leavingRanges s2.plan new ++ s2.bootZeroes new)
  let s4 := s3.diffTrees.foldl (fun (s : State) p => s.applyTree new p) (s3.applyEmt new)
  let s5 := s4.diffPorts.foldl State.applyPort s4.applyAcm
  let s6 := (List.range 128).foldl (fun (s : State) b => s.powerBank new b) ((s5.applyCph new).applyPav new)
  (s6.withSite { s6.site with live := new }).applyClusters

/-- APPLY ends: the structure stands, and the live-plan registers change together. -/
def execSiteApplyEnd (s : State) : Res :=
  if s.sitePhase ≠ sApply ∨ s.pwr.holdAt ≠ [] then .next s
  else
    let s1 := s.applyPlan
    let s2 := (s1.wrapBy F.SITE_GEN_GEN 1).set F.SITE_STATUS_PHASE sResume
    match s.site.info, s.boot.warm with
    | some i, _ =>
      let s3 := (s2.sets [(F.SITE_LIVE_SEQ_SEQ, i.seq), (F.SITE_LIVE_ARB_ARB, i.arb)]).setDigest R.SITE_LIVE_DIGEST i.chainTail
      .next (s3.withSite { s3.site with
        ann := if i.kind = 0 then []
          else s3.site.ann.filter fun x => match findSec s3.plan secAnnotation x.1 with
            | some y => s.plan.contains y
            | none => false })
    | none, some w =>
      let s3 := (s2.sets [(F.SITE_LIVE_SEQ_SEQ, w.siteSeq), (F.SITE_LIVE_ARB_ARB, w.siteArb)]).setDigest R.SITE_LIVE_DIGEST w.siteDigest
      .next (s3.withSite { s3.site with ann := w.ann })
    | none, none => .next s2

/-- RESUME ends. -/
def execSiteResumeEnd (s : State) : Res :=
  if s.sitePhase ≠ sResume ∨ s.pwr.holdAt ≠ [] then .next s
  else
    let ports := s.diffPorts
    let clusters := s.diffClusters
    let s1 := s.siteIdle.sets [(F.SITE_STATUS_RESULT, 0), (F.SITE_STATUS_EC_FAIL, 0), (F.SITE_STATUS_MLDSA_FAIL, 0)]
    let s2 := if s.site.restore then s1.set F.BOOT_CMD_STATUS_BUSY 0 else s1
    .next (s2.quiesceEnd ports clusters)

end Sys2Proof.Machine
end

