-- ==== Sys2Proof/Machine/Tb.lean ====
section
/-! DEFINITION. The timebase unit (17_timebase.md): the time PLL, adjustments, slews, captures and PPS,
and one TCLK cycle. -/

namespace Sys2Proof.Machine

/-! ### The time PLL (R452) -/

/-- A write of `REF_SEL`; `present`: TIME_REF_IN has edges. -/
def State.refSelect (s : State) (ref : Nat) (present : Bool) : State :=
  let s1 := s.set F.TB_CLK_CFG_REF_SEL ref
  if ref = 0 then s1.set F.TB_CLK_STATUS_REF_IN_USE 0
  else if present then s1.sets [(F.TB_CLK_STATUS_REF_IN_USE, 1), (F.TB_CLK_STATUS_REF_LOST, 0)]
  else s1

def execTbRefSelect (ref : Nat) (present : Bool) (s : State) : Res := .next (s.refSelect ref present)

/-- Two edges of the selected TIME_REF_IN are missing. -/
def execTimeRefLost (s : State) : Res :=
  if s.get F.TB_CLK_CFG_REF_SEL = 0 ∨ s.get F.TB_CLK_STATUS_REF_LOST = 1 then .next s
  else .next ((s.sets [(F.TB_CLK_STATUS_REF_LOST, 1), (F.TB_CLK_STATUS_REF_IN_USE, 0)]).fault uTb 0x01 0 0)

/-- The PLL loses lock. -/
def execPllLockLoss (s : State) : Res :=
  if s.get F.TB_CLK_STATUS_PLL_LOCK = 0 then .next s
  else .next ((s.set F.TB_CLK_STATUS_PLL_LOCK 0).fault uTb 0x02 1 0)

/-- The PLL locks. -/
def execTimePllLock (s : State) : Res := .next (s.set F.TB_CLK_STATUS_PLL_LOCK 1)

/-! ### Slews and rates (R457) -/

def State.tbRate (s : State) (n : Nat) : Int := signedOf 32 (s.get (F.TB_RATE_RATE n))

/-- What a slew has added after `k` cycles: `SLEW_PPM` ppm of each, up to the whole offset. -/
def slewAdded (t : Timebase) (k : Nat) : Int :=
  let m := min t.slew.natAbs (k * t.ppm * nsUnit / 1000000)
  if t.slew < 0 then -(m : Int) else m

/-- The remainder of a slew shown in `TB_SLEW_LEFT`, and `SLEWING` (R457, R473). -/
def State.showSlew (s : State) (n : Nat) : State :=
  let t := s.tbase n
  s.sets [(F.TB_SLEW_LEFT_LEFT n, unsignedOf 64 ((t.slew - slewAdded t t.ran).tdiv (2 ^ 28))),
    (F.TB_STATUS_SLEWING n, if t.slew = 0 then 0 else 1)]

/-- One TCLK cycle of a timebase: (1 + r × 2⁻⁴⁴) ns, and its part of a slew. -/
def State.tbTick (s : State) (n : Nat) : State :=
  let t := s.tbase n
  let d : Int := (nsUnit : Int) + s.tbRate n + (slewAdded t (t.ran + 1) - slewAdded t t.ran)
  let s1 := s.setTbase n { t with
    value := ((t.value : Int) + d).toNat, ran := if t.slew = 0 then 0 else t.ran + 1 }
  let s2 := if n = 0 then (s1.withClk { s1.clk with elapsed := ((s1.clk.elapsed : Int) + d).toNat }) else s1
  if t.slew = 0 then s2 else s2.showSlew n

/-- One nanosecond passes: the `time` counter, the timebases, and the core cycles of the clusters,
2.2 for each cycle of TCLK (R131, R453). -/
def State.tick (s : State) : State :=
  let m := s.clk.mtime
  let s1 := s.withClk { s.clk with mtime := m + 1 }
  let s2 := (List.range 4).foldl (fun s n => s.tbTick n) s1.nodeDue
  let cycles := (m + 1) * 11 / 5 - m * 11 / 5
  (spKeys s2.arb.clusters).foldl (fun s c => (List.range cycles).foldl (fun s _ => s.arbCycle c) s) s2

/-- In Night the lodge keeps the timebases and the `time` counter, and advances them every 40 ns at their rates (R470). -/
def State.lodgeTick (s : State) : State :=
  if s.clk.lodge < 39 then s.withClk { s.clk with lodge := s.clk.lodge + 1 }
  else
    let s1 := s.withClk { s.clk with mtime := s.clk.mtime + 40, lodge := 0 }
    (List.range 4).foldl (fun (s : State) n => (List.range 40).foldl (fun (s : State) _ => s.tbTick n) s) s1

/-! ### Adjustments (R457, R458) -/

/-- The offset staged, in 2⁻⁴⁴ ns. -/
def State.tbOffset (s : State) : Int := signedOf 64 (s.get F.TB_ADJ_OFFSET_STG_OFFSET) * 2 ^ 28

/-- The greatest value: 2⁴⁸ − 1 seconds and the rest. -/
def tbTop : Int := (2 ^ 48 : Nat) * (secUnit : Int)

/-- Does R458 refuse the staged adjustment? -/
def State.tbRefused (s : State) : Bool :=
  let n := s.get F.TB_ADJ_SEL_STG_TB
  match s.get F.TB_ADJ_OP_STG_OP with
  | 0 => false
  | 1 => decide (1000000000 ≤ s.get F.TB_ADJ_NS_STG_NS)
  | 2 => decide ((s.tbVal n : Int) + s.tbOffset < 0) || decide (tbTop ≤ (s.tbVal n : Int) + s.tbOffset)
  | _ =>
    let off := signedOf 64 (s.get F.TB_ADJ_OFFSET_STG_OFFSET)
    let r := if s.get F.TB_ADJ_OP_STG_RATE_EN = 1 then signedOf 32 (s.get F.TB_ADJ_RATE_STG_RATE) else s.tbRate n
    decide (2 ^ 47 < off.natAbs) ||
      (decide (off < 0) && decide (r * 1000000 ≤ ((s.get F.TB_ADJ_SLEW_STG_SLEW_PPM : Int) - 122) * (nsUnit : Int)))

/-- GO of an adjustment: it waits for the next multiple of 1,000 ns. -/
def State.tbGo (s : State) : State :=
  let n := s.get F.TB_ADJ_SEL_STG_TB
  if s.get F.TB_COMMIT_PENDING = 1 then s
  else if s.tbRefused then s.fault uTb 0x03 2 n
  else
    let s1 := s.commitGo F.TB_COMMIT_PENDING
    s1.withClk { s1.clk with target := (s.tbVal n / (1000 * nsUnit) + 1) * (1000 * nsUnit) }

/-- Is the boundary of the pending adjustment reached? -/
def State.tbDue (s : State) : Bool :=
  s.get F.TB_COMMIT_PENDING == 1 && decide (s.clk.target ≤ s.tbVal (s.get F.TB_ADJ_SEL_STG_TB))

/-- A step of TB0 anchors the grid of the refills anew at the stepped time; those due before it have been made (R232). -/
def State.refillAnchor (s : State) : State :=
  let s1 := s.refillNodes fun _ => true
  s1.withSch { s1.sch with anchor := s1.clk.elapsed }

/-- A timebase takes a new value: a slew ends, `HOLDOVER` clears, the gates of its ports follow. -/
def State.tbJump (s0 : State) (n : Nat) (v : Nat) : State :=
  let s := if n = 0 then s0.refillAnchor else s0
  let s1 := ((s.setTbase n ⟨v, 0, 0, 0⟩).set (F.TB_STATUS_HOLDOVER n) 0).showSlew n
  (List.range 16).foldl (fun s p => if portTb s p = n then s.gclStepped p else s) s1

def State.tbRateNow (s : State) : State :=
  if s.get F.TB_ADJ_OP_STG_RATE_EN = 1 then
    s.set (F.TB_RATE_RATE (s.get F.TB_ADJ_SEL_STG_TB)) (s.get F.TB_ADJ_RATE_STG_RATE)
  else s

def State.tbApplied (s : State) : State := s.tbRateNow.commitApplied F.TB_COMMIT_PENDING F.TB_GEN_GEN

def State.tbDoSet (s : State) : State :=
  (s.tbJump (s.get F.TB_ADJ_SEL_STG_TB) (s.get F.TB_ADJ_SEC_STG_SEC * secUnit + s.get F.TB_ADJ_NS_STG_NS * nsUnit +
    s.get F.TB_ADJ_NS_STG_FRAC * 2 ^ 28)).tbApplied

def State.tbDoStep (s : State) : State :=
  let n := s.get F.TB_ADJ_SEL_STG_TB
  (s.tbJump n ((s.tbVal n : Int) + s.tbOffset).toNat).tbApplied

def State.tbDoSlew (s : State) : State :=
  let n := s.get F.TB_ADJ_SEL_STG_TB
  ((s.setTbase n ⟨s.tbVal n, s.tbOffset, s.get F.TB_ADJ_SLEW_STG_SLEW_PPM, 0⟩).showSlew n).tbApplied

/-- The adjustment with operation `op` takes effect, at its boundary. -/
def State.tbAdjust (s : State) (op : Nat) (effect : State → State) : Res :=
  if s.tbDue && s.get F.TB_ADJ_OP_STG_OP == op then .next (effect s) else .next s

def execTbRateOnly (s : State) : Res := s.tbAdjust 0 State.tbApplied
def execTbSet (s : State) : Res := s.tbAdjust 1 State.tbDoSet
def execTbStep (s : State) : Res := s.tbAdjust 2 State.tbDoStep
def execTbSlew (s : State) : Res := s.tbAdjust 3 State.tbDoSlew

/-- The timebase reaches the target instant: the staged adjustment applies, whichever it is. -/
def execTbAdjustBoundary (s : State) : Res :=
  if !s.tbDue then .next s
  else
    match s.get F.TB_ADJ_OP_STG_OP with
    | 0 => .next s.tbApplied
    | 1 => .next s.tbDoSet
    | 2 => .next s.tbDoStep
    | _ => .next s.tbDoSlew

/-- A slew has added its whole offset. -/
def execSlewEnd (timebase : Nat) (s : State) : Res :=
  let t := s.tbase timebase
  if t.slew = 0 ∨ slewAdded t t.ran ≠ t.slew then .next s
  else .next ((s.setTbase timebase { t with slew := 0, ppm := 0, ran := 0 }).showSlew timebase)

/-! ### Captures (R459, R467) -/

/-- Fields of a timebase value. -/
def tbSec (v : Nat) : Nat := v / secUnit
def tbNs (v : Nat) : Nat := v % secUnit / nsUnit
def tbFrac (v : Nat) : Nat := v / 2 ^ 28 % 2 ^ 16

/-- A snapshot of the four timebases and the `time` counter. -/
def State.snapshot (s : State) : State :=
  ((List.range 4).foldl (fun (s : State) n =>
    let v := s.tbVal n
    s.sets [(F.TB_SNAP_SEC_SEC n, tbSec v), (F.TB_SNAP_NS_NS n, tbNs v), (F.TB_SNAP_NS_FRAC n, tbFrac v)]) s).set
    F.TB_SNAP_MTIME_MTIME s.clk.mtime

def execTbSnapshot (s : State) : Res := .next s.snapshot

/-- A rising edge of PPS_IN is captured in all timebases. -/
def execPpsInEdge (s : State) : Res :=
  let s1 := (List.range 4).foldl (fun (s : State) n =>
    let v := quantise (s.tbVal n - s.get F.TB_PPSIN_DELAY_DELAY * 2 ^ 28)
    s.sets [(F.TB_PPSIN_SEC_SEC n, tbSec v), (F.TB_PPSIN_NS_NS n, tbNs v), (F.TB_PPSIN_NS_FRAC n, tbFrac v)]) s
  let s2 := s1.wrapBy F.TB_PPSIN_STATUS_EDGES 1
  let s3 := if s.clk.ppsUnread then (s2.set F.TB_PPSIN_STATUS_OVERRUN 1).fault uTb 0x04 3 0 else s2
  .next (s3.withClk { s3.clk with ppsUnread := true })

/-! ### PPS_OUT (R468) -/

/-- The settings in force for a second. -/
def State.ppsCfg (s : State) (sec : Nat) : Word :=
  if s.clk.ppsFrom ≤ sec then s.rd R.TB_PPSOUT_CFG else s.clk.ppsOld

/-- The instant of the edge of a second, in 2⁻⁴⁴ ns. -/
def State.ppsEdge (s : State) (sec : Nat) : Nat :=
  sec * secUnit + bitsAt (s.ppsCfg sec) 29 0 * nsUnit - s.get F.TB_PPSOUT_DELAY_DELAY * 2 ^ 28

/-- A write of the settings applies from the next second. -/
def State.ppsWritten (s : State) (old : Word) : State :=
  let tbOld := bitsAt old 61 60
  let next := tbSec (s.tbVal (s.get F.TB_PPSOUT_CFG_TB)) + 1
  let nextOld := if bitAt old 63 then (if s.clk.ppsNext ≤ tbSec (s.tbVal tbOld) then s.clk.ppsNext else next) else next
  s.withClk { s.clk with ppsOld := old, ppsFrom := next, ppsNext := nextOld }

/-- The first second, after `sec`, whose edge `now` has not reached yet. -/
def State.ppsAfter (s : State) (sec now : Nat) : Nat :=
  let k := tbSec now
  max (sec + 1) (if s.ppsEdge (k + 1) ≤ now then k + 2 else if s.ppsEdge k ≤ now then k + 1 else k)

/-- PPS_OUT rises at the configured instant of the next second, or at once when a step has passed it. -/
def execPpsOutEdge (s : State) : Res :=
  let sec := s.clk.ppsNext
  let cfg := s.ppsCfg sec
  let now := s.tbVal (bitsAt cfg 61 60)
  if !bitAt cfg 63 ∨ now < s.ppsEdge sec then .next s
  else
    .next (s.withClk { s.clk with
      ppsOut := true, ppsNext := s.ppsAfter sec now, ppsFall := s.clk.mtime + bitsAt cfg 51 32 * 1000 })

/-- PPS_OUT falls after `WIDTH_US`, which cycles of TCLK measure. DESIGN CHOICE (log entry 157). -/
def execPpsOutWidthEnd (s : State) : Res :=
  if s.clk.mtime < s.clk.ppsFall then .next s else .next (s.withClk { s.clk with ppsOut := false })

/-! ### Ports (R463) -/

/-- A write of a port's timebase and one-step mode; refused while a gate list is in use. -/
def State.portCfgWrite (s : State) (p : Nat) (v : Word) : State :=
  if bitsAt v 9 8 = 3 then s.common uTb 0xFF
  else if !portPresent s.plan p then s.common uTb 0xFE
  else if s.underAmendment secPortLayout 0 p then s.common uTb 0xFC
  else if bitsAt v 1 0 ≠ portTb s p ∧
      (0 < s.get (F.SCH_GCL_STATUS_OPER_LEN p) ∨ s.get (F.SCH_GCL_COMMIT_PENDING p) = 1) then
    s.fault uTb 0x05 4 (p * 2 ^ 32)
  else s.sets [(F.TB_PORT_CFG_TB p, bitsAt v 1 0), (F.TB_PORT_CFG_ONE_STEP p, bitsAt v 9 8)]

def execTbPortCfgWrite (port : Nat) (value : Word) (s : State) : Res := .next (s.portCfgWrite port value)

end Sys2Proof.Machine
end

