-- ==== Sys2Proof/Machine/Wkt.lean ====
section
/-! DEFINITION. Challenges, tokens, floors and the opening of the wicket (R532, R540 to R545). -/

namespace Sys2Proof.Machine

/-- WKT records a condition, with the purpose and the kind of the token concerned (Table 20-10). -/
def State.wktFault (s : State) (cond purpose kind : Nat) : State :=
  s.fault uWkt cond (cond - 1) (purpose % 4 * 256 + kind % 4)

/-! ### Challenges (R541) -/

/-- No challenge is valid: its registers read zero. -/
def State.noChallenge (s : State) : State :=
  ((s.setDigest R.WKT_CHAL []).withWkt { (s.setDigest R.WKT_CHAL []).wkt with chal := false })

/-- GEN: a new challenge of six random words. -/
def State.newChallenge (s : State) : State :=
  let s1 := (List.range 6).foldl (fun (s : State) i =>
    let (w, s1) := s.takeFree
    s1.wr (R.WKT_CHAL i) w) s
  s1.withWkt { s1.wkt with chal := true }

def execWktChalGen (s : State) : Res := .next s.newChallenge
def execChallengeExpiry (s : State) : Res := .next s.noChallenge

/-! ### Tokens (R540, R541) -/

/-- A token is submitted: it consumes the challenge. While another is under check it fails (R545). -/
def State.submitToken (s : State) (token : List Byte) : State :=
  let chal := if s.wkt.chal then some (s.regBytes (R.WKT_CHAL 0) 6) else none
  let s1 := s.noChallenge
  if s1.wkt.token.isSome then (s1.wktFault 5 0 0).set F.WKT_TOKEN_STATUS_LAST_FC 0x0405
  else
    let s2 := s1.set F.WKT_TOKEN_STATUS_BUSY 1
    s2.withWkt { s2.wkt with token := some (token, chal) }

/-- SUBMIT: the token is read from `WKT_TOKEN_SRC`; one that cannot be read has no valid header. -/
def State.tokenSubmit (s : State) (host : Bool) (hostBytes : List Byte) (x : SrcRead) : State :=
  match s.operatorRead (s.get F.WKT_TOKEN_SRC_ADDR) 4992 host hostBytes x with
  | (some t, s1) => s1.submitToken t
  | (none, s1) => s1.submitToken []

def execWktTokenSubmit (host : Bool) (hostBytes : List Byte) (x : SrcRead) (s : State) : Res :=
  .next (if s.operatorWaits host then s else s.tokenSubmit host hostBytes x)

/-- Is the header of a token valid (Table 20-6), with the form of its trailer (R540)? -/
def State.tokenForm (s : State) (t : List Byte) : Bool :=
  let p := leAt t 0x0D 1
  bytesAt t 0 8 == ascii "OWWKTK01" && leAt t 8 2 == 1 && leAt t 0x0A 2 == 0x5120 && leAt t 0x0C 1 == 0xB1 &&
  (p == 1 && leAt t 0x0E 1 == 2 && leAt t 0x0F 1 == 0 ||
    p == 2 && decide (leAt t 0x0E 1 ≤ 3) && decide (leAt t 0x0F 1 ≤ 3)) &&
  bytesAt t 0x10 16 == s.regBytes (R.WKT_UID 0) 2 && (bytesAt t 0x20 32).all (· == 0) &&
  bytesAt t 64 8 == ascii "OWWKSG01" && trailerZero (bytesAt t 64 4928)

/-- May an UNLOCK pass now (R542)? -/
def State.unlockAllowed (s : State) : Bool :=
  !s.isOpen && s.wkt.unlock == 0 && ((s.phase == phReady && s.pwr.night == 0) || s.phase == phHostWait)

/-- The checks of a token, lowest condition first. -/
def State.tokenChecks (s : State) (t : List Byte) (chal : Option (List Byte)) : List (Nat × Bool) :=
  let kind := leAt t 0x0E 1
  let bank := leAt t 0x0F 1
  let revoke := leAt t 0x0D 1 == 2
  let tr := bytesAt t 64 4928
  let signed := bytesAt t 0 64 ++ bytesAt tr 0 0x98
  let b := if revoke then bank + 1 else s.activeBank keyDebug
  let ec := Config.fusedDigest kind b false
  let pq := Config.fusedDigest kind b true
  [(1, s.tokenForm t),
   (2, Config.ecdsaVerify ec signed (bytesAt tr 0x98 96)),
   (3, Config.mldsaVerify pq signed (bytesAt tr 0xF8 4627)),
   (4, decide (b ≤ 3) && bytesAt tr 0x38 48 == ec && bytesAt tr 0x68 48 == pq),
   (5, chal == some (bytesAt tr 8 48)),
   (6, revoke || s.unlockAllowed),
   (8, !revoke || (bank == s.activeBank kind && decide (bank < 3)))]

/-- The bits of `WKT_BANK_STATUS` for a kind. -/
def bankFld (kind : Nat) : Fld := ⟨R.WKT_BANK_STATUS, 4 * kind + 1, 4 * kind⟩

/-- The revocation fuse of a bank is burned. -/
def State.revokeBank (s : State) (kind bank : Nat) : State :=
  let s1 := s.withWkt { s.wkt with revoked := spSet (fun _ => false) s.wkt.revoked (4 * kind + bank) true }
  s1.set (bankFld kind) (((List.range 4).find? fun b => !spGet (fun _ => false) s1.wkt.revoked (4 * kind + b)).getD 3)

/-- The checks end. -/
def execTokenCheckEnd (s : State) : Res :=
  match s.wkt.token with
  | none => .next s
  | some (t, chal) =>
    let s1 := ((s.set F.WKT_TOKEN_STATUS_BUSY 0).withWkt { (s.set F.WKT_TOKEN_STATUS_BUSY 0).wkt with token := none })
    match lowestFailing (s.tokenChecks t chal) with
    | some c => .next ((s1.wktFault c (leAt t 0x0D 1) (leAt t 0x0E 1)).set F.WKT_TOKEN_STATUS_LAST_FC (0x0400 + c))
    | none =>
      let s2 := s1.set F.WKT_TOKEN_STATUS_LAST_FC 0
      if leAt t 0x0D 1 = 2 then .next (s2.revokeBank (leAt t 0x0E 1) (leAt t 0x0F 1))
      else
        let s3 := s2.withWkt { s2.wkt with unlock := 1 }
        .next s3.siteCancel

/-! ### Floors (R532) -/

/-- The value in force of a kind, the floor's register, and its count of entries. -/
def State.arbInForce (s : State) (kind : Nat) : Nat :=
  if kind = 0 then s.get F.SITE_LIVE_ARB_ARB else if kind = 1 then s.get F.BOOT_IMG_ARB_ARB else s.get F.TE_UC_ARB_ARB
def floorFld (kind : Nat) : Fld :=
  if kind = 0 then F.SITE_ARB_FLOOR_FLOOR else if kind = 1 then F.BOOT_ARB_FLOOR_FLOOR else F.TE_UC_ARB_FLOOR_FLOOR
def usedFld (kind : Nat) : Fld := ⟨R.WKT_ARB_USED, 8 * kind + 5, 8 * kind⟩

/-- RAISE: the next entry of a floor is programmed with the value in force, where that is above it. -/
def State.raiseFloor (s : State) (kind : Nat) : State :=
  let l := spGet (fun _ => []) s.wkt.floors kind
  let v := s.arbInForce kind
  if 32 ≤ l.length then s.wktFault 7 0 kind
  else if v ≤ s.floorOf kind then s
  else
    (s.withWkt { s.wkt with floors := spSet (fun _ => []) s.wkt.floors kind (l ++ [v]) }).sets
      [(floorFld kind, v), (usedFld kind, l.length + 1)]

def execRaise (kind : Nat) (s : State) : Res := .next (s.raiseFloor kind)

/-! ### The opening of the wicket (R542, Table 20-7) -/

/-- Partitions that the opening marks: of TDs other than 0, and those with `ERASE_ON_OPEN`. -/
def openingRanges (p : Plan) : List (Nat × Nat) :=
  ((partitions p).filter fun (k, _, fl, o, _, _) => (k == 2 && o != 0) || fl.testBit 2).map fun (_, _, _, _, b, n) => (b, n)

/-- Steps 1 to 4: tenant work ends, keys go, pavilions are scrubbed, memory is marked. -/
def State.eraseTenants (s : State) : State :=
  let s1 := ((s.cphErase.hifWicket).teWicket).nveWicket
  let s2 := ((List.range 4096).filter fun f => f != 0 && fnPresent s1.plan f).foldl (fun (s : State) f => (s.tdiError f).setTdi f 3) s1
  let s3 := (List.range 16).foldl (fun (s : State) p => s.flushPort p fun s => s) s2
  s3.emptyAllGroups.zeroRanges (openingRanges s3.plan)

/-- Erasure begins, once no site load is in progress. -/
def execWicketErasure (s : State) : Res :=
  if s.wkt.unlock ≠ 1 ∨ s.sitePhase ≠ sIdle ∨ s.pwr.holdAt ≠ [] then .next s
  else
    let s1 := (s.set F.WKT_LIFECYCLE_ERASING 1).eraseTenants
    .next (s1.withWkt { s1.wkt with unlock := 2 })

/-- Steps 5 and 6: keys of Open are drawn, private keys and retained secrets are zeroed, the root key is
latched, and the lifecycle is Open. -/
def execWicketOpenComplete (s : State) : Res :=
  if s.wkt.unlock ≠ 2 ∨ s.pwr.holdAt ≠ [] then .next s
  else
    let (o, s1) := s.takeFree
    let (a, s2) := s1.takeFree
    let s3 := s2.zeroRange 0x0E0000000000 0x10000
    let s4 := ((((s3.withZeroMap s2.zeroMap).withWkt { s3.wkt with unlock := 0, erased := true, openKeys := some o, aliasKeys := some a, sessions := [] }).withBoot { s3.boot with warm := none }).withPcie { s3.pcie with ide := [], ideKeys := [] })
    .next ((s4.sets [(F.WKT_LIFECYCLE_ERASING, 0), (F.WKT_LIFECYCLE_LATCHED, 1), (F.WKT_LIFECYCLE_OPEN, 1)]).wktFault 0x0A 0 0)

end Sys2Proof.Machine
end

