-- ==== Sys2Proof/Machine/CsrWrite.lean ====
section
/-! DEFINITION. Writes to the control space (R7 to R12, R20 to R25, R33, R35, R55): the checks in their order, the
field update by access type, and what a register's own rule adds. A register is named by the offset `b` of the
first of its array and its indices `i` and `j`. -/

namespace Sys2Proof.Machine

/-! ### Wakes (R480) -/

/-- The tiles of a unit that a control-space access wakes. -/
def unitTiles (u : Nat) : List Nat :=
  if u = uArb then List.range 180
  else if u = uApc then (List.range 8).map (276 + ·)
  else if u = uPav then (List.range 64).map (284 + ·)
  else if u = uCph then (List.range 32).map (348 + ·)
  else if u = uTe then (List.range 16).map (380 + ·)
  else if u = uNve then (List.range 8).map (396 + ·)
  else if u = uHif then (List.range 6).map (404 + ·)
  else if u = uSch then (List.range 16).map (410 + ·)
  else if u = uAcm then [426, 556] ++ (List.range 128).map (428 + ·)
  else if u = uEmt then [427]
  else if u = uPrm then (List.range 256).map (557 + ·)
  else []

/-- Does an access to its unit wake the tile: in Haze or Overcast, and no pavilion asleep by its own wish (R119)? -/
def State.wakes (s : State) (t : Nat) : Bool :=
  let x := s.tile t
  (x.sky == 1 || x.sky == 2) && !x.waking && !x.hold &&
  !(decide (284 ≤ t) && decide (t ≤ 347) && (grpOf s.plan (t - 284)).any fun g => s.get (F.PAV_GRP_STATE_SLEEP g) == 1)

/-- A control-space access reaches a unit: its sleeping tiles begin to wake. -/
def State.wakeUnit (s : State) (u : Nat) : State :=
  ((unitTiles u).filter s.wakes).foldl State.startWake s

/-! ### Encodings that no single field shows (R9) -/

def csrPairOk (s : State) (b i : Nat) (v : Word) : Bool :=
  if b = R.SITE_QUIESCE_LIMIT then decide (s.get F.SITE_DRAIN_LIMIT_LIMIT_US ≤ bitsAt v 31 0)
  else if b = R.SITE_DRAIN_LIMIT then decide (bitsAt v 31 0 ≤ s.get F.SITE_QUIESCE_LIMIT_LIMIT_US)
  else if b = R.ETH_PFC_THR 0 then decide (bitsAt v 16 0 < bitsAt v 48 32)
  else if b = R.ACM_SHIFT_CMD then decide (bitsAt v 10 0 ≤ bitsAt v 26 16)
  else if b = R.ACM_ACT_BUF0 then bitAt v 7 != bitAt v 6
  else if b = R.ACM_POL_MODE then decide (-64 ≤ signedOf 8 (bitsAt v 15 8)) && decide (signedOf 8 (bitsAt v 15 8) ≤ 63)
  else if b = R.ACM_MIR_SESS 0 then bitsAt v 15 0 == 0 || decide (64 ≤ bitsAt v 15 0)
  else if b = R.ACM_PROF_CFG 0 then
    bitsAt v 47 46 == 0 ||
      (decide (bitsAt v 42 36 + bitsAt v 35 28 ≤ 128) && (bitsAt v 47 46 != 1 || decide (bitsAt v 35 28 ≤ 36)))
  else if b = R.EMT_TBL_REDIR_STG 0 then
    !emtPresent s.plan (bitsAt v 5 0) || !emtPresent s.plan i || emtKeyLen s.plan (bitsAt v 5 0) == emtKeyLen s.plan i
  else if b = R.SCH_NODE_RATE_STG then
    bitsAt v 40 0 == 0 || (decide (8000 ≤ bitsAt v 40 0) && decide (bitsAt v 40 0 ≤ 1600000000000))
  else if b = R.SCH_CLS_MAXSDU 0 0 then bitsAt v 15 0 == 0 || decide (64 ≤ bitsAt v 15 0)
  else if b = R.HIF_PORT_L0P 0 then decide (bitsAt v 7 0 < bitsAt v 15 8)
  else if b = R.SDL_THRESH then decide (bitsAt v 15 0 < bitsAt v 31 16)
  else if b = R.PWR_HART_CTRL then !(bitAt v 63 && bitAt v 62)
  else true

/-! ### Structure that the plan does not provide (R21) -/

/-- Objects of a cluster's gatehouse (Table 5-6). -/
def gatehouseCount (type : Nat) : Nat :=
  match type with
  | 0 => 1024
  | 1 => 256
  | 2 => 16
  | _ => 8

/-- Has the plan the namespace that a selector names? -/
def nveNamed (p : Plan) (v : Word) : Bool :=
  nveHas p (bitsAt v 27 16) && decide (1 ≤ bitsAt v 5 0) && decide (bitsAt v 5 0 ≤ nveNsMax p (bitsAt v 27 16))

def csrAbsentNet (s : State) (b i j : Nat) (v : Word) : Bool :=
  let p := s.plan
  if b = R.PRM_TRACE_CFG then !epPresent p (bitsAt v 15 0)
  else if b = R.ETH_PFC_THR 0 then !portPresent p (i / 8)
  else if R.ETH_LINK_CTRL 0 ≤ b ∧ b ≤ R.ETH_TX_ABORT 0 then !portPresent p i
  else if R.PAV_GRP_STATE 0 ≤ b ∧ b ≤ R.PAV_GRP_MEAS 0 0 then !grpFirst p i
  else if b = R.ARB_GH_SEL 0 then decide (gatehouseCount (bitsAt v 13 12) ≤ bitsAt v 9 0)
  else if b = R.ACM_ENT_ADDR then !bankAlloc p (bitsAt v 17 11)
  else if b = R.EMT_DMA_FIRST then !emtPresent p (bitsAt v 29 24)
  else if b = R.EMT_TBL_REDIR_STG 0 then !emtPresent p i || !emtPresent p (bitsAt v 5 0)
  else if R.EMT_TBL_CFG 0 ≤ b ∧ b ≤ R.EMT_TBL_ACTIVE 0 then !emtPresent p i
  else if b = R.SCH_NODE_SEL_STG ∨ b = R.SCH_NODE_VIEW_SEL then !nodePresent p (bitsAt v 17 16) (bitsAt v 15 0)
  else if R.SCH_PORT_CFG 0 ≤ b ∧ b ≤ R.SCH_PORT_FLUSH_DROP 0 then !portPresent p i
  else if b = R.SCH_LEAF_LIMIT 0 ∨ b = R.SCH_LEAF_DROP 0 then (groupPort p (i / 16)).isNone
  else if b = R.SCH_GCL_STG 0 0 ∨ b = R.SCH_GCL_OPER 0 0 then !portPresent p i
  else j != j

def csrAbsentHost (s : State) (b i : Nat) (v : Word) : Bool :=
  let p := s.plan
  if b = R.CPH_Q_CFG 0 ∨ b = R.CPH_Q_NEXT 0 ∨ b = R.CPH_Q_STATE 0 ∨ b = R.CPH_Q_REQS 0 ∨ b = R.CPH_Q_REFUSED 0 then
    !cphQPresent p i
  else if b = R.NVE_NS_SEL_STG ∨ b = R.NVE_NS_VIEW_SEL then !nveNamed p v
  else if b = R.NVE_MODE_SEL_STG ∨ b = R.NVE_MODE_VIEW then !nveHas p (bitsAt v 27 16)
  else if b = R.HIF_Q_SEL then !hqExists p (bitsAt v 19 0)
  else if b = R.HIF_Q_FORCE then bitAt v 0 && !hqExists p (s.get F.HIF_Q_SEL_Q)
  else if b = R.TE_QP_SEL then (teCtxEngine p (bitsAt v 21 0)).isNone
  else if b = R.TE_QP_FORCE then bitAt v 0 && (teCtxEngine p (s.get F.TE_QP_SEL_QP)).isNone
  else if b = R.HIF_ATW_STG_A 0 0 ∨ b = R.HIF_ATW_STG_B 0 0 then pfAtwLog2 p i == 0
  else if b = R.FLT_MSIX then p != [] && decide (fnMsixSize p 0 ≤ bitsAt v 10 0)
  else false

def State.csrAbsent (s : State) (b i j : Nat) (v : Word) : Bool :=
  csrAbsentNet s b i j v || csrAbsentHost s b i v

/-! ### Structure under amendment (R55) -/

/-- Does the write target an element under amendment? -/
def State.csrHeld (s : State) (b i : Nat) (v : Word) : Bool :=
  if b = R.ETH_PFC_THR 0 then s.underAmendment secPortLayout 0 (i / 8)
  else if R.ETH_LINK_CTRL 0 ≤ b ∧ b ≤ R.ETH_TX_ABORT 0 then s.underAmendment secPortLayout 0 i
  else if R.PAV_GRP_STATE 0 ≤ b ∧ b ≤ R.PAV_GRP_MEAS 0 0 then s.underAmendment secPavGroups 0 i
  else if R.ARB_CLU_STATE 0 ≤ b ∧ b < R.ARB_CLU_STATE 1 ∧ b ≠ R.ARB_DBG_CTRL 0 then s.dbgHeld i
  else if b = R.ACM_PROF_CFG 0 then s.underAmendment secAcmBanks 0 i
  else if R.EMT_TBL_CFG 0 ≤ b ∧ b ≤ R.EMT_TBL_ACTIVE 0 then s.underAmendment secEmtGeometry 0 i
  else if R.SCH_PORT_CFG 0 ≤ b ∧ b ≤ R.SCH_PORT_FLUSH_DROP 0 ∨ b = R.SCH_GCL_STG 0 0 then
    s.underAmendment secSchTree i 0 || s.underAmendment secPortLayout 0 i
  else if b = R.SCH_LEAF_LIMIT 0 ∨ b = R.SCH_LEAF_DROP 0 then
    (groupPort s.plan (i / 16)).any fun p => s.underAmendment secSchTree p 0 || s.underAmendment secPortLayout 0 p
  else if R.CPH_Q_CFG 0 ≤ b ∧ b ≤ R.CPH_Q_REFUSED 0 then s.underAmendment secCphAlloc 0 i
  else if b = R.SCH_NODE_SEL_STG then s.egressHeld (nodePort s.plan (bitsAt v 17 16) (bitsAt v 15 0))
  else if b = R.TB_PORT_CFG 0 then s.underAmendment secPortLayout 0 i
  else if b = R.NVE_NS_SEL_STG ∨ b = R.NVE_MODE_SEL_STG then s.underAmendment secNveAlloc 0 (bitsAt v 27 16)
  else if b = R.HIF_Q_FORCE then
    s.fnAmended (hqFn (s.get F.HIF_Q_SEL_Q))
  else if b = R.TE_QP_FORCE then s.qpAmended (s.get F.TE_QP_SEL_QP)
  else if b = R.HIF_ATW_STG_A 0 0 ∨ b = R.HIF_ATW_STG_B 0 0 ∨ b = R.HIF_ATW_COMMIT 0 then s.underAmendment secFunctions i 0
  else false

/-! ### Staging (R22, R25) -/

/-- The commit register of the domain that a staging register belongs to. -/
def stagingCommit (b i : Nat) : Option Nat :=
  if b = R.SITE_SRC_ADDR_STG ∨ b = R.SITE_SRC_LEN_STG ∨ b = R.SITE_SRC_CFG_STG then some R.SITE_COMMIT
  else if b = R.ACM_VER_STG then some R.ACM_VER_COMMIT
  else if b = R.EMT_TBL_REDIR_STG 0 then some (R.EMT_TBL_REDIR_COMMIT i)
  else if R.SCH_NODE_SEL_STG ≤ b ∧ b ≤ R.SCH_NODE_CBS_STG then some R.SCH_NODE_COMMIT
  else if (R.SCH_GCL_LEN_STG 0 ≤ b ∧ b ≤ R.SCH_GCL_EXT_STG 0) ∨ b = R.SCH_GCL_STG 0 0 then some (R.SCH_GCL_COMMIT i)
  else if R.CPH_KEY_SEL_STG ≤ b ∧ b ≤ R.CPH_KEY_DATA_STG 0 then some R.CPH_KEY_COMMIT
  else if R.TE_CC_SEL_STG ≤ b ∧ b ≤ R.TE_CC_BYTES_STG then some R.TE_CC_COMMIT
  else if R.NVE_NS_SEL_STG ≤ b ∧ b ≤ R.NVE_NS_CFG_STG then some R.NVE_NS_COMMIT
  else if b = R.NVE_MODE_SEL_STG ∨ b = R.NVE_MODE_STG then some R.NVE_MODE_COMMIT
  else if b = R.HIF_ATW_STG_A 0 0 ∨ b = R.HIF_ATW_STG_B 0 0 then some (R.HIF_ATW_COMMIT i)
  else if R.TB_ADJ_SEL_STG ≤ b ∧ b ≤ R.TB_ADJ_SLEW_STG then some R.TB_COMMIT
  else if R.PWR_OP_SEL_STG ≤ b ∧ b ≤ R.PWR_OP_MHZ_STG then some R.PWR_OP_COMMIT
  else none

/-- Is a commit of the register's domain pending? -/
def State.stagingHeld (s : State) (b i : Nat) : Bool :=
  match stagingCommit b i with
  | some c => bitAt (s.rd c) 2
  | none => false

/-! ### Commit registers (R23, R25) -/

/-- GO on a commit register. -/
def State.csrGo (s : State) (b i : Nat) : State :=
  if b = R.SITE_COMMIT then s.siteGo
  else if b = R.ACM_VER_COMMIT then s.acmVerGo
  else if b = R.EMT_TBL_REDIR_COMMIT 0 then s.emtRedirGo i
  else if b = R.SCH_NODE_COMMIT then s.schNodeGo
  else if b = R.SCH_GCL_COMMIT 0 then s.gclGo i
  else if b = R.CPH_KEY_COMMIT then s.keyGo
  else if b = R.TE_CC_COMMIT then s.ccGo
  else if b = R.NVE_NS_COMMIT then s.nveNsGo
  else if b = R.NVE_MODE_COMMIT then s.nveModeGo
  else if b = R.HIF_ATW_COMMIT 0 then s.atwGo i
  else if b = R.TB_COMMIT then s.tbGo
  else if b = R.PWR_OP_COMMIT then s.opGo
  else s

/-- CANCEL on a commit register whose commit is pending: it is withdrawn. A commit whose boundary has come (a key operation
performed, a node's refill instant, an adjustment's instant) is applied, so its CANCEL loses (R25). -/
def State.csrCancel (s : State) (b i : Nat) : State :=
  let o := if b = R.EMT_TBL_REDIR_COMMIT 0 then R.EMT_TBL_REDIR_COMMIT i
    else if b = R.HIF_ATW_COMMIT 0 then R.HIF_ATW_COMMIT i else b
  if b = R.SITE_COMMIT then s.siteCancel
  else if b = R.SCH_GCL_COMMIT 0 then s.gclCancel i
  else if b = R.PWR_OP_COMMIT then s.opCancel
  else if b = R.ACM_VER_COMMIT then s.sets [(F.ACM_VER_COMMIT_PENDING, 0), (F.ACM_VER_STATUS_STALL, 0)]
  else if b = R.SCH_NODE_COMMIT then if s.sch.due then s else s.set F.SCH_NODE_COMMIT_PENDING 0
  else if b = R.TB_COMMIT then if s.tbDue then s else s.set F.TB_COMMIT_PENDING 0
  else if b = R.CPH_KEY_COMMIT then
    if s.cph.done.isSome then s else s.sets [(F.CPH_KEY_COMMIT_PENDING, 0), (F.CPH_KEY_STATUS_BUSY, 0)]
  else s.set ⟨o, 2, 2⟩ 0

/-- A write to a commit register at offset `o`. -/
def State.commitWrite (s : State) (u o b i : Nat) (v : Word) : State :=
  let pending := bitAt (s.rd o) 2
  if bitAt v 0 && bitAt v 1 then s.common u 0xFF
  else if bitAt v 0 then if pending then s else s.csrGo b i
  else if bitAt v 1 && pending then s.csrCancel b i
  else s

/-! ### The plain update -/

/-- A register after a write by its fields' access types; FLT follows status and masks (R11, R558). -/
def State.csrPut (s : State) (r : RegSpec) (u o : Nat) (v : Word) : State :=
  let s1 := s.wr o (specWrite r s.wkt.lock (s.rd o) v)
  if o = errStatus u ∨ o = errMask u ∨ o = R.TE_UC_ERR_STATUS ∨ o = R.TE_UC_ERR_MASK ∨ o = R.PAV_DONE ∨ o = R.PAV_DONE_MASK then
    s1.fltRefresh u
  else s1

/-! ### Registers with a rule of their own: `none` for a plain register -/

/-- A debug command on a cluster (R151, R153). -/
def State.dbgCommand (s : State) (c op t : Nat) (ue : Bool) : State :=
  if op = 1 then s.dbgHalt c t
  else if op = 2 then s.dbgResume c t
  else if op = 3 then s.dbgStep c t (if ue then .memory else .none)
  else if op = 4 then s.dbgAbandon c t
  else if op = 5 then s.dbgHaltAll c
  else s.dbgResumeAll c

/-- Bits that the write clears in `EMT_REHASH_REQ` start their counts of failures again (R219). -/
def State.rehashClear (s : State) (v : Word) : State :=
  (List.range 64).foldl (fun (s : State) t => if bitAt v t then s.setEmtFails t 0 else s)
    (s.wr R.EMT_REHASH_REQ (s.rd R.EMT_REHASH_REQ &&& ~~~v))

def State.csrNet (s : State) (r : RegSpec) (o b i : Nat) (v : Word) (e : CsrEnv) : Option State :=
  if b = R.PRM_STALL_LIMIT then some (s.stallLimitWrite (bitsAt v 23 0) e.overIn e.overEject)
  else if b = R.ETH_PFC_CFG then some (s.csrPut r uEth o v).pfcSettle
  else if b = R.ETH_PFC_THR 0 then
    some (if bitAt v 63 then (s.csrPut r uEth o v).pfcSettle else ((s.csrPut r uEth o v).pfcEnClear i))
  else if b = R.ETH_LINK_CTRL 0 then
    some (if bitAt v 0 then (s.csrPut r uEth o v).linkStart i else (s.csrPut r uEth o v).linkDown i e.receiving)
  else if b = R.SCH_PORT_CFG 0 then some ((s.csrPut r uSch o v).flushIfDown i)
  else if b = R.PAV_CMD then some (s.pavCmd (bitsAt v 3 0) (bitsAt v 13 8) (bitAt v 4) (bitsAt v 47 32))
  else if b = R.PAV_GRP_CLKCAP 0 then some (s.clkcapWrite i (bitsAt v 9 0))
  else if b = R.ARB_DBG_CTRL 0 then some (s.dbgCommand i (bitsAt v 2 0) (bitsAt v 11 6) e.src.ecc.bad)
  else if b = R.ACM_ENT_CMD then some (s.acmEntCmd (bitsAt v 2 0))
  else if b = R.ACM_SHIFT_CMD then some (s.acmShiftCmd (bitAt v 39) (bitsAt v 38 32) (bitsAt v 10 0) (bitsAt v 26 16))
  else if b = R.ACM_ACT_CMD then some (if bitsAt v 1 0 = 1 then s.actWrite else s.actRead)
  else if b = R.ACM_POL_CMD then some (if bitsAt v 1 0 = 1 then s.polWrite else s.polRead)
  else if b = R.EMT_REHASH_CFG then some ((s.csrPut r uEmt o v).emtRehashAll)
  else if b = R.EMT_REHASH_REQ then some (s.rehashClear v)
  else if b = R.EMT_CMD then some (s.emtCommand (bitsAt v 3 0) (bitsAt v 13 8))
  else if b = R.EMT_DMA_CMD then some (s.emtDma (bitsAt v 2 0) (bitAt v 4))
  else none

def State.csrEngines (s : State) (b i j : Nat) (v : Word) : Option State :=
  if b = R.CPH_KEY_DATA_STG 0 then some (s.withCph { s.cph with data := s.cph.data.set i v })
  else if b = R.CPH_PAIR_CTRL 0 then
    some (if bitsAt v 1 0 = 1 then s.cphQuarantineCmd i else if bitsAt v 1 0 = 2 then s.cphTestCmd i else s.cphReinstateCmd i)
  else if b = R.TE_QP_FORCE then some (if bitAt v 0 then s.teQpForce else s)
  else if b = R.TE_UC_CMD then some (if bitsAt v 1 0 = 1 then s.ucLoad (bitAt v 4) else s.ucSeal)
  else if b = R.NVE_CONN_CMD then
    some (if bitsAt v 1 0 = 1 then s.connOffload else if bitsAt v 1 0 = 2 then s.connClose (bitAt v 8) else s.connQuery)
  else if b = R.HIF_Q_FORCE then some (if bitAt v 0 then s.hqErr (s.get F.HIF_Q_SEL_Q) 7 true else s)
  else if b = R.APC_RX_BASE 0 0 then some (s.ringBaseWrite i j false v)
  else if b = R.APC_TX_BASE 0 0 then some (s.ringBaseWrite i j true v)
  else if b = R.APC_RX_CFG 0 0 then some (s.ringCfgWrite i j false v)
  else if b = R.APC_TX_CFG 0 0 then some (s.ringCfgWrite i j true v)
  else none

def State.csrLodge (s : State) (r : RegSpec) (o b i : Nat) (v : Word) (e : CsrEnv) : Option State :=
  if b = R.TB_CLK_CFG then some (s.refSelect (bitsAt v 0 0) e.refPresent)
  else if b = R.TB_SNAP_CMD then some (if bitAt v 0 then s.snapshot else s)
  else if b = R.TB_PPSOUT_CFG then some ((s.csrPut r uTb o v).ppsWritten (s.rd o))
  else if b = R.TB_PORT_CFG 0 then some (s.portCfgWrite i v)
  else if b = R.PWR_NIGHT_CMD then some (if bitAt v 0 then s.nightEnter else s)
  else if b = R.PWR_HART_CTRL then
    some (if bitAt v 63 then s.hartStart (bitsAt v 6 0) else if bitAt v 62 then s.hartStop (bitsAt v 6 0) else s)
  else if b = R.SDL_REPLAN_CFG then some (s.replanInterval (bitsAt v 9 0))
  else if b = R.SDL_REPLAN_DONE then some (if bitAt v 0 then s.replanDone else s)
  else if b = R.BOOT_CMD then
    some (match bitsAt v 3 0 with
      | 1 => s.bootReady
      | 2 => s.failImage
      | 3 => s.verifySlot (bitsAt v 8 8)
      | _ => s.restorePlan)
  else if b = R.BOOT_XSPI_CMD then some (s.xspiCmd (bitsAt v 1 0))
  else if b = R.WKT_CHAL_CMD then some (if bitAt v 0 then s.newChallenge else s)
  else if b = R.WKT_TOKEN_CMD then some (if bitAt v 0 then s.tokenSubmit (bitAt v 4) e.bytes e.src else s)
  else if b = R.WKT_ARB_CMD then some (if bitAt v 4 then s.raiseFloor (bitsAt v 1 0) else s)
  else none

/-- The effect of a write that passes every check. -/
def State.csrEffect (s : State) (r : RegSpec) (u o b i j : Nat) (v : Word) (e : CsrEnv) : State :=
  ((s.csrNet r o b i v e).orElse fun _ => (s.csrEngines b i j v).orElse fun _ => s.csrLodge r o b i v e).getD
    (s.csrPut r u o v)

/-- What a unit's `_ERR_FIRST` names as concerned by a write that it refuses with a common condition: the group,
cluster, profile, bank and entry, table, port, queue or function that the write names; zero where it names none. -/
def State.csrConcerned (s : State) (b i : Nat) (v : Word) : Nat :=
  if R.PAV_GRP_STATE 0 ≤ b ∧ b ≤ R.PAV_GRP_MEAS 0 0 then i
  else if b = R.PAV_CMD then bitsAt v 13 8
  else if R.ARB_CLU_STATE 0 ≤ b ∧ b < R.ARB_CLU_STATE 1 then i * 2 ^ 32
  else if b = R.ACM_ENT_ADDR then s.acmExtra (bitsAt v 17 11) (bitsAt v 10 0)
  else if b = R.ACM_SHIFT_CMD then s.acmExtra (bitsAt v 38 32) (bitsAt v 10 0)
  else if b = R.ACM_PROF_CFG 0 then i * 2 ^ 32
  else if b = R.EMT_DMA_FIRST then bitsAt v 29 24 * 2 ^ 32
  else if R.EMT_TBL_CFG 0 ≤ b ∧ b ≤ R.EMT_TBL_ACTIVE 0 ∨ b = R.EMT_TBL_REDIR_STG 0 then i * 2 ^ 32
  else if R.SCH_PORT_CFG 0 ≤ b ∧ b ≤ R.SCH_PORT_FLUSH_DROP 0 ∨ b = R.SCH_GCL_STG 0 0 ∨ b = R.SCH_GCL_OPER 0 0 then i * 2 ^ 32
  else if R.CPH_Q_CFG 0 ≤ b ∧ b ≤ R.CPH_Q_REFUSED 0 then i * 2 ^ 24
  else if b = R.NVE_NS_SEL_STG ∨ b = R.NVE_MODE_SEL_STG ∨ b = R.NVE_NS_VIEW_SEL ∨ b = R.NVE_MODE_VIEW then
    bitsAt v 27 16 * 2 ^ 28
  else 0

/-- A whole 64-bit write at an offset of the control space: ignored where no map defines a register (R10, R33),
refused with the common conditions 0xFF, 0xFE, 0xFC and 0xFD in this order, otherwise applied. -/
def State.csrStore (s : State) (o : Nat) (v : Word) (e : CsrEnv) : State :=
  let u := o / 0x1000000
  match findReg (unitRegs u) (o % 0x1000000) with
  | none => s
  | some (r, i, j) =>
    let b := unitOff u r.off
    let x := s.csrConcerned b i v
    if !specEncOk r v || !csrPairOk s b i v then s.capture u 0xFF x
    else if s.csrAbsent b i j v then s.capture u 0xFE x
    else if s.csrHeld b i v then s.capture u 0xFC x
    else if s.stagingHeld b i then s.capture u 0xFD x
    else if r.isCommit then s.commitWrite u o b i v
    else s.csrEffect r u o b i j v e

/-! ### The IOMMU's register file (R447) -/

/-- Is the offset in the one region that takes accesses of 4 bytes? -/
def inIommu (o : Nat) : Bool := decide (0x19010000 ≤ o) && decide (o < 0x19011000)

/-- The queue enables of the IOMMU switch its queues on and off; a queue switched on starts empty. -/
def State.iommuQueues (s : State) : State :=
  let s1 := if s.get F.MEM_IOMMU_CSR_CQEN = s.get F.MEM_IOMMU_CSR_CQON then s
    else if s.get F.MEM_IOMMU_CSR_CQEN = 1 then
      s.sets [(F.MEM_IOMMU_CSR_CQON, 1), (F.MEM_IOMMU_CQP_CQH, 0), (F.MEM_IOMMU_CQP_CQT, 0), (F.MEM_IOMMU_CSR_CQMF, 0),
        (F.MEM_IOMMU_CSR_CMD_ILL, 0), (F.MEM_IOMMU_CSR_CMD_TO, 0), (F.MEM_IOMMU_CSR_FENCE_IP, 0)]
    else s.set F.MEM_IOMMU_CSR_CQON 0
  if s1.get F.MEM_IOMMU_CSR_FQEN = s1.get F.MEM_IOMMU_CSR_FQON then s1
  else if s1.get F.MEM_IOMMU_CSR_FQEN = 1 then
    s1.sets [(F.MEM_IOMMU_CSR_FQON, 1), (F.MEM_IOMMU_FQP_FQH, 0), (F.MEM_IOMMU_FQP_FQT, 0), (F.MEM_IOMMU_CSR_FQMF, 0),
      (F.MEM_IOMMU_CSR_FQOF, 0)]
  else s1.set F.MEM_IOMMU_CSR_FQON 0

/-- A write of 4 or 8 bytes to the register file: the fields that lie in the bytes written change. R447 takes only R7
away from it, so a reserved encoding (a mode of `DDTP` that R445 does not list) is refused under R9. -/
def State.iommuStore (s : State) (o n : Nat) (v : Word) : State :=
  let a := o / 8 * 8
  match findReg (unitRegs uMem) (a % 0x1000000) with
  | none => s
  | some (r, _, _) =>
    let old := s.rd a
    let lo := 8 * (o % 8)
    let hi := lo + 8 * n - 1
    let new := if n = 8 then v else setBits old hi lo (bitsAt v 31 0)
    let r1 := { r with fields := r.fields.filter fun (f : FieldSpec) => decide (f.lo ≤ hi) && decide (lo ≤ f.hi) }
    if !specEncOk r1 new then s.common uMem 0xFF
    else (s.wr a (specWrite r1 false old new)).iommuQueues

def State.iommuLoad (s : State) (o n : Nat) : Word :=
  let w := s.rd (o / 8 * 8)
  if n = 8 then w else BitVec.ofNat 64 (bitsAt w (8 * (o % 8) + 31) (8 * (o % 8)))

/-! ### Accesses (R7, R34, R35) -/

/-- Is the access one that the register at the offset takes? -/
def csrAligned (o n : Nat) : Bool :=
  if inIommu o then (n == 4 || n == 8) && o % n == 0 else n == 8 && o % 8 == 0

/-- A posted write through a function that Table 15-11 drops as an Unsupported Request. -/
def State.postedUr (s : State) (f : Nat) : State :=
  ((s.count F.HIF_UR_COUNT_COUNT).hifFault 0x0E f 0).aer f aerUnsupported true

/-- A read through a function that Table 15-11 answers with UR. -/
def State.readUr (s : State) (f tag : Nat) : State :=
  ((s.hifFault 0x0E f 0).aer f aerUnsupported true).emit (.hostRead tag [] true)

/-- A write of `n` bytes that the register at an offset of the control space takes. -/
def State.csrWrite (s : State) (o n : Nat) (v : Word) (e : CsrEnv) : State :=
  let s1 := s.wakeUnit (o / 0x1000000)
  if inIommu o then s1.iommuStore o n v else s1.csrStore o v e

/-- A host's write through BAR0: one of another size or alignment is an Unsupported Request (R7). -/
def State.hostCsrWrite (s : State) (o n : Nat) (v : Word) (e : CsrEnv) : State :=
  if csrAligned o n then s.csrWrite o n v e else s.postedUr 0

/-- A read of `n` bytes that the register takes: the value, and the state after it. -/
def State.csrLoad (s : State) (o n : Nat) : Word × State :=
  let s1 := s.wakeUnit (o / 0x1000000)
  if inIommu o then (s1.iommuLoad o n, s1) else s1.csrRead o

/-! ### Commands -/

/-- A posted write in bring-up refusal (R404, R405). -/
def State.postedRefused (s : State) (f : Nat) : State :=
  ((s.count F.HIF_PRE_READY_DROP_COUNT).hifFault 0x05 f 0).aer f aerUnsupported true

/-- A core's access of `n` bytes at an offset of the control space: `act` performs it. A poisoned fetch ends in an
instruction access fault before it (R429); an access of another size or alignment (R7), in a mode or against a PMP
entry that denies it, or beyond the control space, in an access fault (R430). -/
def State.coreAccess (s : State) (x : HartAccess) (o n : Nat) (write : Bool) (act : State → State) : State :=
  let s1 := s.hartFetch x
  if x.fetch = .poisoned then s1
  else if csrAligned o n && s1.coreReaches x o n write then act s1
  else s1.emit (.accessFault o)

/-- A write to the control space: of a host through BAR0 of PF0, or of a core. -/
def execRegisterWrite (who : Accessor) (offset size : Nat) (value : Word) (env : CsrEnv) (s : State) : Res :=
  match who with
  | .host => if s.refusing then .next (s.postedRefused 0) else .next (s.hostCsrWrite offset size value env)
  | .core x => .next (s.coreAccess x offset size true fun s => s.csrWrite offset size value env)

/-- A core's read of a register, which clears its RC fields: the value returned is an output. -/
def execRcRegisterRead (access : CoreRead) (s : State) : Res :=
  .next (s.coreAccess access.who access.offset access.size false fun s =>
    let (v, s1) := s.csrLoad access.offset access.size
    s1.emit (.regRead access.offset v))

/-- CANCEL written to the commit register at an offset. -/
def execCommitCancel (offset : Nat) (s : State) : Res :=
  match findReg (unitRegs (offset / 0x1000000)) (offset % 0x1000000) with
  | some (r, _, _) => .next (if r.isCommit then s.csrStore offset 2 ⟨[], ⟨.clean, .ok⟩, false, false, [], []⟩ else s)
  | none => .next s

end Sys2Proof.Machine
end

