-- ==== Sys2Proof/Machine/Flt.lean ====
section
/-! DEFINITION. Faults of the surroundings of a command and of critical state (R550, R553). -/

namespace Sys2Proof.Machine

/-- The timer of a command runs out at its issuer (R553): endpoint `ep` delivers itself a completion with
status 0xF3 in the place of the lost one. `cmd` is the header of the command. -/
def execCompletionLost (ep : Nat) (cmd : List Word) (s : State) : Res :=
  if hGet cmd CH.kind ≠ kCommand ∨ hGet cmd CH.srcEp ≠ ep ∨ epStamped s.plan ep ∨ s.epHeld ep then .next s
  else
    let p : Packet :=
      ⟨unitCompletion cmd (hGet cmd CH.dstEp) 0xF3 0 0 (s.timeNs 0) (s.timeFrac 0), [], false⟩
    let s1 := (s.setInbox ep (s.inboxOf ep ++ [p])).fault uFlt 0x01 0 ep
    .next (s1.withLost (s1.lost ++ [(ep, hGet cmd CH.ctx)]))

/-- An uncorrectable error in one copy of critical state (R550): restored from the other copy; with both bad,
a controlled reset. `tile` is the tile of the unit that holds it. -/
def execCriticalStateRestore (tile : Nat) (both : Bool) (s : State) : Res :=
  .next (if both then s.controlledReset causeLost
    else (s.count F.FLT_COPY_REPAIR_COUNT).fault uFlt 0x02 1 (tile % 1024 * 65536))

end Sys2Proof.Machine
end

