-- ==== Sys2Proof/Machine/Inbound.lean ====
section
/-! DEFINITION. Requests that hosts send to the endpoint: configuration, memory reads, posted writes, and those
that are refused (R393 to R411, R420, R422 to R424, R516). -/

namespace Sys2Proof.Machine

/-! ### IDE streams (R420) -/

/-- The number of an IDE stream of a function's link: 0 the link stream, 1 to 8 selective. -/
def State.ideKey (s : State) (f stream : Nat) : Nat :=
  16 * (4 * fnPort f + fnLink (s.strap (fnPort f)) f) + stream

def State.ideSecure (s : State) (f stream : Nat) : Bool := spGet (fun _ => 0) s.pcie.ide (s.ideKey f stream) == 1

/-- The lowest PF of a function's link: it reports errors that concern no function (R423). -/
def State.lowestPf (s : State) (f : Nat) : Nat :=
  1024 * (linkPfs (s.strap (fnPort f)) (fnPort f) (fnLink (s.strap (fnPort f)) f)).headD (f / 1024)

/-- An integrity failure on a stream: Insecure, and reported. -/
def State.ideFail (s : State) (f stream : Nat) : State :=
  let s1 := s.withPcie { s.pcie with ide := spSet (fun _ => 0) s.pcie.ide (s.ideKey f stream) 0 }
  ((s1.count F.HIF_IDE_FAIL_COUNT_COUNT).hifFault 0x0C (s.lowestPf f) 0).aer (s.lowestPf f) aerIde false

/-- Does a TLP pass the IDE check of the stream it came on? One that fails is discarded, and so is every TLP on
a stream that is not Secure. -/
def State.ideGate (s : State) (f : Nat) (stream : Option Nat) (good : Bool) : Bool × State :=
  match stream with
  | none => (true, s)
  | some k =>
    if !s.ideSecure f k then (false, s)
    else if good then (true, s)
    else (false, s.ideFail f k)

/-- Is a TLP refused because the TDI is locked and the TLP is not on its stream (R422)? -/
def State.offStream (s : State) (f : Nat) (stream : Option Nat) : Bool :=
  s.tdiLocked f && (match stream with
    | some k => k + 1 != spGet (fun _ => 0) s.pcie.tdiStream f
    | none => true)

/-- A TLP begins to arrive: the link is in L0, and a window commit that waits becomes live (R411, R418). -/
def State.tlpArrives (s : State) (f : Nat) : State :=
  if fnIsVf f then s.l1Exit f else (s.l1Exit f).atwLive (f / 1024)

/-! ### Where an access goes (R399, R400) -/

/-- What an access through a BAR reaches. -/
inductive BarTarget
  | none | control | msix | pba | queues | nvme | rdma | zero | pavilion | aperture | rom
  deriving DecidableEq, Repr

/-- The structure of the personality region at an offset. -/
def personalityTarget (p : Plan) (f o : Nat) : BarTarget :=
  if 0x1C0000 ≤ o ∧ o < 0x1C0000 + 16 * fnMsixSize p f then .msix
  else if 0x1E0000 ≤ o ∧ o < 0x1E0000 + (fnMsixSize p f + 63) / 64 * 8 then .pba
  else if 0x1C0000 ≤ o then .zero
  else if fnPersonality p f ≤ 1 then .queues
  else if fnPersonality p f = 2 then (if o < 0x100000 then .nvme else .zero)
  else if o < 0x1000 then .rdma
  else .zero

/-- The target of an access: BAR numbers 0, 2 and 4, and 6 for the expansion ROM. -/
def State.barTarget (s : State) (f bar o : Nat) : BarTarget :=
  if bar = 6 then (if fnIsVf f ∨ 0x100000 ≤ o then .none else .rom)
  else if barLog2 s.plan f bar = 0 ∨ 2 ^ barLog2 s.plan f bar ≤ o then .none
  else if bar = 0 ∧ f = 0 then .control
  else if bar = personalityBar f then personalityTarget s.plan f o
  else if bar = 2 then .pavilion
  else .aperture

/-- Does an access of `n` bytes meet R7 and R400 where it reaches registers? -/
def barAligned (t : BarTarget) (o n : Nat) : Bool :=
  match t with
  | .aperture | .rom => true
  | .control => csrAligned o n
  | .msix | .pba | .nvme => (n == 4 || n == 8) && o % n == 0
  | _ => n == 8 && o % 8 == 0

/-- The address windows of a PF refuse a TLP (R410). -/
def State.atwMiss (s : State) (f : Nat) : State := (s.hifFault 0x08 f 0).aer f aerUnsupported true

/-! ### The boot window (R406, R516) -/

def State.windowRead (s : State) (o n tag : Nat) : State :=
  s.emit (.hostRead tag ((List.range n).map fun i => if o + i < 0x10000000 then s.byte (imgStore + o + i) else 0) false)

/-- A posted write to the boot window; dropped while a push is verified (R517). -/
def State.windowWrite (s : State) (o : Nat) (data : List Byte) : State :=
  if s.boot.pushing.isSome then s else s.putBytes (imgStore + o) (data.take (0x10000000 - o))

/-! ### Memory reads -/

/-- A read through an address window: the data, marked poisoned where it is, or UR. -/
def State.apertureRead (s : State) (f o n tag : Nat) (ecc : EccResult) : State :=
  match s.atwMatch (f / 1024) o n false with
  | none => (s.atwMiss f).emit (.hostRead tag [] true)
  | some (a, td) =>
    if !tdOwnsRange s.plan td a n then (s.partViolation a).emit (.hostRead tag [] true)
    else if ecc.bad || s.poisoned a n then (s.memRead ecc a).emit (.hostReadPoison tag (s.bytes a n))
    else (s.memRead ecc a).emit (.hostRead tag (s.bytes a n) false)

/-- A window of pavilion access: the group's window from offset 0; beyond it, all ones (R400). -/
def State.pavilionAccess (s : State) (f : Nat) (write : Bool) (o : Nat) (v : Word) (tag : Nat) : State :=
  let g := fnPavGroup s.plan f
  if g < 64 ∧ o < 0x400000 * 2 ^ grpSizeLog2 s.plan g then s.windowAccess g write o v tag
  else
    let s1 := s.count F.PAV_WIN_DROP_COUNT
    if write then s1 else s1.emit (.hostRead tag (List.replicate 8 0xFF) false)

/-- A read that its target takes. -/
def State.barRead (s : State) (t : BarTarget) (f o n tag : Nat) (ecc : EccResult) : State :=
  match t with
  | .control =>
    let (v, s1) := s.csrLoad o n
    s1.emit (.hostRead tag (natLE n v.toNat) false)
  | .msix =>
    let w := s.msixWord f ((o - 0x1C0000) / 16) (o / 8 % 2)
    s.emit (.hostRead tag (natLE n (w.toNat / 2 ^ (8 * (o % 8)))) false)
  | .pba => s.emit (.hostRead tag (natLE n (s.pbaRead f (o - 0x1E0000) n)) false)
  | .queues =>
    let (v, s1) := s.hifPageRead f o
    s1.emit (.hostRead tag (natLE 8 v.toNat) false)
  | .nvme =>
    match s.nveRegRead f o n with
    | (some v, s1) => s1.emit (.hostRead tag (natLE n v) false)
    | (none, s1) => s1.readUr f tag
  | .rdma => s.emit (.hostRead tag (natLE 8 (s.tePageRead f o).toNat) false)
  | .zero => s.emit (.hostRead tag (List.replicate n 0) false)
  | .pavilion => s.pavilionAccess f false o 0 tag
  | .aperture => s.apertureRead f o n tag ecc
  | .rom => s.emit (.hostRead tag (s.romRead (f / 1024) o n) false)
  | .none => s.readUr f tag

/-- An inbound memory read (Table 15-11): function, BAR, offset in it, length, tag, the IDE stream it came on
and whether its integrity check passed, and what the ECC check of memory that it reads finds. -/
def execMemoryReadRequest (fn bar offset len tag : Nat) (stream : Option Nat) (good : Bool) (ecc : EccResult) (s : State) : Res :=
  s.onTlp (.read fn bar offset len tag stream good ecc) <|
    let (pass, s0) := s.ideGate fn stream good
    if !pass then .next s0
    else
      let s1 := s0.tlpArrives fn
      let t := s1.barTarget fn bar offset
      if s1.bootWindow fn ∧ bar = 0 then
        .next (if s1.memEnabled fn ∧ offset + len ≤ 0x20000000 then s1.windowRead offset len tag else s1.readUr fn tag)
      else if s1.refusing then .next ((s1.hifFault 0x05 fn 0).emit (.hostRead tag [] true))
      else if !s1.fnThere fn || !s1.memEnabled fn || t == .none then .next (s1.readUr fn tag)
      else if bar = 6 ∧ (s1.cfg fn 0x30) % 2 = 0 then .next (s1.readUr fn tag)
      else if !barAligned t offset len || s1.offStream fn stream then .next (s1.readUr fn tag)
      else .next (s1.barRead t fn offset len tag ecc)

/-! ### Posted writes -/

/-- A write through an address window. -/
def State.apertureWrite (s : State) (f o : Nat) (data : List Byte) (poison : Bool) : State :=
  match s.atwMatch (f / 1024) o data.length true with
  | none => (s.count F.HIF_ATW_MISS_COUNT_COUNT).atwMiss f
  | some (a, td) =>
    if !tdOwnsRange s.plan td a data.length then s.partViolation a
    else if poison then ((s.putBytes a data).markPoison a data.length).aer f aerPoisoned true
    else s.putBytes a data

/-- A write that its target takes. -/
def State.barWrite (s : State) (t : BarTarget) (f o : Nat) (data : List Byte) (poison : Bool) (env : CsrEnv)
    (h : TeHost) : State :=
  let n := data.length
  let v := BitVec.ofNat 64 (leNat data)
  match t with
  | .control => s.hostCsrWrite o n v env
  | .msix => s.msixTableWrite f (o - 0x1C0000) n v.toNat
  | .queues => s.hifPageWrite f o v
  | .nvme =>
    match s.nveRegWrite f o n v.toNat with
    | (true, s1) => s1
    | (false, s1) => s1.postedUr f
  | .rdma => s.tePageWrite f o v h
  | .pavilion => s.pavilionAccess f true o v 0
  | .aperture => s.apertureWrite f o data poison
  | .pba | .zero | .rom | .none => s

/-- An inbound posted write (Table 15-11): function, BAR, offset, the bytes, whether they are poisoned, the IDE
stream and its check, and what the surroundings answer to a register write. A poisoned write to registers is not
applied (PRESUMED, the PCIe Base Specification). -/
def execPostedWriteRequest (fn bar offset : Nat) (data : List Byte) (poison : Bool) (stream : Option Nat) (good : Bool)
    (env : CsrEnv) (h : TeHost) (s : State) : Res :=
  s.onTlp (.write fn bar offset data poison stream good env h) <|
    let (pass, s0) := s.ideGate fn stream good
    if !pass then .next s0
    else
      let s1 := s0.tlpArrives fn
      let t := s1.barTarget fn bar offset
      if s1.bootWindow fn ∧ bar = 0 then
        .next (if s1.memEnabled fn ∧ offset < 0x20000000 then
            (if poison then s1.aer fn aerPoisoned true else s1.windowWrite offset data)
          else s1.postedUr fn)
      else if s1.refusing then .next (s1.postedRefused fn)
      else if !s1.fnThere fn || !s1.memEnabled fn || t == .none then .next (s1.postedUr fn)
      else if !barAligned t offset data.length || s1.offStream fn stream then .next (s1.postedUr fn)
      else if poison && t != .aperture then .next (s1.aer fn aerPoisoned true)
      else .next (s1.barWrite t fn offset data poison env h)

/-- An AtomicOp or an I/O request: UR (R404). -/
def execAtomicopIoRequest (x : TlpRoute) (tag : Nat) (s : State) : Res :=
  s.onTlp (.atomicIo x tag) <|
    let (pass, s0) := s.ideGate x.fn x.stream x.good
    if !pass then .next s0
    else if s0.refusing then .next ((s0.hifFault 0x05 x.fn 0).emit (.hostRead tag [] true))
    else .next ((s0.tlpArrives x.fn).readUr x.fn tag)

/-! ### Configuration requests (R393, R396 to R398, R406) -/

/-- Resets of functions (R385): Function Level Reset, and VF Enable cleared. -/
def State.vfEnableOff (s : State) (pf : Nat) : State :=
  let s1 := s.vfsReset pf
  s1.setCfg (1024 * pf) 0x338 (s1.cfg (1024 * pf) 0x338 / 2 * 2)

/-- Bus Master Enable of a function cleared: its queues write the completions of what they have read, and stop (R383,
R385). -/
def State.busMasterOff (s : State) (f : Nat) : State :=
  let s1 := s.hifBusMasterOff f
  s1.setCfg f 0x04 (s1.cfg f 0x04 &&& 0xFFFFFFFB)

/-- Does a write of `v` concern a field that CONFIG_LOCKED locks in the function itself (R422): a BAR, the location of the
MSI-X table, a changed enable bit, or a Table Size other than the one that stands? `old` and `new` are the register before
and after it. The Table Size shares its register with bits that are not locked: a write that repeats it is no write to
it. DEDUCED (log entry 93). -/
def lockedWrite (o old new be v : Nat) : Bool :=
  (decide (0x10 ≤ o) && decide (o < 0x28)) || o == 0x54 || o == 0x58 || (o == 0x04 && old / 2 % 4 != new / 2 % 4) ||
  (o == 0x50 && (v &&& beLanes be &&& 0x07FF0000) != (old &&& beLanes be &&& 0x07FF0000))

/-- Does it concern such a field of a PF's VFs? -/
def lockedVfWrite (f o old new : Nat) : Bool :=
  !fnIsVf f && ((decide (0x354 ≤ o) && decide (o < 0x36C)) || (o == 0x338 && old / 8 % 2 != new / 8 % 2))

/-- TDIs that a configuration write moves to ERROR. -/
def State.cfgTdiEvents (s : State) (f o old new be v : Nat) : State :=
  let s1 := if lockedWrite o old new be v then s.tdiError f else s
  if lockedVfWrite f o old new then (s1.activeVfs (f / 1024)).foldl State.tdiError s1 else s1

/-- A margining command of a lane is answered in its status. -/
def State.marginAnswer (s : State) (f o new : Nat) : State :=
  let (v, s1) := s.takeFree
  s1.setCfg f o (new % 2 ^ 16 + marginStatus new (new / 2 ^ 16) v.toNat * 2 ^ 16)

/-- LTR is enabled: the device sends the latency that it tolerates, at most what the host allows; which the spec leaves
open. When it is disabled, it asks for none (R418). -/
def State.ltrChange (s : State) (f : Nat) (on : Bool) : State :=
  let link := fnLink (s.strap (fnPort f)) f
  let k := 4 * fnPort f + link
  if on then
    let (v, s1) := s.takeFree
    let ns := v.toNat % (ltrNs (s.cfg f 0x2E4 % 2 ^ 16) + 1)
    (s1.withPcie { s1.pcie with ltr := spSet (fun _ => 0) s1.pcie.ltr k (ns + 1) }).emit (.pcieLink (fnPort f) link "LTR" ns)
  else (s.withPcie { s.pcie with ltr := spErase s.pcie.ltr k }).emit (.pcieLink (fnPort f) link "LTR off" 0)

/-- What follows from a register changed. -/
def State.cfgFollow (s : State) (f o old new : Nat) (flr : Bool) : State :=
  if flr then s.fnReset f
  else if o = 0x50 then s.msixReleaseAll f
  else if !fnIsVf f ∧ isMarginLane (s.strap (fnPort f)) o then s.marginAnswer f o new
  else if o = 0x88 ∧ f = s.lowestPf f ∧ old.testBit 10 ≠ new.testBit 10 then s.ltrChange f (new.testBit 10)
  else if o = 0x2F4 ∧ !new.testBit 31 then s.atsClear f
  else if o = 0x44 ∧ old % 4 = 3 ∧ new % 4 = 0 then s.fnReset f
  else s

/-- A configuration write of an enumerated function: offset of the register, byte enables, value. -/
def State.cfgWriteFn (s : State) (f o be v : Nat) : State :=
  let old := s.cfg f o
  let new := cfgWritten s.plan f o old be v
  let s1 := s.cfgTdiEvents f o old new be v
  let s2 := if o = 0x338 ∧ !fnIsVf f ∧ old.testBit 0 ∧ !new.testBit 0 then s1.vfsReset (f / 1024) else s1
  let s3 := if o = 0x04 ∧ old.testBit 2 ∧ !new.testBit 2 then s2.hifBusMasterOff f else s2
  (s3.setCfg f o new).cfgFollow f o old new (o == 0x68 && be.testBit 1 && v.testBit 15)

/-- A configuration write in the boot-window state (Table 19-7). -/
def State.bwCfgWrite (s : State) (f o be v : Nat) : State :=
  let lanes := beLanes be
  if o = 0x420 then
    let old := spGet (fun _ => 0) s.pcie.bwLen (fnPort f)
    (s.withPcie { s.pcie with
        bwLen := spSet (fun _ => 0) s.pcie.bwLen (fnPort f) ((old - (old &&& lanes)) ||| (v &&& lanes)) })
  else if o = 0x424 then if be.testBit 0 ∧ v.testBit 0 then s.bwGo (fnPort f) else s
  else
    let old := s.cfg f o
    let rw := bwRwMask f o &&& lanes
    let clr := v &&& cfgW1cMask o &&& lanes
    let new := (old - (old &&& rw)) ||| (v &&& rw)
    s.setCfg f o (new - (new &&& clr))

/-- An inbound configuration request (Table 15-11): function, register offset, write, byte enables, value, the
IDE stream it came on and its check. -/
def execConfigRequest (x : TlpRoute) (offset : Nat) (write : Bool) (be value : Nat) (s : State) : Res :=
  let o := offset / 4 * 4
  s.onTlp (.config x offset write be value) <|
    let (pass, s0) := s.ideGate x.fn x.stream x.good
    let s1 := s0.tlpArrives x.fn
    if !pass then .next s0
    else if s1.bootWindow x.fn then
      .next (if write then (s1.bwCfgWrite x.fn o be value).emit (.configAnswer x.fn 0 false)
        else s1.emit (.configAnswer x.fn (s1.bwCfgRead x.fn o) false))
    else if s1.refusing then .next (s1.emit (.configAnswer x.fn 0 true))
    else if !s1.fnThere x.fn then .next (s1.emit (.configAnswer x.fn 0xFFFFFFFF false))
    else if write then .next ((s1.cfgWriteFn x.fn o be value).emit (.configAnswer x.fn 0 false))
    else .next (s1.emit (.configAnswer x.fn (s1.cfgRead x.fn o) false))

def execFunctionLevelReset (fn : Nat) (s : State) : Res := s.onTlp (.flr fn) <| .next (if s.refusing || !s.fnThere fn then s else s.fnReset fn)

def execBusMasterDisable (fn : Nat) (s : State) : Res :=
  s.onTlp (.busMasterOff fn) <| .next (if s.refusing || !s.fnThere fn || !s.busMaster fn then s
    else (if s.tdiLocked fn then s.tdiError fn else s).busMasterOff fn)

def execVfEnableClear (pf : Nat) (s : State) : Res :=
  s.onTlp (.vfEnableOff pf) <| .next (if s.refusing || !s.fnThere (1024 * pf) || !(s.cfg (1024 * pf) 0x338).testBit 0 then s else s.vfEnableOff pf)

/-! ### Address windows (R411) -/

def execHifAtwCommitGo (pf : Nat) (s : State) : Res := .next (s.atwGo pf)
def execAtwApply (pf : Nat) (s : State) : Res := .next (s.atwLive pf)

end Sys2Proof.Machine
end

