-- ==== Sys2Proof/Machine/Link.lean ====
section
/-! DEFINITION. Completions of host reads and their timeouts, events of the PCIe links, link power, ATS
invalidations and messages (R391, R392, R404, R412 to R419). -/

namespace Sys2Proof.Machine

/-! ### Completions (R413 to R416) -/

def State.dropReq (s : State) (port tag : Nat) : State :=
  s.withPcie { s.pcie with reqs := s.pcie.reqs.filter fun (r : HostReq) => !(r.port == port && r.tag == tag) }

/-- The request of a tag that still waits for data. -/
def State.findReq (s : State) (port tag : Nat) : Option HostReq :=
  s.pcie.reqs.find? fun (r : HostReq) => r.port == port && r.tag == tag && decide (r.got.length < r.len)

/-- The queue whose read failed goes to ERROR (R382, R383). A Translation Request that fails leaves nothing cached. -/
def State.reqFailed (s : State) (r : HostReq) : State :=
  if r.queue = noQueue ∨ r.queue = atsQueue then s else s.hqErr r.queue 3 true

/-- A completion whose tag is free or quarantined, or which names no function of the link (R415). -/
def State.unexpectedCompletion (s : State) (port link tag fn : Nat) : State :=
  let f := if s.fnThere fn ∧ fnPort fn = port ∧ fnLink (s.strap port) fn = link then fn
    else 1024 * (linkPfs (s.strap port) port link).headD (2 * port)
  ((s.count F.HIF_UNEXP_CPL_COUNT_COUNT).hifFault 0x06 f tag).aer f aerUnexpected true

/-- Has the host answered the request in full? -/
def HostReq.answered (r : HostReq) : Bool := decide (r.len ≤ r.got.length)

/-- A request answered in full leaves the list, and its data goes to the unit that asked. -/
def State.deliverReq (s : State) (r : HostReq) : State :=
  if r.queue = atsQueue then (s.dropReq r.port r.tag).atsFill r
  else (s.dropReq r.port r.tag).hqDelivered r.queue (bytesAt r.got 0 r.len)

/-- The requests of a STRICT function that are answered in full and before which none of the function is
outstanding go to their units, in the order in which they were issued (R408). -/
def State.deliverInOrder (s : State) (f : Nat) : State :=
  if fnStrict s.plan f then
    ((s.pcie.reqs.filter fun (r : HostReq) => r.fn == f).takeWhile HostReq.answered).foldl State.deliverReq s
  else s

/-- A request that fails, or is no longer waited for, leaves the list; what waited behind it goes on. -/
def State.endReq (s : State) (r : HostReq) : State := ((s.dropReq r.port r.tag).reqFailed r).deliverInOrder r.fn

/-- A completion that a request waits for. -/
def State.completionFor (s : State) (r : HostReq) (ok poison : Bool) (data : List Byte) : State :=
  if !ok then s.endReq r
  else
    let y : HostReq := { r with got := r.got ++ data }
    let s1 := if poison then (s.poisonedCompletion r.fn).reqFailed r else s
    let s2 := s1.withPcie { s1.pcie with reqs := s1.pcie.reqs.map fun (x : HostReq) =>
      if x.port == r.port && x.tag == r.tag then y else x }
    if !y.answered then s2 else if fnStrict s.plan r.fn then s2.deliverInOrder r.fn else s2.deliverReq y

/-- A completion arrives on a link: its tag and requester, whether its status is Successful Completion, whether
its data is poisoned, the data, which follows what came before for the request, and the IDE stream it came on with its
check. -/
def execInboundCompletion (port link tag : Nat) (x : TlpRoute) (ok poison : Bool) (data : List Byte) (s : State) : Res :=
  s.onTlp (.completion port link tag x ok poison data) <|
    let (pass, s0) := s.ideGate x.fn x.stream x.good
    if !pass then .next s0
    else
      match s0.findReq port tag with
      | some r =>
        if r.fn = x.fn ∧ fnLink (s0.strap port) x.fn = link then .next (s0.completionFor r ok poison data)
        else .next (s0.unexpectedCompletion port link tag x.fn)
      | none => .next (s0.unexpectedCompletion port link tag x.fn)

/-- The completion timeout of a request fires (R414): the timer's value is that of Table 15-14. -/
def execCompletionTimeout (port tag : Nat) (s : State) : Res :=
  match s.findReq port tag with
  | some r => if s.epHeld (hifEp r.fn) then .next s else .next ((((s.dropReq port tag).requestTimeout r.fn tag).reqFailed r).deliverInOrder r.fn)
  | none => .next s

/-- A quarantined tag is freed. -/
def execTagQuarantineEnd (port tag : Nat) (s : State) : Res :=
  if s.epHeld (hifEp (2048 * port)) then .next s
  else .next (s.setQuarantine (s.pcie.quarantine.filter (· != (port, tag))))

/-! ### Links (R391, R392, R417) -/

def State.linkUp (s : State) (port link : Nat) : Bool := decide (128 ≤ s.linkByte port link)

def execPcieLinkDown (port link : Nat) (s : State) : Res :=
  .next (if s.linkUp port link then s.linkDownEvent port link else s)

/-- Is PERST of a port high? -/
def State.perstHigh (s : State) (port : Nat) : Bool := if port = 0 then s.pins.perst0 else s.pins.perst1

/-- A link completes training at a rate (1 2.5 GT/s to 6 64 GT/s) and a width (power of two). At 64 GT/s it is in
FLIT mode; the layout of the strap bounds the width (R391, R392). `drs`: the host has Device Readiness Status
enabled on the link (R405). -/
def execPcieLinkUp (port link rate width : Nat) (mode : LinkMode) (s : State) : Res :=
  if !s.pins.sysRst || !s.perstHigh port || decide (linkCount (s.strap port) ≤ link) || decide (linkWidthLog2 (s.strap port) < width) ||
      decide (rate = 0) || decide (6 < rate) || (rate == 6 && !mode.flit) then .next s
  else
    let s1 := s.set (linkFld port link) (128 + (if mode.flit then 64 else 0) + rate * 8 + width)
    .next (s1.withPcie { s1.pcie with
      linkMax := spSet (fun _ => 0) s1.pcie.linkMax (4 * port + link) width
      drs := s1.pcie.drs.filter (· != 4 * port + link) ++ if mode.drs then [4 * port + link] else [] })

/-! ### Link power (R418, R419) -/

/-- Has the host enabled ASPM L1 on a link: in Link Control of every PF on it? -/
def State.l1Enabled (s : State) (port link : Nat) : Bool :=
  !(linkPfs (s.strap port) port link).isEmpty &&
  (linkPfs (s.strap port) port link).all fun pf => (s.cfg (1024 * pf) 0x70).testBit 1

/-- Has the host put every PF of a link into D3hot, so that the link goes to PCI-PM L1? -/
def State.l1Pm (s : State) (port link : Nat) : Bool :=
  !(linkPfs (s.strap port) port link).isEmpty &&
  (linkPfs (s.strap port) port link).all fun pf => s.cfg (1024 * pf) 0x44 % 4 == 3

/-- The substate of L1 that the host has enabled in L1 PM Substates Control 1: 3 L1.2, 2 L1.1, 1 neither. ASPM L1.2 needs
a latency tolerance of at least the threshold, or none reported (PRESUMED, the PCIe Base Specification). -/
def State.l1Substate (s : State) (port link : Nat) (pm : Bool) : Nat :=
  let c := s.cfg (1024 * (linkPfs (s.strap port) port link).headD 0) 0x2D8
  let ltr := spGet (fun _ => 0) s.pcie.ltr (4 * port + link)
  let long := pm || ltr == 0 || decide (ltrNs (c / 2 ^ 16 % 1024 + c / 2 ^ 29 * 1024) ≤ ltr - 1)
  if c.testBit (if pm then 0 else 2) && long then 3 else if c.testBit (if pm then 1 else 3) then 2 else 1

/-- The link has been idle for `L1_IDLE_US`: entry to L1 is initiated where the host has enabled it, or has put the
functions into D3hot; with it goes entry to the substate (R418). -/
def execL1IdleEntry (port link : Nat) (s : State) : Res :=
  if s.linkUp port link && (s.l1Pm port link || s.l1Enabled port link) && spGet (fun _ => 0) s.pcie.l1 (4 * port + link) == 0 then
    let v := s.l1Substate port link (s.l1Pm port link)
    .next ((s.withPcie { s.pcie with l1 := spSet (fun _ => 0) s.pcie.l1 (4 * port + link) v }).emit (.pcieLink port link "L1" v))
  else .next s

/-- Is the link up in FLIT mode? -/
def State.linkFlit (s : State) (port link : Nat) : Bool := s.linkUp port link && (s.linkByte port link).testBit 6

def State.curWidth (s : State) (port link : Nat) : Nat := s.linkByte port link % 8
def State.setWidth (s : State) (port link w : Nat) : State := s.set ⟨R.HIF_PORT_STATUS port, 8 * link + 2, 8 * link⟩ w
def State.maxWidth (s : State) (port link : Nat) : Nat := spGet (fun _ => 0) s.pcie.linkMax (4 * port + link)

/-- The width that a window's utilisation asks for: half where both directions are below `LOW_PCT`, the full one
where either is above `HIGH_PCT`. `cap` is the capacity of the current width over the window. -/
def State.l0pWanted (s : State) (port link tx rx cap : Nat) : Nat :=
  let w := s.curWidth port link
  let low := s.get (F.HIF_PORT_L0P_LOW_PCT port)
  let high := s.get (F.HIF_PORT_L0P_HIGH_PCT port)
  if high * cap < 100 * tx ∨ high * cap < 100 * rx then s.maxWidth port link
  else if 100 * tx < low * cap ∧ 100 * rx < low * cap ∧ 2 ≤ w then w - 1
  else w

/-- A utilisation window ends: bytes carried each way, the capacity, and whether the host grants a request. -/
def execL0pWindow (port link tx rx cap : Nat) (grant : Bool) (s : State) : Res :=
  if !s.linkFlit port link || s.get (F.HIF_PORT_L0P_EN port) != 1 then .next s
  else
    let w := s.l0pWanted port link tx rx cap
    if w = s.curWidth port link then .next s
    else
      let s1 := s.emit (.pcieLink port link "L0p" w)
      .next (if grant then s1.setWidth port link w else s1)

/-- The host requests a width, as a power of two: ×2 to the negotiated one. -/
def execL0pHostRequest (port link width : Nat) (s : State) : Res :=
  if s.linkFlit port link && decide (1 ≤ width) && decide (width ≤ s.maxWidth port link) then
    .next ((s.setWidth port link width).emit (.pcieLink port link "L0p ack" width))
  else .next s

/-! ### ATS and messages (R404, R412) -/

/-- An ATS Invalidation Request for a range of 2^`log2` bytes at `addr`, of a PASID or of none: what the cache holds of
it is dropped, and the request completes; no TLP is under way between steps, so none delays it. A function whose ATS is
not enabled does not support the request. -/
def execAtsInvalidationRequest (x : TlpRoute) (r : AtsRange) (s : State) : Res :=
  s.onTlp (.atsInvalidation x r) <|
    let (pass, s0) := s.ideGate x.fn x.stream x.good
    let s1 := s0.tlpArrives x.fn
    if !pass then .next s0
    else if s1.refusing then .next (s1.postedRefused x.fn)
    else if s1.fnThere x.fn && s1.atsOn x.fn then .next ((s1.atsDrop x.fn r.pasid r.addr r.log2).emit (.atsDone x.fn r.tag))
    else .next (s1.postedUr x.fn)

/-- An inbound message, by its message code: Vendor_Defined Type 1 is discarded silently, Type 0 is an
Unsupported Request, PME_Turn_Off is acknowledged, Set_Slot_Power_Limit is held in Device Capabilities. -/
def execPcieMessage (x : TlpRoute) (code data : Nat) (s : State) : Res :=
  s.onTlp (.message x code data) <|
    let (pass, s0) := s.ideGate x.fn x.stream x.good
    let s1 := s0.tlpArrives x.fn
    let link := fnLink (s.strap (fnPort x.fn)) x.fn
    if !pass then .next s0
    else if code = 0x7F then .next s1
    else if code = 0x19 then .next (s1.emit (.pcieLink (fnPort x.fn) link "PME_TO_Ack" 0))
    else if code = 0x50 then
      .next (s1.setCfg x.fn 0x64 (s1.cfg x.fn 0x64 % 2 ^ 18 + s1.cfg x.fn 0x64 / 2 ^ 28 * 2 ^ 28 + data % 1024 * 2 ^ 18))
    else if code = 0x00 ∨ (0x40 ≤ code ∧ code ≤ 0x48) then .next s1
    else if s1.refusing then .next (s1.postedRefused x.fn)
    else .next (s1.postedUr x.fn)

end Sys2Proof.Machine
end

