-- ==== Sys2Proof/Machine/Spdm.lean ====
section
/-! DEFINITION. The DOE mailboxes of the physical functions: discovery, and the SPDM responder of WKT (R420,
R533, R535, R536). Message formats are those of DSP0274 version 1.3 (PRESUMED, log entry 104). -/

namespace Sys2Proof.Machine

/-! ### DOE (R420) -/

def State.doe (s : State) (pf : Nat) (object : List Byte) : State := s.emit (.doe pf object)

/-- Does the mailbox of a PF answer? -/
def State.doeReady (s : State) (pf : Nat) : Bool := s.taking && decide (pf < 4) && s.fnThere (1024 * pf)

/-- DOE Discovery: vendor 0x0001, protocol 0 Discovery, 1 CMA/SPDM, 2 Secured CMA/SPDM, and the next index. -/
def execDoeDiscovery (pf index : Nat) (s : State) : Res :=
  s.onTlp (.doe pf index) <| if !s.doeReady pf then .next s
  else .next (s.doe pf (if index ≤ 2 then natLE 2 1 ++ natLE 1 index ++ natLE 1 (if index = 2 then 0 else index + 1)
    else natLE 2 0xFFFF ++ natLE 2 0))

/-! ### Keys and chains (R533, R544) -/

/-- What the alias keys come from: in Closed the measurement, the rollback value and the lifecycle byte; in
Open what was drawn. -/
def State.aliasSeed (s : State) : List Byte :=
  match s.wkt.aliasKeys with
  | some k => natLE 8 k.toNat
  | none => s.regBytes (R.BOOT_MEAS 0) 6 ++ natLE 4 (s.get F.BOOT_IMG_ARB_ARB) ++ [0]

/-- The certificate chain of a slot: 0 EC, 1 ML-DSA. -/
def State.chain (s : State) (slot : Nat) : List Byte :=
  Config.certChain (slot == 1) s.aliasSeed (match s.wkt.openKeys with
    | some k => natLE 8 k.toNat
    | none => [])

/-! ### Connections and sessions (R535) -/

def spdmConnReset (_ : Nat) : SpdmConn := ⟨0, [], [], [], []⟩
def State.spdmConn (s : State) (pf : Nat) : SpdmConn := spGet spdmConnReset s.wkt.conns pf
def State.setSpdmConn (s : State) (pf : Nat) (c : SpdmConn) : State :=
  s.withWkt { s.wkt with conns := spSet spdmConnReset s.wkt.conns pf c }

def State.session (s : State) (pf id : Nat) : Option SpdmSession :=
  s.wkt.sessions.find? fun (x : SpdmSession) => x.pf == pf && x.id == id

def State.dropSession (s : State) (pf id : Nat) : State :=
  s.withWkt { s.wkt with sessions := s.wkt.sessions.filter fun (x : SpdmSession) => !(x.pf == pf && x.id == id) }

def State.setSession (s : State) (x : SpdmSession) : State :=
  (s.withWkt { s.wkt with sessions := s.wkt.sessions.map fun (y : SpdmSession) =>
      if y.pf == x.pf && y.id == x.id then x else y })

/-- The bytes of a request, and of a response: version, code, two parameters, body. -/
def spdmBytes (version code p1 p2 : Nat) (body : List Byte) : List Byte :=
  natLE 1 version ++ natLE 1 code ++ natLE 1 p1 ++ natLE 1 p2 ++ body
def spdmReqBytes (r : SpdmReq) (code : Nat) : List Byte := spdmBytes r.version code r.p1 r.p2 r.body

/-- An ERROR response. -/
def State.spdmError (s : State) (pf code data : Nat) : State := s.doe pf (spdmBytes 0x13 0x7F code data [])

/-- Any request but GET_MEASUREMENTS ends the measurement transcript. -/
def State.dropLog (s : State) (pf : Nat) (session : Option Nat) : State :=
  match session with
  | none => s.setSpdmConn pf { s.spdmConn pf with log := [] }
  | some id =>
    match s.session pf id with
    | some x => if x.open' then s.setSession { x with log := [] } else s
    | none => s

/-- A request is answered where the responder may take it: by its version, how far the connection has come, and
where it travels: outside a session, in an open one, in one whose handshake runs. -/
def State.spdmRun (s : State) (pf version stage : Nat) (outside opened handshake : Bool) (r : SpdmReq)
    (act : State → State) : Res :=
  if !s.doeReady pf then .next s
  else if r.version ≠ version then .next (s.spdmError pf 0x41 0)
  else
    match r.session with
    | none =>
      if !outside then .next (s.spdmError pf 0x0B 0)
      else if (s.spdmConn pf).stage < stage then .next (s.spdmError pf 0x04 0)
      else .next (act s)
    | some id =>
      match s.session pf id with
      | none => .next (s.spdmError pf 0x02 0)
      | some x => if (x.open' && opened) || (!x.open' && handshake) then .next (act s) else .next (s.spdmError pf 0x04 0)

/-! ### Negotiation -/

/-- GET_VERSION: version 1.3; the connection and its sessions begin anew. -/
def State.spdmVersion (s : State) (pf : Nat) (r : SpdmReq) : State :=
  let resp := spdmBytes 0x10 0x04 0 0 (natLE 1 0 ++ natLE 1 1 ++ natLE 2 0x1300)
  let s1 := s.withWkt { s.wkt with sessions := s.wkt.sessions.filter fun (x : SpdmSession) => x.pf != pf }
  (s1.setSpdmConn pf { spdmConnReset pf with stage := 1, vca := spdmReqBytes r 0x84 ++ resp }).doe pf resp

def execSpdmGetVersion (pf : Nat) (r : SpdmReq) (s : State) : Res :=
  s.onTlp (.spdm pf 0x84 r) <| s.spdmRun pf 0x10 0 true false false r fun (s : State) => s.spdmVersion pf r

/-- GET_CAPABILITIES: certificates, challenge, signed measurements, encryption, MAC, key exchange, heartbeat and
key update. The time exponent is free. -/
def State.spdmCaps (s : State) (pf : Nat) (r : SpdmReq) : State :=
  let (v, s1) := s.takeFree
  let resp := spdmBytes 0x13 0x61 0 0
    (natLE 1 0 ++ natLE 1 v.toNat ++ natLE 2 0 ++ natLE 4 0x62D6 ++ natLE 4 0x100000 ++ natLE 4 0x100000)
  let c := s1.spdmConn pf
  if c.stage ≠ 1 then s1.spdmError pf 0x04 0
  else (s1.setSpdmConn pf { c with stage := 2, vca := c.vca ++ spdmReqBytes r 0xE1 ++ resp }).doe pf resp

def execSpdmGetCapabilities (pf : Nat) (r : SpdmReq) (s : State) : Res :=
  s.onTlp (.spdm pf 0xE1 r) <| s.spdmRun pf 0x13 1 true false false r fun (s : State) => s.spdmCaps pf r

/-- What is selected of an algorithm structure: type, and what the requester supports. -/
def spdmSelect (ty offered : Nat) : Nat :=
  if ty = 2 then offered &&& 0x10 else if ty = 3 then offered &&& 0x02 else if ty = 5 then offered &&& 0x01 else 0

/-- NEGOTIATE_ALGORITHMS: ECDSA P-384, SHA-384, DHE secp384r1, AES-256-GCM. -/
def State.spdmAlgs (s : State) (pf : Nat) (r : SpdmReq) : State :=
  let at' := 28 + 4 * (leAt r.body 24 1 + leAt r.body 25 1)
  let structs := (List.range r.p1).map fun i => (leAt r.body (at' + 4 * i) 1, leAt r.body (at' + 4 * i + 2) 2)
  let resp := spdmBytes 0x13 0x63 r.p1 0
    (natLE 2 (36 + 4 * r.p1) ++ natLE 1 (leAt r.body 2 1 &&& 1) ++ natLE 1 (leAt r.body 3 1 &&& 2) ++ natLE 4 4 ++
      natLE 4 0x80 ++ natLE 4 0x02 ++ natLE 12 0 ++ natLE 4 0 ++
      structs.flatMap fun x => natLE 1 x.1 ++ natLE 1 0x20 ++ natLE 2 (spdmSelect x.1 x.2))
  let c := s.spdmConn pf
  if c.stage ≠ 2 then s.spdmError pf 0x04 0
  else if !(leAt r.body 4 4).testBit 7 || !(leAt r.body 8 4).testBit 1 then s.spdmError pf 0x01 0
  else (s.setSpdmConn pf { c with stage := 3, vca := c.vca ++ spdmReqBytes r 0xE3 ++ resp }).doe pf resp

def execSpdmNegotiateAlgorithms (pf : Nat) (r : SpdmReq) (s : State) : Res :=
  s.onTlp (.spdm pf 0xE3 r) <| s.spdmRun pf 0x13 2 true false false r fun (s : State) => s.spdmAlgs pf r

/-! ### Certificates and the challenge -/

/-- A message about certificates and its response join their transcript. -/
def State.certLog (s : State) (pf : Nat) (session : Option Nat) (l : List Byte) : State :=
  if session.isSome then s else s.setSpdmConn pf { s.spdmConn pf with certs := (s.spdmConn pf).certs ++ l }

def State.spdmDigests (s : State) (pf : Nat) (r : SpdmReq) : State :=
  let resp := spdmBytes 0x13 0x01 3 3 (Config.sha384 (s.chain 0) ++ Config.sha384 (s.chain 1))
  ((s.dropLog pf r.session).certLog pf r.session (spdmReqBytes r 0x81 ++ resp)).doe pf resp

def execSpdmGetDigests (pf : Nat) (r : SpdmReq) (s : State) : Res :=
  s.onTlp (.spdm pf 0x81 r) <| s.spdmRun pf 0x13 3 true true false r fun (s : State) => s.spdmDigests pf r

/-- GET_CERTIFICATE: a portion of the chain of slot 0 or 1. -/
def State.spdmCertificate (s : State) (pf : Nat) (r : SpdmReq) : State :=
  let slot := r.p1 % 16
  let c := s.chain slot
  let o := leAt r.body 0 2
  let n := min (leAt r.body 2 2) (c.length - o)
  let resp := spdmBytes 0x13 0x02 slot 0 (natLE 2 n ++ natLE 2 (c.length - o - n) ++ bytesAt c o n)
  if 1 < slot ∨ c.length ≤ o then (s.dropLog pf r.session).spdmError pf 0x01 0
  else ((s.dropLog pf r.session).certLog pf r.session (spdmReqBytes r 0x82 ++ resp)).doe pf resp

def execSpdmGetCertificate (pf : Nat) (r : SpdmReq) (s : State) : Res :=
  s.onTlp (.spdm pf 0x82 r) <| s.spdmRun pf 0x13 3 true true false r fun (s : State) => s.spdmCertificate pf r

/-! ### Measurements (R536, Table 20-2) -/

/-- The content of a measurement block, where it is present. -/
def State.measureBlock (s : State) (i : Nat) : Option (List Byte) :=
  if i = 1 then some Config.romMeasure
  else if i = 2 then
    some (s.regBytes (R.BOOT_MEAS 0) 6 ++ s.regBytes (R.WKT_S2_MEAS 0) 6 ++ natLE 8 s.boot.imgVer ++
      natLE 4 (s.get F.BOOT_IMG_ARB_ARB) ++ natLE 1 (s.get F.BOOT_STATUS_SOURCE))
  else if i = 3 then
    some (natLE 4 (s.get F.TE_UC_VERSION_ROM_ID) ++ natLE 4 (s.get F.TE_UC_VERSION_PATCH_VER) ++ s.regBytes (R.TE_UC_MEAS 0) 6)
  else if i = 4 then
    some (s.regBytes R.SITE_LIVE_SEQ 1 ++ s.regBytes (R.SITE_LIVE_DIGEST 0) 6 ++ s.regBytes R.SITE_GEN 1)
  else if i = 5 then some (natLE 1 (if s.isOpen then 1 else 0))
  else if i = 6 then
    some (natLE 4 (s.get F.SITE_ARB_FLOOR_FLOOR) ++ natLE 4 (s.get F.BOOT_ARB_FLOOR_FLOOR) ++
      natLE 4 (s.get F.TE_UC_ARB_FLOOR_FLOOR) ++ s.regBytes R.WKT_BANK_STATUS 1)
  else if i = 7 then some (s.regBytes (R.WKT_EPOCH 0) 2)
  else if i = 8 then some Config.pavPublicKeys
  else if 0x10 ≤ i ∧ i < 0x50 ∧ grpFirst s.plan (i - 0x10) then
    let g := i - 0x10
    some (natLE 1 (s.grpState g) ++ natLE 2 (grpLoadTd s.plan g) ++ s.regBytes (R.PAV_GRP_STREAM_ID g) 1 ++
      s.regBytes (R.PAV_GRP_MEAS g 0) 6)
  else none

/-- The kind of value of a block, all raw: immutable ROM, firmware, or configuration. -/
def measureType (i : Nat) : Nat := if i = 1 then 0x80 else if i = 2 ∨ i = 3 then 0x81 else 0x83

/-- A block in the DMTF format. -/
def State.dmtfBlock (s : State) (i : Nat) : List Byte :=
  match s.measureBlock i with
  | some d => natLE 1 i ++ natLE 1 1 ++ natLE 2 (3 + d.length) ++ natLE 1 (measureType i) ++ natLE 2 d.length ++ d
  | none => []

/-- The indices present. -/
def State.measureIndices (s : State) : List Nat := (List.range 0x50).filter fun i => (s.measureBlock i).isSome

/-- The hash over all blocks that a requester may ask for. -/
def State.summaryHash (s : State) (ty : Nat) : List Byte :=
  if ty = 0 then [] else Config.sha384 (s.measureIndices.flatMap s.dmtfBlock)

/-- CHALLENGE: a signature by the alias EC key, for slot 0. -/
def State.spdmChallenge (s : State) (pf : Nat) (r : SpdmReq) : State :=
  if r.p1 ≠ 0 then (s.dropLog pf none).spdmError pf 0x01 0
  else
    let (nonce, s1) := (s.dropLog pf none).freeBytes 4
    let resp := spdmBytes 0x13 0x03 0 1
      (Config.sha384 (s.chain 0) ++ nonce ++ s.summaryHash r.p2 ++ natLE 2 0 ++ bytesAt r.body 32 8)
    let c := s1.spdmConn pf
    let sig := Config.aliasSign false s.aliasSeed (c.vca ++ c.certs ++ spdmReqBytes r 0x83 ++ resp)
    (s1.setSpdmConn pf { c with certs := [] }).doe pf (resp ++ sig)

def execSpdmChallenge (pf : Nat) (r : SpdmReq) (s : State) : Res :=
  s.onTlp (.spdm pf 0x83 r) <| s.spdmRun pf 0x13 3 true false false r fun (s : State) => s.spdmChallenge pf r

/-- The measurement transcript of a connection or session, and the last signed one. -/
def State.logOf (s : State) (pf : Nat) (session : Option Nat) : List Byte × List Byte :=
  match session with
  | none => ((s.spdmConn pf).log, (s.spdmConn pf).signed)
  | some id =>
    match s.session pf id with
    | some x => (x.log, x.signed)
    | none => ([], [])

def State.setLog (s : State) (pf : Nat) (session : Option Nat) (log signed : List Byte) : State :=
  match session with
  | none => s.setSpdmConn pf { s.spdmConn pf with log := log, signed := signed }
  | some id =>
    match s.session pf id with
    | some x => s.setSession { x with log := log, signed := signed }
    | none => s

/-- GET_MEASUREMENTS: the number of blocks, one block, or all, signed where asked for. -/
def State.spdmMeasure (s : State) (pf : Nat) (r : SpdmReq) : State :=
  let idx := s.measureIndices
  let signed := r.p1.testBit 0
  if (r.p2 ≠ 0 ∧ r.p2 ≠ 0xFF ∧ !idx.contains r.p2) ∨ (signed ∧ leAt r.body 32 1 % 16 ≠ 0) then
    (s.dropLog pf r.session).spdmError pf 0x01 0
  else
    let which := if r.p2 = 0 then [] else if r.p2 = 0xFF then idx else [r.p2]
    let rec' := which.flatMap s.dmtfBlock
    let (nonce, s1) := s.freeBytes 4
    let resp := spdmBytes 0x13 0x60 (if r.p2 = 0 then idx.length else 0) 0
      (natLE 1 which.length ++ natLE 3 rec'.length ++ rec' ++ nonce ++ natLE 2 0 ++ bytesAt r.body (if signed then 33 else 0) 8)
    let log := (s1.logOf pf r.session).1 ++ spdmReqBytes r 0xE0 ++ resp
    let whole := (s1.spdmConn pf).vca ++ log
    if signed then
      (s1.setLog pf r.session [] whole).doe pf (resp ++ Config.aliasSign false s.aliasSeed whole)
    else (s1.setLog pf r.session log (s1.logOf pf r.session).2).doe pf resp

def execSpdmGetMeasurements (pf : Nat) (r : SpdmReq) (s : State) : Res :=
  s.onTlp (.spdm pf 0xE0 r) <| s.spdmRun pf 0x13 3 true true false r fun (s : State) => s.spdmMeasure pf r

/-! ### Sessions -/

/-- KEY_EXCHANGE: a session begins its handshake, of at most 16 of the PF. The responder's part of the session
identifier, its random data and its exchange data are free; its heartbeat period too. -/
def State.spdmKeyExchange (s : State) (pf : Nat) (r : SpdmReq) : State :=
  let s0 := s.dropLog pf none
  let mine := s.wkt.sessions.filter fun (x : SpdmSession) => x.pf == pf
  if 16 ≤ mine.length then s0.spdmError pf 0x0A 0
  else if r.p2 ≠ 0 then s0.spdmError pf 0x01 0
  else
    let (v, s1) := s0.takeFree
    let (hb, s2) := s1.takeFree
    let (random, s3) := s2.freeBytes 4
    let (exch, s4) := s3.freeBytes 12
    let req := leAt r.body 0 2
    let rsp := (((List.range 17).map fun i => (v.toNat + i) % 65536).find? fun i =>
      mine.all fun (x : SpdmSession) => x.id != req + 65536 * i).getD 0
    let resp := spdmBytes 0x13 0x64 hb.toNat 0
      (natLE 2 rsp ++ natLE 2 0 ++ random ++ exch ++ s.summaryHash r.p1 ++ natLE 2 0)
    let th := (s4.spdmConn pf).vca ++ Config.sha384 (s.chain 0) ++ spdmReqBytes r 0xE4 ++ resp
    let sig := Config.aliasSign false s.aliasSeed th
    let vd := Config.spdmVerifyData (th ++ sig)
    (s4.withWkt { s4.wkt with sessions := s4.wkt.sessions ++
        [(⟨pf, req + 65536 * rsp, false, 0, 0, th ++ sig ++ vd, []⟩ : SpdmSession)] }).doe pf (resp ++ sig ++ vd)

def execSpdmKeyExchange (pf : Nat) (r : SpdmReq) (s : State) : Res :=
  s.onTlp (.spdm pf 0xE4 r) <| s.spdmRun pf 0x13 3 true false false r fun (s : State) => s.spdmKeyExchange pf r

/-- FINISH: the session opens, or ends where the requester's verification data is wrong. -/
def State.spdmFinish (s : State) (pf : Nat) (r : SpdmReq) : State :=
  match s.session pf (r.session.getD 0) with
  | some x =>
    if Config.spdmFinishOk x.log (spdmReqBytes r 0xE5) then
      (s.setSession { x with open' := true, log := [] }).doe pf (spdmBytes 0x13 0x65 0 0 [])
    else (s.dropSession pf x.id).spdmError pf 0x06 0
  | none => s

def execSpdmFinish (pf : Nat) (r : SpdmReq) (s : State) : Res :=
  s.onTlp (.spdm pf 0xE5 r) <| s.spdmRun pf 0x13 3 false false true r fun (s : State) => s.spdmFinish pf r

def execSpdmHeartbeat (pf : Nat) (r : SpdmReq) (s : State) : Res :=
  s.onTlp (.spdm pf 0xE8 r) <| s.spdmRun pf 0x13 3 false true false r fun (s : State) => (s.dropLog pf r.session).doe pf (spdmBytes 0x13 0x68 0 0 [])

/-- KEY_UPDATE: 1 the requester's key, 2 both, 3 verifies the new key. -/
def State.spdmKeyUpdate (s : State) (pf : Nat) (r : SpdmReq) : State :=
  match s.session pf (r.session.getD 0) with
  | some x =>
    if r.p1 = 0 ∨ 3 < r.p1 then s.spdmError pf 0x01 0
    else
      (s.setSession { x with
        log := []
        reqGen := if r.p1 ≤ 2 then x.reqGen + 1 else x.reqGen
        rspGen := if r.p1 = 2 then x.rspGen + 1 else x.rspGen }).doe pf (spdmBytes 0x13 0x69 r.p1 r.p2 [])
  | none => s

def execSpdmKeyUpdate (pf : Nat) (r : SpdmReq) (s : State) : Res :=
  s.onTlp (.spdm pf 0xE9 r) <| s.spdmRun pf 0x13 3 false true false r fun (s : State) => s.spdmKeyUpdate pf r

def execSpdmEndSession (pf : Nat) (r : SpdmReq) (s : State) : Res :=
  s.onTlp (.spdm pf 0xEC r) <| s.spdmRun pf 0x13 3 false true false r fun (s : State) =>
    (s.dropSession pf (r.session.getD 0)).doe pf (spdmBytes 0x13 0x6C 0 0 [])

/-- The vendor-defined request 0x0001 under vendor 0xCE6A: an ML-DSA-87 signature by the alias key over the
transcript hash of the last signed MEASUREMENTS response. -/
def State.spdmVendor (s : State) (pf : Nat) (r : SpdmReq) : State :=
  let signed := (s.logOf pf r.session).2
  let s1 := s.dropLog pf r.session
  if leAt r.body 0 2 ≠ 3 ∨ leAt r.body 2 1 ≠ 2 ∨ leAt r.body 3 2 ≠ 0xCE6A ∨ leAt r.body 7 2 ≠ 1 then s1.spdmError pf 0x07 0xFE
  else if signed = [] then s1.spdmError pf 0x04 0
  else
    let sig := Config.aliasSign true s.aliasSeed (Config.sha384 signed)
    s1.doe pf (spdmBytes 0x13 0x7E 0 0 (natLE 2 3 ++ natLE 1 2 ++ natLE 2 0xCE6A ++ natLE 2 sig.length ++ sig))

def execSpdmVendorMldsaSignature (pf : Nat) (r : SpdmReq) (s : State) : Res :=
  s.onTlp (.spdm pf 0xFE r) <| s.spdmRun pf 0x13 3 true true false r fun (s : State) => s.spdmVendor pf r

/-! ### IDE_KM (R420): its message formats are those of the PCIe Base Specification -/

/-- Is a request in an open session of the PF? -/
def State.inSession (s : State) (pf session : Nat) : Bool :=
  s.doeReady pf && (match s.session pf session with
    | some x => x.open'
    | none => false)

/-- Number of a key: stream, sub-stream, direction and key set. -/
def State.keyIndex (s : State) (pf stream sub : Nat) : Nat := 64 * s.ideKey (1024 * pf) stream + sub / 16 * 4 + sub % 4

/-- The six keys of a key set: sub-streams 0 to 2, both directions. -/
def State.keySet (s : State) (pf stream ks : Nat) : List Nat :=
  (List.range 6).map fun i => 64 * s.ideKey (1024 * pf) stream + i / 2 * 4 + i % 2 * 2 + ks

def ideSubOk (sub : Nat) : Bool := decide (sub / 16 ≤ 2) && sub / 4 % 4 == 0

def State.setIde (s : State) (pf stream v : Nat) : State :=
  s.withPcie { s.pcie with ide := spSet (fun _ => 0) s.pcie.ide (s.ideKey (1024 * pf) stream) v }

def State.ideKeyProg (s : State) (pf : Nat) (m : List Byte) : State :=
  let stream := leAt m 3 1
  let sub := leAt m 5 1
  let ack := fun (s : State) (status : Nat) =>
    s.doe pf (natLE 1 3 ++ natLE 2 0 ++ natLE 1 stream ++ natLE 1 status ++ natLE 1 sub ++ natLE 1 (leAt m 6 1))
  if m.length ≠ 47 then ack s 1
  else if leAt m 6 1 ≠ 0 then ack s 2
  else if 8 < stream ∨ !ideSubOk sub then ack s 3
  else
    ack (s.withPcie { s.pcie with
      ideKeys := spSet (fun _ => []) s.pcie.ideKeys (s.keyIndex pf stream sub) (bytesAt m 7 40) }) 0

/-- K_SET_GO (4) and K_SET_STOP (5): a stream whose six keys of the set are programmed becomes Secure; one that
stops becomes Insecure and loses the set. -/
def State.ideGoStop (s : State) (pf : Nat) (m : List Byte) : State :=
  let stream := leAt m 3 1
  let keys := s.keySet pf stream (leAt m 5 1 % 2)
  let s1 := if 8 < stream ∨ !ideSubOk (leAt m 5 1) then s
    else if leAt m 0 1 = 4 then
      (if keys.all fun k => (spKeys s.pcie.ideKeys).contains k then s.setIde pf stream 1 else s)
    else
      let t := s.setIde pf stream 0
      t.withPcie { t.pcie with ideKeys := t.pcie.ideKeys.filter fun x => !keys.contains x.1 }
  s1.doe pf (natLE 1 6 ++ natLE 2 0 ++ natLE 1 stream ++ natLE 1 0 ++ natLE 1 (leAt m 5 1) ++ natLE 1 (leAt m 6 1))

/-- QUERY: the IDE capability registers of the PF. Bus and segment numbers are free. -/
def State.ideQuery (s : State) (pf : Nat) (m : List Byte) : State :=
  let (v, s1) := s.takeFree
  s1.doe pf (natLE 1 1 ++ natLE 1 0 ++ natLE 1 (leAt m 2 1) ++ natLE 1 (if s.strap (pf / 2) = 0 then pf % 2 else 0) ++
    natLE 2 v.toNat ++ natLE 1 0 ++ (List.range 35).flatMap fun i => natLE 4 (s.cfgRead (1024 * pf) (0x374 + 4 * i)))

def execIdeKmRequest (pf session : Nat) (message : List Byte) (s : State) : Res :=
  s.onTlp (.ideKm pf session message) <| if !s.doeReady pf then .next s
  else if !s.inSession pf session then .next (s.spdmError pf 0x0B 0)
  else
    let id := leAt message 0 1
    if id = 0 then .next (s.ideQuery pf message)
    else if id = 2 then .next (s.ideKeyProg pf message)
    else if id = 4 ∨ id = 5 then .next (s.ideGoStop pf message)
    else .next (s.spdmError pf 0x07 0xFE)

/-! ### TDISP 1.0 (R421, R422) -/

/-- A TDISP message of a function. The interface identifier holds the global function number, for the routing
ID depends on the bus numbers that the host gives. -/
def tdispBytes (code fn : Nat) (payload : List Byte) : List Byte :=
  natLE 1 0x10 ++ natLE 1 code ++ natLE 2 0 ++ natLE 4 fn ++ natLE 8 0 ++ payload

def State.tdispError (s : State) (pf fn code : Nat) : State := s.doe pf (tdispBytes 0x7F fn (natLE 4 code ++ natLE 4 0))

/-- A TDISP request is answered in a secured session of the PF, for a function of it that is a TDI: every
function but PF0. -/
def State.tdispRun (s : State) (pf session fn version : Nat) (act : State → State) : Res :=
  if !s.doeReady pf then .next s
  else if !s.inSession pf session then .next (s.spdmError pf 0x0B 0)
  else if version / 16 ≠ 1 then .next (s.tdispError pf fn 0x41)
  else if fn = 0 || fn / 1024 != pf || !s.fnThere fn then .next (s.tdispError pf fn 0x0101)
  else .next (act s)

def execTdispGetVersion (pf session fn version : Nat) (s : State) : Res :=
  s.onTlp (.tdisp pf 0x81 session fn version []) <| s.tdispRun pf session fn version fun (s : State) => s.doe pf (tdispBytes 0x01 fn (natLE 1 1 ++ natLE 1 0x10))

/-- GET_TDISP_CAPABILITIES: the seven requests, no P2P binding. Device capabilities and sizes that the spec does
not state are free. -/
def execTdispGetCapabilities (pf session fn version : Nat) (s : State) : Res :=
  s.onTlp (.tdisp pf 0x82 session fn version []) <| s.tdispRun pf session fn version fun (s : State) =>
    let (v, s1) := s.takeFree
    s1.doe pf (tdispBytes 0x02 fn (natLE 4 v.toNat ++ natLE 16 0xFE ++ natLE 2 0x0007 ++ natLE 3 0 ++
      natLE 1 (v.toNat / 2 ^ 32) ++ natLE 1 (v.toNat / 2 ^ 40) ++ natLE 1 (v.toNat / 2 ^ 48)))

/-- LOCK_INTERFACE: flags, default stream, MMIO reporting offset. P2P binding is refused; the stream must be a
selective one that is Secure. -/
def State.tdispLock (s : State) (pf fn : Nat) (payload : List Byte) : State :=
  let stream := leAt payload 2 1
  if s.tdi fn ≠ 0 then s.tdispError pf fn 0x0004
  else if (leAt payload 0 2).testBit 3 || stream == 0 || decide (8 < stream) || !s.ideSecure fn stream then s.tdispError pf fn 0x0001
  else
    let (nonce, s1) := s.freeBytes 4
    let s2 := s1.setTdi fn 1
    (s2.withPcie { s2.pcie with
        tdiStream := spSet (fun _ => 0) s2.pcie.tdiStream fn (stream + 1)
        tdiNonce := spSet (fun _ => []) s2.pcie.tdiNonce fn nonce
        tdiOffset := spSet (fun _ => 0) s2.pcie.tdiOffset fn (leAt payload 4 8) }).doe pf (tdispBytes 0x03 fn nonce)

def execTdispLockInterface (pf session fn version : Nat) (payload : List Byte) (s : State) : Res :=
  s.onTlp (.tdisp pf 0x83 session fn version payload) <| s.tdispRun pf session fn version fun (s : State) => s.tdispLock pf fn payload

/-- The address that a host gave a BAR of a function; of a VF, from the SR-IOV capability of its PF. -/
def State.barBase (s : State) (f bar : Nat) : Nat :=
  let pf := f / 1024 * 1024
  if fnIsVf f then
    s.cfg pf (0x354 + 4 * bar) / 16 * 16 + s.cfg pf (0x358 + 4 * bar) * 2 ^ 32 + (f % 1024 - 1) * 2 ^ barLog2 s.plan f bar
  else s.cfg f (0x10 + 4 * bar) / 16 * 16 + s.cfg f (0x14 + 4 * bar) * 2 ^ 32

/-- The MMIO range of one region entry of the DRT record: of the doorbell pages, `QP_LIMIT` pages (Table 15-10). -/
def State.mmioRange (s : State) (f : Nat) (e : List Byte) : List Byte :=
  let ty := leAt e 0 1
  let bar := leAt e 1 1
  let bytes := 2 ^ leAt e 2 1 * (if ty = 2 then fnQpLimit s.plan f else 1)
  natLE 8 ((s.barBase f bar + leAt e 4 4 + spGet (fun _ => 0) s.pcie.tdiOffset f) / 4096) ++
  natLE 4 ((bytes + 4095) / 4096) ++
  natLE 4 ((if ty = 6 then 1 else 0) + (if ty = 7 then 2 else 0) + bar * 2 ^ 16)

/-- What follows the ranges: of a pavilion-access function whose group is RUNNING, stream and measurement. -/
def State.tdiInfo (s : State) (f : Nat) : List Byte :=
  let g := fnPavGroup s.plan f
  if fnPersonality s.plan f = 1 ∧ g < 64 ∧ s.grpState g = gRunning then
    s.regBytes (R.PAV_GRP_STREAM_ID g) 1 ++ s.regBytes (R.PAV_GRP_MEAS g 0) 6
  else []

/-- The interface report. -/
def State.tdiReport (s : State) (f : Nat) : List Byte :=
  let entries := ((List.range 6).map fun i => bytesAt (drtRecord s.plan f) (16 + 8 * i) 8).filter fun e => leAt e 0 1 != 0
  let info := s.tdiInfo f
  natLE 2 0 ++ natLE 2 0 ++ natLE 2 (s.cfg f 0x50 / 2 ^ 16) ++ natLE 2 0 ++ natLE 4 0 ++ natLE 4 entries.length ++
    entries.flatMap (s.mmioRange f) ++ natLE 4 info.length ++ info

/-- GET_DEVICE_INTERFACE_REPORT: a portion of the report, in CONFIG_LOCKED and RUN. -/
def State.tdispReport (s : State) (pf fn : Nat) (payload : List Byte) : State :=
  let rep := s.tdiReport fn
  let o := leAt payload 0 2
  let n := min (leAt payload 2 2) (rep.length - o)
  if !s.tdiLocked fn then s.tdispError pf fn 0x0004
  else if rep.length ≤ o then s.tdispError pf fn 0x0001
  else s.doe pf (tdispBytes 0x04 fn (natLE 2 n ++ natLE 2 (rep.length - o - n) ++ bytesAt rep o n))

def execTdispGetDeviceInterfaceReport (pf session fn version : Nat) (payload : List Byte) (s : State) : Res :=
  s.onTlp (.tdisp pf 0x84 session fn version payload) <| s.tdispRun pf session fn version fun (s : State) => s.tdispReport pf fn payload

def execTdispGetDeviceInterfaceState (pf session fn version : Nat) (s : State) : Res :=
  s.onTlp (.tdisp pf 0x85 session fn version []) <| s.tdispRun pf session fn version fun (s : State) => s.doe pf (tdispBytes 0x05 fn (natLE 1 (s.tdi fn)))

/-- START_INTERFACE: RUN, with the nonce that LOCK_INTERFACE returned; the nonce serves once. -/
def State.tdispStart (s : State) (pf fn : Nat) (nonce : List Byte) : State :=
  if s.tdi fn ≠ 1 then s.tdispError pf fn 0x0004
  else if spGet (fun _ => []) s.pcie.tdiNonce fn ≠ nonce then s.tdispError pf fn 0x0102
  else
    let s1 := s.setTdi fn 2
    (s1.withPcie { s1.pcie with tdiNonce := spErase s1.pcie.tdiNonce fn }).doe pf (tdispBytes 0x06 fn [])

def execTdispStartInterface (pf session fn version : Nat) (nonce : List Byte) (s : State) : Res :=
  s.onTlp (.tdisp pf 0x86 session fn version nonce) <| s.tdispRun pf session fn version fun (s : State) => s.tdispStart pf fn nonce

/-- STOP_INTERFACE: CONFIG_UNLOCKED, from every state; the only way out of ERROR. -/
def State.tdispStop (s : State) (pf fn : Nat) : State :=
  let s1 := s.setTdi fn 0
  (s1.withPcie { s1.pcie with
      tdiStream := spErase s1.pcie.tdiStream fn
      tdiNonce := spErase s1.pcie.tdiNonce fn
      tdiOffset := spErase s1.pcie.tdiOffset fn }).doe pf (tdispBytes 0x07 fn [])

def execTdispStopInterface (pf session fn version : Nat) (s : State) : Res :=
  s.onTlp (.tdisp pf 0x87 session fn version []) <| s.tdispRun pf session fn version fun (s : State) => s.tdispStop pf fn

end Sys2Proof.Machine
end

