-- ==== Sys2Proof/Machine/Resume.lean ====
section
/-! DEFINITION. The end of a Hold: what the host interface kept meanwhile goes on (R425, R488). -/

namespace Sys2Proof.Machine

/-- An SPDM request, by its code. -/
def State.spdmRequest (s : State) (pf code : Nat) (r : SpdmReq) : Res :=
  if code = 0x84 then execSpdmGetVersion pf r s
  else if code = 0xE1 then execSpdmGetCapabilities pf r s
  else if code = 0xE3 then execSpdmNegotiateAlgorithms pf r s
  else if code = 0x81 then execSpdmGetDigests pf r s
  else if code = 0x82 then execSpdmGetCertificate pf r s
  else if code = 0x83 then execSpdmChallenge pf r s
  else if code = 0xE0 then execSpdmGetMeasurements pf r s
  else if code = 0xE4 then execSpdmKeyExchange pf r s
  else if code = 0xE5 then execSpdmFinish pf r s
  else if code = 0xE8 then execSpdmHeartbeat pf r s
  else if code = 0xE9 then execSpdmKeyUpdate pf r s
  else if code = 0xEC then execSpdmEndSession pf r s
  else execSpdmVendorMldsaSignature pf r s

/-- A TDISP request, by its code. -/
def State.tdispRequest (s : State) (pf code session fn version : Nat) (payload : List Byte) : Res :=
  if code = 0x81 then execTdispGetVersion pf session fn version s
  else if code = 0x82 then execTdispGetCapabilities pf session fn version s
  else if code = 0x83 then execTdispLockInterface pf session fn version payload s
  else if code = 0x84 then execTdispGetDeviceInterfaceReport pf session fn version payload s
  else if code = 0x85 then execTdispGetDeviceInterfaceState pf session fn version s
  else if code = 0x86 then execTdispStartInterface pf session fn version payload s
  else execTdispStopInterface pf session fn version s

/-- What a TLP, or an object on a DOE mailbox, does on its arrival. -/
def State.tlp (s : State) : Tlp → Res
  | .config route offset write be value => execConfigRequest route offset write be value s
  | .read fn bar offset len tag stream good ecc => execMemoryReadRequest fn bar offset len tag stream good ecc s
  | .write fn bar offset data poison stream good env answer =>
    execPostedWriteRequest fn bar offset data poison stream good env answer s
  | .atomicIo route tag => execAtomicopIoRequest route tag s
  | .completion port link tag route ok poison data => execInboundCompletion port link tag route ok poison data s
  | .message route code data => execPcieMessage route code data s
  | .atsInvalidation route range => execAtsInvalidationRequest route range s
  | .flr fn => execFunctionLevelReset fn s
  | .busMasterOff fn => execBusMasterDisable fn s
  | .vfEnableOff pf => execVfEnableClear pf s
  | .doe pf index => execDoeDiscovery pf index s
  | .ideKm pf session message => execIdeKmRequest pf session message s
  | .spdm pf code request => s.spdmRequest pf code request
  | .tdisp pf code session fn version payload => s.tdispRequest pf code session fn version payload

/-- What was kept in Hold is handled. -/
def State.replay (s : State) (i : Tlp) : State :=
  match s.tlp i with
  | .next t => t
  | _ => s

/-- The host interface goes on: the requests that it kept are sent, the TLPs that it accepted are handled, oldest
first. -/
def State.hifResume (s : State) : State :=
  let s1 := s.withPcie { s.pcie with held := [], toSend := [] }
  (s.pcie.held.foldl State.replay (s.pcie.toSend.foldl (fun (s : State) x => s.emit x.2) s1)).teSettle.nveGo

def execQuickCheckEnd (domain : Nat) (readings : List (Option (Nat × Nat × Nat))) (s : State) : Res :=
  if !s.held domain ∨ !s.pwr.dwelt.contains domain then .next s
  else
    let (pass, s1) := s.quickCheck domain readings
    .next (if pass then (if domain = 5 then (s1.holdEnd domain).hifResume else s1.holdEnd domain) else (s1.pwrFault 3 domain).controlledReset causeQuick)

end Sys2Proof.Machine
end

