-- ==== Sys2Proof/Machine/Aia.lean ====
section
/-! DEFINITION. The APLIC's domains and the delivery of MSIs to interrupt files (R441). The registers are those of the
RISC-V Advanced Interrupt Architecture 1.0 (PRESUMED, log entry 156). -/

namespace Sys2Proof.Machine

/-! ### Delivery -/

/-- The MSI that a `target` value names: hart, guest file and identity. A number that names no file of Table 16-1 is a
hole (R431). -/
def State.aplicTarget (s : State) (d v : Nat) : State :=
  let hart := v / 2 ^ 18 % 128
  let guest := v / 2 ^ 12 % 64
  if 96 ≤ hart ∨ (d = 1 ∧ 7 < guest) then s.partViolation (0x0E0020000000 + 0x8000 * hart + 0x1000 * guest)
  else s.imsicMsi hart (if d = 0 then 8 else guest) (v % 2048)

/-- The sources of a domain that are pending and enabled send their MSIs, and are no longer pending. -/
def State.aplicForward (s : State) (d : Nat) : State :=
  let x := s.aplic d
  let go := x.ip &&& x.en
  if !x.ie ∨ go = 0 then s
  else
    (List.range 1024).foldl (fun (s : State) i => if go.getLsbD i then s.aplicTarget d (spGet (fun _ => 0) x.targets i) else s)
      (s.setAplic d { x with ip := x.ip &&& ~~~go })

/-- The APLIC forwards, and MSIs under way arrive. The spec gives no time for either. DESIGN CHOICE (log entry 156): both
happen in the next step in which no command waits. -/
def State.aiaTick (s : State) : State :=
  let s1 := (s.aplicForward 0).aplicForward 1
  if s1.aia.msis = [] then s1
  else s1.aia.msis.foldl (fun (s : State) x => s.imsicMsi x.1 x.2.1 x.2.2) (s1.withAia { s1.aia with msis := [] })

/-! ### Registers of a domain -/

/-- The addresses of the interrupt files, which Table 16-1 fixes: locked. -/
def aplicMsiAddr (o : Nat) : Nat :=
  if o = 0x1BC0 then 0xE0010000 else if o = 0x1BC4 then 0x80007000
  else if o = 0x1BC8 then 0xE0020000 else if o = 0x1BCC then 0x00300000 else 0

/-- The 32-bit word of a set of sources. -/
def aplicWord (x : BitVec 1024) (k : Nat) : Nat := x.toNat / 2 ^ (32 * k) % 2 ^ 32

/-- A register of a domain, 32 bits wide. -/
def State.aplicRead (s : State) (d o : Nat) : Nat :=
  let x := s.aplic d
  if o = 0 then 0x80000004 + (if x.ie then 0x100 else 0)
  else if o < 0x1000 then x.config (o / 4)
  else if 0x1C00 ≤ o ∧ o < 0x1C80 then aplicWord x.ip ((o - 0x1C00) / 4)
  else if 0x1E00 ≤ o ∧ o < 0x1E80 then aplicWord x.en ((o - 0x1E00) / 4)
  else if 0x3004 ≤ o ∧ o < 0x4000 then spGet (fun _ => 0) x.targets ((o - 0x3000) / 4)
  else if d = 0 then aplicMsiAddr o
  else 0

/-- Sources that a word of bits names. -/
def aplicBits (k v : Nat) : BitVec 1024 := BitVec.ofNat 1024 (v % 2 ^ 32 * 2 ^ (32 * k))

/-- Every source of a word of bits, in order. -/
def AplicDomain.each (x : AplicDomain) (k v : Nat) (f : AplicDomain → Nat → AplicDomain) : AplicDomain :=
  (List.range 32).foldl (fun x i => if v.testBit i then f x (32 * k + i) else x) x

/-- A source that is active is enabled. -/
def AplicDomain.enable (x : AplicDomain) (i : Nat) : AplicDomain :=
  if x.active i && decide (i < 1024) then { x with en := x.en ||| BitVec.ofNat 1024 (2 ^ i) } else x
def AplicDomain.disable (x : AplicDomain) (i : Nat) : AplicDomain := { x with en := x.en &&& ~~~(BitVec.ofNat 1024 (2 ^ i)) }
def AplicDomain.clear (x : AplicDomain) (i : Nat) : AplicDomain := { x with ip := x.ip &&& ~~~(BitVec.ofNat 1024 (2 ^ i)) }

/-- A source configured; one that is inactive is neither pending nor enabled, and has no target. -/
def AplicDomain.configure (x : AplicDomain) (i v : Nat) : AplicDomain :=
  let y := { x with sources := spSet (fun _ => 0) x.sources i v }
  if y.active i then y else
    let z := (y.clear i).disable i
    { z with targets := spErase z.targets i }

/-- `sourcecfg` written: delegation, from the M domain alone, or a mode; encodings that AIA reserves leave the source
inactive. -/
def State.aplicConfigure (s : State) (d i v : Nat) : State :=
  let mode := if v % 8 = 2 ∨ v % 8 = 3 then 0 else v % 8
  if d = 1 then
    if (s.aplic 0).delegates i then s.setAplic 1 ((s.aplic 1).configure i (if v.testBit 10 then 0 else mode)) else s
  else if v.testBit 10 then s.setAplic 0 ((s.aplic 0).configure i (if v % 1024 = 0 then 0x400 else 0))
  else (s.setAplic 0 ((s.aplic 0).configure i mode)).setAplic 1 ((s.aplic 1).configure i 0)

/-- A number written in the other byte order. -/
def swap32 (v : Nat) : Nat := v / 2 ^ 24 % 256 + v / 2 ^ 16 % 256 * 2 ^ 8 + v / 2 ^ 8 % 256 * 2 ^ 16 + v % 256 * 2 ^ 24

/-- A register of a domain written. -/
def State.aplicWrite (s : State) (d o v : Nat) : State :=
  let x := s.aplic d
  let n := v % 1024
  if o = 0 then s.setAplic d { x with ie := v.testBit 8 }
  else if o < 0x1000 then s.aplicConfigure d (o / 4) v
  else if 0x1C00 ≤ o ∧ o < 0x1C80 then s.setAplic d (x.each ((o - 0x1C00) / 4) v AplicDomain.pend)
  else if o = 0x1CDC ∨ o = 0x2000 then s.setAplic d (x.pend n)
  else if o = 0x2004 then s.setAplic d (x.pend (swap32 v % 1024))
  else if 0x1D00 ≤ o ∧ o < 0x1D80 then s.setAplic d (x.each ((o - 0x1D00) / 4) v AplicDomain.clear)
  else if o = 0x1DDC then s.setAplic d (x.clear n)
  else if 0x1E00 ≤ o ∧ o < 0x1E80 then s.setAplic d (x.each ((o - 0x1E00) / 4) v AplicDomain.enable)
  else if o = 0x1EDC then s.setAplic d (x.enable n)
  else if 0x1F00 ≤ o ∧ o < 0x1F80 then s.setAplic d (x.each ((o - 0x1F00) / 4) v AplicDomain.disable)
  else if o = 0x1FDC then s.setAplic d (x.disable n)
  else if o = 0x3000 then s.aplicTarget d (v % 2 ^ 11 + v / 2 ^ 18 * 2 ^ 18)
  else if 0x3004 ≤ o ∧ o < 0x4000 then
    let i := (o - 0x3000) / 4
    if x.active i then
      let w := v % 2 ^ 11 + (if d = 1 then v / 2 ^ 12 % 64 * 2 ^ 12 else 0) + v / 2 ^ 18 % 2 ^ 14 * 2 ^ 18
      s.setAplic d { x with targets := spSet (fun _ => 0) x.targets i w }
    else s
  else s

/-! ### What an interrupt file shows its hart -/

/-- The lowest identity of a file that is pending, enabled and below the threshold: the one of highest priority. -/
def ImsicFile.top (y : ImsicFile) : Nat :=
  ((List.range 256).find? fun i =>
    decide (0 < i) && y.eip.getLsbD i && y.eie.getLsbD i && (y.threshold == 0 || decide (i < y.threshold))).getD 0

/-- Does a file signal an interrupt to its hart? -/
def ImsicFile.signals (y : ImsicFile) : Bool := y.delivery && y.top != 0

/-- The register of a file that an indirect number selects: `eidelivery`, `eithreshold`, words of `eip` and `eie`. -/
def ImsicFile.read (y : ImsicFile) (n : Nat) : Nat :=
  if n = 0x70 then (if y.delivery then 1 else 0)
  else if n = 0x72 then y.threshold
  else if 0x80 ≤ n ∧ n < 0x88 ∧ n % 2 = 0 then y.eip.toNat / 2 ^ (32 * (n - 0x80)) % 2 ^ 64
  else if 0xC0 ≤ n ∧ n < 0xC8 ∧ n % 2 = 0 then y.eie.toNat / 2 ^ (32 * (n - 0xC0)) % 2 ^ 64
  else 0

/-- 64 bits of a set of identities replaced; identity 0 does not exist. -/
def eiPut (x : BitVec 256) (k v : Nat) : BitVec 256 :=
  BitVec.ofNat 256 ((x.toNat - x.toNat / 2 ^ (64 * k) % 2 ^ 64 * 2 ^ (64 * k) + v % 2 ^ 64 * 2 ^ (64 * k)) / 2 * 2)

def ImsicFile.write (y : ImsicFile) (n v : Nat) : ImsicFile :=
  if n = 0x70 then { y with delivery := v % 2 ^ 64 == 1 }
  else if n = 0x72 then { y with threshold := v % 256 }
  else if 0x80 ≤ n ∧ n < 0x88 ∧ n % 2 = 0 then { y with eip := eiPut y.eip ((n - 0x80) / 2) v }
  else if 0xC0 ≤ n ∧ n < 0xC8 ∧ n % 2 = 0 then { y with eie := eiPut y.eie ((n - 0xC0) / 2) v }
  else y

/-- The interrupt of highest priority is claimed. -/
def ImsicFile.claim (y : ImsicFile) : ImsicFile := { y with eip := y.eip &&& ~~~(BitVec.ofNat 256 (2 ^ y.top)) }

end Sys2Proof.Machine
end

