-- ==== Sys2Proof/Machine/HartCsr.lean ====
section
/-! DEFINITION. What a halted hart does for the Debug Module: its registers, its loads and stores, and the instructions of
the program buffer (R428 to R431, R434, R435, R441). The CSRs are those of the RISC-V privileged architecture with the
extensions that R428 names, and of AIA 1.0 (PRESUMED, log entry 138). -/

namespace Sys2Proof.Machine

/-! ### Places of the physical space (Table 16-1) -/

inductive HartPlace
  | dram | retained | rom | imsic (hart file : Nat) | aplic (domain : Nat) | control | hole
  deriving DecidableEq, Repr

/-- The region that holds all of an access. -/
def State.placeOf (s : State) (a n : Nat) : HartPlace :=
  if a + n ≤ 0x001800000000 ∨ (0x010000000000 ≤ a ∧ a + n ≤ 0x010000000000 + s.ddr.sum * 67108864) then .dram
  else if inRetained a n then .retained
  else if 0x0E0100000000 ≤ a ∧ a + n ≤ 0x0E0100080000 then .rom
  else if 0x0E0030000000 ≤ a ∧ a + n ≤ 0x0E0030008000 then .aplic ((a - 0x0E0030000000) / 0x4000)
  else if 0x0F0000000000 ≤ a ∧ a + n ≤ 0x0F0020000000 then .control
  else
    match imsicPlace a with
    | some (h, f) => .imsic h f
    | none => .hole

/-- A read of a region that is not main memory to be written. The contents of the ROM are not part of the manual; APLIC and
interrupt files take aligned accesses of 4 bytes, and an interrupt file reads as zero. -/
def State.ctrlRead (s : State) (p : HartPlace) (a n : Nat) : Option (List Byte) × State :=
  match p with
  | .control =>
    if csrAligned (a - 0x0F0000000000) n then
      let (v, s1) := s.csrLoad (a - 0x0F0000000000) n
      (some (natLE n v.toNat), s1)
    else (none, s)
  | .rom =>
    let (v, s1) := s.takeFree
    (some (natLE n v.toNat), s1)
  | .aplic d => if n = 4 ∧ a % 4 = 0 then (some (natLE 4 (s.aplicRead d (a % 0x4000))), s) else (none, s)
  | .imsic _ _ => if n = 4 ∧ a % 4 = 0 then (some (natLE 4 0), s) else (none, s)
  | _ => (none, s)

/-- A write there: does it succeed? -/
def State.ctrlWrite (s : State) (p : HartPlace) (a n v : Nat) : Bool × State :=
  match p with
  | .control =>
    if csrAligned (a - 0x0F0000000000) n then
      (true, s.csrWrite (a - 0x0F0000000000) n (BitVec.ofNat 64 v) ⟨[], ⟨.clean, .ok⟩, false, false, [], []⟩)
    else (false, s)
  | .aplic d => if n = 4 ∧ a % 4 = 0 then (true, s.aplicWrite d (a % 0x4000) v) else (false, s)
  | .imsic h f =>
    if n = 4 ∧ a % 4 = 0 then
      (true, if a % 0x1000 = 0 then s.imsicMsi h f v else if a % 0x1000 = 4 then s.imsicMsi h f (swap32 v) else s)
    else (false, s)
  | _ => (false, s)

/-! ### Loads and stores in M-mode (R430, R431, R434) -/

/-- A load: the bytes, or an access fault. MEM refuses what lies in a partition that harts do not reach. -/
def State.hartRead (s : State) (h a n : Nat) (x : HartMem) : Option (List Byte) × State :=
  if !pmpGrants true a n false 0 (s.hart h).pmp then (none, s)
  else
    match s.placeOf a n with
    | .dram => if s.hartReaches a n then s.cacheLoad h a n x else (none, s.partViolation a)
    | .retained => s.cacheLoad h a n x
    | .hole => (none, s)
    | p => s.ctrlRead p a n

/-- A store: does it succeed, or is it an access fault? -/
def State.hartWrite (s : State) (h a : Nat) (d : List Byte) (x : HartMem) : Bool × State :=
  if !pmpGrants true a d.length true 0 (s.hart h).pmp then (false, s)
  else
    match s.placeOf a d.length with
    | .dram => if s.hartReaches a d.length then (true, s.cacheStore a d x) else (false, s.partViolation a)
    | .retained => (true, s.cacheStore a d x)
    | .hole => (false, s)
    | p => s.ctrlWrite p a d.length (leNat d)

/-- A cache-block operation: it needs a line of main memory that the hart reaches, and one that it may read or write. -/
def State.hartCbo (s : State) (h op a : Nat) (x : HartMem) : Bool × State :=
  let l := a / 64 * 64
  let pmp := (s.hart h).pmp
  if !(pmpGrants true l 64 true 0 pmp || (op != 4 && pmpGrants true l 64 false 0 pmp)) then (false, s)
  else
    match s.placeOf l 64 with
    | .dram => if s.hartReaches l 64 then (true, s.cacheOp op a x) else (false, s.partViolation a)
    | .retained => (true, s.cacheOp op a x)
    | _ => (false, s)

/-! ### CSRs (R428, R441, R453) -/

/-- The numbers that name a CSR. -/
def hartCsrs : List Nat :=
  [0x001, 0x002, 0x003, 0x008, 0x009, 0x00A, 0x00F, 0x100, 0x104, 0x105, 0x106, 0x10A, 0x10C, 0x10D, 0x10E, 0x10F] ++
  [0x140, 0x141, 0x142, 0x143, 0x144, 0x14D, 0x150, 0x151, 0x15C, 0x180, 0xDA0, 0xDB0] ++
  [0x200, 0x204, 0x205, 0x240, 0x241, 0x242, 0x243, 0x244, 0x24D, 0x250, 0x251, 0x25C, 0x280, 0xEB0] ++
  [0x600, 0x602, 0x603, 0x604, 0x605, 0x606, 0x607, 0x608, 0x609, 0x60A, 0x60C, 0x60D, 0x60E, 0x60F] ++
  [0x643, 0x644, 0x645, 0x646, 0x647, 0x64A, 0x680, 0xE12] ++
  [0x300, 0x301, 0x302, 0x303, 0x304, 0x305, 0x306, 0x308, 0x309, 0x30A, 0x30C, 0x30D, 0x30E, 0x30F, 0x320] ++
  [0x340, 0x341, 0x342, 0x343, 0x344, 0x34A, 0x34B, 0x350, 0x351, 0x35C, 0x7B0, 0x7B1, 0x7B2, 0x7B3, 0xFB0] ++
  [0xC00, 0xC01, 0xC02, 0xC20, 0xC21, 0xC22, 0xF11, 0xF12, 0xF13, 0xF14, 0xF15]

/-- Is there such a CSR: one of these, a PMP register, or a performance counter with its event? -/
def csrExists (n : Nat) : Bool :=
  hartCsrs.contains n || (decide (0x3A0 ≤ n) && decide (n < 0x3B0) && n % 2 == 0) || (decide (0x3B0 ≤ n) && decide (n < 0x3F0)) ||
  (decide (0x323 ≤ n) && decide (n < 0x340)) || (decide (0xB00 ≤ n) && decide (n < 0xB20) && n != 0xB01) ||
  (decide (0xC03 ≤ n) && decide (n < 0xC20))

/-- What a CSR holds at reset. `misa`: RV64 with A, B, C, D, F, H, I, M, S, U and V; XLEN is 64 in every mode. What the
manual does not give of the hart's make-up is fixed by the implementation. -/
def hartCsrReset (n : Nat) : Word :=
  if n = 0x301 then 0x80000000003411AF
  else if n = 0x300 then 0x0000000A00000000
  else if n = 0x600 ∨ n = 0x200 then 0x0000000200000000
  else if n = 0x7B0 then 0x40000003
  else if n = 0xC22 ∨ (0xF11 ≤ n ∧ n ≤ 0xF15) then Config.debugInfo (0x2000 + n)
  else 0

def Hart.csr (x : Hart) (n : Nat) : Word := spGet hartCsrReset x.csrs n
def Hart.setCsr (x : Hart) (n : Nat) (v : Word) : Hart := { x with csrs := spSet hartCsrReset x.csrs n v }

/-- The bits of `mstatus` that `sstatus` shows. -/
def sstatusMask : Word := 0x80000003000DE762

/-- The interrupt file that a CSR number of indirect access or of the top interrupt concerns: M-level, S-level, or the guest
file that `hstatus.VGEIN` names. -/
def Hart.fileOf (x : Hart) (n : Nat) : Nat :=
  if n / 256 = 3 then 8 else if n / 256 = 1 then 0 else bitsAt (x.csr 0x600) 17 12 % 8

/-- The time has come that a compare register names, where the environment has it enabled (Sstc). -/
def State.timerDue (s : State) (x : Hart) (env cmp : Nat) : Bool :=
  bitAt (x.csr env) 63 && decide ((x.csr cmp).toNat ≤ s.clk.mtime)

/-- Guest files that signal, by bit. -/
def Hart.guestPending (x : Hart) : Word := BitVec.ofNat 64 (((List.range 8).filter fun f => f != 0 && (x.file f).signals).map (2 ^ ·)).sum

/-- `mip`: what is written there, and what the interrupt files and the supervisor timer raise. -/
def State.mip (s : State) (x : Hart) : Word :=
  let w := if bitAt (x.csr 0x30A) 63 then setBit (x.csr 0x344) 5 (s.timerDue x 0x30A 0x14D) else x.csr 0x344
  let w1 := setBit (setBit w 11 (x.file 8).signals) 9 (bitAt w 9 || (x.file 0).signals)
  setBit w1 12 ((x.guestPending &&& x.csr 0x607) != 0)

/-- The interrupt of highest priority among pending ones, by its number; 0 none. -/
def topInterrupt (w : Word) : Nat := ([11, 3, 7, 9, 1, 5, 12, 10, 2, 6, 13].find? fun i => bitAt w i).getD 0

/-- An interrupt number as `*topi` and `*topei` give it. -/
def topiValue (i : Nat) : Word := BitVec.ofNat 64 (if i = 0 then 0 else i * 2 ^ 16 + 1)
def topeiValue (i : Nat) : Word := BitVec.ofNat 64 (i * 2 ^ 16 + i)

/-- Eight PMP configuration bytes, and an address register. -/
def Hart.pmpEntry (x : Hart) (i : Nat) : Nat × Nat := x.pmp.getD i (0, 0)
def Hart.pmpCfg (x : Hart) (n : Nat) : Word :=
  BitVec.ofNat 64 (((List.range 8).map fun i => (x.pmpEntry (4 * (n - 0x3A0) + i)).1 * 2 ^ (8 * i)).sum)

/-- The value that a CSR shows. -/
def State.hartCsr (s : State) (h n : Nat) : Word :=
  let x := s.hart h
  if n = 0xF14 then BitVec.ofNat 64 h
  else if n = 0xC01 then BitVec.ofNat 64 s.clk.mtime
  else if n = 0x100 then x.csr 0x300 &&& sstatusMask
  else if n = 0x104 then x.csr 0x304 &&& x.csr 0x303
  else if n = 0x144 then s.mip x &&& x.csr 0x303
  else if n = 0x344 then s.mip x
  else if n = 0xE12 then x.guestPending
  else if n = 0xFB0 then topiValue (topInterrupt (s.mip x &&& x.csr 0x304 &&& ~~~(x.csr 0x303)))
  else if n = 0xDB0 then topiValue (topInterrupt (s.mip x &&& x.csr 0x304 &&& x.csr 0x303))
  else if n = 0x351 ∨ n = 0x151 ∨ n = 0x251 then BitVec.ofNat 64 ((x.file (x.fileOf n)).read (x.csr (n - 1)).toNat)
  else if n = 0x35C ∨ n = 0x15C ∨ n = 0x25C then topeiValue (x.file (x.fileOf n)).top
  else if n = 0x001 then BitVec.ofNat 64 (bitsAt (x.csr 0x003) 4 0)
  else if n = 0x002 then BitVec.ofNat 64 (bitsAt (x.csr 0x003) 7 5)
  else if 0x3A0 ≤ n ∧ n < 0x3B0 then x.pmpCfg n
  else if 0x3B0 ≤ n ∧ n < 0x3F0 then BitVec.ofNat 64 (x.pmpEntry (n - 0x3B0)).2
  else if n = 0x7B1 then BitVec.ofNat 64 x.pc
  else if n = 0xC00 ∨ n = 0xC02 ∨ (0xC03 ≤ n ∧ n < 0xC20) then x.csr (n - 0x100)
  else x.csr n

/-- A PMP entry replaced. -/
def Hart.setPmp (x : Hart) (i : Nat) (e : Nat × Nat) : Hart :=
  { x with pmp := (x.pmp ++ List.replicate (i + 1 - x.pmp.length) (0, 0)).set i e }

/-- A PMP configuration byte written: nothing where the entry is locked, or where the byte is a reserved encoding. -/
def Hart.setPmpCfg (x : Hart) (i v : Nat) : Hart :=
  let e := x.pmpEntry i
  if e.1.testBit 7 ∨ (v % 4 = 2) then x else x.setPmp i (v % 32 + (if v.testBit 7 then 128 else 0), e.2)

/-- A PMP address register written: nothing where its entry is locked, or the next one is and takes it as its bottom. -/
def Hart.setPmpAddr (x : Hart) (i v : Nat) : Hart :=
  let next := (x.pmpEntry (i + 1)).1
  if (x.pmpEntry i).1.testBit 7 ∨ (next.testBit 7 ∧ natBits next 4 3 = 1) then x
  else x.setPmp i ((x.pmpEntry i).1, v % 2 ^ 54)

/-- Is the mode of an address-translation register Bare, Sv39, Sv48 or Sv57 (or their guest forms)? -/
def satpOk (v : Word) : Bool := [0, 8, 9, 10].contains (bitsAt v 63 60)

/-- A write of the bits of a view. -/
def merge (old v mask : Word) : Word := (old &&& ~~~mask) ||| (v &&& mask)

/-- A CSR written. -/
def State.hartCsrWrite (s : State) (h n : Nat) (v : Word) : State :=
  let x := s.hart h
  let put := fun (n : Nat) (v : Word) => s.setHart h (x.setCsr n v)
  if n = 0x301 ∨ n = 0x7B0 then s
  else if n = 0x300 then put n (setBits v 35 32 0xA)
  else if n = 0x100 then put 0x300 (merge (x.csr 0x300) v (sstatusMask &&& ~~~0x300000000))
  else if n = 0x104 then put 0x304 (merge (x.csr 0x304) v (x.csr 0x303))
  else if n = 0x144 then put 0x344 (merge (x.csr 0x344) v (x.csr 0x303 &&& 2))
  else if n = 0x344 then put 0x344 (merge (x.csr 0x344) v 0x0226)
  else if n = 0x180 ∨ n = 0x280 ∨ n = 0x680 then if satpOk v then put n v else s
  else if n = 0x351 ∨ n = 0x151 ∨ n = 0x251 then
    let f := x.fileOf n
    s.setHart h (x.setFile f ((x.file f).write (x.csr (n - 1)).toNat v.toNat))
  else if n = 0x35C ∨ n = 0x15C ∨ n = 0x25C then
    let f := x.fileOf n
    s.setHart h (x.setFile f (x.file f).claim)
  else if n = 0x001 then put 0x003 (setBits (x.csr 0x003) 4 0 v.toNat)
  else if n = 0x002 then put 0x003 (setBits (x.csr 0x003) 7 5 v.toNat)
  else if 0x3A0 ≤ n ∧ n < 0x3B0 then
    s.setHart h ((List.range 8).foldl (fun (x : Hart) i => x.setPmpCfg (4 * (n - 0x3A0) + i) (bitsAt v (8 * i + 7) (8 * i))) x)
  else if 0x3B0 ≤ n ∧ n < 0x3F0 then s.setHart h (x.setPmpAddr (n - 0x3B0) v.toNat)
  else if n = 0x305 ∨ n = 0x105 ∨ n = 0x205 then put n (v &&& ~~~2)
  else if n = 0x341 ∨ n = 0x141 ∨ n = 0x241 then put n (v &&& ~~~1)
  else if n = 0x7B1 then s.setHart h { x with pc := v.toNat / 2 * 2 }
  else put n v

/-! ### Registers by the Debug Module's numbers -/

/-- A general register, 1 to 31 integer, 32 to 63 floating-point. What the hart's program has left there no command shows:
it is free, and then stands. -/
def State.hartX (s : State) (h i : Nat) : Word × State :=
  let x := s.hart h
  if i = 0 then (0, s)
  else
    match x.xs.lookup i with
    | some v => (v, s)
    | none =>
      let (v, s1) := s.takeFree
      (v, s1.setHart h { x with xs := spInsert x.xs i v })

def State.setHartX (s : State) (h i : Nat) (v : Word) : State :=
  if i = 0 then s else s.setHart h { s.hart h with xs := spInsert (s.hart h).xs i v }

/-- A register read: a CSR below 0x1000, a general register from 0x1000 on. -/
def State.hartRegRead (s : State) (h n : Nat) : Option (Word × State) :=
  if n < 0x1000 then (if csrExists n then some (s.hartCsr h n, s) else none)
  else if n < 0x1040 then some (s.hartX h (n - 0x1000))
  else none

/-- A register written; a CSR whose number says that it is read-only takes none. -/
def State.hartRegWrite (s : State) (h n : Nat) (v : Word) : Option State :=
  if n < 0x1000 then (if csrExists n ∧ n / 1024 ≠ 3 then some (s.hartCsrWrite h n v) else none)
  else if n < 0x1040 then some (s.setHartX h (n - 0x1000) v)
  else none

/-! ### The program buffer -/

/-- How an instruction of the program buffer ends. -/
inductive ProgEnd
  | go | ended | trap
  deriving DecidableEq, Repr

/-- An immediate of 12 bits added to a register's value. -/
def addImm (v : Word) (imm : Nat) : Nat := (v + (BitVec.ofNat 12 imm).signExtend 64).toNat

/-- What a load writes to its register: sign-extended, or zero-extended where `funct3` has bit 2. -/
def loadValue (f3 : Nat) (l : List Byte) : Word :=
  let v := leNat l
  let n := 8 * 2 ^ (f3 % 4)
  if f3 < 4 ∧ v.testBit (n - 1) then BitVec.ofNat 64 (2 ^ 64 - 2 ^ n + v) else BitVec.ofNat 64 v

/-- One instruction of the program buffer: `ebreak`, fences, cache-block operations, `addi`, `lui`, integer loads and stores.
Any other ends the command with an exception. DESIGN CHOICE (log entry 138). -/
def State.hartInstr (s : State) (h w : Nat) (x : HartMem) : ProgEnd × State :=
  let op := w % 128
  let rd := natBits w 11 7
  let f3 := natBits w 14 12
  let (a, s1) := s.hartX h (natBits w 19 15)
  if w = 0x00100073 then (.ended, s)
  else if op = 0x0F ∧ f3 ≤ 1 then (.go, s)
  else if op = 0x0F ∧ f3 = 2 ∧ rd = 0 ∧ [0, 1, 2, 4].contains (natBits w 31 20) then
    match s1.hartCbo h (natBits w 31 20) a.toNat x with
    | (true, s2) => (.go, s2)
    | (false, s2) => (.trap, s2)
  else if op = 0x13 ∧ f3 = 0 then (.go, s1.setHartX h rd (BitVec.ofNat 64 (addImm a (natBits w 31 20))))
  else if op = 0x37 then (.go, s.setHartX h rd ((BitVec.ofNat 32 (w / 4096 * 4096)).signExtend 64))
  else if op = 0x03 ∧ f3 < 7 then
    match s1.hartRead h (addImm a (natBits w 31 20)) (2 ^ (f3 % 4)) x with
    | (some l, s2) => (.go, s2.setHartX h rd (loadValue f3 l))
    | (none, s2) => (.trap, s2)
  else if op = 0x23 ∧ f3 < 4 then
    let (v, s2) := s1.hartX h (natBits w 24 20)
    match s2.hartWrite h (addImm a (natBits w 31 25 * 32 + rd)) (natLE (2 ^ f3) v.toNat) x with
    | (true, s3) => (.go, s3)
    | (false, s3) => (.trap, s3)
  else (.trap, s)

end Sys2Proof.Machine
end

