-- ==== Sys2Proof/Machine/Tap.lean ====
section
/-! DEFINITION. The wicket's TAP and the debug transport behind it (R543, Table 20-8). The Debug Module's
registers are those of the External Debug Support specification, version 1.0, which the spec names. -/

namespace Sys2Proof.Machine

/-! ### Boundary scan and identification -/

/-- The instruction register of the TAP. -/
def State.setIr (s : State) (v : Nat) : State := s.withWkt { s.wkt with tapIr := v }

def State.setBoundary (s : State) (l : List Byte) : State := s.withWkt { s.wkt with boundary := l }

/-- The outputs driven from the boundary register. -/
def State.driveBoundary (s : State) : State := s.emit (.tap "DRIVE" s.wkt.boundary)

/-- EXTEST: the outputs follow the boundary register; a scan captures the pins (`sampled`) and loads new
values (`shifted`). -/
def execTapExtest (sampled shifted : List Byte) (s : State) : Res :=
  let s1 := ((s.setIr 0x00).driveBoundary).emit (.tap "EXTEST" sampled)
  .next (s1.setBoundary shifted).driveBoundary

def execTapIdcode (s : State) : Res := .next ((s.setIr 0x01).emit (.tap "IDCODE" (natLE 4 0xB512094B)))

def execTapSamplePreload (sampled shifted : List Byte) (s : State) : Res :=
  .next (((s.setIr 0x02).emit (.tap "SAMPLE/PRELOAD" sampled)).setBoundary shifted)

/-- The bypass register is selected: one bit, captured as 0. -/
def State.selectBypass (s : State) (ir : Nat) : State := (s.setIr ir).emit (.tap "BYPASS" [0])

def execTapClamp (s : State) : Res := .next (s.driveBoundary.selectBypass 0x04)
def execTapHighz (s : State) : Res := .next ((s.emit (.tap "HIGHZ" [])).selectBypass 0x05)

/-- BYPASS, by its own code or by any code that names no instruction. -/
def execTapBypass (s : State) : Res := .next (s.selectBypass 0xFF)

/-! ### The wicket's instructions -/

def execTapWktChal (s : State) : Res :=
  let s1 := (s.setIr 0x20).newChallenge
  .next (s1.emit (.tap "WKT_CHAL" (s1.regBytes (R.WKT_CHAL 0) 6)))

/-- WKT_TOKEN: 4,992 bytes are shifted in, then submitted. -/
def execTapWktToken (token : List Byte) (s : State) : Res := .next ((s.setIr 0x21).submitToken (bytesAt token 0 4992))

def execTapWktStatus (s : State) : Res :=
  .next ((s.setIr 0x22).emit (.tap "WKT_STATUS"
    (natLE 2 (s.get F.WKT_TOKEN_STATUS_LAST_FC) ++ natLE 1 (bitsAt (s.rd R.WKT_LIFECYCLE) 2 0))))

/-! ### The Debug Module -/

abbrev dmData0 : Nat := 0x04
abbrev dmControl : Nat := 0x10
abbrev dmStatus : Nat := 0x11
abbrev dmHartInfo : Nat := 0x12
abbrev dmHaltSum1 : Nat := 0x13
abbrev dmAbstractCs : Nat := 0x16
abbrev dmCommand : Nat := 0x17
abbrev dmSbCs : Nat := 0x38
abbrev dmSbAddress0 : Nat := 0x39
abbrev dmSbAddress1 : Nat := 0x3A
abbrev dmSbData0 : Nat := 0x3C
abbrev dmSbData1 : Nat := 0x3D
abbrev dmHaltSum0 : Nat := 0x40

/-- The model's own record of halted harts, and of harts that have acknowledged a resume. -/
def dmHalted (h : Nat) : Nat := 0x10000 + h
def dmResumed (h : Nat) : Nat := 0x20000 + h

def State.dm (s : State) (a : Nat) : Nat := spGet (fun _ => 0) s.wkt.dm a
def State.setDm (s : State) (a v : Nat) : State := s.withWkt { s.wkt with dm := spSet (fun _ => 0) s.wkt.dm a v }

def State.dmActive (s : State) : Bool := (s.dm dmControl).testBit 0

/-- The hart that `hartsello` and `hartselhi` select. -/
def State.dmHart (s : State) : Nat := natBits (s.dm dmControl) 25 16 + natBits (s.dm dmControl) 15 6 * 1024

/-- `dmstatus`: version 3, authenticated, and the state of the selected hart in its pairs of bits. -/
def State.dmStatusRead (s : State) : Nat :=
  let h := s.dmHart
  let none := decide (96 ≤ h)
  let pair := fun (b : Bool) (lo : Nat) => if b then 3 * 2 ^ lo else 0
  let halted := s.dm (dmHalted h) == 1
  let up := !none && s.online h
  3 + 2 ^ 7 + pair (up && halted) 8 + pair (up && !halted) 10 + pair (!none && !up) 12 + pair none 14 +
    pair (up && s.dm (dmResumed h) == 1) 16

/-- Halted harts of 32 as a mask. -/
def State.haltMask (s : State) (first : Nat) : Nat :=
  ((List.range 32).map fun i => if s.dm (dmHalted (first + i)) = 1 then 2 ^ i else 0).sum

/-! ### System bus access (R430, R431, R543) -/

/-- A system bus read of `n` bytes, which reaches what an M-mode hart reaches: the bytes where the access succeeds, and
poisoned ones do not. -/
def State.busRead (s : State) (a n : Nat) (x : HartMem) : Option (List Byte) × State :=
  if !pmpGrants true a n false 0 [pmpSecret, pmpRom] then (none, s)
  else
    match s.placeOf a n with
    | .dram =>
      if !s.hartReaches a n then (none, s.partViolation a)
      else (if x.mem.bad || s.poisoned a n then none else some (s.bytes a n), s.memRead x.mem a)
    | .retained => (some (s.bytes a n), s)
    | .hole => (none, s.partViolation a)
    | p => s.ctrlRead p a n

/-- A system bus write: does it succeed? -/
def State.busWrite (s : State) (a n v : Nat) : Bool × State :=
  if !pmpGrants true a n true 0 [pmpSecret, pmpRom] then (false, s)
  else
    match s.placeOf a n with
    | .dram => if s.hartReaches a n then (true, s.putBytes a (natLE n v)) else (false, s.partViolation a)
    | .retained => (true, s.putBytes a (natLE n v))
    | .hole => (false, s.partViolation a)
    | p => s.ctrlWrite p a n v

/-- `sberror` set, unless an error stands. -/
def State.sbError (s : State) (e : Nat) : State :=
  let c := s.dm dmSbCs
  if natBits c 14 12 ≠ 0 then s else s.setDm dmSbCs (c + e * 2 ^ 12)

/-- The address that the next access uses moves on by the size accessed. -/
def State.sbAdvance (s : State) (n : Nat) : State :=
  if (s.dm dmSbCs).testBit 16 then
    let a := (s.dm dmSbAddress1 * 2 ^ 32 + s.dm dmSbAddress0 + n) % 2 ^ 64
    (s.setDm dmSbAddress0 (a % 2 ^ 32)).setDm dmSbAddress1 (a / 2 ^ 32)
  else s

/-- One system bus access with the registers as they stand: sizes of 1, 2, 4 and 8 bytes. -/
def State.sbAccess (s : State) (write : Bool) (x : HartMem) : State :=
  let c := s.dm dmSbCs
  let n := 2 ^ natBits c 19 17
  let a := s.dm dmSbAddress1 * 2 ^ 32 + s.dm dmSbAddress0
  if natBits c 14 12 ≠ 0 then s
  else if 8 < n then s.sbError 4
  else if a % n ≠ 0 then s.sbError 3
  else if write then
    match s.busWrite a n ((s.dm dmSbData1 * 2 ^ 32 + s.dm dmSbData0) % 2 ^ (8 * n)) with
    | (true, s1) => s1.sbAdvance n
    | (false, s1) => s1.sbError 2
  else
    match s.busRead a n x with
    | (some l, s1) => ((s1.setDm dmSbData0 (leNat l % 2 ^ 32)).setDm dmSbData1 (leNat l / 2 ^ 32)).sbAdvance n
    | (none, s1) => s1.sbError 2

/-! ### Debug Module registers -/

/-- `cmderr` set. -/
def State.dmCmdErr (s : State) (e : Nat) : State :=
  if natBits (s.dm dmAbstractCs) 10 8 = 0 then s.setDm dmAbstractCs (s.dm dmAbstractCs + e * 256) else s

/-- Two data registers as one number, and written. -/
def State.dmData (s : State) (k : Nat) : Nat := s.dm (dmData0 + k) + s.dm (dmData0 + k + 1) * 2 ^ 32
def State.setDmData (s : State) (k v : Nat) : State :=
  (s.setDm (dmData0 + k) (v % 2 ^ 32)).setDm (dmData0 + k + 1) (v / 2 ^ 32 % 2 ^ 32)

/-- The program buffer's words run on the halted hart, up to its `ebreak` or its end. -/
def State.dmProgram (s : State) (h : Nat) (x : HartMem) : List Nat → State
  | [] => s
  | w :: t =>
    match s.hartInstr h w x with
    | (.go, s1) => s1.dmProgram h x t
    | (.ended, s1) => s1
    | (.trap, s1) => s1.dmCmdErr 3

def State.dmPostexec (s : State) (h v : Nat) (x : HartMem) : State :=
  if v.testBit 18 then s.dmProgram h x ((List.range 16).map fun i => s.dm (0x20 + i)) else s

/-- Access Register: 32 or 64 bits of a register of the halted hart. -/
def State.dmRegister (s : State) (h v : Nat) (x : HartMem) : State :=
  let n := v % 2 ^ 16
  let size := natBits v 22 20
  if !v.testBit 17 then s.dmPostexec h v x
  else if size ≠ 2 ∧ size ≠ 3 then s.dmCmdErr 2
  else if v.testBit 16 then
    match s.hartRegWrite h n (BitVec.ofNat 64 (if size = 2 then s.dm dmData0 else s.dmData 0)) with
    | some s1 => s1.dmPostexec h v x
    | none => s.dmCmdErr 3
  else
    match s.hartRegRead h n with
    | some (w, s1) => (if size = 2 then s1.setDm dmData0 (bitsAt w 31 0) else s1.setDmData 0 w.toNat).dmPostexec h v x
    | none => s.dmCmdErr 3

/-- Access Memory: up to 8 bytes at a physical address, as the halted hart reaches them in M-mode. -/
def State.dmMemory (s : State) (h v : Nat) (x : HartMem) : State :=
  let n := 2 ^ natBits v 22 20
  let a := s.dmData 2
  let next := fun (s : State) => if v.testBit 19 then s.setDmData 2 (a + n) else s
  if v.testBit 23 ∨ 8 < n then s.dmCmdErr 2
  else if v.testBit 16 then
    match s.hartWrite h a (natLE n (s.dmData 0 % 2 ^ (8 * n))) x with
    | (true, s1) => next s1
    | (false, s1) => s1.dmCmdErr 3
  else
    match s.hartRead h a n x with
    | (some l, s1) => next (if n ≤ 4 then s1.setDm dmData0 (leNat l) else s1.setDmData 0 (leNat l))
    | (none, s1) => s1.dmCmdErr 3

/-- An abstract command on the selected hart, which must be halted; Quick Access is not supported. A hart in Hold does
nothing (R449). -/
def State.dmCommandRun (s : State) (v : Nat) (x : HartMem) : State :=
  let h := s.dmHart
  if natBits (s.dm dmAbstractCs) 10 8 ≠ 0 ∨ (s.tile (hartTile h)).hold then s
  else if natBits v 31 24 ≠ 0 ∧ natBits v 31 24 ≠ 2 then s.dmCmdErr 2
  else if s.dm (dmHalted h) ≠ 1 then s.dmCmdErr 4
  else if natBits v 31 24 = 0 then s.dmRegister h v x
  else s.dmMemory h v x

/-- `dmcontrol` written: the module leaves or enters its reset, and the selected hart halts or resumes; what its program then
makes of its registers is not known. -/
def State.dmControlWrite (s : State) (v : Nat) : State :=
  if !v.testBit 0 then s.withWkt { s.wkt with dm := [] }
  else
    let s1 := s.setDm dmControl (natBits v 25 16 * 2 ^ 16 + natBits v 15 6 * 2 ^ 6 + natBits v 1 1 * 2 + 1)
    let h := s1.dmHart
    if 96 ≤ h ∨ !s1.online h then s1
    else if v.testBit 31 then s1.setDm (dmHalted h) 1
    else if v.testBit 30 then
      ((s1.setDm (dmHalted h) 0).setDm (dmResumed h) 1).setHart h { s1.hart h with xs := [] }
    else s1

def State.dmWrite (s : State) (a v : Nat) (x : HartMem) : State :=
  if a = dmControl then s.dmControlWrite v
  else if !s.dmActive then s
  else if (dmData0 ≤ a ∧ a ≤ 0x0F) ∨ (0x20 ≤ a ∧ a ≤ 0x2F) ∨ a = dmSbAddress1 ∨ a = dmSbData1 then s.setDm a v
  else if a = dmCommand then s.dmCommandRun v x
  else if a = dmAbstractCs then s.setDm a (s.dm a - natBits (s.dm a &&& v) 10 8 * 256)
  else if a = dmSbCs then
    s.setDm a (v % 2 ^ 22 / 2 ^ 15 * 2 ^ 15 + (natBits (s.dm a) 14 12 - natBits (s.dm a &&& v) 14 12) * 2 ^ 12)
  else if a = dmSbAddress0 then
    let s1 := s.setDm a v
    if (s.dm dmSbCs).testBit 20 then s1.sbAccess false x else s1
  else if a = dmSbData0 then (s.setDm a v).sbAccess true x
  else s

def State.dmRead (s : State) (a : Nat) (x : HartMem) : Nat × State :=
  if !s.dmActive then (0, s)
  else if a = dmStatus then (s.dmStatusRead, s)
  else if a = dmHaltSum0 then (s.haltMask (s.dmHart / 32 * 32), s)
  else if a = dmHaltSum1 then (((List.range 3).map fun i => if s.haltMask (32 * i) = 0 then 0 else 2 ^ i).sum, s)
  else if a = dmAbstractCs then (s.dm a + bitsAt (Config.debugInfo a) 28 24 * 2 ^ 24 + bitsAt (Config.debugInfo a) 3 0, s)
  else if a = dmHartInfo then (bitsAt (Config.debugInfo a) 31 0, s)
  else if a = dmSbCs then (s.dm a + 2 ^ 29 + 64 * 2 ^ 5 + 15, s)
  else if a = dmSbData0 then
    (s.dm a, if (s.dm dmSbCs).testBit 15 then s.sbAccess false x else s)
  else if a = dmControl ∨ (dmData0 ≤ a ∧ a ≤ 0x0F) ∨ (0x20 ≤ a ∧ a ≤ 0x2F) ∨ a = dmSbAddress0 ∨ a = dmSbAddress1 ∨ a = dmSbData1 then
    (s.dm a, s)
  else (0, s)

/-- DTMCS: version 1 of the transport; every access has ended, so `dmistat` is 0. -/
def execTapDtmcs (s : State) : Res :=
  .next ((s.setIr 0x10).emit (.tap "DTMCS" (natLE 4 (1 + bitsAt (Config.debugInfo 0x1000) 9 4 * 16 +
    bitsAt (Config.debugInfo 0x1000) 14 12 * 4096))))

/-- DMI: one access, `op` 1 read, 2 write, and what the checks find where it goes to memory. In Closed a read returns zero
and a write is ignored. -/
def execTapDmi (op addr : Nat) (x : DmiData) (s : State) : Res :=
  let s0 := s.setIr 0x11
  if op = 1 then
    let (v, s1) := if s0.isOpen then s0.dmRead addr x.mem else (0, s0)
    .next (s1.emit (.tap "DMI" (natLE 4 v)))
  else if op = 2 ∧ s0.isOpen then .next (s0.dmWrite addr (x.data % 2 ^ 32) x.mem)
  else .next s0

end Sys2Proof.Machine
end

