-- ==== Sys2Proof/Machine/UcRun.lean ====
section
/-! DEFINITION. The run of the microcode sequencers: fetch, next address, faults and repair (R315 to R320, R329,
R330). -/

namespace Sys2Proof.Machine

/-! ### Stored words: 128 bits and 9 check bits (R316)

The spec names no code. DESIGN CHOICE (log entry 151): a Hamming code over bit places 1 to 136 with its check bits at the
powers of two, and an even parity at place 0. -/

/-- Is a place one of a check bit? -/
def csCheckPlace (p : Nat) : Bool := [0, 1, 2, 4, 8, 16, 32, 64, 128].contains p

/-- The places of the 128 data bits, with the number of each. -/
def csPlaces : List (Nat × Nat) := ((List.range 137).filter fun p => !csCheckPlace p).zip (List.range 128)

/-- The exclusive or of the places whose bits are set. -/
def csSyndrome (c : Nat) : Nat := (List.range 137).foldl (fun n p => if c.testBit p then n ^^^ p else n) 0

/-- Is the number of bits set odd? -/
def csOdd (c : Nat) : Bool := (List.range 137).foldl (fun b p => b != c.testBit p) false

/-- The data bits of a stored word. -/
def csData (c : Nat) : Nat := csPlaces.foldl (fun n x => if c.testBit x.1 then n + 2 ^ x.2 else n) 0

/-- A word with its check bits. -/
def csEncode (w : Nat) : Nat :=
  let d := csPlaces.foldl (fun n x => if w.testBit x.2 then n + 2 ^ x.1 else n) 0
  let c := (List.range 8).foldl (fun n i => if (csSyndrome d).testBit i then n + 2 ^ 2 ^ i else n) d
  c + if csOdd c then 1 else 0

/-- What a read of a stored word gives: the word; the word after the correction of one bit, with its place; or an
uncorrectable error. -/
inductive CsRead
  | word (w : Nat)
  | fixed (w place : Nat)
  | bad
  deriving DecidableEq, Repr

def csRead (c : Nat) : CsRead :=
  let p := csSyndrome c
  if csOdd c then (if p < 137 then .fixed (csData (c ^^^ 2 ^ p)) p else .bad)
  else if p = 0 then .word (csData c)
  else .bad

/-! ### Fetch (R320, R330) -/

/-- The address whose word a fetch issues, and that PC becomes: a ROM address that a match register names gives way to
the patch address, at no cost; `none` for an unused address (R316, R320). -/
def State.ucTarget (s : State) (pc : Nat) : Option Nat :=
  let (n, m, _) := s.ucPatch
  if pc < 0x3000 then
    some (match (ucMatches s.te.patch n m).find? fun r => r % 2 ^ 14 == pc with
      | some r => natBits r 29 16
      | none => pc)
  else if pc < 0x3400 then some pc
  else none

/-- The word written at a control-store address: the ROM's, or that of the patch in force; zero beyond it. -/
def State.ucWord (s : State) (a : Nat) : Nat :=
  if a < 0x3000 then Config.ucRom a % 2 ^ 128
  else if a - 0x3000 < s.ucPatch.1 then leAt s.te.patch (16 * (a - 0x3000)) 16 else 0

/-- The bits in which an engine's stored word is upset. -/
def State.ucUpset (s : State) (e a : Nat) : Nat := spGet (fun _ => 0) s.te.upsets (16384 * e + a)
def State.setUcUpset (s : State) (e a v : Nat) : State :=
  s.withTe { s.te with upsets := spSet (fun _ => 0) s.te.upsets (16384 * e + a) v }

/-- The word that an engine stores at an address. -/
def State.ucStored (s : State) (e a : Nat) : Nat := csEncode (s.ucWord a) ^^^ s.ucUpset e a

/-- An upset strikes up to two bits of the word that an engine fetches: an event from outside, which a free value
stands for. -/
def State.ucStrike (s : State) (e a : Nat) (v : Word) : State :=
  let hit := fun (on hi lo : Nat) => if bitAt v on then 2 ^ (bitsAt v hi lo % 137) else 0
  s.setUcUpset e a (s.ucUpset e a ^^^ hit 40 48 41 ^^^ hit 49 57 50)

/-- How an event goes on after a word. -/
inductive UcNext
  | goes (pc : Nat) (stack : List Nat)
  | ends
  | faults
  deriving DecidableEq, Repr

/-- The next address (Table 12-3): `flag` the selected condition flag before `COND_INV`, `sel` the datapath selector,
`entry` the dispatch entry of the event's opcode byte in a table. -/
def ucNext (pc : Nat) (stack : List Nat) (word : Nat) (flag : Bool) (sel : Nat) (entry : Nat → Nat) : UcNext :=
  let seq := natBits word 127 124
  let next := natBits word 123 110
  let cond := (flag || natBits word 109 104 == 0) != word.testBit 103
  let step := (pc + 1) % 2 ^ 14
  match seq with
  | 0 => .goes step stack
  | 1 => .goes next stack
  | 2 => .goes (if cond then next else step) stack
  | 3 => .goes (entry (natBits word 101 100)) stack
  | 4 => if 8 ≤ stack.length then .faults else .goes next (step :: stack)
  | 5 => match stack with
    | a :: t => .goes a t
    | [] => .faults
  | 6 => if next % 16 = 0 then .goes (next + sel % 16) stack else .faults
  | 7 => .ends
  | _ => .faults

/-- The connection of an event is reset, where it is up (R329). -/
def State.ucConnReset (s : State) (c : Nat) : State :=
  let k := s.conn c
  if k.f CI.state = connUp ∨ k.f CI.state = connClosing then
    (s.tcpSend c (k.f CI.sndNxt) (fRst + fAck) false []).connFail c 0x05 4
  else s

/-- The context index that a microcode condition captures; an SRQ, a CQ or a control ring has none: 0. -/
def UcObj.index : UcObj → Nat
  | .qp c => c
  | .conn c => c
  | _ => 0

/-- A microcode event ends by a fault, or by an error not repaired (R329, R330): its QP enters ERROR with event 1, or its
connection is reset; an event of another object concerns neither. -/
def State.ucEventEnd (s : State) (e : Nat) (x : UcCtx) (u : UcEnd) : State :=
  match x.object with
  | .qp c => (s.teMicrocode c u).teSettle
  | o =>
    let at_ := e * 2 ^ 36 + o.index % 2 ^ 22
    let s1 := if u = .fault then (s.count F.TE_UC_FAULT_COUNT_COUNT).ucFault 0x1B 2 at_ else s.ucFault 0x1C 3 at_
    match o with
    | .conn c => s1.ucConnReset c
    | _ => s1

/-- A word of the context at place `i` is issued. -/
def State.ucIssue (s : State) (e i : Nat) (x : UcCtx) (pc word : Nat) (flag : Bool) (sel : Nat) : State :=
  let freed := s.setSeq e ((s.seqOf e).eraseIdx i)
  match ucNext pc x.stack word flag sel (fun table => s.ucEntry table x.opcode) with
  | .ends => freed
  | .faults => freed.ucEventEnd e x .fault
  | .goes pc' stack =>
    if 65535 ≤ x.issued then freed.ucEventEnd e x .fault
    else s.setSeq e ((s.seqOf e).set i { x with pc := pc', stack := stack, issued := x.issued + 1 })

/-- The context at place `i` fetches its next word: a single-bit error is corrected, written back and counted; an
uncorrectable one in patch RAM waits for its repair, one in ROM ends the event (R330). -/
def State.ucFetchAt (s : State) (e i : Nat) (x : UcCtx) (v : Word) : State :=
  match s.ucTarget x.pc with
  | none => (s.setSeq e ((s.seqOf e).eraseIdx i)).ucEventEnd e x .fault
  | some a =>
    let s1 := s.ucStrike e a v
    match csRead (s1.ucStored e a) with
    | .word w => s1.ucIssue e i x a w (bitAt v 32) (bitsAt v 39 36)
    | .fixed w p =>
      ((s1.setUcUpset e a (s1.ucUpset e a ^^^ 2 ^ p)).count F.TE_UC_CE_COUNT_COUNT).ucIssue e i x a w (bitAt v 32) (bitsAt v 39 36)
    | .bad =>
      if a < 0x3000 then (s1.setSeq e ((s1.seqOf e).eraseIdx i)).ucEventEnd e x .unrepaired
      else s1.setSeq e ((s1.seqOf e).set i { x with pc := a, repair := true })

/-- One cycle of a sequencer: the oldest context that is ready issues one microword. Readiness, the condition flag and
the selector are the datapath's, whose encoding the manual does not give: free values. A context whose fetch waits for a
repair is not ready. -/
def State.ucCycle (s : State) (e : Nat) : State :=
  let (v, s1) := s.takeFree
  let ready := fun (i : Nat) => bitAt v i && ((s.seqOf e)[i]?).any fun (x : UcCtx) => !x.repair
  match (List.range (s.seqOf e).length).find? ready with
  | none => s1
  | some i =>
    match (s.seqOf e)[i]? with
    | none => s1
    | some x => s1.ucFetchAt e i x v

/-- The next engine, in ascending order modulo 16, whose copy of a patch word can be read (R330). -/
def State.ucCleanCopy (s : State) (e a : Nat) : Option Nat :=
  ((List.range 15).map fun k => (e + 1 + k) % 16).find? fun g => csRead (s.ucStored g a) != .bad

/-- The fetch of the context at place `index` of an engine that waits for a patch word is repaired: the word is copied from
the next engine whose copy reads clean; where every copy is bad, the event ends (R330). -/
def execPatchRepair (engine index : Nat) (s : State) : Res :=
  match (s.seqOf engine)[index]? with
  | none => .next s
  | some x =>
    if !x.repair ∨ !s.teRuns engine then .next s
    else
      match s.ucCleanCopy engine x.pc with
      | some g =>
        let s1 := s.setUcUpset engine x.pc (match csRead (s.ucStored g x.pc) with
          | .fixed _ p => s.ucUpset g x.pc ^^^ 2 ^ p
          | _ => s.ucUpset g x.pc)
        .next (s1.setSeq engine ((s1.seqOf engine).set index { x with repair := false }))
      | none => .next ((s.setSeq engine ((s.seqOf engine).eraseIdx index)).ucEventEnd engine x .unrepaired)

/-- The doorbells of every function that wait, and messages held back by an invalidation, go on as far as they may. -/
def State.teAllPosts (s : State) : State :=
  ((spKeys s.te.fns).foldl (fun (s : State) f => (s.teTakePosts f).teSettle) s).teEnd

/-- One nanosecond of the sequencers: 2.5 cycles each, none in Hold or before SEAL (R315, R325, R330). -/
def State.ucTick (s : State) : State :=
  let m := s.clk.mtime
  let cycles := m * 5 / 2 - (m - 1) * 5 / 2
  ((spKeys s.te.seqs).foldl (fun (s : State) e =>
    if s.teRuns e then (List.range cycles).foldl (fun (s : State) _ => s.ucCycle e) s else s) s).teAllPosts

end Sys2Proof.Machine
end

