-- ==== Sys2Proof/Machine/Dispatch.lean ====
section
/-! DEFINITION. The dispatch: one arm per command, each a call of its meaning. -/

namespace Sys2Proof.Machine

def exec (i : Instr) (s : State) : Host.Outcome State Fault Refusal :=
  match i with
  | .registerWrite who offset size value env => Sys2Proof.Machine.execRegisterWrite who offset size value env s
  | .rcRegisterRead access => Sys2Proof.Machine.execRcRegisterRead access s
  | .commitCancel offset => Sys2Proof.Machine.execCommitCancel offset s
  | .frameReceive port data marks => Sys2Proof.Machine.execFrameReceive port data marks s
  | .pfcRepeat port prio => Sys2Proof.Machine.execPfcRepeat port prio s
  | .ethPfcEnClear port prio => Sys2Proof.Machine.execEthPfcEnClear port prio s
  | .pfcFrameReceived port enable times => Sys2Proof.Machine.execPfcFrameReceived port enable times s
  | .pfcPauseExpiry port prio => Sys2Proof.Machine.execPfcPauseExpiry port prio s
  | .linkLoss port receiving => Sys2Proof.Machine.execLinkLoss port receiving s
  | .linkTrainingComplete port => Sys2Proof.Machine.execLinkTrainingComplete port s
  | .laneCalibrationComplete port latencies => Sys2Proof.Machine.execLaneCalibrationComplete port latencies s
  | .packetInject ep offer => Sys2Proof.Machine.execPacketInject ep offer s
  | .flitInject ep offer => Sys2Proof.Machine.execFlitInject ep offer s
  | .flitHop key ecc => Sys2Proof.Machine.execFlitHop key ecc s
  | .headerDelivery head => Sys2Proof.Machine.execHeaderDelivery head s
  | .stallTimeout ep => Sys2Proof.Machine.execStallTimeout ep s
  | .ejectionWatchdog ep => Sys2Proof.Machine.execEjectionWatchdog ep s
  | .prmStallLimitWrite limit overIn overEject => Sys2Proof.Machine.execPrmStallLimitWrite limit overIn overEject s
  | .siteCommitGo => Sys2Proof.Machine.execSiteCommitGo s
  | .siteCopyEnd hostBytes x => Sys2Proof.Machine.execSiteCopyEnd hostBytes x s
  | .siteVerifyEnd receiving => Sys2Proof.Machine.execSiteVerifyEnd receiving s
  | .siteQuiesceEnd => Sys2Proof.Machine.execSiteQuiesceEnd s
  | .siteQuiesceTimeout => Sys2Proof.Machine.execSiteQuiesceTimeout s
  | .siteDrainLimitExpiry => Sys2Proof.Machine.execSiteDrainLimitExpiry s
  | .siteApplyEnd => Sys2Proof.Machine.execSiteApplyEnd s
  | .siteResumeEnd => Sys2Proof.Machine.execSiteResumeEnd s
  | .siteLoadCancel => Sys2Proof.Machine.execSiteLoadCancel s
  | .pavLoad group host => Sys2Proof.Machine.execPavLoad group host s
  | .pavHeaderCheckEnd group hostBytes src => Sys2Proof.Machine.execPavHeaderCheckEnd group hostBytes src s
  | .pavScrubEnd group zero => Sys2Proof.Machine.execPavScrubEnd group zero s
  | .pavFrameEnd member hostBytes src => Sys2Proof.Machine.execPavFrameEnd member hostBytes src s
  | .userResetEnd group => Sys2Proof.Machine.execUserResetEnd group s
  | .pavUnload group grace => Sys2Proof.Machine.execPavUnload group grace s
  | .quiesceAck group => Sys2Proof.Machine.execQuiesceAck group s
  | .graceExpiry group => Sys2Proof.Machine.execGraceExpiry group s
  | .pavHbmWritesDone group => Sys2Proof.Machine.execPavHbmWritesDone group s
  | .pavRelease group => Sys2Proof.Machine.execPavRelease group s
  | .pavCancel group => Sys2Proof.Machine.execPavCancel group s
  | .pavcRelease group => Sys2Proof.Machine.execPavcRelease group s
  | .userReset group => Sys2Proof.Machine.execUserReset group s
  | .pavcClkWrite group clock khz => Sys2Proof.Machine.execPavcClkWrite group clock khz s
  | .clkcapWrite group mhz => Sys2Proof.Machine.execClkcapWrite group mhz s
  | .configScan member ecc => Sys2Proof.Machine.execConfigScan member ecc s
  | .pavHbmRequest member write addr tag data mask => Sys2Proof.Machine.execPavHbmRequest member write addr tag data mask s
  | .pavHbmResponse index ecc => Sys2Proof.Machine.execPavHbmResponse index ecc s
  | .regWindowAccess group write offset value tag => Sys2Proof.Machine.execRegWindowAccess group write offset value tag s
  | .regReadReturn group answer => Sys2Proof.Machine.execRegReadReturn group answer s
  | .pavRegTimeoutExpiry group => Sys2Proof.Machine.execPavRegTimeoutExpiry group s
  | .rxCreditReturn ep vc => Sys2Proof.Machine.execRxCreditReturn ep vc s
  | .sleepReqRise group => Sys2Proof.Machine.execSleepReqRise group s
  | .sleepReqFall group => Sys2Proof.Machine.execSleepReqFall group s
  | .arbourDispatch src err => Sys2Proof.Machine.execArbourDispatch src err s
  | .commitSequencerPass pass => Sys2Proof.Machine.execCommitSequencerPass pass s
  | .arbInitLimitExpiry cluster => Sys2Proof.Machine.execArbInitLimitExpiry cluster s
  | .arbRunLimitExpiry cluster thread => Sys2Proof.Machine.execArbRunLimitExpiry cluster thread s
  | .deadlock cluster set => Sys2Proof.Machine.execDeadlock cluster set s
  | .haltHold cluster set => Sys2Proof.Machine.execHaltHold cluster set s
  | .parkTimeout cluster thread => Sys2Proof.Machine.execParkTimeout cluster thread s
  | .arbBreakpointHalt cluster thread => Sys2Proof.Machine.execArbBreakpointHalt cluster thread s
  | .arbHalt cluster thread => Sys2Proof.Machine.execArbHalt cluster thread s
  | .arbResume cluster thread => Sys2Proof.Machine.execArbResume cluster thread s
  | .arbStep cluster thread err => Sys2Proof.Machine.execArbStep cluster thread err s
  | .arbAbandon cluster thread => Sys2Proof.Machine.execArbAbandon cluster thread s
  | .arbHaltAll cluster => Sys2Proof.Machine.execArbHaltAll cluster s
  | .arbResumeAll cluster => Sys2Proof.Machine.execArbResumeAll cluster s
  | .arbNop cluster thread err => Sys2Proof.Machine.execArbNop cluster thread err s
  | .arbAdd cluster thread err => Sys2Proof.Machine.execArbAdd cluster thread err s
  | .arbSub cluster thread err => Sys2Proof.Machine.execArbSub cluster thread err s
  | .arbAnd cluster thread err => Sys2Proof.Machine.execArbAnd cluster thread err s
  | .arbOr cluster thread err => Sys2Proof.Machine.execArbOr cluster thread err s
  | .arbXor cluster thread err => Sys2Proof.Machine.execArbXor cluster thread err s
  | .arbAndn cluster thread err => Sys2Proof.Machine.execArbAndn cluster thread err s
  | .arbShl cluster thread err => Sys2Proof.Machine.execArbShl cluster thread err s
  | .arbShr cluster thread err => Sys2Proof.Machine.execArbShr cluster thread err s
  | .arbSar cluster thread err => Sys2Proof.Machine.execArbSar cluster thread err s
  | .arbMinu cluster thread err => Sys2Proof.Machine.execArbMinu cluster thread err s
  | .arbMaxu cluster thread err => Sys2Proof.Machine.execArbMaxu cluster thread err s
  | .arbMul cluster thread err => Sys2Proof.Machine.execArbMul cluster thread err s
  | .arbSltu cluster thread err => Sys2Proof.Machine.execArbSltu cluster thread err s
  | .arbAddi cluster thread err => Sys2Proof.Machine.execArbAddi cluster thread err s
  | .arbAndi cluster thread err => Sys2Proof.Machine.execArbAndi cluster thread err s
  | .arbOri cluster thread err => Sys2Proof.Machine.execArbOri cluster thread err s
  | .arbXori cluster thread err => Sys2Proof.Machine.execArbXori cluster thread err s
  | .arbShli cluster thread err => Sys2Proof.Machine.execArbShli cluster thread err s
  | .arbShri cluster thread err => Sys2Proof.Machine.execArbShri cluster thread err s
  | .arbSari cluster thread err => Sys2Proof.Machine.execArbSari cluster thread err s
  | .arbSltui cluster thread err => Sys2Proof.Machine.execArbSltui cluster thread err s
  | .arbMovi cluster thread err => Sys2Proof.Machine.execArbMovi cluster thread err s
  | .arbMovhi cluster thread err => Sys2Proof.Machine.execArbMovhi cluster thread err s
  | .arbBfx cluster thread err => Sys2Proof.Machine.execArbBfx cluster thread err s
  | .arbBfi cluster thread err => Sys2Proof.Machine.execArbBfi cluster thread err s
  | .arbExt cluster thread err => Sys2Proof.Machine.execArbExt cluster thread err s
  | .arbIns cluster thread err => Sys2Proof.Machine.execArbIns cluster thread err s
  | .arbKcpy cluster thread err => Sys2Proof.Machine.execArbKcpy cluster thread err s
  | .arbCrcwin cluster thread err => Sys2Proof.Machine.execArbCrcwin cluster thread err s
  | .arbKput cluster thread err => Sys2Proof.Machine.execArbKput cluster thread err s
  | .arbKclr cluster thread err => Sys2Proof.Machine.execArbKclr cluster thread err s
  | .arbKprof cluster thread err => Sys2Proof.Machine.execArbKprof cluster thread err s
  | .arbCrc cluster thread err => Sys2Proof.Machine.execArbCrc cluster thread err s
  | .arbTpz cluster thread err => Sys2Proof.Machine.execArbTpz cluster thread err s
  | .arbLd cluster thread err => Sys2Proof.Machine.execArbLd cluster thread err s
  | .arbSt cluster thread err => Sys2Proof.Machine.execArbSt cluster thread err s
  | .arbBr cluster thread err => Sys2Proof.Machine.execArbBr cluster thread err s
  | .arbBri cluster thread err => Sys2Proof.Machine.execArbBri cluster thread err s
  | .arbJal cluster thread err => Sys2Proof.Machine.execArbJal cluster thread err s
  | .arbJr cluster thread err => Sys2Proof.Machine.execArbJr cluster thread err s
  | .arbRds cluster thread err => Sys2Proof.Machine.execArbRds cluster thread err s
  | .arbEmitf cluster thread err => Sys2Proof.Machine.execArbEmitf cluster thread err s
  | .arbCommit cluster thread err => Sys2Proof.Machine.execArbCommit cluster thread err s
  | .arbEnd cluster thread err => Sys2Proof.Machine.execArbEnd cluster thread err s
  | .arbLock cluster thread err => Sys2Proof.Machine.execArbLock cluster thread err s
  | .arbUnlock cluster thread err => Sys2Proof.Machine.execArbUnlock cluster thread err s
  | .arbSignal cluster thread err => Sys2Proof.Machine.execArbSignal cluster thread err s
  | .arbWait cluster thread err => Sys2Proof.Machine.execArbWait cluster thread err s
  | .arbOrder cluster thread err => Sys2Proof.Machine.execArbOrder cluster thread err s
  | .arbPark cluster thread err => Sys2Proof.Machine.execArbPark cluster thread err s
  | .arbTset cluster thread err => Sys2Proof.Machine.execArbTset cluster thread err s
  | .arbRelease cluster thread err => Sys2Proof.Machine.execArbRelease cluster thread err s
  | .classifyHandover => Sys2Proof.Machine.execClassifyHandover s
  | .acmSearchAdmit => Sys2Proof.Machine.execAcmSearchAdmit s
  | .emtBucketReadReturn index eccA eccB => Sys2Proof.Machine.execEmtBucketReadReturn index eccA eccB s
  | .classifyInject index ue => Sys2Proof.Machine.execClassifyInject index ue s
  | .mirrorCopy => Sys2Proof.Machine.execMirrorCopy s
  | .acmVerCommitGo => Sys2Proof.Machine.execAcmVerCommitGo s
  | .acmVerApply => Sys2Proof.Machine.execAcmVerApply s
  | .versionRetire => Sys2Proof.Machine.execVersionRetire s
  | .sweepEnd => Sys2Proof.Machine.execSweepEnd s
  | .acmEntWrite => Sys2Proof.Machine.execAcmEntWrite s
  | .acmEntWriteCtrl => Sys2Proof.Machine.execAcmEntWriteCtrl s
  | .acmEntRead => Sys2Proof.Machine.execAcmEntRead s
  | .acmEntInvalidate => Sys2Proof.Machine.execAcmEntInvalidate s
  | .acmEntCmdDone => Sys2Proof.Machine.execAcmEntCmdDone s
  | .acmShift down bank first last => Sys2Proof.Machine.execAcmShift down bank first last s
  | .acmShiftDone => Sys2Proof.Machine.execAcmShiftDone s
  | .acmParityScan bank entry => Sys2Proof.Machine.execAcmParityScan bank entry s
  | .acmActWrite => Sys2Proof.Machine.execAcmActWrite s
  | .acmActRead => Sys2Proof.Machine.execAcmActRead s
  | .acmPolWrite => Sys2Proof.Machine.execAcmPolWrite s
  | .acmPolRead => Sys2Proof.Machine.execAcmPolRead s
  | .indirectionTableWrite index value => Sys2Proof.Machine.execIndirectionTableWrite index value s
  | .emtInsert table => Sys2Proof.Machine.execEmtInsert table s
  | .emtUpsert table => Sys2Proof.Machine.execEmtUpsert table s
  | .emtDelete table => Sys2Proof.Machine.execEmtDelete table s
  | .emtFind table => Sys2Proof.Machine.execEmtFind table s
  | .emtReadAt table => Sys2Proof.Machine.execEmtReadAt table s
  | .emtDeleteAt table => Sys2Proof.Machine.execEmtDeleteAt table s
  | .emtCmdDone => Sys2Proof.Machine.execEmtCmdDone s
  | .displacementMove => Sys2Proof.Machine.execDisplacementMove s
  | .learnApply => Sys2Proof.Machine.execLearnApply s
  | .ageScan => Sys2Proof.Machine.execAgeScan s
  | .ageRemoval => Sys2Proof.Machine.execAgeRemoval s
  | .emtDmaRead host => Sys2Proof.Machine.execEmtDmaRead host s
  | .readLock host => Sys2Proof.Machine.execReadLock host s
  | .emtDmaWrite host => Sys2Proof.Machine.execEmtDmaWrite host s
  | .writeUnlock host => Sys2Proof.Machine.execWriteUnlock host s
  | .emtDmaUnlock host => Sys2Proof.Machine.execEmtDmaUnlock host s
  | .emtDmaDone hostBytes x => Sys2Proof.Machine.execEmtDmaDone hostBytes x s
  | .emtRedirCommitGo table => Sys2Proof.Machine.execEmtRedirCommitGo table s
  | .schEnqueue port => Sys2Proof.Machine.execSchEnqueue port s
  | .frameSelect port markers ecc => Sys2Proof.Machine.execFrameSelect port markers ecc s
  | .frameTransmitEnd port sent ecc => Sys2Proof.Machine.execFrameTransmitEnd port sent ecc s
  | .shaperRefill level index => Sys2Proof.Machine.execShaperRefill level index s
  | .schNodeCommitGo => Sys2Proof.Machine.execSchNodeCommitGo s
  | .schGclCommitGo port => Sys2Proof.Machine.execSchGclCommitGo port s
  | .gclChange port => Sys2Proof.Machine.execGclChange port s
  | .gateEntryChange port => Sys2Proof.Machine.execGateEntryChange port s
  | .gclCycleStart port => Sys2Proof.Machine.execGclCycleStart port s
  | .cphAdmission pair index ecc => Sys2Proof.Machine.execCphAdmission pair index ecc s
  | .keySlotFetch slot ecc => Sys2Proof.Machine.execKeySlotFetch slot ecc s
  | .cphCompare index agree => Sys2Proof.Machine.execCphCompare index agree s
  | .cphRetryCompare index agree => Sys2Proof.Machine.execCphRetryCompare index agree s
  | .cphResultRelease index => Sys2Proof.Machine.execCphResultRelease index s
  | .cphQuarantine pair => Sys2Proof.Machine.execCphQuarantine pair s
  | .cphTest pair => Sys2Proof.Machine.execCphTest pair s
  | .cphTestEnd pair pass => Sys2Proof.Machine.execCphTestEnd pair pass s
  | .cphReinstate pair => Sys2Proof.Machine.execCphReinstate pair s
  | .reinstateMove queue => Sys2Proof.Machine.execReinstateMove queue s
  | .cphLoadClear => Sys2Proof.Machine.execCphLoadClear s
  | .cphLoadBlob hostBytes x => Sys2Proof.Machine.execCphLoadBlob hostBytes x s
  | .cphInvalidate => Sys2Proof.Machine.execCphInvalidate s
  | .cphSetSeq => Sys2Proof.Machine.execCphSetSeq s
  | .twkInstall hostBytes x => Sys2Proof.Machine.execTwkInstall hostBytes x s
  | .twkRemove => Sys2Proof.Machine.execTwkRemove s
  | .cphSetPin => Sys2Proof.Machine.execCphSetPin s
  | .cphKeyOpDone => Sys2Proof.Machine.execCphKeyOpDone s
  | .tePacketReceive engine h => Sys2Proof.Machine.execTePacketReceive engine h s
  | .teFnDoorbell fn value h => Sys2Proof.Machine.execTeFnDoorbell fn value h s
  | .teFnCtrlPiWrite fn pi => Sys2Proof.Machine.execTeFnCtrlPiWrite fn pi s
  | .teCreateQp fn h => Sys2Proof.Machine.execTeCreateQp fn h s
  | .teModifyQp fn h => Sys2Proof.Machine.execTeModifyQp fn h s
  | .teQueryQp fn h => Sys2Proof.Machine.execTeQueryQp fn h s
  | .teDestroyQp fn h => Sys2Proof.Machine.execTeDestroyQp fn h s
  | .teCreateSrq fn h => Sys2Proof.Machine.execTeCreateSrq fn h s
  | .teModifySrq fn h => Sys2Proof.Machine.execTeModifySrq fn h s
  | .teDestroySrq fn h => Sys2Proof.Machine.execTeDestroySrq fn h s
  | .teCreateCq fn h => Sys2Proof.Machine.execTeCreateCq fn h s
  | .teDestroyCq fn h => Sys2Proof.Machine.execTeDestroyCq fn h s
  | .teRegMr fn h => Sys2Proof.Machine.execTeRegMr fn h s
  | .teDeregMr fn h => Sys2Proof.Machine.execTeDeregMr fn h s
  | .teAllocMw fn h => Sys2Proof.Machine.execTeAllocMw fn h s
  | .teSend qp h => Sys2Proof.Machine.execTeSend qp h s
  | .teSendImm qp h => Sys2Proof.Machine.execTeSendImm qp h s
  | .teSendInv qp h => Sys2Proof.Machine.execTeSendInv qp h s
  | .teWrite qp h => Sys2Proof.Machine.execTeWrite qp h s
  | .teWriteImm qp h => Sys2Proof.Machine.execTeWriteImm qp h s
  | .teRead qp h => Sys2Proof.Machine.execTeRead qp h s
  | .teAtomicCas qp h => Sys2Proof.Machine.execTeAtomicCas qp h s
  | .teAtomicFaa qp h => Sys2Proof.Machine.execTeAtomicFaa qp h s
  | .teLocalInv qp h => Sys2Proof.Machine.execTeLocalInv qp h s
  | .teBindMw qp h => Sys2Proof.Machine.execTeBindMw qp h s
  | .teWqeWait qp h => Sys2Proof.Machine.execTeWqeWait qp h s
  | .teWqeNop qp h => Sys2Proof.Machine.execTeWqeNop qp h s
  | .teTaggedReceive srq h => Sys2Proof.Machine.execTeTaggedReceive srq h s
  | .teCancelReceive srq h => Sys2Proof.Machine.execTeCancelReceive srq h s
  | .invalidationComplete index => Sys2Proof.Machine.execInvalidationComplete index s
  | .ackTimeout qp => Sys2Proof.Machine.execAckTimeout qp s
  | .rnrTimer qp => Sys2Proof.Machine.execRnrTimer qp s
  | .reorderTimer qp => Sys2Proof.Machine.execReorderTimer qp s
  | .ccTimer qp => Sys2Proof.Machine.execCcTimer qp s
  | .teQpForce => Sys2Proof.Machine.execTeQpForce s
  | .teCcCommitGo => Sys2Proof.Machine.execTeCcCommitGo s
  | .teUcLoad host => Sys2Proof.Machine.execTeUcLoad host s
  | .teUcLoadEnd hostBytes x => Sys2Proof.Machine.execTeUcLoadEnd hostBytes x s
  | .teUcSeal => Sys2Proof.Machine.execTeUcSeal s
  | .eventWordLimit connection index => Sys2Proof.Machine.execEventWordLimit connection index s
  | .patchRepair engine index => Sys2Proof.Machine.execPatchRepair engine index s
  | .nvmeDoorbell fn offset value => Sys2Proof.Machine.execNvmeDoorbell fn offset value s
  | .nvmeAdmission fn sqe e => Sys2Proof.Machine.execNvmeAdmission fn sqe e s
  | .nvmeDeleteIoSq cmd => Sys2Proof.Machine.execNvmeDeleteIoSq cmd s
  | .nvmeDeleteIoCq cmd => Sys2Proof.Machine.execNvmeDeleteIoCq cmd s
  | .nvmeCreateIoSq cmd => Sys2Proof.Machine.execNvmeCreateIoSq cmd s
  | .nvmeCreateIoCq cmd => Sys2Proof.Machine.execNvmeCreateIoCq cmd s
  | .nvmeGetLogPage cmd h => Sys2Proof.Machine.execNvmeGetLogPage cmd h s
  | .nvmeIdentify cmd h => Sys2Proof.Machine.execNvmeIdentify cmd h s
  | .nvmeAbort cmd => Sys2Proof.Machine.execNvmeAbort cmd s
  | .nvmeSetFeatures cmd => Sys2Proof.Machine.execNvmeSetFeatures cmd s
  | .nvmeGetFeatures cmd => Sys2Proof.Machine.execNvmeGetFeatures cmd s
  | .nvmeAsynchronousEventRequest cmd => Sys2Proof.Machine.execNvmeAsynchronousEventRequest cmd s
  | .nvmeFlush cmd => Sys2Proof.Machine.execNvmeFlush cmd s
  | .nvmeWrite cmd h => Sys2Proof.Machine.execNvmeWrite cmd h s
  | .nvmeRead cmd ecc h => Sys2Proof.Machine.execNvmeRead cmd ecc h s
  | .nvmeWriteZeroes cmd => Sys2Proof.Machine.execNvmeWriteZeroes cmd s
  | .nvmeDatasetManagement cmd h => Sys2Proof.Machine.execNvmeDatasetManagement cmd h s
  | .nveCipherCompletion engine => Sys2Proof.Machine.execNveCipherCompletion engine s
  | .nveCapsuleResp conn => Sys2Proof.Machine.execNveCapsuleResp conn s
  | .nveC2hData conn => Sys2Proof.Machine.execNveC2hData conn s
  | .nvePduR2t conn => Sys2Proof.Machine.execNvePduR2t conn s
  | .nveC2hTermReq conn => Sys2Proof.Machine.execNveC2hTermReq conn s
  | .nveTcpSegmentReceive engine => Sys2Proof.Machine.execNveTcpSegmentReceive engine s
  | .nveTcpRto conn => Sys2Proof.Machine.execNveTcpRto conn s
  | .nveTargetTimeout conn => Sys2Proof.Machine.execNveTargetTimeout conn s
  | .nveOffload => Sys2Proof.Machine.execNveOffload s
  | .nveConnectionUp conn => Sys2Proof.Machine.execNveConnectionUp conn s
  | .nveClose force => Sys2Proof.Machine.execNveClose force s
  | .nveCloseFin conn => Sys2Proof.Machine.execNveCloseFin conn s
  | .nveQuery => Sys2Proof.Machine.execNveQuery s
  | .nveCcShn fn value => Sys2Proof.Machine.execNveCcShn fn value s
  | .nveCcEnClear fn value => Sys2Proof.Machine.execNveCcEnClear fn value s
  | .nveNsCommitGo => Sys2Proof.Machine.execNveNsCommitGo s
  | .nveModeCommitGo => Sys2Proof.Machine.execNveModeCommitGo s
  | .queueEnable queue => Sys2Proof.Machine.execQueueEnable queue s
  | .queueDisable queue => Sys2Proof.Machine.execQueueDisable queue s
  | .queueStopped queue => Sys2Proof.Machine.execQueueStopped queue s
  | .hifDbSq queue value => Sys2Proof.Machine.execHifDbSq queue value s
  | .hifDbRq queue value => Sys2Proof.Machine.execHifDbRq queue value s
  | .hifDbCq queue value => Sys2Proof.Machine.execHifDbCq queue value s
  | .sendFrameFetch read => Sys2Proof.Machine.execSendFrameFetch read s
  | .descSend queue => Sys2Proof.Machine.execDescSend queue s
  | .descSendInline queue => Sys2Proof.Machine.execDescSendInline queue s
  | .sendCarrier queue => Sys2Proof.Machine.execSendCarrier queue s
  | .descNop queue => Sys2Proof.Machine.execDescNop queue s
  | .hifReceive engine descs x => Sys2Proof.Machine.execHifReceive engine descs x s
  | .txReportReceive engine => Sys2Proof.Machine.execTxReportReceive engine s
  | .timestampTimeout engine tag => Sys2Proof.Machine.execTimestampTimeout engine tag s
  | .moderationTimer queue => Sys2Proof.Machine.execModerationTimer queue s
  | .hostRead engine data e => Sys2Proof.Machine.execHostRead engine data e s
  | .hostWrite engine => Sys2Proof.Machine.execHostWrite engine s
  | .hostIntr engine => Sys2Proof.Machine.execHostIntr engine s
  | .hifFnRssWrite fn k value => Sys2Proof.Machine.execHifFnRssWrite fn k value s
  | .hifQForce => Sys2Proof.Machine.execHifQForce s
  | .functionLevelReset fn => Sys2Proof.Machine.execFunctionLevelReset fn s
  | .busMasterDisable fn => Sys2Proof.Machine.execBusMasterDisable fn s
  | .vfEnableClear pf => Sys2Proof.Machine.execVfEnableClear pf s
  | .configRequest route offset write be value => Sys2Proof.Machine.execConfigRequest route offset write be value s
  | .memoryReadRequest fn bar offset len tag stream good ecc => Sys2Proof.Machine.execMemoryReadRequest fn bar offset len tag stream good ecc s
  | .postedWriteRequest fn bar offset data poison stream good env answer => Sys2Proof.Machine.execPostedWriteRequest fn bar offset data poison stream good env answer s
  | .inboundCompletion port link tag route ok poison data => Sys2Proof.Machine.execInboundCompletion port link tag route ok poison data s
  | .completionTimeout port tag => Sys2Proof.Machine.execCompletionTimeout port tag s
  | .tagQuarantineEnd port tag => Sys2Proof.Machine.execTagQuarantineEnd port tag s
  | .pcieLinkDown port link => Sys2Proof.Machine.execPcieLinkDown port link s
  | .pcieLinkUp port link rate width mode => Sys2Proof.Machine.execPcieLinkUp port link rate width mode s
  | .l1IdleEntry port link => Sys2Proof.Machine.execL1IdleEntry port link s
  | .l0pWindow port link tx rx cap grant => Sys2Proof.Machine.execL0pWindow port link tx rx cap grant s
  | .atsInvalidationRequest route range => Sys2Proof.Machine.execAtsInvalidationRequest route range s
  | .hifAtwCommitGo pf => Sys2Proof.Machine.execHifAtwCommitGo pf s
  | .atwApply pf => Sys2Proof.Machine.execAtwApply pf s
  | .doeDiscovery pf index => Sys2Proof.Machine.execDoeDiscovery pf index s
  | .ideKmRequest pf session message => Sys2Proof.Machine.execIdeKmRequest pf session message s
  | .spdmGetVersion pf request => Sys2Proof.Machine.execSpdmGetVersion pf request s
  | .spdmGetCapabilities pf request => Sys2Proof.Machine.execSpdmGetCapabilities pf request s
  | .spdmNegotiateAlgorithms pf request => Sys2Proof.Machine.execSpdmNegotiateAlgorithms pf request s
  | .spdmGetDigests pf request => Sys2Proof.Machine.execSpdmGetDigests pf request s
  | .spdmGetCertificate pf request => Sys2Proof.Machine.execSpdmGetCertificate pf request s
  | .spdmChallenge pf request => Sys2Proof.Machine.execSpdmChallenge pf request s
  | .spdmGetMeasurements pf request => Sys2Proof.Machine.execSpdmGetMeasurements pf request s
  | .spdmKeyExchange pf request => Sys2Proof.Machine.execSpdmKeyExchange pf request s
  | .spdmFinish pf request => Sys2Proof.Machine.execSpdmFinish pf request s
  | .spdmHeartbeat pf request => Sys2Proof.Machine.execSpdmHeartbeat pf request s
  | .spdmKeyUpdate pf request => Sys2Proof.Machine.execSpdmKeyUpdate pf request s
  | .spdmEndSession pf request => Sys2Proof.Machine.execSpdmEndSession pf request s
  | .spdmVendorMldsaSignature pf request => Sys2Proof.Machine.execSpdmVendorMldsaSignature pf request s
  | .tdispGetVersion pf session fn version => Sys2Proof.Machine.execTdispGetVersion pf session fn version s
  | .tdispGetCapabilities pf session fn version => Sys2Proof.Machine.execTdispGetCapabilities pf session fn version s
  | .tdispLockInterface pf session fn version payload => Sys2Proof.Machine.execTdispLockInterface pf session fn version payload s
  | .tdispGetDeviceInterfaceReport pf session fn version payload => Sys2Proof.Machine.execTdispGetDeviceInterfaceReport pf session fn version payload s
  | .tdispGetDeviceInterfaceState pf session fn version => Sys2Proof.Machine.execTdispGetDeviceInterfaceState pf session fn version s
  | .tdispStartInterface pf session fn version payload => Sys2Proof.Machine.execTdispStartInterface pf session fn version payload s
  | .tdispStopInterface pf session fn version => Sys2Proof.Machine.execTdispStopInterface pf session fn version s
  | .bwGo port => Sys2Proof.Machine.execBwGo port s
  | .pushVerifyEnd => Sys2Proof.Machine.execPushVerifyEnd s
  | .ringEnable terrace ring send value => Sys2Proof.Machine.execRingEnable terrace ring send value s
  | .terraceReceive terrace => Sys2Proof.Machine.execTerraceReceive terrace s
  | .terraceSend terrace ring ecc => Sys2Proof.Machine.execTerraceSend terrace ring ecc s
  | .patrolScrub addr ecc => Sys2Proof.Machine.execPatrolScrub addr ecc s
  | .zeroMapClear granule => Sys2Proof.Machine.execZeroMapClear granule s
  | .iofenceC => Sys2Proof.Machine.execIofenceC s
  | .tbRefSelect ref present => Sys2Proof.Machine.execTbRefSelect ref present s
  | .timeRefLost => Sys2Proof.Machine.execTimeRefLost s
  | .pllLockLoss => Sys2Proof.Machine.execPllLockLoss s
  | .tbRateOnly => Sys2Proof.Machine.execTbRateOnly s
  | .tbSet => Sys2Proof.Machine.execTbSet s
  | .tbStep => Sys2Proof.Machine.execTbStep s
  | .tbSlew => Sys2Proof.Machine.execTbSlew s
  | .tbAdjustBoundary => Sys2Proof.Machine.execTbAdjustBoundary s
  | .slewEnd timebase => Sys2Proof.Machine.execSlewEnd timebase s
  | .tbSnapshot => Sys2Proof.Machine.execTbSnapshot s
  | .ppsInEdge => Sys2Proof.Machine.execPpsInEdge s
  | .ppsOutEdge => Sys2Proof.Machine.execPpsOutEdge s
  | .ppsOutWidthEnd => Sys2Proof.Machine.execPpsOutWidthEnd s
  | .tbPortCfgWrite port value => Sys2Proof.Machine.execTbPortCfgWrite port value s
  | .tileHazeEntry tile => Sys2Proof.Machine.execTileHazeEntry tile s
  | .tileSleepDecision tile sky => Sys2Proof.Machine.execTileSleepDecision tile sky s
  | .tileWakeComplete tile => Sys2Proof.Machine.execTileWakeComplete tile s
  | .hartWfi hart sky => Sys2Proof.Machine.execHartWfi hart sky s
  | .hartStart hart => Sys2Proof.Machine.execHartStart hart s
  | .hartStop hart => Sys2Proof.Machine.execHartStop hart s
  | .nightEnter => Sys2Proof.Machine.execNightEnter s
  | .nightDrainEnd => Sys2Proof.Machine.execNightDrainEnd s
  | .nightLimitExpiry => Sys2Proof.Machine.execNightLimitExpiry s
  | .nightEntryComplete => Sys2Proof.Machine.execNightEntryComplete s
  | .nightAlarm => Sys2Proof.Machine.execNightAlarm s
  | .perstAssert port => Sys2Proof.Machine.execPerstAssert port s
  | .perstDeassert port => Sys2Proof.Machine.execPerstDeassert port s
  | .sysRstAssert => Sys2Proof.Machine.execSysRstAssert s
  | .sysRstDeassert bif0 bif1 bootSrc healthy => Sys2Proof.Machine.execSysRstDeassert bif0 bif1 bootSrc healthy s
  | .lodgePgFall => Sys2Proof.Machine.execLodgePgFall s
  | .lodgePgRise healthy => Sys2Proof.Machine.execLodgePgRise healthy s
  | .supplyWarning domain sent => Sys2Proof.Machine.execSupplyWarning domain sent s
  | .holdDwellEnd domain => Sys2Proof.Machine.execHoldDwellEnd domain s
  | .quickCheckEnd domain readings => Sys2Proof.Machine.execQuickCheckEnd domain readings s
  | .holdLimitExpiry domain => Sys2Proof.Machine.execHoldLimitExpiry domain s
  | .undervoltage domain => Sys2Proof.Machine.execUndervoltage domain s
  | .temperatureSample readings => Sys2Proof.Machine.execTemperatureSample readings s
  | .thermalTrip => Sys2Proof.Machine.execThermalTrip s
  | .thermalRestart => Sys2Proof.Machine.execThermalRestart s
  | .sundialSample readings => Sys2Proof.Machine.execSundialSample readings s
  | .pwrOpCommitGo => Sys2Proof.Machine.execPwrOpCommitGo s
  | .qualifyStepEnd readings => Sys2Proof.Machine.execQualifyStepEnd readings s
  | .railSettleTimeout => Sys2Proof.Machine.execRailSettleTimeout s
  | .operatingHour => Sys2Proof.Machine.execOperatingHour s
  | .sdlReplanDone => Sys2Proof.Machine.execSdlReplanDone s
  | .replanIntervalWrite value => Sys2Proof.Machine.execReplanIntervalWrite value s
  | .romStart => Sys2Proof.Machine.execRomStart s
  | .ddrTrainingEnd sizes failed => Sys2Proof.Machine.execDdrTrainingEnd sizes failed s
  | .hbmInitEnd => Sys2Proof.Machine.execHbmInitEnd s
  | .imageCopyEnd readable => Sys2Proof.Machine.execImageCopyEnd readable s
  | .signatureVerifyEnd => Sys2Proof.Machine.execSignatureVerifyEnd s
  | .warmCheckEnd => Sys2Proof.Machine.execWarmCheckEnd s
  | .ready => Sys2Proof.Machine.execReady s
  | .failImage => Sys2Proof.Machine.execFailImage s
  | .verifySlot slot => Sys2Proof.Machine.execVerifySlot slot s
  | .verifySlotEnd readable => Sys2Proof.Machine.execVerifySlotEnd readable s
  | .restorePlan => Sys2Proof.Machine.execRestorePlan s
  | .bootStage2LimitExpiry => Sys2Proof.Machine.execBootStage2LimitExpiry s
  | .xspiRead => Sys2Proof.Machine.execXspiRead s
  | .xspiProgram => Sys2Proof.Machine.execXspiProgram s
  | .xspiErase => Sys2Proof.Machine.execXspiErase s
  | .xspiCmdEnd readable ecc => Sys2Proof.Machine.execXspiCmdEnd readable ecc s
  | .wktChalGen => Sys2Proof.Machine.execWktChalGen s
  | .challengeExpiry => Sys2Proof.Machine.execChallengeExpiry s
  | .wktTokenSubmit host hostBytes x => Sys2Proof.Machine.execWktTokenSubmit host hostBytes x s
  | .tokenCheckEnd => Sys2Proof.Machine.execTokenCheckEnd s
  | .wicketErasure => Sys2Proof.Machine.execWicketErasure s
  | .wicketOpenComplete => Sys2Proof.Machine.execWicketOpenComplete s
  | .raise kind => Sys2Proof.Machine.execRaise kind s
  | .tapExtest sampled shifted => Sys2Proof.Machine.execTapExtest sampled shifted s
  | .tapIdcode => Sys2Proof.Machine.execTapIdcode s
  | .tapSamplePreload sampled shifted => Sys2Proof.Machine.execTapSamplePreload sampled shifted s
  | .tapClamp => Sys2Proof.Machine.execTapClamp s
  | .tapHighz => Sys2Proof.Machine.execTapHighz s
  | .tapDtmcs => Sys2Proof.Machine.execTapDtmcs s
  | .tapDmi op addr x => Sys2Proof.Machine.execTapDmi op addr x s
  | .tapWktChal => Sys2Proof.Machine.execTapWktChal s
  | .tapWktToken token => Sys2Proof.Machine.execTapWktToken token s
  | .tapWktStatus => Sys2Proof.Machine.execTapWktStatus s
  | .tapBypass => Sys2Proof.Machine.execTapBypass s
  | .completionLost ep cmd => Sys2Proof.Machine.execCompletionLost ep cmd s
  | .criticalStateRestore tile both => Sys2Proof.Machine.execCriticalStateRestore tile both s
  | .ccEnSet fn value => Sys2Proof.Machine.execCcEnSet fn value s
  | .timePllLock => Sys2Proof.Machine.execTimePllLock s
  | .laneLockAlignment port => Sys2Proof.Machine.execLaneLockAlignment port s
  | .atomicopIoRequest route tag => Sys2Proof.Machine.execAtomicopIoRequest route tag s
  | .pcieMessage route code data => Sys2Proof.Machine.execPcieMessage route code data s
  | .l0pHostRequest port link width => Sys2Proof.Machine.execL0pHostRequest port link width s
  | .rbgHealthPass => Sys2Proof.Machine.execRbgHealthPass s

end Sys2Proof.Machine
end

