-- ==== Sys2Proof/Machine/Idle.lean ====
section
/-! DEFINITION. What happens while no command waits: one nanosecond passes. -/

namespace Sys2Proof.Machine

/-- One nanosecond: the clocks, the arbour cores and the microcode sequencers run, and the moderation of completion
queues and the MSIs to harts follow. In device Night only the lodge runs (R483). -/
def State.idle (s : State) : State :=
  if s.phase = phNight then s.lodgeTick else s.tick.teCqTick.ucTick.aiaTick

end Sys2Proof.Machine
end

