-- ==== Sys2Proof/Safety.lean ====
section
/-! DEFINITION. What counts as a well-kept state, and the terms in which claims say what a command left as it was. -/

namespace Sys2Proof.Machine

/-- The canonical form of the block's stores: device memory lists each byte at most once, addresses rising, and
no byte that reads as zero; the register file likewise, and no register at its reset value. -/
def State.canonical (s : State) : Bool := memWf s.mem && spWf regReset s.regs

/-- A step that neither stops with a fault nor refuses its command. -/
def runsOn (s : State) : Bool :=
  match step s with
  | .next _ => true
  | .fault _ => false
  | .refused _ => false

/-- Every register but those listed reads in `t` as in `s`. -/
def State.sameRegs (s t : State) (but : List Nat) : Prop := ∀ r, r ∉ but → t.rd r = s.rd r

/-- The parts of the block's state, one for each field of `State` but the queue. -/
inductive Part
  | regs | mem | poison | zeroMap | ddr | chCe | chTimes | chTold | tiles | prm | pav | frames | arb | passed | acm | emt | site
  | tb | clk | eth | sch | cph | te | nve | hif | pcie | harts | aia | cache | pwr | boot | wkt | pins | lost | out | free
  deriving DecidableEq, Repr

/-- Every part of the state but those listed is in `t` as in `s`, and the queue is. -/
def State.sameBut (s t : State) (ps : List Part) : Prop :=
  (Part.regs ∉ ps → t.regs = s.regs) ∧
  (Part.mem ∉ ps → t.mem = s.mem) ∧
  (Part.poison ∉ ps → t.poison = s.poison) ∧
  (Part.zeroMap ∉ ps → t.zeroMap = s.zeroMap) ∧
  (Part.ddr ∉ ps → t.ddr = s.ddr) ∧
  (Part.chCe ∉ ps → t.chCe = s.chCe) ∧
  (Part.chTimes ∉ ps → t.chTimes = s.chTimes) ∧
  (Part.chTold ∉ ps → t.chTold = s.chTold) ∧
  (Part.tiles ∉ ps → t.tiles = s.tiles) ∧
  (Part.prm ∉ ps → t.prm = s.prm) ∧
  (Part.pav ∉ ps → t.pav = s.pav) ∧
  (Part.frames ∉ ps → t.frames = s.frames) ∧
  (Part.arb ∉ ps → t.arb = s.arb) ∧
  (Part.passed ∉ ps → t.passed = s.passed) ∧
  (Part.acm ∉ ps → t.acm = s.acm) ∧
  (Part.emt ∉ ps → t.emt = s.emt) ∧
  (Part.site ∉ ps → t.site = s.site) ∧
  (Part.tb ∉ ps → t.tb = s.tb) ∧
  (Part.clk ∉ ps → t.clk = s.clk) ∧
  (Part.eth ∉ ps → t.eth = s.eth) ∧
  (Part.sch ∉ ps → t.sch = s.sch) ∧
  (Part.cph ∉ ps → t.cph = s.cph) ∧
  (Part.te ∉ ps → t.te = s.te) ∧
  (Part.nve ∉ ps → t.nve = s.nve) ∧
  (Part.hif ∉ ps → t.hif = s.hif) ∧
  (Part.pcie ∉ ps → t.pcie = s.pcie) ∧
  (Part.harts ∉ ps → t.harts = s.harts) ∧
  (Part.aia ∉ ps → t.aia = s.aia) ∧
  (Part.cache ∉ ps → t.cache = s.cache) ∧
  (Part.pwr ∉ ps → t.pwr = s.pwr) ∧
  (Part.boot ∉ ps → t.boot = s.boot) ∧
  (Part.wkt ∉ ps → t.wkt = s.wkt) ∧
  (Part.pins ∉ ps → t.pins = s.pins) ∧
  (Part.lost ∉ ps → t.lost = s.lost) ∧
  (Part.out ∉ ps → t.out = s.out) ∧
  (Part.free ∉ ps → t.free = s.free) ∧
  t.pending = s.pending

/-- Every byte of device memory outside the `n` bytes from address `a` reads in `t` as in `s`. -/
def State.sameBytesBut (s t : State) (a n : Nat) : Prop := ∀ x, (x < a ∨ a + n ≤ x) → t.byte x = s.byte x

/-- A core's access to the register at `o` that the fetch of its instruction, its mode and its PMP let through (R429,
R430). -/
def State.coreMay (s : State) (x : HartAccess) (o : Nat) (write : Bool) : Bool :=
  x.fetch == .good && s.coreReaches x o 8 write

/-- A write to the register at `o` that reaches it: of a host outside bring-up refusal, or of a core (R7, R404,
R430). -/
def State.mayWrite (s : State) (who : Accessor) (o : Nat) : Bool :=
  match who with
  | .host => !s.refusing
  | .core x => s.coreMay x o true

/-- Status bit `bit` of unit `u` is set (R577). -/
def State.hasError (s : State) (u bit : Nat) : Prop := s.get ⟨errStatus u, bit, bit⟩ = 1

/-- Thread `u` of cluster `c` is `x`, may issue, and is about to issue the word `w` of opcode `op`, with no
single step pending (R130, R151). -/
def State.arbAt (s : State) (c u op : Nat) (w : Word) (x : ArbThread) : Bool :=
  s.arbIssues c u && s.arbWord c u == w && iOp w == op && s.thr c u == x && !x.stepPending

/-- A thread that has issued an instruction of `slots` slots and goes on at `pc` (R177, R178). -/
def ArbThread.issued (x : ArbThread) (pc slots : Nat) : ArbThread :=
  { x with pc := pc, slots := x.slots + slots, skipBreak := false, stepPending := false }

/-- A thread with `v` in register `r`; g0 keeps reading zero (R161). -/
def ArbThread.put (x : ArbThread) (r : Nat) (v : Word) : ArbThread :=
  { x with regs := if r = 0 then x.regs else x.regs.set r v }

/-- From `s` to `t`, thread `u` of cluster `c` has become `y` and the rest of the cluster is that of `k`; the
cluster has counted one issue; every other thread, cluster, register and part of the block is as it was. -/
def State.arbNext (s t : State) (c u : Nat) (y : ArbThread) (k : ArbCluster) : Prop :=
  t.thr c u = y ∧ (∀ v, v ≠ u → t.thr c v = s.thr c v) ∧ (∀ d, d ≠ c → t.clu d = s.clu d) ∧
  { t.clu c with threads := [], episodes := 0 } = { k with threads := [], episodes := 0 } ∧
  t.get (F.ARB_CLU_ISSUES_COUNT c) = (s.get (F.ARB_CLU_ISSUES_COUNT c) + 1) % 2 ^ 64 ∧
  s.sameRegs t [R.ARB_CLU_ISSUES c] ∧ s.sameBut t [.regs, .arb]

/-- Function `f` may issue DMA, the IOMMU passes addresses unchanged, the function has not enabled ATS, and nothing makes its
requests wait (R408, R412, R414, R425, R445). -/
def State.dmaOpen (s : State) (f : Nat) : Bool :=
  s.dmaAllowed f && s.get F.MEM_IOMMU_DDTP_MODE == 1 && !s.atsOn f && !s.dmaWaits f

/-- The record of key slot `n` can be read: from the cache, or from HBM unpoisoned and with a tag that verifies (R262). -/
def State.slotReadable (s : State) (n : Nat) : Bool :=
  (s.cachedSlot n).isSome ||
    (!s.poisoned (s.slotAddr n) 160 && (s.unwrapRecord n (s.bytes (s.slotAddr n) 160)).isSome)

/-- Nothing received is held back at any QP: no message waits for an invalidation, and no multipath QP that receives holds
one (R284, R302). -/
def State.teQuiet (s : State) : Bool :=
  (spKeys s.te.qps).all fun c => (s.teQp c).late.isEmpty && ((s.teQp c).rx.isEmpty || !(s.isMp c && s.teReceives c))

/-- The send queue of QP `c` is about to start the work request that `h` brings, of opcode `op`: the QP is in
RTS, nothing is outstanding or held back, an event context is free, its DMA is open, its context and its keys are read
without error, and no doorbell of its function waits (R288, R315, R329). -/
def State.sendReady (s : State) (c op : Nat) (h : TeHost) : Bool :=
  s.qpUsed c && decide (c < 2 ^ 22) && s.teRuns (s.qpEngine c) && s.qc c QC.state == 3 &&
  (s.teQp c).sqStart != s.qc c QC.sqPi && !(s.teQp c).rnr && !(s.teQp c).holding && (s.teQp c).tx.isEmpty &&
  wqeOp h.wqe == op && h.we == .ok && !(wqeFlags h.wqe).testBit 1 && s.dmaOpen (s.qc c QC.fn) && s.te.failing.isEmpty &&
  (s.teFn (s.qc c QC.fn)).waiting.isEmpty && !s.seqFull (s.qpEngine c) && s.teQuiet && !h.ctxUe && !h.mrUe

/-- From `s` to `t`, QP `c` has started the work request `b`: an event of its engine whose opcode is the request's has
taken a context (R315, R319). -/
abbrev State.sendEvent (s t : State) (c : Nat) (b : List Byte) : Prop :=
  t.seqOf (s.qpEngine c) = s.seqOf (s.qpEngine c) ++ [⟨wqeOp b, .qp c, s.ucEntry tblSend (wqeOp b), [], 0, false⟩]

/-- The request that a work request of `n` packets and `len` bytes starts at QP `c`, `sent` packets sent. -/
def State.sendTx (s : State) (c : Nat) (b : List Byte) (n len sent : Nat) : TeTx :=
  ⟨(s.teQp c).nextId, (s.teQp c).sqStart, wqeSlots b (s.qc c QC.type), wqeOp b, wqeFlags b, BitVec.ofNat 64 (wqeWord b 1),
    s.qc c QC.nextPsn, n, len, sent, wqeSges b (s.qc c QC.type), wqeWord b 2, wqeWord b 3 / 2 ^ 32, wqeWord b 0 % 2 ^ 32,
    (s.teQp c).txMsn, 0, none, none⟩

/-- The control ring of function `f` holds at its consumer index the entry that `h` brings, of opcode `op`, its
DMA is open, an event context is free and no doorbell waits (R287, R315). -/
def State.ctrlReady (s : State) (f op : Nat) (h : TeHost) : Bool :=
  s.teFnRuns f && bitAt (s.teFn f).cfg 63 && (s.teFn f).ci != (s.teFn f).pi && !(s.teFn f).busy &&
  leAt (bytesAt h.wqe 0 64) 7 1 == op && h.we == .ok && h.e == .ok && (bytesAt (bytesAt h.wqe 0 64) 24 24).all (· == 0) &&
  s.dmaOpen f && s.te.failing.isEmpty && !s.seqFull (teFnEngine s.plan f) && (s.teFn f).waiting.isEmpty

/-- The control entry has completed with status 0 and `result` in its word 6 (R287). -/
abbrev State.ctrlDone (s t : State) (f result : Nat) : Prop :=
  t.teFn f = { s.teFn f with ci := ((s.teFn f).ci + 1) % 65536, busy := false } ∧
  .hostWrite f ((s.teFn f).base.toNat + 64 * ((s.teFn f).ci % 2 ^ bitsAt (s.teFn f).cfg 3 0) + 48) (natLE 8 result)
    (s.tlpAttr f none false false) ∈ t.out

end Sys2Proof.Machine
end

