-- ==== Sys2Proof/Certificates/Slice0/Obligations.lean ====
section
/-! DEFINITION. The statements about the block, made from the numbered rules of the spec. -/

set_option linter.all false

open Sys2Proof Sys2Proof.Machine

/-- A step takes the command at the front of the queue and runs it on the queue's rest. For every command c and
state s with c at the front of its queue, step s is exec of c on s with the queue's rest. (00_scope.md,
01_architecture.md) -/
def Obligations.StepRunsTheFrontCommand : Prop :=
  ∀ (s : State) (c : Instr) (rest : List Instr),
    step (s.withPending (c :: rest)) = exec c (s.withPending rest)

/-- With an empty queue a step lets one nanosecond pass and leaves the queue empty (model's choice, log entry 1). On an
empty queue step answers a next state with an empty queue. Outside Night mtime and every timebase have gone on as the
tick says, and the phase of the boot is as before where every arbour cluster held is one of the twenty and the transport
engines are as at reset, so that no thread and no event context of another can write the boot's status. In Night the
lodge counts its steps and changes nothing else, but at every fortieth, a cycle of its 25 MHz oscillator, mtime goes on by
40 ns and each timebase that does not slew by 40 ns at its rate. That an empty queue is one nanosecond of time is the model's choice (log entry
1). (17_timebase.md R453, 17_timebase.md R470) -/
def Obligations.EmptyQueueLetsTimePass : Prop :=
  (∀ (s : State), s.pending = [] → s.phase ≠ phNight →
    ∃ t, step s = .next t ∧ t.pending = [] ∧ t.clk.mtime = s.tick.clk.mtime ∧
      (∀ k, k < 4 → t.tbVal k = s.tick.tbVal k) ∧
      ((spKeys s.arb.clusters).all (fun c => decide (c < 20)) = true ∧ s.te = State.reset.te → t.phase = s.phase)) ∧
  (∀ (s : State), s.pending = [] → s.phase = phNight → s.clk.lodge < 39 →
    step s = .next (s.withClk { s.clk with lodge := s.clk.lodge + 1 })) ∧
  ∀ (s : State), s.pending = [] → s.phase = phNight → 39 ≤ s.clk.lodge →
    ∃ t, step s = .next t ∧ t.clk.mtime = s.clk.mtime + 40 ∧ t.clk.lodge = 0 ∧ t.phase = s.phase ∧
      (∀ k, k < 4 → (s.tbase k).slew = 0 → (t.tbVal k : Int) = s.tbVal k + 40 * ((nsUnit : Int) + s.tbRate k)) ∧
      s.sameBut t [.regs, .tb, .clk]

/-- Right after reset the block is in phase LODGE with every unit idle and nothing in memory. State.reset is in
phase LODGE, has no live site plan and no load in progress, reads every byte of device memory as zero and every
register but PWR_DOM_STATUS of the TERR domain at its reset value, and has no command waiting. The zero of
memory and of registers without a stated reset value is the model's choice (log entries 6 and 7). (19_boot.md
R503, 19_boot.md R505, 02_site_plan.md R47) -/
def Obligations.ResetLeavesLodge : Prop :=
  State.reset.phase = phLodge ∧ State.reset.plan = [] ∧ State.reset.get F.SITE_STATUS_PHASE = 0 ∧
    State.reset.pending = [] ∧ (∀ a, State.reset.byte a = 0) ∧
    (∀ r, r ≠ R.PWR_DOM_STATUS 0 → State.reset.rd r = regReset r)

/-- The state after reset has memory and registers in canonical form. The invariant of StepKeepsCanonicalForm holds
of State.reset. (16_cores_memory.md R436, 00_scope.md R11) -/
def Obligations.ResetIsCanonical : Prop :=
  State.reset.canonical = true

/-- Every step keeps the canonical form of device memory and of the register file. For every state whose memory
lists each byte once by rising address and no byte that reads as zero, and whose register file is of the same
form, a step that answers a next state answers one of that form. (16_cores_memory.md R436, 00_scope.md R11) -/
def Obligations.StepKeepsCanonicalForm : Prop :=
  ∀ (s t : State), s.canonical = true → step s = .next t → t.canonical = true

/-- No command changes the queue of waiting commands. For every command and state, the next state that exec answers
has the queue that the state had. (01_architecture.md R13) -/
def Obligations.CommandsLeaveTheQueue : Prop :=
  ∀ (i : Instr) (s t : State), exec i s = .next t → t.pending = s.pending

/-- Every command on every state answers a next state, never a fault or a refusal. The spec answers what it forbids
by responses, records and discards, so exec answers a next state for every command and every state. (00_scope.md
R4, 00_scope.md R577) -/
def Obligations.EveryCommandCompletes : Prop :=
  ∀ (i : Instr) (s : State), ∃ t, exec i s = .next t

/-- What a unit does when it records one of its own or a common condition. Recording a unit's own condition sets its
status bit and no other, captures the condition in _ERR_FIRST when VALID is 0 and leaves it otherwise, and
counts in _ERR_COUNT up to its top. Recording a common condition captures and counts in the same way and changes
no status bit and no summary bit. (R577) -/
def Obligations.RecordingACondition : Prop :=
  ∀ (s : State) (u cond bit extra : Nat), bit < 64 →
    (s.fault u cond bit extra).rd (errStatus u) = setBit (s.rd (errStatus u)) bit true ∧
    (s.fault u cond bit extra).rd (errFirst u) =
      (if bitAt (s.rd (errFirst u)) 63 then s.rd (errFirst u)
       else BitVec.ofNat 64 (2 ^ 63 + (u * 256 + cond) * 2 ^ fcShift u + extra)) ∧
    (s.fault u cond bit extra).get ⟨errCount u, 31, 0⟩ = min 0xFFFFFFFF (s.get ⟨errCount u, 31, 0⟩ + 1) ∧
    (s.common u cond).rd (errStatus u) = s.rd (errStatus u) ∧
    (s.common u cond).rd R.FLT_SUMMARY = s.rd R.FLT_SUMMARY ∧
    (s.common u cond).rd (errFirst u) =
      (if bitAt (s.rd (errFirst u)) 63 then s.rd (errFirst u)
       else BitVec.ofNat 64 (2 ^ 63 + (u * 256 + cond) * 2 ^ fcShift u)) ∧
    (s.common u cond).get ⟨errCount u, 31, 0⟩ = min 0xFFFFFFFF (s.get ⟨errCount u, 31, 0⟩ + 1)

/-- The blocks of the codes that name no unit read as zero and ignore writes. For each of the codes 0x06, 0x07, 0x0B
to 0x0F and 0x1B to 0x1F and every aligned offset of its 16 MiB block: a read of a core returns zero and changes
nothing else, and a write, of a core or of a host that is not in bring-up refusal, leaves the whole state as it was;
of a core, where its fetch, its mode and its PMP let the access through. (01_architecture.md R33) -/
def Obligations.CodesWithoutUnit : Prop :=
  ∀ (s : State) (c x : Nat), c ∈ [0x06, 0x07, 0x0B, 0x0C, 0x0D, 0x0E, 0x0F, 0x1B, 0x1C, 0x1D, 0x1E, 0x1F] →
    x < 0x1000000 → x % 8 = 0 →
    (∀ (h : HartAccess), s.coreMay h (c * 0x1000000 + x) false = true →
      exec (.rcRegisterRead ⟨h, c * 0x1000000 + x, 8⟩) s = .next (s.withOut (s.out ++ [.regRead (c * 0x1000000 + x) 0]))) ∧
    ∀ (who : Accessor) (value : Word) (env : CsrEnv), s.mayWrite who (c * 0x1000000 + x) = true →
      exec (.registerWrite who (c * 0x1000000 + x) 8 value env) s = .next s

/-- An offset that no register map defines reads as zero and ignores writes. At an aligned offset where the register
maps define no register, the register file of the IOMMU apart, a read of a core returns zero and a write, of a core or
of a host that is not in bring-up refusal, is taken without effect: every part of the block is as before, no error
register among them, but for the tiles of the unit, which an access may begin to wake. A core's access is one that its
fetch, its mode and its PMP let through. (00_scope.md R10) -/
def Obligations.OffsetsWithoutRegister : Prop :=
  ∀ (s : State) (o : Nat), findReg (unitRegs (o / 0x1000000)) (o % 0x1000000) = none → inIommu o = false → o % 8 = 0 →
    (∀ (h : HartAccess), s.coreMay h o false = true →
      ∃ t, exec (.rcRegisterRead ⟨h, o, 8⟩) s = .next t ∧ t.out = s.out ++ [.regRead o 0] ∧ s.sameBut t [.tiles, .out]) ∧
    ∀ (who : Accessor) (value : Word) (env : CsrEnv), s.mayWrite who o = true →
      ∃ t, exec (.registerWrite who o 8 value env) s = .next t ∧ s.sameBut t [.tiles]

/-- An entry command is applied only with the version bounds of R193. When WRITE or WRITE_CTRL is applied, with
positions counted from the base of that moment (R187): if an enabled FIRST lies beyond the position after
COMMITTED or an enabled LAST beyond COMMITTED, LAST_FC becomes 0x1202, the VER_BOUND bit is set and no entry
changes; otherwise the entry takes the buffer, or its control word, LAST_FC is 0 and every other entry is as
before. In both cases the command is over. (07_classification.md R193) -/
def Obligations.EntryCommandBounds : Prop :=
  (∀ (s : State) (k : AcmCmd),
     s.acm.cmd = some k →
     k.op = 1 ∨ k.op = 2 →
     (cFirstEn k.buf.ctrl = true ∧ (s.committed + 16 - s.verBase) % 16 + 1 < (cFirst k.buf.ctrl + 16 - s.verBase) % 16) ∨ (cLastEn k.buf.ctrl = true ∧ (s.committed + 16 - s.verBase) % 16 < (cLast k.buf.ctrl + 16 - s.verBase) % 16) →
     ∃ t, exec .acmEntCmdDone s = .next t ∧
       t.get F.ACM_ENT_STATUS_LAST_FC = 0x1202 ∧
       t.hasError uAcm 1 ∧
       t.acm = { s.acm with cmd := none } ∧
       t.get F.ACM_ENT_STATUS_BUSY = 0 ∧
       s.sameBut t [.regs, .acm, .pcie, .out, .aia]) ∧
  (∀ (s : State) (k : AcmCmd),
     s.acm.cmd = some k →
     k.op = 1 ∨ k.op = 2 →
     (!cFirstEn k.buf.ctrl || decide ((cFirst k.buf.ctrl + 16 - s.verBase) % 16 ≤ (s.committed + 16 - s.verBase) % 16 + 1)) = true →
     (!cLastEn k.buf.ctrl || decide ((cLast k.buf.ctrl + 16 - s.verBase) % 16 ≤ (s.committed + 16 - s.verBase) % 16)) = true →
     ∃ t, exec .acmEntCmdDone s = .next t ∧
       t.get F.ACM_ENT_STATUS_LAST_FC = 0 ∧
       t.acmEntry k.bank k.entry = (if k.op = 1 then k.buf else { s.acmEntry k.bank k.entry with ctrl := k.buf.ctrl }) ∧
       (∀ b i, 2048 * b + i ≠ 2048 * k.bank + k.entry → t.acmEntry b i = s.acmEntry b i) ∧
       t.get F.ACM_ENT_STATUS_BUSY = 0 ∧
       s.sameRegs t [R.ACM_ENT_STATUS] ∧
       s.sameBut t [.regs, .acm])

/-- How a write and a read of a register of the control space act by access type. A write of 8 aligned bytes, of a core
that its fetch, mode and PMP let through or of a host outside bring-up refusal, sets a plain field, keeps reserved
bits zero and leaves every other register; a reserved encoding leaves the register and records 0xFF, a staging
register of a pending commit 0xFD; a one clears an RW1C bit and a zero does not; a read-only register keeps its value;
a misaligned access of a core, or one that its mode or its PMP denies, is an access fault and a misaligned one of a
host an Unsupported Request; a host's write in bring-up refusal is dropped; a read of an RC counter returns its value
and clears it; CANCEL withdraws a pending commit and does nothing with none pending. The clauses name registers of
the SITE, FLT and TB units. (00_scope.md R7, 00_scope.md R8, 00_scope.md R9, 00_scope.md R10, 00_scope.md R11,
00_scope.md R12, 00_scope.md R577, 01_architecture.md R25, 15_pcie_endpoint.md R404, 16_cores_memory.md R429,
16_cores_memory.md R430) -/
def Obligations.RegisterAccesses : Prop :=
  (∀ (s : State) (who : Accessor) (value : Word) (env : CsrEnv),
     s.mayWrite who R.SITE_QUIESCE_LIMIT = true →
     1000 ≤ bitsAt value 31 0 →
     bitsAt value 31 0 ≤ 60000000 →
     s.get F.SITE_DRAIN_LIMIT_LIMIT_US ≤ bitsAt value 31 0 →
     ∃ t, exec (.registerWrite who R.SITE_QUIESCE_LIMIT 8 value env) s = .next t ∧
       t.get F.SITE_QUIESCE_LIMIT_LIMIT_US = bitsAt value 31 0 ∧
       bitsAt (t.rd R.SITE_QUIESCE_LIMIT) 63 32 = bitsAt (s.rd R.SITE_QUIESCE_LIMIT) 63 32 ∧
       s.sameRegs t [R.SITE_QUIESCE_LIMIT] ∧
       s.sameBut t [.regs]) ∧
  (∀ (s : State) (who : Accessor) (value : Word) (env : CsrEnv),
     s.mayWrite who R.SITE_QUIESCE_LIMIT = true →
     (bitsAt value 31 0 < 1000 ∨ 60000000 < bitsAt value 31 0) →
     ∃ t, exec (.registerWrite who R.SITE_QUIESCE_LIMIT 8 value env) s = .next t ∧
       t.rd R.SITE_QUIESCE_LIMIT = s.rd R.SITE_QUIESCE_LIMIT ∧
       t.rd (errStatus uSite) = s.rd (errStatus uSite) ∧
       (bitAt (s.rd R.SITE_ERR_FIRST) 63 = false → t.get F.SITE_ERR_FIRST_FC = 0x08FF) ∧
       t.get F.SITE_ERR_COUNT_COUNT = min 0xFFFFFFFF (s.get F.SITE_ERR_COUNT_COUNT + 1) ∧
       s.sameRegs t [R.SITE_ERR_FIRST, R.SITE_ERR_COUNT] ∧
       s.sameBut t [.regs]) ∧
  (∀ (s : State) (who : Accessor) (value : Word) (env : CsrEnv),
     s.mayWrite who R.SITE_SRC_ADDR_STG = true →
     s.get F.SITE_COMMIT_PENDING = 1 →
     bitsAt value 63 0 % 64 = 0 →
     ∃ t, exec (.registerWrite who R.SITE_SRC_ADDR_STG 8 value env) s = .next t ∧
       t.rd R.SITE_SRC_ADDR_STG = s.rd R.SITE_SRC_ADDR_STG ∧
       t.get F.SITE_ERR_COUNT_COUNT = min 0xFFFFFFFF (s.get F.SITE_ERR_COUNT_COUNT + 1) ∧
       (bitAt (s.rd R.SITE_ERR_FIRST) 63 = false → t.get F.SITE_ERR_FIRST_FC = 0x08FD) ∧
       s.sameRegs t [R.SITE_ERR_FIRST, R.SITE_ERR_COUNT] ∧
       s.sameBut t [.regs]) ∧
  (∀ (s : State) (who : Accessor) (value : Word) (env : CsrEnv),
     s.mayWrite who R.SITE_ERR_STATUS = true →
     ∃ t, exec (.registerWrite who R.SITE_ERR_STATUS 8 value env) s = .next t ∧
       (∀ b, b < 4 → bitAt (t.rd R.SITE_ERR_STATUS) b = (bitAt (s.rd R.SITE_ERR_STATUS) b && !bitAt value b)) ∧
       s.sameRegs t [R.SITE_ERR_STATUS, R.FLT_SUMMARY] ∧
       s.sameBut t [.regs, .out, .pcie, .aia]) ∧
  (∀ (s : State) (who : Accessor) (value : Word) (env : CsrEnv),
     s.mayWrite who R.SITE_LIVE_SEQ = true →
     ∃ t, exec (.registerWrite who R.SITE_LIVE_SEQ 8 value env) s = .next t ∧
       s.sameRegs t [] ∧
       s.sameBut t [.regs]) ∧
  (∀ (s : State) (x : HartAccess) (offset : Nat) (value : Word) (env : CsrEnv),
     x.fetch = .good →
     offset % 8 ≠ 0 →
     inIommu offset = false →
     exec (.registerWrite (.core x) offset 8 value env) s = .next (s.emit (.accessFault offset)) ∧
     exec (.rcRegisterRead ⟨x, offset, 8⟩) s = .next (s.emit (.accessFault offset))) ∧
  (∀ (s : State) (x : HartAccess) (offset size : Nat) (value : Word) (env : CsrEnv),
     x.fetch = .good →
     (s.coreReaches x offset size true = false →
       exec (.registerWrite (.core x) offset size value env) s = .next (s.emit (.accessFault offset))) ∧
     (s.coreReaches x offset size false = false →
       exec (.rcRegisterRead ⟨x, offset, size⟩) s = .next (s.emit (.accessFault offset)))) ∧
  (∀ (s : State) (x : HartAccess) (offset size : Nat) (write : Bool),
     x.mode = .u ∨ x.mode = .vs ∨ x.mode = .vu → s.coreReaches x offset size write = false) ∧
  (∀ (s : State) (offset : Nat) (value : Word) (env : CsrEnv),
     s.refusing = false →
     offset % 8 ≠ 0 →
     inIommu offset = false →
     exec (.registerWrite .host offset 8 value env) s = .next (s.postedUr 0)) ∧
  (∀ (s : State) (offset size : Nat) (value : Word) (env : CsrEnv),
     s.refusing = true →
     ∃ t, exec (.registerWrite .host offset size value env) s = .next t ∧
       t.get F.HIF_PRE_READY_DROP_COUNT = min 0xFFFFFFFF (s.get F.HIF_PRE_READY_DROP_COUNT + 1) ∧
       t.hasError uHif 4 ∧
       s.sameBut t [.regs, .pcie, .out, .free, .aia]) ∧
  (∀ (s : State) (x : HartAccess),
     s.coreMay x R.SITE_DRAIN_DISCARD false = true →
     ∃ t, exec (.rcRegisterRead ⟨x, R.SITE_DRAIN_DISCARD, 8⟩) s = .next t ∧
       t.out = s.out ++ [.regRead R.SITE_DRAIN_DISCARD (s.rd R.SITE_DRAIN_DISCARD)] ∧
       t.get F.SITE_DRAIN_DISCARD_COUNT = 0 ∧
       s.sameRegs t [R.SITE_DRAIN_DISCARD] ∧
       s.sameBut t [.regs, .out]) ∧
  (∀ (s : State),
     s.get F.TB_COMMIT_PENDING = 1 →
     s.tbDue = false →
     ∃ t, exec (.commitCancel R.TB_COMMIT) s = .next t ∧
       t.get F.TB_COMMIT_PENDING = 0 ∧
       s.sameRegs t [R.TB_COMMIT] ∧
       s.sameBut t [.regs]) ∧
  (∀ (s : State),
     s.get F.TB_COMMIT_PENDING = 0 →
     exec (.commitCancel R.TB_COMMIT) s = .next s)

/-- How the link of an Ethernet port comes up and goes down. Training, lane alignment and the latency measurement
bring a link up; a loss takes it down, ends what is in reception and in transmission as aborted, and leaves
memory and the other ports' registers. (09_scheduling.md R243, 09_scheduling.md R245, 17_timebase.md R461) -/
def Obligations.EthernetLinks : Prop :=
  (∀ (s : State) (port : Nat),
     s.get (F.ETH_LINK_STATUS_TRAINING port) ≠ 0 →
     ∃ t, exec (.linkTrainingComplete port) s = .next t ∧
       t.get (F.ETH_LINK_STATUS_TRAINING port) = 0 ∧
       t.eth.measuring = port :: s.eth.measuring.erase port ∧
       s.sameRegs t [R.ETH_LINK_STATUS port] ∧
       s.sameBut t [.regs, .eth]) ∧
  (∀ (s : State) (port : Nat),
     portPresent s.plan port = true →
     s.taking = true →
     s.underAmendment secPortLayout 0 port = false →
     s.get (F.ETH_LINK_CTRL_EN port) = 1 →
     linkUp s port = false →
     portTrains s.plan port = false →
     ∃ t, exec (.laneLockAlignment port) s = .next t ∧
       t.eth.measuring = port :: s.eth.measuring.erase port ∧
       s.sameBut t [.eth]) ∧
  (∀ (s : State) (port : Nat) (latencies : List (Nat × Nat)),
     port < 16 →
     s.eth.measuring.contains port = true →
     s.get (F.ETH_LINK_CTRL_EN port) = 1 →
     ∃ t, exec (.laneCalibrationComplete port latencies) s = .next t ∧
       linkUp t port = true ∧
       t.get (F.SCH_PORT_STATUS_LINK port) = 1 ∧
       (∀ i, i < portLanes s.plan port → t.get (F.TB_LANE_CAL_RX_LAT (port + i)) = (latencies.getD i (0, 0)).1 % 2 ^ 32 ∧ t.get (F.TB_LANE_CAL_TX_LAT (port + i)) = (latencies.getD i (0, 0)).2 % 2 ^ 32) ∧
       t.eth.measuring = s.eth.measuring.erase port ∧
       (∀ r, r ≠ R.ETH_LINK_STATUS port → r ≠ R.SCH_PORT_STATUS port →
         (∀ i, i < portLanes s.plan port → r ≠ R.TB_LANE_CAL (port + i)) → t.rd r = s.rd r) ∧
       s.sameBut t [.regs, .eth]) ∧
  (∀ (s : State) (port : Nat) (receiving : Bool),
     port < 16 →
     linkUp s port = true →
     ∃ t, exec (.linkLoss port receiving) s = .next t ∧
       linkUp t port = false ∧
       t.get (F.SCH_PORT_STATUS_LINK port) = 0 ∧
       (receiving = true → t.get (F.ETH_RX_ABORT_COUNT port) = min 0xFFFFFFFF (s.get (F.ETH_RX_ABORT_COUNT port) + 1)) ∧
       (receiving = false → t.get (F.ETH_RX_ABORT_COUNT port) = s.get (F.ETH_RX_ABORT_COUNT port)) ∧
       t.txOf port = none ∧
       s.sameRegs t [R.ETH_LINK_STATUS port, R.SCH_PORT_STATUS port, R.ETH_RX_ABORT port, R.ETH_TX_ABORT port,
         R.SCH_PORT_FLUSH_DROP port] ∧
       s.sameBut t [.regs, .prm, .eth, .sch, .out])

/-- What a port does with a received frame and with priority flow control. A good frame that passes the filters and
fits is stored with the next arrival number of its source and its timestamp; bad and oversize frames are only
counted; PFC frames pause and release classes; XOFF repeats and its end send PFC frames, at once or at the next
frame boundary. Each leaves what it does not name. (01_architecture.md R17, 03_promenade.md R89, 09_scheduling.md R240, 09_scheduling.md R246,
17_timebase.md R462) -/
def Obligations.FrameReceptionAndPause : Prop :=
  (∀ (s : State) (port : Nat) (data : List Byte) (marked : Bool),
     linkUp s port = true →
     (marked = true → portFec s.plan port ≠ 2) →
     60 ≤ data.length →
     data.length + 4 ≤ s.get (F.ETH_RX_CFG_MAX_FRAME port) →
     beAt data 12 2 ≠ 0x8808 →
     s.get (F.ETH_RX_CFG_UC_FILTER port) = 0 →
     (s.arrivingAt port).dropped = false →
     s.ibufBytes + data.length + 4 ≤ 67108864 →
     ∃ t, exec (.frameReceive port data ⟨true, marked, false⟩) s = .next t ∧
       t.frames = s.frames ++ [⟨port, (s.source port).nextArrival, framePrio data (s.get F.ETH_PFC_CFG_DEFAULT_PCP), 0, data, shortNs (s.rxStamp port), shortFrac (s.rxStamp port), false, false⟩] ∧
       (t.source port).nextArrival = ((s.source port).nextArrival + 1) % 2 ^ 32 ∧
       (t.source port).nextPass = (s.source port).nextPass ∧
       s.sameBut t [.frames, .arb, .eth, .out]) ∧
  (∀ (s : State) (port : Nat) (data : List Byte) (marks : FrameMarks),
     linkUp s port = true →
     marks.arriving = false →
     marks.good = false ∨ (marks.marked = true ∧ portFec s.plan port = 2) ∨ data.length < 60 →
     ∃ t, exec (.frameReceive port data marks) s = .next t ∧
       t.get (F.ETH_RX_BAD_COUNT port) = min 0xFFFFFFFF (s.get (F.ETH_RX_BAD_COUNT port) + 1) ∧
       (s.arrivingAt port = arrivingNone 0 → s.sameBut t [.regs]) ∧
       s.sameRegs t [R.ETH_RX_BAD port] ∧
       s.sameBut t [.regs, .eth, .out]) ∧
  (∀ (s : State) (port : Nat) (data : List Byte) (marked : Bool),
     linkUp s port = true →
     (marked = true → portFec s.plan port ≠ 2) →
     60 ≤ data.length →
     s.get (F.ETH_RX_CFG_MAX_FRAME port) < data.length + 4 →
     ∃ t, exec (.frameReceive port data ⟨true, marked, false⟩) s = .next t ∧
       t.get (F.ETH_RX_OVERSIZE_COUNT port) = min 0xFFFFFFFF (s.get (F.ETH_RX_OVERSIZE_COUNT port) + 1) ∧
       (s.arrivingAt port = arrivingNone 0 → s.sameBut t [.regs]) ∧
       s.sameRegs t [R.ETH_RX_OVERSIZE port] ∧
       s.sameBut t [.regs, .eth, .out]) ∧
  (∀ (s : State) (port : Nat) (data : List Byte) (good marked : Bool),
     linkUp s port = true →
     16 ≤ data.length →
     beAt data 12 2 ≠ 0x8808 →
     s.get (F.ETH_RX_CFG_UC_FILTER port) = 0 →
     (s.arrivingAt port).dropped = false →
     s.ibufBytes + data.length ≤ 67108864 →
     ∃ t, exec (.frameReceive port data ⟨good, marked, true⟩) s = .next t ∧
       t.arrivingAt port = ⟨framePrio data (s.get F.ETH_PFC_CFG_DEFAULT_PCP), data.length, false⟩ ∧
       s.sameBut t [.eth, .out]) ∧
  (∀ (s : State) (port prio : Nat),
     s.eth.repeating.contains (8 * port + prio) = true →
     s.pfcOver port prio = true →
     ∃ t, exec (.pfcRepeat port prio) s = .next t ∧
       (s.txOf port = none → t.out = s.out ++ [.pfc port prio (s.get F.ETH_PFC_CFG_PAUSE_QUANTA)] ∧ t.eth = s.eth) ∧
       (s.txOf port ≠ none → t.out = s.out ∧
         t.eth = { s.eth with pfcWait := s.eth.pfcWait ++ [(port, prio, s.get F.ETH_PFC_CFG_PAUSE_QUANTA)] }) ∧
       s.sameBut t [.eth, .out]) ∧
  (∀ (s : State) (port prio : Nat),
     prio < 8 →
     portPresent s.plan port = true →
     s.underAmendment secPortLayout 0 port = false →
     ∃ t, exec (.ethPfcEnClear port prio) s = .next t ∧
       t.get (F.ETH_PFC_THR_EN (8 * port + prio)) = 0 ∧
       (s.eth.repeating.contains (8 * port + prio) = true →
         t.eth.repeating = s.eth.repeating.erase (8 * port + prio) ∧
         (s.txOf port = none → t.out = s.out ++ [.pfc port prio 0]) ∧
         (s.txOf port ≠ none → t.out = s.out ∧ t.eth.pfcWait = s.eth.pfcWait ++ [(port, prio, 0)])) ∧
       (s.eth.repeating.contains (8 * port + prio) = false → t.out = s.out ∧ t.eth = s.eth) ∧
       s.sameRegs t [R.ETH_PFC_THR (8 * port + prio)] ∧
       s.sameBut t [.regs, .eth, .out]) ∧
  (∀ (s : State) (port enable : Nat) (times : List Nat),
     linkUp s port = true →
     ∃ t, exec (.pfcFrameReceived port enable times) s = .next t ∧
       (∀ c, c < 8 → enable.testBit c = true → (t.get (F.SCH_PORT_STATUS_PAUSED port)).testBit c = (times.getD c 0 != 0) ∧ spGet (fun _ => 0) t.eth.pause (8 * port + c) = times.getD c 0) ∧
       (∀ c, c < 8 → enable.testBit c = false → (t.get (F.SCH_PORT_STATUS_PAUSED port)).testBit c = (s.get (F.SCH_PORT_STATUS_PAUSED port)).testBit c ∧ spGet (fun _ => 0) t.eth.pause (8 * port + c) = spGet (fun _ => 0) s.eth.pause (8 * port + c)) ∧
       s.sameRegs t [R.SCH_PORT_STATUS port] ∧
       s.sameBut t [.regs, .eth, .sch]) ∧
  (∀ (s : State) (port prio : Nat),
     prio < 8 →
     s.epHeld (0x1B0 + port) = false →
     (s.get (F.SCH_PORT_STATUS_PAUSED port)).testBit prio = true →
     ∃ t, exec (.pfcPauseExpiry port prio) s = .next t ∧
       (∀ c, (t.get (F.SCH_PORT_STATUS_PAUSED port)).testBit c = ((s.get (F.SCH_PORT_STATUS_PAUSED port)).testBit c && c != prio)) ∧
       (spGet (fun _ => 0) t.eth.pause (8 * port + prio) = 0) ∧
       s.sameRegs t [R.SCH_PORT_STATUS port] ∧
       s.sameBut t [.regs, .eth, .sch])

/-- A packet of a device unit enters the mesh flit by flit, or its header is refused at its station. With the tile of
the station out of Hold and a place in the injection buffer: a header that passes the checks becomes a packet whose
first flit stands at the end of its injection buffer; a header with no reachable endpoint is refused, counted and
recorded; later flits follow with up to 128 bytes each and the last ends the packet; a packet that has stalled is
aborted; a new stall limit is taken when it is in range and refused with 0xFF when not. A packet whose last flit has
entered may free what classification held for it. (03_promenade.md R78, 03_promenade.md R83, 03_promenade.md R84,
03_promenade.md R88, 03_promenade.md R65, 03_promenade.md Table 3-8) -/
def Obligations.PromenadeInjection : Prop :=
  (∀ (s : State) (ep : Nat) (p : Packet) (rest : List Packet),
     s.stationRuns (epStation s.plan ep) = true →
     s.waiting ep = [] →
     spGet (fun _ => []) s.prm.out ep = p :: rest →
     epClass ep ≠ some 6 →
     (s.injector ep).active = false →
     s.heldAtInjection p.words = false →
     s.injRoom ep (kindVc (hGet p.words CH.kind)) = true →
     injectCheck s.plan ep p.words = none →
     ∃ t, exec (.packetInject ep none) s = .next t ∧
       spGet (fun _ => []) t.prm.out ep = rest ∧
       t.flight s.prm.nextPkt = ⟨p.words, ep, kindVc (hGet p.words CH.kind), false, none, false⟩ ∧
       t.buf (injKey ep (kindVc (hGet p.words CH.kind))) = s.buf (injKey ep (kindVc (hGet p.words CH.kind))) ++
         [mkFlit (kindVc (hGet p.words CH.kind)) s.prm.nextPkt true (decide (64 + hGet p.words CH.len ≤ 128)) false p.poison
           (min 128 (64 + hGet p.words CH.len)) p.words (bytesAt p.payload 0 (min 128 (64 + hGet p.words CH.len) - 64))] ∧
       (t.injector ep).active = decide (128 < 64 + hGet p.words CH.len) ∧
       (128 < 64 + hGet p.words CH.len → s.sameBut t [.prm]) ∧
       s.sameBut t [.prm, .frames, .acm, .eth, .out]) ∧
  (∀ (s : State) (ep : Nat) (p : Packet) (rest : List Packet),
     s.stationRuns (epStation s.plan ep) = true →
     s.waiting ep = [] →
     spGet (fun _ => []) s.prm.out ep = p :: rest →
     epClass ep ≠ some 6 →
     (s.injector ep).active = false →
     s.heldAtInjection p.words = false →
     s.injRoom ep (kindVc (hGet p.words CH.kind)) = true →
     injectCheck s.plan ep p.words = some (0x02, 1) →
     ∃ t, exec (.packetInject ep none) s = .next t ∧
       spGet (fun _ => []) t.prm.out ep = rest ∧
       t.get F.PRM_INJ_REFUSE_COUNT = min 0xFFFFFFFF (s.get F.PRM_INJ_REFUSE_COUNT + 1) ∧
       t.hasError uPrm 1 ∧
       (t.injector ep).active = false ∧
       s.sameRegs t [R.PRM_INJ_REFUSE, R.PRM_ERR_STATUS, R.PRM_ERR_FIRST, R.PRM_ERR_COUNT, R.FLT_SUMMARY] ∧
       s.sameBut t [.regs, .prm, .frames, .acm, .eth, .out, .pcie, .aia]) ∧
  (∀ (s : State) (ep : Nat),
     s.stationRuns (epStation s.plan ep) = true →
     epClass ep ≠ some 6 →
     (s.injector ep).active = true →
     s.injRoom ep (s.flight (s.injector ep).pkt).vc = true →
     (s.injector ep).got ≤ (s.injector ep).need →
     ∃ t, exec (.flitInject ep none) s = .next t ∧
       t.buf (injKey ep (s.flight (s.injector ep).pkt).vc) = s.buf (injKey ep (s.flight (s.injector ep).pkt).vc) ++
         [mkFlit (s.flight (s.injector ep).pkt).vc (s.injector ep).pkt false (decide ((s.injector ep).need - (s.injector ep).got ≤ 128))
           false false (min 128 ((s.injector ep).need - (s.injector ep).got)) (s.flight (s.injector ep).pkt).words
           (bytesAt (s.injector ep).rest 0 (min 128 ((s.injector ep).need - (s.injector ep).got)))] ∧
       (t.injector ep).active = decide (128 < (s.injector ep).need - (s.injector ep).got) ∧
       (t.injector ep).got = (s.injector ep).got + min 128 ((s.injector ep).need - (s.injector ep).got) ∧
       (128 < (s.injector ep).need - (s.injector ep).got → s.sameBut t [.prm]) ∧
       s.sameBut t [.prm, .frames, .acm, .eth, .out]) ∧
  (∀ (s : State) (ep : Nat),
     s.stationRuns (epStation s.plan ep) = true →
     epClass ep ≠ some 6 →
     (s.injector ep).active = true →
     s.stallCredit ep = true →
     ∃ t, exec (.stallTimeout ep) s = .next t ∧
       (t.injector ep).active = false ∧
       (t.injector ep).discarding = true ∧
       t.get F.PRM_ABORT_COUNT_COUNT = min 0xFFFFFFFF (s.get F.PRM_ABORT_COUNT_COUNT + 1) ∧
       t.hasError uPrm 3 ∧
       s.sameRegs t [R.PRM_ABORT_COUNT, R.PRM_ERR_STATUS, R.PRM_ERR_FIRST, R.PRM_ERR_COUNT, R.FLT_SUMMARY] ∧
       s.sameBut t [.regs, .prm, .frames, .acm, .eth, .out, .pcie, .aia]) ∧
  (∀ (s : State) (limit : Nat),
     1 ≤ limit →
     limit ≤ 16000 →
     ∃ t, exec (.prmStallLimitWrite limit [] []) s = .next t ∧
       t.get F.PRM_STALL_LIMIT_LIMIT_US = limit ∧
       s.sameRegs t [R.PRM_STALL_LIMIT] ∧
       s.sameBut t [.regs]) ∧
  (∀ (s : State) (limit : Nat) (overIn overEject : List Nat),
     (limit = 0 ∨ 16000 < limit) →
     ∃ t, exec (.prmStallLimitWrite limit overIn overEject) s = .next t ∧
       t.rd R.PRM_STALL_LIMIT = s.rd R.PRM_STALL_LIMIT ∧
       t.get F.PRM_ERR_COUNT_COUNT = min 0xFFFFFFFF (s.get F.PRM_ERR_COUNT_COUNT + 1) ∧
       t.rd R.PRM_ERR_STATUS = s.rd R.PRM_ERR_STATUS ∧
       s.sameRegs t [R.PRM_ERR_FIRST, R.PRM_ERR_COUNT] ∧
       s.sameBut t [.regs])

/-- A flit crosses a link with a credit and a header is delivered, wakes its tile, or is aborted at a blocked port. A
flit that wins its link takes a credit, leaves the front of its buffer and stands last in the next one, and the
channel is its packet's up to the tail; a header at its destination enters ejection when the tile is awake, a packet of
one flit waits whole at its unit, and otherwise the header starts the wake and is counted; the ejection watchdog
records its condition. Nothing else changes. (03_promenade.md R65, 03_promenade.md R66, 03_promenade.md R67,
03_promenade.md R68, 03_promenade.md R70, 03_promenade.md R82, 03_promenade.md R85, 03_promenade.md R86,
03_promenade.md R87) -/
def Obligations.PromenadeTransit : Prop :=
  (∀ (s : State) (key d : Nat) (f : Flit) (rest : List Flit),
     s.buf key = f :: rest →
     s.stationRuns (bufStation s.plan key) = true →
     (s.flight f.pkt).dropAt ≠ some (bufStation s.plan key) →
     nextDir (bufStation s.plan key) (epStation s.plan (hGet (s.flight f.pkt).words CH.dstEp)) = some d →
     linkKey (bufStation s.plan key) d (s.flight f.pkt).vc ≠ key →
     s.winsLink (bufStation s.plan key) d key = true →
     ∃ t, exec (.flitHop key ⟨0, false⟩) s = .next t ∧
       t.buf key = rest ∧
       t.buf (linkKey (bufStation s.plan key) d (s.flight f.pkt).vc) =
         s.buf (linkKey (bufStation s.plan key) d (s.flight f.pkt).vc) ++ [{ f with paid := none }] ∧
       t.credit (linkKey (bufStation s.plan key) d (s.flight f.pkt).vc) = s.credit (linkKey (bufStation s.plan key) d (s.flight f.pkt).vc) - 1 ∧
       t.owner (linkKey (bufStation s.plan key) d (s.flight f.pkt).vc) = (if f.tail then 0 else f.pkt + 1) ∧
       (key < 4096 → t.credit key = s.credit key + 1) ∧
       s.sameBut t [.prm, .pav, .out]) ∧
  (∀ (s : State) (key dst vc : Nat) (f : Flit) (rest : List Flit) (w : List Word),
     s.buf key = f :: rest →
     s.stationRuns (bufStation s.plan key) = true →
     f.head = true →
     (s.flight f.pkt).dropAt ≠ some (bufStation s.plan key) →
     dst = hGet (s.flight f.pkt).words CH.dstEp →
     vc = (s.flight f.pkt).vc →
     w = hSet (s.flight f.pkt).words CH.wake (if (s.flight f.pkt).woke then 1 else 0) →
     nextDir (bufStation s.plan key) (epStation s.plan dst) = none →
     s.rxOf dst vc = none →
     s.tileClear (epTile dst) = true →
     epClass dst ≠ some 6 →
     wakeProbe w = false →
     s.ejectRoom dst vc = true →
     hGet w CH.dbg = 0 →
     f.tail = false →
     ∃ t, exec (.headerDelivery ⟨key, ⟨0, false⟩⟩) s = .next t ∧
       t.buf key = rest ∧
       t.rxOf dst vc = some ⟨f.pkt, w, f.data, f.poison, false⟩ ∧
       s.sameBut t [.prm, .pav, .out]) ∧
  (∀ (s : State) (key dst vc : Nat) (f : Flit) (rest : List Flit) (w : List Word),
     s.buf key = f :: rest →
     s.stationRuns (bufStation s.plan key) = true →
     f.head = true →
     (s.flight f.pkt).dropAt ≠ some (bufStation s.plan key) →
     dst = hGet (s.flight f.pkt).words CH.dstEp →
     vc = (s.flight f.pkt).vc →
     w = hSet (s.flight f.pkt).words CH.wake (if (s.flight f.pkt).woke then 1 else 0) →
     nextDir (bufStation s.plan key) (epStation s.plan dst) = none →
     s.rxOf dst vc = none →
     s.tileClear (epTile dst) = true →
     epClass dst ≠ some 6 →
     wakeProbe w = false →
     s.ejectRoom dst vc = true →
     hGet w CH.dbg = 0 →
     f.tail = true →
     f.abort = false →
     dst < 0x1B0 →
     takesNothing dst = false →
     hGet w CH.kind = kCommand ∨ hGet w CH.kind = kPacket ∨ hGet w CH.kind = kEvent →
     ∃ t, exec (.headerDelivery ⟨key, ⟨0, false⟩⟩) s = .next t ∧
       t.buf key = rest ∧
       t.rxOf dst vc = none ∧
       t.inboxOf dst = s.inboxOf dst ++ [⟨w, f.data, f.poison || hGet w CH.poison == 1⟩] ∧
       s.sameBut t [.prm, .pav, .out]) ∧
  (∀ (s : State) (key : Nat) (f : Flit) (rest : List Flit),
     s.buf key = f :: rest →
     s.stationRuns (bufStation s.plan key) = true →
     f.head = true →
     (s.flight f.pkt).dropAt ≠ some (bufStation s.plan key) →
     nextDir (bufStation s.plan key) (epStation s.plan (hGet (s.flight f.pkt).words CH.dstEp)) = none →
     s.rxOf (hGet (s.flight f.pkt).words CH.dstEp) (s.flight f.pkt).vc = none →
     (s.tile (epTile (hGet (s.flight f.pkt).words CH.dstEp))).hold = false →
     (s.tile (epTile (hGet (s.flight f.pkt).words CH.dstEp))).sky ≠ 0 →
     (s.tile (epTile (hGet (s.flight f.pkt).words CH.dstEp))).waking = false →
     ∃ t, exec (.headerDelivery ⟨key, ⟨0, false⟩⟩) s = .next t ∧
       (t.tile (epTile (hGet (s.flight f.pkt).words CH.dstEp))).waking = true ∧
       (t.flight f.pkt).woke = true ∧
       t.get F.PRM_WAKE_COUNT_COUNT = min 0xFFFFFFFF (s.get F.PRM_WAKE_COUNT_COUNT + 1) ∧
       t.buf key = f :: rest ∧
       s.sameRegs t [R.PRM_WAKE_COUNT] ∧
       s.sameBut t [.regs, .tiles, .prm]) ∧
  (∀ (s : State) (ep : Nat),
     (s.loadedTd ep).isSome = true →
     s.ejectStalled ep = true →
     ∃ t, exec (.ejectionWatchdog ep) s = .next t ∧
       t.hasError uPrm 5 ∧
       s.sameBut t [.regs, .tiles, .prm, .pav, .pcie, .out, .free, .aia])

/-- A site plan is copied, verified, quiesced for, applied and resumed, or its load ends with a condition. GO starts
the copy; the end of the copy leaves the container in the staging region and enters VERIFY, a memory error
rejects with 0x13; verification either enters QUIESCE or rejects and leaves the live plan; quiescence enters
APPLY; the time limit rejects with 0x11; the drain limit ends the drain; the end of APPLY makes the new plan
live with its numbers; RESUME ends the load; CANCEL before APPLY rejects with 0x14. (02_site_plan.md R47,
02_site_plan.md R48, 02_site_plan.md R49, 02_site_plan.md R51, 02_site_plan.md R52, 02_site_plan.md R53,
02_site_plan.md R56, 02_site_plan.md R57, 02_site_plan.md R58) -/
def Obligations.SitePlanLoading : Prop :=
  (∀ (s : State),
     s.get F.SITE_COMMIT_PENDING = 0 →
     ∃ t, exec .siteCommitGo s = .next t ∧
       t.sitePhase = sCopy ∧
       t.get F.SITE_COMMIT_PENDING = 1 ∧
       s.sameRegs t [R.SITE_COMMIT, R.SITE_STATUS] ∧
       s.sameBut t [.regs]) ∧
  (∀ (s : State) (hostBytes : List Byte) (ecc : EccResult),
     s.sitePhase = sCopy →
     s.get F.SITE_SRC_CFG_STG_HOST = 1 →
     s.dmaAllowed 0 = true →
     s.dmaWaits 0 = false →
     (s.readPass 0 none (s.get F.SITE_SRC_ADDR_STG_ADDR) (min planMax (s.get F.SITE_SRC_LEN_STG_LEN))).1 = true →
     ∃ t, exec (.siteCopyEnd hostBytes ⟨ecc, .ok⟩) s = .next t ∧
       t.sitePhase = sVerify ∧
       t.site.staged = bytesAt hostBytes 0 (min planMax (s.get F.SITE_SRC_LEN_STG_LEN)) ∧
       t.plan = s.plan ∧
       s.sameRegs t [R.SITE_STATUS] ∧
       (s.get F.MEM_IOMMU_DDTP_MODE = 1 → s.sameBut t [.regs, .site, .pcie, .out, .free]) ∧
       s.sameBut t [.regs, .mem, .poison, .zeroMap, .site, .pcie, .out, .free]) ∧
  (∀ (s : State) (hostBytes : List Byte) (dma : DmaEnd),
     s.sitePhase = sCopy →
     s.get F.SITE_SRC_CFG_STG_HOST = 0 →
     s.operatorReaches (s.get F.SITE_SRC_ADDR_STG_ADDR) (min planMax (s.get F.SITE_SRC_LEN_STG_LEN)) = true →
     s.poisoned (s.get F.SITE_SRC_ADDR_STG_ADDR) (min planMax (s.get F.SITE_SRC_LEN_STG_LEN)) = false →
     ∃ t, exec (.siteCopyEnd hostBytes ⟨.clean, dma⟩) s = .next t ∧
       t.sitePhase = sVerify ∧
       t.site.staged = s.bytes (s.get F.SITE_SRC_ADDR_STG_ADDR) (min planMax (s.get F.SITE_SRC_LEN_STG_LEN)) ∧
       t.plan = s.plan ∧
       s.sameRegs t [R.SITE_STATUS] ∧
       s.sameBut t [.regs, .site]) ∧
  (∀ (s : State) (hostBytes : List Byte) (dma : DmaEnd),
     s.sitePhase = sCopy →
     s.get F.SITE_SRC_CFG_STG_HOST = 0 →
     ∃ t, exec (.siteCopyEnd hostBytes ⟨.uncorrectable, dma⟩) s = .next t ∧
       t.sitePhase = sIdle ∧
       t.get F.SITE_STATUS_RESULT = 0x13 ∧
       t.get F.SITE_COMMIT_PENDING = 0 ∧
       t.hasError uSite 0 ∧
       t.plan = s.plan ∧
       s.sameBut t [.regs, .site, .pcie, .out, .aia]) ∧
  (∀ (s : State) (receiving : List Nat),
     s.sitePhase = sVerify →
     ∃ t, exec (.siteVerifyEnd receiving) s = .next t ∧
       ((t.sitePhase = sQuiesce ∧ t.site.info.isSome = true) ∨ (t.sitePhase = sIdle ∧ t.get F.SITE_STATUS_RESULT ≠ 0 ∧ t.get F.SITE_COMMIT_PENDING = 0 ∧ t.hasError uSite 0)) ∧
       t.plan = s.plan ∧
       s.sameBut t [.regs, .prm, .site, .eth, .sch, .arb, .pcie, .out, .aia]) ∧
  (∀ (s : State),
     s.sitePhase = sQuiesce →
     s.site.diff.all s.quiescent = true →
     s.pwr.holdAt = [] →
     ∃ t, exec .siteQuiesceEnd s = .next t ∧
       t.sitePhase = sApply ∧
       s.sameRegs t [R.SITE_STATUS] ∧
       s.sameBut t [.regs]) ∧
  (∀ (s : State),
     s.sitePhase = sQuiesce →
     s.site.diff.all s.quiescent = false →
     ∃ t, exec .siteQuiesceTimeout s = .next t ∧
       t.sitePhase = sIdle ∧
       t.get F.SITE_STATUS_RESULT = 0x11 ∧
       t.get F.SITE_COMMIT_PENDING = 0 ∧
       t.hasError uSite 1 ∧
       t.plan = s.plan ∧
       s.sameBut t [.regs, .site, .pcie, .out, .aia]) ∧
  (∀ (s : State),
     s.sitePhase = sQuiesce →
     ∃ t, exec .siteDrainLimitExpiry s = .next t ∧
       t.sitePhase = sQuiesce ∧
       t.plan = s.plan ∧
       s.get F.SITE_DRAIN_DISCARD_COUNT ≤ t.get F.SITE_DRAIN_DISCARD_COUNT ∧
       (((dedup (s.diffPorts ++ s.diffTrees)).filter fun p => !(s.busyLeaves p).isEmpty) ≠ [] → t.hasError uSite 2) ∧
       s.sameBut t [.regs, .prm, .sch, .pcie, .out, .aia]) ∧
  (∀ (s : State) (i : PlanInfo),
     s.sitePhase = sApply →
     s.pwr.holdAt = [] →
     s.site.info = some i →
     ∃ t, exec .siteApplyEnd s = .next t ∧
       t.plan = s.site.next ∧
       t.sitePhase = sResume ∧
       t.get F.SITE_LIVE_SEQ_SEQ = i.seq % 2 ^ 64 ∧
       t.get F.SITE_LIVE_ARB_ARB = i.arb % 2 ^ 32 ∧
       t.get F.SITE_GEN_GEN = (s.get F.SITE_GEN_GEN + 1) % 2 ^ 32 ∧
       s.sameBut t [.regs, .mem, .poison, .zeroMap, .tiles, .prm, .pav, .arb, .acm, .emt, .site, .eth, .sch, .te, .nve, .hif, .pcie, .out, .free, .aia, .cache]) ∧
  (∀ (s : State),
     s.sitePhase = sResume →
     s.pwr.holdAt = [] →
     ∃ t, exec .siteResumeEnd s = .next t ∧
       t.sitePhase = sIdle ∧
       t.get F.SITE_STATUS_RESULT = 0 ∧
       t.get F.SITE_COMMIT_PENDING = 0 ∧
       t.plan = s.plan ∧
       s.sameBut t [.regs, .site]) ∧
  (∀ (s : State),
     sCopy ≤ s.sitePhase →
     s.sitePhase ≤ sQuiesce →
     ∃ t, exec .siteLoadCancel s = .next t ∧
       t.sitePhase = sIdle ∧
       t.get F.SITE_STATUS_RESULT = 0x14 ∧
       t.get F.SITE_COMMIT_PENDING = 0 ∧
       t.hasError uSite 3 ∧
       t.plan = s.plan ∧
       s.sameBut t [.regs, .site, .pcie, .out, .aia])

/-- A stream is loaded into a pavilion group, refused, failed or cancelled. LOAD of an EMPTY group in Closed enters
LOADING, a LOAD of another state is refused with 0x0A; a memory error of the header fails the load with 0x0B; a
good scrub leads to the frames or to EMPTY, a bad one is tried again and then fails with 0x18; a frame with a
memory error fails the load; the end of user reset attaches the ports and makes the group RUNNING; CANCEL ends a
load with 0x0D. (04_pavilions.md R98, 04_pavilions.md R103, 04_pavilions.md R104, 04_pavilions.md R106,
04_pavilions.md R107, 04_pavilions.md R129) -/
def Obligations.PavilionLoading : Prop :=
  (∀ (s : State) (group : Nat) (host : Bool),
     s.taking = true →
     group < 64 →
     grpFirst s.plan group = true →
     s.grpState group = gEmpty →
     grpLoadable s.plan group = true →
     s.scrubFailed group = false →
     s.isOpen = false →
     s.get F.WKT_LIFECYCLE_ERASING = 0 →
     s.get F.PAV_CMD_ARG0_ADDR % 64 = 0 →
     s.get F.PAV_CMD_ARG1_LEN % 64 = 0 →
     s.get F.PAV_CMD_ARG1_LEN ≤ 4096 + 2 ^ grpSizeLog2 s.plan group * 25165824 →
     s.underAmendment secPavGroups 0 group = false →
     ∃ t, exec (.pavLoad group host) s = .next t ∧
       t.grpState group = gLoading ∧
       t.get (F.PAV_GRP_STATE_VIOL group) = 0 ∧
       t.get F.PAV_CMD_STATUS_LAST_RESULT = 0 ∧
       (t.grp group).phase = .header ∧ (t.grp group).src = s.get F.PAV_CMD_ARG0_ADDR ∧ (t.grp group).len = s.get F.PAV_CMD_ARG1_LEN ∧ (t.grp group).host = host ∧
       s.sameRegs t [R.PAV_GRP_STATE group, R.PAV_CMD_STATUS] ∧
       s.sameBut t [.regs, .pav]) ∧
  (∀ (s : State) (group : Nat) (host : Bool),
     s.taking = true →
     group < 64 →
     grpFirst s.plan group = true →
     s.grpState group ≠ gEmpty →
     ∃ t, exec (.pavLoad group host) s = .next t ∧
       t.get F.PAV_CMD_STATUS_LAST_RESULT = 0x0A ∧
       t.get F.PAV_CMD_STATUS_LAST_GROUP = group ∧
       t.get F.PAV_CMD_STATUS_LAST_OP = 1 ∧
       t.get F.PAV_ERR_COUNT_COUNT = min 0xFFFFFFFF (s.get F.PAV_ERR_COUNT_COUNT + 1) ∧
       t.hasError uPav 0 ∧
       s.sameRegs t [R.PAV_CMD_STATUS, R.PAV_ERR_FIRST, R.PAV_ERR_COUNT, R.PAV_ERR_STATUS, R.FLT_SUMMARY] ∧
       s.sameBut t [.regs, .pcie, .out, .aia]) ∧
  (∀ (s : State) (group : Nat) (hostBytes : List Byte) (x : SrcRead),
     (s.grp group).phase = .header →
     s.grpHeld group = false →
     s.operatorWaits (s.grp group).host = false →
     (if (s.grp group).host then x.dma ≠ .ok else x.ecc = .uncorrectable) →
     ∃ t, exec (.pavHeaderCheckEnd group hostBytes x) s = .next t ∧
       t.get (F.PAV_GRP_STATE_RESULT group) = 0x0B ∧
       t.hasError uPav 0 ∧
       (t.grp group).phase = .scrub ∧ (t.grp group).scrubForLoad = false ∧
       ((s.grp group).host = false → s.sameBut t [.regs, .pav, .pcie, .out, .aia]) ∧
       s.sameBut t [.regs, .mem, .poison, .zeroMap, .pav, .pcie, .out, .aia, .free]) ∧
  (∀ (s : State) (group : Nat) (hostBytes : List Byte),
     (s.grp group).phase = .header →
     s.operatorWaits (s.grp group).host = false →
     s.grpHeld group = false →
     ∃ t, exec (.pavHeaderCheckEnd group hostBytes ⟨.clean, .ok⟩) s = .next t ∧
       (t.grp group).phase = .scrub ∧
       ((t.grp group).scrubForLoad = true →
         (t.grp group).hdr = if (s.grp group).host then bytesAt hostBytes 0 4096 else s.bytes (s.grp group).src 4096) ∧
       ((t.grp group).scrubForLoad = false → t.hasError uPav 0 ∧ t.get (F.PAV_GRP_STATE_RESULT group) ≠ 0) ∧
       s.sameBut t [.regs, .mem, .poison, .zeroMap, .tiles, .pav, .pcie, .out, .aia, .free]) ∧
  (∀ (s : State) (group : Nat),
     (s.grp group).phase = .scrub →
     (s.grp group).scrubForLoad = true →
     s.grpHeld group = false →
     ∃ t, exec (.pavScrubEnd group true) s = .next t ∧
       (t.grp group).phase = .frames ∧
       s.sameBut t [.pav]) ∧
  (∀ (s : State) (group : Nat),
     group < 64 →
     (s.grp group).phase = .scrub →
     (s.grp group).scrubForLoad = false →
     s.grpHeld group = false →
     ∃ t, exec (.pavScrubEnd group true) s = .next t ∧
       t.grpState group = gEmpty ∧
       t.rd (R.PAV_GRP_STREAM_ID group) = 0 ∧
       bitAt (t.rd R.PAV_DONE) group = true ∧
       (t.grp group).phase = .idle ∧
       s.sameBut t [.regs, .tiles, .pav, .pcie, .out, .aia]) ∧
  (∀ (s : State) (group : Nat),
     group < 64 →
     (s.grp group).phase = .scrub →
     s.grpHeld group = false →
     ∃ t, exec (.pavScrubEnd group false) s = .next t ∧
       ((s.grp group).scrubs = 0 → (t.grp group).phase = .scrub ∧ (t.grp group).scrubs = 1 ∧ t.regs = s.regs) ∧
       ((s.grp group).scrubs ≠ 0 → t.grpState group = gEmpty ∧ t.hasError uPav 5 ∧ t.scrubFailed group = true) ∧
       s.sameBut t [.regs, .tiles, .pav, .pcie, .out, .aia]) ∧
  (∀ (s : State) (member g : Nat) (hostBytes fr : List Byte) (fs : List (Nat × List Byte)),
     grpOf s.plan member = some g →
     (s.grp g).phase = .frames →
     ((spGet (fun _ => []) s.pav.engines (member % 8)).head? = some member) →
     s.grpHeld g = false →
     s.operatorWaits (s.grp g).host = false →
     (if (s.grp g).host then
        s.dmaAllowed 0 = true ∧
        (s.readPass 0 none ((s.grp g).src + frameStart (s.grp g).hdr (member - g)) (frameLen (s.grp g).hdr (member - g))).1 = true ∧
        fr = bytesAt hostBytes 0 (frameLen (s.grp g).hdr (member - g))
      else
        s.operatorReaches ((s.grp g).src + frameStart (s.grp g).hdr (member - g)) (frameLen (s.grp g).hdr (member - g)) = true ∧
        s.poisoned ((s.grp g).src + frameStart (s.grp g).hdr (member - g)) (frameLen (s.grp g).hdr (member - g)) = false ∧
        fr = s.bytes ((s.grp g).src + frameStart (s.grp g).hdr (member - g)) (frameLen (s.grp g).hdr (member - g))) →
     fs = spInsert (s.grp g).frames (member - g) fr →
     frameStart (s.grp g).hdr (2 ^ grpSizeLog2 s.plan g) = (s.grp g).len →
     ∃ t, exec (.pavFrameEnd member hostBytes ⟨.clean, .ok⟩) s = .next t ∧
       (firstFailing (pavFrameChecks (s.grp g).hdr g (grpSizeLog2 s.plan g) member fr) = none →
         (t.grp g).frames = fs ∧
         (t.fabric member).config = (pavFramePlain (s.grp g).hdr (member - g) fr).drop 64 ∧
         spGet (fun _ => []) t.pav.engines (member % 8) = (spGet (fun _ => []) s.pav.engines (member % 8)).tail ∧
         (fs.length < 2 ^ grpSizeLog2 s.plan g → t.grp g = { s.grp g with frames := fs } ∧
           t.fabric member = fabricOf ((pavFramePlain (s.grp g).hdr (member - g) fr).drop 64)) ∧
         (2 ^ grpSizeLog2 s.plan g ≤ fs.length → (t.grp g).phase = .attach ∧ (t.grp g).userReset = true ∧ (t.grp g).clocksOn = true ∧
           (t.grp g).khz = (List.range 4).map (fun k => leAt (s.grp g).hdr (0x18 + 4 * k) 4) ∧ .tenant g "USER_RESET" 1 ∈ t.out) ∧
         ((s.grp g).host = false → s.sameBut t [.pav, .out]) ∧
         (s.get F.MEM_IOMMU_DDTP_MODE = 1 → s.sameBut t [.pav, .pcie, .out, .free])) ∧
       (∀ k, firstFailing (pavFrameChecks (s.grp g).hdr g (grpSizeLog2 s.plan g) member fr) = some k →
         t.get (F.PAV_GRP_STATE_RESULT g) = k ∧ t.hasError uPav 0 ∧
         (t.grp g).phase = .scrub ∧ (t.grp g).scrubForLoad = false) ∧
       s.sameBut t [.regs, .mem, .poison, .zeroMap, .pav, .pcie, .out, .aia, .free]) ∧
  (∀ (s : State) (member g : Nat) (hostBytes : List Byte) (x : SrcRead),
     grpOf s.plan member = some g →
     (s.grp g).phase = .frames →
     ((spGet (fun _ => []) s.pav.engines (member % 8)).head? = some member) →
     s.grpHeld g = false →
     s.operatorWaits (s.grp g).host = false →
     (if (s.grp g).host then x.dma ≠ .ok else x.ecc = .uncorrectable) →
     ∃ t, exec (.pavFrameEnd member hostBytes x) s = .next t ∧
       t.get (F.PAV_GRP_STATE_RESULT g) = 0x0B ∧
       t.hasError uPav 0 ∧
       (t.grp g).phase = .scrub ∧ (t.grp g).scrubForLoad = false ∧
       ((s.grp g).host = false → s.sameBut t [.regs, .pav, .pcie, .out, .aia]) ∧
       s.sameBut t [.regs, .mem, .poison, .zeroMap, .pav, .pcie, .out, .aia, .free]) ∧
  (∀ (s : State) (group : Nat),
     group < 64 →
     (s.grp group).userReset = true →
     (s.grp group).phase = .attach →
     s.grpHeld group = false →
     ∃ t, exec (.userResetEnd group) s = .next t ∧
       t.grpState group = gRunning ∧
       t.get (F.PAV_GRP_STATE_RESULT group) = 0 ∧
       (t.grp group).portsUp = true ∧ (t.grp group).userReset = false ∧
       bitAt (t.rd R.PAV_DONE) group = true ∧
       t.get F.PAV_LOAD_COUNT_COUNT = min 0xFFFFFFFF (s.get F.PAV_LOAD_COUNT_COUNT + 1) ∧
       (∀ ep, ep ∈ grpPorts s.plan group → ∀ vc, vc < 4 → t.txCredit ep vc = 16 ∧ t.rxCredit ep vc = 0) ∧
       (s.mayHaze group = false → t.tiles = s.tiles) ∧
       s.sameBut t [.regs, .tiles, .prm, .pav, .pcie, .out, .aia, .free]) ∧
  (∀ (s : State) (group : Nat),
     group < 64 →
     (s.grp group).userReset = true →
     (s.grp group).phase = .release →
     s.grpHeld group = false →
     ∃ t, exec (.userResetEnd group) s = .next t ∧
       t.grpState group = gRunning ∧
       (t.grp group).portsUp = true ∧ (t.grp group).userReset = false ∧ (t.grp group).clocksOn = true ∧
       bitAt (t.rd R.PAV_DONE) group = true ∧
       s.sameBut t [.regs, .tiles, .prm, .pav, .pcie, .out, .aia, .free]) ∧
  (∀ (s : State) (group : Nat),
     group < 64 →
     grpFirst s.plan group = true →
     s.underAmendment secPavGroups 0 group = false →
     s.grpState group = gLoading →
     ((s.grp group).phase == .scrub && !(s.grp group).scrubForLoad) = false →
     ∃ t, exec (.pavCancel group) s = .next t ∧
       t.get (F.PAV_GRP_STATE_RESULT group) = 0x0D ∧
       t.get F.PAV_CMD_STATUS_LAST_RESULT = 0 ∧
       t.hasError uPav 0 ∧
       (t.grp group).phase = .scrub ∧ (t.grp group).scrubForLoad = false ∧
       s.sameBut t [.regs, .pav, .out, .pcie, .aia])

/-- A running pavilion group is asked to quiesce, unloaded, and a fenced one released. UNLOAD of a RUNNING group
raises QUIESCE_REQ and starts the grace period; acknowledgement or the end of grace unloads: state UNLOADING,
clocks off, ports detached; when accepted writes are done the scrub starts; RELEASE of a FENCED group, by the
operator or the tenant, begins the user reset; USER_RESET resets a RUNNING group. (04_pavilions.md R105,
04_pavilions.md R122, 04_pavilions.md R123, 04_pavilions.md R124) -/
def Obligations.PavilionUnloadAndRelease : Prop :=
  (∀ (s : State) (group grace : Nat),
     group < 64 →
     grpFirst s.plan group = true →
     s.underAmendment secPavGroups 0 group = false →
     s.grpState group = gRunning →
     (s.grp group).quiesceAck = false →
     grace ≠ 0 →
     ∃ t, exec (.pavUnload group grace) s = .next t ∧
       (t.grp group).phase = .grace ∧ (t.grp group).quiesceReq = true ∧
       t.out = s.out ++ [.tenant group "QUIESCE_REQ" 1] ∧
       t.grpState group = gRunning ∧
       t.get F.PAV_CMD_STATUS_LAST_RESULT = 0 ∧
       s.sameRegs t [R.PAV_CMD_STATUS] ∧
       s.sameBut t [.regs, .pav, .out]) ∧
  (∀ (s : State) (group : Nat),
     group < 64 →
     (s.grp group).phase = .grace →
     s.grpHeld group = false →
     ∃ t, exec (.quiesceAck group) s = .next t ∧
       t.grpState group = gUnloading ∧
       (t.grp group).phase = .hbmDrain ∧ (t.grp group).clocksOn = false ∧ (t.grp group).portsUp = false ∧ (t.grp group).reads = [] ∧
       s.sameBut t [.regs, .prm, .pav, .pcie, .out, .aia]) ∧
  (∀ (s : State) (group : Nat),
     (s.grp group).phase ≠ .grace →
     s.grpHeld group = false →
     ∃ t, exec (.quiesceAck group) s = .next t ∧
       t.grp group = { s.grp group with quiesceAck := true } ∧
       s.sameBut t [.pav]) ∧
  (∀ (s : State) (group : Nat),
     group < 64 →
     (s.grp group).phase = .grace →
     s.grpHeld group = false →
     ∃ t, exec (.graceExpiry group) s = .next t ∧
       t.grpState group = gUnloading ∧
       (t.grp group).phase = .hbmDrain ∧ (t.grp group).clocksOn = false ∧ (t.grp group).portsUp = false ∧ (t.grp group).reads = [] ∧
       s.sameBut t [.regs, .prm, .pav, .pcie, .out, .aia]) ∧
  (∀ (s : State) (group : Nat),
     (s.grp group).phase = .hbmDrain →
     s.grpHeld group = false →
     ((s.pav.hbm.any fun r => (grpMembers s.plan group).contains r.member && r.write) = false) →
     ∃ t, exec (.pavHbmWritesDone group) s = .next t ∧
       (t.grp group).phase = .scrub ∧ (t.grp group).scrubs = 0 ∧ (t.grp group).scrubForLoad = false ∧
       s.sameBut t [.pav]) ∧
  (∀ (s : State) (group : Nat),
     group < 64 →
     grpFirst s.plan group = true →
     s.underAmendment secPavGroups 0 group = false →
     s.grpState group = gFenced →
     (s.grp group).upset = false →
     s.violNow group = false →
     ∃ t, exec (.pavRelease group) s = .next t ∧
       (t.grp group).phase = .release ∧ (t.grp group).userReset = true ∧
       t.out = s.out ++ [.tenant group "USER_RESET" 1] ∧
       t.get F.PAV_CMD_STATUS_LAST_RESULT = 0 ∧
       s.sameRegs t [R.PAV_CMD_STATUS] ∧
       s.sameBut t [.regs, .pav, .out]) ∧
  (∀ (s : State) (group : Nat),
     group < 64 →
     grpFirst s.plan group = true →
     s.underAmendment secPavGroups 0 group = false →
     s.grpState group = gFenced →
     (s.grp group).upset = true →
     ∃ t, exec (.pavRelease group) s = .next t ∧
       t.get F.PAV_CMD_STATUS_LAST_RESULT = 0x0A ∧
       t.grp group = s.grp group ∧
       s.sameBut t [.regs]) ∧
  (∀ (s : State) (group : Nat),
     s.grpState group = gFenced →
     s.get F.PAV_FENCE_POLICY_TENANT_RELEASE = 1 →
     (s.grp group).upset = false →
     s.violNow group = false →
     s.underAmendment secPavGroups 0 group = false →
     ∃ t, exec (.pavcRelease group) s = .next t ∧
       (t.grp group).phase = .release ∧ (t.grp group).userReset = true ∧
       t.out = s.out ++ [.tenant group "USER_RESET" 1] ∧
       s.sameBut t [.pav, .out]) ∧
  (∀ (s : State) (group : Nat),
     s.grpState group = gRunning →
     s.underAmendment secPavGroups 0 group = false →
     ∃ t, exec (.userReset group) s = .next t ∧
       t.grp group = { s.grp group with userReset := true } ∧
       t.out = s.out ++ [.tenant group "USER_RESET" 1] ∧
       s.sameBut t [.pav, .out, .free])

/-- Clocks, memory port, register window, credits and sleep of a pavilion group. A clock write in range sets the
clock under its cap; a cap lowers running clocks; a corrected upset is recorded and an uncorrectable one is a
violation that refuses RELEASE; a memory request waits for its response or is answered BOUND beyond the window;
a write response stores the masked bytes and no others; window accesses reach the tenant bus while RUNNING and
the fixed pattern otherwise; returned read data answers the oldest read; a read that times out answers all ones;
a receive credit counts up to 64; SLEEP_REQ and its fall move the group in and out of Haze. (04_pavilions.md
R111, 04_pavilions.md R113, 04_pavilions.md R114, 04_pavilions.md R115, 04_pavilions.md R116, 04_pavilions.md
R117, 04_pavilions.md R118, 04_pavilions.md R119, 04_pavilions.md R120, 04_pavilions.md R121) -/
def Obligations.PavilionPorts : Prop :=
  (∀ (s : State) (group clock khz : Nat),
     10000 ≤ khz →
     khz ≤ 800000 →
     s.underAmendment secPavGroups 0 group = false →
     ∃ t, exec (.pavcClkWrite group clock khz) s = .next t ∧
       t.grp group = { s.grp group with khz := (s.grp group).khz.set clock khz, actKhz := (s.grp group).actKhz.set clock (min khz (s.get (F.PAV_GRP_CLKCAP_MAX_MHZ group) * 1000)) } ∧
       s.sameBut t [.pav]) ∧
  (∀ (s : State) (group clock khz : Nat),
     (khz < 10000 ∨ 800000 < khz) →
     ∃ t, exec (.pavcClkWrite group clock khz) s = .next t ∧
       t.get F.PAV_ERR_COUNT_COUNT = min 0xFFFFFFFF (s.get F.PAV_ERR_COUNT_COUNT + 1) ∧
       s.sameRegs t [R.PAV_ERR_FIRST, R.PAV_ERR_COUNT] ∧
       s.sameBut t [.regs]) ∧
  (∀ (s : State) (group mhz : Nat),
     10 ≤ mhz →
     mhz ≤ 800 →
     grpFirst s.plan group = true →
     s.underAmendment secPavGroups 0 group = false →
     ∃ t, exec (.clkcapWrite group mhz) s = .next t ∧
       t.get (F.PAV_GRP_CLKCAP_MAX_MHZ group) = mhz ∧
       t.grp group = { s.grp group with actKhz := (s.grp group).actKhz.map (min · (mhz * 1000)) } ∧
       s.sameRegs t [R.PAV_GRP_CLKCAP group] ∧
       s.sameBut t [.regs, .pav]) ∧
  (∀ (s : State) (member g : Nat),
     grpOf s.plan member = some g →
     s.grpState g ≠ gEmpty →
     s.grpHeld g = false →
     ∃ t, exec (.configScan member .corrected) s = .next t ∧
       t.hasError uPav 4 ∧
       t.pav = s.pav ∧
       s.sameBut t [.regs, .out, .pcie, .aia]) ∧
  (∀ (s : State) (member g : Nat),
     g < 64 →
     grpOf s.plan member = some g →
     s.grpState g = gRunning →
     (s.grp g).phase ≠ .grace →
     s.grpHeld g = false →
     ∃ t, exec (.configScan member .uncorrectable) s = .next t ∧
       t.grpState g = gFenced ∧
       (t.grp g).upset = true ∧ (t.grp g).clocksOn = false ∧ (t.grp g).portsUp = false ∧
       t.get (F.PAV_GRP_STATE_VIOL g) = (if s.violNow g then min 0x16 (s.get (F.PAV_GRP_STATE_VIOL g)) else 0x16) ∧
       t.hasError uPav 3 ∧ t.hasError uPav 1 ∧ t.hasError uPav 2 ∧
       s.sameBut t [.regs, .tiles, .prm, .pav, .pcie, .out, .aia, .free]) ∧
  (∀ (s : State) (member g addr tag : Nat) (write : Bool) (data : List Byte) (mask : Word),
     grpOf s.plan member = some g →
     s.grpState g = gRunning →
     ((s.pav.hbm.filter fun r => r.member == member).length < 256) →
     addr < grpHbmSize s.plan g →
     s.grpHeld g = false →
     ∃ t, exec (.pavHbmRequest member write addr tag data mask) s = .next t ∧
       t.pav.hbm = s.pav.hbm ++ [⟨member, write, addr / 64 * 64, tag, data, mask, false⟩] ∧
       s.sameBut t [.pav]) ∧
  (∀ (s : State) (member g addr tag : Nat) (write : Bool) (data : List Byte) (mask : Word),
     grpOf s.plan member = some g →
     s.grpState g = gRunning →
     ((s.pav.hbm.filter fun r => r.member == member).length < 256) →
     grpHbmSize s.plan g ≤ addr →
     s.grpHeld g = false →
     ∃ t, exec (.pavHbmRequest member write addr tag data mask) s = .next t ∧
       .hbmResponse member tag 1 [] ∈ t.out ∧
       t.hasError uPav 1 ∧
       s.sameBut t [.regs, .tiles, .prm, .pav, .pcie, .out, .aia, .free]) ∧
  (∀ (s : State) (index : Nat) (ecc : EccResult) (r : HbmReq),
     s.pav.hbm[index]? = some r →
     (((s.pav.hbm.take index).any fun q => q.member == r.member && q.addr == r.addr) = false) →
     r.write = true →
     s.grpHeld ((grpOf s.plan r.member).getD 0) = false →
     ∃ t, exec (.pavHbmResponse index ecc) s = .next t ∧
       t.out = s.out ++ [.hbmResponse r.member r.tag 0 []] ∧
       t.pav.hbm = s.pav.hbm.eraseIdx index ∧
       (∀ k, k < 64 → t.byte (grpWindowAddr s.plan ((grpOf s.plan r.member).getD 0) r.addr + k) = if bitAt r.mask k then r.data.getD k 0 else s.byte (grpWindowAddr s.plan ((grpOf s.plan r.member).getD 0) r.addr + k)) ∧
       s.sameBytesBut t (grpWindowAddr s.plan ((grpOf s.plan r.member).getD 0) r.addr) 64 ∧
       s.sameRegs t [R.PAV_GRP_STATE ((grpOf s.plan r.member).getD 0)] ∧
       s.sameBut t [.regs, .mem, .poison, .zeroMap, .tiles, .pav, .out]) ∧
  (∀ (s : State) (index : Nat) (r : HbmReq),
     s.pav.hbm[index]? = some r →
     (((s.pav.hbm.take index).any fun q => q.member == r.member && q.addr == r.addr) = false) →
     r.write = false →
     r.discard = false →
     s.poisoned (grpWindowAddr s.plan ((grpOf s.plan r.member).getD 0) r.addr) 64 = false →
     s.grpHeld ((grpOf s.plan r.member).getD 0) = false →
     ∃ t, exec (.pavHbmResponse index .clean) s = .next t ∧
       t.out = s.out ++ [.hbmResponse r.member r.tag 0 (s.bytes (grpWindowAddr s.plan ((grpOf s.plan r.member).getD 0) r.addr) 64)] ∧
       s.sameRegs t [R.PAV_GRP_STATE ((grpOf s.plan r.member).getD 0)] ∧
       s.sameBut t [.regs, .tiles, .pav, .out]) ∧
  (∀ (s : State) (group offset tag : Nat) (value : Word),
     offset % 8 = 0 →
     0x1000 ≤ offset →
     s.grpState group = gRunning →
     s.get (F.PAV_GRP_STATE_SLEEP group) = 0 →
     (s.grp group).reads.length < 16 →
     (s.grp group).bus = [] →
     s.grpHeld group = false →
     ∃ t, exec (.regWindowAccess group false offset value ⟨tag, true⟩) s = .next t ∧
       t.grp group = { s.grp group with reads := (s.grp group).reads ++ [tag], busBusy := false } ∧
       t.out = s.out ++ [.tenant group "REG_READ" offset] ∧
       s.sameBut t [.pav, .out]) ∧
  (∀ (s : State) (group offset tag : Nat) (value : Word) (ready : Bool),
     offset % 8 = 0 →
     0x1000 ≤ offset →
     s.grpState group ≠ gRunning →
     ∃ t, exec (.regWindowAccess group false offset value ⟨tag, ready⟩) s = .next t ∧
       t.out = s.out ++ [.hostRead tag (List.replicate 8 0xFF) false] ∧
       (t.grp group).drop = min 0xFFFFFFFF ((s.grp group).drop + 1) ∧
       t.get F.PAV_WIN_DROP_COUNT = min 0xFFFFFFFF (s.get F.PAV_WIN_DROP_COUNT + 1) ∧
       s.sameRegs t [R.PAV_WIN_DROP] ∧
       s.sameBut t [.regs, .pav, .out]) ∧
  (∀ (s : State) (group tag : Nat) (data : Word) (ready : Bool) (rest : List Nat),
     (s.grp group).late = 0 →
     (s.grp group).reads = tag :: rest →
     (s.grp group).bus = [] →
     s.grpHeld group = false →
     ∃ t, exec (.regReadReturn group ⟨data, ready⟩) s = .next t ∧
       t.grp group = { s.grp group with reads := rest, busBusy := !ready } ∧
       t.out = s.out ++ [.hostRead tag (natLE 8 data.toNat) false] ∧
       s.sameBut t [.pav, .out]) ∧
  (∀ (s : State) (group tag : Nat) (rest : List Nat),
     (s.grp group).reads = tag :: rest →
     s.grpHeld group = false →
     ∃ t, exec (.pavRegTimeoutExpiry group) s = .next t ∧
       .hostRead tag (List.replicate 8 0xFF) false ∈ t.out ∧
       (t.grp group).viols = min 0xFFFFFFFF ((s.grp group).viols + 1) ∧
       t.hasError uPav 1 ∧
       s.sameBut t [.regs, .tiles, .prm, .pav, .pcie, .out, .aia, .free]) ∧
  (∀ (s : State) (ep vc td : Nat),
     s.loadedTd ep = some td →
     s.rxCredit ep vc < 64 →
     s.portHeld ep = false →
     ∃ t, exec (.rxCreditReturn ep vc) s = .next t ∧
       t.rxCredit ep vc = s.rxCredit ep vc + 1 ∧
       s.sameBut t [.pav]) ∧
  (∀ (s : State) (group : Nat),
     group < 64 →
     s.grpState group = gRunning →
     ((s.pav.hbm.any fun r => (grpMembers s.plan group).contains r.member) = false) →
     ((grpMembers s.plan group).all (fun m => (tileAllow s.plan (284 + m)).testBit 0) = true) →
     s.grpHeld group = false →
     ∃ t, exec (.sleepReqRise group) s = .next t ∧
       t.get (F.PAV_GRP_STATE_SLEEP group) = 1 ∧
       (∀ m, m ∈ grpMembers s.plan group → (t.tile (284 + m)).sky = 1) ∧
       (t.grp group).sleepReq = true ∧
       s.sameRegs t [R.PAV_GRP_STATE group] ∧
       s.sameBut t [.regs, .pav, .tiles]) ∧
  (∀ (s : State) (group : Nat),
     group < 64 →
     s.get (F.PAV_GRP_STATE_SLEEP group) = 1 →
     s.grpHeld group = false →
     ∃ t, exec (.sleepReqFall group) s = .next t ∧
       t.get (F.PAV_GRP_STATE_SLEEP group) = 0 ∧
       (∀ m, m ∈ grpMembers s.plan group → (t.tile (284 + m)).sky = 0) ∧
       (t.grp group).sleepReq = false ∧
       s.sameRegs t [R.PAV_GRP_STATE group] ∧
       s.sameBut t [.regs, .pav, .tiles])

/-- A packet is dispatched to an arbour thread, its commit passes, and its limits end it. The oldest stored packet
of a source goes to the chosen thread of the chosen cluster, with registers zero, PC at the entry of its
program, the packet's data and the committed rule version, and one more dispatch counted; the commit sequencer
passes the packet of the next arrival number and moves on; a cluster without RELEASE within the limit stays
CLOSED with 0x1106; a packet beyond the run limit ends with 0x1108 and is counted when not committed; a PARK
timeout ends the PARK with status 2. The rest of each step's state is as it was. (05_arbour_cores.md R139,
05_arbour_cores.md R140, 05_arbour_cores.md R143, 05_arbour_cores.md R138, 05_arbour_cores.md R144,
06_arbour_isa.md R175, 06_arbour_isa.md R174) -/
def Obligations.ArbourThreadsAndCommit : Prop :=
  (∀ (s : State) (src c u : Nat) (f : SrcFrame) (cs : List Nat),
     (s.frames.find? (fun g => g.src == src && !g.dispatched) = some f) →
     s.dispatchClusters src = c :: cs →
     s.dispatchThread c = some u →
     ∃ t, exec (.arbourDispatch src .none) s = .next t ∧
       (t.thr c u).pkt = some ⟨f.src, f.arrival, f.data.length, f.data, s.get F.ACM_VER_STATUS_COMMITTED, f.prio, f.td, f.ns, f.frac, f.poison⟩ ∧
       (t.thr c u).pc = imgEntry s.plan c (mapProg s.plan src f.prio) ∧
       (t.thr c u).regs = List.replicate 32 0 ∧ (t.thr c u).key = List.replicate 128 0 ∧ (t.thr c u).ew = List.replicate 8 0 ∧ (t.thr c u).written = 0 ∧
       (t.thr c u).window = bytesAt f.data 0 512 ∧
       ((t.thr c u).st = if (s.thr c u).haltPending then tHalt else tRun) ∧
       (t.thr c u).order = (s.clu c).nextOrder ∧ (t.clu c).nextOrder = (s.clu c).nextOrder + 1 ∧
       (∀ v, v ≠ u → t.thr c v = s.thr c v) ∧
       t.get F.ARB_DISPATCH_COUNT_COUNT = (s.get F.ARB_DISPATCH_COUNT_COUNT + 1) % 2 ^ 64 ∧
       (t.frames = s.frames.map (fun g => if g.src == f.src && g.arrival == f.arrival then { g with dispatched := true } else g)) ∧
       s.sameRegs t [R.ARB_DISPATCH_COUNT] ∧
       s.sameBut t [.regs, .arb, .frames, .tiles]) ∧
  (∀ (s : State) (src c : Nat) (wayUe : Bool) (e : Committed),
     s.classifyHeld = false →
     ((List.range 20).find? (fun d => !s.cluHeld d && (s.clu d).commits.any fun g => g.src == src && g.arrival == (s.source src).nextPass) = some c) →
     ((s.clu c).commits.find? (fun g => g.src == src && g.arrival == (s.source src).nextPass) = some e) →
     (s.source src).ended = [] →
     ∃ t, exec (.commitSequencerPass ⟨src, wayUe⟩) s = .next t ∧
       t.passed = s.passed ++ [{ e with wayUe := wayUe }] ∧
       (t.source src).nextPass = ((s.source src).nextPass + 1) % 2 ^ 32 ∧
       (∀ x, x ≠ src → t.source x = s.source x) ∧
       s.sameBut t [.arb, .passed]) ∧
  (∀ (s : State) (c : Nat),
     c < 20 →
     s.cluState c = cInit →
     s.cluHeld c = false →
     ∃ t, exec (.arbInitLimitExpiry c) s = .next t ∧
       t.cluState c = cClosed ∧
       t.hasError uArb 5 ∧
       t.thr c 0 = { threadReset 0 with set := (s.thr c 0).set } ∧
       (∀ v, v ≠ 0 → t.thr c v = s.thr c v) ∧
       s.sameBut t [.regs, .arb, .out, .pcie, .aia]) ∧
  (∀ (s : State) (c u : Nat) (p : ArbPacket),
     c < 20 →
     (s.thr c u).pkt = some p →
     (s.thr c u).st ≠ tHalt →
     s.get F.ARB_RUN_LIMIT_SLOTS < (s.thr c u).slots →
     (s.thr c u).committed = false →
     u ∉ (s.clu c).commitWait →
     (u ≠ 0 ∨ (s.clu c).svcReq = false) →
     s.cluHeld c = false →
     ∃ t, exec (.arbRunLimitExpiry c u) s = .next t ∧
       t.hasError uArb 7 ∧
       t.get F.ARB_EXC_COUNT_COUNT = min 0xFFFFFFFF (s.get F.ARB_EXC_COUNT_COUNT + 1) ∧
       t.thr c u = { threadReset u with set := (s.thr c u).set, haltPending := (s.thr c u).haltPending } ∧
       (t.frames = s.frames.filter (fun f => !(f.src == p.src && f.arrival == p.arrival))) ∧
       s.sameBut t [.regs, .frames, .arb, .eth, .pcie, .out, .aia]) ∧
  (∀ (s : State) (c u j n r w : Nat),
     (s.thr c u).wait = some (.park j n r w) →
     (s.thr c u).st = tPark →
     w ≠ 0 →
     s.cluHeld c = false →
     ∃ t, exec (.parkTimeout c u) s = .next t ∧
       t.thr c u = { (s.thr c u).put r 2 with st := (s.thr c u).base, wait := none } ∧
       (∀ v, v ≠ u → t.thr c v = s.thr c v) ∧
       s.sameBut t [.arb])

/-- Deadlocked sets are broken, and the debug commands halt, step and resume threads. A deadlocked set is recorded
with 0x1101, its bit of ARB_DL_STATUS and a count, and every member's wait ends; a set held only by halted
threads is recorded once with 0x1102 and no thread changes. A thread at an enabled breakpoint halts before it
issues. HALT halts a thread, or is held pending for an IDLE one; RESUME takes it back to the state it halted
from; STEP of a halted thread at an ADD issues that one instruction and halts it again; ABANDON drops its packet
with 0x1109 and a count; HALT_ALL and RESUME_ALL do the same for each thread of the cluster; RESUME of a thread
that is not halted is recorded with 0x110A and changes no thread. (05_arbour_cores.md R149, 05_arbour_cores.md
R150, 05_arbour_cores.md R151, 05_arbour_cores.md R153, 06_arbour_isa.md R174) -/
def Obligations.ArbourDeadlockAndDebug : Prop :=
  (∀ (s : State) (c n : Nat),
     c < 20 →
     n < 8 →
     s.setStuck c n false = true →
     s.cluHeld c = false →
     ∃ t, exec (.deadlock c n) s = .next t ∧
       t.hasError uArb 0 ∧
       bitAt (t.rd (R.ARB_DL_STATUS c)) n = true ∧
       t.get F.ARB_DEADLOCK_COUNT_COUNT = min 0xFFFFFFFF (s.get F.ARB_DEADLOCK_COUNT_COUNT + 1) ∧
       (∀ v, v ∈ s.members c n → v ≠ 0 → (t.thr c v).wait = none ∧ (t.thr c v).st = (s.thr c v).base) ∧
       s.sameBut t [.regs, .arb, .pcie, .out, .aia]) ∧
  (∀ (s : State) (c n : Nat),
     c < 20 →
     n < 8 →
     s.setStuck c n true = true →
     (s.clu c).episodes.testBit n = false →
     s.cluHeld c = false →
     ∃ t, exec (.haltHold c n) s = .next t ∧
       t.hasError uArb 1 ∧
       bitAt (t.rd (R.ARB_DL_STATUS c)) (8 + n) = true ∧
       (t.clu c).episodes.testBit n = true ∧
       (∀ v, t.thr c v = s.thr c v) ∧
       s.sameBut t [.regs, .arb, .out, .pcie, .aia]) ∧
  (∀ (s : State) (c u k : Nat),
     ((s.thr c u).st = tRun ∨ (s.thr c u).st = tInit ∨ (s.thr c u).st = tService) →
     (s.thr c u).skipBreak = false →
     k < 4 →
     s.get (F.ARB_BRK_EN c k) = 1 →
     s.get (F.ARB_BRK_ADDR c k) = (s.thr c u).pc →
     (s.get (F.ARB_BRK_SETS c k)).testBit (s.thr c u).set = true →
     s.cluHeld c = false →
     ∃ t, exec (.arbBreakpointHalt c u) s = .next t ∧
       t.thr c u = { s.thr c u with st := tHalt, prior := (s.thr c u).st } ∧
       (∀ v, v ≠ u → t.thr c v = s.thr c v) ∧
       s.sameBut t [.arb]) ∧
  (∀ (s : State) (c u : Nat),
     s.dbgHeld c = false →
     (s.thr c u).st ≠ tIdle →
     (s.thr c u).st ≠ tHalt →
     ∃ t, exec (.arbHalt c u) s = .next t ∧
       t.thr c u = { s.thr c u with st := tHalt, prior := (s.thr c u).st } ∧
       (∀ v, v ≠ u → t.thr c v = s.thr c v) ∧
       s.sameBut t [.arb]) ∧
  (∀ (s : State) (c u : Nat),
     s.dbgHeld c = false →
     (s.thr c u).st = tIdle →
     ∃ t, exec (.arbHalt c u) s = .next t ∧
       t.thr c u = { s.thr c u with haltPending := true } ∧
       (∀ v, v ≠ u → t.thr c v = s.thr c v) ∧
       s.sameBut t [.arb]) ∧
  (∀ (s : State) (c u : Nat),
     s.dbgHeldLate c = false →
     (s.thr c u).st = tHalt →
     (s.thr c u).outcome = none →
     ∃ t, exec (.arbResume c u) s = .next t ∧
       t.thr c u = { s.thr c u with st := (s.thr c u).prior, skipBreak := true, haltPending := false } ∧
       (∀ v, v ≠ u → t.thr c v = s.thr c v) ∧
       s.sameBut t [.arb]) ∧
  (∀ (s : State) (c u : Nat),
     c < 20 →
     s.dbgHeldLate c = false →
     (s.thr c u).st ≠ tHalt →
     ∃ t, exec (.arbResume c u) s = .next t ∧
       t.hasError uArb 9 ∧
       s.sameBut t [.regs, .out, .pcie, .aia]) ∧
  (∀ (s : State) (c u : Nat) (w : Word) (x : ArbThread),
     c < 20 →
     u < 64 →
     s.dbgHeld c = false →
     s.thr c u = x →
     x.st = tHalt →
     x.prior = tRun →
     x.outcome = none →
     (s.tile (8 * c + u / 8)).hold = false →
     s.arbWord c u = w →
     iOp w = 0x10 →
     bitsAt w 40 0 = 0 →
     x.pc + 1 < (s.clu c).imem.length →
     ∃ t, exec (.arbStep c u .none) s = .next t ∧
       s.arbNext t c u { (x.issued (x.pc + 1) 1).put (iRd w) (gReg x (iRa w) + gReg x (iRb w)) with haltPending := false } (s.clu c)) ∧
  (∀ (s : State) (c u : Nat) (p : ArbPacket),
     c < 20 →
     s.dbgHeldLate c = false →
     (s.thr c u).st = tHalt →
     (s.thr c u).base ≠ tInit →
     (s.thr c u).pkt = some p →
     (s.thr c u).committed = false →
     (u ≠ 0 ∨ (s.clu c).svcReq = false) →
     ∃ t, exec (.arbAbandon c u) s = .next t ∧
       t.hasError uArb 8 ∧
       t.get F.ARB_ABANDON_COUNT_COUNT = min 0xFFFFFFFF (s.get F.ARB_ABANDON_COUNT_COUNT + 1) ∧
       t.thr c u = { threadReset u with set := (s.thr c u).set, haltPending := (s.thr c u).haltPending } ∧
       s.sameBut t [.regs, .frames, .arb, .eth, .pcie, .out, .aia]) ∧
  (∀ (s : State) (c : Nat),
     s.dbgHeld c = false →
     ∃ t, exec (.arbHaltAll c) s = .next t ∧
       (∀ v, v < 64 → t.thr c v = if (s.thr c v).st = tIdle then { s.thr c v with haltPending := true } else if (s.thr c v).st = tHalt then s.thr c v else { s.thr c v with st := tHalt, prior := (s.thr c v).st }) ∧
       s.sameBut t [.arb]) ∧
  (∀ (s : State) (c : Nat),
     s.dbgHeldLate c = false →
     (∀ v, v < 64 → (s.thr c v).outcome = none) →
     ∃ t, exec (.arbResumeAll c) s = .next t ∧
       (∀ v, v < 64 → t.thr c v = if (s.thr c v).st = tHalt then { s.thr c v with st := (s.thr c v).prior, skipBreak := true, haltPending := false } else s.thr c v) ∧
       s.sameBut t [.arb])

/-- What each arithmetic and logic instruction of an arbour thread computes. For NOP, ADD, SUB, AND, OR, XOR, ANDN,
SHL, SHR, SAR, MINU, MAXU, MUL, SLTU, ADDI, ANDI, ORI, XORI, SHLI, SHRI, SARI, SLTUI, MOVI, MOVHI, BFX and BFI:
when the thread may issue, the word at its PC has the opcode, the bits that its format and its unused fields
leave are zero, and PC + 1 is below INSTR_COUNT, the instruction writes its result to RD (nothing for g0), moves
the PC on by one, spends its slots (two for MUL, one for the others) and counts one issue. Registers of the
thread, its window, key and channel, every other thread, every other cluster, data memory, the gatehouse and
every register of the device but ARB_CLU_ISSUES stay as they were. (06_arbour_isa.md R159, 06_arbour_isa.md
R161, 06_arbour_isa.md R162, 06_arbour_isa.md R177, 06_arbour_isa.md R178) -/
def Obligations.ArbourArithmetic : Prop :=
  (∀ (s : State) (c u : Nat) (w : Word) (x : ArbThread),
     c < 20 →
     u < 64 →
     s.arbAt c u 0x01 w x = true →
     bitsAt w 40 0 = 0 →
     iRd w = 0 →
     iRa w = 0 →
     iRb w = 0 →
     x.pc + 1 < (s.clu c).imem.length →
     ∃ t, exec (.arbNop c u .none) s = .next t ∧
       s.arbNext t c u (x.issued (x.pc + 1) 1) (s.clu c)) ∧
  (∀ (s : State) (c u : Nat) (w : Word) (x : ArbThread),
     c < 20 →
     u < 64 →
     s.arbAt c u 0x10 w x = true →
     bitsAt w 40 0 = 0 →
     x.pc + 1 < (s.clu c).imem.length →
     ∃ t, exec (.arbAdd c u .none) s = .next t ∧
       s.arbNext t c u ((x.issued (x.pc + 1) 1).put (iRd w) ((gReg x (iRa w)) + (gReg x (iRb w)))) (s.clu c)) ∧
  (∀ (s : State) (c u : Nat) (w : Word) (x : ArbThread),
     c < 20 →
     u < 64 →
     s.arbAt c u 0x11 w x = true →
     bitsAt w 40 0 = 0 →
     x.pc + 1 < (s.clu c).imem.length →
     ∃ t, exec (.arbSub c u .none) s = .next t ∧
       s.arbNext t c u ((x.issued (x.pc + 1) 1).put (iRd w) ((gReg x (iRa w)) - (gReg x (iRb w)))) (s.clu c)) ∧
  (∀ (s : State) (c u : Nat) (w : Word) (x : ArbThread),
     c < 20 →
     u < 64 →
     s.arbAt c u 0x12 w x = true →
     bitsAt w 40 0 = 0 →
     x.pc + 1 < (s.clu c).imem.length →
     ∃ t, exec (.arbAnd c u .none) s = .next t ∧
       s.arbNext t c u ((x.issued (x.pc + 1) 1).put (iRd w) ((gReg x (iRa w)) &&& (gReg x (iRb w)))) (s.clu c)) ∧
  (∀ (s : State) (c u : Nat) (w : Word) (x : ArbThread),
     c < 20 →
     u < 64 →
     s.arbAt c u 0x13 w x = true →
     bitsAt w 40 0 = 0 →
     x.pc + 1 < (s.clu c).imem.length →
     ∃ t, exec (.arbOr c u .none) s = .next t ∧
       s.arbNext t c u ((x.issued (x.pc + 1) 1).put (iRd w) ((gReg x (iRa w)) ||| (gReg x (iRb w)))) (s.clu c)) ∧
  (∀ (s : State) (c u : Nat) (w : Word) (x : ArbThread),
     c < 20 →
     u < 64 →
     s.arbAt c u 0x14 w x = true →
     bitsAt w 40 0 = 0 →
     x.pc + 1 < (s.clu c).imem.length →
     ∃ t, exec (.arbXor c u .none) s = .next t ∧
       s.arbNext t c u ((x.issued (x.pc + 1) 1).put (iRd w) ((gReg x (iRa w)) ^^^ (gReg x (iRb w)))) (s.clu c)) ∧
  (∀ (s : State) (c u : Nat) (w : Word) (x : ArbThread),
     c < 20 →
     u < 64 →
     s.arbAt c u 0x15 w x = true →
     bitsAt w 40 0 = 0 →
     x.pc + 1 < (s.clu c).imem.length →
     ∃ t, exec (.arbAndn c u .none) s = .next t ∧
       s.arbNext t c u ((x.issued (x.pc + 1) 1).put (iRd w) ((gReg x (iRa w)) &&& ~~~(gReg x (iRb w)))) (s.clu c)) ∧
  (∀ (s : State) (c u : Nat) (w : Word) (x : ArbThread),
     c < 20 →
     u < 64 →
     s.arbAt c u 0x16 w x = true →
     bitsAt w 40 0 = 0 →
     x.pc + 1 < (s.clu c).imem.length →
     ∃ t, exec (.arbShl c u .none) s = .next t ∧
       s.arbNext t c u ((x.issued (x.pc + 1) 1).put (iRd w) ((gReg x (iRa w)) <<< (bitsAt (gReg x (iRb w)) 5 0))) (s.clu c)) ∧
  (∀ (s : State) (c u : Nat) (w : Word) (x : ArbThread),
     c < 20 →
     u < 64 →
     s.arbAt c u 0x17 w x = true →
     bitsAt w 40 0 = 0 →
     x.pc + 1 < (s.clu c).imem.length →
     ∃ t, exec (.arbShr c u .none) s = .next t ∧
       s.arbNext t c u ((x.issued (x.pc + 1) 1).put (iRd w) ((gReg x (iRa w)) >>> (bitsAt (gReg x (iRb w)) 5 0))) (s.clu c)) ∧
  (∀ (s : State) (c u : Nat) (w : Word) (x : ArbThread),
     c < 20 →
     u < 64 →
     s.arbAt c u 0x18 w x = true →
     bitsAt w 40 0 = 0 →
     x.pc + 1 < (s.clu c).imem.length →
     ∃ t, exec (.arbSar c u .none) s = .next t ∧
       s.arbNext t c u ((x.issued (x.pc + 1) 1).put (iRd w) ((gReg x (iRa w)).sshiftRight (bitsAt (gReg x (iRb w)) 5 0))) (s.clu c)) ∧
  (∀ (s : State) (c u : Nat) (w : Word) (x : ArbThread),
     c < 20 →
     u < 64 →
     s.arbAt c u 0x19 w x = true →
     bitsAt w 40 0 = 0 →
     x.pc + 1 < (s.clu c).imem.length →
     ∃ t, exec (.arbMinu c u .none) s = .next t ∧
       s.arbNext t c u ((x.issued (x.pc + 1) 1).put (iRd w) (BitVec.ofNat 64 (min (gReg x (iRa w)).toNat (gReg x (iRb w)).toNat))) (s.clu c)) ∧
  (∀ (s : State) (c u : Nat) (w : Word) (x : ArbThread),
     c < 20 →
     u < 64 →
     s.arbAt c u 0x1A w x = true →
     bitsAt w 40 0 = 0 →
     x.pc + 1 < (s.clu c).imem.length →
     ∃ t, exec (.arbMaxu c u .none) s = .next t ∧
       s.arbNext t c u ((x.issued (x.pc + 1) 1).put (iRd w) (BitVec.ofNat 64 (max (gReg x (iRa w)).toNat (gReg x (iRb w)).toNat))) (s.clu c)) ∧
  (∀ (s : State) (c u : Nat) (w : Word) (x : ArbThread),
     c < 20 →
     u < 64 →
     s.arbAt c u 0x1B w x = true →
     bitsAt w 40 0 = 0 →
     x.pc + 1 < (s.clu c).imem.length →
     ∃ t, exec (.arbMul c u .none) s = .next t ∧
       s.arbNext t c u ((x.issued (x.pc + 1) 2).put (iRd w) (BitVec.ofNat 64 ((gReg x (iRa w)).toNat * (gReg x (iRb w)).toNat))) (s.clu c)) ∧
  (∀ (s : State) (c u : Nat) (w : Word) (x : ArbThread),
     c < 20 →
     u < 64 →
     s.arbAt c u 0x1C w x = true →
     bitsAt w 40 0 = 0 →
     x.pc + 1 < (s.clu c).imem.length →
     ∃ t, exec (.arbSltu c u .none) s = .next t ∧
       s.arbNext t c u ((x.issued (x.pc + 1) 1).put (iRd w) (BitVec.ofNat 64 (if (gReg x (iRa w)).toNat < (gReg x (iRb w)).toNat then 1 else 0))) (s.clu c)) ∧
  (∀ (s : State) (c u : Nat) (w : Word) (x : ArbThread),
     c < 20 →
     u < 64 →
     s.arbAt c u 0x20 w x = true →
     bitsAt w 40 32 = 0 →
     iRb w = 0 →
     x.pc + 1 < (s.clu c).imem.length →
     ∃ t, exec (.arbAddi c u .none) s = .next t ∧
       s.arbNext t c u ((x.issued (x.pc + 1) 1).put (iRd w) ((gReg x (iRa w)) + ((w.truncate 32).signExtend 64))) (s.clu c)) ∧
  (∀ (s : State) (c u : Nat) (w : Word) (x : ArbThread),
     c < 20 →
     u < 64 →
     s.arbAt c u 0x22 w x = true →
     bitsAt w 40 32 = 0 →
     iRb w = 0 →
     x.pc + 1 < (s.clu c).imem.length →
     ∃ t, exec (.arbAndi c u .none) s = .next t ∧
       s.arbNext t c u ((x.issued (x.pc + 1) 1).put (iRd w) ((gReg x (iRa w)) &&& ((w.truncate 32).signExtend 64))) (s.clu c)) ∧
  (∀ (s : State) (c u : Nat) (w : Word) (x : ArbThread),
     c < 20 →
     u < 64 →
     s.arbAt c u 0x23 w x = true →
     bitsAt w 40 32 = 0 →
     iRb w = 0 →
     x.pc + 1 < (s.clu c).imem.length →
     ∃ t, exec (.arbOri c u .none) s = .next t ∧
       s.arbNext t c u ((x.issued (x.pc + 1) 1).put (iRd w) ((gReg x (iRa w)) ||| ((w.truncate 32).signExtend 64))) (s.clu c)) ∧
  (∀ (s : State) (c u : Nat) (w : Word) (x : ArbThread),
     c < 20 →
     u < 64 →
     s.arbAt c u 0x24 w x = true →
     bitsAt w 40 32 = 0 →
     iRb w = 0 →
     x.pc + 1 < (s.clu c).imem.length →
     ∃ t, exec (.arbXori c u .none) s = .next t ∧
       s.arbNext t c u ((x.issued (x.pc + 1) 1).put (iRd w) ((gReg x (iRa w)) ^^^ ((w.truncate 32).signExtend 64))) (s.clu c)) ∧
  (∀ (s : State) (c u : Nat) (w : Word) (x : ArbThread),
     c < 20 →
     u < 64 →
     s.arbAt c u 0x2C w x = true →
     bitsAt w 40 32 = 0 →
     iRb w = 0 →
     x.pc + 1 < (s.clu c).imem.length →
     ∃ t, exec (.arbSltui c u .none) s = .next t ∧
       s.arbNext t c u ((x.issued (x.pc + 1) 1).put (iRd w) (BitVec.ofNat 64 (if (gReg x (iRa w)).ult ((w.truncate 32).signExtend 64) then 1 else 0))) (s.clu c)) ∧
  (∀ (s : State) (c u : Nat) (w : Word) (x : ArbThread),
     c < 20 →
     u < 64 →
     s.arbAt c u 0x26 w x = true →
     bitsAt w 40 32 = 0 →
     iRb w = 0 →
     iImm32 w < 64 →
     x.pc + 1 < (s.clu c).imem.length →
     ∃ t, exec (.arbShli c u .none) s = .next t ∧
       s.arbNext t c u ((x.issued (x.pc + 1) 1).put (iRd w) ((gReg x (iRa w)) <<< (iImm32 w))) (s.clu c)) ∧
  (∀ (s : State) (c u : Nat) (w : Word) (x : ArbThread),
     c < 20 →
     u < 64 →
     s.arbAt c u 0x27 w x = true →
     bitsAt w 40 32 = 0 →
     iRb w = 0 →
     iImm32 w < 64 →
     x.pc + 1 < (s.clu c).imem.length →
     ∃ t, exec (.arbShri c u .none) s = .next t ∧
       s.arbNext t c u ((x.issued (x.pc + 1) 1).put (iRd w) ((gReg x (iRa w)) >>> (iImm32 w))) (s.clu c)) ∧
  (∀ (s : State) (c u : Nat) (w : Word) (x : ArbThread),
     c < 20 →
     u < 64 →
     s.arbAt c u 0x28 w x = true →
     bitsAt w 40 32 = 0 →
     iRb w = 0 →
     iImm32 w < 64 →
     x.pc + 1 < (s.clu c).imem.length →
     ∃ t, exec (.arbSari c u .none) s = .next t ∧
       s.arbNext t c u ((x.issued (x.pc + 1) 1).put (iRd w) ((gReg x (iRa w)).sshiftRight (iImm32 w))) (s.clu c)) ∧
  (∀ (s : State) (c u : Nat) (w : Word) (x : ArbThread),
     c < 20 →
     u < 64 →
     s.arbAt c u 0x2E w x = true →
     bitsAt w 40 32 = 0 →
     iRa w = 0 →
     iRb w = 0 →
     x.pc + 1 < (s.clu c).imem.length →
     ∃ t, exec (.arbMovi c u .none) s = .next t ∧
       s.arbNext t c u ((x.issued (x.pc + 1) 1).put (iRd w) (((w.truncate 32).signExtend 64))) (s.clu c)) ∧
  (∀ (s : State) (c u : Nat) (w : Word) (x : ArbThread),
     c < 20 →
     u < 64 →
     s.arbAt c u 0x2F w x = true →
     bitsAt w 40 32 = 0 →
     iRa w = 0 →
     iRb w = 0 →
     x.pc + 1 < (s.clu c).imem.length →
     ∃ t, exec (.arbMovhi c u .none) s = .next t ∧
       s.arbNext t c u ((x.issued (x.pc + 1) 1).put (iRd w) (BitVec.ofNat 64 (iImm32 w * 2 ^ 32 + (gReg x (iRd w)).toNat % 2 ^ 32))) (s.clu c)) ∧
  (∀ (s : State) (c u : Nat) (w : Word) (x : ArbThread),
     c < 20 →
     u < 64 →
     s.arbAt c u 0x30 w x = true →
     bitsAt w 25 0 = 0 →
     iRb w = 0 →
     fEw w = 0 →
     fLsb w + fW w ≤ 64 →
     x.pc + 1 < (s.clu c).imem.length →
     ∃ t, exec (.arbBfx c u .none) s = .next t ∧
       s.arbNext t c u ((x.issued (x.pc + 1) 1).put (iRd w) (BitVec.ofNat 64 ((gReg x (iRa w)).toNat / 2 ^ fLsb w % 2 ^ fW w))) (s.clu c)) ∧
  (∀ (s : State) (c u : Nat) (w : Word) (x : ArbThread),
     c < 20 →
     u < 64 →
     s.arbAt c u 0x31 w x = true →
     bitsAt w 25 0 = 0 →
     iRb w = 0 →
     fEw w = 0 →
     fLsb w + fW w ≤ 64 →
     x.pc + 1 < (s.clu c).imem.length →
     ∃ t, exec (.arbBfi c u .none) s = .next t ∧
       s.arbNext t c u ((x.issued (x.pc + 1) 1).put (iRd w) (BitVec.ofNat 64 ((gReg x (iRd w)).toNat - (gReg x (iRd w)).toNat / 2 ^ fLsb w % 2 ^ fW w * 2 ^ fLsb w + (gReg x (iRa w)).toNat % 2 ^ fW w * 2 ^ fLsb w))) (s.clu c))

/-- The window, hash, key builder and emit channel instructions of an arbour thread. EXT reads a field of the window
at RA + OFF and INS writes one and notes its bytes as changed; KCPY, KPUT, KCLR and KPROF write the key builder
and its profile; CRC and CRCWIN update a raw CRC32C; EMITF writes a field of a staged word and marks it written;
COMMIT with a free entry hands the packet to the commit buffer with status 0, and waits for an entry otherwise.
Each holds for a thread with a packet whose word has the fields that Table 6-7 asks for and whose address and
key range lie within R163 and R170; all else of the thread and of the block stays as it was, ARB_CLU_ISSUES
counting one. (06_arbour_isa.md R163, 06_arbour_isa.md R164, 06_arbour_isa.md R168, 06_arbour_isa.md R170,
06_arbour_isa.md R171, 06_arbour_isa.md R142) -/
def Obligations.ArbourWindowKeyAndEmit : Prop :=
  (∀ (s : State) (c u : Nat) (w : Word) (x : ArbThread),
     c < 20 →
     u < 64 →
     s.arbAt c u 0x40 w x = true →
     bitsAt w 9 0 = 0 →
     iRb w = 0 →
     wKoff w = 0 →
     wN w = 1 →
     8 * ((gReg x (iRa w)) + BitVec.ofNat 64 (wOff w)).toNat + wBoff w + wW w ≤ 4096 →
     x.base = tRun →
     x.pc + 1 < (s.clu c).imem.length →
     ∃ t, exec (.arbExt c u .none) s = .next t ∧
       s.arbNext t c u ((x.issued (x.pc + 1) 1).put (iRd w) (BitVec.ofNat 64 (winField x.window ((gReg x (iRa w)) + BitVec.ofNat 64 (wOff w)).toNat (wBoff w) (wW w)))) (s.clu c)) ∧
  (∀ (s : State) (c u : Nat) (w : Word) (x : ArbThread),
     c < 20 →
     u < 64 →
     s.arbAt c u 0x41 w x = true →
     bitsAt w 9 0 = 0 →
     iRd w = 0 →
     wKoff w = 0 →
     wN w = 1 →
     8 * ((gReg x (iRa w)) + BitVec.ofNat 64 (wOff w)).toNat + wBoff w + wW w ≤ 4096 →
     x.base = tRun →
     x.committed = false →
     x.pc + 1 < (s.clu c).imem.length →
     ∃ t, exec (.arbIns c u .none) s = .next t ∧
       s.arbNext t c u ({ (x.issued (x.pc + 1) 1) with window := winFieldPut x.window ((gReg x (iRa w)) + BitVec.ofNat 64 (wOff w)).toNat (wBoff w) (wW w) (gReg x (iRb w)).toNat, changed := x.changed ++ (List.range ((wBoff w + wW w + 7) / 8)).map (((gReg x (iRa w)) + BitVec.ofNat 64 (wOff w)).toNat + ·) }) (s.clu c)) ∧
  (∀ (s : State) (c u : Nat) (w : Word) (x : ArbThread),
     c < 20 →
     u < 64 →
     s.arbAt c u 0x42 w x = true →
     bitsAt w 9 0 = 0 →
     iRd w = 0 →
     iRb w = 0 →
     wBoff w = 0 →
     wW w = 1 →
     wN w ≤ 16 →
     ((gReg x (iRa w)) + BitVec.ofNat 64 (wOff w)).toNat + wN w ≤ 512 →
     wKoff w + wN w ≤ 128 →
     x.base = tRun →
     x.committed = false →
     x.pc + 1 < (s.clu c).imem.length →
     ∃ t, exec (.arbKcpy c u .none) s = .next t ∧
       s.arbNext t c u ({ (x.issued (x.pc + 1) 1) with key := bytesPut x.key (wKoff w) (bytesAt x.window ((gReg x (iRa w)) + BitVec.ofNat 64 (wOff w)).toNat (wN w)) }) (s.clu c)) ∧
  (∀ (s : State) (c u : Nat) (w : Word) (x : ArbThread),
     c < 20 →
     u < 64 →
     s.arbAt c u 0x43 w x = true →
     bitsAt w 9 0 = 0 →
     iRb w = 0 →
     wBoff w = 0 →
     wW w = 1 →
     wKoff w = 0 →
     ((gReg x (iRa w)) + BitVec.ofNat 64 (wOff w)).toNat + wN w ≤ 512 →
     x.base = tRun →
     x.pc + 1 < (s.clu c).imem.length →
     ∃ t, exec (.arbCrcwin c u .none) s = .next t ∧
       s.arbNext t c u ((x.issued (x.pc + 1) ((wN w + 15) / 16)).put (iRd w) (crc32c (gReg x (iRd w)) (bytesAt x.window ((gReg x (iRa w)) + BitVec.ofNat 64 (wOff w)).toNat (wN w)))) (s.clu c)) ∧
  (∀ (s : State) (c u : Nat) (w : Word) (x : ArbThread),
     c < 20 →
     u < 64 →
     s.arbAt c u 0x48 w x = true →
     bitsAt w 30 0 = 0 →
     iRd w = 0 →
     iRb w = 0 →
     kKoff w + kN w ≤ 128 →
     x.base = tRun →
     x.committed = false →
     x.pc + 1 < (s.clu c).imem.length →
     ∃ t, exec (.arbKput c u .none) s = .next t ∧
       s.arbNext t c u ({ (x.issued (x.pc + 1) 1) with key := bytesPut x.key (kKoff w) (natBE (kN w) (gReg x (iRa w)).toNat) }) (s.clu c)) ∧
  (∀ (s : State) (c u : Nat) (w : Word) (x : ArbThread),
     c < 20 →
     u < 64 →
     s.arbAt c u 0x49 w x = true →
     bitsAt w 40 0 = 0 →
     iRd w = 0 →
     iRa w = 0 →
     iRb w = 0 →
     x.base = tRun →
     x.committed = false →
     x.pc + 1 < (s.clu c).imem.length →
     ∃ t, exec (.arbKclr c u .none) s = .next t ∧
       s.arbNext t c u ({ (x.issued (x.pc + 1) 1) with key := List.replicate 128 0, profile := 0 }) (s.clu c)) ∧
  (∀ (s : State) (c u : Nat) (w : Word) (x : ArbThread),
     c < 20 →
     u < 64 →
     s.arbAt c u 0x4A w x = true →
     bitsAt w 40 32 = 0 →
     iRd w = 0 →
     iRa w = 0 →
     iRb w = 0 →
     iImm32 w < 256 →
     x.base = tRun →
     x.committed = false →
     x.pc + 1 < (s.clu c).imem.length →
     ∃ t, exec (.arbKprof c u .none) s = .next t ∧
       s.arbNext t c u ({ (x.issued (x.pc + 1) 1) with profile := iImm32 w }) (s.clu c)) ∧
  (∀ (s : State) (c u : Nat) (w : Word) (x : ArbThread),
     c < 20 →
     u < 64 →
     s.arbAt c u 0x50 w x = true →
     bitsAt w 30 0 = 0 →
     kKoff w = 0 →
     x.pc + 1 < (s.clu c).imem.length →
     ∃ t, exec (.arbCrc c u .none) s = .next t ∧
       s.arbNext t c u ((x.issued (x.pc + 1) 1).put (iRd w) (crc32c (gReg x (iRa w)) (natBE (kN w) (gReg x (iRb w)).toNat))) (s.clu c)) ∧
  (∀ (s : State) (c u : Nat) (w : Word) (x : ArbThread),
     c < 20 →
     u < 64 →
     s.arbAt c u 0x70 w x = true →
     bitsAt w 25 0 = 0 →
     iRd w = 0 →
     iRb w = 0 →
     fLsb w + fW w ≤ 64 →
     x.base = tRun →
     x.committed = false →
     x.pc + 1 < (s.clu c).imem.length →
     ∃ t, exec (.arbEmitf c u .none) s = .next t ∧
       s.arbNext t c u ({ (x.issued (x.pc + 1) 1) with ew := x.ew.set (fEw w) (setBits (x.ew.getD (fEw w) 0) (fLsb w + fW w - 1) (fLsb w) (gReg x (iRa w)).toNat), written := x.written ||| 2 ^ fEw w }) (s.clu c)) ∧
  (∀ (s : State) (c u : Nat) (w : Word) (x : ArbThread) (p : ArbPacket),
     c < 20 →
     u < 64 →
     s.arbAt c u 0x71 w x = true →
     bitsAt w 40 26 = 0 →
     iRa w = 0 →
     iRb w = 0 →
     gIdx w = 0 →
     iImm16 w = 0 →
     x.base = tRun →
     x.committed = false →
     x.pkt = some p →
     (s.clu c).commits.length + (s.clu c).reserved < 128 →
     (s.clu c).commitWait = [] →
     x.pc + 1 < (s.clu c).imem.length →
     ∃ t, exec (.arbCommit c u .none) s = .next t ∧
       s.arbNext t c u ({ (x.issued (x.pc + 1) 1).put (iRd w) 0 with committed := true }) { s.clu c with commits := (s.clu c).commits ++ [⟨p.src, p.arrival, commitWords x p, commitData x p, x.key, x.profile, p.prio, p.poison || hGet x.ew CH.poison == 1, false⟩] }) ∧
  (∀ (s : State) (c u : Nat) (w : Word) (x : ArbThread),
     c < 20 →
     u < 64 →
     s.arbAt c u 0x71 w x = true →
     bitsAt w 40 26 = 0 →
     iRa w = 0 →
     iRb w = 0 →
     gIdx w = 0 →
     iImm16 w = 0 →
     x.base = tRun →
     x.committed = false →
     128 ≤ (s.clu c).commits.length + (s.clu c).reserved →
     x.pc + 1 < (s.clu c).imem.length →
     ∃ t, exec (.arbCommit c u .none) s = .next t ∧
       s.arbNext t c u ({ (x.issued (x.pc + 1) 1) with st := tWait, wait := some (.commit (iRd w)) }) { s.clu c with commitWait := (s.clu c).commitWait ++ [u] })

/-- Data memory, Toeplitz, branches and special values of an arbour thread. LD reads 2^SIZE bytes at RA +
sext(IMM16), little-endian and zero-extended; ST is kept as a store of its cycle, beside those of the cycle's other
threads, and data memory once it is applied reads the stored bytes and no other byte changed; TPZ does one Toeplitz step with
the key bytes at IMM16; BR, BRI, JAL and JR set the PC by R165, JAL saving PC + 1; RDS reads a value of Table
6-4, sources 0 to 4 and 7 reading zero without a packet, and source 9 clearing what it read. Each holds where
the word has the fields of Table 6-7, the address is aligned and in range, and the next PC is below INSTR_COUNT;
all else stays as it was, ARB_CLU_ISSUES counting one. (06_arbour_isa.md R165, 06_arbour_isa.md R166,
06_arbour_isa.md R167, 06_arbour_isa.md R169, 06_arbour_isa.md R172) -/
def Obligations.ArbourMemoryBranchesAndSpecials : Prop :=
  (∀ (s : State) (c u : Nat) (w : Word) (x : ArbThread),
     c < 20 →
     u < 64 →
     s.arbAt c u 0x58 w x = true →
     bitsAt w 38 16 = 0 →
     iRb w = 0 →
     ((gReg x (iRa w)) + (w.truncate 16).signExtend 64).toNat % 2 ^ mSize w = 0 →
     ((gReg x (iRa w)) + (w.truncate 16).signExtend 64).toNat + 2 ^ mSize w ≤ 65536 →
     x.pc + 1 < (s.clu c).imem.length →
     ∃ t, exec (.arbLd c u .none) s = .next t ∧
       s.arbNext t c u ((x.issued (x.pc + 1) 1).put (iRd w) (BitVec.ofNat 64 (leNat (s.dmem c u ((gReg x (iRa w)) + (w.truncate 16).signExtend 64).toNat (2 ^ mSize w))))) (s.clu c)) ∧
  (∀ (s : State) (c u : Nat) (w : Word) (x : ArbThread),
     c < 20 →
     u < 64 →
     s.arbAt c u 0x59 w x = true →
     bitsAt w 38 16 = 0 →
     iRd w = 0 →
     ((gReg x (iRa w)) + (w.truncate 16).signExtend 64).toNat % 2 ^ mSize w = 0 →
     ((gReg x (iRa w)) + (w.truncate 16).signExtend 64).toNat + 2 ^ mSize w ≤ 65536 →
     x.pc + 1 < (s.clu c).imem.length →
     ∃ t, exec (.arbSt c u .none) s = .next t ∧
       s.arbNext t c u (x.issued (x.pc + 1) 1) { s.clu c with
         dmem := dmemSeen (s.clu c) u
         stores := (if storesPast (s.clu c) u then [] else (s.clu c).stores) ++
           [⟨u, ((gReg x (iRa w)) + (w.truncate 16).signExtend 64).toNat, natLE (2 ^ mSize w) (gReg x (iRb w)).toNat⟩]
         storeAt := (s.clu c).cycle } ∧
       (storesPast (s.clu c) u = true →
         ∀ q, spGet (fun _ => (0 : Byte)) (dmemAfter (t.clu c)) q = if ((gReg x (iRa w)) + (w.truncate 16).signExtend 64).toNat ≤ q ∧ q < ((gReg x (iRa w)) + (w.truncate 16).signExtend 64).toNat + 2 ^ mSize w then ((gReg x (iRb w)) >>> (8 * (q - ((gReg x (iRa w)) + (w.truncate 16).signExtend 64).toNat))).truncate 8 else spGet (fun _ => (0 : Byte)) (dmemSeen (s.clu c) u) q)) ∧
  (∀ (s : State) (c u : Nat) (w : Word) (x : ArbThread),
     c < 20 →
     u < 64 →
     s.arbAt c u 0x51 w x = true →
     bitsAt w 38 16 = 0 →
     mSize w = 0 →
     iImm16 w % 4 = 0 →
     iImm16 w ≤ 65528 →
     x.pc + 1 < (s.clu c).imem.length →
     ∃ t, exec (.arbTpz c u .none) s = .next t ∧
       s.arbNext t c u ((x.issued (x.pc + 1) 1).put (iRd w) (toeplitz (beNat (s.dmem c u (iImm16 w) 8)) (gReg x (iRa w)) (gReg x (iRb w)))) (s.clu c)) ∧
  (∀ (s : State) (c u : Nat) (w : Word) (x : ArbThread),
     c < 20 →
     u < 64 →
     s.arbAt c u 0x60 w x = true →
     bitsAt w 36 32 = 0 →
     bitsAt w 15 14 = 0 →
     iRd w = 0 →
     bCond w ≤ 8 →
     bImm w = 0 →
     (if condHolds (bCond w) (gReg x (iRa w)) (gReg x (iRb w)) then bTarget w else x.pc + 1) < (s.clu c).imem.length →
     ∃ t, exec (.arbBr c u .none) s = .next t ∧
       s.arbNext t c u (x.issued ((if condHolds (bCond w) (gReg x (iRa w)) (gReg x (iRb w)) then bTarget w else x.pc + 1)) 1) (s.clu c)) ∧
  (∀ (s : State) (c u : Nat) (w : Word) (x : ArbThread),
     c < 20 →
     u < 64 →
     s.arbAt c u 0x61 w x = true →
     bitsAt w 36 32 = 0 →
     bitsAt w 15 14 = 0 →
     iRd w = 0 →
     iRb w = 0 →
     bCond w ≤ 8 →
     (if condHolds (bCond w) (gReg x (iRa w)) (BitVec.ofNat 64 (bImm w)) then bTarget w else x.pc + 1) < (s.clu c).imem.length →
     ∃ t, exec (.arbBri c u .none) s = .next t ∧
       s.arbNext t c u (x.issued ((if condHolds (bCond w) (gReg x (iRa w)) (BitVec.ofNat 64 (bImm w)) then bTarget w else x.pc + 1)) 1) (s.clu c)) ∧
  (∀ (s : State) (c u : Nat) (w : Word) (x : ArbThread),
     c < 20 →
     u < 64 →
     s.arbAt c u 0x62 w x = true →
     bitsAt w 36 32 = 0 →
     bitsAt w 15 14 = 0 →
     iRa w = 0 →
     iRb w = 0 →
     bCond w = 0 →
     bImm w = 0 →
     bTarget w < (s.clu c).imem.length →
     ∃ t, exec (.arbJal c u .none) s = .next t ∧
       s.arbNext t c u ((x.issued (bTarget w) 1).put (iRd w) (BitVec.ofNat 64 (x.pc + 1))) (s.clu c)) ∧
  (∀ (s : State) (c u : Nat) (w : Word) (x : ArbThread),
     c < 20 →
     u < 64 →
     s.arbAt c u 0x63 w x = true →
     bitsAt w 36 32 = 0 →
     bitsAt w 15 14 = 0 →
     iRd w = 0 →
     iRb w = 0 →
     bCond w = 0 →
     bImm w = 0 →
     bTarget w = 0 →
     (gReg x (iRa w)).toNat < 2 ^ 14 →
     (gReg x (iRa w)).toNat < (s.clu c).imem.length →
     ∃ t, exec (.arbJr c u .none) s = .next t ∧
       s.arbNext t c u (x.issued ((gReg x (iRa w)).toNat) 1) (s.clu c)) ∧
  (∀ (s : State) (c u : Nat) (w : Word) (x : ArbThread) (p : ArbPacket),
     c < 20 →
     u < 64 →
     s.arbAt c u 0x68 w x = true →
     bitsAt w 40 32 = 0 →
     iRa w = 0 →
     iRb w = 0 →
     iImm32 w < 9 →
     x.pkt = some p →
     x.pc + 1 < (s.clu c).imem.length →
     ∃ t, exec (.arbRds c u .none) s = .next t ∧
       s.arbNext t c u ((x.issued (x.pc + 1) 1).put (iRd w) (BitVec.ofNat 64 ([p.len, p.src, p.arrival, p.ruleVer, p.prio, c * 256 + u, (s.clu c).cycle, p.ns * 2 ^ 16 + p.frac, x.st].getD (iImm32 w) 0))) (s.clu c)) ∧
  (∀ (s : State) (c u : Nat) (w : Word) (x : ArbThread),
     c < 20 →
     u < 64 →
     s.arbAt c u 0x68 w x = true →
     bitsAt w 40 32 = 0 →
     iRa w = 0 →
     iRb w = 0 →
     iImm32 w < 9 →
     x.pkt = none →
     x.pc + 1 < (s.clu c).imem.length →
     ∃ t, exec (.arbRds c u .none) s = .next t ∧
       s.arbNext t c u ((x.issued (x.pc + 1) 1).put (iRd w) (BitVec.ofNat 64 ([0, 0, 0, 0, 0, c * 256 + u, (s.clu c).cycle, 0, x.st].getD (iImm32 w) 0))) (s.clu c)) ∧
  (∀ (s : State) (c u : Nat) (w : Word) (x : ArbThread),
     c < 20 →
     u < 64 →
     s.arbAt c u 0x68 w x = true →
     bitsAt w 40 32 = 0 →
     iRa w = 0 →
     iRb w = 0 →
     iImm32 w = 9 →
     x.pc + 1 < (s.clu c).imem.length →
     ∃ t, exec (.arbRds c u .none) s = .next t ∧
       s.arbNext t c u ((x.issued (x.pc + 1) 1).put (iRd w) (BitVec.ofNat 64 (s.clu c).svcCause)) { s.clu c with svcCause := 0 })

/-- Locks, counters, sequencers, PARK, TSET, END and RELEASE of an arbour thread. LOCK takes a free lock with status
0 and waits behind the waiters of one that is held; UNLOCK lets go a lock without waiters, and gives one with
waiters to the oldest, whose LOCK ends with 0; SIGNAL adds its amount to its counter modulo 2^32, disturbing
nobody when nobody waits and ending a WAIT that it meets; WAIT and PARK end at once with 0 when the counter is
at or past RB and suspend the thread otherwise; ORDER passes its sequencer once, or waits when a packet
dispatched earlier has neither passed nor ended; TSET moves the threads whose bits are set in RA; END makes the
thread IDLE and counts a packet that was not committed as dropped; RELEASE opens the cluster and makes its
thread IDLE. (06_arbour_isa.md R173, 06_arbour_isa.md R174, 06_arbour_isa.md R175, 06_arbour_isa.md R176,
05_arbour_cores.md R144, 05_arbour_cores.md R145, 05_arbour_cores.md R146, 05_arbour_cores.md R137) -/
def Obligations.ArbourGatehouse : Prop :=
  (∀ (s : State) (c u : Nat) (w : Word) (x : ArbThread) (l : ArbLock),
     c < 20 →
     u < 64 →
     s.arbAt c u 0x78 w x = true →
     bitsAt w 40 26 = 0 →
     iRb w = 0 →
     iImm16 w = 0 →
     ((gReg x (iRa w)) + BitVec.ofNat 64 (gIdx w)).toNat % 1024 ∉ x.locks →
     x.locks.length < 16 →
     (spGet (fun _ => ⟨none, []⟩) (s.clu c).locks (((gReg x (iRa w)) + BitVec.ofNat 64 (gIdx w)).toNat % 1024) = l) →
     l.holder = none →
     x.pc + 1 < (s.clu c).imem.length →
     ∃ t, exec (.arbLock c u .none) s = .next t ∧
       (s.arbNext t c u ({ (x.issued (x.pc + 1) 1).put (iRd w) 0 with locks := (((gReg x (iRa w)) + BitVec.ofNat 64 (gIdx w)).toNat % 1024) :: x.locks }) { s.clu c with locks := spSet (fun _ => ⟨none, []⟩) (s.clu c).locks (((gReg x (iRa w)) + BitVec.ofNat 64 (gIdx w)).toNat % 1024) ⟨some u, l.waiters⟩ })) ∧
  (∀ (s : State) (c u : Nat) (w : Word) (x : ArbThread) (h : Nat) (ws : List Nat),
     c < 20 →
     u < 64 →
     s.arbAt c u 0x78 w x = true →
     bitsAt w 40 26 = 0 →
     iRb w = 0 →
     iImm16 w = 0 →
     ((gReg x (iRa w)) + BitVec.ofNat 64 (gIdx w)).toNat % 1024 ∉ x.locks →
     x.locks.length < 16 →
     (spGet (fun _ => ⟨none, []⟩) (s.clu c).locks (((gReg x (iRa w)) + BitVec.ofNat 64 (gIdx w)).toNat % 1024) = ⟨some h, ws⟩) →
     x.pc + 1 < (s.clu c).imem.length →
     ∃ t, exec (.arbLock c u .none) s = .next t ∧
       (s.arbNext t c u ({ (x.issued (x.pc + 1) 1) with st := tWait, wait := some (.lock (((gReg x (iRa w)) + BitVec.ofNat 64 (gIdx w)).toNat % 1024) (iRd w)) }) { s.clu c with locks := spSet (fun _ => ⟨none, []⟩) (s.clu c).locks (((gReg x (iRa w)) + BitVec.ofNat 64 (gIdx w)).toNat % 1024) ⟨some h, ws ++ [u]⟩ })) ∧
  (∀ (s : State) (c u : Nat) (w : Word) (x : ArbThread),
     c < 20 →
     u < 64 →
     s.arbAt c u 0x79 w x = true →
     bitsAt w 40 26 = 0 →
     iRd w = 0 →
     iRb w = 0 →
     iImm16 w = 0 →
     ((gReg x (iRa w)) + BitVec.ofNat 64 (gIdx w)).toNat % 1024 ∈ x.locks →
     ((spGet (fun _ => ⟨none, []⟩) (s.clu c).locks (((gReg x (iRa w)) + BitVec.ofNat 64 (gIdx w)).toNat % 1024)).waiters = []) →
     x.pc + 1 < (s.clu c).imem.length →
     ∃ t, exec (.arbUnlock c u .none) s = .next t ∧
       (s.arbNext t c u ({ (x.issued (x.pc + 1) 1) with locks := x.locks.filter (· != ((gReg x (iRa w)) + BitVec.ofNat 64 (gIdx w)).toNat % 1024) }) { s.clu c with locks := spSet (fun _ => ⟨none, []⟩) (s.clu c).locks (((gReg x (iRa w)) + BitVec.ofNat 64 (gIdx w)).toNat % 1024) ⟨none, []⟩ })) ∧
  (∀ (s : State) (c u : Nat) (w : Word) (x : ArbThread) (h : Option Nat) (v r : Nat) (ws : List Nat),
     c < 20 →
     u < 64 →
     s.arbAt c u 0x79 w x = true →
     bitsAt w 40 26 = 0 →
     iRd w = 0 →
     iRb w = 0 →
     iImm16 w = 0 →
     ((gReg x (iRa w)) + BitVec.ofNat 64 (gIdx w)).toNat % 1024 ∈ x.locks →
     (spGet (fun _ => ⟨none, []⟩) (s.clu c).locks (((gReg x (iRa w)) + BitVec.ofNat 64 (gIdx w)).toNat % 1024) = ⟨h, v :: ws⟩) →
     v ≠ u →
     (s.thr c v).wait = some (.lock (((gReg x (iRa w)) + BitVec.ofNat 64 (gIdx w)).toNat % 1024) r) →
     (s.thr c v).st ≠ tHalt →
     x.pc + 1 < (s.clu c).imem.length →
     ∃ t, exec (.arbUnlock c u .none) s = .next t ∧
       (spGet (fun _ => ⟨none, []⟩) (t.clu c).locks (((gReg x (iRa w)) + BitVec.ofNat 64 (gIdx w)).toNat % 1024) = ⟨some v, ws⟩) ∧
       t.thr c v = { (s.thr c v).put r 0 with st := (s.thr c v).base, wait := none, locks := (((gReg x (iRa w)) + BitVec.ofNat 64 (gIdx w)).toNat % 1024) :: (s.thr c v).locks } ∧
       t.thr c u = { (x.issued (x.pc + 1) 1) with locks := x.locks.filter (· != ((gReg x (iRa w)) + BitVec.ofNat 64 (gIdx w)).toNat % 1024) } ∧
       s.sameRegs t [R.ARB_CLU_ISSUES c] ∧
       s.sameBut t [.regs, .arb]) ∧
  (∀ (s : State) (c u : Nat) (w : Word) (x : ArbThread),
     c < 20 →
     u < 64 →
     s.arbAt c u 0x7A w x = true →
     bitsAt w 40 26 = 0 →
     iRd w = 0 →
     iRb w = 0 →
     gIdx w < 256 →
     1 ≤ iImm16 w →
     iImm16 w ≤ 255 →
     (∀ v, v < 64 → (s.thr c v).wait = none) →
     x.pc + 1 < (s.clu c).imem.length →
     ∃ t, exec (.arbSignal c u .none) s = .next t ∧
       (s.arbNext t c u (x.issued (x.pc + 1) 1) { s.clu c with counters := spSet (fun _ => 0) (s.clu c).counters (((gReg x (iRa w)) + BitVec.ofNat 64 (gIdx w)).toNat % 256) ((s.counter c (((gReg x (iRa w)) + BitVec.ofNat 64 (gIdx w)).toNat % 256) + iImm16 w) % 2 ^ 32) })) ∧
  (∀ (s : State) (c u : Nat) (w : Word) (x : ArbThread) (v n r : Nat),
     c < 20 →
     u < 64 →
     s.arbAt c u 0x7A w x = true →
     bitsAt w 40 26 = 0 →
     iRd w = 0 →
     iRb w = 0 →
     gIdx w < 256 →
     1 ≤ iImm16 w →
     iImm16 w ≤ 255 →
     x.wait = none →
     v < 64 →
     v ≠ u →
     (s.thr c v).wait = some (.counter (((gReg x (iRa w)) + BitVec.ofNat 64 (gIdx w)).toNat % 256) n r) →
     (s.thr c v).outcome = none →
     (s.thr c v).st ≠ tHalt →
     ((s.counter c (((gReg x (iRa w)) + BitVec.ofNat 64 (gIdx w)).toNat % 256) + iImm16 w) % 2 ^ 32 + 2 ^ 32 - n % 2 ^ 32) % 2 ^ 32 < 2 ^ 31 →
     x.pc + 1 < (s.clu c).imem.length →
     ∃ t, exec (.arbSignal c u .none) s = .next t ∧
       t.thr c v = { (s.thr c v).put r 0 with st := (s.thr c v).base, wait := none } ∧
       t.thr c u = (x.issued (x.pc + 1) 1) ∧
       t.counter c (((gReg x (iRa w)) + BitVec.ofNat 64 (gIdx w)).toNat % 256) = (s.counter c (((gReg x (iRa w)) + BitVec.ofNat 64 (gIdx w)).toNat % 256) + iImm16 w) % 2 ^ 32 ∧
       s.sameRegs t [R.ARB_CLU_ISSUES c] ∧
       s.sameBut t [.regs, .arb]) ∧
  (∀ (s : State) (c u : Nat) (w : Word) (x : ArbThread),
     c < 20 →
     u < 64 →
     s.arbAt c u 0x7B w x = true →
     bitsAt w 40 26 = 0 →
     gIdx w < 256 →
     iImm16 w = 0 →
     (s.counter c (((gReg x (iRa w)) + BitVec.ofNat 64 (gIdx w)).toNat % 256) + 2 ^ 32 - bitsAt (gReg x (iRb w)) 31 0) % 2 ^ 32 < 2 ^ 31 →
     x.pc + 1 < (s.clu c).imem.length →
     ∃ t, exec (.arbWait c u .none) s = .next t ∧
       s.arbNext t c u ((x.issued (x.pc + 1) 1).put (iRd w) (0)) (s.clu c)) ∧
  (∀ (s : State) (c u : Nat) (w : Word) (x : ArbThread),
     c < 20 →
     u < 64 →
     s.arbAt c u 0x7B w x = true →
     bitsAt w 40 26 = 0 →
     gIdx w < 256 →
     iImm16 w = 0 →
     2 ^ 31 ≤ (s.counter c (((gReg x (iRa w)) + BitVec.ofNat 64 (gIdx w)).toNat % 256) + 2 ^ 32 - bitsAt (gReg x (iRb w)) 31 0) % 2 ^ 32 →
     x.pc + 1 < (s.clu c).imem.length →
     ∃ t, exec (.arbWait c u .none) s = .next t ∧
       s.arbNext t c u ({ (x.issued (x.pc + 1) 1) with st := tWait, wait := some (.counter (((gReg x (iRa w)) + BitVec.ofNat 64 (gIdx w)).toNat % 256) (bitsAt (gReg x (iRb w)) 31 0) (iRd w)) }) (s.clu c)) ∧
  (∀ (s : State) (c u : Nat) (w : Word) (x : ArbThread),
     c < 20 →
     u < 64 →
     s.arbAt c u 0x7D w x = true →
     bitsAt w 40 26 = 0 →
     gIdx w < 256 →
     (s.counter c (((gReg x (iRa w)) + BitVec.ofNat 64 (gIdx w)).toNat % 256) + 2 ^ 32 - bitsAt (gReg x (iRb w)) 31 0) % 2 ^ 32 < 2 ^ 31 →
     x.pc + 1 < (s.clu c).imem.length →
     ∃ t, exec (.arbPark c u .none) s = .next t ∧
       s.arbNext t c u ((x.issued (x.pc + 1) 1).put (iRd w) (0)) (s.clu c)) ∧
  (∀ (s : State) (c u : Nat) (w : Word) (x : ArbThread),
     c < 20 →
     u < 64 →
     s.arbAt c u 0x7D w x = true →
     bitsAt w 40 26 = 0 →
     gIdx w < 256 →
     2 ^ 31 ≤ (s.counter c (((gReg x (iRa w)) + BitVec.ofNat 64 (gIdx w)).toNat % 256) + 2 ^ 32 - bitsAt (gReg x (iRb w)) 31 0) % 2 ^ 32 →
     x.pc + 1 < (s.clu c).imem.length →
     ∃ t, exec (.arbPark c u .none) s = .next t ∧
       s.arbNext t c u ({ (x.issued (x.pc + 1) 1) with st := tPark, wait := some (.park (((gReg x (iRa w)) + BitVec.ofNat 64 (gIdx w)).toNat % 256) (bitsAt (gReg x (iRb w)) 31 0) (iRd w) (iImm16 w)) }) (s.clu c)) ∧
  (∀ (s : State) (c u : Nat) (w : Word) (x : ArbThread),
     c < 20 →
     u < 64 →
     s.arbAt c u 0x7C w x = true →
     bitsAt w 40 26 = 0 →
     iRb w = 0 →
     gIdx w < 16 →
     iImm16 w = 0 →
     x.pkt ≠ none →
     ((gReg x (iRa w)) + BitVec.ofNat 64 (gIdx w)).toNat % 16 ∉ x.passed →
     (∀ v, v < 64 → (s.thr c v).wait = none) →
     (∀ v, v < 64 → (s.thr c v).pkt = none ∨ x.order ≤ (s.thr c v).order ∨ ((gReg x (iRa w)) + BitVec.ofNat 64 (gIdx w)).toNat % 16 ∈ (s.thr c v).passed) →
     x.pc + 1 < (s.clu c).imem.length →
     ∃ t, exec (.arbOrder c u .none) s = .next t ∧
       (s.arbNext t c u ({ (x.issued (x.pc + 1) 1).put (iRd w) 0 with passed := (((gReg x (iRa w)) + BitVec.ofNat 64 (gIdx w)).toNat % 16) :: x.passed }) { s.clu c with seqCounts := spSet (fun _ => 0) (s.clu c).seqCounts (((gReg x (iRa w)) + BitVec.ofNat 64 (gIdx w)).toNat % 16) ((spGet (fun _ => 0) (s.clu c).seqCounts (((gReg x (iRa w)) + BitVec.ofNat 64 (gIdx w)).toNat % 16) + 1) % 2 ^ 32) })) ∧
  (∀ (s : State) (c u : Nat) (w : Word) (x : ArbThread) (v : Nat),
     c < 20 →
     u < 64 →
     s.arbAt c u 0x7C w x = true →
     bitsAt w 40 26 = 0 →
     iRb w = 0 →
     gIdx w < 16 →
     iImm16 w = 0 →
     x.pkt ≠ none →
     v < 64 →
     v ≠ u →
     (s.thr c v).pkt ≠ none →
     (s.thr c v).order < x.order →
     ((gReg x (iRa w)) + BitVec.ofNat 64 (gIdx w)).toNat % 16 ∉ (s.thr c v).passed →
     x.pc + 1 < (s.clu c).imem.length →
     ∃ t, exec (.arbOrder c u .none) s = .next t ∧
       s.arbNext t c u ({ (x.issued (x.pc + 1) 1) with st := tWait, wait := some (.order (((gReg x (iRa w)) + BitVec.ofNat 64 (gIdx w)).toNat % 16) (iRd w)) }) (s.clu c)) ∧
  (∀ (s : State) (c u : Nat) (w : Word) (x : ArbThread),
     c < 20 →
     u < 64 →
     s.arbAt c u 0x7E w x = true →
     bitsAt w 40 26 = 0 →
     iRd w = 0 →
     iRb w = 0 →
     gIdx w < 8 →
     iImm16 w = 0 →
     x.base = tInit →
     x.pc + 1 < (s.clu c).imem.length →
     ∃ t, exec (.arbTset c u .none) s = .next t ∧
       (∀ v, v < 64 → (t.thr c v).set = if bitAt (gReg x (iRa w)) v then gIdx w else (s.thr c v).set) ∧
       (t.thr c u).pc = x.pc + 1 ∧
       (∀ v, v < 64 → (t.thr c v).regs = (s.thr c v).regs ∧ (t.thr c v).st = (s.thr c v).st) ∧
       s.sameRegs t [R.ARB_CLU_ISSUES c] ∧
       s.sameBut t [.regs, .arb]) ∧
  (∀ (s : State) (c u : Nat) (w : Word) (x : ArbThread) (p : ArbPacket),
     c < 20 →
     u < 64 →
     s.arbAt c u 0x76 w x = true →
     bitsAt w 40 0 = 0 →
     iRd w = 0 →
     iRa w = 0 →
     iRb w = 0 →
     x.base ≠ tInit →
     x.pkt = some p →
     x.committed = false →
     x.locks = [] →
     x.wait = none →
     u ∉ (s.clu c).commitWait →
     (u ≠ 0 ∨ (s.clu c).svcReq = false) →
     ∃ t, exec (.arbEnd c u .none) s = .next t ∧
       t.thr c u = { threadReset u with set := x.set, haltPending := x.haltPending } ∧
       t.get F.ARB_DROP_COUNT_COUNT = min 0xFFFFFFFF (s.get F.ARB_DROP_COUNT_COUNT + 1) ∧
       (∀ f, f ∈ t.frames ↔ f ∈ s.frames ∧ ¬(f.src = p.src ∧ f.arrival = p.arrival)) ∧
       s.sameRegs t [R.ARB_CLU_ISSUES c, R.ARB_DROP_COUNT] ∧
       s.sameBut t [.regs, .arb, .frames, .eth, .out]) ∧
  (∀ (s : State) (c u : Nat) (w : Word) (x : ArbThread),
     c < 20 →
     u < 64 →
     s.arbAt c u 0x76 w x = true →
     bitsAt w 40 0 = 0 →
     iRd w = 0 →
     iRa w = 0 →
     iRb w = 0 →
     x.base ≠ tInit →
     (x.committed = true ∨ x.pkt = none) →
     x.locks = [] →
     x.wait = none →
     (u ≠ 0 ∨ (s.clu c).svcReq = false) →
     ∃ t, exec (.arbEnd c u .none) s = .next t ∧
       t.thr c u = { threadReset u with set := x.set, haltPending := x.haltPending } ∧
       s.sameRegs t [R.ARB_CLU_ISSUES c] ∧
       s.sameBut t [.regs, .arb]) ∧
  (∀ (s : State) (c u : Nat) (w : Word) (x : ArbThread),
     c < 20 →
     u < 64 →
     s.arbAt c u 0x7F w x = true →
     bitsAt w 40 0 = 0 →
     iRd w = 0 →
     iRa w = 0 →
     iRb w = 0 →
     x.base = tInit →
     x.pkt = none →
     x.locks = [] →
     x.wait = none →
     (u ≠ 0 ∨ (s.clu c).svcReq = false) →
     ∃ t, exec (.arbRelease c u .none) s = .next t ∧
       t.cluState c = cReleased ∧
       t.thr c u = { threadReset u with set := x.set, haltPending := x.haltPending } ∧
       s.sameRegs t [R.ARB_CLU_ISSUES c, R.ARB_CLU_STATE c] ∧
       s.sameBut t [.regs, .arb])

/-- An instruction that meets a cause of exception has no effect and is recorded. A word with a reserved opcode, the
all-zero word beyond the image among them, and an arithmetic instruction whose next PC is at or above
INSTR_COUNT are exceptions: FC 0x1105 is recorded, ARB_EXC_LAST becomes valid with the cause, the thread, the
opcode and the PC, a master thread in SERVICE returns to IDLE, and no other state of the cluster changes when no
other thread waits. (That the row NOP also issues words with a reserved opcode is the model's choice, in the
assumption log.) (06_arbour_isa.md R160, 06_arbour_isa.md R177, 06_arbour_isa.md R179, 06_arbour_isa.md R180) -/
def Obligations.ArbourExceptions : Prop :=
  (∀ (s : State) (c u op : Nat) (w : Word) (x : ArbThread),
     c < 20 →
     u < 64 →
     s.arbAt c u op w x = true →
     x.pc < 2 ^ 14 →
     op ∉ arbOpcodes →
     x.base = tService →
     x.pkt = none →
     x.locks = [] →
     x.wait = none →
     (s.clu c).svcReq = false →
     ∃ t, exec (.arbNop c u .none) s = .next t ∧
       t.hasError uArb 4 ∧
       t.get (F.ARB_EXC_LAST_VALID c) = 1 ∧
       t.get (F.ARB_EXC_LAST_CAUSE c) = 1 ∧
       t.get (F.ARB_EXC_LAST_THREAD c) = u ∧
       t.get (F.ARB_EXC_LAST_OPCODE c) = op ∧
       t.get (F.ARB_EXC_LAST_PC c) = x.pc ∧
       t.thr c u = { threadReset u with set := x.set, haltPending := x.haltPending } ∧
       (t.clu c).dmem = (s.clu c).dmem ∧ (t.clu c).counters = (s.clu c).counters ∧ (t.clu c).locks = (s.clu c).locks ∧
       t.get (F.ARB_CLU_ISSUES_COUNT c) = (s.get (F.ARB_CLU_ISSUES_COUNT c) + 1) % 2 ^ 64 ∧
       s.sameBut t [.regs, .arb, .pcie, .out, .aia]) ∧
  (∀ (s : State) (c u op : Nat) (w : Word) (x : ArbThread),
     c < 20 →
     u < 64 →
     s.arbAt c u op w x = true →
     x.pc < 2 ^ 14 →
     op = 0x10 →
     bitsAt w 40 0 = 0 →
     (s.clu c).imem.length ≤ x.pc + 1 →
     x.base = tService →
     x.pkt = none →
     x.locks = [] →
     x.wait = none →
     (s.clu c).svcReq = false →
     ∃ t, exec (.arbAdd c u .none) s = .next t ∧
       t.hasError uArb 4 ∧
       t.get (F.ARB_EXC_LAST_VALID c) = 1 ∧
       t.get (F.ARB_EXC_LAST_CAUSE c) = 5 ∧
       t.get (F.ARB_EXC_LAST_THREAD c) = u ∧
       t.get (F.ARB_EXC_LAST_OPCODE c) = op ∧
       t.get (F.ARB_EXC_LAST_PC c) = x.pc ∧
       t.thr c u = { threadReset u with set := x.set, haltPending := x.haltPending } ∧
       (t.clu c).dmem = (s.clu c).dmem ∧ (t.clu c).counters = (s.clu c).counters ∧ (t.clu c).locks = (s.clu c).locks ∧
       t.get (F.ARB_CLU_ISSUES_COUNT c) = (s.get (F.ARB_CLU_ISSUES_COUNT c) + 1) % 2 ^ 64 ∧
       s.sameBut t [.regs, .arb, .pcie, .out, .aia])

/-- Rule versions are committed, applied and retired, and the sweep clears bounds. GO sets PENDING, and with four
versions live also STALL and 0x1201; a pending commit applies when fewer than four are live and no sweep runs,
raising COMMITTED, LIVE and GEN and making the staged tag live; the oldest version retires when no packet is in
flight under it, OLDEST advances to the next version that is committed or in flight, and a sweep starts; at its
end the sweep has invalidated the entries of allocated banks whose LAST lies behind the advance and has cleared
FIRST_EN of those whose FIRST has become oldest, keeping values, masks and the entries of banks that are not
allocated. (07_classification.md R190, 07_classification.md R191, 07_classification.md R192, 01_architecture.md
R24) -/
def Obligations.RuleVersions : Prop :=
  (∀ (s : State),
     s.get F.ACM_VER_COMMIT_PENDING = 0 →
     s.get F.ACM_VER_STATUS_LIVE ≠ 4 →
     ∃ t, exec .acmVerCommitGo s = .next t ∧
       t.get F.ACM_VER_COMMIT_PENDING = 1 ∧
       s.sameRegs t [R.ACM_VER_COMMIT] ∧
       s.sameBut t [.regs]) ∧
  (∀ (s : State),
     s.get F.ACM_VER_COMMIT_PENDING = 0 →
     s.get F.ACM_VER_STATUS_LIVE = 4 →
     ∃ t, exec .acmVerCommitGo s = .next t ∧
       t.get F.ACM_VER_COMMIT_PENDING = 1 ∧ t.get F.ACM_VER_STATUS_STALL = 1 ∧
       t.hasError uAcm 0 ∧
       s.sameBut t [.regs, .pcie, .out, .aia]) ∧
  (∀ (s : State),
     s.get F.ACM_VER_COMMIT_PENDING = 1 →
     s.get F.ACM_VER_STATUS_LIVE < 4 →
     s.acm.sweep = none →
     s.epHeld 0x1A0 = false →
     ∃ t, exec .acmVerApply s = .next t ∧
       t.committed = (s.committed + 1) % 16 ∧
       t.get F.ACM_VER_STATUS_LIVE = s.get F.ACM_VER_STATUS_LIVE + 1 ∧
       t.get F.ACM_VER_STATUS_STALL = 0 ∧
       t.oldest = s.oldest ∧
       t.get F.ACM_VER_LIVE_TAG_TAG = s.get F.ACM_VER_STG_TAG ∧
       t.get F.ACM_VER_COMMIT_PENDING = 0 ∧
       t.get F.ACM_VER_GEN_GEN = (s.get F.ACM_VER_GEN_GEN + 1) % 2 ^ 32 ∧
       s.sameRegs t [R.ACM_VER_STATUS, R.ACM_VER_LIVE_TAG, R.ACM_VER_COMMIT, R.ACM_VER_GEN] ∧
       s.sameBut t [.regs]) ∧
  (∀ (s : State),
     s.acm.sweep = none →
     s.epHeld 0x1A0 = false →
     s.oldest ≠ s.committed →
     s.inFlight s.oldest = 0 →
     ((s.oldest + 1) % 16 = s.committed ∨ s.inFlight ((s.oldest + 1) % 16) ≠ 0) →
     ∃ t, exec .versionRetire s = .next t ∧
       t.oldest = (s.oldest + 1) % 16 ∧
       t.get F.ACM_VER_STATUS_SWEEP = 1 ∧ t.get F.ACM_VER_STATUS_STALL = 0 ∧
       t.committed = s.committed ∧
       t.acm = { s.acm with sweep := some (s.oldest, 1) } ∧
       s.sameRegs t [R.ACM_VER_STATUS] ∧
       s.sameBut t [.regs, .acm]) ∧
  (∀ (s : State) (h d : Nat),
     s.acm.sweep = some (h, d) →
     s.epHeld 0x1A0 = false →
     (s.acm.entries.map Prod.fst).Nodup →
     ∃ t, exec .sweepEnd s = .next t ∧
       t.acm.sweep = none ∧
       t.get F.ACM_VER_STATUS_SWEEP = 0 ∧
       (∀ b i, i < 2048 → bankAlloc s.plan b = true → cValid (t.acmEntry b i).ctrl = (cValid (s.acmEntry b i).ctrl && !(cLastEn (s.acmEntry b i).ctrl && decide (verPos h (cLast (s.acmEntry b i).ctrl) < d)))) ∧
       (∀ b i, i < 2048 → bankAlloc s.plan b = true → cFirstEn (t.acmEntry b i).ctrl = (cFirstEn (s.acmEntry b i).ctrl && !decide (verPos h (cFirst (s.acmEntry b i).ctrl) ≤ d))) ∧
       (∀ b i, i < 2048 → (t.acmEntry b i).val = (s.acmEntry b i).val ∧ (t.acmEntry b i).mask = (s.acmEntry b i).mask ∧ cAct (t.acmEntry b i).ctrl = cAct (s.acmEntry b i).ctrl) ∧
       (∀ b i, i < 2048 → bankAlloc s.plan b = false → t.acmEntry b i = s.acmEntry b i) ∧
       s.sameRegs t [R.ACM_VER_STATUS] ∧
       s.sameBut t [.regs, .acm])

/-- Entries, actions, policers and indirection entries are commanded, read and written. An entry command is taken
with its address and the buffer of that moment, and completes: WRITE replaces the entry, WRITE_CTRL its control
word, READ copies it to the buffer, INVALIDATE clears VALID; a shift is taken when the place beside its range is
free, refused with 0x1208 when it is not, and moves every entry one place; the parity scan invalidates a failing
entry with 0x1204; action entries and policers are written whole from the registers, buckets filled, and read
back; a write of an indirection register replaces two entries. Every other entry, action, policer, register and
part is as before. (07_classification.md R193, 07_classification.md R194, 07_classification.md R195,
07_classification.md R196, 07_classification.md R197, 07_classification.md R202, 07_classification.md R204) -/
def Obligations.EntryCommandsAndActions : Prop :=
  (∀ (s : State),
     s.acm.cmd = none →
     s.acm.shift = none →
     bankAlloc s.plan (s.get F.ACM_ENT_ADDR_BANK) = true →
     s.underAmendment secAcmBanks 0 (256 + s.get F.ACM_ENT_ADDR_BANK) = false →
     ∃ t, exec .acmEntWrite s = .next t ∧
       t.get F.ACM_ENT_STATUS_BUSY = 1 ∧
       (t.acm = { s.acm with cmd := some ⟨1, s.get F.ACM_ENT_ADDR_BANK, s.get F.ACM_ENT_ADDR_ENTRY, ⟨(List.range 10).map fun w => s.rd (R.ACM_EBUF_VAL w), (List.range 10).map fun w => s.rd (R.ACM_EBUF_MASK w), s.rd R.ACM_EBUF_CTRL⟩⟩ }) ∧
       s.sameRegs t [R.ACM_ENT_STATUS] ∧
       s.sameBut t [.regs, .acm]) ∧
  (∀ (s : State),
     s.acm.cmd = none →
     s.acm.shift = none →
     bankAlloc s.plan (s.get F.ACM_ENT_ADDR_BANK) = true →
     s.underAmendment secAcmBanks 0 (256 + s.get F.ACM_ENT_ADDR_BANK) = false →
     ∃ t, exec .acmEntWriteCtrl s = .next t ∧
       t.get F.ACM_ENT_STATUS_BUSY = 1 ∧
       (t.acm.cmd.map (fun k => (k.op, k.bank, k.entry, k.buf.ctrl)) = some (2, s.get F.ACM_ENT_ADDR_BANK, s.get F.ACM_ENT_ADDR_ENTRY, s.rd R.ACM_EBUF_CTRL)) ∧
       { t.acm with cmd := none } = { s.acm with cmd := none } ∧
       s.sameRegs t [R.ACM_ENT_STATUS] ∧
       s.sameBut t [.regs, .acm]) ∧
  (∀ (s : State),
     s.acm.cmd = none →
     s.acm.shift = none →
     bankAlloc s.plan (s.get F.ACM_ENT_ADDR_BANK) = true →
     s.underAmendment secAcmBanks 0 (256 + s.get F.ACM_ENT_ADDR_BANK) = false →
     ∃ t, exec .acmEntRead s = .next t ∧
       t.get F.ACM_ENT_STATUS_BUSY = 1 ∧
       (t.acm.cmd.map (fun k => (k.op, k.bank, k.entry)) = some (3, s.get F.ACM_ENT_ADDR_BANK, s.get F.ACM_ENT_ADDR_ENTRY)) ∧
       { t.acm with cmd := none } = { s.acm with cmd := none } ∧
       s.sameRegs t [R.ACM_ENT_STATUS] ∧
       s.sameBut t [.regs, .acm]) ∧
  (∀ (s : State),
     s.acm.cmd = none →
     s.acm.shift = none →
     bankAlloc s.plan (s.get F.ACM_ENT_ADDR_BANK) = true →
     s.underAmendment secAcmBanks 0 (256 + s.get F.ACM_ENT_ADDR_BANK) = false →
     ∃ t, exec .acmEntInvalidate s = .next t ∧
       t.get F.ACM_ENT_STATUS_BUSY = 1 ∧
       (t.acm.cmd.map (fun k => (k.op, k.bank, k.entry)) = some (4, s.get F.ACM_ENT_ADDR_BANK, s.get F.ACM_ENT_ADDR_ENTRY)) ∧
       { t.acm with cmd := none } = { s.acm with cmd := none } ∧
       s.sameRegs t [R.ACM_ENT_STATUS] ∧
       s.sameBut t [.regs, .acm]) ∧
  (∀ (s : State) (b i : Nat) (buf : AcmEntry),
     s.acm.cmd = some ⟨3, b, i, buf⟩ →
     ∃ t, exec .acmEntCmdDone s = .next t ∧
       (∀ w, w < 10 → t.rd (R.ACM_EBUF_VAL w) = (s.acmEntry b i).val.getD w 0 ∧ t.rd (R.ACM_EBUF_MASK w) = (s.acmEntry b i).mask.getD w 0) ∧
       t.rd R.ACM_EBUF_CTRL = (s.acmEntry b i).ctrl ∧
       t.get F.ACM_ENT_STATUS_BUSY = 0 ∧ t.get F.ACM_ENT_STATUS_LAST_FC = 0 ∧
       t.acm = { s.acm with cmd := none } ∧
       s.sameRegs t (R.ACM_ENT_STATUS :: R.ACM_EBUF_CTRL :: ((List.range 10).map R.ACM_EBUF_VAL ++ (List.range 10).map R.ACM_EBUF_MASK)) ∧
       s.sameBut t [.regs, .acm]) ∧
  (∀ (s : State) (b i : Nat) (buf : AcmEntry),
     s.acm.cmd = some ⟨4, b, i, buf⟩ →
     ∃ t, exec .acmEntCmdDone s = .next t ∧
       t.acmEntry b i = { s.acmEntry b i with ctrl := setBit (s.acmEntry b i).ctrl 63 false } ∧
       (∀ c j, 2048 * c + j ≠ 2048 * b + i → t.acmEntry c j = s.acmEntry c j) ∧
       t.get F.ACM_ENT_STATUS_BUSY = 0 ∧ t.get F.ACM_ENT_STATUS_LAST_FC = 0 ∧
       s.sameRegs t [R.ACM_ENT_STATUS] ∧
       s.sameBut t [.regs, .acm]) ∧
  (∀ (s : State) (bank first last : Nat),
     first ≤ last →
     last < 2047 →
     s.acm.shift = none →
     bankAlloc s.plan bank = true →
     s.underAmendment secAcmBanks 0 (256 + bank) = false →
     cValid (s.acmEntry bank (last + 1)).ctrl = false →
     ∃ t, exec (.acmShift false bank first last) s = .next t ∧
       t.get F.ACM_SHIFT_STATUS_BUSY = 1 ∧ t.get F.ACM_SHIFT_STATUS_LAST_FC = 0 ∧
       t.acm = { s.acm with shift := some ⟨false, bank, first, last⟩ } ∧
       s.sameRegs t [R.ACM_SHIFT_STATUS] ∧
       s.sameBut t [.regs, .acm]) ∧
  (∀ (s : State) (bank first last : Nat),
     first ≤ last →
     s.acm.shift = none →
     bankAlloc s.plan bank = true →
     s.underAmendment secAcmBanks 0 (256 + bank) = false →
     (first = 0 ∨ cValid (s.acmEntry bank (first - 1)).ctrl = true) →
     ∃ t, exec (.acmShift true bank first last) s = .next t ∧
       t.get F.ACM_SHIFT_STATUS_LAST_FC = 0x1208 ∧
       t.hasError uAcm 7 ∧
       s.sameBut t [.regs, .pcie, .out, .aia]) ∧
  (∀ (s : State) (bank first last : Nat),
     s.acm.shift = some ⟨false, bank, first, last⟩ →
     s.epHeld 0x1A0 = false →
     ∃ t, exec .acmShiftDone s = .next t ∧
       (∀ i, first ≤ i → i ≤ last → t.acmEntry bank (i + 1) = s.acmEntry bank i) ∧
       (first ≤ last → t.acmEntry bank first = { s.acmEntry bank first with ctrl := setBit (s.acmEntry bank first).ctrl 63 false }) ∧
       (∀ c i, (2048 * c + i < 2048 * bank + first ∨ 2048 * bank + last + 1 < 2048 * c + i) → t.acmEntry c i = s.acmEntry c i) ∧
       t.get F.ACM_SHIFT_STATUS_BUSY = 0 ∧
       t.acm.shift = none ∧
       s.sameRegs t [R.ACM_SHIFT_STATUS] ∧
       s.sameBut t [.regs, .acm]) ∧
  (∀ (s : State) (bank entry : Nat),
     bankAlloc s.plan bank = true →
     ∃ t, exec (.acmParityScan bank entry) s = .next t ∧
       t.acmEntry bank entry = { s.acmEntry bank entry with ctrl := setBit (s.acmEntry bank entry).ctrl 63 false } ∧
       (∀ c i, 2048 * c + i ≠ 2048 * bank + entry → t.acmEntry c i = s.acmEntry c i) ∧
       t.hasError uAcm 3 ∧
       s.sameBut t [.regs, .acm, .pcie, .out, .aia]) ∧
  (∀ (s : State),
     ∃ t, exec .acmActWrite s = .next t ∧
       t.action (s.get F.ACM_ACT_IDX_IDX) = [s.rd R.ACM_ACT_BUF0, s.rd R.ACM_ACT_BUF1, s.rd R.ACM_ACT_BUF2, 0] ∧
       (∀ i, i ≠ s.get F.ACM_ACT_IDX_IDX → t.action i = s.action i) ∧
       s.sameBut t [.acm]) ∧
  (∀ (s : State),
     ∃ t, exec .acmActRead s = .next t ∧
       t.rd R.ACM_ACT_BUF0 = (s.action (s.get F.ACM_ACT_IDX_IDX)).getD 0 0 ∧ t.rd R.ACM_ACT_BUF1 = (s.action (s.get F.ACM_ACT_IDX_IDX)).getD 1 0 ∧ t.rd R.ACM_ACT_BUF2 = (s.action (s.get F.ACM_ACT_IDX_IDX)).getD 2 0 ∧
       s.sameRegs t [R.ACM_ACT_BUF0, R.ACM_ACT_BUF1, R.ACM_ACT_BUF2] ∧
       s.sameBut t [.regs]) ∧
  (∀ (s : State) (p : Policer),
     (s.get F.ACM_POL_MODE_ALG = 1 ∨ s.get F.ACM_POL_CIR_CIR ≤ s.get F.ACM_POL_PIR_PIR) →
     s.policer (s.get F.ACM_POL_IDX_IDX) = p →
     ∃ t, exec .acmPolWrite s = .next t ∧
       t.policer (s.get F.ACM_POL_IDX_IDX) = { p with cir := s.get F.ACM_POL_CIR_CIR, pir := s.get F.ACM_POL_PIR_PIR, cbs := s.get F.ACM_POL_BURST_CBS, pbs := s.get F.ACM_POL_BURST_PBS, mode := (s.rd R.ACM_POL_MODE).toNat, tokC := s.get F.ACM_POL_BURST_CBS * polByte, tokP := s.get F.ACM_POL_BURST_PBS * polByte, time := s.tb0 } ∧
       (∀ i, i ≠ s.get F.ACM_POL_IDX_IDX → t.policer i = s.policer i) ∧
       s.sameBut t [.acm]) ∧
  (∀ (s : State) (p : Policer),
     s.policer (s.get F.ACM_POL_IDX_IDX) = p →
     ∃ t, exec .acmPolRead s = .next t ∧
       t.get F.ACM_POL_CIR_CIR = p.cir % 2 ^ 41 ∧ t.get F.ACM_POL_PIR_PIR = p.pir % 2 ^ 41 ∧ t.get F.ACM_POL_BURST_CBS = p.cbs % 2 ^ 32 ∧ t.get F.ACM_POL_BURST_PBS = p.pbs % 2 ^ 32 ∧
       t.get (F.ACM_POL_CNT_COUNT 0) = p.green % 2 ^ 64 ∧ t.get (F.ACM_POL_CNT_COUNT 1) = p.yellow % 2 ^ 64 ∧ t.get (F.ACM_POL_CNT_COUNT 2) = p.red % 2 ^ 64 ∧
       t.rd R.ACM_POL_MODE = BitVec.ofNat 64 p.mode ∧
       s.sameRegs t [R.ACM_POL_CIR, R.ACM_POL_PIR, R.ACM_POL_BURST, R.ACM_POL_MODE, R.ACM_POL_CNT 0, R.ACM_POL_CNT 1, R.ACM_POL_CNT 2] ∧
       s.sameBut t [.regs]) ∧
  (∀ (s : State) (index : Nat) (value : Word),
     ∃ t, exec (.indirectionTableWrite index value) s = .next t ∧
       t.get (F.ACM_IND_EVEN index) = bitsAt value 23 0 ∧ t.get (F.ACM_IND_ODD index) = bitsAt value 55 32 ∧
       s.sameRegs t [R.ACM_IND index] ∧
       s.sameBut t [.regs])

/-- Packets are handed over, searched, looked up, decided and injected. A poisoned packet is dropped at hand-over
with a count and 0x1206; another packet is searched at once when the window has activations for it, and the
first match under its rule version is found; a new window starts with its whole budget and admits what waits;
returned bucket reads make a hit of the first matching slot of candidate A, or a miss; a decided packet's
outputs are injected in order at the endpoint at which it entered and its buffer space is freed, or it is dropped with 0x1207 on an uncorrectable
error; a mirror copy goes to its session's destination marked as a mirror. (07_classification.md R181,
07_classification.md R187, 07_classification.md R188, 07_classification.md R199, 07_classification.md R200,
07_classification.md R201, 08_exact_match.md R210, 08_exact_match.md R211) -/
def Obligations.ClassificationOfPackets : Prop :=
  (∀ (s : State) (e : Committed) (rest : List Committed),
     s.passed = e :: rest →
     s.typeAmending secAcmBanks = false →
     s.typeAmending secEmtGeometry = false →
     s.epHeld 0x1A0 = false →
     e.poison = true →
     ∃ t, exec .classifyHandover s = .next t ∧
       t.passed = rest ∧
       t.get F.ACM_ODD_DROP_COUNT = min 0xFFFFFFFF (s.get F.ACM_ODD_DROP_COUNT + 1) ∧
       t.hasError uAcm 5 ∧
       (t.frames = s.frames.filter (fun f => !(f.src == e.src && f.arrival == e.arrival))) ∧
       s.sameBut t [.regs, .passed, .frames, .eth, .pcie, .out, .aia]) ∧
  (∀ (s : State) (e : Committed) (rest : List Committed),
     s.passed = e :: rest →
     s.typeAmending secAcmBanks = false →
     s.typeAmending secEmtGeometry = false →
     s.epHeld 0x1A0 = false →
     e.poison = false →
     profPresent s.plan e.profile = true →
     profEmtTable s.plan e.profile = 0xFF →
     ((s.acm.queue.any fun q => !q.searched) = false) →
     (profBanks s.plan e.profile).length ≤ s.acm.left →
     ∃ t, exec .classifyHandover s = .next t ∧
       t.passed = rest ∧
       t.acm.left = s.acm.left - (profBanks s.plan e.profile).length ∧
       t.acm.queue.length = s.acm.queue.length + 1 ∧
       (t.acm.queue.getLast?.map (fun q => (q.src, q.arrival, q.profile, q.searched, q.acmHit)) = some (e.src, e.arrival, e.profile, true, s.acmSearch e.profile e.key (hGet e.words CH.ruleVer))) ∧
       t.get F.ACM_SEARCH_COUNT_COUNT = (s.get F.ACM_SEARCH_COUNT_COUNT + 1) % 2 ^ 64 ∧
       s.sameBut t [.regs, .passed, .acm]) ∧
  (∀ (s : State) (q : ClsPacket),
     s.epHeld 0x1A0 = false →
     s.acm.queue = [q] →
     q.searched = false →
     (profBanks s.plan q.profile).length ≤ s.get F.ACM_ACT_BUDGET_LIMIT →
     ∃ t, exec .acmSearchAdmit s = .next t ∧
       (t.acm.queue.map (fun p => (p.src, p.arrival, p.searched, p.acmHit)) = [(q.src, q.arrival, true, s.acmSearch q.profile q.key (hGet q.words CH.ruleVer))]) ∧
       t.acm.left = s.get F.ACM_ACT_BUDGET_LIMIT - (profBanks s.plan q.profile).length ∧ t.acm.waited = false ∧
       t.get F.ACM_SEARCH_COUNT_COUNT = (s.get F.ACM_SEARCH_COUNT_COUNT + 1) % 2 ^ 64 ∧
       s.sameBut t [.regs, .acm]) ∧
  (∀ (s : State) (index : Nat) (eccB : EccResult) (q : ClsPacket) (l : EmtLookup) (e : List Byte),
     s.epHeld 0x1A1 = false →
     s.acm.queue[index]? = some q →
     q.lookup = some l →
     l.table < 64 →
     s.poisoned (emtAddr s.plan l.table l.bucketA 0) 256 = false →
     bytesAt l.snapA 0 64 = e →
     eValid e = true →
     eParOk e = true →
     s.emtSame l.table e (s.emtKey l.table (bytesAt q.key 80 48)) = true →
     ∃ t, exec (.emtBucketReadReturn index .clean eccB) s = .next t ∧
       (t.acm.queue[index]?.map (fun p => (p.lookup, p.emtHit)) = some (none, some (eAct e, eCtx e))) ∧
       t.get (F.EMT_TBL_HITS_COUNT l.table) = (s.get (F.EMT_TBL_HITS_COUNT l.table) + 1) % 2 ^ 64 ∧
       t.get (F.EMT_TBL_MISSES_COUNT l.table) = s.get (F.EMT_TBL_MISSES_COUNT l.table) ∧
       (eccB = .clean → t.chCe = s.chCe ∧ t.chTimes = s.chTimes ∧ t.chTold = s.chTold) ∧
       s.sameBut t [.regs, .mem, .poison, .zeroMap, .chCe, .chTimes, .chTold, .acm, .emt, .pcie, .out, .aia]) ∧
  (∀ (s : State) (index : Nat) (q : ClsPacket) (l : EmtLookup),
     s.epHeld 0x1A1 = false →
     s.acm.queue[index]? = some q →
     q.lookup = some l →
     l.table < 64 →
     s.poisoned (emtAddr s.plan l.table l.bucketA 0) 256 = false →
     s.poisoned (emtAddr s.plan l.table l.bucketB 0) 256 = false →
     (∀ i, i < 4 → eValid (bytesAt l.snapA (64 * i) 64) = false ∧ eValid (bytesAt l.snapB (64 * i) 64) = false) →
     ∃ t, exec (.emtBucketReadReturn index .clean .clean) s = .next t ∧
       (t.acm.queue[index]?.map (fun p => (p.lookup, p.emtHit)) = some (none, none)) ∧
       t.get (F.EMT_TBL_MISSES_COUNT l.table) = (s.get (F.EMT_TBL_MISSES_COUNT l.table) + 1) % 2 ^ 64 ∧
       t.get (F.EMT_TBL_HITS_COUNT l.table) = s.get (F.EMT_TBL_HITS_COUNT l.table) ∧
       s.sameBut t [.regs, .acm, .emt]) ∧
  (∀ (s : State) (index : Nat) (q : ClsPacket) (outs : List Packet),
     s.acm.queue[index]? = some q →
     q.outs = some outs →
     q.ticket = none →
     outs ≠ [] →
     clsBehind s.acm.queue index q = false →
     ∃ t, exec (.classifyInject index false) s = .next t ∧
       (spGet (fun _ => []) t.prm.out q.src = spGet (fun _ => []) s.prm.out q.src ++ outs) ∧
       (∀ ep, ep ≠ q.src → spGet (fun _ => []) t.prm.out ep = spGet (fun _ => []) s.prm.out ep) ∧
       t.acm = { s.acm with queue := s.acm.queue.set index { q with outs := some [], ticket := some (s.sendTicket q.src + outs.length) } } ∧
       s.sameBut t [.prm, .acm]) ∧
  (∀ (s : State) (index : Nat) (q : ClsPacket),
     s.acm.queue[index]? = some q →
     q.outs = some [] →
     q.ticket = none →
     clsBehind s.acm.queue index q = false →
     ∃ t, exec (.classifyInject index false) s = .next t ∧
       t.acm = { s.acm with queue := s.acm.queue.eraseIdx index } ∧
       (t.frames = s.frames.filter (fun f => !(f.src == q.src && f.arrival == q.arrival))) ∧
       s.sameBut t [.acm, .frames, .eth, .out]) ∧
  (∀ (s : State) (index : Nat) (q : ClsPacket) (outs : List Packet),
     s.acm.queue[index]? = some q →
     q.outs = some outs →
     q.ticket = none →
     clsBehind s.acm.queue index q = false →
     ∃ t, exec (.classifyInject index true) s = .next t ∧
       t.hasError uAcm 6 ∧
       t.get F.ACM_DROP_COUNT_COUNT = (if q.orig then min 0xFFFFFFFF (s.get F.ACM_DROP_COUNT_COUNT + 1) else s.get F.ACM_DROP_COUNT_COUNT) ∧
       t.acm = { s.acm with queue := s.acm.queue.eraseIdx index } ∧
       (t.frames = s.frames.filter (fun f => !(f.src == q.src && f.arrival == q.arrival))) ∧
       s.sameBut t [.regs, .acm, .frames, .eth, .pcie, .out, .aia]) ∧
  (∀ (s : State) (p : Packet) (rest : List Packet),
     s.inboxOf 0x1C0 = p :: rest →
     hGet p.words CH.kind ≠ kCommand →
     s.get (F.ACM_MIR_SESS_TRUNC_LEN (hGet p.words CH.dstQueue % 64)) = 0 →
     ∃ t, exec .mirrorCopy s = .next t ∧
       t.inboxOf 0x1C0 = rest ∧
       (spGet (fun _ => []) t.prm.out 0x1C0 = spGet (fun _ => []) s.prm.out 0x1C0 ++ [⟨hSets p.words [(CH.dstEp, s.get (F.ACM_MIR_SESS_DST_EP (hGet p.words CH.dstQueue % 64))), (CH.dstQueue, s.get (F.ACM_MIR_SESS_DST_QUEUE (hGet p.words CH.dstQueue % 64))), (CH.mirror, 1)], p.payload, p.poison⟩]) ∧
       s.sameBut t [.prm])

/-- Exact-match commands are taken, completed and refused, and entries placed, moved and removed. INSERT, UPSERT,
DELETE, FIND, READ_AT and DELETE_AT of a present table that is not under amendment set BUSY and join the
engine's work with the key, data and place of the registers; while BUSY, a command is refused with 0x1308. At
the front of the work, FIND of a present key reports its place, word 0 and time, DELETE of an absent one ends
with 0x1303, and an INSERT with a free slot writes its entry there, counts it, and changes no other byte; a
displacement move copies one entry to the other candidate and invalidates the old slot. (08_exact_match.md R213,
08_exact_match.md R214, 08_exact_match.md R208, 08_exact_match.md R210) -/
def Obligations.ExactMatchCommands : Prop :=
  (∀ (s : State) (table : Nat),
     s.get F.EMT_CMD_STATUS_BUSY = 0 →
     emtPresent s.plan table = true →
     s.underAmendment secEmtGeometry 0 table = false →
     ∃ t, exec (.emtInsert table) s = .next t ∧
       t.get F.EMT_CMD_STATUS_BUSY = 1 ∧
       (t.emt = { s.emt with engine := s.emt.engine ++ [.cmd 1 table (s.emtKey table ((List.range 6).flatMap fun i => natLE 8 (s.rd (R.EMT_KBUF i)).toNat)) (s.rd R.EMT_CMD_DATA) (s.get F.EMT_CMD_LOC_BUCKET) (s.get F.EMT_CMD_LOC_SLOT)] }) ∧
       s.sameRegs t [R.EMT_CMD_STATUS] ∧
       s.sameBut t [.regs, .emt]) ∧
  (∀ (s : State) (table : Nat),
     s.get F.EMT_CMD_STATUS_BUSY = 0 →
     emtPresent s.plan table = true →
     s.underAmendment secEmtGeometry 0 table = false →
     ∃ t, exec (.emtUpsert table) s = .next t ∧
       t.get F.EMT_CMD_STATUS_BUSY = 1 ∧
       (t.emt = { s.emt with engine := s.emt.engine ++ [.cmd 2 table (s.emtKey table ((List.range 6).flatMap fun i => natLE 8 (s.rd (R.EMT_KBUF i)).toNat)) (s.rd R.EMT_CMD_DATA) (s.get F.EMT_CMD_LOC_BUCKET) (s.get F.EMT_CMD_LOC_SLOT)] }) ∧
       s.sameRegs t [R.EMT_CMD_STATUS] ∧
       s.sameBut t [.regs, .emt]) ∧
  (∀ (s : State) (table : Nat),
     s.get F.EMT_CMD_STATUS_BUSY = 0 →
     emtPresent s.plan table = true →
     s.underAmendment secEmtGeometry 0 table = false →
     ∃ t, exec (.emtDelete table) s = .next t ∧
       t.get F.EMT_CMD_STATUS_BUSY = 1 ∧
       (t.emt = { s.emt with engine := s.emt.engine ++ [.cmd 3 table (s.emtKey table ((List.range 6).flatMap fun i => natLE 8 (s.rd (R.EMT_KBUF i)).toNat)) (s.rd R.EMT_CMD_DATA) (s.get F.EMT_CMD_LOC_BUCKET) (s.get F.EMT_CMD_LOC_SLOT)] }) ∧
       s.sameRegs t [R.EMT_CMD_STATUS] ∧
       s.sameBut t [.regs, .emt]) ∧
  (∀ (s : State) (table : Nat),
     s.get F.EMT_CMD_STATUS_BUSY = 0 →
     emtPresent s.plan table = true →
     s.underAmendment secEmtGeometry 0 table = false →
     ∃ t, exec (.emtFind table) s = .next t ∧
       t.get F.EMT_CMD_STATUS_BUSY = 1 ∧
       (t.emt = { s.emt with engine := s.emt.engine ++ [.cmd 4 table (s.emtKey table ((List.range 6).flatMap fun i => natLE 8 (s.rd (R.EMT_KBUF i)).toNat)) (s.rd R.EMT_CMD_DATA) (s.get F.EMT_CMD_LOC_BUCKET) (s.get F.EMT_CMD_LOC_SLOT)] }) ∧
       s.sameRegs t [R.EMT_CMD_STATUS] ∧
       s.sameBut t [.regs, .emt]) ∧
  (∀ (s : State) (table : Nat),
     s.get F.EMT_CMD_STATUS_BUSY = 0 →
     emtPresent s.plan table = true →
     s.underAmendment secEmtGeometry 0 table = false →
     s.get F.EMT_CMD_LOC_BUCKET < 2 ^ emtBucketsLog2 s.plan table →
     ∃ t, exec (.emtReadAt table) s = .next t ∧
       t.get F.EMT_CMD_STATUS_BUSY = 1 ∧
       (t.emt = { s.emt with engine := s.emt.engine ++ [.cmd 5 table (s.emtKey table ((List.range 6).flatMap fun i => natLE 8 (s.rd (R.EMT_KBUF i)).toNat)) (s.rd R.EMT_CMD_DATA) (s.get F.EMT_CMD_LOC_BUCKET) (s.get F.EMT_CMD_LOC_SLOT)] }) ∧
       s.sameRegs t [R.EMT_CMD_STATUS] ∧
       s.sameBut t [.regs, .emt]) ∧
  (∀ (s : State) (table : Nat),
     s.get F.EMT_CMD_STATUS_BUSY = 0 →
     emtPresent s.plan table = true →
     s.underAmendment secEmtGeometry 0 table = false →
     s.get F.EMT_CMD_LOC_BUCKET < 2 ^ emtBucketsLog2 s.plan table →
     ∃ t, exec (.emtDeleteAt table) s = .next t ∧
       t.get F.EMT_CMD_STATUS_BUSY = 1 ∧
       (t.emt = { s.emt with engine := s.emt.engine ++ [.cmd 6 table (s.emtKey table ((List.range 6).flatMap fun i => natLE 8 (s.rd (R.EMT_KBUF i)).toNat)) (s.rd R.EMT_CMD_DATA) (s.get F.EMT_CMD_LOC_BUCKET) (s.get F.EMT_CMD_LOC_SLOT)] }) ∧
       s.sameRegs t [R.EMT_CMD_STATUS] ∧
       s.sameBut t [.regs, .emt]) ∧
  (∀ (s : State) (table : Nat),
     s.get F.EMT_CMD_STATUS_BUSY = 1 →
     ∃ t, exec (.emtInsert table) s = .next t ∧
       t.hasError uEmt 7 ∧
       s.sameBut t [.regs, .pcie, .out, .aia]) ∧
  (∀ (s : State) (tb a b x sl ls lb ha : Nat) (key : List Byte) (data : Word),
     s.emtFront = some (.cmd 4 tb key data lb ls) →
     emtCands s.plan tb key = (ha, a, b) →
     s.emtFind tb key a b = some (x, sl) →
     ∃ t, exec .emtCmdDone s = .next t ∧
       t.get F.EMT_CMD_STATUS_BUSY = 0 ∧ t.get F.EMT_CMD_STATUS_FOUND = 1 ∧ t.get F.EMT_CMD_STATUS_LAST_FC = 0 ∧
       t.get F.EMT_CMD_STATUS_BUCKET = x % 2 ^ 24 ∧ t.get F.EMT_CMD_STATUS_SLOT = sl ∧
       t.rd R.EMT_CMD_RESULT = eWord0 (s.emtEntry tb x sl) ∧
       t.get F.EMT_CMD_TIME_HIT_TIME = s.emtNewest tb x sl % 2 ^ 32 ∧
       t.emt.engine = s.emt.engine.tail ∧
       s.sameRegs t [R.EMT_CMD_STATUS, R.EMT_CMD_RESULT, R.EMT_CMD_TIME] ∧
       s.sameBut t [.regs, .emt]) ∧
  (∀ (s : State) (tb a b ls lb ha : Nat) (key : List Byte) (data : Word),
     s.emtFront = some (.cmd 3 tb key data lb ls) →
     emtCands s.plan tb key = (ha, a, b) →
     s.emtFind tb key a b = none →
     ∃ t, exec .emtCmdDone s = .next t ∧
       t.get F.EMT_CMD_STATUS_BUSY = 0 ∧ t.get F.EMT_CMD_STATUS_FOUND = 0 ∧ t.get F.EMT_CMD_STATUS_LAST_FC = 0x1303 ∧
       t.hasError uEmt 2 ∧
       t.emt.engine = s.emt.engine.tail ∧
       s.sameBut t [.regs, .emt, .pcie, .out, .aia]) ∧
  (∀ (s : State) (tb a b x sl ls lb ha : Nat) (key : List Byte) (data : Word),
     tb < 64 →
     s.emtFront = some (.cmd 1 tb key data lb ls) →
     emtCands s.plan tb key = (ha, a, b) →
     s.emtFind tb key a b = none →
     s.emtPlaceNow tb a b = .spot x sl →
     ∃ t, exec .emtCmdDone s = .next t ∧
       t.emtEntry tb x sl = eMake true (bitAt data 63) false (bitsAt data 47 32) (bitsAt data 23 0) key s.emtNow ∧
       t.get (F.EMT_TBL_COUNT_COUNT tb) = (s.get (F.EMT_TBL_COUNT_COUNT tb) + 1) % 2 ^ 27 ∧
       t.get F.EMT_CMD_STATUS_BUSY = 0 ∧ t.get F.EMT_CMD_STATUS_LAST_FC = 0 ∧ t.get F.EMT_CMD_STATUS_BUCKET = x % 2 ^ 24 ∧ t.get F.EMT_CMD_STATUS_SLOT = sl ∧
       t.emt.engine = s.emt.engine.tail ∧
       s.sameBytesBut t (emtAddr s.plan tb x sl) 64 ∧
       s.sameBut t [.regs, .mem, .poison, .zeroMap, .emt, .prm, .pcie, .out, .aia]) ∧
  (∀ (s : State) (tb ha a b x sl d f : Nat) (key : List Byte) (rest : List (Nat × Nat × Nat)) (fs : List Nat),
     tb < 64 →
     s.emtPlacing = some (tb, key) →
     emtCands s.plan tb key = (ha, a, b) →
     s.emtFind tb key a b = none →
     s.emt.path = some ((x, sl, d) :: rest) →
     s.emtFree tb d = f :: fs →
     x ≠ d →
     sl < 4 →
     eValid (s.emtEntry tb x sl) = true →
     ∃ t, exec .displacementMove s = .next t ∧
       eValid (t.emtEntry tb x sl) = false ∧
       eKey (t.emtEntry tb d f) = eKey (s.emtEntry tb x sl) ∧ eAct (t.emtEntry tb d f) = eAct (s.emtEntry tb x sl) ∧ eCtx (t.emtEntry tb d f) = eCtx (s.emtEntry tb x sl) ∧ eValid (t.emtEntry tb d f) = true ∧
       t.emt.path = some rest ∧ t.emt.moves = s.emt.moves + 1 ∧
       t.emt.engine = s.emt.engine ∧
       (∀ z, (z < emtAddr s.plan tb x sl ∨ emtAddr s.plan tb x sl + 64 ≤ z) → (z < emtAddr s.plan tb d f ∨ emtAddr s.plan tb d f + 64 ≤ z) → t.byte z = s.byte z) ∧
       s.sameBut t [.regs, .mem, .poison, .zeroMap, .emt])

/-- Learns, ageing, DMA of buckets and redirects of the exact-match tables. A queued learn whose key is absent and
which has a free slot places an entry with the table's learn action, marked LEARNED; one whose key is present
changes nothing; one that meets a locked bucket is dropped and counted. The scan queues the removal of the aged
slots of its bucket, and the removal clears VALID when the test still holds and nothing else when it does not.
The five DMA commands of a present table are taken with their range, or refused with 0x130A beyond it; a read of
one bucket goes out entry by entry, READ_LOCK of a locked bucket ends with 0x1304, and UNLOCK clears the lock
and its count. GO of a redirect sets its PENDING. (08_exact_match.md R215, 08_exact_match.md R216,
08_exact_match.md R218, 08_exact_match.md R220) -/
def Obligations.LearningAgeingAndTableDma : Prop :=
  (∀ (s : State) (n tb ha a b x sl : Nat) (key : List Byte),
     tb < 64 →
     s.emtFront = some (.learn n tb key) →
     emtCands s.plan tb key = (ha, a, b) →
     s.emtFind tb key a b = none →
     s.emtPlaceNow tb a b = .spot x sl →
     (s.emtWays (emtSet ha tb)).length < 16 →
     ∃ t, exec .learnApply s = .next t ∧
       t.emtEntry tb x sl = eMake true false true (s.get (F.EMT_TBL_LEARN_LEARN_ACT n)) (s.get (F.EMT_TBL_LEARN_LEARN_CTX n)) key s.emtNow ∧
       t.emt.engine = s.emt.engine.tail ∧
       s.sameBytesBut t (emtAddr s.plan tb x sl) 64 ∧
       s.sameBut t [.regs, .mem, .poison, .zeroMap, .emt, .prm, .pcie, .out, .aia]) ∧
  (∀ (s : State) (n tb ha a b x : Nat) (key : List Byte),
     s.emtFront = some (.learn n tb key) →
     emtCands s.plan tb key = (ha, a, b) →
     s.emtFind tb key a b = none →
     s.emtPlaceNow tb a b = .locked x →
     ∃ t, exec .learnApply s = .next t ∧
       t.get F.EMT_LEARN_DROP_COUNT = min 0xFFFFFFFF (s.get F.EMT_LEARN_DROP_COUNT + 1) ∧
       t.emt.engine = s.emt.engine.tail ∧
       s.sameRegs t [R.EMT_LEARN_DROP] ∧
       s.sameBut t [.regs, .emt]) ∧
  (∀ (s : State) (n : Nat),
     s.epHeld 0x1A1 = false →
     (List.range 64).filter s.emtAges = [n] →
     s.emt.scanTable = n →
     s.emt.scanBucket + 1 < 2 ^ emtBucketsLog2 s.plan (s.emtActive n) →
     s.emt.cache = [] →
     ∃ t, exec .ageScan s = .next t ∧
       (t.emt = { s.emt with engine := s.emt.engine ++ ((List.range 4).filter fun sl => s.emtAged n (s.emtActive n) s.emt.scanBucket sl && !s.emt.engine.contains (.removal n (s.emtActive n) s.emt.scanBucket sl)).map (fun sl => .removal n (s.emtActive n) s.emt.scanBucket sl), scanBucket := s.emt.scanBucket + 1 }) ∧
       s.sameBut t [.emt]) ∧
  (∀ (s : State) (n tb b sl : Nat),
     tb < 64 →
     s.emtFront = some (.removal n tb b sl) →
     s.emtAged n tb b sl = true →
     ∃ t, exec .ageRemoval s = .next t ∧
       eValid (t.emtEntry tb b sl) = false ∧
       t.get (F.EMT_TBL_COUNT_COUNT tb) = s.get (F.EMT_TBL_COUNT_COUNT tb) - 1 ∧
       t.emt.engine = s.emt.engine.tail ∧
       s.sameBytesBut t (emtAddr s.plan tb b sl) 64 ∧
       s.sameBut t [.regs, .mem, .poison, .zeroMap, .emt, .prm]) ∧
  (∀ (s : State) (n tb b sl : Nat),
     s.emtFront = some (.removal n tb b sl) →
     s.emtAged n tb b sl = false →
     ∃ t, exec .ageRemoval s = .next t ∧
       t.emt.engine = s.emt.engine.tail ∧ t.emt.cache = s.emt.cache ∧
       s.sameBut t [.emt]) ∧
  (∀ (s : State) (host : Bool),
     s.get F.EMT_DMA_STATUS_BUSY = 0 →
     emtPresent s.plan (s.get F.EMT_DMA_FIRST_TABLE) = true →
     s.underAmendment secEmtGeometry 0 (s.get F.EMT_DMA_FIRST_TABLE) = false →
     s.get F.EMT_DMA_FIRST_BUCKET + s.get F.EMT_DMA_COUNT_COUNT ≤ 2 ^ emtBucketsLog2 s.plan (s.get F.EMT_DMA_FIRST_TABLE) →
     ∃ t, exec (.emtDmaRead host) s = .next t ∧
       t.get F.EMT_DMA_STATUS_BUSY = 1 ∧ t.get F.EMT_DMA_STATUS_DONE = 0 ∧ t.get F.EMT_DMA_STATUS_LAST_FC = 0 ∧
       t.emt = { s.emt with engine := s.emt.engine ++ [.dma 1 host (s.get F.EMT_DMA_ADDR_ADDR) (s.get F.EMT_DMA_FIRST_TABLE) (s.get F.EMT_DMA_FIRST_BUCKET) (s.get F.EMT_DMA_COUNT_COUNT) 0] } ∧
       s.sameRegs t [R.EMT_DMA_STATUS] ∧
       s.sameBut t [.regs, .emt]) ∧
  (∀ (s : State) (host : Bool),
     s.get F.EMT_DMA_STATUS_BUSY = 0 →
     emtPresent s.plan (s.get F.EMT_DMA_FIRST_TABLE) = true →
     s.underAmendment secEmtGeometry 0 (s.get F.EMT_DMA_FIRST_TABLE) = false →
     s.get F.EMT_DMA_FIRST_BUCKET + s.get F.EMT_DMA_COUNT_COUNT ≤ 2 ^ emtBucketsLog2 s.plan (s.get F.EMT_DMA_FIRST_TABLE) →
     ∃ t, exec (.readLock host) s = .next t ∧
       t.get F.EMT_DMA_STATUS_BUSY = 1 ∧ t.get F.EMT_DMA_STATUS_DONE = 0 ∧ t.get F.EMT_DMA_STATUS_LAST_FC = 0 ∧
       t.emt = { s.emt with engine := s.emt.engine ++ [.dma 2 host (s.get F.EMT_DMA_ADDR_ADDR) (s.get F.EMT_DMA_FIRST_TABLE) (s.get F.EMT_DMA_FIRST_BUCKET) (s.get F.EMT_DMA_COUNT_COUNT) 0] } ∧
       s.sameRegs t [R.EMT_DMA_STATUS] ∧
       s.sameBut t [.regs, .emt]) ∧
  (∀ (s : State) (host : Bool),
     s.get F.EMT_DMA_STATUS_BUSY = 0 →
     emtPresent s.plan (s.get F.EMT_DMA_FIRST_TABLE) = true →
     s.underAmendment secEmtGeometry 0 (s.get F.EMT_DMA_FIRST_TABLE) = false →
     s.get F.EMT_DMA_FIRST_BUCKET + s.get F.EMT_DMA_COUNT_COUNT ≤ 2 ^ emtBucketsLog2 s.plan (s.get F.EMT_DMA_FIRST_TABLE) →
     ∃ t, exec (.emtDmaWrite host) s = .next t ∧
       t.get F.EMT_DMA_STATUS_BUSY = 1 ∧ t.get F.EMT_DMA_STATUS_DONE = 0 ∧ t.get F.EMT_DMA_STATUS_LAST_FC = 0 ∧
       t.emt = { s.emt with engine := s.emt.engine ++ [.dma 3 host (s.get F.EMT_DMA_ADDR_ADDR) (s.get F.EMT_DMA_FIRST_TABLE) (s.get F.EMT_DMA_FIRST_BUCKET) (s.get F.EMT_DMA_COUNT_COUNT) 0] } ∧
       s.sameRegs t [R.EMT_DMA_STATUS] ∧
       s.sameBut t [.regs, .emt]) ∧
  (∀ (s : State) (host : Bool),
     s.get F.EMT_DMA_STATUS_BUSY = 0 →
     emtPresent s.plan (s.get F.EMT_DMA_FIRST_TABLE) = true →
     s.underAmendment secEmtGeometry 0 (s.get F.EMT_DMA_FIRST_TABLE) = false →
     s.get F.EMT_DMA_FIRST_BUCKET + s.get F.EMT_DMA_COUNT_COUNT ≤ 2 ^ emtBucketsLog2 s.plan (s.get F.EMT_DMA_FIRST_TABLE) →
     ∃ t, exec (.writeUnlock host) s = .next t ∧
       t.get F.EMT_DMA_STATUS_BUSY = 1 ∧ t.get F.EMT_DMA_STATUS_DONE = 0 ∧ t.get F.EMT_DMA_STATUS_LAST_FC = 0 ∧
       t.emt = { s.emt with engine := s.emt.engine ++ [.dma 4 host (s.get F.EMT_DMA_ADDR_ADDR) (s.get F.EMT_DMA_FIRST_TABLE) (s.get F.EMT_DMA_FIRST_BUCKET) (s.get F.EMT_DMA_COUNT_COUNT) 0] } ∧
       s.sameRegs t [R.EMT_DMA_STATUS] ∧
       s.sameBut t [.regs, .emt]) ∧
  (∀ (s : State) (host : Bool),
     s.get F.EMT_DMA_STATUS_BUSY = 0 →
     emtPresent s.plan (s.get F.EMT_DMA_FIRST_TABLE) = true →
     s.underAmendment secEmtGeometry 0 (s.get F.EMT_DMA_FIRST_TABLE) = false →
     s.get F.EMT_DMA_FIRST_BUCKET + s.get F.EMT_DMA_COUNT_COUNT ≤ 2 ^ emtBucketsLog2 s.plan (s.get F.EMT_DMA_FIRST_TABLE) →
     ∃ t, exec (.emtDmaUnlock host) s = .next t ∧
       t.get F.EMT_DMA_STATUS_BUSY = 1 ∧ t.get F.EMT_DMA_STATUS_DONE = 0 ∧ t.get F.EMT_DMA_STATUS_LAST_FC = 0 ∧
       t.emt = { s.emt with engine := s.emt.engine ++ [.dma 5 host (s.get F.EMT_DMA_ADDR_ADDR) (s.get F.EMT_DMA_FIRST_TABLE) (s.get F.EMT_DMA_FIRST_BUCKET) (s.get F.EMT_DMA_COUNT_COUNT) 0] } ∧
       s.sameRegs t [R.EMT_DMA_STATUS] ∧
       s.sameBut t [.regs, .emt]) ∧
  (∀ (s : State) (host : Bool),
     s.get F.EMT_DMA_STATUS_BUSY = 0 →
     emtPresent s.plan (s.get F.EMT_DMA_FIRST_TABLE) = true →
     s.underAmendment secEmtGeometry 0 (s.get F.EMT_DMA_FIRST_TABLE) = false →
     2 ^ emtBucketsLog2 s.plan (s.get F.EMT_DMA_FIRST_TABLE) < s.get F.EMT_DMA_FIRST_BUCKET + s.get F.EMT_DMA_COUNT_COUNT →
     ∃ t, exec (.emtDmaRead host) s = .next t ∧
       t.hasError uEmt 9 ∧
       t.get F.EMT_DMA_STATUS_LAST_FC = 0x130A ∧ t.get F.EMT_DMA_STATUS_BUSY = 0 ∧
       s.sameBut t [.regs, .pcie, .out, .aia]) ∧
  (∀ (s : State) (hostBytes : List Byte) (x : SrcRead) (addr tb b : Nat),
     s.emtFront = some (.dma 1 true addr tb b 1 0) →
     s.emt.cache = [] →
     s.dmaOpen 0 = true →
     ∃ t, exec (.emtDmaDone hostBytes x) s = .next t ∧
       (t.out = (s.l1Exit 0).out ++ [.hostWrite 0 addr ((List.range 4).flatMap fun sl => s.emtEntry tb b sl) (s.tlpAttr 0 none true false)]) ∧
       t.get F.EMT_DMA_STATUS_BUSY = 0 ∧ t.get F.EMT_DMA_STATUS_DONE = 1 ∧
       t.emt.engine = s.emt.engine.tail ∧
       s.sameRegs t [R.EMT_DMA_STATUS] ∧
       s.sameBut t [.regs, .emt, .pcie, .out]) ∧
  (∀ (s : State) (hostBytes : List Byte) (x : SrcRead) (host : Bool) (addr tb b : Nat),
     s.operatorWaits host = false →
     s.emtFront = some (.dma 2 host addr tb b 1 0) →
     s.emtLocked tb b = true →
     ∃ t, exec (.emtDmaDone hostBytes x) s = .next t ∧
       t.get F.EMT_DMA_STATUS_LAST_FC = 0x1304 ∧ t.get F.EMT_DMA_STATUS_BUSY = 0 ∧
       t.hasError uEmt 3 ∧
       t.emt.engine = s.emt.engine.tail ∧
       s.sameBut t [.regs, .emt, .pcie, .out, .aia]) ∧
  (∀ (s : State) (hostBytes : List Byte) (x : SrcRead) (host : Bool) (addr tb b : Nat),
     s.operatorWaits host = false →
     s.emtFront = some (.dma 5 host addr tb b 1 0) →
     s.emtLocked tb b = true →
     ∃ t, exec (.emtDmaDone hostBytes x) s = .next t ∧
       t.emtLocked tb b = false ∧
       t.get F.EMT_LOCKED_COUNT_COUNT = s.get F.EMT_LOCKED_COUNT_COUNT - 1 ∧
       t.get F.EMT_DMA_STATUS_BUSY = 0 ∧ t.get F.EMT_DMA_STATUS_DONE = 1 ∧
       t.emt.engine = s.emt.engine.tail ∧
       s.sameBytesBut t (emtAddr s.plan tb b 0) 64 ∧
       s.sameRegs t [R.EMT_DMA_STATUS, R.EMT_LOCKED_COUNT] ∧
       s.sameBut t [.regs, .mem, .poison, .zeroMap, .emt]) ∧
  (∀ (s : State) (table : Nat),
     emtPresent s.plan table = true →
     emtPresent s.plan (s.get (F.EMT_TBL_REDIR_STG_TARGET table)) = true →
     s.underAmendment secEmtGeometry 0 table = false →
     s.get (F.EMT_TBL_REDIR_COMMIT_PENDING table) = 0 →
     ∃ t, exec (.emtRedirCommitGo table) s = .next t ∧
       t.get (F.EMT_TBL_REDIR_COMMIT_PENDING table) = 1 ∧
       s.sameRegs t [R.EMT_TBL_REDIR_COMMIT table] ∧
       s.sameBut t [.regs])

/-- Packets are queued on their leaf, frames selected and sent, shapers refilled and nodes committed. A packet whose
leaf lies in the port's tree and that passes the length, limit and buffer checks joins the end of its leaf
queue; a header of another kind, or for a leaf of another tree, is counted in SCH_DST_DROP and recorded. The
selected leaf's first frame leaves its queue and goes into transmission with the timestamp of its start; an
uncorrectable error discards it with 0x1407. At the end of a transmission the frame goes out whole and is
counted, or stomped with 0x1405 when its packet was aborted. A refill raises the node's credit by RATE over the
interval, up to BURST, and changes no other node; GO of a node that the plan provides sets PENDING, and the commit
falls due with the first refill instant after it, or is applied at once where that instant has passed.
(09_scheduling.md R226, 09_scheduling.md R227, 09_scheduling.md R230, 09_scheduling.md R231, 09_scheduling.md
R232, 09_scheduling.md R234, 09_scheduling.md R239, 09_scheduling.md R241, 09_scheduling.md R242) -/
def Obligations.EgressQueuesAndFrames : Prop :=
  (∀ (s : State) (port l : Nat) (p : Packet) (rest : List Packet),
     s.inboxOf (0x1B0 + port) = p :: rest →
     hGet p.words CH.kind = kPacket →
     hGet p.words CH.dstQueue = l →
     l < 65536 →
     treeOwns s.plan port (l / 16) = true →
     s.egressHeld port = false →
     p.poison = false →
     (s.get (F.SCH_PORT_STATUS_LINK port) = 1 ∨ s.get (F.SCH_PORT_CFG_FLUSH_ON_DOWN port) = 0) →
     s.get (F.SCH_CLS_MAXSDU_MAX port (leafClass s.plan port l)) = 0 →
     s.leafBytes l + egLen ⟨p.words, p.payload, false, false⟩ ≤ s.get (F.SCH_LEAF_LIMIT_KIB l) * 1024 →
     s.schBytes + egLen ⟨p.words, p.payload, false, false⟩ ≤ ((unitPartition s.plan uSch).map Prod.snd).getD 0 →
     ∃ t, exec (.schEnqueue port) s = .next t ∧
       t.leafQ l = s.leafQ l ++ [⟨p.words, p.payload, false, false⟩] ∧
       (∀ k, k ≠ l → t.leafQ k = s.leafQ k) ∧
       t.inboxOf (0x1B0 + port) = rest ∧
       s.sameBut t [.prm, .sch]) ∧
  (∀ (s : State) (port : Nat) (p : Packet) (rest : List Packet),
     s.inboxOf (0x1B0 + port) = p :: rest →
     hGet p.words CH.kind ≠ kPacket →
     ∃ t, exec (.schEnqueue port) s = .next t ∧
       t.hasError uSch 1 ∧
       t.get F.SCH_DST_DROP_COUNT = min 0xFFFFFFFF (s.get F.SCH_DST_DROP_COUNT + 1) ∧
       t.inboxOf (0x1B0 + port) = rest ∧
       (∀ l, t.leafQ l = s.leafQ l) ∧
       s.sameBut t [.regs, .prm, .sch, .pcie, .out, .aia]) ∧
  (∀ (s : State) (port : Nat) (p : Packet) (rest : List Packet),
     s.inboxOf (0x1B0 + port) = p :: rest →
     hGet p.words CH.kind = kPacket →
     (65536 ≤ hGet p.words CH.dstQueue ∨ treeOwns s.plan port (hGet p.words CH.dstQueue % 65536 / 16) = false) →
     ∃ t, exec (.schEnqueue port) s = .next t ∧
       t.hasError uSch 0 ∧
       t.get F.SCH_DST_DROP_COUNT = min 0xFFFFFFFF (s.get F.SCH_DST_DROP_COUNT + 1) ∧
       t.inboxOf (0x1B0 + port) = rest ∧
       (∀ l, t.leafQ l = s.leafQ l) ∧
       s.sameBut t [.regs, .prm, .sch, .pcie, .out, .aia]) ∧
  (∀ (s : State) (port markers l : Nat) (f : EgFrame) (rest : List EgFrame) (s1 s2 : State),
     s.portFree port = true →
     (((s.gatesNow port).refillPort port).dropUnfit port markers ((s.busyLeaves port).map fun k => (s.leafQ k).length).sum = s1) →
     s1.portPick port markers = some (l, s2) →
     s2.leafQ l = f :: rest →
     (f.arriving && s1.rxPoison port) = false →
     ∃ t, exec (.frameSelect port markers .clean) s = .next t ∧
       t.txOf port = some ⟨l, f, s1.txStamp port, s.clk.elapsed, false⟩ ∧
       t.leafQ l = rest ∧
       (∀ k, k ≠ l → t.leafQ k = s1.leafQ k) ∧
       s.sameBut t [.regs, .prm, .sch, .pcie, .out, .aia]) ∧
  (∀ (s : State) (port markers l : Nat) (f : EgFrame) (rest : List EgFrame) (s1 s2 : State),
     s.portFree port = true →
     (((s.gatesNow port).refillPort port).dropUnfit port markers ((s.busyLeaves port).map fun k => (s.leafQ k).length).sum = s1) →
     s1.portPick port markers = some (l, s2) →
     s2.leafQ l = f :: rest →
     ∃ t, exec (.frameSelect port markers .uncorrectable) s = .next t ∧
       t.hasError uSch 6 ∧
       t.leafQ l = (s1.leafQ l).tail ∧
       t.txOf port = none ∧
       s.sameBut t [.regs, .prm, .sch, .pcie, .out, .free, .aia]) ∧
  (∀ (s : State) (port sent : Nat) (x : TxFrame),
     port < 16 →
     s.txOf port = some x →
     x.frame.arriving = false →
     x.aborted = false →
     x.frame.poison = false →
     hGet x.frame.words CH.timeFrac % 2 = 0 →
     ∃ t, exec (.frameTransmitEnd port sent .clean) s = .next t ∧
       t.txOf port = none ∧
       t.out = s.out ++ [.frame port (s.sentBytes port x).1 true] ++ (s.eth.pfcWait.filter fun y => y.1 == port).map (fun y => .pfc y.1 y.2.1 y.2.2) ∧
       t.get (F.SCH_PORT_TX_FRAMES_COUNT port) = (s.get (F.SCH_PORT_TX_FRAMES_COUNT port) + 1) % 2 ^ 64 ∧
       t.get (F.SCH_PORT_TX_BYTES_COUNT port) = (s.get (F.SCH_PORT_TX_BYTES_COUNT port) + egLen x.frame) % 2 ^ 64 ∧
       (∀ l, t.leafQ l = s.leafQ l) ∧
       s.sameRegs t [R.SCH_PORT_TX_FRAMES port, R.SCH_PORT_TX_BYTES port, R.TB_ONESTEP_COUNT] ∧
       s.sameBut t [.regs, .sch, .eth, .out]) ∧
  (∀ (s : State) (port sent : Nat) (x : TxFrame),
     port < 16 →
     s.txOf port = some x →
     x.frame.arriving = false →
     x.aborted = true →
     hGet x.frame.words CH.timeFrac % 2 = 0 →
     ∃ t, exec (.frameTransmitEnd port sent .clean) s = .next t ∧
       t.txOf port = none ∧
       .frame port ((s.sentBytes port x).1.take sent) false ∈ t.out ∧
       t.get (F.SCH_PORT_STOMP_COUNT port) = min 0xFFFFFFFF (s.get (F.SCH_PORT_STOMP_COUNT port) + 1) ∧
       t.hasError uSch 4 ∧
       (∀ l, t.leafQ l = s.leafQ l) ∧
       s.sameBut t [.regs, .sch, .eth, .pcie, .out, .aia]) ∧
  (∀ (s : State) (level index iv m : Nat) (n : SchNode),
     level ≠ 1 →
     level < 4 →
     index < 65536 →
     nodePresent s.plan level index = true →
     s.node (nodeKey level index) = n →
     nInterval n = iv →
     s.tbVal 0 / iv - (s.tbVal 0 - (s.clk.elapsed - max n.last s.sch.anchor)) / iv = m →
     m ≠ 0 →
     s.nodeGoHere (nodeKey level index) = false →
     n.rate ≠ 0 →
     ∃ t, exec (.shaperRefill level index) s = .next t ∧
       t.node (nodeKey level index) = { n with credit := min ((n.burst : Int) * 2 ^ 32) (n.credit + (((m * (n.rate * 2 ^ nRefill n * 2 ^ 32) + n.rem) / 1000000000 : Nat) : Int)), rem := (m * (n.rate * 2 ^ nRefill n * 2 ^ 32) + n.rem) % 1000000000, last := s.clk.elapsed - s.tbVal 0 % iv } ∧
       (∀ k, k ≠ nodeKey level index → t.node k = s.node k) ∧
       s.sameBut t [.sch]) ∧
  (∀ (s : State) (level index : Nat) (n : SchNode),
     level ≠ 1 →
     level < 4 →
     index < 65536 →
     nodePresent s.plan level index = true →
     s.node (nodeKey level index) = n →
     s.get F.SCH_NODE_COMMIT_PENDING = 1 →
     nodeKey (s.get F.SCH_NODE_SEL_STG_LEVEL) (s.get F.SCH_NODE_SEL_STG_INDEX) = nodeKey level index →
     s.sch.due = false →
     (s.refillDue n).1 ≠ 0 →
     s.refillOfGo n ≤ (s.refillDue n).1 →
     (s.refillDue n).2 (s.refillOfGo n) ≠ s.clk.elapsed →
     ∃ t, exec (.shaperRefill level index) s = .next t ∧
       t.sch.due = false ∧
       (t.node (nodeKey level index)).rate = s.get F.SCH_NODE_RATE_STG_RATE ∧ (t.node (nodeKey level index)).burst = s.get F.SCH_NODE_BURST_STG_BURST ∧ (t.node (nodeKey level index)).cfg = s.rd R.SCH_NODE_CFG_STG ∧ (t.node (nodeKey level index)).cbs = s.rd R.SCH_NODE_CBS_STG ∧
       t.get F.SCH_NODE_COMMIT_PENDING = 0 ∧ t.get F.SCH_NODE_GEN_GEN = (s.get F.SCH_NODE_GEN_GEN + 1) % 2 ^ 32 ∧
       (∀ k, k ≠ nodeKey level index → t.node k = s.node k) ∧
       s.sameRegs t [R.SCH_NODE_COMMIT, R.SCH_NODE_GEN] ∧
       s.sameBut t [.regs, .sch]) ∧
  (∀ (s : State) (level index : Nat) (n : SchNode),
     level ≠ 1 →
     level < 4 →
     index < 65536 →
     nodePresent s.plan level index = true →
     s.node (nodeKey level index) = n →
     s.get F.SCH_NODE_COMMIT_PENDING = 1 →
     nodeKey (s.get F.SCH_NODE_SEL_STG_LEVEL) (s.get F.SCH_NODE_SEL_STG_INDEX) = nodeKey level index →
     s.sch.due = false →
     (s.refillDue n).1 ≠ 0 →
     s.refillOfGo n ≤ (s.refillDue n).1 →
     (s.refillDue n).2 (s.refillOfGo n) = s.clk.elapsed →
     n.rate = 0 →
     ∃ t, exec (.shaperRefill level index) s = .next t ∧
       t.sch.due = true ∧
       (t.node (nodeKey level index)).rate = 0 ∧ (t.node (nodeKey level index)).credit = n.credit ∧
       (t.nodeDue.node (nodeKey level index)).rate = s.get F.SCH_NODE_RATE_STG_RATE ∧ (t.nodeDue.node (nodeKey level index)).burst = s.get F.SCH_NODE_BURST_STG_BURST ∧ (t.nodeDue.node (nodeKey level index)).cfg = s.rd R.SCH_NODE_CFG_STG ∧ (t.nodeDue.node (nodeKey level index)).cbs = s.rd R.SCH_NODE_CBS_STG ∧
       (t.nodeDue.node (nodeKey level index)).credit = min n.credit ((s.get F.SCH_NODE_BURST_STG_BURST : Int) * 2 ^ 32) ∧ (t.nodeDue.node (nodeKey level index)).cbsCredit = (if bitAt (s.rd R.SCH_NODE_CBS_STG) 63 = nCbsEn n then n.cbsCredit else 0) ∧
       t.nodeDue.get F.SCH_NODE_COMMIT_PENDING = 0 ∧ t.nodeDue.get F.SCH_NODE_GEN_GEN = (s.get F.SCH_NODE_GEN_GEN + 1) % 2 ^ 32 ∧
       (∀ k, k ≠ nodeKey level index → t.nodeDue.node k = s.node k) ∧
       s.sameBut t [.sch]) ∧
  (∀ (s : State),
     nodePresent s.plan (s.get F.SCH_NODE_SEL_STG_LEVEL) (s.get F.SCH_NODE_SEL_STG_INDEX) = true →
     s.egressHeld (nodePort s.plan (s.get F.SCH_NODE_SEL_STG_LEVEL) (s.get F.SCH_NODE_SEL_STG_INDEX)) = false →
     s.get F.SCH_NODE_COMMIT_PENDING = 0 →
     s.cbsStagedOk (s.get F.SCH_NODE_SEL_STG_LEVEL) (s.get F.SCH_NODE_SEL_STG_INDEX) = true →
     ∃ t, exec .schNodeCommitGo s = .next t ∧
       t.get F.SCH_NODE_COMMIT_PENDING = 1 ∧
       t.sch = { s.sch with goAt := s.clk.elapsed } ∧
       s.sameRegs t [R.SCH_NODE_COMMIT] ∧
       s.sameBut t [.regs, .sch])

/-- A gate list is committed, becomes the operating list, and gives the gates by the time of its port. GO of a
staged list inside R236 sets PENDING and computes a change time that is a whole number of cycles after the base,
at least 10 microseconds ahead, and the first such; a list outside R236 is refused with 0x1403. At the change
time the staged entries become the operating ones, GEN counts, and PENDING clears. Inside a cycle the gates are
those of the entry in force; when the next cycle has begun, its start is the last whole number of cycles from
the base. (09_scheduling.md R236, 09_scheduling.md R237, 09_scheduling.md R238) -/
def Obligations.GateLists : Prop :=
  (∀ (s : State) (port : Nat),
     port < 16 →
     portPresent s.plan port = true →
     s.underAmendment secSchTree port 0 = false →
     s.underAmendment secPortLayout 0 port = false →
     s.get (F.SCH_GCL_COMMIT_PENDING port) = 0 →
     s.gclStagedOk port = true →
     ∃ t, exec (.schGclCommitGo port) s = .next t ∧
       t.get (F.SCH_GCL_COMMIT_PENDING port) = 1 ∧
       (∃ n, (t.gcl port).change = some (((s.get (F.SCH_GCL_BASE_SEC_STG_SEC port) * 1000000000 + s.get (F.SCH_GCL_BASE_NS_STG_NS port)) * 2 ^ 16 + s.get (F.SCH_GCL_BASE_NS_STG_FRAC port)) * 2 ^ 28 + n * ((s.get (F.SCH_GCL_CYCLE_STG_NS port) * 2 ^ 16 + s.get (F.SCH_GCL_CYCLE_STG_FRAC port)) * 2 ^ 28)) ∧ s.portNow port + 10000 * nsUnit ≤ ((t.gcl port).change.getD 0) ∧ (n = 0 ∨ (t.gcl port).change.getD 0 < s.portNow port + 10000 * nsUnit + (s.get (F.SCH_GCL_CYCLE_STG_NS port) * 2 ^ 16 + s.get (F.SCH_GCL_CYCLE_STG_FRAC port)) * 2 ^ 28)) ∧
       (t.gcl port).start = (s.gcl port).start ∧ (t.gcl port).base = (s.gcl port).base ∧ (t.gcl port).cycle = (s.gcl port).cycle ∧
       (∀ q, q ≠ port → t.gcl q = s.gcl q) ∧
       s.sameBut t [.regs, .sch, .pcie, .out, .aia]) ∧
  (∀ (s : State) (port : Nat),
     port < 16 →
     portPresent s.plan port = true →
     s.underAmendment secSchTree port 0 = false →
     s.underAmendment secPortLayout 0 port = false →
     s.get (F.SCH_GCL_COMMIT_PENDING port) = 0 →
     s.gclStagedOk port = false →
     ∃ t, exec (.schGclCommitGo port) s = .next t ∧
       t.hasError uSch 2 ∧
       t.get (F.SCH_GCL_COMMIT_PENDING port) = 0 ∧
       s.sameBut t [.regs, .pcie, .out, .aia]) ∧
  (∀ (s : State) (port c : Nat),
     port < 16 →
     (s.gcl port).change = some c →
     c ≤ s.portNow port →
     ∃ t, exec (.gclChange port) s = .next t ∧
       (∀ e, e < 1024 → t.rd (R.SCH_GCL_OPER port e) = if e < s.get (F.SCH_GCL_LEN_STG_LEN port) then s.rd (R.SCH_GCL_STG port e) else 0) ∧
       t.get (F.SCH_GCL_STATUS_OPER_LEN port) = s.get (F.SCH_GCL_LEN_STG_LEN port) ∧
       t.get (F.SCH_GCL_COMMIT_PENDING port) = 0 ∧ t.get (F.SCH_GCL_GEN_GEN port) = (s.get (F.SCH_GCL_GEN_GEN port) + 1) % 2 ^ 32 ∧
       (t.gcl port).change = none ∧
       (t.gcl port).cycle = s.get (F.SCH_GCL_CYCLE_STG_NS port) * 2 ^ 16 + s.get (F.SCH_GCL_CYCLE_STG_FRAC port) ∧
       (∀ q, q ≠ port → t.gcl q = s.gcl q) ∧
       s.sameBut t [.regs, .sch]) ∧
  (∀ (s : State) (port k : Nat) (g : Gcl),
     port < 16 →
     s.gcl port = g →
     g.change = none →
     g.held = false →
     g.cycle ≠ 0 →
     s.get (F.SCH_GCL_STATUS_OPER_LEN port) ≠ 0 →
     g.start = g.base * 2 ^ 28 + k * (g.cycle * 2 ^ 28) →
     g.start ≤ s.portNow port →
     s.portNow port < g.start + g.cycle * 2 ^ 28 →
     ∃ t, exec (.gateEntryChange port) s = .next t ∧
       t.get (F.SCH_PORT_STATUS_GATES port) = (gclAt (s.operEntries port) (s.portNow port - g.start) 0).2 ∧
       t.get (F.SCH_GCL_STATUS_OPER_ENTRY port) = (gclAt (s.operEntries port) (s.portNow port - g.start) 0).1 ∧
       t.gcl port = g ∧
       s.sameRegs t [R.SCH_PORT_STATUS port, R.SCH_GCL_STATUS port] ∧
       s.sameBut t [.regs, .sch]) ∧
  (∀ (s : State) (port : Nat) (g : Gcl),
     port < 16 →
     s.gcl port = g →
     g.change = none →
     g.cycle ≠ 0 →
     s.get (F.SCH_GCL_STATUS_OPER_LEN port) ≠ 0 →
     g.base * 2 ^ 28 ≤ g.start →
     g.start + g.cycle * 2 ^ 28 ≤ s.portNow port →
     ∃ t, exec (.gclCycleStart port) s = .next t ∧
       (t.gcl port).start = s.portNow port - (s.portNow port - g.base * 2 ^ 28) % (g.cycle * 2 ^ 28) ∧
       (t.gcl port).held = false ∧ (t.gcl port).base = g.base ∧ (t.gcl port).cycle = g.cycle ∧
       t.get (F.SCH_PORT_STATUS_GATES port) = (gclAt (s.operEntries port) (s.portNow port - (t.gcl port).start) 0).2 ∧
       s.sameRegs t [R.SCH_PORT_STATUS port, R.SCH_GCL_STATUS port] ∧
       s.sameBut t [.regs, .sch])

/-- Cipher requests are admitted, fetched for, computed and released. A command with inline input, whose key is in
the cache, valid, of its TD and fitting the operation, is admitted with the sequence number its framing gives
(an outbound framed operation takes SEQ and leaves SEQ + 1 in the cached record; an unframed one has none): its
request joins those of the pair and the counts of its queue and of cache hits go up; a request of another kind
is dropped. A wanted record that is not cached is read into its set; one that fails to unwrap counts as not
valid. Two pipelines that agree finish a request with the operation's output, or, where authentication fails,
with a status that is not zero and no output; a mismatch sends it to the second computation and is counted; a
second agreement reports 0x1508 and records the queue and slot. A released request of a queue is answered with
its output and computing pair, or, as a packet, injected at the queue's next endpoint; one whose output range is not of
its TD is refused by MEM and answered with 0x06; a failed one is answered with its status. (10_cipher.md R254, 10_cipher.md R257, 10_cipher.md R259, 10_cipher.md R262, 10_cipher.md R263,
10_cipher.md R266, 10_cipher.md R267, 10_cipher.md R258) -/
def Obligations.CipherRequests : Prop :=
  (∀ (s : State) (pair index op : Nat) (ecc : EccResult) (m : Packet) (b inl : List Byte) (way : KeyWay),
     s.ready = true →
     s.epHeld (cphEp pair) = false →
     (s.inboxOf (cphEp pair))[index]? = some m →
     (((s.inboxOf (cphEp pair)).take index).any (fun (x : Packet) => hGet x.words CH.dstQueue == hGet m.words CH.dstQueue) = false) →
     hGet m.words CH.kind = kCommand →
     s.cphQueueOk pair m = true →
     s.cphCrossed pair m = none →
     s.cphMoving (hGet m.words CH.dstQueue) = false →
     (cphQShared s.plan (hGet m.words CH.dstQueue) = true ∨ hGet m.words CH.td = cphQTd s.plan (hGet m.words CH.dstQueue)) →
     m.poison = false ∧ hGet m.words CH.poison = 0 →
     cphParse (s.get (F.CPH_Q_CFG_INLINE_OP (hGet m.words CH.dstQueue))) m = some (op, b, [], inl) →
     cphSlotInRange s.plan (hGet m.words CH.dstQueue) (hGet m.words CH.keySlot) = true →
     s.cachedSlot (hGet m.words CH.keySlot) = some way →
     way.fetched = false →
     krState way.record = 1 →
     krOwner way.record = hGet m.words CH.td →
     opFits op way.record = true →
     pbModeOk op b way.record = true →
     pbRef b = false →
     outputMax op (cphQCompat s.plan (hGet m.words CH.dstQueue)) b ≤ 65535 →
     lengthOk op (cphQCompat s.plan (hGet m.words CH.dstQueue)) b way.record inl = true →
     opFramed op = false →
     s.pairState pair = 0 →
     ∃ t, exec (.cphAdmission pair index ecc) s = .next t ∧
       t.cph.reqs = s.cph.reqs ++ [⟨hGet m.words CH.dstQueue, pair, false, true, m.words, op, b, [], inl, hGet m.words CH.keySlot, way.record, 0, 0, 0, 0, [], cphQCompat s.plan (hGet m.words CH.dstQueue), s.get (F.CPH_Q_NEXT_NEXT_EP (hGet m.words CH.dstQueue)), s.get (F.CPH_Q_NEXT_NEXT_QUEUE (hGet m.words CH.dstQueue)), none, none⟩] ∧
       t.get (F.CPH_Q_REQS_COUNT (hGet m.words CH.dstQueue)) = (s.get (F.CPH_Q_REQS_COUNT (hGet m.words CH.dstQueue)) + 1) % 2 ^ 64 ∧
       t.get F.CPH_CACHE_HITS_COUNT = (s.get F.CPH_CACHE_HITS_COUNT + 1) % 2 ^ 64 ∧
       t.cachedSlot (hGet m.words CH.keySlot) = some ⟨hGet m.words CH.keySlot, way.record, way.dirty, false⟩ ∧
       t.prm = (s.setInbox (cphEp pair) ((s.inboxOf (cphEp pair)).eraseIdx index)).prm ∧
       s.sameRegs t [R.CPH_Q_REQS (hGet m.words CH.dstQueue), R.CPH_CACHE_HITS] ∧
       s.sameBut t [.regs, .cph, .prm]) ∧
  (∀ (s : State) (pair index op : Nat) (ecc : EccResult) (m : Packet) (b inl : List Byte) (way : KeyWay),
     s.ready = true →
     s.epHeld (cphEp pair) = false →
     (s.inboxOf (cphEp pair))[index]? = some m →
     (((s.inboxOf (cphEp pair)).take index).any (fun (x : Packet) => hGet x.words CH.dstQueue == hGet m.words CH.dstQueue) = false) →
     hGet m.words CH.kind = kCommand →
     s.cphQueueOk pair m = true →
     s.cphCrossed pair m = none →
     s.cphMoving (hGet m.words CH.dstQueue) = false →
     (cphQShared s.plan (hGet m.words CH.dstQueue) = true ∨ hGet m.words CH.td = cphQTd s.plan (hGet m.words CH.dstQueue)) →
     m.poison = false ∧ hGet m.words CH.poison = 0 →
     cphParse (s.get (F.CPH_Q_CFG_INLINE_OP (hGet m.words CH.dstQueue))) m = some (op, b, [], inl) →
     cphSlotInRange s.plan (hGet m.words CH.dstQueue) (hGet m.words CH.keySlot) = true →
     s.cachedSlot (hGet m.words CH.keySlot) = some way →
     way.fetched = false →
     krState way.record = 1 →
     krOwner way.record = hGet m.words CH.td →
     opFits op way.record = true →
     pbModeOk op b way.record = true →
     pbRef b = false →
     outputMax op (cphQCompat s.plan (hGet m.words CH.dstQueue)) b ≤ 65535 →
     lengthOk op (cphQCompat s.plan (hGet m.words CH.dstQueue)) b way.record inl = true →
     opFramed op = true →
     opInbound op = false →
     krSeq way.record < seqMax way.record →
     s.pairState pair = 0 →
     ∃ t, exec (.cphAdmission pair index ecc) s = .next t ∧
       t.cph.reqs = s.cph.reqs ++ [⟨hGet m.words CH.dstQueue, pair, false, true, m.words, op, b, [], inl, hGet m.words CH.keySlot, way.record, krSeq way.record, 0, 0, 0, [], cphQCompat s.plan (hGet m.words CH.dstQueue), s.get (F.CPH_Q_NEXT_NEXT_EP (hGet m.words CH.dstQueue)), s.get (F.CPH_Q_NEXT_NEXT_QUEUE (hGet m.words CH.dstQueue)), none, none⟩] ∧
       t.cachedSlot (hGet m.words CH.keySlot) = some ⟨hGet m.words CH.keySlot, krSetSeq way.record (krSeq way.record + 1), true, false⟩ ∧
       t.prm = (s.setInbox (cphEp pair) ((s.inboxOf (cphEp pair)).eraseIdx index)).prm ∧
       s.sameRegs t [R.CPH_Q_REQS (hGet m.words CH.dstQueue), R.CPH_CACHE_HITS] ∧
       s.sameBut t [.regs, .cph, .prm]) ∧
  (∀ (s : State) (pair index : Nat) (ecc : EccResult) (m : Packet),
     s.ready = true →
     s.epHeld (cphEp pair) = false →
     (s.inboxOf (cphEp pair))[index]? = some m →
     (((s.inboxOf (cphEp pair)).take index).any (fun (x : Packet) => hGet x.words CH.dstQueue == hGet m.words CH.dstQueue) = false) →
     s.cphCrossed pair m = none →
     hGet m.words CH.kind ≠ kCommand ∧ hGet m.words CH.kind ≠ kPacket →
     ∃ t, exec (.cphAdmission pair index ecc) s = .next t ∧
       t.hasError uCph 0 ∧
       t.get F.CPH_PKT_DROP_COUNT = min 0xFFFFFFFF (s.get F.CPH_PKT_DROP_COUNT + 1) ∧
       t.prm = (s.setInbox (cphEp pair) ((s.inboxOf (cphEp pair)).eraseIdx index)).prm ∧
       s.sameBut t [.regs, .prm, .pcie, .out, .aia]) ∧
  (∀ (s : State) (slot p q : Nat) (r : List Byte),
     s.cphHeld = false →
     s.slotWanted slot = some (p, q) →
     s.cachedSlot slot = none →
     (s.keyWays (slot % 1024)).length < 16 →
     s.poisoned (s.slotAddr slot) 160 = false →
     s.unwrapRecord slot (s.bytes (s.slotAddr slot) 160) = some r →
     ∃ t, exec (.keySlotFetch slot .clean) s = .next t ∧
       t.cachedSlot slot = some ⟨slot, r, false, true⟩ ∧
       t.get F.CPH_CACHE_MISSES_COUNT = (s.get F.CPH_CACHE_MISSES_COUNT + 1) % 2 ^ 64 ∧
       (∀ n, n ≠ slot → t.cachedSlot n = s.cachedSlot n) ∧
       t.cph = { s.cph with cache := t.cph.cache } ∧
       s.sameRegs t [R.CPH_CACHE_MISSES] ∧
       s.sameBut t [.regs, .cph]) ∧
  (∀ (s : State) (slot p q : Nat) (ecc : EccResult),
     s.cphHeld = false →
     s.slotWanted slot = some (p, q) →
     s.cachedSlot slot = none →
     (s.keyWays (slot % 1024)).length < 16 →
     (ecc.bad || s.poisoned (s.slotAddr slot) 160) = true →
     ∃ t, exec (.keySlotFetch slot ecc) s = .next t ∧
       t.cachedSlot slot = some ⟨slot, krEmptied (s.bytes (s.slotAddr slot) 160), false, true⟩ ∧
       (∀ n, n ≠ slot → t.cachedSlot n = s.cachedSlot n) ∧
       t.get F.CPH_CACHE_MISSES_COUNT = (s.get F.CPH_CACHE_MISSES_COUNT + 1) % 2 ^ 64 ∧
       t.hasError uCph 5 ∧
       t.cph = { s.cph with cache := t.cph.cache } ∧
       s.sameBut t [.regs, .chCe, .chTimes, .chTold, .cph, .pcie, .out, .aia]) ∧
  (∀ (s : State) (index : Nat) (r : CphReq),
     s.cph.reqs[index]? = some r →
     r.phase = 0 →
     s.pairState r.pair = 0 →
     s.epHeld (cphEp r.pair) = false →
     ∃ t, exec (.cphCompare index true) s = .next t ∧
       (∀ o nx, cipherCompute r.op r.compat r.par r.record r.input r.seq = some (o, nx) → t = s.setReqs (s.cph.reqs.set index { r with phase := 2, output := o, next := nx })) ∧
       (cipherCompute r.op r.compat r.par r.record r.input r.seq = none → t.cph.reqs = s.cph.reqs.set index { r with phase := 2, status := (s.takeFree).1.toNat % 239 + 1 } ∧ t.get F.CPH_AUTH_FAIL_COUNT = min 0xFFFFFFFF (s.get F.CPH_AUTH_FAIL_COUNT + 1)) ∧
       s.sameRegs t [R.CPH_AUTH_FAIL] ∧
       s.sameBut t [.regs, .cph, .free]) ∧
  (∀ (s : State) (index : Nat) (r : CphReq),
     s.cph.reqs[index]? = some r →
     r.phase = 0 →
     s.pairState r.pair = 0 →
     s.epHeld (cphEp r.pair) = false →
     ∃ t, exec (.cphCompare index false) s = .next t ∧
       t.cph = { s.cph with reqs := s.cph.reqs.set index { r with phase := 1 } } ∧
       t.get (F.CPH_PAIR_STATE_MM_COUNT r.pair) = min 0xFFFF (s.get (F.CPH_PAIR_STATE_MM_COUNT r.pair) + 1) ∧
       t.pairState r.pair = 0 ∧
       s.sameRegs t [R.CPH_PAIR_STATE r.pair] ∧
       s.sameBut t [.regs, .cph]) ∧
  (∀ (s : State) (index : Nat) (r : CphReq),
     s.cph.reqs[index]? = some r →
     r.phase = 1 →
     r.pair < 32 ∧ r.queue < 256 ∧ r.slot < 2 ^ 20 →
     s.pairState r.pair = 0 →
     s.epHeld (cphEp r.pair) = false →
     ∃ t, exec (.cphRetryCompare index true) s = .next t ∧
       (∀ o nx, cipherCompute r.op r.compat r.par r.record r.input r.seq = some (o, nx) → t.cph = { s.cph with reqs := s.cph.reqs.set index { r with phase := 2, output := o, next := nx } }) ∧
       (cipherCompute r.op r.compat r.par r.record r.input r.seq = none → t.cph.reqs = s.cph.reqs.set index { r with phase := 2, status := (s.takeFree).1.toNat % 239 + 1 } ∧ t.get F.CPH_AUTH_FAIL_COUNT = min 0xFFFFFFFF (s.get F.CPH_AUTH_FAIL_COUNT + 1)) ∧
       t.hasError uCph 7 ∧
       t.get F.CPH_MM_CORRECTED_COUNT = min 0xFFFFFFFF (s.get F.CPH_MM_CORRECTED_COUNT + 1) ∧
       t.get (F.CPH_PAIR_MM_LAST_VALID r.pair) = 1 ∧ t.get (F.CPH_PAIR_MM_LAST_QUEUE r.pair) = r.queue ∧ t.get (F.CPH_PAIR_MM_LAST_SLOT r.pair) = r.slot ∧
       s.sameBut t [.regs, .cph, .free, .pcie, .out, .aia]) ∧
  (∀ (s : State) (index : Nat) (r : CphReq),
     s.cph.reqs[index]? = some r →
     r.phase = 1 →
     r.pair < 32 →
     s.pairState r.pair = 0 →
     s.epHeld (cphEp r.pair) = false →
     r.retryAt.map Prod.snd ≠ some s.instant →
     ∃ t, exec (.cphRetryCompare index false) s = .next t ∧
       t.pairState r.pair = 1 ∧
       t.get (F.CPH_PAIR_STATE_TEST_PASS r.pair) = 0 ∧
       t.get (F.CPH_PAIR_STATE_MM_COUNT r.pair) = min 0xFFFF (s.get (F.CPH_PAIR_STATE_MM_COUNT r.pair) + 1) ∧
       t.hasError uCph 8 ∧
       (∀ (i : Nat) (x : CphReq), s.cph.reqs[i]? = some x → x.pair ≠ r.pair → t.cph.reqs[i]? = some x) ∧
       t.cph = { s.cph with reqs := t.cph.reqs, mmQuar := some (r.pair, s.instant) } ∧
       s.sameBut t [.regs, .cph, .prm, .tiles, .pcie, .out, .aia]) ∧
  (∀ (s : State) (index p : Nat) (r : CphReq),
     s.cph.reqs[index]? = some r →
     r.retryAt = some (p, s.instant) →
     p < 32 →
     ∃ t, exec (.cphRetryCompare index false) s = .next t ∧
       t.cph = { s.cph with reqs := s.cph.reqs.set index { r with retryAt := none } } ∧
       t.get (F.CPH_PAIR_STATE_MM_COUNT p) = min 0xFFFF (s.get (F.CPH_PAIR_STATE_MM_COUNT p) + 1) ∧
       t.pairState p = s.pairState p ∧
       t.hasError uCph 8 ∧
       s.sameBut t [.regs, .cph, .tiles, .pcie, .out, .aia]) ∧
  (∀ (s : State) (index : Nat) (r : CphReq),
     s.cph.reqs[index]? = some r →
     r.phase = 2 ∧ r.pair < 32 →
     firstOfQueue s.cph.reqs index r.queue = true →
     s.epHeld (cphEp r.pair) = false →
     r.status = 0 →
     r.packet = false →
     opFramed r.op = false →
     pbRef r.par = false →
     ∃ t, exec (.cphResultRelease index) s = .next t ∧
       t.cph = { s.cph with reqs := s.cph.reqs.eraseIdx index } ∧
       t.prm = (s.send (cphEp r.pair) ⟨(hSets (unitCompletion r.words (cphEp r.pair) 0 0 r.output.length (s.timeNs 0) (s.timeFrac 0)) [(CH.dstQueue, hGet r.words CH.operand / 2 ^ 24), (CH.flowHash, hGet r.words CH.flowHash), (CH.actionRef, hGet r.words CH.actionRef), (CH.user, hGet r.words CH.user), (CH.operandLow, r.pair % 256 * 2 ^ 32 + r.next % 256 * 2 ^ 24 + r.output.length % 2 ^ 24)]).set 4 (r.words.getD 4 0), r.output, false⟩).prm ∧
       t.get (F.CPH_PAIR_BYTES_COUNT r.pair) = (s.get (F.CPH_PAIR_BYTES_COUNT r.pair) + pbText r.par) % 2 ^ 64 ∧
       s.sameRegs t [R.CPH_PAIR_BYTES r.pair] ∧
       s.sameBut t [.regs, .cph, .prm]) ∧
  (∀ (s : State) (index : Nat) (r : CphReq),
     s.cph.reqs[index]? = some r →
     r.phase = 2 ∧ r.pair < 32 →
     firstOfQueue s.cph.reqs index r.queue = true →
     s.epHeld (cphEp r.pair) = false →
     r.status = 0 →
     r.packet = false →
     opFramed r.op = false →
     pbRef r.par = true →
     tdOwnsRange s.plan (hGet r.words CH.td) (pbDst r.par) r.output.length = true →
     ∃ t, exec (.cphResultRelease index) s = .next t ∧
       t.cph = { s.cph with reqs := s.cph.reqs.eraseIdx index } ∧
       t.bytes (pbDst r.par) r.output.length = r.output ∧
       s.sameBytesBut t (pbDst r.par) r.output.length ∧
       s.sameRegs t [R.CPH_PAIR_BYTES r.pair] ∧
       s.sameBut t [.regs, .mem, .poison, .zeroMap, .cph, .prm]) ∧
  (∀ (s : State) (index : Nat) (r : CphReq),
     s.cph.reqs[index]? = some r →
     r.phase = 2 →
     firstOfQueue s.cph.reqs index r.queue = true →
     s.epHeld (cphEp r.pair) = false →
     r.status = 0 →
     r.packet = false →
     opFramed r.op = false →
     pbRef r.par = true →
     tdOwnsRange s.plan (hGet r.words CH.td) (pbDst r.par) r.output.length = false →
     ∃ t, exec (.cphResultRelease index) s = .next t ∧
       t.cph = { s.cph with reqs := s.cph.reqs.eraseIdx index } ∧
       t.hasError uCph 4 ∧ t.hasError uMem 0 ∧
       t.get F.MEM_PART_VIOL_COUNT = min 0xFFFFFFFF (s.get F.MEM_PART_VIOL_COUNT + 1) ∧
       t.prm = (s.send (cphEp r.pair) ⟨(hSets (unitCompletion r.words (cphEp r.pair) 0x06 0 0 (s.timeNs 0) (s.timeFrac 0)) [(CH.dstQueue, hGet r.words CH.operand / 2 ^ 24), (CH.flowHash, hGet r.words CH.flowHash), (CH.actionRef, hGet r.words CH.actionRef), (CH.user, hGet r.words CH.user), (CH.operandLow, r.pair % 256 * 2 ^ 32)]).set 4 (r.words.getD 4 0), [], false⟩).prm ∧
       s.sameBut t [.regs, .cph, .prm, .pcie, .out, .aia]) ∧
  (∀ (s : State) (index : Nat) (r : CphReq),
     s.cph.reqs[index]? = some r →
     r.phase = 2 ∧ r.pair < 32 →
     firstOfQueue s.cph.reqs index r.queue = true →
     s.epHeld (cphEp r.pair) = false →
     r.status = 0 →
     r.packet = true →
     opFramed r.op = false →
     ∃ t, exec (.cphResultRelease index) s = .next t ∧
       t.cph = { s.cph with reqs := s.cph.reqs.eraseIdx index } ∧
       t.prm = (s.send (cphEp r.pair) ⟨hSets r.words [(CH.len, (r.pre ++ r.output).length), (CH.dstEp, r.nextEp), (CH.dstQueue, r.nextQueue), (CH.offsets, 2 ^ 40 - 1)], r.pre ++ r.output, false⟩).prm ∧
       s.sameRegs t [R.CPH_PAIR_BYTES r.pair] ∧
       s.sameBut t [.regs, .cph, .prm]) ∧
  (∀ (s : State) (index : Nat) (r : CphReq),
     s.cph.reqs[index]? = some r →
     r.phase = 2 →
     firstOfQueue s.cph.reqs index r.queue = true →
     s.epHeld (cphEp r.pair) = false →
     r.status ≠ 0 →
     r.packet = false →
     ∃ t, exec (.cphResultRelease index) s = .next t ∧
       t.cph = { s.cph with reqs := s.cph.reqs.eraseIdx index } ∧
       t.prm = (s.send (cphEp r.pair) ⟨(hSets (unitCompletion r.words (cphEp r.pair) r.status 0 0 (s.timeNs 0) (s.timeFrac 0)) [(CH.dstQueue, hGet r.words CH.operand / 2 ^ 24), (CH.flowHash, hGet r.words CH.flowHash), (CH.actionRef, hGet r.words CH.actionRef), (CH.user, hGet r.words CH.user), (CH.operandLow, r.pair % 256 * 2 ^ 32)]).set 4 (r.words.getD 4 0), [], false⟩).prm ∧
       s.sameRegs t [] ∧
       s.sameBut t [.cph, .prm]) ∧
  (∀ (s : State) (index : Nat) (r : CphReq),
     s.cph.reqs[index]? = some r →
     r.phase = 2 →
     firstOfQueue s.cph.reqs index r.queue = true →
     s.epHeld (cphEp r.pair) = false →
     r.status ≠ 0 →
     r.packet = true →
     ∃ t, exec (.cphResultRelease index) s = .next t ∧
       t.cph = { s.cph with reqs := s.cph.reqs.eraseIdx index } ∧
       t.get F.CPH_PKT_DROP_COUNT = min 0xFFFFFFFF (s.get F.CPH_PKT_DROP_COUNT + 1) ∧
       s.sameRegs t [R.CPH_PKT_DROP] ∧
       s.sameBut t [.regs, .cph]) ∧
  (∀ (s : State) (index : Nat) (r : CphReq),
     s.cph.reqs[index]? = some r →
     r.phase = 2 →
     firstOfQueue s.cph.reqs index r.queue = true →
     s.epHeld (cphEp r.pair) = false →
     r.status = 0 →
     r.packet = false →
     opFramed r.op = true ∧ opInbound r.op = true →
     r.old = none →
     s.slotBad r.slot = false →
     seqSeen (s.slotRecord r.slot) r.seq = true →
     ∃ t, exec (.cphResultRelease index) s = .next t ∧
       t.cph = { s.cph with reqs := s.cph.reqs.eraseIdx index } ∧
       t.get F.CPH_REPLAY_COUNT = min 0xFFFFFFFF (s.get F.CPH_REPLAY_COUNT + 1) ∧
       t.prm = (s.send (cphEp r.pair) ⟨(hSets (unitCompletion r.words (cphEp r.pair) 0x0A 0 0 (s.timeNs 0) (s.timeFrac 0)) [(CH.dstQueue, hGet r.words CH.operand / 2 ^ 24), (CH.flowHash, hGet r.words CH.flowHash), (CH.actionRef, hGet r.words CH.actionRef), (CH.user, hGet r.words CH.user), (CH.operandLow, r.pair % 256 * 2 ^ 32)]).set 4 (r.words.getD 4 0), [], false⟩).prm ∧
       s.sameRegs t [R.CPH_REPLAY] ∧
       s.sameBut t [.regs, .cph, .prm])

/-- Pairs are quarantined, tested and reinstated, and key operations change slots, pins and wrapping keys.
QUARANTINE moves a pair in SERVICE to QUARANTINED, TEST a quarantined one to TEST with TEST_PASS clear, the
run's end back with its result, REINSTATE a passed one to SERVICE; each is refused with 0x150C in another state.
A queue whose pair serves again returns to it when its alternate holds none of its requests. A waiting key
operation is performed once: a well-formed clear load leaves the slot with the staged fields, INVALIDATE leaves
it empty with its wrap counter kept, SET_SEQ writes SEQ and clears the window, a pin sets or clears one slot's
pin and the count, removal of a wrapping key clears it; loads of blobs keep every byte unless all checks pass.
DONE clears PENDING and BUSY and counts the generation, or shows 0x150A. (10_cipher.md R264, 10_cipher.md R265,
10_cipher.md R268, 10_cipher.md R269, 10_cipher.md R271, 20_security.md R537, 20_security.md R538) -/
def Obligations.CipherPairsAndKeys : Prop :=
  (∀ (s : State) (pair : Nat),
     pair < 32 →
     s.pairState pair = 0 →
     ∃ t, exec (.cphQuarantine pair) s = .next t ∧
       t.pairState pair = 1 ∧
       t.get (F.CPH_PAIR_STATE_TEST_PASS pair) = 0 ∧
       (∀ q, q < 256 → t.get (F.CPH_Q_STATE_ON_ALT q) = (if cphQPresent s.plan q = true ∧ cphQPair s.plan q = pair ∧ cphQAlt s.plan q ≠ 0xFF then 1 else s.get (F.CPH_Q_STATE_ON_ALT q))) ∧
       (∀ (i : Nat) (x : CphReq), s.cph.reqs[i]? = some x → x.pair ≠ pair → t.cph.reqs[i]? = some x) ∧
       t.cph = { s.cph with reqs := t.cph.reqs } ∧
       s.sameRegs t (R.CPH_PAIR_STATE pair :: (List.range 256).map R.CPH_Q_STATE) ∧
       s.sameBut t [.regs, .cph, .prm]) ∧
  (∀ (s : State) (pair : Nat),
     pair < 32 →
     s.pairState pair ≠ 0 →
     s.cph.mmQuar ≠ some (pair, s.instant) →
     ∃ t, exec (.cphQuarantine pair) s = .next t ∧
       t.hasError uCph 0xB ∧
       t.pairState pair = s.pairState pair ∧
       s.sameBut t [.regs, .pcie, .out, .aia]) ∧
  (∀ (s : State) (pair : Nat),
     s.pairState pair ≠ 0 →
     s.cph.mmQuar = some (pair, s.instant) →
     exec (.cphQuarantine pair) s = .next (s.withCph { s.cph with mmQuar := none })) ∧
  (∀ (s : State) (pair : Nat),
     s.pairState pair = 1 →
     (s.tile (cphTile pair)).retired = false →
     ∃ t, exec (.cphTest pair) s = .next t ∧
       t.pairState pair = 2 ∧
       t.get (F.CPH_PAIR_STATE_TEST_PASS pair) = 0 ∧
       t.get (F.CPH_PAIR_STATE_MM_COUNT pair) = s.get (F.CPH_PAIR_STATE_MM_COUNT pair) ∧
       s.sameRegs t [R.CPH_PAIR_STATE pair] ∧
       s.sameBut t [.regs]) ∧
  (∀ (s : State) (pair : Nat),
     s.pairState pair = 2 →
     s.epHeld (cphEp pair) = false →
     ∃ t, exec (.cphTestEnd pair true) s = .next t ∧
       t.pairState pair = 1 ∧
       t.get (F.CPH_PAIR_STATE_TEST_PASS pair) = 1 ∧
       s.sameRegs t [R.CPH_PAIR_STATE pair] ∧
       s.sameBut t [.regs]) ∧
  (∀ (s : State) (pair : Nat),
     pair < 32 →
     s.pairState pair = 2 →
     s.epHeld (cphEp pair) = false →
     ∃ t, exec (.cphTestEnd pair false) s = .next t ∧
       t.pairState pair = 1 ∧
       t.get (F.CPH_PAIR_STATE_TEST_PASS pair) = 0 ∧
       t.hasError uCph 0xA ∧
       (t.tile (cphTile pair)).ue = satInc 0xFFFF (s.tile (cphTile pair)).ue ∧
       s.sameBut t [.regs, .tiles, .pcie, .out, .aia]) ∧
  (∀ (s : State) (pair : Nat),
     pair < 32 →
     s.pairState pair = 1 →
     s.get (F.CPH_PAIR_STATE_TEST_PASS pair) = 1 →
     ∃ t, exec (.cphReinstate pair) s = .next t ∧
       t.pairState pair = 0 ∧
       (∀ q, q < 256 → t.get (F.CPH_Q_STATE_ON_ALT q) = (if cphQPair s.plan q = pair ∧ (s.cph.reqs.any fun (r : CphReq) => r.queue == q && r.pair == cphQAlt s.plan q) = false ∧ ((s.inboxOf (cphEp (cphQAlt s.plan q))).any (fun (m : Packet) => hGet m.words CH.dstQueue == q)) = false then 0 else s.get (F.CPH_Q_STATE_ON_ALT q))) ∧
       s.sameRegs t (R.CPH_PAIR_STATE pair :: (List.range 256).map R.CPH_Q_STATE) ∧
       s.sameBut t [.regs]) ∧
  (∀ (s : State) (queue : Nat),
     queue < 256 →
     s.epHeld (cphEp (cphQPair s.plan queue)) = false →
     s.get (F.CPH_Q_STATE_ON_ALT queue) = 1 →
     s.pairState (cphQPair s.plan queue) = 0 →
     ((s.cph.reqs.any fun (r : CphReq) => r.queue == queue && r.pair == cphQAlt s.plan queue) = false) →
     (((s.inboxOf (cphEp (cphQAlt s.plan queue))).any (fun (m : Packet) => hGet m.words CH.dstQueue == queue)) = false) →
     ∃ t, exec (.reinstateMove queue) s = .next t ∧
       t.get (F.CPH_Q_STATE_ON_ALT queue) = 0 ∧
       t.servingPair queue = cphQPair s.plan queue ∧
       s.sameRegs t [R.CPH_Q_STATE queue] ∧
       s.sameBut t [.regs]) ∧
  (∀ (s : State),
     s.keyOpWaits 1 = true →
     s.slotReadable s.keySlotSel = true →
     s.pinTooMany s.keySlotSel (s.get F.CPH_KEY_OP_STG_PIN) = false →
     1 ≤ bitsAt (s.rd R.CPH_KEY_ATTR_STG) 18 16 ∧ bitsAt (s.rd R.CPH_KEY_ATTR_STG) 10 8 ≤ 4 →
     bitsAt (s.rd R.CPH_KEY_ATTR_STG) 25 24 = 0 →
     ((s.cph.data.getD 13 0) = 0 ∧ (s.cph.data.getD 14 0) = 0 ∧ (s.cph.data.getD 15 0) = 0) →
     s.get F.CPH_KEY_OP_STG_PIN = 1 →
     ∃ t, exec .cphLoadClear s = .next t ∧
       t.pinned s.keySlotSel = true ∧
       (∀ n, n ≠ s.keySlotSel → t.pinned n = s.pinned n) ∧
       t.cph.done = some 0 ∧
       (t.cph.reqs.map fun (x : CphReq) => { x with old := none }) = (s.cph.reqs.map fun (x : CphReq) => { x with old := none }) ∧ t.cph.twks = s.cph.twks ∧
       s.sameBytesBut t (s.slotAddr s.keySlotSel) 160 ∧
       s.sameRegs t [R.CPH_PINNED] ∧
       s.sameBut t [.regs, .mem, .poison, .zeroMap, .cph]) ∧
  (∀ (s : State) (hostBytes : List Byte) (x : SrcRead),
     s.keyOpWaits 2 = true →
     s.get F.CPH_KEY_OP_STG_SRC = 1 →
     s.dmaWaits 0 = false →
     (spGet (fun _ => ([] : List Byte)) s.cph.twks s.keyTdSel = []) →
     ∃ t, exec (.cphLoadBlob hostBytes x) s = .next t ∧
       t.cph = { s.cph with done := some 0x150A } ∧
       s.sameBut t [.regs, .mem, .poison, .zeroMap, .cph, .pcie, .out, .free, .aia]) ∧
  (∀ (s : State) (hostBytes : List Byte) (ecc : EccResult) (r : List Byte),
     s.keyOpWaits 2 = true →
     s.get F.CPH_KEY_OP_STG_SRC = 1 →
     s.dmaOpen 0 = true →
     s.isOpen = false →
     s.get F.WKT_LIFECYCLE_ERASING = 0 →
     s.slotReadable s.keySlotSel = true →
     (spGet (fun _ => ([] : List Byte)) s.cph.twks s.keyTdSel ≠ []) →
     s.keyBlobOk (bytesAt hostBytes 0 256) = true →
     s.pinTooMany s.keySlotSel (s.get F.CPH_KEY_OP_STG_PIN) = false →
     krState (s.slotRecord s.keySlotSel) = 0 →
     ∃ t, exec (.cphLoadBlob hostBytes ⟨ecc, .ok⟩) s = .next t ∧
       (aeadOpen 2 (spGet (fun _ => ([] : List Byte)) s.cph.twks s.keyTdSel) (bytesAt (bytesAt hostBytes 0 256) 0x28 12) (bytesAt (bytesAt hostBytes 0 256) 0 64) (bytesAt (bytesAt hostBytes 0 256) 0x40 144) (bytesAt (bytesAt hostBytes 0 256) 0xD0 16) = none → t.cph = { s.cph with done := some 0x150A } ∧ t.mem = s.mem ∧ t.regs = s.regs) ∧
       (aeadOpen 2 (spGet (fun _ => ([] : List Byte)) s.cph.twks s.keyTdSel) (bytesAt (bytesAt hostBytes 0 256) 0x28 12) (bytesAt (bytesAt hostBytes 0 256) 0 64) (bytesAt (bytesAt hostBytes 0 256) 0x40 144) (bytesAt (bytesAt hostBytes 0 256) 0xD0 16) = some r ∧ krState r = 1 ∧ leAt r 4 2 = s.keyTdSel ∧ krCtr r = 0 ∧ krWellFormed r = true → t.cph.done = some 0 ∧ spGet (fun _ => 0) t.cph.blobCtr s.keyTdSel = leAt (bytesAt hostBytes 0 256) 32 8 ∧ t.pinned s.keySlotSel = (s.get F.CPH_KEY_OP_STG_PIN == 1)) ∧
       t.cph.twks = s.cph.twks ∧ (t.cph.reqs.map fun (x : CphReq) => { x with old := none }) = (s.cph.reqs.map fun (x : CphReq) => { x with old := none }) ∧
       s.sameBytesBut t (s.slotAddr s.keySlotSel) 160 ∧
       s.sameRegs t [R.CPH_PINNED] ∧
       s.sameBut t [.regs, .mem, .poison, .zeroMap, .cph, .pcie, .out]) ∧
  (∀ (s : State),
     s.keyOpWaits 3 = true →
     s.slotReadable s.keySlotSel = true →
     ∃ t, exec .cphInvalidate s = .next t ∧
       t.pinned s.keySlotSel = false ∧
       (∀ n, n ≠ s.keySlotSel → t.pinned n = s.pinned n) ∧
       t.cph.done = some 0 ∧
       ((s.cachedSlot s.keySlotSel).isSome = true → krState (t.slotRecord s.keySlotSel) = 0 ∧ krCtr (t.slotRecord s.keySlotSel) = (krCtr (s.slotRecord s.keySlotSel) + 1) % 2 ^ 64) ∧
       (t.cph.reqs.map fun (x : CphReq) => { x with old := none }) = (s.cph.reqs.map fun (x : CphReq) => { x with old := none }) ∧ t.cph.twks = s.cph.twks ∧
       s.sameBytesBut t (s.slotAddr s.keySlotSel) 160 ∧
       s.sameRegs t [R.CPH_PINNED] ∧
       s.sameBut t [.regs, .mem, .poison, .zeroMap, .cph]) ∧
  (∀ (s : State),
     s.keyOpWaits 3 = true →
     s.slotReadable s.keySlotSel = false →
     ∃ t, exec .cphInvalidate s = .next t ∧
       t.hasError uCph 5 ∧
       t.pinned s.keySlotSel = false ∧
       t.cph.done = some 0 ∧
       s.sameBytesBut t (s.slotAddr s.keySlotSel) 160 ∧
       s.sameBut t [.regs, .mem, .poison, .zeroMap, .cph, .pcie, .out, .aia]) ∧
  (∀ (s : State) (w : KeyWay),
     s.keyOpWaits 4 = true →
     s.cachedSlot s.keySlotSel = some w →
     krState w.record = 1 →
     w.record.length = 144 →
     ∃ t, exec .cphSetSeq s = .next t ∧
       krSeq (t.slotRecord s.keySlotSel) = (s.cph.data.getD 10 0).toNat ∧
       krWindow (t.slotRecord s.keySlotSel) = 0 ∧
       krKey (t.slotRecord s.keySlotSel) = krKey w.record ∧
       t.cph.done = some 0 ∧
       t.cph.pins = s.cph.pins ∧ (t.cph.reqs.map fun (x : CphReq) => { x with old := none }) = (s.cph.reqs.map fun (x : CphReq) => { x with old := none }) ∧
       s.sameBytesBut t (s.slotAddr s.keySlotSel) 160 ∧
       s.sameRegs t [] ∧
       s.sameBut t [.mem, .poison, .zeroMap, .cph]) ∧
  (∀ (s : State),
     s.keyOpWaits 7 = true →
     s.get F.CPH_KEY_OP_STG_PIN = 0 →
     s.slotReadable s.keySlotSel = true →
     ∃ t, exec .cphSetPin s = .next t ∧
       t.pinned s.keySlotSel = false ∧
       (∀ n, n ≠ s.keySlotSel → t.pinned n = s.pinned n) ∧
       t.cph = { s.cph with pins := t.cph.pins, done := some 0 } ∧
       t.get F.CPH_PINNED_COUNT = t.cph.pins.length % 2 ^ 15 ∧
       s.sameRegs t [R.CPH_PINNED] ∧
       s.sameBut t [.regs, .cph]) ∧
  (∀ (s : State),
     s.keyOpWaits 7 = true →
     s.get F.CPH_KEY_OP_STG_PIN = 1 →
     s.pinned s.keySlotSel = false →
     s.slotReadable s.keySlotSel = true →
     12 ≤ s.pinsOfSet (s.keySlotSel % 1024) →
     exec .cphSetPin s = .next (s.withCph { s.cph with done := some 0x150A })) ∧
  (∀ (s : State),
     s.keyOpWaits 7 = true →
     s.get F.CPH_KEY_OP_STG_PIN = 1 →
     s.slotReadable s.keySlotSel = true →
     krState (s.slotRecord s.keySlotSel) ≠ 1 →
     exec .cphSetPin s = .next (s.withCph { s.cph with done := some 0x150A })) ∧
  (∀ (s : State),
     s.keyOpWaits 7 = true →
     s.get F.CPH_KEY_OP_STG_PIN = 1 →
     s.slotReadable s.keySlotSel = true →
     krState (s.slotRecord s.keySlotSel) = 1 →
     s.pinTooMany s.keySlotSel 1 = false →
     ∃ t, exec .cphSetPin s = .next t ∧
       t.pinned s.keySlotSel = true ∧
       (∀ n, n ≠ s.keySlotSel → t.pinned n = s.pinned n) ∧
       t.cph = { s.cph with pins := t.cph.pins, done := some 0 } ∧
       s.sameRegs t [R.CPH_PINNED] ∧
       s.sameBut t [.regs, .cph]) ∧
  (∀ (s : State) (hostBytes : List Byte) (ecc : EccResult) (k : List Byte),
     s.keyOpWaits 5 = true →
     s.get F.CPH_KEY_OP_STG_SRC = 1 →
     s.dmaOpen 0 = true →
     s.isOpen = false →
     s.get F.WKT_LIFECYCLE_ERASING = 0 →
     ∃ t, exec (.twkInstall hostBytes ⟨ecc, .ok⟩) s = .next t ∧
       (s.twkOpen (bytesAt hostBytes 0 1792) = none → t.cph = { s.cph with done := some 0x150A }) ∧
       (s.twkOpen (bytesAt hostBytes 0 1792) = some k → t.cph.done = some 0 ∧ spGet (fun _ => []) t.cph.twks s.keyTdSel = k ∧ spGet (fun _ => 0) t.cph.twkCtr s.keyTdSel = leAt (bytesAt hostBytes 0 1792) 32 8) ∧
       (∀ d, d ≠ s.keyTdSel → spGet (fun _ => []) t.cph.twks d = spGet (fun _ => []) s.cph.twks d) ∧
       t.cph.cache = s.cph.cache ∧ t.cph.pins = s.cph.pins ∧ t.cph.reqs = s.cph.reqs ∧
       s.sameRegs t [] ∧
       s.sameBut t [.cph, .pcie, .out]) ∧
  (∀ (s : State),
     s.keyOpWaits 6 = true →
     ∃ t, exec .twkRemove s = .next t ∧
       (spGet (fun _ => []) t.cph.twks s.keyTdSel = []) ∧
       (∀ d, d ≠ s.keyTdSel → spGet (fun _ => []) t.cph.twks d = spGet (fun _ => []) s.cph.twks d) ∧
       t.cph = { s.cph with twks := t.cph.twks, done := some 0 } ∧
       s.sameRegs t [] ∧
       s.sameBut t [.cph]) ∧
  (∀ (s : State),
     s.cph.done = some 0 →
     s.cphHeld = false →
     ∃ t, exec .cphKeyOpDone s = .next t ∧
       t.get F.CPH_KEY_COMMIT_PENDING = 0 ∧ t.get F.CPH_KEY_STATUS_BUSY = 0 ∧ t.get F.CPH_KEY_STATUS_LAST_FC = 0 ∧
       t.get F.CPH_KEY_GEN_GEN = (s.get F.CPH_KEY_GEN_GEN + 1) % 2 ^ 32 ∧
       t.cph = { s.cph with done := none } ∧
       s.sameRegs t [R.CPH_KEY_COMMIT, R.CPH_KEY_STATUS, R.CPH_KEY_GEN] ∧
       s.sameBut t [.regs, .cph]) ∧
  (∀ (s : State),
     s.cph.done = some 0x150A →
     s.cphHeld = false →
     ∃ t, exec .cphKeyOpDone s = .next t ∧
       t.get F.CPH_KEY_COMMIT_PENDING = 0 ∧ t.get F.CPH_KEY_STATUS_BUSY = 0 ∧ t.get F.CPH_KEY_STATUS_LAST_FC = 0x150A ∧
       t.get F.CPH_KEY_GEN_GEN = s.get F.CPH_KEY_GEN_GEN ∧
       t.hasError uCph 9 ∧
       t.cph = { s.cph with done := none } ∧
       s.sameBut t [.regs, .cph, .pcie, .out, .aia])

/-- Work requests of a reliable send queue go out, are kept until acknowledged, or complete locally. On an RC QP in
RTS with nothing outstanding, an inline SEND, SEND_IMM, SEND_INV, WRITE or WRITE_IMM of one packet sends that
packet with the next PSN and an acknowledgement request, keeps it, starts the request with the next number and
passes its slots; a READ or atomic with good elements sends its request packet and counts the PSNs of its
response. LOCAL_INV starts an invalidation and holds the queue; BIND_MW writes the window from its parent and
advances its key; WAIT goes on once the count is reached, and not before; NOP does nothing; an unsignaled one of
these completes at once without an entry. All of memory outside the QP context (and the window) keeps its bytes.
(11_rdma.md R278, 11_rdma.md R284, 11_rdma.md R285, 11_rdma.md R288, 11_rdma.md R293, 11_rdma.md R299) -/
def Obligations.SendQueueRequests : Prop :=
  (∀ (s : State) (qp : Nat) (h : TeHost),
     s.sendReady qp 1 h = true →
     s.qc qp QC.type = 0 →
     s.isMp qp = false →
     wqeInline h.wqe = true →
     leAt h.wqe 48 4 ≤ 256 ∧ leAt h.wqe 48 4 ≤ pmtuBytes (s.qc qp QC.pmtu) →
     0 < s.teWindow qp →
     ∃ t, exec (.teSend qp h) s = .next t ∧
       s.sendEvent t qp h.wqe ∧
       (t.teQp qp).tx = [s.sendTx qp h.wqe 1 (leAt h.wqe 48 4) 1] ∧
       (t.teQp qp).pkts = (s.teQp qp).pkts ++ [⟨s.qc qp QC.nextPsn, 4, [], bytesAt h.wqe 64 (leAt h.wqe 48 4), true, (wqeFlags h.wqe / 4 % 2 == 1), 0, some (s.teQp qp).nextId⟩] ∧
       (t.teQp qp).sqStart = ((s.teQp qp).sqStart + wqeSlots h.wqe 0) % 65536 ∧ (t.teQp qp).nextId = (s.teQp qp).nextId + 1 ∧ (t.teQp qp).txMsn = (s.teQp qp).txMsn + 1 ∧
       t.qc qp QC.nextPsn = psnAdd (s.qc qp QC.nextPsn) 1 ∧
       t.prm = (s.teSendPacket qp 4 (s.qc qp QC.nextPsn) (s.qc qp QC.destQpn) 0 (wqeFlags h.wqe / 4 % 2 == 1) true (bytesAt h.wqe 64 (leAt h.wqe 48 4)) []).prm ∧
       s.sameBytesBut t (unitByteAddr s.plan uTe (qpBase qp)) 256 ∧
       s.sameRegs t [] ∧
       s.sameBut t [.mem, .poison, .zeroMap, .te, .prm, .pcie, .out, .free]) ∧
  (∀ (s : State) (qp : Nat) (h : TeHost),
     s.sendReady qp 2 h = true →
     s.qc qp QC.type = 0 →
     s.isMp qp = false →
     wqeInline h.wqe = true →
     leAt h.wqe 48 4 ≤ 256 ∧ leAt h.wqe 48 4 ≤ pmtuBytes (s.qc qp QC.pmtu) →
     0 < s.teWindow qp →
     ∃ t, exec (.teSendImm qp h) s = .next t ∧
       s.sendEvent t qp h.wqe ∧
       (t.teQp qp).tx = [s.sendTx qp h.wqe 1 (leAt h.wqe 48 4) 1] ∧
       (t.teQp qp).pkts = (s.teQp qp).pkts ++ [⟨s.qc qp QC.nextPsn, 5, natBE 4 (wqeWord h.wqe 0 % 2 ^ 32), bytesAt h.wqe 64 (leAt h.wqe 48 4), true, (wqeFlags h.wqe / 4 % 2 == 1), 0, some (s.teQp qp).nextId⟩] ∧
       (t.teQp qp).sqStart = ((s.teQp qp).sqStart + wqeSlots h.wqe 0) % 65536 ∧ (t.teQp qp).nextId = (s.teQp qp).nextId + 1 ∧ (t.teQp qp).txMsn = (s.teQp qp).txMsn + 1 ∧
       t.qc qp QC.nextPsn = psnAdd (s.qc qp QC.nextPsn) 1 ∧
       t.prm = (s.teSendPacket qp 5 (s.qc qp QC.nextPsn) (s.qc qp QC.destQpn) 0 (wqeFlags h.wqe / 4 % 2 == 1) true (natBE 4 (wqeWord h.wqe 0 % 2 ^ 32) ++ bytesAt h.wqe 64 (leAt h.wqe 48 4)) []).prm ∧
       s.sameBytesBut t (unitByteAddr s.plan uTe (qpBase qp)) 256 ∧
       s.sameRegs t [] ∧
       s.sameBut t [.mem, .poison, .zeroMap, .te, .prm, .pcie, .out, .free]) ∧
  (∀ (s : State) (qp : Nat) (h : TeHost),
     s.sendReady qp 3 h = true →
     s.qc qp QC.type = 0 →
     s.isMp qp = false →
     wqeInline h.wqe = true →
     leAt h.wqe 48 4 ≤ 256 ∧ leAt h.wqe 48 4 ≤ pmtuBytes (s.qc qp QC.pmtu) →
     0 < s.teWindow qp →
     ∃ t, exec (.teSendInv qp h) s = .next t ∧
       s.sendEvent t qp h.wqe ∧
       (t.teQp qp).tx = [s.sendTx qp h.wqe 1 (leAt h.wqe 48 4) 1] ∧
       (t.teQp qp).pkts = (s.teQp qp).pkts ++ [⟨s.qc qp QC.nextPsn, 23, natBE 4 (wqeWord h.wqe 0 % 2 ^ 32), bytesAt h.wqe 64 (leAt h.wqe 48 4), true, (wqeFlags h.wqe / 4 % 2 == 1), 0, some (s.teQp qp).nextId⟩] ∧
       (t.teQp qp).sqStart = ((s.teQp qp).sqStart + wqeSlots h.wqe 0) % 65536 ∧ (t.teQp qp).nextId = (s.teQp qp).nextId + 1 ∧ (t.teQp qp).txMsn = (s.teQp qp).txMsn + 1 ∧
       t.qc qp QC.nextPsn = psnAdd (s.qc qp QC.nextPsn) 1 ∧
       t.prm = (s.teSendPacket qp 23 (s.qc qp QC.nextPsn) (s.qc qp QC.destQpn) 0 (wqeFlags h.wqe / 4 % 2 == 1) true (natBE 4 (wqeWord h.wqe 0 % 2 ^ 32) ++ bytesAt h.wqe 64 (leAt h.wqe 48 4)) []).prm ∧
       s.sameBytesBut t (unitByteAddr s.plan uTe (qpBase qp)) 256 ∧
       s.sameRegs t [] ∧
       s.sameBut t [.mem, .poison, .zeroMap, .te, .prm, .pcie, .out, .free]) ∧
  (∀ (s : State) (qp : Nat) (h : TeHost),
     s.sendReady qp 4 h = true →
     s.qc qp QC.type = 0 →
     s.isMp qp = false →
     wqeInline h.wqe = true →
     leAt h.wqe 48 4 ≤ 256 ∧ leAt h.wqe 48 4 ≤ pmtuBytes (s.qc qp QC.pmtu) →
     0 < s.teWindow qp →
     ∃ t, exec (.teWrite qp h) s = .next t ∧
       s.sendEvent t qp h.wqe ∧
       (t.teQp qp).tx = [s.sendTx qp h.wqe 1 (leAt h.wqe 48 4) 1] ∧
       (t.teQp qp).pkts = (s.teQp qp).pkts ++ [⟨s.qc qp QC.nextPsn, 10, reth (wqeWord h.wqe 2) (wqeWord h.wqe 3 / 2 ^ 32) (leAt h.wqe 48 4), bytesAt h.wqe 64 (leAt h.wqe 48 4), true, (wqeFlags h.wqe / 4 % 2 == 1), 0, some (s.teQp qp).nextId⟩] ∧
       (t.teQp qp).sqStart = ((s.teQp qp).sqStart + wqeSlots h.wqe 0) % 65536 ∧ (t.teQp qp).nextId = (s.teQp qp).nextId + 1 ∧ (t.teQp qp).txMsn = (s.teQp qp).txMsn + 1 ∧
       t.qc qp QC.nextPsn = psnAdd (s.qc qp QC.nextPsn) 1 ∧
       t.prm = (s.teSendPacket qp 10 (s.qc qp QC.nextPsn) (s.qc qp QC.destQpn) 0 (wqeFlags h.wqe / 4 % 2 == 1) true (reth (wqeWord h.wqe 2) (wqeWord h.wqe 3 / 2 ^ 32) (leAt h.wqe 48 4) ++ bytesAt h.wqe 64 (leAt h.wqe 48 4)) []).prm ∧
       s.sameBytesBut t (unitByteAddr s.plan uTe (qpBase qp)) 256 ∧
       s.sameRegs t [] ∧
       s.sameBut t [.mem, .poison, .zeroMap, .te, .prm, .pcie, .out, .free]) ∧
  (∀ (s : State) (qp : Nat) (h : TeHost),
     s.sendReady qp 5 h = true →
     s.qc qp QC.type = 0 →
     s.isMp qp = false →
     wqeInline h.wqe = true →
     leAt h.wqe 48 4 ≤ 256 ∧ leAt h.wqe 48 4 ≤ pmtuBytes (s.qc qp QC.pmtu) →
     0 < s.teWindow qp →
     ∃ t, exec (.teWriteImm qp h) s = .next t ∧
       s.sendEvent t qp h.wqe ∧
       (t.teQp qp).tx = [s.sendTx qp h.wqe 1 (leAt h.wqe 48 4) 1] ∧
       (t.teQp qp).pkts = (s.teQp qp).pkts ++ [⟨s.qc qp QC.nextPsn, 11, reth (wqeWord h.wqe 2) (wqeWord h.wqe 3 / 2 ^ 32) (leAt h.wqe 48 4) ++ natBE 4 (wqeWord h.wqe 0 % 2 ^ 32), bytesAt h.wqe 64 (leAt h.wqe 48 4), true, (wqeFlags h.wqe / 4 % 2 == 1), 0, some (s.teQp qp).nextId⟩] ∧
       (t.teQp qp).sqStart = ((s.teQp qp).sqStart + wqeSlots h.wqe 0) % 65536 ∧ (t.teQp qp).nextId = (s.teQp qp).nextId + 1 ∧ (t.teQp qp).txMsn = (s.teQp qp).txMsn + 1 ∧
       t.qc qp QC.nextPsn = psnAdd (s.qc qp QC.nextPsn) 1 ∧
       t.prm = (s.teSendPacket qp 11 (s.qc qp QC.nextPsn) (s.qc qp QC.destQpn) 0 (wqeFlags h.wqe / 4 % 2 == 1) true (reth (wqeWord h.wqe 2) (wqeWord h.wqe 3 / 2 ^ 32) (leAt h.wqe 48 4) ++ natBE 4 (wqeWord h.wqe 0 % 2 ^ 32) ++ bytesAt h.wqe 64 (leAt h.wqe 48 4)) []).prm ∧
       s.sameBytesBut t (unitByteAddr s.plan uTe (qpBase qp)) 256 ∧
       s.sameRegs t [] ∧
       s.sameBut t [.mem, .poison, .zeroMap, .te, .prm, .pcie, .out, .free]) ∧
  (∀ (s : State) (qp : Nat) (h : TeHost),
     s.sendReady qp 6 h = true →
     s.qc qp QC.type = 0 →
     s.isMp qp = false →
     (packetsOf (wqeWord h.wqe 3 % 2 ^ 32) (pmtuBytes (s.qc qp QC.pmtu))) ≤ s.teWindow qp →
     (wqeWord h.wqe 3 % 2 ^ 32) ≤ 2 ^ 31 ∧ (wqeWord h.wqe 3 % 2 ^ 32) ≤ sgeBytes (wqeSges h.wqe 0) →
     s.teSgesOk qp (wqeSges h.wqe 0) acLocalWrite = true →
     ∃ t, exec (.teRead qp h) s = .next t ∧
       s.sendEvent t qp h.wqe ∧
       (t.teQp qp).tx = [s.sendTx qp h.wqe (packetsOf (wqeWord h.wqe 3 % 2 ^ 32) (pmtuBytes (s.qc qp QC.pmtu))) (wqeWord h.wqe 3 % 2 ^ 32) (packetsOf (wqeWord h.wqe 3 % 2 ^ 32) (pmtuBytes (s.qc qp QC.pmtu)))] ∧
       (t.teQp qp).pkts = (s.teQp qp).pkts ++ [⟨s.qc qp QC.nextPsn, 12, reth (wqeWord h.wqe 2) (wqeWord h.wqe 3 / 2 ^ 32) (wqeWord h.wqe 3 % 2 ^ 32), [], true, false, 0, some (s.teQp qp).nextId⟩] ∧
       (t.teQp qp).sqStart = ((s.teQp qp).sqStart + wqeSlots h.wqe 0) % 65536 ∧ (t.teQp qp).nextId = (s.teQp qp).nextId + 1 ∧ (t.teQp qp).txMsn = (s.teQp qp).txMsn + 1 ∧
       t.qc qp QC.nextPsn = psnAdd (s.qc qp QC.nextPsn) (packetsOf (wqeWord h.wqe 3 % 2 ^ 32) (pmtuBytes (s.qc qp QC.pmtu))) ∧
       t.prm = (s.teSendPacket qp 12 (s.qc qp QC.nextPsn) (s.qc qp QC.destQpn) 0 false true (reth (wqeWord h.wqe 2) (wqeWord h.wqe 3 / 2 ^ 32) (wqeWord h.wqe 3 % 2 ^ 32)) []).prm ∧
       s.sameBytesBut t (unitByteAddr s.plan uTe (qpBase qp)) 256 ∧
       s.sameRegs t [] ∧
       s.sameBut t [.mem, .poison, .zeroMap, .te, .prm, .pcie, .out, .free]) ∧
  (∀ (s : State) (qp : Nat) (h : TeHost),
     s.sendReady qp 7 h = true →
     s.qc qp QC.type = 0 →
     s.isMp qp = false →
     1 ≤ s.teWindow qp →
     8 ≤ 2 ^ 31 ∧ 8 ≤ sgeBytes (wqeSges h.wqe 0) →
     s.teSgesOk qp (wqeSges h.wqe 0) acLocalWrite = true →
     ∃ t, exec (.teAtomicCas qp h) s = .next t ∧
       s.sendEvent t qp h.wqe ∧
       (t.teQp qp).tx = [s.sendTx qp h.wqe 1 8 1] ∧
       (t.teQp qp).pkts = (s.teQp qp).pkts ++ [⟨s.qc qp QC.nextPsn, 19, atomicEth (wqeWord h.wqe 2) (wqeWord h.wqe 3 / 2 ^ 32) (wqeWord h.wqe 5) (wqeWord h.wqe 4), [], true, false, 0, some (s.teQp qp).nextId⟩] ∧
       (t.teQp qp).sqStart = ((s.teQp qp).sqStart + wqeSlots h.wqe 0) % 65536 ∧ (t.teQp qp).nextId = (s.teQp qp).nextId + 1 ∧ (t.teQp qp).txMsn = (s.teQp qp).txMsn + 1 ∧
       t.qc qp QC.nextPsn = psnAdd (s.qc qp QC.nextPsn) 1 ∧
       t.prm = (s.teSendPacket qp 19 (s.qc qp QC.nextPsn) (s.qc qp QC.destQpn) 0 false true (atomicEth (wqeWord h.wqe 2) (wqeWord h.wqe 3 / 2 ^ 32) (wqeWord h.wqe 5) (wqeWord h.wqe 4)) []).prm ∧
       s.sameBytesBut t (unitByteAddr s.plan uTe (qpBase qp)) 256 ∧
       s.sameRegs t [] ∧
       s.sameBut t [.mem, .poison, .zeroMap, .te, .prm, .pcie, .out, .free]) ∧
  (∀ (s : State) (qp : Nat) (h : TeHost),
     s.sendReady qp 8 h = true →
     s.qc qp QC.type = 0 →
     s.isMp qp = false →
     1 ≤ s.teWindow qp →
     8 ≤ 2 ^ 31 ∧ 8 ≤ sgeBytes (wqeSges h.wqe 0) →
     s.teSgesOk qp (wqeSges h.wqe 0) acLocalWrite = true →
     ∃ t, exec (.teAtomicFaa qp h) s = .next t ∧
       s.sendEvent t qp h.wqe ∧
       (t.teQp qp).tx = [s.sendTx qp h.wqe 1 8 1] ∧
       (t.teQp qp).pkts = (s.teQp qp).pkts ++ [⟨s.qc qp QC.nextPsn, 20, atomicEth (wqeWord h.wqe 2) (wqeWord h.wqe 3 / 2 ^ 32) (wqeWord h.wqe 4) 0, [], true, false, 0, some (s.teQp qp).nextId⟩] ∧
       (t.teQp qp).sqStart = ((s.teQp qp).sqStart + wqeSlots h.wqe 0) % 65536 ∧ (t.teQp qp).nextId = (s.teQp qp).nextId + 1 ∧ (t.teQp qp).txMsn = (s.teQp qp).txMsn + 1 ∧
       t.qc qp QC.nextPsn = psnAdd (s.qc qp QC.nextPsn) 1 ∧
       t.prm = (s.teSendPacket qp 20 (s.qc qp QC.nextPsn) (s.qc qp QC.destQpn) 0 false true (atomicEth (wqeWord h.wqe 2) (wqeWord h.wqe 3 / 2 ^ 32) (wqeWord h.wqe 4) 0) []).prm ∧
       s.sameBytesBut t (unitByteAddr s.plan uTe (qpBase qp)) 256 ∧
       s.sameRegs t [] ∧
       s.sameBut t [.mem, .poison, .zeroMap, .te, .prm, .pcie, .out, .free]) ∧
  (∀ (s : State) (qp i gen : Nat) (h : TeHost),
     s.sendReady qp 0x10 h = true →
     wqeWord h.wqe 0 % 2 ^ 32 = i * 256 + gen ∧ gen < 256 →
     s.mr i MR.valid = 1 ∧ s.mr i MR.gen = gen ∧ s.mr i MR.td = s.qc qp QC.td ∧ s.mr i MR.pd = s.qc qp QC.pd →
     ∃ t, exec (.teLocalInv qp h) s = .next t ∧
       s.sendEvent t qp h.wqe ∧
       t.te.invs = s.te.invs ++ [⟨i, some qp, s.qc qp QC.fn⟩] ∧
       t.teQp qp = { s.teQp qp with holding := true, tx := [s.sendTx qp h.wqe 1 0 0], sqStart := ((s.teQp qp).sqStart + wqeSlots h.wqe (s.qc qp QC.type)) % 65536, nextId := (s.teQp qp).nextId + 1 } ∧
       (∀ c, c ≠ qp → t.teQp c = s.teQp c) ∧
       s.sameRegs t [] ∧
       s.sameBut t [.te, .pcie, .out]) ∧
  (∀ (s : State) (qp i p a : Nat) (h : TeHost),
     s.sendReady qp 0x11 h = true →
     s.qc qp QC.type = 0 →
     wqeFlags h.wqe % 2 = 0 →
     wqeWord h.wqe 4 % 2 ^ 32 / 256 = i ∧ wqeWord h.wqe 6 / 2 ^ 32 / 256 = p →
     spGet noBool s.te.windows i = true ∧ s.mr i MR.kind = 1 ∧ s.mr i MR.gen = wqeWord h.wqe 4 % 2 ^ 32 % 256 ∧ s.mr i MR.td = s.qc qp QC.td ∧ s.mr i MR.pd = s.qc qp QC.pd →
     s.mr p MR.kind = 0 ∧ s.mr p MR.access &&& acBind = acBind ∧ s.mr p MR.access &&& leAt h.wqe 40 1 = leAt h.wqe 40 1 →
     s.teKey qp (wqeWord h.wqe 6 / 2 ^ 32) (wqeWord h.wqe 2) (wqeWord h.wqe 3) 0 false = some a →
     s.invalidating i = false ∧ s.invalidating p = false →
     ∃ t, exec (.teBindMw qp h) s = .next t ∧
       s.sendEvent t qp h.wqe ∧
       t.mr i MR.valid = 1 ∧ t.mr i MR.gen = (s.mr i MR.gen + 1) % 256 ∧ t.mr i MR.boundQp = qp ∧ t.mr i MR.parent = p ∧
       t.mr i MR.vaBase = wqeWord h.wqe 2 ∧ t.mr i MR.length = wqeWord h.wqe 3 ∧ t.mr i MR.iova = a % 2 ^ 64 ∧ t.mr i MR.access = leAt h.wqe 40 1 ∧
       t.mr i MR.loc = s.mr p MR.loc ∧ t.mr i MR.fn = s.mr p MR.fn ∧ t.mr i MR.kind = 1 ∧
       t.qc qp QC.sqCi = ((s.teQp qp).sqStart + wqeSlots h.wqe 0) % 65536 ∧
       t.teQp qp = { s.teQp qp with sqStart := ((s.teQp qp).sqStart + wqeSlots h.wqe 0) % 65536, nextId := (s.teQp qp).nextId + 1 } ∧
       (∀ x, (x < unitByteAddr s.plan uTe (qpBase qp) ∨ unitByteAddr s.plan uTe (qpBase qp) + 256 ≤ x) → (x < unitByteAddr s.plan uTe (mrBase i) ∨ unitByteAddr s.plan uTe (mrBase i) + 64 ≤ x) → t.byte x = s.byte x) ∧
       s.sameRegs t [] ∧
       s.sameBut t [.mem, .poison, .zeroMap, .te, .pcie, .out]) ∧
  (∀ (s : State) (qp cq : Nat) (h : TeHost),
     s.sendReady qp 0x20 h = true →
     wqeFlags h.wqe % 2 = 0 →
     wqeWord h.wqe 2 / 2 ^ 40 = cq →
     s.cqUsed cq = true ∧ (s.teCq cq).fn = s.qc qp QC.fn →
     (s.cqF cq CQ.count + 2 ^ 32 - wqeWord h.wqe 2 % 2 ^ 32) % 2 ^ 32 < 2 ^ 31 →
     ∃ t, exec (.teWqeWait qp h) s = .next t ∧
       s.sendEvent t qp h.wqe ∧
       t.qc qp QC.sqCi = ((s.teQp qp).sqStart + wqeSlots h.wqe (s.qc qp QC.type)) % 65536 ∧
       t.teQp qp = { s.teQp qp with sqStart := ((s.teQp qp).sqStart + wqeSlots h.wqe (s.qc qp QC.type)) % 65536, nextId := (s.teQp qp).nextId + 1 } ∧
       s.sameBytesBut t (unitByteAddr s.plan uTe (qpBase qp)) 256 ∧
       s.sameRegs t [] ∧
       s.sameBut t [.mem, .poison, .zeroMap, .te, .pcie, .out]) ∧
  (∀ (s : State) (qp cq : Nat) (h : TeHost),
     s.sendReady qp 0x20 h = true →
     wqeWord h.wqe 2 / 2 ^ 40 = cq →
     s.cqUsed cq = true ∧ (s.teCq cq).fn = s.qc qp QC.fn →
     2 ^ 31 ≤ (s.cqF cq CQ.count + 2 ^ 32 - wqeWord h.wqe 2 % 2 ^ 32) % 2 ^ 32 →
     ∃ t, exec (.teWqeWait qp h) s = .next t ∧
       t.te = s.te ∧
       s.sameRegs t [] ∧
       s.sameBut t [.pcie, .out]) ∧
  (∀ (s : State) (qp : Nat) (h : TeHost),
     s.sendReady qp 0x21 h = true →
     wqeFlags h.wqe % 2 = 0 →
     ∃ t, exec (.teWqeNop qp h) s = .next t ∧
       s.sendEvent t qp h.wqe ∧
       t.qc qp QC.sqCi = ((s.teQp qp).sqStart + wqeSlots h.wqe (s.qc qp QC.type)) % 65536 ∧
       t.teQp qp = { s.teQp qp with sqStart := ((s.teQp qp).sqStart + wqeSlots h.wqe (s.qc qp QC.type)) % 65536, nextId := (s.teQp qp).nextId + 1 } ∧
       s.sameBytesBut t (unitByteAddr s.plan uTe (qpBase qp)) 256 ∧
       s.sameRegs t [] ∧
       s.sameBut t [.mem, .poison, .zeroMap, .te, .pcie, .out])

/-- RDMA packets, timers and posted receives move a queue pair on. A whole RDMA WRITE of one packet in sequence,
whose key covers it, is written to the host; EPSN and MSN advance; an acknowledgement of all that is outstanding
frees the packets and completes the unsignaled request. A timeout takes one retry and sends the packet again;
the RNR timer ends the wait and sends it again; the reorder timer sends an MP_ACK for EPSN; the congestion timer
decays alpha, counts a stage and raises the rate. A tagged receive without a match is posted with its mask; a
cancel of a posted one removes it and reports status 3. A finished invalidation clears VALID, advances the key,
frees the index and completes its entry. A doorbell sets the index it names. (11_rdma.md R279, 11_rdma.md R284,
11_rdma.md R296, 11_rdma.md R298, 11_rdma.md R299, 11_rdma.md R304, 11_rdma.md R305, 11_rdma.md R308, 11_rdma.md
R286) -/
def Obligations.ArrivalsTimersAndPosts : Prop :=
  (∀ (s : State) (e c : Nat) (h : TeHost) (m : Packet) (rest : List Packet) (r : RoceIn) (a : Nat) (data : List Byte),
     s.teRuns e = true →
     s.inboxOf (teEp e) = m :: rest →
     hGet m.words CH.kind = kPacket →
     teCtxEngine s.plan (hGet m.words CH.ctx) = some e →
     parseRoce m.payload = some r →
     h.ctxUe = false ∧ h.mrUe = false ∧ h.uc = .ok →
     hGet m.words CH.ctx = c ∧ c < 2 ^ 22 →
     s.qpUsed c = true ∧ s.qc c QC.state = 3 ∧ s.qc c QC.type = 0 ∧ s.isMp c = false →
     r.good = true ∧ m.poison = false ∧ hGet m.words CH.poison = 0 ∧ r.qpn = s.qc c QC.localQpn ∧ r.dst = s.srcIp c ∧ r.pkey = s.qc c QC.pkey →
     s.qc c QC.srqEn = 0 ∧ r.ce = false ∧ s.te.failing = [] →
     s.seqFull e = false ∧ s.dmaWaits (s.qc c QC.fn) = false ∧ s.teQuiet = true ∧ r.ver = 0 →
     ((s.teQp c).tx.all fun (x : TeTx) => x.rdv.isNone) = true →
     r.op = 10 ∧ r.ack = false →
     r.psn = s.qc c QC.epsn →
     (s.teQp c).rx = [] →
     data = r.body.drop 16 ∧ data ≠ [] ∧ data.length ≤ pmtuBytes (s.qc c QC.pmtu) ∧ data.length = beAt r.body 12 4 →
     s.teKey c (beAt r.body 8 4) (beAt r.body 0 8) data.length acRemoteWrite false = some a →
     s.mr (beAt r.body 8 4 / 256) MR.loc = 0 ∧ s.mr (beAt r.body 8 4 / 256) MR.pasidEn = 0 ∧ s.dmaOpen (s.mr (beAt r.body 8 4 / 256) MR.fn) = true →
     ∃ t, exec (.tePacketReceive e h) s = .next t ∧
       .hostWrite (s.mr (beAt r.body 8 4 / 256) MR.fn) a data (s.tlpAttr (s.mr (beAt r.body 8 4 / 256) MR.fn) none true false) ∈ t.out ∧
       t.qc c QC.epsn = psnAdd r.psn 1 ∧ t.qc c QC.msn = psnAdd (s.qc c QC.msn) 1 ∧
       (t.teQp c).rx = [] ∧ (t.teQp c).nak = false ∧ (t.teQp c).tx = (s.teQp c).tx ∧ (t.teQp c).pkts = (s.teQp c).pkts ∧
       t.inboxOf (teEp e) = rest ∧
       t.prm.out = s.prm.out ∧
       s.sameBytesBut t (unitByteAddr s.plan uTe (qpBase c)) 256 ∧
       s.sameRegs t [R.TE_ENG_CACHE_HITS e, R.TE_ENG_CACHE_MISSES e] ∧
       s.sameBut t [.regs, .mem, .poison, .zeroMap, .te, .prm, .pcie, .out, .free, .aia, .cache]) ∧
  (∀ (s : State) (e c : Nat) (h : TeHost) (m : Packet) (rest : List Packet) (r : RoceIn) (x : TeTx) (k : TePkt),
     s.teRuns e = true →
     s.inboxOf (teEp e) = m :: rest →
     hGet m.words CH.kind = kPacket →
     teCtxEngine s.plan (hGet m.words CH.ctx) = some e →
     parseRoce m.payload = some r →
     h.ctxUe = false ∧ h.mrUe = false ∧ h.uc = .ok →
     hGet m.words CH.ctx = c ∧ c < 2 ^ 22 →
     s.qpUsed c = true ∧ s.qc c QC.state = 3 ∧ s.qc c QC.type = 0 ∧ s.isMp c = false →
     r.good = true ∧ m.poison = false ∧ hGet m.words CH.poison = 0 ∧ r.qpn = s.qc c QC.localQpn ∧ r.dst = s.srcIp c ∧ r.pkey = s.qc c QC.pkey →
     s.qc c QC.srqEn = 0 ∧ r.ce = false ∧ s.te.failing = [] →
     s.seqFull e = false ∧ s.dmaWaits (s.qc c QC.fn) = false ∧ s.teQuiet = true ∧ r.ver = 0 →
     r.op = 17 ∧ r.body.length = 4 ∧ beAt r.body 0 1 / 32 = 0 →
     (s.teQp c).tx = [x] ∧ (s.teQp c).pkts = [k] ∧ k.owner = some x.id →
     x.op ≤ 5 ∧ x.n = 1 ∧ x.sent = 1 ∧ x.flags % 2 = 0 ∧ x.status = none ∧ x.rdv = none →
     k.psn = s.qc c QC.unaPsn ∧ r.psn = k.psn ∧ s.qc c QC.nextPsn = psnAdd k.psn 1 →
     ∃ t, exec (.tePacketReceive e h) s = .next t ∧
       t.qc c QC.unaPsn = psnAdd r.psn 1 ∧ t.qc c QC.sqCi = (x.index + x.slots) % 65536 ∧
       t.qc c QC.retryLeft = s.qc c QC.retryCnt ∧ t.qc c QC.rnrLeft = s.qc c QC.rnrRetry ∧
       (t.teQp c).tx = [] ∧ (t.teQp c).pkts = [] ∧
       t.inboxOf (teEp e) = rest ∧
       t.prm.out = s.prm.out ∧ t.out = s.out ∧
       s.sameBytesBut t (unitByteAddr s.plan uTe (qpBase c)) 256 ∧
       s.sameRegs t [R.TE_ENG_CACHE_HITS e, R.TE_ENG_CACHE_MISSES e] ∧
       s.sameBut t [.regs, .mem, .poison, .zeroMap, .te, .prm, .free, .cache]) ∧
  (∀ (s : State) (qp : Nat) (k : TePkt),
     s.teExpires qp = true →
     s.qc qp QC.timeout ≠ 0 ∧ s.qc qp QC.retryLeft ≠ 0 →
     (s.teQp qp).pkts = [k] ∧ (s.teQp qp).rnr = false →
     s.isMp qp = false ∧ k.op % 32 ≠ 12 →
     ∃ t, exec (.ackTimeout qp) s = .next t ∧
       t.qc qp QC.retryLeft = s.qc qp QC.retryLeft - 1 ∧
       (t.teQp qp).pkts = [k] ∧ (t.teQp qp).tx = (s.teQp qp).tx ∧
       t.prm = (s.teSendPacket qp k.op k.psn (s.qc qp QC.destQpn) k.path k.se k.ack (k.ext ++ k.data) []).prm ∧
       s.sameBytesBut t (unitByteAddr s.plan uTe (qpBase qp)) 256 ∧
       s.sameRegs t [] ∧
       s.sameBut t [.mem, .poison, .zeroMap, .te, .prm, .free]) ∧
  (∀ (s : State) (qp : Nat) (k : TePkt),
     s.teExpires qp = true →
     (s.teQp qp).pkts = [k] ∧ (s.teQp qp).rnr = true →
     s.isMp qp = false ∧ k.op % 32 ≠ 12 →
     ∃ t, exec (.rnrTimer qp) s = .next t ∧
       (t.teQp qp).rnr = false ∧ (t.teQp qp).pkts = [k] ∧ (t.teQp qp).tx = (s.teQp qp).tx ∧
       t.prm = (s.teSendPacket qp k.op k.psn (s.qc qp QC.destQpn) k.path k.se k.ack (k.ext ++ k.data) []).prm ∧
       s.sameRegs t [] ∧
       s.sameBut t [.te, .prm, .free]) ∧
  (∀ (s : State) (qp : Nat),
     s.qpUsed qp = true ∧ s.isMp qp = true ∧ s.teRuns (s.qpEngine qp) = true →
     (s.teQp qp).seen ≠ [] →
     2 ≤ s.qc qp QC.state ∧ s.qc qp QC.state ≤ 5 →
     s.seqFull (s.qpEngine qp) = false →
     ∃ t, exec (.reorderTimer qp) s = .next t ∧
       t.get F.TE_MP_SNAK_TX_COUNT = min 0xFFFFFFFF (s.get F.TE_MP_SNAK_TX_COUNT + 1) ∧
       (t.teQp qp).unacked = 0 ∧ (t.teQp qp).seen = (s.teQp qp).seen ∧
       (t.prm = (s.teSendPacket qp 0xC4 (s.qc qp QC.epsn) (s.qc qp QC.destQpn) 0 false false (natBE 8 ((List.range 64).foldl (fun n i => if (s.teQp qp).seen.contains (psnAdd (s.qc qp QC.epsn) (1 + i)) || decide (2 ^ 23 ≤ psnDiff (psnAdd (s.qc qp QC.epsn) (1 + i)) (s.qc qp QC.epsn)) then n + 2 ^ i else n) 0) ++ natBE 3 (psnDiff (s.qc qp QC.msn) 1) ++ natBE 1 0 ++ natBE 4 0) []).prm) ∧
       s.sameRegs t [R.TE_MP_SNAK_TX] ∧
       s.sameBut t [.regs, .te, .prm, .free]) ∧
  (∀ (s : State) (qp cur tgt : Nat),
     s.teExpires qp = true →
     bitAt (s.teProfile qp).2.1 63 = true →
     (s.teQp qp).stage = 5 ∧ cur = s.qc qp QC.rateCur ∧ tgt = min (s.lineMbps qp) (s.qc qp QC.rateTgt + bitsAt (s.teProfile qp).1 31 0) →
     s.lineMbps qp < 2 ^ 32 →
     ∃ t, exec (.ccTimer qp) s = .next t ∧
       (t.teQp qp).stage = 6 ∧ (t.teQp qp).alpha = (65536 - bitsAt (s.teProfile qp).2.1 47 32) * (s.teQp qp).alpha / 65536 ∧
       t.qc qp QC.rateTgt = tgt ∧ t.qc qp QC.rateCur = min (s.lineMbps qp) ((cur + tgt) / 2) ∧
       (t.teQp qp).tx = (s.teQp qp).tx ∧ (t.teQp qp).pkts = (s.teQp qp).pkts ∧
       s.sameBytesBut t (unitByteAddr s.plan uTe (qpBase qp)) 256 ∧
       s.sameRegs t [] ∧
       s.sameBut t [.mem, .poison, .zeroMap, .te, .free]) ∧
  (∀ (s : State) (srq : Nat) (h : TeHost) (b : List Byte),
     b = bytesAt h.wqe 0 64 ∧ leAt b 15 1 = 1 ∧ h.we = .ok →
     s.srqUsed srq = true ∧ s.srqF srq SR.tmEn = 1 ∧ (s.teSrq srq).pi ≠ (s.teSrq srq).ci →
     s.teFnRuns (s.teSrq srq).fn = true ∧ s.dmaOpen (s.teSrq srq).fn = true ∧ s.te.failing = [] ∧ s.teQuiet = true →
     (((s.teSrq srq).unexp.any fun (u : TeUnexp) => u.claim.isNone && (leAt b 16 8 ^^^ u.tag) &&& leAt b 24 8 == 0) = false) →
     (s.teSrq srq).posted.length < s.srqF srq SR.postedMax →
     ((spKeys s.te.used).any fun c => s.qc c QC.srqEn == 1 && s.qc c QC.srq == srq && s.isMp c && s.teReceives c) = false →
     ∃ t, exec (.teTaggedReceive srq h) s = .next t ∧
       t.teSrq srq = { s.teSrq srq with ci := ((s.teSrq srq).ci + 1) % 65536, posted := (s.teSrq srq).posted ++ [({ recvOf (s.teSrq srq).ci b with tagged := true }, leAt b 24 8)] } ∧
       (∀ j, j ≠ srq → t.teSrq j = s.teSrq j) ∧
       s.sameRegs t [] ∧
       s.sameBut t [.te, .pcie, .out]) ∧
  (∀ (s : State) (srq cq : Nat) (h : TeHost) (b : List Byte) (x : TeRecv × Nat),
     b = bytesAt h.wqe 0 64 ∧ leAt b 15 1 = 2 ∧ h.we = .ok →
     s.srqUsed srq = true ∧ s.srqF srq SR.tmEn = 1 ∧ (s.teSrq srq).pi ≠ (s.teSrq srq).ci →
     s.teFnRuns (s.teSrq srq).fn = true ∧ s.dmaOpen (s.teSrq srq).fn = true ∧ s.te.failing = [] ∧ s.teQuiet = true →
     ((spKeys s.te.used).all fun c => decide (c < 2 ^ 22)) = true →
     ((spKeys s.te.used).any fun c => s.qc c QC.srqEn == 1 && s.qc c QC.srq == srq && s.isMp c && s.teReceives c) = false →
     (s.teSrq srq).posted = [x] ∧ x.1.wrId = BitVec.ofNat 64 (leAt b 0 8) →
     s.srqF srq SR.tagCq = cq ∧ cq < 2 ^ 22 ∧ s.cqUsed cq = true ∧ (s.teCq cq).err = false ∧ s.cqF cq CQ.armed = 0 →
     diff16 (s.teCq cq).pi (s.teCq cq).ci < 2 ^ s.cqF cq CQ.log2 - 1 ∧ s.dmaOpen (s.teCq cq).fn = true →
     ∃ t, exec (.teCancelReceive srq h) s = .next t ∧
       t.teSrq srq = { s.teSrq srq with ci := ((s.teSrq srq).ci + 1) % 65536, posted := [] } ∧
       t.teCq cq = { s.teCq cq with pi := ((s.teCq cq).pi + 1) % 131072 } ∧
       t.cqF cq CQ.count = (s.cqF cq CQ.count + 1) % 2 ^ 32 ∧
       (.hostWrite (s.teCq cq).fn (s.cqF cq CQ.base + 64 * ((s.teCq cq).pi % 2 ^ s.cqF cq CQ.log2)) (([x.1.wrId, cqeWord1 1 3 ceTag 0 x.1.index, 0, 0, s.timeWord2, 0, 0].flatMap fun w => natLE 8 w.toNat) ++ natLE 8 (if (s.teCq cq).pi / 2 ^ s.cqF cq CQ.log2 % 2 = 0 then 1 else 0)) (s.tlpAttr (s.teCq cq).fn none false false) ∈ t.out) ∧
       s.sameBytesBut t (unitByteAddr s.plan uTe (cqBase cq)) 64 ∧
       s.sameRegs t [] ∧
       s.sameBut t [.mem, .poison, .zeroMap, .te, .pcie, .out]) ∧
  (∀ (s : State) (index : Nat) (x : TeInv),
     s.te.invs[index]? = some x →
     x.qp = none ∧ s.keyPlacements x.index = false ∧ s.teFnRuns x.fn = true ∧ s.dmaOpen x.fn = true ∧ (s.teFn x.fn).waiting = [] →
     s.te.failing = [] ∧ s.teQuiet = true →
     ∃ t, exec (.invalidationComplete index) s = .next t ∧
       t.te.invs = s.te.invs.eraseIdx index ∧
       t.mr x.index MR.valid = 0 ∧ t.mr x.index MR.gen = (s.mr x.index MR.gen + 1) % 256 ∧
       spGet noBool t.te.windows x.index = false ∧
       t.te.freed = s.te.freed.filter (· != x.index) ++ [x.index] ∧
       s.ctrlDone t x.fn 0 ∧
       s.sameBytesBut t (unitByteAddr s.plan uTe (mrBase x.index)) 64 ∧
       s.sameRegs t [] ∧
       s.sameBut t [.mem, .poison, .zeroMap, .te, .pcie, .out]) ∧
  (∀ (s : State) (fn pi : Nat),
     teFnHas s.plan fn = true ∧ s.fnAmended fn = false →
     (s.teFn fn).waiting = [] →
     ∃ t, exec (.teFnCtrlPiWrite fn pi) s = .next t ∧
       t.teFn fn = { s.teFn fn with pi := pi % 65536 } ∧
       (∀ f, f ≠ fn → t.teFn f = s.teFn f) ∧
       t.te = { s.te with fns := t.te.fns } ∧
       s.sameRegs t [] ∧
       s.sameBut t [.te]) ∧
  (∀ (s : State) (fn c : Nat) (value : Word) (h : TeHost),
     bitsAt value 63 62 = 0 ∧ bitsAt value 55 32 = c ∧ s.te.failing = [] →
     teFnHas s.plan fn = true ∧ s.fnAmended fn = false ∧ (s.teFn fn).waiting = [] ∧ s.teBellWaits fn value = false →
     fnOwnsQp s.plan fn c = true ∧ s.qpUsed c = true ∧ h.ctxUe = false →
     ∃ t, exec (.teFnDoorbell fn value h) s = .next t ∧
       t.qc c QC.sqPi = bitsAt value 15 0 ∧
       (∀ f, t.teFn f = s.teFn f) ∧
       t.te = { s.te with fns := t.te.fns } ∧
       s.sameBytesBut t (unitByteAddr s.plan uTe (qpBase c)) 256 ∧
       s.sameRegs t [] ∧
       s.sameBut t [.mem, .poison, .zeroMap, .te]) ∧
  (∀ (s : State) (fn c : Nat) (value : Word) (h : TeHost),
     bitsAt value 63 62 = 3 ∧ bitsAt value 55 32 = c ∧ s.te.failing = [] →
     teFnHas s.plan fn = true ∧ s.fnAmended fn = false ∧ (s.teFn fn).waiting = [] ∧ s.teBellWaits fn value = false →
     fnOwnsCq s.plan fn c = true ∧ s.cqUsed c = true →
     ∃ t, exec (.teFnDoorbell fn value h) s = .next t ∧
       t.teCq c = { s.teCq c with ci := bitsAt value 15 0 } ∧
       (∀ j, j ≠ c → t.teCq j = s.teCq j) ∧ (∀ f, t.teFn f = s.teFn f) ∧
       t.te = { s.te with cqs := t.te.cqs, fns := t.te.fns, seqs := t.te.seqs } ∧
       s.sameRegs t [] ∧
       s.sameBut t [.te, .free]) ∧
  (∀ (s : State) (fn c : Nat) (value : Word) (h : TeHost),
     bitsAt value 63 62 = 0 ∧ bitsAt value 55 32 = c ∧ s.te.failing = [] →
     teFnHas s.plan fn = true ∧ s.fnAmended fn = false ∧ (s.teFn fn).waiting = [] ∧ s.teBellWaits fn value = false →
     fnOwnsQp s.plan fn c = false →
     ∃ t, exec (.teFnDoorbell fn value h) s = .next t ∧
       t.get F.TE_DB_DISCARD_COUNT = min 0xFFFFFFFF (s.get F.TE_DB_DISCARD_COUNT + 1) ∧
       (∀ f, t.teFn f = s.teFn f) ∧
       t.te = { s.te with fns := t.te.fns } ∧
       s.sameRegs t [R.TE_DB_DISCARD] ∧
       s.sameBut t [.regs, .te]) ∧
  (∀ (s : State) (fn : Nat) (value : Word) (h : TeHost),
     s.te.failing = [] →
     teFnHas s.plan fn = true ∧ s.fnAmended fn = false ∧ (s.teFn fn).waiting = [] ∧ s.teBellWaits fn value = true →
     ∃ t, exec (.teFnDoorbell fn value h) s = .next t ∧
       t.teFn fn = { s.teFn fn with waiting := [.bell value h] } ∧
       (∀ f, f ≠ fn → t.teFn f = s.teFn f) ∧
       t.te = { s.te with fns := t.te.fns } ∧
       s.sameBut t [.te])

/-- Control entries create, change and destroy queue pairs, queues, regions and windows. A control entry whose image
is in range and names only what the function holds is carried out and completes with status 0: a created QP,
SRQ, CQ, region or window gets an index of the function that was free, holds the image (or zero) with the owner
that the engine writes, and its number is the result; a region keeps the generation of its index in its key.
MODIFY_QP moves a QP along a transition of IBTA, QUERY_QP writes its context to the host and changes no memory,
a destroyed object reads as zero and is no longer used. DEREG_MR of a valid key that no window is bound to
starts an invalidation and keeps the ring busy. No other context, and no other byte of memory, changes.
(11_rdma.md R281, 11_rdma.md R284, 11_rdma.md R285, 11_rdma.md R287, 11_rdma.md R289, 11_rdma.md R290) -/
def Obligations.ControlRingEntries : Prop :=
  (∀ (s : State) (fn : Nat) (h : TeHost) (im : List Byte),
     s.ctrlReady fn 0x1 h = true →
     im = bytesAt h.data 0 144 ∧ ceArg (bytesAt h.wqe 0 64) = 0 →
     imF im QC.state = 0 ∧ qpImageOk im = true ∧ s.qpTmOk im = true ∧ s.qpImageOwned fn im = true →
     teFnQpBase s.plan fn + 2 ^ teFnQpLog2 s.plan fn ≤ 2 ^ 22 →
     (((List.range (2 ^ teFnQpLog2 s.plan fn)).any fun i => decide (2 ≤ teFnQpBase s.plan fn + i) && !s.qpUsed (teFnQpBase s.plan fn + i)) = true) →
     ∃ t, exec (.teCreateQp fn h) s = .next t ∧
       (∃ c, fnOwnsQp s.plan fn c = true ∧ s.qpUsed c = false ∧ t.qpUsed c = true ∧ (∀ d, d ≠ c → t.qpUsed d = s.qpUsed d) ∧ t.qc c QC.state = 0 ∧ t.qc c QC.type = imF im QC.type ∧ t.qc c QC.td = fnTd s.plan fn ∧ t.qc c QC.fn = fn ∧ t.qc c QC.localQpn = c ∧ t.qc c QC.sqCq = imF im QC.sqCq ∧ t.qc c QC.rqCq = imF im QC.rqCq ∧ t.teQp c = { teQpReset c with sqStart := imF im QC.sqCi } ∧ s.ctrlDone t fn c ∧ s.sameBytesBut t (unitByteAddr s.plan uTe (qpBase c)) 256) ∧
       s.sameRegs t [] ∧
       s.sameBut t [.mem, .poison, .zeroMap, .te, .pcie, .out, .free]) ∧
  (∀ (s : State) (fn : Nat) (h : TeHost) (c n : Nat) (im : List Byte),
     s.ctrlReady fn 0x2 h = true →
     ceObject (bytesAt h.wqe 0 64) = c ∧ ceArg (bytesAt h.wqe 0 64) = 1 →
     fnOwnsQp s.plan fn c = true ∧ s.qpUsed c = true ∧ c < 2 ^ 22 →
     (im = (List.range 18).flatMap fun w => bytesAt (if w = 0 then bytesAt h.data 0 144 else s.bytes (unitByteAddr s.plan uTe (qpBase c)) 144) (8 * w) 8) →
     (imF im QC.state = n ∧ (n = 1 ∨ n = 2) ∧ qpTransition (s.qc c QC.state) n = true ∧ imF im QC.delivery = 0) →
     imF im QC.type = s.qc c QC.type ∧ qpImageOk im = true ∧ s.qpTmOk im = true ∧ s.qpImageOwned fn im = true →
     ∃ t, exec (.teModifyQp fn h) s = .next t ∧
       t.qc c QC.state = n ∧ t.qc c QC.pmtu = imF im QC.pmtu ∧ t.qc c QC.localQpn = s.qc c QC.localQpn ∧ t.qc c QC.fn = fn ∧
       t.te = { s.te with fns := t.te.fns, seqs := t.te.seqs } ∧
       s.ctrlDone t fn 0 ∧
       s.sameBytesBut t (unitByteAddr s.plan uTe (qpBase c)) 256 ∧
       s.sameRegs t [] ∧
       s.sameBut t [.mem, .poison, .zeroMap, .te, .pcie, .out, .free]) ∧
  (∀ (s : State) (fn : Nat) (h : TeHost) (c : Nat),
     s.ctrlReady fn 0x3 h = true →
     ceObject (bytesAt h.wqe 0 64) = c →
     fnOwnsQp s.plan fn c = true ∧ s.qpUsed c = true →
     ∃ t, exec (.teQueryQp fn h) s = .next t ∧
       (t.out.any (fun x => match x with | .hostWrite f a d x => f == fn && x == s.tlpAttr fn none true false && a == leAt (bytesAt h.wqe 0 64) 16 8 && d.length == 256 && d.take 144 == s.bytes (unitByteAddr s.plan uTe (qpBase c)) 144 | _ => false) = true) ∧
       t.te = { s.te with fns := t.te.fns, seqs := t.te.seqs } ∧
       s.ctrlDone t fn 0 ∧
       s.sameRegs t [] ∧
       s.sameBut t [.te, .pcie, .out, .free]) ∧
  (∀ (s : State) (fn : Nat) (h : TeHost) (c : Nat),
     s.ctrlReady fn 0x4 h = true →
     ceObject (bytesAt h.wqe 0 64) = c →
     fnOwnsQp s.plan fn c = true ∧ s.qpUsed c = true ∧ s.isMp c = false →
     ∃ t, exec (.teDestroyQp fn h) s = .next t ∧
       t.qpUsed c = false ∧ t.qc c QC.state = 0 ∧ t.teQp c = teQpReset c ∧
       t.bytes (unitByteAddr s.plan uTe (qpBase c)) 256 = List.replicate 256 0 ∧
       (∀ d, d ≠ c → t.qpUsed d = s.qpUsed d ∧ t.teQp d = s.teQp d) ∧
       s.ctrlDone t fn 0 ∧
       s.sameBytesBut t (unitByteAddr s.plan uTe (qpBase c)) 256 ∧
       s.sameRegs t [] ∧
       s.sameBut t [.mem, .poison, .zeroMap, .te, .pcie, .out, .free]) ∧
  (∀ (s : State) (fn : Nat) (h : TeHost) (im : List Byte),
     s.ctrlReady fn 0x5 h = true →
     im = bytesAt h.data 0 128 →
     srqImageOk im = true ∧ imF im SR.tmEn = 0 ∧ imF im SR.state ≠ 2 →
     s.tagsReserved 65536 + imF im SR.postedMax + imF im SR.unexpMax ≤ 2097152 →
     (((List.range (2 ^ teFnSrqLog2 s.plan fn)).any fun i => !s.srqUsed (teFnSrqBase s.plan fn + i)) = true) →
     ∃ t, exec (.teCreateSrq fn h) s = .next t ∧
       (∃ j, fnOwnsSrq s.plan fn j = true ∧ s.srqUsed j = false ∧ t.srqUsed j = true ∧ (∀ d, d ≠ j → t.srqUsed d = s.srqUsed d) ∧ t.srqF j SR.state = 1 ∧ t.srqF j SR.base = imF im SR.base ∧ t.srqF j SR.log2 = imF im SR.log2 ∧ t.srqF j SR.limit = imF im SR.limit ∧ t.teSrq j = { teSrqReset j with fn := fn } ∧ s.ctrlDone t fn j ∧ s.sameBytesBut t (unitByteAddr s.plan uTe (srqBase j)) 128) ∧
       s.sameRegs t [] ∧
       s.sameBut t [.mem, .poison, .zeroMap, .te, .pcie, .out, .free]) ∧
  (∀ (s : State) (fn : Nat) (h : TeHost) (j : Nat) (im : List Byte),
     s.ctrlReady fn 0x6 h = true →
     ceObject (bytesAt h.wqe 0 64) = j →
     im = bytesAt h.data 0 128 →
     fnOwnsSrq s.plan fn j = true ∧ s.srqUsed j = true →
     srqImageOk im = true ∧ imF im SR.tmEn = 0 ∧ imF im SR.state ≠ 2 →
     s.tagsReserved j + imF im SR.postedMax + imF im SR.unexpMax ≤ 2097152 →
     ∃ t, exec (.teModifySrq fn h) s = .next t ∧
       t.srqF j SR.state = 1 ∧ t.srqF j SR.base = imF im SR.base ∧ t.srqF j SR.log2 = imF im SR.log2 ∧ t.srqF j SR.limit = imF im SR.limit ∧
       t.te = { s.te with fns := t.te.fns, seqs := t.te.seqs } ∧
       s.ctrlDone t fn 0 ∧
       s.sameBytesBut t (unitByteAddr s.plan uTe (srqBase j)) 128 ∧
       s.sameRegs t [] ∧
       s.sameBut t [.mem, .poison, .zeroMap, .te, .pcie, .out, .free]) ∧
  (∀ (s : State) (fn : Nat) (h : TeHost) (j : Nat),
     s.ctrlReady fn 0x7 h = true →
     ceObject (bytesAt h.wqe 0 64) = j →
     fnOwnsSrq s.plan fn j = true ∧ s.srqUsed j = true →
     (((s.fnQps fn).any fun c => s.qc c QC.srqEn == 1 && s.qc c QC.srq == j) = false) →
     ∃ t, exec (.teDestroySrq fn h) s = .next t ∧
       t.srqUsed j = false ∧ t.teSrq j = teSrqReset j ∧
       t.bytes (unitByteAddr s.plan uTe (srqBase j)) 128 = List.replicate 128 0 ∧
       (∀ d, d ≠ j → t.srqUsed d = s.srqUsed d ∧ t.teSrq d = s.teSrq d) ∧
       s.ctrlDone t fn 0 ∧
       s.sameBytesBut t (unitByteAddr s.plan uTe (srqBase j)) 128 ∧
       s.sameRegs t [] ∧
       s.sameBut t [.mem, .poison, .zeroMap, .te, .pcie, .out, .free]) ∧
  (∀ (s : State) (fn : Nat) (h : TeHost) (im : List Byte),
     s.ctrlReady fn 0x8 h = true →
     im = bytesAt h.data 0 64 →
     cqImageOk im = true ∧ imF im CQ.vector < fnMsixSize s.plan fn →
     (((List.range (2 ^ teFnCqLog2 s.plan fn)).any fun i => !s.cqUsed (teFnCqBase s.plan fn + i)) = true) →
     ∃ t, exec (.teCreateCq fn h) s = .next t ∧
       (∃ j, fnOwnsCq s.plan fn j = true ∧ s.cqUsed j = false ∧ t.cqUsed j = true ∧ (∀ d, d ≠ j → t.cqUsed d = s.cqUsed d) ∧ t.cqF j CQ.base = imF im CQ.base ∧ t.cqF j CQ.log2 = imF im CQ.log2 ∧ t.cqF j CQ.vector = imF im CQ.vector ∧ t.cqF j CQ.armed = imF im CQ.armed ∧ t.cqF j CQ.count = 0 ∧ t.teCq j = { teCqReset j with fn := fn } ∧ s.ctrlDone t fn j ∧ s.sameBytesBut t (unitByteAddr s.plan uTe (cqBase j)) 64) ∧
       s.sameRegs t [] ∧
       s.sameBut t [.mem, .poison, .zeroMap, .te, .pcie, .out, .free]) ∧
  (∀ (s : State) (fn : Nat) (h : TeHost) (j : Nat),
     s.ctrlReady fn 0x9 h = true →
     ceObject (bytesAt h.wqe 0 64) = j →
     fnOwnsCq s.plan fn j = true ∧ s.cqUsed j = true →
     (((s.fnQps fn).any fun c => s.qc c QC.sqCq == j || s.qc c QC.rqCq == j) = false) →
     (((spKeys s.te.srqUsed).any fun q => s.srqF q SR.tmEn == 1 && s.srqF q SR.tagCq == j) = false) →
     ∃ t, exec (.teDestroyCq fn h) s = .next t ∧
       t.cqUsed j = false ∧ t.teCq j = teCqReset j ∧
       t.bytes (unitByteAddr s.plan uTe (cqBase j)) 64 = List.replicate 64 0 ∧
       (∀ d, d ≠ j → t.cqUsed d = s.cqUsed d ∧ t.teCq d = s.teCq d) ∧
       s.ctrlDone t fn 0 ∧
       s.sameBytesBut t (unitByteAddr s.plan uTe (cqBase j)) 64 ∧
       s.sameRegs t [] ∧
       s.sameBut t [.mem, .poison, .zeroMap, .te, .pcie, .out, .free]) ∧
  (∀ (s : State) (fn : Nat) (h : TeHost) (im : List Byte),
     s.ctrlReady fn 0xA h = true →
     im = bytesAt h.data 0 64 →
     mrImageOk im = true ∧ imF im MR.loc = 0 →
     teFnMrBase s.plan fn + 2 ^ teFnMrLog2 s.plan fn ≤ 2 ^ 24 →
     (((List.range (2 ^ teFnMrLog2 s.plan fn)).any fun i => s.mrFree (teFnMrBase s.plan fn + i)) = true) →
     ∃ t, exec (.teRegMr fn h) s = .next t ∧
       ∃ i, fnOwnsMr s.plan fn i = true ∧ s.mrFree i = true ∧ t.mr i MR.valid = 1 ∧ t.mr i MR.gen = s.mr i MR.gen ∧ t.mr i MR.td = fnTd s.plan fn ∧ t.mr i MR.fn = fn ∧ t.mr i MR.pd = imF im MR.pd ∧ t.mr i MR.access = imF im MR.access ∧ t.mr i MR.vaBase = imF im MR.vaBase ∧ t.mr i MR.length = imF im MR.length ∧ t.mr i MR.iova = imF im MR.iova ∧ s.ctrlDone t fn (i * 256 + s.mr i MR.gen) ∧ s.sameBytesBut t (unitByteAddr s.plan uTe (mrBase i)) 64 ∧
       s.sameRegs t [] ∧
       s.sameBut t [.mem, .poison, .zeroMap, .te, .pcie, .out, .free]) ∧
  (∀ (s : State) (fn : Nat) (h : TeHost) (i gen : Nat),
     s.ctrlReady fn 0xB h = true →
     ceArg (bytesAt h.wqe 0 64) = i * 256 + gen ∧ gen < 256 ∧ i < 2 ^ 24 →
     fnOwnsMr s.plan fn i = true ∧ s.mr i MR.valid = 1 ∧ s.mr i MR.gen = gen ∧ spGet noBool s.te.windows i = false →
     (((spKeys s.te.windows).any fun w => s.mr w MR.valid == 1 && s.mr w MR.parent == i) = false) →
     ∃ t, exec (.teDeregMr fn h) s = .next t ∧
       t.teFn fn = { s.teFn fn with busy := true } ∧
       t.te.invs = s.te.invs ++ [⟨i, none, fn⟩] ∧
       t.te = { s.te with fns := t.te.fns, invs := t.te.invs, seqs := t.te.seqs } ∧
       s.sameRegs t [] ∧
       s.sameBut t [.te, .pcie, .out]) ∧
  (∀ (s : State) (fn : Nat) (h : TeHost),
     s.ctrlReady fn 0xC h = true →
     ceArg (bytesAt h.wqe 0 64) < 2 ^ 24 →
     teFnMrBase s.plan fn + 2 ^ teFnMrLog2 s.plan fn ≤ 2 ^ 24 →
     (((List.range (2 ^ teFnMrLog2 s.plan fn)).any fun i => s.mrFree (teFnMrBase s.plan fn + i)) = true) →
     ∃ t, exec (.teAllocMw fn h) s = .next t ∧
       ∃ i, fnOwnsMr s.plan fn i = true ∧ s.mrFree i = true ∧ spGet noBool t.te.windows i = true ∧ t.mr i MR.kind = 1 ∧ t.mr i MR.valid = 0 ∧ t.mr i MR.gen = s.mr i MR.gen ∧ t.mr i MR.pd = ceArg (bytesAt h.wqe 0 64) ∧ t.mr i MR.td = fnTd s.plan fn ∧ t.mr i MR.fn = fn ∧ s.ctrlDone t fn (i * 256 + s.mr i MR.gen) ∧ s.sameBytesBut t (unitByteAddr s.plan uTe (mrBase i)) 64 ∧
       s.sameRegs t [] ∧
       s.sameBut t [.mem, .poison, .zeroMap, .te, .pcie, .out, .free])

/-- Queue pairs are forced to ERROR, congestion profiles committed, and microcode loaded, sealed and stopped.
TE_QP_FORCE of a used QP puts it in ERROR with nothing outstanding; a congestion profile in its ranges goes live
and counts the generation, one outside is refused with 0x160B. LOAD in OPEN before READY begins the load and
SEAL seals the control store; in READY each is refused with 0x1619. A load that passes every check puts the
patch and its counts in force; one whose source cannot be read, or that fails a check, clears the patch and
shows its code. An event that issues 65,536 words without END is counted, reported as 0x161B, and puts its QP in
ERROR; an uncorrectable word of the patch RAM is replaced by another engine's copy, and where no engine has one its
event ends and puts the QP in ERROR with 0x161C. (11_rdma.md R281, 11_rdma.md R309, 11_rdma.md R313, 12_transport_microcode.md R318,
12_transport_microcode.md R324, 12_transport_microcode.md R325, 12_transport_microcode.md R326,
12_transport_microcode.md R329, 12_transport_microcode.md R330) -/
def Obligations.TransportRegistersAndMicrocode : Prop :=
  (∀ (s : State) (c : Nat),
     s.get F.TE_QP_SEL_QP = c ∧ s.qpUsed c = true ∧ c < 2 ^ 22 →
     (teCtxEngine s.plan c).isSome = true ∧ s.qpAmended c = false →
     s.qc c QC.state ≠ 6 →
     (s.teQp c).tx = [] ∧ (s.teQp c).rx = [] ∧ s.qc c QC.srqEn = 1 ∧ s.te.failing = [] →
     bitAt (s.teFn (s.qc c QC.fn)).eventCq 63 = false →
     ∃ t, exec .teQpForce s = .next t ∧
       t.qc c QC.state = 6 ∧
       (t.teQp c).pkts = [] ∧ (t.teQp c).rnr = false ∧ (t.teQp c).seen = [] ∧ (t.teQp c).resp = [] ∧
       (∀ d, d ≠ c → t.teQp d = s.teQp d) ∧
       s.sameBytesBut t (unitByteAddr s.plan uTe (qpBase c)) 256 ∧
       s.sameRegs t [] ∧
       s.sameBut t [.mem, .poison, .zeroMap, .te]) ∧
  (∀ (s : State),
     1 ≤ bitsAt (s.rd R.TE_CC_RATE_STG) 63 32 ∧ bitsAt (s.rd R.TE_CC_RATE_STG) 63 32 ≤ 800000 →
     1 ≤ bitsAt (s.rd R.TE_CC_RATE_STG) 31 0 ∧ bitsAt (s.rd R.TE_CC_RATE_STG) 31 0 ≤ 800000 →
     1 ≤ bitsAt (s.rd R.TE_CC_TIMER_STG) 47 32 ∧ 1 ≤ bitsAt (s.rd R.TE_CC_TIMER_STG) 31 16 →
     1 ≤ bitsAt (s.rd R.TE_CC_BYTES_STG) 31 0 ∧ bitsAt (s.rd R.TE_CC_BYTES_STG) 31 0 ≤ 4194304 →
     ∃ t, exec .teCcCommitGo s = .next t ∧
       spGet profileReset t.te.profiles (s.get F.TE_CC_SEL_STG_PROFILE) = (s.rd R.TE_CC_RATE_STG, s.rd R.TE_CC_TIMER_STG, s.rd R.TE_CC_BYTES_STG) ∧
       (∀ k, k ≠ s.get F.TE_CC_SEL_STG_PROFILE → spGet profileReset t.te.profiles k = spGet profileReset s.te.profiles k) ∧
       t.get F.TE_CC_COMMIT_PENDING = 0 ∧ t.get F.TE_CC_GEN_GEN = (s.get F.TE_CC_GEN_GEN + 1) % 2 ^ 32 ∧
       t.te = { s.te with profiles := t.te.profiles } ∧
       s.sameRegs t [R.TE_CC_COMMIT, R.TE_CC_GEN] ∧
       s.sameBut t [.regs, .te]) ∧
  (∀ (s : State),
     ¬(1 ≤ bitsAt (s.rd R.TE_CC_RATE_STG) 63 32 ∧ bitsAt (s.rd R.TE_CC_RATE_STG) 63 32 ≤ 800000 ∧ 1 ≤ bitsAt (s.rd R.TE_CC_RATE_STG) 31 0 ∧ bitsAt (s.rd R.TE_CC_RATE_STG) 31 0 ≤ 800000 ∧ 1 ≤ bitsAt (s.rd R.TE_CC_TIMER_STG) 47 32 ∧ 1 ≤ bitsAt (s.rd R.TE_CC_TIMER_STG) 31 16 ∧ 1 ≤ bitsAt (s.rd R.TE_CC_BYTES_STG) 31 0 ∧ bitsAt (s.rd R.TE_CC_BYTES_STG) 31 0 ≤ 4194304) →
     ∃ t, exec .teCcCommitGo s = .next t ∧
       t.hasError uTe 9 ∧
       s.sameBut t [.regs, .pcie, .out, .aia]) ∧
  (∀ (s : State) (host : Bool),
     s.ready = false ∧ s.get F.TE_UC_STATUS_STATE = ucOpen →
     ∃ t, exec (.teUcLoad host) s = .next t ∧
       t.get F.TE_UC_STATUS_STATE = ucLoading ∧
       t.te = { s.te with ucHost := host, ucSrc := (s.get F.TE_UC_SRC_ADDR_ADDR, s.get F.TE_UC_SRC_LEN_LEN) } ∧
       s.sameRegs t [R.TE_UC_STATUS] ∧
       s.sameBut t [.regs, .te]) ∧
  (∀ (s : State) (host : Bool),
     (s.ready = true ∨ s.get F.TE_UC_STATUS_STATE ≠ ucOpen) →
     ∃ t, exec (.teUcLoad host) s = .next t ∧
       bitAt (t.rd R.TE_UC_ERR_STATUS) 1 = true ∧
       t.get F.TE_UC_STATUS_STATE = s.get F.TE_UC_STATUS_STATE ∧
       s.sameBut t [.regs, .pcie, .out, .aia]) ∧
  (∀ (s : State),
     s.ready = false ∧ s.get F.TE_UC_STATUS_STATE ≠ ucLoading →
     ∃ t, exec .teUcSeal s = .next t ∧
       t.get F.TE_UC_STATUS_STATE = ucSealed ∧
       s.sameRegs t [R.TE_UC_STATUS] ∧
       s.sameBut t [.regs]) ∧
  (∀ (s : State),
     (s.ready = true ∨ s.get F.TE_UC_STATUS_STATE = ucLoading) →
     ∃ t, exec .teUcSeal s = .next t ∧
       bitAt (t.rd R.TE_UC_ERR_STATUS) 1 = true ∧
       t.get F.TE_UC_STATUS_STATE = s.get F.TE_UC_STATUS_STATE ∧
       s.sameBut t [.regs, .pcie, .out, .aia]) ∧
  (∀ (s : State) (hostBytes : List Byte),
     s.get F.TE_UC_STATUS_STATE = ucLoading →
     s.te.ucHost = true ∧ s.dmaOpen 0 = true →
     ∃ t, exec (.teUcLoadEnd hostBytes ⟨.clean, .ok⟩) s = .next t ∧
       (lowestFailing (s.ucChecks (bytesAt hostBytes 0 s.te.ucSrc.2) s.te.ucSrc.2).1 = none → t.te = { s.te with patch := (s.ucChecks (bytesAt hostBytes 0 s.te.ucSrc.2) s.te.ucSrc.2).2, upsets := s.te.upsets.filter fun x => decide (x.1 % 16384 < 0x3000) } ∧ t.get F.TE_UC_STATUS_STATE = ucOpen ∧ t.get F.TE_UC_STATUS_RESULT = 0 ∧ t.get F.TE_UC_STATUS_PATCHED = 1 ∧ t.get F.TE_UC_VERSION_PATCH_VER = leAt (bytesAt hostBytes 0 s.te.ucSrc.2) 0x14 4 ∧ t.get F.TE_UC_ARB_ARB = leAt (bytesAt hostBytes 0 s.te.ucSrc.2) 0x18 4 ∧ t.rd (R.TE_UC_MEAS 0) = BitVec.ofNat 64 (leAt (Config.sha384 (bytesAt hostBytes 0 s.te.ucSrc.2)) 0 8)) ∧
       (∀ k, lowestFailing (s.ucChecks (bytesAt hostBytes 0 s.te.ucSrc.2) s.te.ucSrc.2).1 = some k → t.te = { s.te with patch := [], upsets := s.te.upsets.filter fun x => decide (x.1 % 16384 < 0x3000) } ∧ t.get F.TE_UC_STATUS_STATE = ucOpen ∧ t.get F.TE_UC_STATUS_PATCHED = 0 ∧ t.get F.TE_UC_STATUS_RESULT = (uTe * 256 + k) % 2 ^ 16) ∧
       s.sameBut t [.regs, .te, .pcie, .out, .aia]) ∧
  (∀ (s : State) (hostBytes : List Byte),
     s.get F.TE_UC_STATUS_STATE = ucLoading →
     s.te.ucHost = false →
     s.operatorReaches s.te.ucSrc.1 s.te.ucSrc.2 = true →
     s.poisoned s.te.ucSrc.1 s.te.ucSrc.2 = false →
     ∃ t, exec (.teUcLoadEnd hostBytes ⟨.clean, .ok⟩) s = .next t ∧
       (lowestFailing (s.ucChecks (s.bytes s.te.ucSrc.1 s.te.ucSrc.2) s.te.ucSrc.2).1 = none → t.te = { s.te with patch := (s.ucChecks (s.bytes s.te.ucSrc.1 s.te.ucSrc.2) s.te.ucSrc.2).2, upsets := s.te.upsets.filter fun x => decide (x.1 % 16384 < 0x3000) } ∧ t.get F.TE_UC_STATUS_STATE = ucOpen ∧ t.get F.TE_UC_STATUS_RESULT = 0 ∧ t.get F.TE_UC_STATUS_PATCHED = 1 ∧ t.get F.TE_UC_VERSION_PATCH_VER = leAt (s.bytes s.te.ucSrc.1 s.te.ucSrc.2) 0x14 4 ∧ t.get F.TE_UC_ARB_ARB = leAt (s.bytes s.te.ucSrc.1 s.te.ucSrc.2) 0x18 4 ∧ t.rd (R.TE_UC_MEAS 0) = BitVec.ofNat 64 (leAt (Config.sha384 (s.bytes s.te.ucSrc.1 s.te.ucSrc.2)) 0 8)) ∧
       (∀ k, lowestFailing (s.ucChecks (s.bytes s.te.ucSrc.1 s.te.ucSrc.2) s.te.ucSrc.2).1 = some k → t.te = { s.te with patch := [], upsets := s.te.upsets.filter fun x => decide (x.1 % 16384 < 0x3000) } ∧ t.get F.TE_UC_STATUS_STATE = ucOpen ∧ t.get F.TE_UC_STATUS_PATCHED = 0 ∧ t.get F.TE_UC_STATUS_RESULT = (uTe * 256 + k) % 2 ^ 16) ∧
       s.sameBut t [.regs, .te, .pcie, .out, .aia]) ∧
  (∀ (s : State) (hostBytes : List Byte),
     s.get F.TE_UC_STATUS_STATE = ucLoading →
     s.te.ucHost = true ∧ s.dmaOpen 0 = true →
     ∃ t, exec (.teUcLoadEnd hostBytes ⟨.clean, .refused⟩) s = .next t ∧
       t.te = { s.te with patch := [], upsets := s.te.upsets.filter fun x => decide (x.1 % 16384 < 0x3000) } ∧ t.get F.TE_UC_STATUS_STATE = ucOpen ∧ t.get F.TE_UC_STATUS_RESULT = 0x161A ∧ t.get F.TE_UC_STATUS_PATCHED = 0 ∧
       bitAt (t.rd R.TE_UC_ERR_STATUS) 0 = true ∧
       s.sameBut t [.regs, .te, .pcie, .out, .aia]) ∧
  (∀ (s : State) (c : Nat),
     s.teRuns (s.qpEngine c) = true ∧ s.qpUsed c = true ∧ c < 2 ^ 22 →
     s.qc c QC.state ≠ 6 →
     (s.teQp c).tx = [] ∧ (s.teQp c).rx = [] ∧ s.qc c QC.srqEn = 1 ∧ s.te.failing = [] →
     bitAt (s.teFn (s.qc c QC.fn)).eventCq 63 = false →
     ∃ t, exec (.eventWordLimit false c) s = .next t ∧
       t.qc c QC.state = 6 ∧
       (t.teQp c).pkts = [] ∧
       t.get F.TE_UC_FAULT_COUNT_COUNT = min 0xFFFFFFFF (s.get F.TE_UC_FAULT_COUNT_COUNT + 1) ∧
       bitAt (t.rd R.TE_UC_ERR_STATUS) 2 = true ∧
       (∀ d, d ≠ c → t.teQp d = s.teQp d) ∧
       (∀ e, e ≠ s.qpEngine c → t.seqOf e = s.seqOf e) ∧
       s.sameBytesBut t (unitByteAddr s.plan uTe (qpBase c)) 256 ∧
       s.sameBut t [.regs, .mem, .poison, .zeroMap, .te, .pcie, .out, .aia]) ∧
  (∀ (s : State) (c : Nat),
     s.teRuns ((s.conn c).f CI.engine) = true →
     ((s.conn c).f CI.state = connUp ∨ (s.conn c).f CI.state = connClosing) →
     s.nve.cmds = [] ∧ s.nve.jobs = [] →
     ∃ t, exec (.eventWordLimit true c) s = .next t ∧
       t.get F.TE_UC_FAULT_COUNT_COUNT = min 0xFFFFFFFF (s.get F.TE_UC_FAULT_COUNT_COUNT + 1) ∧
       bitAt (t.rd R.TE_UC_ERR_STATUS) 2 = true ∧
       s.sameBut t [.regs, .mem, .poison, .zeroMap, .prm, .arb, .te, .nve, .pcie, .out, .free, .aia]) ∧
  (∀ (s : State) (e i n : Nat) (x : UcCtx),
     (s.seqOf e)[i]? = some x ∧ x.repair = true ∧ s.teRuns e = true →
     s.ucCleanCopy e x.pc = some n →
     ∃ t, exec (.patchRepair e i) s = .next t ∧
       t.seqOf e = (s.seqOf e).set i { x with repair := false } ∧
       t.ucUpset e x.pc = (match csRead (s.ucStored n x.pc) with | .fixed _ p => s.ucUpset n x.pc ^^^ 2 ^ p | _ => s.ucUpset n x.pc) ∧
       (∀ k, k ≠ 16384 * e + x.pc → spGet (fun _ => 0) t.te.upsets k = spGet (fun _ => 0) s.te.upsets k) ∧
       t.te = { s.te with seqs := t.te.seqs, upsets := t.te.upsets } ∧
       s.sameBut t [.te]) ∧
  (∀ (s : State) (e i c : Nat) (x : UcCtx),
     (s.seqOf e)[i]? = some x ∧ x.repair = true ∧ s.teRuns e = true →
     s.ucCleanCopy e x.pc = none ∧ x.object = .qp c →
     s.qpUsed c = true ∧ c < 2 ^ 22 →
     s.qc c QC.state ≠ 6 →
     (s.teQp c).tx = [] ∧ (s.teQp c).rx = [] ∧ s.qc c QC.srqEn = 1 ∧ s.te.failing = [] →
     bitAt (s.teFn (s.qc c QC.fn)).eventCq 63 = false →
     ∃ t, exec (.patchRepair e i) s = .next t ∧
       t.qc c QC.state = 6 ∧
       t.seqOf e = (s.seqOf e).eraseIdx i ∧
       bitAt (t.rd R.TE_UC_ERR_STATUS) 3 = true ∧
       (∀ d, d ≠ c → t.teQp d = s.teQp d) ∧
       s.sameBytesBut t (unitByteAddr s.plan uTe (qpBase c)) 256 ∧
       s.sameBut t [.regs, .mem, .poison, .zeroMap, .te, .pcie, .out, .aia])

/-- The rows of a boot: the ROM, memory bring-up, the choice of an image, stage 2 and READY. Each row of Table
19-2's phases, on a state in which its condition holds, moves the phase, the boot registers and memory as the
rules say. (19_boot.md R505, 19_boot.md R506, 19_boot.md R508, 19_boot.md R511, 19_boot.md R518, 19_boot.md
R521, 19_boot.md R523, 19_boot.md R526) -/
def Obligations.BootSequence : Prop :=
  (∀ (s : State),
     s.phase = phLodge →
     s.pins.lodgePg = true →
     s.pins.sysRst = true →
     s.boot.rbgWait = false →
     s.pwr.trip = false →
     s.boot.warm = none →
     ∃ t, exec .romStart s = .next t ∧
       t.phase = phRom ∧
       t.rd R.APC_HART_ONLINE0 = BitVec.allOnes 64 ∧
       (∀ h, h < 96 → (spGet hartReset t.harts h).pc = s.get F.PWR_HART_ENTRY_ADDR ∧ (spGet hartReset t.harts h).wfi = (h != 0)) ∧
       (∀ h, h < 96 → (spGet hartReset t.harts h).pmp = (if h = 0 then [] else [pmpSecret, pmpRom])) ∧
       t.rd R.APC_HART_ONLINE1 = BitVec.ofNat 64 (2 ^ 32 - 1) ∧
       (∀ h, h < 96 → (spGet hartReset t.harts h).files = (if h = 0 then [] else [(8, ⟨true, 0, 0, 2⟩)])) ∧
       t.ddr = [0, 0, 0, 0] ∧
       s.sameRegs t [R.APC_HART_ONLINE0, R.APC_HART_ONLINE1, R.BOOT_STATUS] ∧
       s.sameBut t [.regs, .harts, .ddr]) ∧
  (∀ (s : State),
     s.phase = phLodge →
     s.pins.lodgePg = true →
     s.pins.sysRst = true →
     s.boot.rbgWait = false →
     s.pwr.trip = false →
     s.boot.warm.isSome = true →
     ∃ t, exec .romStart s = .next t ∧
       t.phase = phWarm ∧
       (∀ a, a < 0x1800000000 → t.byte a = 0) ∧
       (∀ a, 0x1800000000 ≤ a → t.byte a = s.byte a) ∧
       t.get F.MEM_DDR_INFO_SIZE_64M = s.ddr.sum % 2 ^ 14 ∧
       s.sameBut t [.regs, .mem, .poison, .zeroMap, .tiles, .harts, .cache]) ∧
  (∀ (s : State) (sizes failed : List Nat),
     s.phase = phRom ∧ s.bootHeld = false →
     ∃ t, exec (.ddrTrainingEnd sizes failed) s = .next t ∧
       (t.ddr = (List.range 4).map (fun c => if failed.contains c then 0 else sizes.getD c 0)) ∧
       (t.ddr.sum < 256 → t.phase = phHalted ∧ t.hasError uBoot 8) ∧
       (256 ≤ t.ddr.sum → t.phase = phRom) ∧
       t.get F.MEM_DDR_INFO_SIZE_64M = t.ddr.sum % 2 ^ 14 ∧
       (((List.range 4).any fun c => failed.contains c) = true → t.hasError uMem 6) ∧
       (∀ c, c < 4 → t.ddr.getD c 0 = 0 → (t.tile (834 + c)).sky = 3) ∧
       s.sameBut t [.regs, .ddr, .tiles, .pcie, .out, .aia]) ∧
  (∀ (s : State),
     s.phase = phRom ∧ s.bootHeld = false →
     256 ≤ s.get F.MEM_DDR_INFO_SIZE_64M →
     ∃ t, exec .hbmInitEnd s = .next t ∧
       (t.phase = (if s.get F.BOOT_STATUS_SRC_STRAP = 1 ∨ s.get F.BOOT_STATUS_SOURCE = 0 then phHostWait else phSelect)) ∧
       (∀ a, a < 0x1800000000 → t.byte a = 0) ∧
       (∀ a, 0x1800000000 ≤ a → t.byte a = s.byte a) ∧
       s.sameRegs t [R.BOOT_STATUS] ∧
       s.sameBut t [.regs, .mem, .poison, .zeroMap, .cache]) ∧
  (∀ (s : State),
     s.phase = phSelect ∧ s.bootHeld = false →
     s.boot.copied = false →
     s.boot.slot = none →
     recState (s.record 0) = 2 ∧ recTorn (s.record 0) = false ∧ s.get F.BOOT_ARB_FLOOR_FLOOR ≤ recArb (s.record 0) ∧ s.boot.excluded.contains 0 = false →
     recState (s.record 1) ≠ 2 ∧ recTorn (s.record 1) = false ∧ s.boot.excluded.contains 1 = false →
     ∃ t, exec (.imageCopyEnd true) s = .next t ∧
       t.boot = { s.boot with todo := [], slot := some 0, copied := true } ∧
       t.get (slotStateFld 0) = 2 ∧ t.get (slotStateFld 1) = recState (s.record 1) ∧
       t.get F.BOOT_SLOTA_SEQ_SEQ = recSeq (s.record 0) ∧ t.get F.BOOT_SLOTB_SEQ_SEQ = recSeq (s.record 1) ∧
       t.get F.BOOT_STATUS_DUAL_VALID = 0 ∧
       t.get F.BOOT_STATUS_ATTEMPTS = satInc 255 (s.get F.BOOT_STATUS_ATTEMPTS) % 2 ^ 8 ∧
       s.sameBytesBut t imgStore (min imgMax (leAt (s.record 0) 0x18 8)) ∧
       s.sameRegs t [R.BOOT_STATUS, R.BOOT_SLOT_STATE, R.BOOT_SLOTA_SEQ, R.BOOT_SLOTB_SEQ] ∧
       s.sameBut t [.regs, .mem, .poison, .zeroMap, .boot]) ∧
  (∀ (s : State) (k j : Nat) (rest : List Nat),
     s.phase = phSelect ∧ s.bootHeld = false →
     s.boot.copied = false →
     s.boot.slot = some j →
     s.boot.todo = k :: rest →
     ∃ t, exec (.imageCopyEnd true) s = .next t ∧
       t.boot.slot = some k ∧
       t.boot.todo = rest ∧
       t.boot.copied = true ∧
       t.get F.BOOT_STATUS_ATTEMPTS = satInc 255 (s.get F.BOOT_STATUS_ATTEMPTS) % 2 ^ 8 ∧
       (∀ i, i < min imgMax (leAt (s.record k) 0x18 8) → t.byte (imgStore + i) = spGet flashDefault s.boot.flash (0x10000000 * k + i)) ∧
       s.sameBytesBut t imgStore (min imgMax (leAt (s.record k) 0x18 8)) ∧
       s.sameRegs t [R.BOOT_STATUS] ∧
       s.sameBut t [.regs, .mem, .poison, .zeroMap, .boot]) ∧
  (∀ (s : State),
     s.phase = phSelect ∧ s.bootHeld = false →
     s.boot.copied = false →
     ∃ t, exec (.imageCopyEnd false) s = .next t ∧
       t.phase = phHostWait ∧
       t.hasError uBoot 11 ∧
       t.hasError uBoot 4 ∧
       s.sameBut t [.regs, .pcie, .out, .aia]) ∧
  (∀ (s : State) (k : Nat),
     s.phase = phSelect ∧ s.bootHeld = false →
     s.boot.copied = true →
     s.boot.slot = some k →
     k < 2 →
     ∃ t, exec .signatureVerifyEnd s = .next t ∧
       (s.slotVerifies k s.storeRead = true → t.phase = phStage2 ∧ t.get F.BOOT_STATUS_SOURCE = 1 + k ∧ t.get F.BOOT_SEQ_SEQ = recSeq (s.record k) % 2 ^ 64 ∧ t.boot.inForce = true ∧ t.wkt.lock = true) ∧
       (s.slotVerifies k s.storeRead = false → t.get F.BOOT_STATUS_FAIL_FC = 1 + k ∧ t.hasError uBoot k ∧ t.get (slotResultFld k) = 2 ∧ t.boot.copied = false ∧ t.phase = (if s.boot.todo = [] then phHostWait else phSelect) ∧ t.mem = s.mem ∧ t.harts = s.harts ∧ t.wkt = s.wkt) ∧
       s.sameBut t [.regs, .mem, .poison, .zeroMap, .boot, .wkt, .harts, .pcie, .out, .aia]) ∧
  (∀ (s : State) (w : BootWarm),
     s.boot.warm = some w →
     s.phase = phWarm ∧ s.bootHeld = false →
     ∃ t, exec .warmCheckEnd s = .next t ∧
       (Config.sha384 (s.storeRead 0 4096 ++ s.storeRead 0x1000 4928) ≠ w.meas → t.phase = phRom ∧ t.boot.warm = none ∧ t.get F.BOOT_STATUS_WARM_FALLBACK = 1 ∧ t.get F.BOOT_STATUS_FAIL_FC = 8 ∧ t.hasError uBoot 7 ∧ t.mem = s.mem) ∧
       (t.phase = phRom ∨ (t.phase = phStage2 ∧ t.get F.BOOT_STATUS_SOURCE = 3 ∧ t.get F.BOOT_SEQ_SEQ = w.seq % 2 ^ 64)) ∧
       s.sameBut t [.regs, .mem, .poison, .zeroMap, .boot, .wkt, .harts, .pcie, .out, .aia]) ∧
  (∀ (s : State) (w : BootWarm),
     s.boot.warm = some w →
     s.phase = phStage2 →
     s.get F.BOOT_STATUS_SOURCE = 3 →
     s.get F.SITE_STATUS_PHASE = 0 →
     ∃ t, exec .restorePlan s = .next t ∧
       t.get F.BOOT_CMD_STATUS_BUSY = 1 ∧
       t.get F.BOOT_CMD_STATUS_LAST_FC = 0 ∧
       t.get F.SITE_STATUS_PHASE = 4 ∧
       t.get F.SITE_COMMIT_PENDING = 1 ∧
       t.site.next = warmSections (s.bytes warmCopyAddr w.len) 4096 0 ∧
       t.site.restore = true ∧ t.site.live = s.site.live ∧
       s.sameRegs t [R.BOOT_CMD_STATUS, R.SITE_STATUS, R.SITE_COMMIT] ∧
       s.sameBut t [.regs, .site]) ∧
  (∀ (s : State),
     s.phase = phStage2 →
     ∃ t, exec .failImage s = .next t ∧
       t.phase = phRom ∧
       (s.get F.BOOT_STATUS_SOURCE = 1 ∨ s.get F.BOOT_STATUS_SOURCE = 2 → t.get F.BOOT_STATUS_FAIL_FC = 0x0B ∧ t.boot.excluded = s.boot.excluded ++ [s.get F.BOOT_STATUS_SOURCE - 1]) ∧
       (s.get F.BOOT_STATUS_SOURCE = 3 → t.boot.warm = none ∧ t.get F.BOOT_STATUS_FAIL_FC = 8 ∧ t.get F.BOOT_STATUS_WARM_FALLBACK = 1) ∧
       (∀ h, h < 96 → (spGet hartReset t.harts h).pc = t.get F.PWR_HART_ENTRY_ADDR ∧ (spGet hartReset t.harts h).wfi = (h != 0)) ∧
       (∀ a, a < 0x1800000000 → t.byte a = 0) ∧
       (∀ a, 0x010000000000 ≤ a → t.byte a = s.byte a) ∧
       t.boot.flash = s.boot.flash ∧ t.wkt = s.wkt ∧ t.pins = s.pins ∧ t.pending = s.pending) ∧
  (∀ (s : State),
     s.phase = phStage2 →
     s.pwr.holdAt = [] →
     ∃ t, exec .bootStage2LimitExpiry s = .next t ∧
       t.phase = phRom ∧
       (s.get F.BOOT_STATUS_SOURCE = 1 ∨ s.get F.BOOT_STATUS_SOURCE = 2 → t.get F.BOOT_STATUS_FAIL_FC = 0x0D ∧ t.boot.excluded = s.boot.excluded ++ [s.get F.BOOT_STATUS_SOURCE - 1]) ∧
       (s.get F.BOOT_STATUS_SOURCE = 3 → t.boot.warm = none ∧ t.get F.BOOT_STATUS_FAIL_FC = 8 ∧ t.get F.BOOT_STATUS_WARM_FALLBACK = 1) ∧
       (∀ h, h < 96 → (spGet hartReset t.harts h).pc = t.get F.PWR_HART_ENTRY_ADDR ∧ (spGet hartReset t.harts h).wfi = (h != 0)) ∧
       (∀ a, a < 0x1800000000 → t.byte a = 0) ∧
       (∀ a, 0x010000000000 ≤ a → t.byte a = s.byte a) ∧
       t.boot.flash = s.boot.flash ∧ t.wkt = s.wkt ∧ t.pins = s.pins ∧ t.pending = s.pending) ∧
  (∀ (s : State),
     s.phase = phStage2 →
     s.plan ≠ [] →
     s.get F.TE_UC_STATUS_STATE = ucSealed →
     (∀ c, c < 20 → s.cluState c = cReleased) →
     s.get F.SITE_STATUS_PHASE = 0 →
     ∃ t, exec .ready s = .next t ∧
       t.phase = phReady ∧
       t.get F.BOOT_CMD_STATUS_LAST_FC = 0 ∧
       (s.optionRom.all (· == 0) = false → t.pcie.rom = s.optionRom) ∧ (s.optionRom.all (· == 0) = true → t.pcie.rom = []) ∧
       s.sameBut t [.regs, .mem, .poison, .zeroMap, .prm, .arb, .cph, .te, .nve, .hif, .pcie, .pwr, .wkt, .out, .free, .aia]) ∧
  (∀ (s : State) (slot : Nat),
     s.get F.BOOT_CMD_STATUS_BUSY = 0 →
     (s.phase = phStage2 ∨ s.phase = phReady) →
     ∃ t, exec (.verifySlot slot) s = .next t ∧
       t.get F.BOOT_CMD_STATUS_BUSY = 1 ∧
       t.boot.verify = some (slot % 2) ∧
       t.boot = { s.boot with verify := some (slot % 2) } ∧
       s.sameRegs t [R.BOOT_CMD_STATUS] ∧
       s.sameBut t [.regs, .boot]) ∧
  (∀ (s : State) (k : Nat),
     s.boot.verify = some k →
     k < 2 →
     ∃ t, exec (.verifySlotEnd true) s = .next t ∧
       t.get F.BOOT_CMD_STATUS_BUSY = 0 ∧
       t.boot = { s.boot with verify := none } ∧
       t.get F.BOOT_CMD_STATUS_LAST_FC = (if (recState (s.record k) = 1 ∨ recState (s.record k) = 2) ∧ s.get F.BOOT_ARB_FLOOR_FLOOR ≤ recArb (s.record k) ∧ s.slotVerifies k (s.slotRead k) = true then 0 else 1 + k) ∧
       (recTorn (s.record k) = true → t.get F.BOOT_STATUS_TORN = 1 ∧ t.hasError uBoot 3) ∧
       s.sameBut t [.regs, .boot, .pcie, .out, .aia]) ∧
  (∀ (s : State) (k : Nat),
     s.boot.verify = some k →
     ∃ t, exec (.verifySlotEnd false) s = .next t ∧
       t.get F.BOOT_CMD_STATUS_BUSY = 0 ∧
       t.get F.BOOT_CMD_STATUS_LAST_FC = 0x0C ∧
       t.hasError uBoot 11 ∧
       t.boot = { s.boot with verify := none } ∧
       s.sameBut t [.regs, .boot, .pcie, .out, .aia]) ∧
  (∀ (s : State),
     s.boot.rbgWait = true →
     ∃ t, exec .rbgHealthPass s = .next t ∧
       t.boot = { s.boot with rbgWait := false } ∧
       t.rd (R.WKT_EPOCH 0) = s.takeFree.1 ∧ t.rd (R.WKT_EPOCH 1) = s.takeFree.2.takeFree.1 ∧
       (s.isOpen = true → t.wkt = { s.wkt with aliasKeys := some s.takeFree.2.takeFree.2.takeFree.1 }) ∧
       (s.isOpen = false → t.wkt = s.wkt) ∧
       s.sameRegs t [R.WKT_EPOCH 0, R.WKT_EPOCH 1] ∧
       s.sameBut t [.regs, .boot, .wkt, .free])

/-- The xSPI flash commands and the host push of an image. In READY an XSPI READ, PROGRAM or ERASE with a range
inside the flash starts and shows BUSY; the end of an ERASE leaves its range erased and clears BUSY; GO of the
boot window in HOST_WAIT starts the check of what was pushed, and a push whose length is not the image's fails
with condition 0x06. (19_boot.md R524, 19_boot.md R525, 19_boot.md R516, 16_cores_memory.md R449) -/
def Obligations.FlashCommands : Prop :=
  (∀ (s : State),
     s.phase = phReady →
     s.boot.verify = none →
     s.boot.xspi = none →
     0 < s.get F.BOOT_XSPI_LEN_LEN →
     s.get F.BOOT_XSPI_ADDR_ADDR + s.get F.BOOT_XSPI_LEN_LEN ≤ 2 ^ 30 →
     ∃ t, exec .xspiRead s = .next t ∧
       t.get F.BOOT_XSPI_STATUS_BUSY = 1 ∧
       t.boot = { s.boot with xspi := some (1, s.get F.BOOT_XSPI_ADDR_ADDR, s.get F.BOOT_XSPI_LEN_LEN, s.get F.BOOT_XSPI_BUF_ADDR) } ∧
       s.sameRegs t [R.BOOT_XSPI_STATUS] ∧
       s.sameBut t [.regs, .boot]) ∧
  (∀ (s : State),
     s.phase = phReady →
     s.boot.verify = none →
     s.boot.xspi = none →
     0 < s.get F.BOOT_XSPI_LEN_LEN →
     s.get F.BOOT_XSPI_ADDR_ADDR + s.get F.BOOT_XSPI_LEN_LEN ≤ 2 ^ 30 →
     ∃ t, exec .xspiProgram s = .next t ∧
       t.get F.BOOT_XSPI_STATUS_BUSY = 1 ∧
       t.boot = { s.boot with xspi := some (2, s.get F.BOOT_XSPI_ADDR_ADDR, s.get F.BOOT_XSPI_LEN_LEN, s.get F.BOOT_XSPI_BUF_ADDR) } ∧
       s.sameRegs t [R.BOOT_XSPI_STATUS] ∧
       s.sameBut t [.regs, .boot]) ∧
  (∀ (s : State),
     s.phase = phReady →
     s.boot.verify = none →
     s.boot.xspi = none →
     0 < s.get F.BOOT_XSPI_LEN_LEN →
     s.get F.BOOT_XSPI_ADDR_ADDR + s.get F.BOOT_XSPI_LEN_LEN ≤ 2 ^ 30 →
     s.get F.BOOT_XSPI_ADDR_ADDR % 65536 = 0 →
     s.get F.BOOT_XSPI_LEN_LEN % 65536 = 0 →
     ∃ t, exec .xspiErase s = .next t ∧
       t.get F.BOOT_XSPI_STATUS_BUSY = 1 ∧
       t.boot = { s.boot with xspi := some (3, s.get F.BOOT_XSPI_ADDR_ADDR, s.get F.BOOT_XSPI_LEN_LEN, s.get F.BOOT_XSPI_BUF_ADDR) } ∧
       s.sameRegs t [R.BOOT_XSPI_STATUS] ∧
       s.sameBut t [.regs, .boot]) ∧
  (∀ (s : State) (a n buf : Nat) (ecc : EccResult),
     s.boot.xspi = some (3, a, n, buf) →
     ∃ t, exec (.xspiCmdEnd true ecc) s = .next t ∧
       t.get F.BOOT_XSPI_STATUS_BUSY = 0 ∧
       t.get F.BOOT_XSPI_STATUS_LAST_FC = 0 ∧
       (∀ i, spGet flashDefault t.boot.flash i = (if a ≤ i ∧ i < a + n then 0xFF else spGet flashDefault s.boot.flash i)) ∧
       t.boot = { s.boot with xspi := none, flash := t.boot.flash } ∧
       s.sameRegs t [R.BOOT_XSPI_STATUS] ∧
       s.sameBut t [.regs, .boot]) ∧
  (∀ (s : State) (a n buf : Nat) (ecc : EccResult),
     s.boot.xspi = some (1, a, n, buf) →
     s.operatorReaches buf n = true →
     ∃ t, exec (.xspiCmdEnd true ecc) s = .next t ∧
       t.get F.BOOT_XSPI_STATUS_BUSY = 0 ∧
       t.get F.BOOT_XSPI_STATUS_LAST_FC = 0 ∧
       (∀ i, i < n → t.byte (buf + i) = spGet flashDefault s.boot.flash (a + i)) ∧
       s.sameBytesBut t buf n ∧
       t.boot = { s.boot with xspi := none } ∧
       s.sameRegs t [R.BOOT_XSPI_STATUS] ∧
       s.sameBut t [.regs, .mem, .poison, .zeroMap, .boot]) ∧
  (∀ (s : State) (a n buf : Nat),
     s.boot.xspi = some (2, a, n, buf) →
     s.operatorReaches buf n = true →
     s.poisoned buf n = false →
     ∃ t, exec (.xspiCmdEnd true .clean) s = .next t ∧
       t.get F.BOOT_XSPI_STATUS_BUSY = 0 ∧
       t.get F.BOOT_XSPI_STATUS_LAST_FC = 0 ∧
       (∀ i, i < n → spGet flashDefault t.boot.flash (a + i) = spGet flashDefault s.boot.flash (a + i) &&& s.byte (buf + i)) ∧
       (∀ i, (i < a ∨ a + n ≤ i) → spGet flashDefault t.boot.flash i = spGet flashDefault s.boot.flash i) ∧
       t.boot = { s.boot with xspi := none, flash := t.boot.flash } ∧
       s.sameRegs t [R.BOOT_XSPI_STATUS] ∧
       s.sameBut t [.regs, .boot]) ∧
  (∀ (s : State) (op a n buf : Nat) (ecc : EccResult),
     s.boot.xspi = some (op, a, n, buf) →
     ∃ t, exec (.xspiCmdEnd false ecc) s = .next t ∧
       t.get F.BOOT_XSPI_STATUS_BUSY = 0 ∧
       t.get F.BOOT_XSPI_STATUS_LAST_FC = 0x0C ∧
       t.hasError uBoot 11 ∧
       t.boot = { s.boot with xspi := none } ∧
       s.sameBut t [.regs, .boot, .pcie, .out, .aia]) ∧
  (∀ (s : State) (port : Nat),
     s.phase = phHostWait →
     s.boot.pushing = none →
     ∃ t, exec (.bwGo port) s = .next t ∧
       (t = s.withBoot { s.boot with pushing := some (spGet (fun _ => 0) s.pcie.bwLen port) })) ∧
  (∀ (s : State) (len : Nat),
     s.boot.pushing = some len ∧ s.bootHeld = false →
     imgTotal (s.storeRead 0 4096) ≠ len →
     ∃ t, exec .pushVerifyEnd s = .next t ∧
       t.get F.BOOT_STATUS_FAIL_FC = 6 ∧
       t.pcie.bwResult = 6 ∧
       t.pcie.bwAttempts = min 255 (s.pcie.bwAttempts + 1) ∧
       t.hasError uBoot 5 ∧
       t.boot = { s.boot with pushing := none } ∧
       t.pcie.rom = s.pcie.rom ∧
       s.sameBut t [.regs, .boot, .pcie, .out, .aia]) ∧
  (∀ (s : State) (len : Nat),
     s.boot.pushing = some len ∧ s.bootHeld = false →
     imgTotal (s.storeRead 0 4096) = len →
     ∃ t, exec .pushVerifyEnd s = .next t ∧
       (s.imageVerifies s.storeRead = true → t.phase = phStage2 ∧ t.get F.BOOT_STATUS_SOURCE = 0 ∧ t.get F.BOOT_SEQ_SEQ = 0 ∧ t.pcie.bwResult = 0 ∧ t.boot.inForce = true ∧ t.boot.pushing = none ∧ t.wkt.lock = true) ∧
       (s.imageVerifies s.storeRead = false → t.phase = s.phase ∧ t.get F.BOOT_STATUS_FAIL_FC = 6 ∧ t.pcie.bwResult = 6 ∧ t.mem = s.mem ∧ t.wkt = s.wkt ∧ t.harts = s.harts) ∧
       t.get F.BOOT_STATUS_ATTEMPTS = satInc 255 (s.get F.BOOT_STATUS_ATTEMPTS) % 2 ^ 8 ∧
       s.sameBut t [.regs, .mem, .poison, .zeroMap, .boot, .wkt, .harts, .pcie, .out, .aia]) ∧
  (∀ (s : State),
     s.phase = phLodge →
     s.pins.lodgePg = true →
     s.pins.sysRst = true →
     s.boot.rbgWait = false →
     s.pwr.trip = false →
     s.boot.warm = none →
     ∃ t, exec .romStart s = .next t ∧
       t.phase = phRom ∧
       t.rd R.APC_HART_ONLINE0 = BitVec.allOnes 64 ∧
       (spGet hartReset t.harts 0).wfi = false ∧
       s.sameRegs t [R.APC_HART_ONLINE0, R.APC_HART_ONLINE1, R.BOOT_STATUS] ∧
       s.sameBut t [.regs, .harts, .ddr])

/-- The reference clock, the adjustment of a timebase, snapshots and the pulse pins. Each row of the timebase unit,
on a state in which its condition holds, has the effect its rule gives and leaves memory and the other
timebases. (17_timebase.md R453, 17_timebase.md R456, 17_timebase.md R457, 17_timebase.md R460, 17_timebase.md
R465, 17_timebase.md R467, 17_timebase.md R468) -/
def Obligations.TimebaseOperations : Prop :=
  (∀ (s : State) (ref : Nat) (present : Bool),
     ref < 2 →
     ∃ t, exec (.tbRefSelect ref present) s = .next t ∧
       t.get F.TB_CLK_CFG_REF_SEL = ref ∧
       (ref = 0 → t.get F.TB_CLK_STATUS_REF_IN_USE = 0) ∧
       (ref = 1 → present = true → t.get F.TB_CLK_STATUS_REF_IN_USE = 1 ∧ t.get F.TB_CLK_STATUS_REF_LOST = 0) ∧
       (ref = 1 → present = false → t.get F.TB_CLK_STATUS_REF_IN_USE = s.get F.TB_CLK_STATUS_REF_IN_USE) ∧
       s.sameRegs t [R.TB_CLK_CFG, R.TB_CLK_STATUS] ∧
       s.sameBut t [.regs]) ∧
  (∀ (s : State),
     s.get F.TB_CLK_CFG_REF_SEL ≠ 0 →
     s.get F.TB_CLK_STATUS_REF_LOST = 0 →
     ∃ t, exec .timeRefLost s = .next t ∧
       t.get F.TB_CLK_STATUS_REF_LOST = 1 ∧
       t.get F.TB_CLK_STATUS_REF_IN_USE = 0 ∧
       t.hasError uTb 0 ∧
       s.sameBut t [.regs, .pcie, .out, .aia]) ∧
  (∀ (s : State),
     s.get F.TB_CLK_STATUS_PLL_LOCK = 1 →
     ∃ t, exec .pllLockLoss s = .next t ∧
       t.get F.TB_CLK_STATUS_PLL_LOCK = 0 ∧
       t.hasError uTb 1 ∧
       s.sameBut t [.regs, .pcie, .out, .aia]) ∧
  (∀ (s : State),
     ∃ t, exec .timePllLock s = .next t ∧
       t.get F.TB_CLK_STATUS_PLL_LOCK = 1 ∧
       s.sameRegs t [R.TB_CLK_STATUS] ∧
       s.sameBut t [.regs]) ∧
  (∀ (s : State),
     s.tbDue = true →
     s.get F.TB_ADJ_OP_STG_OP = 0 →
     ∃ t, exec .tbRateOnly s = .next t ∧
       t.get F.TB_COMMIT_PENDING = 0 ∧
       t.get F.TB_GEN_GEN = (s.get F.TB_GEN_GEN + 1) % 2 ^ 32 ∧
       ((∀ n, n < 4 → t.tbRate n = if s.get F.TB_ADJ_OP_STG_RATE_EN = 1 ∧ n = s.get F.TB_ADJ_SEL_STG_TB then signedOf 32 (s.get F.TB_ADJ_RATE_STG_RATE) else s.tbRate n)) ∧
       s.sameRegs t [R.TB_RATE (s.get F.TB_ADJ_SEL_STG_TB), R.TB_COMMIT, R.TB_GEN] ∧
       s.sameBut t [.regs]) ∧
  (∀ (s : State),
     s.tbDue = true →
     s.get F.TB_ADJ_OP_STG_OP = 1 →
     ∃ t, exec .tbSet s = .next t ∧
       t.tb = spSet tbReset s.tb (s.get F.TB_ADJ_SEL_STG_TB) ⟨s.get F.TB_ADJ_SEC_STG_SEC * secUnit + s.get F.TB_ADJ_NS_STG_NS * nsUnit + s.get F.TB_ADJ_NS_STG_FRAC * 2 ^ 28, 0, 0, 0⟩ ∧
       t.get F.TB_COMMIT_PENDING = 0 ∧
       t.get (F.TB_STATUS_HOLDOVER (s.get F.TB_ADJ_SEL_STG_TB)) = 0 ∧
       t.get (F.TB_STATUS_SLEWING (s.get F.TB_ADJ_SEL_STG_TB)) = 0 ∧
       t.get F.TB_GEN_GEN = (s.get F.TB_GEN_GEN + 1) % 2 ^ 32 ∧
       s.sameBut t [.regs, .tb, .sch]) ∧
  (∀ (s : State),
     s.tbDue = true →
     s.get F.TB_ADJ_OP_STG_OP = 2 →
     ∃ t, exec .tbStep s = .next t ∧
       t.tb = spSet tbReset s.tb (s.get F.TB_ADJ_SEL_STG_TB) ⟨((s.tbVal (s.get F.TB_ADJ_SEL_STG_TB) : Int) + s.tbOffset).toNat, 0, 0, 0⟩ ∧
       t.get F.TB_COMMIT_PENDING = 0 ∧
       t.get (F.TB_STATUS_HOLDOVER (s.get F.TB_ADJ_SEL_STG_TB)) = 0 ∧
       t.get (F.TB_STATUS_SLEWING (s.get F.TB_ADJ_SEL_STG_TB)) = 0 ∧
       t.get F.TB_GEN_GEN = (s.get F.TB_GEN_GEN + 1) % 2 ^ 32 ∧
       s.sameBut t [.regs, .tb, .sch]) ∧
  (∀ (s : State),
     s.tbDue = true →
     s.get F.TB_ADJ_OP_STG_OP = 3 →
     ∃ t, exec .tbSlew s = .next t ∧
       t.tb = spSet tbReset s.tb (s.get F.TB_ADJ_SEL_STG_TB) ⟨s.tbVal (s.get F.TB_ADJ_SEL_STG_TB), s.tbOffset, s.get F.TB_ADJ_SLEW_STG_SLEW_PPM, 0⟩ ∧
       t.get F.TB_COMMIT_PENDING = 0 ∧
       t.get (F.TB_STATUS_SLEWING (s.get F.TB_ADJ_SEL_STG_TB)) = (if s.tbOffset = 0 then 0 else 1) ∧
       t.get F.TB_GEN_GEN = (s.get F.TB_GEN_GEN + 1) % 2 ^ 32 ∧
       s.sameRegs t [R.TB_SLEW_LEFT (s.get F.TB_ADJ_SEL_STG_TB), R.TB_STATUS (s.get F.TB_ADJ_SEL_STG_TB), R.TB_RATE (s.get F.TB_ADJ_SEL_STG_TB), R.TB_COMMIT, R.TB_GEN] ∧
       s.sameBut t [.regs, .tb]) ∧
  (∀ (s : State),
     s.tbDue = true →
     ∃ t, exec .tbAdjustBoundary s = .next t ∧
       t.get F.TB_COMMIT_PENDING = 0 ∧
       (s.get F.TB_ADJ_OP_STG_OP = 0 → t.tb = s.tb) ∧
       (s.get F.TB_ADJ_OP_STG_OP = 1 → t.tbVal (s.get F.TB_ADJ_SEL_STG_TB) = s.get F.TB_ADJ_SEC_STG_SEC * secUnit + s.get F.TB_ADJ_NS_STG_NS * nsUnit + s.get F.TB_ADJ_NS_STG_FRAC * 2 ^ 28) ∧
       (s.get F.TB_ADJ_OP_STG_OP = 2 → t.tbVal (s.get F.TB_ADJ_SEL_STG_TB) = ((s.tbVal (s.get F.TB_ADJ_SEL_STG_TB) : Int) + s.tbOffset).toNat) ∧
       (s.get F.TB_ADJ_OP_STG_OP = 3 → (t.tbase (s.get F.TB_ADJ_SEL_STG_TB)).slew = s.tbOffset) ∧
       t.get F.TB_GEN_GEN = (s.get F.TB_GEN_GEN + 1) % 2 ^ 32 ∧
       (∀ n, n ≠ s.get F.TB_ADJ_SEL_STG_TB → t.tbase n = s.tbase n) ∧
       s.sameBut t [.regs, .tb, .sch]) ∧
  (∀ (s : State) (timebase : Nat),
     (s.tbase timebase).slew ≠ 0 →
     slewAdded (s.tbase timebase) (s.tbase timebase).ran = (s.tbase timebase).slew →
     ∃ t, exec (.slewEnd timebase) s = .next t ∧
       (t.tbase timebase).slew = 0 ∧
       t.tbVal timebase = s.tbVal timebase ∧
       t.get (F.TB_STATUS_SLEWING timebase) = 0 ∧
       t.get (F.TB_SLEW_LEFT_LEFT timebase) = 0 ∧
       (∀ n, n ≠ timebase → t.tbase n = s.tbase n) ∧
       s.sameRegs t [R.TB_SLEW_LEFT timebase, R.TB_STATUS timebase] ∧
       s.sameBut t [.regs, .tb]) ∧
  (∀ (s : State),
     ∃ t, exec .tbSnapshot s = .next t ∧
       (∀ n, n < 4 → t.get (F.TB_SNAP_SEC_SEC n) = tbSec (s.tbVal n) % 2 ^ 48 ∧ t.get (F.TB_SNAP_NS_NS n) = tbNs (s.tbVal n) % 2 ^ 32 ∧ t.get (F.TB_SNAP_NS_FRAC n) = tbFrac (s.tbVal n) % 2 ^ 16) ∧
       t.get F.TB_SNAP_MTIME_MTIME = s.clk.mtime % 2 ^ 64 ∧
       s.sameRegs t (R.TB_SNAP_MTIME :: (List.range 4).map R.TB_SNAP_SEC ++ (List.range 4).map R.TB_SNAP_NS) ∧
       s.sameBut t [.regs]) ∧
  (∀ (s : State),
     ∃ t, exec .ppsInEdge s = .next t ∧
       (∀ n, n < 4 → t.get (F.TB_PPSIN_SEC_SEC n) = tbSec (quantise (s.tbVal n - s.get F.TB_PPSIN_DELAY_DELAY * 2 ^ 28)) % 2 ^ 48 ∧ t.get (F.TB_PPSIN_NS_NS n) = tbNs (quantise (s.tbVal n - s.get F.TB_PPSIN_DELAY_DELAY * 2 ^ 28)) % 2 ^ 32) ∧
       t.get F.TB_PPSIN_STATUS_EDGES = (s.get F.TB_PPSIN_STATUS_EDGES + 1) % 2 ^ 32 ∧
       (s.clk.ppsUnread = true → t.get F.TB_PPSIN_STATUS_OVERRUN = 1 ∧ t.hasError uTb 3) ∧
       t.clk = { s.clk with ppsUnread := true } ∧
       s.sameBut t [.regs, .clk, .pcie, .out, .aia]) ∧
  (∀ (s : State),
     bitAt (s.ppsCfg s.clk.ppsNext) 63 = true →
     s.ppsEdge s.clk.ppsNext ≤ s.tbVal (bitsAt (s.ppsCfg s.clk.ppsNext) 61 60) →
     ∃ t, exec .ppsOutEdge s = .next t ∧
       t.clk.ppsOut = true ∧
       s.clk.ppsNext < t.clk.ppsNext ∧
       t.clk = { s.clk with ppsOut := true, ppsNext := t.clk.ppsNext, ppsFall := s.clk.mtime + bitsAt (s.ppsCfg s.clk.ppsNext) 51 32 * 1000 } ∧
       s.sameBut t [.clk]) ∧
  (∀ (s : State),
     s.clk.ppsFall ≤ s.clk.mtime →
     ∃ t, exec .ppsOutWidthEnd s = .next t ∧
       t = s.withClk { s.clk with ppsOut := false }) ∧
  (∀ (s : State),
     s.clk.mtime < s.clk.ppsFall →
     exec .ppsOutWidthEnd s = .next s) ∧
  (∀ (s : State) (port : Nat) (value : Word),
     port < 16 →
     bitsAt value 9 8 ≠ 3 →
     portPresent s.plan port = true →
     s.underAmendment secPortLayout 0 port = false →
     (bitsAt value 1 0 = portTb s port ∨ (s.get (F.SCH_GCL_STATUS_OPER_LEN port) = 0 ∧ s.get (F.SCH_GCL_COMMIT_PENDING port) ≠ 1)) →
     ∃ t, exec (.tbPortCfgWrite port value) s = .next t ∧
       t.get (F.TB_PORT_CFG_TB port) = bitsAt value 1 0 ∧
       t.get (F.TB_PORT_CFG_ONE_STEP port) = bitsAt value 9 8 ∧
       s.sameRegs t [R.TB_PORT_CFG port] ∧
       s.sameBut t [.regs])

/-- A lost completion is answered in the unit's place and a critical state is restored from its copy.
COMPLETION_LOST gives the issuing endpoint a completion with status 0xF3 and records the loss; a critical-state
restore counts the repair, and where no copy is right starts the device anew with the cause of a lost copy.
(21_reliability.md R553, 21_reliability.md R549) -/
def Obligations.LostCompletionsAndRestores : Prop :=
  (∀ (s : State) (ep : Nat) (cmd : List Word),
     hGet cmd CH.kind = kCommand →
     hGet cmd CH.srcEp = ep →
     epStamped s.plan ep = false →
     s.epHeld ep = false →
     ∃ t, exec (.completionLost ep cmd) s = .next t ∧
       t.inboxOf ep = s.inboxOf ep ++ [⟨unitCompletion cmd (hGet cmd CH.dstEp) 0xF3 0 0 (s.timeNs 0) (s.timeFrac 0), [], false⟩] ∧
       t.hasError uFlt 0 ∧
       t.lost = s.lost ++ [(ep, hGet cmd CH.ctx)] ∧
       (∀ e, e ≠ ep → t.inboxOf e = s.inboxOf e) ∧
       t.prm.out = s.prm.out ∧
       s.sameBut t [.regs, .prm, .lost, .pcie, .out, .aia]) ∧
  (∀ (s : State) (tile : Nat),
     ∃ t, exec (.criticalStateRestore tile false) s = .next t ∧
       t.get F.FLT_COPY_REPAIR_COUNT = satInc 0xFFFFFFFF (s.get F.FLT_COPY_REPAIR_COUNT) % 2 ^ 32 ∧
       t.hasError uFlt 1 ∧
       s.sameBut t [.regs, .pcie, .out, .aia]) ∧
  (∀ (s : State) (tile : Nat),
     ∃ t, exec (.criticalStateRestore tile true) s = .next t ∧
       t.phase = phLodge ∧
       t.get F.PWR_RESET_CAUSE_CAUSE = causeLost ∧
       t.boot.flash = s.boot.flash ∧ t.boot.warm = none ∧
       (∀ a, a < 0x010000000000 → t.byte a = 0) ∧
       (∀ a, 0x010000000000 ≤ a → t.byte a = s.byte a) ∧
       t.plan = [] ∧ t.prm = State.reset.prm ∧ t.pav = State.reset.pav ∧ t.emt = State.reset.emt ∧ t.cph = State.reset.cph ∧ t.te = State.reset.te ∧
       t.pending = s.pending)

/-- Doorbells, admission and the admin commands of a storage controller. A doorbell moves the tail of its submission
queue or the head of its completion queue; an admitted entry joins the commands under way with the mapping and the
write mode of that moment; each admin command of Table 13-3, admitted and with operands that its rule takes, has the
effect that the rule gives and completes with its status through the completion queue of the admin queue, and what
waited for it goes on. The last two clauses say which parts of the block a completion and what goes on after it can
touch. (13_storage.md R338, 13_storage.md R339, 13_storage.md R342, 13_storage.md R350, 13_storage.md R355) -/
def Obligations.NvmeAdminCommands : Prop :=
  (∀ (s : State) (f qid v : Nat) (q : NveSq),
     nveHas s.plan f = true ∧ s.fnAmended f = false →
     (s.ctl f).rdy = true →
     ((s.ctl f).sqs.find? fun (x : NveSq) => x.qid == qid) = some q →
     v < q.size ∧ v < 65536 →
     ∃ t, exec (.nvmeDoorbell f (0x1000 + 8 * qid) v) s = .next t ∧
       t = s.setCtl f { s.ctl f with sqs := (s.ctl f).sqs.map fun (x : NveSq) => if x.qid = qid then { x with tail := v } else x }) ∧
  (∀ (s : State) (f qid v : Nat) (q : NveCq),
     nveHas s.plan f = true ∧ s.fnAmended f = false →
     (s.ctl f).rdy = true →
     ((s.ctl f).cqs.find? fun (x : NveCq) => x.qid == qid) = some q →
     v < q.size ∧ v < 65536 ∧ (v + q.size - q.head) % q.size ≤ (q.tail + q.size - q.head) % q.size →
     ∃ t, exec (.nvmeDoorbell f (0x1004 + 8 * qid) v) s = .next t ∧
       t = (s.setCtl f { s.ctl f with cqs := (s.ctl f).cqs.map fun (x : NveCq) => if x.qid = qid then { x with head := v } else x }).nveHeld f qid ∧
       s.sameBut t [.regs, .mem, .poison, .zeroMap, .nve, .pcie, .out, .free, .aia]) ∧
  (∀ (s : State) (f : Nat) (sqe b : List Byte) (q : NveSq),
     (s.ctl f).nextSq = some q →
     s.nveRuns f = true ∧ s.taking = true ∧ (s.ctl f).rdy = true ∧ (s.ctl f).dis = false →
     s.dmaOpen f = true →
     b = bytesAt sqe 0 64 ∧ (if q.qid = 0 then adminOps else ioOps).contains (leAt b 0 1) = true →
     leAt b 1 1 % 4 = 0 ∧ leAt b 1 1 / 64 = 0 ∧ leAt b 16 8 = 0 →
     (q.qid ≠ 0 → leAt b 0 1 = 1 ∨ leAt b 0 1 = 2 ∨ leAt b 0 1 = 8 → leAt b 51 1 &&& 0x3D = 0) →
     ∃ t, exec (.nvmeAdmission f sqe .ok) s = .next t ∧
       t.nve.cmds = s.nve.cmds ++ [(⟨s.nve.nextId, f, q.qid, leAt b 2 2, leAt b 0 1, b, if 1 ≤ leAt b 4 4 ∧ leAt b 4 4 ≤ nveNsMax s.plan f then s.nveNs f (leAt b 4 4) else nsReset 0, (s.ctl f).mode == mProvisional, 0, [], [], 0, false⟩ : NveCmd)] ∧
       t.nve = { s.nve with ctls := spSet nveCtlReset s.nve.ctls f { s.ctl f with sqs := (s.ctl f).sqs.map fun (x : NveSq) => if x.qid = q.qid then { q with head := (q.head + 1) % q.size } else x, turn := q.qid + 1 }, cmds := t.nve.cmds, nextId := s.nve.nextId + 1 } ∧
       s.sameBut t [.nve]) ∧
  (∀ (s : State) (id : Nat) (x : NveCmd),
     s.nveCmd id = some x →
     x.phase = 0 ∧ x.op = 0x00 ∧ x.sq = 0 ∧ s.nveRuns x.fn = true ∧ s.dmaWaits x.fn = false →
     x.at 40 2 ≠ 0 ∧ ((s.ctl x.fn).sqs.any fun (q : NveSq) => q.qid == x.at 40 2) = true →
     ∃ t, exec (.nvmeDeleteIoSq id) s = .next t ∧
       t = ((s.nveAbortUnsent x.fn (some (x.at 40 2)) 0x08).setCmd { x with phase := 2 }).nveGo ∧
       s.sameBut t [.regs, .mem, .poison, .zeroMap, .prm, .nve, .pcie, .out, .free, .aia]) ∧
  (∀ (s : State) (id : Nat) (x : NveCmd),
     s.nveCmd id = some x →
     x.phase = 0 ∧ x.op = 0x04 ∧ x.sq = 0 ∧ s.nveRuns x.fn = true ∧ s.dmaWaits x.fn = false →
     x.at 40 2 ≠ 0 ∧ ((s.ctl x.fn).cqs.any fun (q : NveCq) => q.qid == x.at 40 2) = true →
     ((s.ctl x.fn).sqs.any fun (q : NveSq) => q.cq == x.at 40 2) = false →
     ∃ t, exec (.nvmeDeleteIoCq id) s = .next t ∧
       t = ((s.setCtl x.fn { s.ctl x.fn with cqs := (s.ctl x.fn).cqs.filter fun (q : NveCq) => q.qid != x.at 40 2 }).nveFinish x 0 0).nveGo ∧
       s.sameBut t [.regs, .mem, .poison, .zeroMap, .prm, .nve, .pcie, .out, .free, .aia]) ∧
  (∀ (s : State) (id : Nat) (x : NveCmd),
     s.nveCmd id = some x →
     x.phase = 0 ∧ x.op = 0x01 ∧ x.sq = 0 ∧ s.nveRuns x.fn = true ∧ s.dmaWaits x.fn = false →
     x.at 44 1 % 2 = 1 ∧ x.at 46 2 ≠ 0 ∧ ((s.ctl x.fn).cqs.any fun (q : NveCq) => q.qid == x.at 46 2) = true →
     x.at 40 2 ≠ 0 ∧ x.at 40 2 ≤ (s.ctl x.fn).nsq.getD (nveIoqMax s.plan x.fn) ∧ ((s.ctl x.fn).sqs.any fun (q : NveSq) => q.qid == x.at 40 2) = false →
     x.at 42 2 ≠ 0 ∧ x.at 24 8 % (s.ctl x.fn).page = 0 →
     ∃ t, exec (.nvmeCreateIoSq id) s = .next t ∧
       t = ((s.setCtl x.fn { s.ctl x.fn with sqs := (s.ctl x.fn).sqs ++ [(⟨x.at 40 2, x.at 24 8, x.at 42 2 + 1, x.at 46 2, 0, 0⟩ : NveSq)] }).nveFinish x 0 0).nveGo ∧
       s.sameBut t [.regs, .mem, .poison, .zeroMap, .prm, .nve, .pcie, .out, .free, .aia]) ∧
  (∀ (s : State) (id : Nat) (x : NveCmd),
     s.nveCmd id = some x →
     x.phase = 0 ∧ x.op = 0x05 ∧ x.sq = 0 ∧ s.nveRuns x.fn = true ∧ s.dmaWaits x.fn = false →
     x.at 44 1 % 2 = 1 ∧ (x.at 44 1 / 2 % 2 = 0 ∨ x.at 46 2 < fnMsixSize s.plan x.fn) →
     x.at 40 2 ≠ 0 ∧ x.at 40 2 ≤ (s.ctl x.fn).ncq.getD (nveIoqMax s.plan x.fn) ∧ ((s.ctl x.fn).cqs.any fun (q : NveCq) => q.qid == x.at 40 2) = false →
     x.at 42 2 ≠ 0 ∧ x.at 24 8 % (s.ctl x.fn).page = 0 →
     ∃ t, exec (.nvmeCreateIoCq id) s = .next t ∧
       t = ((s.setCtl x.fn { s.ctl x.fn with cqs := (s.ctl x.fn).cqs ++ [(⟨x.at 40 2, x.at 24 8, x.at 42 2 + 1, x.at 46 2, x.at 44 1 / 2 % 2 == 1, true, 0, 0⟩ : NveCq)] }).nveFinish x 0 0).nveGo ∧
       s.sameBut t [.regs, .mem, .poison, .zeroMap, .prm, .nve, .pcie, .out, .free, .aia]) ∧
  (∀ (s : State) (id : Nat) (x : NveCmd) (h : NveHost) (l : List (Nat × Nat)) (u v : State),
     s.nveCmd id = some x →
     x.phase = 0 ∧ x.op = 0x02 ∧ x.sq = 0 ∧ s.nveRuns x.fn = true ∧ s.dmaWaits x.fn = false →
     x.at 40 1 = 0xC0 ∧ x.at 41 1 = 0x80 ∧ x.at 48 8 ≤ 512 ∧ x.at 48 8 % 4 = 0 ∧ x.at 42 2 < 1024 ∧ x.at 44 2 = 0 →
     s.nvePrps x (4 * (x.at 42 2 + 1)) h = ((0, l), u) →
     u.nveToHost x.fn l 0 (bytesAt (s.logState x.fn) (x.at 48 8) (4 * (x.at 42 2 + 1))) = (true, v) →
     ∃ t, exec (.nvmeGetLogPage id h) s = .next t ∧
       t = (v.nveFinish x 0 0).nveGo ∧
       s.sameBut t [.regs, .mem, .poison, .zeroMap, .prm, .nve, .pcie, .out, .free, .aia]) ∧
  (∀ (s : State) (id : Nat) (x : NveCmd) (h : NveHost) (l : List (Nat × Nat)) (u v : State),
     s.nveCmd id = some x →
     x.phase = 0 ∧ x.op = 0x06 ∧ x.sq = 0 ∧ s.nveRuns x.fn = true ∧ s.dmaWaits x.fn = false →
     x.at 40 1 = 0 ∧ 1 ≤ x.nsid ∧ x.nsid ≤ nveNsMax s.plan x.fn →
     s.nvePrps x 4096 h = ((0, l), u) →
     u.nveToHost x.fn l 0 x.ns.identify = (true, v) →
     ∃ t, exec (.nvmeIdentify id h) s = .next t ∧
       t = (v.nveFinish x 0 0).nveGo ∧
       s.sameBut t [.regs, .mem, .poison, .zeroMap, .prm, .nve, .pcie, .out, .free, .aia]) ∧
  (∀ (s : State) (id : Nat) (x y : NveCmd),
     s.nveCmd id = some x →
     x.phase = 0 ∧ x.op = 0x08 ∧ x.sq = 0 ∧ s.nveRuns x.fn = true ∧ s.dmaWaits x.fn = false →
     (x.at 40 2 = 0 → (s.ctl x.fn).aers.contains (x.at 42 2) = false) →
     (s.nve.cmds.find? fun (y : NveCmd) => y.fn == x.fn && y.sq == x.at 40 2 && y.cid == x.at 42 2 && y.id != x.id) = some y →
     y.sent = false →
     ∃ t, exec (.nvmeAbort id) s = .next t ∧
       t = ((s.nveFinish y 0x07 0).nveFinish x 0 0).nveGo ∧
       s.sameBut t [.regs, .mem, .poison, .zeroMap, .prm, .nve, .pcie, .out, .free, .aia]) ∧
  (∀ (s : State) (id : Nat) (x y : NveCmd),
     s.nveCmd id = some x →
     x.phase = 0 ∧ x.op = 0x08 ∧ x.sq = 0 ∧ s.nveRuns x.fn = true ∧ s.dmaWaits x.fn = false →
     (x.at 40 2 = 0 → (s.ctl x.fn).aers.contains (x.at 42 2) = false) →
     (s.nve.cmds.find? fun (y : NveCmd) => y.fn == x.fn && y.sq == x.at 40 2 && y.cid == x.at 42 2 && y.id != x.id) = some y →
     y.sent = true →
     ∃ t, exec (.nvmeAbort id) s = .next t ∧
       t = (s.nveFinish x 0 1).nveGo ∧
       s.sameBut t [.regs, .mem, .poison, .zeroMap, .prm, .nve, .pcie, .out, .free, .aia]) ∧
  (∀ (s : State) (id : Nat) (x : NveCmd),
     s.nveCmd id = some x →
     x.phase = 0 ∧ x.op = 0x08 ∧ x.sq = 0 ∧ s.nveRuns x.fn = true ∧ s.dmaWaits x.fn = false →
     (x.at 40 2 = 0 → (s.ctl x.fn).aers.contains (x.at 42 2) = false) →
     (s.nve.cmds.any fun (y : NveCmd) => y.fn == x.fn && y.sq == x.at 40 2 && y.cid == x.at 42 2 && y.id != x.id) = false →
     ∃ t, exec (.nvmeAbort id) s = .next t ∧
       t = (s.nveFinish x 0 1).nveGo ∧
       s.sameBut t [.regs, .mem, .poison, .zeroMap, .prm, .nve, .pcie, .out, .free, .aia]) ∧
  (∀ (s : State) (id nsq ncq : Nat) (x : NveCmd),
     s.nveCmd id = some x →
     x.phase = 0 ∧ x.op = 0x09 ∧ x.sq = 0 ∧ s.nveRuns x.fn = true ∧ s.dmaWaits x.fn = false →
     x.at 40 1 = 0x07 ∧ x.at 43 1 = 0 ∧ x.at 44 4 % 65536 ≠ 65535 ∧ x.at 44 4 / 65536 ≠ 65535 →
     ((s.ctl x.fn).sqs.any fun (q : NveSq) => q.qid != 0) = false ∧ ((s.ctl x.fn).cqs.any fun (q : NveCq) => q.qid != 0) = false →
     nsq = min (x.at 44 4 % 65536 + 1) (nveIoqMax s.plan x.fn) ∧ ncq = min (x.at 44 4 / 65536 + 1) (nveIoqMax s.plan x.fn) →
     ∃ t, exec (.nvmeSetFeatures id) s = .next t ∧
       t = ((s.setCtl x.fn { s.ctl x.fn with nsq := some nsq, ncq := some ncq }).nveFinish x 0 (nsq - 1 + (ncq - 1) * 65536)).nveGo ∧
       s.sameBut t [.regs, .mem, .poison, .zeroMap, .prm, .nve, .pcie, .out, .free, .aia]) ∧
  (∀ (s : State) (id : Nat) (x : NveCmd),
     s.nveCmd id = some x →
     x.phase = 0 ∧ x.op = 0x0A ∧ x.sq = 0 ∧ s.nveRuns x.fn = true ∧ s.dmaWaits x.fn = false →
     x.at 40 1 = 0x07 ∧ x.at 41 1 = 0 →
     ∃ t, exec (.nvmeGetFeatures id) s = .next t ∧
       t = (s.nveFinish x 0 ((s.ctl x.fn).nsq.getD (nveIoqMax s.plan x.fn) - 1 + ((s.ctl x.fn).ncq.getD (nveIoqMax s.plan x.fn) - 1) * 65536)).nveGo ∧
       s.sameBut t [.regs, .mem, .poison, .zeroMap, .prm, .nve, .pcie, .out, .free, .aia]) ∧
  (∀ (s : State) (id : Nat) (x : NveCmd),
     s.nveCmd id = some x →
     x.phase = 0 ∧ x.op = 0x0C ∧ x.sq = 0 ∧ s.nveRuns x.fn = true ∧ s.dmaWaits x.fn = false →
     (s.ctl x.fn).aers.length < 4 →
     ∃ t, exec (.nvmeAsynchronousEventRequest id) s = .next t ∧
       t = (((s.setCtl x.fn { s.ctl x.fn with aers := (s.ctl x.fn).aers ++ [x.cid] }).withNve { (s.setCtl x.fn { s.ctl x.fn with aers := (s.ctl x.fn).aers ++ [x.cid] }).nve with cmds := s.nve.cmds.filter fun (y : NveCmd) => y.id != x.id }).nveAer x.fn 4).nveGo ∧
       s.sameBut t [.regs, .mem, .poison, .zeroMap, .prm, .nve, .pcie, .out, .free, .aia]) ∧
  (∀ (s : State) (id : Nat) (x : NveCmd),
     s.nveCmd id = some x →
     x.phase = 0 ∧ x.op = 0x0C ∧ x.sq = 0 ∧ s.nveRuns x.fn = true ∧ s.dmaWaits x.fn = false →
     4 ≤ (s.ctl x.fn).aers.length →
     ∃ t, exec (.nvmeAsynchronousEventRequest id) s = .next t ∧
       t = (s.nveFinish x 0x4105 0).nveGo ∧
       s.sameBut t [.regs, .mem, .poison, .zeroMap, .prm, .nve, .pcie, .out, .free, .aia]) ∧
  (∀ (s : State) (x : NveCmd) (status dw0 : Nat), s.sameBut (s.nveFinish x status dw0) [.regs, .mem, .poison, .zeroMap, .nve, .pcie, .out, .free, .aia]) ∧
  (∀ (s : State), s.sameBut s.nveGo [.regs, .mem, .poison, .zeroMap, .prm, .nve, .pcie, .out, .free, .aia])

/-- The I/O commands of a storage controller. Each admitted I/O command of Table 13-3 whose fields, namespace, range
and host ranges are good takes the first stage of its rule: a Flush waits for what was admitted before it, a Write has
its data fetched, a Read sends one target Read for the blocks that the buffer does not hold, Write Zeroes and a
deallocate wait for their turn; then everything that can go on goes on. A Write to a read-only namespace completes with
Attempted Write to Read Only Range and one beyond the namespace with LBA Out of Range, and an inactive namespace gives
Invalid Namespace or Format. (13_storage.md R338, 13_storage.md R340, 13_storage.md R341, 13_storage.md R351,
13_storage.md R352) -/
def Obligations.NvmeIoCommands : Prop :=
  (∀ (s : State) (id : Nat) (x : NveCmd),
     s.nveCmd id = some x →
     x.phase = 0 ∧ x.op = 0x00 ∧ x.sq ≠ 0 ∧ s.nveRuns x.fn = true ∧ s.dmaWaits x.fn = false →
     x.ns.nsze ≠ 0 →
     ∃ t, exec (.nvmeFlush id) s = .next t ∧
       t = (s.setCmd { x with phase := 2 }).nveGo ∧
       s.sameBut t [.regs, .mem, .poison, .zeroMap, .prm, .nve, .pcie, .out, .free, .aia]) ∧
  (∀ (s : State) (id : Nat) (x : NveCmd) (h : NveHost) (l : List (Nat × Nat)) (d : List Byte) (u v : State),
     s.nveCmd id = some x →
     x.phase = 0 ∧ x.op = 0x01 ∧ x.sq ≠ 0 ∧ s.nveRuns x.fn = true ∧ s.dmaWaits x.fn = false →
     x.nlb * 2 ^ x.ns.lbads ≤ 262144 ∧ x.slba + x.nlb ≤ x.ns.nsze ∧ x.ns.ro = false ∧ x.ns.xts = false →
     s.nveBehind x [(x.slba, x.nlb)] = false →
     s.nvePrps x (x.nlb * 2 ^ x.ns.lbads) h = ((0, l), u) →
     u.nveFromHost x.fn l h (x.nlb * 2 ^ x.ns.lbads) = ((0, d), v) →
     ∃ t, exec (.nvmeWrite id h) s = .next t ∧
       t = ((v.setCmd { x with data := d, phase := 2 }).nveCount x (x.nlb * 2 ^ x.ns.lbads)).nveGo ∧
       s.sameBut t [.regs, .mem, .poison, .zeroMap, .prm, .nve, .pcie, .out, .free, .aia]) ∧
  (∀ (s : State) (id : Nat) (x : NveCmd) (ecc : EccResult) (h : NveHost) (l : List (Nat × Nat)) (u : State),
     s.nveCmd id = some x →
     x.phase = 0 ∧ x.op = 0x02 ∧ x.sq ≠ 0 ∧ s.nveRuns x.fn = true ∧ s.dmaWaits x.fn = false →
     x.nlb * 2 ^ x.ns.lbads ≤ 262144 ∧ x.slba + x.nlb ≤ x.ns.nsze ∧ x.ns.xts = false →
     s.nveBehind x [(x.slba, x.nlb)] = false →
     s.nvePrps x (x.nlb * 2 ^ x.ns.lbads) h = ((0, l), u) →
     u.buffered x = [] →
     ∃ t, exec (.nvmeRead id ecc h) s = .next t ∧
       t = (((u.setCmd { x with data := [], prps := l, phase := 3 }).nveCount x (x.nlb * 2 ^ x.ns.lbads)).nveJob (some x.id) x.fn x.nsid x.ns.conn 2 x.ns.remote (cdwRw x.ns x.slba x.nlb) [] (x.nlb * 2 ^ x.ns.lbads) 0 []).nveGo ∧
       s.sameBut t [.regs, .mem, .poison, .zeroMap, .prm, .nve, .pcie, .out, .free, .aia]) ∧
  (∀ (s : State) (id : Nat) (x : NveCmd),
     s.nveCmd id = some x →
     x.phase = 0 ∧ x.op = 0x08 ∧ x.sq ≠ 0 ∧ s.nveRuns x.fn = true ∧ s.dmaWaits x.fn = false →
     0 < x.ns.nsze ∧ x.slba + x.nlb ≤ x.ns.nsze ∧ x.ns.ro = false →
     s.nveBehind x [(x.slba, x.nlb)] = false →
     ∃ t, exec (.nvmeWriteZeroes id) s = .next t ∧
       t = ((s.setCmd { x with phase := 2 }).nveCount x 0).nveGo ∧
       s.sameBut t [.regs, .mem, .poison, .zeroMap, .prm, .nve, .pcie, .out, .free, .aia]) ∧
  (∀ (s : State) (id : Nat) (x y : NveCmd) (h : NveHost) (l : List (Nat × Nat)) (d : List Byte) (u v : State),
     s.nveCmd id = some x →
     x.phase = 0 ∧ x.op = 0x09 ∧ x.sq ≠ 0 ∧ s.nveRuns x.fn = true ∧ s.dmaWaits x.fn = false →
     x.at 44 1 = 4 ∧ x.ns.nsze ≠ 0 ∧ x.ns.ro = false →
     s.nvePrps x (16 * (x.at 40 1 + 1)) h = ((0, l), u) →
     u.nveFromHost x.fn l h (16 * (x.at 40 1 + 1)) = ((0, d), v) →
     y = { x with data := d, phase := 2 } ∧ (y.ranges.any fun g => decide (x.ns.nsze < g.1 + g.2)) = false ∧ s.nveBehind x y.ranges = false →
     ∃ t, exec (.nvmeDatasetManagement id h) s = .next t ∧
       t = (v.setCmd y).nveGo ∧
       s.sameBut t [.regs, .mem, .poison, .zeroMap, .prm, .nve, .pcie, .out, .free, .aia]) ∧
  (∀ (s : State) (id : Nat) (x : NveCmd) (h : NveHost),
     s.nveCmd id = some x →
     x.phase = 0 ∧ x.op = 0x01 ∧ x.sq ≠ 0 ∧ s.nveRuns x.fn = true ∧ s.dmaWaits x.fn = false →
     x.nlb * 2 ^ x.ns.lbads ≤ 262144 →
     ∃ t, exec (.nvmeWrite id h) s = .next t ∧
       (x.ns.nsze = 0 → t = (s.nveFinish x 0x400B 0).nveGo) ∧
       (x.ns.nsze ≠ 0 → x.ns.nsze < x.slba + x.nlb → t = (s.nveFinish x 0x4080 0).nveGo) ∧
       (x.ns.nsze ≠ 0 → x.slba + x.nlb ≤ x.ns.nsze → x.ns.ro = true → t = (s.nveFinish x 0x4182 0).nveGo) ∧
       s.sameBut t [.regs, .mem, .poison, .zeroMap, .prm, .nve, .pcie, .out, .free, .aia])

/-- Enabling, disabling and shutting down a controller, and the commits of namespaces and write modes. Setting CC.EN
with a configuration that the controller supports makes it ready with its admin queues; clearing it completes the
commands not yet sent with Command Aborted due to SQ Deletion and starts the disable; CC.SHN starts the shutdown. A
namespace commit that the checks of R340 pass makes the staged mapping the live one, and one whose connection is not
UP, or whose block size is neither 512 nor 4096, records FC 0x170C and changes no mapping; a mode commit changes the
mode as R354 says. What waited then goes on (NvmeAdminCommands says what that can touch). (13_storage.md R336,
13_storage.md R340, 13_storage.md R342, 13_storage.md R354, 13_storage.md R356, 13_storage.md R360) -/
def Obligations.StorageControllersAndCommits : Prop :=
  (∀ (s : State) (f v : Nat) (c : NveCtl),
     nveHas s.plan f = true ∧ s.fnAmended f = false →
     (s.ctl f).cc % 2 = 0 ∧ (s.ctl f).dis = false →
     v % 2 = 1 ∧ natBits v 15 14 = 0 →
     c = { s.ctl f with cc := v &&& 0x01FFFFF1 } →
     natBits c.cc 6 4 = 0 ∧ natBits c.cc 13 11 = 0 ∧ natBits c.cc 10 7 ≤ 4 →
     ∃ t, exec (.ccEnSet f v) s = .next t ∧
       t = ((s.setCtl f c).setCtl f { c with csts := 1, turn := 0, sqs := [(⟨0, c.asq / 4096 * 4096, natBits c.aqa 11 0 + 1, 0, 0, 0⟩ : NveSq)], cqs := [(⟨0, c.acq / 4096 * 4096, natBits c.aqa 27 16 + 1, 0, true, true, 0, 0⟩ : NveCq)] }).nveGo ∧
       s.sameBut t [.regs, .mem, .poison, .zeroMap, .prm, .nve, .pcie, .out, .free, .aia]) ∧
  (∀ (s : State) (f v : Nat) (u : State),
     nveHas s.plan f = true ∧ s.fnAmended f = false →
     (s.ctl f).cc % 2 = 1 →
     v % 2 = 0 ∧ natBits v 15 14 = 0 →
     u = (s.setCtl f { s.ctl f with cc := v &&& 0x01FFFFF1 }).nveAbortUnsent f none 0x08 →
     ∃ t, exec (.nveCcEnClear f v) s = .next t ∧
       t = ((u.setCtl f { u.ctl f with dis := true, aers := [] }).nveGo).nveReenable f ∧
       s.sameBut t [.regs, .mem, .poison, .zeroMap, .prm, .nve, .pcie, .out, .free, .aia]) ∧
  (∀ (s : State) (f v : Nat) (c : NveCtl),
     nveHas s.plan f = true ∧ s.fnAmended f = false →
     (s.ctl f).cc % 2 = 1 ∧ natBits (s.ctl f).cc 15 14 = 0 →
     v % 2 = 1 ∧ natBits v 15 14 ≠ 0 →
     c = { s.ctl f with cc := v &&& 0x01FFFFF1 } →
     ∃ t, exec (.nveCcShn f v) s = .next t ∧
       t = ((s.setCtl f c).setCtl f { c with shut := 1, shn := true, csts := c.csts / 16 * 16 + c.csts % 4 + 4 }).nveGo ∧
       s.sameBut t [.regs, .mem, .poison, .zeroMap, .prm, .nve, .pcie, .out, .free, .aia]) ∧
  (∀ (s : State) (f n : Nat) (new : NveNs),
     f = s.get F.NVE_NS_SEL_STG_FUNCTION ∧ n = s.get F.NVE_NS_SEL_STG_NSID →
     new = ⟨s.rd R.NVE_NS_TGT_STG, s.rd R.NVE_NS_BASE_STG, s.rd R.NVE_NS_SIZE_STG, s.rd R.NVE_NS_CFG_STG⟩ →
     nveHas s.plan f = true ∧ 1 ≤ n ∧ n ≤ nveNsMax s.plan f →
     s.underAmendment secNveAlloc 0 f = false →
     (s.conn new.conn).f CI.state = 1 ∧ ((s.conn new.conn).f CI.ownerTd = 0 ∨ (s.conn new.conn).f CI.ownerTd = fnTd s.plan f) →
     new.xts = false ∧ (new.lbads = 9 ∨ new.lbads = 12) →
     (s.nveNs f n).nsze = new.nsze ∧ (s.nveNs f n).lbads = new.lbads ∧ (s.nveNs f n).ro = new.ro →
     ∃ t, exec .nveNsCommitGo s = .next t ∧
       t = (((s.withNve { s.nve with ns := spSet nsReset s.nve.ns (64 * f + n) new }).set F.NVE_NS_COMMIT_PENDING 0).wrapBy F.NVE_NS_GEN_GEN 1).nveGo ∧
       s.sameBut t [.regs, .mem, .poison, .zeroMap, .prm, .nve, .pcie, .out, .free, .aia]) ∧
  (∀ (s : State) (f n : Nat) (new : NveNs),
     f = s.get F.NVE_NS_SEL_STG_FUNCTION ∧ n = s.get F.NVE_NS_SEL_STG_NSID →
     new = ⟨s.rd R.NVE_NS_TGT_STG, s.rd R.NVE_NS_BASE_STG, s.rd R.NVE_NS_SIZE_STG, s.rd R.NVE_NS_CFG_STG⟩ →
     nveHas s.plan f = true ∧ 1 ≤ n ∧ n ≤ nveNsMax s.plan f →
     s.underAmendment secNveAlloc 0 f = false →
     new.xts = false ∧ ((s.conn new.conn).f CI.state ≠ 1 ∨ (new.lbads ≠ 9 ∧ new.lbads ≠ 12)) →
     ∃ t, exec .nveNsCommitGo s = .next t ∧
       t.hasError uNve 11 ∧
       t.get F.NVE_NS_COMMIT_PENDING = 0 ∧
       t.get F.NVE_NS_GEN_GEN = s.get F.NVE_NS_GEN_GEN ∧
       s.sameBut t [.regs, .pcie, .out, .aia]) ∧
  (∀ (s : State) (f : Nat) (u : State),
     f = s.get F.NVE_MODE_SEL_STG_FUNCTION →
     nveHas s.plan f = true →
     s.underAmendment secNveAlloc 0 f = false →
     u = (s.set F.NVE_MODE_COMMIT_PENDING 0).wrapBy F.NVE_MODE_GEN_GEN 1 →
     ((s.ctl f).feat 0x0B).testBit 31 = false →
     ∃ t, exec .nveModeCommitGo s = .next t ∧
       (s.get F.NVE_MODE_STG_MODE = 1 → (s.ctl f).mode ≠ 1 → t = ((u.drainStop f).setCtl f { (u.drainStop f).ctl f with mode := 1 }).nveGo) ∧
       (s.get F.NVE_MODE_STG_MODE = 0 → (s.ctl f).mode = 1 → t = (u.setCtl f { s.ctl f with mode := 2 }).nveGo) ∧
       (s.get F.NVE_MODE_STG_MODE = 0 → (s.ctl f).mode ≠ 1 → t = u.nveGo) ∧
       s.sameBut t [.regs, .mem, .poison, .zeroMap, .prm, .nve, .pcie, .out, .free, .aia])

/-- The connections of the storage engines. OFFLOAD installs the image of the staging registers as a connection that
waits to come up, and is refused with FC 0x170C where the connection is not FREE; the connection comes UP and the
commands that waited for it are sent; CLOSE stops new commands and frees a failed connection, and with FORCE sends RST
and fails it; with nothing outstanding the FIN is sent and the connection is free; QUERY shows the live image. Each PDU
of the target ends, moves or asks for data as R345 to R347 say; a segment of a connection is taken by it and another
frame is discarded and counted; the retransmission timer sends the oldest segment again, whatever was reported of it; TIMEOUT_MS
of an outstanding command fails the connection. A cipher completion joins its piece to the command's data; one with a
status other than zero is recorded as FC 0x170A also where the command has ended; one that names no piece under way is
counted as late. (13_storage.md R343, 13_storage.md R344, 13_storage.md R345, 13_storage.md
R346, 13_storage.md R347, 13_storage.md R348, 13_storage.md R349, 13_storage.md R357) -/
def Obligations.StorageConnections : Prop :=
  (∀ (s : State) (c : Nat) (new : NveConn),
     c = s.get F.NVE_CONN_SEL_CONN →
     (s.conn c).inst = false ∧ (s.conn c).f CI.state = 0 →
     new = { nveConnReset c with img := hSet ((List.range 16).map fun w => s.rd (R.NVE_CONN_IMG w)) CI.state 0, inst := true } →
     s.connsOf (new.f CI.engine) < teEngField s.plan (new.f CI.engine) 8 →
     ∃ t, exec .nveOffload s = .next t ∧
       t.conn c = { new with una := new.f CI.sndNxt, cwnd := initialWindow new.smss, ssthresh := 2 ^ 30 } ∧
       t.get F.NVE_CONN_STATUS_BUSY = 1 ∧ t.get F.NVE_CONN_STATUS_LAST_FC = 0 ∧
       (∀ d, d ≠ c → t.conn d = s.conn d) ∧
       t.nve = { s.nve with conns := t.nve.conns } ∧
       s.sameRegs t [R.NVE_CONN_STATUS] ∧
       s.sameBut t [.regs, .nve]) ∧
  (∀ (s : State),
     (s.conn (s.get F.NVE_CONN_SEL_CONN)).inst = true ∨ (s.conn (s.get F.NVE_CONN_SEL_CONN)).f CI.state ≠ 0 →
     ∃ t, exec .nveOffload s = .next t ∧
       t.get F.NVE_CONN_STATUS_LAST_FC = 0x170C ∧
       t.hasError uNve 11 ∧
       s.sameBut t [.regs, .pcie, .out, .aia]) ∧
  (∀ (s : State) (c : Nat),
     (s.conn c).inst = true ∧ (s.conn c).rcv = [] ∧ (s.conn c).finDue = false ∧ s.epHeld (teEp ((s.conn c).f CI.engine)) = false →
     ∃ t, exec (.nveConnectionUp c) s = .next t ∧
       t = ((s.setConn c { (s.conn c).put CI.state 1 with inst := false }).set F.NVE_CONN_STATUS_BUSY 0).nveGo ∧
       s.sameBut t [.regs, .mem, .poison, .zeroMap, .prm, .nve, .pcie, .out, .free, .aia]) ∧
  (∀ (s : State) (c : Nat),
     c = s.get F.NVE_CONN_SEL_CONN →
     (s.conn c).f CI.state = 1 ∨ (s.conn c).f CI.state = 2 →
     ∃ t, exec (.nveClose false) s = .next t ∧
       t.nve = (s.setConn c { (s.conn c).put CI.state 2 with inst := false }).nve ∧
       t.get F.NVE_CONN_STATUS_BUSY = 1 ∧ t.get F.NVE_CONN_STATUS_LAST_FC = 0 ∧
       s.sameRegs t [R.NVE_CONN_STATUS] ∧
       s.sameBut t [.regs, .nve]) ∧
  (∀ (s : State) (c : Nat) (force : Bool),
     c = s.get F.NVE_CONN_SEL_CONN →
     (s.conn c).f CI.state = 3 →
     ∃ t, exec (.nveClose force) s = .next t ∧
       t = ((s.connLost c).nveGo.setConn c (nveConnReset c)).set F.NVE_CONN_STATUS_LAST_FC 0 ∧
       ((s.nve.jobs.any fun (j : NveJob) => j.conn == c) = false → (s.connLost c).nve = (s.setConn c { s.conn c with rcv := [], finDue := false }).nve) ∧
       s.sameBut t [.regs, .mem, .poison, .zeroMap, .prm, .nve, .pcie, .out, .free, .aia]) ∧
  (∀ (s : State) (c : Nat),
     c = s.get F.NVE_CONN_SEL_CONN →
     (s.conn c).f CI.state = 1 →
     ∃ t, exec (.nveClose true) s = .next t ∧
       t = ((s.tcpSend c ((s.conn c).f CI.sndNxt) 0x14 false []).connFail c 0x05 4).set F.NVE_CONN_STATUS_LAST_FC 0 ∧
       s.sameBut t [.regs, .mem, .poison, .zeroMap, .prm, .nve, .pcie, .out, .free, .aia]) ∧
  (∀ (s : State) (c : Nat),
     (s.conn c).f CI.state = 2 ∧ s.epHeld (teEp ((s.conn c).f CI.engine)) = false →
     (s.nve.jobs.any fun (j : NveJob) => j.conn == c && j.cid.isSome) = false →
     ∃ t, exec (.nveCloseFin c) s = .next t ∧
       t.conn c = nveConnReset c ∧
       (∀ d, d ≠ c → t.conn d = s.conn d) ∧
       t.prm = (s.tcpSend c ((s.conn c).f CI.sndNxt) 0x11 false []).prm ∧
       t.nve = { s.nve with conns := t.nve.conns } ∧
       t.get F.NVE_CONN_STATUS_BUSY = 0 ∧
       s.sameRegs t [R.NVE_CONN_STATUS] ∧
       s.sameBut t [.regs, .nve, .prm, .free]) ∧
  (∀ (s : State) (c : Nat),
     c = s.get F.NVE_CONN_SEL_CONN →
     ∃ t, exec .nveQuery s = .next t ∧
       (∀ w, w < 12 → t.rd (R.NVE_CONN_IMG w) = (s.conn c).img.getD w 0) ∧
       ((s.conn c).img = List.replicate 16 0 → ∀ w, w < 16 → t.rd (R.NVE_CONN_IMG w) = 0) ∧
       t.get F.NVE_CONN_STATUS_LAST_FC = 0 ∧
       s.sameRegs t (R.NVE_CONN_STATUS :: (List.range 16).map R.NVE_CONN_IMG) ∧
       s.sameBut t [.regs, .free]) ∧
  (∀ (s : State) (c : Nat) (b : List Byte) (j : NveJob) (k : NveConn),
     (s.conn c).front = some (0x05, b) ∧ (s.conn c).frontBad = 0 →
     (s.conn c).f CI.state ≠ 0 ∧ s.teRuns ((s.conn c).f CI.engine) = true →
     s.jobOf c (leAt b 20 2) = some j →
     leAt b 22 2 / 2 ≠ 0 ∨ j.op ≠ 2 ∨ j.dead = true ∨ j.len ≤ j.got →
     k = { s.conn c with rcv := (s.conn c).rcv.drop b.length } →
     ∃ t, exec (.nveCapsuleResp c) s = .next t ∧
       t = (((((s.setConn c k).setConn c { k with sqHead := leAt b 16 2 }).nveJobEnd j (leAt b 22 2 / 2) true).nveGo).pduCheck c) ∧
       s.sameBut t [.regs, .mem, .poison, .zeroMap, .prm, .nve, .pcie, .out, .free, .aia]) ∧
  (∀ (s : State) (c : Nat) (b : List Byte) (j : NveJob) (x : NveCmd) (id : Nat) (u v : State),
     (s.conn c).front = some (0x07, b) ∧ (s.conn c).frontBad = 0 →
     (s.conn c).f CI.state ≠ 0 ∧ s.teRuns ((s.conn c).f CI.engine) = true →
     s.jobOf c (leAt b 8 2) = some j →
     j.op = 2 ∧ leAt b 12 4 + leAt b 16 4 ≤ j.len ∧ j.dead = false ∧ j.owner = some id ∧ s.nveCmd id = some x →
     (s.conn c).f CI.ddgst = 0 ∧ x.ns.xts = false ∧ (leAt b 1 1).testBit 2 = false →
     u = (s.setConn c { s.conn c with rcv := (s.conn c).rcv.drop b.length }).setJob { j with got := j.got + leAt b 16 4 } →
     u.nveToHost x.fn x.prps (j.off + leAt b 12 4) (bytesAt b (leAt b 3 1) (leAt b 16 4)) = (true, v) →
     ∃ t, exec (.nveC2hData c) s = .next t ∧
       t = v.nveGo.pduCheck c ∧
       s.sameBut t [.regs, .mem, .poison, .zeroMap, .prm, .nve, .pcie, .out, .free, .aia]) ∧
  (∀ (s : State) (c : Nat) (b : List Byte) (j : NveJob) (k : NveConn),
     (s.conn c).front = some (0x09, b) ∧ (s.conn c).frontBad = 0 →
     ((s.conn c).f CI.state = 1 ∨ (s.conn c).f CI.state = 2) ∧ s.teRuns ((s.conn c).f CI.engine) = true →
     s.jobOf c (leAt b 8 2) = some j →
     leAt b 12 4 + leAt b 16 4 ≤ j.data.length ∧ leAt b 16 4 ≠ 0 →
     k = { s.conn c with rcv := (s.conn c).rcv.drop b.length } →
     ∃ t, exec (.nvePduR2t c) s = .next t ∧
       t = (((s.setConn c k).tcpWrite c j.prov (h2cPdus k (leAt b 8 2) (leAt b 10 2) j.data (leAt b 16 4 / 4 + 1) (leAt b 12 4) (leAt b 16 4))).nveGo).pduCheck c ∧
       s.sameBut t [.regs, .mem, .poison, .zeroMap, .prm, .nve, .pcie, .out, .free, .aia]) ∧
  (∀ (s : State) (c : Nat) (b : List Byte),
     (s.conn c).front = some (0x03, b) ∧ (s.conn c).frontBad = 0 →
     ((s.conn c).f CI.state = 1 ∨ (s.conn c).f CI.state = 2) ∧ s.teRuns ((s.conn c).f CI.engine) = true →
     ∃ t, exec (.nveC2hTermReq c) s = .next t ∧
       t = (((s.setConn c { s.conn c with rcv := (s.conn c).rcv.drop b.length }).connFail c 0x06 5).nveGo).pduCheck c ∧
       s.sameBut t [.regs, .mem, .poison, .zeroMap, .prm, .nve, .pcie, .out, .free, .aia]) ∧
  (∀ (s : State) (e c : Nat) (m : Packet) (rest : List Packet) (g : TcpIn),
     s.inboxOf (teEp e) = m :: rest →
     hGet m.words CH.kind = kPacket ∧ s.teRuns e = true ∧ parseRoce m.payload = none →
     parseTcp m.payload = some g ∧ s.tcpMatch e g = some c →
     m.poison = false ∧ hGet m.words CH.poison = 0 ∧ s.seqFull e = false →
     ∃ t, exec (.nveTcpSegmentReceive e) s = .next t ∧
       t = ((s.setInbox (teEp e) rest).seqInternal e (.conn c)).tcpArrive c g ∧
       s.sameBut t [.regs, .mem, .poison, .zeroMap, .prm, .te, .nve, .pcie, .out, .free, .aia]) ∧
  (∀ (s : State) (e : Nat) (m : Packet) (rest : List Packet) (g : TcpIn),
     s.inboxOf (teEp e) = m :: rest →
     hGet m.words CH.kind = kPacket ∧ s.teRuns e = true ∧ parseRoce m.payload = none →
     parseTcp m.payload = none ∨ (parseTcp m.payload = some g ∧ s.tcpMatch e g = none) →
     ∃ t, exec (.nveTcpSegmentReceive e) s = .next t ∧
       t = (s.setInbox (teEp e) rest).count F.TE_RX_DISCARD_COUNT ∧
       s.sameBut t [.regs, .prm]) ∧
  (∀ (s : State) (c : Nat) (g : NveSeg),
     (s.conn c).f CI.state = 1 ∧ s.teRuns ((s.conn c).f CI.engine) = true ∧ s.seqFull ((s.conn c).f CI.engine) = false →
     (s.conn c).segs.head? = some g →
     g.tries < (s.conn c).f CI.retries →
     ∃ t, exec (.nveTcpRto c) s = .next t ∧
       t = ((s.seqInternal ((s.conn c).f CI.engine) (.conn c)).setConn c { s.conn c with ssthresh := halfFlight (s.conn c), cwnd := (s.conn c).smss, dup := 0, recover := none, segs := (s.conn c).segs.map fun (g : NveSeg) => { g with sacked := false } }).tcpResend c ∧
       s.sameBut t [.prm, .te, .nve, .free]) ∧
  (∀ (s : State) (c : Nat) (g : NveSeg),
     (s.conn c).f CI.state = 1 ∧ s.teRuns ((s.conn c).f CI.engine) = true ∧ s.seqFull ((s.conn c).f CI.engine) = false →
     (s.conn c).segs.head? = some g →
     (s.conn c).f CI.retries ≤ g.tries →
     ∃ t, exec (.nveTcpRto c) s = .next t ∧
       t = (s.seqInternal ((s.conn c).f CI.engine) (.conn c)).connFail c 0x05 4) ∧
  (∀ (s : State) (c : Nat),
     (s.nve.jobs.any fun (j : NveJob) => j.conn == c && j.cid.isSome) = true →
     s.teRuns ((s.conn c).f CI.engine) = true →
     ∃ t, exec (.nveTargetTimeout c) s = .next t ∧
       t = s.connFail c 0x04 3 ∧
       s.sameBut t [.regs, .mem, .poison, .zeroMap, .prm, .nve, .pcie, .out, .free, .aia]) ∧
  (∀ (s : State) (e : Nat) (m : Packet) (rest : List Packet) (k : NveCiph) (x : NveCmd),
     s.inboxOf (nveEp e) = m :: rest ∧ s.ready = true ∧ s.epHeld (nveEp e) = false →
     hGet m.words CH.kind = kCompletion ∧ hGet m.words CH.status = 0 ∧ m.poison = false ∧ hGet m.words CH.poison = 0 →
     (s.nve.ciphs.find? fun (k : NveCiph) => k.ctx == hGet m.words CH.ctx) = some k →
     s.nveCmd k.cmd = some x →
     ∃ t, exec (.nveCipherCompletion e) s = .next t ∧
       t = (((s.setInbox (nveEp e) rest).withNve { s.nve with ciphs := s.nve.ciphs.filter fun (y : NveCiph) => y.ctx != k.ctx }).setCmd { x with data := bytesPut x.data k.off (bytesAt m.payload 0 k.len) }).nveGo ∧
       s.sameBut t [.regs, .mem, .poison, .zeroMap, .prm, .nve, .pcie, .out, .free, .aia]) ∧
  (∀ (s : State) (e : Nat) (m : Packet) (rest : List Packet) (k : NveCiph),
     s.inboxOf (nveEp e) = m :: rest ∧ s.ready = true ∧ s.epHeld (nveEp e) = false →
     hGet m.words CH.kind = kCompletion ∧ hGet m.words CH.status ≠ 0 →
     (s.nve.ciphs.find? fun (k : NveCiph) => k.ctx == hGet m.words CH.ctx) = some k →
     s.nveCmd k.cmd = none →
     ∃ t, exec (.nveCipherCompletion e) s = .next t ∧
       t.hasError uNve 9 ∧
       t.nve = { s.nve with ciphs := s.nve.ciphs.filter fun (y : NveCiph) => y.ctx != k.ctx } ∧
       t.inboxOf (nveEp e) = rest ∧
       s.sameBut t [.regs, .prm, .nve, .pcie, .out, .aia]) ∧
  (∀ (s : State) (e : Nat) (m : Packet) (rest : List Packet),
     s.inboxOf (nveEp e) = m :: rest ∧ s.ready = true ∧ s.epHeld (nveEp e) = false →
     hGet m.words CH.kind = kCompletion →
     (s.nve.ciphs.find? fun (k : NveCiph) => k.ctx == hGet m.words CH.ctx) = none →
     ∃ t, exec (.nveCipherCompletion e) s = .next t ∧
       t = (s.setInbox (nveEp e) rest).count F.FLT_LATE_CPL_COUNT)

/-- Queue control, doorbells and the send path of the host queues. ENABLE moves a well-configured DISABLED queue to
ENABLED with its indices zero; DISABLE takes it to STOPPING, which ends in DISABLED when nothing of it is outstanding; a
doorbell of an ENABLED queue sets the index, arms a completion queue, waits in Hold, and beyond the ring puts the queue
into ERROR with code 1; HIF_Q_FORCE does so with code 7, and one that names no queue is recorded; an uncorrectable error
of a queue's state does so with code 9. The send ring whose turn it is has its next slot read, and
no other ring begins; each whole descriptor has the effect of its opcode and consumes its slots; a transmit report or
the 10 ms limit completes a descriptor that waits for its timestamp, as a carrier message with TS_REQ does; the
moderation timer raises the interrupt and disarms. (14_host_queues.md
R366, 14_host_queues.md R367, 14_host_queues.md R368, 14_host_queues.md R370, 14_host_queues.md R371,
14_host_queues.md R372, 14_host_queues.md R373, 14_host_queues.md R374, 14_host_queues.md R381, 14_host_queues.md
R383, 14_host_queues.md R384) -/
def Obligations.HostQueueControlAndSending : Prop :=
  (∀ (s : State) (g : Nat) (q : HifQueue),
     hqExists s.plan g = true ∧ s.fnAmended (g / 256) = false →
     q = s.hq g →
     q.st = 0 ∧ (q.sqLog2 ≠ 0 ∨ q.rqLog2 ≠ 0) ∧ ringLog2Ok q.sqLog2 = true ∧ ringLog2Ok q.rqLog2 = true →
     q.cqLog2 ≠ 0 ∧ ringLog2Ok q.cqLog2 = true →
     (bitAt q.cfg 12 = true → bitsAt q.cfg 10 0 < fnMsixSize s.plan (g / 256)) ∧ s.busMaster (g / 256) = true →
     ∃ t, exec (.queueEnable g) s = .next t ∧
       t = s.setHq g { q with st := 1, sqPi := 0, sqCi := 0, rqPi := 0, rqCi := 0, cqPi := 0, cqCi := 0, armed := false, armAt := 0 }) ∧
  (∀ (s : State) (g : Nat),
     hqExists s.plan g = true ∧ s.fnAmended (g / 256) = false →
     ((s.hq g).st = 1 ∧ (s.hq g).fetch = none) ∨ (s.hq g).st = 2 →
     ∃ t, exec (.queueDisable g) s = .next t ∧
       t = s.setHq g { s.hq g with st := 3, fetch := none }) ∧
  (∀ (s : State) (g : Nat),
     (s.hq g).st = 3 →
     (s.pcie.reqs.any fun (r : HostReq) => r.queue == g) = false →
     ∃ t, exec (.queueStopped g) s = .next t ∧
       t.hq g = { s.hq g with st := 0, err := 0 } ∧
       (∀ h, h ≠ g → t.hq h = s.hq h) ∧
       t.hif = { s.hif with queues := t.hif.queues, waits := s.hif.waits.map fun (w : TsWait) => if w.queue = g then { w with queue := 0x100000 } else w } ∧
       s.sameBut t [.hif]) ∧
  (∀ (s : State) (g : Nat) (v : Word),
     hqExists s.plan g = true ∧ s.fnAmended (g / 256) = false →
     s.epHeld (hifEp (g / 256)) = false ∧ (s.tile (epTile (hifEp (g / 256)))).sky = 0 →
     (s.hq g).st = 1 →
     diff32 (bitsAt v 31 0) (s.hq g).sqCi ≤ ringSize (s.hq g).sqLog2 →
     ∃ t, exec (.hifDbSq g v) s = .next t ∧
       t = s.setHq g { s.hq g with sqPi := bitsAt v 31 0 }) ∧
  (∀ (s : State) (g : Nat) (v : Word),
     hqExists s.plan g = true ∧ s.fnAmended (g / 256) = false →
     s.epHeld (hifEp (g / 256)) = false ∧ (s.tile (epTile (hifEp (g / 256)))).sky = 0 →
     (s.hq g).st = 1 →
     diff32 (bitsAt v 31 0) (s.hq g).rqCi ≤ ringSize (s.hq g).rqLog2 →
     ∃ t, exec (.hifDbRq g v) s = .next t ∧
       t = s.setHq g { s.hq g with rqPi := bitsAt v 31 0 }) ∧
  (∀ (s : State) (g : Nat) (v : Word),
     hqExists s.plan g = true ∧ s.fnAmended (g / 256) = false →
     s.epHeld (hifEp (g / 256)) = false ∧ (s.tile (epTile (hifEp (g / 256)))).sky = 0 →
     (s.hq g).st = 1 →
     diff32 (s.hq g).cqPi (bitsAt v 31 0) ≤ ringSize (s.hq g).cqLog2 →
     ∃ t, exec (.hifDbCq g v) s = .next t ∧
       (bitAt v 63 = false → t = s.setHq g { s.hq g with cqCi := bitsAt v 31 0 }) ∧
       (bitAt v 63 = true → (s.hq g).cqPi = bitsAt v 31 0 → t = s.setHq g { s.hq g with cqCi := bitsAt v 31 0, armed := true, armAt := bitsAt v 31 0 }) ∧
       s.sameBut t [.hif, .pcie, .out]) ∧
  (∀ (s : State) (g : Nat) (v : Word),
     hqExists s.plan g = true ∧ s.fnAmended (g / 256) = false →
     s.epHeld (hifEp (g / 256)) = true →
     ∃ t, exec (.hifDbSq g v) s = .next t ∧
       t = s.withHif { s.hif with held := s.hif.held ++ [(g, 0, v)] }) ∧
  (∀ (s : State) (g : Nat) (v : Word),
     hqExists s.plan g = true ∧ s.fnAmended (g / 256) = false →
     s.epHeld (hifEp (g / 256)) = false ∧ (s.tile (epTile (hifEp (g / 256)))).sky = 0 →
     (s.hq g).st = 1 ∧ (s.hq g).fetch = none →
     ringSize (s.hq g).sqLog2 < diff32 (bitsAt v 31 0) (s.hq g).sqCi →
     ∃ t, exec (.hifDbSq g v) s = .next t ∧
       (t.hq g).st = 2 ∧ (t.hq g).err = 1 ∧ (t.hq g).sqPi = (s.hq g).sqPi ∧
       (∀ h, h ≠ g → t.hq h = s.hq h) ∧
       s.sameBut t [.regs, .mem, .poison, .zeroMap, .hif, .pcie, .out, .free, .aia]) ∧
  (∀ (s : State) (g : Nat),
     g = s.get F.HIF_Q_SEL_Q ∧ hqExists s.plan g = true ∧ s.fnAmended (g / 256) = false →
     (s.hq g).st = 1 ∧ (s.hq g).fetch = none →
     ∃ t, exec .hifQForce s = .next t ∧
       (t.hq g).st = 2 ∧ (t.hq g).err = 7 ∧
       (∀ h, h ≠ g → t.hq h = s.hq h) ∧
       s.sameBut t [.regs, .mem, .poison, .zeroMap, .hif, .pcie, .out, .free, .aia]) ∧
  (∀ (s : State),
     hqExists s.plan (s.get F.HIF_Q_SEL_Q) = false →
     ∃ t, exec .hifQForce s = .next t ∧
       t.rd (errFirst uHif) = (if bitAt (s.rd (errFirst uHif)) 63 = true then s.rd (errFirst uHif) else BitVec.ofNat 64 (2 ^ 63 + 0x18FE * 2 ^ fcShift uHif)) ∧
       t.get ⟨errCount uHif, 31, 0⟩ = min 0xFFFFFFFF (s.get ⟨errCount uHif, 31, 0⟩ + 1) ∧
       s.sameBut t [.regs]) ∧
  (∀ (s : State) (g tag a : Nat),
     s.taking = true ∧ s.epHeld (hifEp (g / 256)) = false ∧ (s.hq g).st = 1 →
     (s.pcie.reqs.any fun (r : HostReq) => r.queue == g) = false ∧ (s.hq g).fetch = none ∧ (s.hq g).sqPi ≠ (s.hq g).sqCi →
     s.hqTurn (g / 256 / 1024) = some g →
     s.dmaOpen (g / 256) = true →
     a = (s.hq g).sqBase.toNat + 64 * ((s.hq g).sqCi % 2 ^ (s.hq g).sqLog2) →
     (s.pickTag (fnPort (g / 256))).1 = some tag →
     ∃ t, exec (.sendFrameFetch ⟨g, .clean⟩) s = .next t ∧
       t.pcie.reqs = s.pcie.reqs ++ [(⟨fnPort (g / 256), tag, g / 256, a, 64, g, [], (s.hq g).pasid⟩ : HostReq)] ∧
       .hostReadRequest (fnPort (g / 256)) tag (g / 256) a 64 (s.tlpAttr (g / 256) (s.hq g).pasid true false) ∈ t.out ∧
       t.hq g = { s.hq g with fetch := some ⟨[], [], 0, 0, false, false, 0, 0⟩ } ∧
       (∀ h, h ≠ g → t.hq h = s.hq h) ∧
       t.hif = { s.hif with queues := t.hif.queues, turn := spSet (fun _ => 0) s.hif.turn (g / 256 / 1024) (g + 1) } ∧
       s.sameBut t [.hif, .pcie, .out, .free]) ∧
  (∀ (s : State) (g : Nat),
     (s.hq g).fetch = none ∧ s.hqTurn (g / 256 / 1024) ≠ some g →
     exec (.sendFrameFetch ⟨g, .clean⟩) s = .next s) ∧
  (∀ (s : State) (g : Nat),
     s.ready = true ∧ s.epHeld (hifEp (g / 256)) = false ∧ (s.hq g).st = 1 ∧ (s.hq g).fetch = none →
     ∃ t, exec (.sendFrameFetch ⟨g, .uncorrectable⟩) s = .next t ∧
       (t.hq g).st = 2 ∧ (t.hq g).err = 9 ∧
       (∀ h, h ≠ g → t.hq h = s.hq h) ∧
       t.hasError uHif 3 ∧
       s.sameBut t [.regs, .hif, .pcie, .out, .aia]) ∧
  (∀ (s : State) (g : Nat) (x : HifFetch) (d : List Byte),
     s.ready = true ∧ s.epHeld (hifEp (g / 256)) = false ∧ (s.hq g).st = 1 →
     (s.hq g).fetch = some x ∧ x.whole = true ∧ dOpcode x.slots = 1 →
     dTsReq x.slots = false ∧ dSignaled x.slots = false ∧ offload x.slots x.data = some d →
     ∃ t, exec (.descSend g) s = .next t ∧
       t = ((s.setHq g { s.hq g with sqCi := ((s.hq g).sqCi + dSlots x.slots) % 2 ^ 32, fetch := none }).wrapBy F.HIF_ARB_FRAMES_COUNT 1).storeFrame (16 + g / 256 / 1024) (framePrio d 0) (fnTd s.plan (g / 256)) d (shortNs (quantise x.time)) (shortFrac (quantise x.time)) false ∧
       s.sameBut t [.regs, .frames, .arb, .eth, .hif, .out]) ∧
  (∀ (s : State) (g : Nat) (x : HifFetch) (d : List Byte),
     s.ready = true ∧ s.epHeld (hifEp (g / 256)) = false ∧ (s.hq g).st = 1 →
     (s.hq g).fetch = some x ∧ x.whole = true ∧ dOpcode x.slots = 2 →
     dTsReq x.slots = false ∧ dSignaled x.slots = false ∧ offload x.slots x.data = some d →
     ∃ t, exec (.descSendInline g) s = .next t ∧
       t = ((s.setHq g { s.hq g with sqCi := ((s.hq g).sqCi + dSlots x.slots) % 2 ^ 32, fetch := none }).wrapBy F.HIF_ARB_FRAMES_COUNT 1).storeFrame (16 + g / 256 / 1024) (framePrio d 0) (fnTd s.plan (g / 256)) d (shortNs (quantise x.time)) (shortFrac (quantise x.time)) false ∧
       s.sameBut t [.regs, .frames, .arb, .eth, .hif, .out]) ∧
  (∀ (s : State) (g : Nat) (x : HifFetch),
     s.ready = true ∧ s.epHeld (hifEp (g / 256)) = false ∧ (s.hq g).st = 1 →
     (s.hq g).fetch = some x ∧ x.whole = true ∧ dOpcode x.slots = 3 ∧ dSignaled x.slots = false ∧ dTsReq x.slots = false →
     ∃ t, exec (.sendCarrier g) s = .next t ∧
       (x.refused = false → t = (s.setHq g { s.hq g with sqCi := ((s.hq g).sqCi + dSlots x.slots) % 2 ^ 32, fetch := none }).send (hifEp (g / 256)) ⟨carrierHeader s.plan (g / 256) x.slots x.time, x.data, false⟩) ∧
       (x.refused = true → t = s.setHq g { s.hq g with sqCi := ((s.hq g).sqCi + dSlots x.slots) % 2 ^ 32, fetch := none })) ∧
  (∀ (s : State) (g : Nat) (x : HifFetch) (u : State),
     s.ready = true ∧ s.epHeld (hifEp (g / 256)) = false ∧ (s.hq g).st = 1 →
     (s.hq g).fetch = some x ∧ x.whole = true ∧ x.refused = false ∧ dOpcode x.slots = 3 ∧ dTsReq x.slots = true →
     u = (s.setHq g { s.hq g with sqCi := ((s.hq g).sqCi + dSlots x.slots) % 2 ^ 32, fetch := none }).send (hifEp (g / 256)) ⟨carrierHeader s.plan (g / 256) x.slots x.time, x.data, false⟩ →
     ∃ t, exec (.sendCarrier g) s = .next t ∧
       t.hif = { u.hif with waits := u.hif.waits ++ [(⟨g / 256 / 1024, (u.pickTsTag (g / 256 / 1024)).1, g, (s.hq g).sqCi, dWord x.slots 1, 0⟩ : TsWait)] } ∧
       u.sameBut t [.hif, .free]) ∧
  (∀ (s : State) (g : Nat) (x : HifFetch) (u : State),
     s.ready = true ∧ s.epHeld (hifEp (g / 256)) = false ∧ (s.hq g).st = 1 →
     (s.hq g).fetch = some x ∧ x.whole = true ∧ dOpcode x.slots = 0x0F ∧ dTsReq x.slots = false →
     u = s.setHq g { s.hq g with sqCi := ((s.hq g).sqCi + dSlots x.slots) % 2 ^ 32, fetch := none } →
     ∃ t, exec (.descNop g) s = .next t ∧
       (dSignaled x.slots = false → t = u) ∧
       (dSignaled x.slots = true → t = u.sendComplete g (s.hq g).sqCi 0 0 0 (dWord x.slots 1) (timeWord x.time)) ∧
       s.sameBut t [.regs, .mem, .poison, .zeroMap, .hif, .pcie, .out, .free, .aia]) ∧
  (∀ (s : State) (g : Nat) (x : HifFetch) (u : State),
     s.ready = true ∧ s.epHeld (hifEp (g / 256)) = false ∧ (s.hq g).st = 1 →
     (s.hq g).fetch = some x ∧ x.whole = true ∧ dOpcode x.slots = 0x0F ∧ dTsReq x.slots = true →
     u = s.setHq g { s.hq g with sqCi := ((s.hq g).sqCi + dSlots x.slots) % 2 ^ 32, fetch := none } →
     ∃ t, exec (.descNop g) s = .next t ∧
       t.hif = { u.hif with waits := u.hif.waits ++ [(⟨g / 256 / 1024, (u.pickTsTag (g / 256 / 1024)).1, g, (s.hq g).sqCi, dWord x.slots 1, 0⟩ : TsWait)] } ∧
       u.sameBut t [.hif, .free]) ∧
  (∀ (s : State) (e : Nat) (m : Packet) (rest : List Packet) (w : TsWait),
     s.epHeld (0x10 + e) = false →
     s.inboxOf (0x10 + e) = m :: rest ∧ hGet m.words CH.kind = kEvent ∧ hGet m.words CH.opcode = 0x310 →
     s.tsWait e (hGet m.words CH.operand % 4096) = some w →
     w.queue ≠ 0x100000 ∧ (s.hq w.queue).st ≠ 0 →
     ∃ t, exec (.txReportReceive e) s = .next t ∧
       t = ((s.setInbox (0x10 + e) rest).dropWait w.engine w.tag).sendComplete w.queue w.index w.status 0x10 (natBits (hGet m.words CH.operand) 37 36) w.cookie (m.words.getD 2 0) ∧
       s.sameBut t [.regs, .mem, .poison, .zeroMap, .prm, .hif, .pcie, .out, .free, .aia]) ∧
  (∀ (s : State) (e tag : Nat) (w : TsWait),
     s.epHeld (0x10 + e) = false →
     ((s.inboxOf (0x10 + e)).any fun (m : Packet) => isTxReport m && hGet m.words CH.operand % 4096 == tag) = false →
     s.tsWait e tag = some w →
     w.queue ≠ 0x100000 ∧ (s.hq w.queue).st ≠ 0 →
     ∃ t, exec (.timestampTimeout e tag) s = .next t ∧
       t = (s.dropWait w.engine w.tag).sendComplete w.queue w.index 2 0 0 w.cookie 0 ∧
       s.sameBut t [.regs, .mem, .poison, .zeroMap, .hif, .pcie, .out, .free, .aia]) ∧
  (∀ (s : State) (g : Nat),
     s.epHeld (hifEp (g / 256)) = false →
     (s.hq g).armed = true ∧ 1 ≤ (s.hq g).pendingCount ∧ bitsAt (s.hq g).mod 31 16 ≠ 0 →
     ∃ t, exec (.moderationTimer g) s = .next t ∧
       (bitAt (s.hq g).cfg 12 = true → t = (s.setHq g { s.hq g with armed := false }).raiseMsix (g / 256) (bitsAt (s.hq g).cfg 10 0)) ∧
       (bitAt (s.hq g).cfg 12 = false → t = s.setHq g { s.hq g with armed := false }))

/-- Reception, host memory commands and load spreading of the host interface. A packet that passes the checks is placed
and completed, and one without a receive descriptor is counted as dropped; HOST_READ, HOST_WRITE and HOST_INTR of a
function's own TD read, write and interrupt the host and complete with status 0, and one of another TD completes with
status 1 and is counted; HIF_FN_RSS writes both entries of an indirection pair, or neither where a queue lies beyond the
function's limit. (14_host_queues.md R375, 14_host_queues.md R377, 14_host_queues.md R380, 14_host_queues.md R382) -/
def Obligations.HostReceptionAndMemoryCommands : Prop :=
  (∀ (s : State) (e g used placed : Nat) (m : Packet) (rest : List Packet) (descs : List Byte) (d : DmaEnd) (u : State),
     s.ready = true ∧ s.epHeld (0x10 + e) = false →
     s.inboxOf (0x10 + e) = m :: rest →
     hGet m.words CH.kind = kPacket ∨ hGet m.words CH.kind = kMessage →
     g = hGet m.words CH.dstQueue ∧ g < 2 ^ 20 ∧ g / 256 / 1024 = e ∧ s.dmaWaits (g / 256) = false →
     hqExists s.plan g = true ∧ s.fnEnabled (g / 256) = true ∧ (hGet m.words CH.td = 0 ∨ hGet m.words CH.td = fnTd s.plan (g / 256)) →
     (s.hq g).st = 1 ∧ (s.hq g).rqLog2 ≠ 0 ∧ hGet m.words CH.poison = 0 ∧ m.poison = false ∧ (s.hq g).rqPi ≠ (s.hq g).rqCi →
     (s.setInbox (0x10 + e) rest).placeReceive g descs d (min 16 (diff32 (s.hq g).rqPi (s.hq g).rqCi)) (min 16 (diff32 (s.hq g).rqPi (s.hq g).rqCi)) 0 0 m.payload = (0, used, placed, u) →
     ∃ t, exec (.hifReceive e descs ⟨.clean, d⟩) s = .next t ∧
       t = (u.setHq g { u.hq g with rqCi := ((s.hq g).rqCi + used) % 2 ^ 32 }).hqComplete g [cqeWord0 2 0 ((if hGet m.words CH.kind = kPacket then 1 else 0) + (if hGet m.words CH.trunc = 1 ∨ placed < m.payload.length then 2 else 0) + (if hGet m.words CH.copy = 1 then 4 else 0) + (if hGet m.words CH.mirror = 1 then 8 else 0) + 16 + (if hGet m.words CH.kind = kMessage then 32 else 0)) (if hGet m.words CH.srcEp < 16 then portTb s (hGet m.words CH.srcEp) else 0) (used - 1) (s.hq g).rqCi, m.words.getD 3 0, m.words.getD 2 0, BitVec.ofNat 64 (hGet m.words CH.len * 2 ^ 48 + hGet m.words CH.srcEp * 2 ^ 32 + placed), m.words.getD 5 0, m.words.getD 7 0, 0]) ∧
  (∀ (s : State) (e g : Nat) (m : Packet) (rest : List Packet) (descs : List Byte) (d : DmaEnd),
     s.ready = true ∧ s.epHeld (0x10 + e) = false →
     s.inboxOf (0x10 + e) = m :: rest →
     hGet m.words CH.kind = kPacket ∨ hGet m.words CH.kind = kMessage →
     g = hGet m.words CH.dstQueue ∧ g < 2 ^ 20 ∧ g / 256 / 1024 = e ∧ s.dmaWaits (g / 256) = false →
     hqExists s.plan g = true ∧ s.fnEnabled (g / 256) = true ∧ (hGet m.words CH.td = 0 ∨ hGet m.words CH.td = fnTd s.plan (g / 256)) →
     (s.hq g).st ≠ 1 ∨ (s.hq g).rqLog2 = 0 ∨ m.poison = true ∨ (s.hq g).rqPi = (s.hq g).rqCi →
     ∃ t, exec (.hifReceive e descs ⟨.clean, d⟩) s = .next t ∧
       t = (s.setInbox (0x10 + e) rest).setHq g { s.hq g with rxDrop := ((s.hq g).rxDrop + 1) % 2 ^ 32 }) ∧
  (∀ (s : State) (e f n : Nat) (m : Packet) (rest : List Packet) (data : List Byte),
     s.ready = true ∧ s.epHeld (0x10 + e) = false →
     s.inboxOf (0x10 + e) = m :: rest ∧ hGet m.words CH.kind = kCommand ∧ hGet m.words CH.opcode = 0x501 →
     f = hGet m.words CH.dstQueue ∧ f < 4096 ∧ f / 1024 = e ∧ fnPresent s.plan f = true ∧ hGet m.words CH.td = fnTd s.plan f →
     m.payload.length = 16 ∧ leAt m.payload 12 4 = 0 ∧ n = leAt m.payload 8 4 ∧ 1 ≤ n ∧ n ≤ 65535 →
     m.poison = false ∧ hGet m.words CH.poison = 0 ∧ s.dmaOpen f = true →
     ∃ t, exec (.hostRead e data .ok) s = .next t ∧
       t = ((s.setInbox (0x10 + e) rest).l1Exit f).complete (0x10 + e) m.words 0 0 (bytesAt data 0 n) ∧
       s.sameBut t [.prm, .pcie, .out]) ∧
  (∀ (s : State) (e f n : Nat) (m : Packet) (rest : List Packet),
     s.ready = true ∧ s.epHeld (0x10 + e) = false →
     s.inboxOf (0x10 + e) = m :: rest ∧ hGet m.words CH.kind = kCommand ∧ hGet m.words CH.opcode = 0x502 →
     f = hGet m.words CH.dstQueue ∧ f < 4096 ∧ f / 1024 = e ∧ fnPresent s.plan f = true ∧ hGet m.words CH.td = fnTd s.plan f →
     n = leAt m.payload 8 4 ∧ m.payload.length = 16 + n ∧ leAt m.payload 12 4 = 0 ∧ 1 ≤ n ∧ n ≤ 65519 →
     m.poison = false ∧ hGet m.words CH.poison = 0 ∧ s.dmaOpen f = true →
     ∃ t, exec (.hostWrite e) s = .next t ∧
       t = (((s.setInbox (0x10 + e) rest).l1Exit f).emit (.hostWrite f (leAt m.payload 0 8) (m.payload.drop 16) (s.tlpAttr f none false false))).complete (0x10 + e) m.words 0 0 [] ∧
       s.sameBut t [.prm, .pcie, .out]) ∧
  (∀ (s : State) (e f : Nat) (m : Packet) (rest : List Packet),
     s.ready = true ∧ s.epHeld (0x10 + e) = false →
     s.inboxOf (0x10 + e) = m :: rest ∧ hGet m.words CH.kind = kCommand ∧ hGet m.words CH.opcode = 0x503 →
     f = hGet m.words CH.dstQueue ∧ f < 4096 ∧ f / 1024 = e ∧ fnPresent s.plan f = true ∧ hGet m.words CH.td = fnTd s.plan f →
     m.payload.length = 16 ∧ leAt m.payload 8 8 = 0 ∧ hGet m.words CH.operand % 2048 < fnMsixSize s.plan f →
     m.poison = false ∧ hGet m.words CH.poison = 0 ∧ s.busMaster f = true →
     ∃ t, exec (.hostIntr e) s = .next t ∧
       t = ((s.setInbox (0x10 + e) rest).raiseMsix f (hGet m.words CH.operand % 2048)).complete (0x10 + e) m.words 0 0 [] ∧
       s.sameBut t [.prm, .pcie, .out]) ∧
  (∀ (s : State) (e f : Nat) (m : Packet) (rest : List Packet) (data : List Byte) (d : DmaEnd),
     s.ready = true ∧ s.epHeld (0x10 + e) = false →
     s.inboxOf (0x10 + e) = m :: rest ∧ hGet m.words CH.kind = kCommand ∧ hGet m.words CH.opcode = 0x501 →
     f = hGet m.words CH.dstQueue ∧ f < 4096 ∧ f / 1024 = e ∧ hGet m.words CH.td ≠ fnTd s.plan f →
     ∃ t, exec (.hostRead e data d) s = .next t ∧
       t.get F.HIF_CMD_REFUSED_COUNT = min 0xFFFFFFFF (s.get F.HIF_CMD_REFUSED_COUNT + 1) ∧
       t.hasError uHif 2 ∧
       t.prm = ((s.setInbox (0x10 + e) rest).complete (0x10 + e) m.words 1 0 []).prm ∧
       s.sameBut t [.regs, .prm, .pcie, .out, .aia]) ∧
  (∀ (s : State) (f k : Nat) (v : Word),
     fnHoldsQueues s.plan f = true ∧ s.fnAmended f = false →
     bitsAt v 7 0 < fnQpLimit s.plan f ∧ bitsAt v 39 32 < fnQpLimit s.plan f →
     ∃ t, exec (.hifFnRssWrite f k v) s = .next t ∧
       t.get (F.ACM_IND_EVEN (128 * f + k)) = (256 * f + bitsAt v 7 0) % 2 ^ 24 ∧
       t.get (F.ACM_IND_ODD (128 * f + k)) = (256 * f + bitsAt v 39 32) % 2 ^ 24 ∧
       s.sameRegs t [R.ACM_IND (128 * f + k)] ∧
       s.sameBut t [.regs]) ∧
  (∀ (s : State) (f k : Nat) (v : Word),
     fnHoldsQueues s.plan f = true ∧ s.fnAmended f = false →
     fnQpLimit s.plan f ≤ bitsAt v 7 0 →
     ∃ t, exec (.hifFnRssWrite f k v) s = .next t ∧
       t = s.fnError f 3 (bitsAt v 7 0) ∧
       s.sameBut t [.hif])

/-- Requests of hosts at the PCIe endpoint. Outside bring-up refusal a configuration read answers the register and a
write applies it, and a function that is not there reads as all ones; a memory read and a posted write reach what the
BAR names: a register of the control space, memory behind an address window, or nothing; an AtomicOp or I/O request is
an Unsupported Request; in bring-up refusal a request is refused and recorded. A window commit is checked whole at its
GO and becomes live with its apply. A function level reset returns the function's registers, vectors and idle queues to
reset values, clearing Bus Master Enable puts its enabled queues into ERROR with code 6, and clearing VF Enable resets
the VFs. An ATS invalidation drops the translations of its range and a message has the effect of its kind. In Hold a
request is kept. (15_pcie_endpoint.md R393, 15_pcie_endpoint.md
R400, 15_pcie_endpoint.md R404, 15_pcie_endpoint.md R405, 15_pcie_endpoint.md R410, 15_pcie_endpoint.md R411,
15_pcie_endpoint.md R412, 14_host_queues.md R383, 14_host_queues.md R385) -/
def Obligations.HostRequests : Prop :=
  (∀ (s : State) (f o be v : Nat),
     s.epHeld (hifEp f) = false ∧ s.refusing = false ∧ s.fnThere f = true →
     o % 4 = 0 →
     ∃ t, exec (.configRequest ⟨f, none, true⟩ o false be v) s = .next t ∧
       t = (s.tlpArrives f).emit (.configAnswer f ((s.tlpArrives f).cfgRead f o) false) ∧
       s.sameBut t [.regs, .pcie, .out, .aia]) ∧
  (∀ (s : State) (f v : Nat),
     s.epHeld (hifEp f) = false ∧ s.refusing = false ∧ s.fnThere f = true →
     s.tdiLocked f = false ∧ (s.cfg f 0x04).testBit 2 = false →
     ∃ t, exec (.configRequest ⟨f, none, true⟩ 0x04 true 1 v) s = .next t ∧
       t = ((s.tlpArrives f).setCfg f 0x04 (cfgWritten s.plan f 0x04 (s.cfg f 0x04) 1 v)).emit (.configAnswer f 0 false) ∧
       s.sameBut t [.regs, .pcie, .out, .aia]) ∧
  (∀ (s : State) (f o be v : Nat) (write : Bool),
     f < 4096 ∧ s.epHeld (hifEp f) = false ∧ s.refusing = false ∧ s.fnThere f = false →
     ∃ t, exec (.configRequest ⟨f, none, true⟩ o write be v) s = .next t ∧
       t = (s.tlpArrives f).emit (.configAnswer f 0xFFFFFFFF false)) ∧
  (∀ (s : State) (o tag : Nat) (ecc : EccResult),
     s.epHeld (hifEp 0) = false ∧ s.refusing = false ∧ s.fnThere 0 = true ∧ s.memEnabled 0 = true ∧ s.tdiLocked 0 = false →
     o < 0x20000000 ∧ o % 8 = 0 →
     ∃ t, exec (.memoryReadRequest 0 0 o 8 tag none true ecc) s = .next t ∧
       t = ((s.tlpArrives 0).csrLoad o 8).2.emit (.hostRead tag (natLE 8 ((s.tlpArrives 0).csrLoad o 8).1.toNat) false)) ∧
  (∀ (s : State) (f o n tag a td : Nat),
     s.epHeld (hifEp f) = false ∧ s.refusing = false ∧ s.fnThere f = true ∧ s.memEnabled f = true ∧ s.tdiLocked f = false →
     s.barTarget f 4 o = .aperture →
     s.get (F.HIF_ATW_COMMIT_PENDING (f / 1024)) = 0 →
     s.atwMatch (f / 1024) o n false = some (a, td) ∧ tdOwnsRange s.plan td a n = true ∧ s.poisoned a n = false →
     ∃ t, exec (.memoryReadRequest f 4 o n tag none true .clean) s = .next t ∧
       t = (s.l1Exit f).emit (.hostRead tag (s.bytes a n) false) ∧
       s.sameBut t [.pcie, .out]) ∧
  (∀ (s : State) (f bar o n tag : Nat) (ecc : EccResult),
     f < 4096 ∧ s.epHeld (hifEp f) = false ∧ s.refusing = true ∧ s.bootWindow f = false →
     ∃ t, exec (.memoryReadRequest f bar o n tag none true ecc) s = .next t ∧
       .hostRead tag [] true ∈ t.out ∧
       t.hasError uHif 4 ∧
       s.sameBut t [.regs, .pcie, .out, .aia]) ∧
  (∀ (s : State) (f o a td : Nat) (data : List Byte) (env : CsrEnv) (h : TeHost),
     s.epHeld (hifEp f) = false ∧ s.refusing = false ∧ s.fnThere f = true ∧ s.memEnabled f = true ∧ s.tdiLocked f = false →
     s.barTarget f 4 o = .aperture →
     s.get (F.HIF_ATW_COMMIT_PENDING (f / 1024)) = 0 →
     s.atwMatch (f / 1024) o data.length true = some (a, td) ∧ tdOwnsRange s.plan td a data.length = true →
     ∃ t, exec (.postedWriteRequest f 4 o data false none true env h) s = .next t ∧
       (∀ i, i < data.length → t.byte (a + i) = data.getD i 0) ∧
       s.sameBytesBut t a data.length ∧
       s.sameBut t [.mem, .poison, .zeroMap, .pcie, .out, .cache]) ∧
  (∀ (s : State) (o : Nat) (data : List Byte) (env : CsrEnv) (h : TeHost),
     s.epHeld (hifEp 0) = false ∧ s.refusing = false ∧ s.fnThere 0 = true ∧ s.memEnabled 0 = true ∧ s.tdiLocked 0 = false →
     o < 0x20000000 ∧ o % 8 = 0 ∧ data.length = 8 →
     ∃ t, exec (.postedWriteRequest 0 0 o data false none true env h) s = .next t ∧
       t = (s.tlpArrives 0).csrWrite o 8 (BitVec.ofNat 64 (leNat data)) env) ∧
  (∀ (s : State) (f tag : Nat),
     f < 4096 ∧ s.epHeld (hifEp f) = false →
     ∃ t, exec (.atomicopIoRequest ⟨f, none, true⟩ tag) s = .next t ∧
       .hostRead tag [] true ∈ t.out ∧
       (s.refusing = false → t.hasError uHif 13) ∧
       (s.refusing = true → t.hasError uHif 4) ∧
       s.sameBut t [.regs, .pcie, .out, .free, .aia]) ∧
  (∀ (s : State) (pf : Nat),
     pf < 4 ∧ pfAtwLog2 s.plan pf ≠ 0 ∧ s.get (F.HIF_ATW_COMMIT_PENDING pf) = 0 →
     ((List.range 256).find? (s.atwBad pf)) = none ∧ s.tdiLocked (1024 * pf) = false →
     ∃ t, exec (.hifAtwCommitGo pf) s = .next t ∧
       t.get (F.HIF_ATW_COMMIT_PENDING pf) = 1 ∧ t.get (F.HIF_ATW_STATUS_LAST_FC pf) = 0 ∧
       s.sameRegs t [R.HIF_ATW_COMMIT pf, R.HIF_ATW_STATUS pf] ∧
       s.sameBut t [.regs]) ∧
  (∀ (s : State) (pf w : Nat),
     pf < 4 ∧ pfAtwLog2 s.plan pf ≠ 0 ∧ s.get (F.HIF_ATW_COMMIT_PENDING pf) = 0 →
     ((List.range 256).find? (s.atwBad pf)) = some w →
     ∃ t, exec (.hifAtwCommitGo pf) s = .next t ∧
       t.get (F.HIF_ATW_COMMIT_PENDING pf) = 0 ∧ t.get (F.HIF_ATW_STATUS_LAST_FC pf) = 0x1809 ∧ t.get (F.HIF_ATW_STATUS_WINDOW pf) = w ∧
       t.hasError uHif 8 ∧
       s.sameBut t [.regs, .pcie, .out, .aia]) ∧
  (∀ (s : State) (pf : Nat),
     pf < 4 ∧ pfAtwLog2 s.plan pf ≠ 0 ∧ s.get (F.HIF_ATW_COMMIT_PENDING pf) = 0 →
     s.tdiLocked (1024 * pf) = true →
     ∃ t, exec (.hifAtwCommitGo pf) s = .next t ∧
       t.get (F.HIF_ATW_COMMIT_PENDING pf) = 0 ∧ t.get (F.HIF_ATW_STATUS_LAST_FC pf) = 0x1809 ∧
       t.hasError uHif 8 ∧
       s.sameBut t [.regs, .pcie, .out, .aia]) ∧
  (∀ (s : State) (pf : Nat),
     pf < 4 ∧ s.get (F.HIF_ATW_COMMIT_PENDING pf) = 1 →
     ∃ t, exec (.atwApply pf) s = .next t ∧
       (∀ w, w < 256 → t.rd (R.HIF_ATW_LIVE_A pf w) = s.rd (R.HIF_ATW_STG_A pf w) ∧ t.rd (R.HIF_ATW_LIVE_B pf w) = s.rd (R.HIF_ATW_STG_B pf w)) ∧
       t.get (F.HIF_ATW_COMMIT_PENDING pf) = 0 ∧
       t.get (F.HIF_ATW_GEN_GEN pf) = (s.get (F.HIF_ATW_GEN_GEN pf) + 1) % 2 ^ 32 ∧
       s.sameBut t [.regs]) ∧
  (∀ (s : State) (f : Nat),
     s.epHeld (hifEp f) = false ∧ s.refusing = false ∧ s.fnThere f = true →
     fnIsVf f = true ∨ s.activeVfs (f / 1024) = [] →
     ∃ t, exec (.functionLevelReset f) s = .next t ∧
       (∀ o, o < 4096 → (o < 0x104 ∨ 0x160 ≤ o) → t.cfg f o = t.cfgDefault (1024 * f + o / 4)) ∧
       (∀ v, v < 2048 → t.msixWord f v 0 = 0 ∧ t.msixWord f v 1 = 2 ^ 32) ∧
       (∀ g, g / 256 = f → s.hqBusy g = false → t.hq g = hifReset g) ∧
       s.sameBut t [.regs, .mem, .poison, .zeroMap, .prm, .arb, .te, .nve, .hif, .pcie, .out, .free, .aia]) ∧
  (∀ (s : State) (f : Nat),
     s.epHeld (hifEp f) = false ∧ s.refusing = false ∧ s.fnThere f = true ∧ s.busMaster f = true ∧ s.tdiLocked f = false →
     ∃ t, exec (.busMasterDisable f) s = .next t ∧
       t.busMaster f = false ∧
       (∀ g, g / 256 = f → (s.hq g).st = 1 → (s.hq g).fetch = none → (t.hq g).st = 2 ∧ (t.hq g).err = 6) ∧
       (∀ g, g / 256 ≠ f → t.hq g = s.hq g) ∧
       s.sameBut t [.regs, .mem, .poison, .zeroMap, .prm, .frames, .arb, .eth, .hif, .pcie, .out, .free, .aia]) ∧
  (∀ (s : State) (pf : Nat),
     s.epHeld (hifEp (1024 * pf)) = false ∧ s.refusing = false ∧ s.fnThere (1024 * pf) = true ∧ (s.cfg (1024 * pf) 0x338).testBit 0 = true →
     ∃ t, exec (.vfEnableClear pf) s = .next t ∧
       t = ((s.activeVfs pf).foldl (State.oneFnReset · false) s).setCfg (1024 * pf) 0x338 (((s.activeVfs pf).foldl (State.oneFnReset · false) s).cfg (1024 * pf) 0x338 / 2 * 2) ∧
       (t.cfg (1024 * pf) 0x338).testBit 0 = false ∧
       s.sameBut t [.regs, .mem, .poison, .zeroMap, .prm, .arb, .te, .nve, .hif, .pcie, .out, .free, .aia]) ∧
  (∀ (s : State) (f tag a log2 : Nat) (pasid : Option Nat),
     s.epHeld (hifEp f) = false ∧ s.refusing = false ∧ s.fnThere f = true →
     (s.cfg f 0x2F4).testBit 31 = true →
     ∃ t, exec (.atsInvalidationRequest ⟨f, none, true⟩ ⟨tag, pasid, a, log2⟩) s = .next t ∧
       .atsDone f tag ∈ t.out ∧
       t.pcie.ats = (s.tlpArrives f).pcie.ats.filter (fun (e : AtsEntry) => !(e.fn == f && e.pasid == pasid && decide (e.base < a + 2 ^ log2) && decide (a < e.base + 2 ^ e.log2))) ∧
       (s.tlpArrives f).sameBut t [.pcie, .out]) ∧
  (∀ (s : State) (f o be v : Nat) (write : Bool) (stream : Option Nat) (good : Bool),
     s.epHeld (hifEp f) = true →
     ∃ t, exec (.configRequest ⟨f, stream, good⟩ o write be v) s = .next t ∧
       t.pcie = { s.pcie with held := s.pcie.held ++ [.config ⟨f, stream, good⟩ o write be v] } ∧
       s.sameBut t [.pcie]) ∧
  (∀ (s : State) (f code data : Nat),
     s.epHeld (hifEp f) = false →
     ∃ t, exec (.pcieMessage ⟨f, none, true⟩ code data) s = .next t ∧
       (code = 0x7F → t = s.tlpArrives f) ∧
       (code = 0x19 → t = (s.tlpArrives f).emit (.pcieLink (fnPort f) (fnLink ((s.tlpArrives f).strap (fnPort f)) f) "PME_TO_Ack" 0)) ∧
       (code = 0x50 → (t.cfg f 0x64) / 2 ^ 18 % 2 ^ 10 = data % 1024) ∧
       s.sameBut t [.regs, .pcie, .out, .free, .aia])

/-- Completions, tags, links and link power of the PCIe endpoint. A completion that a request waits for is delivered
to its queue, for a function with STRICT after the requests before it, one that no request waits for is counted as unexpected; a completion timeout quarantines the tag and
records it, and a quarantined tag is freed at its end; a link that goes down loses its status and its sessions, and
one that comes up shows its rate and width; an idle link enters L1, with its substate, where the host has enabled it, and the width of a
FLIT link follows its utilisation and the host's requests. (15_pcie_endpoint.md R391, 15_pcie_endpoint.md R392,
15_pcie_endpoint.md R408, 15_pcie_endpoint.md R413, 15_pcie_endpoint.md R414, 15_pcie_endpoint.md R415, 15_pcie_endpoint.md R417,
15_pcie_endpoint.md R418, 15_pcie_endpoint.md R419) -/
def Obligations.PcieCompletionsAndLinks : Prop :=
  (∀ (s : State) (port link tag f : Nat) (data : List Byte) (r : HostReq),
     s.epHeld (hifEp f) = false →
     s.findReq port tag = some r ∧ r.fn = f ∧ fnLink (s.strap port) f = link →
     ∃ t, exec (.inboundCompletion port link tag ⟨f, none, true⟩ true false data) s = .next t ∧
       (r.len ≤ (r.got ++ data).length → fnStrict s.plan r.fn = false → r.queue ≠ 0x100001 → t = (s.dropReq r.port r.tag).hqDelivered r.queue (bytesAt (r.got ++ data) 0 r.len)) ∧
       (r.len ≤ (r.got ++ data).length → fnStrict s.plan r.fn = false → r.queue = 0x100001 → t = (s.dropReq r.port r.tag).atsFill { r with got := r.got ++ data }) ∧
       (r.len ≤ (r.got ++ data).length → fnStrict s.plan r.fn = true → t = (s.withPcie { s.pcie with reqs := s.pcie.reqs.map fun (x : HostReq) => if x.port == r.port && x.tag == r.tag then { r with got := r.got ++ data } else x }).deliverInOrder r.fn) ∧
       ((r.got ++ data).length < r.len → t = s.withPcie { s.pcie with reqs := s.pcie.reqs.map fun (x : HostReq) => if x.port == r.port && x.tag == r.tag then { r with got := r.got ++ data } else x })) ∧
  (∀ (s : State) (port link tag f : Nat) (ok poison : Bool) (data : List Byte),
     s.epHeld (hifEp f) = false →
     s.findReq port tag = none →
     ∃ t, exec (.inboundCompletion port link tag ⟨f, none, true⟩ ok poison data) s = .next t ∧
       t.get F.HIF_UNEXP_CPL_COUNT_COUNT = min 0xFFFFFFFF (s.get F.HIF_UNEXP_CPL_COUNT_COUNT + 1) ∧
       t.hasError uHif 5 ∧
       s.sameBut t [.regs, .pcie, .out, .free, .aia]) ∧
  (∀ (s : State) (port tag : Nat) (r : HostReq),
     s.findReq port tag = some r ∧ s.epHeld (hifEp r.fn) = false ∧ r.queue = 0x100000 →
     (fnStrict s.plan r.fn = true → ∀ x ∈ s.pcie.reqs, x.fn = r.fn → x.got.length < x.len) →
     ∃ t, exec (.completionTimeout port tag) s = .next t ∧
       t.pcie.quarantine = s.pcie.quarantine ++ [(fnPort r.fn, tag)] ∧
       t.pcie.reqs = s.pcie.reqs.filter (fun (x : HostReq) => !(x.port == port && x.tag == tag)) ∧
       t.hasError uHif 6 ∧
       t.get F.HIF_CPL_TIMEOUT_COUNT_COUNT = min 0xFFFFFFFF (s.get F.HIF_CPL_TIMEOUT_COUNT_COUNT + 1) ∧
       s.sameBut t [.regs, .pcie, .out, .aia]) ∧
  (∀ (s : State) (port tag : Nat) (r : HostReq),
     s.findReq port tag = some r ∧ s.epHeld (hifEp r.fn) = false ∧ r.queue < 0x100000 →
     (s.hq r.queue).st = 1 ∧ (s.hq r.queue).fetch.all (fun x => !x.whole) = true →
     (fnStrict s.plan r.fn = true → ∀ x ∈ s.pcie.reqs, x.fn = r.fn → x.got.length < x.len) →
     ∃ t, exec (.completionTimeout port tag) s = .next t ∧
       t.pcie.quarantine = s.pcie.quarantine ++ [(fnPort r.fn, tag)] ∧
       (t.hq r.queue).st = 2 ∧ (t.hq r.queue).err = 3 ∧
       (∀ g, g ≠ r.queue → t.hq g = s.hq g) ∧
       s.sameBut t [.regs, .mem, .poison, .zeroMap, .hif, .pcie, .out, .free, .aia]) ∧
  (∀ (s : State) (port tag : Nat),
     s.epHeld (hifEp (2048 * port)) = false →
     ∃ t, exec (.tagQuarantineEnd port tag) s = .next t ∧
       t.pcie = { s.pcie with quarantine := s.pcie.quarantine.filter (· != (port, tag)) } ∧
       (∀ k, k < 2 → t.get (F.HIF_PORT_QUAR_TAGS_COUNT k) = (t.pcie.quarantine.filter fun x => x.1 == k).length % 2 ^ 14) ∧
       s.sameRegs t [R.HIF_PORT_QUAR_TAGS 0, R.HIF_PORT_QUAR_TAGS 1] ∧
       s.sameBut t [.regs, .pcie]) ∧
  (∀ (s : State) (port link : Nat),
     port < 2 ∧ link < 4 ∧ s.linkUp port link = true →
     ∃ t, exec (.pcieLinkDown port link) s = .next t ∧
       t.linkByte port link = 0 ∧
       t.hasError uHif 10 ∧
       t.wkt = { s.wkt with conns := s.wkt.conns.filter (fun x => !(linkPfs (s.strap port) port link).contains x.1), sessions := s.wkt.sessions.filter (fun (x : SpdmSession) => !(linkPfs (s.strap port) port link).contains x.pf) } ∧
       s.sameBut t [.regs, .mem, .poison, .zeroMap, .prm, .arb, .te, .nve, .hif, .pcie, .wkt, .out, .free, .aia]) ∧
  (∀ (s : State) (port link rate width : Nat) (flit drs : Bool),
     port < 2 ∧ s.pins.sysRst = true ∧ s.perstHigh port = true →
     link < linkCount (s.strap port) ∧ width ≤ linkWidthLog2 (s.strap port) ∧ 1 ≤ rate ∧ rate ≤ 6 ∧ (rate = 6 → flit = true) →
     ∃ t, exec (.pcieLinkUp port link rate width ⟨flit, drs⟩) s = .next t ∧
       t.linkByte port link = 128 + (if flit then 64 else 0) + rate * 8 + width ∧
       t.maxWidth port link = width ∧
       s.sameRegs t [R.HIF_PORT_STATUS port] ∧
       t.pcie = { s.pcie with linkMax := t.pcie.linkMax, drs := s.pcie.drs.filter (· != 4 * port + link) ++ if drs then [4 * port + link] else [] } ∧
       s.sameBut t [.regs, .pcie]) ∧
  (∀ (s : State) (port link : Nat),
     s.linkUp port link = true ∧ (s.l1Pm port link = true ∨ s.l1Enabled port link = true) ∧ spGet (fun _ => 0) s.pcie.l1 (4 * port + link) = 0 →
     ∃ t, exec (.l1IdleEntry port link) s = .next t ∧
       spGet (fun _ => 0) t.pcie.l1 (4 * port + link) = s.l1Substate port link (s.l1Pm port link) ∧
       .pcieLink port link "L1" (s.l1Substate port link (s.l1Pm port link)) ∈ t.out ∧
       t.pcie = { s.pcie with l1 := t.pcie.l1 } ∧
       s.sameBut t [.pcie, .out]) ∧
  (∀ (s : State) (port link tx rx cap : Nat) (grant : Bool),
     s.linkFlit port link = true ∧ s.get (F.HIF_PORT_L0P_EN port) = 1 →
     100 * tx < s.get (F.HIF_PORT_L0P_LOW_PCT port) * cap ∧ 100 * rx < s.get (F.HIF_PORT_L0P_LOW_PCT port) * cap →
     100 * tx ≤ s.get (F.HIF_PORT_L0P_HIGH_PCT port) * cap ∧ 100 * rx ≤ s.get (F.HIF_PORT_L0P_HIGH_PCT port) * cap →
     2 ≤ s.curWidth port link →
     ∃ t, exec (.l0pWindow port link tx rx cap grant) s = .next t ∧
       (grant = false → t = s.emit (.pcieLink port link "L0p" (s.curWidth port link - 1))) ∧
       (grant = true → t = (s.emit (.pcieLink port link "L0p" (s.curWidth port link - 1))).setWidth port link (s.curWidth port link - 1)) ∧
       s.sameRegs t [R.HIF_PORT_STATUS port] ∧
       s.sameBut t [.regs, .out]) ∧
  (∀ (s : State) (port link tx rx cap : Nat) (grant : Bool),
     s.linkFlit port link = true ∧ s.get (F.HIF_PORT_L0P_EN port) = 1 →
     s.get (F.HIF_PORT_L0P_HIGH_PCT port) * cap < 100 * tx ∨ s.get (F.HIF_PORT_L0P_HIGH_PCT port) * cap < 100 * rx →
     s.maxWidth port link ≠ s.curWidth port link →
     ∃ t, exec (.l0pWindow port link tx rx cap grant) s = .next t ∧
       (grant = false → t = s.emit (.pcieLink port link "L0p" (s.maxWidth port link))) ∧
       (grant = true → t = (s.emit (.pcieLink port link "L0p" (s.maxWidth port link))).setWidth port link (s.maxWidth port link)) ∧
       s.sameBut t [.regs, .out]) ∧
  (∀ (s : State) (port link width : Nat),
     s.linkFlit port link = true ∧ 1 ≤ width ∧ width ≤ s.maxWidth port link →
     ∃ t, exec (.l0pHostRequest port link width) s = .next t ∧
       t = (s.setWidth port link width).emit (.pcieLink port link "L0p ack" width) ∧
       s.sameRegs t [R.HIF_PORT_STATUS port] ∧
       s.sameBut t [.regs, .out])

/-- The SPDM responder. In a mailbox that answers, each request of its version, from the stage of the connection and in
the place that its rule asks, has its response and its effect on the connection, its transcripts and its sessions; the
values that the responder draws are free and those that Config leaves open are what Config says. A session opens where
the requester's verification data is right and ends where it is wrong. Message formats are those of DSP0274 (PRESUMED).
(20_security.md R533, 20_security.md R535, 20_security.md R536) -/
def Obligations.SpdmRequests : Prop :=
  (∀ (s : State) (pf : Nat) (r : SpdmReq) (b : List Byte),
     s.epHeld (hifEp (1024 * pf)) = false ∧ s.doeReady pf = true ∧ r.version = 0x10 ∧ r.session = none →
     b = spdmBytes 0x10 0x04 0 0 [0, 1, 0, 0x13] →
     ∃ t, exec (.spdmGetVersion pf r) s = .next t ∧
       t.out = s.out ++ [.doe pf b] ∧
       t.spdmConn pf = ⟨1, spdmReqBytes r 0x84 ++ b, [], [], []⟩ ∧
       (∀ q, q ≠ pf → t.spdmConn q = s.spdmConn q) ∧
       t.wkt = { s.wkt with conns := t.wkt.conns, sessions := s.wkt.sessions.filter fun (x : SpdmSession) => x.pf != pf } ∧
       s.sameBut t [.wkt, .out]) ∧
  (∀ (s : State) (pf : Nat) (r : SpdmReq) (b : List Byte),
     s.epHeld (hifEp (1024 * pf)) = false ∧ s.doeReady pf = true ∧ r.version = 0x13 ∧ r.session = none →
     (s.spdmConn pf).stage = 1 →
     b = spdmBytes 0x13 0x61 0 0 (natLE 1 0 ++ natLE 1 s.takeFree.1.toNat ++ natLE 2 0 ++ natLE 4 0x62D6 ++ natLE 4 0x100000 ++ natLE 4 0x100000) →
     ∃ t, exec (.spdmGetCapabilities pf r) s = .next t ∧
       t.out = s.out ++ [.doe pf b] ∧
       t.spdmConn pf = { s.spdmConn pf with stage := 2, vca := (s.spdmConn pf).vca ++ spdmReqBytes r 0xE1 ++ b } ∧
       t.wkt = { s.wkt with conns := t.wkt.conns } ∧
       s.sameBut t [.wkt, .out, .free]) ∧
  (∀ (s : State) (pf : Nat) (r : SpdmReq),
     s.epHeld (hifEp (1024 * pf)) = false ∧ s.doeReady pf = true ∧ r.version = 0x13 ∧ r.session = none →
     (s.spdmConn pf).stage = 2 →
     (leAt r.body 4 4).testBit 7 = true ∧ (leAt r.body 8 4).testBit 1 = true ∧ r.p1 = 0 →
     ∃ t, exec (.spdmNegotiateAlgorithms pf r) s = .next t ∧
       t.out = s.out ++ [.doe pf (spdmBytes 0x13 0x63 0 0 (natLE 2 36 ++ natLE 1 (leAt r.body 2 1 &&& 1) ++ natLE 1 (leAt r.body 3 1 &&& 2) ++ natLE 4 4 ++ natLE 4 0x80 ++ natLE 4 2 ++ natLE 12 0 ++ natLE 4 0))] ∧
       (t.spdmConn pf).stage = 3 ∧
       t.wkt = { s.wkt with conns := t.wkt.conns } ∧
       s.sameBut t [.wkt, .out]) ∧
  (∀ (s : State) (pf : Nat) (r : SpdmReq) (b : List Byte),
     s.epHeld (hifEp (1024 * pf)) = false ∧ s.doeReady pf = true ∧ r.version = 0x13 ∧ r.session = none →
     3 ≤ (s.spdmConn pf).stage →
     b = spdmBytes 0x13 0x01 3 3 (Config.sha384 (s.chain 0) ++ Config.sha384 (s.chain 1)) →
     ∃ t, exec (.spdmGetDigests pf r) s = .next t ∧
       t.out = s.out ++ [.doe pf b] ∧
       t.spdmConn pf = { s.spdmConn pf with log := [], certs := (s.spdmConn pf).certs ++ (spdmReqBytes r 0x81 ++ b) } ∧
       t.wkt = { s.wkt with conns := t.wkt.conns } ∧
       s.sameBut t [.wkt, .out]) ∧
  (∀ (s : State) (pf o n : Nat) (r : SpdmReq) (c : List Byte),
     s.epHeld (hifEp (1024 * pf)) = false ∧ s.doeReady pf = true ∧ r.version = 0x13 ∧ r.session = none →
     3 ≤ (s.spdmConn pf).stage →
     r.p1 % 16 ≤ 1 ∧ o = leAt r.body 0 2 →
     c = s.chain (r.p1 % 16) ∧ n = min (leAt r.body 2 2) (c.length - o) →
     ∃ t, exec (.spdmGetCertificate pf r) s = .next t ∧
       (o < c.length → t.out = s.out ++ [.doe pf (spdmBytes 0x13 0x02 (r.p1 % 16) 0 (natLE 2 n ++ natLE 2 (c.length - o - n) ++ bytesAt c o n))]) ∧
       (c.length ≤ o → t.out = s.out ++ [.doe pf (spdmBytes 0x13 0x7F 0x01 0 [])]) ∧
       (t.spdmConn pf).log = [] ∧
       t.wkt = { s.wkt with conns := t.wkt.conns } ∧
       s.sameBut t [.wkt, .out]) ∧
  (∀ (s : State) (pf : Nat) (r : SpdmReq) (b : List Byte),
     s.epHeld (hifEp (1024 * pf)) = false ∧ s.doeReady pf = true ∧ r.version = 0x13 ∧ r.session = none →
     3 ≤ (s.spdmConn pf).stage ∧ r.p1 = 0 →
     b = spdmBytes 0x13 0x03 0 1 (Config.sha384 (s.chain 0) ++ (s.freeBytes 4).1 ++ s.summaryHash r.p2 ++ natLE 2 0 ++ bytesAt r.body 32 8) →
     ∃ t, exec (.spdmChallenge pf r) s = .next t ∧
       t.out = s.out ++ [.doe pf (b ++ Config.aliasSign false s.aliasSeed ((s.spdmConn pf).vca ++ (s.spdmConn pf).certs ++ spdmReqBytes r 0x83 ++ b))] ∧
       t.spdmConn pf = { s.spdmConn pf with log := [], certs := [] } ∧
       t.wkt = { s.wkt with conns := t.wkt.conns } ∧
       s.sameBut t [.wkt, .out, .free]) ∧
  (∀ (s : State) (pf : Nat) (r : SpdmReq) (b : List Byte),
     s.epHeld (hifEp (1024 * pf)) = false ∧ s.doeReady pf = true ∧ r.version = 0x13 ∧ r.session = none →
     3 ≤ (s.spdmConn pf).stage ∧ r.p1 = 0 ∧ r.p2 = 5 →
     b = spdmBytes 0x13 0x60 0 0 (natLE 1 1 ++ natLE 3 8 ++ [5, 1, 4, 0, 0x83, 1, 0, if s.isOpen then 1 else 0] ++ (s.freeBytes 4).1 ++ natLE 2 0 ++ bytesAt r.body 0 8) →
     ∃ t, exec (.spdmGetMeasurements pf r) s = .next t ∧
       t.out = s.out ++ [.doe pf b] ∧
       t.spdmConn pf = { s.spdmConn pf with log := (s.spdmConn pf).log ++ spdmReqBytes r 0xE0 ++ b } ∧
       t.wkt = { s.wkt with conns := t.wkt.conns } ∧
       s.sameBut t [.wkt, .out, .free]) ∧
  (∀ (s : State) (pf : Nat) (r : SpdmReq),
     s.epHeld (hifEp (1024 * pf)) = false ∧ s.doeReady pf = true ∧ r.version = 0x13 ∧ r.session = none →
     3 ≤ (s.spdmConn pf).stage ∧ r.p2 = 0 →
     (s.wkt.sessions.filter fun (x : SpdmSession) => x.pf == pf).length < 16 →
     ∃ t, exec (.spdmKeyExchange pf r) s = .next t ∧
       t.wkt.sessions = s.wkt.sessions ++ t.wkt.sessions.drop s.wkt.sessions.length ∧
       ((t.wkt.sessions.drop s.wkt.sessions.length).map fun (x : SpdmSession) => (x.pf, x.id % 65536, x.open')) = [(pf, leAt r.body 0 2, false)] ∧
       (t.spdmConn pf).log = [] ∧ (t.spdmConn pf).stage = (s.spdmConn pf).stage ∧
       t.wkt = { s.wkt with conns := t.wkt.conns, sessions := t.wkt.sessions } ∧
       s.sameBut t [.wkt, .out, .free]) ∧
  (∀ (s : State) (pf id : Nat) (r : SpdmReq) (x : SpdmSession),
     s.epHeld (hifEp (1024 * pf)) = false ∧ s.doeReady pf = true ∧ r.version = 0x13 ∧ r.session = some id →
     s.session pf id = some x ∧ x.open' = false →
     ∃ t, exec (.spdmFinish pf r) s = .next t ∧
       (Config.spdmFinishOk x.log (spdmReqBytes r 0xE5) = true → t.session pf id = some { x with open' := true, log := [] } ∧ t.out = s.out ++ [.doe pf (spdmBytes 0x13 0x65 0 0 [])]) ∧
       (Config.spdmFinishOk x.log (spdmReqBytes r 0xE5) = false → t.session pf id = none ∧ t.out = s.out ++ [.doe pf (spdmBytes 0x13 0x7F 0x06 0 [])]) ∧
       t.wkt = { s.wkt with sessions := t.wkt.sessions } ∧
       s.sameBut t [.wkt, .out]) ∧
  (∀ (s : State) (pf id : Nat) (r : SpdmReq) (x : SpdmSession),
     s.epHeld (hifEp (1024 * pf)) = false ∧ s.doeReady pf = true ∧ r.version = 0x13 ∧ r.session = some id →
     s.session pf id = some x ∧ x.open' = true →
     ∃ t, exec (.spdmHeartbeat pf r) s = .next t ∧
       t = (s.setSession { x with log := [] }).doe pf (spdmBytes 0x13 0x68 0 0 []) ∧
       s.sameBut t [.wkt, .out]) ∧
  (∀ (s : State) (pf id : Nat) (r : SpdmReq) (x : SpdmSession),
     s.epHeld (hifEp (1024 * pf)) = false ∧ s.doeReady pf = true ∧ r.version = 0x13 ∧ r.session = some id →
     s.session pf id = some x ∧ x.open' = true →
     1 ≤ r.p1 ∧ r.p1 ≤ 3 →
     ∃ t, exec (.spdmKeyUpdate pf r) s = .next t ∧
       t.session pf id = some { x with log := [], reqGen := x.reqGen + (if r.p1 ≤ 2 then 1 else 0), rspGen := x.rspGen + (if r.p1 = 2 then 1 else 0) } ∧
       t.out = s.out ++ [.doe pf (spdmBytes 0x13 0x69 r.p1 r.p2 [])] ∧
       s.sameBut t [.wkt, .out]) ∧
  (∀ (s : State) (pf id : Nat) (r : SpdmReq) (x : SpdmSession),
     s.epHeld (hifEp (1024 * pf)) = false ∧ s.doeReady pf = true ∧ r.version = 0x13 ∧ r.session = some id →
     s.session pf id = some x ∧ x.open' = true →
     ∃ t, exec (.spdmEndSession pf r) s = .next t ∧
       t.session pf id = none ∧
       t.out = s.out ++ [.doe pf (spdmBytes 0x13 0x6C 0 0 [])] ∧
       (∀ q i, (q ≠ pf ∨ i ≠ id) → t.session q i = s.session q i) ∧
       s.sameBut t [.wkt, .out]) ∧
  (∀ (s : State) (pf : Nat) (r : SpdmReq) (sig : List Byte),
     s.epHeld (hifEp (1024 * pf)) = false ∧ s.doeReady pf = true ∧ r.version = 0x13 ∧ r.session = none →
     3 ≤ (s.spdmConn pf).stage ∧ (s.spdmConn pf).signed ≠ [] →
     leAt r.body 0 2 = 3 ∧ leAt r.body 2 1 = 2 ∧ leAt r.body 3 2 = 0xCE6A ∧ leAt r.body 7 2 = 1 →
     sig = Config.aliasSign true s.aliasSeed (Config.sha384 (s.spdmConn pf).signed) →
     ∃ t, exec (.spdmVendorMldsaSignature pf r) s = .next t ∧
       t.out = s.out ++ [.doe pf (spdmBytes 0x13 0x7E 0 0 (natLE 2 3 ++ natLE 1 2 ++ natLE 2 0xCE6A ++ natLE 2 sig.length ++ sig))] ∧
       t.spdmConn pf = { s.spdmConn pf with log := [] } ∧
       s.sameBut t [.wkt, .out])

/-- DOE discovery, IDE keys and the states of TEE device interfaces. Discovery names the three protocols in turn; a key
programming of the right form stores the key of its stream, sub-stream and direction, and a K_SET_GO of a stream whose
six keys are programmed makes it Secure; a TDISP request in a secured session, of version 1 and for a TDI of the PF, has
its answer: a lock of an unlocked interface binds a Secure selective stream and returns a nonce, a start with that nonce
enters RUN, a stop leaves every state for CONFIG_UNLOCKED, and a request that the state does not allow answers with an
error. (15_pcie_endpoint.md R420, 15_pcie_endpoint.md R421, 15_pcie_endpoint.md R422) -/
def Obligations.InterfaceSecurity : Prop :=
  (∀ (s : State) (pf index : Nat),
     s.epHeld (hifEp (1024 * pf)) = false ∧ s.doeReady pf = true →
     ∃ t, exec (.doeDiscovery pf index) s = .next t ∧
       (index ≤ 2 → t.out = s.out ++ [.doe pf (natLE 2 1 ++ natLE 1 index ++ natLE 1 (if index = 2 then 0 else index + 1))]) ∧
       (2 < index → t.out = s.out ++ [.doe pf (natLE 2 0xFFFF ++ natLE 2 0)]) ∧
       s.sameBut t [.out]) ∧
  (∀ (s : State) (pf session : Nat) (m : List Byte),
     s.epHeld (hifEp (1024 * pf)) = false ∧ s.inSession pf session = true →
     m.length = 47 ∧ leAt m 0 1 = 2 ∧ leAt m 6 1 = 0 ∧ leAt m 3 1 ≤ 8 ∧ ideSubOk (leAt m 5 1) = true →
     ∃ t, exec (.ideKmRequest pf session m) s = .next t ∧
       spGet (fun _ => []) t.pcie.ideKeys (s.keyIndex pf (leAt m 3 1) (leAt m 5 1)) = bytesAt m 7 40 ∧
       t.out = s.out ++ [.doe pf (natLE 1 3 ++ natLE 2 0 ++ natLE 1 (leAt m 3 1) ++ natLE 1 0 ++ natLE 1 (leAt m 5 1) ++ natLE 1 0)] ∧
       t.pcie = { s.pcie with ideKeys := t.pcie.ideKeys } ∧
       s.sameBut t [.pcie, .out]) ∧
  (∀ (s : State) (pf session : Nat) (m : List Byte),
     s.epHeld (hifEp (1024 * pf)) = false ∧ s.inSession pf session = true →
     leAt m 0 1 = 4 ∧ leAt m 3 1 ≤ 8 ∧ ideSubOk (leAt m 5 1) = true →
     ((s.keySet pf (leAt m 3 1) (leAt m 5 1 % 2)).all fun k => (spKeys s.pcie.ideKeys).contains k) = true →
     ∃ t, exec (.ideKmRequest pf session m) s = .next t ∧
       t.ideSecure (1024 * pf) (leAt m 3 1) = true ∧
       t.pcie = { s.pcie with ide := t.pcie.ide } ∧
       s.sameBut t [.pcie, .out]) ∧
  (∀ (s : State) (pf session : Nat) (m : List Byte),
     s.epHeld (hifEp (1024 * pf)) = false ∧ s.inSession pf session = true →
     leAt m 0 1 = 5 ∧ leAt m 3 1 ≤ 8 ∧ ideSubOk (leAt m 5 1) = true →
     ∃ t, exec (.ideKmRequest pf session m) s = .next t ∧
       t.ideSecure (1024 * pf) (leAt m 3 1) = false ∧
       t.pcie.ideKeys = s.pcie.ideKeys.filter (fun x => !(s.keySet pf (leAt m 3 1) (leAt m 5 1 % 2)).contains x.1) ∧
       s.sameBut t [.pcie, .out]) ∧
  (∀ (s : State) (pf session fn version : Nat),
     s.epHeld (hifEp (1024 * pf)) = false ∧ s.inSession pf session = true ∧ version / 16 = 1 ∧ fn ≠ 0 ∧ fn / 1024 = pf ∧ s.fnThere fn = true →
     ∃ t, exec (.tdispGetVersion pf session fn version) s = .next t ∧
       t = s.doe pf (tdispBytes 0x01 fn [1, 0x10])) ∧
  (∀ (s : State) (pf session fn version : Nat),
     s.epHeld (hifEp (1024 * pf)) = false ∧ s.inSession pf session = true ∧ version / 16 = 1 ∧ fn ≠ 0 ∧ fn / 1024 = pf ∧ s.fnThere fn = true →
     ∃ t, exec (.tdispGetCapabilities pf session fn version) s = .next t ∧
       t.out = s.out ++ [.doe pf (tdispBytes 0x02 fn (natLE 4 s.takeFree.1.toNat ++ natLE 16 0xFE ++ natLE 2 7 ++ natLE 3 0 ++ natLE 1 (s.takeFree.1.toNat / 2 ^ 32) ++ natLE 1 (s.takeFree.1.toNat / 2 ^ 40) ++ natLE 1 (s.takeFree.1.toNat / 2 ^ 48)))] ∧
       s.sameBut t [.out, .free]) ∧
  (∀ (s : State) (pf session fn version : Nat) (p : List Byte),
     s.epHeld (hifEp (1024 * pf)) = false ∧ s.inSession pf session = true ∧ version / 16 = 1 ∧ fn ≠ 0 ∧ fn / 1024 = pf ∧ s.fnThere fn = true →
     s.tdi fn = 0 ∧ (leAt p 0 2).testBit 3 = false ∧ 1 ≤ leAt p 2 1 ∧ leAt p 2 1 ≤ 8 ∧ s.ideSecure fn (leAt p 2 1) = true →
     ∃ t, exec (.tdispLockInterface pf session fn version p) s = .next t ∧
       t.tdi fn = 1 ∧
       spGet (fun _ => 0) t.pcie.tdiStream fn = leAt p 2 1 + 1 ∧
       spGet (fun _ => []) t.pcie.tdiNonce fn = (s.freeBytes 4).1 ∧
       spGet (fun _ => 0) t.pcie.tdiOffset fn = leAt p 4 8 ∧
       t.out = s.out ++ [.doe pf (tdispBytes 0x03 fn (s.freeBytes 4).1)] ∧
       (∀ f, f ≠ fn → t.tdi f = s.tdi f) ∧
       s.sameBut t [.pcie, .out, .free]) ∧
  (∀ (s : State) (pf session fn version : Nat) (p : List Byte),
     s.epHeld (hifEp (1024 * pf)) = false ∧ s.inSession pf session = true ∧ version / 16 = 1 ∧ fn ≠ 0 ∧ fn / 1024 = pf ∧ s.fnThere fn = true →
     s.tdi fn ≠ 0 →
     ∃ t, exec (.tdispLockInterface pf session fn version p) s = .next t ∧
       t = s.doe pf (tdispBytes 0x7F fn (natLE 4 4 ++ natLE 4 0))) ∧
  (∀ (s : State) (pf session fn version o n : Nat) (p rep : List Byte),
     s.epHeld (hifEp (1024 * pf)) = false ∧ s.inSession pf session = true ∧ version / 16 = 1 ∧ fn ≠ 0 ∧ fn / 1024 = pf ∧ s.fnThere fn = true →
     (s.tdi fn = 1 ∨ s.tdi fn = 2) ∧ rep = s.tdiReport fn →
     o = leAt p 0 2 ∧ o < rep.length ∧ n = min (leAt p 2 2) (rep.length - o) →
     ∃ t, exec (.tdispGetDeviceInterfaceReport pf session fn version p) s = .next t ∧
       t = s.doe pf (tdispBytes 0x04 fn (natLE 2 n ++ natLE 2 (rep.length - o - n) ++ bytesAt rep o n))) ∧
  (∀ (s : State) (pf session fn version : Nat),
     s.epHeld (hifEp (1024 * pf)) = false ∧ s.inSession pf session = true ∧ version / 16 = 1 ∧ fn ≠ 0 ∧ fn / 1024 = pf ∧ s.fnThere fn = true →
     ∃ t, exec (.tdispGetDeviceInterfaceState pf session fn version) s = .next t ∧
       t = s.doe pf (tdispBytes 0x05 fn (natLE 1 (s.tdi fn)))) ∧
  (∀ (s : State) (pf session fn version : Nat) (nonce : List Byte),
     s.epHeld (hifEp (1024 * pf)) = false ∧ s.inSession pf session = true ∧ version / 16 = 1 ∧ fn ≠ 0 ∧ fn / 1024 = pf ∧ s.fnThere fn = true →
     s.tdi fn = 1 ∧ spGet (fun _ => []) s.pcie.tdiNonce fn = nonce →
     ∃ t, exec (.tdispStartInterface pf session fn version nonce) s = .next t ∧
       t.tdi fn = 2 ∧
       spGet (fun _ => []) t.pcie.tdiNonce fn = [] ∧
       (∀ f, f ≠ fn → t.tdi f = s.tdi f) ∧
       t.out = s.out ++ [.doe pf (tdispBytes 0x06 fn [])] ∧
       s.sameBut t [.pcie, .out]) ∧
  (∀ (s : State) (pf session fn version : Nat) (nonce : List Byte),
     s.epHeld (hifEp (1024 * pf)) = false ∧ s.inSession pf session = true ∧ version / 16 = 1 ∧ fn ≠ 0 ∧ fn / 1024 = pf ∧ s.fnThere fn = true →
     s.tdi fn = 1 ∧ spGet (fun _ => []) s.pcie.tdiNonce fn ≠ nonce →
     ∃ t, exec (.tdispStartInterface pf session fn version nonce) s = .next t ∧
       t = s.doe pf (tdispBytes 0x7F fn (natLE 4 0x102 ++ natLE 4 0))) ∧
  (∀ (s : State) (pf session fn version : Nat),
     s.epHeld (hifEp (1024 * pf)) = false ∧ s.inSession pf session = true ∧ version / 16 = 1 ∧ fn ≠ 0 ∧ fn / 1024 = pf ∧ s.fnThere fn = true →
     ∃ t, exec (.tdispStopInterface pf session fn version) s = .next t ∧
       t.tdi fn = 0 ∧
       spGet (fun _ => 0) t.pcie.tdiStream fn = 0 ∧
       (∀ f, f ≠ fn → t.tdi f = s.tdi f) ∧
       t.out = s.out ++ [.doe pf (tdispBytes 0x07 fn [])] ∧
       s.sameBut t [.pcie, .out])

/-- Terraces and memory. Writing `EN` of a ring that may be enabled stores its configuration and zeroes its indices, and
otherwise is refused with 0x1A03. A terrace with a header for an enabled ring that is not full writes header and payload
to slot `PI`, cut to the slot where it must be, advances `PI` and raises the ring's interrupt when its indices had been
equal; a header for a disabled ring is discarded and counted, and so is one whose slot the operator does not reach, with a
partition violation. A send ring whose indices differ injects the slot at `CI`
with the terrace's own ID, and advances `CI`. The patrol scrub counts a corrected error of its channel and records an
uncorrectable one; a cleared granule goes on reading as it did; and a fence of the IOMMU's command queue completes, with
its word written or its interrupt flagged, with the message on its way where it goes to an interrupt file. An
invalidation of all first-stage translations of an address space takes them, and no others, out of the IOTLB; the format
of the command is the model's (log entry 49).
(16_cores_memory.md R431, 16_cores_memory.md R438, 16_cores_memory.md R439, 16_cores_memory.md R440,
16_cores_memory.md R442, 16_cores_memory.md R443, 16_cores_memory.md R444, 16_cores_memory.md R446) -/
def Obligations.TerracesAndMemory : Prop :=
  (∀ (s : State) (k r b : Nat) (send : Bool) (v : Word),
     k < 8 ∧ r < 64 ∧ b = ringReg k r send ∧ bitAt v 63 = true →
     s.get (rgEn b) = 0 ∧ ringCfgEncOk send v = true ∧ s.ringOk (s.get (rgBase b)) (v &&& ringCfgMask) = true →
     ∃ t, exec (.ringEnable k r send v) s = .next t ∧
       t.rd (b + 8) = v &&& ringCfgMask ∧
       t.get (rgPi b) = 0 ∧ t.get (rgCi b) = 0 ∧
       s.sameRegs t [b + 8, b + 16, b + 24] ∧
       s.sameBut t [.regs]) ∧
  (∀ (s : State) (k r b : Nat) (send : Bool) (v : Word),
     k < 8 ∧ r < 64 ∧ b = ringReg k r send ∧ bitAt v 63 = true →
     s.get (rgEn b) = 0 ∧ ringCfgEncOk send v = true ∧ s.ringOk (s.get (rgBase b)) (v &&& ringCfgMask) = false →
     ∃ t, exec (.ringEnable k r send v) s = .next t ∧
       t.hasError uApc 2 ∧
       t.rd (b + 8) = s.rd (b + 8) ∧
       s.sameBut t [.regs, .pcie, .out, .aia]) ∧
  (∀ (s : State) (k r b a : Nat) (m : Packet) (l : List Packet),
     s.ready = true ∧ s.epHeld (terraceEp k) = false ∧ k < 8 →
     s.inboxOf (terraceEp k) = m :: l ∧ m.words.length = 8 ∧ m.poison = false →
     r = hGet m.words CH.dstQueue ∧ r < 64 ∧ b = ringReg k r false ∧ a = s.ringSlot b (s.get (rgPi b)) →
     s.get (rgEn b) = 1 ∧ ringFill (s.get (rgPi b)) (s.get (rgCi b)) ≠ 2 ^ s.get (rgCount b) ∧
       m.payload.length + 64 ≤ 2 ^ s.get (rgSlot b) ∧ s.operatorReaches a (2 ^ s.get (rgSlot b)) = true →
     ∃ t, exec (.terraceReceive k) s = .next t ∧
       t.inboxOf (terraceEp k) = l ∧
       t.bytes a (64 + m.payload.length) = headerBytes m.words ++ m.payload ∧
       t.get (rgPi b) = (s.get (rgPi b) + 1) % 2 ^ 32 ∧
       (s.get (rgPi b) = s.get (rgCi b) ∧ s.get (rgIntEn b) = 1 →
          t.out = s.out ++ [.imsic (s.get (rgHart b)) (if s.get (rgFile b) = 0 then 8 else s.get (rgFile b) - 1) (s.get (rgEiid b))]) ∧
       (s.get (rgPi b) = s.get (rgCi b) ∧ s.get (rgIntEn b) = 1 →
          t.hart (s.get (rgHart b)) = { (s.hart (s.get (rgHart b))).setFile (if s.get (rgFile b) = 0 then 8 else s.get (rgFile b) - 1) (((s.hart (s.get (rgHart b))).file (if s.get (rgFile b) = 0 then 8 else s.get (rgFile b) - 1)).pend (s.get (rgEiid b))) with wfi := false }) ∧
       (s.get (rgPi b) ≠ s.get (rgCi b) → t.out = s.out ∧ t.harts = s.harts ∧ t.tiles = s.tiles) ∧
       s.sameBytesBut t a (64 + m.payload.length) ∧
       s.sameRegs t [b + 16] ∧
       t.prm = { s.prm with inbox := t.prm.inbox } ∧
       s.sameBut t [.prm, .mem, .poison, .zeroMap, .regs, .harts, .tiles, .out]) ∧
  (∀ (s : State) (k r b a n : Nat) (m : Packet) (l : List Packet),
     s.ready = true ∧ s.epHeld (terraceEp k) = false ∧ k < 8 →
     s.inboxOf (terraceEp k) = m :: l ∧ m.words.length = 8 ∧ m.poison = false →
     r = hGet m.words CH.dstQueue ∧ r < 64 ∧ b = ringReg k r false ∧ a = s.ringSlot b (s.get (rgPi b)) →
     s.get (rgEn b) = 1 ∧ ringFill (s.get (rgPi b)) (s.get (rgCi b)) ≠ 2 ^ s.get (rgCount b) →
     n = 2 ^ s.get (rgSlot b) - 64 ∧ n < m.payload.length ∧ s.operatorReaches a (2 ^ s.get (rgSlot b)) = true →
     ∃ t, exec (.terraceReceive k) s = .next t ∧
       t.inboxOf (terraceEp k) = l ∧
       t.bytes a (64 + n) = headerBytes (hSets m.words [(CH.len, n), (CH.trunc, 1)]) ++ m.payload.take n ∧
       t.get (rgPi b) = (s.get (rgPi b) + 1) % 2 ^ 32 ∧
       s.sameBytesBut t a (64 + n) ∧
       s.sameRegs t [b + 16] ∧
       s.sameBut t [.prm, .mem, .poison, .zeroMap, .regs, .harts, .tiles, .out]) ∧
  (∀ (s : State) (k r b a : Nat) (m : Packet) (l : List Packet),
     s.ready = true ∧ s.epHeld (terraceEp k) = false ∧ k < 8 →
     s.inboxOf (terraceEp k) = m :: l →
     r = hGet m.words CH.dstQueue ∧ r < 64 ∧ b = ringReg k r false ∧ a = s.ringSlot b (s.get (rgPi b)) →
     s.get (rgEn b) = 1 ∧ ringFill (s.get (rgPi b)) (s.get (rgCi b)) ≠ 2 ^ s.get (rgCount b) ∧ s.operatorReaches a (2 ^ s.get (rgSlot b)) = false →
     ∃ t, exec (.terraceReceive k) s = .next t ∧
       t.inboxOf (terraceEp k) = l ∧
       t.get F.MEM_PART_VIOL_COUNT = satInc 0xFFFFFFFF (s.get F.MEM_PART_VIOL_COUNT) ∧ t.hasError uMem 0 ∧
       t.get (F.APC_TQ_DROP_COUNT k) = satInc 0xFFFFFFFF (s.get (F.APC_TQ_DROP_COUNT k)) ∧
       s.sameBut t [.prm, .regs, .pcie, .out, .aia]) ∧
  (∀ (s : State) (k : Nat) (m : Packet) (l : List Packet),
     s.ready = true ∧ s.epHeld (terraceEp k) = false ∧ k < 8 →
     s.inboxOf (terraceEp k) = m :: l ∧ hGet m.words CH.dstQueue < 64 →
     s.get (rgEn (ringReg k (hGet m.words CH.dstQueue) false)) = 0 →
     ∃ t, exec (.terraceReceive k) s = .next t ∧
       t.inboxOf (terraceEp k) = l ∧
       t.get (F.APC_TQ_DROP_COUNT k) = satInc 0xFFFFFFFF (s.get (F.APC_TQ_DROP_COUNT k)) ∧
       t.hasError uApc 1 ∧
       (hGet m.words CH.kind = kCommand →
          spGet (fun _ => []) t.prm.out (terraceEp k) = spGet (fun _ => []) s.prm.out (terraceEp k) ++ [⟨unitCompletion m.words (terraceEp k) 1 0 0 (s.timeNs 0) (s.timeFrac 0), [], false⟩]) ∧
       (hGet m.words CH.kind ≠ kCommand → t.prm.out = s.prm.out) ∧
       s.sameBut t [.prm, .regs, .pcie, .out, .aia]) ∧
  (∀ (s : State) (k r b a len : Nat) (w : List Word),
     s.ready = true ∧ s.epHeld (terraceEp k) = false ∧ k < 8 ∧ r < 64 →
     b = ringReg k r true ∧ s.get (rgEn b) = 1 ∧ s.get (rgPi b) ≠ s.get (rgCi b) →
     a = s.ringSlot b (s.get (rgCi b)) ∧
       w = hSet ((List.range 8).map fun i => BitVec.ofNat 64 (leAt (s.bytes a 64) (8 * i) 8)) CH.srcEp (terraceEp k) ∧
       len = hGet w CH.len ∧ len + 64 ≤ 2 ^ s.get (rgSlot b) ∧ s.poisoned a (64 + len) = false ∧ s.operatorReaches a (2 ^ s.get (rgSlot b)) = true →
     ∃ t, exec (.terraceSend k r .clean) s = .next t ∧
       t.get (rgCi b) = (s.get (rgCi b) + 1) % 2 ^ 32 ∧
       spGet (fun _ => []) t.prm.out (terraceEp k) = spGet (fun _ => []) s.prm.out (terraceEp k) ++ [⟨w, s.bytes (a + 64) len, false⟩] ∧
       t.prm = { s.prm with out := t.prm.out } ∧
       s.sameRegs t [b + 24] ∧
       s.sameBut t [.prm, .regs]) ∧
  (∀ (s : State) (a c : Nat),
     s.isDram a = true ∧ s.pwr.holdAt = [] ∧ c = s.channelOf a →
     ∃ t, exec (.patrolScrub a .corrected) s = .next t ∧
       spGet (fun _ => 0) t.chCe c = satInc 0xFFFFFFFF (spGet (fun _ => 0) s.chCe c) ∧
       (∀ d, d ≠ c → spGet (fun _ => 0) t.chCe d = spGet (fun _ => 0) s.chCe d) ∧
       (spGet (fun _ => 0) s.chTold c ≤ s.clk.elapsed ∧ s.get F.MEM_CE_THRESH_THRESH < (spGet (fun _ => []) t.chTimes c).length →
          t.hasError uMem 3) ∧
       s.sameBut t [.chCe, .chTimes, .chTold, .regs, .pcie, .out, .aia]) ∧
  (∀ (s : State) (a : Nat),
     s.isDram a = true ∧ s.pwr.holdAt = [] →
     ∃ t, exec (.patrolScrub a .uncorrectable) s = .next t ∧
       t.get F.MEM_UE_COUNT_COUNT = satInc 0xFFFFFFFF (s.get F.MEM_UE_COUNT_COUNT) ∧
       (a < 0x010000000000 → t.hasError uMem 1) ∧
       (0x010000000000 ≤ a → t.hasError uMem 2) ∧
       s.sameBut t [.regs, .pcie, .out, .aia]) ∧
  (∀ (s : State) (a : Nat),
     ∃ t, exec (.patrolScrub a .clean) s = .next t ∧
       t = s) ∧
  (∀ (s : State) (g : Nat),
     s.pwr.holdAt = [] →
     ∃ t, exec (.zeroMapClear g) s = .next t ∧
       t.zeroMap = runCut s.zeroMap g 1 ∧
       (∀ a, t.byte a = s.byte a) ∧
       s.sameBut t [.zeroMap]) ∧
  (∀ (s : State) (a w h : Nat),
     s.iommuCqRuns = true ∧ h = s.get F.MEM_IOMMU_CQP_CQH ∧ a = s.get F.MEM_IOMMU_CQB_PPN * 4096 + 16 * h →
     s.operatorReaches a 16 = true ∧ s.poisoned a 16 = false →
     w = leAt (s.bytes a 16) 0 8 ∧ w % 128 = 2 ∧ w / 128 % 8 = 0 ∧ w.testBit 11 = false →
     (w.testBit 10 = true → s.operatorReaches (leAt (s.bytes a 16) 8 8 * 4) 4 = true) →
     ∃ t, exec .iofenceC s = .next t ∧
       t.get F.MEM_IOMMU_CQP_CQH = (h + 1) % 2 ^ (s.get F.MEM_IOMMU_CQB_LOG2SZ + 1) ∧
       (w.testBit 10 = true → t.bytes (leAt (s.bytes a 16) 8 8 * 4) 4 = natLE 4 (w / 2 ^ 32) ∧ s.sameBytesBut t (leAt (s.bytes a 16) 8 8 * 4) 4) ∧
       (w.testBit 10 = false → t.mem = s.mem) ∧
       s.sameRegs t [R.MEM_IOMMU_CQP] ∧
       s.sameBut t [.regs, .mem, .poison, .zeroMap]) ∧
  (∀ (s : State) (a w h : Nat),
     s.iommuCqRuns = true ∧ h = s.get F.MEM_IOMMU_CQP_CQH ∧ a = s.get F.MEM_IOMMU_CQB_PPN * 4096 + 16 * h →
     s.operatorReaches a 16 = true ∧ s.poisoned a 16 = false →
     w = leAt (s.bytes a 16) 0 8 ∧ w % 128 = 2 ∧ w / 128 % 8 = 0 ∧ w.testBit 10 = false ∧ w.testBit 11 = true →
     ∃ t, exec .iofenceC s = .next t ∧
       t.get F.MEM_IOMMU_CQP_CQH = (h + 1) % 2 ^ (s.get F.MEM_IOMMU_CQB_LOG2SZ + 1) ∧
       t.get F.MEM_IOMMU_CSR_FENCE_IP = 1 ∧
       (s.get F.MEM_IOMMU_CSR_CIE = 0 →
          s.sameRegs t [R.MEM_IOMMU_CQP, R.MEM_IOMMU_CSR] ∧ s.sameBut t [.regs]) ∧
       (∀ hart file : Nat,
          s.get F.MEM_IOMMU_CSR_CIE = 1 ∧ s.get F.MEM_IOMMU_IPSR_CIP = 0 ∧ s.get (F.MEM_IOMMU_MSI_DATA_MASK (s.get F.MEM_IOMMU_ICVEC_CIV)) = 0 ∧
          imsicPlace (s.get (F.MEM_IOMMU_MSI_ADDR_ADDR (s.get F.MEM_IOMMU_ICVEC_CIV)) * 4) = some (hart, file) ∧ s.get (F.MEM_IOMMU_MSI_ADDR_ADDR (s.get F.MEM_IOMMU_ICVEC_CIV)) * 4 % 0x1000 = 0 →
          t.get F.MEM_IOMMU_IPSR_CIP = 1 ∧
          t.aia = { s.aia with msis := s.aia.msis ++ [(hart, file, s.get (F.MEM_IOMMU_MSI_DATA_DATA (s.get F.MEM_IOMMU_ICVEC_CIV)))] } ∧
          s.sameRegs t [R.MEM_IOMMU_CQP, R.MEM_IOMMU_CSR, R.MEM_IOMMU_IPSR] ∧
          s.sameBut t [.regs, .aia])) ∧
  (∀ (s : State) (a w h : Nat),
     s.iommuCqRuns = true ∧ h = s.get F.MEM_IOMMU_CQP_CQH ∧ a = s.get F.MEM_IOMMU_CQB_PPN * 4096 + 16 * h →
     s.operatorReaches a 16 = true ∧ s.poisoned a 16 = false →
     w = leAt (s.bytes a 16) 0 8 ∧ w % 4096 = 1 ∧ w.testBit 32 = false ∧ w / 2 ^ 34 % 2 ^ 6 = 0 ∧ w / 2 ^ 56 = 0 ∧ leAt (s.bytes a 16) 8 8 = 0 →
     (h + 1) % 2 ^ (s.get F.MEM_IOMMU_CQB_LOG2SZ + 1) = s.get F.MEM_IOMMU_CQP_CQT →
     ∃ t, exec .iofenceC s = .next t ∧
       t.get F.MEM_IOMMU_CQP_CQH = (h + 1) % 2 ^ (s.get F.MEM_IOMMU_CQB_LOG2SZ + 1) ∧
       (∀ e, e ∈ t.pcie.iotlb ↔ e ∈ s.pcie.iotlb ∧ (e.fsc / 2 ^ 60 = 0 ∨
          (w.testBit 33 = false ∧ e.gatp / 2 ^ 60 ≠ 0) ∨
          (w.testBit 33 = true ∧ (e.gatp / 2 ^ 60 = 0 ∨ e.gatp / 2 ^ 44 % 2 ^ 16 ≠ w / 2 ^ 40 % 2 ^ 16)))) ∧
       t.pcie = { s.pcie with iotlb := t.pcie.iotlb } ∧
       s.sameRegs t [R.MEM_IOMMU_CQP] ∧
       s.sameBut t [.regs, .pcie])


/-- Sky states, harts and device Night. An idle tile enters Haze, that of a RUNNING pavilion group with the whole group, and Overcast
or Night by the lodge's decision; an unallocated ACM bank stays as it is; a state no longer allowed is left; a tile whose wake completes is in Clear with its wake counted, and a hart that wakes from Night
is online. START places a hart at `PWR_HART_ENTRY` and powers it, STOP puts one that stands in WFI into Night. ENTER
begins the entry to Night with every port down; with groups empty and buffers drained the warm plan copy is written; with
the entry complete every tile is in Night, no hart runs and the fast PLL of every domain stands still, unless a wake event
came meanwhile, which then starts the device; at its limit the entry is abandoned with 0x0107; and the alarm wakes a
device in Night. (18_power_ageing.md R479, 18_power_ageing.md R480, 18_power_ageing.md R481, 18_power_ageing.md R482,
18_power_ageing.md R483, 18_power_ageing.md R484) -/
def Obligations.TilesHartsAndNight : Prop :=
  (∀ (s : State) (tile : Nat) (x : Tile),
     x = s.tile tile ∧ x.sky = 0 ∧ x.hold = false ∧ x.waking = false →
     ¬ (180 ≤ tile ∧ tile ≤ 275) ∧ s.skyAllowed tile 1 = true ∧ s.tileQuiet tile = true →
     (∀ g, 284 ≤ tile ∧ tile ≤ 347 ∧ grpOf s.plan (tile - 284) = some g → s.grpState g ≠ gRunning) →
     ∃ t, exec (.tileHazeEntry tile) s = .next t ∧
       t.tile tile = { x with sky := 1 } ∧
       (∀ u, u ≠ tile → t.tile u = s.tile u) ∧
       s.sameBut t [.tiles]) ∧
  (∀ (s : State) (tile g : Nat),
     284 ≤ tile ∧ tile ≤ 347 ∧ grpOf s.plan (tile - 284) = some g →
     s.grpHeld g = false ∧ s.get (F.PAV_GRP_STATE_SLEEP g) = 0 ∧ s.mayHaze g = true →
     (∀ m, m ∈ grpMembers s.plan g → s.tileQuiet (284 + m) = true) →
     ∃ t, exec (.tileHazeEntry tile) s = .next t ∧
       t.get (F.PAV_GRP_STATE_SLEEP g) = 1 ∧
       (∀ u, t.tile u = if 284 ≤ u ∧ u - 284 ∈ grpMembers s.plan g then { s.tile u with sky := 1, waking := false } else s.tile u) ∧
       s.sameRegs t [R.PAV_GRP_STATE g] ∧
       s.sameBut t [.tiles, .regs]) ∧
  (∀ (s : State) (tile sky : Nat) (x : Tile),
     x = s.tile tile ∧ x.hold = false ∧ x.waking = false ∧ x.sky < sky ∧ (sky = 2 ∨ sky = 3) →
     ¬ (180 ≤ tile ∧ tile ≤ 275) ∧ (428 ≤ tile ∧ tile ≤ 555 → bankAlloc s.plan (tile - 428) = true) ∧ s.skyAllowed tile sky = true ∧ (x.sky = 0 ∨ s.skyAllowed tile x.sky = true) ∧ s.tileQuiet tile = true →
     ∃ t, exec (.tileSleepDecision tile sky) s = .next t ∧
       t.tile tile = { x with sky := sky } ∧
       (∀ u, u ≠ tile → t.tile u = s.tile u) ∧
       s.sameBut t [.tiles]) ∧
  (∀ (s : State) (tile sky : Nat) (x : Tile),
     x = s.tile tile ∧ x.hold = false ∧ x.waking = false ∧ x.sky ≠ 0 →
     ¬ (180 ≤ tile ∧ tile ≤ 275 ∧ x.sky = 3) ∧ (428 ≤ tile ∧ tile ≤ 555 → bankAlloc s.plan (tile - 428) = true) ∧ s.skyAllowed tile x.sky = false →
     ∃ t, exec (.tileSleepDecision tile sky) s = .next t ∧
       t.tile tile = { x with waking := true } ∧
       (∀ u, u ≠ tile → t.tile u = s.tile u) ∧
       s.sameBut t [.tiles]) ∧
  (∀ (s : State) (tile sky : Nat),
     428 ≤ tile ∧ tile ≤ 555 ∧ bankAlloc s.plan (tile - 428) = false →
     ∃ t, exec (.tileSleepDecision tile sky) s = .next t ∧
       t = s) ∧
  (∀ (s : State) (tile : Nat) (x : Tile),
     x = s.tile tile ∧ x.hold = false ∧ x.waking = true →
     tile < 284 ∨ 347 < tile →
     ∃ t, exec (.tileWakeComplete tile) s = .next t ∧
       t.tile tile = { x with sky := 0, waking := false, wakes := (x.wakes + 1) % 2 ^ 32 } ∧
       (∀ u, u ≠ tile → t.tile u = s.tile u) ∧
       (x.sky = 3 ∧ 180 ≤ tile ∧ tile ≤ 275 → t.online (tile - 180) = true ∧ s.sameRegs t [R.APC_HART_ONLINE0, R.APC_HART_ONLINE1]) ∧
       (x.sky ≠ 3 → t.regs = s.regs) ∧
       s.sameBut t [.tiles, .regs]) ∧
  (∀ (s : State) (tile g : Nat) (x : Tile),
     x = s.tile tile ∧ x.hold = false ∧ x.waking = true →
     284 ≤ tile ∧ tile ≤ 347 ∧ grpOf s.plan (tile - 284) = some g ∧ s.get (F.PAV_GRP_STATE_SLEEP g) = 1 →
     ∃ t, exec (.tileWakeComplete tile) s = .next t ∧
       (t.tile tile).sky = 0 ∧ (t.tile tile).waking = false ∧ (t.tile tile).wakes = (x.wakes + 1) % 2 ^ 32 ∧
       t.get (F.PAV_GRP_STATE_SLEEP g) = 0 ∧
       s.sameBut t [.tiles, .regs]) ∧
  (∀ (s : State) (h sky : Nat) (x : Tile),
     x = s.tile (hartTile h) ∧ s.online h = true ∧ x.hold = false ∧ x.waking = false →
     (sky = 1 ∨ sky = 2) ∧ x.sky < sky ∧ s.skyAllowed (hartTile h) sky = true →
     ∃ t, exec (.hartWfi h sky) s = .next t ∧
       t.hart h = { s.hart h with wfi := true } ∧
       t.tile (hartTile h) = { x with sky := sky } ∧
       (∀ i, i ≠ h → t.hart i = s.hart i) ∧
       (∀ u, u ≠ hartTile h → t.tile u = s.tile u) ∧
       s.sameBut t [.harts, .tiles]) ∧
  (∀ (s : State) (h : Nat) (x : Tile),
     h < 96 ∧ x = s.tile (hartTile h) ∧ x.sky = 3 ∧ x.waking = false →
     ∃ t, exec (.hartStart h) s = .next t ∧
       (t.hart h).pc = s.get F.PWR_HART_ENTRY_ADDR ∧ (t.hart h).wfi = false ∧
       t.tile (hartTile h) = { x with waking := true } ∧
       (∀ i, i ≠ h → t.hart i = s.hart i) ∧
       (∀ u, u ≠ hartTile h → t.tile u = s.tile u) ∧
       s.sameBut t [.harts, .tiles]) ∧
  (∀ (s : State) (h : Nat),
     h < 96 ∧ ((s.tile (hartTile h)).sky ≠ 3 ∨ (s.tile (hartTile h)).waking = true) →
     ∃ t, exec (.hartStart h) s = .next t ∧
       t.hasError uPwr 8 ∧
       s.sameBut t [.regs, .pcie, .out, .aia]) ∧
  (∀ (s : State) (h : Nat) (x : Tile),
     h < 96 ∧ x = s.tile (hartTile h) ∧ x.sky ≠ 3 ∧ (s.hart h).wfi = true →
     ∃ t, exec (.hartStop h) s = .next t ∧
       t.tile (hartTile h) = { x with sky := 3, waking := false } ∧
       t.online h = false ∧
       (∀ i, i < 96 ∧ i ≠ h → t.online i = s.online i) ∧
       (∀ i, i ≠ h → t.hart i = s.hart i) ∧
       (∀ u, u ≠ hartTile h → t.tile u = s.tile u) ∧
       s.sameRegs t [R.APC_HART_ONLINE0, R.APC_HART_ONLINE1] ∧
       s.sameBut t [.harts, .tiles, .regs]) ∧
  (∀ (s : State),
     s.get F.PWR_NIGHT_CFG_EN = 1 ∧ s.phase = phReady ∧ s.pwr.night = 0 →
     ∃ t, exec .nightEnter s = .next t ∧
       t.pwr = { s.pwr with night := 2, wake := false } ∧
       t.phase = phReady ∧
       (∀ p, p < 16 → portPresent s.plan p = true → t.get (F.ETH_LINK_STATUS_UP p) = 0) ∧
       s.sameBut t [.arb, .eth, .free, .mem, .nve, .out, .pav, .pcie, .poison, .prm, .pwr, .regs, .sch, .zeroMap, .aia]) ∧
  (∀ (s : State),
     s.pwr.night = 2 ∧ s.nightDrained = true ∧ s.pwr.holdAt = [] →
     (s.plan.flatMap warmSection).length ≤ 67108864 →
     ∃ t, exec .nightDrainEnd s = .next t ∧
       t.pwr = { s.pwr with night := 4 } ∧
       t.boot.warm.isSome = true ∧ t.boot = { s.boot with warm := t.boot.warm } ∧
       t.bytes warmCopyAddr (s.plan.flatMap warmSection).length = s.plan.flatMap warmSection ∧
       t.frames = [] ∧ t.sch.leaves = [] ∧
       s.sameBut t [.boot, .frames, .free, .mem, .nve, .out, .pcie, .poison, .prm, .pwr, .regs, .sch, .zeroMap, .aia]) ∧
  (∀ (s : State),
     s.pwr.night = 2 ∧ s.pwr.holdAt = [] →
     ∃ t, exec .nightLimitExpiry s = .next t ∧
       t.pwr = { s.pwr with night := 0, wake := false } ∧
       t.hasError uPwr 6 ∧
       s.sameBut t [.nve, .out, .pcie, .pwr, .regs, .aia]) ∧
  (∀ (s : State),
     s.pwr.night ≠ 2 ∨ s.pwr.holdAt ≠ [] →
     ∃ t, exec .nightLimitExpiry s = .next t ∧
       t = s) ∧
  (∀ (s : State),
     s.pwr.night = 4 ∧ s.pwr.holdAt = [] ∧ s.pwr.wake = false →
     ∃ t, exec .nightEntryComplete s = .next t ∧
       t.phase = phNight ∧ t.pwr = { s.pwr with night := 0 } ∧ t.harts = [] ∧
       (∀ u, u < tileCount → t.tile u = { s.tile u with sky := 3, waking := false }) ∧
       (∀ d, d < 8 → t.fastPll d = .stopped) ∧
       (∀ k, k < 4 → (t.tbase k).slew = 0 ∧ t.tbVal k = s.tbVal k ∧ t.get (F.TB_STATUS_SLEWING k) = 0) ∧
       s.sameRegs t ([R.BOOT_STATUS, R.APC_HART_ONLINE0, R.APC_HART_ONLINE1] ++ (List.range 4).map R.TB_STATUS ++ (List.range 4).map R.TB_SLEW_LEFT) ∧
       s.sameBut t [.tiles, .pwr, .harts, .regs, .tb, .out]) ∧
  (∀ (s : State),
     s.pwr.night = 4 ∧ s.pwr.holdAt = [] ∧ s.pwr.wake = true →
     ∃ t, exec .nightEntryComplete s = .next t ∧
       t.phase = phLodge ∧ t.get F.PWR_RESET_CAUSE_CAUSE = causeNight ∧
       (∀ k, k < 4 → t.get (F.TB_STATUS_HOLDOVER k) = 1 ∧ t.tbVal k = s.tbVal k / nsUnit * nsUnit)) ∧
  (∀ (s : State),
     s.get F.PWR_NIGHT_ALARM_EN = 1 ∧ s.get F.PWR_NIGHT_ALARM_SEC ≤ s.tbVal 0 / secUnit →
     s.phase = phNight →
     ∃ t, exec .nightAlarm s = .next t ∧
       t.phase = phLodge ∧ t.get F.PWR_RESET_CAUSE_CAUSE = causeNight ∧
       (∀ k, k < 4 → t.get (F.TB_STATUS_HOLDOVER k) = 1 ∧ t.tbVal k = s.tbVal k / nsUnit * nsUnit)) ∧
  (∀ (s : State),
     s.get F.PWR_NIGHT_ALARM_EN = 1 ∧ s.get F.PWR_NIGHT_ALARM_SEC ≤ s.tbVal 0 / secUnit →
     s.phase ≠ phNight ∧ s.pwr.night ≠ 0 →
     ∃ t, exec .nightAlarm s = .next t ∧
       t = s.withPwr { s.pwr with wake := true }) ∧
  (∀ (s : State),
     s.get F.PWR_NIGHT_ALARM_EN = 0 ∨ s.tbVal 0 / secUnit < s.get F.PWR_NIGHT_ALARM_SEC →
     ∃ t, exec .nightAlarm s = .next t ∧
       t = s)

/-- Supplies and temperature. A rail below its warning puts its domain in Hold: every tile of it that is not in Night is
held, the Hold is counted and 0x0101 is recorded; a warning within Hold only starts the recovery time again. Once the rail
has stayed above for that time, a quick check that passes ends Hold, after which storage work and what the host interface
kept go on, and one that fails resets the device, and so do the
limit of Hold and undervoltage, each with its cause and one more reset counted. A temperature sample shows the largest
reading and keeps the peak, with 0x0105 where it first passes the warning; a reading of 115 degrees trips: memory below
the retained SRAM is lost and THERMTRIP_N falls; with AUTO_RESTART a cooled device starts. (18_power_ageing.md R487,
18_power_ageing.md R488, 18_power_ageing.md R489, 18_power_ageing.md R490, 18_power_ageing.md R492,
18_power_ageing.md R493) -/
def Obligations.SuppliesAndTemperature : Prop :=
  (∀ (s : State) (d : Nat) (sent : List Nat),
     d < 8 ∧ d ≠ 3 ∧ s.pwr.trip = false ∧ s.phase ≠ phNight ∧ s.held d = false →
     ∃ t, exec (.supplyWarning d sent) s = .next t ∧
       t.held d = true ∧ t.hasError uPwr 0 ∧
       t.get F.PWR_HOLD_COUNT_COUNT = satInc 0xFFFFFFFF (s.get F.PWR_HOLD_COUNT_COUNT) ∧
       (∀ u, u < tileCount → t.tile u = if tileDomain u = some d ∧ (s.tile u).sky ≠ 3 then { s.tile u with hold := true } else s.tile u) ∧
       t.pwr = { s.pwr with holdAt := spInsert s.pwr.holdAt d s.clk.elapsed } ∧
       s.sameBut t [.tiles, .pwr, .regs, .pcie, .out, .aia]) ∧
  (∀ (s : State) (sent : List Nat),
     s.pwr.trip = false ∧ s.phase ≠ phNight ∧ s.held 3 = false →
     ∃ t, exec (.supplyWarning 3 sent) s = .next t ∧
       t.held 3 = true ∧ t.hasError uPwr 0 ∧
       (∀ u, u < tileCount → t.tile u = if tileDomain u = some 3 ∧ (s.tile u).sky ≠ 3 then { s.tile u with hold := true } else s.tile u) ∧
       (∀ p, p < 16 → t.txOf p = none) ∧
       t.pwr = { s.pwr with holdAt := spInsert s.pwr.holdAt 3 s.clk.elapsed } ∧
       s.sameBut t [.eth, .out, .pcie, .prm, .pwr, .regs, .sch, .tiles, .aia]) ∧
  (∀ (s : State) (d : Nat) (sent : List Nat),
     s.pwr.trip = false ∧ s.phase ≠ phNight ∧ s.held d = true →
     ∃ t, exec (.supplyWarning d sent) s = .next t ∧
       t = s.withPwr { s.pwr with dwelt := s.pwr.dwelt.erase d }) ∧
  (∀ (s : State) (d : Nat),
     s.held d = true →
     ∃ t, exec (.holdDwellEnd d) s = .next t ∧
       t.pwr.dwelt.contains d = true ∧
       t.pwr = { s.pwr with dwelt := t.pwr.dwelt } ∧
       s.sameBut t [.pwr]) ∧
  (∀ (s : State) (d : Nat) (l : List (Option (Nat × Nat × Nat))),
     d < 8 ∧ s.held d = true ∧ s.pwr.dwelt.contains d = true ∧ (s.quickCheck d l).1 = true →
     ∃ t, exec (.quickCheckEnd d l) s = .next (if d = 5 then t.nveGo.hqHeldApply.hifResume else t.nveGo) ∧
       t.held d = false ∧
       (∀ u, u < tileCount → t.tile u = if tileDomain u = some d then { s.tile u with hold := false } else s.tile u) ∧
       t.pwr.holdAt = spErase s.pwr.holdAt d ∧ t.pwr.dwelt = s.pwr.dwelt.erase d ∧
       s.sameBut t (if d = 3 then [.tiles, .pwr, .regs, .sch, .pcie, .out, .aia] else [.tiles, .pwr, .regs, .pcie, .out, .aia])) ∧
  (∀ (s : State) (d : Nat) (l : List (Option (Nat × Nat × Nat))),
     d < 8 ∧ s.held d = true ∧ s.pwr.dwelt.contains d = true ∧ (s.quickCheck d l).1 = false →
     ∃ t, exec (.quickCheckEnd d l) s = .next t ∧
       t.phase = phLodge ∧ t.get F.PWR_RESET_CAUSE_CAUSE = causeQuick ∧
       t.get F.PWR_RESET_CAUSE_RESETS = (s.get F.PWR_RESET_CAUSE_RESETS + 1) % 2 ^ 32 ∧
       t.hasError uPwr 2 ∧ t.held d = false) ∧
  (∀ (s : State) (d : Nat),
     d < 8 ∧ s.held d = true →
     ∃ t, exec (.holdLimitExpiry d) s = .next t ∧
       t.phase = phLodge ∧ t.get F.PWR_RESET_CAUSE_CAUSE = causeHold ∧
       t.get F.PWR_RESET_CAUSE_RESETS = (s.get F.PWR_RESET_CAUSE_RESETS + 1) % 2 ^ 32 ∧
       t.hasError uPwr 1 ∧ t.held d = false) ∧
  (∀ (s : State) (d : Nat),
     s.pwr.trip = false →
     ∃ t, exec (.undervoltage d) s = .next t ∧
       t.phase = phLodge ∧ t.get F.PWR_RESET_CAUSE_CAUSE = causeUnder ∧
       t.get F.PWR_RESET_CAUSE_RESETS = (s.get F.PWR_RESET_CAUSE_RESETS + 1) % 2 ^ 32 ∧
       t.hasError uPwr 3) ∧
  (∀ (s : State) (l : List Nat) (now : Nat),
     now = (l.take 64).foldl (fun a r => max a (r % 256)) 0 →
     ∃ t, exec (.temperatureSample l) s = .next t ∧
       t.get F.PWR_TEMP_NOW = now ∧ t.get F.PWR_TEMP_PEAK = max now (s.get F.PWR_TEMP_PEAK) ∧
       (s.get F.PWR_THERM_CFG_WARN_C < now ∧ s.pwr.hot = false → t.hasError uPwr 4) ∧
       t.pwr = { s.pwr with hot := decide (s.get F.PWR_THERM_CFG_WARN_C < now) } ∧
       s.sameBut t [.regs, .pwr, .pcie, .out, .aia]) ∧
  (∀ (s : State),
     115 ≤ s.get F.PWR_TEMP_NOW ∧ s.pwr.trip = false →
     ∃ t, exec .thermalTrip s = .next t ∧
       t.pwr.trip = true ∧ t.pins = { s.pins with thermtrip := true } ∧
       .pin "THERMTRIP_N" 0 ∈ t.out ∧
       t.get F.PWR_RESET_CAUSE_CAUSE = causeTrip ∧ t.hasError uPwr 5 ∧
       (∀ a, a < 0x0E0000000000 → t.byte a = 0) ∧
       (∀ a, 0x0E0000000000 ≤ a → t.byte a = s.byte a) ∧
       t.boot.warm = none ∧ t.zeroMap = []) ∧
  (∀ (s : State),
     s.pwr.trip = true ∧ s.get F.PWR_THERM_CFG_AUTO_RESTART = 1 ∧ s.get F.PWR_TEMP_NOW ≤ 100 ∧ s.pins.sysRst = true →
     ∃ t, exec .thermalRestart s = .next t ∧
       t.pwr.trip = false ∧ t.pins = { s.pins with thermtrip := false } ∧
       t.phase = phLodge ∧ t.get F.PWR_RESET_CAUSE_CAUSE = causeTrip ∧
       .pin "THERMTRIP_N" 1 ∈ t.out)

/-- Sundial and operating points. A sample of the sundials records each reading in range of a sensor that counts, and
leaves out a sensor whose reading is not, with 0x0204. GO on an operating point of Table 18-6 that is not the one in force
starts its qualification, and any other is refused with 0x0109; a step whose check passes goes on to the next, the last
one applies the change with its generation counted, a step that fails or a rail that does not settle turns the change
back. An operating hour counts; a re-plan done sets when the next one is due, and a legal interval is stored with it.
(18_power_ageing.md R494, 18_power_ageing.md R495, 18_power_ageing.md R497) -/
def Obligations.SundialAndOperatingPoints : Prop :=
  (∀ (s : State) (l : List (Option (Nat × Nat × Nat))) (i m sh c : Nat),
     i < 512 ∧ l[i]? = some (some (m, sh, c)) ∧ (s.sensor i).excluded = false →
     ∃ t, exec (.sundialSample l) s = .next t ∧
       t.sensor i = ⟨signedOf 16 m, signedOf 16 sh, c % 256, false⟩ ∧
       t.pwr = { s.pwr with sensors := t.pwr.sensors, qual := t.pwr.qual } ∧
       (s.pwr.qual = none → t.pwr.qual = none) ∧
       s.sameBut t [.regs, .pwr, .pcie, .out, .aia]) ∧
  (∀ (s : State) (l : List (Option (Nat × Nat × Nat))) (i : Nat),
     i < 512 ∧ l[i]? = some none ∧ (s.sensor i).excluded = false →
     ∃ t, exec (.sundialSample l) s = .next t ∧
       t.sensor i = { s.sensor i with excluded := true } ∧
       t.hasError uSdl 3 ∧
       s.sameBut t [.regs, .pwr, .pcie, .out, .aia]) ∧
  (∀ (s : State) (d mv mhz : Nat),
     d = s.get F.PWR_OP_SEL_STG_DOMAIN ∧ mv = s.get F.PWR_OP_MV_STG_MV ∧ mhz = s.get F.PWR_OP_MHZ_STG_MHZ →
     s.get F.PWR_OP_COMMIT_PENDING = 0 ∧ s.get F.PWR_OP_STATUS_BUSY = 0 →
     600 ≤ mv ∧ mv ≤ 950 ∧ (d = 0 → 400 ≤ mhz ∧ mhz ≤ 3000 ∧ mhz % 100 = 0) ∧ (d ≠ 0 → mhz = 0) →
     opSteps (s.point d).1 (s.point d).2 mv mhz ≠ [] →
     ∃ t, exec .pwrOpCommitGo s = .next t ∧
       t.get F.PWR_OP_COMMIT_PENDING = 1 ∧ t.get F.PWR_OP_STATUS_BUSY = 1 ∧ t.get (F.PWR_DOM_STATUS_QUALIFYING d) = 1 ∧
       t.pwr = { s.pwr with qual := some { dom := d, todo := opSteps (s.point d).1 (s.point d).2 mv mhz, done := [s.point d], back := false } } ∧
       s.sameBut t [.regs, .pwr, .out]) ∧
  (∀ (s : State) (mv : Nat),
     mv = s.get F.PWR_OP_MV_STG_MV ∧ s.get F.PWR_OP_COMMIT_PENDING = 0 ∧ s.get F.PWR_OP_STATUS_BUSY = 0 →
     mv < 600 ∨ 950 < mv →
     ∃ t, exec .pwrOpCommitGo s = .next t ∧
       t.get F.PWR_OP_STATUS_LAST_FC = 0x0109 ∧ t.hasError uPwr 8 ∧
       t.get F.PWR_OP_COMMIT_PENDING = 0 ∧
       s.sameBut t [.regs, .pcie, .out, .aia]) ∧
  (∀ (s : State) (q : PwrQual) (p : Nat × Nat) (l : List (Option (Nat × Nat × Nat))),
     s.pwr.qual = some q ∧ q.todo = [p] ∧ q.back = false ∧ q.dom < 8 ∧ s.held q.dom = false ∧ (s.quickCheck q.dom l).1 = true →
     ∃ t, exec (.qualifyStepEnd l) s = .next t ∧
       t.pwr.qual = none ∧
       t.get F.PWR_OP_COMMIT_PENDING = 0 ∧ t.get F.PWR_OP_STATUS_BUSY = 0 ∧ t.get F.PWR_OP_STATUS_LAST_FC = 0 ∧
       t.get (F.PWR_DOM_STATUS_QUALIFYING q.dom) = 0 ∧
       t.get F.PWR_OP_GEN_GEN = (s.get F.PWR_OP_GEN_GEN + 1) % 2 ^ 32 ∧
       s.sameBut t [.regs, .pwr, .pcie, .out, .aia]) ∧
  (∀ (s : State) (q : PwrQual) (p r : Nat × Nat) (u : List (Nat × Nat)) (l : List (Option (Nat × Nat × Nat))),
     s.pwr.qual = some q ∧ q.todo = p :: r :: u ∧ q.back = false ∧ q.dom < 8 ∧ s.held q.dom = false ∧ (s.quickCheck q.dom l).1 = true →
     ∃ t, exec (.qualifyStepEnd l) s = .next t ∧
       t.pwr.qual = some { q with todo := r :: u, done := p :: q.done } ∧
       s.sameBut t [.regs, .pwr, .pcie, .out, .aia]) ∧
  (∀ (s : State) (q : PwrQual) (l : List (Option (Nat × Nat × Nat))),
     s.pwr.qual = some q ∧ q.todo ≠ [] ∧ q.done ≠ [] ∧ q.back = false ∧ s.held q.dom = false ∧ (s.quickCheck q.dom l).1 = false →
     ∃ t, exec (.qualifyStepEnd l) s = .next t ∧
       t.pwr.qual = some { q with todo := q.done, done := [], back := true } ∧
       s.sameBut t [.regs, .pwr, .pcie, .out, .aia]) ∧
  (∀ (s : State) (q : PwrQual),
     s.pwr.qual = some q ∧ q.done ≠ [] ∧ q.back = false ∧ s.held q.dom = false →
     ∃ t, exec .railSettleTimeout s = .next t ∧
       t.hasError uPwr 7 ∧
       t.pwr.qual = some { q with todo := q.done, done := [], back := true } ∧
       s.sameBut t [.regs, .pwr, .pcie, .out, .aia]) ∧
  (∀ (s : State),
     s.phase ≠ phNight ∧ s.pwr.trip = false →
     ∃ t, exec .operatingHour s = .next t ∧
       t.get F.SDL_OP_HOURS_HOURS = (s.get F.SDL_OP_HOURS_HOURS + 1) % 2 ^ 32 ∧
       (s.get F.SDL_REPLAN_DUE_AT_DUE ≤ (s.get F.SDL_OP_HOURS_HOURS + 1) % 2 ^ 32 ∧ s.pwr.due = false → t.hasError uSdl 0) ∧
       s.sameBut t [.regs, .pwr, .pcie, .out, .aia]) ∧
  (∀ (s : State),
     ∃ t, exec .sdlReplanDone s = .next t ∧
       t.get F.SDL_REPLAN_DUE_AT_DUE = (s.get F.SDL_OP_HOURS_HOURS + s.get F.SDL_REPLAN_CFG_INTERVAL_H) % 2 ^ 32 ∧
       t.pwr = { s.pwr with doneAt := some (s.get F.SDL_OP_HOURS_HOURS), due := false, overdue := false } ∧
       s.sameRegs t [R.SDL_REPLAN_DUE_AT] ∧
       s.sameBut t [.regs, .pwr]) ∧
  (∀ (s : State) (v : Nat),
     1 ≤ v ∧ v ≤ 720 →
     ∃ t, exec (.replanIntervalWrite v) s = .next t ∧
       t.get F.SDL_REPLAN_CFG_INTERVAL_H = v ∧
       (s.pwr.doneAt = none → t.get F.SDL_REPLAN_DUE_AT_DUE = s.get F.SDL_REPLAN_DUE_AT_DUE) ∧
       (∀ h, s.pwr.doneAt = some h → t.get F.SDL_REPLAN_DUE_AT_DUE = (h + v) % 2 ^ 32) ∧
       s.sameBut t [.regs, .pwr, .pcie, .out, .aia]) ∧
  (∀ (s : State) (v : Nat),
     v = 0 ∨ 720 < v →
     ∃ t, exec (.replanIntervalWrite v) s = .next t ∧
       t = s.common uSdl 0xFF)

/-- The reset pins. PERST of a port that falls while the device runs takes every link of the port down, and in device
Night wakes the device; as it rises the links train. SYS_RST_N that falls resets all but the lodge, with DDR and the
retained SRAM kept and no warm copy, and as it rises the straps are sampled, the setpoints are commanded and a full boot
starts with its cause. LODGE_PG that falls resets the lodge too, but not what is fused; as it rises the epoch is drawn,
and with SYS_RST_N high a full boot starts; a generator that is not healthy makes the start wait with 0x0409.
(15_pcie_endpoint.md R417, 18_power_ageing.md R484, 18_power_ageing.md R490, 19_boot.md R503, 19_boot.md R504,
20_security.md R530, 22_electrical.md R571, 22_electrical.md R572) -/
def Obligations.ResetPins : Prop :=
  (∀ (s : State) (p : Nat) (x : Pins),
     p < 2 ∧ x = (if p = 0 then { s.pins with perst0 := false } else { s.pins with perst1 := false }) →
     s.pins.sysRst = false ∨ (if p = 0 then s.pins.perst0 else s.pins.perst1) = false →
     ∃ t, exec (.perstAssert p) s = .next t ∧
       t = s.withPins x) ∧
  (∀ (s : State) (p : Nat) (x : Pins),
     p < 2 ∧ x = (if p = 0 then { s.pins with perst0 := false } else { s.pins with perst1 := false }) →
     s.pins.sysRst = true ∧ (if p = 0 then s.pins.perst0 else s.pins.perst1) = true ∧ s.phase = phNight →
     ∃ t, exec (.perstAssert p) s = .next t ∧
       t.pins = x ∧ t.phase = phLodge ∧ t.get F.PWR_RESET_CAUSE_CAUSE = causeNight) ∧
  (∀ (s : State) (p : Nat) (x : Pins),
     p < 2 ∧ x = (if p = 0 then { s.pins with perst0 := false } else { s.pins with perst1 := false }) →
     s.pins.sysRst = true ∧ (if p = 0 then s.pins.perst0 else s.pins.perst1) = true ∧ s.phase ≠ phNight →
     ∃ t, exec (.perstAssert p) s = .next t ∧
       t.pins = x ∧
       (∀ l, l < linkCount (s.strap p) → t.linkByte p l = 0) ∧
       t.hasError uHif 10 ∧
       (s.pwr.night = 0 → t.pwr = s.pwr) ∧ (s.pwr.night ≠ 0 → t.pwr = { s.pwr with wake := true }) ∧
       s.sameBut t [.arb, .cph, .free, .hif, .mem, .nve, .out, .pcie, .pins, .poison, .prm, .pwr, .regs, .te, .wkt, .zeroMap, .aia]) ∧
  (∀ (s : State) (p : Nat),
     p < 2 ∧ s.pins.sysRst = true →
     ∃ t, exec (.perstDeassert p) s = .next t ∧
       t.pins = (if p = 0 then { s.pins with perst0 := true } else { s.pins with perst1 := true }) ∧
       t.out = s.out ++ (List.range (linkCount (s.strap p))).map (fun l => .pcieLink p l "training" 0) ∧
       s.sameBut t [.pins, .out]) ∧
  (∀ (s : State) (p : Nat),
     p < 2 ∧ s.pins.sysRst = false →
     ∃ t, exec (.perstDeassert p) s = .next t ∧
       t = s.withPins (if p = 0 then { s.pins with perst0 := true } else { s.pins with perst1 := true })) ∧
  (∀ (s : State),
     s.pins.lodgePg = true ∧ s.pwr.trip = false →
     ∃ t, exec .sysRstAssert s = .next t ∧
       t.pins = { s.pins with sysRst := false } ∧
       t.phase = phLodge ∧ t.boot.warm = none ∧ t.boot.flash = s.boot.flash ∧
       (∀ a, a < 0x010000000000 → t.byte a = 0) ∧ (∀ a, 0x010000000000 ≤ a → t.byte a = s.byte a) ∧
       t.get F.PWR_RESET_CAUSE_RESETS = s.get F.PWR_RESET_CAUSE_RESETS ∧
       t.prm = State.reset.prm ∧ t.pav = State.reset.pav ∧ t.arb = State.reset.arb ∧ t.te = State.reset.te ∧ t.pcie.cfg = [] ∧
       t.frames = [] ∧ t.harts = [] ∧ t.tb = s.tb ∧ t.pending = s.pending) ∧
  (∀ (s : State),
     s.pins.lodgePg = true ∧ s.pwr.trip = true ∧ s.get F.PWR_THERM_CFG_AUTO_RESTART = 0 →
     ∃ t, exec .sysRstAssert s = .next t ∧
       t.pins = { s.pins with sysRst := false, thermtrip := false } ∧ t.pwr.trip = false ∧
       .pin "THERMTRIP_N" 1 ∈ t.out) ∧
  (∀ (s : State),
     s.pins.lodgePg = false →
     ∃ t, exec .sysRstAssert s = .next t ∧
       t = s.withPins { s.pins with sysRst := false }) ∧
  (∀ (s : State) (a b c : Nat),
     s.pins.lodgePg = true ∧ s.pins.sysRst = false ∧ s.pins.thermtrip = false →
     ∃ t, exec (.sysRstDeassert a b c true) s = .next t ∧
       t.pins = { s.pins with sysRst := true, bif0 := a % 4, bif1 := b % 4, bootSrc := c % 4 } ∧
       t.phase = phLodge ∧ t.get F.BOOT_STATUS_SRC_STRAP = c % 4 ∧ t.strap 0 = a % 4 % 3 ∧ t.strap 1 = b % 4 % 3 ∧
       t.get F.PWR_RESET_CAUSE_CAUSE = (if s.pwr.powerOn then causePower else causeSysRst) ∧ t.pwr.powerOn = false ∧
       (∀ d, d < 8 → .avs d (s.point d).1 ∈ t.out)) ∧
  (∀ (s : State),
     ∃ t, exec .lodgePgFall s = .next t ∧
       t.pins = { s.pins with lodgePg := false, thermtrip := false } ∧
       t.mem = [] ∧ t.tb = State.reset.tb ∧ t.pwr = State.reset.pwr ∧
       t.wkt.floors = s.wkt.floors ∧ t.wkt.revoked = s.wkt.revoked ∧ t.boot.flash = s.boot.flash ∧
       (∀ k, k < 3 → t.get (usedFld k) = s.get (usedFld k)) ∧ t.pending = s.pending) ∧
  (∀ (s : State),
     s.pins.lodgePg = false ∧ s.pins.sysRst = true →
     ∃ t, exec (.lodgePgRise true) s = .next t ∧
       t.pins = { s.pins with lodgePg := true } ∧
       t.phase = phLodge ∧ t.get F.PWR_RESET_CAUSE_CAUSE = causePower ∧ t.pwr.powerOn = false ∧
       t.rd (R.WKT_EPOCH 0) = Config.freeValue s.free ∧ t.rd (R.WKT_EPOCH 1) = Config.freeValue (s.free + 1)) ∧
  (∀ (s : State),
     s.pins.lodgePg = false ∧ s.pins.sysRst = false ∧ s.isOpen = false →
     ∃ t, exec (.lodgePgRise true) s = .next t ∧
       t.pins = { s.pins with lodgePg := true } ∧
       t.rd (R.WKT_EPOCH 0) = Config.freeValue s.free ∧ t.rd (R.WKT_EPOCH 1) = Config.freeValue (s.free + 1) ∧
       t.boot = { s.boot with rbgWait := false } ∧
       s.sameRegs t [R.WKT_EPOCH 0, R.WKT_EPOCH 1] ∧
       s.sameBut t [.pins, .boot, .regs, .free]) ∧
  (∀ (s : State),
     s.pins.lodgePg = false ∧ s.pins.sysRst = false →
     ∃ t, exec (.lodgePgRise false) s = .next t ∧
       t.pins = { s.pins with lodgePg := true } ∧
       t.boot = { s.boot with rbgWait := true } ∧
       t.hasError uWkt 8 ∧
       s.sameBut t [.pins, .boot, .regs, .pcie, .out, .aia]) ∧
  (∀ (s : State) (h : Bool),
     s.pins.lodgePg = true →
     ∃ t, exec (.lodgePgRise h) s = .next t ∧
       t = s)

/-- The wicket and its TAP. GEN draws a challenge of six words, expiry clears it, and a token submitted consumes it and
stands under check, or fails with 0x0405 while another does. The end of the checks records the lowest that fails, or burns
the bank's fuse for a revocation, or begins the opening: tenant work ends, groups are emptied and the memory marked; then
the retained secrets are zeroed, sessions end and the lifecycle is Open for good. RAISE programs a floor with the value in
force. The TAP shows its identification, scans the boundary, bypasses, makes and submits challenges and tokens, and
reaches the Debug Module only in Open; there a command reads a CSR of a halted hart, writes a general register, claims
the interrupt of its M-level file, stores through the caches, and a bus access reaches the APLIC. The Debug Module's,
the harts' and AIA's registers are those of their own specifications (PRESUMED, log entries 138 and 156). (20_security.md R532, 20_security.md R541, 20_security.md R542,
20_security.md R543, 20_security.md R545) -/
def Obligations.WicketAndTap : Prop :=
  (∀ (s : State),
     ∃ t, exec .wktChalGen s = .next t ∧
       (∀ i, i < 6 → t.rd (R.WKT_CHAL i) = Config.freeValue (s.free + i)) ∧
       t.wkt = { s.wkt with chal := true } ∧ t.free = s.free + 6 ∧
       s.sameRegs t ((List.range 6).map R.WKT_CHAL) ∧
       s.sameBut t [.regs, .wkt, .free]) ∧
  (∀ (s : State),
     ∃ t, exec .challengeExpiry s = .next t ∧
       (∀ i, i < 6 → t.rd (R.WKT_CHAL i) = 0) ∧
       t.wkt = { s.wkt with chal := false } ∧
       s.sameRegs t ((List.range 6).map R.WKT_CHAL) ∧
       s.sameBut t [.regs, .wkt]) ∧
  (∀ (s : State) (a : Nat) (l : List Byte),
     a = s.get F.WKT_TOKEN_SRC_ADDR ∧ s.operatorReaches a 4992 = true ∧ s.poisoned a 4992 = false ∧ s.wkt.token = none →
     ∃ t, exec (.wktTokenSubmit false l ⟨.clean, .ok⟩) s = .next t ∧
       t.wkt = { s.wkt with chal := false, token := some (s.bytes a 4992, if s.wkt.chal then some (s.regBytes (R.WKT_CHAL 0) 6) else none) } ∧
       t.get F.WKT_TOKEN_STATUS_BUSY = 1 ∧
       (∀ i, i < 6 → t.rd (R.WKT_CHAL i) = 0) ∧
       s.sameRegs t (R.WKT_TOKEN_STATUS :: (List.range 6).map R.WKT_CHAL) ∧
       s.sameBut t [.regs, .wkt]) ∧
  (∀ (s : State) (a : Nat) (l : List Byte),
     a = s.get F.WKT_TOKEN_SRC_ADDR ∧ s.operatorReaches a 4992 = true ∧ s.poisoned a 4992 = false ∧ s.wkt.token.isSome = true →
     ∃ t, exec (.wktTokenSubmit false l ⟨.clean, .ok⟩) s = .next t ∧
       t.wkt = { s.wkt with chal := false } ∧
       t.get F.WKT_TOKEN_STATUS_LAST_FC = 0x0405 ∧ t.hasError uWkt 4 ∧
       s.sameBut t [.regs, .wkt, .pcie, .out, .aia]) ∧
  (∀ (s : State) (k : List Byte) (c : Option (List Byte)),
     s.wkt.token = some (k, c) →
     ∃ t, exec .tokenCheckEnd s = .next t ∧
       t.wkt.token = none ∧ t.get F.WKT_TOKEN_STATUS_BUSY = 0 ∧
       (∀ n, lowestFailing (s.tokenChecks k c) = some n →
          t.get F.WKT_TOKEN_STATUS_LAST_FC = 0x0400 + n ∧ t.hasError uWkt (n - 1) ∧ t.wkt = { s.wkt with token := none } ∧ t.site = s.site) ∧
       (lowestFailing (s.tokenChecks k c) = none ∧ leAt k 0x0D 1 = 2 →
          t.get F.WKT_TOKEN_STATUS_LAST_FC = 0 ∧ spGet (fun _ => false) t.wkt.revoked (4 * leAt k 0x0E 1 + leAt k 0x0F 1) = true ∧ t.wkt.unlock = s.wkt.unlock ∧ t.site = s.site) ∧
       (lowestFailing (s.tokenChecks k c) = none ∧ leAt k 0x0D 1 ≠ 2 →
          t.get F.WKT_TOKEN_STATUS_LAST_FC = 0 ∧ t.wkt = { s.wkt with token := none, unlock := 1 }) ∧
       s.sameBut t [.regs, .wkt, .site, .pcie, .out, .aia]) ∧
  (∀ (s : State),
     s.wkt.token = none →
     ∃ t, exec .tokenCheckEnd s = .next t ∧
       t = s) ∧
  (∀ (s : State),
     s.wkt.unlock = 1 ∧ s.sitePhase = sIdle ∧ s.pwr.holdAt = [] →
     ∃ t, exec .wicketErasure s = .next t ∧
       t.get F.WKT_LIFECYCLE_ERASING = 1 ∧ t.wkt.unlock = 2 ∧
       t.cph.cache = [] ∧ t.cph.reqs = [] ∧
       (∀ g, g < 64 → grpFirst s.plan g = true → t.grpState g = gEmpty) ∧
       (∀ x a, x ∈ openingRanges s.plan → x.1 ≤ a ∧ a < x.1 + x.2 → t.byte a = 0) ∧
       s.sameBut t [.arb, .cph, .eth, .frames, .free, .hif, .mem, .nve, .out, .pav, .pcie, .poison, .prm, .regs, .sch, .te, .tiles, .wkt, .zeroMap, .aia, .cache]) ∧
  (∀ (s : State),
     s.wkt.unlock = 2 ∧ s.pwr.holdAt = [] →
     ∃ t, exec .wicketOpenComplete s = .next t ∧
       t.isOpen = true ∧ t.get F.WKT_LIFECYCLE_LATCHED = 1 ∧ t.get F.WKT_LIFECYCLE_ERASING = 0 ∧
       t.hasError uWkt 9 ∧
       (∀ a, 0x0E0000000000 ≤ a ∧ a < 0x0E0000010000 → t.byte a = 0) ∧
       (∀ a, a < 0x0E0000000000 ∨ 0x0E0000010000 ≤ a → t.byte a = s.byte a) ∧
       t.wkt = { s.wkt with unlock := 0, erased := true, openKeys := some (Config.freeValue s.free), aliasKeys := some (Config.freeValue (s.free + 1)), sessions := [] } ∧
       t.boot = { s.boot with warm := none } ∧ t.pcie.ide = [] ∧ t.pcie.ideKeys = [] ∧
       s.sameBut t [.boot, .free, .mem, .out, .pcie, .poison, .regs, .wkt, .zeroMap, .aia, .cache]) ∧
  (∀ (s : State) (k v : Nat) (l : List Nat),
     k < 3 ∧ v = s.arbInForce k ∧ l = spGet (fun _ => []) s.wkt.floors k ∧ l.length < 32 ∧ s.floorOf k < v →
     ∃ t, exec (.raise k) s = .next t ∧
       spGet (fun _ => []) t.wkt.floors k = l ++ [v] ∧ t.floorOf k = v ∧
       t.get (floorFld k) = v ∧ t.get (usedFld k) = l.length + 1 ∧
       (∀ j, j ≠ k → spGet (fun _ => []) t.wkt.floors j = spGet (fun _ => []) s.wkt.floors j) ∧
       s.sameRegs t [(floorFld k).off, R.WKT_ARB_USED] ∧
       s.sameBut t [.regs, .wkt]) ∧
  (∀ (s : State) (k : Nat),
     (spGet (fun _ => []) s.wkt.floors k).length < 32 ∧ s.arbInForce k ≤ s.floorOf k →
     ∃ t, exec (.raise k) s = .next t ∧
       t = s) ∧
  (∀ (s : State) (k : Nat),
     32 ≤ (spGet (fun _ => []) s.wkt.floors k).length →
     ∃ t, exec (.raise k) s = .next t ∧
       t.hasError uWkt 6 ∧
       s.sameBut t [.regs, .pcie, .out, .aia]) ∧
  (∀ (s : State) (l m : List Byte),
     ∃ t, exec (.tapExtest l m) s = .next t ∧
       t.wkt = { s.wkt with tapIr := 0x00, boundary := m } ∧
       t.out = s.out ++ [.tap "DRIVE" s.wkt.boundary, .tap "EXTEST" l, .tap "DRIVE" m] ∧
       s.sameBut t [.wkt, .out]) ∧
  (∀ (s : State),
     ∃ t, exec .tapIdcode s = .next t ∧
       t.wkt = { s.wkt with tapIr := 0x01 } ∧ t.out = s.out ++ [.tap "IDCODE" (natLE 4 0xB512094B)] ∧
       s.sameBut t [.wkt, .out]) ∧
  (∀ (s : State) (l m : List Byte),
     ∃ t, exec (.tapSamplePreload l m) s = .next t ∧
       t.wkt = { s.wkt with tapIr := 0x02, boundary := m } ∧ t.out = s.out ++ [.tap "SAMPLE/PRELOAD" l] ∧
       s.sameBut t [.wkt, .out]) ∧
  (∀ (s : State),
     ∃ t, exec .tapClamp s = .next t ∧
       t.wkt = { s.wkt with tapIr := 0x04 } ∧ t.out = s.out ++ [.tap "DRIVE" s.wkt.boundary, .tap "BYPASS" [0]] ∧
       s.sameBut t [.wkt, .out]) ∧
  (∀ (s : State),
     ∃ t, exec .tapHighz s = .next t ∧
       t.wkt = { s.wkt with tapIr := 0x05 } ∧ t.out = s.out ++ [.tap "HIGHZ" [], .tap "BYPASS" [0]] ∧
       s.sameBut t [.wkt, .out]) ∧
  (∀ (s : State),
     ∃ t, exec .tapBypass s = .next t ∧
       t.wkt = { s.wkt with tapIr := 0xFF } ∧ t.out = s.out ++ [.tap "BYPASS" [0]] ∧
       s.sameBut t [.wkt, .out]) ∧
  (∀ (s : State),
     ∃ t, exec .tapWktChal s = .next t ∧
       t.wkt = { s.wkt with tapIr := 0x20, chal := true } ∧
       t.out = s.out ++ [.tap "WKT_CHAL" ((List.range 6).flatMap fun i => natLE 8 (Config.freeValue (s.free + i)).toNat)] ∧
       s.sameRegs t ((List.range 6).map R.WKT_CHAL) ∧
       s.sameBut t [.wkt, .regs, .out, .free]) ∧
  (∀ (s : State) (k : List Byte),
     s.wkt.token = none →
     ∃ t, exec (.tapWktToken k) s = .next t ∧
       t.wkt = { s.wkt with tapIr := 0x21, chal := false, token := some (bytesAt k 0 4992, if s.wkt.chal then some (s.regBytes (R.WKT_CHAL 0) 6) else none) } ∧
       t.get F.WKT_TOKEN_STATUS_BUSY = 1 ∧
       s.sameRegs t (R.WKT_TOKEN_STATUS :: (List.range 6).map R.WKT_CHAL) ∧
       s.sameBut t [.regs, .wkt]) ∧
  (∀ (s : State),
     ∃ t, exec .tapWktStatus s = .next t ∧
       t.wkt = { s.wkt with tapIr := 0x22 } ∧
       t.out = s.out ++ [.tap "WKT_STATUS" (natLE 2 (s.get F.WKT_TOKEN_STATUS_LAST_FC) ++ natLE 1 (bitsAt (s.rd R.WKT_LIFECYCLE) 2 0))] ∧
       s.sameBut t [.wkt, .out]) ∧
  (∀ (s : State),
     ∃ t, exec .tapDtmcs s = .next t ∧
       t.wkt = { s.wkt with tapIr := 0x10 } ∧
       (∃ b, t.out = s.out ++ [.tap "DTMCS" b] ∧ b.length = 4 ∧ leAt b 0 4 % 16 = 1 ∧ leAt b 0 4 / 1024 % 4 = 0) ∧
       s.sameBut t [.wkt, .out]) ∧
  (∀ (s : State) (a d : Nat) (x : HartMem),
     s.isOpen = false →
     ∃ t, exec (.tapDmi 1 a ⟨d, x⟩) s = .next t ∧
       t.wkt = { s.wkt with tapIr := 0x11 } ∧ t.out = s.out ++ [.tap "DMI" (natLE 4 0)] ∧
       s.sameBut t [.wkt, .out]) ∧
  (∀ (s : State) (a d : Nat) (x : HartMem),
     s.isOpen = false →
     ∃ t, exec (.tapDmi 2 a ⟨d, x⟩) s = .next t ∧
       t = s.withWkt { s.wkt with tapIr := 0x11 }) ∧
  (∀ (s : State) (a d : Nat) (x : HartMem),
     s.isOpen = true ∧ s.dmActive = true ∧ (dmData0 ≤ a ∧ a ≤ 0x0F ∨ 0x20 ≤ a ∧ a ≤ 0x2F) →
     ∃ t, exec (.tapDmi 2 a ⟨d, x⟩) s = .next t ∧
       t.dm a = d % 2 ^ 32 ∧
       (∀ b, b ≠ a → t.dm b = s.dm b) ∧
       s.sameBut t [.wkt]) ∧
  (∀ (s : State) (a d : Nat) (x : HartMem),
     s.isOpen = true ∧ s.dmActive = true ∧ (dmData0 ≤ a ∧ a ≤ 0x0F ∨ 0x20 ≤ a ∧ a ≤ 0x2F) →
     ∃ t, exec (.tapDmi 1 a ⟨d, x⟩) s = .next t ∧
       t.wkt = { s.wkt with tapIr := 0x11 } ∧ t.out = s.out ++ [.tap "DMI" (natLE 4 (s.dm a))] ∧
       s.sameBut t [.wkt, .out]) ∧
  (∀ (s : State) (h n : Nat) (x : HartMem),
     s.isOpen = true ∧ s.dmActive = true ∧ h = s.dmHart ∧ s.dm (dmHalted h) = 1 ∧ natBits (s.dm dmAbstractCs) 10 8 = 0 ∧ (s.tile (hartTile h)).hold = false →
     n < 0x1000 ∧ csrExists n = true →
     ∃ t, exec (.tapDmi 2 dmCommand ⟨0x320000 + n, x⟩) s = .next t ∧
       t.dmData 0 = (s.hartCsr h n).toNat ∧
       (∀ b, b ≠ dmData0 ∧ b ≠ dmData0 + 1 → t.dm b = s.dm b) ∧
       s.sameBut t [.wkt]) ∧
  (∀ (s : State) (h i : Nat) (x : HartMem),
     s.isOpen = true ∧ s.dmActive = true ∧ h = s.dmHart ∧ s.dm (dmHalted h) = 1 ∧ natBits (s.dm dmAbstractCs) 10 8 = 0 ∧ (s.tile (hartTile h)).hold = false →
     0 < i ∧ i < 64 →
     ∃ t, exec (.tapDmi 2 dmCommand ⟨0x331000 + i, x⟩) s = .next t ∧
       t.hart h = { s.hart h with xs := spInsert (s.hart h).xs i (BitVec.ofNat 64 (s.dmData 0)) } ∧
       (∀ k, k ≠ h → t.hart k = s.hart k) ∧
       (∀ b, t.dm b = s.dm b) ∧
       s.sameBut t [.wkt, .harts]) ∧
  (∀ (s : State) (h : Nat) (x : HartMem),
     s.isOpen = true ∧ s.dmActive = true ∧ h = s.dmHart ∧ s.dm (dmHalted h) = 1 ∧ natBits (s.dm dmAbstractCs) 10 8 = 0 ∧ (s.tile (hartTile h)).hold = false →
     ∃ t, exec (.tapDmi 2 dmCommand ⟨0x33035C, x⟩) s = .next t ∧
       t.hart h = (s.hart h).setFile 8 ((s.hart h).file 8).claim ∧
       (∀ k, k ≠ h → t.hart k = s.hart k) ∧
       s.sameBut t [.wkt, .harts]) ∧
  (∀ (s : State) (h a : Nat) (x : HartMem) (b : List Byte),
     s.isOpen = true ∧ s.dmActive = true ∧ h = s.dmHart ∧ s.dm (dmHalted h) = 1 ∧ natBits (s.dm dmAbstractCs) 10 8 = 0 ∧ (s.tile (hartTile h)).hold = false →
     a = s.dmData 2 ∧ a % 8 = 0 ∧ s.placeOf a 8 = .dram ∧ s.hartReaches a 8 = true ∧ pmpGrants true a 8 true 0 (s.hart h).pmp = true →
     (s.line (a / 64)).own = some b ∧ x.cache = .clean ∧ x.mem = .clean →
     ∃ t, exec (.tapDmi 2 dmCommand ⟨0x02310000, x⟩) s = .next t ∧
       (bitAt (Config.freeValue s.free) 0 = false →
         t.line (a / 64) = ⟨true, (s.line (a / 64)).poison, some (bytesPut b (a % 64) (natLE 8 (s.dmData 0 % 2 ^ 64)))⟩ ∧
         s.sameBut t [.wkt, .cache, .free]) ∧
       (∀ k, k ≠ a / 64 → t.line k = s.line k) ∧
       t.wkt = { s.wkt with tapIr := 0x11 } ∧
       s.sameBut t [.wkt, .cache, .free, .mem, .poison, .zeroMap]) ∧
  (∀ (s : State) (d : Nat) (x : HartMem),
     s.isOpen = true ∧ s.dmActive = true →
     natBits (s.dm dmSbCs) 14 12 = 0 ∧ natBits (s.dm dmSbCs) 19 17 = 2 ∧ (s.dm dmSbCs).testBit 16 = false →
     s.dm dmSbAddress1 = 0x0E00 ∧ s.dm dmSbAddress0 = 0x30001CDC →
     ∃ t, exec (.tapDmi 2 dmSbData0 ⟨d, x⟩) s = .next t ∧
       t.aplic 0 = (s.aplic 0).pend (d % 2 ^ 32 % 1024) ∧
       t.aplic 1 = s.aplic 1 ∧
       s.sameBut t [.wkt, .aia])
end

