-- ==== Sys2Proof/Laws/Bits.lean ====
section
/-! SUPPORT. Reading a bit field after another field of the same word was set. -/

namespace Sys2Proof.Machine

set_option linter.all false

/-- Bits of a word with a field set: those of the value inside the field, those of the word outside it. -/
theorem testBit_setBits (w : Word) (hi lo v i : Nat) (hl : lo ≤ hi) (hh : hi < 64) :
    (setBits w hi lo v).toNat.testBit i =
      if lo ≤ i ∧ i ≤ hi then v.testBit (i - lo) else w.toNat.testBit i := by
  obtain ⟨k, rfl⟩ : ∃ k, hi = lo + k := ⟨hi - lo, by omega⟩
  have hw : lo + k + 1 - lo = k + 1 := by omega
  have hA : 0 < 2 ^ lo := Nat.pow_pos (by omega)
  have hB : 0 < 2 ^ (k + 1) := Nat.pow_pos (by omega)
  -- the word as high part, field, low part
  obtain ⟨q, hq⟩ : ∃ q, q = w.toNat / 2 ^ lo := ⟨_, rfl⟩
  obtain ⟨r, hr⟩ : ∃ r, r = w.toNat % 2 ^ lo := ⟨_, rfl⟩
  obtain ⟨f, hf⟩ : ∃ f, f = q % 2 ^ (k + 1) := ⟨_, rfl⟩
  obtain ⟨h, hhh⟩ : ∃ h, h = q / 2 ^ (k + 1) := ⟨_, rfl⟩
  obtain ⟨v', hv'⟩ : ∃ v', v' = v % 2 ^ (k + 1) := ⟨_, rfl⟩
  have e1 : w.toNat = 2 ^ lo * q + r := by rw [hq, hr]; exact (Nat.div_add_mod _ _).symm
  have e2 : q = 2 ^ (k + 1) * h + f := by rw [hhh, hf]; exact (Nat.div_add_mod _ _).symm
  have hrl : r < 2 ^ lo := by rw [hr]; exact Nat.mod_lt _ hA
  have hfl : f < 2 ^ (k + 1) := by rw [hf]; exact Nat.mod_lt _ hB
  have hvl : v' < 2 ^ (k + 1) := by rw [hv']; exact Nat.mod_lt _ hB
  have hold : w.toNat = 2 ^ lo * (2 ^ (k + 1) * h + f) + r := by rw [← e2]; exact e1
  have e3 : w.toNat - f * 2 ^ lo + v' * 2 ^ lo = 2 ^ lo * (2 ^ (k + 1) * h + v') + r := by
    rw [hold, Nat.mul_add, Nat.mul_add, Nat.mul_comm f, Nat.mul_comm v']; omega
  have hsplit : (2 : Nat) ^ 64 = 2 ^ lo * (2 ^ (k + 1) * 2 ^ (63 - lo - k)) := by
    rw [← Nat.pow_add, ← Nat.pow_add]; congr 1; omega
  have hn64 : w.toNat < 2 ^ 64 := w.isLt
  have hbound : 2 ^ lo * (2 ^ (k + 1) * h + v') + r < 2 ^ 64 := by
    have h0 : 2 ^ lo * q < 2 ^ lo * (2 ^ (k + 1) * 2 ^ (63 - lo - k)) := by omega
    have h1 : q < 2 ^ (k + 1) * 2 ^ (63 - lo - k) := Nat.lt_of_mul_lt_mul_left h0
    have h2 : 2 ^ (k + 1) * h < 2 ^ (k + 1) * 2 ^ (63 - lo - k) := by omega
    have h3 : h + 1 ≤ 2 ^ (63 - lo - k) := Nat.lt_of_mul_lt_mul_left h2
    have h4 : 2 ^ (k + 1) * (h + 1) ≤ 2 ^ (k + 1) * 2 ^ (63 - lo - k) := Nat.mul_le_mul_left _ h3
    have h5 : 2 ^ (k + 1) * h + v' + 1 ≤ 2 ^ (k + 1) * 2 ^ (63 - lo - k) := by rw [Nat.mul_add] at h4; omega
    have h6 : 2 ^ lo * (2 ^ (k + 1) * h + v' + 1) ≤ 2 ^ 64 := by rw [hsplit]; exact Nat.mul_le_mul_left _ h5
    rw [Nat.mul_add] at h6; omega
  have hset : (setBits w (lo + k) lo v).toNat = 2 ^ lo * (2 ^ (k + 1) * h + v') + r := by
    unfold setBits bitsAt
    rw [hw, BitVec.toNat_ofNat, ← hq, ← hf, ← hv', e3]
    exact Nat.mod_eq_of_lt hbound
  rw [hset, hold, Nat.testBit_two_pow_mul_add _ hrl, Nat.testBit_two_pow_mul_add _ hrl]
  by_cases c1 : i < lo
  · have : ¬ (lo ≤ i ∧ i ≤ lo + k) := by omega
    simp [c1, this]
  · rw [if_neg c1, if_neg c1, Nat.testBit_two_pow_mul_add _ hvl, Nat.testBit_two_pow_mul_add _ hfl]
    by_cases c2 : i ≤ lo + k
    · have c3 : i - lo < k + 1 := by omega
      have c4 : lo ≤ i ∧ i ≤ lo + k := by omega
      rw [if_pos c3, if_pos c4, hv', Nat.testBit_mod_two_pow]; simp [c3]
    · have c3 : ¬ i - lo < k + 1 := by omega
      have c4 : ¬ (lo ≤ i ∧ i ≤ lo + k) := by omega
      rw [if_neg c3, if_neg c4, if_neg c3]

/-- Bit `i` of a field. -/
theorem testBit_bitsAt (w : Word) (hi lo i : Nat) :
    (bitsAt w hi lo).testBit i = (decide (i < hi + 1 - lo) && w.toNat.testBit (lo + i)) := by
  unfold bitsAt
  rw [Nat.testBit_mod_two_pow, Nat.testBit_div_two_pow, Nat.add_comm i lo]

/-- A field that was set reads as the value, modulo its width. -/
theorem bitsAt_setBits_same (w : Word) (hi lo v : Nat) (hl : lo ≤ hi) (hh : hi < 64) :
    bitsAt (setBits w hi lo v) hi lo = v % 2 ^ (hi + 1 - lo) := by
  apply Nat.eq_of_testBit_eq
  intro i
  rw [testBit_bitsAt, testBit_setBits _ _ _ _ _ hl hh, Nat.testBit_mod_two_pow]
  by_cases h : i < hi + 1 - lo
  · have : lo ≤ lo + i ∧ lo + i ≤ hi := by omega
    simp [h, this]
  · simp [h]

/-- A field apart from the one set reads as before. -/
theorem bitsAt_setBits_other (w : Word) (hi lo v hi' lo' : Nat) (hl : lo ≤ hi) (hh : hi < 64)
    (hd : hi < lo' ∨ hi' < lo) : bitsAt (setBits w hi lo v) hi' lo' = bitsAt w hi' lo' := by
  apply Nat.eq_of_testBit_eq
  intro i
  rw [testBit_bitsAt, testBit_bitsAt, testBit_setBits _ _ _ _ _ hl hh]
  by_cases h : i < hi' + 1 - lo'
  · have : ¬ (lo ≤ lo' + i ∧ lo' + i ≤ hi) := by omega
    simp [this]
  · simp [h]

theorem bitsAt_lt (w : Word) (hi lo : Nat) : bitsAt w hi lo < 2 ^ (hi + 1 - lo) :=
  Nat.mod_lt _ (Nat.pow_pos (by omega))

end Sys2Proof.Machine
end

