-- ==== Sys2Proof/Laws/Sparse.lean ====
section
/-! SUPPORT. Reading a sparse table after an update, and the canonical form under every update. -/

namespace Sys2Proof.Machine

set_option linter.all false

variable {α : Type}

theorem spGet_erase (d : Nat → α) (m : Sparse α) (k k' : Nat) :
    spGet d (spErase m k) k' = if k' = k then d k else spGet d m k' := by
  induction m with
  | nil => by_cases h : k' = k <;> simp [spErase, spGet, h]
  | cons x t ih =>
    obtain ⟨a, v⟩ := x
    by_cases h1 : k = a <;> by_cases h2 : k' = k <;> by_cases h3 : k' = a <;> simp_all [spErase, spGet]

theorem spGet_insert (d : Nat → α) (m : Sparse α) (k k' : Nat) (v : α) :
    spGet d (spInsert m k v) k' = if k' = k then v else spGet d m k' := by
  induction m with
  | nil => by_cases h : k' = k <;> simp [spInsert, spGet, h]
  | cons x t ih =>
    obtain ⟨a, w⟩ := x
    by_cases h1 : k < a
    · by_cases h2 : k' = k <;> simp [spInsert, spGet, h1, h2]
    · by_cases h3 : k = a
      · subst h3
        by_cases h2 : k' = k <;> simp [spInsert, spGet, h2]
      · simp only [spInsert, h1, h3, if_false, spGet, ih]
        by_cases h2 : k' = k <;> by_cases h4 : k' = a <;> simp_all

/-- A key reads as what was set there; every other key reads as before. -/
theorem spGet_set [DecidableEq α] (d : Nat → α) (m : Sparse α) (k k' : Nat) (v : α) :
    spGet d (spSet d m k v) k' = if k' = k then v else spGet d m k' := by
  unfold spSet
  split
  · rename_i h; rw [spGet_erase]; split <;> simp_all
  · rw [spGet_insert]

@[simp] theorem spGet_set_same [DecidableEq α] (d : Nat → α) (m : Sparse α) (k : Nat) (v : α) :
    spGet d (spSet d m k v) k = v := by simp [spGet_set]

theorem spGet_set_ne [DecidableEq α] (d : Nat → α) (m : Sparse α) {k k' : Nat} (v : α) (h : k' ≠ k) :
    spGet d (spSet d m k v) k' = spGet d m k' := by simp [spGet_set, h]

/-! ### The canonical form -/

/-- A bound on the keys may be lowered. -/
theorem spWfFrom_weaken [DecidableEq α] {d : Nat → α} {m : Sparse α} {lo lo' : Option Nat}
    (h : spWfFrom d lo m = true) (hl : ∀ a, lo' = some a → ∃ b, lo = some b ∧ a ≤ b) :
    spWfFrom d lo' m = true := by
  cases m with
  | nil => rfl
  | cons x t =>
    obtain ⟨k, v⟩ := x
    simp only [spWfFrom, Bool.and_eq_true] at h ⊢
    refine ⟨⟨?_, h.1.2⟩, h.2⟩
    cases lo' with
    | none => rfl
    | some a =>
      obtain ⟨b, rfl, hab⟩ := hl a rfl
      simp at h ⊢; omega

theorem spWfFrom_erase [DecidableEq α] {d : Nat → α} (k : Nat) :
    ∀ {m : Sparse α} {lo : Option Nat}, spWfFrom d lo m = true → spWfFrom d lo (spErase m k) = true
  | [], _, _ => rfl
  | (a, v) :: t, lo, h => by
    simp only [spWfFrom, Bool.and_eq_true] at h
    simp only [spErase]
    split
    · exact spWfFrom_erase k (spWfFrom_weaken h.2 (by
        intro b hb; subst hb; simp at h; exact ⟨a, rfl, by omega⟩))
    · simp only [spWfFrom, Bool.and_eq_true]
      exact ⟨h.1, spWfFrom_erase k h.2⟩

theorem spWfFrom_insert [DecidableEq α] {d : Nat → α} {k : Nat} {w : α} (hw : w ≠ d k) :
    ∀ {m : Sparse α} {lo : Option Nat}, (∀ a, lo = some a → a < k) → spWfFrom d lo m = true →
      spWfFrom d lo (spInsert m k w) = true
  | [], lo, hl, _ => by
    cases lo with
    | none => simp [spInsert, spWfFrom, hw]
    | some a => simp [spInsert, spWfFrom, hw, hl a rfl]
  | (a, v) :: t, lo, hl, h => by
    simp only [spWfFrom, Bool.and_eq_true] at h
    simp only [spInsert]
    split
    · rename_i hka
      simp only [spWfFrom, Bool.and_eq_true]
      refine ⟨⟨?_, by simpa using hw⟩, ⟨⟨by simpa using hka, h.1.2⟩, h.2⟩⟩
      cases lo with
      | none => rfl
      | some b => simpa using hl b rfl
    · split
      · rename_i _ hka
        subst hka
        simp only [spWfFrom, Bool.and_eq_true]
        exact ⟨⟨h.1.1, by simpa using hw⟩, h.2⟩
      · rename_i h1 h2
        simp only [spWfFrom, Bool.and_eq_true]
        exact ⟨h.1, spWfFrom_insert hw (by intro b hb; cases hb; omega) h.2⟩

theorem spWf_erase [DecidableEq α] {d : Nat → α} {m : Sparse α} (h : spWf d m = true) (k : Nat) :
    spWf d (spErase m k) = true := spWfFrom_erase k h

theorem spWf_set [DecidableEq α] {d : Nat → α} {m : Sparse α} (h : spWf d m = true) (k : Nat) (v : α) :
    spWf d (spSet d m k v) = true := by
  unfold spSet
  split
  · exact spWfFrom_erase k h
  · rename_i hv; exact spWfFrom_insert hv (by simp) h

theorem spWfFrom_filter [DecidableEq α] {d : Nat → α} (p : Nat × α → Bool) :
    ∀ {m : Sparse α} {lo : Option Nat}, spWfFrom d lo m = true → spWfFrom d lo (m.filter p) = true
  | [], _, _ => rfl
  | (a, v) :: t, lo, h => by
    simp only [spWfFrom, Bool.and_eq_true] at h
    simp only [List.filter_cons]
    split
    · simp only [spWfFrom, Bool.and_eq_true]
      exact ⟨h.1, spWfFrom_filter p h.2⟩
    · exact spWfFrom_filter p (spWfFrom_weaken h.2 (by
        intro b hb; subst hb; simp at h; exact ⟨a, rfl, by omega⟩))

theorem spWf_filter [DecidableEq α] {d : Nat → α} {m : Sparse α} (h : spWf d m = true) (p : Nat × α → Bool) :
    spWf d (m.filter p) = true := spWfFrom_filter p h

end Sys2Proof.Machine
end

