-- ==== Sys2Proof/Laws/With.lean ====
section
/-! SUPPORT. One part of the state replaced: it reads as the new value, every other part as before. -/

namespace Sys2Proof.Machine

set_option linter.all false

variable (s : State)

/-! `State.withRegs` -/

@[simp] theorem State.withRegs_regs (x : Sparse Word) : (s.withRegs x).regs = x := by rfl
@[simp] theorem State.withRegs_mem (x : Sparse Word) : (s.withRegs x).mem = s.mem := by rfl
@[simp] theorem State.withRegs_poison (x : Sparse Word) : (s.withRegs x).poison = s.poison := by rfl
@[simp] theorem State.withRegs_zeroMap (x : Sparse Word) : (s.withRegs x).zeroMap = s.zeroMap := by rfl
@[simp] theorem State.withRegs_ddr (x : Sparse Word) : (s.withRegs x).ddr = s.ddr := by rfl
@[simp] theorem State.withRegs_chCe (x : Sparse Word) : (s.withRegs x).chCe = s.chCe := by rfl
@[simp] theorem State.withRegs_chTimes (x : Sparse Word) : (s.withRegs x).chTimes = s.chTimes := by rfl
@[simp] theorem State.withRegs_chTold (x : Sparse Word) : (s.withRegs x).chTold = s.chTold := by rfl
@[simp] theorem State.withRegs_tiles (x : Sparse Word) : (s.withRegs x).tiles = s.tiles := by rfl
@[simp] theorem State.withRegs_prm (x : Sparse Word) : (s.withRegs x).prm = s.prm := by rfl
@[simp] theorem State.withRegs_pav (x : Sparse Word) : (s.withRegs x).pav = s.pav := by rfl
@[simp] theorem State.withRegs_frames (x : Sparse Word) : (s.withRegs x).frames = s.frames := by rfl
@[simp] theorem State.withRegs_arb (x : Sparse Word) : (s.withRegs x).arb = s.arb := by rfl
@[simp] theorem State.withRegs_passed (x : Sparse Word) : (s.withRegs x).passed = s.passed := by rfl
@[simp] theorem State.withRegs_acm (x : Sparse Word) : (s.withRegs x).acm = s.acm := by rfl
@[simp] theorem State.withRegs_emt (x : Sparse Word) : (s.withRegs x).emt = s.emt := by rfl
@[simp] theorem State.withRegs_site (x : Sparse Word) : (s.withRegs x).site = s.site := by rfl
@[simp] theorem State.withRegs_tb (x : Sparse Word) : (s.withRegs x).tb = s.tb := by rfl
@[simp] theorem State.withRegs_clk (x : Sparse Word) : (s.withRegs x).clk = s.clk := by rfl
@[simp] theorem State.withRegs_eth (x : Sparse Word) : (s.withRegs x).eth = s.eth := by rfl
@[simp] theorem State.withRegs_sch (x : Sparse Word) : (s.withRegs x).sch = s.sch := by rfl
@[simp] theorem State.withRegs_cph (x : Sparse Word) : (s.withRegs x).cph = s.cph := by rfl
@[simp] theorem State.withRegs_te (x : Sparse Word) : (s.withRegs x).te = s.te := by rfl
@[simp] theorem State.withRegs_nve (x : Sparse Word) : (s.withRegs x).nve = s.nve := by rfl
@[simp] theorem State.withRegs_hif (x : Sparse Word) : (s.withRegs x).hif = s.hif := by rfl
@[simp] theorem State.withRegs_pcie (x : Sparse Word) : (s.withRegs x).pcie = s.pcie := by rfl
@[simp] theorem State.withRegs_harts (x : Sparse Word) : (s.withRegs x).harts = s.harts := by rfl
@[simp] theorem State.withRegs_aia (x : Sparse Word) : (s.withRegs x).aia = s.aia := by rfl
@[simp] theorem State.withRegs_cache (x : Sparse Word) : (s.withRegs x).cache = s.cache := by rfl
@[simp] theorem State.withRegs_pwr (x : Sparse Word) : (s.withRegs x).pwr = s.pwr := by rfl
@[simp] theorem State.withRegs_boot (x : Sparse Word) : (s.withRegs x).boot = s.boot := by rfl
@[simp] theorem State.withRegs_wkt (x : Sparse Word) : (s.withRegs x).wkt = s.wkt := by rfl
@[simp] theorem State.withRegs_pins (x : Sparse Word) : (s.withRegs x).pins = s.pins := by rfl
@[simp] theorem State.withRegs_lost (x : Sparse Word) : (s.withRegs x).lost = s.lost := by rfl
@[simp] theorem State.withRegs_out (x : Sparse Word) : (s.withRegs x).out = s.out := by rfl
@[simp] theorem State.withRegs_free (x : Sparse Word) : (s.withRegs x).free = s.free := by rfl
@[simp] theorem State.withRegs_pending (x : Sparse Word) : (s.withRegs x).pending = s.pending := by rfl
@[simp] theorem State.withRegs_byte (x : Sparse Word) (a : Nat) : (s.withRegs x).byte a = s.byte a := by rfl
@[simp] theorem State.withRegs_plan (x : Sparse Word) : (s.withRegs x).plan = s.plan := by rfl

/-! `State.withMem` -/

@[simp] theorem State.withMem_regs (x : List Host.Cell) : (s.withMem x).regs = s.regs := by rfl
@[simp] theorem State.withMem_mem (x : List Host.Cell) : (s.withMem x).mem = x := by rfl
@[simp] theorem State.withMem_poison (x : List Host.Cell) : (s.withMem x).poison = s.poison := by rfl
@[simp] theorem State.withMem_zeroMap (x : List Host.Cell) : (s.withMem x).zeroMap = s.zeroMap := by rfl
@[simp] theorem State.withMem_ddr (x : List Host.Cell) : (s.withMem x).ddr = s.ddr := by rfl
@[simp] theorem State.withMem_chCe (x : List Host.Cell) : (s.withMem x).chCe = s.chCe := by rfl
@[simp] theorem State.withMem_chTimes (x : List Host.Cell) : (s.withMem x).chTimes = s.chTimes := by rfl
@[simp] theorem State.withMem_chTold (x : List Host.Cell) : (s.withMem x).chTold = s.chTold := by rfl
@[simp] theorem State.withMem_tiles (x : List Host.Cell) : (s.withMem x).tiles = s.tiles := by rfl
@[simp] theorem State.withMem_prm (x : List Host.Cell) : (s.withMem x).prm = s.prm := by rfl
@[simp] theorem State.withMem_pav (x : List Host.Cell) : (s.withMem x).pav = s.pav := by rfl
@[simp] theorem State.withMem_frames (x : List Host.Cell) : (s.withMem x).frames = s.frames := by rfl
@[simp] theorem State.withMem_arb (x : List Host.Cell) : (s.withMem x).arb = s.arb := by rfl
@[simp] theorem State.withMem_passed (x : List Host.Cell) : (s.withMem x).passed = s.passed := by rfl
@[simp] theorem State.withMem_acm (x : List Host.Cell) : (s.withMem x).acm = s.acm := by rfl
@[simp] theorem State.withMem_emt (x : List Host.Cell) : (s.withMem x).emt = s.emt := by rfl
@[simp] theorem State.withMem_site (x : List Host.Cell) : (s.withMem x).site = s.site := by rfl
@[simp] theorem State.withMem_tb (x : List Host.Cell) : (s.withMem x).tb = s.tb := by rfl
@[simp] theorem State.withMem_clk (x : List Host.Cell) : (s.withMem x).clk = s.clk := by rfl
@[simp] theorem State.withMem_eth (x : List Host.Cell) : (s.withMem x).eth = s.eth := by rfl
@[simp] theorem State.withMem_sch (x : List Host.Cell) : (s.withMem x).sch = s.sch := by rfl
@[simp] theorem State.withMem_cph (x : List Host.Cell) : (s.withMem x).cph = s.cph := by rfl
@[simp] theorem State.withMem_te (x : List Host.Cell) : (s.withMem x).te = s.te := by rfl
@[simp] theorem State.withMem_nve (x : List Host.Cell) : (s.withMem x).nve = s.nve := by rfl
@[simp] theorem State.withMem_hif (x : List Host.Cell) : (s.withMem x).hif = s.hif := by rfl
@[simp] theorem State.withMem_pcie (x : List Host.Cell) : (s.withMem x).pcie = s.pcie := by rfl
@[simp] theorem State.withMem_harts (x : List Host.Cell) : (s.withMem x).harts = s.harts := by rfl
@[simp] theorem State.withMem_aia (x : List Host.Cell) : (s.withMem x).aia = s.aia := by rfl
@[simp] theorem State.withMem_cache (x : List Host.Cell) : (s.withMem x).cache = s.cache := by rfl
@[simp] theorem State.withMem_pwr (x : List Host.Cell) : (s.withMem x).pwr = s.pwr := by rfl
@[simp] theorem State.withMem_boot (x : List Host.Cell) : (s.withMem x).boot = s.boot := by rfl
@[simp] theorem State.withMem_wkt (x : List Host.Cell) : (s.withMem x).wkt = s.wkt := by rfl
@[simp] theorem State.withMem_pins (x : List Host.Cell) : (s.withMem x).pins = s.pins := by rfl
@[simp] theorem State.withMem_lost (x : List Host.Cell) : (s.withMem x).lost = s.lost := by rfl
@[simp] theorem State.withMem_out (x : List Host.Cell) : (s.withMem x).out = s.out := by rfl
@[simp] theorem State.withMem_free (x : List Host.Cell) : (s.withMem x).free = s.free := by rfl
@[simp] theorem State.withMem_pending (x : List Host.Cell) : (s.withMem x).pending = s.pending := by rfl
@[simp] theorem State.withMem_rd (x : List Host.Cell) (o : Nat) : (s.withMem x).rd o = s.rd o := by rfl
@[simp] theorem State.withMem_get (x : List Host.Cell) (f : Fld) : (s.withMem x).get f = s.get f := by rfl
@[simp] theorem State.withMem_phase (x : List Host.Cell) : (s.withMem x).phase = s.phase := by rfl
@[simp] theorem State.withMem_plan (x : List Host.Cell) : (s.withMem x).plan = s.plan := by rfl

/-! `State.withPoison` -/

@[simp] theorem State.withPoison_regs (x : Sparse Bool) : (s.withPoison x).regs = s.regs := by rfl
@[simp] theorem State.withPoison_mem (x : Sparse Bool) : (s.withPoison x).mem = s.mem := by rfl
@[simp] theorem State.withPoison_poison (x : Sparse Bool) : (s.withPoison x).poison = x := by rfl
@[simp] theorem State.withPoison_zeroMap (x : Sparse Bool) : (s.withPoison x).zeroMap = s.zeroMap := by rfl
@[simp] theorem State.withPoison_ddr (x : Sparse Bool) : (s.withPoison x).ddr = s.ddr := by rfl
@[simp] theorem State.withPoison_chCe (x : Sparse Bool) : (s.withPoison x).chCe = s.chCe := by rfl
@[simp] theorem State.withPoison_chTimes (x : Sparse Bool) : (s.withPoison x).chTimes = s.chTimes := by rfl
@[simp] theorem State.withPoison_chTold (x : Sparse Bool) : (s.withPoison x).chTold = s.chTold := by rfl
@[simp] theorem State.withPoison_tiles (x : Sparse Bool) : (s.withPoison x).tiles = s.tiles := by rfl
@[simp] theorem State.withPoison_prm (x : Sparse Bool) : (s.withPoison x).prm = s.prm := by rfl
@[simp] theorem State.withPoison_pav (x : Sparse Bool) : (s.withPoison x).pav = s.pav := by rfl
@[simp] theorem State.withPoison_frames (x : Sparse Bool) : (s.withPoison x).frames = s.frames := by rfl
@[simp] theorem State.withPoison_arb (x : Sparse Bool) : (s.withPoison x).arb = s.arb := by rfl
@[simp] theorem State.withPoison_passed (x : Sparse Bool) : (s.withPoison x).passed = s.passed := by rfl
@[simp] theorem State.withPoison_acm (x : Sparse Bool) : (s.withPoison x).acm = s.acm := by rfl
@[simp] theorem State.withPoison_emt (x : Sparse Bool) : (s.withPoison x).emt = s.emt := by rfl
@[simp] theorem State.withPoison_site (x : Sparse Bool) : (s.withPoison x).site = s.site := by rfl
@[simp] theorem State.withPoison_tb (x : Sparse Bool) : (s.withPoison x).tb = s.tb := by rfl
@[simp] theorem State.withPoison_clk (x : Sparse Bool) : (s.withPoison x).clk = s.clk := by rfl
@[simp] theorem State.withPoison_eth (x : Sparse Bool) : (s.withPoison x).eth = s.eth := by rfl
@[simp] theorem State.withPoison_sch (x : Sparse Bool) : (s.withPoison x).sch = s.sch := by rfl
@[simp] theorem State.withPoison_cph (x : Sparse Bool) : (s.withPoison x).cph = s.cph := by rfl
@[simp] theorem State.withPoison_te (x : Sparse Bool) : (s.withPoison x).te = s.te := by rfl
@[simp] theorem State.withPoison_nve (x : Sparse Bool) : (s.withPoison x).nve = s.nve := by rfl
@[simp] theorem State.withPoison_hif (x : Sparse Bool) : (s.withPoison x).hif = s.hif := by rfl
@[simp] theorem State.withPoison_pcie (x : Sparse Bool) : (s.withPoison x).pcie = s.pcie := by rfl
@[simp] theorem State.withPoison_harts (x : Sparse Bool) : (s.withPoison x).harts = s.harts := by rfl
@[simp] theorem State.withPoison_aia (x : Sparse Bool) : (s.withPoison x).aia = s.aia := by rfl
@[simp] theorem State.withPoison_cache (x : Sparse Bool) : (s.withPoison x).cache = s.cache := by rfl
@[simp] theorem State.withPoison_pwr (x : Sparse Bool) : (s.withPoison x).pwr = s.pwr := by rfl
@[simp] theorem State.withPoison_boot (x : Sparse Bool) : (s.withPoison x).boot = s.boot := by rfl
@[simp] theorem State.withPoison_wkt (x : Sparse Bool) : (s.withPoison x).wkt = s.wkt := by rfl
@[simp] theorem State.withPoison_pins (x : Sparse Bool) : (s.withPoison x).pins = s.pins := by rfl
@[simp] theorem State.withPoison_lost (x : Sparse Bool) : (s.withPoison x).lost = s.lost := by rfl
@[simp] theorem State.withPoison_out (x : Sparse Bool) : (s.withPoison x).out = s.out := by rfl
@[simp] theorem State.withPoison_free (x : Sparse Bool) : (s.withPoison x).free = s.free := by rfl
@[simp] theorem State.withPoison_pending (x : Sparse Bool) : (s.withPoison x).pending = s.pending := by rfl
@[simp] theorem State.withPoison_rd (x : Sparse Bool) (o : Nat) : (s.withPoison x).rd o = s.rd o := by rfl
@[simp] theorem State.withPoison_get (x : Sparse Bool) (f : Fld) : (s.withPoison x).get f = s.get f := by rfl
@[simp] theorem State.withPoison_phase (x : Sparse Bool) : (s.withPoison x).phase = s.phase := by rfl
@[simp] theorem State.withPoison_byte (x : Sparse Bool) (a : Nat) : (s.withPoison x).byte a = s.byte a := by rfl
@[simp] theorem State.withPoison_plan (x : Sparse Bool) : (s.withPoison x).plan = s.plan := by rfl

/-! `State.withZeroMap` -/

@[simp] theorem State.withZeroMap_regs (x : List (Nat × Nat)) : (s.withZeroMap x).regs = s.regs := by rfl
@[simp] theorem State.withZeroMap_mem (x : List (Nat × Nat)) : (s.withZeroMap x).mem = s.mem := by rfl
@[simp] theorem State.withZeroMap_poison (x : List (Nat × Nat)) : (s.withZeroMap x).poison = s.poison := by rfl
@[simp] theorem State.withZeroMap_zeroMap (x : List (Nat × Nat)) : (s.withZeroMap x).zeroMap = x := by rfl
@[simp] theorem State.withZeroMap_ddr (x : List (Nat × Nat)) : (s.withZeroMap x).ddr = s.ddr := by rfl
@[simp] theorem State.withZeroMap_chCe (x : List (Nat × Nat)) : (s.withZeroMap x).chCe = s.chCe := by rfl
@[simp] theorem State.withZeroMap_chTimes (x : List (Nat × Nat)) : (s.withZeroMap x).chTimes = s.chTimes := by rfl
@[simp] theorem State.withZeroMap_chTold (x : List (Nat × Nat)) : (s.withZeroMap x).chTold = s.chTold := by rfl
@[simp] theorem State.withZeroMap_tiles (x : List (Nat × Nat)) : (s.withZeroMap x).tiles = s.tiles := by rfl
@[simp] theorem State.withZeroMap_prm (x : List (Nat × Nat)) : (s.withZeroMap x).prm = s.prm := by rfl
@[simp] theorem State.withZeroMap_pav (x : List (Nat × Nat)) : (s.withZeroMap x).pav = s.pav := by rfl
@[simp] theorem State.withZeroMap_frames (x : List (Nat × Nat)) : (s.withZeroMap x).frames = s.frames := by rfl
@[simp] theorem State.withZeroMap_arb (x : List (Nat × Nat)) : (s.withZeroMap x).arb = s.arb := by rfl
@[simp] theorem State.withZeroMap_passed (x : List (Nat × Nat)) : (s.withZeroMap x).passed = s.passed := by rfl
@[simp] theorem State.withZeroMap_acm (x : List (Nat × Nat)) : (s.withZeroMap x).acm = s.acm := by rfl
@[simp] theorem State.withZeroMap_emt (x : List (Nat × Nat)) : (s.withZeroMap x).emt = s.emt := by rfl
@[simp] theorem State.withZeroMap_site (x : List (Nat × Nat)) : (s.withZeroMap x).site = s.site := by rfl
@[simp] theorem State.withZeroMap_tb (x : List (Nat × Nat)) : (s.withZeroMap x).tb = s.tb := by rfl
@[simp] theorem State.withZeroMap_clk (x : List (Nat × Nat)) : (s.withZeroMap x).clk = s.clk := by rfl
@[simp] theorem State.withZeroMap_eth (x : List (Nat × Nat)) : (s.withZeroMap x).eth = s.eth := by rfl
@[simp] theorem State.withZeroMap_sch (x : List (Nat × Nat)) : (s.withZeroMap x).sch = s.sch := by rfl
@[simp] theorem State.withZeroMap_cph (x : List (Nat × Nat)) : (s.withZeroMap x).cph = s.cph := by rfl
@[simp] theorem State.withZeroMap_te (x : List (Nat × Nat)) : (s.withZeroMap x).te = s.te := by rfl
@[simp] theorem State.withZeroMap_nve (x : List (Nat × Nat)) : (s.withZeroMap x).nve = s.nve := by rfl
@[simp] theorem State.withZeroMap_hif (x : List (Nat × Nat)) : (s.withZeroMap x).hif = s.hif := by rfl
@[simp] theorem State.withZeroMap_pcie (x : List (Nat × Nat)) : (s.withZeroMap x).pcie = s.pcie := by rfl
@[simp] theorem State.withZeroMap_harts (x : List (Nat × Nat)) : (s.withZeroMap x).harts = s.harts := by rfl
@[simp] theorem State.withZeroMap_aia (x : List (Nat × Nat)) : (s.withZeroMap x).aia = s.aia := by rfl
@[simp] theorem State.withZeroMap_cache (x : List (Nat × Nat)) : (s.withZeroMap x).cache = s.cache := by rfl
@[simp] theorem State.withZeroMap_pwr (x : List (Nat × Nat)) : (s.withZeroMap x).pwr = s.pwr := by rfl
@[simp] theorem State.withZeroMap_boot (x : List (Nat × Nat)) : (s.withZeroMap x).boot = s.boot := by rfl
@[simp] theorem State.withZeroMap_wkt (x : List (Nat × Nat)) : (s.withZeroMap x).wkt = s.wkt := by rfl
@[simp] theorem State.withZeroMap_pins (x : List (Nat × Nat)) : (s.withZeroMap x).pins = s.pins := by rfl
@[simp] theorem State.withZeroMap_lost (x : List (Nat × Nat)) : (s.withZeroMap x).lost = s.lost := by rfl
@[simp] theorem State.withZeroMap_out (x : List (Nat × Nat)) : (s.withZeroMap x).out = s.out := by rfl
@[simp] theorem State.withZeroMap_free (x : List (Nat × Nat)) : (s.withZeroMap x).free = s.free := by rfl
@[simp] theorem State.withZeroMap_pending (x : List (Nat × Nat)) : (s.withZeroMap x).pending = s.pending := by rfl
@[simp] theorem State.withZeroMap_rd (x : List (Nat × Nat)) (o : Nat) : (s.withZeroMap x).rd o = s.rd o := by rfl
@[simp] theorem State.withZeroMap_get (x : List (Nat × Nat)) (f : Fld) : (s.withZeroMap x).get f = s.get f := by rfl
@[simp] theorem State.withZeroMap_phase (x : List (Nat × Nat)) : (s.withZeroMap x).phase = s.phase := by rfl
@[simp] theorem State.withZeroMap_byte (x : List (Nat × Nat)) (a : Nat) : (s.withZeroMap x).byte a = s.byte a := by rfl
@[simp] theorem State.withZeroMap_plan (x : List (Nat × Nat)) : (s.withZeroMap x).plan = s.plan := by rfl

/-! `State.withDdr` -/

@[simp] theorem State.withDdr_regs (x : List Nat) : (s.withDdr x).regs = s.regs := by rfl
@[simp] theorem State.withDdr_mem (x : List Nat) : (s.withDdr x).mem = s.mem := by rfl
@[simp] theorem State.withDdr_poison (x : List Nat) : (s.withDdr x).poison = s.poison := by rfl
@[simp] theorem State.withDdr_zeroMap (x : List Nat) : (s.withDdr x).zeroMap = s.zeroMap := by rfl
@[simp] theorem State.withDdr_ddr (x : List Nat) : (s.withDdr x).ddr = x := by rfl
@[simp] theorem State.withDdr_chCe (x : List Nat) : (s.withDdr x).chCe = s.chCe := by rfl
@[simp] theorem State.withDdr_chTimes (x : List Nat) : (s.withDdr x).chTimes = s.chTimes := by rfl
@[simp] theorem State.withDdr_chTold (x : List Nat) : (s.withDdr x).chTold = s.chTold := by rfl
@[simp] theorem State.withDdr_tiles (x : List Nat) : (s.withDdr x).tiles = s.tiles := by rfl
@[simp] theorem State.withDdr_prm (x : List Nat) : (s.withDdr x).prm = s.prm := by rfl
@[simp] theorem State.withDdr_pav (x : List Nat) : (s.withDdr x).pav = s.pav := by rfl
@[simp] theorem State.withDdr_frames (x : List Nat) : (s.withDdr x).frames = s.frames := by rfl
@[simp] theorem State.withDdr_arb (x : List Nat) : (s.withDdr x).arb = s.arb := by rfl
@[simp] theorem State.withDdr_passed (x : List Nat) : (s.withDdr x).passed = s.passed := by rfl
@[simp] theorem State.withDdr_acm (x : List Nat) : (s.withDdr x).acm = s.acm := by rfl
@[simp] theorem State.withDdr_emt (x : List Nat) : (s.withDdr x).emt = s.emt := by rfl
@[simp] theorem State.withDdr_site (x : List Nat) : (s.withDdr x).site = s.site := by rfl
@[simp] theorem State.withDdr_tb (x : List Nat) : (s.withDdr x).tb = s.tb := by rfl
@[simp] theorem State.withDdr_clk (x : List Nat) : (s.withDdr x).clk = s.clk := by rfl
@[simp] theorem State.withDdr_eth (x : List Nat) : (s.withDdr x).eth = s.eth := by rfl
@[simp] theorem State.withDdr_sch (x : List Nat) : (s.withDdr x).sch = s.sch := by rfl
@[simp] theorem State.withDdr_cph (x : List Nat) : (s.withDdr x).cph = s.cph := by rfl
@[simp] theorem State.withDdr_te (x : List Nat) : (s.withDdr x).te = s.te := by rfl
@[simp] theorem State.withDdr_nve (x : List Nat) : (s.withDdr x).nve = s.nve := by rfl
@[simp] theorem State.withDdr_hif (x : List Nat) : (s.withDdr x).hif = s.hif := by rfl
@[simp] theorem State.withDdr_pcie (x : List Nat) : (s.withDdr x).pcie = s.pcie := by rfl
@[simp] theorem State.withDdr_harts (x : List Nat) : (s.withDdr x).harts = s.harts := by rfl
@[simp] theorem State.withDdr_aia (x : List Nat) : (s.withDdr x).aia = s.aia := by rfl
@[simp] theorem State.withDdr_cache (x : List Nat) : (s.withDdr x).cache = s.cache := by rfl
@[simp] theorem State.withDdr_pwr (x : List Nat) : (s.withDdr x).pwr = s.pwr := by rfl
@[simp] theorem State.withDdr_boot (x : List Nat) : (s.withDdr x).boot = s.boot := by rfl
@[simp] theorem State.withDdr_wkt (x : List Nat) : (s.withDdr x).wkt = s.wkt := by rfl
@[simp] theorem State.withDdr_pins (x : List Nat) : (s.withDdr x).pins = s.pins := by rfl
@[simp] theorem State.withDdr_lost (x : List Nat) : (s.withDdr x).lost = s.lost := by rfl
@[simp] theorem State.withDdr_out (x : List Nat) : (s.withDdr x).out = s.out := by rfl
@[simp] theorem State.withDdr_free (x : List Nat) : (s.withDdr x).free = s.free := by rfl
@[simp] theorem State.withDdr_pending (x : List Nat) : (s.withDdr x).pending = s.pending := by rfl
@[simp] theorem State.withDdr_rd (x : List Nat) (o : Nat) : (s.withDdr x).rd o = s.rd o := by rfl
@[simp] theorem State.withDdr_get (x : List Nat) (f : Fld) : (s.withDdr x).get f = s.get f := by rfl
@[simp] theorem State.withDdr_phase (x : List Nat) : (s.withDdr x).phase = s.phase := by rfl
@[simp] theorem State.withDdr_byte (x : List Nat) (a : Nat) : (s.withDdr x).byte a = s.byte a := by rfl
@[simp] theorem State.withDdr_plan (x : List Nat) : (s.withDdr x).plan = s.plan := by rfl

/-! `State.withChCe` -/

@[simp] theorem State.withChCe_regs (x : Sparse Nat) : (s.withChCe x).regs = s.regs := by rfl
@[simp] theorem State.withChCe_mem (x : Sparse Nat) : (s.withChCe x).mem = s.mem := by rfl
@[simp] theorem State.withChCe_poison (x : Sparse Nat) : (s.withChCe x).poison = s.poison := by rfl
@[simp] theorem State.withChCe_zeroMap (x : Sparse Nat) : (s.withChCe x).zeroMap = s.zeroMap := by rfl
@[simp] theorem State.withChCe_ddr (x : Sparse Nat) : (s.withChCe x).ddr = s.ddr := by rfl
@[simp] theorem State.withChCe_chCe (x : Sparse Nat) : (s.withChCe x).chCe = x := by rfl
@[simp] theorem State.withChCe_chTimes (x : Sparse Nat) : (s.withChCe x).chTimes = s.chTimes := by rfl
@[simp] theorem State.withChCe_chTold (x : Sparse Nat) : (s.withChCe x).chTold = s.chTold := by rfl
@[simp] theorem State.withChCe_tiles (x : Sparse Nat) : (s.withChCe x).tiles = s.tiles := by rfl
@[simp] theorem State.withChCe_prm (x : Sparse Nat) : (s.withChCe x).prm = s.prm := by rfl
@[simp] theorem State.withChCe_pav (x : Sparse Nat) : (s.withChCe x).pav = s.pav := by rfl
@[simp] theorem State.withChCe_frames (x : Sparse Nat) : (s.withChCe x).frames = s.frames := by rfl
@[simp] theorem State.withChCe_arb (x : Sparse Nat) : (s.withChCe x).arb = s.arb := by rfl
@[simp] theorem State.withChCe_passed (x : Sparse Nat) : (s.withChCe x).passed = s.passed := by rfl
@[simp] theorem State.withChCe_acm (x : Sparse Nat) : (s.withChCe x).acm = s.acm := by rfl
@[simp] theorem State.withChCe_emt (x : Sparse Nat) : (s.withChCe x).emt = s.emt := by rfl
@[simp] theorem State.withChCe_site (x : Sparse Nat) : (s.withChCe x).site = s.site := by rfl
@[simp] theorem State.withChCe_tb (x : Sparse Nat) : (s.withChCe x).tb = s.tb := by rfl
@[simp] theorem State.withChCe_clk (x : Sparse Nat) : (s.withChCe x).clk = s.clk := by rfl
@[simp] theorem State.withChCe_eth (x : Sparse Nat) : (s.withChCe x).eth = s.eth := by rfl
@[simp] theorem State.withChCe_sch (x : Sparse Nat) : (s.withChCe x).sch = s.sch := by rfl
@[simp] theorem State.withChCe_cph (x : Sparse Nat) : (s.withChCe x).cph = s.cph := by rfl
@[simp] theorem State.withChCe_te (x : Sparse Nat) : (s.withChCe x).te = s.te := by rfl
@[simp] theorem State.withChCe_nve (x : Sparse Nat) : (s.withChCe x).nve = s.nve := by rfl
@[simp] theorem State.withChCe_hif (x : Sparse Nat) : (s.withChCe x).hif = s.hif := by rfl
@[simp] theorem State.withChCe_pcie (x : Sparse Nat) : (s.withChCe x).pcie = s.pcie := by rfl
@[simp] theorem State.withChCe_harts (x : Sparse Nat) : (s.withChCe x).harts = s.harts := by rfl
@[simp] theorem State.withChCe_aia (x : Sparse Nat) : (s.withChCe x).aia = s.aia := by rfl
@[simp] theorem State.withChCe_cache (x : Sparse Nat) : (s.withChCe x).cache = s.cache := by rfl
@[simp] theorem State.withChCe_pwr (x : Sparse Nat) : (s.withChCe x).pwr = s.pwr := by rfl
@[simp] theorem State.withChCe_boot (x : Sparse Nat) : (s.withChCe x).boot = s.boot := by rfl
@[simp] theorem State.withChCe_wkt (x : Sparse Nat) : (s.withChCe x).wkt = s.wkt := by rfl
@[simp] theorem State.withChCe_pins (x : Sparse Nat) : (s.withChCe x).pins = s.pins := by rfl
@[simp] theorem State.withChCe_lost (x : Sparse Nat) : (s.withChCe x).lost = s.lost := by rfl
@[simp] theorem State.withChCe_out (x : Sparse Nat) : (s.withChCe x).out = s.out := by rfl
@[simp] theorem State.withChCe_free (x : Sparse Nat) : (s.withChCe x).free = s.free := by rfl
@[simp] theorem State.withChCe_pending (x : Sparse Nat) : (s.withChCe x).pending = s.pending := by rfl
@[simp] theorem State.withChCe_rd (x : Sparse Nat) (o : Nat) : (s.withChCe x).rd o = s.rd o := by rfl
@[simp] theorem State.withChCe_get (x : Sparse Nat) (f : Fld) : (s.withChCe x).get f = s.get f := by rfl
@[simp] theorem State.withChCe_phase (x : Sparse Nat) : (s.withChCe x).phase = s.phase := by rfl
@[simp] theorem State.withChCe_byte (x : Sparse Nat) (a : Nat) : (s.withChCe x).byte a = s.byte a := by rfl
@[simp] theorem State.withChCe_plan (x : Sparse Nat) : (s.withChCe x).plan = s.plan := by rfl

/-! `State.withChTimes` -/

@[simp] theorem State.withChTimes_regs (x : Sparse (List Nat)) : (s.withChTimes x).regs = s.regs := by rfl
@[simp] theorem State.withChTimes_mem (x : Sparse (List Nat)) : (s.withChTimes x).mem = s.mem := by rfl
@[simp] theorem State.withChTimes_poison (x : Sparse (List Nat)) : (s.withChTimes x).poison = s.poison := by rfl
@[simp] theorem State.withChTimes_zeroMap (x : Sparse (List Nat)) : (s.withChTimes x).zeroMap = s.zeroMap := by rfl
@[simp] theorem State.withChTimes_ddr (x : Sparse (List Nat)) : (s.withChTimes x).ddr = s.ddr := by rfl
@[simp] theorem State.withChTimes_chCe (x : Sparse (List Nat)) : (s.withChTimes x).chCe = s.chCe := by rfl
@[simp] theorem State.withChTimes_chTimes (x : Sparse (List Nat)) : (s.withChTimes x).chTimes = x := by rfl
@[simp] theorem State.withChTimes_chTold (x : Sparse (List Nat)) : (s.withChTimes x).chTold = s.chTold := by rfl
@[simp] theorem State.withChTimes_tiles (x : Sparse (List Nat)) : (s.withChTimes x).tiles = s.tiles := by rfl
@[simp] theorem State.withChTimes_prm (x : Sparse (List Nat)) : (s.withChTimes x).prm = s.prm := by rfl
@[simp] theorem State.withChTimes_pav (x : Sparse (List Nat)) : (s.withChTimes x).pav = s.pav := by rfl
@[simp] theorem State.withChTimes_frames (x : Sparse (List Nat)) : (s.withChTimes x).frames = s.frames := by rfl
@[simp] theorem State.withChTimes_arb (x : Sparse (List Nat)) : (s.withChTimes x).arb = s.arb := by rfl
@[simp] theorem State.withChTimes_passed (x : Sparse (List Nat)) : (s.withChTimes x).passed = s.passed := by rfl
@[simp] theorem State.withChTimes_acm (x : Sparse (List Nat)) : (s.withChTimes x).acm = s.acm := by rfl
@[simp] theorem State.withChTimes_emt (x : Sparse (List Nat)) : (s.withChTimes x).emt = s.emt := by rfl
@[simp] theorem State.withChTimes_site (x : Sparse (List Nat)) : (s.withChTimes x).site = s.site := by rfl
@[simp] theorem State.withChTimes_tb (x : Sparse (List Nat)) : (s.withChTimes x).tb = s.tb := by rfl
@[simp] theorem State.withChTimes_clk (x : Sparse (List Nat)) : (s.withChTimes x).clk = s.clk := by rfl
@[simp] theorem State.withChTimes_eth (x : Sparse (List Nat)) : (s.withChTimes x).eth = s.eth := by rfl
@[simp] theorem State.withChTimes_sch (x : Sparse (List Nat)) : (s.withChTimes x).sch = s.sch := by rfl
@[simp] theorem State.withChTimes_cph (x : Sparse (List Nat)) : (s.withChTimes x).cph = s.cph := by rfl
@[simp] theorem State.withChTimes_te (x : Sparse (List Nat)) : (s.withChTimes x).te = s.te := by rfl
@[simp] theorem State.withChTimes_nve (x : Sparse (List Nat)) : (s.withChTimes x).nve = s.nve := by rfl
@[simp] theorem State.withChTimes_hif (x : Sparse (List Nat)) : (s.withChTimes x).hif = s.hif := by rfl
@[simp] theorem State.withChTimes_pcie (x : Sparse (List Nat)) : (s.withChTimes x).pcie = s.pcie := by rfl
@[simp] theorem State.withChTimes_harts (x : Sparse (List Nat)) : (s.withChTimes x).harts = s.harts := by rfl
@[simp] theorem State.withChTimes_aia (x : Sparse (List Nat)) : (s.withChTimes x).aia = s.aia := by rfl
@[simp] theorem State.withChTimes_cache (x : Sparse (List Nat)) : (s.withChTimes x).cache = s.cache := by rfl
@[simp] theorem State.withChTimes_pwr (x : Sparse (List Nat)) : (s.withChTimes x).pwr = s.pwr := by rfl
@[simp] theorem State.withChTimes_boot (x : Sparse (List Nat)) : (s.withChTimes x).boot = s.boot := by rfl
@[simp] theorem State.withChTimes_wkt (x : Sparse (List Nat)) : (s.withChTimes x).wkt = s.wkt := by rfl
@[simp] theorem State.withChTimes_pins (x : Sparse (List Nat)) : (s.withChTimes x).pins = s.pins := by rfl
@[simp] theorem State.withChTimes_lost (x : Sparse (List Nat)) : (s.withChTimes x).lost = s.lost := by rfl
@[simp] theorem State.withChTimes_out (x : Sparse (List Nat)) : (s.withChTimes x).out = s.out := by rfl
@[simp] theorem State.withChTimes_free (x : Sparse (List Nat)) : (s.withChTimes x).free = s.free := by rfl
@[simp] theorem State.withChTimes_pending (x : Sparse (List Nat)) : (s.withChTimes x).pending = s.pending := by rfl
@[simp] theorem State.withChTimes_rd (x : Sparse (List Nat)) (o : Nat) : (s.withChTimes x).rd o = s.rd o := by rfl
@[simp] theorem State.withChTimes_get (x : Sparse (List Nat)) (f : Fld) : (s.withChTimes x).get f = s.get f := by rfl
@[simp] theorem State.withChTimes_phase (x : Sparse (List Nat)) : (s.withChTimes x).phase = s.phase := by rfl
@[simp] theorem State.withChTimes_byte (x : Sparse (List Nat)) (a : Nat) : (s.withChTimes x).byte a = s.byte a := by rfl
@[simp] theorem State.withChTimes_plan (x : Sparse (List Nat)) : (s.withChTimes x).plan = s.plan := by rfl

/-! `State.withChTold` -/

@[simp] theorem State.withChTold_regs (x : Sparse Nat) : (s.withChTold x).regs = s.regs := by rfl
@[simp] theorem State.withChTold_mem (x : Sparse Nat) : (s.withChTold x).mem = s.mem := by rfl
@[simp] theorem State.withChTold_poison (x : Sparse Nat) : (s.withChTold x).poison = s.poison := by rfl
@[simp] theorem State.withChTold_zeroMap (x : Sparse Nat) : (s.withChTold x).zeroMap = s.zeroMap := by rfl
@[simp] theorem State.withChTold_ddr (x : Sparse Nat) : (s.withChTold x).ddr = s.ddr := by rfl
@[simp] theorem State.withChTold_chCe (x : Sparse Nat) : (s.withChTold x).chCe = s.chCe := by rfl
@[simp] theorem State.withChTold_chTimes (x : Sparse Nat) : (s.withChTold x).chTimes = s.chTimes := by rfl
@[simp] theorem State.withChTold_chTold (x : Sparse Nat) : (s.withChTold x).chTold = x := by rfl
@[simp] theorem State.withChTold_tiles (x : Sparse Nat) : (s.withChTold x).tiles = s.tiles := by rfl
@[simp] theorem State.withChTold_prm (x : Sparse Nat) : (s.withChTold x).prm = s.prm := by rfl
@[simp] theorem State.withChTold_pav (x : Sparse Nat) : (s.withChTold x).pav = s.pav := by rfl
@[simp] theorem State.withChTold_frames (x : Sparse Nat) : (s.withChTold x).frames = s.frames := by rfl
@[simp] theorem State.withChTold_arb (x : Sparse Nat) : (s.withChTold x).arb = s.arb := by rfl
@[simp] theorem State.withChTold_passed (x : Sparse Nat) : (s.withChTold x).passed = s.passed := by rfl
@[simp] theorem State.withChTold_acm (x : Sparse Nat) : (s.withChTold x).acm = s.acm := by rfl
@[simp] theorem State.withChTold_emt (x : Sparse Nat) : (s.withChTold x).emt = s.emt := by rfl
@[simp] theorem State.withChTold_site (x : Sparse Nat) : (s.withChTold x).site = s.site := by rfl
@[simp] theorem State.withChTold_tb (x : Sparse Nat) : (s.withChTold x).tb = s.tb := by rfl
@[simp] theorem State.withChTold_clk (x : Sparse Nat) : (s.withChTold x).clk = s.clk := by rfl
@[simp] theorem State.withChTold_eth (x : Sparse Nat) : (s.withChTold x).eth = s.eth := by rfl
@[simp] theorem State.withChTold_sch (x : Sparse Nat) : (s.withChTold x).sch = s.sch := by rfl
@[simp] theorem State.withChTold_cph (x : Sparse Nat) : (s.withChTold x).cph = s.cph := by rfl
@[simp] theorem State.withChTold_te (x : Sparse Nat) : (s.withChTold x).te = s.te := by rfl
@[simp] theorem State.withChTold_nve (x : Sparse Nat) : (s.withChTold x).nve = s.nve := by rfl
@[simp] theorem State.withChTold_hif (x : Sparse Nat) : (s.withChTold x).hif = s.hif := by rfl
@[simp] theorem State.withChTold_pcie (x : Sparse Nat) : (s.withChTold x).pcie = s.pcie := by rfl
@[simp] theorem State.withChTold_harts (x : Sparse Nat) : (s.withChTold x).harts = s.harts := by rfl
@[simp] theorem State.withChTold_aia (x : Sparse Nat) : (s.withChTold x).aia = s.aia := by rfl
@[simp] theorem State.withChTold_cache (x : Sparse Nat) : (s.withChTold x).cache = s.cache := by rfl
@[simp] theorem State.withChTold_pwr (x : Sparse Nat) : (s.withChTold x).pwr = s.pwr := by rfl
@[simp] theorem State.withChTold_boot (x : Sparse Nat) : (s.withChTold x).boot = s.boot := by rfl
@[simp] theorem State.withChTold_wkt (x : Sparse Nat) : (s.withChTold x).wkt = s.wkt := by rfl
@[simp] theorem State.withChTold_pins (x : Sparse Nat) : (s.withChTold x).pins = s.pins := by rfl
@[simp] theorem State.withChTold_lost (x : Sparse Nat) : (s.withChTold x).lost = s.lost := by rfl
@[simp] theorem State.withChTold_out (x : Sparse Nat) : (s.withChTold x).out = s.out := by rfl
@[simp] theorem State.withChTold_free (x : Sparse Nat) : (s.withChTold x).free = s.free := by rfl
@[simp] theorem State.withChTold_pending (x : Sparse Nat) : (s.withChTold x).pending = s.pending := by rfl
@[simp] theorem State.withChTold_rd (x : Sparse Nat) (o : Nat) : (s.withChTold x).rd o = s.rd o := by rfl
@[simp] theorem State.withChTold_get (x : Sparse Nat) (f : Fld) : (s.withChTold x).get f = s.get f := by rfl
@[simp] theorem State.withChTold_phase (x : Sparse Nat) : (s.withChTold x).phase = s.phase := by rfl
@[simp] theorem State.withChTold_byte (x : Sparse Nat) (a : Nat) : (s.withChTold x).byte a = s.byte a := by rfl
@[simp] theorem State.withChTold_plan (x : Sparse Nat) : (s.withChTold x).plan = s.plan := by rfl

/-! `State.withTiles` -/

@[simp] theorem State.withTiles_regs (x : Sparse Tile) : (s.withTiles x).regs = s.regs := by rfl
@[simp] theorem State.withTiles_mem (x : Sparse Tile) : (s.withTiles x).mem = s.mem := by rfl
@[simp] theorem State.withTiles_poison (x : Sparse Tile) : (s.withTiles x).poison = s.poison := by rfl
@[simp] theorem State.withTiles_zeroMap (x : Sparse Tile) : (s.withTiles x).zeroMap = s.zeroMap := by rfl
@[simp] theorem State.withTiles_ddr (x : Sparse Tile) : (s.withTiles x).ddr = s.ddr := by rfl
@[simp] theorem State.withTiles_chCe (x : Sparse Tile) : (s.withTiles x).chCe = s.chCe := by rfl
@[simp] theorem State.withTiles_chTimes (x : Sparse Tile) : (s.withTiles x).chTimes = s.chTimes := by rfl
@[simp] theorem State.withTiles_chTold (x : Sparse Tile) : (s.withTiles x).chTold = s.chTold := by rfl
@[simp] theorem State.withTiles_tiles (x : Sparse Tile) : (s.withTiles x).tiles = x := by rfl
@[simp] theorem State.withTiles_prm (x : Sparse Tile) : (s.withTiles x).prm = s.prm := by rfl
@[simp] theorem State.withTiles_pav (x : Sparse Tile) : (s.withTiles x).pav = s.pav := by rfl
@[simp] theorem State.withTiles_frames (x : Sparse Tile) : (s.withTiles x).frames = s.frames := by rfl
@[simp] theorem State.withTiles_arb (x : Sparse Tile) : (s.withTiles x).arb = s.arb := by rfl
@[simp] theorem State.withTiles_passed (x : Sparse Tile) : (s.withTiles x).passed = s.passed := by rfl
@[simp] theorem State.withTiles_acm (x : Sparse Tile) : (s.withTiles x).acm = s.acm := by rfl
@[simp] theorem State.withTiles_emt (x : Sparse Tile) : (s.withTiles x).emt = s.emt := by rfl
@[simp] theorem State.withTiles_site (x : Sparse Tile) : (s.withTiles x).site = s.site := by rfl
@[simp] theorem State.withTiles_tb (x : Sparse Tile) : (s.withTiles x).tb = s.tb := by rfl
@[simp] theorem State.withTiles_clk (x : Sparse Tile) : (s.withTiles x).clk = s.clk := by rfl
@[simp] theorem State.withTiles_eth (x : Sparse Tile) : (s.withTiles x).eth = s.eth := by rfl
@[simp] theorem State.withTiles_sch (x : Sparse Tile) : (s.withTiles x).sch = s.sch := by rfl
@[simp] theorem State.withTiles_cph (x : Sparse Tile) : (s.withTiles x).cph = s.cph := by rfl
@[simp] theorem State.withTiles_te (x : Sparse Tile) : (s.withTiles x).te = s.te := by rfl
@[simp] theorem State.withTiles_nve (x : Sparse Tile) : (s.withTiles x).nve = s.nve := by rfl
@[simp] theorem State.withTiles_hif (x : Sparse Tile) : (s.withTiles x).hif = s.hif := by rfl
@[simp] theorem State.withTiles_pcie (x : Sparse Tile) : (s.withTiles x).pcie = s.pcie := by rfl
@[simp] theorem State.withTiles_harts (x : Sparse Tile) : (s.withTiles x).harts = s.harts := by rfl
@[simp] theorem State.withTiles_aia (x : Sparse Tile) : (s.withTiles x).aia = s.aia := by rfl
@[simp] theorem State.withTiles_cache (x : Sparse Tile) : (s.withTiles x).cache = s.cache := by rfl
@[simp] theorem State.withTiles_pwr (x : Sparse Tile) : (s.withTiles x).pwr = s.pwr := by rfl
@[simp] theorem State.withTiles_boot (x : Sparse Tile) : (s.withTiles x).boot = s.boot := by rfl
@[simp] theorem State.withTiles_wkt (x : Sparse Tile) : (s.withTiles x).wkt = s.wkt := by rfl
@[simp] theorem State.withTiles_pins (x : Sparse Tile) : (s.withTiles x).pins = s.pins := by rfl
@[simp] theorem State.withTiles_lost (x : Sparse Tile) : (s.withTiles x).lost = s.lost := by rfl
@[simp] theorem State.withTiles_out (x : Sparse Tile) : (s.withTiles x).out = s.out := by rfl
@[simp] theorem State.withTiles_free (x : Sparse Tile) : (s.withTiles x).free = s.free := by rfl
@[simp] theorem State.withTiles_pending (x : Sparse Tile) : (s.withTiles x).pending = s.pending := by rfl
@[simp] theorem State.withTiles_rd (x : Sparse Tile) (o : Nat) : (s.withTiles x).rd o = s.rd o := by rfl
@[simp] theorem State.withTiles_get (x : Sparse Tile) (f : Fld) : (s.withTiles x).get f = s.get f := by rfl
@[simp] theorem State.withTiles_phase (x : Sparse Tile) : (s.withTiles x).phase = s.phase := by rfl
@[simp] theorem State.withTiles_byte (x : Sparse Tile) (a : Nat) : (s.withTiles x).byte a = s.byte a := by rfl
@[simp] theorem State.withTiles_plan (x : Sparse Tile) : (s.withTiles x).plan = s.plan := by rfl

/-! `State.withPrm` -/

@[simp] theorem State.withPrm_regs (x : PrmState) : (s.withPrm x).regs = s.regs := by rfl
@[simp] theorem State.withPrm_mem (x : PrmState) : (s.withPrm x).mem = s.mem := by rfl
@[simp] theorem State.withPrm_poison (x : PrmState) : (s.withPrm x).poison = s.poison := by rfl
@[simp] theorem State.withPrm_zeroMap (x : PrmState) : (s.withPrm x).zeroMap = s.zeroMap := by rfl
@[simp] theorem State.withPrm_ddr (x : PrmState) : (s.withPrm x).ddr = s.ddr := by rfl
@[simp] theorem State.withPrm_chCe (x : PrmState) : (s.withPrm x).chCe = s.chCe := by rfl
@[simp] theorem State.withPrm_chTimes (x : PrmState) : (s.withPrm x).chTimes = s.chTimes := by rfl
@[simp] theorem State.withPrm_chTold (x : PrmState) : (s.withPrm x).chTold = s.chTold := by rfl
@[simp] theorem State.withPrm_tiles (x : PrmState) : (s.withPrm x).tiles = s.tiles := by rfl
@[simp] theorem State.withPrm_prm (x : PrmState) : (s.withPrm x).prm = x := by rfl
@[simp] theorem State.withPrm_pav (x : PrmState) : (s.withPrm x).pav = s.pav := by rfl
@[simp] theorem State.withPrm_frames (x : PrmState) : (s.withPrm x).frames = s.frames := by rfl
@[simp] theorem State.withPrm_arb (x : PrmState) : (s.withPrm x).arb = s.arb := by rfl
@[simp] theorem State.withPrm_passed (x : PrmState) : (s.withPrm x).passed = s.passed := by rfl
@[simp] theorem State.withPrm_acm (x : PrmState) : (s.withPrm x).acm = s.acm := by rfl
@[simp] theorem State.withPrm_emt (x : PrmState) : (s.withPrm x).emt = s.emt := by rfl
@[simp] theorem State.withPrm_site (x : PrmState) : (s.withPrm x).site = s.site := by rfl
@[simp] theorem State.withPrm_tb (x : PrmState) : (s.withPrm x).tb = s.tb := by rfl
@[simp] theorem State.withPrm_clk (x : PrmState) : (s.withPrm x).clk = s.clk := by rfl
@[simp] theorem State.withPrm_eth (x : PrmState) : (s.withPrm x).eth = s.eth := by rfl
@[simp] theorem State.withPrm_sch (x : PrmState) : (s.withPrm x).sch = s.sch := by rfl
@[simp] theorem State.withPrm_cph (x : PrmState) : (s.withPrm x).cph = s.cph := by rfl
@[simp] theorem State.withPrm_te (x : PrmState) : (s.withPrm x).te = s.te := by rfl
@[simp] theorem State.withPrm_nve (x : PrmState) : (s.withPrm x).nve = s.nve := by rfl
@[simp] theorem State.withPrm_hif (x : PrmState) : (s.withPrm x).hif = s.hif := by rfl
@[simp] theorem State.withPrm_pcie (x : PrmState) : (s.withPrm x).pcie = s.pcie := by rfl
@[simp] theorem State.withPrm_harts (x : PrmState) : (s.withPrm x).harts = s.harts := by rfl
@[simp] theorem State.withPrm_aia (x : PrmState) : (s.withPrm x).aia = s.aia := by rfl
@[simp] theorem State.withPrm_cache (x : PrmState) : (s.withPrm x).cache = s.cache := by rfl
@[simp] theorem State.withPrm_pwr (x : PrmState) : (s.withPrm x).pwr = s.pwr := by rfl
@[simp] theorem State.withPrm_boot (x : PrmState) : (s.withPrm x).boot = s.boot := by rfl
@[simp] theorem State.withPrm_wkt (x : PrmState) : (s.withPrm x).wkt = s.wkt := by rfl
@[simp] theorem State.withPrm_pins (x : PrmState) : (s.withPrm x).pins = s.pins := by rfl
@[simp] theorem State.withPrm_lost (x : PrmState) : (s.withPrm x).lost = s.lost := by rfl
@[simp] theorem State.withPrm_out (x : PrmState) : (s.withPrm x).out = s.out := by rfl
@[simp] theorem State.withPrm_free (x : PrmState) : (s.withPrm x).free = s.free := by rfl
@[simp] theorem State.withPrm_pending (x : PrmState) : (s.withPrm x).pending = s.pending := by rfl
@[simp] theorem State.withPrm_rd (x : PrmState) (o : Nat) : (s.withPrm x).rd o = s.rd o := by rfl
@[simp] theorem State.withPrm_get (x : PrmState) (f : Fld) : (s.withPrm x).get f = s.get f := by rfl
@[simp] theorem State.withPrm_phase (x : PrmState) : (s.withPrm x).phase = s.phase := by rfl
@[simp] theorem State.withPrm_byte (x : PrmState) (a : Nat) : (s.withPrm x).byte a = s.byte a := by rfl
@[simp] theorem State.withPrm_plan (x : PrmState) : (s.withPrm x).plan = s.plan := by rfl

/-! `State.withPav` -/

@[simp] theorem State.withPav_regs (x : PavState) : (s.withPav x).regs = s.regs := by rfl
@[simp] theorem State.withPav_mem (x : PavState) : (s.withPav x).mem = s.mem := by rfl
@[simp] theorem State.withPav_poison (x : PavState) : (s.withPav x).poison = s.poison := by rfl
@[simp] theorem State.withPav_zeroMap (x : PavState) : (s.withPav x).zeroMap = s.zeroMap := by rfl
@[simp] theorem State.withPav_ddr (x : PavState) : (s.withPav x).ddr = s.ddr := by rfl
@[simp] theorem State.withPav_chCe (x : PavState) : (s.withPav x).chCe = s.chCe := by rfl
@[simp] theorem State.withPav_chTimes (x : PavState) : (s.withPav x).chTimes = s.chTimes := by rfl
@[simp] theorem State.withPav_chTold (x : PavState) : (s.withPav x).chTold = s.chTold := by rfl
@[simp] theorem State.withPav_tiles (x : PavState) : (s.withPav x).tiles = s.tiles := by rfl
@[simp] theorem State.withPav_prm (x : PavState) : (s.withPav x).prm = s.prm := by rfl
@[simp] theorem State.withPav_pav (x : PavState) : (s.withPav x).pav = x := by rfl
@[simp] theorem State.withPav_frames (x : PavState) : (s.withPav x).frames = s.frames := by rfl
@[simp] theorem State.withPav_arb (x : PavState) : (s.withPav x).arb = s.arb := by rfl
@[simp] theorem State.withPav_passed (x : PavState) : (s.withPav x).passed = s.passed := by rfl
@[simp] theorem State.withPav_acm (x : PavState) : (s.withPav x).acm = s.acm := by rfl
@[simp] theorem State.withPav_emt (x : PavState) : (s.withPav x).emt = s.emt := by rfl
@[simp] theorem State.withPav_site (x : PavState) : (s.withPav x).site = s.site := by rfl
@[simp] theorem State.withPav_tb (x : PavState) : (s.withPav x).tb = s.tb := by rfl
@[simp] theorem State.withPav_clk (x : PavState) : (s.withPav x).clk = s.clk := by rfl
@[simp] theorem State.withPav_eth (x : PavState) : (s.withPav x).eth = s.eth := by rfl
@[simp] theorem State.withPav_sch (x : PavState) : (s.withPav x).sch = s.sch := by rfl
@[simp] theorem State.withPav_cph (x : PavState) : (s.withPav x).cph = s.cph := by rfl
@[simp] theorem State.withPav_te (x : PavState) : (s.withPav x).te = s.te := by rfl
@[simp] theorem State.withPav_nve (x : PavState) : (s.withPav x).nve = s.nve := by rfl
@[simp] theorem State.withPav_hif (x : PavState) : (s.withPav x).hif = s.hif := by rfl
@[simp] theorem State.withPav_pcie (x : PavState) : (s.withPav x).pcie = s.pcie := by rfl
@[simp] theorem State.withPav_harts (x : PavState) : (s.withPav x).harts = s.harts := by rfl
@[simp] theorem State.withPav_aia (x : PavState) : (s.withPav x).aia = s.aia := by rfl
@[simp] theorem State.withPav_cache (x : PavState) : (s.withPav x).cache = s.cache := by rfl
@[simp] theorem State.withPav_pwr (x : PavState) : (s.withPav x).pwr = s.pwr := by rfl
@[simp] theorem State.withPav_boot (x : PavState) : (s.withPav x).boot = s.boot := by rfl
@[simp] theorem State.withPav_wkt (x : PavState) : (s.withPav x).wkt = s.wkt := by rfl
@[simp] theorem State.withPav_pins (x : PavState) : (s.withPav x).pins = s.pins := by rfl
@[simp] theorem State.withPav_lost (x : PavState) : (s.withPav x).lost = s.lost := by rfl
@[simp] theorem State.withPav_out (x : PavState) : (s.withPav x).out = s.out := by rfl
@[simp] theorem State.withPav_free (x : PavState) : (s.withPav x).free = s.free := by rfl
@[simp] theorem State.withPav_pending (x : PavState) : (s.withPav x).pending = s.pending := by rfl
@[simp] theorem State.withPav_rd (x : PavState) (o : Nat) : (s.withPav x).rd o = s.rd o := by rfl
@[simp] theorem State.withPav_get (x : PavState) (f : Fld) : (s.withPav x).get f = s.get f := by rfl
@[simp] theorem State.withPav_phase (x : PavState) : (s.withPav x).phase = s.phase := by rfl
@[simp] theorem State.withPav_byte (x : PavState) (a : Nat) : (s.withPav x).byte a = s.byte a := by rfl
@[simp] theorem State.withPav_plan (x : PavState) : (s.withPav x).plan = s.plan := by rfl

/-! `State.withFrames` -/

@[simp] theorem State.withFrames_regs (x : List SrcFrame) : (s.withFrames x).regs = s.regs := by rfl
@[simp] theorem State.withFrames_mem (x : List SrcFrame) : (s.withFrames x).mem = s.mem := by rfl
@[simp] theorem State.withFrames_poison (x : List SrcFrame) : (s.withFrames x).poison = s.poison := by rfl
@[simp] theorem State.withFrames_zeroMap (x : List SrcFrame) : (s.withFrames x).zeroMap = s.zeroMap := by rfl
@[simp] theorem State.withFrames_ddr (x : List SrcFrame) : (s.withFrames x).ddr = s.ddr := by rfl
@[simp] theorem State.withFrames_chCe (x : List SrcFrame) : (s.withFrames x).chCe = s.chCe := by rfl
@[simp] theorem State.withFrames_chTimes (x : List SrcFrame) : (s.withFrames x).chTimes = s.chTimes := by rfl
@[simp] theorem State.withFrames_chTold (x : List SrcFrame) : (s.withFrames x).chTold = s.chTold := by rfl
@[simp] theorem State.withFrames_tiles (x : List SrcFrame) : (s.withFrames x).tiles = s.tiles := by rfl
@[simp] theorem State.withFrames_prm (x : List SrcFrame) : (s.withFrames x).prm = s.prm := by rfl
@[simp] theorem State.withFrames_pav (x : List SrcFrame) : (s.withFrames x).pav = s.pav := by rfl
@[simp] theorem State.withFrames_frames (x : List SrcFrame) : (s.withFrames x).frames = x := by rfl
@[simp] theorem State.withFrames_arb (x : List SrcFrame) : (s.withFrames x).arb = s.arb := by rfl
@[simp] theorem State.withFrames_passed (x : List SrcFrame) : (s.withFrames x).passed = s.passed := by rfl
@[simp] theorem State.withFrames_acm (x : List SrcFrame) : (s.withFrames x).acm = s.acm := by rfl
@[simp] theorem State.withFrames_emt (x : List SrcFrame) : (s.withFrames x).emt = s.emt := by rfl
@[simp] theorem State.withFrames_site (x : List SrcFrame) : (s.withFrames x).site = s.site := by rfl
@[simp] theorem State.withFrames_tb (x : List SrcFrame) : (s.withFrames x).tb = s.tb := by rfl
@[simp] theorem State.withFrames_clk (x : List SrcFrame) : (s.withFrames x).clk = s.clk := by rfl
@[simp] theorem State.withFrames_eth (x : List SrcFrame) : (s.withFrames x).eth = s.eth := by rfl
@[simp] theorem State.withFrames_sch (x : List SrcFrame) : (s.withFrames x).sch = s.sch := by rfl
@[simp] theorem State.withFrames_cph (x : List SrcFrame) : (s.withFrames x).cph = s.cph := by rfl
@[simp] theorem State.withFrames_te (x : List SrcFrame) : (s.withFrames x).te = s.te := by rfl
@[simp] theorem State.withFrames_nve (x : List SrcFrame) : (s.withFrames x).nve = s.nve := by rfl
@[simp] theorem State.withFrames_hif (x : List SrcFrame) : (s.withFrames x).hif = s.hif := by rfl
@[simp] theorem State.withFrames_pcie (x : List SrcFrame) : (s.withFrames x).pcie = s.pcie := by rfl
@[simp] theorem State.withFrames_harts (x : List SrcFrame) : (s.withFrames x).harts = s.harts := by rfl
@[simp] theorem State.withFrames_aia (x : List SrcFrame) : (s.withFrames x).aia = s.aia := by rfl
@[simp] theorem State.withFrames_cache (x : List SrcFrame) : (s.withFrames x).cache = s.cache := by rfl
@[simp] theorem State.withFrames_pwr (x : List SrcFrame) : (s.withFrames x).pwr = s.pwr := by rfl
@[simp] theorem State.withFrames_boot (x : List SrcFrame) : (s.withFrames x).boot = s.boot := by rfl
@[simp] theorem State.withFrames_wkt (x : List SrcFrame) : (s.withFrames x).wkt = s.wkt := by rfl
@[simp] theorem State.withFrames_pins (x : List SrcFrame) : (s.withFrames x).pins = s.pins := by rfl
@[simp] theorem State.withFrames_lost (x : List SrcFrame) : (s.withFrames x).lost = s.lost := by rfl
@[simp] theorem State.withFrames_out (x : List SrcFrame) : (s.withFrames x).out = s.out := by rfl
@[simp] theorem State.withFrames_free (x : List SrcFrame) : (s.withFrames x).free = s.free := by rfl
@[simp] theorem State.withFrames_pending (x : List SrcFrame) : (s.withFrames x).pending = s.pending := by rfl
@[simp] theorem State.withFrames_rd (x : List SrcFrame) (o : Nat) : (s.withFrames x).rd o = s.rd o := by rfl
@[simp] theorem State.withFrames_get (x : List SrcFrame) (f : Fld) : (s.withFrames x).get f = s.get f := by rfl
@[simp] theorem State.withFrames_phase (x : List SrcFrame) : (s.withFrames x).phase = s.phase := by rfl
@[simp] theorem State.withFrames_byte (x : List SrcFrame) (a : Nat) : (s.withFrames x).byte a = s.byte a := by rfl
@[simp] theorem State.withFrames_plan (x : List SrcFrame) : (s.withFrames x).plan = s.plan := by rfl

/-! `State.withArb` -/

@[simp] theorem State.withArb_regs (x : ArbState) : (s.withArb x).regs = s.regs := by rfl
@[simp] theorem State.withArb_mem (x : ArbState) : (s.withArb x).mem = s.mem := by rfl
@[simp] theorem State.withArb_poison (x : ArbState) : (s.withArb x).poison = s.poison := by rfl
@[simp] theorem State.withArb_zeroMap (x : ArbState) : (s.withArb x).zeroMap = s.zeroMap := by rfl
@[simp] theorem State.withArb_ddr (x : ArbState) : (s.withArb x).ddr = s.ddr := by rfl
@[simp] theorem State.withArb_chCe (x : ArbState) : (s.withArb x).chCe = s.chCe := by rfl
@[simp] theorem State.withArb_chTimes (x : ArbState) : (s.withArb x).chTimes = s.chTimes := by rfl
@[simp] theorem State.withArb_chTold (x : ArbState) : (s.withArb x).chTold = s.chTold := by rfl
@[simp] theorem State.withArb_tiles (x : ArbState) : (s.withArb x).tiles = s.tiles := by rfl
@[simp] theorem State.withArb_prm (x : ArbState) : (s.withArb x).prm = s.prm := by rfl
@[simp] theorem State.withArb_pav (x : ArbState) : (s.withArb x).pav = s.pav := by rfl
@[simp] theorem State.withArb_frames (x : ArbState) : (s.withArb x).frames = s.frames := by rfl
@[simp] theorem State.withArb_arb (x : ArbState) : (s.withArb x).arb = x := by rfl
@[simp] theorem State.withArb_passed (x : ArbState) : (s.withArb x).passed = s.passed := by rfl
@[simp] theorem State.withArb_acm (x : ArbState) : (s.withArb x).acm = s.acm := by rfl
@[simp] theorem State.withArb_emt (x : ArbState) : (s.withArb x).emt = s.emt := by rfl
@[simp] theorem State.withArb_site (x : ArbState) : (s.withArb x).site = s.site := by rfl
@[simp] theorem State.withArb_tb (x : ArbState) : (s.withArb x).tb = s.tb := by rfl
@[simp] theorem State.withArb_clk (x : ArbState) : (s.withArb x).clk = s.clk := by rfl
@[simp] theorem State.withArb_eth (x : ArbState) : (s.withArb x).eth = s.eth := by rfl
@[simp] theorem State.withArb_sch (x : ArbState) : (s.withArb x).sch = s.sch := by rfl
@[simp] theorem State.withArb_cph (x : ArbState) : (s.withArb x).cph = s.cph := by rfl
@[simp] theorem State.withArb_te (x : ArbState) : (s.withArb x).te = s.te := by rfl
@[simp] theorem State.withArb_nve (x : ArbState) : (s.withArb x).nve = s.nve := by rfl
@[simp] theorem State.withArb_hif (x : ArbState) : (s.withArb x).hif = s.hif := by rfl
@[simp] theorem State.withArb_pcie (x : ArbState) : (s.withArb x).pcie = s.pcie := by rfl
@[simp] theorem State.withArb_harts (x : ArbState) : (s.withArb x).harts = s.harts := by rfl
@[simp] theorem State.withArb_aia (x : ArbState) : (s.withArb x).aia = s.aia := by rfl
@[simp] theorem State.withArb_cache (x : ArbState) : (s.withArb x).cache = s.cache := by rfl
@[simp] theorem State.withArb_pwr (x : ArbState) : (s.withArb x).pwr = s.pwr := by rfl
@[simp] theorem State.withArb_boot (x : ArbState) : (s.withArb x).boot = s.boot := by rfl
@[simp] theorem State.withArb_wkt (x : ArbState) : (s.withArb x).wkt = s.wkt := by rfl
@[simp] theorem State.withArb_pins (x : ArbState) : (s.withArb x).pins = s.pins := by rfl
@[simp] theorem State.withArb_lost (x : ArbState) : (s.withArb x).lost = s.lost := by rfl
@[simp] theorem State.withArb_out (x : ArbState) : (s.withArb x).out = s.out := by rfl
@[simp] theorem State.withArb_free (x : ArbState) : (s.withArb x).free = s.free := by rfl
@[simp] theorem State.withArb_pending (x : ArbState) : (s.withArb x).pending = s.pending := by rfl
@[simp] theorem State.withArb_rd (x : ArbState) (o : Nat) : (s.withArb x).rd o = s.rd o := by rfl
@[simp] theorem State.withArb_get (x : ArbState) (f : Fld) : (s.withArb x).get f = s.get f := by rfl
@[simp] theorem State.withArb_phase (x : ArbState) : (s.withArb x).phase = s.phase := by rfl
@[simp] theorem State.withArb_byte (x : ArbState) (a : Nat) : (s.withArb x).byte a = s.byte a := by rfl
@[simp] theorem State.withArb_plan (x : ArbState) : (s.withArb x).plan = s.plan := by rfl

/-! `State.withPassed` -/

@[simp] theorem State.withPassed_regs (x : List Committed) : (s.withPassed x).regs = s.regs := by rfl
@[simp] theorem State.withPassed_mem (x : List Committed) : (s.withPassed x).mem = s.mem := by rfl
@[simp] theorem State.withPassed_poison (x : List Committed) : (s.withPassed x).poison = s.poison := by rfl
@[simp] theorem State.withPassed_zeroMap (x : List Committed) : (s.withPassed x).zeroMap = s.zeroMap := by rfl
@[simp] theorem State.withPassed_ddr (x : List Committed) : (s.withPassed x).ddr = s.ddr := by rfl
@[simp] theorem State.withPassed_chCe (x : List Committed) : (s.withPassed x).chCe = s.chCe := by rfl
@[simp] theorem State.withPassed_chTimes (x : List Committed) : (s.withPassed x).chTimes = s.chTimes := by rfl
@[simp] theorem State.withPassed_chTold (x : List Committed) : (s.withPassed x).chTold = s.chTold := by rfl
@[simp] theorem State.withPassed_tiles (x : List Committed) : (s.withPassed x).tiles = s.tiles := by rfl
@[simp] theorem State.withPassed_prm (x : List Committed) : (s.withPassed x).prm = s.prm := by rfl
@[simp] theorem State.withPassed_pav (x : List Committed) : (s.withPassed x).pav = s.pav := by rfl
@[simp] theorem State.withPassed_frames (x : List Committed) : (s.withPassed x).frames = s.frames := by rfl
@[simp] theorem State.withPassed_arb (x : List Committed) : (s.withPassed x).arb = s.arb := by rfl
@[simp] theorem State.withPassed_passed (x : List Committed) : (s.withPassed x).passed = x := by rfl
@[simp] theorem State.withPassed_acm (x : List Committed) : (s.withPassed x).acm = s.acm := by rfl
@[simp] theorem State.withPassed_emt (x : List Committed) : (s.withPassed x).emt = s.emt := by rfl
@[simp] theorem State.withPassed_site (x : List Committed) : (s.withPassed x).site = s.site := by rfl
@[simp] theorem State.withPassed_tb (x : List Committed) : (s.withPassed x).tb = s.tb := by rfl
@[simp] theorem State.withPassed_clk (x : List Committed) : (s.withPassed x).clk = s.clk := by rfl
@[simp] theorem State.withPassed_eth (x : List Committed) : (s.withPassed x).eth = s.eth := by rfl
@[simp] theorem State.withPassed_sch (x : List Committed) : (s.withPassed x).sch = s.sch := by rfl
@[simp] theorem State.withPassed_cph (x : List Committed) : (s.withPassed x).cph = s.cph := by rfl
@[simp] theorem State.withPassed_te (x : List Committed) : (s.withPassed x).te = s.te := by rfl
@[simp] theorem State.withPassed_nve (x : List Committed) : (s.withPassed x).nve = s.nve := by rfl
@[simp] theorem State.withPassed_hif (x : List Committed) : (s.withPassed x).hif = s.hif := by rfl
@[simp] theorem State.withPassed_pcie (x : List Committed) : (s.withPassed x).pcie = s.pcie := by rfl
@[simp] theorem State.withPassed_harts (x : List Committed) : (s.withPassed x).harts = s.harts := by rfl
@[simp] theorem State.withPassed_aia (x : List Committed) : (s.withPassed x).aia = s.aia := by rfl
@[simp] theorem State.withPassed_cache (x : List Committed) : (s.withPassed x).cache = s.cache := by rfl
@[simp] theorem State.withPassed_pwr (x : List Committed) : (s.withPassed x).pwr = s.pwr := by rfl
@[simp] theorem State.withPassed_boot (x : List Committed) : (s.withPassed x).boot = s.boot := by rfl
@[simp] theorem State.withPassed_wkt (x : List Committed) : (s.withPassed x).wkt = s.wkt := by rfl
@[simp] theorem State.withPassed_pins (x : List Committed) : (s.withPassed x).pins = s.pins := by rfl
@[simp] theorem State.withPassed_lost (x : List Committed) : (s.withPassed x).lost = s.lost := by rfl
@[simp] theorem State.withPassed_out (x : List Committed) : (s.withPassed x).out = s.out := by rfl
@[simp] theorem State.withPassed_free (x : List Committed) : (s.withPassed x).free = s.free := by rfl
@[simp] theorem State.withPassed_pending (x : List Committed) : (s.withPassed x).pending = s.pending := by rfl
@[simp] theorem State.withPassed_rd (x : List Committed) (o : Nat) : (s.withPassed x).rd o = s.rd o := by rfl
@[simp] theorem State.withPassed_get (x : List Committed) (f : Fld) : (s.withPassed x).get f = s.get f := by rfl
@[simp] theorem State.withPassed_phase (x : List Committed) : (s.withPassed x).phase = s.phase := by rfl
@[simp] theorem State.withPassed_byte (x : List Committed) (a : Nat) : (s.withPassed x).byte a = s.byte a := by rfl
@[simp] theorem State.withPassed_plan (x : List Committed) : (s.withPassed x).plan = s.plan := by rfl

/-! `State.withAcm` -/

@[simp] theorem State.withAcm_regs (x : AcmState) : (s.withAcm x).regs = s.regs := by rfl
@[simp] theorem State.withAcm_mem (x : AcmState) : (s.withAcm x).mem = s.mem := by rfl
@[simp] theorem State.withAcm_poison (x : AcmState) : (s.withAcm x).poison = s.poison := by rfl
@[simp] theorem State.withAcm_zeroMap (x : AcmState) : (s.withAcm x).zeroMap = s.zeroMap := by rfl
@[simp] theorem State.withAcm_ddr (x : AcmState) : (s.withAcm x).ddr = s.ddr := by rfl
@[simp] theorem State.withAcm_chCe (x : AcmState) : (s.withAcm x).chCe = s.chCe := by rfl
@[simp] theorem State.withAcm_chTimes (x : AcmState) : (s.withAcm x).chTimes = s.chTimes := by rfl
@[simp] theorem State.withAcm_chTold (x : AcmState) : (s.withAcm x).chTold = s.chTold := by rfl
@[simp] theorem State.withAcm_tiles (x : AcmState) : (s.withAcm x).tiles = s.tiles := by rfl
@[simp] theorem State.withAcm_prm (x : AcmState) : (s.withAcm x).prm = s.prm := by rfl
@[simp] theorem State.withAcm_pav (x : AcmState) : (s.withAcm x).pav = s.pav := by rfl
@[simp] theorem State.withAcm_frames (x : AcmState) : (s.withAcm x).frames = s.frames := by rfl
@[simp] theorem State.withAcm_arb (x : AcmState) : (s.withAcm x).arb = s.arb := by rfl
@[simp] theorem State.withAcm_passed (x : AcmState) : (s.withAcm x).passed = s.passed := by rfl
@[simp] theorem State.withAcm_acm (x : AcmState) : (s.withAcm x).acm = x := by rfl
@[simp] theorem State.withAcm_emt (x : AcmState) : (s.withAcm x).emt = s.emt := by rfl
@[simp] theorem State.withAcm_site (x : AcmState) : (s.withAcm x).site = s.site := by rfl
@[simp] theorem State.withAcm_tb (x : AcmState) : (s.withAcm x).tb = s.tb := by rfl
@[simp] theorem State.withAcm_clk (x : AcmState) : (s.withAcm x).clk = s.clk := by rfl
@[simp] theorem State.withAcm_eth (x : AcmState) : (s.withAcm x).eth = s.eth := by rfl
@[simp] theorem State.withAcm_sch (x : AcmState) : (s.withAcm x).sch = s.sch := by rfl
@[simp] theorem State.withAcm_cph (x : AcmState) : (s.withAcm x).cph = s.cph := by rfl
@[simp] theorem State.withAcm_te (x : AcmState) : (s.withAcm x).te = s.te := by rfl
@[simp] theorem State.withAcm_nve (x : AcmState) : (s.withAcm x).nve = s.nve := by rfl
@[simp] theorem State.withAcm_hif (x : AcmState) : (s.withAcm x).hif = s.hif := by rfl
@[simp] theorem State.withAcm_pcie (x : AcmState) : (s.withAcm x).pcie = s.pcie := by rfl
@[simp] theorem State.withAcm_harts (x : AcmState) : (s.withAcm x).harts = s.harts := by rfl
@[simp] theorem State.withAcm_aia (x : AcmState) : (s.withAcm x).aia = s.aia := by rfl
@[simp] theorem State.withAcm_cache (x : AcmState) : (s.withAcm x).cache = s.cache := by rfl
@[simp] theorem State.withAcm_pwr (x : AcmState) : (s.withAcm x).pwr = s.pwr := by rfl
@[simp] theorem State.withAcm_boot (x : AcmState) : (s.withAcm x).boot = s.boot := by rfl
@[simp] theorem State.withAcm_wkt (x : AcmState) : (s.withAcm x).wkt = s.wkt := by rfl
@[simp] theorem State.withAcm_pins (x : AcmState) : (s.withAcm x).pins = s.pins := by rfl
@[simp] theorem State.withAcm_lost (x : AcmState) : (s.withAcm x).lost = s.lost := by rfl
@[simp] theorem State.withAcm_out (x : AcmState) : (s.withAcm x).out = s.out := by rfl
@[simp] theorem State.withAcm_free (x : AcmState) : (s.withAcm x).free = s.free := by rfl
@[simp] theorem State.withAcm_pending (x : AcmState) : (s.withAcm x).pending = s.pending := by rfl
@[simp] theorem State.withAcm_rd (x : AcmState) (o : Nat) : (s.withAcm x).rd o = s.rd o := by rfl
@[simp] theorem State.withAcm_get (x : AcmState) (f : Fld) : (s.withAcm x).get f = s.get f := by rfl
@[simp] theorem State.withAcm_phase (x : AcmState) : (s.withAcm x).phase = s.phase := by rfl
@[simp] theorem State.withAcm_byte (x : AcmState) (a : Nat) : (s.withAcm x).byte a = s.byte a := by rfl
@[simp] theorem State.withAcm_plan (x : AcmState) : (s.withAcm x).plan = s.plan := by rfl

/-! `State.withEmt` -/

@[simp] theorem State.withEmt_regs (x : EmtState) : (s.withEmt x).regs = s.regs := by rfl
@[simp] theorem State.withEmt_mem (x : EmtState) : (s.withEmt x).mem = s.mem := by rfl
@[simp] theorem State.withEmt_poison (x : EmtState) : (s.withEmt x).poison = s.poison := by rfl
@[simp] theorem State.withEmt_zeroMap (x : EmtState) : (s.withEmt x).zeroMap = s.zeroMap := by rfl
@[simp] theorem State.withEmt_ddr (x : EmtState) : (s.withEmt x).ddr = s.ddr := by rfl
@[simp] theorem State.withEmt_chCe (x : EmtState) : (s.withEmt x).chCe = s.chCe := by rfl
@[simp] theorem State.withEmt_chTimes (x : EmtState) : (s.withEmt x).chTimes = s.chTimes := by rfl
@[simp] theorem State.withEmt_chTold (x : EmtState) : (s.withEmt x).chTold = s.chTold := by rfl
@[simp] theorem State.withEmt_tiles (x : EmtState) : (s.withEmt x).tiles = s.tiles := by rfl
@[simp] theorem State.withEmt_prm (x : EmtState) : (s.withEmt x).prm = s.prm := by rfl
@[simp] theorem State.withEmt_pav (x : EmtState) : (s.withEmt x).pav = s.pav := by rfl
@[simp] theorem State.withEmt_frames (x : EmtState) : (s.withEmt x).frames = s.frames := by rfl
@[simp] theorem State.withEmt_arb (x : EmtState) : (s.withEmt x).arb = s.arb := by rfl
@[simp] theorem State.withEmt_passed (x : EmtState) : (s.withEmt x).passed = s.passed := by rfl
@[simp] theorem State.withEmt_acm (x : EmtState) : (s.withEmt x).acm = s.acm := by rfl
@[simp] theorem State.withEmt_emt (x : EmtState) : (s.withEmt x).emt = x := by rfl
@[simp] theorem State.withEmt_site (x : EmtState) : (s.withEmt x).site = s.site := by rfl
@[simp] theorem State.withEmt_tb (x : EmtState) : (s.withEmt x).tb = s.tb := by rfl
@[simp] theorem State.withEmt_clk (x : EmtState) : (s.withEmt x).clk = s.clk := by rfl
@[simp] theorem State.withEmt_eth (x : EmtState) : (s.withEmt x).eth = s.eth := by rfl
@[simp] theorem State.withEmt_sch (x : EmtState) : (s.withEmt x).sch = s.sch := by rfl
@[simp] theorem State.withEmt_cph (x : EmtState) : (s.withEmt x).cph = s.cph := by rfl
@[simp] theorem State.withEmt_te (x : EmtState) : (s.withEmt x).te = s.te := by rfl
@[simp] theorem State.withEmt_nve (x : EmtState) : (s.withEmt x).nve = s.nve := by rfl
@[simp] theorem State.withEmt_hif (x : EmtState) : (s.withEmt x).hif = s.hif := by rfl
@[simp] theorem State.withEmt_pcie (x : EmtState) : (s.withEmt x).pcie = s.pcie := by rfl
@[simp] theorem State.withEmt_harts (x : EmtState) : (s.withEmt x).harts = s.harts := by rfl
@[simp] theorem State.withEmt_aia (x : EmtState) : (s.withEmt x).aia = s.aia := by rfl
@[simp] theorem State.withEmt_cache (x : EmtState) : (s.withEmt x).cache = s.cache := by rfl
@[simp] theorem State.withEmt_pwr (x : EmtState) : (s.withEmt x).pwr = s.pwr := by rfl
@[simp] theorem State.withEmt_boot (x : EmtState) : (s.withEmt x).boot = s.boot := by rfl
@[simp] theorem State.withEmt_wkt (x : EmtState) : (s.withEmt x).wkt = s.wkt := by rfl
@[simp] theorem State.withEmt_pins (x : EmtState) : (s.withEmt x).pins = s.pins := by rfl
@[simp] theorem State.withEmt_lost (x : EmtState) : (s.withEmt x).lost = s.lost := by rfl
@[simp] theorem State.withEmt_out (x : EmtState) : (s.withEmt x).out = s.out := by rfl
@[simp] theorem State.withEmt_free (x : EmtState) : (s.withEmt x).free = s.free := by rfl
@[simp] theorem State.withEmt_pending (x : EmtState) : (s.withEmt x).pending = s.pending := by rfl
@[simp] theorem State.withEmt_rd (x : EmtState) (o : Nat) : (s.withEmt x).rd o = s.rd o := by rfl
@[simp] theorem State.withEmt_get (x : EmtState) (f : Fld) : (s.withEmt x).get f = s.get f := by rfl
@[simp] theorem State.withEmt_phase (x : EmtState) : (s.withEmt x).phase = s.phase := by rfl
@[simp] theorem State.withEmt_byte (x : EmtState) (a : Nat) : (s.withEmt x).byte a = s.byte a := by rfl
@[simp] theorem State.withEmt_plan (x : EmtState) : (s.withEmt x).plan = s.plan := by rfl

/-! `State.withSite` -/

@[simp] theorem State.withSite_regs (x : SiteState) : (s.withSite x).regs = s.regs := by rfl
@[simp] theorem State.withSite_mem (x : SiteState) : (s.withSite x).mem = s.mem := by rfl
@[simp] theorem State.withSite_poison (x : SiteState) : (s.withSite x).poison = s.poison := by rfl
@[simp] theorem State.withSite_zeroMap (x : SiteState) : (s.withSite x).zeroMap = s.zeroMap := by rfl
@[simp] theorem State.withSite_ddr (x : SiteState) : (s.withSite x).ddr = s.ddr := by rfl
@[simp] theorem State.withSite_chCe (x : SiteState) : (s.withSite x).chCe = s.chCe := by rfl
@[simp] theorem State.withSite_chTimes (x : SiteState) : (s.withSite x).chTimes = s.chTimes := by rfl
@[simp] theorem State.withSite_chTold (x : SiteState) : (s.withSite x).chTold = s.chTold := by rfl
@[simp] theorem State.withSite_tiles (x : SiteState) : (s.withSite x).tiles = s.tiles := by rfl
@[simp] theorem State.withSite_prm (x : SiteState) : (s.withSite x).prm = s.prm := by rfl
@[simp] theorem State.withSite_pav (x : SiteState) : (s.withSite x).pav = s.pav := by rfl
@[simp] theorem State.withSite_frames (x : SiteState) : (s.withSite x).frames = s.frames := by rfl
@[simp] theorem State.withSite_arb (x : SiteState) : (s.withSite x).arb = s.arb := by rfl
@[simp] theorem State.withSite_passed (x : SiteState) : (s.withSite x).passed = s.passed := by rfl
@[simp] theorem State.withSite_acm (x : SiteState) : (s.withSite x).acm = s.acm := by rfl
@[simp] theorem State.withSite_emt (x : SiteState) : (s.withSite x).emt = s.emt := by rfl
@[simp] theorem State.withSite_site (x : SiteState) : (s.withSite x).site = x := by rfl
@[simp] theorem State.withSite_tb (x : SiteState) : (s.withSite x).tb = s.tb := by rfl
@[simp] theorem State.withSite_clk (x : SiteState) : (s.withSite x).clk = s.clk := by rfl
@[simp] theorem State.withSite_eth (x : SiteState) : (s.withSite x).eth = s.eth := by rfl
@[simp] theorem State.withSite_sch (x : SiteState) : (s.withSite x).sch = s.sch := by rfl
@[simp] theorem State.withSite_cph (x : SiteState) : (s.withSite x).cph = s.cph := by rfl
@[simp] theorem State.withSite_te (x : SiteState) : (s.withSite x).te = s.te := by rfl
@[simp] theorem State.withSite_nve (x : SiteState) : (s.withSite x).nve = s.nve := by rfl
@[simp] theorem State.withSite_hif (x : SiteState) : (s.withSite x).hif = s.hif := by rfl
@[simp] theorem State.withSite_pcie (x : SiteState) : (s.withSite x).pcie = s.pcie := by rfl
@[simp] theorem State.withSite_harts (x : SiteState) : (s.withSite x).harts = s.harts := by rfl
@[simp] theorem State.withSite_aia (x : SiteState) : (s.withSite x).aia = s.aia := by rfl
@[simp] theorem State.withSite_cache (x : SiteState) : (s.withSite x).cache = s.cache := by rfl
@[simp] theorem State.withSite_pwr (x : SiteState) : (s.withSite x).pwr = s.pwr := by rfl
@[simp] theorem State.withSite_boot (x : SiteState) : (s.withSite x).boot = s.boot := by rfl
@[simp] theorem State.withSite_wkt (x : SiteState) : (s.withSite x).wkt = s.wkt := by rfl
@[simp] theorem State.withSite_pins (x : SiteState) : (s.withSite x).pins = s.pins := by rfl
@[simp] theorem State.withSite_lost (x : SiteState) : (s.withSite x).lost = s.lost := by rfl
@[simp] theorem State.withSite_out (x : SiteState) : (s.withSite x).out = s.out := by rfl
@[simp] theorem State.withSite_free (x : SiteState) : (s.withSite x).free = s.free := by rfl
@[simp] theorem State.withSite_pending (x : SiteState) : (s.withSite x).pending = s.pending := by rfl
@[simp] theorem State.withSite_rd (x : SiteState) (o : Nat) : (s.withSite x).rd o = s.rd o := by rfl
@[simp] theorem State.withSite_get (x : SiteState) (f : Fld) : (s.withSite x).get f = s.get f := by rfl
@[simp] theorem State.withSite_phase (x : SiteState) : (s.withSite x).phase = s.phase := by rfl
@[simp] theorem State.withSite_byte (x : SiteState) (a : Nat) : (s.withSite x).byte a = s.byte a := by rfl

/-! `State.withTb` -/

@[simp] theorem State.withTb_regs (x : Sparse Timebase) : (s.withTb x).regs = s.regs := by rfl
@[simp] theorem State.withTb_mem (x : Sparse Timebase) : (s.withTb x).mem = s.mem := by rfl
@[simp] theorem State.withTb_poison (x : Sparse Timebase) : (s.withTb x).poison = s.poison := by rfl
@[simp] theorem State.withTb_zeroMap (x : Sparse Timebase) : (s.withTb x).zeroMap = s.zeroMap := by rfl
@[simp] theorem State.withTb_ddr (x : Sparse Timebase) : (s.withTb x).ddr = s.ddr := by rfl
@[simp] theorem State.withTb_chCe (x : Sparse Timebase) : (s.withTb x).chCe = s.chCe := by rfl
@[simp] theorem State.withTb_chTimes (x : Sparse Timebase) : (s.withTb x).chTimes = s.chTimes := by rfl
@[simp] theorem State.withTb_chTold (x : Sparse Timebase) : (s.withTb x).chTold = s.chTold := by rfl
@[simp] theorem State.withTb_tiles (x : Sparse Timebase) : (s.withTb x).tiles = s.tiles := by rfl
@[simp] theorem State.withTb_prm (x : Sparse Timebase) : (s.withTb x).prm = s.prm := by rfl
@[simp] theorem State.withTb_pav (x : Sparse Timebase) : (s.withTb x).pav = s.pav := by rfl
@[simp] theorem State.withTb_frames (x : Sparse Timebase) : (s.withTb x).frames = s.frames := by rfl
@[simp] theorem State.withTb_arb (x : Sparse Timebase) : (s.withTb x).arb = s.arb := by rfl
@[simp] theorem State.withTb_passed (x : Sparse Timebase) : (s.withTb x).passed = s.passed := by rfl
@[simp] theorem State.withTb_acm (x : Sparse Timebase) : (s.withTb x).acm = s.acm := by rfl
@[simp] theorem State.withTb_emt (x : Sparse Timebase) : (s.withTb x).emt = s.emt := by rfl
@[simp] theorem State.withTb_site (x : Sparse Timebase) : (s.withTb x).site = s.site := by rfl
@[simp] theorem State.withTb_tb (x : Sparse Timebase) : (s.withTb x).tb = x := by rfl
@[simp] theorem State.withTb_clk (x : Sparse Timebase) : (s.withTb x).clk = s.clk := by rfl
@[simp] theorem State.withTb_eth (x : Sparse Timebase) : (s.withTb x).eth = s.eth := by rfl
@[simp] theorem State.withTb_sch (x : Sparse Timebase) : (s.withTb x).sch = s.sch := by rfl
@[simp] theorem State.withTb_cph (x : Sparse Timebase) : (s.withTb x).cph = s.cph := by rfl
@[simp] theorem State.withTb_te (x : Sparse Timebase) : (s.withTb x).te = s.te := by rfl
@[simp] theorem State.withTb_nve (x : Sparse Timebase) : (s.withTb x).nve = s.nve := by rfl
@[simp] theorem State.withTb_hif (x : Sparse Timebase) : (s.withTb x).hif = s.hif := by rfl
@[simp] theorem State.withTb_pcie (x : Sparse Timebase) : (s.withTb x).pcie = s.pcie := by rfl
@[simp] theorem State.withTb_harts (x : Sparse Timebase) : (s.withTb x).harts = s.harts := by rfl
@[simp] theorem State.withTb_aia (x : Sparse Timebase) : (s.withTb x).aia = s.aia := by rfl
@[simp] theorem State.withTb_cache (x : Sparse Timebase) : (s.withTb x).cache = s.cache := by rfl
@[simp] theorem State.withTb_pwr (x : Sparse Timebase) : (s.withTb x).pwr = s.pwr := by rfl
@[simp] theorem State.withTb_boot (x : Sparse Timebase) : (s.withTb x).boot = s.boot := by rfl
@[simp] theorem State.withTb_wkt (x : Sparse Timebase) : (s.withTb x).wkt = s.wkt := by rfl
@[simp] theorem State.withTb_pins (x : Sparse Timebase) : (s.withTb x).pins = s.pins := by rfl
@[simp] theorem State.withTb_lost (x : Sparse Timebase) : (s.withTb x).lost = s.lost := by rfl
@[simp] theorem State.withTb_out (x : Sparse Timebase) : (s.withTb x).out = s.out := by rfl
@[simp] theorem State.withTb_free (x : Sparse Timebase) : (s.withTb x).free = s.free := by rfl
@[simp] theorem State.withTb_pending (x : Sparse Timebase) : (s.withTb x).pending = s.pending := by rfl
@[simp] theorem State.withTb_rd (x : Sparse Timebase) (o : Nat) : (s.withTb x).rd o = s.rd o := by rfl
@[simp] theorem State.withTb_get (x : Sparse Timebase) (f : Fld) : (s.withTb x).get f = s.get f := by rfl
@[simp] theorem State.withTb_phase (x : Sparse Timebase) : (s.withTb x).phase = s.phase := by rfl
@[simp] theorem State.withTb_byte (x : Sparse Timebase) (a : Nat) : (s.withTb x).byte a = s.byte a := by rfl
@[simp] theorem State.withTb_plan (x : Sparse Timebase) : (s.withTb x).plan = s.plan := by rfl

/-! `State.withClk` -/

@[simp] theorem State.withClk_regs (x : ClockState) : (s.withClk x).regs = s.regs := by rfl
@[simp] theorem State.withClk_mem (x : ClockState) : (s.withClk x).mem = s.mem := by rfl
@[simp] theorem State.withClk_poison (x : ClockState) : (s.withClk x).poison = s.poison := by rfl
@[simp] theorem State.withClk_zeroMap (x : ClockState) : (s.withClk x).zeroMap = s.zeroMap := by rfl
@[simp] theorem State.withClk_ddr (x : ClockState) : (s.withClk x).ddr = s.ddr := by rfl
@[simp] theorem State.withClk_chCe (x : ClockState) : (s.withClk x).chCe = s.chCe := by rfl
@[simp] theorem State.withClk_chTimes (x : ClockState) : (s.withClk x).chTimes = s.chTimes := by rfl
@[simp] theorem State.withClk_chTold (x : ClockState) : (s.withClk x).chTold = s.chTold := by rfl
@[simp] theorem State.withClk_tiles (x : ClockState) : (s.withClk x).tiles = s.tiles := by rfl
@[simp] theorem State.withClk_prm (x : ClockState) : (s.withClk x).prm = s.prm := by rfl
@[simp] theorem State.withClk_pav (x : ClockState) : (s.withClk x).pav = s.pav := by rfl
@[simp] theorem State.withClk_frames (x : ClockState) : (s.withClk x).frames = s.frames := by rfl
@[simp] theorem State.withClk_arb (x : ClockState) : (s.withClk x).arb = s.arb := by rfl
@[simp] theorem State.withClk_passed (x : ClockState) : (s.withClk x).passed = s.passed := by rfl
@[simp] theorem State.withClk_acm (x : ClockState) : (s.withClk x).acm = s.acm := by rfl
@[simp] theorem State.withClk_emt (x : ClockState) : (s.withClk x).emt = s.emt := by rfl
@[simp] theorem State.withClk_site (x : ClockState) : (s.withClk x).site = s.site := by rfl
@[simp] theorem State.withClk_tb (x : ClockState) : (s.withClk x).tb = s.tb := by rfl
@[simp] theorem State.withClk_clk (x : ClockState) : (s.withClk x).clk = x := by rfl
@[simp] theorem State.withClk_eth (x : ClockState) : (s.withClk x).eth = s.eth := by rfl
@[simp] theorem State.withClk_sch (x : ClockState) : (s.withClk x).sch = s.sch := by rfl
@[simp] theorem State.withClk_cph (x : ClockState) : (s.withClk x).cph = s.cph := by rfl
@[simp] theorem State.withClk_te (x : ClockState) : (s.withClk x).te = s.te := by rfl
@[simp] theorem State.withClk_nve (x : ClockState) : (s.withClk x).nve = s.nve := by rfl
@[simp] theorem State.withClk_hif (x : ClockState) : (s.withClk x).hif = s.hif := by rfl
@[simp] theorem State.withClk_pcie (x : ClockState) : (s.withClk x).pcie = s.pcie := by rfl
@[simp] theorem State.withClk_harts (x : ClockState) : (s.withClk x).harts = s.harts := by rfl
@[simp] theorem State.withClk_aia (x : ClockState) : (s.withClk x).aia = s.aia := by rfl
@[simp] theorem State.withClk_cache (x : ClockState) : (s.withClk x).cache = s.cache := by rfl
@[simp] theorem State.withClk_pwr (x : ClockState) : (s.withClk x).pwr = s.pwr := by rfl
@[simp] theorem State.withClk_boot (x : ClockState) : (s.withClk x).boot = s.boot := by rfl
@[simp] theorem State.withClk_wkt (x : ClockState) : (s.withClk x).wkt = s.wkt := by rfl
@[simp] theorem State.withClk_pins (x : ClockState) : (s.withClk x).pins = s.pins := by rfl
@[simp] theorem State.withClk_lost (x : ClockState) : (s.withClk x).lost = s.lost := by rfl
@[simp] theorem State.withClk_out (x : ClockState) : (s.withClk x).out = s.out := by rfl
@[simp] theorem State.withClk_free (x : ClockState) : (s.withClk x).free = s.free := by rfl
@[simp] theorem State.withClk_pending (x : ClockState) : (s.withClk x).pending = s.pending := by rfl
@[simp] theorem State.withClk_rd (x : ClockState) (o : Nat) : (s.withClk x).rd o = s.rd o := by rfl
@[simp] theorem State.withClk_get (x : ClockState) (f : Fld) : (s.withClk x).get f = s.get f := by rfl
@[simp] theorem State.withClk_phase (x : ClockState) : (s.withClk x).phase = s.phase := by rfl
@[simp] theorem State.withClk_byte (x : ClockState) (a : Nat) : (s.withClk x).byte a = s.byte a := by rfl
@[simp] theorem State.withClk_plan (x : ClockState) : (s.withClk x).plan = s.plan := by rfl

/-! `State.withEth` -/

@[simp] theorem State.withEth_regs (x : EthState) : (s.withEth x).regs = s.regs := by rfl
@[simp] theorem State.withEth_mem (x : EthState) : (s.withEth x).mem = s.mem := by rfl
@[simp] theorem State.withEth_poison (x : EthState) : (s.withEth x).poison = s.poison := by rfl
@[simp] theorem State.withEth_zeroMap (x : EthState) : (s.withEth x).zeroMap = s.zeroMap := by rfl
@[simp] theorem State.withEth_ddr (x : EthState) : (s.withEth x).ddr = s.ddr := by rfl
@[simp] theorem State.withEth_chCe (x : EthState) : (s.withEth x).chCe = s.chCe := by rfl
@[simp] theorem State.withEth_chTimes (x : EthState) : (s.withEth x).chTimes = s.chTimes := by rfl
@[simp] theorem State.withEth_chTold (x : EthState) : (s.withEth x).chTold = s.chTold := by rfl
@[simp] theorem State.withEth_tiles (x : EthState) : (s.withEth x).tiles = s.tiles := by rfl
@[simp] theorem State.withEth_prm (x : EthState) : (s.withEth x).prm = s.prm := by rfl
@[simp] theorem State.withEth_pav (x : EthState) : (s.withEth x).pav = s.pav := by rfl
@[simp] theorem State.withEth_frames (x : EthState) : (s.withEth x).frames = s.frames := by rfl
@[simp] theorem State.withEth_arb (x : EthState) : (s.withEth x).arb = s.arb := by rfl
@[simp] theorem State.withEth_passed (x : EthState) : (s.withEth x).passed = s.passed := by rfl
@[simp] theorem State.withEth_acm (x : EthState) : (s.withEth x).acm = s.acm := by rfl
@[simp] theorem State.withEth_emt (x : EthState) : (s.withEth x).emt = s.emt := by rfl
@[simp] theorem State.withEth_site (x : EthState) : (s.withEth x).site = s.site := by rfl
@[simp] theorem State.withEth_tb (x : EthState) : (s.withEth x).tb = s.tb := by rfl
@[simp] theorem State.withEth_clk (x : EthState) : (s.withEth x).clk = s.clk := by rfl
@[simp] theorem State.withEth_eth (x : EthState) : (s.withEth x).eth = x := by rfl
@[simp] theorem State.withEth_sch (x : EthState) : (s.withEth x).sch = s.sch := by rfl
@[simp] theorem State.withEth_cph (x : EthState) : (s.withEth x).cph = s.cph := by rfl
@[simp] theorem State.withEth_te (x : EthState) : (s.withEth x).te = s.te := by rfl
@[simp] theorem State.withEth_nve (x : EthState) : (s.withEth x).nve = s.nve := by rfl
@[simp] theorem State.withEth_hif (x : EthState) : (s.withEth x).hif = s.hif := by rfl
@[simp] theorem State.withEth_pcie (x : EthState) : (s.withEth x).pcie = s.pcie := by rfl
@[simp] theorem State.withEth_harts (x : EthState) : (s.withEth x).harts = s.harts := by rfl
@[simp] theorem State.withEth_aia (x : EthState) : (s.withEth x).aia = s.aia := by rfl
@[simp] theorem State.withEth_cache (x : EthState) : (s.withEth x).cache = s.cache := by rfl
@[simp] theorem State.withEth_pwr (x : EthState) : (s.withEth x).pwr = s.pwr := by rfl
@[simp] theorem State.withEth_boot (x : EthState) : (s.withEth x).boot = s.boot := by rfl
@[simp] theorem State.withEth_wkt (x : EthState) : (s.withEth x).wkt = s.wkt := by rfl
@[simp] theorem State.withEth_pins (x : EthState) : (s.withEth x).pins = s.pins := by rfl
@[simp] theorem State.withEth_lost (x : EthState) : (s.withEth x).lost = s.lost := by rfl
@[simp] theorem State.withEth_out (x : EthState) : (s.withEth x).out = s.out := by rfl
@[simp] theorem State.withEth_free (x : EthState) : (s.withEth x).free = s.free := by rfl
@[simp] theorem State.withEth_pending (x : EthState) : (s.withEth x).pending = s.pending := by rfl
@[simp] theorem State.withEth_rd (x : EthState) (o : Nat) : (s.withEth x).rd o = s.rd o := by rfl
@[simp] theorem State.withEth_get (x : EthState) (f : Fld) : (s.withEth x).get f = s.get f := by rfl
@[simp] theorem State.withEth_phase (x : EthState) : (s.withEth x).phase = s.phase := by rfl
@[simp] theorem State.withEth_byte (x : EthState) (a : Nat) : (s.withEth x).byte a = s.byte a := by rfl
@[simp] theorem State.withEth_plan (x : EthState) : (s.withEth x).plan = s.plan := by rfl

/-! `State.withSch` -/

@[simp] theorem State.withSch_regs (x : SchState) : (s.withSch x).regs = s.regs := by rfl
@[simp] theorem State.withSch_mem (x : SchState) : (s.withSch x).mem = s.mem := by rfl
@[simp] theorem State.withSch_poison (x : SchState) : (s.withSch x).poison = s.poison := by rfl
@[simp] theorem State.withSch_zeroMap (x : SchState) : (s.withSch x).zeroMap = s.zeroMap := by rfl
@[simp] theorem State.withSch_ddr (x : SchState) : (s.withSch x).ddr = s.ddr := by rfl
@[simp] theorem State.withSch_chCe (x : SchState) : (s.withSch x).chCe = s.chCe := by rfl
@[simp] theorem State.withSch_chTimes (x : SchState) : (s.withSch x).chTimes = s.chTimes := by rfl
@[simp] theorem State.withSch_chTold (x : SchState) : (s.withSch x).chTold = s.chTold := by rfl
@[simp] theorem State.withSch_tiles (x : SchState) : (s.withSch x).tiles = s.tiles := by rfl
@[simp] theorem State.withSch_prm (x : SchState) : (s.withSch x).prm = s.prm := by rfl
@[simp] theorem State.withSch_pav (x : SchState) : (s.withSch x).pav = s.pav := by rfl
@[simp] theorem State.withSch_frames (x : SchState) : (s.withSch x).frames = s.frames := by rfl
@[simp] theorem State.withSch_arb (x : SchState) : (s.withSch x).arb = s.arb := by rfl
@[simp] theorem State.withSch_passed (x : SchState) : (s.withSch x).passed = s.passed := by rfl
@[simp] theorem State.withSch_acm (x : SchState) : (s.withSch x).acm = s.acm := by rfl
@[simp] theorem State.withSch_emt (x : SchState) : (s.withSch x).emt = s.emt := by rfl
@[simp] theorem State.withSch_site (x : SchState) : (s.withSch x).site = s.site := by rfl
@[simp] theorem State.withSch_tb (x : SchState) : (s.withSch x).tb = s.tb := by rfl
@[simp] theorem State.withSch_clk (x : SchState) : (s.withSch x).clk = s.clk := by rfl
@[simp] theorem State.withSch_eth (x : SchState) : (s.withSch x).eth = s.eth := by rfl
@[simp] theorem State.withSch_sch (x : SchState) : (s.withSch x).sch = x := by rfl
@[simp] theorem State.withSch_cph (x : SchState) : (s.withSch x).cph = s.cph := by rfl
@[simp] theorem State.withSch_te (x : SchState) : (s.withSch x).te = s.te := by rfl
@[simp] theorem State.withSch_nve (x : SchState) : (s.withSch x).nve = s.nve := by rfl
@[simp] theorem State.withSch_hif (x : SchState) : (s.withSch x).hif = s.hif := by rfl
@[simp] theorem State.withSch_pcie (x : SchState) : (s.withSch x).pcie = s.pcie := by rfl
@[simp] theorem State.withSch_harts (x : SchState) : (s.withSch x).harts = s.harts := by rfl
@[simp] theorem State.withSch_aia (x : SchState) : (s.withSch x).aia = s.aia := by rfl
@[simp] theorem State.withSch_cache (x : SchState) : (s.withSch x).cache = s.cache := by rfl
@[simp] theorem State.withSch_pwr (x : SchState) : (s.withSch x).pwr = s.pwr := by rfl
@[simp] theorem State.withSch_boot (x : SchState) : (s.withSch x).boot = s.boot := by rfl
@[simp] theorem State.withSch_wkt (x : SchState) : (s.withSch x).wkt = s.wkt := by rfl
@[simp] theorem State.withSch_pins (x : SchState) : (s.withSch x).pins = s.pins := by rfl
@[simp] theorem State.withSch_lost (x : SchState) : (s.withSch x).lost = s.lost := by rfl
@[simp] theorem State.withSch_out (x : SchState) : (s.withSch x).out = s.out := by rfl
@[simp] theorem State.withSch_free (x : SchState) : (s.withSch x).free = s.free := by rfl
@[simp] theorem State.withSch_pending (x : SchState) : (s.withSch x).pending = s.pending := by rfl
@[simp] theorem State.withSch_rd (x : SchState) (o : Nat) : (s.withSch x).rd o = s.rd o := by rfl
@[simp] theorem State.withSch_get (x : SchState) (f : Fld) : (s.withSch x).get f = s.get f := by rfl
@[simp] theorem State.withSch_phase (x : SchState) : (s.withSch x).phase = s.phase := by rfl
@[simp] theorem State.withSch_byte (x : SchState) (a : Nat) : (s.withSch x).byte a = s.byte a := by rfl
@[simp] theorem State.withSch_plan (x : SchState) : (s.withSch x).plan = s.plan := by rfl

/-! `State.withCph` -/

@[simp] theorem State.withCph_regs (x : CphState) : (s.withCph x).regs = s.regs := by rfl
@[simp] theorem State.withCph_mem (x : CphState) : (s.withCph x).mem = s.mem := by rfl
@[simp] theorem State.withCph_poison (x : CphState) : (s.withCph x).poison = s.poison := by rfl
@[simp] theorem State.withCph_zeroMap (x : CphState) : (s.withCph x).zeroMap = s.zeroMap := by rfl
@[simp] theorem State.withCph_ddr (x : CphState) : (s.withCph x).ddr = s.ddr := by rfl
@[simp] theorem State.withCph_chCe (x : CphState) : (s.withCph x).chCe = s.chCe := by rfl
@[simp] theorem State.withCph_chTimes (x : CphState) : (s.withCph x).chTimes = s.chTimes := by rfl
@[simp] theorem State.withCph_chTold (x : CphState) : (s.withCph x).chTold = s.chTold := by rfl
@[simp] theorem State.withCph_tiles (x : CphState) : (s.withCph x).tiles = s.tiles := by rfl
@[simp] theorem State.withCph_prm (x : CphState) : (s.withCph x).prm = s.prm := by rfl
@[simp] theorem State.withCph_pav (x : CphState) : (s.withCph x).pav = s.pav := by rfl
@[simp] theorem State.withCph_frames (x : CphState) : (s.withCph x).frames = s.frames := by rfl
@[simp] theorem State.withCph_arb (x : CphState) : (s.withCph x).arb = s.arb := by rfl
@[simp] theorem State.withCph_passed (x : CphState) : (s.withCph x).passed = s.passed := by rfl
@[simp] theorem State.withCph_acm (x : CphState) : (s.withCph x).acm = s.acm := by rfl
@[simp] theorem State.withCph_emt (x : CphState) : (s.withCph x).emt = s.emt := by rfl
@[simp] theorem State.withCph_site (x : CphState) : (s.withCph x).site = s.site := by rfl
@[simp] theorem State.withCph_tb (x : CphState) : (s.withCph x).tb = s.tb := by rfl
@[simp] theorem State.withCph_clk (x : CphState) : (s.withCph x).clk = s.clk := by rfl
@[simp] theorem State.withCph_eth (x : CphState) : (s.withCph x).eth = s.eth := by rfl
@[simp] theorem State.withCph_sch (x : CphState) : (s.withCph x).sch = s.sch := by rfl
@[simp] theorem State.withCph_cph (x : CphState) : (s.withCph x).cph = x := by rfl
@[simp] theorem State.withCph_te (x : CphState) : (s.withCph x).te = s.te := by rfl
@[simp] theorem State.withCph_nve (x : CphState) : (s.withCph x).nve = s.nve := by rfl
@[simp] theorem State.withCph_hif (x : CphState) : (s.withCph x).hif = s.hif := by rfl
@[simp] theorem State.withCph_pcie (x : CphState) : (s.withCph x).pcie = s.pcie := by rfl
@[simp] theorem State.withCph_harts (x : CphState) : (s.withCph x).harts = s.harts := by rfl
@[simp] theorem State.withCph_aia (x : CphState) : (s.withCph x).aia = s.aia := by rfl
@[simp] theorem State.withCph_cache (x : CphState) : (s.withCph x).cache = s.cache := by rfl
@[simp] theorem State.withCph_pwr (x : CphState) : (s.withCph x).pwr = s.pwr := by rfl
@[simp] theorem State.withCph_boot (x : CphState) : (s.withCph x).boot = s.boot := by rfl
@[simp] theorem State.withCph_wkt (x : CphState) : (s.withCph x).wkt = s.wkt := by rfl
@[simp] theorem State.withCph_pins (x : CphState) : (s.withCph x).pins = s.pins := by rfl
@[simp] theorem State.withCph_lost (x : CphState) : (s.withCph x).lost = s.lost := by rfl
@[simp] theorem State.withCph_out (x : CphState) : (s.withCph x).out = s.out := by rfl
@[simp] theorem State.withCph_free (x : CphState) : (s.withCph x).free = s.free := by rfl
@[simp] theorem State.withCph_pending (x : CphState) : (s.withCph x).pending = s.pending := by rfl
@[simp] theorem State.withCph_rd (x : CphState) (o : Nat) : (s.withCph x).rd o = s.rd o := by rfl
@[simp] theorem State.withCph_get (x : CphState) (f : Fld) : (s.withCph x).get f = s.get f := by rfl
@[simp] theorem State.withCph_phase (x : CphState) : (s.withCph x).phase = s.phase := by rfl
@[simp] theorem State.withCph_byte (x : CphState) (a : Nat) : (s.withCph x).byte a = s.byte a := by rfl
@[simp] theorem State.withCph_plan (x : CphState) : (s.withCph x).plan = s.plan := by rfl

/-! `State.withTe` -/

@[simp] theorem State.withTe_regs (x : TeState) : (s.withTe x).regs = s.regs := by rfl
@[simp] theorem State.withTe_mem (x : TeState) : (s.withTe x).mem = s.mem := by rfl
@[simp] theorem State.withTe_poison (x : TeState) : (s.withTe x).poison = s.poison := by rfl
@[simp] theorem State.withTe_zeroMap (x : TeState) : (s.withTe x).zeroMap = s.zeroMap := by rfl
@[simp] theorem State.withTe_ddr (x : TeState) : (s.withTe x).ddr = s.ddr := by rfl
@[simp] theorem State.withTe_chCe (x : TeState) : (s.withTe x).chCe = s.chCe := by rfl
@[simp] theorem State.withTe_chTimes (x : TeState) : (s.withTe x).chTimes = s.chTimes := by rfl
@[simp] theorem State.withTe_chTold (x : TeState) : (s.withTe x).chTold = s.chTold := by rfl
@[simp] theorem State.withTe_tiles (x : TeState) : (s.withTe x).tiles = s.tiles := by rfl
@[simp] theorem State.withTe_prm (x : TeState) : (s.withTe x).prm = s.prm := by rfl
@[simp] theorem State.withTe_pav (x : TeState) : (s.withTe x).pav = s.pav := by rfl
@[simp] theorem State.withTe_frames (x : TeState) : (s.withTe x).frames = s.frames := by rfl
@[simp] theorem State.withTe_arb (x : TeState) : (s.withTe x).arb = s.arb := by rfl
@[simp] theorem State.withTe_passed (x : TeState) : (s.withTe x).passed = s.passed := by rfl
@[simp] theorem State.withTe_acm (x : TeState) : (s.withTe x).acm = s.acm := by rfl
@[simp] theorem State.withTe_emt (x : TeState) : (s.withTe x).emt = s.emt := by rfl
@[simp] theorem State.withTe_site (x : TeState) : (s.withTe x).site = s.site := by rfl
@[simp] theorem State.withTe_tb (x : TeState) : (s.withTe x).tb = s.tb := by rfl
@[simp] theorem State.withTe_clk (x : TeState) : (s.withTe x).clk = s.clk := by rfl
@[simp] theorem State.withTe_eth (x : TeState) : (s.withTe x).eth = s.eth := by rfl
@[simp] theorem State.withTe_sch (x : TeState) : (s.withTe x).sch = s.sch := by rfl
@[simp] theorem State.withTe_cph (x : TeState) : (s.withTe x).cph = s.cph := by rfl
@[simp] theorem State.withTe_te (x : TeState) : (s.withTe x).te = x := by rfl
@[simp] theorem State.withTe_nve (x : TeState) : (s.withTe x).nve = s.nve := by rfl
@[simp] theorem State.withTe_hif (x : TeState) : (s.withTe x).hif = s.hif := by rfl
@[simp] theorem State.withTe_pcie (x : TeState) : (s.withTe x).pcie = s.pcie := by rfl
@[simp] theorem State.withTe_harts (x : TeState) : (s.withTe x).harts = s.harts := by rfl
@[simp] theorem State.withTe_aia (x : TeState) : (s.withTe x).aia = s.aia := by rfl
@[simp] theorem State.withTe_cache (x : TeState) : (s.withTe x).cache = s.cache := by rfl
@[simp] theorem State.withTe_pwr (x : TeState) : (s.withTe x).pwr = s.pwr := by rfl
@[simp] theorem State.withTe_boot (x : TeState) : (s.withTe x).boot = s.boot := by rfl
@[simp] theorem State.withTe_wkt (x : TeState) : (s.withTe x).wkt = s.wkt := by rfl
@[simp] theorem State.withTe_pins (x : TeState) : (s.withTe x).pins = s.pins := by rfl
@[simp] theorem State.withTe_lost (x : TeState) : (s.withTe x).lost = s.lost := by rfl
@[simp] theorem State.withTe_out (x : TeState) : (s.withTe x).out = s.out := by rfl
@[simp] theorem State.withTe_free (x : TeState) : (s.withTe x).free = s.free := by rfl
@[simp] theorem State.withTe_pending (x : TeState) : (s.withTe x).pending = s.pending := by rfl
@[simp] theorem State.withTe_rd (x : TeState) (o : Nat) : (s.withTe x).rd o = s.rd o := by rfl
@[simp] theorem State.withTe_get (x : TeState) (f : Fld) : (s.withTe x).get f = s.get f := by rfl
@[simp] theorem State.withTe_phase (x : TeState) : (s.withTe x).phase = s.phase := by rfl
@[simp] theorem State.withTe_byte (x : TeState) (a : Nat) : (s.withTe x).byte a = s.byte a := by rfl
@[simp] theorem State.withTe_plan (x : TeState) : (s.withTe x).plan = s.plan := by rfl

/-! `State.withNve` -/

@[simp] theorem State.withNve_regs (x : NveState) : (s.withNve x).regs = s.regs := by rfl
@[simp] theorem State.withNve_mem (x : NveState) : (s.withNve x).mem = s.mem := by rfl
@[simp] theorem State.withNve_poison (x : NveState) : (s.withNve x).poison = s.poison := by rfl
@[simp] theorem State.withNve_zeroMap (x : NveState) : (s.withNve x).zeroMap = s.zeroMap := by rfl
@[simp] theorem State.withNve_ddr (x : NveState) : (s.withNve x).ddr = s.ddr := by rfl
@[simp] theorem State.withNve_chCe (x : NveState) : (s.withNve x).chCe = s.chCe := by rfl
@[simp] theorem State.withNve_chTimes (x : NveState) : (s.withNve x).chTimes = s.chTimes := by rfl
@[simp] theorem State.withNve_chTold (x : NveState) : (s.withNve x).chTold = s.chTold := by rfl
@[simp] theorem State.withNve_tiles (x : NveState) : (s.withNve x).tiles = s.tiles := by rfl
@[simp] theorem State.withNve_prm (x : NveState) : (s.withNve x).prm = s.prm := by rfl
@[simp] theorem State.withNve_pav (x : NveState) : (s.withNve x).pav = s.pav := by rfl
@[simp] theorem State.withNve_frames (x : NveState) : (s.withNve x).frames = s.frames := by rfl
@[simp] theorem State.withNve_arb (x : NveState) : (s.withNve x).arb = s.arb := by rfl
@[simp] theorem State.withNve_passed (x : NveState) : (s.withNve x).passed = s.passed := by rfl
@[simp] theorem State.withNve_acm (x : NveState) : (s.withNve x).acm = s.acm := by rfl
@[simp] theorem State.withNve_emt (x : NveState) : (s.withNve x).emt = s.emt := by rfl
@[simp] theorem State.withNve_site (x : NveState) : (s.withNve x).site = s.site := by rfl
@[simp] theorem State.withNve_tb (x : NveState) : (s.withNve x).tb = s.tb := by rfl
@[simp] theorem State.withNve_clk (x : NveState) : (s.withNve x).clk = s.clk := by rfl
@[simp] theorem State.withNve_eth (x : NveState) : (s.withNve x).eth = s.eth := by rfl
@[simp] theorem State.withNve_sch (x : NveState) : (s.withNve x).sch = s.sch := by rfl
@[simp] theorem State.withNve_cph (x : NveState) : (s.withNve x).cph = s.cph := by rfl
@[simp] theorem State.withNve_te (x : NveState) : (s.withNve x).te = s.te := by rfl
@[simp] theorem State.withNve_nve (x : NveState) : (s.withNve x).nve = x := by rfl
@[simp] theorem State.withNve_hif (x : NveState) : (s.withNve x).hif = s.hif := by rfl
@[simp] theorem State.withNve_pcie (x : NveState) : (s.withNve x).pcie = s.pcie := by rfl
@[simp] theorem State.withNve_harts (x : NveState) : (s.withNve x).harts = s.harts := by rfl
@[simp] theorem State.withNve_aia (x : NveState) : (s.withNve x).aia = s.aia := by rfl
@[simp] theorem State.withNve_cache (x : NveState) : (s.withNve x).cache = s.cache := by rfl
@[simp] theorem State.withNve_pwr (x : NveState) : (s.withNve x).pwr = s.pwr := by rfl
@[simp] theorem State.withNve_boot (x : NveState) : (s.withNve x).boot = s.boot := by rfl
@[simp] theorem State.withNve_wkt (x : NveState) : (s.withNve x).wkt = s.wkt := by rfl
@[simp] theorem State.withNve_pins (x : NveState) : (s.withNve x).pins = s.pins := by rfl
@[simp] theorem State.withNve_lost (x : NveState) : (s.withNve x).lost = s.lost := by rfl
@[simp] theorem State.withNve_out (x : NveState) : (s.withNve x).out = s.out := by rfl
@[simp] theorem State.withNve_free (x : NveState) : (s.withNve x).free = s.free := by rfl
@[simp] theorem State.withNve_pending (x : NveState) : (s.withNve x).pending = s.pending := by rfl
@[simp] theorem State.withNve_rd (x : NveState) (o : Nat) : (s.withNve x).rd o = s.rd o := by rfl
@[simp] theorem State.withNve_get (x : NveState) (f : Fld) : (s.withNve x).get f = s.get f := by rfl
@[simp] theorem State.withNve_phase (x : NveState) : (s.withNve x).phase = s.phase := by rfl
@[simp] theorem State.withNve_byte (x : NveState) (a : Nat) : (s.withNve x).byte a = s.byte a := by rfl
@[simp] theorem State.withNve_plan (x : NveState) : (s.withNve x).plan = s.plan := by rfl

/-! `State.withHif` -/

@[simp] theorem State.withHif_regs (x : HifState) : (s.withHif x).regs = s.regs := by rfl
@[simp] theorem State.withHif_mem (x : HifState) : (s.withHif x).mem = s.mem := by rfl
@[simp] theorem State.withHif_poison (x : HifState) : (s.withHif x).poison = s.poison := by rfl
@[simp] theorem State.withHif_zeroMap (x : HifState) : (s.withHif x).zeroMap = s.zeroMap := by rfl
@[simp] theorem State.withHif_ddr (x : HifState) : (s.withHif x).ddr = s.ddr := by rfl
@[simp] theorem State.withHif_chCe (x : HifState) : (s.withHif x).chCe = s.chCe := by rfl
@[simp] theorem State.withHif_chTimes (x : HifState) : (s.withHif x).chTimes = s.chTimes := by rfl
@[simp] theorem State.withHif_chTold (x : HifState) : (s.withHif x).chTold = s.chTold := by rfl
@[simp] theorem State.withHif_tiles (x : HifState) : (s.withHif x).tiles = s.tiles := by rfl
@[simp] theorem State.withHif_prm (x : HifState) : (s.withHif x).prm = s.prm := by rfl
@[simp] theorem State.withHif_pav (x : HifState) : (s.withHif x).pav = s.pav := by rfl
@[simp] theorem State.withHif_frames (x : HifState) : (s.withHif x).frames = s.frames := by rfl
@[simp] theorem State.withHif_arb (x : HifState) : (s.withHif x).arb = s.arb := by rfl
@[simp] theorem State.withHif_passed (x : HifState) : (s.withHif x).passed = s.passed := by rfl
@[simp] theorem State.withHif_acm (x : HifState) : (s.withHif x).acm = s.acm := by rfl
@[simp] theorem State.withHif_emt (x : HifState) : (s.withHif x).emt = s.emt := by rfl
@[simp] theorem State.withHif_site (x : HifState) : (s.withHif x).site = s.site := by rfl
@[simp] theorem State.withHif_tb (x : HifState) : (s.withHif x).tb = s.tb := by rfl
@[simp] theorem State.withHif_clk (x : HifState) : (s.withHif x).clk = s.clk := by rfl
@[simp] theorem State.withHif_eth (x : HifState) : (s.withHif x).eth = s.eth := by rfl
@[simp] theorem State.withHif_sch (x : HifState) : (s.withHif x).sch = s.sch := by rfl
@[simp] theorem State.withHif_cph (x : HifState) : (s.withHif x).cph = s.cph := by rfl
@[simp] theorem State.withHif_te (x : HifState) : (s.withHif x).te = s.te := by rfl
@[simp] theorem State.withHif_nve (x : HifState) : (s.withHif x).nve = s.nve := by rfl
@[simp] theorem State.withHif_hif (x : HifState) : (s.withHif x).hif = x := by rfl
@[simp] theorem State.withHif_pcie (x : HifState) : (s.withHif x).pcie = s.pcie := by rfl
@[simp] theorem State.withHif_harts (x : HifState) : (s.withHif x).harts = s.harts := by rfl
@[simp] theorem State.withHif_aia (x : HifState) : (s.withHif x).aia = s.aia := by rfl
@[simp] theorem State.withHif_cache (x : HifState) : (s.withHif x).cache = s.cache := by rfl
@[simp] theorem State.withHif_pwr (x : HifState) : (s.withHif x).pwr = s.pwr := by rfl
@[simp] theorem State.withHif_boot (x : HifState) : (s.withHif x).boot = s.boot := by rfl
@[simp] theorem State.withHif_wkt (x : HifState) : (s.withHif x).wkt = s.wkt := by rfl
@[simp] theorem State.withHif_pins (x : HifState) : (s.withHif x).pins = s.pins := by rfl
@[simp] theorem State.withHif_lost (x : HifState) : (s.withHif x).lost = s.lost := by rfl
@[simp] theorem State.withHif_out (x : HifState) : (s.withHif x).out = s.out := by rfl
@[simp] theorem State.withHif_free (x : HifState) : (s.withHif x).free = s.free := by rfl
@[simp] theorem State.withHif_pending (x : HifState) : (s.withHif x).pending = s.pending := by rfl
@[simp] theorem State.withHif_rd (x : HifState) (o : Nat) : (s.withHif x).rd o = s.rd o := by rfl
@[simp] theorem State.withHif_get (x : HifState) (f : Fld) : (s.withHif x).get f = s.get f := by rfl
@[simp] theorem State.withHif_phase (x : HifState) : (s.withHif x).phase = s.phase := by rfl
@[simp] theorem State.withHif_byte (x : HifState) (a : Nat) : (s.withHif x).byte a = s.byte a := by rfl
@[simp] theorem State.withHif_plan (x : HifState) : (s.withHif x).plan = s.plan := by rfl

/-! `State.withPcie` -/

@[simp] theorem State.withPcie_regs (x : PcieState) : (s.withPcie x).regs = s.regs := by rfl
@[simp] theorem State.withPcie_mem (x : PcieState) : (s.withPcie x).mem = s.mem := by rfl
@[simp] theorem State.withPcie_poison (x : PcieState) : (s.withPcie x).poison = s.poison := by rfl
@[simp] theorem State.withPcie_zeroMap (x : PcieState) : (s.withPcie x).zeroMap = s.zeroMap := by rfl
@[simp] theorem State.withPcie_ddr (x : PcieState) : (s.withPcie x).ddr = s.ddr := by rfl
@[simp] theorem State.withPcie_chCe (x : PcieState) : (s.withPcie x).chCe = s.chCe := by rfl
@[simp] theorem State.withPcie_chTimes (x : PcieState) : (s.withPcie x).chTimes = s.chTimes := by rfl
@[simp] theorem State.withPcie_chTold (x : PcieState) : (s.withPcie x).chTold = s.chTold := by rfl
@[simp] theorem State.withPcie_tiles (x : PcieState) : (s.withPcie x).tiles = s.tiles := by rfl
@[simp] theorem State.withPcie_prm (x : PcieState) : (s.withPcie x).prm = s.prm := by rfl
@[simp] theorem State.withPcie_pav (x : PcieState) : (s.withPcie x).pav = s.pav := by rfl
@[simp] theorem State.withPcie_frames (x : PcieState) : (s.withPcie x).frames = s.frames := by rfl
@[simp] theorem State.withPcie_arb (x : PcieState) : (s.withPcie x).arb = s.arb := by rfl
@[simp] theorem State.withPcie_passed (x : PcieState) : (s.withPcie x).passed = s.passed := by rfl
@[simp] theorem State.withPcie_acm (x : PcieState) : (s.withPcie x).acm = s.acm := by rfl
@[simp] theorem State.withPcie_emt (x : PcieState) : (s.withPcie x).emt = s.emt := by rfl
@[simp] theorem State.withPcie_site (x : PcieState) : (s.withPcie x).site = s.site := by rfl
@[simp] theorem State.withPcie_tb (x : PcieState) : (s.withPcie x).tb = s.tb := by rfl
@[simp] theorem State.withPcie_clk (x : PcieState) : (s.withPcie x).clk = s.clk := by rfl
@[simp] theorem State.withPcie_eth (x : PcieState) : (s.withPcie x).eth = s.eth := by rfl
@[simp] theorem State.withPcie_sch (x : PcieState) : (s.withPcie x).sch = s.sch := by rfl
@[simp] theorem State.withPcie_cph (x : PcieState) : (s.withPcie x).cph = s.cph := by rfl
@[simp] theorem State.withPcie_te (x : PcieState) : (s.withPcie x).te = s.te := by rfl
@[simp] theorem State.withPcie_nve (x : PcieState) : (s.withPcie x).nve = s.nve := by rfl
@[simp] theorem State.withPcie_hif (x : PcieState) : (s.withPcie x).hif = s.hif := by rfl
@[simp] theorem State.withPcie_pcie (x : PcieState) : (s.withPcie x).pcie = x := by rfl
@[simp] theorem State.withPcie_harts (x : PcieState) : (s.withPcie x).harts = s.harts := by rfl
@[simp] theorem State.withPcie_aia (x : PcieState) : (s.withPcie x).aia = s.aia := by rfl
@[simp] theorem State.withPcie_cache (x : PcieState) : (s.withPcie x).cache = s.cache := by rfl
@[simp] theorem State.withPcie_pwr (x : PcieState) : (s.withPcie x).pwr = s.pwr := by rfl
@[simp] theorem State.withPcie_boot (x : PcieState) : (s.withPcie x).boot = s.boot := by rfl
@[simp] theorem State.withPcie_wkt (x : PcieState) : (s.withPcie x).wkt = s.wkt := by rfl
@[simp] theorem State.withPcie_pins (x : PcieState) : (s.withPcie x).pins = s.pins := by rfl
@[simp] theorem State.withPcie_lost (x : PcieState) : (s.withPcie x).lost = s.lost := by rfl
@[simp] theorem State.withPcie_out (x : PcieState) : (s.withPcie x).out = s.out := by rfl
@[simp] theorem State.withPcie_free (x : PcieState) : (s.withPcie x).free = s.free := by rfl
@[simp] theorem State.withPcie_pending (x : PcieState) : (s.withPcie x).pending = s.pending := by rfl
@[simp] theorem State.withPcie_rd (x : PcieState) (o : Nat) : (s.withPcie x).rd o = s.rd o := by rfl
@[simp] theorem State.withPcie_get (x : PcieState) (f : Fld) : (s.withPcie x).get f = s.get f := by rfl
@[simp] theorem State.withPcie_phase (x : PcieState) : (s.withPcie x).phase = s.phase := by rfl
@[simp] theorem State.withPcie_byte (x : PcieState) (a : Nat) : (s.withPcie x).byte a = s.byte a := by rfl
@[simp] theorem State.withPcie_plan (x : PcieState) : (s.withPcie x).plan = s.plan := by rfl

/-! `State.withHarts` -/

@[simp] theorem State.withHarts_regs (x : Sparse Hart) : (s.withHarts x).regs = s.regs := by rfl
@[simp] theorem State.withHarts_mem (x : Sparse Hart) : (s.withHarts x).mem = s.mem := by rfl
@[simp] theorem State.withHarts_poison (x : Sparse Hart) : (s.withHarts x).poison = s.poison := by rfl
@[simp] theorem State.withHarts_zeroMap (x : Sparse Hart) : (s.withHarts x).zeroMap = s.zeroMap := by rfl
@[simp] theorem State.withHarts_ddr (x : Sparse Hart) : (s.withHarts x).ddr = s.ddr := by rfl
@[simp] theorem State.withHarts_chCe (x : Sparse Hart) : (s.withHarts x).chCe = s.chCe := by rfl
@[simp] theorem State.withHarts_chTimes (x : Sparse Hart) : (s.withHarts x).chTimes = s.chTimes := by rfl
@[simp] theorem State.withHarts_chTold (x : Sparse Hart) : (s.withHarts x).chTold = s.chTold := by rfl
@[simp] theorem State.withHarts_tiles (x : Sparse Hart) : (s.withHarts x).tiles = s.tiles := by rfl
@[simp] theorem State.withHarts_prm (x : Sparse Hart) : (s.withHarts x).prm = s.prm := by rfl
@[simp] theorem State.withHarts_pav (x : Sparse Hart) : (s.withHarts x).pav = s.pav := by rfl
@[simp] theorem State.withHarts_frames (x : Sparse Hart) : (s.withHarts x).frames = s.frames := by rfl
@[simp] theorem State.withHarts_arb (x : Sparse Hart) : (s.withHarts x).arb = s.arb := by rfl
@[simp] theorem State.withHarts_passed (x : Sparse Hart) : (s.withHarts x).passed = s.passed := by rfl
@[simp] theorem State.withHarts_acm (x : Sparse Hart) : (s.withHarts x).acm = s.acm := by rfl
@[simp] theorem State.withHarts_emt (x : Sparse Hart) : (s.withHarts x).emt = s.emt := by rfl
@[simp] theorem State.withHarts_site (x : Sparse Hart) : (s.withHarts x).site = s.site := by rfl
@[simp] theorem State.withHarts_tb (x : Sparse Hart) : (s.withHarts x).tb = s.tb := by rfl
@[simp] theorem State.withHarts_clk (x : Sparse Hart) : (s.withHarts x).clk = s.clk := by rfl
@[simp] theorem State.withHarts_eth (x : Sparse Hart) : (s.withHarts x).eth = s.eth := by rfl
@[simp] theorem State.withHarts_sch (x : Sparse Hart) : (s.withHarts x).sch = s.sch := by rfl
@[simp] theorem State.withHarts_cph (x : Sparse Hart) : (s.withHarts x).cph = s.cph := by rfl
@[simp] theorem State.withHarts_te (x : Sparse Hart) : (s.withHarts x).te = s.te := by rfl
@[simp] theorem State.withHarts_nve (x : Sparse Hart) : (s.withHarts x).nve = s.nve := by rfl
@[simp] theorem State.withHarts_hif (x : Sparse Hart) : (s.withHarts x).hif = s.hif := by rfl
@[simp] theorem State.withHarts_pcie (x : Sparse Hart) : (s.withHarts x).pcie = s.pcie := by rfl
@[simp] theorem State.withHarts_harts (x : Sparse Hart) : (s.withHarts x).harts = x := by rfl
@[simp] theorem State.withHarts_aia (x : Sparse Hart) : (s.withHarts x).aia = s.aia := by rfl
@[simp] theorem State.withHarts_cache (x : Sparse Hart) : (s.withHarts x).cache = s.cache := by rfl
@[simp] theorem State.withHarts_pwr (x : Sparse Hart) : (s.withHarts x).pwr = s.pwr := by rfl
@[simp] theorem State.withHarts_boot (x : Sparse Hart) : (s.withHarts x).boot = s.boot := by rfl
@[simp] theorem State.withHarts_wkt (x : Sparse Hart) : (s.withHarts x).wkt = s.wkt := by rfl
@[simp] theorem State.withHarts_pins (x : Sparse Hart) : (s.withHarts x).pins = s.pins := by rfl
@[simp] theorem State.withHarts_lost (x : Sparse Hart) : (s.withHarts x).lost = s.lost := by rfl
@[simp] theorem State.withHarts_out (x : Sparse Hart) : (s.withHarts x).out = s.out := by rfl
@[simp] theorem State.withHarts_free (x : Sparse Hart) : (s.withHarts x).free = s.free := by rfl
@[simp] theorem State.withHarts_pending (x : Sparse Hart) : (s.withHarts x).pending = s.pending := by rfl
@[simp] theorem State.withHarts_rd (x : Sparse Hart) (o : Nat) : (s.withHarts x).rd o = s.rd o := by rfl
@[simp] theorem State.withHarts_get (x : Sparse Hart) (f : Fld) : (s.withHarts x).get f = s.get f := by rfl
@[simp] theorem State.withHarts_phase (x : Sparse Hart) : (s.withHarts x).phase = s.phase := by rfl
@[simp] theorem State.withHarts_byte (x : Sparse Hart) (a : Nat) : (s.withHarts x).byte a = s.byte a := by rfl
@[simp] theorem State.withHarts_plan (x : Sparse Hart) : (s.withHarts x).plan = s.plan := by rfl

/-! `State.withAia` -/

@[simp] theorem State.withAia_regs (x : AiaState) : (s.withAia x).regs = s.regs := by rfl
@[simp] theorem State.withAia_mem (x : AiaState) : (s.withAia x).mem = s.mem := by rfl
@[simp] theorem State.withAia_poison (x : AiaState) : (s.withAia x).poison = s.poison := by rfl
@[simp] theorem State.withAia_zeroMap (x : AiaState) : (s.withAia x).zeroMap = s.zeroMap := by rfl
@[simp] theorem State.withAia_ddr (x : AiaState) : (s.withAia x).ddr = s.ddr := by rfl
@[simp] theorem State.withAia_chCe (x : AiaState) : (s.withAia x).chCe = s.chCe := by rfl
@[simp] theorem State.withAia_chTimes (x : AiaState) : (s.withAia x).chTimes = s.chTimes := by rfl
@[simp] theorem State.withAia_chTold (x : AiaState) : (s.withAia x).chTold = s.chTold := by rfl
@[simp] theorem State.withAia_tiles (x : AiaState) : (s.withAia x).tiles = s.tiles := by rfl
@[simp] theorem State.withAia_prm (x : AiaState) : (s.withAia x).prm = s.prm := by rfl
@[simp] theorem State.withAia_pav (x : AiaState) : (s.withAia x).pav = s.pav := by rfl
@[simp] theorem State.withAia_frames (x : AiaState) : (s.withAia x).frames = s.frames := by rfl
@[simp] theorem State.withAia_arb (x : AiaState) : (s.withAia x).arb = s.arb := by rfl
@[simp] theorem State.withAia_passed (x : AiaState) : (s.withAia x).passed = s.passed := by rfl
@[simp] theorem State.withAia_acm (x : AiaState) : (s.withAia x).acm = s.acm := by rfl
@[simp] theorem State.withAia_emt (x : AiaState) : (s.withAia x).emt = s.emt := by rfl
@[simp] theorem State.withAia_site (x : AiaState) : (s.withAia x).site = s.site := by rfl
@[simp] theorem State.withAia_tb (x : AiaState) : (s.withAia x).tb = s.tb := by rfl
@[simp] theorem State.withAia_clk (x : AiaState) : (s.withAia x).clk = s.clk := by rfl
@[simp] theorem State.withAia_eth (x : AiaState) : (s.withAia x).eth = s.eth := by rfl
@[simp] theorem State.withAia_sch (x : AiaState) : (s.withAia x).sch = s.sch := by rfl
@[simp] theorem State.withAia_cph (x : AiaState) : (s.withAia x).cph = s.cph := by rfl
@[simp] theorem State.withAia_te (x : AiaState) : (s.withAia x).te = s.te := by rfl
@[simp] theorem State.withAia_nve (x : AiaState) : (s.withAia x).nve = s.nve := by rfl
@[simp] theorem State.withAia_hif (x : AiaState) : (s.withAia x).hif = s.hif := by rfl
@[simp] theorem State.withAia_pcie (x : AiaState) : (s.withAia x).pcie = s.pcie := by rfl
@[simp] theorem State.withAia_harts (x : AiaState) : (s.withAia x).harts = s.harts := by rfl
@[simp] theorem State.withAia_aia (x : AiaState) : (s.withAia x).aia = x := by rfl
@[simp] theorem State.withAia_cache (x : AiaState) : (s.withAia x).cache = s.cache := by rfl
@[simp] theorem State.withAia_pwr (x : AiaState) : (s.withAia x).pwr = s.pwr := by rfl
@[simp] theorem State.withAia_boot (x : AiaState) : (s.withAia x).boot = s.boot := by rfl
@[simp] theorem State.withAia_wkt (x : AiaState) : (s.withAia x).wkt = s.wkt := by rfl
@[simp] theorem State.withAia_pins (x : AiaState) : (s.withAia x).pins = s.pins := by rfl
@[simp] theorem State.withAia_lost (x : AiaState) : (s.withAia x).lost = s.lost := by rfl
@[simp] theorem State.withAia_out (x : AiaState) : (s.withAia x).out = s.out := by rfl
@[simp] theorem State.withAia_free (x : AiaState) : (s.withAia x).free = s.free := by rfl
@[simp] theorem State.withAia_pending (x : AiaState) : (s.withAia x).pending = s.pending := by rfl
@[simp] theorem State.withAia_rd (x : AiaState) (o : Nat) : (s.withAia x).rd o = s.rd o := by rfl
@[simp] theorem State.withAia_get (x : AiaState) (f : Fld) : (s.withAia x).get f = s.get f := by rfl
@[simp] theorem State.withAia_phase (x : AiaState) : (s.withAia x).phase = s.phase := by rfl
@[simp] theorem State.withAia_byte (x : AiaState) (a : Nat) : (s.withAia x).byte a = s.byte a := by rfl
@[simp] theorem State.withAia_plan (x : AiaState) : (s.withAia x).plan = s.plan := by rfl

/-! `State.withCache` -/

@[simp] theorem State.withCache_regs (x : Sparse CacheLine) : (s.withCache x).regs = s.regs := by rfl
@[simp] theorem State.withCache_mem (x : Sparse CacheLine) : (s.withCache x).mem = s.mem := by rfl
@[simp] theorem State.withCache_poison (x : Sparse CacheLine) : (s.withCache x).poison = s.poison := by rfl
@[simp] theorem State.withCache_zeroMap (x : Sparse CacheLine) : (s.withCache x).zeroMap = s.zeroMap := by rfl
@[simp] theorem State.withCache_ddr (x : Sparse CacheLine) : (s.withCache x).ddr = s.ddr := by rfl
@[simp] theorem State.withCache_chCe (x : Sparse CacheLine) : (s.withCache x).chCe = s.chCe := by rfl
@[simp] theorem State.withCache_chTimes (x : Sparse CacheLine) : (s.withCache x).chTimes = s.chTimes := by rfl
@[simp] theorem State.withCache_chTold (x : Sparse CacheLine) : (s.withCache x).chTold = s.chTold := by rfl
@[simp] theorem State.withCache_tiles (x : Sparse CacheLine) : (s.withCache x).tiles = s.tiles := by rfl
@[simp] theorem State.withCache_prm (x : Sparse CacheLine) : (s.withCache x).prm = s.prm := by rfl
@[simp] theorem State.withCache_pav (x : Sparse CacheLine) : (s.withCache x).pav = s.pav := by rfl
@[simp] theorem State.withCache_frames (x : Sparse CacheLine) : (s.withCache x).frames = s.frames := by rfl
@[simp] theorem State.withCache_arb (x : Sparse CacheLine) : (s.withCache x).arb = s.arb := by rfl
@[simp] theorem State.withCache_passed (x : Sparse CacheLine) : (s.withCache x).passed = s.passed := by rfl
@[simp] theorem State.withCache_acm (x : Sparse CacheLine) : (s.withCache x).acm = s.acm := by rfl
@[simp] theorem State.withCache_emt (x : Sparse CacheLine) : (s.withCache x).emt = s.emt := by rfl
@[simp] theorem State.withCache_site (x : Sparse CacheLine) : (s.withCache x).site = s.site := by rfl
@[simp] theorem State.withCache_tb (x : Sparse CacheLine) : (s.withCache x).tb = s.tb := by rfl
@[simp] theorem State.withCache_clk (x : Sparse CacheLine) : (s.withCache x).clk = s.clk := by rfl
@[simp] theorem State.withCache_eth (x : Sparse CacheLine) : (s.withCache x).eth = s.eth := by rfl
@[simp] theorem State.withCache_sch (x : Sparse CacheLine) : (s.withCache x).sch = s.sch := by rfl
@[simp] theorem State.withCache_cph (x : Sparse CacheLine) : (s.withCache x).cph = s.cph := by rfl
@[simp] theorem State.withCache_te (x : Sparse CacheLine) : (s.withCache x).te = s.te := by rfl
@[simp] theorem State.withCache_nve (x : Sparse CacheLine) : (s.withCache x).nve = s.nve := by rfl
@[simp] theorem State.withCache_hif (x : Sparse CacheLine) : (s.withCache x).hif = s.hif := by rfl
@[simp] theorem State.withCache_pcie (x : Sparse CacheLine) : (s.withCache x).pcie = s.pcie := by rfl
@[simp] theorem State.withCache_harts (x : Sparse CacheLine) : (s.withCache x).harts = s.harts := by rfl
@[simp] theorem State.withCache_aia (x : Sparse CacheLine) : (s.withCache x).aia = s.aia := by rfl
@[simp] theorem State.withCache_cache (x : Sparse CacheLine) : (s.withCache x).cache = x := by rfl
@[simp] theorem State.withCache_pwr (x : Sparse CacheLine) : (s.withCache x).pwr = s.pwr := by rfl
@[simp] theorem State.withCache_boot (x : Sparse CacheLine) : (s.withCache x).boot = s.boot := by rfl
@[simp] theorem State.withCache_wkt (x : Sparse CacheLine) : (s.withCache x).wkt = s.wkt := by rfl
@[simp] theorem State.withCache_pins (x : Sparse CacheLine) : (s.withCache x).pins = s.pins := by rfl
@[simp] theorem State.withCache_lost (x : Sparse CacheLine) : (s.withCache x).lost = s.lost := by rfl
@[simp] theorem State.withCache_out (x : Sparse CacheLine) : (s.withCache x).out = s.out := by rfl
@[simp] theorem State.withCache_free (x : Sparse CacheLine) : (s.withCache x).free = s.free := by rfl
@[simp] theorem State.withCache_pending (x : Sparse CacheLine) : (s.withCache x).pending = s.pending := by rfl
@[simp] theorem State.withCache_rd (x : Sparse CacheLine) (o : Nat) : (s.withCache x).rd o = s.rd o := by rfl
@[simp] theorem State.withCache_get (x : Sparse CacheLine) (f : Fld) : (s.withCache x).get f = s.get f := by rfl
@[simp] theorem State.withCache_phase (x : Sparse CacheLine) : (s.withCache x).phase = s.phase := by rfl
@[simp] theorem State.withCache_byte (x : Sparse CacheLine) (a : Nat) : (s.withCache x).byte a = s.byte a := by rfl
@[simp] theorem State.withCache_plan (x : Sparse CacheLine) : (s.withCache x).plan = s.plan := by rfl

/-! `State.withPwr` -/

@[simp] theorem State.withPwr_regs (x : PwrState) : (s.withPwr x).regs = s.regs := by rfl
@[simp] theorem State.withPwr_mem (x : PwrState) : (s.withPwr x).mem = s.mem := by rfl
@[simp] theorem State.withPwr_poison (x : PwrState) : (s.withPwr x).poison = s.poison := by rfl
@[simp] theorem State.withPwr_zeroMap (x : PwrState) : (s.withPwr x).zeroMap = s.zeroMap := by rfl
@[simp] theorem State.withPwr_ddr (x : PwrState) : (s.withPwr x).ddr = s.ddr := by rfl
@[simp] theorem State.withPwr_chCe (x : PwrState) : (s.withPwr x).chCe = s.chCe := by rfl
@[simp] theorem State.withPwr_chTimes (x : PwrState) : (s.withPwr x).chTimes = s.chTimes := by rfl
@[simp] theorem State.withPwr_chTold (x : PwrState) : (s.withPwr x).chTold = s.chTold := by rfl
@[simp] theorem State.withPwr_tiles (x : PwrState) : (s.withPwr x).tiles = s.tiles := by rfl
@[simp] theorem State.withPwr_prm (x : PwrState) : (s.withPwr x).prm = s.prm := by rfl
@[simp] theorem State.withPwr_pav (x : PwrState) : (s.withPwr x).pav = s.pav := by rfl
@[simp] theorem State.withPwr_frames (x : PwrState) : (s.withPwr x).frames = s.frames := by rfl
@[simp] theorem State.withPwr_arb (x : PwrState) : (s.withPwr x).arb = s.arb := by rfl
@[simp] theorem State.withPwr_passed (x : PwrState) : (s.withPwr x).passed = s.passed := by rfl
@[simp] theorem State.withPwr_acm (x : PwrState) : (s.withPwr x).acm = s.acm := by rfl
@[simp] theorem State.withPwr_emt (x : PwrState) : (s.withPwr x).emt = s.emt := by rfl
@[simp] theorem State.withPwr_site (x : PwrState) : (s.withPwr x).site = s.site := by rfl
@[simp] theorem State.withPwr_tb (x : PwrState) : (s.withPwr x).tb = s.tb := by rfl
@[simp] theorem State.withPwr_clk (x : PwrState) : (s.withPwr x).clk = s.clk := by rfl
@[simp] theorem State.withPwr_eth (x : PwrState) : (s.withPwr x).eth = s.eth := by rfl
@[simp] theorem State.withPwr_sch (x : PwrState) : (s.withPwr x).sch = s.sch := by rfl
@[simp] theorem State.withPwr_cph (x : PwrState) : (s.withPwr x).cph = s.cph := by rfl
@[simp] theorem State.withPwr_te (x : PwrState) : (s.withPwr x).te = s.te := by rfl
@[simp] theorem State.withPwr_nve (x : PwrState) : (s.withPwr x).nve = s.nve := by rfl
@[simp] theorem State.withPwr_hif (x : PwrState) : (s.withPwr x).hif = s.hif := by rfl
@[simp] theorem State.withPwr_pcie (x : PwrState) : (s.withPwr x).pcie = s.pcie := by rfl
@[simp] theorem State.withPwr_harts (x : PwrState) : (s.withPwr x).harts = s.harts := by rfl
@[simp] theorem State.withPwr_aia (x : PwrState) : (s.withPwr x).aia = s.aia := by rfl
@[simp] theorem State.withPwr_cache (x : PwrState) : (s.withPwr x).cache = s.cache := by rfl
@[simp] theorem State.withPwr_pwr (x : PwrState) : (s.withPwr x).pwr = x := by rfl
@[simp] theorem State.withPwr_boot (x : PwrState) : (s.withPwr x).boot = s.boot := by rfl
@[simp] theorem State.withPwr_wkt (x : PwrState) : (s.withPwr x).wkt = s.wkt := by rfl
@[simp] theorem State.withPwr_pins (x : PwrState) : (s.withPwr x).pins = s.pins := by rfl
@[simp] theorem State.withPwr_lost (x : PwrState) : (s.withPwr x).lost = s.lost := by rfl
@[simp] theorem State.withPwr_out (x : PwrState) : (s.withPwr x).out = s.out := by rfl
@[simp] theorem State.withPwr_free (x : PwrState) : (s.withPwr x).free = s.free := by rfl
@[simp] theorem State.withPwr_pending (x : PwrState) : (s.withPwr x).pending = s.pending := by rfl
@[simp] theorem State.withPwr_rd (x : PwrState) (o : Nat) : (s.withPwr x).rd o = s.rd o := by rfl
@[simp] theorem State.withPwr_get (x : PwrState) (f : Fld) : (s.withPwr x).get f = s.get f := by rfl
@[simp] theorem State.withPwr_phase (x : PwrState) : (s.withPwr x).phase = s.phase := by rfl
@[simp] theorem State.withPwr_byte (x : PwrState) (a : Nat) : (s.withPwr x).byte a = s.byte a := by rfl
@[simp] theorem State.withPwr_plan (x : PwrState) : (s.withPwr x).plan = s.plan := by rfl

/-! `State.withBoot` -/

@[simp] theorem State.withBoot_regs (x : BootState) : (s.withBoot x).regs = s.regs := by rfl
@[simp] theorem State.withBoot_mem (x : BootState) : (s.withBoot x).mem = s.mem := by rfl
@[simp] theorem State.withBoot_poison (x : BootState) : (s.withBoot x).poison = s.poison := by rfl
@[simp] theorem State.withBoot_zeroMap (x : BootState) : (s.withBoot x).zeroMap = s.zeroMap := by rfl
@[simp] theorem State.withBoot_ddr (x : BootState) : (s.withBoot x).ddr = s.ddr := by rfl
@[simp] theorem State.withBoot_chCe (x : BootState) : (s.withBoot x).chCe = s.chCe := by rfl
@[simp] theorem State.withBoot_chTimes (x : BootState) : (s.withBoot x).chTimes = s.chTimes := by rfl
@[simp] theorem State.withBoot_chTold (x : BootState) : (s.withBoot x).chTold = s.chTold := by rfl
@[simp] theorem State.withBoot_tiles (x : BootState) : (s.withBoot x).tiles = s.tiles := by rfl
@[simp] theorem State.withBoot_prm (x : BootState) : (s.withBoot x).prm = s.prm := by rfl
@[simp] theorem State.withBoot_pav (x : BootState) : (s.withBoot x).pav = s.pav := by rfl
@[simp] theorem State.withBoot_frames (x : BootState) : (s.withBoot x).frames = s.frames := by rfl
@[simp] theorem State.withBoot_arb (x : BootState) : (s.withBoot x).arb = s.arb := by rfl
@[simp] theorem State.withBoot_passed (x : BootState) : (s.withBoot x).passed = s.passed := by rfl
@[simp] theorem State.withBoot_acm (x : BootState) : (s.withBoot x).acm = s.acm := by rfl
@[simp] theorem State.withBoot_emt (x : BootState) : (s.withBoot x).emt = s.emt := by rfl
@[simp] theorem State.withBoot_site (x : BootState) : (s.withBoot x).site = s.site := by rfl
@[simp] theorem State.withBoot_tb (x : BootState) : (s.withBoot x).tb = s.tb := by rfl
@[simp] theorem State.withBoot_clk (x : BootState) : (s.withBoot x).clk = s.clk := by rfl
@[simp] theorem State.withBoot_eth (x : BootState) : (s.withBoot x).eth = s.eth := by rfl
@[simp] theorem State.withBoot_sch (x : BootState) : (s.withBoot x).sch = s.sch := by rfl
@[simp] theorem State.withBoot_cph (x : BootState) : (s.withBoot x).cph = s.cph := by rfl
@[simp] theorem State.withBoot_te (x : BootState) : (s.withBoot x).te = s.te := by rfl
@[simp] theorem State.withBoot_nve (x : BootState) : (s.withBoot x).nve = s.nve := by rfl
@[simp] theorem State.withBoot_hif (x : BootState) : (s.withBoot x).hif = s.hif := by rfl
@[simp] theorem State.withBoot_pcie (x : BootState) : (s.withBoot x).pcie = s.pcie := by rfl
@[simp] theorem State.withBoot_harts (x : BootState) : (s.withBoot x).harts = s.harts := by rfl
@[simp] theorem State.withBoot_aia (x : BootState) : (s.withBoot x).aia = s.aia := by rfl
@[simp] theorem State.withBoot_cache (x : BootState) : (s.withBoot x).cache = s.cache := by rfl
@[simp] theorem State.withBoot_pwr (x : BootState) : (s.withBoot x).pwr = s.pwr := by rfl
@[simp] theorem State.withBoot_boot (x : BootState) : (s.withBoot x).boot = x := by rfl
@[simp] theorem State.withBoot_wkt (x : BootState) : (s.withBoot x).wkt = s.wkt := by rfl
@[simp] theorem State.withBoot_pins (x : BootState) : (s.withBoot x).pins = s.pins := by rfl
@[simp] theorem State.withBoot_lost (x : BootState) : (s.withBoot x).lost = s.lost := by rfl
@[simp] theorem State.withBoot_out (x : BootState) : (s.withBoot x).out = s.out := by rfl
@[simp] theorem State.withBoot_free (x : BootState) : (s.withBoot x).free = s.free := by rfl
@[simp] theorem State.withBoot_pending (x : BootState) : (s.withBoot x).pending = s.pending := by rfl
@[simp] theorem State.withBoot_rd (x : BootState) (o : Nat) : (s.withBoot x).rd o = s.rd o := by rfl
@[simp] theorem State.withBoot_get (x : BootState) (f : Fld) : (s.withBoot x).get f = s.get f := by rfl
@[simp] theorem State.withBoot_phase (x : BootState) : (s.withBoot x).phase = s.phase := by rfl
@[simp] theorem State.withBoot_byte (x : BootState) (a : Nat) : (s.withBoot x).byte a = s.byte a := by rfl
@[simp] theorem State.withBoot_plan (x : BootState) : (s.withBoot x).plan = s.plan := by rfl

/-! `State.withWkt` -/

@[simp] theorem State.withWkt_regs (x : WktState) : (s.withWkt x).regs = s.regs := by rfl
@[simp] theorem State.withWkt_mem (x : WktState) : (s.withWkt x).mem = s.mem := by rfl
@[simp] theorem State.withWkt_poison (x : WktState) : (s.withWkt x).poison = s.poison := by rfl
@[simp] theorem State.withWkt_zeroMap (x : WktState) : (s.withWkt x).zeroMap = s.zeroMap := by rfl
@[simp] theorem State.withWkt_ddr (x : WktState) : (s.withWkt x).ddr = s.ddr := by rfl
@[simp] theorem State.withWkt_chCe (x : WktState) : (s.withWkt x).chCe = s.chCe := by rfl
@[simp] theorem State.withWkt_chTimes (x : WktState) : (s.withWkt x).chTimes = s.chTimes := by rfl
@[simp] theorem State.withWkt_chTold (x : WktState) : (s.withWkt x).chTold = s.chTold := by rfl
@[simp] theorem State.withWkt_tiles (x : WktState) : (s.withWkt x).tiles = s.tiles := by rfl
@[simp] theorem State.withWkt_prm (x : WktState) : (s.withWkt x).prm = s.prm := by rfl
@[simp] theorem State.withWkt_pav (x : WktState) : (s.withWkt x).pav = s.pav := by rfl
@[simp] theorem State.withWkt_frames (x : WktState) : (s.withWkt x).frames = s.frames := by rfl
@[simp] theorem State.withWkt_arb (x : WktState) : (s.withWkt x).arb = s.arb := by rfl
@[simp] theorem State.withWkt_passed (x : WktState) : (s.withWkt x).passed = s.passed := by rfl
@[simp] theorem State.withWkt_acm (x : WktState) : (s.withWkt x).acm = s.acm := by rfl
@[simp] theorem State.withWkt_emt (x : WktState) : (s.withWkt x).emt = s.emt := by rfl
@[simp] theorem State.withWkt_site (x : WktState) : (s.withWkt x).site = s.site := by rfl
@[simp] theorem State.withWkt_tb (x : WktState) : (s.withWkt x).tb = s.tb := by rfl
@[simp] theorem State.withWkt_clk (x : WktState) : (s.withWkt x).clk = s.clk := by rfl
@[simp] theorem State.withWkt_eth (x : WktState) : (s.withWkt x).eth = s.eth := by rfl
@[simp] theorem State.withWkt_sch (x : WktState) : (s.withWkt x).sch = s.sch := by rfl
@[simp] theorem State.withWkt_cph (x : WktState) : (s.withWkt x).cph = s.cph := by rfl
@[simp] theorem State.withWkt_te (x : WktState) : (s.withWkt x).te = s.te := by rfl
@[simp] theorem State.withWkt_nve (x : WktState) : (s.withWkt x).nve = s.nve := by rfl
@[simp] theorem State.withWkt_hif (x : WktState) : (s.withWkt x).hif = s.hif := by rfl
@[simp] theorem State.withWkt_pcie (x : WktState) : (s.withWkt x).pcie = s.pcie := by rfl
@[simp] theorem State.withWkt_harts (x : WktState) : (s.withWkt x).harts = s.harts := by rfl
@[simp] theorem State.withWkt_aia (x : WktState) : (s.withWkt x).aia = s.aia := by rfl
@[simp] theorem State.withWkt_cache (x : WktState) : (s.withWkt x).cache = s.cache := by rfl
@[simp] theorem State.withWkt_pwr (x : WktState) : (s.withWkt x).pwr = s.pwr := by rfl
@[simp] theorem State.withWkt_boot (x : WktState) : (s.withWkt x).boot = s.boot := by rfl
@[simp] theorem State.withWkt_wkt (x : WktState) : (s.withWkt x).wkt = x := by rfl
@[simp] theorem State.withWkt_pins (x : WktState) : (s.withWkt x).pins = s.pins := by rfl
@[simp] theorem State.withWkt_lost (x : WktState) : (s.withWkt x).lost = s.lost := by rfl
@[simp] theorem State.withWkt_out (x : WktState) : (s.withWkt x).out = s.out := by rfl
@[simp] theorem State.withWkt_free (x : WktState) : (s.withWkt x).free = s.free := by rfl
@[simp] theorem State.withWkt_pending (x : WktState) : (s.withWkt x).pending = s.pending := by rfl
@[simp] theorem State.withWkt_rd (x : WktState) (o : Nat) : (s.withWkt x).rd o = s.rd o := by rfl
@[simp] theorem State.withWkt_get (x : WktState) (f : Fld) : (s.withWkt x).get f = s.get f := by rfl
@[simp] theorem State.withWkt_phase (x : WktState) : (s.withWkt x).phase = s.phase := by rfl
@[simp] theorem State.withWkt_byte (x : WktState) (a : Nat) : (s.withWkt x).byte a = s.byte a := by rfl
@[simp] theorem State.withWkt_plan (x : WktState) : (s.withWkt x).plan = s.plan := by rfl

/-! `State.withPins` -/

@[simp] theorem State.withPins_regs (x : Pins) : (s.withPins x).regs = s.regs := by rfl
@[simp] theorem State.withPins_mem (x : Pins) : (s.withPins x).mem = s.mem := by rfl
@[simp] theorem State.withPins_poison (x : Pins) : (s.withPins x).poison = s.poison := by rfl
@[simp] theorem State.withPins_zeroMap (x : Pins) : (s.withPins x).zeroMap = s.zeroMap := by rfl
@[simp] theorem State.withPins_ddr (x : Pins) : (s.withPins x).ddr = s.ddr := by rfl
@[simp] theorem State.withPins_chCe (x : Pins) : (s.withPins x).chCe = s.chCe := by rfl
@[simp] theorem State.withPins_chTimes (x : Pins) : (s.withPins x).chTimes = s.chTimes := by rfl
@[simp] theorem State.withPins_chTold (x : Pins) : (s.withPins x).chTold = s.chTold := by rfl
@[simp] theorem State.withPins_tiles (x : Pins) : (s.withPins x).tiles = s.tiles := by rfl
@[simp] theorem State.withPins_prm (x : Pins) : (s.withPins x).prm = s.prm := by rfl
@[simp] theorem State.withPins_pav (x : Pins) : (s.withPins x).pav = s.pav := by rfl
@[simp] theorem State.withPins_frames (x : Pins) : (s.withPins x).frames = s.frames := by rfl
@[simp] theorem State.withPins_arb (x : Pins) : (s.withPins x).arb = s.arb := by rfl
@[simp] theorem State.withPins_passed (x : Pins) : (s.withPins x).passed = s.passed := by rfl
@[simp] theorem State.withPins_acm (x : Pins) : (s.withPins x).acm = s.acm := by rfl
@[simp] theorem State.withPins_emt (x : Pins) : (s.withPins x).emt = s.emt := by rfl
@[simp] theorem State.withPins_site (x : Pins) : (s.withPins x).site = s.site := by rfl
@[simp] theorem State.withPins_tb (x : Pins) : (s.withPins x).tb = s.tb := by rfl
@[simp] theorem State.withPins_clk (x : Pins) : (s.withPins x).clk = s.clk := by rfl
@[simp] theorem State.withPins_eth (x : Pins) : (s.withPins x).eth = s.eth := by rfl
@[simp] theorem State.withPins_sch (x : Pins) : (s.withPins x).sch = s.sch := by rfl
@[simp] theorem State.withPins_cph (x : Pins) : (s.withPins x).cph = s.cph := by rfl
@[simp] theorem State.withPins_te (x : Pins) : (s.withPins x).te = s.te := by rfl
@[simp] theorem State.withPins_nve (x : Pins) : (s.withPins x).nve = s.nve := by rfl
@[simp] theorem State.withPins_hif (x : Pins) : (s.withPins x).hif = s.hif := by rfl
@[simp] theorem State.withPins_pcie (x : Pins) : (s.withPins x).pcie = s.pcie := by rfl
@[simp] theorem State.withPins_harts (x : Pins) : (s.withPins x).harts = s.harts := by rfl
@[simp] theorem State.withPins_aia (x : Pins) : (s.withPins x).aia = s.aia := by rfl
@[simp] theorem State.withPins_cache (x : Pins) : (s.withPins x).cache = s.cache := by rfl
@[simp] theorem State.withPins_pwr (x : Pins) : (s.withPins x).pwr = s.pwr := by rfl
@[simp] theorem State.withPins_boot (x : Pins) : (s.withPins x).boot = s.boot := by rfl
@[simp] theorem State.withPins_wkt (x : Pins) : (s.withPins x).wkt = s.wkt := by rfl
@[simp] theorem State.withPins_pins (x : Pins) : (s.withPins x).pins = x := by rfl
@[simp] theorem State.withPins_lost (x : Pins) : (s.withPins x).lost = s.lost := by rfl
@[simp] theorem State.withPins_out (x : Pins) : (s.withPins x).out = s.out := by rfl
@[simp] theorem State.withPins_free (x : Pins) : (s.withPins x).free = s.free := by rfl
@[simp] theorem State.withPins_pending (x : Pins) : (s.withPins x).pending = s.pending := by rfl
@[simp] theorem State.withPins_rd (x : Pins) (o : Nat) : (s.withPins x).rd o = s.rd o := by rfl
@[simp] theorem State.withPins_get (x : Pins) (f : Fld) : (s.withPins x).get f = s.get f := by rfl
@[simp] theorem State.withPins_phase (x : Pins) : (s.withPins x).phase = s.phase := by rfl
@[simp] theorem State.withPins_byte (x : Pins) (a : Nat) : (s.withPins x).byte a = s.byte a := by rfl
@[simp] theorem State.withPins_plan (x : Pins) : (s.withPins x).plan = s.plan := by rfl

/-! `State.withLost` -/

@[simp] theorem State.withLost_regs (x : List (Nat × Nat)) : (s.withLost x).regs = s.regs := by rfl
@[simp] theorem State.withLost_mem (x : List (Nat × Nat)) : (s.withLost x).mem = s.mem := by rfl
@[simp] theorem State.withLost_poison (x : List (Nat × Nat)) : (s.withLost x).poison = s.poison := by rfl
@[simp] theorem State.withLost_zeroMap (x : List (Nat × Nat)) : (s.withLost x).zeroMap = s.zeroMap := by rfl
@[simp] theorem State.withLost_ddr (x : List (Nat × Nat)) : (s.withLost x).ddr = s.ddr := by rfl
@[simp] theorem State.withLost_chCe (x : List (Nat × Nat)) : (s.withLost x).chCe = s.chCe := by rfl
@[simp] theorem State.withLost_chTimes (x : List (Nat × Nat)) : (s.withLost x).chTimes = s.chTimes := by rfl
@[simp] theorem State.withLost_chTold (x : List (Nat × Nat)) : (s.withLost x).chTold = s.chTold := by rfl
@[simp] theorem State.withLost_tiles (x : List (Nat × Nat)) : (s.withLost x).tiles = s.tiles := by rfl
@[simp] theorem State.withLost_prm (x : List (Nat × Nat)) : (s.withLost x).prm = s.prm := by rfl
@[simp] theorem State.withLost_pav (x : List (Nat × Nat)) : (s.withLost x).pav = s.pav := by rfl
@[simp] theorem State.withLost_frames (x : List (Nat × Nat)) : (s.withLost x).frames = s.frames := by rfl
@[simp] theorem State.withLost_arb (x : List (Nat × Nat)) : (s.withLost x).arb = s.arb := by rfl
@[simp] theorem State.withLost_passed (x : List (Nat × Nat)) : (s.withLost x).passed = s.passed := by rfl
@[simp] theorem State.withLost_acm (x : List (Nat × Nat)) : (s.withLost x).acm = s.acm := by rfl
@[simp] theorem State.withLost_emt (x : List (Nat × Nat)) : (s.withLost x).emt = s.emt := by rfl
@[simp] theorem State.withLost_site (x : List (Nat × Nat)) : (s.withLost x).site = s.site := by rfl
@[simp] theorem State.withLost_tb (x : List (Nat × Nat)) : (s.withLost x).tb = s.tb := by rfl
@[simp] theorem State.withLost_clk (x : List (Nat × Nat)) : (s.withLost x).clk = s.clk := by rfl
@[simp] theorem State.withLost_eth (x : List (Nat × Nat)) : (s.withLost x).eth = s.eth := by rfl
@[simp] theorem State.withLost_sch (x : List (Nat × Nat)) : (s.withLost x).sch = s.sch := by rfl
@[simp] theorem State.withLost_cph (x : List (Nat × Nat)) : (s.withLost x).cph = s.cph := by rfl
@[simp] theorem State.withLost_te (x : List (Nat × Nat)) : (s.withLost x).te = s.te := by rfl
@[simp] theorem State.withLost_nve (x : List (Nat × Nat)) : (s.withLost x).nve = s.nve := by rfl
@[simp] theorem State.withLost_hif (x : List (Nat × Nat)) : (s.withLost x).hif = s.hif := by rfl
@[simp] theorem State.withLost_pcie (x : List (Nat × Nat)) : (s.withLost x).pcie = s.pcie := by rfl
@[simp] theorem State.withLost_harts (x : List (Nat × Nat)) : (s.withLost x).harts = s.harts := by rfl
@[simp] theorem State.withLost_aia (x : List (Nat × Nat)) : (s.withLost x).aia = s.aia := by rfl
@[simp] theorem State.withLost_cache (x : List (Nat × Nat)) : (s.withLost x).cache = s.cache := by rfl
@[simp] theorem State.withLost_pwr (x : List (Nat × Nat)) : (s.withLost x).pwr = s.pwr := by rfl
@[simp] theorem State.withLost_boot (x : List (Nat × Nat)) : (s.withLost x).boot = s.boot := by rfl
@[simp] theorem State.withLost_wkt (x : List (Nat × Nat)) : (s.withLost x).wkt = s.wkt := by rfl
@[simp] theorem State.withLost_pins (x : List (Nat × Nat)) : (s.withLost x).pins = s.pins := by rfl
@[simp] theorem State.withLost_lost (x : List (Nat × Nat)) : (s.withLost x).lost = x := by rfl
@[simp] theorem State.withLost_out (x : List (Nat × Nat)) : (s.withLost x).out = s.out := by rfl
@[simp] theorem State.withLost_free (x : List (Nat × Nat)) : (s.withLost x).free = s.free := by rfl
@[simp] theorem State.withLost_pending (x : List (Nat × Nat)) : (s.withLost x).pending = s.pending := by rfl
@[simp] theorem State.withLost_rd (x : List (Nat × Nat)) (o : Nat) : (s.withLost x).rd o = s.rd o := by rfl
@[simp] theorem State.withLost_get (x : List (Nat × Nat)) (f : Fld) : (s.withLost x).get f = s.get f := by rfl
@[simp] theorem State.withLost_phase (x : List (Nat × Nat)) : (s.withLost x).phase = s.phase := by rfl
@[simp] theorem State.withLost_byte (x : List (Nat × Nat)) (a : Nat) : (s.withLost x).byte a = s.byte a := by rfl
@[simp] theorem State.withLost_plan (x : List (Nat × Nat)) : (s.withLost x).plan = s.plan := by rfl

/-! `State.withOut` -/

@[simp] theorem State.withOut_regs (x : List Output) : (s.withOut x).regs = s.regs := by rfl
@[simp] theorem State.withOut_mem (x : List Output) : (s.withOut x).mem = s.mem := by rfl
@[simp] theorem State.withOut_poison (x : List Output) : (s.withOut x).poison = s.poison := by rfl
@[simp] theorem State.withOut_zeroMap (x : List Output) : (s.withOut x).zeroMap = s.zeroMap := by rfl
@[simp] theorem State.withOut_ddr (x : List Output) : (s.withOut x).ddr = s.ddr := by rfl
@[simp] theorem State.withOut_chCe (x : List Output) : (s.withOut x).chCe = s.chCe := by rfl
@[simp] theorem State.withOut_chTimes (x : List Output) : (s.withOut x).chTimes = s.chTimes := by rfl
@[simp] theorem State.withOut_chTold (x : List Output) : (s.withOut x).chTold = s.chTold := by rfl
@[simp] theorem State.withOut_tiles (x : List Output) : (s.withOut x).tiles = s.tiles := by rfl
@[simp] theorem State.withOut_prm (x : List Output) : (s.withOut x).prm = s.prm := by rfl
@[simp] theorem State.withOut_pav (x : List Output) : (s.withOut x).pav = s.pav := by rfl
@[simp] theorem State.withOut_frames (x : List Output) : (s.withOut x).frames = s.frames := by rfl
@[simp] theorem State.withOut_arb (x : List Output) : (s.withOut x).arb = s.arb := by rfl
@[simp] theorem State.withOut_passed (x : List Output) : (s.withOut x).passed = s.passed := by rfl
@[simp] theorem State.withOut_acm (x : List Output) : (s.withOut x).acm = s.acm := by rfl
@[simp] theorem State.withOut_emt (x : List Output) : (s.withOut x).emt = s.emt := by rfl
@[simp] theorem State.withOut_site (x : List Output) : (s.withOut x).site = s.site := by rfl
@[simp] theorem State.withOut_tb (x : List Output) : (s.withOut x).tb = s.tb := by rfl
@[simp] theorem State.withOut_clk (x : List Output) : (s.withOut x).clk = s.clk := by rfl
@[simp] theorem State.withOut_eth (x : List Output) : (s.withOut x).eth = s.eth := by rfl
@[simp] theorem State.withOut_sch (x : List Output) : (s.withOut x).sch = s.sch := by rfl
@[simp] theorem State.withOut_cph (x : List Output) : (s.withOut x).cph = s.cph := by rfl
@[simp] theorem State.withOut_te (x : List Output) : (s.withOut x).te = s.te := by rfl
@[simp] theorem State.withOut_nve (x : List Output) : (s.withOut x).nve = s.nve := by rfl
@[simp] theorem State.withOut_hif (x : List Output) : (s.withOut x).hif = s.hif := by rfl
@[simp] theorem State.withOut_pcie (x : List Output) : (s.withOut x).pcie = s.pcie := by rfl
@[simp] theorem State.withOut_harts (x : List Output) : (s.withOut x).harts = s.harts := by rfl
@[simp] theorem State.withOut_aia (x : List Output) : (s.withOut x).aia = s.aia := by rfl
@[simp] theorem State.withOut_cache (x : List Output) : (s.withOut x).cache = s.cache := by rfl
@[simp] theorem State.withOut_pwr (x : List Output) : (s.withOut x).pwr = s.pwr := by rfl
@[simp] theorem State.withOut_boot (x : List Output) : (s.withOut x).boot = s.boot := by rfl
@[simp] theorem State.withOut_wkt (x : List Output) : (s.withOut x).wkt = s.wkt := by rfl
@[simp] theorem State.withOut_pins (x : List Output) : (s.withOut x).pins = s.pins := by rfl
@[simp] theorem State.withOut_lost (x : List Output) : (s.withOut x).lost = s.lost := by rfl
@[simp] theorem State.withOut_out (x : List Output) : (s.withOut x).out = x := by rfl
@[simp] theorem State.withOut_free (x : List Output) : (s.withOut x).free = s.free := by rfl
@[simp] theorem State.withOut_pending (x : List Output) : (s.withOut x).pending = s.pending := by rfl
@[simp] theorem State.withOut_rd (x : List Output) (o : Nat) : (s.withOut x).rd o = s.rd o := by rfl
@[simp] theorem State.withOut_get (x : List Output) (f : Fld) : (s.withOut x).get f = s.get f := by rfl
@[simp] theorem State.withOut_phase (x : List Output) : (s.withOut x).phase = s.phase := by rfl
@[simp] theorem State.withOut_byte (x : List Output) (a : Nat) : (s.withOut x).byte a = s.byte a := by rfl
@[simp] theorem State.withOut_plan (x : List Output) : (s.withOut x).plan = s.plan := by rfl

/-! `State.withFree` -/

@[simp] theorem State.withFree_regs (x : Nat) : (s.withFree x).regs = s.regs := by rfl
@[simp] theorem State.withFree_mem (x : Nat) : (s.withFree x).mem = s.mem := by rfl
@[simp] theorem State.withFree_poison (x : Nat) : (s.withFree x).poison = s.poison := by rfl
@[simp] theorem State.withFree_zeroMap (x : Nat) : (s.withFree x).zeroMap = s.zeroMap := by rfl
@[simp] theorem State.withFree_ddr (x : Nat) : (s.withFree x).ddr = s.ddr := by rfl
@[simp] theorem State.withFree_chCe (x : Nat) : (s.withFree x).chCe = s.chCe := by rfl
@[simp] theorem State.withFree_chTimes (x : Nat) : (s.withFree x).chTimes = s.chTimes := by rfl
@[simp] theorem State.withFree_chTold (x : Nat) : (s.withFree x).chTold = s.chTold := by rfl
@[simp] theorem State.withFree_tiles (x : Nat) : (s.withFree x).tiles = s.tiles := by rfl
@[simp] theorem State.withFree_prm (x : Nat) : (s.withFree x).prm = s.prm := by rfl
@[simp] theorem State.withFree_pav (x : Nat) : (s.withFree x).pav = s.pav := by rfl
@[simp] theorem State.withFree_frames (x : Nat) : (s.withFree x).frames = s.frames := by rfl
@[simp] theorem State.withFree_arb (x : Nat) : (s.withFree x).arb = s.arb := by rfl
@[simp] theorem State.withFree_passed (x : Nat) : (s.withFree x).passed = s.passed := by rfl
@[simp] theorem State.withFree_acm (x : Nat) : (s.withFree x).acm = s.acm := by rfl
@[simp] theorem State.withFree_emt (x : Nat) : (s.withFree x).emt = s.emt := by rfl
@[simp] theorem State.withFree_site (x : Nat) : (s.withFree x).site = s.site := by rfl
@[simp] theorem State.withFree_tb (x : Nat) : (s.withFree x).tb = s.tb := by rfl
@[simp] theorem State.withFree_clk (x : Nat) : (s.withFree x).clk = s.clk := by rfl
@[simp] theorem State.withFree_eth (x : Nat) : (s.withFree x).eth = s.eth := by rfl
@[simp] theorem State.withFree_sch (x : Nat) : (s.withFree x).sch = s.sch := by rfl
@[simp] theorem State.withFree_cph (x : Nat) : (s.withFree x).cph = s.cph := by rfl
@[simp] theorem State.withFree_te (x : Nat) : (s.withFree x).te = s.te := by rfl
@[simp] theorem State.withFree_nve (x : Nat) : (s.withFree x).nve = s.nve := by rfl
@[simp] theorem State.withFree_hif (x : Nat) : (s.withFree x).hif = s.hif := by rfl
@[simp] theorem State.withFree_pcie (x : Nat) : (s.withFree x).pcie = s.pcie := by rfl
@[simp] theorem State.withFree_harts (x : Nat) : (s.withFree x).harts = s.harts := by rfl
@[simp] theorem State.withFree_aia (x : Nat) : (s.withFree x).aia = s.aia := by rfl
@[simp] theorem State.withFree_cache (x : Nat) : (s.withFree x).cache = s.cache := by rfl
@[simp] theorem State.withFree_pwr (x : Nat) : (s.withFree x).pwr = s.pwr := by rfl
@[simp] theorem State.withFree_boot (x : Nat) : (s.withFree x).boot = s.boot := by rfl
@[simp] theorem State.withFree_wkt (x : Nat) : (s.withFree x).wkt = s.wkt := by rfl
@[simp] theorem State.withFree_pins (x : Nat) : (s.withFree x).pins = s.pins := by rfl
@[simp] theorem State.withFree_lost (x : Nat) : (s.withFree x).lost = s.lost := by rfl
@[simp] theorem State.withFree_out (x : Nat) : (s.withFree x).out = s.out := by rfl
@[simp] theorem State.withFree_free (x : Nat) : (s.withFree x).free = x := by rfl
@[simp] theorem State.withFree_pending (x : Nat) : (s.withFree x).pending = s.pending := by rfl
@[simp] theorem State.withFree_rd (x : Nat) (o : Nat) : (s.withFree x).rd o = s.rd o := by rfl
@[simp] theorem State.withFree_get (x : Nat) (f : Fld) : (s.withFree x).get f = s.get f := by rfl
@[simp] theorem State.withFree_phase (x : Nat) : (s.withFree x).phase = s.phase := by rfl
@[simp] theorem State.withFree_byte (x : Nat) (a : Nat) : (s.withFree x).byte a = s.byte a := by rfl
@[simp] theorem State.withFree_plan (x : Nat) : (s.withFree x).plan = s.plan := by rfl

/-! `State.withPending` -/

@[simp] theorem State.withPending_regs (x : List Instr) : (s.withPending x).regs = s.regs := by rfl
@[simp] theorem State.withPending_mem (x : List Instr) : (s.withPending x).mem = s.mem := by rfl
@[simp] theorem State.withPending_poison (x : List Instr) : (s.withPending x).poison = s.poison := by rfl
@[simp] theorem State.withPending_zeroMap (x : List Instr) : (s.withPending x).zeroMap = s.zeroMap := by rfl
@[simp] theorem State.withPending_ddr (x : List Instr) : (s.withPending x).ddr = s.ddr := by rfl
@[simp] theorem State.withPending_chCe (x : List Instr) : (s.withPending x).chCe = s.chCe := by rfl
@[simp] theorem State.withPending_chTimes (x : List Instr) : (s.withPending x).chTimes = s.chTimes := by rfl
@[simp] theorem State.withPending_chTold (x : List Instr) : (s.withPending x).chTold = s.chTold := by rfl
@[simp] theorem State.withPending_tiles (x : List Instr) : (s.withPending x).tiles = s.tiles := by rfl
@[simp] theorem State.withPending_prm (x : List Instr) : (s.withPending x).prm = s.prm := by rfl
@[simp] theorem State.withPending_pav (x : List Instr) : (s.withPending x).pav = s.pav := by rfl
@[simp] theorem State.withPending_frames (x : List Instr) : (s.withPending x).frames = s.frames := by rfl
@[simp] theorem State.withPending_arb (x : List Instr) : (s.withPending x).arb = s.arb := by rfl
@[simp] theorem State.withPending_passed (x : List Instr) : (s.withPending x).passed = s.passed := by rfl
@[simp] theorem State.withPending_acm (x : List Instr) : (s.withPending x).acm = s.acm := by rfl
@[simp] theorem State.withPending_emt (x : List Instr) : (s.withPending x).emt = s.emt := by rfl
@[simp] theorem State.withPending_site (x : List Instr) : (s.withPending x).site = s.site := by rfl
@[simp] theorem State.withPending_tb (x : List Instr) : (s.withPending x).tb = s.tb := by rfl
@[simp] theorem State.withPending_clk (x : List Instr) : (s.withPending x).clk = s.clk := by rfl
@[simp] theorem State.withPending_eth (x : List Instr) : (s.withPending x).eth = s.eth := by rfl
@[simp] theorem State.withPending_sch (x : List Instr) : (s.withPending x).sch = s.sch := by rfl
@[simp] theorem State.withPending_cph (x : List Instr) : (s.withPending x).cph = s.cph := by rfl
@[simp] theorem State.withPending_te (x : List Instr) : (s.withPending x).te = s.te := by rfl
@[simp] theorem State.withPending_nve (x : List Instr) : (s.withPending x).nve = s.nve := by rfl
@[simp] theorem State.withPending_hif (x : List Instr) : (s.withPending x).hif = s.hif := by rfl
@[simp] theorem State.withPending_pcie (x : List Instr) : (s.withPending x).pcie = s.pcie := by rfl
@[simp] theorem State.withPending_harts (x : List Instr) : (s.withPending x).harts = s.harts := by rfl
@[simp] theorem State.withPending_aia (x : List Instr) : (s.withPending x).aia = s.aia := by rfl
@[simp] theorem State.withPending_cache (x : List Instr) : (s.withPending x).cache = s.cache := by rfl
@[simp] theorem State.withPending_pwr (x : List Instr) : (s.withPending x).pwr = s.pwr := by rfl
@[simp] theorem State.withPending_boot (x : List Instr) : (s.withPending x).boot = s.boot := by rfl
@[simp] theorem State.withPending_wkt (x : List Instr) : (s.withPending x).wkt = s.wkt := by rfl
@[simp] theorem State.withPending_pins (x : List Instr) : (s.withPending x).pins = s.pins := by rfl
@[simp] theorem State.withPending_lost (x : List Instr) : (s.withPending x).lost = s.lost := by rfl
@[simp] theorem State.withPending_out (x : List Instr) : (s.withPending x).out = s.out := by rfl
@[simp] theorem State.withPending_free (x : List Instr) : (s.withPending x).free = s.free := by rfl
@[simp] theorem State.withPending_pending (x : List Instr) : (s.withPending x).pending = x := by rfl
@[simp] theorem State.withPending_rd (x : List Instr) (o : Nat) : (s.withPending x).rd o = s.rd o := by rfl
@[simp] theorem State.withPending_get (x : List Instr) (f : Fld) : (s.withPending x).get f = s.get f := by rfl
@[simp] theorem State.withPending_phase (x : List Instr) : (s.withPending x).phase = s.phase := by rfl
@[simp] theorem State.withPending_byte (x : List Instr) (a : Nat) : (s.withPending x).byte a = s.byte a := by rfl
@[simp] theorem State.withPending_plan (x : List Instr) : (s.withPending x).plan = s.plan := by rfl

end Sys2Proof.Machine
end

