-- ==== Sys2Proof/Laws/State.lean ====
section
/-! SUPPORT. What each shared update of the state leaves as it was, field by field, and what registers, bytes and
fields read as after one. -/

namespace Sys2Proof.Machine

set_option linter.all false

variable (s : State)

/-! `State.wr` changes `regs` only. -/

@[simp] theorem State.wr_mem (o : Nat) (w : Word) : (s.wr o w).mem = s.mem := by rfl
@[simp] theorem State.wr_poison (o : Nat) (w : Word) : (s.wr o w).poison = s.poison := by rfl
@[simp] theorem State.wr_zeroMap (o : Nat) (w : Word) : (s.wr o w).zeroMap = s.zeroMap := by rfl
@[simp] theorem State.wr_ddr (o : Nat) (w : Word) : (s.wr o w).ddr = s.ddr := by rfl
@[simp] theorem State.wr_chCe (o : Nat) (w : Word) : (s.wr o w).chCe = s.chCe := by rfl
@[simp] theorem State.wr_chTimes (o : Nat) (w : Word) : (s.wr o w).chTimes = s.chTimes := by rfl
@[simp] theorem State.wr_chTold (o : Nat) (w : Word) : (s.wr o w).chTold = s.chTold := by rfl
@[simp] theorem State.wr_tiles (o : Nat) (w : Word) : (s.wr o w).tiles = s.tiles := by rfl
@[simp] theorem State.wr_prm (o : Nat) (w : Word) : (s.wr o w).prm = s.prm := by rfl
@[simp] theorem State.wr_pav (o : Nat) (w : Word) : (s.wr o w).pav = s.pav := by rfl
@[simp] theorem State.wr_frames (o : Nat) (w : Word) : (s.wr o w).frames = s.frames := by rfl
@[simp] theorem State.wr_arb (o : Nat) (w : Word) : (s.wr o w).arb = s.arb := by rfl
@[simp] theorem State.wr_passed (o : Nat) (w : Word) : (s.wr o w).passed = s.passed := by rfl
@[simp] theorem State.wr_acm (o : Nat) (w : Word) : (s.wr o w).acm = s.acm := by rfl
@[simp] theorem State.wr_emt (o : Nat) (w : Word) : (s.wr o w).emt = s.emt := by rfl
@[simp] theorem State.wr_site (o : Nat) (w : Word) : (s.wr o w).site = s.site := by rfl
@[simp] theorem State.wr_tb (o : Nat) (w : Word) : (s.wr o w).tb = s.tb := by rfl
@[simp] theorem State.wr_clk (o : Nat) (w : Word) : (s.wr o w).clk = s.clk := by rfl
@[simp] theorem State.wr_eth (o : Nat) (w : Word) : (s.wr o w).eth = s.eth := by rfl
@[simp] theorem State.wr_sch (o : Nat) (w : Word) : (s.wr o w).sch = s.sch := by rfl
@[simp] theorem State.wr_cph (o : Nat) (w : Word) : (s.wr o w).cph = s.cph := by rfl
@[simp] theorem State.wr_te (o : Nat) (w : Word) : (s.wr o w).te = s.te := by rfl
@[simp] theorem State.wr_nve (o : Nat) (w : Word) : (s.wr o w).nve = s.nve := by rfl
@[simp] theorem State.wr_hif (o : Nat) (w : Word) : (s.wr o w).hif = s.hif := by rfl
@[simp] theorem State.wr_pcie (o : Nat) (w : Word) : (s.wr o w).pcie = s.pcie := by rfl
@[simp] theorem State.wr_harts (o : Nat) (w : Word) : (s.wr o w).harts = s.harts := by rfl
@[simp] theorem State.wr_aia (o : Nat) (w : Word) : (s.wr o w).aia = s.aia := by rfl
@[simp] theorem State.wr_cache (o : Nat) (w : Word) : (s.wr o w).cache = s.cache := by rfl
@[simp] theorem State.wr_pwr (o : Nat) (w : Word) : (s.wr o w).pwr = s.pwr := by rfl
@[simp] theorem State.wr_boot (o : Nat) (w : Word) : (s.wr o w).boot = s.boot := by rfl
@[simp] theorem State.wr_wkt (o : Nat) (w : Word) : (s.wr o w).wkt = s.wkt := by rfl
@[simp] theorem State.wr_pins (o : Nat) (w : Word) : (s.wr o w).pins = s.pins := by rfl
@[simp] theorem State.wr_lost (o : Nat) (w : Word) : (s.wr o w).lost = s.lost := by rfl
@[simp] theorem State.wr_out (o : Nat) (w : Word) : (s.wr o w).out = s.out := by rfl
@[simp] theorem State.wr_free (o : Nat) (w : Word) : (s.wr o w).free = s.free := by rfl
@[simp] theorem State.wr_pending (o : Nat) (w : Word) : (s.wr o w).pending = s.pending := by rfl

/-! `State.set` changes `regs` only. -/

@[simp] theorem State.set_mem (f : Fld) (v : Nat) : (s.set f v).mem = s.mem := by rfl
@[simp] theorem State.set_poison (f : Fld) (v : Nat) : (s.set f v).poison = s.poison := by rfl
@[simp] theorem State.set_zeroMap (f : Fld) (v : Nat) : (s.set f v).zeroMap = s.zeroMap := by rfl
@[simp] theorem State.set_ddr (f : Fld) (v : Nat) : (s.set f v).ddr = s.ddr := by rfl
@[simp] theorem State.set_chCe (f : Fld) (v : Nat) : (s.set f v).chCe = s.chCe := by rfl
@[simp] theorem State.set_chTimes (f : Fld) (v : Nat) : (s.set f v).chTimes = s.chTimes := by rfl
@[simp] theorem State.set_chTold (f : Fld) (v : Nat) : (s.set f v).chTold = s.chTold := by rfl
@[simp] theorem State.set_tiles (f : Fld) (v : Nat) : (s.set f v).tiles = s.tiles := by rfl
@[simp] theorem State.set_prm (f : Fld) (v : Nat) : (s.set f v).prm = s.prm := by rfl
@[simp] theorem State.set_pav (f : Fld) (v : Nat) : (s.set f v).pav = s.pav := by rfl
@[simp] theorem State.set_frames (f : Fld) (v : Nat) : (s.set f v).frames = s.frames := by rfl
@[simp] theorem State.set_arb (f : Fld) (v : Nat) : (s.set f v).arb = s.arb := by rfl
@[simp] theorem State.set_passed (f : Fld) (v : Nat) : (s.set f v).passed = s.passed := by rfl
@[simp] theorem State.set_acm (f : Fld) (v : Nat) : (s.set f v).acm = s.acm := by rfl
@[simp] theorem State.set_emt (f : Fld) (v : Nat) : (s.set f v).emt = s.emt := by rfl
@[simp] theorem State.set_site (f : Fld) (v : Nat) : (s.set f v).site = s.site := by rfl
@[simp] theorem State.set_tb (f : Fld) (v : Nat) : (s.set f v).tb = s.tb := by rfl
@[simp] theorem State.set_clk (f : Fld) (v : Nat) : (s.set f v).clk = s.clk := by rfl
@[simp] theorem State.set_eth (f : Fld) (v : Nat) : (s.set f v).eth = s.eth := by rfl
@[simp] theorem State.set_sch (f : Fld) (v : Nat) : (s.set f v).sch = s.sch := by rfl
@[simp] theorem State.set_cph (f : Fld) (v : Nat) : (s.set f v).cph = s.cph := by rfl
@[simp] theorem State.set_te (f : Fld) (v : Nat) : (s.set f v).te = s.te := by rfl
@[simp] theorem State.set_nve (f : Fld) (v : Nat) : (s.set f v).nve = s.nve := by rfl
@[simp] theorem State.set_hif (f : Fld) (v : Nat) : (s.set f v).hif = s.hif := by rfl
@[simp] theorem State.set_pcie (f : Fld) (v : Nat) : (s.set f v).pcie = s.pcie := by rfl
@[simp] theorem State.set_harts (f : Fld) (v : Nat) : (s.set f v).harts = s.harts := by rfl
@[simp] theorem State.set_aia (f : Fld) (v : Nat) : (s.set f v).aia = s.aia := by rfl
@[simp] theorem State.set_cache (f : Fld) (v : Nat) : (s.set f v).cache = s.cache := by rfl
@[simp] theorem State.set_pwr (f : Fld) (v : Nat) : (s.set f v).pwr = s.pwr := by rfl
@[simp] theorem State.set_boot (f : Fld) (v : Nat) : (s.set f v).boot = s.boot := by rfl
@[simp] theorem State.set_wkt (f : Fld) (v : Nat) : (s.set f v).wkt = s.wkt := by rfl
@[simp] theorem State.set_pins (f : Fld) (v : Nat) : (s.set f v).pins = s.pins := by rfl
@[simp] theorem State.set_lost (f : Fld) (v : Nat) : (s.set f v).lost = s.lost := by rfl
@[simp] theorem State.set_out (f : Fld) (v : Nat) : (s.set f v).out = s.out := by rfl
@[simp] theorem State.set_free (f : Fld) (v : Nat) : (s.set f v).free = s.free := by rfl
@[simp] theorem State.set_pending (f : Fld) (v : Nat) : (s.set f v).pending = s.pending := by rfl

/-! `State.count` changes `regs` only. -/

@[simp] theorem State.count_mem (f : Fld) : (s.count f).mem = s.mem := by rfl
@[simp] theorem State.count_poison (f : Fld) : (s.count f).poison = s.poison := by rfl
@[simp] theorem State.count_zeroMap (f : Fld) : (s.count f).zeroMap = s.zeroMap := by rfl
@[simp] theorem State.count_ddr (f : Fld) : (s.count f).ddr = s.ddr := by rfl
@[simp] theorem State.count_chCe (f : Fld) : (s.count f).chCe = s.chCe := by rfl
@[simp] theorem State.count_chTimes (f : Fld) : (s.count f).chTimes = s.chTimes := by rfl
@[simp] theorem State.count_chTold (f : Fld) : (s.count f).chTold = s.chTold := by rfl
@[simp] theorem State.count_tiles (f : Fld) : (s.count f).tiles = s.tiles := by rfl
@[simp] theorem State.count_prm (f : Fld) : (s.count f).prm = s.prm := by rfl
@[simp] theorem State.count_pav (f : Fld) : (s.count f).pav = s.pav := by rfl
@[simp] theorem State.count_frames (f : Fld) : (s.count f).frames = s.frames := by rfl
@[simp] theorem State.count_arb (f : Fld) : (s.count f).arb = s.arb := by rfl
@[simp] theorem State.count_passed (f : Fld) : (s.count f).passed = s.passed := by rfl
@[simp] theorem State.count_acm (f : Fld) : (s.count f).acm = s.acm := by rfl
@[simp] theorem State.count_emt (f : Fld) : (s.count f).emt = s.emt := by rfl
@[simp] theorem State.count_site (f : Fld) : (s.count f).site = s.site := by rfl
@[simp] theorem State.count_tb (f : Fld) : (s.count f).tb = s.tb := by rfl
@[simp] theorem State.count_clk (f : Fld) : (s.count f).clk = s.clk := by rfl
@[simp] theorem State.count_eth (f : Fld) : (s.count f).eth = s.eth := by rfl
@[simp] theorem State.count_sch (f : Fld) : (s.count f).sch = s.sch := by rfl
@[simp] theorem State.count_cph (f : Fld) : (s.count f).cph = s.cph := by rfl
@[simp] theorem State.count_te (f : Fld) : (s.count f).te = s.te := by rfl
@[simp] theorem State.count_nve (f : Fld) : (s.count f).nve = s.nve := by rfl
@[simp] theorem State.count_hif (f : Fld) : (s.count f).hif = s.hif := by rfl
@[simp] theorem State.count_pcie (f : Fld) : (s.count f).pcie = s.pcie := by rfl
@[simp] theorem State.count_harts (f : Fld) : (s.count f).harts = s.harts := by rfl
@[simp] theorem State.count_aia (f : Fld) : (s.count f).aia = s.aia := by rfl
@[simp] theorem State.count_cache (f : Fld) : (s.count f).cache = s.cache := by rfl
@[simp] theorem State.count_pwr (f : Fld) : (s.count f).pwr = s.pwr := by rfl
@[simp] theorem State.count_boot (f : Fld) : (s.count f).boot = s.boot := by rfl
@[simp] theorem State.count_wkt (f : Fld) : (s.count f).wkt = s.wkt := by rfl
@[simp] theorem State.count_pins (f : Fld) : (s.count f).pins = s.pins := by rfl
@[simp] theorem State.count_lost (f : Fld) : (s.count f).lost = s.lost := by rfl
@[simp] theorem State.count_out (f : Fld) : (s.count f).out = s.out := by rfl
@[simp] theorem State.count_free (f : Fld) : (s.count f).free = s.free := by rfl
@[simp] theorem State.count_pending (f : Fld) : (s.count f).pending = s.pending := by rfl

/-! `State.countBy` changes `regs` only. -/

@[simp] theorem State.countBy_mem (f : Fld) (n : Nat) : (s.countBy f n).mem = s.mem := by
  unfold State.countBy; split <;> rfl
@[simp] theorem State.countBy_poison (f : Fld) (n : Nat) : (s.countBy f n).poison = s.poison := by
  unfold State.countBy; split <;> rfl
@[simp] theorem State.countBy_zeroMap (f : Fld) (n : Nat) : (s.countBy f n).zeroMap = s.zeroMap := by
  unfold State.countBy; split <;> rfl
@[simp] theorem State.countBy_ddr (f : Fld) (n : Nat) : (s.countBy f n).ddr = s.ddr := by
  unfold State.countBy; split <;> rfl
@[simp] theorem State.countBy_chCe (f : Fld) (n : Nat) : (s.countBy f n).chCe = s.chCe := by
  unfold State.countBy; split <;> rfl
@[simp] theorem State.countBy_chTimes (f : Fld) (n : Nat) : (s.countBy f n).chTimes = s.chTimes := by
  unfold State.countBy; split <;> rfl
@[simp] theorem State.countBy_chTold (f : Fld) (n : Nat) : (s.countBy f n).chTold = s.chTold := by
  unfold State.countBy; split <;> rfl
@[simp] theorem State.countBy_tiles (f : Fld) (n : Nat) : (s.countBy f n).tiles = s.tiles := by
  unfold State.countBy; split <;> rfl
@[simp] theorem State.countBy_prm (f : Fld) (n : Nat) : (s.countBy f n).prm = s.prm := by
  unfold State.countBy; split <;> rfl
@[simp] theorem State.countBy_pav (f : Fld) (n : Nat) : (s.countBy f n).pav = s.pav := by
  unfold State.countBy; split <;> rfl
@[simp] theorem State.countBy_frames (f : Fld) (n : Nat) : (s.countBy f n).frames = s.frames := by
  unfold State.countBy; split <;> rfl
@[simp] theorem State.countBy_arb (f : Fld) (n : Nat) : (s.countBy f n).arb = s.arb := by
  unfold State.countBy; split <;> rfl
@[simp] theorem State.countBy_passed (f : Fld) (n : Nat) : (s.countBy f n).passed = s.passed := by
  unfold State.countBy; split <;> rfl
@[simp] theorem State.countBy_acm (f : Fld) (n : Nat) : (s.countBy f n).acm = s.acm := by
  unfold State.countBy; split <;> rfl
@[simp] theorem State.countBy_emt (f : Fld) (n : Nat) : (s.countBy f n).emt = s.emt := by
  unfold State.countBy; split <;> rfl
@[simp] theorem State.countBy_site (f : Fld) (n : Nat) : (s.countBy f n).site = s.site := by
  unfold State.countBy; split <;> rfl
@[simp] theorem State.countBy_tb (f : Fld) (n : Nat) : (s.countBy f n).tb = s.tb := by
  unfold State.countBy; split <;> rfl
@[simp] theorem State.countBy_clk (f : Fld) (n : Nat) : (s.countBy f n).clk = s.clk := by
  unfold State.countBy; split <;> rfl
@[simp] theorem State.countBy_eth (f : Fld) (n : Nat) : (s.countBy f n).eth = s.eth := by
  unfold State.countBy; split <;> rfl
@[simp] theorem State.countBy_sch (f : Fld) (n : Nat) : (s.countBy f n).sch = s.sch := by
  unfold State.countBy; split <;> rfl
@[simp] theorem State.countBy_cph (f : Fld) (n : Nat) : (s.countBy f n).cph = s.cph := by
  unfold State.countBy; split <;> rfl
@[simp] theorem State.countBy_te (f : Fld) (n : Nat) : (s.countBy f n).te = s.te := by
  unfold State.countBy; split <;> rfl
@[simp] theorem State.countBy_nve (f : Fld) (n : Nat) : (s.countBy f n).nve = s.nve := by
  unfold State.countBy; split <;> rfl
@[simp] theorem State.countBy_hif (f : Fld) (n : Nat) : (s.countBy f n).hif = s.hif := by
  unfold State.countBy; split <;> rfl
@[simp] theorem State.countBy_pcie (f : Fld) (n : Nat) : (s.countBy f n).pcie = s.pcie := by
  unfold State.countBy; split <;> rfl
@[simp] theorem State.countBy_harts (f : Fld) (n : Nat) : (s.countBy f n).harts = s.harts := by
  unfold State.countBy; split <;> rfl
@[simp] theorem State.countBy_aia (f : Fld) (n : Nat) : (s.countBy f n).aia = s.aia := by
  unfold State.countBy; split <;> rfl
@[simp] theorem State.countBy_cache (f : Fld) (n : Nat) : (s.countBy f n).cache = s.cache := by
  unfold State.countBy; split <;> rfl
@[simp] theorem State.countBy_pwr (f : Fld) (n : Nat) : (s.countBy f n).pwr = s.pwr := by
  unfold State.countBy; split <;> rfl
@[simp] theorem State.countBy_boot (f : Fld) (n : Nat) : (s.countBy f n).boot = s.boot := by
  unfold State.countBy; split <;> rfl
@[simp] theorem State.countBy_wkt (f : Fld) (n : Nat) : (s.countBy f n).wkt = s.wkt := by
  unfold State.countBy; split <;> rfl
@[simp] theorem State.countBy_pins (f : Fld) (n : Nat) : (s.countBy f n).pins = s.pins := by
  unfold State.countBy; split <;> rfl
@[simp] theorem State.countBy_lost (f : Fld) (n : Nat) : (s.countBy f n).lost = s.lost := by
  unfold State.countBy; split <;> rfl
@[simp] theorem State.countBy_out (f : Fld) (n : Nat) : (s.countBy f n).out = s.out := by
  unfold State.countBy; split <;> rfl
@[simp] theorem State.countBy_free (f : Fld) (n : Nat) : (s.countBy f n).free = s.free := by
  unfold State.countBy; split <;> rfl
@[simp] theorem State.countBy_pending (f : Fld) (n : Nat) : (s.countBy f n).pending = s.pending := by
  unfold State.countBy; split <;> rfl

/-! `State.wrapBy` changes `regs` only. -/

@[simp] theorem State.wrapBy_mem (f : Fld) (n : Nat) : (s.wrapBy f n).mem = s.mem := by rfl
@[simp] theorem State.wrapBy_poison (f : Fld) (n : Nat) : (s.wrapBy f n).poison = s.poison := by rfl
@[simp] theorem State.wrapBy_zeroMap (f : Fld) (n : Nat) : (s.wrapBy f n).zeroMap = s.zeroMap := by rfl
@[simp] theorem State.wrapBy_ddr (f : Fld) (n : Nat) : (s.wrapBy f n).ddr = s.ddr := by rfl
@[simp] theorem State.wrapBy_chCe (f : Fld) (n : Nat) : (s.wrapBy f n).chCe = s.chCe := by rfl
@[simp] theorem State.wrapBy_chTimes (f : Fld) (n : Nat) : (s.wrapBy f n).chTimes = s.chTimes := by rfl
@[simp] theorem State.wrapBy_chTold (f : Fld) (n : Nat) : (s.wrapBy f n).chTold = s.chTold := by rfl
@[simp] theorem State.wrapBy_tiles (f : Fld) (n : Nat) : (s.wrapBy f n).tiles = s.tiles := by rfl
@[simp] theorem State.wrapBy_prm (f : Fld) (n : Nat) : (s.wrapBy f n).prm = s.prm := by rfl
@[simp] theorem State.wrapBy_pav (f : Fld) (n : Nat) : (s.wrapBy f n).pav = s.pav := by rfl
@[simp] theorem State.wrapBy_frames (f : Fld) (n : Nat) : (s.wrapBy f n).frames = s.frames := by rfl
@[simp] theorem State.wrapBy_arb (f : Fld) (n : Nat) : (s.wrapBy f n).arb = s.arb := by rfl
@[simp] theorem State.wrapBy_passed (f : Fld) (n : Nat) : (s.wrapBy f n).passed = s.passed := by rfl
@[simp] theorem State.wrapBy_acm (f : Fld) (n : Nat) : (s.wrapBy f n).acm = s.acm := by rfl
@[simp] theorem State.wrapBy_emt (f : Fld) (n : Nat) : (s.wrapBy f n).emt = s.emt := by rfl
@[simp] theorem State.wrapBy_site (f : Fld) (n : Nat) : (s.wrapBy f n).site = s.site := by rfl
@[simp] theorem State.wrapBy_tb (f : Fld) (n : Nat) : (s.wrapBy f n).tb = s.tb := by rfl
@[simp] theorem State.wrapBy_clk (f : Fld) (n : Nat) : (s.wrapBy f n).clk = s.clk := by rfl
@[simp] theorem State.wrapBy_eth (f : Fld) (n : Nat) : (s.wrapBy f n).eth = s.eth := by rfl
@[simp] theorem State.wrapBy_sch (f : Fld) (n : Nat) : (s.wrapBy f n).sch = s.sch := by rfl
@[simp] theorem State.wrapBy_cph (f : Fld) (n : Nat) : (s.wrapBy f n).cph = s.cph := by rfl
@[simp] theorem State.wrapBy_te (f : Fld) (n : Nat) : (s.wrapBy f n).te = s.te := by rfl
@[simp] theorem State.wrapBy_nve (f : Fld) (n : Nat) : (s.wrapBy f n).nve = s.nve := by rfl
@[simp] theorem State.wrapBy_hif (f : Fld) (n : Nat) : (s.wrapBy f n).hif = s.hif := by rfl
@[simp] theorem State.wrapBy_pcie (f : Fld) (n : Nat) : (s.wrapBy f n).pcie = s.pcie := by rfl
@[simp] theorem State.wrapBy_harts (f : Fld) (n : Nat) : (s.wrapBy f n).harts = s.harts := by rfl
@[simp] theorem State.wrapBy_aia (f : Fld) (n : Nat) : (s.wrapBy f n).aia = s.aia := by rfl
@[simp] theorem State.wrapBy_cache (f : Fld) (n : Nat) : (s.wrapBy f n).cache = s.cache := by rfl
@[simp] theorem State.wrapBy_pwr (f : Fld) (n : Nat) : (s.wrapBy f n).pwr = s.pwr := by rfl
@[simp] theorem State.wrapBy_boot (f : Fld) (n : Nat) : (s.wrapBy f n).boot = s.boot := by rfl
@[simp] theorem State.wrapBy_wkt (f : Fld) (n : Nat) : (s.wrapBy f n).wkt = s.wkt := by rfl
@[simp] theorem State.wrapBy_pins (f : Fld) (n : Nat) : (s.wrapBy f n).pins = s.pins := by rfl
@[simp] theorem State.wrapBy_lost (f : Fld) (n : Nat) : (s.wrapBy f n).lost = s.lost := by rfl
@[simp] theorem State.wrapBy_out (f : Fld) (n : Nat) : (s.wrapBy f n).out = s.out := by rfl
@[simp] theorem State.wrapBy_free (f : Fld) (n : Nat) : (s.wrapBy f n).free = s.free := by rfl
@[simp] theorem State.wrapBy_pending (f : Fld) (n : Nat) : (s.wrapBy f n).pending = s.pending := by rfl

/-! `State.commitGo` changes `regs` only. -/

@[simp] theorem State.commitGo_mem (f : Fld) : (s.commitGo f).mem = s.mem := by rfl
@[simp] theorem State.commitGo_poison (f : Fld) : (s.commitGo f).poison = s.poison := by rfl
@[simp] theorem State.commitGo_zeroMap (f : Fld) : (s.commitGo f).zeroMap = s.zeroMap := by rfl
@[simp] theorem State.commitGo_ddr (f : Fld) : (s.commitGo f).ddr = s.ddr := by rfl
@[simp] theorem State.commitGo_chCe (f : Fld) : (s.commitGo f).chCe = s.chCe := by rfl
@[simp] theorem State.commitGo_chTimes (f : Fld) : (s.commitGo f).chTimes = s.chTimes := by rfl
@[simp] theorem State.commitGo_chTold (f : Fld) : (s.commitGo f).chTold = s.chTold := by rfl
@[simp] theorem State.commitGo_tiles (f : Fld) : (s.commitGo f).tiles = s.tiles := by rfl
@[simp] theorem State.commitGo_prm (f : Fld) : (s.commitGo f).prm = s.prm := by rfl
@[simp] theorem State.commitGo_pav (f : Fld) : (s.commitGo f).pav = s.pav := by rfl
@[simp] theorem State.commitGo_frames (f : Fld) : (s.commitGo f).frames = s.frames := by rfl
@[simp] theorem State.commitGo_arb (f : Fld) : (s.commitGo f).arb = s.arb := by rfl
@[simp] theorem State.commitGo_passed (f : Fld) : (s.commitGo f).passed = s.passed := by rfl
@[simp] theorem State.commitGo_acm (f : Fld) : (s.commitGo f).acm = s.acm := by rfl
@[simp] theorem State.commitGo_emt (f : Fld) : (s.commitGo f).emt = s.emt := by rfl
@[simp] theorem State.commitGo_site (f : Fld) : (s.commitGo f).site = s.site := by rfl
@[simp] theorem State.commitGo_tb (f : Fld) : (s.commitGo f).tb = s.tb := by rfl
@[simp] theorem State.commitGo_clk (f : Fld) : (s.commitGo f).clk = s.clk := by rfl
@[simp] theorem State.commitGo_eth (f : Fld) : (s.commitGo f).eth = s.eth := by rfl
@[simp] theorem State.commitGo_sch (f : Fld) : (s.commitGo f).sch = s.sch := by rfl
@[simp] theorem State.commitGo_cph (f : Fld) : (s.commitGo f).cph = s.cph := by rfl
@[simp] theorem State.commitGo_te (f : Fld) : (s.commitGo f).te = s.te := by rfl
@[simp] theorem State.commitGo_nve (f : Fld) : (s.commitGo f).nve = s.nve := by rfl
@[simp] theorem State.commitGo_hif (f : Fld) : (s.commitGo f).hif = s.hif := by rfl
@[simp] theorem State.commitGo_pcie (f : Fld) : (s.commitGo f).pcie = s.pcie := by rfl
@[simp] theorem State.commitGo_harts (f : Fld) : (s.commitGo f).harts = s.harts := by rfl
@[simp] theorem State.commitGo_aia (f : Fld) : (s.commitGo f).aia = s.aia := by rfl
@[simp] theorem State.commitGo_cache (f : Fld) : (s.commitGo f).cache = s.cache := by rfl
@[simp] theorem State.commitGo_pwr (f : Fld) : (s.commitGo f).pwr = s.pwr := by rfl
@[simp] theorem State.commitGo_boot (f : Fld) : (s.commitGo f).boot = s.boot := by rfl
@[simp] theorem State.commitGo_wkt (f : Fld) : (s.commitGo f).wkt = s.wkt := by rfl
@[simp] theorem State.commitGo_pins (f : Fld) : (s.commitGo f).pins = s.pins := by rfl
@[simp] theorem State.commitGo_lost (f : Fld) : (s.commitGo f).lost = s.lost := by rfl
@[simp] theorem State.commitGo_out (f : Fld) : (s.commitGo f).out = s.out := by rfl
@[simp] theorem State.commitGo_free (f : Fld) : (s.commitGo f).free = s.free := by rfl
@[simp] theorem State.commitGo_pending (f : Fld) : (s.commitGo f).pending = s.pending := by rfl

/-! `State.commitApplied` changes `regs` only. -/

@[simp] theorem State.commitApplied_mem (f g : Fld) : (s.commitApplied f g).mem = s.mem := by rfl
@[simp] theorem State.commitApplied_poison (f g : Fld) : (s.commitApplied f g).poison = s.poison := by rfl
@[simp] theorem State.commitApplied_zeroMap (f g : Fld) : (s.commitApplied f g).zeroMap = s.zeroMap := by rfl
@[simp] theorem State.commitApplied_ddr (f g : Fld) : (s.commitApplied f g).ddr = s.ddr := by rfl
@[simp] theorem State.commitApplied_chCe (f g : Fld) : (s.commitApplied f g).chCe = s.chCe := by rfl
@[simp] theorem State.commitApplied_chTimes (f g : Fld) : (s.commitApplied f g).chTimes = s.chTimes := by rfl
@[simp] theorem State.commitApplied_chTold (f g : Fld) : (s.commitApplied f g).chTold = s.chTold := by rfl
@[simp] theorem State.commitApplied_tiles (f g : Fld) : (s.commitApplied f g).tiles = s.tiles := by rfl
@[simp] theorem State.commitApplied_prm (f g : Fld) : (s.commitApplied f g).prm = s.prm := by rfl
@[simp] theorem State.commitApplied_pav (f g : Fld) : (s.commitApplied f g).pav = s.pav := by rfl
@[simp] theorem State.commitApplied_frames (f g : Fld) : (s.commitApplied f g).frames = s.frames := by rfl
@[simp] theorem State.commitApplied_arb (f g : Fld) : (s.commitApplied f g).arb = s.arb := by rfl
@[simp] theorem State.commitApplied_passed (f g : Fld) : (s.commitApplied f g).passed = s.passed := by rfl
@[simp] theorem State.commitApplied_acm (f g : Fld) : (s.commitApplied f g).acm = s.acm := by rfl
@[simp] theorem State.commitApplied_emt (f g : Fld) : (s.commitApplied f g).emt = s.emt := by rfl
@[simp] theorem State.commitApplied_site (f g : Fld) : (s.commitApplied f g).site = s.site := by rfl
@[simp] theorem State.commitApplied_tb (f g : Fld) : (s.commitApplied f g).tb = s.tb := by rfl
@[simp] theorem State.commitApplied_clk (f g : Fld) : (s.commitApplied f g).clk = s.clk := by rfl
@[simp] theorem State.commitApplied_eth (f g : Fld) : (s.commitApplied f g).eth = s.eth := by rfl
@[simp] theorem State.commitApplied_sch (f g : Fld) : (s.commitApplied f g).sch = s.sch := by rfl
@[simp] theorem State.commitApplied_cph (f g : Fld) : (s.commitApplied f g).cph = s.cph := by rfl
@[simp] theorem State.commitApplied_te (f g : Fld) : (s.commitApplied f g).te = s.te := by rfl
@[simp] theorem State.commitApplied_nve (f g : Fld) : (s.commitApplied f g).nve = s.nve := by rfl
@[simp] theorem State.commitApplied_hif (f g : Fld) : (s.commitApplied f g).hif = s.hif := by rfl
@[simp] theorem State.commitApplied_pcie (f g : Fld) : (s.commitApplied f g).pcie = s.pcie := by rfl
@[simp] theorem State.commitApplied_harts (f g : Fld) : (s.commitApplied f g).harts = s.harts := by rfl
@[simp] theorem State.commitApplied_aia (f g : Fld) : (s.commitApplied f g).aia = s.aia := by rfl
@[simp] theorem State.commitApplied_cache (f g : Fld) : (s.commitApplied f g).cache = s.cache := by rfl
@[simp] theorem State.commitApplied_pwr (f g : Fld) : (s.commitApplied f g).pwr = s.pwr := by rfl
@[simp] theorem State.commitApplied_boot (f g : Fld) : (s.commitApplied f g).boot = s.boot := by rfl
@[simp] theorem State.commitApplied_wkt (f g : Fld) : (s.commitApplied f g).wkt = s.wkt := by rfl
@[simp] theorem State.commitApplied_pins (f g : Fld) : (s.commitApplied f g).pins = s.pins := by rfl
@[simp] theorem State.commitApplied_lost (f g : Fld) : (s.commitApplied f g).lost = s.lost := by rfl
@[simp] theorem State.commitApplied_out (f g : Fld) : (s.commitApplied f g).out = s.out := by rfl
@[simp] theorem State.commitApplied_free (f g : Fld) : (s.commitApplied f g).free = s.free := by rfl
@[simp] theorem State.commitApplied_pending (f g : Fld) : (s.commitApplied f g).pending = s.pending := by rfl

/-! `State.emit` changes `out` only. -/

@[simp] theorem State.emit_regs (x : Output) : (s.emit x).regs = s.regs := by rfl
@[simp] theorem State.emit_mem (x : Output) : (s.emit x).mem = s.mem := by rfl
@[simp] theorem State.emit_poison (x : Output) : (s.emit x).poison = s.poison := by rfl
@[simp] theorem State.emit_zeroMap (x : Output) : (s.emit x).zeroMap = s.zeroMap := by rfl
@[simp] theorem State.emit_ddr (x : Output) : (s.emit x).ddr = s.ddr := by rfl
@[simp] theorem State.emit_chCe (x : Output) : (s.emit x).chCe = s.chCe := by rfl
@[simp] theorem State.emit_chTimes (x : Output) : (s.emit x).chTimes = s.chTimes := by rfl
@[simp] theorem State.emit_chTold (x : Output) : (s.emit x).chTold = s.chTold := by rfl
@[simp] theorem State.emit_tiles (x : Output) : (s.emit x).tiles = s.tiles := by rfl
@[simp] theorem State.emit_prm (x : Output) : (s.emit x).prm = s.prm := by rfl
@[simp] theorem State.emit_pav (x : Output) : (s.emit x).pav = s.pav := by rfl
@[simp] theorem State.emit_frames (x : Output) : (s.emit x).frames = s.frames := by rfl
@[simp] theorem State.emit_arb (x : Output) : (s.emit x).arb = s.arb := by rfl
@[simp] theorem State.emit_passed (x : Output) : (s.emit x).passed = s.passed := by rfl
@[simp] theorem State.emit_acm (x : Output) : (s.emit x).acm = s.acm := by rfl
@[simp] theorem State.emit_emt (x : Output) : (s.emit x).emt = s.emt := by rfl
@[simp] theorem State.emit_site (x : Output) : (s.emit x).site = s.site := by rfl
@[simp] theorem State.emit_tb (x : Output) : (s.emit x).tb = s.tb := by rfl
@[simp] theorem State.emit_clk (x : Output) : (s.emit x).clk = s.clk := by rfl
@[simp] theorem State.emit_eth (x : Output) : (s.emit x).eth = s.eth := by rfl
@[simp] theorem State.emit_sch (x : Output) : (s.emit x).sch = s.sch := by rfl
@[simp] theorem State.emit_cph (x : Output) : (s.emit x).cph = s.cph := by rfl
@[simp] theorem State.emit_te (x : Output) : (s.emit x).te = s.te := by rfl
@[simp] theorem State.emit_nve (x : Output) : (s.emit x).nve = s.nve := by rfl
@[simp] theorem State.emit_hif (x : Output) : (s.emit x).hif = s.hif := by rfl
@[simp] theorem State.emit_pcie (x : Output) : (s.emit x).pcie = s.pcie := by rfl
@[simp] theorem State.emit_harts (x : Output) : (s.emit x).harts = s.harts := by rfl
@[simp] theorem State.emit_aia (x : Output) : (s.emit x).aia = s.aia := by rfl
@[simp] theorem State.emit_cache (x : Output) : (s.emit x).cache = s.cache := by rfl
@[simp] theorem State.emit_pwr (x : Output) : (s.emit x).pwr = s.pwr := by rfl
@[simp] theorem State.emit_boot (x : Output) : (s.emit x).boot = s.boot := by rfl
@[simp] theorem State.emit_wkt (x : Output) : (s.emit x).wkt = s.wkt := by rfl
@[simp] theorem State.emit_pins (x : Output) : (s.emit x).pins = s.pins := by rfl
@[simp] theorem State.emit_lost (x : Output) : (s.emit x).lost = s.lost := by rfl
@[simp] theorem State.emit_free (x : Output) : (s.emit x).free = s.free := by rfl
@[simp] theorem State.emit_pending (x : Output) : (s.emit x).pending = s.pending := by rfl

/-! `State.emits` changes `out` only. -/

@[simp] theorem State.emits_regs (l : List Output) : (s.emits l).regs = s.regs := by rfl
@[simp] theorem State.emits_mem (l : List Output) : (s.emits l).mem = s.mem := by rfl
@[simp] theorem State.emits_poison (l : List Output) : (s.emits l).poison = s.poison := by rfl
@[simp] theorem State.emits_zeroMap (l : List Output) : (s.emits l).zeroMap = s.zeroMap := by rfl
@[simp] theorem State.emits_ddr (l : List Output) : (s.emits l).ddr = s.ddr := by rfl
@[simp] theorem State.emits_chCe (l : List Output) : (s.emits l).chCe = s.chCe := by rfl
@[simp] theorem State.emits_chTimes (l : List Output) : (s.emits l).chTimes = s.chTimes := by rfl
@[simp] theorem State.emits_chTold (l : List Output) : (s.emits l).chTold = s.chTold := by rfl
@[simp] theorem State.emits_tiles (l : List Output) : (s.emits l).tiles = s.tiles := by rfl
@[simp] theorem State.emits_prm (l : List Output) : (s.emits l).prm = s.prm := by rfl
@[simp] theorem State.emits_pav (l : List Output) : (s.emits l).pav = s.pav := by rfl
@[simp] theorem State.emits_frames (l : List Output) : (s.emits l).frames = s.frames := by rfl
@[simp] theorem State.emits_arb (l : List Output) : (s.emits l).arb = s.arb := by rfl
@[simp] theorem State.emits_passed (l : List Output) : (s.emits l).passed = s.passed := by rfl
@[simp] theorem State.emits_acm (l : List Output) : (s.emits l).acm = s.acm := by rfl
@[simp] theorem State.emits_emt (l : List Output) : (s.emits l).emt = s.emt := by rfl
@[simp] theorem State.emits_site (l : List Output) : (s.emits l).site = s.site := by rfl
@[simp] theorem State.emits_tb (l : List Output) : (s.emits l).tb = s.tb := by rfl
@[simp] theorem State.emits_clk (l : List Output) : (s.emits l).clk = s.clk := by rfl
@[simp] theorem State.emits_eth (l : List Output) : (s.emits l).eth = s.eth := by rfl
@[simp] theorem State.emits_sch (l : List Output) : (s.emits l).sch = s.sch := by rfl
@[simp] theorem State.emits_cph (l : List Output) : (s.emits l).cph = s.cph := by rfl
@[simp] theorem State.emits_te (l : List Output) : (s.emits l).te = s.te := by rfl
@[simp] theorem State.emits_nve (l : List Output) : (s.emits l).nve = s.nve := by rfl
@[simp] theorem State.emits_hif (l : List Output) : (s.emits l).hif = s.hif := by rfl
@[simp] theorem State.emits_pcie (l : List Output) : (s.emits l).pcie = s.pcie := by rfl
@[simp] theorem State.emits_harts (l : List Output) : (s.emits l).harts = s.harts := by rfl
@[simp] theorem State.emits_aia (l : List Output) : (s.emits l).aia = s.aia := by rfl
@[simp] theorem State.emits_cache (l : List Output) : (s.emits l).cache = s.cache := by rfl
@[simp] theorem State.emits_pwr (l : List Output) : (s.emits l).pwr = s.pwr := by rfl
@[simp] theorem State.emits_boot (l : List Output) : (s.emits l).boot = s.boot := by rfl
@[simp] theorem State.emits_wkt (l : List Output) : (s.emits l).wkt = s.wkt := by rfl
@[simp] theorem State.emits_pins (l : List Output) : (s.emits l).pins = s.pins := by rfl
@[simp] theorem State.emits_lost (l : List Output) : (s.emits l).lost = s.lost := by rfl
@[simp] theorem State.emits_free (l : List Output) : (s.emits l).free = s.free := by rfl
@[simp] theorem State.emits_pending (l : List Output) : (s.emits l).pending = s.pending := by rfl

/-! `State.takeFree` changes `free` only. -/

@[simp] theorem State.takeFree_regs : s.takeFree.2.regs = s.regs := by rfl
@[simp] theorem State.takeFree_mem : s.takeFree.2.mem = s.mem := by rfl
@[simp] theorem State.takeFree_poison : s.takeFree.2.poison = s.poison := by rfl
@[simp] theorem State.takeFree_zeroMap : s.takeFree.2.zeroMap = s.zeroMap := by rfl
@[simp] theorem State.takeFree_ddr : s.takeFree.2.ddr = s.ddr := by rfl
@[simp] theorem State.takeFree_chCe : s.takeFree.2.chCe = s.chCe := by rfl
@[simp] theorem State.takeFree_chTimes : s.takeFree.2.chTimes = s.chTimes := by rfl
@[simp] theorem State.takeFree_chTold : s.takeFree.2.chTold = s.chTold := by rfl
@[simp] theorem State.takeFree_tiles : s.takeFree.2.tiles = s.tiles := by rfl
@[simp] theorem State.takeFree_prm : s.takeFree.2.prm = s.prm := by rfl
@[simp] theorem State.takeFree_pav : s.takeFree.2.pav = s.pav := by rfl
@[simp] theorem State.takeFree_frames : s.takeFree.2.frames = s.frames := by rfl
@[simp] theorem State.takeFree_arb : s.takeFree.2.arb = s.arb := by rfl
@[simp] theorem State.takeFree_passed : s.takeFree.2.passed = s.passed := by rfl
@[simp] theorem State.takeFree_acm : s.takeFree.2.acm = s.acm := by rfl
@[simp] theorem State.takeFree_emt : s.takeFree.2.emt = s.emt := by rfl
@[simp] theorem State.takeFree_site : s.takeFree.2.site = s.site := by rfl
@[simp] theorem State.takeFree_tb : s.takeFree.2.tb = s.tb := by rfl
@[simp] theorem State.takeFree_clk : s.takeFree.2.clk = s.clk := by rfl
@[simp] theorem State.takeFree_eth : s.takeFree.2.eth = s.eth := by rfl
@[simp] theorem State.takeFree_sch : s.takeFree.2.sch = s.sch := by rfl
@[simp] theorem State.takeFree_cph : s.takeFree.2.cph = s.cph := by rfl
@[simp] theorem State.takeFree_te : s.takeFree.2.te = s.te := by rfl
@[simp] theorem State.takeFree_nve : s.takeFree.2.nve = s.nve := by rfl
@[simp] theorem State.takeFree_hif : s.takeFree.2.hif = s.hif := by rfl
@[simp] theorem State.takeFree_pcie : s.takeFree.2.pcie = s.pcie := by rfl
@[simp] theorem State.takeFree_harts : s.takeFree.2.harts = s.harts := by rfl
@[simp] theorem State.takeFree_aia : s.takeFree.2.aia = s.aia := by rfl
@[simp] theorem State.takeFree_cache : s.takeFree.2.cache = s.cache := by rfl
@[simp] theorem State.takeFree_pwr : s.takeFree.2.pwr = s.pwr := by rfl
@[simp] theorem State.takeFree_boot : s.takeFree.2.boot = s.boot := by rfl
@[simp] theorem State.takeFree_wkt : s.takeFree.2.wkt = s.wkt := by rfl
@[simp] theorem State.takeFree_pins : s.takeFree.2.pins = s.pins := by rfl
@[simp] theorem State.takeFree_lost : s.takeFree.2.lost = s.lost := by rfl
@[simp] theorem State.takeFree_out : s.takeFree.2.out = s.out := by rfl
@[simp] theorem State.takeFree_pending : s.takeFree.2.pending = s.pending := by rfl

/-! `State.putByte` changes `mem`, `poison`, `zeroMap` only. -/

@[simp] theorem State.putByte_regs (a : Nat) (b : Byte) : (s.putByte a b).regs = s.regs := by rfl
@[simp] theorem State.putByte_ddr (a : Nat) (b : Byte) : (s.putByte a b).ddr = s.ddr := by rfl
@[simp] theorem State.putByte_chCe (a : Nat) (b : Byte) : (s.putByte a b).chCe = s.chCe := by rfl
@[simp] theorem State.putByte_chTimes (a : Nat) (b : Byte) : (s.putByte a b).chTimes = s.chTimes := by rfl
@[simp] theorem State.putByte_chTold (a : Nat) (b : Byte) : (s.putByte a b).chTold = s.chTold := by rfl
@[simp] theorem State.putByte_tiles (a : Nat) (b : Byte) : (s.putByte a b).tiles = s.tiles := by rfl
@[simp] theorem State.putByte_prm (a : Nat) (b : Byte) : (s.putByte a b).prm = s.prm := by rfl
@[simp] theorem State.putByte_pav (a : Nat) (b : Byte) : (s.putByte a b).pav = s.pav := by rfl
@[simp] theorem State.putByte_frames (a : Nat) (b : Byte) : (s.putByte a b).frames = s.frames := by rfl
@[simp] theorem State.putByte_arb (a : Nat) (b : Byte) : (s.putByte a b).arb = s.arb := by rfl
@[simp] theorem State.putByte_passed (a : Nat) (b : Byte) : (s.putByte a b).passed = s.passed := by rfl
@[simp] theorem State.putByte_acm (a : Nat) (b : Byte) : (s.putByte a b).acm = s.acm := by rfl
@[simp] theorem State.putByte_emt (a : Nat) (b : Byte) : (s.putByte a b).emt = s.emt := by rfl
@[simp] theorem State.putByte_site (a : Nat) (b : Byte) : (s.putByte a b).site = s.site := by rfl
@[simp] theorem State.putByte_tb (a : Nat) (b : Byte) : (s.putByte a b).tb = s.tb := by rfl
@[simp] theorem State.putByte_clk (a : Nat) (b : Byte) : (s.putByte a b).clk = s.clk := by rfl
@[simp] theorem State.putByte_eth (a : Nat) (b : Byte) : (s.putByte a b).eth = s.eth := by rfl
@[simp] theorem State.putByte_sch (a : Nat) (b : Byte) : (s.putByte a b).sch = s.sch := by rfl
@[simp] theorem State.putByte_cph (a : Nat) (b : Byte) : (s.putByte a b).cph = s.cph := by rfl
@[simp] theorem State.putByte_te (a : Nat) (b : Byte) : (s.putByte a b).te = s.te := by rfl
@[simp] theorem State.putByte_nve (a : Nat) (b : Byte) : (s.putByte a b).nve = s.nve := by rfl
@[simp] theorem State.putByte_hif (a : Nat) (b : Byte) : (s.putByte a b).hif = s.hif := by rfl
@[simp] theorem State.putByte_pcie (a : Nat) (b : Byte) : (s.putByte a b).pcie = s.pcie := by rfl
@[simp] theorem State.putByte_harts (a : Nat) (b : Byte) : (s.putByte a b).harts = s.harts := by rfl
@[simp] theorem State.putByte_aia (a : Nat) (b : Byte) : (s.putByte a b).aia = s.aia := by rfl
@[simp] theorem State.putByte_cache (a : Nat) (b : Byte) : (s.putByte a b).cache = s.cache := by rfl
@[simp] theorem State.putByte_pwr (a : Nat) (b : Byte) : (s.putByte a b).pwr = s.pwr := by rfl
@[simp] theorem State.putByte_boot (a : Nat) (b : Byte) : (s.putByte a b).boot = s.boot := by rfl
@[simp] theorem State.putByte_wkt (a : Nat) (b : Byte) : (s.putByte a b).wkt = s.wkt := by rfl
@[simp] theorem State.putByte_pins (a : Nat) (b : Byte) : (s.putByte a b).pins = s.pins := by rfl
@[simp] theorem State.putByte_lost (a : Nat) (b : Byte) : (s.putByte a b).lost = s.lost := by rfl
@[simp] theorem State.putByte_out (a : Nat) (b : Byte) : (s.putByte a b).out = s.out := by rfl
@[simp] theorem State.putByte_free (a : Nat) (b : Byte) : (s.putByte a b).free = s.free := by rfl
@[simp] theorem State.putByte_pending (a : Nat) (b : Byte) : (s.putByte a b).pending = s.pending := by rfl

/-! `State.zeroRange` changes `mem`, `poison`, `zeroMap` only. -/

@[simp] theorem State.zeroRange_regs (a n : Nat) : (s.zeroRange a n).regs = s.regs := by rfl
@[simp] theorem State.zeroRange_ddr (a n : Nat) : (s.zeroRange a n).ddr = s.ddr := by rfl
@[simp] theorem State.zeroRange_chCe (a n : Nat) : (s.zeroRange a n).chCe = s.chCe := by rfl
@[simp] theorem State.zeroRange_chTimes (a n : Nat) : (s.zeroRange a n).chTimes = s.chTimes := by rfl
@[simp] theorem State.zeroRange_chTold (a n : Nat) : (s.zeroRange a n).chTold = s.chTold := by rfl
@[simp] theorem State.zeroRange_tiles (a n : Nat) : (s.zeroRange a n).tiles = s.tiles := by rfl
@[simp] theorem State.zeroRange_prm (a n : Nat) : (s.zeroRange a n).prm = s.prm := by rfl
@[simp] theorem State.zeroRange_pav (a n : Nat) : (s.zeroRange a n).pav = s.pav := by rfl
@[simp] theorem State.zeroRange_frames (a n : Nat) : (s.zeroRange a n).frames = s.frames := by rfl
@[simp] theorem State.zeroRange_arb (a n : Nat) : (s.zeroRange a n).arb = s.arb := by rfl
@[simp] theorem State.zeroRange_passed (a n : Nat) : (s.zeroRange a n).passed = s.passed := by rfl
@[simp] theorem State.zeroRange_acm (a n : Nat) : (s.zeroRange a n).acm = s.acm := by rfl
@[simp] theorem State.zeroRange_emt (a n : Nat) : (s.zeroRange a n).emt = s.emt := by rfl
@[simp] theorem State.zeroRange_site (a n : Nat) : (s.zeroRange a n).site = s.site := by rfl
@[simp] theorem State.zeroRange_tb (a n : Nat) : (s.zeroRange a n).tb = s.tb := by rfl
@[simp] theorem State.zeroRange_clk (a n : Nat) : (s.zeroRange a n).clk = s.clk := by rfl
@[simp] theorem State.zeroRange_eth (a n : Nat) : (s.zeroRange a n).eth = s.eth := by rfl
@[simp] theorem State.zeroRange_sch (a n : Nat) : (s.zeroRange a n).sch = s.sch := by rfl
@[simp] theorem State.zeroRange_cph (a n : Nat) : (s.zeroRange a n).cph = s.cph := by rfl
@[simp] theorem State.zeroRange_te (a n : Nat) : (s.zeroRange a n).te = s.te := by rfl
@[simp] theorem State.zeroRange_nve (a n : Nat) : (s.zeroRange a n).nve = s.nve := by rfl
@[simp] theorem State.zeroRange_hif (a n : Nat) : (s.zeroRange a n).hif = s.hif := by rfl
@[simp] theorem State.zeroRange_pcie (a n : Nat) : (s.zeroRange a n).pcie = s.pcie := by rfl
@[simp] theorem State.zeroRange_harts (a n : Nat) : (s.zeroRange a n).harts = s.harts := by rfl
@[simp] theorem State.zeroRange_aia (a n : Nat) : (s.zeroRange a n).aia = s.aia := by rfl
@[simp] theorem State.zeroRange_pwr (a n : Nat) : (s.zeroRange a n).pwr = s.pwr := by rfl
@[simp] theorem State.zeroRange_boot (a n : Nat) : (s.zeroRange a n).boot = s.boot := by rfl
@[simp] theorem State.zeroRange_wkt (a n : Nat) : (s.zeroRange a n).wkt = s.wkt := by rfl
@[simp] theorem State.zeroRange_pins (a n : Nat) : (s.zeroRange a n).pins = s.pins := by rfl
@[simp] theorem State.zeroRange_lost (a n : Nat) : (s.zeroRange a n).lost = s.lost := by rfl
@[simp] theorem State.zeroRange_out (a n : Nat) : (s.zeroRange a n).out = s.out := by rfl
@[simp] theorem State.zeroRange_free (a n : Nat) : (s.zeroRange a n).free = s.free := by rfl
@[simp] theorem State.zeroRange_pending (a n : Nat) : (s.zeroRange a n).pending = s.pending := by rfl

/-! `State.setTbase` changes `tb` only. -/

@[simp] theorem State.setTbase_regs (k : Nat) (t : Timebase) : (s.setTbase k t).regs = s.regs := by rfl
@[simp] theorem State.setTbase_mem (k : Nat) (t : Timebase) : (s.setTbase k t).mem = s.mem := by rfl
@[simp] theorem State.setTbase_poison (k : Nat) (t : Timebase) : (s.setTbase k t).poison = s.poison := by rfl
@[simp] theorem State.setTbase_zeroMap (k : Nat) (t : Timebase) : (s.setTbase k t).zeroMap = s.zeroMap := by rfl
@[simp] theorem State.setTbase_ddr (k : Nat) (t : Timebase) : (s.setTbase k t).ddr = s.ddr := by rfl
@[simp] theorem State.setTbase_chCe (k : Nat) (t : Timebase) : (s.setTbase k t).chCe = s.chCe := by rfl
@[simp] theorem State.setTbase_chTimes (k : Nat) (t : Timebase) : (s.setTbase k t).chTimes = s.chTimes := by rfl
@[simp] theorem State.setTbase_chTold (k : Nat) (t : Timebase) : (s.setTbase k t).chTold = s.chTold := by rfl
@[simp] theorem State.setTbase_tiles (k : Nat) (t : Timebase) : (s.setTbase k t).tiles = s.tiles := by rfl
@[simp] theorem State.setTbase_prm (k : Nat) (t : Timebase) : (s.setTbase k t).prm = s.prm := by rfl
@[simp] theorem State.setTbase_pav (k : Nat) (t : Timebase) : (s.setTbase k t).pav = s.pav := by rfl
@[simp] theorem State.setTbase_frames (k : Nat) (t : Timebase) : (s.setTbase k t).frames = s.frames := by rfl
@[simp] theorem State.setTbase_arb (k : Nat) (t : Timebase) : (s.setTbase k t).arb = s.arb := by rfl
@[simp] theorem State.setTbase_passed (k : Nat) (t : Timebase) : (s.setTbase k t).passed = s.passed := by rfl
@[simp] theorem State.setTbase_acm (k : Nat) (t : Timebase) : (s.setTbase k t).acm = s.acm := by rfl
@[simp] theorem State.setTbase_emt (k : Nat) (t : Timebase) : (s.setTbase k t).emt = s.emt := by rfl
@[simp] theorem State.setTbase_site (k : Nat) (t : Timebase) : (s.setTbase k t).site = s.site := by rfl
@[simp] theorem State.setTbase_clk (k : Nat) (t : Timebase) : (s.setTbase k t).clk = s.clk := by rfl
@[simp] theorem State.setTbase_eth (k : Nat) (t : Timebase) : (s.setTbase k t).eth = s.eth := by rfl
@[simp] theorem State.setTbase_sch (k : Nat) (t : Timebase) : (s.setTbase k t).sch = s.sch := by rfl
@[simp] theorem State.setTbase_cph (k : Nat) (t : Timebase) : (s.setTbase k t).cph = s.cph := by rfl
@[simp] theorem State.setTbase_te (k : Nat) (t : Timebase) : (s.setTbase k t).te = s.te := by rfl
@[simp] theorem State.setTbase_nve (k : Nat) (t : Timebase) : (s.setTbase k t).nve = s.nve := by rfl
@[simp] theorem State.setTbase_hif (k : Nat) (t : Timebase) : (s.setTbase k t).hif = s.hif := by rfl
@[simp] theorem State.setTbase_pcie (k : Nat) (t : Timebase) : (s.setTbase k t).pcie = s.pcie := by rfl
@[simp] theorem State.setTbase_harts (k : Nat) (t : Timebase) : (s.setTbase k t).harts = s.harts := by rfl
@[simp] theorem State.setTbase_aia (k : Nat) (t : Timebase) : (s.setTbase k t).aia = s.aia := by rfl
@[simp] theorem State.setTbase_cache (k : Nat) (t : Timebase) : (s.setTbase k t).cache = s.cache := by rfl
@[simp] theorem State.setTbase_pwr (k : Nat) (t : Timebase) : (s.setTbase k t).pwr = s.pwr := by rfl
@[simp] theorem State.setTbase_boot (k : Nat) (t : Timebase) : (s.setTbase k t).boot = s.boot := by rfl
@[simp] theorem State.setTbase_wkt (k : Nat) (t : Timebase) : (s.setTbase k t).wkt = s.wkt := by rfl
@[simp] theorem State.setTbase_pins (k : Nat) (t : Timebase) : (s.setTbase k t).pins = s.pins := by rfl
@[simp] theorem State.setTbase_lost (k : Nat) (t : Timebase) : (s.setTbase k t).lost = s.lost := by rfl
@[simp] theorem State.setTbase_out (k : Nat) (t : Timebase) : (s.setTbase k t).out = s.out := by rfl
@[simp] theorem State.setTbase_free (k : Nat) (t : Timebase) : (s.setTbase k t).free = s.free := by rfl
@[simp] theorem State.setTbase_pending (k : Nat) (t : Timebase) : (s.setTbase k t).pending = s.pending := by rfl

/-! `State.setTile` changes `tiles` only. -/

@[simp] theorem State.setTile_regs (k : Nat) (x : Tile) : (s.setTile k x).regs = s.regs := by rfl
@[simp] theorem State.setTile_mem (k : Nat) (x : Tile) : (s.setTile k x).mem = s.mem := by rfl
@[simp] theorem State.setTile_poison (k : Nat) (x : Tile) : (s.setTile k x).poison = s.poison := by rfl
@[simp] theorem State.setTile_zeroMap (k : Nat) (x : Tile) : (s.setTile k x).zeroMap = s.zeroMap := by rfl
@[simp] theorem State.setTile_ddr (k : Nat) (x : Tile) : (s.setTile k x).ddr = s.ddr := by rfl
@[simp] theorem State.setTile_chCe (k : Nat) (x : Tile) : (s.setTile k x).chCe = s.chCe := by rfl
@[simp] theorem State.setTile_chTimes (k : Nat) (x : Tile) : (s.setTile k x).chTimes = s.chTimes := by rfl
@[simp] theorem State.setTile_chTold (k : Nat) (x : Tile) : (s.setTile k x).chTold = s.chTold := by rfl
@[simp] theorem State.setTile_prm (k : Nat) (x : Tile) : (s.setTile k x).prm = s.prm := by rfl
@[simp] theorem State.setTile_pav (k : Nat) (x : Tile) : (s.setTile k x).pav = s.pav := by rfl
@[simp] theorem State.setTile_frames (k : Nat) (x : Tile) : (s.setTile k x).frames = s.frames := by rfl
@[simp] theorem State.setTile_arb (k : Nat) (x : Tile) : (s.setTile k x).arb = s.arb := by rfl
@[simp] theorem State.setTile_passed (k : Nat) (x : Tile) : (s.setTile k x).passed = s.passed := by rfl
@[simp] theorem State.setTile_acm (k : Nat) (x : Tile) : (s.setTile k x).acm = s.acm := by rfl
@[simp] theorem State.setTile_emt (k : Nat) (x : Tile) : (s.setTile k x).emt = s.emt := by rfl
@[simp] theorem State.setTile_site (k : Nat) (x : Tile) : (s.setTile k x).site = s.site := by rfl
@[simp] theorem State.setTile_tb (k : Nat) (x : Tile) : (s.setTile k x).tb = s.tb := by rfl
@[simp] theorem State.setTile_clk (k : Nat) (x : Tile) : (s.setTile k x).clk = s.clk := by rfl
@[simp] theorem State.setTile_eth (k : Nat) (x : Tile) : (s.setTile k x).eth = s.eth := by rfl
@[simp] theorem State.setTile_sch (k : Nat) (x : Tile) : (s.setTile k x).sch = s.sch := by rfl
@[simp] theorem State.setTile_cph (k : Nat) (x : Tile) : (s.setTile k x).cph = s.cph := by rfl
@[simp] theorem State.setTile_te (k : Nat) (x : Tile) : (s.setTile k x).te = s.te := by rfl
@[simp] theorem State.setTile_nve (k : Nat) (x : Tile) : (s.setTile k x).nve = s.nve := by rfl
@[simp] theorem State.setTile_hif (k : Nat) (x : Tile) : (s.setTile k x).hif = s.hif := by rfl
@[simp] theorem State.setTile_pcie (k : Nat) (x : Tile) : (s.setTile k x).pcie = s.pcie := by rfl
@[simp] theorem State.setTile_harts (k : Nat) (x : Tile) : (s.setTile k x).harts = s.harts := by rfl
@[simp] theorem State.setTile_aia (k : Nat) (x : Tile) : (s.setTile k x).aia = s.aia := by rfl
@[simp] theorem State.setTile_cache (k : Nat) (x : Tile) : (s.setTile k x).cache = s.cache := by rfl
@[simp] theorem State.setTile_pwr (k : Nat) (x : Tile) : (s.setTile k x).pwr = s.pwr := by rfl
@[simp] theorem State.setTile_boot (k : Nat) (x : Tile) : (s.setTile k x).boot = s.boot := by rfl
@[simp] theorem State.setTile_wkt (k : Nat) (x : Tile) : (s.setTile k x).wkt = s.wkt := by rfl
@[simp] theorem State.setTile_pins (k : Nat) (x : Tile) : (s.setTile k x).pins = s.pins := by rfl
@[simp] theorem State.setTile_lost (k : Nat) (x : Tile) : (s.setTile k x).lost = s.lost := by rfl
@[simp] theorem State.setTile_out (k : Nat) (x : Tile) : (s.setTile k x).out = s.out := by rfl
@[simp] theorem State.setTile_free (k : Nat) (x : Tile) : (s.setTile k x).free = s.free := by rfl
@[simp] theorem State.setTile_pending (k : Nat) (x : Tile) : (s.setTile k x).pending = s.pending := by rfl

/-! `State.setCfg` changes `pcie` only. -/

@[simp] theorem State.setCfg_regs (f o v : Nat) : (s.setCfg f o v).regs = s.regs := by rfl
@[simp] theorem State.setCfg_mem (f o v : Nat) : (s.setCfg f o v).mem = s.mem := by rfl
@[simp] theorem State.setCfg_poison (f o v : Nat) : (s.setCfg f o v).poison = s.poison := by rfl
@[simp] theorem State.setCfg_zeroMap (f o v : Nat) : (s.setCfg f o v).zeroMap = s.zeroMap := by rfl
@[simp] theorem State.setCfg_ddr (f o v : Nat) : (s.setCfg f o v).ddr = s.ddr := by rfl
@[simp] theorem State.setCfg_chCe (f o v : Nat) : (s.setCfg f o v).chCe = s.chCe := by rfl
@[simp] theorem State.setCfg_chTimes (f o v : Nat) : (s.setCfg f o v).chTimes = s.chTimes := by rfl
@[simp] theorem State.setCfg_chTold (f o v : Nat) : (s.setCfg f o v).chTold = s.chTold := by rfl
@[simp] theorem State.setCfg_tiles (f o v : Nat) : (s.setCfg f o v).tiles = s.tiles := by rfl
@[simp] theorem State.setCfg_prm (f o v : Nat) : (s.setCfg f o v).prm = s.prm := by rfl
@[simp] theorem State.setCfg_pav (f o v : Nat) : (s.setCfg f o v).pav = s.pav := by rfl
@[simp] theorem State.setCfg_frames (f o v : Nat) : (s.setCfg f o v).frames = s.frames := by rfl
@[simp] theorem State.setCfg_arb (f o v : Nat) : (s.setCfg f o v).arb = s.arb := by rfl
@[simp] theorem State.setCfg_passed (f o v : Nat) : (s.setCfg f o v).passed = s.passed := by rfl
@[simp] theorem State.setCfg_acm (f o v : Nat) : (s.setCfg f o v).acm = s.acm := by rfl
@[simp] theorem State.setCfg_emt (f o v : Nat) : (s.setCfg f o v).emt = s.emt := by rfl
@[simp] theorem State.setCfg_site (f o v : Nat) : (s.setCfg f o v).site = s.site := by rfl
@[simp] theorem State.setCfg_tb (f o v : Nat) : (s.setCfg f o v).tb = s.tb := by rfl
@[simp] theorem State.setCfg_clk (f o v : Nat) : (s.setCfg f o v).clk = s.clk := by rfl
@[simp] theorem State.setCfg_eth (f o v : Nat) : (s.setCfg f o v).eth = s.eth := by rfl
@[simp] theorem State.setCfg_sch (f o v : Nat) : (s.setCfg f o v).sch = s.sch := by rfl
@[simp] theorem State.setCfg_cph (f o v : Nat) : (s.setCfg f o v).cph = s.cph := by rfl
@[simp] theorem State.setCfg_te (f o v : Nat) : (s.setCfg f o v).te = s.te := by rfl
@[simp] theorem State.setCfg_nve (f o v : Nat) : (s.setCfg f o v).nve = s.nve := by rfl
@[simp] theorem State.setCfg_hif (f o v : Nat) : (s.setCfg f o v).hif = s.hif := by rfl
@[simp] theorem State.setCfg_harts (f o v : Nat) : (s.setCfg f o v).harts = s.harts := by rfl
@[simp] theorem State.setCfg_aia (f o v : Nat) : (s.setCfg f o v).aia = s.aia := by rfl
@[simp] theorem State.setCfg_cache (f o v : Nat) : (s.setCfg f o v).cache = s.cache := by rfl
@[simp] theorem State.setCfg_pwr (f o v : Nat) : (s.setCfg f o v).pwr = s.pwr := by rfl
@[simp] theorem State.setCfg_boot (f o v : Nat) : (s.setCfg f o v).boot = s.boot := by rfl
@[simp] theorem State.setCfg_wkt (f o v : Nat) : (s.setCfg f o v).wkt = s.wkt := by rfl
@[simp] theorem State.setCfg_pins (f o v : Nat) : (s.setCfg f o v).pins = s.pins := by rfl
@[simp] theorem State.setCfg_lost (f o v : Nat) : (s.setCfg f o v).lost = s.lost := by rfl
@[simp] theorem State.setCfg_out (f o v : Nat) : (s.setCfg f o v).out = s.out := by rfl
@[simp] theorem State.setCfg_free (f o v : Nat) : (s.setCfg f o v).free = s.free := by rfl
@[simp] theorem State.setCfg_pending (f o v : Nat) : (s.setCfg f o v).pending = s.pending := by rfl

/-! `State.orCfg` changes `pcie` only. -/

@[simp] theorem State.orCfg_regs (f o v : Nat) : (s.orCfg f o v).regs = s.regs := by rfl
@[simp] theorem State.orCfg_mem (f o v : Nat) : (s.orCfg f o v).mem = s.mem := by rfl
@[simp] theorem State.orCfg_poison (f o v : Nat) : (s.orCfg f o v).poison = s.poison := by rfl
@[simp] theorem State.orCfg_zeroMap (f o v : Nat) : (s.orCfg f o v).zeroMap = s.zeroMap := by rfl
@[simp] theorem State.orCfg_ddr (f o v : Nat) : (s.orCfg f o v).ddr = s.ddr := by rfl
@[simp] theorem State.orCfg_chCe (f o v : Nat) : (s.orCfg f o v).chCe = s.chCe := by rfl
@[simp] theorem State.orCfg_chTimes (f o v : Nat) : (s.orCfg f o v).chTimes = s.chTimes := by rfl
@[simp] theorem State.orCfg_chTold (f o v : Nat) : (s.orCfg f o v).chTold = s.chTold := by rfl
@[simp] theorem State.orCfg_tiles (f o v : Nat) : (s.orCfg f o v).tiles = s.tiles := by rfl
@[simp] theorem State.orCfg_prm (f o v : Nat) : (s.orCfg f o v).prm = s.prm := by rfl
@[simp] theorem State.orCfg_pav (f o v : Nat) : (s.orCfg f o v).pav = s.pav := by rfl
@[simp] theorem State.orCfg_frames (f o v : Nat) : (s.orCfg f o v).frames = s.frames := by rfl
@[simp] theorem State.orCfg_arb (f o v : Nat) : (s.orCfg f o v).arb = s.arb := by rfl
@[simp] theorem State.orCfg_passed (f o v : Nat) : (s.orCfg f o v).passed = s.passed := by rfl
@[simp] theorem State.orCfg_acm (f o v : Nat) : (s.orCfg f o v).acm = s.acm := by rfl
@[simp] theorem State.orCfg_emt (f o v : Nat) : (s.orCfg f o v).emt = s.emt := by rfl
@[simp] theorem State.orCfg_site (f o v : Nat) : (s.orCfg f o v).site = s.site := by rfl
@[simp] theorem State.orCfg_tb (f o v : Nat) : (s.orCfg f o v).tb = s.tb := by rfl
@[simp] theorem State.orCfg_clk (f o v : Nat) : (s.orCfg f o v).clk = s.clk := by rfl
@[simp] theorem State.orCfg_eth (f o v : Nat) : (s.orCfg f o v).eth = s.eth := by rfl
@[simp] theorem State.orCfg_sch (f o v : Nat) : (s.orCfg f o v).sch = s.sch := by rfl
@[simp] theorem State.orCfg_cph (f o v : Nat) : (s.orCfg f o v).cph = s.cph := by rfl
@[simp] theorem State.orCfg_te (f o v : Nat) : (s.orCfg f o v).te = s.te := by rfl
@[simp] theorem State.orCfg_nve (f o v : Nat) : (s.orCfg f o v).nve = s.nve := by rfl
@[simp] theorem State.orCfg_hif (f o v : Nat) : (s.orCfg f o v).hif = s.hif := by rfl
@[simp] theorem State.orCfg_harts (f o v : Nat) : (s.orCfg f o v).harts = s.harts := by rfl
@[simp] theorem State.orCfg_aia (f o v : Nat) : (s.orCfg f o v).aia = s.aia := by rfl
@[simp] theorem State.orCfg_cache (f o v : Nat) : (s.orCfg f o v).cache = s.cache := by rfl
@[simp] theorem State.orCfg_pwr (f o v : Nat) : (s.orCfg f o v).pwr = s.pwr := by rfl
@[simp] theorem State.orCfg_boot (f o v : Nat) : (s.orCfg f o v).boot = s.boot := by rfl
@[simp] theorem State.orCfg_wkt (f o v : Nat) : (s.orCfg f o v).wkt = s.wkt := by rfl
@[simp] theorem State.orCfg_pins (f o v : Nat) : (s.orCfg f o v).pins = s.pins := by rfl
@[simp] theorem State.orCfg_lost (f o v : Nat) : (s.orCfg f o v).lost = s.lost := by rfl
@[simp] theorem State.orCfg_out (f o v : Nat) : (s.orCfg f o v).out = s.out := by rfl
@[simp] theorem State.orCfg_free (f o v : Nat) : (s.orCfg f o v).free = s.free := by rfl
@[simp] theorem State.orCfg_pending (f o v : Nat) : (s.orCfg f o v).pending = s.pending := by rfl

/-! `State.setMsixWord` changes `pcie` only. -/

@[simp] theorem State.setMsixWord_regs (f v half : Nat) (w : Word) : (s.setMsixWord f v half w).regs = s.regs := by rfl
@[simp] theorem State.setMsixWord_mem (f v half : Nat) (w : Word) : (s.setMsixWord f v half w).mem = s.mem := by rfl
@[simp] theorem State.setMsixWord_poison (f v half : Nat) (w : Word) : (s.setMsixWord f v half w).poison = s.poison := by rfl
@[simp] theorem State.setMsixWord_zeroMap (f v half : Nat) (w : Word) : (s.setMsixWord f v half w).zeroMap = s.zeroMap := by rfl
@[simp] theorem State.setMsixWord_ddr (f v half : Nat) (w : Word) : (s.setMsixWord f v half w).ddr = s.ddr := by rfl
@[simp] theorem State.setMsixWord_chCe (f v half : Nat) (w : Word) : (s.setMsixWord f v half w).chCe = s.chCe := by rfl
@[simp] theorem State.setMsixWord_chTimes (f v half : Nat) (w : Word) : (s.setMsixWord f v half w).chTimes = s.chTimes := by rfl
@[simp] theorem State.setMsixWord_chTold (f v half : Nat) (w : Word) : (s.setMsixWord f v half w).chTold = s.chTold := by rfl
@[simp] theorem State.setMsixWord_tiles (f v half : Nat) (w : Word) : (s.setMsixWord f v half w).tiles = s.tiles := by rfl
@[simp] theorem State.setMsixWord_prm (f v half : Nat) (w : Word) : (s.setMsixWord f v half w).prm = s.prm := by rfl
@[simp] theorem State.setMsixWord_pav (f v half : Nat) (w : Word) : (s.setMsixWord f v half w).pav = s.pav := by rfl
@[simp] theorem State.setMsixWord_frames (f v half : Nat) (w : Word) : (s.setMsixWord f v half w).frames = s.frames := by rfl
@[simp] theorem State.setMsixWord_arb (f v half : Nat) (w : Word) : (s.setMsixWord f v half w).arb = s.arb := by rfl
@[simp] theorem State.setMsixWord_passed (f v half : Nat) (w : Word) : (s.setMsixWord f v half w).passed = s.passed := by rfl
@[simp] theorem State.setMsixWord_acm (f v half : Nat) (w : Word) : (s.setMsixWord f v half w).acm = s.acm := by rfl
@[simp] theorem State.setMsixWord_emt (f v half : Nat) (w : Word) : (s.setMsixWord f v half w).emt = s.emt := by rfl
@[simp] theorem State.setMsixWord_site (f v half : Nat) (w : Word) : (s.setMsixWord f v half w).site = s.site := by rfl
@[simp] theorem State.setMsixWord_tb (f v half : Nat) (w : Word) : (s.setMsixWord f v half w).tb = s.tb := by rfl
@[simp] theorem State.setMsixWord_clk (f v half : Nat) (w : Word) : (s.setMsixWord f v half w).clk = s.clk := by rfl
@[simp] theorem State.setMsixWord_eth (f v half : Nat) (w : Word) : (s.setMsixWord f v half w).eth = s.eth := by rfl
@[simp] theorem State.setMsixWord_sch (f v half : Nat) (w : Word) : (s.setMsixWord f v half w).sch = s.sch := by rfl
@[simp] theorem State.setMsixWord_cph (f v half : Nat) (w : Word) : (s.setMsixWord f v half w).cph = s.cph := by rfl
@[simp] theorem State.setMsixWord_te (f v half : Nat) (w : Word) : (s.setMsixWord f v half w).te = s.te := by rfl
@[simp] theorem State.setMsixWord_nve (f v half : Nat) (w : Word) : (s.setMsixWord f v half w).nve = s.nve := by rfl
@[simp] theorem State.setMsixWord_hif (f v half : Nat) (w : Word) : (s.setMsixWord f v half w).hif = s.hif := by rfl
@[simp] theorem State.setMsixWord_harts (f v half : Nat) (w : Word) : (s.setMsixWord f v half w).harts = s.harts := by rfl
@[simp] theorem State.setMsixWord_aia (f v half : Nat) (w : Word) : (s.setMsixWord f v half w).aia = s.aia := by rfl
@[simp] theorem State.setMsixWord_cache (f v half : Nat) (w : Word) : (s.setMsixWord f v half w).cache = s.cache := by rfl
@[simp] theorem State.setMsixWord_pwr (f v half : Nat) (w : Word) : (s.setMsixWord f v half w).pwr = s.pwr := by rfl
@[simp] theorem State.setMsixWord_boot (f v half : Nat) (w : Word) : (s.setMsixWord f v half w).boot = s.boot := by rfl
@[simp] theorem State.setMsixWord_wkt (f v half : Nat) (w : Word) : (s.setMsixWord f v half w).wkt = s.wkt := by rfl
@[simp] theorem State.setMsixWord_pins (f v half : Nat) (w : Word) : (s.setMsixWord f v half w).pins = s.pins := by rfl
@[simp] theorem State.setMsixWord_lost (f v half : Nat) (w : Word) : (s.setMsixWord f v half w).lost = s.lost := by rfl
@[simp] theorem State.setMsixWord_out (f v half : Nat) (w : Word) : (s.setMsixWord f v half w).out = s.out := by rfl
@[simp] theorem State.setMsixWord_free (f v half : Nat) (w : Word) : (s.setMsixWord f v half w).free = s.free := by rfl
@[simp] theorem State.setMsixWord_pending (f v half : Nat) (w : Word) : (s.setMsixWord f v half w).pending = s.pending := by rfl

/-! `State.setMsixPending` changes `pcie` only. -/

@[simp] theorem State.setMsixPending_regs (f v : Nat) (b : Bool) : (s.setMsixPending f v b).regs = s.regs := by rfl
@[simp] theorem State.setMsixPending_mem (f v : Nat) (b : Bool) : (s.setMsixPending f v b).mem = s.mem := by rfl
@[simp] theorem State.setMsixPending_poison (f v : Nat) (b : Bool) : (s.setMsixPending f v b).poison = s.poison := by rfl
@[simp] theorem State.setMsixPending_zeroMap (f v : Nat) (b : Bool) : (s.setMsixPending f v b).zeroMap = s.zeroMap := by rfl
@[simp] theorem State.setMsixPending_ddr (f v : Nat) (b : Bool) : (s.setMsixPending f v b).ddr = s.ddr := by rfl
@[simp] theorem State.setMsixPending_chCe (f v : Nat) (b : Bool) : (s.setMsixPending f v b).chCe = s.chCe := by rfl
@[simp] theorem State.setMsixPending_chTimes (f v : Nat) (b : Bool) : (s.setMsixPending f v b).chTimes = s.chTimes := by rfl
@[simp] theorem State.setMsixPending_chTold (f v : Nat) (b : Bool) : (s.setMsixPending f v b).chTold = s.chTold := by rfl
@[simp] theorem State.setMsixPending_tiles (f v : Nat) (b : Bool) : (s.setMsixPending f v b).tiles = s.tiles := by rfl
@[simp] theorem State.setMsixPending_prm (f v : Nat) (b : Bool) : (s.setMsixPending f v b).prm = s.prm := by rfl
@[simp] theorem State.setMsixPending_pav (f v : Nat) (b : Bool) : (s.setMsixPending f v b).pav = s.pav := by rfl
@[simp] theorem State.setMsixPending_frames (f v : Nat) (b : Bool) : (s.setMsixPending f v b).frames = s.frames := by rfl
@[simp] theorem State.setMsixPending_arb (f v : Nat) (b : Bool) : (s.setMsixPending f v b).arb = s.arb := by rfl
@[simp] theorem State.setMsixPending_passed (f v : Nat) (b : Bool) : (s.setMsixPending f v b).passed = s.passed := by rfl
@[simp] theorem State.setMsixPending_acm (f v : Nat) (b : Bool) : (s.setMsixPending f v b).acm = s.acm := by rfl
@[simp] theorem State.setMsixPending_emt (f v : Nat) (b : Bool) : (s.setMsixPending f v b).emt = s.emt := by rfl
@[simp] theorem State.setMsixPending_site (f v : Nat) (b : Bool) : (s.setMsixPending f v b).site = s.site := by rfl
@[simp] theorem State.setMsixPending_tb (f v : Nat) (b : Bool) : (s.setMsixPending f v b).tb = s.tb := by rfl
@[simp] theorem State.setMsixPending_clk (f v : Nat) (b : Bool) : (s.setMsixPending f v b).clk = s.clk := by rfl
@[simp] theorem State.setMsixPending_eth (f v : Nat) (b : Bool) : (s.setMsixPending f v b).eth = s.eth := by rfl
@[simp] theorem State.setMsixPending_sch (f v : Nat) (b : Bool) : (s.setMsixPending f v b).sch = s.sch := by rfl
@[simp] theorem State.setMsixPending_cph (f v : Nat) (b : Bool) : (s.setMsixPending f v b).cph = s.cph := by rfl
@[simp] theorem State.setMsixPending_te (f v : Nat) (b : Bool) : (s.setMsixPending f v b).te = s.te := by rfl
@[simp] theorem State.setMsixPending_nve (f v : Nat) (b : Bool) : (s.setMsixPending f v b).nve = s.nve := by rfl
@[simp] theorem State.setMsixPending_hif (f v : Nat) (b : Bool) : (s.setMsixPending f v b).hif = s.hif := by rfl
@[simp] theorem State.setMsixPending_harts (f v : Nat) (b : Bool) : (s.setMsixPending f v b).harts = s.harts := by rfl
@[simp] theorem State.setMsixPending_aia (f v : Nat) (b : Bool) : (s.setMsixPending f v b).aia = s.aia := by rfl
@[simp] theorem State.setMsixPending_cache (f v : Nat) (b : Bool) : (s.setMsixPending f v b).cache = s.cache := by rfl
@[simp] theorem State.setMsixPending_pwr (f v : Nat) (b : Bool) : (s.setMsixPending f v b).pwr = s.pwr := by rfl
@[simp] theorem State.setMsixPending_boot (f v : Nat) (b : Bool) : (s.setMsixPending f v b).boot = s.boot := by rfl
@[simp] theorem State.setMsixPending_wkt (f v : Nat) (b : Bool) : (s.setMsixPending f v b).wkt = s.wkt := by rfl
@[simp] theorem State.setMsixPending_pins (f v : Nat) (b : Bool) : (s.setMsixPending f v b).pins = s.pins := by rfl
@[simp] theorem State.setMsixPending_lost (f v : Nat) (b : Bool) : (s.setMsixPending f v b).lost = s.lost := by rfl
@[simp] theorem State.setMsixPending_out (f v : Nat) (b : Bool) : (s.setMsixPending f v b).out = s.out := by rfl
@[simp] theorem State.setMsixPending_free (f v : Nat) (b : Bool) : (s.setMsixPending f v b).free = s.free := by rfl
@[simp] theorem State.setMsixPending_pending (f v : Nat) (b : Bool) : (s.setMsixPending f v b).pending = s.pending := by rfl

/-! `State.send` changes `prm` only. -/

@[simp] theorem State.send_regs (ep : Nat) (p : Packet) : (s.send ep p).regs = s.regs := by rfl
@[simp] theorem State.send_mem (ep : Nat) (p : Packet) : (s.send ep p).mem = s.mem := by rfl
@[simp] theorem State.send_poison (ep : Nat) (p : Packet) : (s.send ep p).poison = s.poison := by rfl
@[simp] theorem State.send_zeroMap (ep : Nat) (p : Packet) : (s.send ep p).zeroMap = s.zeroMap := by rfl
@[simp] theorem State.send_ddr (ep : Nat) (p : Packet) : (s.send ep p).ddr = s.ddr := by rfl
@[simp] theorem State.send_chCe (ep : Nat) (p : Packet) : (s.send ep p).chCe = s.chCe := by rfl
@[simp] theorem State.send_chTimes (ep : Nat) (p : Packet) : (s.send ep p).chTimes = s.chTimes := by rfl
@[simp] theorem State.send_chTold (ep : Nat) (p : Packet) : (s.send ep p).chTold = s.chTold := by rfl
@[simp] theorem State.send_tiles (ep : Nat) (p : Packet) : (s.send ep p).tiles = s.tiles := by rfl
@[simp] theorem State.send_pav (ep : Nat) (p : Packet) : (s.send ep p).pav = s.pav := by rfl
@[simp] theorem State.send_frames (ep : Nat) (p : Packet) : (s.send ep p).frames = s.frames := by rfl
@[simp] theorem State.send_arb (ep : Nat) (p : Packet) : (s.send ep p).arb = s.arb := by rfl
@[simp] theorem State.send_passed (ep : Nat) (p : Packet) : (s.send ep p).passed = s.passed := by rfl
@[simp] theorem State.send_acm (ep : Nat) (p : Packet) : (s.send ep p).acm = s.acm := by rfl
@[simp] theorem State.send_emt (ep : Nat) (p : Packet) : (s.send ep p).emt = s.emt := by rfl
@[simp] theorem State.send_site (ep : Nat) (p : Packet) : (s.send ep p).site = s.site := by rfl
@[simp] theorem State.send_tb (ep : Nat) (p : Packet) : (s.send ep p).tb = s.tb := by rfl
@[simp] theorem State.send_clk (ep : Nat) (p : Packet) : (s.send ep p).clk = s.clk := by rfl
@[simp] theorem State.send_eth (ep : Nat) (p : Packet) : (s.send ep p).eth = s.eth := by rfl
@[simp] theorem State.send_sch (ep : Nat) (p : Packet) : (s.send ep p).sch = s.sch := by rfl
@[simp] theorem State.send_cph (ep : Nat) (p : Packet) : (s.send ep p).cph = s.cph := by rfl
@[simp] theorem State.send_te (ep : Nat) (p : Packet) : (s.send ep p).te = s.te := by rfl
@[simp] theorem State.send_nve (ep : Nat) (p : Packet) : (s.send ep p).nve = s.nve := by rfl
@[simp] theorem State.send_hif (ep : Nat) (p : Packet) : (s.send ep p).hif = s.hif := by rfl
@[simp] theorem State.send_pcie (ep : Nat) (p : Packet) : (s.send ep p).pcie = s.pcie := by rfl
@[simp] theorem State.send_harts (ep : Nat) (p : Packet) : (s.send ep p).harts = s.harts := by rfl
@[simp] theorem State.send_aia (ep : Nat) (p : Packet) : (s.send ep p).aia = s.aia := by rfl
@[simp] theorem State.send_cache (ep : Nat) (p : Packet) : (s.send ep p).cache = s.cache := by rfl
@[simp] theorem State.send_pwr (ep : Nat) (p : Packet) : (s.send ep p).pwr = s.pwr := by rfl
@[simp] theorem State.send_boot (ep : Nat) (p : Packet) : (s.send ep p).boot = s.boot := by rfl
@[simp] theorem State.send_wkt (ep : Nat) (p : Packet) : (s.send ep p).wkt = s.wkt := by rfl
@[simp] theorem State.send_pins (ep : Nat) (p : Packet) : (s.send ep p).pins = s.pins := by rfl
@[simp] theorem State.send_lost (ep : Nat) (p : Packet) : (s.send ep p).lost = s.lost := by rfl
@[simp] theorem State.send_out (ep : Nat) (p : Packet) : (s.send ep p).out = s.out := by rfl
@[simp] theorem State.send_free (ep : Nat) (p : Packet) : (s.send ep p).free = s.free := by rfl
@[simp] theorem State.send_pending (ep : Nat) (p : Packet) : (s.send ep p).pending = s.pending := by rfl

/-! `State.setInbox` changes `prm` only. -/

@[simp] theorem State.setInbox_regs (ep : Nat) (l : List Packet) : (s.setInbox ep l).regs = s.regs := by rfl
@[simp] theorem State.setInbox_mem (ep : Nat) (l : List Packet) : (s.setInbox ep l).mem = s.mem := by rfl
@[simp] theorem State.setInbox_poison (ep : Nat) (l : List Packet) : (s.setInbox ep l).poison = s.poison := by rfl
@[simp] theorem State.setInbox_zeroMap (ep : Nat) (l : List Packet) : (s.setInbox ep l).zeroMap = s.zeroMap := by rfl
@[simp] theorem State.setInbox_ddr (ep : Nat) (l : List Packet) : (s.setInbox ep l).ddr = s.ddr := by rfl
@[simp] theorem State.setInbox_chCe (ep : Nat) (l : List Packet) : (s.setInbox ep l).chCe = s.chCe := by rfl
@[simp] theorem State.setInbox_chTimes (ep : Nat) (l : List Packet) : (s.setInbox ep l).chTimes = s.chTimes := by rfl
@[simp] theorem State.setInbox_chTold (ep : Nat) (l : List Packet) : (s.setInbox ep l).chTold = s.chTold := by rfl
@[simp] theorem State.setInbox_tiles (ep : Nat) (l : List Packet) : (s.setInbox ep l).tiles = s.tiles := by rfl
@[simp] theorem State.setInbox_pav (ep : Nat) (l : List Packet) : (s.setInbox ep l).pav = s.pav := by rfl
@[simp] theorem State.setInbox_frames (ep : Nat) (l : List Packet) : (s.setInbox ep l).frames = s.frames := by rfl
@[simp] theorem State.setInbox_arb (ep : Nat) (l : List Packet) : (s.setInbox ep l).arb = s.arb := by rfl
@[simp] theorem State.setInbox_passed (ep : Nat) (l : List Packet) : (s.setInbox ep l).passed = s.passed := by rfl
@[simp] theorem State.setInbox_acm (ep : Nat) (l : List Packet) : (s.setInbox ep l).acm = s.acm := by rfl
@[simp] theorem State.setInbox_emt (ep : Nat) (l : List Packet) : (s.setInbox ep l).emt = s.emt := by rfl
@[simp] theorem State.setInbox_site (ep : Nat) (l : List Packet) : (s.setInbox ep l).site = s.site := by rfl
@[simp] theorem State.setInbox_tb (ep : Nat) (l : List Packet) : (s.setInbox ep l).tb = s.tb := by rfl
@[simp] theorem State.setInbox_clk (ep : Nat) (l : List Packet) : (s.setInbox ep l).clk = s.clk := by rfl
@[simp] theorem State.setInbox_eth (ep : Nat) (l : List Packet) : (s.setInbox ep l).eth = s.eth := by rfl
@[simp] theorem State.setInbox_sch (ep : Nat) (l : List Packet) : (s.setInbox ep l).sch = s.sch := by rfl
@[simp] theorem State.setInbox_cph (ep : Nat) (l : List Packet) : (s.setInbox ep l).cph = s.cph := by rfl
@[simp] theorem State.setInbox_te (ep : Nat) (l : List Packet) : (s.setInbox ep l).te = s.te := by rfl
@[simp] theorem State.setInbox_nve (ep : Nat) (l : List Packet) : (s.setInbox ep l).nve = s.nve := by rfl
@[simp] theorem State.setInbox_hif (ep : Nat) (l : List Packet) : (s.setInbox ep l).hif = s.hif := by rfl
@[simp] theorem State.setInbox_pcie (ep : Nat) (l : List Packet) : (s.setInbox ep l).pcie = s.pcie := by rfl
@[simp] theorem State.setInbox_harts (ep : Nat) (l : List Packet) : (s.setInbox ep l).harts = s.harts := by rfl
@[simp] theorem State.setInbox_aia (ep : Nat) (l : List Packet) : (s.setInbox ep l).aia = s.aia := by rfl
@[simp] theorem State.setInbox_cache (ep : Nat) (l : List Packet) : (s.setInbox ep l).cache = s.cache := by rfl
@[simp] theorem State.setInbox_pwr (ep : Nat) (l : List Packet) : (s.setInbox ep l).pwr = s.pwr := by rfl
@[simp] theorem State.setInbox_boot (ep : Nat) (l : List Packet) : (s.setInbox ep l).boot = s.boot := by rfl
@[simp] theorem State.setInbox_wkt (ep : Nat) (l : List Packet) : (s.setInbox ep l).wkt = s.wkt := by rfl
@[simp] theorem State.setInbox_pins (ep : Nat) (l : List Packet) : (s.setInbox ep l).pins = s.pins := by rfl
@[simp] theorem State.setInbox_lost (ep : Nat) (l : List Packet) : (s.setInbox ep l).lost = s.lost := by rfl
@[simp] theorem State.setInbox_out (ep : Nat) (l : List Packet) : (s.setInbox ep l).out = s.out := by rfl
@[simp] theorem State.setInbox_free (ep : Nat) (l : List Packet) : (s.setInbox ep l).free = s.free := by rfl
@[simp] theorem State.setInbox_pending (ep : Nat) (l : List Packet) : (s.setInbox ep l).pending = s.pending := by rfl

/-! `State.sets` changes the registers only, `State.putBytes` the memory and its marks. -/

@[simp] theorem State.sets_mem (l : List (Fld × Nat)) : (s.sets l).mem = s.mem := by
  induction l generalizing s with
  | nil => rfl
  | cons x t ih => exact ih (s.set x.1 x.2)
@[simp] theorem State.sets_poison (l : List (Fld × Nat)) : (s.sets l).poison = s.poison := by
  induction l generalizing s with
  | nil => rfl
  | cons x t ih => exact ih (s.set x.1 x.2)
@[simp] theorem State.sets_zeroMap (l : List (Fld × Nat)) : (s.sets l).zeroMap = s.zeroMap := by
  induction l generalizing s with
  | nil => rfl
  | cons x t ih => exact ih (s.set x.1 x.2)
@[simp] theorem State.sets_ddr (l : List (Fld × Nat)) : (s.sets l).ddr = s.ddr := by
  induction l generalizing s with
  | nil => rfl
  | cons x t ih => exact ih (s.set x.1 x.2)
@[simp] theorem State.sets_chCe (l : List (Fld × Nat)) : (s.sets l).chCe = s.chCe := by
  induction l generalizing s with
  | nil => rfl
  | cons x t ih => exact ih (s.set x.1 x.2)
@[simp] theorem State.sets_chTimes (l : List (Fld × Nat)) : (s.sets l).chTimes = s.chTimes := by
  induction l generalizing s with
  | nil => rfl
  | cons x t ih => exact ih (s.set x.1 x.2)
@[simp] theorem State.sets_chTold (l : List (Fld × Nat)) : (s.sets l).chTold = s.chTold := by
  induction l generalizing s with
  | nil => rfl
  | cons x t ih => exact ih (s.set x.1 x.2)
@[simp] theorem State.sets_tiles (l : List (Fld × Nat)) : (s.sets l).tiles = s.tiles := by
  induction l generalizing s with
  | nil => rfl
  | cons x t ih => exact ih (s.set x.1 x.2)
@[simp] theorem State.sets_prm (l : List (Fld × Nat)) : (s.sets l).prm = s.prm := by
  induction l generalizing s with
  | nil => rfl
  | cons x t ih => exact ih (s.set x.1 x.2)
@[simp] theorem State.sets_pav (l : List (Fld × Nat)) : (s.sets l).pav = s.pav := by
  induction l generalizing s with
  | nil => rfl
  | cons x t ih => exact ih (s.set x.1 x.2)
@[simp] theorem State.sets_frames (l : List (Fld × Nat)) : (s.sets l).frames = s.frames := by
  induction l generalizing s with
  | nil => rfl
  | cons x t ih => exact ih (s.set x.1 x.2)
@[simp] theorem State.sets_arb (l : List (Fld × Nat)) : (s.sets l).arb = s.arb := by
  induction l generalizing s with
  | nil => rfl
  | cons x t ih => exact ih (s.set x.1 x.2)
@[simp] theorem State.sets_passed (l : List (Fld × Nat)) : (s.sets l).passed = s.passed := by
  induction l generalizing s with
  | nil => rfl
  | cons x t ih => exact ih (s.set x.1 x.2)
@[simp] theorem State.sets_acm (l : List (Fld × Nat)) : (s.sets l).acm = s.acm := by
  induction l generalizing s with
  | nil => rfl
  | cons x t ih => exact ih (s.set x.1 x.2)
@[simp] theorem State.sets_emt (l : List (Fld × Nat)) : (s.sets l).emt = s.emt := by
  induction l generalizing s with
  | nil => rfl
  | cons x t ih => exact ih (s.set x.1 x.2)
@[simp] theorem State.sets_site (l : List (Fld × Nat)) : (s.sets l).site = s.site := by
  induction l generalizing s with
  | nil => rfl
  | cons x t ih => exact ih (s.set x.1 x.2)
@[simp] theorem State.sets_tb (l : List (Fld × Nat)) : (s.sets l).tb = s.tb := by
  induction l generalizing s with
  | nil => rfl
  | cons x t ih => exact ih (s.set x.1 x.2)
@[simp] theorem State.sets_clk (l : List (Fld × Nat)) : (s.sets l).clk = s.clk := by
  induction l generalizing s with
  | nil => rfl
  | cons x t ih => exact ih (s.set x.1 x.2)
@[simp] theorem State.sets_eth (l : List (Fld × Nat)) : (s.sets l).eth = s.eth := by
  induction l generalizing s with
  | nil => rfl
  | cons x t ih => exact ih (s.set x.1 x.2)
@[simp] theorem State.sets_sch (l : List (Fld × Nat)) : (s.sets l).sch = s.sch := by
  induction l generalizing s with
  | nil => rfl
  | cons x t ih => exact ih (s.set x.1 x.2)
@[simp] theorem State.sets_cph (l : List (Fld × Nat)) : (s.sets l).cph = s.cph := by
  induction l generalizing s with
  | nil => rfl
  | cons x t ih => exact ih (s.set x.1 x.2)
@[simp] theorem State.sets_te (l : List (Fld × Nat)) : (s.sets l).te = s.te := by
  induction l generalizing s with
  | nil => rfl
  | cons x t ih => exact ih (s.set x.1 x.2)
@[simp] theorem State.sets_nve (l : List (Fld × Nat)) : (s.sets l).nve = s.nve := by
  induction l generalizing s with
  | nil => rfl
  | cons x t ih => exact ih (s.set x.1 x.2)
@[simp] theorem State.sets_hif (l : List (Fld × Nat)) : (s.sets l).hif = s.hif := by
  induction l generalizing s with
  | nil => rfl
  | cons x t ih => exact ih (s.set x.1 x.2)
@[simp] theorem State.sets_pcie (l : List (Fld × Nat)) : (s.sets l).pcie = s.pcie := by
  induction l generalizing s with
  | nil => rfl
  | cons x t ih => exact ih (s.set x.1 x.2)
@[simp] theorem State.sets_harts (l : List (Fld × Nat)) : (s.sets l).harts = s.harts := by
  induction l generalizing s with
  | nil => rfl
  | cons x t ih => exact ih (s.set x.1 x.2)
@[simp] theorem State.sets_aia (l : List (Fld × Nat)) : (s.sets l).aia = s.aia := by
  induction l generalizing s with
  | nil => rfl
  | cons x t ih => exact ih (s.set x.1 x.2)
@[simp] theorem State.sets_cache (l : List (Fld × Nat)) : (s.sets l).cache = s.cache := by
  induction l generalizing s with
  | nil => rfl
  | cons x t ih => exact ih (s.set x.1 x.2)
@[simp] theorem State.sets_pwr (l : List (Fld × Nat)) : (s.sets l).pwr = s.pwr := by
  induction l generalizing s with
  | nil => rfl
  | cons x t ih => exact ih (s.set x.1 x.2)
@[simp] theorem State.sets_boot (l : List (Fld × Nat)) : (s.sets l).boot = s.boot := by
  induction l generalizing s with
  | nil => rfl
  | cons x t ih => exact ih (s.set x.1 x.2)
@[simp] theorem State.sets_wkt (l : List (Fld × Nat)) : (s.sets l).wkt = s.wkt := by
  induction l generalizing s with
  | nil => rfl
  | cons x t ih => exact ih (s.set x.1 x.2)
@[simp] theorem State.sets_pins (l : List (Fld × Nat)) : (s.sets l).pins = s.pins := by
  induction l generalizing s with
  | nil => rfl
  | cons x t ih => exact ih (s.set x.1 x.2)
@[simp] theorem State.sets_lost (l : List (Fld × Nat)) : (s.sets l).lost = s.lost := by
  induction l generalizing s with
  | nil => rfl
  | cons x t ih => exact ih (s.set x.1 x.2)
@[simp] theorem State.sets_out (l : List (Fld × Nat)) : (s.sets l).out = s.out := by
  induction l generalizing s with
  | nil => rfl
  | cons x t ih => exact ih (s.set x.1 x.2)
@[simp] theorem State.sets_free (l : List (Fld × Nat)) : (s.sets l).free = s.free := by
  induction l generalizing s with
  | nil => rfl
  | cons x t ih => exact ih (s.set x.1 x.2)
@[simp] theorem State.sets_pending (l : List (Fld × Nat)) : (s.sets l).pending = s.pending := by
  induction l generalizing s with
  | nil => rfl
  | cons x t ih => exact ih (s.set x.1 x.2)

@[simp] theorem State.putBytes_regs (a : Nat) (l : List Byte) : (s.putBytes a l).regs = s.regs := by
  induction l generalizing s a with
  | nil => rfl
  | cons b t ih => exact ih (s.putByte a b) (a + 1)
@[simp] theorem State.putBytes_ddr (a : Nat) (l : List Byte) : (s.putBytes a l).ddr = s.ddr := by
  induction l generalizing s a with
  | nil => rfl
  | cons b t ih => exact ih (s.putByte a b) (a + 1)
@[simp] theorem State.putBytes_chCe (a : Nat) (l : List Byte) : (s.putBytes a l).chCe = s.chCe := by
  induction l generalizing s a with
  | nil => rfl
  | cons b t ih => exact ih (s.putByte a b) (a + 1)
@[simp] theorem State.putBytes_chTimes (a : Nat) (l : List Byte) : (s.putBytes a l).chTimes = s.chTimes := by
  induction l generalizing s a with
  | nil => rfl
  | cons b t ih => exact ih (s.putByte a b) (a + 1)
@[simp] theorem State.putBytes_chTold (a : Nat) (l : List Byte) : (s.putBytes a l).chTold = s.chTold := by
  induction l generalizing s a with
  | nil => rfl
  | cons b t ih => exact ih (s.putByte a b) (a + 1)
@[simp] theorem State.putBytes_tiles (a : Nat) (l : List Byte) : (s.putBytes a l).tiles = s.tiles := by
  induction l generalizing s a with
  | nil => rfl
  | cons b t ih => exact ih (s.putByte a b) (a + 1)
@[simp] theorem State.putBytes_prm (a : Nat) (l : List Byte) : (s.putBytes a l).prm = s.prm := by
  induction l generalizing s a with
  | nil => rfl
  | cons b t ih => exact ih (s.putByte a b) (a + 1)
@[simp] theorem State.putBytes_pav (a : Nat) (l : List Byte) : (s.putBytes a l).pav = s.pav := by
  induction l generalizing s a with
  | nil => rfl
  | cons b t ih => exact ih (s.putByte a b) (a + 1)
@[simp] theorem State.putBytes_frames (a : Nat) (l : List Byte) : (s.putBytes a l).frames = s.frames := by
  induction l generalizing s a with
  | nil => rfl
  | cons b t ih => exact ih (s.putByte a b) (a + 1)
@[simp] theorem State.putBytes_arb (a : Nat) (l : List Byte) : (s.putBytes a l).arb = s.arb := by
  induction l generalizing s a with
  | nil => rfl
  | cons b t ih => exact ih (s.putByte a b) (a + 1)
@[simp] theorem State.putBytes_passed (a : Nat) (l : List Byte) : (s.putBytes a l).passed = s.passed := by
  induction l generalizing s a with
  | nil => rfl
  | cons b t ih => exact ih (s.putByte a b) (a + 1)
@[simp] theorem State.putBytes_acm (a : Nat) (l : List Byte) : (s.putBytes a l).acm = s.acm := by
  induction l generalizing s a with
  | nil => rfl
  | cons b t ih => exact ih (s.putByte a b) (a + 1)
@[simp] theorem State.putBytes_emt (a : Nat) (l : List Byte) : (s.putBytes a l).emt = s.emt := by
  induction l generalizing s a with
  | nil => rfl
  | cons b t ih => exact ih (s.putByte a b) (a + 1)
@[simp] theorem State.putBytes_site (a : Nat) (l : List Byte) : (s.putBytes a l).site = s.site := by
  induction l generalizing s a with
  | nil => rfl
  | cons b t ih => exact ih (s.putByte a b) (a + 1)
@[simp] theorem State.putBytes_tb (a : Nat) (l : List Byte) : (s.putBytes a l).tb = s.tb := by
  induction l generalizing s a with
  | nil => rfl
  | cons b t ih => exact ih (s.putByte a b) (a + 1)
@[simp] theorem State.putBytes_clk (a : Nat) (l : List Byte) : (s.putBytes a l).clk = s.clk := by
  induction l generalizing s a with
  | nil => rfl
  | cons b t ih => exact ih (s.putByte a b) (a + 1)
@[simp] theorem State.putBytes_eth (a : Nat) (l : List Byte) : (s.putBytes a l).eth = s.eth := by
  induction l generalizing s a with
  | nil => rfl
  | cons b t ih => exact ih (s.putByte a b) (a + 1)
@[simp] theorem State.putBytes_sch (a : Nat) (l : List Byte) : (s.putBytes a l).sch = s.sch := by
  induction l generalizing s a with
  | nil => rfl
  | cons b t ih => exact ih (s.putByte a b) (a + 1)
@[simp] theorem State.putBytes_cph (a : Nat) (l : List Byte) : (s.putBytes a l).cph = s.cph := by
  induction l generalizing s a with
  | nil => rfl
  | cons b t ih => exact ih (s.putByte a b) (a + 1)
@[simp] theorem State.putBytes_te (a : Nat) (l : List Byte) : (s.putBytes a l).te = s.te := by
  induction l generalizing s a with
  | nil => rfl
  | cons b t ih => exact ih (s.putByte a b) (a + 1)
@[simp] theorem State.putBytes_nve (a : Nat) (l : List Byte) : (s.putBytes a l).nve = s.nve := by
  induction l generalizing s a with
  | nil => rfl
  | cons b t ih => exact ih (s.putByte a b) (a + 1)
@[simp] theorem State.putBytes_hif (a : Nat) (l : List Byte) : (s.putBytes a l).hif = s.hif := by
  induction l generalizing s a with
  | nil => rfl
  | cons b t ih => exact ih (s.putByte a b) (a + 1)
@[simp] theorem State.putBytes_pcie (a : Nat) (l : List Byte) : (s.putBytes a l).pcie = s.pcie := by
  induction l generalizing s a with
  | nil => rfl
  | cons b t ih => exact ih (s.putByte a b) (a + 1)
@[simp] theorem State.putBytes_harts (a : Nat) (l : List Byte) : (s.putBytes a l).harts = s.harts := by
  induction l generalizing s a with
  | nil => rfl
  | cons b t ih => exact ih (s.putByte a b) (a + 1)
@[simp] theorem State.putBytes_aia (a : Nat) (l : List Byte) : (s.putBytes a l).aia = s.aia := by
  induction l generalizing s a with
  | nil => rfl
  | cons b t ih => exact ih (s.putByte a b) (a + 1)
@[simp] theorem State.putBytes_cache (a : Nat) (l : List Byte) : (s.putBytes a l).cache = s.cache := by
  induction l generalizing s a with
  | nil => rfl
  | cons b t ih => exact ih (s.putByte a b) (a + 1)
@[simp] theorem State.putBytes_pwr (a : Nat) (l : List Byte) : (s.putBytes a l).pwr = s.pwr := by
  induction l generalizing s a with
  | nil => rfl
  | cons b t ih => exact ih (s.putByte a b) (a + 1)
@[simp] theorem State.putBytes_boot (a : Nat) (l : List Byte) : (s.putBytes a l).boot = s.boot := by
  induction l generalizing s a with
  | nil => rfl
  | cons b t ih => exact ih (s.putByte a b) (a + 1)
@[simp] theorem State.putBytes_wkt (a : Nat) (l : List Byte) : (s.putBytes a l).wkt = s.wkt := by
  induction l generalizing s a with
  | nil => rfl
  | cons b t ih => exact ih (s.putByte a b) (a + 1)
@[simp] theorem State.putBytes_pins (a : Nat) (l : List Byte) : (s.putBytes a l).pins = s.pins := by
  induction l generalizing s a with
  | nil => rfl
  | cons b t ih => exact ih (s.putByte a b) (a + 1)
@[simp] theorem State.putBytes_lost (a : Nat) (l : List Byte) : (s.putBytes a l).lost = s.lost := by
  induction l generalizing s a with
  | nil => rfl
  | cons b t ih => exact ih (s.putByte a b) (a + 1)
@[simp] theorem State.putBytes_out (a : Nat) (l : List Byte) : (s.putBytes a l).out = s.out := by
  induction l generalizing s a with
  | nil => rfl
  | cons b t ih => exact ih (s.putByte a b) (a + 1)
@[simp] theorem State.putBytes_free (a : Nat) (l : List Byte) : (s.putBytes a l).free = s.free := by
  induction l generalizing s a with
  | nil => rfl
  | cons b t ih => exact ih (s.putByte a b) (a + 1)
@[simp] theorem State.putBytes_pending (a : Nat) (l : List Byte) : (s.putBytes a l).pending = s.pending := by
  induction l generalizing s a with
  | nil => rfl
  | cons b t ih => exact ih (s.putByte a b) (a + 1)

/-! ### Registers -/

theorem State.rd_wr (o o' : Nat) (w : Word) : (s.wr o w).rd o' = if o' = o then w else s.rd o' := by
  simp [State.rd, State.wr, spGet_set]

@[simp] theorem State.rd_wr_same (o : Nat) (w : Word) : (s.wr o w).rd o = w := by simp [State.rd_wr]

theorem State.rd_wr_ne {o o' : Nat} (w : Word) (h : o' ≠ o) : (s.wr o w).rd o' = s.rd o' := by simp [State.rd_wr, h]

/-- A register whose field was set. -/
theorem State.rd_set (f : Fld) (v o : Nat) :
    (s.set f v).rd o = if o = f.off then setBits (s.rd f.off) f.hi f.lo v else s.rd o := by
  simp only [State.set, State.rd_wr]

theorem State.rd_set_ne {f : Fld} {o : Nat} (v : Nat) (h : o ≠ f.off) : (s.set f v).rd o = s.rd o := by
  simp [State.rd_set, h]

/-- A field reads as what was set there, modulo its width. -/
theorem State.get_set_same {f : Fld} (v : Nat) (hl : f.lo ≤ f.hi) (hh : f.hi < 64) :
    (s.set f v).get f = v % 2 ^ (f.hi + 1 - f.lo) := by
  simp [State.get, State.rd_set, bitsAt_setBits_same _ _ _ _ hl hh]

/-- A field of another register reads as before. -/
theorem State.get_set_ne {f g : Fld} (v : Nat) (h : g.off ≠ f.off) : (s.set f v).get g = s.get g := by
  simp [State.get, State.rd_set, h]

/-- A field apart from the one set reads as before, in the same register too. -/
theorem State.get_set_other {f g : Fld} (v : Nat) (hl : f.lo ≤ f.hi) (hh : f.hi < 64)
    (h : g.off ≠ f.off ∨ f.hi < g.lo ∨ g.hi < f.lo) : (s.set f v).get g = s.get g := by
  by_cases e : g.off = f.off
  · have hd : f.hi < g.lo ∨ g.hi < f.lo := h.resolve_left (fun n => n e)
    simp only [State.get, State.rd_set, e, if_true]
    exact bitsAt_setBits_other _ _ _ _ _ _ hl hh hd
  · exact s.get_set_ne v e

theorem State.get_wr_ne {o : Nat} {g : Fld} (w : Word) (h : g.off ≠ o) : (s.wr o w).get g = s.get g := by
  simp [State.get, State.rd_wr, h]

@[simp] theorem State.sets_nil : s.sets [] = s := by rfl
theorem State.sets_cons (x : Fld × Nat) (l : List (Fld × Nat)) : s.sets (x :: l) = (s.set x.1 x.2).sets l := by rfl

/-- Registers whose offset names no field set read as before. -/
theorem State.rd_sets_ne {l : List (Fld × Nat)} {o : Nat} (h : ∀ x ∈ l, o ≠ x.1.off) : (s.sets l).rd o = s.rd o := by
  induction l generalizing s with
  | nil => rfl
  | cons x t ih =>
    rw [State.sets_cons, ih _ (fun y hy => h y (List.mem_cons_of_mem _ hy)), State.rd_set_ne _ _ (h x List.mem_cons_self)]

theorem State.rd_congr {s t : State} (h : t.regs = s.regs) (o : Nat) : t.rd o = s.rd o := by simp [State.rd, h]
theorem State.get_congr {s t : State} (h : t.regs = s.regs) (f : Fld) : t.get f = s.get f := by simp [State.get, State.rd, h]

/-! ### Registers do not see what is no register -/

@[simp] theorem State.emit_rd (x : Output) (r : Nat) : (s.emit x).rd r = s.rd r := by rfl
@[simp] theorem State.emit_get (x : Output) (f' : Fld) : (s.emit x).get f' = s.get f' := by rfl
@[simp] theorem State.emits_rd (l : List Output) (r : Nat) : (s.emits l).rd r = s.rd r := by rfl
@[simp] theorem State.emits_get (l : List Output) (f' : Fld) : (s.emits l).get f' = s.get f' := by rfl
@[simp] theorem State.setTbase_rd (k : Nat) (t : Timebase) (r : Nat) : (s.setTbase k t).rd r = s.rd r := by rfl
@[simp] theorem State.setTbase_get (k : Nat) (t : Timebase) (f' : Fld) : (s.setTbase k t).get f' = s.get f' := by rfl
@[simp] theorem State.setTile_rd (k : Nat) (x : Tile) (r : Nat) : (s.setTile k x).rd r = s.rd r := by rfl
@[simp] theorem State.setTile_get (k : Nat) (x : Tile) (f' : Fld) : (s.setTile k x).get f' = s.get f' := by rfl
@[simp] theorem State.setCfg_rd (f o v : Nat) (r : Nat) : (s.setCfg f o v).rd r = s.rd r := by rfl
@[simp] theorem State.setCfg_get (f o v : Nat) (f' : Fld) : (s.setCfg f o v).get f' = s.get f' := by rfl
@[simp] theorem State.orCfg_rd (f o v : Nat) (r : Nat) : (s.orCfg f o v).rd r = s.rd r := by rfl
@[simp] theorem State.orCfg_get (f o v : Nat) (f' : Fld) : (s.orCfg f o v).get f' = s.get f' := by rfl
@[simp] theorem State.setMsixWord_rd (f v half : Nat) (w : Word) (r : Nat) : (s.setMsixWord f v half w).rd r = s.rd r := by rfl
@[simp] theorem State.setMsixWord_get (f v half : Nat) (w : Word) (f' : Fld) : (s.setMsixWord f v half w).get f' = s.get f' := by rfl
@[simp] theorem State.setMsixPending_rd (f v : Nat) (b : Bool) (r : Nat) : (s.setMsixPending f v b).rd r = s.rd r := by rfl
@[simp] theorem State.setMsixPending_get (f v : Nat) (b : Bool) (f' : Fld) : (s.setMsixPending f v b).get f' = s.get f' := by rfl
@[simp] theorem State.send_rd (ep : Nat) (p : Packet) (r : Nat) : (s.send ep p).rd r = s.rd r := by rfl
@[simp] theorem State.send_get (ep : Nat) (p : Packet) (f' : Fld) : (s.send ep p).get f' = s.get f' := by rfl
@[simp] theorem State.setInbox_rd (ep : Nat) (l : List Packet) (r : Nat) : (s.setInbox ep l).rd r = s.rd r := by rfl
@[simp] theorem State.setInbox_get (ep : Nat) (l : List Packet) (f' : Fld) : (s.setInbox ep l).get f' = s.get f' := by rfl
@[simp] theorem State.putByte_rd (a : Nat) (b : Byte) (r : Nat) : (s.putByte a b).rd r = s.rd r := by rfl
@[simp] theorem State.putByte_get (a : Nat) (b : Byte) (f' : Fld) : (s.putByte a b).get f' = s.get f' := by rfl
@[simp] theorem State.zeroRange_rd (a n : Nat) (r : Nat) : (s.zeroRange a n).rd r = s.rd r := by rfl
@[simp] theorem State.zeroRange_get (a n : Nat) (f' : Fld) : (s.zeroRange a n).get f' = s.get f' := by rfl
@[simp] theorem State.takeFree_rd (r : Nat) : s.takeFree.2.rd r = s.rd r := by rfl
@[simp] theorem State.takeFree_get (f : Fld) : s.takeFree.2.get f = s.get f := by rfl
@[simp] theorem State.putBytes_rd (a : Nat) (l : List Byte) (r : Nat) : (s.putBytes a l).rd r = s.rd r := by simp [State.rd]
@[simp] theorem State.putBytes_get (a : Nat) (l : List Byte) (f : Fld) : (s.putBytes a l).get f = s.get f := by simp [State.get]

/-! ### Memory -/

@[simp] theorem State.emit_byte (x : Output) (a' : Nat) : (s.emit x).byte a' = s.byte a' := by rfl
@[simp] theorem State.emits_byte (l : List Output) (a' : Nat) : (s.emits l).byte a' = s.byte a' := by rfl
@[simp] theorem State.setTbase_byte (k : Nat) (t : Timebase) (a' : Nat) : (s.setTbase k t).byte a' = s.byte a' := by rfl
@[simp] theorem State.setTile_byte (k : Nat) (x : Tile) (a' : Nat) : (s.setTile k x).byte a' = s.byte a' := by rfl
@[simp] theorem State.setCfg_byte (f o v : Nat) (a' : Nat) : (s.setCfg f o v).byte a' = s.byte a' := by rfl
@[simp] theorem State.orCfg_byte (f o v : Nat) (a' : Nat) : (s.orCfg f o v).byte a' = s.byte a' := by rfl
@[simp] theorem State.setMsixWord_byte (f v half : Nat) (w : Word) (a' : Nat) : (s.setMsixWord f v half w).byte a' = s.byte a' := by rfl
@[simp] theorem State.setMsixPending_byte (f v : Nat) (b : Bool) (a' : Nat) : (s.setMsixPending f v b).byte a' = s.byte a' := by rfl
@[simp] theorem State.send_byte (ep : Nat) (p : Packet) (a' : Nat) : (s.send ep p).byte a' = s.byte a' := by rfl
@[simp] theorem State.setInbox_byte (ep : Nat) (l : List Packet) (a' : Nat) : (s.setInbox ep l).byte a' = s.byte a' := by rfl
@[simp] theorem State.wr_byte (o : Nat) (w : Word) (a' : Nat) : (s.wr o w).byte a' = s.byte a' := by rfl
@[simp] theorem State.set_byte (f : Fld) (v : Nat) (a' : Nat) : (s.set f v).byte a' = s.byte a' := by rfl
@[simp] theorem State.count_byte (f : Fld) (a' : Nat) : (s.count f).byte a' = s.byte a' := by rfl
@[simp] theorem State.takeFree_byte (a : Nat) : s.takeFree.2.byte a = s.byte a := by rfl
@[simp] theorem State.sets_byte (l : List (Fld × Nat)) (a : Nat) : (s.sets l).byte a = s.byte a := by simp [State.byte]

theorem State.byte_putByte (a a' : Nat) (b : Byte) : (s.putByte a b).byte a' = if a' = a then b else s.byte a' := by
  simp [State.byte, State.putByte, spGet_set]

theorem State.byte_congr {s t : State} (h : t.mem = s.mem) (a : Nat) : t.byte a = s.byte a := by simp [State.byte, h]

/-- A byte outside the range written reads as before. -/
theorem State.byte_putBytes_out (a a' : Nat) (l : List Byte) (h : a' < a ∨ a + l.length ≤ a') :
    (s.putBytes a l).byte a' = s.byte a' := by
  induction l generalizing s a with
  | nil => rfl
  | cons b t ih =>
    simp only [List.length_cons] at h
    rw [State.putBytes, ih _ _ (by omega), State.byte_putByte, if_neg (by omega)]

/-- A byte inside the range written reads as what was written. -/
theorem State.byte_putBytes_in (a i : Nat) (l : List Byte) (h : i < l.length) :
    (s.putBytes a l).byte (a + i) = l[i] := by
  induction l generalizing s a i with
  | nil => simp at h
  | cons b t ih =>
    rw [State.putBytes]
    cases i with
    | zero => rw [State.byte_putBytes_out _ _ _ _ (by omega), State.byte_putByte]; simp
    | succ j =>
      have := ih (s.putByte a b) (a + 1) j (by simpa using h)
      rw [show a + (j + 1) = a + 1 + j by omega, this]; simp

theorem State.putByte_memWf (a : Nat) (b : Byte) (h : memWf s.mem = true) : memWf (s.putByte a b).mem = true :=
  spWf_set h a b

theorem State.putBytes_memWf (a : Nat) (l : List Byte) (h : memWf s.mem = true) : memWf (s.putBytes a l).mem = true := by
  induction l generalizing s a with
  | nil => exact h
  | cons b t ih => exact ih (s.putByte a b) (a + 1) (s.putByte_memWf a b h)

theorem State.zeroRange_memWf (a n : Nat) (h : memWf s.mem = true) : memWf (s.zeroRange a n).mem = true :=
  spWf_filter h _

end Sys2Proof.Machine
end

