-- ==== Sys2Proof/Laws/Ops.lean ====
section
/-! SUPPORT. What the shared operations of faults, interrupts and DMA leave as it was. -/

namespace Sys2Proof.Machine

set_option linter.all false
set_option Elab.async false

variable (s : State)

/-- A part of the state that every step of a fold leaves as it was is as it was. -/
theorem foldl_part {α β : Type} (p : State → β) (g : State → α → State) (l : List α) (s : State)
    (h : ∀ s x, p (g s x) = p s) : p (l.foldl g s) = p s := by
  induction l generalizing s with
  | nil => rfl
  | cons a l ih => simp [ih, h]

/-! `State.l1Exit` changes `pcie`, `out` only. -/

@[simp] theorem State.l1Exit_regs (f : Nat) : (s.l1Exit f).regs = s.regs := by
  unfold State.l1Exit; (try simp only []); (repeat' split) <;> simp
@[simp] theorem State.l1Exit_mem (f : Nat) : (s.l1Exit f).mem = s.mem := by
  unfold State.l1Exit; (try simp only []); (repeat' split) <;> simp
@[simp] theorem State.l1Exit_poison (f : Nat) : (s.l1Exit f).poison = s.poison := by
  unfold State.l1Exit; (try simp only []); (repeat' split) <;> simp
@[simp] theorem State.l1Exit_zeroMap (f : Nat) : (s.l1Exit f).zeroMap = s.zeroMap := by
  unfold State.l1Exit; (try simp only []); (repeat' split) <;> simp
@[simp] theorem State.l1Exit_ddr (f : Nat) : (s.l1Exit f).ddr = s.ddr := by
  unfold State.l1Exit; (try simp only []); (repeat' split) <;> simp
@[simp] theorem State.l1Exit_chCe (f : Nat) : (s.l1Exit f).chCe = s.chCe := by
  unfold State.l1Exit; (try simp only []); (repeat' split) <;> simp
@[simp] theorem State.l1Exit_chTimes (f : Nat) : (s.l1Exit f).chTimes = s.chTimes := by
  unfold State.l1Exit; (try simp only []); (repeat' split) <;> simp
@[simp] theorem State.l1Exit_chTold (f : Nat) : (s.l1Exit f).chTold = s.chTold := by
  unfold State.l1Exit; (try simp only []); (repeat' split) <;> simp
@[simp] theorem State.l1Exit_tiles (f : Nat) : (s.l1Exit f).tiles = s.tiles := by
  unfold State.l1Exit; (try simp only []); (repeat' split) <;> simp
@[simp] theorem State.l1Exit_prm (f : Nat) : (s.l1Exit f).prm = s.prm := by
  unfold State.l1Exit; (try simp only []); (repeat' split) <;> simp
@[simp] theorem State.l1Exit_pav (f : Nat) : (s.l1Exit f).pav = s.pav := by
  unfold State.l1Exit; (try simp only []); (repeat' split) <;> simp
@[simp] theorem State.l1Exit_frames (f : Nat) : (s.l1Exit f).frames = s.frames := by
  unfold State.l1Exit; (try simp only []); (repeat' split) <;> simp
@[simp] theorem State.l1Exit_arb (f : Nat) : (s.l1Exit f).arb = s.arb := by
  unfold State.l1Exit; (try simp only []); (repeat' split) <;> simp
@[simp] theorem State.l1Exit_passed (f : Nat) : (s.l1Exit f).passed = s.passed := by
  unfold State.l1Exit; (try simp only []); (repeat' split) <;> simp
@[simp] theorem State.l1Exit_acm (f : Nat) : (s.l1Exit f).acm = s.acm := by
  unfold State.l1Exit; (try simp only []); (repeat' split) <;> simp
@[simp] theorem State.l1Exit_emt (f : Nat) : (s.l1Exit f).emt = s.emt := by
  unfold State.l1Exit; (try simp only []); (repeat' split) <;> simp
@[simp] theorem State.l1Exit_site (f : Nat) : (s.l1Exit f).site = s.site := by
  unfold State.l1Exit; (try simp only []); (repeat' split) <;> simp
@[simp] theorem State.l1Exit_tb (f : Nat) : (s.l1Exit f).tb = s.tb := by
  unfold State.l1Exit; (try simp only []); (repeat' split) <;> simp
@[simp] theorem State.l1Exit_clk (f : Nat) : (s.l1Exit f).clk = s.clk := by
  unfold State.l1Exit; (try simp only []); (repeat' split) <;> simp
@[simp] theorem State.l1Exit_eth (f : Nat) : (s.l1Exit f).eth = s.eth := by
  unfold State.l1Exit; (try simp only []); (repeat' split) <;> simp
@[simp] theorem State.l1Exit_sch (f : Nat) : (s.l1Exit f).sch = s.sch := by
  unfold State.l1Exit; (try simp only []); (repeat' split) <;> simp
@[simp] theorem State.l1Exit_cph (f : Nat) : (s.l1Exit f).cph = s.cph := by
  unfold State.l1Exit; (try simp only []); (repeat' split) <;> simp
@[simp] theorem State.l1Exit_te (f : Nat) : (s.l1Exit f).te = s.te := by
  unfold State.l1Exit; (try simp only []); (repeat' split) <;> simp
@[simp] theorem State.l1Exit_nve (f : Nat) : (s.l1Exit f).nve = s.nve := by
  unfold State.l1Exit; (try simp only []); (repeat' split) <;> simp
@[simp] theorem State.l1Exit_hif (f : Nat) : (s.l1Exit f).hif = s.hif := by
  unfold State.l1Exit; (try simp only []); (repeat' split) <;> simp
@[simp] theorem State.l1Exit_harts (f : Nat) : (s.l1Exit f).harts = s.harts := by
  unfold State.l1Exit; (try simp only []); (repeat' split) <;> simp
@[simp] theorem State.l1Exit_aia (f : Nat) : (s.l1Exit f).aia = s.aia := by
  unfold State.l1Exit; (try simp only []); (repeat' split) <;> simp
@[simp] theorem State.l1Exit_cache (f : Nat) : (s.l1Exit f).cache = s.cache := by
  unfold State.l1Exit; (try simp only []); (repeat' split) <;> simp
@[simp] theorem State.l1Exit_pwr (f : Nat) : (s.l1Exit f).pwr = s.pwr := by
  unfold State.l1Exit; (try simp only []); (repeat' split) <;> simp
@[simp] theorem State.l1Exit_boot (f : Nat) : (s.l1Exit f).boot = s.boot := by
  unfold State.l1Exit; (try simp only []); (repeat' split) <;> simp
@[simp] theorem State.l1Exit_wkt (f : Nat) : (s.l1Exit f).wkt = s.wkt := by
  unfold State.l1Exit; (try simp only []); (repeat' split) <;> simp
@[simp] theorem State.l1Exit_pins (f : Nat) : (s.l1Exit f).pins = s.pins := by
  unfold State.l1Exit; (try simp only []); (repeat' split) <;> simp
@[simp] theorem State.l1Exit_lost (f : Nat) : (s.l1Exit f).lost = s.lost := by
  unfold State.l1Exit; (try simp only []); (repeat' split) <;> simp
@[simp] theorem State.l1Exit_free (f : Nat) : (s.l1Exit f).free = s.free := by
  unfold State.l1Exit; (try simp only []); (repeat' split) <;> simp
@[simp] theorem State.l1Exit_pending (f : Nat) : (s.l1Exit f).pending = s.pending := by
  unfold State.l1Exit; (try simp only []); (repeat' split) <;> simp
@[simp] theorem State.l1Exit_rd (f : Nat) (o' : Nat) : (s.l1Exit f).rd o' = s.rd o' := by simp [State.rd]
@[simp] theorem State.l1Exit_get (f : Nat) (f' : Fld) : (s.l1Exit f).get f' = s.get f' := by simp [State.get]
@[simp] theorem State.l1Exit_byte (f : Nat) (a' : Nat) : (s.l1Exit f).byte a' = s.byte a' := by simp [State.byte]

/-! `State.hostSend` changes `pcie`, `out` only. -/

@[simp] theorem State.hostSend_regs (f : Nat) (o : Output) : (s.hostSend f o).regs = s.regs := by
  unfold State.hostSend; (try simp only []); (repeat' split) <;> simp
@[simp] theorem State.hostSend_mem (f : Nat) (o : Output) : (s.hostSend f o).mem = s.mem := by
  unfold State.hostSend; (try simp only []); (repeat' split) <;> simp
@[simp] theorem State.hostSend_poison (f : Nat) (o : Output) : (s.hostSend f o).poison = s.poison := by
  unfold State.hostSend; (try simp only []); (repeat' split) <;> simp
@[simp] theorem State.hostSend_zeroMap (f : Nat) (o : Output) : (s.hostSend f o).zeroMap = s.zeroMap := by
  unfold State.hostSend; (try simp only []); (repeat' split) <;> simp
@[simp] theorem State.hostSend_ddr (f : Nat) (o : Output) : (s.hostSend f o).ddr = s.ddr := by
  unfold State.hostSend; (try simp only []); (repeat' split) <;> simp
@[simp] theorem State.hostSend_chCe (f : Nat) (o : Output) : (s.hostSend f o).chCe = s.chCe := by
  unfold State.hostSend; (try simp only []); (repeat' split) <;> simp
@[simp] theorem State.hostSend_chTimes (f : Nat) (o : Output) : (s.hostSend f o).chTimes = s.chTimes := by
  unfold State.hostSend; (try simp only []); (repeat' split) <;> simp
@[simp] theorem State.hostSend_chTold (f : Nat) (o : Output) : (s.hostSend f o).chTold = s.chTold := by
  unfold State.hostSend; (try simp only []); (repeat' split) <;> simp
@[simp] theorem State.hostSend_tiles (f : Nat) (o : Output) : (s.hostSend f o).tiles = s.tiles := by
  unfold State.hostSend; (try simp only []); (repeat' split) <;> simp
@[simp] theorem State.hostSend_prm (f : Nat) (o : Output) : (s.hostSend f o).prm = s.prm := by
  unfold State.hostSend; (try simp only []); (repeat' split) <;> simp
@[simp] theorem State.hostSend_pav (f : Nat) (o : Output) : (s.hostSend f o).pav = s.pav := by
  unfold State.hostSend; (try simp only []); (repeat' split) <;> simp
@[simp] theorem State.hostSend_frames (f : Nat) (o : Output) : (s.hostSend f o).frames = s.frames := by
  unfold State.hostSend; (try simp only []); (repeat' split) <;> simp
@[simp] theorem State.hostSend_arb (f : Nat) (o : Output) : (s.hostSend f o).arb = s.arb := by
  unfold State.hostSend; (try simp only []); (repeat' split) <;> simp
@[simp] theorem State.hostSend_passed (f : Nat) (o : Output) : (s.hostSend f o).passed = s.passed := by
  unfold State.hostSend; (try simp only []); (repeat' split) <;> simp
@[simp] theorem State.hostSend_acm (f : Nat) (o : Output) : (s.hostSend f o).acm = s.acm := by
  unfold State.hostSend; (try simp only []); (repeat' split) <;> simp
@[simp] theorem State.hostSend_emt (f : Nat) (o : Output) : (s.hostSend f o).emt = s.emt := by
  unfold State.hostSend; (try simp only []); (repeat' split) <;> simp
@[simp] theorem State.hostSend_site (f : Nat) (o : Output) : (s.hostSend f o).site = s.site := by
  unfold State.hostSend; (try simp only []); (repeat' split) <;> simp
@[simp] theorem State.hostSend_tb (f : Nat) (o : Output) : (s.hostSend f o).tb = s.tb := by
  unfold State.hostSend; (try simp only []); (repeat' split) <;> simp
@[simp] theorem State.hostSend_clk (f : Nat) (o : Output) : (s.hostSend f o).clk = s.clk := by
  unfold State.hostSend; (try simp only []); (repeat' split) <;> simp
@[simp] theorem State.hostSend_eth (f : Nat) (o : Output) : (s.hostSend f o).eth = s.eth := by
  unfold State.hostSend; (try simp only []); (repeat' split) <;> simp
@[simp] theorem State.hostSend_sch (f : Nat) (o : Output) : (s.hostSend f o).sch = s.sch := by
  unfold State.hostSend; (try simp only []); (repeat' split) <;> simp
@[simp] theorem State.hostSend_cph (f : Nat) (o : Output) : (s.hostSend f o).cph = s.cph := by
  unfold State.hostSend; (try simp only []); (repeat' split) <;> simp
@[simp] theorem State.hostSend_te (f : Nat) (o : Output) : (s.hostSend f o).te = s.te := by
  unfold State.hostSend; (try simp only []); (repeat' split) <;> simp
@[simp] theorem State.hostSend_nve (f : Nat) (o : Output) : (s.hostSend f o).nve = s.nve := by
  unfold State.hostSend; (try simp only []); (repeat' split) <;> simp
@[simp] theorem State.hostSend_hif (f : Nat) (o : Output) : (s.hostSend f o).hif = s.hif := by
  unfold State.hostSend; (try simp only []); (repeat' split) <;> simp
@[simp] theorem State.hostSend_harts (f : Nat) (o : Output) : (s.hostSend f o).harts = s.harts := by
  unfold State.hostSend; (try simp only []); (repeat' split) <;> simp
@[simp] theorem State.hostSend_aia (f : Nat) (o : Output) : (s.hostSend f o).aia = s.aia := by
  unfold State.hostSend; (try simp only []); (repeat' split) <;> simp
@[simp] theorem State.hostSend_cache (f : Nat) (o : Output) : (s.hostSend f o).cache = s.cache := by
  unfold State.hostSend; (try simp only []); (repeat' split) <;> simp
@[simp] theorem State.hostSend_pwr (f : Nat) (o : Output) : (s.hostSend f o).pwr = s.pwr := by
  unfold State.hostSend; (try simp only []); (repeat' split) <;> simp
@[simp] theorem State.hostSend_boot (f : Nat) (o : Output) : (s.hostSend f o).boot = s.boot := by
  unfold State.hostSend; (try simp only []); (repeat' split) <;> simp
@[simp] theorem State.hostSend_wkt (f : Nat) (o : Output) : (s.hostSend f o).wkt = s.wkt := by
  unfold State.hostSend; (try simp only []); (repeat' split) <;> simp
@[simp] theorem State.hostSend_pins (f : Nat) (o : Output) : (s.hostSend f o).pins = s.pins := by
  unfold State.hostSend; (try simp only []); (repeat' split) <;> simp
@[simp] theorem State.hostSend_lost (f : Nat) (o : Output) : (s.hostSend f o).lost = s.lost := by
  unfold State.hostSend; (try simp only []); (repeat' split) <;> simp
@[simp] theorem State.hostSend_free (f : Nat) (o : Output) : (s.hostSend f o).free = s.free := by
  unfold State.hostSend; (try simp only []); (repeat' split) <;> simp
@[simp] theorem State.hostSend_pending (f : Nat) (o : Output) : (s.hostSend f o).pending = s.pending := by
  unfold State.hostSend; (try simp only []); (repeat' split) <;> simp
@[simp] theorem State.hostSend_rd (f : Nat) (o : Output) (o' : Nat) : (s.hostSend f o).rd o' = s.rd o' := by simp [State.rd]
@[simp] theorem State.hostSend_get (f : Nat) (o : Output) (f' : Fld) : (s.hostSend f o).get f' = s.get f' := by simp [State.get]
@[simp] theorem State.hostSend_byte (f : Nat) (o : Output) (a' : Nat) : (s.hostSend f o).byte a' = s.byte a' := by simp [State.byte]

/-! `State.raiseMsix` changes `pcie`, `out` only. -/

@[simp] theorem State.raiseMsix_regs (f v : Nat) : (s.raiseMsix f v).regs = s.regs := by
  unfold State.raiseMsix; (try simp only []); (repeat' split) <;> simp
@[simp] theorem State.raiseMsix_mem (f v : Nat) : (s.raiseMsix f v).mem = s.mem := by
  unfold State.raiseMsix; (try simp only []); (repeat' split) <;> simp
@[simp] theorem State.raiseMsix_poison (f v : Nat) : (s.raiseMsix f v).poison = s.poison := by
  unfold State.raiseMsix; (try simp only []); (repeat' split) <;> simp
@[simp] theorem State.raiseMsix_zeroMap (f v : Nat) : (s.raiseMsix f v).zeroMap = s.zeroMap := by
  unfold State.raiseMsix; (try simp only []); (repeat' split) <;> simp
@[simp] theorem State.raiseMsix_ddr (f v : Nat) : (s.raiseMsix f v).ddr = s.ddr := by
  unfold State.raiseMsix; (try simp only []); (repeat' split) <;> simp
@[simp] theorem State.raiseMsix_chCe (f v : Nat) : (s.raiseMsix f v).chCe = s.chCe := by
  unfold State.raiseMsix; (try simp only []); (repeat' split) <;> simp
@[simp] theorem State.raiseMsix_chTimes (f v : Nat) : (s.raiseMsix f v).chTimes = s.chTimes := by
  unfold State.raiseMsix; (try simp only []); (repeat' split) <;> simp
@[simp] theorem State.raiseMsix_chTold (f v : Nat) : (s.raiseMsix f v).chTold = s.chTold := by
  unfold State.raiseMsix; (try simp only []); (repeat' split) <;> simp
@[simp] theorem State.raiseMsix_tiles (f v : Nat) : (s.raiseMsix f v).tiles = s.tiles := by
  unfold State.raiseMsix; (try simp only []); (repeat' split) <;> simp
@[simp] theorem State.raiseMsix_prm (f v : Nat) : (s.raiseMsix f v).prm = s.prm := by
  unfold State.raiseMsix; (try simp only []); (repeat' split) <;> simp
@[simp] theorem State.raiseMsix_pav (f v : Nat) : (s.raiseMsix f v).pav = s.pav := by
  unfold State.raiseMsix; (try simp only []); (repeat' split) <;> simp
@[simp] theorem State.raiseMsix_frames (f v : Nat) : (s.raiseMsix f v).frames = s.frames := by
  unfold State.raiseMsix; (try simp only []); (repeat' split) <;> simp
@[simp] theorem State.raiseMsix_arb (f v : Nat) : (s.raiseMsix f v).arb = s.arb := by
  unfold State.raiseMsix; (try simp only []); (repeat' split) <;> simp
@[simp] theorem State.raiseMsix_passed (f v : Nat) : (s.raiseMsix f v).passed = s.passed := by
  unfold State.raiseMsix; (try simp only []); (repeat' split) <;> simp
@[simp] theorem State.raiseMsix_acm (f v : Nat) : (s.raiseMsix f v).acm = s.acm := by
  unfold State.raiseMsix; (try simp only []); (repeat' split) <;> simp
@[simp] theorem State.raiseMsix_emt (f v : Nat) : (s.raiseMsix f v).emt = s.emt := by
  unfold State.raiseMsix; (try simp only []); (repeat' split) <;> simp
@[simp] theorem State.raiseMsix_site (f v : Nat) : (s.raiseMsix f v).site = s.site := by
  unfold State.raiseMsix; (try simp only []); (repeat' split) <;> simp
@[simp] theorem State.raiseMsix_tb (f v : Nat) : (s.raiseMsix f v).tb = s.tb := by
  unfold State.raiseMsix; (try simp only []); (repeat' split) <;> simp
@[simp] theorem State.raiseMsix_clk (f v : Nat) : (s.raiseMsix f v).clk = s.clk := by
  unfold State.raiseMsix; (try simp only []); (repeat' split) <;> simp
@[simp] theorem State.raiseMsix_eth (f v : Nat) : (s.raiseMsix f v).eth = s.eth := by
  unfold State.raiseMsix; (try simp only []); (repeat' split) <;> simp
@[simp] theorem State.raiseMsix_sch (f v : Nat) : (s.raiseMsix f v).sch = s.sch := by
  unfold State.raiseMsix; (try simp only []); (repeat' split) <;> simp
@[simp] theorem State.raiseMsix_cph (f v : Nat) : (s.raiseMsix f v).cph = s.cph := by
  unfold State.raiseMsix; (try simp only []); (repeat' split) <;> simp
@[simp] theorem State.raiseMsix_te (f v : Nat) : (s.raiseMsix f v).te = s.te := by
  unfold State.raiseMsix; (try simp only []); (repeat' split) <;> simp
@[simp] theorem State.raiseMsix_nve (f v : Nat) : (s.raiseMsix f v).nve = s.nve := by
  unfold State.raiseMsix; (try simp only []); (repeat' split) <;> simp
@[simp] theorem State.raiseMsix_hif (f v : Nat) : (s.raiseMsix f v).hif = s.hif := by
  unfold State.raiseMsix; (try simp only []); (repeat' split) <;> simp
@[simp] theorem State.raiseMsix_harts (f v : Nat) : (s.raiseMsix f v).harts = s.harts := by
  unfold State.raiseMsix; (try simp only []); (repeat' split) <;> simp
@[simp] theorem State.raiseMsix_aia (f v : Nat) : (s.raiseMsix f v).aia = s.aia := by
  unfold State.raiseMsix; (try simp only []); (repeat' split) <;> simp
@[simp] theorem State.raiseMsix_cache (f v : Nat) : (s.raiseMsix f v).cache = s.cache := by
  unfold State.raiseMsix; (try simp only []); (repeat' split) <;> simp
@[simp] theorem State.raiseMsix_pwr (f v : Nat) : (s.raiseMsix f v).pwr = s.pwr := by
  unfold State.raiseMsix; (try simp only []); (repeat' split) <;> simp
@[simp] theorem State.raiseMsix_boot (f v : Nat) : (s.raiseMsix f v).boot = s.boot := by
  unfold State.raiseMsix; (try simp only []); (repeat' split) <;> simp
@[simp] theorem State.raiseMsix_wkt (f v : Nat) : (s.raiseMsix f v).wkt = s.wkt := by
  unfold State.raiseMsix; (try simp only []); (repeat' split) <;> simp
@[simp] theorem State.raiseMsix_pins (f v : Nat) : (s.raiseMsix f v).pins = s.pins := by
  unfold State.raiseMsix; (try simp only []); (repeat' split) <;> simp
@[simp] theorem State.raiseMsix_lost (f v : Nat) : (s.raiseMsix f v).lost = s.lost := by
  unfold State.raiseMsix; (try simp only []); (repeat' split) <;> simp
@[simp] theorem State.raiseMsix_free (f v : Nat) : (s.raiseMsix f v).free = s.free := by
  unfold State.raiseMsix; (try simp only []); (repeat' split) <;> simp
@[simp] theorem State.raiseMsix_pending (f v : Nat) : (s.raiseMsix f v).pending = s.pending := by
  unfold State.raiseMsix; (try simp only []); (repeat' split) <;> simp
@[simp] theorem State.raiseMsix_rd (f v : Nat) (o' : Nat) : (s.raiseMsix f v).rd o' = s.rd o' := by simp [State.rd]
@[simp] theorem State.raiseMsix_get (f v : Nat) (f' : Fld) : (s.raiseMsix f v).get f' = s.get f' := by simp [State.get]
@[simp] theorem State.raiseMsix_byte (f v : Nat) (a' : Nat) : (s.raiseMsix f v).byte a' = s.byte a' := by simp [State.byte]

/-! `State.msixRelease` changes `pcie`, `out` only. -/

@[simp] theorem State.msixRelease_regs (f v : Nat) : (s.msixRelease f v).regs = s.regs := by
  unfold State.msixRelease; (try simp only []); (repeat' split) <;> simp
@[simp] theorem State.msixRelease_mem (f v : Nat) : (s.msixRelease f v).mem = s.mem := by
  unfold State.msixRelease; (try simp only []); (repeat' split) <;> simp
@[simp] theorem State.msixRelease_poison (f v : Nat) : (s.msixRelease f v).poison = s.poison := by
  unfold State.msixRelease; (try simp only []); (repeat' split) <;> simp
@[simp] theorem State.msixRelease_zeroMap (f v : Nat) : (s.msixRelease f v).zeroMap = s.zeroMap := by
  unfold State.msixRelease; (try simp only []); (repeat' split) <;> simp
@[simp] theorem State.msixRelease_ddr (f v : Nat) : (s.msixRelease f v).ddr = s.ddr := by
  unfold State.msixRelease; (try simp only []); (repeat' split) <;> simp
@[simp] theorem State.msixRelease_chCe (f v : Nat) : (s.msixRelease f v).chCe = s.chCe := by
  unfold State.msixRelease; (try simp only []); (repeat' split) <;> simp
@[simp] theorem State.msixRelease_chTimes (f v : Nat) : (s.msixRelease f v).chTimes = s.chTimes := by
  unfold State.msixRelease; (try simp only []); (repeat' split) <;> simp
@[simp] theorem State.msixRelease_chTold (f v : Nat) : (s.msixRelease f v).chTold = s.chTold := by
  unfold State.msixRelease; (try simp only []); (repeat' split) <;> simp
@[simp] theorem State.msixRelease_tiles (f v : Nat) : (s.msixRelease f v).tiles = s.tiles := by
  unfold State.msixRelease; (try simp only []); (repeat' split) <;> simp
@[simp] theorem State.msixRelease_prm (f v : Nat) : (s.msixRelease f v).prm = s.prm := by
  unfold State.msixRelease; (try simp only []); (repeat' split) <;> simp
@[simp] theorem State.msixRelease_pav (f v : Nat) : (s.msixRelease f v).pav = s.pav := by
  unfold State.msixRelease; (try simp only []); (repeat' split) <;> simp
@[simp] theorem State.msixRelease_frames (f v : Nat) : (s.msixRelease f v).frames = s.frames := by
  unfold State.msixRelease; (try simp only []); (repeat' split) <;> simp
@[simp] theorem State.msixRelease_arb (f v : Nat) : (s.msixRelease f v).arb = s.arb := by
  unfold State.msixRelease; (try simp only []); (repeat' split) <;> simp
@[simp] theorem State.msixRelease_passed (f v : Nat) : (s.msixRelease f v).passed = s.passed := by
  unfold State.msixRelease; (try simp only []); (repeat' split) <;> simp
@[simp] theorem State.msixRelease_acm (f v : Nat) : (s.msixRelease f v).acm = s.acm := by
  unfold State.msixRelease; (try simp only []); (repeat' split) <;> simp
@[simp] theorem State.msixRelease_emt (f v : Nat) : (s.msixRelease f v).emt = s.emt := by
  unfold State.msixRelease; (try simp only []); (repeat' split) <;> simp
@[simp] theorem State.msixRelease_site (f v : Nat) : (s.msixRelease f v).site = s.site := by
  unfold State.msixRelease; (try simp only []); (repeat' split) <;> simp
@[simp] theorem State.msixRelease_tb (f v : Nat) : (s.msixRelease f v).tb = s.tb := by
  unfold State.msixRelease; (try simp only []); (repeat' split) <;> simp
@[simp] theorem State.msixRelease_clk (f v : Nat) : (s.msixRelease f v).clk = s.clk := by
  unfold State.msixRelease; (try simp only []); (repeat' split) <;> simp
@[simp] theorem State.msixRelease_eth (f v : Nat) : (s.msixRelease f v).eth = s.eth := by
  unfold State.msixRelease; (try simp only []); (repeat' split) <;> simp
@[simp] theorem State.msixRelease_sch (f v : Nat) : (s.msixRelease f v).sch = s.sch := by
  unfold State.msixRelease; (try simp only []); (repeat' split) <;> simp
@[simp] theorem State.msixRelease_cph (f v : Nat) : (s.msixRelease f v).cph = s.cph := by
  unfold State.msixRelease; (try simp only []); (repeat' split) <;> simp
@[simp] theorem State.msixRelease_te (f v : Nat) : (s.msixRelease f v).te = s.te := by
  unfold State.msixRelease; (try simp only []); (repeat' split) <;> simp
@[simp] theorem State.msixRelease_nve (f v : Nat) : (s.msixRelease f v).nve = s.nve := by
  unfold State.msixRelease; (try simp only []); (repeat' split) <;> simp
@[simp] theorem State.msixRelease_hif (f v : Nat) : (s.msixRelease f v).hif = s.hif := by
  unfold State.msixRelease; (try simp only []); (repeat' split) <;> simp
@[simp] theorem State.msixRelease_harts (f v : Nat) : (s.msixRelease f v).harts = s.harts := by
  unfold State.msixRelease; (try simp only []); (repeat' split) <;> simp
@[simp] theorem State.msixRelease_aia (f v : Nat) : (s.msixRelease f v).aia = s.aia := by
  unfold State.msixRelease; (try simp only []); (repeat' split) <;> simp
@[simp] theorem State.msixRelease_cache (f v : Nat) : (s.msixRelease f v).cache = s.cache := by
  unfold State.msixRelease; (try simp only []); (repeat' split) <;> simp
@[simp] theorem State.msixRelease_pwr (f v : Nat) : (s.msixRelease f v).pwr = s.pwr := by
  unfold State.msixRelease; (try simp only []); (repeat' split) <;> simp
@[simp] theorem State.msixRelease_boot (f v : Nat) : (s.msixRelease f v).boot = s.boot := by
  unfold State.msixRelease; (try simp only []); (repeat' split) <;> simp
@[simp] theorem State.msixRelease_wkt (f v : Nat) : (s.msixRelease f v).wkt = s.wkt := by
  unfold State.msixRelease; (try simp only []); (repeat' split) <;> simp
@[simp] theorem State.msixRelease_pins (f v : Nat) : (s.msixRelease f v).pins = s.pins := by
  unfold State.msixRelease; (try simp only []); (repeat' split) <;> simp
@[simp] theorem State.msixRelease_lost (f v : Nat) : (s.msixRelease f v).lost = s.lost := by
  unfold State.msixRelease; (try simp only []); (repeat' split) <;> simp
@[simp] theorem State.msixRelease_free (f v : Nat) : (s.msixRelease f v).free = s.free := by
  unfold State.msixRelease; (try simp only []); (repeat' split) <;> simp
@[simp] theorem State.msixRelease_pending (f v : Nat) : (s.msixRelease f v).pending = s.pending := by
  unfold State.msixRelease; (try simp only []); (repeat' split) <;> simp
@[simp] theorem State.msixRelease_rd (f v : Nat) (o' : Nat) : (s.msixRelease f v).rd o' = s.rd o' := by simp [State.rd]
@[simp] theorem State.msixRelease_get (f v : Nat) (f' : Fld) : (s.msixRelease f v).get f' = s.get f' := by simp [State.get]
@[simp] theorem State.msixRelease_byte (f v : Nat) (a' : Nat) : (s.msixRelease f v).byte a' = s.byte a' := by simp [State.byte]

/-! `State.setAplic` changes `aia` only. -/

@[simp] theorem State.setAplic_regs (d : Nat) (x : AplicDomain) : (s.setAplic d x).regs = s.regs := by
  unfold State.setAplic; (try simp only []); (repeat' split) <;> simp
@[simp] theorem State.setAplic_mem (d : Nat) (x : AplicDomain) : (s.setAplic d x).mem = s.mem := by
  unfold State.setAplic; (try simp only []); (repeat' split) <;> simp
@[simp] theorem State.setAplic_poison (d : Nat) (x : AplicDomain) : (s.setAplic d x).poison = s.poison := by
  unfold State.setAplic; (try simp only []); (repeat' split) <;> simp
@[simp] theorem State.setAplic_zeroMap (d : Nat) (x : AplicDomain) : (s.setAplic d x).zeroMap = s.zeroMap := by
  unfold State.setAplic; (try simp only []); (repeat' split) <;> simp
@[simp] theorem State.setAplic_ddr (d : Nat) (x : AplicDomain) : (s.setAplic d x).ddr = s.ddr := by
  unfold State.setAplic; (try simp only []); (repeat' split) <;> simp
@[simp] theorem State.setAplic_chCe (d : Nat) (x : AplicDomain) : (s.setAplic d x).chCe = s.chCe := by
  unfold State.setAplic; (try simp only []); (repeat' split) <;> simp
@[simp] theorem State.setAplic_chTimes (d : Nat) (x : AplicDomain) : (s.setAplic d x).chTimes = s.chTimes := by
  unfold State.setAplic; (try simp only []); (repeat' split) <;> simp
@[simp] theorem State.setAplic_chTold (d : Nat) (x : AplicDomain) : (s.setAplic d x).chTold = s.chTold := by
  unfold State.setAplic; (try simp only []); (repeat' split) <;> simp
@[simp] theorem State.setAplic_tiles (d : Nat) (x : AplicDomain) : (s.setAplic d x).tiles = s.tiles := by
  unfold State.setAplic; (try simp only []); (repeat' split) <;> simp
@[simp] theorem State.setAplic_prm (d : Nat) (x : AplicDomain) : (s.setAplic d x).prm = s.prm := by
  unfold State.setAplic; (try simp only []); (repeat' split) <;> simp
@[simp] theorem State.setAplic_pav (d : Nat) (x : AplicDomain) : (s.setAplic d x).pav = s.pav := by
  unfold State.setAplic; (try simp only []); (repeat' split) <;> simp
@[simp] theorem State.setAplic_frames (d : Nat) (x : AplicDomain) : (s.setAplic d x).frames = s.frames := by
  unfold State.setAplic; (try simp only []); (repeat' split) <;> simp
@[simp] theorem State.setAplic_arb (d : Nat) (x : AplicDomain) : (s.setAplic d x).arb = s.arb := by
  unfold State.setAplic; (try simp only []); (repeat' split) <;> simp
@[simp] theorem State.setAplic_passed (d : Nat) (x : AplicDomain) : (s.setAplic d x).passed = s.passed := by
  unfold State.setAplic; (try simp only []); (repeat' split) <;> simp
@[simp] theorem State.setAplic_acm (d : Nat) (x : AplicDomain) : (s.setAplic d x).acm = s.acm := by
  unfold State.setAplic; (try simp only []); (repeat' split) <;> simp
@[simp] theorem State.setAplic_emt (d : Nat) (x : AplicDomain) : (s.setAplic d x).emt = s.emt := by
  unfold State.setAplic; (try simp only []); (repeat' split) <;> simp
@[simp] theorem State.setAplic_site (d : Nat) (x : AplicDomain) : (s.setAplic d x).site = s.site := by
  unfold State.setAplic; (try simp only []); (repeat' split) <;> simp
@[simp] theorem State.setAplic_tb (d : Nat) (x : AplicDomain) : (s.setAplic d x).tb = s.tb := by
  unfold State.setAplic; (try simp only []); (repeat' split) <;> simp
@[simp] theorem State.setAplic_clk (d : Nat) (x : AplicDomain) : (s.setAplic d x).clk = s.clk := by
  unfold State.setAplic; (try simp only []); (repeat' split) <;> simp
@[simp] theorem State.setAplic_eth (d : Nat) (x : AplicDomain) : (s.setAplic d x).eth = s.eth := by
  unfold State.setAplic; (try simp only []); (repeat' split) <;> simp
@[simp] theorem State.setAplic_sch (d : Nat) (x : AplicDomain) : (s.setAplic d x).sch = s.sch := by
  unfold State.setAplic; (try simp only []); (repeat' split) <;> simp
@[simp] theorem State.setAplic_cph (d : Nat) (x : AplicDomain) : (s.setAplic d x).cph = s.cph := by
  unfold State.setAplic; (try simp only []); (repeat' split) <;> simp
@[simp] theorem State.setAplic_te (d : Nat) (x : AplicDomain) : (s.setAplic d x).te = s.te := by
  unfold State.setAplic; (try simp only []); (repeat' split) <;> simp
@[simp] theorem State.setAplic_nve (d : Nat) (x : AplicDomain) : (s.setAplic d x).nve = s.nve := by
  unfold State.setAplic; (try simp only []); (repeat' split) <;> simp
@[simp] theorem State.setAplic_hif (d : Nat) (x : AplicDomain) : (s.setAplic d x).hif = s.hif := by
  unfold State.setAplic; (try simp only []); (repeat' split) <;> simp
@[simp] theorem State.setAplic_pcie (d : Nat) (x : AplicDomain) : (s.setAplic d x).pcie = s.pcie := by
  unfold State.setAplic; (try simp only []); (repeat' split) <;> simp
@[simp] theorem State.setAplic_harts (d : Nat) (x : AplicDomain) : (s.setAplic d x).harts = s.harts := by
  unfold State.setAplic; (try simp only []); (repeat' split) <;> simp
@[simp] theorem State.setAplic_cache (d : Nat) (x : AplicDomain) : (s.setAplic d x).cache = s.cache := by
  unfold State.setAplic; (try simp only []); (repeat' split) <;> simp
@[simp] theorem State.setAplic_pwr (d : Nat) (x : AplicDomain) : (s.setAplic d x).pwr = s.pwr := by
  unfold State.setAplic; (try simp only []); (repeat' split) <;> simp
@[simp] theorem State.setAplic_boot (d : Nat) (x : AplicDomain) : (s.setAplic d x).boot = s.boot := by
  unfold State.setAplic; (try simp only []); (repeat' split) <;> simp
@[simp] theorem State.setAplic_wkt (d : Nat) (x : AplicDomain) : (s.setAplic d x).wkt = s.wkt := by
  unfold State.setAplic; (try simp only []); (repeat' split) <;> simp
@[simp] theorem State.setAplic_pins (d : Nat) (x : AplicDomain) : (s.setAplic d x).pins = s.pins := by
  unfold State.setAplic; (try simp only []); (repeat' split) <;> simp
@[simp] theorem State.setAplic_lost (d : Nat) (x : AplicDomain) : (s.setAplic d x).lost = s.lost := by
  unfold State.setAplic; (try simp only []); (repeat' split) <;> simp
@[simp] theorem State.setAplic_out (d : Nat) (x : AplicDomain) : (s.setAplic d x).out = s.out := by
  unfold State.setAplic; (try simp only []); (repeat' split) <;> simp
@[simp] theorem State.setAplic_free (d : Nat) (x : AplicDomain) : (s.setAplic d x).free = s.free := by
  unfold State.setAplic; (try simp only []); (repeat' split) <;> simp
@[simp] theorem State.setAplic_pending (d : Nat) (x : AplicDomain) : (s.setAplic d x).pending = s.pending := by
  unfold State.setAplic; (try simp only []); (repeat' split) <;> simp
@[simp] theorem State.setAplic_rd (d : Nat) (x : AplicDomain) (o' : Nat) : (s.setAplic d x).rd o' = s.rd o' := by simp [State.rd]
@[simp] theorem State.setAplic_get (d : Nat) (x : AplicDomain) (f' : Fld) : (s.setAplic d x).get f' = s.get f' := by simp [State.get]
@[simp] theorem State.setAplic_byte (d : Nat) (x : AplicDomain) (a' : Nat) : (s.setAplic d x).byte a' = s.byte a' := by simp [State.byte]

/-! `State.aplicSource` changes `out`, `aia` only. -/

@[simp] theorem State.aplicSource_regs (i : Nat) : (s.aplicSource i).regs = s.regs := by
  unfold State.aplicSource; (try simp only []); (repeat' split) <;> simp
@[simp] theorem State.aplicSource_mem (i : Nat) : (s.aplicSource i).mem = s.mem := by
  unfold State.aplicSource; (try simp only []); (repeat' split) <;> simp
@[simp] theorem State.aplicSource_poison (i : Nat) : (s.aplicSource i).poison = s.poison := by
  unfold State.aplicSource; (try simp only []); (repeat' split) <;> simp
@[simp] theorem State.aplicSource_zeroMap (i : Nat) : (s.aplicSource i).zeroMap = s.zeroMap := by
  unfold State.aplicSource; (try simp only []); (repeat' split) <;> simp
@[simp] theorem State.aplicSource_ddr (i : Nat) : (s.aplicSource i).ddr = s.ddr := by
  unfold State.aplicSource; (try simp only []); (repeat' split) <;> simp
@[simp] theorem State.aplicSource_chCe (i : Nat) : (s.aplicSource i).chCe = s.chCe := by
  unfold State.aplicSource; (try simp only []); (repeat' split) <;> simp
@[simp] theorem State.aplicSource_chTimes (i : Nat) : (s.aplicSource i).chTimes = s.chTimes := by
  unfold State.aplicSource; (try simp only []); (repeat' split) <;> simp
@[simp] theorem State.aplicSource_chTold (i : Nat) : (s.aplicSource i).chTold = s.chTold := by
  unfold State.aplicSource; (try simp only []); (repeat' split) <;> simp
@[simp] theorem State.aplicSource_tiles (i : Nat) : (s.aplicSource i).tiles = s.tiles := by
  unfold State.aplicSource; (try simp only []); (repeat' split) <;> simp
@[simp] theorem State.aplicSource_prm (i : Nat) : (s.aplicSource i).prm = s.prm := by
  unfold State.aplicSource; (try simp only []); (repeat' split) <;> simp
@[simp] theorem State.aplicSource_pav (i : Nat) : (s.aplicSource i).pav = s.pav := by
  unfold State.aplicSource; (try simp only []); (repeat' split) <;> simp
@[simp] theorem State.aplicSource_frames (i : Nat) : (s.aplicSource i).frames = s.frames := by
  unfold State.aplicSource; (try simp only []); (repeat' split) <;> simp
@[simp] theorem State.aplicSource_arb (i : Nat) : (s.aplicSource i).arb = s.arb := by
  unfold State.aplicSource; (try simp only []); (repeat' split) <;> simp
@[simp] theorem State.aplicSource_passed (i : Nat) : (s.aplicSource i).passed = s.passed := by
  unfold State.aplicSource; (try simp only []); (repeat' split) <;> simp
@[simp] theorem State.aplicSource_acm (i : Nat) : (s.aplicSource i).acm = s.acm := by
  unfold State.aplicSource; (try simp only []); (repeat' split) <;> simp
@[simp] theorem State.aplicSource_emt (i : Nat) : (s.aplicSource i).emt = s.emt := by
  unfold State.aplicSource; (try simp only []); (repeat' split) <;> simp
@[simp] theorem State.aplicSource_site (i : Nat) : (s.aplicSource i).site = s.site := by
  unfold State.aplicSource; (try simp only []); (repeat' split) <;> simp
@[simp] theorem State.aplicSource_tb (i : Nat) : (s.aplicSource i).tb = s.tb := by
  unfold State.aplicSource; (try simp only []); (repeat' split) <;> simp
@[simp] theorem State.aplicSource_clk (i : Nat) : (s.aplicSource i).clk = s.clk := by
  unfold State.aplicSource; (try simp only []); (repeat' split) <;> simp
@[simp] theorem State.aplicSource_eth (i : Nat) : (s.aplicSource i).eth = s.eth := by
  unfold State.aplicSource; (try simp only []); (repeat' split) <;> simp
@[simp] theorem State.aplicSource_sch (i : Nat) : (s.aplicSource i).sch = s.sch := by
  unfold State.aplicSource; (try simp only []); (repeat' split) <;> simp
@[simp] theorem State.aplicSource_cph (i : Nat) : (s.aplicSource i).cph = s.cph := by
  unfold State.aplicSource; (try simp only []); (repeat' split) <;> simp
@[simp] theorem State.aplicSource_te (i : Nat) : (s.aplicSource i).te = s.te := by
  unfold State.aplicSource; (try simp only []); (repeat' split) <;> simp
@[simp] theorem State.aplicSource_nve (i : Nat) : (s.aplicSource i).nve = s.nve := by
  unfold State.aplicSource; (try simp only []); (repeat' split) <;> simp
@[simp] theorem State.aplicSource_hif (i : Nat) : (s.aplicSource i).hif = s.hif := by
  unfold State.aplicSource; (try simp only []); (repeat' split) <;> simp
@[simp] theorem State.aplicSource_pcie (i : Nat) : (s.aplicSource i).pcie = s.pcie := by
  unfold State.aplicSource; (try simp only []); (repeat' split) <;> simp
@[simp] theorem State.aplicSource_harts (i : Nat) : (s.aplicSource i).harts = s.harts := by
  unfold State.aplicSource; (try simp only []); (repeat' split) <;> simp
@[simp] theorem State.aplicSource_cache (i : Nat) : (s.aplicSource i).cache = s.cache := by
  unfold State.aplicSource; (try simp only []); (repeat' split) <;> simp
@[simp] theorem State.aplicSource_pwr (i : Nat) : (s.aplicSource i).pwr = s.pwr := by
  unfold State.aplicSource; (try simp only []); (repeat' split) <;> simp
@[simp] theorem State.aplicSource_boot (i : Nat) : (s.aplicSource i).boot = s.boot := by
  unfold State.aplicSource; (try simp only []); (repeat' split) <;> simp
@[simp] theorem State.aplicSource_wkt (i : Nat) : (s.aplicSource i).wkt = s.wkt := by
  unfold State.aplicSource; (try simp only []); (repeat' split) <;> simp
@[simp] theorem State.aplicSource_pins (i : Nat) : (s.aplicSource i).pins = s.pins := by
  unfold State.aplicSource; (try simp only []); (repeat' split) <;> simp
@[simp] theorem State.aplicSource_lost (i : Nat) : (s.aplicSource i).lost = s.lost := by
  unfold State.aplicSource; (try simp only []); (repeat' split) <;> simp
@[simp] theorem State.aplicSource_free (i : Nat) : (s.aplicSource i).free = s.free := by
  unfold State.aplicSource; (try simp only []); (repeat' split) <;> simp
@[simp] theorem State.aplicSource_pending (i : Nat) : (s.aplicSource i).pending = s.pending := by
  unfold State.aplicSource; (try simp only []); (repeat' split) <;> simp
@[simp] theorem State.aplicSource_rd (i : Nat) (o' : Nat) : (s.aplicSource i).rd o' = s.rd o' := by simp [State.rd]
@[simp] theorem State.aplicSource_get (i : Nat) (f' : Fld) : (s.aplicSource i).get f' = s.get f' := by simp [State.get]
@[simp] theorem State.aplicSource_byte (i : Nat) (a' : Nat) : (s.aplicSource i).byte a' = s.byte a' := by simp [State.byte]

/-! `State.fltRefresh` changes `regs`, `pcie`, `out`, `aia` only. -/

@[simp] theorem State.fltRefresh_mem (u : Nat) : (s.fltRefresh u).mem = s.mem := by
  unfold State.fltRefresh; (try simp only []); (repeat' split) <;> simp
@[simp] theorem State.fltRefresh_poison (u : Nat) : (s.fltRefresh u).poison = s.poison := by
  unfold State.fltRefresh; (try simp only []); (repeat' split) <;> simp
@[simp] theorem State.fltRefresh_zeroMap (u : Nat) : (s.fltRefresh u).zeroMap = s.zeroMap := by
  unfold State.fltRefresh; (try simp only []); (repeat' split) <;> simp
@[simp] theorem State.fltRefresh_ddr (u : Nat) : (s.fltRefresh u).ddr = s.ddr := by
  unfold State.fltRefresh; (try simp only []); (repeat' split) <;> simp
@[simp] theorem State.fltRefresh_chCe (u : Nat) : (s.fltRefresh u).chCe = s.chCe := by
  unfold State.fltRefresh; (try simp only []); (repeat' split) <;> simp
@[simp] theorem State.fltRefresh_chTimes (u : Nat) : (s.fltRefresh u).chTimes = s.chTimes := by
  unfold State.fltRefresh; (try simp only []); (repeat' split) <;> simp
@[simp] theorem State.fltRefresh_chTold (u : Nat) : (s.fltRefresh u).chTold = s.chTold := by
  unfold State.fltRefresh; (try simp only []); (repeat' split) <;> simp
@[simp] theorem State.fltRefresh_tiles (u : Nat) : (s.fltRefresh u).tiles = s.tiles := by
  unfold State.fltRefresh; (try simp only []); (repeat' split) <;> simp
@[simp] theorem State.fltRefresh_prm (u : Nat) : (s.fltRefresh u).prm = s.prm := by
  unfold State.fltRefresh; (try simp only []); (repeat' split) <;> simp
@[simp] theorem State.fltRefresh_pav (u : Nat) : (s.fltRefresh u).pav = s.pav := by
  unfold State.fltRefresh; (try simp only []); (repeat' split) <;> simp
@[simp] theorem State.fltRefresh_frames (u : Nat) : (s.fltRefresh u).frames = s.frames := by
  unfold State.fltRefresh; (try simp only []); (repeat' split) <;> simp
@[simp] theorem State.fltRefresh_arb (u : Nat) : (s.fltRefresh u).arb = s.arb := by
  unfold State.fltRefresh; (try simp only []); (repeat' split) <;> simp
@[simp] theorem State.fltRefresh_passed (u : Nat) : (s.fltRefresh u).passed = s.passed := by
  unfold State.fltRefresh; (try simp only []); (repeat' split) <;> simp
@[simp] theorem State.fltRefresh_acm (u : Nat) : (s.fltRefresh u).acm = s.acm := by
  unfold State.fltRefresh; (try simp only []); (repeat' split) <;> simp
@[simp] theorem State.fltRefresh_emt (u : Nat) : (s.fltRefresh u).emt = s.emt := by
  unfold State.fltRefresh; (try simp only []); (repeat' split) <;> simp
@[simp] theorem State.fltRefresh_site (u : Nat) : (s.fltRefresh u).site = s.site := by
  unfold State.fltRefresh; (try simp only []); (repeat' split) <;> simp
@[simp] theorem State.fltRefresh_tb (u : Nat) : (s.fltRefresh u).tb = s.tb := by
  unfold State.fltRefresh; (try simp only []); (repeat' split) <;> simp
@[simp] theorem State.fltRefresh_clk (u : Nat) : (s.fltRefresh u).clk = s.clk := by
  unfold State.fltRefresh; (try simp only []); (repeat' split) <;> simp
@[simp] theorem State.fltRefresh_eth (u : Nat) : (s.fltRefresh u).eth = s.eth := by
  unfold State.fltRefresh; (try simp only []); (repeat' split) <;> simp
@[simp] theorem State.fltRefresh_sch (u : Nat) : (s.fltRefresh u).sch = s.sch := by
  unfold State.fltRefresh; (try simp only []); (repeat' split) <;> simp
@[simp] theorem State.fltRefresh_cph (u : Nat) : (s.fltRefresh u).cph = s.cph := by
  unfold State.fltRefresh; (try simp only []); (repeat' split) <;> simp
@[simp] theorem State.fltRefresh_te (u : Nat) : (s.fltRefresh u).te = s.te := by
  unfold State.fltRefresh; (try simp only []); (repeat' split) <;> simp
@[simp] theorem State.fltRefresh_nve (u : Nat) : (s.fltRefresh u).nve = s.nve := by
  unfold State.fltRefresh; (try simp only []); (repeat' split) <;> simp
@[simp] theorem State.fltRefresh_hif (u : Nat) : (s.fltRefresh u).hif = s.hif := by
  unfold State.fltRefresh; (try simp only []); (repeat' split) <;> simp
@[simp] theorem State.fltRefresh_harts (u : Nat) : (s.fltRefresh u).harts = s.harts := by
  unfold State.fltRefresh; (try simp only []); (repeat' split) <;> simp
@[simp] theorem State.fltRefresh_cache (u : Nat) : (s.fltRefresh u).cache = s.cache := by
  unfold State.fltRefresh; (try simp only []); (repeat' split) <;> simp
@[simp] theorem State.fltRefresh_pwr (u : Nat) : (s.fltRefresh u).pwr = s.pwr := by
  unfold State.fltRefresh; (try simp only []); (repeat' split) <;> simp
@[simp] theorem State.fltRefresh_boot (u : Nat) : (s.fltRefresh u).boot = s.boot := by
  unfold State.fltRefresh; (try simp only []); (repeat' split) <;> simp
@[simp] theorem State.fltRefresh_wkt (u : Nat) : (s.fltRefresh u).wkt = s.wkt := by
  unfold State.fltRefresh; (try simp only []); (repeat' split) <;> simp
@[simp] theorem State.fltRefresh_pins (u : Nat) : (s.fltRefresh u).pins = s.pins := by
  unfold State.fltRefresh; (try simp only []); (repeat' split) <;> simp
@[simp] theorem State.fltRefresh_lost (u : Nat) : (s.fltRefresh u).lost = s.lost := by
  unfold State.fltRefresh; (try simp only []); (repeat' split) <;> simp
@[simp] theorem State.fltRefresh_free (u : Nat) : (s.fltRefresh u).free = s.free := by
  unfold State.fltRefresh; (try simp only []); (repeat' split) <;> simp
@[simp] theorem State.fltRefresh_pending (u : Nat) : (s.fltRefresh u).pending = s.pending := by
  unfold State.fltRefresh; (try simp only []); (repeat' split) <;> simp
@[simp] theorem State.fltRefresh_byte (u : Nat) (a' : Nat) : (s.fltRefresh u).byte a' = s.byte a' := by simp [State.byte]

/-! `State.capture` changes `regs` only. -/

@[simp] theorem State.capture_mem (u c e : Nat) : (s.capture u c e).mem = s.mem := by
  unfold State.capture; (try simp only []); (repeat' split) <;> simp
@[simp] theorem State.capture_poison (u c e : Nat) : (s.capture u c e).poison = s.poison := by
  unfold State.capture; (try simp only []); (repeat' split) <;> simp
@[simp] theorem State.capture_zeroMap (u c e : Nat) : (s.capture u c e).zeroMap = s.zeroMap := by
  unfold State.capture; (try simp only []); (repeat' split) <;> simp
@[simp] theorem State.capture_ddr (u c e : Nat) : (s.capture u c e).ddr = s.ddr := by
  unfold State.capture; (try simp only []); (repeat' split) <;> simp
@[simp] theorem State.capture_chCe (u c e : Nat) : (s.capture u c e).chCe = s.chCe := by
  unfold State.capture; (try simp only []); (repeat' split) <;> simp
@[simp] theorem State.capture_chTimes (u c e : Nat) : (s.capture u c e).chTimes = s.chTimes := by
  unfold State.capture; (try simp only []); (repeat' split) <;> simp
@[simp] theorem State.capture_chTold (u c e : Nat) : (s.capture u c e).chTold = s.chTold := by
  unfold State.capture; (try simp only []); (repeat' split) <;> simp
@[simp] theorem State.capture_tiles (u c e : Nat) : (s.capture u c e).tiles = s.tiles := by
  unfold State.capture; (try simp only []); (repeat' split) <;> simp
@[simp] theorem State.capture_prm (u c e : Nat) : (s.capture u c e).prm = s.prm := by
  unfold State.capture; (try simp only []); (repeat' split) <;> simp
@[simp] theorem State.capture_pav (u c e : Nat) : (s.capture u c e).pav = s.pav := by
  unfold State.capture; (try simp only []); (repeat' split) <;> simp
@[simp] theorem State.capture_frames (u c e : Nat) : (s.capture u c e).frames = s.frames := by
  unfold State.capture; (try simp only []); (repeat' split) <;> simp
@[simp] theorem State.capture_arb (u c e : Nat) : (s.capture u c e).arb = s.arb := by
  unfold State.capture; (try simp only []); (repeat' split) <;> simp
@[simp] theorem State.capture_passed (u c e : Nat) : (s.capture u c e).passed = s.passed := by
  unfold State.capture; (try simp only []); (repeat' split) <;> simp
@[simp] theorem State.capture_acm (u c e : Nat) : (s.capture u c e).acm = s.acm := by
  unfold State.capture; (try simp only []); (repeat' split) <;> simp
@[simp] theorem State.capture_emt (u c e : Nat) : (s.capture u c e).emt = s.emt := by
  unfold State.capture; (try simp only []); (repeat' split) <;> simp
@[simp] theorem State.capture_site (u c e : Nat) : (s.capture u c e).site = s.site := by
  unfold State.capture; (try simp only []); (repeat' split) <;> simp
@[simp] theorem State.capture_tb (u c e : Nat) : (s.capture u c e).tb = s.tb := by
  unfold State.capture; (try simp only []); (repeat' split) <;> simp
@[simp] theorem State.capture_clk (u c e : Nat) : (s.capture u c e).clk = s.clk := by
  unfold State.capture; (try simp only []); (repeat' split) <;> simp
@[simp] theorem State.capture_eth (u c e : Nat) : (s.capture u c e).eth = s.eth := by
  unfold State.capture; (try simp only []); (repeat' split) <;> simp
@[simp] theorem State.capture_sch (u c e : Nat) : (s.capture u c e).sch = s.sch := by
  unfold State.capture; (try simp only []); (repeat' split) <;> simp
@[simp] theorem State.capture_cph (u c e : Nat) : (s.capture u c e).cph = s.cph := by
  unfold State.capture; (try simp only []); (repeat' split) <;> simp
@[simp] theorem State.capture_te (u c e : Nat) : (s.capture u c e).te = s.te := by
  unfold State.capture; (try simp only []); (repeat' split) <;> simp
@[simp] theorem State.capture_nve (u c e : Nat) : (s.capture u c e).nve = s.nve := by
  unfold State.capture; (try simp only []); (repeat' split) <;> simp
@[simp] theorem State.capture_hif (u c e : Nat) : (s.capture u c e).hif = s.hif := by
  unfold State.capture; (try simp only []); (repeat' split) <;> simp
@[simp] theorem State.capture_pcie (u c e : Nat) : (s.capture u c e).pcie = s.pcie := by
  unfold State.capture; (try simp only []); (repeat' split) <;> simp
@[simp] theorem State.capture_harts (u c e : Nat) : (s.capture u c e).harts = s.harts := by
  unfold State.capture; (try simp only []); (repeat' split) <;> simp
@[simp] theorem State.capture_aia (u c e : Nat) : (s.capture u c e).aia = s.aia := by
  unfold State.capture; (try simp only []); (repeat' split) <;> simp
@[simp] theorem State.capture_cache (u c e : Nat) : (s.capture u c e).cache = s.cache := by
  unfold State.capture; (try simp only []); (repeat' split) <;> simp
@[simp] theorem State.capture_pwr (u c e : Nat) : (s.capture u c e).pwr = s.pwr := by
  unfold State.capture; (try simp only []); (repeat' split) <;> simp
@[simp] theorem State.capture_boot (u c e : Nat) : (s.capture u c e).boot = s.boot := by
  unfold State.capture; (try simp only []); (repeat' split) <;> simp
@[simp] theorem State.capture_wkt (u c e : Nat) : (s.capture u c e).wkt = s.wkt := by
  unfold State.capture; (try simp only []); (repeat' split) <;> simp
@[simp] theorem State.capture_pins (u c e : Nat) : (s.capture u c e).pins = s.pins := by
  unfold State.capture; (try simp only []); (repeat' split) <;> simp
@[simp] theorem State.capture_lost (u c e : Nat) : (s.capture u c e).lost = s.lost := by
  unfold State.capture; (try simp only []); (repeat' split) <;> simp
@[simp] theorem State.capture_out (u c e : Nat) : (s.capture u c e).out = s.out := by
  unfold State.capture; (try simp only []); (repeat' split) <;> simp
@[simp] theorem State.capture_free (u c e : Nat) : (s.capture u c e).free = s.free := by
  unfold State.capture; (try simp only []); (repeat' split) <;> simp
@[simp] theorem State.capture_pending (u c e : Nat) : (s.capture u c e).pending = s.pending := by
  unfold State.capture; (try simp only []); (repeat' split) <;> simp
@[simp] theorem State.capture_byte (u c e : Nat) (a' : Nat) : (s.capture u c e).byte a' = s.byte a' := by simp [State.byte]

/-! `State.setStatus` changes `regs`, `pcie`, `out`, `aia` only. -/

@[simp] theorem State.setStatus_mem (u b : Nat) : (s.setStatus u b).mem = s.mem := by
  unfold State.setStatus; (try simp only []); (repeat' split) <;> simp
@[simp] theorem State.setStatus_poison (u b : Nat) : (s.setStatus u b).poison = s.poison := by
  unfold State.setStatus; (try simp only []); (repeat' split) <;> simp
@[simp] theorem State.setStatus_zeroMap (u b : Nat) : (s.setStatus u b).zeroMap = s.zeroMap := by
  unfold State.setStatus; (try simp only []); (repeat' split) <;> simp
@[simp] theorem State.setStatus_ddr (u b : Nat) : (s.setStatus u b).ddr = s.ddr := by
  unfold State.setStatus; (try simp only []); (repeat' split) <;> simp
@[simp] theorem State.setStatus_chCe (u b : Nat) : (s.setStatus u b).chCe = s.chCe := by
  unfold State.setStatus; (try simp only []); (repeat' split) <;> simp
@[simp] theorem State.setStatus_chTimes (u b : Nat) : (s.setStatus u b).chTimes = s.chTimes := by
  unfold State.setStatus; (try simp only []); (repeat' split) <;> simp
@[simp] theorem State.setStatus_chTold (u b : Nat) : (s.setStatus u b).chTold = s.chTold := by
  unfold State.setStatus; (try simp only []); (repeat' split) <;> simp
@[simp] theorem State.setStatus_tiles (u b : Nat) : (s.setStatus u b).tiles = s.tiles := by
  unfold State.setStatus; (try simp only []); (repeat' split) <;> simp
@[simp] theorem State.setStatus_prm (u b : Nat) : (s.setStatus u b).prm = s.prm := by
  unfold State.setStatus; (try simp only []); (repeat' split) <;> simp
@[simp] theorem State.setStatus_pav (u b : Nat) : (s.setStatus u b).pav = s.pav := by
  unfold State.setStatus; (try simp only []); (repeat' split) <;> simp
@[simp] theorem State.setStatus_frames (u b : Nat) : (s.setStatus u b).frames = s.frames := by
  unfold State.setStatus; (try simp only []); (repeat' split) <;> simp
@[simp] theorem State.setStatus_arb (u b : Nat) : (s.setStatus u b).arb = s.arb := by
  unfold State.setStatus; (try simp only []); (repeat' split) <;> simp
@[simp] theorem State.setStatus_passed (u b : Nat) : (s.setStatus u b).passed = s.passed := by
  unfold State.setStatus; (try simp only []); (repeat' split) <;> simp
@[simp] theorem State.setStatus_acm (u b : Nat) : (s.setStatus u b).acm = s.acm := by
  unfold State.setStatus; (try simp only []); (repeat' split) <;> simp
@[simp] theorem State.setStatus_emt (u b : Nat) : (s.setStatus u b).emt = s.emt := by
  unfold State.setStatus; (try simp only []); (repeat' split) <;> simp
@[simp] theorem State.setStatus_site (u b : Nat) : (s.setStatus u b).site = s.site := by
  unfold State.setStatus; (try simp only []); (repeat' split) <;> simp
@[simp] theorem State.setStatus_tb (u b : Nat) : (s.setStatus u b).tb = s.tb := by
  unfold State.setStatus; (try simp only []); (repeat' split) <;> simp
@[simp] theorem State.setStatus_clk (u b : Nat) : (s.setStatus u b).clk = s.clk := by
  unfold State.setStatus; (try simp only []); (repeat' split) <;> simp
@[simp] theorem State.setStatus_eth (u b : Nat) : (s.setStatus u b).eth = s.eth := by
  unfold State.setStatus; (try simp only []); (repeat' split) <;> simp
@[simp] theorem State.setStatus_sch (u b : Nat) : (s.setStatus u b).sch = s.sch := by
  unfold State.setStatus; (try simp only []); (repeat' split) <;> simp
@[simp] theorem State.setStatus_cph (u b : Nat) : (s.setStatus u b).cph = s.cph := by
  unfold State.setStatus; (try simp only []); (repeat' split) <;> simp
@[simp] theorem State.setStatus_te (u b : Nat) : (s.setStatus u b).te = s.te := by
  unfold State.setStatus; (try simp only []); (repeat' split) <;> simp
@[simp] theorem State.setStatus_nve (u b : Nat) : (s.setStatus u b).nve = s.nve := by
  unfold State.setStatus; (try simp only []); (repeat' split) <;> simp
@[simp] theorem State.setStatus_hif (u b : Nat) : (s.setStatus u b).hif = s.hif := by
  unfold State.setStatus; (try simp only []); (repeat' split) <;> simp
@[simp] theorem State.setStatus_harts (u b : Nat) : (s.setStatus u b).harts = s.harts := by
  unfold State.setStatus; (try simp only []); (repeat' split) <;> simp
@[simp] theorem State.setStatus_cache (u b : Nat) : (s.setStatus u b).cache = s.cache := by
  unfold State.setStatus; (try simp only []); (repeat' split) <;> simp
@[simp] theorem State.setStatus_pwr (u b : Nat) : (s.setStatus u b).pwr = s.pwr := by
  unfold State.setStatus; (try simp only []); (repeat' split) <;> simp
@[simp] theorem State.setStatus_boot (u b : Nat) : (s.setStatus u b).boot = s.boot := by
  unfold State.setStatus; (try simp only []); (repeat' split) <;> simp
@[simp] theorem State.setStatus_wkt (u b : Nat) : (s.setStatus u b).wkt = s.wkt := by
  unfold State.setStatus; (try simp only []); (repeat' split) <;> simp
@[simp] theorem State.setStatus_pins (u b : Nat) : (s.setStatus u b).pins = s.pins := by
  unfold State.setStatus; (try simp only []); (repeat' split) <;> simp
@[simp] theorem State.setStatus_lost (u b : Nat) : (s.setStatus u b).lost = s.lost := by
  unfold State.setStatus; (try simp only []); (repeat' split) <;> simp
@[simp] theorem State.setStatus_free (u b : Nat) : (s.setStatus u b).free = s.free := by
  unfold State.setStatus; (try simp only []); (repeat' split) <;> simp
@[simp] theorem State.setStatus_pending (u b : Nat) : (s.setStatus u b).pending = s.pending := by
  unfold State.setStatus; (try simp only []); (repeat' split) <;> simp
@[simp] theorem State.setStatus_byte (u b : Nat) (a' : Nat) : (s.setStatus u b).byte a' = s.byte a' := by simp [State.byte]

/-! `State.fault` changes `regs`, `pcie`, `out`, `aia` only. -/

@[simp] theorem State.fault_mem (u c b e : Nat) : (s.fault u c b e).mem = s.mem := by
  unfold State.fault; (try simp only []); (repeat' split) <;> simp
@[simp] theorem State.fault_poison (u c b e : Nat) : (s.fault u c b e).poison = s.poison := by
  unfold State.fault; (try simp only []); (repeat' split) <;> simp
@[simp] theorem State.fault_zeroMap (u c b e : Nat) : (s.fault u c b e).zeroMap = s.zeroMap := by
  unfold State.fault; (try simp only []); (repeat' split) <;> simp
@[simp] theorem State.fault_ddr (u c b e : Nat) : (s.fault u c b e).ddr = s.ddr := by
  unfold State.fault; (try simp only []); (repeat' split) <;> simp
@[simp] theorem State.fault_chCe (u c b e : Nat) : (s.fault u c b e).chCe = s.chCe := by
  unfold State.fault; (try simp only []); (repeat' split) <;> simp
@[simp] theorem State.fault_chTimes (u c b e : Nat) : (s.fault u c b e).chTimes = s.chTimes := by
  unfold State.fault; (try simp only []); (repeat' split) <;> simp
@[simp] theorem State.fault_chTold (u c b e : Nat) : (s.fault u c b e).chTold = s.chTold := by
  unfold State.fault; (try simp only []); (repeat' split) <;> simp
@[simp] theorem State.fault_tiles (u c b e : Nat) : (s.fault u c b e).tiles = s.tiles := by
  unfold State.fault; (try simp only []); (repeat' split) <;> simp
@[simp] theorem State.fault_prm (u c b e : Nat) : (s.fault u c b e).prm = s.prm := by
  unfold State.fault; (try simp only []); (repeat' split) <;> simp
@[simp] theorem State.fault_pav (u c b e : Nat) : (s.fault u c b e).pav = s.pav := by
  unfold State.fault; (try simp only []); (repeat' split) <;> simp
@[simp] theorem State.fault_frames (u c b e : Nat) : (s.fault u c b e).frames = s.frames := by
  unfold State.fault; (try simp only []); (repeat' split) <;> simp
@[simp] theorem State.fault_arb (u c b e : Nat) : (s.fault u c b e).arb = s.arb := by
  unfold State.fault; (try simp only []); (repeat' split) <;> simp
@[simp] theorem State.fault_passed (u c b e : Nat) : (s.fault u c b e).passed = s.passed := by
  unfold State.fault; (try simp only []); (repeat' split) <;> simp
@[simp] theorem State.fault_acm (u c b e : Nat) : (s.fault u c b e).acm = s.acm := by
  unfold State.fault; (try simp only []); (repeat' split) <;> simp
@[simp] theorem State.fault_emt (u c b e : Nat) : (s.fault u c b e).emt = s.emt := by
  unfold State.fault; (try simp only []); (repeat' split) <;> simp
@[simp] theorem State.fault_site (u c b e : Nat) : (s.fault u c b e).site = s.site := by
  unfold State.fault; (try simp only []); (repeat' split) <;> simp
@[simp] theorem State.fault_tb (u c b e : Nat) : (s.fault u c b e).tb = s.tb := by
  unfold State.fault; (try simp only []); (repeat' split) <;> simp
@[simp] theorem State.fault_clk (u c b e : Nat) : (s.fault u c b e).clk = s.clk := by
  unfold State.fault; (try simp only []); (repeat' split) <;> simp
@[simp] theorem State.fault_eth (u c b e : Nat) : (s.fault u c b e).eth = s.eth := by
  unfold State.fault; (try simp only []); (repeat' split) <;> simp
@[simp] theorem State.fault_sch (u c b e : Nat) : (s.fault u c b e).sch = s.sch := by
  unfold State.fault; (try simp only []); (repeat' split) <;> simp
@[simp] theorem State.fault_cph (u c b e : Nat) : (s.fault u c b e).cph = s.cph := by
  unfold State.fault; (try simp only []); (repeat' split) <;> simp
@[simp] theorem State.fault_te (u c b e : Nat) : (s.fault u c b e).te = s.te := by
  unfold State.fault; (try simp only []); (repeat' split) <;> simp
@[simp] theorem State.fault_nve (u c b e : Nat) : (s.fault u c b e).nve = s.nve := by
  unfold State.fault; (try simp only []); (repeat' split) <;> simp
@[simp] theorem State.fault_hif (u c b e : Nat) : (s.fault u c b e).hif = s.hif := by
  unfold State.fault; (try simp only []); (repeat' split) <;> simp
@[simp] theorem State.fault_harts (u c b e : Nat) : (s.fault u c b e).harts = s.harts := by
  unfold State.fault; (try simp only []); (repeat' split) <;> simp
@[simp] theorem State.fault_cache (u c b e : Nat) : (s.fault u c b e).cache = s.cache := by
  unfold State.fault; (try simp only []); (repeat' split) <;> simp
@[simp] theorem State.fault_pwr (u c b e : Nat) : (s.fault u c b e).pwr = s.pwr := by
  unfold State.fault; (try simp only []); (repeat' split) <;> simp
@[simp] theorem State.fault_boot (u c b e : Nat) : (s.fault u c b e).boot = s.boot := by
  unfold State.fault; (try simp only []); (repeat' split) <;> simp
@[simp] theorem State.fault_wkt (u c b e : Nat) : (s.fault u c b e).wkt = s.wkt := by
  unfold State.fault; (try simp only []); (repeat' split) <;> simp
@[simp] theorem State.fault_pins (u c b e : Nat) : (s.fault u c b e).pins = s.pins := by
  unfold State.fault; (try simp only []); (repeat' split) <;> simp
@[simp] theorem State.fault_lost (u c b e : Nat) : (s.fault u c b e).lost = s.lost := by
  unfold State.fault; (try simp only []); (repeat' split) <;> simp
@[simp] theorem State.fault_free (u c b e : Nat) : (s.fault u c b e).free = s.free := by
  unfold State.fault; (try simp only []); (repeat' split) <;> simp
@[simp] theorem State.fault_pending (u c b e : Nat) : (s.fault u c b e).pending = s.pending := by
  unfold State.fault; (try simp only []); (repeat' split) <;> simp
@[simp] theorem State.fault_byte (u c b e : Nat) (a' : Nat) : (s.fault u c b e).byte a' = s.byte a' := by simp [State.byte]

/-! `State.common` changes `regs` only. -/

@[simp] theorem State.common_mem (u c : Nat) : (s.common u c).mem = s.mem := by
  unfold State.common; (try simp only []); (repeat' split) <;> simp
@[simp] theorem State.common_poison (u c : Nat) : (s.common u c).poison = s.poison := by
  unfold State.common; (try simp only []); (repeat' split) <;> simp
@[simp] theorem State.common_zeroMap (u c : Nat) : (s.common u c).zeroMap = s.zeroMap := by
  unfold State.common; (try simp only []); (repeat' split) <;> simp
@[simp] theorem State.common_ddr (u c : Nat) : (s.common u c).ddr = s.ddr := by
  unfold State.common; (try simp only []); (repeat' split) <;> simp
@[simp] theorem State.common_chCe (u c : Nat) : (s.common u c).chCe = s.chCe := by
  unfold State.common; (try simp only []); (repeat' split) <;> simp
@[simp] theorem State.common_chTimes (u c : Nat) : (s.common u c).chTimes = s.chTimes := by
  unfold State.common; (try simp only []); (repeat' split) <;> simp
@[simp] theorem State.common_chTold (u c : Nat) : (s.common u c).chTold = s.chTold := by
  unfold State.common; (try simp only []); (repeat' split) <;> simp
@[simp] theorem State.common_tiles (u c : Nat) : (s.common u c).tiles = s.tiles := by
  unfold State.common; (try simp only []); (repeat' split) <;> simp
@[simp] theorem State.common_prm (u c : Nat) : (s.common u c).prm = s.prm := by
  unfold State.common; (try simp only []); (repeat' split) <;> simp
@[simp] theorem State.common_pav (u c : Nat) : (s.common u c).pav = s.pav := by
  unfold State.common; (try simp only []); (repeat' split) <;> simp
@[simp] theorem State.common_frames (u c : Nat) : (s.common u c).frames = s.frames := by
  unfold State.common; (try simp only []); (repeat' split) <;> simp
@[simp] theorem State.common_arb (u c : Nat) : (s.common u c).arb = s.arb := by
  unfold State.common; (try simp only []); (repeat' split) <;> simp
@[simp] theorem State.common_passed (u c : Nat) : (s.common u c).passed = s.passed := by
  unfold State.common; (try simp only []); (repeat' split) <;> simp
@[simp] theorem State.common_acm (u c : Nat) : (s.common u c).acm = s.acm := by
  unfold State.common; (try simp only []); (repeat' split) <;> simp
@[simp] theorem State.common_emt (u c : Nat) : (s.common u c).emt = s.emt := by
  unfold State.common; (try simp only []); (repeat' split) <;> simp
@[simp] theorem State.common_site (u c : Nat) : (s.common u c).site = s.site := by
  unfold State.common; (try simp only []); (repeat' split) <;> simp
@[simp] theorem State.common_tb (u c : Nat) : (s.common u c).tb = s.tb := by
  unfold State.common; (try simp only []); (repeat' split) <;> simp
@[simp] theorem State.common_clk (u c : Nat) : (s.common u c).clk = s.clk := by
  unfold State.common; (try simp only []); (repeat' split) <;> simp
@[simp] theorem State.common_eth (u c : Nat) : (s.common u c).eth = s.eth := by
  unfold State.common; (try simp only []); (repeat' split) <;> simp
@[simp] theorem State.common_sch (u c : Nat) : (s.common u c).sch = s.sch := by
  unfold State.common; (try simp only []); (repeat' split) <;> simp
@[simp] theorem State.common_cph (u c : Nat) : (s.common u c).cph = s.cph := by
  unfold State.common; (try simp only []); (repeat' split) <;> simp
@[simp] theorem State.common_te (u c : Nat) : (s.common u c).te = s.te := by
  unfold State.common; (try simp only []); (repeat' split) <;> simp
@[simp] theorem State.common_nve (u c : Nat) : (s.common u c).nve = s.nve := by
  unfold State.common; (try simp only []); (repeat' split) <;> simp
@[simp] theorem State.common_hif (u c : Nat) : (s.common u c).hif = s.hif := by
  unfold State.common; (try simp only []); (repeat' split) <;> simp
@[simp] theorem State.common_pcie (u c : Nat) : (s.common u c).pcie = s.pcie := by
  unfold State.common; (try simp only []); (repeat' split) <;> simp
@[simp] theorem State.common_harts (u c : Nat) : (s.common u c).harts = s.harts := by
  unfold State.common; (try simp only []); (repeat' split) <;> simp
@[simp] theorem State.common_aia (u c : Nat) : (s.common u c).aia = s.aia := by
  unfold State.common; (try simp only []); (repeat' split) <;> simp
@[simp] theorem State.common_cache (u c : Nat) : (s.common u c).cache = s.cache := by
  unfold State.common; (try simp only []); (repeat' split) <;> simp
@[simp] theorem State.common_pwr (u c : Nat) : (s.common u c).pwr = s.pwr := by
  unfold State.common; (try simp only []); (repeat' split) <;> simp
@[simp] theorem State.common_boot (u c : Nat) : (s.common u c).boot = s.boot := by
  unfold State.common; (try simp only []); (repeat' split) <;> simp
@[simp] theorem State.common_wkt (u c : Nat) : (s.common u c).wkt = s.wkt := by
  unfold State.common; (try simp only []); (repeat' split) <;> simp
@[simp] theorem State.common_pins (u c : Nat) : (s.common u c).pins = s.pins := by
  unfold State.common; (try simp only []); (repeat' split) <;> simp
@[simp] theorem State.common_lost (u c : Nat) : (s.common u c).lost = s.lost := by
  unfold State.common; (try simp only []); (repeat' split) <;> simp
@[simp] theorem State.common_out (u c : Nat) : (s.common u c).out = s.out := by
  unfold State.common; (try simp only []); (repeat' split) <;> simp
@[simp] theorem State.common_free (u c : Nat) : (s.common u c).free = s.free := by
  unfold State.common; (try simp only []); (repeat' split) <;> simp
@[simp] theorem State.common_pending (u c : Nat) : (s.common u c).pending = s.pending := by
  unfold State.common; (try simp only []); (repeat' split) <;> simp
@[simp] theorem State.common_byte (u c : Nat) (a' : Nat) : (s.common u c).byte a' = s.byte a' := by simp [State.byte]

/-! `State.memUe` changes `regs`, `pcie`, `out`, `aia` only. -/

@[simp] theorem State.memUe_mem (a : Nat) : (s.memUe a).mem = s.mem := by
  unfold State.memUe; (try simp only []); (repeat' split) <;> simp
@[simp] theorem State.memUe_poison (a : Nat) : (s.memUe a).poison = s.poison := by
  unfold State.memUe; (try simp only []); (repeat' split) <;> simp
@[simp] theorem State.memUe_zeroMap (a : Nat) : (s.memUe a).zeroMap = s.zeroMap := by
  unfold State.memUe; (try simp only []); (repeat' split) <;> simp
@[simp] theorem State.memUe_ddr (a : Nat) : (s.memUe a).ddr = s.ddr := by
  unfold State.memUe; (try simp only []); (repeat' split) <;> simp
@[simp] theorem State.memUe_chCe (a : Nat) : (s.memUe a).chCe = s.chCe := by
  unfold State.memUe; (try simp only []); (repeat' split) <;> simp
@[simp] theorem State.memUe_chTimes (a : Nat) : (s.memUe a).chTimes = s.chTimes := by
  unfold State.memUe; (try simp only []); (repeat' split) <;> simp
@[simp] theorem State.memUe_chTold (a : Nat) : (s.memUe a).chTold = s.chTold := by
  unfold State.memUe; (try simp only []); (repeat' split) <;> simp
@[simp] theorem State.memUe_tiles (a : Nat) : (s.memUe a).tiles = s.tiles := by
  unfold State.memUe; (try simp only []); (repeat' split) <;> simp
@[simp] theorem State.memUe_prm (a : Nat) : (s.memUe a).prm = s.prm := by
  unfold State.memUe; (try simp only []); (repeat' split) <;> simp
@[simp] theorem State.memUe_pav (a : Nat) : (s.memUe a).pav = s.pav := by
  unfold State.memUe; (try simp only []); (repeat' split) <;> simp
@[simp] theorem State.memUe_frames (a : Nat) : (s.memUe a).frames = s.frames := by
  unfold State.memUe; (try simp only []); (repeat' split) <;> simp
@[simp] theorem State.memUe_arb (a : Nat) : (s.memUe a).arb = s.arb := by
  unfold State.memUe; (try simp only []); (repeat' split) <;> simp
@[simp] theorem State.memUe_passed (a : Nat) : (s.memUe a).passed = s.passed := by
  unfold State.memUe; (try simp only []); (repeat' split) <;> simp
@[simp] theorem State.memUe_acm (a : Nat) : (s.memUe a).acm = s.acm := by
  unfold State.memUe; (try simp only []); (repeat' split) <;> simp
@[simp] theorem State.memUe_emt (a : Nat) : (s.memUe a).emt = s.emt := by
  unfold State.memUe; (try simp only []); (repeat' split) <;> simp
@[simp] theorem State.memUe_site (a : Nat) : (s.memUe a).site = s.site := by
  unfold State.memUe; (try simp only []); (repeat' split) <;> simp
@[simp] theorem State.memUe_tb (a : Nat) : (s.memUe a).tb = s.tb := by
  unfold State.memUe; (try simp only []); (repeat' split) <;> simp
@[simp] theorem State.memUe_clk (a : Nat) : (s.memUe a).clk = s.clk := by
  unfold State.memUe; (try simp only []); (repeat' split) <;> simp
@[simp] theorem State.memUe_eth (a : Nat) : (s.memUe a).eth = s.eth := by
  unfold State.memUe; (try simp only []); (repeat' split) <;> simp
@[simp] theorem State.memUe_sch (a : Nat) : (s.memUe a).sch = s.sch := by
  unfold State.memUe; (try simp only []); (repeat' split) <;> simp
@[simp] theorem State.memUe_cph (a : Nat) : (s.memUe a).cph = s.cph := by
  unfold State.memUe; (try simp only []); (repeat' split) <;> simp
@[simp] theorem State.memUe_te (a : Nat) : (s.memUe a).te = s.te := by
  unfold State.memUe; (try simp only []); (repeat' split) <;> simp
@[simp] theorem State.memUe_nve (a : Nat) : (s.memUe a).nve = s.nve := by
  unfold State.memUe; (try simp only []); (repeat' split) <;> simp
@[simp] theorem State.memUe_hif (a : Nat) : (s.memUe a).hif = s.hif := by
  unfold State.memUe; (try simp only []); (repeat' split) <;> simp
@[simp] theorem State.memUe_harts (a : Nat) : (s.memUe a).harts = s.harts := by
  unfold State.memUe; (try simp only []); (repeat' split) <;> simp
@[simp] theorem State.memUe_cache (a : Nat) : (s.memUe a).cache = s.cache := by
  unfold State.memUe; (try simp only []); (repeat' split) <;> simp
@[simp] theorem State.memUe_pwr (a : Nat) : (s.memUe a).pwr = s.pwr := by
  unfold State.memUe; (try simp only []); (repeat' split) <;> simp
@[simp] theorem State.memUe_boot (a : Nat) : (s.memUe a).boot = s.boot := by
  unfold State.memUe; (try simp only []); (repeat' split) <;> simp
@[simp] theorem State.memUe_wkt (a : Nat) : (s.memUe a).wkt = s.wkt := by
  unfold State.memUe; (try simp only []); (repeat' split) <;> simp
@[simp] theorem State.memUe_pins (a : Nat) : (s.memUe a).pins = s.pins := by
  unfold State.memUe; (try simp only []); (repeat' split) <;> simp
@[simp] theorem State.memUe_lost (a : Nat) : (s.memUe a).lost = s.lost := by
  unfold State.memUe; (try simp only []); (repeat' split) <;> simp
@[simp] theorem State.memUe_free (a : Nat) : (s.memUe a).free = s.free := by
  unfold State.memUe; (try simp only []); (repeat' split) <;> simp
@[simp] theorem State.memUe_pending (a : Nat) : (s.memUe a).pending = s.pending := by
  unfold State.memUe; (try simp only []); (repeat' split) <;> simp
@[simp] theorem State.memUe_byte (a : Nat) (a' : Nat) : (s.memUe a).byte a' = s.byte a' := by simp [State.byte]

/-! `State.channelCe` changes `regs`, `pcie`, `out`, `aia`, `chCe`, `chTimes`, `chTold` only. -/

@[simp] theorem State.channelCe_mem (c : Nat) : (s.channelCe c).mem = s.mem := by
  unfold State.channelCe; (try simp only []); (repeat' split) <;> simp
@[simp] theorem State.channelCe_poison (c : Nat) : (s.channelCe c).poison = s.poison := by
  unfold State.channelCe; (try simp only []); (repeat' split) <;> simp
@[simp] theorem State.channelCe_zeroMap (c : Nat) : (s.channelCe c).zeroMap = s.zeroMap := by
  unfold State.channelCe; (try simp only []); (repeat' split) <;> simp
@[simp] theorem State.channelCe_ddr (c : Nat) : (s.channelCe c).ddr = s.ddr := by
  unfold State.channelCe; (try simp only []); (repeat' split) <;> simp
@[simp] theorem State.channelCe_tiles (c : Nat) : (s.channelCe c).tiles = s.tiles := by
  unfold State.channelCe; (try simp only []); (repeat' split) <;> simp
@[simp] theorem State.channelCe_prm (c : Nat) : (s.channelCe c).prm = s.prm := by
  unfold State.channelCe; (try simp only []); (repeat' split) <;> simp
@[simp] theorem State.channelCe_pav (c : Nat) : (s.channelCe c).pav = s.pav := by
  unfold State.channelCe; (try simp only []); (repeat' split) <;> simp
@[simp] theorem State.channelCe_frames (c : Nat) : (s.channelCe c).frames = s.frames := by
  unfold State.channelCe; (try simp only []); (repeat' split) <;> simp
@[simp] theorem State.channelCe_arb (c : Nat) : (s.channelCe c).arb = s.arb := by
  unfold State.channelCe; (try simp only []); (repeat' split) <;> simp
@[simp] theorem State.channelCe_passed (c : Nat) : (s.channelCe c).passed = s.passed := by
  unfold State.channelCe; (try simp only []); (repeat' split) <;> simp
@[simp] theorem State.channelCe_acm (c : Nat) : (s.channelCe c).acm = s.acm := by
  unfold State.channelCe; (try simp only []); (repeat' split) <;> simp
@[simp] theorem State.channelCe_emt (c : Nat) : (s.channelCe c).emt = s.emt := by
  unfold State.channelCe; (try simp only []); (repeat' split) <;> simp
@[simp] theorem State.channelCe_site (c : Nat) : (s.channelCe c).site = s.site := by
  unfold State.channelCe; (try simp only []); (repeat' split) <;> simp
@[simp] theorem State.channelCe_tb (c : Nat) : (s.channelCe c).tb = s.tb := by
  unfold State.channelCe; (try simp only []); (repeat' split) <;> simp
@[simp] theorem State.channelCe_clk (c : Nat) : (s.channelCe c).clk = s.clk := by
  unfold State.channelCe; (try simp only []); (repeat' split) <;> simp
@[simp] theorem State.channelCe_eth (c : Nat) : (s.channelCe c).eth = s.eth := by
  unfold State.channelCe; (try simp only []); (repeat' split) <;> simp
@[simp] theorem State.channelCe_sch (c : Nat) : (s.channelCe c).sch = s.sch := by
  unfold State.channelCe; (try simp only []); (repeat' split) <;> simp
@[simp] theorem State.channelCe_cph (c : Nat) : (s.channelCe c).cph = s.cph := by
  unfold State.channelCe; (try simp only []); (repeat' split) <;> simp
@[simp] theorem State.channelCe_te (c : Nat) : (s.channelCe c).te = s.te := by
  unfold State.channelCe; (try simp only []); (repeat' split) <;> simp
@[simp] theorem State.channelCe_nve (c : Nat) : (s.channelCe c).nve = s.nve := by
  unfold State.channelCe; (try simp only []); (repeat' split) <;> simp
@[simp] theorem State.channelCe_hif (c : Nat) : (s.channelCe c).hif = s.hif := by
  unfold State.channelCe; (try simp only []); (repeat' split) <;> simp
@[simp] theorem State.channelCe_harts (c : Nat) : (s.channelCe c).harts = s.harts := by
  unfold State.channelCe; (try simp only []); (repeat' split) <;> simp
@[simp] theorem State.channelCe_cache (c : Nat) : (s.channelCe c).cache = s.cache := by
  unfold State.channelCe; (try simp only []); (repeat' split) <;> simp
@[simp] theorem State.channelCe_pwr (c : Nat) : (s.channelCe c).pwr = s.pwr := by
  unfold State.channelCe; (try simp only []); (repeat' split) <;> simp
@[simp] theorem State.channelCe_boot (c : Nat) : (s.channelCe c).boot = s.boot := by
  unfold State.channelCe; (try simp only []); (repeat' split) <;> simp
@[simp] theorem State.channelCe_wkt (c : Nat) : (s.channelCe c).wkt = s.wkt := by
  unfold State.channelCe; (try simp only []); (repeat' split) <;> simp
@[simp] theorem State.channelCe_pins (c : Nat) : (s.channelCe c).pins = s.pins := by
  unfold State.channelCe; (try simp only []); (repeat' split) <;> simp
@[simp] theorem State.channelCe_lost (c : Nat) : (s.channelCe c).lost = s.lost := by
  unfold State.channelCe; (try simp only []); (repeat' split) <;> simp
@[simp] theorem State.channelCe_free (c : Nat) : (s.channelCe c).free = s.free := by
  unfold State.channelCe; (try simp only []); (repeat' split) <;> simp
@[simp] theorem State.channelCe_pending (c : Nat) : (s.channelCe c).pending = s.pending := by
  unfold State.channelCe; (try simp only []); (repeat' split) <;> simp
@[simp] theorem State.channelCe_byte (c : Nat) (a' : Nat) : (s.channelCe c).byte a' = s.byte a' := by simp [State.byte]

/-! `State.memRead` changes `regs`, `pcie`, `out`, `aia`, `chCe`, `chTimes`, `chTold` only. -/

@[simp] theorem State.memRead_mem (e : EccResult) (a : Nat) : (s.memRead e a).mem = s.mem := by
  unfold State.memRead; split <;> simp
@[simp] theorem State.memRead_poison (e : EccResult) (a : Nat) : (s.memRead e a).poison = s.poison := by
  unfold State.memRead; split <;> simp
@[simp] theorem State.memRead_zeroMap (e : EccResult) (a : Nat) : (s.memRead e a).zeroMap = s.zeroMap := by
  unfold State.memRead; split <;> simp
@[simp] theorem State.memRead_ddr (e : EccResult) (a : Nat) : (s.memRead e a).ddr = s.ddr := by
  unfold State.memRead; split <;> simp
@[simp] theorem State.memRead_tiles (e : EccResult) (a : Nat) : (s.memRead e a).tiles = s.tiles := by
  unfold State.memRead; split <;> simp
@[simp] theorem State.memRead_prm (e : EccResult) (a : Nat) : (s.memRead e a).prm = s.prm := by
  unfold State.memRead; split <;> simp
@[simp] theorem State.memRead_pav (e : EccResult) (a : Nat) : (s.memRead e a).pav = s.pav := by
  unfold State.memRead; split <;> simp
@[simp] theorem State.memRead_frames (e : EccResult) (a : Nat) : (s.memRead e a).frames = s.frames := by
  unfold State.memRead; split <;> simp
@[simp] theorem State.memRead_arb (e : EccResult) (a : Nat) : (s.memRead e a).arb = s.arb := by
  unfold State.memRead; split <;> simp
@[simp] theorem State.memRead_passed (e : EccResult) (a : Nat) : (s.memRead e a).passed = s.passed := by
  unfold State.memRead; split <;> simp
@[simp] theorem State.memRead_acm (e : EccResult) (a : Nat) : (s.memRead e a).acm = s.acm := by
  unfold State.memRead; split <;> simp
@[simp] theorem State.memRead_emt (e : EccResult) (a : Nat) : (s.memRead e a).emt = s.emt := by
  unfold State.memRead; split <;> simp
@[simp] theorem State.memRead_site (e : EccResult) (a : Nat) : (s.memRead e a).site = s.site := by
  unfold State.memRead; split <;> simp
@[simp] theorem State.memRead_tb (e : EccResult) (a : Nat) : (s.memRead e a).tb = s.tb := by
  unfold State.memRead; split <;> simp
@[simp] theorem State.memRead_clk (e : EccResult) (a : Nat) : (s.memRead e a).clk = s.clk := by
  unfold State.memRead; split <;> simp
@[simp] theorem State.memRead_eth (e : EccResult) (a : Nat) : (s.memRead e a).eth = s.eth := by
  unfold State.memRead; split <;> simp
@[simp] theorem State.memRead_sch (e : EccResult) (a : Nat) : (s.memRead e a).sch = s.sch := by
  unfold State.memRead; split <;> simp
@[simp] theorem State.memRead_cph (e : EccResult) (a : Nat) : (s.memRead e a).cph = s.cph := by
  unfold State.memRead; split <;> simp
@[simp] theorem State.memRead_te (e : EccResult) (a : Nat) : (s.memRead e a).te = s.te := by
  unfold State.memRead; split <;> simp
@[simp] theorem State.memRead_nve (e : EccResult) (a : Nat) : (s.memRead e a).nve = s.nve := by
  unfold State.memRead; split <;> simp
@[simp] theorem State.memRead_hif (e : EccResult) (a : Nat) : (s.memRead e a).hif = s.hif := by
  unfold State.memRead; split <;> simp
@[simp] theorem State.memRead_harts (e : EccResult) (a : Nat) : (s.memRead e a).harts = s.harts := by
  unfold State.memRead; split <;> simp
@[simp] theorem State.memRead_cache (e : EccResult) (a : Nat) : (s.memRead e a).cache = s.cache := by
  unfold State.memRead; split <;> simp
@[simp] theorem State.memRead_pwr (e : EccResult) (a : Nat) : (s.memRead e a).pwr = s.pwr := by
  unfold State.memRead; split <;> simp
@[simp] theorem State.memRead_boot (e : EccResult) (a : Nat) : (s.memRead e a).boot = s.boot := by
  unfold State.memRead; split <;> simp
@[simp] theorem State.memRead_wkt (e : EccResult) (a : Nat) : (s.memRead e a).wkt = s.wkt := by
  unfold State.memRead; split <;> simp
@[simp] theorem State.memRead_pins (e : EccResult) (a : Nat) : (s.memRead e a).pins = s.pins := by
  unfold State.memRead; split <;> simp
@[simp] theorem State.memRead_lost (e : EccResult) (a : Nat) : (s.memRead e a).lost = s.lost := by
  unfold State.memRead; split <;> simp
@[simp] theorem State.memRead_free (e : EccResult) (a : Nat) : (s.memRead e a).free = s.free := by
  unfold State.memRead; split <;> simp
@[simp] theorem State.memRead_pending (e : EccResult) (a : Nat) : (s.memRead e a).pending = s.pending := by
  unfold State.memRead; split <;> simp
@[simp] theorem State.memRead_byte (e : EccResult) (a : Nat) (a' : Nat) : (s.memRead e a).byte a' = s.byte a' := by simp [State.byte]

/-! `State.memReadIn` changes `regs`, `pcie`, `out`, `aia`, `chCe`, `chTimes`, `chTold`, `free` only. -/

@[simp] theorem State.memReadIn_mem (e : EccResult) (u : Nat) : (s.memReadIn e u).mem = s.mem := by
  unfold State.memReadIn; (try simp only []); (repeat' split) <;> simp
@[simp] theorem State.memReadIn_poison (e : EccResult) (u : Nat) : (s.memReadIn e u).poison = s.poison := by
  unfold State.memReadIn; (try simp only []); (repeat' split) <;> simp
@[simp] theorem State.memReadIn_zeroMap (e : EccResult) (u : Nat) : (s.memReadIn e u).zeroMap = s.zeroMap := by
  unfold State.memReadIn; (try simp only []); (repeat' split) <;> simp
@[simp] theorem State.memReadIn_ddr (e : EccResult) (u : Nat) : (s.memReadIn e u).ddr = s.ddr := by
  unfold State.memReadIn; (try simp only []); (repeat' split) <;> simp
@[simp] theorem State.memReadIn_tiles (e : EccResult) (u : Nat) : (s.memReadIn e u).tiles = s.tiles := by
  unfold State.memReadIn; (try simp only []); (repeat' split) <;> simp
@[simp] theorem State.memReadIn_prm (e : EccResult) (u : Nat) : (s.memReadIn e u).prm = s.prm := by
  unfold State.memReadIn; (try simp only []); (repeat' split) <;> simp
@[simp] theorem State.memReadIn_pav (e : EccResult) (u : Nat) : (s.memReadIn e u).pav = s.pav := by
  unfold State.memReadIn; (try simp only []); (repeat' split) <;> simp
@[simp] theorem State.memReadIn_frames (e : EccResult) (u : Nat) : (s.memReadIn e u).frames = s.frames := by
  unfold State.memReadIn; (try simp only []); (repeat' split) <;> simp
@[simp] theorem State.memReadIn_arb (e : EccResult) (u : Nat) : (s.memReadIn e u).arb = s.arb := by
  unfold State.memReadIn; (try simp only []); (repeat' split) <;> simp
@[simp] theorem State.memReadIn_passed (e : EccResult) (u : Nat) : (s.memReadIn e u).passed = s.passed := by
  unfold State.memReadIn; (try simp only []); (repeat' split) <;> simp
@[simp] theorem State.memReadIn_acm (e : EccResult) (u : Nat) : (s.memReadIn e u).acm = s.acm := by
  unfold State.memReadIn; (try simp only []); (repeat' split) <;> simp
@[simp] theorem State.memReadIn_emt (e : EccResult) (u : Nat) : (s.memReadIn e u).emt = s.emt := by
  unfold State.memReadIn; (try simp only []); (repeat' split) <;> simp
@[simp] theorem State.memReadIn_site (e : EccResult) (u : Nat) : (s.memReadIn e u).site = s.site := by
  unfold State.memReadIn; (try simp only []); (repeat' split) <;> simp
@[simp] theorem State.memReadIn_tb (e : EccResult) (u : Nat) : (s.memReadIn e u).tb = s.tb := by
  unfold State.memReadIn; (try simp only []); (repeat' split) <;> simp
@[simp] theorem State.memReadIn_clk (e : EccResult) (u : Nat) : (s.memReadIn e u).clk = s.clk := by
  unfold State.memReadIn; (try simp only []); (repeat' split) <;> simp
@[simp] theorem State.memReadIn_eth (e : EccResult) (u : Nat) : (s.memReadIn e u).eth = s.eth := by
  unfold State.memReadIn; (try simp only []); (repeat' split) <;> simp
@[simp] theorem State.memReadIn_sch (e : EccResult) (u : Nat) : (s.memReadIn e u).sch = s.sch := by
  unfold State.memReadIn; (try simp only []); (repeat' split) <;> simp
@[simp] theorem State.memReadIn_cph (e : EccResult) (u : Nat) : (s.memReadIn e u).cph = s.cph := by
  unfold State.memReadIn; (try simp only []); (repeat' split) <;> simp
@[simp] theorem State.memReadIn_te (e : EccResult) (u : Nat) : (s.memReadIn e u).te = s.te := by
  unfold State.memReadIn; (try simp only []); (repeat' split) <;> simp
@[simp] theorem State.memReadIn_nve (e : EccResult) (u : Nat) : (s.memReadIn e u).nve = s.nve := by
  unfold State.memReadIn; (try simp only []); (repeat' split) <;> simp
@[simp] theorem State.memReadIn_hif (e : EccResult) (u : Nat) : (s.memReadIn e u).hif = s.hif := by
  unfold State.memReadIn; (try simp only []); (repeat' split) <;> simp
@[simp] theorem State.memReadIn_harts (e : EccResult) (u : Nat) : (s.memReadIn e u).harts = s.harts := by
  unfold State.memReadIn; (try simp only []); (repeat' split) <;> simp
@[simp] theorem State.memReadIn_cache (e : EccResult) (u : Nat) : (s.memReadIn e u).cache = s.cache := by
  unfold State.memReadIn; (try simp only []); (repeat' split) <;> simp
@[simp] theorem State.memReadIn_pwr (e : EccResult) (u : Nat) : (s.memReadIn e u).pwr = s.pwr := by
  unfold State.memReadIn; (try simp only []); (repeat' split) <;> simp
@[simp] theorem State.memReadIn_boot (e : EccResult) (u : Nat) : (s.memReadIn e u).boot = s.boot := by
  unfold State.memReadIn; (try simp only []); (repeat' split) <;> simp
@[simp] theorem State.memReadIn_wkt (e : EccResult) (u : Nat) : (s.memReadIn e u).wkt = s.wkt := by
  unfold State.memReadIn; (try simp only []); (repeat' split) <;> simp
@[simp] theorem State.memReadIn_pins (e : EccResult) (u : Nat) : (s.memReadIn e u).pins = s.pins := by
  unfold State.memReadIn; (try simp only []); (repeat' split) <;> simp
@[simp] theorem State.memReadIn_lost (e : EccResult) (u : Nat) : (s.memReadIn e u).lost = s.lost := by
  unfold State.memReadIn; (try simp only []); (repeat' split) <;> simp
@[simp] theorem State.memReadIn_pending (e : EccResult) (u : Nat) : (s.memReadIn e u).pending = s.pending := by
  unfold State.memReadIn; (try simp only []); (repeat' split) <;> simp
@[simp] theorem State.memReadIn_byte (e : EccResult) (u : Nat) (a' : Nat) : (s.memReadIn e u).byte a' = s.byte a' := by simp [State.byte]

/-! `State.partViolation` changes `regs`, `pcie`, `out`, `aia` only. -/

@[simp] theorem State.partViolation_mem (a : Nat) : (s.partViolation a).mem = s.mem := by
  unfold State.partViolation; (try simp only []); (repeat' split) <;> simp
@[simp] theorem State.partViolation_poison (a : Nat) : (s.partViolation a).poison = s.poison := by
  unfold State.partViolation; (try simp only []); (repeat' split) <;> simp
@[simp] theorem State.partViolation_zeroMap (a : Nat) : (s.partViolation a).zeroMap = s.zeroMap := by
  unfold State.partViolation; (try simp only []); (repeat' split) <;> simp
@[simp] theorem State.partViolation_ddr (a : Nat) : (s.partViolation a).ddr = s.ddr := by
  unfold State.partViolation; (try simp only []); (repeat' split) <;> simp
@[simp] theorem State.partViolation_chCe (a : Nat) : (s.partViolation a).chCe = s.chCe := by
  unfold State.partViolation; (try simp only []); (repeat' split) <;> simp
@[simp] theorem State.partViolation_chTimes (a : Nat) : (s.partViolation a).chTimes = s.chTimes := by
  unfold State.partViolation; (try simp only []); (repeat' split) <;> simp
@[simp] theorem State.partViolation_chTold (a : Nat) : (s.partViolation a).chTold = s.chTold := by
  unfold State.partViolation; (try simp only []); (repeat' split) <;> simp
@[simp] theorem State.partViolation_tiles (a : Nat) : (s.partViolation a).tiles = s.tiles := by
  unfold State.partViolation; (try simp only []); (repeat' split) <;> simp
@[simp] theorem State.partViolation_prm (a : Nat) : (s.partViolation a).prm = s.prm := by
  unfold State.partViolation; (try simp only []); (repeat' split) <;> simp
@[simp] theorem State.partViolation_pav (a : Nat) : (s.partViolation a).pav = s.pav := by
  unfold State.partViolation; (try simp only []); (repeat' split) <;> simp
@[simp] theorem State.partViolation_frames (a : Nat) : (s.partViolation a).frames = s.frames := by
  unfold State.partViolation; (try simp only []); (repeat' split) <;> simp
@[simp] theorem State.partViolation_arb (a : Nat) : (s.partViolation a).arb = s.arb := by
  unfold State.partViolation; (try simp only []); (repeat' split) <;> simp
@[simp] theorem State.partViolation_passed (a : Nat) : (s.partViolation a).passed = s.passed := by
  unfold State.partViolation; (try simp only []); (repeat' split) <;> simp
@[simp] theorem State.partViolation_acm (a : Nat) : (s.partViolation a).acm = s.acm := by
  unfold State.partViolation; (try simp only []); (repeat' split) <;> simp
@[simp] theorem State.partViolation_emt (a : Nat) : (s.partViolation a).emt = s.emt := by
  unfold State.partViolation; (try simp only []); (repeat' split) <;> simp
@[simp] theorem State.partViolation_site (a : Nat) : (s.partViolation a).site = s.site := by
  unfold State.partViolation; (try simp only []); (repeat' split) <;> simp
@[simp] theorem State.partViolation_tb (a : Nat) : (s.partViolation a).tb = s.tb := by
  unfold State.partViolation; (try simp only []); (repeat' split) <;> simp
@[simp] theorem State.partViolation_clk (a : Nat) : (s.partViolation a).clk = s.clk := by
  unfold State.partViolation; (try simp only []); (repeat' split) <;> simp
@[simp] theorem State.partViolation_eth (a : Nat) : (s.partViolation a).eth = s.eth := by
  unfold State.partViolation; (try simp only []); (repeat' split) <;> simp
@[simp] theorem State.partViolation_sch (a : Nat) : (s.partViolation a).sch = s.sch := by
  unfold State.partViolation; (try simp only []); (repeat' split) <;> simp
@[simp] theorem State.partViolation_cph (a : Nat) : (s.partViolation a).cph = s.cph := by
  unfold State.partViolation; (try simp only []); (repeat' split) <;> simp
@[simp] theorem State.partViolation_te (a : Nat) : (s.partViolation a).te = s.te := by
  unfold State.partViolation; (try simp only []); (repeat' split) <;> simp
@[simp] theorem State.partViolation_nve (a : Nat) : (s.partViolation a).nve = s.nve := by
  unfold State.partViolation; (try simp only []); (repeat' split) <;> simp
@[simp] theorem State.partViolation_hif (a : Nat) : (s.partViolation a).hif = s.hif := by
  unfold State.partViolation; (try simp only []); (repeat' split) <;> simp
@[simp] theorem State.partViolation_harts (a : Nat) : (s.partViolation a).harts = s.harts := by
  unfold State.partViolation; (try simp only []); (repeat' split) <;> simp
@[simp] theorem State.partViolation_cache (a : Nat) : (s.partViolation a).cache = s.cache := by
  unfold State.partViolation; (try simp only []); (repeat' split) <;> simp
@[simp] theorem State.partViolation_pwr (a : Nat) : (s.partViolation a).pwr = s.pwr := by
  unfold State.partViolation; (try simp only []); (repeat' split) <;> simp
@[simp] theorem State.partViolation_boot (a : Nat) : (s.partViolation a).boot = s.boot := by
  unfold State.partViolation; (try simp only []); (repeat' split) <;> simp
@[simp] theorem State.partViolation_wkt (a : Nat) : (s.partViolation a).wkt = s.wkt := by
  unfold State.partViolation; (try simp only []); (repeat' split) <;> simp
@[simp] theorem State.partViolation_pins (a : Nat) : (s.partViolation a).pins = s.pins := by
  unfold State.partViolation; (try simp only []); (repeat' split) <;> simp
@[simp] theorem State.partViolation_lost (a : Nat) : (s.partViolation a).lost = s.lost := by
  unfold State.partViolation; (try simp only []); (repeat' split) <;> simp
@[simp] theorem State.partViolation_free (a : Nat) : (s.partViolation a).free = s.free := by
  unfold State.partViolation; (try simp only []); (repeat' split) <;> simp
@[simp] theorem State.partViolation_pending (a : Nat) : (s.partViolation a).pending = s.pending := by
  unfold State.partViolation; (try simp only []); (repeat' split) <;> simp
@[simp] theorem State.partViolation_byte (a : Nat) (a' : Nat) : (s.partViolation a).byte a' = s.byte a' := by simp [State.byte]

/-! `State.tileUe` changes `regs`, `pcie`, `out`, `aia`, `tiles` only. -/

@[simp] theorem State.tileUe_mem (t : Nat) : (s.tileUe t).mem = s.mem := by
  unfold State.tileUe; (try simp only []); (repeat' split) <;> simp
@[simp] theorem State.tileUe_poison (t : Nat) : (s.tileUe t).poison = s.poison := by
  unfold State.tileUe; (try simp only []); (repeat' split) <;> simp
@[simp] theorem State.tileUe_zeroMap (t : Nat) : (s.tileUe t).zeroMap = s.zeroMap := by
  unfold State.tileUe; (try simp only []); (repeat' split) <;> simp
@[simp] theorem State.tileUe_ddr (t : Nat) : (s.tileUe t).ddr = s.ddr := by
  unfold State.tileUe; (try simp only []); (repeat' split) <;> simp
@[simp] theorem State.tileUe_chCe (t : Nat) : (s.tileUe t).chCe = s.chCe := by
  unfold State.tileUe; (try simp only []); (repeat' split) <;> simp
@[simp] theorem State.tileUe_chTimes (t : Nat) : (s.tileUe t).chTimes = s.chTimes := by
  unfold State.tileUe; (try simp only []); (repeat' split) <;> simp
@[simp] theorem State.tileUe_chTold (t : Nat) : (s.tileUe t).chTold = s.chTold := by
  unfold State.tileUe; (try simp only []); (repeat' split) <;> simp
@[simp] theorem State.tileUe_prm (t : Nat) : (s.tileUe t).prm = s.prm := by
  unfold State.tileUe; (try simp only []); (repeat' split) <;> simp
@[simp] theorem State.tileUe_pav (t : Nat) : (s.tileUe t).pav = s.pav := by
  unfold State.tileUe; (try simp only []); (repeat' split) <;> simp
@[simp] theorem State.tileUe_frames (t : Nat) : (s.tileUe t).frames = s.frames := by
  unfold State.tileUe; (try simp only []); (repeat' split) <;> simp
@[simp] theorem State.tileUe_arb (t : Nat) : (s.tileUe t).arb = s.arb := by
  unfold State.tileUe; (try simp only []); (repeat' split) <;> simp
@[simp] theorem State.tileUe_passed (t : Nat) : (s.tileUe t).passed = s.passed := by
  unfold State.tileUe; (try simp only []); (repeat' split) <;> simp
@[simp] theorem State.tileUe_acm (t : Nat) : (s.tileUe t).acm = s.acm := by
  unfold State.tileUe; (try simp only []); (repeat' split) <;> simp
@[simp] theorem State.tileUe_emt (t : Nat) : (s.tileUe t).emt = s.emt := by
  unfold State.tileUe; (try simp only []); (repeat' split) <;> simp
@[simp] theorem State.tileUe_site (t : Nat) : (s.tileUe t).site = s.site := by
  unfold State.tileUe; (try simp only []); (repeat' split) <;> simp
@[simp] theorem State.tileUe_tb (t : Nat) : (s.tileUe t).tb = s.tb := by
  unfold State.tileUe; (try simp only []); (repeat' split) <;> simp
@[simp] theorem State.tileUe_clk (t : Nat) : (s.tileUe t).clk = s.clk := by
  unfold State.tileUe; (try simp only []); (repeat' split) <;> simp
@[simp] theorem State.tileUe_eth (t : Nat) : (s.tileUe t).eth = s.eth := by
  unfold State.tileUe; (try simp only []); (repeat' split) <;> simp
@[simp] theorem State.tileUe_sch (t : Nat) : (s.tileUe t).sch = s.sch := by
  unfold State.tileUe; (try simp only []); (repeat' split) <;> simp
@[simp] theorem State.tileUe_cph (t : Nat) : (s.tileUe t).cph = s.cph := by
  unfold State.tileUe; (try simp only []); (repeat' split) <;> simp
@[simp] theorem State.tileUe_te (t : Nat) : (s.tileUe t).te = s.te := by
  unfold State.tileUe; (try simp only []); (repeat' split) <;> simp
@[simp] theorem State.tileUe_nve (t : Nat) : (s.tileUe t).nve = s.nve := by
  unfold State.tileUe; (try simp only []); (repeat' split) <;> simp
@[simp] theorem State.tileUe_hif (t : Nat) : (s.tileUe t).hif = s.hif := by
  unfold State.tileUe; (try simp only []); (repeat' split) <;> simp
@[simp] theorem State.tileUe_harts (t : Nat) : (s.tileUe t).harts = s.harts := by
  unfold State.tileUe; (try simp only []); (repeat' split) <;> simp
@[simp] theorem State.tileUe_cache (t : Nat) : (s.tileUe t).cache = s.cache := by
  unfold State.tileUe; (try simp only []); (repeat' split) <;> simp
@[simp] theorem State.tileUe_pwr (t : Nat) : (s.tileUe t).pwr = s.pwr := by
  unfold State.tileUe; (try simp only []); (repeat' split) <;> simp
@[simp] theorem State.tileUe_boot (t : Nat) : (s.tileUe t).boot = s.boot := by
  unfold State.tileUe; (try simp only []); (repeat' split) <;> simp
@[simp] theorem State.tileUe_wkt (t : Nat) : (s.tileUe t).wkt = s.wkt := by
  unfold State.tileUe; (try simp only []); (repeat' split) <;> simp
@[simp] theorem State.tileUe_pins (t : Nat) : (s.tileUe t).pins = s.pins := by
  unfold State.tileUe; (try simp only []); (repeat' split) <;> simp
@[simp] theorem State.tileUe_lost (t : Nat) : (s.tileUe t).lost = s.lost := by
  unfold State.tileUe; (try simp only []); (repeat' split) <;> simp
@[simp] theorem State.tileUe_free (t : Nat) : (s.tileUe t).free = s.free := by
  unfold State.tileUe; (try simp only []); (repeat' split) <;> simp
@[simp] theorem State.tileUe_pending (t : Nat) : (s.tileUe t).pending = s.pending := by
  unfold State.tileUe; (try simp only []); (repeat' split) <;> simp
@[simp] theorem State.tileUe_byte (t : Nat) (a' : Nat) : (s.tileUe t).byte a' = s.byte a' := by simp [State.byte]

/-! `State.complete` changes `prm` only. -/

@[simp] theorem State.complete_regs (ep : Nat) (c : List Word) (st op : Nat) (p : List Byte) : (s.complete ep c st op p).regs = s.regs := by
  unfold State.complete; (try simp only []); (repeat' split) <;> simp
@[simp] theorem State.complete_mem (ep : Nat) (c : List Word) (st op : Nat) (p : List Byte) : (s.complete ep c st op p).mem = s.mem := by
  unfold State.complete; (try simp only []); (repeat' split) <;> simp
@[simp] theorem State.complete_poison (ep : Nat) (c : List Word) (st op : Nat) (p : List Byte) : (s.complete ep c st op p).poison = s.poison := by
  unfold State.complete; (try simp only []); (repeat' split) <;> simp
@[simp] theorem State.complete_zeroMap (ep : Nat) (c : List Word) (st op : Nat) (p : List Byte) : (s.complete ep c st op p).zeroMap = s.zeroMap := by
  unfold State.complete; (try simp only []); (repeat' split) <;> simp
@[simp] theorem State.complete_ddr (ep : Nat) (c : List Word) (st op : Nat) (p : List Byte) : (s.complete ep c st op p).ddr = s.ddr := by
  unfold State.complete; (try simp only []); (repeat' split) <;> simp
@[simp] theorem State.complete_chCe (ep : Nat) (c : List Word) (st op : Nat) (p : List Byte) : (s.complete ep c st op p).chCe = s.chCe := by
  unfold State.complete; (try simp only []); (repeat' split) <;> simp
@[simp] theorem State.complete_chTimes (ep : Nat) (c : List Word) (st op : Nat) (p : List Byte) : (s.complete ep c st op p).chTimes = s.chTimes := by
  unfold State.complete; (try simp only []); (repeat' split) <;> simp
@[simp] theorem State.complete_chTold (ep : Nat) (c : List Word) (st op : Nat) (p : List Byte) : (s.complete ep c st op p).chTold = s.chTold := by
  unfold State.complete; (try simp only []); (repeat' split) <;> simp
@[simp] theorem State.complete_tiles (ep : Nat) (c : List Word) (st op : Nat) (p : List Byte) : (s.complete ep c st op p).tiles = s.tiles := by
  unfold State.complete; (try simp only []); (repeat' split) <;> simp
@[simp] theorem State.complete_pav (ep : Nat) (c : List Word) (st op : Nat) (p : List Byte) : (s.complete ep c st op p).pav = s.pav := by
  unfold State.complete; (try simp only []); (repeat' split) <;> simp
@[simp] theorem State.complete_frames (ep : Nat) (c : List Word) (st op : Nat) (p : List Byte) : (s.complete ep c st op p).frames = s.frames := by
  unfold State.complete; (try simp only []); (repeat' split) <;> simp
@[simp] theorem State.complete_arb (ep : Nat) (c : List Word) (st op : Nat) (p : List Byte) : (s.complete ep c st op p).arb = s.arb := by
  unfold State.complete; (try simp only []); (repeat' split) <;> simp
@[simp] theorem State.complete_passed (ep : Nat) (c : List Word) (st op : Nat) (p : List Byte) : (s.complete ep c st op p).passed = s.passed := by
  unfold State.complete; (try simp only []); (repeat' split) <;> simp
@[simp] theorem State.complete_acm (ep : Nat) (c : List Word) (st op : Nat) (p : List Byte) : (s.complete ep c st op p).acm = s.acm := by
  unfold State.complete; (try simp only []); (repeat' split) <;> simp
@[simp] theorem State.complete_emt (ep : Nat) (c : List Word) (st op : Nat) (p : List Byte) : (s.complete ep c st op p).emt = s.emt := by
  unfold State.complete; (try simp only []); (repeat' split) <;> simp
@[simp] theorem State.complete_site (ep : Nat) (c : List Word) (st op : Nat) (p : List Byte) : (s.complete ep c st op p).site = s.site := by
  unfold State.complete; (try simp only []); (repeat' split) <;> simp
@[simp] theorem State.complete_tb (ep : Nat) (c : List Word) (st op : Nat) (p : List Byte) : (s.complete ep c st op p).tb = s.tb := by
  unfold State.complete; (try simp only []); (repeat' split) <;> simp
@[simp] theorem State.complete_clk (ep : Nat) (c : List Word) (st op : Nat) (p : List Byte) : (s.complete ep c st op p).clk = s.clk := by
  unfold State.complete; (try simp only []); (repeat' split) <;> simp
@[simp] theorem State.complete_eth (ep : Nat) (c : List Word) (st op : Nat) (p : List Byte) : (s.complete ep c st op p).eth = s.eth := by
  unfold State.complete; (try simp only []); (repeat' split) <;> simp
@[simp] theorem State.complete_sch (ep : Nat) (c : List Word) (st op : Nat) (p : List Byte) : (s.complete ep c st op p).sch = s.sch := by
  unfold State.complete; (try simp only []); (repeat' split) <;> simp
@[simp] theorem State.complete_cph (ep : Nat) (c : List Word) (st op : Nat) (p : List Byte) : (s.complete ep c st op p).cph = s.cph := by
  unfold State.complete; (try simp only []); (repeat' split) <;> simp
@[simp] theorem State.complete_te (ep : Nat) (c : List Word) (st op : Nat) (p : List Byte) : (s.complete ep c st op p).te = s.te := by
  unfold State.complete; (try simp only []); (repeat' split) <;> simp
@[simp] theorem State.complete_nve (ep : Nat) (c : List Word) (st op : Nat) (p : List Byte) : (s.complete ep c st op p).nve = s.nve := by
  unfold State.complete; (try simp only []); (repeat' split) <;> simp
@[simp] theorem State.complete_hif (ep : Nat) (c : List Word) (st op : Nat) (p : List Byte) : (s.complete ep c st op p).hif = s.hif := by
  unfold State.complete; (try simp only []); (repeat' split) <;> simp
@[simp] theorem State.complete_pcie (ep : Nat) (c : List Word) (st op : Nat) (p : List Byte) : (s.complete ep c st op p).pcie = s.pcie := by
  unfold State.complete; (try simp only []); (repeat' split) <;> simp
@[simp] theorem State.complete_harts (ep : Nat) (c : List Word) (st op : Nat) (p : List Byte) : (s.complete ep c st op p).harts = s.harts := by
  unfold State.complete; (try simp only []); (repeat' split) <;> simp
@[simp] theorem State.complete_aia (ep : Nat) (c : List Word) (st op : Nat) (p : List Byte) : (s.complete ep c st op p).aia = s.aia := by
  unfold State.complete; (try simp only []); (repeat' split) <;> simp
@[simp] theorem State.complete_cache (ep : Nat) (c : List Word) (st op : Nat) (p : List Byte) : (s.complete ep c st op p).cache = s.cache := by
  unfold State.complete; (try simp only []); (repeat' split) <;> simp
@[simp] theorem State.complete_pwr (ep : Nat) (c : List Word) (st op : Nat) (p : List Byte) : (s.complete ep c st op p).pwr = s.pwr := by
  unfold State.complete; (try simp only []); (repeat' split) <;> simp
@[simp] theorem State.complete_boot (ep : Nat) (c : List Word) (st op : Nat) (p : List Byte) : (s.complete ep c st op p).boot = s.boot := by
  unfold State.complete; (try simp only []); (repeat' split) <;> simp
@[simp] theorem State.complete_wkt (ep : Nat) (c : List Word) (st op : Nat) (p : List Byte) : (s.complete ep c st op p).wkt = s.wkt := by
  unfold State.complete; (try simp only []); (repeat' split) <;> simp
@[simp] theorem State.complete_pins (ep : Nat) (c : List Word) (st op : Nat) (p : List Byte) : (s.complete ep c st op p).pins = s.pins := by
  unfold State.complete; (try simp only []); (repeat' split) <;> simp
@[simp] theorem State.complete_lost (ep : Nat) (c : List Word) (st op : Nat) (p : List Byte) : (s.complete ep c st op p).lost = s.lost := by
  unfold State.complete; (try simp only []); (repeat' split) <;> simp
@[simp] theorem State.complete_out (ep : Nat) (c : List Word) (st op : Nat) (p : List Byte) : (s.complete ep c st op p).out = s.out := by
  unfold State.complete; (try simp only []); (repeat' split) <;> simp
@[simp] theorem State.complete_free (ep : Nat) (c : List Word) (st op : Nat) (p : List Byte) : (s.complete ep c st op p).free = s.free := by
  unfold State.complete; (try simp only []); (repeat' split) <;> simp
@[simp] theorem State.complete_pending (ep : Nat) (c : List Word) (st op : Nat) (p : List Byte) : (s.complete ep c st op p).pending = s.pending := by
  unfold State.complete; (try simp only []); (repeat' split) <;> simp
@[simp] theorem State.complete_rd (ep : Nat) (c : List Word) (st op : Nat) (p : List Byte) (o' : Nat) : (s.complete ep c st op p).rd o' = s.rd o' := by simp [State.rd]
@[simp] theorem State.complete_get (ep : Nat) (c : List Word) (st op : Nat) (p : List Byte) (f' : Fld) : (s.complete ep c st op p).get f' = s.get f' := by simp [State.get]
@[simp] theorem State.complete_byte (ep : Nat) (c : List Word) (st op : Nat) (p : List Byte) (a' : Nat) : (s.complete ep c st op p).byte a' = s.byte a' := by simp [State.byte]

/-! `State.hifFault` changes `regs`, `pcie`, `out`, `aia` only. -/

@[simp] theorem State.hifFault_mem (c f d : Nat) : (s.hifFault c f d).mem = s.mem := by
  unfold State.hifFault; (try simp only []); (repeat' split) <;> simp
@[simp] theorem State.hifFault_poison (c f d : Nat) : (s.hifFault c f d).poison = s.poison := by
  unfold State.hifFault; (try simp only []); (repeat' split) <;> simp
@[simp] theorem State.hifFault_zeroMap (c f d : Nat) : (s.hifFault c f d).zeroMap = s.zeroMap := by
  unfold State.hifFault; (try simp only []); (repeat' split) <;> simp
@[simp] theorem State.hifFault_ddr (c f d : Nat) : (s.hifFault c f d).ddr = s.ddr := by
  unfold State.hifFault; (try simp only []); (repeat' split) <;> simp
@[simp] theorem State.hifFault_chCe (c f d : Nat) : (s.hifFault c f d).chCe = s.chCe := by
  unfold State.hifFault; (try simp only []); (repeat' split) <;> simp
@[simp] theorem State.hifFault_chTimes (c f d : Nat) : (s.hifFault c f d).chTimes = s.chTimes := by
  unfold State.hifFault; (try simp only []); (repeat' split) <;> simp
@[simp] theorem State.hifFault_chTold (c f d : Nat) : (s.hifFault c f d).chTold = s.chTold := by
  unfold State.hifFault; (try simp only []); (repeat' split) <;> simp
@[simp] theorem State.hifFault_tiles (c f d : Nat) : (s.hifFault c f d).tiles = s.tiles := by
  unfold State.hifFault; (try simp only []); (repeat' split) <;> simp
@[simp] theorem State.hifFault_prm (c f d : Nat) : (s.hifFault c f d).prm = s.prm := by
  unfold State.hifFault; (try simp only []); (repeat' split) <;> simp
@[simp] theorem State.hifFault_pav (c f d : Nat) : (s.hifFault c f d).pav = s.pav := by
  unfold State.hifFault; (try simp only []); (repeat' split) <;> simp
@[simp] theorem State.hifFault_frames (c f d : Nat) : (s.hifFault c f d).frames = s.frames := by
  unfold State.hifFault; (try simp only []); (repeat' split) <;> simp
@[simp] theorem State.hifFault_arb (c f d : Nat) : (s.hifFault c f d).arb = s.arb := by
  unfold State.hifFault; (try simp only []); (repeat' split) <;> simp
@[simp] theorem State.hifFault_passed (c f d : Nat) : (s.hifFault c f d).passed = s.passed := by
  unfold State.hifFault; (try simp only []); (repeat' split) <;> simp
@[simp] theorem State.hifFault_acm (c f d : Nat) : (s.hifFault c f d).acm = s.acm := by
  unfold State.hifFault; (try simp only []); (repeat' split) <;> simp
@[simp] theorem State.hifFault_emt (c f d : Nat) : (s.hifFault c f d).emt = s.emt := by
  unfold State.hifFault; (try simp only []); (repeat' split) <;> simp
@[simp] theorem State.hifFault_site (c f d : Nat) : (s.hifFault c f d).site = s.site := by
  unfold State.hifFault; (try simp only []); (repeat' split) <;> simp
@[simp] theorem State.hifFault_tb (c f d : Nat) : (s.hifFault c f d).tb = s.tb := by
  unfold State.hifFault; (try simp only []); (repeat' split) <;> simp
@[simp] theorem State.hifFault_clk (c f d : Nat) : (s.hifFault c f d).clk = s.clk := by
  unfold State.hifFault; (try simp only []); (repeat' split) <;> simp
@[simp] theorem State.hifFault_eth (c f d : Nat) : (s.hifFault c f d).eth = s.eth := by
  unfold State.hifFault; (try simp only []); (repeat' split) <;> simp
@[simp] theorem State.hifFault_sch (c f d : Nat) : (s.hifFault c f d).sch = s.sch := by
  unfold State.hifFault; (try simp only []); (repeat' split) <;> simp
@[simp] theorem State.hifFault_cph (c f d : Nat) : (s.hifFault c f d).cph = s.cph := by
  unfold State.hifFault; (try simp only []); (repeat' split) <;> simp
@[simp] theorem State.hifFault_te (c f d : Nat) : (s.hifFault c f d).te = s.te := by
  unfold State.hifFault; (try simp only []); (repeat' split) <;> simp
@[simp] theorem State.hifFault_nve (c f d : Nat) : (s.hifFault c f d).nve = s.nve := by
  unfold State.hifFault; (try simp only []); (repeat' split) <;> simp
@[simp] theorem State.hifFault_hif (c f d : Nat) : (s.hifFault c f d).hif = s.hif := by
  unfold State.hifFault; (try simp only []); (repeat' split) <;> simp
@[simp] theorem State.hifFault_harts (c f d : Nat) : (s.hifFault c f d).harts = s.harts := by
  unfold State.hifFault; (try simp only []); (repeat' split) <;> simp
@[simp] theorem State.hifFault_cache (c f d : Nat) : (s.hifFault c f d).cache = s.cache := by
  unfold State.hifFault; (try simp only []); (repeat' split) <;> simp
@[simp] theorem State.hifFault_pwr (c f d : Nat) : (s.hifFault c f d).pwr = s.pwr := by
  unfold State.hifFault; (try simp only []); (repeat' split) <;> simp
@[simp] theorem State.hifFault_boot (c f d : Nat) : (s.hifFault c f d).boot = s.boot := by
  unfold State.hifFault; (try simp only []); (repeat' split) <;> simp
@[simp] theorem State.hifFault_wkt (c f d : Nat) : (s.hifFault c f d).wkt = s.wkt := by
  unfold State.hifFault; (try simp only []); (repeat' split) <;> simp
@[simp] theorem State.hifFault_pins (c f d : Nat) : (s.hifFault c f d).pins = s.pins := by
  unfold State.hifFault; (try simp only []); (repeat' split) <;> simp
@[simp] theorem State.hifFault_lost (c f d : Nat) : (s.hifFault c f d).lost = s.lost := by
  unfold State.hifFault; (try simp only []); (repeat' split) <;> simp
@[simp] theorem State.hifFault_free (c f d : Nat) : (s.hifFault c f d).free = s.free := by
  unfold State.hifFault; (try simp only []); (repeat' split) <;> simp
@[simp] theorem State.hifFault_pending (c f d : Nat) : (s.hifFault c f d).pending = s.pending := by
  unfold State.hifFault; (try simp only []); (repeat' split) <;> simp
@[simp] theorem State.hifFault_byte (c f d : Nat) (a' : Nat) : (s.hifFault c f d).byte a' = s.byte a' := by simp [State.byte]

/-! `State.logHeader` changes `pcie`, `free` only. -/

@[simp] theorem State.logHeader_regs (f : Nat) : (s.logHeader f).regs = s.regs := by
  unfold State.logHeader; simp only []; rw [State.setCfg_regs, foldl_part State.regs] <;> simp
@[simp] theorem State.logHeader_mem (f : Nat) : (s.logHeader f).mem = s.mem := by
  unfold State.logHeader; simp only []; rw [State.setCfg_mem, foldl_part State.mem] <;> simp
@[simp] theorem State.logHeader_poison (f : Nat) : (s.logHeader f).poison = s.poison := by
  unfold State.logHeader; simp only []; rw [State.setCfg_poison, foldl_part State.poison] <;> simp
@[simp] theorem State.logHeader_zeroMap (f : Nat) : (s.logHeader f).zeroMap = s.zeroMap := by
  unfold State.logHeader; simp only []; rw [State.setCfg_zeroMap, foldl_part State.zeroMap] <;> simp
@[simp] theorem State.logHeader_ddr (f : Nat) : (s.logHeader f).ddr = s.ddr := by
  unfold State.logHeader; simp only []; rw [State.setCfg_ddr, foldl_part State.ddr] <;> simp
@[simp] theorem State.logHeader_chCe (f : Nat) : (s.logHeader f).chCe = s.chCe := by
  unfold State.logHeader; simp only []; rw [State.setCfg_chCe, foldl_part State.chCe] <;> simp
@[simp] theorem State.logHeader_chTimes (f : Nat) : (s.logHeader f).chTimes = s.chTimes := by
  unfold State.logHeader; simp only []; rw [State.setCfg_chTimes, foldl_part State.chTimes] <;> simp
@[simp] theorem State.logHeader_chTold (f : Nat) : (s.logHeader f).chTold = s.chTold := by
  unfold State.logHeader; simp only []; rw [State.setCfg_chTold, foldl_part State.chTold] <;> simp
@[simp] theorem State.logHeader_tiles (f : Nat) : (s.logHeader f).tiles = s.tiles := by
  unfold State.logHeader; simp only []; rw [State.setCfg_tiles, foldl_part State.tiles] <;> simp
@[simp] theorem State.logHeader_prm (f : Nat) : (s.logHeader f).prm = s.prm := by
  unfold State.logHeader; simp only []; rw [State.setCfg_prm, foldl_part State.prm] <;> simp
@[simp] theorem State.logHeader_pav (f : Nat) : (s.logHeader f).pav = s.pav := by
  unfold State.logHeader; simp only []; rw [State.setCfg_pav, foldl_part State.pav] <;> simp
@[simp] theorem State.logHeader_frames (f : Nat) : (s.logHeader f).frames = s.frames := by
  unfold State.logHeader; simp only []; rw [State.setCfg_frames, foldl_part State.frames] <;> simp
@[simp] theorem State.logHeader_arb (f : Nat) : (s.logHeader f).arb = s.arb := by
  unfold State.logHeader; simp only []; rw [State.setCfg_arb, foldl_part State.arb] <;> simp
@[simp] theorem State.logHeader_passed (f : Nat) : (s.logHeader f).passed = s.passed := by
  unfold State.logHeader; simp only []; rw [State.setCfg_passed, foldl_part State.passed] <;> simp
@[simp] theorem State.logHeader_acm (f : Nat) : (s.logHeader f).acm = s.acm := by
  unfold State.logHeader; simp only []; rw [State.setCfg_acm, foldl_part State.acm] <;> simp
@[simp] theorem State.logHeader_emt (f : Nat) : (s.logHeader f).emt = s.emt := by
  unfold State.logHeader; simp only []; rw [State.setCfg_emt, foldl_part State.emt] <;> simp
@[simp] theorem State.logHeader_site (f : Nat) : (s.logHeader f).site = s.site := by
  unfold State.logHeader; simp only []; rw [State.setCfg_site, foldl_part State.site] <;> simp
@[simp] theorem State.logHeader_tb (f : Nat) : (s.logHeader f).tb = s.tb := by
  unfold State.logHeader; simp only []; rw [State.setCfg_tb, foldl_part State.tb] <;> simp
@[simp] theorem State.logHeader_clk (f : Nat) : (s.logHeader f).clk = s.clk := by
  unfold State.logHeader; simp only []; rw [State.setCfg_clk, foldl_part State.clk] <;> simp
@[simp] theorem State.logHeader_eth (f : Nat) : (s.logHeader f).eth = s.eth := by
  unfold State.logHeader; simp only []; rw [State.setCfg_eth, foldl_part State.eth] <;> simp
@[simp] theorem State.logHeader_sch (f : Nat) : (s.logHeader f).sch = s.sch := by
  unfold State.logHeader; simp only []; rw [State.setCfg_sch, foldl_part State.sch] <;> simp
@[simp] theorem State.logHeader_cph (f : Nat) : (s.logHeader f).cph = s.cph := by
  unfold State.logHeader; simp only []; rw [State.setCfg_cph, foldl_part State.cph] <;> simp
@[simp] theorem State.logHeader_te (f : Nat) : (s.logHeader f).te = s.te := by
  unfold State.logHeader; simp only []; rw [State.setCfg_te, foldl_part State.te] <;> simp
@[simp] theorem State.logHeader_nve (f : Nat) : (s.logHeader f).nve = s.nve := by
  unfold State.logHeader; simp only []; rw [State.setCfg_nve, foldl_part State.nve] <;> simp
@[simp] theorem State.logHeader_hif (f : Nat) : (s.logHeader f).hif = s.hif := by
  unfold State.logHeader; simp only []; rw [State.setCfg_hif, foldl_part State.hif] <;> simp
@[simp] theorem State.logHeader_harts (f : Nat) : (s.logHeader f).harts = s.harts := by
  unfold State.logHeader; simp only []; rw [State.setCfg_harts, foldl_part State.harts] <;> simp
@[simp] theorem State.logHeader_aia (f : Nat) : (s.logHeader f).aia = s.aia := by
  unfold State.logHeader; simp only []; rw [State.setCfg_aia, foldl_part State.aia] <;> simp
@[simp] theorem State.logHeader_cache (f : Nat) : (s.logHeader f).cache = s.cache := by
  unfold State.logHeader; simp only []; rw [State.setCfg_cache, foldl_part State.cache] <;> simp
@[simp] theorem State.logHeader_pwr (f : Nat) : (s.logHeader f).pwr = s.pwr := by
  unfold State.logHeader; simp only []; rw [State.setCfg_pwr, foldl_part State.pwr] <;> simp
@[simp] theorem State.logHeader_boot (f : Nat) : (s.logHeader f).boot = s.boot := by
  unfold State.logHeader; simp only []; rw [State.setCfg_boot, foldl_part State.boot] <;> simp
@[simp] theorem State.logHeader_wkt (f : Nat) : (s.logHeader f).wkt = s.wkt := by
  unfold State.logHeader; simp only []; rw [State.setCfg_wkt, foldl_part State.wkt] <;> simp
@[simp] theorem State.logHeader_pins (f : Nat) : (s.logHeader f).pins = s.pins := by
  unfold State.logHeader; simp only []; rw [State.setCfg_pins, foldl_part State.pins] <;> simp
@[simp] theorem State.logHeader_lost (f : Nat) : (s.logHeader f).lost = s.lost := by
  unfold State.logHeader; simp only []; rw [State.setCfg_lost, foldl_part State.lost] <;> simp
@[simp] theorem State.logHeader_out (f : Nat) : (s.logHeader f).out = s.out := by
  unfold State.logHeader; simp only []; rw [State.setCfg_out, foldl_part State.out] <;> simp
@[simp] theorem State.logHeader_pending (f : Nat) : (s.logHeader f).pending = s.pending := by
  unfold State.logHeader; simp only []; rw [State.setCfg_pending, foldl_part State.pending] <;> simp
@[simp] theorem State.logHeader_rd (f : Nat) (o' : Nat) : (s.logHeader f).rd o' = s.rd o' := by simp [State.rd]
@[simp] theorem State.logHeader_get (f : Nat) (f' : Fld) : (s.logHeader f).get f' = s.get f' := by simp [State.get]
@[simp] theorem State.logHeader_byte (f : Nat) (a' : Nat) : (s.logHeader f).byte a' = s.byte a' := by simp [State.byte]

/-! `State.aer` changes `pcie`, `out`, `free` only. -/

@[simp] theorem State.aer_regs (f b : Nat) (ad : Bool) : (s.aer f b ad).regs = s.regs := by
  unfold State.aer; (try simp only []); (repeat' split) <;> simp
@[simp] theorem State.aer_mem (f b : Nat) (ad : Bool) : (s.aer f b ad).mem = s.mem := by
  unfold State.aer; (try simp only []); (repeat' split) <;> simp
@[simp] theorem State.aer_poison (f b : Nat) (ad : Bool) : (s.aer f b ad).poison = s.poison := by
  unfold State.aer; (try simp only []); (repeat' split) <;> simp
@[simp] theorem State.aer_zeroMap (f b : Nat) (ad : Bool) : (s.aer f b ad).zeroMap = s.zeroMap := by
  unfold State.aer; (try simp only []); (repeat' split) <;> simp
@[simp] theorem State.aer_ddr (f b : Nat) (ad : Bool) : (s.aer f b ad).ddr = s.ddr := by
  unfold State.aer; (try simp only []); (repeat' split) <;> simp
@[simp] theorem State.aer_chCe (f b : Nat) (ad : Bool) : (s.aer f b ad).chCe = s.chCe := by
  unfold State.aer; (try simp only []); (repeat' split) <;> simp
@[simp] theorem State.aer_chTimes (f b : Nat) (ad : Bool) : (s.aer f b ad).chTimes = s.chTimes := by
  unfold State.aer; (try simp only []); (repeat' split) <;> simp
@[simp] theorem State.aer_chTold (f b : Nat) (ad : Bool) : (s.aer f b ad).chTold = s.chTold := by
  unfold State.aer; (try simp only []); (repeat' split) <;> simp
@[simp] theorem State.aer_tiles (f b : Nat) (ad : Bool) : (s.aer f b ad).tiles = s.tiles := by
  unfold State.aer; (try simp only []); (repeat' split) <;> simp
@[simp] theorem State.aer_prm (f b : Nat) (ad : Bool) : (s.aer f b ad).prm = s.prm := by
  unfold State.aer; (try simp only []); (repeat' split) <;> simp
@[simp] theorem State.aer_pav (f b : Nat) (ad : Bool) : (s.aer f b ad).pav = s.pav := by
  unfold State.aer; (try simp only []); (repeat' split) <;> simp
@[simp] theorem State.aer_frames (f b : Nat) (ad : Bool) : (s.aer f b ad).frames = s.frames := by
  unfold State.aer; (try simp only []); (repeat' split) <;> simp
@[simp] theorem State.aer_arb (f b : Nat) (ad : Bool) : (s.aer f b ad).arb = s.arb := by
  unfold State.aer; (try simp only []); (repeat' split) <;> simp
@[simp] theorem State.aer_passed (f b : Nat) (ad : Bool) : (s.aer f b ad).passed = s.passed := by
  unfold State.aer; (try simp only []); (repeat' split) <;> simp
@[simp] theorem State.aer_acm (f b : Nat) (ad : Bool) : (s.aer f b ad).acm = s.acm := by
  unfold State.aer; (try simp only []); (repeat' split) <;> simp
@[simp] theorem State.aer_emt (f b : Nat) (ad : Bool) : (s.aer f b ad).emt = s.emt := by
  unfold State.aer; (try simp only []); (repeat' split) <;> simp
@[simp] theorem State.aer_site (f b : Nat) (ad : Bool) : (s.aer f b ad).site = s.site := by
  unfold State.aer; (try simp only []); (repeat' split) <;> simp
@[simp] theorem State.aer_tb (f b : Nat) (ad : Bool) : (s.aer f b ad).tb = s.tb := by
  unfold State.aer; (try simp only []); (repeat' split) <;> simp
@[simp] theorem State.aer_clk (f b : Nat) (ad : Bool) : (s.aer f b ad).clk = s.clk := by
  unfold State.aer; (try simp only []); (repeat' split) <;> simp
@[simp] theorem State.aer_eth (f b : Nat) (ad : Bool) : (s.aer f b ad).eth = s.eth := by
  unfold State.aer; (try simp only []); (repeat' split) <;> simp
@[simp] theorem State.aer_sch (f b : Nat) (ad : Bool) : (s.aer f b ad).sch = s.sch := by
  unfold State.aer; (try simp only []); (repeat' split) <;> simp
@[simp] theorem State.aer_cph (f b : Nat) (ad : Bool) : (s.aer f b ad).cph = s.cph := by
  unfold State.aer; (try simp only []); (repeat' split) <;> simp
@[simp] theorem State.aer_te (f b : Nat) (ad : Bool) : (s.aer f b ad).te = s.te := by
  unfold State.aer; (try simp only []); (repeat' split) <;> simp
@[simp] theorem State.aer_nve (f b : Nat) (ad : Bool) : (s.aer f b ad).nve = s.nve := by
  unfold State.aer; (try simp only []); (repeat' split) <;> simp
@[simp] theorem State.aer_hif (f b : Nat) (ad : Bool) : (s.aer f b ad).hif = s.hif := by
  unfold State.aer; (try simp only []); (repeat' split) <;> simp
@[simp] theorem State.aer_harts (f b : Nat) (ad : Bool) : (s.aer f b ad).harts = s.harts := by
  unfold State.aer; (try simp only []); (repeat' split) <;> simp
@[simp] theorem State.aer_aia (f b : Nat) (ad : Bool) : (s.aer f b ad).aia = s.aia := by
  unfold State.aer; (try simp only []); (repeat' split) <;> simp
@[simp] theorem State.aer_cache (f b : Nat) (ad : Bool) : (s.aer f b ad).cache = s.cache := by
  unfold State.aer; (try simp only []); (repeat' split) <;> simp
@[simp] theorem State.aer_pwr (f b : Nat) (ad : Bool) : (s.aer f b ad).pwr = s.pwr := by
  unfold State.aer; (try simp only []); (repeat' split) <;> simp
@[simp] theorem State.aer_boot (f b : Nat) (ad : Bool) : (s.aer f b ad).boot = s.boot := by
  unfold State.aer; (try simp only []); (repeat' split) <;> simp
@[simp] theorem State.aer_wkt (f b : Nat) (ad : Bool) : (s.aer f b ad).wkt = s.wkt := by
  unfold State.aer; (try simp only []); (repeat' split) <;> simp
@[simp] theorem State.aer_pins (f b : Nat) (ad : Bool) : (s.aer f b ad).pins = s.pins := by
  unfold State.aer; (try simp only []); (repeat' split) <;> simp
@[simp] theorem State.aer_lost (f b : Nat) (ad : Bool) : (s.aer f b ad).lost = s.lost := by
  unfold State.aer; (try simp only []); (repeat' split) <;> simp
@[simp] theorem State.aer_pending (f b : Nat) (ad : Bool) : (s.aer f b ad).pending = s.pending := by
  unfold State.aer; (try simp only []); (repeat' split) <;> simp
@[simp] theorem State.aer_rd (f b : Nat) (ad : Bool) (o' : Nat) : (s.aer f b ad).rd o' = s.rd o' := by simp [State.rd]
@[simp] theorem State.aer_get (f b : Nat) (ad : Bool) (f' : Fld) : (s.aer f b ad).get f' = s.get f' := by simp [State.get]
@[simp] theorem State.aer_byte (f b : Nat) (ad : Bool) (a' : Nat) : (s.aer f b ad).byte a' = s.byte a' := by simp [State.byte]

/-! `State.setTdi` changes `pcie` only. -/

@[simp] theorem State.setTdi_regs (f v : Nat) : (s.setTdi f v).regs = s.regs := by
  unfold State.setTdi; (try simp only []); (repeat' split) <;> simp
@[simp] theorem State.setTdi_mem (f v : Nat) : (s.setTdi f v).mem = s.mem := by
  unfold State.setTdi; (try simp only []); (repeat' split) <;> simp
@[simp] theorem State.setTdi_poison (f v : Nat) : (s.setTdi f v).poison = s.poison := by
  unfold State.setTdi; (try simp only []); (repeat' split) <;> simp
@[simp] theorem State.setTdi_zeroMap (f v : Nat) : (s.setTdi f v).zeroMap = s.zeroMap := by
  unfold State.setTdi; (try simp only []); (repeat' split) <;> simp
@[simp] theorem State.setTdi_ddr (f v : Nat) : (s.setTdi f v).ddr = s.ddr := by
  unfold State.setTdi; (try simp only []); (repeat' split) <;> simp
@[simp] theorem State.setTdi_chCe (f v : Nat) : (s.setTdi f v).chCe = s.chCe := by
  unfold State.setTdi; (try simp only []); (repeat' split) <;> simp
@[simp] theorem State.setTdi_chTimes (f v : Nat) : (s.setTdi f v).chTimes = s.chTimes := by
  unfold State.setTdi; (try simp only []); (repeat' split) <;> simp
@[simp] theorem State.setTdi_chTold (f v : Nat) : (s.setTdi f v).chTold = s.chTold := by
  unfold State.setTdi; (try simp only []); (repeat' split) <;> simp
@[simp] theorem State.setTdi_tiles (f v : Nat) : (s.setTdi f v).tiles = s.tiles := by
  unfold State.setTdi; (try simp only []); (repeat' split) <;> simp
@[simp] theorem State.setTdi_prm (f v : Nat) : (s.setTdi f v).prm = s.prm := by
  unfold State.setTdi; (try simp only []); (repeat' split) <;> simp
@[simp] theorem State.setTdi_pav (f v : Nat) : (s.setTdi f v).pav = s.pav := by
  unfold State.setTdi; (try simp only []); (repeat' split) <;> simp
@[simp] theorem State.setTdi_frames (f v : Nat) : (s.setTdi f v).frames = s.frames := by
  unfold State.setTdi; (try simp only []); (repeat' split) <;> simp
@[simp] theorem State.setTdi_arb (f v : Nat) : (s.setTdi f v).arb = s.arb := by
  unfold State.setTdi; (try simp only []); (repeat' split) <;> simp
@[simp] theorem State.setTdi_passed (f v : Nat) : (s.setTdi f v).passed = s.passed := by
  unfold State.setTdi; (try simp only []); (repeat' split) <;> simp
@[simp] theorem State.setTdi_acm (f v : Nat) : (s.setTdi f v).acm = s.acm := by
  unfold State.setTdi; (try simp only []); (repeat' split) <;> simp
@[simp] theorem State.setTdi_emt (f v : Nat) : (s.setTdi f v).emt = s.emt := by
  unfold State.setTdi; (try simp only []); (repeat' split) <;> simp
@[simp] theorem State.setTdi_site (f v : Nat) : (s.setTdi f v).site = s.site := by
  unfold State.setTdi; (try simp only []); (repeat' split) <;> simp
@[simp] theorem State.setTdi_tb (f v : Nat) : (s.setTdi f v).tb = s.tb := by
  unfold State.setTdi; (try simp only []); (repeat' split) <;> simp
@[simp] theorem State.setTdi_clk (f v : Nat) : (s.setTdi f v).clk = s.clk := by
  unfold State.setTdi; (try simp only []); (repeat' split) <;> simp
@[simp] theorem State.setTdi_eth (f v : Nat) : (s.setTdi f v).eth = s.eth := by
  unfold State.setTdi; (try simp only []); (repeat' split) <;> simp
@[simp] theorem State.setTdi_sch (f v : Nat) : (s.setTdi f v).sch = s.sch := by
  unfold State.setTdi; (try simp only []); (repeat' split) <;> simp
@[simp] theorem State.setTdi_cph (f v : Nat) : (s.setTdi f v).cph = s.cph := by
  unfold State.setTdi; (try simp only []); (repeat' split) <;> simp
@[simp] theorem State.setTdi_te (f v : Nat) : (s.setTdi f v).te = s.te := by
  unfold State.setTdi; (try simp only []); (repeat' split) <;> simp
@[simp] theorem State.setTdi_nve (f v : Nat) : (s.setTdi f v).nve = s.nve := by
  unfold State.setTdi; (try simp only []); (repeat' split) <;> simp
@[simp] theorem State.setTdi_hif (f v : Nat) : (s.setTdi f v).hif = s.hif := by
  unfold State.setTdi; (try simp only []); (repeat' split) <;> simp
@[simp] theorem State.setTdi_harts (f v : Nat) : (s.setTdi f v).harts = s.harts := by
  unfold State.setTdi; (try simp only []); (repeat' split) <;> simp
@[simp] theorem State.setTdi_aia (f v : Nat) : (s.setTdi f v).aia = s.aia := by
  unfold State.setTdi; (try simp only []); (repeat' split) <;> simp
@[simp] theorem State.setTdi_cache (f v : Nat) : (s.setTdi f v).cache = s.cache := by
  unfold State.setTdi; (try simp only []); (repeat' split) <;> simp
@[simp] theorem State.setTdi_pwr (f v : Nat) : (s.setTdi f v).pwr = s.pwr := by
  unfold State.setTdi; (try simp only []); (repeat' split) <;> simp
@[simp] theorem State.setTdi_boot (f v : Nat) : (s.setTdi f v).boot = s.boot := by
  unfold State.setTdi; (try simp only []); (repeat' split) <;> simp
@[simp] theorem State.setTdi_wkt (f v : Nat) : (s.setTdi f v).wkt = s.wkt := by
  unfold State.setTdi; (try simp only []); (repeat' split) <;> simp
@[simp] theorem State.setTdi_pins (f v : Nat) : (s.setTdi f v).pins = s.pins := by
  unfold State.setTdi; (try simp only []); (repeat' split) <;> simp
@[simp] theorem State.setTdi_lost (f v : Nat) : (s.setTdi f v).lost = s.lost := by
  unfold State.setTdi; (try simp only []); (repeat' split) <;> simp
@[simp] theorem State.setTdi_out (f v : Nat) : (s.setTdi f v).out = s.out := by
  unfold State.setTdi; (try simp only []); (repeat' split) <;> simp
@[simp] theorem State.setTdi_free (f v : Nat) : (s.setTdi f v).free = s.free := by
  unfold State.setTdi; (try simp only []); (repeat' split) <;> simp
@[simp] theorem State.setTdi_pending (f v : Nat) : (s.setTdi f v).pending = s.pending := by
  unfold State.setTdi; (try simp only []); (repeat' split) <;> simp
@[simp] theorem State.setTdi_rd (f v : Nat) (o' : Nat) : (s.setTdi f v).rd o' = s.rd o' := by simp [State.rd]
@[simp] theorem State.setTdi_get (f v : Nat) (f' : Fld) : (s.setTdi f v).get f' = s.get f' := by simp [State.get]
@[simp] theorem State.setTdi_byte (f v : Nat) (a' : Nat) : (s.setTdi f v).byte a' = s.byte a' := by simp [State.byte]

/-! `State.tdiError` changes `regs`, `pcie`, `out`, `aia` only. -/

@[simp] theorem State.tdiError_mem (f : Nat) : (s.tdiError f).mem = s.mem := by
  unfold State.tdiError; (try simp only []); (repeat' split) <;> simp
@[simp] theorem State.tdiError_poison (f : Nat) : (s.tdiError f).poison = s.poison := by
  unfold State.tdiError; (try simp only []); (repeat' split) <;> simp
@[simp] theorem State.tdiError_zeroMap (f : Nat) : (s.tdiError f).zeroMap = s.zeroMap := by
  unfold State.tdiError; (try simp only []); (repeat' split) <;> simp
@[simp] theorem State.tdiError_ddr (f : Nat) : (s.tdiError f).ddr = s.ddr := by
  unfold State.tdiError; (try simp only []); (repeat' split) <;> simp
@[simp] theorem State.tdiError_chCe (f : Nat) : (s.tdiError f).chCe = s.chCe := by
  unfold State.tdiError; (try simp only []); (repeat' split) <;> simp
@[simp] theorem State.tdiError_chTimes (f : Nat) : (s.tdiError f).chTimes = s.chTimes := by
  unfold State.tdiError; (try simp only []); (repeat' split) <;> simp
@[simp] theorem State.tdiError_chTold (f : Nat) : (s.tdiError f).chTold = s.chTold := by
  unfold State.tdiError; (try simp only []); (repeat' split) <;> simp
@[simp] theorem State.tdiError_tiles (f : Nat) : (s.tdiError f).tiles = s.tiles := by
  unfold State.tdiError; (try simp only []); (repeat' split) <;> simp
@[simp] theorem State.tdiError_prm (f : Nat) : (s.tdiError f).prm = s.prm := by
  unfold State.tdiError; (try simp only []); (repeat' split) <;> simp
@[simp] theorem State.tdiError_pav (f : Nat) : (s.tdiError f).pav = s.pav := by
  unfold State.tdiError; (try simp only []); (repeat' split) <;> simp
@[simp] theorem State.tdiError_frames (f : Nat) : (s.tdiError f).frames = s.frames := by
  unfold State.tdiError; (try simp only []); (repeat' split) <;> simp
@[simp] theorem State.tdiError_arb (f : Nat) : (s.tdiError f).arb = s.arb := by
  unfold State.tdiError; (try simp only []); (repeat' split) <;> simp
@[simp] theorem State.tdiError_passed (f : Nat) : (s.tdiError f).passed = s.passed := by
  unfold State.tdiError; (try simp only []); (repeat' split) <;> simp
@[simp] theorem State.tdiError_acm (f : Nat) : (s.tdiError f).acm = s.acm := by
  unfold State.tdiError; (try simp only []); (repeat' split) <;> simp
@[simp] theorem State.tdiError_emt (f : Nat) : (s.tdiError f).emt = s.emt := by
  unfold State.tdiError; (try simp only []); (repeat' split) <;> simp
@[simp] theorem State.tdiError_site (f : Nat) : (s.tdiError f).site = s.site := by
  unfold State.tdiError; (try simp only []); (repeat' split) <;> simp
@[simp] theorem State.tdiError_tb (f : Nat) : (s.tdiError f).tb = s.tb := by
  unfold State.tdiError; (try simp only []); (repeat' split) <;> simp
@[simp] theorem State.tdiError_clk (f : Nat) : (s.tdiError f).clk = s.clk := by
  unfold State.tdiError; (try simp only []); (repeat' split) <;> simp
@[simp] theorem State.tdiError_eth (f : Nat) : (s.tdiError f).eth = s.eth := by
  unfold State.tdiError; (try simp only []); (repeat' split) <;> simp
@[simp] theorem State.tdiError_sch (f : Nat) : (s.tdiError f).sch = s.sch := by
  unfold State.tdiError; (try simp only []); (repeat' split) <;> simp
@[simp] theorem State.tdiError_cph (f : Nat) : (s.tdiError f).cph = s.cph := by
  unfold State.tdiError; (try simp only []); (repeat' split) <;> simp
@[simp] theorem State.tdiError_te (f : Nat) : (s.tdiError f).te = s.te := by
  unfold State.tdiError; (try simp only []); (repeat' split) <;> simp
@[simp] theorem State.tdiError_nve (f : Nat) : (s.tdiError f).nve = s.nve := by
  unfold State.tdiError; (try simp only []); (repeat' split) <;> simp
@[simp] theorem State.tdiError_hif (f : Nat) : (s.tdiError f).hif = s.hif := by
  unfold State.tdiError; (try simp only []); (repeat' split) <;> simp
@[simp] theorem State.tdiError_harts (f : Nat) : (s.tdiError f).harts = s.harts := by
  unfold State.tdiError; (try simp only []); (repeat' split) <;> simp
@[simp] theorem State.tdiError_cache (f : Nat) : (s.tdiError f).cache = s.cache := by
  unfold State.tdiError; (try simp only []); (repeat' split) <;> simp
@[simp] theorem State.tdiError_pwr (f : Nat) : (s.tdiError f).pwr = s.pwr := by
  unfold State.tdiError; (try simp only []); (repeat' split) <;> simp
@[simp] theorem State.tdiError_boot (f : Nat) : (s.tdiError f).boot = s.boot := by
  unfold State.tdiError; (try simp only []); (repeat' split) <;> simp
@[simp] theorem State.tdiError_wkt (f : Nat) : (s.tdiError f).wkt = s.wkt := by
  unfold State.tdiError; (try simp only []); (repeat' split) <;> simp
@[simp] theorem State.tdiError_pins (f : Nat) : (s.tdiError f).pins = s.pins := by
  unfold State.tdiError; (try simp only []); (repeat' split) <;> simp
@[simp] theorem State.tdiError_lost (f : Nat) : (s.tdiError f).lost = s.lost := by
  unfold State.tdiError; (try simp only []); (repeat' split) <;> simp
@[simp] theorem State.tdiError_free (f : Nat) : (s.tdiError f).free = s.free := by
  unfold State.tdiError; (try simp only []); (repeat' split) <;> simp
@[simp] theorem State.tdiError_pending (f : Nat) : (s.tdiError f).pending = s.pending := by
  unfold State.tdiError; (try simp only []); (repeat' split) <;> simp
@[simp] theorem State.tdiError_byte (f : Nat) (a' : Nat) : (s.tdiError f).byte a' = s.byte a' := by simp [State.byte]

/-! `State.setQuarantine` changes `regs`, `pcie` only. -/

@[simp] theorem State.setQuarantine_mem (l : List (Nat × Nat)) : (s.setQuarantine l).mem = s.mem := by
  unfold State.setQuarantine; simp only []; rw [foldl_part State.mem] <;> simp
@[simp] theorem State.setQuarantine_poison (l : List (Nat × Nat)) : (s.setQuarantine l).poison = s.poison := by
  unfold State.setQuarantine; simp only []; rw [foldl_part State.poison] <;> simp
@[simp] theorem State.setQuarantine_zeroMap (l : List (Nat × Nat)) : (s.setQuarantine l).zeroMap = s.zeroMap := by
  unfold State.setQuarantine; simp only []; rw [foldl_part State.zeroMap] <;> simp
@[simp] theorem State.setQuarantine_ddr (l : List (Nat × Nat)) : (s.setQuarantine l).ddr = s.ddr := by
  unfold State.setQuarantine; simp only []; rw [foldl_part State.ddr] <;> simp
@[simp] theorem State.setQuarantine_chCe (l : List (Nat × Nat)) : (s.setQuarantine l).chCe = s.chCe := by
  unfold State.setQuarantine; simp only []; rw [foldl_part State.chCe] <;> simp
@[simp] theorem State.setQuarantine_chTimes (l : List (Nat × Nat)) : (s.setQuarantine l).chTimes = s.chTimes := by
  unfold State.setQuarantine; simp only []; rw [foldl_part State.chTimes] <;> simp
@[simp] theorem State.setQuarantine_chTold (l : List (Nat × Nat)) : (s.setQuarantine l).chTold = s.chTold := by
  unfold State.setQuarantine; simp only []; rw [foldl_part State.chTold] <;> simp
@[simp] theorem State.setQuarantine_tiles (l : List (Nat × Nat)) : (s.setQuarantine l).tiles = s.tiles := by
  unfold State.setQuarantine; simp only []; rw [foldl_part State.tiles] <;> simp
@[simp] theorem State.setQuarantine_prm (l : List (Nat × Nat)) : (s.setQuarantine l).prm = s.prm := by
  unfold State.setQuarantine; simp only []; rw [foldl_part State.prm] <;> simp
@[simp] theorem State.setQuarantine_pav (l : List (Nat × Nat)) : (s.setQuarantine l).pav = s.pav := by
  unfold State.setQuarantine; simp only []; rw [foldl_part State.pav] <;> simp
@[simp] theorem State.setQuarantine_frames (l : List (Nat × Nat)) : (s.setQuarantine l).frames = s.frames := by
  unfold State.setQuarantine; simp only []; rw [foldl_part State.frames] <;> simp
@[simp] theorem State.setQuarantine_arb (l : List (Nat × Nat)) : (s.setQuarantine l).arb = s.arb := by
  unfold State.setQuarantine; simp only []; rw [foldl_part State.arb] <;> simp
@[simp] theorem State.setQuarantine_passed (l : List (Nat × Nat)) : (s.setQuarantine l).passed = s.passed := by
  unfold State.setQuarantine; simp only []; rw [foldl_part State.passed] <;> simp
@[simp] theorem State.setQuarantine_acm (l : List (Nat × Nat)) : (s.setQuarantine l).acm = s.acm := by
  unfold State.setQuarantine; simp only []; rw [foldl_part State.acm] <;> simp
@[simp] theorem State.setQuarantine_emt (l : List (Nat × Nat)) : (s.setQuarantine l).emt = s.emt := by
  unfold State.setQuarantine; simp only []; rw [foldl_part State.emt] <;> simp
@[simp] theorem State.setQuarantine_site (l : List (Nat × Nat)) : (s.setQuarantine l).site = s.site := by
  unfold State.setQuarantine; simp only []; rw [foldl_part State.site] <;> simp
@[simp] theorem State.setQuarantine_tb (l : List (Nat × Nat)) : (s.setQuarantine l).tb = s.tb := by
  unfold State.setQuarantine; simp only []; rw [foldl_part State.tb] <;> simp
@[simp] theorem State.setQuarantine_clk (l : List (Nat × Nat)) : (s.setQuarantine l).clk = s.clk := by
  unfold State.setQuarantine; simp only []; rw [foldl_part State.clk] <;> simp
@[simp] theorem State.setQuarantine_eth (l : List (Nat × Nat)) : (s.setQuarantine l).eth = s.eth := by
  unfold State.setQuarantine; simp only []; rw [foldl_part State.eth] <;> simp
@[simp] theorem State.setQuarantine_sch (l : List (Nat × Nat)) : (s.setQuarantine l).sch = s.sch := by
  unfold State.setQuarantine; simp only []; rw [foldl_part State.sch] <;> simp
@[simp] theorem State.setQuarantine_cph (l : List (Nat × Nat)) : (s.setQuarantine l).cph = s.cph := by
  unfold State.setQuarantine; simp only []; rw [foldl_part State.cph] <;> simp
@[simp] theorem State.setQuarantine_te (l : List (Nat × Nat)) : (s.setQuarantine l).te = s.te := by
  unfold State.setQuarantine; simp only []; rw [foldl_part State.te] <;> simp
@[simp] theorem State.setQuarantine_nve (l : List (Nat × Nat)) : (s.setQuarantine l).nve = s.nve := by
  unfold State.setQuarantine; simp only []; rw [foldl_part State.nve] <;> simp
@[simp] theorem State.setQuarantine_hif (l : List (Nat × Nat)) : (s.setQuarantine l).hif = s.hif := by
  unfold State.setQuarantine; simp only []; rw [foldl_part State.hif] <;> simp
@[simp] theorem State.setQuarantine_harts (l : List (Nat × Nat)) : (s.setQuarantine l).harts = s.harts := by
  unfold State.setQuarantine; simp only []; rw [foldl_part State.harts] <;> simp
@[simp] theorem State.setQuarantine_aia (l : List (Nat × Nat)) : (s.setQuarantine l).aia = s.aia := by
  unfold State.setQuarantine; simp only []; rw [foldl_part State.aia] <;> simp
@[simp] theorem State.setQuarantine_cache (l : List (Nat × Nat)) : (s.setQuarantine l).cache = s.cache := by
  unfold State.setQuarantine; simp only []; rw [foldl_part State.cache] <;> simp
@[simp] theorem State.setQuarantine_pwr (l : List (Nat × Nat)) : (s.setQuarantine l).pwr = s.pwr := by
  unfold State.setQuarantine; simp only []; rw [foldl_part State.pwr] <;> simp
@[simp] theorem State.setQuarantine_boot (l : List (Nat × Nat)) : (s.setQuarantine l).boot = s.boot := by
  unfold State.setQuarantine; simp only []; rw [foldl_part State.boot] <;> simp
@[simp] theorem State.setQuarantine_wkt (l : List (Nat × Nat)) : (s.setQuarantine l).wkt = s.wkt := by
  unfold State.setQuarantine; simp only []; rw [foldl_part State.wkt] <;> simp
@[simp] theorem State.setQuarantine_pins (l : List (Nat × Nat)) : (s.setQuarantine l).pins = s.pins := by
  unfold State.setQuarantine; simp only []; rw [foldl_part State.pins] <;> simp
@[simp] theorem State.setQuarantine_lost (l : List (Nat × Nat)) : (s.setQuarantine l).lost = s.lost := by
  unfold State.setQuarantine; simp only []; rw [foldl_part State.lost] <;> simp
@[simp] theorem State.setQuarantine_out (l : List (Nat × Nat)) : (s.setQuarantine l).out = s.out := by
  unfold State.setQuarantine; simp only []; rw [foldl_part State.out] <;> simp
@[simp] theorem State.setQuarantine_free (l : List (Nat × Nat)) : (s.setQuarantine l).free = s.free := by
  unfold State.setQuarantine; simp only []; rw [foldl_part State.free] <;> simp
@[simp] theorem State.setQuarantine_pending (l : List (Nat × Nat)) : (s.setQuarantine l).pending = s.pending := by
  unfold State.setQuarantine; simp only []; rw [foldl_part State.pending] <;> simp
@[simp] theorem State.setQuarantine_byte (l : List (Nat × Nat)) (a' : Nat) : (s.setQuarantine l).byte a' = s.byte a' := by simp [State.byte]

/-! `State.requestTimeout` changes `regs`, `pcie`, `out`, `aia`, `free` only. -/

@[simp] theorem State.requestTimeout_mem (f t : Nat) : (s.requestTimeout f t).mem = s.mem := by
  unfold State.requestTimeout; (try simp only []); (repeat' split) <;> simp
@[simp] theorem State.requestTimeout_poison (f t : Nat) : (s.requestTimeout f t).poison = s.poison := by
  unfold State.requestTimeout; (try simp only []); (repeat' split) <;> simp
@[simp] theorem State.requestTimeout_zeroMap (f t : Nat) : (s.requestTimeout f t).zeroMap = s.zeroMap := by
  unfold State.requestTimeout; (try simp only []); (repeat' split) <;> simp
@[simp] theorem State.requestTimeout_ddr (f t : Nat) : (s.requestTimeout f t).ddr = s.ddr := by
  unfold State.requestTimeout; (try simp only []); (repeat' split) <;> simp
@[simp] theorem State.requestTimeout_chCe (f t : Nat) : (s.requestTimeout f t).chCe = s.chCe := by
  unfold State.requestTimeout; (try simp only []); (repeat' split) <;> simp
@[simp] theorem State.requestTimeout_chTimes (f t : Nat) : (s.requestTimeout f t).chTimes = s.chTimes := by
  unfold State.requestTimeout; (try simp only []); (repeat' split) <;> simp
@[simp] theorem State.requestTimeout_chTold (f t : Nat) : (s.requestTimeout f t).chTold = s.chTold := by
  unfold State.requestTimeout; (try simp only []); (repeat' split) <;> simp
@[simp] theorem State.requestTimeout_tiles (f t : Nat) : (s.requestTimeout f t).tiles = s.tiles := by
  unfold State.requestTimeout; (try simp only []); (repeat' split) <;> simp
@[simp] theorem State.requestTimeout_prm (f t : Nat) : (s.requestTimeout f t).prm = s.prm := by
  unfold State.requestTimeout; (try simp only []); (repeat' split) <;> simp
@[simp] theorem State.requestTimeout_pav (f t : Nat) : (s.requestTimeout f t).pav = s.pav := by
  unfold State.requestTimeout; (try simp only []); (repeat' split) <;> simp
@[simp] theorem State.requestTimeout_frames (f t : Nat) : (s.requestTimeout f t).frames = s.frames := by
  unfold State.requestTimeout; (try simp only []); (repeat' split) <;> simp
@[simp] theorem State.requestTimeout_arb (f t : Nat) : (s.requestTimeout f t).arb = s.arb := by
  unfold State.requestTimeout; (try simp only []); (repeat' split) <;> simp
@[simp] theorem State.requestTimeout_passed (f t : Nat) : (s.requestTimeout f t).passed = s.passed := by
  unfold State.requestTimeout; (try simp only []); (repeat' split) <;> simp
@[simp] theorem State.requestTimeout_acm (f t : Nat) : (s.requestTimeout f t).acm = s.acm := by
  unfold State.requestTimeout; (try simp only []); (repeat' split) <;> simp
@[simp] theorem State.requestTimeout_emt (f t : Nat) : (s.requestTimeout f t).emt = s.emt := by
  unfold State.requestTimeout; (try simp only []); (repeat' split) <;> simp
@[simp] theorem State.requestTimeout_site (f t : Nat) : (s.requestTimeout f t).site = s.site := by
  unfold State.requestTimeout; (try simp only []); (repeat' split) <;> simp
@[simp] theorem State.requestTimeout_tb (f t : Nat) : (s.requestTimeout f t).tb = s.tb := by
  unfold State.requestTimeout; (try simp only []); (repeat' split) <;> simp
@[simp] theorem State.requestTimeout_clk (f t : Nat) : (s.requestTimeout f t).clk = s.clk := by
  unfold State.requestTimeout; (try simp only []); (repeat' split) <;> simp
@[simp] theorem State.requestTimeout_eth (f t : Nat) : (s.requestTimeout f t).eth = s.eth := by
  unfold State.requestTimeout; (try simp only []); (repeat' split) <;> simp
@[simp] theorem State.requestTimeout_sch (f t : Nat) : (s.requestTimeout f t).sch = s.sch := by
  unfold State.requestTimeout; (try simp only []); (repeat' split) <;> simp
@[simp] theorem State.requestTimeout_cph (f t : Nat) : (s.requestTimeout f t).cph = s.cph := by
  unfold State.requestTimeout; (try simp only []); (repeat' split) <;> simp
@[simp] theorem State.requestTimeout_te (f t : Nat) : (s.requestTimeout f t).te = s.te := by
  unfold State.requestTimeout; (try simp only []); (repeat' split) <;> simp
@[simp] theorem State.requestTimeout_nve (f t : Nat) : (s.requestTimeout f t).nve = s.nve := by
  unfold State.requestTimeout; (try simp only []); (repeat' split) <;> simp
@[simp] theorem State.requestTimeout_hif (f t : Nat) : (s.requestTimeout f t).hif = s.hif := by
  unfold State.requestTimeout; (try simp only []); (repeat' split) <;> simp
@[simp] theorem State.requestTimeout_harts (f t : Nat) : (s.requestTimeout f t).harts = s.harts := by
  unfold State.requestTimeout; (try simp only []); (repeat' split) <;> simp
@[simp] theorem State.requestTimeout_cache (f t : Nat) : (s.requestTimeout f t).cache = s.cache := by
  unfold State.requestTimeout; (try simp only []); (repeat' split) <;> simp
@[simp] theorem State.requestTimeout_pwr (f t : Nat) : (s.requestTimeout f t).pwr = s.pwr := by
  unfold State.requestTimeout; (try simp only []); (repeat' split) <;> simp
@[simp] theorem State.requestTimeout_boot (f t : Nat) : (s.requestTimeout f t).boot = s.boot := by
  unfold State.requestTimeout; (try simp only []); (repeat' split) <;> simp
@[simp] theorem State.requestTimeout_wkt (f t : Nat) : (s.requestTimeout f t).wkt = s.wkt := by
  unfold State.requestTimeout; (try simp only []); (repeat' split) <;> simp
@[simp] theorem State.requestTimeout_pins (f t : Nat) : (s.requestTimeout f t).pins = s.pins := by
  unfold State.requestTimeout; (try simp only []); (repeat' split) <;> simp
@[simp] theorem State.requestTimeout_lost (f t : Nat) : (s.requestTimeout f t).lost = s.lost := by
  unfold State.requestTimeout; (try simp only []); (repeat' split) <;> simp
@[simp] theorem State.requestTimeout_pending (f t : Nat) : (s.requestTimeout f t).pending = s.pending := by
  unfold State.requestTimeout; (try simp only []); (repeat' split) <;> simp
@[simp] theorem State.requestTimeout_byte (f t : Nat) (a' : Nat) : (s.requestTimeout f t).byte a' = s.byte a' := by simp [State.byte]

/-! `State.poisonedCompletion` changes `regs`, `pcie`, `out`, `aia`, `free` only. -/

@[simp] theorem State.poisonedCompletion_mem (f : Nat) : (s.poisonedCompletion f).mem = s.mem := by
  unfold State.poisonedCompletion; (try simp only []); (repeat' split) <;> simp
@[simp] theorem State.poisonedCompletion_poison (f : Nat) : (s.poisonedCompletion f).poison = s.poison := by
  unfold State.poisonedCompletion; (try simp only []); (repeat' split) <;> simp
@[simp] theorem State.poisonedCompletion_zeroMap (f : Nat) : (s.poisonedCompletion f).zeroMap = s.zeroMap := by
  unfold State.poisonedCompletion; (try simp only []); (repeat' split) <;> simp
@[simp] theorem State.poisonedCompletion_ddr (f : Nat) : (s.poisonedCompletion f).ddr = s.ddr := by
  unfold State.poisonedCompletion; (try simp only []); (repeat' split) <;> simp
@[simp] theorem State.poisonedCompletion_chCe (f : Nat) : (s.poisonedCompletion f).chCe = s.chCe := by
  unfold State.poisonedCompletion; (try simp only []); (repeat' split) <;> simp
@[simp] theorem State.poisonedCompletion_chTimes (f : Nat) : (s.poisonedCompletion f).chTimes = s.chTimes := by
  unfold State.poisonedCompletion; (try simp only []); (repeat' split) <;> simp
@[simp] theorem State.poisonedCompletion_chTold (f : Nat) : (s.poisonedCompletion f).chTold = s.chTold := by
  unfold State.poisonedCompletion; (try simp only []); (repeat' split) <;> simp
@[simp] theorem State.poisonedCompletion_tiles (f : Nat) : (s.poisonedCompletion f).tiles = s.tiles := by
  unfold State.poisonedCompletion; (try simp only []); (repeat' split) <;> simp
@[simp] theorem State.poisonedCompletion_prm (f : Nat) : (s.poisonedCompletion f).prm = s.prm := by
  unfold State.poisonedCompletion; (try simp only []); (repeat' split) <;> simp
@[simp] theorem State.poisonedCompletion_pav (f : Nat) : (s.poisonedCompletion f).pav = s.pav := by
  unfold State.poisonedCompletion; (try simp only []); (repeat' split) <;> simp
@[simp] theorem State.poisonedCompletion_frames (f : Nat) : (s.poisonedCompletion f).frames = s.frames := by
  unfold State.poisonedCompletion; (try simp only []); (repeat' split) <;> simp
@[simp] theorem State.poisonedCompletion_arb (f : Nat) : (s.poisonedCompletion f).arb = s.arb := by
  unfold State.poisonedCompletion; (try simp only []); (repeat' split) <;> simp
@[simp] theorem State.poisonedCompletion_passed (f : Nat) : (s.poisonedCompletion f).passed = s.passed := by
  unfold State.poisonedCompletion; (try simp only []); (repeat' split) <;> simp
@[simp] theorem State.poisonedCompletion_acm (f : Nat) : (s.poisonedCompletion f).acm = s.acm := by
  unfold State.poisonedCompletion; (try simp only []); (repeat' split) <;> simp
@[simp] theorem State.poisonedCompletion_emt (f : Nat) : (s.poisonedCompletion f).emt = s.emt := by
  unfold State.poisonedCompletion; (try simp only []); (repeat' split) <;> simp
@[simp] theorem State.poisonedCompletion_site (f : Nat) : (s.poisonedCompletion f).site = s.site := by
  unfold State.poisonedCompletion; (try simp only []); (repeat' split) <;> simp
@[simp] theorem State.poisonedCompletion_tb (f : Nat) : (s.poisonedCompletion f).tb = s.tb := by
  unfold State.poisonedCompletion; (try simp only []); (repeat' split) <;> simp
@[simp] theorem State.poisonedCompletion_clk (f : Nat) : (s.poisonedCompletion f).clk = s.clk := by
  unfold State.poisonedCompletion; (try simp only []); (repeat' split) <;> simp
@[simp] theorem State.poisonedCompletion_eth (f : Nat) : (s.poisonedCompletion f).eth = s.eth := by
  unfold State.poisonedCompletion; (try simp only []); (repeat' split) <;> simp
@[simp] theorem State.poisonedCompletion_sch (f : Nat) : (s.poisonedCompletion f).sch = s.sch := by
  unfold State.poisonedCompletion; (try simp only []); (repeat' split) <;> simp
@[simp] theorem State.poisonedCompletion_cph (f : Nat) : (s.poisonedCompletion f).cph = s.cph := by
  unfold State.poisonedCompletion; (try simp only []); (repeat' split) <;> simp
@[simp] theorem State.poisonedCompletion_te (f : Nat) : (s.poisonedCompletion f).te = s.te := by
  unfold State.poisonedCompletion; (try simp only []); (repeat' split) <;> simp
@[simp] theorem State.poisonedCompletion_nve (f : Nat) : (s.poisonedCompletion f).nve = s.nve := by
  unfold State.poisonedCompletion; (try simp only []); (repeat' split) <;> simp
@[simp] theorem State.poisonedCompletion_hif (f : Nat) : (s.poisonedCompletion f).hif = s.hif := by
  unfold State.poisonedCompletion; (try simp only []); (repeat' split) <;> simp
@[simp] theorem State.poisonedCompletion_harts (f : Nat) : (s.poisonedCompletion f).harts = s.harts := by
  unfold State.poisonedCompletion; (try simp only []); (repeat' split) <;> simp
@[simp] theorem State.poisonedCompletion_cache (f : Nat) : (s.poisonedCompletion f).cache = s.cache := by
  unfold State.poisonedCompletion; (try simp only []); (repeat' split) <;> simp
@[simp] theorem State.poisonedCompletion_pwr (f : Nat) : (s.poisonedCompletion f).pwr = s.pwr := by
  unfold State.poisonedCompletion; (try simp only []); (repeat' split) <;> simp
@[simp] theorem State.poisonedCompletion_boot (f : Nat) : (s.poisonedCompletion f).boot = s.boot := by
  unfold State.poisonedCompletion; (try simp only []); (repeat' split) <;> simp
@[simp] theorem State.poisonedCompletion_wkt (f : Nat) : (s.poisonedCompletion f).wkt = s.wkt := by
  unfold State.poisonedCompletion; (try simp only []); (repeat' split) <;> simp
@[simp] theorem State.poisonedCompletion_pins (f : Nat) : (s.poisonedCompletion f).pins = s.pins := by
  unfold State.poisonedCompletion; (try simp only []); (repeat' split) <;> simp
@[simp] theorem State.poisonedCompletion_lost (f : Nat) : (s.poisonedCompletion f).lost = s.lost := by
  unfold State.poisonedCompletion; (try simp only []); (repeat' split) <;> simp
@[simp] theorem State.poisonedCompletion_pending (f : Nat) : (s.poisonedCompletion f).pending = s.pending := by
  unfold State.poisonedCompletion; (try simp only []); (repeat' split) <;> simp
@[simp] theorem State.poisonedCompletion_byte (f : Nat) (a' : Nat) : (s.poisonedCompletion f).byte a' = s.byte a' := by simp [State.byte]

/-! ### Which registers a fault changes -/

theorem State.fltRefresh_rd_ne (u o : Nat) (h : o ≠ R.FLT_SUMMARY) : (s.fltRefresh u).rd o = s.rd o := by
  unfold State.fltRefresh
  simp only []
  (repeat' split) <;> simp [State.rd_wr, h]

theorem State.capture_rd_ne (u c e o : Nat) (h1 : o ≠ errFirst u) (h2 : o ≠ errCount u) : (s.capture u c e).rd o = s.rd o := by
  unfold State.capture
  simp only []
  split <;> simp [State.count, State.rd_set, State.rd_wr, h1, h2]

theorem State.setStatus_rd_ne (u b o : Nat) (h1 : o ≠ errStatus u) (h2 : o ≠ R.FLT_SUMMARY) :
    (s.setStatus u b).rd o = s.rd o := by
  unfold State.setStatus
  rw [State.fltRefresh_rd_ne _ _ _ h2, State.rd_wr_ne _ _ h1]

/-- A fault changes the error registers of its unit and FLT's summary only. -/
theorem State.fault_rd_ne (u c b e o : Nat) (h1 : o ≠ errStatus u) (h2 : o ≠ errFirst u) (h3 : o ≠ errCount u)
    (h4 : o ≠ R.FLT_SUMMARY) : (s.fault u c b e).rd o = s.rd o := by
  unfold State.fault
  rw [State.setStatus_rd_ne _ _ _ _ h1 h4, State.capture_rd_ne _ _ _ _ _ h2 h3]

theorem State.fault_get_ne (u c b e : Nat) (f : Fld) (h1 : f.off ≠ errStatus u) (h2 : f.off ≠ errFirst u)
    (h3 : f.off ≠ errCount u) (h4 : f.off ≠ R.FLT_SUMMARY) : (s.fault u c b e).get f = s.get f := by
  simp only [State.get, State.fault_rd_ne _ _ _ _ _ _ h1 h2 h3 h4]

theorem State.common_get_ne (u c : Nat) (f : Fld) (h2 : f.off ≠ errFirst u) (h3 : f.off ≠ errCount u) :
    (s.common u c).get f = s.get f := by
  simp only [State.get, State.common, State.capture_rd_ne _ _ _ _ _ h2 h3]

/-- The counter of a unit's errors after one more. -/
theorem State.common_count (u c : Nat) (h : errFirst u ≠ errCount u) :
    (s.common u c).get ⟨errCount u, 31, 0⟩ = satInc 0xFFFFFFFF (s.get ⟨errCount u, 31, 0⟩) % 2 ^ 32 := by
  unfold State.common State.capture State.count
  simp only []
  split <;> rw [State.get_set_same _ _ (by simp) (by simp)] <;> simp [State.get, State.rd_wr, h.symm]

/-- A status bit that a fault sets. -/
theorem State.fault_status (u c b e : Nat) (hb : b < 64) (h1 : errStatus u ≠ R.FLT_SUMMARY) (h2 : errStatus u ≠ errFirst u)
    (h3 : errStatus u ≠ errCount u) : (s.fault u c b e).get ⟨errStatus u, b, b⟩ = 1 := by
  unfold State.fault State.setStatus State.get
  simp only []
  rw [State.fltRefresh_rd_ne _ _ _ h1, State.rd_wr_same]
  unfold setBit
  rw [bitsAt_setBits_same _ _ _ _ (Nat.le_refl b) hb]
  simp

end Sys2Proof.Machine
end

