-- ==== Sys2Proof/Laws/Keep.lean ====
section
/-! SUPPORT. What an operation keeps: memory where it stores nothing, the queue of waiting commands always, and
the canonical form of the stores. One set of lemmas per operation stands in Laws/Keep<File>.lean. -/

namespace Sys2Proof.Machine

set_option linter.all false
set_option Elab.async false

/-- The answer is a next state with memory and the queue as they were, canonical if the old one was. -/
def Res.quiet (s : State) (r : Res) : Prop :=
  ∃ t, r = .next t ∧ t.mem = s.mem ∧ t.pending = s.pending ∧ (s.canonical = true → t.canonical = true)

/-- The answer is a next state with the queue as it was, canonical if the old one was. -/
def Res.stays (s : State) (r : Res) : Prop :=
  ∃ t, r = .next t ∧ t.pending = s.pending ∧ (s.canonical = true → t.canonical = true)

@[simp] theorem Res.quiet_next {s t : State} : Res.quiet s (.next t) ↔
    t.mem = s.mem ∧ t.pending = s.pending ∧ (s.canonical = true → t.canonical = true) := by
  simp [Res.quiet]

@[simp] theorem Res.stays_next {s t : State} : Res.stays s (.next t) ↔
    t.pending = s.pending ∧ (s.canonical = true → t.canonical = true) := by
  simp [Res.stays]

@[simp] theorem Res.quiet_ite {s : State} (p : Prop) [Decidable p] (a b : Res) :
    Res.quiet s (if p then a else b) ↔ if p then Res.quiet s a else Res.quiet s b := by split <;> rfl

@[simp] theorem Res.stays_ite {s : State} (p : Prop) [Decidable p] (a b : Res) :
    Res.stays s (if p then a else b) ↔ if p then Res.stays s a else Res.stays s b := by split <;> rfl

theorem Res.quiet_stays {s : State} {r : Res} (h : Res.quiet s r) : Res.stays s r := by
  obtain ⟨t, h1, h2, h3, h4⟩ := h; exact ⟨t, h1, h3, h4⟩

variable {α β : Type}

@[simp] theorem foldl_mem (g : State → α → State) (l : List α) (s : State) (h : ∀ s x, (g s x).mem = s.mem) :
    (l.foldl g s).mem = s.mem := by
  induction l generalizing s with
  | nil => rfl
  | cons a l ih => simp [ih, h]

@[simp] theorem foldl_pending (g : State → α → State) (l : List α) (s : State)
    (h : ∀ s x, (g s x).pending = s.pending) : (l.foldl g s).pending = s.pending := by
  induction l generalizing s with
  | nil => rfl
  | cons a l ih => simp [ih, h]

@[simp] theorem foldl_canonical (g : State → α → State) (l : List α) (s : State)
    (h : ∀ s x, s.canonical = true → (g s x).canonical = true) (hs : s.canonical = true) :
    (l.foldl g s).canonical = true := by
  induction l generalizing s with
  | nil => exact hs
  | cons a l ih => exact ih _ (h _ _ hs)

@[simp] theorem foldl_snd_mem (g : β × State → α → β × State) (l : List α) (a : β × State)
    (h : ∀ a x, (g a x).2.mem = a.2.mem) : (l.foldl g a).2.mem = a.2.mem := by
  induction l generalizing a with
  | nil => rfl
  | cons x l ih => simp [ih, h]

@[simp] theorem foldl_snd_pending (g : β × State → α → β × State) (l : List α) (a : β × State)
    (h : ∀ a x, (g a x).2.pending = a.2.pending) : (l.foldl g a).2.pending = a.2.pending := by
  induction l generalizing a with
  | nil => rfl
  | cons x l ih => simp [ih, h]

@[simp] theorem foldl_snd_canonical (g : β × State → α → β × State) (l : List α) (a : β × State)
    (h : ∀ a x, a.2.canonical = true → (g a x).2.canonical = true) (hs : a.2.canonical = true) :
    (l.foldl g a).2.canonical = true := by
  induction l generalizing a with
  | nil => exact hs
  | cons x l ih => exact ih _ (h _ _ hs)

variable (s : State)

@[simp] theorem ite_mem (p : Prop) [Decidable p] (a b : State) : (if p then a else b).mem = if p then a.mem else b.mem := by
  split <;> rfl
@[simp] theorem ite_pending (p : Prop) [Decidable p] (a b : State) :
    (if p then a else b).pending = if p then a.pending else b.pending := by split <;> rfl
@[simp] theorem ite_canonical (p : Prop) [Decidable p] (a b : State) :
    (if p then a else b).canonical = if p then a.canonical else b.canonical := by split <;> rfl

@[simp] theorem State.withPoison_canonical (x : Sparse Bool) : (s.withPoison x).canonical = s.canonical := by rfl
@[simp] theorem State.withZeroMap_canonical (x : List (Nat × Nat)) : (s.withZeroMap x).canonical = s.canonical := by rfl
@[simp] theorem State.withDdr_canonical (x : List Nat) : (s.withDdr x).canonical = s.canonical := by rfl
@[simp] theorem State.withChCe_canonical (x : Sparse Nat) : (s.withChCe x).canonical = s.canonical := by rfl
@[simp] theorem State.withChTimes_canonical (x : Sparse (List Nat)) : (s.withChTimes x).canonical = s.canonical := by rfl
@[simp] theorem State.withChTold_canonical (x : Sparse Nat) : (s.withChTold x).canonical = s.canonical := by rfl
@[simp] theorem State.withTiles_canonical (x : Sparse Tile) : (s.withTiles x).canonical = s.canonical := by rfl
@[simp] theorem State.withPrm_canonical (x : PrmState) : (s.withPrm x).canonical = s.canonical := by rfl
@[simp] theorem State.withPav_canonical (x : PavState) : (s.withPav x).canonical = s.canonical := by rfl
@[simp] theorem State.withFrames_canonical (x : List SrcFrame) : (s.withFrames x).canonical = s.canonical := by rfl
@[simp] theorem State.withArb_canonical (x : ArbState) : (s.withArb x).canonical = s.canonical := by rfl
@[simp] theorem State.withPassed_canonical (x : List Committed) : (s.withPassed x).canonical = s.canonical := by rfl
@[simp] theorem State.withAcm_canonical (x : AcmState) : (s.withAcm x).canonical = s.canonical := by rfl
@[simp] theorem State.withEmt_canonical (x : EmtState) : (s.withEmt x).canonical = s.canonical := by rfl
@[simp] theorem State.withSite_canonical (x : SiteState) : (s.withSite x).canonical = s.canonical := by rfl
@[simp] theorem State.withTb_canonical (x : Sparse Timebase) : (s.withTb x).canonical = s.canonical := by rfl
@[simp] theorem State.withClk_canonical (x : ClockState) : (s.withClk x).canonical = s.canonical := by rfl
@[simp] theorem State.withEth_canonical (x : EthState) : (s.withEth x).canonical = s.canonical := by rfl
@[simp] theorem State.withSch_canonical (x : SchState) : (s.withSch x).canonical = s.canonical := by rfl
@[simp] theorem State.withCph_canonical (x : CphState) : (s.withCph x).canonical = s.canonical := by rfl
@[simp] theorem State.withTe_canonical (x : TeState) : (s.withTe x).canonical = s.canonical := by rfl
@[simp] theorem State.withNve_canonical (x : NveState) : (s.withNve x).canonical = s.canonical := by rfl
@[simp] theorem State.withHif_canonical (x : HifState) : (s.withHif x).canonical = s.canonical := by rfl
@[simp] theorem State.withPcie_canonical (x : PcieState) : (s.withPcie x).canonical = s.canonical := by rfl
@[simp] theorem State.withHarts_canonical (x : Sparse Hart) : (s.withHarts x).canonical = s.canonical := by rfl
@[simp] theorem State.withAia_canonical (x : AiaState) : (s.withAia x).canonical = s.canonical := by rfl
@[simp] theorem State.withCache_canonical (x : Sparse CacheLine) : (s.withCache x).canonical = s.canonical := by rfl
@[simp] theorem State.withPwr_canonical (x : PwrState) : (s.withPwr x).canonical = s.canonical := by rfl
@[simp] theorem State.withBoot_canonical (x : BootState) : (s.withBoot x).canonical = s.canonical := by rfl
@[simp] theorem State.withWkt_canonical (x : WktState) : (s.withWkt x).canonical = s.canonical := by rfl
@[simp] theorem State.withPins_canonical (x : Pins) : (s.withPins x).canonical = s.canonical := by rfl
@[simp] theorem State.withLost_canonical (x : List (Nat × Nat)) : (s.withLost x).canonical = s.canonical := by rfl
@[simp] theorem State.withOut_canonical (x : List Output) : (s.withOut x).canonical = s.canonical := by rfl
@[simp] theorem State.withFree_canonical (x : Nat) : (s.withFree x).canonical = s.canonical := by rfl
@[simp] theorem State.withPending_canonical (x : List Instr) : (s.withPending x).canonical = s.canonical := by rfl

@[simp] theorem State.wr_canonical (o : Nat) (w : Word) (h : s.canonical = true) : (s.wr o w).canonical = true := by
  simp only [State.canonical, Bool.and_eq_true] at *
  exact ⟨h.1, spWf_set h.2 _ _⟩
@[simp] theorem State.set_canonical (f : Fld) (n : Nat) (h : s.canonical = true) : (s.set f n).canonical = true :=
  State.wr_canonical _ _ _ h
@[simp] theorem State.putByte_canonical (a : Nat) (b : Byte) (h : s.canonical = true) :
    (s.putByte a b).canonical = true := by
  simp only [State.canonical, Bool.and_eq_true] at *
  exact ⟨spWf_set h.1 _ _, h.2⟩
@[simp] theorem State.zeroRange_canonical (a n : Nat) (h : s.canonical = true) :
    (s.zeroRange a n).canonical = true := by
  simp only [State.canonical, Bool.and_eq_true] at *
  exact ⟨spWf_filter h.1 _, h.2⟩
@[simp] theorem State.withMem_filter_canonical (p : Host.Cell → Bool) (t : State) (h : s.canonical = true) (ht : t.canonical = true) :
    (s.withMem (t.mem.filter p)).canonical = true := by
  simp only [State.canonical, Bool.and_eq_true] at *
  exact ⟨spWf_filter ht.1 _, h.2⟩
@[simp] theorem State.withRegs_filter_canonical (p : Nat × Word → Bool) (t : State) (h : s.canonical = true) (ht : t.canonical = true) :
    (s.withRegs (t.regs.filter p)).canonical = true := by
  simp only [State.canonical, Bool.and_eq_true] at *
  exact ⟨h.1, spWf_filter ht.2 _⟩

end Sys2Proof.Machine
end

