-- ==== Sys2Proof/Laws/KeepOps.lean ====
section
/-! SUPPORT. Machine/Ops.lean: what each of its operations keeps (memory where it stores nothing, the queue, the
canonical form of the stores). -/

namespace Sys2Proof.Machine

set_option linter.all false
set_option Elab.async false

-- DROP State.wr_mem
-- DROP State.wr_pending
-- DROP State.wr_canonical
-- DROP State.set_mem
-- DROP State.set_pending
-- DROP State.set_canonical
@[simp] theorem State.sets_canonical (s : State) (l : List (Fld × Nat)) (hs : s.canonical = true) : (State.sets s l).canonical = true := by
  unfold State.sets; simp +contextual (maxDischargeDepth := 64) [hs]
@[simp] theorem State.count_canonical (s : State) (f : Fld) (hs : s.canonical = true) : (State.count s f).canonical = true := by
  unfold State.count; simp +contextual (maxDischargeDepth := 64) [hs]
@[simp] theorem State.countBy_canonical (s : State) (f : Fld) (n : Nat) (hs : s.canonical = true) : (State.countBy s f n).canonical = true := by
  unfold State.countBy; simp +contextual (maxDischargeDepth := 64) [hs]
@[simp] theorem State.wrapBy_canonical (s : State) (f : Fld) (n : Nat) (hs : s.canonical = true) : (State.wrapBy s f n).canonical = true := by
  unfold State.wrapBy; simp +contextual (maxDischargeDepth := 64) [hs]
@[simp] theorem State.emit_canonical (s : State) (o : Output) (hs : s.canonical = true) : (State.emit s o).canonical = true := by
  unfold State.emit; simp +contextual (maxDischargeDepth := 64) [hs]
@[simp] theorem State.emits_canonical (s : State) (l : List Output) (hs : s.canonical = true) : (State.emits s l).canonical = true := by
  unfold State.emits; simp +contextual (maxDischargeDepth := 64) [hs]
@[simp] theorem State.takeFree_canonical (s : State) (hs : s.canonical = true) : (State.takeFree s).2.canonical = true := by
  unfold State.takeFree; simp +contextual (maxDischargeDepth := 64) [hs]
theorem State.takeFree_keeps {s : State} {r0 r1} (hx : State.takeFree s = (r0, r1)) : r1.pending = s.pending ∧ (s.canonical = true → r1.canonical = true) ∧ r1.mem = s.mem := by
  have pending' := State.takeFree_pending s
  rw [hx] at pending'
  have canonical' := fun hs => State.takeFree_canonical s hs
  rw [hx] at canonical'
  have mem' := State.takeFree_mem s
  rw [hx] at mem'
  exact ⟨pending', canonical', mem'⟩
-- DROP State.putByte_mem
-- DROP State.putByte_pending
-- DROP State.putByte_canonical
@[simp] theorem State.markPoison_mem (s : State) (a : Nat) (x1 : Nat) : (State.markPoison s a x1).mem = s.mem := by
  fun_induction State.markPoison s a x1 <;> simp_all (maxDischargeDepth := 64)
@[simp] theorem State.markPoison_pending (s : State) (a : Nat) (x1 : Nat) : (State.markPoison s a x1).pending = s.pending := by
  fun_induction State.markPoison s a x1 <;> simp_all (maxDischargeDepth := 64)
@[simp] theorem State.markPoison_canonical (s : State) (a : Nat) (x1 : Nat) (hs : s.canonical = true) : (State.markPoison s a x1).canonical = true := by
  fun_induction State.markPoison s a x1 <;> simp_all (maxDischargeDepth := 64)
@[simp] theorem State.putBytes_canonical (s : State) (a : Nat) (x1 : List Byte) (hs : s.canonical = true) : (State.putBytes s a x1).canonical = true := by
  fun_induction State.putBytes s a x1 <;> simp_all (maxDischargeDepth := 64)
-- DROP State.zeroRange_mem
-- DROP State.zeroRange_pending
-- DROP State.zeroRange_canonical
@[simp] theorem State.setTbase_canonical (s : State) (k : Nat) (t : Timebase) (hs : s.canonical = true) : (State.setTbase s k t).canonical = true := by
  unfold State.setTbase; simp +contextual (maxDischargeDepth := 64) [hs]
@[simp] theorem State.setCfg_canonical (s : State) (f o v : Nat) (hs : s.canonical = true) : (State.setCfg s f o v).canonical = true := by
  unfold State.setCfg; simp +contextual (maxDischargeDepth := 64) [hs]
@[simp] theorem State.orCfg_canonical (s : State) (f o v : Nat) (hs : s.canonical = true) : (State.orCfg s f o v).canonical = true := by
  unfold State.orCfg; simp +contextual (maxDischargeDepth := 64) [hs]
@[simp] theorem State.setMsixWord_canonical (s : State) (f v half : Nat) (w : Word) (hs : s.canonical = true) : (State.setMsixWord s f v half w).canonical = true := by
  unfold State.setMsixWord; simp +contextual (maxDischargeDepth := 64) [hs]
@[simp] theorem State.setMsixPending_canonical (s : State) (f v : Nat) (b : Bool) (hs : s.canonical = true) : (State.setMsixPending s f v b).canonical = true := by
  unfold State.setMsixPending; simp +contextual (maxDischargeDepth := 64) [hs]
@[simp] theorem State.l1Exit_canonical (s : State) (f : Nat) (hs : s.canonical = true) : (State.l1Exit s f).canonical = true := by
  unfold State.l1Exit; simp +contextual (maxDischargeDepth := 64) [hs]
@[simp] theorem State.hostSend_canonical (s : State) (f : Nat) (o : Output) (hs : s.canonical = true) : (State.hostSend s f o).canonical = true := by
  unfold State.hostSend; (try simp only []); (repeat' split) <;> simp +contextual (maxDischargeDepth := 64) [hs]
@[simp] theorem State.raiseMsix_canonical (s : State) (f v : Nat) (hs : s.canonical = true) : (State.raiseMsix s f v).canonical = true := by
  unfold State.raiseMsix; simp +contextual (maxDischargeDepth := 64) [hs]
@[simp] theorem State.msixRelease_canonical (s : State) (f v : Nat) (hs : s.canonical = true) : (State.msixRelease s f v).canonical = true := by
  unfold State.msixRelease; simp +contextual (maxDischargeDepth := 64) [hs]
@[simp] theorem State.setAplic_canonical (s : State) (d : Nat) (x : AplicDomain) (hs : s.canonical = true) : (State.setAplic s d x).canonical = true := by
  unfold State.setAplic; (try simp only []); (repeat' split) <;> simp +contextual (maxDischargeDepth := 64) [hs]
@[simp] theorem State.aplicSource_canonical (s : State) (i : Nat) (hs : s.canonical = true) : (State.aplicSource s i).canonical = true := by
  unfold State.aplicSource; (try simp only []); (repeat' split) <;> simp +contextual (maxDischargeDepth := 64) [hs]
@[simp] theorem State.fltRefresh_canonical (s : State) (u : Nat) (hs : s.canonical = true) : (State.fltRefresh s u).canonical = true := by
  unfold State.fltRefresh; simp +contextual (maxDischargeDepth := 64) [hs]
@[simp] theorem State.capture_canonical (s : State) (u cond extra : Nat) (hs : s.canonical = true) : (State.capture s u cond extra).canonical = true := by
  unfold State.capture; simp +contextual (maxDischargeDepth := 64) [hs]
@[simp] theorem State.setStatus_canonical (s : State) (u bit : Nat) (hs : s.canonical = true) : (State.setStatus s u bit).canonical = true := by
  unfold State.setStatus; simp +contextual (maxDischargeDepth := 64) [hs]
@[simp] theorem State.fault_canonical (s : State) (u cond bit extra : Nat) (hs : s.canonical = true) : (State.fault s u cond bit extra).canonical = true := by
  unfold State.fault; simp +contextual (maxDischargeDepth := 64) [hs]
@[simp] theorem State.common_canonical (s : State) (u cond : Nat) (hs : s.canonical = true) : (State.common s u cond).canonical = true := by
  unfold State.common; simp +contextual (maxDischargeDepth := 64) [hs]
@[simp] theorem State.channelCe_canonical (s : State) (c : Nat) (hs : s.canonical = true) : (State.channelCe s c).canonical = true := by
  unfold State.channelCe; (try simp only []); (repeat' split) <;> simp +contextual (maxDischargeDepth := 64) [hs]
@[simp] theorem State.memUe_canonical (s : State) (a : Nat) (hs : s.canonical = true) : (State.memUe s a).canonical = true := by
  unfold State.memUe; simp +contextual (maxDischargeDepth := 64) [hs]
@[simp] theorem State.memRead_canonical (s : State) (ecc : EccResult) (a : Nat) (hs : s.canonical = true) : (State.memRead s ecc a).canonical = true := by
  unfold State.memRead; (try simp only []); (repeat' split) <;> simp +contextual (maxDischargeDepth := 64) [hs]
@[simp] theorem State.memReadIn_canonical (s : State) (ecc : EccResult) (unit : Nat) (hs : s.canonical = true) : (State.memReadIn s ecc unit).canonical = true := by
  unfold State.memReadIn; (try simp only []); (repeat' split) <;> simp +contextual (maxDischargeDepth := 64) [hs]
@[simp] theorem State.partViolation_canonical (s : State) (a : Nat) (hs : s.canonical = true) : (State.partViolation s a).canonical = true := by
  unfold State.partViolation; simp +contextual (maxDischargeDepth := 64) [hs]
@[simp] theorem State.setTile_canonical (s : State) (t : Nat) (x : Tile) (hs : s.canonical = true) : (State.setTile s t x).canonical = true := by
  unfold State.setTile; simp +contextual (maxDischargeDepth := 64) [hs]
@[simp] theorem State.tileUe_canonical (s : State) (t : Nat) (hs : s.canonical = true) : (State.tileUe s t).canonical = true := by
  unfold State.tileUe; simp +contextual (maxDischargeDepth := 64) [hs]
@[simp] theorem State.send_canonical (s : State) (ep : Nat) (p : Packet) (hs : s.canonical = true) : (State.send s ep p).canonical = true := by
  unfold State.send; simp +contextual (maxDischargeDepth := 64) [hs]
@[simp] theorem State.setInbox_canonical (s : State) (ep : Nat) (l : List Packet) (hs : s.canonical = true) : (State.setInbox s ep l).canonical = true := by
  unfold State.setInbox; simp +contextual (maxDischargeDepth := 64) [hs]
@[simp] theorem State.complete_canonical (s : State) (ep : Nat) (cmd : List Word) (status operand : Nat) (payload : List Byte) (hs : s.canonical = true) : (State.complete s ep cmd status operand payload).canonical = true := by
  unfold State.complete; simp +contextual (maxDischargeDepth := 64) [hs]
@[simp] theorem State.refuseCommand_mem (s : State) (ep : Nat) (w : List Word) : (State.refuseCommand s ep w).mem = s.mem := by
  unfold State.refuseCommand; (try simp only []); (repeat' split) <;> simp +contextual (maxDischargeDepth := 64)
@[simp] theorem State.refuseCommand_pending (s : State) (ep : Nat) (w : List Word) : (State.refuseCommand s ep w).pending = s.pending := by
  unfold State.refuseCommand; (try simp only []); (repeat' split) <;> simp +contextual (maxDischargeDepth := 64)
@[simp] theorem State.refuseCommand_canonical (s : State) (ep : Nat) (w : List Word) (hs : s.canonical = true) : (State.refuseCommand s ep w).canonical = true := by
  unfold State.refuseCommand; (try simp only []); (repeat' split) <;> simp +contextual (maxDischargeDepth := 64) [hs]
@[simp] theorem State.commitGo_canonical (s : State) (pending : Fld) (hs : s.canonical = true) : (State.commitGo s pending).canonical = true := by
  unfold State.commitGo; simp +contextual (maxDischargeDepth := 64) [hs]
@[simp] theorem State.commitApplied_canonical (s : State) (pending gen : Fld) (hs : s.canonical = true) : (State.commitApplied s pending gen).canonical = true := by
  unfold State.commitApplied; simp +contextual (maxDischargeDepth := 64) [hs]

@[simp] theorem State.fnWrite_mem (s : State) (u f : Nat) (act : State) (h : act.mem = s.mem) : (State.fnWrite s u f act).mem = s.mem := by
  unfold State.fnWrite; split <;> simp [h]
@[simp] theorem State.fnWrite_pending (s : State) (u f : Nat) (act : State) (h : act.pending = s.pending) : (State.fnWrite s u f act).pending = s.pending := by
  unfold State.fnWrite; split <;> simp [h]
@[simp] theorem State.fnWrite_canonical (s : State) (u f : Nat) (act : State) (hs : s.canonical = true) (h : act.canonical = true) : (State.fnWrite s u f act).canonical = true := by
  unfold State.fnWrite; split <;> simp [h, hs]

end Sys2Proof.Machine
end

