-- ==== Sys2Proof/Laws/KeepIngress.lean ====
section
/-! SUPPORT. Machine/Ingress.lean: what each of its operations keeps (memory where it stores nothing, the queue, the
canonical form of the stores). -/

namespace Sys2Proof.Machine

set_option linter.all false
set_option Elab.async false

@[simp] theorem State.setArriving_mem (s : State) (p : Nat) (a : Arriving) : (State.setArriving s p a).mem = s.mem := by
  unfold State.setArriving; (try simp only []); (repeat' split) <;> simp +contextual (maxDischargeDepth := 64)
@[simp] theorem State.setArriving_pending (s : State) (p : Nat) (a : Arriving) : (State.setArriving s p a).pending = s.pending := by
  unfold State.setArriving; (try simp only []); (repeat' split) <;> simp +contextual (maxDischargeDepth := 64)
@[simp] theorem State.setArriving_canonical (s : State) (p : Nat) (a : Arriving) (hs : s.canonical = true) : (State.setArriving s p a).canonical = true := by
  unfold State.setArriving; (try simp only []); (repeat' split) <;> simp +contextual (maxDischargeDepth := 64) [hs]
@[simp] theorem State.setRepeating_mem (s : State) (l : List Nat) : (State.setRepeating s l).mem = s.mem := by
  unfold State.setRepeating; simp +contextual (maxDischargeDepth := 64)
@[simp] theorem State.setRepeating_pending (s : State) (l : List Nat) : (State.setRepeating s l).pending = s.pending := by
  unfold State.setRepeating; simp +contextual (maxDischargeDepth := 64)
@[simp] theorem State.setRepeating_canonical (s : State) (l : List Nat) (hs : s.canonical = true) : (State.setRepeating s l).canonical = true := by
  unfold State.setRepeating; simp +contextual (maxDischargeDepth := 64) [hs]
@[simp] theorem State.sendPfc_mem (s : State) (p c quanta : Nat) : (State.sendPfc s p c quanta).mem = s.mem := by
  unfold State.sendPfc; (try simp only []); (repeat' split) <;> simp +contextual (maxDischargeDepth := 64)
@[simp] theorem State.sendPfc_pending (s : State) (p c quanta : Nat) : (State.sendPfc s p c quanta).pending = s.pending := by
  unfold State.sendPfc; (try simp only []); (repeat' split) <;> simp +contextual (maxDischargeDepth := 64)
@[simp] theorem State.sendPfc_canonical (s : State) (p c quanta : Nat) (hs : s.canonical = true) : (State.sendPfc s p c quanta).canonical = true := by
  unfold State.sendPfc; (try simp only []); (repeat' split) <;> simp +contextual (maxDischargeDepth := 64) [hs]
@[simp] theorem State.pfcBoundary_mem (s : State) (p : Nat) : (State.pfcBoundary s p).mem = s.mem := by
  unfold State.pfcBoundary; (try simp only []); (repeat' split) <;> simp +contextual (maxDischargeDepth := 64)
@[simp] theorem State.pfcBoundary_pending (s : State) (p : Nat) : (State.pfcBoundary s p).pending = s.pending := by
  unfold State.pfcBoundary; (try simp only []); (repeat' split) <;> simp +contextual (maxDischargeDepth := 64)
@[simp] theorem State.pfcBoundary_canonical (s : State) (p : Nat) (hs : s.canonical = true) : (State.pfcBoundary s p).canonical = true := by
  unfold State.pfcBoundary; (try simp only []); (repeat' split) <;> simp +contextual (maxDischargeDepth := 64) [hs]
@[simp] theorem State.pfcUpdate_mem (s : State) (n : Nat) : (State.pfcUpdate s n).mem = s.mem := by
  unfold State.pfcUpdate; simp +contextual (maxDischargeDepth := 64)
@[simp] theorem State.pfcUpdate_pending (s : State) (n : Nat) : (State.pfcUpdate s n).pending = s.pending := by
  unfold State.pfcUpdate; simp +contextual (maxDischargeDepth := 64)
@[simp] theorem State.pfcUpdate_canonical (s : State) (n : Nat) (hs : s.canonical = true) : (State.pfcUpdate s n).canonical = true := by
  unfold State.pfcUpdate; simp +contextual (maxDischargeDepth := 64) [hs]
@[simp] theorem State.pfcSettle_mem (s : State) : (State.pfcSettle s).mem = s.mem := by
  unfold State.pfcSettle; simp +contextual (maxDischargeDepth := 64)
@[simp] theorem State.pfcSettle_pending (s : State) : (State.pfcSettle s).pending = s.pending := by
  unfold State.pfcSettle; simp +contextual (maxDischargeDepth := 64)
@[simp] theorem State.pfcSettle_canonical (s : State) (hs : s.canonical = true) : (State.pfcSettle s).canonical = true := by
  unfold State.pfcSettle; simp +contextual (maxDischargeDepth := 64) [hs]
@[simp] theorem State.freeFrame_mem (s : State) (src arrival : Nat) : (State.freeFrame s src arrival).mem = s.mem := by
  unfold State.freeFrame; simp +contextual (maxDischargeDepth := 64)
@[simp] theorem State.freeFrame_pending (s : State) (src arrival : Nat) : (State.freeFrame s src arrival).pending = s.pending := by
  unfold State.freeFrame; simp +contextual (maxDischargeDepth := 64)
@[simp] theorem State.freeFrame_canonical (s : State) (src arrival : Nat) (hs : s.canonical = true) : (State.freeFrame s src arrival).canonical = true := by
  unfold State.freeFrame; simp +contextual (maxDischargeDepth := 64) [hs]

@[simp] theorem State.clsSent_mem (s : State) : (State.clsSent s).mem = s.mem := by
  unfold State.clsSent; (try simp only []); (repeat' split) <;> simp +contextual (maxDischargeDepth := 64)
@[simp] theorem State.clsSent_pending (s : State) : (State.clsSent s).pending = s.pending := by
  unfold State.clsSent; (try simp only []); (repeat' split) <;> simp +contextual (maxDischargeDepth := 64)
@[simp] theorem State.clsSent_canonical (s : State) (hs : s.canonical = true) : (State.clsSent s).canonical = true := by
  unfold State.clsSent; (try simp only []); (repeat' split) <;> simp +contextual (maxDischargeDepth := 64) [hs]
end Sys2Proof.Machine
end

