-- ==== Sys2Proof/Laws/KeepArbour.lean ====
section
/-! SUPPORT. Machine/Arbour.lean: what each of its operations keeps (memory where it stores nothing, the queue, the
canonical form of the stores). -/

namespace Sys2Proof.Machine

set_option linter.all false
set_option Elab.async false

@[simp] theorem State.setClu_mem (s : State) (c : Nat) (x : ArbCluster) : (State.setClu s c x).mem = s.mem := by
  unfold State.setClu; simp +contextual (maxDischargeDepth := 64)
@[simp] theorem State.setClu_pending (s : State) (c : Nat) (x : ArbCluster) : (State.setClu s c x).pending = s.pending := by
  unfold State.setClu; simp +contextual (maxDischargeDepth := 64)
@[simp] theorem State.setClu_canonical (s : State) (c : Nat) (x : ArbCluster) (hs : s.canonical = true) : (State.setClu s c x).canonical = true := by
  unfold State.setClu; simp +contextual (maxDischargeDepth := 64) [hs]
@[simp] theorem State.setThr_mem (s : State) (c t : Nat) (x : ArbThread) : (State.setThr s c t x).mem = s.mem := by
  unfold State.setThr; simp +contextual (maxDischargeDepth := 64)
@[simp] theorem State.setThr_pending (s : State) (c t : Nat) (x : ArbThread) : (State.setThr s c t x).pending = s.pending := by
  unfold State.setThr; simp +contextual (maxDischargeDepth := 64)
@[simp] theorem State.setThr_canonical (s : State) (c t : Nat) (x : ArbThread) (hs : s.canonical = true) : (State.setThr s c t x).canonical = true := by
  unfold State.setThr; simp +contextual (maxDischargeDepth := 64) [hs]
@[simp] theorem State.setSource_mem (s : State) (src : Nat) (x : ArbSource) : (State.setSource s src x).mem = s.mem := by
  unfold State.setSource; simp +contextual (maxDischargeDepth := 64)
@[simp] theorem State.setSource_pending (s : State) (src : Nat) (x : ArbSource) : (State.setSource s src x).pending = s.pending := by
  unfold State.setSource; simp +contextual (maxDischargeDepth := 64)
@[simp] theorem State.setSource_canonical (s : State) (src : Nat) (x : ArbSource) (hs : s.canonical = true) : (State.setSource s src x).canonical = true := by
  unfold State.setSource; simp +contextual (maxDischargeDepth := 64) [hs]
@[simp] theorem State.setCluState_mem (s : State) (c v : Nat) : (State.setCluState s c v).mem = s.mem := by
  unfold State.setCluState; simp +contextual (maxDischargeDepth := 64)
@[simp] theorem State.setCluState_pending (s : State) (c v : Nat) : (State.setCluState s c v).pending = s.pending := by
  unfold State.setCluState; simp +contextual (maxDischargeDepth := 64)
@[simp] theorem State.setCluState_canonical (s : State) (c v : Nat) (hs : s.canonical = true) : (State.setCluState s c v).canonical = true := by
  unfold State.setCluState; simp +contextual (maxDischargeDepth := 64) [hs]
@[simp] theorem State.loadCluster_mem (s : State) (c : Nat) : (State.loadCluster s c).mem = s.mem := by
  unfold State.loadCluster; simp +contextual (maxDischargeDepth := 64)
@[simp] theorem State.loadCluster_pending (s : State) (c : Nat) : (State.loadCluster s c).pending = s.pending := by
  unfold State.loadCluster; simp +contextual (maxDischargeDepth := 64)
@[simp] theorem State.loadCluster_canonical (s : State) (c : Nat) (hs : s.canonical = true) : (State.loadCluster s c).canonical = true := by
  unfold State.loadCluster; simp +contextual (maxDischargeDepth := 64) [hs]
@[simp] theorem State.reloadCluster_mem (s : State) (c : Nat) : (State.reloadCluster s c).mem = s.mem := by
  unfold State.reloadCluster; (try simp only []); (repeat' split) <;> simp +contextual (maxDischargeDepth := 64)
@[simp] theorem State.reloadCluster_pending (s : State) (c : Nat) : (State.reloadCluster s c).pending = s.pending := by
  unfold State.reloadCluster; (try simp only []); (repeat' split) <;> simp +contextual (maxDischargeDepth := 64)
@[simp] theorem State.reloadCluster_canonical (s : State) (c : Nat) (hs : s.canonical = true) : (State.reloadCluster s c).canonical = true := by
  unfold State.reloadCluster; (try simp only []); (repeat' split) <;> simp +contextual (maxDischargeDepth := 64) [hs]
@[simp] theorem State.initFailed_mem (s : State) (c : Nat) : (State.initFailed s c).mem = s.mem := by
  unfold State.initFailed; simp +contextual (maxDischargeDepth := 64)
@[simp] theorem State.initFailed_pending (s : State) (c : Nat) : (State.initFailed s c).pending = s.pending := by
  unfold State.initFailed; simp +contextual (maxDischargeDepth := 64)
@[simp] theorem State.initFailed_canonical (s : State) (c : Nat) (hs : s.canonical = true) : (State.initFailed s c).canonical = true := by
  unfold State.initFailed; simp +contextual (maxDischargeDepth := 64) [hs]
@[simp] theorem State.endUncommitted_mem (s : State) (p : ArbPacket) : (State.endUncommitted s p).mem = s.mem := by
  unfold State.endUncommitted; simp +contextual (maxDischargeDepth := 64)
@[simp] theorem State.endUncommitted_pending (s : State) (p : ArbPacket) : (State.endUncommitted s p).pending = s.pending := by
  unfold State.endUncommitted; simp +contextual (maxDischargeDepth := 64)
@[simp] theorem State.endUncommitted_canonical (s : State) (p : ArbPacket) (hs : s.canonical = true) : (State.endUncommitted s p).canonical = true := by
  unfold State.endUncommitted; simp +contextual (maxDischargeDepth := 64) [hs]
@[simp] theorem State.endWait_mem (s : State) (c t status : Nat) : (State.endWait s c t status).mem = s.mem := by
  unfold State.endWait; simp +contextual (maxDischargeDepth := 64)
@[simp] theorem State.endWait_pending (s : State) (c t status : Nat) : (State.endWait s c t status).pending = s.pending := by
  unfold State.endWait; simp +contextual (maxDischargeDepth := 64)
@[simp] theorem State.endWait_canonical (s : State) (c t status : Nat) (hs : s.canonical = true) : (State.endWait s c t status).canonical = true := by
  unfold State.endWait; simp +contextual (maxDischargeDepth := 64) [hs]
@[simp] theorem State.grantLock_mem (s : State) (c i : Nat) : (State.grantLock s c i).mem = s.mem := by
  unfold State.grantLock; (try simp only []); (repeat' split) <;> simp +contextual (maxDischargeDepth := 64)
@[simp] theorem State.grantLock_pending (s : State) (c i : Nat) : (State.grantLock s c i).pending = s.pending := by
  unfold State.grantLock; (try simp only []); (repeat' split) <;> simp +contextual (maxDischargeDepth := 64)
@[simp] theorem State.grantLock_canonical (s : State) (c i : Nat) (hs : s.canonical = true) : (State.grantLock s c i).canonical = true := by
  unfold State.grantLock; (try simp only []); (repeat' split) <;> simp +contextual (maxDischargeDepth := 64) [hs]
@[simp] theorem State.dropLock_mem (s : State) (c t i : Nat) : (State.dropLock s c t i).mem = s.mem := by
  unfold State.dropLock; simp +contextual (maxDischargeDepth := 64)
@[simp] theorem State.dropLock_pending (s : State) (c t i : Nat) : (State.dropLock s c t i).pending = s.pending := by
  unfold State.dropLock; simp +contextual (maxDischargeDepth := 64)
@[simp] theorem State.dropLock_canonical (s : State) (c t i : Nat) (hs : s.canonical = true) : (State.dropLock s c t i).canonical = true := by
  unfold State.dropLock; simp +contextual (maxDischargeDepth := 64) [hs]
@[simp] theorem State.dropLocks_mem (s : State) (c t : Nat) : (State.dropLocks s c t).mem = s.mem := by
  unfold State.dropLocks; simp +contextual (maxDischargeDepth := 64)
@[simp] theorem State.dropLocks_pending (s : State) (c t : Nat) : (State.dropLocks s c t).pending = s.pending := by
  unfold State.dropLocks; simp +contextual (maxDischargeDepth := 64)
@[simp] theorem State.dropLocks_canonical (s : State) (c t : Nat) (hs : s.canonical = true) : (State.dropLocks s c t).canonical = true := by
  unfold State.dropLocks; simp +contextual (maxDischargeDepth := 64) [hs]
@[simp] theorem State.handOver_mem (s : State) (c t : Nat) : (State.handOver s c t).mem = s.mem := by
  unfold State.handOver; (try simp only []); (repeat' split) <;> simp +contextual (maxDischargeDepth := 64)
@[simp] theorem State.handOver_pending (s : State) (c t : Nat) : (State.handOver s c t).pending = s.pending := by
  unfold State.handOver; (try simp only []); (repeat' split) <;> simp +contextual (maxDischargeDepth := 64)
@[simp] theorem State.handOver_canonical (s : State) (c t : Nat) (hs : s.canonical = true) : (State.handOver s c t).canonical = true := by
  unfold State.handOver; (try simp only []); (repeat' split) <;> simp +contextual (maxDischargeDepth := 64) [hs]
@[simp] theorem State.grantCommit_mem (s : State) (c : Nat) : (State.grantCommit s c).mem = s.mem := by
  unfold State.grantCommit; (try simp only []); (repeat' split) <;> simp +contextual (maxDischargeDepth := 64)
@[simp] theorem State.grantCommit_pending (s : State) (c : Nat) : (State.grantCommit s c).pending = s.pending := by
  unfold State.grantCommit; (try simp only []); (repeat' split) <;> simp +contextual (maxDischargeDepth := 64)
@[simp] theorem State.grantCommit_canonical (s : State) (c : Nat) (hs : s.canonical = true) : (State.grantCommit s c).canonical = true := by
  unfold State.grantCommit; (try simp only []); (repeat' split) <;> simp +contextual (maxDischargeDepth := 64) [hs]
@[simp] theorem State.withdrawWait_mem (s : State) (c t : Nat) : (State.withdrawWait s c t).mem = s.mem := by
  unfold State.withdrawWait; simp +contextual (maxDischargeDepth := 64)
@[simp] theorem State.withdrawWait_pending (s : State) (c t : Nat) : (State.withdrawWait s c t).pending = s.pending := by
  unfold State.withdrawWait; simp +contextual (maxDischargeDepth := 64)
@[simp] theorem State.withdrawWait_canonical (s : State) (c t : Nat) (hs : s.canonical = true) : (State.withdrawWait s c t).canonical = true := by
  unfold State.withdrawWait; simp +contextual (maxDischargeDepth := 64) [hs]
@[simp] theorem State.passSeq_mem (s : State) (c t q : Nat) : (State.passSeq s c t q).mem = s.mem := by
  unfold State.passSeq; simp +contextual (maxDischargeDepth := 64)
@[simp] theorem State.passSeq_pending (s : State) (c t q : Nat) : (State.passSeq s c t q).pending = s.pending := by
  unfold State.passSeq; simp +contextual (maxDischargeDepth := 64)
@[simp] theorem State.passSeq_canonical (s : State) (c t q : Nat) (hs : s.canonical = true) : (State.passSeq s c t q).canonical = true := by
  unfold State.passSeq; simp +contextual (maxDischargeDepth := 64) [hs]
@[simp] theorem State.settleOrders_mem (s : State) (c : Nat) (x1 : Nat) : (State.settleOrders s c x1).mem = s.mem := by
  fun_induction State.settleOrders s c x1 <;> simp_all (maxDischargeDepth := 64)
@[simp] theorem State.settleOrders_pending (s : State) (c : Nat) (x1 : Nat) : (State.settleOrders s c x1).pending = s.pending := by
  fun_induction State.settleOrders s c x1 <;> simp_all (maxDischargeDepth := 64)
@[simp] theorem State.settleOrders_canonical (s : State) (c : Nat) (x1 : Nat) (hs : s.canonical = true) : (State.settleOrders s c x1).canonical = true := by
  fun_induction State.settleOrders s c x1 <;> simp_all (maxDischargeDepth := 64)
@[simp] theorem State.settleCounter_mem (s : State) (c j : Nat) : (State.settleCounter s c j).mem = s.mem := by
  unfold State.settleCounter; (try simp only [])
  repeat' (first | (simp; done) | intro _ | split | rw [foldl_mem] | rw [foldl_snd_mem] | simp)
@[simp] theorem State.settleCounter_pending (s : State) (c j : Nat) : (State.settleCounter s c j).pending = s.pending := by
  unfold State.settleCounter; (try simp only [])
  repeat' (first | (simp; done) | intro _ | split | rw [foldl_pending] | rw [foldl_snd_pending] | simp)
@[simp] theorem State.settleCounter_canonical (s : State) (c j : Nat) (hs : s.canonical = true) : (State.settleCounter s c j).canonical = true := by
  unfold State.settleCounter; simp only []
  refine foldl_canonical _ _ _ ?_ hs
  intro s x hs; (repeat' split) <;> simp (maxDischargeDepth := 64) [hs]
@[simp] theorem State.enterService_mem (s : State) (c : Nat) : (State.enterService s c).mem = s.mem := by
  unfold State.enterService; simp +contextual (maxDischargeDepth := 64)
@[simp] theorem State.enterService_pending (s : State) (c : Nat) : (State.enterService s c).pending = s.pending := by
  unfold State.enterService; simp +contextual (maxDischargeDepth := 64)
@[simp] theorem State.enterService_canonical (s : State) (c : Nat) (hs : s.canonical = true) : (State.enterService s c).canonical = true := by
  unfold State.enterService; simp +contextual (maxDischargeDepth := 64) [hs]
@[simp] theorem State.threadIdle_mem (s : State) (c t : Nat) : (State.threadIdle s c t).mem = s.mem := by
  unfold State.threadIdle; simp +contextual (maxDischargeDepth := 64)
@[simp] theorem State.threadIdle_pending (s : State) (c t : Nat) : (State.threadIdle s c t).pending = s.pending := by
  unfold State.threadIdle; simp +contextual (maxDischargeDepth := 64)
@[simp] theorem State.threadIdle_canonical (s : State) (c t : Nat) (hs : s.canonical = true) : (State.threadIdle s c t).canonical = true := by
  unfold State.threadIdle; simp +contextual (maxDischargeDepth := 64) [hs]
@[simp] theorem State.retireThread_mem (s : State) (c t : Nat) : (State.retireThread s c t).mem = s.mem := by
  unfold State.retireThread; (try simp only []); (repeat' split) <;> simp +contextual (maxDischargeDepth := 64)
@[simp] theorem State.retireThread_pending (s : State) (c t : Nat) : (State.retireThread s c t).pending = s.pending := by
  unfold State.retireThread; (try simp only []); (repeat' split) <;> simp +contextual (maxDischargeDepth := 64)
@[simp] theorem State.retireThread_canonical (s : State) (c t : Nat) (hs : s.canonical = true) : (State.retireThread s c t).canonical = true := by
  unfold State.retireThread; (try simp only []); (repeat' split) <;> simp +contextual (maxDischargeDepth := 64) [hs]
@[simp] theorem State.excLast_mem (s : State) (c t cause op pc : Nat) : (State.excLast s c t cause op pc).mem = s.mem := by
  unfold State.excLast; simp +contextual (maxDischargeDepth := 64)
@[simp] theorem State.excLast_pending (s : State) (c t cause op pc : Nat) : (State.excLast s c t cause op pc).pending = s.pending := by
  unfold State.excLast; simp +contextual (maxDischargeDepth := 64)
@[simp] theorem State.excLast_canonical (s : State) (c t cause op pc : Nat) (hs : s.canonical = true) : (State.excLast s c t cause op pc).canonical = true := by
  unfold State.excLast; simp +contextual (maxDischargeDepth := 64) [hs]
@[simp] theorem State.arbException_mem (s : State) (c t cause op : Nat) : (State.arbException s c t cause op).mem = s.mem := by
  unfold State.arbException; simp +contextual (maxDischargeDepth := 64)
@[simp] theorem State.arbException_pending (s : State) (c t cause op : Nat) : (State.arbException s c t cause op).pending = s.pending := by
  unfold State.arbException; simp +contextual (maxDischargeDepth := 64)
@[simp] theorem State.arbException_canonical (s : State) (c t cause op : Nat) (hs : s.canonical = true) : (State.arbException s c t cause op).canonical = true := by
  unfold State.arbException; simp +contextual (maxDischargeDepth := 64) [hs]
@[simp] theorem State.clusterMemoryUe_mem (s : State) (c t : Nat) : (State.clusterMemoryUe s c t).mem = s.mem := by
  unfold State.clusterMemoryUe; (try simp only []); (repeat' split) <;> simp +contextual (disch := (intros; (try simp only []); (repeat' split) <;> simp +contextual (maxDischargeDepth := 64) [*]))
@[simp] theorem State.clusterMemoryUe_pending (s : State) (c t : Nat) : (State.clusterMemoryUe s c t).pending = s.pending := by
  unfold State.clusterMemoryUe; (try simp only []); (repeat' split) <;> simp +contextual (disch := (intros; (try simp only []); (repeat' split) <;> simp +contextual (maxDischargeDepth := 64) [*]))
@[simp] theorem State.clusterMemoryUe_canonical (s : State) (c t : Nat) (hs : s.canonical = true) : (State.clusterMemoryUe s c t).canonical = true := by
  unfold State.clusterMemoryUe; simp only []
  apply State.reloadCluster_canonical
  apply foldl_canonical
  · intro s x hs; (try simp only []); split
    · split <;> simp [hs]
    · exact hs
  · simp (maxDischargeDepth := 64) [hs]
@[simp] theorem execArbourDispatch_quiet (src : Nat) (err : ArbError) (s : State) : Res.quiet s (execArbourDispatch src err s) := by
  unfold execArbourDispatch; (try simp only [])
  repeat' (first | assumption | (simp +contextual (maxDischargeDepth := 64) [*]; done) | intro _ | split | rw [foldl_mem] | rw [foldl_pending] | apply foldl_canonical | with_reducible apply State.arbException_canonical | with_reducible apply State.clusterMemoryUe_canonical | with_reducible apply State.setClu_canonical | with_reducible apply State.setThr_canonical | with_reducible apply State.setTile_canonical | with_reducible apply State.wrapBy_canonical | (rw [Res.quiet_next]; refine ⟨?_, ?_, ?_⟩) | (rw [Res.stays_next]; refine ⟨?_, ?_⟩) | simp)
@[simp] theorem execCommitSequencerPass_quiet (pass : SequencerPass) (s : State) : Res.quiet s (execCommitSequencerPass pass s) := by
  unfold execCommitSequencerPass; (try simp only []); (repeat' split) <;> simp +contextual (maxDischargeDepth := 64)
@[simp] theorem execArbInitLimitExpiry_quiet (cluster : Nat) (s : State) : Res.quiet s (execArbInitLimitExpiry cluster s) := by
  unfold execArbInitLimitExpiry; simp +contextual (maxDischargeDepth := 64)
@[simp] theorem execArbRunLimitExpiry_quiet (cluster thread : Nat) (s : State) : Res.quiet s (execArbRunLimitExpiry cluster thread s) := by
  unfold execArbRunLimitExpiry; simp +contextual (maxDischargeDepth := 64)
@[simp] theorem State.breakWait_mem (s : State) (c t : Nat) : (State.breakWait s c t).mem = s.mem := by
  unfold State.breakWait; simp +contextual (maxDischargeDepth := 64)
@[simp] theorem State.breakWait_pending (s : State) (c t : Nat) : (State.breakWait s c t).pending = s.pending := by
  unfold State.breakWait; simp +contextual (maxDischargeDepth := 64)
@[simp] theorem State.breakWait_canonical (s : State) (c t : Nat) (hs : s.canonical = true) : (State.breakWait s c t).canonical = true := by
  unfold State.breakWait; simp +contextual (maxDischargeDepth := 64) [hs]
@[simp] theorem execDeadlock_quiet (cluster set : Nat) (s : State) : Res.quiet s (execDeadlock cluster set s) := by
  unfold execDeadlock; simp +contextual (maxDischargeDepth := 64)
@[simp] theorem execHaltHold_quiet (cluster set : Nat) (s : State) : Res.quiet s (execHaltHold cluster set s) := by
  unfold execHaltHold; simp +contextual (maxDischargeDepth := 64)
@[simp] theorem execParkTimeout_quiet (cluster thread : Nat) (s : State) : Res.quiet s (execParkTimeout cluster thread s) := by
  unfold execParkTimeout; (try simp only []); (repeat' split) <;> simp +contextual (maxDischargeDepth := 64)
@[simp] theorem State.haltThread_mem (s : State) (c t : Nat) : (State.haltThread s c t).mem = s.mem := by
  unfold State.haltThread; simp +contextual (maxDischargeDepth := 64)
@[simp] theorem State.haltThread_pending (s : State) (c t : Nat) : (State.haltThread s c t).pending = s.pending := by
  unfold State.haltThread; simp +contextual (maxDischargeDepth := 64)
@[simp] theorem State.haltThread_canonical (s : State) (c t : Nat) (hs : s.canonical = true) : (State.haltThread s c t).canonical = true := by
  unfold State.haltThread; simp +contextual (maxDischargeDepth := 64) [hs]
@[simp] theorem State.resumeThread_mem (s : State) (c t : Nat) : (State.resumeThread s c t).mem = s.mem := by
  unfold State.resumeThread; (try simp only []); (repeat' split) <;> simp +contextual (maxDischargeDepth := 64)
@[simp] theorem State.resumeThread_pending (s : State) (c t : Nat) : (State.resumeThread s c t).pending = s.pending := by
  unfold State.resumeThread; (try simp only []); (repeat' split) <;> simp +contextual (maxDischargeDepth := 64)
@[simp] theorem State.resumeThread_canonical (s : State) (c t : Nat) (hs : s.canonical = true) : (State.resumeThread s c t).canonical = true := by
  unfold State.resumeThread; (try simp only []); (repeat' split) <;> simp +contextual (maxDischargeDepth := 64) [hs]
@[simp] theorem State.notHalted_mem (s : State) (c t : Nat) : (State.notHalted s c t).mem = s.mem := by
  unfold State.notHalted; simp +contextual (maxDischargeDepth := 64)
@[simp] theorem State.notHalted_pending (s : State) (c t : Nat) : (State.notHalted s c t).pending = s.pending := by
  unfold State.notHalted; simp +contextual (maxDischargeDepth := 64)
@[simp] theorem State.notHalted_canonical (s : State) (c t : Nat) (hs : s.canonical = true) : (State.notHalted s c t).canonical = true := by
  unfold State.notHalted; simp +contextual (maxDischargeDepth := 64) [hs]
@[simp] theorem State.dbgResume_mem (s : State) (c t : Nat) : (State.dbgResume s c t).mem = s.mem := by
  unfold State.dbgResume; simp +contextual (maxDischargeDepth := 64)
@[simp] theorem State.dbgResume_pending (s : State) (c t : Nat) : (State.dbgResume s c t).pending = s.pending := by
  unfold State.dbgResume; simp +contextual (maxDischargeDepth := 64)
@[simp] theorem State.dbgResume_canonical (s : State) (c t : Nat) (hs : s.canonical = true) : (State.dbgResume s c t).canonical = true := by
  unfold State.dbgResume; simp +contextual (maxDischargeDepth := 64) [hs]
@[simp] theorem State.dbgAbandon_mem (s : State) (c t : Nat) : (State.dbgAbandon s c t).mem = s.mem := by
  unfold State.dbgAbandon; simp +contextual (maxDischargeDepth := 64)
@[simp] theorem State.dbgAbandon_pending (s : State) (c t : Nat) : (State.dbgAbandon s c t).pending = s.pending := by
  unfold State.dbgAbandon; simp +contextual (maxDischargeDepth := 64)
@[simp] theorem State.dbgAbandon_canonical (s : State) (c t : Nat) (hs : s.canonical = true) : (State.dbgAbandon s c t).canonical = true := by
  unfold State.dbgAbandon; simp +contextual (maxDischargeDepth := 64) [hs]
@[simp] theorem State.dbgHalt_mem (s : State) (c t : Nat) : (State.dbgHalt s c t).mem = s.mem := by
  unfold State.dbgHalt; simp +contextual (maxDischargeDepth := 64)
@[simp] theorem State.dbgHalt_pending (s : State) (c t : Nat) : (State.dbgHalt s c t).pending = s.pending := by
  unfold State.dbgHalt; simp +contextual (maxDischargeDepth := 64)
@[simp] theorem State.dbgHalt_canonical (s : State) (c t : Nat) (hs : s.canonical = true) : (State.dbgHalt s c t).canonical = true := by
  unfold State.dbgHalt; simp +contextual (maxDischargeDepth := 64) [hs]
@[simp] theorem State.dbgHaltAll_mem (s : State) (c : Nat) : (State.dbgHaltAll s c).mem = s.mem := by
  unfold State.dbgHaltAll; simp +contextual (maxDischargeDepth := 64)
@[simp] theorem State.dbgHaltAll_pending (s : State) (c : Nat) : (State.dbgHaltAll s c).pending = s.pending := by
  unfold State.dbgHaltAll; simp +contextual (maxDischargeDepth := 64)
@[simp] theorem State.dbgHaltAll_canonical (s : State) (c : Nat) (hs : s.canonical = true) : (State.dbgHaltAll s c).canonical = true := by
  unfold State.dbgHaltAll; simp +contextual (maxDischargeDepth := 64) [hs]
@[simp] theorem State.dbgResumeAll_mem (s : State) (c : Nat) : (State.dbgResumeAll s c).mem = s.mem := by
  unfold State.dbgResumeAll; simp +contextual (maxDischargeDepth := 64)
@[simp] theorem State.dbgResumeAll_pending (s : State) (c : Nat) : (State.dbgResumeAll s c).pending = s.pending := by
  unfold State.dbgResumeAll; simp +contextual (maxDischargeDepth := 64)
@[simp] theorem State.dbgResumeAll_canonical (s : State) (c : Nat) (hs : s.canonical = true) : (State.dbgResumeAll s c).canonical = true := by
  unfold State.dbgResumeAll; simp +contextual (maxDischargeDepth := 64) [hs]
@[simp] theorem execArbHalt_quiet (cluster thread : Nat) (s : State) : Res.quiet s (execArbHalt cluster thread s) := by
  unfold execArbHalt; simp +contextual (maxDischargeDepth := 64)
@[simp] theorem execArbResume_quiet (cluster thread : Nat) (s : State) : Res.quiet s (execArbResume cluster thread s) := by
  unfold execArbResume; simp +contextual (maxDischargeDepth := 64)
@[simp] theorem execArbAbandon_quiet (cluster thread : Nat) (s : State) : Res.quiet s (execArbAbandon cluster thread s) := by
  unfold execArbAbandon; simp +contextual (maxDischargeDepth := 64)
@[simp] theorem execArbHaltAll_quiet (cluster : Nat) (s : State) : Res.quiet s (execArbHaltAll cluster s) := by
  unfold execArbHaltAll; simp +contextual (maxDischargeDepth := 64)
@[simp] theorem execArbResumeAll_quiet (cluster : Nat) (s : State) : Res.quiet s (execArbResumeAll cluster s) := by
  unfold execArbResumeAll; simp +contextual (maxDischargeDepth := 64)
@[simp] theorem execArbBreakpointHalt_quiet (cluster thread : Nat) (s : State) : Res.quiet s (execArbBreakpointHalt cluster thread s) := by
  unfold execArbBreakpointHalt; simp +contextual (maxDischargeDepth := 64)

end Sys2Proof.Machine
end

