-- ==== Sys2Proof/Laws/KeepIommu.lean ====
section
/-! SUPPORT. Machine/Iommu.lean: every operation of the IOMMU keeps the queue and the canonical form of the stores. -/

namespace Sys2Proof.Machine

set_option linter.all false
set_option Elab.async false

/-- The queue is the same, and the stores stay canonical. -/
def Keeps (s t : State) : Prop := t.pending = s.pending ∧ (s.canonical = true → t.canonical = true)

theorem Keeps.refl (s : State) : Keeps s s := ⟨rfl, id⟩
theorem Keeps.trans {a b c : State} (h : Keeps a b) (k : Keeps b c) : Keeps a c :=
  ⟨k.1.trans h.1, fun x => k.2 (h.2 x)⟩
theorem Keeps.of {s t : State} (hp : t.pending = s.pending) (hc : s.canonical = true → t.canonical = true) : Keeps s t := ⟨hp, hc⟩
/-- A pair's second component, where the pair is known. -/
theorem Keeps.via {α : Type} {s : State} {x : α × State} {r : α} {t : State} (hx : x = (r, t)) (h : Keeps s x.2) : Keeps s t := by
  rw [hx] at h; exact h

theorem State.putBytes_kept (s : State) (a : Nat) (l : List Byte) : Keeps s (s.putBytes a l) :=
  .of (by simp) (fun h => by simp [h])
theorem State.takeFree_kept (s : State) : Keeps s s.takeFree.2 := .of (by simp) (fun h => by simp [h])
theorem State.withPcie_kept (s : State) (x : PcieState) : Keeps s (s.withPcie x) := .of (by simp) (fun h => by simp [h])

theorem State.tableRead_kept (s : State) (a n acc bad : Nat) : Keeps s (s.tableRead a n acc bad).2 := by
  unfold State.tableRead
  split
  · exact .of (by simp) (fun h => by simp [h])
  · split <;> exact Keeps.refl s

theorem State.dirEntry_kept (acc bad : Nat) (at_ : State → Except IoErr Nat × State) (ha : ∀ t, Keeps t (at_ t).2)
    (s : State) : Keeps s (State.dirEntry acc bad at_ s).2 := by
  unfold State.dirEntry
  split
  · next h => exact Keeps.via h (ha s)
  · next h =>
    have k := Keeps.via h (ha s)
    split
    · next h2 => exact k.trans (Keeps.via h2 (State.tableRead_kept ..))
    · next h2 =>
      have k2 := k.trans (Keeps.via h2 (State.tableRead_kept ..))
      split
      · exact k2
      · split <;> exact k2

theorem State.dirWalk_kept (acc bad : Nat) (idx : Nat → Nat) (at_ : State → Nat → Except IoErr Nat × State)
    (ha : ∀ t a, Keeps t (at_ t a).2) (n : Nat) (s : State) (a : Nat) : Keeps s (State.dirWalk acc bad idx at_ n s a).2 := by
  induction n generalizing s a with
  | zero => unfold State.dirWalk; exact Keeps.refl s
  | succ n ih =>
    unfold State.dirWalk
    split
    · next h => exact Keeps.via h (State.dirEntry_kept _ _ _ (fun t => ha ..) _)
    · next h => exact (Keeps.via h (State.dirEntry_kept _ _ _ (fun t => ha ..) _)).trans (ih ..)

theorem State.ptLeaf_kept (x : IoStage) (at_ : State → Except IoErr Nat × State) (ha : ∀ t, Keeps t (at_ t).2) (s : State)
    (p i : Nat) : Keeps s (State.ptLeaf x at_ s p i).2 := by
  unfold State.ptLeaf
  dsimp only
  split
  · with_reducible exact Keeps.refl s
  · by_cases h1 : (!p.testBit 4 || !(if x.write then p.testBit 2 else p.testBit 1)) = true
    · rw [if_pos h1]; with_reducible exact Keeps.refl s
    · rw [if_neg h1]
      by_cases h2 : (p.testBit 6 && (p.testBit 7 || !x.write)) = true
      · rw [if_pos h2]; with_reducible exact Keeps.refl s
      · rw [if_neg h2]
        by_cases h3 : (!x.ade) = true
        · rw [if_pos h3]; with_reducible exact Keeps.refl s
        · rw [if_neg h3]
          split
          · next h => with_reducible exact Keeps.via h (ha s)
          · next h => with_reducible exact (Keeps.via h (ha s)).trans (State.putBytes_kept ..)

theorem State.ptEntry_kept (x : IoStage) (at_ : State → Except IoErr Nat × State) (ha : ∀ t, Keeps t (at_ t).2) (s : State) :
    Keeps s (State.ptEntry x at_ s).2 := by
  unfold State.ptEntry
  dsimp only
  split
  · next h => exact Keeps.via h (ha s)
  · next h =>
    have k := Keeps.via h (ha s)
    split
    · next h2 => exact k.trans (Keeps.via h2 (State.tableRead_kept ..))
    · next h2 =>
      have k2 := k.trans (Keeps.via h2 (State.tableRead_kept ..))
      split <;> exact k2

theorem State.ptWalk_kept (x : IoStage) (idx : Nat → Nat) (at_ : State → Nat → Bool → Except IoErr Nat × State)
    (ha : ∀ t a w, Keeps t (at_ t a w).2) (n : Nat) (s : State) (base : Nat) :
    Keeps s (State.ptWalk x idx at_ n s base).2 := by
  induction n generalizing s base with
  | zero => unfold State.ptWalk; exact Keeps.refl s
  | succ n ih =>
    unfold State.ptWalk
    split
    · next h => exact Keeps.via h (State.ptEntry_kept _ _ (fun t => ha ..) _)
    · next h => exact (Keeps.via h (State.ptEntry_kept _ _ (fun t => ha ..) _)).trans (ih ..)
    · next h => exact (Keeps.via h (State.ptEntry_kept _ _ (fun t => ha ..) _)).trans (State.ptLeaf_kept _ _ (fun t => ha ..) ..)

theorem State.gStage_kept (s : State) (gatp : Nat) (ade write : Bool) (acc : Nat) (pf : IoErr) (gpa : Nat) :
    Keeps s (s.gStage gatp ade write acc pf gpa).2 := by
  unfold State.gStage
  dsimp only
  split
  · exact Keeps.refl s
  · split
    · exact Keeps.refl s
    · exact State.ptWalk_kept _ _ _ (fun t a w => Keeps.refl t) ..

theorem State.gImplicit_kept (c : IoCtx) (x : IoAccess) (s : State) (gpa : Nat) (write : Bool) :
    Keeps s (State.gImplicit c x s gpa write).2 := by
  unfold State.gImplicit
  split <;> (next h => exact Keeps.via h (State.gStage_kept ..))

theorem State.ioProcess_kept (c : IoCtx) (x : IoAccess) (s : State) : Keeps s (State.ioProcess c x s).2 := by
  unfold State.ioProcess
  dsimp only
  split
  · split <;> exact Keeps.refl s
  · split
    · exact Keeps.refl s
    · split
      · exact Keeps.refl s
      · rename_i pid _ _
        by_cases hw : 2 ^ (if c.fsc / 2 ^ 60 = 1 then 8 else if c.fsc / 2 ^ 60 = 2 then 17 else 20) ≤ pid
        · rw [if_pos hw]; exact Keeps.refl s
        · rw [if_neg hw]
          split
          · next h => exact Keeps.via h (State.dirWalk_kept _ _ _ _ (fun t a => State.gImplicit_kept ..) ..)
          · next h =>
            have k := Keeps.via h (State.dirWalk_kept _ _ _ _ (fun t a => State.gImplicit_kept ..) ..)
            split
            · next h2 => exact k.trans (Keeps.via h2 (State.gImplicit_kept ..))
            · next h2 =>
              have k2 := k.trans (Keeps.via h2 (State.gImplicit_kept ..))
              split
              · next h3 => exact k2.trans (Keeps.via h3 (State.tableRead_kept ..))
              · next h3 =>
                have k3 := k2.trans (Keeps.via h3 (State.tableRead_kept ..))
                repeat' split
                all_goals exact k3

theorem State.firstStage_kept (c : IoCtx) (x : IoAccess) (fsc : Nat) (s : State) :
    Keeps s (State.firstStage c x fsc s).2 := by
  unfold State.firstStage
  dsimp only
  split
  · exact Keeps.refl s
  · split
    · exact Keeps.refl s
    · exact State.ptWalk_kept _ _ _ (fun t a w => State.gImplicit_kept ..) ..

theorem State.iotlbFill_kept (s : State) (e : IotlbEntry) : Keeps s (s.iotlbFill e) := by
  unfold State.iotlbFill
  split
  · exact Keeps.refl s
  · split
    · exact State.withPcie_kept ..
    · exact (State.takeFree_kept s).trans (State.withPcie_kept ..)

theorem State.ioStages_kept (c : IoCtx) (root : Nat × Nat) (x : IoAccess) (s : State) :
    Keeps s (State.ioStages c root x s).2 := by
  unfold State.ioStages
  split
  · next h => exact Keeps.via h (State.firstStage_kept ..)
  · next h =>
    have k := Keeps.via h (State.firstStage_kept ..)
    split
    · next h2 => exact k.trans (Keeps.via h2 (State.gStage_kept ..))
    · next h2 => exact (k.trans (Keeps.via h2 (State.gStage_kept ..))).trans (State.iotlbFill_kept ..)

theorem State.ioTranslate_kept (c : IoCtx) (x : IoAccess) (s : State) : Keeps s (State.ioTranslate c x s).2 := by
  unfold State.ioTranslate
  split
  · next h => exact Keeps.via h (State.ioProcess_kept ..)
  · next h =>
    have k := Keeps.via h (State.ioProcess_kept ..)
    dsimp only
    split
    · exact k
    · split
      · exact k.trans (State.ioStages_kept ..)
      · have k2 := k.trans (State.takeFree_kept _)
        split
        · split
          · exact k2
          · exact k2.trans (State.ioStages_kept ..)
        · exact k2.trans (State.ioStages_kept ..)

/-- A translation keeps the queue and the canonical form of the stores. -/
theorem State.iommuOut_kept (s : State) (f : Nat) (pasid : Option Nat) (iova : Nat) (write : Bool) :
    Keeps s (s.iommuOut f pasid iova write).2 := by
  unfold State.iommuOut
  dsimp only
  split
  · exact Keeps.refl s
  · split
    · exact Keeps.refl s
    · by_cases hw : 2 ^ (if s.get F.MEM_IOMMU_DDTP_MODE = 3 then 16 else 24) ≤ f
      · rw [if_pos hw]; exact Keeps.refl s
      · rw [if_neg hw]
        split
        · next h => exact Keeps.via h (State.dirWalk_kept _ _ _ _ (fun t a => Keeps.refl t) ..)
        · next h =>
          have k := Keeps.via h (State.dirWalk_kept _ _ _ _ (fun t a => Keeps.refl t) ..)
          split
          · next h2 => exact k.trans (Keeps.via h2 (State.tableRead_kept ..))
          · next h2 =>
            have k2 := k.trans (Keeps.via h2 (State.tableRead_kept ..))
            split
            · exact k2
            · split
              · exact k2
              · split <;> (next h3 => exact k2.trans (Keeps.via h3 (State.ioTranslate_kept ..)))

/-- With the IOMMU in Bare an address passes, and nothing changes (R446). -/
@[simp] theorem State.iommuOut_bare (s : State) (f : Nat) (pasid : Option Nat) (iova : Nat) (write : Bool)
    (h : s.get F.MEM_IOMMU_DDTP_MODE = 1) : s.iommuOut f pasid iova write = (.ok iova, s) := by
  simp [State.iommuOut, h]

@[simp] theorem State.iotlbDropVma_pending (s : State) (g p v : Option Nat) : (s.iotlbDropVma g p v).pending = s.pending := by
  simp [State.iotlbDropVma]
@[simp] theorem State.iotlbDropVma_canonical (s : State) (g p v : Option Nat) (hs : s.canonical = true) :
    (s.iotlbDropVma g p v).canonical = true := by
  simp [State.iotlbDropVma, hs]
@[simp] theorem State.iotlbDropGvma_pending (s : State) (g v : Option Nat) : (s.iotlbDropGvma g v).pending = s.pending := by
  simp [State.iotlbDropGvma]
@[simp] theorem State.iotlbDropGvma_canonical (s : State) (g v : Option Nat) (hs : s.canonical = true) :
    (s.iotlbDropGvma g v).canonical = true := by
  simp [State.iotlbDropGvma, hs]

end Sys2Proof.Machine
end

