-- ==== Sys2Proof/Laws/KeepDma.lean ====
section
/-! SUPPORT. Machine/Dma.lean: what each of its operations keeps (memory where it stores nothing, the queue, the
canonical form of the stores). -/

namespace Sys2Proof.Machine

set_option linter.all false
set_option Elab.async false

@[simp] theorem State.logHeader_canonical (s : State) (f : Nat) (hs : s.canonical = true) : (State.logHeader s f).canonical = true := by
  unfold State.logHeader; (try simp only []); (repeat' split) <;> simp +contextual (maxDischargeDepth := 64) [hs]
@[simp] theorem State.aer_canonical (s : State) (f bit : Nat) (advisory : Bool) (hs : s.canonical = true) : (State.aer s f bit advisory).canonical = true := by
  unfold State.aer; simp +contextual (maxDischargeDepth := 64) [hs]
@[simp] theorem State.aerCorrected_mem (s : State) (f : Nat) : (State.aerCorrected s f).mem = s.mem := by
  unfold State.aerCorrected; (try simp only []); (repeat' split) <;> simp +contextual (maxDischargeDepth := 64)
@[simp] theorem State.aerCorrected_pending (s : State) (f : Nat) : (State.aerCorrected s f).pending = s.pending := by
  unfold State.aerCorrected; (try simp only []); (repeat' split) <;> simp +contextual (maxDischargeDepth := 64)
@[simp] theorem State.aerCorrected_canonical (s : State) (f : Nat) (hs : s.canonical = true) : (State.aerCorrected s f).canonical = true := by
  unfold State.aerCorrected; (try simp only []); (repeat' split) <;> simp +contextual (maxDischargeDepth := 64) [hs]
@[simp] theorem State.hifFault_canonical (s : State) (cond fn detail : Nat) (hs : s.canonical = true) : (State.hifFault s cond fn detail).canonical = true := by
  unfold State.hifFault; simp +contextual (maxDischargeDepth := 64) [hs]
@[simp] theorem State.setTdi_canonical (s : State) (f v : Nat) (hs : s.canonical = true) : (State.setTdi s f v).canonical = true := by
  unfold State.setTdi; simp +contextual (maxDischargeDepth := 64) [hs]
@[simp] theorem State.tdiError_canonical (s : State) (f : Nat) (hs : s.canonical = true) : (State.tdiError s f).canonical = true := by
  unfold State.tdiError; simp +contextual (maxDischargeDepth := 64) [hs]
@[simp] theorem State.tdiGroupLeft_mem (s : State) (g : Nat) : (State.tdiGroupLeft s g).mem = s.mem := by
  unfold State.tdiGroupLeft; simp +contextual (maxDischargeDepth := 64)
@[simp] theorem State.tdiGroupLeft_pending (s : State) (g : Nat) : (State.tdiGroupLeft s g).pending = s.pending := by
  unfold State.tdiGroupLeft; simp +contextual (maxDischargeDepth := 64)
@[simp] theorem State.tdiGroupLeft_canonical (s : State) (g : Nat) (hs : s.canonical = true) : (State.tdiGroupLeft s g).canonical = true := by
  unfold State.tdiGroupLeft; simp +contextual (maxDischargeDepth := 64) [hs]
@[simp] theorem State.pickTag_mem (s : State) (port : Nat) : (State.pickTag s port).2.mem = s.mem := by
  unfold State.pickTag; simp +contextual (maxDischargeDepth := 64)
@[simp] theorem State.pickTag_pending (s : State) (port : Nat) : (State.pickTag s port).2.pending = s.pending := by
  unfold State.pickTag; simp +contextual (maxDischargeDepth := 64)
@[simp] theorem State.pickTag_canonical (s : State) (port : Nat) (hs : s.canonical = true) : (State.pickTag s port).2.canonical = true := by
  unfold State.pickTag; simp +contextual (maxDischargeDepth := 64) [hs]
theorem State.pickTag_keeps {s : State} {port : Nat} {r0 r1} (hx : State.pickTag s port = (r0, r1)) : r1.pending = s.pending ∧ (s.canonical = true → r1.canonical = true) ∧ r1.mem = s.mem := by
  have pending' := State.pickTag_pending s port
  rw [hx] at pending'
  have canonical' := fun hs => State.pickTag_canonical s port hs
  rw [hx] at canonical'
  have mem' := State.pickTag_mem s port
  rw [hx] at mem'
  exact ⟨pending', canonical', mem'⟩
@[simp] theorem State.setQuarantine_canonical (s : State) (l : List (Nat × Nat)) (hs : s.canonical = true) : (State.setQuarantine s l).canonical = true := by
  unfold State.setQuarantine; simp +contextual (maxDischargeDepth := 64) [hs]
@[simp] theorem State.requestTimeout_canonical (s : State) (f tag : Nat) (hs : s.canonical = true) : (State.requestTimeout s f tag).canonical = true := by
  unfold State.requestTimeout; simp +contextual (maxDischargeDepth := 64) [hs]
@[simp] theorem State.poisonedCompletion_canonical (s : State) (f : Nat) (hs : s.canonical = true) : (State.poisonedCompletion s f).canonical = true := by
  unfold State.poisonedCompletion; simp +contextual (maxDischargeDepth := 64) [hs]
@[simp] theorem State.dmaEnded_mem (s : State) (f : Nat) (e : DmaEnd) : (State.dmaEnded s f e).mem = s.mem := by
  unfold State.dmaEnded; (try simp only []); (repeat' split) <;> simp +contextual (maxDischargeDepth := 64)
@[simp] theorem State.dmaEnded_pending (s : State) (f : Nat) (e : DmaEnd) : (State.dmaEnded s f e).pending = s.pending := by
  unfold State.dmaEnded; (try simp only []); (repeat' split) <;> simp +contextual (maxDischargeDepth := 64)
@[simp] theorem State.dmaEnded_canonical (s : State) (f : Nat) (e : DmaEnd) (hs : s.canonical = true) : (State.dmaEnded s f e).canonical = true := by
  unfold State.dmaEnded; (try simp only []); (repeat' split) <;> simp +contextual (maxDischargeDepth := 64) [hs]
@[simp] theorem State.iommuMsi_pending (s : State) (vec : Nat) : (State.iommuMsi s vec).pending = s.pending := by
  unfold State.iommuMsi; (try simp only []); (repeat' split) <;> simp +contextual (maxDischargeDepth := 64)
@[simp] theorem State.iommuMsi_canonical (s : State) (vec : Nat) (hs : s.canonical = true) : (State.iommuMsi s vec).canonical = true := by
  unfold State.iommuMsi; (try simp only []); (repeat' split) <;> simp +contextual (maxDischargeDepth := 64) [hs]
@[simp] theorem State.iommuFqFlag_pending (s : State) (bit : Fld) : (State.iommuFqFlag s bit).pending = s.pending := by
  unfold State.iommuFqFlag; (try simp only []); (repeat' split) <;> simp +contextual (maxDischargeDepth := 64)
@[simp] theorem State.iommuFqFlag_canonical (s : State) (bit : Fld) (hs : s.canonical = true) : (State.iommuFqFlag s bit).canonical = true := by
  unfold State.iommuFqFlag; (try simp only []); (repeat' split) <;> simp +contextual (maxDischargeDepth := 64) [hs]
@[simp] theorem State.iommuFault_pending (s : State) (f : Nat) (pasid : Option Nat) (iova : Nat) (write : Bool) (e : IoErr × Bool) : (State.iommuFault s f pasid iova write e).pending = s.pending := by
  unfold State.iommuFault; simp +contextual (maxDischargeDepth := 64)
@[simp] theorem State.iommuFault_canonical (s : State) (f : Nat) (pasid : Option Nat) (iova : Nat) (write : Bool) (e : IoErr × Bool) (hs : s.canonical = true) : (State.iommuFault s f pasid iova write e).canonical = true := by
  unfold State.iommuFault; simp +contextual (maxDischargeDepth := 64) [hs]
@[simp] theorem State.atsAsk_mem (s : State) (f : Nat) (pasid : Option Nat) (a : Nat) : (State.atsAsk s f pasid a).mem = s.mem := by
  unfold State.atsAsk; (try simp only []); (repeat' split) <;> first | (simp +contextual (maxDischargeDepth := 64) [*]; done) | (have k0 := State.takeFree_keeps (by assumption); simp +contextual (maxDischargeDepth := 64) [*]; done) | (have k0 := State.pickTag_keeps (by assumption); simp +contextual (maxDischargeDepth := 64) [*]; done) | (have k0 := State.takeFree_keeps (by assumption); have k1 := State.pickTag_keeps (by assumption); simp +contextual (maxDischargeDepth := 64) [*]; done) | (have k0 := State.pickTag_keeps (by assumption); have k1 := State.takeFree_keeps (by assumption); simp +contextual (maxDischargeDepth := 64) [*]; done)
@[simp] theorem State.atsAsk_pending (s : State) (f : Nat) (pasid : Option Nat) (a : Nat) : (State.atsAsk s f pasid a).pending = s.pending := by
  unfold State.atsAsk; (try simp only []); (repeat' split) <;> first | (simp +contextual (maxDischargeDepth := 64) [*]; done) | (have k0 := State.takeFree_keeps (by assumption); simp +contextual (maxDischargeDepth := 64) [*]; done) | (have k0 := State.pickTag_keeps (by assumption); simp +contextual (maxDischargeDepth := 64) [*]; done) | (have k0 := State.takeFree_keeps (by assumption); have k1 := State.pickTag_keeps (by assumption); simp +contextual (maxDischargeDepth := 64) [*]; done) | (have k0 := State.pickTag_keeps (by assumption); have k1 := State.takeFree_keeps (by assumption); simp +contextual (maxDischargeDepth := 64) [*]; done)
@[simp] theorem State.atsAsk_canonical (s : State) (f : Nat) (pasid : Option Nat) (a : Nat) (hs : s.canonical = true) : (State.atsAsk s f pasid a).canonical = true := by
  unfold State.atsAsk; (try simp only []); (repeat' split) <;> first | (simp +contextual (maxDischargeDepth := 64) [*]; done) | (have k0 := State.takeFree_keeps (by assumption); simp +contextual (maxDischargeDepth := 64) [*]; done) | (have k0 := State.pickTag_keeps (by assumption); simp +contextual (maxDischargeDepth := 64) [*]; done) | (have k0 := State.takeFree_keeps (by assumption); have k1 := State.pickTag_keeps (by assumption); simp +contextual (maxDischargeDepth := 64) [*]; done) | (have k0 := State.pickTag_keeps (by assumption); have k1 := State.takeFree_keeps (by assumption); simp +contextual (maxDischargeDepth := 64) [*]; done)
@[simp] theorem State.atsFill_mem (s : State) (r : HostReq) : (State.atsFill s r).mem = s.mem := by
  unfold State.atsFill; (try simp only []); (repeat' split) <;> simp +contextual (maxDischargeDepth := 64)
@[simp] theorem State.atsFill_pending (s : State) (r : HostReq) : (State.atsFill s r).pending = s.pending := by
  unfold State.atsFill; (try simp only []); (repeat' split) <;> simp +contextual (maxDischargeDepth := 64)
@[simp] theorem State.atsFill_canonical (s : State) (r : HostReq) (hs : s.canonical = true) : (State.atsFill s r).canonical = true := by
  unfold State.atsFill; (try simp only []); (repeat' split) <;> simp +contextual (maxDischargeDepth := 64) [hs]
@[simp] theorem State.atsDrop_mem (s : State) (f : Nat) (pasid : Option Nat) (a log2 : Nat) : (State.atsDrop s f pasid a log2).mem = s.mem := by
  unfold State.atsDrop; (try simp only []); (repeat' split) <;> simp +contextual (maxDischargeDepth := 64)
@[simp] theorem State.atsDrop_pending (s : State) (f : Nat) (pasid : Option Nat) (a log2 : Nat) : (State.atsDrop s f pasid a log2).pending = s.pending := by
  unfold State.atsDrop; (try simp only []); (repeat' split) <;> simp +contextual (maxDischargeDepth := 64)
@[simp] theorem State.atsDrop_canonical (s : State) (f : Nat) (pasid : Option Nat) (a log2 : Nat) (hs : s.canonical = true) : (State.atsDrop s f pasid a log2).canonical = true := by
  unfold State.atsDrop; (try simp only []); (repeat' split) <;> simp +contextual (maxDischargeDepth := 64) [hs]
@[simp] theorem State.atsClear_mem (s : State) (f : Nat) : (State.atsClear s f).mem = s.mem := by
  unfold State.atsClear; (try simp only []); (repeat' split) <;> simp +contextual (maxDischargeDepth := 64)
@[simp] theorem State.atsClear_pending (s : State) (f : Nat) : (State.atsClear s f).pending = s.pending := by
  unfold State.atsClear; (try simp only []); (repeat' split) <;> simp +contextual (maxDischargeDepth := 64)
@[simp] theorem State.atsClear_canonical (s : State) (f : Nat) (hs : s.canonical = true) : (State.atsClear s f).canonical = true := by
  unfold State.atsClear; (try simp only []); (repeat' split) <;> simp +contextual (maxDischargeDepth := 64) [hs]
theorem State.dmaOut_kept (s : State) (f : Nat) (pasid : Option Nat) (iova : Nat) (write : Bool) :
    Keeps s (s.dmaOut f pasid iova write).2 := by
  unfold State.dmaOut
  split
  · next h => exact (Keeps.via h (State.iommuOut_kept ..)).trans (.of (by simp) (fun h => by simp [h]))
  · next h => exact (Keeps.via h (State.iommuOut_kept ..)).trans (.of (by simp) (fun h => by simp [h]))
theorem State.dmaOut_keeps {s : State} {f : Nat} {pasid : Option Nat} {iova : Nat} {write : Bool} {r0 r1}
    (hx : s.dmaOut f pasid iova write = (r0, r1)) : r1.pending = s.pending ∧ (s.canonical = true → r1.canonical = true) :=
  Keeps.via hx (State.dmaOut_kept ..)
theorem State.dmaOuts_kept (s : State) (f : Nat) (pasid : Option Nat) (l : List (Nat × Nat)) :
    Keeps s (s.dmaOuts f pasid l).2 := by
  induction l generalizing s with
  | nil => exact Keeps.refl s
  | cons x t ih =>
    unfold State.dmaOuts
    split
    · next h => exact Keeps.via h (State.dmaOut_kept ..)
    · next h => exact (Keeps.via h (State.dmaOut_kept ..)).trans (ih _)
theorem State.readPass_keeps {s : State} {f : Nat} {pasid : Option Nat} {iova n : Nat} {r0 r1}
    (hx : s.readPass f pasid iova n = (r0, r1)) : r1.pending = s.pending ∧ (s.canonical = true → r1.canonical = true) :=
  Keeps.via hx (State.dmaOuts_kept ..)
@[simp] theorem State.readPass_pending (s : State) (f : Nat) (pasid : Option Nat) (iova n : Nat) :
    (s.readPass f pasid iova n).2.pending = s.pending := (State.dmaOuts_kept ..).1
@[simp] theorem State.readPass_canonical (s : State) (f : Nat) (pasid : Option Nat) (iova n : Nat) (hs : s.canonical = true) :
    (s.readPass f pasid iova n).2.canonical = true := (State.dmaOuts_kept ..).2 hs
theorem State.writePieces_kept (s : State) (f : Nat) (pasid : Option Nat) (signal : Bool) (data : List Byte)
    (l : List (Nat × Nat)) : Keeps s (s.writePieces f pasid signal data l).2 := by
  induction l generalizing s data with
  | nil => exact Keeps.refl s
  | cons x t ih =>
    unfold State.writePieces
    split
    · next h => exact Keeps.via h (State.dmaOut_kept ..)
    · next h =>
      exact ((Keeps.via h (State.dmaOut_kept ..)).trans (.of (by simp) (fun h => by simp [h]))).trans (ih _ _)
@[simp] theorem State.writePieces_pending (s : State) (f : Nat) (pasid : Option Nat) (signal : Bool) (data : List Byte) (x1 : List (Nat × Nat)) : (State.writePieces s f pasid signal data x1).2.pending = s.pending := by
  exact (State.writePieces_kept ..).1
@[simp] theorem State.writePieces_canonical (s : State) (f : Nat) (pasid : Option Nat) (signal : Bool) (data : List Byte) (x1 : List (Nat × Nat)) (hs : s.canonical = true) : (State.writePieces s f pasid signal data x1).2.canonical = true := by
  exact (State.writePieces_kept ..).2 hs
theorem State.writePieces_keeps {s : State} {f : Nat} {pasid : Option Nat} {signal : Bool} {data : List Byte} {x1 : List (Nat × Nat)} {r0 r1} (hx : State.writePieces s f pasid signal data x1 = (r0, r1)) : r1.pending = s.pending ∧ (s.canonical = true → r1.canonical = true) := by
  have pending' := State.writePieces_pending s f pasid signal data x1
  rw [hx] at pending'
  have canonical' := fun hs => State.writePieces_canonical s f pasid signal data x1 hs
  rw [hx] at canonical'
  exact ⟨pending', canonical'⟩
@[simp] theorem State.dmaWrite_pending (s : State) (f : Nat) (pasid : Option Nat) (signal : Bool) (iova : Nat) (data : List Byte) : (State.dmaWrite s f pasid signal iova data).2.pending = s.pending := by
  unfold State.dmaWrite; (try simp only []); (repeat' split) <;> simp +contextual (maxDischargeDepth := 64)
@[simp] theorem State.dmaWrite_canonical (s : State) (f : Nat) (pasid : Option Nat) (signal : Bool) (iova : Nat) (data : List Byte) (hs : s.canonical = true) : (State.dmaWrite s f pasid signal iova data).2.canonical = true := by
  unfold State.dmaWrite; (try simp only []); (repeat' split) <;> simp +contextual (maxDischargeDepth := 64) [hs]
theorem State.dmaWrite_keeps {s : State} {f : Nat} {pasid : Option Nat} {signal : Bool} {iova : Nat} {data : List Byte} {r0 r1} (hx : State.dmaWrite s f pasid signal iova data = (r0, r1)) : r1.pending = s.pending ∧ (s.canonical = true → r1.canonical = true) := by
  have pending' := State.dmaWrite_pending s f pasid signal iova data
  rw [hx] at pending'
  have canonical' := fun hs => State.dmaWrite_canonical s f pasid signal iova data hs
  rw [hx] at canonical'
  exact ⟨pending', canonical'⟩
@[simp] theorem State.dmaRead_pending (s : State) (f : Nat) (pasid : Option Nat) (iova n : Nat) (data : List Byte) (e : DmaEnd) : (State.dmaRead s f pasid iova n data e).2.2.pending = s.pending := by
  unfold State.dmaRead; (try simp only []); (repeat' split) <;> simp +contextual (maxDischargeDepth := 64)
@[simp] theorem State.dmaRead_canonical (s : State) (f : Nat) (pasid : Option Nat) (iova n : Nat) (data : List Byte) (e : DmaEnd) (hs : s.canonical = true) : (State.dmaRead s f pasid iova n data e).2.2.canonical = true := by
  unfold State.dmaRead; (try simp only []); (repeat' split) <;> simp +contextual (maxDischargeDepth := 64) [hs]
theorem State.dmaRead_keeps {s : State} {f : Nat} {pasid : Option Nat} {iova n : Nat} {data : List Byte} {e : DmaEnd} {r0 r1 r2} (hx : State.dmaRead s f pasid iova n data e = (r0, r1, r2)) : r2.pending = s.pending ∧ (s.canonical = true → r2.canonical = true) := by
  have pending' := State.dmaRead_pending s f pasid iova n data e
  rw [hx] at pending'
  have canonical' := fun hs => State.dmaRead_canonical s f pasid iova n data e hs
  rw [hx] at canonical'
  exact ⟨pending', canonical'⟩

@[simp] theorem State.operatorRead_pending (s : State) (a n : Nat) (host : Bool) (hostBytes : List Byte) (x : SrcRead) : (State.operatorRead s a n host hostBytes x).2.pending = s.pending := by
  unfold State.operatorRead; (try simp only []); (repeat' split) <;> simp +contextual (maxDischargeDepth := 64)
@[simp] theorem State.operatorRead_canonical (s : State) (a n : Nat) (host : Bool) (hostBytes : List Byte) (x : SrcRead) (hs : s.canonical = true) : (State.operatorRead s a n host hostBytes x).2.canonical = true := by
  unfold State.operatorRead; (try simp only []); (repeat' split) <;> simp +contextual (maxDischargeDepth := 64) [hs]
theorem State.operatorRead_keeps {s : State} {a n : Nat} {host : Bool} {hostBytes : List Byte} {x : SrcRead} {r0 r1} (hx : State.operatorRead s a n host hostBytes x = (r0, r1)) : r1.pending = s.pending ∧ (s.canonical = true → r1.canonical = true) := by
  have pending' := State.operatorRead_pending s a n host hostBytes x
  rw [hx] at pending'
  have canonical' := fun hs => State.operatorRead_canonical s a n host hostBytes x hs
  rw [hx] at canonical'
  exact ⟨pending', canonical'⟩
end Sys2Proof.Machine
end

