-- ==== Sys2Proof/Laws/KeepEmt.lean ====
section
/-! SUPPORT. Machine/Emt.lean: what each of its operations keeps (memory where it stores nothing, the queue, the
canonical form of the stores). -/

namespace Sys2Proof.Machine

set_option linter.all false
set_option Elab.async false

@[simp] theorem State.setWays_mem (s : State) (i : Nat) (l : List EmtWay) : (State.setWays s i l).mem = s.mem := by
  unfold State.setWays; simp +contextual (maxDischargeDepth := 64)
@[simp] theorem State.setWays_pending (s : State) (i : Nat) (l : List EmtWay) : (State.setWays s i l).pending = s.pending := by
  unfold State.setWays; simp +contextual (maxDischargeDepth := 64)
@[simp] theorem State.setWays_canonical (s : State) (i : Nat) (l : List EmtWay) (hs : s.canonical = true) : (State.setWays s i l).canonical = true := by
  unfold State.setWays; simp +contextual (maxDischargeDepth := 64) [hs]
@[simp] theorem State.emtUncache_mem (s : State) (t b sl : Nat) : (State.emtUncache s t b sl).mem = s.mem := by
  unfold State.emtUncache; (try simp only []); (repeat' split) <;> simp +contextual (maxDischargeDepth := 64)
@[simp] theorem State.emtUncache_pending (s : State) (t b sl : Nat) : (State.emtUncache s t b sl).pending = s.pending := by
  unfold State.emtUncache; (try simp only []); (repeat' split) <;> simp +contextual (maxDischargeDepth := 64)
@[simp] theorem State.emtUncache_canonical (s : State) (t b sl : Nat) (hs : s.canonical = true) : (State.emtUncache s t b sl).canonical = true := by
  unfold State.emtUncache; (try simp only []); (repeat' split) <;> simp +contextual (maxDischargeDepth := 64) [hs]
@[simp] theorem State.emtTimeBack_pending (s : State) (t b sl hit : Nat) : (State.emtTimeBack s t b sl hit).pending = s.pending := by
  unfold State.emtTimeBack; simp +contextual (maxDischargeDepth := 64)
@[simp] theorem State.emtTimeBack_canonical (s : State) (t b sl hit : Nat) (hs : s.canonical = true) : (State.emtTimeBack s t b sl hit).canonical = true := by
  unfold State.emtTimeBack; simp +contextual (maxDischargeDepth := 64) [hs]
@[simp] theorem State.emtSyncTime_pending (s : State) (t b sl : Nat) : (State.emtSyncTime s t b sl).pending = s.pending := by
  unfold State.emtSyncTime; (try simp only []); (repeat' split) <;> simp +contextual (maxDischargeDepth := 64)
@[simp] theorem State.emtSyncTime_canonical (s : State) (t b sl : Nat) (hs : s.canonical = true) : (State.emtSyncTime s t b sl).canonical = true := by
  unfold State.emtSyncTime; (try simp only []); (repeat' split) <;> simp +contextual (maxDischargeDepth := 64) [hs]
@[simp] theorem State.emtFill_pending (s : State) (ha : Nat) (w : EmtWay) : (State.emtFill s ha w).pending = s.pending := by
  unfold State.emtFill; (try simp only []); (repeat' split) <;> simp +contextual (maxDischargeDepth := 64)
@[simp] theorem State.emtFill_canonical (s : State) (ha : Nat) (w : EmtWay) (hs : s.canonical = true) : (State.emtFill s ha w).canonical = true := by
  unfold State.emtFill; (try simp only []); (repeat' split) <;> simp +contextual (maxDischargeDepth := 64) [hs]
@[simp] theorem State.emtPut_pending (s : State) (t b sl : Nat) (e : List Byte) : (State.emtPut s t b sl e).pending = s.pending := by
  unfold State.emtPut; simp +contextual (maxDischargeDepth := 64)
@[simp] theorem State.emtPut_canonical (s : State) (t b sl : Nat) (e : List Byte) (hs : s.canonical = true) : (State.emtPut s t b sl e).canonical = true := by
  unfold State.emtPut; simp +contextual (maxDischargeDepth := 64) [hs]
@[simp] theorem State.emtRemove_pending (s : State) (t b sl : Nat) : (State.emtRemove s t b sl).pending = s.pending := by
  unfold State.emtRemove; (try extract_lets); (repeat' split) <;> first | simp +contextual (maxDischargeDepth := 64) only [↓State.emtPut_pending] | simp +contextual +zetaDelta (maxDischargeDepth := 64) [↓State.emtPut_pending]
@[simp] theorem State.emtRemove_canonical (s : State) (t b sl : Nat) (hs : s.canonical = true) : (State.emtRemove s t b sl).canonical = true := by
  unfold State.emtRemove; simp +contextual (maxDischargeDepth := 64) [hs]
@[simp] theorem State.emtSetLock_pending (s : State) (t b : Nat) (lock : Bool) : (State.emtSetLock s t b lock).pending = s.pending := by
  unfold State.emtSetLock; simp +contextual (maxDischargeDepth := 64)
@[simp] theorem State.emtSetLock_canonical (s : State) (t b : Nat) (lock : Bool) (hs : s.canonical = true) : (State.emtSetLock s t b lock).canonical = true := by
  unfold State.emtSetLock; simp +contextual (maxDischargeDepth := 64) [hs]
@[simp] theorem State.emtNotify_mem (s : State) (op t b sl ha ctx : Nat) : (State.emtNotify s op t b sl ha ctx).mem = s.mem := by
  unfold State.emtNotify; simp +contextual (maxDischargeDepth := 64)
@[simp] theorem State.emtNotify_pending (s : State) (op t b sl ha ctx : Nat) : (State.emtNotify s op t b sl ha ctx).pending = s.pending := by
  unfold State.emtNotify; simp +contextual (maxDischargeDepth := 64)
@[simp] theorem State.emtNotify_canonical (s : State) (op t b sl ha ctx : Nat) (hs : s.canonical = true) : (State.emtNotify s op t b sl ha ctx).canonical = true := by
  unfold State.emtNotify; simp +contextual (maxDischargeDepth := 64) [hs]
@[simp] theorem State.setEmtFails_mem (s : State) (t n : Nat) : (State.setEmtFails s t n).mem = s.mem := by
  unfold State.setEmtFails; simp +contextual (maxDischargeDepth := 64)
@[simp] theorem State.setEmtFails_pending (s : State) (t n : Nat) : (State.setEmtFails s t n).pending = s.pending := by
  unfold State.setEmtFails; simp +contextual (maxDischargeDepth := 64)
@[simp] theorem State.setEmtFails_canonical (s : State) (t n : Nat) (hs : s.canonical = true) : (State.setEmtFails s t n).canonical = true := by
  unfold State.setEmtFails; simp +contextual (maxDischargeDepth := 64) [hs]
@[simp] theorem State.emtRehash_mem (s : State) (t : Nat) : (State.emtRehash s t).mem = s.mem := by
  unfold State.emtRehash; simp +contextual (maxDischargeDepth := 64)
@[simp] theorem State.emtRehash_pending (s : State) (t : Nat) : (State.emtRehash s t).pending = s.pending := by
  unfold State.emtRehash; simp +contextual (maxDischargeDepth := 64)
@[simp] theorem State.emtRehash_canonical (s : State) (t : Nat) (hs : s.canonical = true) : (State.emtRehash s t).canonical = true := by
  unfold State.emtRehash; simp +contextual (maxDischargeDepth := 64) [hs]
@[simp] theorem State.emtRehashAll_mem (s : State) : (State.emtRehashAll s).mem = s.mem := by
  unfold State.emtRehashAll; (try simp only []); (repeat' split) <;> simp +contextual (maxDischargeDepth := 64)
@[simp] theorem State.emtRehashAll_pending (s : State) : (State.emtRehashAll s).pending = s.pending := by
  unfold State.emtRehashAll; (try simp only []); (repeat' split) <;> simp +contextual (maxDischargeDepth := 64)
@[simp] theorem State.emtRehashAll_canonical (s : State) (hs : s.canonical = true) : (State.emtRehashAll s).canonical = true := by
  unfold State.emtRehashAll; (try simp only []); (repeat' split) <;> simp +contextual (maxDischargeDepth := 64) [hs]
@[simp] theorem State.emtQueueLearn_mem (s : State) (named t : Nat) (key : List Byte) : (State.emtQueueLearn s named t key).mem = s.mem := by
  unfold State.emtQueueLearn; simp +contextual (maxDischargeDepth := 64)
@[simp] theorem State.emtQueueLearn_pending (s : State) (named t : Nat) (key : List Byte) : (State.emtQueueLearn s named t key).pending = s.pending := by
  unfold State.emtQueueLearn; simp +contextual (maxDischargeDepth := 64)
@[simp] theorem State.emtQueueLearn_canonical (s : State) (named t : Nat) (key : List Byte) (hs : s.canonical = true) : (State.emtQueueLearn s named t key).canonical = true := by
  unfold State.emtQueueLearn; simp +contextual (maxDischargeDepth := 64) [hs]
@[simp] theorem State.emtTouch_mem (s : State) (i : Nat) (w : EmtWay) : (State.emtTouch s i w).mem = s.mem := by
  unfold State.emtTouch; (try simp only []); (repeat' split) <;> simp +contextual (maxDischargeDepth := 64)
@[simp] theorem State.emtTouch_pending (s : State) (i : Nat) (w : EmtWay) : (State.emtTouch s i w).pending = s.pending := by
  unfold State.emtTouch; (try simp only []); (repeat' split) <;> simp +contextual (maxDischargeDepth := 64)
@[simp] theorem State.emtTouch_canonical (s : State) (i : Nat) (w : EmtWay) (hs : s.canonical = true) : (State.emtTouch s i w).canonical = true := by
  unfold State.emtTouch; (try simp only []); (repeat' split) <;> simp +contextual (maxDischargeDepth := 64) [hs]
@[simp] theorem State.emtLookup_mem (s : State) (named : Nat) (key : List Byte) (ue : Bool) : (State.emtLookup s named key ue).1.mem = s.mem := by
  unfold State.emtLookup; (try simp only []); (repeat' split) <;> simp +contextual (maxDischargeDepth := 64)
@[simp] theorem State.emtLookup_pending (s : State) (named : Nat) (key : List Byte) (ue : Bool) : (State.emtLookup s named key ue).1.pending = s.pending := by
  unfold State.emtLookup; (try simp only []); (repeat' split) <;> simp +contextual (maxDischargeDepth := 64)
@[simp] theorem State.emtLookup_canonical (s : State) (named : Nat) (key : List Byte) (ue : Bool) (hs : s.canonical = true) : (State.emtLookup s named key ue).1.canonical = true := by
  unfold State.emtLookup; (try simp only []); (repeat' split) <;> simp +contextual (maxDischargeDepth := 64) [hs]
theorem State.emtLookup_keeps {s : State} {named : Nat} {key : List Byte} {ue : Bool} {r0 r1 r2} (hx : State.emtLookup s named key ue = (r0, r1, r2)) : r0.pending = s.pending ∧ (s.canonical = true → r0.canonical = true) ∧ r0.mem = s.mem := by
  have pending' := State.emtLookup_pending s named key ue
  rw [hx] at pending'
  have canonical' := fun hs => State.emtLookup_canonical s named key ue hs
  rw [hx] at canonical'
  have mem' := State.emtLookup_mem s named key ue
  rw [hx] at mem'
  exact ⟨pending', canonical', mem'⟩
@[simp] theorem State.emtScanSlots_mem (s : State) (t b : Nat) (key snap : List Byte) (x1 : List Nat) : (State.emtScanSlots s t b key snap x1).1.mem = s.mem := by
  fun_induction State.emtScanSlots s t b key snap x1 <;> simp_all (maxDischargeDepth := 64)
@[simp] theorem State.emtScanSlots_pending (s : State) (t b : Nat) (key snap : List Byte) (x1 : List Nat) : (State.emtScanSlots s t b key snap x1).1.pending = s.pending := by
  fun_induction State.emtScanSlots s t b key snap x1 <;> simp_all (maxDischargeDepth := 64)
@[simp] theorem State.emtScanSlots_canonical (s : State) (t b : Nat) (key snap : List Byte) (x1 : List Nat) (hs : s.canonical = true) : (State.emtScanSlots s t b key snap x1).1.canonical = true := by
  fun_induction State.emtScanSlots s t b key snap x1 <;> simp_all (maxDischargeDepth := 64)
theorem State.emtScanSlots_keeps {s : State} {t b : Nat} {key snap : List Byte} {x1 : List Nat} {r0 r1} (hx : State.emtScanSlots s t b key snap x1 = (r0, r1)) : r0.pending = s.pending ∧ (s.canonical = true → r0.canonical = true) ∧ r0.mem = s.mem := by
  have pending' := State.emtScanSlots_pending s t b key snap x1
  rw [hx] at pending'
  have canonical' := fun hs => State.emtScanSlots_canonical s t b key snap x1 hs
  rw [hx] at canonical'
  have mem' := State.emtScanSlots_mem s t b key snap x1
  rw [hx] at mem'
  exact ⟨pending', canonical', mem'⟩
@[simp] theorem State.emtReadEnd_mem (s : State) (t b : Nat) (ecc : EccResult) : (State.emtReadEnd s t b ecc).mem = s.mem := by
  unfold State.emtReadEnd; (try simp only []); (repeat' split) <;> simp +contextual (maxDischargeDepth := 64)
@[simp] theorem State.emtReadEnd_pending (s : State) (t b : Nat) (ecc : EccResult) : (State.emtReadEnd s t b ecc).pending = s.pending := by
  unfold State.emtReadEnd; (try simp only []); (repeat' split) <;> simp +contextual (maxDischargeDepth := 64)
@[simp] theorem State.emtReadEnd_canonical (s : State) (t b : Nat) (ecc : EccResult) (hs : s.canonical = true) : (State.emtReadEnd s t b ecc).canonical = true := by
  unfold State.emtReadEnd; (try simp only []); (repeat' split) <;> simp +contextual (maxDischargeDepth := 64) [hs]
@[simp] theorem State.emtMatch_mem (s : State) (t b : Nat) (key snap : List Byte) (bad : Bool) : (State.emtMatch s t b key snap bad).1.mem = s.mem := by
  unfold State.emtMatch; (try simp only []); (repeat' split) <;> simp +contextual (maxDischargeDepth := 64)
@[simp] theorem State.emtMatch_pending (s : State) (t b : Nat) (key snap : List Byte) (bad : Bool) : (State.emtMatch s t b key snap bad).1.pending = s.pending := by
  unfold State.emtMatch; (try simp only []); (repeat' split) <;> simp +contextual (maxDischargeDepth := 64)
@[simp] theorem State.emtMatch_canonical (s : State) (t b : Nat) (key snap : List Byte) (bad : Bool) (hs : s.canonical = true) : (State.emtMatch s t b key snap bad).1.canonical = true := by
  unfold State.emtMatch; (try simp only []); (repeat' split) <;> simp +contextual (maxDischargeDepth := 64) [hs]
theorem State.emtMatch_keeps {s : State} {t b : Nat} {key snap : List Byte} {bad : Bool} {r0 r1} (hx : State.emtMatch s t b key snap bad = (r0, r1)) : r0.pending = s.pending ∧ (s.canonical = true → r0.canonical = true) ∧ r0.mem = s.mem := by
  have pending' := State.emtMatch_pending s t b key snap bad
  rw [hx] at pending'
  have canonical' := fun hs => State.emtMatch_canonical s t b key snap bad hs
  rw [hx] at canonical'
  have mem' := State.emtMatch_mem s t b key snap bad
  rw [hx] at mem'
  exact ⟨pending', canonical', mem'⟩
@[simp] theorem State.emtHbmHit_pending (s : State) (l : EmtLookup) (key : List Byte) (b sl : Nat) : (State.emtHbmHit s l key b sl).pending = s.pending := by
  unfold State.emtHbmHit; (try simp only []); (repeat' split) <;> simp +contextual (maxDischargeDepth := 64)
@[simp] theorem State.emtHbmHit_canonical (s : State) (l : EmtLookup) (key : List Byte) (b sl : Nat) (hs : s.canonical = true) : (State.emtHbmHit s l key b sl).canonical = true := by
  unfold State.emtHbmHit; (try simp only []); (repeat' split) <;> simp +contextual (maxDischargeDepth := 64) [hs]
@[simp] theorem State.emtReturn_pending (s : State) (l : EmtLookup) (key : List Byte) (eccA eccB : EccResult) : (State.emtReturn s l key eccA eccB).1.pending = s.pending := by
  unfold State.emtReturn; (try simp only []); (repeat' split) <;> simp +contextual (maxDischargeDepth := 64)
@[simp] theorem State.emtReturn_canonical (s : State) (l : EmtLookup) (key : List Byte) (eccA eccB : EccResult) (hs : s.canonical = true) : (State.emtReturn s l key eccA eccB).1.canonical = true := by
  unfold State.emtReturn; (try simp only []); (repeat' split) <;> simp +contextual (maxDischargeDepth := 64) [hs]
theorem State.emtReturn_keeps {s : State} {l : EmtLookup} {key : List Byte} {eccA eccB : EccResult} {r0 r1} (hx : State.emtReturn s l key eccA eccB = (r0, r1)) : r0.pending = s.pending ∧ (s.canonical = true → r0.canonical = true) := by
  have pending' := State.emtReturn_pending s l key eccA eccB
  rw [hx] at pending'
  have canonical' := fun hs => State.emtReturn_canonical s l key eccA eccB hs
  rw [hx] at canonical'
  exact ⟨pending', canonical'⟩
@[simp] theorem State.emtPop_mem (s : State) : (State.emtPop s).mem = s.mem := by
  unfold State.emtPop; simp +contextual (maxDischargeDepth := 64)
@[simp] theorem State.emtPop_pending (s : State) : (State.emtPop s).pending = s.pending := by
  unfold State.emtPop; simp +contextual (maxDischargeDepth := 64)
@[simp] theorem State.emtPop_canonical (s : State) (hs : s.canonical = true) : (State.emtPop s).canonical = true := by
  unfold State.emtPop; simp +contextual (maxDischargeDepth := 64) [hs]
@[simp] theorem State.emtPlaceFail_mem (s : State) (t : Nat) : (State.emtPlaceFail s t).mem = s.mem := by
  unfold State.emtPlaceFail; simp +contextual (maxDischargeDepth := 64)
@[simp] theorem State.emtPlaceFail_pending (s : State) (t : Nat) : (State.emtPlaceFail s t).pending = s.pending := by
  unfold State.emtPlaceFail; simp +contextual (maxDischargeDepth := 64)
@[simp] theorem State.emtPlaceFail_canonical (s : State) (t : Nat) (hs : s.canonical = true) : (State.emtPlaceFail s t).canonical = true := by
  unfold State.emtPlaceFail; simp +contextual (maxDischargeDepth := 64) [hs]
@[simp] theorem execDisplacementMove_stays (s : State) : Res.stays s (execDisplacementMove s) := by
  unfold execDisplacementMove; (try simp only []); (repeat' split) <;> simp +contextual (maxDischargeDepth := 64)
@[simp] theorem State.emtCommand_mem (s : State) (op t : Nat) : (State.emtCommand s op t).mem = s.mem := by
  unfold State.emtCommand; simp +contextual (maxDischargeDepth := 64)
@[simp] theorem State.emtCommand_pending (s : State) (op t : Nat) : (State.emtCommand s op t).pending = s.pending := by
  unfold State.emtCommand; simp +contextual (maxDischargeDepth := 64)
@[simp] theorem State.emtCommand_canonical (s : State) (op t : Nat) (hs : s.canonical = true) : (State.emtCommand s op t).canonical = true := by
  unfold State.emtCommand; simp +contextual (maxDischargeDepth := 64) [hs]
@[simp] theorem execEmtInsert_quiet (table : Nat) (s : State) : Res.quiet s (execEmtInsert table s) := by
  unfold execEmtInsert; simp +contextual (maxDischargeDepth := 64)
@[simp] theorem execEmtUpsert_quiet (table : Nat) (s : State) : Res.quiet s (execEmtUpsert table s) := by
  unfold execEmtUpsert; simp +contextual (maxDischargeDepth := 64)
@[simp] theorem execEmtDelete_quiet (table : Nat) (s : State) : Res.quiet s (execEmtDelete table s) := by
  unfold execEmtDelete; simp +contextual (maxDischargeDepth := 64)
@[simp] theorem execEmtFind_quiet (table : Nat) (s : State) : Res.quiet s (execEmtFind table s) := by
  unfold execEmtFind; simp +contextual (maxDischargeDepth := 64)
@[simp] theorem execEmtReadAt_quiet (table : Nat) (s : State) : Res.quiet s (execEmtReadAt table s) := by
  unfold execEmtReadAt; simp +contextual (maxDischargeDepth := 64)
@[simp] theorem execEmtDeleteAt_quiet (table : Nat) (s : State) : Res.quiet s (execEmtDeleteAt table s) := by
  unfold execEmtDeleteAt; simp +contextual (maxDischargeDepth := 64)
@[simp] theorem State.emtCmdEnd_mem (s : State) (t cond b sl : Nat) (found entry : Bool) : (State.emtCmdEnd s t cond b sl found entry).mem = s.mem := by
  unfold State.emtCmdEnd; simp +contextual (maxDischargeDepth := 64)
@[simp] theorem State.emtCmdEnd_pending (s : State) (t cond b sl : Nat) (found entry : Bool) : (State.emtCmdEnd s t cond b sl found entry).pending = s.pending := by
  unfold State.emtCmdEnd; simp +contextual (maxDischargeDepth := 64)
@[simp] theorem State.emtCmdEnd_canonical (s : State) (t cond b sl : Nat) (found entry : Bool) (hs : s.canonical = true) : (State.emtCmdEnd s t cond b sl found entry).canonical = true := by
  unfold State.emtCmdEnd; simp +contextual (maxDischargeDepth := 64) [hs]
@[simp] theorem State.emtReadAt_mem (s : State) (t b sl : Nat) : (State.emtReadAt s t b sl).mem = s.mem := by
  unfold State.emtReadAt; simp +contextual (maxDischargeDepth := 64)
@[simp] theorem State.emtReadAt_pending (s : State) (t b sl : Nat) : (State.emtReadAt s t b sl).pending = s.pending := by
  unfold State.emtReadAt; simp +contextual (maxDischargeDepth := 64)
@[simp] theorem State.emtReadAt_canonical (s : State) (t b sl : Nat) (hs : s.canonical = true) : (State.emtReadAt s t b sl).canonical = true := by
  unfold State.emtReadAt; simp +contextual (maxDischargeDepth := 64) [hs]
@[simp] theorem State.emtInsert_stays (s : State) (t : Nat) (key : List Byte) (data : Word) (a b : Nat) : Res.stays s (State.emtInsert s t key data a b) := by
  unfold State.emtInsert; (try simp only []); (repeat' split) <;> simp +contextual (maxDischargeDepth := 64)
@[simp] theorem execEmtCmdDone_stays (s : State) : Res.stays s (execEmtCmdDone s) := by
  unfold execEmtCmdDone; (try simp only []); (repeat' split) <;> simp +contextual (maxDischargeDepth := 64)
@[simp] theorem execLearnApply_stays (s : State) : Res.stays s (execLearnApply s) := by
  unfold execLearnApply; (try simp only []); (repeat' split) <;> simp +contextual (maxDischargeDepth := 64)
@[simp] theorem execAgeScan_stays (s : State) : Res.stays s (execAgeScan s) := by
  unfold execAgeScan; (try simp only []); (repeat' split) <;> simp +contextual (maxDischargeDepth := 64)
@[simp] theorem execAgeRemoval_stays (s : State) : Res.stays s (execAgeRemoval s) := by
  unfold execAgeRemoval; (try simp only []); (repeat' split) <;> simp +contextual (maxDischargeDepth := 64)
@[simp] theorem State.emtDma_mem (s : State) (op : Nat) (host : Bool) : (State.emtDma s op host).mem = s.mem := by
  unfold State.emtDma; simp +contextual (maxDischargeDepth := 64)
@[simp] theorem State.emtDma_pending (s : State) (op : Nat) (host : Bool) : (State.emtDma s op host).pending = s.pending := by
  unfold State.emtDma; simp +contextual (maxDischargeDepth := 64)
@[simp] theorem State.emtDma_canonical (s : State) (op : Nat) (host : Bool) (hs : s.canonical = true) : (State.emtDma s op host).canonical = true := by
  unfold State.emtDma; simp +contextual (maxDischargeDepth := 64) [hs]
@[simp] theorem execEmtDmaRead_quiet (host : Bool) (s : State) : Res.quiet s (execEmtDmaRead host s) := by
  unfold execEmtDmaRead; simp +contextual (maxDischargeDepth := 64)
@[simp] theorem execReadLock_quiet (host : Bool) (s : State) : Res.quiet s (execReadLock host s) := by
  unfold execReadLock; simp +contextual (maxDischargeDepth := 64)
@[simp] theorem execEmtDmaWrite_quiet (host : Bool) (s : State) : Res.quiet s (execEmtDmaWrite host s) := by
  unfold execEmtDmaWrite; simp +contextual (maxDischargeDepth := 64)
@[simp] theorem execWriteUnlock_quiet (host : Bool) (s : State) : Res.quiet s (execWriteUnlock host s) := by
  unfold execWriteUnlock; simp +contextual (maxDischargeDepth := 64)
@[simp] theorem execEmtDmaUnlock_quiet (host : Bool) (s : State) : Res.quiet s (execEmtDmaUnlock host s) := by
  unfold execEmtDmaUnlock; simp +contextual (maxDischargeDepth := 64)
@[simp] theorem State.emtBucketOut_pending (s : State) (host : Bool) (addr t b : Nat) (x : SrcRead) : (State.emtBucketOut s host addr t b x).2.pending = s.pending := by
  unfold State.emtBucketOut; (try simp only []); (repeat' split) <;> simp +contextual (maxDischargeDepth := 64)
@[simp] theorem State.emtBucketOut_canonical (s : State) (host : Bool) (addr t b : Nat) (x : SrcRead) (hs : s.canonical = true) : (State.emtBucketOut s host addr t b x).2.canonical = true := by
  unfold State.emtBucketOut; (try simp only []); (repeat' split) <;> simp +contextual (maxDischargeDepth := 64) [hs]
@[simp] theorem State.emtBucketIn_pending (s : State) (t b : Nat) (img : List Byte) : (State.emtBucketIn s t b img).pending = s.pending := by
  unfold State.emtBucketIn; simp +contextual (maxDischargeDepth := 64)
@[simp] theorem State.emtBucketIn_canonical (s : State) (t b : Nat) (img : List Byte) (hs : s.canonical = true) : (State.emtBucketIn s t b img).canonical = true := by
  unfold State.emtBucketIn; simp +contextual (maxDischargeDepth := 64) [hs]
@[simp] theorem State.emtAgain_mem (s : State) (o : EmtOp) : (State.emtAgain s o).mem = s.mem := by
  unfold State.emtAgain; (try simp only []); (repeat' split) <;> simp +contextual (maxDischargeDepth := 64)
@[simp] theorem State.emtAgain_pending (s : State) (o : EmtOp) : (State.emtAgain s o).pending = s.pending := by
  unfold State.emtAgain; (try simp only []); (repeat' split) <;> simp +contextual (maxDischargeDepth := 64)
@[simp] theorem State.emtAgain_canonical (s : State) (o : EmtOp) (hs : s.canonical = true) : (State.emtAgain s o).canonical = true := by
  unfold State.emtAgain; (try simp only []); (repeat' split) <;> simp +contextual (maxDischargeDepth := 64) [hs]
@[simp] theorem State.emtDmaBucket_pending (s : State) (op : Nat) (host : Bool) (addr t b : Nat) (hostBytes : List Byte) (x : SrcRead) : (State.emtDmaBucket s op host addr t b hostBytes x).2.pending = s.pending := by
  unfold State.emtDmaBucket; (try simp only []); (repeat' split) <;> simp +contextual (maxDischargeDepth := 64)
@[simp] theorem State.emtDmaBucket_canonical (s : State) (op : Nat) (host : Bool) (addr t b : Nat) (hostBytes : List Byte) (x : SrcRead) (hs : s.canonical = true) : (State.emtDmaBucket s op host addr t b hostBytes x).2.canonical = true := by
  unfold State.emtDmaBucket; (try simp only []); (repeat' split) <;> simp +contextual (maxDischargeDepth := 64) [hs]
theorem State.emtDmaBucket_keeps {s : State} {op : Nat} {host : Bool} {addr t b : Nat} {hostBytes : List Byte} {x : SrcRead} {r0 r1} (hx : State.emtDmaBucket s op host addr t b hostBytes x = (r0, r1)) : r1.pending = s.pending ∧ (s.canonical = true → r1.canonical = true) := by
  have pending' := State.emtDmaBucket_pending s op host addr t b hostBytes x
  rw [hx] at pending'
  have canonical' := fun hs => State.emtDmaBucket_canonical s op host addr t b hostBytes x hs
  rw [hx] at canonical'
  exact ⟨pending', canonical'⟩
@[simp] theorem execEmtDmaDone_stays (hostBytes : List Byte) (x : SrcRead) (s : State) : Res.stays s (execEmtDmaDone hostBytes x s) := by
  unfold execEmtDmaDone; (try simp only []); (repeat' split) <;> simp +contextual (maxDischargeDepth := 64)
@[simp] theorem State.emtRedirGo_mem (s : State) (t : Nat) : (State.emtRedirGo s t).mem = s.mem := by
  unfold State.emtRedirGo; simp +contextual (maxDischargeDepth := 64)
@[simp] theorem State.emtRedirGo_pending (s : State) (t : Nat) : (State.emtRedirGo s t).pending = s.pending := by
  unfold State.emtRedirGo; simp +contextual (maxDischargeDepth := 64)
@[simp] theorem State.emtRedirGo_canonical (s : State) (t : Nat) (hs : s.canonical = true) : (State.emtRedirGo s t).canonical = true := by
  unfold State.emtRedirGo; simp +contextual (maxDischargeDepth := 64) [hs]
@[simp] theorem execEmtRedirCommitGo_quiet (table : Nat) (s : State) : Res.quiet s (execEmtRedirCommitGo table s) := by
  unfold execEmtRedirCommitGo; simp +contextual (maxDischargeDepth := 64)
@[simp] theorem State.emtRedirect_mem (s : State) : (State.emtRedirect s).mem = s.mem := by
  unfold State.emtRedirect; simp +contextual (maxDischargeDepth := 64)
@[simp] theorem State.emtRedirect_pending (s : State) : (State.emtRedirect s).pending = s.pending := by
  unfold State.emtRedirect; simp +contextual (maxDischargeDepth := 64)
@[simp] theorem State.emtRedirect_canonical (s : State) (hs : s.canonical = true) : (State.emtRedirect s).canonical = true := by
  unfold State.emtRedirect; simp +contextual (maxDischargeDepth := 64) [hs]

end Sys2Proof.Machine
end

