-- ==== Sys2Proof/Laws/KeepAcm.lean ====
section
/-! SUPPORT. Machine/Acm.lean: what each of its operations keeps (memory where it stores nothing, the queue, the
canonical form of the stores). -/

namespace Sys2Proof.Machine

set_option linter.all false
set_option Elab.async false

@[simp] theorem State.setAcmEntry_mem (s : State) (bank i : Nat) (e : AcmEntry) : (State.setAcmEntry s bank i e).mem = s.mem := by
  unfold State.setAcmEntry; simp +contextual (maxDischargeDepth := 64)
@[simp] theorem State.setAcmEntry_pending (s : State) (bank i : Nat) (e : AcmEntry) : (State.setAcmEntry s bank i e).pending = s.pending := by
  unfold State.setAcmEntry; simp +contextual (maxDischargeDepth := 64)
@[simp] theorem State.setAcmEntry_canonical (s : State) (bank i : Nat) (e : AcmEntry) (hs : s.canonical = true) : (State.setAcmEntry s bank i e).canonical = true := by
  unfold State.setAcmEntry; simp +contextual (maxDischargeDepth := 64) [hs]
@[simp] theorem State.acmVerGo_mem (s : State) : (State.acmVerGo s).mem = s.mem := by
  unfold State.acmVerGo; simp +contextual (maxDischargeDepth := 64)
@[simp] theorem State.acmVerGo_pending (s : State) : (State.acmVerGo s).pending = s.pending := by
  unfold State.acmVerGo; simp +contextual (maxDischargeDepth := 64)
@[simp] theorem State.acmVerGo_canonical (s : State) (hs : s.canonical = true) : (State.acmVerGo s).canonical = true := by
  unfold State.acmVerGo; simp +contextual (maxDischargeDepth := 64) [hs]
@[simp] theorem execAcmVerCommitGo_quiet (s : State) : Res.quiet s (execAcmVerCommitGo s) := by
  unfold execAcmVerCommitGo; simp +contextual (maxDischargeDepth := 64)
@[simp] theorem execAcmVerApply_quiet (s : State) : Res.quiet s (execAcmVerApply s) := by
  unfold execAcmVerApply; simp +contextual (maxDischargeDepth := 64)
@[simp] theorem execVersionRetire_quiet (s : State) : Res.quiet s (execVersionRetire s) := by
  unfold execVersionRetire; simp +contextual (maxDischargeDepth := 64)
@[simp] theorem execSweepEnd_quiet (s : State) : Res.quiet s (execSweepEnd s) := by
  unfold execSweepEnd; (try simp only []); (repeat' split) <;> simp +contextual (maxDischargeDepth := 64)
@[simp] theorem State.acmEntCmd_mem (s : State) (op : Nat) : (State.acmEntCmd s op).mem = s.mem := by
  unfold State.acmEntCmd; simp +contextual (maxDischargeDepth := 64)
@[simp] theorem State.acmEntCmd_pending (s : State) (op : Nat) : (State.acmEntCmd s op).pending = s.pending := by
  unfold State.acmEntCmd; simp +contextual (maxDischargeDepth := 64)
@[simp] theorem State.acmEntCmd_canonical (s : State) (op : Nat) (hs : s.canonical = true) : (State.acmEntCmd s op).canonical = true := by
  unfold State.acmEntCmd; simp +contextual (maxDischargeDepth := 64) [hs]
@[simp] theorem execAcmEntWrite_quiet (s : State) : Res.quiet s (execAcmEntWrite s) := by
  unfold execAcmEntWrite; simp +contextual (maxDischargeDepth := 64)
@[simp] theorem execAcmEntWriteCtrl_quiet (s : State) : Res.quiet s (execAcmEntWriteCtrl s) := by
  unfold execAcmEntWriteCtrl; simp +contextual (maxDischargeDepth := 64)
@[simp] theorem execAcmEntRead_quiet (s : State) : Res.quiet s (execAcmEntRead s) := by
  unfold execAcmEntRead; simp +contextual (maxDischargeDepth := 64)
@[simp] theorem execAcmEntInvalidate_quiet (s : State) : Res.quiet s (execAcmEntInvalidate s) := by
  unfold execAcmEntInvalidate; simp +contextual (maxDischargeDepth := 64)
@[simp] theorem execAcmEntCmdDone_quiet (s : State) : Res.quiet s (execAcmEntCmdDone s) := by
  unfold execAcmEntCmdDone; (try simp only []); (repeat' split) <;> simp +contextual (maxDischargeDepth := 64)
@[simp] theorem State.acmShiftCmd_mem (s : State) (down : Bool) (bank first last : Nat) : (State.acmShiftCmd s down bank first last).mem = s.mem := by
  unfold State.acmShiftCmd; simp +contextual (maxDischargeDepth := 64)
@[simp] theorem State.acmShiftCmd_pending (s : State) (down : Bool) (bank first last : Nat) : (State.acmShiftCmd s down bank first last).pending = s.pending := by
  unfold State.acmShiftCmd; simp +contextual (maxDischargeDepth := 64)
@[simp] theorem State.acmShiftCmd_canonical (s : State) (down : Bool) (bank first last : Nat) (hs : s.canonical = true) : (State.acmShiftCmd s down bank first last).canonical = true := by
  unfold State.acmShiftCmd; simp +contextual (maxDischargeDepth := 64) [hs]
@[simp] theorem execAcmShift_quiet (down : Bool) (bank first last : Nat) (s : State) : Res.quiet s (execAcmShift down bank first last s) := by
  unfold execAcmShift; simp +contextual (maxDischargeDepth := 64)
@[simp] theorem execAcmShiftDone_quiet (s : State) : Res.quiet s (execAcmShiftDone s) := by
  unfold execAcmShiftDone; (try simp only []); (repeat' split) <;> simp +contextual (maxDischargeDepth := 64)
@[simp] theorem execAcmParityScan_quiet (bank entry : Nat) (s : State) : Res.quiet s (execAcmParityScan bank entry s) := by
  unfold execAcmParityScan; simp +contextual (maxDischargeDepth := 64)
@[simp] theorem State.actWrite_mem (s : State) : (State.actWrite s).mem = s.mem := by
  unfold State.actWrite; simp +contextual (maxDischargeDepth := 64)
@[simp] theorem State.actWrite_pending (s : State) : (State.actWrite s).pending = s.pending := by
  unfold State.actWrite; simp +contextual (maxDischargeDepth := 64)
@[simp] theorem State.actWrite_canonical (s : State) (hs : s.canonical = true) : (State.actWrite s).canonical = true := by
  unfold State.actWrite; simp +contextual (maxDischargeDepth := 64) [hs]
@[simp] theorem State.actRead_mem (s : State) : (State.actRead s).mem = s.mem := by
  unfold State.actRead; simp +contextual (maxDischargeDepth := 64)
@[simp] theorem State.actRead_pending (s : State) : (State.actRead s).pending = s.pending := by
  unfold State.actRead; simp +contextual (maxDischargeDepth := 64)
@[simp] theorem State.actRead_canonical (s : State) (hs : s.canonical = true) : (State.actRead s).canonical = true := by
  unfold State.actRead; simp +contextual (maxDischargeDepth := 64) [hs]
@[simp] theorem execAcmActWrite_quiet (s : State) : Res.quiet s (execAcmActWrite s) := by
  unfold execAcmActWrite; simp +contextual (maxDischargeDepth := 64)
@[simp] theorem execAcmActRead_quiet (s : State) : Res.quiet s (execAcmActRead s) := by
  unfold execAcmActRead; simp +contextual (maxDischargeDepth := 64)
@[simp] theorem State.setPolicer_mem (s : State) (i : Nat) (p : Policer) : (State.setPolicer s i p).mem = s.mem := by
  unfold State.setPolicer; simp +contextual (maxDischargeDepth := 64)
@[simp] theorem State.setPolicer_pending (s : State) (i : Nat) (p : Policer) : (State.setPolicer s i p).pending = s.pending := by
  unfold State.setPolicer; simp +contextual (maxDischargeDepth := 64)
@[simp] theorem State.setPolicer_canonical (s : State) (i : Nat) (p : Policer) (hs : s.canonical = true) : (State.setPolicer s i p).canonical = true := by
  unfold State.setPolicer; simp +contextual (maxDischargeDepth := 64) [hs]
@[simp] theorem State.polWrite_mem (s : State) : (State.polWrite s).mem = s.mem := by
  unfold State.polWrite; simp +contextual (maxDischargeDepth := 64)
@[simp] theorem State.polWrite_pending (s : State) : (State.polWrite s).pending = s.pending := by
  unfold State.polWrite; simp +contextual (maxDischargeDepth := 64)
@[simp] theorem State.polWrite_canonical (s : State) (hs : s.canonical = true) : (State.polWrite s).canonical = true := by
  unfold State.polWrite; simp +contextual (maxDischargeDepth := 64) [hs]
@[simp] theorem State.polRead_mem (s : State) : (State.polRead s).mem = s.mem := by
  unfold State.polRead; simp +contextual (maxDischargeDepth := 64)
@[simp] theorem State.polRead_pending (s : State) : (State.polRead s).pending = s.pending := by
  unfold State.polRead; simp +contextual (maxDischargeDepth := 64)
@[simp] theorem State.polRead_canonical (s : State) (hs : s.canonical = true) : (State.polRead s).canonical = true := by
  unfold State.polRead; simp +contextual (maxDischargeDepth := 64) [hs]
@[simp] theorem execAcmPolWrite_quiet (s : State) : Res.quiet s (execAcmPolWrite s) := by
  unfold execAcmPolWrite; simp +contextual (maxDischargeDepth := 64)
@[simp] theorem execAcmPolRead_quiet (s : State) : Res.quiet s (execAcmPolRead s) := by
  unfold execAcmPolRead; simp +contextual (maxDischargeDepth := 64)
@[simp] theorem State.meter_mem (s : State) (i len colour : Nat) : (State.meter s i len colour).2.mem = s.mem := by
  unfold State.meter; simp +contextual (maxDischargeDepth := 64)
@[simp] theorem State.meter_pending (s : State) (i len colour : Nat) : (State.meter s i len colour).2.pending = s.pending := by
  unfold State.meter; simp +contextual (maxDischargeDepth := 64)
@[simp] theorem State.meter_canonical (s : State) (i len colour : Nat) (hs : s.canonical = true) : (State.meter s i len colour).2.canonical = true := by
  unfold State.meter; simp +contextual (maxDischargeDepth := 64) [hs]
theorem State.meter_keeps {s : State} {i len colour : Nat} {r0 r1} (hx : State.meter s i len colour = (r0, r1)) : r1.pending = s.pending ∧ (s.canonical = true → r1.canonical = true) ∧ r1.mem = s.mem := by
  have pending' := State.meter_pending s i len colour
  rw [hx] at pending'
  have canonical' := fun hs => State.meter_canonical s i len colour hs
  rw [hx] at canonical'
  have mem' := State.meter_mem s i len colour
  rw [hx] at mem'
  exact ⟨pending', canonical', mem'⟩
@[simp] theorem execIndirectionTableWrite_quiet (index : Nat) (value : Word) (s : State) : Res.quiet s (execIndirectionTableWrite index value s) := by
  unfold execIndirectionTableWrite; simp +contextual (maxDischargeDepth := 64)
@[simp] theorem State.clsDecide_mem (s : State) (q : ClsPacket) : (State.clsDecide s q).2.mem = s.mem := by
  unfold State.clsDecide; (try simp only []); (repeat' split) <;> simp +contextual (maxDischargeDepth := 64)
@[simp] theorem State.clsDecide_pending (s : State) (q : ClsPacket) : (State.clsDecide s q).2.pending = s.pending := by
  unfold State.clsDecide; (try simp only []); (repeat' split) <;> simp +contextual (maxDischargeDepth := 64)
@[simp] theorem State.clsDecide_canonical (s : State) (q : ClsPacket) (hs : s.canonical = true) : (State.clsDecide s q).2.canonical = true := by
  unfold State.clsDecide; (try simp only []); (repeat' split) <;> simp +contextual (maxDischargeDepth := 64) [hs]
theorem State.clsDecide_keeps {s : State} {q : ClsPacket} {r0 r1} (hx : State.clsDecide s q = (r0, r1)) : r1.pending = s.pending ∧ (s.canonical = true → r1.canonical = true) ∧ r1.mem = s.mem := by
  have pending' := State.clsDecide_pending s q
  rw [hx] at pending'
  have canonical' := fun hs => State.clsDecide_canonical s q hs
  rw [hx] at canonical'
  have mem' := State.clsDecide_mem s q
  rw [hx] at mem'
  exact ⟨pending', canonical', mem'⟩
@[simp] theorem State.setCls_mem (s : State) (l : List ClsPacket) : (State.setCls s l).mem = s.mem := by
  unfold State.setCls; simp +contextual (maxDischargeDepth := 64)
@[simp] theorem State.setCls_pending (s : State) (l : List ClsPacket) : (State.setCls s l).pending = s.pending := by
  unfold State.setCls; simp +contextual (maxDischargeDepth := 64)
@[simp] theorem State.setCls_canonical (s : State) (l : List ClsPacket) (hs : s.canonical = true) : (State.setCls s l).canonical = true := by
  unfold State.setCls; simp +contextual (maxDischargeDepth := 64) [hs]
@[simp] theorem State.clsSettle_mem (s : State) (x1 : List ClsPacket) (x2 : List ClsPacket) : (State.clsSettle s x1 x2).mem = s.mem := by
  first
  | (induction x1 generalizing s x2 <;> unfold State.clsSettle <;> (try simp only []) <;> (repeat' split) <;> (simp_all (maxDischargeDepth := 64); done))
  | (induction x1 generalizing s x2 <;> unfold State.clsSettle <;> (try simp only []) <;> (repeat' split) <;> (grind; done))
  | (induction x2 generalizing s x1 <;> unfold State.clsSettle <;> (try simp only []) <;> (repeat' split) <;> (simp_all (maxDischargeDepth := 64); done))
  | (induction x2 generalizing s x1 <;> unfold State.clsSettle <;> (try simp only []) <;> (repeat' split) <;> (grind; done))
@[simp] theorem State.clsSettle_pending (s : State) (x1 : List ClsPacket) (x2 : List ClsPacket) : (State.clsSettle s x1 x2).pending = s.pending := by
  first
  | (induction x1 generalizing s x2 <;> unfold State.clsSettle <;> (try simp only []) <;> (repeat' split) <;> (simp_all (maxDischargeDepth := 64); done))
  | (induction x1 generalizing s x2 <;> unfold State.clsSettle <;> (try simp only []) <;> (repeat' split) <;> (grind; done))
  | (induction x2 generalizing s x1 <;> unfold State.clsSettle <;> (try simp only []) <;> (repeat' split) <;> (simp_all (maxDischargeDepth := 64); done))
  | (induction x2 generalizing s x1 <;> unfold State.clsSettle <;> (try simp only []) <;> (repeat' split) <;> (grind; done))
@[simp] theorem State.clsSettle_canonical (s : State) (x1 : List ClsPacket) (x2 : List ClsPacket) (hs : s.canonical = true) : (State.clsSettle s x1 x2).canonical = true := by
  first
  | (induction x1 generalizing s x2 <;> unfold State.clsSettle <;> (try simp only []) <;> (repeat' split) <;> (simp_all (maxDischargeDepth := 64); done))
  | (induction x1 generalizing s x2 <;> unfold State.clsSettle <;> (try simp only []) <;> (repeat' split) <;> (grind; done))
  | (induction x2 generalizing s x1 <;> unfold State.clsSettle <;> (try simp only []) <;> (repeat' split) <;> (simp_all (maxDischargeDepth := 64); done))
  | (induction x2 generalizing s x1 <;> unfold State.clsSettle <;> (try simp only []) <;> (repeat' split) <;> (grind; done))
@[simp] theorem State.clsSettled_mem (s : State) : (State.clsSettled s).mem = s.mem := by
  unfold State.clsSettled; (try simp only [])
  repeat' (first | (simp; done) | intro _ | split | rw [foldl_mem] | rw [foldl_snd_mem] | simp)
@[simp] theorem State.clsSettled_pending (s : State) : (State.clsSettled s).pending = s.pending := by
  unfold State.clsSettled; (try simp only [])
  repeat' (first | (simp; done) | intro _ | split | rw [foldl_pending] | rw [foldl_snd_pending] | simp)
@[simp] theorem State.clsSettled_canonical (s : State) (hs : s.canonical = true) : (State.clsSettled s).canonical = true := by
  unfold State.clsSettled; (try simp only [])
  repeat' (first | assumption | (simp (maxDischargeDepth := 64) [*]; done) | intro _ | split | apply foldl_canonical | apply foldl_snd_canonical | with_reducible apply State.clsSettle_canonical)
@[simp] theorem State.clsSearch_mem (s : State) (q : ClsPacket) (left : Nat) : (State.clsSearch s q left).2.mem = s.mem := by
  unfold State.clsSearch; simp +contextual (maxDischargeDepth := 64)
@[simp] theorem State.clsSearch_pending (s : State) (q : ClsPacket) (left : Nat) : (State.clsSearch s q left).2.pending = s.pending := by
  unfold State.clsSearch; simp +contextual (maxDischargeDepth := 64)
@[simp] theorem State.clsSearch_canonical (s : State) (q : ClsPacket) (left : Nat) (hs : s.canonical = true) : (State.clsSearch s q left).2.canonical = true := by
  unfold State.clsSearch; simp +contextual (maxDischargeDepth := 64) [hs]
theorem State.clsSearch_keeps {s : State} {q : ClsPacket} {left : Nat} {r0 r1} (hx : State.clsSearch s q left = (r0, r1)) : r1.pending = s.pending ∧ (s.canonical = true → r1.canonical = true) ∧ r1.mem = s.mem := by
  have pending' := State.clsSearch_pending s q left
  rw [hx] at pending'
  have canonical' := fun hs => State.clsSearch_canonical s q left hs
  rw [hx] at canonical'
  have mem' := State.clsSearch_mem s q left
  rw [hx] at mem'
  exact ⟨pending', canonical', mem'⟩
@[simp] theorem State.clsOdd_mem (s : State) (e : Committed) (cond bit : Nat) : (State.clsOdd s e cond bit).mem = s.mem := by
  unfold State.clsOdd; simp +contextual (maxDischargeDepth := 64)
@[simp] theorem State.clsOdd_pending (s : State) (e : Committed) (cond bit : Nat) : (State.clsOdd s e cond bit).pending = s.pending := by
  unfold State.clsOdd; simp +contextual (maxDischargeDepth := 64)
@[simp] theorem State.clsOdd_canonical (s : State) (e : Committed) (cond bit : Nat) (hs : s.canonical = true) : (State.clsOdd s e cond bit).canonical = true := by
  unfold State.clsOdd; simp +contextual (maxDischargeDepth := 64) [hs]
@[simp] theorem execClassifyHandover_quiet (s : State) : Res.quiet s (execClassifyHandover s) := by
  unfold execClassifyHandover; (try simp only [])
  repeat' (first | assumption | (simp +contextual (maxDischargeDepth := 64) [*]; done) | intro _ | split | rw [foldl_mem] | rw [foldl_pending] | apply foldl_canonical | with_reducible apply State.clsOdd_canonical | with_reducible apply State.clsSearch_canonical | with_reducible apply State.clsSettled_canonical | with_reducible apply State.count_canonical | with_reducible apply State.emtLookup_canonical | with_reducible apply State.emtRedirect_canonical | with_reducible apply State.setCls_canonical | (rw [Res.quiet_next]; refine ⟨?_, ?_, ?_⟩) | (rw [Res.stays_next]; refine ⟨?_, ?_⟩) | simp)
@[simp] theorem State.clsAdmit_mem (s : State) (limit : Nat) (x1 : List ClsPacket) (x2 : List ClsPacket) : (State.clsAdmit s limit x1 x2).mem = s.mem := by
  first
  | (induction x1 generalizing s x2 <;> unfold State.clsAdmit <;> (try simp only []) <;> (repeat' split) <;> (simp_all (maxDischargeDepth := 64); done))
  | (induction x1 generalizing s x2 <;> unfold State.clsAdmit <;> (try simp only []) <;> (repeat' split) <;> (grind; done))
  | (induction x2 generalizing s x1 <;> unfold State.clsAdmit <;> (try simp only []) <;> (repeat' split) <;> (simp_all (maxDischargeDepth := 64); done))
  | (induction x2 generalizing s x1 <;> unfold State.clsAdmit <;> (try simp only []) <;> (repeat' split) <;> (grind; done))
@[simp] theorem State.clsAdmit_pending (s : State) (limit : Nat) (x1 : List ClsPacket) (x2 : List ClsPacket) : (State.clsAdmit s limit x1 x2).pending = s.pending := by
  first
  | (induction x1 generalizing s x2 <;> unfold State.clsAdmit <;> (try simp only []) <;> (repeat' split) <;> (simp_all (maxDischargeDepth := 64); done))
  | (induction x1 generalizing s x2 <;> unfold State.clsAdmit <;> (try simp only []) <;> (repeat' split) <;> (grind; done))
  | (induction x2 generalizing s x1 <;> unfold State.clsAdmit <;> (try simp only []) <;> (repeat' split) <;> (simp_all (maxDischargeDepth := 64); done))
  | (induction x2 generalizing s x1 <;> unfold State.clsAdmit <;> (try simp only []) <;> (repeat' split) <;> (grind; done))
@[simp] theorem State.clsAdmit_canonical (s : State) (limit : Nat) (x1 : List ClsPacket) (x2 : List ClsPacket) (hs : s.canonical = true) : (State.clsAdmit s limit x1 x2).canonical = true := by
  first
  | (induction x1 generalizing s x2 <;> unfold State.clsAdmit <;> (try simp only []) <;> (repeat' split) <;> (simp_all (maxDischargeDepth := 64); done))
  | (induction x1 generalizing s x2 <;> unfold State.clsAdmit <;> (try simp only []) <;> (repeat' split) <;> (grind; done))
  | (induction x2 generalizing s x1 <;> unfold State.clsAdmit <;> (try simp only []) <;> (repeat' split) <;> (simp_all (maxDischargeDepth := 64); done))
  | (induction x2 generalizing s x1 <;> unfold State.clsAdmit <;> (try simp only []) <;> (repeat' split) <;> (grind; done))
@[simp] theorem execAcmSearchAdmit_quiet (s : State) : Res.quiet s (execAcmSearchAdmit s) := by
  unfold execAcmSearchAdmit; (try simp only [])
  repeat' (first | assumption | (simp +contextual (maxDischargeDepth := 64) [*]; done) | intro _ | split | rw [foldl_mem] | rw [foldl_pending] | apply foldl_canonical | with_reducible apply State.clsAdmit_canonical | with_reducible apply State.clsSettled_canonical | (rw [Res.quiet_next]; refine ⟨?_, ?_, ?_⟩) | (rw [Res.stays_next]; refine ⟨?_, ?_⟩) | simp)
@[simp] theorem execEmtBucketReadReturn_stays (index : Nat) (eccA eccB : EccResult) (s : State) : Res.stays s (execEmtBucketReadReturn index eccA eccB s) := by
  unfold execEmtBucketReadReturn; (try simp only [])
  repeat' (first | assumption | (simp +contextual (maxDischargeDepth := 64) [*]; done) | intro _ | split | rw [foldl_mem] | rw [foldl_pending] | apply foldl_canonical | with_reducible apply State.clsSettled_canonical | with_reducible apply State.emtReturn_canonical | with_reducible apply State.setCls_canonical | with_reducible apply State.set_canonical | (rw [Res.quiet_next]; refine ⟨?_, ?_, ?_⟩) | (rw [Res.stays_next]; refine ⟨?_, ?_⟩) | simp)
@[simp] theorem execClassifyInject_quiet (index : Nat) (ue : Bool) (s : State) : Res.quiet s (execClassifyInject index ue s) := by
  unfold execClassifyInject; (try simp only []); (repeat' split) <;> simp +contextual (maxDischargeDepth := 64)
@[simp] theorem execMirrorCopy_quiet (s : State) : Res.quiet s (execMirrorCopy s) := by
  unfold execMirrorCopy; (try simp only []); (repeat' split) <;> simp +contextual (maxDischargeDepth := 64)

end Sys2Proof.Machine
end

