-- ==== Sys2Proof/Laws/KeepPrmOps.lean ====
section
/-! SUPPORT. Machine/PrmOps.lean: what each of its operations keeps (memory where it stores nothing, the queue, the
canonical form of the stores). -/

namespace Sys2Proof.Machine

set_option linter.all false
set_option Elab.async false

@[simp] theorem State.setBuf_mem (s : State) (key : Nat) (l : List Flit) : (State.setBuf s key l).mem = s.mem := by
  unfold State.setBuf; simp +contextual (maxDischargeDepth := 64)
@[simp] theorem State.setBuf_pending (s : State) (key : Nat) (l : List Flit) : (State.setBuf s key l).pending = s.pending := by
  unfold State.setBuf; simp +contextual (maxDischargeDepth := 64)
@[simp] theorem State.setBuf_canonical (s : State) (key : Nat) (l : List Flit) (hs : s.canonical = true) : (State.setBuf s key l).canonical = true := by
  unfold State.setBuf; simp +contextual (maxDischargeDepth := 64) [hs]
@[simp] theorem State.setFlight_mem (s : State) (k : Nat) (f : Flight) : (State.setFlight s k f).mem = s.mem := by
  unfold State.setFlight; simp +contextual (maxDischargeDepth := 64)
@[simp] theorem State.setFlight_pending (s : State) (k : Nat) (f : Flight) : (State.setFlight s k f).pending = s.pending := by
  unfold State.setFlight; simp +contextual (maxDischargeDepth := 64)
@[simp] theorem State.setFlight_canonical (s : State) (k : Nat) (f : Flight) (hs : s.canonical = true) : (State.setFlight s k f).canonical = true := by
  unfold State.setFlight; simp +contextual (maxDischargeDepth := 64) [hs]
@[simp] theorem State.dropFlight_mem (s : State) (k : Nat) : (State.dropFlight s k).mem = s.mem := by
  unfold State.dropFlight; simp +contextual (maxDischargeDepth := 64)
@[simp] theorem State.dropFlight_pending (s : State) (k : Nat) : (State.dropFlight s k).pending = s.pending := by
  unfold State.dropFlight; simp +contextual (maxDischargeDepth := 64)
@[simp] theorem State.dropFlight_canonical (s : State) (k : Nat) (hs : s.canonical = true) : (State.dropFlight s k).canonical = true := by
  unfold State.dropFlight; simp +contextual (maxDischargeDepth := 64) [hs]
@[simp] theorem State.setCredit_mem (s : State) (key n : Nat) : (State.setCredit s key n).mem = s.mem := by
  unfold State.setCredit; simp +contextual (maxDischargeDepth := 64)
@[simp] theorem State.setCredit_pending (s : State) (key n : Nat) : (State.setCredit s key n).pending = s.pending := by
  unfold State.setCredit; simp +contextual (maxDischargeDepth := 64)
@[simp] theorem State.setCredit_canonical (s : State) (key n : Nat) (hs : s.canonical = true) : (State.setCredit s key n).canonical = true := by
  unfold State.setCredit; simp +contextual (maxDischargeDepth := 64) [hs]
@[simp] theorem State.setOwner_mem (s : State) (key n : Nat) : (State.setOwner s key n).mem = s.mem := by
  unfold State.setOwner; simp +contextual (maxDischargeDepth := 64)
@[simp] theorem State.setOwner_pending (s : State) (key n : Nat) : (State.setOwner s key n).pending = s.pending := by
  unfold State.setOwner; simp +contextual (maxDischargeDepth := 64)
@[simp] theorem State.setOwner_canonical (s : State) (key n : Nat) (hs : s.canonical = true) : (State.setOwner s key n).canonical = true := by
  unfold State.setOwner; simp +contextual (maxDischargeDepth := 64) [hs]
@[simp] theorem State.setInjector_mem (s : State) (ep : Nat) (i : Injector) : (State.setInjector s ep i).mem = s.mem := by
  unfold State.setInjector; simp +contextual (maxDischargeDepth := 64)
@[simp] theorem State.setInjector_pending (s : State) (ep : Nat) (i : Injector) : (State.setInjector s ep i).pending = s.pending := by
  unfold State.setInjector; simp +contextual (maxDischargeDepth := 64)
@[simp] theorem State.setInjector_canonical (s : State) (ep : Nat) (i : Injector) (hs : s.canonical = true) : (State.setInjector s ep i).canonical = true := by
  unfold State.setInjector; simp +contextual (maxDischargeDepth := 64) [hs]
@[simp] theorem State.setRx_mem (s : State) (ep vc : Nat) (r : Option RxPacket) : (State.setRx s ep vc r).mem = s.mem := by
  unfold State.setRx; simp +contextual (maxDischargeDepth := 64)
@[simp] theorem State.setRx_pending (s : State) (ep vc : Nat) (r : Option RxPacket) : (State.setRx s ep vc r).pending = s.pending := by
  unfold State.setRx; simp +contextual (maxDischargeDepth := 64)
@[simp] theorem State.setRx_canonical (s : State) (ep vc : Nat) (r : Option RxPacket) (hs : s.canonical = true) : (State.setRx s ep vc r).canonical = true := by
  unfold State.setRx; simp +contextual (maxDischargeDepth := 64) [hs]
@[simp] theorem State.newFlight_mem (s : State) (w : List Word) (src vc : Nat) : (State.newFlight s w src vc).2.mem = s.mem := by
  unfold State.newFlight; simp +contextual (maxDischargeDepth := 64)
@[simp] theorem State.newFlight_pending (s : State) (w : List Word) (src vc : Nat) : (State.newFlight s w src vc).2.pending = s.pending := by
  unfold State.newFlight; simp +contextual (maxDischargeDepth := 64)
@[simp] theorem State.newFlight_canonical (s : State) (w : List Word) (src vc : Nat) (hs : s.canonical = true) : (State.newFlight s w src vc).2.canonical = true := by
  unfold State.newFlight; simp +contextual (maxDischargeDepth := 64) [hs]
theorem State.newFlight_keeps {s : State} {w : List Word} {src vc : Nat} {r0 r1} (hx : State.newFlight s w src vc = (r0, r1)) : r1.pending = s.pending ∧ (s.canonical = true → r1.canonical = true) ∧ r1.mem = s.mem := by
  have pending' := State.newFlight_pending s w src vc
  rw [hx] at pending'
  have canonical' := fun hs => State.newFlight_canonical s w src vc hs
  rw [hx] at canonical'
  have mem' := State.newFlight_mem s w src vc
  rw [hx] at mem'
  exact ⟨pending', canonical', mem'⟩
@[simp] theorem State.pushFlit_mem (s : State) (ep vc : Nat) (f : Flit) : (State.pushFlit s ep vc f).mem = s.mem := by
  unfold State.pushFlit; simp +contextual (maxDischargeDepth := 64)
@[simp] theorem State.pushFlit_pending (s : State) (ep vc : Nat) (f : Flit) : (State.pushFlit s ep vc f).pending = s.pending := by
  unfold State.pushFlit; simp +contextual (maxDischargeDepth := 64)
@[simp] theorem State.pushFlit_canonical (s : State) (ep vc : Nat) (f : Flit) (hs : s.canonical = true) : (State.pushFlit s ep vc f).canonical = true := by
  unfold State.pushFlit; simp +contextual (maxDischargeDepth := 64) [hs]
@[simp] theorem State.crossLink_mem (s : State) (st d vc cls : Nat) (f : Flit) : (State.crossLink s st d vc cls f).mem = s.mem := by
  unfold State.crossLink; (try simp only []); (repeat' split) <;> simp +contextual (maxDischargeDepth := 64)
@[simp] theorem State.crossLink_pending (s : State) (st d vc cls : Nat) (f : Flit) : (State.crossLink s st d vc cls f).pending = s.pending := by
  unfold State.crossLink; (try simp only []); (repeat' split) <;> simp +contextual (maxDischargeDepth := 64)
@[simp] theorem State.crossLink_canonical (s : State) (st d vc cls : Nat) (f : Flit) (hs : s.canonical = true) : (State.crossLink s st d vc cls f).canonical = true := by
  unfold State.crossLink; (try simp only []); (repeat' split) <;> simp +contextual (maxDischargeDepth := 64) [hs]
@[simp] theorem State.setWaiting_mem (s : State) (ep : Nat) (l : List (Nat × List Word)) : (State.setWaiting s ep l).mem = s.mem := by
  unfold State.setWaiting; (try simp only []); (repeat' split) <;> simp +contextual (maxDischargeDepth := 64)
@[simp] theorem State.setWaiting_pending (s : State) (ep : Nat) (l : List (Nat × List Word)) : (State.setWaiting s ep l).pending = s.pending := by
  unfold State.setWaiting; (try simp only []); (repeat' split) <;> simp +contextual (maxDischargeDepth := 64)
@[simp] theorem State.setWaiting_canonical (s : State) (ep : Nat) (l : List (Nat × List Word)) (hs : s.canonical = true) : (State.setWaiting s ep l).canonical = true := by
  unfold State.setWaiting; (try simp only []); (repeat' split) <;> simp +contextual (maxDischargeDepth := 64) [hs]
@[simp] theorem State.putHeader_mem (s : State) (ep vc : Nat) (w : List Word) : (State.putHeader s ep vc w).mem = s.mem := by
  unfold State.putHeader; (try simp only []); (repeat' split) <;> simp +contextual (maxDischargeDepth := 64)
@[simp] theorem State.putHeader_pending (s : State) (ep vc : Nat) (w : List Word) : (State.putHeader s ep vc w).pending = s.pending := by
  unfold State.putHeader; (try simp only []); (repeat' split) <;> simp +contextual (maxDischargeDepth := 64)
@[simp] theorem State.putHeader_canonical (s : State) (ep vc : Nat) (w : List Word) (hs : s.canonical = true) : (State.putHeader s ep vc w).canonical = true := by
  unfold State.putHeader; (try simp only []); (repeat' split) <;> simp +contextual (maxDischargeDepth := 64) [hs]
@[simp] theorem State.stationHeader_mem (s : State) (ep vc : Nat) (w : List Word) : (State.stationHeader s ep vc w).mem = s.mem := by
  unfold State.stationHeader; (try simp only []); (repeat' split) <;> simp +contextual (maxDischargeDepth := 64)
@[simp] theorem State.stationHeader_pending (s : State) (ep vc : Nat) (w : List Word) : (State.stationHeader s ep vc w).pending = s.pending := by
  unfold State.stationHeader; (try simp only []); (repeat' split) <;> simp +contextual (maxDischargeDepth := 64)
@[simp] theorem State.stationHeader_canonical (s : State) (ep vc : Nat) (w : List Word) (hs : s.canonical = true) : (State.stationHeader s ep vc w).canonical = true := by
  unfold State.stationHeader; (try simp only []); (repeat' split) <;> simp +contextual (maxDischargeDepth := 64) [hs]
@[simp] theorem State.waitLeaves_mem (s : State) (ep : Nat) (x : Nat × List Word) : (State.waitLeaves s ep x).mem = s.mem := by
  unfold State.waitLeaves; (try simp only []); (repeat' split) <;> simp +contextual (maxDischargeDepth := 64)
@[simp] theorem State.waitLeaves_pending (s : State) (ep : Nat) (x : Nat × List Word) : (State.waitLeaves s ep x).pending = s.pending := by
  unfold State.waitLeaves; (try simp only []); (repeat' split) <;> simp +contextual (maxDischargeDepth := 64)
@[simp] theorem State.waitLeaves_canonical (s : State) (ep : Nat) (x : Nat × List Word) (hs : s.canonical = true) : (State.waitLeaves s ep x).canonical = true := by
  unfold State.waitLeaves; (try simp only []); (repeat' split) <;> simp +contextual (maxDischargeDepth := 64) [hs]
@[simp] theorem State.closeAborted_mem (s : State) (ep vc : Nat) (w : List Word) (opcode bytes : Nat) : (State.closeAborted s ep vc w opcode bytes).mem = s.mem := by
  unfold State.closeAborted; (try simp only []); (repeat' split) <;> simp +contextual (maxDischargeDepth := 64)
@[simp] theorem State.closeAborted_pending (s : State) (ep vc : Nat) (w : List Word) (opcode bytes : Nat) : (State.closeAborted s ep vc w opcode bytes).pending = s.pending := by
  unfold State.closeAborted; (try simp only []); (repeat' split) <;> simp +contextual (maxDischargeDepth := 64)
@[simp] theorem State.closeAborted_canonical (s : State) (ep vc : Nat) (w : List Word) (opcode bytes : Nat) (hs : s.canonical = true) : (State.closeAborted s ep vc w opcode bytes).canonical = true := by
  unfold State.closeAborted; (try simp only []); (repeat' split) <;> simp +contextual (maxDischargeDepth := 64) [hs]
@[simp] theorem State.lowerVoid_mem (s : State) (ep opcode : Nat) : (State.lowerVoid s ep opcode).mem = s.mem := by
  unfold State.lowerVoid; (try simp only []); (repeat' split) <;> simp +contextual (maxDischargeDepth := 64)
@[simp] theorem State.lowerVoid_pending (s : State) (ep opcode : Nat) : (State.lowerVoid s ep opcode).pending = s.pending := by
  unfold State.lowerVoid; (try simp only []); (repeat' split) <;> simp +contextual (maxDischargeDepth := 64)
@[simp] theorem State.lowerVoid_canonical (s : State) (ep opcode : Nat) (hs : s.canonical = true) : (State.lowerVoid s ep opcode).canonical = true := by
  unfold State.lowerVoid; (try simp only []); (repeat' split) <;> simp +contextual (maxDischargeDepth := 64) [hs]
@[simp] theorem State.pushAbort_mem (s : State) (ep : Nat) : (State.pushAbort s ep).mem = s.mem := by
  unfold State.pushAbort; (try simp only []); (repeat' split) <;> simp +contextual (maxDischargeDepth := 64)
@[simp] theorem State.pushAbort_pending (s : State) (ep : Nat) : (State.pushAbort s ep).pending = s.pending := by
  unfold State.pushAbort; (try simp only []); (repeat' split) <;> simp +contextual (maxDischargeDepth := 64)
@[simp] theorem State.pushAbort_canonical (s : State) (ep : Nat) (hs : s.canonical = true) : (State.pushAbort s ep).canonical = true := by
  unfold State.pushAbort; (try simp only []); (repeat' split) <;> simp +contextual (maxDischargeDepth := 64) [hs]
@[simp] theorem State.abortInjection_mem (s : State) (ep opcode : Nat) (discard : Bool) : (State.abortInjection s ep opcode discard).mem = s.mem := by
  unfold State.abortInjection; simp +contextual (maxDischargeDepth := 64)
@[simp] theorem State.abortInjection_pending (s : State) (ep opcode : Nat) (discard : Bool) : (State.abortInjection s ep opcode discard).pending = s.pending := by
  unfold State.abortInjection; simp +contextual (maxDischargeDepth := 64)
@[simp] theorem State.abortInjection_canonical (s : State) (ep opcode : Nat) (discard : Bool) (hs : s.canonical = true) : (State.abortInjection s ep opcode discard).canonical = true := by
  unfold State.abortInjection; simp +contextual (maxDischargeDepth := 64) [hs]
@[simp] theorem State.stationAnswer_mem (s : State) (ep : Nat) (w : List Word) (status : Nat) : (State.stationAnswer s ep w status).mem = s.mem := by
  unfold State.stationAnswer; simp +contextual (maxDischargeDepth := 64)
@[simp] theorem State.stationAnswer_pending (s : State) (ep : Nat) (w : List Word) (status : Nat) : (State.stationAnswer s ep w status).pending = s.pending := by
  unfold State.stationAnswer; simp +contextual (maxDischargeDepth := 64)
@[simp] theorem State.stationAnswer_canonical (s : State) (ep : Nat) (w : List Word) (status : Nat) (hs : s.canonical = true) : (State.stationAnswer s ep w status).canonical = true := by
  unfold State.stationAnswer; simp +contextual (maxDischargeDepth := 64) [hs]
@[simp] theorem State.tdRefuse_mem (s : State) (w : List Word) : (State.tdRefuse s w).mem = s.mem := by
  unfold State.tdRefuse; simp +contextual (maxDischargeDepth := 64)
@[simp] theorem State.tdRefuse_pending (s : State) (w : List Word) : (State.tdRefuse s w).pending = s.pending := by
  unfold State.tdRefuse; simp +contextual (maxDischargeDepth := 64)
@[simp] theorem State.tdRefuse_canonical (s : State) (w : List Word) (hs : s.canonical = true) : (State.tdRefuse s w).canonical = true := by
  unfold State.tdRefuse; simp +contextual (maxDischargeDepth := 64) [hs]

end Sys2Proof.Machine
end

