-- ==== Sys2Proof/Laws/KeepPav.lean ====
section
/-! SUPPORT. Machine/Pav.lean: what each of its operations keeps (memory where it stores nothing, the queue, the
canonical form of the stores). -/

namespace Sys2Proof.Machine

set_option linter.all false
set_option Elab.async false

@[simp] theorem State.setGrp_mem (s : State) (g : Nat) (x : PavGroup) : (State.setGrp s g x).mem = s.mem := by
  unfold State.setGrp; simp +contextual (maxDischargeDepth := 64)
@[simp] theorem State.setGrp_pending (s : State) (g : Nat) (x : PavGroup) : (State.setGrp s g x).pending = s.pending := by
  unfold State.setGrp; simp +contextual (maxDischargeDepth := 64)
@[simp] theorem State.setGrp_canonical (s : State) (g : Nat) (x : PavGroup) (hs : s.canonical = true) : (State.setGrp s g x).canonical = true := by
  unfold State.setGrp; simp +contextual (maxDischargeDepth := 64) [hs]
@[simp] theorem State.setGrpState_mem (s : State) (g st : Nat) : (State.setGrpState s g st).mem = s.mem := by
  unfold State.setGrpState; simp +contextual (maxDischargeDepth := 64)
@[simp] theorem State.setGrpState_pending (s : State) (g st : Nat) : (State.setGrpState s g st).pending = s.pending := by
  unfold State.setGrpState; simp +contextual (maxDischargeDepth := 64)
@[simp] theorem State.setGrpState_canonical (s : State) (g st : Nat) (hs : s.canonical = true) : (State.setGrpState s g st).canonical = true := by
  unfold State.setGrpState; simp +contextual (maxDischargeDepth := 64) [hs]
@[simp] theorem State.powerUp_mem (s : State) (t : Nat) : (State.powerUp s t).mem = s.mem := by
  unfold State.powerUp; (try simp only []); (repeat' split) <;> simp +contextual (maxDischargeDepth := 64)
@[simp] theorem State.powerUp_pending (s : State) (t : Nat) : (State.powerUp s t).pending = s.pending := by
  unfold State.powerUp; (try simp only []); (repeat' split) <;> simp +contextual (maxDischargeDepth := 64)
@[simp] theorem State.powerUp_canonical (s : State) (t : Nat) (hs : s.canonical = true) : (State.powerUp s t).canonical = true := by
  unfold State.powerUp; (try simp only []); (repeat' split) <;> simp +contextual (maxDischargeDepth := 64) [hs]
@[simp] theorem State.grpAwake_mem (s : State) (g : Nat) : (State.grpAwake s g).mem = s.mem := by
  unfold State.grpAwake; simp +contextual (maxDischargeDepth := 64)
@[simp] theorem State.grpAwake_pending (s : State) (g : Nat) : (State.grpAwake s g).pending = s.pending := by
  unfold State.grpAwake; simp +contextual (maxDischargeDepth := 64)
@[simp] theorem State.grpAwake_canonical (s : State) (g : Nat) (hs : s.canonical = true) : (State.grpAwake s g).canonical = true := by
  unfold State.grpAwake; simp +contextual (maxDischargeDepth := 64) [hs]
@[simp] theorem State.powerDown_mem (s : State) (p : Plan) (members : List Nat) : (State.powerDown s p members).mem = s.mem := by
  unfold State.powerDown; refine foldl_mem _ _ _ (fun s m => ?_); split <;> simp
@[simp] theorem State.powerDown_pending (s : State) (p : Plan) (members : List Nat) : (State.powerDown s p members).pending = s.pending := by
  unfold State.powerDown; refine foldl_pending _ _ _ (fun s m => ?_); split <;> simp
@[simp] theorem State.powerDown_canonical (s : State) (p : Plan) (members : List Nat) (hs : s.canonical = true) : (State.powerDown s p members).canonical = true := by
  unfold State.powerDown; refine foldl_canonical _ _ _ (fun s m h => ?_) hs; split <;> simp [h]
@[simp] theorem State.grpPowerDown_mem (s : State) (g : Nat) : (State.grpPowerDown s g).mem = s.mem := by
  unfold State.grpPowerDown; simp
@[simp] theorem State.grpPowerDown_pending (s : State) (g : Nat) : (State.grpPowerDown s g).pending = s.pending := by
  unfold State.grpPowerDown; simp
@[simp] theorem State.grpPowerDown_canonical (s : State) (g : Nat) (hs : s.canonical = true) : (State.grpPowerDown s g).canonical = true := by
  unfold State.grpPowerDown; simp [hs]
@[simp] theorem State.setFabric_mem (s : State) (m : Nat) (x : Fabric) : (State.setFabric s m x).mem = s.mem := by
  unfold State.setFabric; simp
@[simp] theorem State.setFabric_pending (s : State) (m : Nat) (x : Fabric) : (State.setFabric s m x).pending = s.pending := by
  unfold State.setFabric; simp
@[simp] theorem State.setFabric_canonical (s : State) (m : Nat) (x : Fabric) (hs : s.canonical = true) : (State.setFabric s m x).canonical = true := by
  unfold State.setFabric; simp [hs]
@[simp] theorem State.mapFabric_mem (s : State) (g : Nat) (f : Fabric → Fabric) : (State.mapFabric s g f).mem = s.mem := by
  unfold State.mapFabric; exact foldl_mem _ _ _ (fun _ _ => by simp)
@[simp] theorem State.mapFabric_pending (s : State) (g : Nat) (f : Fabric → Fabric) : (State.mapFabric s g f).pending = s.pending := by
  unfold State.mapFabric; exact foldl_pending _ _ _ (fun _ _ => by simp)
@[simp] theorem State.mapFabric_canonical (s : State) (g : Nat) (f : Fabric → Fabric) (hs : s.canonical = true) : (State.mapFabric s g f).canonical = true := by
  unfold State.mapFabric; exact foldl_canonical _ _ _ (fun _ _ h => by simp [h]) hs
@[simp] theorem State.logicRan_mem (s : State) (g : Nat) : (State.logicRan s g).mem = s.mem := by
  unfold State.logicRan; (try simp only []); (repeat' split) <;> simp +contextual (maxDischargeDepth := 64)
@[simp] theorem State.logicRan_pending (s : State) (g : Nat) : (State.logicRan s g).pending = s.pending := by
  unfold State.logicRan; (try simp only []); (repeat' split) <;> simp +contextual (maxDischargeDepth := 64)
@[simp] theorem State.logicRan_canonical (s : State) (g : Nat) (hs : s.canonical = true) : (State.logicRan s g).canonical = true := by
  unfold State.logicRan; (try simp only []); (repeat' split) <;> simp +contextual (maxDischargeDepth := 64) [hs]
@[simp] theorem State.setTxCredit_mem (s : State) (ep vc n : Nat) : (State.setTxCredit s ep vc n).mem = s.mem := by
  unfold State.setTxCredit; simp +contextual (maxDischargeDepth := 64)
@[simp] theorem State.setTxCredit_pending (s : State) (ep vc n : Nat) : (State.setTxCredit s ep vc n).pending = s.pending := by
  unfold State.setTxCredit; simp +contextual (maxDischargeDepth := 64)
@[simp] theorem State.setTxCredit_canonical (s : State) (ep vc n : Nat) (hs : s.canonical = true) : (State.setTxCredit s ep vc n).canonical = true := by
  unfold State.setTxCredit; simp +contextual (maxDischargeDepth := 64) [hs]
@[simp] theorem State.setRxCredit_mem (s : State) (ep vc n : Nat) : (State.setRxCredit s ep vc n).mem = s.mem := by
  unfold State.setRxCredit; simp +contextual (maxDischargeDepth := 64)
@[simp] theorem State.setRxCredit_pending (s : State) (ep vc n : Nat) : (State.setRxCredit s ep vc n).pending = s.pending := by
  unfold State.setRxCredit; simp +contextual (maxDischargeDepth := 64)
@[simp] theorem State.setRxCredit_canonical (s : State) (ep vc n : Nat) (hs : s.canonical = true) : (State.setRxCredit s ep vc n).canonical = true := by
  unfold State.setRxCredit; simp +contextual (maxDischargeDepth := 64) [hs]
@[simp] theorem attachPort_mem (s : State) (ep : Nat) : (attachPort s ep).mem = s.mem := by
  unfold attachPort; simp +contextual (maxDischargeDepth := 64)
@[simp] theorem attachPort_pending (s : State) (ep : Nat) : (attachPort s ep).pending = s.pending := by
  unfold attachPort; simp +contextual (maxDischargeDepth := 64)
@[simp] theorem attachPort_canonical (s : State) (ep : Nat) (hs : s.canonical = true) : (attachPort s ep).canonical = true := by
  unfold attachPort; simp +contextual (maxDischargeDepth := 64) [hs]
@[simp] theorem detachPort_mem (s : State) (ep : Nat) : (detachPort s ep).mem = s.mem := by
  unfold detachPort; (try simp only []); (repeat' split) <;> simp +contextual (disch := (intros; (try simp only []); (repeat' split) <;> simp +contextual (maxDischargeDepth := 64) [*]))
@[simp] theorem detachPort_pending (s : State) (ep : Nat) : (detachPort s ep).pending = s.pending := by
  unfold detachPort; (try simp only []); (repeat' split) <;> simp +contextual (disch := (intros; (try simp only []); (repeat' split) <;> simp +contextual (maxDischargeDepth := 64) [*]))
@[simp] theorem detachPort_canonical (s : State) (ep : Nat) (hs : s.canonical = true) : (detachPort s ep).canonical = true := by
  unfold detachPort; (try simp only [])
  repeat' (first | assumption | (simp +contextual (maxDischargeDepth := 64) [*]; done) | intro _ | split | rw [foldl_mem] | rw [foldl_pending] | apply foldl_canonical | with_reducible apply State.abortInjection_canonical | with_reducible apply State.setRx_canonical | with_reducible apply State.tdRefuse_canonical | with_reducible apply State.emit_canonical | (rw [Res.quiet_next]; refine ⟨?_, ?_, ?_⟩) | (rw [Res.stays_next]; refine ⟨?_, ?_⟩) | simp)
@[simp] theorem State.attachPorts_mem (s : State) (g : Nat) : (State.attachPorts s g).mem = s.mem := by
  unfold State.attachPorts; simp +contextual (maxDischargeDepth := 64)
@[simp] theorem State.attachPorts_pending (s : State) (g : Nat) : (State.attachPorts s g).pending = s.pending := by
  unfold State.attachPorts; simp +contextual (maxDischargeDepth := 64)
@[simp] theorem State.attachPorts_canonical (s : State) (g : Nat) (hs : s.canonical = true) : (State.attachPorts s g).canonical = true := by
  unfold State.attachPorts; simp +contextual (maxDischargeDepth := 64) [hs]
@[simp] theorem State.detachPorts_mem (s : State) (g : Nat) : (State.detachPorts s g).mem = s.mem := by
  unfold State.detachPorts; simp +contextual (maxDischargeDepth := 64)
@[simp] theorem State.detachPorts_pending (s : State) (g : Nat) : (State.detachPorts s g).pending = s.pending := by
  unfold State.detachPorts; simp +contextual (maxDischargeDepth := 64)
@[simp] theorem State.detachPorts_canonical (s : State) (g : Nat) (hs : s.canonical = true) : (State.detachPorts s g).canonical = true := by
  unfold State.detachPorts; simp +contextual (maxDischargeDepth := 64) [hs]
@[simp] theorem State.discardHbmReads_mem (s : State) (g : Nat) : (State.discardHbmReads s g).mem = s.mem := by
  unfold State.discardHbmReads; simp +contextual (maxDischargeDepth := 64)
@[simp] theorem State.discardHbmReads_pending (s : State) (g : Nat) : (State.discardHbmReads s g).pending = s.pending := by
  unfold State.discardHbmReads; simp +contextual (maxDischargeDepth := 64)
@[simp] theorem State.discardHbmReads_canonical (s : State) (g : Nat) (hs : s.canonical = true) : (State.discardHbmReads s g).canonical = true := by
  unfold State.discardHbmReads; simp +contextual (maxDischargeDepth := 64) [hs]
@[simp] theorem State.windowDrop_mem (s : State) (g : Nat) (write : Bool) (tag : Nat) : (State.windowDrop s g write tag).mem = s.mem := by
  unfold State.windowDrop; (try simp only []); (repeat' split) <;> simp +contextual (maxDischargeDepth := 64)
@[simp] theorem State.windowDrop_pending (s : State) (g : Nat) (write : Bool) (tag : Nat) : (State.windowDrop s g write tag).pending = s.pending := by
  unfold State.windowDrop; (try simp only []); (repeat' split) <;> simp +contextual (maxDischargeDepth := 64)
@[simp] theorem State.windowDrop_canonical (s : State) (g : Nat) (write : Bool) (tag : Nat) (hs : s.canonical = true) : (State.windowDrop s g write tag).canonical = true := by
  unfold State.windowDrop; (try simp only []); (repeat' split) <;> simp +contextual (maxDischargeDepth := 64) [hs]
@[simp] theorem State.failReads_mem (s : State) (g : Nat) : (State.failReads s g).mem = s.mem := by
  unfold State.failReads; simp +contextual (maxDischargeDepth := 64)
@[simp] theorem State.failReads_pending (s : State) (g : Nat) : (State.failReads s g).pending = s.pending := by
  unfold State.failReads; simp +contextual (maxDischargeDepth := 64)
@[simp] theorem State.failReads_canonical (s : State) (g : Nat) (hs : s.canonical = true) : (State.failReads s g).canonical = true := by
  unfold State.failReads; simp +contextual (maxDischargeDepth := 64) [hs]
@[simp] theorem State.pavStatus_mem (s : State) (result g op : Nat) : (State.pavStatus s result g op).mem = s.mem := by
  unfold State.pavStatus; simp +contextual (maxDischargeDepth := 64)
@[simp] theorem State.pavStatus_pending (s : State) (result g op : Nat) : (State.pavStatus s result g op).pending = s.pending := by
  unfold State.pavStatus; simp +contextual (maxDischargeDepth := 64)
@[simp] theorem State.pavStatus_canonical (s : State) (result g op : Nat) (hs : s.canonical = true) : (State.pavStatus s result g op).canonical = true := by
  unfold State.pavStatus; simp +contextual (maxDischargeDepth := 64) [hs]
@[simp] theorem State.pavRefuse_mem (s : State) (cond g op : Nat) : (State.pavRefuse s cond g op).mem = s.mem := by
  unfold State.pavRefuse; simp +contextual (maxDischargeDepth := 64)
@[simp] theorem State.pavRefuse_pending (s : State) (cond g op : Nat) : (State.pavRefuse s cond g op).pending = s.pending := by
  unfold State.pavRefuse; simp +contextual (maxDischargeDepth := 64)
@[simp] theorem State.pavRefuse_canonical (s : State) (cond g op : Nat) (hs : s.canonical = true) : (State.pavRefuse s cond g op).canonical = true := by
  unfold State.pavRefuse; simp +contextual (maxDischargeDepth := 64) [hs]
@[simp] theorem State.pavDone_mem (s : State) (g : Nat) : (State.pavDone s g).mem = s.mem := by
  unfold State.pavDone; simp +contextual (maxDischargeDepth := 64)
@[simp] theorem State.pavDone_pending (s : State) (g : Nat) : (State.pavDone s g).pending = s.pending := by
  unfold State.pavDone; simp +contextual (maxDischargeDepth := 64)
@[simp] theorem State.pavDone_canonical (s : State) (g : Nat) (hs : s.canonical = true) : (State.pavDone s g).canonical = true := by
  unfold State.pavDone; simp +contextual (maxDischargeDepth := 64) [hs]
@[simp] theorem State.purgeEngines_mem (s : State) (g : Nat) : (State.purgeEngines s g).mem = s.mem := by
  unfold State.purgeEngines; simp +contextual (maxDischargeDepth := 64)
@[simp] theorem State.purgeEngines_pending (s : State) (g : Nat) : (State.purgeEngines s g).pending = s.pending := by
  unfold State.purgeEngines; simp +contextual (maxDischargeDepth := 64)
@[simp] theorem State.purgeEngines_canonical (s : State) (g : Nat) (hs : s.canonical = true) : (State.purgeEngines s g).canonical = true := by
  unfold State.purgeEngines; simp +contextual (maxDischargeDepth := 64) [hs]
@[simp] theorem State.groupEmpty_mem (s : State) (g : Nat) : (State.groupEmpty s g).mem = s.mem := by
  unfold State.groupEmpty; simp +contextual (maxDischargeDepth := 64)
@[simp] theorem State.groupEmpty_pending (s : State) (g : Nat) : (State.groupEmpty s g).pending = s.pending := by
  unfold State.groupEmpty; simp +contextual (maxDischargeDepth := 64)
@[simp] theorem State.groupEmpty_canonical (s : State) (g : Nat) (hs : s.canonical = true) : (State.groupEmpty s g).canonical = true := by
  unfold State.groupEmpty; simp +contextual (maxDischargeDepth := 64) [hs]
@[simp] theorem State.startScrub_mem (s : State) (g : Nat) (forLoad : Bool) : (State.startScrub s g forLoad).mem = s.mem := by
  unfold State.startScrub; simp +contextual (maxDischargeDepth := 64)
@[simp] theorem State.startScrub_pending (s : State) (g : Nat) (forLoad : Bool) : (State.startScrub s g forLoad).pending = s.pending := by
  unfold State.startScrub; simp +contextual (maxDischargeDepth := 64)
@[simp] theorem State.startScrub_canonical (s : State) (g : Nat) (forLoad : Bool) (hs : s.canonical = true) : (State.startScrub s g forLoad).canonical = true := by
  unfold State.startScrub; simp +contextual (maxDischargeDepth := 64) [hs]
@[simp] theorem State.loadFail_mem (s : State) (g cond : Nat) : (State.loadFail s g cond).mem = s.mem := by
  unfold State.loadFail; simp +contextual (maxDischargeDepth := 64)
@[simp] theorem State.loadFail_pending (s : State) (g cond : Nat) : (State.loadFail s g cond).pending = s.pending := by
  unfold State.loadFail; simp +contextual (maxDischargeDepth := 64)
@[simp] theorem State.loadFail_canonical (s : State) (g cond : Nat) (hs : s.canonical = true) : (State.loadFail s g cond).canonical = true := by
  unfold State.loadFail; simp +contextual (maxDischargeDepth := 64) [hs]
@[simp] theorem State.unloading_mem (s : State) (g : Nat) : (State.unloading s g).mem = s.mem := by
  unfold State.unloading; simp +contextual (maxDischargeDepth := 64)
@[simp] theorem State.unloading_pending (s : State) (g : Nat) : (State.unloading s g).pending = s.pending := by
  unfold State.unloading; simp +contextual (maxDischargeDepth := 64)
@[simp] theorem State.unloading_canonical (s : State) (g : Nat) (hs : s.canonical = true) : (State.unloading s g).canonical = true := by
  unfold State.unloading; simp +contextual (maxDischargeDepth := 64) [hs]
@[simp] theorem State.fence_mem (s : State) (g : Nat) : (State.fence s g).mem = s.mem := by
  unfold State.fence; simp +contextual (maxDischargeDepth := 64)
@[simp] theorem State.fence_pending (s : State) (g : Nat) : (State.fence s g).pending = s.pending := by
  unfold State.fence; simp +contextual (maxDischargeDepth := 64)
@[simp] theorem State.fence_canonical (s : State) (g : Nat) (hs : s.canonical = true) : (State.fence s g).canonical = true := by
  unfold State.fence; simp +contextual (maxDischargeDepth := 64) [hs]
@[simp] theorem State.violRecord_mem (s : State) (g cond : Nat) : (State.violRecord s g cond).mem = s.mem := by
  unfold State.violRecord; (try simp only []); (repeat' split) <;> simp +contextual (maxDischargeDepth := 64)
@[simp] theorem State.violRecord_pending (s : State) (g cond : Nat) : (State.violRecord s g cond).pending = s.pending := by
  unfold State.violRecord; (try simp only []); (repeat' split) <;> simp +contextual (maxDischargeDepth := 64)
@[simp] theorem State.violRecord_canonical (s : State) (g cond : Nat) (hs : s.canonical = true) : (State.violRecord s g cond).canonical = true := by
  unfold State.violRecord; (try simp only []); (repeat' split) <;> simp +contextual (maxDischargeDepth := 64) [hs]
@[simp] theorem State.violFence_mem (s : State) (g : Nat) : (State.violFence s g).mem = s.mem := by
  unfold State.violFence; (try simp only []); (repeat' split) <;> simp +contextual (maxDischargeDepth := 64)
@[simp] theorem State.violFence_pending (s : State) (g : Nat) : (State.violFence s g).pending = s.pending := by
  unfold State.violFence; (try simp only []); (repeat' split) <;> simp +contextual (maxDischargeDepth := 64)
@[simp] theorem State.violFence_canonical (s : State) (g : Nat) (hs : s.canonical = true) : (State.violFence s g).canonical = true := by
  unfold State.violFence; (try simp only []); (repeat' split) <;> simp +contextual (maxDischargeDepth := 64) [hs]
@[simp] theorem State.violation_mem (s : State) (g cond : Nat) : (State.violation s g cond).mem = s.mem := by
  unfold State.violation; (try simp only []); (repeat' split) <;> simp +contextual (maxDischargeDepth := 64)
@[simp] theorem State.violation_pending (s : State) (g cond : Nat) : (State.violation s g cond).pending = s.pending := by
  unfold State.violation; (try simp only []); (repeat' split) <;> simp +contextual (maxDischargeDepth := 64)
@[simp] theorem State.violation_canonical (s : State) (g cond : Nat) (hs : s.canonical = true) : (State.violation s g cond).canonical = true := by
  unfold State.violation; (try simp only []); (repeat' split) <;> simp +contextual (maxDischargeDepth := 64) [hs]
@[simp] theorem State.epViolation_mem (s : State) (ep cond : Nat) : (State.epViolation s ep cond).mem = s.mem := by
  unfold State.epViolation; (try simp only []); (repeat' split) <;> simp +contextual (maxDischargeDepth := 64)
@[simp] theorem State.epViolation_pending (s : State) (ep cond : Nat) : (State.epViolation s ep cond).pending = s.pending := by
  unfold State.epViolation; (try simp only []); (repeat' split) <;> simp +contextual (maxDischargeDepth := 64)
@[simp] theorem State.epViolation_canonical (s : State) (ep cond : Nat) (hs : s.canonical = true) : (State.epViolation s ep cond).canonical = true := by
  unfold State.epViolation; (try simp only []); (repeat' split) <;> simp +contextual (maxDischargeDepth := 64) [hs]
@[simp] theorem State.pavLoadCmd_mem (s : State) (g : Nat) (host : Bool) : (State.pavLoadCmd s g host).mem = s.mem := by
  unfold State.pavLoadCmd; simp +contextual (maxDischargeDepth := 64)
@[simp] theorem State.pavLoadCmd_pending (s : State) (g : Nat) (host : Bool) : (State.pavLoadCmd s g host).pending = s.pending := by
  unfold State.pavLoadCmd; simp +contextual (maxDischargeDepth := 64)
@[simp] theorem State.pavLoadCmd_canonical (s : State) (g : Nat) (host : Bool) (hs : s.canonical = true) : (State.pavLoadCmd s g host).canonical = true := by
  unfold State.pavLoadCmd; simp +contextual (maxDischargeDepth := 64) [hs]
@[simp] theorem State.pavCancelCmd_mem (s : State) (g op : Nat) : (State.pavCancelCmd s g op).mem = s.mem := by
  unfold State.pavCancelCmd; simp +contextual (maxDischargeDepth := 64)
@[simp] theorem State.pavCancelCmd_pending (s : State) (g op : Nat) : (State.pavCancelCmd s g op).pending = s.pending := by
  unfold State.pavCancelCmd; simp +contextual (maxDischargeDepth := 64)
@[simp] theorem State.pavCancelCmd_canonical (s : State) (g op : Nat) (hs : s.canonical = true) : (State.pavCancelCmd s g op).canonical = true := by
  unfold State.pavCancelCmd; simp +contextual (maxDischargeDepth := 64) [hs]
@[simp] theorem State.pavUnloadCmd_mem (s : State) (g grace : Nat) : (State.pavUnloadCmd s g grace).mem = s.mem := by
  unfold State.pavUnloadCmd; simp +contextual (maxDischargeDepth := 64)
@[simp] theorem State.pavUnloadCmd_pending (s : State) (g grace : Nat) : (State.pavUnloadCmd s g grace).pending = s.pending := by
  unfold State.pavUnloadCmd; simp +contextual (maxDischargeDepth := 64)
@[simp] theorem State.pavUnloadCmd_canonical (s : State) (g grace : Nat) (hs : s.canonical = true) : (State.pavUnloadCmd s g grace).canonical = true := by
  unfold State.pavUnloadCmd; simp +contextual (maxDischargeDepth := 64) [hs]
@[simp] theorem State.beginRelease_mem (s : State) (g : Nat) (at' : Option Nat) : (State.beginRelease s g at').mem = s.mem := by
  unfold State.beginRelease; simp +contextual (maxDischargeDepth := 64)
@[simp] theorem State.beginRelease_pending (s : State) (g : Nat) (at' : Option Nat) : (State.beginRelease s g at').pending = s.pending := by
  unfold State.beginRelease; simp +contextual (maxDischargeDepth := 64)
@[simp] theorem State.beginRelease_canonical (s : State) (g : Nat) (at' : Option Nat) (hs : s.canonical = true) : (State.beginRelease s g at').canonical = true := by
  unfold State.beginRelease; simp +contextual (maxDischargeDepth := 64) [hs]
@[simp] theorem State.pavReleaseCmd_mem (s : State) (g : Nat) : (State.pavReleaseCmd s g).mem = s.mem := by
  unfold State.pavReleaseCmd; simp +contextual (maxDischargeDepth := 64)
@[simp] theorem State.pavReleaseCmd_pending (s : State) (g : Nat) : (State.pavReleaseCmd s g).pending = s.pending := by
  unfold State.pavReleaseCmd; simp +contextual (maxDischargeDepth := 64)
@[simp] theorem State.pavReleaseCmd_canonical (s : State) (g : Nat) (hs : s.canonical = true) : (State.pavReleaseCmd s g).canonical = true := by
  unfold State.pavReleaseCmd; simp +contextual (maxDischargeDepth := 64) [hs]
@[simp] theorem State.pavCmd_mem (s : State) (op g : Nat) (host : Bool) (grace : Nat) : (State.pavCmd s op g host grace).mem = s.mem := by
  unfold State.pavCmd; simp +contextual (maxDischargeDepth := 64)
@[simp] theorem State.pavCmd_pending (s : State) (op g : Nat) (host : Bool) (grace : Nat) : (State.pavCmd s op g host grace).pending = s.pending := by
  unfold State.pavCmd; simp +contextual (maxDischargeDepth := 64)
@[simp] theorem State.pavCmd_canonical (s : State) (op g : Nat) (host : Bool) (grace : Nat) (hs : s.canonical = true) : (State.pavCmd s op g host grace).canonical = true := by
  unfold State.pavCmd; simp +contextual (maxDischargeDepth := 64) [hs]
@[simp] theorem State.beginAttach_mem (s : State) (g : Nat) : (State.beginAttach s g).mem = s.mem := by
  unfold State.beginAttach; simp +contextual (maxDischargeDepth := 64)
@[simp] theorem State.beginAttach_pending (s : State) (g : Nat) : (State.beginAttach s g).pending = s.pending := by
  unfold State.beginAttach; simp +contextual (maxDischargeDepth := 64)
@[simp] theorem State.beginAttach_canonical (s : State) (g : Nat) (hs : s.canonical = true) : (State.beginAttach s g).canonical = true := by
  unfold State.beginAttach; simp +contextual (maxDischargeDepth := 64) [hs]
@[simp] theorem State.writeMeasurement_mem (s : State) (g : Nat) : (State.writeMeasurement s g).mem = s.mem := by
  unfold State.writeMeasurement; simp +contextual (maxDischargeDepth := 64)
@[simp] theorem State.writeMeasurement_pending (s : State) (g : Nat) : (State.writeMeasurement s g).pending = s.pending := by
  unfold State.writeMeasurement; simp +contextual (maxDischargeDepth := 64)
@[simp] theorem State.writeMeasurement_canonical (s : State) (g : Nat) (hs : s.canonical = true) : (State.writeMeasurement s g).canonical = true := by
  unfold State.writeMeasurement; simp +contextual (maxDischargeDepth := 64) [hs]
@[simp] theorem execPavLoad_quiet (group : Nat) (host : Bool) (s : State) : Res.quiet s (execPavLoad group host s) := by
  unfold execPavLoad; simp +contextual (maxDischargeDepth := 64)
@[simp] theorem execPavUnload_quiet (group grace : Nat) (s : State) : Res.quiet s (execPavUnload group grace s) := by
  unfold execPavUnload; simp +contextual (maxDischargeDepth := 64)
@[simp] theorem execPavRelease_quiet (group : Nat) (s : State) : Res.quiet s (execPavRelease group s) := by
  unfold execPavRelease; simp +contextual (maxDischargeDepth := 64)
@[simp] theorem execPavCancel_quiet (group : Nat) (s : State) : Res.quiet s (execPavCancel group s) := by
  unfold execPavCancel; simp +contextual (maxDischargeDepth := 64)
@[simp] theorem execPavScrubEnd_quiet (group : Nat) (zero : Bool) (s : State) : Res.quiet s (execPavScrubEnd group zero s) := by
  unfold execPavScrubEnd; simp +contextual (maxDischargeDepth := 64)
@[simp] theorem State.tryHaze_mem (s : State) (g : Nat) : (State.tryHaze s g).mem = s.mem := by
  unfold State.tryHaze; (try simp only []); (repeat' split) <;> simp +contextual (maxDischargeDepth := 64)
@[simp] theorem State.tryHaze_pending (s : State) (g : Nat) : (State.tryHaze s g).pending = s.pending := by
  unfold State.tryHaze; (try simp only []); (repeat' split) <;> simp +contextual (maxDischargeDepth := 64)
@[simp] theorem State.tryHaze_canonical (s : State) (g : Nat) (hs : s.canonical = true) : (State.tryHaze s g).canonical = true := by
  unfold State.tryHaze; (try simp only []); (repeat' split) <;> simp +contextual (maxDischargeDepth := 64) [hs]
@[simp] theorem execPavHeaderCheckEnd_stays (group : Nat) (hostBytes : List Byte) (src : SrcRead) (s : State) : Res.stays s (execPavHeaderCheckEnd group hostBytes src s) := by
  unfold execPavHeaderCheckEnd; (try simp only []); split
  · simp
  · split
    · have k := State.operatorRead_keeps (by assumption); simp +contextual (maxDischargeDepth := 64) [k]
    · have k := State.operatorRead_keeps (by assumption); split <;> simp +contextual (maxDischargeDepth := 64) [k]
@[simp] theorem execPavFrameEnd_stays (member : Nat) (hostBytes : List Byte) (src : SrcRead) (s : State) : Res.stays s (execPavFrameEnd member hostBytes src s) := by
  unfold execPavFrameEnd; (try simp only []); split
  · simp
  · split
    · simp
    · split
      · have k := State.operatorRead_keeps (by assumption); simp +contextual (maxDischargeDepth := 64) [k]
      · have k := State.operatorRead_keeps (by assumption); split <;> (try split) <;> (try split) <;> simp +contextual (maxDischargeDepth := 64) [k]
@[simp] theorem execUserResetEnd_quiet (group : Nat) (s : State) : Res.quiet s (execUserResetEnd group s) := by
  unfold execUserResetEnd; simp +contextual (maxDischargeDepth := 64)
@[simp] theorem execQuiesceAck_quiet (group : Nat) (s : State) : Res.quiet s (execQuiesceAck group s) := by
  unfold execQuiesceAck; simp +contextual (maxDischargeDepth := 64)
@[simp] theorem execGraceExpiry_quiet (group : Nat) (s : State) : Res.quiet s (execGraceExpiry group s) := by
  unfold execGraceExpiry; simp +contextual (maxDischargeDepth := 64)
@[simp] theorem execPavHbmWritesDone_quiet (group : Nat) (s : State) : Res.quiet s (execPavHbmWritesDone group s) := by
  unfold execPavHbmWritesDone; simp +contextual (maxDischargeDepth := 64)
@[simp] theorem State.pavcGated_mem (s : State) (g : Nat) (act : State) (h : act.mem = s.mem) : (State.pavcGated s g act).mem = s.mem := by
  unfold State.pavcGated; split <;> simp [h]
@[simp] theorem State.pavcGated_pending (s : State) (g : Nat) (act : State) (h : act.pending = s.pending) : (State.pavcGated s g act).pending = s.pending := by
  unfold State.pavcGated; split <;> simp [h]
@[simp] theorem State.pavcGated_canonical (s : State) (g : Nat) (act : State) (hs : s.canonical = true) (h : act.canonical = true) : (State.pavcGated s g act).canonical = true := by
  unfold State.pavcGated; split <;> simp [h, hs]
@[simp] theorem State.pavcReleaseWrite_mem (s : State) (g : Nat) : (State.pavcReleaseWrite s g).mem = s.mem := by
  unfold State.pavcReleaseWrite; simp +contextual (maxDischargeDepth := 64)
@[simp] theorem State.pavcReleaseWrite_pending (s : State) (g : Nat) : (State.pavcReleaseWrite s g).pending = s.pending := by
  unfold State.pavcReleaseWrite; simp +contextual (maxDischargeDepth := 64)
@[simp] theorem State.pavcReleaseWrite_canonical (s : State) (g : Nat) (hs : s.canonical = true) : (State.pavcReleaseWrite s g).canonical = true := by
  unfold State.pavcReleaseWrite; simp +contextual (maxDischargeDepth := 64) [hs]
@[simp] theorem execPavcRelease_quiet (group : Nat) (s : State) : Res.quiet s (execPavcRelease group s) := by
  unfold execPavcRelease; simp +contextual (maxDischargeDepth := 64)
@[simp] theorem State.userResetWrite_mem (s : State) (g : Nat) : (State.userResetWrite s g).mem = s.mem := by
  unfold State.userResetWrite; simp +contextual (maxDischargeDepth := 64)
@[simp] theorem State.userResetWrite_pending (s : State) (g : Nat) : (State.userResetWrite s g).pending = s.pending := by
  unfold State.userResetWrite; simp +contextual (maxDischargeDepth := 64)
@[simp] theorem State.userResetWrite_canonical (s : State) (g : Nat) (hs : s.canonical = true) : (State.userResetWrite s g).canonical = true := by
  unfold State.userResetWrite; simp +contextual (maxDischargeDepth := 64) [hs]
@[simp] theorem execUserReset_quiet (group : Nat) (s : State) : Res.quiet s (execUserReset group s) := by
  unfold execUserReset; simp +contextual (maxDischargeDepth := 64)
@[simp] theorem State.pavcClkWrite_mem (s : State) (g k f : Nat) : (State.pavcClkWrite s g k f).mem = s.mem := by
  unfold State.pavcClkWrite; simp +contextual (maxDischargeDepth := 64)
@[simp] theorem State.pavcClkWrite_pending (s : State) (g k f : Nat) : (State.pavcClkWrite s g k f).pending = s.pending := by
  unfold State.pavcClkWrite; simp +contextual (maxDischargeDepth := 64)
@[simp] theorem State.pavcClkWrite_canonical (s : State) (g k f : Nat) (hs : s.canonical = true) : (State.pavcClkWrite s g k f).canonical = true := by
  unfold State.pavcClkWrite; simp +contextual (maxDischargeDepth := 64) [hs]
@[simp] theorem execPavcClkWrite_quiet (group clock khz : Nat) (s : State) : Res.quiet s (execPavcClkWrite group clock khz s) := by
  unfold execPavcClkWrite; simp +contextual (maxDischargeDepth := 64)
@[simp] theorem State.clkcapWrite_mem (s : State) (g mhz : Nat) : (State.clkcapWrite s g mhz).mem = s.mem := by
  unfold State.clkcapWrite; simp +contextual (maxDischargeDepth := 64)
@[simp] theorem State.clkcapWrite_pending (s : State) (g mhz : Nat) : (State.clkcapWrite s g mhz).pending = s.pending := by
  unfold State.clkcapWrite; simp +contextual (maxDischargeDepth := 64)
@[simp] theorem State.clkcapWrite_canonical (s : State) (g mhz : Nat) (hs : s.canonical = true) : (State.clkcapWrite s g mhz).canonical = true := by
  unfold State.clkcapWrite; simp +contextual (maxDischargeDepth := 64) [hs]
@[simp] theorem execClkcapWrite_quiet (group mhz : Nat) (s : State) : Res.quiet s (execClkcapWrite group mhz s) := by
  unfold execClkcapWrite; simp +contextual (maxDischargeDepth := 64)
@[simp] theorem execConfigScan_quiet (member : Nat) (ecc : EccResult) (s : State) : Res.quiet s (execConfigScan member ecc s) := by
  unfold execConfigScan; (try simp only []); (repeat' split) <;> simp +contextual (maxDischargeDepth := 64)
@[simp] theorem execPavHbmRequest_quiet (member : Nat) (write : Bool) (addr tag : Nat) (data : List Byte) (mask : Word) (s : State) : Res.quiet s (execPavHbmRequest member write addr tag data mask s) := by
  unfold execPavHbmRequest; (try simp only []); (repeat' split) <;> simp +contextual (maxDischargeDepth := 64)
@[simp] theorem State.putMasked_pending (s : State) (a : Nat) (mask : Word) (data : List Byte) (n : Nat) : (State.putMasked s a mask data n).pending = s.pending := by
  induction n with
  | zero => rfl
  | succ n ih => rw [State.putMasked]; split <;> simp [ih]
@[simp] theorem State.putMasked_canonical (s : State) (a : Nat) (mask : Word) (data : List Byte) (n : Nat) (hs : s.canonical = true) : (State.putMasked s a mask data n).canonical = true := by
  induction n with
  | zero => exact hs
  | succ n ih => rw [State.putMasked]; split <;> simp [ih]
@[simp] theorem State.hbmWrite_pending (s : State) (r : HbmReq) : (State.hbmWrite s r).pending = s.pending := by
  unfold State.hbmWrite; simp
@[simp] theorem State.hbmWrite_canonical (s : State) (r : HbmReq) (hs : s.canonical = true) : (State.hbmWrite s r).canonical = true := by
  unfold State.hbmWrite; simp [hs]
@[simp] theorem execPavHbmResponse_stays (index : Nat) (ecc : EccResult) (s : State) : Res.stays s (execPavHbmResponse index ecc s) := by
  unfold execPavHbmResponse; (try simp only []); (repeat' split) <;> simp +contextual (maxDischargeDepth := 64)
@[simp] theorem State.pavcRead_mem (s : State) (g off : Nat) : (State.pavcRead s g off).2.mem = s.mem := by
  unfold State.pavcRead; (try simp only []); (repeat' split) <;> simp +contextual (maxDischargeDepth := 64)
@[simp] theorem State.pavcRead_pending (s : State) (g off : Nat) : (State.pavcRead s g off).2.pending = s.pending := by
  unfold State.pavcRead; (try simp only []); (repeat' split) <;> simp +contextual (maxDischargeDepth := 64)
@[simp] theorem State.pavcRead_canonical (s : State) (g off : Nat) (hs : s.canonical = true) : (State.pavcRead s g off).2.canonical = true := by
  unfold State.pavcRead; (try simp only []); (repeat' split) <;> simp +contextual (maxDischargeDepth := 64) [hs]
theorem State.pavcRead_keeps {s : State} {g off : Nat} {r0 r1} (hx : State.pavcRead s g off = (r0, r1)) : r1.pending = s.pending ∧ (s.canonical = true → r1.canonical = true) ∧ r1.mem = s.mem := by
  have pending' := State.pavcRead_pending s g off
  rw [hx] at pending'
  have canonical' := fun hs => State.pavcRead_canonical s g off hs
  rw [hx] at canonical'
  have mem' := State.pavcRead_mem s g off
  rw [hx] at mem'
  exact ⟨pending', canonical', mem'⟩
@[simp] theorem State.pavcWrite_mem (s : State) (g off : Nat) (v : Word) : (State.pavcWrite s g off v).mem = s.mem := by
  unfold State.pavcWrite; simp +contextual (maxDischargeDepth := 64)
@[simp] theorem State.pavcWrite_pending (s : State) (g off : Nat) (v : Word) : (State.pavcWrite s g off v).pending = s.pending := by
  unfold State.pavcWrite; simp +contextual (maxDischargeDepth := 64)
@[simp] theorem State.pavcWrite_canonical (s : State) (g off : Nat) (v : Word) (hs : s.canonical = true) : (State.pavcWrite s g off v).canonical = true := by
  unfold State.pavcWrite; simp +contextual (maxDischargeDepth := 64) [hs]
@[simp] theorem State.busRun_mem (s : State) (g : Nat) : (State.busRun s g).mem = s.mem := by
  unfold State.busRun; (try simp only []); (repeat' split) <;> simp +contextual (maxDischargeDepth := 64)
@[simp] theorem State.busRun_pending (s : State) (g : Nat) : (State.busRun s g).pending = s.pending := by
  unfold State.busRun; (try simp only []); (repeat' split) <;> simp +contextual (maxDischargeDepth := 64)
@[simp] theorem State.busRun_canonical (s : State) (g : Nat) (hs : s.canonical = true) : (State.busRun s g).canonical = true := by
  unfold State.busRun; (try simp only []); (repeat' split) <;> simp +contextual (maxDischargeDepth := 64) [hs]
@[simp] theorem State.busReady_mem (s : State) (g : Nat) (ready : Bool) : (State.busReady s g ready).mem = s.mem := by
  unfold State.busReady; (try simp only []); (repeat' split) <;> simp +contextual (maxDischargeDepth := 64)
@[simp] theorem State.busReady_pending (s : State) (g : Nat) (ready : Bool) : (State.busReady s g ready).pending = s.pending := by
  unfold State.busReady; (try simp only []); (repeat' split) <;> simp +contextual (maxDischargeDepth := 64)
@[simp] theorem State.busReady_canonical (s : State) (g : Nat) (ready : Bool) (hs : s.canonical = true) : (State.busReady s g ready).canonical = true := by
  unfold State.busReady; (try simp only []); (repeat' split) <;> simp +contextual (maxDischargeDepth := 64) [hs]
@[simp] theorem State.windowAccess_mem (s : State) (g : Nat) (write : Bool) (off : Nat) (v : Word) (tag : Nat) : (State.windowAccess s g write off v tag).mem = s.mem := by
  unfold State.windowAccess; simp +contextual (maxDischargeDepth := 64)
@[simp] theorem State.windowAccess_pending (s : State) (g : Nat) (write : Bool) (off : Nat) (v : Word) (tag : Nat) : (State.windowAccess s g write off v tag).pending = s.pending := by
  unfold State.windowAccess; simp +contextual (maxDischargeDepth := 64)
@[simp] theorem State.windowAccess_canonical (s : State) (g : Nat) (write : Bool) (off : Nat) (v : Word) (tag : Nat) (hs : s.canonical = true) : (State.windowAccess s g write off v tag).canonical = true := by
  unfold State.windowAccess; simp +contextual (maxDischargeDepth := 64) [hs]
@[simp] theorem execRegWindowAccess_quiet (group : Nat) (write : Bool) (offset : Nat) (value : Word) (tag : WindowTag) (s : State) : Res.quiet s (execRegWindowAccess group write offset value tag s) := by
  unfold execRegWindowAccess; simp +contextual (maxDischargeDepth := 64)
@[simp] theorem execRegReadReturn_quiet (group : Nat) (answer : RegAnswer) (s : State) : Res.quiet s (execRegReadReturn group answer s) := by
  unfold execRegReadReturn; (try simp only []); (repeat' split) <;> simp +contextual (maxDischargeDepth := 64)
@[simp] theorem execPavRegTimeoutExpiry_quiet (group : Nat) (s : State) : Res.quiet s (execPavRegTimeoutExpiry group s) := by
  unfold execPavRegTimeoutExpiry; (try simp only []); (repeat' split) <;> simp +contextual (maxDischargeDepth := 64)
@[simp] theorem execRxCreditReturn_quiet (ep vc : Nat) (s : State) : Res.quiet s (execRxCreditReturn ep vc s) := by
  unfold execRxCreditReturn; (try simp only []); (repeat' split) <;> simp +contextual (maxDischargeDepth := 64)
@[simp] theorem execSleepReqRise_quiet (group : Nat) (s : State) : Res.quiet s (execSleepReqRise group s) := by
  unfold execSleepReqRise; simp +contextual (maxDischargeDepth := 64)
@[simp] theorem execSleepReqFall_quiet (group : Nat) (s : State) : Res.quiet s (execSleepReqFall group s) := by
  unfold execSleepReqFall; simp +contextual (maxDischargeDepth := 64)
@[simp] theorem State.finishHbm_pending (s : State) (g : Nat) : (State.finishHbm s g).pending = s.pending := by
  unfold State.finishHbm; simp
@[simp] theorem State.finishHbm_canonical (s : State) (g : Nat) (hs : s.canonical = true) : (State.finishHbm s g).canonical = true := by
  unfold State.finishHbm; simp +contextual [hs]
@[simp] theorem State.emptyAllGroups_pending (s : State) : (State.emptyAllGroups s).pending = s.pending := by
  unfold State.emptyAllGroups; simp +contextual (maxDischargeDepth := 64)
@[simp] theorem State.emptyAllGroups_canonical (s : State) (hs : s.canonical = true) : (State.emptyAllGroups s).canonical = true := by
  unfold State.emptyAllGroups; simp +contextual (maxDischargeDepth := 64) [hs]

end Sys2Proof.Machine
end

