-- ==== Sys2Proof/Laws/KeepGates.lean ====
section
/-! SUPPORT. Machine/Gates.lean: what each of its operations keeps (memory where it stores nothing, the queue, the
canonical form of the stores). -/

namespace Sys2Proof.Machine

set_option linter.all false
set_option Elab.async false

@[simp] theorem State.setGcl_mem (s : State) (p : Nat) (g : Gcl) : (State.setGcl s p g).mem = s.mem := by
  unfold State.setGcl; simp +contextual (maxDischargeDepth := 64)
@[simp] theorem State.setGcl_pending (s : State) (p : Nat) (g : Gcl) : (State.setGcl s p g).pending = s.pending := by
  unfold State.setGcl; simp +contextual (maxDischargeDepth := 64)
@[simp] theorem State.setGcl_canonical (s : State) (p : Nat) (g : Gcl) (hs : s.canonical = true) : (State.setGcl s p g).canonical = true := by
  unfold State.setGcl; simp +contextual (maxDischargeDepth := 64) [hs]
@[simp] theorem State.gclPlace_mem (s : State) (p : Nat) : (State.gclPlace s p).mem = s.mem := by
  unfold State.gclPlace; simp +contextual (maxDischargeDepth := 64)
@[simp] theorem State.gclPlace_pending (s : State) (p : Nat) : (State.gclPlace s p).pending = s.pending := by
  unfold State.gclPlace; simp +contextual (maxDischargeDepth := 64)
@[simp] theorem State.gclPlace_canonical (s : State) (p : Nat) (hs : s.canonical = true) : (State.gclPlace s p).canonical = true := by
  unfold State.gclPlace; simp +contextual (maxDischargeDepth := 64) [hs]
@[simp] theorem State.gclApply_mem (s : State) (p start : Nat) : (State.gclApply s p start).mem = s.mem := by
  unfold State.gclApply; simp +contextual (maxDischargeDepth := 64)
@[simp] theorem State.gclApply_pending (s : State) (p start : Nat) : (State.gclApply s p start).pending = s.pending := by
  unfold State.gclApply; simp +contextual (maxDischargeDepth := 64)
@[simp] theorem State.gclApply_canonical (s : State) (p start : Nat) (hs : s.canonical = true) : (State.gclApply s p start).canonical = true := by
  unfold State.gclApply; simp +contextual (maxDischargeDepth := 64) [hs]
@[simp] theorem State.gclSync_mem (s : State) (p : Nat) : (State.gclSync s p).mem = s.mem := by
  unfold State.gclSync; (try simp only []); (repeat' split) <;> simp +contextual (maxDischargeDepth := 64)
@[simp] theorem State.gclSync_pending (s : State) (p : Nat) : (State.gclSync s p).pending = s.pending := by
  unfold State.gclSync; (try simp only []); (repeat' split) <;> simp +contextual (maxDischargeDepth := 64)
@[simp] theorem State.gclSync_canonical (s : State) (p : Nat) (hs : s.canonical = true) : (State.gclSync s p).canonical = true := by
  unfold State.gclSync; (try simp only []); (repeat' split) <;> simp +contextual (maxDischargeDepth := 64) [hs]
@[simp] theorem State.gclStepped_mem (s : State) (p : Nat) : (State.gclStepped s p).mem = s.mem := by
  unfold State.gclStepped; (try simp only []); (repeat' split) <;> simp +contextual (maxDischargeDepth := 64)
@[simp] theorem State.gclStepped_pending (s : State) (p : Nat) : (State.gclStepped s p).pending = s.pending := by
  unfold State.gclStepped; (try simp only []); (repeat' split) <;> simp +contextual (maxDischargeDepth := 64)
@[simp] theorem State.gclStepped_canonical (s : State) (p : Nat) (hs : s.canonical = true) : (State.gclStepped s p).canonical = true := by
  unfold State.gclStepped; (try simp only []); (repeat' split) <;> simp +contextual (maxDischargeDepth := 64) [hs]
@[simp] theorem State.gclGo_mem (s : State) (p : Nat) : (State.gclGo s p).mem = s.mem := by
  unfold State.gclGo; extract_lets base cyc least n c s1 g s2
  simp +contextual (maxDischargeDepth := 64) [s1, s2]
@[simp] theorem State.gclGo_pending (s : State) (p : Nat) : (State.gclGo s p).pending = s.pending := by
  unfold State.gclGo; extract_lets base cyc least n c s1 g s2
  simp +contextual (maxDischargeDepth := 64) [s1, s2]
@[simp] theorem State.gclGo_canonical (s : State) (p : Nat) (hs : s.canonical = true) : (State.gclGo s p).canonical = true := by
  unfold State.gclGo; extract_lets base cyc least n c s1 g s2
  simp +contextual (maxDischargeDepth := 64) [s1, s2, hs]
@[simp] theorem State.gclCancel_mem (s : State) (p : Nat) : (State.gclCancel s p).mem = s.mem := by
  unfold State.gclCancel; simp +contextual (maxDischargeDepth := 64)
@[simp] theorem State.gclCancel_pending (s : State) (p : Nat) : (State.gclCancel s p).pending = s.pending := by
  unfold State.gclCancel; simp +contextual (maxDischargeDepth := 64)
@[simp] theorem State.gclCancel_canonical (s : State) (p : Nat) (hs : s.canonical = true) : (State.gclCancel s p).canonical = true := by
  unfold State.gclCancel; simp +contextual (maxDischargeDepth := 64) [hs]
@[simp] theorem execSchGclCommitGo_quiet (port : Nat) (s : State) : Res.quiet s (execSchGclCommitGo port s) := by
  unfold execSchGclCommitGo; simp +contextual (maxDischargeDepth := 64)
end Sys2Proof.Machine
end

