-- ==== Sys2Proof/Laws/KeepSchOps.lean ====
section
/-! SUPPORT. Machine/SchOps.lean: what each of its operations keeps (memory where it stores nothing, the queue, the
canonical form of the stores). -/

namespace Sys2Proof.Machine

set_option linter.all false
set_option Elab.async false

@[simp] theorem State.setNode_mem (s : State) (k : Nat) (n : SchNode) : (State.setNode s k n).mem = s.mem := by
  unfold State.setNode; simp +contextual (maxDischargeDepth := 64)
@[simp] theorem State.setNode_pending (s : State) (k : Nat) (n : SchNode) : (State.setNode s k n).pending = s.pending := by
  unfold State.setNode; simp +contextual (maxDischargeDepth := 64)
@[simp] theorem State.setNode_canonical (s : State) (k : Nat) (n : SchNode) (hs : s.canonical = true) : (State.setNode s k n).canonical = true := by
  unfold State.setNode; simp +contextual (maxDischargeDepth := 64) [hs]
@[simp] theorem State.setLeafQ_mem (s : State) (l : Nat) (q : List EgFrame) : (State.setLeafQ s l q).mem = s.mem := by
  unfold State.setLeafQ; simp +contextual (maxDischargeDepth := 64)
@[simp] theorem State.setLeafQ_pending (s : State) (l : Nat) (q : List EgFrame) : (State.setLeafQ s l q).pending = s.pending := by
  unfold State.setLeafQ; simp +contextual (maxDischargeDepth := 64)
@[simp] theorem State.setLeafQ_canonical (s : State) (l : Nat) (q : List EgFrame) (hs : s.canonical = true) : (State.setLeafQ s l q).canonical = true := by
  unfold State.setLeafQ; simp +contextual (maxDischargeDepth := 64) [hs]
@[simp] theorem State.setTurn_mem (s : State) (k v : Nat) : (State.setTurn s k v).mem = s.mem := by
  unfold State.setTurn; simp +contextual (maxDischargeDepth := 64)
@[simp] theorem State.setTurn_pending (s : State) (k v : Nat) : (State.setTurn s k v).pending = s.pending := by
  unfold State.setTurn; simp +contextual (maxDischargeDepth := 64)
@[simp] theorem State.setTurn_canonical (s : State) (k v : Nat) (hs : s.canonical = true) : (State.setTurn s k v).canonical = true := by
  unfold State.setTurn; simp +contextual (maxDischargeDepth := 64) [hs]
theorem State.drrRun_pending (s : State) (turnKey : Nat) (x1 : Nat) (x2 : Kids) {r} (hx : State.drrRun s turnKey x1 x2 = some r) : r.2.pending = s.pending := by
  first
  | (induction x1 generalizing s x2 <;> unfold State.drrRun at hx <;> (try simp only [] at hx) <;> (repeat' split at hx) <;> (grind [State.setNode_pending, State.setTurn_pending]; done))
theorem State.drrRun_canonical (s : State) (turnKey : Nat) (x1 : Nat) (x2 : Kids) {r} (hx : State.drrRun s turnKey x1 x2 = some r) (hs : s.canonical = true) : r.2.canonical = true := by
  first
  | (induction x1 generalizing s x2 <;> unfold State.drrRun at hx <;> (try simp only [] at hx) <;> (repeat' split at hx) <;> (grind [State.setNode_canonical, State.setTurn_canonical]; done))
theorem State.drrRun_mem (s : State) (turnKey : Nat) (x1 : Nat) (x2 : Kids) {r} (hx : State.drrRun s turnKey x1 x2 = some r) : r.2.mem = s.mem := by
  first
  | (induction x1 generalizing s x2 <;> unfold State.drrRun at hx <;> (try simp only [] at hx) <;> (repeat' split at hx) <;> (grind [State.setNode_mem, State.setTurn_mem]; done))
theorem State.drrRun_keeps {s : State} {turnKey : Nat} {x1 : Nat} {x2 : Kids} {r0 r1} (hx : State.drrRun s turnKey x1 x2 = some (r0, r1)) : r1.pending = s.pending ∧ (s.canonical = true → r1.canonical = true) ∧ r1.mem = s.mem := by
  exact ⟨State.drrRun_pending s turnKey x1 x2 hx, fun hs => State.drrRun_canonical s turnKey x1 x2 hx hs, State.drrRun_mem s turnKey x1 x2 hx⟩
theorem State.drrPick_pending (s : State) (turnKey : Nat) (kids : Kids) {r} (hx : State.drrPick s turnKey kids = some r) : r.2.pending = s.pending := by
  unfold State.drrPick at hx; (try simp only [] at hx); (repeat' split at hx) <;> grind [State.drrRun_pending, State.setNode_pending]
theorem State.drrPick_canonical (s : State) (turnKey : Nat) (kids : Kids) {r} (hx : State.drrPick s turnKey kids = some r) (hs : s.canonical = true) : r.2.canonical = true := by
  unfold State.drrPick at hx; (try simp only [] at hx); (repeat' split at hx) <;> grind [State.drrRun_canonical, State.setNode_canonical]
theorem State.drrPick_mem (s : State) (turnKey : Nat) (kids : Kids) {r} (hx : State.drrPick s turnKey kids = some r) : r.2.mem = s.mem := by
  unfold State.drrPick at hx; (try simp only [] at hx); (repeat' split at hx) <;> grind [State.drrRun_mem, State.setNode_mem]
theorem State.drrPick_keeps {s : State} {turnKey : Nat} {kids : Kids} {r0 r1} (hx : State.drrPick s turnKey kids = some (r0, r1)) : r1.pending = s.pending ∧ (s.canonical = true → r1.canonical = true) ∧ r1.mem = s.mem := by
  exact ⟨State.drrPick_pending s turnKey kids hx, fun hs => State.drrPick_canonical s turnKey kids hx hs, State.drrPick_mem s turnKey kids hx⟩
theorem State.pickKid_pending (s : State) (parent : Nat) (kids : Kids) {r} (hx : State.pickKid s parent kids = some r) : r.2.pending = s.pending := by
  unfold State.pickKid at hx; (try simp only [] at hx); (repeat' split at hx) <;> grind [State.drrPick_pending]
theorem State.pickKid_canonical (s : State) (parent : Nat) (kids : Kids) {r} (hx : State.pickKid s parent kids = some r) (hs : s.canonical = true) : r.2.canonical = true := by
  unfold State.pickKid at hx; (try simp only [] at hx); (repeat' split at hx) <;> grind [State.drrPick_canonical]
theorem State.pickKid_mem (s : State) (parent : Nat) (kids : Kids) {r} (hx : State.pickKid s parent kids = some r) : r.2.mem = s.mem := by
  unfold State.pickKid at hx; (try simp only [] at hx); (repeat' split at hx) <;> grind [State.drrPick_mem]
theorem State.pickKid_keeps {s : State} {parent : Nat} {kids : Kids} {r0 r1} (hx : State.pickKid s parent kids = some (r0, r1)) : r1.pending = s.pending ∧ (s.canonical = true → r1.canonical = true) ∧ r1.mem = s.mem := by
  exact ⟨State.pickKid_pending s parent kids hx, fun hs => State.pickKid_canonical s parent kids hx hs, State.pickKid_mem s parent kids hx⟩
theorem State.groupPick_pending (s : State) (g : Nat) {r} (hx : State.groupPick s g = some r) : r.2.pending = s.pending := by
  have h := hx
  unfold State.groupPick at h
  rcases r with ⟨r1, r2⟩
  obtain ⟨⟨k, u⟩, hx', hr⟩ := Option.map_eq_some_iff.mp h
  have hu : u = r2 := congrArg Prod.snd hr
  subst hu
  have hk := State.pickKid_pending _ _ _ hx'
  exact hk
theorem State.groupPick_canonical (s : State) (g : Nat) {r} (hx : State.groupPick s g = some r) (hs : s.canonical = true) : r.2.canonical = true := by
  have h := hx
  unfold State.groupPick at h
  rcases r with ⟨r1, r2⟩
  obtain ⟨⟨k, u⟩, hx', hr⟩ := Option.map_eq_some_iff.mp h
  have hu : u = r2 := congrArg Prod.snd hr
  subst hu
  have hk := State.pickKid_canonical _ _ _ hx' hs
  exact hk
theorem State.groupPick_mem (s : State) (g : Nat) {r} (hx : State.groupPick s g = some r) : r.2.mem = s.mem := by
  have h := hx
  unfold State.groupPick at h
  rcases r with ⟨r1, r2⟩
  obtain ⟨⟨k, u⟩, hx', hr⟩ := Option.map_eq_some_iff.mp h
  have hu : u = r2 := congrArg Prod.snd hr
  subst hu
  have hk := State.pickKid_mem _ _ _ hx'
  exact hk
theorem State.groupPick_keeps {s : State} {g : Nat} {r0 r1} (hx : State.groupPick s g = some (r0, r1)) : r1.pending = s.pending ∧ (s.canonical = true → r1.canonical = true) ∧ r1.mem = s.mem := by
  exact ⟨State.groupPick_pending s g hx, fun hs => State.groupPick_canonical s g hx hs, State.groupPick_mem s g hx⟩
theorem State.classPick_pending (s : State) (port c : Nat) {r} (hx : State.classPick s port c = some r) : r.2.pending = s.pending := by
  have h := hx
  unfold State.classPick at h; simp only [] at h
  split at h
  · cases h
  · rename_i h'
    rw [State.groupPick_pending _ _ h, State.pickKid_pending _ _ _ h']
theorem State.classPick_canonical (s : State) (port c : Nat) {r} (hx : State.classPick s port c = some r) (hs : s.canonical = true) : r.2.canonical = true := by
  have h := hx
  unfold State.classPick at h; simp only [] at h
  split at h
  · cases h
  · rename_i h'
    exact State.groupPick_canonical _ _ h (State.pickKid_canonical _ _ _ h' hs)
theorem State.classPick_mem (s : State) (port c : Nat) {r} (hx : State.classPick s port c = some r) : r.2.mem = s.mem := by
  have h := hx
  unfold State.classPick at h; simp only [] at h
  split at h
  · cases h
  · rename_i h'
    rw [State.groupPick_mem _ _ h, State.pickKid_mem _ _ _ h']
theorem State.classPick_keeps {s : State} {port c : Nat} {r0 r1} (hx : State.classPick s port c = some (r0, r1)) : r1.pending = s.pending ∧ (s.canonical = true → r1.canonical = true) ∧ r1.mem = s.mem := by
  exact ⟨State.classPick_pending s port c hx, fun hs => State.classPick_canonical s port c hx hs, State.classPick_mem s port c hx⟩
theorem State.portPick_pending (s : State) (port markers : Nat) {r} (hx : State.portPick s port markers = some r) : r.2.pending = s.pending := by
  have h := hx
  unfold State.portPick at h; simp only [] at h
  split at h
  · cases h
  split at h
  · cases h
  · rename_i h'
    rw [State.classPick_pending _ _ _ h, State.pickKid_pending _ _ _ h']
theorem State.portPick_canonical (s : State) (port markers : Nat) {r} (hx : State.portPick s port markers = some r) (hs : s.canonical = true) : r.2.canonical = true := by
  have h := hx
  unfold State.portPick at h; simp only [] at h
  split at h
  · cases h
  split at h
  · cases h
  · rename_i h'
    exact State.classPick_canonical _ _ _ h (State.pickKid_canonical _ _ _ h' hs)
theorem State.portPick_mem (s : State) (port markers : Nat) {r} (hx : State.portPick s port markers = some r) : r.2.mem = s.mem := by
  have h := hx
  unfold State.portPick at h; simp only [] at h
  split at h
  · cases h
  split at h
  · cases h
  · rename_i h'
    rw [State.classPick_mem _ _ _ h, State.pickKid_mem _ _ _ h']
theorem State.portPick_keeps {s : State} {port markers : Nat} {r0 r1} (hx : State.portPick s port markers = some (r0, r1)) : r1.pending = s.pending ∧ (s.canonical = true → r1.canonical = true) ∧ r1.mem = s.mem := by
  exact ⟨State.portPick_pending s port markers hx, fun hs => State.portPick_canonical s port markers hx hs, State.portPick_mem s port markers hx⟩
@[simp] theorem State.chargePath_mem (s : State) (port l len : Nat) : (State.chargePath s port l len).mem = s.mem := by
  unfold State.chargePath; simp +contextual (maxDischargeDepth := 64)
@[simp] theorem State.chargePath_pending (s : State) (port l len : Nat) : (State.chargePath s port l len).pending = s.pending := by
  unfold State.chargePath; simp +contextual (maxDischargeDepth := 64)
@[simp] theorem State.chargePath_canonical (s : State) (port l len : Nat) (hs : s.canonical = true) : (State.chargePath s port l len).canonical = true := by
  unfold State.chargePath; simp +contextual (maxDischargeDepth := 64) [hs]
@[simp] theorem State.loseDeficits_mem (s : State) (port l : Nat) : (State.loseDeficits s port l).mem = s.mem := by
  unfold State.loseDeficits; simp +contextual (maxDischargeDepth := 64)
@[simp] theorem State.loseDeficits_pending (s : State) (port l : Nat) : (State.loseDeficits s port l).pending = s.pending := by
  unfold State.loseDeficits; simp +contextual (maxDischargeDepth := 64)
@[simp] theorem State.loseDeficits_canonical (s : State) (port l : Nat) (hs : s.canonical = true) : (State.loseDeficits s port l).canonical = true := by
  unfold State.loseDeficits; simp +contextual (maxDischargeDepth := 64) [hs]
@[simp] theorem State.popLeaf_mem (s : State) (port l : Nat) : (State.popLeaf s port l).mem = s.mem := by
  unfold State.popLeaf; simp +contextual (maxDischargeDepth := 64)
@[simp] theorem State.popLeaf_pending (s : State) (port l : Nat) : (State.popLeaf s port l).pending = s.pending := by
  unfold State.popLeaf; simp +contextual (maxDischargeDepth := 64)
@[simp] theorem State.popLeaf_canonical (s : State) (port l : Nat) (hs : s.canonical = true) : (State.popLeaf s port l).canonical = true := by
  unfold State.popLeaf; simp +contextual (maxDischargeDepth := 64) [hs]
@[simp] theorem State.setTx_mem (s : State) (port : Nat) (t : Option TxFrame) : (State.setTx s port t).mem = s.mem := by
  unfold State.setTx; simp +contextual (maxDischargeDepth := 64)
@[simp] theorem State.setTx_pending (s : State) (port : Nat) (t : Option TxFrame) : (State.setTx s port t).pending = s.pending := by
  unfold State.setTx; simp +contextual (maxDischargeDepth := 64)
@[simp] theorem State.setTx_canonical (s : State) (port : Nat) (t : Option TxFrame) (hs : s.canonical = true) : (State.setTx s port t).canonical = true := by
  unfold State.setTx; simp +contextual (maxDischargeDepth := 64) [hs]
@[simp] theorem State.endTx_mem (s : State) (port : Nat) : (State.endTx s port).mem = s.mem := by
  unfold State.endTx; (try simp only []); (repeat' split) <;> simp +contextual (maxDischargeDepth := 64)
@[simp] theorem State.endTx_pending (s : State) (port : Nat) : (State.endTx s port).pending = s.pending := by
  unfold State.endTx; (try simp only []); (repeat' split) <;> simp +contextual (maxDischargeDepth := 64)
@[simp] theorem State.endTx_canonical (s : State) (port : Nat) (hs : s.canonical = true) : (State.endTx s port).canonical = true := by
  unfold State.endTx; (try simp only []); (repeat' split) <;> simp +contextual (maxDischargeDepth := 64) [hs]
@[simp] theorem State.nodeApply_mem (s : State) (k : Nat) : (State.nodeApply s k).mem = s.mem := by
  unfold State.nodeApply; (try simp only []); (repeat' split) <;> simp +contextual (maxDischargeDepth := 64)
@[simp] theorem State.nodeApply_pending (s : State) (k : Nat) : (State.nodeApply s k).pending = s.pending := by
  unfold State.nodeApply; (try simp only []); (repeat' split) <;> simp +contextual (maxDischargeDepth := 64)
@[simp] theorem State.nodeApply_canonical (s : State) (k : Nat) (hs : s.canonical = true) : (State.nodeApply s k).canonical = true := by
  unfold State.nodeApply; (try simp only []); (repeat' split) <;> simp +contextual (maxDischargeDepth := 64) [hs]
@[simp] theorem State.refillAll_mem (s : State) (k : Nat) : (State.refillAll s k).mem = s.mem := by
  unfold State.refillAll; (try simp only []); (repeat' split) <;> simp +contextual (maxDischargeDepth := 64)
@[simp] theorem State.refillAll_pending (s : State) (k : Nat) : (State.refillAll s k).pending = s.pending := by
  unfold State.refillAll; (try simp only []); (repeat' split) <;> simp +contextual (maxDischargeDepth := 64)
@[simp] theorem State.refillAll_canonical (s : State) (k : Nat) (hs : s.canonical = true) : (State.refillAll s k).canonical = true := by
  unfold State.refillAll; (try simp only []); (repeat' split) <;> simp +contextual (maxDischargeDepth := 64) [hs]
@[simp] theorem State.nodeRefill_mem (s : State) (k : Nat) : (State.nodeRefill s k).mem = s.mem := by
  unfold State.nodeRefill; (try simp only []); (repeat' split) <;> simp +contextual (maxDischargeDepth := 64)
@[simp] theorem State.nodeRefill_pending (s : State) (k : Nat) : (State.nodeRefill s k).pending = s.pending := by
  unfold State.nodeRefill; (try simp only []); (repeat' split) <;> simp +contextual (maxDischargeDepth := 64)
@[simp] theorem State.nodeRefill_canonical (s : State) (k : Nat) (hs : s.canonical = true) : (State.nodeRefill s k).canonical = true := by
  unfold State.nodeRefill; (try simp only []); (repeat' split) <;> simp +contextual (maxDischargeDepth := 64) [hs]
@[simp] theorem State.refillNodes_mem (s : State) (f : Nat → Bool) : (State.refillNodes s f).mem = s.mem := by
  unfold State.refillNodes; refine foldl_mem _ _ _ (fun _ _ => ?_); simp
@[simp] theorem State.refillNodes_pending (s : State) (f : Nat → Bool) : (State.refillNodes s f).pending = s.pending := by
  unfold State.refillNodes; refine foldl_pending _ _ _ (fun _ _ => ?_); simp
@[simp] theorem State.refillNodes_canonical (s : State) (f : Nat → Bool) (hs : s.canonical = true) : (State.refillNodes s f).canonical = true := by
  unfold State.refillNodes; refine foldl_canonical _ _ _ (fun _ _ h => ?_) hs; simp [h]
@[simp] theorem State.refillPort_mem (s : State) (port : Nat) : (State.refillPort s port).mem = s.mem := by
  unfold State.refillPort; simp
@[simp] theorem State.refillPort_pending (s : State) (port : Nat) : (State.refillPort s port).pending = s.pending := by
  unfold State.refillPort; simp
@[simp] theorem State.refillPort_canonical (s : State) (port : Nat) (hs : s.canonical = true) : (State.refillPort s port).canonical = true := by
  unfold State.refillPort; simp [hs]
@[simp] theorem State.nodeDue_mem (s : State) : (State.nodeDue s).mem = s.mem := by
  unfold State.nodeDue; (try simp only []); (repeat' split) <;> simp +contextual (maxDischargeDepth := 64)
@[simp] theorem State.nodeDue_pending (s : State) : (State.nodeDue s).pending = s.pending := by
  unfold State.nodeDue; (try simp only []); (repeat' split) <;> simp +contextual (maxDischargeDepth := 64)
@[simp] theorem State.nodeDue_canonical (s : State) (hs : s.canonical = true) : (State.nodeDue s).canonical = true := by
  unfold State.nodeDue; (try simp only []); (repeat' split) <;> simp +contextual (maxDischargeDepth := 64) [hs]
@[simp] theorem State.cbsStep_mem (s : State) (k : Nat) : (State.cbsStep s k).mem = s.mem := by
  unfold State.cbsStep; (try simp only []); (repeat' split) <;> simp +contextual (maxDischargeDepth := 64)
@[simp] theorem State.cbsStep_pending (s : State) (k : Nat) : (State.cbsStep s k).pending = s.pending := by
  unfold State.cbsStep; (try simp only []); (repeat' split) <;> simp +contextual (maxDischargeDepth := 64)
@[simp] theorem State.cbsStep_canonical (s : State) (k : Nat) (hs : s.canonical = true) : (State.cbsStep s k).canonical = true := by
  unfold State.cbsStep; (try simp only []); (repeat' split) <;> simp +contextual (maxDischargeDepth := 64) [hs]
@[simp] theorem State.cbsSync_mem (s : State) (port : Nat) : (State.cbsSync s port).mem = s.mem := by
  unfold State.cbsSync; (try simp only []); (repeat' split) <;> simp +contextual (maxDischargeDepth := 64)
@[simp] theorem State.cbsSync_pending (s : State) (port : Nat) : (State.cbsSync s port).pending = s.pending := by
  unfold State.cbsSync; (try simp only []); (repeat' split) <;> simp +contextual (maxDischargeDepth := 64)
@[simp] theorem State.cbsSync_canonical (s : State) (port : Nat) (hs : s.canonical = true) : (State.cbsSync s port).canonical = true := by
  unfold State.cbsSync; (try simp only []); (repeat' split) <;> simp +contextual (maxDischargeDepth := 64) [hs]
@[simp] theorem State.cbsEnd_mem (s : State) (port c : Nat) (x : Int) : (State.cbsEnd s port c x).mem = s.mem := by
  unfold State.cbsEnd; (try simp only []); (repeat' split) <;> simp +contextual (maxDischargeDepth := 64)
@[simp] theorem State.cbsEnd_pending (s : State) (port c : Nat) (x : Int) : (State.cbsEnd s port c x).pending = s.pending := by
  unfold State.cbsEnd; (try simp only []); (repeat' split) <;> simp +contextual (maxDischargeDepth := 64)
@[simp] theorem State.cbsEnd_canonical (s : State) (port c : Nat) (x : Int) (hs : s.canonical = true) : (State.cbsEnd s port c x).canonical = true := by
  unfold State.cbsEnd; (try simp only []); (repeat' split) <;> simp +contextual (maxDischargeDepth := 64) [hs]
@[simp] theorem State.cbsSent_mem (s : State) (port c : Nat) (t : TxFrame) : (State.cbsSent s port c t).mem = s.mem := by
  unfold State.cbsSent; simp +contextual (maxDischargeDepth := 64)
@[simp] theorem State.cbsSent_pending (s : State) (port c : Nat) (t : TxFrame) : (State.cbsSent s port c t).pending = s.pending := by
  unfold State.cbsSent; simp +contextual (maxDischargeDepth := 64)
@[simp] theorem State.cbsSent_canonical (s : State) (port c : Nat) (t : TxFrame) (hs : s.canonical = true) : (State.cbsSent s port c t).canonical = true := by
  unfold State.cbsSent; simp +contextual (maxDischargeDepth := 64) [hs]
@[simp] theorem State.cbsCut_mem (s : State) (port c : Nat) : (State.cbsCut s port c).mem = s.mem := by
  unfold State.cbsCut; (try simp only []); (repeat' split) <;> simp +contextual (maxDischargeDepth := 64)
@[simp] theorem State.cbsCut_pending (s : State) (port c : Nat) : (State.cbsCut s port c).pending = s.pending := by
  unfold State.cbsCut; (try simp only []); (repeat' split) <;> simp +contextual (maxDischargeDepth := 64)
@[simp] theorem State.cbsCut_canonical (s : State) (port c : Nat) (hs : s.canonical = true) : (State.cbsCut s port c).canonical = true := by
  unfold State.cbsCut; (try simp only []); (repeat' split) <;> simp +contextual (maxDischargeDepth := 64) [hs]
@[simp] theorem State.gatesNow_mem (s : State) (port : Nat) : (State.gatesNow s port).mem = s.mem := by
  unfold State.gatesNow; (try simp only []); (repeat' split) <;> simp +contextual (maxDischargeDepth := 64)
@[simp] theorem State.gatesNow_pending (s : State) (port : Nat) : (State.gatesNow s port).pending = s.pending := by
  unfold State.gatesNow; (try simp only []); (repeat' split) <;> simp +contextual (maxDischargeDepth := 64)
@[simp] theorem State.gatesNow_canonical (s : State) (port : Nat) (hs : s.canonical = true) : (State.gatesNow s port).canonical = true := by
  unfold State.gatesNow; (try simp only []); (repeat' split) <;> simp +contextual (maxDischargeDepth := 64) [hs]
@[simp] theorem State.rxDiscard_mem (s : State) (port : Nat) : (State.rxDiscard s port).mem = s.mem := by
  unfold State.rxDiscard; (try simp only []); (repeat' split) <;> simp +contextual (maxDischargeDepth := 64)
@[simp] theorem State.rxDiscard_pending (s : State) (port : Nat) : (State.rxDiscard s port).pending = s.pending := by
  unfold State.rxDiscard; (try simp only []); (repeat' split) <;> simp +contextual (maxDischargeDepth := 64)
@[simp] theorem State.rxDiscard_canonical (s : State) (port : Nat) (hs : s.canonical = true) : (State.rxDiscard s port).canonical = true := by
  unfold State.rxDiscard; (try simp only []); (repeat' split) <;> simp +contextual (maxDischargeDepth := 64) [hs]
@[simp] theorem State.dropHead_mem (s : State) (port l : Nat) : (State.dropHead s port l).mem = s.mem := by
  unfold State.dropHead; (try simp only []); (repeat' split) <;> simp +contextual (maxDischargeDepth := 64)
@[simp] theorem State.dropHead_pending (s : State) (port l : Nat) : (State.dropHead s port l).pending = s.pending := by
  unfold State.dropHead; (try simp only []); (repeat' split) <;> simp +contextual (maxDischargeDepth := 64)
@[simp] theorem State.dropHead_canonical (s : State) (port l : Nat) (hs : s.canonical = true) : (State.dropHead s port l).canonical = true := by
  unfold State.dropHead; (try simp only []); (repeat' split) <;> simp +contextual (maxDischargeDepth := 64) [hs]
@[simp] theorem State.flushPort_mem (s : State) (p : Nat) (count : State → State) (hc : ∀ (a0 : State), (count a0).mem = a0.mem) : (State.flushPort s p count).mem = s.mem := by
  unfold State.flushPort; refine foldl_mem _ _ _ (fun s l => ?_); simp only []; split <;> simp [hc]
@[simp] theorem State.flushPort_pending (s : State) (p : Nat) (count : State → State) (hc : ∀ (a0 : State), (count a0).pending = a0.pending) : (State.flushPort s p count).pending = s.pending := by
  unfold State.flushPort; refine foldl_pending _ _ _ (fun s l => ?_); simp only []; split <;> simp [hc]
@[simp] theorem State.flushPort_canonical (s : State) (p : Nat) (count : State → State) (hc : ∀ (a0 : State), a0.canonical = true → (count a0).canonical = true) (hs : s.canonical = true) : (State.flushPort s p count).canonical = true := by
  unfold State.flushPort; refine foldl_canonical _ _ _ (fun s l h => ?_) hs
  have h1 := foldl_canonical (fun s (_ : Nat) => count s) (List.range (s.leafQ l).length) (s.setLeafQ l [])
    (fun s _ h => hc s h) (by simp [h])
  show State.canonical (if _ then _ else _) = true
  split <;> simp [h1]
@[simp] theorem State.schFill_mem (s : State) (port : Nat) (data : Option (List Byte)) : (State.schFill s port data).mem = s.mem := by
  unfold State.schFill; simp +contextual (maxDischargeDepth := 64)
@[simp] theorem State.schFill_pending (s : State) (port : Nat) (data : Option (List Byte)) : (State.schFill s port data).pending = s.pending := by
  unfold State.schFill; simp +contextual (maxDischargeDepth := 64)
@[simp] theorem State.schFill_canonical (s : State) (port : Nat) (data : Option (List Byte)) (hs : s.canonical = true) : (State.schFill s port data).canonical = true := by
  unfold State.schFill; simp +contextual (maxDischargeDepth := 64) [hs]
@[simp] theorem State.schComplete_mem (s : State) (port : Nat) (data : List Byte) (poison : Bool) : (State.schComplete s port data poison).mem = s.mem := by
  unfold State.schComplete; (try simp only []); (repeat' split) <;> simp +contextual (maxDischargeDepth := 64)
@[simp] theorem State.schComplete_pending (s : State) (port : Nat) (data : List Byte) (poison : Bool) : (State.schComplete s port data poison).pending = s.pending := by
  unfold State.schComplete; (try simp only []); (repeat' split) <;> simp +contextual (maxDischargeDepth := 64)
@[simp] theorem State.schComplete_canonical (s : State) (port : Nat) (data : List Byte) (poison : Bool) (hs : s.canonical = true) : (State.schComplete s port data poison).canonical = true := by
  unfold State.schComplete; (try simp only []); (repeat' split) <;> simp +contextual (maxDischargeDepth := 64) [hs]
@[simp] theorem State.schAborted_mem (s : State) (port : Nat) (data : List Byte) : (State.schAborted s port data).mem = s.mem := by
  unfold State.schAborted; (try simp only []); (repeat' split) <;> simp +contextual (maxDischargeDepth := 64)
@[simp] theorem State.schAborted_pending (s : State) (port : Nat) (data : List Byte) : (State.schAborted s port data).pending = s.pending := by
  unfold State.schAborted; (try simp only []); (repeat' split) <;> simp +contextual (maxDischargeDepth := 64)
@[simp] theorem State.schAborted_canonical (s : State) (port : Nat) (data : List Byte) (hs : s.canonical = true) : (State.schAborted s port data).canonical = true := by
  unfold State.schAborted; (try simp only []); (repeat' split) <;> simp +contextual (maxDischargeDepth := 64) [hs]

end Sys2Proof.Machine
end

