-- ==== Sys2Proof/Laws/KeepPromenade.lean ====
section
/-! SUPPORT. Machine/Promenade.lean: what each of its operations keeps (memory where it stores nothing, the queue, the
canonical form of the stores). -/

namespace Sys2Proof.Machine

set_option linter.all false
set_option Elab.async false

@[simp] theorem State.lengthMismatch_mem (s : State) (ep : Nat) (w : List Word) : (State.lengthMismatch s ep w).mem = s.mem := by
  unfold State.lengthMismatch; simp +contextual (maxDischargeDepth := 64)
@[simp] theorem State.lengthMismatch_pending (s : State) (ep : Nat) (w : List Word) : (State.lengthMismatch s ep w).pending = s.pending := by
  unfold State.lengthMismatch; simp +contextual (maxDischargeDepth := 64)
@[simp] theorem State.lengthMismatch_canonical (s : State) (ep : Nat) (w : List Word) (hs : s.canonical = true) : (State.lengthMismatch s ep w).canonical = true := by
  unfold State.lengthMismatch; simp +contextual (maxDischargeDepth := 64) [hs]
@[simp] theorem State.returnTxCredit_mem (s : State) (ep vc : Nat) : (State.returnTxCredit s ep vc).mem = s.mem := by
  unfold State.returnTxCredit; simp +contextual (maxDischargeDepth := 64)
@[simp] theorem State.returnTxCredit_pending (s : State) (ep vc : Nat) : (State.returnTxCredit s ep vc).pending = s.pending := by
  unfold State.returnTxCredit; simp +contextual (maxDischargeDepth := 64)
@[simp] theorem State.returnTxCredit_canonical (s : State) (ep vc : Nat) (hs : s.canonical = true) : (State.returnTxCredit s ep vc).canonical = true := by
  unfold State.returnTxCredit; simp +contextual (maxDischargeDepth := 64) [hs]
@[simp] theorem State.repay_mem (s : State) (ep : Nat) (paid : Option Nat) : (State.repay s ep paid).mem = s.mem := by
  unfold State.repay; (try simp only []); (repeat' split) <;> simp +contextual (maxDischargeDepth := 64)
@[simp] theorem State.repay_pending (s : State) (ep : Nat) (paid : Option Nat) : (State.repay s ep paid).pending = s.pending := by
  unfold State.repay; (try simp only []); (repeat' split) <;> simp +contextual (maxDischargeDepth := 64)
@[simp] theorem State.repay_canonical (s : State) (ep : Nat) (paid : Option Nat) (hs : s.canonical = true) : (State.repay s ep paid).canonical = true := by
  unfold State.repay; (try simp only []); (repeat' split) <;> simp +contextual (maxDischargeDepth := 64) [hs]
@[simp] theorem State.refuseInjection_mem (s : State) (ep : Nat) (w : List Word) (cond bit : Nat) (tail : Bool) (paid : Option Nat) : (State.refuseInjection s ep w cond bit tail paid).mem = s.mem := by
  unfold State.refuseInjection; simp +contextual (maxDischargeDepth := 64)
@[simp] theorem State.refuseInjection_pending (s : State) (ep : Nat) (w : List Word) (cond bit : Nat) (tail : Bool) (paid : Option Nat) : (State.refuseInjection s ep w cond bit tail paid).pending = s.pending := by
  unfold State.refuseInjection; simp +contextual (maxDischargeDepth := 64)
@[simp] theorem State.refuseInjection_canonical (s : State) (ep : Nat) (w : List Word) (cond bit : Nat) (tail : Bool) (paid : Option Nat) (hs : s.canonical = true) : (State.refuseInjection s ep w cond bit tail paid).canonical = true := by
  unfold State.refuseInjection; simp +contextual (maxDischargeDepth := 64) [hs]
@[simp] theorem State.takeFlit_mem (s : State) (ep : Nat) (head tail poison : Bool) (vbytes : Nat) (data rest : List Byte) (paid : Option Nat) : (State.takeFlit s ep head tail poison vbytes data rest paid).mem = s.mem := by
  unfold State.takeFlit; simp +contextual (maxDischargeDepth := 64)
@[simp] theorem State.takeFlit_pending (s : State) (ep : Nat) (head tail poison : Bool) (vbytes : Nat) (data rest : List Byte) (paid : Option Nat) : (State.takeFlit s ep head tail poison vbytes data rest paid).pending = s.pending := by
  unfold State.takeFlit; simp +contextual (maxDischargeDepth := 64)
@[simp] theorem State.takeFlit_canonical (s : State) (ep : Nat) (head tail poison : Bool) (vbytes : Nat) (data rest : List Byte) (paid : Option Nat) (hs : s.canonical = true) : (State.takeFlit s ep head tail poison vbytes data rest paid).canonical = true := by
  unfold State.takeFlit; simp +contextual (maxDischargeDepth := 64) [hs]
@[simp] theorem State.takeHead_mem (s : State) (ep : Nat) (w0 : List Word) (tail poison : Bool) (vbytes : Nat) (data rest : List Byte) (paid : Option Nat) : (State.takeHead s ep w0 tail poison vbytes data rest paid).mem = s.mem := by
  unfold State.takeHead; (try simp only []); (repeat' split) <;> simp +contextual (maxDischargeDepth := 64)
@[simp] theorem State.takeHead_pending (s : State) (ep : Nat) (w0 : List Word) (tail poison : Bool) (vbytes : Nat) (data rest : List Byte) (paid : Option Nat) : (State.takeHead s ep w0 tail poison vbytes data rest paid).pending = s.pending := by
  unfold State.takeHead; (try simp only []); (repeat' split) <;> simp +contextual (maxDischargeDepth := 64)
@[simp] theorem State.takeHead_canonical (s : State) (ep : Nat) (w0 : List Word) (tail poison : Bool) (vbytes : Nat) (data rest : List Byte) (paid : Option Nat) (hs : s.canonical = true) : (State.takeHead s ep w0 tail poison vbytes data rest paid).canonical = true := by
  unfold State.takeHead; (try simp only []); (repeat' split) <;> simp +contextual (maxDischargeDepth := 64) [hs]
@[simp] theorem State.noCredit_mem (s : State) (ep : Nat) : (State.noCredit s ep).mem = s.mem := by
  unfold State.noCredit; simp +contextual (maxDischargeDepth := 64)
@[simp] theorem State.noCredit_pending (s : State) (ep : Nat) : (State.noCredit s ep).pending = s.pending := by
  unfold State.noCredit; simp +contextual (maxDischargeDepth := 64)
@[simp] theorem State.noCredit_canonical (s : State) (ep : Nat) (hs : s.canonical = true) : (State.noCredit s ep).canonical = true := by
  unfold State.noCredit; simp +contextual (maxDischargeDepth := 64) [hs]
@[simp] theorem State.lateHead_mem (s : State) (ep td : Nat) (f : OfferedFlit) : (State.lateHead s ep td f).mem = s.mem := by
  unfold State.lateHead; (try simp only []); (repeat' split) <;> simp +contextual (maxDischargeDepth := 64)
@[simp] theorem State.lateHead_pending (s : State) (ep td : Nat) (f : OfferedFlit) : (State.lateHead s ep td f).pending = s.pending := by
  unfold State.lateHead; (try simp only []); (repeat' split) <;> simp +contextual (maxDischargeDepth := 64)
@[simp] theorem State.lateHead_canonical (s : State) (ep td : Nat) (f : OfferedFlit) (hs : s.canonical = true) : (State.lateHead s ep td f).canonical = true := by
  unfold State.lateHead; (try simp only []); (repeat' split) <;> simp +contextual (maxDischargeDepth := 64) [hs]
@[simp] theorem State.lateOffer_mem (s : State) (ep : Nat) (f : OfferedFlit) : (State.lateOffer s ep f).mem = s.mem := by
  unfold State.lateOffer; (try simp only []); (repeat' split) <;> simp +contextual (maxDischargeDepth := 64)
@[simp] theorem State.lateOffer_pending (s : State) (ep : Nat) (f : OfferedFlit) : (State.lateOffer s ep f).pending = s.pending := by
  unfold State.lateOffer; (try simp only []); (repeat' split) <;> simp +contextual (maxDischargeDepth := 64)
@[simp] theorem State.lateOffer_canonical (s : State) (ep : Nat) (f : OfferedFlit) (hs : s.canonical = true) : (State.lateOffer s ep f).canonical = true := by
  unfold State.lateOffer; (try simp only []); (repeat' split) <;> simp +contextual (maxDischargeDepth := 64) [hs]
@[simp] theorem State.injectionEnds_mem (s : State) (ep : Nat) : (State.injectionEnds s ep).mem = s.mem := by
  unfold State.injectionEnds; (try simp only []); (repeat' split) <;> simp +contextual (maxDischargeDepth := 64)
@[simp] theorem State.injectionEnds_pending (s : State) (ep : Nat) : (State.injectionEnds s ep).pending = s.pending := by
  unfold State.injectionEnds; (try simp only []); (repeat' split) <;> simp +contextual (maxDischargeDepth := 64)
@[simp] theorem State.injectionEnds_canonical (s : State) (ep : Nat) (hs : s.canonical = true) : (State.injectionEnds s ep).canonical = true := by
  unfold State.injectionEnds; (try simp only []); (repeat' split) <;> simp +contextual (maxDischargeDepth := 64) [hs]
@[simp] theorem State.injectNext_mem (s : State) (ep : Nat) : (State.injectNext s ep).mem = s.mem := by
  unfold State.injectNext; (try simp only []); (repeat' split) <;> simp +contextual (maxDischargeDepth := 64)
@[simp] theorem State.injectNext_pending (s : State) (ep : Nat) : (State.injectNext s ep).pending = s.pending := by
  unfold State.injectNext; (try simp only []); (repeat' split) <;> simp +contextual (maxDischargeDepth := 64)
@[simp] theorem State.injectNext_canonical (s : State) (ep : Nat) (hs : s.canonical = true) : (State.injectNext s ep).canonical = true := by
  unfold State.injectNext; (try simp only []); (repeat' split) <;> simp +contextual (maxDischargeDepth := 64) [hs]
@[simp] theorem execPacketInject_quiet (ep : Nat) (offer : Option OfferedFlit) (s : State) : Res.quiet s (execPacketInject ep offer s) := by
  unfold execPacketInject; (try simp only []); (repeat' split) <;> simp +contextual (maxDischargeDepth := 64)
@[simp] theorem execFlitInject_quiet (ep : Nat) (offer : Option OfferedFlit) (s : State) : Res.quiet s (execFlitInject ep offer s) := by
  unfold execFlitInject; (try simp only []); (repeat' split) <;> simp +contextual (maxDischargeDepth := 64)
@[simp] theorem State.freePlace_mem (s : State) (key : Nat) (paid : Option Nat) : (State.freePlace s key paid).mem = s.mem := by
  unfold State.freePlace; simp +contextual (maxDischargeDepth := 64)
@[simp] theorem State.freePlace_pending (s : State) (key : Nat) (paid : Option Nat) : (State.freePlace s key paid).pending = s.pending := by
  unfold State.freePlace; simp +contextual (maxDischargeDepth := 64)
@[simp] theorem State.freePlace_canonical (s : State) (key : Nat) (paid : Option Nat) (hs : s.canonical = true) : (State.freePlace s key paid).canonical = true := by
  unfold State.freePlace; simp +contextual (maxDischargeDepth := 64) [hs]
@[simp] theorem State.popFlit_mem (s : State) (key : Nat) (rest : List Flit) (f : Flit) : (State.popFlit s key rest f).mem = s.mem := by
  unfold State.popFlit; (try simp only []); (repeat' split) <;> simp +contextual (maxDischargeDepth := 64)
@[simp] theorem State.popFlit_pending (s : State) (key : Nat) (rest : List Flit) (f : Flit) : (State.popFlit s key rest f).pending = s.pending := by
  unfold State.popFlit; (try simp only []); (repeat' split) <;> simp +contextual (maxDischargeDepth := 64)
@[simp] theorem State.popFlit_canonical (s : State) (key : Nat) (rest : List Flit) (f : Flit) (hs : s.canonical = true) : (State.popFlit s key rest f).canonical = true := by
  unfold State.popFlit; (try simp only []); (repeat' split) <;> simp +contextual (maxDischargeDepth := 64) [hs]
@[simp] theorem State.endFlit_mem (s : State) (f : Flit) : (State.endFlit s f).mem = s.mem := by
  unfold State.endFlit; (try simp only []); (repeat' split) <;> simp +contextual (maxDischargeDepth := 64)
@[simp] theorem State.endFlit_pending (s : State) (f : Flit) : (State.endFlit s f).pending = s.pending := by
  unfold State.endFlit; (try simp only []); (repeat' split) <;> simp +contextual (maxDischargeDepth := 64)
@[simp] theorem State.endFlit_canonical (s : State) (f : Flit) (hs : s.canonical = true) : (State.endFlit s f).canonical = true := by
  unfold State.endFlit; (try simp only []); (repeat' split) <;> simp +contextual (maxDischargeDepth := 64) [hs]
@[simp] theorem State.loseHead_mem (s : State) (st : Nat) (f : Flit) : (State.loseHead s st f).mem = s.mem := by
  unfold State.loseHead; (try simp only []); (repeat' split) <;> simp +contextual (maxDischargeDepth := 64)
@[simp] theorem State.loseHead_pending (s : State) (st : Nat) (f : Flit) : (State.loseHead s st f).pending = s.pending := by
  unfold State.loseHead; (try simp only []); (repeat' split) <;> simp +contextual (maxDischargeDepth := 64)
@[simp] theorem State.loseHead_canonical (s : State) (st : Nat) (f : Flit) (hs : s.canonical = true) : (State.loseHead s st f).canonical = true := by
  unfold State.loseHead; (try simp only []); (repeat' split) <;> simp +contextual (maxDischargeDepth := 64) [hs]
@[simp] theorem State.finishRx_mem (s : State) (ep vc : Nat) (r : RxPacket) (abort : Bool) : (State.finishRx s ep vc r abort).mem = s.mem := by
  unfold State.finishRx; simp +contextual (maxDischargeDepth := 64)
@[simp] theorem State.finishRx_pending (s : State) (ep vc : Nat) (r : RxPacket) (abort : Bool) : (State.finishRx s ep vc r abort).pending = s.pending := by
  unfold State.finishRx; simp +contextual (maxDischargeDepth := 64)
@[simp] theorem State.finishRx_canonical (s : State) (ep vc : Nat) (r : RxPacket) (abort : Bool) (hs : s.canonical = true) : (State.finishRx s ep vc r abort).canonical = true := by
  unfold State.finishRx; simp +contextual (maxDischargeDepth := 64) [hs]
@[simp] theorem State.eject_mem (s : State) (ep vc : Nat) (r : RxPacket) (f : Flit) : (State.eject s ep vc r f).mem = s.mem := by
  unfold State.eject; simp +contextual (maxDischargeDepth := 64)
@[simp] theorem State.eject_pending (s : State) (ep vc : Nat) (r : RxPacket) (f : Flit) : (State.eject s ep vc r f).pending = s.pending := by
  unfold State.eject; simp +contextual (maxDischargeDepth := 64)
@[simp] theorem State.eject_canonical (s : State) (ep vc : Nat) (r : RxPacket) (f : Flit) (hs : s.canonical = true) : (State.eject s ep vc r f).canonical = true := by
  unfold State.eject; simp +contextual (maxDischargeDepth := 64) [hs]
@[simp] theorem State.dropTrace_mem (s : State) (f : Flit) : (State.dropTrace s f).mem = s.mem := by
  unfold State.dropTrace; (try simp only []); (repeat' split) <;> simp +contextual (maxDischargeDepth := 64)
@[simp] theorem State.dropTrace_pending (s : State) (f : Flit) : (State.dropTrace s f).pending = s.pending := by
  unfold State.dropTrace; (try simp only []); (repeat' split) <;> simp +contextual (maxDischargeDepth := 64)
@[simp] theorem State.dropTrace_canonical (s : State) (f : Flit) (hs : s.canonical = true) : (State.dropTrace s f).canonical = true := by
  unfold State.dropTrace; (try simp only []); (repeat' split) <;> simp +contextual (maxDischargeDepth := 64) [hs]
@[simp] theorem execFlitHop_quiet (key : Nat) (ecc : FlitEcc) (s : State) : Res.quiet s (execFlitHop key ecc s) := by
  unfold execFlitHop; (try simp only []); (repeat' split) <;> simp +contextual (maxDischargeDepth := 64)
@[simp] theorem State.trace_mem (s : State) (ep : Nat) (w : List Word) : (State.trace s ep w).mem = s.mem := by
  unfold State.trace; (try simp only []); (repeat' split) <;> simp +contextual (maxDischargeDepth := 64)
@[simp] theorem State.trace_pending (s : State) (ep : Nat) (w : List Word) : (State.trace s ep w).pending = s.pending := by
  unfold State.trace; (try simp only []); (repeat' split) <;> simp +contextual (maxDischargeDepth := 64)
@[simp] theorem State.trace_canonical (s : State) (ep : Nat) (w : List Word) (hs : s.canonical = true) : (State.trace s ep w).canonical = true := by
  unfold State.trace; (try simp only []); (repeat' split) <;> simp +contextual (maxDischargeDepth := 64) [hs]
@[simp] theorem State.startWake_mem (s : State) (t : Nat) : (State.startWake s t).mem = s.mem := by
  unfold State.startWake; simp +contextual (maxDischargeDepth := 64)
@[simp] theorem State.startWake_pending (s : State) (t : Nat) : (State.startWake s t).pending = s.pending := by
  unfold State.startWake; simp +contextual (maxDischargeDepth := 64)
@[simp] theorem State.startWake_canonical (s : State) (t : Nat) (hs : s.canonical = true) : (State.startWake s t).canonical = true := by
  unfold State.startWake; simp +contextual (maxDischargeDepth := 64) [hs]
@[simp] theorem execHeaderDelivery_quiet (head : HeaderRead) (s : State) : Res.quiet s (execHeaderDelivery head s) := by
  unfold execHeaderDelivery; (try simp only []); (repeat' split) <;> simp +contextual (maxDischargeDepth := 64)
@[simp] theorem State.stallAbort_mem (s : State) (ep : Nat) : (State.stallAbort s ep).mem = s.mem := by
  unfold State.stallAbort; simp +contextual (maxDischargeDepth := 64)
@[simp] theorem State.stallAbort_pending (s : State) (ep : Nat) : (State.stallAbort s ep).pending = s.pending := by
  unfold State.stallAbort; simp +contextual (maxDischargeDepth := 64)
@[simp] theorem State.stallAbort_canonical (s : State) (ep : Nat) (hs : s.canonical = true) : (State.stallAbort s ep).canonical = true := by
  unfold State.stallAbort; simp +contextual (maxDischargeDepth := 64) [hs]
@[simp] theorem execStallTimeout_quiet (ep : Nat) (s : State) : Res.quiet s (execStallTimeout ep s) := by
  unfold execStallTimeout; simp +contextual (maxDischargeDepth := 64)
@[simp] theorem State.abortHeld_mem (s : State) (ep k : Nat) : (State.abortHeld s ep k).mem = s.mem := by
  unfold State.abortHeld; (try simp only []); (repeat' split) <;> simp +contextual (maxDischargeDepth := 64)
@[simp] theorem State.abortHeld_pending (s : State) (ep k : Nat) : (State.abortHeld s ep k).pending = s.pending := by
  unfold State.abortHeld; (try simp only []); (repeat' split) <;> simp +contextual (maxDischargeDepth := 64)
@[simp] theorem State.abortHeld_canonical (s : State) (ep k : Nat) (hs : s.canonical = true) : (State.abortHeld s ep k).canonical = true := by
  unfold State.abortHeld; (try simp only []); (repeat' split) <;> simp +contextual (maxDischargeDepth := 64) [hs]
@[simp] theorem State.watchdog_mem (s : State) (ep : Nat) : (State.watchdog s ep).mem = s.mem := by
  unfold State.watchdog; simp +contextual (maxDischargeDepth := 64)
@[simp] theorem State.watchdog_pending (s : State) (ep : Nat) : (State.watchdog s ep).pending = s.pending := by
  unfold State.watchdog; simp +contextual (maxDischargeDepth := 64)
@[simp] theorem State.watchdog_canonical (s : State) (ep : Nat) (hs : s.canonical = true) : (State.watchdog s ep).canonical = true := by
  unfold State.watchdog; simp +contextual (maxDischargeDepth := 64) [hs]
@[simp] theorem execEjectionWatchdog_quiet (ep : Nat) (s : State) : Res.quiet s (execEjectionWatchdog ep s) := by
  unfold execEjectionWatchdog; simp +contextual (maxDischargeDepth := 64)
@[simp] theorem State.stallLimitWrite_mem (s : State) (limit : Nat) (overIn overEject : List Nat) : (State.stallLimitWrite s limit overIn overEject).mem = s.mem := by
  unfold State.stallLimitWrite; simp +contextual (maxDischargeDepth := 64)
@[simp] theorem State.stallLimitWrite_pending (s : State) (limit : Nat) (overIn overEject : List Nat) : (State.stallLimitWrite s limit overIn overEject).pending = s.pending := by
  unfold State.stallLimitWrite; simp +contextual (maxDischargeDepth := 64)
@[simp] theorem State.stallLimitWrite_canonical (s : State) (limit : Nat) (overIn overEject : List Nat) (hs : s.canonical = true) : (State.stallLimitWrite s limit overIn overEject).canonical = true := by
  unfold State.stallLimitWrite; simp +contextual (maxDischargeDepth := 64) [hs]
@[simp] theorem execPrmStallLimitWrite_quiet (limit : Nat) (overIn overEject : List Nat) (s : State) : Res.quiet s (execPrmStallLimitWrite limit overIn overEject s) := by
  unfold execPrmStallLimitWrite; simp +contextual (maxDischargeDepth := 64)

end Sys2Proof.Machine
end

