-- ==== Sys2Proof/Laws/KeepApc.lean ====
section
/-! SUPPORT. Machine/Apc.lean: what each of its operations keeps (memory where it stores nothing, the queue, the
canonical form of the stores). -/

namespace Sys2Proof.Machine

set_option linter.all false
set_option Elab.async false

@[simp] theorem State.setHart_mem (s : State) (h : Nat) (x : Hart) : (State.setHart s h x).mem = s.mem := by
  unfold State.setHart; simp +contextual (maxDischargeDepth := 64)
@[simp] theorem State.setHart_pending (s : State) (h : Nat) (x : Hart) : (State.setHart s h x).pending = s.pending := by
  unfold State.setHart; simp +contextual (maxDischargeDepth := 64)
@[simp] theorem State.setHart_canonical (s : State) (h : Nat) (x : Hart) (hs : s.canonical = true) : (State.setHart s h x).canonical = true := by
  unfold State.setHart; simp +contextual (maxDischargeDepth := 64) [hs]
@[simp] theorem State.imsicMsi_mem (s : State) (hart file eiid : Nat) : (State.imsicMsi s hart file eiid).mem = s.mem := by
  unfold State.imsicMsi; simp +contextual (maxDischargeDepth := 64)
@[simp] theorem State.imsicMsi_pending (s : State) (hart file eiid : Nat) : (State.imsicMsi s hart file eiid).pending = s.pending := by
  unfold State.imsicMsi; simp +contextual (maxDischargeDepth := 64)
@[simp] theorem State.imsicMsi_canonical (s : State) (hart file eiid : Nat) (hs : s.canonical = true) : (State.imsicMsi s hart file eiid).canonical = true := by
  unfold State.imsicMsi; simp +contextual (maxDischargeDepth := 64) [hs]
@[simp] theorem State.apcFault_mem (s : State) (cond t r : Nat) : (State.apcFault s cond t r).mem = s.mem := by
  unfold State.apcFault; simp +contextual (maxDischargeDepth := 64)
@[simp] theorem State.apcFault_pending (s : State) (cond t r : Nat) : (State.apcFault s cond t r).pending = s.pending := by
  unfold State.apcFault; simp +contextual (maxDischargeDepth := 64)
@[simp] theorem State.apcFault_canonical (s : State) (cond t r : Nat) (hs : s.canonical = true) : (State.apcFault s cond t r).canonical = true := by
  unfold State.apcFault; simp +contextual (maxDischargeDepth := 64) [hs]
@[simp] theorem State.ringCfgWrite_mem (s : State) (t r : Nat) (send : Bool) (v : Word) : (State.ringCfgWrite s t r send v).mem = s.mem := by
  unfold State.ringCfgWrite; simp +contextual (maxDischargeDepth := 64)
@[simp] theorem State.ringCfgWrite_pending (s : State) (t r : Nat) (send : Bool) (v : Word) : (State.ringCfgWrite s t r send v).pending = s.pending := by
  unfold State.ringCfgWrite; simp +contextual (maxDischargeDepth := 64)
@[simp] theorem State.ringCfgWrite_canonical (s : State) (t r : Nat) (send : Bool) (v : Word) (hs : s.canonical = true) : (State.ringCfgWrite s t r send v).canonical = true := by
  unfold State.ringCfgWrite; simp +contextual (maxDischargeDepth := 64) [hs]
@[simp] theorem State.ringBaseWrite_mem (s : State) (t r : Nat) (send : Bool) (v : Word) : (State.ringBaseWrite s t r send v).mem = s.mem := by
  unfold State.ringBaseWrite; simp +contextual (maxDischargeDepth := 64)
@[simp] theorem State.ringBaseWrite_pending (s : State) (t r : Nat) (send : Bool) (v : Word) : (State.ringBaseWrite s t r send v).pending = s.pending := by
  unfold State.ringBaseWrite; simp +contextual (maxDischargeDepth := 64)
@[simp] theorem State.ringBaseWrite_canonical (s : State) (t r : Nat) (send : Bool) (v : Word) (hs : s.canonical = true) : (State.ringBaseWrite s t r send v).canonical = true := by
  unfold State.ringBaseWrite; simp +contextual (maxDischargeDepth := 64) [hs]
@[simp] theorem execRingEnable_quiet (terrace ring : Nat) (send : Bool) (value : Word) (s : State) : Res.quiet s (execRingEnable terrace ring send value s) := by
  unfold execRingEnable; simp +contextual (maxDischargeDepth := 64)
@[simp] theorem State.putSlot_pending (s : State) (a : Nat) (w : List Word) (data : List Byte) (poison : Bool) : (State.putSlot s a w data poison).pending = s.pending := by
  unfold State.putSlot; simp +contextual (maxDischargeDepth := 64)
@[simp] theorem State.putSlot_canonical (s : State) (a : Nat) (w : List Word) (data : List Byte) (poison : Bool) (hs : s.canonical = true) : (State.putSlot s a w data poison).canonical = true := by
  unfold State.putSlot; simp +contextual (maxDischargeDepth := 64) [hs]
@[simp] theorem State.ringDiscard_mem (s : State) (t : Nat) (m : Packet) : (State.ringDiscard s t m).mem = s.mem := by
  unfold State.ringDiscard; simp +contextual (maxDischargeDepth := 64)
@[simp] theorem State.ringDiscard_pending (s : State) (t : Nat) (m : Packet) : (State.ringDiscard s t m).pending = s.pending := by
  unfold State.ringDiscard; simp +contextual (maxDischargeDepth := 64)
@[simp] theorem State.ringDiscard_canonical (s : State) (t : Nat) (m : Packet) (hs : s.canonical = true) : (State.ringDiscard s t m).canonical = true := by
  unfold State.ringDiscard; simp +contextual (maxDischargeDepth := 64) [hs]
@[simp] theorem State.ringInterrupt_mem (s : State) (b : Nat) : (State.ringInterrupt s b).mem = s.mem := by
  unfold State.ringInterrupt; simp +contextual (maxDischargeDepth := 64)
@[simp] theorem State.ringInterrupt_pending (s : State) (b : Nat) : (State.ringInterrupt s b).pending = s.pending := by
  unfold State.ringInterrupt; simp +contextual (maxDischargeDepth := 64)
@[simp] theorem State.ringInterrupt_canonical (s : State) (b : Nat) (hs : s.canonical = true) : (State.ringInterrupt s b).canonical = true := by
  unfold State.ringInterrupt; simp +contextual (maxDischargeDepth := 64) [hs]
@[simp] theorem execTerraceReceive_stays (terrace : Nat) (s : State) : Res.stays s (execTerraceReceive terrace s) := by
  unfold execTerraceReceive; (try simp only []); (repeat' split) <;> simp +contextual (maxDischargeDepth := 64)
@[simp] theorem execTerraceSend_quiet (terrace ring : Nat) (ecc : EccResult) (s : State) : Res.quiet s (execTerraceSend terrace ring ecc s) := by
  unfold execTerraceSend; simp +contextual (maxDischargeDepth := 64)
@[simp] theorem execPatrolScrub_quiet (addr : Nat) (ecc : EccResult) (s : State) : Res.quiet s (execPatrolScrub addr ecc s) := by
  unfold execPatrolScrub; (try simp only []); (repeat' split) <;> simp +contextual (maxDischargeDepth := 64)
@[simp] theorem execZeroMapClear_quiet (granule : Nat) (s : State) : Res.quiet s (execZeroMapClear granule s) := by
  unfold execZeroMapClear; simp +contextual (maxDischargeDepth := 64)
@[simp] theorem State.iommuCqFlag_pending (s : State) (bit : Fld) : (State.iommuCqFlag s bit).pending = s.pending := by
  unfold State.iommuCqFlag; simp +contextual (maxDischargeDepth := 64)
@[simp] theorem State.iommuCqFlag_canonical (s : State) (bit : Fld) (hs : s.canonical = true) : (State.iommuCqFlag s bit).canonical = true := by
  unfold State.iommuCqFlag; simp +contextual (maxDischargeDepth := 64) [hs]
theorem State.iommuInval_kept {s t : State} {w a : Nat} (h : s.iommuInval w a = some t) : Keeps s t := by
  unfold State.iommuInval at h
  dsimp only at h
  repeat' split at h
  all_goals first
    | cases h; done
    | (cases h; exact .of (by simp) (fun h => by simp (maxDischargeDepth := 16) [h]))
theorem State.iommuCommand_kept (s : State) : Keeps s s.iommuCommand.2 := by
  unfold State.iommuCommand
  dsimp only
  split
  · exact .of (by simp) (fun h => by simp (maxDischargeDepth := 16) [h])
  · split
    · exact .of (by simp) (fun h => by simp (maxDischargeDepth := 16) [h])
    · split
      · repeat' split
        all_goals exact .of (by simp) (fun h => by simp (maxDischargeDepth := 16) [h])
      · split
        · next h => exact .trans (.of (by simp) (fun h => by simp (maxDischargeDepth := 16) [h])) (State.iommuInval_kept h)
        · exact .of (by simp) (fun h => by simp (maxDischargeDepth := 16) [h])
theorem State.iommuCommands_kept (n : Nat) (s : State) : Keeps s (State.iommuCommands n s) := by
  induction n generalizing s with
  | zero => exact Keeps.refl s
  | succ n ih =>
    unfold State.iommuCommands
    split
    · exact Keeps.refl s
    · split
      · exact (State.iommuCommand_kept s).trans (ih _)
      · exact State.iommuCommand_kept s
@[simp] theorem State.iommuCommands_pending (x1 : Nat) (x2 : State) : (State.iommuCommands x1 x2).pending = x2.pending :=
  (State.iommuCommands_kept ..).1
@[simp] theorem State.iommuCommands_canonical (x1 : Nat) (x2 : State) (hs : x2.canonical = true) : (State.iommuCommands x1 x2).canonical = true :=
  (State.iommuCommands_kept ..).2 hs
@[simp] theorem execIofenceC_stays (s : State) : Res.stays s (execIofenceC s) := by
  unfold execIofenceC; simp +contextual (maxDischargeDepth := 64)

end Sys2Proof.Machine
end

