-- ==== Sys2Proof/Laws/KeepArbIsa.lean ====
section
/-! SUPPORT. Machine/ArbIsa.lean: what each of its operations keeps (memory where it stores nothing, the queue, the
canonical form of the stores). -/

namespace Sys2Proof.Machine

set_option linter.all false
set_option Elab.async false

@[simp] theorem ArbCtx.upd_mem (k : ArbCtx) (s : State) (f : ArbThread → ArbThread) : (ArbCtx.upd k s f).mem = s.mem := by
  unfold ArbCtx.upd; simp +contextual (maxDischargeDepth := 64)
@[simp] theorem ArbCtx.upd_pending (k : ArbCtx) (s : State) (f : ArbThread → ArbThread) : (ArbCtx.upd k s f).pending = s.pending := by
  unfold ArbCtx.upd; simp +contextual (maxDischargeDepth := 64)
@[simp] theorem ArbCtx.upd_canonical (k : ArbCtx) (s : State) (f : ArbThread → ArbThread) (hs : s.canonical = true) : (ArbCtx.upd k s f).canonical = true := by
  unfold ArbCtx.upd; simp +contextual (maxDischargeDepth := 64) [hs]
@[simp] theorem ArbCtx.put_mem (k : ArbCtx) (s : State) (v : Word) : (ArbCtx.put k s v).mem = s.mem := by
  unfold ArbCtx.put; simp +contextual (maxDischargeDepth := 64)
@[simp] theorem ArbCtx.put_pending (k : ArbCtx) (s : State) (v : Word) : (ArbCtx.put k s v).pending = s.pending := by
  unfold ArbCtx.put; simp +contextual (maxDischargeDepth := 64)
@[simp] theorem ArbCtx.put_canonical (k : ArbCtx) (s : State) (v : Word) (hs : s.canonical = true) : (ArbCtx.put k s v).canonical = true := by
  unfold ArbCtx.put; simp +contextual (maxDischargeDepth := 64) [hs]
@[simp] theorem State.dmemPut_mem (s : State) (c t a : Nat) (l : List Byte) : (State.dmemPut s c t a l).mem = s.mem := by
  unfold State.dmemPut; simp +contextual (maxDischargeDepth := 64)
@[simp] theorem State.dmemPut_pending (s : State) (c t a : Nat) (l : List Byte) : (State.dmemPut s c t a l).pending = s.pending := by
  unfold State.dmemPut; simp +contextual (maxDischargeDepth := 64)
@[simp] theorem State.dmemPut_canonical (s : State) (c t a : Nat) (l : List Byte) (hs : s.canonical = true) : (State.dmemPut s c t a l).canonical = true := by
  unfold State.dmemPut; simp +contextual (maxDischargeDepth := 64) [hs]
@[simp] theorem ArbCtx.waitFor_mem (k : ArbCtx) (s : State) (st : Nat) (w : ArbWait) : (ArbCtx.waitFor k s st w).mem = s.mem := by
  unfold ArbCtx.waitFor; simp +contextual (maxDischargeDepth := 64)
@[simp] theorem ArbCtx.waitFor_pending (k : ArbCtx) (s : State) (st : Nat) (w : ArbWait) : (ArbCtx.waitFor k s st w).pending = s.pending := by
  unfold ArbCtx.waitFor; simp +contextual (maxDischargeDepth := 64)
@[simp] theorem ArbCtx.waitFor_canonical (k : ArbCtx) (s : State) (st : Nat) (w : ArbWait) (hs : s.canonical = true) : (ArbCtx.waitFor k s st w).canonical = true := by
  unfold ArbCtx.waitFor; simp +contextual (maxDischargeDepth := 64) [hs]
/-- The effect of an instruction keeps memory and the queue, and the canonical form. -/
def ArbIns.quiet (n : ArbIns) : Prop := ∀ k s, (n.effect k s).mem = s.mem ∧ (n.effect k s).pending = s.pending ∧
  (s.canonical = true → (n.effect k s).canonical = true)
theorem State.arbRun_mem (s : State) (n : ArbIns) (c t : Nat) (w : Word) (err : ArbError) (hn : n.quiet) :
    (State.arbRun s n c t w err).mem = s.mem := by
  unfold State.arbRun; (try simp only []); (repeat' split) <;> simp [(hn _ _).1]
theorem State.arbRun_pending (s : State) (n : ArbIns) (c t : Nat) (w : Word) (err : ArbError) (hn : n.quiet) :
    (State.arbRun s n c t w err).pending = s.pending := by
  unfold State.arbRun; (try simp only []); (repeat' split) <;> simp [(hn _ _).2.1]
theorem State.arbRun_canonical (s : State) (n : ArbIns) (c t : Nat) (w : Word) (err : ArbError) (hn : n.quiet)
    (hs : s.canonical = true) : (State.arbRun s n c t w err).canonical = true := by
  unfold State.arbRun; (try simp only []); (repeat' split) <;> simp (maxDischargeDepth := 64) [(hn _ _).2.2, hs]
theorem State.arbRow_quiet (s : State) (n : ArbIns) (op c t : Nat) (err : ArbError) (hn : n.quiet) :
    Res.quiet s (State.arbRow s n op c t err) := by
  unfold State.arbRow
  (repeat' split) <;> simp +contextual (maxDischargeDepth := 64) [State.arbRun_mem _ _ _ _ _ _ hn, State.arbRun_pending _ _ _ _ _ _ hn, State.arbRun_canonical _ _ _ _ _ _ hn]
theorem insBase_quiet : insBase.quiet := by
  intro k s; unfold insBase; simp only [insAlu, insImm, insShiftImm, insBase, noEffect]; (try extract_lets); (repeat' split) <;> simp +contextual +zetaDelta (maxDischargeDepth := 64)
@[simp] theorem noEffect_mem (u0 : ArbCtx) (s : State) : (noEffect u0 s).mem = s.mem := by
  unfold noEffect; simp +contextual (maxDischargeDepth := 64)
@[simp] theorem noEffect_pending (u0 : ArbCtx) (s : State) : (noEffect u0 s).pending = s.pending := by
  unfold noEffect; simp +contextual (maxDischargeDepth := 64)
@[simp] theorem noEffect_canonical (u0 : ArbCtx) (s : State) (hs : s.canonical = true) : (noEffect u0 s).canonical = true := by
  unfold noEffect; simp +contextual (maxDischargeDepth := 64) [hs]
@[simp] theorem State.endThread_mem (s : State) (c t : Nat) : (State.endThread s c t).mem = s.mem := by
  unfold State.endThread; simp +contextual (maxDischargeDepth := 64)
@[simp] theorem State.endThread_pending (s : State) (c t : Nat) : (State.endThread s c t).pending = s.pending := by
  unfold State.endThread; simp +contextual (maxDischargeDepth := 64)
@[simp] theorem State.endThread_canonical (s : State) (c t : Nat) (hs : s.canonical = true) : (State.endThread s c t).canonical = true := by
  unfold State.endThread; simp +contextual (maxDischargeDepth := 64) [hs]
theorem insNop_quiet : insNop.quiet := by
  intro k s; unfold insNop; simp only [insAlu, insImm, insShiftImm, insBase, noEffect]; (try extract_lets); (repeat' split) <;> simp +contextual +zetaDelta (maxDischargeDepth := 64)
theorem insAdd_quiet : insAdd.quiet := by
  intro k s; unfold insAdd; simp only [insAlu, insImm, insShiftImm, insBase, noEffect]; (try extract_lets); (repeat' split) <;> simp +contextual +zetaDelta (maxDischargeDepth := 64)
theorem insSub_quiet : insSub.quiet := by
  intro k s; unfold insSub; simp only [insAlu, insImm, insShiftImm, insBase, noEffect]; (try extract_lets); (repeat' split) <;> simp +contextual +zetaDelta (maxDischargeDepth := 64)
theorem insAnd_quiet : insAnd.quiet := by
  intro k s; unfold insAnd; simp only [insAlu, insImm, insShiftImm, insBase, noEffect]; (try extract_lets); (repeat' split) <;> simp +contextual +zetaDelta (maxDischargeDepth := 64)
theorem insOr_quiet : insOr.quiet := by
  intro k s; unfold insOr; simp only [insAlu, insImm, insShiftImm, insBase, noEffect]; (try extract_lets); (repeat' split) <;> simp +contextual +zetaDelta (maxDischargeDepth := 64)
theorem insXor_quiet : insXor.quiet := by
  intro k s; unfold insXor; simp only [insAlu, insImm, insShiftImm, insBase, noEffect]; (try extract_lets); (repeat' split) <;> simp +contextual +zetaDelta (maxDischargeDepth := 64)
theorem insAndn_quiet : insAndn.quiet := by
  intro k s; unfold insAndn; simp only [insAlu, insImm, insShiftImm, insBase, noEffect]; (try extract_lets); (repeat' split) <;> simp +contextual +zetaDelta (maxDischargeDepth := 64)
theorem insShl_quiet : insShl.quiet := by
  intro k s; unfold insShl; simp only [insAlu, insImm, insShiftImm, insBase, noEffect]; (try extract_lets); (repeat' split) <;> simp +contextual +zetaDelta (maxDischargeDepth := 64)
theorem insShr_quiet : insShr.quiet := by
  intro k s; unfold insShr; simp only [insAlu, insImm, insShiftImm, insBase, noEffect]; (try extract_lets); (repeat' split) <;> simp +contextual +zetaDelta (maxDischargeDepth := 64)
theorem insSar_quiet : insSar.quiet := by
  intro k s; unfold insSar; simp only [insAlu, insImm, insShiftImm, insBase, noEffect]; (try extract_lets); (repeat' split) <;> simp +contextual +zetaDelta (maxDischargeDepth := 64)
theorem insMinu_quiet : insMinu.quiet := by
  intro k s; unfold insMinu; simp only [insAlu, insImm, insShiftImm, insBase, noEffect]; (try extract_lets); (repeat' split) <;> simp +contextual +zetaDelta (maxDischargeDepth := 64)
theorem insMaxu_quiet : insMaxu.quiet := by
  intro k s; unfold insMaxu; simp only [insAlu, insImm, insShiftImm, insBase, noEffect]; (try extract_lets); (repeat' split) <;> simp +contextual +zetaDelta (maxDischargeDepth := 64)
theorem insMul_quiet : insMul.quiet := by
  intro k s; unfold insMul; simp only [insAlu, insImm, insShiftImm, insBase, noEffect]; (try extract_lets); (repeat' split) <;> simp +contextual +zetaDelta (maxDischargeDepth := 64)
theorem insSltu_quiet : insSltu.quiet := by
  intro k s; unfold insSltu; simp only [insAlu, insImm, insShiftImm, insBase, noEffect]; (try extract_lets); (repeat' split) <;> simp +contextual +zetaDelta (maxDischargeDepth := 64)
theorem insAddi_quiet : insAddi.quiet := by
  intro k s; unfold insAddi; simp only [insAlu, insImm, insShiftImm, insBase, noEffect]; (try extract_lets); (repeat' split) <;> simp +contextual +zetaDelta (maxDischargeDepth := 64)
theorem insAndi_quiet : insAndi.quiet := by
  intro k s; unfold insAndi; simp only [insAlu, insImm, insShiftImm, insBase, noEffect]; (try extract_lets); (repeat' split) <;> simp +contextual +zetaDelta (maxDischargeDepth := 64)
theorem insOri_quiet : insOri.quiet := by
  intro k s; unfold insOri; simp only [insAlu, insImm, insShiftImm, insBase, noEffect]; (try extract_lets); (repeat' split) <;> simp +contextual +zetaDelta (maxDischargeDepth := 64)
theorem insXori_quiet : insXori.quiet := by
  intro k s; unfold insXori; simp only [insAlu, insImm, insShiftImm, insBase, noEffect]; (try extract_lets); (repeat' split) <;> simp +contextual +zetaDelta (maxDischargeDepth := 64)
theorem insShli_quiet : insShli.quiet := by
  intro k s; unfold insShli; simp only [insAlu, insImm, insShiftImm, insBase, noEffect]; (try extract_lets); (repeat' split) <;> simp +contextual +zetaDelta (maxDischargeDepth := 64)
theorem insShri_quiet : insShri.quiet := by
  intro k s; unfold insShri; simp only [insAlu, insImm, insShiftImm, insBase, noEffect]; (try extract_lets); (repeat' split) <;> simp +contextual +zetaDelta (maxDischargeDepth := 64)
theorem insSari_quiet : insSari.quiet := by
  intro k s; unfold insSari; simp only [insAlu, insImm, insShiftImm, insBase, noEffect]; (try extract_lets); (repeat' split) <;> simp +contextual +zetaDelta (maxDischargeDepth := 64)
theorem insSltui_quiet : insSltui.quiet := by
  intro k s; unfold insSltui; simp only [insAlu, insImm, insShiftImm, insBase, noEffect]; (try extract_lets); (repeat' split) <;> simp +contextual +zetaDelta (maxDischargeDepth := 64)
theorem insMovi_quiet : insMovi.quiet := by
  intro k s; unfold insMovi; simp only [insAlu, insImm, insShiftImm, insBase, noEffect]; (try extract_lets); (repeat' split) <;> simp +contextual +zetaDelta (maxDischargeDepth := 64)
theorem insMovhi_quiet : insMovhi.quiet := by
  intro k s; unfold insMovhi; simp only [insAlu, insImm, insShiftImm, insBase, noEffect]; (try extract_lets); (repeat' split) <;> simp +contextual +zetaDelta (maxDischargeDepth := 64)
theorem insBfx_quiet : insBfx.quiet := by
  intro k s; unfold insBfx; simp only [insAlu, insImm, insShiftImm, insBase, noEffect]; (try extract_lets); (repeat' split) <;> simp +contextual +zetaDelta (maxDischargeDepth := 64)
theorem insBfi_quiet : insBfi.quiet := by
  intro k s; unfold insBfi; simp only [insAlu, insImm, insShiftImm, insBase, noEffect]; (try extract_lets); (repeat' split) <;> simp +contextual +zetaDelta (maxDischargeDepth := 64)
theorem insExt_quiet : insExt.quiet := by
  intro k s; unfold insExt; simp only [insAlu, insImm, insShiftImm, insBase, noEffect]; (try extract_lets); (repeat' split) <;> simp +contextual +zetaDelta (maxDischargeDepth := 64)
theorem insIns_quiet : insIns.quiet := by
  intro k s; unfold insIns; simp only [insAlu, insImm, insShiftImm, insBase, noEffect]; (try extract_lets); (repeat' split) <;> simp +contextual +zetaDelta (maxDischargeDepth := 64)
theorem insKcpy_quiet : insKcpy.quiet := by
  intro k s; unfold insKcpy; simp only [insAlu, insImm, insShiftImm, insBase, noEffect]; (try extract_lets); (repeat' split) <;> simp +contextual +zetaDelta (maxDischargeDepth := 64)
theorem insCrcwin_quiet : insCrcwin.quiet := by
  intro k s; unfold insCrcwin; simp only [insAlu, insImm, insShiftImm, insBase, noEffect]; (try extract_lets); (repeat' split) <;> simp +contextual +zetaDelta (maxDischargeDepth := 64)
theorem insKput_quiet : insKput.quiet := by
  intro k s; unfold insKput; simp only [insAlu, insImm, insShiftImm, insBase, noEffect]; (try extract_lets); (repeat' split) <;> simp +contextual +zetaDelta (maxDischargeDepth := 64)
theorem insKclr_quiet : insKclr.quiet := by
  intro k s; unfold insKclr; simp only [insAlu, insImm, insShiftImm, insBase, noEffect]; (try extract_lets); (repeat' split) <;> simp +contextual +zetaDelta (maxDischargeDepth := 64)
theorem insKprof_quiet : insKprof.quiet := by
  intro k s; unfold insKprof; simp only [insAlu, insImm, insShiftImm, insBase, noEffect]; (try extract_lets); (repeat' split) <;> simp +contextual +zetaDelta (maxDischargeDepth := 64)
theorem insCrc_quiet : insCrc.quiet := by
  intro k s; unfold insCrc; simp only [insAlu, insImm, insShiftImm, insBase, noEffect]; (try extract_lets); (repeat' split) <;> simp +contextual +zetaDelta (maxDischargeDepth := 64)
theorem insTpz_quiet : insTpz.quiet := by
  intro k s; unfold insTpz; simp only [insAlu, insImm, insShiftImm, insBase, noEffect]; (try extract_lets); (repeat' split) <;> simp +contextual +zetaDelta (maxDischargeDepth := 64)
theorem insLd_quiet : insLd.quiet := by
  intro k s; unfold insLd; simp only [insAlu, insImm, insShiftImm, insBase, noEffect]; (try extract_lets); (repeat' split) <;> simp +contextual +zetaDelta (maxDischargeDepth := 64)
theorem insSt_quiet : insSt.quiet := by
  intro k s; unfold insSt; simp only [insAlu, insImm, insShiftImm, insBase, noEffect]; (try extract_lets); (repeat' split) <;> simp +contextual +zetaDelta (maxDischargeDepth := 64)
theorem insBr_quiet : insBr.quiet := by
  intro k s; unfold insBr; simp only [insAlu, insImm, insShiftImm, insBase, noEffect]; (try extract_lets); (repeat' split) <;> simp +contextual +zetaDelta (maxDischargeDepth := 64)
theorem insBri_quiet : insBri.quiet := by
  intro k s; unfold insBri; simp only [insAlu, insImm, insShiftImm, insBase, noEffect]; (try extract_lets); (repeat' split) <;> simp +contextual +zetaDelta (maxDischargeDepth := 64)
theorem insJal_quiet : insJal.quiet := by
  intro k s; unfold insJal; simp only [insAlu, insImm, insShiftImm, insBase, noEffect]; (try extract_lets); (repeat' split) <;> simp +contextual +zetaDelta (maxDischargeDepth := 64)
theorem insJr_quiet : insJr.quiet := by
  intro k s; unfold insJr; simp only [insAlu, insImm, insShiftImm, insBase, noEffect]; (try extract_lets); (repeat' split) <;> simp +contextual +zetaDelta (maxDischargeDepth := 64)
theorem insRds_quiet : insRds.quiet := by
  intro k s; unfold insRds; simp only [insAlu, insImm, insShiftImm, insBase, noEffect]; (try extract_lets); (repeat' split) <;> simp +contextual +zetaDelta (maxDischargeDepth := 64)
theorem insEmitf_quiet : insEmitf.quiet := by
  intro k s; unfold insEmitf; simp only [insAlu, insImm, insShiftImm, insBase, noEffect]; (try extract_lets); (repeat' split) <;> simp +contextual +zetaDelta (maxDischargeDepth := 64)
theorem insCommit_quiet : insCommit.quiet := by
  intro k s; unfold insCommit; simp only [insAlu, insImm, insShiftImm, insBase, noEffect]; (try extract_lets); (repeat' split) <;> simp +contextual +zetaDelta (maxDischargeDepth := 64)
theorem insEnd_quiet : insEnd.quiet := by
  intro k s; simp +contextual (maxDischargeDepth := 64) [insEnd]
theorem insLock_quiet : insLock.quiet := by
  intro k s; unfold insLock; simp only [insAlu, insImm, insShiftImm, insBase, noEffect]; (try extract_lets); (repeat' split) <;> simp +contextual +zetaDelta (maxDischargeDepth := 64)
theorem insUnlock_quiet : insUnlock.quiet := by
  intro k s; unfold insUnlock; simp only [insAlu, insImm, insShiftImm, insBase, noEffect]; (try extract_lets); (repeat' split) <;> simp +contextual +zetaDelta (maxDischargeDepth := 64)
theorem insSignal_quiet : insSignal.quiet := by
  intro k s; unfold insSignal; simp only [insAlu, insImm, insShiftImm, insBase, noEffect]; (try extract_lets); (repeat' split) <;> simp +contextual +zetaDelta (maxDischargeDepth := 64)
theorem insWait_quiet : insWait.quiet := by
  intro k s; unfold insWait; simp only [insAlu, insImm, insShiftImm, insBase, noEffect]; (try extract_lets); (repeat' split) <;> simp +contextual +zetaDelta (maxDischargeDepth := 64)
theorem insOrder_quiet : insOrder.quiet := by
  intro k s; unfold insOrder; simp only [insAlu, insImm, insShiftImm, insBase, noEffect]; (try extract_lets); (repeat' split) <;> simp +contextual +zetaDelta (maxDischargeDepth := 64)
theorem insPark_quiet : insPark.quiet := by
  intro k s; unfold insPark; simp only [insAlu, insImm, insShiftImm, insBase, noEffect]; (try extract_lets); (repeat' split) <;> simp +contextual +zetaDelta (maxDischargeDepth := 64)
theorem insTset_quiet : insTset.quiet := by
  intro k s; unfold insTset; simp only [insAlu, insImm, insShiftImm, insBase, noEffect]; (try extract_lets); (repeat' split) <;> simp +contextual +zetaDelta (maxDischargeDepth := 64)
theorem insRelease_quiet : insRelease.quiet := by
  intro k s; simp +contextual (maxDischargeDepth := 64) [insRelease]
theorem insReserved_quiet : insReserved.quiet := by
  intro k s; unfold insReserved; simp only [insAlu, insImm, insShiftImm, insBase, noEffect]; (try extract_lets); (repeat' split) <;> simp +contextual +zetaDelta (maxDischargeDepth := 64)
theorem arbIns_quiet (op : Nat) : (arbIns op).quiet := by
  unfold arbIns; split
  · exact insNop_quiet
  · exact insAdd_quiet
  · exact insSub_quiet
  · exact insAnd_quiet
  · exact insOr_quiet
  · exact insXor_quiet
  · exact insAndn_quiet
  · exact insShl_quiet
  · exact insShr_quiet
  · exact insSar_quiet
  · exact insMinu_quiet
  · exact insMaxu_quiet
  · exact insMul_quiet
  · exact insSltu_quiet
  · exact insAddi_quiet
  · exact insAndi_quiet
  · exact insOri_quiet
  · exact insXori_quiet
  · exact insShli_quiet
  · exact insShri_quiet
  · exact insSari_quiet
  · exact insSltui_quiet
  · exact insMovi_quiet
  · exact insMovhi_quiet
  · exact insBfx_quiet
  · exact insBfi_quiet
  · exact insExt_quiet
  · exact insIns_quiet
  · exact insKcpy_quiet
  · exact insCrcwin_quiet
  · exact insKput_quiet
  · exact insKclr_quiet
  · exact insKprof_quiet
  · exact insCrc_quiet
  · exact insTpz_quiet
  · exact insLd_quiet
  · exact insSt_quiet
  · exact insBr_quiet
  · exact insBri_quiet
  · exact insJal_quiet
  · exact insJr_quiet
  · exact insRds_quiet
  · exact insEmitf_quiet
  · exact insCommit_quiet
  · exact insEnd_quiet
  · exact insLock_quiet
  · exact insUnlock_quiet
  · exact insSignal_quiet
  · exact insWait_quiet
  · exact insOrder_quiet
  · exact insPark_quiet
  · exact insTset_quiet
  · exact insRelease_quiet
  · exact insReserved_quiet
@[simp] theorem execArbNop_quiet (cluster thread : Nat) (err : ArbError) (s : State) : Res.quiet s (execArbNop cluster thread err s) := by
  unfold execArbNop; simp only []; split
  · exact State.arbRow_quiet _ _ _ _ _ _ insNop_quiet
  · exact State.arbRow_quiet _ _ _ _ _ _ insReserved_quiet
@[simp] theorem execArbAdd_quiet (cluster thread : Nat) (err : ArbError) (s : State) : Res.quiet s (execArbAdd cluster thread err s) :=
  State.arbRow_quiet _ _ _ _ _ _ insAdd_quiet
@[simp] theorem execArbSub_quiet (cluster thread : Nat) (err : ArbError) (s : State) : Res.quiet s (execArbSub cluster thread err s) :=
  State.arbRow_quiet _ _ _ _ _ _ insSub_quiet
@[simp] theorem execArbAnd_quiet (cluster thread : Nat) (err : ArbError) (s : State) : Res.quiet s (execArbAnd cluster thread err s) :=
  State.arbRow_quiet _ _ _ _ _ _ insAnd_quiet
@[simp] theorem execArbOr_quiet (cluster thread : Nat) (err : ArbError) (s : State) : Res.quiet s (execArbOr cluster thread err s) :=
  State.arbRow_quiet _ _ _ _ _ _ insOr_quiet
@[simp] theorem execArbXor_quiet (cluster thread : Nat) (err : ArbError) (s : State) : Res.quiet s (execArbXor cluster thread err s) :=
  State.arbRow_quiet _ _ _ _ _ _ insXor_quiet
@[simp] theorem execArbAndn_quiet (cluster thread : Nat) (err : ArbError) (s : State) : Res.quiet s (execArbAndn cluster thread err s) :=
  State.arbRow_quiet _ _ _ _ _ _ insAndn_quiet
@[simp] theorem execArbShl_quiet (cluster thread : Nat) (err : ArbError) (s : State) : Res.quiet s (execArbShl cluster thread err s) :=
  State.arbRow_quiet _ _ _ _ _ _ insShl_quiet
@[simp] theorem execArbShr_quiet (cluster thread : Nat) (err : ArbError) (s : State) : Res.quiet s (execArbShr cluster thread err s) :=
  State.arbRow_quiet _ _ _ _ _ _ insShr_quiet
@[simp] theorem execArbSar_quiet (cluster thread : Nat) (err : ArbError) (s : State) : Res.quiet s (execArbSar cluster thread err s) :=
  State.arbRow_quiet _ _ _ _ _ _ insSar_quiet
@[simp] theorem execArbMinu_quiet (cluster thread : Nat) (err : ArbError) (s : State) : Res.quiet s (execArbMinu cluster thread err s) :=
  State.arbRow_quiet _ _ _ _ _ _ insMinu_quiet
@[simp] theorem execArbMaxu_quiet (cluster thread : Nat) (err : ArbError) (s : State) : Res.quiet s (execArbMaxu cluster thread err s) :=
  State.arbRow_quiet _ _ _ _ _ _ insMaxu_quiet
@[simp] theorem execArbMul_quiet (cluster thread : Nat) (err : ArbError) (s : State) : Res.quiet s (execArbMul cluster thread err s) :=
  State.arbRow_quiet _ _ _ _ _ _ insMul_quiet
@[simp] theorem execArbSltu_quiet (cluster thread : Nat) (err : ArbError) (s : State) : Res.quiet s (execArbSltu cluster thread err s) :=
  State.arbRow_quiet _ _ _ _ _ _ insSltu_quiet
@[simp] theorem execArbAddi_quiet (cluster thread : Nat) (err : ArbError) (s : State) : Res.quiet s (execArbAddi cluster thread err s) :=
  State.arbRow_quiet _ _ _ _ _ _ insAddi_quiet
@[simp] theorem execArbAndi_quiet (cluster thread : Nat) (err : ArbError) (s : State) : Res.quiet s (execArbAndi cluster thread err s) :=
  State.arbRow_quiet _ _ _ _ _ _ insAndi_quiet
@[simp] theorem execArbOri_quiet (cluster thread : Nat) (err : ArbError) (s : State) : Res.quiet s (execArbOri cluster thread err s) :=
  State.arbRow_quiet _ _ _ _ _ _ insOri_quiet
@[simp] theorem execArbXori_quiet (cluster thread : Nat) (err : ArbError) (s : State) : Res.quiet s (execArbXori cluster thread err s) :=
  State.arbRow_quiet _ _ _ _ _ _ insXori_quiet
@[simp] theorem execArbShli_quiet (cluster thread : Nat) (err : ArbError) (s : State) : Res.quiet s (execArbShli cluster thread err s) :=
  State.arbRow_quiet _ _ _ _ _ _ insShli_quiet
@[simp] theorem execArbShri_quiet (cluster thread : Nat) (err : ArbError) (s : State) : Res.quiet s (execArbShri cluster thread err s) :=
  State.arbRow_quiet _ _ _ _ _ _ insShri_quiet
@[simp] theorem execArbSari_quiet (cluster thread : Nat) (err : ArbError) (s : State) : Res.quiet s (execArbSari cluster thread err s) :=
  State.arbRow_quiet _ _ _ _ _ _ insSari_quiet
@[simp] theorem execArbSltui_quiet (cluster thread : Nat) (err : ArbError) (s : State) : Res.quiet s (execArbSltui cluster thread err s) :=
  State.arbRow_quiet _ _ _ _ _ _ insSltui_quiet
@[simp] theorem execArbMovi_quiet (cluster thread : Nat) (err : ArbError) (s : State) : Res.quiet s (execArbMovi cluster thread err s) :=
  State.arbRow_quiet _ _ _ _ _ _ insMovi_quiet
@[simp] theorem execArbMovhi_quiet (cluster thread : Nat) (err : ArbError) (s : State) : Res.quiet s (execArbMovhi cluster thread err s) :=
  State.arbRow_quiet _ _ _ _ _ _ insMovhi_quiet
@[simp] theorem execArbBfx_quiet (cluster thread : Nat) (err : ArbError) (s : State) : Res.quiet s (execArbBfx cluster thread err s) :=
  State.arbRow_quiet _ _ _ _ _ _ insBfx_quiet
@[simp] theorem execArbBfi_quiet (cluster thread : Nat) (err : ArbError) (s : State) : Res.quiet s (execArbBfi cluster thread err s) :=
  State.arbRow_quiet _ _ _ _ _ _ insBfi_quiet
@[simp] theorem execArbExt_quiet (cluster thread : Nat) (err : ArbError) (s : State) : Res.quiet s (execArbExt cluster thread err s) :=
  State.arbRow_quiet _ _ _ _ _ _ insExt_quiet
@[simp] theorem execArbIns_quiet (cluster thread : Nat) (err : ArbError) (s : State) : Res.quiet s (execArbIns cluster thread err s) :=
  State.arbRow_quiet _ _ _ _ _ _ insIns_quiet
@[simp] theorem execArbKcpy_quiet (cluster thread : Nat) (err : ArbError) (s : State) : Res.quiet s (execArbKcpy cluster thread err s) :=
  State.arbRow_quiet _ _ _ _ _ _ insKcpy_quiet
@[simp] theorem execArbCrcwin_quiet (cluster thread : Nat) (err : ArbError) (s : State) : Res.quiet s (execArbCrcwin cluster thread err s) :=
  State.arbRow_quiet _ _ _ _ _ _ insCrcwin_quiet
@[simp] theorem execArbKput_quiet (cluster thread : Nat) (err : ArbError) (s : State) : Res.quiet s (execArbKput cluster thread err s) :=
  State.arbRow_quiet _ _ _ _ _ _ insKput_quiet
@[simp] theorem execArbKclr_quiet (cluster thread : Nat) (err : ArbError) (s : State) : Res.quiet s (execArbKclr cluster thread err s) :=
  State.arbRow_quiet _ _ _ _ _ _ insKclr_quiet
@[simp] theorem execArbKprof_quiet (cluster thread : Nat) (err : ArbError) (s : State) : Res.quiet s (execArbKprof cluster thread err s) :=
  State.arbRow_quiet _ _ _ _ _ _ insKprof_quiet
@[simp] theorem execArbCrc_quiet (cluster thread : Nat) (err : ArbError) (s : State) : Res.quiet s (execArbCrc cluster thread err s) :=
  State.arbRow_quiet _ _ _ _ _ _ insCrc_quiet
@[simp] theorem execArbTpz_quiet (cluster thread : Nat) (err : ArbError) (s : State) : Res.quiet s (execArbTpz cluster thread err s) :=
  State.arbRow_quiet _ _ _ _ _ _ insTpz_quiet
@[simp] theorem execArbLd_quiet (cluster thread : Nat) (err : ArbError) (s : State) : Res.quiet s (execArbLd cluster thread err s) :=
  State.arbRow_quiet _ _ _ _ _ _ insLd_quiet
@[simp] theorem execArbSt_quiet (cluster thread : Nat) (err : ArbError) (s : State) : Res.quiet s (execArbSt cluster thread err s) :=
  State.arbRow_quiet _ _ _ _ _ _ insSt_quiet
@[simp] theorem execArbBr_quiet (cluster thread : Nat) (err : ArbError) (s : State) : Res.quiet s (execArbBr cluster thread err s) :=
  State.arbRow_quiet _ _ _ _ _ _ insBr_quiet
@[simp] theorem execArbBri_quiet (cluster thread : Nat) (err : ArbError) (s : State) : Res.quiet s (execArbBri cluster thread err s) :=
  State.arbRow_quiet _ _ _ _ _ _ insBri_quiet
@[simp] theorem execArbJal_quiet (cluster thread : Nat) (err : ArbError) (s : State) : Res.quiet s (execArbJal cluster thread err s) :=
  State.arbRow_quiet _ _ _ _ _ _ insJal_quiet
@[simp] theorem execArbJr_quiet (cluster thread : Nat) (err : ArbError) (s : State) : Res.quiet s (execArbJr cluster thread err s) :=
  State.arbRow_quiet _ _ _ _ _ _ insJr_quiet
@[simp] theorem execArbRds_quiet (cluster thread : Nat) (err : ArbError) (s : State) : Res.quiet s (execArbRds cluster thread err s) :=
  State.arbRow_quiet _ _ _ _ _ _ insRds_quiet
@[simp] theorem execArbEmitf_quiet (cluster thread : Nat) (err : ArbError) (s : State) : Res.quiet s (execArbEmitf cluster thread err s) :=
  State.arbRow_quiet _ _ _ _ _ _ insEmitf_quiet
@[simp] theorem execArbCommit_quiet (cluster thread : Nat) (err : ArbError) (s : State) : Res.quiet s (execArbCommit cluster thread err s) :=
  State.arbRow_quiet _ _ _ _ _ _ insCommit_quiet
@[simp] theorem execArbEnd_quiet (cluster thread : Nat) (err : ArbError) (s : State) : Res.quiet s (execArbEnd cluster thread err s) :=
  State.arbRow_quiet _ _ _ _ _ _ insEnd_quiet
@[simp] theorem execArbLock_quiet (cluster thread : Nat) (err : ArbError) (s : State) : Res.quiet s (execArbLock cluster thread err s) :=
  State.arbRow_quiet _ _ _ _ _ _ insLock_quiet
@[simp] theorem execArbUnlock_quiet (cluster thread : Nat) (err : ArbError) (s : State) : Res.quiet s (execArbUnlock cluster thread err s) :=
  State.arbRow_quiet _ _ _ _ _ _ insUnlock_quiet
@[simp] theorem execArbSignal_quiet (cluster thread : Nat) (err : ArbError) (s : State) : Res.quiet s (execArbSignal cluster thread err s) :=
  State.arbRow_quiet _ _ _ _ _ _ insSignal_quiet
@[simp] theorem execArbWait_quiet (cluster thread : Nat) (err : ArbError) (s : State) : Res.quiet s (execArbWait cluster thread err s) :=
  State.arbRow_quiet _ _ _ _ _ _ insWait_quiet
@[simp] theorem execArbOrder_quiet (cluster thread : Nat) (err : ArbError) (s : State) : Res.quiet s (execArbOrder cluster thread err s) :=
  State.arbRow_quiet _ _ _ _ _ _ insOrder_quiet
@[simp] theorem execArbPark_quiet (cluster thread : Nat) (err : ArbError) (s : State) : Res.quiet s (execArbPark cluster thread err s) :=
  State.arbRow_quiet _ _ _ _ _ _ insPark_quiet
@[simp] theorem execArbTset_quiet (cluster thread : Nat) (err : ArbError) (s : State) : Res.quiet s (execArbTset cluster thread err s) :=
  State.arbRow_quiet _ _ _ _ _ _ insTset_quiet
@[simp] theorem execArbRelease_quiet (cluster thread : Nat) (err : ArbError) (s : State) : Res.quiet s (execArbRelease cluster thread err s) :=
  State.arbRow_quiet _ _ _ _ _ _ insRelease_quiet
@[simp] theorem State.dbgStep_mem (s : State) (c t : Nat) (err : ArbError) : (State.dbgStep s c t err).mem = s.mem := by
  unfold State.dbgStep; simp only []; (repeat' split) <;> simp (maxDischargeDepth := 64) [State.arbRun_mem, arbIns_quiet]
@[simp] theorem State.dbgStep_pending (s : State) (c t : Nat) (err : ArbError) : (State.dbgStep s c t err).pending = s.pending := by
  unfold State.dbgStep; simp only []; (repeat' split) <;> simp (maxDischargeDepth := 64) [State.arbRun_pending, arbIns_quiet]
@[simp] theorem State.dbgStep_canonical (s : State) (c t : Nat) (err : ArbError) (hs : s.canonical = true) : (State.dbgStep s c t err).canonical = true := by
  unfold State.dbgStep; simp only []; (repeat' split) <;> simp (maxDischargeDepth := 64) [State.arbRun_canonical, arbIns_quiet, hs]
@[simp] theorem execArbStep_quiet (cluster thread : Nat) (err : ArbError) (s : State) : Res.quiet s (execArbStep cluster thread err s) := by
  unfold execArbStep; simp +contextual (maxDischargeDepth := 64)
@[simp] theorem State.arbCycle_mem (s : State) (c : Nat) : (State.arbCycle s c).mem = s.mem := by
  unfold State.arbCycle; simp +contextual (maxDischargeDepth := 64)
@[simp] theorem State.arbCycle_pending (s : State) (c : Nat) : (State.arbCycle s c).pending = s.pending := by
  unfold State.arbCycle; simp +contextual (maxDischargeDepth := 64)
@[simp] theorem State.arbCycle_canonical (s : State) (c : Nat) (hs : s.canonical = true) : (State.arbCycle s c).canonical = true := by
  unfold State.arbCycle; simp +contextual (maxDischargeDepth := 64) [hs]

end Sys2Proof.Machine
end

