-- ==== Sys2Proof/Laws/KeepSch.lean ====
section
/-! SUPPORT. Machine/Sch.lean: what each of its operations keeps (memory where it stores nothing, the queue, the
canonical form of the stores). -/

namespace Sys2Proof.Machine

set_option linter.all false
set_option Elab.async false

@[simp] theorem State.enqueue_mem (s : State) (port : Nat) (p : Packet) (arriving : Bool) : (State.enqueue s port p arriving).mem = s.mem := by
  unfold State.enqueue; simp +contextual (maxDischargeDepth := 64)
@[simp] theorem State.enqueue_pending (s : State) (port : Nat) (p : Packet) (arriving : Bool) : (State.enqueue s port p arriving).pending = s.pending := by
  unfold State.enqueue; simp +contextual (maxDischargeDepth := 64)
@[simp] theorem State.enqueue_canonical (s : State) (port : Nat) (p : Packet) (arriving : Bool) (hs : s.canonical = true) : (State.enqueue s port p arriving).canonical = true := by
  unfold State.enqueue; simp +contextual (maxDischargeDepth := 64) [hs]
@[simp] theorem execSchEnqueue_quiet (port : Nat) (s : State) : Res.quiet s (execSchEnqueue port s) := by
  unfold execSchEnqueue; (try simp only []); (repeat' split) <;> simp +contextual (maxDischargeDepth := 64)
@[simp] theorem State.dropUnfit_mem (s : State) (port markers : Nat) (x1 : Nat) : (State.dropUnfit s port markers x1).mem = s.mem := by
  fun_induction State.dropUnfit s port markers x1 <;> simp_all (maxDischargeDepth := 64)
@[simp] theorem State.dropUnfit_pending (s : State) (port markers : Nat) (x1 : Nat) : (State.dropUnfit s port markers x1).pending = s.pending := by
  fun_induction State.dropUnfit s port markers x1 <;> simp_all (maxDischargeDepth := 64)
@[simp] theorem State.dropUnfit_canonical (s : State) (port markers : Nat) (x1 : Nat) (hs : s.canonical = true) : (State.dropUnfit s port markers x1).canonical = true := by
  fun_induction State.dropUnfit s port markers x1 <;> simp_all (maxDischargeDepth := 64)
@[simp] theorem execFrameSelect_quiet (port markers : Nat) (ecc : EccResult) (s : State) : Res.quiet s (execFrameSelect port markers ecc s) := by
  unfold execFrameSelect; (repeat' (first | extract_lets | split)) <;> first
    | (simp +contextual +zetaDelta (maxDischargeDepth := 64); done)
    | (have k1 := State.portPick_keeps (by assumption); simp +contextual +zetaDelta (maxDischargeDepth := 64) [k1.1, k1.2.1, k1.2.2])
@[simp] theorem State.txReport_mem (s : State) (port : Nat) (t : TxFrame) (status : Nat) : (State.txReport s port t status).mem = s.mem := by
  unfold State.txReport; simp +contextual (maxDischargeDepth := 64)
@[simp] theorem State.txReport_pending (s : State) (port : Nat) (t : TxFrame) (status : Nat) : (State.txReport s port t status).pending = s.pending := by
  unfold State.txReport; simp +contextual (maxDischargeDepth := 64)
@[simp] theorem State.txReport_canonical (s : State) (port : Nat) (t : TxFrame) (status : Nat) (hs : s.canonical = true) : (State.txReport s port t status).canonical = true := by
  unfold State.txReport; simp +contextual (maxDischargeDepth := 64) [hs]
@[simp] theorem State.stomp_mem (s : State) (port sent : Nat) (t : TxFrame) : (State.stomp s port sent t).mem = s.mem := by
  unfold State.stomp; simp +contextual (maxDischargeDepth := 64)
@[simp] theorem State.stomp_pending (s : State) (port sent : Nat) (t : TxFrame) : (State.stomp s port sent t).pending = s.pending := by
  unfold State.stomp; simp +contextual (maxDischargeDepth := 64)
@[simp] theorem State.stomp_canonical (s : State) (port sent : Nat) (t : TxFrame) (hs : s.canonical = true) : (State.stomp s port sent t).canonical = true := by
  unfold State.stomp; simp +contextual (maxDischargeDepth := 64) [hs]
@[simp] theorem execFrameTransmitEnd_quiet (port sent : Nat) (ecc : EccResult) (s : State) : Res.quiet s (execFrameTransmitEnd port sent ecc s) := by
  unfold execFrameTransmitEnd; (try simp only []); (repeat' split) <;> simp +contextual (maxDischargeDepth := 64)
@[simp] theorem execGclChange_quiet (port : Nat) (s : State) : Res.quiet s (execGclChange port s) := by
  unfold execGclChange; (try simp only []); (repeat' split) <;> simp +contextual (maxDischargeDepth := 64)
@[simp] theorem execGateEntryChange_quiet (port : Nat) (s : State) : Res.quiet s (execGateEntryChange port s) := by
  unfold execGateEntryChange; (try simp only []); (repeat' split) <;> simp +contextual (maxDischargeDepth := 64)
@[simp] theorem execGclCycleStart_quiet (port : Nat) (s : State) : Res.quiet s (execGclCycleStart port s) := by
  unfold execGclCycleStart; (try simp only []); (repeat' split) <;> simp +contextual (maxDischargeDepth := 64)
@[simp] theorem execShaperRefill_quiet (level index : Nat) (s : State) : Res.quiet s (execShaperRefill level index s) := by
  unfold execShaperRefill; simp +contextual (maxDischargeDepth := 64)
@[simp] theorem State.schNodeGo_mem (s : State) : (State.schNodeGo s).mem = s.mem := by
  unfold State.schNodeGo; simp +contextual (maxDischargeDepth := 64)
@[simp] theorem State.schNodeGo_pending (s : State) : (State.schNodeGo s).pending = s.pending := by
  unfold State.schNodeGo; simp +contextual (maxDischargeDepth := 64)
@[simp] theorem State.schNodeGo_canonical (s : State) (hs : s.canonical = true) : (State.schNodeGo s).canonical = true := by
  unfold State.schNodeGo; simp +contextual (maxDischargeDepth := 64) [hs]
@[simp] theorem execSchNodeCommitGo_quiet (s : State) : Res.quiet s (execSchNodeCommitGo s) := by
  unfold execSchNodeCommitGo; simp +contextual (maxDischargeDepth := 64)

end Sys2Proof.Machine
end

