-- ==== Sys2Proof/Laws/KeepEth.lean ====
section
/-! SUPPORT. Machine/Eth.lean: what each of its operations keeps (memory where it stores nothing, the queue, the
canonical form of the stores). -/

namespace Sys2Proof.Machine

set_option linter.all false
set_option Elab.async false

@[simp] theorem State.setMeasuring_mem (s : State) (l : List Nat) : (State.setMeasuring s l).mem = s.mem := by
  unfold State.setMeasuring; simp +contextual (maxDischargeDepth := 64)
@[simp] theorem State.setMeasuring_pending (s : State) (l : List Nat) : (State.setMeasuring s l).pending = s.pending := by
  unfold State.setMeasuring; simp +contextual (maxDischargeDepth := 64)
@[simp] theorem State.setMeasuring_canonical (s : State) (l : List Nat) (hs : s.canonical = true) : (State.setMeasuring s l).canonical = true := by
  unfold State.setMeasuring; simp +contextual (maxDischargeDepth := 64) [hs]
@[simp] theorem State.linkStart_mem (s : State) (p : Nat) : (State.linkStart s p).mem = s.mem := by
  unfold State.linkStart; simp +contextual (maxDischargeDepth := 64)
@[simp] theorem State.linkStart_pending (s : State) (p : Nat) : (State.linkStart s p).pending = s.pending := by
  unfold State.linkStart; simp +contextual (maxDischargeDepth := 64)
@[simp] theorem State.linkStart_canonical (s : State) (p : Nat) (hs : s.canonical = true) : (State.linkStart s p).canonical = true := by
  unfold State.linkStart; simp +contextual (maxDischargeDepth := 64) [hs]
@[simp] theorem State.linkDown_mem (s : State) (p : Nat) (receiving : Bool) : (State.linkDown s p receiving).mem = s.mem := by
  unfold State.linkDown; (try simp only []); (repeat' split) <;> simp +contextual (maxDischargeDepth := 64)
@[simp] theorem State.linkDown_pending (s : State) (p : Nat) (receiving : Bool) : (State.linkDown s p receiving).pending = s.pending := by
  unfold State.linkDown; (try simp only []); (repeat' split) <;> simp +contextual (maxDischargeDepth := 64)
@[simp] theorem State.linkDown_canonical (s : State) (p : Nat) (receiving : Bool) (hs : s.canonical = true) : (State.linkDown s p receiving).canonical = true := by
  unfold State.linkDown; (try simp only []); (repeat' split) <;> simp +contextual (maxDischargeDepth := 64) [hs]
@[simp] theorem State.flushIfDown_mem (s : State) (p : Nat) : (State.flushIfDown s p).mem = s.mem := by
  unfold State.flushIfDown; (try simp only []); (repeat' split) <;> simp +contextual (maxDischargeDepth := 64)
@[simp] theorem State.flushIfDown_pending (s : State) (p : Nat) : (State.flushIfDown s p).pending = s.pending := by
  unfold State.flushIfDown; (try simp only []); (repeat' split) <;> simp +contextual (maxDischargeDepth := 64)
@[simp] theorem State.flushIfDown_canonical (s : State) (p : Nat) (hs : s.canonical = true) : (State.flushIfDown s p).canonical = true := by
  unfold State.flushIfDown; (try simp only []); (repeat' split) <;> simp +contextual (maxDischargeDepth := 64) [hs]
@[simp] theorem execLinkLoss_quiet (port : Nat) (receiving : Bool) (s : State) : Res.quiet s (execLinkLoss port receiving s) := by
  unfold execLinkLoss; simp +contextual (maxDischargeDepth := 64)
@[simp] theorem execLinkTrainingComplete_quiet (port : Nat) (s : State) : Res.quiet s (execLinkTrainingComplete port s) := by
  unfold execLinkTrainingComplete; simp +contextual (maxDischargeDepth := 64)
@[simp] theorem execLaneLockAlignment_quiet (port : Nat) (s : State) : Res.quiet s (execLaneLockAlignment port s) := by
  unfold execLaneLockAlignment; simp +contextual (maxDischargeDepth := 64)
@[simp] theorem execLaneCalibrationComplete_quiet (port : Nat) (latencies : List (Nat × Nat)) (s : State) : Res.quiet s (execLaneCalibrationComplete port latencies s) := by
  unfold execLaneCalibrationComplete; simp +contextual (maxDischargeDepth := 64)
@[simp] theorem State.storeFrame_mem (s : State) (src prio td : Nat) (data : List Byte) (ns frac : Nat) (poison : Bool) : (State.storeFrame s src prio td data ns frac poison).mem = s.mem := by
  unfold State.storeFrame; simp +contextual (maxDischargeDepth := 64)
@[simp] theorem State.storeFrame_pending (s : State) (src prio td : Nat) (data : List Byte) (ns frac : Nat) (poison : Bool) : (State.storeFrame s src prio td data ns frac poison).pending = s.pending := by
  unfold State.storeFrame; simp +contextual (maxDischargeDepth := 64)
@[simp] theorem State.storeFrame_canonical (s : State) (src prio td : Nat) (data : List Byte) (ns frac : Nat) (poison : Bool) (hs : s.canonical = true) : (State.storeFrame s src prio td data ns frac poison).canonical = true := by
  unfold State.storeFrame; simp +contextual (maxDischargeDepth := 64) [hs]
@[simp] theorem State.storeBytes_mem (s : State) (port : Nat) (data : List Byte) : (State.storeBytes s port data).mem = s.mem := by
  unfold State.storeBytes; (try simp only []); (repeat' split) <;> simp +contextual (maxDischargeDepth := 64)
@[simp] theorem State.storeBytes_pending (s : State) (port : Nat) (data : List Byte) : (State.storeBytes s port data).pending = s.pending := by
  unfold State.storeBytes; (try simp only []); (repeat' split) <;> simp +contextual (maxDischargeDepth := 64)
@[simp] theorem State.storeBytes_canonical (s : State) (port : Nat) (data : List Byte) (hs : s.canonical = true) : (State.storeBytes s port data).canonical = true := by
  unfold State.storeBytes; (try simp only []); (repeat' split) <;> simp +contextual (maxDischargeDepth := 64) [hs]
@[simp] theorem State.frameEnd_mem (s : State) (port : Nat) (data : List Byte) (marks : FrameMarks) (full : Bool) : (State.frameEnd s port data marks full).mem = s.mem := by
  unfold State.frameEnd; (try simp only []); (repeat' split) <;> simp +contextual (maxDischargeDepth := 64)
@[simp] theorem State.frameEnd_pending (s : State) (port : Nat) (data : List Byte) (marks : FrameMarks) (full : Bool) : (State.frameEnd s port data marks full).pending = s.pending := by
  unfold State.frameEnd; (try simp only []); (repeat' split) <;> simp +contextual (maxDischargeDepth := 64)
@[simp] theorem State.frameEnd_canonical (s : State) (port : Nat) (data : List Byte) (marks : FrameMarks) (full : Bool) (hs : s.canonical = true) : (State.frameEnd s port data marks full).canonical = true := by
  unfold State.frameEnd; (try simp only []); (repeat' split) <;> simp +contextual (maxDischargeDepth := 64) [hs]
@[simp] theorem execFrameReceive_quiet (port : Nat) (data : List Byte) (marks : FrameMarks) (s : State) : Res.quiet s (execFrameReceive port data marks s) := by
  unfold execFrameReceive; simp +contextual (maxDischargeDepth := 64)
@[simp] theorem execPfcRepeat_quiet (port prio : Nat) (s : State) : Res.quiet s (execPfcRepeat port prio s) := by
  unfold execPfcRepeat; simp +contextual (maxDischargeDepth := 64)
@[simp] theorem State.pfcEnClear_mem (s : State) (n : Nat) : (State.pfcEnClear s n).mem = s.mem := by
  unfold State.pfcEnClear; simp +contextual (maxDischargeDepth := 64)
@[simp] theorem State.pfcEnClear_pending (s : State) (n : Nat) : (State.pfcEnClear s n).pending = s.pending := by
  unfold State.pfcEnClear; simp +contextual (maxDischargeDepth := 64)
@[simp] theorem State.pfcEnClear_canonical (s : State) (n : Nat) (hs : s.canonical = true) : (State.pfcEnClear s n).canonical = true := by
  unfold State.pfcEnClear; simp +contextual (maxDischargeDepth := 64) [hs]
@[simp] theorem State.pfcEnClearWrite_mem (s : State) (n : Nat) : (State.pfcEnClearWrite s n).mem = s.mem := by
  unfold State.pfcEnClearWrite; simp +contextual (maxDischargeDepth := 64)
@[simp] theorem State.pfcEnClearWrite_pending (s : State) (n : Nat) : (State.pfcEnClearWrite s n).pending = s.pending := by
  unfold State.pfcEnClearWrite; simp +contextual (maxDischargeDepth := 64)
@[simp] theorem State.pfcEnClearWrite_canonical (s : State) (n : Nat) (hs : s.canonical = true) : (State.pfcEnClearWrite s n).canonical = true := by
  unfold State.pfcEnClearWrite; simp +contextual (maxDischargeDepth := 64) [hs]
@[simp] theorem execEthPfcEnClear_quiet (port prio : Nat) (s : State) : Res.quiet s (execEthPfcEnClear port prio s) := by
  unfold execEthPfcEnClear; simp +contextual (maxDischargeDepth := 64)
@[simp] theorem State.pauseClass_mem (s : State) (p c quanta : Nat) : (State.pauseClass s p c quanta).mem = s.mem := by
  unfold State.pauseClass; simp +contextual (maxDischargeDepth := 64)
@[simp] theorem State.pauseClass_pending (s : State) (p c quanta : Nat) : (State.pauseClass s p c quanta).pending = s.pending := by
  unfold State.pauseClass; simp +contextual (maxDischargeDepth := 64)
@[simp] theorem State.pauseClass_canonical (s : State) (p c quanta : Nat) (hs : s.canonical = true) : (State.pauseClass s p c quanta).canonical = true := by
  unfold State.pauseClass; simp +contextual (maxDischargeDepth := 64) [hs]
@[simp] theorem execPfcFrameReceived_quiet (port enable : Nat) (times : List Nat) (s : State) : Res.quiet s (execPfcFrameReceived port enable times s) := by
  unfold execPfcFrameReceived; simp +contextual (maxDischargeDepth := 64)
@[simp] theorem execPfcPauseExpiry_quiet (port prio : Nat) (s : State) : Res.quiet s (execPfcPauseExpiry port prio s) := by
  unfold execPfcPauseExpiry; simp +contextual (maxDischargeDepth := 64)

end Sys2Proof.Machine
end

