-- ==== Sys2Proof/Laws/KeepHifOps.lean ====
section
/-! SUPPORT. Machine/HifOps.lean: what each of its operations keeps (memory where it stores nothing, the queue, the
canonical form of the stores). -/

namespace Sys2Proof.Machine

set_option linter.all false
set_option Elab.async false

@[simp] theorem State.setHq_mem (s : State) (g : Nat) (q : HifQueue) : (State.setHq s g q).mem = s.mem := by
  unfold State.setHq; simp +contextual (maxDischargeDepth := 64)
@[simp] theorem State.setHq_pending (s : State) (g : Nat) (q : HifQueue) : (State.setHq s g q).pending = s.pending := by
  unfold State.setHq; simp +contextual (maxDischargeDepth := 64)
@[simp] theorem State.setHq_canonical (s : State) (g : Nat) (q : HifQueue) (hs : s.canonical = true) : (State.setHq s g q).canonical = true := by
  unfold State.setHq; simp +contextual (maxDischargeDepth := 64) [hs]
@[simp] theorem State.fnError_mem (s : State) (f code queue : Nat) : (State.fnError s f code queue).mem = s.mem := by
  unfold State.fnError; simp +contextual (maxDischargeDepth := 64)
@[simp] theorem State.fnError_pending (s : State) (f code queue : Nat) : (State.fnError s f code queue).pending = s.pending := by
  unfold State.fnError; simp +contextual (maxDischargeDepth := 64)
@[simp] theorem State.fnError_canonical (s : State) (f code queue : Nat) (hs : s.canonical = true) : (State.fnError s f code queue).canonical = true := by
  unfold State.fnError; simp +contextual (maxDischargeDepth := 64) [hs]
@[simp] theorem State.hqInterrupt_mem (s : State) (g : Nat) : (State.hqInterrupt s g).mem = s.mem := by
  unfold State.hqInterrupt; simp +contextual (maxDischargeDepth := 64)
@[simp] theorem State.hqInterrupt_pending (s : State) (g : Nat) : (State.hqInterrupt s g).pending = s.pending := by
  unfold State.hqInterrupt; simp +contextual (maxDischargeDepth := 64)
@[simp] theorem State.hqInterrupt_canonical (s : State) (g : Nat) (hs : s.canonical = true) : (State.hqInterrupt s g).canonical = true := by
  unfold State.hqInterrupt; simp +contextual (maxDischargeDepth := 64) [hs]
@[simp] theorem State.hqModerate_mem (s : State) (g : Nat) : (State.hqModerate s g).mem = s.mem := by
  unfold State.hqModerate; simp +contextual (maxDischargeDepth := 64)
@[simp] theorem State.hqModerate_pending (s : State) (g : Nat) : (State.hqModerate s g).pending = s.pending := by
  unfold State.hqModerate; simp +contextual (maxDischargeDepth := 64)
@[simp] theorem State.hqModerate_canonical (s : State) (g : Nat) (hs : s.canonical = true) : (State.hqModerate s g).canonical = true := by
  unfold State.hqModerate; simp +contextual (maxDischargeDepth := 64) [hs]
@[simp] theorem State.cqWrite_pending (s : State) (g : Nat) (words : List Word) : (State.cqWrite s g words).2.pending = s.pending := by
  unfold State.cqWrite; (repeat' (first | extract_lets | split)) <;> first
    | rfl
    | (first | (simp +contextual (maxDischargeDepth := 64) only [↓State.dmaWrite_pending, ↓State.setHq_pending]; done) | (simp +contextual (maxDischargeDepth := 64) [↓State.dmaWrite_pending, ↓State.setHq_pending]; done))
    | (have k1 := State.dmaWrite_keeps (by assumption); first | (simp +contextual (maxDischargeDepth := 64) only [k1.1, k1.2, ↓State.dmaWrite_pending, ↓State.setHq_pending]; done) | (simp +contextual (maxDischargeDepth := 64) [k1.1, k1.2, ↓State.dmaWrite_pending, ↓State.setHq_pending]; done))
@[simp] theorem State.cqWrite_canonical (s : State) (g : Nat) (words : List Word) (hs : s.canonical = true) : (State.cqWrite s g words).2.canonical = true := by
  unfold State.cqWrite; (repeat' (first | extract_lets | split)) <;> first
    | rfl
    | (first | (simp +contextual (maxDischargeDepth := 64) only [↓State.dmaWrite_canonical, ↓State.setHq_canonical, hs]; done) | (simp +contextual (maxDischargeDepth := 64) [↓State.dmaWrite_canonical, ↓State.setHq_canonical, hs]; done))
    | (have k1 := State.dmaWrite_keeps (by assumption); first | (simp +contextual (maxDischargeDepth := 64) only [k1.1, k1.2, ↓State.dmaWrite_canonical, ↓State.setHq_canonical, hs]; done) | (simp +contextual (maxDischargeDepth := 64) [k1.1, k1.2, ↓State.dmaWrite_canonical, ↓State.setHq_canonical, hs]; done))
theorem State.cqWrite_keeps {s : State} {g : Nat} {words : List Word} {r0 r1} (hx : State.cqWrite s g words = (r0, r1)) : r1.pending = s.pending ∧ (s.canonical = true → r1.canonical = true) := by
  have pending' := State.cqWrite_pending s g words
  rw [hx] at pending'
  have canonical' := fun hs => State.cqWrite_canonical s g words hs
  rw [hx] at canonical'
  exact ⟨pending', canonical'⟩
@[simp] theorem State.hqErrorBase_pending (s : State) (g code : Nat) (entry : Bool) : (State.hqErrorBase s g code entry).pending = s.pending := by
  unfold State.hqErrorBase; simp +contextual (maxDischargeDepth := 64)
@[simp] theorem State.hqErrorBase_canonical (s : State) (g code : Nat) (entry : Bool) (hs : s.canonical = true) : (State.hqErrorBase s g code entry).canonical = true := by
  unfold State.hqErrorBase; simp +contextual (maxDischargeDepth := 64) [hs]
@[simp] theorem State.hqComplete_pending (s : State) (g : Nat) (words : List Word) : (State.hqComplete s g words).pending = s.pending := by
  unfold State.hqComplete; simp +contextual (maxDischargeDepth := 64)
@[simp] theorem State.hqComplete_canonical (s : State) (g : Nat) (words : List Word) (hs : s.canonical = true) : (State.hqComplete s g words).canonical = true := by
  unfold State.hqComplete; simp +contextual (maxDischargeDepth := 64) [hs]
theorem State.hqRead_kept (s : State) (g iova n : Nat) : Keeps s (s.hqRead g iova n) := by
  unfold State.hqRead
  dsimp only
  split
  · exact .of (by simp) (fun h => by simp [h])
  · split
    · next h => exact (Keeps.via h (State.dmaOut_kept ..)).trans (.of (by simp) (fun h => by simp [h]))
    · next h =>
      have k := Keeps.via h (State.dmaOut_kept ..)
      split
      · next h2 => exact k.trans (Keeps.via h2 (.of (by simp) (fun h => by simp [h])))
      · next h2 =>
        exact (k.trans (Keeps.via h2 (.of (by simp) (fun h => by simp [h])))).trans (.of (by simp) (fun h => by simp [h]))
@[simp] theorem State.hqRead_pending (s : State) (g iova n : Nat) : (State.hqRead s g iova n).pending = s.pending :=
  (State.hqRead_kept ..).1
@[simp] theorem State.hqRead_canonical (s : State) (g iova n : Nat) (hs : s.canonical = true) : (State.hqRead s g iova n).canonical = true :=
  (State.hqRead_kept ..).2 hs
@[simp] theorem State.hqFinish_mem (s : State) (g : Nat) (y : HifFetch) : (State.hqFinish s g y).mem = s.mem := by
  unfold State.hqFinish; (try simp only []); (repeat' split) <;> simp +contextual (maxDischargeDepth := 64)
@[simp] theorem State.hqFinish_pending (s : State) (g : Nat) (y : HifFetch) : (State.hqFinish s g y).pending = s.pending := by
  unfold State.hqFinish; (try simp only []); (repeat' split) <;> simp +contextual (maxDischargeDepth := 64)
@[simp] theorem State.hqFinish_canonical (s : State) (g : Nat) (y : HifFetch) (hs : s.canonical = true) : (State.hqFinish s g y).canonical = true := by
  unfold State.hqFinish; (try simp only []); (repeat' split) <;> simp +contextual (maxDischargeDepth := 64) [hs]
@[simp] theorem State.hqSegment_pending (s : State) (g : Nat) (x : HifFetch) : (State.hqSegment s g x).pending = s.pending := by
  unfold State.hqSegment; (try simp only []); (repeat' split) <;> simp +contextual (maxDischargeDepth := 64)
@[simp] theorem State.hqSegment_canonical (s : State) (g : Nat) (x : HifFetch) (hs : s.canonical = true) : (State.hqSegment s g x).canonical = true := by
  unfold State.hqSegment; (try simp only []); (repeat' split) <;> simp +contextual (maxDischargeDepth := 64) [hs]
@[simp] theorem State.hqBody_pending (s : State) (g : Nat) (x : HifFetch) : (State.hqBody s g x).pending = s.pending := by
  unfold State.hqBody; (try simp only []); (repeat' split) <;> simp +contextual (maxDischargeDepth := 64)
@[simp] theorem State.hqBody_canonical (s : State) (g : Nat) (x : HifFetch) (hs : s.canonical = true) : (State.hqBody s g x).canonical = true := by
  unfold State.hqBody; (try simp only []); (repeat' split) <;> simp +contextual (maxDischargeDepth := 64) [hs]
@[simp] theorem State.hqAdvance_pending (s : State) (g : Nat) : (State.hqAdvance s g).pending = s.pending := by
  unfold State.hqAdvance; (repeat' (first | extract_lets | split)) <;> first
    | rfl
    | (first | (simp +contextual (maxDischargeDepth := 64) only [↓State.hqErrorBase_pending, ↓State.hqRead_pending, ↓State.setHq_pending]; done) | (simp +contextual (maxDischargeDepth := 64) [↓State.hqErrorBase_pending, ↓State.hqRead_pending, ↓State.setHq_pending]; done))
@[simp] theorem State.hqAdvance_canonical (s : State) (g : Nat) (hs : s.canonical = true) : (State.hqAdvance s g).canonical = true := by
  unfold State.hqAdvance; (try simp only []); (repeat' split) <;> simp +contextual (maxDischargeDepth := 64) [hs]
@[simp] theorem State.hqDelivered_pending (s : State) (g : Nat) (data : List Byte) : (State.hqDelivered s g data).pending = s.pending := by
  unfold State.hqDelivered; (try extract_lets); (repeat' split) <;> first | simp +contextual (maxDischargeDepth := 64) only [↓State.hqAdvance_pending, ↓State.setHq_pending] | simp +contextual +zetaDelta (maxDischargeDepth := 64) [↓State.hqAdvance_pending, ↓State.setHq_pending]
@[simp] theorem State.hqDelivered_canonical (s : State) (g : Nat) (data : List Byte) (hs : s.canonical = true) : (State.hqDelivered s g data).canonical = true := by
  unfold State.hqDelivered; (try simp only []); (repeat' split) <;> simp +contextual (maxDischargeDepth := 64) [hs]
@[simp] theorem State.sendComplete_pending (s : State) (g index status flags tb : Nat) (cookie time : Word) : (State.sendComplete s g index status flags tb cookie time).pending = s.pending := by
  unfold State.sendComplete; simp +contextual (maxDischargeDepth := 64)
@[simp] theorem State.sendComplete_canonical (s : State) (g index status flags tb : Nat) (cookie time : Word) (hs : s.canonical = true) : (State.sendComplete s g index status flags tb cookie time).canonical = true := by
  unfold State.sendComplete; simp +contextual (maxDischargeDepth := 64) [hs]
@[simp] theorem State.consumeSlots_mem (s : State) (g : Nat) (b : List Byte) : (State.consumeSlots s g b).mem = s.mem := by
  unfold State.consumeSlots; simp +contextual (maxDischargeDepth := 64)
@[simp] theorem State.consumeSlots_pending (s : State) (g : Nat) (b : List Byte) : (State.consumeSlots s g b).pending = s.pending := by
  unfold State.consumeSlots; simp +contextual (maxDischargeDepth := 64)
@[simp] theorem State.consumeSlots_canonical (s : State) (g : Nat) (b : List Byte) (hs : s.canonical = true) : (State.consumeSlots s g b).canonical = true := by
  unfold State.consumeSlots; simp +contextual (maxDischargeDepth := 64) [hs]
@[simp] theorem State.pickTsTag_mem (s : State) (e : Nat) : (State.pickTsTag s e).2.mem = s.mem := by
  unfold State.pickTsTag; simp +contextual (maxDischargeDepth := 64)
@[simp] theorem State.pickTsTag_pending (s : State) (e : Nat) : (State.pickTsTag s e).2.pending = s.pending := by
  unfold State.pickTsTag; simp +contextual (maxDischargeDepth := 64)
@[simp] theorem State.pickTsTag_canonical (s : State) (e : Nat) (hs : s.canonical = true) : (State.pickTsTag s e).2.canonical = true := by
  unfold State.pickTsTag; simp +contextual (maxDischargeDepth := 64) [hs]
theorem State.pickTsTag_keeps {s : State} {e : Nat} {r0 r1} (hx : State.pickTsTag s e = (r0, r1)) : r1.pending = s.pending ∧ (s.canonical = true → r1.canonical = true) ∧ r1.mem = s.mem := by
  have pending' := State.pickTsTag_pending s e
  rw [hx] at pending'
  have canonical' := fun hs => State.pickTsTag_canonical s e hs
  rw [hx] at canonical'
  have mem' := State.pickTsTag_mem s e
  rw [hx] at mem'
  exact ⟨pending', canonical', mem'⟩
@[simp] theorem State.beginTsWait_mem (s : State) (g index status : Nat) (cookie : Word) : (State.beginTsWait s g index status cookie).2.mem = s.mem := by
  unfold State.beginTsWait; simp
@[simp] theorem State.beginTsWait_pending (s : State) (g index status : Nat) (cookie : Word) : (State.beginTsWait s g index status cookie).2.pending = s.pending := by
  unfold State.beginTsWait; simp
@[simp] theorem State.beginTsWait_canonical (s : State) (g index status : Nat) (cookie : Word) (hs : s.canonical = true) : (State.beginTsWait s g index status cookie).2.canonical = true := by
  unfold State.beginTsWait; simp [hs]
@[simp] theorem State.dropWaits_mem (s : State) (g : Nat) : (State.dropWaits s g).mem = s.mem := by
  unfold State.dropWaits; (try simp only []); (repeat' split) <;> simp +contextual (maxDischargeDepth := 64)
@[simp] theorem State.dropWaits_pending (s : State) (g : Nat) : (State.dropWaits s g).pending = s.pending := by
  unfold State.dropWaits; (try simp only []); (repeat' split) <;> simp +contextual (maxDischargeDepth := 64)
@[simp] theorem State.dropWaits_canonical (s : State) (g : Nat) (hs : s.canonical = true) : (State.dropWaits s g).canonical = true := by
  unfold State.dropWaits; (try simp only []); (repeat' split) <;> simp +contextual (maxDischargeDepth := 64) [hs]
@[simp] theorem State.presentFrame_pending (s : State) (g : Nat) (x : HifFetch) : (State.presentFrame s g x).pending = s.pending := by
  unfold State.presentFrame; simp +contextual (maxDischargeDepth := 64)
@[simp] theorem State.presentFrame_canonical (s : State) (g : Nat) (x : HifFetch) (hs : s.canonical = true) : (State.presentFrame s g x).canonical = true := by
  unfold State.presentFrame; simp +contextual (maxDischargeDepth := 64) [hs]
@[simp] theorem State.plainDone_pending (s : State) (g index status : Nat) (x : HifFetch) : (State.plainDone s g index status x).pending = s.pending := by
  unfold State.plainDone; (try simp only []); (repeat' split) <;> simp +contextual (maxDischargeDepth := 64)
@[simp] theorem State.plainDone_canonical (s : State) (g index status : Nat) (x : HifFetch) (hs : s.canonical = true) : (State.plainDone s g index status x).canonical = true := by
  unfold State.plainDone; (try simp only []); (repeat' split) <;> simp +contextual (maxDischargeDepth := 64) [hs]
@[simp] theorem State.sendMessage_pending (s : State) (g : Nat) (x : HifFetch) : (State.sendMessage s g x).pending = s.pending := by
  unfold State.sendMessage; (try simp only []); (repeat' split) <;> simp +contextual (maxDischargeDepth := 64)
@[simp] theorem State.sendMessage_canonical (s : State) (g : Nat) (x : HifFetch) (hs : s.canonical = true) : (State.sendMessage s g x).canonical = true := by
  unfold State.sendMessage; (try simp only []); (repeat' split) <;> simp +contextual (maxDischargeDepth := 64) [hs]
@[simp] theorem State.nopDone_pending (s : State) (g : Nat) (x : HifFetch) : (State.nopDone s g x).pending = s.pending := by
  unfold State.nopDone; (try simp only []); (repeat' split) <;> simp +contextual (maxDischargeDepth := 64)
@[simp] theorem State.nopDone_canonical (s : State) (g : Nat) (x : HifFetch) (hs : s.canonical = true) : (State.nopDone s g x).canonical = true := by
  unfold State.nopDone; (try simp only []); (repeat' split) <;> simp +contextual (maxDischargeDepth := 64) [hs]
@[simp] theorem State.wholeDone_pending (s : State) (g : Nat) (x : HifFetch) : (State.wholeDone s g x).pending = s.pending := by
  unfold State.wholeDone; (try simp only []); (repeat' split) <;> simp +contextual (maxDischargeDepth := 64)
@[simp] theorem State.wholeDone_canonical (s : State) (g : Nat) (x : HifFetch) (hs : s.canonical = true) : (State.wholeDone s g x).canonical = true := by
  unfold State.wholeDone; (try simp only []); (repeat' split) <;> simp +contextual (maxDischargeDepth := 64) [hs]
@[simp] theorem State.flushWhole_pending (s : State) (g : Nat) : (State.flushWhole s g).pending = s.pending := by
  unfold State.flushWhole; (try simp only []); (repeat' split) <;> simp +contextual (maxDischargeDepth := 64)
@[simp] theorem State.flushWhole_canonical (s : State) (g : Nat) (hs : s.canonical = true) : (State.flushWhole s g).canonical = true := by
  unfold State.flushWhole; (try simp only []); (repeat' split) <;> simp +contextual (maxDischargeDepth := 64) [hs]
@[simp] theorem State.hqErr_pending (s : State) (g code : Nat) (entry : Bool) : (State.hqErr s g code entry).pending = s.pending := by
  unfold State.hqErr; (try simp only []); (repeat' split) <;> simp +contextual (maxDischargeDepth := 64)
@[simp] theorem State.hqErr_canonical (s : State) (g code : Nat) (entry : Bool) (hs : s.canonical = true) : (State.hqErr s g code entry).canonical = true := by
  unfold State.hqErr; (try extract_lets); (repeat' split) <;> first | simp +contextual (maxDischargeDepth := 64) only [↓State.hqErrorBase_canonical, ↓State.presentFrame_canonical, hs] | simp +contextual +zetaDelta (maxDischargeDepth := 64) [↓State.hqErrorBase_canonical, ↓State.presentFrame_canonical, hs]
@[simp] theorem State.hqStateEcc_pending (s : State) (g : Nat) (ecc : EccResult) : (State.hqStateEcc s g ecc).pending = s.pending := by
  unfold State.hqStateEcc; (try simp only []); (repeat' split) <;> simp +contextual (maxDischargeDepth := 64)
@[simp] theorem State.hqStateEcc_canonical (s : State) (g : Nat) (ecc : EccResult) (hs : s.canonical = true) : (State.hqStateEcc s g ecc).canonical = true := by
  unfold State.hqStateEcc; (try simp only []); (repeat' split) <;> simp +contextual (maxDischargeDepth := 64) [hs]
@[simp] theorem State.hqResetQueue_mem (s : State) (g : Nat) : (State.hqResetQueue s g).mem = s.mem := by
  unfold State.hqResetQueue; simp +contextual (maxDischargeDepth := 64)
@[simp] theorem State.hqResetQueue_pending (s : State) (g : Nat) : (State.hqResetQueue s g).pending = s.pending := by
  unfold State.hqResetQueue; simp +contextual (maxDischargeDepth := 64)
@[simp] theorem State.hqResetQueue_canonical (s : State) (g : Nat) (hs : s.canonical = true) : (State.hqResetQueue s g).canonical = true := by
  unfold State.hqResetQueue; simp +contextual (maxDischargeDepth := 64) [hs]
@[simp] theorem State.rssReset_mem (s : State) (f : Nat) : (State.rssReset s f).mem = s.mem := by
  unfold State.rssReset; simp +contextual (maxDischargeDepth := 64)
@[simp] theorem State.rssReset_pending (s : State) (f : Nat) : (State.rssReset s f).pending = s.pending := by
  unfold State.rssReset; simp +contextual (maxDischargeDepth := 64)
@[simp] theorem State.rssReset_canonical (s : State) (f : Nat) (hs : s.canonical = true) : (State.rssReset s f).canonical = true := by
  unfold State.rssReset; simp +contextual (maxDischargeDepth := 64) [hs]
@[simp] theorem State.hifFnReset_mem (s : State) (f : Nat) : (State.hifFnReset s f).mem = s.mem := by
  unfold State.hifFnReset; simp +contextual (maxDischargeDepth := 64)
@[simp] theorem State.hifFnReset_pending (s : State) (f : Nat) : (State.hifFnReset s f).pending = s.pending := by
  unfold State.hifFnReset; simp +contextual (maxDischargeDepth := 64)
@[simp] theorem State.hifFnReset_canonical (s : State) (f : Nat) (hs : s.canonical = true) : (State.hifFnReset s f).canonical = true := by
  unfold State.hifFnReset; simp +contextual (maxDischargeDepth := 64) [hs]
@[simp] theorem State.hifBusMasterOff_pending (s : State) (f : Nat) : (State.hifBusMasterOff s f).pending = s.pending := by
  unfold State.hifBusMasterOff; simp +contextual (maxDischargeDepth := 64)
@[simp] theorem State.hifBusMasterOff_canonical (s : State) (f : Nat) (hs : s.canonical = true) : (State.hifBusMasterOff s f).canonical = true := by
  unfold State.hifBusMasterOff; simp +contextual (maxDischargeDepth := 64) [hs]
@[simp] theorem State.hifWicket_pending (s : State) : (State.hifWicket s).pending = s.pending := by
  unfold State.hifWicket; simp +contextual (maxDischargeDepth := 64)
@[simp] theorem State.hifWicket_canonical (s : State) (hs : s.canonical = true) : (State.hifWicket s).canonical = true := by
  unfold State.hifWicket; simp +contextual (maxDischargeDepth := 64) [hs]

end Sys2Proof.Machine
end

