-- ==== Sys2Proof/Laws/KeepHif.lean ====
section
/-! SUPPORT. Machine/Hif.lean: what each of its operations keeps (memory where it stores nothing, the queue, the
canonical form of the stores). -/

namespace Sys2Proof.Machine

set_option linter.all false
set_option Elab.async false

@[simp] theorem State.hqAccess_mem (s : State) (g : Nat) (act : State) (ha_act : (act).mem = s.mem) : (State.hqAccess s g act).mem = s.mem := by
  unfold State.hqAccess; simp +contextual (maxDischargeDepth := 64) [ha_act]
@[simp] theorem State.hqAccess_pending (s : State) (g : Nat) (act : State) (ha_act : (act).pending = s.pending) : (State.hqAccess s g act).pending = s.pending := by
  unfold State.hqAccess; simp +contextual (maxDischargeDepth := 64) [ha_act]
@[simp] theorem State.hqAccess_canonical (s : State) (g : Nat) (act : State) (ha_act : (act).canonical = true) (hs : s.canonical = true) : (State.hqAccess s g act).canonical = true := by
  unfold State.hqAccess; simp +contextual (maxDischargeDepth := 64) [ha_act, hs]
@[simp] theorem State.hqEnable_mem (s : State) (g : Nat) : (State.hqEnable s g).mem = s.mem := by
  unfold State.hqEnable; simp +contextual (maxDischargeDepth := 64)
@[simp] theorem State.hqEnable_pending (s : State) (g : Nat) : (State.hqEnable s g).pending = s.pending := by
  unfold State.hqEnable; simp +contextual (maxDischargeDepth := 64)
@[simp] theorem State.hqEnable_canonical (s : State) (g : Nat) (hs : s.canonical = true) : (State.hqEnable s g).canonical = true := by
  unfold State.hqEnable; simp +contextual (maxDischargeDepth := 64) [hs]
@[simp] theorem State.hqDisable_pending (s : State) (g : Nat) : (State.hqDisable s g).pending = s.pending := by
  unfold State.hqDisable; (try simp only []); (repeat' split) <;> simp +contextual (maxDischargeDepth := 64)
@[simp] theorem State.hqDisable_canonical (s : State) (g : Nat) (hs : s.canonical = true) : (State.hqDisable s g).canonical = true := by
  unfold State.hqDisable; (try simp only []); (repeat' split) <;> simp +contextual (maxDischargeDepth := 64) [hs]
@[simp] theorem State.hqStopped_mem (s : State) (g : Nat) : (State.hqStopped s g).mem = s.mem := by
  unfold State.hqStopped; simp +contextual (maxDischargeDepth := 64)
@[simp] theorem State.hqStopped_pending (s : State) (g : Nat) : (State.hqStopped s g).pending = s.pending := by
  unfold State.hqStopped; simp +contextual (maxDischargeDepth := 64)
@[simp] theorem State.hqStopped_canonical (s : State) (g : Nat) (hs : s.canonical = true) : (State.hqStopped s g).canonical = true := by
  unfold State.hqStopped; simp +contextual (maxDischargeDepth := 64) [hs]
@[simp] theorem execQueueEnable_quiet (queue : Nat) (s : State) : Res.quiet s (execQueueEnable queue s) := by
  unfold execQueueEnable; simp +contextual (maxDischargeDepth := 64)
@[simp] theorem execQueueDisable_stays (queue : Nat) (s : State) : Res.stays s (execQueueDisable queue s) := by
  unfold execQueueDisable; simp +contextual (maxDischargeDepth := 64)
@[simp] theorem execQueueStopped_quiet (queue : Nat) (s : State) : Res.quiet s (execQueueStopped queue s) := by
  unfold execQueueStopped; simp +contextual (maxDischargeDepth := 64)
@[simp] theorem State.hqRing_pending (s : State) (g which : Nat) (v : Word) : (State.hqRing s g which v).pending = s.pending := by
  unfold State.hqRing; simp +contextual (maxDischargeDepth := 64)
@[simp] theorem State.hqRing_canonical (s : State) (g which : Nat) (v : Word) (hs : s.canonical = true) : (State.hqRing s g which v).canonical = true := by
  unfold State.hqRing; simp +contextual (maxDischargeDepth := 64) [hs]
@[simp] theorem State.wakeFor_mem (s : State) (ep : Nat) : (State.wakeFor s ep).mem = s.mem := by
  unfold State.wakeFor; simp +contextual (maxDischargeDepth := 64)
@[simp] theorem State.wakeFor_pending (s : State) (ep : Nat) : (State.wakeFor s ep).pending = s.pending := by
  unfold State.wakeFor; simp +contextual (maxDischargeDepth := 64)
@[simp] theorem State.wakeFor_canonical (s : State) (ep : Nat) (hs : s.canonical = true) : (State.wakeFor s ep).canonical = true := by
  unfold State.wakeFor; simp +contextual (maxDischargeDepth := 64) [hs]
@[simp] theorem State.hqDoorbell_pending (s : State) (g which : Nat) (v : Word) : (State.hqDoorbell s g which v).pending = s.pending := by
  unfold State.hqDoorbell; simp +contextual (maxDischargeDepth := 64)
@[simp] theorem State.hqDoorbell_canonical (s : State) (g which : Nat) (v : Word) (hs : s.canonical = true) : (State.hqDoorbell s g which v).canonical = true := by
  unfold State.hqDoorbell; simp +contextual (maxDischargeDepth := 64) [hs]
@[simp] theorem State.hqHeldApply_pending (s : State) : (State.hqHeldApply s).pending = s.pending := by
  unfold State.hqHeldApply; simp +contextual (maxDischargeDepth := 64)
@[simp] theorem State.hqHeldApply_canonical (s : State) (hs : s.canonical = true) : (State.hqHeldApply s).canonical = true := by
  unfold State.hqHeldApply; simp +contextual (maxDischargeDepth := 64) [hs]
@[simp] theorem execHifDbSq_stays (queue : Nat) (value : Word) (s : State) : Res.stays s (execHifDbSq queue value s) := by
  unfold execHifDbSq; simp +contextual (maxDischargeDepth := 64)
@[simp] theorem execHifDbRq_stays (queue : Nat) (value : Word) (s : State) : Res.stays s (execHifDbRq queue value s) := by
  unfold execHifDbRq; simp +contextual (maxDischargeDepth := 64)
@[simp] theorem execHifDbCq_stays (queue : Nat) (value : Word) (s : State) : Res.stays s (execHifDbCq queue value s) := by
  unfold execHifDbCq; simp +contextual (maxDischargeDepth := 64)
@[simp] theorem State.beginFetch_pending (s : State) (g : Nat) : (State.beginFetch s g).pending = s.pending := by
  unfold State.beginFetch; simp
@[simp] theorem State.beginFetch_canonical (s : State) (g : Nat) (hs : s.canonical = true) : (State.beginFetch s g).canonical = true := by
  unfold State.beginFetch; simp [hs]
@[simp] theorem execSendFrameFetch_stays (read : QueueRead) (s0 : State) : Res.stays s0 (execSendFrameFetch read s0) := by
  unfold execSendFrameFetch; (try simp only []); (repeat' split) <;> simp +contextual (maxDischargeDepth := 64)
@[simp] theorem execDescSend_stays (queue : Nat) (s : State) : Res.stays s (execDescSend queue s) := by
  unfold execDescSend; (try extract_lets); (repeat' split) <;> first | simp +contextual (maxDischargeDepth := 64) only [↓State.presentFrame_canonical, ↓State.presentFrame_pending, Res.quiet_next, Res.stays_next, and_self, true_and, implies_true, imp_self] | simp +contextual +zetaDelta (maxDischargeDepth := 64) [↓State.presentFrame_canonical, ↓State.presentFrame_pending]
@[simp] theorem execDescSendInline_stays (queue : Nat) (s : State) : Res.stays s (execDescSendInline queue s) := by
  unfold execDescSendInline; (try extract_lets); (repeat' split) <;> first | simp +contextual (maxDischargeDepth := 64) only [↓State.presentFrame_canonical, ↓State.presentFrame_pending, Res.quiet_next, Res.stays_next, and_self, true_and, implies_true, imp_self] | simp +contextual +zetaDelta (maxDischargeDepth := 64) [↓State.presentFrame_canonical, ↓State.presentFrame_pending]
@[simp] theorem execSendCarrier_stays (queue : Nat) (s : State) : Res.stays s (execSendCarrier queue s) := by
  unfold execSendCarrier; (try simp only []); (repeat' split) <;> simp +contextual (maxDischargeDepth := 64)
@[simp] theorem execDescNop_stays (queue : Nat) (s : State) : Res.stays s (execDescNop queue s) := by
  unfold execDescNop; (try simp only []); (repeat' split) <;> simp +contextual (maxDischargeDepth := 64)
@[simp] theorem State.dropWait_mem (s : State) (engine tag : Nat) : (State.dropWait s engine tag).mem = s.mem := by
  unfold State.dropWait; simp +contextual (maxDischargeDepth := 64)
@[simp] theorem State.dropWait_pending (s : State) (engine tag : Nat) : (State.dropWait s engine tag).pending = s.pending := by
  unfold State.dropWait; simp +contextual (maxDischargeDepth := 64)
@[simp] theorem State.dropWait_canonical (s : State) (engine tag : Nat) (hs : s.canonical = true) : (State.dropWait s engine tag).canonical = true := by
  unfold State.dropWait; simp +contextual (maxDischargeDepth := 64) [hs]
@[simp] theorem State.endTsWait_pending (s : State) (w : TsWait) (status flags tb : Nat) (time : Word) : (State.endTsWait s w status flags tb time).pending = s.pending := by
  unfold State.endTsWait; simp +contextual (maxDischargeDepth := 64)
@[simp] theorem State.endTsWait_canonical (s : State) (w : TsWait) (status flags tb : Nat) (time : Word) (hs : s.canonical = true) : (State.endTsWait s w status flags tb time).canonical = true := by
  unfold State.endTsWait; simp +contextual (maxDischargeDepth := 64) [hs]
@[simp] theorem execTxReportReceive_stays (engine : Nat) (s : State) : Res.stays s (execTxReportReceive engine s) := by
  unfold execTxReportReceive; (try simp only []); (repeat' split) <;> simp +contextual (maxDischargeDepth := 64)
@[simp] theorem execTimestampTimeout_stays (engine tag : Nat) (s : State) : Res.stays s (execTimestampTimeout engine tag s) := by
  unfold execTimestampTimeout; (try extract_lets); (repeat' split) <;> first | simp +contextual (maxDischargeDepth := 64) only [↓State.endTsWait_canonical, ↓State.endTsWait_pending, Res.quiet_next, Res.stays_next, and_self, true_and, implies_true, imp_self] | simp +contextual +zetaDelta (maxDischargeDepth := 64) [↓State.endTsWait_canonical, ↓State.endTsWait_pending]
@[simp] theorem execModerationTimer_quiet (queue : Nat) (s : State) : Res.quiet s (execModerationTimer queue s) := by
  unfold execModerationTimer; simp +contextual (maxDischargeDepth := 64)
@[simp] theorem State.placeReceive_pending (s : State) (g : Nat) (descs : List Byte) (e : DmaEnd) (avail : Nat) (x1 : Nat) (x2 : Nat) (x3 : Nat) (x4 : List Byte) : (State.placeReceive s g descs e avail x1 x2 x3 x4).2.2.2.pending = s.pending := by
  first
  | (induction x1 generalizing s x2 x3 x4 with
    | zero => first | rfl | (unfold State.placeReceive; (repeat' (first | extract_lets | split)) <;> first | rfl | (simp +contextual (maxDischargeDepth := 64) []; done))
    | succ n ih =>
      unfold State.placeReceive; (repeat' (first | extract_lets | split)) <;> first
        | rfl
        | (simp +contextual (maxDischargeDepth := 64) []; done)
        | (simp +contextual (maxDischargeDepth := 64) [ih]; done)
        | (have k1 := State.dmaRead_keeps (by assumption); (simp +contextual (maxDischargeDepth := 64) [k1.1, k1.2, ih]; done))
        | (have k1 := State.dmaWrite_keeps (by assumption); (simp +contextual (maxDischargeDepth := 64) [k1.1, k1.2, ih]; done))
        | (have k1 := State.dmaRead_keeps (by assumption); have k2 := State.dmaWrite_keeps (by assumption); (simp +contextual (maxDischargeDepth := 64) [k1.1, k1.2, k2.1, k2.2, ih]; done))
        | (have k1 := State.dmaWrite_keeps (by assumption); have k2 := State.dmaRead_keeps (by assumption); (simp +contextual (maxDischargeDepth := 64) [k1.1, k1.2, k2.1, k2.2, ih]; done)))
  | (induction x2 generalizing s x1 x3 x4 with
    | zero => first | rfl | (unfold State.placeReceive; (repeat' (first | extract_lets | split)) <;> first | rfl | (simp +contextual (maxDischargeDepth := 64) []; done))
    | succ n ih =>
      unfold State.placeReceive; (repeat' (first | extract_lets | split)) <;> first
        | rfl
        | (simp +contextual (maxDischargeDepth := 64) []; done)
        | (simp +contextual (maxDischargeDepth := 64) [ih]; done)
        | (have k1 := State.dmaRead_keeps (by assumption); (simp +contextual (maxDischargeDepth := 64) [k1.1, k1.2, ih]; done))
        | (have k1 := State.dmaWrite_keeps (by assumption); (simp +contextual (maxDischargeDepth := 64) [k1.1, k1.2, ih]; done))
        | (have k1 := State.dmaRead_keeps (by assumption); have k2 := State.dmaWrite_keeps (by assumption); (simp +contextual (maxDischargeDepth := 64) [k1.1, k1.2, k2.1, k2.2, ih]; done))
        | (have k1 := State.dmaWrite_keeps (by assumption); have k2 := State.dmaRead_keeps (by assumption); (simp +contextual (maxDischargeDepth := 64) [k1.1, k1.2, k2.1, k2.2, ih]; done)))
  | (induction x3 generalizing s x1 x2 x4 with
    | zero => first | rfl | (unfold State.placeReceive; (repeat' (first | extract_lets | split)) <;> first | rfl | (simp +contextual (maxDischargeDepth := 64) []; done))
    | succ n ih =>
      unfold State.placeReceive; (repeat' (first | extract_lets | split)) <;> first
        | rfl
        | (simp +contextual (maxDischargeDepth := 64) []; done)
        | (simp +contextual (maxDischargeDepth := 64) [ih]; done)
        | (have k1 := State.dmaRead_keeps (by assumption); (simp +contextual (maxDischargeDepth := 64) [k1.1, k1.2, ih]; done))
        | (have k1 := State.dmaWrite_keeps (by assumption); (simp +contextual (maxDischargeDepth := 64) [k1.1, k1.2, ih]; done))
        | (have k1 := State.dmaRead_keeps (by assumption); have k2 := State.dmaWrite_keeps (by assumption); (simp +contextual (maxDischargeDepth := 64) [k1.1, k1.2, k2.1, k2.2, ih]; done))
        | (have k1 := State.dmaWrite_keeps (by assumption); have k2 := State.dmaRead_keeps (by assumption); (simp +contextual (maxDischargeDepth := 64) [k1.1, k1.2, k2.1, k2.2, ih]; done)))
  | (induction x4 generalizing s x1 x2 x3 with
    | nil => first | rfl | (unfold State.placeReceive; (repeat' (first | extract_lets | split)) <;> first | rfl | (simp +contextual (maxDischargeDepth := 64) []; done))
    | cons a l ih =>
      unfold State.placeReceive; (repeat' (first | extract_lets | split)) <;> first
        | rfl
        | (simp +contextual (maxDischargeDepth := 64) []; done)
        | (simp +contextual (maxDischargeDepth := 64) [ih]; done)
        | (have k1 := State.dmaRead_keeps (by assumption); (simp +contextual (maxDischargeDepth := 64) [k1.1, k1.2, ih]; done))
        | (have k1 := State.dmaWrite_keeps (by assumption); (simp +contextual (maxDischargeDepth := 64) [k1.1, k1.2, ih]; done))
        | (have k1 := State.dmaRead_keeps (by assumption); have k2 := State.dmaWrite_keeps (by assumption); (simp +contextual (maxDischargeDepth := 64) [k1.1, k1.2, k2.1, k2.2, ih]; done))
        | (have k1 := State.dmaWrite_keeps (by assumption); have k2 := State.dmaRead_keeps (by assumption); (simp +contextual (maxDischargeDepth := 64) [k1.1, k1.2, k2.1, k2.2, ih]; done)))
@[simp] theorem State.placeReceive_canonical (s : State) (g : Nat) (descs : List Byte) (e : DmaEnd) (avail : Nat) (x1 : Nat) (x2 : Nat) (x3 : Nat) (x4 : List Byte) (hs : s.canonical = true) : (State.placeReceive s g descs e avail x1 x2 x3 x4).2.2.2.canonical = true := by
  first
  | (induction x1 generalizing s x2 x3 x4 with
    | zero => first | exact hs | (unfold State.placeReceive; (repeat' (first | extract_lets | split)) <;> first | exact hs | (simp +contextual (maxDischargeDepth := 64) [hs]; done))
    | succ n ih =>
      unfold State.placeReceive; (repeat' (first | extract_lets | split)) <;> first
        | exact hs
        | (simp +contextual (maxDischargeDepth := 64) [hs]; done)
        | (simp +contextual (maxDischargeDepth := 64) [ih, hs]; done)
        | (have k1 := State.dmaRead_keeps (by assumption); (simp +contextual (maxDischargeDepth := 64) [k1.1, k1.2, ih, hs]; done))
        | (have k1 := State.dmaWrite_keeps (by assumption); (simp +contextual (maxDischargeDepth := 64) [k1.1, k1.2, ih, hs]; done))
        | (have k1 := State.dmaRead_keeps (by assumption); have k2 := State.dmaWrite_keeps (by assumption); (simp +contextual (maxDischargeDepth := 64) [k1.1, k1.2, k2.1, k2.2, ih, hs]; done))
        | (have k1 := State.dmaWrite_keeps (by assumption); have k2 := State.dmaRead_keeps (by assumption); (simp +contextual (maxDischargeDepth := 64) [k1.1, k1.2, k2.1, k2.2, ih, hs]; done)))
  | (induction x2 generalizing s x1 x3 x4 with
    | zero => first | exact hs | (unfold State.placeReceive; (repeat' (first | extract_lets | split)) <;> first | exact hs | (simp +contextual (maxDischargeDepth := 64) [hs]; done))
    | succ n ih =>
      unfold State.placeReceive; (repeat' (first | extract_lets | split)) <;> first
        | exact hs
        | (simp +contextual (maxDischargeDepth := 64) [hs]; done)
        | (simp +contextual (maxDischargeDepth := 64) [ih, hs]; done)
        | (have k1 := State.dmaRead_keeps (by assumption); (simp +contextual (maxDischargeDepth := 64) [k1.1, k1.2, ih, hs]; done))
        | (have k1 := State.dmaWrite_keeps (by assumption); (simp +contextual (maxDischargeDepth := 64) [k1.1, k1.2, ih, hs]; done))
        | (have k1 := State.dmaRead_keeps (by assumption); have k2 := State.dmaWrite_keeps (by assumption); (simp +contextual (maxDischargeDepth := 64) [k1.1, k1.2, k2.1, k2.2, ih, hs]; done))
        | (have k1 := State.dmaWrite_keeps (by assumption); have k2 := State.dmaRead_keeps (by assumption); (simp +contextual (maxDischargeDepth := 64) [k1.1, k1.2, k2.1, k2.2, ih, hs]; done)))
  | (induction x3 generalizing s x1 x2 x4 with
    | zero => first | exact hs | (unfold State.placeReceive; (repeat' (first | extract_lets | split)) <;> first | exact hs | (simp +contextual (maxDischargeDepth := 64) [hs]; done))
    | succ n ih =>
      unfold State.placeReceive; (repeat' (first | extract_lets | split)) <;> first
        | exact hs
        | (simp +contextual (maxDischargeDepth := 64) [hs]; done)
        | (simp +contextual (maxDischargeDepth := 64) [ih, hs]; done)
        | (have k1 := State.dmaRead_keeps (by assumption); (simp +contextual (maxDischargeDepth := 64) [k1.1, k1.2, ih, hs]; done))
        | (have k1 := State.dmaWrite_keeps (by assumption); (simp +contextual (maxDischargeDepth := 64) [k1.1, k1.2, ih, hs]; done))
        | (have k1 := State.dmaRead_keeps (by assumption); have k2 := State.dmaWrite_keeps (by assumption); (simp +contextual (maxDischargeDepth := 64) [k1.1, k1.2, k2.1, k2.2, ih, hs]; done))
        | (have k1 := State.dmaWrite_keeps (by assumption); have k2 := State.dmaRead_keeps (by assumption); (simp +contextual (maxDischargeDepth := 64) [k1.1, k1.2, k2.1, k2.2, ih, hs]; done)))
  | (induction x4 generalizing s x1 x2 x3 with
    | nil => first | exact hs | (unfold State.placeReceive; (repeat' (first | extract_lets | split)) <;> first | exact hs | (simp +contextual (maxDischargeDepth := 64) [hs]; done))
    | cons a l ih =>
      unfold State.placeReceive; (repeat' (first | extract_lets | split)) <;> first
        | exact hs
        | (simp +contextual (maxDischargeDepth := 64) [hs]; done)
        | (simp +contextual (maxDischargeDepth := 64) [ih, hs]; done)
        | (have k1 := State.dmaRead_keeps (by assumption); (simp +contextual (maxDischargeDepth := 64) [k1.1, k1.2, ih, hs]; done))
        | (have k1 := State.dmaWrite_keeps (by assumption); (simp +contextual (maxDischargeDepth := 64) [k1.1, k1.2, ih, hs]; done))
        | (have k1 := State.dmaRead_keeps (by assumption); have k2 := State.dmaWrite_keeps (by assumption); (simp +contextual (maxDischargeDepth := 64) [k1.1, k1.2, k2.1, k2.2, ih, hs]; done))
        | (have k1 := State.dmaWrite_keeps (by assumption); have k2 := State.dmaRead_keeps (by assumption); (simp +contextual (maxDischargeDepth := 64) [k1.1, k1.2, k2.1, k2.2, ih, hs]; done)))
theorem State.placeReceive_keeps {s : State} {g : Nat} {descs : List Byte} {e : DmaEnd} {avail : Nat} {x1 : Nat} {x2 : Nat} {x3 : Nat} {x4 : List Byte} {r0 r1 r2 r3} (hx : State.placeReceive s g descs e avail x1 x2 x3 x4 = (r0, r1, r2, r3)) : r3.pending = s.pending ∧ (s.canonical = true → r3.canonical = true) := by
  have pending' := State.placeReceive_pending s g descs e avail x1 x2 x3 x4
  rw [hx] at pending'
  have canonical' := fun hs => State.placeReceive_canonical s g descs e avail x1 x2 x3 x4 hs
  rw [hx] at canonical'
  exact ⟨pending', canonical'⟩
@[simp] theorem State.hqPlaced_pending (s : State) (g : Nat) (m : Packet) (rqCi tb r used placed : Nat) : (State.hqPlaced s g m rqCi tb r used placed).pending = s.pending := by
  unfold State.hqPlaced; simp +contextual (maxDischargeDepth := 64)
@[simp] theorem State.hqPlaced_canonical (s : State) (g : Nat) (m : Packet) (rqCi tb r used placed : Nat) (hs : s.canonical = true) : (State.hqPlaced s g m rqCi tb r used placed).canonical = true := by
  unfold State.hqPlaced; simp +contextual (maxDischargeDepth := 64) [hs]
@[simp] theorem State.hqReceive_pending (s : State) (g : Nat) (m : Packet) (descs : List Byte) (e : DmaEnd) : (State.hqReceive s g m descs e).pending = s.pending := by
  exact (State.hqPlaced_pending _ _ _ _ _ _ _ _).trans (State.placeReceive_pending _ _ _ _ _ _ _ _ _)
@[simp] theorem State.hqReceive_canonical (s : State) (g : Nat) (m : Packet) (descs : List Byte) (e : DmaEnd) (hs : s.canonical = true) : (State.hqReceive s g m descs e).canonical = true := by
  exact State.hqPlaced_canonical _ _ _ _ _ _ _ _ (State.placeReceive_canonical _ _ _ _ _ _ _ _ _ hs)
@[simp] theorem State.hostRefuse_mem (s : State) (ep : Nat) (w : List Word) (status : Nat) : (State.hostRefuse s ep w status).mem = s.mem := by
  unfold State.hostRefuse; simp +contextual (maxDischargeDepth := 64)
@[simp] theorem State.hostRefuse_pending (s : State) (ep : Nat) (w : List Word) (status : Nat) : (State.hostRefuse s ep w status).pending = s.pending := by
  unfold State.hostRefuse; simp +contextual (maxDischargeDepth := 64)
@[simp] theorem State.hostRefuse_canonical (s : State) (ep : Nat) (w : List Word) (status : Nat) (hs : s.canonical = true) : (State.hostRefuse s ep w status).canonical = true := by
  unfold State.hostRefuse; simp +contextual (maxDischargeDepth := 64) [hs]
@[simp] theorem execHifReceive_stays (engine : Nat) (descs : List Byte) (x : SrcRead) (s : State) : Res.stays s (execHifReceive engine descs x s) := by
  unfold execHifReceive; (try simp only []); (repeat' split) <;> simp +contextual (maxDischargeDepth := 64)
theorem State.hostCommand_pending (s : State) (engine op : Nat) {r} (hx : State.hostCommand s engine op = some r) : r.2.pending = s.pending := by
  unfold State.hostCommand at hx; (try simp only [] at hx); (repeat' split at hx) <;> grind [State.setInbox_pending]
theorem State.hostCommand_canonical (s : State) (engine op : Nat) {r} (hx : State.hostCommand s engine op = some r) (hs : s.canonical = true) : r.2.canonical = true := by
  unfold State.hostCommand at hx; (try simp only [] at hx); (repeat' split at hx) <;> grind [State.setInbox_canonical]
theorem State.hostCommand_mem (s : State) (engine op : Nat) {r} (hx : State.hostCommand s engine op = some r) : r.2.mem = s.mem := by
  unfold State.hostCommand at hx; (try simp only [] at hx); (repeat' split at hx) <;> grind [State.setInbox_mem]
theorem State.hostCommand_keeps {s : State} {engine op : Nat} {r0 r1} (hx : State.hostCommand s engine op = some (r0, r1)) : r1.pending = s.pending ∧ (s.canonical = true → r1.canonical = true) ∧ r1.mem = s.mem := by
  exact ⟨State.hostCommand_pending s engine op hx, fun hs => State.hostCommand_canonical s engine op hx hs, State.hostCommand_mem s engine op hx⟩
@[simp] theorem execHostRead_stays (engine : Nat) (data : List Byte) (e : DmaEnd) (s : State) : Res.stays s (execHostRead engine data e s) := by
  unfold execHostRead; (repeat' (first | extract_lets | split)) <;> first
    | rfl
    | (first | (simp +contextual (maxDischargeDepth := 64) only [↓State.complete_canonical, ↓State.complete_mem, ↓State.complete_pending, ↓State.dmaRead_canonical, ↓State.dmaRead_pending, ↓State.hostCommand_canonical, ↓State.hostCommand_mem, ↓State.hostCommand_pending, ↓State.hostRefuse_canonical, ↓State.hostRefuse_mem, ↓State.hostRefuse_pending, Res.quiet_next, Res.stays_next, and_self, true_and, implies_true, imp_self]; done) | (simp +contextual (maxDischargeDepth := 64) [↓State.complete_canonical, ↓State.complete_mem, ↓State.complete_pending, ↓State.dmaRead_canonical, ↓State.dmaRead_pending, ↓State.hostCommand_canonical, ↓State.hostCommand_mem, ↓State.hostCommand_pending, ↓State.hostRefuse_canonical, ↓State.hostRefuse_mem, ↓State.hostRefuse_pending]; done))
    | (have k1 := State.dmaRead_keeps (by assumption); first | (simp +contextual (maxDischargeDepth := 64) only [k1.1, k1.2, ↓State.complete_canonical, ↓State.complete_mem, ↓State.complete_pending, ↓State.dmaRead_canonical, ↓State.dmaRead_pending, ↓State.hostCommand_canonical, ↓State.hostCommand_mem, ↓State.hostCommand_pending, ↓State.hostRefuse_canonical, ↓State.hostRefuse_mem, ↓State.hostRefuse_pending, Res.quiet_next, Res.stays_next, and_self, true_and, implies_true, imp_self]; done) | (simp +contextual (maxDischargeDepth := 64) [k1.1, k1.2, ↓State.complete_canonical, ↓State.complete_mem, ↓State.complete_pending, ↓State.dmaRead_canonical, ↓State.dmaRead_pending, ↓State.hostCommand_canonical, ↓State.hostCommand_mem, ↓State.hostCommand_pending, ↓State.hostRefuse_canonical, ↓State.hostRefuse_mem, ↓State.hostRefuse_pending]; done))
    | (have k1 := State.hostCommand_keeps (by assumption); first | (simp +contextual (maxDischargeDepth := 64) only [k1.1, k1.2, ↓State.complete_canonical, ↓State.complete_mem, ↓State.complete_pending, ↓State.dmaRead_canonical, ↓State.dmaRead_pending, ↓State.hostCommand_canonical, ↓State.hostCommand_mem, ↓State.hostCommand_pending, ↓State.hostRefuse_canonical, ↓State.hostRefuse_mem, ↓State.hostRefuse_pending, Res.quiet_next, Res.stays_next, and_self, true_and, implies_true, imp_self]; done) | (simp +contextual (maxDischargeDepth := 64) [k1.1, k1.2, ↓State.complete_canonical, ↓State.complete_mem, ↓State.complete_pending, ↓State.dmaRead_canonical, ↓State.dmaRead_pending, ↓State.hostCommand_canonical, ↓State.hostCommand_mem, ↓State.hostCommand_pending, ↓State.hostRefuse_canonical, ↓State.hostRefuse_mem, ↓State.hostRefuse_pending]; done))
    | (have k1 := State.dmaRead_keeps (by assumption); have k2 := State.hostCommand_keeps (by assumption); first | (simp +contextual (maxDischargeDepth := 64) only [k1.1, k1.2, k2.1, k2.2, ↓State.complete_canonical, ↓State.complete_mem, ↓State.complete_pending, ↓State.dmaRead_canonical, ↓State.dmaRead_pending, ↓State.hostCommand_canonical, ↓State.hostCommand_mem, ↓State.hostCommand_pending, ↓State.hostRefuse_canonical, ↓State.hostRefuse_mem, ↓State.hostRefuse_pending, Res.quiet_next, Res.stays_next, and_self, true_and, implies_true, imp_self]; done) | (simp +contextual (maxDischargeDepth := 64) [k1.1, k1.2, k2.1, k2.2, ↓State.complete_canonical, ↓State.complete_mem, ↓State.complete_pending, ↓State.dmaRead_canonical, ↓State.dmaRead_pending, ↓State.hostCommand_canonical, ↓State.hostCommand_mem, ↓State.hostCommand_pending, ↓State.hostRefuse_canonical, ↓State.hostRefuse_mem, ↓State.hostRefuse_pending]; done))
    | (have k1 := State.hostCommand_keeps (by assumption); have k2 := State.dmaRead_keeps (by assumption); first | (simp +contextual (maxDischargeDepth := 64) only [k1.1, k1.2, k2.1, k2.2, ↓State.complete_canonical, ↓State.complete_mem, ↓State.complete_pending, ↓State.dmaRead_canonical, ↓State.dmaRead_pending, ↓State.hostCommand_canonical, ↓State.hostCommand_mem, ↓State.hostCommand_pending, ↓State.hostRefuse_canonical, ↓State.hostRefuse_mem, ↓State.hostRefuse_pending, Res.quiet_next, Res.stays_next, and_self, true_and, implies_true, imp_self]; done) | (simp +contextual (maxDischargeDepth := 64) [k1.1, k1.2, k2.1, k2.2, ↓State.complete_canonical, ↓State.complete_mem, ↓State.complete_pending, ↓State.dmaRead_canonical, ↓State.dmaRead_pending, ↓State.hostCommand_canonical, ↓State.hostCommand_mem, ↓State.hostCommand_pending, ↓State.hostRefuse_canonical, ↓State.hostRefuse_mem, ↓State.hostRefuse_pending]; done))
@[simp] theorem execHostWrite_stays (engine : Nat) (s : State) : Res.stays s (execHostWrite engine s) := by
  unfold execHostWrite; (repeat' (first | extract_lets | split)) <;> first
    | rfl
    | (first | (simp +contextual (maxDischargeDepth := 64) only [↓State.complete_canonical, ↓State.complete_mem, ↓State.complete_pending, ↓State.dmaWrite_canonical, ↓State.dmaWrite_pending, ↓State.hostCommand_canonical, ↓State.hostCommand_mem, ↓State.hostCommand_pending, ↓State.hostRefuse_canonical, ↓State.hostRefuse_mem, ↓State.hostRefuse_pending, Res.quiet_next, Res.stays_next, and_self, true_and, implies_true, imp_self]; done) | (simp +contextual (maxDischargeDepth := 64) [↓State.complete_canonical, ↓State.complete_mem, ↓State.complete_pending, ↓State.dmaWrite_canonical, ↓State.dmaWrite_pending, ↓State.hostCommand_canonical, ↓State.hostCommand_mem, ↓State.hostCommand_pending, ↓State.hostRefuse_canonical, ↓State.hostRefuse_mem, ↓State.hostRefuse_pending]; done))
    | (have k1 := State.dmaWrite_keeps (by assumption); first | (simp +contextual (maxDischargeDepth := 64) only [k1.1, k1.2, ↓State.complete_canonical, ↓State.complete_mem, ↓State.complete_pending, ↓State.dmaWrite_canonical, ↓State.dmaWrite_pending, ↓State.hostCommand_canonical, ↓State.hostCommand_mem, ↓State.hostCommand_pending, ↓State.hostRefuse_canonical, ↓State.hostRefuse_mem, ↓State.hostRefuse_pending, Res.quiet_next, Res.stays_next, and_self, true_and, implies_true, imp_self]; done) | (simp +contextual (maxDischargeDepth := 64) [k1.1, k1.2, ↓State.complete_canonical, ↓State.complete_mem, ↓State.complete_pending, ↓State.dmaWrite_canonical, ↓State.dmaWrite_pending, ↓State.hostCommand_canonical, ↓State.hostCommand_mem, ↓State.hostCommand_pending, ↓State.hostRefuse_canonical, ↓State.hostRefuse_mem, ↓State.hostRefuse_pending]; done))
    | (have k1 := State.hostCommand_keeps (by assumption); first | (simp +contextual (maxDischargeDepth := 64) only [k1.1, k1.2, ↓State.complete_canonical, ↓State.complete_mem, ↓State.complete_pending, ↓State.dmaWrite_canonical, ↓State.dmaWrite_pending, ↓State.hostCommand_canonical, ↓State.hostCommand_mem, ↓State.hostCommand_pending, ↓State.hostRefuse_canonical, ↓State.hostRefuse_mem, ↓State.hostRefuse_pending, Res.quiet_next, Res.stays_next, and_self, true_and, implies_true, imp_self]; done) | (simp +contextual (maxDischargeDepth := 64) [k1.1, k1.2, ↓State.complete_canonical, ↓State.complete_mem, ↓State.complete_pending, ↓State.dmaWrite_canonical, ↓State.dmaWrite_pending, ↓State.hostCommand_canonical, ↓State.hostCommand_mem, ↓State.hostCommand_pending, ↓State.hostRefuse_canonical, ↓State.hostRefuse_mem, ↓State.hostRefuse_pending]; done))
    | (have k1 := State.dmaWrite_keeps (by assumption); have k2 := State.hostCommand_keeps (by assumption); first | (simp +contextual (maxDischargeDepth := 64) only [k1.1, k1.2, k2.1, k2.2, ↓State.complete_canonical, ↓State.complete_mem, ↓State.complete_pending, ↓State.dmaWrite_canonical, ↓State.dmaWrite_pending, ↓State.hostCommand_canonical, ↓State.hostCommand_mem, ↓State.hostCommand_pending, ↓State.hostRefuse_canonical, ↓State.hostRefuse_mem, ↓State.hostRefuse_pending, Res.quiet_next, Res.stays_next, and_self, true_and, implies_true, imp_self]; done) | (simp +contextual (maxDischargeDepth := 64) [k1.1, k1.2, k2.1, k2.2, ↓State.complete_canonical, ↓State.complete_mem, ↓State.complete_pending, ↓State.dmaWrite_canonical, ↓State.dmaWrite_pending, ↓State.hostCommand_canonical, ↓State.hostCommand_mem, ↓State.hostCommand_pending, ↓State.hostRefuse_canonical, ↓State.hostRefuse_mem, ↓State.hostRefuse_pending]; done))
    | (have k1 := State.hostCommand_keeps (by assumption); have k2 := State.dmaWrite_keeps (by assumption); first | (simp +contextual (maxDischargeDepth := 64) only [k1.1, k1.2, k2.1, k2.2, ↓State.complete_canonical, ↓State.complete_mem, ↓State.complete_pending, ↓State.dmaWrite_canonical, ↓State.dmaWrite_pending, ↓State.hostCommand_canonical, ↓State.hostCommand_mem, ↓State.hostCommand_pending, ↓State.hostRefuse_canonical, ↓State.hostRefuse_mem, ↓State.hostRefuse_pending, Res.quiet_next, Res.stays_next, and_self, true_and, implies_true, imp_self]; done) | (simp +contextual (maxDischargeDepth := 64) [k1.1, k1.2, k2.1, k2.2, ↓State.complete_canonical, ↓State.complete_mem, ↓State.complete_pending, ↓State.dmaWrite_canonical, ↓State.dmaWrite_pending, ↓State.hostCommand_canonical, ↓State.hostCommand_mem, ↓State.hostCommand_pending, ↓State.hostRefuse_canonical, ↓State.hostRefuse_mem, ↓State.hostRefuse_pending]; done))
@[simp] theorem execHostIntr_quiet (engine : Nat) (s : State) : Res.quiet s (execHostIntr engine s) := by
  unfold execHostIntr; (repeat' (first | extract_lets | split)) <;> first
    | rfl
    | (first | (simp +contextual (maxDischargeDepth := 64) only [↓State.complete_canonical, ↓State.complete_mem, ↓State.complete_pending, ↓State.hostCommand_canonical, ↓State.hostCommand_mem, ↓State.hostCommand_pending, ↓State.hostRefuse_canonical, ↓State.hostRefuse_mem, ↓State.hostRefuse_pending, ↓State.raiseMsix_canonical, ↓State.raiseMsix_mem, ↓State.raiseMsix_pending, Res.quiet_next, Res.stays_next, and_self, true_and, implies_true, imp_self]; done) | (simp +contextual (maxDischargeDepth := 64) [↓State.complete_canonical, ↓State.complete_mem, ↓State.complete_pending, ↓State.hostCommand_canonical, ↓State.hostCommand_mem, ↓State.hostCommand_pending, ↓State.hostRefuse_canonical, ↓State.hostRefuse_mem, ↓State.hostRefuse_pending, ↓State.raiseMsix_canonical, ↓State.raiseMsix_mem, ↓State.raiseMsix_pending]; done))
    | (have k1 := State.hostCommand_keeps (by assumption); first | (simp +contextual (maxDischargeDepth := 64) only [k1.1, k1.2, ↓State.complete_canonical, ↓State.complete_mem, ↓State.complete_pending, ↓State.hostCommand_canonical, ↓State.hostCommand_mem, ↓State.hostCommand_pending, ↓State.hostRefuse_canonical, ↓State.hostRefuse_mem, ↓State.hostRefuse_pending, ↓State.raiseMsix_canonical, ↓State.raiseMsix_mem, ↓State.raiseMsix_pending, Res.quiet_next, Res.stays_next, and_self, true_and, implies_true, imp_self]; done) | (simp +contextual (maxDischargeDepth := 64) [k1.1, k1.2, ↓State.complete_canonical, ↓State.complete_mem, ↓State.complete_pending, ↓State.hostCommand_canonical, ↓State.hostCommand_mem, ↓State.hostCommand_pending, ↓State.hostRefuse_canonical, ↓State.hostRefuse_mem, ↓State.hostRefuse_pending, ↓State.raiseMsix_canonical, ↓State.raiseMsix_mem, ↓State.raiseMsix_pending]; done))
@[simp] theorem State.fnRssWrite_mem (s : State) (f k : Nat) (v : Word) : (State.fnRssWrite s f k v).mem = s.mem := by
  unfold State.fnRssWrite; simp +contextual (maxDischargeDepth := 64)
@[simp] theorem State.fnRssWrite_pending (s : State) (f k : Nat) (v : Word) : (State.fnRssWrite s f k v).pending = s.pending := by
  unfold State.fnRssWrite; simp +contextual (maxDischargeDepth := 64)
@[simp] theorem State.fnRssWrite_canonical (s : State) (f k : Nat) (v : Word) (hs : s.canonical = true) : (State.fnRssWrite s f k v).canonical = true := by
  unfold State.fnRssWrite; simp +contextual (maxDischargeDepth := 64) [hs]
@[simp] theorem execHifFnRssWrite_quiet (fn k : Nat) (value : Word) (s : State) : Res.quiet s (execHifFnRssWrite fn k value s) := by
  unfold execHifFnRssWrite; simp +contextual (maxDischargeDepth := 64)
@[simp] theorem execHifQForce_stays (s : State) : Res.stays s (execHifQForce s) := by
  unfold execHifQForce; simp +contextual (maxDischargeDepth := 64)

end Sys2Proof.Machine
end

