-- ==== Sys2Proof/Laws/KeepHifPage.lean ====
section
/-! SUPPORT. Machine/HifPage.lean: what each of its operations keeps (memory where it stores nothing, the queue, the
canonical form of the stores). -/

namespace Sys2Proof.Machine

set_option linter.all false
set_option Elab.async false

@[simp] theorem State.setFnErr_mem (s : State) (f : Nat) (e : HifFnErr) : (State.setFnErr s f e).mem = s.mem := by
  unfold State.setFnErr; simp +contextual (maxDischargeDepth := 64)
@[simp] theorem State.setFnErr_pending (s : State) (f : Nat) (e : HifFnErr) : (State.setFnErr s f e).pending = s.pending := by
  unfold State.setFnErr; simp +contextual (maxDischargeDepth := 64)
@[simp] theorem State.setFnErr_canonical (s : State) (f : Nat) (e : HifFnErr) (hs : s.canonical = true) : (State.setFnErr s f e).canonical = true := by
  unfold State.setFnErr; simp +contextual (maxDischargeDepth := 64) [hs]
@[simp] theorem State.fnPageRead_mem (s : State) (f o : Nat) : (State.fnPageRead s f o).2.mem = s.mem := by
  unfold State.fnPageRead; (try simp only []); (repeat' split) <;> simp +contextual (maxDischargeDepth := 64)
@[simp] theorem State.fnPageRead_pending (s : State) (f o : Nat) : (State.fnPageRead s f o).2.pending = s.pending := by
  unfold State.fnPageRead; (try simp only []); (repeat' split) <;> simp +contextual (maxDischargeDepth := 64)
@[simp] theorem State.fnPageRead_canonical (s : State) (f o : Nat) (hs : s.canonical = true) : (State.fnPageRead s f o).2.canonical = true := by
  unfold State.fnPageRead; (try simp only []); (repeat' split) <;> simp +contextual (maxDischargeDepth := 64) [hs]
theorem State.fnPageRead_keeps {s : State} {f o : Nat} {r0 r1} (hx : State.fnPageRead s f o = (r0, r1)) : r1.pending = s.pending ∧ (s.canonical = true → r1.canonical = true) ∧ r1.mem = s.mem := by
  have pending' := State.fnPageRead_pending s f o
  rw [hx] at pending'
  have canonical' := fun hs => State.fnPageRead_canonical s f o hs
  rw [hx] at canonical'
  have mem' := State.fnPageRead_mem s f o
  rw [hx] at mem'
  exact ⟨pending', canonical', mem'⟩
@[simp] theorem State.fnPageWrite_mem (s : State) (f o : Nat) (v : Word) : (State.fnPageWrite s f o v).mem = s.mem := by
  unfold State.fnPageWrite; simp +contextual (maxDischargeDepth := 64)
@[simp] theorem State.fnPageWrite_pending (s : State) (f o : Nat) (v : Word) : (State.fnPageWrite s f o v).pending = s.pending := by
  unfold State.fnPageWrite; simp +contextual (maxDischargeDepth := 64)
@[simp] theorem State.fnPageWrite_canonical (s : State) (f o : Nat) (v : Word) (hs : s.canonical = true) : (State.fnPageWrite s f o v).canonical = true := by
  unfold State.fnPageWrite; simp +contextual (maxDischargeDepth := 64) [hs]
@[simp] theorem State.hqRegSet_mem (s : State) (g o : Nat) (v : Word) : (State.hqRegSet s g o v).mem = s.mem := by
  unfold State.hqRegSet; simp +contextual (maxDischargeDepth := 64)
@[simp] theorem State.hqRegSet_pending (s : State) (g o : Nat) (v : Word) : (State.hqRegSet s g o v).pending = s.pending := by
  unfold State.hqRegSet; simp +contextual (maxDischargeDepth := 64)
@[simp] theorem State.hqRegSet_canonical (s : State) (g o : Nat) (v : Word) (hs : s.canonical = true) : (State.hqRegSet s g o v).canonical = true := by
  unfold State.hqRegSet; simp +contextual (maxDischargeDepth := 64) [hs]
@[simp] theorem State.hqRegWrite_pending (s : State) (g o : Nat) (v : Word) : (State.hqRegWrite s g o v).pending = s.pending := by
  unfold State.hqRegWrite; simp +contextual (maxDischargeDepth := 64)
@[simp] theorem State.hqRegWrite_canonical (s : State) (g o : Nat) (v : Word) (hs : s.canonical = true) : (State.hqRegWrite s g o v).canonical = true := by
  unfold State.hqRegWrite; simp +contextual (maxDischargeDepth := 64) [hs]
@[simp] theorem State.hifPageRead_mem (s : State) (f o : Nat) : (State.hifPageRead s f o).2.mem = s.mem := by
  unfold State.hifPageRead; (try simp only []); (repeat' split) <;> simp +contextual (maxDischargeDepth := 64)
@[simp] theorem State.hifPageRead_pending (s : State) (f o : Nat) : (State.hifPageRead s f o).2.pending = s.pending := by
  unfold State.hifPageRead; (try simp only []); (repeat' split) <;> simp +contextual (maxDischargeDepth := 64)
@[simp] theorem State.hifPageRead_canonical (s : State) (f o : Nat) (hs : s.canonical = true) : (State.hifPageRead s f o).2.canonical = true := by
  unfold State.hifPageRead; (try simp only []); (repeat' split) <;> simp +contextual (maxDischargeDepth := 64) [hs]
theorem State.hifPageRead_keeps {s : State} {f o : Nat} {r0 r1} (hx : State.hifPageRead s f o = (r0, r1)) : r1.pending = s.pending ∧ (s.canonical = true → r1.canonical = true) ∧ r1.mem = s.mem := by
  have pending' := State.hifPageRead_pending s f o
  rw [hx] at pending'
  have canonical' := fun hs => State.hifPageRead_canonical s f o hs
  rw [hx] at canonical'
  have mem' := State.hifPageRead_mem s f o
  rw [hx] at mem'
  exact ⟨pending', canonical', mem'⟩
@[simp] theorem State.hifPageWrite_pending (s : State) (f o : Nat) (v : Word) : (State.hifPageWrite s f o v).pending = s.pending := by
  unfold State.hifPageWrite; (try simp only []); (repeat' split) <;> simp +contextual (maxDischargeDepth := 64)
@[simp] theorem State.hifPageWrite_canonical (s : State) (f o : Nat) (v : Word) (hs : s.canonical = true) : (State.hifPageWrite s f o v).canonical = true := by
  unfold State.hifPageWrite; (try simp only []); (repeat' split) <;> simp +contextual (maxDischargeDepth := 64) [hs]

end Sys2Proof.Machine
end

