-- ==== Sys2Proof/Laws/KeepCphOps.lean ====
section
/-! SUPPORT. Machine/CphOps.lean: what each of its operations keeps (memory where it stores nothing, the queue, the
canonical form of the stores). -/

namespace Sys2Proof.Machine

set_option linter.all false
set_option Elab.async false

@[simp] theorem State.cphFault_mem (s : State) (cond pair queue slot : Nat) : (State.cphFault s cond pair queue slot).mem = s.mem := by
  unfold State.cphFault; simp +contextual (maxDischargeDepth := 64)
@[simp] theorem State.cphFault_pending (s : State) (cond pair queue slot : Nat) : (State.cphFault s cond pair queue slot).pending = s.pending := by
  unfold State.cphFault; simp +contextual (maxDischargeDepth := 64)
@[simp] theorem State.cphFault_canonical (s : State) (cond pair queue slot : Nat) (hs : s.canonical = true) : (State.cphFault s cond pair queue slot).canonical = true := by
  unfold State.cphFault; simp +contextual (maxDischargeDepth := 64) [hs]
@[simp] theorem State.setKeyWays_mem (s : State) (set : Nat) (l : List KeyWay) : (State.setKeyWays s set l).mem = s.mem := by
  unfold State.setKeyWays; simp +contextual (maxDischargeDepth := 64)
@[simp] theorem State.setKeyWays_pending (s : State) (set : Nat) (l : List KeyWay) : (State.setKeyWays s set l).pending = s.pending := by
  unfold State.setKeyWays; simp +contextual (maxDischargeDepth := 64)
@[simp] theorem State.setKeyWays_canonical (s : State) (set : Nat) (l : List KeyWay) (hs : s.canonical = true) : (State.setKeyWays s set l).canonical = true := by
  unfold State.setKeyWays; simp +contextual (maxDischargeDepth := 64) [hs]
@[simp] theorem State.setPin_mem (s : State) (slot : Nat) (b : Bool) : (State.setPin s slot b).mem = s.mem := by
  unfold State.setPin; simp +contextual (maxDischargeDepth := 64)
@[simp] theorem State.setPin_pending (s : State) (slot : Nat) (b : Bool) : (State.setPin s slot b).pending = s.pending := by
  unfold State.setPin; simp +contextual (maxDischargeDepth := 64)
@[simp] theorem State.setPin_canonical (s : State) (slot : Nat) (b : Bool) (hs : s.canonical = true) : (State.setPin s slot b).canonical = true := by
  unfold State.setPin; simp +contextual (maxDischargeDepth := 64) [hs]
@[simp] theorem State.storeRecord_pending (s : State) (n : Nat) (r : List Byte) : (State.storeRecord s n r).pending = s.pending := by
  unfold State.storeRecord; simp +contextual (maxDischargeDepth := 64)
@[simp] theorem State.storeRecord_canonical (s : State) (n : Nat) (r : List Byte) (hs : s.canonical = true) : (State.storeRecord s n r).canonical = true := by
  unfold State.storeRecord; simp +contextual (maxDischargeDepth := 64) [hs]
@[simp] theorem State.touchSlot_mem (s : State) (n : Nat) (r : List Byte) (dirty : Bool) : (State.touchSlot s n r dirty).mem = s.mem := by
  unfold State.touchSlot; simp +contextual (maxDischargeDepth := 64)
@[simp] theorem State.touchSlot_pending (s : State) (n : Nat) (r : List Byte) (dirty : Bool) : (State.touchSlot s n r dirty).pending = s.pending := by
  unfold State.touchSlot; simp +contextual (maxDischargeDepth := 64)
@[simp] theorem State.touchSlot_canonical (s : State) (n : Nat) (r : List Byte) (dirty : Bool) (hs : s.canonical = true) : (State.touchSlot s n r dirty).canonical = true := by
  unfold State.touchSlot; simp +contextual (maxDischargeDepth := 64) [hs]
@[simp] theorem State.evictWay_pending (s : State) (set : Nat) : (State.evictWay s set).pending = s.pending := by
  unfold State.evictWay; (try simp only []); (repeat' split) <;> simp +contextual (maxDischargeDepth := 64)
@[simp] theorem State.evictWay_canonical (s : State) (set : Nat) (hs : s.canonical = true) : (State.evictWay s set).canonical = true := by
  unfold State.evictWay; (try simp only []); (repeat' split) <;> simp +contextual (maxDischargeDepth := 64) [hs]
@[simp] theorem State.setReqs_mem (s : State) (l : List CphReq) : (State.setReqs s l).mem = s.mem := by
  unfold State.setReqs; simp +contextual (maxDischargeDepth := 64)
@[simp] theorem State.setReqs_pending (s : State) (l : List CphReq) : (State.setReqs s l).pending = s.pending := by
  unfold State.setReqs; simp +contextual (maxDischargeDepth := 64)
@[simp] theorem State.setReqs_canonical (s : State) (l : List CphReq) (hs : s.canonical = true) : (State.setReqs s l).canonical = true := by
  unfold State.setReqs; simp +contextual (maxDischargeDepth := 64) [hs]
@[simp] theorem State.keepOld_mem (s : State) (n : Nat) : (State.keepOld s n).mem = s.mem := by
  unfold State.keepOld; (try simp only []); (repeat' split) <;> simp +contextual (maxDischargeDepth := 64)
@[simp] theorem State.keepOld_pending (s : State) (n : Nat) : (State.keepOld s n).pending = s.pending := by
  unfold State.keepOld; (try simp only []); (repeat' split) <;> simp +contextual (maxDischargeDepth := 64)
@[simp] theorem State.keepOld_canonical (s : State) (n : Nat) (hs : s.canonical = true) : (State.keepOld s n).canonical = true := by
  unfold State.keepOld; (try simp only []); (repeat' split) <;> simp +contextual (maxDischargeDepth := 64) [hs]
@[simp] theorem State.writeSlot_pending (s : State) (n : Nat) (r : List Byte) : (State.writeSlot s n r).pending = s.pending := by
  unfold State.writeSlot; (try simp only []); (repeat' split) <;> simp +contextual (maxDischargeDepth := 64)
@[simp] theorem State.writeSlot_canonical (s : State) (n : Nat) (r : List Byte) (hs : s.canonical = true) : (State.writeSlot s n r).canonical = true := by
  unfold State.writeSlot; (try simp only []); (repeat' split) <;> simp +contextual (maxDischargeDepth := 64) [hs]
@[simp] theorem State.keyRead_mem (s : State) (n : Nat) : (State.keyRead s n).2.mem = s.mem := by
  unfold State.keyRead; (try simp only []); (repeat' split) <;> simp +contextual (maxDischargeDepth := 64)
@[simp] theorem State.keyRead_pending (s : State) (n : Nat) : (State.keyRead s n).2.pending = s.pending := by
  unfold State.keyRead; (try simp only []); (repeat' split) <;> simp +contextual (maxDischargeDepth := 64)
@[simp] theorem State.keyRead_canonical (s : State) (n : Nat) (hs : s.canonical = true) : (State.keyRead s n).2.canonical = true := by
  unfold State.keyRead; (try simp only []); (repeat' split) <;> simp +contextual (maxDischargeDepth := 64) [hs]
theorem State.keyRead_keeps {s : State} {n : Nat} {r0 r1} (hx : State.keyRead s n = (r0, r1)) : r1.pending = s.pending ∧ (s.canonical = true → r1.canonical = true) ∧ r1.mem = s.mem := by
  have pending' := State.keyRead_pending s n
  rw [hx] at pending'
  have canonical' := fun hs => State.keyRead_canonical s n hs
  rw [hx] at canonical'
  have mem' := State.keyRead_mem s n
  rw [hx] at mem'
  exact ⟨pending', canonical', mem'⟩
@[simp] theorem State.cphAnswer_mem (s : State) (pair : Nat) (w : List Word) (status computed next outLen : Nat) (payload : List Byte) : (State.cphAnswer s pair w status computed next outLen payload).mem = s.mem := by
  unfold State.cphAnswer; simp +contextual (maxDischargeDepth := 64)
@[simp] theorem State.cphAnswer_pending (s : State) (pair : Nat) (w : List Word) (status computed next outLen : Nat) (payload : List Byte) : (State.cphAnswer s pair w status computed next outLen payload).pending = s.pending := by
  unfold State.cphAnswer; simp +contextual (maxDischargeDepth := 64)
@[simp] theorem State.cphAnswer_canonical (s : State) (pair : Nat) (w : List Word) (status computed next outLen : Nat) (payload : List Byte) (hs : s.canonical = true) : (State.cphAnswer s pair w status computed next outLen payload).canonical = true := by
  unfold State.cphAnswer; simp +contextual (maxDischargeDepth := 64) [hs]
@[simp] theorem State.cphRefuse_mem (s : State) (pair : Nat) (packet : Bool) (w : List Word) (status : Nat) : (State.cphRefuse s pair packet w status).mem = s.mem := by
  unfold State.cphRefuse; simp +contextual (maxDischargeDepth := 64)
@[simp] theorem State.cphRefuse_pending (s : State) (pair : Nat) (packet : Bool) (w : List Word) (status : Nat) : (State.cphRefuse s pair packet w status).pending = s.pending := by
  unfold State.cphRefuse; simp +contextual (maxDischargeDepth := 64)
@[simp] theorem State.cphRefuse_canonical (s : State) (pair : Nat) (packet : Bool) (w : List Word) (status : Nat) (hs : s.canonical = true) : (State.cphRefuse s pair packet w status).canonical = true := by
  unfold State.cphRefuse; simp +contextual (maxDischargeDepth := 64) [hs]
@[simp] theorem State.cphRefuseInOrder_mem (s : State) (pair queue : Nat) (packet : Bool) (w : List Word) (status : Nat) : (State.cphRefuseInOrder s pair queue packet w status).mem = s.mem := by
  unfold State.cphRefuseInOrder; simp +contextual (maxDischargeDepth := 64)
@[simp] theorem State.cphRefuseInOrder_pending (s : State) (pair queue : Nat) (packet : Bool) (w : List Word) (status : Nat) : (State.cphRefuseInOrder s pair queue packet w status).pending = s.pending := by
  unfold State.cphRefuseInOrder; simp +contextual (maxDischargeDepth := 64)
@[simp] theorem State.cphRefuseInOrder_canonical (s : State) (pair queue : Nat) (packet : Bool) (w : List Word) (status : Nat) (hs : s.canonical = true) : (State.cphRefuseInOrder s pair queue packet w status).canonical = true := by
  unfold State.cphRefuseInOrder; simp +contextual (maxDischargeDepth := 64) [hs]
@[simp] theorem State.cphAddrFault_mem (s : State) (pair queue slot addr : Nat) : (State.cphAddrFault s pair queue slot addr).mem = s.mem := by
  unfold State.cphAddrFault; (try simp only []); (repeat' split) <;> simp +contextual (maxDischargeDepth := 64)
@[simp] theorem State.cphAddrFault_pending (s : State) (pair queue slot addr : Nat) : (State.cphAddrFault s pair queue slot addr).pending = s.pending := by
  unfold State.cphAddrFault; (try simp only []); (repeat' split) <;> simp +contextual (maxDischargeDepth := 64)
@[simp] theorem State.cphAddrFault_canonical (s : State) (pair queue slot addr : Nat) (hs : s.canonical = true) : (State.cphAddrFault s pair queue slot addr).canonical = true := by
  unfold State.cphAddrFault; (try simp only []); (repeat' split) <;> simp +contextual (maxDischargeDepth := 64) [hs]
@[simp] theorem State.cphEmit_pending (s : State) (r : CphReq) : (State.cphEmit s r).pending = s.pending := by
  unfold State.cphEmit; simp +contextual (maxDischargeDepth := 64)
@[simp] theorem State.cphEmit_canonical (s : State) (r : CphReq) (hs : s.canonical = true) : (State.cphEmit s r).canonical = true := by
  unfold State.cphEmit; simp +contextual (maxDischargeDepth := 64) [hs]
@[simp] theorem State.cphWindow_pending (s : State) (r : CphReq) : (State.cphWindow s r).2.pending = s.pending := by
  unfold State.cphWindow; (try simp only []); (repeat' split) <;> simp +contextual (maxDischargeDepth := 64)
@[simp] theorem State.cphWindow_canonical (s : State) (r : CphReq) (hs : s.canonical = true) : (State.cphWindow s r).2.canonical = true := by
  unfold State.cphWindow; (try simp only []); (repeat' split) <;> simp +contextual (maxDischargeDepth := 64) [hs]
theorem State.cphWindow_keeps {s : State} {r : CphReq} {r0 r1} (hx : State.cphWindow s r = (r0, r1)) : r1.pending = s.pending ∧ (s.canonical = true → r1.canonical = true) := by
  have pending' := State.cphWindow_pending s r
  rw [hx] at pending'
  have canonical' := fun hs => State.cphWindow_canonical s r hs
  rw [hx] at canonical'
  exact ⟨pending', canonical'⟩
@[simp] theorem State.cphSendAcross_mem (s : State) (p : Nat) (r : CphReq) : (State.cphSendAcross s p r).mem = s.mem := by
  unfold State.cphSendAcross; (try simp only []); (repeat' split) <;> simp +contextual (maxDischargeDepth := 64)
@[simp] theorem State.cphSendAcross_pending (s : State) (p : Nat) (r : CphReq) : (State.cphSendAcross s p r).pending = s.pending := by
  unfold State.cphSendAcross; (try simp only []); (repeat' split) <;> simp +contextual (maxDischargeDepth := 64)
@[simp] theorem State.cphSendAcross_canonical (s : State) (p : Nat) (r : CphReq) (hs : s.canonical = true) : (State.cphSendAcross s p r).canonical = true := by
  unfold State.cphSendAcross; (try simp only []); (repeat' split) <;> simp +contextual (maxDischargeDepth := 64) [hs]
@[simp] theorem State.quarantine_canonical (s : State) (p : Nat) (hs : s.canonical = true) : (State.quarantine s p).canonical = true := by
  unfold State.quarantine; simp +contextual (maxDischargeDepth := 64) [hs]
@[simp] theorem State.quarantineIfRetired_canonical (s : State) (p : Nat) (hs : s.canonical = true) : (State.quarantineIfRetired s p).canonical = true := by
  unfold State.quarantineIfRetired; simp +contextual (maxDischargeDepth := 64) [hs]
@[simp] theorem State.cphEndWaiting_mem (before : State) (p : Nat) (s : State) (m : Packet) : (State.cphEndWaiting before p s m).mem = s.mem := by
  unfold State.cphEndWaiting; (try simp only []); (repeat' split) <;> simp +contextual (maxDischargeDepth := 64)
@[simp] theorem State.cphEndWaiting_pending (before : State) (p : Nat) (s : State) (m : Packet) : (State.cphEndWaiting before p s m).pending = s.pending := by
  unfold State.cphEndWaiting; (try simp only []); (repeat' split) <;> simp +contextual (maxDischargeDepth := 64)
@[simp] theorem State.cphEndWaiting_canonical (before : State) (p : Nat) (s : State) (m : Packet) (hs : s.canonical = true) : (State.cphEndWaiting before p s m).canonical = true := by
  unfold State.cphEndWaiting; (try simp only []); (repeat' split) <;> simp +contextual (maxDischargeDepth := 64) [hs]
@[simp] theorem State.cphEndReq_pending (before s : State) (r : CphReq) : (State.cphEndReq before s r).pending = s.pending := by
  unfold State.cphEndReq; (try simp only []); (repeat' split) <;> simp +contextual (maxDischargeDepth := 64)
@[simp] theorem State.cphEndReq_canonical (before s : State) (r : CphReq) (hs : s.canonical = true) : (State.cphEndReq before s r).canonical = true := by
  unfold State.cphEndReq; (try simp only []); (repeat' split) <;> simp +contextual (maxDischargeDepth := 64) [hs]
@[simp] theorem State.cphErase_pending (s : State) : (State.cphErase s).pending = s.pending := by
  have h1 : ∀ (l : List CphReq), (l.foldl (State.cphEndReq s) (s.setReqs [])).pending = s.pending := fun l => by
    rw [foldl_pending _ _ _ (fun _ _ => by simp)]; simp
  have h2 : ∀ (l : List Nat) (t : State), (l.foldl (fun (s1 : State) p =>
      ((s.inboxOf (cphEp p)).foldl (State.cphEndWaiting s p) s1).setInbox (cphEp p) []) t).pending = t.pending := fun l t =>
    foldl_pending _ _ _ (fun _ _ => by rw [State.setInbox_pending, foldl_pending _ _ _ (fun _ _ => by simp)])
  unfold State.cphErase
  simp only []
  split <;> simp [h1, h2]
@[simp] theorem State.cphErase_canonical (s : State) (hs : s.canonical = true) : (State.cphErase s).canonical = true := by
  have h1 : ∀ (l : List CphReq), (l.foldl (State.cphEndReq s) (s.setReqs [])).canonical = true := fun l =>
    foldl_canonical _ _ _ (fun _ _ h => by simp [h]) (by simp [hs])
  have h2 : ∀ (l : List Nat) (t : State), t.canonical = true → (l.foldl (fun (s1 : State) p =>
      ((s.inboxOf (cphEp p)).foldl (State.cphEndWaiting s p) s1).setInbox (cphEp p) []) t).canonical = true := fun l t h =>
    foldl_canonical _ _ _ (fun u p h => by
      have := foldl_canonical (State.cphEndWaiting s p) (s.inboxOf (cphEp p)) u (fun _ _ h => by simp [h]) h
      simp [this]) h
  unfold State.cphErase
  simp only []
  apply State.set_canonical
  split
  · apply State.zeroRange_canonical; rw [State.withCph_canonical]; exact h2 _ _ (h1 _)
  · rw [State.withCph_canonical]; exact h2 _ _ (h1 _)

end Sys2Proof.Machine
end

