-- ==== Sys2Proof/Laws/Translate.lean ====
section
/-! SUPPORT. What a translation that does not fault can change: memory (A and D bits, in the tables), the IOTLB and ATS
requests of the host interface, and the count of free values (R412, R445). -/

namespace Sys2Proof.Machine

set_option linter.all false

/-- `t` differs from `s` at most in what a translation that does not fault can change. -/
def Translates (s t : State) : Prop :=
  t = { s with mem := t.mem, poison := t.poison, zeroMap := t.zeroMap, pcie := t.pcie, out := t.out, free := t.free }

theorem Translates.refl (s : State) : Translates s s := rfl
theorem Translates.trans {a b c : State} (h : Translates a b) (k : Translates b c) : Translates a c := by
  unfold Translates at *
  rw [k, h]
theorem Translates.via {α ε : Type} {s : State} {x : Except ε α × State} {v : α} {t : State} (hx : x = (.ok v, t))
    (h : ∀ v, x.1 = .ok v → Translates s x.2) : Translates s t := by
  have := h v (by rw [hx]); rwa [hx] at this

theorem State.putByte_translates (s : State) (a : Nat) (b : Byte) : Translates s (s.putByte a b) := rfl
theorem State.putBytes_translates (s : State) (a : Nat) (l : List Byte) : Translates s (s.putBytes a l) := by
  induction l generalizing s a with
  | nil => exact .refl s
  | cons b t ih => exact (State.putByte_translates s a b).trans (ih _ _)
theorem State.takeFree_translates (s : State) : Translates s s.takeFree.2 := rfl
theorem State.withPcie_translates (s : State) (x : PcieState) : Translates s (s.withPcie x) := rfl
theorem State.emit_translates (s : State) (o : Output) : Translates s (s.emit o) := rfl

theorem State.tableRead_ok (s : State) (a n acc bad : Nat) (v : List Byte) (h : (s.tableRead a n acc bad).1 = .ok v) :
    Translates s (s.tableRead a n acc bad).2 := by
  unfold State.tableRead at h ⊢
  split
  · next c => rw [if_pos c] at h; cases h
  · split <;> exact .refl s

theorem State.dirEntry_ok (acc bad : Nat) (at_ : State → Except IoErr Nat × State)
    (ha : ∀ t v, (at_ t).1 = .ok v → Translates t (at_ t).2) (s : State) (v : Nat)
    (h : (State.dirEntry acc bad at_ s).1 = .ok v) : Translates s (State.dirEntry acc bad at_ s).2 := by
  unfold State.dirEntry at h ⊢
  split
  · next e => rw [e] at h; cases h
  · next e =>
    have k := Translates.via e (ha s)
    rw [e] at h
    dsimp only at h
    split
    · next e2 => rw [e2] at h; cases h
    · next e2 =>
      have k2 := k.trans (Translates.via e2 (State.tableRead_ok _ _ _ _ _))
      split
      · exact k2
      · split <;> exact k2

theorem State.dirWalk_ok (acc bad : Nat) (idx : Nat → Nat) (at_ : State → Nat → Except IoErr Nat × State)
    (ha : ∀ t a v, (at_ t a).1 = .ok v → Translates t (at_ t a).2) (n : Nat) (s : State) (a v : Nat)
    (h : (State.dirWalk acc bad idx at_ n s a).1 = .ok v) : Translates s (State.dirWalk acc bad idx at_ n s a).2 := by
  induction n generalizing s a with
  | zero => unfold State.dirWalk; exact .refl s
  | succ n ih =>
    unfold State.dirWalk at h ⊢
    split
    · next e => rw [e] at h; cases h
    · next e =>
      rw [e] at h
      exact (Translates.via e (State.dirEntry_ok _ _ _ (fun t => ha t _) _)).trans (ih _ _ h)

theorem State.ptLeaf_ok (x : IoStage) (at_ : State → Except IoErr Nat × State)
    (ha : ∀ t v, (at_ t).1 = .ok v → Translates t (at_ t).2) (s : State) (p i : Nat) (v : IoLeaf)
    (h : (State.ptLeaf x at_ s p i).1 = .ok v) : Translates s (State.ptLeaf x at_ s p i).2 := by
  unfold State.ptLeaf at h ⊢
  dsimp only at h ⊢
  split
  · with_reducible exact .refl s
  · next e =>
    rw [e] at h
    dsimp only at h
    by_cases h1 : (!p.testBit 4 || !(if x.write then p.testBit 2 else p.testBit 1)) = true
    · rw [if_pos h1]; with_reducible exact .refl s
    · rw [if_neg h1] at h ⊢
      by_cases h2 : (p.testBit 6 && (p.testBit 7 || !x.write)) = true
      · rw [if_pos h2]; with_reducible exact .refl s
      · rw [if_neg h2] at h ⊢
        by_cases h3 : (!x.ade) = true
        · rw [if_pos h3]; with_reducible exact .refl s
        · rw [if_neg h3] at h ⊢
          split
          · next e2 => rw [e2] at h; cases h
          · next e2 => with_reducible exact (Translates.via e2 (ha s)).trans (State.putBytes_translates ..)

theorem State.ptEntry_ok (x : IoStage) (at_ : State → Except IoErr Nat × State)
    (ha : ∀ t v, (at_ t).1 = .ok v → Translates t (at_ t).2) (s : State) (v : Nat × Bool)
    (h : (State.ptEntry x at_ s).1 = .ok v) : Translates s (State.ptEntry x at_ s).2 := by
  unfold State.ptEntry at h ⊢
  dsimp only at h ⊢
  split
  · next e => rw [e] at h; cases h
  · next e =>
    have k := Translates.via e (ha s)
    rw [e] at h
    dsimp only at h
    split
    · next e2 => rw [e2] at h; cases h
    · next e2 =>
      have k2 := k.trans (Translates.via e2 (State.tableRead_ok _ _ _ _ _))
      split <;> exact k2

theorem State.ptWalk_ok (x : IoStage) (idx : Nat → Nat) (at_ : State → Nat → Bool → Except IoErr Nat × State)
    (ha : ∀ t a w v, (at_ t a w).1 = .ok v → Translates t (at_ t a w).2) (n : Nat) (s : State) (base : Nat) (v : IoLeaf)
    (h : (State.ptWalk x idx at_ n s base).1 = .ok v) : Translates s (State.ptWalk x idx at_ n s base).2 := by
  induction n generalizing s base with
  | zero => unfold State.ptWalk; exact .refl s
  | succ n ih =>
    unfold State.ptWalk at h ⊢
    split
    · next e => rw [e] at h; cases h
    · next e =>
      rw [e] at h
      exact (Translates.via e (State.ptEntry_ok _ _ (fun t => ha t _ _) _)).trans (ih _ _ h)
    · next e =>
      rw [e] at h
      exact (Translates.via e (State.ptEntry_ok _ _ (fun t => ha t _ _) _)).trans
        (State.ptLeaf_ok _ _ (fun t => ha t _ _) _ _ _ _ h)

theorem State.gStage_ok (s : State) (gatp : Nat) (ade write : Bool) (acc : Nat) (pf : IoErr) (gpa : Nat) (v : IoLeaf)
    (h : (s.gStage gatp ade write acc pf gpa).1 = .ok v) : Translates s (s.gStage gatp ade write acc pf gpa).2 := by
  unfold State.gStage at h ⊢
  dsimp only at h ⊢
  split
  · exact .refl s
  · next c =>
    rw [if_neg c] at h
    split
    · exact .refl s
    · next c2 =>
      rw [if_neg c2] at h
      exact State.ptWalk_ok _ _ _ (fun t a w v _ => .refl t) _ _ _ _ h

theorem State.gImplicit_ok (c : IoCtx) (x : IoAccess) (s : State) (gpa : Nat) (write : Bool) (v : Nat)
    (h : (State.gImplicit c x s gpa write).1 = .ok v) : Translates s (State.gImplicit c x s gpa write).2 := by
  unfold State.gImplicit at h ⊢
  split
  · next e => rw [e] at h; cases h
  · next e => exact Translates.via e (State.gStage_ok _ _ _ _ _ _ _)

theorem State.ioProcess_ok (c : IoCtx) (x : IoAccess) (s : State) (v : Nat × Nat) (h : (State.ioProcess c x s).1 = .ok v) :
    Translates s (State.ioProcess c x s).2 := by
  unfold State.ioProcess at h ⊢
  dsimp only at h ⊢
  split
  · split <;> exact .refl s
  · next c1 =>
    rw [if_neg c1] at h
    split
    · exact .refl s
    · rename_i pid e0
      rw [e0] at h
      dsimp only at h
      split
      · exact .refl s
      · next c2 =>
        rw [if_neg c2] at h
        by_cases hw : 2 ^ (if c.fsc / 2 ^ 60 = 1 then 8 else if c.fsc / 2 ^ 60 = 2 then 17 else 20) ≤ pid
        · rw [if_pos hw]; exact .refl s
        · rw [if_neg hw] at h ⊢
          split
          · next e => rw [e] at h; cases h
          · next e =>
            have k := Translates.via e (State.dirWalk_ok _ _ _ _ (fun t a => State.gImplicit_ok _ _ t a _) _ _ _)
            rw [e] at h
            dsimp only at h
            split
            · next e2 => rw [e2] at h; cases h
            · next e2 =>
              have k2 := k.trans (Translates.via e2 (State.gImplicit_ok _ _ _ _ _))
              rw [e2] at h
              dsimp only at h
              split
              · next e3 => rw [e3] at h; cases h
              · next e3 =>
                have k3 := k2.trans (Translates.via e3 (State.tableRead_ok _ _ _ _ _))
                repeat' split
                all_goals exact k3

theorem State.firstStage_ok (c : IoCtx) (x : IoAccess) (fsc : Nat) (s : State) (v : IoLeaf)
    (h : (State.firstStage c x fsc s).1 = .ok v) : Translates s (State.firstStage c x fsc s).2 := by
  unfold State.firstStage at h ⊢
  dsimp only at h ⊢
  split
  · exact .refl s
  · next c1 =>
    rw [if_neg c1] at h
    split
    · exact .refl s
    · next c2 =>
      rw [if_neg c2] at h
      exact State.ptWalk_ok _ _ _ (fun t a w => State.gImplicit_ok _ _ t a w) _ _ _ _ h

theorem State.iotlbFill_translates (s : State) (e : IotlbEntry) : Translates s (s.iotlbFill e) := by
  unfold State.iotlbFill
  split
  · exact .refl s
  · split
    · exact State.withPcie_translates ..
    · exact (State.takeFree_translates s).trans (State.withPcie_translates ..)

theorem State.ioStages_ok (c : IoCtx) (root : Nat × Nat) (x : IoAccess) (s : State) (v : Nat)
    (h : (State.ioStages c root x s).1 = .ok v) : Translates s (State.ioStages c root x s).2 := by
  unfold State.ioStages at h ⊢
  split
  · next e => rw [e] at h; cases h
  · next e =>
    have k := Translates.via e (State.firstStage_ok _ _ _ _)
    rw [e] at h
    dsimp only at h
    split
    · next e2 => rw [e2] at h; cases h
    · next e2 =>
      exact (k.trans (Translates.via e2 (State.gStage_ok _ _ _ _ _ _ _))).trans (State.iotlbFill_translates ..)

theorem State.ioTranslate_ok (c : IoCtx) (x : IoAccess) (s : State) (v : Nat) (h : (State.ioTranslate c x s).1 = .ok v) :
    Translates s (State.ioTranslate c x s).2 := by
  unfold State.ioTranslate at h ⊢
  split
  · next e => rw [e] at h; cases h
  · next e =>
    have k := Translates.via e (State.ioProcess_ok _ _ _)
    rw [e] at h
    dsimp only at h ⊢
    split
    · exact k
    · next c1 =>
      rw [if_neg c1] at h
      split
      · next c2 =>
        rw [if_pos c2] at h
        exact k.trans (State.ioStages_ok _ _ _ _ _ h)
      · next c2 =>
        rw [if_neg c2] at h
        have k2 := k.trans (State.takeFree_translates _)
        split
        · next e2 =>
          rw [e2] at h
          dsimp only at h
          split
          · exact k2
          · next c3 =>
            rw [if_neg c3] at h
            exact k2.trans (State.ioStages_ok _ _ _ _ _ h)
        · next e2 =>
          rw [e2] at h
          exact k2.trans (State.ioStages_ok _ _ _ _ _ h)

theorem State.iommuOut_ok (s : State) (f : Nat) (pasid : Option Nat) (iova : Nat) (write : Bool) (v : Nat)
    (h : (s.iommuOut f pasid iova write).1 = .ok v) : Translates s (s.iommuOut f pasid iova write).2 := by
  unfold State.iommuOut at h ⊢
  dsimp only at h ⊢
  split
  · exact .refl s
  · next c1 =>
    rw [if_neg c1] at h
    split
    · exact .refl s
    · next c2 =>
      rw [if_neg c2] at h
      by_cases hw : 2 ^ (if s.get F.MEM_IOMMU_DDTP_MODE = 3 then 16 else 24) ≤ f
      · rw [if_pos hw]; exact .refl s
      · rw [if_neg hw] at h ⊢
        split
        · next e => rw [e] at h; cases h
        · next e =>
          have k := Translates.via e (State.dirWalk_ok _ _ _ _ (fun t a v _ => .refl t) _ _ _)
          rw [e] at h
          dsimp only at h
          split
          · next e2 => rw [e2] at h; cases h
          · next e2 =>
            have k2 := k.trans (Translates.via e2 (State.tableRead_ok _ _ _ _ _))
            rw [e2] at h
            dsimp only at h
            split
            · exact k2
            · next c3 =>
              rw [if_neg c3] at h
              split
              · exact k2
              · next c4 =>
                rw [if_neg c4] at h
                split
                · next e3 => rw [e3] at h; cases h
                · next e3 => exact k2.trans (Translates.via e3 (State.ioTranslate_ok _ _ _))

theorem State.l1Exit_translates (s : State) (f : Nat) : Translates s (s.l1Exit f) := by
  unfold State.l1Exit
  dsimp only
  split
  · exact rfl
  · exact .refl s

theorem State.pickTag_translates {s t : State} {f : Nat} {o : Option Nat} (h : s.pickTag f = (o, t)) : Translates s t := by
  have k : Translates s (s.pickTag f).2 := State.takeFree_translates s
  rwa [h] at k

theorem State.atsAsk_translates (s : State) (f : Nat) (pasid : Option Nat) (a : Nat) : Translates s (s.atsAsk f pasid a) := by
  unfold State.atsAsk
  split
  · exact .refl s
  · dsimp only
    split
    · exact State.takeFree_translates s
    · have k := State.takeFree_translates s
      split
      · next e => exact k.trans (State.pickTag_translates e)
      · next e =>
        have k2 := (k.trans (State.pickTag_translates e)).trans (State.l1Exit_translates _ f)
        exact k2.trans ((State.withPcie_translates _ _).trans (State.emit_translates _ _))

/-- A DMA address that is translated. -/
theorem State.dmaOut_some {s t : State} {f : Nat} {pasid : Option Nat} {iova : Nat} {write : Bool} {o : Nat × Bool}
    (h : s.dmaOut f pasid iova write = (some o, t)) : Translates s t := by
  unfold State.dmaOut at h
  split at h
  · cases h
  · next e =>
    injection h with _ h
    rw [← h]
    exact (Translates.via e (State.iommuOut_ok _ _ _ _ _)).trans (State.atsAsk_translates ..)

theorem State.dmaOuts_some {s t : State} {f : Nat} {pasid : Option Nat} {l : List (Nat × Nat)} {o : List (Nat × Bool)}
    (h : s.dmaOuts f pasid l = (some o, t)) : Translates s t := by
  induction l generalizing s o with
  | nil => cases h; exact .refl _
  | cons x l ih =>
    unfold State.dmaOuts at h
    split at h
    · cases h
    · next e =>
      dsimp only at h
      injection h with h1 h2
      cases hl : (State.dmaOuts _ f pasid l).1 with
      | none => rw [hl] at h1; cases h1
      | some q =>
        exact (State.dmaOut_some e).trans (ih (o := q) (Prod.ext hl h2))

/-- A read that is translated changes only what a translation can change (R445). -/
theorem State.readPass_ok {s : State} {f : Nat} {pasid : Option Nat} {iova n : Nat} (h : (s.readPass f pasid iova n).1 = true) :
    Translates s (s.readPass f pasid iova n).2 := by
  unfold State.readPass at h ⊢
  dsimp only at h ⊢
  cases hl : (s.dmaOuts f pasid (s.pieces f iova n)).1 with
  | none => rw [hl] at h; cases h
  | some q => exact State.dmaOuts_some (o := q) (Prod.ext hl rfl)

/-- With the IOMMU in Bare and ATS off, the address of a DMA goes out unchanged, and nothing changes (R446). -/
theorem State.dmaOut_bare {s : State} {f : Nat} (pasid : Option Nat) (iova : Nat) (write : Bool)
    (h : s.get F.MEM_IOMMU_DDTP_MODE = 1) (ha : s.atsOn f = false) : s.dmaOut f pasid iova write = (some (iova, false), s) := by
  simp [State.dmaOut, State.iommuOut_bare s f pasid iova write h, State.atsAsk, State.atsOut, State.atsFind, ha]

theorem State.dmaOuts_bare {s : State} {f : Nat} (pasid : Option Nat) (l : List (Nat × Nat))
    (h : s.get F.MEM_IOMMU_DDTP_MODE = 1) (ha : s.atsOn f = false) :
    s.dmaOuts f pasid l = (some (l.map fun x => (x.1, false)), s) := by
  induction l with
  | nil => rfl
  | cons x l ih => simp [State.dmaOuts, State.dmaOut_bare pasid x.1 false h ha, ih]

theorem State.readPass_bare {s : State} {f : Nat} (pasid : Option Nat) (iova n : Nat)
    (h : s.get F.MEM_IOMMU_DDTP_MODE = 1) (ha : s.atsOn f = false) : s.readPass f pasid iova n = (true, s) := by
  simp [State.readPass, State.dmaOuts_bare pasid _ h ha]

/-- A DMA read of an open function answers the host's bytes, and only the L1 state of the link can change. -/
theorem State.dmaRead_open {s : State} {f : Nat} (pasid : Option Nat) (iova n : Nat) (data : List Byte) (h : s.dmaOpen f = true) :
    s.dmaRead f pasid iova n data .ok = (0, bytesAt data 0 n, s.l1Exit f) := by
  simp only [State.dmaOpen, Bool.and_eq_true, beq_iff_eq, Bool.not_eq_true'] at h
  simp [State.dmaRead, h.1.1.1, State.readPass_bare pasid iova n h.1.1.2 h.1.2]

end Sys2Proof.Machine
end

