-- ==== Sys2Proof/WellFormed.lean ====
section
/-! DEFINITION. Which operands exist: the check every command of the block passes before it means
anything (ranges of the physical resources the spec counts). -/

namespace Sys2Proof

/-- A command whose operands lie in the ranges the spec gives them. -/
def Instr.wf (i : Instr) : Bool :=
  match i with
  | .registerWrite .host offset _ _ _ => decide (offset < 536870912)
  | .registerWrite (.core x) _ _ _ _ => decide (x.hart < 96)
  | .rcRegisterRead access => decide (access.who.hart < 96)
  | .commitCancel offset => decide (offset < 536870912)
  | .frameReceive port _ _ => decide (port < 16)
  | .pfcRepeat port prio => decide (port < 16) && decide (prio < 8)
  | .ethPfcEnClear port prio => decide (port < 16) && decide (prio < 8)
  | .pfcFrameReceived port enable times => decide (port < 16) && decide (enable < 256) && times.length == 8
  | .pfcPauseExpiry port prio => decide (port < 16) && decide (prio < 8)
  | .linkLoss port _ => decide (port < 16)
  | .linkTrainingComplete port => decide (port < 16)
  | .laneCalibrationComplete port _ => decide (port < 16)
  | .packetInject ep offer => decide (ep < 512) && match offer with | some f => f.words.length == 8 && decide (f.vc < 4) && decide (1 ≤ f.vbytes) && decide (f.vbytes ≤ 128) | none => true
  | .flitInject ep offer => decide (ep < 512) && match offer with | some f => decide (f.vc < 4) && decide (1 ≤ f.vbytes) && decide (f.vbytes ≤ 128) | none => true
  | .flitHop key _ => decide (key < 6144)
  | .headerDelivery head => decide (head.key < 6144)
  | .stallTimeout ep => decide (ep < 512)
  | .ejectionWatchdog ep => decide (0x80 ≤ ep) && decide (ep < 0x100)
  | .prmStallLimitWrite limit _ _ => decide (limit < 16777216)
  | .siteCommitGo => true
  | .siteCopyEnd _ _ => true
  | .siteVerifyEnd receiving => receiving.all (fun p => decide (p < 16))
  | .siteQuiesceEnd => true
  | .siteQuiesceTimeout => true
  | .siteDrainLimitExpiry => true
  | .siteApplyEnd => true
  | .siteResumeEnd => true
  | .siteLoadCancel => true
  | .pavLoad group _ => decide (group < 64)
  | .pavHeaderCheckEnd group _ _ => decide (group < 64)
  | .pavScrubEnd group _ => decide (group < 64)
  | .pavFrameEnd member _ _ => decide (member < 64)
  | .userResetEnd group => decide (group < 64)
  | .pavUnload group grace => decide (group < 64) && decide (grace < 65536)
  | .quiesceAck group => decide (group < 64)
  | .graceExpiry group => decide (group < 64)
  | .pavHbmWritesDone group => decide (group < 64)
  | .pavRelease group => decide (group < 64)
  | .pavCancel group => decide (group < 64)
  | .pavcRelease group => decide (group < 64)
  | .userReset group => decide (group < 64)
  | .pavcClkWrite group clock khz => decide (group < 64) && decide (clock < 4) && decide (khz < 1048576)
  | .clkcapWrite group mhz => decide (group < 64) && decide (mhz < 1024)
  | .configScan member _ => decide (member < 64)
  | .pavHbmRequest member _ addr tag data _ => decide (member < 64) && decide (addr < 34359738368) && addr % 64 == 0 && decide (tag < 256) && data.length == 64
  | .pavHbmResponse _ _ => true
  | .regWindowAccess group _ offset _ _ => decide (group < 64) && decide (offset < 268435456)
  | .regReadReturn group _ => decide (group < 64)
  | .pavRegTimeoutExpiry group => decide (group < 64)
  | .rxCreditReturn ep vc => decide (0x80 ≤ ep) && decide (ep < 0x100) && decide (vc < 4)
  | .sleepReqRise group => decide (group < 64)
  | .sleepReqFall group => decide (group < 64)
  | .arbourDispatch src _ => decide (src < 20)
  | .commitSequencerPass pass => decide (pass.src < 20)
  | .arbInitLimitExpiry cluster => decide (cluster < 20)
  | .arbRunLimitExpiry cluster thread => decide (cluster < 20) && decide (thread < 64)
  | .deadlock cluster set => decide (cluster < 20) && decide (set < 8)
  | .haltHold cluster set => decide (cluster < 20) && decide (set < 8)
  | .parkTimeout cluster thread => decide (cluster < 20) && decide (thread < 64)
  | .arbBreakpointHalt cluster thread => decide (cluster < 20) && decide (thread < 64)
  | .arbHalt cluster thread => decide (cluster < 20) && decide (thread < 64)
  | .arbResume cluster thread => decide (cluster < 20) && decide (thread < 64)
  | .arbStep cluster thread _ => decide (cluster < 20) && decide (thread < 64)
  | .arbAbandon cluster thread => decide (cluster < 20) && decide (thread < 64)
  | .arbHaltAll cluster => decide (cluster < 20)
  | .arbResumeAll cluster => decide (cluster < 20)
  | .arbNop cluster thread _ => decide (cluster < 20) && decide (thread < 64)
  | .arbAdd cluster thread _ => decide (cluster < 20) && decide (thread < 64)
  | .arbSub cluster thread _ => decide (cluster < 20) && decide (thread < 64)
  | .arbAnd cluster thread _ => decide (cluster < 20) && decide (thread < 64)
  | .arbOr cluster thread _ => decide (cluster < 20) && decide (thread < 64)
  | .arbXor cluster thread _ => decide (cluster < 20) && decide (thread < 64)
  | .arbAndn cluster thread _ => decide (cluster < 20) && decide (thread < 64)
  | .arbShl cluster thread _ => decide (cluster < 20) && decide (thread < 64)
  | .arbShr cluster thread _ => decide (cluster < 20) && decide (thread < 64)
  | .arbSar cluster thread _ => decide (cluster < 20) && decide (thread < 64)
  | .arbMinu cluster thread _ => decide (cluster < 20) && decide (thread < 64)
  | .arbMaxu cluster thread _ => decide (cluster < 20) && decide (thread < 64)
  | .arbMul cluster thread _ => decide (cluster < 20) && decide (thread < 64)
  | .arbSltu cluster thread _ => decide (cluster < 20) && decide (thread < 64)
  | .arbAddi cluster thread _ => decide (cluster < 20) && decide (thread < 64)
  | .arbAndi cluster thread _ => decide (cluster < 20) && decide (thread < 64)
  | .arbOri cluster thread _ => decide (cluster < 20) && decide (thread < 64)
  | .arbXori cluster thread _ => decide (cluster < 20) && decide (thread < 64)
  | .arbShli cluster thread _ => decide (cluster < 20) && decide (thread < 64)
  | .arbShri cluster thread _ => decide (cluster < 20) && decide (thread < 64)
  | .arbSari cluster thread _ => decide (cluster < 20) && decide (thread < 64)
  | .arbSltui cluster thread _ => decide (cluster < 20) && decide (thread < 64)
  | .arbMovi cluster thread _ => decide (cluster < 20) && decide (thread < 64)
  | .arbMovhi cluster thread _ => decide (cluster < 20) && decide (thread < 64)
  | .arbBfx cluster thread _ => decide (cluster < 20) && decide (thread < 64)
  | .arbBfi cluster thread _ => decide (cluster < 20) && decide (thread < 64)
  | .arbExt cluster thread _ => decide (cluster < 20) && decide (thread < 64)
  | .arbIns cluster thread _ => decide (cluster < 20) && decide (thread < 64)
  | .arbKcpy cluster thread _ => decide (cluster < 20) && decide (thread < 64)
  | .arbCrcwin cluster thread _ => decide (cluster < 20) && decide (thread < 64)
  | .arbKput cluster thread _ => decide (cluster < 20) && decide (thread < 64)
  | .arbKclr cluster thread _ => decide (cluster < 20) && decide (thread < 64)
  | .arbKprof cluster thread _ => decide (cluster < 20) && decide (thread < 64)
  | .arbCrc cluster thread _ => decide (cluster < 20) && decide (thread < 64)
  | .arbTpz cluster thread _ => decide (cluster < 20) && decide (thread < 64)
  | .arbLd cluster thread _ => decide (cluster < 20) && decide (thread < 64)
  | .arbSt cluster thread _ => decide (cluster < 20) && decide (thread < 64)
  | .arbBr cluster thread _ => decide (cluster < 20) && decide (thread < 64)
  | .arbBri cluster thread _ => decide (cluster < 20) && decide (thread < 64)
  | .arbJal cluster thread _ => decide (cluster < 20) && decide (thread < 64)
  | .arbJr cluster thread _ => decide (cluster < 20) && decide (thread < 64)
  | .arbRds cluster thread _ => decide (cluster < 20) && decide (thread < 64)
  | .arbEmitf cluster thread _ => decide (cluster < 20) && decide (thread < 64)
  | .arbCommit cluster thread _ => decide (cluster < 20) && decide (thread < 64)
  | .arbEnd cluster thread _ => decide (cluster < 20) && decide (thread < 64)
  | .arbLock cluster thread _ => decide (cluster < 20) && decide (thread < 64)
  | .arbUnlock cluster thread _ => decide (cluster < 20) && decide (thread < 64)
  | .arbSignal cluster thread _ => decide (cluster < 20) && decide (thread < 64)
  | .arbWait cluster thread _ => decide (cluster < 20) && decide (thread < 64)
  | .arbOrder cluster thread _ => decide (cluster < 20) && decide (thread < 64)
  | .arbPark cluster thread _ => decide (cluster < 20) && decide (thread < 64)
  | .arbTset cluster thread _ => decide (cluster < 20) && decide (thread < 64)
  | .arbRelease cluster thread _ => decide (cluster < 20) && decide (thread < 64)
  | .classifyHandover => true
  | .acmSearchAdmit => true
  | .emtBucketReadReturn _ _ _ => true
  | .classifyInject _ _ => true
  | .mirrorCopy => true
  | .acmVerCommitGo => true
  | .acmVerApply => true
  | .versionRetire => true
  | .sweepEnd => true
  | .acmEntWrite => true
  | .acmEntWriteCtrl => true
  | .acmEntRead => true
  | .acmEntInvalidate => true
  | .acmEntCmdDone => true
  | .acmShift _ bank first last => decide (bank < 128) && decide (first < 2048) && decide (last < 2048)
  | .acmShiftDone => true
  | .acmParityScan bank entry => decide (bank < 128) && decide (entry < 2048)
  | .acmActWrite => true
  | .acmActRead => true
  | .acmPolWrite => true
  | .acmPolRead => true
  | .indirectionTableWrite index _ => decide (index < 524288)
  | .emtInsert table => decide (table < 64)
  | .emtUpsert table => decide (table < 64)
  | .emtDelete table => decide (table < 64)
  | .emtFind table => decide (table < 64)
  | .emtReadAt table => decide (table < 64)
  | .emtDeleteAt table => decide (table < 64)
  | .emtCmdDone => true
  | .displacementMove => true
  | .learnApply => true
  | .ageScan => true
  | .ageRemoval => true
  | .emtDmaRead _ => true
  | .readLock _ => true
  | .emtDmaWrite _ => true
  | .writeUnlock _ => true
  | .emtDmaUnlock _ => true
  | .emtDmaDone _ _ => true
  | .emtRedirCommitGo table => decide (table < 64)
  | .schEnqueue port => decide (port < 16)
  | .frameSelect port _ _ => decide (port < 16)
  | .frameTransmitEnd port _ _ => decide (port < 16)
  | .shaperRefill level index => decide (level < 4) && decide (index < 65536)
  | .schNodeCommitGo => true
  | .schGclCommitGo port => decide (port < 16)
  | .gclChange port => decide (port < 16)
  | .gateEntryChange port => decide (port < 16)
  | .gclCycleStart port => decide (port < 16)
  | .cphAdmission pair _ _ => decide (pair < 32)
  | .keySlotFetch slot _ => decide (slot < 1048576)
  | .cphCompare _ _ => true
  | .cphRetryCompare _ _ => true
  | .cphResultRelease _ => true
  | .cphQuarantine pair => decide (pair < 32)
  | .cphTest pair => decide (pair < 32)
  | .cphTestEnd pair _ => decide (pair < 32)
  | .cphReinstate pair => decide (pair < 32)
  | .reinstateMove queue => decide (queue < 256)
  | .cphLoadClear => true
  | .cphLoadBlob _ _ => true
  | .cphInvalidate => true
  | .cphSetSeq => true
  | .twkInstall _ _ => true
  | .twkRemove => true
  | .cphSetPin => true
  | .cphKeyOpDone => true
  | .tePacketReceive engine _ => decide (engine < 16)
  | .teFnDoorbell fn _ _ => decide (fn < 4096)
  | .teFnCtrlPiWrite fn _ => decide (fn < 4096)
  | .teCreateQp fn _ => decide (fn < 4096)
  | .teModifyQp fn _ => decide (fn < 4096)
  | .teQueryQp fn _ => decide (fn < 4096)
  | .teDestroyQp fn _ => decide (fn < 4096)
  | .teCreateSrq fn _ => decide (fn < 4096)
  | .teModifySrq fn _ => decide (fn < 4096)
  | .teDestroySrq fn _ => decide (fn < 4096)
  | .teCreateCq fn _ => decide (fn < 4096)
  | .teDestroyCq fn _ => decide (fn < 4096)
  | .teRegMr fn _ => decide (fn < 4096)
  | .teDeregMr fn _ => decide (fn < 4096)
  | .teAllocMw fn _ => decide (fn < 4096)
  | .teSend qp _ => decide (qp < 4194304)
  | .teSendImm qp _ => decide (qp < 4194304)
  | .teSendInv qp _ => decide (qp < 4194304)
  | .teWrite qp _ => decide (qp < 4194304)
  | .teWriteImm qp _ => decide (qp < 4194304)
  | .teRead qp _ => decide (qp < 4194304)
  | .teAtomicCas qp _ => decide (qp < 4194304)
  | .teAtomicFaa qp _ => decide (qp < 4194304)
  | .teLocalInv qp _ => decide (qp < 4194304)
  | .teBindMw qp _ => decide (qp < 4194304)
  | .teWqeWait qp _ => decide (qp < 4194304)
  | .teWqeNop qp _ => decide (qp < 4194304)
  | .teTaggedReceive srq _ => decide (srq < 65536)
  | .teCancelReceive srq _ => decide (srq < 65536)
  | .invalidationComplete index => decide (index < 16777216)
  | .ackTimeout qp => decide (qp < 4194304)
  | .rnrTimer qp => decide (qp < 4194304)
  | .reorderTimer qp => decide (qp < 4194304)
  | .ccTimer qp => decide (qp < 4194304)
  | .teQpForce => true
  | .teCcCommitGo => true
  | .teUcLoad _ => true
  | .teUcLoadEnd _ _ => true
  | .teUcSeal => true
  | .eventWordLimit _ _ => true
  | .patchRepair e i => decide (e < 16) && decide (i < 32)
  | .nvmeDoorbell fn _ _ => decide (fn < 4096)
  | .nvmeAdmission fn _ _ => decide (fn < 4096)
  | .nvmeDeleteIoSq _ => true
  | .nvmeDeleteIoCq _ => true
  | .nvmeCreateIoSq _ => true
  | .nvmeCreateIoCq _ => true
  | .nvmeGetLogPage _ _ => true
  | .nvmeIdentify _ _ => true
  | .nvmeAbort _ => true
  | .nvmeSetFeatures _ => true
  | .nvmeGetFeatures _ => true
  | .nvmeAsynchronousEventRequest _ => true
  | .nvmeFlush _ => true
  | .nvmeWrite _ _ => true
  | .nvmeRead _ _ _ => true
  | .nvmeWriteZeroes _ => true
  | .nvmeDatasetManagement _ _ => true
  | .nveCipherCompletion engine => decide (engine < 8)
  | .nveCapsuleResp conn => decide (conn < 65536)
  | .nveC2hData conn => decide (conn < 65536)
  | .nvePduR2t conn => decide (conn < 65536)
  | .nveC2hTermReq conn => decide (conn < 65536)
  | .nveTcpSegmentReceive engine => decide (engine < 16)
  | .nveTcpRto conn => decide (conn < 65536)
  | .nveTargetTimeout conn => decide (conn < 65536)
  | .nveOffload => true
  | .nveConnectionUp conn => decide (conn < 65536)
  | .nveClose _ => true
  | .nveCloseFin conn => decide (conn < 65536)
  | .nveQuery => true
  | .nveCcShn fn value => decide (fn < 4096) && decide (value < 4294967296)
  | .nveCcEnClear fn value => decide (fn < 4096) && decide (value < 4294967296)
  | .nveNsCommitGo => true
  | .nveModeCommitGo => true
  | .queueEnable queue => decide (queue < 1048576)
  | .queueDisable queue => decide (queue < 1048576)
  | .queueStopped queue => decide (queue < 1048576)
  | .hifDbSq queue _ => decide (queue < 1048576)
  | .hifDbRq queue _ => decide (queue < 1048576)
  | .hifDbCq queue _ => decide (queue < 1048576)
  | .sendFrameFetch r => decide (r.queue < 1048576)
  | .descSend queue => decide (queue < 1048576)
  | .descSendInline queue => decide (queue < 1048576)
  | .sendCarrier queue => decide (queue < 1048576)
  | .descNop queue => decide (queue < 1048576)
  | .hifReceive engine _ _ => decide (engine < 4)
  | .txReportReceive engine => decide (engine < 4)
  | .timestampTimeout engine tag => decide (engine < 4) && decide (tag < 4096)
  | .moderationTimer queue => decide (queue < 1048576)
  | .hostRead engine _ _ => decide (engine < 4)
  | .hostWrite engine => decide (engine < 4)
  | .hostIntr engine => decide (engine < 4)
  | .hifFnRssWrite fn k _ => decide (fn < 4096) && decide (k < 128)
  | .hifQForce => true
  | .functionLevelReset fn => decide (fn < 4096)
  | .busMasterDisable fn => decide (fn < 4096)
  | .vfEnableClear pf => decide (pf < 4)
  | .configRequest r offset _ be value => decide (r.fn < 4096) && decide (offset < 4096) && decide (be < 16) && decide (value < 4294967296)
  | .memoryReadRequest fn bar _ len _ _ _ _ => decide (fn < 4096) && (bar % 2 == 0) && decide (bar ≤ 6) && decide (0 < len) && decide (len ≤ 4096)
  | .postedWriteRequest fn bar _ data _ _ _ _ _ => decide (fn < 4096) && (bar % 2 == 0) && decide (bar ≤ 6) && decide (data.length ≤ 4096)
  | .inboundCompletion port link _ r _ _ _ => decide (port < 2) && decide (link < 4) && decide (r.fn < 4096)
  | .completionTimeout port _ => decide (port < 2)
  | .tagQuarantineEnd port _ => decide (port < 2)
  | .pcieLinkDown port link => decide (port < 2) && decide (link < 4)
  | .pcieLinkUp port link rate width _ => decide (port < 2) && decide (link < 4) && decide (rate ≤ 6) && decide (width ≤ 4)
  | .l1IdleEntry port link => decide (port < 2) && decide (link < 4)
  | .l0pWindow port link _ _ _ _ => decide (port < 2) && decide (link < 4)
  | .atsInvalidationRequest r x => decide (r.fn < 4096) && decide (x.tag < 32) && decide (x.addr < 2 ^ 64) && decide (x.log2 ≤ 64)
  | .hifAtwCommitGo pf => decide (pf < 4)
  | .atwApply pf => decide (pf < 4)
  | .doeDiscovery pf index => decide (pf < 4) && decide (index < 256)
  | .ideKmRequest pf _ _ => decide (pf < 4)
  | .spdmGetVersion pf _ => decide (pf < 4)
  | .spdmGetCapabilities pf _ => decide (pf < 4)
  | .spdmNegotiateAlgorithms pf _ => decide (pf < 4)
  | .spdmGetDigests pf _ => decide (pf < 4)
  | .spdmGetCertificate pf _ => decide (pf < 4)
  | .spdmChallenge pf _ => decide (pf < 4)
  | .spdmGetMeasurements pf _ => decide (pf < 4)
  | .spdmKeyExchange pf _ => decide (pf < 4)
  | .spdmFinish pf _ => decide (pf < 4)
  | .spdmHeartbeat pf _ => decide (pf < 4)
  | .spdmKeyUpdate pf _ => decide (pf < 4)
  | .spdmEndSession pf _ => decide (pf < 4)
  | .spdmVendorMldsaSignature pf _ => decide (pf < 4)
  | .tdispGetVersion pf _ fn _ => decide (pf < 4) && decide (fn < 4096)
  | .tdispGetCapabilities pf _ fn _ => decide (pf < 4) && decide (fn < 4096)
  | .tdispLockInterface pf _ fn _ _ => decide (pf < 4) && decide (fn < 4096)
  | .tdispGetDeviceInterfaceReport pf _ fn _ _ => decide (pf < 4) && decide (fn < 4096)
  | .tdispGetDeviceInterfaceState pf _ fn _ => decide (pf < 4) && decide (fn < 4096)
  | .tdispStartInterface pf _ fn _ _ => decide (pf < 4) && decide (fn < 4096)
  | .tdispStopInterface pf _ fn _ => decide (pf < 4) && decide (fn < 4096)
  | .bwGo port => decide (port < 2)
  | .pushVerifyEnd => true
  | .ringEnable terrace ring _ _ => decide (terrace < 8) && decide (ring < 64)
  | .terraceReceive terrace => decide (terrace < 8)
  | .terraceSend terrace ring _ => decide (terrace < 8) && decide (ring < 64)
  | .patrolScrub _ _ => true
  | .zeroMapClear _ => true
  | .iofenceC => true
  | .tbRefSelect ref _ => decide (ref < 2)
  | .timeRefLost => true
  | .pllLockLoss => true
  | .tbRateOnly => true
  | .tbSet => true
  | .tbStep => true
  | .tbSlew => true
  | .tbAdjustBoundary => true
  | .slewEnd timebase => decide (timebase < 4)
  | .tbSnapshot => true
  | .ppsInEdge => true
  | .ppsOutEdge => true
  | .ppsOutWidthEnd => true
  | .tbPortCfgWrite port _ => decide (port < 16)
  | .tileHazeEntry tile => decide (tile < 838)
  | .tileSleepDecision tile sky => decide (tile < 838) && decide (sky ≤ 3)
  | .tileWakeComplete tile => decide (tile < 838)
  | .hartWfi hart sky => decide (hart < 96) && decide (sky ≤ 3)
  | .hartStart hart => decide (hart < 128)
  | .hartStop hart => decide (hart < 128)
  | .nightEnter => true
  | .nightDrainEnd => true
  | .nightLimitExpiry => true
  | .nightEntryComplete => true
  | .nightAlarm => true
  | .perstAssert port => decide (port < 2)
  | .perstDeassert port => decide (port < 2)
  | .sysRstAssert => true
  | .sysRstDeassert bif0 bif1 bootSrc _ => decide (bif0 < 4) && decide (bif1 < 4) && decide (bootSrc < 4)
  | .lodgePgFall => true
  | .lodgePgRise _ => true
  | .supplyWarning domain _ => decide (domain < 8)
  | .holdDwellEnd domain => decide (domain < 8)
  | .quickCheckEnd domain _ => decide (domain < 8)
  | .holdLimitExpiry domain => decide (domain < 8)
  | .undervoltage domain => decide (domain < 11)
  | .temperatureSample _ => true
  | .thermalTrip => true
  | .thermalRestart => true
  | .sundialSample _ => true
  | .pwrOpCommitGo => true
  | .qualifyStepEnd _ => true
  | .railSettleTimeout => true
  | .operatingHour => true
  | .sdlReplanDone => true
  | .replanIntervalWrite value => decide (value < 4294967296)
  | .romStart => true
  | .ddrTrainingEnd sizes failed => decide (sizes.length = 4) && sizes.all (fun n => decide (n ≤ 8192)) && decide (sizes.sum ≤ 8192) && failed.all (fun c => decide (c < 4))
  | .hbmInitEnd => true
  | .imageCopyEnd _ => true
  | .signatureVerifyEnd => true
  | .warmCheckEnd => true
  | .ready => true
  | .failImage => true
  | .verifySlot slot => decide (slot < 2)
  | .verifySlotEnd _ => true
  | .restorePlan => true
  | .bootStage2LimitExpiry => true
  | .xspiRead => true
  | .xspiProgram => true
  | .xspiErase => true
  | .xspiCmdEnd _ _ => true
  | .wktChalGen => true
  | .challengeExpiry => true
  | .wktTokenSubmit _ _ _ => true
  | .tokenCheckEnd => true
  | .wicketErasure => true
  | .wicketOpenComplete => true
  | .raise kind => decide (kind < 3)
  | .tapExtest _ _ => true
  | .tapIdcode => true
  | .tapSamplePreload _ _ => true
  | .tapClamp => true
  | .tapHighz => true
  | .tapDtmcs => true
  | .tapDmi op _ x => decide (op < 4) && decide (x.data < 4294967296)
  | .tapWktChal => true
  | .tapWktToken token => decide (token.length = 4992)
  | .tapWktStatus => true
  | .tapBypass => true
  | .completionLost ep cmd => decide (ep < 65536) && decide (cmd.length = 8)
  | .criticalStateRestore tile _ => decide (tile < 1024)
  | .ccEnSet fn value => decide (fn < 4096) && decide (value < 4294967296)
  | .timePllLock => true
  | .laneLockAlignment port => decide (port < 16)
  | .atomicopIoRequest r _ => decide (r.fn < 4096)
  | .pcieMessage r code _ => decide (r.fn < 4096) && decide (code < 256)
  | .l0pHostRequest port link width => decide (port < 2) && decide (link < 4) && decide (width ≤ 4)
  | .rbgHealthPass => true

end Sys2Proof
end

