-- ==== Sys2Proof/Tests/Slice0.lean ====
section
/-! SUPPORT. The model's own tests: ill-formed commands refused, the hypotheses of the statements met, and single
steps against the spec's tables. -/

set_option linter.all false
set_option maxRecDepth 20000

namespace Sys2Proof.Tests

set_option Elab.async false

open Sys2Proof Sys2Proof.Machine

/-! ### Helpers -/

/-- A storage host that answers nothing, a clean read, an access with no environment, an empty request. -/
def noNve : NveHost := ⟨[], [], .ok⟩
def cleanRead : SrcRead := ⟨.clean, .ok⟩
def noEnv : CsrEnv := ⟨[], cleanRead, false, false, [], []⟩
def noReq : SpdmReq := ⟨none, 0x12, 0, 0, []⟩

/-- `n` bytes, zero but at the places listed. -/
def bytesWith (n : Nat) (l : List (Nat × Nat)) : List Byte :=
  (List.range n).map fun i => BitVec.ofNat 8 (match l.find? (fun x => x.1 == i) with | some x => x.2 | none => 0)

/-- A section of a plan with a body. -/
def sec (type inst : Nat) (body : List Byte) : Section := ⟨type, inst, 1, false, [], body⟩

/-- A state in READY with a live plan. -/
def readyWith (p : List Section) : State :=
  (State.reset.set F.BOOT_STATUS_PHASE phReady).withSite { State.reset.site with live := p }

/-- A plan with memory for the exact-match tables and one table, and a plan with memory for the cipher pairs. -/
def emtPlan : Plan :=
  [sec secMemPartition 0 (bytesWith 16 [(0, 1), (4, uEmt), (12, 64)]), sec secEmtGeometry 0 [1, 4, 48]]
def cphPlan : Plan := [sec secMemPartition 0 (bytesWith 16 [(0, 1), (4, uCph), (12, 64)])]

/-- A carrier header with the fields listed, the rest zero. -/
def header (l : List (ChField × Nat)) : List Word := hSets hZero l

/-- A packet of 60 bytes. -/
def onePacket : ArbPacket := ⟨0, 7, 60, [], 3, 5, 1, 9, 11, false⟩

/-- Arbour threads: running, with a packet, with its packet committed, with a lock, in INIT and in SERVICE. -/
def runThread : ArbThread :=
  { threadReset 3 with st := tRun, base := tRun, regs := [0, 5, 0xFFFFFFFFFFFFFFFE, 77, 2, 8] ++ List.replicate 26 0 }
def packetThread : ArbThread := { runThread with pkt := some onePacket }
def packetThreadDone : ArbThread := { packetThread with committed := true }
def lockThread : ArbThread := { runThread with locks := [7] }
def initThread : ArbThread := { runThread with st := tInit, base := tInit }
def serviceThread : ArbThread := { runThread with st := tService, base := tService }

/-- Cluster 0 with the word `w` at its start, and thread 3 of it. -/
def arbWith (w : Word) (x : ArbThread) : State :=
  (State.reset.setClu 0 { clusterReset 0 with imem := [w, 0, 0, 0] }).setThr 0 3 x

/-- A plan with an engine of 16 contexts and a function 0 that owns them, 16 regions, 4 CQs and 4 SRQs. -/
def tePlan : Plan :=
  [sec secMemPartition 0 (bytesWith 16 [(0, 1), (4, 22), (12, 64)]),
   sec secTeAlloc 0 (bytesWith 300 [(4, 16), (12, 2), (257, 4), (258, 4), (259, 2), (260, 2), (280, 2)]),
   sec secSchTree 0 [1]]

/-- The engine runs, function 0 may issue DMA, and the IOMMU is in Bare. -/
def teState : State :=
  (((readyWith tePlan).set F.TE_UC_STATUS_STATE 2).set F.MEM_IOMMU_DDTP_MODE 1).setCfg 0 4 4

/-- QP 5 in RTS with one work request posted. -/
def teQpState : State :=
  (teState.setQpUsed 5 true).putBytes (unitByteAddr tePlan uTe 1280)
    (natLE 8 (3 * 2 ^ 60 + 3 * 2 ^ 52 + 5) ++ natLE 8 (9 * 2 ^ 40 + 0xFFFF) ++ natLE 8 0 ++ natLE 8 0 ++ List.replicate 16 0 ++
      natLE 8 (2 ^ 48) ++ natLE 8 (4 * 2 ^ 59))

/-- A hart in M-mode with a good fetch. -/
def mHart : Accessor := .core ⟨0, .m, .good⟩

/-- A packet of one flit, or the head of a longer one, in the injection buffer of endpoint 0 for endpoint 0x20, whose
station is given. -/
def crossHeader : List Word := header [(CH.kind, kCommand), (CH.dstEp, 0x20)]
def crossFlit (tail : Bool) : Flit := mkFlit 1 0 true tail false false 64 crossHeader []
def flitState (station : Nat) (tail : Bool) : State :=
  ((readyWith [sec secPrmEndpoints 0 (bytesWith 800 [(0, 1), (768, 1), (769, station)])]).setFlight 0
    ⟨crossHeader, 0, 1, false, none, false⟩).setBuf (injKey 0 1) [crossFlit tail]

/-- A pavilion port whose packet has begun ejection and has no receive credit. -/
def stallState : State :=
  ((((readyWith [sec secPrmEndpoints 0 (bytesWith 3100 [(3072, 1)]), sec secPavGroups 0 (bytesWith 16 [(0, 1)])]).setFlight 0
    ⟨header [(CH.dstEp, 0x80)], 0, 1, false, none, false⟩).setBuf (injKey 0 1) [crossFlit false]).setGrp 0
      { (State.reset.grp 0) with portsUp := true })

/-- A work request: opcode, flags, and further bytes. -/
def teWqe (op flags : Nat) (l : List (Nat × Nat)) : TeHost :=
  { noHost with wqe := bytesWith 128 ([(7, op), (6, flags)] ++ l) }

/-- The control ring of function 0 with one entry: opcode and further bytes; its image. -/
def teCtrlState (s : State) : State := s.setTeFn 0 ⟨0x1000, 0x8000000000000004, 1, 0, 0, false, []⟩
def teEntry (op : Nat) (l : List (Nat × Nat)) (im : List Byte) : TeHost :=
  { noHost with wqe := bytesWith 64 ([(7, op)] ++ l), data := im }

/-- A plan with a storage controller on function 0: 4 namespaces, 8 queues; and an engine of 4 connections. -/
def nvePlan : Plan :=
  [sec secMemPartition 0 (bytesWith 16 [(0, 1), (4, 22), (12, 64)]),
   sec secTeAlloc 0 (bytesWith 300 [(4, 16), (8, 4), (12, 2), (257, 4), (258, 4), (259, 2), (260, 2), (280, 2)]),
   sec secNveAlloc 0 (bytesWith 16 [(1, 4), (2, 8)]), sec secSchTree 0 [1]]

/-- A controller that is ready, with its admin queues and the I/O queue 1. -/
def nveCtl : NveCtl :=
  { nveCtlReset 0 with
    cc := 1, csts := 1,
    sqs := [⟨0, 0x10000, 16, 0, 0, 1⟩, ⟨1, 0x20000, 16, 1, 0, 1⟩],
    cqs := [⟨0, 0x30000, 16, 0, false, true, 0, 0⟩, ⟨1, 0x40000, 16, 0, false, true, 0, 2⟩] }

/-- The storage engine and the transport engine run, and function 0 may issue DMA. -/
def nveBare : State :=
  (((readyWith nvePlan).set F.TE_UC_STATUS_STATE 2).set F.MEM_IOMMU_DDTP_MODE 1).setCfg 0 4 4
def nveState : State := nveBare.setCtl 0 nveCtl

/-- A namespace of 100 blocks of 512 bytes on connection 0. -/
def nveNs : NveNs := ⟨0, 0, 100, BitVec.ofNat 64 (9 * 2 ^ 40)⟩

/-- An admitted command: queue, opcode, further bytes; and the state with it alone under way. PRP1 is 0x3000. -/
def nveReq (sq op : Nat) (l : List (Nat × Nat)) : NveCmd :=
  ⟨7, 0, sq, 3, op, bytesWith 64 ([(0, op), (2, 3), (4, 1), (25, 0x30)] ++ l), nveNs, false, 0, [], [], 0, false⟩
def nveWith (x : NveCmd) : State := nveState.withNve { nveState.nve with cmds := [x], nextId := 9 }

/-- A target command of Read or Write `x`, sent with identifier 5 on connection 0. -/
def nveSent (x : NveCmd) (op : Nat) (data : List Byte) : NveJob :=
  ⟨8, some x.id, 0, 1, 0, op, 0, [], data, 512, 0, some 5, 0, false, []⟩

/-- Connection 0 in a state, with bytes received; and the command `x` outstanding on it. -/
def nveConn (st : Nat) (rcv : List Byte) : NveConn :=
  { nveConnReset 0 with
    img := hSets (List.replicate 16 0) [(CI.state, st), (CI.tgtSqSize, 16), (CI.maxH2c, 4096), (CI.mss, 1460), (CI.retries, 3),
      (CI.sport, 1000), (CI.dport, 4420), (CI.rcvNxt, 100), (CI.sndWnd, 5000)], rcv := rcv, cwnd := 4000 }
def nveConnWith (st : Nat) (rcv : List Byte) (x : NveCmd) (op : Nat) (data : List Byte) : State :=
  ((nveWith x).setConn 0 (nveConn st rcv)).setJobs [nveSent x op data]

/-- A frame that carries a segment of connection 0 from its peer. -/
def tcpFrame : List Byte :=
  let k := { nveConn 1 [] with img := hSets (nveConn 1 []).img [(CI.sport, 4420), (CI.dport, 1000), (CI.rcvNxt, 0)] }
  let seg := tcpSegment k 100 16 7 500 [1, 2, 3]
  ethHeader 5 6 0 ++ tcpIp k false seg.length ++ seg
def tcpIn : TcpIn := (parseTcp tcpFrame).getD ⟨0, 0, 0, 0, 0, 0, 0, 0, none, [], [], false⟩

/-- A plan with 64 MiB of TD 0, PF 0 and its VF 1, each with 4 queues and 8 vectors, and an aperture; function 0
enabled. -/
def hifPlan : Plan :=
  [sec secMemPartition 0 (bytesWith 16 [(0, 2), (12, 64)]),
   sec secFunctions 0 (bytesWith 100 [(1, 20), (2, 4), (64, 1), (68, 4), (70, 8), (80, 1), (84, 4), (86, 8)])]
def hifState : State := ((readyWith hifPlan).set F.MEM_IOMMU_DDTP_MODE 1).setCfg 0 4 6

/-- Queue 1 of function 0 with rings of 64 entries; and the state that holds it. -/
def hifQ (st : Nat) : HifQueue := { hifReset 0 with st := st, sizes := 0x060606, sqBase := 0x10000, rqBase := 0x20000, cqBase := 0x30000 }
def hifWith (q : HifQueue) : State := hifState.setHq 1 q

/-- A descriptor of an opcode, fetched whole with 20 bytes of data. -/
def hifFetch (op : Nat) : HifFetch := ⟨bytesWith 64 [(0, 20), (7, op)], bytesWith 20 [(3, 7)], 2, 0, true, false, 5, 20⟩

/-- A packet of 60 bytes for queue 1, and a host memory command of function 0. -/
def hifPacket : Packet := ⟨header [(CH.kind, kPacket), (CH.dstQueue, 1), (CH.len, 60)], bytesWith 60 [(0, 1)], false⟩
def hostCmd (op td : Nat) (b : List Byte) : Packet := ⟨header [(CH.kind, kCommand), (CH.td, td), (CH.opcode, op)], b, false⟩
def hifHolds (m : Packet) : State := hifState.setInbox 0x10 [m]

/-- The mailbox of PF 0 after negotiation, with VF 1 numbered and session 7 open or in its handshake; and a request in it. -/
def spdmState (opened : Bool) : State :=
  let s := (hifState.setCfg 0 0x338 1).setCfg 0 0x340 1
  s.withWkt { s.wkt with conns := [(0, ⟨3, [1], [2], [3], [4]⟩)], sessions := [⟨0, 7, opened, 0, 0, [5], []⟩] }
def spdmAt (stage : Nat) : State := hifState.setSpdmConn 0 ⟨stage, [1], [], [], []⟩
def spdmReq (p1 p2 : Nat) (session : Option Nat) (b : List Byte) : SpdmReq := ⟨session, 0x13, p1, p2, b⟩

/-- Ring 5 of terrace 2 enabled, with 16 slots of `2 ^ n` bytes; and a packet of 20 bytes for it, waiting. -/
def ringWith (send : Bool) (n : Nat) : State :=
  (hifState.wr (ringReg 2 5 send) 0x10000).wr (ringReg 2 5 send + 8) (BitVec.ofNat 64 (2 ^ 63 + 4 * 256 + n))
def ringPacket : Packet := ⟨header [(CH.kind, kPacket), (CH.dstQueue, 5), (CH.len, 20)], bytesWith 20 [(1, 9)], false⟩
def ringHolds (s : State) : State := s.setInbox (terraceEp 2) [ringPacket]

/-- The IOMMU's command queue with one command. -/
def cqWith (w dst : Nat) : State :=
  (hifState.sets [(F.MEM_IOMMU_CSR_CQON, 1), (F.MEM_IOMMU_CQP_CQT, 1), (F.MEM_IOMMU_CQB_PPN, 0x40),
    (F.MEM_IOMMU_CQB_LOG2SZ, 3)]).putBytes 0x40000 (natLE 8 w ++ natLE 8 dst)

/-- A plan that allows a tile the sky states of a mask, and in which pavilion 0 is a group; and one tile of it set. -/
def tileWith (t mask : Nat) (x : Tile) : State :=
  (readyWith [sec secPwrPolicy 0 (bytesWith (8 * t + 8) [(8 * t, mask)]), sec secPavGroups 0 (bytesWith 16 [(0, 1)])]).setTile t x

/-- The device on its way to Night, at a step. -/
def nightAt (n : Nat) (wake : Bool) : State := hifState.withPwr { hifState.pwr with night := n, wake := wake }

/-- Domain 1 in Hold, its rail recovered. -/
def heldState : State :=
  (State.reset.set (F.PWR_DOM_STATUS_HOLD 1) 1).withPwr { State.reset.pwr with holdAt := [(1, 5)], dwelt := [1] }

/-- A change of domain 2's operating point under way. -/
def qualWith (todo : List (Nat × Nat)) : State :=
  State.reset.withPwr { State.reset.pwr with qual := some ⟨2, todo, [(750, 0)], false⟩ }

/-- The pins high, and one of them low. -/
def pinsHigh : Pins := ⟨true, true, true, true, 0, 0, 0, false⟩
def pinsWith (x : Pins) : State := State.reset.withPins x

/-! ### Well-formedness -/

/-- Commands with one operand out of its range are not well-formed. -/
theorem test_ill_formed_1 : ([
    .registerWrite .host 536870912 0 0 noEnv,
    .registerWrite (.core ⟨96, .m, .good⟩) 0 8 0 noEnv,
    .rcRegisterRead ⟨⟨96, .m, .good⟩, 0, 8⟩,
    .commitCancel 536870912,
    .frameReceive 16 [] ⟨false, false, false⟩,
    .pfcRepeat 16 0,
    .pfcRepeat 0 8,
    .ethPfcEnClear 16 0,
    .ethPfcEnClear 0 8,
    .pfcFrameReceived 16 0 (List.replicate 8 0),
    .pfcFrameReceived 0 256 (List.replicate 8 0),
    .pfcFrameReceived 0 0 [],
    .pfcPauseExpiry 16 0,
    .pfcPauseExpiry 0 8,
    .linkLoss 16 false,
    .linkTrainingComplete 16,
    .laneCalibrationComplete 16 [],
    .packetInject 512 none,
    .flitInject 512 none,
    .flitHop 6144 .clean,
    .headerDelivery ⟨6144, .clean⟩,
    .stallTimeout 512,
    .ejectionWatchdog 127,
    .ejectionWatchdog 0x100,
    .prmStallLimitWrite 16777216 [] [],
    .pavLoad 64 false,
    .pavHeaderCheckEnd 64 [] cleanRead,
    .pavScrubEnd 64 false,
    .pavFrameEnd 64 [] cleanRead,
    .userResetEnd 64,
    .pavUnload 64 0,
    .pavUnload 0 65536,
    .quiesceAck 64,
    .graceExpiry 64,
    .pavHbmWritesDone 64,
    .pavRelease 64,
    .pavCancel 64,
    .pavcRelease 64,
    .userReset 64,
    .pavcClkWrite 64 0 0,
    .pavcClkWrite 0 4 0,
    .pavcClkWrite 0 0 1048576,
    .clkcapWrite 64 0,
    .clkcapWrite 0 1024,
    .configScan 64 .clean,
    .pavHbmRequest 64 false 0 0 (List.replicate 64 0) 0,
    .pavHbmRequest 0 false 34359738368 0 (List.replicate 64 0) 0,
    .pavHbmRequest 0 false 1 0 (List.replicate 64 0) 0,
    .pavHbmRequest 0 false 0 256 (List.replicate 64 0) 0,
    .pavHbmRequest 0 false 0 0 [] 0,
    .regWindowAccess 64 false 0 0 ⟨0, true⟩] : List Instr).all (fun i => !i.wf) = true := by decide +kernel

/-- Commands with one operand out of its range are not well-formed. -/
theorem test_ill_formed_2 : ([
    .regWindowAccess 0 false 268435456 0 ⟨0, true⟩,
    .regReadReturn 64 ⟨0, true⟩,
    .pavRegTimeoutExpiry 64,
    .rxCreditReturn 127 0,
    .rxCreditReturn 0x100 0,
    .rxCreditReturn 128 4,
    .sleepReqRise 64,
    .sleepReqFall 64,
    .arbourDispatch 20 .none,
    .commitSequencerPass ⟨20, false⟩,
    .arbInitLimitExpiry 20,
    .arbRunLimitExpiry 20 0,
    .arbRunLimitExpiry 0 64,
    .deadlock 20 0,
    .deadlock 0 8,
    .haltHold 20 0,
    .haltHold 0 8,
    .parkTimeout 20 0,
    .parkTimeout 0 64,
    .arbBreakpointHalt 20 0,
    .arbBreakpointHalt 0 64,
    .arbHalt 20 0,
    .arbHalt 0 64,
    .arbResume 20 0,
    .arbResume 0 64,
    .arbStep 20 0 .none,
    .arbStep 0 64 .none,
    .arbAbandon 20 0,
    .arbAbandon 0 64,
    .arbHaltAll 20,
    .arbResumeAll 20,
    .arbNop 20 0 .none,
    .arbNop 0 64 .none,
    .arbAdd 20 0 .none,
    .arbAdd 0 64 .none,
    .arbSub 20 0 .none,
    .arbSub 0 64 .none,
    .arbAnd 20 0 .none,
    .arbAnd 0 64 .none,
    .arbOr 20 0 .none,
    .arbOr 0 64 .none,
    .arbXor 20 0 .none,
    .arbXor 0 64 .none,
    .arbAndn 20 0 .none,
    .arbAndn 0 64 .none,
    .arbShl 20 0 .none,
    .arbShl 0 64 .none,
    .arbShr 20 0 .none,
    .arbShr 0 64 .none,
    .arbSar 20 0 .none] : List Instr).all (fun i => !i.wf) = true := by decide +kernel

/-- Commands with one operand out of its range are not well-formed. -/
theorem test_ill_formed_3 : ([
    .arbSar 0 64 .none,
    .arbMinu 20 0 .none,
    .arbMinu 0 64 .none,
    .arbMaxu 20 0 .none,
    .arbMaxu 0 64 .none,
    .arbMul 20 0 .none,
    .arbMul 0 64 .none,
    .arbSltu 20 0 .none,
    .arbSltu 0 64 .none,
    .arbAddi 20 0 .none,
    .arbAddi 0 64 .none,
    .arbAndi 20 0 .none,
    .arbAndi 0 64 .none,
    .arbOri 20 0 .none,
    .arbOri 0 64 .none,
    .arbXori 20 0 .none,
    .arbXori 0 64 .none,
    .arbShli 20 0 .none,
    .arbShli 0 64 .none,
    .arbShri 20 0 .none,
    .arbShri 0 64 .none,
    .arbSari 20 0 .none,
    .arbSari 0 64 .none,
    .arbSltui 20 0 .none,
    .arbSltui 0 64 .none,
    .arbMovi 20 0 .none,
    .arbMovi 0 64 .none,
    .arbMovhi 20 0 .none,
    .arbMovhi 0 64 .none,
    .arbBfx 20 0 .none,
    .arbBfx 0 64 .none,
    .arbBfi 20 0 .none,
    .arbBfi 0 64 .none,
    .arbExt 20 0 .none,
    .arbExt 0 64 .none,
    .arbIns 20 0 .none,
    .arbIns 0 64 .none,
    .arbKcpy 20 0 .none,
    .arbKcpy 0 64 .none,
    .arbCrcwin 20 0 .none,
    .arbCrcwin 0 64 .none,
    .arbKput 20 0 .none,
    .arbKput 0 64 .none,
    .arbKclr 20 0 .none,
    .arbKclr 0 64 .none,
    .arbKprof 20 0 .none,
    .arbKprof 0 64 .none,
    .arbCrc 20 0 .none,
    .arbCrc 0 64 .none,
    .arbTpz 20 0 .none] : List Instr).all (fun i => !i.wf) = true := by decide +kernel

/-- Commands with one operand out of its range are not well-formed. -/
theorem test_ill_formed_4 : ([
    .arbTpz 0 64 .none,
    .arbLd 20 0 .none,
    .arbLd 0 64 .none,
    .arbSt 20 0 .none,
    .arbSt 0 64 .none,
    .arbBr 20 0 .none,
    .arbBr 0 64 .none,
    .arbBri 20 0 .none,
    .arbBri 0 64 .none,
    .arbJal 20 0 .none,
    .arbJal 0 64 .none,
    .arbJr 20 0 .none,
    .arbJr 0 64 .none,
    .arbRds 20 0 .none,
    .arbRds 0 64 .none,
    .arbEmitf 20 0 .none,
    .arbEmitf 0 64 .none,
    .arbCommit 20 0 .none,
    .arbCommit 0 64 .none,
    .arbEnd 20 0 .none,
    .arbEnd 0 64 .none,
    .arbLock 20 0 .none,
    .arbLock 0 64 .none,
    .arbUnlock 20 0 .none,
    .arbUnlock 0 64 .none,
    .arbSignal 20 0 .none,
    .arbSignal 0 64 .none,
    .arbWait 20 0 .none,
    .arbWait 0 64 .none,
    .arbOrder 20 0 .none,
    .arbOrder 0 64 .none,
    .arbPark 20 0 .none,
    .arbPark 0 64 .none,
    .arbTset 20 0 .none,
    .arbTset 0 64 .none,
    .arbRelease 20 0 .none,
    .arbRelease 0 64 .none,
    .acmShift false 128 0 0,
    .acmShift false 0 2048 0,
    .acmShift false 0 0 2048,
    .acmParityScan 128 0,
    .acmParityScan 0 2048,
    .indirectionTableWrite 524288 0,
    .emtInsert 64,
    .emtUpsert 64,
    .emtDelete 64,
    .emtFind 64,
    .emtReadAt 64,
    .emtDeleteAt 64,
    .emtRedirCommitGo 64] : List Instr).all (fun i => !i.wf) = true := by decide +kernel

/-- Device 0 with a two-level directory at 0x1000 and an Sv39 table at 0x3000 that maps 0x40201000 to 0x777000; the page
after it has neither A nor D. The entries are written from the formats of the RISC-V specifications. -/
def iommuState (tc : Nat) : State :=
  [(0x1000, 2 * 1024 + 1), (0x2000, tc), (0x2018, 8 * 2 ^ 60 + 3), (0x3008, 4 * 1024 + 1), (0x4008, 5 * 1024 + 1),
    (0x5008, 0x777 * 1024 + 0xD7), (0x5010, 0x778 * 1024 + 0x17)].foldl (fun s x => s.putBytes x.1 (natLE 8 x.2))
    (State.reset.sets [(F.MEM_IOMMU_DDTP_MODE, 3), (F.MEM_IOMMU_DDTP_PPN, 1)])

theorem test_iommu_walk : ((iommuState 1).dmaOut 0 none 0x40201234 true).1 = some (0x777234, false) := by decide +kernel

theorem test_iommu_dirty : (((iommuState 1).dmaOut 0 none 0x40202234 true).1 = none) ∧
    (((iommuState 0x101).dmaOut 0 none 0x40202234 true).2.bytes 0x5010 1 = [0xD7]) := by decide +kernel

/-- Commands with one operand out of its range are not well-formed. -/
theorem test_ill_formed_5 : ([
    .schEnqueue 16,
    .frameSelect 16 0 .clean,
    .frameTransmitEnd 16 0 .clean,
    .shaperRefill 4 0,
    .shaperRefill 0 65536,
    .schGclCommitGo 16,
    .gclChange 16,
    .gateEntryChange 16,
    .gclCycleStart 16,
    .cphAdmission 32 0 .clean,
    .keySlotFetch 1048576 .clean,
    .cphQuarantine 32,
    .cphTest 32,
    .cphTestEnd 32 false,
    .cphReinstate 32,
    .reinstateMove 256,
    .tePacketReceive 16 noHost,
    .teFnDoorbell 4096 0 noHost,
    .teFnCtrlPiWrite 4096 0,
    .teCreateQp 4096 noHost,
    .teModifyQp 4096 noHost,
    .teQueryQp 4096 noHost,
    .teDestroyQp 4096 noHost,
    .teCreateSrq 4096 noHost,
    .teModifySrq 4096 noHost,
    .teDestroySrq 4096 noHost,
    .teCreateCq 4096 noHost,
    .teDestroyCq 4096 noHost,
    .teRegMr 4096 noHost,
    .teDeregMr 4096 noHost,
    .teAllocMw 4096 noHost,
    .teSend 4194304 noHost,
    .teSendImm 4194304 noHost,
    .teSendInv 4194304 noHost,
    .teWrite 4194304 noHost,
    .teWriteImm 4194304 noHost,
    .teRead 4194304 noHost,
    .teAtomicCas 4194304 noHost,
    .teAtomicFaa 4194304 noHost,
    .teLocalInv 4194304 noHost,
    .teBindMw 4194304 noHost,
    .teWqeWait 4194304 noHost,
    .teWqeNop 4194304 noHost,
    .teTaggedReceive 65536 noHost,
    .teCancelReceive 65536 noHost,
    .invalidationComplete 16777216,
    .ackTimeout 4194304,
    .rnrTimer 4194304,
    .reorderTimer 4194304,
    .ccTimer 4194304] : List Instr).all (fun i => !i.wf) = true := by decide +kernel

/-- Commands with one operand out of its range are not well-formed. -/
theorem test_ill_formed_6 : ([
    .patchRepair 16 0,
    .nvmeDoorbell 4096 0 0,
    .nvmeAdmission 4096 [] .ok,
    .nveCipherCompletion 8,
    .nveCapsuleResp 65536,
    .nveC2hData 65536,
    .nvePduR2t 65536,
    .nveC2hTermReq 65536,
    .nveTcpSegmentReceive 16,
    .nveTcpRto 65536,
    .nveTargetTimeout 65536,
    .nveConnectionUp 65536,
    .nveCloseFin 65536,
    .nveCcShn 4096 0,
    .nveCcShn 0 4294967296,
    .nveCcEnClear 4096 0,
    .nveCcEnClear 0 4294967296,
    .queueEnable 1048576,
    .queueDisable 1048576,
    .queueStopped 1048576,
    .hifDbSq 1048576 0,
    .hifDbRq 1048576 0,
    .hifDbCq 1048576 0,
    .sendFrameFetch ⟨1048576, .clean⟩,
    .descSend 1048576,
    .descSendInline 1048576,
    .sendCarrier 1048576,
    .descNop 1048576,
    .hifReceive 4 [] cleanRead,
    .txReportReceive 4,
    .timestampTimeout 4 0,
    .timestampTimeout 0 4096,
    .moderationTimer 1048576,
    .hostRead 4 [] .ok,
    .hostWrite 4,
    .hostIntr 4,
    .hifFnRssWrite 4096 0 0,
    .hifFnRssWrite 0 128 0,
    .functionLevelReset 4096,
    .busMasterDisable 4096,
    .vfEnableClear 4,
    .configRequest ⟨4096, none, false⟩ 0 false 0 0,
    .configRequest ⟨0, none, false⟩ 4096 false 0 0,
    .configRequest ⟨0, none, false⟩ 0 false 16 0,
    .configRequest ⟨0, none, false⟩ 0 false 0 4294967296,
    .memoryReadRequest 4096 0 0 0 0 none false .clean,
    .memoryReadRequest 0 7 0 0 0 none false .clean,
    .memoryReadRequest 0 0 0 4097 0 none false .clean,
    .postedWriteRequest 4096 0 0 [] false none false noEnv noHost,
    .postedWriteRequest 0 7 0 [] false none false noEnv noHost] : List Instr).all (fun i => !i.wf) = true := by decide +kernel

/-- Commands with one operand out of its range are not well-formed. -/
theorem test_ill_formed_7 : ([
    .inboundCompletion 2 0 0 ⟨0, none, false⟩ false false [],
    .inboundCompletion 0 4 0 ⟨0, none, false⟩ false false [],
    .inboundCompletion 0 0 0 ⟨4096, none, false⟩ false false [],
    .completionTimeout 2 0,
    .tagQuarantineEnd 2 0,
    .pcieLinkDown 2 0,
    .pcieLinkDown 0 4,
    .pcieLinkUp 2 0 0 0 ⟨false, false⟩,
    .pcieLinkUp 0 4 0 0 ⟨false, false⟩,
    .pcieLinkUp 0 0 7 0 ⟨false, false⟩,
    .pcieLinkUp 0 0 0 5 ⟨false, false⟩,
    .l1IdleEntry 2 0,
    .l1IdleEntry 0 4,
    .l0pWindow 2 0 0 0 0 false,
    .l0pWindow 0 4 0 0 0 false,
    .atsInvalidationRequest ⟨4096, none, false⟩ ⟨0, none, 0, 12⟩,
    .atsInvalidationRequest ⟨0, none, false⟩ ⟨32, none, 0, 12⟩,
    .atsInvalidationRequest ⟨0, none, false⟩ ⟨0, none, 0, 65⟩,
    .hifAtwCommitGo 4,
    .atwApply 4,
    .doeDiscovery 4 0,
    .doeDiscovery 0 256,
    .ideKmRequest 4 0 [],
    .spdmGetVersion 4 noReq,
    .spdmGetCapabilities 4 noReq,
    .spdmNegotiateAlgorithms 4 noReq,
    .spdmGetDigests 4 noReq,
    .spdmGetCertificate 4 noReq,
    .spdmChallenge 4 noReq,
    .spdmGetMeasurements 4 noReq,
    .spdmKeyExchange 4 noReq,
    .spdmFinish 4 noReq,
    .spdmHeartbeat 4 noReq,
    .spdmKeyUpdate 4 noReq,
    .spdmEndSession 4 noReq,
    .spdmVendorMldsaSignature 4 noReq,
    .tdispGetVersion 4 0 0 0,
    .tdispGetVersion 0 0 4096 0,
    .tdispGetCapabilities 4 0 0 0,
    .tdispGetCapabilities 0 0 4096 0,
    .tdispLockInterface 4 0 0 0 [],
    .tdispLockInterface 0 0 4096 0 [],
    .tdispGetDeviceInterfaceReport 4 0 0 0 [],
    .tdispGetDeviceInterfaceReport 0 0 4096 0 [],
    .tdispGetDeviceInterfaceState 4 0 0 0,
    .tdispGetDeviceInterfaceState 0 0 4096 0,
    .tdispStartInterface 4 0 0 0 [],
    .tdispStartInterface 0 0 4096 0 [],
    .tdispStopInterface 4 0 0 0,
    .tdispStopInterface 0 0 4096 0,
    .bwGo 2] : List Instr).all (fun i => !i.wf) = true := by decide +kernel

/-- Commands with one operand out of its range are not well-formed. -/
theorem test_ill_formed_8 : ([
    .ringEnable 8 0 false 0,
    .ringEnable 0 64 false 0,
    .terraceReceive 8,
    .terraceSend 8 0 .clean,
    .terraceSend 0 64 .clean,
    .tbRefSelect 2 false,
    .slewEnd 4,
    .tbPortCfgWrite 16 0,
    .tileHazeEntry 838,
    .tileSleepDecision 838 0,
    .tileSleepDecision 0 4,
    .tileWakeComplete 838,
    .hartWfi 96 0,
    .hartWfi 0 4,
    .hartStart 128,
    .hartStop 128,
    .perstAssert 2,
    .perstDeassert 2,
    .sysRstDeassert 4 0 0 false,
    .sysRstDeassert 0 4 0 false,
    .sysRstDeassert 0 0 4 false,
    .supplyWarning 8 [],
    .holdDwellEnd 8,
    .quickCheckEnd 8 [],
    .holdLimitExpiry 8,
    .undervoltage 11,
    .replanIntervalWrite 4294967296,
    .verifySlot 2,
    .raise 3,
    .tapDmi 4 0 ⟨0, .clean, .clean⟩,
    .tapDmi 0 0 ⟨4294967296, .clean, .clean⟩,
    .completionLost 65536 [],
    .criticalStateRestore 1024 false,
    .ccEnSet 4096 0,
    .ccEnSet 0 4294967296,
    .laneLockAlignment 16,
    .atomicopIoRequest ⟨4096, none, false⟩ 0,
    .pcieMessage ⟨4096, none, false⟩ 0 0,
    .pcieMessage ⟨0, none, false⟩ 256 0,
    .l0pHostRequest 2 0 0,
    .l0pHostRequest 0 4 0,
    .l0pHostRequest 0 0 5,
    .postedWriteRequest 0 1 0 [] false none true noEnv noHost,
    .postedWriteRequest 0 0 0 (List.replicate 4097 0) false none true noEnv noHost,
    .packetInject 0 (some { head := true, tail := true, poison := false, vc := 0, vbytes := 1, words := [], data := [] }),
    .packetInject 0 (some { head := true, tail := true, poison := false, vc := 0, vbytes := 0, words := List.replicate 8 0, data := [] }),
    .packetInject 0 (some { head := true, tail := true, poison := false, vc := 0, vbytes := 129, words := List.replicate 8 0, data := [] }),
    .flitInject 0 (some { head := false, tail := true, poison := false, vc := 0, vbytes := 0, words := [], data := [] }),
    .flitInject 0 (some { head := false, tail := true, poison := false, vc := 0, vbytes := 129, words := [], data := [] }),
    .siteVerifyEnd [16]] : List Instr).all (fun i => !i.wf) = true := by decide +kernel

/-- Commands with one operand out of its range are not well-formed. -/
theorem test_ill_formed_9 : ([
    .memoryReadRequest 0 1 0 4 0 none true .clean,
    .memoryReadRequest 0 0 0 0 0 none true .clean,
    .ddrTrainingEnd [0] [],
    .ddrTrainingEnd [8193, 0, 0, 0] [],
    .ddrTrainingEnd [4096, 4096, 4096, 0] [],
    .ddrTrainingEnd [0, 0, 0, 0] [4],
    .tapWktToken [],
    .completionLost 0 []] : List Instr).all (fun i => !i.wf) = true := by decide +kernel

/-! ### Witnesses -/

/-- States and operands that meet the hypotheses of each clause of `EmptyQueueLetsTimePass`. -/
theorem witness_EmptyQueueLetsTimePass_1 : ∃ (s : State), (s.pending = []) ∧ (s.phase ≠ phNight) :=
  ⟨State.reset, by decide +kernel⟩

theorem witness_EmptyQueueLetsTimePass_2 : ∃ (s : State), (s.pending = []) ∧ (s.phase = phNight) ∧ (s.clk.lodge < 39) :=
  ⟨(State.reset.set F.BOOT_STATUS_PHASE phNight).withClk { State.reset.clk with lodge := 38 }, by decide +kernel⟩

theorem witness_EmptyQueueLetsTimePass_3 : ∃ (s : State) (k : Nat), (s.pending = []) ∧ (s.phase = phNight) ∧ (39 ≤ s.clk.lodge) ∧ (k < 4) ∧ ((s.tbase k).slew = 0) :=
  ⟨(State.reset.set F.BOOT_STATUS_PHASE phNight).withClk { State.reset.clk with lodge := 39 }, 3, by decide +kernel⟩

/-- A state and its next one that meet the hypotheses of `StepKeepsCanonicalForm`, and those of `CommandsLeaveTheQueue`. -/
theorem witness_StepKeepsCanonicalForm : ∃ s t : State, s.canonical = true ∧ step s = .next t :=
  ⟨State.reset.withPending [.timePllLock], State.reset.set F.TB_CLK_STATUS_PLL_LOCK 1, by decide, by rfl⟩

theorem witness_CommandsLeaveTheQueue : ∃ (i : Instr) (s t : State), exec i s = .next t :=
  ⟨.timePllLock, State.reset, State.reset.set F.TB_CLK_STATUS_PLL_LOCK 1, by rfl⟩

theorem witness_RecordingACondition : ∃ bit : Nat, bit < 64 := ⟨63, by decide⟩

/-- A code, an offset, a hart and an accessor that meet the hypotheses of `CodesWithoutUnit`. -/
theorem witness_CodesWithoutUnit : ∃ (s : State) (c x : Nat) (h : HartAccess) (who : Accessor), (c ∈ [0x06, 0x07, 0x0B, 0x0C, 0x0D, 0x0E, 0x0F, 0x1B, 0x1C, 0x1D, 0x1E, 0x1F]) ∧ (x < 0x1000000) ∧ (x % 8 = 0) ∧ (s.coreMay h (c * 0x1000000 + x) false = true) ∧ (s.mayWrite who (c * 0x1000000 + x) = true) :=
  ⟨readyWith [], 0x1F, 0xFFFFF8, ⟨0, .m, .good⟩, .host, by decide +kernel⟩

/-- An offset, a hart and an accessor that meet the hypotheses of `OffsetsWithoutRegister`. -/
theorem witness_OffsetsWithoutRegister : ∃ (s : State) (o : Nat) (h : HartAccess) (who : Accessor), (findReg (unitRegs (o / 0x1000000)) (o % 0x1000000) = none) ∧ (inIommu o = false) ∧ (o % 8 = 0) ∧ (s.coreMay h o false = true) ∧ (s.mayWrite who o = true) :=
  ⟨readyWith [], 0x080FFFF8, ⟨0, .m, .good⟩, .host, by decide +kernel⟩

/-- States and operands that meet the hypotheses of each clause of `EntryCommandBounds`. -/
theorem witness_EntryCommandBounds_1 : ∃ (s : State) (k : AcmCmd), (s.acm.cmd = some k) ∧ (k.op = 1 ∨ k.op = 2) ∧ ((cFirstEn k.buf.ctrl = true ∧ (s.committed + 16 - s.verBase) % 16 + 1 < (cFirst k.buf.ctrl + 16 - s.verBase) % 16) ∨ (cLastEn k.buf.ctrl = true ∧ (s.committed + 16 - s.verBase) % 16 < (cLast k.buf.ctrl + 16 - s.verBase) % 16)) :=
  ⟨State.reset.withAcm { State.reset.acm with cmd := some ⟨1, 0, 5, ⟨[], [], 0xC020000000000000⟩⟩ }, ⟨1, 0, 5, ⟨[], [], 0xC020000000000000⟩⟩, by decide +kernel⟩

theorem witness_EntryCommandBounds_2 : ∃ (s : State) (k : AcmCmd), (s.acm.cmd = some k) ∧ (k.op = 1 ∨ k.op = 2) ∧ ((!cFirstEn k.buf.ctrl || decide ((cFirst k.buf.ctrl + 16 - s.verBase) % 16 ≤ (s.committed + 16 - s.verBase) % 16 + 1)) = true) ∧ ((!cLastEn k.buf.ctrl || decide ((cLast k.buf.ctrl + 16 - s.verBase) % 16 ≤ (s.committed + 16 - s.verBase) % 16)) = true) :=
  ⟨State.reset.withAcm { State.reset.acm with cmd := some ⟨2, 0, 5, ⟨[], [], 0xC010000000000000⟩⟩ }, ⟨2, 0, 5, ⟨[], [], 0xC010000000000000⟩⟩, by decide +kernel⟩

/-- States and operands that meet the hypotheses of each clause of `RegisterAccesses`. -/
theorem witness_RegisterAccesses_1 : ∃ (s : State) (who : Accessor) (value : Word) (env : CsrEnv), (s.mayWrite who R.SITE_QUIESCE_LIMIT = true) ∧ (1000 ≤ bitsAt value 31 0) ∧ (bitsAt value 31 0 ≤ 60000000) ∧ (s.get F.SITE_DRAIN_LIMIT_LIMIT_US ≤ bitsAt value 31 0) :=
  ⟨State.reset, mHart, 0xFFFFFFFF00002000, noEnv, by decide +kernel⟩

theorem witness_RegisterAccesses_2 : ∃ (s : State) (who : Accessor) (value : Word) (env : CsrEnv), (s.mayWrite who R.SITE_QUIESCE_LIMIT = true) ∧ ((bitsAt value 31 0 < 1000 ∨ 60000000 < bitsAt value 31 0)) :=
  ⟨State.reset, mHart, 999, noEnv, by decide +kernel⟩

theorem witness_RegisterAccesses_3 : ∃ (s : State) (who : Accessor) (value : Word) (env : CsrEnv), (s.mayWrite who R.SITE_SRC_ADDR_STG = true) ∧ (s.get F.SITE_COMMIT_PENDING = 1) ∧ (bitsAt value 63 0 % 64 = 0) :=
  ⟨State.reset.set F.SITE_COMMIT_PENDING 1, mHart, 64, noEnv, by decide +kernel⟩

theorem witness_RegisterAccesses_4 : ∃ (s : State) (who : Accessor) (value : Word) (env : CsrEnv), (s.mayWrite who R.SITE_ERR_STATUS = true) :=
  ⟨State.reset.wr R.SITE_ERR_STATUS 15, mHart, 5, noEnv, by decide +kernel⟩

theorem witness_RegisterAccesses_5 : ∃ (s : State) (who : Accessor) (value : Word) (env : CsrEnv), (s.mayWrite who R.SITE_LIVE_SEQ = true) :=
  ⟨State.reset, mHart, 5, noEnv, by decide +kernel⟩

theorem witness_RegisterAccesses_6 : ∃ (s : State) (x : HartAccess) (offset : Nat) (value : Word) (env : CsrEnv), (x.fetch = .good) ∧ (offset % 8 ≠ 0) ∧ (inIommu offset = false) :=
  ⟨State.reset, ⟨0, .m, .good⟩, 4, 0, noEnv, by decide +kernel⟩

theorem witness_RegisterAccesses_7 : ∃ (s : State) (x : HartAccess) (offset size : Nat) (value : Word) (env : CsrEnv), (x.fetch = .good) :=
  ⟨State.reset, ⟨0, .u, .good⟩, 0x08000078, 8, 5000, noEnv, by decide +kernel⟩

theorem witness_RegisterAccesses_8 : ∃ (s : State) (x : HartAccess) (offset size : Nat) (write : Bool), (x.mode = .u ∨ x.mode = .vs ∨ x.mode = .vu) ∧ (s.coreReaches x offset size write = false) :=
  ⟨State.reset, ⟨0, .vs, .good⟩, 0, 8, true, by decide +kernel⟩

theorem witness_RegisterAccesses_9 : ∃ (s : State) (offset : Nat) (value : Word) (env : CsrEnv), (s.refusing = false) ∧ (offset % 8 ≠ 0) ∧ (inIommu offset = false) :=
  ⟨readyWith [], 4, 0, noEnv, by decide +kernel⟩

theorem witness_RegisterAccesses_10 : ∃ (s : State) (offset size : Nat) (value : Word) (env : CsrEnv), (s.refusing = true) :=
  ⟨State.reset, 0, 8, 0, noEnv, by decide +kernel⟩

theorem witness_RegisterAccesses_11 : ∃ (s : State) (x : HartAccess), (s.coreMay x R.SITE_DRAIN_DISCARD false = true) :=
  ⟨State.reset.set F.SITE_DRAIN_DISCARD_COUNT 7, ⟨0, .m, .good⟩, by decide +kernel⟩

theorem witness_RegisterAccesses_12 : ∃ (s : State), (s.get F.TB_COMMIT_PENDING = 1) ∧ (s.tbDue = false) :=
  ⟨(State.reset.set F.TB_COMMIT_PENDING 1).withClk { State.reset.clk with target := 2 ^ 100 }, by decide +kernel⟩

theorem witness_RegisterAccesses_13 : ∃ (s : State), (s.get F.TB_COMMIT_PENDING = 0) :=
  ⟨State.reset, by decide +kernel⟩

/-- States and operands that meet the hypotheses of each clause of `EthernetLinks`. -/
theorem witness_EthernetLinks_1 : ∃ (s : State) (port : Nat), (s.get (F.ETH_LINK_STATUS_TRAINING port) ≠ 0) :=
  ⟨State.reset.set (F.ETH_LINK_STATUS_TRAINING 3) 1, 3, by decide +kernel⟩

theorem witness_EthernetLinks_2 : ∃ (s : State) (port : Nat), (portPresent s.plan port = true) ∧ (s.taking = true) ∧ (s.underAmendment secPortLayout 0 port = false) ∧ (s.get (F.ETH_LINK_CTRL_EN port) = 1) ∧ (linkUp s port = false) ∧ (portTrains s.plan port = false) :=
  ⟨(readyWith [sec secPortLayout 0 (bytesWith 16 [(0, 1), (6, 2)])]).set (F.ETH_LINK_CTRL_EN 0) 1, 0, by decide +kernel⟩

theorem witness_EthernetLinks_3 : ∃ (s : State) (port : Nat) (latencies : List (Nat × Nat)), (port < 16) ∧ (s.eth.measuring.contains port = true) ∧ (s.get (F.ETH_LINK_CTRL_EN port) = 1) :=
  ⟨((readyWith [sec secPortLayout 0 (bytesWith 16 [(0, 1), (3, 2)])]).set (F.ETH_LINK_CTRL_EN 0) 1).setMeasuring [0], 0, [(5, 7), (9, 11)], by decide +kernel⟩

theorem witness_EthernetLinks_4 : ∃ (s : State) (port : Nat) (receiving : Bool), (port < 16) ∧ (linkUp s port = true) :=
  ⟨State.reset.set (F.ETH_LINK_STATUS_UP 3) 1, 3, true, by decide +kernel⟩

/-- States and operands that meet the hypotheses of each clause of `FrameReceptionAndPause`. -/
theorem witness_FrameReceptionAndPause_1 : ∃ (s : State) (port : Nat) (data : List Byte) (marked : Bool), (linkUp s port = true) ∧ ((marked = true → portFec s.plan port ≠ 2)) ∧ (60 ≤ data.length) ∧ (data.length + 4 ≤ s.get (F.ETH_RX_CFG_MAX_FRAME port)) ∧ (beAt data 12 2 ≠ 0x8808) ∧ (s.get (F.ETH_RX_CFG_UC_FILTER port) = 0) ∧ ((s.arrivingAt port).dropped = false) ∧ (s.ibufBytes + data.length + 4 ≤ 67108864) :=
  ⟨State.reset.set (F.ETH_LINK_STATUS_UP 3) 1, 3, bytesWith 60 [], true, by decide +kernel⟩

theorem witness_FrameReceptionAndPause_2 : ∃ (s : State) (port : Nat) (data : List Byte) (marks : FrameMarks), (linkUp s port = true) ∧ (marks.arriving = false) ∧ (marks.good = false ∨ (marks.marked = true ∧ portFec s.plan port = 2) ∨ data.length < 60) :=
  ⟨State.reset.set (F.ETH_LINK_STATUS_UP 3) 1, 3, bytesWith 60 [], ⟨false, false, false⟩, by decide +kernel⟩

theorem witness_FrameReceptionAndPause_3 : ∃ (s : State) (port : Nat) (data : List Byte) (marked : Bool), (linkUp s port = true) ∧ ((marked = true → portFec s.plan port ≠ 2)) ∧ (60 ≤ data.length) ∧ (s.get (F.ETH_RX_CFG_MAX_FRAME port) < data.length + 4) :=
  ⟨(State.reset.set (F.ETH_LINK_STATUS_UP 3) 1).set (F.ETH_RX_CFG_MAX_FRAME 3) 64, 3, bytesWith 61 [], true, by decide +kernel⟩

theorem witness_FrameReceptionAndPause_4 : ∃ (s : State) (port : Nat) (data : List Byte) (good marked : Bool), (linkUp s port = true) ∧ (16 ≤ data.length) ∧ (beAt data 12 2 ≠ 0x8808) ∧ (s.get (F.ETH_RX_CFG_UC_FILTER port) = 0) ∧ ((s.arrivingAt port).dropped = false) ∧ (s.ibufBytes + data.length ≤ 67108864) :=
  ⟨State.reset.set (F.ETH_LINK_STATUS_UP 3) 1, 3, bytesWith 60 [], true, false, by decide +kernel⟩

theorem witness_FrameReceptionAndPause_5 : ∃ (s : State) (port prio : Nat), (s.eth.repeating.contains (8 * port + prio) = true) ∧ (s.pfcOver port prio = true) :=
  ⟨((State.reset.setRepeating [10]).set (F.ETH_PFC_THR_XOFF_KIB 10) 0).withFrames [⟨1, 0, 2, 0, [], 0, 0, false, false⟩], 1, 2, by decide +kernel⟩

theorem witness_FrameReceptionAndPause_6 : ∃ (s : State) (port prio : Nat), (prio < 8) ∧ (portPresent s.plan port = true) ∧ (s.underAmendment secPortLayout 0 port = false) :=
  ⟨(readyWith [sec secPortLayout 0 (bytesWith 16 [(0, 1)])]).setRepeating [5], 0, 5, by decide +kernel⟩

theorem witness_FrameReceptionAndPause_7 : ∃ (s : State) (port enable : Nat) (times : List Nat), (linkUp s port = true) :=
  ⟨State.reset.set (F.ETH_LINK_STATUS_UP 3) 1, 3, 0x81, [7, 0, 0, 0, 0, 0, 0, 0], by decide +kernel⟩

theorem witness_FrameReceptionAndPause_8 : ∃ (s : State) (port prio : Nat), (prio < 8) ∧ (s.epHeld (0x1B0 + port) = false) ∧ ((s.get (F.SCH_PORT_STATUS_PAUSED port)).testBit prio = true) :=
  ⟨State.reset.set (F.SCH_PORT_STATUS_PAUSED 3) 5, 3, 2, by decide +kernel⟩

/-- States and operands that meet the hypotheses of each clause of `PromenadeInjection`. -/
theorem witness_PromenadeInjection_1 : ∃ (s : State) (ep : Nat) (p : Packet) (rest : List Packet), (s.stationRuns (epStation s.plan ep) = true) ∧ (s.waiting ep = []) ∧ (spGet (fun _ => []) s.prm.out ep = p :: rest) ∧ (epClass ep ≠ some 6) ∧ ((s.injector ep).active = false) ∧ (s.heldAtInjection p.words = false) ∧ (s.injRoom ep (kindVc (hGet p.words CH.kind)) = true) ∧ (injectCheck s.plan ep p.words = none) :=
  ⟨(readyWith [sec secPrmEndpoints 0 (bytesWith 24 [(0, 1), (8, 255)])]).send 0 ⟨header [(CH.kind, kMessage)], [], false⟩, 0, ⟨header [(CH.kind, kMessage)], [], false⟩, [], by decide +kernel⟩

theorem witness_PromenadeInjection_2 : ∃ (s : State) (ep : Nat) (p : Packet) (rest : List Packet), (s.stationRuns (epStation s.plan ep) = true) ∧ (s.waiting ep = []) ∧ (spGet (fun _ => []) s.prm.out ep = p :: rest) ∧ (epClass ep ≠ some 6) ∧ ((s.injector ep).active = false) ∧ (s.heldAtInjection p.words = false) ∧ (s.injRoom ep (kindVc (hGet p.words CH.kind)) = true) ∧ (injectCheck s.plan ep p.words = some (0x02, 1)) :=
  ⟨State.reset.send 0 ⟨header [(CH.kind, kMessage)], [], false⟩, 0, ⟨header [(CH.kind, kMessage)], [], false⟩, [], by decide +kernel⟩

theorem witness_PromenadeInjection_3 : ∃ (s : State) (ep : Nat), (s.stationRuns (epStation s.plan ep) = true) ∧ (epClass ep ≠ some 6) ∧ ((s.injector ep).active = true) ∧ (s.injRoom ep (s.flight (s.injector ep).pkt).vc = true) ∧ ((s.injector ep).got ≤ (s.injector ep).need) :=
  ⟨State.reset.setInjector 3 ⟨true, 0, 128, 300, List.replicate 172 1, false, none⟩, 3, by decide +kernel⟩

theorem witness_PromenadeInjection_4 : ∃ (s : State) (ep : Nat), (s.stationRuns (epStation s.plan ep) = true) ∧ (epClass ep ≠ some 6) ∧ ((s.injector ep).active = true) ∧ (s.stallCredit ep = true) :=
  ⟨State.reset.setInjector 3 ⟨true, 0, 128, 300, List.replicate 172 1, false, none⟩, 3, by decide +kernel⟩

theorem witness_PromenadeInjection_5 : ∃ (s : State) (limit : Nat), (1 ≤ limit) ∧ (limit ≤ 16000) :=
  ⟨State.reset, 16000, by decide +kernel⟩

theorem witness_PromenadeInjection_6 : ∃ (s : State) (limit : Nat) (overIn overEject : List Nat), ((limit = 0 ∨ 16000 < limit)) :=
  ⟨State.reset, 16001, [], [], by decide +kernel⟩

/-- States and operands that meet the hypotheses of each clause of `PromenadeTransit`. -/
theorem witness_PromenadeTransit_1 : ∃ (s : State) (key d : Nat) (f : Flit) (rest : List Flit), (s.buf key = f :: rest) ∧ (s.stationRuns (bufStation s.plan key) = true) ∧ ((s.flight f.pkt).dropAt ≠ some (bufStation s.plan key)) ∧ (nextDir (bufStation s.plan key) (epStation s.plan (hGet (s.flight f.pkt).words CH.dstEp)) = some d) ∧ (linkKey (bufStation s.plan key) d (s.flight f.pkt).vc ≠ key) ∧ (s.winsLink (bufStation s.plan key) d key = true) :=
  ⟨flitState 2 true, injKey 0 1, 0, crossFlit true, [], by first | decide +kernel | rfl, by first | decide +kernel | rfl, by first | decide +kernel | rfl, by first | decide +kernel | rfl, by first | decide +kernel | rfl, by first | decide +kernel | rfl⟩

theorem witness_PromenadeTransit_2 : ∃ (s : State) (key dst vc : Nat) (f : Flit) (rest : List Flit) (w : List Word), (s.buf key = f :: rest) ∧ (s.stationRuns (bufStation s.plan key) = true) ∧ (f.head = true) ∧ ((s.flight f.pkt).dropAt ≠ some (bufStation s.plan key)) ∧ (dst = hGet (s.flight f.pkt).words CH.dstEp) ∧ (vc = (s.flight f.pkt).vc) ∧ (w = hSet (s.flight f.pkt).words CH.wake (if (s.flight f.pkt).woke then 1 else 0)) ∧ (nextDir (bufStation s.plan key) (epStation s.plan dst) = none) ∧ (s.rxOf dst vc = none) ∧ (s.tileClear (epTile dst) = true) ∧ (epClass dst ≠ some 6) ∧ (wakeProbe w = false) ∧ (s.ejectRoom dst vc = true) ∧ (hGet w CH.dbg = 0) ∧ (f.tail = false) :=
  ⟨flitState 0 false, injKey 0 1, 0x20, 1, crossFlit false, [], hSet crossHeader CH.wake 0, by first | decide +kernel | rfl, by first | decide +kernel | rfl, by first | decide +kernel | rfl, by first | decide +kernel | rfl, by first | decide +kernel | rfl, by first | decide +kernel | rfl, by first | decide +kernel | rfl, by first | decide +kernel | rfl, by first | decide +kernel | rfl, by first | decide +kernel | rfl, by first | decide +kernel | rfl, by first | decide +kernel | rfl, by first | decide +kernel | rfl, by first | decide +kernel | rfl, by first | decide +kernel | rfl⟩

theorem witness_PromenadeTransit_3 : ∃ (s : State) (key dst vc : Nat) (f : Flit) (rest : List Flit) (w : List Word), (s.buf key = f :: rest) ∧ (s.stationRuns (bufStation s.plan key) = true) ∧ (f.head = true) ∧ ((s.flight f.pkt).dropAt ≠ some (bufStation s.plan key)) ∧ (dst = hGet (s.flight f.pkt).words CH.dstEp) ∧ (vc = (s.flight f.pkt).vc) ∧ (w = hSet (s.flight f.pkt).words CH.wake (if (s.flight f.pkt).woke then 1 else 0)) ∧ (nextDir (bufStation s.plan key) (epStation s.plan dst) = none) ∧ (s.rxOf dst vc = none) ∧ (s.tileClear (epTile dst) = true) ∧ (epClass dst ≠ some 6) ∧ (wakeProbe w = false) ∧ (s.ejectRoom dst vc = true) ∧ (hGet w CH.dbg = 0) ∧ (f.tail = true) ∧ (f.abort = false) ∧ (dst < 0x1B0) ∧ (takesNothing dst = false) ∧ (hGet w CH.kind = kCommand ∨ hGet w CH.kind = kPacket ∨ hGet w CH.kind = kEvent) :=
  ⟨flitState 0 true, injKey 0 1, 0x20, 1, crossFlit true, [], hSet crossHeader CH.wake 0, by first | decide +kernel | rfl, by first | decide +kernel | rfl, by first | decide +kernel | rfl, by first | decide +kernel | rfl, by first | decide +kernel | rfl, by first | decide +kernel | rfl, by first | decide +kernel | rfl, by first | decide +kernel | rfl, by first | decide +kernel | rfl, by first | decide +kernel | rfl, by first | decide +kernel | rfl, by first | decide +kernel | rfl, by first | decide +kernel | rfl, by first | decide +kernel | rfl, by first | decide +kernel | rfl, by first | decide +kernel | rfl, by first | decide +kernel | rfl, by first | decide +kernel | rfl, by first | decide +kernel | rfl⟩

theorem witness_PromenadeTransit_4 : ∃ (s : State) (key : Nat) (f : Flit) (rest : List Flit), (s.buf key = f :: rest) ∧ (s.stationRuns (bufStation s.plan key) = true) ∧ (f.head = true) ∧ ((s.flight f.pkt).dropAt ≠ some (bufStation s.plan key)) ∧ (nextDir (bufStation s.plan key) (epStation s.plan (hGet (s.flight f.pkt).words CH.dstEp)) = none) ∧ (s.rxOf (hGet (s.flight f.pkt).words CH.dstEp) (s.flight f.pkt).vc = none) ∧ ((s.tile (epTile (hGet (s.flight f.pkt).words CH.dstEp))).hold = false) ∧ ((s.tile (epTile (hGet (s.flight f.pkt).words CH.dstEp))).sky ≠ 0) ∧ ((s.tile (epTile (hGet (s.flight f.pkt).words CH.dstEp))).waking = false) :=
  ⟨(flitState 0 false).setTile (epTile 0x20) { State.reset.tile 0 with sky := 1 }, injKey 0 1, crossFlit false, [], by first | decide +kernel | rfl, by first | decide +kernel | rfl, by first | decide +kernel | rfl, by first | decide +kernel | rfl, by first | decide +kernel | rfl, by first | decide +kernel | rfl, by first | decide +kernel | rfl, by first | decide +kernel | rfl, by first | decide +kernel | rfl⟩

theorem witness_PromenadeTransit_5 : ∃ (s : State) (ep : Nat), ((s.loadedTd ep).isSome = true) ∧ (s.ejectStalled ep = true) :=
  ⟨stallState, 0x80, by decide +kernel⟩

/-- States and operands that meet the hypotheses of each clause of `SitePlanLoading`. -/
theorem witness_SitePlanLoading_1 : ∃ (s : State), (s.get F.SITE_COMMIT_PENDING = 0) :=
  ⟨State.reset, by decide +kernel⟩

theorem witness_SitePlanLoading_2 : ∃ (s : State) (hostBytes : List Byte) (ecc : EccResult), (s.sitePhase = sCopy) ∧ (s.get F.SITE_SRC_CFG_STG_HOST = 1) ∧ (s.dmaAllowed 0 = true) ∧ (s.dmaWaits 0 = false) ∧ ((s.readPass 0 none (s.get F.SITE_SRC_ADDR_STG_ADDR) (min planMax (s.get F.SITE_SRC_LEN_STG_LEN))).1 = true) :=
  ⟨((State.reset.set F.SITE_STATUS_PHASE 1).set F.SITE_SRC_CFG_STG_HOST 1).set F.MEM_IOMMU_DDTP_MODE 1 |>.setCfg 0 0x04 6, [1, 2], .clean, by decide +kernel⟩

theorem witness_SitePlanLoading_3 : ∃ (s : State) (hostBytes : List Byte) (dma : DmaEnd), (s.sitePhase = sCopy) ∧ (s.get F.SITE_SRC_CFG_STG_HOST = 0) ∧ (s.operatorReaches (s.get F.SITE_SRC_ADDR_STG_ADDR) (min planMax (s.get F.SITE_SRC_LEN_STG_LEN)) = true) ∧ (s.poisoned (s.get F.SITE_SRC_ADDR_STG_ADDR) (min planMax (s.get F.SITE_SRC_LEN_STG_LEN)) = false) :=
  ⟨(State.reset.set F.SITE_STATUS_PHASE 1).set F.SITE_SRC_LEN_STG_LEN 64, [], .ok, by decide +kernel⟩

theorem witness_SitePlanLoading_4 : ∃ (s : State) (hostBytes : List Byte) (dma : DmaEnd), (s.sitePhase = sCopy) ∧ (s.get F.SITE_SRC_CFG_STG_HOST = 0) :=
  ⟨State.reset.set F.SITE_STATUS_PHASE 1, [], .ok, by decide +kernel⟩

theorem witness_SitePlanLoading_5 : ∃ (s : State) (receiving : List Nat), (s.sitePhase = sVerify) :=
  ⟨State.reset.set F.SITE_STATUS_PHASE 2, [], by decide +kernel⟩

theorem witness_SitePlanLoading_6 : ∃ (s : State), (s.sitePhase = sQuiesce) ∧ (s.site.diff.all s.quiescent = true) ∧ (s.pwr.holdAt = []) :=
  ⟨State.reset.set F.SITE_STATUS_PHASE 3, by decide +kernel⟩

theorem witness_SitePlanLoading_7 : ∃ (s : State), (s.sitePhase = sQuiesce) ∧ (s.site.diff.all s.quiescent = false) :=
  ⟨(((State.reset.set F.SITE_STATUS_PHASE 3).set (F.ETH_LINK_STATUS_UP 0) 1)).withSite { State.reset.site with diff := [(secPortLayout, 0, 0)] }, by decide +kernel⟩

theorem witness_SitePlanLoading_8 : ∃ (s : State), (s.sitePhase = sQuiesce) :=
  ⟨State.reset.set F.SITE_STATUS_PHASE 3, by decide +kernel⟩

theorem witness_SitePlanLoading_9 : ∃ (s : State) (i : PlanInfo), (s.sitePhase = sApply) ∧ (s.pwr.holdAt = []) ∧ (s.site.info = some i) :=
  ⟨(State.reset.set F.SITE_STATUS_PHASE 4).withSite { State.reset.site with next := [sec 99 0 []], info := some ⟨0, 7, 3, 0, 0, [], [], [], [], [], [], []⟩ }, ⟨0, 7, 3, 0, 0, [], [], [], [], [], [], []⟩, by decide +kernel⟩

theorem witness_SitePlanLoading_10 : ∃ (s : State), (s.sitePhase = sResume) ∧ (s.pwr.holdAt = []) :=
  ⟨State.reset.set F.SITE_STATUS_PHASE 5, by decide +kernel⟩

theorem witness_SitePlanLoading_11 : ∃ (s : State), (sCopy ≤ s.sitePhase) ∧ (s.sitePhase ≤ sQuiesce) :=
  ⟨State.reset.set F.SITE_STATUS_PHASE 2, by decide +kernel⟩

/-- States and operands that meet the hypotheses of each clause of `PavilionLoading`. -/
theorem witness_PavilionLoading_1 : ∃ (s : State) (group : Nat) (host : Bool), (s.taking = true) ∧ (group < 64) ∧ (grpFirst s.plan group = true) ∧ (s.grpState group = gEmpty) ∧ (grpLoadable s.plan group = true) ∧ (s.scrubFailed group = false) ∧ (s.isOpen = false) ∧ (s.get F.WKT_LIFECYCLE_ERASING = 0) ∧ (s.get F.PAV_CMD_ARG0_ADDR % 64 = 0) ∧ (s.get F.PAV_CMD_ARG1_LEN % 64 = 0) ∧ (s.get F.PAV_CMD_ARG1_LEN ≤ 4096 + 2 ^ grpSizeLog2 s.plan group * 25165824) ∧ (s.underAmendment secPavGroups 0 group = false) :=
  ⟨readyWith [sec secPavGroups 0 (bytesWith 32 [(0, 1), (4, 1)])], 0, true, by decide +kernel⟩

theorem witness_PavilionLoading_2 : ∃ (s : State) (group : Nat) (host : Bool), (s.taking = true) ∧ (group < 64) ∧ (grpFirst s.plan group = true) ∧ (s.grpState group ≠ gEmpty) :=
  ⟨(readyWith [sec secPavGroups 0 (bytesWith 32 [(0, 1), (4, 1)])]).set (F.PAV_GRP_STATE_STATE 0) 2, 0, true, by decide +kernel⟩

theorem witness_PavilionLoading_3 : ∃ (s : State) (group : Nat) (hostBytes : List Byte) (x : SrcRead), ((s.grp group).phase = .header) ∧ (s.grpHeld group = false) ∧ (s.operatorWaits (s.grp group).host = false) ∧ ((if (s.grp group).host then x.dma ≠ .ok else x.ecc = .uncorrectable)) :=
  ⟨State.reset.setGrp 5 { groupReset 5 with phase := .header }, 5, [], ⟨.uncorrectable, .ok⟩, by decide +kernel⟩

theorem witness_PavilionLoading_4 : ∃ (s : State) (group : Nat) (hostBytes : List Byte), ((s.grp group).phase = .header) ∧ (s.operatorWaits (s.grp group).host = false) ∧ (s.grpHeld group = false) :=
  ⟨State.reset.setGrp 5 { groupReset 5 with phase := .header, host := true }, 5, [], by decide +kernel⟩

theorem witness_PavilionLoading_5 : ∃ (s : State) (group : Nat), ((s.grp group).phase = .scrub) ∧ ((s.grp group).scrubForLoad = true) ∧ (s.grpHeld group = false) :=
  ⟨State.reset.setGrp 5 { groupReset 5 with phase := .scrub, scrubForLoad := true }, 5, by decide +kernel⟩

theorem witness_PavilionLoading_6 : ∃ (s : State) (group : Nat), (group < 64) ∧ ((s.grp group).phase = .scrub) ∧ ((s.grp group).scrubForLoad = false) ∧ (s.grpHeld group = false) :=
  ⟨State.reset.setGrp 5 { groupReset 5 with phase := .scrub }, 5, by decide +kernel⟩

theorem witness_PavilionLoading_7 : ∃ (s : State) (group : Nat), (group < 64) ∧ ((s.grp group).phase = .scrub) ∧ (s.grpHeld group = false) :=
  ⟨State.reset.setGrp 5 { groupReset 5 with phase := .scrub, scrubs := 1 }, 5, by decide +kernel⟩

theorem witness_PavilionLoading_8 : ∃ (s : State) (member g : Nat) (hostBytes fr : List Byte) (fs : List (Nat × List Byte)), (grpOf s.plan member = some g) ∧ ((s.grp g).phase = .frames) ∧ (((spGet (fun _ => []) s.pav.engines (member % 8)).head? = some member)) ∧ (s.grpHeld g = false) ∧ (s.operatorWaits (s.grp g).host = false) ∧ ((if (s.grp g).host then s.dmaAllowed 0 = true ∧ (s.readPass 0 none ((s.grp g).src + frameStart (s.grp g).hdr (member - g)) (frameLen (s.grp g).hdr (member - g))).1 = true ∧ fr = bytesAt hostBytes 0 (frameLen (s.grp g).hdr (member - g)) else s.operatorReaches ((s.grp g).src + frameStart (s.grp g).hdr (member - g)) (frameLen (s.grp g).hdr (member - g)) = true ∧ s.poisoned ((s.grp g).src + frameStart (s.grp g).hdr (member - g)) (frameLen (s.grp g).hdr (member - g)) = false ∧ fr = s.bytes ((s.grp g).src + frameStart (s.grp g).hdr (member - g)) (frameLen (s.grp g).hdr (member - g)))) ∧ (fs = spInsert (s.grp g).frames (member - g) fr) ∧ (frameStart (s.grp g).hdr (2 ^ grpSizeLog2 s.plan g) = (s.grp g).len) :=
  ⟨(fun s : State => s.withPav { s.pav with engines := [(0, [0])] }) ((readyWith [sec secMemPartition 0 (bytesWith 16 [(0, 2), (12, 64)]), sec secPavGroups 0 (bytesWith 32 [(0, 1), (4, 1)])]).setGrp 0 { groupReset 0 with phase := .frames, len := 4096 }), 0, 0, [], [], [(0, [])], by decide +kernel⟩

theorem witness_PavilionLoading_9 : ∃ (s : State) (member g : Nat) (hostBytes : List Byte) (x : SrcRead), (grpOf s.plan member = some g) ∧ ((s.grp g).phase = .frames) ∧ (((spGet (fun _ => []) s.pav.engines (member % 8)).head? = some member)) ∧ (s.grpHeld g = false) ∧ (s.operatorWaits (s.grp g).host = false) ∧ ((if (s.grp g).host then x.dma ≠ .ok else x.ecc = .uncorrectable)) :=
  ⟨(fun s : State => s.withPav { s.pav with engines := [(0, [0])] }) ((readyWith [sec secPavGroups 0 (bytesWith 32 [(0, 1), (4, 1)])]).setGrp 0 { groupReset 0 with phase := .frames }), 0, 0, [], ⟨.uncorrectable, .ok⟩, by decide +kernel⟩

theorem witness_PavilionLoading_10 : ∃ (s : State) (group : Nat), (group < 64) ∧ ((s.grp group).userReset = true) ∧ ((s.grp group).phase = .attach) ∧ (s.grpHeld group = false) :=
  ⟨(readyWith [sec secPavGroups 0 (bytesWith 32 [(0, 1), (4, 1)])]).setGrp 0 { groupReset 0 with phase := .attach, userReset := true }, 0, by decide +kernel⟩

theorem witness_PavilionLoading_11 : ∃ (s : State) (group : Nat), (group < 64) ∧ ((s.grp group).userReset = true) ∧ ((s.grp group).phase = .release) ∧ (s.grpHeld group = false) :=
  ⟨(readyWith [sec secPavGroups 0 (bytesWith 32 [(0, 1), (4, 1)])]).setGrp 0 { groupReset 0 with phase := .release, userReset := true }, 0, by decide +kernel⟩

theorem witness_PavilionLoading_12 : ∃ (s : State) (group : Nat), (group < 64) ∧ (grpFirst s.plan group = true) ∧ (s.underAmendment secPavGroups 0 group = false) ∧ (s.grpState group = gLoading) ∧ (((s.grp group).phase == .scrub && !(s.grp group).scrubForLoad) = false) :=
  ⟨((readyWith [sec secPavGroups 0 (bytesWith 32 [(0, 1), (4, 1)])]).setGrp 0 { groupReset 0 with phase := .header }).set (F.PAV_GRP_STATE_STATE 0) 1, 0, by decide +kernel⟩

/-- States and operands that meet the hypotheses of each clause of `PavilionUnloadAndRelease`. -/
theorem witness_PavilionUnloadAndRelease_1 : ∃ (s : State) (group grace : Nat), (group < 64) ∧ (grpFirst s.plan group = true) ∧ (s.underAmendment secPavGroups 0 group = false) ∧ (s.grpState group = gRunning) ∧ ((s.grp group).quiesceAck = false) ∧ (grace ≠ 0) :=
  ⟨(readyWith [sec secPavGroups 0 (bytesWith 32 [(0, 1), (4, 1)])]).set (F.PAV_GRP_STATE_STATE 0) 2, 0, 100, by decide +kernel⟩

theorem witness_PavilionUnloadAndRelease_2 : ∃ (s : State) (group : Nat), (group < 64) ∧ ((s.grp group).phase = .grace) ∧ (s.grpHeld group = false) :=
  ⟨((readyWith [sec secPavGroups 0 (bytesWith 32 [(0, 1), (4, 1)])]).set (F.PAV_GRP_STATE_STATE 0) 2).setGrp 0 { groupReset 0 with phase := .grace, portsUp := true }, 0, by decide +kernel⟩

theorem witness_PavilionUnloadAndRelease_3 : ∃ (s : State) (group : Nat), ((s.grp group).phase ≠ .grace) ∧ (s.grpHeld group = false) :=
  ⟨State.reset, 3, by decide +kernel⟩

theorem witness_PavilionUnloadAndRelease_4 : ∃ (s : State) (group : Nat), (group < 64) ∧ ((s.grp group).phase = .grace) ∧ (s.grpHeld group = false) :=
  ⟨((readyWith [sec secPavGroups 0 (bytesWith 32 [(0, 1), (4, 1)])]).set (F.PAV_GRP_STATE_STATE 0) 2).setGrp 0 { groupReset 0 with phase := .grace, portsUp := true }, 0, by decide +kernel⟩

theorem witness_PavilionUnloadAndRelease_5 : ∃ (s : State) (group : Nat), ((s.grp group).phase = .hbmDrain) ∧ (s.grpHeld group = false) ∧ (((s.pav.hbm.any fun r => (grpMembers s.plan group).contains r.member && r.write) = false)) :=
  ⟨State.reset.setGrp 3 { groupReset 3 with phase := .hbmDrain }, 3, by decide +kernel⟩

theorem witness_PavilionUnloadAndRelease_6 : ∃ (s : State) (group : Nat), (group < 64) ∧ (grpFirst s.plan group = true) ∧ (s.underAmendment secPavGroups 0 group = false) ∧ (s.grpState group = gFenced) ∧ ((s.grp group).upset = false) ∧ (s.violNow group = false) :=
  ⟨(readyWith [sec secPavGroups 0 (bytesWith 32 [(0, 1), (4, 1)])]).set (F.PAV_GRP_STATE_STATE 0) 3, 0, by decide +kernel⟩

theorem witness_PavilionUnloadAndRelease_7 : ∃ (s : State) (group : Nat), (group < 64) ∧ (grpFirst s.plan group = true) ∧ (s.underAmendment secPavGroups 0 group = false) ∧ (s.grpState group = gFenced) ∧ ((s.grp group).upset = true) :=
  ⟨((readyWith [sec secPavGroups 0 (bytesWith 32 [(0, 1), (4, 1)])]).set (F.PAV_GRP_STATE_STATE 0) 3).setGrp 0 { groupReset 0 with upset := true }, 0, by decide +kernel⟩

theorem witness_PavilionUnloadAndRelease_8 : ∃ (s : State) (group : Nat), (s.grpState group = gFenced) ∧ (s.get F.PAV_FENCE_POLICY_TENANT_RELEASE = 1) ∧ ((s.grp group).upset = false) ∧ (s.violNow group = false) ∧ (s.underAmendment secPavGroups 0 group = false) :=
  ⟨State.reset.set (F.PAV_GRP_STATE_STATE 3) 3, 3, by decide +kernel⟩

theorem witness_PavilionUnloadAndRelease_9 : ∃ (s : State) (group : Nat), (s.grpState group = gRunning) ∧ (s.underAmendment secPavGroups 0 group = false) :=
  ⟨State.reset.set (F.PAV_GRP_STATE_STATE 3) 2, 3, by decide +kernel⟩

/-- States and operands that meet the hypotheses of each clause of `PavilionPorts`. -/
theorem witness_PavilionPorts_1 : ∃ (s : State) (group clock khz : Nat), (10000 ≤ khz) ∧ (khz ≤ 800000) ∧ (s.underAmendment secPavGroups 0 group = false) :=
  ⟨State.reset, 3, 1, 800000, by decide +kernel⟩

theorem witness_PavilionPorts_2 : ∃ (s : State) (group clock khz : Nat), ((khz < 10000 ∨ 800000 < khz)) :=
  ⟨State.reset, 3, 1, 9999, by decide +kernel⟩

theorem witness_PavilionPorts_3 : ∃ (s : State) (group mhz : Nat), (10 ≤ mhz) ∧ (mhz ≤ 800) ∧ (grpFirst s.plan group = true) ∧ (s.underAmendment secPavGroups 0 group = false) :=
  ⟨readyWith [sec secPavGroups 0 (bytesWith 32 [(0, 1), (4, 1)])], 0, 800, by decide +kernel⟩

theorem witness_PavilionPorts_4 : ∃ (s : State) (member g : Nat), (grpOf s.plan member = some g) ∧ (s.grpState g ≠ gEmpty) ∧ (s.grpHeld g = false) :=
  ⟨(readyWith [sec secPavGroups 0 (bytesWith 32 [(0, 1), (4, 1)])]).set (F.PAV_GRP_STATE_STATE 0) 2, 0, 0, by decide +kernel⟩

theorem witness_PavilionPorts_5 : ∃ (s : State) (member g : Nat), (g < 64) ∧ (grpOf s.plan member = some g) ∧ (s.grpState g = gRunning) ∧ ((s.grp g).phase ≠ .grace) ∧ (s.grpHeld g = false) :=
  ⟨(readyWith [sec secPavGroups 0 (bytesWith 32 [(0, 1), (4, 1)])]).set (F.PAV_GRP_STATE_STATE 0) 2, 0, 0, by decide +kernel⟩

theorem witness_PavilionPorts_6 : ∃ (s : State) (member g addr tag : Nat) (write : Bool) (data : List Byte) (mask : Word), (grpOf s.plan member = some g) ∧ (s.grpState g = gRunning) ∧ (((s.pav.hbm.filter fun r => r.member == member).length < 256)) ∧ (addr < grpHbmSize s.plan g) ∧ (s.grpHeld g = false) :=
  ⟨(readyWith [sec secPavGroups 0 (bytesWith 32 [(0, 1), (4, 1), (17, 1)])]).set (F.PAV_GRP_STATE_STATE 0) 2, 0, 0, 64, 9, true, List.replicate 64 1, 0, by decide +kernel⟩

theorem witness_PavilionPorts_7 : ∃ (s : State) (member g addr tag : Nat) (write : Bool) (data : List Byte) (mask : Word), (grpOf s.plan member = some g) ∧ (s.grpState g = gRunning) ∧ (((s.pav.hbm.filter fun r => r.member == member).length < 256)) ∧ (grpHbmSize s.plan g ≤ addr) ∧ (s.grpHeld g = false) :=
  ⟨(readyWith [sec secPavGroups 0 (bytesWith 32 [(0, 1), (4, 1), (17, 1)])]).set (F.PAV_GRP_STATE_STATE 0) 2, 0, 0, 256, 9, true, List.replicate 64 1, 0, by decide +kernel⟩

theorem witness_PavilionPorts_8 : ∃ (s : State) (index : Nat) (ecc : EccResult) (r : HbmReq), (s.pav.hbm[index]? = some r) ∧ ((((s.pav.hbm.take index).any fun q => q.member == r.member && q.addr == r.addr) = false)) ∧ (r.write = true) ∧ (s.grpHeld ((grpOf s.plan r.member).getD 0) = false) :=
  ⟨State.reset.withPav { State.reset.pav with hbm := [⟨0, true, 64, 9, List.replicate 64 1, 5, false⟩] }, 0, .clean, ⟨0, true, 64, 9, List.replicate 64 1, 5, false⟩, by decide +kernel⟩

theorem witness_PavilionPorts_9 : ∃ (s : State) (index : Nat) (r : HbmReq), (s.pav.hbm[index]? = some r) ∧ ((((s.pav.hbm.take index).any fun q => q.member == r.member && q.addr == r.addr) = false)) ∧ (r.write = false) ∧ (r.discard = false) ∧ (s.poisoned (grpWindowAddr s.plan ((grpOf s.plan r.member).getD 0) r.addr) 64 = false) ∧ (s.grpHeld ((grpOf s.plan r.member).getD 0) = false) :=
  ⟨State.reset.withPav { State.reset.pav with hbm := [⟨0, false, 64, 9, [], 5, false⟩] }, 0, ⟨0, false, 64, 9, [], 5, false⟩, by decide +kernel⟩

theorem witness_PavilionPorts_10 : ∃ (s : State) (group offset tag : Nat) (value : Word), (offset % 8 = 0) ∧ (0x1000 ≤ offset) ∧ (s.grpState group = gRunning) ∧ (s.get (F.PAV_GRP_STATE_SLEEP group) = 0) ∧ ((s.grp group).reads.length < 16) ∧ ((s.grp group).bus = []) ∧ (s.grpHeld group = false) :=
  ⟨State.reset.set (F.PAV_GRP_STATE_STATE 3) 2, 3, 0x1000, 7, 0, by decide +kernel⟩

theorem witness_PavilionPorts_11 : ∃ (s : State) (group offset tag : Nat) (value : Word) (ready : Bool), (offset % 8 = 0) ∧ (0x1000 ≤ offset) ∧ (s.grpState group ≠ gRunning) :=
  ⟨State.reset, 3, 0x1000, 7, 0, true, by decide +kernel⟩

theorem witness_PavilionPorts_12 : ∃ (s : State) (group tag : Nat) (data : Word) (ready : Bool) (rest : List Nat), ((s.grp group).late = 0) ∧ ((s.grp group).reads = tag :: rest) ∧ ((s.grp group).bus = []) ∧ (s.grpHeld group = false) :=
  ⟨State.reset.setGrp 3 { groupReset 3 with reads := [7, 8] }, 3, 7, 0x55, false, [8], by decide +kernel⟩

theorem witness_PavilionPorts_13 : ∃ (s : State) (group tag : Nat) (rest : List Nat), ((s.grp group).reads = tag :: rest) ∧ (s.grpHeld group = false) :=
  ⟨State.reset.setGrp 3 { groupReset 3 with reads := [7, 8] }, 3, 7, [8], by decide +kernel⟩

theorem witness_PavilionPorts_14 : ∃ (s : State) (ep vc td : Nat), (s.loadedTd ep = some td) ∧ (s.rxCredit ep vc < 64) ∧ (s.portHeld ep = false) :=
  ⟨(readyWith [sec secPavGroups 0 (bytesWith 32 [(0, 1), (4, 1)])]).setGrp 0 { groupReset 0 with portsUp := true }, 0x80, 1, 0, by decide +kernel⟩

theorem witness_PavilionPorts_15 : ∃ (s : State) (group : Nat), (group < 64) ∧ (s.grpState group = gRunning) ∧ (((s.pav.hbm.any fun r => (grpMembers s.plan group).contains r.member) = false)) ∧ (((grpMembers s.plan group).all (fun m => (tileAllow s.plan (284 + m)).testBit 0) = true)) ∧ (s.grpHeld group = false) :=
  ⟨(readyWith [sec secPavGroups 0 (bytesWith 32 [(0, 1), (4, 1)]), sec secPwrPolicy 0 (List.replicate 12000 0xFF)]).set (F.PAV_GRP_STATE_STATE 0) 2, 0, by decide +kernel⟩

theorem witness_PavilionPorts_16 : ∃ (s : State) (group : Nat), (group < 64) ∧ (s.get (F.PAV_GRP_STATE_SLEEP group) = 1) ∧ (s.grpHeld group = false) :=
  ⟨(readyWith [sec secPavGroups 0 (bytesWith 32 [(0, 1), (4, 1)])]).set (F.PAV_GRP_STATE_SLEEP 0) 1, 0, by decide +kernel⟩

/-- States and operands that meet the hypotheses of each clause of `ArbourThreadsAndCommit`. -/
theorem witness_ArbourThreadsAndCommit_1 : ∃ (s : State) (src c u : Nat) (f : SrcFrame) (cs : List Nat), ((s.frames.find? (fun g => g.src == src && !g.dispatched) = some f)) ∧ (s.dispatchClusters src = c :: cs) ∧ (s.dispatchThread c = some u) :=
  ⟨((readyWith [sec secArbMap 0 (bytesWith 64 [(0, 1), (1, 1), (2, 1), (3, 1), (4, 1)])]).setCluState 0 cReleased).withFrames [⟨0, 7, 5, 1, [1, 2, 3], 9, 11, false, false⟩], 0, 0, 0, ⟨0, 7, 5, 1, [1, 2, 3], 9, 11, false, false⟩, [], by decide +kernel⟩

theorem witness_ArbourThreadsAndCommit_2 : ∃ (s : State) (src c : Nat) (wayUe : Bool) (e : Committed), (s.classifyHeld = false) ∧ (((List.range 20).find? (fun d => !s.cluHeld d && (s.clu d).commits.any fun g => g.src == src && g.arrival == (s.source src).nextPass) = some c)) ∧ (((s.clu c).commits.find? (fun g => g.src == src && g.arrival == (s.source src).nextPass) = some e)) ∧ ((s.source src).ended = []) :=
  ⟨State.reset.setClu 2 { clusterReset 2 with commits := [⟨4, 0, [], [], [], 0, 0, false, false⟩] }, 4, 2, true, ⟨4, 0, [], [], [], 0, 0, false, false⟩, by decide +kernel⟩

theorem witness_ArbourThreadsAndCommit_3 : ∃ (s : State) (c : Nat), (c < 20) ∧ (s.cluState c = cInit) ∧ (s.cluHeld c = false) :=
  ⟨State.reset.setCluState 19 cInit, 19, by decide +kernel⟩

theorem witness_ArbourThreadsAndCommit_4 : ∃ (s : State) (c u : Nat) (p : ArbPacket), (c < 20) ∧ ((s.thr c u).pkt = some p) ∧ ((s.thr c u).st ≠ tHalt) ∧ (s.get F.ARB_RUN_LIMIT_SLOTS < (s.thr c u).slots) ∧ ((s.thr c u).committed = false) ∧ (u ∉ (s.clu c).commitWait) ∧ ((u ≠ 0 ∨ (s.clu c).svcReq = false)) ∧ (s.cluHeld c = false) :=
  ⟨(arbWith 0 { packetThread with slots := 16777216, locks := [3, 4] }), 0, 3, onePacket, by decide +kernel⟩

theorem witness_ArbourThreadsAndCommit_5 : ∃ (s : State) (c u j n r w : Nat), ((s.thr c u).wait = some (.park j n r w)) ∧ ((s.thr c u).st = tPark) ∧ (w ≠ 0) ∧ (s.cluHeld c = false) :=
  ⟨arbWith 0 { runThread with st := tPark, wait := some (.park 1 2 31 1) }, 0, 3, 1, 2, 31, 1, by decide +kernel⟩

/-- States and operands that meet the hypotheses of each clause of `ArbourDeadlockAndDebug`. -/
theorem witness_ArbourDeadlockAndDebug_1 : ∃ (s : State) (c n : Nat), (c < 20) ∧ (n < 8) ∧ (s.setStuck c n false = true) ∧ (s.cluHeld c = false) :=
  ⟨(arbWith 0 { runThread with st := tWait, wait := some (.counter 0 5 2), set := 7 }), 0, 7, by decide +kernel⟩

theorem witness_ArbourDeadlockAndDebug_2 : ∃ (s : State) (c n : Nat), (c < 20) ∧ (n < 8) ∧ (s.setStuck c n true = true) ∧ ((s.clu c).episodes.testBit n = false) ∧ (s.cluHeld c = false) :=
  ⟨(arbWith 0 { runThread with st := tHalt, set := 7 }), 0, 7, by decide +kernel⟩

theorem witness_ArbourDeadlockAndDebug_3 : ∃ (s : State) (c u k : Nat), (((s.thr c u).st = tRun ∨ (s.thr c u).st = tInit ∨ (s.thr c u).st = tService)) ∧ ((s.thr c u).skipBreak = false) ∧ (k < 4) ∧ (s.get (F.ARB_BRK_EN c k) = 1) ∧ (s.get (F.ARB_BRK_ADDR c k) = (s.thr c u).pc) ∧ ((s.get (F.ARB_BRK_SETS c k)).testBit (s.thr c u).set = true) ∧ (s.cluHeld c = false) :=
  ⟨(((arbWith 0 runThread).set (F.ARB_BRK_EN 0 3) 1).set (F.ARB_BRK_SETS 0 3) 1), 0, 3, 3, by decide +kernel⟩

theorem witness_ArbourDeadlockAndDebug_4 : ∃ (s : State) (c u : Nat), (s.dbgHeld c = false) ∧ ((s.thr c u).st ≠ tIdle) ∧ ((s.thr c u).st ≠ tHalt) :=
  ⟨arbWith 0 runThread, 0, 3, by decide +kernel⟩

theorem witness_ArbourDeadlockAndDebug_5 : ∃ (s : State) (c u : Nat), (s.dbgHeld c = false) ∧ ((s.thr c u).st = tIdle) :=
  ⟨State.reset, 0, 3, by decide +kernel⟩

theorem witness_ArbourDeadlockAndDebug_6 : ∃ (s : State) (c u : Nat), (s.dbgHeldLate c = false) ∧ ((s.thr c u).st = tHalt) ∧ ((s.thr c u).outcome = none) :=
  ⟨arbWith 0 { runThread with st := tHalt, prior := tRun }, 0, 3, by decide +kernel⟩

theorem witness_ArbourDeadlockAndDebug_7 : ∃ (s : State) (c u : Nat), (c < 20) ∧ (s.dbgHeldLate c = false) ∧ ((s.thr c u).st ≠ tHalt) :=
  ⟨arbWith 0 runThread, 0, 3, by decide +kernel⟩

theorem witness_ArbourDeadlockAndDebug_8 : ∃ (s : State) (c u : Nat) (w : Word) (x : ArbThread), (c < 20) ∧ (u < 64) ∧ (s.dbgHeld c = false) ∧ (s.thr c u = x) ∧ (x.st = tHalt) ∧ (x.prior = tRun) ∧ (x.outcome = none) ∧ ((s.tile (8 * c + u / 8)).hold = false) ∧ (s.arbWord c u = w) ∧ (iOp w = 0x10) ∧ (bitsAt w 40 0 = 0) ∧ (x.pc + 1 < (s.clu c).imem.length) :=
  ⟨arbWith 0x1018440000000000 { runThread with st := tHalt, prior := tRun }, 0, 3, 0x1018440000000000, { runThread with st := tHalt, prior := tRun }, by decide +kernel⟩

theorem witness_ArbourDeadlockAndDebug_9 : ∃ (s : State) (c u : Nat) (p : ArbPacket), (c < 20) ∧ (s.dbgHeldLate c = false) ∧ ((s.thr c u).st = tHalt) ∧ ((s.thr c u).base ≠ tInit) ∧ ((s.thr c u).pkt = some p) ∧ ((s.thr c u).committed = false) ∧ ((u ≠ 0 ∨ (s.clu c).svcReq = false)) :=
  ⟨arbWith 0 { packetThread with st := tHalt }, 0, 3, onePacket, by decide +kernel⟩

theorem witness_ArbourDeadlockAndDebug_10 : ∃ (s : State) (c : Nat), (s.dbgHeld c = false) :=
  ⟨arbWith 0 runThread, 0, by decide +kernel⟩

theorem witness_ArbourDeadlockAndDebug_11 : ∃ (s : State) (c : Nat), (s.dbgHeldLate c = false) ∧ ((∀ v, v < 64 → (s.thr c v).outcome = none)) :=
  ⟨arbWith 0 { runThread with st := tHalt, prior := tWait }, 0, by decide +kernel⟩

/-- States and operands that meet the hypotheses of each clause of `ArbourArithmetic`. -/
theorem witness_ArbourArithmetic_1 : ∃ (s : State) (c u : Nat) (w : Word) (x : ArbThread), (c < 20) ∧ (u < 64) ∧ (s.arbAt c u 0x01 w x = true) ∧ (bitsAt w 40 0 = 0) ∧ (iRd w = 0) ∧ (iRa w = 0) ∧ (iRb w = 0) ∧ (x.pc + 1 < (s.clu c).imem.length) :=
  ⟨arbWith 0x100000000000000 runThread, 0, 3, 0x100000000000000, runThread, by decide +kernel⟩

theorem witness_ArbourArithmetic_2 : ∃ (s : State) (c u : Nat) (w : Word) (x : ArbThread), (c < 20) ∧ (u < 64) ∧ (s.arbAt c u 0x10 w x = true) ∧ (bitsAt w 40 0 = 0) ∧ (x.pc + 1 < (s.clu c).imem.length) :=
  ⟨arbWith 0x1018440000000000 runThread, 0, 3, 0x1018440000000000, runThread, by decide +kernel⟩

theorem witness_ArbourArithmetic_3 : ∃ (s : State) (c u : Nat) (w : Word) (x : ArbThread), (c < 20) ∧ (u < 64) ∧ (s.arbAt c u 0x11 w x = true) ∧ (bitsAt w 40 0 = 0) ∧ (x.pc + 1 < (s.clu c).imem.length) :=
  ⟨arbWith 0x1118440000000000 runThread, 0, 3, 0x1118440000000000, runThread, by decide +kernel⟩

theorem witness_ArbourArithmetic_4 : ∃ (s : State) (c u : Nat) (w : Word) (x : ArbThread), (c < 20) ∧ (u < 64) ∧ (s.arbAt c u 0x12 w x = true) ∧ (bitsAt w 40 0 = 0) ∧ (x.pc + 1 < (s.clu c).imem.length) :=
  ⟨arbWith 0x1218440000000000 runThread, 0, 3, 0x1218440000000000, runThread, by decide +kernel⟩

theorem witness_ArbourArithmetic_5 : ∃ (s : State) (c u : Nat) (w : Word) (x : ArbThread), (c < 20) ∧ (u < 64) ∧ (s.arbAt c u 0x13 w x = true) ∧ (bitsAt w 40 0 = 0) ∧ (x.pc + 1 < (s.clu c).imem.length) :=
  ⟨arbWith 0x1318440000000000 runThread, 0, 3, 0x1318440000000000, runThread, by decide +kernel⟩

theorem witness_ArbourArithmetic_6 : ∃ (s : State) (c u : Nat) (w : Word) (x : ArbThread), (c < 20) ∧ (u < 64) ∧ (s.arbAt c u 0x14 w x = true) ∧ (bitsAt w 40 0 = 0) ∧ (x.pc + 1 < (s.clu c).imem.length) :=
  ⟨arbWith 0x1418440000000000 runThread, 0, 3, 0x1418440000000000, runThread, by decide +kernel⟩

theorem witness_ArbourArithmetic_7 : ∃ (s : State) (c u : Nat) (w : Word) (x : ArbThread), (c < 20) ∧ (u < 64) ∧ (s.arbAt c u 0x15 w x = true) ∧ (bitsAt w 40 0 = 0) ∧ (x.pc + 1 < (s.clu c).imem.length) :=
  ⟨arbWith 0x1518440000000000 runThread, 0, 3, 0x1518440000000000, runThread, by decide +kernel⟩

theorem witness_ArbourArithmetic_8 : ∃ (s : State) (c u : Nat) (w : Word) (x : ArbThread), (c < 20) ∧ (u < 64) ∧ (s.arbAt c u 0x16 w x = true) ∧ (bitsAt w 40 0 = 0) ∧ (x.pc + 1 < (s.clu c).imem.length) :=
  ⟨arbWith 0x1618440000000000 runThread, 0, 3, 0x1618440000000000, runThread, by decide +kernel⟩

theorem witness_ArbourArithmetic_9 : ∃ (s : State) (c u : Nat) (w : Word) (x : ArbThread), (c < 20) ∧ (u < 64) ∧ (s.arbAt c u 0x17 w x = true) ∧ (bitsAt w 40 0 = 0) ∧ (x.pc + 1 < (s.clu c).imem.length) :=
  ⟨arbWith 0x1718440000000000 runThread, 0, 3, 0x1718440000000000, runThread, by decide +kernel⟩

theorem witness_ArbourArithmetic_10 : ∃ (s : State) (c u : Nat) (w : Word) (x : ArbThread), (c < 20) ∧ (u < 64) ∧ (s.arbAt c u 0x18 w x = true) ∧ (bitsAt w 40 0 = 0) ∧ (x.pc + 1 < (s.clu c).imem.length) :=
  ⟨arbWith 0x1818440000000000 runThread, 0, 3, 0x1818440000000000, runThread, by decide +kernel⟩

theorem witness_ArbourArithmetic_11 : ∃ (s : State) (c u : Nat) (w : Word) (x : ArbThread), (c < 20) ∧ (u < 64) ∧ (s.arbAt c u 0x19 w x = true) ∧ (bitsAt w 40 0 = 0) ∧ (x.pc + 1 < (s.clu c).imem.length) :=
  ⟨arbWith 0x1918440000000000 runThread, 0, 3, 0x1918440000000000, runThread, by decide +kernel⟩

theorem witness_ArbourArithmetic_12 : ∃ (s : State) (c u : Nat) (w : Word) (x : ArbThread), (c < 20) ∧ (u < 64) ∧ (s.arbAt c u 0x1A w x = true) ∧ (bitsAt w 40 0 = 0) ∧ (x.pc + 1 < (s.clu c).imem.length) :=
  ⟨arbWith 0x1a18440000000000 runThread, 0, 3, 0x1a18440000000000, runThread, by decide +kernel⟩

theorem witness_ArbourArithmetic_13 : ∃ (s : State) (c u : Nat) (w : Word) (x : ArbThread), (c < 20) ∧ (u < 64) ∧ (s.arbAt c u 0x1B w x = true) ∧ (bitsAt w 40 0 = 0) ∧ (x.pc + 1 < (s.clu c).imem.length) :=
  ⟨arbWith 0x1b18440000000000 runThread, 0, 3, 0x1b18440000000000, runThread, by decide +kernel⟩

theorem witness_ArbourArithmetic_14 : ∃ (s : State) (c u : Nat) (w : Word) (x : ArbThread), (c < 20) ∧ (u < 64) ∧ (s.arbAt c u 0x1C w x = true) ∧ (bitsAt w 40 0 = 0) ∧ (x.pc + 1 < (s.clu c).imem.length) :=
  ⟨arbWith 0x1c18440000000000 runThread, 0, 3, 0x1c18440000000000, runThread, by decide +kernel⟩

theorem witness_ArbourArithmetic_15 : ∃ (s : State) (c u : Nat) (w : Word) (x : ArbThread), (c < 20) ∧ (u < 64) ∧ (s.arbAt c u 0x20 w x = true) ∧ (bitsAt w 40 32 = 0) ∧ (iRb w = 0) ∧ (x.pc + 1 < (s.clu c).imem.length) :=
  ⟨arbWith 0x20184000fffffff0 runThread, 0, 3, 0x20184000fffffff0, runThread, by decide +kernel⟩

theorem witness_ArbourArithmetic_16 : ∃ (s : State) (c u : Nat) (w : Word) (x : ArbThread), (c < 20) ∧ (u < 64) ∧ (s.arbAt c u 0x22 w x = true) ∧ (bitsAt w 40 32 = 0) ∧ (iRb w = 0) ∧ (x.pc + 1 < (s.clu c).imem.length) :=
  ⟨arbWith 0x22184000fffffff0 runThread, 0, 3, 0x22184000fffffff0, runThread, by decide +kernel⟩

theorem witness_ArbourArithmetic_17 : ∃ (s : State) (c u : Nat) (w : Word) (x : ArbThread), (c < 20) ∧ (u < 64) ∧ (s.arbAt c u 0x23 w x = true) ∧ (bitsAt w 40 32 = 0) ∧ (iRb w = 0) ∧ (x.pc + 1 < (s.clu c).imem.length) :=
  ⟨arbWith 0x23184000fffffff0 runThread, 0, 3, 0x23184000fffffff0, runThread, by decide +kernel⟩

theorem witness_ArbourArithmetic_18 : ∃ (s : State) (c u : Nat) (w : Word) (x : ArbThread), (c < 20) ∧ (u < 64) ∧ (s.arbAt c u 0x24 w x = true) ∧ (bitsAt w 40 32 = 0) ∧ (iRb w = 0) ∧ (x.pc + 1 < (s.clu c).imem.length) :=
  ⟨arbWith 0x24184000fffffff0 runThread, 0, 3, 0x24184000fffffff0, runThread, by decide +kernel⟩

theorem witness_ArbourArithmetic_19 : ∃ (s : State) (c u : Nat) (w : Word) (x : ArbThread), (c < 20) ∧ (u < 64) ∧ (s.arbAt c u 0x2C w x = true) ∧ (bitsAt w 40 32 = 0) ∧ (iRb w = 0) ∧ (x.pc + 1 < (s.clu c).imem.length) :=
  ⟨arbWith 0x2c184000fffffff0 runThread, 0, 3, 0x2c184000fffffff0, runThread, by decide +kernel⟩

theorem witness_ArbourArithmetic_20 : ∃ (s : State) (c u : Nat) (w : Word) (x : ArbThread), (c < 20) ∧ (u < 64) ∧ (s.arbAt c u 0x26 w x = true) ∧ (bitsAt w 40 32 = 0) ∧ (iRb w = 0) ∧ (iImm32 w < 64) ∧ (x.pc + 1 < (s.clu c).imem.length) :=
  ⟨arbWith 0x261840000000003f runThread, 0, 3, 0x261840000000003f, runThread, by decide +kernel⟩

theorem witness_ArbourArithmetic_21 : ∃ (s : State) (c u : Nat) (w : Word) (x : ArbThread), (c < 20) ∧ (u < 64) ∧ (s.arbAt c u 0x27 w x = true) ∧ (bitsAt w 40 32 = 0) ∧ (iRb w = 0) ∧ (iImm32 w < 64) ∧ (x.pc + 1 < (s.clu c).imem.length) :=
  ⟨arbWith 0x271840000000003f runThread, 0, 3, 0x271840000000003f, runThread, by decide +kernel⟩

theorem witness_ArbourArithmetic_22 : ∃ (s : State) (c u : Nat) (w : Word) (x : ArbThread), (c < 20) ∧ (u < 64) ∧ (s.arbAt c u 0x28 w x = true) ∧ (bitsAt w 40 32 = 0) ∧ (iRb w = 0) ∧ (iImm32 w < 64) ∧ (x.pc + 1 < (s.clu c).imem.length) :=
  ⟨arbWith 0x281840000000003f runThread, 0, 3, 0x281840000000003f, runThread, by decide +kernel⟩

theorem witness_ArbourArithmetic_23 : ∃ (s : State) (c u : Nat) (w : Word) (x : ArbThread), (c < 20) ∧ (u < 64) ∧ (s.arbAt c u 0x2E w x = true) ∧ (bitsAt w 40 32 = 0) ∧ (iRa w = 0) ∧ (iRb w = 0) ∧ (x.pc + 1 < (s.clu c).imem.length) :=
  ⟨arbWith 0x2e180000ffffffff runThread, 0, 3, 0x2e180000ffffffff, runThread, by decide +kernel⟩

theorem witness_ArbourArithmetic_24 : ∃ (s : State) (c u : Nat) (w : Word) (x : ArbThread), (c < 20) ∧ (u < 64) ∧ (s.arbAt c u 0x2F w x = true) ∧ (bitsAt w 40 32 = 0) ∧ (iRa w = 0) ∧ (iRb w = 0) ∧ (x.pc + 1 < (s.clu c).imem.length) :=
  ⟨arbWith 0x2f10000012345678 runThread, 0, 3, 0x2f10000012345678, runThread, by decide +kernel⟩

theorem witness_ArbourArithmetic_25 : ∃ (s : State) (c u : Nat) (w : Word) (x : ArbThread), (c < 20) ∧ (u < 64) ∧ (s.arbAt c u 0x30 w x = true) ∧ (bitsAt w 25 0 = 0) ∧ (iRb w = 0) ∧ (fEw w = 0) ∧ (fLsb w + fW w ≤ 64) ∧ (x.pc + 1 < (s.clu c).imem.length) :=
  ⟨arbWith 0x301840083c000000 runThread, 0, 3, 0x301840083c000000, runThread, by decide +kernel⟩

theorem witness_ArbourArithmetic_26 : ∃ (s : State) (c u : Nat) (w : Word) (x : ArbThread), (c < 20) ∧ (u < 64) ∧ (s.arbAt c u 0x31 w x = true) ∧ (bitsAt w 25 0 = 0) ∧ (iRb w = 0) ∧ (fEw w = 0) ∧ (fLsb w + fW w ≤ 64) ∧ (x.pc + 1 < (s.clu c).imem.length) :=
  ⟨arbWith 0x3110403c0c000000 runThread, 0, 3, 0x3110403c0c000000, runThread, by decide +kernel⟩

/-- States and operands that meet the hypotheses of each clause of `ArbourWindowKeyAndEmit`. -/
theorem witness_ArbourWindowKeyAndEmit_1 : ∃ (s : State) (c u : Nat) (w : Word) (x : ArbThread), (c < 20) ∧ (u < 64) ∧ (s.arbAt c u 0x40 w x = true) ∧ (bitsAt w 9 0 = 0) ∧ (iRb w = 0) ∧ (wKoff w = 0) ∧ (wN w = 1) ∧ (8 * ((gReg x (iRa w)) + BitVec.ofNat 64 (wOff w)).toNat + wBoff w + wW w ≤ 4096) ∧ (x.base = tRun) ∧ (x.pc + 1 < (s.clu c).imem.length) :=
  ⟨arbWith 0x401901fde0000000 packetThread, 0, 3, 0x401901fde0000000, packetThread, by decide +kernel⟩

theorem witness_ArbourWindowKeyAndEmit_2 : ∃ (s : State) (c u : Nat) (w : Word) (x : ArbThread), (c < 20) ∧ (u < 64) ∧ (s.arbAt c u 0x41 w x = true) ∧ (bitsAt w 9 0 = 0) ∧ (iRd w = 0) ∧ (wKoff w = 0) ∧ (wN w = 1) ∧ (8 * ((gReg x (iRa w)) + BitVec.ofNat 64 (wOff w)).toNat + wBoff w + wW w ≤ 4096) ∧ (x.base = tRun) ∧ (x.committed = false) ∧ (x.pc + 1 < (s.clu c).imem.length) :=
  ⟨arbWith 0x410105f465800000 packetThread, 0, 3, 0x410105f465800000, packetThread, by decide +kernel⟩

theorem witness_ArbourWindowKeyAndEmit_3 : ∃ (s : State) (c u : Nat) (w : Word) (x : ArbThread), (c < 20) ∧ (u < 64) ∧ (s.arbAt c u 0x42 w x = true) ∧ (bitsAt w 9 0 = 0) ∧ (iRd w = 0) ∧ (iRb w = 0) ∧ (wBoff w = 0) ∧ (wW w = 1) ∧ (wN w ≤ 16) ∧ (((gReg x (iRa w)) + BitVec.ofNat 64 (wOff w)).toNat + wN w ≤ 512) ∧ (wKoff w + wN w ≤ 128) ∧ (x.base = tRun) ∧ (x.committed = false) ∧ (x.pc + 1 < (s.clu c).imem.length) :=
  ⟨arbWith 0x420101ee00703c00 packetThread, 0, 3, 0x420101ee00703c00, packetThread, by decide +kernel⟩

theorem witness_ArbourWindowKeyAndEmit_4 : ∃ (s : State) (c u : Nat) (w : Word) (x : ArbThread), (c < 20) ∧ (u < 64) ∧ (s.arbAt c u 0x43 w x = true) ∧ (bitsAt w 9 0 = 0) ∧ (iRb w = 0) ∧ (wBoff w = 0) ∧ (wW w = 1) ∧ (wKoff w = 0) ∧ (((gReg x (iRa w)) + BitVec.ofNat 64 (wOff w)).toNat + wN w ≤ 512) ∧ (x.base = tRun) ∧ (x.pc + 1 < (s.clu c).imem.length) :=
  ⟨arbWith 0x431901be0000fc00 packetThread, 0, 3, 0x431901be0000fc00, packetThread, by decide +kernel⟩

theorem witness_ArbourWindowKeyAndEmit_5 : ∃ (s : State) (c u : Nat) (w : Word) (x : ArbThread), (c < 20) ∧ (u < 64) ∧ (s.arbAt c u 0x48 w x = true) ∧ (bitsAt w 30 0 = 0) ∧ (iRd w = 0) ∧ (iRb w = 0) ∧ (kKoff w + kN w ≤ 128) ∧ (x.base = tRun) ∧ (x.committed = false) ∧ (x.pc + 1 < (s.clu c).imem.length) :=
  ⟨arbWith 0x480041e380000000 packetThread, 0, 3, 0x480041e380000000, packetThread, by decide +kernel⟩

theorem witness_ArbourWindowKeyAndEmit_6 : ∃ (s : State) (c u : Nat) (w : Word) (x : ArbThread), (c < 20) ∧ (u < 64) ∧ (s.arbAt c u 0x49 w x = true) ∧ (bitsAt w 40 0 = 0) ∧ (iRd w = 0) ∧ (iRa w = 0) ∧ (iRb w = 0) ∧ (x.base = tRun) ∧ (x.committed = false) ∧ (x.pc + 1 < (s.clu c).imem.length) :=
  ⟨arbWith 0x4900000000000000 packetThread, 0, 3, 0x4900000000000000, packetThread, by decide +kernel⟩

theorem witness_ArbourWindowKeyAndEmit_7 : ∃ (s : State) (c u : Nat) (w : Word) (x : ArbThread), (c < 20) ∧ (u < 64) ∧ (s.arbAt c u 0x4A w x = true) ∧ (bitsAt w 40 32 = 0) ∧ (iRd w = 0) ∧ (iRa w = 0) ∧ (iRb w = 0) ∧ (iImm32 w < 256) ∧ (x.base = tRun) ∧ (x.committed = false) ∧ (x.pc + 1 < (s.clu c).imem.length) :=
  ⟨arbWith 0x4a000000000000ff packetThread, 0, 3, 0x4a000000000000ff, packetThread, by decide +kernel⟩

theorem witness_ArbourWindowKeyAndEmit_8 : ∃ (s : State) (c u : Nat) (w : Word) (x : ArbThread), (c < 20) ∧ (u < 64) ∧ (s.arbAt c u 0x50 w x = true) ∧ (bitsAt w 30 0 = 0) ∧ (kKoff w = 0) ∧ (x.pc + 1 < (s.clu c).imem.length) :=
  ⟨arbWith 0x5018440380000000 runThread, 0, 3, 0x5018440380000000, runThread, by decide +kernel⟩

theorem witness_ArbourWindowKeyAndEmit_9 : ∃ (s : State) (c u : Nat) (w : Word) (x : ArbThread), (c < 20) ∧ (u < 64) ∧ (s.arbAt c u 0x70 w x = true) ∧ (bitsAt w 25 0 = 0) ∧ (iRd w = 0) ∧ (iRb w = 0) ∧ (fLsb w + fW w ≤ 64) ∧ (x.base = tRun) ∧ (x.committed = false) ∧ (x.pc + 1 < (s.clu c).imem.length) :=
  ⟨arbWith 0x70004140fc000000 packetThread, 0, 3, 0x70004140fc000000, packetThread, by decide +kernel⟩

theorem witness_ArbourWindowKeyAndEmit_10 : ∃ (s : State) (c u : Nat) (w : Word) (x : ArbThread) (p : ArbPacket), (c < 20) ∧ (u < 64) ∧ (s.arbAt c u 0x71 w x = true) ∧ (bitsAt w 40 26 = 0) ∧ (iRa w = 0) ∧ (iRb w = 0) ∧ (gIdx w = 0) ∧ (iImm16 w = 0) ∧ (x.base = tRun) ∧ (x.committed = false) ∧ (x.pkt = some p) ∧ ((s.clu c).commits.length + (s.clu c).reserved < 128) ∧ ((s.clu c).commitWait = []) ∧ (x.pc + 1 < (s.clu c).imem.length) :=
  ⟨arbWith 0x7118000000000000 packetThread, 0, 3, 0x7118000000000000, packetThread, onePacket, by decide +kernel⟩

theorem witness_ArbourWindowKeyAndEmit_11 : ∃ (s : State) (c u : Nat) (w : Word) (x : ArbThread), (c < 20) ∧ (u < 64) ∧ (s.arbAt c u 0x71 w x = true) ∧ (bitsAt w 40 26 = 0) ∧ (iRa w = 0) ∧ (iRb w = 0) ∧ (gIdx w = 0) ∧ (iImm16 w = 0) ∧ (x.base = tRun) ∧ (x.committed = false) ∧ (128 ≤ (s.clu c).commits.length + (s.clu c).reserved) ∧ (x.pc + 1 < (s.clu c).imem.length) :=
  ⟨(arbWith 0x7118000000000000 packetThread).setClu 0 { (arbWith 0x7118000000000000 packetThread).clu 0 with reserved := 128 }, 0, 3, 0x7118000000000000, packetThread, by decide +kernel⟩

/-- States and operands that meet the hypotheses of each clause of `ArbourMemoryBranchesAndSpecials`. -/
theorem witness_ArbourMemoryBranchesAndSpecials_1 : ∃ (s : State) (c u : Nat) (w : Word) (x : ArbThread), (c < 20) ∧ (u < 64) ∧ (s.arbAt c u 0x58 w x = true) ∧ (bitsAt w 38 16 = 0) ∧ (iRb w = 0) ∧ (((gReg x (iRa w)) + (w.truncate 16).signExtend 64).toNat % 2 ^ mSize w = 0) ∧ (((gReg x (iRa w)) + (w.truncate 16).signExtend 64).toNat + 2 ^ mSize w ≤ 65536) ∧ (x.pc + 1 < (s.clu c).imem.length) :=
  ⟨arbWith 0x581941800000fff8 runThread, 0, 3, 0x581941800000fff8, runThread, by decide +kernel⟩

theorem witness_ArbourMemoryBranchesAndSpecials_2 : ∃ (s : State) (c u : Nat) (w : Word) (x : ArbThread), (c < 20) ∧ (u < 64) ∧ (s.arbAt c u 0x59 w x = true) ∧ (bitsAt w 38 16 = 0) ∧ (iRd w = 0) ∧ (((gReg x (iRa w)) + (w.truncate 16).signExtend 64).toNat % 2 ^ mSize w = 0) ∧ (((gReg x (iRa w)) + (w.truncate 16).signExtend 64).toNat + 2 ^ mSize w ≤ 65536) ∧ (x.pc + 1 < (s.clu c).imem.length) :=
  ⟨arbWith 0x590145000000fffc runThread, 0, 3, 0x590145000000fffc, runThread, by decide +kernel⟩

theorem witness_ArbourMemoryBranchesAndSpecials_3 : ∃ (s : State) (c u : Nat) (w : Word) (x : ArbThread), (c < 20) ∧ (u < 64) ∧ (s.arbAt c u 0x51 w x = true) ∧ (bitsAt w 38 16 = 0) ∧ (mSize w = 0) ∧ (iImm16 w % 4 = 0) ∧ (iImm16 w ≤ 65528) ∧ (x.pc + 1 < (s.clu c).imem.length) :=
  ⟨arbWith 0x511844000000fff8 runThread, 0, 3, 0x511844000000fff8, runThread, by decide +kernel⟩

theorem witness_ArbourMemoryBranchesAndSpecials_4 : ∃ (s : State) (c u : Nat) (w : Word) (x : ArbThread), (c < 20) ∧ (u < 64) ∧ (s.arbAt c u 0x60 w x = true) ∧ (bitsAt w 36 32 = 0) ∧ (bitsAt w 15 14 = 0) ∧ (iRd w = 0) ∧ (bCond w ≤ 8) ∧ (bImm w = 0) ∧ ((if condHolds (bCond w) (gReg x (iRa w)) (gReg x (iRb w)) then bTarget w else x.pc + 1) < (s.clu c).imem.length) :=
  ⟨arbWith 0x6000442000000002 runThread, 0, 3, 0x6000442000000002, runThread, by decide +kernel⟩

theorem witness_ArbourMemoryBranchesAndSpecials_5 : ∃ (s : State) (c u : Nat) (w : Word) (x : ArbThread), (c < 20) ∧ (u < 64) ∧ (s.arbAt c u 0x61 w x = true) ∧ (bitsAt w 36 32 = 0) ∧ (bitsAt w 15 14 = 0) ∧ (iRd w = 0) ∧ (iRb w = 0) ∧ (bCond w ≤ 8) ∧ ((if condHolds (bCond w) (gReg x (iRa w)) (BitVec.ofNat 64 (bImm w)) then bTarget w else x.pc + 1) < (s.clu c).imem.length) :=
  ⟨arbWith 0x61004060ffff0002 runThread, 0, 3, 0x61004060ffff0002, runThread, by decide +kernel⟩

theorem witness_ArbourMemoryBranchesAndSpecials_6 : ∃ (s : State) (c u : Nat) (w : Word) (x : ArbThread), (c < 20) ∧ (u < 64) ∧ (s.arbAt c u 0x62 w x = true) ∧ (bitsAt w 36 32 = 0) ∧ (bitsAt w 15 14 = 0) ∧ (iRa w = 0) ∧ (iRb w = 0) ∧ (bCond w = 0) ∧ (bImm w = 0) ∧ (bTarget w < (s.clu c).imem.length) :=
  ⟨arbWith 0x6218000000000002 runThread, 0, 3, 0x6218000000000002, runThread, by decide +kernel⟩

theorem witness_ArbourMemoryBranchesAndSpecials_7 : ∃ (s : State) (c u : Nat) (w : Word) (x : ArbThread), (c < 20) ∧ (u < 64) ∧ (s.arbAt c u 0x63 w x = true) ∧ (bitsAt w 36 32 = 0) ∧ (bitsAt w 15 14 = 0) ∧ (iRd w = 0) ∧ (iRb w = 0) ∧ (bCond w = 0) ∧ (bImm w = 0) ∧ (bTarget w = 0) ∧ ((gReg x (iRa w)).toNat < 2 ^ 14) ∧ ((gReg x (iRa w)).toNat < (s.clu c).imem.length) :=
  ⟨arbWith 0x6301000000000000 runThread, 0, 3, 0x6301000000000000, runThread, by decide +kernel⟩

theorem witness_ArbourMemoryBranchesAndSpecials_8 : ∃ (s : State) (c u : Nat) (w : Word) (x : ArbThread) (p : ArbPacket), (c < 20) ∧ (u < 64) ∧ (s.arbAt c u 0x68 w x = true) ∧ (bitsAt w 40 32 = 0) ∧ (iRa w = 0) ∧ (iRb w = 0) ∧ (iImm32 w < 9) ∧ (x.pkt = some p) ∧ (x.pc + 1 < (s.clu c).imem.length) :=
  ⟨arbWith 0x6818000000000007 packetThread, 0, 3, 0x6818000000000007, packetThread, onePacket, by decide +kernel⟩

theorem witness_ArbourMemoryBranchesAndSpecials_9 : ∃ (s : State) (c u : Nat) (w : Word) (x : ArbThread), (c < 20) ∧ (u < 64) ∧ (s.arbAt c u 0x68 w x = true) ∧ (bitsAt w 40 32 = 0) ∧ (iRa w = 0) ∧ (iRb w = 0) ∧ (iImm32 w < 9) ∧ (x.pkt = none) ∧ (x.pc + 1 < (s.clu c).imem.length) :=
  ⟨arbWith 0x6818000000000005 runThread, 0, 3, 0x6818000000000005, runThread, by decide +kernel⟩

theorem witness_ArbourMemoryBranchesAndSpecials_10 : ∃ (s : State) (c u : Nat) (w : Word) (x : ArbThread), (c < 20) ∧ (u < 64) ∧ (s.arbAt c u 0x68 w x = true) ∧ (bitsAt w 40 32 = 0) ∧ (iRa w = 0) ∧ (iRb w = 0) ∧ (iImm32 w = 9) ∧ (x.pc + 1 < (s.clu c).imem.length) :=
  ⟨arbWith 0x6818000000000009 runThread, 0, 3, 0x6818000000000009, runThread, by decide +kernel⟩

/-- States and operands that meet the hypotheses of each clause of `ArbourGatehouse`. -/
theorem witness_ArbourGatehouse_1 : ∃ (s : State) (c u : Nat) (w : Word) (x : ArbThread) (l : ArbLock), (c < 20) ∧ (u < 64) ∧ (s.arbAt c u 0x78 w x = true) ∧ (bitsAt w 40 26 = 0) ∧ (iRb w = 0) ∧ (iImm16 w = 0) ∧ (((gReg x (iRa w)) + BitVec.ofNat 64 (gIdx w)).toNat % 1024 ∉ x.locks) ∧ (x.locks.length < 16) ∧ ((spGet (fun _ => ⟨none, []⟩) (s.clu c).locks (((gReg x (iRa w)) + BitVec.ofNat 64 (gIdx w)).toNat % 1024) = l)) ∧ (l.holder = none) ∧ (x.pc + 1 < (s.clu c).imem.length) :=
  ⟨arbWith 0x7818400003ff0000 runThread, 0, 3, 0x7818400003ff0000, runThread, ⟨none, []⟩, by decide +kernel⟩

theorem witness_ArbourGatehouse_2 : ∃ (s : State) (c u : Nat) (w : Word) (x : ArbThread) (h : Nat) (ws : List Nat), (c < 20) ∧ (u < 64) ∧ (s.arbAt c u 0x78 w x = true) ∧ (bitsAt w 40 26 = 0) ∧ (iRb w = 0) ∧ (iImm16 w = 0) ∧ (((gReg x (iRa w)) + BitVec.ofNat 64 (gIdx w)).toNat % 1024 ∉ x.locks) ∧ (x.locks.length < 16) ∧ ((spGet (fun _ => ⟨none, []⟩) (s.clu c).locks (((gReg x (iRa w)) + BitVec.ofNat 64 (gIdx w)).toNat % 1024) = ⟨some h, ws⟩)) ∧ (x.pc + 1 < (s.clu c).imem.length) :=
  ⟨(arbWith 0x7818000000070000 runThread).setClu 0 { (arbWith 0x7818000000070000 runThread).clu 0 with locks := [(7, ⟨some 5, [6]⟩)] }, 0, 3, 0x7818000000070000, runThread, 5, [6], by decide +kernel⟩

theorem witness_ArbourGatehouse_3 : ∃ (s : State) (c u : Nat) (w : Word) (x : ArbThread), (c < 20) ∧ (u < 64) ∧ (s.arbAt c u 0x79 w x = true) ∧ (bitsAt w 40 26 = 0) ∧ (iRd w = 0) ∧ (iRb w = 0) ∧ (iImm16 w = 0) ∧ (((gReg x (iRa w)) + BitVec.ofNat 64 (gIdx w)).toNat % 1024 ∈ x.locks) ∧ (((spGet (fun _ => ⟨none, []⟩) (s.clu c).locks (((gReg x (iRa w)) + BitVec.ofNat 64 (gIdx w)).toNat % 1024)).waiters = [])) ∧ (x.pc + 1 < (s.clu c).imem.length) :=
  ⟨((arbWith 0x7900000000070000 lockThread).setClu 0 { (arbWith 0x7900000000070000 lockThread).clu 0 with locks := [(7, ⟨some 3, []⟩)] }), 0, 3, 0x7900000000070000, lockThread, by decide +kernel⟩

theorem witness_ArbourGatehouse_4 : ∃ (s : State) (c u : Nat) (w : Word) (x : ArbThread) (h : Option Nat) (v r : Nat) (ws : List Nat), (c < 20) ∧ (u < 64) ∧ (s.arbAt c u 0x79 w x = true) ∧ (bitsAt w 40 26 = 0) ∧ (iRd w = 0) ∧ (iRb w = 0) ∧ (iImm16 w = 0) ∧ (((gReg x (iRa w)) + BitVec.ofNat 64 (gIdx w)).toNat % 1024 ∈ x.locks) ∧ ((spGet (fun _ => ⟨none, []⟩) (s.clu c).locks (((gReg x (iRa w)) + BitVec.ofNat 64 (gIdx w)).toNat % 1024) = ⟨h, v :: ws⟩)) ∧ (v ≠ u) ∧ ((s.thr c v).wait = some (.lock (((gReg x (iRa w)) + BitVec.ofNat 64 (gIdx w)).toNat % 1024) r)) ∧ ((s.thr c v).st ≠ tHalt) ∧ (x.pc + 1 < (s.clu c).imem.length) :=
  ⟨((arbWith 0x7900000000070000 lockThread).setClu 0 { (arbWith 0x7900000000070000 lockThread).clu 0 with locks := [(7, ⟨some 3, [5, 6]⟩)] }).setThr 0 5 { runThread with st := tWait, wait := some (.lock 7 9) }, 0, 3, 0x7900000000070000, lockThread, some 3, 5, 9, [6], by decide +kernel⟩

theorem witness_ArbourGatehouse_5 : ∃ (s : State) (c u : Nat) (w : Word) (x : ArbThread), (c < 20) ∧ (u < 64) ∧ (s.arbAt c u 0x7A w x = true) ∧ (bitsAt w 40 26 = 0) ∧ (iRd w = 0) ∧ (iRb w = 0) ∧ (gIdx w < 256) ∧ (1 ≤ iImm16 w) ∧ (iImm16 w ≤ 255) ∧ ((∀ v, v < 64 → (s.thr c v).wait = none)) ∧ (x.pc + 1 < (s.clu c).imem.length) :=
  ⟨arbWith 0x7a00400000ff00ff runThread, 0, 3, 0x7a00400000ff00ff, runThread, by decide +kernel⟩

theorem witness_ArbourGatehouse_6 : ∃ (s : State) (c u : Nat) (w : Word) (x : ArbThread) (v n r : Nat), (c < 20) ∧ (u < 64) ∧ (s.arbAt c u 0x7A w x = true) ∧ (bitsAt w 40 26 = 0) ∧ (iRd w = 0) ∧ (iRb w = 0) ∧ (gIdx w < 256) ∧ (1 ≤ iImm16 w) ∧ (iImm16 w ≤ 255) ∧ (x.wait = none) ∧ (v < 64) ∧ (v ≠ u) ∧ ((s.thr c v).wait = some (.counter (((gReg x (iRa w)) + BitVec.ofNat 64 (gIdx w)).toNat % 256) n r)) ∧ ((s.thr c v).outcome = none) ∧ ((s.thr c v).st ≠ tHalt) ∧ (((s.counter c (((gReg x (iRa w)) + BitVec.ofNat 64 (gIdx w)).toNat % 256) + iImm16 w) % 2 ^ 32 + 2 ^ 32 - n % 2 ^ 32) % 2 ^ 32 < 2 ^ 31) ∧ (x.pc + 1 < (s.clu c).imem.length) :=
  ⟨(arbWith 0x7a00000000040009 runThread).setThr 0 5 { runThread with st := tWait, wait := some (.counter 4 9 2) }, 0, 3, 0x7a00000000040009, runThread, 5, 9, 2, by decide +kernel⟩

theorem witness_ArbourGatehouse_7 : ∃ (s : State) (c u : Nat) (w : Word) (x : ArbThread), (c < 20) ∧ (u < 64) ∧ (s.arbAt c u 0x7B w x = true) ∧ (bitsAt w 40 26 = 0) ∧ (gIdx w < 256) ∧ (iImm16 w = 0) ∧ ((s.counter c (((gReg x (iRa w)) + BitVec.ofNat 64 (gIdx w)).toNat % 256) + 2 ^ 32 - bitsAt (gReg x (iRb w)) 31 0) % 2 ^ 32 < 2 ^ 31) ∧ (x.pc + 1 < (s.clu c).imem.length) :=
  ⟨arbWith 0x7b18000000040000 runThread, 0, 3, 0x7b18000000040000, runThread, by decide +kernel⟩

theorem witness_ArbourGatehouse_8 : ∃ (s : State) (c u : Nat) (w : Word) (x : ArbThread), (c < 20) ∧ (u < 64) ∧ (s.arbAt c u 0x7B w x = true) ∧ (bitsAt w 40 26 = 0) ∧ (gIdx w < 256) ∧ (iImm16 w = 0) ∧ (2 ^ 31 ≤ (s.counter c (((gReg x (iRa w)) + BitVec.ofNat 64 (gIdx w)).toNat % 256) + 2 ^ 32 - bitsAt (gReg x (iRb w)) 31 0) % 2 ^ 32) ∧ (x.pc + 1 < (s.clu c).imem.length) :=
  ⟨arbWith 0x7b18020000040000 runThread, 0, 3, 0x7b18020000040000, runThread, by decide +kernel⟩

theorem witness_ArbourGatehouse_9 : ∃ (s : State) (c u : Nat) (w : Word) (x : ArbThread), (c < 20) ∧ (u < 64) ∧ (s.arbAt c u 0x7D w x = true) ∧ (bitsAt w 40 26 = 0) ∧ (gIdx w < 256) ∧ ((s.counter c (((gReg x (iRa w)) + BitVec.ofNat 64 (gIdx w)).toNat % 256) + 2 ^ 32 - bitsAt (gReg x (iRb w)) 31 0) % 2 ^ 32 < 2 ^ 31) ∧ (x.pc + 1 < (s.clu c).imem.length) :=
  ⟨arbWith 0x7d1800000004004d runThread, 0, 3, 0x7d1800000004004d, runThread, by decide +kernel⟩

theorem witness_ArbourGatehouse_10 : ∃ (s : State) (c u : Nat) (w : Word) (x : ArbThread), (c < 20) ∧ (u < 64) ∧ (s.arbAt c u 0x7D w x = true) ∧ (bitsAt w 40 26 = 0) ∧ (gIdx w < 256) ∧ (2 ^ 31 ≤ (s.counter c (((gReg x (iRa w)) + BitVec.ofNat 64 (gIdx w)).toNat % 256) + 2 ^ 32 - bitsAt (gReg x (iRb w)) 31 0) % 2 ^ 32) ∧ (x.pc + 1 < (s.clu c).imem.length) :=
  ⟨arbWith 0x7d1802000004004d runThread, 0, 3, 0x7d1802000004004d, runThread, by decide +kernel⟩

theorem witness_ArbourGatehouse_11 : ∃ (s : State) (c u : Nat) (w : Word) (x : ArbThread), (c < 20) ∧ (u < 64) ∧ (s.arbAt c u 0x7C w x = true) ∧ (bitsAt w 40 26 = 0) ∧ (iRb w = 0) ∧ (gIdx w < 16) ∧ (iImm16 w = 0) ∧ (x.pkt ≠ none) ∧ (((gReg x (iRa w)) + BitVec.ofNat 64 (gIdx w)).toNat % 16 ∉ x.passed) ∧ ((∀ v, v < 64 → (s.thr c v).wait = none)) ∧ ((∀ v, v < 64 → (s.thr c v).pkt = none ∨ x.order ≤ (s.thr c v).order ∨ ((gReg x (iRa w)) + BitVec.ofNat 64 (gIdx w)).toNat % 16 ∈ (s.thr c v).passed)) ∧ (x.pc + 1 < (s.clu c).imem.length) :=
  ⟨arbWith 0x7c180000000f0000 packetThread, 0, 3, 0x7c180000000f0000, packetThread, by decide +kernel⟩

theorem witness_ArbourGatehouse_12 : ∃ (s : State) (c u : Nat) (w : Word) (x : ArbThread) (v : Nat), (c < 20) ∧ (u < 64) ∧ (s.arbAt c u 0x7C w x = true) ∧ (bitsAt w 40 26 = 0) ∧ (iRb w = 0) ∧ (gIdx w < 16) ∧ (iImm16 w = 0) ∧ (x.pkt ≠ none) ∧ (v < 64) ∧ (v ≠ u) ∧ ((s.thr c v).pkt ≠ none) ∧ ((s.thr c v).order < x.order) ∧ (((gReg x (iRa w)) + BitVec.ofNat 64 (gIdx w)).toNat % 16 ∉ (s.thr c v).passed) ∧ (x.pc + 1 < (s.clu c).imem.length) :=
  ⟨(arbWith 0x7c180000000f0000 { packetThread with order := 2 }).setThr 0 5 packetThread, 0, 3, 0x7c180000000f0000, { packetThread with order := 2 }, 5, by decide +kernel⟩

theorem witness_ArbourGatehouse_13 : ∃ (s : State) (c u : Nat) (w : Word) (x : ArbThread), (c < 20) ∧ (u < 64) ∧ (s.arbAt c u 0x7E w x = true) ∧ (bitsAt w 40 26 = 0) ∧ (iRd w = 0) ∧ (iRb w = 0) ∧ (gIdx w < 8) ∧ (iImm16 w = 0) ∧ (x.base = tInit) ∧ (x.pc + 1 < (s.clu c).imem.length) :=
  ⟨arbWith 0x7e00400000070000 initThread, 0, 3, 0x7e00400000070000, initThread, by decide +kernel⟩

theorem witness_ArbourGatehouse_14 : ∃ (s : State) (c u : Nat) (w : Word) (x : ArbThread) (p : ArbPacket), (c < 20) ∧ (u < 64) ∧ (s.arbAt c u 0x76 w x = true) ∧ (bitsAt w 40 0 = 0) ∧ (iRd w = 0) ∧ (iRa w = 0) ∧ (iRb w = 0) ∧ (x.base ≠ tInit) ∧ (x.pkt = some p) ∧ (x.committed = false) ∧ (x.locks = []) ∧ (x.wait = none) ∧ (u ∉ (s.clu c).commitWait) ∧ ((u ≠ 0 ∨ (s.clu c).svcReq = false)) :=
  ⟨arbWith 0x7600000000000000 packetThread, 0, 3, 0x7600000000000000, packetThread, onePacket, by decide +kernel⟩

theorem witness_ArbourGatehouse_15 : ∃ (s : State) (c u : Nat) (w : Word) (x : ArbThread), (c < 20) ∧ (u < 64) ∧ (s.arbAt c u 0x76 w x = true) ∧ (bitsAt w 40 0 = 0) ∧ (iRd w = 0) ∧ (iRa w = 0) ∧ (iRb w = 0) ∧ (x.base ≠ tInit) ∧ ((x.committed = true ∨ x.pkt = none)) ∧ (x.locks = []) ∧ (x.wait = none) ∧ ((u ≠ 0 ∨ (s.clu c).svcReq = false)) :=
  ⟨arbWith 0x7600000000000000 packetThreadDone, 0, 3, 0x7600000000000000, packetThreadDone, by decide +kernel⟩

theorem witness_ArbourGatehouse_16 : ∃ (s : State) (c u : Nat) (w : Word) (x : ArbThread), (c < 20) ∧ (u < 64) ∧ (s.arbAt c u 0x7F w x = true) ∧ (bitsAt w 40 0 = 0) ∧ (iRd w = 0) ∧ (iRa w = 0) ∧ (iRb w = 0) ∧ (x.base = tInit) ∧ (x.pkt = none) ∧ (x.locks = []) ∧ (x.wait = none) ∧ ((u ≠ 0 ∨ (s.clu c).svcReq = false)) :=
  ⟨arbWith 0x7f00000000000000 initThread, 0, 3, 0x7f00000000000000, initThread, by decide +kernel⟩

/-- States and operands that meet the hypotheses of each clause of `ArbourExceptions`. -/
theorem witness_ArbourExceptions_1 : ∃ (s : State) (c u op : Nat) (w : Word) (x : ArbThread), (c < 20) ∧ (u < 64) ∧ (s.arbAt c u op w x = true) ∧ (x.pc < 2 ^ 14) ∧ (op ∉ arbOpcodes) ∧ (x.base = tService) ∧ (x.pkt = none) ∧ (x.locks = []) ∧ (x.wait = none) ∧ ((s.clu c).svcReq = false) :=
  ⟨arbWith 0 serviceThread, 0, 3, 0, 0, serviceThread, by decide +kernel⟩

theorem witness_ArbourExceptions_2 : ∃ (s : State) (c u op : Nat) (w : Word) (x : ArbThread), (c < 20) ∧ (u < 64) ∧ (s.arbAt c u op w x = true) ∧ (x.pc < 2 ^ 14) ∧ (op = 0x10) ∧ (bitsAt w 40 0 = 0) ∧ ((s.clu c).imem.length ≤ x.pc + 1) ∧ (x.base = tService) ∧ (x.pkt = none) ∧ (x.locks = []) ∧ (x.wait = none) ∧ ((s.clu c).svcReq = false) :=
  ⟨(arbWith 0 runThread).setClu 0 { (arbWith 0x1018440000000000 { serviceThread with pc := 3 }).clu 0 with imem := [0, 0, 0, 0x1018440000000000] }, 0, 3, 0x10, 0x1018440000000000, { serviceThread with pc := 3 }, by decide +kernel⟩

/-- States and operands that meet the hypotheses of each clause of `RuleVersions`. -/
theorem witness_RuleVersions_1 : ∃ (s : State), (s.get F.ACM_VER_COMMIT_PENDING = 0) ∧ (s.get F.ACM_VER_STATUS_LIVE ≠ 4) :=
  ⟨State.reset, by decide +kernel⟩

theorem witness_RuleVersions_2 : ∃ (s : State), (s.get F.ACM_VER_COMMIT_PENDING = 0) ∧ (s.get F.ACM_VER_STATUS_LIVE = 4) :=
  ⟨State.reset.set F.ACM_VER_STATUS_LIVE 4, by decide +kernel⟩

theorem witness_RuleVersions_3 : ∃ (s : State), (s.get F.ACM_VER_COMMIT_PENDING = 1) ∧ (s.get F.ACM_VER_STATUS_LIVE < 4) ∧ (s.acm.sweep = none) ∧ (s.epHeld 0x1A0 = false) :=
  ⟨(State.reset.set F.ACM_VER_COMMIT_PENDING 1).set F.ACM_VER_STATUS_COMMITTED 15, by decide +kernel⟩

theorem witness_RuleVersions_4 : ∃ (s : State), (s.acm.sweep = none) ∧ (s.epHeld 0x1A0 = false) ∧ (s.oldest ≠ s.committed) ∧ (s.inFlight s.oldest = 0) ∧ (((s.oldest + 1) % 16 = s.committed ∨ s.inFlight ((s.oldest + 1) % 16) ≠ 0)) :=
  ⟨(State.reset.set F.ACM_VER_STATUS_COMMITTED 0).set F.ACM_VER_STATUS_OLDEST 15, by decide +kernel⟩

theorem witness_RuleVersions_5 : ∃ (s : State) (h d : Nat), (s.acm.sweep = some (h, d)) ∧ (s.epHeld 0x1A0 = false) ∧ ((s.acm.entries.map Prod.fst).Nodup) :=
  ⟨let s := (readyWith [sec secAcmBanks 0 (bytesWith 3072 [(2048, 1)])]); s.withAcm { s.acm with sweep := some (3, 2), entries := [(5, ⟨[1], [2], 0xE043000000000123⟩)] }, 3, 2, by decide +kernel⟩

/-- States and operands that meet the hypotheses of each clause of `EntryCommandsAndActions`. -/
theorem witness_EntryCommandsAndActions_1 : ∃ (s : State), (s.acm.cmd = none) ∧ (s.acm.shift = none) ∧ (bankAlloc s.plan (s.get F.ACM_ENT_ADDR_BANK) = true) ∧ (s.underAmendment secAcmBanks 0 (256 + s.get F.ACM_ENT_ADDR_BANK) = false) :=
  ⟨readyWith [sec secAcmBanks 0 (bytesWith 3072 [(2048, 1)])], by decide +kernel⟩

theorem witness_EntryCommandsAndActions_2 : ∃ (s : State), (s.acm.cmd = none) ∧ (s.acm.shift = none) ∧ (bankAlloc s.plan (s.get F.ACM_ENT_ADDR_BANK) = true) ∧ (s.underAmendment secAcmBanks 0 (256 + s.get F.ACM_ENT_ADDR_BANK) = false) :=
  ⟨readyWith [sec secAcmBanks 0 (bytesWith 3072 [(2048, 1)])], by decide +kernel⟩

theorem witness_EntryCommandsAndActions_3 : ∃ (s : State), (s.acm.cmd = none) ∧ (s.acm.shift = none) ∧ (bankAlloc s.plan (s.get F.ACM_ENT_ADDR_BANK) = true) ∧ (s.underAmendment secAcmBanks 0 (256 + s.get F.ACM_ENT_ADDR_BANK) = false) :=
  ⟨readyWith [sec secAcmBanks 0 (bytesWith 3072 [(2048, 1)])], by decide +kernel⟩

theorem witness_EntryCommandsAndActions_4 : ∃ (s : State), (s.acm.cmd = none) ∧ (s.acm.shift = none) ∧ (bankAlloc s.plan (s.get F.ACM_ENT_ADDR_BANK) = true) ∧ (s.underAmendment secAcmBanks 0 (256 + s.get F.ACM_ENT_ADDR_BANK) = false) :=
  ⟨readyWith [sec secAcmBanks 0 (bytesWith 3072 [(2048, 1)])], by decide +kernel⟩

theorem witness_EntryCommandsAndActions_5 : ∃ (s : State) (b i : Nat) (buf : AcmEntry), (s.acm.cmd = some ⟨3, b, i, buf⟩) :=
  ⟨State.reset.withAcm { State.reset.acm with cmd := some ⟨3, 127, 2047, ⟨[], [], 0⟩⟩, entries := [(2048 * 127 + 2047, ⟨[9], [8], 7⟩)] }, 127, 2047, ⟨[], [], 0⟩, by decide +kernel⟩

theorem witness_EntryCommandsAndActions_6 : ∃ (s : State) (b i : Nat) (buf : AcmEntry), (s.acm.cmd = some ⟨4, b, i, buf⟩) :=
  ⟨State.reset.withAcm { State.reset.acm with cmd := some ⟨4, 127, 2047, ⟨[], [], 0⟩⟩, entries := [(2048 * 127 + 2047, ⟨[9], [8], 0x8000000000000007⟩)] }, 127, 2047, ⟨[], [], 0⟩, by decide +kernel⟩

theorem witness_EntryCommandsAndActions_7 : ∃ (s : State) (bank first last : Nat), (first ≤ last) ∧ (last < 2047) ∧ (s.acm.shift = none) ∧ (bankAlloc s.plan bank = true) ∧ (s.underAmendment secAcmBanks 0 (256 + bank) = false) ∧ (cValid (s.acmEntry bank (last + 1)).ctrl = false) :=
  ⟨readyWith [sec secAcmBanks 0 (bytesWith 3072 [(2048, 1)])], 0, 5, 2046, by decide +kernel⟩

theorem witness_EntryCommandsAndActions_8 : ∃ (s : State) (bank first last : Nat), (first ≤ last) ∧ (s.acm.shift = none) ∧ (bankAlloc s.plan bank = true) ∧ (s.underAmendment secAcmBanks 0 (256 + bank) = false) ∧ ((first = 0 ∨ cValid (s.acmEntry bank (first - 1)).ctrl = true)) :=
  ⟨readyWith [sec secAcmBanks 0 (bytesWith 3072 [(2048, 1)])], 0, 0, 2047, by decide +kernel⟩

theorem witness_EntryCommandsAndActions_9 : ∃ (s : State) (bank first last : Nat), (s.acm.shift = some ⟨false, bank, first, last⟩) ∧ (s.epHeld 0x1A0 = false) :=
  ⟨State.reset.withAcm { State.reset.acm with shift := some ⟨false, 1, 3, 4⟩, entries := [(2051, ⟨[9], [8], 0x8000000000000007⟩)] }, 1, 3, 4, by decide +kernel⟩

theorem witness_EntryCommandsAndActions_10 : ∃ (s : State) (bank entry : Nat), (bankAlloc s.plan bank = true) :=
  ⟨readyWith [sec secAcmBanks 0 (bytesWith 3072 [(2048, 1)])], 0, 5, by decide +kernel⟩

theorem witness_EntryCommandsAndActions_11 : ∃ (s : State) (p : Policer), ((s.get F.ACM_POL_MODE_ALG = 1 ∨ s.get F.ACM_POL_CIR_CIR ≤ s.get F.ACM_POL_PIR_PIR)) ∧ (s.policer (s.get F.ACM_POL_IDX_IDX) = p) :=
  ⟨State.reset, polReset 0, by decide +kernel⟩

theorem witness_EntryCommandsAndActions_12 : ∃ (s : State) (p : Policer), (s.policer (s.get F.ACM_POL_IDX_IDX) = p) :=
  ⟨State.reset, polReset 0, by decide +kernel⟩

/-- States and operands that meet the hypotheses of each clause of `ClassificationOfPackets`. -/
theorem witness_ClassificationOfPackets_1 : ∃ (s : State) (e : Committed) (rest : List Committed), (s.passed = e :: rest) ∧ (s.typeAmending secAcmBanks = false) ∧ (s.typeAmending secEmtGeometry = false) ∧ (s.epHeld 0x1A0 = false) ∧ (e.poison = true) :=
  ⟨State.reset.withPassed [⟨4, 0, [], [], [], 0, 0, true, false⟩], ⟨4, 0, [], [], [], 0, 0, true, false⟩, [], by decide +kernel⟩

theorem witness_ClassificationOfPackets_2 : ∃ (s : State) (e : Committed) (rest : List Committed), (s.passed = e :: rest) ∧ (s.typeAmending secAcmBanks = false) ∧ (s.typeAmending secEmtGeometry = false) ∧ (s.epHeld 0x1A0 = false) ∧ (e.poison = false) ∧ (profPresent s.plan e.profile = true) ∧ (profEmtTable s.plan e.profile = 0xFF) ∧ (((s.acm.queue.any fun q => !q.searched) = false)) ∧ ((profBanks s.plan e.profile).length ≤ s.acm.left) :=
  ⟨(readyWith [sec secAcmBanks 0 [1, 255]]).withPassed [⟨4, 0, [], [], [], 0, 0, false, false⟩], ⟨4, 0, [], [], [], 0, 0, false, false⟩, [], by decide +kernel⟩

theorem witness_ClassificationOfPackets_3 : ∃ (s : State) (q : ClsPacket), (s.epHeld 0x1A0 = false) ∧ (s.acm.queue = [q]) ∧ (q.searched = false) ∧ ((profBanks s.plan q.profile).length ≤ s.get F.ACM_ACT_BUDGET_LIMIT) :=
  ⟨State.reset.withAcm { State.reset.acm with queue := [⟨3, 9, header [], [], [], 0, 0, false, none, none, none, none, false, none⟩] }, ⟨3, 9, header [], [], [], 0, 0, false, none, none, none, none, false, none⟩, by decide +kernel⟩

theorem witness_ClassificationOfPackets_4 : ∃ (s : State) (index : Nat) (eccB : EccResult) (q : ClsPacket) (l : EmtLookup) (e : List Byte), (s.epHeld 0x1A1 = false) ∧ (s.acm.queue[index]? = some q) ∧ (q.lookup = some l) ∧ (l.table < 64) ∧ (s.poisoned (emtAddr s.plan l.table l.bucketA 0) 256 = false) ∧ (bytesAt l.snapA 0 64 = e) ∧ (eValid e = true) ∧ (eParOk e = true) ∧ (s.emtSame l.table e (s.emtKey l.table (bytesAt q.key 80 48)) = true) :=
  ⟨State.reset.withAcm { State.reset.acm with queue := [⟨3, 9, header [], [], [], 0, 0, false, none, some ⟨0, 0, 0, 0, 1, eMake true false false 5 6 [] 0, []⟩, none, none, false, none⟩] }, 0, .clean, ⟨3, 9, header [], [], [], 0, 0, false, none, some ⟨0, 0, 0, 0, 1, eMake true false false 5 6 [] 0, []⟩, none, none, false, none⟩, ⟨0, 0, 0, 0, 1, eMake true false false 5 6 [] 0, []⟩, eMake true false false 5 6 [] 0, by decide +kernel⟩

theorem witness_ClassificationOfPackets_5 : ∃ (s : State) (index : Nat) (q : ClsPacket) (l : EmtLookup), (s.epHeld 0x1A1 = false) ∧ (s.acm.queue[index]? = some q) ∧ (q.lookup = some l) ∧ (l.table < 64) ∧ (s.poisoned (emtAddr s.plan l.table l.bucketA 0) 256 = false) ∧ (s.poisoned (emtAddr s.plan l.table l.bucketB 0) 256 = false) ∧ ((∀ i, i < 4 → eValid (bytesAt l.snapA (64 * i) 64) = false ∧ eValid (bytesAt l.snapB (64 * i) 64) = false)) :=
  ⟨State.reset.withAcm { State.reset.acm with queue := [⟨3, 9, header [], [], [], 0, 0, false, none, some ⟨0, 63, 0, 0, 1, [], []⟩, none, none, false, none⟩] }, 0, ⟨3, 9, header [], [], [], 0, 0, false, none, some ⟨0, 63, 0, 0, 1, [], []⟩, none, none, false, none⟩, ⟨0, 63, 0, 0, 1, [], []⟩, by decide +kernel⟩

theorem witness_ClassificationOfPackets_6 : ∃ (s : State) (index : Nat) (q : ClsPacket) (outs : List Packet), (s.acm.queue[index]? = some q) ∧ (q.outs = some outs) ∧ (q.ticket = none) ∧ (outs ≠ []) ∧ (clsBehind s.acm.queue index q = false) :=
  ⟨State.reset.withAcm { State.reset.acm with queue := [⟨3, 9, header [], [], [], 0, 0, true, none, none, none, some [⟨header [], [], false⟩], true, none⟩] }, 0, ⟨3, 9, header [], [], [], 0, 0, true, none, none, none, some [⟨header [], [], false⟩], true, none⟩, [⟨header [], [], false⟩], by decide +kernel⟩

theorem witness_ClassificationOfPackets_7 : ∃ (s : State) (index : Nat) (q : ClsPacket), (s.acm.queue[index]? = some q) ∧ (q.outs = some []) ∧ (q.ticket = none) ∧ (clsBehind s.acm.queue index q = false) :=
  ⟨State.reset.withAcm { State.reset.acm with queue := [⟨3, 9, header [], [], [], 0, 0, true, none, none, none, some [], false, none⟩] }, 0, ⟨3, 9, header [], [], [], 0, 0, true, none, none, none, some [], false, none⟩, by decide +kernel⟩

theorem witness_ClassificationOfPackets_8 : ∃ (s : State) (index : Nat) (q : ClsPacket) (outs : List Packet), (s.acm.queue[index]? = some q) ∧ (q.outs = some outs) ∧ (q.ticket = none) ∧ (clsBehind s.acm.queue index q = false) :=
  ⟨State.reset.withAcm { State.reset.acm with queue := [⟨3, 9, header [], [], [], 0, 0, true, none, none, none, some [], true, none⟩] }, 0, ⟨3, 9, header [], [], [], 0, 0, true, none, none, none, some [], true, none⟩, [], by decide +kernel⟩

theorem witness_ClassificationOfPackets_9 : ∃ (s : State) (p : Packet) (rest : List Packet), (s.inboxOf 0x1C0 = p :: rest) ∧ (hGet p.words CH.kind ≠ kCommand) ∧ (s.get (F.ACM_MIR_SESS_TRUNC_LEN (hGet p.words CH.dstQueue % 64)) = 0) :=
  ⟨State.reset.setInbox 0x1C0 [⟨header [], [1], false⟩], ⟨header [], [1], false⟩, [], by decide +kernel⟩

/-- States and operands that meet the hypotheses of each clause of `ExactMatchCommands`. -/
theorem witness_ExactMatchCommands_1 : ∃ (s : State) (table : Nat), (s.get F.EMT_CMD_STATUS_BUSY = 0) ∧ (emtPresent s.plan table = true) ∧ (s.underAmendment secEmtGeometry 0 table = false) :=
  ⟨readyWith emtPlan, 0, by decide +kernel⟩

theorem witness_ExactMatchCommands_2 : ∃ (s : State) (table : Nat), (s.get F.EMT_CMD_STATUS_BUSY = 0) ∧ (emtPresent s.plan table = true) ∧ (s.underAmendment secEmtGeometry 0 table = false) :=
  ⟨readyWith emtPlan, 0, by decide +kernel⟩

theorem witness_ExactMatchCommands_3 : ∃ (s : State) (table : Nat), (s.get F.EMT_CMD_STATUS_BUSY = 0) ∧ (emtPresent s.plan table = true) ∧ (s.underAmendment secEmtGeometry 0 table = false) :=
  ⟨readyWith emtPlan, 0, by decide +kernel⟩

theorem witness_ExactMatchCommands_4 : ∃ (s : State) (table : Nat), (s.get F.EMT_CMD_STATUS_BUSY = 0) ∧ (emtPresent s.plan table = true) ∧ (s.underAmendment secEmtGeometry 0 table = false) :=
  ⟨readyWith emtPlan, 0, by decide +kernel⟩

theorem witness_ExactMatchCommands_5 : ∃ (s : State) (table : Nat), (s.get F.EMT_CMD_STATUS_BUSY = 0) ∧ (emtPresent s.plan table = true) ∧ (s.underAmendment secEmtGeometry 0 table = false) ∧ (s.get F.EMT_CMD_LOC_BUCKET < 2 ^ emtBucketsLog2 s.plan table) :=
  ⟨readyWith emtPlan, 0, by decide +kernel⟩

theorem witness_ExactMatchCommands_6 : ∃ (s : State) (table : Nat), (s.get F.EMT_CMD_STATUS_BUSY = 0) ∧ (emtPresent s.plan table = true) ∧ (s.underAmendment secEmtGeometry 0 table = false) ∧ (s.get F.EMT_CMD_LOC_BUCKET < 2 ^ emtBucketsLog2 s.plan table) :=
  ⟨readyWith emtPlan, 0, by decide +kernel⟩

theorem witness_ExactMatchCommands_7 : ∃ (s : State) (table : Nat), (s.get F.EMT_CMD_STATUS_BUSY = 1) :=
  ⟨State.reset.set F.EMT_CMD_STATUS_BUSY 1, 0, by decide +kernel⟩

theorem witness_ExactMatchCommands_8 : ∃ (s : State) (tb a b x sl ls lb ha : Nat) (key : List Byte) (data : Word), (s.emtFront = some (.cmd 4 tb key data lb ls)) ∧ (emtCands s.plan tb key = (ha, a, b)) ∧ (s.emtFind tb key a b = some (x, sl)) :=
  ⟨(let s := readyWith emtPlan; let k : List Byte := List.replicate 48 0; let c := emtCands s.plan 0 k; (s.withEmt { s.emt with engine := [.cmd 4 0 k 0 0 0] }).putBytes (emtAddr s.plan 0 c.2.1 2) (eMake true false false 5 6 k 7)), 0, (emtCands (readyWith emtPlan).plan 0 (List.replicate 48 0)).2.1, (emtCands (readyWith emtPlan).plan 0 (List.replicate 48 0)).2.2, (emtCands (readyWith emtPlan).plan 0 (List.replicate 48 0)).2.1, 2, 0, 0, (emtCands (readyWith emtPlan).plan 0 (List.replicate 48 0)).1, List.replicate 48 0, 0, by decide +kernel⟩

theorem witness_ExactMatchCommands_9 : ∃ (s : State) (tb a b ls lb ha : Nat) (key : List Byte) (data : Word), (s.emtFront = some (.cmd 3 tb key data lb ls)) ∧ (emtCands s.plan tb key = (ha, a, b)) ∧ (s.emtFind tb key a b = none) :=
  ⟨(let s := readyWith emtPlan; s.withEmt { s.emt with engine := [.cmd 3 0 [] 0 0 0] }), 0, (emtCands (readyWith emtPlan).plan 0 []).2.1, (emtCands (readyWith emtPlan).plan 0 []).2.2, 0, 0, (emtCands (readyWith emtPlan).plan 0 []).1, [], 0, by decide +kernel⟩

theorem witness_ExactMatchCommands_10 : ∃ (s : State) (tb a b x sl ls lb ha : Nat) (key : List Byte) (data : Word), (tb < 64) ∧ (s.emtFront = some (.cmd 1 tb key data lb ls)) ∧ (emtCands s.plan tb key = (ha, a, b)) ∧ (s.emtFind tb key a b = none) ∧ (s.emtPlaceNow tb a b = .spot x sl) :=
  ⟨(let s := readyWith emtPlan; s.withEmt { s.emt with engine := [.cmd 1 0 [1] 0x8000123400000056 0 0] }), 0, (emtCands (readyWith emtPlan).plan 0 [1]).2.1, (emtCands (readyWith emtPlan).plan 0 [1]).2.2, (emtCands (readyWith emtPlan).plan 0 [1]).2.1, 0, 0, 0, (emtCands (readyWith emtPlan).plan 0 [1]).1, [1], 0x8000123400000056, by decide +kernel⟩

theorem witness_ExactMatchCommands_11 : ∃ (s : State) (tb ha a b x sl d f : Nat) (key : List Byte) (rest : List (Nat × Nat × Nat)) (fs : List Nat), (tb < 64) ∧ (s.emtPlacing = some (tb, key)) ∧ (emtCands s.plan tb key = (ha, a, b)) ∧ (s.emtFind tb key a b = none) ∧ (s.emt.path = some ((x, sl, d) :: rest)) ∧ (s.emtFree tb d = f :: fs) ∧ (x ≠ d) ∧ (sl < 4) ∧ (eValid (s.emtEntry tb x sl) = true) :=
  ⟨(let s := readyWith emtPlan; (s.withEmt { s.emt with engine := [.cmd 1 0 [1] 0 0 0], path := some [(3, 1, 9)] }).putBytes (emtAddr s.plan 0 3 1) (eMake true false false 5 6 [] 7)), 0, (emtCands (readyWith emtPlan).plan 0 [1]).1, (emtCands (readyWith emtPlan).plan 0 [1]).2.1, (emtCands (readyWith emtPlan).plan 0 [1]).2.2, 3, 1, 9, 0, [1], [], [1, 2, 3], by decide +kernel⟩

/-- States and operands that meet the hypotheses of each clause of `LearningAgeingAndTableDma`. -/
theorem witness_LearningAgeingAndTableDma_1 : ∃ (s : State) (n tb ha a b x sl : Nat) (key : List Byte), (tb < 64) ∧ (s.emtFront = some (.learn n tb key)) ∧ (emtCands s.plan tb key = (ha, a, b)) ∧ (s.emtFind tb key a b = none) ∧ (s.emtPlaceNow tb a b = .spot x sl) ∧ ((s.emtWays (emtSet ha tb)).length < 16) :=
  ⟨(let s := readyWith emtPlan; s.withEmt { s.emt with engine := [.learn 0 0 [1]] }), 0, 0, (emtCands (readyWith emtPlan).plan 0 [1]).1, (emtCands (readyWith emtPlan).plan 0 [1]).2.1, (emtCands (readyWith emtPlan).plan 0 [1]).2.2, (emtCands (readyWith emtPlan).plan 0 [1]).2.1, 0, [1], by decide +kernel⟩

theorem witness_LearningAgeingAndTableDma_2 : ∃ (s : State) (n tb ha a b x : Nat) (key : List Byte), (s.emtFront = some (.learn n tb key)) ∧ (emtCands s.plan tb key = (ha, a, b)) ∧ (s.emtFind tb key a b = none) ∧ (s.emtPlaceNow tb a b = .locked x) :=
  ⟨(let s := readyWith emtPlan; let c := emtCands s.plan 0 [1]; (s.withEmt { s.emt with engine := [.learn 0 0 [1]] }).emtSetLock 0 c.2.1 true), 0, 0, (emtCands (readyWith emtPlan).plan 0 [1]).1, (emtCands (readyWith emtPlan).plan 0 [1]).2.1, (emtCands (readyWith emtPlan).plan 0 [1]).2.2, (emtCands (readyWith emtPlan).plan 0 [1]).2.1, [1], by decide +kernel⟩

theorem witness_LearningAgeingAndTableDma_3 : ∃ (s : State) (n : Nat), (s.epHeld 0x1A1 = false) ∧ ((List.range 64).filter s.emtAges = [n]) ∧ (s.emt.scanTable = n) ∧ (s.emt.scanBucket + 1 < 2 ^ emtBucketsLog2 s.plan (s.emtActive n)) ∧ (s.emt.cache = []) :=
  ⟨((readyWith emtPlan).set (F.EMT_TBL_CFG_AGE_EN 0) 1), 0, by decide +kernel⟩

theorem witness_LearningAgeingAndTableDma_4 : ∃ (s : State) (n tb b sl : Nat), (tb < 64) ∧ (s.emtFront = some (.removal n tb b sl)) ∧ (s.emtAged n tb b sl = true) :=
  ⟨(let s := readyWith emtPlan; ((s.withEmt { s.emt with engine := [.removal 0 0 5 3] }).putBytes (emtAddr s.plan 0 5 3) (eMake true false true 5 6 [] 7)).set (F.EMT_TBL_AGE_LIMIT 0) 1), 0, 0, 5, 3, by decide +kernel⟩

theorem witness_LearningAgeingAndTableDma_5 : ∃ (s : State) (n tb b sl : Nat), (s.emtFront = some (.removal n tb b sl)) ∧ (s.emtAged n tb b sl = false) :=
  ⟨(let s := readyWith emtPlan; s.withEmt { s.emt with engine := [.removal 0 0 5 3] }), 0, 0, 5, 3, by decide +kernel⟩

theorem witness_LearningAgeingAndTableDma_6 : ∃ (s : State) (host : Bool), (s.get F.EMT_DMA_STATUS_BUSY = 0) ∧ (emtPresent s.plan (s.get F.EMT_DMA_FIRST_TABLE) = true) ∧ (s.underAmendment secEmtGeometry 0 (s.get F.EMT_DMA_FIRST_TABLE) = false) ∧ (s.get F.EMT_DMA_FIRST_BUCKET + s.get F.EMT_DMA_COUNT_COUNT ≤ 2 ^ emtBucketsLog2 s.plan (s.get F.EMT_DMA_FIRST_TABLE)) :=
  ⟨(readyWith emtPlan).set F.EMT_DMA_COUNT_COUNT 16, true, by decide +kernel⟩

theorem witness_LearningAgeingAndTableDma_7 : ∃ (s : State) (host : Bool), (s.get F.EMT_DMA_STATUS_BUSY = 0) ∧ (emtPresent s.plan (s.get F.EMT_DMA_FIRST_TABLE) = true) ∧ (s.underAmendment secEmtGeometry 0 (s.get F.EMT_DMA_FIRST_TABLE) = false) ∧ (s.get F.EMT_DMA_FIRST_BUCKET + s.get F.EMT_DMA_COUNT_COUNT ≤ 2 ^ emtBucketsLog2 s.plan (s.get F.EMT_DMA_FIRST_TABLE)) :=
  ⟨(readyWith emtPlan).set F.EMT_DMA_COUNT_COUNT 16, true, by decide +kernel⟩

theorem witness_LearningAgeingAndTableDma_8 : ∃ (s : State) (host : Bool), (s.get F.EMT_DMA_STATUS_BUSY = 0) ∧ (emtPresent s.plan (s.get F.EMT_DMA_FIRST_TABLE) = true) ∧ (s.underAmendment secEmtGeometry 0 (s.get F.EMT_DMA_FIRST_TABLE) = false) ∧ (s.get F.EMT_DMA_FIRST_BUCKET + s.get F.EMT_DMA_COUNT_COUNT ≤ 2 ^ emtBucketsLog2 s.plan (s.get F.EMT_DMA_FIRST_TABLE)) :=
  ⟨(readyWith emtPlan).set F.EMT_DMA_COUNT_COUNT 16, true, by decide +kernel⟩

theorem witness_LearningAgeingAndTableDma_9 : ∃ (s : State) (host : Bool), (s.get F.EMT_DMA_STATUS_BUSY = 0) ∧ (emtPresent s.plan (s.get F.EMT_DMA_FIRST_TABLE) = true) ∧ (s.underAmendment secEmtGeometry 0 (s.get F.EMT_DMA_FIRST_TABLE) = false) ∧ (s.get F.EMT_DMA_FIRST_BUCKET + s.get F.EMT_DMA_COUNT_COUNT ≤ 2 ^ emtBucketsLog2 s.plan (s.get F.EMT_DMA_FIRST_TABLE)) :=
  ⟨(readyWith emtPlan).set F.EMT_DMA_COUNT_COUNT 16, true, by decide +kernel⟩

theorem witness_LearningAgeingAndTableDma_10 : ∃ (s : State) (host : Bool), (s.get F.EMT_DMA_STATUS_BUSY = 0) ∧ (emtPresent s.plan (s.get F.EMT_DMA_FIRST_TABLE) = true) ∧ (s.underAmendment secEmtGeometry 0 (s.get F.EMT_DMA_FIRST_TABLE) = false) ∧ (s.get F.EMT_DMA_FIRST_BUCKET + s.get F.EMT_DMA_COUNT_COUNT ≤ 2 ^ emtBucketsLog2 s.plan (s.get F.EMT_DMA_FIRST_TABLE)) :=
  ⟨(readyWith emtPlan).set F.EMT_DMA_COUNT_COUNT 16, true, by decide +kernel⟩

theorem witness_LearningAgeingAndTableDma_11 : ∃ (s : State) (host : Bool), (s.get F.EMT_DMA_STATUS_BUSY = 0) ∧ (emtPresent s.plan (s.get F.EMT_DMA_FIRST_TABLE) = true) ∧ (s.underAmendment secEmtGeometry 0 (s.get F.EMT_DMA_FIRST_TABLE) = false) ∧ (2 ^ emtBucketsLog2 s.plan (s.get F.EMT_DMA_FIRST_TABLE) < s.get F.EMT_DMA_FIRST_BUCKET + s.get F.EMT_DMA_COUNT_COUNT) :=
  ⟨(readyWith emtPlan).set F.EMT_DMA_COUNT_COUNT 17, true, by decide +kernel⟩

theorem witness_LearningAgeingAndTableDma_12 : ∃ (s : State) (hostBytes : List Byte) (x : SrcRead) (addr tb b : Nat), (s.emtFront = some (.dma 1 true addr tb b 1 0)) ∧ (s.emt.cache = []) ∧ (s.dmaOpen 0 = true) :=
  ⟨(let s := ((readyWith emtPlan).set F.MEM_IOMMU_DDTP_MODE 1).setCfg 0 0x04 6; ((s.withEmt { s.emt with engine := [.dma 1 true 4096 0 15 1 0] }).putBytes (emtAddr s.plan 0 15 3) (eMake true false true 5 6 [] 7))), [], cleanRead, 4096, 0, 15, by decide +kernel⟩

theorem witness_LearningAgeingAndTableDma_13 : ∃ (s : State) (hostBytes : List Byte) (x : SrcRead) (host : Bool) (addr tb b : Nat), (s.operatorWaits host = false) ∧ (s.emtFront = some (.dma 2 host addr tb b 1 0)) ∧ (s.emtLocked tb b = true) :=
  ⟨(let s := readyWith emtPlan; (s.withEmt { s.emt with engine := [.dma 2 true 4096 0 15 1 0] }).emtSetLock 0 15 true), [], cleanRead, true, 4096, 0, 15, by decide +kernel⟩

theorem witness_LearningAgeingAndTableDma_14 : ∃ (s : State) (hostBytes : List Byte) (x : SrcRead) (host : Bool) (addr tb b : Nat), (s.operatorWaits host = false) ∧ (s.emtFront = some (.dma 5 host addr tb b 1 0)) ∧ (s.emtLocked tb b = true) :=
  ⟨(let s := readyWith emtPlan; (s.withEmt { s.emt with engine := [.dma 5 true 4096 0 15 1 0] }).emtSetLock 0 15 true), [], cleanRead, true, 4096, 0, 15, by decide +kernel⟩

theorem witness_LearningAgeingAndTableDma_15 : ∃ (s : State) (table : Nat), (emtPresent s.plan table = true) ∧ (emtPresent s.plan (s.get (F.EMT_TBL_REDIR_STG_TARGET table)) = true) ∧ (s.underAmendment secEmtGeometry 0 table = false) ∧ (s.get (F.EMT_TBL_REDIR_COMMIT_PENDING table) = 0) :=
  ⟨readyWith emtPlan, 0, by decide +kernel⟩

/-- States and operands that meet the hypotheses of each clause of `EgressQueuesAndFrames`. -/
theorem witness_EgressQueuesAndFrames_1 : ∃ (s : State) (port l : Nat) (p : Packet) (rest : List Packet), (s.inboxOf (0x1B0 + port) = p :: rest) ∧ (hGet p.words CH.kind = kPacket) ∧ (hGet p.words CH.dstQueue = l) ∧ (l < 65536) ∧ (treeOwns s.plan port (l / 16) = true) ∧ (s.egressHeld port = false) ∧ (p.poison = false) ∧ ((s.get (F.SCH_PORT_STATUS_LINK port) = 1 ∨ s.get (F.SCH_PORT_CFG_FLUSH_ON_DOWN port) = 0)) ∧ (s.get (F.SCH_CLS_MAXSDU_MAX port (leafClass s.plan port l)) = 0) ∧ (s.leafBytes l + egLen ⟨p.words, p.payload, false, false⟩ ≤ s.get (F.SCH_LEAF_LIMIT_KIB l) * 1024) ∧ (s.schBytes + egLen ⟨p.words, p.payload, false, false⟩ ≤ ((unitPartition s.plan uSch).map Prod.snd).getD 0) :=
  ⟨((readyWith [sec secPortLayout 0 [1], sec secSchTree 0 [1, 3], sec secMemPartition 0 (bytesWith 16 [(0, 1), (4, uSch), (12, 1)])]).set (F.SCH_LEAF_LIMIT_KIB 5) 1).setInbox 0x1B0 [⟨header [(CH.kind, kPacket), (CH.len, 70), (CH.dstQueue, 5)], [1, 2], false⟩], 0, 5, ⟨header [(CH.kind, kPacket), (CH.len, 70), (CH.dstQueue, 5)], [1, 2], false⟩, [], by decide +kernel⟩

theorem witness_EgressQueuesAndFrames_2 : ∃ (s : State) (port : Nat) (p : Packet) (rest : List Packet), (s.inboxOf (0x1B0 + port) = p :: rest) ∧ (hGet p.words CH.kind ≠ kPacket) :=
  ⟨(readyWith [sec secPortLayout 0 [1], sec secSchTree 0 [1, 3]]).setInbox 0x1B0 [⟨header [(CH.kind, kEvent)], [], false⟩], 0, ⟨header [(CH.kind, kEvent)], [], false⟩, [], by decide +kernel⟩

theorem witness_EgressQueuesAndFrames_3 : ∃ (s : State) (port : Nat) (p : Packet) (rest : List Packet), (s.inboxOf (0x1B0 + port) = p :: rest) ∧ (hGet p.words CH.kind = kPacket) ∧ ((65536 ≤ hGet p.words CH.dstQueue ∨ treeOwns s.plan port (hGet p.words CH.dstQueue % 65536 / 16) = false)) :=
  ⟨(readyWith [sec secPortLayout 0 [1], sec secSchTree 0 [1, 3]]).setInbox 0x1B0 [⟨header [(CH.kind, kPacket), (CH.dstQueue, 65536)], [], false⟩], 0, ⟨header [(CH.kind, kPacket), (CH.dstQueue, 65536)], [], false⟩, [], by decide +kernel⟩

theorem witness_EgressQueuesAndFrames_4 : ∃ (s : State) (port markers l : Nat) (f : EgFrame) (rest : List EgFrame) (s1 s2 : State), (s.portFree port = true) ∧ ((((s.gatesNow port).refillPort port).dropUnfit port markers ((s.busyLeaves port).map fun k => (s.leafQ k).length).sum = s1)) ∧ (s1.portPick port markers = some (l, s2)) ∧ (s2.leafQ l = f :: rest) ∧ ((f.arriving && s1.rxPoison port) = false) :=
  ⟨((readyWith [sec secPortLayout 0 [1], sec secSchTree 0 [1, 3]]).set (F.SCH_PORT_STATUS_LINK 0) 1).setLeafQ 5 [⟨header [(CH.kind, kPacket), (CH.len, 70)], [1, 2], false, false⟩], 0, 0, 5, ⟨header [(CH.kind, kPacket), (CH.len, 70)], [1, 2], false, false⟩, [], (((((readyWith [sec secPortLayout 0 [1], sec secSchTree 0 [1, 3]]).set (F.SCH_PORT_STATUS_LINK 0) 1).setLeafQ 5 [⟨header [(CH.kind, kPacket), (CH.len, 70)], [1, 2], false, false⟩]).gatesNow 0).refillPort 0), (((((((readyWith [sec secPortLayout 0 [1], sec secSchTree 0 [1, 3]]).set (F.SCH_PORT_STATUS_LINK 0) 1).setLeafQ 5 [⟨header [(CH.kind, kPacket), (CH.len, 70)], [1, 2], false, false⟩]).gatesNow 0).refillPort 0).portPick 0 0).elim State.reset Prod.snd), by decide +kernel⟩

theorem witness_EgressQueuesAndFrames_5 : ∃ (s : State) (port markers l : Nat) (f : EgFrame) (rest : List EgFrame) (s1 s2 : State), (s.portFree port = true) ∧ ((((s.gatesNow port).refillPort port).dropUnfit port markers ((s.busyLeaves port).map fun k => (s.leafQ k).length).sum = s1)) ∧ (s1.portPick port markers = some (l, s2)) ∧ (s2.leafQ l = f :: rest) :=
  ⟨((readyWith [sec secPortLayout 0 [1], sec secSchTree 0 [1, 3]]).set (F.SCH_PORT_STATUS_LINK 0) 1).setLeafQ 5 [⟨header [(CH.kind, kPacket), (CH.len, 70)], [1, 2], false, false⟩], 0, 0, 5, ⟨header [(CH.kind, kPacket), (CH.len, 70)], [1, 2], false, false⟩, [], (((((readyWith [sec secPortLayout 0 [1], sec secSchTree 0 [1, 3]]).set (F.SCH_PORT_STATUS_LINK 0) 1).setLeafQ 5 [⟨header [(CH.kind, kPacket), (CH.len, 70)], [1, 2], false, false⟩]).gatesNow 0).refillPort 0), (((((((readyWith [sec secPortLayout 0 [1], sec secSchTree 0 [1, 3]]).set (F.SCH_PORT_STATUS_LINK 0) 1).setLeafQ 5 [⟨header [(CH.kind, kPacket), (CH.len, 70)], [1, 2], false, false⟩]).gatesNow 0).refillPort 0).portPick 0 0).elim State.reset Prod.snd), by decide +kernel⟩

theorem witness_EgressQueuesAndFrames_6 : ∃ (s : State) (port sent : Nat) (x : TxFrame), (port < 16) ∧ (s.txOf port = some x) ∧ (x.frame.arriving = false) ∧ (x.aborted = false) ∧ (x.frame.poison = false) ∧ (hGet x.frame.words CH.timeFrac % 2 = 0) :=
  ⟨(readyWith [sec secPortLayout 0 [1], sec secSchTree 0 [1, 3]]).setTx 0 (some ⟨5, ⟨header [(CH.kind, kPacket), (CH.len, 70)], [1, 2], false, false⟩, 0, 0, false⟩), 0, 0, ⟨5, ⟨header [(CH.kind, kPacket), (CH.len, 70)], [1, 2], false, false⟩, 0, 0, false⟩, by decide +kernel⟩

theorem witness_EgressQueuesAndFrames_7 : ∃ (s : State) (port sent : Nat) (x : TxFrame), (port < 16) ∧ (s.txOf port = some x) ∧ (x.frame.arriving = false) ∧ (x.aborted = true) ∧ (hGet x.frame.words CH.timeFrac % 2 = 0) :=
  ⟨(readyWith [sec secPortLayout 0 [1], sec secSchTree 0 [1, 3]]).setTx 0 (some ⟨5, ⟨header [(CH.kind, kPacket), (CH.len, 70)], [1, 2], false, false⟩, 0, 0, true⟩), 0, 20, ⟨5, ⟨header [(CH.kind, kPacket), (CH.len, 70)], [1, 2], false, false⟩, 0, 0, true⟩, by decide +kernel⟩

theorem witness_EgressQueuesAndFrames_8 : ∃ (s : State) (level index iv m : Nat) (n : SchNode), (level ≠ 1) ∧ (level < 4) ∧ (index < 65536) ∧ (nodePresent s.plan level index = true) ∧ (s.node (nodeKey level index) = n) ∧ (nInterval n = iv) ∧ (s.tbVal 0 / iv - (s.tbVal 0 - (s.clk.elapsed - max n.last s.sch.anchor)) / iv = m) ∧ (m ≠ 0) ∧ (s.nodeGoHere (nodeKey level index) = false) ∧ (n.rate ≠ 0) :=
  ⟨(((readyWith [sec secPortLayout 0 [1], sec secSchTree 0 [1, 3]]).setTbase 0 ⟨1000 * 2 ^ 44, 0, 0, 0⟩).withClk { State.reset.clk with elapsed := 1000 * 2 ^ 44 }).setNode (nodeKey 3 5) { schNodeReset (nodeKey 3 5) with rate := 1000000007 }, 3, 5, 8 * nsUnit * 8, 15, { schNodeReset (nodeKey 3 5) with rate := 1000000007 }, by decide +kernel⟩

theorem witness_EgressQueuesAndFrames_9 : ∃ (s : State) (level index : Nat) (n : SchNode), (level ≠ 1) ∧ (level < 4) ∧ (index < 65536) ∧ (nodePresent s.plan level index = true) ∧ (s.node (nodeKey level index) = n) ∧ (s.get F.SCH_NODE_COMMIT_PENDING = 1) ∧ (nodeKey (s.get F.SCH_NODE_SEL_STG_LEVEL) (s.get F.SCH_NODE_SEL_STG_INDEX) = nodeKey level index) ∧ (s.sch.due = false) ∧ ((s.refillDue n).1 ≠ 0) ∧ (s.refillOfGo n ≤ (s.refillDue n).1) ∧ ((s.refillDue n).2 (s.refillOfGo n) ≠ s.clk.elapsed) :=
  ⟨(((readyWith [sec secPortLayout 0 [1], sec secSchTree 0 [1, 3]]).setTbase 0 ⟨1000 * 2 ^ 44, 0, 0, 0⟩).withClk { State.reset.clk with elapsed := 1000 * 2 ^ 44 }).sets [(F.SCH_NODE_COMMIT_PENDING, 1), (F.SCH_NODE_SEL_STG_LEVEL, 3), (F.SCH_NODE_SEL_STG_INDEX, 5)], 3, 5, schNodeReset (nodeKey 3 5), by decide +kernel⟩

theorem witness_EgressQueuesAndFrames_10 : ∃ (s : State) (level index : Nat) (n : SchNode), (level ≠ 1) ∧ (level < 4) ∧ (index < 65536) ∧ (nodePresent s.plan level index = true) ∧ (s.node (nodeKey level index) = n) ∧ (s.get F.SCH_NODE_COMMIT_PENDING = 1) ∧ (nodeKey (s.get F.SCH_NODE_SEL_STG_LEVEL) (s.get F.SCH_NODE_SEL_STG_INDEX) = nodeKey level index) ∧ (s.sch.due = false) ∧ ((s.refillDue n).1 ≠ 0) ∧ (s.refillOfGo n ≤ (s.refillDue n).1) ∧ ((s.refillDue n).2 (s.refillOfGo n) = s.clk.elapsed) ∧ (n.rate = 0) :=
  ⟨(let s := (((readyWith [sec secPortLayout 0 [1], sec secSchTree 0 [1, 3]]).setTbase 0 ⟨1024 * 2 ^ 44, 0, 0, 0⟩).withClk { State.reset.clk with elapsed := 1024 * 2 ^ 44 }).sets [(F.SCH_NODE_COMMIT_PENDING, 1), (F.SCH_NODE_SEL_STG_LEVEL, 3), (F.SCH_NODE_SEL_STG_INDEX, 5)]; s.withSch { s.sch with goAt := 1024 * 2 ^ 44 }), 3, 5, schNodeReset (nodeKey 3 5), by decide +kernel⟩

theorem witness_EgressQueuesAndFrames_11 : ∃ (s : State), (nodePresent s.plan (s.get F.SCH_NODE_SEL_STG_LEVEL) (s.get F.SCH_NODE_SEL_STG_INDEX) = true) ∧ (s.egressHeld (nodePort s.plan (s.get F.SCH_NODE_SEL_STG_LEVEL) (s.get F.SCH_NODE_SEL_STG_INDEX)) = false) ∧ (s.get F.SCH_NODE_COMMIT_PENDING = 0) ∧ (s.cbsStagedOk (s.get F.SCH_NODE_SEL_STG_LEVEL) (s.get F.SCH_NODE_SEL_STG_INDEX) = true) :=
  ⟨readyWith [sec secPortLayout 0 [1], sec secSchTree 0 [1, 3]], by decide +kernel⟩

/-- States and operands that meet the hypotheses of each clause of `GateLists`. -/
theorem witness_GateLists_1 : ∃ (s : State) (port : Nat), (port < 16) ∧ (portPresent s.plan port = true) ∧ (s.underAmendment secSchTree port 0 = false) ∧ (s.underAmendment secPortLayout 0 port = false) ∧ (s.get (F.SCH_GCL_COMMIT_PENDING port) = 0) ∧ (s.gclStagedOk port = true) :=
  ⟨(readyWith [sec secPortLayout 0 [1], sec secSchTree 0 [1, 3]]).set (F.SCH_GCL_CYCLE_STG_NS 0) 1000, 0, by decide +kernel⟩

theorem witness_GateLists_2 : ∃ (s : State) (port : Nat), (port < 16) ∧ (portPresent s.plan port = true) ∧ (s.underAmendment secSchTree port 0 = false) ∧ (s.underAmendment secPortLayout 0 port = false) ∧ (s.get (F.SCH_GCL_COMMIT_PENDING port) = 0) ∧ (s.gclStagedOk port = false) :=
  ⟨readyWith [sec secPortLayout 0 [1], sec secSchTree 0 [1, 3]], 0, by decide +kernel⟩

theorem witness_GateLists_3 : ∃ (s : State) (port c : Nat), (port < 16) ∧ ((s.gcl port).change = some c) ∧ (c ≤ s.portNow port) :=
  ⟨(readyWith [sec secPortLayout 0 [1], sec secSchTree 0 [1, 3]]).setGcl 0 ⟨0, 0, 0, false, some 0, 0⟩, 0, 0, by decide +kernel⟩

theorem witness_GateLists_4 : ∃ (s : State) (port k : Nat) (g : Gcl), (port < 16) ∧ (s.gcl port = g) ∧ (g.change = none) ∧ (g.held = false) ∧ (g.cycle ≠ 0) ∧ (s.get (F.SCH_GCL_STATUS_OPER_LEN port) ≠ 0) ∧ (g.start = g.base * 2 ^ 28 + k * (g.cycle * 2 ^ 28)) ∧ (g.start ≤ s.portNow port) ∧ (s.portNow port < g.start + g.cycle * 2 ^ 28) :=
  ⟨((readyWith [sec secPortLayout 0 [1], sec secSchTree 0 [1, 3]]).setGcl 0 ⟨0, 65536, 0, false, none, 0⟩).set (F.SCH_GCL_STATUS_OPER_LEN 0) 1, 0, 0, ⟨0, 65536, 0, false, none, 0⟩, by decide +kernel⟩

theorem witness_GateLists_5 : ∃ (s : State) (port : Nat) (g : Gcl), (port < 16) ∧ (s.gcl port = g) ∧ (g.change = none) ∧ (g.cycle ≠ 0) ∧ (s.get (F.SCH_GCL_STATUS_OPER_LEN port) ≠ 0) ∧ (g.base * 2 ^ 28 ≤ g.start) ∧ (g.start + g.cycle * 2 ^ 28 ≤ s.portNow port) :=
  ⟨(((readyWith [sec secPortLayout 0 [1], sec secSchTree 0 [1, 3]]).setGcl 0 ⟨0, 65536, 0, false, none, 0⟩).set (F.SCH_GCL_STATUS_OPER_LEN 0) 1).setTbase 0 ⟨2 ^ 64, 0, 0, 0⟩, 0, ⟨0, 65536, 0, false, none, 0⟩, by decide +kernel⟩

/-- States and operands that meet the hypotheses of each clause of `CipherRequests`. -/
theorem witness_CipherRequests_1 : ∃ (s : State) (pair index op : Nat) (ecc : EccResult) (m : Packet) (b inl : List Byte) (way : KeyWay), (s.ready = true) ∧ (s.epHeld (cphEp pair) = false) ∧ ((s.inboxOf (cphEp pair))[index]? = some m) ∧ ((((s.inboxOf (cphEp pair)).take index).any (fun (x : Packet) => hGet x.words CH.dstQueue == hGet m.words CH.dstQueue) = false)) ∧ (hGet m.words CH.kind = kCommand) ∧ (s.cphQueueOk pair m = true) ∧ (s.cphCrossed pair m = none) ∧ (s.cphMoving (hGet m.words CH.dstQueue) = false) ∧ ((cphQShared s.plan (hGet m.words CH.dstQueue) = true ∨ hGet m.words CH.td = cphQTd s.plan (hGet m.words CH.dstQueue))) ∧ (m.poison = false ∧ hGet m.words CH.poison = 0) ∧ (cphParse (s.get (F.CPH_Q_CFG_INLINE_OP (hGet m.words CH.dstQueue))) m = some (op, b, [], inl)) ∧ (cphSlotInRange s.plan (hGet m.words CH.dstQueue) (hGet m.words CH.keySlot) = true) ∧ (s.cachedSlot (hGet m.words CH.keySlot) = some way) ∧ (way.fetched = false) ∧ (krState way.record = 1) ∧ (krOwner way.record = hGet m.words CH.td) ∧ (opFits op way.record = true) ∧ (pbModeOk op b way.record = true) ∧ (pbRef b = false) ∧ (outputMax op (cphQCompat s.plan (hGet m.words CH.dstQueue)) b ≤ 65535) ∧ (lengthOk op (cphQCompat s.plan (hGet m.words CH.dstQueue)) b way.record inl = true) ∧ (opFramed op = false) ∧ (s.pairState pair = 0) :=
  ⟨(let b := natLE 8 0 ++ natLE 8 0 ++ natLE 4 0 ++ natLE 4 16 ++ natLE 8 16 ++ List.replicate 32 0; let m : Packet := ⟨header [(CH.kind, kCommand), (CH.opcode, 0x0101), (CH.keySlot, 9)], b ++ List.replicate 16 7, false⟩; (((readyWith [sec secCphAlloc 0 (natLE 8 1 ++ natLE 4 8 ++ natLE 4 4)]).set (F.CPH_Q_CFG_EN 0) 1).setInbox 0x20 [m]).setKeyWays 9 [⟨9, [1, 1] ++ List.replicate 142 0, false, false⟩]), 0, 0, 0x0101, .clean, ⟨header [(CH.kind, kCommand), (CH.opcode, 0x0101), (CH.keySlot, 9)], (natLE 8 0 ++ natLE 8 0 ++ natLE 4 0 ++ natLE 4 16 ++ natLE 8 16 ++ List.replicate 32 0) ++ List.replicate 16 7, false⟩, natLE 8 0 ++ natLE 8 0 ++ natLE 4 0 ++ natLE 4 16 ++ natLE 8 16 ++ List.replicate 32 0, List.replicate 16 7, ⟨9, [1, 1] ++ List.replicate 142 0, false, false⟩, by decide +kernel⟩

theorem witness_CipherRequests_2 : ∃ (s : State) (pair index op : Nat) (ecc : EccResult) (m : Packet) (b inl : List Byte) (way : KeyWay), (s.ready = true) ∧ (s.epHeld (cphEp pair) = false) ∧ ((s.inboxOf (cphEp pair))[index]? = some m) ∧ ((((s.inboxOf (cphEp pair)).take index).any (fun (x : Packet) => hGet x.words CH.dstQueue == hGet m.words CH.dstQueue) = false)) ∧ (hGet m.words CH.kind = kCommand) ∧ (s.cphQueueOk pair m = true) ∧ (s.cphCrossed pair m = none) ∧ (s.cphMoving (hGet m.words CH.dstQueue) = false) ∧ ((cphQShared s.plan (hGet m.words CH.dstQueue) = true ∨ hGet m.words CH.td = cphQTd s.plan (hGet m.words CH.dstQueue))) ∧ (m.poison = false ∧ hGet m.words CH.poison = 0) ∧ (cphParse (s.get (F.CPH_Q_CFG_INLINE_OP (hGet m.words CH.dstQueue))) m = some (op, b, [], inl)) ∧ (cphSlotInRange s.plan (hGet m.words CH.dstQueue) (hGet m.words CH.keySlot) = true) ∧ (s.cachedSlot (hGet m.words CH.keySlot) = some way) ∧ (way.fetched = false) ∧ (krState way.record = 1) ∧ (krOwner way.record = hGet m.words CH.td) ∧ (opFits op way.record = true) ∧ (pbModeOk op b way.record = true) ∧ (pbRef b = false) ∧ (outputMax op (cphQCompat s.plan (hGet m.words CH.dstQueue)) b ≤ 65535) ∧ (lengthOk op (cphQCompat s.plan (hGet m.words CH.dstQueue)) b way.record inl = true) ∧ (opFramed op = true) ∧ (opInbound op = false) ∧ (krSeq way.record < seqMax way.record) ∧ (s.pairState pair = 0) :=
  ⟨(let b := List.replicate 20 0 ++ natLE 4 16 ++ natLE 8 0 ++ List.replicate 32 0; let m : Packet := ⟨header [(CH.kind, kCommand), (CH.opcode, 0x0201), (CH.keySlot, 9)], b ++ List.replicate 16 7, false⟩; (((readyWith [sec secCphAlloc 0 (natLE 8 1 ++ natLE 4 8 ++ natLE 4 4)]).set (F.CPH_Q_CFG_EN 0) 1).setInbox 0x20 [m]).setKeyWays 9 [⟨9, [1, 1, 1] ++ List.replicate 141 0, false, false⟩]), 0, 0, 0x0201, .clean, ⟨header [(CH.kind, kCommand), (CH.opcode, 0x0201), (CH.keySlot, 9)], (List.replicate 20 0 ++ natLE 4 16 ++ natLE 8 0 ++ List.replicate 32 0) ++ List.replicate 16 7, false⟩, List.replicate 20 0 ++ natLE 4 16 ++ natLE 8 0 ++ List.replicate 32 0, List.replicate 16 7, ⟨9, [1, 1, 1] ++ List.replicate 141 0, false, false⟩, by decide +kernel⟩

theorem witness_CipherRequests_3 : ∃ (s : State) (pair index : Nat) (ecc : EccResult) (m : Packet), (s.ready = true) ∧ (s.epHeld (cphEp pair) = false) ∧ ((s.inboxOf (cphEp pair))[index]? = some m) ∧ ((((s.inboxOf (cphEp pair)).take index).any (fun (x : Packet) => hGet x.words CH.dstQueue == hGet m.words CH.dstQueue) = false)) ∧ (s.cphCrossed pair m = none) ∧ (hGet m.words CH.kind ≠ kCommand ∧ hGet m.words CH.kind ≠ kPacket) :=
  ⟨(readyWith []).setInbox 0x20 [⟨header [(CH.kind, kMessage)], [], false⟩], 0, 0, .clean, ⟨header [(CH.kind, kMessage)], [], false⟩, by decide +kernel⟩

theorem witness_CipherRequests_4 : ∃ (s : State) (slot p q : Nat) (r : List Byte), (s.cphHeld = false) ∧ (s.slotWanted slot = some (p, q)) ∧ (s.cachedSlot slot = none) ∧ ((s.keyWays (slot % 1024)).length < 16) ∧ (s.poisoned (s.slotAddr slot) 160 = false) ∧ (s.unwrapRecord slot (s.bytes (s.slotAddr slot) 160) = some r) :=
  ⟨(readyWith []).setInbox 0x20 [⟨header [(CH.kind, kCommand), (CH.keySlot, 9)], [], false⟩], 9, 0, 0, krEmpty, by decide +kernel⟩

theorem witness_CipherRequests_5 : ∃ (s : State) (slot p q : Nat) (ecc : EccResult), (s.cphHeld = false) ∧ (s.slotWanted slot = some (p, q)) ∧ (s.cachedSlot slot = none) ∧ ((s.keyWays (slot % 1024)).length < 16) ∧ ((ecc.bad || s.poisoned (s.slotAddr slot) 160) = true) :=
  ⟨((readyWith cphPlan).setInbox 0x20 [⟨header [(CH.kind, kCommand), (CH.keySlot, 9)], [], false⟩]).withPoison [(1440, true)], 9, 0, 0, .clean, by decide +kernel⟩

theorem witness_CipherRequests_6 : ∃ (s : State) (index : Nat) (r : CphReq), (s.cph.reqs[index]? = some r) ∧ (r.phase = 0) ∧ (s.pairState r.pair = 0) ∧ (s.epHeld (cphEp r.pair) = false) :=
  ⟨(readyWith []).setReqs [⟨3, 0, false, true, [], 0x0101, pbOfPacket 16, [], [], 9, [1, 1] ++ List.replicate 142 0, 0, 0, 0, 0, [], false, 5, 7, none, none⟩], 0, ⟨3, 0, false, true, [], 0x0101, pbOfPacket 16, [], [], 9, [1, 1] ++ List.replicate 142 0, 0, 0, 0, 0, [], false, 5, 7, none, none⟩, by decide +kernel⟩

theorem witness_CipherRequests_7 : ∃ (s : State) (index : Nat) (r : CphReq), (s.cph.reqs[index]? = some r) ∧ (r.phase = 0) ∧ (s.pairState r.pair = 0) ∧ (s.epHeld (cphEp r.pair) = false) :=
  ⟨(readyWith []).setReqs [⟨3, 31, false, true, [], 0x0101, pbOfPacket 16, [], [], 9, [], 0, 0, 0, 0, [], false, 5, 7, none, none⟩], 0, ⟨3, 31, false, true, [], 0x0101, pbOfPacket 16, [], [], 9, [], 0, 0, 0, 0, [], false, 5, 7, none, none⟩, by decide +kernel⟩

theorem witness_CipherRequests_8 : ∃ (s : State) (index : Nat) (r : CphReq), (s.cph.reqs[index]? = some r) ∧ (r.phase = 1) ∧ (r.pair < 32 ∧ r.queue < 256 ∧ r.slot < 2 ^ 20) ∧ (s.pairState r.pair = 0) ∧ (s.epHeld (cphEp r.pair) = false) :=
  ⟨(readyWith []).setReqs [⟨3, 31, false, true, [], 0x0101, pbOfPacket 16, [], [], 9, [], 0, 1, 0, 0, [], false, 5, 7, none, none⟩], 0, ⟨3, 31, false, true, [], 0x0101, pbOfPacket 16, [], [], 9, [], 0, 1, 0, 0, [], false, 5, 7, none, none⟩, by decide +kernel⟩

theorem witness_CipherRequests_9 : ∃ (s : State) (index : Nat) (r : CphReq), (s.cph.reqs[index]? = some r) ∧ (r.phase = 1) ∧ (r.pair < 32) ∧ (s.pairState r.pair = 0) ∧ (s.epHeld (cphEp r.pair) = false) ∧ (r.retryAt.map Prod.snd ≠ some s.instant) :=
  ⟨(readyWith []).setReqs [⟨3, 31, false, true, [], 0x0101, pbOfPacket 16, [], [], 9, [], 0, 1, 0, 0, [], false, 5, 7, none, none⟩], 0, ⟨3, 31, false, true, [], 0x0101, pbOfPacket 16, [], [], 9, [], 0, 1, 0, 0, [], false, 5, 7, none, none⟩, by decide +kernel⟩

theorem witness_CipherRequests_10 : ∃ (s : State) (index p : Nat) (r : CphReq), (s.cph.reqs[index]? = some r) ∧ (r.retryAt = some (p, s.instant)) ∧ (p < 32) :=
  ⟨(readyWith []).setReqs [⟨3, 31, false, true, header [(CH.operandLow, 7)], 0x0101, pbOfPacket 16, [], [], 9, [], 0, 0, 0, 4, [1, 2], false, 5, 7, none, some (31, 0)⟩], 0, 31, ⟨3, 31, false, true, header [(CH.operandLow, 7)], 0x0101, pbOfPacket 16, [], [], 9, [], 0, 0, 0, 4, [1, 2], false, 5, 7, none, some (31, 0)⟩, by decide +kernel⟩

theorem witness_CipherRequests_11 : ∃ (s : State) (index : Nat) (r : CphReq), (s.cph.reqs[index]? = some r) ∧ (r.phase = 2 ∧ r.pair < 32) ∧ (firstOfQueue s.cph.reqs index r.queue = true) ∧ (s.epHeld (cphEp r.pair) = false) ∧ (r.status = 0) ∧ (r.packet = false) ∧ (opFramed r.op = false) ∧ (pbRef r.par = false) :=
  ⟨(readyWith []).setReqs [⟨3, 31, false, true, header [(CH.operandLow, 7)], 0x0101, pbOfPacket 16, [], [], 9, [], 0, 2, 0, 4, [1, 2], false, 5, 7, none, none⟩], 0, ⟨3, 31, false, true, header [(CH.operandLow, 7)], 0x0101, pbOfPacket 16, [], [], 9, [], 0, 2, 0, 4, [1, 2], false, 5, 7, none, none⟩, by decide +kernel⟩

theorem witness_CipherRequests_12 : ∃ (s : State) (index : Nat) (r : CphReq), (s.cph.reqs[index]? = some r) ∧ (r.phase = 2 ∧ r.pair < 32) ∧ (firstOfQueue s.cph.reqs index r.queue = true) ∧ (s.epHeld (cphEp r.pair) = false) ∧ (r.status = 0) ∧ (r.packet = false) ∧ (opFramed r.op = false) ∧ (pbRef r.par = true) ∧ (tdOwnsRange s.plan (hGet r.words CH.td) (pbDst r.par) r.output.length = true) :=
  ⟨(readyWith hifPlan).setReqs [⟨3, 31, false, true, header [(CH.operandLow, 7)], 0x0101, bytesWith 64 [(20, 2), (25, 1), (41, 3)], [], [], 9, [], 0, 2, 0, 4, [1, 2], false, 5, 7, none, none⟩], 0, ⟨3, 31, false, true, header [(CH.operandLow, 7)], 0x0101, bytesWith 64 [(20, 2), (25, 1), (41, 3)], [], [], 9, [], 0, 2, 0, 4, [1, 2], false, 5, 7, none, none⟩, by decide +kernel⟩

theorem witness_CipherRequests_13 : ∃ (s : State) (index : Nat) (r : CphReq), (s.cph.reqs[index]? = some r) ∧ (r.phase = 2) ∧ (firstOfQueue s.cph.reqs index r.queue = true) ∧ (s.epHeld (cphEp r.pair) = false) ∧ (r.status = 0) ∧ (r.packet = false) ∧ (opFramed r.op = false) ∧ (pbRef r.par = true) ∧ (tdOwnsRange s.plan (hGet r.words CH.td) (pbDst r.par) r.output.length = false) :=
  ⟨(readyWith cphPlan).setReqs [⟨3, 31, false, true, header [(CH.operandLow, 7), (CH.td, 5)], 0x0101, bytesWith 64 [(20, 2), (25, 1), (41, 3)], [], [], 9, [], 0, 2, 0, 4, [1, 2], false, 5, 7, none, none⟩], 0, ⟨3, 31, false, true, header [(CH.operandLow, 7), (CH.td, 5)], 0x0101, bytesWith 64 [(20, 2), (25, 1), (41, 3)], [], [], 9, [], 0, 2, 0, 4, [1, 2], false, 5, 7, none, none⟩, by decide +kernel⟩

theorem witness_CipherRequests_14 : ∃ (s : State) (index : Nat) (r : CphReq), (s.cph.reqs[index]? = some r) ∧ (r.phase = 2 ∧ r.pair < 32) ∧ (firstOfQueue s.cph.reqs index r.queue = true) ∧ (s.epHeld (cphEp r.pair) = false) ∧ (r.status = 0) ∧ (r.packet = true) ∧ (opFramed r.op = false) :=
  ⟨(readyWith []).setReqs [⟨3, 31, true, true, header [(CH.operandLow, 7)], 0x0101, pbOfPacket 16, [9], [], 9, [], 0, 2, 0, 4, [1, 2], false, 5, 7, none, none⟩], 0, ⟨3, 31, true, true, header [(CH.operandLow, 7)], 0x0101, pbOfPacket 16, [9], [], 9, [], 0, 2, 0, 4, [1, 2], false, 5, 7, none, none⟩, by decide +kernel⟩

theorem witness_CipherRequests_15 : ∃ (s : State) (index : Nat) (r : CphReq), (s.cph.reqs[index]? = some r) ∧ (r.phase = 2) ∧ (firstOfQueue s.cph.reqs index r.queue = true) ∧ (s.epHeld (cphEp r.pair) = false) ∧ (r.status ≠ 0) ∧ (r.packet = false) :=
  ⟨(readyWith []).setReqs [⟨3, 31, false, true, header [(CH.operandLow, 7)], 0x0101, pbOfPacket 16, [], [], 9, [], 0, 2, 8, 4, [1, 2], false, 5, 7, none, none⟩], 0, ⟨3, 31, false, true, header [(CH.operandLow, 7)], 0x0101, pbOfPacket 16, [], [], 9, [], 0, 2, 8, 4, [1, 2], false, 5, 7, none, none⟩, by decide +kernel⟩

theorem witness_CipherRequests_16 : ∃ (s : State) (index : Nat) (r : CphReq), (s.cph.reqs[index]? = some r) ∧ (r.phase = 2) ∧ (firstOfQueue s.cph.reqs index r.queue = true) ∧ (s.epHeld (cphEp r.pair) = false) ∧ (r.status ≠ 0) ∧ (r.packet = true) :=
  ⟨(readyWith []).setReqs [⟨3, 31, true, true, header [(CH.operandLow, 7)], 0x0101, pbOfPacket 16, [], [], 9, [], 0, 2, 8, 4, [1, 2], false, 5, 7, none, none⟩], 0, ⟨3, 31, true, true, header [(CH.operandLow, 7)], 0x0101, pbOfPacket 16, [], [], 9, [], 0, 2, 8, 4, [1, 2], false, 5, 7, none, none⟩, by decide +kernel⟩

theorem witness_CipherRequests_17 : ∃ (s : State) (index : Nat) (r : CphReq), (s.cph.reqs[index]? = some r) ∧ (r.phase = 2) ∧ (firstOfQueue s.cph.reqs index r.queue = true) ∧ (s.epHeld (cphEp r.pair) = false) ∧ (r.status = 0) ∧ (r.packet = false) ∧ (opFramed r.op = true ∧ opInbound r.op = true) ∧ (r.old = none) ∧ (s.slotBad r.slot = false) ∧ (seqSeen (s.slotRecord r.slot) r.seq = true) :=
  ⟨((readyWith []).setReqs [⟨3, 31, false, true, header [(CH.operandLow, 7)], 0x0202, pbOfPacket 16, [], [], 9, [], 0, 2, 0, 4, [1, 2], false, 5, 7, none, none⟩]).setKeyWays 9 [⟨9, krSetWindow (krSetSeq krEmpty 0) 1, true, false⟩], 0, ⟨3, 31, false, true, header [(CH.operandLow, 7)], 0x0202, pbOfPacket 16, [], [], 9, [], 0, 2, 0, 4, [1, 2], false, 5, 7, none, none⟩, by decide +kernel⟩

/-- States and operands that meet the hypotheses of each clause of `CipherPairsAndKeys`. -/
theorem witness_CipherPairsAndKeys_1 : ∃ (s : State) (pair : Nat), (pair < 32) ∧ (s.pairState pair = 0) :=
  ⟨State.reset, 31, by decide +kernel⟩

theorem witness_CipherPairsAndKeys_2 : ∃ (s : State) (pair : Nat), (pair < 32) ∧ (s.pairState pair ≠ 0) ∧ (s.cph.mmQuar ≠ some (pair, s.instant)) :=
  ⟨State.reset.set (F.CPH_PAIR_STATE_STATE 31) 1, 31, by decide +kernel⟩

theorem witness_CipherPairsAndKeys_3 : ∃ (s : State) (pair : Nat), (s.pairState pair ≠ 0) ∧ (s.cph.mmQuar = some (pair, s.instant)) :=
  ⟨(State.reset.set (F.CPH_PAIR_STATE_STATE 31) 1).withCph { State.reset.cph with mmQuar := some (31, 0) }, 31, by decide +kernel⟩

theorem witness_CipherPairsAndKeys_4 : ∃ (s : State) (pair : Nat), (s.pairState pair = 1) ∧ ((s.tile (cphTile pair)).retired = false) :=
  ⟨State.reset.set (F.CPH_PAIR_STATE_STATE 31) 1, 31, by decide +kernel⟩

theorem witness_CipherPairsAndKeys_5 : ∃ (s : State) (pair : Nat), (s.pairState pair = 2) ∧ (s.epHeld (cphEp pair) = false) :=
  ⟨State.reset.set (F.CPH_PAIR_STATE_STATE 31) 2, 31, by decide +kernel⟩

theorem witness_CipherPairsAndKeys_6 : ∃ (s : State) (pair : Nat), (pair < 32) ∧ (s.pairState pair = 2) ∧ (s.epHeld (cphEp pair) = false) :=
  ⟨State.reset.set (F.CPH_PAIR_STATE_STATE 31) 2, 31, by decide +kernel⟩

theorem witness_CipherPairsAndKeys_7 : ∃ (s : State) (pair : Nat), (pair < 32) ∧ (s.pairState pair = 1) ∧ (s.get (F.CPH_PAIR_STATE_TEST_PASS pair) = 1) :=
  ⟨(State.reset.set (F.CPH_PAIR_STATE_STATE 31) 1).set (F.CPH_PAIR_STATE_TEST_PASS 31) 1, 31, by decide +kernel⟩

theorem witness_CipherPairsAndKeys_8 : ∃ (s : State) (queue : Nat), (queue < 256) ∧ (s.epHeld (cphEp (cphQPair s.plan queue)) = false) ∧ (s.get (F.CPH_Q_STATE_ON_ALT queue) = 1) ∧ (s.pairState (cphQPair s.plan queue) = 0) ∧ (((s.cph.reqs.any fun (r : CphReq) => r.queue == queue && r.pair == cphQAlt s.plan queue) = false)) ∧ ((((s.inboxOf (cphEp (cphQAlt s.plan queue))).any (fun (m : Packet) => hGet m.words CH.dstQueue == queue)) = false)) :=
  ⟨State.reset.set (F.CPH_Q_STATE_ON_ALT 255) 1, 255, by decide +kernel⟩

theorem witness_CipherPairsAndKeys_9 : ∃ (s : State), (s.keyOpWaits 1 = true) ∧ (s.slotReadable s.keySlotSel = true) ∧ (s.pinTooMany s.keySlotSel (s.get F.CPH_KEY_OP_STG_PIN) = false) ∧ (1 ≤ bitsAt (s.rd R.CPH_KEY_ATTR_STG) 18 16 ∧ bitsAt (s.rd R.CPH_KEY_ATTR_STG) 10 8 ≤ 4) ∧ (bitsAt (s.rd R.CPH_KEY_ATTR_STG) 25 24 = 0) ∧ (((s.cph.data.getD 13 0) = 0 ∧ (s.cph.data.getD 14 0) = 0 ∧ (s.cph.data.getD 15 0) = 0)) ∧ (s.get F.CPH_KEY_OP_STG_PIN = 1) :=
  ⟨(((readyWith []).sets [(F.CPH_KEY_COMMIT_PENDING, 1), (F.CPH_KEY_OP_STG_OP, 1), (F.CPH_KEY_OP_STG_PIN, 1)]).wr R.CPH_KEY_ATTR_STG 0x10000), by decide +kernel⟩

theorem witness_CipherPairsAndKeys_10 : ∃ (s : State) (hostBytes : List Byte) (x : SrcRead), (s.keyOpWaits 2 = true) ∧ (s.get F.CPH_KEY_OP_STG_SRC = 1) ∧ (s.dmaWaits 0 = false) ∧ ((spGet (fun _ => ([] : List Byte)) s.cph.twks s.keyTdSel = [])) :=
  ⟨State.reset.sets [(F.CPH_KEY_COMMIT_PENDING, 1), (F.CPH_KEY_OP_STG_OP, 2), (F.CPH_KEY_OP_STG_SRC, 1)], [], cleanRead, by decide +kernel⟩

theorem witness_CipherPairsAndKeys_11 : ∃ (s : State) (hostBytes : List Byte) (ecc : EccResult) (r : List Byte), (s.keyOpWaits 2 = true) ∧ (s.get F.CPH_KEY_OP_STG_SRC = 1) ∧ (s.dmaOpen 0 = true) ∧ (s.isOpen = false) ∧ (s.get F.WKT_LIFECYCLE_ERASING = 0) ∧ (s.slotReadable s.keySlotSel = true) ∧ ((spGet (fun _ => ([] : List Byte)) s.cph.twks s.keyTdSel ≠ [])) ∧ (s.keyBlobOk (bytesAt hostBytes 0 256) = true) ∧ (s.pinTooMany s.keySlotSel (s.get F.CPH_KEY_OP_STG_PIN) = false) ∧ (krState (s.slotRecord s.keySlotSel) = 0) :=
  ⟨(((((readyWith []).set F.MEM_IOMMU_DDTP_MODE 1).setCfg 0 4 4).sets [(F.CPH_KEY_COMMIT_PENDING, 1), (F.CPH_KEY_OP_STG_OP, 2), (F.CPH_KEY_OP_STG_SRC, 1)]).setTwk 0 [1]), ascii "OWKBLB01" ++ natLE 8 1 ++ List.replicate 16 0 ++ natLE 8 1 ++ List.replicate 216 0, .clean, [], by decide +kernel⟩

theorem witness_CipherPairsAndKeys_12 : ∃ (s : State), (s.keyOpWaits 3 = true) ∧ (s.slotReadable s.keySlotSel = true) :=
  ⟨(readyWith []).sets [(F.CPH_KEY_COMMIT_PENDING, 1), (F.CPH_KEY_OP_STG_OP, 3), (F.CPH_KEY_SEL_STG_SLOT, 9)], by decide +kernel⟩

theorem witness_CipherPairsAndKeys_13 : ∃ (s : State), (s.keyOpWaits 3 = true) ∧ (s.slotReadable s.keySlotSel = false) :=
  ⟨((readyWith cphPlan).sets [(F.CPH_KEY_COMMIT_PENDING, 1), (F.CPH_KEY_OP_STG_OP, 3), (F.CPH_KEY_SEL_STG_SLOT, 9)]).withPoison [(1440, true)], by decide +kernel⟩

theorem witness_CipherPairsAndKeys_14 : ∃ (s : State) (w : KeyWay), (s.keyOpWaits 4 = true) ∧ (s.cachedSlot s.keySlotSel = some w) ∧ (krState w.record = 1) ∧ (w.record.length = 144) :=
  ⟨((readyWith []).sets [(F.CPH_KEY_COMMIT_PENDING, 1), (F.CPH_KEY_OP_STG_OP, 4), (F.CPH_KEY_SEL_STG_SLOT, 9)]).setKeyWays 9 [⟨9, [1, 1] ++ List.replicate 142 0, false, false⟩], ⟨9, [1, 1] ++ List.replicate 142 0, false, false⟩, by decide +kernel⟩

theorem witness_CipherPairsAndKeys_15 : ∃ (s : State), (s.keyOpWaits 7 = true) ∧ (s.get F.CPH_KEY_OP_STG_PIN = 0) ∧ (s.slotReadable s.keySlotSel = true) :=
  ⟨State.reset.sets [(F.CPH_KEY_COMMIT_PENDING, 1), (F.CPH_KEY_OP_STG_OP, 7)], by decide +kernel⟩

theorem witness_CipherPairsAndKeys_16 : ∃ (s : State), (s.keyOpWaits 7 = true) ∧ (s.get F.CPH_KEY_OP_STG_PIN = 1) ∧ (s.pinned s.keySlotSel = false) ∧ (s.slotReadable s.keySlotSel = true) ∧ (12 ≤ s.pinsOfSet (s.keySlotSel % 1024)) :=
  ⟨(State.reset.sets [(F.CPH_KEY_COMMIT_PENDING, 1), (F.CPH_KEY_OP_STG_OP, 7), (F.CPH_KEY_OP_STG_PIN, 1)]).withCph { State.reset.cph with pins := (List.range 12).map fun i => (1024 * (i + 1), true) }, by decide +kernel⟩

theorem witness_CipherPairsAndKeys_17 : ∃ (s : State), (s.keyOpWaits 7 = true) ∧ (s.get F.CPH_KEY_OP_STG_PIN = 1) ∧ (s.slotReadable s.keySlotSel = true) ∧ (krState (s.slotRecord s.keySlotSel) ≠ 1) :=
  ⟨State.reset.sets [(F.CPH_KEY_COMMIT_PENDING, 1), (F.CPH_KEY_OP_STG_OP, 7), (F.CPH_KEY_OP_STG_PIN, 1)], by decide +kernel⟩

theorem witness_CipherPairsAndKeys_18 : ∃ (s : State), (s.keyOpWaits 7 = true) ∧ (s.get F.CPH_KEY_OP_STG_PIN = 1) ∧ (s.slotReadable s.keySlotSel = true) ∧ (krState (s.slotRecord s.keySlotSel) = 1) ∧ (s.pinTooMany s.keySlotSel 1 = false) :=
  ⟨((readyWith []).sets [(F.CPH_KEY_COMMIT_PENDING, 1), (F.CPH_KEY_OP_STG_OP, 7), (F.CPH_KEY_OP_STG_PIN, 1), (F.CPH_KEY_SEL_STG_SLOT, 9)]).setKeyWays 9 [⟨9, [1, 1] ++ List.replicate 142 0, false, false⟩], by decide +kernel⟩

theorem witness_CipherPairsAndKeys_19 : ∃ (s : State) (hostBytes : List Byte) (ecc : EccResult) (k : List Byte), (s.keyOpWaits 5 = true) ∧ (s.get F.CPH_KEY_OP_STG_SRC = 1) ∧ (s.dmaOpen 0 = true) ∧ (s.isOpen = false) ∧ (s.get F.WKT_LIFECYCLE_ERASING = 0) :=
  ⟨(((readyWith []).set F.MEM_IOMMU_DDTP_MODE 1).setCfg 0 4 4).sets [(F.CPH_KEY_COMMIT_PENDING, 1), (F.CPH_KEY_OP_STG_OP, 5), (F.CPH_KEY_OP_STG_SRC, 1)], [], .clean, [], by decide +kernel⟩

theorem witness_CipherPairsAndKeys_20 : ∃ (s : State), (s.keyOpWaits 6 = true) :=
  ⟨(State.reset.sets [(F.CPH_KEY_COMMIT_PENDING, 1), (F.CPH_KEY_OP_STG_OP, 6)]).setTwk 0 [1], by decide +kernel⟩

theorem witness_CipherPairsAndKeys_21 : ∃ (s : State), (s.cph.done = some 0) ∧ (s.cphHeld = false) :=
  ⟨State.reset.withCph { State.reset.cph with done := some 0 }, by decide +kernel⟩

theorem witness_CipherPairsAndKeys_22 : ∃ (s : State), (s.cph.done = some 0x150A) ∧ (s.cphHeld = false) :=
  ⟨State.reset.withCph { State.reset.cph with done := some 0x150A }, by decide +kernel⟩

/-- States and operands that meet the hypotheses of each clause of `SendQueueRequests`. -/
theorem witness_SendQueueRequests_1 : ∃ (s : State) (qp : Nat) (h : TeHost), (s.sendReady qp 1 h = true) ∧ (s.qc qp QC.type = 0) ∧ (s.isMp qp = false) ∧ (wqeInline h.wqe = true) ∧ (leAt h.wqe 48 4 ≤ 256 ∧ leAt h.wqe 48 4 ≤ pmtuBytes (s.qc qp QC.pmtu)) ∧ (0 < s.teWindow qp) :=
  ⟨(teQpState), 5, teWqe 1 8 [(16, 7), (28, 8), (48, 2), (64, 11), (65, 12)], by decide +kernel⟩

theorem witness_SendQueueRequests_2 : ∃ (s : State) (qp : Nat) (h : TeHost), (s.sendReady qp 2 h = true) ∧ (s.qc qp QC.type = 0) ∧ (s.isMp qp = false) ∧ (wqeInline h.wqe = true) ∧ (leAt h.wqe 48 4 ≤ 256 ∧ leAt h.wqe 48 4 ≤ pmtuBytes (s.qc qp QC.pmtu)) ∧ (0 < s.teWindow qp) :=
  ⟨(teQpState), 5, teWqe 2 8 [(16, 7), (28, 8), (48, 2), (64, 11), (65, 12)], by decide +kernel⟩

theorem witness_SendQueueRequests_3 : ∃ (s : State) (qp : Nat) (h : TeHost), (s.sendReady qp 3 h = true) ∧ (s.qc qp QC.type = 0) ∧ (s.isMp qp = false) ∧ (wqeInline h.wqe = true) ∧ (leAt h.wqe 48 4 ≤ 256 ∧ leAt h.wqe 48 4 ≤ pmtuBytes (s.qc qp QC.pmtu)) ∧ (0 < s.teWindow qp) :=
  ⟨(teQpState), 5, teWqe 3 8 [(16, 7), (28, 8), (48, 2), (64, 11), (65, 12)], by decide +kernel⟩

theorem witness_SendQueueRequests_4 : ∃ (s : State) (qp : Nat) (h : TeHost), (s.sendReady qp 4 h = true) ∧ (s.qc qp QC.type = 0) ∧ (s.isMp qp = false) ∧ (wqeInline h.wqe = true) ∧ (leAt h.wqe 48 4 ≤ 256 ∧ leAt h.wqe 48 4 ≤ pmtuBytes (s.qc qp QC.pmtu)) ∧ (0 < s.teWindow qp) :=
  ⟨(teQpState), 5, teWqe 4 8 [(16, 7), (28, 8), (48, 2), (64, 11), (65, 12)], by decide +kernel⟩

theorem witness_SendQueueRequests_5 : ∃ (s : State) (qp : Nat) (h : TeHost), (s.sendReady qp 5 h = true) ∧ (s.qc qp QC.type = 0) ∧ (s.isMp qp = false) ∧ (wqeInline h.wqe = true) ∧ (leAt h.wqe 48 4 ≤ 256 ∧ leAt h.wqe 48 4 ≤ pmtuBytes (s.qc qp QC.pmtu)) ∧ (0 < s.teWindow qp) :=
  ⟨(teQpState), 5, teWqe 5 8 [(16, 7), (28, 8), (48, 2), (64, 11), (65, 12)], by decide +kernel⟩

theorem witness_SendQueueRequests_6 : ∃ (s : State) (qp : Nat) (h : TeHost), (s.sendReady qp 6 h = true) ∧ (s.qc qp QC.type = 0) ∧ (s.isMp qp = false) ∧ ((packetsOf (wqeWord h.wqe 3 % 2 ^ 32) (pmtuBytes (s.qc qp QC.pmtu))) ≤ s.teWindow qp) ∧ ((wqeWord h.wqe 3 % 2 ^ 32) ≤ 2 ^ 31 ∧ (wqeWord h.wqe 3 % 2 ^ 32) ≤ sgeBytes (wqeSges h.wqe 0)) ∧ (s.teSgesOk qp (wqeSges h.wqe 0) acLocalWrite = true) :=
  ⟨(teQpState).putBytes (unitByteAddr tePlan uTe (mrBase 1)) (natLE 8 (2 ^ 63 + 256) ++ natLE 16 0 ++ natLE 8 4096), 5, teWqe 6 0 [(16, 7), (24, 8), (28, 9), (48, 8), (53, 1), (56, 16)], by decide +kernel⟩

theorem witness_SendQueueRequests_7 : ∃ (s : State) (qp : Nat) (h : TeHost), (s.sendReady qp 7 h = true) ∧ (s.qc qp QC.type = 0) ∧ (s.isMp qp = false) ∧ (1 ≤ s.teWindow qp) ∧ (8 ≤ 2 ^ 31 ∧ 8 ≤ sgeBytes (wqeSges h.wqe 0)) ∧ (s.teSgesOk qp (wqeSges h.wqe 0) acLocalWrite = true) :=
  ⟨(teQpState).putBytes (unitByteAddr tePlan uTe (mrBase 1)) (natLE 8 (2 ^ 63 + 256) ++ natLE 16 0 ++ natLE 8 4096), 5, teWqe 7 0 [(16, 7), (24, 8), (28, 9), (48, 8), (53, 1), (56, 16)], by decide +kernel⟩

theorem witness_SendQueueRequests_8 : ∃ (s : State) (qp : Nat) (h : TeHost), (s.sendReady qp 8 h = true) ∧ (s.qc qp QC.type = 0) ∧ (s.isMp qp = false) ∧ (1 ≤ s.teWindow qp) ∧ (8 ≤ 2 ^ 31 ∧ 8 ≤ sgeBytes (wqeSges h.wqe 0)) ∧ (s.teSgesOk qp (wqeSges h.wqe 0) acLocalWrite = true) :=
  ⟨(teQpState).putBytes (unitByteAddr tePlan uTe (mrBase 1)) (natLE 8 (2 ^ 63 + 256) ++ natLE 16 0 ++ natLE 8 4096), 5, teWqe 8 0 [(16, 7), (24, 8), (28, 9), (48, 8), (53, 1), (56, 16)], by decide +kernel⟩

theorem witness_SendQueueRequests_9 : ∃ (s : State) (qp i gen : Nat) (h : TeHost), (s.sendReady qp 0x10 h = true) ∧ (wqeWord h.wqe 0 % 2 ^ 32 = i * 256 + gen ∧ gen < 256) ∧ (s.mr i MR.valid = 1 ∧ s.mr i MR.gen = gen ∧ s.mr i MR.td = s.qc qp QC.td ∧ s.mr i MR.pd = s.qc qp QC.pd) :=
  ⟨(teQpState).putBytes (unitByteAddr tePlan uTe (mrBase 1)) (natLE 8 (2 ^ 63)), 5, 1, 0, teWqe 0x10 0 [(1, 1)], by decide +kernel⟩

theorem witness_SendQueueRequests_10 : ∃ (s : State) (qp i p a : Nat) (h : TeHost), (s.sendReady qp 0x11 h = true) ∧ (s.qc qp QC.type = 0) ∧ (wqeFlags h.wqe % 2 = 0) ∧ (wqeWord h.wqe 4 % 2 ^ 32 / 256 = i ∧ wqeWord h.wqe 6 / 2 ^ 32 / 256 = p) ∧ (spGet noBool s.te.windows i = true ∧ s.mr i MR.kind = 1 ∧ s.mr i MR.gen = wqeWord h.wqe 4 % 2 ^ 32 % 256 ∧ s.mr i MR.td = s.qc qp QC.td ∧ s.mr i MR.pd = s.qc qp QC.pd) ∧ (s.mr p MR.kind = 0 ∧ s.mr p MR.access &&& acBind = acBind ∧ s.mr p MR.access &&& leAt h.wqe 40 1 = leAt h.wqe 40 1) ∧ (s.teKey qp (wqeWord h.wqe 6 / 2 ^ 32) (wqeWord h.wqe 2) (wqeWord h.wqe 3) 0 false = some a) ∧ (s.invalidating i = false ∧ s.invalidating p = false) :=
  ⟨(teQpState).putBytes (unitByteAddr tePlan uTe (mrBase 1)) (natLE 8 (2 ^ 63 + 256 * 18) ++ natLE 16 0 ++ natLE 8 4096 ++ natLE 32 0 ++ natLE 8 (2 ^ 60)) |>.withTe { (teQpState).te with windows := [(2, true)] }, 5, 2, 1, 16, teWqe 0x11 0 [(16, 16), (24, 32), (33, 2), (40, 2), (53, 1)], by decide +kernel⟩

theorem witness_SendQueueRequests_11 : ∃ (s : State) (qp cq : Nat) (h : TeHost), (s.sendReady qp 0x20 h = true) ∧ (wqeFlags h.wqe % 2 = 0) ∧ (wqeWord h.wqe 2 / 2 ^ 40 = cq) ∧ (s.cqUsed cq = true ∧ (s.teCq cq).fn = s.qc qp QC.fn) ∧ ((s.cqF cq CQ.count + 2 ^ 32 - wqeWord h.wqe 2 % 2 ^ 32) % 2 ^ 32 < 2 ^ 31) :=
  ⟨(teQpState).withTe { (teQpState).te with cqUsed := [(3, true)] }, 5, 3, teWqe 0x20 0 [(21, 3)], by decide +kernel⟩

theorem witness_SendQueueRequests_12 : ∃ (s : State) (qp cq : Nat) (h : TeHost), (s.sendReady qp 0x20 h = true) ∧ (wqeWord h.wqe 2 / 2 ^ 40 = cq) ∧ (s.cqUsed cq = true ∧ (s.teCq cq).fn = s.qc qp QC.fn) ∧ (2 ^ 31 ≤ (s.cqF cq CQ.count + 2 ^ 32 - wqeWord h.wqe 2 % 2 ^ 32) % 2 ^ 32) :=
  ⟨(teQpState).withTe { (teQpState).te with cqUsed := [(3, true)] }, 5, 3, teWqe 0x20 0 [(16, 1), (21, 3)], by decide +kernel⟩

theorem witness_SendQueueRequests_13 : ∃ (s : State) (qp : Nat) (h : TeHost), (s.sendReady qp 0x21 h = true) ∧ (wqeFlags h.wqe % 2 = 0) :=
  ⟨(teQpState), 5, teWqe 0x21 0 [], by decide +kernel⟩

/-- States and operands that meet the hypotheses of each clause of `ArrivalsTimersAndPosts`. -/
theorem witness_ArrivalsTimersAndPosts_1 : ∃ (s : State) (e c : Nat) (h : TeHost) (m : Packet) (rest : List Packet) (r : RoceIn) (a : Nat) (data : List Byte), (s.teRuns e = true) ∧ (s.inboxOf (teEp e) = m :: rest) ∧ (hGet m.words CH.kind = kPacket) ∧ (teCtxEngine s.plan (hGet m.words CH.ctx) = some e) ∧ (parseRoce m.payload = some r) ∧ (h.ctxUe = false ∧ h.mrUe = false ∧ h.uc = .ok) ∧ (hGet m.words CH.ctx = c ∧ c < 2 ^ 22) ∧ (s.qpUsed c = true ∧ s.qc c QC.state = 3 ∧ s.qc c QC.type = 0 ∧ s.isMp c = false) ∧ (r.good = true ∧ m.poison = false ∧ hGet m.words CH.poison = 0 ∧ r.qpn = s.qc c QC.localQpn ∧ r.dst = s.srcIp c ∧ r.pkey = s.qc c QC.pkey) ∧ (s.qc c QC.srqEn = 0 ∧ r.ce = false ∧ s.te.failing = []) ∧ (s.seqFull e = false ∧ s.dmaWaits (s.qc c QC.fn) = false ∧ s.teQuiet = true ∧ r.ver = 0) ∧ (((s.teQp c).tx.all fun (x : TeTx) => x.rdv.isNone) = true) ∧ (r.op = 10 ∧ r.ack = false) ∧ (r.psn = s.qc c QC.epsn) ∧ ((s.teQp c).rx = []) ∧ (data = r.body.drop 16 ∧ data ≠ [] ∧ data.length ≤ pmtuBytes (s.qc c QC.pmtu) ∧ data.length = beAt r.body 12 4) ∧ (s.teKey c (beAt r.body 8 4) (beAt r.body 0 8) data.length acRemoteWrite false = some a) ∧ (s.mr (beAt r.body 8 4 / 256) MR.loc = 0 ∧ s.mr (beAt r.body 8 4 / 256) MR.pasidEn = 0 ∧ s.dmaOpen (s.mr (beAt r.body 8 4 / 256) MR.fn) = true) :=
  ⟨(((teQpState)).setInbox 0x40 [⟨header [(CH.kind, kPacket), (CH.ctx, 5)], (let udp := roceUdp (ipHeader 0 0 0 0 17) 0 (bth 10 false 0 0xFFFF 5 false 0 ++ reth 16 256 4 ++ [1, 2, 3, 4]); ethHeader 1 2 0 ++ ipHeader 0 0 0 0 17 udp.length ++ udp), false⟩]).putBytes (unitByteAddr tePlan uTe (mrBase 1)) (natLE 8 (2 ^ 63 + 4 * 256) ++ natLE 16 0 ++ natLE 8 4096), 0, 5, noHost, ⟨header [(CH.kind, kPacket), (CH.ctx, 5)], (let udp := roceUdp (ipHeader 0 0 0 0 17) 0 (bth 10 false 0 0xFFFF 5 false 0 ++ reth 16 256 4 ++ [1, 2, 3, 4]); ethHeader 1 2 0 ++ ipHeader 0 0 0 0 17 udp.length ++ udp), false⟩, [], ⟨true, 0, 0, false, 10, 5, 0, 0xFFFF, false, false, reth 16 256 4 ++ [1, 2, 3, 4], bytesAt (ipHeader 0 0 0 0 17 44) 0 40⟩, 16, [1, 2, 3, 4], by decide +kernel⟩

theorem witness_ArrivalsTimersAndPosts_2 : ∃ (s : State) (e c : Nat) (h : TeHost) (m : Packet) (rest : List Packet) (r : RoceIn) (x : TeTx) (k : TePkt), (s.teRuns e = true) ∧ (s.inboxOf (teEp e) = m :: rest) ∧ (hGet m.words CH.kind = kPacket) ∧ (teCtxEngine s.plan (hGet m.words CH.ctx) = some e) ∧ (parseRoce m.payload = some r) ∧ (h.ctxUe = false ∧ h.mrUe = false ∧ h.uc = .ok) ∧ (hGet m.words CH.ctx = c ∧ c < 2 ^ 22) ∧ (s.qpUsed c = true ∧ s.qc c QC.state = 3 ∧ s.qc c QC.type = 0 ∧ s.isMp c = false) ∧ (r.good = true ∧ m.poison = false ∧ hGet m.words CH.poison = 0 ∧ r.qpn = s.qc c QC.localQpn ∧ r.dst = s.srcIp c ∧ r.pkey = s.qc c QC.pkey) ∧ (s.qc c QC.srqEn = 0 ∧ r.ce = false ∧ s.te.failing = []) ∧ (s.seqFull e = false ∧ s.dmaWaits (s.qc c QC.fn) = false ∧ s.teQuiet = true ∧ r.ver = 0) ∧ (r.op = 17 ∧ r.body.length = 4 ∧ beAt r.body 0 1 / 32 = 0) ∧ ((s.teQp c).tx = [x] ∧ (s.teQp c).pkts = [k] ∧ k.owner = some x.id) ∧ (x.op ≤ 5 ∧ x.n = 1 ∧ x.sent = 1 ∧ x.flags % 2 = 0 ∧ x.status = none ∧ x.rdv = none) ∧ (k.psn = s.qc c QC.unaPsn ∧ r.psn = k.psn ∧ s.qc c QC.nextPsn = psnAdd k.psn 1) :=
  ⟨((((teQpState)).setInbox 0x40 [⟨header [(CH.kind, kPacket), (CH.ctx, 5)], (let udp := roceUdp (ipHeader 0 0 0 0 17) 0 (bth 17 false 0 0xFFFF 5 false 0 ++ aeth 0x1F 1); ethHeader 1 2 0 ++ ipHeader 0 0 0 0 17 udp.length ++ udp), false⟩]).setQc 5 QC.nextPsn 1).setTeQp 5 { teQpReset 5 with tx := [⟨0, 0, 1, 1, 0, 0, 0, 1, 2, 1, [], 0, 0, 0, 0, 0, none, none⟩], pkts := [⟨0, 4, [], [1, 2], true, false, 0, some 0⟩] }, 0, 5, noHost, ⟨header [(CH.kind, kPacket), (CH.ctx, 5)], (let udp := roceUdp (ipHeader 0 0 0 0 17) 0 (bth 17 false 0 0xFFFF 5 false 0 ++ aeth 0x1F 1); ethHeader 1 2 0 ++ ipHeader 0 0 0 0 17 udp.length ++ udp), false⟩, [], ⟨true, 0, 0, false, 17, 5, 0, 0xFFFF, false, false, aeth 0x1F 1, bytesAt (ipHeader 0 0 0 0 17 28) 0 40⟩, ⟨0, 0, 1, 1, 0, 0, 0, 1, 2, 1, [], 0, 0, 0, 0, 0, none, none⟩, ⟨0, 4, [], [1, 2], true, false, 0, some 0⟩, by decide +kernel⟩

theorem witness_ArrivalsTimersAndPosts_3 : ∃ (s : State) (qp : Nat) (k : TePkt), (s.teExpires qp = true) ∧ (s.qc qp QC.timeout ≠ 0 ∧ s.qc qp QC.retryLeft ≠ 0) ∧ ((s.teQp qp).pkts = [k] ∧ (s.teQp qp).rnr = false) ∧ (s.isMp qp = false ∧ k.op % 32 ≠ 12) :=
  ⟨(((teQpState).setQc 5 QC.timeout 31).setQc 5 QC.retryLeft 7).setTeQp 5 { teQpReset 5 with tx := [⟨0, 0, 1, 1, 0, 0, 0, 1, 2, 1, [], 0, 0, 0, 0, 0, none, none⟩], pkts := [⟨0, 4, [], [1, 2], true, false, 0, some 0⟩] }, 5, ⟨0, 4, [], [1, 2], true, false, 0, some 0⟩, by decide +kernel⟩

theorem witness_ArrivalsTimersAndPosts_4 : ∃ (s : State) (qp : Nat) (k : TePkt), (s.teExpires qp = true) ∧ ((s.teQp qp).pkts = [k] ∧ (s.teQp qp).rnr = true) ∧ (s.isMp qp = false ∧ k.op % 32 ≠ 12) :=
  ⟨(teQpState).setTeQp 5 { ({ teQpReset 5 with tx := [⟨0, 0, 1, 1, 0, 0, 0, 1, 2, 1, [], 0, 0, 0, 0, 0, none, none⟩], pkts := [⟨0, 4, [], [1, 2], true, false, 0, some 0⟩] }) with rnr := true }, 5, ⟨0, 4, [], [1, 2], true, false, 0, some 0⟩, by decide +kernel⟩

theorem witness_ArrivalsTimersAndPosts_5 : ∃ (s : State) (qp : Nat), (s.qpUsed qp = true ∧ s.isMp qp = true ∧ s.teRuns (s.qpEngine qp) = true) ∧ ((s.teQp qp).seen ≠ []) ∧ (2 ≤ s.qc qp QC.state ∧ s.qc qp QC.state ≤ 5) ∧ (s.seqFull (s.qpEngine qp) = false) :=
  ⟨((teQpState).setQc 5 QC.delivery 1).setTeQp 5 { teQpReset 5 with seen := [2] }, 5, by decide +kernel⟩

theorem witness_ArrivalsTimersAndPosts_6 : ∃ (s : State) (qp cur tgt : Nat), (s.teExpires qp = true) ∧ (bitAt (s.teProfile qp).2.1 63 = true) ∧ ((s.teQp qp).stage = 5 ∧ cur = s.qc qp QC.rateCur ∧ tgt = min (s.lineMbps qp) (s.qc qp QC.rateTgt + bitsAt (s.teProfile qp).1 31 0)) ∧ (s.lineMbps qp < 2 ^ 32) :=
  ⟨((teQpState).setQc 5 QC.rateCur 900).setTeQp 5 { teQpReset 5 with stage := 5 }, 5, 900, 400, by decide +kernel⟩

theorem witness_ArrivalsTimersAndPosts_7 : ∃ (s : State) (srq : Nat) (h : TeHost) (b : List Byte), (b = bytesAt h.wqe 0 64 ∧ leAt b 15 1 = 1 ∧ h.we = .ok) ∧ (s.srqUsed srq = true ∧ s.srqF srq SR.tmEn = 1 ∧ (s.teSrq srq).pi ≠ (s.teSrq srq).ci) ∧ (s.teFnRuns (s.teSrq srq).fn = true ∧ s.dmaOpen (s.teSrq srq).fn = true ∧ s.te.failing = [] ∧ s.teQuiet = true) ∧ ((((s.teSrq srq).unexp.any fun (u : TeUnexp) => u.claim.isNone && (leAt b 16 8 ^^^ u.tag) &&& leAt b 24 8 == 0) = false)) ∧ ((s.teSrq srq).posted.length < s.srqF srq SR.postedMax) ∧ (((spKeys s.te.used).any fun c => s.qc c QC.srqEn == 1 && s.qc c QC.srq == srq && s.isMp c && s.teReceives c) = false) :=
  ⟨((teState.putBytes (unitByteAddr tePlan uTe (srqBase 2)) (natLE 8 (2 ^ 59) ++ natLE 8 0 ++ natLE 8 (2 ^ 62 + 3 * 2 ^ 24) ++ natLE 8 65536)).setSrqUsed 2 true).setTeSrq 2 { teSrqReset 2 with pi := 1 }, 2, { noHost with wqe := bytesWith 64 [(15, 1), (16, 9)] }, bytesWith 64 [(15, 1), (16, 9)], by decide +kernel⟩

theorem witness_ArrivalsTimersAndPosts_8 : ∃ (s : State) (srq cq : Nat) (h : TeHost) (b : List Byte) (x : TeRecv × Nat), (b = bytesAt h.wqe 0 64 ∧ leAt b 15 1 = 2 ∧ h.we = .ok) ∧ (s.srqUsed srq = true ∧ s.srqF srq SR.tmEn = 1 ∧ (s.teSrq srq).pi ≠ (s.teSrq srq).ci) ∧ (s.teFnRuns (s.teSrq srq).fn = true ∧ s.dmaOpen (s.teSrq srq).fn = true ∧ s.te.failing = [] ∧ s.teQuiet = true) ∧ (((spKeys s.te.used).all fun c => decide (c < 2 ^ 22)) = true) ∧ (((spKeys s.te.used).any fun c => s.qc c QC.srqEn == 1 && s.qc c QC.srq == srq && s.isMp c && s.teReceives c) = false) ∧ ((s.teSrq srq).posted = [x] ∧ x.1.wrId = BitVec.ofNat 64 (leAt b 0 8)) ∧ (s.srqF srq SR.tagCq = cq ∧ cq < 2 ^ 22 ∧ s.cqUsed cq = true ∧ (s.teCq cq).err = false ∧ s.cqF cq CQ.armed = 0) ∧ (diff16 (s.teCq cq).pi (s.teCq cq).ci < 2 ^ s.cqF cq CQ.log2 - 1 ∧ s.dmaOpen (s.teCq cq).fn = true) :=
  ⟨(((((teState.putBytes (unitByteAddr tePlan uTe (srqBase 2)) (natLE 8 (2 ^ 59) ++ natLE 8 0 ++ natLE 8 (2 ^ 62 + 3 * 2 ^ 24) ++ natLE 8 65536)).setSrqUsed 2 true).setTeSrq 2 { teSrqReset 2 with pi := 1, posted := [(⟨0, 7, [], true, 9, 0, 1⟩, 0)] }).setCqUsed 3 true).putBytes (unitByteAddr tePlan uTe (cqBase 3)) (natLE 8 (4 * 2 ^ 55) ++ natLE 8 4096)), 2, 3, { noHost with wqe := bytesWith 64 [(0, 7), (15, 2)] }, bytesWith 64 [(0, 7), (15, 2)], (⟨0, 7, [], true, 9, 0, 1⟩, 0), by decide +kernel⟩

theorem witness_ArrivalsTimersAndPosts_9 : ∃ (s : State) (index : Nat) (x : TeInv), (s.te.invs[index]? = some x) ∧ (x.qp = none ∧ s.keyPlacements x.index = false ∧ s.teFnRuns x.fn = true ∧ s.dmaOpen x.fn = true ∧ (s.teFn x.fn).waiting = []) ∧ (s.te.failing = [] ∧ s.teQuiet = true) :=
  ⟨(teCtrlState teState).withTe { (teCtrlState teState).te with invs := [⟨1, none, 0⟩] }, 0, ⟨1, none, 0⟩, by decide +kernel⟩

theorem witness_ArrivalsTimersAndPosts_10 : ∃ (s : State) (fn pi : Nat), (teFnHas s.plan fn = true ∧ s.fnAmended fn = false) ∧ ((s.teFn fn).waiting = []) :=
  ⟨teState, 0, 65535, by decide +kernel⟩

theorem witness_ArrivalsTimersAndPosts_11 : ∃ (s : State) (fn c : Nat) (value : Word) (h : TeHost), (bitsAt value 63 62 = 0 ∧ bitsAt value 55 32 = c ∧ s.te.failing = []) ∧ (teFnHas s.plan fn = true ∧ s.fnAmended fn = false ∧ (s.teFn fn).waiting = [] ∧ s.teBellWaits fn value = false) ∧ (fnOwnsQp s.plan fn c = true ∧ s.qpUsed c = true ∧ h.ctxUe = false) :=
  ⟨(teQpState), 0, 5, 0x50000FFFF, noHost, by decide +kernel⟩

theorem witness_ArrivalsTimersAndPosts_12 : ∃ (s : State) (fn c : Nat) (value : Word) (h : TeHost), (bitsAt value 63 62 = 3 ∧ bitsAt value 55 32 = c ∧ s.te.failing = []) ∧ (teFnHas s.plan fn = true ∧ s.fnAmended fn = false ∧ (s.teFn fn).waiting = [] ∧ s.teBellWaits fn value = false) ∧ (fnOwnsCq s.plan fn c = true ∧ s.cqUsed c = true) :=
  ⟨teState.setCqUsed 3 true, 0, 3, 0xC00000030000FFFF, noHost, by decide +kernel⟩

theorem witness_ArrivalsTimersAndPosts_13 : ∃ (s : State) (fn c : Nat) (value : Word) (h : TeHost), (bitsAt value 63 62 = 0 ∧ bitsAt value 55 32 = c ∧ s.te.failing = []) ∧ (teFnHas s.plan fn = true ∧ s.fnAmended fn = false ∧ (s.teFn fn).waiting = [] ∧ s.teBellWaits fn value = false) ∧ (fnOwnsQp s.plan fn c = false) :=
  ⟨(teQpState), 0, 1, 0x10000FFFF, noHost, by decide +kernel⟩

theorem witness_ArrivalsTimersAndPosts_14 : ∃ (s : State) (fn : Nat) (value : Word) (h : TeHost), (s.te.failing = []) ∧ (teFnHas s.plan fn = true ∧ s.fnAmended fn = false ∧ (s.teFn fn).waiting = [] ∧ s.teBellWaits fn value = true) :=
  ⟨(teCtrlState teQpState), 0, 0x50000FFFF, noHost, by decide +kernel⟩

/-- States and operands that meet the hypotheses of each clause of `ControlRingEntries`. -/
theorem witness_ControlRingEntries_1 : ∃ (s : State) (fn : Nat) (h : TeHost) (im : List Byte), (s.ctrlReady fn 0x1 h = true) ∧ (im = bytesAt h.data 0 144 ∧ ceArg (bytesAt h.wqe 0 64) = 0) ∧ (imF im QC.state = 0 ∧ qpImageOk im = true ∧ s.qpTmOk im = true ∧ s.qpImageOwned fn im = true) ∧ (teFnQpBase s.plan fn + 2 ^ teFnQpLog2 s.plan fn ≤ 2 ^ 22) ∧ ((((List.range (2 ^ teFnQpLog2 s.plan fn)).any fun i => decide (2 ≤ teFnQpBase s.plan fn + i) && !s.qpUsed (teFnQpBase s.plan fn + i)) = true)) :=
  ⟨teCtrlState (((teState).setCqUsed 0 true)), 0, teEntry 1 [] (natLE 8 (0 * 2 ^ 60 + 3 * 2 ^ 52) ++ natLE 112 0 ++ natLE 8 (2 ^ 40) ++ natLE 16 0), (natLE 8 (0 * 2 ^ 60 + 3 * 2 ^ 52) ++ natLE 112 0 ++ natLE 8 (2 ^ 40) ++ natLE 16 0), by decide +kernel⟩

theorem witness_ControlRingEntries_2 : ∃ (s : State) (fn : Nat) (h : TeHost) (c n : Nat) (im : List Byte), (s.ctrlReady fn 0x2 h = true) ∧ (ceObject (bytesAt h.wqe 0 64) = c ∧ ceArg (bytesAt h.wqe 0 64) = 1) ∧ (fnOwnsQp s.plan fn c = true ∧ s.qpUsed c = true ∧ c < 2 ^ 22) ∧ ((im = (List.range 18).flatMap fun w => bytesAt (if w = 0 then bytesAt h.data 0 144 else s.bytes (unitByteAddr s.plan uTe (qpBase c)) 144) (8 * w) 8)) ∧ ((imF im QC.state = n ∧ (n = 1 ∨ n = 2) ∧ qpTransition (s.qc c QC.state) n = true ∧ imF im QC.delivery = 0)) ∧ (imF im QC.type = s.qc c QC.type ∧ qpImageOk im = true ∧ s.qpTmOk im = true ∧ s.qpImageOwned fn im = true) :=
  ⟨teCtrlState (((((teState).setCqUsed 0 true)).putBytes (unitByteAddr tePlan uTe (qpBase 5)) (natLE 8 (0 * 2 ^ 60 + 3 * 2 ^ 52) ++ natLE 112 0 ++ natLE 8 (2 ^ 40) ++ natLE 16 0)).setQpUsed 5 true), 0, teEntry 2 [(0, 5), (8, 1)] (natLE 8 (1 * 2 ^ 60 + 3 * 2 ^ 52) ++ natLE 112 0 ++ natLE 8 (2 ^ 40) ++ natLE 16 0), 5, 1, (natLE 8 (1 * 2 ^ 60 + 3 * 2 ^ 52) ++ natLE 112 0 ++ natLE 8 (2 ^ 40) ++ natLE 16 0), by decide +kernel⟩

theorem witness_ControlRingEntries_3 : ∃ (s : State) (fn : Nat) (h : TeHost) (c : Nat), (s.ctrlReady fn 0x3 h = true) ∧ (ceObject (bytesAt h.wqe 0 64) = c) ∧ (fnOwnsQp s.plan fn c = true ∧ s.qpUsed c = true) :=
  ⟨teCtrlState teQpState, 0, teEntry 3 [(0, 5), (17, 8)] [], 5, by decide +kernel⟩

theorem witness_ControlRingEntries_4 : ∃ (s : State) (fn : Nat) (h : TeHost) (c : Nat), (s.ctrlReady fn 0x4 h = true) ∧ (ceObject (bytesAt h.wqe 0 64) = c) ∧ (fnOwnsQp s.plan fn c = true ∧ s.qpUsed c = true ∧ s.isMp c = false) :=
  ⟨teCtrlState teQpState, 0, teEntry 4 [(0, 5)] [], 5, by decide +kernel⟩

theorem witness_ControlRingEntries_5 : ∃ (s : State) (fn : Nat) (h : TeHost) (im : List Byte), (s.ctrlReady fn 0x5 h = true) ∧ (im = bytesAt h.data 0 128) ∧ (srqImageOk im = true ∧ imF im SR.tmEn = 0 ∧ imF im SR.state ≠ 2) ∧ (s.tagsReserved 65536 + imF im SR.postedMax + imF im SR.unexpMax ≤ 2097152) ∧ ((((List.range (2 ^ teFnSrqLog2 s.plan fn)).any fun i => !s.srqUsed (teFnSrqBase s.plan fn + i)) = true)) :=
  ⟨teCtrlState teState, 0, teEntry 5 [] (natLE 8 0 ++ natLE 8 4096 ++ natLE 8 (4 * 2 ^ 59) ++ natLE 8 (2 * 65536 + 3) ++ natLE 96 0), (natLE 8 0 ++ natLE 8 4096 ++ natLE 8 (4 * 2 ^ 59) ++ natLE 8 (2 * 65536 + 3) ++ natLE 96 0), by decide +kernel⟩

theorem witness_ControlRingEntries_6 : ∃ (s : State) (fn : Nat) (h : TeHost) (j : Nat) (im : List Byte), (s.ctrlReady fn 0x6 h = true) ∧ (ceObject (bytesAt h.wqe 0 64) = j) ∧ (im = bytesAt h.data 0 128) ∧ (fnOwnsSrq s.plan fn j = true ∧ s.srqUsed j = true) ∧ (srqImageOk im = true ∧ imF im SR.tmEn = 0 ∧ imF im SR.state ≠ 2) ∧ (s.tagsReserved j + imF im SR.postedMax + imF im SR.unexpMax ≤ 2097152) :=
  ⟨teCtrlState (teState.setSrqUsed 2 true), 0, teEntry 6 [(0, 2)] (natLE 8 0 ++ natLE 8 4096 ++ natLE 8 (4 * 2 ^ 59) ++ natLE 8 (2 * 65536 + 3) ++ natLE 96 0), 2, (natLE 8 0 ++ natLE 8 4096 ++ natLE 8 (4 * 2 ^ 59) ++ natLE 8 (2 * 65536 + 3) ++ natLE 96 0), by decide +kernel⟩

theorem witness_ControlRingEntries_7 : ∃ (s : State) (fn : Nat) (h : TeHost) (j : Nat), (s.ctrlReady fn 0x7 h = true) ∧ (ceObject (bytesAt h.wqe 0 64) = j) ∧ (fnOwnsSrq s.plan fn j = true ∧ s.srqUsed j = true) ∧ ((((s.fnQps fn).any fun c => s.qc c QC.srqEn == 1 && s.qc c QC.srq == j) = false)) :=
  ⟨teCtrlState (teQpState.setSrqUsed 2 true), 0, teEntry 7 [(0, 2)] [], 2, by decide +kernel⟩

theorem witness_ControlRingEntries_8 : ∃ (s : State) (fn : Nat) (h : TeHost) (im : List Byte), (s.ctrlReady fn 0x8 h = true) ∧ (im = bytesAt h.data 0 64) ∧ (cqImageOk im = true ∧ imF im CQ.vector < fnMsixSize s.plan fn) ∧ ((((List.range (2 ^ teFnCqLog2 s.plan fn)).any fun i => !s.cqUsed (teFnCqBase s.plan fn + i)) = true)) :=
  ⟨teCtrlState (teState.withSite { teState.site with live := tePlan ++ [sec secFunctions 0 (bytesWith 80 [(64, 1), (70, 8)])] }), 0, teEntry 8 [] (natLE 8 (4 * 2 ^ 55 + 1) ++ natLE 8 4096 ++ natLE 8 9 ++ natLE 8 (2 ^ 63) ++ natLE 32 0), (natLE 8 (4 * 2 ^ 55 + 1) ++ natLE 8 4096 ++ natLE 8 9 ++ natLE 8 (2 ^ 63) ++ natLE 32 0), by decide +kernel⟩

theorem witness_ControlRingEntries_9 : ∃ (s : State) (fn : Nat) (h : TeHost) (j : Nat), (s.ctrlReady fn 0x9 h = true) ∧ (ceObject (bytesAt h.wqe 0 64) = j) ∧ (fnOwnsCq s.plan fn j = true ∧ s.cqUsed j = true) ∧ ((((s.fnQps fn).any fun c => s.qc c QC.sqCq == j || s.qc c QC.rqCq == j) = false)) ∧ ((((spKeys s.te.srqUsed).any fun q => s.srqF q SR.tmEn == 1 && s.srqF q SR.tagCq == j) = false)) :=
  ⟨teCtrlState (teQpState.setCqUsed 3 true), 0, teEntry 9 [(0, 3)] [], 3, by decide +kernel⟩

theorem witness_ControlRingEntries_10 : ∃ (s : State) (fn : Nat) (h : TeHost) (im : List Byte), (s.ctrlReady fn 0xA h = true) ∧ (im = bytesAt h.data 0 64) ∧ (mrImageOk im = true ∧ imF im MR.loc = 0) ∧ (teFnMrBase s.plan fn + 2 ^ teFnMrLog2 s.plan fn ≤ 2 ^ 24) ∧ ((((List.range (2 ^ teFnMrLog2 s.plan fn)).any fun i => s.mrFree (teFnMrBase s.plan fn + i)) = true)) :=
  ⟨teCtrlState teState, 0, teEntry 10 [] (natLE 8 (7 * 2 ^ 16 + 256) ++ natLE 8 0 ++ natLE 8 8192 ++ natLE 8 4096 ++ natLE 8 65536 ++ natLE 24 0), (natLE 8 (7 * 2 ^ 16 + 256) ++ natLE 8 0 ++ natLE 8 8192 ++ natLE 8 4096 ++ natLE 8 65536 ++ natLE 24 0), by decide +kernel⟩

theorem witness_ControlRingEntries_11 : ∃ (s : State) (fn : Nat) (h : TeHost) (i gen : Nat), (s.ctrlReady fn 0xB h = true) ∧ (ceArg (bytesAt h.wqe 0 64) = i * 256 + gen ∧ gen < 256 ∧ i < 2 ^ 24) ∧ (fnOwnsMr s.plan fn i = true ∧ s.mr i MR.valid = 1 ∧ s.mr i MR.gen = gen ∧ spGet noBool s.te.windows i = false) ∧ ((((spKeys s.te.windows).any fun w => s.mr w MR.valid == 1 && s.mr w MR.parent == i) = false)) :=
  ⟨teCtrlState (teState.putBytes (unitByteAddr tePlan uTe (mrBase 1)) (natLE 8 (2 ^ 63))), 0, teEntry 11 [(9, 1)] [], 1, 0, by decide +kernel⟩

theorem witness_ControlRingEntries_12 : ∃ (s : State) (fn : Nat) (h : TeHost), (s.ctrlReady fn 0xC h = true) ∧ (ceArg (bytesAt h.wqe 0 64) < 2 ^ 24) ∧ (teFnMrBase s.plan fn + 2 ^ teFnMrLog2 s.plan fn ≤ 2 ^ 24) ∧ ((((List.range (2 ^ teFnMrLog2 s.plan fn)).any fun i => s.mrFree (teFnMrBase s.plan fn + i)) = true)) :=
  ⟨teCtrlState teState, 0, teEntry 12 [(8, 7)] [], by decide +kernel⟩

/-- States and operands that meet the hypotheses of each clause of `TransportRegistersAndMicrocode`. -/
theorem witness_TransportRegistersAndMicrocode_1 : ∃ (s : State) (c : Nat), (s.get F.TE_QP_SEL_QP = c ∧ s.qpUsed c = true ∧ c < 2 ^ 22) ∧ ((teCtxEngine s.plan c).isSome = true ∧ s.qpAmended c = false) ∧ (s.qc c QC.state ≠ 6) ∧ ((s.teQp c).tx = [] ∧ (s.teQp c).rx = [] ∧ s.qc c QC.srqEn = 1 ∧ s.te.failing = []) ∧ (bitAt (s.teFn (s.qc c QC.fn)).eventCq 63 = false) :=
  ⟨((teQpState).setQc 5 QC.srqEn 1).set F.TE_QP_SEL_QP 5, 5, by decide +kernel⟩

theorem witness_TransportRegistersAndMicrocode_2 : ∃ (s : State), (1 ≤ bitsAt (s.rd R.TE_CC_RATE_STG) 63 32 ∧ bitsAt (s.rd R.TE_CC_RATE_STG) 63 32 ≤ 800000) ∧ (1 ≤ bitsAt (s.rd R.TE_CC_RATE_STG) 31 0 ∧ bitsAt (s.rd R.TE_CC_RATE_STG) 31 0 ≤ 800000) ∧ (1 ≤ bitsAt (s.rd R.TE_CC_TIMER_STG) 47 32 ∧ 1 ≤ bitsAt (s.rd R.TE_CC_TIMER_STG) 31 16) ∧ (1 ≤ bitsAt (s.rd R.TE_CC_BYTES_STG) 31 0 ∧ bitsAt (s.rd R.TE_CC_BYTES_STG) 31 0 ≤ 4194304) :=
  ⟨(((State.reset.wr R.TE_CC_RATE_STG 0xC350000000001).wr R.TE_CC_TIMER_STG 0x100010000).wr R.TE_CC_BYTES_STG 0x400000), by decide +kernel⟩

theorem witness_TransportRegistersAndMicrocode_3 : ∃ (s : State), (¬(1 ≤ bitsAt (s.rd R.TE_CC_RATE_STG) 63 32 ∧ bitsAt (s.rd R.TE_CC_RATE_STG) 63 32 ≤ 800000 ∧ 1 ≤ bitsAt (s.rd R.TE_CC_RATE_STG) 31 0 ∧ bitsAt (s.rd R.TE_CC_RATE_STG) 31 0 ≤ 800000 ∧ 1 ≤ bitsAt (s.rd R.TE_CC_TIMER_STG) 47 32 ∧ 1 ≤ bitsAt (s.rd R.TE_CC_TIMER_STG) 31 16 ∧ 1 ≤ bitsAt (s.rd R.TE_CC_BYTES_STG) 31 0 ∧ bitsAt (s.rd R.TE_CC_BYTES_STG) 31 0 ≤ 4194304)) :=
  ⟨State.reset.wr R.TE_CC_BYTES_STG 0, by decide +kernel⟩

theorem witness_TransportRegistersAndMicrocode_4 : ∃ (s : State) (host : Bool), (s.ready = false ∧ s.get F.TE_UC_STATUS_STATE = ucOpen) :=
  ⟨State.reset, true, by decide +kernel⟩

theorem witness_TransportRegistersAndMicrocode_5 : ∃ (s : State) (host : Bool), ((s.ready = true ∨ s.get F.TE_UC_STATUS_STATE ≠ ucOpen)) :=
  ⟨readyWith [], true, by decide +kernel⟩

theorem witness_TransportRegistersAndMicrocode_6 : ∃ (s : State), (s.ready = false ∧ s.get F.TE_UC_STATUS_STATE ≠ ucLoading) :=
  ⟨State.reset, by decide +kernel⟩

theorem witness_TransportRegistersAndMicrocode_7 : ∃ (s : State), ((s.ready = true ∨ s.get F.TE_UC_STATUS_STATE = ucLoading)) :=
  ⟨readyWith [], by decide +kernel⟩

theorem witness_TransportRegistersAndMicrocode_8 : ∃ (s : State) (hostBytes : List Byte), (s.get F.TE_UC_STATUS_STATE = ucLoading) ∧ (s.te.ucHost = true ∧ s.dmaOpen 0 = true) :=
  ⟨(((State.reset.set F.MEM_IOMMU_DDTP_MODE 1).setCfg 0 4 4).set F.TE_UC_STATUS_STATE ucLoading).withTe { State.reset.te with ucHost := true }, [], by decide +kernel⟩

theorem witness_TransportRegistersAndMicrocode_9 : ∃ (s : State) (hostBytes : List Byte), (s.get F.TE_UC_STATUS_STATE = ucLoading) ∧ (s.te.ucHost = false) ∧ (s.operatorReaches s.te.ucSrc.1 s.te.ucSrc.2 = true) ∧ (s.poisoned s.te.ucSrc.1 s.te.ucSrc.2 = false) :=
  ⟨((State.reset.set F.TE_UC_SRC_ADDR_ADDR 64).set F.TE_UC_STATUS_STATE ucLoading).withTe { State.reset.te with ucHost := false }, [], by decide +kernel⟩

theorem witness_TransportRegistersAndMicrocode_10 : ∃ (s : State) (hostBytes : List Byte), (s.get F.TE_UC_STATUS_STATE = ucLoading) ∧ (s.te.ucHost = true ∧ s.dmaOpen 0 = true) :=
  ⟨(((State.reset.set F.MEM_IOMMU_DDTP_MODE 1).setCfg 0 4 4).set F.TE_UC_STATUS_STATE ucLoading).withTe { State.reset.te with ucHost := true }, [], by decide +kernel⟩

theorem witness_TransportRegistersAndMicrocode_11 : ∃ (s : State) (c : Nat), (s.teRuns (s.qpEngine c) = true ∧ s.qpUsed c = true ∧ c < 2 ^ 22) ∧ (s.qc c QC.state ≠ 6) ∧ ((s.teQp c).tx = [] ∧ (s.teQp c).rx = [] ∧ s.qc c QC.srqEn = 1 ∧ s.te.failing = []) ∧ (bitAt (s.teFn (s.qc c QC.fn)).eventCq 63 = false) :=
  ⟨(teQpState).setQc 5 QC.srqEn 1, 5, by decide +kernel⟩

theorem witness_TransportRegistersAndMicrocode_12 : ∃ (s : State) (c : Nat), (s.teRuns ((s.conn c).f CI.engine) = true) ∧ (((s.conn c).f CI.state = connUp ∨ (s.conn c).f CI.state = connClosing)) ∧ (s.nve.cmds = [] ∧ s.nve.jobs = []) :=
  ⟨(teState).setConn 3 ((nveConnReset 3).put CI.state connUp), 3, by decide +kernel⟩

theorem witness_TransportRegistersAndMicrocode_13 : ∃ (s : State) (e i n : Nat) (x : UcCtx), ((s.seqOf e)[i]? = some x ∧ x.repair = true ∧ s.teRuns e = true) ∧ (s.ucCleanCopy e x.pc = some n) :=
  ⟨(teQpState.setSeq 0 [⟨0, .qp 5, 0x3000, [], 0, true⟩]).withTe { (teQpState.setSeq 0 [⟨0, .qp 5, 0x3000, [], 0, true⟩]).te with upsets := [(0x3000, 3)] }, 0, 0, 1, ⟨0, .qp 5, 0x3000, [], 0, true⟩, by decide +kernel⟩

theorem witness_TransportRegistersAndMicrocode_14 : ∃ (s : State) (e i c : Nat) (x : UcCtx), ((s.seqOf e)[i]? = some x ∧ x.repair = true ∧ s.teRuns e = true) ∧ (s.ucCleanCopy e x.pc = none ∧ x.object = .qp c) ∧ (s.qpUsed c = true ∧ c < 2 ^ 22) ∧ (s.qc c QC.state ≠ 6) ∧ ((s.teQp c).tx = [] ∧ (s.teQp c).rx = [] ∧ s.qc c QC.srqEn = 1 ∧ s.te.failing = []) ∧ (bitAt (s.teFn (s.qc c QC.fn)).eventCq 63 = false) :=
  ⟨(let s := (teQpState.setQc 5 QC.srqEn 1).setSeq 0 [⟨0, .qp 5, 0x3000, [], 0, true⟩]; s.withTe { s.te with upsets := (List.range 16).map fun g => (16384 * g + 0x3000, 3) }), 0, 0, 5, ⟨0, .qp 5, 0x3000, [], 0, true⟩, by decide +kernel⟩

/-- States and operands that meet the hypotheses of each clause of `BootSequence`. -/
theorem witness_BootSequence_1 : ∃ (s : State), (s.phase = phLodge) ∧ (s.pins.lodgePg = true) ∧ (s.pins.sysRst = true) ∧ (s.boot.rbgWait = false) ∧ (s.pwr.trip = false) ∧ (s.boot.warm = none) :=
  ⟨State.reset.withPins { State.reset.pins with sysRst := true, lodgePg := true }, by decide +kernel⟩

theorem witness_BootSequence_2 : ∃ (s : State), (s.phase = phLodge) ∧ (s.pins.lodgePg = true) ∧ (s.pins.sysRst = true) ∧ (s.boot.rbgWait = false) ∧ (s.pwr.trip = false) ∧ (s.boot.warm.isSome = true) :=
  ⟨(State.reset.withPins { State.reset.pins with sysRst := true, lodgePg := true }).withBoot { State.reset.boot with warm := some ⟨[], 0, [], 0, 0, 0, 0, 0, [], []⟩ }, by decide +kernel⟩

theorem witness_BootSequence_3 : ∃ (s : State) (sizes failed : List Nat), (s.phase = phRom ∧ s.bootHeld = false) :=
  ⟨State.reset.set F.BOOT_STATUS_PHASE 1, [64, 64, 64, 64], [], by decide +kernel⟩

theorem witness_BootSequence_4 : ∃ (s : State), (s.phase = phRom ∧ s.bootHeld = false) ∧ (256 ≤ s.get F.MEM_DDR_INFO_SIZE_64M) :=
  ⟨(State.reset.set F.BOOT_STATUS_PHASE 1).set F.MEM_DDR_INFO_SIZE_64M 256, by decide +kernel⟩

theorem witness_BootSequence_5 : ∃ (s : State), (s.phase = phSelect ∧ s.bootHeld = false) ∧ (s.boot.copied = false) ∧ (s.boot.slot = none) ∧ (recState (s.record 0) = 2 ∧ recTorn (s.record 0) = false ∧ s.get F.BOOT_ARB_FLOOR_FLOOR ≤ recArb (s.record 0) ∧ s.boot.excluded.contains 0 = false) ∧ (recState (s.record 1) ≠ 2 ∧ recTorn (s.record 1) = false ∧ s.boot.excluded.contains 1 = false) :=
  ⟨(State.reset.set F.BOOT_STATUS_PHASE 2).withBoot { State.reset.boot with slot := none, copied := false, flash := (List.range 88).map fun i => (0x0FFF0000 + i, (ascii "OWCREC01" ++ natLE 8 3 ++ natLE 8 0 ++ natLE 8 2 ++ List.replicate 56 0).getD i 0) }, by decide +kernel⟩

theorem witness_BootSequence_6 : ∃ (s : State) (k j : Nat) (rest : List Nat), (s.phase = phSelect ∧ s.bootHeld = false) ∧ (s.boot.copied = false) ∧ (s.boot.slot = some j) ∧ (s.boot.todo = k :: rest) :=
  ⟨(State.reset.set F.BOOT_STATUS_PHASE 2).withBoot { State.reset.boot with slot := some 0, todo := [1], copied := false, flash := (List.range 8).map fun i => (0x1FFF0018 + i, if i = 0 then 2 else 0) }, 1, 0, [], by decide +kernel⟩

theorem witness_BootSequence_7 : ∃ (s : State), (s.phase = phSelect ∧ s.bootHeld = false) ∧ (s.boot.copied = false) :=
  ⟨State.reset.set F.BOOT_STATUS_PHASE 2, by decide +kernel⟩

theorem witness_BootSequence_8 : ∃ (s : State) (k : Nat), (s.phase = phSelect ∧ s.bootHeld = false) ∧ (s.boot.copied = true) ∧ (s.boot.slot = some k) ∧ (k < 2) :=
  ⟨(State.reset.set F.BOOT_STATUS_PHASE 2).withBoot { State.reset.boot with slot := some 0, copied := true }, 0, by decide +kernel⟩

theorem witness_BootSequence_9 : ∃ (s : State) (w : BootWarm), (s.boot.warm = some w) ∧ (s.phase = phWarm ∧ s.bootHeld = false) :=
  ⟨(State.reset.set F.BOOT_STATUS_PHASE 7).withBoot { State.reset.boot with warm := some ⟨[], 0, [], 0, 0, 0, 0, 0, [], []⟩ }, ⟨[], 0, [], 0, 0, 0, 0, 0, [], []⟩, by decide +kernel⟩

theorem witness_BootSequence_10 : ∃ (s : State) (w : BootWarm), (s.boot.warm = some w) ∧ (s.phase = phStage2) ∧ (s.get F.BOOT_STATUS_SOURCE = 3) ∧ (s.get F.SITE_STATUS_PHASE = 0) :=
  ⟨((State.reset.set F.BOOT_STATUS_PHASE 4).set F.BOOT_STATUS_SOURCE 3).withBoot { State.reset.boot with warm := some ⟨[], 0, [], 0, 0, 0, 0, 0, [], []⟩ }, ⟨[], 0, [], 0, 0, 0, 0, 0, [], []⟩, by decide +kernel⟩

theorem witness_BootSequence_11 : ∃ (s : State), (s.phase = phStage2) :=
  ⟨State.reset.set F.BOOT_STATUS_PHASE 4, by decide +kernel⟩

theorem witness_BootSequence_12 : ∃ (s : State), (s.phase = phStage2) ∧ (s.pwr.holdAt = []) :=
  ⟨State.reset.set F.BOOT_STATUS_PHASE 4, by decide +kernel⟩

theorem witness_BootSequence_13 : ∃ (s : State), (s.phase = phStage2) ∧ (s.plan ≠ []) ∧ (s.get F.TE_UC_STATUS_STATE = ucSealed) ∧ ((∀ c, c < 20 → s.cluState c = cReleased)) ∧ (s.get F.SITE_STATUS_PHASE = 0) :=
  ⟨(List.range 20).foldl (fun s c => s.setCluState c cReleased) (((readyWith [sec 99 0 []]).set F.BOOT_STATUS_PHASE phStage2).set F.TE_UC_STATUS_STATE ucSealed), by decide +kernel⟩

theorem witness_BootSequence_14 : ∃ (s : State) (slot : Nat), (s.get F.BOOT_CMD_STATUS_BUSY = 0) ∧ ((s.phase = phStage2 ∨ s.phase = phReady)) :=
  ⟨State.reset.set F.BOOT_STATUS_PHASE 5, 1, by decide +kernel⟩

theorem witness_BootSequence_15 : ∃ (s : State) (k : Nat), (s.boot.verify = some k) ∧ (k < 2) :=
  ⟨State.reset.withBoot { State.reset.boot with verify := some 1 }, 1, by decide +kernel⟩

theorem witness_BootSequence_16 : ∃ (s : State) (k : Nat), (s.boot.verify = some k) :=
  ⟨State.reset.withBoot { State.reset.boot with verify := some 1 }, 1, by decide +kernel⟩

theorem witness_BootSequence_17 : ∃ (s : State), (s.boot.rbgWait = true) :=
  ⟨State.reset.withBoot { State.reset.boot with rbgWait := true }, by decide +kernel⟩

/-- States and operands that meet the hypotheses of each clause of `FlashCommands`. -/
theorem witness_FlashCommands_1 : ∃ (s : State), (s.phase = phReady) ∧ (s.boot.verify = none) ∧ (s.boot.xspi = none) ∧ (0 < s.get F.BOOT_XSPI_LEN_LEN) ∧ (s.get F.BOOT_XSPI_ADDR_ADDR + s.get F.BOOT_XSPI_LEN_LEN ≤ 2 ^ 30) :=
  ⟨(State.reset.set F.BOOT_STATUS_PHASE 5).set F.BOOT_XSPI_LEN_LEN 1, by decide +kernel⟩

theorem witness_FlashCommands_2 : ∃ (s : State), (s.phase = phReady) ∧ (s.boot.verify = none) ∧ (s.boot.xspi = none) ∧ (0 < s.get F.BOOT_XSPI_LEN_LEN) ∧ (s.get F.BOOT_XSPI_ADDR_ADDR + s.get F.BOOT_XSPI_LEN_LEN ≤ 2 ^ 30) :=
  ⟨(State.reset.set F.BOOT_STATUS_PHASE 5).set F.BOOT_XSPI_LEN_LEN 1, by decide +kernel⟩

theorem witness_FlashCommands_3 : ∃ (s : State), (s.phase = phReady) ∧ (s.boot.verify = none) ∧ (s.boot.xspi = none) ∧ (0 < s.get F.BOOT_XSPI_LEN_LEN) ∧ (s.get F.BOOT_XSPI_ADDR_ADDR + s.get F.BOOT_XSPI_LEN_LEN ≤ 2 ^ 30) ∧ (s.get F.BOOT_XSPI_ADDR_ADDR % 65536 = 0) ∧ (s.get F.BOOT_XSPI_LEN_LEN % 65536 = 0) :=
  ⟨(State.reset.set F.BOOT_STATUS_PHASE 5).set F.BOOT_XSPI_LEN_LEN 65536, by decide +kernel⟩

theorem witness_FlashCommands_4 : ∃ (s : State) (a n buf : Nat) (ecc : EccResult), (s.boot.xspi = some (3, a, n, buf)) :=
  ⟨State.reset.withBoot { State.reset.boot with xspi := some (3, 0, 65536, 0) }, 0, 65536, 0, .uncorrectable, by decide +kernel⟩

theorem witness_FlashCommands_5 : ∃ (s : State) (a n buf : Nat) (ecc : EccResult), (s.boot.xspi = some (1, a, n, buf)) ∧ (s.operatorReaches buf n = true) :=
  ⟨(State.reset.withBoot { State.reset.boot with xspi := some (1, 0, 2, 0x10000000000) }).withDdr [64, 64, 64, 64], 0, 2, 0x10000000000, .clean, by decide +kernel⟩

theorem witness_FlashCommands_6 : ∃ (s : State) (a n buf : Nat), (s.boot.xspi = some (2, a, n, buf)) ∧ (s.operatorReaches buf n = true) ∧ (s.poisoned buf n = false) :=
  ⟨((State.reset.withBoot { State.reset.boot with xspi := some (2, 0, 2, 0x10000000000) }).withDdr [64, 64, 64, 64]).putBytes 0x10000000000 [1, 2], 0, 2, 0x10000000000, by decide +kernel⟩

theorem witness_FlashCommands_7 : ∃ (s : State) (op a n buf : Nat) (ecc : EccResult), (s.boot.xspi = some (op, a, n, buf)) :=
  ⟨State.reset.withBoot { State.reset.boot with xspi := some (2, 0, 2, 0x10000000000) }, 2, 0, 2, 0x10000000000, .uncorrectable, by decide +kernel⟩

theorem witness_FlashCommands_8 : ∃ (s : State) (port : Nat), (s.phase = phHostWait) ∧ (s.boot.pushing = none) :=
  ⟨State.reset.set F.BOOT_STATUS_PHASE 3, 0, by decide +kernel⟩

theorem witness_FlashCommands_9 : ∃ (s : State) (len : Nat), (s.boot.pushing = some len ∧ s.bootHeld = false) ∧ (imgTotal (s.storeRead 0 4096) ≠ len) :=
  ⟨State.reset.withBoot { State.reset.boot with pushing := some 1 }, 1, by decide +kernel⟩

theorem witness_FlashCommands_10 : ∃ (s : State) (len : Nat), (s.boot.pushing = some len ∧ s.bootHeld = false) ∧ (imgTotal (s.storeRead 0 4096) = len) :=
  ⟨State.reset.withBoot { State.reset.boot with pushing := some 0 }, 0, by decide +kernel⟩

theorem witness_FlashCommands_11 : ∃ (s : State), (s.phase = phLodge) ∧ (s.pins.lodgePg = true) ∧ (s.pins.sysRst = true) ∧ (s.boot.rbgWait = false) ∧ (s.pwr.trip = false) ∧ (s.boot.warm = none) :=
  ⟨State.reset.withPins { State.reset.pins with sysRst := true, lodgePg := true }, by decide +kernel⟩

/-- States and operands that meet the hypotheses of each clause of `TimebaseOperations`. -/
theorem witness_TimebaseOperations_1 : ∃ (s : State) (ref : Nat) (present : Bool), (ref < 2) :=
  ⟨State.reset, 1, true, by decide +kernel⟩

theorem witness_TimebaseOperations_2 : ∃ (s : State), (s.get F.TB_CLK_CFG_REF_SEL ≠ 0) ∧ (s.get F.TB_CLK_STATUS_REF_LOST = 0) :=
  ⟨State.reset.set F.TB_CLK_CFG_REF_SEL 1, by decide +kernel⟩

theorem witness_TimebaseOperations_3 : ∃ (s : State), (s.get F.TB_CLK_STATUS_PLL_LOCK = 1) :=
  ⟨State.reset.set F.TB_CLK_STATUS_PLL_LOCK 1, by decide +kernel⟩

theorem witness_TimebaseOperations_4 : ∃ (s : State), (s.tbDue = true) ∧ (s.get F.TB_ADJ_OP_STG_OP = 0) :=
  ⟨State.reset.set F.TB_COMMIT_PENDING 1, by decide +kernel⟩

theorem witness_TimebaseOperations_5 : ∃ (s : State), (s.tbDue = true) ∧ (s.get F.TB_ADJ_OP_STG_OP = 1) :=
  ⟨(State.reset.set F.TB_COMMIT_PENDING 1).set F.TB_ADJ_OP_STG_OP 1, by decide +kernel⟩

theorem witness_TimebaseOperations_6 : ∃ (s : State), (s.tbDue = true) ∧ (s.get F.TB_ADJ_OP_STG_OP = 2) :=
  ⟨(State.reset.set F.TB_COMMIT_PENDING 1).set F.TB_ADJ_OP_STG_OP 2, by decide +kernel⟩

theorem witness_TimebaseOperations_7 : ∃ (s : State), (s.tbDue = true) ∧ (s.get F.TB_ADJ_OP_STG_OP = 3) :=
  ⟨(State.reset.set F.TB_COMMIT_PENDING 1).set F.TB_ADJ_OP_STG_OP 3, by decide +kernel⟩

theorem witness_TimebaseOperations_8 : ∃ (s : State), (s.tbDue = true) :=
  ⟨(State.reset.set F.TB_COMMIT_PENDING 1).set F.TB_ADJ_OP_STG_OP 3, by decide +kernel⟩

theorem witness_TimebaseOperations_9 : ∃ (s : State) (timebase : Nat), ((s.tbase timebase).slew ≠ 0) ∧ (slewAdded (s.tbase timebase) (s.tbase timebase).ran = (s.tbase timebase).slew) :=
  ⟨State.reset.setTbase 1 ⟨5, 1, 122, 5000000000⟩, 1, by decide +kernel⟩

theorem witness_TimebaseOperations_10 : ∃ (s : State), (bitAt (s.ppsCfg s.clk.ppsNext) 63 = true) ∧ (s.ppsEdge s.clk.ppsNext ≤ s.tbVal (bitsAt (s.ppsCfg s.clk.ppsNext) 61 60)) :=
  ⟨State.reset.wr R.TB_PPSOUT_CFG (2 ^ 63), by decide +kernel⟩

theorem witness_TimebaseOperations_11 : ∃ (s : State), (s.clk.ppsFall ≤ s.clk.mtime) :=
  ⟨State.reset, by decide +kernel⟩

theorem witness_TimebaseOperations_12 : ∃ (s : State), (s.clk.mtime < s.clk.ppsFall) :=
  ⟨State.reset.withClk { State.reset.clk with ppsFall := 5 }, by decide +kernel⟩

theorem witness_TimebaseOperations_13 : ∃ (s : State) (port : Nat) (value : Word), (port < 16) ∧ (bitsAt value 9 8 ≠ 3) ∧ (portPresent s.plan port = true) ∧ (s.underAmendment secPortLayout 0 port = false) ∧ ((bitsAt value 1 0 = portTb s port ∨ (s.get (F.SCH_GCL_STATUS_OPER_LEN port) = 0 ∧ s.get (F.SCH_GCL_COMMIT_PENDING port) ≠ 1))) :=
  ⟨readyWith [sec secPortLayout 0 (bytesWith 16 [(0, 1)])], 0, 0x101, by decide +kernel⟩

/-- States and operands that meet the hypotheses of each clause of `LostCompletionsAndRestores`. -/
theorem witness_LostCompletionsAndRestores : ∃ (s : State) (ep : Nat) (cmd : List Word), (hGet cmd CH.kind = kCommand) ∧ (hGet cmd CH.srcEp = ep) ∧ (epStamped s.plan ep = false) ∧ (s.epHeld ep = false) :=
  ⟨State.reset, 0x40, header [(CH.kind, kCommand), (CH.srcEp, 0x40)], by decide +kernel⟩

/-- States and operands that meet the hypotheses of each clause of `NvmeAdminCommands`. -/
theorem witness_NvmeAdminCommands_1 : ∃ (s : State) (f qid v : Nat) (q : NveSq), (nveHas s.plan f = true ∧ s.fnAmended f = false) ∧ ((s.ctl f).rdy = true) ∧ (((s.ctl f).sqs.find? fun (x : NveSq) => x.qid == qid) = some q) ∧ (v < q.size ∧ v < 65536) :=
  ⟨nveState, 0, 1, 9, ⟨1, 0x20000, 16, 1, 0, 1⟩, by decide +kernel⟩

theorem witness_NvmeAdminCommands_2 : ∃ (s : State) (f qid v : Nat) (q : NveCq), (nveHas s.plan f = true ∧ s.fnAmended f = false) ∧ ((s.ctl f).rdy = true) ∧ (((s.ctl f).cqs.find? fun (x : NveCq) => x.qid == qid) = some q) ∧ (v < q.size ∧ v < 65536 ∧ (v + q.size - q.head) % q.size ≤ (q.tail + q.size - q.head) % q.size) :=
  ⟨nveState, 0, 1, 1, ⟨1, 0x40000, 16, 0, false, true, 0, 2⟩, by decide +kernel⟩

theorem witness_NvmeAdminCommands_3 : ∃ (s : State) (f : Nat) (sqe b : List Byte) (q : NveSq), ((s.ctl f).nextSq = some q) ∧ (s.nveRuns f = true ∧ s.taking = true ∧ (s.ctl f).rdy = true ∧ (s.ctl f).dis = false) ∧ (s.dmaOpen f = true) ∧ (b = bytesAt sqe 0 64 ∧ (if q.qid = 0 then adminOps else ioOps).contains (leAt b 0 1) = true) ∧ (leAt b 1 1 % 4 = 0 ∧ leAt b 1 1 / 64 = 0 ∧ leAt b 16 8 = 0) ∧ ((q.qid ≠ 0 → leAt b 0 1 = 1 ∨ leAt b 0 1 = 2 ∨ leAt b 0 1 = 8 → leAt b 51 1 &&& 0x3D = 0)) :=
  ⟨nveState, 0, (nveReq 0 6 []).sqe, bytesAt (nveReq 0 6 []).sqe 0 64, ⟨0, 0x10000, 16, 0, 0, 1⟩, by decide +kernel⟩

theorem witness_NvmeAdminCommands_4 : ∃ (s : State) (id : Nat) (x : NveCmd), (s.nveCmd id = some x) ∧ (x.phase = 0 ∧ x.op = 0x00 ∧ x.sq = 0 ∧ s.nveRuns x.fn = true ∧ s.dmaWaits x.fn = false) ∧ (x.at 40 2 ≠ 0 ∧ ((s.ctl x.fn).sqs.any fun (q : NveSq) => q.qid == x.at 40 2) = true) :=
  ⟨nveWith (nveReq 0 0 [(40, 1)]), 7, nveReq 0 0 [(40, 1)], by decide +kernel⟩

theorem witness_NvmeAdminCommands_5 : ∃ (s : State) (id : Nat) (x : NveCmd), (s.nveCmd id = some x) ∧ (x.phase = 0 ∧ x.op = 0x04 ∧ x.sq = 0 ∧ s.nveRuns x.fn = true ∧ s.dmaWaits x.fn = false) ∧ (x.at 40 2 ≠ 0 ∧ ((s.ctl x.fn).cqs.any fun (q : NveCq) => q.qid == x.at 40 2) = true) ∧ (((s.ctl x.fn).sqs.any fun (q : NveSq) => q.cq == x.at 40 2) = false) :=
  ⟨(nveWith (nveReq 0 4 [(40, 1)])).setCtl 0 { nveCtl with sqs := [⟨0, 0x10000, 16, 0, 0, 1⟩] }, 7, nveReq 0 4 [(40, 1)], by decide +kernel⟩

theorem witness_NvmeAdminCommands_6 : ∃ (s : State) (id : Nat) (x : NveCmd), (s.nveCmd id = some x) ∧ (x.phase = 0 ∧ x.op = 0x01 ∧ x.sq = 0 ∧ s.nveRuns x.fn = true ∧ s.dmaWaits x.fn = false) ∧ (x.at 44 1 % 2 = 1 ∧ x.at 46 2 ≠ 0 ∧ ((s.ctl x.fn).cqs.any fun (q : NveCq) => q.qid == x.at 46 2) = true) ∧ (x.at 40 2 ≠ 0 ∧ x.at 40 2 ≤ (s.ctl x.fn).nsq.getD (nveIoqMax s.plan x.fn) ∧ ((s.ctl x.fn).sqs.any fun (q : NveSq) => q.qid == x.at 40 2) = false) ∧ (x.at 42 2 ≠ 0 ∧ x.at 24 8 % (s.ctl x.fn).page = 0) :=
  ⟨nveWith (nveReq 0 1 [(40, 2), (42, 15), (44, 1), (46, 1)]), 7, nveReq 0 1 [(40, 2), (42, 15), (44, 1), (46, 1)], by decide +kernel⟩

theorem witness_NvmeAdminCommands_7 : ∃ (s : State) (id : Nat) (x : NveCmd), (s.nveCmd id = some x) ∧ (x.phase = 0 ∧ x.op = 0x05 ∧ x.sq = 0 ∧ s.nveRuns x.fn = true ∧ s.dmaWaits x.fn = false) ∧ (x.at 44 1 % 2 = 1 ∧ (x.at 44 1 / 2 % 2 = 0 ∨ x.at 46 2 < fnMsixSize s.plan x.fn)) ∧ (x.at 40 2 ≠ 0 ∧ x.at 40 2 ≤ (s.ctl x.fn).ncq.getD (nveIoqMax s.plan x.fn) ∧ ((s.ctl x.fn).cqs.any fun (q : NveCq) => q.qid == x.at 40 2) = false) ∧ (x.at 42 2 ≠ 0 ∧ x.at 24 8 % (s.ctl x.fn).page = 0) :=
  ⟨nveWith (nveReq 0 5 [(40, 2), (42, 15), (44, 1)]), 7, nveReq 0 5 [(40, 2), (42, 15), (44, 1)], by decide +kernel⟩

theorem witness_NvmeAdminCommands_8 : ∃ (s : State) (id : Nat) (x : NveCmd) (h : NveHost) (l : List (Nat × Nat)) (u v : State), (s.nveCmd id = some x) ∧ (x.phase = 0 ∧ x.op = 0x02 ∧ x.sq = 0 ∧ s.nveRuns x.fn = true ∧ s.dmaWaits x.fn = false) ∧ (x.at 40 1 = 0xC0 ∧ x.at 41 1 = 0x80 ∧ x.at 48 8 ≤ 512 ∧ x.at 48 8 % 4 = 0 ∧ x.at 42 2 < 1024 ∧ x.at 44 2 = 0) ∧ (s.nvePrps x (4 * (x.at 42 2 + 1)) h = ((0, l), u)) ∧ (u.nveToHost x.fn l 0 (bytesAt (s.logState x.fn) (x.at 48 8) (4 * (x.at 42 2 + 1))) = (true, v)) :=
  ⟨nveWith (nveReq 0 2 [(40, 0xC0), (41, 0x80), (42, 9)]), 7, nveReq 0 2 [(40, 0xC0), (41, 0x80), (42, 9)], noNve, [(0x3000, 40)], nveWith (nveReq 0 2 [(40, 0xC0), (41, 0x80), (42, 9)]), ((nveWith (nveReq 0 2 [(40, 0xC0), (41, 0x80), (42, 9)])).nveToHost 0 [(0x3000, 40)] 0 (bytesAt (nveState.logState 0) 0 40)).2, by decide +kernel⟩

theorem witness_NvmeAdminCommands_9 : ∃ (s : State) (id : Nat) (x : NveCmd) (h : NveHost) (l : List (Nat × Nat)) (u v : State), (s.nveCmd id = some x) ∧ (x.phase = 0 ∧ x.op = 0x06 ∧ x.sq = 0 ∧ s.nveRuns x.fn = true ∧ s.dmaWaits x.fn = false) ∧ (x.at 40 1 = 0 ∧ 1 ≤ x.nsid ∧ x.nsid ≤ nveNsMax s.plan x.fn) ∧ (s.nvePrps x 4096 h = ((0, l), u)) ∧ (u.nveToHost x.fn l 0 x.ns.identify = (true, v)) :=
  ⟨nveWith (nveReq 0 6 []), 7, nveReq 0 6 [], noNve, [(0x3000, 4096)], nveWith (nveReq 0 6 []), ((nveWith (nveReq 0 6 [])).nveToHost 0 [(0x3000, 4096)] 0 nveNs.identify).2, by decide +kernel⟩

theorem witness_NvmeAdminCommands_10 : ∃ (s : State) (id : Nat) (x y : NveCmd), (s.nveCmd id = some x) ∧ (x.phase = 0 ∧ x.op = 0x08 ∧ x.sq = 0 ∧ s.nveRuns x.fn = true ∧ s.dmaWaits x.fn = false) ∧ ((x.at 40 2 = 0 → (s.ctl x.fn).aers.contains (x.at 42 2) = false)) ∧ ((s.nve.cmds.find? fun (y : NveCmd) => y.fn == x.fn && y.sq == x.at 40 2 && y.cid == x.at 42 2 && y.id != x.id) = some y) ∧ (y.sent = false) :=
  ⟨nveState.withNve { nveState.nve with cmds := [{ nveReq 1 0 [] with id := 3 }, nveReq 0 8 [(40, 1), (42, 3)]] }, 7, nveReq 0 8 [(40, 1), (42, 3)], { nveReq 1 0 [] with id := 3 }, by decide +kernel⟩

theorem witness_NvmeAdminCommands_11 : ∃ (s : State) (id : Nat) (x y : NveCmd), (s.nveCmd id = some x) ∧ (x.phase = 0 ∧ x.op = 0x08 ∧ x.sq = 0 ∧ s.nveRuns x.fn = true ∧ s.dmaWaits x.fn = false) ∧ ((x.at 40 2 = 0 → (s.ctl x.fn).aers.contains (x.at 42 2) = false)) ∧ ((s.nve.cmds.find? fun (y : NveCmd) => y.fn == x.fn && y.sq == x.at 40 2 && y.cid == x.at 42 2 && y.id != x.id) = some y) ∧ (y.sent = true) :=
  ⟨nveState.withNve { nveState.nve with cmds := [{ nveReq 1 0 [] with id := 3, sent := true }, nveReq 0 8 [(40, 1), (42, 3)]], jobs := [{ nveSent (nveReq 1 0 []) 0 [] with owner := some 3 }] }, 7, nveReq 0 8 [(40, 1), (42, 3)], { nveReq 1 0 [] with id := 3, sent := true }, by decide +kernel⟩

theorem witness_NvmeAdminCommands_12 : ∃ (s : State) (id : Nat) (x : NveCmd), (s.nveCmd id = some x) ∧ (x.phase = 0 ∧ x.op = 0x08 ∧ x.sq = 0 ∧ s.nveRuns x.fn = true ∧ s.dmaWaits x.fn = false) ∧ ((x.at 40 2 = 0 → (s.ctl x.fn).aers.contains (x.at 42 2) = false)) ∧ ((s.nve.cmds.any fun (y : NveCmd) => y.fn == x.fn && y.sq == x.at 40 2 && y.cid == x.at 42 2 && y.id != x.id) = false) :=
  ⟨nveWith (nveReq 0 8 [(40, 1), (42, 3)]), 7, nveReq 0 8 [(40, 1), (42, 3)], by decide +kernel⟩

theorem witness_NvmeAdminCommands_13 : ∃ (s : State) (id nsq ncq : Nat) (x : NveCmd), (s.nveCmd id = some x) ∧ (x.phase = 0 ∧ x.op = 0x09 ∧ x.sq = 0 ∧ s.nveRuns x.fn = true ∧ s.dmaWaits x.fn = false) ∧ (x.at 40 1 = 0x07 ∧ x.at 43 1 = 0 ∧ x.at 44 4 % 65536 ≠ 65535 ∧ x.at 44 4 / 65536 ≠ 65535) ∧ (((s.ctl x.fn).sqs.any fun (q : NveSq) => q.qid != 0) = false ∧ ((s.ctl x.fn).cqs.any fun (q : NveCq) => q.qid != 0) = false) ∧ (nsq = min (x.at 44 4 % 65536 + 1) (nveIoqMax s.plan x.fn) ∧ ncq = min (x.at 44 4 / 65536 + 1) (nveIoqMax s.plan x.fn)) :=
  ⟨(nveWith (nveReq 0 9 [(40, 7), (44, 3), (46, 20)])).setCtl 0 { nveCtl with sqs := [⟨0, 0x10000, 16, 0, 0, 1⟩], cqs := [⟨0, 0x30000, 16, 0, false, true, 0, 0⟩] }, 7, 4, 8, nveReq 0 9 [(40, 7), (44, 3), (46, 20)], by decide +kernel⟩

theorem witness_NvmeAdminCommands_14 : ∃ (s : State) (id : Nat) (x : NveCmd), (s.nveCmd id = some x) ∧ (x.phase = 0 ∧ x.op = 0x0A ∧ x.sq = 0 ∧ s.nveRuns x.fn = true ∧ s.dmaWaits x.fn = false) ∧ (x.at 40 1 = 0x07 ∧ x.at 41 1 = 0) :=
  ⟨nveWith (nveReq 0 10 [(40, 7)]), 7, nveReq 0 10 [(40, 7)], by decide +kernel⟩

theorem witness_NvmeAdminCommands_15 : ∃ (s : State) (id : Nat) (x : NveCmd), (s.nveCmd id = some x) ∧ (x.phase = 0 ∧ x.op = 0x0C ∧ x.sq = 0 ∧ s.nveRuns x.fn = true ∧ s.dmaWaits x.fn = false) ∧ ((s.ctl x.fn).aers.length < 4) :=
  ⟨nveWith (nveReq 0 12 []), 7, nveReq 0 12 [], by decide +kernel⟩

theorem witness_NvmeAdminCommands_16 : ∃ (s : State) (id : Nat) (x : NveCmd), (s.nveCmd id = some x) ∧ (x.phase = 0 ∧ x.op = 0x0C ∧ x.sq = 0 ∧ s.nveRuns x.fn = true ∧ s.dmaWaits x.fn = false) ∧ (4 ≤ (s.ctl x.fn).aers.length) :=
  ⟨(nveWith (nveReq 0 12 [])).setCtl 0 { nveCtl with aers := [1, 2, 4, 5] }, 7, nveReq 0 12 [], by decide +kernel⟩

/-- States and operands that meet the hypotheses of each clause of `NvmeIoCommands`. -/
theorem witness_NvmeIoCommands_1 : ∃ (s : State) (id : Nat) (x : NveCmd), (s.nveCmd id = some x) ∧ (x.phase = 0 ∧ x.op = 0x00 ∧ x.sq ≠ 0 ∧ s.nveRuns x.fn = true ∧ s.dmaWaits x.fn = false) ∧ (x.ns.nsze ≠ 0) :=
  ⟨nveWith (nveReq 1 0 []), 7, nveReq 1 0 [], by decide +kernel⟩

theorem witness_NvmeIoCommands_2 : ∃ (s : State) (id : Nat) (x : NveCmd) (h : NveHost) (l : List (Nat × Nat)) (d : List Byte) (u v : State), (s.nveCmd id = some x) ∧ (x.phase = 0 ∧ x.op = 0x01 ∧ x.sq ≠ 0 ∧ s.nveRuns x.fn = true ∧ s.dmaWaits x.fn = false) ∧ (x.nlb * 2 ^ x.ns.lbads ≤ 262144 ∧ x.slba + x.nlb ≤ x.ns.nsze ∧ x.ns.ro = false ∧ x.ns.xts = false) ∧ (s.nveBehind x [(x.slba, x.nlb)] = false) ∧ (s.nvePrps x (x.nlb * 2 ^ x.ns.lbads) h = ((0, l), u)) ∧ (u.nveFromHost x.fn l h (x.nlb * 2 ^ x.ns.lbads) = ((0, d), v)) :=
  ⟨nveWith (nveReq 1 1 [(40, 5)]), 7, nveReq 1 1 [(40, 5)], ⟨[], [1, 2, 3], .ok⟩, [(0x3000, 512)], bytesAt [1, 2, 3] 0 512, nveWith (nveReq 1 1 [(40, 5)]), nveWith (nveReq 1 1 [(40, 5)]), by decide +kernel⟩

theorem witness_NvmeIoCommands_3 : ∃ (s : State) (id : Nat) (x : NveCmd) (ecc : EccResult) (h : NveHost) (l : List (Nat × Nat)) (u : State), (s.nveCmd id = some x) ∧ (x.phase = 0 ∧ x.op = 0x02 ∧ x.sq ≠ 0 ∧ s.nveRuns x.fn = true ∧ s.dmaWaits x.fn = false) ∧ (x.nlb * 2 ^ x.ns.lbads ≤ 262144 ∧ x.slba + x.nlb ≤ x.ns.nsze ∧ x.ns.xts = false) ∧ (s.nveBehind x [(x.slba, x.nlb)] = false) ∧ (s.nvePrps x (x.nlb * 2 ^ x.ns.lbads) h = ((0, l), u)) ∧ (u.buffered x = []) :=
  ⟨nveWith (nveReq 1 2 [(40, 5), (48, 3)]), 7, nveReq 1 2 [(40, 5), (48, 3)], .clean, noNve, [(0x3000, 2048)], nveWith (nveReq 1 2 [(40, 5), (48, 3)]), by decide +kernel⟩

theorem witness_NvmeIoCommands_4 : ∃ (s : State) (id : Nat) (x : NveCmd), (s.nveCmd id = some x) ∧ (x.phase = 0 ∧ x.op = 0x08 ∧ x.sq ≠ 0 ∧ s.nveRuns x.fn = true ∧ s.dmaWaits x.fn = false) ∧ (0 < x.ns.nsze ∧ x.slba + x.nlb ≤ x.ns.nsze ∧ x.ns.ro = false) ∧ (s.nveBehind x [(x.slba, x.nlb)] = false) :=
  ⟨nveWith (nveReq 1 8 [(40, 5), (48, 3)]), 7, nveReq 1 8 [(40, 5), (48, 3)], by decide +kernel⟩

theorem witness_NvmeIoCommands_5 : ∃ (s : State) (id : Nat) (x y : NveCmd) (h : NveHost) (l : List (Nat × Nat)) (d : List Byte) (u v : State), (s.nveCmd id = some x) ∧ (x.phase = 0 ∧ x.op = 0x09 ∧ x.sq ≠ 0 ∧ s.nveRuns x.fn = true ∧ s.dmaWaits x.fn = false) ∧ (x.at 44 1 = 4 ∧ x.ns.nsze ≠ 0 ∧ x.ns.ro = false) ∧ (s.nvePrps x (16 * (x.at 40 1 + 1)) h = ((0, l), u)) ∧ (u.nveFromHost x.fn l h (16 * (x.at 40 1 + 1)) = ((0, d), v)) ∧ (y = { x with data := d, phase := 2 } ∧ (y.ranges.any fun g => decide (x.ns.nsze < g.1 + g.2)) = false ∧ s.nveBehind x y.ranges = false) :=
  ⟨nveWith (nveReq 1 9 [(44, 4)]), 7, nveReq 1 9 [(44, 4)], { nveReq 1 9 [(44, 4)] with data := bytesWith 16 [(4, 2), (8, 3)], phase := 2 }, ⟨[], bytesWith 16 [(4, 2), (8, 3)], .ok⟩, [(0x3000, 16)], bytesWith 16 [(4, 2), (8, 3)], nveWith (nveReq 1 9 [(44, 4)]), nveWith (nveReq 1 9 [(44, 4)]), by decide +kernel⟩

theorem witness_NvmeIoCommands_6 : ∃ (s : State) (id : Nat) (x : NveCmd) (h : NveHost), (s.nveCmd id = some x) ∧ (x.phase = 0 ∧ x.op = 0x01 ∧ x.sq ≠ 0 ∧ s.nveRuns x.fn = true ∧ s.dmaWaits x.fn = false) ∧ (x.nlb * 2 ^ x.ns.lbads ≤ 262144) :=
  ⟨nveWith { nveReq 1 1 [(40, 99), (48, 3)] with ns := { nveNs with cfg := BitVec.ofNat 64 (9 * 2 ^ 40 + 2 ^ 45) } }, 7, { nveReq 1 1 [(40, 99), (48, 3)] with ns := { nveNs with cfg := BitVec.ofNat 64 (9 * 2 ^ 40 + 2 ^ 45) } }, noNve, by decide +kernel⟩

/-- States and operands that meet the hypotheses of each clause of `StorageControllersAndCommits`. -/
theorem witness_StorageControllersAndCommits_1 : ∃ (s : State) (f v : Nat) (c : NveCtl), (nveHas s.plan f = true ∧ s.fnAmended f = false) ∧ ((s.ctl f).cc % 2 = 0 ∧ (s.ctl f).dis = false) ∧ (v % 2 = 1 ∧ natBits v 15 14 = 0) ∧ (c = { s.ctl f with cc := v &&& 0x01FFFFF1 }) ∧ (natBits c.cc 6 4 = 0 ∧ natBits c.cc 13 11 = 0 ∧ natBits c.cc 10 7 ≤ 4) :=
  ⟨nveState.setCtl 0 { nveCtlReset 0 with asq := 0x10000, acq := 0x30000, aqa := 0xF000F }, 0, 0x460001, { nveCtlReset 0 with asq := 0x10000, acq := 0x30000, aqa := 0xF000F, cc := 0x460001 }, by decide +kernel⟩

theorem witness_StorageControllersAndCommits_2 : ∃ (s : State) (f v : Nat) (u : State), (nveHas s.plan f = true ∧ s.fnAmended f = false) ∧ ((s.ctl f).cc % 2 = 1) ∧ (v % 2 = 0 ∧ natBits v 15 14 = 0) ∧ (u = (s.setCtl f { s.ctl f with cc := v &&& 0x01FFFFF1 }).nveAbortUnsent f none 0x08) :=
  ⟨nveWith (nveReq 1 0 []), 0, 0, ((nveWith (nveReq 1 0 [])).setCtl 0 { nveCtl with cc := 0 }).nveAbortUnsent 0 none 0x08, by decide +kernel⟩

theorem witness_StorageControllersAndCommits_3 : ∃ (s : State) (f v : Nat) (c : NveCtl), (nveHas s.plan f = true ∧ s.fnAmended f = false) ∧ ((s.ctl f).cc % 2 = 1 ∧ natBits (s.ctl f).cc 15 14 = 0) ∧ (v % 2 = 1 ∧ natBits v 15 14 ≠ 0) ∧ (c = { s.ctl f with cc := v &&& 0x01FFFFF1 }) :=
  ⟨nveState, 0, 0x4001, { nveCtl with cc := 0x4001 }, by decide +kernel⟩

theorem witness_StorageControllersAndCommits_4 : ∃ (s : State) (f n : Nat) (new : NveNs), (f = s.get F.NVE_NS_SEL_STG_FUNCTION ∧ n = s.get F.NVE_NS_SEL_STG_NSID) ∧ (new = ⟨s.rd R.NVE_NS_TGT_STG, s.rd R.NVE_NS_BASE_STG, s.rd R.NVE_NS_SIZE_STG, s.rd R.NVE_NS_CFG_STG⟩) ∧ (nveHas s.plan f = true ∧ 1 ≤ n ∧ n ≤ nveNsMax s.plan f) ∧ (s.underAmendment secNveAlloc 0 f = false) ∧ ((s.conn new.conn).f CI.state = 1 ∧ ((s.conn new.conn).f CI.ownerTd = 0 ∨ (s.conn new.conn).f CI.ownerTd = fnTd s.plan f)) ∧ (new.xts = false ∧ (new.lbads = 9 ∨ new.lbads = 12)) ∧ ((s.nveNs f n).nsze = new.nsze ∧ (s.nveNs f n).lbads = new.lbads ∧ (s.nveNs f n).ro = new.ro) :=
  ⟨((((nveState.setConn 0 (nveConn 1 [])).set F.NVE_NS_SEL_STG_NSID 2).set F.NVE_NS_COMMIT_PENDING 1).wr R.NVE_NS_TGT_STG 5), 0, 2, ⟨5, 0, 0, 12 * 2 ^ 40⟩, by decide +kernel⟩

theorem witness_StorageControllersAndCommits_5 : ∃ (s : State) (f n : Nat) (new : NveNs), (f = s.get F.NVE_NS_SEL_STG_FUNCTION ∧ n = s.get F.NVE_NS_SEL_STG_NSID) ∧ (new = ⟨s.rd R.NVE_NS_TGT_STG, s.rd R.NVE_NS_BASE_STG, s.rd R.NVE_NS_SIZE_STG, s.rd R.NVE_NS_CFG_STG⟩) ∧ (nveHas s.plan f = true ∧ 1 ≤ n ∧ n ≤ nveNsMax s.plan f) ∧ (s.underAmendment secNveAlloc 0 f = false) ∧ (new.xts = false ∧ ((s.conn new.conn).f CI.state ≠ 1 ∨ (new.lbads ≠ 9 ∧ new.lbads ≠ 12))) :=
  ⟨((nveState.set F.NVE_NS_SEL_STG_NSID 2).set F.NVE_NS_COMMIT_PENDING 1), 0, 2, ⟨0, 0, 0, 12 * 2 ^ 40⟩, by decide +kernel⟩

theorem witness_StorageControllersAndCommits_6 : ∃ (s : State) (f : Nat) (u : State), (f = s.get F.NVE_MODE_SEL_STG_FUNCTION) ∧ (nveHas s.plan f = true) ∧ (s.underAmendment secNveAlloc 0 f = false) ∧ (u = (s.set F.NVE_MODE_COMMIT_PENDING 0).wrapBy F.NVE_MODE_GEN_GEN 1) ∧ (((s.ctl f).feat 0x0B).testBit 31 = false) :=
  ⟨(nveState.set F.NVE_MODE_COMMIT_PENDING 1).set F.NVE_MODE_STG_MODE 1, 0, ((((nveState.set F.NVE_MODE_COMMIT_PENDING 1).set F.NVE_MODE_STG_MODE 1).set F.NVE_MODE_COMMIT_PENDING 0).wrapBy F.NVE_MODE_GEN_GEN 1), by decide +kernel⟩

/-- States and operands that meet the hypotheses of each clause of `StorageConnections`. -/
theorem witness_StorageConnections_1 : ∃ (s : State) (c : Nat) (new : NveConn), (c = s.get F.NVE_CONN_SEL_CONN) ∧ ((s.conn c).inst = false ∧ (s.conn c).f CI.state = 0) ∧ (new = { nveConnReset c with img := hSet ((List.range 16).map fun w => s.rd (R.NVE_CONN_IMG w)) CI.state 0, inst := true }) ∧ (s.connsOf (new.f CI.engine) < teEngField s.plan (new.f CI.engine) 8) :=
  ⟨nveState.wr (R.NVE_CONN_IMG 1) 7, 0, { nveConnReset 0 with img := hSet ((List.range 16).map fun w => (nveState.wr (R.NVE_CONN_IMG 1) 7).rd (R.NVE_CONN_IMG w)) CI.state 0, inst := true }, by decide +kernel⟩

theorem witness_StorageConnections_2 : ∃ (s : State), ((s.conn (s.get F.NVE_CONN_SEL_CONN)).inst = true ∨ (s.conn (s.get F.NVE_CONN_SEL_CONN)).f CI.state ≠ 0) :=
  ⟨nveState.setConn 0 (nveConn 1 []), by decide +kernel⟩

theorem witness_StorageConnections_3 : ∃ (s : State) (c : Nat), ((s.conn c).inst = true ∧ (s.conn c).rcv = [] ∧ (s.conn c).finDue = false ∧ s.epHeld (teEp ((s.conn c).f CI.engine)) = false) :=
  ⟨nveState.setConn 0 { nveConn 0 [] with inst := true }, 0, by decide +kernel⟩

theorem witness_StorageConnections_4 : ∃ (s : State) (c : Nat), (c = s.get F.NVE_CONN_SEL_CONN) ∧ ((s.conn c).f CI.state = 1 ∨ (s.conn c).f CI.state = 2) :=
  ⟨nveState.setConn 0 (nveConn 1 []), 0, by decide +kernel⟩

theorem witness_StorageConnections_5 : ∃ (s : State) (c : Nat) (force : Bool), (c = s.get F.NVE_CONN_SEL_CONN) ∧ ((s.conn c).f CI.state = 3) :=
  ⟨nveState.setConn 0 (nveConn 3 []), 0, true, by decide +kernel⟩

theorem witness_StorageConnections_6 : ∃ (s : State) (c : Nat), (c = s.get F.NVE_CONN_SEL_CONN) ∧ ((s.conn c).f CI.state = 1) :=
  ⟨nveState.setConn 0 (nveConn 1 []), 0, by decide +kernel⟩

theorem witness_StorageConnections_7 : ∃ (s : State) (c : Nat), ((s.conn c).f CI.state = 2 ∧ s.epHeld (teEp ((s.conn c).f CI.engine)) = false) ∧ ((s.nve.jobs.any fun (j : NveJob) => j.conn == c && j.cid.isSome) = false) :=
  ⟨nveState.setConn 0 (nveConn 2 []), 0, by decide +kernel⟩

theorem witness_StorageConnections_8 : ∃ (s : State) (c : Nat), (c = s.get F.NVE_CONN_SEL_CONN) :=
  ⟨nveState.setConn 0 (nveConn 1 []), 0, by decide +kernel⟩

theorem witness_StorageConnections_9 : ∃ (s : State) (c : Nat) (b : List Byte) (j : NveJob) (k : NveConn), ((s.conn c).front = some (0x05, b) ∧ (s.conn c).frontBad = 0) ∧ ((s.conn c).f CI.state ≠ 0 ∧ s.teRuns ((s.conn c).f CI.engine) = true) ∧ (s.jobOf c (leAt b 20 2) = some j) ∧ (leAt b 22 2 / 2 ≠ 0 ∨ j.op ≠ 2 ∨ j.dead = true ∨ j.len ≤ j.got) ∧ (k = { s.conn c with rcv := (s.conn c).rcv.drop b.length }) :=
  ⟨nveConnWith 1 (bytesWith 30 [(0, 5), (2, 24), (4, 24), (20, 5), (24, 5)]) (nveReq 1 1 []) 1 [], 0, bytesWith 24 [(0, 5), (2, 24), (4, 24), (20, 5)], nveSent (nveReq 1 1 []) 1 [], nveConn 1 (bytesWith 6 [(0, 5)]), by decide +kernel⟩

theorem witness_StorageConnections_10 : ∃ (s : State) (c : Nat) (b : List Byte) (j : NveJob) (x : NveCmd) (id : Nat) (u v : State), ((s.conn c).front = some (0x07, b) ∧ (s.conn c).frontBad = 0) ∧ ((s.conn c).f CI.state ≠ 0 ∧ s.teRuns ((s.conn c).f CI.engine) = true) ∧ (s.jobOf c (leAt b 8 2) = some j) ∧ (j.op = 2 ∧ leAt b 12 4 + leAt b 16 4 ≤ j.len ∧ j.dead = false ∧ j.owner = some id ∧ s.nveCmd id = some x) ∧ ((s.conn c).f CI.ddgst = 0 ∧ x.ns.xts = false ∧ (leAt b 1 1).testBit 2 = false) ∧ (u = (s.setConn c { s.conn c with rcv := (s.conn c).rcv.drop b.length }).setJob { j with got := j.got + leAt b 16 4 }) ∧ (u.nveToHost x.fn x.prps (j.off + leAt b 12 4) (bytesAt b (leAt b 3 1) (leAt b 16 4)) = (true, v)) :=
  ⟨nveConnWith 1 (bytesWith 28 [(0, 7), (2, 24), (3, 24), (4, 28), (8, 5), (16, 4), (24, 0xAB)]) { nveReq 1 2 [] with prps := [(0x3000, 512)], phase := 3 } 2 [], 0, bytesWith 28 [(0, 7), (2, 24), (3, 24), (4, 28), (8, 5), (16, 4), (24, 0xAB)], nveSent (nveReq 1 2 []) 2 [], { nveReq 1 2 [] with prps := [(0x3000, 512)], phase := 3 }, 7, ((nveConnWith 1 (bytesWith 28 [(0, 7), (2, 24), (3, 24), (4, 28), (8, 5), (16, 4), (24, 0xAB)]) { nveReq 1 2 [] with prps := [(0x3000, 512)], phase := 3 } 2 []).setConn 0 (nveConn 1 [])).setJob { nveSent (nveReq 1 2 []) 2 [] with got := 4 }, ((((nveConnWith 1 (bytesWith 28 [(0, 7), (2, 24), (3, 24), (4, 28), (8, 5), (16, 4), (24, 0xAB)]) { nveReq 1 2 [] with prps := [(0x3000, 512)], phase := 3 } 2 []).setConn 0 (nveConn 1 [])).setJob { nveSent (nveReq 1 2 []) 2 [] with got := 4 }).nveToHost 0 [(0x3000, 512)] 0 [0xAB, 0, 0, 0]).2, by decide +kernel⟩

theorem witness_StorageConnections_11 : ∃ (s : State) (c : Nat) (b : List Byte) (j : NveJob) (k : NveConn), ((s.conn c).front = some (0x09, b) ∧ (s.conn c).frontBad = 0) ∧ (((s.conn c).f CI.state = 1 ∨ (s.conn c).f CI.state = 2) ∧ s.teRuns ((s.conn c).f CI.engine) = true) ∧ (s.jobOf c (leAt b 8 2) = some j) ∧ (leAt b 12 4 + leAt b 16 4 ≤ j.data.length ∧ leAt b 16 4 ≠ 0) ∧ (k = { s.conn c with rcv := (s.conn c).rcv.drop b.length }) :=
  ⟨nveConnWith 1 (bytesWith 24 [(0, 9), (2, 24), (4, 24), (8, 5), (10, 6), (16, 4)]) (nveReq 1 1 []) 1 [1, 2, 3, 4], 0, bytesWith 24 [(0, 9), (2, 24), (4, 24), (8, 5), (10, 6), (16, 4)], nveSent (nveReq 1 1 []) 1 [1, 2, 3, 4], nveConn 1 [], by decide +kernel⟩

theorem witness_StorageConnections_12 : ∃ (s : State) (c : Nat) (b : List Byte), ((s.conn c).front = some (0x03, b) ∧ (s.conn c).frontBad = 0) ∧ (((s.conn c).f CI.state = 1 ∨ (s.conn c).f CI.state = 2) ∧ s.teRuns ((s.conn c).f CI.engine) = true) :=
  ⟨nveConnWith 1 (bytesWith 24 [(0, 3), (2, 24), (4, 24)]) (nveReq 1 1 []) 1 [], 0, bytesWith 24 [(0, 3), (2, 24), (4, 24)], by decide +kernel⟩

theorem witness_StorageConnections_13 : ∃ (s : State) (e c : Nat) (m : Packet) (rest : List Packet) (g : TcpIn), (s.inboxOf (teEp e) = m :: rest) ∧ (hGet m.words CH.kind = kPacket ∧ s.teRuns e = true ∧ parseRoce m.payload = none) ∧ (parseTcp m.payload = some g ∧ s.tcpMatch e g = some c) ∧ (m.poison = false ∧ hGet m.words CH.poison = 0 ∧ s.seqFull e = false) :=
  ⟨(nveState.setConn 0 (nveConn 1 [])).setInbox 0x40 [⟨header [(CH.kind, kPacket)], tcpFrame, false⟩], 0, 0, ⟨header [(CH.kind, kPacket)], tcpFrame, false⟩, [], tcpIn, by decide +kernel⟩

theorem witness_StorageConnections_14 : ∃ (s : State) (e : Nat) (m : Packet) (rest : List Packet) (g : TcpIn), (s.inboxOf (teEp e) = m :: rest) ∧ (hGet m.words CH.kind = kPacket ∧ s.teRuns e = true ∧ parseRoce m.payload = none) ∧ (parseTcp m.payload = none ∨ (parseTcp m.payload = some g ∧ s.tcpMatch e g = none)) :=
  ⟨nveState.setInbox 0x40 [⟨header [(CH.kind, kPacket)], [1, 2], false⟩], 0, ⟨header [(CH.kind, kPacket)], [1, 2], false⟩, [], tcpIn, by decide +kernel⟩

theorem witness_StorageConnections_15 : ∃ (s : State) (c : Nat) (g : NveSeg), ((s.conn c).f CI.state = 1 ∧ s.teRuns ((s.conn c).f CI.engine) = true ∧ s.seqFull ((s.conn c).f CI.engine) = false) ∧ ((s.conn c).segs.head? = some g) ∧ (g.tries < (s.conn c).f CI.retries) :=
  ⟨nveState.setConn 0 { nveConn 1 [] with segs := [⟨9, [1], 0, false⟩] }, 0, ⟨9, [1], 0, false⟩, by decide +kernel⟩

theorem witness_StorageConnections_16 : ∃ (s : State) (c : Nat) (g : NveSeg), ((s.conn c).f CI.state = 1 ∧ s.teRuns ((s.conn c).f CI.engine) = true ∧ s.seqFull ((s.conn c).f CI.engine) = false) ∧ ((s.conn c).segs.head? = some g) ∧ ((s.conn c).f CI.retries ≤ g.tries) :=
  ⟨nveState.setConn 0 { nveConn 1 [] with segs := [⟨9, [1], 3, false⟩] }, 0, ⟨9, [1], 3, false⟩, by decide +kernel⟩

theorem witness_StorageConnections_17 : ∃ (s : State) (c : Nat), ((s.nve.jobs.any fun (j : NveJob) => j.conn == c && j.cid.isSome) = true) ∧ (s.teRuns ((s.conn c).f CI.engine) = true) :=
  ⟨nveConnWith 1 [] (nveReq 1 1 []) 1 [], 0, by decide +kernel⟩

theorem witness_StorageConnections_18 : ∃ (s : State) (e : Nat) (m : Packet) (rest : List Packet) (k : NveCiph) (x : NveCmd), (s.inboxOf (nveEp e) = m :: rest ∧ s.ready = true ∧ s.epHeld (nveEp e) = false) ∧ (hGet m.words CH.kind = kCompletion ∧ hGet m.words CH.status = 0 ∧ m.poison = false ∧ hGet m.words CH.poison = 0) ∧ ((s.nve.ciphs.find? fun (k : NveCiph) => k.ctx == hGet m.words CH.ctx) = some k) ∧ (s.nveCmd k.cmd = some x) :=
  ⟨((nveWith { nveReq 1 1 [] with phase := 1, data := [9, 9, 9, 9] }).withNve { (nveWith { nveReq 1 1 [] with phase := 1, data := [9, 9, 9, 9] }).nve with ciphs := [⟨4, 7, 0, 4, 0, 0⟩] }).setInbox 0x50 [⟨header [(CH.kind, kCompletion), (CH.ctx, 4)], [1, 2, 3, 4], false⟩], 0, ⟨header [(CH.kind, kCompletion), (CH.ctx, 4)], [1, 2, 3, 4], false⟩, [], ⟨4, 7, 0, 4, 0, 0⟩, { nveReq 1 1 [] with phase := 1, data := [9, 9, 9, 9] }, by decide +kernel⟩

theorem witness_StorageConnections_19 : ∃ (s : State) (e : Nat) (m : Packet) (rest : List Packet) (k : NveCiph), (s.inboxOf (nveEp e) = m :: rest ∧ s.ready = true ∧ s.epHeld (nveEp e) = false) ∧ (hGet m.words CH.kind = kCompletion ∧ hGet m.words CH.status ≠ 0) ∧ ((s.nve.ciphs.find? fun (k : NveCiph) => k.ctx == hGet m.words CH.ctx) = some k) ∧ (s.nveCmd k.cmd = none) :=
  ⟨(nveState.withNve { nveState.nve with ciphs := [⟨4, 99, 0, 4, 0, 0⟩] }).setInbox 0x50 [⟨header [(CH.kind, kCompletion), (CH.ctx, 4), (CH.status, 3)], [], false⟩], 0, ⟨header [(CH.kind, kCompletion), (CH.ctx, 4), (CH.status, 3)], [], false⟩, [], ⟨4, 99, 0, 4, 0, 0⟩, by decide +kernel⟩

theorem witness_StorageConnections_20 : ∃ (s : State) (e : Nat) (m : Packet) (rest : List Packet), (s.inboxOf (nveEp e) = m :: rest ∧ s.ready = true ∧ s.epHeld (nveEp e) = false) ∧ (hGet m.words CH.kind = kCompletion) ∧ ((s.nve.ciphs.find? fun (k : NveCiph) => k.ctx == hGet m.words CH.ctx) = none) :=
  ⟨nveState.setInbox 0x50 [⟨header [(CH.kind, kCompletion), (CH.ctx, 4)], [], false⟩], 0, ⟨header [(CH.kind, kCompletion), (CH.ctx, 4)], [], false⟩, [], by decide +kernel⟩

/-- States and operands that meet the hypotheses of each clause of `HostQueueControlAndSending`. -/
theorem witness_HostQueueControlAndSending_1 : ∃ (s : State) (g : Nat) (q : HifQueue), (hqExists s.plan g = true ∧ s.fnAmended (g / 256) = false) ∧ (q = s.hq g) ∧ (q.st = 0 ∧ (q.sqLog2 ≠ 0 ∨ q.rqLog2 ≠ 0) ∧ ringLog2Ok q.sqLog2 = true ∧ ringLog2Ok q.rqLog2 = true) ∧ (q.cqLog2 ≠ 0 ∧ ringLog2Ok q.cqLog2 = true) ∧ ((bitAt q.cfg 12 = true → bitsAt q.cfg 10 0 < fnMsixSize s.plan (g / 256)) ∧ s.busMaster (g / 256) = true) :=
  ⟨hifWith (hifQ 0), 1, hifQ 0, by decide +kernel⟩

theorem witness_HostQueueControlAndSending_2 : ∃ (s : State) (g : Nat), (hqExists s.plan g = true ∧ s.fnAmended (g / 256) = false) ∧ (((s.hq g).st = 1 ∧ (s.hq g).fetch = none) ∨ (s.hq g).st = 2) :=
  ⟨hifWith (hifQ 1), 1, by decide +kernel⟩

theorem witness_HostQueueControlAndSending_3 : ∃ (s : State) (g : Nat), ((s.hq g).st = 3) ∧ ((s.pcie.reqs.any fun (r : HostReq) => r.queue == g) = false) :=
  ⟨(hifWith { hifQ 3 with err := 4 }).withHif { (hifWith { hifQ 3 with err := 4 }).hif with waits := [⟨0, 4, 1, 0, 0, 0⟩] }, 1, by decide +kernel⟩

theorem witness_HostQueueControlAndSending_4 : ∃ (s : State) (g : Nat) (v : Word), (hqExists s.plan g = true ∧ s.fnAmended (g / 256) = false) ∧ (s.epHeld (hifEp (g / 256)) = false ∧ (s.tile (epTile (hifEp (g / 256)))).sky = 0) ∧ ((s.hq g).st = 1) ∧ (diff32 (bitsAt v 31 0) (s.hq g).sqCi ≤ ringSize (s.hq g).sqLog2) :=
  ⟨hifWith (hifQ 1), 1, 64, by decide +kernel⟩

theorem witness_HostQueueControlAndSending_5 : ∃ (s : State) (g : Nat) (v : Word), (hqExists s.plan g = true ∧ s.fnAmended (g / 256) = false) ∧ (s.epHeld (hifEp (g / 256)) = false ∧ (s.tile (epTile (hifEp (g / 256)))).sky = 0) ∧ ((s.hq g).st = 1) ∧ (diff32 (bitsAt v 31 0) (s.hq g).rqCi ≤ ringSize (s.hq g).rqLog2) :=
  ⟨hifWith (hifQ 1), 1, 64, by decide +kernel⟩

theorem witness_HostQueueControlAndSending_6 : ∃ (s : State) (g : Nat) (v : Word), (hqExists s.plan g = true ∧ s.fnAmended (g / 256) = false) ∧ (s.epHeld (hifEp (g / 256)) = false ∧ (s.tile (epTile (hifEp (g / 256)))).sky = 0) ∧ ((s.hq g).st = 1) ∧ (diff32 (s.hq g).cqPi (bitsAt v 31 0) ≤ ringSize (s.hq g).cqLog2) :=
  ⟨hifWith { hifQ 1 with cqPi := 7 }, 1, 7, by decide +kernel⟩

theorem witness_HostQueueControlAndSending_7 : ∃ (s : State) (g : Nat) (v : Word), (hqExists s.plan g = true ∧ s.fnAmended (g / 256) = false) ∧ (s.epHeld (hifEp (g / 256)) = true) :=
  ⟨(hifWith (hifQ 1)).setTile (epTile 0x10) { (hifWith (hifQ 1)).tile (epTile 0x10) with hold := true }, 1, 3, by decide +kernel⟩

theorem witness_HostQueueControlAndSending_8 : ∃ (s : State) (g : Nat) (v : Word), (hqExists s.plan g = true ∧ s.fnAmended (g / 256) = false) ∧ (s.epHeld (hifEp (g / 256)) = false ∧ (s.tile (epTile (hifEp (g / 256)))).sky = 0) ∧ ((s.hq g).st = 1 ∧ (s.hq g).fetch = none) ∧ (ringSize (s.hq g).sqLog2 < diff32 (bitsAt v 31 0) (s.hq g).sqCi) :=
  ⟨hifWith (hifQ 1), 1, 65, by decide +kernel⟩

theorem witness_HostQueueControlAndSending_9 : ∃ (s : State) (g : Nat), (g = s.get F.HIF_Q_SEL_Q ∧ hqExists s.plan g = true ∧ s.fnAmended (g / 256) = false) ∧ ((s.hq g).st = 1 ∧ (s.hq g).fetch = none) :=
  ⟨(hifWith (hifQ 1)).set F.HIF_Q_SEL_Q 1, 1, by decide +kernel⟩

theorem witness_HostQueueControlAndSending_10 : ∃ (s : State), (hqExists s.plan (s.get F.HIF_Q_SEL_Q) = false) :=
  ⟨hifState.set F.HIF_Q_SEL_Q 300, by decide +kernel⟩

theorem witness_HostQueueControlAndSending_11 : ∃ (s : State) (g tag a : Nat), (s.taking = true ∧ s.epHeld (hifEp (g / 256)) = false ∧ (s.hq g).st = 1) ∧ ((s.pcie.reqs.any fun (r : HostReq) => r.queue == g) = false ∧ (s.hq g).fetch = none ∧ (s.hq g).sqPi ≠ (s.hq g).sqCi) ∧ (s.hqTurn (g / 256 / 1024) = some g) ∧ (s.dmaOpen (g / 256) = true) ∧ (a = (s.hq g).sqBase.toNat + 64 * ((s.hq g).sqCi % 2 ^ (s.hq g).sqLog2)) ∧ ((s.pickTag (fnPort (g / 256))).1 = some tag) :=
  ⟨hifWith { hifQ 1 with sqPi := 2 }, 1, (((hifWith { hifQ 1 with sqPi := 2 }).pickTag 0).1.getD 0), 0x10000, ⟨by first | decide +kernel | rfl, by first | decide +kernel | rfl, by first | decide +kernel | rfl⟩, ⟨by first | decide +kernel | rfl, by first | decide +kernel | rfl, by first | decide +kernel | rfl⟩, by first | decide +kernel | rfl, by first | decide +kernel | rfl, by first | decide +kernel | rfl, by first | decide +kernel | rfl⟩

theorem witness_HostQueueControlAndSending_12 : ∃ (s : State) (g : Nat), ((s.hq g).fetch = none ∧ s.hqTurn (g / 256 / 1024) ≠ some g) :=
  ⟨hifWith (hifQ 1), 1, by decide +kernel⟩

theorem witness_HostQueueControlAndSending_13 : ∃ (s : State) (g : Nat), (s.ready = true ∧ s.epHeld (hifEp (g / 256)) = false ∧ (s.hq g).st = 1 ∧ (s.hq g).fetch = none) :=
  ⟨hifWith (hifQ 1), 1, by decide +kernel⟩

theorem witness_HostQueueControlAndSending_14 : ∃ (s : State) (g : Nat) (x : HifFetch) (d : List Byte), (s.ready = true ∧ s.epHeld (hifEp (g / 256)) = false ∧ (s.hq g).st = 1) ∧ ((s.hq g).fetch = some x ∧ x.whole = true ∧ dOpcode x.slots = 1) ∧ (dTsReq x.slots = false ∧ dSignaled x.slots = false ∧ offload x.slots x.data = some d) :=
  ⟨hifWith { hifQ 1 with sqPi := 2, fetch := some (hifFetch 1) }, 1, hifFetch 1, bytesWith 20 [(3, 7)], by decide +kernel⟩

theorem witness_HostQueueControlAndSending_15 : ∃ (s : State) (g : Nat) (x : HifFetch) (d : List Byte), (s.ready = true ∧ s.epHeld (hifEp (g / 256)) = false ∧ (s.hq g).st = 1) ∧ ((s.hq g).fetch = some x ∧ x.whole = true ∧ dOpcode x.slots = 2) ∧ (dTsReq x.slots = false ∧ dSignaled x.slots = false ∧ offload x.slots x.data = some d) :=
  ⟨hifWith { hifQ 1 with sqPi := 2, fetch := some (hifFetch 2) }, 1, hifFetch 2, bytesWith 20 [(3, 7)], by decide +kernel⟩

theorem witness_HostQueueControlAndSending_16 : ∃ (s : State) (g : Nat) (x : HifFetch), (s.ready = true ∧ s.epHeld (hifEp (g / 256)) = false ∧ (s.hq g).st = 1) ∧ ((s.hq g).fetch = some x ∧ x.whole = true ∧ dOpcode x.slots = 3 ∧ dSignaled x.slots = false ∧ dTsReq x.slots = false) :=
  ⟨hifWith { hifQ 1 with sqPi := 2, fetch := some (hifFetch 3) }, 1, hifFetch 3, by decide +kernel⟩

theorem witness_HostQueueControlAndSending_17 : ∃ (s : State) (g : Nat) (x : HifFetch) (u : State), (s.ready = true ∧ s.epHeld (hifEp (g / 256)) = false ∧ (s.hq g).st = 1) ∧ ((s.hq g).fetch = some x ∧ x.whole = true ∧ x.refused = false ∧ dOpcode x.slots = 3 ∧ dTsReq x.slots = true) ∧ (u = (s.setHq g { s.hq g with sqCi := ((s.hq g).sqCi + dSlots x.slots) % 2 ^ 32, fetch := none }).send (hifEp (g / 256)) ⟨carrierHeader s.plan (g / 256) x.slots x.time, x.data, false⟩) :=
  ⟨hifWith { hifQ 1 with sqPi := 2, fetch := some { hifFetch 3 with slots := bytesWith 64 [(0, 20), (6, 3), (7, 3)] } }, 1, { hifFetch 3 with slots := bytesWith 64 [(0, 20), (6, 3), (7, 3)] }, (hifWith { hifQ 1 with sqPi := 2, sqCi := 1, fetch := none }).send 0x10 ⟨carrierHeader hifPlan 0 (bytesWith 64 [(0, 20), (6, 3), (7, 3)]) 5, bytesWith 20 [(3, 7)], false⟩, by decide +kernel⟩

theorem witness_HostQueueControlAndSending_18 : ∃ (s : State) (g : Nat) (x : HifFetch) (u : State), (s.ready = true ∧ s.epHeld (hifEp (g / 256)) = false ∧ (s.hq g).st = 1) ∧ ((s.hq g).fetch = some x ∧ x.whole = true ∧ dOpcode x.slots = 0x0F ∧ dTsReq x.slots = false) ∧ (u = s.setHq g { s.hq g with sqCi := ((s.hq g).sqCi + dSlots x.slots) % 2 ^ 32, fetch := none }) :=
  ⟨hifWith { hifQ 1 with sqPi := 2, fetch := some (hifFetch 15) }, 1, hifFetch 15, hifWith { hifQ 1 with sqPi := 2, sqCi := 1, fetch := none }, by decide +kernel⟩

theorem witness_HostQueueControlAndSending_19 : ∃ (s : State) (g : Nat) (x : HifFetch) (u : State), (s.ready = true ∧ s.epHeld (hifEp (g / 256)) = false ∧ (s.hq g).st = 1) ∧ ((s.hq g).fetch = some x ∧ x.whole = true ∧ dOpcode x.slots = 0x0F ∧ dTsReq x.slots = true) ∧ (u = s.setHq g { s.hq g with sqCi := ((s.hq g).sqCi + dSlots x.slots) % 2 ^ 32, fetch := none }) :=
  ⟨hifWith { hifQ 1 with sqPi := 2, fetch := some { hifFetch 15 with slots := bytesWith 64 [(0, 20), (6, 3), (7, 15)] } }, 1, { hifFetch 15 with slots := bytesWith 64 [(0, 20), (6, 3), (7, 15)] }, hifWith { hifQ 1 with sqPi := 2, sqCi := 1, fetch := none }, by decide +kernel⟩

theorem witness_HostQueueControlAndSending_20 : ∃ (s : State) (e : Nat) (m : Packet) (rest : List Packet) (w : TsWait), (s.epHeld (0x10 + e) = false) ∧ (s.inboxOf (0x10 + e) = m :: rest ∧ hGet m.words CH.kind = kEvent ∧ hGet m.words CH.opcode = 0x310) ∧ (s.tsWait e (hGet m.words CH.operand % 4096) = some w) ∧ (w.queue ≠ 0x100000 ∧ (s.hq w.queue).st ≠ 0) :=
  ⟨((hifWith (hifQ 1)).withHif { (hifWith (hifQ 1)).hif with waits := [⟨0, 4, 1, 0, 9, 0⟩] }).setInbox 0x10 [⟨header [(CH.kind, kEvent), (CH.opcode, 0x310), (CH.operand, 4)], [], false⟩], 0, ⟨header [(CH.kind, kEvent), (CH.opcode, 0x310), (CH.operand, 4)], [], false⟩, [], ⟨0, 4, 1, 0, 9, 0⟩, by decide +kernel⟩

theorem witness_HostQueueControlAndSending_21 : ∃ (s : State) (e tag : Nat) (w : TsWait), (s.epHeld (0x10 + e) = false) ∧ (((s.inboxOf (0x10 + e)).any fun (m : Packet) => isTxReport m && hGet m.words CH.operand % 4096 == tag) = false) ∧ (s.tsWait e tag = some w) ∧ (w.queue ≠ 0x100000 ∧ (s.hq w.queue).st ≠ 0) :=
  ⟨(hifWith (hifQ 1)).withHif { (hifWith (hifQ 1)).hif with waits := [⟨0, 4, 1, 0, 9, 0⟩] }, 0, 4, ⟨0, 4, 1, 0, 9, 0⟩, by decide +kernel⟩

theorem witness_HostQueueControlAndSending_22 : ∃ (s : State) (g : Nat), (s.epHeld (hifEp (g / 256)) = false) ∧ ((s.hq g).armed = true ∧ 1 ≤ (s.hq g).pendingCount ∧ bitsAt (s.hq g).mod 31 16 ≠ 0) :=
  ⟨hifWith { hifQ 1 with armed := true, cqPi := 1, mod := 0x50004 }, 1, by decide +kernel⟩

/-- States and operands that meet the hypotheses of each clause of `HostReceptionAndMemoryCommands`. -/
theorem witness_HostReceptionAndMemoryCommands_1 : ∃ (s : State) (e g used placed : Nat) (m : Packet) (rest : List Packet) (descs : List Byte) (d : DmaEnd) (u : State), (s.ready = true ∧ s.epHeld (0x10 + e) = false) ∧ (s.inboxOf (0x10 + e) = m :: rest) ∧ (hGet m.words CH.kind = kPacket ∨ hGet m.words CH.kind = kMessage) ∧ (g = hGet m.words CH.dstQueue ∧ g < 2 ^ 20 ∧ g / 256 / 1024 = e ∧ s.dmaWaits (g / 256) = false) ∧ (hqExists s.plan g = true ∧ s.fnEnabled (g / 256) = true ∧ (hGet m.words CH.td = 0 ∨ hGet m.words CH.td = fnTd s.plan (g / 256))) ∧ ((s.hq g).st = 1 ∧ (s.hq g).rqLog2 ≠ 0 ∧ hGet m.words CH.poison = 0 ∧ m.poison = false ∧ (s.hq g).rqPi ≠ (s.hq g).rqCi) ∧ ((s.setInbox (0x10 + e) rest).placeReceive g descs d (min 16 (diff32 (s.hq g).rqPi (s.hq g).rqCi)) (min 16 (diff32 (s.hq g).rqPi (s.hq g).rqCi)) 0 0 m.payload = (0, used, placed, u)) :=
  ⟨(hifWith { hifQ 1 with rqPi := 2 }).setInbox 0x10 [hifPacket], 0, 1, 1, 60, hifPacket, [], bytesWith 32 [(1, 0x50), (9, 1)], .ok, (((hifWith { hifQ 1 with rqPi := 2 }).setInbox 0x10 []).placeReceive 1 (bytesWith 32 [(1, 0x50), (9, 1)]) .ok 2 2 0 0 hifPacket.payload).2.2.2, by decide +kernel⟩

theorem witness_HostReceptionAndMemoryCommands_2 : ∃ (s : State) (e g : Nat) (m : Packet) (rest : List Packet) (descs : List Byte) (d : DmaEnd), (s.ready = true ∧ s.epHeld (0x10 + e) = false) ∧ (s.inboxOf (0x10 + e) = m :: rest) ∧ (hGet m.words CH.kind = kPacket ∨ hGet m.words CH.kind = kMessage) ∧ (g = hGet m.words CH.dstQueue ∧ g < 2 ^ 20 ∧ g / 256 / 1024 = e ∧ s.dmaWaits (g / 256) = false) ∧ (hqExists s.plan g = true ∧ s.fnEnabled (g / 256) = true ∧ (hGet m.words CH.td = 0 ∨ hGet m.words CH.td = fnTd s.plan (g / 256))) ∧ ((s.hq g).st ≠ 1 ∨ (s.hq g).rqLog2 = 0 ∨ m.poison = true ∨ (s.hq g).rqPi = (s.hq g).rqCi) :=
  ⟨(hifWith (hifQ 1)).setInbox 0x10 [hifPacket], 0, 1, hifPacket, [], [], .ok, by decide +kernel⟩

theorem witness_HostReceptionAndMemoryCommands_3 : ∃ (s : State) (e f n : Nat) (m : Packet) (rest : List Packet) (data : List Byte), (s.ready = true ∧ s.epHeld (0x10 + e) = false) ∧ (s.inboxOf (0x10 + e) = m :: rest ∧ hGet m.words CH.kind = kCommand ∧ hGet m.words CH.opcode = 0x501) ∧ (f = hGet m.words CH.dstQueue ∧ f < 4096 ∧ f / 1024 = e ∧ fnPresent s.plan f = true ∧ hGet m.words CH.td = fnTd s.plan f) ∧ (m.payload.length = 16 ∧ leAt m.payload 12 4 = 0 ∧ n = leAt m.payload 8 4 ∧ 1 ≤ n ∧ n ≤ 65535) ∧ (m.poison = false ∧ hGet m.words CH.poison = 0 ∧ s.dmaOpen f = true) :=
  ⟨hifHolds (hostCmd 0x501 0 (bytesWith 16 [(1, 0x40), (8, 4)])), 0, 0, 4, hostCmd 0x501 0 (bytesWith 16 [(1, 0x40), (8, 4)]), [], [1, 2, 3, 4], by decide +kernel⟩

theorem witness_HostReceptionAndMemoryCommands_4 : ∃ (s : State) (e f n : Nat) (m : Packet) (rest : List Packet), (s.ready = true ∧ s.epHeld (0x10 + e) = false) ∧ (s.inboxOf (0x10 + e) = m :: rest ∧ hGet m.words CH.kind = kCommand ∧ hGet m.words CH.opcode = 0x502) ∧ (f = hGet m.words CH.dstQueue ∧ f < 4096 ∧ f / 1024 = e ∧ fnPresent s.plan f = true ∧ hGet m.words CH.td = fnTd s.plan f) ∧ (n = leAt m.payload 8 4 ∧ m.payload.length = 16 + n ∧ leAt m.payload 12 4 = 0 ∧ 1 ≤ n ∧ n ≤ 65519) ∧ (m.poison = false ∧ hGet m.words CH.poison = 0 ∧ s.dmaOpen f = true) :=
  ⟨hifHolds (hostCmd 0x502 0 (bytesWith 20 [(1, 0x40), (8, 4), (16, 9)])), 0, 0, 4, hostCmd 0x502 0 (bytesWith 20 [(1, 0x40), (8, 4), (16, 9)]), [], by decide +kernel⟩

theorem witness_HostReceptionAndMemoryCommands_5 : ∃ (s : State) (e f : Nat) (m : Packet) (rest : List Packet), (s.ready = true ∧ s.epHeld (0x10 + e) = false) ∧ (s.inboxOf (0x10 + e) = m :: rest ∧ hGet m.words CH.kind = kCommand ∧ hGet m.words CH.opcode = 0x503) ∧ (f = hGet m.words CH.dstQueue ∧ f < 4096 ∧ f / 1024 = e ∧ fnPresent s.plan f = true ∧ hGet m.words CH.td = fnTd s.plan f) ∧ (m.payload.length = 16 ∧ leAt m.payload 8 8 = 0 ∧ hGet m.words CH.operand % 2048 < fnMsixSize s.plan f) ∧ (m.poison = false ∧ hGet m.words CH.poison = 0 ∧ s.busMaster f = true) :=
  ⟨hifHolds (hostCmd 0x503 0 (bytesWith 16 [(1, 0x40)])), 0, 0, hostCmd 0x503 0 (bytesWith 16 [(1, 0x40)]), [], by decide +kernel⟩

theorem witness_HostReceptionAndMemoryCommands_6 : ∃ (s : State) (e f : Nat) (m : Packet) (rest : List Packet) (data : List Byte) (d : DmaEnd), (s.ready = true ∧ s.epHeld (0x10 + e) = false) ∧ (s.inboxOf (0x10 + e) = m :: rest ∧ hGet m.words CH.kind = kCommand ∧ hGet m.words CH.opcode = 0x501) ∧ (f = hGet m.words CH.dstQueue ∧ f < 4096 ∧ f / 1024 = e ∧ hGet m.words CH.td ≠ fnTd s.plan f) :=
  ⟨hifHolds (hostCmd 0x501 3 (bytesWith 16 [(1, 0x40), (8, 4)])), 0, 0, hostCmd 0x501 3 (bytesWith 16 [(1, 0x40), (8, 4)]), [], [1, 2, 3, 4], .ok, by decide +kernel⟩

theorem witness_HostReceptionAndMemoryCommands_7 : ∃ (s : State) (f k : Nat) (v : Word), (fnHoldsQueues s.plan f = true ∧ s.fnAmended f = false) ∧ (bitsAt v 7 0 < fnQpLimit s.plan f ∧ bitsAt v 39 32 < fnQpLimit s.plan f) :=
  ⟨hifState, 0, 5, 0x200000003, by decide +kernel⟩

theorem witness_HostReceptionAndMemoryCommands_8 : ∃ (s : State) (f k : Nat) (v : Word), (fnHoldsQueues s.plan f = true ∧ s.fnAmended f = false) ∧ (fnQpLimit s.plan f ≤ bitsAt v 7 0) :=
  ⟨hifState, 0, 5, 0x200000004, by decide +kernel⟩

/-- States and operands that meet the hypotheses of each clause of `HostRequests`. -/
theorem witness_HostRequests_1 : ∃ (s : State) (f o be v : Nat), (s.epHeld (hifEp f) = false ∧ s.refusing = false ∧ s.fnThere f = true) ∧ (o % 4 = 0) :=
  ⟨hifState, 0, 0x100, 0, 0, by decide +kernel⟩

theorem witness_HostRequests_2 : ∃ (s : State) (f v : Nat), (s.epHeld (hifEp f) = false ∧ s.refusing = false ∧ s.fnThere f = true) ∧ (s.tdiLocked f = false ∧ (s.cfg f 0x04).testBit 2 = false) :=
  ⟨hifState.setCfg 0 4 2, 0, 6, by decide +kernel⟩

theorem witness_HostRequests_3 : ∃ (s : State) (f o be v : Nat) (write : Bool), (f < 4096 ∧ s.epHeld (hifEp f) = false ∧ s.refusing = false ∧ s.fnThere f = false) :=
  ⟨hifState, 1, 0, 15, 3, true, by decide +kernel⟩

theorem witness_HostRequests_4 : ∃ (s : State) (o tag : Nat) (ecc : EccResult), (s.epHeld (hifEp 0) = false ∧ s.refusing = false ∧ s.fnThere 0 = true ∧ s.memEnabled 0 = true ∧ s.tdiLocked 0 = false) ∧ (o < 0x20000000 ∧ o % 8 = 0) :=
  ⟨hifState, 0x00000028, 5, .clean, by decide +kernel⟩

theorem witness_HostRequests_5 : ∃ (s : State) (f o n tag a td : Nat), (s.epHeld (hifEp f) = false ∧ s.refusing = false ∧ s.fnThere f = true ∧ s.memEnabled f = true ∧ s.tdiLocked f = false) ∧ (s.barTarget f 4 o = .aperture) ∧ (s.get (F.HIF_ATW_COMMIT_PENDING (f / 1024)) = 0) ∧ (s.atwMatch (f / 1024) o n false = some (a, td) ∧ tdOwnsRange s.plan td a n = true ∧ s.poisoned a n = false) :=
  ⟨((hifState.setCfg 0 4 6).wr (R.HIF_ATW_LIVE_A 0 3) (BitVec.ofNat 64 (7 * 2 ^ 61 + 14 * 2 ^ 48))).wr (R.HIF_ATW_LIVE_B 0 3) 0x200000, 0, 0x1000, 8, 5, 0x201000, 0, by decide +kernel⟩

theorem witness_HostRequests_6 : ∃ (s : State) (f bar o n tag : Nat) (ecc : EccResult), (f < 4096 ∧ s.epHeld (hifEp f) = false ∧ s.refusing = true ∧ s.bootWindow f = false) :=
  ⟨hifState.set F.BOOT_STATUS_PHASE 1, 0, 0, 0, 8, 5, .clean, by decide +kernel⟩

theorem witness_HostRequests_7 : ∃ (s : State) (f o a td : Nat) (data : List Byte) (env : CsrEnv) (h : TeHost), (s.epHeld (hifEp f) = false ∧ s.refusing = false ∧ s.fnThere f = true ∧ s.memEnabled f = true ∧ s.tdiLocked f = false) ∧ (s.barTarget f 4 o = .aperture) ∧ (s.get (F.HIF_ATW_COMMIT_PENDING (f / 1024)) = 0) ∧ (s.atwMatch (f / 1024) o data.length true = some (a, td) ∧ tdOwnsRange s.plan td a data.length = true) :=
  ⟨((hifState.setCfg 0 4 6).wr (R.HIF_ATW_LIVE_A 0 3) (BitVec.ofNat 64 (7 * 2 ^ 61 + 14 * 2 ^ 48))).wr (R.HIF_ATW_LIVE_B 0 3) 0x200000, 0, 0x1000, 0x201000, 0, [1, 2, 3], noEnv, noHost, by decide +kernel⟩

theorem witness_HostRequests_8 : ∃ (s : State) (o : Nat) (data : List Byte) (env : CsrEnv) (h : TeHost), (s.epHeld (hifEp 0) = false ∧ s.refusing = false ∧ s.fnThere 0 = true ∧ s.memEnabled 0 = true ∧ s.tdiLocked 0 = false) ∧ (o < 0x20000000 ∧ o % 8 = 0 ∧ data.length = 8) :=
  ⟨hifState, R.SITE_QUIESCE_LIMIT, [5, 0, 0, 0, 0, 0, 0, 0], noEnv, noHost, by decide +kernel⟩

theorem witness_HostRequests_9 : ∃ (s : State) (f tag : Nat), (f < 4096 ∧ s.epHeld (hifEp f) = false) :=
  ⟨hifState, 0, 5, by decide +kernel⟩

theorem witness_HostRequests_10 : ∃ (s : State) (pf : Nat), (pf < 4 ∧ pfAtwLog2 s.plan pf ≠ 0 ∧ s.get (F.HIF_ATW_COMMIT_PENDING pf) = 0) ∧ (((List.range 256).find? (s.atwBad pf)) = none ∧ s.tdiLocked (1024 * pf) = false) :=
  ⟨hifState, 0, by decide +kernel⟩

theorem witness_HostRequests_11 : ∃ (s : State) (pf w : Nat), (pf < 4 ∧ pfAtwLog2 s.plan pf ≠ 0 ∧ s.get (F.HIF_ATW_COMMIT_PENDING pf) = 0) ∧ (((List.range 256).find? (s.atwBad pf)) = some w) :=
  ⟨hifState.wr (R.HIF_ATW_STG_A 0 3) (2 ^ 63), 0, 3, by decide +kernel⟩

theorem witness_HostRequests_12 : ∃ (s : State) (pf : Nat), (pf < 4 ∧ pfAtwLog2 s.plan pf ≠ 0 ∧ s.get (F.HIF_ATW_COMMIT_PENDING pf) = 0) ∧ (s.tdiLocked (1024 * pf) = true) :=
  ⟨hifState.withPcie { hifState.pcie with tdi := [(0, 1)] }, 0, by decide +kernel⟩

theorem witness_HostRequests_13 : ∃ (s : State) (pf : Nat), (pf < 4 ∧ s.get (F.HIF_ATW_COMMIT_PENDING pf) = 1) :=
  ⟨(hifState.set (F.HIF_ATW_COMMIT_PENDING 0) 1).wr (R.HIF_ATW_STG_A 0 3) 7, 0, by decide +kernel⟩

theorem witness_HostRequests_14 : ∃ (s : State) (f : Nat), (s.epHeld (hifEp f) = false ∧ s.refusing = false ∧ s.fnThere f = true) ∧ (fnIsVf f = true ∨ s.activeVfs (f / 1024) = []) :=
  ⟨((hifWith (hifQ 1)).setCfg 0 0x3C 5).setMsixWord 0 3 1 5, 0, by decide +kernel⟩

theorem witness_HostRequests_15 : ∃ (s : State) (f : Nat), (s.epHeld (hifEp f) = false ∧ s.refusing = false ∧ s.fnThere f = true ∧ s.busMaster f = true ∧ s.tdiLocked f = false) :=
  ⟨hifWith (hifQ 1), 0, by decide +kernel⟩

theorem witness_HostRequests_16 : ∃ (s : State) (pf : Nat), (s.epHeld (hifEp (1024 * pf)) = false ∧ s.refusing = false ∧ s.fnThere (1024 * pf) = true ∧ (s.cfg (1024 * pf) 0x338).testBit 0 = true) :=
  ⟨(hifState.setCfg 0 0x338 1).setCfg 0 0x340 2, 0, by decide +kernel⟩

theorem witness_HostRequests_17 : ∃ (s : State) (f tag a log2 : Nat) (pasid : Option Nat), (s.epHeld (hifEp f) = false ∧ s.refusing = false ∧ s.fnThere f = true) ∧ ((s.cfg f 0x2F4).testBit 31 = true) :=
  ⟨(hifState.setCfg 0 0x2F4 (2 ^ 31)).withPcie { (hifState.setCfg 0 0x2F4 (2 ^ 31)).pcie with ats := [⟨0, none, 0x4000, 12, 0x8000, true, true⟩, ⟨0, none, 0x9000, 12, 0x8000, true, true⟩] }, 0, 5, 0x4000, 13, none, by decide +kernel⟩

theorem witness_HostRequests_18 : ∃ (s : State) (f o be v : Nat) (write : Bool) (stream : Option Nat) (good : Bool), (s.epHeld (hifEp f) = true) :=
  ⟨hifState.setTile (epTile 0x10) { hifState.tile (epTile 0x10) with hold := true }, 0, 0x100, 15, 3, true, none, true, by decide +kernel⟩

theorem witness_HostRequests_19 : ∃ (s : State) (f code data : Nat), (s.epHeld (hifEp f) = false) :=
  ⟨hifState, 0, 0x50, 77, by decide +kernel⟩

/-- States and operands that meet the hypotheses of each clause of `PcieCompletionsAndLinks`. -/
theorem witness_PcieCompletionsAndLinks_1 : ∃ (s : State) (port link tag f : Nat) (data : List Byte) (r : HostReq), (s.epHeld (hifEp f) = false) ∧ (s.findReq port tag = some r ∧ r.fn = f ∧ fnLink (s.strap port) f = link) :=
  ⟨(hifWith { hifQ 1 with sqPi := 2, fetch := some ⟨[], [], 0, 0, false, false, 0, 0⟩ }).withPcie { (hifWith { hifQ 1 with sqPi := 2, fetch := some ⟨[], [], 0, 0, false, false, 0, 0⟩ }).pcie with reqs := [⟨0, 4, 0, 0x10000, 64, 1, [], none⟩] }, 0, 0, 4, 0, bytesWith 64 [(7, 15)], ⟨0, 4, 0, 0x10000, 64, 1, [], none⟩, by decide +kernel⟩

theorem witness_PcieCompletionsAndLinks_2 : ∃ (s : State) (port link tag f : Nat) (ok poison : Bool) (data : List Byte), (s.epHeld (hifEp f) = false) ∧ (s.findReq port tag = none) :=
  ⟨hifState, 0, 0, 4, 0, true, false, [1], by decide +kernel⟩

theorem witness_PcieCompletionsAndLinks_3 : ∃ (s : State) (port tag : Nat) (r : HostReq), (s.findReq port tag = some r ∧ s.epHeld (hifEp r.fn) = false ∧ r.queue = 0x100000) ∧ ((fnStrict s.plan r.fn = true → ∀ x ∈ s.pcie.reqs, x.fn = r.fn → x.got.length < x.len)) :=
  ⟨hifState.withPcie { hifState.pcie with reqs := [⟨0, 4, 0, 0x10000, 64, 0x100000, [], none⟩] }, 0, 4, ⟨0, 4, 0, 0x10000, 64, 0x100000, [], none⟩, by decide +kernel⟩

theorem witness_PcieCompletionsAndLinks_4 : ∃ (s : State) (port tag : Nat) (r : HostReq), (s.findReq port tag = some r ∧ s.epHeld (hifEp r.fn) = false ∧ r.queue < 0x100000) ∧ ((s.hq r.queue).st = 1 ∧ (s.hq r.queue).fetch.all (fun x => !x.whole) = true) ∧ ((fnStrict s.plan r.fn = true → ∀ x ∈ s.pcie.reqs, x.fn = r.fn → x.got.length < x.len)) :=
  ⟨(hifWith (hifQ 1)).withPcie { (hifWith (hifQ 1)).pcie with reqs := [⟨0, 4, 0, 0x10000, 64, 1, [], none⟩] }, 0, 4, ⟨0, 4, 0, 0x10000, 64, 1, [], none⟩, by decide +kernel⟩

theorem witness_PcieCompletionsAndLinks_5 : ∃ (s : State) (port tag : Nat), (s.epHeld (hifEp (2048 * port)) = false) :=
  ⟨hifState.setQuarantine [(0, 4), (0, 5)], 0, 4, by decide +kernel⟩

theorem witness_PcieCompletionsAndLinks_6 : ∃ (s : State) (port link : Nat), (port < 2 ∧ link < 4 ∧ s.linkUp port link = true) :=
  ⟨hifState.set (linkFld 0 0) 0xB4, 0, 0, by decide +kernel⟩

theorem witness_PcieCompletionsAndLinks_7 : ∃ (s : State) (port link rate width : Nat) (flit drs : Bool), (port < 2 ∧ s.pins.sysRst = true ∧ s.perstHigh port = true) ∧ (link < linkCount (s.strap port) ∧ width ≤ linkWidthLog2 (s.strap port) ∧ 1 ≤ rate ∧ rate ≤ 6 ∧ (rate = 6 → flit = true)) :=
  ⟨(hifState.withPins { hifState.pins with sysRst := true, perst0 := true }), 0, 0, 5, 4, true, true, by decide +kernel⟩

theorem witness_PcieCompletionsAndLinks_8 : ∃ (s : State) (port link : Nat), (s.linkUp port link = true ∧ (s.l1Pm port link = true ∨ s.l1Enabled port link = true) ∧ spGet (fun _ => 0) s.pcie.l1 (4 * port + link) = 0) :=
  ⟨(hifState.set (linkFld 0 0) 0xB4).setCfg 0 0x70 2 |>.setCfg 1024 0x70 2, 0, 0, by decide +kernel⟩

theorem witness_PcieCompletionsAndLinks_9 : ∃ (s : State) (port link tx rx cap : Nat) (grant : Bool), (s.linkFlit port link = true ∧ s.get (F.HIF_PORT_L0P_EN port) = 1) ∧ (100 * tx < s.get (F.HIF_PORT_L0P_LOW_PCT port) * cap ∧ 100 * rx < s.get (F.HIF_PORT_L0P_LOW_PCT port) * cap) ∧ (100 * tx ≤ s.get (F.HIF_PORT_L0P_HIGH_PCT port) * cap ∧ 100 * rx ≤ s.get (F.HIF_PORT_L0P_HIGH_PCT port) * cap) ∧ (2 ≤ s.curWidth port link) :=
  ⟨((hifState.set (linkFld 0 0) 0xF4).set (F.HIF_PORT_L0P_EN 0) 1).set (F.HIF_PORT_L0P_LOW_PCT 0) 30 |>.set (F.HIF_PORT_L0P_HIGH_PCT 0) 60, 0, 0, 1, 2, 100, true, by decide +kernel⟩

theorem witness_PcieCompletionsAndLinks_10 : ∃ (s : State) (port link tx rx cap : Nat) (grant : Bool), (s.linkFlit port link = true ∧ s.get (F.HIF_PORT_L0P_EN port) = 1) ∧ (s.get (F.HIF_PORT_L0P_HIGH_PCT port) * cap < 100 * tx ∨ s.get (F.HIF_PORT_L0P_HIGH_PCT port) * cap < 100 * rx) ∧ (s.maxWidth port link ≠ s.curWidth port link) :=
  ⟨(((hifState.set (linkFld 0 0) 0xF2).set (F.HIF_PORT_L0P_EN 0) 1).withPcie { ((hifState.set (linkFld 0 0) 0xF2).set (F.HIF_PORT_L0P_EN 0) 1).pcie with linkMax := [(0, 4)] }).set (F.HIF_PORT_L0P_HIGH_PCT 0) 60, 0, 0, 90, 2, 100, true, by decide +kernel⟩

theorem witness_PcieCompletionsAndLinks_11 : ∃ (s : State) (port link width : Nat), (s.linkFlit port link = true ∧ 1 ≤ width ∧ width ≤ s.maxWidth port link) :=
  ⟨(hifState.set (linkFld 0 0) 0xF2).withPcie { (hifState.set (linkFld 0 0) 0xF2).pcie with linkMax := [(0, 4)] }, 0, 0, 3, by decide +kernel⟩

/-- States and operands that meet the hypotheses of each clause of `SpdmRequests`. -/
theorem witness_SpdmRequests_1 : ∃ (s : State) (pf : Nat) (r : SpdmReq) (b : List Byte), (s.epHeld (hifEp (1024 * pf)) = false ∧ s.doeReady pf = true ∧ r.version = 0x10 ∧ r.session = none) ∧ (b = spdmBytes 0x10 0x04 0 0 [0, 1, 0, 0x13]) :=
  ⟨spdmState true, 0, { spdmReq 0 0 none [] with version := 0x10 }, spdmBytes 0x10 0x04 0 0 [0, 1, 0, 0x13], ⟨by first | decide +kernel | rfl, by first | decide +kernel | rfl, by first | decide +kernel | rfl, by first | decide +kernel | rfl⟩, by first | decide +kernel | rfl⟩

theorem witness_SpdmRequests_2 : ∃ (s : State) (pf : Nat) (r : SpdmReq) (b : List Byte), (s.epHeld (hifEp (1024 * pf)) = false ∧ s.doeReady pf = true ∧ r.version = 0x13 ∧ r.session = none) ∧ ((s.spdmConn pf).stage = 1) ∧ (b = spdmBytes 0x13 0x61 0 0 (natLE 1 0 ++ natLE 1 s.takeFree.1.toNat ++ natLE 2 0 ++ natLE 4 0x62D6 ++ natLE 4 0x100000 ++ natLE 4 0x100000)) :=
  ⟨spdmAt 1, 0, spdmReq 0 0 none [], spdmBytes 0x13 0x61 0 0 (natLE 1 0 ++ natLE 1 (spdmAt 1).takeFree.1.toNat ++ natLE 2 0 ++ natLE 4 0x62D6 ++ natLE 4 0x100000 ++ natLE 4 0x100000), ⟨by first | decide +kernel | rfl, by first | decide +kernel | rfl, by first | decide +kernel | rfl, by first | decide +kernel | rfl⟩, by first | decide +kernel | rfl, by first | decide +kernel | rfl⟩

theorem witness_SpdmRequests_3 : ∃ (s : State) (pf : Nat) (r : SpdmReq), (s.epHeld (hifEp (1024 * pf)) = false ∧ s.doeReady pf = true ∧ r.version = 0x13 ∧ r.session = none) ∧ ((s.spdmConn pf).stage = 2) ∧ ((leAt r.body 4 4).testBit 7 = true ∧ (leAt r.body 8 4).testBit 1 = true ∧ r.p1 = 0) :=
  ⟨spdmAt 2, 0, spdmReq 0 0 none (bytesWith 32 [(2, 1), (3, 2), (4, 0x80), (8, 2)]), by decide +kernel⟩

theorem witness_SpdmRequests_4 : ∃ (s : State) (pf : Nat) (r : SpdmReq) (b : List Byte), (s.epHeld (hifEp (1024 * pf)) = false ∧ s.doeReady pf = true ∧ r.version = 0x13 ∧ r.session = none) ∧ (3 ≤ (s.spdmConn pf).stage) ∧ (b = spdmBytes 0x13 0x01 3 3 (Config.sha384 (s.chain 0) ++ Config.sha384 (s.chain 1))) :=
  ⟨spdmAt 3, 0, spdmReq 0 0 none [], spdmBytes 0x13 0x01 3 3 (Config.sha384 ((spdmAt 3).chain 0) ++ Config.sha384 ((spdmAt 3).chain 1)), ⟨by first | decide +kernel | rfl, by first | decide +kernel | rfl, by first | decide +kernel | rfl, by first | decide +kernel | rfl⟩, by first | decide +kernel | rfl, by first | decide +kernel | rfl⟩

theorem witness_SpdmRequests_5 : ∃ (s : State) (pf o n : Nat) (r : SpdmReq) (c : List Byte), (s.epHeld (hifEp (1024 * pf)) = false ∧ s.doeReady pf = true ∧ r.version = 0x13 ∧ r.session = none) ∧ (3 ≤ (s.spdmConn pf).stage) ∧ (r.p1 % 16 ≤ 1 ∧ o = leAt r.body 0 2) ∧ (c = s.chain (r.p1 % 16) ∧ n = min (leAt r.body 2 2) (c.length - o)) :=
  ⟨spdmAt 3, 0, 0, min 16 (((spdmAt 3).chain 0).length - 0), spdmReq 0 0 none [0, 0, 16, 0], (spdmAt 3).chain 0, ⟨by first | decide +kernel | rfl, by first | decide +kernel | rfl, by first | decide +kernel | rfl, by first | decide +kernel | rfl⟩, by first | decide +kernel | rfl, ⟨by first | decide +kernel | rfl, by first | decide +kernel | rfl⟩, ⟨by first | decide +kernel | rfl, by first | decide +kernel | rfl⟩⟩

theorem witness_SpdmRequests_6 : ∃ (s : State) (pf : Nat) (r : SpdmReq) (b : List Byte), (s.epHeld (hifEp (1024 * pf)) = false ∧ s.doeReady pf = true ∧ r.version = 0x13 ∧ r.session = none) ∧ (3 ≤ (s.spdmConn pf).stage ∧ r.p1 = 0) ∧ (b = spdmBytes 0x13 0x03 0 1 (Config.sha384 (s.chain 0) ++ (s.freeBytes 4).1 ++ s.summaryHash r.p2 ++ natLE 2 0 ++ bytesAt r.body 32 8)) :=
  ⟨spdmState true, 0, spdmReq 0 0 none (bytesWith 40 [(0, 9)]), spdmBytes 0x13 0x03 0 1 (Config.sha384 ((spdmState true).chain 0) ++ ((spdmState true).freeBytes 4).1 ++ (spdmState true).summaryHash 0 ++ natLE 2 0 ++ bytesAt (bytesWith 40 [(0, 9)]) 32 8), ⟨by first | decide +kernel | rfl, by first | decide +kernel | rfl, by first | decide +kernel | rfl, by first | decide +kernel | rfl⟩, ⟨by first | decide +kernel | rfl, by first | decide +kernel | rfl⟩, by first | decide +kernel | rfl⟩

theorem witness_SpdmRequests_7 : ∃ (s : State) (pf : Nat) (r : SpdmReq) (b : List Byte), (s.epHeld (hifEp (1024 * pf)) = false ∧ s.doeReady pf = true ∧ r.version = 0x13 ∧ r.session = none) ∧ (3 ≤ (s.spdmConn pf).stage ∧ r.p1 = 0 ∧ r.p2 = 5) ∧ (b = spdmBytes 0x13 0x60 0 0 (natLE 1 1 ++ natLE 3 8 ++ [5, 1, 4, 0, 0x83, 1, 0, if s.isOpen then 1 else 0] ++ (s.freeBytes 4).1 ++ natLE 2 0 ++ bytesAt r.body 0 8)) :=
  ⟨spdmState true, 0, spdmReq 0 5 none (bytesWith 8 [(0, 9)]), spdmBytes 0x13 0x60 0 0 (natLE 1 1 ++ natLE 3 8 ++ [5, 1, 4, 0, 0x83, 1, 0, if (spdmState true).isOpen then 1 else 0] ++ ((spdmState true).freeBytes 4).1 ++ natLE 2 0 ++ bytesAt (bytesWith 8 [(0, 9)]) 0 8), ⟨by first | decide +kernel | rfl, by first | decide +kernel | rfl, by first | decide +kernel | rfl, by first | decide +kernel | rfl⟩, ⟨by first | decide +kernel | rfl, by first | decide +kernel | rfl, by first | decide +kernel | rfl⟩, by first | decide +kernel | rfl⟩

theorem witness_SpdmRequests_8 : ∃ (s : State) (pf : Nat) (r : SpdmReq), (s.epHeld (hifEp (1024 * pf)) = false ∧ s.doeReady pf = true ∧ r.version = 0x13 ∧ r.session = none) ∧ (3 ≤ (s.spdmConn pf).stage ∧ r.p2 = 0) ∧ ((s.wkt.sessions.filter fun (x : SpdmSession) => x.pf == pf).length < 16) :=
  ⟨spdmState true, 0, spdmReq 0 0 none [7, 8], by decide +kernel⟩

theorem witness_SpdmRequests_9 : ∃ (s : State) (pf id : Nat) (r : SpdmReq) (x : SpdmSession), (s.epHeld (hifEp (1024 * pf)) = false ∧ s.doeReady pf = true ∧ r.version = 0x13 ∧ r.session = some id) ∧ (s.session pf id = some x ∧ x.open' = false) :=
  ⟨spdmState false, 0, 7, spdmReq 0 0 (some 7) [1], ⟨0, 7, false, 0, 0, [5], []⟩, by decide +kernel⟩

theorem witness_SpdmRequests_10 : ∃ (s : State) (pf id : Nat) (r : SpdmReq) (x : SpdmSession), (s.epHeld (hifEp (1024 * pf)) = false ∧ s.doeReady pf = true ∧ r.version = 0x13 ∧ r.session = some id) ∧ (s.session pf id = some x ∧ x.open' = true) :=
  ⟨spdmState true, 0, 7, spdmReq 0 0 (some 7) [], ⟨0, 7, true, 0, 0, [5], []⟩, by decide +kernel⟩

theorem witness_SpdmRequests_11 : ∃ (s : State) (pf id : Nat) (r : SpdmReq) (x : SpdmSession), (s.epHeld (hifEp (1024 * pf)) = false ∧ s.doeReady pf = true ∧ r.version = 0x13 ∧ r.session = some id) ∧ (s.session pf id = some x ∧ x.open' = true) ∧ (1 ≤ r.p1 ∧ r.p1 ≤ 3) :=
  ⟨spdmState true, 0, 7, spdmReq 2 6 (some 7) [], ⟨0, 7, true, 0, 0, [5], []⟩, by decide +kernel⟩

theorem witness_SpdmRequests_12 : ∃ (s : State) (pf id : Nat) (r : SpdmReq) (x : SpdmSession), (s.epHeld (hifEp (1024 * pf)) = false ∧ s.doeReady pf = true ∧ r.version = 0x13 ∧ r.session = some id) ∧ (s.session pf id = some x ∧ x.open' = true) :=
  ⟨spdmState true, 0, 7, spdmReq 0 0 (some 7) [], ⟨0, 7, true, 0, 0, [5], []⟩, by decide +kernel⟩

theorem witness_SpdmRequests_13 : ∃ (s : State) (pf : Nat) (r : SpdmReq) (sig : List Byte), (s.epHeld (hifEp (1024 * pf)) = false ∧ s.doeReady pf = true ∧ r.version = 0x13 ∧ r.session = none) ∧ (3 ≤ (s.spdmConn pf).stage ∧ (s.spdmConn pf).signed ≠ []) ∧ (leAt r.body 0 2 = 3 ∧ leAt r.body 2 1 = 2 ∧ leAt r.body 3 2 = 0xCE6A ∧ leAt r.body 7 2 = 1) ∧ (sig = Config.aliasSign true s.aliasSeed (Config.sha384 (s.spdmConn pf).signed)) :=
  ⟨spdmState true, 0, spdmReq 0 0 none [3, 0, 2, 0x6A, 0xCE, 0, 0, 1, 0], Config.aliasSign true (spdmState true).aliasSeed (Config.sha384 [4]), ⟨by first | decide +kernel | rfl, by first | decide +kernel | rfl, by first | decide +kernel | rfl, by first | decide +kernel | rfl⟩, ⟨by first | decide +kernel | rfl, by first | decide +kernel | rfl⟩, ⟨by first | decide +kernel | rfl, by first | decide +kernel | rfl, by first | decide +kernel | rfl, by first | decide +kernel | rfl⟩, by first | decide +kernel | rfl⟩

/-- States and operands that meet the hypotheses of each clause of `InterfaceSecurity`. -/
theorem witness_InterfaceSecurity_1 : ∃ (s : State) (pf index : Nat), (s.epHeld (hifEp (1024 * pf)) = false ∧ s.doeReady pf = true) :=
  ⟨spdmState true, 0, 2, by decide +kernel⟩

theorem witness_InterfaceSecurity_2 : ∃ (s : State) (pf session : Nat) (m : List Byte), (s.epHeld (hifEp (1024 * pf)) = false ∧ s.inSession pf session = true) ∧ (m.length = 47 ∧ leAt m 0 1 = 2 ∧ leAt m 6 1 = 0 ∧ leAt m 3 1 ≤ 8 ∧ ideSubOk (leAt m 5 1) = true) :=
  ⟨spdmState true, 0, 7, bytesWith 47 [(0, 2), (3, 3), (5, 0x12), (9, 7)], by decide +kernel⟩

theorem witness_InterfaceSecurity_3 : ∃ (s : State) (pf session : Nat) (m : List Byte), (s.epHeld (hifEp (1024 * pf)) = false ∧ s.inSession pf session = true) ∧ (leAt m 0 1 = 4 ∧ leAt m 3 1 ≤ 8 ∧ ideSubOk (leAt m 5 1) = true) ∧ (((s.keySet pf (leAt m 3 1) (leAt m 5 1 % 2)).all fun k => (spKeys s.pcie.ideKeys).contains k) = true) :=
  ⟨(spdmState true).withPcie { (spdmState true).pcie with ideKeys := [(192, [1]), (194, [1]), (196, [1]), (198, [1]), (200, [1]), (202, [1])] }, 0, 7, bytesWith 7 [(0, 4), (3, 3)], by decide +kernel⟩

theorem witness_InterfaceSecurity_4 : ∃ (s : State) (pf session : Nat) (m : List Byte), (s.epHeld (hifEp (1024 * pf)) = false ∧ s.inSession pf session = true) ∧ (leAt m 0 1 = 5 ∧ leAt m 3 1 ≤ 8 ∧ ideSubOk (leAt m 5 1) = true) :=
  ⟨(spdmState true).withPcie { (spdmState true).pcie with ideKeys := [(192, [1]), (194, [1]), (196, [1]), (198, [1]), (200, [1]), (202, [1])], ide := [(3, 1)] }, 0, 7, bytesWith 7 [(0, 5), (3, 3)], by decide +kernel⟩

theorem witness_InterfaceSecurity_5 : ∃ (s : State) (pf session fn version : Nat), (s.epHeld (hifEp (1024 * pf)) = false ∧ s.inSession pf session = true ∧ version / 16 = 1 ∧ fn ≠ 0 ∧ fn / 1024 = pf ∧ s.fnThere fn = true) :=
  ⟨spdmState true, 0, 7, 1, 0x10, by decide +kernel⟩

theorem witness_InterfaceSecurity_6 : ∃ (s : State) (pf session fn version : Nat), (s.epHeld (hifEp (1024 * pf)) = false ∧ s.inSession pf session = true ∧ version / 16 = 1 ∧ fn ≠ 0 ∧ fn / 1024 = pf ∧ s.fnThere fn = true) :=
  ⟨spdmState true, 0, 7, 1, 0x10, by decide +kernel⟩

theorem witness_InterfaceSecurity_7 : ∃ (s : State) (pf session fn version : Nat) (p : List Byte), (s.epHeld (hifEp (1024 * pf)) = false ∧ s.inSession pf session = true ∧ version / 16 = 1 ∧ fn ≠ 0 ∧ fn / 1024 = pf ∧ s.fnThere fn = true) ∧ (s.tdi fn = 0 ∧ (leAt p 0 2).testBit 3 = false ∧ 1 ≤ leAt p 2 1 ∧ leAt p 2 1 ≤ 8 ∧ s.ideSecure fn (leAt p 2 1) = true) :=
  ⟨(spdmState true).withPcie { (spdmState true).pcie with ide := [(3, 1)] }, 0, 7, 1, 0x10, bytesWith 12 [(2, 3), (4, 9)], by decide +kernel⟩

theorem witness_InterfaceSecurity_8 : ∃ (s : State) (pf session fn version : Nat) (p : List Byte), (s.epHeld (hifEp (1024 * pf)) = false ∧ s.inSession pf session = true ∧ version / 16 = 1 ∧ fn ≠ 0 ∧ fn / 1024 = pf ∧ s.fnThere fn = true) ∧ (s.tdi fn ≠ 0) :=
  ⟨(spdmState true).setTdi 1 2, 0, 7, 1, 0x10, bytesWith 12 [(2, 3), (4, 9)], by decide +kernel⟩

theorem witness_InterfaceSecurity_9 : ∃ (s : State) (pf session fn version o n : Nat) (p rep : List Byte), (s.epHeld (hifEp (1024 * pf)) = false ∧ s.inSession pf session = true ∧ version / 16 = 1 ∧ fn ≠ 0 ∧ fn / 1024 = pf ∧ s.fnThere fn = true) ∧ ((s.tdi fn = 1 ∨ s.tdi fn = 2) ∧ rep = s.tdiReport fn) ∧ (o = leAt p 0 2 ∧ o < rep.length ∧ n = min (leAt p 2 2) (rep.length - o)) :=
  ⟨(spdmState true).setTdi 1 1, 0, 7, 1, 0x10, 3, min 5 (((spdmState true).setTdi 1 1).tdiReport 1).length, [3, 0, 5, 0], ((spdmState true).setTdi 1 1).tdiReport 1, by decide +kernel⟩

theorem witness_InterfaceSecurity_10 : ∃ (s : State) (pf session fn version : Nat), (s.epHeld (hifEp (1024 * pf)) = false ∧ s.inSession pf session = true ∧ version / 16 = 1 ∧ fn ≠ 0 ∧ fn / 1024 = pf ∧ s.fnThere fn = true) :=
  ⟨spdmState true, 0, 7, 1, 0x10, by decide +kernel⟩

theorem witness_InterfaceSecurity_11 : ∃ (s : State) (pf session fn version : Nat) (nonce : List Byte), (s.epHeld (hifEp (1024 * pf)) = false ∧ s.inSession pf session = true ∧ version / 16 = 1 ∧ fn ≠ 0 ∧ fn / 1024 = pf ∧ s.fnThere fn = true) ∧ (s.tdi fn = 1 ∧ spGet (fun _ => []) s.pcie.tdiNonce fn = nonce) :=
  ⟨((spdmState true).setTdi 1 1).withPcie { ((spdmState true).setTdi 1 1).pcie with tdiNonce := [(1, [1, 2])] }, 0, 7, 1, 0x10, [1, 2], by decide +kernel⟩

theorem witness_InterfaceSecurity_12 : ∃ (s : State) (pf session fn version : Nat) (nonce : List Byte), (s.epHeld (hifEp (1024 * pf)) = false ∧ s.inSession pf session = true ∧ version / 16 = 1 ∧ fn ≠ 0 ∧ fn / 1024 = pf ∧ s.fnThere fn = true) ∧ (s.tdi fn = 1 ∧ spGet (fun _ => []) s.pcie.tdiNonce fn ≠ nonce) :=
  ⟨((spdmState true).setTdi 1 1).withPcie { ((spdmState true).setTdi 1 1).pcie with tdiNonce := [(1, [1, 2])] }, 0, 7, 1, 0x10, [1, 3], by decide +kernel⟩

theorem witness_InterfaceSecurity_13 : ∃ (s : State) (pf session fn version : Nat), (s.epHeld (hifEp (1024 * pf)) = false ∧ s.inSession pf session = true ∧ version / 16 = 1 ∧ fn ≠ 0 ∧ fn / 1024 = pf ∧ s.fnThere fn = true) :=
  ⟨((spdmState true).setTdi 1 3).withPcie { ((spdmState true).setTdi 1 3).pcie with tdiStream := [(1, 4)] }, 0, 7, 1, 0x10, by decide +kernel⟩

/-- States and operands that meet the hypotheses of each clause of `TerracesAndMemory`. -/
theorem witness_TerracesAndMemory_1 : ∃ (s : State) (k r b : Nat) (send : Bool) (v : Word), (k < 8 ∧ r < 64 ∧ b = ringReg k r send ∧ bitAt v 63 = true) ∧ (s.get (rgEn b) = 0 ∧ ringCfgEncOk send v = true ∧ s.ringOk (s.get (rgBase b)) (v &&& ringCfgMask) = true) :=
  ⟨(hifState.wr (ringReg 2 5 true) 0x10000).set (rgPi (ringReg 2 5 true)) 7, 2, 5, ringReg 2 5 true, true, BitVec.ofNat 64 (2 ^ 63 + 4 * 256 + 8), by decide +kernel⟩

theorem witness_TerracesAndMemory_2 : ∃ (s : State) (k r b : Nat) (send : Bool) (v : Word), (k < 8 ∧ r < 64 ∧ b = ringReg k r send ∧ bitAt v 63 = true) ∧ (s.get (rgEn b) = 0 ∧ ringCfgEncOk send v = true ∧ s.ringOk (s.get (rgBase b)) (v &&& ringCfgMask) = false) :=
  ⟨(hifState.wr (ringReg 2 5 true) 0x10010).set (rgPi (ringReg 2 5 true)) 7, 2, 5, ringReg 2 5 true, true, BitVec.ofNat 64 (2 ^ 63 + 4 * 256 + 8), by decide +kernel⟩

theorem witness_TerracesAndMemory_3 : ∃ (s : State) (k r b a : Nat) (m : Packet) (l : List Packet), (s.ready = true ∧ s.epHeld (terraceEp k) = false ∧ k < 8) ∧ (s.inboxOf (terraceEp k) = m :: l ∧ m.words.length = 8 ∧ m.poison = false) ∧ (r = hGet m.words CH.dstQueue ∧ r < 64 ∧ b = ringReg k r false ∧ a = s.ringSlot b (s.get (rgPi b))) ∧ (s.get (rgEn b) = 1 ∧ ringFill (s.get (rgPi b)) (s.get (rgCi b)) ≠ 2 ^ s.get (rgCount b) ∧ m.payload.length + 64 ≤ 2 ^ s.get (rgSlot b) ∧ s.operatorReaches a (2 ^ s.get (rgSlot b)) = true) :=
  ⟨ringHolds ((ringWith false 8).sets [(rgPi (ringReg 2 5 false), 3), (rgCi (ringReg 2 5 false), 3), (rgIntEn (ringReg 2 5 false), 1), (rgHart (ringReg 2 5 false), 17), (rgEiid (ringReg 2 5 false), 9)]), 2, 5, ringReg 2 5 false, 0x10300, ringPacket, [], by decide +kernel⟩

theorem witness_TerracesAndMemory_4 : ∃ (s : State) (k r b a n : Nat) (m : Packet) (l : List Packet), (s.ready = true ∧ s.epHeld (terraceEp k) = false ∧ k < 8) ∧ (s.inboxOf (terraceEp k) = m :: l ∧ m.words.length = 8 ∧ m.poison = false) ∧ (r = hGet m.words CH.dstQueue ∧ r < 64 ∧ b = ringReg k r false ∧ a = s.ringSlot b (s.get (rgPi b))) ∧ (s.get (rgEn b) = 1 ∧ ringFill (s.get (rgPi b)) (s.get (rgCi b)) ≠ 2 ^ s.get (rgCount b)) ∧ (n = 2 ^ s.get (rgSlot b) - 64 ∧ n < m.payload.length ∧ s.operatorReaches a (2 ^ s.get (rgSlot b)) = true) :=
  ⟨ringHolds (ringWith false 6), 2, 5, ringReg 2 5 false, 0x10000, 0, ringPacket, [], by decide +kernel⟩

theorem witness_TerracesAndMemory_5 : ∃ (s : State) (k r b a : Nat) (m : Packet) (l : List Packet), (s.ready = true ∧ s.epHeld (terraceEp k) = false ∧ k < 8) ∧ (s.inboxOf (terraceEp k) = m :: l) ∧ (r = hGet m.words CH.dstQueue ∧ r < 64 ∧ b = ringReg k r false ∧ a = s.ringSlot b (s.get (rgPi b))) ∧ (s.get (rgEn b) = 1 ∧ ringFill (s.get (rgPi b)) (s.get (rgCi b)) ≠ 2 ^ s.get (rgCount b) ∧ s.operatorReaches a (2 ^ s.get (rgSlot b)) = false) :=
  ⟨ringHolds ((ringWith false 8).wr (ringReg 2 5 false) 0x0F0000000000), 2, 5, ringReg 2 5 false, 0x0F0000000000, ringPacket, [], by decide +kernel⟩

theorem witness_TerracesAndMemory_6 : ∃ (s : State) (k : Nat) (m : Packet) (l : List Packet), (s.ready = true ∧ s.epHeld (terraceEp k) = false ∧ k < 8) ∧ (s.inboxOf (terraceEp k) = m :: l ∧ hGet m.words CH.dstQueue < 64) ∧ (s.get (rgEn (ringReg k (hGet m.words CH.dstQueue) false)) = 0) :=
  ⟨ringHolds hifState, 2, ringPacket, [], by decide +kernel⟩

theorem witness_TerracesAndMemory_7 : ∃ (s : State) (k r b a len : Nat) (w : List Word), (s.ready = true ∧ s.epHeld (terraceEp k) = false ∧ k < 8 ∧ r < 64) ∧ (b = ringReg k r true ∧ s.get (rgEn b) = 1 ∧ s.get (rgPi b) ≠ s.get (rgCi b)) ∧ (a = s.ringSlot b (s.get (rgCi b)) ∧ w = hSet ((List.range 8).map fun i => BitVec.ofNat 64 (leAt (s.bytes a 64) (8 * i) 8)) CH.srcEp (terraceEp k) ∧ len = hGet w CH.len ∧ len + 64 ≤ 2 ^ s.get (rgSlot b) ∧ s.poisoned a (64 + len) = false ∧ s.operatorReaches a (2 ^ s.get (rgSlot b)) = true) :=
  ⟨((ringWith true 8).set (rgPi (ringReg 2 5 true)) 1).putBytes 0x10000 (headerBytes (header [(CH.kind, kPacket), (CH.srcEp, 7), (CH.len, 5)]) ++ [1, 2, 3, 4, 5]), 2, 5, ringReg 2 5 true, 0x10000, 5, header [(CH.kind, kPacket), (CH.srcEp, terraceEp 2), (CH.len, 5)], by decide +kernel⟩

theorem witness_TerracesAndMemory_8 : ∃ (s : State) (a c : Nat), (s.isDram a = true ∧ s.pwr.holdAt = [] ∧ c = s.channelOf a) :=
  ⟨hifState.withChTimes [(3, List.replicate 100 0)], 0x300, 3, by decide +kernel⟩

theorem witness_TerracesAndMemory_9 : ∃ (s : State) (a : Nat), (s.isDram a = true ∧ s.pwr.holdAt = []) :=
  ⟨hifState, 0x300, by decide +kernel⟩

theorem witness_TerracesAndMemory_10 : ∃ (s : State) (g : Nat), (s.pwr.holdAt = []) :=
  ⟨(hifState.withZeroMap [(5, 9)]).withMem [(3, 7)], 6, by decide +kernel⟩

theorem witness_TerracesAndMemory_11 : ∃ (s : State) (a w h : Nat), (s.iommuCqRuns = true ∧ h = s.get F.MEM_IOMMU_CQP_CQH ∧ a = s.get F.MEM_IOMMU_CQB_PPN * 4096 + 16 * h) ∧ (s.operatorReaches a 16 = true ∧ s.poisoned a 16 = false) ∧ (w = leAt (s.bytes a 16) 0 8 ∧ w % 128 = 2 ∧ w / 128 % 8 = 0 ∧ w.testBit 11 = false) ∧ ((w.testBit 10 = true → s.operatorReaches (leAt (s.bytes a 16) 8 8 * 4) 4 = true)) :=
  ⟨cqWith (2 + 2 ^ 10 + 5 * 2 ^ 32) 0x1400, 0x40000, 2 + 2 ^ 10 + 5 * 2 ^ 32, 0, by decide +kernel⟩

theorem witness_TerracesAndMemory_12 : ∃ (s : State) (a w h : Nat), (s.iommuCqRuns = true ∧ h = s.get F.MEM_IOMMU_CQP_CQH ∧ a = s.get F.MEM_IOMMU_CQB_PPN * 4096 + 16 * h) ∧ (s.operatorReaches a 16 = true ∧ s.poisoned a 16 = false) ∧ (w = leAt (s.bytes a 16) 0 8 ∧ w % 128 = 2 ∧ w / 128 % 8 = 0 ∧ w.testBit 10 = false ∧ w.testBit 11 = true) :=
  ⟨(cqWith (2 + 2 ^ 11) 0).sets [(F.MEM_IOMMU_CSR_CIE, 1), (F.MEM_IOMMU_MSI_ADDR_ADDR 0, 0x0E0010003000 / 4), (F.MEM_IOMMU_MSI_DATA_DATA 0, 9)], 0x40000, 2 + 2 ^ 11, 0, by decide +kernel⟩

theorem witness_TerracesAndMemory_13 : ∃ (s : State) (a w h : Nat), (s.iommuCqRuns = true ∧ h = s.get F.MEM_IOMMU_CQP_CQH ∧ a = s.get F.MEM_IOMMU_CQB_PPN * 4096 + 16 * h) ∧ (s.operatorReaches a 16 = true ∧ s.poisoned a 16 = false) ∧ (w = leAt (s.bytes a 16) 0 8 ∧ w % 4096 = 1 ∧ w.testBit 32 = false ∧ w / 2 ^ 34 % 2 ^ 6 = 0 ∧ w / 2 ^ 56 = 0 ∧ leAt (s.bytes a 16) 8 8 = 0) ∧ ((h + 1) % 2 ^ (s.get F.MEM_IOMMU_CQB_LOG2SZ + 1) = s.get F.MEM_IOMMU_CQP_CQT) :=
  ⟨cqWith (1 + 2 ^ 33 + 5 * 2 ^ 40) 0, 0x40000, 1 + 2 ^ 33 + 5 * 2 ^ 40, 0, by decide +kernel⟩

/-- States and operands that meet the hypotheses of each clause of `TilesHartsAndNight`. -/
theorem witness_TilesHartsAndNight_1 : ∃ (s : State) (tile : Nat) (x : Tile), (x = s.tile tile ∧ x.sky = 0 ∧ x.hold = false ∧ x.waking = false) ∧ (¬ (180 ≤ tile ∧ tile ≤ 275) ∧ s.skyAllowed tile 1 = true ∧ s.tileQuiet tile = true) ∧ ((∀ g, 284 ≤ tile ∧ tile ≤ 347 ∧ grpOf s.plan (tile - 284) = some g → s.grpState g ≠ gRunning)) :=
  ⟨tileWith 3 3 { tileReset 3 with wakes := 2 }, 3, { tileReset 3 with wakes := 2 }, by decide +kernel, by decide +kernel, fun g h => absurd h.1 (by decide)⟩

theorem witness_TilesHartsAndNight_2 : ∃ (s : State) (tile g : Nat), (284 ≤ tile ∧ tile ≤ 347 ∧ grpOf s.plan (tile - 284) = some g) ∧ (s.grpHeld g = false ∧ s.get (F.PAV_GRP_STATE_SLEEP g) = 0 ∧ s.mayHaze g = true) ∧ ((∀ m, m ∈ grpMembers s.plan g → s.tileQuiet (284 + m) = true)) :=
  ⟨((tileWith 284 1 (tileReset 284)).set (F.PAV_GRP_STATE_STATE 0) gRunning).setGrp 0 { groupReset 0 with sleepReq := true }, 284, 0, by decide +kernel⟩

theorem witness_TilesHartsAndNight_3 : ∃ (s : State) (tile sky : Nat) (x : Tile), (x = s.tile tile ∧ x.hold = false ∧ x.waking = false ∧ x.sky < sky ∧ (sky = 2 ∨ sky = 3)) ∧ (¬ (180 ≤ tile ∧ tile ≤ 275) ∧ (428 ≤ tile ∧ tile ≤ 555 → bankAlloc s.plan (tile - 428) = true) ∧ s.skyAllowed tile sky = true ∧ (x.sky = 0 ∨ s.skyAllowed tile x.sky = true) ∧ s.tileQuiet tile = true) :=
  ⟨tileWith 3 3 { tileReset 3 with sky := 1 }, 3, 2, { tileReset 3 with sky := 1 }, by decide +kernel⟩

theorem witness_TilesHartsAndNight_4 : ∃ (s : State) (tile sky : Nat) (x : Tile), (x = s.tile tile ∧ x.hold = false ∧ x.waking = false ∧ x.sky ≠ 0) ∧ (¬ (180 ≤ tile ∧ tile ≤ 275 ∧ x.sky = 3) ∧ (428 ≤ tile ∧ tile ≤ 555 → bankAlloc s.plan (tile - 428) = true) ∧ s.skyAllowed tile x.sky = false) :=
  ⟨tileWith 3 1 { tileReset 3 with sky := 2 }, 3, 2, { tileReset 3 with sky := 2 }, by decide +kernel⟩

theorem witness_TilesHartsAndNight_5 : ∃ (s : State) (tile sky : Nat), (428 ≤ tile ∧ tile ≤ 555 ∧ bankAlloc s.plan (tile - 428) = false) :=
  ⟨readyWith [], 430, 2, by decide +kernel⟩

theorem witness_TilesHartsAndNight_6 : ∃ (s : State) (tile : Nat) (x : Tile), (x = s.tile tile ∧ x.hold = false ∧ x.waking = true) ∧ (tile < 284 ∨ 347 < tile) :=
  ⟨tileWith 200 7 { tileReset 200 with sky := 3, waking := true }, 200, { tileReset 200 with sky := 3, waking := true }, by decide +kernel⟩

theorem witness_TilesHartsAndNight_7 : ∃ (s : State) (tile g : Nat) (x : Tile), (x = s.tile tile ∧ x.hold = false ∧ x.waking = true) ∧ (284 ≤ tile ∧ tile ≤ 347 ∧ grpOf s.plan (tile - 284) = some g ∧ s.get (F.PAV_GRP_STATE_SLEEP g) = 1) :=
  ⟨(tileWith 284 7 { tileReset 284 with sky := 1, waking := true }).set (F.PAV_GRP_STATE_SLEEP 0) 1, 284, 0, { tileReset 284 with sky := 1, waking := true }, by decide +kernel⟩

theorem witness_TilesHartsAndNight_8 : ∃ (s : State) (h sky : Nat) (x : Tile), (x = s.tile (hartTile h) ∧ s.online h = true ∧ x.hold = false ∧ x.waking = false) ∧ ((sky = 1 ∨ sky = 2) ∧ x.sky < sky ∧ s.skyAllowed (hartTile h) sky = true) :=
  ⟨(tileWith 200 7 { tileReset 200 with sky := 1 }).setOnline 20 true, 20, 2, { tileReset 200 with sky := 1 }, by decide +kernel⟩

theorem witness_TilesHartsAndNight_9 : ∃ (s : State) (h : Nat) (x : Tile), (h < 96 ∧ x = s.tile (hartTile h) ∧ x.sky = 3 ∧ x.waking = false) :=
  ⟨(tileWith 200 7 { tileReset 200 with sky := 3 }).set F.PWR_HART_ENTRY_ADDR 0x1234, 20, { tileReset 200 with sky := 3 }, by decide +kernel⟩

theorem witness_TilesHartsAndNight_10 : ∃ (s : State) (h : Nat), (h < 96 ∧ ((s.tile (hartTile h)).sky ≠ 3 ∨ (s.tile (hartTile h)).waking = true)) :=
  ⟨tileWith 200 7 { tileReset 200 with sky := 1 }, 20, by decide +kernel⟩

theorem witness_TilesHartsAndNight_11 : ∃ (s : State) (h : Nat) (x : Tile), (h < 96 ∧ x = s.tile (hartTile h) ∧ x.sky ≠ 3 ∧ (s.hart h).wfi = true) :=
  ⟨((tileWith 200 7 { tileReset 200 with sky := 1 }).setOnline 20 true).setHart 20 { hartReset 20 with wfi := true }, 20, { tileReset 200 with sky := 1 }, by decide +kernel⟩

theorem witness_TilesHartsAndNight_12 : ∃ (s : State), (s.get F.PWR_NIGHT_CFG_EN = 1 ∧ s.phase = phReady ∧ s.pwr.night = 0) :=
  ⟨((readyWith [sec secPortLayout 0 (bytesWith 64 [(0, 1)]), sec secPavGroups 0 (bytesWith 16 [(0, 1)])]).sets [(F.PWR_NIGHT_CFG_EN, 1), (F.ETH_LINK_STATUS_UP 0, 1), (F.PAV_GRP_STATE_STATE 0, gRunning)]), by decide +kernel⟩

theorem witness_TilesHartsAndNight_13 : ∃ (s : State), (s.pwr.night = 2 ∧ s.nightDrained = true ∧ s.pwr.holdAt = []) ∧ ((s.plan.flatMap warmSection).length ≤ 67108864) :=
  ⟨nightAt 2 true, by decide +kernel⟩

theorem witness_TilesHartsAndNight_14 : ∃ (s : State), (s.pwr.night = 2 ∧ s.pwr.holdAt = []) :=
  ⟨nightAt 2 true, by decide +kernel⟩

theorem witness_TilesHartsAndNight_15 : ∃ (s : State), (s.pwr.night ≠ 2 ∨ s.pwr.holdAt ≠ []) :=
  ⟨nightAt 0 true, by decide +kernel⟩

theorem witness_TilesHartsAndNight_16 : ∃ (s : State), (s.pwr.night = 4 ∧ s.pwr.holdAt = [] ∧ s.pwr.wake = false) :=
  ⟨nightAt 4 false, by decide +kernel⟩

theorem witness_TilesHartsAndNight_17 : ∃ (s : State), (s.pwr.night = 4 ∧ s.pwr.holdAt = [] ∧ s.pwr.wake = true) :=
  ⟨nightAt 4 true, by decide +kernel⟩

theorem witness_TilesHartsAndNight_18 : ∃ (s : State), (s.get F.PWR_NIGHT_ALARM_EN = 1 ∧ s.get F.PWR_NIGHT_ALARM_SEC ≤ s.tbVal 0 / secUnit) ∧ (s.phase = phNight) :=
  ⟨((hifState.set F.BOOT_STATUS_PHASE phNight).set F.PWR_NIGHT_ALARM_EN 1).setTbase 1 { tbReset 1 with value := 2 ^ 50 + 3 }, by decide +kernel⟩

theorem witness_TilesHartsAndNight_19 : ∃ (s : State), (s.get F.PWR_NIGHT_ALARM_EN = 1 ∧ s.get F.PWR_NIGHT_ALARM_SEC ≤ s.tbVal 0 / secUnit) ∧ (s.phase ≠ phNight ∧ s.pwr.night ≠ 0) :=
  ⟨(nightAt 2 false).set F.PWR_NIGHT_ALARM_EN 1, by decide +kernel⟩

theorem witness_TilesHartsAndNight_20 : ∃ (s : State), (s.get F.PWR_NIGHT_ALARM_EN = 0 ∨ s.tbVal 0 / secUnit < s.get F.PWR_NIGHT_ALARM_SEC) :=
  ⟨nightAt 2 false, by decide +kernel⟩

/-- States and operands that meet the hypotheses of each clause of `SuppliesAndTemperature`. -/
theorem witness_SuppliesAndTemperature_1 : ∃ (s : State) (d : Nat) (sent : List Nat), (d < 8 ∧ d ≠ 3 ∧ s.pwr.trip = false ∧ s.phase ≠ phNight ∧ s.held d = false) :=
  ⟨readyWith [], 1, [], by decide +kernel⟩

theorem witness_SuppliesAndTemperature_2 : ∃ (s : State) (sent : List Nat), (s.pwr.trip = false ∧ s.phase ≠ phNight ∧ s.held 3 = false) :=
  ⟨readyWith [], [], by decide +kernel⟩

theorem witness_SuppliesAndTemperature_3 : ∃ (s : State) (d : Nat) (sent : List Nat), (s.pwr.trip = false ∧ s.phase ≠ phNight ∧ s.held d = true) :=
  ⟨heldState, 1, [], by decide +kernel⟩

theorem witness_SuppliesAndTemperature_4 : ∃ (s : State) (d : Nat), (s.held d = true) :=
  ⟨heldState.withPwr { heldState.pwr with dwelt := [] }, 1, by decide +kernel⟩

theorem witness_SuppliesAndTemperature_5 : ∃ (s : State) (d : Nat) (l : List (Option (Nat × Nat × Nat))), (d < 8 ∧ s.held d = true ∧ s.pwr.dwelt.contains d = true ∧ (s.quickCheck d l).1 = true) :=
  ⟨heldState.setTile 3 { tileReset 3 with hold := true }, 1, List.replicate 96 (some (100, 0, 40)), by decide +kernel⟩

theorem witness_SuppliesAndTemperature_6 : ∃ (s : State) (d : Nat) (l : List (Option (Nat × Nat × Nat))), (d < 8 ∧ s.held d = true ∧ s.pwr.dwelt.contains d = true ∧ (s.quickCheck d l).1 = false) :=
  ⟨heldState.set F.SDL_THRESH_QC_MIN_PS 50, 1, List.replicate 96 (some (7, 0, 40)), by decide +kernel⟩

theorem witness_SuppliesAndTemperature_7 : ∃ (s : State) (d : Nat), (d < 8 ∧ s.held d = true) :=
  ⟨heldState, 1, by decide +kernel⟩

theorem witness_SuppliesAndTemperature_8 : ∃ (s : State) (d : Nat), (s.pwr.trip = false) :=
  ⟨readyWith [], 2, by decide +kernel⟩

theorem witness_SuppliesAndTemperature_9 : ∃ (s : State) (l : List Nat) (now : Nat), (now = (l.take 64).foldl (fun a r => max a (r % 256)) 0) :=
  ⟨(readyWith []).set F.PWR_THERM_CFG_WARN_C 80, [40, 90], 90, by decide +kernel⟩

theorem witness_SuppliesAndTemperature_10 : ∃ (s : State), (115 ≤ s.get F.PWR_TEMP_NOW ∧ s.pwr.trip = false) :=
  ⟨((readyWith []).withMem [(5, 3), (0x0E0000000002, 4)]).set F.PWR_TEMP_NOW 116, by decide +kernel⟩

theorem witness_SuppliesAndTemperature_11 : ∃ (s : State), (s.pwr.trip = true ∧ s.get F.PWR_THERM_CFG_AUTO_RESTART = 1 ∧ s.get F.PWR_TEMP_NOW ≤ 100 ∧ s.pins.sysRst = true) :=
  ⟨((pinsWith { pinsHigh with thermtrip := true }).withPwr { State.reset.pwr with trip := true }).set F.PWR_THERM_CFG_AUTO_RESTART 1, by decide +kernel⟩

/-- States and operands that meet the hypotheses of each clause of `SundialAndOperatingPoints`. -/
theorem witness_SundialAndOperatingPoints_1 : ∃ (s : State) (l : List (Option (Nat × Nat × Nat))) (i m sh c : Nat), (i < 512 ∧ l[i]? = some (some (m, sh, c)) ∧ (s.sensor i).excluded = false) :=
  ⟨State.reset, [some (65535, 3, 40)], 0, 65535, 3, 40, by decide +kernel⟩

theorem witness_SundialAndOperatingPoints_2 : ∃ (s : State) (l : List (Option (Nat × Nat × Nat))) (i : Nat), (i < 512 ∧ l[i]? = some none ∧ (s.sensor i).excluded = false) :=
  ⟨State.reset, [none], 0, by decide +kernel⟩

theorem witness_SundialAndOperatingPoints_3 : ∃ (s : State) (d mv mhz : Nat), (d = s.get F.PWR_OP_SEL_STG_DOMAIN ∧ mv = s.get F.PWR_OP_MV_STG_MV ∧ mhz = s.get F.PWR_OP_MHZ_STG_MHZ) ∧ (s.get F.PWR_OP_COMMIT_PENDING = 0 ∧ s.get F.PWR_OP_STATUS_BUSY = 0) ∧ (600 ≤ mv ∧ mv ≤ 950 ∧ (d = 0 → 400 ≤ mhz ∧ mhz ≤ 3000 ∧ mhz % 100 = 0) ∧ (d ≠ 0 → mhz = 0)) ∧ (opSteps (s.point d).1 (s.point d).2 mv mhz ≠ []) :=
  ⟨State.reset.sets [(F.PWR_OP_SEL_STG_DOMAIN, 2), (F.PWR_OP_MV_STG_MV, 800), (F.PWR_DOM_STATUS_SETPOINT_MV 2, 770)], 2, 800, 0, by decide +kernel⟩

theorem witness_SundialAndOperatingPoints_4 : ∃ (s : State) (mv : Nat), (mv = s.get F.PWR_OP_MV_STG_MV ∧ s.get F.PWR_OP_COMMIT_PENDING = 0 ∧ s.get F.PWR_OP_STATUS_BUSY = 0) ∧ (mv < 600 ∨ 950 < mv) :=
  ⟨State.reset.set F.PWR_OP_MV_STG_MV 500, 500, by decide +kernel⟩

theorem witness_SundialAndOperatingPoints_5 : ∃ (s : State) (q : PwrQual) (p : Nat × Nat) (l : List (Option (Nat × Nat × Nat))), (s.pwr.qual = some q ∧ q.todo = [p] ∧ q.back = false ∧ q.dom < 8 ∧ s.held q.dom = false ∧ (s.quickCheck q.dom l).1 = true) :=
  ⟨(qualWith [(760, 0)]).sets [(F.PWR_OP_COMMIT_PENDING, 1), (F.PWR_OP_STATUS_BUSY, 1), (F.PWR_DOM_STATUS_QUALIFYING 2, 1)], ⟨2, [(760, 0)], [(750, 0)], false⟩, (760, 0), List.replicate 64 (some (100, 0, 40)), by decide +kernel⟩

theorem witness_SundialAndOperatingPoints_6 : ∃ (s : State) (q : PwrQual) (p r : Nat × Nat) (u : List (Nat × Nat)) (l : List (Option (Nat × Nat × Nat))), (s.pwr.qual = some q ∧ q.todo = p :: r :: u ∧ q.back = false ∧ q.dom < 8 ∧ s.held q.dom = false ∧ (s.quickCheck q.dom l).1 = true) :=
  ⟨qualWith [(760, 0), (770, 0)], ⟨2, [(760, 0), (770, 0)], [(750, 0)], false⟩, (760, 0), (770, 0), [], List.replicate 64 (some (100, 0, 40)), by decide +kernel⟩

theorem witness_SundialAndOperatingPoints_7 : ∃ (s : State) (q : PwrQual) (l : List (Option (Nat × Nat × Nat))), (s.pwr.qual = some q ∧ q.todo ≠ [] ∧ q.done ≠ [] ∧ q.back = false ∧ s.held q.dom = false ∧ (s.quickCheck q.dom l).1 = false) :=
  ⟨(qualWith [(760, 0)]).set F.SDL_THRESH_QC_MIN_PS 50, ⟨2, [(760, 0)], [(750, 0)], false⟩, List.replicate 64 (some (7, 0, 40)), by decide +kernel⟩

theorem witness_SundialAndOperatingPoints_8 : ∃ (s : State) (q : PwrQual), (s.pwr.qual = some q ∧ q.done ≠ [] ∧ q.back = false ∧ s.held q.dom = false) :=
  ⟨qualWith [(760, 0)], ⟨2, [(760, 0)], [(750, 0)], false⟩, by decide +kernel⟩

theorem witness_SundialAndOperatingPoints_9 : ∃ (s : State), (s.phase ≠ phNight ∧ s.pwr.trip = false) :=
  ⟨State.reset.set F.SDL_OP_HOURS_HOURS 5, by decide +kernel⟩

theorem witness_SundialAndOperatingPoints_10 : ∃ (s : State) (v : Nat), (1 ≤ v ∧ v ≤ 720) :=
  ⟨State.reset.withPwr { State.reset.pwr with doneAt := some 9 }, 720, by decide +kernel⟩

theorem witness_SundialAndOperatingPoints_11 : ∃ (s : State) (v : Nat), (v = 0 ∨ 720 < v) :=
  ⟨State.reset, 721, by decide +kernel⟩

/-- States and operands that meet the hypotheses of each clause of `ResetPins`. -/
theorem witness_ResetPins_1 : ∃ (s : State) (p : Nat) (x : Pins), (p < 2 ∧ x = (if p = 0 then { s.pins with perst0 := false } else { s.pins with perst1 := false })) ∧ (s.pins.sysRst = false ∨ (if p = 0 then s.pins.perst0 else s.pins.perst1) = false) :=
  ⟨pinsWith { pinsHigh with perst0 := false }, 0, { pinsHigh with perst0 := false }, by decide +kernel⟩

theorem witness_ResetPins_2 : ∃ (s : State) (p : Nat) (x : Pins), (p < 2 ∧ x = (if p = 0 then { s.pins with perst0 := false } else { s.pins with perst1 := false })) ∧ (s.pins.sysRst = true ∧ (if p = 0 then s.pins.perst0 else s.pins.perst1) = true ∧ s.phase = phNight) :=
  ⟨(pinsWith pinsHigh).set F.BOOT_STATUS_PHASE phNight, 1, { pinsHigh with perst1 := false }, by decide +kernel⟩

theorem witness_ResetPins_3 : ∃ (s : State) (p : Nat) (x : Pins), (p < 2 ∧ x = (if p = 0 then { s.pins with perst0 := false } else { s.pins with perst1 := false })) ∧ (s.pins.sysRst = true ∧ (if p = 0 then s.pins.perst0 else s.pins.perst1) = true ∧ s.phase ≠ phNight) :=
  ⟨(hifState.withPins pinsHigh).set (linkFld 0 0) 0x80, 0, { pinsHigh with perst0 := false }, by decide +kernel⟩

theorem witness_ResetPins_4 : ∃ (s : State) (p : Nat), (p < 2 ∧ s.pins.sysRst = true) :=
  ⟨pinsWith { pinsHigh with perst1 := false }, 1, by decide +kernel⟩

theorem witness_ResetPins_5 : ∃ (s : State) (p : Nat), (p < 2 ∧ s.pins.sysRst = false) :=
  ⟨pinsWith { pinsHigh with sysRst := false, perst1 := false }, 1, by decide +kernel⟩

theorem witness_ResetPins_6 : ∃ (s : State), (s.pins.lodgePg = true ∧ s.pwr.trip = false) :=
  ⟨((hifState.withPins pinsHigh).withMem [(5, 3), (0x010000000002, 4)]).set F.PWR_RESET_CAUSE_RESETS 3, by decide +kernel⟩

theorem witness_ResetPins_7 : ∃ (s : State), (s.pins.lodgePg = true ∧ s.pwr.trip = true ∧ s.get F.PWR_THERM_CFG_AUTO_RESTART = 0) :=
  ⟨((pinsWith { pinsHigh with thermtrip := true }).withPwr { State.reset.pwr with trip := true }).set F.PWR_THERM_CFG_AUTO_RESTART 0, by decide +kernel⟩

theorem witness_ResetPins_8 : ∃ (s : State), (s.pins.lodgePg = false) :=
  ⟨pinsWith { pinsHigh with lodgePg := false }, by decide +kernel⟩

theorem witness_ResetPins_9 : ∃ (s : State) (a b c : Nat), (s.pins.lodgePg = true ∧ s.pins.sysRst = false ∧ s.pins.thermtrip = false) :=
  ⟨pinsWith { pinsHigh with sysRst := false }, 1, 2, 3, by decide +kernel⟩

theorem witness_ResetPins_10 : ∃ (s : State), (s.pins.lodgePg = false ∧ s.pins.sysRst = true) :=
  ⟨pinsWith { pinsHigh with lodgePg := false }, by decide +kernel⟩

theorem witness_ResetPins_11 : ∃ (s : State), (s.pins.lodgePg = false ∧ s.pins.sysRst = false ∧ s.isOpen = false) :=
  ⟨pinsWith { pinsHigh with lodgePg := false, sysRst := false }, by decide +kernel⟩

theorem witness_ResetPins_12 : ∃ (s : State), (s.pins.lodgePg = false ∧ s.pins.sysRst = false) :=
  ⟨pinsWith { pinsHigh with lodgePg := false, sysRst := false }, by decide +kernel⟩

theorem witness_ResetPins_13 : ∃ (s : State) (h : Bool), (s.pins.lodgePg = true) :=
  ⟨pinsWith pinsHigh, true, by decide +kernel⟩

/-- States and operands that meet the hypotheses of each clause of `WicketAndTap`. -/
theorem witness_WicketAndTap_1 : ∃ (s : State) (a : Nat) (l : List Byte), (a = s.get F.WKT_TOKEN_SRC_ADDR ∧ s.operatorReaches a 4992 = true ∧ s.poisoned a 4992 = false ∧ s.wkt.token = none) :=
  ⟨hifState.withWkt { hifState.wkt with chal := true }, 0, [], by decide +kernel⟩

theorem witness_WicketAndTap_2 : ∃ (s : State) (a : Nat) (l : List Byte), (a = s.get F.WKT_TOKEN_SRC_ADDR ∧ s.operatorReaches a 4992 = true ∧ s.poisoned a 4992 = false ∧ s.wkt.token.isSome = true) :=
  ⟨hifState.withWkt { hifState.wkt with chal := true, token := some ([], none) }, 0, [], by decide +kernel⟩

theorem witness_WicketAndTap_3 : ∃ (s : State) (k : List Byte) (c : Option (List Byte)), (s.wkt.token = some (k, c)) :=
  ⟨State.reset.withWkt { State.reset.wkt with token := some ([1], none) }, [1], none, by decide +kernel⟩

theorem witness_WicketAndTap_4 : ∃ (s : State), (s.wkt.token = none) :=
  ⟨State.reset, by decide +kernel⟩

theorem witness_WicketAndTap_5 : ∃ (s : State), (s.wkt.unlock = 1 ∧ s.sitePhase = sIdle ∧ s.pwr.holdAt = []) :=
  ⟨((readyWith [sec secMemPartition 0 (bytesWith 16 [(0, 2), (4, 1), (12, 64)]), sec secPavGroups 0 (bytesWith 16 [(0, 1)])]).set (F.PAV_GRP_STATE_STATE 0) gRunning).withWkt { State.reset.wkt with unlock := 1 }, by decide +kernel⟩

theorem witness_WicketAndTap_6 : ∃ (s : State), (s.wkt.unlock = 2 ∧ s.pwr.holdAt = []) :=
  ⟨(State.reset.withMem [(0x0E0000000005, 3), (0x0E0000010000, 4)]).withWkt { State.reset.wkt with unlock := 2 }, by decide +kernel⟩

theorem witness_WicketAndTap_7 : ∃ (s : State) (k v : Nat) (l : List Nat), (k < 3 ∧ v = s.arbInForce k ∧ l = spGet (fun _ => []) s.wkt.floors k ∧ l.length < 32 ∧ s.floorOf k < v) :=
  ⟨((State.reset.withWkt { State.reset.wkt with floors := [(1, [3])] }).set F.BOOT_IMG_ARB_ARB 9), 1, 9, [3], by decide +kernel⟩

theorem witness_WicketAndTap_8 : ∃ (s : State) (k : Nat), ((spGet (fun _ => []) s.wkt.floors k).length < 32 ∧ s.arbInForce k ≤ s.floorOf k) :=
  ⟨State.reset, 0, by decide +kernel⟩

theorem witness_WicketAndTap_9 : ∃ (s : State) (k : Nat), (32 ≤ (spGet (fun _ => []) s.wkt.floors k).length) :=
  ⟨State.reset.withWkt { State.reset.wkt with floors := [(1, List.replicate 32 1)] }, 1, by decide +kernel⟩

theorem witness_WicketAndTap_10 : ∃ (s : State) (k : List Byte), (s.wkt.token = none) :=
  ⟨State.reset, [1], by decide +kernel⟩

theorem witness_WicketAndTap_11 : ∃ (s : State) (a d : Nat) (x : HartMem), (s.isOpen = false) :=
  ⟨State.reset, 4, 9, ⟨.clean, .clean⟩, by decide +kernel⟩

theorem witness_WicketAndTap_12 : ∃ (s : State) (a d : Nat) (x : HartMem), (s.isOpen = false) :=
  ⟨State.reset, 4, 9, ⟨.clean, .clean⟩, by decide +kernel⟩

theorem witness_WicketAndTap_13 : ∃ (s : State) (a d : Nat) (x : HartMem), (s.isOpen = true ∧ s.dmActive = true ∧ (dmData0 ≤ a ∧ a ≤ 0x0F ∨ 0x20 ≤ a ∧ a ≤ 0x2F)) :=
  ⟨(State.reset.set F.WKT_LIFECYCLE_OPEN 1).setDm dmControl 1, 4, 9, ⟨.clean, .clean⟩, by decide +kernel⟩

theorem witness_WicketAndTap_14 : ∃ (s : State) (a d : Nat) (x : HartMem), (s.isOpen = true ∧ s.dmActive = true ∧ (dmData0 ≤ a ∧ a ≤ 0x0F ∨ 0x20 ≤ a ∧ a ≤ 0x2F)) :=
  ⟨((State.reset.set F.WKT_LIFECYCLE_OPEN 1).setDm dmControl 1).setDm 4 9, 4, 9, ⟨.clean, .clean⟩, by decide +kernel⟩

theorem witness_WicketAndTap_15 : ∃ (s : State) (h n : Nat) (x : HartMem), (s.isOpen = true ∧ s.dmActive = true ∧ h = s.dmHart ∧ s.dm (dmHalted h) = 1 ∧ natBits (s.dm dmAbstractCs) 10 8 = 0 ∧ (s.tile (hartTile h)).hold = false) ∧ (n < 0x1000 ∧ csrExists n = true) :=
  ⟨(((State.reset.set F.WKT_LIFECYCLE_OPEN 1).setDm dmControl (17 * 2 ^ 16 + 1)).setDm (dmHalted 17) 1), 17, 0xF14, ⟨.clean, .clean⟩, by decide +kernel⟩

theorem witness_WicketAndTap_16 : ∃ (s : State) (h i : Nat) (x : HartMem), (s.isOpen = true ∧ s.dmActive = true ∧ h = s.dmHart ∧ s.dm (dmHalted h) = 1 ∧ natBits (s.dm dmAbstractCs) 10 8 = 0 ∧ (s.tile (hartTile h)).hold = false) ∧ (0 < i ∧ i < 64) :=
  ⟨(((State.reset.set F.WKT_LIFECYCLE_OPEN 1).setDm dmControl (17 * 2 ^ 16 + 1)).setDm (dmHalted 17) 1).setDm 4 9, 17, 8, ⟨.clean, .clean⟩, by decide +kernel⟩

theorem witness_WicketAndTap_17 : ∃ (s : State) (h : Nat) (x : HartMem), (s.isOpen = true ∧ s.dmActive = true ∧ h = s.dmHart ∧ s.dm (dmHalted h) = 1 ∧ natBits (s.dm dmAbstractCs) 10 8 = 0 ∧ (s.tile (hartTile h)).hold = false) :=
  ⟨(((State.reset.set F.WKT_LIFECYCLE_OPEN 1).setDm dmControl (17 * 2 ^ 16 + 1)).setDm (dmHalted 17) 1).setHart 17 { hartReset 17 with files := [(8, ⟨true, 0, 32, 32⟩)] }, 17, ⟨.clean, .clean⟩, by decide +kernel⟩

theorem witness_WicketAndTap_18 : ∃ (s : State) (h a : Nat) (x : HartMem) (b : List Byte), (s.isOpen = true ∧ s.dmActive = true ∧ h = s.dmHart ∧ s.dm (dmHalted h) = 1 ∧ natBits (s.dm dmAbstractCs) 10 8 = 0 ∧ (s.tile (hartTile h)).hold = false) ∧ (a = s.dmData 2 ∧ a % 8 = 0 ∧ s.placeOf a 8 = .dram ∧ s.hartReaches a 8 = true ∧ pmpGrants true a 8 true 0 (s.hart h).pmp = true) ∧ ((s.line (a / 64)).own = some b ∧ x.cache = .clean ∧ x.mem = .clean) :=
  ⟨((((State.reset.set F.WKT_LIFECYCLE_OPEN 1).setDm dmControl (17 * 2 ^ 16 + 1)).setDm (dmHalted 17) 1).setDm 6 0x4008).setLine 0x100 ⟨false, false, some (List.replicate 64 0)⟩, 17, 0x4008, ⟨.clean, .clean⟩, List.replicate 64 0, by decide +kernel⟩

theorem witness_WicketAndTap_19 : ∃ (s : State) (d : Nat) (x : HartMem), (s.isOpen = true ∧ s.dmActive = true) ∧ (natBits (s.dm dmSbCs) 14 12 = 0 ∧ natBits (s.dm dmSbCs) 19 17 = 2 ∧ (s.dm dmSbCs).testBit 16 = false) ∧ (s.dm dmSbAddress1 = 0x0E00 ∧ s.dm dmSbAddress0 = 0x30001CDC) :=
  ⟨(((((((State.reset.set F.WKT_LIFECYCLE_OPEN 1).setDm dmControl (17 * 2 ^ 16 + 1)).setDm (dmHalted 17) 1).setDm dmSbCs (2 * 2 ^ 17)).setDm dmSbAddress1 0xE00).setDm dmSbAddress0 0x30001CDC).setAplic 0 { aplicReset 0 with sources := [(5, 1)] }), 0x405, ⟨.clean, .clean⟩, by decide +kernel⟩

end Sys2Proof.Tests
end

section
/-! SUPPORT. The error registers of a unit after a condition is recorded, and O8. -/

namespace Sys2Proof.Machine

/-! ### What recording a condition does to a unit's error registers (O8, R577) -/

/-- The offset inside a unit's block separates its error registers from each other and from FLT's summary. -/
@[simp] theorem errStatus_ne_errFirst (u : Nat) : errStatus u ≠ errFirst u := by simp [errStatus, errFirst, unitOff]
@[simp] theorem errStatus_ne_errCount (u : Nat) : errStatus u ≠ errCount u := by simp [errStatus, errCount, unitOff]
@[simp] theorem errFirst_ne_errStatus (u : Nat) : errFirst u ≠ errStatus u := by simp [errFirst, errStatus, unitOff]
@[simp] theorem errFirst_ne_errCount (u : Nat) : errFirst u ≠ errCount u := by simp [errFirst, errCount, unitOff]
@[simp] theorem errCount_ne_errStatus (u : Nat) : errCount u ≠ errStatus u := by simp [errCount, errStatus, unitOff]
@[simp] theorem errCount_ne_errFirst (u : Nat) : errCount u ≠ errFirst u := by simp [errCount, errFirst, unitOff]
@[simp] theorem errStatus_ne_summary (u : Nat) : errStatus u ≠ R.FLT_SUMMARY := by
  simp only [errStatus, unitOff, R.FLT_SUMMARY]; omega
@[simp] theorem errFirst_ne_summary (u : Nat) : errFirst u ≠ R.FLT_SUMMARY := by
  simp only [errFirst, unitOff, R.FLT_SUMMARY]; omega
@[simp] theorem errCount_ne_summary (u : Nat) : errCount u ≠ R.FLT_SUMMARY := by
  simp only [errCount, unitOff, R.FLT_SUMMARY]; omega

/-- A counter of 32 bits that stops at its top. -/
theorem State.get_count_same (s : State) (o : Nat) :
    (s.count ⟨o, 31, 0⟩).get ⟨o, 31, 0⟩ = min 0xFFFFFFFF (s.get ⟨o, 31, 0⟩ + 1) := by
  have hlt : s.get ⟨o, 31, 0⟩ < 2 ^ 32 := bitsAt_lt ..
  rw [State.count, State.get_set_same _ _ (by simp) (by simp)]
  simp only [satInc]
  split <;> omega

/-- What `capture` puts into `_ERR_FIRST`: the condition while VALID is 0, and nothing otherwise. -/
theorem State.capture_rd_errFirst (s : State) (u c e : Nat) :
    (s.capture u c e).rd (errFirst u) =
      if bitAt (s.rd (errFirst u)) 63 then s.rd (errFirst u)
      else BitVec.ofNat 64 (2 ^ 63 + (u * 256 + c) * 2 ^ fcShift u + e) := by
  simp only [State.capture, State.count]
  rw [State.rd_set_ne _ _ (errFirst_ne_errCount u)]
  split
  · rfl
  · exact State.rd_wr_same ..

theorem State.capture_get_errCount (s : State) (u c e : Nat) :
    (s.capture u c e).get ⟨errCount u, 31, 0⟩ = min 0xFFFFFFFF (s.get ⟨errCount u, 31, 0⟩ + 1) := by
  simp only [State.capture]
  rw [State.get_count_same]
  split
  · rfl
  · rw [State.get_wr_ne _ _ (errCount_ne_errFirst u)]

/-- A fault sets its status bit and no other bit of `_ERR_STATUS`. -/
theorem State.fault_rd_errStatus (s : State) (u c b e : Nat) :
    (s.fault u c b e).rd (errStatus u) = setBit (s.rd (errStatus u)) b true := by
  simp only [State.fault, State.setStatus]
  rw [State.fltRefresh_rd_ne _ _ _ (errStatus_ne_summary u), State.rd_wr_same,
    State.capture_rd_ne _ _ _ _ _ (errStatus_ne_errFirst u) (errStatus_ne_errCount u)]

/-- The other two error registers of a fault are those of its capture. -/
theorem State.fault_rd_errFirst (s : State) (u c b e : Nat) :
    (s.fault u c b e).rd (errFirst u) = (s.capture u c e).rd (errFirst u) :=
  State.setStatus_rd_ne _ _ _ _ (errFirst_ne_errStatus u) (errFirst_ne_summary u)

theorem State.fault_get_errCount (s : State) (u c b e : Nat) :
    (s.fault u c b e).get ⟨errCount u, 31, 0⟩ = (s.capture u c e).get ⟨errCount u, 31, 0⟩ := by
  simp only [State.get]
  rw [State.fault, State.setStatus_rd_ne _ _ _ _ (errCount_ne_errStatus u) (errCount_ne_summary u)]

/-- Settles O8: `fault` is `capture` and then the status bit, `common` is `capture` alone. -/
theorem recordingACondition : Obligations.RecordingACondition := by
  unfold Obligations.RecordingACondition
  intro s u cond bit extra _
  refine ⟨s.fault_rd_errStatus .., ?_, ?_, ?_, ?_, ?_, s.capture_get_errCount ..⟩
  · rw [State.fault_rd_errFirst, State.capture_rd_errFirst]
  · rw [State.fault_get_errCount, State.capture_get_errCount]
  · exact s.capture_rd_ne _ _ _ _ (errStatus_ne_errFirst u) (errStatus_ne_errCount u)
  · exact s.capture_rd_ne _ _ _ _ (errFirst_ne_summary u).symm (errCount_ne_summary u).symm
  · rw [State.common, State.capture_rd_errFirst, Nat.add_zero]

end Sys2Proof.Machine
end

section
/-! SUPPORT. Accesses to the control space, and O10. -/

namespace Sys2Proof.Machine

/-! ### Accesses that the control space takes (R7, R404, R429, R430)

An aligned access outside the IOMMU's file, let through, is the wake of the unit's tiles and then the register's own
write or read. -/

theorem State.hartFetch_good (s : State) {x : HartAccess} (hx : x.fetch = .good) : s.hartFetch x = s := by
  simp [State.hartFetch, hx]

theorem csrAligned_word {o : Nat} (hi : inIommu o = false) (h8 : o % 8 = 0) : csrAligned o 8 = true := by
  simp [csrAligned, hi, h8]

/-- Outside the IOMMU's file a misaligned access of 8 bytes is taken by no register. -/
theorem csrAligned_misaligned {o : Nat} (hi : inIommu o = false) (h8 : o % 8 ≠ 0) : csrAligned o 8 = false := by
  simp [csrAligned, hi, h8]

theorem State.coreAccess_taken {s : State} {x : HartAccess} {o n : Nat} {write : Bool} (act : State → State)
    (hx : x.fetch = .good) (ha : csrAligned o n = true) (hr : s.coreReaches x o n write = true) :
    s.coreAccess x o n write act = act s := by
  simp [State.coreAccess, s.hartFetch_good hx, hx, ha, hr]

theorem State.coreAccess_misaligned {s : State} {x : HartAccess} {o n : Nat} (write : Bool) (act : State → State)
    (hx : x.fetch = .good) (ha : csrAligned o n = false) : s.coreAccess x o n write act = s.emit (.accessFault o) := by
  simp [State.coreAccess, s.hartFetch_good hx, hx, ha]

theorem State.coreAccess_denied {s : State} {x : HartAccess} {o n : Nat} {write : Bool} (act : State → State)
    (hx : x.fetch = .good) (hr : s.coreReaches x o n write = false) :
    s.coreAccess x o n write act = s.emit (.accessFault o) := by
  simp [State.coreAccess, s.hartFetch_good hx, hx, hr]

theorem exec_registerWrite_taken {s : State} {who : Accessor} {o : Nat} (value : Word) (env : CsrEnv)
    (hm : s.mayWrite who o = true) (hi : inIommu o = false) (h8 : o % 8 = 0) :
    exec (.registerWrite who o 8 value env) s = .next ((s.wakeUnit (o / 0x1000000)).csrStore o value env) := by
  have hw : s.csrWrite o 8 value env = (s.wakeUnit (o / 0x1000000)).csrStore o value env := by
    simp [State.csrWrite, hi]
  cases who with
  | host =>
    have hr : s.refusing = false := by simpa [State.mayWrite] using hm
    show execRegisterWrite .host o 8 value env s = _
    simp [execRegisterWrite, hr, State.hostCsrWrite, csrAligned_word hi h8, hw]
  | core x =>
    obtain ⟨hx, hr⟩ : x.fetch = .good ∧ s.coreReaches x o 8 true = true := by
      simpa [State.mayWrite, State.coreMay] using hm
    show execRegisterWrite (.core x) o 8 value env s = _
    simp [execRegisterWrite, State.coreAccess_taken _ hx (csrAligned_word hi h8) hr, hw]

theorem exec_rcRegisterRead_taken {s : State} {x : HartAccess} {o : Nat} (hm : s.coreMay x o false = true)
    (hi : inIommu o = false) (h8 : o % 8 = 0) :
    exec (.rcRegisterRead ⟨x, o, 8⟩) s =
      .next (((s.wakeUnit (o / 0x1000000)).csrRead o).2.emit
        (.regRead o ((s.wakeUnit (o / 0x1000000)).csrRead o).1)) := by
  obtain ⟨hx, hr⟩ : x.fetch = .good ∧ s.coreReaches x o 8 false = true := by simpa [State.coreMay] using hm
  show execRcRegisterRead ⟨x, o, 8⟩ s = _
  simp [execRcRegisterRead, State.coreAccess_taken _ hx (csrAligned_word hi h8) hr, State.csrLoad, hi]

/-- The wake of a unit's tiles changes tiles only. -/
theorem State.wakeUnit_eq_withTiles (s : State) (u : Nat) : ∃ x, s.wakeUnit u = s.withTiles x := by
  have key : ∀ (l : List Nat) (t : State), ∃ x, l.foldl State.startWake t = t.withTiles x := by
    intro l
    induction l with
    | nil => exact fun t => ⟨t.tiles, rfl⟩
    | cons a l ih => exact fun t => ih (t.startWake a)
  exact key _ s

/-! ### Offsets that no register map defines (O10, R10) -/

/-- The registers at the offsets of an array stand in a map if those at its indices do. -/
theorem findReg_of_idxOf {o base stride count : Nat} (hs : 0 < stride) (h : (idxOf o base stride count).isSome = true)
    (hk : ∀ k < count, findReg (unitRegs ((base + stride * k) / 0x1000000)) ((base + stride * k) % 0x1000000) ≠ none) :
    findReg (unitRegs (o / 0x1000000)) (o % 0x1000000) ≠ none := by
  unfold idxOf at h
  split at h
  · next hc =>
    obtain ⟨hb, hlt, hm⟩ := hc
    have ho : o = base + stride * ((o - base) / stride) := by
      have := Nat.div_add_mod (o - base) stride
      omega
    have hd : (o - base) / stride < count := by
      rw [Nat.div_lt_iff_lt_mul hs, Nat.mul_comm]; omega
    rw [ho]
    exact hk _ hd
  · simp at h

/-- Where no map defines a register, a read returns no free value. -/
theorem readsFree_of_no_register {o : Nat} (h : findReg (unitRegs (o / 0x1000000)) (o % 0x1000000) = none) :
    readsFree o = false := by
  unfold readsFree
  rw [Bool.or_eq_false_iff]
  constructor <;> by_contra hc
  · exact findReg_of_idxOf (by decide) (Bool.eq_true_of_not_eq_false hc) (by decide) h
  · exact findReg_of_idxOf (by decide) (Bool.eq_true_of_not_eq_false hc) (by decide) h

/-- A read where no map defines a register returns zero and does nothing else. -/
theorem State.csrRead_no_register (s : State) {o : Nat}
    (h : findReg (unitRegs (o / 0x1000000)) (o % 0x1000000) = none) : s.csrRead o = (0, s) := by
  have hne : ∀ r ∈ [R.PRM_IBUF_OCC, R.PWR_TEMP, R.PWR_HOLD_MAX_US, R.FLT_INTR_MAX_US], o ≠ r := by
    rintro r hr rfl
    have hdef : ∀ r ∈ [R.PRM_IBUF_OCC, R.PWR_TEMP, R.PWR_HOLD_MAX_US, R.FLT_INTR_MAX_US],
      findReg (unitRegs (r / 0x1000000)) (r % 0x1000000) ≠ none := by decide
    exact hdef _ hr h
  have hpps : ¬ (idxOf o (R.TB_PPSIN_NS 0) 64 4).isSome = true :=
    fun hc => findReg_of_idxOf (by decide) hc (by decide) h
  simp only [List.forall_mem_cons] at hne
  obtain ⟨h1, h2, h3, h4, -⟩ := hne
  simp [State.csrRead, readsFree_of_no_register h, State.csrAfterRead, h, h1, h2, h3, h4, hpps]

/-- Settles O10: what is left of the access is the wake of the unit's tiles. -/
theorem offsetsWithoutRegister : Obligations.OffsetsWithoutRegister := by
  unfold Obligations.OffsetsWithoutRegister
  intro s o hnone hi h8
  obtain ⟨x, hx⟩ := s.wakeUnit_eq_withTiles (o / 0x1000000)
  constructor
  · intro h hm
    refine ⟨_, exec_rcRegisterRead_taken hm hi h8, ?_⟩
    rw [hx, State.csrRead_no_register _ hnone]
    exact ⟨rfl, by simp [State.sameBut]⟩
  · intro who value env hm
    refine ⟨_, exec_registerWrite_taken value env hm hi h8, ?_⟩
    rw [hx, State.csrStore, hnone]
    simp [State.sameBut]

end Sys2Proof.Machine
end

section
/-! SUPPORT. Registers of SITE and TB as accesses find them, and O12. -/

namespace Sys2Proof.Machine

/-! ### Bits of a register -/

/-- A field of one bit holds that bit. -/
theorem bitsAt_bit (w : Word) (i : Nat) : bitsAt w i i = (bitAt w i).toNat := by
  unfold bitsAt bitAt
  rw [show i + 1 - i = 1 by omega, ← BitVec.testBit_toNat, Nat.toNat_testBit, pow_one]

theorem State.bitAt_rd (s : State) (o i : Nat) : bitAt (s.rd o) i = decide (s.get ⟨o, i, i⟩ = 1) := by
  simp only [State.get, bitsAt_bit]
  cases bitAt (s.rd o) i <;> simp

/-- A write to an RW1C bit clears it where the value has a one, and leaves every other bit (R11). -/
theorem bitAt_writeField_rw1c (locked : Bool) (v w : Word) {i : Nat} (hi : i < 64) (rst : Rst) (enc : Enc) (b : Nat) :
    bitAt (writeField locked v w ⟨i, i, .rw1c, rst, enc⟩) b =
      if b = i then bitAt w b && !bitAt v b else bitAt w b := by
  have hbit : ∀ x : Word, bitAt x b = x.toNat.testBit b := fun x => (BitVec.testBit_toNat x).symm
  rw [hbit (writeField ..)]
  simp only [writeField, testBit_setBits _ _ _ _ _ (Nat.le_refl i) hi, bitsAt_bit]
  by_cases hb : b = i
  · subst hb
    cases bitAt w b <;> cases bitAt v b <;> simp
  · have : ¬ (i ≤ b ∧ b ≤ i) := by omega
    simp [hb, this, hbit]

/-! ### What recording a condition leaves -/

theorem State.capture_sameRegs (s : State) (u c e : Nat) : s.sameRegs (s.capture u c e) [errFirst u, errCount u] := by
  intro r hr
  simp only [List.mem_cons, List.not_mem_nil, or_false, not_or] at hr
  exact s.capture_rd_ne _ _ _ _ hr.1 hr.2

theorem State.capture_sameBut (s : State) (u c e : Nat) : s.sameBut (s.capture u c e) [.regs] := by
  simp [State.sameBut]

/-- The fault code that SITE's `_ERR_FIRST` takes from a common condition. -/
theorem State.capture_site_code (s : State) {c : Nat} (hc : c < 256) (hv : bitAt (s.rd R.SITE_ERR_FIRST) 63 = false) :
    (s.capture uSite c 0).get F.SITE_ERR_FIRST_FC = 0x0800 + c := by
  have hfirst := s.capture_rd_errFirst uSite c 0
  rw [show errFirst uSite = R.SITE_ERR_FIRST from rfl, hv] at hfirst
  simp only [State.get, hfirst, bitsAt, fcShift]
  norm_num
  omega

/-! ### The registers that the clauses of O12 name

Each equation says what a write that reaches the register does; the checks of R9 to R12 that concern other registers
compute away. -/

/-- No tile of SITE sleeps, so an access to it wakes none. -/
theorem State.wakeUnit_site (s : State) : s.wakeUnit uSite = s := by rfl

theorem State.csrStore_quiesceLimit (s : State) (v : Word) (e : CsrEnv) :
    s.csrStore R.SITE_QUIESCE_LIMIT v e =
      if 1000 ≤ bitsAt v 31 0 ∧ bitsAt v 31 0 ≤ 60000000 ∧ s.get F.SITE_DRAIN_LIMIT_LIMIT_US ≤ bitsAt v 31 0 then
        s.set F.SITE_QUIESCE_LIMIT_LIMIT_US (bitsAt v 31 0)
      else s.capture uSite 0xFF 0 := by
  have checks : s.csrStore R.SITE_QUIESCE_LIMIT v e =
      if !(decide (1000 ≤ bitsAt v 31 0) && decide (bitsAt v 31 0 ≤ 60000000) && true) ||
          !decide (s.get F.SITE_DRAIN_LIMIT_LIMIT_US ≤ bitsAt v 31 0) then s.capture uSite 0xFF 0
      else s.set F.SITE_QUIESCE_LIMIT_LIMIT_US (bitsAt v 31 0) := by rfl
  rw [checks]
  grind

/-- A staging register of SITE while its commit is pending is refused with 0xFD. -/
theorem State.csrStore_srcAddr_pending (s : State) {v : Word} (e : CsrEnv) (hp : s.get F.SITE_COMMIT_PENDING = 1)
    (hv : bitsAt v 63 0 % 64 = 0) : s.csrStore R.SITE_SRC_ADDR_STG v e = s.capture uSite 0xFD 0 := by
  have checks : s.csrStore R.SITE_SRC_ADDR_STG v e =
      if !((bitsAt v 63 0 % 64 == 0) && true) || !true then s.capture uSite 0xFF 0
      else if bitAt (s.rd R.SITE_COMMIT) 2 then s.capture uSite 0xFD 0
      else s.wr R.SITE_SRC_ADDR_STG (setBits (s.rd R.SITE_SRC_ADDR_STG) 63 0 (bitsAt v 63 0)) := by rfl
  have hbit : bitAt (s.rd R.SITE_COMMIT) 2 = true := by rw [State.bitAt_rd]; exact decide_eq_true hp
  rw [checks]
  simp [hv, hbit]

theorem State.csrStore_siteErrStatus (s : State) (v : Word) (e : CsrEnv) :
    s.csrStore R.SITE_ERR_STATUS v e =
      (s.wr R.SITE_ERR_STATUS (([3, 2, 1, 0].map fun i => (⟨i, i, .rw1c, .const 0, .any⟩ : FieldSpec)).foldl
        (writeField s.wkt.lock v) (s.rd R.SITE_ERR_STATUS))).fltRefresh uSite := by rfl

/-- A register of read-only fields is stored as it was. -/
theorem State.csrStore_liveSeq (s : State) (v : Word) (e : CsrEnv) :
    s.csrStore R.SITE_LIVE_SEQ v e = s.wr R.SITE_LIVE_SEQ (s.rd R.SITE_LIVE_SEQ) := by rfl

theorem State.csrRead_drainDiscard (s : State) :
    s.csrRead R.SITE_DRAIN_DISCARD = (s.rd R.SITE_DRAIN_DISCARD, s.set F.SITE_DRAIN_DISCARD_COUNT 0) := by rfl

theorem exec_commitCancel_tb (s : State) :
    exec (.commitCancel R.TB_COMMIT) s =
      .next (if s.get F.TB_COMMIT_PENDING = 1 then if s.tbDue then s else s.set F.TB_COMMIT_PENDING 0 else s) := by
  have arm : exec (.commitCancel R.TB_COMMIT) s =
      .next (if bitAt (s.rd R.TB_COMMIT) 2 then if s.tbDue then s else s.set F.TB_COMMIT_PENDING 0 else s) := by rfl
  rw [arm, State.bitAt_rd]
  simp only [decide_eq_true_eq]

/-! ### The clauses of O12 -/

/-- A write that reaches a register of SITE is the register's own store. -/
theorem exec_registerWrite_site {s : State} {who : Accessor} {o : Nat} (value : Word) (env : CsrEnv)
    (hm : s.mayWrite who o = true) (hu : o / 0x1000000 = uSite) (hi : inIommu o = false) (h8 : o % 8 = 0) :
    exec (.registerWrite who o 8 value env) s = .next (s.csrStore o value env) := by
  rw [exec_registerWrite_taken value env hm hi h8, hu, State.wakeUnit_site]

theorem State.wr_sameBut (s : State) (o : Nat) (w : Word) : s.sameBut (s.wr o w) [.regs] := by simp [State.sameBut]

theorem State.wr_sameRegs (s : State) (o : Nat) (w : Word) : s.sameRegs (s.wr o w) [o] :=
  fun _ hr => s.rd_wr_ne w (by simpa using hr)

/-- A one clears an RW1C bit of `SITE_ERR_STATUS` and a zero does not; FLT follows the register. -/
theorem State.csrStore_siteErrStatus_spec (s : State) (v : Word) (e : CsrEnv) :
    (∀ b, b < 4 → bitAt ((s.csrStore R.SITE_ERR_STATUS v e).rd R.SITE_ERR_STATUS) b =
      (bitAt (s.rd R.SITE_ERR_STATUS) b && !bitAt v b)) ∧
    s.sameRegs (s.csrStore R.SITE_ERR_STATUS v e) [R.SITE_ERR_STATUS, R.FLT_SUMMARY] ∧
    s.sameBut (s.csrStore R.SITE_ERR_STATUS v e) [.regs, .out, .pcie, .aia] := by
  rw [State.csrStore_siteErrStatus]
  refine ⟨fun b hb => ?_, fun r hr => ?_, by simp [State.sameBut]⟩
  · rw [State.fltRefresh_rd_ne _ _ _ (by decide), State.rd_wr_same]
    interval_cases b <;> simp [bitAt_writeField_rw1c]
  · simp only [List.mem_cons, List.not_mem_nil, or_false, not_or] at hr
    rw [State.fltRefresh_rd_ne _ _ _ hr.2, State.rd_wr_ne _ _ hr.1]

/-- A host's write in bring-up refusal is counted, recorded and reported, and nothing else (R404, R405). -/
theorem State.postedRefused_spec (s : State) :
    (s.postedRefused 0).get F.HIF_PRE_READY_DROP_COUNT =
      min 0xFFFFFFFF (s.get F.HIF_PRE_READY_DROP_COUNT + 1) ∧
    (s.postedRefused 0).hasError uHif 4 ∧
    s.sameBut (s.postedRefused 0) [.regs, .pcie, .out, .free, .aia] := by
  refine ⟨?_, ?_, by simp [State.sameBut, State.postedRefused, State.hifFault]⟩
  · simp only [State.postedRefused, State.hifFault, State.aer_get]
    rw [State.fault_get_ne _ _ _ _ _ _ (by decide) (by decide) (by decide) (by decide), State.get_count_same]
  · simp only [State.postedRefused, State.hifFault, State.hasError, State.aer_get]
    exact State.fault_status _ _ _ _ _ (by decide) (by simp) (by simp) (by simp)

/-- Settles O12, clause by clause: the access reaches its register, and the register's own equation says the rest. -/
theorem registerAccesses : Obligations.RegisterAccesses := by
  unfold Obligations.RegisterAccesses
  refine ⟨?plain, ?reserved, ?staging, ?rw1c, ?readOnly, ?misalignedCore, ?denied, ?mode, ?misalignedHost, ?refusal,
    ?rc, ?cancel, ?cancelNone⟩
  case plain =>
    intro s who value env hm hlo hhi hdrain
    refine ⟨_, exec_registerWrite_site value env hm rfl rfl rfl, ?_⟩
    rw [State.csrStore_quiesceLimit, if_pos ⟨hlo, hhi, hdrain⟩]
    refine ⟨?_, ?_, s.wr_sameRegs _ _, s.wr_sameBut _ _⟩
    · rw [State.get_set_same _ _ (by decide) (by decide)]
      exact Nat.mod_eq_of_lt (bitsAt_lt value 31 0)
    · rw [State.rd_set, if_pos rfl]
      exact bitsAt_setBits_other _ _ _ _ _ _ (by decide) (by decide) (by decide)
  case reserved =>
    intro s who value env hm hv
    refine ⟨_, exec_registerWrite_site value env hm rfl rfl rfl, ?_⟩
    rw [State.csrStore_quiesceLimit, if_neg (by omega)]
    exact ⟨s.capture_rd_ne _ _ _ _ (by decide) (by decide), s.capture_rd_ne _ _ _ _ (by decide) (by decide),
      s.capture_site_code (by decide), s.capture_get_errCount .., s.capture_sameRegs _ _ _, s.capture_sameBut _ _ _⟩
  case staging =>
    intro s who value env hm hp hv
    refine ⟨_, exec_registerWrite_site value env hm rfl rfl rfl, ?_⟩
    rw [s.csrStore_srcAddr_pending env hp hv]
    exact ⟨s.capture_rd_ne _ _ _ _ (by decide) (by decide), s.capture_get_errCount ..,
      s.capture_site_code (by decide), s.capture_sameRegs _ _ _, s.capture_sameBut _ _ _⟩
  case rw1c =>
    intro s who value env hm
    exact ⟨_, exec_registerWrite_site value env hm rfl rfl rfl, s.csrStore_siteErrStatus_spec ..⟩
  case readOnly =>
    intro s who value env hm
    refine ⟨_, exec_registerWrite_site value env hm rfl rfl rfl, ?_⟩
    rw [State.csrStore_liveSeq]
    refine ⟨fun r _ => ?_, s.wr_sameBut _ _⟩
    rw [State.rd_wr]
    split
    · next h => rw [h]
    · rfl
  case misalignedCore =>
    intro s x offset value env hx h8 hi
    have ha := csrAligned_misaligned hi h8
    exact ⟨congrArg _ (State.coreAccess_misaligned true _ hx ha), congrArg _ (State.coreAccess_misaligned false _ hx ha)⟩
  case denied =>
    intro s x offset size value env hx
    exact ⟨fun hr => congrArg _ (State.coreAccess_denied _ hx hr), fun hr => congrArg _ (State.coreAccess_denied _ hx hr)⟩
  case mode =>
    rintro s x offset size write (h | h | h) <;> simp [State.coreReaches, h]
  case misalignedHost =>
    intro s offset value env hr h8 hi
    show execRegisterWrite .host offset 8 value env s = _
    simp [execRegisterWrite, hr, State.hostCsrWrite, csrAligned_misaligned hi h8]
  case refusal =>
    intro s offset size value env hr
    have arm : exec (.registerWrite .host offset size value env) s = .next (s.postedRefused 0) := by
      show execRegisterWrite .host offset size value env s = _
      simp [execRegisterWrite, hr]
    exact ⟨_, arm, s.postedRefused_spec⟩
  case rc =>
    intro s x hm
    refine ⟨_, exec_rcRegisterRead_taken hm rfl rfl, ?_⟩
    rw [show R.SITE_DRAIN_DISCARD / 0x1000000 = uSite from rfl, State.wakeUnit_site, State.csrRead_drainDiscard]
    exact ⟨rfl, s.get_set_same 0 (by decide) (by decide), s.wr_sameRegs _ _, by simp [State.sameBut]⟩
  case cancel =>
    intro s hp hd
    refine ⟨_, exec_commitCancel_tb s, ?_⟩
    rw [if_pos hp, if_neg (by simp [hd])]
    exact ⟨s.get_set_same 0 (by decide) (by decide), s.wr_sameRegs _ _, s.wr_sameBut _ _⟩
  case cancelNone =>
    intro s hp
    rw [exec_commitCancel_tb, if_neg (by omega)]

end Sys2Proof.Machine
end

section
/-! SUPPORT. Every command answers a next state, and O7. -/

namespace Sys2Proof.Machine

/-! ### Every command answers a next state (O7)

`Res.quiet` and `Res.stays` of Laws/Keep already say it of the commands they speak of. Here it is said of the shared
operations and of the commands that branch; every other command answers `.next` outright. -/

/-- The answer is a next state: neither a fault nor a refusal. -/
def Res.completes (r : Res) : Prop := ∃ t, r = .next t

theorem Res.completes_next (t : State) : Res.completes (.next t) := ⟨t, rfl⟩

theorem Res.completes_ite (p : Prop) [Decidable p] (a b : Res) :
    Res.completes (if p then a else b) ↔ if p then a.completes else b.completes := by split <;> rfl

theorem Res.stays_completes {s : State} {r : Res} (h : Res.stays s r) : r.completes := by
  obtain ⟨t, ht, -⟩ := h
  exact ⟨t, ht⟩

theorem Res.quiet_completes {s : State} {r : Res} (h : Res.quiet s r) : r.completes :=
  Res.stays_completes (Res.quiet_stays h)

/-! The operations that several commands share. -/

theorem State.teSqRow_completes (s : State) (qp op : Nat) (h : TeHost) (act : State → List Byte → State) :
    (s.teSqRow qp op h act).completes := Res.completes_next _

theorem State.tbAdjust_completes (s : State) (op : Nat) (effect : State → State) :
    (s.tbAdjust op effect).completes := by
  unfold State.tbAdjust
  split <;> exact Res.completes_next _

/-- In Hold the host interface keeps a TLP; else its own meaning answers. -/
theorem State.onTlp_completes {s : State} {i : Tlp} {act : Res} (h : act.completes) : (s.onTlp i act).completes := by
  unfold State.onTlp
  split
  · exact Res.completes_next _
  · exact h

theorem State.spdmRun_completes (s : State) (pf version stage : Nat) (outside opened handshake : Bool) (r : SpdmReq)
    (act : State → State) : (s.spdmRun pf version stage outside opened handshake r act).completes := by
  unfold State.spdmRun
  (repeat' split) <;> exact Res.completes_next _

theorem State.tdispRun_completes (s : State) (pf session fn version : Nat) (act : State → State) :
    (s.tdispRun pf session fn version act).completes := by
  unfold State.tdispRun
  (repeat' split) <;> exact Res.completes_next _

/-! The commands that match on what they find. -/

@[simp] theorem execRegisterWrite_completes (who : Accessor) (offset size : Nat) (value : Word) (env : CsrEnv)
    (s : State) :
    Res.completes (execRegisterWrite who offset size value env s) := by
  unfold execRegisterWrite
  (repeat' split) <;> exact Res.completes_next _

@[simp] theorem execCommitCancel_completes (offset : Nat) (s : State) :
    Res.completes (execCommitCancel offset s) := by
  unfold execCommitCancel
  split <;> exact Res.completes_next _

@[simp] theorem execSiteCopyEnd_completes (hostBytes : List Byte) (x : SrcRead) (s : State) :
    Res.completes (execSiteCopyEnd hostBytes x s) := by
  unfold execSiteCopyEnd
  (repeat' split) <;> exact Res.completes_next _

@[simp] theorem execSiteVerifyEnd_completes (receiving : List Nat) (s : State) :
    Res.completes (execSiteVerifyEnd receiving s) := by
  unfold execSiteVerifyEnd
  simp only []
  (repeat' split) <;> exact Res.completes_next _

@[simp] theorem execSiteQuiesceTimeout_completes (s : State) : Res.completes (execSiteQuiesceTimeout s) := by
  unfold execSiteQuiesceTimeout
  (repeat' split) <;> exact Res.completes_next _

@[simp] theorem execSiteApplyEnd_completes (s : State) : Res.completes (execSiteApplyEnd s) := by
  unfold execSiteApplyEnd
  (repeat' split) <;> exact Res.completes_next _

@[simp] theorem execCphAdmission_completes (pair index : Nat) (ecc : EccResult) (s : State) :
    Res.completes (execCphAdmission pair index ecc s) := by
  unfold execCphAdmission
  simp only []
  (repeat' split) <;> exact Res.completes_next _

@[simp] theorem execKeySlotFetch_completes (slot : Nat) (ecc : EccResult) (s : State) :
    Res.completes (execKeySlotFetch slot ecc s) := by
  unfold execKeySlotFetch
  simp only []
  (repeat' split) <;> exact Res.completes_next _

@[simp] theorem execCphCompare_completes (index : Nat) (agree : Bool) (s : State) :
    Res.completes (execCphCompare index agree s) := by
  unfold execCphCompare
  (repeat' split) <;> exact Res.completes_next _

@[simp] theorem execCphRetryCompare_completes (index : Nat) (agree : Bool) (s : State) :
    Res.completes (execCphRetryCompare index agree s) := by
  unfold execCphRetryCompare
  (repeat' split) <;> exact Res.completes_next _

@[simp] theorem execCphResultRelease_completes (index : Nat) (s : State) :
    Res.completes (execCphResultRelease index s) := by
  unfold execCphResultRelease
  (repeat' split) <;> exact Res.completes_next _

@[simp] theorem execCphLoadBlob_completes (hostBytes : List Byte) (x : SrcRead) (s : State) :
    Res.completes (execCphLoadBlob hostBytes x s) := by
  unfold execCphLoadBlob
  simp only []
  (repeat' split) <;> exact Res.completes_next _

@[simp] theorem execCphSetSeq_completes (s : State) : Res.completes (execCphSetSeq s) := by
  unfold execCphSetSeq
  simp only []
  (repeat' split) <;> exact Res.completes_next _

@[simp] theorem execTwkInstall_completes (hostBytes : List Byte) (x : SrcRead) (s : State) :
    Res.completes (execTwkInstall hostBytes x s) := by
  unfold execTwkInstall
  (repeat' split) <;> exact Res.completes_next _

@[simp] theorem execCphSetPin_completes (s : State) : Res.completes (execCphSetPin s) := by
  unfold execCphSetPin
  simp only []
  (repeat' split) <;> exact Res.completes_next _

@[simp] theorem execCphKeyOpDone_completes (s : State) : Res.completes (execCphKeyOpDone s) := by
  unfold execCphKeyOpDone
  (repeat' split) <;> exact Res.completes_next _

@[simp] theorem execTePacketReceive_completes (engine : Nat) (h : TeHost) (s : State) :
    Res.completes (execTePacketReceive engine h s) := by
  fun_cases execTePacketReceive <;> exact Res.completes_next _

@[simp] theorem execInvalidationComplete_completes (index : Nat) (s : State) :
    Res.completes (execInvalidationComplete index s) := by
  unfold execInvalidationComplete
  (repeat' split) <;> exact Res.completes_next _

@[simp] theorem execCcTimer_completes (qp : Nat) (s : State) : Res.completes (execCcTimer qp s) := by
  unfold execCcTimer
  (repeat' split) <;> exact Res.completes_next _

@[simp] theorem execTeUcLoadEnd_completes (hostBytes : List Byte) (x : SrcRead) (s : State) :
    Res.completes (execTeUcLoadEnd hostBytes x s) := by
  unfold execTeUcLoadEnd
  simp only []
  (repeat' split) <;> exact Res.completes_next _

@[simp] theorem execPatchRepair_completes (engine index : Nat) (s : State) :
    Res.completes (execPatchRepair engine index s) := by
  unfold execPatchRepair
  (repeat' split) <;> exact Res.completes_next _

@[simp] theorem execNvmeAdmission_completes (fn : Nat) (sqe : List Byte) (e : DmaEnd) (s : State) :
    Res.completes (execNvmeAdmission fn sqe e s) := by
  unfold execNvmeAdmission
  simp only []
  (repeat' split) <;> exact Res.completes_next _

@[simp] theorem execNveCipherCompletion_completes (engine : Nat) (s : State) :
    Res.completes (execNveCipherCompletion engine s) := by
  unfold execNveCipherCompletion
  simp only []
  (repeat' split) <;> exact Res.completes_next _

@[simp] theorem execNveTcpSegmentReceive_completes (engine : Nat) (s : State) :
    Res.completes (execNveTcpSegmentReceive engine s) := by
  unfold execNveTcpSegmentReceive
  simp only []
  (repeat' split) <;> exact Res.completes_next _

@[simp] theorem execNveTcpRto_completes (conn : Nat) (s : State) : Res.completes (execNveTcpRto conn s) := by
  unfold execNveTcpRto
  simp only []
  (repeat' split) <;> exact Res.completes_next _

@[simp] theorem execCompletionTimeout_completes (port tag : Nat) (s : State) :
    Res.completes (execCompletionTimeout port tag s) := by
  unfold execCompletionTimeout
  (repeat' split) <;> exact Res.completes_next _

@[simp] theorem execPushVerifyEnd_completes (s : State) : Res.completes (execPushVerifyEnd s) := by
  unfold execPushVerifyEnd
  (repeat' split) <;> exact Res.completes_next _

@[simp] theorem execTbAdjustBoundary_completes (s : State) : Res.completes (execTbAdjustBoundary s) := by
  unfold execTbAdjustBoundary
  (repeat' split) <;> exact Res.completes_next _

@[simp] theorem execTileWakeComplete_completes (tile : Nat) (s : State) :
    Res.completes (execTileWakeComplete tile s) := by
  unfold execTileWakeComplete
  simp only []
  (repeat' split) <;> exact Res.completes_next _

@[simp] theorem execNightDrainEnd_completes (s : State) : Res.completes (execNightDrainEnd s) := by
  unfold execNightDrainEnd
  simp only []
  (repeat' split) <;> exact Res.completes_next _

@[simp] theorem execQuickCheckEnd_completes (domain : Nat) (readings : List (Option (Nat × Nat × Nat))) (s : State) :
    Res.completes (execQuickCheckEnd domain (readings : List (Option (Nat × Nat × Nat))) s) := by
  unfold execQuickCheckEnd
  split <;> exact Res.completes_next _

@[simp] theorem execUndervoltage_completes (domain : Nat) (s : State) :
    Res.completes (execUndervoltage domain s) := by
  unfold execUndervoltage
  (repeat' split) <;> exact Res.completes_next _

@[simp] theorem execQualifyStepEnd_completes (readings : List (Option (Nat × Nat × Nat))) (s : State) :
    Res.completes (execQualifyStepEnd (readings : List (Option (Nat × Nat × Nat))) s) := by
  unfold execQualifyStepEnd
  (repeat' split) <;> exact Res.completes_next _

@[simp] theorem execRailSettleTimeout_completes (s : State) : Res.completes (execRailSettleTimeout s) := by
  unfold execRailSettleTimeout
  (repeat' split) <;> exact Res.completes_next _

@[simp] theorem execImageCopyEnd_completes (readable : Bool) (s : State) :
    Res.completes (execImageCopyEnd readable s) := by
  unfold execImageCopyEnd
  simp only []
  (repeat' split) <;> exact Res.completes_next _

@[simp] theorem execSignatureVerifyEnd_completes (s : State) : Res.completes (execSignatureVerifyEnd s) := by
  unfold execSignatureVerifyEnd
  (repeat' split) <;> exact Res.completes_next _

@[simp] theorem execWarmCheckEnd_completes (s : State) : Res.completes (execWarmCheckEnd s) := by
  unfold execWarmCheckEnd
  (repeat' split) <;> exact Res.completes_next _

@[simp] theorem execVerifySlotEnd_completes (readable : Bool) (s : State) :
    Res.completes (execVerifySlotEnd readable s) := by
  unfold execVerifySlotEnd
  (repeat' split) <;> exact Res.completes_next _

@[simp] theorem execXspiCmdEnd_completes (readable : Bool) (ecc : EccResult) (s : State) :
    Res.completes (execXspiCmdEnd readable ecc s) := by
  unfold execXspiCmdEnd
  simp only []
  (repeat' split) <;> exact Res.completes_next _

@[simp] theorem execTokenCheckEnd_completes (s : State) : Res.completes (execTokenCheckEnd s) := by
  unfold execTokenCheckEnd
  (repeat' split) <;> exact Res.completes_next _

@[simp] theorem execWicketOpenComplete_completes (s : State) : Res.completes (execWicketOpenComplete s) := by
  unfold execWicketOpenComplete
  split <;> exact Res.completes_next _

@[simp] theorem execTapDmi_completes (op addr : Nat) (x : DmiData) (s : State) :
    Res.completes (execTapDmi op addr x s) := by
  unfold execTapDmi
  simp only []
  (repeat' split) <;> exact Res.completes_next _

/-! The commands that a TLP brings. -/

@[simp] theorem execFunctionLevelReset_completes (fn : Nat) (s : State) :
    Res.completes (execFunctionLevelReset fn s) := by
  refine State.onTlp_completes ?_
  (repeat' split) <;> exact Res.completes_next _

@[simp] theorem execBusMasterDisable_completes (fn : Nat) (s : State) :
    Res.completes (execBusMasterDisable fn s) := by
  refine State.onTlp_completes ?_
  (repeat' split) <;> exact Res.completes_next _

@[simp] theorem execVfEnableClear_completes (pf : Nat) (s : State) : Res.completes (execVfEnableClear pf s) := by
  refine State.onTlp_completes ?_
  (repeat' split) <;> exact Res.completes_next _

@[simp] theorem execConfigRequest_completes (x : TlpRoute) (offset : Nat) (write : Bool) (be value : Nat)
    (s : State) :
    Res.completes (execConfigRequest x offset write be value s) := by
  refine State.onTlp_completes ?_
  simp only []
  (repeat' split) <;> exact Res.completes_next _

@[simp] theorem execMemoryReadRequest_completes (fn bar offset len tag : Nat) (stream : Option Nat) (good : Bool)
    (ecc : EccResult) (s : State) :
    Res.completes (execMemoryReadRequest fn bar offset len tag stream good ecc s) := by
  refine State.onTlp_completes ?_
  simp only []
  (repeat' split) <;> exact Res.completes_next _

@[simp] theorem execPostedWriteRequest_completes (fn bar offset : Nat) (data : List Byte) (poison : Bool)
    (stream : Option Nat) (good : Bool) (env : CsrEnv) (h : TeHost) (s : State) :
    Res.completes (execPostedWriteRequest fn bar offset data poison stream good env h s) := by
  refine State.onTlp_completes ?_
  simp only []
  (repeat' split) <;> exact Res.completes_next _

@[simp] theorem execInboundCompletion_completes (port link tag : Nat) (x : TlpRoute) (ok poison : Bool)
    (data : List Byte) (s : State) :
    Res.completes (execInboundCompletion port link tag x ok poison data s) := by
  refine State.onTlp_completes ?_
  (repeat' split) <;> exact Res.completes_next _

@[simp] theorem execAtsInvalidationRequest_completes (x : TlpRoute) (r : AtsRange) (s : State) :
    Res.completes (execAtsInvalidationRequest x r s) := by
  refine State.onTlp_completes ?_
  simp only []
  (repeat' split) <;> exact Res.completes_next _

@[simp] theorem execDoeDiscovery_completes (pf index : Nat) (s : State) :
    Res.completes (execDoeDiscovery pf index s) := by
  refine State.onTlp_completes ?_
  (repeat' split) <;> exact Res.completes_next _

@[simp] theorem execIdeKmRequest_completes (pf session : Nat) (message : List Byte) (s : State) :
    Res.completes (execIdeKmRequest pf session message s) := by
  refine State.onTlp_completes ?_
  simp only []
  (repeat' split) <;> exact Res.completes_next _

@[simp] theorem execAtomicopIoRequest_completes (x : TlpRoute) (tag : Nat) (s : State) :
    Res.completes (execAtomicopIoRequest x tag s) := by
  refine State.onTlp_completes ?_
  (repeat' split) <;> exact Res.completes_next _

@[simp] theorem execPcieMessage_completes (x : TlpRoute) (code data : Nat) (s : State) :
    Res.completes (execPcieMessage x code data s) := by
  refine State.onTlp_completes ?_
  simp only []
  (repeat' split) <;> exact Res.completes_next _

/-- Every command on every state answers a next state. -/
theorem exec_completes (i : Instr) (s : State) : Res.completes (exec i s) := by
  cases i with
  -- commands that leave memory as it was (Laws/Keep)
  | frameReceive | pfcRepeat | ethPfcEnClear | pfcFrameReceived | pfcPauseExpiry | linkLoss | linkTrainingComplete
  | laneCalibrationComplete | packetInject | flitInject | flitHop | headerDelivery | stallTimeout
  | ejectionWatchdog | prmStallLimitWrite | pavLoad | pavScrubEnd | userResetEnd | pavUnload | quiesceAck
  | graceExpiry | pavHbmWritesDone | pavRelease | pavCancel | pavcRelease | userReset | pavcClkWrite | clkcapWrite
  | configScan | pavHbmRequest | regWindowAccess | regReadReturn | pavRegTimeoutExpiry | rxCreditReturn
  | sleepReqRise | sleepReqFall | arbourDispatch | commitSequencerPass | arbInitLimitExpiry | arbRunLimitExpiry
  | deadlock | haltHold | parkTimeout | arbBreakpointHalt | arbHalt | arbResume | arbStep | arbAbandon
  | arbHaltAll | arbResumeAll | arbNop | arbAdd | arbSub | arbAnd | arbOr | arbXor | arbAndn | arbShl | arbShr
  | arbSar | arbMinu | arbMaxu | arbMul | arbSltu | arbAddi | arbAndi | arbOri | arbXori | arbShli | arbShri
  | arbSari | arbSltui | arbMovi | arbMovhi | arbBfx | arbBfi | arbExt | arbIns | arbKcpy | arbCrcwin | arbKput
  | arbKclr | arbKprof | arbCrc | arbTpz | arbLd | arbSt | arbBr | arbBri | arbJal | arbJr | arbRds | arbEmitf
  | arbCommit | arbEnd | arbLock | arbUnlock | arbSignal | arbWait | arbOrder | arbPark | arbTset | arbRelease
  | classifyHandover | acmSearchAdmit | classifyInject | mirrorCopy | acmVerCommitGo | acmVerApply | versionRetire
  | sweepEnd | acmEntWrite | acmEntWriteCtrl | acmEntRead | acmEntInvalidate | acmEntCmdDone | acmShift
  | acmShiftDone | acmParityScan | acmActWrite | acmActRead | acmPolWrite | acmPolRead | indirectionTableWrite
  | emtInsert | emtUpsert | emtDelete | emtFind | emtReadAt | emtDeleteAt | emtDmaRead | readLock | emtDmaWrite
  | writeUnlock | emtDmaUnlock | emtRedirCommitGo | schEnqueue | frameSelect | frameTransmitEnd | shaperRefill
  | schNodeCommitGo | schGclCommitGo | gclChange | gateEntryChange | gclCycleStart | queueEnable | queueStopped
  | moderationTimer | hostIntr | hifFnRssWrite | ringEnable | terraceSend | patrolScrub | zeroMapClear
  | laneLockAlignment =>
    exact Res.quiet_completes (s := s) (by dsimp only [exec]; simp)
  -- commands that leave the queue as it was (Laws/Keep)
  | pavHeaderCheckEnd | pavFrameEnd | pavHbmResponse | emtBucketReadReturn | emtCmdDone | displacementMove
  | learnApply | ageScan | ageRemoval | emtDmaDone | queueDisable | hifDbSq | hifDbRq | hifDbCq | sendFrameFetch
  | descSend | descSendInline | sendCarrier | descNop | hifReceive | txReportReceive | timestampTimeout | hostRead
  | hostWrite | hifQForce | terraceReceive | iofenceC =>
    exact Res.stays_completes (s := s) (by dsimp only [exec]; simp)
  -- commands whose meaning is a choice by conditions
  | siteQuiesceEnd | siteDrainLimitExpiry | siteResumeEnd | cphTestEnd | reinstateMove | cphLoadClear
  | cphInvalidate | twkRemove | teDeregMr | teTaggedReceive | ackTimeout | rnrTimer | reorderTimer | teQpForce
  | eventWordLimit | nveTargetTimeout | nveConnectionUp | nveCloseFin | tagQuarantineEnd | pcieLinkUp
  | l1IdleEntry | l0pWindow | timeRefLost | pllLockLoss | slewEnd | ppsInEdge | ppsOutEdge | ppsOutWidthEnd
  | tileSleepDecision | hartWfi | nightEntryComplete | perstAssert | perstDeassert | sysRstAssert | sysRstDeassert
  | lodgePgRise | supplyWarning | holdDwellEnd | temperatureSample | thermalTrip | thermalRestart | sundialSample
  | operatingHour | romStart | ddrTrainingEnd | hbmInitEnd | wicketErasure | tapExtest | tapWktChal
  | completionLost | l0pHostRequest =>
    dsimp only [exec]
    simp only [execSiteQuiesceEnd, execSiteDrainLimitExpiry, execSiteResumeEnd, execCphTestEnd, execReinstateMove,
      execCphLoadClear, execCphInvalidate, execTwkRemove, execTeDeregMr, execTeTaggedReceive, execAckTimeout,
      execRnrTimer, execReorderTimer, execTeQpForce, execEventWordLimit, execNveTargetTimeout, execNveConnectionUp,
      execNveCloseFin, execTagQuarantineEnd, execPcieLinkUp, execL1IdleEntry, execL0pWindow, execTimeRefLost,
      execPllLockLoss, execSlewEnd, execPpsInEdge, execPpsOutEdge, execPpsOutWidthEnd, execTileSleepDecision,
      execHartWfi, execNightEntryComplete, execPerstAssert, execPerstDeassert, execSysRstAssert, execSysRstDeassert,
      execLodgePgRise, execSupplyWarning, execHoldDwellEnd, execTemperatureSample, execThermalTrip,
      execThermalRestart, execSundialSample, execOperatingHour, execRomStart, execDdrTrainingEnd, execHbmInitEnd,
      execWicketErasure, execTapExtest, execTapWktChal, execCompletionLost, execL0pHostRequest, ↓Res.completes_ite,
      ↓Res.completes_next, ite_self]
  -- commands that match on what they find
  | registerWrite | commitCancel | siteCopyEnd | siteVerifyEnd | siteQuiesceTimeout | siteApplyEnd | cphAdmission
  | keySlotFetch | cphCompare | cphRetryCompare | cphResultRelease | cphLoadBlob | cphSetSeq | twkInstall
  | cphSetPin | cphKeyOpDone | tePacketReceive | invalidationComplete | ccTimer | teUcLoadEnd | patchRepair
  | nvmeAdmission | nveCipherCompletion | nveTcpSegmentReceive | nveTcpRto | functionLevelReset | busMasterDisable
  | vfEnableClear | configRequest | memoryReadRequest | postedWriteRequest | inboundCompletion | completionTimeout
  | atsInvalidationRequest | doeDiscovery | ideKmRequest | pushVerifyEnd | tbAdjustBoundary | tileWakeComplete
  | nightDrainEnd | quickCheckEnd | undervoltage | qualifyStepEnd | railSettleTimeout | imageCopyEnd
  | signatureVerifyEnd | warmCheckEnd | verifySlotEnd | xspiCmdEnd | tokenCheckEnd | wicketOpenComplete | tapDmi
  | atomicopIoRequest | pcieMessage =>
    dsimp only [exec]; simp
  -- commands that a shared operation carries out
  | teSend | teSendImm | teSendInv | teWrite | teWriteImm | teRead | teAtomicCas | teAtomicFaa | teLocalInv
  | teBindMw | teWqeWait | teWqeNop =>
    exact State.teSqRow_completes ..
  | tbRateOnly | tbSet | tbStep | tbSlew => exact State.tbAdjust_completes ..
  | spdmGetVersion | spdmGetCapabilities | spdmNegotiateAlgorithms | spdmGetDigests | spdmGetCertificate
  | spdmChallenge | spdmGetMeasurements | spdmKeyExchange | spdmFinish | spdmHeartbeat | spdmKeyUpdate
  | spdmEndSession | spdmVendorMldsaSignature =>
    exact State.onTlp_completes (State.spdmRun_completes ..)
  | tdispGetVersion | tdispGetCapabilities | tdispLockInterface | tdispGetDeviceInterfaceReport
  | tdispGetDeviceInterfaceState | tdispStartInterface | tdispStopInterface =>
    exact State.onTlp_completes (State.tdispRun_completes ..)
  -- commands that answer `.next` outright
  | _ => exact Res.completes_next _

/-- Settles O7: row by row, each meaning ends in a next state on every branch. -/
theorem everyCommandCompletes : Obligations.EveryCommandCompletes := by
  unfold Obligations.EveryCommandCompletes
  exact exec_completes

end Sys2Proof.Machine
end

section
/-! SUPPORT. The blocks of the codes that name no unit, and O9. -/

namespace Sys2Proof.Machine

/-! ### Codes that name no unit (O9, R33) -/

/-- The codes that name no unit (R33). -/
def unitlessCodes : List Nat := [0x06, 0x07, 0x0B, 0x0C, 0x0D, 0x0E, 0x0F, 0x1B, 0x1C, 0x1D, 0x1E, 0x1F]

theorem unitRegs_of_code_without_unit : ∀ c ∈ unitlessCodes, unitRegs c = [] := by decide

/-- Such a code has no tile that an access could wake. -/
theorem State.wakeUnit_of_code_without_unit (s : State) {c : Nat} (hc : c ∈ unitlessCodes) : s.wakeUnit c = s := by
  have htiles : ∀ c ∈ unitlessCodes, unitTiles c = [] := by decide
  rw [State.wakeUnit, htiles c hc]
  rfl

/-- The IOMMU's file stands in the block of MEM. -/
theorem inIommu_of_unit_ne_mem {o : Nat} (h : o / 0x1000000 ≠ uMem) : inIommu o = false := by
  have : uMem = 0x19 := rfl
  by_contra hi
  simp only [inIommu, Bool.not_eq_false, Bool.and_eq_true, decide_eq_true_eq] at hi
  omega

/-- Settles O9: the access is let through, wakes nothing, and finds no register. -/
theorem codesWithoutUnit : Obligations.CodesWithoutUnit := by
  unfold Obligations.CodesWithoutUnit
  intro s c x hc hx h8
  have hunit : (c * 0x1000000 + x) / 0x1000000 = c := by omega
  have h8' : (c * 0x1000000 + x) % 8 = 0 := by omega
  have hnone : findReg (unitRegs ((c * 0x1000000 + x) / 0x1000000)) ((c * 0x1000000 + x) % 0x1000000) = none := by
    rw [hunit, unitRegs_of_code_without_unit c hc]
    rfl
  have hi : inIommu (c * 0x1000000 + x) = false :=
    inIommu_of_unit_ne_mem (by rw [hunit]; rintro rfl; exact absurd hc (by decide))
  constructor
  · intro h hm
    rw [exec_rcRegisterRead_taken hm hi h8', hunit, s.wakeUnit_of_code_without_unit hc,
      State.csrRead_no_register _ hnone]
    rfl
  · intro who value env hm
    rw [exec_registerWrite_taken value env hm hi h8', hunit, s.wakeUnit_of_code_without_unit hc, State.csrStore, hnone]

end Sys2Proof.Machine
end

section
/-! SUPPORT. Reception at a port and priority flow control, and O14. -/

namespace Sys2Proof.Machine

/-! ### Operations that touch only the MACs and what is sent (R17, R89)

The PFC settlement that follows every change of occupancy changes the MACs' own state and sends frames; everything else,
registers and stored frames among it, is as before. -/

/-- `t` differs from `s` at most in the state of the MACs and in what has been sent. -/
def EthOnly (s t : State) : Prop := t = (s.withEth t.eth).withOut t.out

namespace EthOnly

theorem refl (s : State) : EthOnly s s := rfl

theorem trans {a b c : State} (h : EthOnly a b) (k : EthOnly b c) : EthOnly a c := by
  unfold EthOnly at *
  rw [k, h]
  rfl

variable {s t : State} (h : EthOnly s t)
include h

theorem regs : t.regs = s.regs := by rw [h]; rfl
theorem get (f : Fld) : t.get f = s.get f := State.get_congr h.regs f
theorem frames : t.frames = s.frames := by rw [h]; rfl
theorem arb : t.arb = s.arb := by rw [h]; rfl
theorem sameBut : s.sameBut t [.eth, .out] := by rw [h]; simp [State.sameBut]

/-- The plan, the timebases and the clock are as before, so a receive timestamp is. -/
theorem rxStamp (p : Nat) : t.rxStamp p = s.rxStamp p := by rw [h]; rfl

theorem portFec (p : Nat) : Machine.portFec t.plan p = Machine.portFec s.plan p := by rw [h]; rfl
theorem frameFiltered (p : Nat) (d : List Byte) : t.frameFiltered p d = s.frameFiltered p d := by rw [h]; rfl

end EthOnly

theorem State.withEth_ethOnly (s : State) (x : EthState) : EthOnly s (s.withEth x) := rfl
theorem State.emit_ethOnly (s : State) (o : Output) : EthOnly s (s.emit o) := rfl
theorem State.setArriving_ethOnly (s : State) (p : Nat) (a : Arriving) : EthOnly s (s.setArriving p a) := rfl
theorem State.setRepeating_ethOnly (s : State) (l : List Nat) : EthOnly s (s.setRepeating l) := rfl

theorem State.sendPfc_ethOnly (s : State) (p c q : Nat) : EthOnly s (s.sendPfc p c q) := by
  unfold State.sendPfc
  split
  · exact s.withEth_ethOnly _
  · exact s.emit_ethOnly _

theorem State.pfcUpdate_ethOnly (s : State) (n : Nat) : EthOnly s (s.pfcUpdate n) := by
  unfold State.pfcUpdate
  dsimp only
  repeat' split
  · exact (s.setRepeating_ethOnly _).trans (State.sendPfc_ethOnly ..)
  · exact .refl s
  · exact (s.setRepeating_ethOnly _).trans (State.sendPfc_ethOnly ..)
  · exact .refl s

theorem foldl_ethOnly {α : Type} (g : State → α → State) (l : List α) (s : State) (h : ∀ s x, EthOnly s (g s x)) :
    EthOnly s (l.foldl g s) := by
  induction l generalizing s with
  | nil => exact .refl s
  | cons x l ih => exact (h s x).trans (ih _)

theorem State.pfcSettle_ethOnly (s : State) : EthOnly s s.pfcSettle :=
  (s.withEth_ethOnly _).trans (foldl_ethOnly _ _ _ State.pfcUpdate_ethOnly)

/-! What they keep of the MACs' own state. -/

@[simp] theorem State.sendPfc_arriving (s : State) (p c q : Nat) : (s.sendPfc p c q).eth.arriving = s.eth.arriving := by
  unfold State.sendPfc
  split <;> rfl

@[simp] theorem State.pfcUpdate_arriving (s : State) (n : Nat) : (s.pfcUpdate n).eth.arriving = s.eth.arriving := by
  unfold State.pfcUpdate
  dsimp only
  (repeat' split) <;> simp [State.setRepeating]

@[simp] theorem State.pfcSettle_arriving (s : State) : s.pfcSettle.eth.arriving = s.eth.arriving := by
  unfold State.pfcSettle
  dsimp only
  rw [foldl_part (fun s : State => s.eth.arriving) _ _ _ State.pfcUpdate_arriving]
  rfl

@[simp] theorem State.setArriving_arriving (s : State) (p : Nat) (a : Arriving) :
    (s.setArriving p a).eth.arriving = spSet arrivingNone s.eth.arriving p a := by rfl

@[simp] theorem State.sendPfc_repeating (s : State) (p c q : Nat) :
    (s.sendPfc p c q).eth.repeating = s.eth.repeating := by
  unfold State.sendPfc
  split <;> rfl

/-! ### Bytes of an arriving frame (R17) -/

theorem State.storeBytes_ethOnly (s : State) (p : Nat) (d : List Byte) : EthOnly s (s.storeBytes p d) := by
  unfold State.storeBytes
  dsimp only
  repeat' split
  · exact .refl s
  · exact (((s.setArriving_ethOnly _ _).trans (State.pfcSettle_ethOnly _)).trans (State.setArriving_ethOnly ..)).trans
      (State.pfcSettle_ethOnly _)
  · exact (s.setArriving_ethOnly _ _).trans (State.pfcSettle_ethOnly _)

/-- Neither MAC control nor filtered: the header keeps no frame from the buffer. -/
theorem State.frameFiltered_eq_false {s : State} {p : Nat} {d : List Byte} (hc : beAt d 12 2 ≠ 0x8808)
    (hf : s.get (F.ETH_RX_CFG_UC_FILTER p) = 0) : s.frameFiltered p d = false := by
  simp [State.frameFiltered, hc, hf]

/-- Bytes that find room stand in the buffer, and no other frame that is arriving changes. -/
theorem State.storeBytes_arriving {s : State} {p : Nat} {d : List Byte} (hd : (s.arrivingAt p).dropped = false)
    (hlen : 16 ≤ d.length) (hf : s.frameFiltered p d = false) (hroom : s.ibufBytes + d.length ≤ ibufSize) :
    (s.storeBytes p d).eth.arriving =
      spSet arrivingNone s.eth.arriving p ⟨framePrio d (s.get F.ETH_PFC_CFG_DEFAULT_PCP), d.length, false⟩ := by
  have hfull : ¬ ibufSize < s.ibufBytes - (s.arrivingAt p).bytes + d.length := by omega
  simp [State.storeBytes, hd, hf, hfull, show ¬ d.length < 16 by omega]

theorem spErase_insert {α : Type} (m : Sparse α) (k : Nat) (v : α) : spErase (spInsert m k v) k = spErase m k := by
  induction m with
  | nil => simp [spInsert, spErase]
  | cons x m ih =>
    obtain ⟨k', v'⟩ := x
    simp only [spInsert]
    split
    · simp [spErase]
    · split
      · next h => simp [spErase, h]
      · next h => simp [spErase, h, ih]

theorem spErase_erase {α : Type} (m : Sparse α) (k : Nat) : spErase (spErase m k) k = spErase m k := by
  induction m with
  | nil => rfl
  | cons x m ih =>
    obtain ⟨k', v'⟩ := x
    simp only [spErase]
    split
    · exact ih
    · next h => simp [spErase, h, ih]

/-- What was put at a key is gone when the key is emptied. -/
theorem spSet_set_default {α : Type} [DecidableEq α] (d : Nat → α) (m : Sparse α) (k : Nat) (v : α) :
    spSet d (spSet d m k v) k (d k) = spErase m k := by
  simp only [spSet, if_true]
  split
  · exact spErase_erase m k
  · exact spErase_insert m k v

theorem sum_map_spErase_le {α : Type} (f : Nat × α → Nat) (m : Sparse α) (k : Nat) :
    ((spErase m k).map f).sum ≤ (m.map f).sum := by
  induction m with
  | nil => exact Nat.le_refl _
  | cons x m ih =>
    obtain ⟨k', v'⟩ := x
    simp only [spErase]
    split <;> simp <;> omega

/-- A frame that was arriving is freed whole: the buffer then holds no more than before. -/
theorem State.ibufBytes_of_freed {s t : State} (h : EthOnly s t) {p : Nat}
    (ha : t.eth.arriving = spErase s.eth.arriving p) : t.ibufBytes ≤ s.ibufBytes := by
  have := sum_map_spErase_le (fun x : Nat × Arriving => x.2.bytes) s.eth.arriving p
  simp only [State.ibufBytes, h.frames, ha]
  omega

/-! ### The end of a frame (R17, R246) -/

/-- The state in which the end of a frame is judged: what was stored of the frame is freed. -/
def State.freeArriving (s : State) (p : Nat) (d : List Byte) : State :=
  if s.arrivingAt p = arrivingNone 0 then s else (s.storeBytes p d).setArriving p (arrivingNone 0)

theorem State.freeArriving_ethOnly (s : State) (p : Nat) (d : List Byte) : EthOnly s (s.freeArriving p d) := by
  unfold State.freeArriving
  split
  · exact .refl s
  · exact (s.storeBytes_ethOnly p d).trans (State.setArriving_ethOnly ..)

theorem State.freeArriving_ibufBytes {s : State} {p : Nat} {d : List Byte} (hd : (s.arrivingAt p).dropped = false)
    (hlen : 16 ≤ d.length) (hf : s.frameFiltered p d = false) (hroom : s.ibufBytes + d.length ≤ ibufSize) :
    (s.freeArriving p d).ibufBytes ≤ s.ibufBytes := by
  have h := s.freeArriving_ethOnly p d
  unfold State.freeArriving at h ⊢
  split
  · exact Nat.le_refl _
  · next hne =>
    rw [if_neg hne] at h
    refine State.ibufBytes_of_freed h (p := p) ?_
    rw [State.setArriving_arriving, State.storeBytes_arriving hd hlen hf hroom]
    exact spSet_set_default ..

/-- A whole frame: its end, judged with what was stored of it freed, and the settlement that freeing brings. -/
theorem exec_frameReceive_end {s : State} {p : Nat} (d : List Byte) {m : FrameMarks} (hup : linkUp s p = true)
    (hm : m.arriving = false) :
    ∃ t, exec (.frameReceive p d m) s = .next t ∧
      EthOnly ((s.freeArriving p d).frameEnd p d m (s.arrivingAt p).dropped) t ∧
      (s.arrivingAt p = arrivingNone 0 → t = s.frameEnd p d m (s.arrivingAt p).dropped) := by
  have arm : exec (.frameReceive p d m) s =
      .next (if s.arrivingAt p = arrivingNone 0 then (s.freeArriving p d).frameEnd p d m (s.arrivingAt p).dropped
        else ((s.freeArriving p d).frameEnd p d m (s.arrivingAt p).dropped).pfcSettle) := by
    show execFrameReceive p d m s = _
    simp [execFrameReceive, hup, hm, State.freeArriving]
  refine ⟨_, arm, ?_, fun h => ?_⟩
  · split
    · exact .refl _
    · exact State.pfcSettle_ethOnly _
  · rw [if_pos h, State.freeArriving, if_pos h]

/-- A frame whose end only counts: the counter counts once, and only the MACs' own state and what they send change
besides. With nothing stored of it, the count is all. -/
theorem exec_frameReceive_counted {s : State} {p : Nat} {d : List Byte} {m : FrameMarks} {o : Nat}
    (hup : linkUp s p = true) (hm : m.arriving = false)
    (hend : ∀ t full, EthOnly s t → t.frameEnd p d m full = t.count ⟨o, 31, 0⟩) :
    ∃ t, exec (.frameReceive p d m) s = .next t ∧
      t.get ⟨o, 31, 0⟩ = min 0xFFFFFFFF (s.get ⟨o, 31, 0⟩ + 1) ∧
      (s.arrivingAt p = arrivingNone 0 → s.sameBut t [.regs]) ∧
      s.sameRegs t [o] ∧ s.sameBut t [.regs, .eth, .out] := by
  obtain ⟨t, ht, hEth, hNone⟩ := exec_frameReceive_end d hup hm
  have hFree := s.freeArriving_ethOnly p d
  rw [hend _ _ hFree] at hEth
  refine ⟨t, ht, ?_, fun h => ?_, fun r hr => ?_, ?_⟩
  · rw [hEth.get, State.get_count_same, hFree.get]
  · rw [hNone h, hend _ _ (.refl s)]
    exact s.wr_sameBut _ _
  · rw [State.rd_congr hEth.regs, State.count, State.rd_set_ne _ _ (by simpa using hr), State.rd_congr hFree.regs]
  · rw [hEth, hFree]
    simp [State.sameBut]

theorem State.frameEnd_bad {s t : State} (h : EthOnly s t) {p : Nat} {d : List Byte} {m : FrameMarks} (full : Bool)
    (hbad : m.good = false ∨ (m.marked = true ∧ portFec s.plan p = 2) ∨ d.length < 60) :
    t.frameEnd p d m full = t.count (F.ETH_RX_BAD_COUNT p) := by
  unfold State.frameEnd
  rw [h.portFec, if_pos]
  rcases hbad with hg | hfec | hlen
  · simp [hg]
  · exact .inr (.inr hfec)
  · exact .inl (by omega)

/-- A good frame of legal length is not counted as bad. -/
theorem not_bad {s : State} {p : Nat} {d : List Byte} {marked : Bool} (hmark : marked = true → portFec s.plan p ≠ 2)
    (hlen : 60 ≤ d.length) :
    ¬ (d.length + 4 < 64 ∨ !true ∨ (marked ∧ portFec s.plan p = 2)) := by
  rintro (h | h | ⟨hm, hfec⟩)
  · omega
  · simp at h
  · exact hmark hm hfec

theorem State.frameEnd_oversize {s t : State} (h : EthOnly s t) {p : Nat} {d : List Byte} {marked : Bool} (full : Bool)
    (hmark : marked = true → portFec s.plan p ≠ 2) (hlen : 60 ≤ d.length)
    (hmax : s.get (F.ETH_RX_CFG_MAX_FRAME p) < d.length + 4) :
    t.frameEnd p d ⟨true, marked, false⟩ full = t.count (F.ETH_RX_OVERSIZE_COUNT p) := by
  unfold State.frameEnd
  dsimp only
  rw [h.portFec, if_neg (not_bad hmark hlen), h.get, if_pos hmax]

/-- A good frame that passes the filters and fits is stored, as the state `s` before its end gives its priority and
timestamp. -/
theorem State.frameEnd_stored {s t : State} (h : EthOnly s t) {p : Nat} {d : List Byte} {marked : Bool}
    (hmark : marked = true → portFec s.plan p ≠ 2) (hlen : 60 ≤ d.length)
    (hmax : d.length + 4 ≤ s.get (F.ETH_RX_CFG_MAX_FRAME p)) (hc : beAt d 12 2 ≠ 0x8808)
    (hf : s.frameFiltered p d = false) (hroom : t.ibufBytes + (d.length + 4) ≤ ibufSize) :
    t.frameEnd p d ⟨true, marked, false⟩ false =
      t.storeFrame p (framePrio d (s.get F.ETH_PFC_CFG_DEFAULT_PCP)) 0 d (shortNs (s.rxStamp p))
        (shortFrac (s.rxStamp p)) false := by
  have hfull : ¬ ((false : Bool) = true ∨ ibufSize < t.ibufBytes + (d.length + 4)) := by simp; omega
  unfold State.frameEnd
  dsimp only
  rw [h.portFec, if_neg (not_bad hmark hlen), h.get, if_neg (by omega), if_neg (fun x => hc x.1), h.frameFiltered, hf,
    if_neg (by simp), if_neg hfull, h.get, h.rxStamp]

/-- A frame stored takes the next arrival number of its source, and no other source changes (R17). -/
theorem State.storeFrame_spec (s : State) (p prio td : Nat) (d : List Byte) (ns frac : Nat) (poison : Bool) :
    (s.storeFrame p prio td d ns frac poison).frames =
      s.frames ++ [⟨p, (s.source p).nextArrival, prio, td, d, ns, frac, poison, false⟩] ∧
    ((s.storeFrame p prio td d ns frac poison).source p) =
      { s.source p with nextArrival := ((s.source p).nextArrival + 1) % 2 ^ 32 } ∧
    s.sameBut (s.storeFrame p prio td d ns frac poison) [.frames, .arb, .eth, .out] := by
  unfold State.storeFrame
  dsimp only
  have h := State.pfcSettle_ethOnly ((s.withFrames (s.frames ++ [⟨p, (s.source p).nextArrival, prio, td, d, ns, frac,
    poison, false⟩])).setSource p { s.source p with nextArrival := ((s.source p).nextArrival + 1) % 2 ^ 32 })
  refine ⟨h.frames, ?_, ?_⟩
  · rw [State.source, h.arb, State.setSource, State.withArb_arb, spGet_set_same]
  · rw [h]
    simp [State.sameBut, State.setSource]

/-- A good frame that passes the filters and fits is stored with the next arrival number of its source (R17, R462). -/
theorem exec_frameReceive_stored {s : State} {p : Nat} {d : List Byte} {marked : Bool} (hup : linkUp s p = true)
    (hmark : marked = true → portFec s.plan p ≠ 2) (hlen : 60 ≤ d.length)
    (hmax : d.length + 4 ≤ s.get (F.ETH_RX_CFG_MAX_FRAME p)) (hc : beAt d 12 2 ≠ 0x8808)
    (hf : s.get (F.ETH_RX_CFG_UC_FILTER p) = 0) (hd : (s.arrivingAt p).dropped = false)
    (hroom : s.ibufBytes + d.length + 4 ≤ ibufSize) :
    ∃ t, exec (.frameReceive p d ⟨true, marked, false⟩) s = .next t ∧
      t.frames = s.frames ++ [⟨p, (s.source p).nextArrival, framePrio d (s.get F.ETH_PFC_CFG_DEFAULT_PCP), 0, d,
        shortNs (s.rxStamp p), shortFrac (s.rxStamp p), false, false⟩] ∧
      t.source p = { s.source p with nextArrival := ((s.source p).nextArrival + 1) % 2 ^ 32 } ∧
      s.sameBut t [.frames, .arb, .eth, .out] := by
  have hff := State.frameFiltered_eq_false hc hf
  have hbuf := State.freeArriving_ibufBytes hd (by omega) hff (by omega)
  obtain ⟨t, ht, hEth, -⟩ := exec_frameReceive_end d hup (m := ⟨true, marked, false⟩) rfl
  have hFree := s.freeArriving_ethOnly p d
  rw [hd, State.frameEnd_stored hFree hmark hlen hmax hc hff (by omega)] at hEth
  obtain ⟨hframes, hsource, hbut⟩ := (s.freeArriving p d).storeFrame_spec p
    (framePrio d (s.get F.ETH_PFC_CFG_DEFAULT_PCP)) 0 d (shortNs (s.rxStamp p)) (shortFrac (s.rxStamp p)) false
  have hsrc : (s.freeArriving p d).source p = s.source p := by rw [State.source, hFree.arb]; rfl
  rw [hFree.frames, hsrc] at hframes
  rw [hsrc] at hsource
  refine ⟨t, ht, by rw [hEth.frames, hframes], ?_, ?_⟩
  · rw [← hsource, State.source, hEth.arb]
    rfl
  · have h1 := hFree.sameBut
    have h2 := hEth.sameBut
    simp only [State.sameBut] at *
    simp_all

/-! ### PFC frames that a port sends (R89) -/

/-- A PFC frame leaves at once where the port sends nothing, and waits for the frame's end otherwise. -/
theorem State.sendPfc_idle {s : State} {p : Nat} (c q : Nat) (h : s.txOf p = none) :
    s.sendPfc p c q = s.emit (.pfc p c q) := by
  rw [State.txOf] at h
  simp [State.sendPfc, h]

theorem State.sendPfc_busy {s : State} {p : Nat} (c q : Nat) (h : s.txOf p ≠ none) :
    s.sendPfc p c q = s.withEth { s.eth with pfcWait := s.eth.pfcWait ++ [(p, c, q)] } := by
  rw [State.txOf] at h
  rw [State.sendPfc, if_pos (Option.isSome_iff_ne_none.mpr h)]

/-- `EN` of a priority cleared: with frames repeating, they end with one of pause time 0. -/
theorem exec_ethPfcEnClear {s : State} {p c : Nat} (hc : c < 8) (hp : portPresent s.plan p = true)
    (ha : s.underAmendment secPortLayout 0 p = false) :
    exec (.ethPfcEnClear p c) s =
      .next (if s.eth.repeating.contains (8 * p + c) then
          ((s.set (F.ETH_PFC_THR_EN (8 * p + c)) 0).setRepeating (s.eth.repeating.erase (8 * p + c))).sendPfc p c 0
        else s.set (F.ETH_PFC_THR_EN (8 * p + c)) 0) := by
  have hport : (8 * p + c) / 8 = p := by omega
  have hprio : (8 * p + c) % 8 = c := by omega
  show execEthPfcEnClear p c s = _
  simp [execEthPfcEnClear, State.pfcEnClearWrite, State.pfcEnClear, hport, hprio, hp, ha]

/-! ### The pause of a class (R240) -/

/-- `t` differs from `s` at most in registers, the state of the MACs and that of the scheduler. -/
def PauseOnly (s t : State) : Prop := t = ((s.withRegs t.regs).withEth t.eth).withSch t.sch

namespace PauseOnly

theorem refl (s : State) : PauseOnly s s := rfl

theorem trans {a b c : State} (h : PauseOnly a b) (k : PauseOnly b c) : PauseOnly a c := by
  unfold PauseOnly at *
  rw [k, h]
  rfl

theorem sameBut {s t : State} (h : PauseOnly s t) : s.sameBut t [.regs, .eth, .sch] := by
  rw [h]
  simp [State.sameBut]

end PauseOnly

/-- Bringing the CBS credits up to now changes the scheduler only. -/
theorem State.cbsStep_eq_withSch (s : State) (k : Nat) : ∃ x, s.cbsStep k = s.withSch x := by
  unfold State.cbsStep
  dsimp only
  (repeat' split) <;> exact ⟨_, rfl⟩

theorem State.cbsSync_eq_withSch (s : State) (p : Nat) : ∃ x, s.cbsSync p = s.withSch x := by
  have key : ∀ (l : List Nat) (t : State),
      ∃ x, l.foldl (fun (t : State) c => t.cbsStep (nodeKey 1 (8 * p + c))) t = t.withSch x := by
    intro l
    induction l with
    | nil => exact fun t => ⟨t.sch, rfl⟩
    | cons c l ih =>
      intro t
      obtain ⟨x, hx⟩ := t.cbsStep_eq_withSch (nodeKey 1 (8 * p + c))
      rw [List.foldl_cons, hx]
      exact ih _
  exact key _ s

/-- A number without its bit `i`. -/
theorem testBit_sub_and_two_pow (n i j : Nat) : (n - (n &&& 2 ^ i)).testBit j = (n.testBit j && j != i) := by
  induction i generalizing n j with
  | zero =>
    have h : n - (n &&& 2 ^ 0) = 2 * (n / 2) := by simp; omega
    rw [h]
    cases j with
    | zero => simp
    | succ j => simp [Nat.testBit_succ]
  | succ i ih =>
    have hand : n &&& 2 ^ (i + 1) = 2 * ((n / 2) &&& 2 ^ i) := by
      apply Nat.eq_of_testBit_eq
      intro k
      cases k <;> simp [Nat.testBit_succ, Nat.and_div_two, Nat.pow_succ]
    have hle : (n / 2) &&& 2 ^ i ≤ n / 2 := Nat.and_le_left
    rw [hand]
    cases j with
    | zero => simp [Nat.testBit_zero]; omega
    | succ j =>
      rw [Nat.testBit_succ, Nat.testBit_succ, show (n - 2 * ((n / 2) &&& 2 ^ i)) / 2 = n / 2 - ((n / 2) &&& 2 ^ i) by omega,
        ih]
      simp

/-- The pause bit of class `c` is set while its time runs; every other class, register and part is as before. -/
theorem State.pauseClass_spec (s : State) (p : Nat) {c : Nat} (hc : c < 8) (q : Nat) :
    (∀ b, ((s.pauseClass p c q).get (F.SCH_PORT_STATUS_PAUSED p)).testBit b =
      if b = c then q != 0 else (s.get (F.SCH_PORT_STATUS_PAUSED p)).testBit b) ∧
    (∀ k, spGet (fun _ => 0) (s.pauseClass p c q).eth.pause k =
      if k = 8 * p + c then q else spGet (fun _ => 0) s.eth.pause k) ∧
    s.sameRegs (s.pauseClass p c q) [R.SCH_PORT_STATUS p] ∧ PauseOnly s (s.pauseClass p c q) := by
  obtain ⟨x, hx⟩ := s.cbsSync_eq_withSch p
  unfold State.pauseClass
  dsimp only
  rw [hx]
  refine ⟨fun b => ?_, fun k => spGet_set .., fun r hr => ?_, rfl⟩
  · have hold : s.get (F.SCH_PORT_STATUS_PAUSED p) < 2 ^ 8 := bitsAt_lt ..
    have hhigh : ¬ b < 8 → (s.get (F.SCH_PORT_STATUS_PAUSED p)).testBit b = false := fun h =>
      Nat.testBit_lt_two_pow (hold.trans_le (Nat.pow_le_pow_right (by decide) (by omega)))
    rw [State.get_congr (State.withEth_regs ..), State.get_set_same _ _ (by simp) (by simp), Nat.testBit_mod_two_pow]
    split
    · next h => rw [testBit_sub_and_two_pow]; grind
    · next h => rw [Nat.testBit_or, Nat.testBit_two_pow]; grind
  · rw [State.rd_congr (State.withEth_regs ..), State.rd_set_ne _ _ (by simpa using hr)]
    rfl

/-- The classes below `n` that a PFC frame enables, paused, re-timed or released in turn. -/
def State.pauseBelow (s : State) (p enable : Nat) (times : List Nat) (n : Nat) : State :=
  (List.range n).foldl (fun s c => if enable.testBit c then s.pauseClass p c (times.getD c 0) else s) s

theorem State.pauseBelow_succ (s : State) (p enable : Nat) (times : List Nat) (n : Nat) :
    s.pauseBelow p enable times (n + 1) =
      if enable.testBit n then (s.pauseBelow p enable times n).pauseClass p n (times.getD n 0)
      else s.pauseBelow p enable times n := by
  simp [State.pauseBelow, List.range_succ]

theorem State.pauseBelow_spec (s : State) (p enable : Nat) (times : List Nat) {n : Nat} (hn : n ≤ 8) :
    (∀ c, ((s.pauseBelow p enable times n).get (F.SCH_PORT_STATUS_PAUSED p)).testBit c =
      if c < n ∧ enable.testBit c = true then times.getD c 0 != 0
      else (s.get (F.SCH_PORT_STATUS_PAUSED p)).testBit c) ∧
    (∀ c, spGet (fun _ => 0) (s.pauseBelow p enable times n).eth.pause (8 * p + c) =
      if c < n ∧ enable.testBit c = true then times.getD c 0 else spGet (fun _ => 0) s.eth.pause (8 * p + c)) ∧
    s.sameRegs (s.pauseBelow p enable times n) [R.SCH_PORT_STATUS p] ∧
    PauseOnly s (s.pauseBelow p enable times n) := by
  induction n with
  | zero => exact ⟨fun c => by simp [State.pauseBelow], fun c => by simp [State.pauseBelow], fun _ _ => rfl, .refl s⟩
  | succ n ih =>
    obtain ⟨hbit, hpause, hregs, honly⟩ := ih (by omega)
    rw [State.pauseBelow_succ]
    split
    · next he =>
      obtain ⟨hbit', hpause', hregs', honly'⟩ :=
        (s.pauseBelow p enable times n).pauseClass_spec p (show n < 8 by omega) (times.getD n 0)
      refine ⟨fun c => ?_, fun c => ?_, fun r hr => (hregs' r hr).trans (hregs r hr), honly.trans honly'⟩
      · rw [hbit', hbit]; grind
      · rw [hpause', hpause]; grind
    · next he => exact ⟨fun c => by rw [hbit]; grind, fun c => by rw [hpause]; grind, hregs, honly⟩

theorem exec_pfcFrameReceived {s : State} {p : Nat} (enable : Nat) (times : List Nat) (hup : linkUp s p = true) :
    exec (.pfcFrameReceived p enable times) s = .next (s.pauseBelow p enable times 8) := by
  show execPfcFrameReceived p enable times s = _
  simp [execPfcFrameReceived, hup, State.pauseBelow]

/-! ### The clauses of O14 -/

/-- Settles O14, clause by clause. -/
theorem frameReceptionAndPause : Obligations.FrameReceptionAndPause := by
  unfold Obligations.FrameReceptionAndPause
  refine ⟨?stored, ?bad, ?oversize, ?arriving, ?again, ?enClear, ?received, ?expiry⟩
  case stored =>
    intro s p d marked hup hmark hlen hmax hc hf hd hroom
    obtain ⟨t, ht, hframes, hsource, hbut⟩ := exec_frameReceive_stored hup hmark hlen hmax hc hf hd hroom
    exact ⟨t, ht, hframes, by rw [hsource], by rw [hsource], hbut⟩
  case bad =>
    intro s p d m hup hm hbad
    exact exec_frameReceive_counted hup hm fun t full h => State.frameEnd_bad h full hbad
  case oversize =>
    intro s p d marked hup hmark hlen hmax
    exact exec_frameReceive_counted hup rfl fun t full h => State.frameEnd_oversize h full hmark hlen hmax
  case arriving =>
    intro s p d good marked hup hlen hc hf hd hroom
    have arm : exec (.frameReceive p d ⟨good, marked, true⟩) s = .next (s.storeBytes p d) := by
      show execFrameReceive p d _ s = _
      simp [execFrameReceive, hup]
    refine ⟨_, arm, ?_, (s.storeBytes_ethOnly p d).sameBut⟩
    rw [State.arrivingAt, State.storeBytes_arriving hd hlen (State.frameFiltered_eq_false hc hf) hroom]
    exact spGet_set_same ..
  case again =>
    intro s p c hrep hover
    have arm : exec (.pfcRepeat p c) s = .next (s.sendPfc p c (s.get F.ETH_PFC_CFG_PAUSE_QUANTA)) := by
      show execPfcRepeat p c s = _
      rw [execPfcRepeat, if_pos ⟨hrep, hover⟩]
    refine ⟨_, arm, fun htx => ?_, fun htx => ?_, (s.sendPfc_ethOnly ..).sameBut⟩
    · rw [State.sendPfc_idle _ _ htx]
      exact ⟨rfl, rfl⟩
    · rw [State.sendPfc_busy _ _ htx]
      exact ⟨rfl, rfl⟩
  case enClear =>
    intro s p c hc hp ha
    refine ⟨_, exec_ethPfcEnClear hc hp ha, ?_⟩
    split
    · next hrep =>
      have h := ((s.set (F.ETH_PFC_THR_EN (8 * p + c)) 0).setRepeating_ethOnly (s.eth.repeating.erase (8 * p + c))).trans
        (State.sendPfc_ethOnly _ p c 0)
      have hsame : ((s.set (F.ETH_PFC_THR_EN (8 * p + c)) 0).setRepeating (s.eth.repeating.erase (8 * p + c))).txOf p =
          s.txOf p := by simp [State.txOf, State.setRepeating]
      refine ⟨?_, fun _ => ⟨State.sendPfc_repeating .., fun htx => ?_, fun htx => ?_⟩, fun hno => ?_, fun r hr => ?_, ?_⟩
      · rw [h.get]
        exact s.get_set_same 0 (by simp) (by simp)
      · rw [State.sendPfc_idle c 0 (by rwa [hsame])]
        simp [State.emit, State.setRepeating]
      · rw [State.sendPfc_busy c 0 (by rwa [hsame])]
        simp [State.setRepeating]
      · rw [hrep] at hno
        cases hno
      · rw [State.rd_congr h.regs, State.rd_set_ne _ _ (by simpa using hr)]
      · rw [h]
        simp [State.sameBut]
    · next hrep =>
      exact ⟨s.get_set_same 0 (by simp) (by simp), fun h => absurd h hrep, fun _ => ⟨s.set_out .., s.set_eth ..⟩,
        s.wr_sameRegs _ _, by simp [State.sameBut]⟩
  case received =>
    intro s p enable times hup
    obtain ⟨hbit, hpause, hregs, honly⟩ := s.pauseBelow_spec p enable times (Nat.le_refl 8)
    refine ⟨_, exec_pfcFrameReceived enable times hup, fun c hc he => ?_, fun c hc he => ?_, hregs, honly.sameBut⟩
    · exact ⟨by rw [hbit, if_pos ⟨hc, he⟩], by rw [hpause, if_pos ⟨hc, he⟩]⟩
    · exact ⟨by rw [hbit, if_neg (by simp [he])], by rw [hpause, if_neg (by simp [he])]⟩
  case expiry =>
    intro s p c hc hheld hpaused
    have arm : exec (.pfcPauseExpiry p c) s = .next (s.pauseClass p c 0) := by
      show execPfcPauseExpiry p c s = _
      simp [execPfcPauseExpiry, hheld, hpaused]
    obtain ⟨hbit, hpause, hregs, honly⟩ := s.pauseClass_spec p hc 0
    refine ⟨_, arm, fun b => ?_, by rw [hpause, if_pos rfl], hregs, honly.sameBut⟩
    rw [hbit]
    split <;> simp_all

end Sys2Proof.Machine
end

section
/-! SUPPORT. Every operation and every command leaves the queue of waiting commands as it was, and O6. -/

namespace Sys2Proof.Machine

/-! ### The queue stays as it was (O6)

`Res.quiet` and `Res.stays` of Laws/Keep already say it of the commands they speak of, and Laws/Ops and Laws/Keep of
the operations that those share. Here it is said once of each further operation, in the model's order, so that the
lemma of a caller follows from those of its callees; a command that only chooses between operations needs no lemma of
its own. -/

/-- The next state, where the answer is one, has the queue of `s`. -/
def Res.keepsQueue (s : State) (r : Res) : Prop := ∀ t, r = .next t → t.pending = s.pending

@[simp] theorem Res.keepsQueue_next {s t : State} : Res.keepsQueue s (.next t) ↔ t.pending = s.pending := by
  simp [Res.keepsQueue]

@[simp] theorem Res.keepsQueue_ite {s : State} (p : Prop) [Decidable p] (a b : Res) :
    Res.keepsQueue s (if p then a else b) ↔ if p then a.keepsQueue s else b.keepsQueue s := by split <;> rfl

theorem Res.stays_keepsQueue {s : State} {r : Res} (h : Res.stays s r) : Res.keepsQueue s r := by
  obtain ⟨t, rfl, hp, -⟩ := h
  exact Res.keepsQueue_next.mpr hp

theorem Res.quiet_keepsQueue {s : State} {r : Res} (h : Res.quiet s r) : Res.keepsQueue s r :=
  Res.stays_keepsQueue (Res.quiet_stays h)

/-- The state that a register's own rule answers, where it answers one, has the queue of `s`. -/
def someKeepsQueue (s : State) (o : Option State) : Prop := ∀ t ∈ o, t.pending = s.pending

@[simp] theorem someKeepsQueue_none (s : State) : someKeepsQueue s none := by simp [someKeepsQueue]

@[simp] theorem someKeepsQueue_some {s t : State} : someKeepsQueue s (some t) ↔ t.pending = s.pending := by
  simp [someKeepsQueue]

@[simp] theorem someKeepsQueue_ite {s : State} (p : Prop) [Decidable p] (a b : Option State) :
    someKeepsQueue s (if p then a else b) ↔ if p then someKeepsQueue s a else someKeepsQueue s b := by split <;> rfl

theorem someKeepsQueue_orElse {s : State} {a : Option State} {b : Unit → Option State} (ha : someKeepsQueue s a)
    (hb : someKeepsQueue s (b ())) : someKeepsQueue s (a.orElse b) := by
  cases a with
  | none => exact hb
  | some t => exact ha

theorem someKeepsQueue_getD {s t : State} {a : Option State} (ha : someKeepsQueue s a) (ht : t.pending = s.pending) :
    (a.getD t).pending = s.pending := by
  cases a with
  | none => exact ht
  | some u => exact someKeepsQueue_some.mp ha

/-- A choice keeps the queue where both of its branches do. -/
theorem pending_ite {p : Prop} [Decidable p] {a b s : State} (ha : a.pending = s.pending)
    (hb : b.pending = s.pending) : (if p then a else b).pending = s.pending := by
  split
  · exact ha
  · exact hb

/-- The state of a result that was taken apart has the queue that the result had. -/
theorem pending_of_snd_eq {α : Type} {s t : State} {x : α × State} {a : α} (h : x = (a, t))
    (hx : x.2.pending = s.pending) : t.pending = s.pending := by
  rw [h] at hx
  exact hx

theorem foldl_snd_snd_pending {α β γ : Type} (g : β × γ × State → α → β × γ × State) (l : List α) (a : β × γ × State)
    (h : ∀ a x, (g a x).2.2.pending = a.2.2.pending) : (l.foldl g a).2.2.pending = a.2.2.pending := by
  induction l generalizing a with
  | nil => rfl
  | cons x l ih => simp [ih, h]

/-! #### Sys2Proof/Machine/Harts.lean -/

@[simp] theorem State.setLine_pending (s : State) (l : Nat) (x : CacheLine) :
    (s.setLine l x).pending = s.pending := by
  simp [State.setLine]

@[simp] theorem State.lineBack_pending (s : State) (l : Nat) : (s.lineBack l).pending = s.pending := by
  unfold State.lineBack
  dsimp only
  (repeat' split) <;> simp

@[simp] theorem State.lineDrop_pending (s : State) (l : Nat) : (s.lineDrop l).pending = s.pending := by
  simp [State.lineDrop]

@[simp] theorem State.lineCheck_pending (s : State) (l : Nat) (ecc : EccResult) :
    (s.lineCheck l ecc).pending = s.pending := by
  unfold State.lineCheck
  split <;> simp

@[simp] theorem State.lineOpen_pending (s : State) (l : Nat) (x : HartMem) :
    (s.lineOpen l x).pending = s.pending := by
  simp [State.lineOpen]

@[simp] theorem State.cacheLoad_pending (s : State) (h a n : Nat) (x : HartMem) :
    (s.cacheLoad h a n x).2.pending = s.pending := by
  unfold State.cacheLoad
  dsimp only
  split <;> simp

@[simp] theorem State.lineStore_pending (s : State) (a : Nat) (d : List Byte) :
    (s.lineStore a d).pending = s.pending := by
  unfold State.lineStore
  dsimp only
  split <;> simp

@[simp] theorem State.cacheStore_pending (s : State) (a : Nat) (d : List Byte) (x : HartMem) :
    (s.cacheStore a d x).pending = s.pending := by
  simp [State.cacheStore]

@[simp] theorem State.cacheOp_pending (s : State) (op a : Nat) (x : HartMem) :
    (s.cacheOp op a x).pending = s.pending := by
  simp [State.cacheOp]

@[simp] theorem State.hartFetch_pending (s : State) (x : HartAccess) : (s.hartFetch x).pending = s.pending := by
  unfold State.hartFetch
  split <;> simp

/-! #### Sys2Proof/Machine/CphOps.lean -/

@[simp] theorem State.quarantine_pending (s : State) (p : Nat) : (s.quarantine p).pending = s.pending := by
  simp [State.quarantine]

/-! #### Sys2Proof/Machine/TeOps.lean -/

@[simp] theorem State.teSetW_pending (s : State) (base w : Nat) (v : Word) :
    (s.teSetW base w v).pending = s.pending := by
  simp [State.teSetW]

@[simp] theorem State.teSetF_pending (s : State) (base : Nat) (f : ChField) (v : Nat) :
    (s.teSetF base f v).pending = s.pending := by
  simp [State.teSetF]

@[simp] theorem State.setQc_pending (s : State) (c : Nat) (f : ChField) (v : Nat) :
    (s.setQc c f v).pending = s.pending := by
  simp [State.setQc]

@[simp] theorem State.setMr_pending (s : State) (i : Nat) (f : ChField) (v : Nat) :
    (s.setMr i f v).pending = s.pending := by
  simp [State.setMr]

@[simp] theorem State.setTeQp_pending (s : State) (c : Nat) (q : TeQp) : (s.setTeQp c q).pending = s.pending := by
  simp [State.setTeQp]

@[simp] theorem State.setTeCq_pending (s : State) (i : Nat) (q : TeCq) : (s.setTeCq i q).pending = s.pending := by
  simp [State.setTeCq]

@[simp] theorem State.setTeSrq_pending (s : State) (i : Nat) (q : TeSrq) : (s.setTeSrq i q).pending = s.pending := by
  simp [State.setTeSrq]

@[simp] theorem State.setTeFn_pending (s : State) (f : Nat) (x : TeFn) : (s.setTeFn f x).pending = s.pending := by
  simp [State.setTeFn]

@[simp] theorem State.teFault_pending (s : State) (cond bit c : Nat) :
    (s.teFault cond bit c).pending = s.pending := by
  simp [State.teFault]

@[simp] theorem State.teFnFault_pending (s : State) (cond bit f : Nat) :
    (s.teFnFault cond bit f).pending = s.pending := by
  simp [State.teFnFault]

@[simp] theorem State.ucFault_pending (s : State) (cond bit extra : Nat) :
    (s.ucFault cond bit extra).pending = s.pending := by
  simp [State.ucFault]

@[simp] theorem State.tePut_pending (s : State) (cq : Nat) (sol : Bool) (words : List Word) :
    (s.tePut cq sol words).2.pending = s.pending := by
  unfold State.tePut
  dsimp only
  (repeat' split) <;> simp

@[simp] theorem State.teCqe_pending (s : State) (cq : Nat) (sol : Bool) (words : List Word) :
    (s.teCqe cq sol words).pending = s.pending := by
  simp [State.teCqe]

@[simp] theorem State.teEvent_pending (s : State) (f code object : Nat) :
    (s.teEvent f code object).pending = s.pending := by
  simp [State.teEvent]

@[simp] theorem State.teRecvCqe_pending (s : State) (c cq : Nat) (r : TeRecv)
    (op status flags bytes imm src tag : Nat) :
    (s.teRecvCqe c cq r op status flags bytes imm src tag).pending = s.pending := by
  simp [State.teRecvCqe]

@[simp] theorem State.teTxDone_pending (s : State) (c : Nat) (t : TeTx) (status : Nat) :
    (s.teTxDone c t status).pending = s.pending := by
  unfold State.teTxDone
  split <;> simp

@[simp] theorem State.teTxSettle_pending (s : State) (c n : Nat) : (s.teTxSettle c n).pending = s.pending := by
  induction n generalizing s with
  | zero => rfl
  | succ n ih =>
    unfold State.teTxSettle
    split
    · split <;> simp
    · split <;> simp [ih]

@[simp] theorem State.teSettleTx_pending (s : State) (c : Nat) : (s.teSettleTx c).pending = s.pending := by
  simp [State.teSettleTx]

@[simp] theorem State.setTeStore_pending (s : State) (e n : Nat) : (s.setTeStore e n).pending = s.pending := by
  simp [State.setTeStore]

@[simp] theorem State.teFlushRq_pending (s : State) (c : Nat) (host : List Byte) (n : Nat) :
    (s.teFlushRq c host n).pending = s.pending := by
  induction n generalizing s host with
  | zero => simp [State.teFlushRq]
  | succ n ih => simp [State.teFlushRq, ih]

@[simp] theorem State.teUnexpDrop_pending (c : Nat) (s : State) (m : TeRx) :
    (s.teUnexpDrop c m).pending = s.pending := by
  unfold State.teUnexpDrop
  dsimp only
  (repeat' split) <;> simp

@[simp] theorem State.teQpError_pending (s : State) (c event : Nat) : (s.teQpError c event).pending = s.pending := by
  unfold State.teQpError
  split
  · rfl
  · simp only [ite_pending, State.teEvent_pending, State.teFlushRq_pending, ite_self]
    rw [foldl_pending]
    · simp
    · intro s m
      cases m.recv <;> simp

@[simp] theorem State.teFailCq_pending (s : State) (cq : Nat) : (s.teFailCq cq).pending = s.pending := by
  simp [State.teFailCq]

@[simp] theorem State.teSettleCqs_pending (s : State) (n : Nat) : (s.teSettleCqs n).pending = s.pending := by
  induction n generalizing s with
  | zero => rfl
  | succ n ih =>
    unfold State.teSettleCqs
    split <;> simp [ih]

@[simp] theorem State.teSettle_pending (s : State) : s.teSettle.pending = s.pending := by simp [State.teSettle]

@[simp] theorem State.teRead_pending (s : State) (key addr n : Nat) (data : List Byte) (e : DmaEnd) :
    (s.teRead key addr n data e).2.2.pending = s.pending := by
  unfold State.teRead
  dsimp only
  (repeat' split) <;> simp

@[simp] theorem State.teWrite_pending (s : State) (key addr : Nat) (data : List Byte) :
    (s.teWrite key addr data).2.pending = s.pending := by
  unfold State.teWrite
  dsimp only
  (repeat' split) <;> simp

@[simp] theorem State.teGather_pending (s : State) (c : Nat) (e : DmaEnd) (l : List TeSge) (skip n : Nat)
    (data : List Byte) : (s.teGather c e l skip n data).2.2.pending = s.pending := by
  fun_induction State.teGather s c e l skip n data <;> grind [State.teRead_pending]

@[simp] theorem State.teScatter_pending (s : State) (c : Nat) (l : List TeSge) (pos : Nat) (data : List Byte) :
    (s.teScatter c l pos data).2.pending = s.pending := by
  fun_induction State.teScatter s c l pos data <;> grind [State.teWrite_pending]

@[simp] theorem State.teInvalidate_pending (s : State) (i : Nat) : (s.teInvalidate i).pending = s.pending := by
  simp [State.teInvalidate]

@[simp] theorem State.setSeq_pending (s : State) (e : Nat) (l : List UcCtx) : (s.setSeq e l).pending = s.pending := by
  simp [State.setSeq]

@[simp] theorem State.seqDispatch_pending (s : State) (e table opcode : Nat) (object : UcObj) :
    (s.seqDispatch e table opcode object).pending = s.pending := by
  simp [State.seqDispatch]

@[simp] theorem State.seqEnd_pending (s : State) (e : Nat) (object : UcObj) :
    (s.seqEnd e object).pending = s.pending := by
  simp [State.seqEnd]

@[simp] theorem State.seqAbandon_pending (s : State) (e : Nat) : (s.seqAbandon e).pending = s.pending := by
  simp [State.seqAbandon]

@[simp] theorem State.seqInternal_pending (s : State) (e : Nat) (object : UcObj) :
    (s.seqInternal e object).pending = s.pending := by
  simp [State.seqInternal]

@[simp] theorem State.teToWire_pending (s : State) (c : Nat) (frame : List Byte) :
    (s.teToWire c frame).pending = s.pending := by
  simp [State.teToWire]

@[simp] theorem State.espCommand_pending (s : State) (c : Nat) (udp : List Byte) :
    (s.espCommand c udp).pending = s.pending := by
  simp [State.espCommand]

@[simp] theorem State.teSendPacket_pending (s : State) (c op psn qpn path : Nat) (se ack : Bool)
    (body av : List Byte) : (s.teSendPacket c op psn qpn path se ack body av).pending = s.pending := by
  simp [State.teSendPacket]

@[simp] theorem State.teSendPkt_pending (s : State) (c : Nat) (p : TePkt) :
    (s.teSendPkt c p).pending = s.pending := by
  simp [State.teSendPkt]

@[simp] theorem State.ccRise_pending (s : State) (c : Nat) : (s.ccRise c).pending = s.pending := by
  simp [State.ccRise]

@[simp] theorem State.ccRises_pending (s : State) (c n : Nat) : (s.ccRises c n).pending = s.pending := by
  induction n generalizing s with
  | zero => rfl
  | succ n ih =>
    unfold State.ccRises
    rw [ih, State.ccRise_pending]

@[simp] theorem State.ccBytes_pending (s : State) (c n : Nat) : (s.ccBytes c n).pending = s.pending := by
  simp [State.ccBytes]

@[simp] theorem State.ccDecrease_pending (s : State) (c : Nat) (path : Option Nat) :
    (s.ccDecrease c path).pending = s.pending := by
  simp [State.ccDecrease]

@[simp] theorem State.cnpSend_pending (s : State) (c path : Nat) : (s.cnpSend c path).pending = s.pending := by
  simp [State.cnpSend]

/-! #### Sys2Proof/Machine/NveTcp.lean -/

@[simp] theorem State.setConn_pending (s : State) (c : Nat) (k : NveConn) : (s.setConn c k).pending = s.pending := by
  simp [State.setConn]

@[simp] theorem State.tcpSend_pending (s : State) (c seq flags : Nat) (new : Bool) (data : List Byte) :
    (s.tcpSend c seq flags new data).pending = s.pending := by
  simp [State.tcpSend]

@[simp] theorem State.tcpAck_pending (s : State) (c : Nat) : (s.tcpAck c).pending = s.pending := by
  simp [State.tcpAck]

@[simp] theorem State.tcpOutput_pending (s : State) (c n : Nat) : (s.tcpOutput c n).pending = s.pending := by
  induction n generalizing s with
  | zero => rfl
  | succ n ih =>
    unfold State.tcpOutput
    dsimp only
    split <;> simp [ih]

@[simp] theorem State.tcpPush_pending (s : State) (c : Nat) : (s.tcpPush c).pending = s.pending := by
  simp [State.tcpPush]

@[simp] theorem State.tcpWrite_pending (s : State) (c : Nat) (prov : Bool) (data : List Byte) :
    (s.tcpWrite c prov data).pending = s.pending := by
  simp [State.tcpWrite]

@[simp] theorem State.tcpResend_pending (s : State) (c : Nat) : (s.tcpResend c).pending = s.pending := by
  unfold State.tcpResend
  dsimp only
  split <;> simp

@[simp] theorem State.tcpNewAck_pending (s : State) (c ack : Nat) : (s.tcpNewAck c ack).pending = s.pending := by
  unfold State.tcpNewAck
  dsimp only
  split <;> simp

@[simp] theorem State.tcpDupAck_pending (s : State) (c : Nat) : (s.tcpDupAck c).pending = s.pending := by
  simp [State.tcpDupAck]

@[simp] theorem State.tcpAckIn_pending (s : State) (c : Nat) (t : TcpIn) : (s.tcpAckIn c t).pending = s.pending := by
  simp [State.tcpAckIn]

@[simp] theorem State.tcpDataIn_pending (s : State) (c : Nat) (t : TcpIn) :
    (s.tcpDataIn c t).pending = s.pending := by
  unfold State.tcpDataIn
  extract_lets
  exact pending_ite rfl (by simp)

/-! #### Sys2Proof/Machine/NveOps.lean -/

@[simp] theorem State.setCtl_pending (s : State) (f : Nat) (c : NveCtl) : (s.setCtl f c).pending = s.pending := by
  simp [State.setCtl]

@[simp] theorem State.nveFault_pending (s : State) (cond bit f c : Nat) :
    (s.nveFault cond bit f c).pending = s.pending := by
  simp [State.nveFault]

@[simp] theorem State.nveDma_pending (s : State) (f iova : Nat) (signal : Bool) (data : List Byte) :
    (s.nveDma f iova signal data).2.pending = s.pending := by
  simp [State.nveDma]

@[simp] theorem State.nveCqe_pending (s : State) (f : Nat) (e : Nat × Nat × Nat × Nat × Nat × Nat) :
    (s.nveCqe f e).pending = s.pending := by
  unfold State.nveCqe
  dsimp only
  split <;> simp

@[simp] theorem State.nveHeld_pending (s : State) (f cq : Nat) : (s.nveHeld f cq).pending = s.pending := by
  simp [State.nveHeld]

@[simp] theorem State.nveComplete_pending (s : State) (f sq cid status dw0 : Nat) :
    (s.nveComplete f sq cid status dw0).pending = s.pending := by
  simp [State.nveComplete]

@[simp] theorem State.nveAer_pending (s : State) (f n : Nat) : (s.nveAer f n).pending = s.pending := by
  induction n generalizing s with
  | zero => rfl
  | succ n ih =>
    unfold State.nveAer
    dsimp only
    split <;> simp [ih]

@[simp] theorem State.nveEvent_pending (s : State) (f ty info page : Nat) :
    (s.nveEvent f ty info page).pending = s.pending := by
  simp [State.nveEvent]

@[simp] theorem State.setMode_pending (s : State) (f m : Nat) : (s.setMode f m).pending = s.pending := by
  simp [State.setMode]

@[simp] theorem State.setCmd_pending (s : State) (x : NveCmd) : (s.setCmd x).pending = s.pending := by
  simp [State.setCmd]

@[simp] theorem State.setJobs_pending (s : State) (l : List NveJob) : (s.setJobs l).pending = s.pending := by
  simp [State.setJobs]

@[simp] theorem State.setJob_pending (s : State) (x : NveJob) : (s.setJob x).pending = s.pending := by
  simp [State.setJob]

@[simp] theorem State.nveFinish_pending (s : State) (x : NveCmd) (status dw0 : Nat) :
    (s.nveFinish x status dw0).pending = s.pending := by
  simp [State.nveFinish]

@[simp] theorem State.nveJob_pending (s : State) (owner : Option Nat) (f nsid conn op remote : Nat)
    (cdw data : List Byte) (len off : Nat) (blocks : List (Nat × Nat)) :
    (s.nveJob owner f nsid conn op remote cdw data len off blocks).pending = s.pending := by
  simp [State.nveJob]

@[simp] theorem State.pickCid_pending (s : State) (c : Nat) : (s.pickCid c).2.pending = s.pending := by
  simp [State.pickCid]

@[simp] theorem State.drainDone_pending (s : State) (j : NveJob) (ok : Bool) :
    (s.drainDone j ok).pending = s.pending := by
  simp [State.drainDone]

@[simp] theorem State.nveJobEnd_pending (s : State) (j : NveJob) (status : Nat) (answered : Bool) :
    (s.nveJobEnd j status answered).pending = s.pending := by
  unfold State.nveJobEnd
  dsimp only
  (repeat' split) <;> simp

@[simp] theorem State.nveSent_pending (s : State) (j : NveJob) : (s.nveSent j).pending = s.pending := by
  unfold State.nveSent
  split <;> simp

@[simp] theorem State.nvePump_pending (s : State) (c n : Nat) : (s.nvePump c n).pending = s.pending := by
  induction n generalizing s with
  | zero => rfl
  | succ n ih =>
    unfold State.nvePump
    dsimp only
    (repeat' split) <;> simp [ih]

@[simp] theorem State.nveCipher1_pending (s : State) (x : NveCmd) (op : Nat) (p : Nat × Nat) :
    (s.nveCipher1 x op p).pending = s.pending := by
  simp [State.nveCipher1]

@[simp] theorem State.nveCipher_pending (s : State) (x : NveCmd) (op : Nat) :
    (s.nveCipher x op).pending = s.pending := by
  simp [State.nveCipher]

@[simp] theorem State.nveToHost_pending (s : State) (f : Nat) (l : List (Nat × Nat)) (off : Nat) (data : List Byte) :
    (s.nveToHost f l off data).2.pending = s.pending := by
  fun_induction State.nveToHost s f l off data <;> grind [State.nveDma_pending]

@[simp] theorem State.readRanges_pending (s : State) (f : Nat) (l : List (Nat × Nat)) :
    (s.readRanges f l).2.pending = s.pending := by
  induction l generalizing s with
  | nil => rfl
  | cons r l ih =>
    simp only [State.readRanges]
    split <;> simp [ih]

@[simp] theorem State.nveFromHost_pending (s : State) (f : Nat) (ranges : List (Nat × Nat)) (h : NveHost)
    (len : Nat) : (s.nveFromHost f ranges h len).2.pending = s.pending := by
  unfold State.nveFromHost
  dsimp only
  (repeat' split) <;> simp

@[simp] theorem State.nvePrps_pending (s : State) (x : NveCmd) (len : Nat) (h : NveHost) :
    (s.nvePrps x len h).2.pending = s.pending := by
  unfold State.nvePrps
  dsimp only
  (repeat' split) <;> simp

@[simp] theorem State.pickBlock_pending (s : State) (f n : Nat) : (s.pickBlock f n).2.pending = s.pending := by
  simp [State.pickBlock]

@[simp] theorem State.nveStore1_pending (s : State) (x : NveCmd) (i : Nat) :
    (s.nveStore1 x i).2.pending = s.pending := by
  grind [State.nveStore1, State.putBytes_pending, State.setCtl_pending, State.pickBlock_pending]

@[simp] theorem State.nveStoreAll_pending (s : State) (x : NveCmd) (n : Nat) :
    (s.nveStoreAll x n).2.pending = s.pending := by
  induction n with
  | zero => rfl
  | succ n ih =>
    simp only [State.nveStoreAll]
    split <;> simp [ih]

@[simp] theorem State.nveStore_pending (s : State) (x : NveCmd) : (s.nveStore x).2.pending = s.pending := by
  unfold State.nveStore
  dsimp only
  (repeat' split) <;> simp

@[simp] theorem State.wantBlocks_pending (s : State) (f : Nat) (p : NveBlock → Bool) :
    (s.wantBlocks f p).pending = s.pending := by
  simp [State.wantBlocks]

@[simp] theorem State.nveWant_pending (s : State) (f : Nat) : (s.nveWant f).pending = s.pending := by
  simp [State.nveWant]

@[simp] theorem State.dropBlock_pending (s : State) (f : Nat) (y : NveBlock) :
    (s.dropBlock f y).pending = s.pending := by
  simp [State.dropBlock]

@[simp] theorem State.nveDrain1_pending (s : State) (f : Nat) : (s.nveDrain1 f).pending = s.pending := by
  unfold State.nveDrain1
  dsimp only
  (repeat' split) <;> simp

@[simp] theorem State.nveDrains_pending (s : State) (f n : Nat) : (s.nveDrains f n).pending = s.pending := by
  induction n generalizing s with
  | zero => rfl
  | succ n ih => simp [State.nveDrains, ih]

@[simp] theorem State.nveToTarget_pending (s : State) (x : NveCmd) : (s.nveToTarget x).pending = s.pending := by
  simp [State.nveToTarget]

@[simp] theorem State.nveFlushStep_pending (s : State) (x : NveCmd) : (s.nveFlushStep x).pending = s.pending := by
  simp [State.nveFlushStep]

@[simp] theorem State.nveAdvance_pending (s : State) (x : NveCmd) : (s.nveAdvance x).pending = s.pending := by
  simp [State.nveAdvance]

@[simp] theorem State.ctlAdvance_pending (s00 : State) (f : Nat) : (s00.ctlAdvance f).pending = s00.pending := by
  simp [State.ctlAdvance]

@[simp] theorem State.nveSettle_pending (s : State) (n : Nat) : (s.nveSettle n).pending = s.pending := by
  induction n generalizing s with
  | zero => rfl
  | succ n ih =>
    unfold State.nveSettle
    simp only [ite_pending, ih, ite_self]
    rw [foldl_pending, foldl_pending, foldl_pending]
    · intro s x
      split
      · split <;> simp
      · rfl
    · simp
    · simp

@[simp] theorem State.nveGo_pending (s : State) : s.nveGo.pending = s.pending := by simp [State.nveGo]

@[simp] theorem State.connEvent_pending (s : State) (c : Nat) : (s.connEvent c).pending = s.pending := by
  simp [State.connEvent]

@[simp] theorem State.connLost_pending (s : State) (c : Nat) : (s.connLost c).pending = s.pending := by
  simp [State.connLost]

@[simp] theorem State.connFail_pending (s : State) (c cond bit : Nat) :
    (s.connFail c cond bit).pending = s.pending := by
  simp [State.connFail]

@[simp] theorem State.connTerm_pending (s : State) (c fes cond bit : Nat) :
    (s.connTerm c fes cond bit).pending = s.pending := by
  simp [State.connTerm]

/-! #### Sys2Proof/Machine/TeSend.lean -/

@[simp] theorem State.setTeTx_pending (s : State) (c : Nat) (t : TeTx) : (s.setTeTx c t).pending = s.pending := by
  simp [State.setTeTx]

@[simp] theorem State.teTxBad_pending (s : State) (c : Nat) (t : TeTx) (status : Nat) (err : Bool) :
    (s.teTxBad c t status err).pending = s.pending := by
  simp [State.teTxBad]

@[simp] theorem State.teFirstSend_pending (s : State) (c psns qpn : Nat) (p : TePkt) (av : List Byte) :
    (s.teFirstSend c psns qpn p av).pending = s.pending := by
  simp [State.teFirstSend]

@[simp] theorem State.teSendPackets_pending (s : State) (c : Nat) (t : TeTx) (av : List Byte) (n i : Nat)
    (data : List Byte) : (s.teSendPackets c t av n i data).pending = s.pending := by
  induction n generalizing s i data with
  | zero => rfl
  | succ n ih => simp [State.teSendPackets, ih]

@[simp] theorem State.teBurst_pending (s : State) (c : Nat) (t : TeTx) (inl : Option (List Byte)) (av : List Byte)
    (h : TeHost) : (s.teBurst c t inl av h).pending = s.pending := by
  unfold State.teBurst
  cases inl with
  | none => dsimp only; split <;> simp
  | some d => simp

@[simp] theorem State.teNewTx_pending (s : State) (c : Nat) (b : List Byte) (n len : Nat) (wire : Bool) :
    (s.teNewTx c b n len wire).2.pending = s.pending := by
  simp [State.teNewTx]

@[simp] theorem State.teLocalTx_pending (s : State) (c : Nat) (b : List Byte) (status : Nat) (err : Bool) :
    (s.teLocalTx c b status err).pending = s.pending := by
  simp [State.teLocalTx]

@[simp] theorem State.teSq_pending (s : State) (c op : Nat) (h : TeHost) (act : State → List Byte → State)
    (hact : ∀ t b, (act t b).pending = t.pending) : (s.teSq c op h act).pending = s.pending := by
  simp [State.teSq, hact]

@[simp] theorem State.teMessage_pending (s : State) (c : Nat) (b : List Byte) (h : TeHost) :
    (s.teMessage c b h).pending = s.pending := by
  unfold State.teMessage
  (repeat' split) <;> simp

@[simp] theorem State.teSendFetch_pending (s : State) (c : Nat) (t : TeTx) (a b : Nat) :
    (s.teSendFetch c t a b).pending = s.pending := by
  simp [State.teSendFetch]

@[simp] theorem State.teRdvGo_pending (s : State) (c n : Nat) : (s.teRdvGo c n).pending = s.pending := by
  induction n generalizing s with
  | zero => rfl
  | succ n ih =>
    unfold State.teRdvGo
    split
    · rfl
    · split <;> simp [ih]

@[simp] theorem State.teFetch_pending (s : State) (c : Nat) (b : List Byte) (h : TeHost) :
    (s.teFetch c b h).pending = s.pending := by
  simp [State.teFetch]

@[simp] theorem State.teLocalInv_pending (s : State) (c : Nat) (b : List Byte) :
    (s.teLocalInv c b).pending = s.pending := by
  simp [State.teLocalInv]

@[simp] theorem State.teBind_pending (s : State) (c : Nat) (b : List Byte) (h : TeHost) :
    (s.teBind c b h).pending = s.pending := by
  simp [State.teBind]

@[simp] theorem State.teWait_pending (s : State) (c : Nat) (b : List Byte) : (s.teWait c b).pending = s.pending := by
  simp [State.teWait]

@[simp] theorem State.teResend_pending (s : State) (c : Nat) (p : TePkt) : (s.teResend c p).pending = s.pending := by
  unfold State.teResend
  (repeat' split) <;> simp

@[simp] theorem State.teRetransmit_pending (s : State) (c : Nat) : (s.teRetransmit c).pending = s.pending := by
  simp [State.teRetransmit]

@[simp] theorem State.teRestore_pending (s : State) (c : Nat) : (s.teRestore c).pending = s.pending := by
  simp [State.teRestore]

@[simp] theorem State.teAckTo_pending (s : State) (c una : Nat) : (s.teAckTo c una).pending = s.pending := by
  simp [State.teAckTo]

@[simp] theorem State.teAckPsn_pending (s : State) (c p : Nat) : (s.teAckPsn c p).pending = s.pending := by
  unfold State.teAckPsn
  dsimp only
  split <;> simp

@[simp] theorem State.teTxFault_pending (s : State) (c status : Nat) :
    (s.teTxFault c status).pending = s.pending := by
  simp [State.teTxFault]

@[simp] theorem State.teTxFail_pending (s : State) (c status : Nat) (pick : TeTx → Bool) :
    (s.teTxFail c status pick).pending = s.pending := by
  unfold State.teTxFail
  split <;> simp

@[simp] theorem State.teAethReceive_pending (s : State) (c psn syndrome : Nat) :
    (s.teAethReceive c psn syndrome).pending = s.pending := by
  simp [State.teAethReceive]

@[simp] theorem State.teExpiry_pending (s : State) (c : Nat) : (s.teExpiry c).pending = s.pending := by
  simp [State.teExpiry]

/-! #### Sys2Proof/Machine/TeRecv.lean -/

@[simp] theorem State.teTakeRecv_pending (s : State) (c : Nat) (srq : Option Nat) (h : TeHost) (k : Nat) :
    (s.teTakeRecv c srq h k).2.2.pending = s.pending := by
  unfold State.teTakeRecv
  dsimp only
  (repeat' split) <;> simp

@[simp] theorem State.teRendezvous_pending (s : State) (c srq : Nat) (r : TeRecv) (va key len : Nat) :
    (s.teRendezvous c srq r va key len).pending = s.pending := by
  simp [State.teRendezvous]

@[simp] theorem State.teTagMatch_pending (s : State) (c j : Nat) (m : TeRx) (first : List Byte) :
    (s.teTagMatch c j m first).2.2.pending = s.pending := by
  unfold State.teTagMatch
  dsimp only
  (repeat' split) <;> simp

@[simp] theorem State.teAssign_pending (s : State) (c : Nat) (srq : Option Nat) (m : TeRx) (first : List Byte)
    (h : TeHost) (k : Nat) : (s.teAssign c srq m first h k).2.2.pending = s.pending := by
  unfold State.teAssign
  dsimp only
  (repeat' split) <;> simp

@[simp] theorem State.tePlaceSend_pending (s : State) (c : Nat) (m : TeRx) (off : Nat) (data : List Byte)
    (h : TeHost) : (s.tePlaceSend c m off data h).2.pending = s.pending := by
  unfold State.tePlaceSend
  dsimp only
  (repeat' split) <;> simp

@[simp] theorem State.teTagCopy_pending (s : State) (j : Nat) (u : TeUnexp) (p r : TeRecv) (h : TeHost) :
    (s.teTagCopy j u p r h).pending = s.pending := by
  unfold State.teTagCopy
  dsimp only
  split <;> simp

@[simp] theorem State.teRxFinish_pending (s : State) (c : Nat) (srq : Option Nat) (m : TeRx) :
    (s.teRxFinish c srq m).pending = s.pending := by
  unfold State.teRxFinish
  dsimp only
  (repeat' split) <;> simp

@[simp] theorem State.teRxDone_pending (s : State) (c : Nat) (srq : Option Nat) (m : TeRx) :
    (s.teRxDone c srq m).pending = s.pending := by
  simp [State.teRxDone]

@[simp] theorem State.teRxWhole_pending (s : State) (c : Nat) (srq : Option Nat) (m : TeRx) :
    (s.teRxWhole c srq m).pending = s.pending := by
  simp [State.teRxWhole]

@[simp] theorem State.teLateGo_pending (s : State) (c n : Nat) : (s.teLateGo c n).pending = s.pending := by
  induction n generalizing s with
  | zero => rfl
  | succ n ih =>
    unfold State.teLateGo
    split
    · rfl
    · split <;> simp [ih]

@[simp] theorem State.teAckSend_pending (s : State) (c psn syndrome : Nat) :
    (s.teAckSend c psn syndrome).pending = s.pending := by
  simp [State.teAckSend]

@[simp] theorem State.mpAckSend_pending (s : State) (c psn syndrome : Nat) :
    (s.mpAckSend c psn syndrome).pending = s.pending := by
  simp [State.mpAckSend]

@[simp] theorem State.teKeyH_pending (s : State) (h : TeHost) (c key va n need : Nat) :
    (s.teKeyH h c key va n need).2.pending = s.pending := by
  unfold State.teKeyH
  split <;> simp

@[simp] theorem State.teNak_pending (s : State) (c psn syndrome : Nat) :
    (s.teNak c psn syndrome).pending = s.pending := by
  simp [State.teNak]

@[simp] theorem State.teRecvBad_pending (s : State) (c psn : Nat) (m : TeRx) (status : Nat) :
    (s.teRecvBad c psn m status).pending = s.pending := by
  unfold State.teRecvBad
  (repeat' split) <;> simp

@[simp] theorem State.teExecuted_pending (s : State) (c n : Nat) (r : RoceIn) (ackIt : Bool) :
    (s.teExecuted c n r ackIt).pending = s.pending := by
  simp [State.teExecuted]

@[simp] theorem State.teReadResponses_pending (s : State) (c psn n k i : Nat) (data : List Byte) :
    (s.teReadResponses c psn n k i data).pending = s.pending := by
  induction k generalizing s i data with
  | zero => rfl
  | succ k ih => simp [State.teReadResponses, ih]

@[simp] theorem State.teReadExec_pending (s : State) (c : Nat) (r : RoceIn) (b : List Byte) (h : TeHost)
    (again : Bool) : (s.teReadExec c r b h again).pending = s.pending := by
  unfold State.teReadExec
  dsimp only
  split <;> simp

@[simp] theorem State.atomicAck_pending (s : State) (c psn : Nat) (old : List Byte) :
    (s.atomicAck c psn old).pending = s.pending := by
  simp [State.atomicAck]

@[simp] theorem State.teAtomicExec_pending (s : State) (c : Nat) (r : RoceIn) (b : List Byte) (cas : Bool)
    (h : TeHost) : (s.teAtomicExec c r b cas h).pending = s.pending := by
  unfold State.teAtomicExec
  dsimp only
  (repeat' split) <;> simp

@[simp] theorem State.teSendExec_pending (s : State) (c lo : Nat) (srq : Option Nat) (r : RoceIn) (b : List Byte)
    (h : TeHost) : (s.teSendExec c lo srq r b h).pending = s.pending := by
  grind [State.teSendExec, State.teNak_pending, State.count_pending, State.teAssign_pending, State.teQpError_pending,
    State.teFault_pending, State.tePlaceSend_pending, State.teRecvBad_pending, State.teExecuted_pending,
    State.teRxWhole_pending, State.setTeQp_pending]

@[simp] theorem State.teWriteExec_pending (s : State) (c lo : Nat) (srq : Option Nat) (r : RoceIn) (b : List Byte)
    (h : TeHost) : (s.teWriteExec c lo srq r b h).pending = s.pending := by
  unfold State.teWriteExec
  extract_lets
  refine pending_ite (by simp) ?_
  split
  next k0 s0 hs0 =>
    have h0 := pending_of_snd_eq hs0 (s := s) (by split <;> simp)
    split
    next k s1 hs1 =>
      have h1 := pending_of_snd_eq hs1 (s := s) (by split <;> simp [h0])
      split
      · simp [h1]
      · split
        next code m1 s2 hs2 =>
          have h2 : s2.pending = s.pending := by
            have := congrArg (fun x => x.2.2.pending) hs2
            rw [← this]
            split <;> simp [h1]
          refine pending_ite (by simp [h2]) (pending_ite (by simp [h2]) ?_)
          split
          next ok s3 hs3 =>
            have h3 := pending_of_snd_eq hs3 (s := s) (by split <;> simp [h2])
            exact pending_ite (by simp [h3]) (pending_ite (by simp [h3]) (by simp [h3]))

@[simp] theorem State.teInSequence_pending (s : State) (c lo : Nat) (srq : Option Nat) (r : RoceIn) (b : List Byte)
    (h : TeHost) : (s.teInSequence c lo srq r b h).pending = s.pending := by
  simp [State.teInSequence]

@[simp] theorem State.teOrdered_pending (s : State) (c lo : Nat) (srq : Option Nat) (r : RoceIn) (b : List Byte)
    (h : TeHost) : (s.teOrdered c lo srq r b h).pending = s.pending := by
  unfold State.teOrdered
  extract_lets
  (repeat' split) <;> simp +zetaDelta

@[simp] theorem State.teDatagram_pending (s : State) (c lo : Nat) (r : RoceIn) (h : TeHost) :
    (s.teDatagram c lo r h).pending = s.pending := by
  simp [State.teDatagram]

@[simp] theorem State.teGot_pending (s : State) (c : Nat) (t : TeTx) (off : Nat) (data : List Byte) (h : TeHost) :
    (s.teGot c t off data h).2.pending = s.pending := by
  unfold State.teGot
  dsimp only
  split <;> simp

@[simp] theorem State.teDropRequest_pending (s : State) (c : Nat) (t : TeTx) :
    (s.teDropRequest c t).pending = s.pending := by
  simp [State.teDropRequest]

@[simp] theorem State.teReadResponse_pending (s : State) (c lo : Nat) (r : RoceIn) (h : TeHost) :
    (s.teReadResponse c lo r h).pending = s.pending := by
  unfold State.teReadResponse
  (repeat' split) <;> simp

@[simp] theorem State.teAtomicResponse_pending (s : State) (c : Nat) (r : RoceIn) (h : TeHost) :
    (s.teAtomicResponse c r h).pending = s.pending := by
  unfold State.teAtomicResponse
  split <;> simp

@[simp] theorem State.mpAdvance_pending (s : State) (c n : Nat) : (s.mpAdvance c n).pending = s.pending := by
  induction n generalizing s with
  | zero => rfl
  | succ n ih => simp [State.mpAdvance, ih]

@[simp] theorem State.setRxMsn_pending (s : State) (c : Nat) (m : TeRx) : (s.setRxMsn c m).pending = s.pending := by
  simp [State.setRxMsn]

@[simp] theorem State.mpPlaceHeld_pending (s : State) (c : Nat) (m : TeRx) (h : TeHost) :
    (s.mpPlaceHeld c m h).2.2.pending = s.pending := by
  unfold State.mpPlaceHeld
  rw [foldl_snd_snd_pending]
  · simp
  · intro x p
    dsimp only
    split <;> simp

@[simp] theorem State.mpAssignOne_pending (s : State) (c : Nat) (h : TeHost) (k : Nat) (m : TeRx) :
    (s.mpAssignOne c h k m).2.pending = s.pending := by
  unfold State.mpAssignOne
  dsimp only
  (repeat' split) <;> simp

@[simp] theorem State.mpAssign_pending (s : State) (c : Nat) (h : TeHost) (n k : Nat) :
    (s.mpAssign c h n k).pending = s.pending := by
  induction n generalizing s k with
  | zero => rfl
  | succ n ih =>
    unfold State.mpAssign
    dsimp only
    (repeat' split) <;> simp [ih]

@[simp] theorem State.mpComplete_pending (s : State) (c n : Nat) : (s.mpComplete c n).pending = s.pending := by
  induction n generalizing s with
  | zero => rfl
  | succ n ih =>
    unfold State.mpComplete
    split
    · rfl
    · split <;> simp [ih]

@[simp] theorem State.mpRespond_pending (s : State) (c : Nat) (h : TeHost) (n : Nat) (data : List Byte) :
    (s.mpRespond c h n data).pending = s.pending := by
  induction n generalizing s data with
  | zero => rfl
  | succ n ih =>
    unfold State.mpRespond
    dsimp only
    (repeat' split) <;> simp [ih]

@[simp] theorem State.mpTaken_pending (s : State) (c : Nat) (r : RoceIn) (h : TeHost) :
    (s.mpTaken c r h).pending = s.pending := by
  simp [State.mpTaken]

@[simp] theorem State.mpRequest_pending (s : State) (c : Nat) (r : RoceIn) (h : TeHost) :
    (s.mpRequest c r h).pending = s.pending := by
  unfold State.mpRequest
  extract_lets b q d mtu msn flags len off key va data op _ m0 m1 _ s0 e m2 s1
  have h0 : s0.pending = s.pending := rfl
  refine pending_ite rfl (pending_ite (by simp) (pending_ite (by simp) (pending_ite ?answer
    (pending_ite rfl ?request))))
  case answer =>
    split
    · simp
    · split
      next st t ht =>
        have ht := pending_of_snd_eq ht (State.teGot_pending ..)
        exact pending_ite (by simp [ht]) (by simp [ht])
  case request =>
    refine pending_ite (by simp [h0]) (pending_ite (by simp [h0]) (pending_ite ?send (pending_ite ?write ?read)))
    case send =>
      refine pending_ite ?placed (pending_ite (by simp [h0]) (pending_ite (by simp [h0]) (by simp [s1, h0])))
      split
      next st t ht =>
        have ht := pending_of_snd_eq ht ((State.tePlaceSend_pending ..).trans h0)
        exact pending_ite (by simp [ht]) (by simp [ht])
    case write =>
      split
      next k t hk =>
        have ht := pending_of_snd_eq hk ((State.teKeyH_pending ..).trans h0)
        split
        · simp [ht]
        · split
          next ok u hu =>
            have hu := pending_of_snd_eq hu ((State.teWrite_pending ..).trans ht)
            exact pending_ite (by simp [hu]) (by simp [hu])
    case read =>
      split
      next k t hk =>
        have ht := pending_of_snd_eq hk ((State.teKeyH_pending ..).trans h0)
        split <;> simp [ht]

@[simp] theorem State.mpAckReceive_pending (s : State) (c : Nat) (r : RoceIn) (h : TeHost) :
    (s.mpAckReceive c r h).pending = s.pending := by
  unfold State.mpAckReceive
  extract_lets
  (repeat' split) <;> simp +zetaDelta

@[simp] theorem State.teAtQp_pending (s : State) (c : Nat) (r : RoceIn) (h : TeHost) :
    (s.teAtQp c r h).pending = s.pending := by
  simp [State.teAtQp]

@[simp] theorem State.teLate_pending (s : State) : s.teLate.pending = s.pending := by simp [State.teLate]

@[simp] theorem State.teEnd_pending (s : State) : s.teEnd.pending = s.pending := by simp [State.teEnd]

@[simp] theorem State.teEspDone_pending (s : State) (c : Nat) (m : Packet) :
    (s.teEspDone c m).pending = s.pending := by
  unfold State.teEspDone
  dsimp only
  split <;> simp

@[simp] theorem State.teCacheAccess_pending (s : State) (e : Nat) : (s.teCacheAccess e).pending = s.pending := by
  simp [State.teCacheAccess]

@[simp] theorem State.teMicrocode_pending (s : State) (c : Nat) (u : UcEnd) :
    (s.teMicrocode c u).pending = s.pending := by
  cases u <;> simp [State.teMicrocode]

@[simp] theorem execTePacketReceive_keepsQueue (engine : Nat) (h : TeHost) (s : State) :
    Res.keepsQueue s (execTePacketReceive engine h s) := by
  fun_cases execTePacketReceive engine h s <;> simp +zetaDelta

@[simp] theorem State.mpResume_pending (s : State) (c : Nat) (h : TeHost) : (s.mpResume c h).pending = s.pending := by
  simp [State.mpResume]

@[simp] theorem State.srqAssign_pending (s : State) (j : Nat) (h : TeHost) (n k : Nat) (done : List Nat) :
    (s.srqAssign j h n k done).pending = s.pending := by
  induction n generalizing s k done with
  | zero => rfl
  | succ n ih =>
    unfold State.srqAssign
    dsimp only
    (repeat' split) <;> simp [ih]

@[simp] theorem State.srqResume_pending (s : State) (j : Nat) (h : TeHost) :
    (s.srqResume j h).pending = s.pending := by
  simp [State.srqResume]

@[simp] theorem State.tePost_pending (s : State) (j : Nat) (h : TeHost) (act : State → TeSrq → State) (kind : Nat)
    (hact : ∀ t b, (act t b).pending = t.pending) : (s.tePost j h act kind).pending = s.pending := by
  simp [State.tePost, hact]

@[simp] theorem State.teTaggedPost_pending (s : State) (j : Nat) (q : TeSrq) (r : TeRecv) (mask : Nat) (h : TeHost) :
    (s.teTaggedPost j q r mask h).pending = s.pending := by
  unfold State.teTaggedPost
  (repeat' split) <;> simp

@[simp] theorem execTeCancelReceive_keepsQueue (srq : Nat) (h : TeHost) (s : State) :
    Res.keepsQueue s (execTeCancelReceive srq h s) := by
  unfold execTeCancelReceive
  refine Res.keepsQueue_next.mpr (State.tePost_pending _ _ _ _ _ fun s q => ?_)
  dsimp only
  split <;> simp

/-! #### Sys2Proof/Machine/Nve.lean -/

@[simp] theorem free16_pending (s : State) : (free16 s).2.pending = s.pending := by simp [free16]

@[simp] theorem State.nveEnable_pending (s : State) (f : Nat) : (s.nveEnable f).pending = s.pending := by
  simp [State.nveEnable]

@[simp] theorem State.nveAbortUnsent_pending (s : State) (f : Nat) (sq : Option Nat) (status : Nat) :
    (s.nveAbortUnsent f sq status).pending = s.pending := by
  simp [State.nveAbortUnsent]

@[simp] theorem State.nveCcWrite_pending (s : State) (f v : Nat) : (s.nveCcWrite f v).pending = s.pending := by
  simp [State.nveCcWrite]

@[simp] theorem State.nveReenable_pending (s : State) (f : Nat) : (s.nveReenable f).pending = s.pending := by
  simp [State.nveReenable]

@[simp] theorem State.nveReg4_pending (s : State) (f o : Nat) : (s.nveReg4 f o).2.pending = s.pending := by
  grind [State.nveReg4, State.takeFree_pending]

@[simp] theorem State.nveRegRead_pending (s : State) (f o n : Nat) : (s.nveRegRead f o n).2.pending = s.pending := by
  unfold State.nveRegRead
  dsimp only
  (repeat' split) <;> simp

@[simp] theorem State.nveBadDoorbell_pending (s : State) (f info : Nat) :
    (s.nveBadDoorbell f info).pending = s.pending := by
  simp [State.nveBadDoorbell]

@[simp] theorem State.nveDoorbell_pending (s : State) (f o v : Nat) : (s.nveDoorbell f o v).pending = s.pending := by
  unfold State.nveDoorbell
  dsimp only
  (repeat' split) <;> simp

@[simp] theorem State.nveWrite4_pending (s : State) (f o v : Nat) : (s.nveWrite4 f o v).pending = s.pending := by
  simp [State.nveWrite4]

@[simp] theorem State.nveRegWrite_pending (s : State) (f o n v : Nat) :
    (s.nveRegWrite f o n v).2.pending = s.pending := by
  unfold State.nveRegWrite
  (repeat' split) <;> simp

@[simp] theorem execNvmeAdmission_keepsQueue (fn : Nat) (sqe : List Byte) (e : DmaEnd) (s : State) :
    Res.keepsQueue s (execNvmeAdmission fn sqe e s) := by
  unfold execNvmeAdmission
  dsimp only
  split <;> simp

@[simp] theorem State.nveRow_pending (s : State) (id op : Nat) (admin : Bool) (act : State → NveCmd → State)
    (hact : ∀ t b, (act t b).pending = t.pending) : (s.nveRow id op admin act).pending = s.pending := by
  unfold State.nveRow
  split <;> simp [hact]

@[simp] theorem State.nveReturn_pending (s : State) (x : NveCmd) (data : List Byte) (h : NveHost) :
    (s.nveReturn x data h).pending = s.pending := by
  simp [State.nveReturn]

@[simp] theorem State.adminDeleteSq_pending (s : State) (x : NveCmd) : (s.adminDeleteSq x).pending = s.pending := by
  simp [State.adminDeleteSq]

@[simp] theorem State.adminDeleteCq_pending (s : State) (x : NveCmd) : (s.adminDeleteCq x).pending = s.pending := by
  simp [State.adminDeleteCq]

@[simp] theorem State.adminCreateSq_pending (s : State) (x : NveCmd) : (s.adminCreateSq x).pending = s.pending := by
  simp [State.adminCreateSq]

@[simp] theorem State.adminCreateCq_pending (s : State) (x : NveCmd) : (s.adminCreateCq x).pending = s.pending := by
  simp [State.adminCreateCq]

@[simp] theorem State.logSmart_pending (s : State) (f : Nat) : (s.logSmart f).2.pending = s.pending := by
  unfold State.logSmart
  simp only [free16_pending, State.takeFree_pending]

theorem State.logPage_pending (s : State) (f page : Nat) :
    ∀ t, s.logPage f page = some t → t.2.pending = s.pending := by
  unfold State.logPage
  grind [State.logSmart_pending]

@[simp] theorem State.adminGetLog_pending (s : State) (x : NveCmd) (h : NveHost) :
    (s.adminGetLog x h).pending = s.pending := by
  unfold State.adminGetLog
  extract_lets
  split
  · simp
  · next hpage =>
    have hlog := State.logPage_pending _ _ _ _ hpage
    dsimp only at hlog
    refine pending_ite (by simp) ?_
    extract_lets
    exact pending_ite (by simp +zetaDelta [hlog]) (by simp +zetaDelta [hlog])

@[simp] theorem State.identifyController_pending (s : State) (f : Nat) :
    (s.identifyController f).2.pending = s.pending := by
  unfold State.identifyController
  simp only [free16_pending]

@[simp] theorem State.adminIdentify_pending (s : State) (x : NveCmd) (h : NveHost) :
    (s.adminIdentify x h).pending = s.pending := by
  simp [State.adminIdentify]

@[simp] theorem State.adminAbort_pending (s : State) (x : NveCmd) : (s.adminAbort x).pending = s.pending := by
  unfold State.adminAbort
  dsimp only
  (repeat' split) <;> simp

@[simp] theorem State.adminSetFeatures_pending (s : State) (x : NveCmd) :
    (s.adminSetFeatures x).pending = s.pending := by
  simp [State.adminSetFeatures]

@[simp] theorem State.adminGetFeatures_pending (s : State) (x : NveCmd) :
    (s.adminGetFeatures x).pending = s.pending := by
  simp [State.adminGetFeatures]

@[simp] theorem State.adminAer_pending (s : State) (x : NveCmd) : (s.adminAer x).pending = s.pending := by
  simp [State.adminAer]

@[simp] theorem State.nveCount_pending (s : State) (x : NveCmd) (bytes : Nat) :
    (s.nveCount x bytes).pending = s.pending := by
  simp [State.nveCount]

@[simp] theorem State.ioFlush_pending (s : State) (x : NveCmd) : (s.ioFlush x).pending = s.pending := by
  simp [State.ioFlush]

@[simp] theorem State.ioWrite_pending (s : State) (x : NveCmd) (h : NveHost) :
    (s.ioWrite x h).pending = s.pending := by
  simp [State.ioWrite]

@[simp] theorem State.ioRead_pending (s : State) (x : NveCmd) (ecc : EccResult) (h : NveHost) :
    (s.ioRead x ecc h).pending = s.pending := by
  unfold State.ioRead
  dsimp only
  (repeat' split) <;> simp

@[simp] theorem State.ioZeroes_pending (s : State) (x : NveCmd) : (s.ioZeroes x).pending = s.pending := by
  simp [State.ioZeroes]

@[simp] theorem State.ioDsm_pending (s : State) (x : NveCmd) (h : NveHost) : (s.ioDsm x h).pending = s.pending := by
  simp [State.ioDsm]

@[simp] theorem State.nveCipherDone_pending (s : State) (k : NveCiph) (st : Nat) (poison : Bool) (out : List Byte) :
    (s.nveCipherDone k st poison out).pending = s.pending := by
  unfold State.nveCipherDone
  split <;> simp

@[simp] theorem execNveCipherCompletion_keepsQueue (engine : Nat) (s : State) :
    Res.keepsQueue s (execNveCipherCompletion engine s) := by
  unfold execNveCipherCompletion
  dsimp only
  (repeat' split) <;> simp

@[simp] theorem State.pduCheck_pending (s : State) (c : Nat) : (s.pduCheck c).pending = s.pending := by
  simp [State.pduCheck]

@[simp] theorem State.pduRow_pending (s : State) (c type : Nat) (act : State → List Byte → State)
    (hact : ∀ t b, (act t b).pending = t.pending) : (s.pduRow c type act).pending = s.pending := by
  unfold State.pduRow
  dsimp only
  split <;> simp [hact]

@[simp] theorem State.protoFail_pending (s : State) (c : Nat) (b : List Byte) :
    (s.protoFail c b).pending = s.pending := by
  simp [State.protoFail]

@[simp] theorem State.pduResp_pending (s : State) (c : Nat) (b : List Byte) :
    (s.pduResp c b).pending = s.pending := by
  unfold State.pduResp
  dsimp only
  split <;> simp

@[simp] theorem State.pduC2h_pending (s : State) (c : Nat) (b : List Byte) : (s.pduC2h c b).pending = s.pending := by
  unfold State.pduC2h
  dsimp only
  (repeat' split) <;> simp

@[simp] theorem State.pduR2t_pending (s : State) (c : Nat) (b : List Byte) : (s.pduR2t c b).pending = s.pending := by
  unfold State.pduR2t
  split <;> simp

@[simp] theorem State.tcpArrive_pending (s : State) (c : Nat) (t : TcpIn) :
    (s.tcpArrive c t).pending = s.pending := by
  simp [State.tcpArrive]

@[simp] theorem execNveTcpSegmentReceive_keepsQueue (engine : Nat) (s : State) :
    Res.keepsQueue s (execNveTcpSegmentReceive engine s) := by
  unfold execNveTcpSegmentReceive
  dsimp only
  (repeat' split) <;> simp

@[simp] theorem execNveTcpRto_keepsQueue (conn : Nat) (s : State) : Res.keepsQueue s (execNveTcpRto conn s) := by
  unfold execNveTcpRto
  dsimp only
  (repeat' split) <;> simp

@[simp] theorem State.connFc_pending (s : State) (fc : Nat) : (s.connFc fc).pending = s.pending := by
  simp [State.connFc]

@[simp] theorem State.connRefuse_pending (s : State) (c : Nat) : (s.connRefuse c).pending = s.pending := by
  simp [State.connRefuse]

@[simp] theorem State.connOffload_pending (s : State) : s.connOffload.pending = s.pending := by
  simp [State.connOffload]

@[simp] theorem State.connClose_pending (s : State) (force : Bool) : (s.connClose force).pending = s.pending := by
  simp [State.connClose]

@[simp] theorem State.connQuery_pending (s : State) : s.connQuery.pending = s.pending := by simp [State.connQuery]

@[simp] theorem State.nveNsGo_pending (s : State) : s.nveNsGo.pending = s.pending := by simp [State.nveNsGo]

@[simp] theorem State.drainStop_pending (s : State) (f : Nat) : (s.drainStop f).pending = s.pending := by
  simp [State.drainStop]

@[simp] theorem State.nveModeGo_pending (s : State) : s.nveModeGo.pending = s.pending := by simp [State.nveModeGo]

@[simp] theorem State.nveNight_pending (s : State) : s.nveNight.pending = s.pending := by simp [State.nveNight]

@[simp] theorem State.nveNightOff_pending (s : State) : s.nveNightOff.pending = s.pending := by
  simp [State.nveNightOff]

@[simp] theorem State.nveCloseAll_pending (s : State) : s.nveCloseAll.pending = s.pending := by
  simp [State.nveCloseAll]

@[simp] theorem State.nveWicket_pending (s : State) : s.nveWicket.pending = s.pending := by simp [State.nveWicket]

@[simp] theorem State.nveFunctionReset_pending (s : State) (f : Nat) :
    (s.nveFunctionReset f).pending = s.pending := by
  simp [State.nveFunctionReset]

@[simp] theorem State.nveElementReset_pending (s : State) (f : Nat) : (s.nveElementReset f).pending = s.pending := by
  simp [State.nveElementReset]

/-! #### Sys2Proof/Machine/Sign.lean -/

@[simp] theorem State.setDigest_pending (s : State) (reg : Nat → Nat) (d : List Byte) :
    (s.setDigest reg d).pending = s.pending := by
  simp [State.setDigest]

/-! #### Sys2Proof/Machine/TeCtrl.lean -/

@[simp] theorem State.pickIndex_pending (s : State) (base n : Nat) (free : Nat → Bool) :
    (s.pickIndex base n free).2.pending = s.pending := by
  simp [State.pickIndex]

@[simp] theorem State.teBell_pending (s : State) (f : Nat) (v : Word) (h : TeHost) :
    (s.teBell f v h).pending = s.pending := by
  simp [State.teBell]

@[simp] theorem State.tePosts_pending (s : State) (f n : Nat) : (s.tePosts f n).pending = s.pending := by
  induction n generalizing s with
  | zero => rfl
  | succ n ih =>
    unfold State.tePosts
    split
    · rfl
    · simp [ih]
    · split <;> simp [ih]

@[simp] theorem State.teTakePosts_pending (s : State) (f : Nat) : (s.teTakePosts f).pending = s.pending := by
  simp [State.teTakePosts]

@[simp] theorem State.tePostLast_pending (s : State) (f : Nat) (p : TePost) :
    (s.tePostLast f p).pending = s.pending := by
  simp [State.tePostLast]

@[simp] theorem State.teDoorbell_pending (s : State) (f : Nat) (v : Word) (h : TeHost) :
    (s.teDoorbell f v h).pending = s.pending := by
  simp [State.teDoorbell]

@[simp] theorem State.teCtrlPi_pending (s : State) (f pi : Nat) : (s.teCtrlPi f pi).pending = s.pending := by
  simp [State.teCtrlPi]

@[simp] theorem State.teCtrlDone_pending (s : State) (f status result : Nat) :
    (s.teCtrlDone f status result).pending = s.pending := by
  simp [State.teCtrlDone]

/-- A control entry keeps the queue where its own effect does. -/
@[simp] theorem State.teCtrl_pending (s : State) (f op : Nat) (h : TeHost)
    (act : State → List Byte → Option CtrlAnswer) (hact : ∀ t b x, act t b = some x → x.2.2.pending = t.pending) :
    (s.teCtrl f op h act).pending = s.pending := by
  unfold State.teCtrl
  extract_lets
  refine pending_ite rfl (pending_ite rfl ?_)
  split
  next r _ s1 hs1 =>
    have h1 : s1.pending = s.pending := by
      have := congrArg (fun x => x.2.2.pending) hs1
      simpa using this.symm
    refine pending_ite (by simp [h1]) (pending_ite (by simp [h1]) ?_)
    split
    · next st result s2 hs2 =>
      have h2 : s2.pending = s.pending := (hact _ _ _ hs2).trans h1
      simp [h2]
    · simp [h1]

@[simp] theorem State.teImage_pending (s : State) (f n : Nat) (b : List Byte) (h : TeHost) :
    (s.teImage f n b h).2.pending = s.pending := by
  unfold State.teImage
  dsimp only
  split <;> simp

@[simp] theorem State.writeQpImage_pending (s : State) (c f qpn : Nat) (im : List Byte) (words : Nat → Bool) :
    (s.writeQpImage c f qpn im words).pending = s.pending := by
  simp [State.writeQpImage]

@[simp] theorem State.setQpUsed_pending (s : State) (c : Nat) (b : Bool) : (s.setQpUsed c b).pending = s.pending := by
  simp [State.setQpUsed]

@[simp] theorem State.setCqUsed_pending (s : State) (c : Nat) (b : Bool) : (s.setCqUsed c b).pending = s.pending := by
  simp [State.setCqUsed]

@[simp] theorem State.setSrqUsed_pending (s : State) (c : Nat) (b : Bool) :
    (s.setSrqUsed c b).pending = s.pending := by
  simp [State.setSrqUsed]

@[simp] theorem State.setMpUsed_pending (s : State) (c : Nat) (b : Bool) : (s.setMpUsed c b).pending = s.pending := by
  simp [State.setMpUsed]

@[simp] theorem State.createQp_pending (s : State) (f : Nat) (b : List Byte) (h : TeHost) :
    (s.createQp f b h).2.2.pending = s.pending := by
  grind [State.createQp, State.teImage_pending, State.pickIndex_pending, State.writeQpImage_pending,
    State.putBytes_pending, State.setTeQp_pending, State.setQc_pending, State.setQpUsed_pending]

@[simp] theorem State.qpToReset_pending (s : State) (c : Nat) : (s.qpToReset c).pending = s.pending := by
  simp [State.qpToReset]

@[simp] theorem State.modifyQp_pending (s : State) (f : Nat) (b : List Byte) (h : TeHost) :
    (s.modifyQp f b h).2.2.pending = s.pending := by
  unfold State.modifyQp
  extract_lets
  split
  · rfl
  split
  · next hs1 => exact pending_of_snd_eq hs1 (State.teImage_pending ..)
  next s1 hs1 =>
  have h1 := pending_of_snd_eq hs1 (State.teImage_pending ..)
  extract_lets
  split
  · exact h1
  split
  · exact h1
  split
  · exact h1
  split
  next blk s2 hs2 =>
  have h2 := pending_of_snd_eq hs2 (s := s) (by split <;> simp [h1])
  split
  · simp [h2]
  extract_lets s3 s4 s5 _ s6
  have h5 : s5.pending = s.pending := by cases blk <;> simp [s5, s4, s3, h2]
  simp only [s6]
  (repeat' split) <;> simp [h5]

@[simp] theorem State.freeBytes_pending (s : State) (n : Nat) : (s.freeBytes n).2.pending = s.pending := by
  induction n generalizing s with
  | zero => rfl
  | succ n ih => simp [State.freeBytes, ih]

@[simp] theorem State.queryQp_pending (s : State) (f : Nat) (b : List Byte) :
    (s.queryQp f b).2.2.pending = s.pending := by
  unfold State.queryQp
  dsimp only
  split <;> simp

@[simp] theorem State.destroyQp_pending (s : State) (f : Nat) (b : List Byte) :
    (s.destroyQp f b).2.2.pending = s.pending := by
  grind [State.destroyQp, State.qpToReset_pending, State.setQpUsed_pending, State.setTeQp_pending,
    State.putBytes_pending]

@[simp] theorem State.writeSrq_pending (s : State) (j : Nat) (im : List Byte) :
    (s.writeSrq j im).pending = s.pending := by
  simp [State.writeSrq]

@[simp] theorem State.createSrq_pending (s : State) (f : Nat) (b : List Byte) (h : TeHost) :
    (s.createSrq f b h).2.2.pending = s.pending := by
  grind [State.createSrq, State.teImage_pending, State.pickIndex_pending, State.setSrqUsed_pending,
    State.setTeSrq_pending, State.writeSrq_pending]

@[simp] theorem State.modifySrq_pending (s : State) (f : Nat) (b : List Byte) (h : TeHost) :
    (s.modifySrq f b h).2.2.pending = s.pending := by
  grind [State.modifySrq, State.teImage_pending, State.writeSrq_pending]

@[simp] theorem State.destroySrq_pending (s : State) (f : Nat) (b : List Byte) :
    (s.destroySrq f b).2.2.pending = s.pending := by
  unfold State.destroySrq
  dsimp only
  (repeat' split) <;> simp

@[simp] theorem State.createCq_pending (s : State) (f : Nat) (b : List Byte) (h : TeHost) :
    (s.createCq f b h).2.2.pending = s.pending := by
  grind [State.createCq, State.teImage_pending, State.pickIndex_pending, State.setCqUsed_pending,
    State.setTeCq_pending, State.teSetF_pending, State.putBytes_pending]

@[simp] theorem State.destroyCq_pending (s : State) (f : Nat) (b : List Byte) :
    (s.destroyCq f b).2.2.pending = s.pending := by
  unfold State.destroyCq
  dsimp only
  (repeat' split) <;> simp

@[simp] theorem State.allocMr_pending (s : State) (f : Nat) : (s.allocMr f).2.pending = s.pending := by
  unfold State.allocMr
  dsimp only
  split <;> simp

@[simp] theorem State.regMr_pending (s : State) (f : Nat) (b : List Byte) (h : TeHost) :
    (s.regMr f b h).2.2.pending = s.pending := by
  unfold State.regMr
  (repeat' split) <;> simp <;> grind [State.teImage_pending, State.allocMr_pending]

theorem State.deregMr_pending (s : State) (f : Nat) (b : List Byte) (x : CtrlAnswer) (hx : s.deregMr f b = some x) :
    x.2.2.pending = s.pending := by
  unfold State.deregMr at hx
  grind

@[simp] theorem State.allocMw_pending (s : State) (f : Nat) (b : List Byte) :
    (s.allocMw f b).2.2.pending = s.pending := by
  unfold State.allocMw
  (repeat' split) <;> simp <;> grind [State.allocMr_pending]

@[simp] theorem execTeDeregMr_keepsQueue (fn : Nat) (h : TeHost) (s : State) :
    Res.keepsQueue s (execTeDeregMr fn h s) := by
  simp [execTeDeregMr, State.teCtrl_pending _ _ _ _ _ fun t b => State.deregMr_pending t fn b]

@[simp] theorem State.teSqRow_keepsQueue (s : State) (qp op : Nat) (h : TeHost) (act : State → List Byte → State)
    (hact : ∀ t b, (act t b).pending = t.pending) : Res.keepsQueue s (s.teSqRow qp op h act) := by
  simp [State.teSqRow, hact]

@[simp] theorem execInvalidationComplete_keepsQueue (index : Nat) (s : State) :
    Res.keepsQueue s (execInvalidationComplete index s) := by
  unfold execInvalidationComplete
  (repeat' split) <;> simp

@[simp] theorem State.tePageWrite_pending (s : State) (f off : Nat) (v : Word) (h : TeHost) :
    (s.tePageWrite f off v h).pending = s.pending := by
  simp [State.tePageWrite]

@[simp] theorem State.teQpForce_pending (s : State) : s.teQpForce.pending = s.pending := by simp [State.teQpForce]

@[simp] theorem State.ccGo_pending (s : State) : s.ccGo.pending = s.pending := by simp [State.ccGo]

@[simp] theorem State.teFunctionReset_pending (s : State) (f : Nat) : (s.teFunctionReset f).pending = s.pending := by
  simp [State.teFunctionReset]

@[simp] theorem State.teWicket_pending (s : State) : s.teWicket.pending = s.pending := by simp [State.teWicket]

/-! #### Sys2Proof/Machine/TeUc.lean -/

@[simp] theorem State.ucRefuse_pending (s : State) : s.ucRefuse.pending = s.pending := by simp [State.ucRefuse]

@[simp] theorem State.ucLoad_pending (s : State) (host : Bool) : (s.ucLoad host).pending = s.pending := by
  simp [State.ucLoad]

@[simp] theorem State.ucClear_pending (s : State) : s.ucClear.pending = s.pending := by simp [State.ucClear]

@[simp] theorem State.ucFail_pending (s : State) (cond : Nat) : (s.ucFail cond).pending = s.pending := by
  simp [State.ucFail]

@[simp] theorem execTeUcLoadEnd_keepsQueue (hostBytes : List Byte) (x : SrcRead) (s : State) :
    Res.keepsQueue s (execTeUcLoadEnd hostBytes x s) := by
  unfold execTeUcLoadEnd
  dsimp only
  (repeat' split) <;> simp <;> grind [State.operatorRead_pending]

@[simp] theorem State.ucSeal_pending (s : State) : s.ucSeal.pending = s.pending := by simp [State.ucSeal]

/-! #### Sys2Proof/Machine/PcieOps.lean -/

@[simp] theorem State.msixReset_pending (s : State) (f : Nat) : (s.msixReset f).pending = s.pending := by
  simp [State.msixReset]

@[simp] theorem State.cfgClear_pending (s : State) (f : Nat) (keepSticky : Bool) :
    (s.cfgClear f keepSticky).pending = s.pending := by
  simp [State.cfgClear]

@[simp] theorem State.fnUnitsReset_pending (s : State) (f : Nat) : (s.fnUnitsReset f).pending = s.pending := by
  simp [State.fnUnitsReset]

@[simp] theorem State.oneFnReset_pending (s : State) (keepSticky : Bool) (f : Nat) :
    (s.oneFnReset keepSticky f).pending = s.pending := by
  simp [State.oneFnReset]

@[simp] theorem State.fnReset_pending (s : State) (f : Nat) : (s.fnReset f).pending = s.pending := by
  simp [State.fnReset]

@[simp] theorem State.vfsReset_pending (s : State) (pf : Nat) : (s.vfsReset pf).pending = s.pending := by
  simp [State.vfsReset]

/-- In Hold the host interface keeps a TLP; else its own meaning answers. -/
@[simp] theorem State.onTlp_keepsQueue {s : State} {i : Tlp} {act : Res} (h : Res.keepsQueue s act) :
    Res.keepsQueue s (s.onTlp i act) := by
  unfold State.onTlp
  split
  · simp
  · exact h

@[simp] theorem State.linkDownEvent_pending (s : State) (port link : Nat) :
    (s.linkDownEvent port link).pending = s.pending := by
  simp [State.linkDownEvent]

@[simp] theorem State.msixReleaseAll_pending (s : State) (f : Nat) : (s.msixReleaseAll f).pending = s.pending := by
  simp [State.msixReleaseAll]

@[simp] theorem State.msixTableWrite_pending (s : State) (f o n v : Nat) :
    (s.msixTableWrite f o n v).pending = s.pending := by
  simp [State.msixTableWrite]

@[simp] theorem State.atwGo_pending (s : State) (pf : Nat) : (s.atwGo pf).pending = s.pending := by
  unfold State.atwGo
  (repeat' split) <;> simp

@[simp] theorem State.atwLive_pending (s : State) (pf : Nat) : (s.atwLive pf).pending = s.pending := by
  simp [State.atwLive]

@[simp] theorem State.atwReset_pending (s : State) (pf : Nat) : (s.atwReset pf).pending = s.pending := by
  simp [State.atwReset]

/-! #### Sys2Proof/Machine/Start.lean -/

@[simp] theorem State.showStraps_pending (s old : State) : (s.showStraps old).pending = s.pending := by
  simp [State.showStraps]

@[simp] theorem State.coreReset_pending (s : State) (start : Bool) : (s.coreReset start).pending = s.pending := by
  unfold State.coreReset
  extract_lets
  rw [foldl_pending _ _ _ State.fltRefresh_pending, foldl_pending _ _ _ fun _ _ => State.set_pending ..,
    State.showStraps_pending]
  rfl

@[simp] theorem State.drawEpoch_pending (s : State) (healthy : Bool) : (s.drawEpoch healthy).pending = s.pending := by
  simp [State.drawEpoch]

@[simp] theorem State.startReset_pending (s : State) (cause : Nat) (healthy : Bool) :
    (s.startReset cause healthy).pending = s.pending := by
  simp [State.startReset]

@[simp] theorem State.controlledReset_pending (s : State) (cause : Nat) :
    (s.controlledReset cause).pending = s.pending := by
  simp [State.controlledReset]

@[simp] theorem State.slewsEnd_pending (s : State) : s.slewsEnd.pending = s.pending := by simp [State.slewsEnd]

@[simp] theorem State.nightWake_pending (s : State) : s.nightWake.pending = s.pending := by simp [State.nightWake]

@[simp] theorem State.lodgeReset_pending (s : State) : s.lodgeReset.pending = s.pending := by simp [State.lodgeReset]

/-! #### Sys2Proof/Machine/Power.lean -/

@[simp] theorem State.pwrFault_pending (s : State) (cond dom : Nat) : (s.pwrFault cond dom).pending = s.pending := by
  simp [State.pwrFault]

@[simp] theorem State.pwrTileFault_pending (s : State) (tile : Nat) : (s.pwrTileFault tile).pending = s.pending := by
  simp [State.pwrTileFault]

@[simp] theorem State.sdlFault_pending (s : State) (cond dom sensor : Nat) :
    (s.sdlFault cond dom sensor).pending = s.pending := by
  simp [State.sdlFault]

@[simp] theorem State.skyEnter_pending (s : State) (t sky : Nat) : (s.skyEnter t sky).pending = s.pending := by
  simp [State.skyEnter]

@[simp] theorem State.grpHazeEntry_pending (s : State) (g : Nat) : (s.grpHazeEntry g).pending = s.pending := by
  simp [State.grpHazeEntry]

@[simp] theorem execTileHazeEntry_keepsQueue (tile : Nat) (s : State) :
    Res.keepsQueue s (execTileHazeEntry tile s) := by
  unfold execTileHazeEntry
  (repeat' split) <;> simp

@[simp] theorem State.setOnline_pending (s : State) (h : Nat) (b : Bool) : (s.setOnline h b).pending = s.pending := by
  simp [State.setOnline]

@[simp] theorem execTileWakeComplete_keepsQueue (tile : Nat) (s : State) :
    Res.keepsQueue s (execTileWakeComplete tile s) := by
  unfold execTileWakeComplete
  split <;> simp

@[simp] theorem State.hartStart_pending (s : State) (h : Nat) : (s.hartStart h).pending = s.pending := by
  simp [State.hartStart]

@[simp] theorem State.hartStop_pending (s : State) (h : Nat) : (s.hartStop h).pending = s.pending := by
  simp [State.hartStop]

@[simp] theorem State.nightEnter_pending (s : State) : s.nightEnter.pending = s.pending := by simp [State.nightEnter]

@[simp] theorem State.nightAbandon_pending (s : State) : s.nightAbandon.pending = s.pending := by
  simp [State.nightAbandon]

theorem State.warmSave_pending (s : State) : ∀ t, s.warmSave = some t → t.pending = s.pending := by
  unfold State.warmSave
  grind [State.withBoot_pending, State.putBytes_pending]

@[simp] theorem execNightDrainEnd_keepsQueue (s : State) : Res.keepsQueue s (execNightDrainEnd s) := by
  unfold execNightDrainEnd
  split
  · simp
  · dsimp only
    split
    · simp
    · next hsave => simp [State.warmSave_pending _ _ hsave]

@[simp] theorem State.wakeEvent_pending (s : State) : s.wakeEvent.pending = s.pending := by simp [State.wakeEvent]

@[simp] theorem State.holdStomp_pending (s : State) (d : Nat) (sent : List Nat) :
    (s.holdStomp d sent).pending = s.pending := by
  unfold State.holdStomp
  split
  · rfl
  · rw [foldl_pending]
    intro s p
    split <;> simp

@[simp] theorem State.setSensor_pending (s : State) (i : Nat) (x : Sensor) :
    (s.setSensor i x).pending = s.pending := by
  simp [State.setSensor]

@[simp] theorem State.sampleSensor_pending (s : State) (i : Nat) (r : Option (Nat × Nat × Nat)) :
    (s.sampleSensor i r).pending = s.pending := by
  unfold State.sampleSensor
  (repeat' split) <;> simp

@[simp] theorem State.sampleFrom_pending (s : State) (i : Nat) (l : List (Option (Nat × Nat × Nat))) :
    (s.sampleFrom i l).pending = s.pending := by
  induction l generalizing s i with
  | nil => rfl
  | cons r l ih => simp [State.sampleFrom, ih]

@[simp] theorem State.summarise_pending (s : State) (d : Nat) : (s.summarise d).pending = s.pending := by
  unfold State.summarise
  split <;> simp

@[simp] theorem State.quickCheck_pending (s : State) (d : Nat) (readings : List (Option (Nat × Nat × Nat))) :
    (s.quickCheck d readings).2.pending = s.pending := by
  simp [State.quickCheck]

@[simp] theorem State.holdEnd_pending (s : State) (d : Nat) : (s.holdEnd d).pending = s.pending := by
  simp [State.holdEnd]

@[simp] theorem State.tripRelease_pending (s : State) : s.tripRelease.pending = s.pending := by
  simp [State.tripRelease]

@[simp] theorem State.setpoint_pending (s : State) (d mv low : Nat) : (s.setpoint d mv low).pending = s.pending := by
  simp [State.setpoint]

@[simp] theorem State.qualNext_pending (s : State) (q : PwrQual) : (s.qualNext q).pending = s.pending := by
  unfold State.qualNext
  split <;> simp

@[simp] theorem State.requalify_pending (s : State) (d : Nat) : (s.requalify d).pending = s.pending := by
  unfold State.requalify
  split <;> simp

@[simp] theorem State.marginRaise_pending (s : State) (d : Nat) : (s.marginRaise d).pending = s.pending := by
  unfold State.marginRaise
  dsimp only
  split <;> simp

@[simp] theorem State.qualBack_pending (s : State) (q : PwrQual) : (s.qualBack q).pending = s.pending := by
  simp [State.qualBack]

@[simp] theorem State.opGo_pending (s : State) : s.opGo.pending = s.pending := by simp [State.opGo]

@[simp] theorem State.opCancel_pending (s : State) : s.opCancel.pending = s.pending := by
  unfold State.opCancel
  split <;> simp

@[simp] theorem execQualifyStepEnd_keepsQueue (readings : List (Option (Nat × Nat × Nat))) (s : State) :
    Res.keepsQueue s (execQualifyStepEnd readings s) := by
  unfold execQualifyStepEnd
  dsimp only
  (repeat' split) <;> simp

@[simp] theorem execRailSettleTimeout_keepsQueue (s : State) : Res.keepsQueue s (execRailSettleTimeout s) := by
  unfold execRailSettleTimeout
  split <;> simp

@[simp] theorem State.replanCheck_pending (s : State) : s.replanCheck.pending = s.pending := by
  simp [State.replanCheck]

@[simp] theorem State.replanDone_pending (s : State) : s.replanDone.pending = s.pending := by simp [State.replanDone]

@[simp] theorem State.replanInterval_pending (s : State) (v : Nat) : (s.replanInterval v).pending = s.pending := by
  unfold State.replanInterval
  (repeat' split) <;> simp

/-! #### Sys2Proof/Machine/Boot.lean -/

@[simp] theorem State.bootFault_pending (s : State) (cond : Nat) : (s.bootFault cond).pending = s.pending := by
  simp [State.bootFault]

@[simp] theorem State.bootRefuse_pending (s : State) (lastFc : Fld) : (s.bootRefuse lastFc).pending = s.pending := by
  simp [State.bootRefuse]

@[simp] theorem State.tornCheck_pending (s : State) (k : Nat) : (s.tornCheck k).pending = s.pending := by
  simp [State.tornCheck]

@[simp] theorem State.readRecords_pending (s : State) : s.readRecords.pending = s.pending := by
  simp [State.readRecords]

@[simp] theorem State.attempt_pending (s : State) : s.attempt.pending = s.pending := by simp [State.attempt]

@[simp] theorem State.setPhase_pending (s : State) (p : Nat) : (s.setPhase p).pending = s.pending := by
  simp [State.setPhase]

@[simp] theorem State.markHbm_pending (s : State) : s.markHbm.pending = s.pending := by simp [State.markHbm]

@[simp] theorem State.romHarts_pending (s : State) : s.romHarts.pending = s.pending := by simp [State.romHarts]

@[simp] theorem State.ddrInfo_pending (s : State) : s.ddrInfo.pending = s.pending := by simp [State.ddrInfo]

@[simp] theorem State.noSlot_pending (s : State) : s.noSlot.pending = s.pending := by simp [State.noSlot]

@[simp] theorem execImageCopyEnd_keepsQueue (readable : Bool) (s : State) :
    Res.keepsQueue s (execImageCopyEnd readable s) := by
  unfold execImageCopyEnd
  dsimp only
  (repeat' split) <;> simp

@[simp] theorem State.stage2_pending (s : State) (source seq : Nat) : (s.stage2 source seq).pending = s.pending := by
  simp [State.stage2]

@[simp] theorem execSignatureVerifyEnd_keepsQueue (s : State) : Res.keepsQueue s (execSignatureVerifyEnd s) := by
  unfold execSignatureVerifyEnd
  split <;> simp

@[simp] theorem State.warmFallback_pending (s : State) : s.warmFallback.pending = s.pending := by
  simp [State.warmFallback]

@[simp] theorem execWarmCheckEnd_keepsQueue (s : State) : Res.keepsQueue s (execWarmCheckEnd s) := by
  unfold execWarmCheckEnd
  split <;> simp

@[simp] theorem State.restorePlan_pending (s : State) : s.restorePlan.pending = s.pending := by
  unfold State.restorePlan
  split <;> simp

@[simp] theorem State.endImage_pending (s : State) (cond : Nat) : (s.endImage cond).pending = s.pending := by
  simp [State.endImage]

@[simp] theorem State.failImage_pending (s : State) : s.failImage.pending = s.pending := by simp [State.failImage]

@[simp] theorem State.bootReady_pending (s : State) : s.bootReady.pending = s.pending := by simp [State.bootReady]

@[simp] theorem State.bwGo_pending (s : State) (port : Nat) : (s.bwGo port).pending = s.pending := by
  simp [State.bwGo]

@[simp] theorem execPushVerifyEnd_keepsQueue (s : State) : Res.keepsQueue s (execPushVerifyEnd s) := by
  unfold execPushVerifyEnd
  split <;> simp

@[simp] theorem State.verifySlot_pending (s : State) (slot : Nat) : (s.verifySlot slot).pending = s.pending := by
  simp [State.verifySlot]

@[simp] theorem execVerifySlotEnd_keepsQueue (readable : Bool) (s : State) :
    Res.keepsQueue s (execVerifySlotEnd readable s) := by
  unfold execVerifySlotEnd
  split <;> simp

@[simp] theorem State.xspiCmd_pending (s : State) (op : Nat) : (s.xspiCmd op).pending = s.pending := by
  simp [State.xspiCmd]

@[simp] theorem State.program_pending (s : State) (a : Nat) (l : List Byte) :
    (s.program a l).pending = s.pending := by
  simp [State.program]

@[simp] theorem State.eraseFlash_pending (s : State) (a n : Nat) : (s.eraseFlash a n).pending = s.pending := by
  simp [State.eraseFlash]

@[simp] theorem execXspiCmdEnd_keepsQueue (readable : Bool) (ecc : EccResult) (s : State) :
    Res.keepsQueue s (execXspiCmdEnd readable ecc s) := by
  unfold execXspiCmdEnd
  dsimp only
  (repeat' split) <;> simp <;> grind [State.withBoot_pending, State.set_pending, State.operatorRead_pending]

/-! #### Sys2Proof/Machine/Cph.lean -/

@[simp] theorem State.cphFail_pending (s : State) (p q slot : Nat) (m : Packet) (status cond : Nat) :
    (s.cphFail p q slot m status cond).pending = s.pending := by
  simp [State.cphFail]

@[simp] theorem State.cphAdmit_pending (s : State) (p q slot : Nat) (m : Packet) (op : Nat)
    (b pre inl rec0 : List Byte) (ecc : EccResult) :
    (s.cphAdmit p q slot m op b pre inl rec0 ecc).pending = s.pending := by
  simp [State.cphAdmit]

@[simp] theorem State.cphForwardArriving_pending (s : State) (p q : Nat) (m : Packet) :
    (s.cphForwardArriving p q m).pending = s.pending := by
  simp [State.cphForwardArriving]

@[simp] theorem State.cphLookup_pending (s : State) (slot : Nat) (way : KeyWay) :
    (s.cphLookup slot way).pending = s.pending := by
  simp [State.cphLookup]

@[simp] theorem State.cphCheck_pending (s taken : State) (pair : Nat) (m : Packet) (ecc : EccResult)
    (htaken : taken.pending = s.pending) : (s.cphCheck taken pair m ecc).pending = s.pending := by
  unfold State.cphCheck
  extract_lets
  (repeat' split) <;> simp [htaken]

@[simp] theorem execCphAdmission_keepsQueue (pair index : Nat) (ecc : EccResult) (s : State) :
    Res.keepsQueue s (execCphAdmission pair index ecc s) := by
  unfold execCphAdmission
  dsimp only
  (repeat' split) <;> simp

@[simp] theorem State.slotArrives_pending (s : State) (n : Nat) (r : List Byte) :
    (s.slotArrives n r).pending = s.pending := by
  simp [State.slotArrives]

@[simp] theorem execKeySlotFetch_keepsQueue (slot : Nat) (ecc : EccResult) (s : State) :
    Res.keepsQueue s (execKeySlotFetch slot ecc s) := by
  unfold execKeySlotFetch
  dsimp only
  (repeat' split) <;> simp

@[simp] theorem State.cphFinish_pending (s : State) (r : CphReq) : (s.cphFinish r).2.pending = s.pending := by
  unfold State.cphFinish
  split <;> simp

@[simp] theorem State.mismatch_pending (s : State) (p : Nat) : (s.mismatch p).pending = s.pending := by
  simp [State.mismatch]

@[simp] theorem execCphCompare_keepsQueue (index : Nat) (agree : Bool) (s : State) :
    Res.keepsQueue s (execCphCompare index agree s) := by
  unfold execCphCompare
  split <;> simp

@[simp] theorem State.secondMismatch_pending (s : State) (p queue slot : Nat) :
    (s.secondMismatch p queue slot).pending = s.pending := by
  simp [State.secondMismatch]

@[simp] theorem execCphRetryCompare_keepsQueue (index : Nat) (agree : Bool) (s : State) :
    Res.keepsQueue s (execCphRetryCompare index agree s) := by
  unfold execCphRetryCompare
  split <;> simp

@[simp] theorem execCphResultRelease_keepsQueue (index : Nat) (s : State) :
    Res.keepsQueue s (execCphResultRelease index s) := by
  unfold execCphResultRelease
  split <;> simp

@[simp] theorem State.cphPairRefuse_pending (s : State) (p : Nat) : (s.cphPairRefuse p).pending = s.pending := by
  simp [State.cphPairRefuse]

@[simp] theorem State.markRetries_pending (s : State) (p : Nat) : (s.markRetries p).pending = s.pending := by
  simp [State.markRetries]

@[simp] theorem State.cphQuarantineCmd_pending (s : State) (p : Nat) :
    (s.cphQuarantineCmd p).pending = s.pending := by
  simp [State.cphQuarantineCmd]

@[simp] theorem State.cphTestCmd_pending (s : State) (p : Nat) : (s.cphTestCmd p).pending = s.pending := by
  simp [State.cphTestCmd]

@[simp] theorem State.reinstateMove_pending (s : State) (q : Nat) : (s.reinstateMove q).pending = s.pending := by
  simp [State.reinstateMove]

@[simp] theorem State.cphReinstateCmd_pending (s : State) (p : Nat) : (s.cphReinstateCmd p).pending = s.pending := by
  simp [State.cphReinstateCmd]

@[simp] theorem State.keyGo_pending (s : State) : s.keyGo.pending = s.pending := by simp [State.keyGo]

@[simp] theorem State.keyOutcome_pending (s : State) (fc : Nat) : (s.keyOutcome fc).pending = s.pending := by
  simp [State.keyOutcome]

@[simp] theorem State.keyFails_pending (s : State) : s.keyFails.pending = s.pending := by simp [State.keyFails]

@[simp] theorem State.keyLoad_pending (s : State) (slot : Nat) (r : List Byte) :
    (s.keyLoad slot r).pending = s.pending := by
  simp [State.keyLoad]

@[simp] theorem execCphLoadBlob_keepsQueue (hostBytes : List Byte) (x : SrcRead) (s : State) :
    Res.keepsQueue s (execCphLoadBlob hostBytes x s) := by
  unfold execCphLoadBlob
  dsimp only
  (repeat' split) <;> simp

@[simp] theorem State.setTwk_pending (s : State) (td : Nat) (k : List Byte) :
    (s.setTwk td k).pending = s.pending := by
  simp [State.setTwk]

@[simp] theorem execTwkInstall_keepsQueue (hostBytes : List Byte) (x : SrcRead) (s : State) :
    Res.keepsQueue s (execTwkInstall hostBytes x s) := by
  unfold execTwkInstall
  dsimp only
  (repeat' split) <;> simp

@[simp] theorem execCphKeyOpDone_keepsQueue (s : State) : Res.keepsQueue s (execCphKeyOpDone s) := by
  unfold execCphKeyOpDone
  split <;> simp

/-! #### Sys2Proof/Machine/CsrRead.lean -/

@[simp] theorem State.grpBlockRead_pending (s : State) (b i : Nat) : (s.grpBlockRead b i).pending = s.pending := by
  simp [State.grpBlockRead]

@[simp] theorem State.csrAfterRead_pending (s : State) (o : Nat) : (s.csrAfterRead o).pending = s.pending := by
  unfold State.csrAfterRead
  (repeat' split) <;> simp

@[simp] theorem State.csrRead_pending (s : State) (o : Nat) : (s.csrRead o).2.pending = s.pending := by
  unfold State.csrRead
  dsimp only
  split <;> simp

/-! #### Sys2Proof/Machine/Site.lean -/

@[simp] theorem State.siteGo_pending (s : State) : s.siteGo.pending = s.pending := by simp [State.siteGo]

@[simp] theorem State.quiesceStart_pending (s : State) (receiving : List Nat) :
    (s.quiesceStart receiving).pending = s.pending := by
  simp [State.quiesceStart]

@[simp] theorem State.quiesceEnd_pending (s : State) (ports clusters : List Nat) :
    (s.quiesceEnd ports clusters).pending = s.pending := by
  simp [State.quiesceEnd]

@[simp] theorem State.siteIdle_pending (s : State) : s.siteIdle.pending = s.pending := by simp [State.siteIdle]

@[simp] theorem State.siteReject_pending (s : State) (e : PlanErr) (ecFail mlFail : Bool) :
    (s.siteReject e ecFail mlFail).pending = s.pending := by
  simp [State.siteReject]

@[simp] theorem State.siteCancel_pending (s : State) : s.siteCancel.pending = s.pending := by simp [State.siteCancel]

@[simp] theorem execSiteCopyEnd_keepsQueue (hostBytes : List Byte) (x : SrcRead) (s : State) :
    Res.keepsQueue s (execSiteCopyEnd hostBytes x s) := by
  unfold execSiteCopyEnd
  split
  · simp
  · split <;> (next hread => simp [(State.operatorRead_keeps hread).1])

@[simp] theorem execSiteVerifyEnd_keepsQueue (receiving : List Nat) (s : State) :
    Res.keepsQueue s (execSiteVerifyEnd receiving s) := by
  unfold execSiteVerifyEnd
  dsimp only
  (repeat' split) <;> simp

@[simp] theorem execSiteQuiesceTimeout_keepsQueue (s : State) : Res.keepsQueue s (execSiteQuiesceTimeout s) := by
  unfold execSiteQuiesceTimeout
  (repeat' split) <;> simp

@[simp] theorem State.dropRegs_pending (s : State) (a n : Nat) : (s.dropRegs a n).pending = s.pending := by
  simp [State.dropRegs]

@[simp] theorem State.zeroRanges_pending (s : State) (l : List (Nat × Nat)) :
    (s.zeroRanges l).pending = s.pending := by
  simp [State.zeroRanges]

@[simp] theorem State.applyEmt_pending (s : State) (new : Plan) : (s.applyEmt new).pending = s.pending := by
  simp [State.applyEmt]

@[simp] theorem State.applyTree_pending (s : State) (new : Plan) (p : Nat) :
    (s.applyTree new p).pending = s.pending := by
  simp [State.applyTree]

@[simp] theorem State.applyPort_pending (s : State) (p : Nat) : (s.applyPort p).pending = s.pending := by
  simp [State.applyPort]

@[simp] theorem State.applyAcm_pending (s : State) : s.applyAcm.pending = s.pending := by simp [State.applyAcm]

@[simp] theorem State.applyCph_pending (s : State) (new : Plan) : (s.applyCph new).pending = s.pending := by
  simp [State.applyCph]

@[simp] theorem State.applyPav_pending (s : State) (new : Plan) : (s.applyPav new).pending = s.pending := by
  simp [State.applyPav]

@[simp] theorem State.applyClusters_pending (s : State) : s.applyClusters.pending = s.pending := by
  simp [State.applyClusters]

@[simp] theorem State.powerBank_pending (s : State) (new : Plan) (b : Nat) :
    (s.powerBank new b).pending = s.pending := by
  simp [State.powerBank]

@[simp] theorem State.applyPlan_pending (s : State) : s.applyPlan.pending = s.pending := by simp [State.applyPlan]

@[simp] theorem execSiteApplyEnd_keepsQueue (s : State) : Res.keepsQueue s (execSiteApplyEnd s) := by
  unfold execSiteApplyEnd
  (repeat' split) <;> simp

/-! #### Sys2Proof/Machine/Tb.lean -/

@[simp] theorem State.refSelect_pending (s : State) (ref : Nat) (present : Bool) :
    (s.refSelect ref present).pending = s.pending := by
  simp [State.refSelect]

@[simp] theorem State.showSlew_pending (s : State) (n : Nat) : (s.showSlew n).pending = s.pending := by
  simp [State.showSlew]

@[simp] theorem State.tbGo_pending (s : State) : s.tbGo.pending = s.pending := by simp [State.tbGo]

@[simp] theorem State.refillAnchor_pending (s : State) : s.refillAnchor.pending = s.pending := by
  simp [State.refillAnchor]

@[simp] theorem State.tbJump_pending (s0 : State) (n v : Nat) : (s0.tbJump n v).pending = s0.pending := by
  simp [State.tbJump]

@[simp] theorem State.tbRateNow_pending (s : State) : s.tbRateNow.pending = s.pending := by simp [State.tbRateNow]

@[simp] theorem State.tbApplied_pending (s : State) : s.tbApplied.pending = s.pending := by simp [State.tbApplied]

@[simp] theorem State.tbDoSet_pending (s : State) : s.tbDoSet.pending = s.pending := by simp [State.tbDoSet]

@[simp] theorem State.tbDoStep_pending (s : State) : s.tbDoStep.pending = s.pending := by simp [State.tbDoStep]

@[simp] theorem State.tbDoSlew_pending (s : State) : s.tbDoSlew.pending = s.pending := by simp [State.tbDoSlew]

@[simp] theorem State.tbAdjust_keepsQueue (s : State) (op : Nat) (effect : State → State)
    (heffect : ∀ t, (effect t).pending = t.pending) : Res.keepsQueue s (s.tbAdjust op effect) := by
  simp [State.tbAdjust, heffect]

@[simp] theorem execTbAdjustBoundary_keepsQueue (s : State) : Res.keepsQueue s (execTbAdjustBoundary s) := by
  unfold execTbAdjustBoundary
  (repeat' split) <;> simp

@[simp] theorem State.snapshot_pending (s : State) : s.snapshot.pending = s.pending := by simp [State.snapshot]

@[simp] theorem State.ppsWritten_pending (s : State) (old : Word) : (s.ppsWritten old).pending = s.pending := by
  simp [State.ppsWritten]

@[simp] theorem State.portCfgWrite_pending (s : State) (p : Nat) (v : Word) :
    (s.portCfgWrite p v).pending = s.pending := by
  simp [State.portCfgWrite]

/-! #### Sys2Proof/Machine/Wkt.lean -/

@[simp] theorem State.wktFault_pending (s : State) (cond purpose kind : Nat) :
    (s.wktFault cond purpose kind).pending = s.pending := by
  simp [State.wktFault]

@[simp] theorem State.noChallenge_pending (s : State) : s.noChallenge.pending = s.pending := by
  simp [State.noChallenge]

@[simp] theorem State.newChallenge_pending (s : State) : s.newChallenge.pending = s.pending := by
  simp [State.newChallenge]

@[simp] theorem State.submitToken_pending (s : State) (token : List Byte) :
    (s.submitToken token).pending = s.pending := by
  simp [State.submitToken]

@[simp] theorem State.tokenSubmit_pending (s : State) (host : Bool) (hostBytes : List Byte) (x : SrcRead) :
    (s.tokenSubmit host hostBytes x).pending = s.pending := by
  grind [State.tokenSubmit, State.operatorRead_pending, State.submitToken_pending]

@[simp] theorem State.revokeBank_pending (s : State) (kind bank : Nat) :
    (s.revokeBank kind bank).pending = s.pending := by
  simp [State.revokeBank]

@[simp] theorem execTokenCheckEnd_keepsQueue (s : State) : Res.keepsQueue s (execTokenCheckEnd s) := by
  unfold execTokenCheckEnd
  (repeat' split) <;> simp

@[simp] theorem State.raiseFloor_pending (s : State) (kind : Nat) : (s.raiseFloor kind).pending = s.pending := by
  simp [State.raiseFloor]

@[simp] theorem State.eraseTenants_pending (s : State) : s.eraseTenants.pending = s.pending := by
  simp [State.eraseTenants]

/-! #### Sys2Proof/Machine/CsrWrite.lean -/

@[simp] theorem State.wakeUnit_pending (s : State) (u : Nat) : (s.wakeUnit u).pending = s.pending := by
  simp [State.wakeUnit]

@[simp] theorem State.csrGo_pending (s : State) (b i : Nat) : (s.csrGo b i).pending = s.pending := by
  simp [State.csrGo]

@[simp] theorem State.csrCancel_pending (s : State) (b i : Nat) : (s.csrCancel b i).pending = s.pending := by
  simp [State.csrCancel]

@[simp] theorem State.commitWrite_pending (s : State) (u o b i : Nat) (v : Word) :
    (s.commitWrite u o b i v).pending = s.pending := by
  simp [State.commitWrite]

@[simp] theorem State.csrPut_pending (s : State) (r : RegSpec) (u o : Nat) (v : Word) :
    (s.csrPut r u o v).pending = s.pending := by
  simp [State.csrPut]

@[simp] theorem State.dbgCommand_pending (s : State) (c op t : Nat) (ue : Bool) :
    (s.dbgCommand c op t ue).pending = s.pending := by
  simp [State.dbgCommand]

@[simp] theorem State.rehashClear_pending (s : State) (v : Word) : (s.rehashClear v).pending = s.pending := by
  simp [State.rehashClear]

@[simp] theorem State.csrNet_keepsQueue (s : State) (r : RegSpec) (o b i : Nat) (v : Word) (e : CsrEnv) :
    someKeepsQueue s (s.csrNet r o b i v e) := by
  simp [State.csrNet]

@[simp] theorem State.csrEngines_keepsQueue (s : State) (b i j : Nat) (v : Word) :
    someKeepsQueue s (s.csrEngines b i j v) := by
  simp [State.csrEngines]

@[simp] theorem State.csrLodge_keepsQueue (s : State) (r : RegSpec) (o b i : Nat) (v : Word) (e : CsrEnv) :
    someKeepsQueue s (s.csrLodge r o b i v e) := by
  simp [State.csrLodge]
  intros
  split <;> simp

@[simp] theorem State.csrEffect_pending (s : State) (r : RegSpec) (u o b i j : Nat) (v : Word) (e : CsrEnv) :
    (s.csrEffect r u o b i j v e).pending = s.pending :=
  someKeepsQueue_getD (someKeepsQueue_orElse (State.csrNet_keepsQueue s r o b i v e)
    (someKeepsQueue_orElse (State.csrEngines_keepsQueue s b i j v) (State.csrLodge_keepsQueue s r o b i v e)))
    (by simp)

@[simp] theorem State.csrStore_pending (s : State) (o : Nat) (v : Word) (e : CsrEnv) :
    (s.csrStore o v e).pending = s.pending := by
  unfold State.csrStore
  dsimp only
  split <;> simp

@[simp] theorem State.iommuQueues_pending (s : State) : s.iommuQueues.pending = s.pending := by
  simp [State.iommuQueues]

@[simp] theorem State.iommuStore_pending (s : State) (o n : Nat) (v : Word) :
    (s.iommuStore o n v).pending = s.pending := by
  unfold State.iommuStore
  dsimp only
  split <;> simp

@[simp] theorem State.postedUr_pending (s : State) (f : Nat) : (s.postedUr f).pending = s.pending := by
  simp [State.postedUr]

@[simp] theorem State.readUr_pending (s : State) (f tag : Nat) : (s.readUr f tag).pending = s.pending := by
  simp [State.readUr]

@[simp] theorem State.csrWrite_pending (s : State) (o n : Nat) (v : Word) (e : CsrEnv) :
    (s.csrWrite o n v e).pending = s.pending := by
  simp [State.csrWrite]

@[simp] theorem State.hostCsrWrite_pending (s : State) (o n : Nat) (v : Word) (e : CsrEnv) :
    (s.hostCsrWrite o n v e).pending = s.pending := by
  simp [State.hostCsrWrite]

@[simp] theorem State.csrLoad_pending (s : State) (o n : Nat) : (s.csrLoad o n).2.pending = s.pending := by
  unfold State.csrLoad
  split <;> simp

@[simp] theorem State.postedRefused_pending (s : State) (f : Nat) : (s.postedRefused f).pending = s.pending := by
  simp [State.postedRefused]

@[simp] theorem State.coreAccess_pending (s : State) (x : HartAccess) (o n : Nat) (write : Bool)
    (act : State → State) (hact : ∀ t, (act t).pending = t.pending) :
    (s.coreAccess x o n write act).pending = s.pending := by
  simp [State.coreAccess, hact]

@[simp] theorem execRegisterWrite_keepsQueue (who : Accessor) (offset size : Nat) (value : Word) (env : CsrEnv)
    (s : State) : Res.keepsQueue s (execRegisterWrite who offset size value env s) := by
  unfold execRegisterWrite
  split <;> simp

@[simp] theorem execCommitCancel_keepsQueue (offset : Nat) (s : State) :
    Res.keepsQueue s (execCommitCancel offset s) := by
  unfold execCommitCancel
  split <;> simp

/-! #### Sys2Proof/Machine/Inbound.lean -/

@[simp] theorem State.ideFail_pending (s : State) (f stream : Nat) : (s.ideFail f stream).pending = s.pending := by
  simp [State.ideFail]

@[simp] theorem State.ideGate_pending (s : State) (f : Nat) (stream : Option Nat) (good : Bool) :
    (s.ideGate f stream good).2.pending = s.pending := by
  unfold State.ideGate
  (repeat' split) <;> simp

@[simp] theorem State.tlpArrives_pending (s : State) (f : Nat) : (s.tlpArrives f).pending = s.pending := by
  simp [State.tlpArrives]

@[simp] theorem State.atwMiss_pending (s : State) (f : Nat) : (s.atwMiss f).pending = s.pending := by
  simp [State.atwMiss]

@[simp] theorem State.windowRead_pending (s : State) (o n tag : Nat) :
    (s.windowRead o n tag).pending = s.pending := by
  simp [State.windowRead]

@[simp] theorem State.windowWrite_pending (s : State) (o : Nat) (data : List Byte) :
    (s.windowWrite o data).pending = s.pending := by
  simp [State.windowWrite]

@[simp] theorem State.apertureRead_pending (s : State) (f o n tag : Nat) (ecc : EccResult) :
    (s.apertureRead f o n tag ecc).pending = s.pending := by
  unfold State.apertureRead
  split <;> simp

@[simp] theorem State.pavilionAccess_pending (s : State) (f : Nat) (write : Bool) (o : Nat) (v : Word) (tag : Nat) :
    (s.pavilionAccess f write o v tag).pending = s.pending := by
  simp [State.pavilionAccess]

@[simp] theorem State.barRead_pending (s : State) (t : BarTarget) (f o n tag : Nat) (ecc : EccResult) :
    (s.barRead t f o n tag ecc).pending = s.pending := by
  unfold State.barRead
  dsimp only
  (repeat' split) <;> simp <;> grind [State.nveRegRead_pending]

@[simp] theorem execMemoryReadRequest_keepsQueue (fn bar offset len tag : Nat) (stream : Option Nat) (good : Bool)
    (ecc : EccResult) (s : State) :
    Res.keepsQueue s (execMemoryReadRequest fn bar offset len tag stream good ecc s) := by
  simp [execMemoryReadRequest]

@[simp] theorem State.apertureWrite_pending (s : State) (f o : Nat) (data : List Byte) (poison : Bool) :
    (s.apertureWrite f o data poison).pending = s.pending := by
  unfold State.apertureWrite
  split <;> simp

@[simp] theorem State.barWrite_pending (s : State) (t : BarTarget) (f o : Nat) (data : List Byte) (poison : Bool)
    (env : CsrEnv) (h : TeHost) : (s.barWrite t f o data poison env h).pending = s.pending := by
  unfold State.barWrite
  extract_lets n v
  split
  case h_4 => split <;> (next hw => simp [pending_of_snd_eq hw (State.nveRegWrite_pending ..)])
  all_goals simp

@[simp] theorem execPostedWriteRequest_keepsQueue (fn bar offset : Nat) (data : List Byte) (poison : Bool)
    (stream : Option Nat) (good : Bool) (env : CsrEnv) (h : TeHost) (s : State) :
    Res.keepsQueue s (execPostedWriteRequest fn bar offset data poison stream good env h s) := by
  simp [execPostedWriteRequest]

@[simp] theorem execAtomicopIoRequest_keepsQueue (x : TlpRoute) (tag : Nat) (s : State) :
    Res.keepsQueue s (execAtomicopIoRequest x tag s) := by
  simp [execAtomicopIoRequest]

@[simp] theorem State.vfEnableOff_pending (s : State) (pf : Nat) : (s.vfEnableOff pf).pending = s.pending := by
  simp [State.vfEnableOff]

@[simp] theorem State.busMasterOff_pending (s : State) (f : Nat) : (s.busMasterOff f).pending = s.pending := by
  simp [State.busMasterOff]

@[simp] theorem State.cfgTdiEvents_pending (s : State) (f o old new be v : Nat) :
    (s.cfgTdiEvents f o old new be v).pending = s.pending := by
  simp [State.cfgTdiEvents]

@[simp] theorem State.marginAnswer_pending (s : State) (f o new : Nat) :
    (s.marginAnswer f o new).pending = s.pending := by
  simp [State.marginAnswer]

@[simp] theorem State.ltrChange_pending (s : State) (f : Nat) (on : Bool) :
    (s.ltrChange f on).pending = s.pending := by
  simp [State.ltrChange]

@[simp] theorem State.cfgFollow_pending (s : State) (f o old new : Nat) (flr : Bool) :
    (s.cfgFollow f o old new flr).pending = s.pending := by
  simp [State.cfgFollow]

@[simp] theorem State.cfgWriteFn_pending (s : State) (f o be v : Nat) :
    (s.cfgWriteFn f o be v).pending = s.pending := by
  simp [State.cfgWriteFn]

@[simp] theorem State.bwCfgWrite_pending (s : State) (f o be v : Nat) :
    (s.bwCfgWrite f o be v).pending = s.pending := by
  simp [State.bwCfgWrite]

@[simp] theorem execConfigRequest_keepsQueue (x : TlpRoute) (offset : Nat) (write : Bool) (be value : Nat)
    (s : State) : Res.keepsQueue s (execConfigRequest x offset write be value s) := by
  simp [execConfigRequest]

@[simp] theorem execFunctionLevelReset_keepsQueue (fn : Nat) (s : State) :
    Res.keepsQueue s (execFunctionLevelReset fn s) := by
  simp [execFunctionLevelReset]

@[simp] theorem execBusMasterDisable_keepsQueue (fn : Nat) (s : State) :
    Res.keepsQueue s (execBusMasterDisable fn s) := by
  simp [execBusMasterDisable]

@[simp] theorem execVfEnableClear_keepsQueue (pf : Nat) (s : State) : Res.keepsQueue s (execVfEnableClear pf s) := by
  simp [execVfEnableClear]

/-! #### Sys2Proof/Machine/Link.lean -/

@[simp] theorem State.dropReq_pending (s : State) (port tag : Nat) : (s.dropReq port tag).pending = s.pending := by
  simp [State.dropReq]

@[simp] theorem State.reqFailed_pending (s : State) (r : HostReq) : (s.reqFailed r).pending = s.pending := by
  simp [State.reqFailed]

@[simp] theorem State.unexpectedCompletion_pending (s : State) (port link tag fn : Nat) :
    (s.unexpectedCompletion port link tag fn).pending = s.pending := by
  simp [State.unexpectedCompletion]

@[simp] theorem State.deliverReq_pending (s : State) (r : HostReq) : (s.deliverReq r).pending = s.pending := by
  simp [State.deliverReq]

@[simp] theorem State.deliverInOrder_pending (s : State) (f : Nat) : (s.deliverInOrder f).pending = s.pending := by
  simp [State.deliverInOrder]

@[simp] theorem State.endReq_pending (s : State) (r : HostReq) : (s.endReq r).pending = s.pending := by
  simp [State.endReq]

@[simp] theorem State.completionFor_pending (s : State) (r : HostReq) (ok poison : Bool) (data : List Byte) :
    (s.completionFor r ok poison data).pending = s.pending := by
  simp [State.completionFor]

@[simp] theorem execInboundCompletion_keepsQueue (port link tag : Nat) (x : TlpRoute) (ok poison : Bool)
    (data : List Byte) (s : State) : Res.keepsQueue s (execInboundCompletion port link tag x ok poison data s) := by
  unfold execInboundCompletion
  dsimp only
  (repeat' split) <;> simp

@[simp] theorem execCompletionTimeout_keepsQueue (port tag : Nat) (s : State) :
    Res.keepsQueue s (execCompletionTimeout port tag s) := by
  unfold execCompletionTimeout
  split <;> simp

@[simp] theorem State.setWidth_pending (s : State) (port link w : Nat) :
    (s.setWidth port link w).pending = s.pending := by
  simp [State.setWidth]

@[simp] theorem execAtsInvalidationRequest_keepsQueue (x : TlpRoute) (r : AtsRange) (s : State) :
    Res.keepsQueue s (execAtsInvalidationRequest x r s) := by
  simp [execAtsInvalidationRequest]

@[simp] theorem execPcieMessage_keepsQueue (x : TlpRoute) (code data : Nat) (s : State) :
    Res.keepsQueue s (execPcieMessage x code data s) := by
  simp [execPcieMessage]

/-! #### Sys2Proof/Machine/Spdm.lean -/

@[simp] theorem State.doe_pending (s : State) (pf : Nat) (object : List Byte) :
    (s.doe pf object).pending = s.pending := by
  simp [State.doe]

@[simp] theorem execDoeDiscovery_keepsQueue (pf index : Nat) (s : State) :
    Res.keepsQueue s (execDoeDiscovery pf index s) := by
  simp [execDoeDiscovery]

@[simp] theorem State.setSpdmConn_pending (s : State) (pf : Nat) (c : SpdmConn) :
    (s.setSpdmConn pf c).pending = s.pending := by
  simp [State.setSpdmConn]

@[simp] theorem State.dropSession_pending (s : State) (pf id : Nat) : (s.dropSession pf id).pending = s.pending := by
  simp [State.dropSession]

@[simp] theorem State.setSession_pending (s : State) (x : SpdmSession) : (s.setSession x).pending = s.pending := by
  simp [State.setSession]

@[simp] theorem State.spdmError_pending (s : State) (pf code data : Nat) :
    (s.spdmError pf code data).pending = s.pending := by
  simp [State.spdmError]

@[simp] theorem State.dropLog_pending (s : State) (pf : Nat) (session : Option Nat) :
    (s.dropLog pf session).pending = s.pending := by
  unfold State.dropLog
  (repeat' split) <;> simp

@[simp] theorem State.spdmRun_keepsQueue (s : State) (pf version stage : Nat) (outside opened handshake : Bool)
    (r : SpdmReq) (act : State → State) (hact : ∀ t, (act t).pending = t.pending) :
    Res.keepsQueue s (s.spdmRun pf version stage outside opened handshake r act) := by
  unfold State.spdmRun
  (repeat' split) <;> simp [hact]

@[simp] theorem State.spdmVersion_pending (s : State) (pf : Nat) (r : SpdmReq) :
    (s.spdmVersion pf r).pending = s.pending := by
  simp [State.spdmVersion]

@[simp] theorem execSpdmGetVersion_keepsQueue (pf : Nat) (r : SpdmReq) (s : State) :
    Res.keepsQueue s (execSpdmGetVersion pf r s) := by
  simp [execSpdmGetVersion]

@[simp] theorem State.spdmCaps_pending (s : State) (pf : Nat) (r : SpdmReq) :
    (s.spdmCaps pf r).pending = s.pending := by
  simp [State.spdmCaps]

@[simp] theorem execSpdmGetCapabilities_keepsQueue (pf : Nat) (r : SpdmReq) (s : State) :
    Res.keepsQueue s (execSpdmGetCapabilities pf r s) := by
  simp [execSpdmGetCapabilities]

@[simp] theorem State.spdmAlgs_pending (s : State) (pf : Nat) (r : SpdmReq) :
    (s.spdmAlgs pf r).pending = s.pending := by
  simp [State.spdmAlgs]

@[simp] theorem execSpdmNegotiateAlgorithms_keepsQueue (pf : Nat) (r : SpdmReq) (s : State) :
    Res.keepsQueue s (execSpdmNegotiateAlgorithms pf r s) := by
  simp [execSpdmNegotiateAlgorithms]

@[simp] theorem State.certLog_pending (s : State) (pf : Nat) (session : Option Nat) (l : List Byte) :
    (s.certLog pf session l).pending = s.pending := by
  simp [State.certLog]

@[simp] theorem State.spdmDigests_pending (s : State) (pf : Nat) (r : SpdmReq) :
    (s.spdmDigests pf r).pending = s.pending := by
  simp [State.spdmDigests]

@[simp] theorem execSpdmGetDigests_keepsQueue (pf : Nat) (r : SpdmReq) (s : State) :
    Res.keepsQueue s (execSpdmGetDigests pf r s) := by
  simp [execSpdmGetDigests]

@[simp] theorem State.spdmCertificate_pending (s : State) (pf : Nat) (r : SpdmReq) :
    (s.spdmCertificate pf r).pending = s.pending := by
  simp [State.spdmCertificate]

@[simp] theorem execSpdmGetCertificate_keepsQueue (pf : Nat) (r : SpdmReq) (s : State) :
    Res.keepsQueue s (execSpdmGetCertificate pf r s) := by
  simp [execSpdmGetCertificate]

@[simp] theorem State.spdmChallenge_pending (s : State) (pf : Nat) (r : SpdmReq) :
    (s.spdmChallenge pf r).pending = s.pending := by
  simp [State.spdmChallenge]

@[simp] theorem execSpdmChallenge_keepsQueue (pf : Nat) (r : SpdmReq) (s : State) :
    Res.keepsQueue s (execSpdmChallenge pf r s) := by
  simp [execSpdmChallenge]

@[simp] theorem State.setLog_pending (s : State) (pf : Nat) (session : Option Nat) (log signed : List Byte) :
    (s.setLog pf session log signed).pending = s.pending := by
  unfold State.setLog
  (repeat' split) <;> simp

@[simp] theorem State.spdmMeasure_pending (s : State) (pf : Nat) (r : SpdmReq) :
    (s.spdmMeasure pf r).pending = s.pending := by
  simp [State.spdmMeasure]

@[simp] theorem execSpdmGetMeasurements_keepsQueue (pf : Nat) (r : SpdmReq) (s : State) :
    Res.keepsQueue s (execSpdmGetMeasurements pf r s) := by
  simp [execSpdmGetMeasurements]

@[simp] theorem State.spdmKeyExchange_pending (s : State) (pf : Nat) (r : SpdmReq) :
    (s.spdmKeyExchange pf r).pending = s.pending := by
  simp [State.spdmKeyExchange]

@[simp] theorem execSpdmKeyExchange_keepsQueue (pf : Nat) (r : SpdmReq) (s : State) :
    Res.keepsQueue s (execSpdmKeyExchange pf r s) := by
  simp [execSpdmKeyExchange]

@[simp] theorem State.spdmFinish_pending (s : State) (pf : Nat) (r : SpdmReq) :
    (s.spdmFinish pf r).pending = s.pending := by
  unfold State.spdmFinish
  split <;> simp

@[simp] theorem execSpdmFinish_keepsQueue (pf : Nat) (r : SpdmReq) (s : State) :
    Res.keepsQueue s (execSpdmFinish pf r s) := by
  simp [execSpdmFinish]

@[simp] theorem execSpdmHeartbeat_keepsQueue (pf : Nat) (r : SpdmReq) (s : State) :
    Res.keepsQueue s (execSpdmHeartbeat pf r s) := by
  simp [execSpdmHeartbeat]

@[simp] theorem State.spdmKeyUpdate_pending (s : State) (pf : Nat) (r : SpdmReq) :
    (s.spdmKeyUpdate pf r).pending = s.pending := by
  unfold State.spdmKeyUpdate
  split <;> simp

@[simp] theorem execSpdmKeyUpdate_keepsQueue (pf : Nat) (r : SpdmReq) (s : State) :
    Res.keepsQueue s (execSpdmKeyUpdate pf r s) := by
  simp [execSpdmKeyUpdate]

@[simp] theorem execSpdmEndSession_keepsQueue (pf : Nat) (r : SpdmReq) (s : State) :
    Res.keepsQueue s (execSpdmEndSession pf r s) := by
  simp [execSpdmEndSession]

@[simp] theorem State.spdmVendor_pending (s : State) (pf : Nat) (r : SpdmReq) :
    (s.spdmVendor pf r).pending = s.pending := by
  simp [State.spdmVendor]

@[simp] theorem execSpdmVendorMldsaSignature_keepsQueue (pf : Nat) (r : SpdmReq) (s : State) :
    Res.keepsQueue s (execSpdmVendorMldsaSignature pf r s) := by
  simp [execSpdmVendorMldsaSignature]

@[simp] theorem State.setIde_pending (s : State) (pf stream v : Nat) :
    (s.setIde pf stream v).pending = s.pending := by
  simp [State.setIde]

@[simp] theorem State.ideKeyProg_pending (s : State) (pf : Nat) (m : List Byte) :
    (s.ideKeyProg pf m).pending = s.pending := by
  simp [State.ideKeyProg]

@[simp] theorem State.ideGoStop_pending (s : State) (pf : Nat) (m : List Byte) :
    (s.ideGoStop pf m).pending = s.pending := by
  simp [State.ideGoStop]

@[simp] theorem State.ideQuery_pending (s : State) (pf : Nat) (m : List Byte) :
    (s.ideQuery pf m).pending = s.pending := by
  simp [State.ideQuery]

@[simp] theorem execIdeKmRequest_keepsQueue (pf session : Nat) (message : List Byte) (s : State) :
    Res.keepsQueue s (execIdeKmRequest pf session message s) := by
  simp [execIdeKmRequest]

@[simp] theorem State.tdispError_pending (s : State) (pf fn code : Nat) :
    (s.tdispError pf fn code).pending = s.pending := by
  simp [State.tdispError]

@[simp] theorem State.tdispRun_keepsQueue (s : State) (pf session fn version : Nat) (act : State → State)
    (hact : ∀ t, (act t).pending = t.pending) : Res.keepsQueue s (s.tdispRun pf session fn version act) := by
  simp [State.tdispRun, hact]

@[simp] theorem execTdispGetVersion_keepsQueue (pf session fn version : Nat) (s : State) :
    Res.keepsQueue s (execTdispGetVersion pf session fn version s) := by
  simp [execTdispGetVersion]

@[simp] theorem execTdispGetCapabilities_keepsQueue (pf session fn version : Nat) (s : State) :
    Res.keepsQueue s (execTdispGetCapabilities pf session fn version s) := by
  simp [execTdispGetCapabilities]

@[simp] theorem State.tdispLock_pending (s : State) (pf fn : Nat) (payload : List Byte) :
    (s.tdispLock pf fn payload).pending = s.pending := by
  simp [State.tdispLock]

@[simp] theorem execTdispLockInterface_keepsQueue (pf session fn version : Nat) (payload : List Byte) (s : State) :
    Res.keepsQueue s (execTdispLockInterface pf session fn version payload s) := by
  simp [execTdispLockInterface]

@[simp] theorem State.tdispReport_pending (s : State) (pf fn : Nat) (payload : List Byte) :
    (s.tdispReport pf fn payload).pending = s.pending := by
  simp [State.tdispReport]

@[simp] theorem execTdispGetDeviceInterfaceReport_keepsQueue (pf session fn version : Nat) (payload : List Byte)
    (s : State) : Res.keepsQueue s (execTdispGetDeviceInterfaceReport pf session fn version payload s) := by
  simp [execTdispGetDeviceInterfaceReport]

@[simp] theorem execTdispGetDeviceInterfaceState_keepsQueue (pf session fn version : Nat) (s : State) :
    Res.keepsQueue s (execTdispGetDeviceInterfaceState pf session fn version s) := by
  simp [execTdispGetDeviceInterfaceState]

@[simp] theorem State.tdispStart_pending (s : State) (pf fn : Nat) (nonce : List Byte) :
    (s.tdispStart pf fn nonce).pending = s.pending := by
  simp [State.tdispStart]

@[simp] theorem execTdispStartInterface_keepsQueue (pf session fn version : Nat) (nonce : List Byte) (s : State) :
    Res.keepsQueue s (execTdispStartInterface pf session fn version nonce s) := by
  simp [execTdispStartInterface]

@[simp] theorem State.tdispStop_pending (s : State) (pf fn : Nat) : (s.tdispStop pf fn).pending = s.pending := by
  simp [State.tdispStop]

@[simp] theorem execTdispStopInterface_keepsQueue (pf session fn version : Nat) (s : State) :
    Res.keepsQueue s (execTdispStopInterface pf session fn version s) := by
  simp [execTdispStopInterface]

/-! #### Sys2Proof/Machine/Resume.lean -/

@[simp] theorem State.spdmRequest_keepsQueue (s : State) (pf code : Nat) (r : SpdmReq) :
    Res.keepsQueue s (s.spdmRequest pf code r) := by
  simp [State.spdmRequest]

@[simp] theorem State.tdispRequest_keepsQueue (s : State) (pf code session fn version : Nat) (payload : List Byte) :
    Res.keepsQueue s (s.tdispRequest pf code session fn version payload) := by
  simp [State.tdispRequest]

@[simp] theorem State.tlp_keepsQueue (s : State) (i : Tlp) : Res.keepsQueue s (s.tlp i) := by
  cases i <;> simp [State.tlp]

@[simp] theorem State.replay_pending (s : State) (i : Tlp) : (s.replay i).pending = s.pending := by
  unfold State.replay
  split
  · next h => exact State.tlp_keepsQueue s i _ h
  · rfl

@[simp] theorem State.hifResume_pending (s : State) : s.hifResume.pending = s.pending := by simp [State.hifResume]

/-! #### Sys2Proof/Machine/Aia.lean -/

@[simp] theorem State.aplicTarget_pending (s : State) (d v : Nat) : (s.aplicTarget d v).pending = s.pending := by
  simp [State.aplicTarget]

@[simp] theorem State.aplicConfigure_pending (s : State) (d i v : Nat) :
    (s.aplicConfigure d i v).pending = s.pending := by
  simp [State.aplicConfigure]

@[simp] theorem State.aplicWrite_pending (s : State) (d o v : Nat) : (s.aplicWrite d o v).pending = s.pending := by
  simp [State.aplicWrite]

/-! #### Sys2Proof/Machine/HartCsr.lean -/

@[simp] theorem State.ctrlRead_pending (s : State) (p : HartPlace) (a n : Nat) :
    (s.ctrlRead p a n).2.pending = s.pending := by
  fun_cases State.ctrlRead s p a n
  case case1 hload => exact pending_of_snd_eq hload (State.csrLoad_pending ..)
  case case3 hfree => exact pending_of_snd_eq hfree (State.takeFree_pending ..)
  all_goals rfl

@[simp] theorem State.ctrlWrite_pending (s : State) (p : HartPlace) (a n v : Nat) :
    (s.ctrlWrite p a n v).2.pending = s.pending := by
  unfold State.ctrlWrite
  (repeat' split) <;> simp

@[simp] theorem State.hartRead_pending (s : State) (h a n : Nat) (x : HartMem) :
    (s.hartRead h a n x).2.pending = s.pending := by
  unfold State.hartRead
  (repeat' split) <;> simp

@[simp] theorem State.hartWrite_pending (s : State) (h a : Nat) (d : List Byte) (x : HartMem) :
    (s.hartWrite h a d x).2.pending = s.pending := by
  unfold State.hartWrite
  (repeat' split) <;> simp

@[simp] theorem State.hartCbo_pending (s : State) (h op a : Nat) (x : HartMem) :
    (s.hartCbo h op a x).2.pending = s.pending := by
  unfold State.hartCbo
  dsimp only
  (repeat' split) <;> simp

@[simp] theorem State.hartCsrWrite_pending (s : State) (h n : Nat) (v : Word) :
    (s.hartCsrWrite h n v).pending = s.pending := by
  simp [State.hartCsrWrite]

@[simp] theorem State.hartX_pending (s : State) (h i : Nat) : (s.hartX h i).2.pending = s.pending := by
  unfold State.hartX
  dsimp only
  (repeat' split) <;> simp

@[simp] theorem State.setHartX_pending (s : State) (h i : Nat) (v : Word) :
    (s.setHartX h i v).pending = s.pending := by
  simp [State.setHartX]

theorem State.hartRegRead_pending (s : State) (h n : Nat) :
    ∀ t, s.hartRegRead h n = some t → t.2.pending = s.pending := by
  unfold State.hartRegRead
  grind [State.hartX_pending]

theorem State.hartRegWrite_pending (s : State) (h n : Nat) (v : Word) :
    ∀ t, s.hartRegWrite h n v = some t → t.pending = s.pending := by
  unfold State.hartRegWrite
  grind [State.hartCsrWrite_pending, State.setHartX_pending]

@[simp] theorem State.hartInstr_pending (s : State) (h w : Nat) (x : HartMem) :
    (s.hartInstr h w x).2.pending = s.pending := by
  grind [State.hartInstr, State.hartX_pending, State.hartCbo_pending, State.setHartX_pending, State.hartRead_pending,
    State.hartWrite_pending]

/-! #### Sys2Proof/Machine/Tap.lean -/

@[simp] theorem State.setIr_pending (s : State) (v : Nat) : (s.setIr v).pending = s.pending := by simp [State.setIr]

@[simp] theorem State.setBoundary_pending (s : State) (l : List Byte) : (s.setBoundary l).pending = s.pending := by
  simp [State.setBoundary]

@[simp] theorem State.driveBoundary_pending (s : State) : s.driveBoundary.pending = s.pending := by
  simp [State.driveBoundary]

@[simp] theorem State.selectBypass_pending (s : State) (ir : Nat) : (s.selectBypass ir).pending = s.pending := by
  simp [State.selectBypass]

@[simp] theorem State.setDm_pending (s : State) (a v : Nat) : (s.setDm a v).pending = s.pending := by
  simp [State.setDm]

@[simp] theorem State.busRead_pending (s : State) (a n : Nat) (x : HartMem) :
    (s.busRead a n x).2.pending = s.pending := by
  unfold State.busRead
  (repeat' split) <;> simp

@[simp] theorem State.busWrite_pending (s : State) (a n v : Nat) : (s.busWrite a n v).2.pending = s.pending := by
  unfold State.busWrite
  (repeat' split) <;> simp

@[simp] theorem State.sbError_pending (s : State) (e : Nat) : (s.sbError e).pending = s.pending := by
  simp [State.sbError]

@[simp] theorem State.sbAdvance_pending (s : State) (n : Nat) : (s.sbAdvance n).pending = s.pending := by
  simp [State.sbAdvance]

@[simp] theorem State.sbAccess_pending (s : State) (write : Bool) (x : HartMem) :
    (s.sbAccess write x).pending = s.pending := by
  grind [State.sbAccess, State.sbError_pending, State.busWrite_pending, State.sbAdvance_pending,
    State.busRead_pending, State.setDm_pending]

@[simp] theorem State.dmCmdErr_pending (s : State) (e : Nat) : (s.dmCmdErr e).pending = s.pending := by
  simp [State.dmCmdErr]

@[simp] theorem State.setDmData_pending (s : State) (k v : Nat) : (s.setDmData k v).pending = s.pending := by
  simp [State.setDmData]

@[simp] theorem State.dmProgram_pending (s : State) (h : Nat) (x : HartMem) (l : List Nat) :
    (s.dmProgram h x l).pending = s.pending := by
  induction l generalizing s with
  | nil => rfl
  | cons r l ih =>
    unfold State.dmProgram
    have hinstr := State.hartInstr_pending s h r x
    split <;> (next hi => simp [ih, pending_of_snd_eq hi hinstr])

@[simp] theorem State.dmPostexec_pending (s : State) (h v : Nat) (x : HartMem) :
    (s.dmPostexec h v x).pending = s.pending := by
  simp [State.dmPostexec]

@[simp] theorem State.dmRegister_pending (s : State) (h v : Nat) (x : HartMem) :
    (s.dmRegister h v x).pending = s.pending := by
  unfold State.dmRegister
  extract_lets
  refine pending_ite (by simp) (pending_ite (by simp) (pending_ite ?write ?read))
  case write =>
    split
    · next hw => simp [State.hartRegWrite_pending _ _ _ _ _ hw]
    · simp
  case read =>
    split
    · next w s1 hr =>
      have h1 : s1.pending = s.pending := State.hartRegRead_pending _ _ _ _ hr
      split <;> simp [h1]
    · simp

@[simp] theorem State.dmMemory_pending (s : State) (h v : Nat) (x : HartMem) :
    (s.dmMemory h v x).pending = s.pending := by
  grind [State.dmMemory, State.setDmData_pending, State.dmCmdErr_pending, State.hartWrite_pending,
    State.hartRead_pending, State.setDm_pending]

@[simp] theorem State.dmCommandRun_pending (s : State) (v : Nat) (x : HartMem) :
    (s.dmCommandRun v x).pending = s.pending := by
  simp [State.dmCommandRun]

@[simp] theorem State.dmControlWrite_pending (s : State) (v : Nat) : (s.dmControlWrite v).pending = s.pending := by
  simp [State.dmControlWrite]

@[simp] theorem State.dmWrite_pending (s : State) (a v : Nat) (x : HartMem) :
    (s.dmWrite a v x).pending = s.pending := by
  simp [State.dmWrite]

@[simp] theorem State.dmRead_pending (s : State) (a : Nat) (x : HartMem) : (s.dmRead a x).2.pending = s.pending := by
  unfold State.dmRead
  (repeat' split) <;> simp

@[simp] theorem execTapDmi_keepsQueue (op addr : Nat) (x : DmiData) (s : State) :
    Res.keepsQueue s (execTapDmi op addr x s) := by
  unfold execTapDmi
  dsimp only
  (repeat' split) <;> simp

/-! #### Sys2Proof/Machine/UcRun.lean -/

@[simp] theorem State.setUcUpset_pending (s : State) (e a v : Nat) : (s.setUcUpset e a v).pending = s.pending := by
  simp [State.setUcUpset]

@[simp] theorem State.ucConnReset_pending (s : State) (c : Nat) : (s.ucConnReset c).pending = s.pending := by
  simp [State.ucConnReset]

@[simp] theorem State.ucEventEnd_pending (s : State) (e : Nat) (x : UcCtx) (u : UcEnd) :
    (s.ucEventEnd e x u).pending = s.pending := by
  unfold State.ucEventEnd
  (repeat' split) <;> simp

@[simp] theorem execPatchRepair_keepsQueue (engine index : Nat) (s : State) :
    Res.keepsQueue s (execPatchRepair engine index s) := by
  unfold execPatchRepair
  (repeat' split) <;> simp

/-! #### The commands -/

/-- Every command leaves the queue as it was. -/
theorem exec_keepsQueue (i : Instr) (s : State) : Res.keepsQueue s (exec i s) := by
  cases i with
  -- commands that leave memory as it was (Laws/Keep)
  | frameReceive | pfcRepeat | ethPfcEnClear | pfcFrameReceived | pfcPauseExpiry | linkLoss | linkTrainingComplete
  | laneCalibrationComplete | packetInject | flitInject | flitHop | headerDelivery | stallTimeout | ejectionWatchdog
  | prmStallLimitWrite | pavLoad | pavScrubEnd | userResetEnd | pavUnload | quiesceAck | graceExpiry
  | pavHbmWritesDone | pavRelease | pavCancel | pavcRelease | userReset | pavcClkWrite | clkcapWrite | configScan
  | pavHbmRequest | regWindowAccess | regReadReturn | pavRegTimeoutExpiry | rxCreditReturn | sleepReqRise
  | sleepReqFall | arbourDispatch | commitSequencerPass | arbInitLimitExpiry | arbRunLimitExpiry | deadlock
  | haltHold | parkTimeout | arbBreakpointHalt | arbHalt | arbResume | arbStep | arbAbandon | arbHaltAll
  | arbResumeAll | arbNop | arbAdd | arbSub | arbAnd | arbOr | arbXor | arbAndn | arbShl | arbShr | arbSar | arbMinu
  | arbMaxu | arbMul | arbSltu | arbAddi | arbAndi | arbOri | arbXori | arbShli | arbShri | arbSari | arbSltui
  | arbMovi | arbMovhi | arbBfx | arbBfi | arbExt | arbIns | arbKcpy | arbCrcwin | arbKput | arbKclr | arbKprof
  | arbCrc | arbTpz | arbLd | arbSt | arbBr | arbBri | arbJal | arbJr | arbRds | arbEmitf | arbCommit | arbEnd
  | arbLock | arbUnlock | arbSignal | arbWait | arbOrder | arbPark | arbTset | arbRelease | classifyHandover
  | acmSearchAdmit | classifyInject | mirrorCopy | acmVerCommitGo | acmVerApply | versionRetire | sweepEnd
  | acmEntWrite | acmEntWriteCtrl | acmEntRead | acmEntInvalidate | acmEntCmdDone | acmShift | acmShiftDone
  | acmParityScan | acmActWrite | acmActRead | acmPolWrite | acmPolRead | indirectionTableWrite | emtInsert
  | emtUpsert | emtDelete | emtFind | emtReadAt | emtDeleteAt | emtDmaRead | readLock | emtDmaWrite | writeUnlock
  | emtDmaUnlock | emtRedirCommitGo | schEnqueue | frameSelect | frameTransmitEnd | shaperRefill | schNodeCommitGo
  | schGclCommitGo | gclChange | gateEntryChange | gclCycleStart | queueEnable | queueStopped | moderationTimer
  | hostIntr | hifFnRssWrite | ringEnable | terraceSend | patrolScrub | zeroMapClear | laneLockAlignment =>
    exact Res.quiet_keepsQueue (s := s) (by dsimp only [exec]; simp)
  -- commands that leave the queue as it was (Laws/Keep)
  | pavHeaderCheckEnd | pavFrameEnd | pavHbmResponse | emtBucketReadReturn | emtCmdDone | displacementMove
  | learnApply | ageScan | ageRemoval | emtDmaDone | queueDisable | hifDbSq | hifDbRq | hifDbCq | sendFrameFetch
  | descSend | descSendInline | sendCarrier | descNop | hifReceive | txReportReceive | timestampTimeout | hostRead
  | hostWrite | hifQForce | terraceReceive | iofenceC =>
    exact Res.stays_keepsQueue (s := s) (by dsimp only [exec]; simp)
  -- commands with a lemma of their own above
  | registerWrite | commitCancel | siteCopyEnd | siteVerifyEnd | siteQuiesceTimeout | siteApplyEnd | cphAdmission
  | keySlotFetch | cphCompare | cphRetryCompare | cphResultRelease | cphLoadBlob | twkInstall | cphKeyOpDone
  | tePacketReceive | teDeregMr | teCancelReceive | invalidationComplete | teUcLoadEnd | patchRepair | nvmeAdmission
  | nveCipherCompletion | nveTcpSegmentReceive | nveTcpRto | functionLevelReset | busMasterDisable | vfEnableClear
  | configRequest | memoryReadRequest | postedWriteRequest | inboundCompletion | completionTimeout
  | atsInvalidationRequest | doeDiscovery | ideKmRequest | spdmGetVersion | spdmGetCapabilities
  | spdmNegotiateAlgorithms | spdmGetDigests | spdmGetCertificate | spdmChallenge | spdmGetMeasurements
  | spdmKeyExchange | spdmFinish | spdmHeartbeat | spdmKeyUpdate | spdmEndSession | spdmVendorMldsaSignature
  | tdispGetVersion | tdispGetCapabilities | tdispLockInterface | tdispGetDeviceInterfaceReport
  | tdispGetDeviceInterfaceState | tdispStartInterface | tdispStopInterface | pushVerifyEnd | tbAdjustBoundary
  | tileHazeEntry | tileWakeComplete | nightDrainEnd | qualifyStepEnd | railSettleTimeout | imageCopyEnd
  | signatureVerifyEnd | warmCheckEnd | verifySlotEnd | xspiCmdEnd | tokenCheckEnd | tapDmi | atomicopIoRequest
  | pcieMessage =>
    dsimp only [exec]
    simp
  -- commands that carry out the operations above, file by file
  -- Sys2Proof/Machine/TeSend.lean
  | ackTimeout | rnrTimer | ccTimer =>
    dsimp only [exec]
    simp [execAckTimeout, execRnrTimer, execCcTimer]
  -- Sys2Proof/Machine/TeRecv.lean
  | teTaggedReceive | reorderTimer =>
    dsimp only [exec]
    simp [execTeTaggedReceive, execReorderTimer]
  -- Sys2Proof/Machine/Nve.lean
  | nvmeDoorbell | ccEnSet | nveCcEnClear | nveCcShn | nvmeDeleteIoSq | nvmeDeleteIoCq | nvmeCreateIoSq
  | nvmeCreateIoCq | nvmeGetLogPage | nvmeIdentify | nvmeAbort | nvmeSetFeatures | nvmeGetFeatures
  | nvmeAsynchronousEventRequest | nvmeFlush | nvmeWrite | nvmeRead | nvmeWriteZeroes | nvmeDatasetManagement
  | nveCapsuleResp | nveC2hData | nvePduR2t | nveC2hTermReq | nveTargetTimeout | nveOffload | nveConnectionUp
  | nveClose | nveCloseFin | nveQuery | nveNsCommitGo | nveModeCommitGo | eventWordLimit =>
    dsimp only [exec]
    simp [execNvmeDoorbell, execCcEnSet, execNveCcEnClear, execNveCcShn, execNvmeDeleteIoSq, execNvmeDeleteIoCq,
      execNvmeCreateIoSq, execNvmeCreateIoCq, execNvmeGetLogPage, execNvmeIdentify, execNvmeAbort, execNvmeSetFeatures,
      execNvmeGetFeatures, execNvmeAsynchronousEventRequest, execNvmeFlush, execNvmeWrite, execNvmeRead,
      execNvmeWriteZeroes, execNvmeDatasetManagement, execNveCapsuleResp, execNveC2hData, execNvePduR2t,
      execNveC2hTermReq, execNveTargetTimeout, execNveOffload, execNveConnectionUp, execNveClose, execNveCloseFin,
      execNveQuery, execNveNsCommitGo, execNveModeCommitGo, execEventWordLimit]
  -- Sys2Proof/Machine/TeCtrl.lean
  | teCreateQp | teModifyQp | teQueryQp | teDestroyQp | teCreateSrq | teModifySrq | teDestroySrq | teCreateCq
  | teDestroyCq | teRegMr | teAllocMw | teSend | teSendImm | teSendInv | teWrite | teWriteImm | teRead | teAtomicCas
  | teAtomicFaa | teLocalInv | teBindMw | teWqeWait | teWqeNop | teFnCtrlPiWrite | teFnDoorbell | teQpForce
  | teCcCommitGo =>
    dsimp only [exec]
    simp [execTeCreateQp, execTeModifyQp, execTeQueryQp, execTeDestroyQp, execTeCreateSrq, execTeModifySrq,
      execTeDestroySrq, execTeCreateCq, execTeDestroyCq, execTeRegMr, execTeAllocMw, execTeSend, execTeSendImm,
      execTeSendInv, execTeWrite, execTeWriteImm, execTeRead, execTeAtomicCas, execTeAtomicFaa, execTeLocalInv,
      execTeBindMw, execTeWqeWait, execTeWqeNop, execTeFnCtrlPiWrite, execTeFnDoorbell, execTeQpForce, execTeCcCommitGo]
  -- Sys2Proof/Machine/TeUc.lean
  | teUcLoad | teUcSeal =>
    dsimp only [exec]
    simp [execTeUcLoad, execTeUcSeal]
  -- Sys2Proof/Machine/Power.lean
  | tileSleepDecision | hartWfi | hartStart | hartStop | nightEnter | nightLimitExpiry | nightEntryComplete
  | nightAlarm | supplyWarning | holdDwellEnd | holdLimitExpiry | undervoltage | temperatureSample | thermalTrip
  | thermalRestart | sundialSample | pwrOpCommitGo | operatingHour | sdlReplanDone | replanIntervalWrite
  | perstAssert | perstDeassert | sysRstAssert | sysRstDeassert | lodgePgFall | lodgePgRise =>
    dsimp only [exec]
    simp [execTileSleepDecision, execHartWfi, execHartStart, execHartStop, execNightEnter, execNightLimitExpiry,
      execNightEntryComplete, execNightAlarm, execSupplyWarning, execHoldDwellEnd, execHoldLimitExpiry,
      execUndervoltage, execTemperatureSample, execThermalTrip, execThermalRestart, execSundialSample,
      execPwrOpCommitGo, execOperatingHour, execSdlReplanDone, execReplanIntervalWrite, execPerstAssert,
      execPerstDeassert, execSysRstAssert, execSysRstDeassert, execLodgePgFall, execLodgePgRise]
  -- Sys2Proof/Machine/Boot.lean
  | romStart | ddrTrainingEnd | hbmInitEnd | restorePlan | failImage | bootStage2LimitExpiry | ready | bwGo
  | verifySlot | xspiRead | xspiProgram | xspiErase | rbgHealthPass =>
    dsimp only [exec]
    simp [execRomStart, execDdrTrainingEnd, execHbmInitEnd, execRestorePlan, execFailImage, execBootStage2LimitExpiry,
      execReady, execBwGo, execVerifySlot, execXspiRead, execXspiProgram, execXspiErase, execRbgHealthPass]
  -- Sys2Proof/Machine/Cph.lean
  | cphQuarantine | cphTest | cphReinstate | reinstateMove | cphTestEnd | cphLoadClear | cphInvalidate | cphSetSeq
  | cphSetPin | twkRemove =>
    dsimp only [exec]
    simp [execCphQuarantine, execCphTest, execCphReinstate, execReinstateMove, execCphTestEnd, execCphLoadClear,
      execCphInvalidate, execCphSetSeq, execCphSetPin, execTwkRemove]
  -- Sys2Proof/Machine/Site.lean
  | siteCommitGo | siteLoadCancel | siteQuiesceEnd | siteDrainLimitExpiry | siteResumeEnd =>
    dsimp only [exec]
    simp [execSiteCommitGo, execSiteLoadCancel, execSiteQuiesceEnd, execSiteDrainLimitExpiry, execSiteResumeEnd]
  -- Sys2Proof/Machine/Tb.lean
  | tbRefSelect | timeRefLost | pllLockLoss | timePllLock | tbRateOnly | tbSet | tbStep | tbSlew | slewEnd
  | tbSnapshot | ppsInEdge | ppsOutEdge | ppsOutWidthEnd | tbPortCfgWrite =>
    dsimp only [exec]
    simp [execTbRefSelect, execTimeRefLost, execPllLockLoss, execTimePllLock, execTbRateOnly, execTbSet, execTbStep,
      execTbSlew, execSlewEnd, execTbSnapshot, execPpsInEdge, execPpsOutEdge, execPpsOutWidthEnd, execTbPortCfgWrite]
  -- Sys2Proof/Machine/Wkt.lean
  | wktChalGen | challengeExpiry | wktTokenSubmit | raise | wicketErasure | wicketOpenComplete =>
    dsimp only [exec]
    simp [execWktChalGen, execChallengeExpiry, execWktTokenSubmit, execRaise, execWicketErasure,
      execWicketOpenComplete]
  -- Sys2Proof/Machine/CsrWrite.lean
  | rcRegisterRead =>
    dsimp only [exec]
    simp [execRcRegisterRead]
  -- Sys2Proof/Machine/Flt.lean
  | completionLost | criticalStateRestore =>
    dsimp only [exec]
    simp [execCompletionLost, execCriticalStateRestore]
  -- Sys2Proof/Machine/Inbound.lean
  | hifAtwCommitGo | atwApply =>
    dsimp only [exec]
    simp [execHifAtwCommitGo, execAtwApply]
  -- Sys2Proof/Machine/Link.lean
  | tagQuarantineEnd | pcieLinkDown | pcieLinkUp | l1IdleEntry | l0pWindow | l0pHostRequest =>
    dsimp only [exec]
    simp [execTagQuarantineEnd, execPcieLinkDown, execPcieLinkUp, execL1IdleEntry, execL0pWindow, execL0pHostRequest]
  -- Sys2Proof/Machine/Resume.lean
  | quickCheckEnd =>
    dsimp only [exec]
    simp [execQuickCheckEnd]
  -- Sys2Proof/Machine/Tap.lean
  | tapExtest | tapIdcode | tapSamplePreload | tapClamp | tapHighz | tapBypass | tapWktChal | tapWktToken
  | tapWktStatus | tapDtmcs =>
    dsimp only [exec]
    simp [execTapExtest, execTapIdcode, execTapSamplePreload, execTapClamp, execTapHighz, execTapBypass,
      execTapWktChal, execTapWktToken, execTapWktStatus, execTapDtmcs]

/-- Settles O6: a command's answer is a next state made by operations that leave the queue alone. -/
theorem commandsLeaveTheQueue : Obligations.CommandsLeaveTheQueue := by
  unfold Obligations.CommandsLeaveTheQueue
  exact exec_keepsQueue

end Sys2Proof.Machine
end

section
/-! SUPPORT. A state in APPLY whose differing port does not exist, and the refutation of O17. -/

namespace Sys2Proof.Machine

/-! ### The end of APPLY and the generation (O17, R51 to R53)

The statement speaks of every state, and so also of lists of differing elements that no verification leaves. The end of
APPLY returns `TB_PORT_CFG` of each differing port to reset before it counts `SITE_GEN` on. There are sixteen ports, but
the registers of TB lie below those of SITE, and far enough beyond port 15 a port number has `SITE_GEN` itself where its
`TB_PORT_CFG` would be: the old generation is lost, and counting starts from 0. -/

/-- The port number whose `TB_PORT_CFG` would stand at `SITE_GEN`. -/
def strayPort : Nat := (R.SITE_GEN - R.TB_PORT_CFG 0) / (R.TB_PORT_CFG 1 - R.TB_PORT_CFG 0)

/-- The numbers of a plan to apply: sequence number 7, anti-rollback number 3. -/
def strayInfo : PlanInfo := ⟨0, 7, 3, 0, 0, [], [], [], [], [], [], []⟩

/-- APPLY of an empty plan at generation 5, the stray port its one differing element. -/
def strayApply : State :=
  ((State.reset.set F.SITE_STATUS_PHASE sApply).set F.SITE_GEN_GEN 5).withSite
    { State.reset.site with info := some strayInfo, diff := [(secPortLayout, 0, strayPort)] }

theorem strayApply_siteGen : strayApply.get F.SITE_GEN_GEN = 5 := by decide +kernel

theorem strayApply_sitePhase : strayApply.sitePhase = sApply := by decide +kernel

/-- `SITE_GEN` in the next state, where the answer is one. -/
def siteGenAfter : Res → Option Nat
  | .next t => some (t.get F.SITE_GEN_GEN)
  | .fault _ | .refused _ => none

/-- Counted from 0, not from the 5 of before. -/
theorem siteGenAfter_strayApply : siteGenAfter (exec .siteApplyEnd strayApply) = some 1 := by decide +kernel

/-- Refutes O17: a differing port that does not exist takes `SITE_GEN` with its registers at the end of APPLY. -/
theorem not_sitePlanLoading : ¬ Obligations.SitePlanLoading := by
  unfold Obligations.SitePlanLoading
  rintro ⟨-, -, -, -, -, -, -, -, applyEnd, -⟩
  obtain ⟨t, arm, -, -, -, -, hgen, -⟩ := applyEnd strayApply strayInfo strayApply_sitePhase rfl rfl
  rw [strayApply_siteGen] at hgen
  have hone : some (t.get F.SITE_GEN_GEN) = some 1 := by
    simpa only [arm, siteGenAfter] using siteGenAfter_strayApply
  rw [hgen] at hone
  exact absurd hone (by decide)

end Sys2Proof.Machine
end

section
/-! SUPPORT. Injection of a device unit's packets at its station, and O15. -/

namespace Sys2Proof.Machine

/-! ### What an injection touches (R65, R84, R89)

Flits, headers and packets that wait are the mesh's own state. The end of an injection frees the ingress buffer of what
classification held for the packet, which the MACs may answer with PFC frames; nothing else changes. -/

/-- `t` differs from `s` at most in the mesh, the stored frames, classification, the MACs and what has been sent. -/
def InjectionOnly (s t : State) : Prop :=
  t = { s with prm := t.prm, frames := t.frames, acm := t.acm, eth := t.eth, out := t.out }

namespace InjectionOnly

theorem refl (s : State) : InjectionOnly s s := rfl

theorem trans {a b c : State} (h : InjectionOnly a b) (k : InjectionOnly b c) : InjectionOnly a c := by
  unfold InjectionOnly at *
  rw [k, h]

theorem of_ethOnly {s t : State} (h : EthOnly s t) : InjectionOnly s t := by
  unfold EthOnly at h
  rw [h]
  rfl

variable {s t : State} (h : InjectionOnly s t)
include h

theorem regs : t.regs = s.regs := by rw [h]
theorem sameBut : s.sameBut t [.prm, .frames, .acm, .eth, .out] := by rw [h]; simp [State.sameBut]

end InjectionOnly

theorem State.withPrm_injectionOnly (s : State) (x : PrmState) : InjectionOnly s (s.withPrm x) := rfl
theorem State.withFrames_injectionOnly (s : State) (x : List SrcFrame) : InjectionOnly s (s.withFrames x) := rfl
theorem State.withAcm_injectionOnly (s : State) (x : AcmState) : InjectionOnly s (s.withAcm x) := rfl
theorem State.setInjector_injectionOnly (s : State) (ep : Nat) (i : Injector) : InjectionOnly s (s.setInjector ep i) := rfl
theorem State.pushFlit_injectionOnly (s : State) (ep vc : Nat) (f : Flit) : InjectionOnly s (s.pushFlit ep vc f) := rfl

theorem State.pushAbort_injectionOnly (s : State) (ep : Nat) : InjectionOnly s (s.pushAbort ep) := by
  unfold State.pushAbort
  dsimp only
  split <;> rfl

theorem State.stationHeader_injectionOnly (s : State) (ep vc : Nat) (w : List Word) :
    InjectionOnly s (s.stationHeader ep vc w) := by
  unfold State.stationHeader
  split <;> rfl

theorem State.stationAnswer_injectionOnly (s : State) (ep : Nat) (w : List Word) (status : Nat) :
    InjectionOnly s (s.stationAnswer ep w status) := by
  unfold State.stationAnswer
  split
  · exact s.stationHeader_injectionOnly ..
  · exact .refl s

theorem State.closeAborted_injectionOnly (s : State) (ep vc : Nat) (w : List Word) (opcode bytes : Nat) :
    InjectionOnly s (s.closeAborted ep vc w opcode bytes) :=
  (s.stationHeader_injectionOnly ..).trans (State.setInjector_injectionOnly ..)

theorem State.freeFrame_injectionOnly (s : State) (src arrival : Nat) : InjectionOnly s (s.freeFrame src arrival) :=
  (s.withFrames_injectionOnly _).trans (.of_ethOnly (State.pfcSettle_ethOnly _))

theorem foldl_injectionOnly {α : Type} (g : State → α → State) (l : List α) (s : State)
    (h : ∀ s x, InjectionOnly s (g s x)) : InjectionOnly s (l.foldl g s) := by
  induction l generalizing s with
  | nil => exact .refl s
  | cons x l ih => exact (h s x).trans (ih _)

theorem State.clsSent_injectionOnly (s : State) : InjectionOnly s s.clsSent :=
  (s.withAcm_injectionOnly _).trans (foldl_injectionOnly _ _ _ fun s _ => s.freeFrame_injectionOnly ..)

theorem State.freeFrame_prm (s : State) (src arrival : Nat) : (s.freeFrame src arrival).prm = s.prm := by
  unfold State.freeFrame
  rw [State.pfcSettle_ethOnly]
  rfl

theorem State.clsSent_prm (s : State) : s.clsSent.prm = s.prm := by
  unfold State.clsSent
  dsimp only
  rw [foldl_part (fun s : State => s.prm) _ _ _ fun s _ => s.freeFrame_prm ..]
  rfl

/-! ### Parts of the mesh's state after its own updates -/

@[simp] theorem State.withPrm_withPrm (s : State) (x y : PrmState) : (s.withPrm x).withPrm y = s.withPrm y := rfl

@[simp] theorem State.setInjector_injector (s : State) (ep : Nat) (i : Injector) : (s.setInjector ep i).injector ep = i :=
  spGet_set_same ..
@[simp] theorem State.setInjector_flight (s : State) (ep : Nat) (i : Injector) (k : Nat) :
    (s.setInjector ep i).flight k = s.flight k := rfl
@[simp] theorem State.setInjector_buf (s : State) (ep : Nat) (i : Injector) (k : Nat) :
    (s.setInjector ep i).buf k = s.buf k := rfl
@[simp] theorem State.setInjector_out (s : State) (ep : Nat) (i : Injector) : (s.setInjector ep i).prm.out = s.prm.out := rfl

@[simp] theorem State.pushFlit_buf (s : State) (ep vc : Nat) (f : Flit) :
    (s.pushFlit ep vc f).buf (injKey ep vc) = s.buf (injKey ep vc) ++ [f] := spGet_set_same ..
@[simp] theorem State.pushFlit_flight (s : State) (ep vc : Nat) (f : Flit) (k : Nat) :
    (s.pushFlit ep vc f).flight k = s.flight k := rfl
@[simp] theorem State.pushFlit_out (s : State) (ep vc : Nat) (f : Flit) : (s.pushFlit ep vc f).prm.out = s.prm.out := rfl

@[simp] theorem State.newFlight_fst (s : State) (w : List Word) (src vc : Nat) :
    (s.newFlight w src vc).1 = s.prm.nextPkt := rfl
@[simp] theorem State.newFlight_flight (s : State) (w : List Word) (src vc : Nat) :
    (s.newFlight w src vc).2.flight s.prm.nextPkt = ⟨w, src, vc, false, none, false⟩ := spGet_set_same ..
/-- A header of the station's own moves no packet that waits to be injected and none in injection. -/
@[simp] theorem State.stationHeader_out (s : State) (ep vc : Nat) (w : List Word) :
    (s.stationHeader ep vc w).prm.out = s.prm.out := by
  unfold State.stationHeader
  split <;> rfl

@[simp] theorem State.stationHeader_injector (s : State) (ep vc e : Nat) (w : List Word) :
    (s.stationHeader ep vc w).injector e = s.injector e := by
  unfold State.stationHeader
  split <;> rfl

@[simp] theorem State.stationAnswer_out (s : State) (ep : Nat) (w : List Word) (status : Nat) :
    (s.stationAnswer ep w status).prm.out = s.prm.out := by
  unfold State.stationAnswer
  split <;> simp

@[simp] theorem State.stationAnswer_injector (s : State) (ep e : Nat) (w : List Word) (status : Nat) :
    (s.stationAnswer ep w status).injector e = s.injector e := by
  unfold State.stationAnswer
  split <;> simp

/-- The port remembers the void that closes its packet (R88), and nothing else of it changes. -/
theorem State.closeAborted_injector (s : State) (ep vc : Nat) (w : List Word) (opcode bytes : Nat) :
    ∃ x, (s.closeAborted ep vc w opcode bytes).injector ep = { s.injector ep with last := x } :=
  ⟨_, by rw [State.closeAborted, State.setInjector_injector, State.stationHeader_injector]⟩

/-! ### The end of an injection -/

theorem State.injectionEnds_active {s : State} {ep : Nat} (h : (s.injector ep).active = true) : s.injectionEnds ep = s :=
  if_pos h

theorem State.injectionEnds_injectionOnly (s : State) (ep : Nat) : InjectionOnly s (s.injectionEnds ep) := by
  unfold State.injectionEnds
  split
  · exact .refl s
  · exact (s.withPrm_injectionOnly _).trans (State.clsSent_injectionOnly _)

/-- Of the mesh, only the count of the endpoint's packets changes. -/
theorem State.injectionEnds_prm (s : State) (ep : Nat) : ∃ x, (s.injectionEnds ep).prm = { s.prm with sent := x } := by
  unfold State.injectionEnds
  split
  · exact ⟨_, rfl⟩
  · exact ⟨_, State.clsSent_prm _⟩

@[simp] theorem State.injectionEnds_out (s : State) (ep : Nat) : (s.injectionEnds ep).prm.out = s.prm.out := by
  obtain ⟨x, hx⟩ := s.injectionEnds_prm ep
  rw [hx]

@[simp] theorem State.injectionEnds_injector (s : State) (ep e : Nat) :
    (s.injectionEnds ep).injector e = s.injector e := by
  obtain ⟨x, hx⟩ := s.injectionEnds_prm ep
  rw [State.injector, hx, State.injector]

@[simp] theorem State.injectionEnds_flight (s : State) (ep k : Nat) : (s.injectionEnds ep).flight k = s.flight k := by
  obtain ⟨x, hx⟩ := s.injectionEnds_prm ep
  rw [State.flight, hx, State.flight]

@[simp] theorem State.injectionEnds_buf (s : State) (ep k : Nat) : (s.injectionEnds ep).buf k = s.buf k := by
  obtain ⟨x, hx⟩ := s.injectionEnds_prm ep
  rw [State.buf, hx, State.buf]

/-! ### A flit of a device unit's packet (R84) -/

/-- With `left` bytes still to come, a flit of up to 128 of them never breaks the length rules: it stands at the end of the
injection buffer, and with the last byte the packet ends. -/
theorem State.takeFlit_next {s : State} {ep left : Nat} {i : Injector} {f : Flight} (head poison : Bool)
    (data rest : List Byte) (hi : s.injector ep = i) (hf : s.flight i.pkt = f) (hact : i.active = true)
    (hleft : i.got + left = i.need) :
    s.takeFlit ep head (decide (left ≤ 128)) poison (min 128 left) data rest none =
      (s.pushFlit ep f.vc
        (mkFlit f.vc i.pkt head (decide (left ≤ 128)) false poison (min 128 left) f.words data)).setInjector ep
        { i with active := decide (128 < left), got := i.got + min 128 left, rest := if left ≤ 128 then [] else rest } := by
  subst hi hf
  unfold State.takeFlit
  by_cases hlast : left ≤ 128
  · have hwhole : (s.injector ep).got + min 128 left = (s.injector ep).need := by omega
    simp only [hwhole, hlast, Nat.not_lt.mpr hlast, decide_true, decide_false, beq_self_eq_true, Bool.and_self, if_true,
      mkFlit]
  · have hmore : ¬ (s.injector ep).need ≤ (s.injector ep).got + min 128 left := by omega
    simp [hlast, hmore, mkFlit, hact, Nat.lt_of_not_le hlast]

/-- The flit and, where it is the last, the end of the injection: while more is to come, only the mesh changes. -/
theorem State.takeFlit_injectionEnds {s : State} {ep left : Nat} {i : Injector} {f : Flight} (head poison : Bool)
    (data rest : List Byte) (hi : s.injector ep = i) (hf : s.flight i.pkt = f) (hact : i.active = true)
    (hleft : i.got + left = i.need) :
    ∃ t, (s.takeFlit ep head (decide (left ≤ 128)) poison (min 128 left) data rest none).injectionEnds ep = t ∧
      t.prm.out = s.prm.out ∧ (∀ k, t.flight k = s.flight k) ∧
      t.buf (injKey ep f.vc) = s.buf (injKey ep f.vc) ++
        [mkFlit f.vc i.pkt head (decide (left ≤ 128)) false poison (min 128 left) f.words data] ∧
      (t.injector ep).active = decide (128 < left) ∧ (t.injector ep).got = i.got + min 128 left ∧
      (128 < left → ∃ x, t = s.withPrm x) ∧ InjectionOnly s t := by
  rw [State.takeFlit_next head poison data rest hi hf hact hleft]
  refine ⟨_, rfl, by simp, by simp, by simp, by simp, by simp, fun h => ?_, ?_⟩
  · rw [State.injectionEnds_active (by simpa using h)]
    exact ⟨_, rfl⟩
  · exact ((s.pushFlit_injectionOnly ..).trans (State.setInjector_injectionOnly ..)).trans
      (State.injectionEnds_injectionOnly ..)

/-! ### Device units: endpoints that are no pavilion port (R78, R79) -/

section
variable {ep : Nat} (hc : epClass ep ≠ some 6)
include hc

theorem epGroup_of_device (p : Plan) : epGroup p ep = none := if_neg hc

theorem State.loadedTd_of_device (s : State) : s.loadedTd ep = none := by
  simp [State.loadedTd, epGroup_of_device hc]

theorem State.epViolation_of_device (s : State) (cond : Nat) : s.epViolation ep cond = s := by
  simp [State.epViolation, epGroup_of_device hc]

/-- A header that passes the checks is a new packet of `n` bytes, and its first flit is taken: while more is to come, only
the mesh changes. -/
theorem State.takeHead_device_accepted {s : State} {w : List Word} {n : Nat} (poison : Bool) (data rest : List Byte)
    (ha : (s.injector ep).active = false) (hw : injectCheck s.plan ep w = none) (hn : 64 + hGet w CH.len = n) :
    ∃ t, (s.takeHead ep w (decide (n ≤ 128)) poison (min 128 n) data rest none).injectionEnds ep = t ∧
      t.prm.out = s.prm.out ∧ t.flight s.prm.nextPkt = ⟨w, ep, kindVc (hGet w CH.kind), false, none, false⟩ ∧
      t.buf (injKey ep (kindVc (hGet w CH.kind))) = s.buf (injKey ep (kindVc (hGet w CH.kind))) ++
        [mkFlit (kindVc (hGet w CH.kind)) s.prm.nextPkt true (decide (n ≤ 128)) false poison (min 128 n) w data] ∧
      (t.injector ep).active = decide (128 < n) ∧
      (128 < n → ∃ x, t = s.withPrm x) ∧ InjectionOnly s t := by
  have harm : s.takeHead ep w (decide (n ≤ 128)) poison (min 128 n) data rest none =
      ((s.newFlight w ep (kindVc (hGet w CH.kind))).2.setInjector ep
        ⟨true, s.prm.nextPkt, 0, n, rest, false, none⟩).takeFlit ep true (decide (n ≤ 128)) poison (min 128 n) data rest
        none := by
    simp [State.takeHead, s.loadedTd_of_device hc, ha, hc, hw, hn]
  obtain ⟨t, ht, hout, hflight, hbuf, hact, -, hmesh, honly⟩ := State.takeFlit_injectionEnds (left := n) true poison data
    rest (State.setInjector_injector (s.newFlight w ep (kindVc (hGet w CH.kind))).2 ep
      ⟨true, s.prm.nextPkt, 0, n, rest, false, none⟩) (s.newFlight_flight ..) rfl (Nat.zero_add n)
  rw [harm]
  refine ⟨t, ht, hout, (hflight _).trans (s.newFlight_flight ..), hbuf, hact, fun hmore => ?_, ?_⟩
  · obtain ⟨x, hx⟩ := hmesh hmore
    exact ⟨x, by simp only [hx, State.setInjector, State.newFlight, State.setFlight, State.withPrm_withPrm]⟩
  · exact (s.withPrm_injectionOnly ((s.newFlight w ep (kindVc (hGet w CH.kind))).2.setInjector ep _).prm).trans honly

theorem State.takeHead_device_refused {s : State} {w : List Word} {c b : Nat} (tail poison : Bool) (vbytes : Nat)
    (data rest : List Byte) (paid : Option Nat) (ha : (s.injector ep).active = false)
    (hw : injectCheck s.plan ep w = some (c, b)) :
    s.takeHead ep w tail poison vbytes data rest paid = s.refuseInjection ep w c b tail paid := by
  simp [State.takeHead, s.loadedTd_of_device hc, ha, hc, hw]

/-- A refusal counts and records, and then touches the mesh only: the port injects nothing, and a command is answered. -/
theorem State.refuseInjection_device (s : State) (w : List Word) (c b : Nat) (tail : Bool) :
    ∃ t, s.refuseInjection ep w c b tail none = t ∧ t.prm.out = s.prm.out ∧ (t.injector ep).active = false ∧
      InjectionOnly ((s.count F.PRM_INJ_REFUSE_COUNT).fault uPrm c b (srcDst w)) t := by
  unfold State.refuseInjection
  dsimp only
  rw [State.epViolation_of_device hc]
  refine ⟨_, rfl, by simp [State.repay], by simp [State.repay], ?_⟩
  exact (State.setInjector_injectionOnly ..).trans (State.stationAnswer_injectionOnly ..)

/-- A packet that has stalled is aborted, its injection ends, and then the stall is recorded (R83). -/
theorem State.stallAbort_device {s : State} (hrun : s.stationRuns (epStation s.plan ep) = true)
    (ha : (s.injector ep).active = true) (hs : s.stallCredit ep = true) :
    s.stallAbort ep = ((s.abortInjection ep 0x0001 true).injectionEnds ep).fault uPrm 0x04 3
      (srcDst (s.flight (s.injector ep).pkt).words) := by
  unfold State.stallAbort
  dsimp only
  rw [if_pos ⟨hrun, .inl ⟨ha, hs⟩⟩, if_pos ⟨ha, hc⟩, State.epViolation_of_device hc]

end

/-- The packet in injection ends with an abort tail, the abort is counted, and its void follows (R81, R88). -/
theorem State.abortInjection_active {s : State} {ep : Nat} (opcode : Nat) (discard : Bool)
    (ha : (s.injector ep).active = true) :
    ∃ a t, s.abortInjection ep opcode discard = t ∧ InjectionOnly s a ∧
      InjectionOnly (a.count F.PRM_ABORT_COUNT_COUNT) t ∧
      (t.injector ep).active = false ∧ (t.injector ep).discarding = discard := by
  unfold State.abortInjection
  dsimp only
  rw [if_pos ha]
  refine ⟨_, _, rfl, (s.pushAbort_injectionOnly ep).trans (State.setInjector_injectionOnly ..),
    State.closeAborted_injectionOnly .., ?_⟩
  obtain ⟨x, hx⟩ := State.closeAborted_injector _ _ _ _ _ _
  rw [hx]
  simp [State.injector, State.setInjector]

/-! ### A condition counted and recorded by the promenade (R78, R83, R577) -/

/-- Of the registers, only the counter, the error registers and FLT's summary change. -/
theorem counted_and_recorded {s a b t : State} {o cond bit extra : Nat} (hcount : InjectionOnly s a)
    (hfault : InjectionOnly (a.count ⟨o, 31, 0⟩) b) (hend : InjectionOnly (b.fault uPrm cond bit extra) t)
    (ho : o ∉ [R.PRM_ERR_STATUS, R.PRM_ERR_FIRST, R.PRM_ERR_COUNT, R.FLT_SUMMARY]) (hbit : bit < 64) :
    t.get ⟨o, 31, 0⟩ = min 0xFFFFFFFF (s.get ⟨o, 31, 0⟩ + 1) ∧ t.hasError uPrm bit ∧
      s.sameRegs t [o, R.PRM_ERR_STATUS, R.PRM_ERR_FIRST, R.PRM_ERR_COUNT, R.FLT_SUMMARY] ∧
      s.sameBut t [.regs, .prm, .frames, .acm, .eth, .out, .pcie, .aia] := by
  simp only [List.mem_cons, List.not_mem_nil, or_false, not_or] at ho
  obtain ⟨hstatus, hfirst, hcnt, hsummary⟩ := ho
  refine ⟨?_, ?_, fun r hr => ?_, ?_⟩
  · rw [State.get_congr hend.regs, State.fault_get_ne _ _ _ _ _ _ hstatus hfirst hcnt hsummary,
      State.get_congr hfault.regs, State.get_count_same, State.get_congr hcount.regs]
  · rw [State.hasError, State.get_congr hend.regs]
    exact State.fault_status _ _ _ _ _ hbit (by simp) (by simp) (by simp)
  · simp only [List.mem_cons, List.not_mem_nil, or_false, not_or] at hr
    obtain ⟨hro, hrs, hrf, hrc, hrm⟩ := hr
    rw [State.rd_congr hend.regs, State.fault_rd_ne _ _ _ _ _ _ hrs hrf hrc hrm, State.rd_congr hfault.regs, State.count,
      State.rd_set_ne _ _ hro, State.rd_congr hcount.regs]
  · rw [hend, hfault, hcount]
    simp [State.sameBut]

/-! ### The next packet of a device unit (R78) -/

/-- The packets that a unit has handed to its station, replaced. -/
def State.setOut (s : State) (ep : Nat) (l : List Packet) : State :=
  s.withPrm { s.prm with out := spSet (fun _ => []) s.prm.out ep l }

@[simp] theorem State.setOut_out (s : State) (ep : Nat) (l : List Packet) :
    spGet (fun _ => []) (s.setOut ep l).prm.out ep = l := spGet_set_same ..

/-- With no header of the station before it, the first packet handed over goes: its header and first flit are taken. -/
theorem exec_packetInject_device {s : State} {ep : Nat} {p : Packet} {rest : List Packet}
    (hrun : s.stationRuns (epStation s.plan ep) = true) (hwait : s.waiting ep = [])
    (hout : spGet (fun _ => []) s.prm.out ep = p :: rest) (hc : epClass ep ≠ some 6)
    (ha : (s.injector ep).active = false) (hheld : s.heldAtInjection p.words = false)
    (hroom : s.injRoom ep (kindVc (hGet p.words CH.kind)) = true) :
    exec (.packetInject ep none) s =
      .next (((s.setOut ep rest).takeHead ep p.words (decide (64 + hGet p.words CH.len ≤ 128)) p.poison
        (min 128 (64 + hGet p.words CH.len)) (bytesAt p.payload 0 (min 128 (64 + hGet p.words CH.len) - 64))
        (p.payload.drop 64) none).injectionEnds ep) := by
  show execPacketInject ep none s = _
  simp [execPacketInject, hrun, State.injectNext, hwait, hout, hc, ha, hheld, hroom, State.setOut]

/-! ### The clauses of O15 -/

/-- Settles O15, clause by clause. -/
theorem promenadeInjection : Obligations.PromenadeInjection := by
  unfold Obligations.PromenadeInjection
  refine ⟨?accepted, ?refused, ?later, ?stalled, ?limit, ?reserved⟩
  case accepted =>
    intro s ep p rest hrun hwait hout hc ha hheld hroom hw
    refine ⟨_, exec_packetInject_device hrun hwait hout hc ha hheld hroom, ?_⟩
    obtain ⟨t, ht, hrest, hflight, hbuf, hact, hmesh, honly⟩ := State.takeHead_device_accepted hc (s := s.setOut ep rest)
      p.poison (bytesAt p.payload 0 (min 128 (64 + hGet p.words CH.len) - 64)) (p.payload.drop 64) ha hw rfl
    rw [ht]
    refine ⟨by rw [hrest, State.setOut_out], hflight, hbuf, hact, fun hmore => ?_,
      ((s.withPrm_injectionOnly _).trans honly).sameBut⟩
    obtain ⟨x, rfl⟩ := hmesh hmore
    simp [State.sameBut, State.setOut]
  case refused =>
    intro s ep p rest hrun hwait hout hc ha hheld hroom hw
    refine ⟨_, exec_packetInject_device hrun hwait hout hc ha hheld hroom, ?_⟩
    rw [State.takeHead_device_refused hc _ _ _ _ _ _ (s := s.setOut ep rest) ha hw]
    obtain ⟨t, ht, hrest, hact, honly⟩ := (s.setOut ep rest).refuseInjection_device hc p.words 0x02 1
      (decide (64 + hGet p.words CH.len ≤ 128))
    rw [ht]
    obtain ⟨hcount, herr, hregs, hbut⟩ := counted_and_recorded (a := s.setOut ep rest) (s.withPrm_injectionOnly _) (.refl _)
      (honly.trans (t.injectionEnds_injectionOnly ep)) (by decide) (by decide)
    exact ⟨by rw [State.injectionEnds_out, hrest, State.setOut_out], hcount, herr, by rw [State.injectionEnds_injector, hact],
      hregs, hbut⟩
  case later =>
    intro s ep hrun hc ha hroom hgot
    have arm : exec (.flitInject ep none) s = .next ((s.takeFlit ep false
        (decide ((s.injector ep).need - (s.injector ep).got ≤ 128)) false
        (min 128 ((s.injector ep).need - (s.injector ep).got))
        (bytesAt (s.injector ep).rest 0 (min 128 ((s.injector ep).need - (s.injector ep).got)))
        ((s.injector ep).rest.drop 128) none).injectionEnds ep) := by
      show execFlitInject ep none s = _
      simp [execFlitInject, hrun, ha, hc, hroom]
    obtain ⟨t, ht, -, -, hbuf, hact, hsofar, hmesh, honly⟩ := State.takeFlit_injectionEnds false false
      (bytesAt (s.injector ep).rest 0 (min 128 ((s.injector ep).need - (s.injector ep).got)))
      ((s.injector ep).rest.drop 128) rfl rfl ha (Nat.add_sub_of_le hgot)
    refine ⟨t, by rw [arm, ht], hbuf, hact, hsofar, fun hmore => ?_, honly.sameBut⟩
    obtain ⟨x, rfl⟩ := hmesh hmore
    simp [State.sameBut]
  case stalled =>
    intro s ep hrun hc ha hs
    obtain ⟨a, t, ht, habort, hvoid, hact, hdisc⟩ := State.abortInjection_active 0x0001 true ha
    have arm : exec (.stallTimeout ep) s =
        .next ((t.injectionEnds ep).fault uPrm 0x04 3 (srcDst (s.flight (s.injector ep).pkt).words)) := by
      show Host.Outcome.next (s.stallAbort ep) = _
      rw [State.stallAbort_device hc hrun ha hs, ht]
    obtain ⟨hcount, herr, hregs, hbut⟩ := counted_and_recorded habort
      (hvoid.trans (t.injectionEnds_injectionOnly ep)) (.refl (State.fault _ uPrm 0x04 3 _)) (by decide) (by decide)
    have hinj : ((t.injectionEnds ep).fault uPrm 0x04 3 (srcDst (s.flight (s.injector ep).pkt).words)).injector ep =
        t.injector ep := by
      rw [State.injector, State.fault_prm]
      exact t.injectionEnds_injector ep ep
    exact ⟨_, arm, by rw [hinj, hact], by rw [hinj, hdisc], hcount, herr, hregs, hbut⟩
  case limit =>
    intro s limit hlo hhi
    have arm : exec (.prmStallLimitWrite limit [] []) s = .next (s.set F.PRM_STALL_LIMIT_LIMIT_US limit) := by
      show Host.Outcome.next (s.stallLimitWrite limit [] []) = _
      rw [State.stallLimitWrite, if_neg (by omega)]
      rfl
    refine ⟨_, arm, ?_, s.wr_sameRegs _ _, s.wr_sameBut _ _⟩
    rw [State.get_set_same _ limit (by decide) (by decide)]
    exact Nat.mod_eq_of_lt (by simp; omega)
  case reserved =>
    intro s limit overIn overEject hv
    have arm : exec (.prmStallLimitWrite limit overIn overEject) s = .next (s.capture uPrm 0xFF 0) := by
      show Host.Outcome.next (s.stallLimitWrite limit overIn overEject) = _
      rw [State.stallLimitWrite, if_pos (by omega), State.common]
    exact ⟨_, arm, s.capture_rd_ne _ _ _ _ (by decide) (by decide), s.capture_get_errCount ..,
      s.capture_rd_ne _ _ _ _ (by decide) (by decide), s.capture_sameRegs _ _ _, s.capture_sameBut _ _ _⟩

end Sys2Proof.Machine
end

section
/-! SUPPORT. Pavilion groups, their registers and the sky of their tiles, and the refutation of O18. -/

namespace Sys2Proof.Machine

/-! ### A pavilion group and the rest of the state -/

@[simp] theorem State.setGrp_grp (s : State) (g : Nat) (x : PavGroup) : (s.setGrp g x).grp g = x := spGet_set_same ..
@[simp] theorem State.setGrp_rd (s : State) (g : Nat) (x : PavGroup) (r : Nat) : (s.setGrp g x).rd r = s.rd r := rfl
@[simp] theorem State.setGrp_get (s : State) (g : Nat) (x : PavGroup) (f : Fld) : (s.setGrp g x).get f = s.get f := rfl
@[simp] theorem State.setGrp_plan (s : State) (g : Nat) (x : PavGroup) : (s.setGrp g x).plan = s.plan := rfl
@[simp] theorem State.setGrp_hbm (s : State) (g : Nat) (x : PavGroup) : (s.setGrp g x).pav.hbm = s.pav.hbm := rfl
@[simp] theorem State.setGrp_tiles (s : State) (g : Nat) (x : PavGroup) : (s.setGrp g x).tiles = s.tiles := rfl
@[simp] theorem State.setGrp_out (s : State) (g : Nat) (x : PavGroup) : (s.setGrp g x).out = s.out := rfl

@[simp] theorem State.setGrp_site (s : State) (g : Nat) (x : PavGroup) : (s.setGrp g x).site = s.site := rfl
@[simp] theorem State.emit_grp (s : State) (o : Output) (g : Nat) : (s.emit o).grp g = s.grp g := rfl
@[simp] theorem State.wr_grp (s : State) (o : Nat) (w : Word) (g : Nat) : (s.wr o w).grp g = s.grp g := rfl
@[simp] theorem State.set_grp (s : State) (f : Fld) (v g : Nat) : (s.set f v).grp g = s.grp g := rfl
@[simp] theorem State.count_grp (s : State) (f : Fld) (g : Nat) : (s.count f).grp g = s.grp g := rfl

theorem State.setGrp_sameBut (s : State) (g : Nat) (x : PavGroup) : s.sameBut (s.setGrp g x) [.pav] := by
  simp [State.setGrp, State.sameBut]

theorem State.grp_congr {s t : State} (h : t.pav = s.pav) (g : Nat) : t.grp g = s.grp g := by rw [State.grp, h, State.grp]

/-- The registers of group state stand above the unit's own, whatever the group. -/
theorem grpStateReg_ne {g o : Nat} (h : o < R.PAV_GRP_STATE 0) : R.PAV_GRP_STATE g ≠ o := by
  simp only [R.PAV_GRP_STATE] at *
  omega

/-- A value that the field holds reads as it was set. -/
theorem State.get_set_of_lt (s : State) {f : Fld} {v : Nat} (hl : f.lo ≤ f.hi) (hh : f.hi < 64)
    (hv : v < 2 ^ (f.hi + 1 - f.lo)) : (s.set f v).get f = v := by
  rw [State.get_set_same _ _ hl hh, Nat.mod_eq_of_lt hv]

/-! ### The sky of a group's tiles (R119) -/

/-- Where each step puts its own tile to sky state `k`, and moves no tile from it, all the tiles named end there. -/
theorem foldl_sky {f : State → Nat → State} {k : Nat} (hown : ∀ s m, ((f s m).tile (284 + m)).sky = k)
    (hkeep : ∀ s m n, (s.tile n).sky = k → ((f s m).tile n).sky = k) (l : List Nat) (s : State) {m : Nat}
    (hm : m ∈ l ∨ (s.tile (284 + m)).sky = k) : ((l.foldl f s).tile (284 + m)).sky = k := by
  induction l generalizing s with
  | nil => exact hm.resolve_left (by simp)
  | cons a l ih =>
    refine ih (f s a) ?_
    rcases hm with hm | hm
    · rcases List.mem_cons.mp hm with rfl | hm
      · exact .inr (hown s _)
      · exact .inl hm
    · exact .inr (hkeep s a _ hm)

theorem State.tile_setTile (s : State) (k n : Nat) (x : Tile) :
    (s.setTile k x).tile n = if n = k then x else s.tile n := spGet_set ..

/-- The tiles of the members enter Haze. -/
def State.hazeTiles (s : State) (l : List Nat) : State :=
  l.foldl (fun s m => s.setTile (284 + m) { s.tile (284 + m) with sky := 1, waking := false }) s

theorem State.hazeTiles_eq_withTiles (s : State) (l : List Nat) : ∃ x, s.hazeTiles l = s.withTiles x := by
  induction l generalizing s with
  | nil => exact ⟨s.tiles, rfl⟩
  | cons a l ih => exact ih _

theorem State.hazeTiles_sky (s : State) {l : List Nat} {m : Nat} (hm : m ∈ l) :
    ((s.hazeTiles l).tile (284 + m)).sky = 1 := by
  refine foldl_sky (fun s m => ?_) (fun s m n h => ?_) l s (.inl hm)
  · rw [State.tile_setTile, if_pos rfl]
  · rw [State.tile_setTile]
    split
    · rfl
    · exact h

theorem State.tryHaze_of_mayHaze {s : State} {g : Nat} (h : s.mayHaze g = true) :
    s.tryHaze g = (s.set (F.PAV_GRP_STATE_SLEEP g) 1).hazeTiles (grpMembers s.plan g) := if_pos h

/-- The tiles of a group that may enter Haze enter it, and its `SLEEP` shows so. -/
theorem State.tryHaze_enters {s : State} {g : Nat} (h : s.mayHaze g = true) :
    (s.tryHaze g).get (F.PAV_GRP_STATE_SLEEP g) = 1 ∧
      ∀ m ∈ grpMembers s.plan g, ((s.tryHaze g).tile (284 + m)).sky = 1 := by
  rw [State.tryHaze_of_mayHaze h]
  refine ⟨?_, fun m hm => State.hazeTiles_sky _ hm⟩
  obtain ⟨x, hx⟩ := (s.set (F.PAV_GRP_STATE_SLEEP g) 1).hazeTiles_eq_withTiles (grpMembers s.plan g)
  rw [hx, State.withTiles_get]
  exact State.get_set_of_lt _ (by simp) (by simp) (by simp)

/-- Whether or not the group enters Haze, at most its register of state and tiles change. -/
theorem State.tryHaze_only (s : State) (g : Nat) :
    ∃ r x, s.tryHaze g = (s.withRegs r).withTiles x ∧ s.sameRegs (s.tryHaze g) [R.PAV_GRP_STATE g] := by
  by_cases h : s.mayHaze g = true
  · rw [State.tryHaze_of_mayHaze h]
    obtain ⟨x, hx⟩ := (s.set (F.PAV_GRP_STATE_SLEEP g) 1).hazeTiles_eq_withTiles (grpMembers s.plan g)
    exact ⟨_, x, hx, fun r hr => by rw [hx, State.withTiles_rd, State.rd_set_ne _ _ (by simpa using hr)]⟩
  · rw [State.tryHaze, if_neg h]
    exact ⟨s.regs, s.tiles, rfl, fun _ _ => rfl⟩

/-! ### A load that ends with `SLEEP_REQ` high (O18, R104, R119)

The statement asks, where the group may not enter Haze before its user reset ends, that the end leave the tiles as they
were. But a group that is still LOADING may never enter Haze, and tenant logic may raise `SLEEP_REQ` before the reset
ends: once the end has made the group RUNNING, it enters Haze at once, and its tiles leave Clear. -/

/-- The state in which the end of a load's user reset looks for Haze: the ports attached, the group RUNNING, the load
recorded and counted (R104, R123). -/
def State.loadEnded (s : State) (g : Nat) : State :=
  let x := s.grp g
  let s1 := ((s.setGrp g { x with userReset := false }).logicRan g).emit (.tenant g "USER_RESET" 0)
  let s2 := (s1.setGrp g { s1.grp g with phase := .idle }).attachPorts g
  let s3 := (s2.setGrpState g gRunning).set (F.PAV_GRP_STATE_RESULT g) 0
  let s4 := (s3.wr (R.PAV_GRP_STREAM_ID g) (BitVec.ofNat 64 (leAt x.hdr 0x10 8))).writeMeasurement g
  (s4.pavDone g).count F.PAV_LOAD_COUNT_COUNT

theorem exec_userResetEnd_attach {s : State} {g : Nat} (hr : (s.grp g).userReset = true)
    (hp : (s.grp g).phase = .attach) (hh : s.grpHeld g = false) :
    exec (.userResetEnd g) s = .next ((s.loadEnded g).tryHaze g) := by
  show execUserResetEnd g s = _
  simp [execUserResetEnd, hr, hp, hh, State.loadEnded]

theorem foldl_setFabric (f : State → Nat → Fabric) (l : List Nat) (s : State) :
    ∃ x, l.foldl (fun s m => s.setFabric m (f s m)) s = s.withPav { s.pav with fabric := x } := by
  induction l generalizing s with
  | nil => exact ⟨s.pav.fabric, rfl⟩
  | cons a l ih => exact ih (s.setFabric a (f s a))

theorem State.mapFabric_eq_withPav (s : State) (g : Nat) (f : Fabric → Fabric) :
    ∃ x, s.mapFabric g f = s.withPav { s.pav with fabric := x } := foldl_setFabric (fun s m => f (s.fabric m)) _ s

theorem State.logicRan_eq_withPav (s : State) (g : Nat) :
    ∃ x, s.logicRan g = (s.withPav { s.pav with fabric := x }).withFree (s.free + 1) :=
  foldl_setFabric (fun s m => (s.fabric m).ran m _) _ s.takeFree.2

/-- The part of the state that attaching ports changes: credits, blocks, and what tenant logic is told. -/
def State.attached (s : State) (tx rx : Sparse Nat) (b : List Nat) (o : List Output) : State :=
  { s with pav := { s.pav with txCredits := tx, rxCredits := rx }, prm := { s.prm with blocked := b }, out := o }

theorem State.attached_attached (s : State) (tx rx tx' rx' : Sparse Nat) (b b' : List Nat) (o o' : List Output) :
    (s.attached tx rx b o).attached tx' rx' b' o' = s.attached tx' rx' b' o' := rfl

theorem foldl_credits (ep : Nat) (l : List Nat) (s : State) :
    ∃ tx rx, l.foldl (fun s vc => (s.setTxCredit ep vc 16).setRxCredit ep vc 0) s =
      s.withPav { s.pav with txCredits := tx, rxCredits := rx } := by
  induction l generalizing s with
  | nil => exact ⟨s.pav.txCredits, s.pav.rxCredits, rfl⟩
  | cons a l ih => exact ih ((s.setTxCredit ep a 16).setRxCredit ep a 0)

theorem attachPort_eq (s : State) (ep : Nat) : ∃ tx rx b o, attachPort s ep = s.attached tx rx b o := by
  obtain ⟨tx, rx, h⟩ := foldl_credits ep (List.range 4) s
  refine ⟨tx, rx, s.prm.blocked.filter (· != ep), s.out ++ [.tenant ep "PORT_UP" 1], ?_⟩
  rw [attachPort, h]
  rfl

theorem foldl_attachPort (l : List Nat) (s : State) :
    ∃ tx rx b o, l.foldl attachPort s = s.attached tx rx b o := by
  induction l generalizing s with
  | nil => exact ⟨s.pav.txCredits, s.pav.rxCredits, s.prm.blocked, s.out, rfl⟩
  | cons a l ih =>
    obtain ⟨tx, rx, b, o, h⟩ := attachPort_eq s a
    obtain ⟨tx', rx', b', o', h'⟩ := ih (s.attached tx rx b o)
    exact ⟨tx', rx', b', o', by rw [List.foldl_cons, h, h', State.attached_attached]⟩

/-- The group's ports are up, and no other part of its state has changed. -/
theorem State.attachPorts_eq (s : State) (g : Nat) :
    ∃ tx rx b o, s.attachPorts g = (s.attached tx rx b o).setGrp g { s.grp g with portsUp := true } := by
  obtain ⟨tx, rx, b, o, h⟩ := foldl_attachPort (grpPorts s.plan g) s
  exact ⟨tx, rx, b, o, by rw [State.attachPorts, h]; rfl⟩

@[simp] theorem State.attachPorts_grp (s : State) (g : Nat) :
    (s.attachPorts g).grp g = { s.grp g with portsUp := true } := by
  obtain ⟨tx, rx, b, o, h⟩ := s.attachPorts_eq g
  rw [h, State.setGrp_grp]

@[simp] theorem State.attachPorts_hbm (s : State) (g : Nat) : (s.attachPorts g).pav.hbm = s.pav.hbm := by
  obtain ⟨tx, rx, b, o, h⟩ := s.attachPorts_eq g
  rw [h]
  rfl

@[simp] theorem State.attachPorts_site (s : State) (g : Nat) : (s.attachPorts g).site = s.site := by
  obtain ⟨tx, rx, b, o, h⟩ := s.attachPorts_eq g
  rw [h]
  rfl

@[simp] theorem State.logicRan_grp (s : State) (g k : Nat) : (s.logicRan g).grp k = s.grp k := by
  obtain ⟨x, h⟩ := s.logicRan_eq_withPav g
  rw [h]
  rfl

@[simp] theorem State.logicRan_hbm (s : State) (g : Nat) : (s.logicRan g).pav.hbm = s.pav.hbm := by
  obtain ⟨x, h⟩ := s.logicRan_eq_withPav g
  rw [h]
  rfl

@[simp] theorem State.logicRan_rd (s : State) (g r : Nat) : (s.logicRan g).rd r = s.rd r := by
  obtain ⟨x, h⟩ := s.logicRan_eq_withPav g
  rw [h]
  rfl

@[simp] theorem State.logicRan_site (s : State) (g : Nat) : (s.logicRan g).site = s.site := by
  obtain ⟨x, h⟩ := s.logicRan_eq_withPav g
  rw [h]
  rfl

theorem State.setGrpState_running (s : State) (g : Nat) :
    s.setGrpState g gRunning = s.set (F.PAV_GRP_STATE_STATE g) gRunning := by
  simp [State.setGrpState]

@[simp] theorem State.writeMeasurement_pav (s : State) (g : Nat) : (s.writeMeasurement g).pav = s.pav :=
  foldl_part (fun s : State => s.pav) _ _ _ fun _ _ => rfl
@[simp] theorem State.writeMeasurement_site (s : State) (g : Nat) : (s.writeMeasurement g).site = s.site :=
  foldl_part (fun s : State => s.site) _ _ _ fun _ _ => rfl

/-- The measurement leaves the group's register of state. -/
theorem State.writeMeasurement_grpState (s : State) (g : Nat) : (s.writeMeasurement g).grpState g = s.grpState g :=
  foldl_part (fun s : State => s.grpState g) _ _ _ fun s _ =>
    s.get_wr_ne _ (by simp only [R.PAV_GRP_STATE, R.PAV_GRP_MEAS]; omega)

@[simp] theorem State.pavDone_pav (s : State) (g : Nat) : (s.pavDone g).pav = s.pav := by simp [State.pavDone]
@[simp] theorem State.writeMeasurement_grp (s : State) (g k : Nat) : (s.writeMeasurement g).grp k = s.grp k :=
  State.grp_congr (s.writeMeasurement_pav g) k
@[simp] theorem State.pavDone_grp (s : State) (g k : Nat) : (s.pavDone g).grp k = s.grp k :=
  State.grp_congr (s.pavDone_pav g) k
@[simp] theorem State.pavDone_site (s : State) (g : Nat) : (s.pavDone g).site = s.site := by simp [State.pavDone]

theorem State.pavDone_get_ne (s : State) (g : Nat) {f : Fld} (hd : f.off ≠ R.PAV_DONE) (hf : f.off ≠ R.FLT_SUMMARY) :
    (s.pavDone g).get f = s.get f := by
  rw [State.get, State.pavDone, State.fltRefresh_rd_ne _ _ _ hf, State.rd_wr_ne _ _ hd, State.get]

/-- The group is RUNNING, with `SLEEP_REQ` as it was. -/
theorem State.loadEnded_spec (s : State) (g : Nat) :
    (s.loadEnded g).grpState g = gRunning ∧ ((s.loadEnded g).grp g).sleepReq = (s.grp g).sleepReq ∧
      (s.loadEnded g).pav.hbm = s.pav.hbm ∧ (s.loadEnded g).site = s.site := by
  refine ⟨?_, ?_, ?_, ?_⟩
  · have hid : R.PAV_GRP_STATE g ≠ R.PAV_GRP_STREAM_ID g := by simp [R.PAV_GRP_STATE, R.PAV_GRP_STREAM_ID]
    rw [State.loadEnded, State.grpState, State.count, State.get_set_ne _ _ (grpStateReg_ne (by decide)),
      State.pavDone_get_ne _ _ (grpStateReg_ne (by decide)) (grpStateReg_ne (by decide)), ← State.grpState,
      State.writeMeasurement_grpState, State.grpState, State.get_wr_ne _ _ hid,
      State.get_set_other _ _ (by simp) (by simp) (by simp), State.setGrpState_running]
    exact State.get_set_of_lt _ (by simp) (by simp) (by simp [gRunning])
  · simp [State.loadEnded, State.setGrpState_running]
  · simp [State.loadEnded, State.setGrpState_running]
  · simp [State.loadEnded, State.setGrpState_running]

/-- A section of power policy that reaches to the byte of tile 284, and allows Haze there. -/
def hazePolicy : List Byte := List.replicate (8 * 284 + 1) 1

/-- A load ends for group 0: `SLEEP_REQ` is high, and the plan allows its tile 284 Haze. -/
def sleepyLoad : State :=
  (State.reset.withSite { State.reset.site with live := [⟨secPwrPolicy, 0, 1, false, [], hazePolicy⟩] }).setGrp 0
    { groupReset 0 with phase := .attach, userReset := true, sleepReq := true }

theorem sleepyLoad_grp : sleepyLoad.grp 0 = { groupReset 0 with phase := .attach, userReset := true, sleepReq := true } :=
  State.setGrp_grp ..
theorem sleepyLoad_policy : secBody sleepyLoad.plan secPwrPolicy 0 = hazePolicy := rfl
theorem sleepyLoad_members : grpMembers sleepyLoad.plan 0 = [0] := by decide
theorem sleepyLoad_held : sleepyLoad.grpHeld 0 = false := by decide
theorem sleepyLoad_mayHaze : sleepyLoad.mayHaze 0 = false := by decide
theorem sleepyLoad_clear : (sleepyLoad.tile 284).sky = 0 := by decide

theorem sleepyLoad_allow : (tileAllow sleepyLoad.plan 284).testBit 0 = true := by
  rw [tileAllow, secByte, secLE, sleepyLoad_policy]
  simp [hazePolicy, leAt, bytesAt, leNat, -List.reduceReplicate]

theorem sleepyLoad_ended_mayHaze : (sleepyLoad.loadEnded 0).mayHaze 0 = true := by
  obtain ⟨hst, hsleep, hhbm, hsite⟩ := sleepyLoad.loadEnded_spec 0
  have hplan : (sleepyLoad.loadEnded 0).plan = sleepyLoad.plan := by rw [State.plan, hsite]
  have hnone : sleepyLoad.pav.hbm = [] := rfl
  simpa [State.mayHaze, hst, hsleep, hhbm, hplan, hnone, sleepyLoad_grp, sleepyLoad_members] using sleepyLoad_allow

/-- Refutes O18: a load that ends with `SLEEP_REQ` high sends the group's tile to Haze, though the group, still LOADING,
might not enter Haze before. -/
theorem not_pavilionLoading : ¬ Obligations.PavilionLoading := by
  unfold Obligations.PavilionLoading
  rintro ⟨-, -, -, -, -, -, -, -, -, loadEnds, -⟩
  obtain ⟨t, arm, -, -, -, -, -, -, -, htiles, -⟩ := loadEnds sleepyLoad 0 (by decide) (by rw [sleepyLoad_grp])
    (by rw [sleepyLoad_grp]) sleepyLoad_held
  rw [exec_userResetEnd_attach (by rw [sleepyLoad_grp]) (by rw [sleepyLoad_grp]) sleepyLoad_held] at arm
  obtain rfl := Host.Outcome.next.inj arm
  have hplan : (sleepyLoad.loadEnded 0).plan = sleepyLoad.plan := by
    rw [State.plan, (sleepyLoad.loadEnded_spec 0).2.2.2]
  have hsky := (State.tryHaze_enters sleepyLoad_ended_mayHaze).2 0 (by rw [hplan, sleepyLoad_members]; simp)
  rw [State.tile, htiles sleepyLoad_mayHaze, ← State.tile, sleepyLoad_clear] at hsky
  exact absurd hsky (by decide)

end Sys2Proof.Machine
end

section
/-! SUPPORT. The ports of a pavilion group detach, and O19. -/

namespace Sys2Proof.Machine

/-! ### What is sent is only added to -/

theorem State.emit_out_prefix (s : State) (o : Output) : s.out <+: (s.emit o).out := List.prefix_append ..
theorem State.emits_out_prefix (s : State) (l : List Output) : s.out <+: (s.emits l).out := List.prefix_append ..

theorem State.l1Exit_out_prefix (s : State) (f : Nat) : s.out <+: (s.l1Exit f).out := by
  unfold State.l1Exit
  dsimp only
  split
  · exact State.emit_out_prefix (s.withPcie _) _
  · exact List.prefix_rfl

theorem State.hostSend_out_prefix (s : State) (f : Nat) (o : Output) : s.out <+: (s.hostSend f o).out := by
  unfold State.hostSend
  split
  · exact List.prefix_rfl
  · exact s.emit_out_prefix o

theorem State.raiseMsix_out_prefix (s : State) (f v : Nat) : s.out <+: (s.raiseMsix f v).out := by
  unfold State.raiseMsix
  split
  · exact List.prefix_rfl
  · split
    · exact List.prefix_rfl
    · exact (s.l1Exit_out_prefix f).trans (State.hostSend_out_prefix ..)

theorem State.fltRefresh_out_prefix (s : State) (u : Nat) : s.out <+: (s.fltRefresh u).out := by
  have hsource : ∀ (p : Prop) [Decidable p] (t : State) (i : Nat), t.out <+: (if p then t.aplicSource i else t).out := by
    intro p _ t i
    split
    · exact t.emit_out_prefix _
    · exact List.prefix_rfl
  unfold State.fltRefresh
  dsimp only
  split
  · split
    · exact (hsource _ (s.wr _ _) _).trans (State.raiseMsix_out_prefix ..)
    · exact hsource _ (s.wr _ _) _
  · exact List.prefix_rfl

theorem State.setStatus_out_prefix (s : State) (u b : Nat) : s.out <+: (s.setStatus u b).out := by
  have h := (s.wr (errStatus u) (setBit (s.rd (errStatus u)) b true)).fltRefresh_out_prefix u
  rwa [State.wr_out] at h

theorem State.fault_out_prefix (s : State) (u c b e : Nat) : s.out <+: (s.fault u c b e).out := by
  have h := (s.capture u c e).setStatus_out_prefix u b
  rwa [State.capture_out] at h

/-! ### What a port's detaching touches beside its group (R85, R105, R422)

The mesh loses the packets in injection and in ejection, the promenade counts and records the refused headers, and TDIs
over a group that leaves RUNNING are reported. None of it is a register of PAV or the state of a group. -/

/-- `t` differs from `s` at most in the registers of other units than PAV, the mesh, the PCIe functions, the APLIC and
what has been sent, which is only added to. -/
structure Beside (s t : State) : Prop where
  eq : t = { s with regs := t.regs, prm := t.prm, pcie := t.pcie, out := t.out, aia := t.aia }
  rd : ∀ r, r / 0x1000000 = uPav → t.rd r = s.rd r
  out : s.out <+: t.out

theorem State.eq_of_sameBut_beside {s t : State} (h : s.sameBut t [.regs, .prm, .pcie, .out, .aia]) :
    t = { s with regs := t.regs, prm := t.prm, pcie := t.pcie, out := t.out, aia := t.aia } := by
  cases s
  cases t
  simp_all [State.sameBut]

namespace Beside

theorem refl (s : State) : Beside s s := ⟨rfl, fun _ _ => rfl, List.prefix_rfl⟩

theorem trans {a b c : State} (h : Beside a b) (k : Beside b c) : Beside a c :=
  ⟨by rw [k.eq, h.eq], fun r hr => (k.rd r hr).trans (h.rd r hr), h.out.trans k.out⟩

theorem foldl {α : Type} (g : State → α → State) (l : List α) (s : State) (h : ∀ s x, Beside s (g s x)) :
    Beside s (l.foldl g s) := by
  induction l generalizing s with
  | nil => exact refl s
  | cons x l ih => exact (h s x).trans (ih _)

theorem pav {s t : State} (h : Beside s t) : t.pav = s.pav := by rw [h.eq]

theorem withPrm (s : State) (x : PrmState) : Beside s (s.withPrm x) := ⟨rfl, fun _ _ => rfl, List.prefix_rfl⟩
theorem withPcie (s : State) (x : PcieState) : Beside s (s.withPcie x) := ⟨rfl, fun _ _ => rfl, List.prefix_rfl⟩
theorem emit (s : State) (o : Output) : Beside s (s.emit o) := ⟨rfl, fun _ _ => rfl, s.emit_out_prefix o⟩

theorem set (s : State) {f : Fld} (v : Nat) (h : f.off / 0x1000000 ≠ uPav) : Beside s (s.set f v) :=
  ⟨rfl, fun _ hr => s.rd_set_ne v (by rintro rfl; exact h hr), List.prefix_rfl⟩

/-- Another unit records a condition. -/
theorem fault (s : State) {u : Nat} (hu : u ≠ uPav) (c b e : Nat) : Beside s (s.fault u c b e) := by
  have hoff : ∀ {r x : Nat}, x < 0x1000000 → r / 0x1000000 = uPav → r ≠ unitOff u x := by
    rintro r x hx hr rfl
    rw [unitOff, Nat.mul_comm, Nat.mul_add_div (by decide), Nat.div_eq_of_lt hx] at hr
    exact hu hr
  refine ⟨State.eq_of_sameBut_beside (by simp [State.sameBut]), fun r hr => ?_, s.fault_out_prefix ..⟩
  exact s.fault_rd_ne _ _ _ _ _ (hoff (by decide) hr) (hoff (by decide) hr) (hoff (by decide) hr)
    (by rintro rfl; exact absurd hr (by decide))

end Beside

theorem State.stationHeader_beside (s : State) (ep vc : Nat) (w : List Word) : Beside s (s.stationHeader ep vc w) := by
  unfold State.stationHeader
  split
  · exact .withPrm s _
  · exact .withPrm s _

theorem State.lowerVoid_beside (s : State) (ep opcode : Nat) : Beside s (s.lowerVoid ep opcode) := by
  unfold State.lowerVoid
  split
  · exact .refl s
  · dsimp only
    split
    · split
      · exact .withPrm s _
      · split
        · exact .withPrm s _
        · exact .withPrm s _
    · exact .refl s

theorem State.pushAbort_beside (s : State) (ep : Nat) : Beside s (s.pushAbort ep) := by
  unfold State.pushAbort
  dsimp only
  split
  · exact .withPrm s _
  · exact .withPrm s _

theorem State.abortInjection_beside (s : State) (ep opcode : Nat) (discard : Bool) :
    Beside s (s.abortInjection ep opcode discard) := by
  unfold State.abortInjection
  dsimp only
  split
  · exact ((((s.pushAbort_beside ep).trans (.withPrm _ _)).trans (.set _ _ (by decide))).trans
      (State.stationHeader_beside ..)).trans (.withPrm _ _)
  · exact s.lowerVoid_beside ep opcode

theorem State.tdRefuse_beside (s : State) (w : List Word) : Beside s (s.tdRefuse w) := by
  have hrec : Beside s ((s.count F.PRM_TD_REFUSE_COUNT).fault uPrm 0x03 2 (srcDst w)) :=
    (Beside.set s _ (by decide)).trans (.fault _ (by decide) ..)
  unfold State.tdRefuse State.stationAnswer
  split
  · exact hrec.trans (State.stationHeader_beside ..)
  · exact hrec

theorem detachPort_beside (s : State) (ep : Nat) : Beside s (detachPort s ep) := by
  unfold detachPort
  refine ((s.abortInjection_beside ep 0x0003 true).trans (.foldl _ _ _ fun s vc => ?_)).trans (.emit _ _)
  split
  · split
    · exact .refl s
    · exact (Beside.withPrm s _).trans (State.tdRefuse_beside ..)
  · exact .refl s

theorem State.tdiError_beside (s : State) (f : Nat) : Beside s (s.tdiError f) := by
  unfold State.tdiError
  split
  · exact (Beside.withPcie s _).trans (.fault _ (by decide) ..)
  · exact .refl s

theorem State.tdiGroupLeft_beside (s : State) (g : Nat) : Beside s (s.tdiGroupLeft g) :=
  .foldl _ _ _ State.tdiError_beside

/-! ### A group's ports and outstanding accesses end (R105, R115, R117, R122) -/

/-- `t` differs from `s` at most in registers, the mesh, the pavilions, the PCIe functions, the APLIC and what has been
sent. -/
def UnloadOnly (s t : State) : Prop :=
  t = { s with regs := t.regs, prm := t.prm, pav := t.pav, pcie := t.pcie, out := t.out, aia := t.aia }

namespace UnloadOnly

theorem trans {a b c : State} (h : UnloadOnly a b) (k : UnloadOnly b c) : UnloadOnly a c := by
  unfold UnloadOnly at *
  rw [k, h]

theorem set (s : State) (f : Fld) (v : Nat) : UnloadOnly s (s.set f v) := rfl

variable {s t : State} (h : UnloadOnly s t)
include h

theorem sameBut : s.sameBut t [.regs, .prm, .pav, .pcie, .out, .aia] := by rw [h]; simp [State.sameBut]
theorem plan : t.plan = s.plan := by rw [h]
theorem clk : t.clk = s.clk := by rw [h]

end UnloadOnly

/-- Of PAV's registers at most `PAV_WIN_DROP` has changed, and what has been sent is only added to. -/
structure Disconnects (s t : State) : Prop where
  only : UnloadOnly s t
  rd : ∀ r, r / 0x1000000 = uPav → r ≠ R.PAV_WIN_DROP → t.rd r = s.rd r
  out : s.out <+: t.out

namespace Disconnects

theorem refl (s : State) : Disconnects s s := ⟨rfl, fun _ _ _ => rfl, List.prefix_rfl⟩

theorem trans {a b c : State} (h : Disconnects a b) (k : Disconnects b c) : Disconnects a c :=
  ⟨h.only.trans k.only, fun r hr hd => (k.rd r hr hd).trans (h.rd r hr hd), h.out.trans k.out⟩

theorem foldl {α : Type} (g : State → α → State) (l : List α) (s : State) (h : ∀ s x, Disconnects s (g s x)) :
    Disconnects s (l.foldl g s) := by
  induction l generalizing s with
  | nil => exact refl s
  | cons x l ih => exact (h s x).trans (ih _)

theorem of_beside {s t : State} (h : Beside s t) : Disconnects s t :=
  ⟨by rw [h.eq]; rfl, fun r hr _ => h.rd r hr, h.out⟩

theorem withPav (s : State) (x : PavState) : Disconnects s (s.withPav x) := ⟨rfl, fun _ _ _ => rfl, List.prefix_rfl⟩
theorem setGrp (s : State) (g : Nat) (x : PavGroup) : Disconnects s (s.setGrp g x) := withPav s _
theorem emit (s : State) (o : Output) : Disconnects s (s.emit o) := of_beside (.emit s o)
theorem emits (s : State) (l : List Output) : Disconnects s (s.emits l) :=
  ⟨rfl, fun _ _ _ => rfl, s.emits_out_prefix l⟩

theorem countDrop (s : State) : Disconnects s (s.count F.PAV_WIN_DROP_COUNT) :=
  ⟨rfl, fun _ _ hd => s.rd_set_ne _ hd, List.prefix_rfl⟩

theorem get {s t : State} (h : Disconnects s t) {f : Fld} (hf : f.off / 0x1000000 = uPav) (hd : f.off ≠ R.PAV_WIN_DROP) :
    t.get f = s.get f := by
  rw [State.get, h.rd _ hf hd, State.get]

end Disconnects

theorem foldl_detachPort (l : List Nat) (s : State) : Beside s (l.foldl detachPort s) := .foldl _ _ _ detachPort_beside

theorem State.detachPorts_disconnects (s : State) (g : Nat) : Disconnects s (s.detachPorts g) := by
  unfold State.detachPorts
  split
  · exact (Disconnects.of_beside (foldl_detachPort _ s)).trans (.setGrp ..)
  · exact .refl s

/-- Detached, whether or not the ports were attached before. -/
theorem State.detachPorts_grp (s : State) (g : Nat) :
    (s.detachPorts g).grp g = { s.grp g with portsUp := false } := by
  unfold State.detachPorts
  split
  · rw [State.setGrp_grp, State.grp_congr (foldl_detachPort _ s).pav]
  · next h => simp [← Bool.eq_false_iff.mpr h]

theorem State.discardHbmReads_disconnects (s : State) (g : Nat) : Disconnects s (s.discardHbmReads g) := .withPav s _

@[simp] theorem State.discardHbmReads_grp (s : State) (g k : Nat) : (s.discardHbmReads g).grp k = s.grp k := rfl

theorem State.windowDrop_disconnects (s : State) (g : Nat) (write : Bool) (tag : Nat) :
    Disconnects s (s.windowDrop g write tag) := by
  have hcount := (Disconnects.setGrp s g { s.grp g with drop := satInc 0xFFFFFFFF (s.grp g).drop }).trans (.countDrop _)
  unfold State.windowDrop
  dsimp only
  split
  · exact hcount
  · exact hcount.trans (.emit _ _)

theorem State.windowDrop_grp (s : State) (g : Nat) (write : Bool) (tag : Nat) :
    (s.windowDrop g write tag).grp g = { s.grp g with drop := satInc 0xFFFFFFFF (s.grp g).drop } := by
  unfold State.windowDrop
  dsimp only
  split <;> simp

theorem State.failReads_disconnects (s : State) (g : Nat) : Disconnects s (s.failReads g) :=
  ((Disconnects.emits s _).trans (.setGrp ..)).trans (.foldl _ _ _ fun s _ => s.windowDrop_disconnects ..)

/-- No access is outstanding; those that the bus still offered are dropped. -/
theorem State.failReads_grp (s : State) (g : Nat) :
    ∃ d, (s.failReads g).grp g = { s.grp g with reads := [], late := 0, bus := [], drop := d } := by
  have hdrops : ∀ (l : List (Bool × Nat × Word × Nat)) (t : State),
      ∃ d, (l.foldl (fun s a => s.windowDrop g a.1 a.2.2.2) t).grp g = { t.grp g with drop := d } := by
    intro l
    induction l with
    | nil => exact fun t => ⟨_, rfl⟩
    | cons a l ih =>
      intro t
      obtain ⟨d, hd⟩ := ih (t.windowDrop g a.1 a.2.2.2)
      exact ⟨d, by rw [List.foldl_cons, hd, State.windowDrop_grp]⟩
  obtain ⟨d, hd⟩ := hdrops (s.grp g).bus ((s.emits _).setGrp g { s.grp g with reads := [], late := 0, bus := [] })
  exact ⟨d, by rw [State.failReads, hd, State.setGrp_grp]⟩

/-- The group's ports and outstanding accesses end. -/
def State.endPorts (s : State) (g : Nat) : State := ((s.detachPorts g).discardHbmReads g).failReads g

theorem State.endPorts_disconnects (s : State) (g : Nat) : Disconnects s (s.endPorts g) :=
  ((s.detachPorts_disconnects g).trans (State.discardHbmReads_disconnects ..)).trans (State.failReads_disconnects ..)

theorem State.endPorts_grp (s : State) (g : Nat) :
    ∃ d, (s.endPorts g).grp g =
      { s.grp g with portsUp := false, reads := [], late := 0, bus := [], drop := d } := by
  obtain ⟨d, hd⟩ := State.failReads_grp ((s.detachPorts g).discardHbmReads g) g
  exact ⟨d, by rw [State.endPorts, hd, State.discardHbmReads_grp, State.detachPorts_grp]⟩

/-! ### Unloading (R105) -/

theorem State.setGrpState_disconnects (s : State) (g st : Nat) :
    ∃ u, Disconnects s u ∧ u.pav = s.pav ∧ s.setGrpState g st = u.set (F.PAV_GRP_STATE_STATE g) st := by
  unfold State.setGrpState
  split
  · exact ⟨_, .of_beside (s.tdiGroupLeft_beside g), (s.tdiGroupLeft_beside g).pav, rfl⟩
  · exact ⟨s, .refl s, rfl, rfl⟩

/-- The register of a group that exists stands in PAV's block. -/
theorem grpStateReg_unit {g : Nat} (hg : g < 64) : R.PAV_GRP_STATE g / 0x1000000 = uPav := by
  simp only [R.PAV_GRP_STATE, uPav]
  omega

/-- UNLOADING is shown, and then the group is disconnected. -/
theorem State.unloading_disconnects (s : State) (g : Nat) :
    ∃ u, Disconnects s u ∧ Disconnects (u.set (F.PAV_GRP_STATE_STATE g) gUnloading) (s.unloading g) := by
  obtain ⟨u, hu, -, hset⟩ := s.setGrpState_disconnects g gUnloading
  refine ⟨u, hu, ?_⟩
  rw [State.unloading, hset]
  exact (((Disconnects.setGrp ..).trans (State.endPorts_disconnects ..)).trans (.setGrp ..)).trans (.emit ..)

/-- The group's clocks are off, its ports detached, its accesses ended, and its accepted writes drain. -/
theorem State.unloading_grp (s : State) (g : Nat) :
    ∃ d, (s.unloading g).grp g = { s.grp g with
      clocksOn := false, quiesceReq := false, userReset := false, portsUp := false, reads := [], late := 0, bus := [],
      drop := d, phase := .hbmDrain } := by
  obtain ⟨d, hd⟩ := State.endPorts_grp ((s.setGrpState g gUnloading).setGrp g
    { s.grp g with clocksOn := false, quiesceReq := false, userReset := false }) g
  exact ⟨d, by rw [State.unloading, State.emit_grp, State.setGrp_grp, ← State.endPorts, hd, State.setGrp_grp]⟩

/-- What an unloading group leaves and shows. -/
theorem State.unloading_spec (s : State) {g : Nat} (hg : g < 64) :
    (s.unloading g).grpState g = gUnloading ∧ ((s.unloading g).grp g).phase = .hbmDrain ∧
      ((s.unloading g).grp g).clocksOn = false ∧ ((s.unloading g).grp g).portsUp = false ∧
      ((s.unloading g).grp g).reads = [] ∧ s.sameBut (s.unloading g) [.regs, .prm, .pav, .pcie, .out, .aia] := by
  obtain ⟨u, hu, ht⟩ := s.unloading_disconnects g
  obtain ⟨d, hd⟩ := s.unloading_grp g
  refine ⟨?_, by rw [hd], by rw [hd], by rw [hd], by rw [hd], ?_⟩
  · rw [State.grpState, ht.get (grpStateReg_unit hg) (grpStateReg_ne (by decide))]
    exact State.get_set_of_lt _ (by simp) (by simp) (by simp [gUnloading])
  · exact ((hu.only.trans (.set ..)).trans ht.only).sameBut

/-! ### What a command records (Table 4-10) -/

theorem State.pavStatus_lastResult (s : State) {result : Nat} (h : result < 2 ^ 8) (g op : Nat) :
    (s.pavStatus result g op).get F.PAV_CMD_STATUS_LAST_RESULT = result := by
  simp only [State.pavStatus, State.sets_cons, State.sets_nil]
  rw [State.get_set_other _ _ (by simp) (by simp) (by simp), State.get_set_other _ _ (by simp) (by simp) (by simp)]
  exact State.get_set_of_lt _ (by simp) (by simp) h

theorem State.pavStatus_rd_ne (s : State) (result g op : Nat) {o : Nat} (h : o ≠ R.PAV_CMD_STATUS) :
    (s.pavStatus result g op).rd o = s.rd o := s.rd_sets_ne (by simpa using h)

@[simp] theorem State.pavStatus_pav (s : State) (result g op : Nat) : (s.pavStatus result g op).pav = s.pav := by
  simp [State.pavStatus]
@[simp] theorem State.pavStatus_grp (s : State) (result g op k : Nat) : (s.pavStatus result g op).grp k = s.grp k :=
  State.grp_congr (s.pavStatus_pav result g op) k
@[simp] theorem State.pavStatus_out (s : State) (result g op : Nat) : (s.pavStatus result g op).out = s.out := by
  simp [State.pavStatus]

/-- A command that changes only pavilions and what is sent, and then shows result 0. -/
theorem State.pavStatus_ok {s t : State} (h : s.sameBut t [.pav, .out]) (g op : Nat) :
    (t.pavStatus 0 g op).get F.PAV_CMD_STATUS_LAST_RESULT = 0 ∧
      s.sameRegs (t.pavStatus 0 g op) [R.PAV_CMD_STATUS] ∧ s.sameBut (t.pavStatus 0 g op) [.regs, .pav, .out] := by
  have hregs : t.regs = s.regs := h.1 (by simp)
  refine ⟨t.pavStatus_lastResult (by decide) g op, fun r hr => ?_, ?_⟩
  · rw [t.pavStatus_rd_ne _ _ _ (by simpa using hr), State.rd_congr hregs]
  · simp [State.sameBut, State.pavStatus] at h ⊢
    simp [h]

/-! ### User reset (R123) -/

@[simp] theorem State.mapFabric_grp (s : State) (g k : Nat) (f : Fabric → Fabric) : (s.mapFabric g f).grp k = s.grp k := by
  obtain ⟨x, h⟩ := s.mapFabric_eq_withPav g f
  rw [h]
  rfl

@[simp] theorem State.mapFabric_out (s : State) (g : Nat) (f : Fabric → Fabric) : (s.mapFabric g f).out = s.out := by
  obtain ⟨x, h⟩ := s.mapFabric_eq_withPav g f
  rw [h]
  rfl

/-- A release begins with user reset, and touches the pavilions and tenant logic only. -/
theorem State.beginRelease_spec (s : State) (g : Nat) (at' : Option Nat) :
    (s.beginRelease g at').grp g = { s.grp g with phase := .release, userReset := true, relAt := at' } ∧
      (s.beginRelease g at').out = s.out ++ [.tenant g "USER_RESET" 1] ∧ s.sameBut (s.beginRelease g at') [.pav, .out] := by
  refine ⟨by simp [State.beginRelease], by simp [State.beginRelease, State.emit], ?_⟩
  obtain ⟨x, h⟩ := State.mapFabric_eq_withPav
    (s.setGrp g { s.grp g with phase := .release, userReset := true, relAt := at' }) g Fabric.userReset
  rw [State.beginRelease, h]
  simp [State.sameBut, State.setGrp]

/-! ### The clauses of O19 -/

/-- Settles O19, clause by clause. -/
theorem pavilionUnloadAndRelease : Obligations.PavilionUnloadAndRelease := by
  unfold Obligations.PavilionUnloadAndRelease
  refine ⟨?unload, ?ack, ?ackEarly, ?grace, ?drained, ?release, ?releaseUpset, ?tenantRelease, ?userReset⟩
  case unload =>
    intro s g grace _ hfirst hamend hst hack hgrace
    have arm : exec (.pavUnload g grace) s = .next (((s.setGrp g { s.grp g with phase := .grace, quiesceReq := true }).emit
        (.tenant g "QUIESCE_REQ" 1)).pavStatus 0 g 2) := by
      show execPavUnload g grace s = _
      simp [execPavUnload, State.pavUnloadCmd, hfirst, hamend, hst, hack, hgrace]
    have hbut : s.sameBut ((s.setGrp g { s.grp g with phase := .grace, quiesceReq := true }).emit
        (.tenant g "QUIESCE_REQ" 1)) [.pav, .out] := by simp [State.sameBut, State.setGrp]
    obtain ⟨hresult, hregs, hsame⟩ := State.pavStatus_ok hbut g 2
    refine ⟨_, arm, by simp, by simp, by simp [State.emit], ?_, hresult, hregs, hsame⟩
    rw [State.grpState, State.get, hregs _ (by simpa using grpStateReg_ne (by decide)), ← State.get, ← State.grpState, hst]
  case ack =>
    intro s g hg hp hh
    have arm : exec (.quiesceAck g) s = .next ((s.setGrp g { s.grp g with quiesceAck := true }).unloading g) := by
      show execQuiesceAck g s = _
      simp [execQuiesceAck, hp, hh]
    obtain ⟨hst, hphase, hclk, hports, hreads, hbut⟩ :=
      (s.setGrp g { s.grp g with quiesceAck := true }).unloading_spec hg
    refine ⟨_, arm, hst, hphase, hclk, hports, hreads, ?_⟩
    simp [State.sameBut, State.setGrp] at hbut ⊢
    exact hbut
  case ackEarly =>
    intro s g hp hh
    have arm : exec (.quiesceAck g) s = .next (s.setGrp g { s.grp g with quiesceAck := true }) := by
      show execQuiesceAck g s = _
      simp [execQuiesceAck, hp, hh]
    exact ⟨_, arm, s.setGrp_grp .., s.setGrp_sameBut ..⟩
  case grace =>
    intro s g hg hp hh
    have arm : exec (.graceExpiry g) s = .next (s.unloading g) := by
      show execGraceExpiry g s = _
      simp [execGraceExpiry, hp, hh]
    exact ⟨_, arm, s.unloading_spec hg⟩
  case drained =>
    intro s g hp hh hw
    have arm : exec (.pavHbmWritesDone g) s = .next (s.startScrub g false) :=
      if_pos ⟨hp, by rw [hh]; rfl, by rw [hw]; rfl⟩
    exact ⟨_, arm, by simp [State.startScrub], by simp [State.startScrub], by simp [State.startScrub], s.setGrp_sameBut ..⟩
  case release =>
    intro s g _ hfirst hamend hst hupset hviol
    have arm : exec (.pavRelease g) s = .next ((s.beginRelease g (some s.clk.elapsed)).pavStatus 0 g 3) := by
      show execPavRelease g s = _
      simp [execPavRelease, State.pavReleaseCmd, hfirst, hamend, hst, hupset, hviol]
    obtain ⟨hgrp, hout, hbut⟩ := s.beginRelease_spec g (some s.clk.elapsed)
    exact ⟨_, arm, by rw [State.pavStatus_grp, hgrp], by rw [State.pavStatus_grp, hgrp], by rw [State.pavStatus_out, hout],
      State.pavStatus_ok hbut g 3⟩
  case releaseUpset =>
    intro s g _ hfirst hamend hst hupset
    have arm : exec (.pavRelease g) s = .next ((s.capture uPav 0x0A g).pavStatus 0x0A g 3) := by
      show execPavRelease g s = _
      simp [execPavRelease, State.pavReleaseCmd, hfirst, hamend, hst, hupset, State.pavRefuse]
    exact ⟨_, arm, State.pavStatus_lastResult _ (by decide) g 3, State.grp_congr (by simp) g,
      by simp [State.sameBut, State.pavStatus]⟩
  case tenantRelease =>
    intro s g hst hpolicy hupset hviol hamend
    have arm : exec (.pavcRelease g) s = .next (s.beginRelease g none) := by
      show execPavcRelease g s = _
      simp [execPavcRelease, State.pavcGated, State.pavcReleaseWrite, hst, hpolicy, hupset, hviol, hamend]
    obtain ⟨hgrp, hout, hbut⟩ := s.beginRelease_spec g none
    exact ⟨_, arm, by rw [hgrp], by rw [hgrp], hout, hbut⟩
  case userReset =>
    intro s g hst hamend
    have arm : exec (.userReset g) s = .next ((((s.logicRan g).setGrp g { s.grp g with userReset := true }).mapFabric g
        Fabric.userReset).emit (.tenant g "USER_RESET" 1)) := by
      show execUserReset g s = _
      simp [execUserReset, State.pavcGated, State.userResetWrite, hst, hamend]
    obtain ⟨x, hx⟩ := s.logicRan_eq_withPav g
    obtain ⟨y, hy⟩ := State.mapFabric_eq_withPav ((s.logicRan g).setGrp g { s.grp g with userReset := true }) g
      Fabric.userReset
    refine ⟨_, arm, by simp, ?_, ?_⟩
    · rw [hy, hx]
      rfl
    · rw [hy, hx]
      simp [State.sameBut, State.setGrp]

end Sys2Proof.Machine
end

section
/-! SUPPORT. Violations of a pavilion group and the fence. -/

namespace Sys2Proof.Machine

/-! ### What a violation and its fence touch (R120, R122) -/

/-- `t` differs from `s` at most in registers, tiles, the mesh, the pavilions, the PCIe functions, the APLIC, what has been
sent, and the free values taken. -/
def FenceOnly (s t : State) : Prop :=
  t = { s with regs := t.regs, tiles := t.tiles, prm := t.prm, pav := t.pav, pcie := t.pcie, out := t.out, aia := t.aia,
               free := t.free }

theorem FenceOnly.trans {a b c : State} (h : FenceOnly a b) (k : FenceOnly b c) : FenceOnly a c := by
  unfold FenceOnly at *
  rw [k, h]

theorem FenceOnly.sameBut {s t : State} (h : FenceOnly s t) :
    s.sameBut t [.regs, .tiles, .prm, .pav, .pcie, .out, .aia, .free] := by
  rw [h]
  simp [State.sameBut]

theorem FenceOnly.of_sameBut {s t : State} (h : s.sameBut t [.regs, .tiles, .prm, .pav, .pcie, .out, .aia, .free]) :
    FenceOnly s t := by
  cases s
  cases t
  simp_all [State.sameBut, FenceOnly]

theorem FenceOnly.of_unloadOnly {s t : State} (h : UnloadOnly s t) : FenceOnly s t := by
  rw [h]
  rfl

theorem errStatus_unit : errStatus uPav / 0x1000000 = uPav := by decide
theorem errStatus_ne_winDrop : errStatus uPav ≠ R.PAV_WIN_DROP := by decide
theorem errStatus_lt_grpStateReg : errStatus uPav < R.PAV_GRP_STATE 0 := by decide

/-- What has been sent is only added to, no status bit of PAV clears, and `VIOL` of every group stays. -/
structure Fences (s t : State) : Prop where
  only : FenceOnly s t
  out : s.out <+: t.out
  errors : ∀ b, s.hasError uPav b → t.hasError uPav b
  viol : ∀ g < 64, t.get (F.PAV_GRP_STATE_VIOL g) = s.get (F.PAV_GRP_STATE_VIOL g)

/-- A status bit is set, and none clears. -/
theorem State.setStatus_hasError (s : State) (u : Nat) {b c : Nat} (hb : b < 64) (h : c = b ∨ s.hasError u c) :
    (s.setStatus u b).hasError u c := by
  simp only [State.hasError, State.setStatus, State.get] at *
  rw [State.fltRefresh_rd_ne _ _ _ (errStatus_ne_summary u), State.rd_wr_same, setBit]
  by_cases hcb : c = b
  · subst hcb
    rw [bitsAt_setBits_same _ _ _ _ (Nat.le_refl c) hb]
    simp
  · rw [bitsAt_setBits_other _ _ _ _ _ _ (Nat.le_refl b) hb (by omega)]
    exact h.resolve_left hcb

namespace Fences

theorem refl (s : State) : Fences s s := ⟨rfl, List.prefix_rfl, fun _ h => h, fun _ _ => rfl⟩

theorem trans {a b c : State} (h : Fences a b) (k : Fences b c) : Fences a c :=
  ⟨h.only.trans k.only, h.out.trans k.out, fun i hi => k.errors i (h.errors i hi),
    fun g hg => (k.viol g hg).trans (h.viol g hg)⟩

theorem foldl {α : Type} (f : State → α → State) (l : List α) (s : State) (h : ∀ s x, Fences s (f s x)) :
    Fences s (l.foldl f s) := by
  induction l generalizing s with
  | nil => exact refl s
  | cons x l ih => exact (h s x).trans (ih _)

theorem of_disconnects {s t : State} (h : Disconnects s t) : Fences s t :=
  ⟨.of_unloadOnly h.only, h.out,
    fun b hb => (h.get (f := ⟨errStatus uPav, b, b⟩) errStatus_unit errStatus_ne_winDrop).trans hb,
    fun g hg => h.get (grpStateReg_unit hg) (grpStateReg_ne (by decide))⟩

theorem setGrp (s : State) (g : Nat) (x : PavGroup) : Fences s (s.setGrp g x) := of_disconnects (.setGrp s g x)

/-- A field below `VIOL` of a register of group state is set. -/
theorem set (s : State) (g v : Nat) {hi lo : Nat} (hl : lo ≤ hi) (hh : hi < 40) :
    Fences s (s.set ⟨R.PAV_GRP_STATE g, hi, lo⟩ v) :=
  ⟨rfl, List.prefix_rfl, fun _ hb => (s.get_set_ne v (grpStateReg_ne errStatus_lt_grpStateReg).symm).trans hb,
    fun _ _ => s.get_set_other v hl (by simp; omega) (.inr (.inl (by simpa using hh)))⟩

theorem setTile (s : State) (k : Nat) (x : Tile) : Fences s (s.setTile k x) :=
  ⟨rfl, List.prefix_rfl, fun _ h => h, fun _ _ => rfl⟩

theorem setStatus (s : State) {b : Nat} (hb : b < 64) : Fences s (s.setStatus uPav b) where
  only := .of_sameBut (by simp [State.sameBut])
  out := s.setStatus_out_prefix uPav b
  errors _ h := s.setStatus_hasError uPav hb (.inr h)
  viol g _ := by
    rw [State.get, s.setStatus_rd_ne _ _ _ (grpStateReg_ne (by decide)) (grpStateReg_ne (by decide)), State.get]

theorem logicRan (s : State) (g : Nat) : Fences s (s.logicRan g) := by
  obtain ⟨x, h⟩ := s.logicRan_eq_withPav g
  rw [h]
  exact ⟨rfl, List.prefix_rfl, fun _ h => h, fun _ _ => rfl⟩

theorem grpAwake (s : State) (g : Nat) : Fences s (s.grpAwake g) := by
  refine (set s g 0 (by decide) (by decide)).trans (.foldl _ _ _ fun s m => ?_)
  unfold State.powerUp
  dsimp only
  split
  · exact .refl s
  · exact .setTile s _ _

theorem setGrpState (s : State) (g st : Nat) : Fences s (s.setGrpState g st) := by
  obtain ⟨u, hu, -, h⟩ := s.setGrpState_disconnects g st
  rw [h]
  exact (of_disconnects hu).trans (set u g st (by decide) (by decide))

theorem unloading (s : State) (g : Nat) : Fences s (s.unloading g) := by
  obtain ⟨u, hu, ht⟩ := s.unloading_disconnects g
  exact ((of_disconnects hu).trans (set u g gUnloading (by decide) (by decide))).trans (of_disconnects ht)

end Fences

/-! ### The fence (R122) -/

/-- FENCED is entered: it is shown, and the clocks stop. -/
def State.fenceEntry (s : State) (g : Nat) : State :=
  (s.setGrpState g gFenced).setGrp g
    { s.grp g with clocksOn := false, phase := .idle, userReset := false, fencedAt := some s.clk.elapsed }

/-- The state in which the fence looks for a pending UNLOAD. -/
def State.fenceStops (s : State) (g : Nat) : State :=
  ((((s.fenceEntry g).logicRan g).endPorts g).setStatus uPav 2).grpAwake g

theorem State.fence_eq (s : State) (g : Nat) :
    s.fence g = if (s.grp g).phase == .grace then (s.fenceStops g).unloading g else s.fenceStops g := rfl

theorem State.fenceStops_fences (s : State) (g : Nat) : Fences s (s.fenceStops g) :=
  (((((Fences.setGrpState s g gFenced).trans (.setGrp ..)).trans (.logicRan ..)).trans
    (.of_disconnects (State.endPorts_disconnects ..))).trans (.setStatus _ (by decide))).trans (.grpAwake ..)

@[simp] theorem State.grpAwake_pav (s : State) (g : Nat) : (s.grpAwake g).pav = s.pav := by
  refine foldl_part (fun s : State => s.pav) _ _ _ fun s m => ?_
  unfold State.powerUp
  dsimp only
  split <;> rfl

@[simp] theorem State.grpAwake_grp (s : State) (g k : Nat) : (s.grpAwake g).grp k = s.grp k :=
  State.grp_congr (s.grpAwake_pav g) k

@[simp] theorem State.setStatus_grp (s : State) (u b k : Nat) : (s.setStatus u b).grp k = s.grp k :=
  State.grp_congr (s.setStatus_pav u b) k

/-- The group's clocks stop, its ports are detached and its accesses ended. -/
theorem State.fenceStops_grp (s : State) (g : Nat) :
    ∃ d, (s.fenceStops g).grp g = { s.grp g with
      clocksOn := false, phase := .idle, userReset := false, fencedAt := some s.clk.elapsed, portsUp := false,
      reads := [], late := 0, bus := [], drop := d } := by
  obtain ⟨d, hd⟩ := State.endPorts_grp ((s.fenceEntry g).logicRan g) g
  refine ⟨d, ?_⟩
  rw [State.fenceStops, State.grpAwake_grp, State.setStatus_grp, hd, State.logicRan_grp, State.fenceEntry,
    State.setGrp_grp]

/-- Waking the group's tiles changes no register but the group's `SLEEP`. -/
theorem State.grpAwake_get (s : State) (g : Nat) {f : Fld} (h : f.off ≠ R.PAV_GRP_STATE g ∨ 3 < f.lo ∨ f.hi < 3) :
    (s.grpAwake g).get f = s.get f := by
  refine (foldl_part (fun s : State => s.get f) _ _ _ fun s m => ?_).trans
    (s.get_set_other 0 (f := F.PAV_GRP_STATE_SLEEP g) (by simp) (by simp) h)
  unfold State.powerUp
  dsimp only
  split <;> rfl

/-- FENCED is shown, and its status bit is set. -/
theorem State.fenceStops_fenced (s : State) {g : Nat} (hg : g < 64) :
    (s.fenceStops g).grpState g = gFenced ∧ (s.fenceStops g).hasError uPav 2 := by
  constructor
  · obtain ⟨u, -, -, hset⟩ := s.setGrpState_disconnects g gFenced
    rw [State.fenceStops, State.grpState, State.grpAwake_get _ _ (by simp), State.get,
      State.setStatus_rd_ne _ _ _ _ (grpStateReg_ne (by decide)) (grpStateReg_ne (by decide)),
      (State.endPorts_disconnects ..).rd _ (grpStateReg_unit hg) (grpStateReg_ne (by decide)), State.logicRan_rd,
      State.fenceEntry, State.setGrp_rd, hset]
    exact u.get_set_of_lt (f := F.PAV_GRP_STATE_STATE g) (by simp) (by simp) (by simp [gFenced])
  · exact (Fences.grpAwake _ g).errors _ (State.setStatus_hasError _ _ (by decide) (.inl rfl))

/-- A fence proceeds to a pending UNLOAD, and keeps the group's counts. -/
theorem State.fence_fences (s : State) (g : Nat) : Fences s (s.fence g) := by
  rw [State.fence_eq]
  split
  · exact (s.fenceStops_fences g).trans (.unloading ..)
  · exact s.fenceStops_fences g

theorem State.fence_viols (s : State) (g : Nat) : ((s.fence g).grp g).viols = (s.grp g).viols := by
  obtain ⟨d, hd⟩ := s.fenceStops_grp g
  rw [State.fence_eq]
  split
  · obtain ⟨e, he⟩ := (s.fenceStops g).unloading_grp g
    rw [he, hd]
  · rw [hd]

/-! ### The record of a violation (R120, R121) -/

/-- A condition of PAV is recorded. -/
theorem Fences.fault (s : State) (c e : Nat) {b : Nat} (hb : b < 64) : Fences s (s.fault uPav c b e) := by
  refine ⟨.of_sameBut (by simp [State.sameBut]), s.fault_out_prefix .., fun i h => ?_, fun g _ => ?_⟩
  · refine State.setStatus_hasError _ _ hb (.inr ?_)
    rw [State.hasError, State.get, s.capture_rd_ne _ _ _ _ (errStatus_ne_errFirst _) (errStatus_ne_errCount _)]
    exact h
  · exact s.fault_get_ne _ _ _ _ _ (grpStateReg_ne (by decide)) (grpStateReg_ne (by decide)) (grpStateReg_ne (by decide))
      (grpStateReg_ne (by decide))

theorem State.fault_hasError (s : State) (c e : Nat) {b : Nat} (hb : b < 64) : (s.fault uPav c b e).hasError uPav b :=
  s.fault_status _ _ _ _ hb (by simp) (by simp) (by simp)

@[simp] theorem State.fault_grp (s : State) (u c b e g : Nat) : (s.fault u c b e).grp g = s.grp g :=
  State.grp_congr (s.fault_pav u c b e) g

/-- A refused command other than LOAD changes PAV's own registers only (Table 4-10). -/
theorem State.pavRefuse_sameBut (s : State) (cond g : Nat) {op : Nat} (hop : op ≠ 1) :
    s.sameBut (s.pavRefuse cond g op) [.regs] := by
  simp [State.sameBut, State.pavRefuse, State.pavStatus, hop]

/-- No group's state is among them. -/
theorem State.pavRefuse_get_group (s : State) (cond g : Nat) {op : Nat} (hop : op ≠ 1) {f : Fld} {k : Nat}
    (hf : f.off = R.PAV_GRP_STATE k) : (s.pavRefuse cond g op).get f = s.get f := by
  rw [State.get, State.pavRefuse, if_neg hop, hf, State.pavStatus_rd_ne _ _ _ _ (grpStateReg_ne (by decide)),
    s.capture_rd_ne _ _ _ _ (grpStateReg_ne (by decide)) (grpStateReg_ne (by decide)), State.get, hf]

/-- The group as a violation of condition `cond` leaves it: counted, and marked where the upset is uncorrectable. -/
def State.violGrp (s : State) (g cond : Nat) : PavGroup :=
  { s.grp g with
    viols := satInc 0xFFFFFFFF (s.grp g).viols
    upset := (s.grp g).upset || (cond == 0x16 && (s.grpState g == gRunning || s.grpState g == gFenced))
    violAt := some s.clk.elapsed }

/-- The condition that `VIOL` shows: of two at one instant the lower (Table 4-8). -/
def State.violShown (s : State) (g cond : Nat) : Nat :=
  if s.violNow g then min cond (s.get (F.PAV_GRP_STATE_VIOL g)) else cond

/-- An operator's RELEASE of this very instant is refused (Table 4-8). -/
def State.violRefuses (s : State) (g : Nat) : State :=
  if (s.grp g).phase = .release ∧ (s.grp g).relAt = some s.clk.elapsed then s.pavRefuse 0x0A g 3 else s

/-- A violation shown in `VIOL` and counted, before its condition is recorded. -/
def State.violCounted (s : State) (g cond : Nat) : State :=
  (((s.violRefuses g).setGrp g (s.violGrp g cond)).set (F.PAV_GRP_STATE_VIOL g) (s.violShown g cond)).count
    F.PAV_VIOL_COUNT_COUNT

theorem State.violRecord_eq (s : State) (g cond : Nat) :
    s.violRecord g cond = if cond = 0x16 then ((s.violCounted g cond).fault uPav cond 3 g).setStatus uPav 1
      else (s.violCounted g cond).fault uPav cond 1 g := rfl

theorem State.violRefuses_sameBut (s : State) (g : Nat) : s.sameBut (s.violRefuses g) [.regs] := by
  unfold State.violRefuses
  split
  · exact s.pavRefuse_sameBut _ _ (by decide)
  · simp [State.sameBut]

theorem State.violRefuses_get_group (s : State) (g : Nat) {f : Fld} {k : Nat} (hf : f.off = R.PAV_GRP_STATE k) :
    (s.violRefuses g).get f = s.get f := by
  unfold State.violRefuses
  split
  · exact s.pavRefuse_get_group _ _ (by decide) hf
  · rfl

/-- Counting a violation changes registers and the group. -/
theorem State.violCounted_sameBut (s : State) (g cond : Nat) : s.sameBut (s.violCounted g cond) [.regs, .pav] := by
  have h := s.violRefuses_sameBut g
  simp only [State.violCounted, State.setGrp]
  simp [State.sameBut] at h ⊢
  simp [h]

theorem State.violCounted_grp (s : State) (g cond : Nat) : (s.violCounted g cond).grp g = s.violGrp g cond := by
  rw [State.violCounted, State.count_grp, State.set_grp, State.setGrp_grp]

theorem State.violCounted_viol (s : State) (g : Nat) {cond : Nat} (hc : cond < 2 ^ 8) :
    (s.violCounted g cond).get (F.PAV_GRP_STATE_VIOL g) = s.violShown g cond := by
  have hshown : s.violShown g cond < 2 ^ 8 := by
    unfold State.violShown
    split <;> omega
  rw [State.violCounted, State.count, State.get_set_ne _ _ (grpStateReg_ne (by decide))]
  exact State.get_set_of_lt _ (by simp) (by simp) hshown

theorem State.violCounted_grpState (s : State) (g cond : Nat) : (s.violCounted g cond).grpState g = s.grpState g := by
  rw [State.violCounted, State.grpState, State.count, State.get_set_ne _ _ (grpStateReg_ne (by decide)),
    State.get_set_other _ _ (by simp) (by simp) (by simp), State.setGrp_get,
    s.violRefuses_get_group g rfl, State.grpState]

/-- Every violation is counted for its group, sets `VIOL`, and is recorded with PAV's status bit of violations. -/
theorem State.violRecord_spec (s : State) (g cond : Nat) :
    FenceOnly s (s.violRecord g cond) ∧ s.out <+: (s.violRecord g cond).out ∧ (s.violRecord g cond).hasError uPav 1 ∧
      (s.violRecord g cond).grp g = s.violGrp g cond := by
  have hbut := s.violCounted_sameBut g cond
  have honly : FenceOnly s (s.violCounted g cond) := .of_sameBut (by simp [State.sameBut] at hbut ⊢; simp [hbut])
  have hout : (s.violCounted g cond).out = s.out := by simp [State.sameBut] at hbut; simp [hbut]
  have hgrp := s.violCounted_grp g cond
  rw [State.violRecord_eq]
  split
  · have h := (Fences.fault (s.violCounted g cond) cond g (b := 3) (by decide)).trans (.setStatus _ (b := 1) (by decide))
    exact ⟨honly.trans h.only, hout ▸ h.out, State.setStatus_hasError _ _ (by decide) (.inl rfl),
      by rw [State.setStatus_grp, State.fault_grp, hgrp]⟩
  · have h := Fences.fault (s.violCounted g cond) cond g (b := 1) (by decide)
    exact ⟨honly.trans h.only, hout ▸ h.out, State.fault_hasError _ _ _ (by decide), by rw [State.fault_grp, hgrp]⟩

/-- An uncorrectable upset: its own status bit is set too, and the group's register shows it (R121). -/
theorem State.violRecord_upset (s : State) {g : Nat} (hg : g < 64) :
    (s.violRecord g 0x16).hasError uPav 3 ∧ (s.violRecord g 0x16).grpState g = s.grpState g ∧
      (s.violRecord g 0x16).get (F.PAV_GRP_STATE_VIOL g) = s.violShown g 0x16 := by
  have h := (Fences.fault (s.violCounted g 0x16) 0x16 g (b := 3) (by decide)).trans (.setStatus _ (b := 1) (by decide))
  rw [State.violRecord_eq, if_pos rfl]
  refine ⟨State.setStatus_hasError _ _ (by decide) (.inr (State.fault_hasError _ _ _ (by decide))), ?_,
    (h.viol g hg).trans (s.violCounted_viol g (by decide))⟩
  rw [State.grpState, State.get, State.setStatus_rd_ne _ _ _ _ (grpStateReg_ne (by decide)) (grpStateReg_ne (by decide)),
    State.fault_rd_ne _ _ _ _ _ _ (grpStateReg_ne (by decide)) (grpStateReg_ne (by decide)) (grpStateReg_ne (by decide))
      (grpStateReg_ne (by decide)), ← s.violCounted_grpState g 0x16, State.grpState, State.get]

/-! ### Violations (R120) -/

theorem State.violFence_fences (s : State) (g : Nat) : Fences s (s.violFence g) := by
  unfold State.violFence
  split
  · exact s.fence_fences g
  · split
    · exact .setGrp ..
    · exact .refl s

theorem State.violFence_viols (s : State) (g : Nat) : ((s.violFence g).grp g).viols = (s.grp g).viols := by
  unfold State.violFence
  split
  · exact s.fence_viols g
  · split
    · rw [State.setGrp_grp]
    · rfl

/-- A violation is counted and recorded, whether or not it fences. -/
theorem State.violation_spec (s : State) (g cond : Nat) :
    FenceOnly s (s.violation g cond) ∧ s.out <+: (s.violation g cond).out ∧ (s.violation g cond).hasError uPav 1 ∧
      ((s.violation g cond).grp g).viols = satInc 0xFFFFFFFF (s.grp g).viols := by
  obtain ⟨honly, hout, herr, hgrp⟩ := s.violRecord_spec g cond
  unfold State.violation
  dsimp only
  split
  · have h := State.violFence_fences (s.violRecord g cond) g
    exact ⟨honly.trans h.only, hout.trans h.out, h.errors 1 herr, by rw [State.violFence_viols, hgrp]; rfl⟩
  · exact ⟨honly, hout, herr, by rw [hgrp]; rfl⟩

/-- An uncorrectable upset fences a RUNNING group (R121). -/
theorem State.violation_upset {s : State} {g : Nat} (hg : g < 64) (hst : s.grpState g = gRunning) :
    s.violation g 0x16 = (s.violRecord g 0x16).fence g := by
  have hpolicy : (s.violRecord g 0x16).policyFences 0x16 = true := by simp [State.policyFences]
  rw [State.violation, if_pos hpolicy, State.violFence, if_pos ((s.violRecord_upset hg).2.1.trans hst)]

end Sys2Proof.Machine
end

section
/-! SUPPORT. The ports, the register window and the sleep of a pavilion group, and O20. -/

namespace Sys2Proof.Machine

/-! ### Bytes that a masked write stores (R115) -/

theorem State.putMasked_eq (s : State) (a : Nat) (mask : Word) (data : List Byte) (n : Nat) :
    ∃ m p z, s.putMasked a mask data n = { s with mem := m, poison := p, zeroMap := z } := by
  induction n with
  | zero => exact ⟨s.mem, s.poison, s.zeroMap, rfl⟩
  | succ n ih =>
    obtain ⟨m, p, z, h⟩ := ih
    rw [State.putMasked, h]
    split
    · exact ⟨_, _, _, rfl⟩
    · exact ⟨m, p, z, rfl⟩

/-- A byte of the first `n` whose bit of the mask is set is stored, and no other. -/
theorem State.byte_putMasked (s : State) (a : Nat) (mask : Word) (data : List Byte) (n x : Nat) :
    (s.putMasked a mask data n).byte x =
      if a ≤ x ∧ x < a + n ∧ bitAt mask (x - a) = true then data.getD (x - a) 0 else s.byte x := by
  induction n with
  | zero => rw [if_neg (by omega)]; rfl
  | succ n ih =>
    rw [State.putMasked]
    by_cases hx : x = a + n
    · subst hx
      rw [if_neg (by omega)] at ih
      simp only [Nat.add_sub_cancel_left, Nat.le_add_right, Nat.lt_add_one, Nat.add_lt_add_iff_left, true_and]
      split
      · rw [State.byte_putByte, if_pos rfl]
      · exact ih
    · have hlt : x < a + (n + 1) ↔ x < a + n := by omega
      simp only [hlt]
      split
      · rw [State.byte_putByte, if_neg hx, ih]
      · exact ih

/-! ### The register window (R116, R117) -/

theorem satInc_eq_min (top v : Nat) : satInc top v = min top (v + 1) := by
  unfold satInc
  split <;> omega

@[simp] theorem State.setGrp_grpState (s : State) (g k : Nat) (x : PavGroup) : (s.setGrp g x).grpState k = s.grpState k := rfl
@[simp] theorem State.setGrp_grpHeld (s : State) (g k : Nat) (x : PavGroup) : (s.setGrp g x).grpHeld k = s.grpHeld k := rfl
@[simp] theorem State.emit_grpHeld (s : State) (o : Output) (k : Nat) : (s.emit o).grpHeld k = s.grpHeld k := rfl
@[simp] theorem State.emits_grp (s : State) (l : List Output) (k : Nat) : (s.emits l).grp k = s.grp k := rfl
@[simp] theorem State.busReady_grp (s : State) (g : Nat) (ready : Bool) :
    (s.busReady g ready).grp g = { s.grp g with busBusy := !ready } := s.setGrp_grp ..

/-- What the bus takes: accesses leave the queue in order, and reads wait for their data. -/
theorem State.busRun_disconnects (s : State) (g : Nat) : Disconnects s (s.busRun g) := by
  unfold State.busRun
  dsimp only
  split
  · exact .refl s
  · exact (Disconnects.setGrp ..).trans (.emits ..)

theorem State.busRun_viols (s : State) (g : Nat) : ((s.busRun g).grp g).viols = (s.grp g).viols := by
  unfold State.busRun
  dsimp only
  split
  · rfl
  · rw [State.emits_grp, State.setGrp_grp]

theorem State.busRun_sameBut (s : State) (g : Nat) : s.sameBut (s.busRun g) [.pav, .out] := by
  unfold State.busRun
  dsimp only
  split
  · simp [State.sameBut]
  · simp [State.sameBut, State.setGrp]

/-- An empty queue gives the bus nothing. -/
theorem State.busRun_of_empty {s : State} {g : Nat} (h : (s.grp g).bus = []) :
    (s.busRun g).grp g = s.grp g ∧ (s.busRun g).out = s.out := by
  unfold State.busRun
  dsimp only
  split
  · exact ⟨rfl, rfl⟩
  · rw [h, State.emits_grp, State.setGrp_grp]
    have hsame : { s.grp g with bus := [] } = s.grp g := by rw [← h]
    exact ⟨by simpa [busSplit] using hsame, by simp [busSplit, State.emits]⟩

/-- A free bus takes a read that waits alone. -/
theorem State.busRun_of_read {s : State} {g off tag : Nat} {v : Word} (hbusy : (s.grp g).busBusy = false)
    (hheld : s.grpHeld g = false) (hst : s.grpState g = gRunning) (hroom : (s.grp g).reads.length < 16)
    (hbus : (s.grp g).bus = [(false, off, v, tag)]) :
    s.busRun g = (s.setGrp g { s.grp g with bus := [], reads := (s.grp g).reads ++ [tag] }).emits
      [.tenant g "REG_READ" off] := by
  have hfree : 16 - (s.grp g).reads.length ≠ 0 := by omega
  simp [State.busRun, hbusy, hheld, hst, hbus, busSplit, busOutput, hfree]

/-- A read stands on a bus that is ready. -/
def State.busOffered (s : State) (g off tag : Nat) (v : Word) : State :=
  (s.busReady g true).setGrp g
    { (s.busReady g true).grp g with bus := ((s.busReady g true).grp g).bus ++ [(false, off, v, tag)] }

/-- The oldest read is answered with the data returned. -/
def State.readReturned (s : State) (g tag : Nat) (rest : List Nat) (data : Word) (ready : Bool) : State :=
  ((s.busReady g ready).setGrp g { (s.busReady g ready).grp g with reads := rest }).emit
    (.hostRead tag (natLE 8 data.toNat) false)

/-- The oldest read is answered with the fixed pattern. -/
def State.readTimedOut (s : State) (g tag : Nat) (rest : List Nat) : State :=
  (s.setGrp g { s.grp g with reads := rest, late := (s.grp g).late + 1 }).emit
    (.hostRead tag (List.replicate 8 0xFF) false)

/-! ### The sleep of a group (R119) -/

theorem State.tile_powerUp (s : State) (k n : Nat) :
    ((s.powerUp k).tile n).sky = if n = k then 0 else (s.tile n).sky := by
  unfold State.powerUp
  dsimp only
  split
  · next h =>
    split
    · next hn => rw [hn, h.1]
    · rfl
  · rw [State.tile_setTile]
    split <;> rfl

/-- The members' tiles are awake. -/
theorem State.grpAwake_sky (s : State) {g m : Nat} (hm : m ∈ grpMembers s.plan g) :
    ((s.grpAwake g).tile (284 + m)).sky = 0 := by
  refine foldl_sky (fun s m => ?_) (fun s m n h => ?_) _ _ (.inl hm)
  · rw [State.tile_powerUp, if_pos rfl]
  · rw [State.tile_powerUp]
    split
    · rfl
    · exact h

theorem foldl_powerUp (f : Nat → Nat) (l : List Nat) (s : State) :
    ∃ x, l.foldl (fun s m => s.powerUp (f m)) s = s.withTiles x := by
  induction l generalizing s with
  | nil => exact ⟨s.tiles, rfl⟩
  | cons a l ih =>
    have hone : ∃ x, s.powerUp (f a) = s.withTiles x := by
      unfold State.powerUp
      dsimp only
      split
      · exact ⟨s.tiles, rfl⟩
      · exact ⟨_, rfl⟩
    obtain ⟨x, hx⟩ := hone
    obtain ⟨y, hy⟩ := ih (s.withTiles x)
    exact ⟨y, by rw [List.foldl_cons, hx, hy]; rfl⟩

/-- Waking a group changes its register of state and tiles. -/
theorem State.grpAwake_only (s : State) (g : Nat) :
    ∃ r x, s.grpAwake g = (s.withRegs r).withTiles x ∧ s.sameRegs (s.grpAwake g) [R.PAV_GRP_STATE g] := by
  obtain ⟨x, hx⟩ := foldl_powerUp (284 + ·) (grpMembers s.plan g) (s.set (F.PAV_GRP_STATE_SLEEP g) 0)
  rw [State.grpAwake, hx]
  exact ⟨_, x, rfl, fun r hr => by rw [State.withTiles_rd, State.rd_set_ne _ _ (by simpa using hr)]⟩

/-- `SLEEP` of an awakened group reads 0. -/
theorem State.grpAwake_sleep (s : State) (g : Nat) : (s.grpAwake g).get (F.PAV_GRP_STATE_SLEEP g) = 0 := by
  obtain ⟨x, hx⟩ := foldl_powerUp (284 + ·) (grpMembers s.plan g) (s.set (F.PAV_GRP_STATE_SLEEP g) 0)
  rw [State.grpAwake, hx, State.withTiles_get]
  exact State.get_set_of_lt _ (by simp) (by simp) (by simp)

/-! ### Memory responses (R115, R119) -/

/-- The state that the response to a write leaves before the group looks for Haze. -/
def State.hbmWritten (s : State) (i : Nat) (r : HbmReq) : State :=
  ((s.withPav { s.pav with hbm := s.pav.hbm.eraseIdx i }).hbmWrite r).emit (.hbmResponse r.member r.tag 0 [])

theorem State.hbmWritten_eq (s : State) (i : Nat) (r : HbmReq) :
    ∃ m p z, s.hbmWritten i r = { s with
      mem := m, poison := p, zeroMap := z, pav := { s.pav with hbm := s.pav.hbm.eraseIdx i },
      out := s.out ++ [.hbmResponse r.member r.tag 0 []] } := by
  obtain ⟨m, p, z, h⟩ := State.putMasked_eq (s.withPav { s.pav with hbm := s.pav.hbm.eraseIdx i })
    (grpWindowAddr s.plan ((grpOf s.plan r.member).getD 0) r.addr) r.mask r.data 64
  exact ⟨m, p, z, by rw [State.hbmWritten, State.hbmWrite]; exact congrArg (State.emit · _) h⟩

theorem State.tryHaze_byte (s : State) (g x : Nat) : (s.tryHaze g).byte x = s.byte x := by
  obtain ⟨r, y, hx, -⟩ := s.tryHaze_only g
  rw [hx]
  rfl

theorem State.byte_hbmWritten (s : State) (i : Nat) (r : HbmReq) (x : Nat) :
    (s.hbmWritten i r).byte x =
      let a := grpWindowAddr s.plan ((grpOf s.plan r.member).getD 0) r.addr
      if a ≤ x ∧ x < a + 64 ∧ bitAt r.mask (x - a) = true then r.data.getD (x - a) 0 else s.byte x :=
  State.byte_putMasked (s.withPav { s.pav with hbm := s.pav.hbm.eraseIdx i }) _ r.mask r.data 64 x

/-! ### An uncorrectable upset of a RUNNING group (R121) -/

/-- The group is fenced with the upset marked, whatever it did but quiesce. -/
theorem State.violation_upset_spec {s : State} {g : Nat} (hg : g < 64) (hst : s.grpState g = gRunning)
    (hphase : (s.grp g).phase ≠ .grace) :
    (s.violation g 0x16).grpState g = gFenced ∧ ((s.violation g 0x16).grp g).upset = true ∧
      ((s.violation g 0x16).grp g).clocksOn = false ∧ ((s.violation g 0x16).grp g).portsUp = false ∧
      (s.violation g 0x16).get (F.PAV_GRP_STATE_VIOL g) = s.violShown g 0x16 ∧ (s.violation g 0x16).hasError uPav 3 ∧
      (s.violation g 0x16).hasError uPav 1 ∧ (s.violation g 0x16).hasError uPav 2 := by
  obtain ⟨-, -, herr, hgrp⟩ := s.violRecord_spec g 0x16
  obtain ⟨herr3, -, hviol⟩ := s.violRecord_upset hg
  have hstop : (s.violRecord g 0x16).fence g = (s.violRecord g 0x16).fenceStops g := by
    rw [State.fence_eq, hgrp, if_neg (by simpa [State.violGrp] using hphase)]
  have hkeep := (s.violRecord g 0x16).fenceStops_fences g
  obtain ⟨hfenced, herr2⟩ := (s.violRecord g 0x16).fenceStops_fenced hg
  obtain ⟨d, hd⟩ := (s.violRecord g 0x16).fenceStops_grp g
  rw [State.violation_upset hg hst, hstop, hd, hgrp]
  exact ⟨hfenced, by simp [State.violGrp, hst], rfl, rfl, (hkeep.viol g hg).trans hviol, hkeep.errors 3 herr3,
    hkeep.errors 1 herr, herr2⟩

/-! ### The clauses of O20 -/

/-- Settles O20, clause by clause. -/
theorem pavilionPorts : Obligations.PavilionPorts := by
  unfold Obligations.PavilionPorts
  refine ⟨?clock, ?clockRange, ?cap, ?corrected, ?uncorrectable, ?request, ?requestBeyond, ?writeResponse, ?readResponse,
    ?windowRead, ?windowDropped, ?readReturn, ?readTimeout, ?credit, ?sleepRise, ?sleepFall⟩
  case clock =>
    intro s g k f hlo hhi hamend
    have arm : exec (.pavcClkWrite g k f) s = .next (s.setGrp g { s.grp g with
        khz := (s.grp g).khz.set k f,
        actKhz := (s.grp g).actKhz.set k (min f (s.get (F.PAV_GRP_CLKCAP_MAX_MHZ g) * 1000)) }) := by
      show execPavcClkWrite g k f s = _
      rw [execPavcClkWrite, State.pavcClkWrite, if_neg (by omega), hamend]
      rfl
    exact ⟨_, arm, s.setGrp_grp .., s.setGrp_sameBut ..⟩
  case clockRange =>
    intro s g k f hrange
    have arm : exec (.pavcClkWrite g k f) s = .next (s.capture uPav 0xFF g) := by
      show execPavcClkWrite g k f s = _
      rw [execPavcClkWrite, State.pavcClkWrite, if_pos hrange]
    exact ⟨_, arm, s.capture_get_errCount .., s.capture_sameRegs _ _ _, s.capture_sameBut ..⟩
  case cap =>
    intro s g mhz hlo hhi hfirst hamend
    have arm : exec (.clkcapWrite g mhz) s = .next ((s.set (F.PAV_GRP_CLKCAP_MAX_MHZ g) mhz).setGrp g
        { s.grp g with actKhz := (s.grp g).actKhz.map (min · (mhz * 1000)) }) := by
      show execClkcapWrite g mhz s = _
      rw [execClkcapWrite, State.clkcapWrite, if_neg (by omega), hfirst, hamend]
      rfl
    refine ⟨_, arm, ?_, State.setGrp_grp .., fun r hr => ?_, ?_⟩
    · exact s.get_set_of_lt (by simp) (by simp) (by simp; omega)
    · rw [State.setGrp_rd, s.rd_set_ne _ (by simpa using hr)]
    · simp [State.sameBut, State.setGrp]
  case corrected =>
    intro s m g hof hst hheld
    have arm : exec (.configScan m .corrected) s = .next (s.fault uPav 0x17 4 g) := by
      show execConfigScan m .corrected s = _
      simp [execConfigScan, hof, hst, hheld]
    exact ⟨_, arm, s.fault_hasError _ _ (by decide), s.fault_pav .., by simp [State.sameBut]⟩
  case uncorrectable =>
    intro s m g hg hof hst hphase hheld
    have arm : exec (.configScan m .uncorrectable) s = .next (s.violation g 0x16) := by
      show execConfigScan m .uncorrectable s = _
      simp [execConfigScan, hof, hst, hheld]
    obtain ⟨hfenced, hupset, hclk, hports, hviol, herr3, herr1, herr2⟩ := State.violation_upset_spec hg hst hphase
    exact ⟨_, arm, hfenced, hupset, hclk, hports, hviol, herr3, herr1, herr2, (s.violation_spec g 0x16).1.sameBut⟩
  case request =>
    intro s m g a tag write data mask hof hst hroom ha hheld
    have arm : exec (.pavHbmRequest m write a tag data mask) s = .next (s.withPav { s.pav with
        hbm := s.pav.hbm ++ [⟨m, write, a / 64 * 64, tag, data, mask, false⟩] }) := by
      show execPavHbmRequest m write a tag data mask s = _
      simp [execPavHbmRequest, hof, hst, hheld, Nat.not_le.mpr hroom, Nat.not_le.mpr ha]
    exact ⟨_, arm, rfl, by simp [State.sameBut]⟩
  case requestBeyond =>
    intro s m g a tag write data mask hof hst hroom ha hheld
    have arm : exec (.pavHbmRequest m write a tag data mask) s =
        .next ((s.emit (.hbmResponse m tag 1 [])).violation g 0x14) := by
      show execPavHbmRequest m write a tag data mask s = _
      simp [execPavHbmRequest, hof, hst, hheld, Nat.not_le.mpr hroom, ha]
    obtain ⟨honly, hout, herr, -⟩ := (s.emit (.hbmResponse m tag 1 [])).violation_spec g 0x14
    have hfirst : FenceOnly s (s.emit (.hbmResponse m tag 1 [])) := rfl
    exact ⟨_, arm, hout.subset (by simp [State.emit]), herr, (hfirst.trans honly).sameBut⟩
  case writeResponse =>
    intro s i ecc r hr hturn hwrite hheld
    have arm : exec (.pavHbmResponse i ecc) s =
        .next ((s.hbmWritten i r).tryHaze ((grpOf s.plan r.member).getD 0)) := by
      show execPavHbmResponse i ecc s = _
      simp [execPavHbmResponse, hr, hturn, hwrite, hheld, State.hbmWritten]
    obtain ⟨m, p, z, ht⟩ := s.hbmWritten_eq i r
    obtain ⟨q, x, hx, hregs⟩ := (s.hbmWritten i r).tryHaze_only ((grpOf s.plan r.member).getD 0)
    refine ⟨_, arm, by rw [hx, ht]; rfl, by rw [hx, ht]; rfl, fun k hk => ?_, fun b hb => ?_,
      fun o ho => (hregs o ho).trans (by rw [ht]; rfl), by rw [hx, ht]; simp [State.sameBut]⟩
    · rw [State.tryHaze_byte, State.byte_hbmWritten]
      simp [hk]
    · rw [State.tryHaze_byte, State.byte_hbmWritten, if_neg (by omega)]
  case readResponse =>
    intro s i r hr hturn hwrite hkeep hclean hheld
    have arm : exec (.pavHbmResponse i .clean) s =
        .next (((s.withPav { s.pav with hbm := s.pav.hbm.eraseIdx i }).emit (.hbmResponse r.member r.tag 0
          (s.bytes (grpWindowAddr s.plan ((grpOf s.plan r.member).getD 0) r.addr) 64))).tryHaze
            ((grpOf s.plan r.member).getD 0)) := by
      show execPavHbmResponse i .clean s = _
      simp [execPavHbmResponse, hr, hturn, hwrite, hkeep, hclean, hheld, EccResult.bad, State.memRead]
    obtain ⟨q, x, hx, hregs⟩ := State.tryHaze_only ((s.withPav { s.pav with hbm := s.pav.hbm.eraseIdx i }).emit
      (.hbmResponse r.member r.tag 0 (s.bytes (grpWindowAddr s.plan ((grpOf s.plan r.member).getD 0) r.addr) 64)))
      ((grpOf s.plan r.member).getD 0)
    exact ⟨_, arm, by rw [hx]; rfl, hregs, by rw [hx]; simp [State.sameBut]⟩
  case windowRead =>
    intro s g off tag v halign hwindow hst hsleep hroom hbus hheld
    have arm : exec (.regWindowAccess g false off v ⟨tag, true⟩) s = .next ((s.busOffered g off tag v).busRun g) := by
      show execRegWindowAccess g false off v ⟨tag, true⟩ s = _
      rw [execRegWindowAccess, State.windowAccess, if_neg (by omega), if_neg (by omega), State.busReady,
        State.setGrp_grpState, if_pos hst, State.setGrp_get, if_neg (by omega), State.busOffered, State.busReady]
    have hgrp : (s.busOffered g off tag v).grp g =
        { s.grp g with busBusy := false, bus := [(false, off, v, tag)] } := by
      simp [State.busOffered, hbus]
    have htake := State.busRun_of_read (s := s.busOffered g off tag v) (by rw [hgrp]) hheld hst
      (by rw [hgrp]; exact hroom) (by rw [hgrp])
    rw [htake, hgrp] at arm
    refine ⟨_, arm, ?_, rfl, ?_⟩
    · rw [State.emits_grp, State.setGrp_grp, ← hbus]
    · simp [State.sameBut, State.setGrp, State.busOffered, State.busReady]
  case windowDropped =>
    intro s g off tag v ready halign hwindow hst
    have arm : exec (.regWindowAccess g false off v ⟨tag, ready⟩) s =
        .next ((s.busReady g ready).windowDrop g false tag) := by
      show execRegWindowAccess g false off v ⟨tag, ready⟩ s = _
      rw [execRegWindowAccess, State.windowAccess, if_neg (by omega), if_neg (by omega)]
      exact congrArg _ (if_neg hst)
    have hcount := ((s.busReady g ready).setGrp g
      { (s.busReady g ready).grp g with drop := satInc 0xFFFFFFFF ((s.busReady g ready).grp g).drop }).get_count_same
        R.PAV_WIN_DROP
    refine ⟨_, arm, rfl, ?_, hcount, fun r hr => ?_, ?_⟩
    · rw [State.windowDrop_grp, State.busReady_grp, satInc_eq_min]
    · exact State.rd_set_ne _ _ (by simpa using hr)
    · simp [State.sameBut, State.windowDrop, State.busReady, State.setGrp]
  case readReturn =>
    intro s g tag data ready rest hlate hreads hbus hheld
    have arm : exec (.regReadReturn g ⟨data, ready⟩) s = .next ((s.readReturned g tag rest data ready).busRun g) := by
      show execRegReadReturn g ⟨data, ready⟩ s = _
      simp [execRegReadReturn, hheld, hlate, hreads, State.readReturned]
    have hgrp : (s.readReturned g tag rest data ready).grp g = { s.grp g with reads := rest, busBusy := !ready } := by
      simp [State.readReturned]
    obtain ⟨hkeep, hout⟩ :=
      State.busRun_of_empty (s := s.readReturned g tag rest data ready) (g := g) (by rw [hgrp, hbus])
    refine ⟨_, arm, hkeep.trans hgrp, hout, ?_⟩
    have hbut := (s.readReturned g tag rest data ready).busRun_sameBut g
    simp [State.sameBut, State.readReturned, State.busReady, State.setGrp] at hbut ⊢
    exact hbut
  case readTimeout =>
    intro s g tag rest hreads hheld
    have arm : exec (.pavRegTimeoutExpiry g) s = .next (((s.readTimedOut g tag rest).violation g 0x15).busRun g) := by
      show execPavRegTimeoutExpiry g s = _
      simp [execPavRegTimeoutExpiry, hheld, hreads, State.readTimedOut]
    obtain ⟨honly, hout, herr, hviols⟩ := (s.readTimedOut g tag rest).violation_spec g 0x15
    have hrun := Fences.of_disconnects (State.busRun_disconnects ((s.readTimedOut g tag rest).violation g 0x15) g)
    have hfirst : FenceOnly s (s.readTimedOut g tag rest) := rfl
    refine ⟨_, arm, (hout.trans hrun.out).subset ?_, ?_, hrun.errors 1 herr, ((hfirst.trans honly).trans hrun.only).sameBut⟩
    · simp [State.readTimedOut, State.emit]
    · rw [State.busRun_viols, hviols, satInc_eq_min, State.readTimedOut, State.emit_grp, State.setGrp_grp]
  case credit =>
    intro s ep vc td htd hroom hheld
    have arm : exec (.rxCreditReturn ep vc) s = .next (s.setRxCredit ep vc (s.rxCredit ep vc + 1)) := by
      show execRxCreditReturn ep vc s = _
      simp [execRxCreditReturn, htd, hheld, Nat.not_le.mpr hroom]
    exact ⟨_, arm, by simp [State.rxCredit, State.setRxCredit], by simp [State.sameBut, State.setRxCredit]⟩
  case sleepRise =>
    intro s g _ hst hidle hallow hheld
    have arm : exec (.sleepReqRise g) s = .next ((s.setGrp g { s.grp g with sleepReq := true }).tryHaze g) := by
      show execSleepReqRise g s = _
      simp [execSleepReqRise, hheld]
    have hmay : (s.setGrp g { s.grp g with sleepReq := true }).mayHaze g = true := by
      simp only [State.mayHaze, State.setGrp_grpState, State.setGrp_grp, State.setGrp_hbm, State.setGrp_plan, hst, hidle,
        hallow]
      rfl
    obtain ⟨hsleep, hsky⟩ := State.tryHaze_enters hmay
    obtain ⟨r, x, hx, hregs⟩ := State.tryHaze_only (s.setGrp g { s.grp g with sleepReq := true }) g
    refine ⟨_, arm, hsleep, hsky, ?_, hregs, by rw [hx]; simp [State.sameBut, State.setGrp]⟩
    rw [hx]
    exact congrArg PavGroup.sleepReq (s.setGrp_grp ..)
  case sleepFall =>
    intro s g _ hsleep hheld
    have arm : exec (.sleepReqFall g) s = .next ((s.setGrp g { s.grp g with sleepReq := false }).grpAwake g) := by
      show execSleepReqFall g s = _
      simp [execSleepReqFall, hheld, hsleep]
    obtain ⟨r, x, hx, hregs⟩ := State.grpAwake_only (s.setGrp g { s.grp g with sleepReq := false }) g
    exact ⟨_, arm, State.grpAwake_sleep .., fun m hm => State.grpAwake_sky _ hm, by rw [State.grpAwake_grp, State.setGrp_grp],
      hregs, by rw [hx]; simp [State.sameBut, State.setGrp]⟩

end Sys2Proof.Machine
end

section
/-! SUPPORT. Threads of an arbour cluster, its gatehouse, and O21. -/

namespace Sys2Proof.Machine

/-! ### Parts of the state that an operation may touch

A frame is proved along the operations of a step: each puts something into one or a few parts of the state, and where the
frame names those, what is left as it was is so by the frame of the operations before. A step counts the parts that stand before
its own in `State.sameBut`, and passes them and those after it on. -/

theorem State.eq_of_beside {s t : State} (h : Beside s t) (hprm : t.prm = s.prm) :
    t = (((s.withRegs t.regs).withPcie t.pcie).withAia t.aia).withOut t.out := by
  have heq := h.eq
  rw [hprm] at heq
  exact heq

/-- A condition recorded, put together from the parts of the state that it touches. -/
theorem State.fault_eq (s : State) {u : Nat} (hu : u ≠ uPav) (c b e : Nat) :
    s.fault u c b e = (((s.withRegs (s.fault u c b e).regs).withPcie (s.fault u c b e).pcie).withAia
      (s.fault u c b e).aia).withOut (s.fault u c b e).out :=
  State.eq_of_beside (Beside.fault s hu c b e) (s.fault_prm u c b e)

namespace State.sameBut

theorem refl (s : State) (l : List Part) : s.sameBut s l := by
  unfold State.sameBut
  iterate 36 refine ⟨fun _ => rfl, ?_⟩
  rfl

variable {s a : State} {l : List Part}

theorem withRegs (h : s.sameBut a l) (x : Sparse Word) (hl : .regs ∈ l := by decide) : s.sameBut (a.withRegs x) l := by
  unfold State.sameBut at h ⊢
  exact h.imp (fun _ p => absurd hl p) id

theorem withTiles (h : s.sameBut a l) (x : Sparse Tile) (hl : .tiles ∈ l := by decide) : s.sameBut (a.withTiles x) l := by
  revert h
  unfold State.sameBut
  iterate 8 refine And.imp id ?_
  exact And.imp (fun _ p => absurd hl p) id

theorem withFrames (h : s.sameBut a l) (x : List SrcFrame) (hl : .frames ∈ l := by decide) :
    s.sameBut (a.withFrames x) l := by
  revert h
  unfold State.sameBut
  iterate 11 refine And.imp id ?_
  exact And.imp (fun _ p => absurd hl p) id

theorem withArb (h : s.sameBut a l) (x : ArbState) (hl : .arb ∈ l := by decide) : s.sameBut (a.withArb x) l := by
  revert h
  unfold State.sameBut
  iterate 12 refine And.imp id ?_
  exact And.imp (fun _ p => absurd hl p) id

theorem withPassed (h : s.sameBut a l) (x : List Committed) (hl : .passed ∈ l := by decide) :
    s.sameBut (a.withPassed x) l := by
  revert h
  unfold State.sameBut
  iterate 13 refine And.imp id ?_
  exact And.imp (fun _ p => absurd hl p) id

theorem withEth (h : s.sameBut a l) (x : EthState) (hl : .eth ∈ l := by decide) : s.sameBut (a.withEth x) l := by
  revert h
  unfold State.sameBut
  iterate 19 refine And.imp id ?_
  exact And.imp (fun _ p => absurd hl p) id

theorem withPcie (h : s.sameBut a l) (x : PcieState) (hl : .pcie ∈ l := by decide) : s.sameBut (a.withPcie x) l := by
  revert h
  unfold State.sameBut
  iterate 25 refine And.imp id ?_
  exact And.imp (fun _ p => absurd hl p) id

theorem withAia (h : s.sameBut a l) (x : AiaState) (hl : .aia ∈ l := by decide) : s.sameBut (a.withAia x) l := by
  revert h
  unfold State.sameBut
  iterate 27 refine And.imp id ?_
  exact And.imp (fun _ p => absurd hl p) id

theorem withOut (h : s.sameBut a l) (x : List Output) (hl : .out ∈ l := by decide) : s.sameBut (a.withOut x) l := by
  revert h
  unfold State.sameBut
  iterate 34 refine And.imp id ?_
  exact And.imp (fun _ p => absurd hl p) id

/-- Another unit than PAV records a condition: its registers, and the messages that FLT sends. -/
theorem fault (h : s.sameBut a l) (u c b e : Nat) (hu : u ≠ uPav := by decide)
    (hl : [.regs, .pcie, .aia, .out] ⊆ l := by decide) : s.sameBut (a.fault u c b e) l := by
  rw [a.fault_eq hu c b e]
  exact .withOut (.withAia (.withPcie (.withRegs h _ (hl (by simp))) _ (hl (by simp))) _ (hl (by simp))) _ (hl (by simp))

end State.sameBut

/-! ### Clusters and threads after an update -/

@[simp] theorem State.setClu_clu (s : State) (c : Nat) (k : ArbCluster) : (s.setClu c k).clu c = k := spGet_set_same ..

theorem State.clu_congr {s t : State} (h : t.arb.clusters = s.arb.clusters) (c : Nat) : t.clu c = s.clu c := by
  rw [State.clu, h, State.clu]

theorem State.thr_congr {s t : State} (h : t.arb.clusters = s.arb.clusters) (c u : Nat) : t.thr c u = s.thr c u := by
  rw [State.thr, State.clu_congr h, State.thr]

@[simp] theorem State.count_thr (s : State) (f : Fld) (c u : Nat) : (s.count f).thr c u = s.thr c u := rfl
@[simp] theorem State.fault_clu (s : State) (u' cond b e c : Nat) : (s.fault u' cond b e).clu c = s.clu c :=
  State.clu_congr (by rw [State.fault_arb]) c
@[simp] theorem State.fault_thr (s : State) (u' cond b e c u : Nat) : (s.fault u' cond b e).thr c u = s.thr c u :=
  State.thr_congr (by rw [State.fault_arb]) c u

/-- A cluster replaced by one with the same threads. -/
theorem State.setClu_thr {s : State} {c : Nat} {k : ArbCluster} (h : k.threads = (s.clu c).threads) (u : Nat) :
    (s.setClu c k).thr c u = s.thr c u := by
  rw [State.thr, State.setClu_clu, h, State.thr]

@[simp] theorem State.setThr_thr (s : State) (c t : Nat) (x : ArbThread) : (s.setThr c t x).thr c t = x := by
  rw [State.thr, State.setThr, State.setClu_clu]
  exact spGet_set_same ..

theorem State.setThr_thr_ne (s : State) (c : Nat) {t u : Nat} (x : ArbThread) (h : u ≠ t) :
    (s.setThr c t x).thr c u = s.thr c u := by
  rw [State.thr, State.setThr, State.setClu_clu]
  exact spGet_set_ne _ _ _ h

@[simp] theorem State.setThr_svcReq (s : State) (c t : Nat) (x : ArbThread) :
    ((s.setThr c t x).clu c).svcReq = (s.clu c).svcReq := by
  rw [State.setThr, State.setClu_clu]

@[simp] theorem State.setThr_commitWait (s : State) (c t : Nat) (x : ArbThread) :
    ((s.setThr c t x).clu c).commitWait = (s.clu c).commitWait := by
  rw [State.setThr, State.setClu_clu]

@[simp] theorem State.setThr_nextOrder (s : State) (c t : Nat) (x : ArbThread) :
    ((s.setThr c t x).clu c).nextOrder = (s.clu c).nextOrder := by
  rw [State.setThr, State.setClu_clu]

/-! ### The end of a wait (R151, R174) -/

/-- What of a thread neither waits nor locks nor sequencers touch: its packet, whether it is committed, its set and its
pending halt. -/
def ArbThread.lasting (x : ArbThread) : Option ArbPacket × Bool × Nat × Bool := (x.pkt, x.committed, x.set, x.haltPending)

/-- A thread's wait ends: of every thread it changes this one, and neither its packet nor its set. -/
theorem State.endWait_eq (s : State) (c t status : Nat) :
    ∃ x, s.endWait c t status = s.setThr c t x ∧ x.lasting = (s.thr c t).lasting := by
  unfold State.endWait
  dsimp only
  split
  · exact ⟨_, rfl, rfl⟩
  · exact ⟨_, rfl, rfl⟩

theorem State.endWait_thr_ne (s : State) (c status : Nat) {t u : Nat} (h : u ≠ t) :
    (s.endWait c t status).thr c u = s.thr c u := by
  obtain ⟨x, hx, -⟩ := s.endWait_eq c t status
  rw [hx, s.setThr_thr_ne c x h]

/-- The timeout of a PARK writes its status and lets the thread go on (R175). -/
theorem State.endWait_park {s : State} {c t j n r w : Nat} (hw : (s.thr c t).wait = some (.park j n r w))
    (hst : (s.thr c t).st ≠ tHalt) (status : Nat) :
    s.endWait c t status =
      s.setThr c t { (s.thr c t).put r (BitVec.ofNat 64 status) with st := (s.thr c t).base, wait := none } := by
  unfold State.endWait
  simp only [hst, hw, if_false, ArbThread.put]

/-! ### What the gatehouse of a cluster touches (R143 to R147, R173) -/

/-- From `s` to `t` the gatehouse of cluster `c` has worked: what is not the state of clusters is as it was, and so is the
cluster's service request; every thread but those of `but` has kept its packet, its set and its pending halt. -/
structure Gatehouse (c : Nat) (but : List Nat) (s t : State) : Prop where
  only : t = s.withArb { s.arb with clusters := t.arb.clusters }
  svcReq : (t.clu c).svcReq = (s.clu c).svcReq
  lasting : ∀ u, u ∉ but → (t.thr c u).lasting = (s.thr c u).lasting

namespace Gatehouse

theorem refl (c : Nat) (l : List Nat) (s : State) : Gatehouse c l s s := ⟨rfl, rfl, fun _ _ => rfl⟩

theorem trans {c : Nat} {l : List Nat} {a b d : State} (h : Gatehouse c l a b) (k : Gatehouse c l b d) : Gatehouse c l a d :=
  ⟨by rw [k.only, h.only]; rfl, k.svcReq.trans h.svcReq, fun u hu => (k.lasting u hu).trans (h.lasting u hu)⟩

theorem foldl {α : Type} {c : Nat} {l : List Nat} (g : State → α → State) (xs : List α) (s : State)
    (h : ∀ s x, Gatehouse c l s (g s x)) : Gatehouse c l s (xs.foldl g s) := by
  induction xs generalizing s with
  | nil => exact refl c l s
  | cons x xs ih => exact (h s x).trans (ih _)

theorem source {c : Nat} {l : List Nat} {s t : State} (h : Gatehouse c l s t) (x : Nat) : t.source x = s.source x := by
  rw [h.only]
  rfl

variable {c : Nat} {l : List Nat} {s a : State}

theorem setClu (h : Gatehouse c l s a) {k : ArbCluster} (ht : k.threads = (a.clu c).threads := by rfl)
    (hs : k.svcReq = (a.clu c).svcReq := by rfl) : Gatehouse c l s (a.setClu c k) :=
  h.trans ⟨rfl, by rw [State.setClu_clu, hs], fun u _ => by rw [State.setClu_thr ht]⟩

theorem setThr_of (h : Gatehouse c l s a) {t : Nat} {x : ArbThread} (hx : t ∈ l ∨ x.lasting = (a.thr c t).lasting) :
    Gatehouse c l s (a.setThr c t x) := by
  refine h.trans ⟨rfl, a.setThr_svcReq c t x, fun u hu => ?_⟩
  by_cases hut : u = t
  · subst hut
    rw [State.setThr_thr]
    exact hx.resolve_left hu
  · rw [a.setThr_thr_ne c x hut]

theorem setThr (h : Gatehouse c l s a) {t : Nat} {x : ArbThread} (hx : x.lasting = (a.thr c t).lasting := by rfl) :
    Gatehouse c l s (a.setThr c t x) :=
  h.setThr_of (.inr hx)

theorem endWait (h : Gatehouse c l s a) (t status : Nat) : Gatehouse c l s (a.endWait c t status) := by
  obtain ⟨x, hx, hlast⟩ := a.endWait_eq c t status
  rw [hx]
  exact h.setThr hlast

theorem grantLock (h : Gatehouse c l s a) (i : Nat) : Gatehouse c l s (a.grantLock c i) := by
  unfold State.grantLock
  dsimp only
  split
  · exact h.setClu
  · exact .endWait (.setThr h.setClu) ..

theorem dropLocks (h : Gatehouse c l s a) (t : Nat) : Gatehouse c l s (a.dropLocks c t) := by
  refine h.trans (foldl _ _ _ fun b i => ?_)
  unfold State.dropLock
  exact .grantLock (.setThr (refl c l b)) i

theorem handOver (h : Gatehouse c l s a) {t : Nat} (ht : t ∈ l) : Gatehouse c l s (a.handOver c t) := by
  unfold State.handOver
  dsimp only
  split
  · exact h
  · exact .setClu (h.setThr_of (.inl ht))

/-- The one packet handed over when an entry of the commit buffer frees is that of a thread waiting for one. -/
theorem grantCommit (h : Gatehouse c l s a) (hl : (a.clu c).commitWait ⊆ l) : Gatehouse c l s (a.grantCommit c) := by
  unfold State.grantCommit
  dsimp only
  split
  · exact h
  · next t rest hwait =>
    have ht : t ∈ l := hl (by rw [hwait]; exact List.mem_cons_self)
    split
    · exact h
    · split
      · exact .setClu (.endWait h.setClu ..)
      · exact .endWait (.handOver h.setClu ht) ..

theorem withdrawWait (h : Gatehouse c l s a) (hl : (a.clu c).commitWait ⊆ l) (t : Nat) :
    Gatehouse c l s (a.withdrawWait c t) := by
  have hstep : ∀ k : ArbCluster, k.threads = (a.clu c).threads → k.svcReq = (a.clu c).svcReq →
      k.commitWait ⊆ (a.clu c).commitWait → Gatehouse c l s
        (((a.setClu c k).setThr c t { a.thr c t with wait := none, outcome := none }).grantCommit c) := by
    intro k ht hs hsub
    refine .grantCommit (.setThr (h.setClu ht hs) ?_) ?_
    · rw [State.setClu_thr ht]
      rfl
    · rw [State.setThr_commitWait, State.setClu_clu]
      exact List.Subset.trans hsub hl
  unfold State.withdrawWait
  dsimp only
  split
  · exact hstep _ rfl rfl (List.Subset.refl _)
  · exact hstep _ rfl rfl (List.filter_subset_self _)
  · exact hstep _ rfl rfl (List.Subset.refl _)

theorem passSeq (h : Gatehouse c l s a) (t q : Nat) : Gatehouse c l s (a.passSeq c t q) := by
  unfold State.passSeq
  dsimp only
  split
  · exact h
  · exact .setClu h.setThr

theorem settleOrders (h : Gatehouse c l s a) (n : Nat) : Gatehouse c l s (a.settleOrders c n) := by
  induction n generalizing a with
  | zero => exact h
  | succ n ih =>
    unfold State.settleOrders
    dsimp only
    split
    · exact h
    · split
      · exact ih (.endWait (h.passSeq ..) ..)
      · exact h

end Gatehouse

/-! ### A packet ends with its thread (R143, R144) -/

theorem State.passSeq_thr_ne (s : State) (c q : Nat) {t u : Nat} (h : u ≠ t) : (s.passSeq c t q).thr c u = s.thr c u := by
  unfold State.passSeq
  dsimp only
  split
  · rfl
  · exact (State.setClu_thr (by rfl) u).trans (s.setThr_thr_ne c _ h)

/-- The ORDER waits that end are other threads' than one that does not wait. -/
theorem State.settleOrders_thr {s : State} {c u : Nat} (h : (s.thr c u).wait = none) (n : Nat) :
    (s.settleOrders c n).thr c u = s.thr c u := by
  induction n generalizing s with
  | zero => rfl
  | succ n ih =>
    unfold State.settleOrders
    dsimp only
    split
    · rfl
    · next t _ =>
      split
      · next q r hwait =>
        have hne : u ≠ t := by
          rintro rfl
          rw [h] at hwait
          contradiction
        have hkeep : ((s.passSeq c t q).endWait c t 0).thr c u = s.thr c u := by
          rw [State.endWait_thr_ne _ _ _ hne, s.passSeq_thr_ne c q hne]
        rw [ih (by rw [hkeep, h]), hkeep]
      · rfl

/-- A thread becomes IDLE, no service program waiting for it. -/
theorem State.threadIdle_spec {s : State} {c t : Nat} (hsvc : t ≠ 0 ∨ (s.clu c).svcReq = false) :
    Gatehouse c [t] s (s.threadIdle c t) ∧ (s.threadIdle c t).thr c t =
      { threadReset t with set := (s.thr c t).set, haltPending := (s.thr c t).haltPending } := by
  have hgate : ∀ x, Gatehouse c [t] s ((s.setThr c t x).settleOrders c 64) := fun _ =>
    .settleOrders (.setThr_of (.refl c [t] s) (.inl List.mem_cons_self)) 64
  unfold State.threadIdle
  dsimp only
  rw [if_neg]
  · exact ⟨hgate _, by rw [State.settleOrders_thr (by rw [State.setThr_thr]; rfl), State.setThr_thr]⟩
  · rw [(hgate _).svcReq]
    rintro ⟨h0, hreq⟩
    rcases hsvc with h | h
    · exact h h0
    · rw [h] at hreq
      contradiction

theorem State.freeFrame_spec (s : State) (src arrival : Nat) :
    EthOnly (s.withFrames (s.frames.filter fun f => !(f.src == src && f.arrival == arrival))) (s.freeFrame src arrival) :=
  State.pfcSettle_ethOnly _

/-- `t` differs from `s` at most in the stored frames, the arbour, the MACs and what has been sent. -/
def RetireOnly (s t : State) : Prop := t = { s with frames := t.frames, arb := t.arb, eth := t.eth, out := t.out }

namespace RetireOnly

theorem trans {a b c : State} (h : RetireOnly a b) (k : RetireOnly b c) : RetireOnly a c := by
  unfold RetireOnly at *
  rw [k, h]

theorem sameBut {s a t : State} {l : List Part} (h : RetireOnly a t) (hs : s.sameBut a l)
    (hl : [.frames, .arb, .eth, .out] ⊆ l := by decide) : s.sameBut t l := by
  rw [h]
  exact (((hs.withFrames t.frames (hl (by simp))).withArb t.arb (hl (by simp))).withEth t.eth (hl (by simp))).withOut t.out
    (hl (by simp))

theorem of_gate {c : Nat} {l : List Nat} {s t : State} (h : Gatehouse c l s t) : RetireOnly s t := by
  unfold RetireOnly
  rw [h.only]
  rfl

theorem of_freed {s t : State} {l : List SrcFrame} (h : EthOnly (s.withFrames l) t) : RetireOnly s t := by
  unfold RetireOnly
  rw [h]
  rfl

end RetireOnly

/-- A packet ends without commit: its frame is freed, and the clusters are as they were. -/
theorem State.endUncommitted_spec (s : State) (p : ArbPacket) :
    RetireOnly s (s.endUncommitted p) ∧ (s.endUncommitted p).arb.clusters = s.arb.clusters ∧
    (s.endUncommitted p).frames = s.frames.filter fun f => !(f.src == p.src && f.arrival == p.arrival) := by
  have h := s.freeFrame_spec p.src p.arrival
  unfold State.endUncommitted
  dsimp only
  generalize s.freeFrame p.src p.arrival = g at h ⊢
  have hclu : g.arb.clusters = s.arb.clusters := congrArg ArbState.clusters h.arb
  exact ⟨(RetireOnly.of_freed h).trans rfl, hclu, h.frames⟩

/-- A thread stops with a packet that is not committed (R144, R153): the packet's frame is freed, and the thread is IDLE
with a reset context, its set and a pending halt kept. -/
theorem State.retireThread_spec {s : State} {c t : Nat} {p : ArbPacket} (hpkt : (s.thr c t).pkt = some p)
    (hcom : (s.thr c t).committed = false) (hwait : t ∉ (s.clu c).commitWait) (hsvc : t ≠ 0 ∨ (s.clu c).svcReq = false) :
    RetireOnly s (s.retireThread c t) ∧
    (s.retireThread c t).frames = s.frames.filter (fun f => !(f.src == p.src && f.arrival == p.arrival)) ∧
    (s.retireThread c t).thr c t =
      { threadReset t with set := (s.thr c t).set, haltPending := (s.thr c t).haltPending } := by
  unfold State.retireThread
  dsimp only
  have hgate : Gatehouse c (s.clu c).commitWait s
      ((List.range 16).foldl (fun s q => s.passSeq c t q) ((s.withdrawWait c t).dropLocks c t)) :=
    (Gatehouse.dropLocks (.withdrawWait (.refl ..) (List.Subset.refl _) t) t).trans
      (.foldl _ _ _ fun s q => .passSeq (.refl ..) t q)
  generalize (List.range 16).foldl (fun s q => s.passSeq c t q) ((s.withdrawWait c t).dropLocks c t) = g at hgate ⊢
  have hlast := hgate.lasting t hwait
  simp only [ArbThread.lasting, Prod.mk.injEq] at hlast
  obtain ⟨hgpkt, hgcom, hgset, hgpend⟩ := hlast
  obtain ⟨hend, hclu, hframes⟩ := g.endUncommitted_spec p
  have hthr := State.thr_congr hclu c t
  obtain ⟨hidle, hreset⟩ := State.threadIdle_spec (s := g.endUncommitted p) (c := c) (t := t)
    (by rwa [State.clu_congr hclu, hgate.svcReq])
  simp only [hgpkt, hpkt, hgcom, hcom, Bool.false_eq_true, if_false]
  refine ⟨((RetireOnly.of_gate hgate).trans hend).trans (.of_gate hidle), ?_, ?_⟩
  · rw [hidle.only, State.withArb_frames, hframes, hgate.only, State.withArb_frames]
  · rw [hreset, hthr, hgset, hgpend]

/-! ### Registers of the arbour -/

theorem State.fault_sets_hasError (s : State) (u cond e : Nat) {b : Nat} (hb : b < 64) : (s.fault u cond b e).hasError u b :=
  State.setStatus_hasError _ u hb (.inl rfl)

@[simp] theorem State.fault_cluState (s : State) (cond b e c : Nat) :
    (s.fault uArb cond b e).cluState c = s.cluState c := by
  have hoff : ∀ x < 0x1000, R.ARB_CLU_STATE c ≠ unitOff uArb x := fun x hx => by
    simp only [R.ARB_CLU_STATE, unitOff, uArb]
    omega
  exact s.fault_get_ne _ _ _ _ _ (hoff _ (by decide)) (hoff _ (by decide)) (hoff _ (by decide))
    (by simp only [R.ARB_CLU_STATE, R.FLT_SUMMARY]; omega)

theorem State.hasError_congr {s t : State} (h : t.regs = s.regs) {u b : Nat} (hs : s.hasError u b) : t.hasError u b :=
  (State.get_congr h _).trans hs

/-! ### Dispatch (R139, R140) -/

/-- The core that takes a dispatch is brought to Clear. -/
def State.coreClear (s : State) (k : Nat) : State :=
  s.setTile k { s.tile k with sky := 0, wakes := if (s.tile k).sky = 0 then (s.tile k).wakes else (s.tile k).wakes + 1 }

/-- The frame `f` of source `src` is placed in thread `u` of cluster `c`. -/
def State.placeFrame (s : State) (src c u : Nat) (f : SrcFrame) : State :=
  let k := s.clu c
  let s1 := (s.setClu c { k with nextOrder := k.nextOrder + 1, dispatchAt := some s.clk.elapsed }).coreClear (8 * c + u / 8)
  let s2 := s1.withFrames
    (s1.frames.map fun g => if g.src == f.src && g.arrival == f.arrival then { g with dispatched := true } else g)
  s2.setThr c u (dispatchedThread (s.thr c u) f s.currentVersion (imgEntry s.plan c (mapProg s.plan src f.prio)) k.nextOrder)

theorem State.placeFrame_thr (s : State) (src c u : Nat) (f : SrcFrame) :
    (s.placeFrame src c u f).thr c u = dispatchedThread (s.thr c u) f s.currentVersion
      (imgEntry s.plan c (mapProg s.plan src f.prio)) (s.clu c).nextOrder :=
  State.setThr_thr ..

theorem State.placeFrame_thr_ne (s : State) (src c : Nat) {u v : Nat} (f : SrcFrame) (hv : v ≠ u) :
    (s.placeFrame src c u f).thr c v = s.thr c v :=
  (State.setThr_thr_ne _ c _ hv).trans (State.setClu_thr (by rfl) v)

theorem State.placeFrame_nextOrder (s : State) (src c u : Nat) (f : SrcFrame) :
    ((s.placeFrame src c u f).clu c).nextOrder = (s.clu c).nextOrder + 1 :=
  (State.setThr_nextOrder ..).trans (congrArg ArbCluster.nextOrder (s.setClu_clu c _))

theorem State.placeFrame_sameBut (s : State) (src c u : Nat) (f : SrcFrame) :
    s.sameBut (s.placeFrame src c u f) [.regs, .arb, .frames, .tiles] :=
  .withArb (.withFrames (.withTiles (.withArb (.refl ..) _) _) _) _

theorem State.placeFrame_regs (s : State) (src c u : Nat) (f : SrcFrame) : (s.placeFrame src c u f).regs = s.regs := by
  simp [State.placeFrame, State.coreClear, State.setThr, State.setClu]

theorem bytesAt_length (l : List Byte) (o n : Nat) : (bytesAt l o n).length = n := by
  rw [bytesAt, List.length_append, List.length_replicate, Nat.add_sub_cancel' (List.length_take_le ..)]

/-- The window of a dispatched packet holds its first 512 bytes. -/
theorem dispatchedThread_window (x : ArbThread) (f : SrcFrame) (ver pc order : Nat) :
    (dispatchedThread x f ver pc order).window = bytesAt f.data 0 512 :=
  List.take_of_length_le (bytesAt_length ..).le

theorem exec_arbourDispatch {s : State} {src c u : Nat} {f : SrcFrame} {cs : List Nat}
    (hf : (s.frames.find? fun g => g.src == src && !g.dispatched) = some f) (hc : s.dispatchClusters src = c :: cs)
    (hu : s.dispatchThread c = some u) :
    exec (.arbourDispatch src .none) s = .next ((s.placeFrame src c u f).wrapBy F.ARB_DISPATCH_COUNT_COUNT 1) := by
  show execArbourDispatch src .none s = _
  simp only [execArbourDispatch, hf, hc, hu]
  rfl

/-! ### The commit sequencer (R143) -/

/-- Packet `e` of cluster `c` passes: it goes to classification, its entry of the commit buffer is free, and the next
arrival number of its source is due (R143). -/
def State.passTo (s : State) (src c : Nat) (e : Committed) : State :=
  let x := s.source src
  let k := s.clu c
  let s1 := (s.setSource src { x with nextPass := (x.nextPass + 1) % 2 ^ 32 }).setClu c
    { k with commits := k.commits.filter fun d => !(d.src == src && d.arrival == e.arrival) }
  s1.withPassed (s1.passed ++ [e])

theorem exec_commitSequencerPass {s : State} {src c : Nat} {wayUe : Bool} {e : Committed} (hheld : s.classifyHeld = false)
    (hc : ((List.range 20).find? fun d => !s.cluHeld d &&
      (s.clu d).commits.any fun g => g.src == src && g.arrival == (s.source src).nextPass) = some c)
    (he : ((s.clu c).commits.find? fun g => g.src == src && g.arrival == (s.source src).nextPass) = some e)
    (hend : (s.source src).ended = []) :
    exec (.commitSequencerPass ⟨src, wayUe⟩) s = .next ((s.passTo src c { e with wayUe := wayUe }).grantCommit c) := by
  show execCommitSequencerPass ⟨src, wayUe⟩ s = _
  simp only [execCommitSequencerPass, hheld, hc, he, hend, State.passTo, List.length_nil, advancePass, Bool.false_eq_true,
    if_false]

/-! ### The clauses of O21 -/

/-- Settles O21, clause by clause. -/
theorem arbourThreadsAndCommit : Obligations.ArbourThreadsAndCommit := by
  unfold Obligations.ArbourThreadsAndCommit
  refine ⟨?dispatch, ?pass, ?initLimit, ?runLimit, ?park⟩
  case dispatch =>
    intro s src c u f cs hf hc hu
    have hthr := s.placeFrame_thr src c u f
    refine ⟨_, exec_arbourDispatch hf hc hu, congrArg ArbThread.pkt hthr, congrArg ArbThread.pc hthr,
      congrArg ArbThread.regs hthr, congrArg ArbThread.key hthr, congrArg ArbThread.ew hthr, congrArg ArbThread.written hthr,
      (congrArg ArbThread.window hthr).trans (dispatchedThread_window ..), congrArg ArbThread.st hthr,
      congrArg ArbThread.order hthr, s.placeFrame_nextOrder src c u f, fun v hv => s.placeFrame_thr_ne src c f hv, ?_, rfl,
      fun r hr => ?_, ?_⟩
    · rw [State.wrapBy, State.get_set_same _ _ (by decide) (by decide), State.get_congr (s.placeFrame_regs ..)]
      rfl
    · rw [State.wrapBy, State.rd_set_ne _ _ (by simpa using hr), State.rd_congr (s.placeFrame_regs ..)]
    · exact .withRegs (s.placeFrame_sameBut src c u f) _
  case pass =>
    intro s src c wayUe e hheld hc he hend
    have hgate := Gatehouse.grantCommit (.refl c _ (s.passTo src c { e with wayUe := wayUe })) (List.Subset.refl _)
    refine ⟨_, exec_commitSequencerPass hheld hc he hend, ?_, ?_, fun x hx => ?_, ?_⟩
    · rw [hgate.only]
      rfl
    · rw [hgate.source]
      exact congrArg ArbSource.nextPass (spGet_set_same ..)
    · rw [hgate.source]
      exact spGet_set_ne _ _ _ hx
    · rw [hgate.only]
      exact .withArb (.withPassed (.withArb (.withArb (.refl ..) _) _) _) _
  case initLimit =>
    intro s c _ hst hheld
    have arm : exec (.arbInitLimitExpiry c) s = .next (s.initFailed c) := by
      show execArbInitLimitExpiry c s = _
      simp [execArbInitLimitExpiry, hst, hheld]
    refine ⟨_, arm, ?_, State.fault_sets_hasError _ _ _ _ (by decide), ?_, fun v hv => ?_, ?_⟩
    · rw [State.initFailed, State.fault_cluState]
      exact State.get_set_same (f := F.ARB_CLU_STATE_STATE c) _ _ (by simp) (by simp)
    · rw [State.initFailed, State.fault_thr]
      exact State.setThr_thr ..
    · rw [State.initFailed, State.fault_thr]
      exact State.setThr_thr_ne _ c _ hv
    · exact .fault (.withRegs (.withArb (.refl ..) _) _) ..
  case runLimit =>
    intro s c u p _ hpkt hst hslots hcom hwait hsvc hheld
    have arm : exec (.arbRunLimitExpiry c u) s = .next
        (((s.fault uArb 0x08 7 (arbExtra c u 0 (s.thr c u).pc)).count F.ARB_EXC_COUNT_COUNT).retireThread c u) := by
      show execArbRunLimitExpiry c u s = _
      simp [execArbRunLimitExpiry, hpkt, hst, hheld, hslots, hcom]
    generalize hrec : (s.fault uArb 0x08 7 (arbExtra c u 0 (s.thr c u).pc)).count F.ARB_EXC_COUNT_COUNT = a at arm
    have hthr : a.thr c u = s.thr c u := by rw [← hrec, State.count_thr, State.fault_thr]
    have hclu : a.clu c = s.clu c := by rw [← hrec]; exact State.fault_clu ..
    obtain ⟨honly, hframes, hreset⟩ :=
      State.retireThread_spec (hthr ▸ hpkt) (hthr ▸ hcom) (hclu ▸ hwait) (hclu ▸ hsvc)
    have hregs : (a.retireThread c u).regs = a.regs := by rw [honly]
    refine ⟨_, arm, ?_, ?_, ?_, ?_, ?_⟩
    · refine State.hasError_congr hregs ?_
      rw [State.hasError, ← hrec, State.count, State.get_set_ne _ _ (by decide)]
      exact s.fault_sets_hasError _ _ _ (by decide)
    · rw [State.get_congr hregs, ← hrec, State.get_count_same,
        s.fault_get_ne _ _ _ _ _ (by decide) (by decide) (by decide) (by decide)]
    · rw [hreset, hthr]
    · rw [hframes, ← hrec]
      simp
    · refine honly.sameBut ?_
      rw [← hrec]
      exact .withRegs (.fault (.refl ..) ..) _
  case park =>
    intro s c u j n r w hwait hst hw hheld
    have arm : exec (.parkTimeout c u) s = .next (s.endWait c u 2) := by
      show execParkTimeout c u s = _
      simp [execParkTimeout, hwait, hst, hw, hheld]
    refine ⟨_, arm, ?_, fun v hv => s.endWait_thr_ne c 2 hv, ?_⟩
    · rw [State.endWait_park hwait (by simp [hst]), State.setThr_thr]
      rfl
    · rw [(Gatehouse.endWait (.refl c [] s) u 2).only]
      exact .withArb (.refl ..) _

end Sys2Proof.Machine
end

section
/-! SUPPORT. A broken wait that does not end, and the refutation of O22. -/

namespace Sys2Proof.Machine

/-! ### A wait that returns to HALT (O22, R149, R151)

The statement speaks of every state, and so also of threads that no run of the device brings about: one whose wait returns
to HALT, and which stands in the queue for a commit-buffer entry while it waits on a counter. Breaking its wait withdraws
it; that gives it the free entry, so it goes on to HALT; and the outcome of the broken wait is then kept for its resumption,
the wait with it. Every state that a wait returns to in a run is RUN, INIT or SERVICE, and there the wait ends. -/

/-- A thread that waits on counter 0, HALT the state that it returns to. -/
def haltBoundThread : ArbThread := { threadReset 1 with st := tWait, base := tHalt, wait := some (.counter 0 1 2) }

/-- It is thread 1 of cluster 0, the one member of set 0, and queued for an entry of the commit buffer. -/
def haltBound : State :=
  State.reset.setClu 0 { clusterReset 0 with threads := [(1, haltBoundThread)], commitWait := [1] }

theorem haltBound_stuck : haltBound.setStuck 0 0 false = true := by decide
theorem haltBound_notHeld : haltBound.cluHeld 0 = false := by decide
theorem haltBound_member : 1 ∈ haltBound.members 0 0 := by decide

/-- The wait of thread 1 of cluster 0 in the next state, where the answer is one. -/
def waitAfter : Res → Option (Option ArbWait)
  | .next t => some (t.thr 0 1).wait
  | .fault _ | .refused _ => none

/-- The deadlock is broken, and the thread still waits on the counter. -/
theorem waitAfter_haltBound : waitAfter (exec (.deadlock 0 0) haltBound) = some (some (.counter 0 1 2)) := by decide

/-- Refutes O22, in its first clause: the wait of a member that returns to HALT need not end. -/
theorem not_arbourDeadlockAndDebug : ¬ Obligations.ArbourDeadlockAndDebug := by
  unfold Obligations.ArbourDeadlockAndDebug
  rintro ⟨deadlock, -⟩
  obtain ⟨t, arm, -, -, -, hends, -⟩ := deadlock haltBound 0 0 (by decide) (by decide) haltBound_stuck haltBound_notHeld
  obtain ⟨hnone, -⟩ := hends 1 haltBound_member (by decide)
  have hwait := waitAfter_haltBound
  rw [arm, waitAfter, hnone] at hwait
  contradiction

end Sys2Proof.Machine
end

section
/-! SUPPORT. How an arbour instruction issues, what its effect leaves as it was, and O23. Here and in the parts that follow
the proofs elaborate in order, so that no waiting threads take the text past the limit on memory. -/

namespace Sys2Proof.Machine

set_option Elab.async false

/-! ### An instruction that meets no cause of exception (R177, Tables 6-2 and 6-8) -/

/-- The word of `k` is the instruction `n` with its zero fields kept, and meets no cause of Table 6-8. -/
structure ArbIns.Runs (n : ArbIns) (k : ArbCtx) : Prop where
  fmt : fmtZero n.fmt k.w = true
  rd : n.useD = true ∨ iRd k.w = 0 := by exact .inl rfl
  ra : n.useA = true ∨ iRa k.w = 0 := by exact .inl rfl
  rb : n.useB = true ∨ iRb k.w = 0 := by exact .inl rfl
  illegal : n.illegal k = false := by rfl
  window : n.window k = false := by rfl
  key : n.key k = false := by rfl
  dmem : n.dmem k = false := by rfl
  pc : (n.next k).all (fun p => decide (p < (k.s.clu k.c).imem.length)) = true
  packet : n.packetOnly = false ∨ k.x.base = tRun := by exact .inl rfl
  init : n.initOnly = false ∨ k.x.base = tInit := by exact .inl rfl
  notInit : n.notInit = false ∨ k.x.base ≠ tInit := by exact .inl rfl
  commit : n.beforeCommit = false ∨ k.x.committed = false := by exact .inl rfl
  lock : n.lockBad k = false := by rfl

theorem unusedZero_of {n : ArbIns} {w : Word} (hd : n.useD = true ∨ iRd w = 0) (ha : n.useA = true ∨ iRa w = 0)
    (hb : n.useB = true ∨ iRb w = 0) : unusedZero n w = true := by
  simp [unusedZero, hd, ha, hb]

theorem ArbIns.Runs.cause {n : ArbIns} {k : ArbCtx} (h : n.Runs k) : n.cause k .none = none := by
  obtain ⟨fmt, rd, ra, rb, illegal, window, key, dmem, pc, packet, init, notInit, commit, lock⟩ := h
  have hpacket : (n.packetOnly && !(k.x.base == tRun)) = false := by rcases packet with h | h <;> simp [h]
  have hinit : (n.initOnly && k.x.base != tInit) = false := by rcases init with h | h <;> simp [h]
  have hnotInit : (n.notInit && k.x.base == tInit) = false := by rcases notInit with h | h <;> simp [h]
  have hcommit : (n.beforeCommit && k.x.committed) = false := by rcases commit with h | h <;> simp [h]
  simp only [ArbIns.cause, fmt, unusedZero_of rd ra rb, illegal, window, key, dmem, hpacket, hinit, hnotInit, hcommit, lock,
    Bool.not_true, Bool.or_self, Bool.false_eq_true, if_false, reduceCtorEq]
  cases hnext : n.next k with
  | none => rfl
  | some p => simpa [hnext] using pc

/-- Every bit of the field `n` wide from `lsb` on. -/
theorem bitsAt_width (w : Word) (lsb : Nat) {n : Nat} (hn : 0 < n) :
    bitsAt w (lsb + n - 1) lsb = w.toNat / 2 ^ lsb % 2 ^ n := by
  rw [bitsAt, show lsb + n - 1 + 1 - lsb = n by omega]

theorem setBits_width (w : Word) (lsb v : Nat) {n : Nat} (hn : 0 < n) :
    setBits w (lsb + n - 1) lsb v =
      BitVec.ofNat 64 (w.toNat - w.toNat / 2 ^ lsb % 2 ^ n * 2 ^ lsb + v % 2 ^ n * 2 ^ lsb) := by
  rw [setBits, bitsAt_width w lsb hn, show lsb + n - 1 + 1 - lsb = n by omega]

/-! ### The clusters after an update -/

/-- A cluster but for its threads and the episodes that a thread's state ends (R150). -/
abbrev ArbCluster.rest (k : ArbCluster) : ArbCluster := { k with threads := [], episodes := 0 }

theorem State.setClu_clu_ne (s : State) {c d : Nat} (k : ArbCluster) (h : d ≠ c) : (s.setClu c k).clu d = s.clu d :=
  spGet_set_ne _ _ _ h

theorem State.setThr_clu_ne (s : State) {c d : Nat} (t : Nat) (x : ArbThread) (h : d ≠ c) :
    (s.setThr c t x).clu d = s.clu d :=
  s.setClu_clu_ne _ h

theorem State.setThr_rest (s : State) (c t : Nat) (x : ArbThread) : ((s.setThr c t x).clu c).rest = (s.clu c).rest := by
  rw [State.setThr, State.setClu_clu]

/-! ### The issue of an instruction (R165, R177, R178) -/

/-- Thread `u` of cluster `c` has become `y` by issuing an instruction, its effect aside. -/
def State.issue (s : State) (c u : Nat) (y : ArbThread) : State := (s.setThr c u y).wrapBy (F.ARB_CLU_ISSUES_COUNT c) 1

@[simp] theorem State.issue_thr (s : State) (c u : Nat) (y : ArbThread) : (s.issue c u y).thr c u = y := s.setThr_thr c u y

theorem State.issue_thr_ne (s : State) (c : Nat) {u v : Nat} (y : ArbThread) (h : v ≠ u) :
    (s.issue c u y).thr c v = s.thr c v :=
  s.setThr_thr_ne c y h

theorem State.issue_rest (s : State) (c u : Nat) (y : ArbThread) : ((s.issue c u y).clu c).rest = (s.clu c).rest :=
  s.setThr_rest c u y

theorem State.wrapBy_issues (s : State) (c : Nat) :
    (s.wrapBy (F.ARB_CLU_ISSUES_COUNT c) 1).get (F.ARB_CLU_ISSUES_COUNT c) =
      (s.get (F.ARB_CLU_ISSUES_COUNT c) + 1) % 2 ^ 64 :=
  s.get_set_same _ (by simp) (by simp)

theorem State.issue_sameRegs (s : State) (c u : Nat) (y : ArbThread) : s.sameRegs (s.issue c u y) [R.ARB_CLU_ISSUES c] :=
  fun _ hr => State.rd_set_ne _ _ (List.ne_of_not_mem_cons hr)

theorem State.issue_get_ne (s : State) {c : Nat} (u : Nat) (y : ArbThread) {f : Fld} (h : f.off ≠ R.ARB_CLU_ISSUES c) :
    (s.issue c u y).get f = s.get f :=
  State.get_set_ne _ _ h

theorem State.issue_sameBut (s : State) (c u : Nat) (y : ArbThread) {l : List Part} (hregs : .regs ∈ l := by decide)
    (harb : .arb ∈ l := by decide) : s.sameBut (s.issue c u y) l :=
  .withRegs (.withArb (.refl ..) _ harb) _ hregs

theorem State.arbAt_iff {s : State} {c u op : Nat} {w : Word} {x : ArbThread} :
    s.arbAt c u op w x = true ↔
      s.arbIssues c u = true ∧ s.arbWord c u = w ∧ iOp w = op ∧ s.thr c u = x ∧ x.stepPending = false := by
  simp [State.arbAt, and_assoc]

/-- The row of an instruction that meets no cause of exception. -/
theorem State.arbRow_runs {s : State} {c u op : Nat} {w : Word} {x : ArbThread} {n : ArbIns}
    (hat : s.arbAt c u op w x = true) (hn : n.Runs ⟨s, c, u, x, w⟩) :
    s.arbRow n op c u .none = .next (n.effect ⟨s, c, u, x, w⟩
      (s.issue c u (x.issued ((n.next ⟨s, c, u, x, w⟩).getD x.pc) (n.slots w)))) := by
  obtain ⟨hissues, hword, hop, hthr, hstep⟩ := State.arbAt_iff.1 hat
  have hrun : s.arbRun n c u w .none = n.effect ⟨s, c, u, x, w⟩
      (s.issue c u (x.issued ((n.next ⟨s, c, u, x, w⟩).getD x.pc) (n.slots w))) := by
    simp only [State.arbRun, hthr, hn.cause, hstep, Bool.false_eq_true, false_and, if_false]
    rfl
  simp only [State.arbRow, hissues, hword, hop, hrun, Bool.not_true, Bool.false_eq_true, ne_eq, not_true_eq_false,
    or_self, if_false, reduceCtorEq]

/-! ### What an instruction that works on its own thread and cluster leaves as it was -/

/-- After the issue, before the effect. -/
theorem State.issue_arbNext (s : State) (c u : Nat) (y : ArbThread) : s.arbNext (s.issue c u y) c u y (s.clu c) :=
  ⟨s.issue_thr c u y, fun _ hv => s.issue_thr_ne c y hv, fun _ hd => s.setThr_clu_ne u y hd, s.issue_rest c u y,
    State.wrapBy_issues .., s.issue_sameRegs c u y, s.issue_sameBut c u y⟩

namespace State.arbNext

variable {s t : State} {c u : Nat} {x y : ArbThread} {w : Word} {k : ArbCluster}

/-- The thread replaced. -/
theorem setThr (h : s.arbNext t c u y k) (z : ArbThread) : s.arbNext (t.setThr c u z) c u z k := by
  obtain ⟨-, hothers, hclu, hrest, hcount, hregs, hbut⟩ := h
  exact ⟨t.setThr_thr c u z, fun v hv => (t.setThr_thr_ne c z hv).trans (hothers v hv),
    fun d hd => (t.setThr_clu_ne u z hd).trans (hclu d hd), (t.setThr_rest c u z).trans hrest, hcount, hregs,
    hbut.withArb _⟩

/-- The cluster changed beside its threads. -/
theorem setClu (h : s.arbNext t c u y k) (f : ArbCluster → ArbCluster)
    (hthreads : ∀ k, (f k).threads = k.threads := by intro _; rfl)
    (hrest : ∀ k, (f k).rest = (f k.rest).rest := by intro _; rfl) :
    s.arbNext (t.setClu c (f (t.clu c))) c u y (f k) := by
  obtain ⟨hthr, hothers, hclu, hk, hcount, hregs, hbut⟩ := h
  refine ⟨(State.setClu_thr (hthreads _) u).trans hthr, fun v hv => (State.setClu_thr (hthreads _) v).trans (hothers v hv),
    fun d hd => (t.setClu_clu_ne _ hd).trans (hclu d hd), ?_, hcount, hregs, hbut.withArb _⟩
  rw [State.setClu_clu]
  exact (hrest _).trans ((congrArg (fun k => (f k).rest) hk).trans (hrest k).symm)

/-- An effect on the thread alone. -/
theorem upd (h : s.arbNext t c u y k) (f : ArbThread → ArbThread) :
    s.arbNext (ArbCtx.upd ⟨s, c, u, x, w⟩ t f) c u (f y) k := by
  rw [ArbCtx.upd, h.1]
  exact h.setThr (f y)

/-- A result written to `RD`. -/
theorem put (h : s.arbNext t c u y k) (v : Word) :
    s.arbNext (ArbCtx.put ⟨s, c, u, x, w⟩ t v) c u (y.put (iRd w) v) k :=
  h.upd _

end State.arbNext

/-- The row of an instruction whose effect does what the rule says. -/
theorem State.arbRow_arbNext {s : State} {c u op : Nat} {w : Word} {x y : ArbThread} {k : ArbCluster} {n : ArbIns}
    (hat : s.arbAt c u op w x = true) (hn : n.Runs ⟨s, c, u, x, w⟩)
    (heff : ∀ t, s.arbNext t c u (x.issued ((n.next ⟨s, c, u, x, w⟩).getD x.pc) (n.slots w)) (s.clu c) →
      s.arbNext (n.effect ⟨s, c, u, x, w⟩ t) c u y k) :
    ∃ t, s.arbRow n op c u .none = .next t ∧ s.arbNext t c u y k :=
  ⟨_, State.arbRow_runs hat hn, heff _ (s.issue_arbNext ..)⟩

/-! ### The shapes of arithmetic instructions (R162, Table 6-7) -/

section
variable {s : State} {c u op : Nat} {w : Word} {x : ArbThread}

theorem State.arbRow_alu (f : Word → Word → Word) (hat : s.arbAt c u op w x = true) (hfmt : bitsAt w 40 0 = 0)
    (hpc : x.pc + 1 < (s.clu c).imem.length) :
    ∃ t, s.arbRow (insAlu f) op c u .none = .next t ∧
      s.arbNext t c u ((x.issued (x.pc + 1) 1).put (iRd w) (f (gReg x (iRa w)) (gReg x (iRb w)))) (s.clu c) :=
  State.arbRow_arbNext hat { fmt := beq_iff_eq.2 hfmt, pc := decide_eq_true hpc } fun _ h => h.put _

theorem State.arbRow_imm (f : Word → Word → Word) (hat : s.arbAt c u op w x = true) (hfmt : bitsAt w 40 32 = 0)
    (hrb : iRb w = 0) (hpc : x.pc + 1 < (s.clu c).imem.length) :
    ∃ t, s.arbRow (insImm f) op c u .none = .next t ∧
      s.arbNext t c u ((x.issued (x.pc + 1) 1).put (iRd w) (f (gReg x (iRa w)) (iSext32 w))) (s.clu c) :=
  State.arbRow_arbNext hat { fmt := beq_iff_eq.2 hfmt, pc := decide_eq_true hpc, rb := .inr hrb } fun _ h => h.put _

/-- A shift count below 64 is itself in the low bits of the sign-extended immediate. -/
theorem bitsAt_iSext32 (hcount : iImm32 w < 64) : bitsAt (iSext32 w) 5 0 = iImm32 w := by
  have hlow : bitsAt (iSext32 w) 5 0 = bitsAt w 5 0 := by
    apply Nat.eq_of_testBit_eq
    intro i
    rw [testBit_bitsAt, testBit_bitsAt, BitVec.testBit_toNat, BitVec.testBit_toNat]
    by_cases hi : i < 6
    · rw [Nat.zero_add, iSext32, BitVec.getLsbD_signExtend, if_pos (by omega), BitVec.getLsbD_setWidth]
      simp [show i < 32 by omega, show i < 64 by omega]
    · simp [hi]
  rw [hlow]
  simp only [iImm32, bitsAt] at *
  omega

/-- The shift count is `IMM32` itself, which is below 64. -/
theorem State.arbRow_shiftImm (f : Word → Word → Word) (hat : s.arbAt c u op w x = true) (hfmt : bitsAt w 40 32 = 0)
    (hrb : iRb w = 0) (hcount : iImm32 w < 64) (hpc : x.pc + 1 < (s.clu c).imem.length) :
    ∃ t, s.arbRow (insShiftImm f) op c u .none = .next t ∧
      s.arbNext t c u ((x.issued (x.pc + 1) 1).put (iRd w) (f (gReg x (iRa w)) (iSext32 w))) (s.clu c) :=
  State.arbRow_arbNext hat
    { fmt := beq_iff_eq.2 hfmt, pc := decide_eq_true hpc, rb := .inr hrb, illegal := decide_eq_false (Nat.not_le.2 hcount) }
    fun _ h => h.put _

end

/-! ### The values of Table 6-7 -/

theorem wMinu_eq (a b : Word) : wMinu a b = BitVec.ofNat 64 (min a.toNat b.toNat) := by
  unfold wMinu
  by_cases h : a.toNat < b.toNat
  · simp [BitVec.ult, h, Nat.min_eq_left h.le]
  · simp [BitVec.ult, h, Nat.min_eq_right (Nat.not_lt.1 h)]

theorem wMaxu_eq (a b : Word) : wMaxu a b = BitVec.ofNat 64 (max a.toNat b.toNat) := by
  unfold wMaxu
  by_cases h : a.toNat < b.toNat
  · simp [BitVec.ult, h, Nat.max_eq_right h.le]
  · simp [BitVec.ult, h, Nat.max_eq_left (Nat.not_lt.1 h)]

theorem wMul_eq (a b : Word) : wMul a b = BitVec.ofNat 64 (a.toNat * b.toNat) := by
  rw [wMul, BitVec.ofNat_mul, BitVec.ofNat_toNat, BitVec.ofNat_toNat, BitVec.setWidth_eq, BitVec.setWidth_eq]

theorem wSltu_eq (a b : Word) : wSltu a b = BitVec.ofNat 64 (if a.ult b then 1 else 0) := by
  unfold wSltu
  split <;> rfl

theorem wSltu_eq_toNat (a b : Word) : wSltu a b = BitVec.ofNat 64 (if a.toNat < b.toNat then 1 else 0) := by
  simp [wSltu_eq, BitVec.ult]

/-- `MOVHI` replaces the high half of `RD`. -/
theorem setBits_high (w : Word) {v : Nat} (hv : v < 2 ^ 32) :
    setBits w 63 32 v = BitVec.ofNat 64 (v * 2 ^ 32 + w.toNat % 2 ^ 32) := by
  have hw := w.isLt
  rw [setBits, bitsAt]
  congr 1
  omega

theorem fW_pos (w : Word) : 0 < fW w := Nat.succ_pos _

/-- Settles O23, one clause of Table 6-7 after another by the shape of the instruction. -/
theorem arbourArithmetic : Obligations.ArbourArithmetic := by
  unfold Obligations.ArbourArithmetic
  refine ⟨?nop, ?add, ?sub, ?and, ?or, ?xor, ?andn, ?shl, ?shr, ?sar, ?minu, ?maxu, ?mul, ?sltu, ?addi, ?andi, ?ori, ?xori,
    ?sltui, ?shli, ?shri, ?sari, ?movi, ?movhi, ?bfx, ?bfi⟩
  case nop =>
    intro s c u w x _ _ hat hfmt hrd hra hrb hpc
    have hop : iOp (s.arbWord c u) = 0x01 := by
      obtain ⟨-, rfl, hop, -, -⟩ := State.arbAt_iff.1 hat
      exact hop
    have arm : exec (.arbNop c u .none) s = s.arbRow insNop 0x01 c u .none := by
      show execArbNop c u .none s = _
      rw [execArbNop, hop]
      rfl
    rw [arm]
    exact State.arbRow_arbNext hat
      { fmt := beq_iff_eq.2 hfmt, pc := decide_eq_true hpc, rd := .inr hrd, ra := .inr hra, rb := .inr hrb } fun _ h => h
  case add => intro s c u w x _ _ hat hfmt hpc; exact State.arbRow_alu wAdd hat hfmt hpc
  case sub => intro s c u w x _ _ hat hfmt hpc; exact State.arbRow_alu wSub hat hfmt hpc
  case and => intro s c u w x _ _ hat hfmt hpc; exact State.arbRow_alu wAnd hat hfmt hpc
  case or => intro s c u w x _ _ hat hfmt hpc; exact State.arbRow_alu wOr hat hfmt hpc
  case xor => intro s c u w x _ _ hat hfmt hpc; exact State.arbRow_alu wXor hat hfmt hpc
  case andn => intro s c u w x _ _ hat hfmt hpc; exact State.arbRow_alu wAndn hat hfmt hpc
  case shl => intro s c u w x _ _ hat hfmt hpc; exact State.arbRow_alu wShl hat hfmt hpc
  case shr => intro s c u w x _ _ hat hfmt hpc; exact State.arbRow_alu wShr hat hfmt hpc
  case sar => intro s c u w x _ _ hat hfmt hpc; exact State.arbRow_alu wSar hat hfmt hpc
  case minu =>
    intro s c u w x _ _ hat hfmt hpc
    rw [← wMinu_eq]
    exact State.arbRow_alu wMinu hat hfmt hpc
  case maxu =>
    intro s c u w x _ _ hat hfmt hpc
    rw [← wMaxu_eq]
    exact State.arbRow_alu wMaxu hat hfmt hpc
  case mul =>
    intro s c u w x _ _ hat hfmt hpc
    rw [← wMul_eq]
    exact State.arbRow_arbNext (n := insMul) hat { fmt := beq_iff_eq.2 hfmt, pc := decide_eq_true hpc } fun _ h => h.put _
  case sltu =>
    intro s c u w x _ _ hat hfmt hpc
    rw [← wSltu_eq_toNat]
    exact State.arbRow_alu wSltu hat hfmt hpc
  case addi => intro s c u w x _ _ hat hfmt hrb hpc; exact State.arbRow_imm wAdd hat hfmt hrb hpc
  case andi => intro s c u w x _ _ hat hfmt hrb hpc; exact State.arbRow_imm wAnd hat hfmt hrb hpc
  case ori => intro s c u w x _ _ hat hfmt hrb hpc; exact State.arbRow_imm wOr hat hfmt hrb hpc
  case xori => intro s c u w x _ _ hat hfmt hrb hpc; exact State.arbRow_imm wXor hat hfmt hrb hpc
  case sltui =>
    intro s c u w x _ _ hat hfmt hrb hpc
    rw [← wSltu_eq]
    exact State.arbRow_imm wSltu hat hfmt hrb hpc
  case shli =>
    intro s c u w x _ _ hat hfmt hrb hcount hpc
    rw [← bitsAt_iSext32 hcount]
    exact State.arbRow_shiftImm wShl hat hfmt hrb hcount hpc
  case shri =>
    intro s c u w x _ _ hat hfmt hrb hcount hpc
    rw [← bitsAt_iSext32 hcount]
    exact State.arbRow_shiftImm wShr hat hfmt hrb hcount hpc
  case sari =>
    intro s c u w x _ _ hat hfmt hrb hcount hpc
    rw [← bitsAt_iSext32 hcount]
    exact State.arbRow_shiftImm wSar hat hfmt hrb hcount hpc
  case movi =>
    intro s c u w x _ _ hat hfmt hra hrb hpc
    exact State.arbRow_arbNext (n := insMovi) hat
      { fmt := beq_iff_eq.2 hfmt, pc := decide_eq_true hpc, ra := .inr hra, rb := .inr hrb } fun _ h => h.put _
  case movhi =>
    intro s c u w x _ _ hat hfmt hra hrb hpc
    rw [← setBits_high (v := iImm32 w) _ (bitsAt_lt w 31 0)]
    exact State.arbRow_arbNext (n := insMovhi) hat
      { fmt := beq_iff_eq.2 hfmt, pc := decide_eq_true hpc, ra := .inr hra, rb := .inr hrb } fun _ h => h.put _
  case bfx =>
    intro s c u w x _ _ hat hfmt hrb hew hwidth hpc
    rw [← bitsAt_width _ _ (fW_pos w)]
    exact State.arbRow_arbNext (n := insBfx) hat
      { fmt := beq_iff_eq.2 hfmt, pc := decide_eq_true hpc, rb := .inr hrb
        illegal := by simp [insBfx, fieldTooWide, hew, hwidth] }
      fun _ h => h.put _
  case bfi =>
    intro s c u w x _ _ hat hfmt hrb hew hwidth hpc
    rw [← setBits_width _ _ _ (fW_pos w)]
    exact State.arbRow_arbNext (n := insBfi) hat
      { fmt := beq_iff_eq.2 hfmt, pc := decide_eq_true hpc, rb := .inr hrb
        illegal := by simp [insBfi, fieldTooWide, hew, hwidth] }
      fun _ h => h.put _

end Sys2Proof.Machine
end

section
/-! SUPPORT. The packet instructions of an arbour thread, and O24. -/

namespace Sys2Proof.Machine

set_option Elab.async false

namespace State.arbNext

variable {s t : State} {c u : Nat} {y : ArbThread} {k : ArbCluster}

theorem thr (h : s.arbNext t c u y k) : t.thr c u = y := by
  obtain ⟨hthr, -⟩ := h
  exact hthr

theorem rest (h : s.arbNext t c u y k) : (t.clu c).rest = k.rest := by
  obtain ⟨-, -, -, hrest, -⟩ := h
  exact hrest

/-- The packet of the thread handed to the commit buffer (R142). -/
theorem handOver (h : s.arbNext t c u y k) {p : ArbPacket} (hp : y.pkt = some p) :
    s.arbNext (t.handOver c u) c u { y with committed := true }
      { k with commits := k.commits ++ [⟨p.src, p.arrival, commitWords y p, commitData y p, y.key, y.profile, p.prio,
        p.poison || hGet y.ew CH.poison == 1, false⟩] } := by
  simp only [State.handOver, h.thr, hp]
  exact (h.setThr _).setClu fun k => { k with commits := k.commits ++ [_] }

end State.arbNext

/-- Settles O24, clause by clause. -/
theorem arbourWindowKeyAndEmit : Obligations.ArbourWindowKeyAndEmit := by
  unfold Obligations.ArbourWindowKeyAndEmit
  refine ⟨?ext, ?ins, ?kcpy, ?crcwin, ?kput, ?kclr, ?kprof, ?crc, ?emitf, ?commit, ?commitWait⟩
  case ext =>
    intro s c u w x _ _ hat hfmt hrb hkoff hn hin hbase hpc
    exact State.arbRow_arbNext (n := insExt) hat
      { fmt := beq_iff_eq.2 hfmt, pc := decide_eq_true hpc, rb := .inr hrb, illegal := by simp [insExt, hkoff, hn]
        window := decide_eq_false (Nat.not_lt.2 hin), packet := .inr hbase } fun _ h => h.put _
  case ins =>
    intro s c u w x _ _ hat hfmt hrd hkoff hn hin hbase hcom hpc
    exact State.arbRow_arbNext (n := insIns) hat
      { fmt := beq_iff_eq.2 hfmt, pc := decide_eq_true hpc, rd := .inr hrd, illegal := by simp [insIns, hkoff, hn]
        window := decide_eq_false (Nat.not_lt.2 hin), packet := .inr hbase, commit := .inr hcom } fun _ h => h.upd _
  case kcpy =>
    intro s c u w x _ _ hat hfmt hrd hrb hboff hw hn hin hkey hbase hcom hpc
    exact State.arbRow_arbNext (n := insKcpy) hat
      { fmt := beq_iff_eq.2 hfmt, pc := decide_eq_true hpc, rd := .inr hrd, rb := .inr hrb
        illegal := by simp [insKcpy, hboff, hw, hn], window := decide_eq_false (Nat.not_lt.2 hin)
        key := decide_eq_false (Nat.not_lt.2 hkey), packet := .inr hbase, commit := .inr hcom } fun _ h => h.upd _
  case crcwin =>
    intro s c u w x _ _ hat hfmt hrb hboff hw hkoff hin hbase hpc
    exact State.arbRow_arbNext (n := insCrcwin) hat
      { fmt := beq_iff_eq.2 hfmt, pc := decide_eq_true hpc, rb := .inr hrb, illegal := by simp [insCrcwin, hboff, hw, hkoff]
        window := decide_eq_false (Nat.not_lt.2 hin), packet := .inr hbase } fun _ h => h.put _
  case kput =>
    intro s c u w x _ _ hat hfmt hrd hrb hkey hbase hcom hpc
    exact State.arbRow_arbNext (n := insKput) hat
      { fmt := beq_iff_eq.2 hfmt, pc := decide_eq_true hpc, rd := .inr hrd, rb := .inr hrb
        key := decide_eq_false (Nat.not_lt.2 hkey), packet := .inr hbase, commit := .inr hcom } fun _ h => h.upd _
  case kclr =>
    intro s c u w x _ _ hat hfmt hrd hra hrb hbase hcom hpc
    exact State.arbRow_arbNext (n := insKclr) hat
      { fmt := beq_iff_eq.2 hfmt, pc := decide_eq_true hpc, rd := .inr hrd, ra := .inr hra, rb := .inr hrb
        packet := .inr hbase, commit := .inr hcom } fun _ h => h.upd _
  case kprof =>
    intro s c u w x _ _ hat hfmt hrd hra hrb himm hbase hcom hpc
    exact State.arbRow_arbNext (n := insKprof) hat
      { fmt := beq_iff_eq.2 hfmt, pc := decide_eq_true hpc, rd := .inr hrd, ra := .inr hra, rb := .inr hrb
        illegal := decide_eq_false (Nat.not_le.2 himm), packet := .inr hbase, commit := .inr hcom } fun _ h => h.upd _
  case crc =>
    intro s c u w x _ _ hat hfmt hkoff hpc
    exact State.arbRow_arbNext (n := insCrc) hat
      { fmt := beq_iff_eq.2 hfmt, pc := decide_eq_true hpc, illegal := by simp [insCrc, hkoff] } fun _ h => h.put _
  case emitf =>
    intro s c u w x _ _ hat hfmt hrd hrb hwidth hbase hcom hpc
    exact State.arbRow_arbNext (n := insEmitf) hat
      { fmt := beq_iff_eq.2 hfmt, pc := decide_eq_true hpc, rd := .inr hrd, rb := .inr hrb
        illegal := decide_eq_false (Nat.not_lt.2 hwidth), packet := .inr hbase, commit := .inr hcom } fun _ h => h.upd _
  case commit =>
    intro s c u w x p _ _ hat hfmt hra hrb hidx himm hbase hcom hp hroom hwaiting hpc
    refine State.arbRow_arbNext (n := insCommit) hat
      { fmt := beq_iff_eq.2 hfmt, pc := decide_eq_true hpc, ra := .inr hra, rb := .inr hrb
        illegal := by simp [insCommit, hidx, himm], packet := .inr hbase, commit := .inr hcom } fun t h => ?_
    have hfree : commitFree (t.clu c) = true := (congrArg commitFree h.rest).trans (decide_eq_true hroom)
    have hnone : (t.clu c).commitWait = [] := (congrArg ArbCluster.commitWait h.rest).trans hwaiting
    simp only [insCommit, hfree, hnone, List.isEmpty_nil, Bool.and_self, if_true]
    exact (h.put 0).handOver hp
  case commitWait =>
    intro s c u w x _ _ hat hfmt hra hrb hidx himm hbase hcom hfull hpc
    refine State.arbRow_arbNext (n := insCommit) hat
      { fmt := beq_iff_eq.2 hfmt, pc := decide_eq_true hpc, ra := .inr hra, rb := .inr hrb
        illegal := by simp [insCommit, hidx, himm], packet := .inr hbase, commit := .inr hcom } fun t h => ?_
    have hfree : commitFree (t.clu c) = false :=
      (congrArg commitFree h.rest).trans (decide_eq_false (Nat.not_lt.2 hfull))
    simp only [insCommit, hfree, Bool.false_and, Bool.false_eq_true, if_false]
    exact (h.upd _).setClu fun k => { k with commitWait := k.commitWait ++ [u] }

end Sys2Proof.Machine
end

section
/-! SUPPORT. Data memory of an arbour cluster, branches, special values, and O25. -/

namespace Sys2Proof.Machine

set_option Elab.async false

/-! ### Data memory (R166, R167) -/

theorem ArbCtx.memOut_eq_false {k : ArbCtx} (halign : k.memA % 2 ^ mSize k.w = 0) (hin : k.memA + 2 ^ mSize k.w ≤ 65536) :
    k.memOut = false := by
  simp [ArbCtx.memOut, halign, hin]

/-- A store of the thread is kept as a store of its cycle. -/
theorem State.arbNext.dmemPut {s t : State} {c u : Nat} {y : ArbThread} {k : ArbCluster} (h : s.arbNext t c u y k) (a : Nat)
    (l : List Byte) :
    s.arbNext (t.dmemPut c u a l) c u y { k with
      dmem := dmemSeen k u
      stores := (if storesPast k u then [] else k.stores) ++ [⟨u, a, l⟩]
      storeAt := k.cycle } :=
  h.setClu fun k => { k with
    dmem := dmemSeen k u, stores := (if storesPast k u then [] else k.stores) ++ [⟨u, a, l⟩], storeAt := k.cycle }

/-- What data memory reads after the bytes `l` were written from address `a` on. -/
theorem spGet_dmemBytes (m : Sparse Byte) (a : Nat) (l : List Byte) (q : Nat) :
    spGet (fun _ => (0 : Byte)) (dmemBytes m a l) q =
      if a ≤ q ∧ q < a + l.length then l.getD (q - a) 0 else spGet (fun _ => (0 : Byte)) m q := by
  have hfrom : ∀ (i : Nat) (m : Sparse Byte), spGet (fun _ => (0 : Byte))
      ((l.zipIdx i).foldl (fun m x => spSet (fun _ => (0 : Byte)) m (a + x.2) x.1) m) q =
      if a + i ≤ q ∧ q < a + i + l.length then l.getD (q - (a + i)) 0 else spGet (fun _ => (0 : Byte)) m q := by
    induction l with
    | nil => intro i m; simp
    | cons b l ih =>
      intro i m
      rw [List.zipIdx_cons, List.foldl_cons, ih, spGet_set]
      rcases Nat.lt_trichotomy q (a + i) with hlt | rfl | hgt
      · rw [if_neg (by omega), if_neg (by omega), if_neg (by omega)]
      · rw [if_neg (by omega), if_pos rfl, if_pos (by simp)]
        simp
      · by_cases hin : q < a + i + (l.length + 1)
        · rw [if_pos (by omega), if_pos (by simp; omega), show q - (a + i) = q - (a + (i + 1)) + 1 by omega,
            List.getD_cons_succ]
        · rw [if_neg (by omega), if_neg (by omega), if_neg (by simp; omega)]
  exact hfrom 0 m

@[simp] theorem length_natLE (n v : Nat) : (natLE n v).length = n := by
  induction n generalizing v with
  | zero => rfl
  | succ n ih => rw [natLE, List.length_cons, ih]

/-- A byte of a word stored little-endian. -/
theorem getD_natLE (v : Word) {n i : Nat} (hi : i < n) : (natLE n v.toNat).getD i 0 = (v >>> (8 * i)).truncate 8 := by
  have hbyte : ∀ m : Nat, (natLE n m).getD i 0 = BitVec.ofNat 8 (m / 2 ^ (8 * i)) := by
    induction n generalizing i with
    | zero => omega
    | succ n ih =>
      intro m
      rw [natLE]
      cases i with
      | zero => exact BitVec.eq_of_toNat_eq (by simp)
      | succ i =>
        rw [List.getD_cons_succ, ih (by omega), Nat.div_div_eq_div_mul, show 8 * (i + 1) = 8 + 8 * i by omega, Nat.pow_add]
  rw [hbyte]
  apply BitVec.eq_of_toNat_eq
  simp [Nat.shiftRight_eq_div_pow]

/-- Data memory after a cycle with one store. -/
theorem dmemAfter_one {k : ArbCluster} {x : ArbStore} (hstores : k.stores = [x]) (hx : x.thread < 64) :
    dmemAfter k = dmemBytes k.dmem x.addr x.data := by
  have hfold : ∀ n, (List.range n).foldl (fun m t => match k.stores.find? fun y => y.thread == t with
      | some y => dmemBytes m y.addr y.data
      | none => m) k.dmem = if x.thread < n then dmemBytes k.dmem x.addr x.data else k.dmem := by
    intro n
    induction n with
    | zero => rfl
    | succ n ih =>
      rw [List.range_succ, List.foldl_append, ih, hstores]
      rcases Nat.lt_trichotomy x.thread n with hlt | heq | hgt
      · simp [hlt, Nat.lt_succ_of_lt hlt, hlt.ne]
      · simp [heq]
      · simp [hgt.ne', Nat.not_lt.2 hgt.le, show ¬ x.thread < n + 1 by omega]
  exact (hfold 64).trans (if_pos hx)

/-! ### Special values (R172) -/

theorem ArbCtx.special_packet {k : ArbCtx} {p : ArbPacket} (hp : k.x.pkt = some p) {n : Nat} (hn : n < 9) :
    k.special n = [p.len, p.src, p.arrival, p.ruleVer, p.prio, k.c * 256 + k.t, (k.s.clu k.c).cycle,
      p.ns * 2 ^ 16 + p.frac, k.x.st].getD n 0 := by
  interval_cases n <;> simp [ArbCtx.special, hp]

theorem ArbCtx.special_no_packet {k : ArbCtx} (hp : k.x.pkt = none) {n : Nat} (hn : n < 9) :
    k.special n = [0, 0, 0, 0, 0, k.c * 256 + k.t, (k.s.clu k.c).cycle, 0, k.x.st].getD n 0 := by
  interval_cases n <;> simp [ArbCtx.special, hp]

theorem ArbCtx.special_svcCause (k : ArbCtx) : k.special 9 = (k.s.clu k.c).svcCause := by
  cases hp : k.x.pkt <;> simp [ArbCtx.special]

/-- `RDS` of a source but `SVC_CAUSE`. -/
theorem State.arbRow_rds {s : State} {c u op : Nat} {w : Word} {x : ArbThread} (hat : s.arbAt c u op w x = true)
    (hfmt : bitsAt w 40 32 = 0) (hra : iRa w = 0) (hrb : iRb w = 0) (hsrc : iImm32 w < 9)
    (hpc : x.pc + 1 < (s.clu c).imem.length) :
    ∃ t, s.arbRow insRds op c u .none = .next t ∧
      s.arbNext t c u ((x.issued (x.pc + 1) 1).put (iRd w)
        (BitVec.ofNat 64 (ArbCtx.special ⟨s, c, u, x, w⟩ (iImm32 w)))) (s.clu c) := by
  refine State.arbRow_arbNext (n := insRds) hat
    { fmt := beq_iff_eq.2 hfmt, pc := decide_eq_true hpc, ra := .inr hra, rb := .inr hrb
      illegal := decide_eq_false (by show ¬ 10 ≤ iImm32 w; omega) } fun t h => ?_
  simp only [insRds, if_neg hsrc.ne]
  exact h.put _

/-- Settles O25, clause by clause. -/
theorem arbourMemoryBranchesAndSpecials : Obligations.ArbourMemoryBranchesAndSpecials := by
  unfold Obligations.ArbourMemoryBranchesAndSpecials
  refine ⟨?ld, ?st, ?tpz, ?br, ?bri, ?jal, ?jr, ?rdsPacket, ?rdsNoPacket, ?rdsSvcCause⟩
  case ld =>
    intro s c u w x _ _ hat hfmt hrb halign hin hpc
    exact State.arbRow_arbNext (n := insLd) hat
      { fmt := beq_iff_eq.2 hfmt, pc := decide_eq_true hpc, rb := .inr hrb, dmem := ArbCtx.memOut_eq_false halign hin }
      fun _ h => h.put _
  case st =>
    intro s c u w x _ hu hat hfmt hrd halign hin hpc
    obtain ⟨t, arm, hnext⟩ := State.arbRow_arbNext (n := insSt) hat
      { fmt := beq_iff_eq.2 hfmt, pc := decide_eq_true hpc, rd := .inr hrd, dmem := ArbCtx.memOut_eq_false halign hin }
      fun _ h => h.dmemPut _ _
    refine ⟨t, arm, hnext, fun hpast q => ?_⟩
    have hstores := congrArg ArbCluster.stores hnext.rest
    have hdmem := congrArg ArbCluster.dmem hnext.rest
    simp only [hpast, if_true, List.nil_append] at hstores hdmem
    rw [dmemAfter_one hstores hu, spGet_dmemBytes, length_natLE, hdmem]
    exact ite_congr rfl (fun ⟨hle, hlt⟩ => getD_natLE _ (Nat.sub_lt_left_of_lt_add hle hlt)) fun _ => rfl
  case tpz =>
    intro s c u w x _ _ hat hfmt hsize halign hin hpc
    exact State.arbRow_arbNext (n := insTpz) hat
      { fmt := beq_iff_eq.2 hfmt, pc := decide_eq_true hpc, illegal := by simp [insTpz, hsize]
        dmem := by simp [insTpz, halign, hin] } fun _ h => h.put _
  case br =>
    intro s c u w x _ _ hat hhigh hlow hrd hcond himm hpc
    exact State.arbRow_arbNext (n := insBr) hat
      { fmt := by simp [insBr, fmtZero, hhigh, hlow], pc := decide_eq_true hpc, rd := .inr hrd
        illegal := by simp [insBr, hcond, himm] } fun _ h => h
  case bri =>
    intro s c u w x _ _ hat hhigh hlow hrd hrb hcond hpc
    exact State.arbRow_arbNext (n := insBri) hat
      { fmt := by simp [insBri, fmtZero, hhigh, hlow], pc := decide_eq_true hpc, rd := .inr hrd, rb := .inr hrb
        illegal := decide_eq_false (Nat.not_lt.2 hcond) } fun _ h => h
  case jal =>
    intro s c u w x _ _ hat hhigh hlow hra hrb hcond himm hpc
    exact State.arbRow_arbNext (n := insJal) hat
      { fmt := by simp [insJal, fmtZero, hhigh, hlow], pc := decide_eq_true hpc, ra := .inr hra, rb := .inr hrb
        illegal := by simp [insJal, hcond, himm] } fun _ h => h.put _
  case jr =>
    intro s c u w x _ _ hat hhigh hlow hrd hrb hcond himm htarget hra hpc
    have hnext : bitsAt (gReg x (iRa w)) 13 0 = (gReg x (iRa w)).toNat := by
      rw [bitsAt, Nat.pow_zero, Nat.div_one, Nat.mod_eq_of_lt hra]
    have hill : insJr.illegal ⟨s, c, u, x, w⟩ = false := by
      simp only [insJr, hcond, himm, htarget, bne_self_eq_false, Bool.or_self, Bool.false_or]
      exact decide_eq_false (Nat.not_le.2 hra)
    rw [← hnext] at hpc ⊢
    exact State.arbRow_arbNext (n := insJr) hat
      { fmt := by simp [insJr, fmtZero, hhigh, hlow], pc := decide_eq_true hpc, rd := .inr hrd, rb := .inr hrb
        illegal := hill } fun _ h => h
  case rdsPacket =>
    intro s c u w x p _ _ hat hfmt hra hrb hsrc hp hpc
    have hrow := State.arbRow_rds hat hfmt hra hrb hsrc hpc
    rw [ArbCtx.special_packet hp hsrc] at hrow
    exact hrow
  case rdsNoPacket =>
    intro s c u w x _ _ hat hfmt hra hrb hsrc hp hpc
    have hrow := State.arbRow_rds hat hfmt hra hrb hsrc hpc
    rw [ArbCtx.special_no_packet hp hsrc] at hrow
    exact hrow
  case rdsSvcCause =>
    intro s c u w x _ _ hat hfmt hra hrb hsrc hpc
    refine State.arbRow_arbNext (n := insRds) hat
      { fmt := beq_iff_eq.2 hfmt, pc := decide_eq_true hpc, ra := .inr hra, rb := .inr hrb
        illegal := decide_eq_false (by show ¬ 10 ≤ iImm32 w; omega) } fun t h => ?_
    simp only [insRds, hsrc, if_true, ArbCtx.special_svcCause]
    exact (h.put _).setClu fun k => { k with svcCause := 0 }

end Sys2Proof.Machine
end

section
/-! SUPPORT. Waits and ends of arbour threads, what they leave of their cluster, and O26. -/

namespace Sys2Proof.Machine

set_option Elab.async false

/-! ### Work within the arbour alone -/

/-- `t` differs from `s` at most in the arbour's clusters and sources. -/
def ArbOnly (s t : State) : Prop := t = s.withArb t.arb

namespace ArbOnly

theorem refl (s : State) : ArbOnly s s := rfl

theorem trans {a b c : State} (h : ArbOnly a b) (k : ArbOnly b c) : ArbOnly a c := by
  unfold ArbOnly at *
  rw [k, h]
  rfl

theorem foldl {α : Type} {g : State → α → State} (h : ∀ s x, ArbOnly s (g s x)) (l : List α) (s : State) :
    ArbOnly s (l.foldl g s) := by
  induction l generalizing s with
  | nil => exact refl s
  | cons x l ih => exact (h s x).trans (ih _)

theorem setThr (s : State) (c t : Nat) (x : ArbThread) : ArbOnly s (s.setThr c t x) := rfl
theorem setClu (s : State) (c : Nat) (k : ArbCluster) : ArbOnly s (s.setClu c k) := rfl

theorem of_gate {c : Nat} {l : List Nat} {s t : State} (h : Gatehouse c l s t) : ArbOnly s t := by
  unfold ArbOnly
  rw [h.only]
  rfl

variable {s t : State}

theorem regs (h : ArbOnly s t) : t.regs = s.regs := by
  rw [h]
  rfl

theorem sameBut {a : State} {l : List Part} (h : ArbOnly s t) (hs : a.sameBut s l) (hl : .arb ∈ l := by decide) :
    a.sameBut t l := by
  rw [h]
  exact hs.withArb _ hl

/-- After an issue only `ARB_CLU_ISSUES` and the arbour have changed. -/
theorem frame {c u : Nat} {y : ArbThread} (h : ArbOnly (s.issue c u y) t) :
    s.sameRegs t [R.ARB_CLU_ISSUES c] ∧ s.sameBut t [.regs, .arb] :=
  ⟨fun r hr => (State.rd_congr h.regs r).trans (s.issue_sameRegs c u y r hr), h.sameBut (s.issue_sameBut c u y)⟩

end ArbOnly

/-! ### Threads of a cluster updated in turn -/

/-- Steps that each change one thread, by what that thread was. -/
theorem State.foldl_thr {c : Nat} {g : State → Nat → State} {f : Nat → ArbThread → ArbThread}
    (hg : ∀ s t u, (g s t).thr c u = if u = t then f t (s.thr c t) else s.thr c u) (n : Nat) (s : State) (u : Nat) :
    ((List.range n).foldl g s).thr c u = if u < n then f u (s.thr c u) else s.thr c u := by
  induction n with
  | zero => rfl
  | succ n ih =>
    rw [List.range_succ, List.foldl_append, List.foldl_cons, List.foldl_nil, hg]
    rcases Nat.lt_trichotomy u n with hlt | rfl | hgt
    · rw [if_neg hlt.ne, ih, if_pos hlt, if_pos (by omega)]
    · rw [if_pos rfl, ih, if_neg (lt_irrefl u), if_pos (by omega)]
    · rw [if_neg hgt.ne', ih, if_neg (by omega), if_neg (by omega)]

theorem State.setThr_thr_ite (s : State) (c t : Nat) (x : ArbThread) (u : Nat) :
    (s.setThr c t x).thr c u = if u = t then x else s.thr c u := by
  split
  · next h => rw [h, State.setThr_thr]
  · next h => exact s.setThr_thr_ne c x h

/-! ### The outcome of a wait (R151, R174) -/

/-- The register that the outcome of a wait goes to. -/
def ArbWait.rd : ArbWait → Nat
  | .lock _ r | .counter _ _ r | .order _ r | .commit r | .park _ _ r _ => r

/-- A thread that the outcome of its wait has reached; a halted one takes it when it resumes. -/
def ArbThread.ended (x : ArbThread) (status : Nat) : ArbThread :=
  if x.st = tHalt then { x with outcome := some status }
  else { x.put ((x.wait.map ArbWait.rd).getD 0) (BitVec.ofNat 64 status) with st := x.base, wait := none }

theorem State.endWait_eq_ended (s : State) (c t status : Nat) :
    s.endWait c t status = s.setThr c t ((s.thr c t).ended status) := by
  unfold State.endWait ArbThread.ended
  dsimp only
  split
  · rfl
  · cases hw : (s.thr c t).wait with
    | none => rfl
    | some w => cases w <;> rfl

theorem ArbThread.ended_goesOn {x : ArbThread} {w : ArbWait} (hw : x.wait = some w) (hst : x.st ≠ tHalt) (status : Nat) :
    x.ended status = { x.put w.rd (BitVec.ofNat 64 status) with st := x.base, wait := none } := by
  rw [ArbThread.ended, if_neg hst, hw]
  rfl

/-! ### Locks (R146, R147) -/

/-- A lock that nobody waits for is free once it is let go. -/
theorem State.arbNext.dropLock {s t : State} {c u : Nat} {y : ArbThread} {k : ArbCluster} (h : s.arbNext t c u y k) {i : Nat}
    (hw : (spGet (fun _ => ⟨none, []⟩) k.locks i).waiters = []) :
    s.arbNext (t.dropLock c u i) c u { y with locks := y.locks.filter (· != i) }
      { k with locks := spSet (fun _ => ⟨none, []⟩) k.locks i ⟨none, []⟩ } := by
  have hthr := h.setThr { y with locks := y.locks.filter (· != i) }
  have hnone := (congrArg (fun k => (spGet (fun _ => ⟨none, []⟩) k.locks i).waiters) hthr.rest).trans hw
  simp only [State.dropLock, State.grantLock, h.thr, hnone]
  exact hthr.setClu fun k => { k with locks := spSet (fun _ => ⟨none, []⟩) k.locks i ⟨none, []⟩ }

/-- A lock with waiters passes to the oldest, whose wait ends with 0. -/
theorem State.grantLock_oldest {s : State} {c i j r v : Nat} {h : Option Nat} {ws : List Nat}
    (hl : spGet (fun _ => ⟨none, []⟩) (s.clu c).locks i = ⟨h, v :: ws⟩) (hw : (s.thr c v).wait = some (.lock j r))
    (hst : (s.thr c v).st ≠ tHalt) :
    spGet (fun _ => ⟨none, []⟩) ((s.grantLock c i).clu c).locks i = ⟨some v, ws⟩ ∧
    (s.grantLock c i).thr c v =
      { (s.thr c v).put r 0 with st := (s.thr c v).base, wait := none, locks := i :: (s.thr c v).locks } ∧
    ∀ u, u ≠ v → (s.grantLock c i).thr c u = s.thr c u := by
  unfold State.grantLock
  simp only [hl]
  generalize hs1 : s.setClu c _ = s1
  have hthr : ∀ u, s1.thr c u = s.thr c u := fun u => by rw [← hs1]; exact State.setClu_thr (by rfl) u
  have hlock : spGet (fun _ => ⟨none, []⟩) (s1.clu c).locks i = ⟨some v, ws⟩ := by
    rw [← hs1, State.setClu_clu, spGet_set_same]
  have hlocks : ∀ (a : State) (x : ArbThread), ((a.setThr c v x).clu c).locks = (a.clu c).locks := fun a x =>
    (congrArg ArbCluster.locks (a.setThr_rest c v x) :)
  have hended := ArbThread.ended_goesOn (x := { s.thr c v with locks := i :: (s.thr c v).locks }) (w := .lock j r) hw hst 0
  rw [State.endWait_eq_ended, hlocks, hlocks, State.setThr_thr, State.setThr_thr, hthr, hended]
  exact ⟨hlock, rfl, fun u hu => by rw [State.setThr_thr_ne _ _ _ hu, State.setThr_thr_ne _ _ _ hu, hthr]⟩

/-! ### Counters (R145, R175) -/

/-- Does a thread wait on counter `j` for what the value `v` meets, the outcome still open? -/
def ArbThread.waitMet (x : ArbThread) (j v : Nat) : Bool :=
  match x.wait with
  | some (.counter i n _) | some (.park i n _ _) => i == j && counterMet v n && x.outcome.isNone
  | _ => false

/-- A thread that a counter at `v` has reached. -/
def ArbThread.settled (x : ArbThread) (j v : Nat) : ArbThread := if x.waitMet j v then x.ended 0 else x

theorem ArbThread.settled_of_not_waiting {x : ArbThread} (h : x.wait = none) (j v : Nat) : x.settled j v = x := by
  simp [ArbThread.settled, ArbThread.waitMet, h]

/-- One thread's part of `State.settleCounter`. -/
def State.settleThread (s : State) (c j v t : Nat) : State :=
  if (s.thr c t).waitMet j v then s.setThr c t ((s.thr c t).ended 0) else s

theorem State.settleCounter_eq (s : State) (c j : Nat) :
    s.settleCounter c j = (List.range 64).foldl (fun a t => a.settleThread c j (s.counter c j) t) s := by
  unfold State.settleCounter
  dsimp only
  congr 1
  funext a t
  unfold State.settleThread ArbThread.waitMet
  split <;> simp [*, State.counter, State.endWait_eq_ended, and_assoc]

theorem State.settleThread_thr (s : State) (c j v t u : Nat) :
    (s.settleThread c j v t).thr c u = if u = t then (s.thr c t).settled j v else s.thr c u := by
  unfold State.settleThread ArbThread.settled
  split
  · exact s.setThr_thr_ite ..
  · split
    · next h => rw [h]
    · rfl

/-- What a counter's waits leave: the arbour beside its threads, and each thread settled by itself. -/
theorem State.settleCounter_arbOnly (s : State) (c j : Nat) : ArbOnly s (s.settleCounter c j) := by
  rw [State.settleCounter_eq]
  refine .foldl (fun a t => ?_) ..
  unfold State.settleThread
  split
  · exact .setThr ..
  · exact .refl a

theorem State.settleCounter_rest (s : State) (c j : Nat) : ((s.settleCounter c j).clu c).rest = (s.clu c).rest := by
  rw [State.settleCounter_eq]
  refine foldl_part (fun a => (a.clu c).rest) _ _ _ fun a t => ?_
  unfold State.settleThread
  split
  · exact a.setThr_rest ..
  · rfl

theorem State.settleCounter_thr (s : State) (c j : Nat) {u : Nat} (hu : u < 64) :
    (s.settleCounter c j).thr c u = (s.thr c u).settled j (s.counter c j) := by
  rw [State.settleCounter_eq, State.foldl_thr (f := fun _ x => x.settled j (s.counter c j))
    (fun a t u => a.settleThread_thr c j _ t u), if_pos hu]

/-- Where nobody waits, a counter disturbs nobody. -/
theorem State.settleCounter_quiet {s : State} {c : Nat} (h : ∀ v, v < 64 → (s.thr c v).wait = none) (j : Nat) :
    s.settleCounter c j = s := by
  rw [State.settleCounter_eq]
  have hstep : ∀ l : List Nat, (∀ t ∈ l, t < 64) → l.foldl (fun a t => a.settleThread c j (s.counter c j) t) s = s := by
    intro l hl
    induction l with
    | nil => rfl
    | cons t l ih =>
      have hquiet : s.settleThread c j (s.counter c j) t = s := by
        simp [State.settleThread, ArbThread.waitMet, h t (hl t List.mem_cons_self)]
      rw [List.foldl_cons, hquiet, ih fun t ht => hl t (List.mem_cons_of_mem _ ht)]
  exact hstep _ fun t ht => List.mem_range.1 ht

/-! ### Sequencers (R145, R173) -/

theorem State.orderMet_iff (s : State) (c t q : Nat) :
    s.orderMet c t q = true ↔ ∀ u, u < 64 → u ≠ t →
      (s.thr c u).pkt = none ∨ (s.thr c t).order ≤ (s.thr c u).order ∨ q ∈ (s.thr c u).passed := by
  simp only [State.orderMet, List.all_eq_true, List.mem_range, Bool.or_eq_true, beq_iff_eq, Option.isNone_iff_eq_none,
    decide_eq_true_iff, List.contains_iff_mem]
  exact forall₂_congr fun u _ => by rw [or_assoc, or_assoc, or_iff_not_imp_left]

/-- Where nobody waits, no ORDER ends. -/
theorem State.settleOrders_quiet {s : State} {c : Nat} (h : ∀ v, v < 64 → (s.thr c v).wait = none) (n : Nat) :
    s.settleOrders c n = s := by
  cases n with
  | zero => rfl
  | succ n =>
    unfold State.settleOrders
    dsimp only
    rw [List.find?_eq_none.2 fun t ht => by simp [h t (List.mem_range.1 ht)]]

/-- A packet's thread passes a sequencer that it has not passed. -/
theorem State.arbNext.passSeq {s t : State} {c u q : Nat} {y : ArbThread} {k : ArbCluster} (h : s.arbNext t c u y k)
    (hp : y.pkt ≠ none) (hq : q ∉ y.passed) :
    s.arbNext (t.passSeq c u q) c u { y with passed := q :: y.passed }
      { k with seqCounts := spSet (fun _ => 0) k.seqCounts q ((spGet (fun _ => 0) k.seqCounts q + 1) % 2 ^ 32) } := by
  have hgo : ¬ (y.pkt.isNone = true ∨ y.passed.contains q = true) := by simp [hp, hq]
  simp only [State.passSeq, h.thr, if_neg hgo]
  exact (h.setThr _).setClu fun k =>
    { k with seqCounts := spSet (fun _ => 0) k.seqCounts q ((spGet (fun _ => 0) k.seqCounts q + 1) % 2 ^ 32) }

/-! ### The end of a thread that has nothing left to drop (R144) -/

/-- A thread keeps its packet, its locks, its set and a pending halt, and stays committed. -/
structure ArbThread.Keeps (x y : ArbThread) : Prop where
  pkt : y.pkt = x.pkt
  locks : y.locks = x.locks
  set : y.set = x.set
  haltPending : y.haltPending = x.haltPending
  committed : x.committed = true → y.committed = true

theorem ArbThread.Keeps.refl (x : ArbThread) : x.Keeps x := ⟨rfl, rfl, rfl, rfl, id⟩

theorem ArbThread.Keeps.trans {x y z : ArbThread} (h : x.Keeps y) (k : y.Keeps z) : x.Keeps z :=
  ⟨k.pkt.trans h.pkt, k.locks.trans h.locks, k.set.trans h.set, k.haltPending.trans h.haltPending,
    fun hc => k.committed (h.committed hc)⟩

theorem ArbThread.keeps_ended (x : ArbThread) (status : Nat) : x.Keeps (x.ended status) := by
  unfold ArbThread.ended
  split <;> exact ⟨rfl, rfl, rfl, rfl, id⟩

/-- The data memory, the counters and the locks of a cluster. -/
def ArbCluster.stored (k : ArbCluster) : Sparse Byte × Sparse Nat × Sparse ArbLock := (k.dmem, k.counters, k.locks)

/-- From `s` to `t` packets of cluster `c` have been committed, ordered or ended, and neither its memory nor its locks have
changed. -/
structure Settles (c : Nat) (s t : State) : Prop where
  stored : (t.clu c).stored = (s.clu c).stored
  threads : ∀ u, (s.thr c u).Keeps (t.thr c u)

namespace Settles

variable {c : Nat} {s a : State}

theorem refl (c : Nat) (s : State) : Settles c s s := ⟨rfl, fun _ => .refl _⟩

theorem setClu (h : Settles c s a) {k : ArbCluster} (hs : k.stored = (a.clu c).stored := by rfl)
    (ht : k.threads = (a.clu c).threads := by rfl) : Settles c s (a.setClu c k) :=
  ⟨by rw [State.setClu_clu, hs, h.stored], fun u => by rw [State.setClu_thr ht]; exact h.threads u⟩

theorem setThr (h : Settles c s a) {t : Nat} {x : ArbThread} (hx : (a.thr c t).Keeps x) : Settles c s (a.setThr c t x) := by
  refine ⟨(congrArg ArbCluster.stored (a.setThr_rest c t x)).trans h.stored, fun u => ?_⟩
  rw [State.setThr_thr_ite]
  split
  · next hu => exact (h.threads u).trans (hu ▸ hx)
  · exact h.threads u

theorem endWait (h : Settles c s a) (t status : Nat) : Settles c s (a.endWait c t status) := by
  rw [State.endWait_eq_ended]
  exact h.setThr (ArbThread.keeps_ended ..)

theorem handOver (h : Settles c s a) (t : Nat) : Settles c s (a.handOver c t) := by
  unfold State.handOver
  dsimp only
  split
  · exact h
  · refine .setClu (h.setThr ?_)
    exact ⟨rfl, rfl, rfl, rfl, fun _ => rfl⟩

theorem grantCommit (h : Settles c s a) : Settles c s (a.grantCommit c) := by
  unfold State.grantCommit
  dsimp only
  split
  · exact h
  · split
    · exact h
    · split
      · exact .setClu (.endWait h.setClu ..)
      · exact .endWait (.handOver h.setClu _) ..

theorem passSeq (h : Settles c s a) (t q : Nat) : Settles c s (a.passSeq c t q) := by
  unfold State.passSeq
  dsimp only
  split
  · exact h
  · refine .setClu (h.setThr ?_)
    exact ⟨rfl, rfl, rfl, rfl, id⟩

theorem settleOrders (h : Settles c s a) (n : Nat) : Settles c s (a.settleOrders c n) := by
  induction n generalizing a with
  | zero => exact h
  | succ n ih =>
    unfold State.settleOrders
    dsimp only
    split
    · exact h
    · split
      · exact ih (.endWait (h.passSeq ..) ..)
      · exact h

theorem foldl {α : Type} {g : State → α → State} (hg : ∀ {a} x, Settles c s a → Settles c s (g a x)) (h : Settles c s a)
    (l : List α) : Settles c s (l.foldl g a) := by
  induction l generalizing a with
  | nil => exact h
  | cons x l ih => exact ih (hg x h)

/-- A thread that waits for nothing withdraws no wait from a lock. -/
theorem withdrawWait (h : Settles c s a) {t : Nat} (hw : (a.thr c t).wait = none) : Settles c s (a.withdrawWait c t) := by
  simp only [State.withdrawWait, hw]
  refine .grantCommit (.setThr h.setClu ?_)
  rw [State.setClu_thr (by rfl)]
  exact ⟨rfl, rfl, rfl, rfl, id⟩

end Settles

/-- Becoming IDLE, with or without a service program to run, leaves the cluster's memory and locks. -/
theorem State.threadIdle_stored (s : State) (c t : Nat) : ((s.threadIdle c t).clu c).stored = (s.clu c).stored := by
  have hset : ∀ (a : State) (u : Nat) (x : ArbThread), ((a.setThr c u x).clu c).stored = (a.clu c).stored := fun a u x =>
    (congrArg ArbCluster.stored (a.setThr_rest c u x) :)
  have horders : ∀ x, (((s.setThr c t x).settleOrders c 64).clu c).stored = (s.clu c).stored := fun x =>
    (Settles.settleOrders (.refl ..) 64).stored.trans (hset s t x)
  unfold State.threadIdle
  dsimp only
  split
  · rw [State.enterService, hset, State.setClu_clu]
    exact horders _
  · exact horders _

/-- A thread has withdrawn its wait, let its locks go and passed every sequencer. -/
def State.letGo (s : State) (c t : Nat) : State :=
  (List.range 16).foldl (fun s q => s.passSeq c t q) ((s.withdrawWait c t).dropLocks c t)

theorem State.letGo_gatehouse (s : State) (c t : Nat) : Gatehouse c (s.clu c).commitWait s (s.letGo c t) :=
  (Gatehouse.dropLocks (.withdrawWait (.refl ..) (List.Subset.refl _) t) t).trans
    (.foldl _ _ _ fun _ q => .passSeq (.refl ..) t q)

/-- Without locks and without a wait, the cluster's memory and locks stay, and the thread keeps what it has. -/
theorem State.letGo_settles {s : State} {c t : Nat} (hlocks : (s.thr c t).locks = []) (hwait : (s.thr c t).wait = none) :
    Settles c s (s.letGo c t) := by
  have hdraw := Settles.withdrawWait (.refl c s) hwait
  rw [State.letGo, State.dropLocks, (hdraw.threads t).locks, hlocks, List.foldl_nil]
  exact .foldl (fun q h => h.passSeq t q) hdraw _

theorem State.retireThread_eq_threadIdle {s : State} {c t : Nat}
    (hdone : ((s.letGo c t).thr c t).committed = true ∨ ((s.letGo c t).thr c t).pkt = none) :
    s.retireThread c t = (s.letGo c t).threadIdle c t := by
  unfold State.retireThread State.letGo at *
  rcases hdone with h | h
  · simp only [h, if_true]
    split <;> rfl
  · simp only [h]

/-- A thread without locks or a wait, whose packet is committed if it has one, becomes IDLE: the cluster's memory and locks
stay. -/
theorem State.retireThread_done {s : State} {c t : Nat} (hlocks : (s.thr c t).locks = []) (hwait : (s.thr c t).wait = none)
    (hdone : (s.thr c t).committed = true ∨ (s.thr c t).pkt = none) (hsvc : t ≠ 0 ∨ (s.clu c).svcReq = false) :
    ArbOnly s (s.retireThread c t) ∧ ((s.retireThread c t).clu c).stored = (s.clu c).stored ∧
    (s.retireThread c t).thr c t =
      { threadReset t with set := (s.thr c t).set, haltPending := (s.thr c t).haltPending } := by
  have hgate := s.letGo_gatehouse c t
  have hsettles := State.letGo_settles hlocks hwait
  obtain ⟨hpkt, -, hset, hpending, hcommitted⟩ := hsettles.threads t
  obtain ⟨hidle, hreset⟩ := State.threadIdle_spec (s := s.letGo c t) (c := c) (t := t) (by rwa [hgate.svcReq])
  rw [State.retireThread_eq_threadIdle (hdone.imp hcommitted hpkt.trans)]
  exact ⟨(ArbOnly.of_gate hgate).trans (.of_gate hidle), (State.threadIdle_stored ..).trans hsettles.stored,
    by rw [hreset, hset, hpending]⟩

end Sys2Proof.Machine
end

section
/-! SUPPORT. The gatehouse instructions of an arbour thread, and O26. -/

namespace Sys2Proof.Machine

set_option Elab.async false

/-! ### END (R144, R176) -/

theorem RetireOnly.regs {s t : State} (h : RetireOnly s t) : t.regs = s.regs := by
  rw [h]

/-- A packet that is not committed is dropped and counted. -/
theorem State.endThread_dropped {s : State} {c t : Nat} {y : ArbThread} {p : ArbPacket} (hy : s.thr c t = y)
    (hlocks : y.locks = []) (hpkt : y.pkt = some p) (hcom : y.committed = false) (hwait : t ∉ (s.clu c).commitWait)
    (hsvc : t ≠ 0 ∨ (s.clu c).svcReq = false) :
    s.endThread c t = (s.count F.ARB_DROP_COUNT_COUNT).retireThread c t ∧
    RetireOnly (s.count F.ARB_DROP_COUNT_COUNT) ((s.count F.ARB_DROP_COUNT_COUNT).retireThread c t) ∧
    ((s.count F.ARB_DROP_COUNT_COUNT).retireThread c t).frames =
      s.frames.filter (fun f => !(f.src == p.src && f.arrival == p.arrival)) ∧
    ((s.count F.ARB_DROP_COUNT_COUNT).retireThread c t).thr c t =
      { threadReset t with set := y.set, haltPending := y.haltPending } := by
  subst hy
  exact ⟨by simp [State.endThread, hlocks, hpkt, hcom], State.retireThread_spec (s := s.count _) hpkt hcom hwait hsvc⟩

/-- A thread that has nothing to drop ends. -/
theorem State.endThread_done {s : State} {c t : Nat} {y : ArbThread} (hy : s.thr c t = y) (hlocks : y.locks = [])
    (hwait : y.wait = none) (hdone : y.committed = true ∨ y.pkt = none) (hsvc : t ≠ 0 ∨ (s.clu c).svcReq = false) :
    ArbOnly s (s.endThread c t) ∧
    (s.endThread c t).thr c t = { threadReset t with set := y.set, haltPending := y.haltPending } := by
  subst hy
  have hend : s.endThread c t = s.retireThread c t := by rcases hdone with h | h <;> simp [State.endThread, hlocks, h]
  obtain ⟨honly, -, hreset⟩ := State.retireThread_done hlocks hwait hdone hsvc
  rw [hend]
  exact ⟨honly, hreset⟩

@[simp] theorem State.issue_svcReq (s : State) (c u : Nat) (y : ArbThread) :
    ((s.issue c u y).clu c).svcReq = (s.clu c).svcReq :=
  s.setThr_svcReq c u y

@[simp] theorem State.issue_commitWait (s : State) (c u : Nat) (y : ArbThread) :
    ((s.issue c u y).clu c).commitWait = (s.clu c).commitWait :=
  s.setThr_commitWait c u y

theorem State.arbRow_end {s : State} {c u op : Nat} {w : Word} {x : ArbThread} (hat : s.arbAt c u op w x = true)
    (hn : insEnd.Runs ⟨s, c, u, x, w⟩) :
    s.arbRow insEnd op c u .none = .next ((s.issue c u (x.issued x.pc 1)).endThread c u) := by
  have heff : ∀ k t, insEnd.effect k t = t.endThread k.c k.t := fun _ _ => rfl
  rw [State.arbRow_runs hat hn, heff]
  rfl

theorem State.arbRow_release {s : State} {c u op : Nat} {w : Word} {x : ArbThread} (hat : s.arbAt c u op w x = true)
    (hn : insRelease.Runs ⟨s, c, u, x, w⟩) :
    s.arbRow insRelease op c u .none =
      .next (((s.issue c u (x.issued x.pc 1)).setCluState c cReleased).endThread c u) := by
  have heff : ∀ k t, insRelease.effect k t = (t.setCluState k.c cReleased).endThread k.c k.t := fun _ _ => rfl
  rw [State.arbRow_runs hat hn, heff]
  rfl

/-! ### Reading the cluster after the issue -/

theorem State.counter_congr {s t : State} {c : Nat} (h : (t.clu c).rest = (s.clu c).rest) (j : Nat) :
    t.counter c j = s.counter c j :=
  (congrArg (fun k : ArbCluster => spGet (fun _ => 0) k.counters j) h :)

theorem State.arbNext.lock {s t : State} {c u : Nat} {y : ArbThread} (h : s.arbNext t c u y (s.clu c)) (i : Nat) :
    spGet (fun _ => ⟨none, []⟩) (t.clu c).locks i = spGet (fun _ => ⟨none, []⟩) (s.clu c).locks i :=
  (congrArg (fun k : ArbCluster => spGet (fun _ => ⟨none, []⟩) k.locks i) h.rest :)

theorem State.arbNext.thr_ne {s t : State} {c u v : Nat} {y : ArbThread} {k : ArbCluster} (h : s.arbNext t c u y k)
    (hv : v ≠ u) : t.thr c v = s.thr c v := by
  obtain ⟨-, hothers, -⟩ := h
  exact hothers v hv

/-- Where no thread waited, and the one that issued does not, none waits. -/
theorem State.arbNext.quiet {s t : State} {c u : Nat} {y : ArbThread} {k : ArbCluster} (h : s.arbNext t c u y k)
    (hy : y.wait = none) (hs : ∀ v, v < 64 → (s.thr c v).wait = none) (v : Nat) (hv : v < 64) : (t.thr c v).wait = none := by
  by_cases hvu : v = u
  · rw [hvu, h.thr, hy]
  · rw [h.thr_ne hvu, hs v hv]

/-- The counter that SIGNAL has raised. -/
def ArbCluster.signalled (k : ArbCluster) (j n : Nat) : ArbCluster :=
  { k with counters := spSet (fun _ => 0) k.counters j ((spGet (fun _ => 0) k.counters j + n) % 2 ^ 32) }

theorem State.arbNext.signalled {s t : State} {c u : Nat} {y : ArbThread} {k : ArbCluster} (h : s.arbNext t c u y k)
    (j n : Nat) : s.arbNext (t.setClu c ((t.clu c).signalled j n)) c u y (k.signalled j n) :=
  h.setClu fun k => k.signalled j n

theorem State.arbNext.counter_signalled {s t : State} {c u j n : Nat} {y : ArbThread}
    (h : s.arbNext t c u y ((s.clu c).signalled j n)) : t.counter c j = (s.counter c j + n) % 2 ^ 32 :=
  (congrArg (fun k : ArbCluster => spGet (fun _ => 0) k.counters j) h.rest).trans (spGet_set_same ..)

/-- What WAIT and PARK compare: the counter, and a value of 32 bits. -/
theorem State.arbNext.counterTest {s t : State} {c u : Nat} {y : ArbThread} (h : s.arbNext t c u y (s.clu c)) (j : Nat)
    (v : Word) : counterMet (t.counter c j) (bitsAt v 31 0) =
      decide ((s.counter c j + 2 ^ 32 - bitsAt v 31 0) % 2 ^ 32 < 2 ^ 31) := by
  rw [State.counter_congr h.rest, counterMet, Nat.mod_eq_of_lt (bitsAt_lt v 31 0)]

theorem insSignal_effect (k : ArbCtx) (t : State) : insSignal.effect k t =
    (t.setClu k.c ((t.clu k.c).signalled (k.obj 256) (iImm16 k.w))).settleCounter k.c (k.obj 256) := by
  simp only [insSignal, ArbCluster.signalled, State.counter]

/-- The row of SIGNAL. -/
theorem State.arbRow_signal {s : State} {c u op : Nat} {w : Word} {x : ArbThread} (hat : s.arbAt c u op w x = true)
    (hfmt : bitsAt w 40 26 = 0) (hrd : iRd w = 0) (hrb : iRb w = 0) (hidx : gIdx w < 256) (hpos : 1 ≤ iImm16 w)
    (hmax : iImm16 w ≤ 255) (hpc : x.pc + 1 < (s.clu c).imem.length) :
    ∃ t, s.arbNext t c u (x.issued (x.pc + 1) 1) ((s.clu c).signalled (ArbCtx.obj ⟨s, c, u, x, w⟩ 256) (iImm16 w)) ∧
      ArbOnly (s.issue c u (x.issued (x.pc + 1) 1)) t ∧
      s.arbRow insSignal op c u .none = .next (t.settleCounter c (ArbCtx.obj ⟨s, c, u, x, w⟩ 256)) := by
  have hamount : insSignal.illegal ⟨s, c, u, x, w⟩ = false := by
    simp only [insSignal, Bool.or_eq_false_iff, decide_eq_false_iff_not, beq_eq_false_iff_ne]
    omega
  have arm := State.arbRow_runs (n := insSignal) hat
    { fmt := beq_iff_eq.2 hfmt, pc := decide_eq_true hpc, rd := .inr hrd, rb := .inr hrb, illegal := hamount }
  rw [insSignal_effect] at arm
  exact ⟨_, (s.issue_arbNext c u (x.issued (x.pc + 1) 1)).signalled _ _, .setClu .., arm⟩

/-- One thread's part of TSET with the mask `m`. -/
def State.moveThread (s : State) (c set : Nat) (m : Word) (v : Nat) : State :=
  if bitAt m v then s.setThr c v { s.thr c v with set := set } else s

/-- A thread after TSET. -/
def ArbThread.moved (x : ArbThread) (set : Nat) (m : Word) (v : Nat) : ArbThread :=
  if bitAt m v then { x with set := set } else x

theorem State.moveThread_thr (s : State) (c set : Nat) (m : Word) (v u : Nat) :
    (s.moveThread c set m v).thr c u = if u = v then (s.thr c v).moved set m v else s.thr c u := by
  unfold State.moveThread ArbThread.moved
  split
  · exact s.setThr_thr_ite ..
  · split
    · next h => rw [h]
    · rfl

theorem State.moveThread_arbOnly (s : State) (c set : Nat) (m : Word) (v : Nat) : ArbOnly s (s.moveThread c set m v) := by
  unfold State.moveThread
  split
  · exact .setThr ..
  · exact .refl s

theorem ArbThread.moved_eq (x : ArbThread) (set : Nat) (m : Word) (v : Nat) :
    x.moved set m v = { x with set := if bitAt m v then set else x.set } := by
  unfold ArbThread.moved
  split <;> rfl

section
variable {s : State} {c u i : Nat} {w : Word} {x : ArbThread}

theorem insLock_runs (hi : ArbCtx.obj ⟨s, c, u, x, w⟩ 1024 = i) (hfmt : bitsAt w 40 26 = 0) (hrb : iRb w = 0)
    (himm : iImm16 w = 0) (hnew : i ∉ x.locks) (hroom : x.locks.length < 16) (hpc : x.pc + 1 < (s.clu c).imem.length) :
    insLock.Runs ⟨s, c, u, x, w⟩ where
  fmt := beq_iff_eq.2 hfmt
  pc := decide_eq_true hpc
  rb := .inr hrb
  illegal := by simp [insLock, himm]
  lock := by simp [insLock, hi, hnew, hroom]

theorem insUnlock_runs (hi : ArbCtx.obj ⟨s, c, u, x, w⟩ 1024 = i) (hfmt : bitsAt w 40 26 = 0) (hrd : iRd w = 0)
    (hrb : iRb w = 0) (himm : iImm16 w = 0) (hmine : i ∈ x.locks) (hpc : x.pc + 1 < (s.clu c).imem.length) :
    insUnlock.Runs ⟨s, c, u, x, w⟩ where
  fmt := beq_iff_eq.2 hfmt
  pc := decide_eq_true hpc
  rd := .inr hrd
  rb := .inr hrb
  illegal := by simp [insUnlock, himm]
  lock := by simp [insUnlock, hi, hmine]

end

/-- Settles O26, clause by clause. -/
theorem arbourGatehouse : Obligations.ArbourGatehouse := by
  unfold Obligations.ArbourGatehouse
  refine ⟨?lockFree, ?lockHeld, ?unlockFree, ?unlockWaiter, ?signalQuiet, ?signalWaiter, ?waitMet, ?waitOpen, ?parkMet,
    ?parkOpen, ?orderPass, ?orderWait, ?tset, ?endDropped, ?endDone, ?release⟩
  case lockFree =>
    intro s c u w x l _ _ hat hfmt hrb himm hnew hroom hlock hfree hpc
    generalize hobj : (gReg x (iRa w) + BitVec.ofNat 64 (gIdx w)).toNat % 1024 = i at *
    have hi : ArbCtx.obj ⟨s, c, u, x, w⟩ 1024 = i := hobj
    refine State.arbRow_arbNext hat (insLock_runs hi hfmt hrb himm hnew hroom hpc) fun t h => ?_
    have hl := (h.lock i).trans hlock
    simp only [insLock, hi, hl, hfree]
    exact ((h.setClu fun k => { k with locks := spSet (fun _ => ⟨none, []⟩) k.locks i ⟨some u, l.waiters⟩ }).upd _).put 0
  case lockHeld =>
    intro s c u w x holder ws _ _ hat hfmt hrb himm hnew hroom hlock hpc
    generalize hobj : (gReg x (iRa w) + BitVec.ofNat 64 (gIdx w)).toNat % 1024 = i at *
    have hi : ArbCtx.obj ⟨s, c, u, x, w⟩ 1024 = i := hobj
    refine State.arbRow_arbNext hat (insLock_runs hi hfmt hrb himm hnew hroom hpc) fun t h => ?_
    have hl := (h.lock i).trans hlock
    simp only [insLock, hi, hl]
    exact (h.setClu fun k => { k with locks := spSet (fun _ => ⟨none, []⟩) k.locks i ⟨some holder, ws ++ [u]⟩ }).upd _
  case unlockFree =>
    intro s c u w x _ _ hat hfmt hrd hrb himm hmine hnone hpc
    generalize hobj : (gReg x (iRa w) + BitVec.ofNat 64 (gIdx w)).toNat % 1024 = i at *
    have hi : ArbCtx.obj ⟨s, c, u, x, w⟩ 1024 = i := hobj
    refine State.arbRow_arbNext hat (insUnlock_runs hi hfmt hrd hrb himm hmine hpc) fun t h => ?_
    simp only [insUnlock, hi]
    exact h.dropLock hnone
  case unlockWaiter =>
    intro s c u w x holder v r ws _ _ hat hfmt hrd hrb himm hmine hlock hvu hwait hst hpc
    generalize hobj : (gReg x (iRa w) + BitVec.ofNat 64 (gIdx w)).toNat % 1024 = i at *
    have hi : ArbCtx.obj ⟨s, c, u, x, w⟩ 1024 = i := hobj
    have arm := State.arbRow_runs hat (insUnlock_runs hi hfmt hrd hrb himm hmine hpc)
    have h := (s.issue_arbNext c u (x.issued (x.pc + 1) 1)).setThr
      { x.issued (x.pc + 1) 1 with locks := x.locks.filter (· != i) }
    have hv := h.thr_ne hvu
    obtain ⟨hpassed, hgranted, hothers⟩ := State.grantLock_oldest ((h.lock i).trans hlock) (hv ▸ hwait) (hv ▸ hst)
    have heff : insUnlock.effect ⟨s, c, u, x, w⟩ (s.issue c u (x.issued (x.pc + 1) 1)) =
        ((s.issue c u (x.issued (x.pc + 1) 1)).setThr c u
          { x.issued (x.pc + 1) 1 with locks := x.locks.filter (· != i) }).grantLock c i := by
      show State.dropLock _ c u (ArbCtx.obj ⟨s, c, u, x, w⟩ 1024) = _
      rw [hi, State.dropLock, State.issue_thr]
      rfl
    refine ⟨_, arm.trans (congrArg _ heff), hpassed, by rw [hgranted, hv], by rw [hothers u hvu.symm, h.thr], ?_⟩
    exact ((ArbOnly.setThr ..).trans (.of_gate (.grantLock (.refl c [] _) i))).frame
  case signalQuiet =>
    intro s c u w x _ hu hat hfmt hrd hrb hidx hpos hmax hquiet hpc
    obtain ⟨t, h, -, arm⟩ := State.arbRow_signal hat hfmt hrd hrb hidx hpos hmax hpc
    obtain ⟨-, -, -, hthr, -⟩ := State.arbAt_iff.1 hat
    rw [State.settleCounter_quiet (h.quiet (hthr ▸ hquiet u hu) hquiet)] at arm
    exact ⟨t, arm, h⟩
  case signalWaiter =>
    intro s c u w x v n r _ hu hat hfmt hrd hrb hidx hpos hmax hmine hv hvu hwait hopen hst hmet hpc
    obtain ⟨t, h, honly, arm⟩ := State.arbRow_signal hat hfmt hrd hrb hidx hpos hmax hpc
    have hsettled : (s.thr c v).waitMet (ArbCtx.obj ⟨s, c, u, x, w⟩ 256)
        ((s.counter c (ArbCtx.obj ⟨s, c, u, x, w⟩ 256) + iImm16 w) % 2 ^ 32) = true := by
      rw [ArbThread.waitMet, hwait]
      simp only [hopen, Option.isNone_none, Bool.and_true, Bool.and_eq_true, beq_iff_eq]
      exact ⟨rfl, decide_eq_true hmet⟩
    refine ⟨_, arm, ?_, ?_, ?_, (honly.trans (t.settleCounter_arbOnly ..)).frame⟩
    · rw [State.settleCounter_thr _ _ _ hv, h.thr_ne hvu, h.counter_signalled, ArbThread.settled, if_pos hsettled,
        ArbThread.ended_goesOn hwait hst]
      rfl
    · rw [State.settleCounter_thr _ _ _ hu, h.thr]
      exact ArbThread.settled_of_not_waiting (x := x.issued (x.pc + 1) 1) hmine ..
    · rw [State.counter_congr (t.settleCounter_rest c _)]
      exact h.counter_signalled
  case waitMet =>
    intro s c u w x _ _ hat hfmt hidx himm hmet hpc
    refine State.arbRow_arbNext (n := insWait) hat
      { fmt := beq_iff_eq.2 hfmt, pc := decide_eq_true hpc, illegal := by simp [insWait, himm, hidx] } fun t h => ?_
    have hyes := (h.counterTest _ _).trans (decide_eq_true hmet)
    have heff : insWait.effect ⟨s, c, u, x, w⟩ t = ArbCtx.put ⟨s, c, u, x, w⟩ t 0 := if_pos hyes
    rw [heff]
    exact h.put 0
  case waitOpen =>
    intro s c u w x _ _ hat hfmt hidx himm hopen hpc
    refine State.arbRow_arbNext (n := insWait) hat
      { fmt := beq_iff_eq.2 hfmt, pc := decide_eq_true hpc, illegal := by simp [insWait, himm, hidx] } fun t h => ?_
    have hno := (h.counterTest _ _).trans (decide_eq_false (Nat.not_lt.2 hopen))
    have heff : insWait.effect ⟨s, c, u, x, w⟩ t = ArbCtx.waitFor ⟨s, c, u, x, w⟩ t tWait
        (.counter (ArbCtx.obj ⟨s, c, u, x, w⟩ 256) (bitsAt (gReg x (iRb w)) 31 0) (iRd w)) := if_neg (Bool.eq_false_iff.1 hno)
    rw [heff]
    exact h.upd _
  case parkMet =>
    intro s c u w x _ _ hat hfmt hidx hmet hpc
    refine State.arbRow_arbNext (n := insPark) hat
      { fmt := beq_iff_eq.2 hfmt, pc := decide_eq_true hpc, illegal := decide_eq_false (Nat.not_le.2 hidx) } fun t h => ?_
    have hyes := (h.counterTest _ _).trans (decide_eq_true hmet)
    have heff : insPark.effect ⟨s, c, u, x, w⟩ t = ArbCtx.put ⟨s, c, u, x, w⟩ t 0 := if_pos hyes
    rw [heff]
    exact h.put 0
  case parkOpen =>
    intro s c u w x _ _ hat hfmt hidx hopen hpc
    refine State.arbRow_arbNext (n := insPark) hat
      { fmt := beq_iff_eq.2 hfmt, pc := decide_eq_true hpc, illegal := decide_eq_false (Nat.not_le.2 hidx) } fun t h => ?_
    have hno := (h.counterTest _ _).trans (decide_eq_false (Nat.not_lt.2 hopen))
    have heff : insPark.effect ⟨s, c, u, x, w⟩ t = ArbCtx.waitFor ⟨s, c, u, x, w⟩ t tPark
        (.park (ArbCtx.obj ⟨s, c, u, x, w⟩ 256) (bitsAt (gReg x (iRb w)) 31 0) (iRd w) (iImm16 w)) :=
      if_neg (Bool.eq_false_iff.1 hno)
    rw [heff]
    exact h.upd _
  case orderPass =>
    intro s c u w x _ hu hat hfmt hrb hidx himm hpkt hnew hquiet hearlier hpc
    obtain ⟨-, -, -, hthr, -⟩ := State.arbAt_iff.1 hat
    refine State.arbRow_arbNext (n := insOrder) hat
      { fmt := beq_iff_eq.2 hfmt, pc := decide_eq_true hpc, rb := .inr hrb
        illegal := by simp [insOrder, himm, hidx] } fun t h => ?_
    have hmet : t.orderMet c u (ArbCtx.obj ⟨s, c, u, x, w⟩ 16) = true := (t.orderMet_iff c u _).2 fun v hv hvu => by
      rw [h.thr, h.thr_ne hvu]
      exact hearlier v hv
    have hpass := (h.put (x := x) (w := w) 0).passSeq hpkt hnew
    simp only [insOrder, Option.isNone_eq_false_iff.2 (Option.isSome_iff_ne_none.2 hpkt), Bool.false_eq_true, if_false, hmet,
      if_true]
    exact (State.settleOrders_quiet (hpass.quiet (hthr ▸ hquiet u hu) hquiet) 64).symm ▸ hpass
  case orderWait =>
    intro s c u w x v _ _ hat hfmt hrb hidx himm hpkt hv hvu hother hbefore hnot hpc
    refine State.arbRow_arbNext (n := insOrder) hat
      { fmt := beq_iff_eq.2 hfmt, pc := decide_eq_true hpc, rb := .inr hrb
        illegal := by simp [insOrder, himm, hidx] } fun t h => ?_
    have hmet : t.orderMet c u (ArbCtx.obj ⟨s, c, u, x, w⟩ 16) = false := by
      rw [Bool.eq_false_iff]
      intro hyes
      have hpast := (t.orderMet_iff c u _).1 hyes v hv hvu
      rw [h.thr, h.thr_ne hvu] at hpast
      rcases hpast with hnone | hle | hpassed
      · exact hother hnone
      · exact absurd hbefore (Nat.not_lt.2 hle)
      · exact hnot hpassed
    simp only [insOrder, Option.isNone_eq_false_iff.2 (Option.isSome_iff_ne_none.2 hpkt), Bool.false_eq_true, if_false, hmet]
    exact h.upd _
  case tset =>
    intro s c u w x _ hu hat hfmt hrd hrb hidx himm hbase hpc
    obtain ⟨-, -, -, hthr, -⟩ := State.arbAt_iff.1 hat
    have arm := State.arbRow_runs (n := insTset) hat
      { fmt := beq_iff_eq.2 hfmt, pc := decide_eq_true hpc, rd := .inr hrd, rb := .inr hrb
        illegal := by simp [insTset, himm, hidx], init := .inr hbase }
    have hmoved : ∀ v, v < 64 → (insTset.effect ⟨s, c, u, x, w⟩ (s.issue c u (x.issued (x.pc + 1) 1))).thr c v =
        ((s.issue c u (x.issued (x.pc + 1) 1)).thr c v).moved (gIdx w) (gReg x (iRa w)) v := fun v hv =>
      (State.foldl_thr (f := fun t y => y.moved (gIdx w) (gReg x (iRa w)) t)
        (fun a t u => a.moveThread_thr c (gIdx w) (gReg x (iRa w)) t u) 64 _ v).trans (if_pos hv)
    have hissued : ∀ v, ((s.issue c u (x.issued (x.pc + 1) 1)).thr c v).set = (s.thr c v).set ∧
        ((s.issue c u (x.issued (x.pc + 1) 1)).thr c v).regs = (s.thr c v).regs ∧
        ((s.issue c u (x.issued (x.pc + 1) 1)).thr c v).st = (s.thr c v).st := fun v => by
      by_cases hvu : v = u
      · rw [hvu, State.issue_thr, hthr]
        exact ⟨rfl, rfl, rfl⟩
      · rw [State.issue_thr_ne _ _ _ hvu]
        exact ⟨rfl, rfl, rfl⟩
    refine ⟨_, arm, fun v hv => ?_, ?_, fun v hv => ?_,
      (ArbOnly.foldl (fun a v => a.moveThread_arbOnly c (gIdx w) (gReg x (iRa w)) v) ..).frame⟩
    · obtain ⟨hset, -⟩ := hissued v
      exact (congrArg ArbThread.set (hmoved v hv)).trans (by rw [ArbThread.moved_eq, hset])
    · exact (congrArg ArbThread.pc (hmoved u hu)).trans (by rw [ArbThread.moved_eq, State.issue_thr]; rfl)
    · obtain ⟨-, hregs, hst⟩ := hissued v
      exact ⟨(congrArg ArbThread.regs (hmoved v hv)).trans (by rw [ArbThread.moved_eq, hregs]),
        (congrArg ArbThread.st (hmoved v hv)).trans (by rw [ArbThread.moved_eq, hst])⟩
  case endDropped =>
    intro s c u w x p _ _ hat hfmt hrd hra hrb hbase hpkt hcom hlocks hwait hqueue hsvc
    have arm : exec (.arbEnd c u .none) s = .next ((s.issue c u (x.issued x.pc 1)).endThread c u) :=
      State.arbRow_end hat
        { fmt := beq_iff_eq.2 hfmt, pc := rfl, rd := .inr hrd, ra := .inr hra, rb := .inr hrb, notInit := .inr hbase }
    obtain ⟨hend, honly, hframes, hreset⟩ := State.endThread_dropped (s := s.issue c u (x.issued x.pc 1)) (s.issue_thr ..)
      hlocks hpkt hcom (by rwa [State.issue_commitWait]) (by rwa [State.issue_svcReq])
    have hregs := honly.regs
    rw [hend] at arm
    refine ⟨_, arm, hreset, ?_, fun f => ?_, fun r hr => ?_,
      honly.sameBut (.withRegs (s.issue_sameBut ..) _)⟩
    · rw [State.get_congr hregs, State.get_count_same,
        State.issue_get_ne _ _ _ (by simp only [R.ARB_CLU_ISSUES, R.ARB_DROP_COUNT]; omega)]
    · rw [hframes, List.mem_filter]
      exact and_congr Iff.rfl (by simp [imp_iff_not_or])
    · rw [List.mem_cons, not_or] at hr
      rw [State.rd_congr hregs, State.count, State.rd_set_ne _ _ (List.ne_of_not_mem_cons hr.2)]
      exact s.issue_sameRegs c u _ r (by simpa using hr.1)
  case endDone =>
    intro s c u w x _ _ hat hfmt hrd hra hrb hbase hdone hlocks hwait hsvc
    have arm : exec (.arbEnd c u .none) s = .next ((s.issue c u (x.issued x.pc 1)).endThread c u) :=
      State.arbRow_end hat
        { fmt := beq_iff_eq.2 hfmt, pc := rfl, rd := .inr hrd, ra := .inr hra, rb := .inr hrb, notInit := .inr hbase }
    obtain ⟨honly, hreset⟩ := State.endThread_done (s := s.issue c u (x.issued x.pc 1)) (s.issue_thr ..) hlocks hwait hdone
      (by rwa [State.issue_svcReq])
    exact ⟨_, arm, hreset, honly.frame⟩
  case release =>
    intro s c u w x _ _ hat hfmt hrd hra hrb hbase hpkt hlocks hwait hsvc
    have arm : exec (.arbRelease c u .none) s =
        .next (((s.issue c u (x.issued x.pc 1)).setCluState c cReleased).endThread c u) :=
      State.arbRow_release hat
        { fmt := beq_iff_eq.2 hfmt, pc := rfl, rd := .inr hrd, ra := .inr hra, rb := .inr hrb, init := .inr hbase }
    have hclu : ((s.issue c u (x.issued x.pc 1)).setCluState c cReleased).clu c = (s.issue c u (x.issued x.pc 1)).clu c :=
      State.clu_congr rfl c
    obtain ⟨honly, hreset⟩ := State.endThread_done (y := x.issued x.pc 1) (by rw [State.thr, hclu]; exact s.issue_thr ..)
      hlocks hwait (.inr hpkt) (by rwa [hclu, State.issue_svcReq])
    refine ⟨_, arm, ?_, hreset, fun r hr => ?_, honly.sameBut (.withRegs (s.issue_sameBut ..) _)⟩
    · rw [State.cluState, State.get_congr honly.regs]
      exact State.get_set_of_lt _ (by simp) (by simp) (by simp [cReleased])
    · rw [List.mem_cons, not_or] at hr
      rw [State.rd_congr honly.regs, State.setCluState, State.rd_set_ne _ _ (List.ne_of_not_mem_cons hr.2)]
      exact s.issue_sameRegs c u _ r (by simpa using hr.1)

end Sys2Proof.Machine
end

section
/-! SUPPORT. Exceptions of arbour instructions, and O27. -/

namespace Sys2Proof.Machine

set_option Elab.async false

/-! ### The row of an instruction that meets a cause of exception (R160, R177, R179)

The row NOP also issues the words with a reserved opcode, which have no row of their own (log entry 21). -/

/-- No effect takes place, and the instruction counts as issued. -/
theorem State.arbRow_exception {s : State} {c u op cause : Nat} {w : Word} {x : ArbThread} {n : ArbIns}
    (hat : s.arbAt c u op w x = true) (hcause : n.cause ⟨s, c, u, x, w⟩ .none = some cause) (hlock : cause ≠ 8) :
    s.arbRow n op c u .none = .next ((s.wrapBy (F.ARB_CLU_ISSUES_COUNT c) 1).arbException c u cause op) := by
  obtain ⟨hissues, hword, hop, hthr, -⟩ := State.arbAt_iff.1 hat
  have hrun : s.arbRun n c u w .none = (s.wrapBy (F.ARB_CLU_ISSUES_COUNT c) 1).arbException c u cause op := by
    simp only [State.arbRun, hthr, hcause, hop, hlock, false_and, if_false]
  simp only [State.arbRow, hissues, hword, hop, hrun, Bool.not_true, Bool.false_eq_true, ne_eq, not_true_eq_false,
    or_self, if_false, reduceCtorEq]

/-- A word with a reserved opcode is ILLEGAL. -/
theorem insReserved_cause (k : ArbCtx) (err : ArbError) : insReserved.cause k err = some 1 := by
  simp [ArbIns.cause, insReserved]

/-- An instruction of two registers whose next PC is beyond the image meets cause 5. -/
theorem insAlu_cause_pc {f : Word → Word → Word} {k : ArbCtx} (hfmt : bitsAt k.w 40 0 = 0)
    (hpc : (k.s.clu k.c).imem.length ≤ k.x.pc + 1) (err : ArbError) : (insAlu f).cause k err = some 5 := by
  simp [ArbIns.cause, insAlu, insBase, noneOf, plainNext, fmtZero, unusedZero, hfmt, hpc]

theorem execArbNop_reserved {s : State} {c u op : Nat} (hop : iOp (s.arbWord c u) = op) (hres : op ∉ arbOpcodes) :
    execArbNop c u .none s = s.arbRow insReserved op c u .none := by
  rw [execArbNop, hop, List.contains_eq_mem, decide_eq_false hres]
  rfl

/-! ### The record of an exception (R180) -/

/-- The registers of a cluster stand above the unit's own. -/
theorem clusterReg_ne {r o : Nat} (hr : 0x11001000 ≤ r) (ho : o < 0x1000) : r ≠ unitOff uArb o := by
  simp only [unitOff, uArb]
  omega

theorem issuesReg_le (c : Nat) : 0x11001000 ≤ R.ARB_CLU_ISSUES c := by
  simp only [R.ARB_CLU_ISSUES]
  omega

theorem excLastReg_le (c : Nat) : 0x11001000 ≤ R.ARB_EXC_LAST c := by
  simp only [R.ARB_EXC_LAST]
  omega

/-- A field of `ARB_EXC_LAST` that a shift and a width single out. -/
theorem State.excLast_get (s : State) (c t cause op pc hi lo : Nat) :
    (s.excLast c t cause op pc).get ⟨R.ARB_EXC_LAST c, hi, lo⟩ =
      (2 ^ 63 + cause * 2 ^ 32 + t * 2 ^ 24 + op * 2 ^ 14 + pc) % 2 ^ 64 / 2 ^ lo % 2 ^ (hi + 1 - lo) := by
  rw [State.get, State.excLast, State.rd_wr_same, bitsAt, BitVec.toNat_ofNat]

/-- The issue of an instruction of thread `t` counted, and its exception recorded. -/
def State.excRecorded (s : State) (c t cause op pc : Nat) : State :=
  ((s.wrapBy (F.ARB_CLU_ISSUES_COUNT c) 1).fault uArb 0x05 4 (arbExtra c t 0 pc)).excLast c t cause op pc

theorem State.excRecorded_clu (s : State) (c t cause op pc d : Nat) : (s.excRecorded c t cause op pc).clu d = s.clu d := by
  have hlast : ∀ a : State, (a.excLast c t cause op pc).clu d = a.clu d := fun a =>
    State.clu_congr (by rw [State.excLast, State.wr_arb]) d
  have hcount : ∀ f, (s.wrapBy f 1).clu d = s.clu d := fun f =>
    State.clu_congr (by rw [State.wrapBy_arb]) d
  rw [State.excRecorded, hlast, State.fault_clu, hcount]

theorem State.excRecorded_hasError (s : State) (c t cause op pc : Nat) :
    (s.excRecorded c t cause op pc).hasError uArb 4 := by
  rw [State.hasError, State.excRecorded, State.excLast,
    State.get_wr_ne _ _ (clusterReg_ne (excLastReg_le c) (by decide)).symm]
  exact State.fault_sets_hasError _ _ _ _ (by decide)

theorem State.excRecorded_issues (s : State) (c t cause op pc : Nat) :
    (s.excRecorded c t cause op pc).get (F.ARB_CLU_ISSUES_COUNT c) = (s.get (F.ARB_CLU_ISSUES_COUNT c) + 1) % 2 ^ 64 := by
  have hunit := fun {o : Nat} (ho : o < 0x1000) => clusterReg_ne (issuesReg_le c) ho
  rw [State.excRecorded, State.excLast,
    State.get_wr_ne _ _ (by simp only [R.ARB_CLU_ISSUES, R.ARB_EXC_LAST, ne_eq]; omega),
    State.fault_get_ne _ _ _ _ _ _ (hunit (by decide)) (hunit (by decide)) (hunit (by decide))
      (by simp only [R.ARB_CLU_ISSUES, R.FLT_SUMMARY]; omega)]
  exact s.wrapBy_issues c

theorem State.excRecorded_sameBut (s : State) (c t cause op pc : Nat) :
    s.sameBut (s.excRecorded c t cause op pc) [.regs, .arb, .pcie, .out, .aia] :=
  .withRegs (.fault (.withRegs (.refl ..) _) ..) _

/-- The exception of a master in SERVICE without a packet: the record, and the thread ends. -/
theorem State.arbException_service {s : State} {c t : Nat} (hbase : (s.thr c t).base = tService)
    (hpkt : (s.thr c t).pkt = none) (cause op : Nat) :
    (s.wrapBy (F.ARB_CLU_ISSUES_COUNT c) 1).arbException c t cause op =
      (s.excRecorded c t cause op (s.thr c t).pc).retireThread c t := by
  have hthr : (s.wrapBy (F.ARB_CLU_ISSUES_COUNT c) 1).thr c t = s.thr c t :=
    State.thr_congr (by rw [State.wrapBy_arb]) c t
  simp [State.arbException, State.excRecorded, hthr, hbase, hpkt]

/-- An exception of a master in SERVICE that has nothing to drop: the instruction counts as issued (log entry 22), its exception
is recorded, and the thread is IDLE; memory, counters and locks of the cluster stay. -/
theorem State.arbRow_exception_service {s : State} {c u op cause : Nat} {w : Word} {x : ArbThread} {n : ArbIns}
    (hu : u < 64) (hat : s.arbAt c u op w x = true) (hpc : x.pc < 2 ^ 14) (hbase : x.base = tService)
    (hpkt : x.pkt = none) (hlocks : x.locks = []) (hwait : x.wait = none) (hsvc : (s.clu c).svcReq = false)
    (hcause : n.cause ⟨s, c, u, x, w⟩ .none = some cause) (hlock : cause < 8) :
    ∃ t, s.arbRow n op c u .none = .next t ∧
      t.hasError uArb 4 ∧
      t.get (F.ARB_EXC_LAST_VALID c) = 1 ∧
      t.get (F.ARB_EXC_LAST_CAUSE c) = cause ∧
      t.get (F.ARB_EXC_LAST_THREAD c) = u ∧
      t.get (F.ARB_EXC_LAST_OPCODE c) = op ∧
      t.get (F.ARB_EXC_LAST_PC c) = x.pc ∧
      t.thr c u = { threadReset u with set := x.set, haltPending := x.haltPending } ∧
      (t.clu c).dmem = (s.clu c).dmem ∧ (t.clu c).counters = (s.clu c).counters ∧ (t.clu c).locks = (s.clu c).locks ∧
      t.get (F.ARB_CLU_ISSUES_COUNT c) = (s.get (F.ARB_CLU_ISSUES_COUNT c) + 1) % 2 ^ 64 ∧
      s.sameBut t [.regs, .arb, .pcie, .out, .aia] := by
  obtain ⟨-, -, hop, rfl, -⟩ := State.arbAt_iff.1 hat
  have hop256 : op < 2 ^ 8 := hop ▸ bitsAt_lt w 63 56
  have arm := State.arbRow_exception hat hcause hlock.ne
  rw [State.arbException_service hbase hpkt] at arm
  have hclu := s.excRecorded_clu c u cause op (s.thr c u).pc c
  have hthr : (s.excRecorded c u cause op (s.thr c u).pc).thr c u = s.thr c u := by rw [State.thr, hclu, State.thr]
  obtain ⟨honly, hstored, hreset⟩ := State.retireThread_done (s := s.excRecorded c u cause op (s.thr c u).pc) (c := c)
    (t := u) (by rwa [hthr]) (by rwa [hthr]) (.inr (by rwa [hthr])) (.inr (by rwa [hclu]))
  rw [hclu] at hstored
  simp only [ArbCluster.stored, Prod.mk.injEq] at hstored
  obtain ⟨hdmem, hcounters, hlocksKept⟩ := hstored
  have hget := fun f => State.get_congr honly.regs f
  have hlast : ∀ hi lo, ((s.excRecorded c u cause op (s.thr c u).pc).retireThread c u).get ⟨R.ARB_EXC_LAST c, hi, lo⟩ =
      (2 ^ 63 + cause * 2 ^ 32 + u * 2 ^ 24 + op * 2 ^ 14 + (s.thr c u).pc) % 2 ^ 64 / 2 ^ lo % 2 ^ (hi + 1 - lo) :=
    fun hi lo => (hget _).trans (State.excLast_get ..)
  refine ⟨_, arm, State.hasError_congr honly.regs (s.excRecorded_hasError ..), ?_, ?_, ?_, ?_, ?_, by rw [hreset, hthr],
    hdmem, hcounters, hlocksKept, (hget _).trans (s.excRecorded_issues ..), honly.sameBut (s.excRecorded_sameBut ..)⟩
  iterate 5
    rw [hlast]
    omega

/-- Settles O27: both exceptions are those of a thread with nothing to drop. -/
theorem arbourExceptions : Obligations.ArbourExceptions := by
  unfold Obligations.ArbourExceptions
  refine ⟨?reserved, ?pc⟩
  case reserved =>
    intro s c u op w x _ hu hat hpc hres hbase hpkt hlocks hwait hsvc
    have hop : iOp (s.arbWord c u) = op := by
      obtain ⟨-, rfl, hop, -, -⟩ := State.arbAt_iff.1 hat
      exact hop
    have arm : exec (.arbNop c u .none) s = s.arbRow insReserved op c u .none := execArbNop_reserved hop hres
    rw [arm]
    exact State.arbRow_exception_service hu hat hpc hbase hpkt hlocks hwait hsvc (insReserved_cause _ _) (by decide)
  case pc =>
    intro s c u op w x _ hu hat hpc hop hfmt hlen hbase hpkt hlocks hwait hsvc
    subst hop
    exact State.arbRow_exception_service hu hat hpc hbase hpkt hlocks hwait hsvc (insAlu_cause_pc hfmt hlen _) (by decide)

end Sys2Proof.Machine
end

section
/-! SUPPORT. The entries of classification and the registers of its commands, and O11. -/

namespace Sys2Proof.Machine

set_option Elab.async false

/-! ### Registers after several fields are set -/

/-- Setting fields touches the registers alone. -/
theorem State.sets_eq_withRegs (s : State) (l : List (Fld × Nat)) : s.sets l = s.withRegs (s.sets l).regs := by
  induction l generalizing s with
  | nil => rfl
  | cons x l ih => exact ih (s.set x.1 x.2)

theorem State.sets_sameRegs (s : State) {l : List (Fld × Nat)} {rs : List Nat} (h : ∀ x ∈ l, x.1.off ∈ rs) :
    s.sameRegs (s.sets l) rs :=
  fun _ hr => s.rd_sets_ne fun x hx he => hr (he ▸ h x hx)

/-- Registers do not see what is put into classification. -/
theorem State.sameRegs.withAcm {s t : State} {rs : List Nat} (h : s.sameRegs t rs) (x : AcmState) :
    s.sameRegs (t.withAcm x) rs :=
  fun r hr => (t.withAcm_rd x r).trans (h r hr)

namespace State.sameBut

variable {s a : State} {l : List Part}

theorem withAcm (h : s.sameBut a l) (x : AcmState) (hl : .acm ∈ l := by decide) : s.sameBut (a.withAcm x) l := by
  revert h
  unfold State.sameBut
  iterate 14 refine And.imp id ?_
  exact And.imp (fun _ p => absurd hl p) id

theorem sets (h : s.sameBut a l) (fs : List (Fld × Nat)) (hl : .regs ∈ l := by decide) : s.sameBut (a.sets fs) l := by
  rw [a.sets_eq_withRegs]
  exact h.withRegs _ hl

end State.sameBut

/-! ### Entries (R187) -/

/-- A key reads as what was written at the entry, every other entry as before. -/
theorem State.setAcmEntry_acmEntry (s : State) (b i c j : Nat) (e : AcmEntry) :
    (s.setAcmEntry b i e).acmEntry c j = if 2048 * c + j = 2048 * b + i then e else s.acmEntry c j :=
  spGet_set ..

theorem State.setAcmEntry_acmEntry_same (s : State) (b i : Nat) (e : AcmEntry) :
    (s.setAcmEntry b i e).acmEntry b i = e :=
  spGet_set_same ..

theorem State.setAcmEntry_acmEntry_ne (s : State) {b i c j : Nat} (e : AcmEntry) (h : 2048 * c + j ≠ 2048 * b + i) :
    (s.setAcmEntry b i e).acmEntry c j = s.acmEntry c j :=
  spGet_set_ne _ _ _ h

@[simp] theorem State.setAcmEntry_get (s : State) (b i : Nat) (e : AcmEntry) (f : Fld) :
    (s.setAcmEntry b i e).get f = s.get f :=
  s.withAcm_get _ f

/-! ### The end of an entry command (R193, R194) -/

/-- The entry command is over, its status clear. -/
def State.acmCmdOver (s : State) : State :=
  (s.sets [(F.ACM_ENT_STATUS_BUSY, 0), (F.ACM_ENT_STATUS_LAST_FC, 0)]).withAcm { s.acm with cmd := none }

theorem State.acmCmdOver_busy (s : State) : s.acmCmdOver.get F.ACM_ENT_STATUS_BUSY = 0 := by
  simp (disch := decide) only [State.acmCmdOver, State.withAcm_get, State.sets_cons, State.sets_nil, State.get_set_other,
    State.get_set_same, Nat.zero_mod]

theorem State.acmCmdOver_lastFc (s : State) : s.acmCmdOver.get F.ACM_ENT_STATUS_LAST_FC = 0 := by
  simp (disch := decide) only [State.acmCmdOver, State.withAcm_get, State.sets_cons, State.sets_nil, State.get_set_same,
    Nat.zero_mod]

theorem State.acmCmdOver_acm (s : State) : s.acmCmdOver.acm = { s.acm with cmd := none } := by
  rw [State.acmCmdOver, State.withAcm_acm]

theorem State.acmCmdOver_acmEntry (s : State) (b i : Nat) : s.acmCmdOver.acmEntry b i = s.acmEntry b i := by
  rw [State.acmEntry, State.acmCmdOver_acm, State.acmEntry]

theorem State.acmCmdOver_sameRegs (s : State) : s.sameRegs s.acmCmdOver [R.ACM_ENT_STATUS] :=
  .withAcm (s.sets_sameRegs (by simp)) _

theorem State.acmCmdOver_sameBut (s : State) : s.sameBut s.acmCmdOver [.regs, .acm] :=
  .withAcm (.sets (.refl ..) _) _

/-- A command that writes entry `i` of bank `b` ends without a fault: the entry, the status and nothing else. -/
theorem State.acmCmdOver_setAcmEntry_spec (s : State) (b i : Nat) (e : AcmEntry) :
    (s.acmCmdOver.setAcmEntry b i e).get F.ACM_ENT_STATUS_LAST_FC = 0 ∧
    (s.acmCmdOver.setAcmEntry b i e).acmEntry b i = e ∧
    (∀ c j, 2048 * c + j ≠ 2048 * b + i → (s.acmCmdOver.setAcmEntry b i e).acmEntry c j = s.acmEntry c j) ∧
    (s.acmCmdOver.setAcmEntry b i e).get F.ACM_ENT_STATUS_BUSY = 0 ∧
    s.sameRegs (s.acmCmdOver.setAcmEntry b i e) [R.ACM_ENT_STATUS] ∧
    s.sameBut (s.acmCmdOver.setAcmEntry b i e) [.regs, .acm] :=
  ⟨(State.setAcmEntry_get ..).trans s.acmCmdOver_lastFc, State.setAcmEntry_acmEntry_same ..,
    fun _ _ h => (State.setAcmEntry_acmEntry_ne _ e h).trans (s.acmCmdOver_acmEntry ..),
    (State.setAcmEntry_get ..).trans s.acmCmdOver_busy, s.acmCmdOver_sameRegs.withAcm _, .withAcm s.acmCmdOver_sameBut _⟩

/-! ### What an entry command does at its end -/

theorem exec_acmEntCmdDone_refused {s : State} {k : AcmCmd} (hk : s.acm.cmd = some k) (hop : k.op = 1 ∨ k.op = 2)
    (hb : s.acmBoundsOk k.buf.ctrl = false) :
    exec .acmEntCmdDone s = .next ((s.acmCmdOver.set F.ACM_ENT_STATUS_LAST_FC 0x1202).fault uAcm 0x02 1
      (s.acmExtra k.bank k.entry)) := by
  show execAcmEntCmdDone s = _
  simp only [execAcmEntCmdDone, hk, hop, hb, Bool.not_false, and_self, if_true]
  rfl

theorem exec_acmEntCmdDone_written {s : State} {k : AcmCmd} (hk : s.acm.cmd = some k) (hop : k.op = 1 ∨ k.op = 2)
    (hb : s.acmBoundsOk k.buf.ctrl = true) :
    exec .acmEntCmdDone s = .next (s.acmCmdOver.setAcmEntry k.bank k.entry
      (if k.op = 1 then k.buf else { s.acmEntry k.bank k.entry with ctrl := k.buf.ctrl })) := by
  show execAcmEntCmdDone s = _
  rcases hop with hop | hop <;>
    simp only [execAcmEntCmdDone, hk, hop, hb, Bool.not_true, Bool.false_eq_true, and_false, if_false, if_true,
      show ¬ (2 = 1) by decide] <;> rfl

/-- A command that enables a forbidden bound ends refused, and no entry changes (R193). -/
theorem State.acmBoundsRefused_spec (s : State) (e : Nat) :
    let t := (s.acmCmdOver.set F.ACM_ENT_STATUS_LAST_FC 0x1202).fault uAcm 0x02 1 e
    t.get F.ACM_ENT_STATUS_LAST_FC = 0x1202 ∧ t.hasError uAcm 1 ∧ t.acm = { s.acm with cmd := none } ∧
      t.get F.ACM_ENT_STATUS_BUSY = 0 ∧ s.sameBut t [.regs, .acm, .pcie, .out, .aia] := by
  have hget := fun (f : Fld) (hf : f.off = R.ACM_ENT_STATUS) =>
    (s.acmCmdOver.set F.ACM_ENT_STATUS_LAST_FC 0x1202).fault_get_ne uAcm 0x02 1 e f (by rw [hf]; decide)
      (by rw [hf]; decide) (by rw [hf]; decide) (by rw [hf]; decide)
  refine ⟨?_, State.fault_sets_hasError _ _ _ _ (by decide), ?_, ?_, ?_⟩
  · rw [hget _ rfl, State.get_set_of_lt _ (by decide) (by decide) (by decide)]
  · rw [State.fault_acm, State.set_acm, State.acmCmdOver_acm]
  · rw [hget _ rfl, State.get_set_other _ _ (by decide) (by decide) (by decide), s.acmCmdOver_busy]
  · exact .fault (.withRegs (.withAcm (.sets (.refl ..) _) _) _) ..

/-- The bounds that a control word enables stand where R193 allows them. -/
theorem State.acmBoundsOk_eq (s : State) (c : Word) :
    s.acmBoundsOk c =
      ((!cFirstEn c || decide ((cFirst c + 16 - s.verBase) % 16 ≤ (s.committed + 16 - s.verBase) % 16 + 1)) &&
        (!cLastEn c || decide ((cLast c + 16 - s.verBase) % 16 ≤ (s.committed + 16 - s.verBase) % 16))) := rfl

/-- Settles O11: the two clauses are the two answers to the check of the bounds. -/
theorem entryCommandBounds : Obligations.EntryCommandBounds := by
  unfold Obligations.EntryCommandBounds
  refine ⟨?refused, ?written⟩
  case refused =>
    intro s k hk hop hbound
    have hb : s.acmBoundsOk k.buf.ctrl = false := by
      rw [State.acmBoundsOk_eq, Bool.and_eq_false_iff]
      refine hbound.imp ?_ ?_ <;>
      · rintro ⟨hen, hlt⟩
        simpa [hen] using hlt
    exact ⟨_, exec_acmEntCmdDone_refused hk hop hb, s.acmBoundsRefused_spec _⟩
  case written =>
    intro s k hk hop hfirst hlast
    have hb : s.acmBoundsOk k.buf.ctrl = true := by
      rw [State.acmBoundsOk_eq, Bool.and_eq_true]
      exact ⟨hfirst, hlast⟩
    exact ⟨_, exec_acmEntCmdDone_written hk hop hb, s.acmCmdOver_setAcmEntry_spec ..⟩

end Sys2Proof.Machine
end

section
/-! SUPPORT. Rule versions and the sweep of the entries, and O28. -/

namespace Sys2Proof.Machine

set_option Elab.async false

/-! ### Changes of the entries alone -/

/-- `t` differs from `s` at most in the entries. -/
def EntriesOnly (s t : State) : Prop := t = s.withAcm { s.acm with entries := t.acm.entries }

namespace EntriesOnly

theorem refl (s : State) : EntriesOnly s s := rfl

theorem trans {a b c : State} (h : EntriesOnly a b) (k : EntriesOnly b c) : EntriesOnly a c := by
  unfold EntriesOnly at *
  rw [k, h]
  rfl

theorem setAcmEntry (s : State) (b i : Nat) (e : AcmEntry) : EntriesOnly s (s.setAcmEntry b i e) := rfl

theorem foldl {α : Type} {g : State → α → State} (h : ∀ s x, EntriesOnly s (g s x)) (l : List α) (s : State) :
    EntriesOnly s (l.foldl g s) := by
  induction l generalizing s with
  | nil => exact refl s
  | cons x l ih => exact (h s x).trans (ih _)

variable {s t : State} (h : EntriesOnly s t)
include h

theorem regs : t.regs = s.regs := by
  rw [h, State.withAcm_regs]

theorem plan : t.plan = s.plan := by
  rw [h, State.withAcm_plan]

theorem sameBut {a : State} {l : List Part} (hs : a.sameBut s l) (hl : .acm ∈ l := by decide) : a.sameBut t l := by
  rw [h]
  exact hs.withAcm _ hl

end EntriesOnly

/-! ### What a sweep does to an entry (R192) -/

/-- A bit after a bit of the word was set. -/
theorem bitAt_setBit (w : Word) {i : Nat} (hi : i < 64) (b : Bool) (j : Nat) :
    bitAt (setBit w i b) j = if j = i then b else bitAt w j := by
  have hbit : ∀ x : Word, bitAt x j = x.toNat.testBit j := fun x => (BitVec.testBit_toNat x).symm
  rw [hbit, hbit, setBit, testBit_setBits _ _ _ _ _ (Nat.le_refl i) hi]
  by_cases hj : j = i
  · subst hj
    cases b <;> simp
  · rw [if_neg (by omega), if_neg hj]

theorem cValid_sweepCtrl (h d : Nat) (c : Word) :
    cValid (sweepCtrl h d c) = (cValid c && !(cLastEn c && decide (verPos h (cLast c) < d))) := by
  unfold sweepCtrl
  cases cLastEn c && decide (verPos h (cLast c) < d) <;> cases cFirstEn c && decide (verPos h (cFirst c) ≤ d) <;>
    simp [cValid, bitAt_setBit]

theorem cFirstEn_sweepCtrl (h d : Nat) (c : Word) :
    cFirstEn (sweepCtrl h d c) = (cFirstEn c && !decide (verPos h (cFirst c) ≤ d)) := by
  unfold sweepCtrl
  split <;> split <;> simp_all [cFirstEn, bitAt_setBit]

theorem cAct_setBit (c : Word) {i : Nat} (hi : i < 64) (h : 15 < i) (b : Bool) : cAct (setBit c i b) = cAct c :=
  bitsAt_setBits_other _ _ _ _ _ _ (Nat.le_refl i) hi (.inr h)

theorem cAct_sweepCtrl (h d : Nat) (c : Word) : cAct (sweepCtrl h d c) = cAct c := by
  unfold sweepCtrl
  split <;> split <;> simp [cAct_setBit]

/-- An entry that a sweep has passed over. -/
def AcmEntry.swept (h d : Nat) (e : AcmEntry) : AcmEntry := { e with ctrl := sweepCtrl h d e.ctrl }

/-- An entry that is not listed has no bounds, and a sweep leaves it. -/
theorem acmNone_swept (h d k : Nat) : (acmNone k).swept h d = acmNone k := by
  simp [AcmEntry.swept, acmNone, sweepCtrl, cLastEn, cFirstEn, bitAt]

/-! ### The sweep of every entry (R192) -/

/-- The sweep passes over one listed entry: that of an allocated bank is swept. -/
def State.sweepEntry (h d : Nat) (s : State) (x : Nat × AcmEntry) : State :=
  if bankAlloc s.plan (x.1 / 2048) then s.setAcmEntry (x.1 / 2048) (x.1 % 2048) (x.2.swept h d) else s

theorem State.sweepEntry_entriesOnly (h d : Nat) (s : State) (x : Nat × AcmEntry) :
    EntriesOnly s (s.sweepEntry h d x) := by
  unfold State.sweepEntry
  split
  · exact .setAcmEntry ..
  · exact .refl s

theorem spGet_of_not_mem {α : Type} (d : Nat → α) {m : Sparse α} {k : Nat} (h : k ∉ m.map Prod.fst) :
    spGet d m k = d k := by
  induction m with
  | nil => rfl
  | cons x m ih =>
    obtain ⟨hne, hrest⟩ : k ≠ x.1 ∧ k ∉ m.map Prod.fst := by simpa using h
    rw [spGet, if_neg hne, ih hrest]

/-- Every listed entry of an allocated bank is swept, and no other entry changes. -/
theorem State.foldl_sweepEntry_acmEntry (h d : Nat) {l : Sparse AcmEntry} (hl : (l.map Prod.fst).Nodup) (s : State)
    {b i : Nat} (hi : i < 2048) :
    (l.foldl (State.sweepEntry h d) s).acmEntry b i =
      if bankAlloc s.plan b ∧ 2048 * b + i ∈ l.map Prod.fst then (spGet acmNone l (2048 * b + i)).swept h d
      else s.acmEntry b i := by
  induction l generalizing s with
  | nil => simp
  | cons x l ih =>
    obtain ⟨k, e⟩ := x
    obtain ⟨hk, hl⟩ := List.nodup_cons.1 hl
    rw [List.foldl_cons, ih hl, (s.sweepEntry_entriesOnly h d (k, e)).plan]
    by_cases hkey : 2048 * b + i = k
    · have hb : k / 2048 = b := by omega
      have hm : k % 2048 = i := by omega
      subst hkey
      simp only [hk, and_false, if_false, State.sweepEntry, hb, hm, spGet, if_true, List.map_cons, List.mem_cons, true_or,
        and_true]
      split
      · exact State.setAcmEntry_acmEntry_same ..
      · rfl
    · have hkeep : (s.sweepEntry h d (k, e)).acmEntry b i = s.acmEntry b i := by
        unfold State.sweepEntry
        split
        · exact State.setAcmEntry_acmEntry_ne _ _ (by dsimp only; omega)
        · rfl
      simp only [hkeep, spGet, if_false, List.map_cons, List.mem_cons, hkey, false_or]

/-- The sweep has passed over every listed entry. -/
def State.sweptAll (s : State) (h d : Nat) : State := s.acm.entries.foldl (State.sweepEntry h d) s

theorem State.sweptAll_entriesOnly (s : State) (h d : Nat) : EntriesOnly s (s.sweptAll h d) :=
  .foldl (State.sweepEntry_entriesOnly h d) ..

theorem State.sweptAll_acmEntry {s : State} (hn : (s.acm.entries.map Prod.fst).Nodup) (h d : Nat) {b i : Nat}
    (hi : i < 2048) :
    (s.sweptAll h d).acmEntry b i = if bankAlloc s.plan b then (s.acmEntry b i).swept h d else s.acmEntry b i := by
  rw [State.sweptAll, State.foldl_sweepEntry_acmEntry h d hn s hi]
  by_cases hmem : 2048 * b + i ∈ s.acm.entries.map Prod.fst
  · simp only [hmem, and_true]
    rfl
  · have hnone : s.acmEntry b i = acmNone (2048 * b + i) := spGet_of_not_mem _ hmem
    simp only [hmem, and_false, if_false, hnone, acmNone_swept, ite_self]

/-- The sweep is over. -/
def State.sweepOver (s : State) (h d : Nat) : State :=
  ((s.sweptAll h d).set F.ACM_VER_STATUS_SWEEP 0).withAcm { (s.sweptAll h d).acm with sweep := none }

theorem State.sweepOver_acmEntry {s : State} (hn : (s.acm.entries.map Prod.fst).Nodup) (h d : Nat) {b i : Nat}
    (hi : i < 2048) :
    (s.sweepOver h d).acmEntry b i = if bankAlloc s.plan b then (s.acmEntry b i).swept h d else s.acmEntry b i := by
  rw [← State.sweptAll_acmEntry hn h d hi, State.acmEntry, State.sweepOver, State.withAcm_acm, State.acmEntry]

theorem State.sweepOver_sweep (s : State) (h d : Nat) : (s.sweepOver h d).acm.sweep = none := by
  rw [State.sweepOver, State.withAcm_acm]

theorem State.sweepOver_status (s : State) (h d : Nat) : (s.sweepOver h d).get F.ACM_VER_STATUS_SWEEP = 0 := by
  rw [State.sweepOver, State.withAcm_get, State.get_set_same _ _ (by decide) (by decide), Nat.zero_mod]

theorem State.sweepOver_sameRegs (s : State) (h d : Nat) : s.sameRegs (s.sweepOver h d) [R.ACM_VER_STATUS] := by
  refine .withAcm (fun r hr => ?_) _
  rw [State.rd_set_ne _ _ (by simpa using hr), State.rd_congr (s.sweptAll_entriesOnly h d).regs]

theorem State.sweepOver_sameBut (s : State) (h d : Nat) : s.sameBut (s.sweepOver h d) [.regs, .acm] :=
  .withAcm (.withRegs ((s.sweptAll_entriesOnly h d).sameBut (.refl ..)) _) _

theorem exec_sweepEnd {s : State} {h d : Nat} (hs : s.acm.sweep = some (h, d)) (hheld : s.epHeld 0x1A0 = false) :
    exec .sweepEnd s = .next (s.sweepOver h d) := by
  show execSweepEnd s = _
  simp only [execSweepEnd, hs, hheld, Bool.false_eq_true, if_false]
  rfl

/-! ### Versions (R190, R191) -/

/-- `GO` sets `PENDING`. -/
def State.verPending (s : State) : State := s.set F.ACM_VER_COMMIT_PENDING 1

theorem exec_acmVerCommitGo {s : State} (hp : s.get F.ACM_VER_COMMIT_PENDING = 0) :
    exec .acmVerCommitGo s = .next (if s.get F.ACM_VER_STATUS_LIVE = 4 then
      (s.verPending.set F.ACM_VER_STATUS_STALL 1).fault uAcm 0x01 0 0 else s.verPending) := by
  have hlive : s.verPending.get F.ACM_VER_STATUS_LIVE = s.get F.ACM_VER_STATUS_LIVE := s.get_set_ne _ (by decide)
  show execAcmVerCommitGo s = _
  rw [execAcmVerCommitGo, State.acmVerGo, if_neg (by omega), ← hlive]
  rfl

/-- The registers of a commit of rule versions that is applied (R190). -/
def State.verApplied (s : State) : State :=
  (s.sets [(F.ACM_VER_STATUS_COMMITTED, (s.committed + 1) % 16), (F.ACM_VER_STATUS_STALL, 0),
    (F.ACM_VER_STATUS_LIVE, s.get F.ACM_VER_STATUS_LIVE + 1), (F.ACM_VER_LIVE_TAG_TAG, s.get F.ACM_VER_STG_TAG),
    (F.ACM_VER_COMMIT_PENDING, 0)]).wrapBy F.ACM_VER_GEN_GEN 1

theorem exec_acmVerApply {s : State} (hp : s.get F.ACM_VER_COMMIT_PENDING = 1) (hlive : s.get F.ACM_VER_STATUS_LIVE < 4)
    (hs : s.acm.sweep = none) (hheld : s.epHeld 0x1A0 = false) : exec .acmVerApply s = .next s.verApplied := by
  show execAcmVerApply s = _
  rw [execAcmVerApply, if_neg (by simp [hp, hs, hheld]; omega)]
  rfl

theorem State.verApplied_sameRegs (s : State) :
    s.sameRegs s.verApplied [R.ACM_VER_STATUS, R.ACM_VER_LIVE_TAG, R.ACM_VER_COMMIT, R.ACM_VER_GEN] := by
  intro r hr
  rw [State.verApplied, State.wrapBy, State.rd_set_ne _ _ fun he => hr (by simp [he]),
    s.sets_sameRegs (rs := [R.ACM_VER_STATUS, R.ACM_VER_LIVE_TAG, R.ACM_VER_COMMIT, R.ACM_VER_GEN]) (by simp) r hr]

/-- The versions as an applied commit leaves them. -/
theorem State.verApplied_spec {s : State} (hlive : s.get F.ACM_VER_STATUS_LIVE < 4) :
    s.verApplied.committed = (s.committed + 1) % 16 ∧
    s.verApplied.get F.ACM_VER_STATUS_LIVE = s.get F.ACM_VER_STATUS_LIVE + 1 ∧
    s.verApplied.get F.ACM_VER_STATUS_STALL = 0 ∧
    s.verApplied.oldest = s.oldest ∧
    s.verApplied.get F.ACM_VER_LIVE_TAG_TAG = s.get F.ACM_VER_STG_TAG ∧
    s.verApplied.get F.ACM_VER_COMMIT_PENDING = 0 ∧
    s.verApplied.get F.ACM_VER_GEN_GEN = (s.get F.ACM_VER_GEN_GEN + 1) % 2 ^ 32 := by
  have htag : s.get F.ACM_VER_STG_TAG < 2 ^ 32 := bitsAt_lt ..
  simp (disch := decide) only [State.oldest, State.committed, State.verApplied, State.wrapBy, State.sets_cons,
    State.sets_nil, State.get_set_other, State.get_set_same, true_and, and_true]
  omega

/-! ### A version retires (R191, R192) -/

/-- The next version is the oldest one live, where the oldest has drained and the next is committed or in flight. -/
theorem State.oldestLive_next {s : State} (hne : s.oldest ≠ s.committed) (hdrained : s.inFlight s.oldest = 0)
    (hnext : (s.oldest + 1) % 16 = s.committed ∨ s.inFlight ((s.oldest + 1) % 16) ≠ 0) :
    s.oldestLive 16 s.oldest = (s.oldest + 1) % 16 := by
  rw [State.oldestLive, if_neg (by simp [hne, hdrained]), State.oldestLive, if_pos hnext]

/-- The oldest version has retired, and a sweep runs for its advance by one. -/
def State.verRetired (s : State) : State :=
  (s.sets [(F.ACM_VER_STATUS_OLDEST, (s.oldest + 1) % 16),
    (F.ACM_VER_STATUS_LIVE, verPos ((s.oldest + 1) % 16) s.committed + 1), (F.ACM_VER_STATUS_SWEEP, 1),
    (F.ACM_VER_STATUS_STALL, 0)]).withAcm { s.acm with sweep := some (s.oldest, 1) }

theorem State.verRetired_spec (s : State) :
    s.verRetired.oldest = (s.oldest + 1) % 16 ∧
    s.verRetired.get F.ACM_VER_STATUS_SWEEP = 1 ∧ s.verRetired.get F.ACM_VER_STATUS_STALL = 0 ∧
    s.verRetired.committed = s.committed ∧
    s.verRetired.acm = { s.acm with sweep := some (s.oldest, 1) } ∧
    s.sameRegs s.verRetired [R.ACM_VER_STATUS] ∧
    s.sameBut s.verRetired [.regs, .acm] := by
  refine ⟨?_, ?_, ?_, ?_, State.withAcm_acm .., .withAcm (s.sets_sameRegs (by simp)) _, .withAcm (.sets (.refl ..) _) _⟩
  all_goals
    simp (disch := decide) only [State.oldest, State.committed, State.verRetired, State.withAcm_get, State.sets_cons,
      State.sets_nil, State.get_set_other, State.get_set_same]
  all_goals omega

theorem exec_versionRetire {s : State} (hs : s.acm.sweep = none) (hheld : s.epHeld 0x1A0 = false)
    (hne : s.oldest ≠ s.committed) (hdrained : s.inFlight s.oldest = 0)
    (hnext : (s.oldest + 1) % 16 = s.committed ∨ s.inFlight ((s.oldest + 1) % 16) ≠ 0) :
    exec .versionRetire s = .next s.verRetired := by
  have hlt : s.oldest < 2 ^ 4 := bitsAt_lt ..
  have hpos : verPos s.oldest ((s.oldest + 1) % 16) = 1 := by
    unfold verPos
    omega
  show execVersionRetire s = _
  rw [execVersionRetire, State.oldestLive_next hne hdrained hnext, if_neg (by simp [hs, hheld]; omega), hpos]
  simp only [State.sets_acm]
  rfl

/-- Settles O28, clause by clause. -/
theorem ruleVersions : Obligations.RuleVersions := by
  unfold Obligations.RuleVersions
  refine ⟨?go, ?stall, ?apply, ?retire, ?sweep⟩
  case go =>
    intro s hp hlive
    rw [exec_acmVerCommitGo hp, if_neg hlive]
    exact ⟨_, rfl, s.get_set_same _ (by decide) (by decide), s.wr_sameRegs _ _, s.wr_sameBut _ _⟩
  case stall =>
    intro s hp hlive
    rw [exec_acmVerCommitGo hp, if_pos hlive]
    refine ⟨_, rfl, ?_, ?_, State.fault_sets_hasError _ _ _ _ (by decide),
      .fault (.withRegs (.withRegs (.refl ..) _) _) ..⟩
    · rw [State.fault_get_ne _ _ _ _ _ _ (by decide) (by decide) (by decide) (by decide),
        State.get_set_ne _ _ (by decide)]
      exact s.get_set_same _ (by decide) (by decide)
    · rw [State.fault_get_ne _ _ _ _ _ _ (by decide) (by decide) (by decide) (by decide)]
      exact State.get_set_same _ _ (by decide) (by decide)
  case apply =>
    intro s hp hlive hs hheld
    obtain ⟨hcommitted, hraised, hstall, holdest, htag, hpending, hgen⟩ := State.verApplied_spec hlive
    exact ⟨_, exec_acmVerApply hp hlive hs hheld, hcommitted, hraised, hstall, holdest, htag, hpending, hgen,
      s.verApplied_sameRegs, .withRegs (.sets (.refl ..) _) _⟩
  case retire =>
    intro s hs hheld hne hdrained hnext
    exact ⟨_, exec_versionRetire hs hheld hne hdrained hnext, s.verRetired_spec⟩
  case sweep =>
    intro s h d hs hheld hn
    have hentry := fun {b i : Nat} (hi : i < 2048) => State.sweepOver_acmEntry hn h d (b := b) hi
    refine ⟨_, exec_sweepEnd hs hheld, s.sweepOver_sweep h d, s.sweepOver_status h d, fun b i hi hb => ?_,
      fun b i hi hb => ?_, fun b i hi => ?_, fun b i hi hb => ?_, s.sweepOver_sameRegs h d, s.sweepOver_sameBut h d⟩
    · rw [hentry hi, if_pos hb]
      exact cValid_sweepCtrl ..
    · rw [hentry hi, if_pos hb]
      exact cFirstEn_sweepCtrl ..
    · rw [hentry hi]
      split
      · exact ⟨rfl, rfl, cAct_sweepCtrl ..⟩
      · exact ⟨rfl, rfl, rfl⟩
    · rw [hentry hi, if_neg (by simp [hb])]

end Sys2Proof.Machine
end

section
/-! SUPPORT. Entry commands, shifts, action entries and policers, and O29. -/

namespace Sys2Proof.Machine

set_option Elab.async false

/-! ### An entry command is taken (R194) -/

/-- The buffer of entry commands. -/
def State.acmBuf (s : State) : AcmEntry :=
  ⟨(List.range 10).map fun w => s.rd (R.ACM_EBUF_VAL w), (List.range 10).map fun w => s.rd (R.ACM_EBUF_MASK w),
    s.rd R.ACM_EBUF_CTRL⟩

/-- An entry command waits with its address and the buffer of this moment. -/
def State.acmCmdTaken (s : State) (op : Nat) : State :=
  (s.set F.ACM_ENT_STATUS_BUSY 1).withAcm
    { s.acm with cmd := some ⟨op, s.get F.ACM_ENT_ADDR_BANK, s.get F.ACM_ENT_ADDR_ENTRY, s.acmBuf⟩ }

theorem State.acmEntCmd_taken {s : State} (hcmd : s.acm.cmd = none) (hshift : s.acm.shift = none)
    (hb : bankAlloc s.plan (s.get F.ACM_ENT_ADDR_BANK) = true)
    (ha : s.underAmendment secAcmBanks 0 (256 + s.get F.ACM_ENT_ADDR_BANK) = false) (op : Nat) :
    s.acmEntCmd op = s.acmCmdTaken op := by
  simp only [State.acmEntCmd, State.acmShifted, hcmd, hshift, hb, ha, Option.isSome_none, Bool.or_self, Bool.not_true,
    Bool.false_eq_true, if_false, State.set_acm, State.acmCmdTaken, State.acmBuf]

/-- A command that is taken waits, `BUSY` is set, and nothing else changes. -/
theorem State.acmEntCmd_spec {s : State} (hcmd : s.acm.cmd = none) (hshift : s.acm.shift = none)
    (hb : bankAlloc s.plan (s.get F.ACM_ENT_ADDR_BANK) = true)
    (ha : s.underAmendment secAcmBanks 0 (256 + s.get F.ACM_ENT_ADDR_BANK) = false) (op : Nat) :
    (s.acmEntCmd op).get F.ACM_ENT_STATUS_BUSY = 1 ∧
    (s.acmEntCmd op).acm =
      { s.acm with cmd := some ⟨op, s.get F.ACM_ENT_ADDR_BANK, s.get F.ACM_ENT_ADDR_ENTRY, s.acmBuf⟩ } ∧
    s.sameRegs (s.acmEntCmd op) [R.ACM_ENT_STATUS] ∧ s.sameBut (s.acmEntCmd op) [.regs, .acm] := by
  rw [State.acmEntCmd_taken hcmd hshift hb ha]
  refine ⟨?_, State.withAcm_acm .., .withAcm (s.wr_sameRegs _ _) _, .withAcm (.withRegs (.refl ..) _) _⟩
  rw [State.acmCmdTaken, State.withAcm_get, State.get_set_of_lt _ (by decide) (by decide) (by decide)]

/-! ### READ and INVALIDATE (R194) -/

/-- Word `w` of an entry's value and mask goes to the buffer. -/
def State.loadWord (e : AcmEntry) (s : State) (w : Nat) : State :=
  (s.wr (R.ACM_EBUF_VAL w) (e.val.getD w 0)).wr (R.ACM_EBUF_MASK w) (e.mask.getD w 0)

/-- The first `n` words of an entry's value and mask go to the buffer. -/
def State.loadWords (e : AcmEntry) (s : State) (n : Nat) : State := (List.range n).foldl (State.loadWord e) s

theorem State.loadWords_succ (e : AcmEntry) (s : State) (n : Nat) :
    s.loadWords e (n + 1) = (s.loadWords e n).loadWord e n := by
  rw [State.loadWords, List.range_succ, List.foldl_append, List.foldl_cons, List.foldl_nil, State.loadWords]

theorem State.loadWords_eq_withRegs (e : AcmEntry) (s : State) (n : Nat) :
    s.loadWords e n = s.withRegs (s.loadWords e n).regs := by
  induction n with
  | zero => rfl
  | succ n ih =>
    rw [State.loadWords_succ, ih]
    rfl

theorem State.loadWords_rd_ne (e : AcmEntry) (s : State) {n r : Nat}
    (h : ∀ w < n, r ≠ R.ACM_EBUF_VAL w ∧ r ≠ R.ACM_EBUF_MASK w) : (s.loadWords e n).rd r = s.rd r := by
  induction n with
  | zero => rfl
  | succ n ih =>
    obtain ⟨hval, hmask⟩ := h n (by omega)
    rw [State.loadWords_succ, State.loadWord, State.rd_wr_ne _ _ hmask, State.rd_wr_ne _ _ hval,
      ih fun w hw => h w (by omega)]

/-- Each word stands in its own two registers of the buffer. -/
theorem State.loadWords_rd (e : AcmEntry) (s : State) {n w : Nat} (hn : n ≤ 10) (hw : w < n) :
    (s.loadWords e n).rd (R.ACM_EBUF_VAL w) = e.val.getD w 0 ∧
    (s.loadWords e n).rd (R.ACM_EBUF_MASK w) = e.mask.getD w 0 := by
  induction n with
  | zero => omega
  | succ n ih =>
    have hoff : ∀ v < 10, R.ACM_EBUF_VAL v ≠ R.ACM_EBUF_MASK n := fun v hv => by
      simp only [R.ACM_EBUF_VAL, R.ACM_EBUF_MASK]
      omega
    rw [State.loadWords_succ, State.loadWord, State.rd_wr_ne _ _ (hoff w (by omega))]
    by_cases hwn : w = n
    · subst hwn
      exact ⟨State.rd_wr_same .., State.rd_wr_same ..⟩
    · have hval : R.ACM_EBUF_VAL w ≠ R.ACM_EBUF_VAL n := by
        simp only [R.ACM_EBUF_VAL]
        omega
      have hmask : R.ACM_EBUF_MASK w ≠ R.ACM_EBUF_MASK n := by
        simp only [R.ACM_EBUF_MASK]
        omega
      have hcross : R.ACM_EBUF_MASK w ≠ R.ACM_EBUF_VAL n := by
        simp only [R.ACM_EBUF_VAL, R.ACM_EBUF_MASK]
        omega
      rw [State.rd_wr_ne _ _ hval, State.rd_wr_ne _ _ hmask, State.rd_wr_ne _ _ hcross]
      exact ih (by omega) (by omega)

/-- An entry stands in the buffer. -/
def State.bufLoaded (s : State) (e : AcmEntry) : State := (s.loadWords e 10).wr R.ACM_EBUF_CTRL e.ctrl

theorem State.bufLoaded_eq_withRegs (s : State) (e : AcmEntry) : s.bufLoaded e = s.withRegs (s.bufLoaded e).regs := by
  rw [State.bufLoaded, s.loadWords_eq_withRegs e]
  rfl

theorem State.bufLoaded_rd (s : State) (e : AcmEntry) {w : Nat} (hw : w < 10) :
    (s.bufLoaded e).rd (R.ACM_EBUF_VAL w) = e.val.getD w 0 ∧
    (s.bufLoaded e).rd (R.ACM_EBUF_MASK w) = e.mask.getD w 0 := by
  have hval : R.ACM_EBUF_VAL w ≠ R.ACM_EBUF_CTRL := by
    simp only [R.ACM_EBUF_VAL, R.ACM_EBUF_CTRL]
    omega
  have hmask : R.ACM_EBUF_MASK w ≠ R.ACM_EBUF_CTRL := by
    simp only [R.ACM_EBUF_MASK, R.ACM_EBUF_CTRL]
    omega
  rw [State.bufLoaded, State.rd_wr_ne _ _ hval, State.rd_wr_ne _ _ hmask]
  exact s.loadWords_rd e (Nat.le_refl 10) hw

theorem State.bufLoaded_rd_ne (s : State) (e : AcmEntry) {r : Nat} (hctrl : r ≠ R.ACM_EBUF_CTRL)
    (h : ∀ w < 10, r ≠ R.ACM_EBUF_VAL w ∧ r ≠ R.ACM_EBUF_MASK w) : (s.bufLoaded e).rd r = s.rd r := by
  rw [State.bufLoaded, State.rd_wr_ne _ _ hctrl, s.loadWords_rd_ne e h]

/-- An entry that is no longer VALID; everything else in it stays. -/
def AcmEntry.invalid (e : AcmEntry) : AcmEntry := { e with ctrl := setBit e.ctrl 63 false }

theorem exec_acmEntCmdDone_read {s : State} {b i : Nat} {buf : AcmEntry} (hk : s.acm.cmd = some ⟨3, b, i, buf⟩) :
    exec .acmEntCmdDone s = .next (s.acmCmdOver.bufLoaded (s.acmEntry b i)) := by
  show execAcmEntCmdDone s = _
  simp only [execAcmEntCmdDone, hk, show ¬ (3 = 1) by decide, show ¬ (3 = 2) by decide, or_self, false_and, if_false,
    if_true]
  rfl

theorem exec_acmEntCmdDone_invalidate {s : State} {b i : Nat} {buf : AcmEntry}
    (hk : s.acm.cmd = some ⟨4, b, i, buf⟩) :
    exec .acmEntCmdDone s = .next (s.acmCmdOver.setAcmEntry b i (s.acmEntry b i).invalid) := by
  show execAcmEntCmdDone s = _
  simp only [execAcmEntCmdDone, hk, show ¬ (4 = 1) by decide, show ¬ (4 = 2) by decide, show ¬ (4 = 3) by decide, or_self,
    false_and, if_false]
  rfl

/-- READ copies the entry to the buffer and ends. -/
theorem State.acmRead_spec (s : State) (e : AcmEntry) :
    (∀ w, w < 10 → (s.acmCmdOver.bufLoaded e).rd (R.ACM_EBUF_VAL w) = e.val.getD w 0 ∧
      (s.acmCmdOver.bufLoaded e).rd (R.ACM_EBUF_MASK w) = e.mask.getD w 0) ∧
    (s.acmCmdOver.bufLoaded e).rd R.ACM_EBUF_CTRL = e.ctrl ∧
    (s.acmCmdOver.bufLoaded e).get F.ACM_ENT_STATUS_BUSY = 0 ∧
    (s.acmCmdOver.bufLoaded e).get F.ACM_ENT_STATUS_LAST_FC = 0 ∧
    (s.acmCmdOver.bufLoaded e).acm = { s.acm with cmd := none } ∧
    s.sameRegs (s.acmCmdOver.bufLoaded e) (R.ACM_ENT_STATUS :: R.ACM_EBUF_CTRL ::
      ((List.range 10).map R.ACM_EBUF_VAL ++ (List.range 10).map R.ACM_EBUF_MASK)) ∧
    s.sameBut (s.acmCmdOver.bufLoaded e) [.regs, .acm] := by
  have hstatus : (s.acmCmdOver.bufLoaded e).rd R.ACM_ENT_STATUS = s.acmCmdOver.rd R.ACM_ENT_STATUS :=
    State.bufLoaded_rd_ne _ _ (by decide) (by decide)
  refine ⟨fun w hw => State.bufLoaded_rd _ _ hw, State.rd_wr_same .., ?_, ?_, ?_, fun r hr => ?_, ?_⟩
  · rw [State.get, hstatus]
    exact s.acmCmdOver_busy
  · rw [State.get, hstatus]
    exact s.acmCmdOver_lastFc
  · rw [State.bufLoaded_eq_withRegs, State.withRegs_acm, State.acmCmdOver_acm]
  · simp only [List.mem_cons, List.mem_append, List.mem_map, List.mem_range, not_or, not_exists, not_and] at hr
    obtain ⟨hr, hctrl, hval, hmask⟩ := hr
    rw [State.bufLoaded_rd_ne _ _ hctrl fun w hw => ⟨Ne.symm (hval w hw), Ne.symm (hmask w hw)⟩,
      s.acmCmdOver_sameRegs r (by simpa using hr)]
  · rw [State.bufLoaded_eq_withRegs]
    exact s.acmCmdOver_sameBut.withRegs _

/-! ### Shifts (R195) -/

/-- A shift command is taken. -/
def State.shiftTaken (s : State) (x : AcmShift) : State :=
  (s.sets [(F.ACM_SHIFT_STATUS_BUSY, 1), (F.ACM_SHIFT_STATUS_LAST_FC, 0)]).withAcm { s.acm with shift := some x }

theorem State.shiftTaken_spec (s : State) (x : AcmShift) :
    (s.shiftTaken x).get F.ACM_SHIFT_STATUS_BUSY = 1 ∧ (s.shiftTaken x).get F.ACM_SHIFT_STATUS_LAST_FC = 0 ∧
    (s.shiftTaken x).acm = { s.acm with shift := some x } ∧
    s.sameRegs (s.shiftTaken x) [R.ACM_SHIFT_STATUS] ∧ s.sameBut (s.shiftTaken x) [.regs, .acm] := by
  refine ⟨?_, ?_, State.withAcm_acm .., .withAcm (s.sets_sameRegs (by simp)) _, .withAcm (.sets (.refl ..) _) _⟩
  all_goals
    simp (disch := decide) only [State.shiftTaken, State.withAcm_get, State.sets_cons, State.sets_nil,
      State.get_set_other, State.get_set_same]
  all_goals decide

/-- A shift command passes the checks that come before that of the place beside its range. -/
theorem State.acmShiftCmd_checked {s : State} {bank first last : Nat} (hle : first ≤ last) (hs : s.acm.shift = none)
    (hb : bankAlloc s.plan bank = true) (ha : s.underAmendment secAcmBanks 0 (256 + bank) = false) (down : Bool) :
    s.acmShiftCmd down bank first last =
      if (if down then first = 0 ∨ cValid (s.acmEntry bank (first - 1)).ctrl
          else 2047 < last + 1 ∨ cValid (s.acmEntry bank (last + 1)).ctrl) then
        (s.set F.ACM_SHIFT_STATUS_LAST_FC 0x1208).fault uAcm 0x08 7 (s.acmExtra bank first)
      else s.shiftTaken ⟨down, bank, first, last⟩ := by
  simp only [State.acmShiftCmd, if_neg (Nat.not_lt.2 hle), hs, hb, ha, Option.isSome_none, Bool.not_true,
    Bool.false_eq_true, if_false, State.sets_acm]
  rfl

/-- One entry of a shift up: it goes one place on, and what it leaves is invalid. -/
def State.shiftUpEntry (bank : Nat) (s : State) (i : Nat) : State :=
  (s.setAcmEntry bank (i + 1) (s.acmEntry bank i)).setAcmEntry bank i (s.acmEntry bank i).invalid

/-- The last `n` entries of a range are shifted up. -/
def State.shiftedUp (s : State) (bank last n : Nat) : State :=
  ((List.range n).map (last - ·)).foldl (State.shiftUpEntry bank) s

theorem State.shiftedUp_succ (s : State) (bank last n : Nat) :
    s.shiftedUp bank last (n + 1) = (s.shiftedUp bank last n).shiftUpEntry bank (last - n) := by
  rw [State.shiftedUp, List.range_succ, List.map_append, List.foldl_append, List.map_cons, List.map_nil, List.foldl_cons,
    List.foldl_nil, State.shiftedUp]

theorem State.shiftedUp_entriesOnly (s : State) (bank last n : Nat) : EntriesOnly s (s.shiftedUp bank last n) :=
  .foldl (fun s i => (EntriesOnly.setAcmEntry s bank (i + 1) _).trans (.setAcmEntry ..)) ..

theorem State.shiftUpEntry_acmEntry (s : State) (bank i c j : Nat) :
    (s.shiftUpEntry bank i).acmEntry c j =
      if 2048 * c + j = 2048 * bank + i then (s.acmEntry bank i).invalid
      else if 2048 * c + j = 2048 * bank + i + 1 then s.acmEntry bank i
      else s.acmEntry c j := by
  rw [State.shiftUpEntry, State.setAcmEntry_acmEntry, State.setAcmEntry_acmEntry, Nat.add_assoc (2048 * bank)]

/-- Entries before the shifted ones, and those beyond the place that the last of them took, are as before. -/
theorem State.shiftedUp_acmEntry_outside (s : State) (bank : Nat) {last n : Nat} (hn : n ≤ last + 1) {c j : Nat}
    (h : 0 < n → 2048 * c + j + n < 2048 * bank + last + 1 ∨ 2048 * bank + last + 1 < 2048 * c + j) :
    (s.shiftedUp bank last n).acmEntry c j = s.acmEntry c j := by
  induction n with
  | zero => rfl
  | succ n ih =>
    have hout := h (Nat.succ_pos n)
    rw [State.shiftedUp_succ, State.shiftUpEntry_acmEntry, if_neg (by omega), if_neg (by omega),
      ih (by omega) fun _ => by omega]

/-- The entries of the range stand one place on, and the first of them is invalid. -/
theorem State.shiftedUp_acmEntry_moved (s : State) (bank : Nat) {last n i : Nat} (hn : n ≤ last + 1) (hlast : i ≤ last)
    (h : last < i + n) : (s.shiftedUp bank last n).acmEntry bank (i + 1) = s.acmEntry bank i := by
  induction n with
  | zero => omega
  | succ n ih =>
    rw [State.shiftedUp_succ, State.shiftUpEntry_acmEntry, if_neg (by omega)]
    by_cases hi : i = last - n
    · subst hi
      rw [if_pos (by omega), s.shiftedUp_acmEntry_outside bank (by omega) fun _ => by omega]
    · rw [if_neg (by omega), ih (by omega) (by omega)]

theorem State.shiftedUp_acmEntry_first (s : State) (bank : Nat) {first last : Nat} (hle : first ≤ last) :
    (s.shiftedUp bank last (last + 1 - first)).acmEntry bank first = (s.acmEntry bank first).invalid := by
  obtain ⟨n, hn⟩ : ∃ n, last + 1 - first = n + 1 := ⟨last - first, by omega⟩
  have hfirst : last - n = first := by omega
  rw [hn, State.shiftedUp_succ, State.shiftUpEntry_acmEntry, hfirst, if_pos rfl,
    s.shiftedUp_acmEntry_outside bank (by omega) fun _ => by omega]

/-- The shift up of entries `first` to `last` is over. -/
def State.shiftUpOver (s : State) (bank first last : Nat) : State :=
  let a := s.shiftedUp bank last (last + 1 - first)
  (a.set F.ACM_SHIFT_STATUS_BUSY 0).withAcm { a.acm with shift := none }

theorem exec_acmShiftDone {s : State} {bank first last : Nat} (hs : s.acm.shift = some ⟨false, bank, first, last⟩)
    (hheld : s.epHeld 0x1A0 = false) : exec .acmShiftDone s = .next (s.shiftUpOver bank first last) := by
  show execAcmShiftDone s = _
  simp only [execAcmShiftDone, hs, hheld, Bool.false_eq_true, if_false]
  rfl

theorem State.shiftUpOver_acmEntry (s : State) (bank first last c j : Nat) :
    (s.shiftUpOver bank first last).acmEntry c j = (s.shiftedUp bank last (last + 1 - first)).acmEntry c j := by
  rw [State.acmEntry, State.shiftUpOver, State.withAcm_acm, State.acmEntry]

theorem State.shiftUpOver_frame (s : State) (bank first last : Nat) :
    (s.shiftUpOver bank first last).get F.ACM_SHIFT_STATUS_BUSY = 0 ∧
    (s.shiftUpOver bank first last).acm.shift = none ∧
    s.sameRegs (s.shiftUpOver bank first last) [R.ACM_SHIFT_STATUS] ∧
    s.sameBut (s.shiftUpOver bank first last) [.regs, .acm] := by
  have honly := s.shiftedUp_entriesOnly bank last (last + 1 - first)
  refine ⟨?_, ?_, .withAcm (fun r hr => ?_) _, .withAcm (.withRegs (honly.sameBut (.refl ..)) _) _⟩
  · rw [State.shiftUpOver, State.withAcm_get, State.get_set_of_lt _ (by decide) (by decide) (by decide)]
  · rw [State.shiftUpOver, State.withAcm_acm]
  · rw [State.rd_set_ne _ _ (by simpa using hr), State.rd_congr honly.regs]

/-! ### The parity scan (R196) -/

theorem exec_acmParityScan {s : State} {bank : Nat} (hb : bankAlloc s.plan bank = true) (entry : Nat) :
    exec (.acmParityScan bank entry) s =
      .next ((s.setAcmEntry bank entry (s.acmEntry bank entry).invalid).fault uAcm 0x04 3 (s.acmExtra bank entry)) := by
  show execAcmParityScan bank entry s = _
  simp only [execAcmParityScan, hb, Bool.not_true, Bool.false_eq_true, if_false]
  rfl

theorem State.fault_acmEntry (s : State) (u c b e bank i : Nat) :
    (s.fault u c b e).acmEntry bank i = s.acmEntry bank i := by
  rw [State.acmEntry, State.fault_acm, State.acmEntry]

/-! ### Action entries, policers and indirection entries (R197, R202, R204) -/

theorem State.actRead_spec (s : State) :
    s.actRead.rd R.ACM_ACT_BUF0 = (s.action (s.get F.ACM_ACT_IDX_IDX)).getD 0 0 ∧
    s.actRead.rd R.ACM_ACT_BUF1 = (s.action (s.get F.ACM_ACT_IDX_IDX)).getD 1 0 ∧
    s.actRead.rd R.ACM_ACT_BUF2 = (s.action (s.get F.ACM_ACT_IDX_IDX)).getD 2 0 ∧
    s.sameRegs s.actRead [R.ACM_ACT_BUF0, R.ACM_ACT_BUF1, R.ACM_ACT_BUF2] := by
  refine ⟨?_, ?_, State.rd_wr_same .., fun r hr => ?_⟩
  · rw [State.actRead, State.rd_wr_ne _ _ (by decide), State.rd_wr_ne _ _ (by decide), State.rd_wr_same]
  · rw [State.actRead, State.rd_wr_ne _ _ (by decide), State.rd_wr_same]
  · simp only [List.mem_cons, List.not_mem_nil, or_false, not_or] at hr
    obtain ⟨h0, h1, h2⟩ := hr
    rw [State.actRead, State.rd_wr_ne _ _ h2, State.rd_wr_ne _ _ h1, State.rd_wr_ne _ _ h0]

theorem State.polWrite_eq {s : State}
    (h : s.get F.ACM_POL_MODE_ALG = 1 ∨ s.get F.ACM_POL_CIR_CIR ≤ s.get F.ACM_POL_PIR_PIR) :
    s.polWrite = s.setPolicer (s.get F.ACM_POL_IDX_IDX) { s.policer (s.get F.ACM_POL_IDX_IDX) with
      cir := s.get F.ACM_POL_CIR_CIR, pir := s.get F.ACM_POL_PIR_PIR, cbs := s.get F.ACM_POL_BURST_CBS,
      pbs := s.get F.ACM_POL_BURST_PBS, mode := (s.rd R.ACM_POL_MODE).toNat,
      tokC := s.get F.ACM_POL_BURST_CBS * polByte, tokP := s.get F.ACM_POL_BURST_PBS * polByte, time := s.tb0 } := by
  rw [State.polWrite, if_neg (by omega)]

/-- The fields into which a policer's settings and counts are read. -/
def polFields (p : Policer) : List (Fld × Nat) :=
  [(F.ACM_POL_CIR_CIR, p.cir), (F.ACM_POL_PIR_PIR, p.pir), (F.ACM_POL_BURST_CBS, p.cbs), (F.ACM_POL_BURST_PBS, p.pbs),
    (F.ACM_POL_CNT_COUNT 0, p.green), (F.ACM_POL_CNT_COUNT 1, p.yellow), (F.ACM_POL_CNT_COUNT 2, p.red)]

/-- The registers hold policer `p`. -/
def State.polLoaded (s : State) (p : Policer) : State := (s.sets (polFields p)).wr R.ACM_POL_MODE (BitVec.ofNat 64 p.mode)

theorem State.polLoaded_get (s : State) (p : Policer) :
    (s.polLoaded p).get F.ACM_POL_CIR_CIR = p.cir % 2 ^ 41 ∧ (s.polLoaded p).get F.ACM_POL_PIR_PIR = p.pir % 2 ^ 41 ∧
    (s.polLoaded p).get F.ACM_POL_BURST_CBS = p.cbs % 2 ^ 32 ∧
    (s.polLoaded p).get F.ACM_POL_BURST_PBS = p.pbs % 2 ^ 32 ∧
    (s.polLoaded p).get (F.ACM_POL_CNT_COUNT 0) = p.green % 2 ^ 64 ∧
    (s.polLoaded p).get (F.ACM_POL_CNT_COUNT 1) = p.yellow % 2 ^ 64 ∧
    (s.polLoaded p).get (F.ACM_POL_CNT_COUNT 2) = p.red % 2 ^ 64 := by
  simp (disch := decide) only [State.polLoaded, polFields, State.get_wr_ne, State.sets_cons, State.sets_nil,
    State.get_set_other, State.get_set_same, and_self]

theorem State.polLoaded_sameRegs (s : State) (p : Policer) :
    s.sameRegs (s.polLoaded p) [R.ACM_POL_CIR, R.ACM_POL_PIR, R.ACM_POL_BURST, R.ACM_POL_MODE, R.ACM_POL_CNT 0,
      R.ACM_POL_CNT 1, R.ACM_POL_CNT 2] := by
  intro r hr
  rw [State.polLoaded, State.rd_wr_ne _ _ fun he => hr (by simp [he])]
  exact s.sets_sameRegs (by simp [polFields]) r hr

/-- The register of two indirection entries is replaced. -/
theorem State.indirectionWritten_spec (s : State) (index a b : Nat) :
    let t := s.sets [(F.ACM_IND_EVEN index, a), (F.ACM_IND_ODD index, b)]
    t.get (F.ACM_IND_EVEN index) = a % 2 ^ 24 ∧ t.get (F.ACM_IND_ODD index) = b % 2 ^ 24 ∧
      s.sameRegs t [R.ACM_IND index] ∧ s.sameBut t [.regs] := by
  refine ⟨?_, ?_, s.sets_sameRegs (by simp), .sets (.refl ..) _⟩
  · rw [State.sets_cons, State.sets_cons, State.sets_nil,
      State.get_set_other _ _ (by simp) (by simp) (.inr (.inr (by simp))), State.get_set_same _ _ (by simp) (by simp)]
    rfl
  · rw [State.sets_cons, State.sets_cons, State.sets_nil, State.get_set_same _ _ (by simp) (by simp)]
    rfl

/-! ### The clauses of O29 -/

/-- Settles O29, clause by clause. -/
theorem entryCommandsAndActions : Obligations.EntryCommandsAndActions := by
  unfold Obligations.EntryCommandsAndActions
  refine ⟨?write, ?writeCtrl, ?read, ?invalidate, ?readDone, ?invalidateDone, ?shift, ?shiftBlocked, ?shiftDone, ?parity,
    ?actWrite, ?actRead, ?polWrite, ?polRead, ?indirection⟩
  case write =>
    intro s hcmd hshift hb ha
    exact ⟨s.acmEntCmd 1, rfl, State.acmEntCmd_spec hcmd hshift hb ha 1⟩
  case writeCtrl =>
    intro s hcmd hshift hb ha
    obtain ⟨hbusy, hacm, hframe⟩ := State.acmEntCmd_spec hcmd hshift hb ha 2
    exact ⟨s.acmEntCmd 2, rfl, hbusy, by rw [hacm, Option.map_some, State.acmBuf], by rw [hacm], hframe⟩
  case read =>
    intro s hcmd hshift hb ha
    obtain ⟨hbusy, hacm, hframe⟩ := State.acmEntCmd_spec hcmd hshift hb ha 3
    exact ⟨s.acmEntCmd 3, rfl, hbusy, by rw [hacm, Option.map_some], by rw [hacm], hframe⟩
  case invalidate =>
    intro s hcmd hshift hb ha
    obtain ⟨hbusy, hacm, hframe⟩ := State.acmEntCmd_spec hcmd hshift hb ha 4
    exact ⟨s.acmEntCmd 4, rfl, hbusy, by rw [hacm, Option.map_some], by rw [hacm], hframe⟩
  case readDone =>
    intro s b i buf hk
    exact ⟨_, exec_acmEntCmdDone_read hk, s.acmRead_spec _⟩
  case invalidateDone =>
    intro s b i buf hk
    obtain ⟨hfc, hsame, hother, hbusy, hregs, hbut⟩ := s.acmCmdOver_setAcmEntry_spec b i (s.acmEntry b i).invalid
    exact ⟨_, exec_acmEntCmdDone_invalidate hk, hsame, hother, hbusy, hfc, hregs, hbut⟩
  case shift =>
    intro s bank first last hle hlast hs hb ha hfree
    have arm : exec (.acmShift false bank first last) s = .next (s.shiftTaken ⟨false, bank, first, last⟩) := by
      show execAcmShift false bank first last s = _
      rw [execAcmShift, State.acmShiftCmd_checked hle hs hb ha, if_neg (by simp [hfree]; omega)]
    exact ⟨_, arm, s.shiftTaken_spec _⟩
  case shiftBlocked =>
    intro s bank first last hle hs hb ha hblocked
    have arm : exec (.acmShift true bank first last) s =
        .next ((s.set F.ACM_SHIFT_STATUS_LAST_FC 0x1208).fault uAcm 0x08 7 (s.acmExtra bank first)) := by
      show execAcmShift true bank first last s = _
      rw [execAcmShift, State.acmShiftCmd_checked hle hs hb ha, if_pos (by simpa using hblocked)]
    refine ⟨_, arm, ?_, State.fault_sets_hasError _ _ _ _ (by decide), .fault (.withRegs (.refl ..) _) ..⟩
    rw [State.fault_get_ne _ _ _ _ _ _ (by decide) (by decide) (by decide) (by decide),
      State.get_set_of_lt _ (by decide) (by decide) (by decide)]
  case shiftDone =>
    intro s bank first last hs hheld
    have hentry := s.shiftUpOver_acmEntry bank first last
    refine ⟨_, exec_acmShiftDone hs hheld, fun i hi hlast => ?_, fun hle => ?_, fun c i hout => ?_,
      s.shiftUpOver_frame bank first last⟩
    · rw [hentry, s.shiftedUp_acmEntry_moved bank (by omega) hlast (by omega)]
    · rw [hentry, s.shiftedUp_acmEntry_first bank hle]
      rfl
    · rw [hentry, s.shiftedUp_acmEntry_outside bank (by omega) fun _ => by omega]
  case parity =>
    intro s bank entry hb
    refine ⟨_, exec_acmParityScan hb entry, ?_, fun c i hne => ?_, State.fault_sets_hasError _ _ _ _ (by decide),
      .fault (.withAcm (.refl ..) _) ..⟩
    · rw [State.fault_acmEntry, State.setAcmEntry_acmEntry_same]
      rfl
    · rw [State.fault_acmEntry, State.setAcmEntry_acmEntry_ne _ _ hne]
  case actWrite =>
    intro s
    exact ⟨s.actWrite, rfl, spGet_set_same .., fun i hi => spGet_set_ne _ _ _ hi, .withAcm (.refl ..) _⟩
  case actRead =>
    intro s
    obtain ⟨h0, h1, h2, hregs⟩ := s.actRead_spec
    exact ⟨s.actRead, rfl, h0, h1, h2, hregs, .withRegs (.withRegs (.withRegs (.refl ..) _) _) _⟩
  case polWrite =>
    intro s p h hp
    subst hp
    exact ⟨_, congrArg Host.Outcome.next (State.polWrite_eq h), spGet_set_same .., fun i hi => spGet_set_ne _ _ _ hi,
      .withAcm (.refl ..) _⟩
  case polRead =>
    intro s p hp
    subst hp
    obtain ⟨hcir, hpir, hcbs, hpbs, hgreen, hyellow, hred⟩ := s.polLoaded_get (s.policer (s.get F.ACM_POL_IDX_IDX))
    exact ⟨s.polLoaded _, rfl, hcir, hpir, hcbs, hpbs, hgreen, hyellow, hred, State.rd_wr_same .., s.polLoaded_sameRegs _,
      .withRegs (.sets (.refl ..) _) _⟩
  case indirection =>
    intro s index value
    obtain ⟨heven, hodd, hframe⟩ := s.indirectionWritten_spec index (bitsAt value 23 0) (bitsAt value 55 32)
    exact ⟨_, rfl, heven.trans (Nat.mod_eq_of_lt (bitsAt_lt ..)), hodd.trans (Nat.mod_eq_of_lt (bitsAt_lt ..)), hframe⟩

end Sys2Proof.Machine
end

section
/-! SUPPORT. A candidate bucket locked after the moves of a displacement, and the refutation of O31. -/

namespace Sys2Proof.Machine

/-! ### The freed slot of a locked bucket (O31, R208, R213, R214)

The model looks at the lock of candidate A before a displacement begins, and not again once its moves are made: the new
entry then goes into the lowest free slot of A. Whatever is written to slot 0 keeps the `LOCK` of its bucket, so if A has
been locked meanwhile (a debugger's write over the system bus reaches the unit's partition, R434), `LOCK` stands in the
entry that is placed there, where the statement has an entry without it. R214 would have nothing written to that bucket at
all. -/

/-- A plan with memory for the exact-match tables and table 0 of 16 buckets, with keys of 48 bytes. -/
def oneTablePlan : Plan :=
  [⟨secMemPartition, 0, 1, false, [], [1, 0, 0, 0, BitVec.ofNat 8 uEmt, 0, 0, 0, 0, 0, 0, 0, 64, 0, 0, 0]⟩,
   ⟨secEmtGeometry, 0, 1, false, [], [1, 4, 48]⟩]

/-- The key of 48 zero bytes: its candidates are buckets 0 and 1. -/
def zeroKey : List Byte := List.replicate 48 0

/-- An INSERT of that key stands at the front of the engine's work with all its moves made, and bucket 0 is locked. -/
def lockedAfterMoves : State :=
  ((State.reset.withSite { State.reset.site with live := oneTablePlan }).withEmt
    { State.reset.emt with engine := [.cmd 1 0 zeroKey 0 0 0], path := some [] }).emtSetLock 0 0 true

theorem lockedAfterMoves_front : lockedAfterMoves.emtFront = some (.cmd 1 0 zeroKey 0 0 0) := by decide +kernel

theorem lockedAfterMoves_cands : emtCands lockedAfterMoves.plan 0 zeroKey = (0, 0, 1) := by decide +kernel

theorem lockedAfterMoves_absent : lockedAfterMoves.emtFind 0 zeroKey 0 1 = none := by decide +kernel

theorem lockedAfterMoves_spot : lockedAfterMoves.emtPlaceNow 0 0 1 = .spot 0 0 := by decide +kernel

theorem lockedAfterMoves_now : lockedAfterMoves.emtNow = 0 := by decide +kernel

/-- `LOCK` of bucket 0 of table 0 in the next state, where the answer is one. -/
def lockAfter : Res → Option Bool
  | .next t => some (t.emtLocked 0 0)
  | .fault _ | .refused _ => none

/-- The entry is placed, and the bucket is as locked as before. -/
theorem lockAfter_lockedAfterMoves : lockAfter (exec .emtCmdDone lockedAfterMoves) = some true := by decide +kernel

/-- An entry of the same key, made at the same time, has no `LOCK`. -/
theorem eLock_placed : eLock (eMake true false false 0 0 zeroKey 0) = false := by decide +kernel

/-- Refutes O31, in its clause of INSERT: the entry in slot 0 of a candidate locked after the moves carries `LOCK`. -/
theorem not_exactMatchCommands : ¬ Obligations.ExactMatchCommands := by
  unfold Obligations.ExactMatchCommands
  rintro ⟨-, -, -, -, -, -, -, -, -, insertPlaces, -⟩
  obtain ⟨t, arm, hentry, -⟩ := insertPlaces lockedAfterMoves 0 0 1 0 0 0 0 0 zeroKey 0 (by decide) lockedAfterMoves_front
    lockedAfterMoves_cands lockedAfterMoves_absent lockedAfterMoves_spot
  have hlock : t.emtLocked 0 0 = true := by
    simpa only [arm, lockAfter, Option.some.injEq] using lockAfter_lockedAfterMoves
  rw [State.emtLocked, hentry, lockedAfterMoves_now] at hlock
  exact absurd (hlock.symm.trans eLock_placed) (by decide)

end Sys2Proof.Machine
end

section
/-! SUPPORT. What the scheduler's operations touch of its state, the gate lists of a port, and O34. -/

namespace Sys2Proof.Machine

set_option Elab.async false

/-! ### Frames through the scheduler's state -/

namespace State.sameBut

variable {s a : State} {l : List Part}

theorem withPrm (h : s.sameBut a l) (x : PrmState) (hl : .prm ∈ l := by decide) : s.sameBut (a.withPrm x) l := by
  revert h
  unfold State.sameBut
  iterate 9 refine And.imp id ?_
  exact And.imp (fun _ p => absurd hl p) id

theorem withSch (h : s.sameBut a l) (x : SchState) (hl : .sch ∈ l := by decide) : s.sameBut (a.withSch x) l := by
  revert h
  unfold State.sameBut
  iterate 20 refine And.imp id ?_
  exact And.imp (fun _ p => absurd hl p) id

end State.sameBut

/-! ### Operations that touch only nodes and turns (R230 to R235) -/

/-- `t` differs from `s` at most in the scheduler's nodes and the turns of its round robins. -/
def NodesOnly (s t : State) : Prop := t = s.withSch { s.sch with nodes := t.sch.nodes, turn := t.sch.turn }

namespace NodesOnly

theorem refl (s : State) : NodesOnly s s := rfl

theorem trans {a b c : State} (h : NodesOnly a b) (k : NodesOnly b c) : NodesOnly a c := by
  unfold NodesOnly at *
  rw [k, h]
  rfl

theorem foldl {α : Type} (g : State → α → State) (l : List α) (s : State) (h : ∀ s x, NodesOnly s (g s x)) :
    NodesOnly s (l.foldl g s) := by
  induction l generalizing s with
  | nil => exact refl s
  | cons x l ih => exact (h s x).trans (ih _)

theorem setNode (s : State) (k : Nat) (n : SchNode) : NodesOnly s (s.setNode k n) := rfl
theorem setTurn (s : State) (k v : Nat) : NodesOnly s (s.setTurn k v) := rfl

theorem cbsStep (s : State) (k : Nat) : NodesOnly s (s.cbsStep k) := by
  unfold State.cbsStep
  dsimp only
  (repeat' split) <;> rfl

theorem cbsSync (s : State) (p : Nat) : NodesOnly s (s.cbsSync p) := foldl _ _ _ fun s _ => cbsStep s _

variable {s t : State} (h : NodesOnly s t)
include h

theorem regs : t.regs = s.regs := by rw [h]; rfl
theorem get (f : Fld) : t.get f = s.get f := State.get_congr h.regs f
theorem rd (r : Nat) : t.rd r = s.rd r := State.rd_congr h.regs r
theorem prm : t.prm = s.prm := by rw [h]; rfl
theorem plan : t.plan = s.plan := by rw [h]; rfl
theorem out : t.out = s.out := by rw [h]; rfl
theorem eth : t.eth = s.eth := by rw [h]; rfl
theorem clk : t.clk = s.clk := by rw [h]; rfl
theorem due : t.sch.due = s.sch.due := by rw [h]; rfl
theorem gcl (p : Nat) : t.gcl p = s.gcl p := by rw [h]; rfl
theorem leafQ (l : Nat) : t.leafQ l = s.leafQ l := by rw [h]; rfl
theorem txOf (p : Nat) : t.txOf p = s.txOf p := by rw [h]; rfl
theorem portNow (p : Nat) : t.portNow p = s.portNow p := by rw [h]; rfl
theorem operEntries (p : Nat) : t.operEntries p = s.operEntries p := by rw [h]; rfl

theorem sameBut {a : State} {l : List Part} (hs : a.sameBut s l) (hl : .sch ∈ l := by decide) : a.sameBut t l := by
  rw [h]
  exact hs.withSch _ hl

end NodesOnly

/-! ### Gate lists of ports -/

@[simp] theorem State.setGcl_gcl_same (s : State) (p : Nat) (g : Gcl) : (s.setGcl p g).gcl p = g := spGet_set_same ..

theorem State.setGcl_gcl_ne (s : State) {p q : Nat} (g : Gcl) (h : q ≠ p) : (s.setGcl p g).gcl q = s.gcl q :=
  spGet_set_ne _ _ _ h

@[simp] theorem State.setGcl_get (s : State) (p : Nat) (g : Gcl) (f : Fld) : (s.setGcl p g).get f = s.get f := rfl
@[simp] theorem State.setGcl_rd (s : State) (p : Nat) (g : Gcl) (r : Nat) : (s.setGcl p g).rd r = s.rd r := rfl

theorem State.gcl_congr {s t : State} (h : t.sch = s.sch) (p : Nat) : t.gcl p = s.gcl p := by
  rw [State.gcl, h, State.gcl]

/-- Entry `x.1` is shown as the one in force, with the states `x.2`. -/
def State.showGates (s : State) (p : Nat) (x : Nat × Nat) : State :=
  s.sets [(F.SCH_PORT_STATUS_GATES p, x.2), (F.SCH_GCL_STATUS_OPER_ENTRY p, x.1)]

@[simp] theorem State.showGates_gcl (s : State) (p : Nat) (x : Nat × Nat) (q : Nat) :
    (s.showGates p x).gcl q = s.gcl q :=
  State.gcl_congr (State.sets_sch ..) q

theorem State.showGates_sameRegs (s : State) (p : Nat) (x : Nat × Nat) :
    s.sameRegs (s.showGates p x) [R.SCH_PORT_STATUS p, R.SCH_GCL_STATUS p] :=
  s.sets_sameRegs (by simp)

theorem State.showGates_gates (s : State) (p : Nat) {x : Nat × Nat} (h : x.2 < 256) :
    (s.showGates p x).get (F.SCH_PORT_STATUS_GATES p) = x.2 := by
  rw [State.showGates, State.sets_cons, State.sets_cons, State.sets_nil, State.get_set_ne _ _ (by simp),
    State.get_set_same _ _ (by simp) (by simp)]
  exact Nat.mod_eq_of_lt h

theorem State.showGates_entry (s : State) (p : Nat) {x : Nat × Nat} (h : x.1 < 2048) :
    (s.showGates p x).get (F.SCH_GCL_STATUS_OPER_ENTRY p) = x.1 := by
  rw [State.showGates, State.sets_cons, State.sets_cons, State.sets_nil, State.get_set_same _ _ (by simp) (by simp)]
  exact Nat.mod_eq_of_lt h

theorem State.showGates_operLen (s : State) (p : Nat) (x : Nat × Nat) :
    (s.showGates p x).get (F.SCH_GCL_STATUS_OPER_LEN p) = s.get (F.SCH_GCL_STATUS_OPER_LEN p) := by
  rw [State.showGates, State.sets_cons, State.sets_cons, State.sets_nil,
    State.get_set_other _ _ (by simp) (by simp) (by simp), State.get_set_ne _ _ (by simp)]

/-! ### The entry in force (R236) -/

theorem gclAt_states_lt {l : List (Nat × Nat)} (h : ∀ x ∈ l, x.1 < 256) (d i : Nat) : (gclAt l d i).2 < 256 := by
  fun_induction gclAt l d i with
  | case1 => exact (by decide : 255 < 256)
  | case2 => exact h _ List.mem_cons_self
  | case3 => exact h _ List.mem_cons_self
  | case4 d i g n t _ _ ih => exact ih fun x hx => h x (List.mem_cons_of_mem _ hx)

theorem gclAt_entry_lt {l : List (Nat × Nat)} (h : l ≠ []) (d i : Nat) : (gclAt l d i).1 < i + l.length := by
  fun_induction gclAt l d i with
  | case1 => exact absurd rfl h
  | case2 => simp
  | case3 => simp
  | case4 d i g n t ht _ ih =>
    have := ih ht
    simp only [List.length_cons]
    omega

theorem State.operEntries_states_lt (s : State) (p d : Nat) : (gclAt (s.operEntries p) d 0).2 < 256 := by
  refine gclAt_states_lt (fun x hx => ?_) d 0
  obtain ⟨e, -, rfl⟩ := List.mem_map.mp hx
  exact bitsAt_lt ..

theorem State.operEntries_entry_lt {s : State} {p : Nat} (h : s.get (F.SCH_GCL_STATUS_OPER_LEN p) ≠ 0) (d : Nat) :
    (gclAt (s.operEntries p) d 0).1 < 2048 := by
  have hlen : (s.operEntries p).length = s.get (F.SCH_GCL_STATUS_OPER_LEN p) := by simp [State.operEntries]
  have hbound : s.get (F.SCH_GCL_STATUS_OPER_LEN p) < 2048 := bitsAt_lt ..
  have hne : s.operEntries p ≠ [] := by
    intro hnil
    rw [hnil] at hlen
    exact h hlen.symm
  have := gclAt_entry_lt hne d 0
  omega

/-! ### The cycle in force (R236, R237) -/

/-- The start of the cycle in force: the last whole number of cycles from the base. -/
def State.cycleStart (s : State) (p : Nat) : Nat :=
  s.portNow p - (((s.portNow p : Int) - (((s.gcl p).base * 2 ^ 28 : Nat) : Int)) %
    (((s.gcl p).cycle * 2 ^ 28 : Nat) : Int)).toNat

theorem State.cycleStart_eq {s : State} {p : Nat} (h : (s.gcl p).base * 2 ^ 28 ≤ s.portNow p) :
    s.cycleStart p =
      s.portNow p - (s.portNow p - (s.gcl p).base * 2 ^ 28) % ((s.gcl p).cycle * 2 ^ 28) := by
  rw [State.cycleStart, ← Int.ofNat_sub h, ← Int.natCast_mod, Int.toNat_natCast]

/-- Inside a cycle that began a whole number of cycles after the base, its start is the start in force. -/
theorem State.cycleStart_of_within {s : State} {p k start : Nat}
    (hstart : start = (s.gcl p).base * 2 ^ 28 + k * ((s.gcl p).cycle * 2 ^ 28)) (hle : start ≤ s.portNow p)
    (hlt : s.portNow p < start + (s.gcl p).cycle * 2 ^ 28) : s.cycleStart p = start := by
  have hoff : s.portNow p - (s.gcl p).base * 2 ^ 28 = s.portNow p - start + k * ((s.gcl p).cycle * 2 ^ 28) := by omega
  rw [State.cycleStart_eq (by omega), hoff, Nat.add_mul_mod_self_right, Nat.mod_eq_of_lt (by omega)]
  omega

/-- When the cycle after the one that began at `start` has begun, the start in force lies after `start`. -/
theorem State.lt_cycleStart {s : State} {p start : Nat} (hcyc : (s.gcl p).cycle ≠ 0)
    (hbase : (s.gcl p).base * 2 ^ 28 ≤ start) (hnext : start + (s.gcl p).cycle * 2 ^ 28 ≤ s.portNow p) :
    start < s.cycleStart p := by
  rw [State.cycleStart_eq (by omega)]
  have := Nat.mod_lt (s.portNow p - (s.gcl p).base * 2 ^ 28) (show 0 < (s.gcl p).cycle * 2 ^ 28 by omega)
  omega

/-! ### The gates brought up to the present (R236, R237) -/

/-- With no change pending and no cycle held, the cycle in force gives the entry and its states. -/
theorem State.gclPlace_running {s : State} {p : Nat} (hlen : s.get (F.SCH_GCL_STATUS_OPER_LEN p) ≠ 0)
    (hcyc : (s.gcl p).cycle ≠ 0) (hchange : (s.gcl p).change = none)
    (hheld : s.cycleStart p = (s.gcl p).start → (s.gcl p).held = false) :
    s.gclPlace p = (s.setGcl p { s.gcl p with start := s.cycleStart p, held := false }).showGates p
      (gclAt (s.operEntries p) (s.portNow p - s.cycleStart p) 0) := by
  have hnot : ¬ (s.get (F.SCH_GCL_STATUS_OPER_LEN p) = 0 ∨ (s.gcl p).cycle = 0) := by simp [hlen, hcyc]
  have hfree : (if s.cycleStart p = (s.gcl p).start then (s.gcl p).held else false) = false := by
    split
    · next h => exact hheld h
    · rfl
  unfold State.gclPlace
  dsimp only
  rw [if_neg hnot, hchange]
  rw [State.cycleStart] at hfree ⊢
  rw [hfree, if_neg Bool.false_ne_true]
  generalize gclAt _ _ _ = x
  obtain ⟨e, gates⟩ := x
  rfl

/-- Whatever the list and the time, at most the start of the cycle and its being held change of the port's schedule. -/
theorem State.gclPlace_cases (s : State) (p : Nat) :
    s.gclPlace p = s.showGates p (0, 0xFF) ∨
      ∃ start held x, s.gclPlace p = (s.setGcl p { s.gcl p with start := start, held := held }).showGates p x := by
  unfold State.gclPlace
  dsimp only
  split
  · exact .inl rfl
  · generalize gclAt _ _ _ = x
    obtain ⟨e, gates⟩ := x
    exact .inr ⟨_, _, (e, gates), rfl⟩

theorem State.gclPlace_spec (s : State) (p : Nat) :
    ((s.gclPlace p).gcl p).base = (s.gcl p).base ∧ ((s.gclPlace p).gcl p).cycle = (s.gcl p).cycle ∧
    ((s.gclPlace p).gcl p).change = (s.gcl p).change ∧ (∀ q, q ≠ p → (s.gclPlace p).gcl q = s.gcl q) ∧
    (s.gclPlace p).get (F.SCH_GCL_STATUS_OPER_LEN p) = s.get (F.SCH_GCL_STATUS_OPER_LEN p) ∧
    s.sameRegs (s.gclPlace p) [R.SCH_PORT_STATUS p, R.SCH_GCL_STATUS p] := by
  obtain h | ⟨start, held, x, h⟩ := s.gclPlace_cases p
  · rw [h]
    exact ⟨by simp, by simp, by simp, fun q _ => s.showGates_gcl p _ q, s.showGates_operLen p _,
      s.showGates_sameRegs p _⟩
  · rw [h]
    refine ⟨by simp, by simp, by simp, fun q hq => ?_, ?_, State.showGates_sameRegs _ p x⟩
    · rw [State.showGates_gcl, State.setGcl_gcl_ne _ _ hq]
    · rw [State.showGates_operLen, State.setGcl_get]

theorem State.sameBut.gclPlace {s a : State} {l : List Part} (h : s.sameBut a l) (p : Nat)
    (hl : [.regs, .sch] ⊆ l := by decide) : s.sameBut (a.gclPlace p) l := by
  obtain e | ⟨start, held, x, e⟩ := a.gclPlace_cases p
  · rw [e]
    exact h.sets _ (hl (by simp))
  · rw [e]
    exact (h.withSch _ (hl (by simp))).sets _ (hl (by simp))

/-- With no change pending and no cycle held, the gates now are those of the cycle in force. -/
theorem State.gatesNow_running {s : State} {p : Nat} (hlen : s.get (F.SCH_GCL_STATUS_OPER_LEN p) ≠ 0)
    (hcyc : (s.gcl p).cycle ≠ 0) (hchange : (s.gcl p).change = none)
    (hheld : s.cycleStart p = (s.gcl p).start → (s.gcl p).held = false) :
    (s.gatesNow p).gcl p = { s.gcl p with start := s.cycleStart p, held := false } ∧
    (s.gatesNow p).get (F.SCH_PORT_STATUS_GATES p) =
      (gclAt (s.operEntries p) (s.portNow p - s.cycleStart p) 0).2 ∧
    (s.gatesNow p).get (F.SCH_GCL_STATUS_OPER_ENTRY p) =
      (gclAt (s.operEntries p) (s.portNow p - s.cycleStart p) 0).1 ∧
    s.sameRegs (s.gatesNow p) [R.SCH_PORT_STATUS p, R.SCH_GCL_STATUS p] ∧
    s.sameBut (s.gatesNow p) [.regs, .sch] := by
  have hu := NodesOnly.cbsSync s p
  have hstart : (s.cbsSync p).cycleStart p = s.cycleStart p := by
    rw [State.cycleStart, hu.portNow, hu.gcl, State.cycleStart]
  have hnow : s.gatesNow p = (s.cbsSync p).gclPlace p := by
    rw [State.gatesNow, State.gclSync, hu.gcl, hchange]
  rw [hnow, State.gclPlace_running (by rwa [hu.get]) (by rwa [hu.gcl]) (by rwa [hu.gcl]) (by rwa [hu.gcl, hstart]),
    hstart, hu.gcl, hu.operEntries, hu.portNow]
  refine ⟨by simp, State.showGates_gates _ p (s.operEntries_states_lt ..),
    State.showGates_entry _ p (State.operEntries_entry_lt hlen _), fun r hr => ?_, ?_⟩
  · rw [State.showGates_sameRegs _ p _ r hr, State.setGcl_rd, hu.rd]
  · exact .sets (.withSch (hu.sameBut (.refl ..)) _) _

theorem exec_gateEntryChange {s : State} {p : Nat} (h : ((s.gatesNow p).gcl p).start = (s.gcl p).start) :
    exec (.gateEntryChange p) s = .next (s.gatesNow p) := by
  show execGateEntryChange p s = _
  simp only [execGateEntryChange, h, if_true]

theorem exec_gclCycleStart {s : State} {p : Nat} (h : ((s.gatesNow p).gcl p).start ≠ (s.gcl p).start) :
    exec (.gclCycleStart p) s = .next (s.gatesNow p) := by
  show execGclCycleStart p s = _
  simp only [execGclCycleStart, h, if_false]

/-! ### GO of a gate list (R236, R237) -/

/-- The base and the cycle that are staged, in 2⁻⁴⁴ ns. -/
def State.stagedBase (s : State) (p : Nat) : Nat :=
  ((s.get (F.SCH_GCL_BASE_SEC_STG_SEC p) * 1000000000 + s.get (F.SCH_GCL_BASE_NS_STG_NS p)) * 2 ^ 16 +
    s.get (F.SCH_GCL_BASE_NS_STG_FRAC p)) * 2 ^ 28
def State.stagedCycle (s : State) (p : Nat) : Nat :=
  (s.get (F.SCH_GCL_CYCLE_STG_NS p) * 2 ^ 16 + s.get (F.SCH_GCL_CYCLE_STG_FRAC p)) * 2 ^ 28

/-- The number of cycles of `cyc` from `base` to the first that begins at or after `least`. -/
def cyclesTo (base cyc least : Nat) : Nat := (least - base + cyc - 1) / cyc

theorem le_cyclesTo (base least : Nat) {cyc : Nat} (h : 0 < cyc) : least ≤ base + cyclesTo base cyc least * cyc := by
  have := Nat.lt_div_mul_add (a := least - base + cyc - 1) h
  unfold cyclesTo
  omega

theorem cyclesTo_first (base cyc least : Nat) :
    cyclesTo base cyc least = 0 ∨ base + cyclesTo base cyc least * cyc < least + cyc := by
  have hle := Nat.div_mul_le_self (least - base + cyc - 1) cyc
  unfold cyclesTo
  by_cases hpast : least ≤ base
  · rw [Nat.sub_eq_zero_of_le hpast, Nat.zero_add]
    rcases Nat.eq_zero_or_pos cyc with rfl | hpos
    · exact .inl (Nat.div_zero _)
    · exact .inl (Nat.div_eq_of_lt (by omega))
  · right
    omega

theorem State.gclStagedOk_cycle {s : State} {p : Nat} (h : s.gclStagedOk p = true) : 0 < s.stagedCycle p := by
  simp only [State.gclStagedOk, Bool.and_eq_true, decide_eq_true_eq] at h
  obtain ⟨⟨⟨⟨⟨-, hcyc⟩, -⟩, -⟩, -⟩, -⟩ := h
  unfold State.stagedCycle
  omega

/-- A condition that SCH records leaves every register above its error registers. -/
theorem State.schFault_get (s : State) (c b e : Nat) {f : Fld} (h : 0x14000118 < f.off) :
    (s.fault uSch c b e).get f = s.get f :=
  s.fault_get_ne _ _ _ _ _ (by simp only [errStatus, unitOff, uSch]; omega)
    (by simp only [errFirst, unitOff, uSch]; omega) (by simp only [errCount, unitOff, uSch]; omega)
    (by simp only [R.FLT_SUMMARY]; omega)

/-- `PENDING` is set, and `c` shown as the change time. -/
def State.gclGoRegs (s : State) (p c : Nat) : State :=
  (s.commitGo (F.SCH_GCL_COMMIT_PENDING p)).sets [(F.SCH_GCL_CHANGE_SEC_SEC p, c / secUnit),
    (F.SCH_GCL_CHANGE_NS_NS p, c % secUnit / nsUnit), (F.SCH_GCL_CHANGE_NS_FRAC p, c / 2 ^ 28 % 2 ^ 16)]

theorem State.gclGoRegs_pending (s : State) (p c : Nat) :
    (s.gclGoRegs p c).get (F.SCH_GCL_COMMIT_PENDING p) = 1 := by
  rw [State.gclGoRegs, State.sets_cons, State.sets_cons, State.sets_cons, State.sets_nil,
    State.get_set_ne _ _ (by simp), State.get_set_ne _ _ (by simp), State.get_set_ne _ _ (by simp), State.commitGo,
    State.get_set_same _ _ (by simp) (by simp), show 1 % 2 ^ (2 + 1 - 2) = 1 from rfl]

theorem State.gclGoRegs_gcl (s : State) (p c q : Nat) : (s.gclGoRegs p c).gcl q = s.gcl q :=
  State.gcl_congr (by rw [State.gclGoRegs, State.sets_sch, State.commitGo_sch]) q

/-- The staged list is pending, with `c` as its change time. -/
def State.gclPending (s : State) (p c : Nat) : State :=
  (s.gclGoRegs p c).setGcl p
    { (s.gclGoRegs p c).gcl p with change := some c, ext := s.get (F.SCH_GCL_EXT_STG_EXT p) }

/-- The fault of R237 for a base that has passed changes nothing of the pending list. -/
theorem State.gclPending_spec (s : State) (p c : Nat) {t : State}
    (ht : t = s.gclPending p c ∨ t = (s.gclPending p c).fault uSch 0x04 3 (p * 2 ^ 32)) :
    t.get (F.SCH_GCL_COMMIT_PENDING p) = 1 ∧
    t.gcl p = { s.gcl p with change := some c, ext := s.get (F.SCH_GCL_EXT_STG_EXT p) } ∧
    (∀ q, q ≠ p → t.gcl q = s.gcl q) ∧ s.sameBut t [.regs, .sch, .pcie, .out, .aia] := by
  have hpending : (s.gclPending p c).get (F.SCH_GCL_COMMIT_PENDING p) = 1 := by
    rw [State.gclPending, State.setGcl_get, State.gclGoRegs_pending]
  have hsame : (s.gclPending p c).gcl p =
      { s.gcl p with change := some c, ext := s.get (F.SCH_GCL_EXT_STG_EXT p) } := by
    rw [State.gclPending, State.setGcl_gcl_same, State.gclGoRegs_gcl]
  have hother : ∀ q, q ≠ p → (s.gclPending p c).gcl q = s.gcl q := fun q hq => by
    rw [State.gclPending, State.setGcl_gcl_ne _ _ hq, State.gclGoRegs_gcl]
  have hbut : s.sameBut (s.gclPending p c) [.regs, .sch, .pcie, .out, .aia] :=
    .withSch (.sets (.withRegs (.refl ..) _) _) _
  rcases ht with rfl | rfl
  · exact ⟨hpending, hsame, hother, hbut⟩
  · refine ⟨?_, ?_, fun q hq => ?_, hbut.fault ..⟩
    · rw [State.schFault_get _ _ _ _ (by simp only [R.SCH_GCL_COMMIT]; omega), hpending]
    · rw [State.gcl_congr (State.fault_sch ..), hsame]
    · rw [State.gcl_congr (State.fault_sch ..), hother q hq]

section
variable {s : State} {p : Nat} (hpres : portPresent s.plan p = true) (htree : s.underAmendment secSchTree p 0 = false)
  (hport : s.underAmendment secPortLayout 0 p = false) (hnew : s.get (F.SCH_GCL_COMMIT_PENDING p) = 0)
include hpres htree hport hnew

/-- A list inside R236 becomes pending, with the fault of R237 where its base has passed. -/
theorem State.gclGo_accepted (hok : s.gclStagedOk p = true) {n : Nat}
    (hn : cyclesTo (s.stagedBase p) (s.stagedCycle p) (s.portNow p + 10000 * nsUnit) = n) :
    s.gclGo p =
      if 0 < n then (s.gclPending p (s.stagedBase p + n * s.stagedCycle p)).fault uSch 0x04 3 (p * 2 ^ 32)
      else s.gclPending p (s.stagedBase p + n * s.stagedCycle p) := by
  subst hn
  rw [State.gclGo, if_neg (by simp [hpres]), if_neg (by simp [htree, hport]), if_neg (by simp [hnew]),
    if_neg (by simp [hok])]
  rfl

theorem State.gclGo_refused (hbad : s.gclStagedOk p = false) : s.gclGo p = s.fault uSch 0x03 2 (p * 2 ^ 32) := by
  rw [State.gclGo, if_neg (by simp [hpres]), if_neg (by simp [htree, hport]), if_neg (by simp [hnew]),
    if_pos (by simp [hbad])]

end

/-! ### The change to a new list (R237) -/

/-- The first `n` staged entries copied to the operating list, those from `LEN` on as zero. -/
def State.copyEntries (s : State) (p n : Nat) : State :=
  (List.range n).foldl (fun (s : State) e =>
    s.wr (R.SCH_GCL_OPER p e) (if e < s.get (F.SCH_GCL_LEN_STG_LEN p) then s.rd (R.SCH_GCL_STG p e) else 0)) s

theorem State.copyEntries_succ (s : State) (p n : Nat) :
    s.copyEntries p (n + 1) = (s.copyEntries p n).wr (R.SCH_GCL_OPER p n)
      (if n < (s.copyEntries p n).get (F.SCH_GCL_LEN_STG_LEN p) then (s.copyEntries p n).rd (R.SCH_GCL_STG p n)
        else 0) := by
  simp [State.copyEntries, List.range_succ]

theorem State.copyEntries_eq_withRegs (s : State) (p n : Nat) :
    s.copyEntries p n = s.withRegs (s.copyEntries p n).regs := by
  induction n with
  | zero => rfl
  | succ n ih =>
    rw [State.copyEntries_succ, ih]
    rfl

/-- No register below the operating lists changes. -/
theorem State.copyEntries_rd_low (s : State) (p n : Nat) {r : Nat} (h : r < 0x14300000) :
    (s.copyEntries p n).rd r = s.rd r := by
  induction n with
  | zero => rfl
  | succ n ih => rw [State.copyEntries_succ, State.rd_wr_ne _ _ (by simp only [R.SCH_GCL_OPER]; omega), ih]

theorem State.copyEntries_rd (s : State) {p : Nat} (hp : p < 16) {n : Nat} (hn : n ≤ 1024) :
    ∀ e, e < n → (s.copyEntries p n).rd (R.SCH_GCL_OPER p e) =
      if e < s.get (F.SCH_GCL_LEN_STG_LEN p) then s.rd (R.SCH_GCL_STG p e) else 0 := by
  induction n with
  | zero => exact fun e he => absurd he (Nat.not_lt_zero e)
  | succ n ih =>
    intro e he
    rw [State.copyEntries_succ]
    by_cases hlast : e = n
    · subst hlast
      rw [State.rd_wr_same, State.get, State.copyEntries_rd_low _ _ _ (by simp only [R.SCH_GCL_LEN_STG]; omega),
        State.copyEntries_rd_low _ _ _ (by simp only [R.SCH_GCL_STG]; omega), State.get]
    · rw [State.rd_wr_ne _ _ (by simp only [R.SCH_GCL_OPER]; omega), ih (by omega) e (by omega)]

/-! A commit applied: `PENDING` is clear, `GEN` has counted it, and no other register changes (R24). -/

theorem State.commitApplied_get_pending (s : State) {c g : Nat} (h : c ≠ g) :
    (s.commitApplied ⟨c, 2, 2⟩ ⟨g, 31, 0⟩).get ⟨c, 2, 2⟩ = 0 := by
  rw [State.commitApplied, State.wrapBy, State.get_set_ne _ _ h, State.get_set_same _ _ (by simp) (by simp),
    Nat.zero_mod]

theorem State.commitApplied_get_gen (s : State) {c g : Nat} (h : g ≠ c) :
    (s.commitApplied ⟨c, 2, 2⟩ ⟨g, 31, 0⟩).get ⟨g, 31, 0⟩ = (s.get ⟨g, 31, 0⟩ + 1) % 2 ^ 32 := by
  rw [State.commitApplied, State.wrapBy, State.get_set_same _ _ (by simp) (by simp), State.get_set_ne _ _ h]
  rfl

theorem State.commitApplied_sameRegs (s : State) (f g : Fld) : s.sameRegs (s.commitApplied f g) [f.off, g.off] := by
  intro r hr
  simp only [List.mem_cons, List.not_mem_nil, or_false, not_or] at hr
  rw [State.commitApplied, State.wrapBy, State.rd_set_ne _ _ hr.2, State.rd_set_ne _ _ hr.1]

/-- The staged entries and their number are the operating ones. -/
def State.entriesTaken (s : State) (p : Nat) : State :=
  (s.copyEntries p 1024).set (F.SCH_GCL_STATUS_OPER_LEN p) (s.get (F.SCH_GCL_LEN_STG_LEN p))

/-- The staged list is the operating one from `start` on, and its commit is counted. -/
def State.gclTaken (s : State) (p start : Nat) : State :=
  ((s.entriesTaken p).setGcl p
    ⟨start / 2 ^ 28, s.get (F.SCH_GCL_CYCLE_STG_NS p) * 2 ^ 16 + s.get (F.SCH_GCL_CYCLE_STG_FRAC p), start, false, none,
      0⟩).commitApplied (F.SCH_GCL_COMMIT_PENDING p) (F.SCH_GCL_GEN_GEN p)

theorem State.gclApply_eq (s : State) (p start : Nat) : s.gclApply p start = (s.gclTaken p start).gclPlace p := rfl

theorem State.entriesTaken_operLen (s : State) (p : Nat) :
    (s.entriesTaken p).get (F.SCH_GCL_STATUS_OPER_LEN p) = s.get (F.SCH_GCL_LEN_STG_LEN p) := by
  rw [State.entriesTaken, State.get_set_same _ _ (by simp) (by simp)]
  exact Nat.mod_eq_of_lt (bitsAt_lt ..)

theorem State.gclTaken_rd (s : State) {p : Nat} (start : Nat) {r : Nat} (hc : r ≠ R.SCH_GCL_COMMIT p)
    (hg : r ≠ R.SCH_GCL_GEN p) : (s.gclTaken p start).rd r = (s.entriesTaken p).rd r := by
  rw [State.gclTaken, State.commitApplied_sameRegs _ _ _ r (by simpa using ⟨hc, hg⟩), State.setGcl_rd]

/-- The registers of a port's list after it has been taken, its port one of the sixteen. -/
theorem State.gclTaken_regs (s : State) {p : Nat} (hp : p < 16) (start : Nat) :
    (∀ e, e < 1024 → (s.gclTaken p start).rd (R.SCH_GCL_OPER p e) =
      if e < s.get (F.SCH_GCL_LEN_STG_LEN p) then s.rd (R.SCH_GCL_STG p e) else 0) ∧
    (s.gclTaken p start).get (F.SCH_GCL_STATUS_OPER_LEN p) = s.get (F.SCH_GCL_LEN_STG_LEN p) ∧
    (s.gclTaken p start).get (F.SCH_GCL_COMMIT_PENDING p) = 0 ∧
    (s.gclTaken p start).get (F.SCH_GCL_GEN_GEN p) = (s.get (F.SCH_GCL_GEN_GEN p) + 1) % 2 ^ 32 := by
  have hlow : ∀ f : Fld, f.off < 0x14300000 → f.off ≠ R.SCH_GCL_STATUS p →
      (s.entriesTaken p).get f = s.get f := fun f hf hne => by
    rw [State.entriesTaken, State.get_set_ne _ _ hne, State.get, State.copyEntries_rd_low _ _ _ hf, State.get]
  refine ⟨fun e he => ?_, ?_, ?_, ?_⟩
  · rw [State.gclTaken_rd _ _ (by simp only [R.SCH_GCL_OPER, R.SCH_GCL_COMMIT]; omega)
      (by simp only [R.SCH_GCL_OPER, R.SCH_GCL_GEN]; omega), State.entriesTaken,
      State.rd_set_ne _ _ (by simp only [R.SCH_GCL_OPER, R.SCH_GCL_STATUS]; omega),
      State.copyEntries_rd s hp (Nat.le_refl _) e he]
  · rw [State.get, State.gclTaken_rd _ _ (by simp) (by simp)]
    exact s.entriesTaken_operLen p
  · exact State.commitApplied_get_pending _ (by simp)
  · rw [State.gclTaken, State.commitApplied_get_gen _ (by simp), State.setGcl_get,
      hlow _ (by simp only [R.SCH_GCL_GEN]; omega) (by simp)]

theorem State.gclTaken_sch (s : State) (p start : Nat) : (s.gclTaken p start).sch = { s.sch with
    gcl := spSet gclReset s.sch.gcl p ⟨start / 2 ^ 28,
      s.get (F.SCH_GCL_CYCLE_STG_NS p) * 2 ^ 16 + s.get (F.SCH_GCL_CYCLE_STG_FRAC p), start, false, none, 0⟩ } := by
  rw [State.gclTaken, State.commitApplied_sch, State.setGcl, State.withSch_sch, State.entriesTaken, State.set_sch,
    State.copyEntries_eq_withRegs, State.withRegs_sch]

theorem State.sameBut.gclTaken {s a : State} {l : List Part} (h : s.sameBut a l) (p start : Nat)
    (hl : [.regs, .sch] ⊆ l := by decide) : s.sameBut (a.gclTaken p start) l := by
  rw [State.gclTaken, State.entriesTaken, State.copyEntries_eq_withRegs]
  exact ((h.withRegs _ (hl (by simp))).withRegs _ (hl (by simp))).withSch _ (hl (by simp)) |>.withRegs _ (hl (by simp))
    |>.withRegs _ (hl (by simp))

theorem exec_gclChange {s : State} {p c : Nat} (hc : (s.gcl p).change = some c) (hnow : c ≤ s.portNow p) :
    exec (.gclChange p) s = .next ((s.cbsSync p).gclApply p c) := by
  show execGclChange p s = _
  rw [execGclChange, hc]
  exact if_pos hnow

/-! ### The clauses of O34 -/

/-- Settles O34, clause by clause. -/
theorem gateLists : Obligations.GateLists := by
  unfold Obligations.GateLists
  refine ⟨?go, ?refused, ?change, ?entry, ?cycle⟩
  case go =>
    intro s p hp hpres htree hport hnew hok
    obtain ⟨n, hn⟩ : ∃ n, cyclesTo (s.stagedBase p) (s.stagedCycle p) (s.portNow p + 10000 * nsUnit) = n :=
      ⟨_, rfl⟩
    have ht := State.gclGo_accepted hpres htree hport hnew hok hn
    obtain ⟨hpending, hgcl, hother, hbut⟩ :=
      s.gclPending_spec p (s.stagedBase p + n * s.stagedCycle p) (t := s.gclGo p) (by rw [ht]; split <;> simp)
    have hle := le_cyclesTo (s.stagedBase p) (s.portNow p + 10000 * nsUnit) (State.gclStagedOk_cycle hok)
    have hfirst := cyclesTo_first (s.stagedBase p) (s.stagedCycle p) (s.portNow p + 10000 * nsUnit)
    rw [hn] at hle hfirst
    have hchange : (((s.gclGo p).gcl p).change.getD 0) = s.stagedBase p + n * s.stagedCycle p := by
      rw [hgcl, Option.getD_some]
    refine ⟨s.gclGo p, rfl, hpending, ⟨n, ?_, by rwa [hchange], by rwa [hchange]⟩, by rw [hgcl], by rw [hgcl],
      by rw [hgcl], hother, hbut⟩
    rw [hgcl, State.stagedBase, State.stagedCycle]
  case refused =>
    intro s p hp hpres htree hport hnew hbad
    have arm : exec (.schGclCommitGo p) s = .next (s.fault uSch 0x03 2 (p * 2 ^ 32)) :=
      congrArg Host.Outcome.next (State.gclGo_refused hpres htree hport hnew hbad)
    refine ⟨_, arm, State.fault_sets_hasError _ _ _ _ (by decide), ?_, .fault (.refl ..) ..⟩
    rw [State.schFault_get _ _ _ _ (by simp only [R.SCH_GCL_COMMIT]; omega), hnew]
  case change =>
    intro s p c hp hc hnow
    have hu := NodesOnly.cbsSync s p
    obtain ⟨hentries, hlen, hpending, hgen⟩ := (s.cbsSync p).gclTaken_regs hp c
    obtain ⟨-, hcycle, hchange, hother, hplen, hregs⟩ := ((s.cbsSync p).gclTaken p c).gclPlace_spec p
    have hgcl : ((s.cbsSync p).gclTaken p c).gcl p = ⟨c / 2 ^ 28,
        s.get (F.SCH_GCL_CYCLE_STG_NS p) * 2 ^ 16 + s.get (F.SCH_GCL_CYCLE_STG_FRAC p), c, false, none, 0⟩ := by
      rw [State.gcl, State.gclTaken_sch, spGet_set_same, hu.get, hu.get]
    have hkept : ∀ f : Fld, f.off ≠ R.SCH_PORT_STATUS p → f.off ≠ R.SCH_GCL_STATUS p →
        ((s.cbsSync p).gclApply p c).get f = ((s.cbsSync p).gclTaken p c).get f := fun f h1 h2 => by
      rw [State.gclApply_eq, State.get, hregs _ (by simpa using ⟨h1, h2⟩), State.get]
    refine ⟨_, exec_gclChange hc hnow, fun e he => ?_, ?_, ?_, ?_, ?_, ?_, fun q hq => ?_, ?_⟩
    · have hplaced : R.SCH_GCL_OPER p e ∉ [R.SCH_PORT_STATUS p, R.SCH_GCL_STATUS p] := by
        simp only [R.SCH_GCL_OPER, R.SCH_PORT_STATUS, R.SCH_GCL_STATUS, List.mem_cons, List.not_mem_nil, or_false]
        omega
      rw [State.gclApply_eq, hregs _ hplaced, hentries e he, hu.get, hu.rd]
    · rw [State.gclApply_eq, hplen, hlen, hu.get]
    · rw [hkept _ (by simp) (by simp), hpending]
    · rw [hkept _ (by simp) (by simp), hgen, hu.get]
    · rw [State.gclApply_eq, hchange, hgcl]
    · rw [State.gclApply_eq, hcycle, hgcl]
    · rw [State.gclApply_eq, hother q hq, State.gcl, State.gclTaken_sch, spGet_set_ne _ _ _ hq]
      exact hu.gcl q
    · rw [State.gclApply_eq]
      exact ((hu.sameBut (.refl ..)).gclTaken p c).gclPlace p
  case entry =>
    rintro s p k g hp rfl hchange hheld hcyc hlen hstart hle hlt
    have hfound : s.cycleStart p = (s.gcl p).start := State.cycleStart_of_within hstart hle hlt
    obtain ⟨hgcl, hgates, hentry, hregs, hbut⟩ := State.gatesNow_running hlen hcyc hchange fun _ => hheld
    rw [hfound] at hgcl hgates hentry
    refine ⟨_, exec_gateEntryChange (by rw [hgcl]), hgates, hentry, ?_, hregs, hbut⟩
    rw [hgcl, ← hheld]
  case cycle =>
    rintro s p g hp rfl hchange hcyc hlen hbase hnext
    have hlater : (s.gcl p).start < s.cycleStart p := State.lt_cycleStart hcyc hbase hnext
    obtain ⟨hgcl, hgates, -, hregs, hbut⟩ := State.gatesNow_running hlen hcyc hchange fun h => absurd h hlater.ne'
    refine ⟨_, exec_gclCycleStart (by rw [hgcl]; exact hlater.ne'), ?_, by rw [hgcl], by rw [hgcl], by rw [hgcl], ?_,
      hregs, hbut⟩
    · rw [hgcl]
      exact State.cycleStart_eq (by omega)
    · rw [hgates, hgcl]

end Sys2Proof.Machine
end

section
/-! SUPPORT. Frames that leave a port's queues and transmission, the links of the Ethernet ports, and O13. -/

namespace Sys2Proof.Machine

set_option Elab.async false

/-! ### Nodes after a frame has ended or left its queue (R230, R235) -/

theorem NodesOnly.ite {s a b : State} {c : Prop} [Decidable c] (ha : NodesOnly s a) (hb : NodesOnly s b) :
    NodesOnly s (if c then a else b) := by
  split
  · exact ha
  · exact hb

theorem NodesOnly.loseDeficits (s : State) (p l : Nat) : NodesOnly s (s.loseDeficits p l) := by
  unfold State.loseDeficits
  extract_lets _ s1 _ s2 c
  have h1 : NodesOnly s s1 := .ite (.setNode ..) (.refl s)
  have h2 : NodesOnly s1 s2 := .ite (.refl s1) (.setNode ..)
  exact (h1.trans h2).trans (.ite (.refl s2) (.setNode ..))

theorem NodesOnly.cbsEnd (s : State) (p c : Nat) (x : Int) : NodesOnly s (s.cbsEnd p c x) := by
  unfold State.cbsEnd
  dsimp only
  split <;> rfl

theorem NodesOnly.cbsCut (s : State) (p c : Nat) : NodesOnly s (s.cbsCut p c) := cbsEnd s p c 0

theorem NodesOnly.cbsSent (s : State) (p c : Nat) (x : TxFrame) : NodesOnly s (s.cbsSent p c x) := cbsEnd s p c _

/-! ### The end of a transmission (R89) -/

@[simp] theorem State.setTx_txOf (s : State) (p : Nat) (x : Option TxFrame) : (s.setTx p x).txOf p = x :=
  spGet_set_same ..

/-- The PFC frames that wait for the end of a port's frame. -/
def State.pfcWaiting (s : State) (p : Nat) : List Output :=
  (s.eth.pfcWait.filter fun x => x.1 == p).map fun x => .pfc x.1 x.2.1 x.2.2

/-- A transmission that ends lets the PFC frames go that waited for it. -/
theorem State.endTx_eq (s : State) (p : Nat) :
    s.endTx p = ((s.setTx p none).emits (s.pfcWaiting p)).withEth
      { s.eth with pfcWait := s.eth.pfcWait.filter fun x => x.1 != p } := by
  have hnone : (spGet (fun _ => none) (s.setTx p none).sch.tx p).isSome = false := by
    rw [← State.txOf, State.setTx_txOf]
    rfl
  rw [State.endTx, State.pfcBoundary, hnone]
  rfl

theorem State.endTx_txOf (s : State) (p : Nat) : (s.endTx p).txOf p = none := by
  rw [State.endTx_eq]
  exact State.setTx_txOf ..

/-! ### What a link that goes down leaves as it was (R243, R245) -/

/-- From `s` to `t` frames of port `p` were dropped: of the registers at most the two counters of a link's loss have
changed, of the parts of the state those that hold frames, and no transmission has begun at the port. -/
structure DropsOnly (p : Nat) (s t : State) : Prop where
  only : t = { s with regs := t.regs, prm := t.prm, eth := t.eth, sch := t.sch, out := t.out }
  rd : s.sameRegs t [R.ETH_TX_ABORT p, R.SCH_PORT_FLUSH_DROP p]
  tx : s.txOf p = none → t.txOf p = none

namespace DropsOnly

variable {p : Nat}

theorem refl (s : State) : DropsOnly p s s := ⟨rfl, fun _ _ => rfl, id⟩

theorem trans {a b c : State} (h : DropsOnly p a b) (k : DropsOnly p b c) : DropsOnly p a c :=
  ⟨by rw [k.only, h.only], fun r hr => (k.rd r hr).trans (h.rd r hr), fun hn => k.tx (h.tx hn)⟩

theorem foldl {α : Type} (g : State → α → State) (l : List α) (s : State) (h : ∀ s x, DropsOnly p s (g s x)) :
    DropsOnly p s (l.foldl g s) := by
  induction l generalizing s with
  | nil => exact refl s
  | cons x l ih => exact (h s x).trans (ih _)

theorem of_nodesOnly {s t : State} (h : NodesOnly s t) : DropsOnly p s t :=
  ⟨by rw [h]; rfl, fun r _ => h.rd r, fun hn => (h.txOf p).trans hn⟩

theorem withEth (s : State) (x : EthState) : DropsOnly p s (s.withEth x) := ⟨rfl, fun _ _ => rfl, id⟩
theorem withPrm (s : State) (x : PrmState) : DropsOnly p s (s.withPrm x) := ⟨rfl, fun _ _ => rfl, id⟩
theorem setLeafQ (s : State) (l : Nat) (q : List EgFrame) : DropsOnly p s (s.setLeafQ l q) :=
  ⟨rfl, fun _ _ => rfl, id⟩

theorem count (s : State) {f : Fld} (h : f.off ∈ [R.ETH_TX_ABORT p, R.SCH_PORT_FLUSH_DROP p]) :
    DropsOnly p s (s.count f) :=
  ⟨rfl, fun _ hr => s.rd_set_ne _ fun he => hr (he ▸ h), id⟩

theorem endTx (s : State) : DropsOnly p s (s.endTx p) :=
  ⟨by rw [State.endTx_eq]; rfl, fun r _ => by rw [State.endTx_eq]; rfl, fun _ => s.endTx_txOf p⟩

theorem rxDiscard (s : State) (q : Nat) : DropsOnly p s (s.rxDiscard q) := by
  unfold State.rxDiscard
  split
  · exact withPrm s _
  · exact refl s

theorem sameBut {a s t : State} {l : List Part} (h : DropsOnly p s t) (hs : a.sameBut s l)
    (hl : [.regs, .prm, .eth, .sch, .out] ⊆ l := by decide) : a.sameBut t l := by
  rw [h.only]
  exact ((((hs.withRegs _ (hl (by simp))).withPrm _ (hl (by simp))).withEth _ (hl (by simp))).withSch _
    (hl (by simp))).withOut _ (hl (by simp))

/-- Every frame queued on the port is dropped and counted, and what still arrives of one is discarded. -/
theorem flushPort (s : State) (q : Nat) :
    DropsOnly p s (s.flushPort q fun s => s.count (F.SCH_PORT_FLUSH_DROP_COUNT p)) := by
  refine foldl _ _ _ fun s l => ?_
  have hdrop : DropsOnly p s (((List.range (s.leafQ l).length).foldl
      (fun (s : State) _ => s.count (F.SCH_PORT_FLUSH_DROP_COUNT p)) (s.setLeafQ l [])).loseDeficits q l) :=
    ((setLeafQ s l []).trans (foldl _ _ _ fun s _ => count s (by simp))).trans (of_nodesOnly (.loseDeficits ..))
  dsimp only
  split
  · exact hdrop.trans (rxDiscard ..)
  · exact hdrop

end DropsOnly

/-! ### The link of a port (R243, R245, R461) -/

/-- `UP` and `LINK` of a port, in both units that show them. -/
def State.showLink (s : State) (p v : Nat) : State :=
  s.sets [(F.ETH_LINK_STATUS_UP p, v), (F.SCH_PORT_STATUS_LINK p, v)]

theorem State.showLink_up (s : State) (p : Nat) {v : Nat} (h : v < 2) :
    (s.showLink p v).get (F.ETH_LINK_STATUS_UP p) = v := by
  rw [State.showLink, State.sets_cons, State.sets_cons, State.sets_nil, State.get_set_ne _ _ (by simp),
    State.get_set_same _ _ (by simp) (by simp)]
  exact Nat.mod_eq_of_lt h

theorem State.showLink_link (s : State) (p : Nat) {v : Nat} (h : v < 2) :
    (s.showLink p v).get (F.SCH_PORT_STATUS_LINK p) = v := by
  rw [State.showLink, State.sets_cons, State.sets_cons, State.sets_nil, State.get_set_same _ _ (by simp) (by simp)]
  exact Nat.mod_eq_of_lt h

theorem State.showLink_sameRegs (s : State) (p v : Nat) :
    s.sameRegs (s.showLink p v) [R.ETH_LINK_STATUS p, R.SCH_PORT_STATUS p] :=
  s.sets_sameRegs (by simp)

/-- A frame in reception has ended as aborted. -/
def State.rxLost (s : State) (p : Nat) : State :=
  ((s.count (F.ETH_RX_ABORT_COUNT p)).setArriving p (arrivingNone 0)).pfcSettle

theorem State.rxLost_ethOnly (s : State) (p : Nat) : EthOnly (s.count (F.ETH_RX_ABORT_COUNT p)) (s.rxLost p) :=
  (State.setArriving_ethOnly ..).trans (State.pfcSettle_ethOnly _)

/-- A frame in transmission has ended incomplete. -/
def State.txLost (s : State) (plan : Plan) (p : Nat) : State :=
  match s.txOf p with
  | some x => (((if x.frame.arriving then s.rxDiscard p else s).endTx p).count (F.ETH_TX_ABORT_COUNT p)).cbsCut p
      (leafClass plan p x.leaf)
  | none => s

theorem State.txLost_drops (s : State) (plan : Plan) (p : Nat) :
    DropsOnly p s (s.txLost plan p) ∧ (s.txLost plan p).txOf p = none := by
  unfold State.txLost
  split
  · next x hx =>
    have hcut := NodesOnly.cbsCut
      (((if x.frame.arriving then s.rxDiscard p else s).endTx p).count (F.ETH_TX_ABORT_COUNT p)) p (leafClass plan p x.leaf)
    refine ⟨(DropsOnly.trans ?_ ((DropsOnly.endTx _).trans (.count _ (by simp)))).trans (.of_nodesOnly hcut), ?_⟩
    · split
      · exact .rxDiscard ..
      · exact .refl s
    · rw [hcut.txOf]
      exact State.endTx_txOf ..
  · next hx => exact ⟨.refl s, hx⟩

/-- With `FLUSH_ON_DOWN`, the queues of a port whose link is down are discarded. -/
def State.lossFlushed (s : State) (p : Nat) : State :=
  if s.get (F.SCH_PORT_CFG_FLUSH_ON_DOWN p) = 1 then
    s.flushPort p fun s => s.count (F.SCH_PORT_FLUSH_DROP_COUNT p)
  else s

theorem State.lossFlushed_drops (s : State) (p : Nat) : DropsOnly p s (s.lossFlushed p) := by
  unfold State.lossFlushed
  split
  · exact .flushPort ..
  · exact .refl s

/-- The link shows as down, and a frame in reception has ended. -/
def State.linkLost (s : State) (p : Nat) (receiving : Bool) : State :=
  if receiving then ((s.cbsSync p).showLink p 0).rxLost p else (s.cbsSync p).showLink p 0

theorem State.linkDown_eq {s : State} {p : Nat} (receiving : Bool) (hup : Machine.linkUp s p = true) :
    s.linkDown p receiving = (((s.linkLost p receiving).txLost s.plan p).setMeasuring
      (((s.linkLost p receiving).txLost s.plan p).eth.measuring.erase p)).lossFlushed p := by
  rw [State.linkDown, if_neg (by simp [hup])]
  rfl

/-- After `linkLost` only frames are dropped. -/
theorem State.linkDown_drops {s : State} {p : Nat} (receiving : Bool) (hup : Machine.linkUp s p = true) :
    DropsOnly p (s.linkLost p receiving) (s.linkDown p receiving) ∧ (s.linkDown p receiving).txOf p = none := by
  obtain ⟨hdrop, hnone⟩ := (s.linkLost p receiving).txLost_drops s.plan p
  rw [State.linkDown_eq receiving hup]
  have hrest : DropsOnly p ((s.linkLost p receiving).txLost s.plan p) ((((s.linkLost p receiving).txLost s.plan
      p).setMeasuring (((s.linkLost p receiving).txLost s.plan p).eth.measuring.erase p)).lossFlushed p) :=
    (DropsOnly.withEth ..).trans (State.lossFlushed_drops ..)
  exact ⟨hdrop.trans hrest, hrest.tx hnone⟩

/-- The link of a port shows as down, and a frame in reception is counted. -/
theorem State.linkLost_spec (s : State) (p : Nat) (receiving : Bool) :
    (s.linkLost p receiving).get (F.ETH_LINK_STATUS_UP p) = 0 ∧
    (s.linkLost p receiving).get (F.SCH_PORT_STATUS_LINK p) = 0 ∧
    (s.linkLost p receiving).get (F.ETH_RX_ABORT_COUNT p) =
      (if receiving then min 0xFFFFFFFF (s.get (F.ETH_RX_ABORT_COUNT p) + 1) else s.get (F.ETH_RX_ABORT_COUNT p)) ∧
    s.sameRegs (s.linkLost p receiving) [R.ETH_LINK_STATUS p, R.SCH_PORT_STATUS p, R.ETH_RX_ABORT p] := by
  have hu := NodesOnly.cbsSync s p
  have hdown : s.sameRegs ((s.cbsSync p).showLink p 0) [R.ETH_LINK_STATUS p, R.SCH_PORT_STATUS p] := fun r hr =>
    (State.showLink_sameRegs _ p 0 r hr).trans (hu.rd r)
  have habort : ((s.cbsSync p).showLink p 0).get (F.ETH_RX_ABORT_COUNT p) = s.get (F.ETH_RX_ABORT_COUNT p) := by
    rw [State.get, hdown _ (by simp), State.get]
  unfold State.linkLost
  cases receiving with
  | false =>
    refine ⟨State.showLink_up _ p (by decide), State.showLink_link _ p (by decide), habort, fun r hr => ?_⟩
    exact hdown r (by simp at hr ⊢; tauto)
  | true =>
    have hr := State.rxLost_ethOnly ((s.cbsSync p).showLink p 0) p
    have hcount : ∀ r, r ≠ R.ETH_RX_ABORT p →
        (((s.cbsSync p).showLink p 0).rxLost p).rd r = ((s.cbsSync p).showLink p 0).rd r := fun r hne => by
      rw [State.rd_congr hr.regs, State.count, State.rd_set_ne _ _ hne]
    refine ⟨?_, ?_, ?_, fun r hn => ?_⟩
    · rw [if_pos rfl, State.get, hcount _ (by simp)]
      exact State.showLink_up _ p (by decide)
    · rw [if_pos rfl, State.get, hcount _ (by simp)]
      exact State.showLink_link _ p (by decide)
    · rw [if_pos rfl, hr.get, State.get_count_same, habort]
      rfl
    · simp only [List.mem_cons, List.not_mem_nil, or_false, not_or] at hn
      obtain ⟨hls, hps, hra⟩ := hn
      rw [if_pos rfl, hcount r hra, hdown r (by simp [hls, hps])]

theorem State.sameBut.linkLost {s a : State} {l : List Part} (h : s.sameBut a l) (p : Nat) (receiving : Bool)
    (hl : [.regs, .eth, .sch, .out] ⊆ l := by decide) : s.sameBut (a.linkLost p receiving) l := by
  have hdown : s.sameBut ((a.cbsSync p).showLink p 0) l :=
    ((NodesOnly.cbsSync a p).sameBut h (hl (by simp))).sets _ (hl (by simp))
  unfold State.linkLost
  split
  · rw [State.rxLost_ethOnly]
    exact ((hdown.withRegs _ (hl (by simp))).withEth _ (hl (by simp))).withOut _ (hl (by simp))
  · exact hdown

/-! ### Links that come up (R245, R461) -/

/-- The latencies of the first `n` lanes of a port are written. -/
def State.calibrated (s : State) (p : Nat) (latencies : List (Nat × Nat)) (n : Nat) : State :=
  (List.range n).foldl (fun (s : State) i =>
    let x := latencies.getD i (0, 0)
    s.sets [(F.TB_LANE_CAL_RX_LAT (p + i), x.1), (F.TB_LANE_CAL_TX_LAT (p + i), x.2)]) s

theorem State.calibrated_succ (s : State) (p : Nat) (latencies : List (Nat × Nat)) (n : Nat) :
    s.calibrated p latencies (n + 1) = (s.calibrated p latencies n).sets
      [(F.TB_LANE_CAL_RX_LAT (p + n), (latencies.getD n (0, 0)).1),
       (F.TB_LANE_CAL_TX_LAT (p + n), (latencies.getD n (0, 0)).2)] := by
  simp [State.calibrated, List.range_succ]

theorem State.calibrated_eq_withRegs (s : State) (p : Nat) (latencies : List (Nat × Nat)) (n : Nat) :
    s.calibrated p latencies n = s.withRegs (s.calibrated p latencies n).regs := by
  induction n with
  | zero => rfl
  | succ n ih =>
    rw [State.calibrated_succ, ih, State.sets_eq_withRegs]
    rfl

theorem State.calibrated_rd_ne (s : State) (p : Nat) (latencies : List (Nat × Nat)) {n r : Nat}
    (h : ∀ i, i < n → r ≠ R.TB_LANE_CAL (p + i)) : (s.calibrated p latencies n).rd r = s.rd r := by
  induction n with
  | zero => rfl
  | succ n ih =>
    have hn : r ≠ R.TB_LANE_CAL (p + n) := h n (Nat.lt_succ_self n)
    rw [State.calibrated_succ, State.rd_sets_ne _ (by simpa using hn), ih fun i hi => h i (by omega)]

theorem State.calibrated_latencies (s : State) (p : Nat) (latencies : List (Nat × Nat)) {n i : Nat} (hi : i < n) :
    (s.calibrated p latencies n).get (F.TB_LANE_CAL_RX_LAT (p + i)) = (latencies.getD i (0, 0)).1 % 2 ^ 32 ∧
    (s.calibrated p latencies n).get (F.TB_LANE_CAL_TX_LAT (p + i)) = (latencies.getD i (0, 0)).2 % 2 ^ 32 := by
  induction n with
  | zero => exact absurd hi (Nat.not_lt_zero i)
  | succ n ih =>
    rw [State.calibrated_succ, State.sets_cons, State.sets_cons, State.sets_nil]
    by_cases hlast : i = n
    · subst hlast
      rw [State.get_set_other _ _ (by simp) (by simp) (by simp), State.get_set_same _ _ (by simp) (by simp),
        State.get_set_same _ _ (by simp) (by simp)]
      exact ⟨rfl, rfl⟩
    · rw [State.get_set_ne _ _ (by simpa using hlast), State.get_set_ne _ _ (by simpa using hlast),
        State.get_set_ne _ _ (by simpa using hlast), State.get_set_ne _ _ (by simpa using hlast)]
      exact ih (by omega)

/-- The end of the measurement brings the link up. -/
theorem exec_laneCalibrationComplete {s : State} {p : Nat} (latencies : List (Nat × Nat))
    (hm : s.eth.measuring.contains p = true) (hen : s.get (F.ETH_LINK_CTRL_EN p) = 1) :
    exec (.laneCalibrationComplete p latencies) s =
      .next (((s.calibrated p latencies (portLanes s.plan p)).setMeasuring
        ((s.calibrated p latencies (portLanes s.plan p)).eth.measuring.erase p)).showLink p 1) := by
  show execLaneCalibrationComplete p latencies s = _
  rw [execLaneCalibrationComplete, if_neg (by simpa [hen] using hm)]
  rfl

theorem State.linkStart_cases (s : State) (p : Nat) :
    s.linkStart p = s.set (F.ETH_LINK_STATUS_TRAINING p) 1 ∨ s.linkStart p = s := by
  unfold State.linkStart
  split
  · exact .inl rfl
  · exact .inr rfl

/-- Training that begins shows in `TRAINING` and nowhere else. -/
theorem State.linkStart_spec (s : State) (p : Nat) :
    (s.linkStart p).get (F.ETH_LINK_STATUS_UP p) = s.get (F.ETH_LINK_STATUS_UP p) ∧
    s.sameRegs (s.linkStart p) [R.ETH_LINK_STATUS p] ∧ s.linkStart p = s.withRegs (s.linkStart p).regs := by
  obtain h | h := s.linkStart_cases p
  · rw [h]
    exact ⟨State.get_set_other _ _ (by simp) (by simp) (by simp), s.wr_sameRegs _ _, rfl⟩
  · rw [h]
    exact ⟨rfl, fun _ _ => rfl, rfl⟩

/-! ### The clauses of O13 -/

/-- Settles O13, clause by clause. -/
theorem ethernetLinks : Obligations.EthernetLinks := by
  unfold Obligations.EthernetLinks
  refine ⟨?trained, ?aligned, ?measured, ?lost⟩
  case trained =>
    intro s p htrain
    have arm : exec (.linkTrainingComplete p) s =
        .next ((s.set (F.ETH_LINK_STATUS_TRAINING p) 0).setMeasuring (p :: s.eth.measuring.erase p)) := by
      show execLinkTrainingComplete p s = _
      rw [execLinkTrainingComplete, if_neg htrain]
    exact ⟨_, arm, s.get_set_same 0 (by simp) (by simp), rfl, s.wr_sameRegs _ _, .withEth (.withRegs (.refl ..) _) _⟩
  case aligned =>
    intro s p hpres htake hamend hen hdown htrains
    have arm : exec (.laneLockAlignment p) s = .next (s.setMeasuring (p :: s.eth.measuring.erase p)) := by
      show execLaneLockAlignment p s = _
      rw [execLaneLockAlignment, if_pos (by simp [hpres, htake, hamend, hen, hdown, htrains])]
    exact ⟨_, arm, rfl, .withEth (.refl ..) _⟩
  case measured =>
    intro s p latencies hp hm hen
    have hlane : ∀ i, R.TB_LANE_CAL (p + i) ≠ R.ETH_LINK_STATUS p ∧ R.TB_LANE_CAL (p + i) ≠ R.SCH_PORT_STATUS p :=
      fun i => by simp only [R.TB_LANE_CAL, R.ETH_LINK_STATUS, R.SCH_PORT_STATUS]; omega
    have hcal := s.calibrated_eq_withRegs p latencies (portLanes s.plan p)
    refine ⟨_, exec_laneCalibrationComplete latencies hm hen, ?_, State.showLink_link _ p (by decide), fun i hi => ?_,
      ?_, fun r hls hps hl => ?_, ?_⟩
    · rw [linkUp, State.showLink_up _ p (by decide)]
      rfl
    · rw [State.get, State.get, State.showLink_sameRegs _ p 1 _ (by simpa using hlane i)]
      exact s.calibrated_latencies p latencies hi
    · rw [State.showLink, State.sets_eth, State.setMeasuring, State.withEth_eth, hcal]
      rfl
    · rw [State.showLink_sameRegs _ p 1 r (by simp [hls, hps]), State.setMeasuring, State.withEth_rd,
        s.calibrated_rd_ne p latencies hl]
    · rw [hcal]
      exact ((State.sameBut.withRegs (.refl ..) _).withEth _).sets _
  case lost =>
    intro s p receiving hp hup
    have arm : exec (.linkLoss p receiving) s =
        .next (((s.setMeasuring (s.eth.measuring.erase p)).linkDown p receiving).linkStart p) := by
      show execLinkLoss p receiving s = _
      rw [execLinkLoss, if_pos (.inl hup)]
    obtain ⟨hupLow, hlink, habort, hregs⟩ := (s.setMeasuring (s.eth.measuring.erase p)).linkLost_spec p receiving
    obtain ⟨hdrop, hnone⟩ := State.linkDown_drops (s := s.setMeasuring (s.eth.measuring.erase p)) (p := p) receiving hup
    obtain ⟨hstart, hsregs, honly⟩ := ((s.setMeasuring (s.eth.measuring.erase p)).linkDown p receiving).linkStart_spec p
    have hkept : ∀ f : Fld, f.off ∉ [R.ETH_LINK_STATUS p, R.ETH_TX_ABORT p, R.SCH_PORT_FLUSH_DROP p] →
        (((s.setMeasuring (s.eth.measuring.erase p)).linkDown p receiving).linkStart p).get f =
          ((s.setMeasuring (s.eth.measuring.erase p)).linkLost p receiving).get f := fun f hf => by
      simp only [List.mem_cons, List.not_mem_nil, or_false, not_or] at hf
      obtain ⟨hls, hta, hfd⟩ := hf
      rw [State.get, hsregs _ (by simpa using hls), hdrop.rd _ (by simp [hta, hfd]), State.get]
    refine ⟨_, arm, ?_, ?_, fun hrec => ?_, fun hrec => ?_, ?_, fun r hr => ?_, ?_⟩
    · rw [linkUp, hstart, State.get, hdrop.rd _ (by simp), ← State.get, hupLow]
      rfl
    · rw [hkept _ (by simp), hlink]
    · rw [hkept _ (by simp), habort, if_pos hrec]
      rfl
    · rw [hkept _ (by simp), habort, if_neg (by simp [hrec])]
      rfl
    · rw [honly]
      exact hnone
    · simp only [List.mem_cons, List.not_mem_nil, or_false, not_or] at hr
      obtain ⟨hls, hps, hra, hta, hfd⟩ := hr
      rw [hsregs r (by simpa using hls), hdrop.rd r (by simp [hta, hfd]), hregs r (by simp [hls, hps, hra])]
      rfl
    · rw [honly]
      exact (hdrop.sameBut ((State.sameBut.withEth (.refl ..) _).linkLost p receiving)).withRegs _

end Sys2Proof.Machine
end

section
/-! SUPPORT. Shapers and the node commit of the scheduler, for O33. -/

namespace Sys2Proof.Machine

set_option Elab.async false

/-! ### Nodes after an update (R231, R234) -/

@[simp] theorem State.setNode_node_same (s : State) (k : Nat) (n : SchNode) : (s.setNode k n).node k = n :=
  spGet_set_same ..

theorem State.setNode_node_ne (s : State) {k j : Nat} (n : SchNode) (h : j ≠ k) : (s.setNode k n).node j = s.node j :=
  spGet_set_ne _ _ _ h

theorem State.node_congr {s t : State} (h : t.sch = s.sch) (k : Nat) : t.node k = s.node k := by
  rw [State.node, h, State.node]

/-- A refill changes credit, remainder and instant: the settings stay. -/
theorem refilled_settings (n : SchNode) (m inst : Nat) :
    (refilled n m inst).rate = n.rate ∧ (refilled n m inst).burst = n.burst ∧ (refilled n m inst).cfg = n.cfg ∧
    (refilled n m inst).cbs = n.cbs := by
  unfold refilled
  dsimp only
  split <;> exact ⟨rfl, rfl, rfl, rfl⟩

/-- A refill of an unshaped node notes its instant only. -/
theorem refilled_unshaped {n : SchNode} (m inst : Nat) (h : n.rate = 0) :
    refilled n m inst = { n with last := inst } := by
  rw [refilled, if_pos h]

theorem refilled_shaped {n : SchNode} (m inst : Nat) (h : n.rate ≠ 0) :
    refilled n m inst = { n with
      credit := min ((n.burst : Int) * 2 ^ 32)
        (n.credit + (((m * (n.rate * 2 ^ nRefill n * 2 ^ 32) + n.rem) / 1000000000 : Nat) : Int)),
      rem := (m * (n.rate * 2 ^ nRefill n * 2 ^ 32) + n.rem) % 1000000000, last := inst } := by
  rw [refilled, if_neg h]

/-- The last of a node's refill instants up to now is the last multiple of its interval. -/
theorem State.refillDue_last {s : State} {n : SchNode} (h : (s.refillDue n).1 ≠ 0) :
    (s.refillDue n).2 (s.refillDue n).1 = s.clk.elapsed - s.tbVal 0 % nInterval n := by
  simp only [State.refillDue] at h ⊢
  rw [Nat.add_sub_cancel' (by omega), Nat.mod_eq_sub_div_mul]

/-- The refills that are due are taken, the last of them at the last multiple of the interval. -/
theorem State.refillAll_eq {s : State} {k : Nat} (h : (s.refillDue (s.node k)).1 ≠ 0) :
    s.refillAll k = s.setNode k (refilled (s.node k) (s.refillDue (s.node k)).1
      ((s.refillDue (s.node k)).2 (s.refillDue (s.node k)).1)) := by
  rw [State.refillAll]
  exact if_neg h

/-- No node but the one named changes, and nothing but nodes. -/
theorem State.refillAll_spec (s : State) (k : Nat) :
    NodesOnly s (s.refillAll k) ∧ (∀ j, j ≠ k → (s.refillAll k).node j = s.node j) ∧
    ((s.refillAll k).node k = s.node k ∨ ∃ m inst, (s.refillAll k).node k = refilled (s.node k) m inst) := by
  unfold State.refillAll
  dsimp only
  split
  · exact ⟨.refl s, fun _ _ => rfl, .inl rfl⟩
  · exact ⟨.setNode .., fun j hj => s.setNode_node_ne _ hj, .inr ⟨_, _, s.setNode_node_same k _⟩⟩

/-! ### The commit of a node (R234) -/

/-- The staged content of a node on top of its own, at the present instant. -/
def State.nodeStaged (s : State) (n : SchNode) : SchNode := { n with
  rate := s.get F.SCH_NODE_RATE_STG_RATE, burst := s.get F.SCH_NODE_BURST_STG_BURST, cfg := s.rd R.SCH_NODE_CFG_STG,
  cbs := s.rd R.SCH_NODE_CBS_STG
  credit := min n.credit ((s.get F.SCH_NODE_BURST_STG_BURST : Int) * 2 ^ 32)
  cbsCredit := if bitAt (s.rd R.SCH_NODE_CBS_STG) 63 == nCbsEn n then n.cbsCredit else 0
  cbsRem := if bitAt (s.rd R.SCH_NODE_CBS_STG) 63 == nCbsEn n then n.cbsRem else 0
  cbsAt := s.clk.elapsed }

theorem State.nodeStaged_congr {s t : State} (hr : t.regs = s.regs) (hc : t.clk = s.clk) (n : SchNode) :
    t.nodeStaged n = s.nodeStaged n := by
  simp only [State.nodeStaged, State.get_congr hr, State.rd_congr hr, hc]

theorem State.nodeApply_eq (s : State) (k : Nat) :
    s.nodeApply k =
      (s.setNode k (s.nodeStaged (s.node k))).commitApplied F.SCH_NODE_COMMIT_PENDING F.SCH_NODE_GEN_GEN :=
  rfl

theorem State.nodeApply_spec (s : State) (k : Nat) :
    (s.nodeApply k).node k = s.nodeStaged (s.node k) ∧ (∀ j, j ≠ k → (s.nodeApply k).node j = s.node j) ∧
    (s.nodeApply k).sch.due = s.sch.due ∧
    (s.nodeApply k).get F.SCH_NODE_COMMIT_PENDING = 0 ∧
    (s.nodeApply k).get F.SCH_NODE_GEN_GEN = (s.get F.SCH_NODE_GEN_GEN + 1) % 2 ^ 32 ∧
    s.sameRegs (s.nodeApply k) [R.SCH_NODE_COMMIT, R.SCH_NODE_GEN] := by
  have hsch : (s.nodeApply k).sch = (s.setNode k (s.nodeStaged (s.node k))).sch := by
    rw [State.nodeApply_eq, State.commitApplied_sch]
  refine ⟨?_, fun j hj => ?_, ?_, ?_, ?_, fun r hr => ?_⟩
  · rw [State.node_congr hsch, State.setNode_node_same]
  · rw [State.node_congr hsch, State.setNode_node_ne _ _ hj]
  · rw [hsch]
    rfl
  · exact State.commitApplied_get_pending _ (by decide)
  · exact State.commitApplied_get_gen _ (by decide)
  · exact State.commitApplied_sameRegs _ _ _ r hr

theorem State.sameBut.nodeApply {s a : State} {l : List Part} (h : s.sameBut a l) (k : Nat)
    (hl : [.regs, .sch] ⊆ l := by decide) : s.sameBut (a.nodeApply k) l := by
  rw [State.nodeApply_eq]
  exact ((h.withSch _ (hl (by simp))).withRegs _ (hl (by simp))).withRegs _ (hl (by simp))

/-! ### Refill instants (R232, R234, R247) -/

theorem nodeKey_level {level index : Nat} (h : index < 65536) : nodeKey level index / 65536 = level := by
  unfold nodeKey
  omega

/-- Only a class node has a CBS credit to bring up to date. -/
theorem State.cbsStep_of_not_class (s : State) {k : Nat} (h : k / 65536 ≠ 1) : s.cbsStep k = s := by
  rw [State.cbsStep, if_pos (.inl h)]

theorem exec_shaperRefill {s : State} {level index : Nat} (hl : level ≠ 1) (hi : index < 65536)
    (hpres : nodePresent s.plan level index = true) :
    exec (.shaperRefill level index) s = .next (s.nodeRefill (nodeKey level index)) := by
  show execShaperRefill level index s = _
  rw [execShaperRefill, if_neg (by simp [hpres]), State.cbsStep_of_not_class _ (by rwa [nodeKey_level hi])]

/-- With no commit pending for it, a node takes every refill that is due. -/
theorem State.nodeRefill_of_settled {s : State} {k : Nat} (h : s.nodeGoHere k = false) :
    s.nodeRefill k = s.refillAll k := by
  unfold State.nodeRefill
  simp [h]

/-- The refills of a node up to the first instant after the GO of its commit. -/
def State.refillToGo (s : State) (k : Nat) : State :=
  s.setNode k (refilled (s.node k) (s.refillOfGo (s.node k)) ((s.refillDue (s.node k)).2 (s.refillOfGo (s.node k))))

/-- The state in which a commit has fallen due. -/
def State.commitDue (s : State) (k : Nat) : State := (s.refillToGo k).withSch { (s.refillToGo k).sch with due := true }

/-- A pending commit whose instant has come: it falls due now, or is applied where the instant has passed. -/
theorem State.nodeRefill_of_pending {s : State} {k : Nat} (hgo : s.nodeGoHere k = true) (hdue : s.sch.due = false)
    (hcome : s.refillOfGo (s.node k) ≤ (s.refillDue (s.node k)).1) :
    s.nodeRefill k =
      if (s.refillDue (s.node k)).2 (s.refillOfGo (s.node k)) = s.clk.elapsed then s.commitDue k
      else ((s.refillToGo k).nodeApply k).refillAll k := by
  unfold State.nodeRefill
  dsimp only
  rw [if_neg (by simp [hdue]), if_pos ⟨hgo, hcome⟩]
  rfl

theorem State.nodeGoHere_of_staged {s : State} {k : Nat} (hpend : s.get F.SCH_NODE_COMMIT_PENDING = 1)
    (hsel : nodeKey (s.get F.SCH_NODE_SEL_STG_LEVEL) (s.get F.SCH_NODE_SEL_STG_INDEX) = k) : s.nodeGoHere k = true := by
  simp [State.nodeGoHere, hpend, hsel]

/-- A commit whose instant has passed is applied, and the refills since then are by the new settings. -/
theorem State.refillPast_spec (s : State) (k : Nat) :
    ∃ t, ((s.refillToGo k).nodeApply k).refillAll k = t ∧ t.sch.due = s.sch.due ∧
      (t.node k).rate = s.get F.SCH_NODE_RATE_STG_RATE ∧ (t.node k).burst = s.get F.SCH_NODE_BURST_STG_BURST ∧
      (t.node k).cfg = s.rd R.SCH_NODE_CFG_STG ∧ (t.node k).cbs = s.rd R.SCH_NODE_CBS_STG ∧
      t.get F.SCH_NODE_COMMIT_PENDING = 0 ∧
      t.get F.SCH_NODE_GEN_GEN = (s.get F.SCH_NODE_GEN_GEN + 1) % 2 ^ 32 ∧
      (∀ j, j ≠ k → t.node j = s.node j) ∧ s.sameRegs t [R.SCH_NODE_COMMIT, R.SCH_NODE_GEN] ∧
      s.sameBut t [.regs, .sch] := by
  obtain ⟨honly, hother, hnode⟩ := ((s.refillToGo k).nodeApply k).refillAll_spec k
  obtain ⟨hstaged, hneNode, hdue, hpend, hgen, hregs⟩ := (s.refillToGo k).nodeApply_spec k
  have hset : ∀ n, ((((s.refillToGo k).nodeApply k).refillAll k).node k = n) →
      n.rate = s.get F.SCH_NODE_RATE_STG_RATE ∧ n.burst = s.get F.SCH_NODE_BURST_STG_BURST ∧
      n.cfg = s.rd R.SCH_NODE_CFG_STG ∧ n.cbs = s.rd R.SCH_NODE_CBS_STG := by
    rintro n rfl
    obtain h | ⟨m, inst, h⟩ := hnode
    · rw [h, hstaged]
      exact ⟨rfl, rfl, rfl, rfl⟩
    · obtain ⟨hr, hb, hc, hcbs⟩ := refilled_settings (((s.refillToGo k).nodeApply k).node k) m inst
      rw [h, hr, hb, hc, hcbs, hstaged]
      exact ⟨rfl, rfl, rfl, rfl⟩
  obtain ⟨hr, hb, hc, hcbs⟩ := hset _ rfl
  refine ⟨_, rfl, honly.due.trans hdue, hr, hb, hc, hcbs, (honly.get _).trans hpend, (honly.get _).trans hgen,
    fun j hj => ?_, fun r hrm => (honly.rd r).trans (hregs r hrm), honly.sameBut (.nodeApply (.withSch (.refl ..) _) k)⟩
  rw [hother j hj, hneNode j hj, State.refillToGo, State.setNode_node_ne _ _ hj]

/-- Time that moves on applies the commit that has fallen due, to the node that is staged (R234, R247). -/
theorem State.nodeDue_of_due {s : State} (h : s.sch.due = true) :
    s.nodeDue = (s.withSch { s.sch with due := false }).nodeApply
      (nodeKey (s.get F.SCH_NODE_SEL_STG_LEVEL) (s.get F.SCH_NODE_SEL_STG_INDEX)) := by
  rw [State.nodeDue, if_pos h]

theorem State.commitDue_node (s : State) (k : Nat) (h : (s.node k).rate = 0) :
    (s.commitDue k).node k =
        { s.node k with last := (s.refillDue (s.node k)).2 (s.refillOfGo (s.node k)) } ∧
      ∀ j, j ≠ k → (s.commitDue k).node j = s.node j := by
  have hnode : ∀ j, (s.commitDue k).node j = (s.refillToGo k).node j := fun _ => rfl
  refine ⟨?_, fun j hj => ?_⟩
  · rw [hnode, State.refillToGo, State.setNode_node_same, refilled_unshaped _ _ h]
  · rw [hnode, State.refillToGo, State.setNode_node_ne _ _ hj]

/-- As time moves on, the commit that has fallen due is applied to the node as its last refill left it. -/
theorem State.commitDue_nodeDue {s : State} {k : Nat}
    (hsel : nodeKey (s.get F.SCH_NODE_SEL_STG_LEVEL) (s.get F.SCH_NODE_SEL_STG_INDEX) = k) :
    (s.commitDue k).nodeDue.node k = s.nodeStaged ((s.commitDue k).node k) ∧
    (∀ j, j ≠ k → (s.commitDue k).nodeDue.node j = (s.commitDue k).node j) ∧
    (s.commitDue k).nodeDue.get F.SCH_NODE_COMMIT_PENDING = 0 ∧
    (s.commitDue k).nodeDue.get F.SCH_NODE_GEN_GEN = (s.get F.SCH_NODE_GEN_GEN + 1) % 2 ^ 32 := by
  obtain ⟨w, hw⟩ : ∃ w, (s.commitDue k).withSch { (s.commitDue k).sch with due := false } = w := ⟨_, rfl⟩
  have hregs : w.regs = s.regs := by rw [← hw]; rfl
  have hclk : w.clk = s.clk := by rw [← hw]; rfl
  have hwnode : ∀ j, w.node j = (s.commitDue k).node j := fun j => by rw [← hw]; rfl
  have hdue : (s.commitDue k).nodeDue = w.nodeApply k := by
    have hget : ∀ f, (s.commitDue k).get f = s.get f := State.get_congr rfl
    rw [State.nodeDue_of_due rfl, hget, hget, hsel, hw]
  obtain ⟨hnode, hother, -, hpend, hgen, -⟩ := w.nodeApply_spec k
  rw [hdue]
  refine ⟨?_, fun j hj => (hother j hj).trans (hwnode j), hpend, ?_⟩
  · rw [hnode, hwnode, State.nodeStaged_congr hregs hclk]
  · rw [hgen, State.get_congr hregs]

theorem exec_schNodeCommitGo {s : State}
    (hpres : nodePresent s.plan (s.get F.SCH_NODE_SEL_STG_LEVEL) (s.get F.SCH_NODE_SEL_STG_INDEX) = true)
    (hheld : s.egressHeld (nodePort s.plan (s.get F.SCH_NODE_SEL_STG_LEVEL) (s.get F.SCH_NODE_SEL_STG_INDEX)) = false)
    (hnew : s.get F.SCH_NODE_COMMIT_PENDING = 0)
    (hok : s.cbsStagedOk (s.get F.SCH_NODE_SEL_STG_LEVEL) (s.get F.SCH_NODE_SEL_STG_INDEX) = true) :
    exec .schNodeCommitGo s =
      .next ((s.commitGo F.SCH_NODE_COMMIT_PENDING).withSch { s.sch with goAt := s.clk.elapsed }) := by
  show Host.Outcome.next s.schNodeGo = _
  rw [State.schNodeGo, if_neg (by simp [hpres]), if_neg (by simp [hheld]), if_neg (by simp [hnew]),
    if_neg (by simp [hok])]

end Sys2Proof.Machine
end

section
/-! SUPPORT. The egress queues, the selection and the transmission of frames, and O33. -/

namespace Sys2Proof.Machine

set_option Elab.async false

/-! ### Leaf queues -/

@[simp] theorem State.setLeafQ_leafQ_same (s : State) (l : Nat) (q : List EgFrame) : (s.setLeafQ l q).leafQ l = q :=
  spGet_set_same ..

theorem State.setLeafQ_leafQ_ne (s : State) {l k : Nat} (q : List EgFrame) (h : k ≠ l) :
    (s.setLeafQ l q).leafQ k = s.leafQ k :=
  spGet_set_ne _ _ _ h

theorem State.leafQ_congr {s t : State} (h : t.sch = s.sch) (l : Nat) : t.leafQ l = s.leafQ l := by
  rw [State.leafQ, h, State.leafQ]

theorem State.txOf_congr {s t : State} (h : t.sch = s.sch) (p : Nat) : t.txOf p = s.txOf p := by
  rw [State.txOf, h, State.txOf]

theorem State.endTx_leafQ (s : State) (p l : Nat) : (s.endTx p).leafQ l = s.leafQ l := by
  rw [State.endTx_eq]
  rfl

/-- The frame at the head of a leaf has gone, and no other leaf's. -/
theorem State.popLeaf_leafQ (s : State) (p l : Nat) :
    (s.popLeaf p l).leafQ l = (s.leafQ l).tail ∧ ∀ k, k ≠ l → (s.popLeaf p l).leafQ k = s.leafQ k := by
  have h := NodesOnly.loseDeficits (s.setLeafQ l (s.leafQ l).tail) p l
  exact ⟨(h.leafQ l).trans (s.setLeafQ_leafQ_same l _), fun k hk => (h.leafQ k).trans (s.setLeafQ_leafQ_ne _ hk)⟩

/-! ### A packet that reaches its port (R226, R239, R241) -/

/-- The packet at the head of a port's inbox is taken from it. -/
def State.headTaken (s : State) (p : Nat) (rest : List Packet) : State :=
  (s.cbsSync p).setInbox (0x1B0 + p) rest

theorem exec_schEnqueue {s : State} {p : Nat} {m : Packet} {rest : List Packet}
    (h : s.inboxOf (0x1B0 + p) = m :: rest) :
    exec (.schEnqueue p) s = .next ((s.headTaken p rest).enqueue p m false) := by
  show execSchEnqueue p s = _
  rw [execSchEnqueue, h]
  rfl

theorem State.headTaken_inboxOf (s : State) (p : Nat) (rest : List Packet) :
    (s.headTaken p rest).inboxOf (0x1B0 + p) = rest :=
  spGet_set_same ..

theorem State.headTaken_eq (s : State) (p : Nat) (rest : List Packet) :
    s.headTaken p rest = (s.withSch { s.sch with
      nodes := (s.cbsSync p).sch.nodes, turn := (s.cbsSync p).sch.turn }).withPrm (s.headTaken p rest).prm := by
  have h : s.cbsSync p = s.withSch { s.sch with
    nodes := (s.cbsSync p).sch.nodes, turn := (s.cbsSync p).sch.turn } := NodesOnly.cbsSync s p
  rw [← h]
  rfl

theorem State.headTaken_leafQ (s : State) (p : Nat) (rest : List Packet) (l : Nat) :
    (s.headTaken p rest).leafQ l = s.leafQ l :=
  (NodesOnly.cbsSync s p).leafQ l

theorem State.headTaken_get (s : State) (p : Nat) (rest : List Packet) (f : Fld) :
    (s.headTaken p rest).get f = s.get f :=
  (NodesOnly.cbsSync s p).get f

theorem State.headTaken_plan (s : State) (p : Nat) (rest : List Packet) : (s.headTaken p rest).plan = s.plan :=
  (NodesOnly.cbsSync s p).plan

theorem State.headTaken_egressHeld (s : State) (p : Nat) (rest : List Packet) (q : Nat) :
    (s.headTaken p rest).egressHeld q = s.egressHeld q := by
  rw [State.headTaken_eq]
  rfl

theorem State.headTaken_schBytes (s : State) (p : Nat) (rest : List Packet) :
    (s.headTaken p rest).schBytes = s.schBytes := by
  rw [State.headTaken_eq]
  rfl

theorem State.sameBut.headTaken {s a : State} {l : List Part} (h : s.sameBut a l) (p : Nat) (rest : List Packet)
    (hl : [.prm, .sch] ⊆ l := by decide) : s.sameBut (a.headTaken p rest) l := by
  rw [State.headTaken_eq]
  exact (h.withSch _ (hl (by simp))).withPrm _ (hl (by simp))

/-- The packet passes every check of R226, R239, R241 and R243, and is queued on its leaf. -/
theorem State.enqueue_queued {s : State} {p l : Nat} {m : Packet} (hk : hGet m.words CH.kind = kPacket)
    (hq : hGet m.words CH.dstQueue = l) (hl : l < 65536) (htree : treeOwns s.plan p (l / 16) = true)
    (hheld : s.egressHeld p = false) (hgood : m.poison = false)
    (hlink : s.get (F.SCH_PORT_STATUS_LINK p) = 1 ∨ s.get (F.SCH_PORT_CFG_FLUSH_ON_DOWN p) = 0)
    (hsdu : s.get (F.SCH_CLS_MAXSDU_MAX p (leafClass s.plan p l)) = 0)
    (hleaf : s.leafBytes l + egLen ⟨m.words, m.payload, false, false⟩ ≤ s.get (F.SCH_LEAF_LIMIT_KIB l) * 1024)
    (hbuf : s.schBytes + egLen ⟨m.words, m.payload, false, false⟩ ≤
      ((unitPartition s.plan uSch).map Prod.snd).getD 0) :
    s.enqueue p m false = s.setLeafQ l (s.leafQ l ++ [⟨m.words, m.payload, false, false⟩]) := by
  subst hq
  unfold State.enqueue
  dsimp only
  rw [Nat.mod_eq_of_lt hl, if_neg (by simp [hk]), if_neg (by simp [htree]; omega), if_neg (by simp [hheld]),
    if_neg (by simp [hgood]), if_neg (by omega), if_neg (by omega), hgood, if_neg (by omega), if_neg (by omega)]

/-- The count and the fault of a header that the port does not take (R226). -/
def State.dstDropped (s : State) (c b extra : Nat) : State := (s.count F.SCH_DST_DROP_COUNT).fault uSch c b extra

theorem State.dstDropped_spec (s : State) (c extra : Nat) {b : Nat} (hb : b < 64) :
    (s.dstDropped c b extra).hasError uSch b ∧
    (s.dstDropped c b extra).get F.SCH_DST_DROP_COUNT = min 0xFFFFFFFF (s.get F.SCH_DST_DROP_COUNT + 1) ∧
    (s.dstDropped c b extra).prm = s.prm ∧ (s.dstDropped c b extra).sch = s.sch := by
  refine ⟨State.fault_sets_hasError _ _ _ _ hb, ?_, State.fault_prm .., State.fault_sch ..⟩
  rw [State.dstDropped, State.schFault_get _ _ _ _ (by decide), State.get_count_same]

theorem State.enqueue_foreign {s : State} {p : Nat} {m : Packet} (hk : hGet m.words CH.kind = kPacket)
    (hout : 65536 ≤ hGet m.words CH.dstQueue ∨ treeOwns s.plan p (hGet m.words CH.dstQueue % 65536 / 16) = false) :
    s.enqueue p m false = s.dstDropped 0x01 0 (schExtra p (hGet m.words CH.dstQueue % 65536)) := by
  unfold State.enqueue
  dsimp only
  rw [if_neg (by simp [hk]), if_pos (by simpa using hout)]
  rfl

/-- A header of another kind; a command is answered as well, which the station alone sees. -/
theorem State.enqueue_kind {s : State} {p : Nat} {m : Packet} (hk : hGet m.words CH.kind ≠ kPacket) :
    ∃ x, s.enqueue p m false =
        (s.dstDropped 0x02 1 (schExtra p (hGet m.words CH.dstQueue % 65536))).withPrm x ∧ x.inbox = s.prm.inbox := by
  have hprm := (s.dstDropped_spec 0x02 (schExtra p (hGet m.words CH.dstQueue % 65536)) (b := 1) (by decide)).2.2.1
  unfold State.enqueue
  dsimp only
  rw [if_pos hk]
  split
  · exact ⟨_, rfl, by rw [← hprm]; rfl⟩
  · exact ⟨_, rfl, by rw [← hprm]; rfl⟩

/-! ### The selection touches nodes and turns only (R230) -/

theorem NodesOnly.drrRun {s : State} {key n : Nat} {kids : Kids} {r : Nat × State}
    (h : s.drrRun key n kids = some r) : NodesOnly s r.2 := by
  induction n generalizing s kids with
  | zero => simp [State.drrRun] at h
  | succ n ih =>
    cases kids with
    | nil => simp [State.drrRun] at h
    | cons x kids =>
      obtain ⟨k, l⟩ := x
      simp only [State.drrRun] at h
      split at h
      · obtain rfl := Option.some.inj h
        exact (setNode ..).trans (setTurn ..)
      · exact (setNode ..).trans (ih h)

theorem NodesOnly.drrPick {s : State} {key : Nat} {kids : Kids} {r : Nat × State}
    (h : s.drrPick key kids = some r) : NodesOnly s r.2 := by
  unfold State.drrPick at h
  dsimp only at h
  split at h
  · split at h
    · obtain rfl := Option.some.inj h
      exact setNode ..
    · exact drrRun h
  · exact drrRun h

theorem NodesOnly.pickKid {s : State} {parent : Nat} {kids : Kids} {r : Nat × State}
    (h : s.pickKid parent kids = some r) : NodesOnly s r.2 := by
  unfold State.pickKid at h
  split at h
  · cases h
  · exact drrPick h

theorem NodesOnly.groupPick {s : State} {g : Nat} {r : Nat × State} (h : s.groupPick g = some r) : NodesOnly s r.2 := by
  obtain ⟨⟨k, t⟩, hkid, rfl⟩ := Option.map_eq_some_iff.mp h
  have ht : NodesOnly s t := pickKid hkid
  exact ht

theorem NodesOnly.classPick {s : State} {p c : Nat} {r : Nat × State} (h : s.classPick p c = some r) :
    NodesOnly s r.2 := by
  unfold State.classPick at h
  dsimp only at h
  split at h
  · cases h
  · next hkid => exact (pickKid hkid).trans (groupPick h)

theorem NodesOnly.portPick {s : State} {p markers : Nat} {r : Nat × State} (h : s.portPick p markers = some r) :
    NodesOnly s r.2 := by
  unfold State.portPick at h
  dsimp only at h
  split at h
  · cases h
  · split at h
    · cases h
    · next hkid => exact (pickKid hkid).trans (classPick h)

theorem NodesOnly.chargePath (s : State) (p l len : Nat) : NodesOnly s (s.chargePath p l len) :=
  foldl _ _ _ fun s _ => .ite (.refl s) (.setNode ..)

/-! ### What precedes a selection (R232, R236, R239, R247) -/

/-- `t` differs from `s` at most in registers, the mesh, the scheduler but for its frames in transmission, and in what a
recorded condition sends. -/
def EgressOnly (s t : State) : Prop :=
  t = { s with
    regs := t.regs, prm := t.prm, sch := { t.sch with tx := s.sch.tx }, pcie := t.pcie, out := t.out, aia := t.aia }

namespace EgressOnly

theorem refl (s : State) : EgressOnly s s := rfl

theorem trans {a b c : State} (h : EgressOnly a b) (k : EgressOnly b c) : EgressOnly a c := by
  unfold EgressOnly at *
  rw [k, h]

theorem of_nodesOnly {s t : State} (h : NodesOnly s t) : EgressOnly s t := by
  rw [h]
  rfl

theorem foldl {α : Type} (g : State → α → State) (l : List α) (s : State) (h : ∀ s x, EgressOnly s (g s x)) :
    EgressOnly s (l.foldl g s) := by
  induction l generalizing s with
  | nil => exact refl s
  | cons x l ih => exact (h s x).trans (ih _)

theorem withRegs (s : State) (x : Sparse Word) : EgressOnly s (s.withRegs x) := rfl
theorem withPrm (s : State) (x : PrmState) : EgressOnly s (s.withPrm x) := rfl
theorem setGcl (s : State) (p : Nat) (g : Gcl) : EgressOnly s (s.setGcl p g) := rfl
theorem setNode (s : State) (k : Nat) (n : SchNode) : EgressOnly s (s.setNode k n) := rfl
theorem setLeafQ (s : State) (l : Nat) (q : List EgFrame) : EgressOnly s (s.setLeafQ l q) := rfl

theorem sets (s : State) (l : List (Fld × Nat)) : EgressOnly s (s.sets l) := by
  rw [s.sets_eq_withRegs]
  exact withRegs s _

theorem fault (s : State) (c b e : Nat) : EgressOnly s (s.fault uSch c b e) := by
  rw [s.fault_eq (by decide) c b e]
  rfl

theorem gclPlace (s : State) (p : Nat) : EgressOnly s (s.gclPlace p) := by
  obtain h | ⟨start, held, x, h⟩ := s.gclPlace_cases p
  · rw [h]
    exact sets s _
  · rw [h]
    exact (setGcl s p _).trans (sets _ _)

theorem gclTaken (s : State) (p start : Nat) : EgressOnly s (s.gclTaken p start) := by
  rw [State.gclTaken, State.entriesTaken, State.copyEntries_eq_withRegs]
  exact ((((withRegs ..).trans (withRegs ..)).trans (setGcl ..)).trans (withRegs ..)).trans (withRegs ..)

theorem gatesNow (s : State) (p : Nat) : EgressOnly s (s.gatesNow p) := by
  refine (of_nodesOnly (.cbsSync s p)).trans ?_
  unfold State.gatesNow State.gclSync
  split
  · split
    · rw [State.gclApply_eq]
      exact (gclTaken ..).trans (gclPlace ..)
    · exact gclPlace ..
  · exact gclPlace ..

theorem nodeRefill (s : State) (k : Nat) : EgressOnly s (s.nodeRefill k) := by
  unfold State.nodeRefill
  dsimp only
  split
  · exact refl s
  · split
    · split
      · rfl
      · refine trans ?_ (of_nodesOnly (State.refillAll_spec _ k).1)
        rw [State.nodeApply_eq]
        rfl
    · exact of_nodesOnly (State.refillAll_spec s k).1

theorem refillPort (s : State) (p : Nat) : EgressOnly s (s.refillPort p) := by
  have hnodes : EgressOnly s (s.refillNodes fun k => nodePort s.plan (k / 65536) (k % 65536) == p) :=
    foldl _ _ _ fun s _ => nodeRefill s _
  unfold State.refillPort
  dsimp only
  split
  · exact hnodes.trans (nodeRefill ..)
  · exact hnodes

theorem popLeaf (s : State) (p l : Nat) : EgressOnly s (s.popLeaf p l) :=
  (setLeafQ s l _).trans (of_nodesOnly (.loseDeficits ..))

theorem rxDiscard (s : State) (p : Nat) : EgressOnly s (s.rxDiscard p) := by
  unfold State.rxDiscard
  split
  · exact withPrm s _
  · exact refl s

theorem dropHead (s : State) (p l : Nat) : EgressOnly s (s.dropHead p l) := by
  unfold State.dropHead
  split
  · split
    · exact (popLeaf ..).trans (rxDiscard ..)
    · exact popLeaf ..
  · exact refl s

theorem dropUnfit (s : State) (p markers n : Nat) : EgressOnly s (s.dropUnfit p markers n) := by
  induction n generalizing s with
  | zero => exact refl s
  | succ n ih =>
    unfold State.dropUnfit
    dsimp only
    split
    · exact refl s
    · exact (((dropHead ..).trans (withRegs ..)).trans (fault ..)).trans (ih _)

variable {s t : State} (h : EgressOnly s t)
include h

theorem clk : t.clk = s.clk := by rw [h]
theorem txOf (p : Nat) : t.txOf p = s.txOf p := by rw [h]; rfl

theorem sameBut {a : State} {l : List Part} (hs : a.sameBut s l)
    (hl : [.regs, .prm, .sch, .pcie, .out, .aia] ⊆ l := by decide) : a.sameBut t l := by
  rw [h]
  exact (((((hs.withRegs _ (hl (by simp))).withPrm _ (hl (by simp))).withSch _ (hl (by simp))).withPcie _
    (hl (by simp))).withOut _ (hl (by simp))).withAia _ (hl (by simp))

end EgressOnly

/-! ### The selected frame (R230, R231, R241, R462) -/

@[simp] theorem EccResult.bad_clean : EccResult.clean.bad = false := rfl
@[simp] theorem EccResult.bad_uncorrectable : EccResult.uncorrectable.bad = true := rfl

theorem State.memReadIn_clean (s : State) (u : Nat) : s.memReadIn .clean u = s := if_pos rfl

/-- Registers and timebases give the timestamp of a frame that starts. -/
theorem State.txStamp_congr {s t : State} (hr : t.regs = s.regs) (ht : t.tb = s.tb) (p : Nat) :
    t.txStamp p = s.txStamp p := by
  simp only [State.txStamp, State.portNow, State.tbVal, State.tbase, portTb, State.get_congr hr, ht]

theorem NodesOnly.tb {s t : State} (h : NodesOnly s t) : t.tb = s.tb := by rw [h]; rfl

/-- A frame that leaves its leaf changes the scheduler alone. -/
theorem State.popLeaf_beside (s : State) (p l : Nat) :
    (s.popLeaf p l).regs = s.regs ∧ (s.popLeaf p l).tb = s.tb ∧ (s.popLeaf p l).clk = s.clk := by
  have h := NodesOnly.loseDeficits (s.setLeafQ l (s.leafQ l).tail) p l
  rw [State.popLeaf]
  exact ⟨h.regs, h.tb, h.clk⟩

/-- Every node on the path of the selected frame is charged, and the frame leaves its leaf. -/
def State.frameTaken (s : State) (p l : Nat) (f : EgFrame) : State := (s.chargePath p l (egLen f)).popLeaf p l

theorem State.frameTaken_spec (s : State) (p l : Nat) (f : EgFrame) :
    (s.frameTaken p l f).leafQ l = (s.leafQ l).tail ∧ (∀ k, k ≠ l → (s.frameTaken p l f).leafQ k = s.leafQ k) ∧
    (s.frameTaken p l f).txStamp p = s.txStamp p ∧ (s.frameTaken p l f).clk = s.clk ∧
    EgressOnly s (s.frameTaken p l f) := by
  have hc := NodesOnly.chargePath s p l (egLen f)
  obtain ⟨hregs, htb, hclk⟩ := (s.chargePath p l (egLen f)).popLeaf_beside p l
  obtain ⟨hsame, hother⟩ := (s.chargePath p l (egLen f)).popLeaf_leafQ p l
  unfold State.frameTaken
  refine ⟨by rw [hsame, hc.leafQ], fun k hk => by rw [hother k hk, hc.leafQ], ?_, by rw [hclk, hc.clk],
    (EgressOnly.of_nodesOnly hc).trans (.popLeaf ..)⟩
  exact State.txStamp_congr (by rw [hregs, hc.regs]) (by rw [htb, hc.tb]) p

/-- What a selection finds: the gates, the refills and the candidates as the present instant has them. -/
def State.beforeSelect (s : State) (p markers : Nat) : State :=
  ((s.gatesNow p).refillPort p).dropUnfit p markers ((s.busyLeaves p).map fun k => (s.leafQ k).length).sum

theorem State.beforeSelect_egressOnly (s : State) (p markers : Nat) : EgressOnly s (s.beforeSelect p markers) :=
  ((EgressOnly.gatesNow ..).trans (.refillPort ..)).trans (.dropUnfit ..)

theorem State.portFree_txOf {s : State} {p : Nat} (h : s.portFree p = true) : s.txOf p = none := by
  simp only [State.portFree, Bool.and_eq_true, Option.isNone_iff_eq_none] at h
  exact h.1.2

theorem State.rxDiscard_sch (s : State) (p : Nat) : (s.rxDiscard p).sch = s.sch := by
  unfold State.rxDiscard
  split <;> rfl

theorem State.dropHead_leafQ (s : State) (p l : Nat) : (s.dropHead p l).leafQ l = (s.leafQ l).tail := by
  have hpop := (s.popLeaf_leafQ p l).1
  unfold State.dropHead
  split
  · split
    · rw [State.leafQ_congr (State.rxDiscard_sch ..), hpop]
    · exact hpop
  · next h => rw [List.head?_eq_none_iff.mp h, List.tail_nil]

namespace State.sameBut

variable {s a : State} {l : List Part}

theorem withFree (h : s.sameBut a l) (x : Nat) (hl : .free ∈ l := by decide) : s.sameBut (a.withFree x) l := by
  revert h
  unfold State.sameBut
  iterate 35 refine And.imp id ?_
  exact And.imp (fun _ p => absurd hl p) id

/-- An uncorrectable error of a read somewhere in a unit's partition is MEM's to record. -/
theorem memReadIn_uncorrectable (h : s.sameBut a l) (u : Nat)
    (hl : [.regs, .pcie, .aia, .out, .free] ⊆ l := by decide) : s.sameBut (a.memReadIn .uncorrectable u) l := by
  have hfree : s.sameBut a.takeFree.2 l := h.withFree _ (hl (by simp))
  unfold State.memReadIn
  rw [if_neg (by decide)]
  dsimp only
  split
  · rw [State.memRead, State.memUe]
    exact (hfree.withRegs _ (hl (by simp))).fault uMem _ _ _ (by decide) (List.Subset.trans (by decide) hl)
  · exact hfree

end State.sameBut

section
variable {s s1 s2 : State} {p markers l : Nat} {f : EgFrame} {rest : List EgFrame} (hfree : s.portFree p = true)
  (hs1 : s.beforeSelect p markers = s1) (hpick : s1.portPick p markers = some (l, s2)) (hq : s2.leafQ l = f :: rest)
include hfree hs1 hpick hq

/-- The selected frame leaves its leaf and starts, with the timestamp of its start. -/
theorem exec_frameSelect_started (hgood : (f.arriving && s1.rxPoison p) = false) :
    ∃ t, exec (.frameSelect p markers .clean) s = .next t ∧
      t.txOf p = some ⟨l, f, s1.txStamp p, s.clk.elapsed, false⟩ ∧ t.leafQ l = rest ∧
      (∀ k, k ≠ l → t.leafQ k = s1.leafQ k) ∧ s.sameBut t [.regs, .prm, .sch, .pcie, .out, .aia] := by
  have hbefore : EgressOnly s s1 := hs1 ▸ s.beforeSelect_egressOnly p markers
  have hsel : NodesOnly s1 s2 := NodesOnly.portPick hpick
  obtain ⟨hsame, hother, hstamp, hclk, honly⟩ := s2.frameTaken_spec p l f
  have arm : exec (.frameSelect p markers .clean) s = .next ((s2.frameTaken p l f).setTx p
      (some ⟨l, f, (s2.frameTaken p l f).txStamp p, (s2.frameTaken p l f).clk.elapsed, false⟩)) := by
    rw [State.beforeSelect] at hs1
    show execFrameSelect p markers .clean s = _
    simp only [execFrameSelect, hfree, hs1, hpick, hq, hgood, EccResult.bad_clean, State.memReadIn_clean,
      State.frameTaken, Bool.not_true, Bool.false_eq_true, if_false]
  rw [hstamp, State.txStamp_congr hsel.regs hsel.tb, hclk, hsel.clk, hbefore.clk] at arm
  generalize s2.frameTaken p l f = e at arm hsame hother honly
  refine ⟨_, arm, State.setTx_txOf .., ?_, fun k hk => (hother k hk).trans (hsel.leafQ k), ?_⟩
  · exact hsame.trans (by rw [hq, List.tail_cons])
  · exact .withSch (((hbefore.trans (.of_nodesOnly hsel)).trans honly).sameBut (.refl ..)) _

/-- An uncorrectable error of the selected frame discards it. -/
theorem exec_frameSelect_uncorrectable :
    ∃ t, exec (.frameSelect p markers .uncorrectable) s = .next t ∧ t.hasError uSch 6 ∧
      t.leafQ l = (s1.leafQ l).tail ∧ t.txOf p = none ∧ s.sameBut t [.regs, .prm, .sch, .pcie, .out, .free, .aia] := by
  have hdrop : EgressOnly s (s1.dropHead p l) := (hs1 ▸ s.beforeSelect_egressOnly p markers).trans (.dropHead ..)
  have arm : exec (.frameSelect p markers .uncorrectable) s =
      .next (((s1.dropHead p l).memReadIn .uncorrectable uSch).fault uSch 0x07 6 (schExtra p l)) := by
    rw [State.beforeSelect] at hs1
    show execFrameSelect p markers .uncorrectable s = _
    simp only [execFrameSelect, hfree, hs1, hpick, hq, EccResult.bad_uncorrectable, Bool.not_true, Bool.false_eq_true,
      if_false, if_true]
  refine ⟨_, arm, State.fault_sets_hasError _ _ _ _ (by decide), ?_, ?_,
    ((hdrop.sameBut (.refl ..)).memReadIn_uncorrectable uSch).fault ..⟩
  · rw [State.leafQ_congr (State.fault_sch ..), State.leafQ_congr (State.memReadIn_sch ..), State.dropHead_leafQ]
  · rw [State.txOf_congr (State.fault_sch ..), State.txOf_congr (State.memReadIn_sch ..), hdrop.txOf,
      State.portFree_txOf hfree]

end

/-! ### The end of a transmission (R227, R233, R242) -/

/-- A frame that asked for no timestamp is not reported (R464). -/
theorem State.txReport_unasked (s : State) (p : Nat) {x : TxFrame} (status : Nat)
    (h : hGet x.frame.words CH.timeFrac % 2 = 0) : s.txReport p x status = s := by
  rw [State.txReport, if_pos h]

/-- Nodes have no part in the bytes of a frame. -/
theorem NodesOnly.sentBytes {s t : State} (h : NodesOnly s t) (p : Nat) (x : TxFrame) :
    t.sentBytes p x = s.sentBytes p x := by
  have hrx : t.egRx p = s.egRx p := by rw [State.egRx, h.prm, State.egRx]
  have htb : ∀ q, portTb t q = portTb s q := fun q => h.get _
  simp only [State.sentBytes, hrx, htb, h.get]

theorem State.endTx_out (s : State) (p : Nat) : (s.endTx p).out = s.out ++ s.pfcWaiting p := by
  rw [State.endTx_eq]
  rfl

theorem State.endTx_rd (s : State) (p r : Nat) : (s.endTx p).rd r = s.rd r := by
  rw [State.endTx_eq]
  rfl

theorem State.sameBut.endTx {s a : State} {l : List Part} (h : s.sameBut a l) (p : Nat)
    (hl : [.sch, .eth, .out] ⊆ l := by decide) : s.sameBut (a.endTx p) l := by
  rw [State.endTx_eq]
  exact ((h.withSch _ (hl (by simp))).withOut _ (hl (by simp))).withEth _ (hl (by simp))

/-- A frame that went out whole is counted, and a one-step frame too. -/
def State.txCounted (s : State) (p : Nat) (x : TxFrame) (changed : Bool) : State :=
  let s1 := (s.wrapBy (F.SCH_PORT_TX_FRAMES_COUNT p) 1).wrapBy (F.SCH_PORT_TX_BYTES_COUNT p) (egLen x.frame)
  if changed then s1.wrapBy F.TB_ONESTEP_COUNT_COUNT 1 else s1

theorem State.txCounted_eq_withRegs (s : State) (p : Nat) (x : TxFrame) (changed : Bool) :
    s.txCounted p x changed = s.withRegs (s.txCounted p x changed).regs := by
  unfold State.txCounted
  dsimp only
  split <;> rfl

theorem State.txCounted_spec (s : State) (p : Nat) (x : TxFrame) (changed : Bool) :
    (s.txCounted p x changed).get (F.SCH_PORT_TX_FRAMES_COUNT p) =
      (s.get (F.SCH_PORT_TX_FRAMES_COUNT p) + 1) % 2 ^ 64 ∧
    (s.txCounted p x changed).get (F.SCH_PORT_TX_BYTES_COUNT p) =
      (s.get (F.SCH_PORT_TX_BYTES_COUNT p) + egLen x.frame) % 2 ^ 64 ∧
    s.sameRegs (s.txCounted p x changed) [R.SCH_PORT_TX_FRAMES p, R.SCH_PORT_TX_BYTES p, R.TB_ONESTEP_COUNT] := by
  have hone : ∀ t : State, t.sameRegs (if changed then t.wrapBy F.TB_ONESTEP_COUNT_COUNT 1 else t)
      [R.TB_ONESTEP_COUNT] := fun t => by
    split
    · exact t.wr_sameRegs _ _
    · exact fun _ _ => rfl
  have hframes : R.SCH_PORT_TX_FRAMES p ≠ R.TB_ONESTEP_COUNT := by
    simp only [R.SCH_PORT_TX_FRAMES, R.TB_ONESTEP_COUNT]
    omega
  have hbytes : R.SCH_PORT_TX_BYTES p ≠ R.TB_ONESTEP_COUNT := by
    simp only [R.SCH_PORT_TX_BYTES, R.TB_ONESTEP_COUNT]
    omega
  unfold State.txCounted
  dsimp only
  refine ⟨?_, ?_, fun r hr => ?_⟩
  · rw [State.get, hone _ _ (by simpa using hframes), ← State.get, State.wrapBy, State.get_set_ne _ _ (by simp),
      State.wrapBy, State.get_set_same _ _ (by simp) (by simp)]
    rfl
  · rw [State.get, hone _ _ (by simpa using hbytes), ← State.get, State.wrapBy,
      State.get_set_same _ _ (by simp) (by simp), State.wrapBy, State.get_set_ne _ _ (by simp)]
    rfl
  · simp only [List.mem_cons, List.not_mem_nil, or_false, not_or] at hr
    obtain ⟨hf, hb, ho⟩ := hr
    rw [hone _ r (by simpa using ho), State.wrapBy, State.rd_set_ne _ _ hb, State.wrapBy, State.rd_set_ne _ _ hf]

section
variable {s : State} {p : Nat} {x : TxFrame} (sent : Nat) (htx : s.txOf p = some x) (hwhole : x.frame.arriving = false)
  (hask : hGet x.frame.words CH.timeFrac % 2 = 0)
include htx hwhole hask

/-- A frame of which all has come, neither aborted nor poisoned, goes out whole and is counted. -/
theorem exec_frameTransmitEnd_whole (hab : x.aborted = false) (hgood : x.frame.poison = false) :
    ∃ t, exec (.frameTransmitEnd p sent .clean) s = .next t ∧ t.txOf p = none ∧
      t.out = s.out ++ [.frame p (s.sentBytes p x).1 true] ++ s.pfcWaiting p ∧
      t.get (F.SCH_PORT_TX_FRAMES_COUNT p) = (s.get (F.SCH_PORT_TX_FRAMES_COUNT p) + 1) % 2 ^ 64 ∧
      t.get (F.SCH_PORT_TX_BYTES_COUNT p) = (s.get (F.SCH_PORT_TX_BYTES_COUNT p) + egLen x.frame) % 2 ^ 64 ∧
      (∀ l, t.leafQ l = s.leafQ l) ∧
      s.sameRegs t [R.SCH_PORT_TX_FRAMES p, R.SCH_PORT_TX_BYTES p, R.TB_ONESTEP_COUNT] ∧
      s.sameBut t [.regs, .sch, .eth, .out] := by
  have hu := NodesOnly.cbsSync s p
  obtain ⟨e, he⟩ : ∃ e, ((s.cbsSync p).emit (.frame p (s.sentBytes p x).1 true)).endTx p = e := ⟨_, rfl⟩
  have arm : exec (.frameTransmitEnd p sent .clean) s =
      .next ((e.txCounted p x (s.sentBytes p x).2).cbsSent p (leafClass s.plan p x.leaf) x) := by
    show execFrameTransmitEnd p sent .clean s = _
    simp only [execFrameTransmitEnd, htx, hwhole, hab, hgood, EccResult.bad_clean, State.memReadIn_clean, he,
      State.txReport_unasked _ _ _ hask, State.txCounted, Bool.false_or, Bool.false_and, Bool.false_eq_true, if_false]
  have hv := NodesOnly.cbsSent (e.txCounted p x (s.sentBytes p x).2) p (leafClass s.plan p x.leaf) x
  have hsch : (e.txCounted p x (s.sentBytes p x).2).sch = e.sch := by
    rw [State.txCounted_eq_withRegs, State.withRegs_sch]
  have herd : ∀ r, e.rd r = s.rd r := fun r => by rw [← he, State.endTx_rd, State.emit_rd, hu.rd]
  have hget : ∀ f, e.get f = s.get f := fun f => by rw [State.get, herd, State.get]
  obtain ⟨hframes, hbytes, hregs⟩ := e.txCounted_spec p x (s.sentBytes p x).2
  refine ⟨_, arm, ?_, ?_, ?_, ?_, fun l => ?_, fun r hr => ?_, ?_⟩
  · rw [hv.txOf, State.txOf_congr hsch, ← he, State.endTx_txOf]
  · rw [hv.out, State.txCounted_eq_withRegs, State.withRegs_out, ← he, State.endTx_out, State.emit, State.withOut_out,
      hu.out, State.pfcWaiting, State.withOut_eth, hu.eth, ← State.pfcWaiting]
  · rw [hv.get, hframes, hget]
  · rw [hv.get, hbytes, hget]
  · rw [hv.leafQ, State.leafQ_congr hsch, ← he, State.endTx_leafQ]
    exact hu.leafQ l
  · rw [hv.rd, hregs r hr, herd]
  · rw [State.txCounted_eq_withRegs] at hv ⊢
    rw [← he] at hv ⊢
    exact hv.sameBut ((State.sameBut.endTx ((hu.sameBut (.refl ..)).withOut _) p).withRegs _)

/-- A frame whose packet was aborted is stomped, with the fault of R242. -/
theorem exec_frameTransmitEnd_stomped (hab : x.aborted = true) :
    ∃ t, exec (.frameTransmitEnd p sent .clean) s = .next t ∧ t.txOf p = none ∧
      .frame p ((s.sentBytes p x).1.take sent) false ∈ t.out ∧
      t.get (F.SCH_PORT_STOMP_COUNT p) = min 0xFFFFFFFF (s.get (F.SCH_PORT_STOMP_COUNT p) + 1) ∧
      t.hasError uSch 4 ∧ (∀ l, t.leafQ l = s.leafQ l) ∧ s.sameBut t [.regs, .sch, .eth, .pcie, .out, .aia] := by
  have hu := NodesOnly.cbsSync s p
  obtain ⟨e, he⟩ : ∃ e, (((s.cbsSync p).count (F.SCH_PORT_STOMP_COUNT p)).emit
    (.frame p ((s.sentBytes p x).1.take sent) false)).endTx p = e := ⟨_, rfl⟩
  have arm : exec (.frameTransmitEnd p sent .clean) s =
      .next ((e.cbsCut p (leafClass s.plan p x.leaf)).fault uSch 0x05 4 (schExtra p x.leaf)) := by
    show execFrameTransmitEnd p sent .clean s = _
    simp only [execFrameTransmitEnd, htx, hwhole, hab, EccResult.bad_clean, State.memReadIn_clean, State.stomp,
      hu.sentBytes, he, hu.plan, State.txReport_unasked _ _ _ hask, Bool.true_or, Bool.false_eq_true, if_false, if_true]
  have hv := NodesOnly.cbsCut e p (leafClass s.plan p x.leaf)
  refine ⟨_, arm, ?_, ?_, ?_, State.fault_sets_hasError _ _ _ _ (by decide), fun l => ?_, ?_⟩
  · rw [State.txOf_congr (State.fault_sch ..), hv.txOf, ← he, State.endTx_txOf]
  · refine (State.fault_out_prefix ..).subset ?_
    rw [hv.out, ← he, State.endTx_out, State.emit, State.withOut_out]
    simp
  · rw [State.schFault_get _ _ _ _ (by simp only [R.SCH_PORT_STOMP]; omega), hv.get, ← he, State.get, State.endTx_rd,
      State.emit_rd, ← State.get, State.get_count_same, hu.get]
  · rw [State.leafQ_congr (State.fault_sch ..), hv.leafQ, ← he, State.endTx_leafQ]
    exact hu.leafQ l
  · rw [← he] at hv ⊢
    exact (hv.sameBut (State.sameBut.endTx (((hu.sameBut (.refl ..)).withRegs _).withOut _) p)).fault ..

end

/-! ### The clauses of O33 -/

/-- Settles O33, clause by clause. -/
theorem egressQueuesAndFrames : Obligations.EgressQueuesAndFrames := by
  unfold Obligations.EgressQueuesAndFrames
  refine ⟨?queued, ?kind, ?foreign, ?started, ?uncorrectable, ?whole, ?stomped, ?refilled, ?passed, ?due, ?go⟩
  case queued =>
    intro s p l m rest hin hk hq hl htree hheld hgood hlink hsdu hleaf hbuf
    have arm := exec_schEnqueue hin
    rw [State.enqueue_queued hk hq hl (by rwa [State.headTaken_plan]) (by rwa [State.headTaken_egressHeld]) hgood
      (by rwa [State.headTaken_get, State.headTaken_get]) (by rwa [State.headTaken_plan, State.headTaken_get])
      (by rwa [State.leafBytes, State.headTaken_leafQ, State.headTaken_get])
      (by rwa [State.headTaken_schBytes, State.headTaken_plan])] at arm
    refine ⟨_, arm, ?_, fun k hkl => ?_, s.headTaken_inboxOf p rest, .withSch (.headTaken (.refl ..) p rest) _⟩
    · rw [State.setLeafQ_leafQ_same, State.headTaken_leafQ]
    · rw [State.setLeafQ_leafQ_ne _ _ hkl, State.headTaken_leafQ]
  case kind =>
    intro s p m rest hin hk
    obtain ⟨x, henq, hx⟩ := State.enqueue_kind (s := s.headTaken p rest) (p := p) hk
    have arm := exec_schEnqueue hin
    rw [henq] at arm
    obtain ⟨herr, hcount, -, hsch⟩ := (s.headTaken p rest).dstDropped_spec 0x02
      (schExtra p (hGet m.words CH.dstQueue % 65536)) (b := 1) (by decide)
    refine ⟨_, arm, herr, ?_, ?_, fun l => ?_, ?_⟩
    · rw [State.withPrm_get, hcount, State.headTaken_get]
    · rw [State.inboxOf, State.withPrm_prm, hx]
      exact s.headTaken_inboxOf p rest
    · rw [State.leafQ_congr (State.withPrm_sch ..), State.leafQ_congr hsch, State.headTaken_leafQ]
    · exact (((State.sameBut.headTaken (.refl ..) p rest).withRegs _).fault ..).withPrm _
  case foreign =>
    intro s p m rest hin hk hout
    have arm := exec_schEnqueue hin
    rw [State.enqueue_foreign hk (by rwa [State.headTaken_plan])] at arm
    obtain ⟨herr, hcount, hprm, hsch⟩ := (s.headTaken p rest).dstDropped_spec 0x01
      (schExtra p (hGet m.words CH.dstQueue % 65536)) (b := 0) (by decide)
    refine ⟨_, arm, herr, ?_, ?_, fun l => ?_, ((State.sameBut.headTaken (.refl ..) p rest).withRegs _).fault ..⟩
    · rw [hcount, State.headTaken_get]
    · rw [State.inboxOf, hprm]
      exact s.headTaken_inboxOf p rest
    · rw [State.leafQ_congr hsch, State.headTaken_leafQ]
  case started =>
    intro s p markers l f rest s1 s2 hfree hs1 hpick hq hgood
    exact exec_frameSelect_started hfree hs1 hpick hq hgood
  case uncorrectable =>
    intro s p markers l f rest s1 s2 hfree hs1 hpick hq
    exact exec_frameSelect_uncorrectable hfree hs1 hpick hq
  case whole =>
    intro s p sent x _ htx hwhole hab hgood hask
    exact exec_frameTransmitEnd_whole sent htx hwhole hask hab hgood
  case stomped =>
    intro s p sent x _ htx hwhole hab hask
    exact exec_frameTransmitEnd_stomped sent htx hwhole hask hab
  case refilled =>
    rintro s level index iv m n hl hl4 hi hpres rfl rfl rfl hm hgo hrate
    have arm := exec_shaperRefill hl hi hpres
    rw [State.nodeRefill_of_settled hgo, State.refillAll_eq hm, State.refillDue_last hm,
      refilled_shaped _ _ hrate] at arm
    exact ⟨_, arm, State.setNode_node_same .., fun k hk => s.setNode_node_ne _ hk, .withSch (.refl ..) _⟩
  case passed =>
    rintro s level index n hl - hi hpres rfl hpend hsel hdue hcome hle hpast
    have arm := exec_shaperRefill hl hi hpres
    rw [State.nodeRefill_of_pending (State.nodeGoHere_of_staged hpend hsel) hdue hle, if_neg hpast] at arm
    obtain ⟨t, ht, hstill, hrate, hburst, hcfg, hcbs, hclear, hgen, hother, hregs, hbut⟩ :=
      s.refillPast_spec (nodeKey level index)
    rw [ht] at arm
    exact ⟨t, arm, hstill.trans hdue, hrate, hburst, hcfg, hcbs, hclear, hgen, hother, hregs, hbut⟩
  case due =>
    rintro s level index n hl - hi hpres rfl hpend hsel hdue hcome hle hnow hrate
    have arm := exec_shaperRefill hl hi hpres
    rw [State.nodeRefill_of_pending (State.nodeGoHere_of_staged hpend hsel) hdue hle, if_pos hnow] at arm
    obtain ⟨hnode, hother⟩ := s.commitDue_node (nodeKey level index) hrate
    obtain ⟨happlied, hkept, hclear, hgen⟩ := State.commitDue_nodeDue hsel
    rw [hnode] at happlied
    refine ⟨_, arm, rfl, by rw [hnode]; exact hrate, by rw [hnode], by rw [happlied]; rfl,
      by rw [happlied]; rfl, by rw [happlied]; rfl, by rw [happlied]; rfl, by rw [happlied]; rfl, ?_, hclear, hgen,
      fun j hj => (hkept j hj).trans (hother j hj), .withSch (.withSch (.refl ..) _) _⟩
    rw [happlied]
    exact if_congr beq_iff_eq rfl rfl
  case go =>
    intro s hpres hheld hnew hok
    exact ⟨_, exec_schNodeCommitGo hpres hheld hnew hok, s.get_set_same 1 (by decide) (by decide), rfl,
      s.wr_sameRegs _ _, .withSch (.withRegs (.refl ..) _) _⟩

end Sys2Proof.Machine
end

section
/-! SUPPORT. What reads and writes of memory, tiles' errors and CPH's conditions touch, for O35. -/

namespace Sys2Proof.Machine

set_option Elab.async false

/-! ### Frames through the cipher's state, memory and its channels -/

namespace State.sameBut

variable {s a : State} {l : List Part}

theorem withMem (h : s.sameBut a l) (x : List Host.Cell) (hl : .mem ∈ l := by decide) : s.sameBut (a.withMem x) l := by
  revert h
  unfold State.sameBut
  refine And.imp id ?_
  exact And.imp (fun _ p => absurd hl p) id

theorem withPoison (h : s.sameBut a l) (x : Sparse Bool) (hl : .poison ∈ l := by decide) :
    s.sameBut (a.withPoison x) l := by
  revert h
  unfold State.sameBut
  iterate 2 refine And.imp id ?_
  exact And.imp (fun _ p => absurd hl p) id

theorem withZeroMap (h : s.sameBut a l) (x : List (Nat × Nat)) (hl : .zeroMap ∈ l := by decide) :
    s.sameBut (a.withZeroMap x) l := by
  revert h
  unfold State.sameBut
  iterate 3 refine And.imp id ?_
  exact And.imp (fun _ p => absurd hl p) id

theorem withChCe (h : s.sameBut a l) (x : Sparse Nat) (hl : .chCe ∈ l := by decide) : s.sameBut (a.withChCe x) l := by
  revert h
  unfold State.sameBut
  iterate 5 refine And.imp id ?_
  exact And.imp (fun _ p => absurd hl p) id

theorem withChTimes (h : s.sameBut a l) (x : Sparse (List Nat)) (hl : .chTimes ∈ l := by decide) :
    s.sameBut (a.withChTimes x) l := by
  revert h
  unfold State.sameBut
  iterate 6 refine And.imp id ?_
  exact And.imp (fun _ p => absurd hl p) id

theorem withChTold (h : s.sameBut a l) (x : Sparse Nat) (hl : .chTold ∈ l := by decide) :
    s.sameBut (a.withChTold x) l := by
  revert h
  unfold State.sameBut
  iterate 7 refine And.imp id ?_
  exact And.imp (fun _ p => absurd hl p) id

theorem withCph (h : s.sameBut a l) (x : CphState) (hl : .cph ∈ l := by decide) : s.sameBut (a.withCph x) l := by
  revert h
  unfold State.sameBut
  iterate 21 refine And.imp id ?_
  exact And.imp (fun _ p => absurd hl p) id

/-- Bytes stored in device memory touch the memory, its poison marks and its zero map (R438, R440). -/
theorem putBytes (h : s.sameBut a l) (at' : Nat) (d : List Byte)
    (hl : [.mem, .poison, .zeroMap] ⊆ l := by decide) : s.sameBut (a.putBytes at' d) l := by
  induction d generalizing a at' with
  | nil => exact h
  | cons b t ih =>
    exact ih (((h.withMem _ (hl (by simp))).withPoison _ (hl (by simp))).withZeroMap _ (hl (by simp))) (at' + 1)

/-- A read of device memory touches the counts and reports of its channel, and MEM's errors (R438, R439). -/
theorem memRead (h : s.sameBut a l) (e : EccResult) (at' : Nat)
    (hl : [.regs, .chCe, .chTimes, .chTold, .pcie, .aia, .out] ⊆ l := by decide) : s.sameBut (a.memRead e at') l := by
  have hfault : [Part.regs, .pcie, .aia, .out] ⊆ l := List.Subset.trans (by decide) hl
  cases e with
  | clean => exact h
  | corrected =>
    rw [State.memRead, State.channelCe]
    have hcounted : ∀ x y, s.sameBut ((a.withChCe x).withChTimes y) l := fun x y =>
      (h.withChCe _ (hl (by simp))).withChTimes _ (hl (by simp))
    split
    · exact ((hcounted _ _).withChTold _ (hl (by simp))).fault uMem _ _ _ (by decide) hfault
    · exact hcounted _ _
  | uncorrectable =>
    rw [State.memRead, State.memUe]
    exact (h.withRegs _ (hl (by simp))).fault uMem _ _ _ (by decide) hfault

/-- An uncorrectable error of a tile touches the tile, and FLT's errors where it retires (R556). -/
theorem tileUe (h : s.sameBut a l) (t : Nat)
    (hl : [.regs, .tiles, .pcie, .aia, .out] ⊆ l := by decide) : s.sameBut (a.tileUe t) l := by
  rw [State.tileUe]
  dsimp only
  split
  · exact (h.withTiles _ (hl (by simp))).fault uFlt _ _ _ (by decide) (List.Subset.trans (by decide) hl)
  · exact h.withTiles _ (hl (by simp))

end State.sameBut

/-! ### Registers that an operation leaves as they were -/

theorem State.sameRegs.refl (s : State) (rs : List Nat) : s.sameRegs s rs := fun _ _ => rfl

theorem State.sameRegs.set {s a : State} {rs : List Nat} (h : s.sameRegs a rs) {f : Fld} (v : Nat) (hf : f.off ∈ rs) :
    s.sameRegs (a.set f v) rs :=
  fun r hr => (a.rd_set_ne v (ne_of_mem_of_not_mem hf hr).symm).trans (h r hr)

/-- Registers do not see what is put into the cipher's state, nor what is put into the mesh. -/
theorem State.sameRegs.withCph {s a : State} {rs : List Nat} (h : s.sameRegs a rs) (x : CphState) :
    s.sameRegs (a.withCph x) rs :=
  fun r hr => (a.withCph_rd x r).trans (h r hr)

theorem State.sameRegs.withPrm {s a : State} {rs : List Nat} (h : s.sameRegs a rs) (x : PrmState) :
    s.sameRegs (a.withPrm x) rs :=
  fun r hr => (a.withPrm_rd x r).trans (h r hr)

/-- A condition that a unit records leaves every register above its error registers, where FLT's summary lies below. -/
theorem State.fault_get_above (s : State) {u : Nat} (c b e : Nat) {f : Fld} (h : errCount u < f.off)
    (hsum : R.FLT_SUMMARY < errCount u) : (s.fault u c b e).get f = s.get f := by
  have hle : errStatus u ≤ errCount u ∧ errFirst u ≤ errCount u := by
    simp only [errStatus, errFirst, errCount, unitOff]
    omega
  exact s.fault_get_ne _ _ _ _ _ (by omega) (by omega) (by omega) (by omega)

/-- A condition that CPH records leaves every register above its error registers. -/
theorem State.cphFault_get (s : State) (cond pair queue slot : Nat) {f : Fld} (h : errCount uCph < f.off) :
    (s.cphFault cond pair queue slot).get f = s.get f :=
  s.fault_get_above _ _ _ h (by decide)

theorem State.cphFault_hasError (s : State) (cond pair queue slot : Nat) (h : cond - 1 < 64) :
    (s.cphFault cond pair queue slot).hasError uCph (cond - 1) :=
  s.fault_sets_hasError _ _ _ h

@[simp] theorem State.cphFault_cph (s : State) (cond pair queue slot : Nat) :
    (s.cphFault cond pair queue slot).cph = s.cph :=
  State.fault_cph ..

@[simp] theorem State.cphFault_prm (s : State) (cond pair queue slot : Nat) :
    (s.cphFault cond pair queue slot).prm = s.prm :=
  State.fault_prm ..

/-- A tile's error leaves every register above FLT's error registers. -/
theorem State.tileUe_get (s : State) (t : Nat) {f : Fld} (h : errCount uFlt < f.off) :
    (s.tileUe t).get f = s.get f := by
  rw [State.tileUe]
  dsimp only
  split
  · exact State.fault_get_above _ _ _ _ h (by decide)
  · rfl

/-- A read of device memory leaves every register of the units between FLT and MEM. -/
theorem State.memRead_get (s : State) (e : EccResult) (a : Nat) {f : Fld} (hlo : R.FLT_SUMMARY < f.off)
    (hhi : f.off < unitOff uMem 0) : (s.memRead e a).get f = s.get f := by
  have hfault : ∀ (s : State) (c b x : Nat), (s.fault uMem c b x).get f = s.get f := fun s c b x =>
    s.fault_get_ne _ _ _ _ _ (by simp only [errStatus, unitOff, uMem] at *; omega)
      (by simp only [errFirst, unitOff, uMem] at *; omega)
      (by simp only [errCount, unitOff, uMem] at *; omega) (by omega)
  cases e with
  | clean => rfl
  | corrected =>
    rw [State.memRead, State.channelCe]
    split
    · exact hfault _ _ _ _
    · rfl
  | uncorrectable =>
    rw [State.memRead, State.memUe]
    refine (hfault _ _ _ _).trans (s.get_set_ne _ ?_)
    simp only [R.MEM_UE_COUNT, unitOff, uMem] at *
    omega

end Sys2Proof.Machine
end

section
/-! SUPPORT. The key cache, admission and computation of cipher requests, for O35. -/

namespace Sys2Proof.Machine

set_option Elab.async false

/-! ### The requests -/

@[simp] theorem State.setReqs_cph (s : State) (l : List CphReq) : (s.setReqs l).cph = { s.cph with reqs := l } :=
  s.withCph_cph _

@[simp] theorem State.setReqs_get (s : State) (l : List CphReq) (f : Fld) : (s.setReqs l).get f = s.get f :=
  s.withCph_get _ f

@[simp] theorem State.setReqs_pairState (s : State) (l : List CphReq) (p : Nat) :
    (s.setReqs l).pairState p = s.pairState p :=
  s.setReqs_get l _

theorem State.setReqs_hasError {s : State} {u b : Nat} (h : s.hasError u b) (l : List CphReq) :
    (s.setReqs l).hasError u b :=
  State.hasError_congr (s.withCph_regs _) h

/-! ### The key cache (R262, R263) -/

theorem State.cachedSlot_congr {s t : State} (h : t.cph.cache = s.cph.cache) (n : Nat) :
    t.cachedSlot n = s.cachedSlot n := by
  rw [State.cachedSlot, State.keyWays, h, State.cachedSlot, State.keyWays]

theorem State.keyWays_setKeyWays (s : State) (set : Nat) (l : List KeyWay) (k : Nat) :
    (s.setKeyWays set l).keyWays k = if k = set then l else s.keyWays k :=
  spGet_set ..

/-- A way put in front of its set holds its slot; every other slot is found where it was. -/
theorem State.cachedSlot_front (s : State) (w : KeyWay) (n : Nat) :
    (s.setKeyWays (w.slot % 1024) (w :: (s.keyWays (w.slot % 1024)).filter fun v => v.slot != w.slot)).cachedSlot n =
      if n = w.slot then some w else s.cachedSlot n := by
  rw [State.cachedSlot, State.keyWays_setKeyWays]
  by_cases hn : n = w.slot
  · simp [hn]
  · by_cases hset : n % 1024 = w.slot % 1024
    · have hskip : (w.slot == n) = false := beq_eq_false_iff_ne.mpr (Ne.symm hn)
      rw [if_pos hset, if_neg hn, List.find?_cons, hskip, List.find?_filter, State.cachedSlot, hset]
      refine congrArg (List.find? · _) (funext fun v => ?_)
      by_cases hv : v.slot = n <;> simp [hv, hn]
    · rw [if_neg hset, if_neg hn, State.cachedSlot]

theorem State.touchSlot_cachedSlot (s : State) (n : Nat) (r : List Byte) (dirty : Bool) :
    (s.touchSlot n r dirty).cachedSlot n = some ⟨n, r, dirty, false⟩ :=
  (s.cachedSlot_front ⟨n, r, dirty, false⟩ n).trans (if_pos rfl)

theorem State.slotArrives_cachedSlot (s : State) (n : Nat) (r : List Byte) :
    (s.slotArrives n r).cachedSlot n = some ⟨n, r, false, true⟩ ∧
    ∀ m, m ≠ n → (s.slotArrives n r).cachedSlot m = s.cachedSlot m :=
  ⟨(s.cachedSlot_front ⟨n, r, false, true⟩ n).trans (if_pos rfl),
    fun m hm => (s.cachedSlot_front ⟨n, r, false, true⟩ m).trans (if_neg hm)⟩

theorem State.evictWay_of_room {s : State} {set : Nat} (h : (s.keyWays set).length < 16) : s.evictWay set = s :=
  if_pos h

/-! ### A slot is fetched (R262, R263) -/

/-- The bytes of a slot's record have been read, and the miss is counted. -/
def State.slotMissed (s : State) (slot : Nat) (ecc : EccResult) : State :=
  (s.memRead ecc (s.slotAddr slot)).wrapBy F.CPH_CACHE_MISSES_COUNT 1

theorem State.bytes_congr {s t : State} (h : t.mem = s.mem) (a n : Nat) : t.bytes a n = s.bytes a n := by
  induction n generalizing a with
  | zero => rfl
  | succ n ih => rw [State.bytes, State.bytes, ih, State.byte_congr h]

theorem State.slotMissed_bytes (s : State) (slot : Nat) (ecc : EccResult) :
    (s.slotMissed slot ecc).bytes ((s.slotMissed slot ecc).slotAddr slot) 160 = s.bytes (s.slotAddr slot) 160 := by
  have haddr : (s.slotMissed slot ecc).slotAddr slot = s.slotAddr slot := by
    rw [State.slotAddr, State.plan, show (s.slotMissed slot ecc).site = s.site from s.memRead_site .., State.slotAddr]
  rw [haddr]
  exact State.bytes_congr (show (s.slotMissed slot ecc).mem = s.mem from s.memRead_mem ..) _ _

@[simp] theorem State.slotMissed_cph (s : State) (slot : Nat) (ecc : EccResult) :
    (s.slotMissed slot ecc).cph = s.cph := by
  rw [State.slotMissed, State.wrapBy, State.set_cph, State.memRead_cph]

/-- A slot joins its set after a miss: the cache alone has changed in the cipher's state, and no other slot in it. -/
theorem State.slotMissed_arrives (s : State) (slot : Nat) (ecc : EccResult) (r : List Byte) :
    ((s.slotMissed slot ecc).slotArrives slot r).cachedSlot slot = some ⟨slot, r, false, true⟩ ∧
    (∀ n, n ≠ slot → ((s.slotMissed slot ecc).slotArrives slot r).cachedSlot n = s.cachedSlot n) ∧
    ((s.slotMissed slot ecc).slotArrives slot r).cph =
      { s.cph with cache := ((s.slotMissed slot ecc).slotArrives slot r).cph.cache } := by
  obtain ⟨hslot, hother⟩ := (s.slotMissed slot ecc).slotArrives_cachedSlot slot r
  refine ⟨hslot, fun n hn => (hother n hn).trans (State.cachedSlot_congr (by rw [State.slotMissed_cph]) n), ?_⟩
  rw [State.slotArrives, State.setKeyWays, State.withCph_cph, State.slotMissed_cph]

theorem State.slotMissed_misses (s : State) (slot : Nat) (ecc : EccResult) :
    (s.slotMissed slot ecc).get F.CPH_CACHE_MISSES_COUNT = (s.get F.CPH_CACHE_MISSES_COUNT + 1) % 2 ^ 64 := by
  rw [State.slotMissed, State.wrapBy, State.get_set_same _ _ (by decide) (by decide),
    s.memRead_get _ _ (by decide) (by decide)]
  rfl

/-- The keys that unwrap a record come from the epoch alone. -/
theorem State.unwrapRecord_slotMissed (s : State) (slot n : Nat) (b : List Byte) :
    (s.slotMissed slot .clean).unwrapRecord n b = s.unwrapRecord n b := by
  have hepoch : (s.slotMissed slot .clean).epoch = s.epoch := by
    rw [State.epoch, State.epoch, State.slotMissed, State.wrapBy, State.rd_set_ne _ _ (by decide),
      State.rd_set_ne _ _ (by decide)]
    rfl
  rw [State.unwrapRecord, State.slotKey, hepoch, State.unwrapRecord, State.slotKey]

section
variable {s : State} {slot p q : Nat} (hheld : s.cphHeld = false) (hwant : s.slotWanted slot = some (p, q))
  (hmiss : s.cachedSlot slot = none) (hroom : (s.keyWays (slot % 1024)).length < 16)
include hheld hwant hmiss hroom

/-- A slot that a waiting request looks for is fetched into a set that has room for it; one whose record cannot be read
counts as empty, and is reported. -/
theorem exec_keySlotFetch (ecc : EccResult) :
    exec (.keySlotFetch slot ecc) s = .next
      ((if ecc.bad || s.poisoned (s.slotAddr slot) 160 then none
        else (s.slotMissed slot ecc).unwrapRecord slot (s.bytes (s.slotAddr slot) 160)).elim
      (((s.slotMissed slot ecc).slotArrives slot (krEmptied (s.bytes (s.slotAddr slot) 160))).cphFault 0x06 p q slot)
      ((s.slotMissed slot ecc).slotArrives slot)) := by
  have hfree : ¬ (s.cphHeld = true ∨ s.setFull (slot % 1024) = true) := by
    simp [hheld, State.setFull, hroom]
  have hways : (s.memRead ecc (s.slotAddr slot)).evictWay (slot % 1024) = s.memRead ecc (s.slotAddr slot) :=
    State.evictWay_of_room (by rw [State.keyWays, s.memRead_cph]; exact hroom)
  show execKeySlotFetch slot ecc s = _
  rw [execKeySlotFetch, hmiss, hwant]
  dsimp only
  rw [if_neg hfree, hways, ← State.slotMissed, State.slotMissed_bytes]
  generalize (if (ecc.bad || s.poisoned (s.slotAddr slot) 160) = true then none
    else (s.slotMissed slot ecc).unwrapRecord slot (s.bytes (s.slotAddr slot) 160)) = found
  cases found with
  | none => rfl
  | some r => rfl

/-- The record of a slot that unwraps joins the set. -/
theorem exec_keySlotFetch_good {r : List Byte} (hclean : s.poisoned (s.slotAddr slot) 160 = false)
    (hr : s.unwrapRecord slot (s.bytes (s.slotAddr slot) 160) = some r) :
    exec (.keySlotFetch slot .clean) s = .next ((s.slotMissed slot .clean).slotArrives slot r) := by
  rw [exec_keySlotFetch hheld hwant hmiss hroom, if_neg (by simp [hclean]), State.unwrapRecord_slotMissed, hr,
    Option.elim_some]

/-- A record that cannot be read joins the set as an empty one, and is reported. -/
theorem exec_keySlotFetch_bad {ecc : EccResult} (hbad : (ecc.bad || s.poisoned (s.slotAddr slot) 160) = true) :
    exec (.keySlotFetch slot ecc) s = .next (((s.slotMissed slot ecc).slotArrives slot
      (krEmptied (s.bytes (s.slotAddr slot) 160))).cphFault 0x06 p q slot) := by
  rw [exec_keySlotFetch hheld hwant hmiss hroom, if_pos hbad, Option.elim_none]

end

/-! ### Admission (R254, R257, R259) -/

/-- The header at place `index` of a pair's front end has been taken, and its slot found in the cache. -/
def State.cphTaken (s : State) (pair index : Nat) : State :=
  (s.setInbox (cphEp pair) ((s.inboxOf (cphEp pair)).eraseIdx index)).wrapBy F.CPH_CACHE_HITS_COUNT 1

/-- An admitted request joins those of its pair; the content `rec` of its slot stands in front of its set. -/
def State.cphJoin (s : State) (rec : List Byte) (dirty : Bool) (r : CphReq) : State :=
  ((s.touchSlot r.slot rec dirty).wrapBy (F.CPH_Q_REQS_COUNT r.queue) 1).setReqs (s.cph.reqs ++ [r])

/-- The slot content that an admitted operation leaves: one that takes a number leaves the next. -/
def recAfter (op : Nat) (rec : List Byte) : List Byte := if opFramed op then krSetSeq rec (krSeq rec + 1) else rec

/-- A command with inline input `inl` of operation `op`, admitted at pair `p` with the sequence number `seq` over the
slot content `rec`. -/
def State.inlineReq (s : State) (p : Nat) (m : Packet) (op : Nat) (b inl rec : List Byte) (seq : Nat) : CphReq :=
  ⟨hGet m.words CH.dstQueue, p, false, true, m.words, op, b, [], inl, hGet m.words CH.keySlot, rec, seq, 0, 0, 0, [],
    cphQCompat s.plan (hGet m.words CH.dstQueue), s.get (F.CPH_Q_NEXT_NEXT_EP (hGet m.words CH.dstQueue)),
    s.get (F.CPH_Q_NEXT_NEXT_QUEUE (hGet m.words CH.dstQueue)), none, none⟩

section
variable {s : State} {pair index : Nat} {m : Packet}
  (hready : s.ready = true) (hheld : s.epHeld (cphEp pair) = false)
  (hm : (s.inboxOf (cphEp pair))[index]? = some m)
  (hfirst : ((s.inboxOf (cphEp pair)).take index).any
    (fun (x : Packet) => hGet x.words CH.dstQueue == hGet m.words CH.dstQueue) = false)
  (hcross : s.cphCrossed pair m = none)
include hready hheld hm hfirst hcross

/-- The front end of a pair checks the first header of its queue. -/
theorem exec_cphAdmission_checked (ecc : EccResult) :
    exec (.cphAdmission pair index ecc) s = .next (s.cphCheck
      (s.setInbox (cphEp pair) ((s.inboxOf (cphEp pair)).eraseIdx index)) pair m ecc) := by
  show execCphAdmission pair index ecc s = _
  rw [execCphAdmission]
  dsimp only
  rw [hm]
  dsimp only
  rw [hcross, if_neg (by simp [hready, hheld, hfirst])]

end

/-- A header of a kind that the cipher does not take is dropped (R254). -/
theorem State.cphCheck_foreign {m : Packet} (h : hGet m.words CH.kind ≠ kCommand ∧ hGet m.words CH.kind ≠ kPacket)
    (s taken : State) (pair : Nat) (ecc : EccResult) :
    s.cphCheck taken pair m ecc = (taken.count F.CPH_PKT_DROP_COUNT).cphFault 0x01 pair (hGet m.words CH.dstQueue)
      (hGet m.words CH.keySlot) :=
  if_pos h

/-- A command with inline input that waits first of its queue at pair `pair`, that passes every check of Table 10-2, and
whose slot is in the cache. -/
structure State.AdmitsInline (s : State) (pair index op : Nat) (m : Packet) (b inl : List Byte) (way : KeyWay) :
    Prop where
  ready : s.ready = true
  held : s.epHeld (cphEp pair) = false
  waits : (s.inboxOf (cphEp pair))[index]? = some m
  first : ((s.inboxOf (cphEp pair)).take index).any
    (fun (x : Packet) => hGet x.words CH.dstQueue == hGet m.words CH.dstQueue) = false
  kind : hGet m.words CH.kind = kCommand
  queue : s.cphQueueOk pair m = true
  crossed : s.cphCrossed pair m = none
  moving : s.cphMoving (hGet m.words CH.dstQueue) = false
  td : cphQShared s.plan (hGet m.words CH.dstQueue) = true ∨
    hGet m.words CH.td = cphQTd s.plan (hGet m.words CH.dstQueue)
  good : m.poison = false ∧ hGet m.words CH.poison = 0
  parses : cphParse (s.get (F.CPH_Q_CFG_INLINE_OP (hGet m.words CH.dstQueue))) m = some (op, b, [], inl)
  inRange : cphSlotInRange s.plan (hGet m.words CH.dstQueue) (hGet m.words CH.keySlot) = true
  cached : s.cachedSlot (hGet m.words CH.keySlot) = some way
  looked : way.fetched = false
  valid : krState way.record = 1
  owner : krOwner way.record = hGet m.words CH.td
  fits : opFits op way.record = true
  mode : pbModeOk op b way.record = true
  inline : pbRef b = false
  out : outputMax op (cphQCompat s.plan (hGet m.words CH.dstQueue)) b ≤ 65535
  len : lengthOk op (cphQCompat s.plan (hGet m.words CH.dstQueue)) b way.record inl = true
  serves : s.pairState pair = 0

/-- Its queue serves it, and it goes on to the checks of its slot. -/
theorem State.AdmitsInline.cphCheck {s : State} {pair index op : Nat} {m : Packet} {b inl : List Byte} {way : KeyWay}
    (h : s.AdmitsInline pair index op m b inl way) (taken : State) (ecc : EccResult) :
    s.cphCheck taken pair m ecc = (taken.cphLookup (hGet m.words CH.keySlot) way).cphAdmit pair
      (hGet m.words CH.dstQueue) (hGet m.words CH.keySlot) m op b [] inl way.record ecc := by
  obtain ⟨hgood, hmark⟩ := h.good
  have htd : ¬ ((!cphQShared s.plan (hGet m.words CH.dstQueue)) = true ∧
      hGet m.words CH.td ≠ cphQTd s.plan (hGet m.words CH.dstQueue)) := by
    rcases h.td with hshared | howned
    · simp [hshared]
    · simp [howned]
  rw [State.cphCheck, if_neg (by simp [h.kind]), if_neg (by simp [h.serves]), if_neg (by simp [h.serves]),
    if_neg (by simp [h.queue]), if_neg (by simp [h.moving]), if_neg htd, if_neg (by simp [hgood, hmark]), h.parses]
  dsimp only
  rw [if_neg (by simp [h.inRange]), h.cached]

/-- A lookup finds the slot of a request that has not missed it. -/
theorem State.cphLookup_hit (s : State) (slot : Nat) {way : KeyWay} (h : way.fetched = false) :
    s.cphLookup slot way = s.wrapBy F.CPH_CACHE_HITS_COUNT 1 :=
  if_neg (by simp [h])

theorem State.cphTaken_get_ne (s : State) (pair index : Nat) {f : Fld} (h : f.off ≠ R.CPH_CACHE_HITS) :
    (s.cphTaken pair index).get f = s.get f :=
  State.get_set_ne _ _ h

theorem State.cphTaken_hits (s : State) (pair index : Nat) :
    (s.cphTaken pair index).get F.CPH_CACHE_HITS_COUNT = (s.get F.CPH_CACHE_HITS_COUNT + 1) % 2 ^ 64 :=
  State.get_set_same _ _ (by decide) (by decide)

theorem State.cphTaken_pairState (s : State) (pair index p : Nat) :
    (s.cphTaken pair index).pairState p = s.pairState p :=
  s.cphTaken_get_ne pair index (by simp only [R.CPH_PAIR_STATE, R.CPH_CACHE_HITS]; omega)

theorem State.cphTaken_inlineReq (s : State) (pair index p : Nat) (m : Packet) (op : Nat) (b inl rec : List Byte)
    (seq : Nat) : (s.cphTaken pair index).inlineReq p m op b inl rec seq = s.inlineReq p m op b inl rec seq := by
  have hnext : ∀ q, R.CPH_Q_NEXT q ≠ R.CPH_CACHE_HITS := fun q => by
    simp only [R.CPH_Q_NEXT, R.CPH_CACHE_HITS]
    omega
  rw [State.inlineReq, s.cphTaken_get_ne pair index (hnext _), s.cphTaken_get_ne pair index (hnext _)]
  rfl

/-- What an admission does to the state: the request joins those of its pair, its queue and the hits of the cache are
counted, and its header has left the front end. -/
theorem State.admission_spec (s : State) (pair index : Nat) (rec : List Byte) (dirty : Bool) (r : CphReq) :
    ((s.cphTaken pair index).cphJoin rec dirty r).get (F.CPH_Q_REQS_COUNT r.queue) =
      (s.get (F.CPH_Q_REQS_COUNT r.queue) + 1) % 2 ^ 64 ∧
    ((s.cphTaken pair index).cphJoin rec dirty r).get F.CPH_CACHE_HITS_COUNT =
      (s.get F.CPH_CACHE_HITS_COUNT + 1) % 2 ^ 64 ∧
    ((s.cphTaken pair index).cphJoin rec dirty r).cachedSlot r.slot = some ⟨r.slot, rec, dirty, false⟩ ∧
    s.sameRegs ((s.cphTaken pair index).cphJoin rec dirty r) [R.CPH_Q_REQS r.queue, R.CPH_CACHE_HITS] ∧
    s.sameBut ((s.cphTaken pair index).cphJoin rec dirty r) [.regs, .cph, .prm] := by
  have hne : R.CPH_Q_REQS r.queue ≠ R.CPH_CACHE_HITS := by
    simp only [R.CPH_Q_REQS, R.CPH_CACHE_HITS]
    omega
  refine ⟨?_, ?_, State.touchSlot_cachedSlot .., ?_, ?_⟩
  · rw [State.cphJoin, State.setReqs_get, State.wrapBy, State.get_set_same _ _ (by simp) (by simp)]
    exact congrArg (fun n => (n + 1) % 2 ^ 64) (s.cphTaken_get_ne (f := F.CPH_Q_REQS_COUNT r.queue) pair index hne)
  · rw [State.cphJoin, State.setReqs_get, State.wrapBy, State.get_set_ne _ _ hne.symm]
    exact s.cphTaken_hits pair index
  · exact .withCph (.set (.withCph (.set (.withPrm (.refl s _) _) _ (by simp)) _) _ (by simp)) _
  · exact .withCph (.withRegs (.withCph (.withRegs (.withPrm (.refl s _) _) _) _) _) _

section
variable {s : State} {pair index op : Nat} {m : Packet} {b inl : List Byte} {way : KeyWay}
  (h : s.AdmitsInline pair index op m b inl way)
  (hnumber : opFramed op = false ∨ opInbound op = false ∧ krSeq way.record < seqMax way.record)
include h hnumber

/-- Checks 4 to 8 (Table 10-2): an outbound operation takes `SEQ` while it lasts, which its cached record counts on; an
unframed one has no number (R259). -/
theorem State.AdmitsInline.cphAdmit (ecc : EccResult) :
    (s.cphTaken pair index).cphAdmit pair (hGet m.words CH.dstQueue) (hGet m.words CH.keySlot) m op b [] inl way.record
      ecc = (s.cphTaken pair index).cphJoin (recAfter op way.record) (opFramed op || way.dirty)
        (s.inlineReq pair m op b inl way.record (if opFramed op then krSeq way.record else 0)) := by
  have hcached : (s.cphTaken pair index).cachedSlot (hGet m.words CH.keySlot) = some way := h.cached
  have hplan : (s.cphTaken pair index).plan = s.plan := rfl
  have hserves : (s.cphTaken pair index).pairState pair = 0 := (s.cphTaken_pairState pair index pair).trans h.serves
  have hcommand : (hGet m.words CH.kind == kPacket) = false := by rw [h.kind]; rfl
  have hshort : ¬ 65535 < outputMax op (cphQCompat s.plan (hGet m.words CH.dstQueue)) b := Nat.not_lt.mpr h.out
  have houtbound : (opFramed op && !opInbound op) = opFramed op := by
    rcases hnumber with hfr | ⟨hdir, -⟩
    · simp [hfr]
    · simp [hdir]
  have hleft : ¬ (opFramed op = true ∧ seqMax way.record ≤ krSeq way.record) := by
    rcases hnumber with hfr | ⟨-, hlt⟩
    · simp [hfr]
    · simp [hlt]
  have hinbound : ¬ (opFramed op = true ∧ opInbound op = true) := by
    rcases hnumber with hfr | ⟨hdir, -⟩
    · simp [hfr]
    · simp [hdir]
  rw [← State.cphTaken_inlineReq s pair index, State.cphAdmit]
  dsimp only
  rw [hplan, if_neg (by simp [h.mode, hshort]), if_neg (by simp [h.inRange, h.valid, h.owner, h.fits]),
    if_neg (by simp [h.inline, h.len]), if_neg (by simp [h.inline]), houtbound, if_neg hleft,
    if_neg (fun hseen => hinbound ⟨hseen.1, hseen.2.1⟩), h.inline, if_pos hserves, hcommand, hcached, recAfter]
  cases opFramed op with
  | false => rfl
  | true => rfl

theorem State.AdmitsInline.exec (ecc : EccResult) :
    exec (.cphAdmission pair index ecc) s = .next ((s.cphTaken pair index).cphJoin (recAfter op way.record)
      (opFramed op || way.dirty)
      (s.inlineReq pair m op b inl way.record (if opFramed op then krSeq way.record else 0))) := by
  rw [exec_cphAdmission_checked h.ready h.held h.waits h.first h.crossed, h.cphCheck, State.cphLookup_hit _ _ h.looked,
    ← State.cphTaken, h.cphAdmit hnumber]

end

/-! ### Computation (R266, R267) -/

theorem State.cphFinish_some {s : State} {r : CphReq} {o : List Byte} {nx : Nat}
    (h : cipherCompute r.op r.compat r.par r.record r.input r.seq = some (o, nx)) :
    s.cphFinish r = ({ r with phase := 2, output := o, next := nx }, s) := by
  rw [State.cphFinish, h]

/-- An authentication failure gives a free status that is not zero, and is counted. -/
theorem State.cphFinish_none {s : State} {r : CphReq}
    (h : cipherCompute r.op r.compat r.par r.record r.input r.seq = none) :
    s.cphFinish r = ({ r with phase := 2, status := s.takeFree.1.toNat % 239 + 1 },
      s.takeFree.2.count F.CPH_AUTH_FAIL_COUNT) := by
  rw [State.cphFinish, h]

/-- The end of a computation counts authentication failures and leaves every other register and the cipher's state. -/
theorem State.cphFinish_frame (s : State) (r : CphReq) :
    (s.cphFinish r).2.cph = s.cph ∧ s.sameRegs (s.cphFinish r).2 [R.CPH_AUTH_FAIL] := by
  cases h : cipherCompute r.op r.compat r.par r.record r.input r.seq with
  | some x =>
    rw [State.cphFinish_some h]
    exact ⟨rfl, .refl s _⟩
  | none =>
    rw [State.cphFinish_none h]
    exact ⟨rfl, .set (a := s.takeFree.2) (.refl s _) _ (by simp)⟩

theorem State.sameBut.cphFinish {s a : State} {l : List Part} (h : s.sameBut a l) (r : CphReq)
    (hl : [.regs, .free] ⊆ l := by decide) : s.sameBut (a.cphFinish r).2 l := by
  rw [State.cphFinish]
  split
  · exact h
  · exact (h.withFree _ (hl (by simp))).withRegs _ (hl (by simp))

/-- The second computation of a request has agreed: counted and recorded, with the request's queue and slot. -/
def State.corrected (s : State) (r : CphReq) : State :=
  ((s.count F.CPH_MM_CORRECTED_COUNT).cphFault 0x08 r.pair r.queue r.slot).sets [(F.CPH_PAIR_MM_LAST_VALID r.pair, 1),
    (F.CPH_PAIR_MM_LAST_QUEUE r.pair, r.queue), (F.CPH_PAIR_MM_LAST_SLOT r.pair, r.slot)]

/-- A correction changes CPH's error registers, `CPH_MM_CORRECTED` and its pair's `CPH_PAIR_MM_LAST` alone. -/
theorem State.corrected_get (s : State) (r : CphReq) {f : Fld} (h : f.off ≠ R.CPH_PAIR_MM_LAST r.pair) :
    (s.corrected r).get f = ((s.count F.CPH_MM_CORRECTED_COUNT).cphFault 0x08 r.pair r.queue r.slot).get f := by
  rw [State.get, State.corrected, State.rd_sets_ne _ (by simpa using h), State.get]

theorem State.corrected_spec (s : State) {r : CphReq} (hqueue : r.queue < 256) (hslot : r.slot < 2 ^ 20) :
    (s.corrected r).hasError uCph 7 ∧
    (s.corrected r).get F.CPH_MM_CORRECTED_COUNT = min 0xFFFFFFFF (s.get F.CPH_MM_CORRECTED_COUNT + 1) ∧
    (s.corrected r).get F.CPH_AUTH_FAIL_COUNT = s.get F.CPH_AUTH_FAIL_COUNT ∧
    (s.corrected r).get (F.CPH_PAIR_MM_LAST_VALID r.pair) = 1 ∧
    (s.corrected r).get (F.CPH_PAIR_MM_LAST_QUEUE r.pair) = r.queue ∧
    (s.corrected r).get (F.CPH_PAIR_MM_LAST_SLOT r.pair) = r.slot := by
  have hlow : ∀ o, o < 0x15005000 → o ≠ R.CPH_PAIR_MM_LAST r.pair := fun o ho => by
    simp only [R.CPH_PAIR_MM_LAST]
    omega
  refine ⟨?_, ?_, ?_, ?_, ?_, ?_⟩
  · exact (s.corrected_get r (hlow _ (by decide))).trans (State.cphFault_hasError _ 0x08 _ _ _ (by decide))
  · rw [s.corrected_get r (hlow _ (by decide)), State.cphFault_get _ _ _ _ _ (by decide), State.get_count_same]
  · rw [s.corrected_get r (hlow _ (by decide)), State.cphFault_get _ _ _ _ _ (by decide)]
    exact s.get_set_ne _ (by decide)
  · rw [State.corrected, State.sets_cons, State.sets_cons, State.sets_cons, State.sets_nil,
      State.get_set_other _ _ (by simp) (by simp) (.inr (.inl (by simp))),
      State.get_set_other _ _ (by simp) (by simp) (.inr (.inl (by simp))), State.get_set_same _ _ (by simp) (by simp)]
    rfl
  · rw [State.corrected, State.sets_cons, State.sets_cons, State.sets_cons, State.sets_nil,
      State.get_set_other _ _ (by simp) (by simp) (.inr (.inl (by simp))), State.get_set_same _ _ (by simp) (by simp)]
    exact Nat.mod_eq_of_lt hqueue
  · rw [State.corrected, State.sets_cons, State.sets_cons, State.sets_cons, State.sets_nil,
      State.get_set_same _ _ (by simp) (by simp)]
    exact Nat.mod_eq_of_lt hslot

@[simp] theorem State.corrected_cph (s : State) (r : CphReq) : (s.corrected r).cph = s.cph := by
  rw [State.corrected, State.sets_cph, State.cphFault_cph, State.count_cph]

theorem State.sameBut.corrected {s a : State} {l : List Part} (h : s.sameBut a l) (r : CphReq)
    (hl : [.regs, .pcie, .aia, .out] ⊆ l := by decide) : s.sameBut (a.corrected r) l :=
  ((h.withRegs _ (hl (by simp))).fault uCph _ _ _ (by decide) hl).sets _ (hl (by simp))

section
variable {s : State} {index : Nat} {r : CphReq} (hr : s.cph.reqs[index]? = some r)
  (hserves : s.pairState r.pair = 0) (hheld : s.epHeld (cphEp r.pair) = false)
include hr hserves hheld

theorem exec_cphCompare_agree (hphase : r.phase = 0) :
    exec (.cphCompare index true) s = .next ((s.cphFinish r).2.setReqs (s.cph.reqs.set index (s.cphFinish r).1)) := by
  show execCphCompare index true s = _
  rw [execCphCompare, hr]
  dsimp only
  rw [if_neg (by simp [hphase, hserves, hheld]), if_pos rfl, (s.cphFinish_frame r).1]

theorem exec_cphCompare_mismatch (hphase : r.phase = 0) :
    exec (.cphCompare index false) s =
      .next ((s.mismatch r.pair).setReqs (s.cph.reqs.set index { r with phase := 1 })) := by
  show execCphCompare index false s = _
  rw [execCphCompare, hr]
  dsimp only
  rw [if_neg (by simp [hphase, hserves, hheld]), if_neg (by decide)]

theorem exec_cphRetryCompare_agree (hphase : r.phase = 1) :
    exec (.cphRetryCompare index true) s =
      .next (((s.cphFinish r).2.corrected r).setReqs (s.cph.reqs.set index (s.cphFinish r).1)) := by
  show execCphRetryCompare index true s = _
  rw [execCphRetryCompare, hr]
  dsimp only
  rw [if_neg (by simp), if_neg (by simp [hphase, hserves, hheld]), if_pos rfl, State.cphFault_cph, State.count_cph,
    (s.cphFinish_frame r).1, State.corrected]

/-- A second mismatch takes its pair out of service, which is kept for the instant. -/
def State.mismatchOut (s : State) (p queue slot : Nat) : State :=
  (s.secondMismatch p queue slot).withCph { (s.secondMismatch p queue slot).cph with mmQuar := some (p, s.instant) }

/-- The second computation disagrees: the pair is quarantined. -/
theorem exec_cphRetryCompare_mismatch (hphase : r.phase = 1) (hnow : r.retryAt.map Prod.snd ≠ some s.instant) :
    exec (.cphRetryCompare index false) s = .next ((s.mismatchOut r.pair r.queue r.slot).quarantine r.pair) := by
  show execCphRetryCompare index false s = _
  rw [execCphRetryCompare, hr]
  dsimp only
  rw [if_neg (by simpa using hnow), if_neg (by simp [hphase, hserves, hheld]), if_neg (by decide),
    State.mismatchOut]

end

/-- A second computation that disagrees as the operator takes its pair out of service is recorded all the same. -/
theorem exec_cphRetryCompare_marked {s : State} {index p : Nat} {r : CphReq} (hr : s.cph.reqs[index]? = some r)
    (hmark : r.retryAt = some (p, s.instant)) :
    exec (.cphRetryCompare index false) s = .next ((s.secondMismatch p r.queue r.slot).setReqs
      (s.cph.reqs.set index { r with retryAt := none })) := by
  show execCphRetryCompare index false s = _
  rw [execCphRetryCompare, hr]
  dsimp only
  rw [if_pos (by simp [hmark]), hmark]
  rfl

end Sys2Proof.Machine
end

section
/-! SUPPORT. Mismatches of a cipher pair's pipelines and its quarantine, for O35. -/

namespace Sys2Proof.Machine

set_option Elab.async false

/-! ### Mismatches (R267, Table 10-10) -/

theorem State.mismatch_count (s : State) (p : Nat) :
    (s.mismatch p).get (F.CPH_PAIR_STATE_MM_COUNT p) = min 0xFFFF (s.get (F.CPH_PAIR_STATE_MM_COUNT p) + 1) := by
  have hlt : s.get (F.CPH_PAIR_STATE_MM_COUNT p) < 2 ^ 16 := bitsAt_lt ..
  rw [State.mismatch, State.get_set_same _ _ (by simp) (by simp)]
  simp only [satInc]
  split <;> omega

theorem State.mismatch_pairState (s : State) (p : Nat) : (s.mismatch p).pairState p = s.pairState p :=
  s.get_set_other _ (by simp) (by simp) (.inr (.inr (by simp)))

@[simp] theorem State.mismatch_cph (s : State) (p : Nat) : (s.mismatch p).cph = s.cph := s.set_cph ..

/-- A second mismatch is counted at its pair and recorded, and is an error of the pair's tile. -/
theorem State.secondMismatch_spec (s : State) (p queue slot : Nat) :
    (s.secondMismatch p queue slot).get (F.CPH_PAIR_STATE_MM_COUNT p) =
      min 0xFFFF (s.get (F.CPH_PAIR_STATE_MM_COUNT p) + 1) ∧
    (s.secondMismatch p queue slot).pairState p = s.pairState p ∧
    (s.secondMismatch p queue slot).hasError uCph 8 := by
  have hreg : errCount uCph < R.CPH_PAIR_STATE p := by
    simp only [errCount, unitOff, uCph, R.CPH_PAIR_STATE]
    omega
  have hget : ∀ f : Fld, f.off = R.CPH_PAIR_STATE p →
      (s.secondMismatch p queue slot).get f = (s.mismatch p).get f := fun f hf => by
    rw [State.secondMismatch, State.tileUe_get _ _ (hf ▸ Nat.lt_trans (by decide) hreg),
      State.cphFault_get _ _ _ _ _ (hf ▸ hreg)]
  refine ⟨(hget _ rfl).trans (s.mismatch_count p), (hget _ rfl).trans (s.mismatch_pairState p), ?_⟩
  exact (State.tileUe_get _ _ (by decide)).trans (State.cphFault_hasError _ 0x09 _ _ _ (by decide))

@[simp] theorem State.secondMismatch_cph (s : State) (p queue slot : Nat) :
    (s.secondMismatch p queue slot).cph = s.cph := by
  rw [State.secondMismatch, State.tileUe_cph, State.cphFault_cph, State.mismatch_cph]

theorem State.sameBut.secondMismatch {s a : State} {l : List Part} (h : s.sameBut a l) (p queue slot : Nat)
    (hl : [.regs, .tiles, .pcie, .aia, .out] ⊆ l := by decide) : s.sameBut (a.secondMismatch p queue slot) l :=
  ((h.withRegs _ (hl (by simp))).fault uCph _ _ _ (by decide) (List.Subset.trans (by decide) hl)).tileUe _ hl

/-- Beside the pair taken out, the state after a second mismatch is that of the mismatch. -/
theorem State.mismatchOut_spec (s : State) (p queue slot : Nat) :
    (s.mismatchOut p queue slot).get (F.CPH_PAIR_STATE_MM_COUNT p) =
      min 0xFFFF (s.get (F.CPH_PAIR_STATE_MM_COUNT p) + 1) ∧
    (s.mismatchOut p queue slot).hasError uCph 8 ∧
    (s.mismatchOut p queue slot).cph = { s.cph with mmQuar := some (p, s.instant) } := by
  obtain ⟨hcount, -, herr⟩ := s.secondMismatch_spec p queue slot
  refine ⟨(State.withCph_get ..).trans hcount, State.hasError_congr (State.withCph_regs ..) herr, ?_⟩
  rw [State.mismatchOut, State.withCph_cph, State.secondMismatch_cph]

/-! ### Quarantine (R268, R269) -/

/-- A part of the state that no step of a fold touches is none that the fold touches. -/
theorem State.sameBut.foldl {α : Type} {s a : State} {l : List Part} (g : State → α → State)
    (hg : ∀ (b : State) (x : α), s.sameBut b l → s.sameBut (g b x) l) (h : s.sameBut a l) {xs : List α} :
    s.sameBut (xs.foldl g a) l := by
  induction xs generalizing a with
  | nil => exact h
  | cons x xs ih => exact ih (hg a x h)

/-- A pair's state is QUARANTINED, with no test passed. -/
def State.pairLeaves (s : State) (p : Nat) : State :=
  s.sets [(F.CPH_PAIR_STATE_STATE p, 1), (F.CPH_PAIR_STATE_TEST_PASS p, 0)]

/-- The first `n` queues go to their alternates, where `p` is their pair and they have one. -/
def State.toAlternates (s : State) (p n : Nat) : State :=
  (List.range n).foldl (fun (s : State) q =>
    if cphQPresent s.plan q ∧ cphQPair s.plan q = p ∧ cphQAlt s.plan q ≠ 0xFF then s.set (F.CPH_Q_STATE_ON_ALT q) 1
    else s) s

/-- The requests that a pair sends across to their alternates. -/
def State.cphLeaving (s : State) (p : Nat) : List CphReq :=
  s.cph.reqs.filter fun (r : CphReq) => r.pair == p && decide (r.phase < 2) && s.cphForwards p r.queue

@[simp] theorem State.toAlternates_cph (s : State) (p n : Nat) : (s.toAlternates p n).cph = s.cph :=
  foldl_part State.cph _ _ s fun s q => by
    split
    · exact s.set_cph ..
    · rfl

theorem State.sameBut.toAlternates {s a : State} {l : List Part} (h : s.sameBut a l) (p n : Nat)
    (hl : .regs ∈ l := by decide) : s.sameBut (a.toAlternates p n) l :=
  .foldl _ (fun b q hb => by
    split
    · exact hb.withRegs _ hl
    · exact hb) h

theorem State.toAlternates_rd_ne (s : State) (p : Nat) {n r : Nat} (h : ∀ q < n, r ≠ R.CPH_Q_STATE q) :
    (s.toAlternates p n).rd r = s.rd r := by
  induction n with
  | zero => rfl
  | succ n ih =>
    have hrest := ih fun q hq => h q (by omega)
    rw [State.toAlternates, List.range_succ, List.foldl_append, ← State.toAlternates, List.foldl_cons, List.foldl_nil]
    split
    · rw [State.rd_set_ne _ _ (h n (by omega)), hrest]
    · exact hrest

/-- The requests that pair `p` sends across are packets that it hands to its station. -/
def State.sendAll (s : State) (p : Nat) (l : List CphReq) : State :=
  l.foldl (fun (s : State) r => s.cphSendAcross p r) s

theorem State.sendAll_eq_withPrm (s : State) (p : Nat) (l : List CphReq) :
    s.sendAll p l = s.withPrm (s.sendAll p l).prm := by
  induction l generalizing s with
  | nil => rfl
  | cons r l ih => exact ih (s.cphSendAcross p r)

/-- The queues of a pair that leaves service go to their alternates. -/
def State.pairOut (s : State) (p : Nat) : State := (s.pairLeaves p).toAlternates p 256

theorem State.quarantine_eq (s : State) (p : Nat) :
    s.quarantine p = ((s.pairOut p).setReqs ((s.pairOut p).cph.reqs.map ((s.pairOut p).cphForwardReq p))).sendAll p
      ((s.pairOut p).cphLeaving p) := by
  unfold State.quarantine State.sendAll State.cphLeaving State.pairOut State.toAlternates State.pairLeaves
  rfl

theorem State.pairOut_get (s : State) (p : Nat) {f : Fld} (h : ∀ q < 256, f.off ≠ R.CPH_Q_STATE q) :
    (s.pairOut p).get f = (s.pairLeaves p).get f := by
  rw [State.get, State.pairOut, State.toAlternates_rd_ne _ _ h, State.get]

@[simp] theorem State.pairOut_cph (s : State) (p : Nat) : (s.pairOut p).cph = s.cph := by
  rw [State.pairOut, State.toAlternates_cph, State.pairLeaves, State.sets_cph]

/-- What the quarantine of a pair does to its registers, to CPH's conditions and to its unfinished requests, which cross
to their alternates or end. -/
theorem State.quarantine_spec (s : State) (p : Nat) :
    (s.quarantine p).pairState p = 1 ∧
    (s.quarantine p).get (F.CPH_PAIR_STATE_TEST_PASS p) = 0 ∧
    (s.quarantine p).get (F.CPH_PAIR_STATE_MM_COUNT p) = s.get (F.CPH_PAIR_STATE_MM_COUNT p) ∧
    (∀ b, s.hasError uCph b → (s.quarantine p).hasError uCph b) ∧
    (s.quarantine p).cph = { s.cph with reqs := s.cph.reqs.map ((s.pairOut p).cphForwardReq p) } := by
  have hget : ∀ f : Fld, (∀ q < 256, f.off ≠ R.CPH_Q_STATE q) → (s.quarantine p).get f = (s.pairLeaves p).get f := by
    intro f hf
    rw [State.quarantine_eq, State.sendAll_eq_withPrm, State.withPrm_get, State.setReqs, State.withCph_get,
      s.pairOut_get p hf]
  have hpair : ∀ f : Fld, f.off = R.CPH_PAIR_STATE p → (s.quarantine p).get f = (s.pairLeaves p).get f :=
    fun f hf => hget f fun q hq => by
      simp only [hf, R.CPH_PAIR_STATE, R.CPH_Q_STATE]
      omega
  refine ⟨(hpair _ rfl).trans ?_, (hpair _ rfl).trans ?_, (hpair _ rfl).trans ?_, fun b hb => ?_, ?_⟩
  · rw [State.pairLeaves, State.sets_cons, State.sets_cons, State.sets_nil,
      State.get_set_other _ _ (by simp) (by simp) (.inr (.inr (by simp))), State.get_set_same _ _ (by simp) (by simp)]
    rfl
  · rw [State.pairLeaves, State.sets_cons, State.sets_cons, State.sets_nil, State.get_set_same _ _ (by simp) (by simp)]
    rfl
  · rw [State.pairLeaves, State.sets_cons, State.sets_cons, State.sets_nil,
      State.get_set_other _ _ (by simp) (by simp) (.inr (.inl (by simp))),
      State.get_set_other _ _ (by simp) (by simp) (.inr (.inl (by simp)))]
  · have hne : errStatus uCph ≠ R.CPH_PAIR_STATE p := by
      simp only [errStatus, unitOff, uCph, R.CPH_PAIR_STATE]
      omega
    refine (hget _ fun q _ => ?_).trans (Eq.trans ?_ hb)
    · simp only [errStatus, unitOff, uCph, R.CPH_Q_STATE]
      omega
    · exact ((s.set _ 1).get_set_ne _ hne).trans (s.get_set_ne _ hne)
  · rw [State.quarantine_eq, State.sendAll_eq_withPrm, State.withPrm_cph, State.setReqs, State.withCph_cph,
      State.pairOut_cph]

/-- The requests of other pairs stay as they are. -/
theorem State.quarantine_req_ne {s : State} {p i : Nat} {x : CphReq} (hx : s.cph.reqs[i]? = some x) (hne : x.pair ≠ p) :
    (s.quarantine p).cph.reqs[i]? = some x := by
  obtain ⟨-, -, -, -, hcph⟩ := s.quarantine_spec p
  rw [hcph, List.getElem?_map, hx, Option.map_some, State.cphForwardReq, if_pos (.inl hne)]

theorem State.sameBut.quarantine {s a : State} {l : List Part} (h : s.sameBut a l) (p : Nat)
    (hl : [.regs, .cph, .prm] ⊆ l := by decide) : s.sameBut (a.quarantine p) l := by
  rw [State.quarantine_eq, State.sendAll_eq_withPrm]
  have hout : s.sameBut (a.pairOut p) l := .toAlternates (h.sets _ (hl (by simp))) _ _ (hl (by simp))
  exact (hout.withCph _ (hl (by simp))).withPrm _ (hl (by simp))

end Sys2Proof.Machine
end

section
/-! SUPPORT. The release of cipher results, and O35. -/

namespace Sys2Proof.Machine

set_option Elab.async false

/-! ### Release (R255, R258, R259) -/

/-- The completion of a command request (R258). -/
def State.cphCompletion (s : State) (pair : Nat) (w : List Word) (status operand : Nat) (payload : List Byte) :
    Packet :=
  ⟨(hSets (unitCompletion w (cphEp pair) status 0 payload.length (s.timeNs 0) (s.timeFrac 0))
    [(CH.dstQueue, hGet w CH.operand / 2 ^ 24), (CH.flowHash, hGet w CH.flowHash), (CH.actionRef, hGet w CH.actionRef),
      (CH.user, hGet w CH.user), (CH.operandLow, operand)]).set 4 (w.getD 4 0), payload, false⟩

theorem State.cphAnswer_eq_send (s : State) (pair : Nat) (w : List Word) (status computed next outLen : Nat)
    (payload : List Byte) :
    s.cphAnswer pair w status computed next outLen payload = s.send (cphEp pair) (s.cphCompletion pair w status
      (computed % 256 * 2 ^ 32 + next % 256 * 2 ^ 24 + outLen % 2 ^ 24) payload) := rfl

/-- A refused command is answered with its status and its computing pair alone. -/
theorem State.cphRefuse_command (s : State) (pair : Nat) (w : List Word) (status : Nat) :
    s.cphRefuse pair false w status =
      s.send (cphEp pair) (s.cphCompletion pair w status (pair % 256 * 2 ^ 32) []) := by
  rw [State.cphRefuse, if_neg (by decide), State.cphAnswer_eq_send]
  simp

/-- What a completion is made of in the state, and where it is handed over, is the same before and after a change beside
the mesh and the timebases. -/
theorem State.send_completion_prm {s t : State} (hprm : t.prm = s.prm) (htb : t.tb = s.tb) (ep pair : Nat)
    (w : List Word) (status operand : Nat) (payload : List Byte) :
    (t.send ep (t.cphCompletion pair w status operand payload)).prm =
      (s.send ep (s.cphCompletion pair w status operand payload)).prm := by
  have htime : t.tbVal 0 = s.tbVal 0 := by rw [State.tbVal, State.tbase, htb, State.tbVal, State.tbase]
  rw [State.send, State.send, State.cphCompletion, State.cphCompletion, State.timeNs, State.timeFrac, State.timeNs,
    State.timeFrac, htime, hprm]
  rfl

/-- The requests without the one at place `index`. -/
def State.cphDone (s : State) (index : Nat) : State := s.setReqs (s.cph.reqs.eraseIdx index)

@[simp] theorem State.cphDone_cph (s : State) (index : Nat) :
    (s.cphDone index).cph = { s.cph with reqs := s.cph.reqs.eraseIdx index } :=
  s.setReqs_cph _

@[simp] theorem State.cphDone_prm (s : State) (index : Nat) : (s.cphDone index).prm = s.prm := s.withCph_prm _
@[simp] theorem State.cphDone_tb (s : State) (index : Nat) : (s.cphDone index).tb = s.tb := s.withCph_tb _
@[simp] theorem State.cphDone_get (s : State) (index : Nat) (f : Fld) : (s.cphDone index).get f = s.get f :=
  s.setReqs_get _ f

theorem State.sameRegs.cphDone {s a : State} {rs : List Nat} (h : s.sameRegs a rs) (index : Nat) :
    s.sameRegs (a.cphDone index) rs :=
  h.withCph _

theorem State.sameBut.cphDone {s a : State} {l : List Part} (h : s.sameBut a l) (index : Nat)
    (hl : .cph ∈ l := by decide) : s.sameBut (a.cphDone index) l :=
  h.withCph _ hl

/-- The request at place `index` has gone, and its text is counted for its pair. -/
def State.cphReleased (s : State) (index : Nat) (r : CphReq) : State :=
  (s.cphDone index).wrapBy (F.CPH_PAIR_BYTES_COUNT r.pair) (pbText r.par)

theorem State.cphReleased_bytes (s : State) (index : Nat) (r : CphReq) :
    (s.cphReleased index r).get (F.CPH_PAIR_BYTES_COUNT r.pair) =
      (s.get (F.CPH_PAIR_BYTES_COUNT r.pair) + pbText r.par) % 2 ^ 64 := by
  rw [State.cphReleased, State.wrapBy, State.get_set_same _ _ (by simp) (by simp), State.cphDone_get]
  rfl

@[simp] theorem State.cphReleased_cph (s : State) (index : Nat) (r : CphReq) :
    (s.cphReleased index r).cph = { s.cph with reqs := s.cph.reqs.eraseIdx index } := by
  rw [State.cphReleased, State.wrapBy_cph, State.cphDone_cph]

@[simp] theorem State.cphReleased_prm (s : State) (index : Nat) (r : CphReq) : (s.cphReleased index r).prm = s.prm := by
  rw [State.cphReleased, State.wrapBy_prm, State.cphDone_prm]

@[simp] theorem State.cphReleased_byte (s : State) (index : Nat) (r : CphReq) (a : Nat) :
    (s.cphReleased index r).byte a = s.byte a :=
  State.byte_congr (by rw [State.cphReleased, State.wrapBy_mem, State.cphDone, State.setReqs_mem]) a

@[simp] theorem State.cphReleased_tb (s : State) (index : Nat) (r : CphReq) : (s.cphReleased index r).tb = s.tb := by
  rw [State.cphReleased, State.wrapBy_tb, State.cphDone_tb]

theorem State.cphReleased_sameRegs (s : State) (index : Nat) (r : CphReq) :
    s.sameRegs (s.cphReleased index r) [R.CPH_PAIR_BYTES r.pair] :=
  .set (.cphDone (.refl s _) index) _ (by simp)

theorem State.sameBut.cphReleased {s a : State} {l : List Part} (h : s.sameBut a l) (index : Nat) (r : CphReq)
    (hl : [.regs, .cph] ⊆ l := by decide) : s.sameBut (a.cphReleased index r) l :=
  (h.cphDone index (hl (by simp))).withRegs _ (hl (by simp))

theorem exec_cphResultRelease {s a : State} {index : Nat} {r r' : CphReq} (hr : s.cph.reqs[index]? = some r)
    (hphase : r.phase = 2) (hfirst : firstOfQueue s.cph.reqs index r.queue = true)
    (hheld : s.epHeld (cphEp r.pair) = false) (hwin : (s.cphDone index).cphWindow r = (r', a)) :
    exec (.cphResultRelease index) s = .next (a.cphEmit r') := by
  show execCphResultRelease index s = _
  rw [execCphResultRelease, hr]
  dsimp only
  rw [if_neg (by simp [hphase, hfirst, hheld]), ← State.cphDone, hwin]

/-- A request that has failed, or whose operation is not framed, has no number to check. -/
theorem State.cphWindow_unchecked (s : State) {r : CphReq} (h : r.status ≠ 0 ∨ opFramed r.op = false) :
    s.cphWindow r = (r, s) :=
  if_pos (h.imp_right fun h => .inl (by simp [h]))

/-- A number already seen, or below the window, fails its request and is counted (R259). -/
theorem State.cphWindow_replayed {s : State} {r : CphReq} (hstatus : r.status = 0) (hframed : opFramed r.op = true)
    (hinbound : opInbound r.op = true) (hnew : r.old = none) (hgood : s.slotBad r.slot = false)
    (hseen : seqSeen (s.slotRecord r.slot) r.seq = true) :
    s.cphWindow r = ({ r with status := 0x0A }, s.count F.CPH_REPLAY_COUNT) := by
  rw [State.cphWindow, if_neg (by simp [hstatus, hframed, hinbound]), if_neg (by simp [hgood]), hnew]
  exact if_pos hseen

theorem State.cphEmit_failed {s : State} {r : CphReq} (h : r.status ≠ 0) :
    s.cphEmit r = s.cphRefuse r.pair r.packet r.words r.status :=
  if_pos h

section
variable {s : State} {r : CphReq} (hstatus : r.status = 0)
include hstatus

theorem State.cphEmit_packet (hpacket : r.packet = true) :
    s.cphEmit r = (s.wrapBy (F.CPH_PAIR_BYTES_COUNT r.pair) (pbText r.par)).send (cphEp r.pair)
      ⟨hSets r.words [(CH.len, (r.pre ++ r.output).length), (CH.dstEp, r.nextEp), (CH.dstQueue, r.nextQueue),
        (CH.offsets, 2 ^ 40 - 1)], r.pre ++ r.output, false⟩ := by
  rw [State.cphEmit, if_neg (by simp [hstatus]), if_neg (by simp [State.cphDstOk, hpacket]), if_pos hpacket]

theorem State.cphEmit_carried (hcommand : r.packet = false) (hinline : pbRef r.par = false) :
    s.cphEmit r = (s.wrapBy (F.CPH_PAIR_BYTES_COUNT r.pair) (pbText r.par)).cphAnswer r.pair r.words 0 r.pair r.next
      r.output.length r.output := by
  rw [State.cphEmit, if_neg (by simp [hstatus]), if_neg (by simp [State.cphDstOk, hinline]),
    if_neg (by simp [hcommand]), if_neg (by simp [hinline])]

theorem State.cphEmit_stored (hcommand : r.packet = false) (href : pbRef r.par = true)
    (howns : tdOwnsRange s.plan (hGet r.words CH.td) (pbDst r.par) r.output.length = true) :
    s.cphEmit r = ((s.wrapBy (F.CPH_PAIR_BYTES_COUNT r.pair) (pbText r.par)).putBytes (pbDst r.par) r.output).cphAnswer
      r.pair r.words 0 r.pair r.next r.output.length [] := by
  rw [State.cphEmit, if_neg (by simp [hstatus]), if_neg (by simp [State.cphDstOk, howns]), if_neg (by simp [hcommand]),
    if_pos href]

theorem State.cphEmit_foreign (hcommand : r.packet = false) (href : pbRef r.par = true)
    (howns : tdOwnsRange s.plan (hGet r.words CH.td) (pbDst r.par) r.output.length = false) :
    s.cphEmit r = (s.cphAddrFault r.pair r.queue r.slot (pbDst r.par)).cphRefuse r.pair false r.words 0x06 := by
  rw [State.cphEmit, if_neg (by simp [hstatus]), if_pos (by simp [State.cphDstOk, hcommand, href, howns]), hcommand]

end

/-- A range of bytes that has been written reads as what was written. -/
theorem State.putBytes_bytes (s : State) (a : Nat) (l : List Byte) : (s.putBytes a l).bytes a l.length = l := by
  induction l generalizing s a with
  | nil => rfl
  | cons b t ih =>
    rw [List.length_cons, State.bytes, State.putBytes, ih, State.byte_putBytes_out _ _ _ _ (.inl (by omega)),
      State.byte_putByte, if_pos rfl]

/-- Registers do not see what is stored in device memory. -/
theorem State.sameRegs.putBytes {s a : State} {rs : List Nat} (h : s.sameRegs a rs) (addr : Nat) (l : List Byte) :
    s.sameRegs (a.putBytes addr l) rs :=
  fun r hr => (a.putBytes_rd addr l r).trans (h r hr)

/-- A reference outside a TD's partitions is MEM's to count and record, and CPH's. -/
theorem State.cphAddrFault_spec (s : State) (pair queue slot a : Nat) :
    (s.cphAddrFault pair queue slot a).hasError uCph 4 ∧
    (s.cphAddrFault pair queue slot a).hasError uMem 0 ∧
    (s.cphAddrFault pair queue slot a).get F.MEM_PART_VIOL_COUNT = min 0xFFFFFFFF (s.get F.MEM_PART_VIOL_COUNT + 1) ∧
    (s.cphAddrFault pair queue slot a).cph = s.cph ∧ (s.cphAddrFault pair queue slot a).prm = s.prm ∧
    (s.cphAddrFault pair queue slot a).tb = s.tb := by
  refine ⟨State.cphFault_hasError _ 0x05 _ _ _ (by decide), ?_, ?_, ?_, ?_, ?_⟩
  · exact (State.cphFault_get _ _ _ _ _ (by decide)).trans (State.fault_sets_hasError _ _ _ _ (by decide))
  · rw [State.cphAddrFault, State.cphFault_get _ _ _ _ _ (by decide), State.partViolation,
      State.fault_get_ne _ _ _ _ _ _ (by decide) (by decide) (by decide) (by decide), State.get_count_same]
  · rw [State.cphAddrFault, State.cphFault_cph, State.partViolation_cph]
  · rw [State.cphAddrFault, State.cphFault_prm, State.partViolation_prm]
  · rw [State.cphAddrFault, State.cphFault, State.fault_tb, State.partViolation_tb]

theorem State.sameBut.cphAddrFault {s a : State} {l : List Part} (h : s.sameBut a l) (pair queue slot addr : Nat)
    (hl : [.regs, .pcie, .aia, .out] ⊆ l := by decide) : s.sameBut (a.cphAddrFault pair queue slot addr) l :=
  ((h.withRegs _ (hl (by simp))).fault uMem _ _ _ (by decide) hl).fault uCph _ _ _ (by decide) hl

/-! ### The clauses of O35 -/

/-- Settles O35, clause by clause. -/
theorem cipherRequests : Obligations.CipherRequests := by
  unfold Obligations.CipherRequests
  refine ⟨?unframed, ?outbound, ?foreignKind, ?fetched, ?notFetched, ?agree, ?mismatch, ?corrected, ?quarantined,
    ?marked, ?carried, ?stored, ?foreignRange, ?packet, ?failed, ?dropped, ?replayed⟩
  case unframed =>
    intro s pair index op ecc m b inl way hready hheld hm hfirst hkind hqueue hcross hmoving htd hgood hparse hrange
      hway hlooked hvalid howner hfits hmode hinline hout hlen hfr hserves
    have h : s.AdmitsInline pair index op m b inl way := ⟨hready, hheld, hm, hfirst, hkind, hqueue, hcross, hmoving,
      htd, hgood, hparse, hrange, hway, hlooked, hvalid, howner, hfits, hmode, hinline, hout, hlen, hserves⟩
    have arm := h.exec (.inl hfr) ecc
    rw [recAfter, hfr] at arm
    obtain ⟨hcount, hhits, hcached, hregs, hbut⟩ := s.admission_spec pair index way.record way.dirty
      (s.inlineReq pair m op b inl way.record 0)
    exact ⟨_, arm, rfl, hcount, hhits, hcached, rfl, hregs, hbut⟩
  case outbound =>
    intro s pair index op ecc m b inl way hready hheld hm hfirst hkind hqueue hcross hmoving htd hgood hparse hrange
      hway hlooked hvalid howner hfits hmode hinline hout hlen hfr hdir hleft hserves
    have h : s.AdmitsInline pair index op m b inl way := ⟨hready, hheld, hm, hfirst, hkind, hqueue, hcross, hmoving,
      htd, hgood, hparse, hrange, hway, hlooked, hvalid, howner, hfits, hmode, hinline, hout, hlen, hserves⟩
    have arm := h.exec (.inr ⟨hdir, hleft⟩) ecc
    rw [recAfter, hfr] at arm
    obtain ⟨-, -, hcached, hregs, hbut⟩ := s.admission_spec pair index (krSetSeq way.record (krSeq way.record + 1)) true
      (s.inlineReq pair m op b inl way.record (krSeq way.record))
    exact ⟨_, arm, rfl, hcached, rfl, hregs, hbut⟩
  case foreignKind =>
    intro s pair index ecc m hready hheld hm hfirst hcross hkind
    have arm := exec_cphAdmission_checked hready hheld hm hfirst hcross ecc
    rw [State.cphCheck_foreign hkind] at arm
    refine ⟨_, arm, State.cphFault_hasError _ 0x01 _ _ _ (by decide), ?_, ?_, ?_⟩
    · rw [State.cphFault_get _ _ _ _ _ (by decide), State.get_count_same, State.setInbox_get]
    · rw [State.cphFault_prm, State.count_prm]
    · exact .fault (.withRegs (.withPrm (.refl s _) _) _) uCph _ _ _
  case fetched =>
    intro s slot p q r hheld hwant hmiss hroom hclean hr
    obtain ⟨hcached, hother, hcph⟩ := s.slotMissed_arrives slot .clean r
    exact ⟨_, exec_keySlotFetch_good hheld hwant hmiss hroom hclean hr, hcached, s.slotMissed_misses slot .clean,
      hother, hcph, .withCph (.set (a := s) (.refl s _) _ (by simp)) _, .withCph (.withRegs (.refl s _) _) _⟩
  case notFetched =>
    intro s slot p q ecc hheld hwant hmiss hroom hbad
    obtain ⟨hcached, hother, hcph⟩ := s.slotMissed_arrives slot ecc (krEmptied (s.bytes (s.slotAddr slot) 160))
    have hcache : ∀ (x : State) n, (x.cphFault 0x06 p q slot).cachedSlot n = x.cachedSlot n := fun x n =>
      State.cachedSlot_congr (congrArg CphState.cache (x.cphFault_cph ..)) n
    refine ⟨_, exec_keySlotFetch_bad hheld hwant hmiss hroom hbad, (hcache _ slot).trans hcached,
      fun n hn => (hcache _ n).trans (hother n hn), ?_, State.cphFault_hasError _ 0x06 _ _ _ (by decide), ?_, ?_⟩
    · exact (State.cphFault_get _ _ _ _ _ (by decide)).trans (s.slotMissed_misses slot ecc)
    · rw [State.cphFault_cph]
      exact hcph
    · exact .fault (.withCph (.withRegs (.memRead (.refl s _) ecc _) _) _) uCph _ _ _
  case agree =>
    intro s index r hr hphase hserves hheld
    obtain ⟨-, hregs⟩ := s.cphFinish_frame r
    refine ⟨_, exec_cphCompare_agree hr hserves hheld hphase, fun o nx hc => ?_, fun hc => ?_, hregs.withCph _,
      .withCph (.cphFinish (.refl s _) r) _⟩
    · rw [State.cphFinish_some hc]
    · rw [State.setReqs_cph, State.setReqs_get, State.cphFinish_none hc]
      exact ⟨rfl, State.get_count_same _ _⟩
  case mismatch =>
    intro s index r hr hphase hserves hheld
    refine ⟨_, exec_cphCompare_mismatch hr hserves hheld hphase, ?_, ?_, ?_,
      .withCph (.set (a := s) (.refl s _) _ (by simp)) _, .withCph (.withRegs (.refl s _) _) _⟩
    · rw [State.setReqs_cph, State.mismatch_cph]
    · rw [State.setReqs_get, State.mismatch_count]
    · rw [State.setReqs_pairState, State.mismatch_pairState, hserves]
  case corrected =>
    intro s index r hr hphase hb hserves hheld
    obtain ⟨-, hqueue, hslot⟩ := hb
    obtain ⟨-, hregs⟩ := s.cphFinish_frame r
    obtain ⟨herr, hcount, hauth, hvalid, hlastQ, hlastS⟩ := (s.cphFinish r).2.corrected_spec hqueue hslot
    refine ⟨_, exec_cphRetryCompare_agree hr hserves hheld hphase, fun o nx hc => ?_, fun hc => ⟨?_, ?_⟩,
      State.setReqs_hasError herr _, ?_, ?_, ?_, ?_, .withCph (.corrected (.cphFinish (.refl s _) r) r) _⟩
    · rw [State.setReqs_cph, State.corrected_cph, State.cphFinish_some hc]
    · rw [State.setReqs_cph, State.cphFinish_none hc]
    · rw [State.setReqs_get, hauth, State.cphFinish_none hc]
      exact State.get_count_same _ _
    · rw [State.setReqs_get, hcount, State.get, hregs _ (by decide), State.get]
    · rw [State.setReqs_get, hvalid]
    · rw [State.setReqs_get, hlastQ]
    · rw [State.setReqs_get, hlastS]
  case quarantined =>
    intro s index r hr hphase hpair hserves hheld hnow
    obtain ⟨hcount, herr, hcph⟩ := s.mismatchOut_spec r.pair r.queue r.slot
    obtain ⟨hstate, htest, hkept, herrs, hcph'⟩ := (s.mismatchOut r.pair r.queue r.slot).quarantine_spec r.pair
    refine ⟨_, exec_cphRetryCompare_mismatch hr hserves hheld hphase hnow, hstate, htest, hkept.trans hcount,
      herrs 8 herr, fun i x hx hne => State.quarantine_req_ne (by rw [hcph]; exact hx) hne, ?_, ?_⟩
    · rw [hcph', hcph]
    · exact .quarantine (.withCph (.secondMismatch (.refl s _) ..) _) _
  case marked =>
    intro s index p r hr hmark hp
    obtain ⟨hcount, hstate, herr⟩ := s.secondMismatch_spec p r.queue r.slot
    refine ⟨_, exec_cphRetryCompare_marked hr hmark, ?_, ?_, ?_, State.setReqs_hasError herr _,
      .withCph (.secondMismatch (.refl s _) ..) _⟩
    · rw [State.setReqs_cph, State.secondMismatch_cph]
    · rw [State.setReqs_get, hcount]
    · rw [State.setReqs_pairState, hstate]
  case carried =>
    intro s index r hr hph hfirst hheld hstatus hcommand hfr hinline
    have arm := exec_cphResultRelease hr hph.1 hfirst hheld (State.cphWindow_unchecked _ (.inr hfr))
    rw [State.cphEmit_carried hstatus hcommand hinline, ← State.cphReleased, State.cphAnswer_eq_send] at arm
    refine ⟨_, arm, ?_, State.send_completion_prm (s.cphReleased_prm ..) (s.cphReleased_tb ..) _ _ _ _ _ _, ?_,
      (s.cphReleased_sameRegs index r).withPrm _, .withPrm (.cphReleased (.refl s _) index r) _⟩
    · rw [State.send_cph, State.cphReleased_cph]
    · rw [State.send_get, State.cphReleased_bytes]
  case stored =>
    intro s index r hr hph hfirst hheld hstatus hcommand hfr href howns
    have arm := exec_cphResultRelease hr hph.1 hfirst hheld (State.cphWindow_unchecked _ (.inr hfr))
    rw [State.cphEmit_stored (s := s.cphDone index) hstatus hcommand href howns, ← State.cphReleased,
      State.cphAnswer_eq_send] at arm
    refine ⟨_, arm, ?_, ?_, fun x hx => ?_, ?_, ?_⟩
    · rw [State.send_cph, State.putBytes_cph, State.cphReleased_cph]
    · rw [State.bytes_congr (State.send_mem ..), State.putBytes_bytes]
    · rw [State.send_byte, State.byte_putBytes_out _ _ _ _ hx, State.cphReleased_byte]
    · exact ((s.cphReleased_sameRegs index r).putBytes _ _).withPrm _
    · exact .withPrm (.putBytes (.cphReleased (.refl s _) index r) _ _) _
  case foreignRange =>
    intro s index r hr hphase hfirst hheld hstatus hcommand hfr href howns
    have arm := exec_cphResultRelease hr hphase hfirst hheld (State.cphWindow_unchecked _ (.inr hfr))
    rw [State.cphEmit_foreign (s := s.cphDone index) hstatus hcommand href howns, State.cphRefuse_command] at arm
    obtain ⟨herr, hmem, hviol, hcph, hprm, htb⟩ :=
      (s.cphDone index).cphAddrFault_spec r.pair r.queue r.slot (pbDst r.par)
    refine ⟨_, arm, ?_, herr, hmem, ?_, State.send_completion_prm (hprm.trans (s.cphDone_prm index))
      (htb.trans (s.cphDone_tb index)) _ _ _ _ _ _, .withPrm (.cphAddrFault (.cphDone (.refl s _) index) ..) _⟩
    · rw [State.send_cph, hcph, State.cphDone_cph]
    · rw [State.send_get, hviol, State.cphDone_get]
  case packet =>
    intro s index r hr hph hfirst hheld hstatus hpacket hfr
    have arm := exec_cphResultRelease hr hph.1 hfirst hheld (State.cphWindow_unchecked _ (.inr hfr))
    rw [State.cphEmit_packet hstatus hpacket, ← State.cphReleased] at arm
    refine ⟨_, arm, ?_, ?_, (s.cphReleased_sameRegs index r).withPrm _, .withPrm (.cphReleased (.refl s _) index r) _⟩
    · rw [State.send_cph, State.cphReleased_cph]
    · rw [State.send, State.send, State.withPrm_prm, State.withPrm_prm, State.cphReleased_prm]
  case failed =>
    intro s index r hr hphase hfirst hheld hstatus hcommand
    have arm := exec_cphResultRelease hr hphase hfirst hheld (State.cphWindow_unchecked _ (.inl hstatus))
    rw [State.cphEmit_failed hstatus, hcommand, State.cphRefuse_command] at arm
    refine ⟨_, arm, ?_, State.send_completion_prm (s.cphDone_prm index) (s.cphDone_tb index) _ _ _ _ _ _,
      .withPrm (.cphDone (.refl s _) index) _, .withPrm (.cphDone (.refl s _) index) _⟩
    rw [State.send_cph, State.cphDone_cph]
  case dropped =>
    intro s index r hr hphase hfirst hheld hstatus hpacket
    have arm := exec_cphResultRelease hr hphase hfirst hheld (State.cphWindow_unchecked _ (.inl hstatus))
    rw [State.cphEmit_failed hstatus, hpacket, State.cphRefuse, if_pos rfl] at arm
    refine ⟨_, arm, ?_, ?_, .set (.cphDone (.refl s _) index) _ (by simp), .withRegs (.cphDone (.refl s _) index) _⟩
    · rw [State.count_cph, State.cphDone_cph]
    · rw [State.get_count_same, State.cphDone_get]
  case replayed =>
    intro s index r hr hphase hfirst hheld hstatus hcommand hdir hnew hgood hseen
    have arm := exec_cphResultRelease hr hphase hfirst hheld
      (State.cphWindow_replayed hstatus hdir.1 hdir.2 hnew hgood hseen)
    rw [State.cphEmit_failed (by simp), hcommand, State.cphRefuse_command] at arm
    refine ⟨_, arm, ?_, ?_, State.send_completion_prm (s.cphDone_prm index) (s.cphDone_tb index) _ _ _ _ _ _,
      .withPrm (.set (.cphDone (.refl s _) index) _ (by simp)) _, .withPrm (.withRegs (.cphDone (.refl s _) index) _) _⟩
    · rw [State.send_cph, State.count_cph, State.cphDone_cph]
    · rw [State.send_get, State.get_count_same, State.cphDone_get]

end Sys2Proof.Machine
end
